-- ==== Sys2Proof/Word.lean ====
section
/-! DEFINITION. Words and bytes: the bit vectors of the spec's registers and byte fields, and the
sorted table that holds every numbered array of the machine. -/

namespace Sys2Proof

/-- One byte of an image, a message or a record. -/
abbrev Byte := BitVec 8

/-- One register word (Registers and addresses, chapter 0: registers are 32 bits wide). -/
abbrev Word := BitVec 32

/-- A numbered array held sparsely: index and entry, indices strictly rising, and no entry equal to
what an unlisted index reads as (`Tab.wf`). -/
abbrev Tab (α : Type) := List (Nat × α)

/-- What index `i` of the array holds; `d` is what an unlisted index holds. -/
def Tab.get {α : Type} (d : α) : Tab α → Nat → α
  | [], _ => d
  | (k, v) :: t, i => if i = k then v else Tab.get d t i

/-- Put `v` at index `i`, in its place. -/
def Tab.put {α : Type} : Tab α → Nat → α → Tab α
  | [], i, v => [(i, v)]
  | (k, w) :: t, i, v =>
    if i < k then (i, v) :: (k, w) :: t else if i = k then (k, v) :: t else (k, w) :: Tab.put t i v

/-- Make index `i` hold `v`, keeping the canonical form: making it hold `d` removes the entry. -/
def Tab.set {α : Type} [DecidableEq α] (d : α) (t : Tab α) (i : Nat) (v : α) : Tab α :=
  if v = d then t.filter fun e => e.1 != i else Tab.put t i v

/-- Every index of `t` is above `lo`, indices rise strictly, and no entry is the default. -/
def Tab.wfFrom {α : Type} [DecidableEq α] (d : α) : Option Nat → Tab α → Bool
  | _, [] => true
  | lo, (k, v) :: t =>
    (match lo with
      | none => true
      | some b => decide (b < k)) && decide (v ≠ d) && Tab.wfFrom d (some k) t

/-- The canonical form of a sparse array. -/
def Tab.wf {α : Type} [DecidableEq α] (d : α) (t : Tab α) : Bool := Tab.wfFrom d none t

end Sys2Proof
end

