-- ==== Sys2Proof/Syntax.lean ====
section
/-! DEFINITION. The commands of the device (spec/opcode_table.json, one constructor for each row) and the plain data
that they carry: what the device reads from its rings, what a host writes, and how an event falls out. -/

namespace Sys2Proof

/-- A host port (R484). -/
inductive Port
  | t1s | can | spi
  deriving DecidableEq, Repr

/-- The Husk copies in which an event happens (R189). -/
inductive Copies
  | main | shadow | both
  deriving DecidableEq, Repr

/-- Why a current channel does not run (R175). -/
inductive CurFault
  | none | input | conv | cmp
  deriving DecidableEq, Repr

/-- How the comparator of a pair and the buffers behind it behave at a committed write of the checker (R350 to R356):
sound, rails that do not match, an injection not caught, an uncorrectable queue entry, or an uncorrectable checkpoint
that a mismatch at this write meets. -/
inductive Cmp
  | good | railFault | missed | badEntry | badCkpt
  deriving DecidableEq, Repr

/-- The round trips of the ECHO exchanges with the node at a position (R105): 16 from each port that reaches it, timed
in ns; none from the other. -/
structure DelayMeas where
  /-- position -/
  pos : Nat
  /-- RTT of each exchange from port A -/
  rttA : List Nat
  /-- RTT of each exchange from port B -/
  rttB : List Nat
  deriving DecidableEq, Repr

/-- What authentication reads from the node at a position (R126, R128). -/
structure AuthResp where
  /-- position -/
  pos : Nat
  /-- N_TAG of the first challenge, empty when absent -/
  tag1 : List Byte
  /-- N_TAG of the second challenge, if one was needed -/
  tag2 : List Byte
  /-- N_PAIR, 56 bytes -/
  pair : List Byte
  deriving DecidableEq, Repr

/-- A slot of a SUMMARY frame as it arrives (R98): ring, port, and its bytes from POS to CRC. -/
structure SumRx where
  /-- ring -/
  ring : Nat
  /-- the port is port B -/
  portB : Bool
  /-- bytes from POS to CRC -/
  bytes : List Byte
  deriving DecidableEq, Repr

/-- What the link carries around a host's frame (R485, R487, R489): an Ethernet frame's destination, source and EtherType
and whether its FCS verifies; a CAN FD frame's identifier and whether it has 29 bits; nothing on SPI. -/
inductive LinkAddr
  | eth (dst src : BitVec 48) (etype : BitVec 16) (fcs : Bool)
  | can (id : BitVec 29) (ext : Bool)
  | spi
  deriving DecidableEq, Repr

/-- The port on which a frame arrives. -/
def LinkAddr.port : LinkAddr → Port
  | .eth _ _ _ _ => .t1s
  | .can _ _ => .can
  | .spi => .spi

/-- What the CAN FD controller meets (R486, R512, ISO 11898-1): bus-off and its recovery, error passive and back to error
active. -/
inductive CanEvent
  | busOff | recovered | passive | active
  deriving DecidableEq, Repr

/-- What a frame of a THP request carries beside its body (R485, R487, R490 to R493): its link, the TAG, the SNID it is
addressed to, whether its BCAST is set, its segment index, and whether segments of it are still to come. The command of
the last segment carries the whole body. -/
structure ReqHdr where
  /-- addresses of the link -/
  link : LinkAddr
  /-- TAG -/
  tag : BitVec 16
  /-- SNID addressed -/
  snid : BitVec 12
  /-- BCAST -/
  bcast : Bool
  /-- SEG -/
  seg : Nat
  /-- MORE: not its last segment -/
  more : Bool
  deriving DecidableEq, Repr

/-- The port of a request. -/
def ReqHdr.port (h : ReqHdr) : Port := h.link.port

/-- A word with an uncorrectable ECC error, met while a region under test is copied to the shadow (R570), by what it
holds. -/
inductive BistEcc
  /-- a word of SRAM -/
  | sram
  /-- a word of the state block of cell `c` -/
  | cell (c : Nat)
  /-- a word of table `id` -/
  | table (id : Nat)
  deriving DecidableEq, Repr

/-- What the device measures or meets while it carries out a write: VCORE in mV and the deviation of TREF in ppm as a
self-test start finds them (R567), the uncorrectable words of the first region it copies (R570), and whether a logged
debugger write turns out uncorrectable when the checker replays it (R371). -/
structure WrMeas where
  /-- VCORE, mV -/
  mv : Nat
  /-- deviation of TREF, ppm -/
  ppm : Int
  /-- the replay entry is uncorrectable -/
  bad : Bool
  /-- uncorrectable words of the first region that a self-test start copies -/
  ecc : List BistEcc := []
  deriving DecidableEq, Repr


/-- A register that a debugger writes and the device logs for replay (R371, R380). -/
inductive DbgReg
  /-- DBG_Fi -/
  | f (i : Fin 32)
  /-- DBG_PRED -/
  | pred
  /-- DBG_SW word `w` of shadow cell `j`, numbered 64 j + w -/
  | shadow (j : Fin 512)
  deriving DecidableEq, Repr

/-- The commands, in the order of spec/opcode_table.json. -/
inductive Instr
  /-- FRAME_BOUNDARY (R14): at the next boundary of the grid the ledger counts the frame that ends, FRM increments,
  throttle actions and scheduled modes take effect, and TRIG leaves all four ring ports -/
  | frameBoundary
  /-- ACQUISITION_CUT_OFF (R14): the frame's records close, what did not arrive is MISSING, the aggregates close and
  are compared, the monitors are evaluated, COMMAND leaves, and the closed records go to estimation, kernel, Winnow
  and ledger. `aux`: the codes of the auxiliary inputs -/
  | acquisitionCutOff (aux : List Nat)
  /-- COMMIT_POINT (R14): verified steps commit and publish, unfinished ones are abandoned and LATE, and Winnow,
  estimation and the Tally engine take the committed frame. `slackNs`: how long before the commit point the kernel
  work ended -/
  | commitPoint (slackNs : Nat)
  /-- SUMMARY_STAGE (R278) -/
  | summaryStage
  /-- SYS_MODE_WRITE (R29): request header, `p`: WRITE_P instead of WRITE; SYS_MODE written with `v` -/
  | sysModeWrite (h : ReqHdr) (p : Bool) (v : Word)
  /-- IMG_CHUNK (R52): `data` is staged at `off` -/
  | imgChunk (h : ReqHdr) (off : Nat) (data : List Byte)
  /-- IMG_COMMIT (R53): validation of the first `len` bytes of IMGSTAGE starts; the answer comes at completion -/
  | imgCommit (h : ReqHdr) (len : Nat)
  /-- IMG_VALIDATION_DONE (R49): validation ends at its first failure, or passes -/
  | imgValidationDone
  /-- IMG_SLOT_WRITE_DONE (R53): `ok` says that the slot was written and reads back the same. Then it holds the image,
  the commit is recorded and answered, and the image waits for its activation; if not, the commit fails -/
  | imgSlotWriteDone (ok : Bool)
  /-- IMG_ABORT_STAGE (R65): request header, `p`: WRITE_P instead of WRITE; IMG_CTRL.ABORT_STAGE written 1 -/
  | imgAbortStage (h : ReqHdr) (p : Bool)
  /-- IMG_CANCEL (R65): request header, `p`: WRITE_P instead of WRITE; IMG_CTRL.CANCEL written 1 -/
  | imgCancel (h : ReqHdr) (p : Bool)
  /-- HOT_ACTIVATION (R59): at the boundary of frame n + 2 -/
  | hotActivation
  /-- COLD_ACTIVATION_HOLD (R60): at a frame boundary at which every string stands open and no sequencer runs. A
  ledger checkpoint is taken (R437) -/
  | coldActivationHold
  /-- COLD_ACTIVATION_LOAD_PROTECTION (R60): `intact` says that the slot could be read -/
  | coldActivationLoadProtection (intact : Bool)
  /-- COLD_ACTIVATION_ENUMERATE (R60): if TOPO changed, both rings enumerate and authenticate again -/
  | coldActivationEnumerate
  /-- COLD_ACTIVATION_LOAD_MODELS (R60): once the rings have settled -/
  | coldActivationLoadModels (intact : Bool)
  /-- COLD_ACTIVATION_COMPLETE (R60): the hold ends, IMG_ACTIVATED is recorded, and a KEY close request that still
  holds is acted on -/
  | coldActivationComplete
  /-- VSUP_VALID (R67): VSUP, in mV, has stayed above V_POR for 1 ms, in OFF or after a power-fail warning -/
  | vsupValid (vsup : Nat)
  /-- STARTUP_P_DIE_UP (R67): VIO is in regulation -/
  | startupPDieUp
  /-- STARTUP_CORE_UP (R67): VCORE is at 0.80 V. Start-up does not pass step 2 while the restart watch holds it
  (R413) -/
  | startupCoreUp (keyOk aOk bOk sealOpen : Bool)
  /-- STRAP_LATCH (R70): three samples of CHEM and of PRES_STRAP (`true` reads 1), 1 ms apart from L-die reset
  release -/
  | strapLatch (c0 c1 c2 : BitVec 2) (p0 p1 p2 : Bool)
  /-- STARTUP_IMAGE_SELECT (R67): both slots are checked, an image is selected and its sections load. `aOk` and
  `bOk`: the slot can be read; `fa` and `fb`: a section of it that cannot be read intact as it loads, with the
  cause; `netOk` and `romOk`: the netlist of the selected image, and the ROM fallback, can be loaded -/
  | startupImageSelect (aOk bOk : Bool) (fa fb : Option (Nat × Nat)) (netOk romOk : Bool)
  /-- STARTUP_RINGS (R67): the rings have enumerated, TREF is trimmed, and locked when a crystal is found (`xtal`);
  the current channels start. The first frame begins with the next FRAME_BOUNDARY -/
  | startupRings (xtal : Bool) (bad : List (Nat × Bool))
  /-- STARTUP_STEWARD (R67): the steward boots, the low SRAM is tested, REC and HOST load, and the host link and the
  recorder start. `recBad` and `hostBad`: the cause where the section cannot be read intact -/
  | startupSteward (bad : List (Nat × Bool)) (recBad hostBad : Nat) (tests : List (Nat × Nat × Nat × Nat))
  /-- STARTUP_ESTIMATE (R67): once steps 5 and 6 are done. `kprog`, `ktab`, `est`, `win`: the cause where that
  section cannot be read intact -/
  | startupEstimate (bad : List (Nat × Bool)) (kprog ktab est win : Nat) (tests : List (Nat × Nat × Nat × Nat))
  /-- STARTUP_FULL (R67): the chip selects of the Granary that answer, its total in MiB and its erase unit. The
  recorder leaves digest mode -/
  | startupFull (bad : List (Nat × Bool)) (cs mib unit : Nat)
  /-- STARTUP_LATE (R69): step `k` misses its bound; the first late step is recorded -/
  | startupLate (k : Nat)
  /-- SPROUT_STATUS_FRAME (R83): every 100 ms on CAN FD, under Sprout with a NODE assigned -/
  | sproutStatusFrame
  /-- RING_START (R112): ring `r` -/
  | ringStart (r : Nat)
  /-- ENUM_TOKEN_A (R112): ring `r`, the count the token holds, and whether it returned to port A -/
  | enumTokenA (r count : Nat) (returned : Bool)
  /-- ENUM_TOKEN_B (R112): ring `r` and the count the token holds -/
  | enumTokenB (r count : Nat)
  /-- ENUM_READ (R112): ring `r` and the 20 bytes N_UID to N_POS read from every node reached -/
  | enumRead (r : Nat) (ds : List (List Byte))
  /-- ENUM_MEASURE (R112): ring `r`, its loop delays L_CW and L_CCW in ns, none where the ECHO does not arrive, and the
  exchanges with every node -/
  | enumMeasure (r : Nat) (loop : Option (Nat × Nat)) (ms : List DelayMeas)
  /-- ENUM_AUTHENTICATE (R112): ring `r` and the tags and pairing records read -/
  | enumAuthenticate (r : Nat) (as : List AuthResp)
  /-- ENUM_FIRST_TRIG (R112): ring `r` -/
  | enumFirstTrig (r : Nat)
  /-- RING_ENUM_REQUEST (R115): request header, `p`: WRITE_P instead of WRITE; RINGn_CTRL.ENUM of ring `r` written 1
  -/
  | ringEnumRequest (h : ReqHdr) (p : Bool) (r : Fin 2)
  /-- RING_MEAS_REQUEST (R131): request header, `p`: WRITE_P instead of WRITE; RINGn_CTRL.MEAS of ring `r` written 1
  -/
  | ringMeasRequest (h : ReqHdr) (p : Bool) (r : Fin 2)
  /-- COLLECT_SEND (R100): ring `r` -/
  | collectSend (r : Nat)
  /-- COLLECT_SLOT_RECEIVE (R99): ring `r`, the port the slot arrived at, its bytes from POS to CRC (none for an invalid
  code group on its own, R95), and, of a copy that returns to the port it left, the node at which it turned -/
  | collectSlotReceive (r : Nat) (portB : Bool) (bytes : List Byte) (turn : Option Nat)
  /-- ALARM_RECEIVE (R110): ring `r`, the port, and the second and third code groups -/
  | alarmReceive (r : Nat) (portB : Bool) (a na : Byte)
  /-- MGMT_EXCHANGE (R103): ring `r` and the response area as it comes back: RSTAT, a reserved byte, DATA and CRC -/
  | mgmtExchange (r : Nat) (resp : List Byte)
  /-- DELAY_MEASUREMENT (R108): ring `r`, the RTT of the 16 exchanges with the node measured from each port that reaches
  it, and the loop delays L_CW and L_CCW in ns, none where the ECHO does not arrive -/
  | delayMeasurement (r : Nat) (rttA rttB : List Nat) (loop : Option (Nat × Nat))
  /-- NODE_LOST (R118): ring `r`, position `p` -/
  | nodeLost (r p : Nat)
  /-- LINK_UP (R119): ring `r` -/
  | linkUp (r : Nat)
  /-- LIVE_INSERT_COUNT (R119): ring `r`, the value of the token (N_PROBE of the node at B_FIRST, or what returned to
  port A: `returned`), and N_DESC of each new node -/
  | liveInsertCount (r n : Nat) (returned : Bool) (descs : List Word)
  /-- LIVE_INSERT_CONFIGURE (R119): ring `r`, the 20 bytes N_UID to N_POS of each new node, and the exchanges with it -/
  | liveInsertConfigure (r : Nat) (ds : List (List Byte)) (ms : List DelayMeas)
  /-- LIVE_INSERT_AUTHENTICATE (R119): ring `r` and the tags and pairing records read -/
  | liveInsertAuthenticate (r : Nat) (as : List AuthResp)
  /-- LIVE_INSERT_UNWRAP (R119): ring `r` -/
  | liveInsertUnwrap (r : Nat)
  /-- NODE_CHALLENGE (R126): ring `r`, position `p` -/
  | nodeChallenge (r p : Nat)
  /-- NODE_TAG_CHECK (R126): ring `r`, position `p`; N_TAG has been read, or is absent -/
  | nodeTagCheck (r p : Nat)
  /-- BALANCE_DECISION (R143) -/
  | balanceDecision
  /-- BAL_NODE_FAULT (R145): ring `r`, position `p` -/
  | balNodeFault (r p : Nat)
  /-- DIE_TEMP_TIMEOUT (R149): ring `r`, position `p` -/
  | dieTempTimeout (r p : Nat)
  /-- COUP_ID_START (R147): ring `r`, position `p` -/
  | coupIdStart (r p : Nat)
  /-- COUP_ID_COMPLETE (R147): ring `r`, position `p` -/
  | coupIdComplete (r p : Nat)
  /-- COUP_ID_GIVE_UP (R147): ring `r`, position `p` -/
  | coupIdGiveUp (r p : Nat)
  /-- ACQ_COUP_ID (R161): request header, `p`: WRITE_P instead of WRITE; ACQ_CTRL.COUP_ID written 1 -/
  | acqCoupId (h : ReqHdr) (p : Bool)
  /-- ACQ_OW_NOW (R161): request header, `p`: WRITE_P instead of WRITE; ACQ_CTRL.OW_NOW written 1 -/
  | acqOwNow (h : ReqHdr) (p : Bool)
  /-- OW_TEST_READ (R154): ring `r`, position `p`, the N_STACK word and P_0 to P_16 in mV -/
  | owTestRead (r p : Nat) (stack : Word) (ps : List Nat)
  /-- SLEEP_PATROL (R158): PATROL seconds after the last patrol each configured ring is woken and read; `fails`
  names the rings that did not wake -/
  | sleepPatrol (slots : List SumRx) (fails : List Nat)
  /-- PATROL_RECHECK (R159): 1 s after the patrol that missed nodes, their rings are patrolled again -/
  | patrolRecheck (slots : List SumRx) (fails : List Nat)
  /-- CURRENT_SAMPLE (R170): channel `n`, calibrated code `x`, whether it is the sample at S (or the last of a
  Precise window), whether its reference instant lies in the frame before, and the interval to the next reference
  instant -/
  | currentSample (n : Nat) (x : Int) (atS old : Bool) (ns : Nat)
  /-- CUR_CH_CFG_WRITE (R169): request header, `p`: WRITE_P instead of WRITE; CUR_CHn_CFG of channel `n` written
  with `v` -/
  | curChCfgWrite (h : ReqHdr) (p : Bool) (n : Fin 8) (v : Word)
  /-- CUR_CH_FS_WRITE (R169): request header, `p`: WRITE_P instead of WRITE; CUR_CHn_FS of channel `n` written with
  `v` -/
  | curChFsWrite (h : ReqHdr) (p : Bool) (n : Fin 8) (v : Word)
  /-- CUR_CH_OFS_WRITE (R169): request header, `p`: WRITE_P instead of WRITE; CUR_CHn_OFS of channel `n` written
  with `v` -/
  | curChOfsWrite (h : ReqHdr) (p : Bool) (n : Fin 8) (v : Word)
  /-- CAL_TRIGGER (R174): channel `n` -/
  | calTrigger (n : Nat)
  /-- CAL_SWITCH (R174): channel `n` -/
  | calSwitch (n : Nat)
  /-- CAL_APPLY (R174): channel `n` -/
  | calApply (n : Nat)
  /-- CAL_RETURN (R174): channel `n` -/
  | calReturn (n : Nat)
  /-- CUR_CAL_NOW (R186): request header, `p`: WRITE_P instead of WRITE; CUR_CTRL.CAL_NOW written 1 -/
  | curCalNow (h : ReqHdr) (p : Bool)
  /-- CUR_CAL_OVERDUE (R174): channel `n` -/
  | curCalOverdue (n : Nat)
  /-- CHANNEL_STOP (R175): channel `n`, the fault, its pin, cause or comparator, and the pin voltage in mV -/
  | channelStop (n : Nat) (f : CurFault) (sub : Nat) (mv : Int)
  /-- CUR_DISAGREE_SET (R177): string `i` -/
  | curDisagreeSet (i : Nat)
  /-- CUR_DISAGREE_CLEAR (R177): string `i` -/
  | curDisagreeClear (i : Nat)
  /-- COMPARATOR_CROSSING (R181): channel `n`, the low comparator instead of the high one, the raw output's new
  level -/
  | comparatorCrossing (n : Nat) (lo up : Bool)
  /-- CMP_TEST (R182): request header, `p`: WRITE_P instead of WRITE; CUR_CTRL.CMP_TEST written 1 -/
  | cmpTest (h : ReqHdr) (p : Bool)
  /-- CMP_CHECK_DONE (R182): channel `n` and whether its comparators toggled -/
  | cmpCheckDone (n : Nat) (hiOk loOk : Bool)
  /-- TRIP_LATCH_SET (R206): a trip condition of category `cat` (0 T0, 1 T1, 2 T2) of string `i` at source `src` has
  stood for 2 ns in the copies `m` -/
  | tripLatchSet (m : Copies) (cat i src : Nat)
  /-- HUSK_SLOT_ASSERT (R199): comparator slot `k` in the copies `m` -/
  | huskSlotAssert (m : Copies) (k : Nat)
  /-- HUSK_SLOT_CLEAR (R199): comparator slot `k` in the copies `m` -/
  | huskSlotClear (m : Copies) (k : Nat)
  /-- HUSK_TIMER_EXPIRY (R200): timer `k` in the copies `m` -/
  | huskTimerExpiry (m : Copies) (k : Nat)
  /-- SEQUENCER_START (R201): sequencer `q` in the copies `m` -/
  | sequencerStart (m : Copies) (q : Nat)
  /-- SEQUENCER_WAIT_MET (R201): sequencer `q` in the copies `m` -/
  | sequencerWaitMet (m : Copies) (q : Nat)
  /-- SEQUENCER_TIMEOUT (R201): sequencer `q` in the copies `m` -/
  | sequencerTimeout (m : Copies) (q : Nat)
  /-- SEQUENCER_ABORT (R201): sequencer `q` in the copies `m` -/
  | sequencerAbort (m : Copies) (q : Nat)
  /-- HUSK_DIVERGENCE (R207): output `k`: a binding, or 0x400 plus a pre-driver channel -/
  | huskDivergence (k : Nat)
  /-- HUSK_DIVERGE_RECORD (R207): `intact`: the HUSK section can be read -/
  | huskDivergeRecord (intact : Bool)
  /-- HUSK_CRC_CHECK (R208): the CRCs the copies compute, corrected ECC errors, uncorrectable errors of each copy,
  and whether the HUSK section can be read -/
  | huskCrcCheck (crcM crcS : Word) (corr : Nat) (uncM uncS intact : Bool)
  /-- NETLIST_LOAD (R215) -/
  | netlistLoad
  /-- GRACE_EXPIRY (R211): string `i` -/
  | graceExpiry (i : Nat)
  /-- HUSK_CLOSE_REQ (R221): request header, `p`: WRITE_P instead of WRITE; HUSK_CTRL.CLOSE_REQ written with `mask`
  -/
  | huskCloseReq (h : ReqHdr) (p : Bool) (mask : BitVec 4)
  /-- HUSK_OPEN (R221): request header, `p`: WRITE_P instead of WRITE; HUSK_CTRL.OPEN written with `mask` -/
  | huskOpen (h : ReqHdr) (p : Bool) (mask : BitVec 4)
  /-- HUSK_TRIP_CLR (R214): request header, `p`: WRITE_P instead of WRITE; HUSK_CTRL.TRIP_CLR written with `mask` -/
  | huskTripClr (h : ReqHdr) (p : Bool) (mask : BitVec 4)
  /-- KEY_REARM (R214) -/
  | keyRearm
  /-- ECONOMY_ENTRY (R225): pre-driver channel `n` -/
  | economyEntry (n : Nat)
  /-- DRIVE_FAULT (R227): channel `n`, a wrong gate level instead of overcurrent, coil current in mA -/
  | driveFault (n : Nat) (gate : Bool) (coil : Nat)
  /-- OPEN_COIL_FAULT (R227): channel `n` and three coil currents in mA, oldest first -/
  | openCoilFault (n c0 c1 c2 : Nat)
  /-- FAST_OPEN_TIMEOUT (R232): string `i` -/
  | fastOpenTimeout (i : Nat)
  /-- WELD_CHECK_START (R234): string `i` -/
  | weldCheckStart (i : Nat)
  /-- WELD_CHECK_EVALUATE (R235): string `i` -/
  | weldCheckEvaluate (i : Nat)
  /-- DRV_WELD_CHECK (R245): request header, `p`: WRITE_P instead of WRITE; DRV_CTRL.WELD_CHECK written with `mask`
  -/
  | drvWeldCheck (h : ReqHdr) (p : Bool) (mask : BitVec 4)
  /-- HVIL_FAULT (R240): loop `n`, return currents of its last samples in 10 uA, oldest first -/
  | hvilFault (n : Nat) (samples : List Nat)
  /-- HVIL_FAULT_CLEAR (R240): loop `n`, return currents of its last samples in 10 uA, oldest first -/
  | hvilFaultClear (n : Nat) (samples : List Nat)
  /-- KEY_QUALIFY (R241): the last KEY samples, oldest first -/
  | keyQualify (samples : List Bool)
  /-- INPUT_CHATTER (R241): the last KEY samples, oldest first -/
  | inputChatter (samples : List Bool)
  /-- CHG_DET_QUALIFY (R553): CHG_DET has read the same, active for `true`, for `ns` nanoseconds. It is qualified
  active after 50 ms and inactive after three samples 1 ms apart; active leaves STANDBY (R549) -/
  | chgDetQualify (active : Bool) (ns : Nat)
  /-- KERNEL_STEP_START (R253): lane `l`; a program word of the step has an uncorrectable error -/
  | kernelStepStart (l : Nat) (bad : Bool)
  /-- END (R259): lane `l`, the measured duration of the step in ns, and how the comparison at the checker's END
  behaves -/
  | endStep (l ns : Nat) (cmp : Cmp)
  /-- FADD (R259): lane `l` -/
  | fadd (l : Nat) (d a b : BitVec 5)
  /-- FSUB (R259): lane `l` -/
  | fsub (l : Nat) (d a b : BitVec 5)
  /-- FMUL (R259): lane `l` -/
  | fmul (l : Nat) (d a b : BitVec 5)
  /-- FMA (R259): lane `l` -/
  | fma (l : Nat) (d a b c : BitVec 5)
  /-- FDIV (R259): lane `l` -/
  | fdiv (l : Nat) (d a b : BitVec 5)
  /-- FSQRT (R259): lane `l` -/
  | fsqrt (l : Nat) (d a : BitVec 5)
  /-- FEXP (R259): lane `l` -/
  | fexp (l : Nat) (d a : BitVec 5)
  /-- FMIN (R259): lane `l` -/
  | fmin (l : Nat) (d a b : BitVec 5)
  /-- FMAX (R259): lane `l` -/
  | fmax (l : Nat) (d a b : BitVec 5)
  /-- FABS (R259): lane `l` -/
  | fabs (l : Nat) (d a : BitVec 5)
  /-- CLAMP (R259): lane `l` -/
  | clamp (l : Nat) (d a b c : BitVec 5)
  /-- CMP (R259): lane `l` -/
  | cmp (l : Nat) (pd : BitVec 3) (a b : BitVec 5) (cond : BitVec 3)
  /-- SEL (R259): lane `l` -/
  | sel (l : Nat) (d a b : BitVec 5) (pn : BitVec 3)
  /-- MOVI (R259): lane `l` -/
  | movi (l : Nat) (d : BitVec 5) (kind : BitVec 2) (imm : BitVec 16)
  /-- CVT (R259): lane `l` -/
  | cvt (l : Nat) (d a : BitVec 5) (mode : BitVec 3)
  /-- LDI (R259): lane `l` -/
  | ldi (l : Nat) (d : BitVec 5) (idx : BitVec 8)
  /-- LDS (R259): lane `l`; the word has an uncorrectable error -/
  | lds (l : Nat) (d : BitVec 5) (w : BitVec 6) (bad : Bool)
  /-- STS (R259): lane `l`; how the comparator behaves at a checker's write -/
  | sts (l : Nat) (a : BitVec 5) (w : BitVec 6) (cmp : Cmp)
  /-- OUT (R259): lane `l`; how the comparator behaves at a checker's write -/
  | out (l : Nat) (a : BitVec 5) (j : BitVec 4) (cmp : Cmp)
  /-- TBL2 (R260): lane `l`; the copy the lane reads has an uncorrectable error -/
  | tbl2 (l : Nat) (d a b : BitVec 5) (t : BitVec 4) (bad : Bool)
  /-- SKIP (R259): lane `l` -/
  | skip (l : Nat) (always sense : Bool) (pn : BitVec 3) (n : BitVec 10)
  /-- HAND_OVER (R362): the pairs whose comparator retest catches every injection -/
  | handOver (retest : BitVec 16)
  /-- PAIR_RELEASE (R366): request header, `p`: WRITE_P instead of WRITE; PAIR_CTRL.RELEASE written with `mask` -/
  | pairRelease (h : ReqHdr) (p : Bool) (mask : BitVec 16)
  /-- DBG_SESSION_OPEN (R367): request header, `p`: WRITE_P instead of WRITE; DBG_SESSION written with OPEN 1 and
  PAIR `q` -/
  | dbgSessionOpen (h : ReqHdr) (p : Bool) (q : BitVec 4)
  /-- DBG_SESSION_CLOSE (R372): request header, `p`: WRITE_P instead of WRITE; DBG_SESSION.CLOSE written 1 -/
  | dbgSessionClose (h : ReqHdr) (p : Bool)
  /-- DBG_SESSION_TIMEOUT (R372) -/
  | dbgSessionTimeout
  /-- DBG_HALT (R370): request header, `p`: WRITE_P instead of WRITE; DBG_CTRL.HALT written 1 -/
  | dbgHalt (h : ReqHdr) (p : Bool)
  /-- DBG_RESUME (R379): request header, `p`: WRITE_P instead of WRITE; DBG_CTRL.RESUME written 1 -/
  | dbgResume (h : ReqHdr) (p : Bool)
  /-- DBG_STEP (R370): request header, `p`: WRITE_P instead of WRITE; DBG_CTRL.STEP written 1 -/
  | dbgStep (h : ReqHdr) (p : Bool)
  /-- DBG_BREAKPOINT (R370) -/
  | dbgBreakpoint
  /-- DBG_REGISTER_WRITE (R371): request header, `p`: WRITE_P instead of WRITE; the debug register `g` written with
  `v` -/
  | dbgRegisterWrite (h : ReqHdr) (p : Bool) (g : DbgReg) (v : Word) (m : WrMeas)
  /-- XTAL_LOST (R383): three comparisons with the locked crystal deviate by more than 500 ppm; TREF runs on its
  last trim -/
  | xtalLost (devs : List Int)
  /-- XTAL_RELOCK (R383): the lost crystal passes 100 consecutive comparisons, and TREF relocks to it -/
  | xtalRelock (devs : List Int)
  /-- TREF_FAULT (R383): without a crystal, three comparisons with the P-die oscillator deviate by more than 5 %;
  the timebase stops counting as running -/
  | trefFault (devs : List Int)
  /-- TNS_SAVE_WRITE (R386) -/
  | tnsSaveWrite
  /-- SYNC (R390): the beacon is heard, and on the servo's port its pair of H and TNS drives the servo -/
  | sync (l : LinkAddr) (sseq : BitVec 16) (two : Bool) (h : BitVec 64)
  /-- SYNC_HOLDOVER (R391): no SYNC for 5 s in ACQUIRE or LOCKED; the rate holds at freq -/
  | syncHoldover
  /-- TIME_RESYNC_REQUEST (R403): request header, `p`: WRITE_P instead of WRITE; TIME_CTRL.RESYNC written 1 -/
  | timeResyncRequest (h : ReqHdr) (p : Bool)
  /-- SYNC_EN_WRITE (R403): request header, `p`: WRITE_P instead of WRITE; TIME_CTRL.SYNC_EN written with `on` -/
  | syncEnWrite (h : ReqHdr) (p : Bool) (on : Bool)
  /-- TIME_WALL_SET (R395): request header, `p`: WRITE_P instead of WRITE; TIME_WALL_SET_HI written with `hi` -/
  | timeWallSet (h : ReqHdr) (p : Bool) (hi : Word)
  /-- TIME_TNS_LATCH (R404): request header; TIME_TNS_LO read -/
  | timeTnsLatch (h : ReqHdr)
  /-- THERMAL_MEASUREMENT (R406): every sensor of the powered dies is measured together -/
  | thermalMeasurement (ls ps : List (Int × Bool))
  /-- THERMAL_WARNING (R411): two measurements at or above WARN -/
  | thermalWarning
  /-- THERMAL_WARNING_END (R411): ten measurements below WARN - 5 degC -/
  | thermalWarningEnd
  /-- THERMAL_THROTTLE (R411): two measurements at or above THROT -/
  | thermalThrottle
  /-- THERMAL_THROTTLE_END (R411): ten measurements below THROT - 5 degC with no hold in force -/
  | thermalThrottleEnd
  /-- FAIL_HOLD_EXPIRY (R409): ten minutes after the last sensor failure in throttle the hold ends -/
  | failHoldExpiry
  /-- THERMAL_SHUTDOWN (R413): the last measurement found SHUT crossed -/
  | thermalShutdown
  /-- SHUTDOWN_BURST_DONE (R413): the burst in progress completes, the NV write is abandoned, and the shutdown
  record is written with TNS_SAVE; a warning in SLEEP writes none -/
  | shutdownBurstDone
  /-- SHUTDOWN_RECORD_WRITTEN (R413): with the regions of the Granary in which a page program was in progress -/
  | shutdownRecordWritten (main pin : Bool)
  /-- THERMAL_RESTART (R414): ten measurements below the restart level; start-up steps 3 to 8 follow -/
  | thermalRestart
  /-- THERM_HOLD_CLR (R417): request header, `p`: WRITE_P instead of WRITE; THERM_CTRL.HOLD_CLR written 1 -/
  | thermHoldClr (h : ReqHdr) (p : Bool)
  /-- NV_BURST_DONE (R422): ECC errors corrected in the burst -/
  | nvBurstDone (corr : Nat)
  /-- NV_WRITE_DONE (R422) -/
  | nvWriteDone
  /-- LAST_GASP_DONE (R426) -/
  | lastGaspDone
  /-- LEDGER_CHECKPOINT (R437) -/
  | ledgerCheckpoint
  /-- POD_CHECKPOINT (R439): string `i` -/
  | podCheckpoint (i : Nat)
  /-- POD_CHECKPOINT_CONFIRMED (R439): string `i` -/
  | podCheckpointConfirmed (i : Nat)
  /-- LEDG_STMT (R443): request header, `p`: WRITE_P instead of WRITE; LEDG_CTRL.STMT written 1 -/
  | ledgStmt (h : ReqHdr) (p : Bool)
  /-- STATEMENT_READY (R443) -/
  | statementReady
  /-- LEDG_NONCE_WRITE (R443): request header, `p`: WRITE_P instead of WRITE; the high or low half of LEDG_NONCE
  written with `v` -/
  | ledgNonceWrite (h : ReqHdr) (p : Bool) (hi : Bool) (v : Word)
  /-- LEDG_ERA_ADV (R442): request header, `p`: WRITE_P instead of WRITE; LEDG_CTRL.ERA_ADV written 1 -/
  | ledgEraAdv (h : ReqHdr) (p : Bool)
  /-- LEDG_BLOCK_LATCH (R450): request header; offset 0 of LEDG_BLKb read -/
  | ledgBlockLatch (h : ReqHdr) (b : Fin 5)
  /-- NV_FLUSH (R446): request header, `p`: WRITE_P instead of WRITE; NV_CTRL.FLUSH written 1 -/
  | nvFlush (h : ReqHdr) (p : Bool)
  /-- CELL_REC_WRITE (R431) -/
  | cellRecWrite
  /-- ZTAB_WRITE (R339): cell `c` -/
  | ztabWrite (c : Nat)
  /-- TALLY_WRITE (R432) -/
  | tallyWrite
  /-- RAINFLOW_FLUSH (R432) -/
  | rainflowFlush
  /-- DWELL_FLUSH (R432) -/
  | dwellFlush
  /-- EVENT_ADMIT (R455): the oldest event raised joins the digest, is admitted, waits or is dropped to Chaff -/
  | eventAdmit
  /-- ADMISSION_TIMEOUT (R457): an S0 or S1 event that has waited 100 us for a staging buffer is dropped to Chaff,
  and its tokens are returned -/
  | admissionTimeout
  /-- RECORD_COMPLETE (R456): the record with this SEQ is assembled with its CRC, and the publish pointer advances
  past complete records -/
  | recordComplete (seq : BitVec 48)
  /-- CHAFF_SUMMARY (R461): at a 10 s multiple of TNS with a nonzero delta, the deltas are published and cleared -/
  | chaffSummary
  /-- GRANARY_PROGRAM_DONE (R474): the next record of a region is programmed, or its block fails -/
  | granaryProgramDone (pin fail : Bool) (cs addr : Nat)
  /-- GRANARY_ERASE_DONE (R471): the erase of the next block ahead of the write position completes, or fails -/
  | granaryEraseDone (pin fail : Bool) (cs addr : Nat)
  /-- GRANARY_TIMEOUT (R474): an operation exceeds four times its SFDP timeout; the block in use is retired -/
  | granaryTimeout (pin : Bool) (cs addr : Nat)
  /-- GRANARY_RESTART (R474): every 10 s a Granary that does not respond is restarted; with VFL in regulation and an
  answer it programs on from the oldest record still in the SRAM ring -/
  | granaryRestart (answers : Bool)
  /-- REC_CHAFF_CLR (R481): request header, `p`: WRITE_P instead of WRITE; REC_CTRL.CHAFF_CLR written 1 -/
  | recChaffClr (h : ReqHdr) (p : Bool)
  /-- REC_FLUSH (R481): request header, `p`: WRITE_P instead of WRITE; REC_CTRL.FLUSH written 1 -/
  | recFlush (h : ReqHdr) (p : Bool)
  /-- REC_FORMAT (R475): request header, `p`: WRITE_P instead of WRITE; REC_CTRL.FORMAT written 1 -/
  | recFormat (h : ReqHdr) (p : Bool)
  /-- REC_PIN_ACK (R472): request header, `p`: WRITE_P instead of WRITE; REC_PIN_ACK_HI written with `hi` -/
  | recPinAck (h : ReqHdr) (p : Bool) (hi : Word)
  /-- REC_SEQ_LATCH (R482): request header; REC_OLDEST_LO or REC_SEQ_LO read -/
  | recSeqLatch (h : ReqHdr) (oldest : Bool)
  /-- READ (R495): the words from `addr` on -/
  | read (h : ReqHdr) (addr : Word) (cnt : BitVec 16)
  /-- WRITE (R495) -/
  | write (h : ReqHdr) (addr : Word) (cnt : BitVec 16) (data : List Word) (m : WrMeas)
  /-- WRITE_P (R495) -/
  | writeP (h : ReqHdr) (addr : Word) (cnt : BitVec 16) (data : List Word) (m : WrMeas)
  /-- UNKNOWN_OP (R491): a request with such an opcode is answered with NAK UNKNOWN_OP -/
  | unknownOp (h : ReqHdr) (op : Byte)
  /-- STREAM_OPEN (R507): STYPE 0 closes a stream -/
  | streamOpen (h : ReqHdr) (stype sid : Byte) (period : BitVec 16) (ps : List Byte)
  /-- STREAM_CLOSE (R507): STREAM_OPEN with STYPE 0 -/
  | streamClose (h : ReqHdr) (sid : Byte)
  /-- STREAM_SNAPSHOT (R509): the last commit point lies at or after the period instant of the STRING or CELL stream
  in slot `k` -/
  | streamSnapshot (k : Fin 8)
  /-- STREAM_PART_SEND (R509): the next STREAM_DATA part of slot `k` is queued; `bad` holds the SEQs of records
  whose CRC fails as they are read -/
  | streamPartSend (k : Fin 8) (bad : List (BitVec 48))
  /-- CHALLENGE_ATTEST (R529): a CHALLENGE of KIND 0x01; one of an undefined KIND is INVALID_VALUE -/
  | challengeAttest (h : ReqHdr) (kind : Byte) (body : List Byte)
  /-- CHALLENGE_KEY_LOAD (R526): a CHALLENGE of KIND 0x10 -/
  | challengeKeyLoad (h : ReqHdr) (body : List Byte)
  /-- JOIN (R501): the random wait of a joining port is over -/
  | join (p : Port)
  /-- JOIN_RETRY (R501): no ASSIGN has come within 200 ms of JOIN, or JOIN was lost; it is sent again after a random
  100 to 355 ms. On CAN FD a lost JOIN is an error frame (R515) -/
  | joinRetry (p : Port) (lost : Bool)
  /-- ASSIGN (R502): it needs no NODE. One that names another MID takes away a NODE that it gives -/
  | assign (h : ReqHdr) (mid : BitVec 64) (snid : BitVec 16) (ncnt : Byte)
  /-- KEEP_ALIVE (R503): nothing else is queued by the 24th PLCA cycle -/
  | keepAlive
  /-- SPI_TRANSACTION (R489): the oldest queued frame leaves. The host's frame is an idle header (`none`), or a
  frame whose CRC verifies, whose request is a command of its own, or does not, and is counted -/
  | spiTransaction (frame : Option Bool)
  /-- SPI_EARLY_END (R489): SPI_CS_n rises early; the device's frame stays queued -/
  | spiEarlyEnd
  /-- SEGMENT_TIMEOUT (R492): messages whose segments are not complete within 50 ms of the first are discarded -/
  | segmentTimeout
  /-- CAN_BUS_OFF (R486, R512): after `errors` error frames the controller goes bus-off, recovers, or changes between error
  active and error passive -/
  | canBusOff (ev : CanEvent) (errors : Nat)
  /-- HOST_BUDGET_WRITE (R514): request header, `p`: WRITE_P instead of WRITE; HOST_BUDGET written -/
  | hostBudgetWrite (h : ReqHdr) (p : Bool) (t1s can : BitVec 16)
  /-- PRES_BTN_PRESS (R520): three samples 1 ms apart, `true` for pressed -/
  | presBtnPress (a b c : Bool)
  /-- PRES_BTN_RELEASE (R520): three samples 1 ms apart, `true` for pressed -/
  | presBtnRelease (a b c : Bool)
  /-- PRES_STUCK (R520) -/
  | presStuck
  /-- PRES_STUCK_CLEAR (R520) -/
  | presStuckClear
  /-- PRESENCE_EXPIRY (R522): the strap window, else the button window -/
  | presenceExpiry (strap : Bool)
  /-- PRES_CLOSE (R535): request header, `p`: WRITE_P instead of WRITE; SEC_CTRL.PRES_CLOSE written 1 -/
  | presClose (h : ReqHdr) (p : Bool)
  /-- SEAL_BREAK (R524): three samples of the loop, `true` for good -/
  | sealBreak (a b c : Bool)
  /-- SEAL_RESTORED (R524): three samples of the loop, `true` for good -/
  | sealRestored (a b c : Bool)
  /-- SEC_ADOPT (R533): request header, `p`: WRITE_P instead of WRITE; SEC_ADOPT.ADOPT written with `mask` -/
  | secAdopt (h : ReqHdr) (p : Bool) (mask : BitVec 4)
  /-- BROWN_OUT (R541): VSUP, in mV, has been below V_BO for 10 us -/
  | brownOut (vsup : Nat)
  /-- POWER_FAIL_WARNING (R545, R615): VSUP, in mV, has been below the level in force for 20 us; `fell`: it fell there
  after it had been above the 5.8 V level for 1 ms -/
  | powerFailWarning (vsup : Nat) (fell : Bool)
  /-- OVERVOLTAGE (R541): VSUP, in mV, has been above V_OV for 10 us; the ideal diode opens -/
  | overvoltage (vsup : Nat)
  /-- PFW_ARM (R542): VSUP, in mV, has stayed above the configured level by 1 V or more for 10 ms -/
  | pfwArm (vsup : Nat)
  /-- RAIL_FAULT (R544): rail `r`, in regulation until now, has been out of its tolerance for 5 us; `mv` is its
  measured voltage -/
  | railFault (r mv : Nat)
  /-- RAIL_RECOVERY (R544): rail `r` has been in regulation for 2 ms. VIO and VHUSK restart the device from step 3
  with CAUSE 2 -/
  | railRecovery (r mv : Nat)
  /-- VCORE_RETRY (R544): 100 ms after a VCORE fault start-up steps 3 to 8 run with CAUSE 2 -/
  | vcoreRetry
  /-- VCORE_RETURN (R548): 1,000 frames in a row had no tight kernel work -/
  | vcoreReturn
  /-- PWR_STANDBY (R550): request header, `p`: WRITE_P instead of WRITE; PWR_CTRL.STANDBY written 1 -/
  | pwrStandby (h : ReqHdr) (p : Bool)
  /-- PWR_RUN (R549): request header, `p`: WRITE_P instead of WRITE; PWR_CTRL.RUN written 1 -/
  | pwrRun (h : ReqHdr) (p : Bool)
  /-- PWR_SLEEP (R551): request header, `p`: WRITE_P instead of WRITE; PWR_CTRL.SLEEP written 1 -/
  | pwrSleep (h : ReqHdr) (p : Bool)
  /-- AUTO_SLEEP (R557): the device requests SLEEP by itself; it waits while a self-test run is restored -/
  | autoSleep
  /-- SLEEP_STOP_ACQUISITION (R551): the frame boundary after the request; from STANDBY acquisition stands still
  already -/
  | sleepStopAcquisition
  /-- SLEEP_SAVE_DONE (R551): PWR_SLEEP is published and the Granary flushed -/
  | sleepSaveDone
  /-- SLEEP_FLUSH_DONE (R551) -/
  | sleepFlushDone
  /-- SLEEP_WAKE (R553): the wake source of cause `c` qualifies, in SLEEP or during entry -/
  | sleepWake (c : Nat)
  /-- WAKE_RAILS_READY (R554): the steward resumes, WAKE goes out on the rings, the host link starts, and PWR_WAKE
  is recorded -/
  | wakeRailsReady
  /-- WAKE_RINGS_READY (R554): what each ring's nodes answered; strings reach L1, and the models load next -/
  | wakeRingsReady (ua ub : List (BitVec 64)) (aa ab : List AuthResp)
  /-- WAKE_MODELS_LOADED (R554): self-test of the SRAM not retained, with its failures; the models load and the
  lanes start from the NV last state. SYS_BOOT is unchanged -/
  | wakeModelsLoaded (tests : List (Nat × Nat × Nat × Nat))
  /-- WAKE_FULL_SERVICE (R554): Winnow, the Tally engine, the ledger, the NV store and the Granary start -/
  | wakeFullService
  /-- WAKE_OUT_TIMEOUT (R555): 600 s after its assertion WAKE_OUT is released -/
  | wakeOutTimeout
  /-- PWR_WAKE_OUT_CLR (R563): request header, `p`: WRITE_P instead of WRITE; PWR_CTRL.WAKE_OUT_CLR written 1 -/
  | pwrWakeOutClr (h : ReqHdr) (p : Bool)
  /-- PWR_SHIP (R558): request header, `p`: WRITE_P instead of WRITE; PWR_CTRL.SHIP written 1 -/
  | pwrShip (h : ReqHdr) (p : Bool)
  /-- SHIP_STRINGS_OPEN (R558): every string stands open and no image commit runs; ledger and pod checkpoints,
  CELL_REC and every changed object are written. A pod held by another MID is not written (R89) -/
  | shipStringsOpen
  /-- SHIP_SAVED (R558): COMMAND with SHIP goes to every node, PWR_SHIP is published and the Granary is flushed -/
  | shipSaved
  /-- SHIP_POWER_DOWN (R558): every driver and rail goes off -/
  | shipPowerDown
  /-- SHIP_WAKE (R559): an armed input has been active for `ns` nanoseconds without a break: PRES_BTN for 10 s,
  CHG_DET for 50 ms. Start-up runs with CAUSE 5 -/
  | shipWake (btn : Bool) (ns : Nat)
  /-- PWR_RESET (R561): request header, `p`: WRITE_P instead of WRITE; PWR_CTRL.RESET written 1 -/
  | pwrReset (h : ReqHdr) (p : Bool)
  /-- PWR_CFG_WRITE (R564): request header, `p`: WRITE_P instead of WRITE; PWR_CFG written with `v` -/
  | pwrCfgWrite (h : ReqHdr) (p : Bool) (v : Word)
  /-- BIST_START (R567): request header, `p`: WRITE_P instead of WRITE; BIST_CTRL written with TARGET and START 1 -/
  | bistStart (h : ReqHdr) (p : Bool) (target : BitVec 3) (m : WrMeas)
  /-- BIST_ABORT (R573): request header, `p`: WRITE_P instead of WRITE; BIST_CTRL.ABORT written 1 -/
  | bistAbort (h : ReqHdr) (p : Bool)
  /-- BIST_CONDITION_LOST (R567): the 1 ms check finds a condition false -/
  | bistConditionLost (mv : Nat) (ppm : Int)
  /-- BIST_RESTORED (R573): the region under test has been restored; the run ends INCOMPLETE with the steps it had
  done and the failing compares of the cut region, and what waited for it proceeds -/
  | bistRestored (steps : Nat) (fails : List (Nat × Nat))
  /-- BIST_REGION_DONE (R569): the region under test completes with these failing compares (address and bit), or
  this signature, and is restored; the run ends with its last region, or the next region is copied to the shadow, which
  meets the uncorrectable words `ecc` -/
  | bistRegionDone (fails : List (Nat × Nat)) (sig : Word) (ecc : List BistEcc)
  /-- BIST_BACKGROUND (R577): PERIOD seconds have passed since the last background region; the next one runs, or is
  skipped when its conditions fail. It waits while a run is in progress. Copying the region meets the uncorrectable words
  `ecc` -/
  | bistBackground (mv : Nat) (ppm : Int) (ecc : List BistEcc)
  /-- BIST_REPAIR_WRITE (R578): request header, `p`: WRITE_P instead of WRITE; BIST_REPAIR of the selected entry
  written with `v` -/
  | bistRepairWrite (h : ReqHdr) (p : Bool) (v : Word)
  /-- ERRQ_HANDLE (R583): the steward has handled the entry in hand, and takes the next: the suspended one, or the
  waiting entry of the highest severity -/
  | errqHandle
  /-- ERRQ_PREEMPT (R583): at the handler's next safe point an entry of higher severity suspends it -/
  | errqPreempt
  /-- STEWARD_RESET (R585): the watchdog has lapsed, or the lockstep cores disagree (`lockstep`). Steps 6 to 8 run
  again; the fourth reset within 10 min holds the steward in reset -/
  | stewardReset (lockstep : Bool)
  /-- EVT_PEND_CLEAR (R588): request header, `p`: WRITE_P instead of WRITE; EVT_PENDi written with `v` -/
  | evtPendClear (h : ReqHdr) (p : Bool) (i : Fin 4) (v : Word)
  /-- EVT_IRQMAP_WRITE (R589): request header, `p`: WRITE_P instead of WRITE; EVT_IRQMAPi written with `v` -/
  | evtIrqmapWrite (h : ReqHdr) (p : Bool) (i : Fin 8) (v : Word)
  /-- EVT_S3_ACK (R590): request header, `p`: WRITE_P instead of WRITE; EVT_CTRL.S3_ACK written 1 -/
  | evtS3Ack (h : ReqHdr) (p : Bool)
  /-- RESERVE_RELEASE (R303): request header, `p`: WRITE_P instead of WRITE; EST_CTRL.RESERVE_RELEASE written 1 -/
  | reserveRelease (h : ReqHdr) (p : Bool)
  /-- RESERVE_HOLD (R312): request header, `p`: WRITE_P instead of WRITE; EST_CTRL.RESERVE_HOLD written 1 -/
  | reserveHold (h : ReqHdr) (p : Bool)
  /-- CC_RESEED (R312): request header, `p`: WRITE_P instead of WRITE; EST_CTRL.CC_RESEED written 1 -/
  | ccReseed (h : ReqHdr) (p : Bool)
  /-- EST_CHAR_START (R308): request header, `p`: WRITE_P instead of WRITE; EST_CHAR.START written 1 -/
  | estCharStart (h : ReqHdr) (p : Bool)
  /-- EST_CHAR_ABORT (R310): request header, `p`: WRITE_P instead of WRITE; EST_CHAR.ABORT written 1 -/
  | estCharAbort (h : ReqHdr) (p : Bool)
  /-- CHAR_STEP_DONE (R308) -/
  | charStepDone
  /-- CHAR_STEP_TIMEOUT (R310) -/
  | charStepTimeout
  /-- CHAR_CURRENT_TIMEOUT (R310) -/
  | charCurrentTimeout
  /-- WIN_STEP_EVENT (R329): string `i` -/
  | winStepEvent (i : Nat)
  /-- WIN_WINDOW_CLOSE (R331): cell `c` -/
  | winWindowClose (c : Nat)
  /-- WIN_TAIL_END (R332): cell `c` -/
  | winTailEnd (c : Nat)
  /-- WIN_CLR_CELL (R336): request header, `p`: WRITE_P instead of WRITE; WIN_CTRL.CLR_CELL written 1 -/
  | winClrCell (h : ReqHdr) (p : Bool)
  /-- WIN_FREEZE (R344): request header, `p`: WRITE_P instead of WRITE; WIN_CTRL.FREEZE written with `on` -/
  | winFreeze (h : ReqHdr) (p : Bool) (on : Bool)
  /-- CHANNEL_RUNNING (R175): channel `n` -/
  | channelRunning (n : Nat)
  /-- TEST_EN_CHANGE (R604): while TEST_EN reads high, G_s is 0 for every string -/
  | testEnChange (high : Bool)
  /-- WAKE_CONTROLLER_ARM (R559): in SHIP, PRES_BTN (`btn`) has been released, or CHG_DET inactive, for `ns`
  nanoseconds without a break -/
  | wakeControllerArm (btn : Bool) (ns : Nat)
  deriving DecidableEq, Repr

end Sys2Proof
end

