-- ==== Sys2Proof/WellFormed.lean ====
section
/-! DEFINITION. The operands that a command of the device can have: numbers of rings, positions, strings, channels, lanes
and cells within what the device has. A command outside them stands for nothing that can happen to the device. -/

namespace Sys2Proof

/-- A ring (R92). -/
def isRing (r : Nat) : Bool := decide (r < 2)

/-- A position of a ring (R92). -/
def isPos (p : Nat) : Bool := decide (1 ≤ p ∧ p ≤ 56)

/-- A string (R38). -/
def isString (i : Nat) : Bool := decide (i < 4)

/-- A current channel (R166). -/
def isCurCh (n : Nat) : Bool := decide (n < 8)

/-- A pre-driver channel (R224). -/
def isDrvCh (n : Nat) : Bool := decide (n < 12)

/-- An HVIL loop (R240). -/
def isLoop (n : Nat) : Bool := decide (n < 2)

/-- A lane (R247). -/
def isLane (l : Nat) : Bool := decide (l < 32)

/-- A global cell index (R39). -/
def isCell (c : Nat) : Bool := decide (c < 1536)

/-- A trip category (R206). -/
def isCategory (c : Nat) : Bool := decide (c < 3)

/-- A comparator slot (R199). -/
def isSlot (k : Nat) : Bool := decide (k < 256)

/-- A Husk timer (R200). -/
def isTimer (k : Nat) : Bool := decide (k < 64)

/-- A Husk sequencer (R201). -/
def isSequencer (q : Nat) : Bool := decide (q < 32)

/-- A compared Husk output (R207): a binding, or 0x400 plus a pre-driver channel. -/
def isOutput (k : Nat) : Bool := decide (k < 0x400) || (decide (0x400 ≤ k) && isDrvCh (k - 0x400))

/-- A rail (R544): 0 VIO, 1 VCORE, 2 VHUSK, 3 VFL, 4 VANA. -/
def isRail (r : Nat) : Bool := decide (r < 5)

/-- A wake source of SLEEP that a pin or the seal loop gives (R553). -/
def isWake (c : Nat) : Bool := [2, 3, 4, 5, 6, 8].contains c

/-- A start-up step (R67). -/
def isStep (k : Nat) : Bool := decide (1 ≤ k ∧ k ≤ 8)

/-- A uint32. -/
def isWord (n : Nat) : Bool := decide (n < 4294967296)

/-- A frame's segment index has four bits (R490). -/
def ReqHdr.wf (h : ReqHdr) : Bool := decide (h.seg < 16)

/-- The registers 0x00 to 0x10 of a node (R121). -/
def isRegs (d : List Byte) : Bool := d.length == 20

/-- A delay measurement is of a position of a ring. -/
def DelayMeas.wf (m : DelayMeas) : Bool := isPos m.pos

/-- What a channel's fault names (R175, R178): an input pin, a converter cause, a comparator. -/
def isCurSub (f : CurFault) (sub : Nat) : Bool := match f with
  | .none => sub == 0
  | .input | .cmp => decide (sub < 2)
  | .conv => decide (1 ≤ sub ∧ sub ≤ 2)

/-- An authentication response comes from a position of a ring. -/
def AuthResp.wf (a : AuthResp) : Bool := isPos a.pos

/-- A SUMMARY slot arrives on a ring. -/
def SumRx.wf (x : SumRx) : Bool := isRing x.ring

/-- The operands of a command are within what the device has. -/
def Instr.wf : Instr → Bool
  | .frameBoundary => true
  | .acquisitionCutOff _ => true
  | .commitPoint _ => true
  | .summaryStage => true
  | .sysModeWrite h _ _ => h.wf
  | .imgChunk h off _ => h.wf && isWord off
  | .imgCommit h len => h.wf && isWord len
  | .imgValidationDone => true
  | .imgSlotWriteDone _ => true
  | .imgAbortStage h _ => h.wf
  | .imgCancel h _ => h.wf
  | .hotActivation => true
  | .coldActivationHold => true
  | .coldActivationLoadProtection _ => true
  | .coldActivationEnumerate => true
  | .coldActivationLoadModels _ => true
  | .coldActivationComplete => true
  | .vsupValid _ => true
  | .startupPDieUp => true
  | .startupCoreUp _ _ _ _ => true
  | .strapLatch _ _ _ _ _ _ => true
  | .startupImageSelect _ _ _ _ _ _ => true
  | .startupRings _ _ => true
  | .startupSteward _ _ _ _ => true
  | .startupEstimate _ _ _ _ _ _ => true
  | .startupFull _ _ _ _ => true
  | .startupLate k => isStep k
  | .sproutStatusFrame => true
  | .ringStart r => isRing r
  | .enumTokenA r _ _ => isRing r
  | .enumTokenB r _ => isRing r
  | .enumRead r ds => isRing r && ds.all isRegs
  | .enumMeasure r _ ms => isRing r && ms.all DelayMeas.wf
  | .enumAuthenticate r as => isRing r && as.all AuthResp.wf
  | .enumFirstTrig r => isRing r
  | .ringEnumRequest h _ _ => h.wf
  | .ringMeasRequest h _ _ => h.wf
  | .collectSend r => isRing r
  | .collectSlotReceive r _ _ _ => isRing r
  | .alarmReceive r _ _ _ => isRing r
  | .mgmtExchange r _ => isRing r
  | .delayMeasurement r _ _ _ => isRing r
  | .nodeLost r p => isRing r && isPos p
  | .linkUp r => isRing r
  | .liveInsertCount r _ _ _ => isRing r
  | .liveInsertConfigure r ds ms => isRing r && ds.all isRegs && ms.all DelayMeas.wf
  | .liveInsertAuthenticate r as => isRing r && as.all AuthResp.wf
  | .liveInsertUnwrap r => isRing r
  | .nodeChallenge r p => isRing r && isPos p
  | .nodeTagCheck r p => isRing r && isPos p
  | .balanceDecision => true
  | .balNodeFault r p => isRing r && isPos p
  | .dieTempTimeout r p => isRing r && isPos p
  | .coupIdStart r p => isRing r && isPos p
  | .coupIdComplete r p => isRing r && isPos p
  | .coupIdGiveUp r p => isRing r && isPos p
  | .acqCoupId h _ => h.wf
  | .acqOwNow h _ => h.wf
  | .owTestRead r p _ _ => isRing r && isPos p
  | .sleepPatrol slots fails => slots.all SumRx.wf && fails.all isRing
  | .patrolRecheck slots fails => slots.all SumRx.wf && fails.all isRing
  | .currentSample n _ _ _ _ => isCurCh n
  | .curChCfgWrite h _ _ _ => h.wf
  | .curChFsWrite h _ _ _ => h.wf
  | .curChOfsWrite h _ _ _ => h.wf
  | .calTrigger n => isCurCh n
  | .calSwitch n => isCurCh n
  | .calApply n => isCurCh n
  | .calReturn n => isCurCh n
  | .curCalNow h _ => h.wf
  | .curCalOverdue n => isCurCh n
  | .channelStop n f sub _ => isCurCh n && isCurSub f sub
  | .curDisagreeSet i => isString i
  | .curDisagreeClear i => isString i
  | .comparatorCrossing n _ _ => isCurCh n
  | .cmpTest h _ => h.wf
  | .cmpCheckDone n _ _ => isCurCh n
  | .tripLatchSet _ cat i _ => isString i && isCategory cat
  | .huskSlotAssert _ k => isSlot k
  | .huskSlotClear _ k => isSlot k
  | .huskTimerExpiry _ k => isTimer k
  | .sequencerStart _ q => isSequencer q
  | .sequencerWaitMet _ q => isSequencer q
  | .sequencerTimeout _ q => isSequencer q
  | .sequencerAbort _ q => isSequencer q
  | .huskDivergence k => isOutput k
  | .huskDivergeRecord _ => true
  | .huskCrcCheck _ _ _ _ _ _ => true
  | .netlistLoad => true
  | .graceExpiry i => isString i
  | .huskCloseReq h _ _ => h.wf
  | .huskOpen h _ _ => h.wf
  | .huskTripClr h _ _ => h.wf
  | .keyRearm => true
  | .economyEntry n => isDrvCh n
  | .driveFault n _ _ => isDrvCh n
  | .openCoilFault n _ _ _ => isDrvCh n
  | .fastOpenTimeout i => isString i
  | .weldCheckStart i => isString i
  | .weldCheckEvaluate i => isString i
  | .drvWeldCheck h _ _ => h.wf
  | .hvilFault n _ => isLoop n
  | .hvilFaultClear n _ => isLoop n
  | .keyQualify _ => true
  | .inputChatter _ => true
  | .chgDetQualify _ _ => true
  | .kernelStepStart l _ => isLane l
  | .endStep l _ _ => isLane l
  | .fadd l _ _ _ => isLane l
  | .fsub l _ _ _ => isLane l
  | .fmul l _ _ _ => isLane l
  | .fma l _ _ _ _ => isLane l
  | .fdiv l _ _ _ => isLane l
  | .fsqrt l _ _ => isLane l
  | .fexp l _ _ => isLane l
  | .fmin l _ _ _ => isLane l
  | .fmax l _ _ _ => isLane l
  | .fabs l _ _ => isLane l
  | .clamp l _ _ _ _ => isLane l
  | .cmp l _ _ _ _ => isLane l
  | .sel l _ _ _ _ => isLane l
  | .movi l _ _ _ => isLane l
  | .cvt l _ _ _ => isLane l
  | .ldi l _ _ => isLane l
  | .lds l _ _ _ => isLane l
  | .sts l _ _ _ => isLane l
  | .out l _ _ _ => isLane l
  | .tbl2 l _ _ _ _ _ => isLane l
  | .skip l _ _ _ _ => isLane l
  | .handOver _ => true
  | .pairRelease h _ _ => h.wf
  | .dbgSessionOpen h _ _ => h.wf
  | .dbgSessionClose h _ => h.wf
  | .dbgSessionTimeout => true
  | .dbgHalt h _ => h.wf
  | .dbgResume h _ => h.wf
  | .dbgStep h _ => h.wf
  | .dbgBreakpoint => true
  | .dbgRegisterWrite h _ _ _ _ => h.wf
  | .xtalLost _ => true
  | .xtalRelock _ => true
  | .trefFault _ => true
  | .tnsSaveWrite => true
  | .sync _ _ _ _ => true
  | .syncHoldover => true
  | .timeResyncRequest h _ => h.wf
  | .syncEnWrite h _ _ => h.wf
  | .timeWallSet h _ _ => h.wf
  | .timeTnsLatch h => h.wf
  | .thermalMeasurement _ _ => true
  | .thermalWarning => true
  | .thermalWarningEnd => true
  | .thermalThrottle => true
  | .thermalThrottleEnd => true
  | .failHoldExpiry => true
  | .thermalShutdown => true
  | .shutdownBurstDone => true
  | .shutdownRecordWritten _ _ => true
  | .thermalRestart => true
  | .thermHoldClr h _ => h.wf
  | .nvBurstDone _ => true
  | .nvWriteDone => true
  | .lastGaspDone => true
  | .ledgerCheckpoint => true
  | .podCheckpoint i => isString i
  | .podCheckpointConfirmed i => isString i
  | .ledgStmt h _ => h.wf
  | .statementReady => true
  | .ledgNonceWrite h _ _ _ => h.wf
  | .ledgEraAdv h _ => h.wf
  | .ledgBlockLatch h _ => h.wf
  | .nvFlush h _ => h.wf
  | .cellRecWrite => true
  | .ztabWrite c => isCell c
  | .tallyWrite => true
  | .rainflowFlush => true
  | .dwellFlush => true
  | .eventAdmit => true
  | .admissionTimeout => true
  | .recordComplete _ => true
  | .chaffSummary => true
  | .granaryProgramDone _ _ _ _ => true
  | .granaryEraseDone _ _ _ _ => true
  | .granaryTimeout _ _ _ => true
  | .granaryRestart _ => true
  | .recChaffClr h _ => h.wf
  | .recFlush h _ => h.wf
  | .recFormat h _ => h.wf
  | .recPinAck h _ _ => h.wf
  | .recSeqLatch h _ => h.wf
  | .read h _ _ => h.wf
  | .write h _ _ _ _ => h.wf
  | .writeP h _ _ _ _ => h.wf
  | .unknownOp h _ => h.wf
  | .streamOpen h _ _ _ _ => h.wf
  | .streamClose h _ => h.wf
  | .streamSnapshot _ => true
  | .streamPartSend _ _ => true
  | .challengeAttest h _ _ => h.wf
  | .challengeKeyLoad h _ => h.wf
  | .join _ => true
  | .joinRetry _ _ => true
  | .assign h _ _ _ => h.wf
  | .keepAlive => true
  | .spiTransaction _ => true
  | .spiEarlyEnd => true
  | .segmentTimeout => true
  | .canBusOff _ _ => true
  | .hostBudgetWrite h _ _ _ => h.wf
  | .presBtnPress _ _ _ => true
  | .presBtnRelease _ _ _ => true
  | .presStuck => true
  | .presStuckClear => true
  | .presenceExpiry _ => true
  | .presClose h _ => h.wf
  | .sealBreak _ _ _ => true
  | .sealRestored _ _ _ => true
  | .secAdopt h _ _ => h.wf
  | .brownOut _ => true
  | .powerFailWarning _ _ => true
  | .overvoltage _ => true
  | .pfwArm _ => true
  | .railFault r _ => isRail r
  | .railRecovery r _ => isRail r
  | .vcoreRetry => true
  | .vcoreReturn => true
  | .pwrStandby h _ => h.wf
  | .pwrRun h _ => h.wf
  | .pwrSleep h _ => h.wf
  | .autoSleep => true
  | .sleepStopAcquisition => true
  | .sleepSaveDone => true
  | .sleepFlushDone => true
  | .sleepWake c => isWake c
  | .wakeRailsReady => true
  | .wakeRingsReady _ _ aa ab => aa.all AuthResp.wf && ab.all AuthResp.wf
  | .wakeModelsLoaded _ => true
  | .wakeFullService => true
  | .wakeOutTimeout => true
  | .pwrWakeOutClr h _ => h.wf
  | .pwrShip h _ => h.wf
  | .shipStringsOpen => true
  | .shipSaved => true
  | .shipPowerDown => true
  | .shipWake _ _ => true
  | .pwrReset h _ => h.wf
  | .pwrCfgWrite h _ _ => h.wf
  | .bistStart h _ _ _ => h.wf
  | .bistAbort h _ => h.wf
  | .bistConditionLost _ _ => true
  | .bistRestored _ _ => true
  | .bistRegionDone _ _ _ => true
  | .bistBackground _ _ _ => true
  | .bistRepairWrite h _ _ => h.wf
  | .errqHandle => true
  | .errqPreempt => true
  | .stewardReset _ => true
  | .evtPendClear h _ _ _ => h.wf
  | .evtIrqmapWrite h _ _ _ => h.wf
  | .evtS3Ack h _ => h.wf
  | .reserveRelease h _ => h.wf
  | .reserveHold h _ => h.wf
  | .ccReseed h _ => h.wf
  | .estCharStart h _ => h.wf
  | .estCharAbort h _ => h.wf
  | .charStepDone => true
  | .charStepTimeout => true
  | .charCurrentTimeout => true
  | .winStepEvent i => isString i
  | .winWindowClose c => isCell c
  | .winTailEnd c => isCell c
  | .winClrCell h _ => h.wf
  | .winFreeze h _ _ => h.wf
  | .channelRunning n => isCurCh n
  | .testEnChange _ => true
  | .wakeControllerArm _ _ => true

end Sys2Proof
end

