-- ==== Sys2Proof/Config.lean ====
section
/-! DEFINITION. What an implementation fixes and the spec does not state, and the free values: each
is a constant without a body, so that nothing can be proved about its value. -/

namespace Sys2Proof.Config

/-- The n-th free value the device takes: a number drawn from the TRNG (R125, R501), or a value the
spec calls undefined. Assumption 3. -/
opaque freeBits : Nat → BitVec 64

/-- The binary32 NaN or other result bits that the spec leaves open, by operation and operand bits.
Assumption 3. -/
opaque freeWord : Nat → BitVec 32

/-- The pattern that CVT MODE 2 writes for a NaN (R256 gives the binary32 NaN only). Assumption 3. -/
opaque nan16 : BitVec 16

/-- The PROG_ID of the Sprout program of a chemistry (R264, R268). Assumption 4. -/
opaque sproutId : Nat → Nat

/-- SYS_REV (R633): steward ROM firmware version and silicon revision, "as built". Assumption 4. -/
opaque sysRev : BitVec 32

/-- The values of the Sprout tables of a chemistry, by table number (R76). Assumption 4. -/
opaque sproutTable : Nat → Nat → List (BitVec 32)

/-- The MISR signature that mask ROM expects of a BIST region, by target and region (R566).
Assumption 4. -/
opaque bistSig : Nat → Nat → BitVec 32

/-- The slow time constant (s) at which a relaxation-tail fit settles (R332), by the fast time constant (s) and the samples
(time in ns, voltage in 100 uV): the spec names the fit and gives no search for the one parameter that enters it through
the exponent. The three others follow from it by least squares. Assumption 5. -/
opaque tailTau : Rat → List (Nat × Nat) → Rat

/-- A quotient of the summary stage by a divisor of zero (R293 to R302), by its dividend: the spec states none.
Assumption 13. -/
opaque byZero : Rat → Rat

/-- The limit factor that a string without a temperature or cell voltage contributor gives (R300, R301), by the
missing aggregate's class: the spec states none. Assumption 13. -/
opaque noInput : Nat → Rat

/-- ERR, ERR_SECT and IMG_ERR_LOC of a commit whose slot does not read back (R53): the spec names no codes for it.
Assumption 66. -/
opaque slotFail : Nat × Nat × Nat

/-- What the Sprout status frame carries for a string without a valid aggregate (R83): 0 lowest and 1 highest cell
voltage, 2 highest temperature. Assumption 70. -/
opaque statusNone : Nat → BitVec 16

/-- The uint16 that stands in a cell record for a corrected or derived voltage outside its range (R7, R146, R156), by the
exact value in 100 uV: the spec states none. Assumption 83. -/
opaque vOut : Int → BitVec 16

/-- The level of a husk cell in a loop that does not come to rest (R195, R196), by the instant and the cell: the spec states
none. Assumption 87. -/
opaque huskRestless : Nat → Nat → Bool

/-- The bytes that NV bodies give to what the spec lays out nowhere (R419, R436): by OID, string and the value in
words; the sub-unit remainders of a string in LEDGER, and the bodies of LIMIT_SAVE, CUR_CAL and RING_MAP.
Assumption 92. -/
opaque nvLayout : Nat → List Int → List (BitVec 8)

/-- A word of a last-gasp slot whose write was cut off (R426, R447), by slot and offset: the spec states none.
Assumption 93. -/
opaque lgTornWord : Nat → Nat → BitVec 32

/-- The SNID in the header of a message that a master without one sends (R490, R500): the spec states none.
Assumption 95. -/
opaque snidNone : BitVec 12

/-- VSUP and VHOLD as measured in a millisecond of TNS (R565), in 10 mV: no command carries them. Assumption 97. -/
opaque vsupMeas : Nat → BitVec 16 × BitVec 16

/-- SEV of the digest's overflow entry (R463, R464), which stands for codes of several severities: the spec states none.
Assumption 14. -/
opaque overflowSev : Nat

end Sys2Proof.Config
end

