-- ==== Sys2Proof/Machine/State.lean ====
section
/-! DEFINITION. The state of the device: every register, table, queue and pin of the spec, as plain
data. The docstring of a field gives its width, the rule of spec/ that names it and its value at
reset; the default of the field is that value. Values of things outside the L die that survive a
reset (MRAM, flash, OTP) are marked NV or OTP. -/

namespace Sys2Proof.Machine

/-! ## Names used by several chapters -/

/-- Where the running image comes from (R64 ACTIVE_SRC). -/
inductive ImgSrc
  | sprout | slotA | slotB
  deriving DecidableEq, Repr

/-- IMG_STATUS.STATE (R64): 0 to 5. -/
inductive ImgState
  | idle | staging | validating | writing | waiting | activating
  deriving DecidableEq, Repr

/-- IMG_STATUS.PENDING (R64). -/
inductive Pending
  | none | hot | cold
  deriving DecidableEq, Repr

/-- An event raised by a producer and not yet taken by the recorder (R451, R587): its code and the
32 payload bytes or fewer that R453 gives it. -/
structure Event where
  /-- 16; R452 CODE -/
  code : Nat
  /-- up to 988 bytes; R453, R571, R587 payload of the code -/
  payload : List Byte := []
  /-- 64; R582 TNS at which it was raised -/
  tns : Nat := 0
  /-- 2; R586 the string or ring that selects the source within its range -/
  ix : Nat := 0
  deriving DecidableEq, Repr

/-! ## The configuration in force: the parsed sections of the running image (chapter 2) -/

/-- A string entry of TOPO (R38). -/
structure TopoStr where
  /-- 2; R38 STRING -/
  s : Nat
  /-- 16; R38 CELLS -/
  cells : Nat
  /-- 32; R38 CAP_NOM, mAh -/
  capNom : Nat
  /-- 8; R38 SN_RING -/
  snRing : Nat
  /-- 8; R38 SN_POS -/
  snPos : Nat
  deriving DecidableEq, Repr

/-- A node entry of TOPO (R38). -/
structure TopoNode where
  /-- 8; R38 RING -/
  ring : Nat
  /-- 8; R38 POS -/
  pos : Nat
  /-- 8; R38 STRING -/
  string : Nat
  /-- 8; R38 KIND -/
  kind : Nat
  /-- 16; R38 CELL_MASK -/
  mask : Nat
  /-- 16; R38 FIRST_C -/
  firstC : Nat
  deriving DecidableEq, Repr

/-- The TOPO section in force (R38), or the topology Sprout derives (R77). -/
structure TopoCfg where
  /-- 4 entries; R38 string entries; reset none -/
  strings : List TopoStr := []
  /-- 2; R38 RINGS; reset 0b00 -/
  rings : Nat := 0
  /-- 11; R38 N_CELLS; reset 0 -/
  nCells : Nat := 0
  /-- 112 entries; R38 node entries; reset none -/
  nodes : List TopoNode := []
  deriving DecidableEq, Repr

/-- The ACQ section in force (R40). -/
structure AcqCfg where
  /-- 32; R40 MODE; reset 0 -/
  mode : Word := 0
  /-- 16; R40 T_BAL_TO, 10 ms; reset 200 (Sprout, R81) -/
  tBalTo : Nat := 200
  /-- 16; R40 OW_PERIOD, ms; reset 1000 (Sprout, R81) -/
  owPeriod : Nat := 1000
  /-- 16; R40 PATROL, s; reset 60 (Sprout, R81) -/
  patrol : Nat := 60
  /-- 16; R40 PATROL_VMIN, 100 uV; reset 0 -/
  pvMin : Nat := 0
  /-- 16; R40 PATROL_VMAX; reset 0 -/
  pvMax : Nat := 0
  /-- 16 signed; R40 PATROL_TMIN, 0.01 degC; reset 0 -/
  ptMin : Int := 0
  /-- 16 signed; R40 PATROL_TMAX; reset 0 -/
  ptMax : Int := 0
  /-- 16; R40 BAL_DELTA, 100 uV; reset 0 -/
  balDelta : Nat := 0
  /-- 16; R40 BAL_VMIN, 100 uV; reset 0 -/
  balVmin : Nat := 0
  deriving DecidableEq, Repr

/-- A DRV string entry (R41). -/
structure DrvCfg where
  /-- 2; R41 STRING -/
  s : Nat
  /-- 3; R41 CH_EN -/
  chEn : Nat := 7
  /-- 16; R41 PRE_TMAX, ms -/
  preTmax : Nat := 800
  /-- 16; R41 PRE_TARGET, 0.01 % -/
  preTarget : Nat := 9500
  /-- 16; R41 PRE_TAU, 0.1 ms -/
  preTau : Nat := 1333
  /-- 16; R41 PRE_TOL, % -/
  preTol : Nat := 30
  /-- 16; R41 PRE_OVERLAP, ms -/
  preOverlap : Nat := 20
  /-- 16; R41 PULL_IN, ms -/
  pullIn : Nat := 100
  /-- 8; R41 ECON_DUTY, % -/
  econDuty : Nat := 40
  /-- 16; R41 WELD_DV, 100 mV -/
  weldDv : Nat := 50
  deriving DecidableEq, Repr

/-- A program block of KPROG (R264). -/
structure Prog where
  /-- 32; R264 PROG_ID -/
  id : Nat
  /-- 32; R264 LIVE -/
  live : BitVec 32
  /-- 32; R264 W_NS -/
  wNs : Nat
  /-- up to 8; R264 PERSIST words in order -/
  persist : List Nat
  /-- up to 16; R264 TABS: KTAB IDs -/
  tabs : List Nat
  /-- 64 x 32; R264 INIT -/
  init : List Word
  /-- up to 1,024; R259 instruction words -/
  words : List Word
  deriving DecidableEq, Repr

/-- A table of KTAB (R43). -/
structure KTable where
  /-- 16; R43 ID -/
  id : Nat
  /-- 8; R43 NX -/
  nx : Nat
  /-- 8; R43 NY -/
  ny : Nat
  /-- 32; R43 X0, binary32 -/
  x0 : Word
  /-- 32; R43 DX -/
  dx : Word
  /-- 32; R43 Y0 -/
  y0 : Word
  /-- 32; R43 DY -/
  dy : Word
  /-- NX x NY; R43 values, x fastest -/
  vals : List Word
  deriving DecidableEq, Repr

/-- The limits of one string in the EST limit block (R305). -/
structure EstLim where
  /-- 32; R305 I_DIS, mA; reset 0 -/
  iDis : Nat := 0
  /-- 32; R305 I_CHG, mA; reset 0 -/
  iChg : Nat := 0
  /-- 16; R305 P_DIS, 100 W; reset 0 -/
  pDis : Nat := 0
  /-- 16; R305 P_CHG, 100 W; reset 0 -/
  pChg : Nat := 0
  deriving DecidableEq, Repr

/-- The EST section in force (R305, R306). -/
structure EstCfg where
  /-- 16; R305 RESERVE, 0.01 %; reset 500 (Sprout, R307) -/
  reserve : Nat := 500
  /-- 16; R305 V_EMPTY, 100 uV; reset 0 -/
  vEmpty : Nat := 0
  /-- 16; R305 V_FULL; reset 0 -/
  vFull : Nat := 0
  /-- 16 signed; R305 T_DIS_MIN, 0.01 degC; reset 0 -/
  tDisMin : Int := 0
  /-- 16 signed; R305 T_DIS_MAX; reset 0 -/
  tDisMax : Int := 0
  /-- 16 signed; R305 T_CHG_MIN; reset 0 -/
  tChgMin : Int := 0
  /-- 16 signed; R305 T_CHG_MAX; reset 0 -/
  tChgMax : Int := 0
  /-- 4 entries; R305 limits by string; reset none -/
  lim : List EstLim := []
  /-- 16; R306 SIG_GROW, 0.001 %/h; reset 500 (Sprout) -/
  sigGrow : Nat := 500
  /-- 16; R306 UNC_ON, 0.002 %; reset 2500 -/
  uncOn : Nat := 2500
  /-- 16; R306 UNC_FULL; reset 5000 -/
  uncFull : Nat := 5000
  /-- 8; R306 UNC_FLOOR, %; reset 50 -/
  uncFloor : Nat := 50
  /-- 8; R306 STALE_DERATE, %; reset 80 -/
  staleDerate : Nat := 80
  /-- 16; R306 CC_DIFF, 0.002 %; reset 4000 -/
  ccDiff : Nat := 4000
  /-- 16; R306 CC_TIME, s; reset 60 -/
  ccTime : Nat := 60
  /-- 16; R306 ETA_CHG, 0.0001; reset 9990 -/
  etaChg : Nat := 9990
  /-- 16; R306 E_FACTOR, 0.0001; reset 9800 -/
  eFactor : Nat := 9800
  /-- 16; R306 JUMP_MIN, 0.002 %; reset 50 -/
  jumpMin : Nat := 50
  /-- 16; R306 TTR_WINDOW, s; reset 60 -/
  ttrWindow : Nat := 60
  /-- 16 bytes; R306 CHAR_MAP; reset 0, 14, then 0xFF -/
  charMap : List Nat := [0, 14, 255, 255, 255, 255, 255, 255, 255, 255, 255, 255, 255, 255, 255, 255]
  /-- up to 8 x 64 x 32; R305 parameter sets; reset none -/
  pset : List (List Word) := []
  deriving DecidableEq, Repr

/-- A prior of the WIN section (R341): five binary16 values. -/
structure Prior where
  /-- 16; R341 RS, mOhm Ah -/
  rs : BitVec 16 := 0
  /-- 16; R341 RA, mOhm Ah -/
  ra : BitVec 16 := 0
  /-- 16; R341 TA, s -/
  ta : BitVec 16 := 0
  /-- 16; R341 RB, mOhm Ah -/
  rb : BitVec 16 := 0
  /-- 16; R341 TB, s -/
  tb : BitVec 16 := 0
  deriving DecidableEq, Repr

/-- The WIN section in force (R341). -/
structure WinCfg where
  /-- 16; R341 STEP_DI, 0.01 C; reset 20 (Sprout) -/
  stepDi : Nat := 20
  /-- 16; R341 STEP_T, samples; reset 10 -/
  stepT : Nat := 10
  /-- 16; R341 EVT_HOLD, ms; reset 100 -/
  evtHold : Nat := 100
  /-- 16; R341 WIN_MIN, 0.1 s; reset 20 -/
  winMin : Nat := 20
  /-- 16; R341 WIN_MAX, 0.1 s; reset 600 -/
  winMax : Nat := 600
  /-- 16; R341 RICH_I, 0.001 C; reset 50 -/
  richI : Nat := 50
  /-- 16; R341 TAIL_MIN, s; reset 120 -/
  tailMin : Nat := 120
  /-- 16; R341 TAIL_MAX, s; reset 600 -/
  tailMax : Nat := 600
  /-- 16; R341 N_AVG; reset 64 -/
  nAvg : Nat := 64
  /-- 8; R341 WB, %; reset 25 -/
  wb : Nat := 25
  /-- 8; R341 OUTLIER, 0.1; reset 20 -/
  outlier : Nat := 20
  /-- 16; R341 RESID_MAX, 100 uV; reset 20 -/
  residMax : Nat := 20
  /-- 16; R341 RS_MIN, uOhm; reset 20 -/
  rsMin : Nat := 20
  /-- 16; R341 RS_MAX, uOhm; reset 20000 -/
  rsMax : Nat := 20000
  /-- 16; R341 RA_MAX, uOhm; reset 20000 -/
  raMax : Nat := 20000
  /-- 16; R341 RB_MAX, uOhm; reset 20000 -/
  rbMax : Nat := 20000
  /-- 16; R341 TA_MIN, 0.01 s; reset 20 -/
  taMin : Nat := 20
  /-- 16; R341 TA_MAX, 0.01 s; reset 2000 -/
  taMax : Nat := 2000
  /-- 16; R341 TB_MIN, s; reset 21 -/
  tbMin : Nat := 21
  /-- 16; R341 TB_MAX, s; reset 1200 -/
  tbMax : Nat := 1200
  /-- 96 records; R341 prior table, none when PRIOR is 0; reset none -/
  prior : List Prior := []
  deriving DecidableEq, Repr

/-- A REC entry (R45). -/
structure RecEnt where
  /-- 16; R45 CODE -/
  code : Nat
  /-- 2; R45 SEV -/
  sev : Nat
  /-- 16; R45 BURST -/
  burst : Nat
  /-- 16; R45 RATE -/
  rate : Nat
  deriving DecidableEq, Repr

/-- The REC section in force (R45). -/
structure RecCfg where
  /-- 16; R45 AGG, records per second (REC_AGG, R482); reset 0x0FA0 -/
  agg : Nat := 4000
  /-- up to 4,096; R45 entries; reset none -/
  ents : List RecEnt := []
  deriving DecidableEq, Repr

/-- The HOST section in force (R46). -/
structure HostCfg where
  /-- 3; R46 PORTS (HOST_CFG.PORTS, R513); reset 0b111 -/
  ports : Nat := 7
  /-- 1; R46 CAN_IDF; reset 0 (Sprout, R81) -/
  canIdf : Nat := 0
  /-- 8; R46 CAN_ARB; reset 2 (Sprout, 500 kbit/s) -/
  canArb : Nat := 2
  /-- 8; R46 CAN_DATA; reset 1 (Sprout, 2 Mbit/s) -/
  canData : Nat := 1
  /-- 32; R46 CAN_BASE; reset 0x400 (Sprout) -/
  canBase : Nat := 0x400
  /-- 8 x 32; R46 IRQ_MAP by word; reset none -/
  irqMap : List Word := []
  /-- 4 x 32; R46 EVT_MAP by word; reset none -/
  evtMap : List Word := []
  deriving DecidableEq, Repr

/-- The SEC section in force (R48). -/
structure SecCfg where
  /-- 1; R48 REQ_HMAC; reset 0 -/
  reqHmac : Bool := false
  /-- 1; R48 DEBUG_ALLOW; reset 0 -/
  debugAllow : Bool := false
  /-- 4 x 1; R48 FOREIGN: the string may close with a foreign node; reset 0b1111 (Sprout, R81) -/
  foreign : BitVec 4 := 15
  /-- 16; R48 CHAL_PERIOD, s; reset 600 (Sprout) -/
  chalPeriod : Nat := 600
  deriving DecidableEq, Repr

/-- Everything the running image configures. -/
structure Cfg where
  /-- section; R38 TOPO in force; reset none -/
  topo : TopoCfg := {}
  /-- section; R40 ACQ in force; reset the Sprout values of R81 -/
  acq : AcqCfg := {}
  /-- 4 entries; R41 DRV in force; reset none -/
  drv : List DrvCfg := []
  /-- up to 8; R42 programs by cell group; reset none -/
  prog : List Prog := []
  /-- N_CELLS x 8; R42 group map; reset none -/
  gmap : List Nat := []
  /-- up to 64; R43 KTAB tables; reset none -/
  tabs : List KTable := []
  /-- section; R305 EST in force; reset the Sprout values of R307 that no chemistry changes -/
  est : EstCfg := {}
  /-- section; R341 WIN in force; reset the Sprout values of R341 -/
  win : WinCfg := {}
  /-- section; R45 REC in force; reset AGG 4,000, no entry -/
  recd : RecCfg := {}
  /-- section; R46 HOST in force; reset the Sprout values of R81 -/
  host : HostCfg := {}
  /-- section; R48 SEC in force; reset the Sprout values of R81 -/
  sec : SecCfg := {}
  /-- 4 x (I_lim mA charge and discharge, C mAh); R78 Sprout current and capacity basis by string; reset none -/
  basis : List (Nat × Nat × Nat) := []
  /-- SEQ and BUILD_ID; R66 of the active image; reset 0, 0 -/
  seq : Word := 0
  /-- 32; R66 IMG_ACTIVE_BUILD; reset 0 -/
  build : Word := 0
  deriving DecidableEq, Repr


/-! ## Frame flow and service levels (chapter 1) -/

/-- The running flags of the subsystems of R11. A string's rings and current channels have flags of
their own beside their chapters' state. -/
structure Running where
  /-- 1; R11 no. 1; reset 0 -/
  buck : Bool := false
  /-- 1; R11 no. 2; reset 0 -/
  bandgap : Bool := false
  /-- 1; R11 no. 2; reset 0 -/
  timebase : Bool := false
  /-- 1; R11 no. 3; reset 0 -/
  thermP : Bool := false
  /-- 1; R11 no. 3; reset 0 -/
  thermL : Bool := false
  /-- 1; R11 no. 4; reset 0 -/
  margin : Bool := false
  /-- 1; R11 no. 5; reset 0 -/
  husk : Bool := false
  /-- 1; R11 no. 7; reset 0 -/
  drivers : Bool := false
  /-- 1; R22 core buck; reset 0 -/
  core : Bool := false
  /-- 1; R11 no. 9; reset 0 -/
  acq : Bool := false
  /-- 1; R11 no. 10; reset 0 -/
  kernel : Bool := false
  /-- 1; R11 no. 11; reset 0 -/
  checker : Bool := false
  /-- 1; R11 no. 12; reset 0 -/
  winnow : Bool := false
  /-- 1; R11 no. 13; reset 0 -/
  tally : Bool := false
  /-- 1; R11 no. 14; reset 0 -/
  ledger : Bool := false
  /-- 1; R11 no. 15; reset 0 -/
  steward : Bool := false
  /-- 1; R11 no. 16; reset 0 -/
  sram : Bool := false
  /-- 1; R11 no. 17; reset 0 -/
  nv : Bool := false
  /-- 1; R11 no. 18; reset 0 -/
  granary : Bool := false
  /-- 1; R11 no. 19; reset 0 -/
  recorder : Bool := false
  /-- 1; R11 no. 20; reset 0 -/
  hostLink : Bool := false
  /-- 1; R11 no. 21; reset 0 -/
  trust : Bool := false
  /-- 1; R11 no. 22; reset 0 -/
  bist : Bool := false
  /-- 1; R11 no. 24; reset 0 -/
  wake : Bool := false
  deriving DecidableEq, Repr

/-- The SYS window, the mode words and the frame's progress. -/
structure Sys where
  /-- 24 flags; R11; reset all 0 -/
  run : Running := {}
  /-- 32; R27 SYS_MODE; reset 0x00000000 -/
  mode : Word := 0
  /-- 32; R29 SYS_MODE request that takes effect at the next boundary; reset none -/
  modeNext : Option Word := none
  /-- 32; R29 SYS_MODE request accepted in this frame, for the boundary after the next; reset none -/
  modeLater : Option Word := none
  /-- 32; R29 SYS_MODE request in force; reset 0x00000000 -/
  modeForce : Word := 0
  /-- 32; R30 SYS_MODE_ACT; reset 0x00000000 -/
  modeAct : Word := 0
  /-- 6; R30 fields of SYS_MODE_ACT that differ from the request: ACQ, POWER, BAL, WIN_RATE, TALLY_RATE, PAIR_SPLIT;
  reset 0 -/
  modeLim : BitVec 6 := 0
  /-- 32; R32 SYS_LEVEL as last reported by LEVEL_CHANGE (R25); reset 0x00100000 -/
  level : Word := 0x00100000
  /-- 32; R33 SYS_LATE_CNT; reset 0x00000000 -/
  lateCnt : Nat := 0
  /-- 32; R633 SYS_FRM_CUT; reset 0x00000000 -/
  frmCut : Word := 0
  /-- 32; R633 SYS_FRM_COMMIT; reset 0x00000000 -/
  frmCommit : Word := 0
  /-- 32; R633 SYS_FRM_SUM; reset 0x00000000 -/
  frmSum : Word := 0
  /-- 1; R14 a frame is open, its cut-off not yet reached; reset 0 -/
  frameOpen : Bool := false
  /-- 1; R14, R15 a closed frame has not committed; reset 0 -/
  commitDue : Bool := false
  /-- 1; R278 a committed frame waits for its summary stage; reset 0 -/
  sumDue : Bool := false
  /-- 64; R14 TNS of the last frame boundary; reset 0 -/
  t0 : Nat := 0
  /-- 64; R14, R509 TNS of the last commit point; reset none -/
  commitAt : Option Nat := none
  /-- 4; R90 SYS_BOOT.CAUSE; reset 0x0 -/
  cause : Nat := 0
  /-- 4; R90 SYS_BOOT.LATE_STEP; reset 0x0 -/
  lateStep : Nat := 0
  /-- 4; R90 SYS_BOOT.STEP; reset 0x0 -/
  step : Nat := 0
  /-- 2; R90 SYS_BOOT.CHEM, the latched straps; reset 0b00 -/
  chem : Nat := 0
  /-- 1; R90 SYS_BOOT.CHEM_UNSTABLE; reset 0 -/
  chemUnstable : Bool := false
  /-- 1; R90 SYS_BOOT.PRES_STRAP; reset 0 -/
  presStrap : Bool := false
  /-- 1; R70 the straps have been latched since reset; reset 0 -/
  strapped : Bool := false
  /-- 1; R87 KEY was qualified active when start-up step 4 completed; reset 0 -/
  keyAt4 : Bool := false
  /-- 1; R74 the WIN section could not be read intact at start-up step 7; reset 0 -/
  winBad : Bool := false
  /-- 2; R90 SYS_BOOT.SRC; reset 0b00 -/
  src : ImgSrc := .sprout
  /-- 1; R90 SYS_BOOT.SECT_FAIL; reset 0 -/
  sectFail : Bool := false
  /-- 1; R90 SYS_BOOT.KEY_REARM; reset 0 -/
  keyRearm : Bool := false
  /-- 16; R91 SYS_BOOT_TIME.T_L4; reset 0x0000 -/
  tL4 : Nat := 0
  /-- 16; R91 SYS_BOOT_TIME.T_L1; reset 0x0000 -/
  tL1 : Nat := 0
  /-- 64; R91 TNS at which the start-up counter read `bootUp`; reset 0 -/
  bootStart : Nat := 0
  /-- R91 reading of the start-up counter at `bootStart`, ns, 0 unless TNS was set since; reset 0 -/
  bootUp : Nat := 0
  deriving DecidableEq, Repr

/-! ## The Abanga image (chapter 2) -/

/-- One image slot in MRAM. -/
structure Slot where
  /-- up to 1,572,864 bytes; R34 image bytes held; reset none (blank) -/
  bytes : List Byte := []
  /-- 1; R63 the slot is a candidate; reset 0 -/
  valid : Bool := false
  /-- 1; R53, R54 a write of the slot runs, or was cut short: its CRC fails; reset 0 (NV) -/
  torn : Bool := false
  deriving DecidableEq, Repr

/-- An IMG_COMMIT in progress (R53, R54, R56). -/
structure Commit where
  /-- 2; R493 port that carried the request; reset none -/
  port : Port
  /-- 16; R490 TAG of the request; reset none -/
  tag : BitVec 16
  /-- 32; R53 LENGTH; reset none -/
  len : Nat
  /-- 1; R56 a presence window was open at receipt; reset none -/
  presence : Bool
  /-- 1; R56 the commit needs presence; set at validation -/
  needs : Bool := false
  /-- 1; R58 only EST, WIN, REC or HOST changed; set at validation -/
  hot : Bool := false
  /-- 2; R53 target slot; set at validation -/
  target : ImgSrc := .slotA
  /-- section; R55 the topology in force at receipt, base of the Sprout TOPO, HUSK and DRV -/
  topo : TopoCfg := {}
  /-- 4 x (I_lim, C); R55, R78 the Sprout limits in force at receipt -/
  basis : List (Nat × Nat × Nat) := []
  /-- section types; R55 the changed sections, 0 for the EST limit block; set at validation -/
  chg : List Nat := []
  deriving DecidableEq, Repr

/-- The IMG window, the slots and the staging window. -/
structure Img where
  /-- 2,097,152 bytes; R52 IMGSTAGE; reset none staged, reads zero (R638) -/
  stage : Tab Byte := []
  /-- 32; R66 IMG_STAGE_LEN; reset 0x00000000 -/
  stageLen : Nat := 0
  /-- up to 1.5 MiB and a flag; R53, R63 IMG_A; reset blank (NV) -/
  slotA : Slot := {}
  /-- up to 1.5 MiB and a flag; R53, R63 IMG_B; reset blank (NV) -/
  slotB : Slot := {}
  /-- 4; R64 IMG_STATUS.STATE; reset 0 -/
  state : ImgState := .idle
  /-- 8; R64 IMG_STATUS.ERR; reset 0x00 -/
  err : Nat := 0
  /-- 4; R64 IMG_STATUS.ERR_SECT; reset 0x0 -/
  errSect : Nat := 0
  /-- 32; R66 IMG_ERR_LOC; reset 0x00000000 -/
  errLoc : Nat := 0
  /-- 2; R64 IMG_STATUS.PENDING; reset 0b00 -/
  pending : Pending := .none
  /-- 2; R57 slot of the committed image that waits for activation; reset none -/
  waiting : ImgSrc := .sprout
  /-- 2; R64 IMG_STATUS.ACTIVE_SRC; reset 0b00 -/
  active : ImgSrc := .sprout
  /-- 1; R64 IMG_STATUS.PRES_USED; reset 0 -/
  presUsed : Bool := false
  /-- 1; R64 IMG_STATUS.FALLBACK; reset 0 -/
  fallback : Bool := false
  /-- 1; R64 slot selection has been made; reset 0 -/
  selected : Bool := false
  /-- port, tag, length and flags; R53 commit in progress; reset none -/
  commit : Option Commit := none
  /-- section types; R59 the changed sections of the waiting image, 0 for the EST limit block; reset none -/
  chg : List Nat := []
  /-- cells; R60 the cells whose nodes had passed authentication when cold activation began; reset none -/
  coldCells : List Nat := []
  /-- 32; R59 FRM of the boundary at which a hot image activates; reset none -/
  hotAt : Option Word := none
  /-- 3; R60 last cold activation step done, 0 none; reset 0 -/
  coldStep : Nat := 0
  /-- 1; R61 cold activation runs on the previously active image; reset 0 -/
  coldBack : Bool := false
  /-- section; R60 TOPO of the image whose cold activation re-enumerates the rings; reset none -/
  topoNext : Option TopoCfg := none
  deriving DecidableEq, Repr

/-! ## Parac ring (chapter 4) and cell acquisition (chapter 5) -/

/-- RINGn_STATUS.STATE (R132): 0 to 7. -/
inductive RingState
  | off | waking | enumerating | whole | wrapped | broken2 | sleeping | failed
  deriving DecidableEq, Repr

/-- RINGn_NODE_STATE.AUTH (R134): 0 to 4. -/
inductive Auth
  | none | pending | passed | foreignOk | foreignBlock
  deriving DecidableEq, Repr

/-- What one valid slot brought for a node in this frame (R98). -/
structure SlotData where
  /-- 8; R98 STAT -/
  stat : Byte := 0
  /-- 8 signed; R98 DIE, none in Fast mode -/
  die : Option Int := none
  /-- 16 x 16; R98 V0 to V15, 100 uV -/
  v : List Nat := []
  /-- 4 x 16 signed; R98 T0 to T3 or TX, input and value in 0.01 degC -/
  t : List (Nat × Int) := []
  /-- 16; R98 V_PACK, 50 mV -/
  vPack : Nat := 0
  /-- 16; R98 V_LINK, 50 mV -/
  vLink : Nat := 0
  /-- 16 signed; R98 V_POS, 50 mV -/
  vPos : Int := 0
  /-- 16 signed; R98 V_NEG, 50 mV -/
  vNeg : Int := 0
  /-- 16; R98 ISO, 1 kOhm, none in Fast mode -/
  iso : Option Nat := none
  /-- 8; R98 AUX, none in Fast mode -/
  aux : Option Nat := none
  deriving DecidableEq, Repr

/-- The open-wire test of one cell node (R152 to R157). A wire is named by its number w. -/
structure OwState where
  /-- 1; R152 a test is due or was asked for; reset 0 -/
  want : Bool := false
  /-- 8; R152 FRM[7:0] of the test frame in progress; reset none -/
  testSeq : Option Nat := none
  /-- 1; R153 a cell read 0 or 0xFFFF: the node is tested at once; reset 0 -/
  now : Bool := false
  /-- 1; R155 the test in progress is a periodic one; reset 0 -/
  periodic : Bool := false
  /-- 64; R152 TNS of the last completed periodic test; reset 0 -/
  lastAt : Nat := 0
  /-- 17 bits as wires; R154 candidate wires of the last test; reset none -/
  cand : List Nat := []
  /-- 17 bits as wires; R155 confirmed broken wires; reset none -/
  broken : List Nat := []
  /-- up to 15 pairs; R153 pairs under suspect: the lower input, and whether it is the one that moved up; reset none -/
  suspect : List (Nat × Bool) := []
  /-- input and move, 100 uV; R154 the one cell that moved without a complementary neighbour; reset none -/
  moved : Option (Nat × Int) := none
  /-- 2; R155 consecutive passing tests since a confirmed break; reset 0 -/
  passes : Nat := 0
  /-- 2; R154 consecutive suspect tests without a break; reset 0 -/
  drift : Nat := 0
  /-- 1; R154 NODE_MEAS_FAULT in force; reset 0 -/
  measFault : Bool := false
  /-- 17 x 16; R165 P_w of the last test, 1 mV; reset none (0) -/
  p : List Nat := []
  /-- 24; R156 latest N_STACK, 100 uV; reset none -/
  stack : Option Nat := none
  deriving DecidableEq, Repr

/-- Coupling identification of one cell node (R147). -/
structure CoupState where
  /-- 1; R164 COUP_VALID; reset 0 -/
  valid : Bool := false
  /-- 16 x 32; R146 G_LO and G_HI by input k, 2^-16; reset none (0) -/
  g : Tab (Nat × Nat) := []
  /-- 1; R147 identification in progress; reset 0 -/
  busy : Bool := false
  /-- 1; R147 identification asked for; reset 0 -/
  want : Bool := false
  /-- 4; R147 frame of the round, 0 to 7, or 8 before the first; reset 0 -/
  phase : Nat := 0
  /-- 3; R147 valid rounds completed; reset 0 -/
  rounds : Nat := 0
  /-- 9; R147 frames used since the start; reset 0 -/
  frames : Nat := 0
  /-- 16 x 16; R147 input values of the frame with switches on; reset none -/
  von : List Nat := []
  /-- 32 signed; R147 string current of that frame, mA; reset 0 -/
  ion : Int := 0
  /-- sums by input k of own drop, lower rise, upper rise and balanced value; R147; reset none -/
  acc : Tab (Int × Int × Int × Int) := []
  /-- 64; R147 TNS of the last identification; reset 0 -/
  lastAt : Nat := 0
  /-- 8 signed; R147 die temperature at the last identification; reset 0 -/
  lastDie : Int := 0
  /-- 64; R147 TNS before which the node does not try again; reset 0 -/
  holdUntil : Nat := 0
  deriving DecidableEq, Repr

/-- What the master holds of the node at one ring position. The default is "no node". -/
structure Node where
  /-- 64; R134 RINGn_NODE_UID; reset 0 -/
  uid : BitVec 64 := 0
  /-- 2; R134 KIND: 0 no node, 1 cell node, 2 string node; reset 0 -/
  kind : Nat := 0
  /-- 16; R121 N_DESC.CELL_MASK; reset 0 -/
  mask : BitVec 16 := 0
  /-- 8; R121 N_DESC h_p, ns; reset 0 -/
  hp : Nat := 0
  /-- 16; R121 N_TIMING.T_TURN, ns; reset 0 -/
  tTurn : Nat := 0
  /-- 8; R121 N_POS.QPOS; reset 0 -/
  qpos : Nat := 0
  /-- 16; R134 D_A, ns; reset 0xFFFF -/
  dA : Nat := 0xFFFF
  /-- 16; R134 D_B, ns; reset 0xFFFF -/
  dB : Nat := 0xFFFF
  /-- 16; R104, R121 OFS_CW written to the node; reset 0 -/
  ofsCW : Nat := 0
  /-- 16; R104, R121 OFS_CCW written to the node; reset 0 -/
  ofsCCW : Nat := 0
  /-- 1; R134 REF, 1 port B; reset 0 -/
  refB : Bool := false
  /-- 1; R134 SKEWED; reset 0 -/
  skewed : Bool := false
  /-- 1; R105 the last measurement failed the cross-check; reset 0 -/
  skewFault : Bool := false
  /-- 4; R134 STRING, none reads 0xF; reset none -/
  string : Option Nat := none
  /-- 11; R38 global index of the lowest populated input; reset 0 -/
  firstC : Nat := 0
  /-- 3; R134 AUTH; reset none -/
  auth : Auth := .none
  /-- 16 and 16; R104, R108 OFS_CW and OFS_CCW written and applied from the next TRIG; reset none -/
  ofsReq : Option (Nat × Nat) := none
  /-- 16; R121, R123 N_CFG.BAL_TO written to the node, 10 ms units; reset 0 -/
  balTo : Nat := 0
  /-- 1; R121 N_CFG.REF written to the node, 1 CCW input; reset 0 -/
  cfgRef : Bool := false
  /-- 16 and 16; R109, R121 N_THRESH.OV and UV written to the node, 100 uV; reset 0 -/
  thr : Nat × Nat := (0, 0)
  /-- 8; R121 N_PROBE; reset 0 -/
  probe : Nat := 0
  /-- 1; R119 a new node that is not unwrapped yet; reset 0 -/
  fresh : Bool := false
  /-- 64 or none; R126 N_TAG as read, empty when absent; reset none -/
  tagRx : Option (List Byte) := none
  /-- 64; R125 nonce of the challenge in progress; reset 0 -/
  nonce : BitVec 64 := 0
  /-- 2; R126 failed challenges of this round; reset 0 -/
  authFails : Nat := 0
  /-- 64; R126 TNS of the last challenge; reset 0 -/
  chalAt : Nat := 0
  /-- 1; R532 a periodic challenge failed while the string was closed; reset 0 -/
  failPend : Bool := false
  /-- 1; R134 LOST; reset 0 -/
  lost : Bool := false
  /-- 2; R118 consecutive due frames without a valid slot; reset 0 -/
  misses : Nat := 0
  /-- 1; R117 port A reaches the node; reset 0 -/
  reachA : Bool := false
  /-- 1; R117 port B reaches the node; reset 0 -/
  reachB : Bool := false
  /-- slot; R99 valid slot of this frame received at port A; reset none -/
  rxA : Option SlotData := none
  /-- slot; R99 valid slot of this frame received at port B; reset none -/
  rxB : Option SlotData := none
  /-- slot; R98 last valid slot used; reset empty -/
  last : SlotData := {}
  /-- 8 signed; R98, R121 die temperature, 1 degC; reset none -/
  die : Option Int := none
  /-- 64; R149 TNS at which the die temperature was received; reset 0 -/
  dieAt : Nat := 0
  /-- 1; R138 N_ACQ is confirmed for the mode in force; reset 0 -/
  acqOk : Bool := false
  /-- 2; R139 N_ACQ.MODE in force; reset 0 -/
  acqMode : Nat := 0
  /-- 2, 1 and 8; R138, R139 N_ACQ confirmed and not yet applied: MODE, COMP, APPLY_SEQ; reset none -/
  acqReq : Option (Nat × Bool × Nat) := none
  /-- 4 x 16 signed and 32; R137 latest value of each temperature input, 0.01 degC, and the FRM that measured it; reset none -/
  tIn : Tab (Option (Int × Word)) := []
  /-- 1; R145, R146 N_ACQ.COMP in force; reset 0 -/
  comp : Bool := false
  /-- 16; R102 BAL word of the last COMMAND; reset 0 -/
  bal : BitVec 16 := 0
  /-- 16; R146 BAL word in force at the last sample; reset 0 -/
  balAtS : BitVec 16 := 0
  /-- 2; R145 consecutive frames in which STAT bit 5 disagrees; reset 0 -/
  balMis : Nat := 0
  /-- 1; R145 BAL_NODE_FAULT in force; reset 0 -/
  balFault : Bool := false
  /-- 1; R149 die temperature not received for 1 s; reset 0 -/
  dieStale : Bool := false
  /-- R149 duty credit of frames with even FRM, 1/30 frames; reset 0 -/
  creditE : Nat := 0
  /-- R149 duty credit of frames with odd FRM, 1/30 frames; reset 0 -/
  creditO : Nat := 0
  /-- 1; R149 die temperature was at or above 85 degC; reset 0 -/
  inLimit : Bool := false
  /-- 1; R110 ALARM_ACK goes into the next COMMAND; reset 0 -/
  alarmAck : Bool := false
  /-- 1; R119 STAT bit 4 LINK_UP seen; reset 0 -/
  linkUp : Bool := false
  /-- R147 coupling identification; reset idle -/
  coup : CoupState := {}
  /-- R152 open-wire test; reset idle -/
  ow : OwState := {}
  /-- 56 bytes; R128 pairing record last read or written; reset none -/
  pair : List Byte := []
  /-- 1; R531 the record read does not verify; reset 0 -/
  pairBad : Bool := false
  /-- 1; R439 the pairing record of the running pod checkpoint is confirmed; reset 0 -/
  podOk : Bool := false
  /-- 1; R126 a challenge is out and its tag has not been read; reset 0 -/
  chalOut : Bool := false
  deriving DecidableEq, Repr

/-- An addressed exchange that waits for a gap (R103). -/
structure Mgmt where
  /-- 6; R103 DST -/
  pos : Nat
  /-- 1; R103 OP is WRITE -/
  write : Bool
  /-- 16; R103 ADDR -/
  addr : Nat
  /-- 16; R103 N, bytes -/
  n : Nat
  /-- N bytes; R103 DATA of a WRITE -/
  data : List Byte := []
  /-- 2; R103 failed tries -/
  tries : Nat := 0
  /-- 64; R112, R122 TNS before which it is not sent: a tag is read no earlier than 2 ms after its nonce -/
  due : Nat := 0
  deriving DecidableEq, Repr

/-- One ring controller. -/
structure Ring where
  /-- 4; R132 STATE; reset 0 -/
  state : RingState := .off
  /-- 1; R131 LIVE_EN; reset 1 -/
  liveEn : Bool := true
  /-- 1; R131 an enumeration was requested and is allowed; reset 0 -/
  enumReq : Bool := false
  /-- 6; R131 nodes left of a full delay re-measurement; reset 0 -/
  measLeft : Nat := 0
  /-- 6; R132 N_A; reset 0 -/
  nA : Nat := 0
  /-- 6; R132 N_B; reset 0 -/
  nB : Nat := 0
  /-- 56 nodes; R134 by position; reset no node -/
  nodes : Tab Node := []
  /-- 8; R133 A_LAST; reset 0 -/
  aLast : Nat := 0
  /-- 8; R133 B_FIRST; reset 0 -/
  bFirst : Nat := 0
  /-- 8; R133 BREAKS; reset 0 -/
  breaks : Nat := 0
  /-- 16; R133 L_CW, ns; reset 0 -/
  lCW : Nat := 0
  /-- 16; R133 L_CCW, ns; reset 0 -/
  lCCW : Nat := 0
  /-- 32; R133 RINGn_ERR_A; reset 0 -/
  errA : Nat := 0
  /-- 32; R133 RINGn_ERR_B; reset 0 -/
  errB : Nat := 0
  /-- 16; R133 RINGn_ALARM.COUNT; reset 0 -/
  alarmCnt : Nat := 0
  /-- 2; R133 LAST_KIND; reset 0 -/
  alarmKind : Nat := 0
  /-- 6; R133 LAST_POS; reset 0 -/
  alarmPos : Nat := 0
  /-- 1; R132 SKEW_RISK; reset 0 -/
  skewRisk : Bool := false
  /-- 1; R101, R132 the side of port A is thinned; reset 0 -/
  thinA : Bool := false
  /-- 1; R101, R132 the side of port B is thinned; reset 0 -/
  thinB : Bool := false
  /-- 6; R114, R132 nodes reached from port B that hold no position; reset 0 -/
  unplaced : Nat := 0
  /-- 1; R108 a node has been measured in this gap; reset 0 -/
  measured : Bool := false
  /-- 1; R119 the token of the probe returned to port A; reset 0 -/
  liveBack : Bool := false
  /-- up to 2,364 bytes; R97 last frame sent from port A, TYPE to the end of its payload; reset none -/
  txA : List Byte := []
  /-- up to 2,364 bytes; R97 last frame sent from port B, TYPE to the end of its payload; reset none -/
  txB : List Byte := []
  /-- 1; R132 ENUM_ERR; reset 0 -/
  enumErr : Bool := false
  /-- 3; R112 enumeration steps done, 0 none; reset 0 -/
  enumStep : Nat := 0
  /-- 2; R112 repeats of steps 1 to 4; reset 0 -/
  enumTries : Nat := 0
  /-- 7; R112 count of the token from port A; reset 0 -/
  cntA : Nat := 0
  /-- 7; R112 count of the token from port B; reset 0 -/
  cntB : Nat := 0
  /-- 1; R114 the token from port A returned to port A; reset 0 -/
  tokA : Bool := false
  /-- 1; R112 the ring takes part in TRIG; reset 0 -/
  inService : Bool := false
  /-- 6; R108 next position to measure; reset 0 -/
  measPos : Nat := 0
  /-- 3; R119 live insertion step done, 0 none; reset 0 -/
  liveStep : Nat := 0
  /-- 6; R119 new nodes k; reset 0 -/
  liveK : Nat := 0
  /-- 1; R100 COLLECT of this frame has left; reset 0 -/
  collected : Bool := false
  /-- up to 228 bytes; R102 last COMMAND payload sent; reset none -/
  cmd : List Byte := []
  /-- queue; R103 exchanges that wait for a gap; reset empty -/
  mgmt : List Mgmt := []
  /-- 4; R158 patrol condition of the last SUMMARY; reset 0 -/
  patrolMiss : List Nat := []
  /-- 56 x 64; R114 UIDs by position of the last complete enumeration; reset none -/
  mapUid : List (BitVec 64) := []
  deriving DecidableEq, Repr

/-- CELL bytes 0 to 35 of one cell (R634), and what the scheduler keeps of the cell. -/
structure CellAcq where
  /-- 32; R634 ACQ_FRM; reset 0 -/
  frm : Word := 0
  /-- 32; R635 ACQ_STAT; reset 0 -/
  stat : Word := 0
  /-- 16; R634 V, 100 uV; reset 0 -/
  v : Nat := 0
  /-- 16; R634 V_MEAS, 100 uV; reset 0 -/
  vMeas : Nat := 0
  /-- 1; R8, R153 V_MEAS has been received; reset 0 -/
  vGot : Bool := false
  /-- 16 signed; R634 T_LOC, 0.01 degC; reset 0 -/
  tLoc : Int := 0
  /-- 16 signed; R634 T_NODE, 0.01 degC; reset 0 -/
  tNode : Int := 0
  /-- 32 signed; R634 I_S, mA; reset 0 -/
  iS : Int := 0
  /-- 32 signed; R634 I_MEAN, mA; reset 0 -/
  iMean : Int := 0
  /-- 64; R634 SAMPLE_TNS; reset 0 -/
  sampleTns : Nat := 0
  /-- 32; R137 FRM that measured T_LOC; reset 0 -/
  tFrm : Word := 0
  /-- R198 value that enters the highest-voltage aggregate in this frame, 100 uV; reset none -/
  aggHi : Option Int := none
  /-- R198 value that enters the lowest-voltage aggregate in this frame, 100 uV; reset none -/
  aggLo : Option Int := none
  /-- R143 sum of valid values in the decision period; reset 0 -/
  decSum : Nat := 0
  /-- R143 count of valid values in the decision period; reset 0 -/
  decCnt : Nat := 0
  /-- 1; R142 selected in the decision period; reset 0 -/
  sel : Bool := false
  /-- 32; R151 balance duty accumulator, s; reset 0 -/
  balSec : Nat := 0
  /-- 30; R151 sub-second remainder, ns; reset 0 -/
  balNs : Nat := 0
  deriving DecidableEq, Repr

/-- The ACQ window and the scheduler. -/
structure Acq where
  /-- 4; R161 BAL_INHIBIT; reset 0x0 -/
  inhibit : BitVec 4 := 0
  /-- 4; R160 BAL_CUR_HOLD; reset 0x0 -/
  curHold : BitVec 4 := 0
  /-- 1; R160 PHASE; reset 0 -/
  phase : Bool := false
  /-- 16; R162 ACQ_OW_STAT.TESTS, wrapping; reset 0 -/
  tests : Nat := 0
  /-- 16; R162 ACQ_PATROL.COUNT; reset 0 -/
  patrolCnt : Nat := 0
  /-- 8; R162 ACQ_PATROL.CAUSE; reset 0 -/
  patrolCause : Nat := 0
  /-- 64; R158 TNS of the last patrol; reset 0 -/
  patrolAt : Nat := 0
  /-- 1; R159 a missing node waits for its recheck; reset 0 -/
  recheck : Bool := false
  /-- 64; R159 TNS of the patrol that missed nodes; reset 0 -/
  recheckAt : Nat := 0
  /-- 64; R143 TNS at which the decision period began; reset 0 -/
  decAt : Nat := 0
  /-- 1536 records; R634 by global index c; reset all zero -/
  cells : Tab CellAcq := []
  /-- 4 x 16; R255, R433 last valid V_PACK of each string, 50 mV; reset 0 -/
  vPack : Tab Nat := []
  /-- 1536 records; R634, R638 CELL bytes 0 to 35 as published; reset all zero -/
  pub : Tab CellAcq := []
  deriving DecidableEq, Repr

/-! ## Current channels (chapter 6) -/

/-- Background calibration of a channel (R174): waiting is step 1, switched is step 2, settling is step 3. -/
inductive CalState
  | none | waiting | switched | settling
  deriving DecidableEq, Repr

/-- One current channel. -/
structure CurCh where
  /-- 1; R187 CFG.INV; reset 0 -/
  inv : Bool := false
  /-- 1; R187 CFG.EN; reset 1 -/
  en : Bool := true
  /-- 32; R187 FS, mA; reset 0x0007A120 -/
  fs : Nat := 500000
  /-- 16 signed; R187 OFS, 10 mA; reset 0 -/
  ofs : Int := 0
  /-- INV, EN, FS, OFS; R169 values in force until the next boundary; reset none -/
  use : Option (Bool × Bool × Nat × Int) := none
  /-- 10; R187 THR.HI; reset 0x3FF -/
  thrHi : Nat := 1023
  /-- 10; R187 THR.LO; reset 0x000 -/
  thrLo : Nat := 0
  /-- 2; R175 input or converter fault; reset none -/
  fault : CurFault := .none
  /-- 1; R175, R182 the comparators passed their last check; reset 0 -/
  cmpOk : Bool := false
  /-- 1; R184 RUN; reset 0 -/
  run : Bool := false
  /-- 1; R184 SAT in this frame; reset 0 -/
  sat : Bool := false
  /-- 2; R174 calibration step; reset none -/
  cal : CalState := .none
  /-- 64; R174 TNS of the last calibration; reset 0 -/
  calAt : Nat := 0
  /-- 1; R174 gain limit widened after 3,600 s; reset 0 -/
  calOver : Bool := false
  /-- 24 signed; R188 code X at S, or the Precise window's mean; reset 0 -/
  raw : Int := 0
  /-- 24 signed; R188 CUR_CHn_RAW as published; reset 0 -/
  rawPub : Int := 0
  /-- up to 32 codes with their intervals to the next reference instant, ns; R171 the last samples, newest first; reset
  none -/
  win : List (Int × Nat) := []
  /-- 1; R177 calibrating at some time in this frame; reset 0 -/
  calFrame : Bool := false
  /-- 32 signed; R171 I_S of this channel, mA; reset none -/
  iS : Option Int := none
  /-- 32 signed; R171 I_MEAN of this channel, mA; reset none -/
  iMean : Option Int := none
  /-- 1; R185 HI latch; reset 0 -/
  latHi : Bool := false
  /-- 1; R185 LO latch; reset 0 -/
  latLo : Bool := false
  /-- 1; R181 raw high comparator output; reset 0 -/
  rawHi : Bool := false
  /-- 1; R181 raw low comparator output; reset 0 -/
  rawLo : Bool := false
  /-- 2; R178 consecutive samples beyond the high threshold without its latch; reset 0 -/
  beyondHi : Nat := 0
  /-- 2; R178 consecutive samples beyond the low threshold without its latch; reset 0 -/
  beyondLo : Nat := 0
  /-- 1; R182 comparator check in progress; reset 0 -/
  test : Bool := false
  deriving DecidableEq, Repr

/-- The two channels of one string together. -/
structure CurStr where
  /-- 1; R184 FAILOVER: the redundant channel is selected; reset 0 -/
  red : Bool := false
  /-- 1; R184 DISAGREE; reset 0 -/
  disagree : Bool := false
  /-- 7; R177 consecutive frames of disagreement; reset 0 -/
  disCnt : Nat := 0
  /-- 7; R177 consecutive frames of agreement; reset 0 -/
  agrCnt : Nat := 0
  /-- 32 signed; R188 CUR_STRs_IS; reset 0 -/
  iS : Int := 0
  /-- 32 signed; R188 CUR_STRs_IMEAN; reset 0 -/
  iMean : Int := 0
  /-- 1; R635 I_MISSING of the string in this frame; reset 0 -/
  missing : Bool := false
  /-- 1; R178 the sample used was saturated; reset 0 -/
  sat : Bool := false
  /-- R172, R255 charge since the last S, mA ns; reset 0 -/
  q : Int := 0
  /-- R172, R255 charge between the last two sample instants, waiting for the cut-off, mA ns; reset 0 -/
  qS : Int := 0
  deriving DecidableEq, Repr

/-- The CUR window. -/
structure Cur where
  /-- 8 channels; R187; reset R632 values -/
  ch : Tab CurCh := []
  /-- 4 strings; R184, R188; reset 0 -/
  str : Tab CurStr := []
  /-- 8; R188 CUR_AUX_CFG.PULL; reset 0x00 -/
  auxPull : BitVec 8 := 0
  /-- 8 x 16; R188 CUR_AUXn.CODE; reset 0 -/
  aux : Tab Nat := []
  /-- 8 x 2; R188 CUR_AUXn HIGH and LOW, set by a conversion (R183); reset 0 -/
  auxDone : Bool := false
  /-- 8; R186 channels that still wait for their turn of CAL_NOW; reset none -/
  calQueue : List Nat := []
  /-- 1; R168 CUR_CAL was absent or invalid; reset 0 -/
  uncal : Bool := false
  deriving DecidableEq, Repr

/-! ## Husk (chapter 7) and drivers (chapter 8) -/

/-- A limits entry of the HUSK section (R216). -/
structure HLimit where
  /-- 1; R216 EN -/
  en : Bool := false
  /-- 16; R216 V_MIN, 100 uV -/
  vMin : Nat := 0
  /-- 16; R216 V_MAX, 100 uV -/
  vMax : Nat := 0
  /-- 16; R216 N_UV, 100 uV -/
  nUv : Nat := 0
  /-- 16; R216 N_OV, 100 uV -/
  nOv : Nat := 0
  /-- 16; R216 GRACE, 10 ms -/
  grace : Nat := 0
  /-- 32 signed; R216 I_HI, mA -/
  iHi : Int := 0
  /-- 32 signed; R216 I_LO, mA -/
  iLo : Int := 0
  deriving DecidableEq, Repr

/-- A comparator slot entry (R216). -/
structure HSlot where
  /-- 16; R197 MEAS -/
  meas : Nat
  /-- 1; R216 OP is ABOVE -/
  above : Bool
  /-- 1; R216 MISS_TRIP -/
  missTrip : Bool
  /-- 32 signed; R216 THR -/
  thr : Int
  /-- 16; R216 HYST -/
  hyst : Nat
  /-- 5; R216 QUAL -/
  qual : Nat
  deriving DecidableEq, Repr

/-- A timer entry (R216). -/
structure HTimer where
  /-- 16; R216 COUNT -/
  count : Nat
  /-- 2; R216 UNIT -/
  unit : Nat
  /-- 2; R200 MODE -/
  mode : Nat
  /-- 12; R216 input source -/
  src : Nat
  deriving DecidableEq, Repr

/-- A husk cell entry (R216). -/
structure HCell where
  /-- 16; R194 TT -/
  tt : BitVec 16
  /-- 1; R216 INIT -/
  init : Bool
  /-- 2; R194 MODE -/
  mode : Nat
  /-- 12; R216 source of a -/
  a : Nat
  /-- 12; R216 source of b -/
  b : Nat
  /-- 12; R216 source of c -/
  c : Nat
  /-- 12; R216 source of d -/
  d : Nat
  deriving DecidableEq, Repr

/-- A step of a user sequencer program (R216). -/
structure HStep where
  /-- 4; R216 ACT -/
  act : BitVec 4
  /-- 4; R216 NEXT_OK -/
  nextOk : Nat
  /-- 4; R216 NEXT_TMO -/
  nextTmo : Nat
  /-- 1; R216 WAIT[15], wait for 0 -/
  waitZero : Bool
  /-- 12; R216 WAIT source -/
  wait : Nat
  /-- 16; R216 TMO -/
  tmo : Nat
  /-- 8; R216 TUNIT -/
  tunit : Nat
  /-- 1; R216 END -/
  fin : Bool
  /-- 1; R216 FLT -/
  flt : Bool
  deriving DecidableEq, Repr

/-- An output binding (R216). -/
structure HOut where
  /-- 12; R216 SRC -/
  src : Nat
  /-- 8; R204 FUNC -/
  func : Nat
  /-- 8; R204 ARG -/
  arg : Nat
  /-- 16; R217 CODE -/
  code : Nat
  deriving DecidableEq, Repr

/-- A protection netlist: the HUSK section in force, the Sprout netlist or the ROM fallback. -/
structure Netlist where
  /-- 4 entries; R216 limits entries by string -/
  limits : List HLimit := []
  /-- up to 256; R216 slots -/
  slots : List HSlot := []
  /-- up to 64; R216 timers -/
  timers : List HTimer := []
  /-- up to 2,048; R216 husk cells -/
  cells : List HCell := []
  /-- up to 16 programs; R216 user sequencers 16 to 31 -/
  useqs : List (List HStep) := []
  /-- up to 1,024; R216 output bindings -/
  outs : List HOut := []
  /-- 32; R223 CRC-32C of the body -/
  crc : Word := 0
  deriving DecidableEq, Repr

/-- A comparator slot's state in one copy (R199). -/
structure SlotSt where
  /-- 1; R199 out; reset 0 -/
  out : Bool := false
  /-- 5; R199 count_in; reset 0 -/
  cin : Nat := 0
  /-- 5; R199 count_out; reset 0 -/
  cout : Nat := 0
  deriving DecidableEq, Repr

/-- A timer's state in one copy (R200). -/
structure TimerSt where
  /-- 1; R200 output; reset 0 -/
  out : Bool := false
  /-- 1; R200 input at the last settling; reset 0 -/
  inp : Bool := false
  /-- 64; R200 TNS from which the duration runs; reset none -/
  since : Option Nat := none
  deriving DecidableEq, Repr

/-- A sequencer's state in one copy (R201). -/
structure SeqSt where
  /-- 1; R201 BUSY; reset 0 -/
  busy : Bool := false
  /-- 1; R201 FAULT; reset 0 -/
  fault : Bool := false
  /-- 4; R201 step; reset 0 -/
  step : Nat := 0
  /-- 64; R201 TNS at which the step began; reset 0 -/
  since : Nat := 0
  /-- 4; R201 ACT bits applied by a user sequencer: its signals; reset 0 -/
  act : BitVec 4 := 0
  /-- 1; R231, R234 an acquisition cut-off has passed in this step; reset 0 -/
  cut : Bool := false
  deriving DecidableEq, Repr

/-- The contactor monitor of one string (R228, R229). -/
structure Monitor where
  /-- 1; R228 LINK_LIVE; reset 0 -/
  linkLive : Bool := false
  /-- 1; R228 PAR_OK; reset 0 -/
  parOk : Bool := false
  /-- 1; R228 I_ORD; reset 0 -/
  iOrd : Bool := false
  /-- 1; R228 I_BRK; reset 0 -/
  iBrk : Bool := false
  /-- 1; R229 PRE_DONE; reset 0 -/
  preDone : Bool := false
  /-- 1; R229 PRE_BAD; reset 0 -/
  preBad : Bool := false
  /-- 64; R229 TNS of the precharge command; reset none -/
  preAt : Option Nat := none
  /-- 16; R229 V_LINK at the last cut-off, 50 mV; reset 0 -/
  vLast : Nat := 0
  /-- 16; R229 v_link0, 50 mV; reset 0 -/
  v0 : Nat := 0
  /-- 64 and 16; R229 t_s and v_s once started; reset none -/
  start : Option (Nat × Nat) := none
  /-- 64; R229 tau_meas, ns; reset none -/
  tau : Option Nat := none
  /-- 64; R246 time from the precharge command to PRE_DONE, ns; reset none -/
  tDone : Option Nat := none
  deriving DecidableEq, Repr

/-- One Husk copy (R189). -/
structure HuskCopy where
  /-- netlist; R189 the configuration memory of the copy; reset none -/
  net : Netlist := {}
  /-- 256; R199 slots; reset deasserted, counts 0 -/
  slots : Tab SlotSt := []
  /-- 64; R200 timers; reset 0 -/
  timers : Tab TimerSt := []
  /-- 2,048; R194 cell outputs; reset initial values -/
  cells : Tab Bool := []
  /-- 32; R201 sequencers; reset idle -/
  seqs : Tab SeqSt := []
  /-- 1,024; R204 binding levels at the last settling; reset 0 -/
  outs : Tab Bool := []
  /-- 4; R206 T0 latches; reset 0 -/
  t0 : BitVec 4 := 0
  /-- 4; R206 T1 latches; reset 0 -/
  t1 : BitVec 4 := 0
  /-- 4; R206 T2 latches; reset 0 -/
  t2 : BitVec 4 := 0
  /-- 4 x 3; R203, R230 channel commands of each string; reset 0 -/
  act : Tab (BitVec 3) := []
  /-- 4 x 2; R230 commanding sequencer of each string: 0 close, 1 orderly open, 2 fast open; reset 0 -/
  cmdr : Tab Nat := []
  /-- 4 monitors; R228; reset 0 -/
  mon : Tab Monitor := []
  /-- 32; R204 rising edges of the voted SEQ_START outputs that wait for the sequencer's start in this copy; reset 0 -/
  startReq : BitVec 32 := 0
  deriving DecidableEq, Repr

/-- HUSK_CAUSEs (R222). -/
structure Cause where
  /-- 2; R222 CAT; reset 0 -/
  cat : Nat := 0
  /-- 2; R222 COPY; reset 0 -/
  copy : Nat := 0
  /-- 8; R222 COUNT; reset 0 -/
  count : Nat := 0
  /-- 12; R222 SRC; reset 0 -/
  src : Nat := 0
  deriving DecidableEq, Repr

/-- A frame's closed aggregates of one string (R197, R198). `none` is an aggregate with no contributor. -/
structure Agg where
  /-- 16; R197 class 1, 100 uV; reset none -/
  vHi : Option Int := none
  /-- 16; R197 class 2, 100 uV; reset none -/
  vLo : Option Int := none
  /-- 16; R197 class 3, 0.01 degC; reset none -/
  tHi : Option Int := none
  /-- 16; R197 class 4, 0.01 degC; reset none -/
  tLo : Option Int := none
  /-- 32; R197 class 5, mA; reset none -/
  iS : Option Int := none
  /-- 16; R197 class 6, 50 mV; reset none -/
  vPack : Option Int := none
  /-- 16; R197 class 7, 50 mV; reset none -/
  vLink : Option Int := none
  /-- 16; R197 class 8, 1 kOhm; reset none -/
  iso : Option Int := none
  /-- 8; R197 class 0xA, 1 degC; reset none -/
  die : Option Int := none
  /-- 1; R209 VLIM_HI; reset 0 -/
  vlimHi : Bool := false
  /-- 1; R209 VLIM_LO; reset 0 -/
  vlimLo : Bool := false
  deriving DecidableEq, Repr

/-- HUSK_STATUS.NL_SRC (R219). -/
inductive NlSrc
  | none | rom | image
  deriving DecidableEq, Repr

/-- A divergence between the copies (R207). -/
structure Div where
  /-- 11; R207 output: binding, or 0x400 and the pre-driver channel -/
  out : Nat
  /-- 64; R207 TNS at which the difference began -/
  since : Nat
  /-- 64; R207 TNS at which it ended; none while present -/
  till : Option Nat
  /-- 1; R207 it reached 1 s and is recorded -/
  said : Bool
  deriving DecidableEq, Repr

/-- The Husk fabric and the HUSK window. -/
structure Husk where
  /-- netlist; R208, R215 the netlist in force, as it was loaded into both copies; reset none -/
  net : Netlist := {}
  /-- 1; R215 a netlist load has not completed; reset 0 -/
  loading : Bool := false
  /-- 2; R219 NL_SRC; reset 0b00 -/
  nlSrc : NlSrc := .none
  /-- copy; R189 main copy; reset idle -/
  main : HuskCopy := {}
  /-- copy; R189 shadow copy; reset idle -/
  shadow : HuskCopy := {}
  /-- 1; R219 MAIN_OK; reset 0 -/
  mainOk : Bool := false
  /-- 1; R219 SHADOW_OK; reset 0 -/
  shadowOk : Bool := false
  /-- 1; R219 COPY_FAULT; reset 0 -/
  copyFault : Bool := false
  /-- 64; R208 TNS of the last copy fault; reset none -/
  faultAt : Option Nat := none
  /-- 1; R208 the ROM fallback is held until reset; reset 0 -/
  romHeld : Bool := false
  /-- divergences; R207 those present, and those that have ended and are not yet recorded; reset empty -/
  divs : List Div := []
  /-- 16; R223 DIV COUNT; reset 0 -/
  divCnt : Nat := 0
  /-- 16; R223 ECC COUNT; reset 0 -/
  eccCnt : Nat := 0
  /-- 224; R192 node alarm sources, by 112 r + 2 (p - 1) + kind; reset 0 -/
  alarm : Tab Bool := []
  /-- 2; R192 ring-level alarm sources; reset 0 -/
  ringAlarm : BitVec 2 := 0
  /-- 2; R192 ring-level alarm received since the last cut-off; reset 0 -/
  ringAlarmNew : BitVec 2 := 0
  /-- 4; R221 sources 0xB18 + s, host open request; reset 0 -/
  hostOpen : BitVec 4 := 0
  /-- 4; R221 CLOSE_REQ; reset 0 -/
  closeReq : BitVec 4 := 0
  /-- 4 x 16; R223 grace time: TNS at which it ends; reset none -/
  grace : Tab (Option Nat) := []
  /-- 4; R222 HUSK_CAUSEs; reset 0 -/
  cause : Tab Cause := []
  /-- 12 x 12; R21, R211 source of the last setting of the latch of category c of string s, by 4 c + s; reset 0 -/
  latSrc : Tab Nat := []
  /-- 4; R198 aggregates of the last close; reset none -/
  agg : Tab Agg := []
  /-- 4; R238 the string has reached L1 since the last start-up; reset 0 -/
  reachedL1 : BitVec 4 := 0
  /-- 1; R60 every string is held at L0 (cold activation); reset 0 -/
  hold : Bool := false
  deriving DecidableEq, Repr

/-- One pre-driver channel (R224 to R227). -/
structure DrvCh where
  /-- 1; R246 ECON; reset 0 -/
  econ : Bool := false
  /-- 1; R246 DRIVE fault; reset 0 -/
  drive : Bool := false
  /-- 1; R246 OPEN fault; reset 0 -/
  openF : Bool := false
  /-- 16; R246 I_COIL, mA; reset 0 -/
  coil : Nat := 0
  /-- 64; R225 TNS at which the channel was commanded on; reset none -/
  onAt : Option Nat := none
  /-- 7; R225 DRV_HGn: % of the time that the high-side gate is on, ECON_DUTY in economy; reset 0 -/
  hg : Nat := 0
  /-- 1; R225 DRV_LGn: the low-side gate is on; reset 0 -/
  lg : Bool := false
  deriving DecidableEq, Repr

/-- One HVIL loop (R240, R246). -/
structure Hvil where
  /-- 1; R246 FAULT; reset 0 -/
  fault : Bool := false
  /-- 1; R246 CHATTER; reset 0 -/
  chatter : Bool := false
  /-- 12; R246 I_RET, 10 uA; reset 0 -/
  iRet : Nat := 0
  /-- 20; R240 good of the last 20 samples, newest first; reset empty -/
  win : List Bool := []
  /-- 64; R240 open_run; reset 0 -/
  openRun : Nat := 0
  /-- 64; R240 good_run; reset 0 -/
  goodRun : Nat := 0
  deriving DecidableEq, Repr

/-- Per-string driver state. -/
structure DrvStr where
  /-- 1; R244 WELD, source 0xB14 + s; reset 0 -/
  weld : Bool := false
  /-- 1; R244 WELD_UNCHK; reset 0 -/
  unchk : Bool := false
  /-- 4; R246 DRV_PRE_RES; reset 0 -/
  preRes : Nat := 0
  /-- 16; R246 DRV_PREs.TAU, 0.1 ms; reset 0 -/
  tau : Nat := 0
  /-- 16; R246 DRV_PREs.T_DONE, 1 ms; reset 0 -/
  tDone : Nat := 0
  /-- 64; R234 TNS at which an open that switched something ended; reset none -/
  openEnd : Option Nat := none
  /-- 1; R234 the running open started on a string that did not stand open; reset 0 -/
  openReal : Bool := false
  /-- 1; R88 the weld check of this start-up has run or runs; reset 0 -/
  weldDone : Bool := false
  /-- slot; R234 the string node's slot of the first cut-off, from 50 ms into the weld check on, at which it was valid; reset none -/
  weldSlot : Option SlotData := none
  deriving DecidableEq, Repr

/-- The DRV window, KEY and HVIL. -/
structure Drv where
  /-- 12 channels; R224; reset off -/
  ch : Tab DrvCh := []
  /-- 2 loops; R240; reset no fault -/
  hvil : Tab Hvil := []
  /-- 4 strings; R244, R246; reset 0 -/
  str : Tab DrvStr := []
  /-- 1; R241 qualified KEY; reset 0 -/
  key : Bool := false
  /-- 1; R244 KEY_CHATTER; reset 0 -/
  chatter : Bool := false
  /-- 64; R214 TNS at which KEY was qualified inactive; reset none -/
  keyOffAt : Option Nat := none
  /-- 20; R241 the last 20 samples of KEY, newest first; reset empty -/
  keyWin : List Bool := []
  /-- 64; R241 chatter_time; reset 0 -/
  chatTime : Nat := 0
  deriving DecidableEq, Repr

/-! ## Kernel lanes (chapter 9) and estimation (chapter 10) -/

/-- A committed write: STS to state word `idx`, or OUT to slot `idx` (R261). -/
structure KWrite where
  /-- 1; R261 OUT, else STS -/
  out : Bool
  /-- 6; R261 word or slot -/
  idx : Nat
  /-- 32; R261 value -/
  val : Word
  deriving DecidableEq, Repr

/-- One kernel lane (R247). -/
structure Lane where
  /-- 32 x 32; R247 F0 to F31; reset +0 -/
  f : Tab Word := []
  /-- 8; R247 P0 to P7; reset 0 -/
  p : BitVec 8 := 0
  /-- 11; R259 instruction index in the step; reset 0 -/
  pc : Nat := 0
  /-- 10; R259 instructions still skipped; reset 0 -/
  skip : Nat := 0
  /-- 11; R252 cell being stepped; reset none -/
  cell : Option Nat := none
  /-- 3; R266 cell group of the last step; reset none -/
  group : Option Nat := none
  /-- 1; R253 no step of this frame has started; reset 1 -/
  first : Bool := true
  /-- 1; R253 the lane's last step was rejected; reset 0 -/
  rejected : Bool := false
  /-- list; R261 committed writes of the step, oldest first; reset none -/
  writes : List KWrite := []
  /-- 32 x 32; R253 register values at the start of the step (checkpoint, R351); reset +0 -/
  entry : Tab Word := []
  /-- 1; R253, R254 a live reset applied at the start of the step: P5; reset 0 -/
  lr : Bool := false
  /-- 11; R361 cell whose discarded step runs again on this split lane; reset none -/
  again : Option Nat := none
  /-- 1; R361 the step in progress is such a re-run; reset 0 -/
  isRerun : Bool := false
  /-- 16; R356 writes this checker lane has compared in the step; reset 0 -/
  done : Nat := 0
  /-- 1; R370 halted by the debugger; reset 0 -/
  halted : Bool := false
  deriving DecidableEq, Repr

/-- Cell state memory and outputs of one cell, with what the kernel keeps of its steps. -/
structure KCell where
  /-- 64 x 32; R248 state block; reset 0 -/
  w : Tab Word := []
  /-- 16 x 32; R262 output slots; reset 0 -/
  out : Tab Word := []
  /-- 64 x 32; R262, R638 state block as published (KSTATE); reset 0 -/
  wPub : Tab Word := []
  /-- 16 x 32; R638 output slots as published; reset 0 -/
  outPub : Tab Word := []
  /-- 16; R280 slots committed since initialisation; reset 0 -/
  slotOk : BitVec 16 := 0
  /-- 32; R634 OUT_FRM; reset 0 -/
  outFrm : Word := 0
  /-- 32; R636 OUT_STAT; reset 0 -/
  outStat : Word := 0
  /-- 8; R276 REJECT_RUN; reset 0 -/
  rejectRun : Nat := 0
  /-- 4; R263 consecutive rejected steps since the last initialisation under R263; reset 0 -/
  rejRun16 : Nat := 0
  /-- 5; R276 LANE; reset 0 -/
  lane : Nat := 0
  /-- 1; R276 NUMERIC; reset 0 -/
  numeric : Bool := false
  /-- 1; R276 INIT; reset 0 -/
  init : Bool := false
  /-- 1; R254 a word came from INIT since the last step; reset 0 -/
  initWord : Bool := false
  /-- 64; R255 sample instant of the last committed step; reset none -/
  lastTns : Option Nat := none
  /-- R255 QS: charge since the last committed step, mA ns; reset 0 -/
  qs : Int := 0
  /-- list and step marks; R261, R352 verified writes waiting for the commit point; reset none -/
  pend : Option (List KWrite) := none
  /-- R255 DT as captured at the cut-off, ns; reset 0 -/
  inDt : Nat := 0
  /-- R255 QS as captured at the cut-off, mA ns; reset 0 -/
  inQs : Int := 0
  /-- 1; R263 the step of this frame was verified and rejected; reset 0 -/
  rejNow : Bool := false
  /-- 7; R280 frames since the last committed step; reset 0 -/
  idle : Nat := 0
  /-- 1; R361 the verified step ran on a split lane; reset 0 -/
  uncheckedStep : Bool := false
  /-- 1; R431 a step has committed since CELL_REC was last captured; reset 0 -/
  recStep : Bool := false
  /-- 1; R351 a step of this frame has started; reset 0 -/
  started : Bool := false
  deriving DecidableEq, Repr

/-- The KRN window. -/
structure Krn where
  /-- 32 lanes; R247; reset idle -/
  lanes : Tab Lane := []
  /-- 1,536 cells; R248; reset 0 -/
  cells : Tab KCell := []
  /-- 32; R274 KRN_NUM_CNT; reset 0 -/
  numCnt : Nat := 0
  /-- 32; R274 KRN_REINIT_CNT; reset 0 -/
  reinitCnt : Nat := 0
  /-- 5; R274 KRN_STEP_MAX.LANE; reset 0 -/
  maxLane : Nat := 0
  /-- 16; R274 KRN_STEP_MAX.T_NS; reset 0 -/
  maxNs : Nat := 0
  /-- 5 and 16; R274 longest step of the frame in progress; reset 0 -/
  curMax : Nat × Nat := (0, 0)
  /-- 1; R273, R277 the programs of the configuration are loaded (start-up step 7); reset 0 -/
  loaded : Bool := false
  /-- 11; R273 CELLS: cells that stepped in the last frame; reset 0 -/
  stepped : Nat := 0
  deriving DecidableEq, Repr

/-- CELL bytes 44 to 71 of one cell and what the summary stage keeps of it. -/
structure ECell where
  /-- 32; R634 EST_FRM; reset 0 -/
  frm : Word := 0
  /-- 32; R317 EST_CELL_FLAGS; reset 0 -/
  flags : Word := 0
  /-- 16; R318 SOC; reset 0 -/
  soc : Nat := 0
  /-- 16; R318 SIGMA; reset 0 -/
  sigma : Nat := 0
  /-- 16; R318 CC; reset 0 -/
  cc : Nat := 0
  /-- 32; R318 CAP, mAh; reset 0 -/
  cap : Nat := 0
  /-- 32; R318 RS, 10 nOhm; reset 0 -/
  rs : Nat := 0
  /-- 16; R318 SOH_C; reset 0 -/
  sohC : Nat := 0
  /-- 16; R318 SOH_R; reset 0 -/
  sohR : Nat := 0
  /-- 32; R318 EST_CELL_CAPRE, mAh; reset 0 -/
  capre : Nat := 0
  /-- R290 z_c, fraction; reset 0 -/
  zc : Rat := 0
  /-- R290 q_d, A s; reset 0 -/
  qd : Rat := 0
  /-- R293 z_a, SOC at the last anchor; reset 0 -/
  za : Rat := 0
  /-- R293 C_re, Ah; reset none -/
  cre : Option Rat := none
  /-- 1; R293 CAP_REEST; reset 0 -/
  reest : Bool := false
  /-- R288 sigma_base; reset 0 -/
  sigBase : Rat := 0
  /-- R288 sigma_rep of the last summary; reset 0 -/
  sigRep : Rat := 0
  /-- R285 T_ANCHOR of the previous summary, s; reset none -/
  tAnc : Option Rat := none
  /-- 64; R288 TNS of initialisation; reset 0 -/
  initAt : Nat := 0
  /-- 1; R289 UNCERTAIN; reset 0 -/
  uncertain : Bool := false
  /-- 1; R291 DISAGREE; reset 0 -/
  disagree : Bool := false
  /-- 64; R291 TNS since which the difference has lain on its present side; reset 0 -/
  disAt : Nat := 0
  /-- 1; R291 the difference exceeded CC_DIFF in the last summary; reset 0 -/
  disNow : Bool := false
  /-- 2; R292 frames at or below V_E; reset 0 -/
  eCnt : Nat := 0
  /-- 2; R292 frames at or above V_F; reset 0 -/
  fCnt : Nat := 0
  /-- 1; R292 V_EMPTY; reset 0 -/
  vEmpty : Bool := false
  /-- 1; R292 V_FULL; reset 0 -/
  vFull : Bool := false
  /-- 1; R292 CC_EXCL; reset 0 -/
  ccExcl : Bool := false
  /-- 1; R280 estimated since initialisation; reset 0 -/
  seen : Bool := false
  /-- R295 SOC carried while STALE, fraction; reset none -/
  staleSoc : Option Rat := none
  /-- 64; R295 TNS of the last summary that found the cell estimated; reset 0 -/
  estAt : Nat := 0
  /-- R304 SoC_rep and CAP of the previous summary; reset none -/
  prev : Option (Rat × Rat) := none
  /-- 3; R292 row of the arbitration table in the last summary; reset 5 -/
  row : Nat := 5
  deriving DecidableEq, Repr

/-- The EST registers of one string and what the summary stage keeps of it. -/
structure EStr where
  /-- 32; R314 EST_STRs_SOC; reset 0xC0000000 -/
  socReg : Word := 0xC0000000
  /-- 32 signed; R315 EST_STRs_JUMP; reset 0 -/
  jump : Int := 0
  /-- 32; R315 EST_STRs_ERES, Wh; reset 0 -/
  eres : Nat := 0
  /-- 32; R315 EST_STRs_TRES, s; reset 0 -/
  tres : Nat := 0
  /-- 3 x 32; R315 PD2, PD10, PD30, W; reset 0 -/
  pd : List Nat := [0, 0, 0]
  /-- 3 x 32; R315 PC2, PC10, PC30, W; reset 0 -/
  pc : List Nat := [0, 0, 0]
  /-- 3 x 32; R315 ID2, ID10, ID30, mA; reset 0 -/
  idl : List Nat := [0, 0, 0]
  /-- 3 x 32; R315 IC2, IC10, IC30, mA; reset 0 -/
  icl : List Nat := [0, 0, 0]
  /-- R304 SoC_rep, C_use and r of the previous summary; reset none -/
  prev : Option (Rat × Rat × Rat) := none
  /-- R290 charge since the last summary, mA ns; reset 0 -/
  q : Int := 0
  /-- R303 net charge since the reserve release, mA ns; reset 0 -/
  qRel : Int := 0
  /-- R298 power samples of the last TTR_WINDOW: TNS and V_PACK x I_MEAN, 50 uW; reset none -/
  pow : List (Nat × Int) := []
  /-- 1; R289 some cell is UNCERTAIN; reset 0 -/
  uncertain : Bool := false
  /-- R308 charge counted in characterisation step 5, mA ns; reset 0 -/
  qChar : Int := 0
  /-- R302 sum of R_i at 10 s, Ohm; reset 0 -/
  sumR : Rat := 0
  /-- R302 discharge current limit at 10 s, A; reset 0 -/
  iD10 : Rat := 0
  /-- R302 charge current limit at 10 s, A; reset 0 -/
  iC10 : Rat := 0
  deriving DecidableEq, Repr

/-- A characterisation run (R308). -/
structure CharRun where
  /-- 4; R313 STEP; reset 0xF -/
  step : Nat := 15
  /-- 4; R313 RESULT; reset 0 -/
  result : Nat := 0
  /-- 32 signed; R315 EST_CHAR_REQ, mA; reset 0 -/
  req : Int := 0
  /-- 64; R308 TNS at which the step began; reset 0 -/
  at0 : Nat := 0
  /-- 3; R308 pulses done in step 2; reset 0 -/
  pulses : Nat := 0
  /-- 64; R308 TNS at which the pulse or the rest after it began; reset 0 -/
  pulseAt : Nat := 0
  /-- cells; R308 cells that took a rest anchor in the step; reset none -/
  anch : List Nat := []
  /-- cells; R308 cells at V_F or V_E in the last summary of the step; reset none -/
  hit : List Nat := []
  /-- cells; R308 z_full by cell; reset none -/
  zFull : Tab Rat := []
  /-- cells; R308 z_empty by cell; reset none -/
  zEmpty : Tab Rat := []
  /-- 64; R310 TNS since which the pack current has been outside its band; reset none -/
  outAt : Option Nat := none
  deriving DecidableEq, Repr

/-- The EST window. -/
structure Est where
  /-- 1,536 cells; R294; reset 0 -/
  cells : Tab ECell := []
  /-- 4 strings; R314; reset R632 values -/
  str : Tab EStr := []
  /-- 32; R311 EST_STATUS; reset 0 -/
  status : Word := 0
  /-- 1; R303 the reserve is released; reset 0 -/
  released : Bool := false
  /-- 16; R315 EST_PACK_LIM.DIS, A; reset 0 -/
  packDis : Nat := 0
  /-- 16; R315 EST_PACK_LIM.CHG, A; reset 0 -/
  packChg : Nat := 0
  /-- run; R308; reset idle -/
  chr : CharRun := {}
  /-- 4 strings; R304 cause that marks the next summary of a string: 4, 5, 7, 8 or 9, 0 none; reset 0 -/
  mark : Tab Nat := []
  deriving DecidableEq, Repr

/-! ## Winnow (chapter 11) -/

/-- One impedance table entry (R322). -/
structure ZEntry where
  /-- 16; R322 RS, binary16 mOhm; reset 0 -/
  rs : BitVec 16 := 0
  /-- 16; R322 RA; reset 0 -/
  ra : BitVec 16 := 0
  /-- 16; R322 TA, s; reset 0 -/
  ta : BitVec 16 := 0
  /-- 16; R322 RB; reset 0 -/
  rb : BitVec 16 := 0
  /-- 16; R322 TB, s; reset 0 -/
  tb : BitVec 16 := 0
  /-- 16; R322 CONF; reset 0 -/
  conf : Nat := 0
  deriving DecidableEq, Repr

/-- Which values a result carries (R334), in the order in which results are applied (R337). -/
inductive ZKind
  | step | window | tail
  deriving DecidableEq, Repr

/-- A result offered to an entry and not yet published (R333, R334). Resistances in mOhm, times in s. -/
structure ZOffer where
  /-- 2; R334 kind of result -/
  kind : ZKind
  /-- 11; R333 cell -/
  cell : Nat
  /-- 3; R329 band of the entry -/
  band : Nat
  /-- 4; R329 bin of the entry -/
  bin : Nat
  /-- R334 resistance, mOhm -/
  r : Rat
  /-- R334 time constant, s; 0 for a step event -/
  t : Rat := 0
  /-- 1; R338 a result of characterisation step 2 -/
  chr : Bool := false
  deriving DecidableEq, Repr

/-- A fast-branch window in progress (R330, R331). -/
structure ZWin where
  /-- 64; R331 TNS at which it opened -/
  openAt : Nat
  /-- 3; R331 band -/
  band : Nat
  /-- 4; R331 bin -/
  bin : Nat
  /-- R330 overpotential (mV) and current (mA) of each 50 ms block, oldest first, and whether the block before it follows on
  directly -/
  blocks : List (Rat × Rat × Bool) := []
  /-- 1; R338 a characterisation pulse has ended it -/
  pulse : Bool := false
  deriving DecidableEq, Repr

/-- A relaxation tail in progress (R332). -/
structure ZTail where
  /-- 64; R332 TNS at which it started -/
  startAt : Nat
  /-- 3; R332 band -/
  band : Nat
  /-- 4; R332 bin -/
  bin : Nat
  /-- R332 slow polarisation voltage at the start, V -/
  vb : Rat := 0
  /-- 1; R332 an excluded sample or a change of band ended it -/
  ended : Bool := false
  /-- 1; R338 it started in characterisation step 2 -/
  chr : Bool := false
  /-- R332 samples: time since the start (ns) and voltage (100 uV), oldest first -/
  samples : List (Nat × Nat) := []
  deriving DecidableEq, Repr

/-- What Winnow keeps of one cell. -/
structure WCell where
  /-- 4; R347 BAND; reset 0 -/
  band : Nat := 0
  /-- 4; R347 BIN; reset 0 -/
  bin : Nat := 0
  /-- 1; R323 band and bin have been chosen; reset 0 -/
  known : Bool := false
  /-- 4; R347 SRC_BAND; reset 0 -/
  srcBand : Nat := 0
  /-- 4; R347 SRC_BIN; reset 0 -/
  srcBin : Nat := 0
  /-- 5 x 16 and 16; R326 entry captured for the lanes; reset 0 -/
  cap : ZEntry := {}
  /-- 4; R348 OUT_RUN; reset 0 -/
  outRun : Nat := 0
  /-- R328, R329 voltage, band and bin of the last stream samples, newest first, none when excluded; reset none -/
  vHist : List (Option (Nat × Nat × Nat)) := []
  /-- R330 block in progress: sum of V (100 uV), sum of I (mA), samples; reset 0 -/
  blk : Nat × Int × Nat := (0, 0, 0)
  /-- 64; R330 TNS at which the block began; reset 0 -/
  blkAt : Nat := 0
  /-- 1; R330 the block before the one in progress follows on directly; reset 0 -/
  blkNext : Bool := false
  /-- R331 window; reset none -/
  win : Option ZWin := none
  /-- 1; R331 a sample that closes the window has come; reset 0 -/
  winEnd : Bool := false
  /-- R332 tail; reset none -/
  tail : Option ZTail := none
  /-- 64; R339 TNS of the first change since the table was written; reset none -/
  dirtyAt : Option Nat := none
  deriving DecidableEq, Repr

/-- What Winnow keeps of one string. -/
structure WStr where
  /-- R328 I_S of the last stream samples, mA, newest first, none when excluded; reset none -/
  iHist : List (Option Int) := []
  /-- 64; R328 TNS of the last event; reset none -/
  evAt : Option Nat := none
  /-- 64; R332 TNS of the last stream sample of at least STEP_DI x C; reset none -/
  bigAt : Option Nat := none
  deriving DecidableEq, Repr

/-- The WIN window and the impedance tables. -/
structure Win where
  /-- 1; R638 ZTAB has been published since start-up or the last wake from SLEEP; reset 0 -/
  pub : Bool := false
  /-- 1,536 x 96 entries; R322 entry 96 c + 12 b + j; reset 0 -/
  z : Tab ZEntry := []
  /-- 1,536 cells; R347; reset 0 -/
  cells : Tab WCell := []
  /-- 4 strings; R328; reset empty -/
  str : Tab WStr := []
  /-- queue; R334 results offered since the last commit point; reset none -/
  offers : List ZOffer := []
  /-- cells; R336 cells whose table goes back to its priors at the next commit point; reset none -/
  clr : List Nat := []
  /-- 1; R344 FREEZE; reset 0 -/
  freeze : Bool := false
  /-- 32; R345 WIN_EVT_CNT; reset 0 -/
  evtCnt : Nat := 0
  /-- 32; R345 WIN_RLS_CNT; reset 0 -/
  rlsCnt : Nat := 0
  /-- 32; R345 WIN_TAIL_CNT; reset 0 -/
  tailCnt : Nat := 0
  /-- 16; R345 WIN_REJ_CNT.OUTLIER; reset 0 -/
  rejOut : Nat := 0
  /-- 16; R345 WIN_REJ_CNT.BOUND; reset 0 -/
  rejBound : Nat := 0
  deriving DecidableEq, Repr

/-! ## Pairing, lockstep and debug (chapter 12) -/

/-- A delay queue entry (R350). -/
structure QEntry where
  /-- step ordinal; R350 -/
  step : Nat
  /-- 38; R350 target and value -/
  w : KWrite
  /-- 1; R356 the entry has an uncorrectable error -/
  bad : Bool := false
  deriving DecidableEq, Repr

/-- A step of a pair that the main lane has started and the checker has not verified (R351). -/
structure PStep where
  /-- ordinal; R350 -/
  ord : Nat
  /-- 11; R351 cell index -/
  cell : Nat
  /-- 3; R351 program -/
  group : Nat
  /-- 32 x 32; R351 main lane's entry values -/
  entry : Tab Word := []
  /-- 32 x 32; R351 checker's entry values, once it has started -/
  entryC : Option (Tab Word) := none
  /-- 1; R253, R254 a live reset applies at the step: P5 -/
  lr : Bool := false
  /-- count of the main lane's writes once it has ended; R352 -/
  ended : Option Nat := none
  /-- 1; R369 a mismatch was met in shadow run -/
  failed : Bool := false
  /-- 31 x 32; R355 F1 to F31 pushed by the main lane -/
  scrub : Option (Tab Word) := none
  deriving DecidableEq, Repr

/-- One pair (R349 to R365). -/
structure PairSt where
  /-- 1; R360 runs split; reset 0 -/
  split : Bool := false
  /-- 1; R374 UNVER; reset 0 -/
  unver : Bool := false
  /-- 1; R374 QUAR; reset 0 -/
  quar : Bool := false
  /-- 1; R354 the pair became UNVERIFIED and runs on lane 2q alone until the next hand-over; reset 0 -/
  oneLane : Bool := false
  /-- 3,104 entries; R350 delay queue, oldest first; reset empty -/
  queue : List QEntry := []
  /-- 3 steps; R351 steps outstanding, oldest first; reset none -/
  steps : List PStep := []
  /-- R351, R355 ordinal of the next step, from 0 at each hand-over; reset 0 -/
  nextOrd : Nat := 0
  /-- R354 committed writes since the pair entered Paired mode; reset 0 -/
  writeCnt : Nat := 0
  /-- R354 injections m since the pair entered Paired mode; reset 0 -/
  injCnt : Nat := 0
  /-- 1; R353 polarity of the next comparison, odd; reset 0 -/
  odd : Bool := false
  /-- R357 ordinals of the steps that run again after a mismatch in them; reset none -/
  reruns : List Nat := []
  /-- R357 cells whose steps run again, in order; reset none -/
  redo : List Nat := []
  /-- 1; R357 the next step is the first of a re-run: its registers were restored; reset 0 -/
  restored : Bool := false
  /-- 1; R357 that step takes P5; reset 0 -/
  liveReset : Bool := false
  /-- 16 x 64; R357 TNS of the last rollbacks; reset none -/
  rbAt : List Nat := []
  /-- 16; R376 COMMITTED; reset 0 -/
  mmC : Nat := 0
  /-- 16; R376 LATENT; reset 0 -/
  mmL : Nat := 0
  /-- 32; R366 FRM of the boundary at which a release waits for its hand-over; reset none -/
  release : Option Word := none
  deriving DecidableEq, Repr

/-- DBG_STATUS.STATE (R378). -/
inductive DbgState
  | none | entering | running | halted | leaving
  deriving DecidableEq, Repr

/-- A debugger write that waits for the checker (R371). -/
structure Replay where
  /-- 11 and 11; R371 point: cell and instruction index -/
  point : Nat × Nat
  /-- 10; R371 target: 0 to 31 F registers, 32 predicates, 64 + 64 j + w shadow words -/
  target : Nat
  /-- 32; R371 value -/
  val : Word
  /-- 1; R371 the entry has an uncorrectable error -/
  bad : Bool := false
  deriving DecidableEq, Repr

/-- The DBG window. -/
structure Dbg where
  /-- 3; R378 STATE; reset 0 -/
  state : DbgState := .none
  /-- 4; R377 PAIR; reset 0 -/
  pair : Nat := 0
  /-- 4; R378 REFUSE; reset 0 -/
  refuse : Nat := 0
  /-- 1; R378 SHADOW_MM; reset 0 -/
  mm : Bool := false
  /-- 1; R378 CHK_AT_POINT; reset 0 -/
  chkAt : Bool := false
  /-- 256 entries; R371 replay queue, oldest first; reset empty -/
  replay : List Replay := []
  /-- 32; R380 DBG_BRK; reset 0 -/
  brk : Word := 0
  /-- 4; R380 DBG_SHADOW.COUNT; reset 1 -/
  count : Nat := 1
  /-- 11; R380 DBG_SHADOW.FIRST; reset 0 -/
  first : Nat := 0
  /-- 1; R370 HALT was written and the main lane halts at its next instruction; reset 0 -/
  haltReq : Bool := false
  /-- 8 x 64 x 32; R368 shadow state blocks, word 64 j + w; reset 0 -/
  sw : Tab Word := []
  /-- 8 x 16 x 32; R369 shadow output slots, slot 16 j + k; reset 0 -/
  out : Tab Word := []
  /-- 64; R372 TNS of the last DBG write; reset 0 -/
  lastAt : Nat := 0
  /-- 4; R369 shadow cells started in this frame; reset 0 -/
  jNext : Nat := 0
  /-- 32; R368, R372 FRM of the boundary whose hand-over starts the shadow run or lets the pair rejoin; reset none -/
  at0 : Option Word := none
  deriving DecidableEq, Repr

/-- The PAIR window and the cell assignment. -/
structure Pairs where
  /-- 16 pairs; R373; reset not running (reads 0b11 each) -/
  q : Tab PairSt := []
  /-- 32 lanes; R363 cells assigned to each unit, ascending; reset none -/
  assign : Tab (List Nat) := []
  /-- 11; R365 unassigned cells, ascending; reset none -/
  stale : List Nat := []
  /-- 16; R376 PAIR_MM_CNT.COMMITTED; reset 0 -/
  mmC : Nat := 0
  /-- 16; R376 PAIR_MM_CNT.LATENT; reset 0 -/
  mmL : Nat := 0
  /-- 16; R376 PAIR_SCRUB_CNT.INJ; reset 0 -/
  inj : Nat := 0
  /-- 16; R376 PAIR_SCRUB_CNT.DEAD; reset 0 -/
  dead : Nat := 0
  /-- 32; R376 PAIR_RB_CNT; reset 0 -/
  rb : Nat := 0
  /-- 32 each; R362, R366 FRMs of the boundaries for which a hand-over is scheduled; reset none -/
  handAt : List Word := []
  /-- 32; R362 FRM of the boundary for which the last hand-over ran; reset none -/
  handDone : Option Word := none
  /-- pairs; R358 quarantined pairs whose cells wait for the fill rule at the next boundary; reset none -/
  fill : List Nat := []
  /-- session; R377; reset none -/
  dbg : Dbg := {}
  deriving DecidableEq, Repr

/-! ## Time (chapter 13) -/

/-- TIME_STATUS.SYNC (R391). -/
inductive Servo
  | free | acquire | locked | holdover
  deriving DecidableEq, Repr

/-- The timebase and the TIME window. -/
structure Time where
  /-- 64; R384 TNS; reset 0 (R386 sets it at L-die reset release) -/
  tns : Nat := 0
  /-- 32; R387 FRM; reset 0 -/
  frm : Word := 0
  /-- 64 signed; R394 WALL_OFS, none while WALL is invalid; reset none -/
  wallOfs : Option Int := none
  /-- 64 signed; R389 SEG_OFS, none before the first SYNC; reset none -/
  segOfs : Option Int := none
  /-- 2; R391 servo state; reset FREE -/
  servo : Servo := .free
  /-- 1; R402 GRID_OK; reset 0 -/
  gridOk : Bool := false
  /-- R390 freq, a fraction; reset 0 -/
  freq : Rat := 0
  /-- R390 rate, a fraction; reset 0 -/
  rate : Rat := 0
  /-- R390 TREF trim moves, 50 ppm each; reset 0 -/
  trim : Int := 0
  /-- 64; R390 TNS timestamp of the previous SYNC that drove the servo; reset none -/
  syncAt : Option Nat := none
  /-- 64; R391 TNS of receipt of the last SYNC on the servo's port; reset none -/
  syncSeen : Option Nat := none
  /-- 3 x (16, 64); R505 SSEQ and timestamp of the last SYNC of each port; reset none -/
  twoStep : Tab (Option (Nat × Nat)) := []
  /-- 4; R391 consecutive SYNCs within 500 ns; reset 0 -/
  lockCnt : Nat := 0
  /-- 2; R391 consecutive SYNCs beyond 2 us; reset 0 -/
  loseCnt : Nat := 0
  /-- 1; R403 RESYNC written; reset 0 -/
  resync : Bool := false
  /-- 1; R403 SYNC_EN; reset 1 -/
  syncEn : Bool := true
  /-- 32 signed; R404 TIME_SYNC_ERR, ns; reset 0 -/
  syncErr : Int := 0
  /-- 1; R382 a crystal is fitted (found at start-up step 5); reset 0 -/
  xtal : Bool := false
  /-- 1; R402 XTAL_LOCK; reset 0 -/
  xtalLock : Bool := false
  /-- 1; R402 XTAL_LOST; reset 0 -/
  xtalLost : Bool := false
  /-- 7; R383 consecutive comparisons with the crystal beyond 500 ppm, or within it after its loss; reset 0 -/
  xtalRun : Nat := 0
  /-- 2; R383 consecutive comparisons with the P-die oscillator beyond 5 %; reset 0 -/
  trefRun : Nat := 0
  /-- 1; R383 TREF has been found beyond 5 % of the P-die oscillator; reset 0 -/
  trefBad : Bool := false
  /-- 3; R402 LBAND, none reads 0b111; reset none -/
  lBand : Option Nat := none
  /-- 3; R402 PBAND, none reads 0b111; reset none -/
  pBand : Option Nat := none
  /-- 1; R402 MARGIN_WIDE; reset 1 -/
  wide : Bool := true
  /-- 8; R404 TIME_MARGIN.DL_PCT; reset 0x23 -/
  dlPct : Nat := 35
  /-- 8; R404 TIME_MARGIN.MRAM_NS; reset 0x3C -/
  mramNs : Nat := 60
  /-- 4; R404 TIME_MARGIN.TRIM; reset 2 -/
  refTrim : Nat := 2
  /-- 16; R404 TIME_BAND_CNT.L; reset 0 -/
  lCnt : Nat := 0
  /-- 16; R404 TIME_BAND_CNT.P; reset 0 -/
  pCnt : Nat := 0
  /-- 32; R404 TIME_WALL_SET_LO; reset 0 -/
  wallSetLo : Word := 0
  deriving DecidableEq, Repr

/-! ## Thermal guard (chapter 14) -/

/-- One thermal sensor (R405, R418). -/
structure Sensor where
  /-- 16 signed; R418 TEMP, reported value, 0.01 degC; reset 0 -/
  temp : Int := 0
  /-- 16 signed; R405 measured value; reset 0 -/
  raw : Int := 0
  /-- 1; R418 FAILED; reset 0 -/
  failed : Bool := false
  /-- 1; R418 SUBST; reset 0 -/
  subst : Bool := false
  deriving DecidableEq, Repr

/-- The THERM window and the guard. -/
structure Therm where
  /-- 20 sensors; R418; reset 0 -/
  sens : Tab Sensor := []
  /-- 1; R418 a measurement has been made since reset; reset 0 -/
  measured : Bool := false
  /-- 1; R411 warning level; reset 0 -/
  warnOn : Bool := false
  /-- 1; R411 throttle level; reset 0 -/
  throtOn : Bool := false
  /-- 2; R411 consecutive measurements at or above WARN; reset 0 -/
  warnIn : Nat := 0
  /-- 4; R411 consecutive measurements below the warning exit; reset 0 -/
  warnOut : Nat := 0
  /-- 2; R411 consecutive measurements at or above THROT; reset 0 -/
  throtIn : Nat := 0
  /-- 4; R411 consecutive measurements below the throttle exit; reset 0 -/
  throtOut : Nat := 0
  /-- 64; R409 TNS at which the failure hold ends; reset none -/
  failHold : Option Nat := none
  /-- 1; R410 ECO_LOCK; reset 0 -/
  ecoLock : Bool := false
  /-- 1; R410 every L-die sensor failed: throttle held until reset; reset 0 -/
  lBlind : Bool := false
  /-- 1; R416 P_BLIND; reset 0 -/
  pBlind : Bool := false
  /-- 2; R416 RATE; reset 0b00 -/
  rate : Nat := 0
  /-- 16 signed; R418 WARN in force; reset 0x2EE0 -/
  warn : Int := 12000
  /-- 16 signed; R418 THROT in force; reset 0x32C8 -/
  throt : Int := 13000
  /-- 16 signed; R418 SHUT in force; reset 0x38A4 -/
  shut : Int := 14500
  /-- 1; R412 the throttle actions are in force; reset 0 -/
  acting : Bool := false
  /-- 1; R413 SHUT was crossed at the last measurement; reset 0 -/
  shutHit : Bool := false
  /-- 3; R413 shutdown step reached, 0 none; reset 0 -/
  shutStep : Nat := 0
  /-- 5; R418 LAST_SENSOR; reset 0 -/
  lastSensor : Nat := 0
  /-- 4; R414 consecutive P-die measurements below the restart level; reset 0 -/
  restartCnt : Nat := 0
  /-- 1; R413 a P-die value at or above SHUT was seen while the core was unpowered; reset 0 -/
  preHot : Bool := false
  /-- 64; R587 TNS at which throttle was entered; reset 0 -/
  throtAt : Nat := 0
  /-- 16 signed and 5; R411 highest reported value of the last measurement and its sensor; reset none -/
  hi : Option (Int × Nat) := none
  /-- quadrants; R410 quadrants that have locked RUN-ECO; reset none -/
  ecoQ : List Nat := []
  /-- 1; R413, R415 the shutdown in progress entered thermal hold; reset 0 -/
  holdNew : Bool := false
  /-- 1; R410 no restart until VSUP has fallen and risen; reset 0 -/
  noRestart : Bool := false
  deriving DecidableEq, Repr

/-! ## NV store and energy ledger (chapter 15), Tally -/

/-- A counter block of the ledger (R436). -/
structure Ctr where
  /-- 64; R436 DIS_MWH; reset 0 -/
  disMwh : Nat := 0
  /-- 64; R436 CHG_MWH; reset 0 -/
  chgMwh : Nat := 0
  /-- 64; R436 DIS_MAH; reset 0 -/
  disMah : Nat := 0
  /-- 64; R436 CHG_MAH; reset 0 -/
  chgMah : Nat := 0
  /-- 64; R436 EFC, 0.001 cycle; reset 0 -/
  efc : Nat := 0
  deriving DecidableEq, Repr

/-- The sub-unit remainders of a string (R433): numerators below one unit of each counter, and the
charge toward the next EFC step (R434). -/
structure LedgRem where
  /-- R433 remainder of DIS_MWH, 100 uV x mA x ns; reset 0 -/
  disE : Nat := 0
  /-- R433 remainder of CHG_MWH; reset 0 -/
  chgE : Nat := 0
  /-- R433 remainder of DIS_MAH, mA x ns; reset 0 -/
  disQ : Nat := 0
  /-- R433 remainder of CHG_MAH; reset 0 -/
  chgQ : Nat := 0
  /-- R434 mAh x 1,000 counted since the last EFC step; reset 0 -/
  efc : Nat := 0
  deriving DecidableEq, Repr

/-- The pod state of one string (R436). -/
structure Pod where
  /-- 68 bytes; R439 current pod checkpoint block; reset none -/
  cur : List Byte := []
  /-- 32; R439 previous CKPT_SEQ; reset 0 -/
  prevSeq : Nat := 0
  /-- 32 bytes; R439 previous digest; reset none -/
  prevDig : List Byte := []
  /-- 64; R439 THRU_MWH; reset 0 -/
  thru : Nat := 0
  deriving DecidableEq, Repr

/-- The content of the LEDGER object (R436). -/
structure LedgBody where
  /-- 8; R436 ERA; reset 1 -/
  era : Nat := 1
  /-- 1; R436 FLAGS bit 0, ERA2_BASE valid; reset 0 -/
  era2Valid : Bool := false
  /-- 32; R436 EPOCH; reset 0 -/
  epoch : Nat := 0
  /-- 32; R436 STMT_SEQ; reset 0 -/
  stmtSeq : Nat := 0
  /-- 32; R436 ADOPT_COUNT; reset 0 -/
  adoptCount : Nat := 0
  /-- 5 blocks; R436 counter blocks 0 to 4; reset 0 -/
  blk : Tab Ctr := []
  /-- block; R436 ERA2_BASE; reset 0 -/
  era2 : Ctr := {}
  /-- 64; R436 GAP_NS; reset 0 -/
  gapNs : Nat := 0
  /-- 5 remainders; R436 sub-unit remainders, 4 the total's EFC; reset 0 -/
  rem : Tab LedgRem := []
  /-- 32 bytes; R436 ADOPT_DIGEST; reset none (zero) -/
  adoptDig : List Byte := []
  /-- 4 pods; R436 pod state; reset none -/
  pods : Tab Pod := []
  /-- up to 8; R441 adoption entries of 32 bytes; reset none -/
  adopts : List (List Byte) := []
  deriving DecidableEq, Repr

/-- A per-cell persistent record (R430). -/
structure CellRec where
  /-- 64; R430 UID; reset 0 -/
  uid : BitVec 64 := 0
  /-- 8; R430 K; reset 0 -/
  k : Nat := 0
  /-- 1; R430 PERSIST valid; reset 0 -/
  persistOk : Bool := false
  /-- 1; R430 RS_BASE set; reset 0 -/
  rsBaseOk : Bool := false
  /-- 32; R430 PROG_ID; reset 0 -/
  progId : Nat := 0
  /-- 8 x 32; R430 PERSIST; reset none -/
  persist : List Word := []
  /-- 32; R430 RS_BASE, binary32 Ohm; reset 0 -/
  rsBase : Word := 0
  /-- 32; R430 BAL_SEC; reset 0 -/
  balSec : Nat := 0
  /-- 32; R430 CAP_CHAR, mAh; reset 0 -/
  capChar : Nat := 0
  deriving DecidableEq, Repr

/-- The body of one NV object (R419). -/
inductive NvBody
  /-- R429 DEVICE: SEQ_RES, LG_DONE, PIN_MIB, AUTO_SLEEP, LAST_SNID -/
  | device (seqRes lgDone pinMib autoSleep lastSnid : Nat)
  /-- R78 LIMIT_SAVE: CAP_NOM, charge and discharge limit by string -/
  | limitSave (strings : List (Nat × Nat × Nat))
  /-- R169 CUR_CAL: INV, EN, FS, OFS by channel -/
  | curCal (chs : List (Bool × Bool × Nat × Int))
  /-- R114 RING_MAP: the UID at each position, by ring -/
  | ringMap (uids : List (List (BitVec 64)))
  /-- R436 LEDGER -/
  | ledger (b : LedgBody)
  /-- R430 CELL_REC by cell -/
  | cellRec (recs : Tab CellRec)
  /-- R432 TALLY: lifetime bins by cell -/
  | tally (bins : Tab (List Nat))
  /-- R339 ZTAB_c: entries 0 to 95 -/
  | ztab (ents : Tab ZEntry)
  /-- R12 STEWARD_PATCH -/
  | patch (bytes : List Byte)
  deriving DecidableEq, Repr

/-- One bank of an NV object (R420, R421). -/
structure NvBank where
  /-- 32; R420 SEQ; reset 0 -/
  seq : Nat := 0
  /-- body; R421 content of a valid bank, none when invalid; reset none -/
  body : Option NvBody := none
  deriving DecidableEq, Repr

/-- An NV object (R419). -/
structure NvObj where
  /-- bank; R419 bank A; reset invalid (NV) -/
  a : NvBank := {}
  /-- bank; R419 bank B; reset invalid (NV) -/
  b : NvBank := {}
  /-- 1; R447 DIRTY: changed and waiting to be written; reset 0 -/
  dirty : Bool := false
  deriving DecidableEq, Repr

/-- A write of an object, queued or in progress (R422, R423). -/
structure NvJob where
  /-- 16; R420 OID -/
  oid : Nat
  /-- body; R422 content, captured when the write starts; none while queued -/
  body : Option NvBody := none
  /-- 16; R422 bursts still to run -/
  bursts : Nat := 0
  /-- 1; R423 one further write follows; reset 0 -/
  again : Bool := false
  deriving DecidableEq, Repr

/-- A key of the trust block (R525, R526). -/
structure Key where
  /-- 32 bytes; R525 key, empty when absent; reset none -/
  val : List Byte := []
  /-- 1; R526 LOCK; reset 0 -/
  lock : Bool := false
  deriving DecidableEq, Repr

/-- The key material of the key region (R424, R525). -/
structure KeyMat where
  /-- 32 bytes; R525 image key; reset absent (NV) -/
  image : Key := {}
  /-- 32 bytes; R525 ledger key; reset absent (NV) -/
  ledger : Key := {}
  /-- 4 x 32 bytes; R525 pod keys; reset absent (NV) -/
  pod : Tab Key := []
  /-- 32; R524 tamper counter; reset 0 (NV) -/
  tamper : Nat := 0
  /-- 1; R524 stored loop state is open; reset 0 (NV) -/
  sealOpen : Bool := false
  /-- 32; R424 EPOCH; reset 0 (NV) -/
  epoch : Nat := 0
  /-- 2; R542 PFW_LEVEL; reset 0b00 (NV) -/
  pfwLevel : Nat := 0
  /-- 1; R529 key region lost since manufacture; reset 0 (NV) -/
  everLost : Bool := false
  /-- 1; R528 a bank of the key material is valid; reset 1 (NV) -/
  valid : Bool := true
  deriving DecidableEq, Repr

/-- One copy of the time block (R424). -/
structure TimeBlk where
  /-- 32; R424 SEQ; reset 0 -/
  seq : Nat := 0
  /-- 64; R424 TNS_SAVE; reset 0 -/
  tnsSave : Nat := 0
  /-- 3 x 64; R424 TNS of the last shutdowns, newest first; reset none -/
  shut : List Nat := []
  /-- 16; R424 shutdown count; reset 0 -/
  shutCnt : Nat := 0
  /-- 1; R424 thermal hold flag; reset 0 -/
  hold : Bool := false
  /-- 32; R424 SEQ_RES_HI; reset 0 -/
  seqResHi : Nat := 0
  deriving DecidableEq, Repr

/-- A last-gasp slot (R427). -/
structure LgSlot where
  /-- 32; R427 SLOT_SEQ -/
  seq : Nat
  /-- 32; R427 CKPT_SEQ -/
  ckpt : Nat
  /-- 4 x 4 x 32; R427 deltas DIS_MWH, CHG_MWH, DIS_MAH, CHG_MAH by string -/
  deltas : List (Nat × Nat × Nat × Nat)
  /-- 16; R427 CODE of the record -/
  code : Nat
  /-- up to 140 bytes; R427 payload of the record -/
  payload : List Byte
  /-- 64; R427 TNS of the record -/
  tns : Nat
  /-- 64; R427 WALL of the record, none while invalid -/
  wall : Option Int
  deriving DecidableEq, Repr

/-- The MRAM and the NV window. -/
structure Nv where
  /-- keys; R424 key material; reset absent (NV) -/
  keys : KeyMat := {}
  /-- 2 x 48 bytes; R424 time block copies, none when invalid; reset none (NV) -/
  tbA : Option TimeBlk := none
  /-- copy B; R424 time block; reset none (NV) -/
  tbB : Option TimeBlk := none
  /-- block; R424 the time block in force; reset 0 -/
  tb : TimeBlk := {}
  /-- 1; R425 no copy of the time block was valid at this start-up; reset 0 -/
  tbLost : Bool := false
  /-- 8 slots; R426 last-gasp ring, none when invalid; reset none (NV) -/
  lg : Tab (Option LgSlot) := []
  /-- 8 x 1; R426 the slot's last write was cut off; reset none (NV) -/
  lgTorn : Tab Bool := []
  /-- one slot; R426 a last-gasp slot waits for its write; reset none -/
  lgWait : List LgSlot := []
  /-- objects by OID; R419; reset none valid (NV) -/
  objs : Tab NvObj := []
  /-- 1536 records; R431 live copy of the per-cell records, by cell; reset none -/
  recs : Tab CellRec := []
  /-- queue; R423 writes, the one in progress first; reset none -/
  queue : List NvJob := []
  /-- 1; R413 new MRAM operations are refused; reset 0 -/
  refuse : Bool := false
  /-- 16; R447 NV_ERR_CNT.UNCORR; reset 0 -/
  uncorr : Nat := 0
  /-- 16; R447 NV_ERR_CNT.CORR; reset 0 -/
  corr : Nat := 0
  deriving DecidableEq, Repr

/-- The LEDG window and the live ledger. -/
structure Ledg where
  /-- body; R433 live counters; reset 0 -/
  live : LedgBody := {}
  /-- body; R437 counters of the newest completed checkpoint; reset 0 -/
  ckpt : LedgBody := {}
  /-- 32; R450 LEDG_CKPT_SEQ; reset 0 -/
  ckptSeq : Nat := 0
  /-- body; R437 captured checkpoint being written; reset none -/
  capture : Option LedgBody := none
  /-- 1; R448 VSUM per string; reset 0x0 -/
  vsum : BitVec 4 := 0
  /-- 4 x (discharge, charge), mA x ns; R433 charge of the frame in progress that waits for its V_PACK; reset 0 -/
  pend : Tab (Nat × Nat) := []
  /-- 4 x 7; R433 frames without V_PACK; reset 0 -/
  vMiss : Tab Nat := []
  /-- 64; R435 TNS up to which GAP_NS is counted; reset 0 -/
  gapAt : Nat := 0
  /-- 64; R444 GAP_NS at the previous statement; reset 0 -/
  gapStmt : Nat := 0
  /-- 4; R448 POD_PEND; reset 0x0 -/
  podPend : BitVec 4 := 0
  /-- 4; R448 POD_FOREIGN; reset 0x0 -/
  podForeign : BitVec 4 := 0
  /-- 4 blocks; R439 pod checkpoint block in progress by string; reset none -/
  podRun : Tab (List Byte) := []
  /-- 4; R439 pod checkpoints asked for; reset 0x0 -/
  podWant : BitVec 4 := 0
  /-- 32; R450 LEDG_NONCE_LO; reset 0 -/
  nonceLo : Word := 0
  /-- 32; R450 LEDG_NONCE_HI; reset 0 -/
  nonceHi : Word := 0
  /-- 1; R448 STMT_READY; reset 0 -/
  ready : Bool := false
  /-- statement; R448 STMT_BUSY: a statement in preparation; reset none -/
  stmt : Option (List Byte) := none
  /-- 64; R443 TNS of the previous statement request; reset none -/
  stmtAt : Option Nat := none
  /-- 368 bytes; R450 LEDG_STMT; reset 0 -/
  out : List Byte := []
  /-- 1; R448 GAP; reset 0 -/
  gap : Bool := false
  deriving DecidableEq, Repr

/-- The Tally engine of one cell (R432, R637). -/
structure TCell where
  /-- 40 x 32; R432 SRAM copy of the lifetime bins; reset 0 -/
  life : Tab Nat := []
  /-- 40 x 16; R637 bins since their last flush; reset 0 -/
  bins : Tab Nat := []
  /-- 40 x 16; R638 bins as published; reset 0 -/
  binsPub : Tab Nat := []
  /-- 32; R637 FRM of the last rainflow flush; reset 0 -/
  rfFrm : Word := 0
  /-- 32; R637 FRM of the last dwell flush; reset 0 -/
  dwFrm : Word := 0
  /-- 32; R637, R638 HIST.RF_FRM as published; reset 0 -/
  rfPub : Word := 0
  /-- 32; R637, R638 HIST.DW_FRM as published; reset 0 -/
  dwPub : Word := 0
  /-- turning points of SoC (0.002 %) and T_LOC, newest first; R637 rainflow counting; reset none -/
  stack : List (Nat × Int) := []
  /-- R637 dwell time not yet counted, ns, voltage and temperature bin; reset 0 -/
  vNs : Nat := 0
  /-- 30; R637 temperature dwell remainder, ns; reset 0 -/
  tNs : Nat := 0
  deriving DecidableEq, Repr

/-- The Tally engine. -/
structure Tally where
  /-- 1,536 cells; R637; reset 0 -/
  cells : Tab TCell := []
  /-- 64; R637 TNS of the last update; reset none -/
  at0 : Option Nat := none
  /-- 1; R638 the lifetime bins have been published since start-up or the last wake from SLEEP; reset 0 -/
  pub : Bool := false
  deriving DecidableEq, Repr

/-! ## Event recorder and Granary (chapter 16) -/

/-- A record (R451), from its admission on. -/
structure Rec where
  /-- 48; R451 SEQ -/
  seq : Nat
  /-- 16; R451 CODE -/
  code : Nat
  /-- 8; R451 SEVF -/
  sevf : Nat
  /-- 8; R451 SRC -/
  src : Nat
  /-- 64; R451 TNS -/
  tns : Nat
  /-- 64; R451 WALL, 0 while invalid -/
  wall : Nat
  /-- up to 988 bytes; R451 PAYLOAD -/
  payload : List Byte
  /-- 1; R456 assembled -/
  done : Bool := false
  /-- 2; R586 the string or ring that selects the event source -/
  ix : Nat := 0
  deriving DecidableEq, Repr

/-- An event that waits for admission (R455, R457). -/
structure Wait where
  /-- event; R455 -/
  ev : Event
  /-- 1; R454 from the last-gasp ring, with its slot's SLOT_SEQ, TNS and WALL -/
  lg : Option (Nat × Nat × Option Int) := none
  /-- 64; R457 TNS since which it waits for a staging buffer -/
  since : Option Nat := none
  /-- 1; R463 raised in digest mode -/
  dig : Bool := false
  /-- 1; R455, R466 exempt from admission, its payload a digest entry -/
  hw : Bool := false
  deriving DecidableEq, Repr

/-- A digest entry (R464). -/
structure DigEnt where
  /-- 1; R464 NOVAL -/
  noval : Bool := false
  /-- 8; R464 SEV -/
  sev : Nat := 0
  /-- 32; R464 COUNT -/
  count : Nat := 0
  /-- 64; R464 FIRST_TNS -/
  first : Nat := 0
  /-- 64; R464 LAST_TNS -/
  last : Nat := 0
  /-- 32 signed; R464 MIN -/
  lo : Int := 0
  /-- 32 signed; R464 MAX -/
  hi : Int := 0
  deriving DecidableEq, Repr

/-- REC_STATUS.GRAN (R480). -/
inductive GranState
  | off | running | notResp | absent
  deriving DecidableEq, Repr

/-- An erase block of the Granary that holds records. -/
structure GBlock where
  /-- SEQs of the records it holds, oldest first, with their lengths; R470 -/
  recs : List Rec := []
  /-- bytes used; R470 -/
  used : Nat := 0
  /-- PAD record that fills the end of the block; R470 -/
  pad : Option Rec := none
  /-- 1; R471 erased and not written since -/
  erased : Bool := false
  /-- 1; R474 retired -/
  retired : Bool := false
  deriving DecidableEq, Repr

/-- One region of the Granary (R470). -/
structure GRegion where
  /-- erase blocks by index; R470; reset none -/
  blocks : Tab GBlock := []
  /-- block being written; R471; reset none -/
  pos : Option Nat := none
  /-- blocks in the region; R470; reset 0 -/
  n : Nat := 0
  deriving DecidableEq, Repr

/-- The Granary: the external flash and its controller. -/
structure Gran where
  /-- 2; R480 GRAN; reset 0b00 -/
  state : GranState := .off
  /-- 1; R480 FOREIGN; reset 0 -/
  foreign : Bool := false
  /-- 16; R480 RETIRED; reset 0 -/
  retired : Nat := 0
  /-- 4; R482 CS; reset 0 -/
  cs : Nat := 0
  /-- 16; R482 SIZE_MIB; reset 0 -/
  sizeMib : Nat := 0
  /-- erase unit E in bytes; R468; reset 0 -/
  unit : Nat := 0
  /-- 16; R475 pinned region size in force, MiB; reset 64 -/
  pinMib : Nat := 64
  /-- region; R470 main ring (external flash); reset none -/
  main : GRegion := {}
  /-- region; R470 pinned region (external flash); reset none -/
  pin : GRegion := {}
  /-- 32; R482 REC_GRAN_WRAP; reset 0 -/
  wraps : Nat := 0
  /-- 48; R474 newest SEQ programmed to the main ring; reset 0 -/
  progSeq : Nat := 0
  /-- 48; R470 newest SEQ programmed to, or passed over for, the pinned region; reset 0 -/
  pinSeq : Nat := 0
  /-- 64; R474 TNS of the next restart try; reset none -/
  retryAt : Option Nat := none
  /-- 1; R413 new Granary operations are refused; reset 0 -/
  refuse : Bool := false
  /-- 1; R481 a flush was asked for; reset 0 -/
  flush : Bool := false
  deriving DecidableEq, Repr

/-- A read cursor (R483). -/
structure Cursor where
  /-- 1; R483 ACTIVE; reset 0 -/
  active : Bool := false
  /-- 1; R483 OVERRUN; reset 0 -/
  overrun : Bool := false
  /-- 2; R483 SCOPE; reset 0b00 -/
  scope : Nat := 0
  /-- 2; R483 MIN_SEV; reset 0b00 -/
  minSev : Nat := 0
  /-- 2; R483 PORT; reset 0b00 -/
  port : Port := .t1s
  /-- 16; R483 SKIP; reset 0 -/
  skip : Nat := 0
  /-- 48; R483 SEQ of the next record; reset 0 -/
  next : Nat := 0
  deriving DecidableEq, Repr

/-- The REC window, the recorder and its SRAM ring. -/
structure Recd where
  /-- queue; R455 events raised and not yet admitted, oldest first; reset none -/
  produced : List Wait := []
  /-- 48; R467 next SEQ; reset 0 -/
  next : Nat := 0
  /-- 48; R467 SEQ_RES; reset 0 -/
  seqRes : Nat := 0
  /-- 1; R467 the DEVICE write of a raised SEQ_RES is not complete; reset 0 -/
  resDev : Bool := false
  /-- 1; R467 the time block write of a raised SEQ_RES is not complete; reset 0 -/
  resTb : Bool := false
  /-- 8 buffers; R456 admitted records not yet published, in SEQ order; reset none -/
  staging : List Rec := []
  /-- 2 MiB; R459 SRAM record ring, oldest first; reset none -/
  ring : List Rec := []
  /-- 48; R482 REC_SEQ: SEQ of the last record published; reset 0 -/
  pub : Nat := 0
  /-- buckets by code; R455 tokens in 1e-9 records and the TNS of their last refill; reset full -/
  tok : Tab (Option (Nat × Nat)) := []
  /-- R455 aggregate tokens in 1e-9 records; reset 400e9 -/
  aggTok : Int := 400000000000
  /-- 64; R455 TNS of the aggregate bucket's last refill; reset 0 -/
  aggAt : Nat := 0
  /-- 32 by code; R460 Chaff counters; reset 0 -/
  chaff : Tab Nat := []
  /-- 32 by code; R460 Chaff deltas; reset 0 -/
  delta : Tab Nat := []
  /-- 32; R482 REC_DROP; reset 0 -/
  drop : Nat := 0
  /-- 4; R480 PHASES; reset 0x1 -/
  phases : BitVec 4 := 1
  /-- 4; R465 phases active during this digest; reset 0x1 -/
  digPhases : BitVec 4 := 1
  /-- 64; R465 START_TNS; reset 0 -/
  digStart : Nat := 0
  /-- 32; R465 TOTAL; reset 0 -/
  digTotal : Nat := 0
  /-- 256 and overflow, by code; R463 digest entries; reset none -/
  dig : Tab (Option DigEnt) := []
  /-- Granary; R468; reset not started -/
  gran : Gran := {}
  /-- 16; R482 REC_GRAN_CFG.PIN_MIB; reset 0x0040 -/
  pinCfg : Nat := 64
  /-- 32; R482 REC_PIN_ACK_LO; reset 0 -/
  ackLo : Word := 0
  /-- 48; R472 acknowledged SEQ in force; reset 0 -/
  ack : Nat := 0
  /-- 16; R482 REC_PIN_STAT.OVF; reset 0 -/
  ovf : Nat := 0
  /-- 4 cursors; R483; reset inactive -/
  cur : Tab Cursor := []
  /-- 64; R461 TNS up to which the 10 s multiples have been served; reset 0 -/
  chaffAt : Nat := 0
  /-- 32; R428 newest SLOT_SEQ published from the last-gasp ring (LG_DONE); reset 0 -/
  lgDone : Nat := 0
  deriving DecidableEq, Repr

/-! ## Host link (chapter 17) -/

/-- An outbound THP message (R490, R498). -/
structure Msg where
  /-- 3; R498 class 1 to 6 -/
  cls : Nat
  /-- 8; R490 OP -/
  op : Nat
  /-- 16; R490 TAG -/
  tag : BitVec 16 := 0
  /-- payload; R490; -/
  body : List Byte := []
  /-- 3; R509 stream slot of a STREAM_DATA part, and the records or snapshot it carries -/
  slot : Option Nat := none
  /-- 48; R493, R501 Ethernet address it goes to; none for the host's, learned from SYNC -/
  dst : Option (BitVec 48) := none
  deriving DecidableEq, Repr

/-- A frame on the wire of a port (R485, R487, R489, R492). -/
structure WireFrame where
  /-- 29; R487 CAN identifier, none on the other ports -/
  canId : Option Nat := none
  /-- bytes; R492 the frame: Ethernet up to its FCS, the CAN FD data field, or the bytes on SPI_MISO -/
  bytes : List Byte := []
  deriving DecidableEq, Repr

/-- A kept response (R493). -/
structure Kept where
  /-- 8; R493 OP of the request -/
  op : Nat
  /-- 16; R493 TAG of the request -/
  tag : BitVec 16
  /-- 64; R493 TNS at which it was answered -/
  at0 : Nat
  /-- message; R493 the response -/
  msg : Msg
  deriving DecidableEq, Repr

/-- A CAN FD message whose segments are not complete (R492). -/
structure Partial where
  /-- 8; R490 OP -/
  op : Nat
  /-- 16; R490 TAG -/
  tag : BitVec 16
  /-- 64; R492 TNS of its first segment -/
  at0 : Nat
  /-- 4; R490 SEG of the next segment -/
  next : Nat
  deriving DecidableEq, Repr

/-- The selectors that each port has its own copy of (R630). -/
structure Sel where
  /-- 16; R447 NV_OBJ_SEL; reset 0x0001 -/
  nvObj : Nat := 1
  /-- 11; R163 ACQ_CELL_SEL; reset 0 -/
  acq : Nat := 0
  /-- 11; R275 KRN_CELL_SEL; reset 0 -/
  krn : Nat := 0
  /-- 11; R316 EST_CELL_SEL; reset 0 -/
  est : Nat := 0
  /-- 11; R346 WIN_CELL_SEL; reset 0 -/
  win : Nat := 0
  /-- 16; R482 REC_CHAFF_SEL; reset 0 -/
  chaff : Nat := 0
  /-- 6; R593 BIST_REPAIR_SEL; reset 0 -/
  repair : Nat := 0
  deriving DecidableEq, Repr

/-- The read latches that each port has its own copy of (R404, R450, R482, R630). -/
structure Latch where
  /-- 32; R404 TIME_TNS_HI as latched; reset 0 -/
  tnsHi : Word := 0
  /-- 32; R404 TIME_WALL_LO as latched; reset 0 -/
  wallLo : Word := 0
  /-- 32; R404 TIME_WALL_HI as latched; reset 0 -/
  wallHi : Word := 0
  /-- 32; R404 TIME_FRM as latched; reset 0 -/
  frm : Word := 0
  /-- 5 x 10 x 32; R450 LEDG_BLKb as latched, by 10 b + w; reset 0 -/
  ledg : Tab Word := []
  /-- 16; R482 REC_SEQ_HI as latched; reset 0 -/
  seqHi : Word := 0
  /-- 16; R482 REC_OLDEST_HI as latched; reset 0 -/
  oldHi : Word := 0
  deriving DecidableEq, Repr

/-- What the host link holds of one port. -/
structure PortSt where
  /-- queue; R498 outbound messages in queue order; reset none -/
  txq : List Msg := []
  /-- 16; R493 kept responses, newest first; reset none -/
  kept : List Kept := []
  /-- list; R492 messages with segments missing; reset none -/
  part : List Partial := []
  /-- selectors; R630; reset R632 values -/
  sel : Sel := {}
  /-- latches; R630; reset 0 -/
  lat : Latch := {}
  /-- 1; R501 SYNC heard since start-up step 6 or the loss of the NODE; reset 0 -/
  heard : Bool := false
  /-- 1; R501 joining steps in progress; reset 0 -/
  joining : Bool := false
  /-- 64; R501 TNS before which no JOIN is sent; reset none -/
  joinAt : Option Nat := none
  /-- 64; R501 TNS at which the last JOIN was sent, until its retry; reset none -/
  joinSent : Option Nat := none
  /-- 48; R501 the host's MAC address, learned from SYNC; reset none -/
  hostMac : Option (BitVec 48) := none
  /-- list; R493 OP, TAG and Ethernet source of requests not answered yet; reset none -/
  asks : List (Nat × BitVec 16 × BitVec 48) := []
  /-- list; R489, R492 frames of the last message that left; reset none -/
  wire : List WireFrame := []
  deriving DecidableEq, Repr

/-- A stream slot (R507, R516). -/
structure Stream where
  /-- 2; R516 PORT -/
  port : Port
  /-- 4; R516 STYPE -/
  stype : Nat
  /-- 8; R507 SID -/
  sid : Nat
  /-- 16; R516 PERIOD, ms -/
  period : Nat := 0
  /-- 16; R507 FIRST of a CELL stream -/
  first : Nat := 0
  /-- 16; R507 COUNT of a CELL stream -/
  count : Nat := 0
  /-- 2; R516 CURSOR of a REC stream -/
  cursor : Nat := 0
  /-- 16; R516 DROP; reset 0 -/
  drop : Nat := 0
  /-- 1; R509 the next part carries DROP_BEFORE; reset 0 -/
  dropNext : Bool := false
  /-- 64; R509 TNS of the next period instant -/
  nextAt : Nat := 0
  /-- list; R509 parts of the last snapshot not yet sent, with PART and PARTS and FRM; reset none -/
  parts : List (List Byte) := []
  deriving DecidableEq, Repr

/-- HOST_STATUS.CAN (R512). -/
inductive CanState
  | off | active | passive | busOff
  deriving DecidableEq, Repr

/-- The HOST window and the host link. -/
structure HostS where
  /-- 16; R429, R500 LAST_SNID, the last SNID assigned; reset 0xFFFF -/
  lastSnid : Nat := 0xFFFF
  /-- 3 ports; R484; reset idle -/
  ports : Tab PortSt := []
  /-- 12; R512 SNID; reset none -/
  snid : Option Nat := none
  /-- 2; R513 SYNC_PORT; reset 0b00 -/
  syncPort : Nat := 0
  /-- 3; R513 EVT_PORTS; reset 0b111 -/
  evtPorts : Nat := 7
  /-- 16; R514 T1S; reset 0x007B -/
  budT1s : Nat := 123
  /-- 16; R514 CAN; reset 0x001E -/
  budCan : Nat := 30
  /-- 16; R515 HOST_SYNC_DLY; reset 0 -/
  syncDly : Nat := 0
  /-- 8; R515 HOST_ERR.SPI; reset 0 -/
  errSpi : Nat := 0
  /-- 8; R515 HOST_ERR.T1S; reset 0 -/
  errT1s : Nat := 0
  /-- 8; R515 HOST_ERR.CAN; reset 0 -/
  errCan : Nat := 0
  /-- 8; R515 HOST_ERR.THP; reset 0 -/
  errThp : Nat := 0
  /-- 16; R515 HOST_REQ_CNT.BUSY; reset 0 -/
  busy : Nat := 0
  /-- 16; R515 HOST_REQ_CNT.DONE; reset 0 -/
  done : Nat := 0
  /-- 16; R515 HOST_EVT_CNT.WITHHELD; reset 0 -/
  withheld : Nat := 0
  /-- 16; R515 HOST_EVT_CNT.KEEPALIVE; reset 0 -/
  keepalive : Nat := 0
  /-- 2; R512 CAN; reset 0b00 -/
  can : CanState := .off
  /-- 32; R587 bus-off events since reset; reset 0 -/
  busOffs : Nat := 0
  /-- 64; R512 TNS of the last PLCA beacon; reset none -/
  plcaAt : Option Nat := none
  /-- 64; R512 TNS of the last SPI transaction; reset none -/
  spiAt : Option Nat := none
  /-- 8 slots; R507 streams; reset none open -/
  str : Tab (Option Stream) := []
  /-- 64; R83 TNS of the last Sprout status frame; reset none -/
  statAt : Option Nat := none
  /-- 64; R557 TNS of the last THP request; reset 0 -/
  reqAt : Nat := 0
  /-- 3 x budget left of EVENT: bits or frames sent in the current second; R510; reset 0 -/
  evtUsed : Tab Nat := []
  /-- 64; R510 TNS at which that second began; reset 0 -/
  evtAt : Nat := 0
  deriving DecidableEq, Repr

/-! ## Presence and trust (chapter 18), power (chapter 19) -/

/-- The SEC window and the trust block. -/
structure Sec where
  /-- 64; R525 MID in OTP; reset as built (OTP) -/
  mid : BitVec 64 := 0
  /-- 32 bytes; R525 device key in OTP; reset as built (OTP) -/
  devKey : List Byte := []
  /-- 64; R520 TNS at which the button window ends; reset none -/
  btn : Option Nat := none
  /-- 64; R521 TNS at which the strap window ends; reset none -/
  strap : Option Nat := none
  /-- 1; R534 PRES_STUCK; reset 0 -/
  stuck : Bool := false
  /-- 64; R520 TNS of the qualified press in progress; reset none -/
  pressAt : Option Nat := none
  /-- 1; R520 the button is ignored until released for 1 s; reset 0 -/
  ignore : Bool := false
  /-- 64; R520 TNS of the qualified release from which that second runs; reset none -/
  relAt : Option Nat := none
  /-- 1; R534 STRAP; reset 0 -/
  strapLow : Bool := false
  /-- 1; R534 SEAL_OPEN; reset 0 -/
  sealOpen : Bool := false
  /-- 1; R534 KEY_LOST; reset 0 -/
  keyLost : Bool := false
  /-- 4; R537 RESULT; reset 0 -/
  adResult : Nat := 0
  /-- 8; R537 NODES; reset 0 -/
  adNodes : Nat := 0
  /-- 4; R537 STRING; reset 0 -/
  adString : Nat := 0
  /-- string and adopted record; R533 adoptions whose pod checkpoint runs; reset none -/
  adopt : List (Nat × List Byte) := []
  /-- 16; R538 SEC_AUTH_CNT.FAIL; reset 0 -/
  authFail : Nat := 0
  /-- 16; R538 SEC_AUTH_CNT.PASS; reset 0 -/
  authPass : Nat := 0
  /-- 4; R527 SEC_KEY_ABSENT recorded since start-up; reset 0 -/
  absent : BitVec 4 := 0
  deriving DecidableEq, Repr

/-- The power states of R547, and the states on the way between them (R562). -/
inductive PwrState
  | off | run | standby | leaving | sleepEntry | sleep | waking | shipEntry | ship | thermOff
  deriving DecidableEq, Repr

/-- The PWR window, the rails and the wake controller. -/
structure Pwr where
  /-- 4; R547, R562 power state; reset OFF -/
  state : PwrState := .off
  /-- 2; R562 VCORE; reset 0b10 -/
  vcore : Nat := 2
  /-- 1; R412, R548, R567 VCORE is forced (0 none, 1 BIST, 2 throttle); reset 0 -/
  force : Nat := 0
  /-- 10; R548 consecutive frames without tight kernel work at 0.90 V; reset 0 -/
  loose : Nat := 0
  /-- 1; R548 the kernel work of the last frame was tight: VCORE rises at the next boundary; reset 0 -/
  tight : Bool := false
  /-- 2; R562 PFW: level in force; reset 0b00 -/
  pfw : Nat := 0
  /-- 1; R562 PFW_ARMED; reset 0 -/
  armed : Bool := false
  /-- 1; R562 CHG_DET qualified active; reset 0 -/
  chg : Bool := false
  /-- 1; R562 WAKE_OUT; reset 0 -/
  wakeOut : Bool := false
  /-- 64; R555 TNS at which WAKE_OUT is released; reset none -/
  wakeOutEnd : Option Nat := none
  /-- 5; R562 PG and VANA: VIO, VCORE, VHUSK, VFL, VANA in regulation; reset 0 -/
  pg : BitVec 5 := 0
  /-- 8; R565 PWR_WAKE.CAUSE; reset 0 -/
  cause : Nat := 0
  /-- 16; R565 PWR_WAKE.COUNT; reset 0 -/
  count : Nat := 0
  /-- 16; R565 VHOLD, 10 mV; reset 0 -/
  vhold : Nat := 0
  /-- 16; R565 VSUP, 10 mV; reset 0 -/
  vsup : Nat := 0
  /-- 64; R565 millisecond of TNS in which PWR_VSUP was refreshed; reset 0 -/
  vsupMs : Nat := 0
  /-- 16; R565 PWR_CNT.PFW; reset 0 -/
  pfwCnt : Nat := 0
  /-- 16; R565 PWR_CNT.RAIL; reset 0 -/
  railCnt : Nat := 0
  /-- 8; R564 AUTO_SLEEP; reset 0 -/
  autoSleep : Nat := 0
  /-- 64; R557 TNS since which auto-sleep's conditions hold; reset none -/
  idleAt : Option Nat := none
  /-- 3; R551, R554, R558 step done of the entry or wake in progress; reset 0 -/
  step : Nat := 0
  /-- 2; R554 wake steps 2 (bit 0) and 3 (bit 1) done; reset 0 -/
  wakeDone : BitVec 2 := 0
  /-- 4; R556 wake source that qualified during SLEEP entry; reset none -/
  wakeLate : Option Nat := none
  /-- 32 signed; R545 VSUP in mV of the power-fail warning whose shutdown runs; reset none -/
  pfVsup : Option Int := none
  /-- 1; R546 the shutdown that runs began in SLEEP and writes no last-gasp slot; reset 0 -/
  quiet : Bool := false
  /-- 64; R544 TNS of a VCORE fault that waits for its retry; reset none -/
  coreAt : Option Nat := none
  /-- 64; R553 TNS of entry to SLEEP or STANDBY; reset 0 -/
  sleepAt : Nat := 0
  /-- 1; R545 a power-fail warning holds the drivers off; reset 0 -/
  pfHold : Bool := false
  /-- 1; R545 the last stop was a brown-out, warning or rail fault: CAUSE 2; reset 0 -/
  brown : Bool := false
  /-- 1; R559 CHG_DET is armed in SHIP; reset 0 -/
  armChg : Bool := false
  /-- 1; R559 PRES_BTN is armed in SHIP; reset 0 -/
  armBtn : Bool := false
  /-- list; R493, R573 PWR_CTRL requests that wait for BIST's restore: OP, port, TAG and bit; reset none -/
  waitReq : List (Nat × Port × BitVec 16 × Nat) := []
  deriving DecidableEq, Repr

/-- The output and level pins (chapters 8, 17, 19, 21). -/
structure Pins where
  /-- 1; R26 FAULT_n asserted (low); reset 0 (unpowered) -/
  fault : Bool := false
  /-- 1; R588 IRQ0_n asserted; reset 0 -/
  irq0 : Bool := false
  /-- 1; R588 IRQ1_n asserted; reset 0 -/
  irq1 : Bool := false
  /-- 1; R489 SPI_ATN_n asserted; reset 0 -/
  spiAtn : Bool := false
  /-- 4; R236 BRK0 to BRK3 drive the open command; reset 1111 (unpowered reads open, R239) -/
  brk : BitVec 4 := 15
  /-- 1; R488 CAN_STB asserted: the transceiver stands by; reset 1 -/
  canStb : Bool := true
  /-- 1; R604 TEST_EN reads high; reset 0 -/
  testEn : Bool := false
  /-- 1; R520 qualified level of PRES_BTN is pressed; reset 0 -/
  btn : Bool := false
  deriving DecidableEq, Repr

/-! ## BIST, the error queue and events (chapter 20) -/

/-- BIST_STATUS.STATE (R591). -/
inductive BistState
  | idle | running | aborting | repairing
  deriving DecidableEq, Repr

/-- The BIST window and controller. -/
structure Bist where
  /-- 4; R591 STATE; reset 0 -/
  state : BistState := .idle
  /-- 4; R591 RESULT; reset 0 -/
  result : Nat := 0
  /-- 4; R591 REFUSE; reset 0 -/
  refuse : Nat := 0
  /-- 4; R591 ABORT_CAUSE; reset 0 -/
  abort : Nat := 0
  /-- 1; R591 FAIL_SEEN; reset 0 -/
  fail : Bool := false
  /-- 3; R591 TARGET of the last run; reset 0 -/
  last : Nat := 0
  /-- 3; R592 TARGET for the next START; reset 0 -/
  target : Nat := 0
  /-- 8; R593 FIRST; reset 0 -/
  first : Nat := 0
  /-- 8; R593 COUNT; reset 1 -/
  count : Nat := 1
  /-- 16; R593 STEPS_DONE; reset 0 -/
  done : Nat := 0
  /-- 16; R593 STEPS_TOTAL; reset 0 -/
  total : Nat := 0
  /-- 9; R571 region under test; reset 0 -/
  region : Nat := 0
  /-- 32; R593 BIST_SIG; reset 0 -/
  sig : Word := 0
  /-- 32; R593 BIST_SIG_EXP; reset 0 -/
  sigExp : Word := 0
  /-- 32; R593 BIST_FAIL_ADDR; reset 0 -/
  failAddr : Word := 0
  /-- 16; R593 FAIL_INFO.COUNT; reset 0 -/
  failCnt : Nat := 0
  /-- 8; R593 FAIL_INFO.BIT; reset 0 -/
  failBit : Nat := 0
  /-- 16; R593 SKIPS; reset 0 -/
  skips : Nat := 0
  /-- 16; R593 PERIOD; reset 0 -/
  period : Nat := 0
  /-- 6; R593 BIST_BOOT; reset 0 -/
  boot : BitVec 6 := 0
  /-- 64 entries; R578 repair entries, EN and ROW; reset EN 0, ROW 0 -/
  repair : Tab (Bool × Nat) := []
  /-- 8; R577 next background region; reset 0 -/
  bgNext : Nat := 0
  /-- 1; R577 the run is a background run; reset 0 -/
  bg : Bool := false
  /-- 64; R577 TNS of the last background region, run or skipped; reset 0 -/
  bgAt : Nat := 0
  /-- list; R573 ABORT writes that are answered after the restore: OP, port and TAG; reset none -/
  waitAbort : List (Nat × Port × BitVec 16) := []
  deriving DecidableEq, Repr

/-- An entry of the error queue (R582). -/
structure ErrEnt where
  /-- 16; R582 CODE -/
  code : Nat
  /-- 2; R582 severity -/
  sev : Nat
  /-- 7; R582 source -/
  src : Nat
  /-- 64; R582 TNS of its first raising -/
  tns : Nat
  /-- 8; R582 REPEAT -/
  rep : Nat := 0
  deriving DecidableEq, Repr

/-- The EVT window, the error queue and the steward's handlers. -/
structure Evt where
  /-- 4 x 32; R588 EVT_PEND; reset 0 -/
  pend : BitVec 128 := 0
  /-- 8 x 32; R589 EVT_IRQMAP; reset 0 -/
  irqmap : BitVec 256 := 0
  /-- 4 x 32; R589 EVT_EVTMAP; reset 0 -/
  evtmap : BitVec 128 := 0
  /-- up to 16; R582 entries waiting, in order of arrival; reset none -/
  queue : List ErrEnt := []
  /-- up to 3; R583 entries being handled, the innermost first; reset none -/
  handling : List ErrEnt := []
  /-- 8; R590 LOST; reset 0 -/
  lost : Nat := 0
  /-- 1; R584 OVERFLOW in force: close starts are ignored; reset 0 -/
  overflow : Bool := false
  /-- 1; R584 an overflow's orderly opens have not started yet; reset 0 -/
  ovfOpen : Bool := false
  /-- 1; R581 HUSK_NO_NETLIST active; reset 0 -/
  s3NoNet : Bool := false
  /-- 1; R581 BRK_NO_EFFECT active; reset 0 -/
  s3Brk : Bool := false
  /-- 1; R581 THERM_SHUTDOWN or POWER_FAIL active; reset 0 -/
  s3Shut : Bool := false
  /-- 1; R581 LEDGER_LOST active; reset 0 -/
  s3Ledg : Bool := false
  /-- list; R585 TNS of the steward resets of the last 10 min; reset none -/
  stewAt : List Nat := []
  /-- 1; R585 the steward is held in reset; reset 0 -/
  stewHeld : Bool := false
  /-- 32; R104 FRM wraps since reset; reset 0 -/
  wraps : Nat := 0
  deriving DecidableEq, Repr

/-! ## The whole machine -/

/-- Everything the device holds, and the queue of the commands that wait. -/
structure State where
  /-- window; SYS, chapters 1, 3 and 23 -/
  sys : Sys := {}
  /-- window; IMG, chapter 2 -/
  img : Img := {}
  /-- sections; chapter 2, the configuration in force -/
  cfg : Cfg := {}
  /-- 2 rings; RINGn, chapter 4 -/
  ring : Tab Ring := []
  /-- window; ACQ and CELL bytes 0 to 35, chapter 5 -/
  acq : Acq := {}
  /-- window; CUR, chapter 6 -/
  cur : Cur := {}
  /-- window; HUSK, chapter 7 -/
  husk : Husk := {}
  /-- window; DRV, chapter 8 -/
  drv : Drv := {}
  /-- window; KRN, KSTATE and CELL output slots, chapter 9 -/
  krn : Krn := {}
  /-- window; EST and CELL bytes 44 to 71, chapter 10 -/
  est : Est := {}
  /-- window; WIN and ZTAB, chapter 11 -/
  win : Win := {}
  /-- windows; PAIR and DBG, chapter 12 -/
  pairs : Pairs := {}
  /-- window; TIME, chapter 13 -/
  time : Time := {}
  /-- window; THERM, chapter 14 -/
  therm : Therm := {}
  /-- window; NV and the MRAM, chapter 15 -/
  nv : Nv := {}
  /-- window; LEDG, chapter 15 -/
  ledg : Ledg := {}
  /-- array; HIST, chapters 13, 15 and 23 -/
  tally : Tally := {}
  /-- window; REC, the SRAM ring and the Granary, chapter 16 -/
  recd : Recd := {}
  /-- window; HOST, chapter 17 -/
  host : HostS := {}
  /-- window; SEC, chapter 18 -/
  sec : Sec := {}
  /-- window; PWR, chapter 19 -/
  pwr : Pwr := {}
  /-- window; BIST, chapter 20 -/
  bist : Bist := {}
  /-- window; EVT and the error queue, chapter 20 -/
  evt : Evt := {}
  /-- pins; chapter 21 -/
  pins : Pins := {}
  /-- the model's own: number of free values taken; reset 0 (DESIGN CHOICE) -/
  freeIx : Nat := 0
  /-- the model's own: commands that wait, first in, first out; reset empty -/
  pending : List Instr := []
  deriving DecidableEq, Repr

/-- Why a step stops the machine. -/
inductive Fault
  /-- Raised by no meaning of this block: the spec gives every command an effect, and the block has no
  access that could fail. Safe. -/
  | unused
  deriving DecidableEq, Repr

/-- Why a command is refused. -/
inductive Refusal
  /-- Raised by `exec` for a command that has no meaning yet. Safe. -/
  | notModelled (mnemonic : String)
  deriving DecidableEq, Repr

/-- The machine before VSUP is valid: every register at its reset value (R632), nothing stored in
MRAM or flash, no command waiting. -/
def State.reset : State := {}

end Sys2Proof.Machine
end

