-- ==== Sys2Proof/Machine/Codes.lean ====
section
/-! DEFINITION. The tables of the event codes: severities (R453, R571, R587), sources (R586), and the error queue
that severities S1 to S3 enter (R582, R584). -/

namespace Sys2Proof.Machine

/-- The device codes of severity S0 (R453, R571, R587). -/
def codesS0 : List Nat :=
  [0x0082, 0x0083, 0x0084, 0x0085, 0x0103, 0x0104, 0x0105, 0x0180, 0x0182, 0x0186, 0x0284, 0x0285] ++
   [0x0385, 0x0386, 0x0389, 0x0401, 0x0407, 0x0481, 0x0488, 0x0505, 0x0507, 0x0508, 0x050A, 0x0585] ++
   [0x0786, 0x0788, 0x078A, 0x078B, 0x0980, 0x0981, 0x0985, 0x098F, 0x0A00, 0x0A80, 0x0A81, 0x0A84] ++
   [0x0B00, 0x0B81, 0x0B82]

/-- The device codes of severity S1 (R453, R571, R587). -/
def codesS1 : List Nat :=
  [0x0100, 0x0102, 0x0181, 0x0184, 0x0187, 0x0188, 0x0281, 0x0287, 0x0300, 0x0301, 0x0305, 0x0306] ++
   [0x0307, 0x0383, 0x0387, 0x0388, 0x0400, 0x0403, 0x0405, 0x0408, 0x0409, 0x040A, 0x040B, 0x040C] ++
   [0x040D, 0x0480, 0x0482, 0x0484, 0x0485, 0x0486, 0x0487, 0x0489, 0x048A, 0x0500, 0x0501, 0x0502] ++
   [0x0503, 0x0504, 0x0506, 0x0509, 0x050B, 0x050C, 0x0580, 0x0581, 0x0582, 0x0583, 0x0584, 0x0600] ++
   [0x0601, 0x0602, 0x0680, 0x0701, 0x0781, 0x0782, 0x0783, 0x0784, 0x0785, 0x0787, 0x0789, 0x078C] ++
   [0x078D, 0x078E, 0x078F, 0x0880, 0x0881, 0x0982, 0x0983, 0x0984, 0x0986, 0x0987, 0x0988, 0x0989] ++
   [0x0A01, 0x0A02, 0x0A03, 0x0A82, 0x0A83, 0x0A85, 0x0A86, 0x0A88, 0x0A89, 0x0A8A, 0x0A8B, 0x0B01] ++
   [0x0B02, 0x0B03, 0x0B80]

/-- The device codes of severity S2 (R571, R587). -/
def codesS2 : List Nat :=
  [0x0080, 0x0101, 0x0106, 0x0189, 0x0280, 0x0282, 0x0302, 0x0303, 0x0304, 0x0380, 0x0381, 0x0382] ++
   [0x0384, 0x0402, 0x0404, 0x0406, 0x0483, 0x0780, 0x0A87]

/-- The device codes of severity S3 (R587). -/
def codesS3 : List Nat := [0x0081, 0x0183, 0x0185, 0x0283, 0x0286, 0x0700]

/-- The severity of a device code, none where the code is no device code. -/
def devSev (code : Nat) : Option Nat :=
  if codesS1.contains code then some 1
  else if codesS0.contains code then some 0
  else if codesS2.contains code then some 2
  else if codesS3.contains code then some 3
  else none

/-- The codes whose row of the event source table names one source (R586). -/
def srcFixed : List (Nat × Nat) :=
  [(0x0080, 105), (0x0081, 105), (0x0082, 106), (0x0083, 106), (0x0084, 106), (0x0085, 106), (0x0100, 102), (0x0101, 102)] ++
   [(0x0102, 102), (0x0103, 102), (0x0104, 102), (0x0105, 103), (0x0180, 80), (0x0181, 81), (0x0182, 81), (0x0183, 82)] ++
   [(0x0184, 82), (0x0185, 83), (0x0186, 83), (0x0187, 84), (0x0188, 84), (0x0189, 84), (0x0281, 16), (0x0282, 17)] ++
   [(0x0283, 17), (0x0284, 19), (0x0285, 19), (0x0286, 18), (0x0287, 12), (0x0300, 24), (0x0301, 24), (0x0307, 24)] ++
   [(0x0380, 15), (0x0381, 15), (0x0387, 13), (0x0388, 14), (0x0389, 14), (0x040D, 48), (0x0487, 53), (0x0488, 53)] ++
   [(0x0489, 53), (0x048A, 54), (0x0500, 72), (0x0501, 71), (0x0502, 71), (0x0503, 71), (0x0507, 68), (0x0508, 68)] ++
   [(0x0509, 69), (0x050A, 69), (0x050B, 70), (0x050C, 70), (0x0580, 73), (0x0581, 73), (0x0582, 74), (0x0583, 74)] ++
   [(0x0584, 75), (0x0585, 75), (0x0600, 77), (0x0601, 77), (0x0602, 77), (0x0680, 78), (0x0700, 79), (0x0701, 79)] ++
   [(0x0780, 101), (0x0781, 101), (0x0782, 97), (0x0783, 97), (0x0784, 97), (0x0785, 96), (0x0786, 96), (0x0787, 100)] ++
   [(0x0788, 98), (0x0789, 98), (0x078A, 98), (0x078B, 98), (0x078C, 99), (0x078D, 99), (0x078E, 99), (0x078F, 99)] ++
   [(0x0880, 104), (0x0881, 104), (0x0980, 107), (0x0981, 107), (0x0982, 109), (0x0983, 108), (0x0984, 108), (0x0985, 108)] ++
   [(0x0986, 108), (0x0987, 108), (0x0988, 108), (0x0A00, 110), (0x0A01, 110), (0x0A02, 110), (0x0A03, 110), (0x0A80, 111)] ++
   [(0x0A81, 111), (0x0A82, 111), (0x0A83, 112), (0x0A84, 112), (0x0A85, 113), (0x0A86, 113), (0x0A87, 113), (0x0A88, 114)] ++
   [(0x0A89, 114), (0x0A8A, 114), (0x0B00, 115), (0x0B01, 116), (0x0B02, 116), (0x0B03, 117), (0x0B80, 76), (0x0B81, 76)] ++
   [(0x0B82, 76)]

/-- The codes whose row gives a range, by string or by ring: its first source (R586). -/
def srcRange : List (Nat × Nat) :=
  [(0x0280, 0), (0x0302, 20), (0x0303, 20), (0x0304, 20), (0x0305, 20), (0x0306, 20), (0x0382, 4), (0x0383, 4)] ++
   [(0x0384, 8), (0x0385, 8), (0x0386, 8), (0x0400, 32), (0x0401, 32), (0x0402, 34), (0x0403, 34), (0x0404, 34)] ++
   [(0x0405, 34), (0x0406, 36), (0x0407, 44), (0x0408, 44), (0x0409, 40), (0x040A, 46), (0x040B, 46), (0x040C, 46)] ++
   [(0x0480, 49), (0x0481, 49), (0x0482, 49), (0x0483, 49), (0x0484, 49), (0x0485, 49), (0x0486, 49), (0x0504, 64)] ++
   [(0x0505, 64), (0x0506, 64), (0x0A8B, 40)]

/-- The event source of a code; `ix` is the string or the ring that selects it within a range (R586). -/
def eventSource (code ix : Nat) : Nat :=
  match srcFixed.lookup code with
  | some k => k
  | none => match srcRange.lookup code with
    | some k => k + ix
    | none =>
      if 0x8000 ≤ code then 30
      else
        let n := code / 128
        if n ∈ [5, 6, 7] then 31 else if n ∈ [8, 9] then 63
        else if n ∈ [3, 4, 10, 11, 12, 13, 14] then 95 else 127

/-- The severity that the running image gives a user code, or the device a device code (R452). -/
def sevOf (s : State) (code : Nat) : Option Nat :=
  if 0x8000 ≤ code then (s.cfg.recd.ents.find? (·.code == code)).map (·.sev) else devSev code

/-- Raise an event source: its pending bit is set (R588). -/
def raiseSrc (k : Nat) (s : State) : State := { s with evt.pend := s.evt.pend ||| BitVec.ofNat 128 (2 ^ k) }

/-- Hand an event to the recorder's admission, in order of raising (R455). -/
def produce (w : Wait) (s : State) : State := { s with recd.produced := s.recd.produced ++ [w] }

/-- An event as it waits for admission: it counts into the digest when raised in digest mode (R463). -/
def waitOf (s : State) (code : Nat) (payload : List Byte) (ix : Nat) : Wait :=
  { ev := { code := code, payload := payload, tns := s.time.tns, ix := ix }, dig := s.recd.phases != 0 }

/-- The entry is of this code: it stands for every event of the code (R582). -/
def sameCode (code : Nat) (e : ErrEnt) : ErrEnt :=
  if e.code = code then { e with rep := if e.rep < 255 then e.rep + 1 else 255 } else e

/-- The least severity among error queue entries. -/
def leastSev : List ErrEnt → Nat
  | [] => 3
  | e :: es => min e.sev (leastSev es)

/-- Remove the newest entry of severity `v`: what is left, and the entry (R584). -/
def dropNewest (v : Nat) (es : List ErrEnt) : List ErrEnt × List ErrEnt :=
  match es.reverse.span (·.sev != v) with
  | (newer, e :: older) => ((newer ++ older).reverse, [e])
  | (newer, []) => (newer.reverse, [])

/-- An event arrives with all 16 entries occupied by other codes (R584): the newest entry of the lowest severity is
discarded, ERR_OVERFLOW is recorded, every configured string is to open, and close starts are ignored. -/
def errqOverflow (e : ErrEnt) (s : State) : State :=
  let all := s.evt.queue ++ [e]
  let d := dropNewest (leastSev all) all
  let lost := if s.evt.lost < 255 then s.evt.lost + 1 else 255
  let code := match d.2 with
    | x :: _ => x.code
    | [] => 0
  let pay : List Byte := [BitVec.ofNat 8 code, BitVec.ofNat 8 (code / 256), 0, 0, BitVec.ofNat 8 lost, 0, 0, 0]
  let s1 := { s with evt.queue := d.1, evt.lost := lost, evt.overflow := true, evt.ovfOpen := true }
  produce (waitOf s 0x0780 pay 0) (raiseSrc (eventSource 0x0780 0) s1)

/-- An event of a device code of severity S1, S2 or S3 enters the error queue (R582). -/
def errqPush (code sev src : Nat) (s : State) : State :=
  if s.evt.queue.any (·.code == code) || s.evt.handling.any (·.code == code) then
    { s with evt.queue := s.evt.queue.map (sameCode code), evt.handling := s.evt.handling.map (sameCode code) }
  else
    let e : ErrEnt := { code := code, sev := sev, src := src, tns := s.time.tns }
    if s.evt.queue.length + s.evt.handling.length < 16 then { s with evt.queue := s.evt.queue ++ [e] }
    else errqOverflow e s

/-- Raise an event (R451, R455, R458, R582, R588): its source becomes pending, it enters the error queue when its
device code has severity S1 to S3, and it waits for admission by the recorder. `ix` is the string or ring that
selects the source within a range (R586). -/
def emit (code : Nat) (payload : List Byte) (s : State) (ix : Nat := 0) : State :=
  let src := eventSource code ix
  let s1 := produce (waitOf s code payload ix) (raiseSrc src s)
  match devSev code with
  | some sev => if sev = 0 || code = 0x0780 then s1 else errqPush code sev src s1
  | none => s1

/-- Raise an event only when the condition holds. -/
def emitIf (b : Bool) (code : Nat) (payload : List Byte) (s : State) (ix : Nat := 0) : State :=
  if b then emit code payload s ix else s

end Sys2Proof.Machine
end

