-- ==== Sys2Proof/Machine/Ops.lean ====
section
/-! DEFINITION. The named operations that every chapter uses: byte fields, checks and digests,
serial numbers, the raising of events, and the questions about strings, rings and cells. -/

namespace Sys2Proof.Machine

/-! ## Numbers and bytes -/

/-- `n` bytes of `v`, the least significant first (R4). -/
def le : Nat → Nat → List Byte
  | 0, _ => []
  | n + 1, v => BitVec.ofNat 8 v :: le n (v / 256)

/-- `n` bytes of the two's complement of `v`, the least significant first (R4). -/
def leI (n : Nat) (v : Int) : List Byte := le n (v % (256 ^ n : Nat)).toNat

/-- The number that the bytes spell, the least significant first (R4). -/
def ofLe : List Byte → Nat
  | [] => 0
  | b :: bs => b.toNat + 256 * ofLe bs

/-- The `n`-byte field at offset `off`; bytes beyond the end read zero. -/
def fld (bs : List Byte) (off n : Nat) : Nat := ofLe ((bs.drop off).take n)

/-- `v` read as a two's complement number of `n` bits. -/
def toSigned (n v : Nat) : Int := if v % 2 ^ n < 2 ^ (n - 1) then v % 2 ^ n else (v % 2 ^ n : Nat) - (2 ^ n : Nat)

/-- The signed `n`-byte field at offset `off`. -/
def fldI (bs : List Byte) (off n : Nat) : Int := toSigned (8 * n) (fld bs off n)

/-- A byte list cut or padded with zeros to `n` bytes. -/
def padTo (n : Nat) (bs : List Byte) : List Byte := (bs ++ List.replicate (n - bs.length) 0).take n

/-- `v` held in a saturating field of `n` bits. -/
def sat (n v : Nat) : Nat := if v < 2 ^ n then v else 2 ^ n - 1

/-- `v` held in a saturating two's complement field of `n` bits. -/
def satI (n : Nat) (v : Int) : Int :=
  if v < -(2 ^ (n - 1) : Nat) then -(2 ^ (n - 1) : Nat) else if v ≥ (2 ^ (n - 1) : Nat) then (2 ^ (n - 1) : Nat) - 1 else v

/-- `v` held between `lo` and `hi`. -/
def clampI (lo hi v : Int) : Int := if v < lo then lo else if v > hi then hi else v

/-- The magnitude of an integer. -/
def absI (v : Int) : Nat := v.natAbs

/-- Round to nearest, ties away from zero. -/
def roundDiv (a : Int) (b : Nat) : Int :=
  if a ≥ 0 then (2 * a + b) / (2 * b) else -((2 * (-a) + b) / (2 * b))

/-- `q` rounded to the nearest integer, ties away from zero. -/
def roundRat (q : Rat) : Int := roundDiv q.num q.den

/-- The larger of two numbers, on rationals. -/
def maxR (a b : Rat) : Rat := if a < b then b else a

/-- The smaller of two numbers, on rationals. -/
def minR (a b : Rat) : Rat := if b < a then b else a

/-- The magnitude of a rational. -/
def absR (a : Rat) : Rat := if a < 0 then -a else a

/-- The sum of a list of integers. -/
def sumI : List Int → Int
  | [] => 0
  | x :: xs => x + sumI xs

/-- The least of a list, none of an empty one. -/
def minOf? : List Int → Option Int
  | [] => none
  | x :: xs => some (xs.foldl min x)

/-- The greatest of a list, none of an empty one. -/
def maxOf? : List Int → Option Int
  | [] => none
  | x :: xs => some (xs.foldl max x)

/-- The bits `hi` to `lo` of a word, as a number. -/
def bits (w : Word) (hi lo : Nat) : Nat := w.toNat / 2 ^ lo % 2 ^ (hi - lo + 1)

/-- A number from 0 or 1. -/
def b2n (b : Bool) : Nat := if b then 1 else 0

/-- A number placed at bit `lo` of a word. -/
def at' (lo v : Nat) : Nat := v * 2 ^ lo

/-- `a` is newer than `b` by serial-number arithmetic over `n` bits (R398). -/
def serNewer (n a b : Nat) : Bool :=
  let d := (a + 2 ^ n - b % 2 ^ n) % 2 ^ n
  decide (0 < d ∧ d < 2 ^ (n - 1))

/-- The numbers from `a` up, `n` of them. -/
def rangeFrom (a n : Nat) : List Nat := (List.range n).map (· + a)

/-! ## Checks and digests -/

/-- One bit of CRC-32C, reflected. -/
def crc32cBit (c : BitVec 32) : BitVec 32 :=
  if c.getLsbD 0 then (c >>> 1) ^^^ 0x82F63B78#32 else c >>> 1

/-- One byte of CRC-32C. -/
def crc32cByte (c : BitVec 32) (b : Byte) : BitVec 32 :=
  let x := c ^^^ b.setWidth 32
  crc32cBit (crc32cBit (crc32cBit (crc32cBit (crc32cBit (crc32cBit (crc32cBit (crc32cBit x)))))))

/-- CRC-32C of a byte string: Castagnoli polynomial, reflected, initial value and final XOR all ones (R35; its parameters
PRESUMED, assumption 99). -/
def crc32c (bs : List Byte) : BitVec 32 := bs.foldl crc32cByte 0xFFFFFFFF#32 ^^^ 0xFFFFFFFF#32

/-- One bit of the ring CRC, most significant bit first. -/
def crc16Bit (c : BitVec 16) : BitVec 16 :=
  if c.getLsbD 15 then (c <<< 1) ^^^ 0x1021#16 else c <<< 1

/-- One byte of the ring CRC. -/
def crc16Byte (c : BitVec 16) (b : Byte) : BitVec 16 :=
  let x := c ^^^ (b.setWidth 16 <<< 8)
  crc16Bit (crc16Bit (crc16Bit (crc16Bit (crc16Bit (crc16Bit (crc16Bit (crc16Bit x)))))))

/-- The ring CRC: polynomial 0x1021, initial value 0xFFFF (R96). -/
def crc16 (bs : List Byte) : BitVec 16 := bs.foldl crc16Byte 0xFFFF#16

/-- The first `n` 32-bit words of a numeral of `32 * n` bits, its most significant word first. -/
def wordsOf : Nat → Nat → List (BitVec 32)
  | 0, _ => []
  | n + 1, v => BitVec.ofNat 32 (v >>> (32 * n)) :: wordsOf n v

/-- The 64 constants of SHA-256, eight to a numeral. -/
def shaTable : List Nat := [
  0x428a2f9871374491b5c0fbcfe9b5dba53956c25b59f111f1923f82a4ab1c5ed5,
  0xd807aa9812835b01243185be550c7dc372be5d7480deb1fe9bdc06a7c19bf174,
  0xe49b69c1efbe47860fc19dc6240ca1cc2de92c6f4a7484aa5cb0a9dc76f988da,
  0x983e5152a831c66db00327c8bf597fc7c6e00bf3d5a7914706ca635114292967,
  0x27b70a852e1b21384d2c6dfc53380d13650a7354766a0abb81c2c92e92722c85,
  0xa2bfe8a1a81a664bc24b8b70c76c51a3d192e819d6990624f40e3585106aa070,
  0x19a4c1161e376c082748774c34b0bcb5391c0cb34ed8aa4a5b9cca4f682e6ff3,
  0x748f82ee78a5636f84c878148cc7020890befffaa4506cebbef9a3f7c67178f2]

/-- The hash value that SHA-256 starts from. -/
def shaStart : Nat := 0x6a09e667bb67ae853c6ef372a54ff53a510e527f9b05688c1f83d9ab5be0cd19

/-- The exclusive or of a word turned right by each of three counts. -/
def turned (i j k : Nat) (x : BitVec 32) : BitVec 32 := x.rotateRight i ^^^ x.rotateRight j ^^^ x.rotateRight k

/-- The exclusive or of a word turned right by two counts and shifted right by a third. -/
def spread (i j k : Nat) (x : BitVec 32) : BitVec 32 := x.rotateRight i ^^^ x.rotateRight j ^^^ (x >>> k)

/-- The message schedule of a block, newest word first, `n` words beyond those given. -/
def shaSched : Nat → List (BitVec 32) → List (BitVec 32)
  | 0, w => w
  | n + 1, w => shaSched n ((spread 17 19 10 (w.getD 1 0) + w.getD 6 0 + (spread 7 18 3 (w.getD 14 0) + w.getD 15 0)) :: w)

/-- The eight working words after a step whose constant and message word sum to `m`. -/
def shaStep (v : List (BitVec 32)) (m : BitVec 32) : List (BitVec 32) :=
  match v with
  | [a, b, c, d, e, f, g, h] =>
    let up := m + h + turned 6 11 25 e + (g ^^^ (e &&& (f ^^^ g)))
    [up + turned 2 13 22 a + ((a &&& b) ||| (c &&& (a ||| b))), a, b, c, up + d, e, f, g]
  | _ => v

/-- The hash value after a block of 64 bytes. -/
def shaMix (v : List (BitVec 32)) (block : List Byte) : List (BitVec 32) :=
  let w := (shaSched 48 (wordsOf 16 (ofLe block.reverse)).reverse).reverse
  List.zipWith (· + ·) v ((List.zipWith (· + ·) (shaTable.flatMap (wordsOf 8)) w).foldl shaStep v)

/-- A byte string in pieces of 64 bytes, `n` of them. -/
def pieces64 : Nat → List Byte → List (List Byte)
  | 0, _ => []
  | n + 1, bs => bs.take 64 :: pieces64 n (bs.drop 64)

/-- SHA-256 of a byte string (R35, R55; PRESUMED to be the published standard, assumption 99): the string is followed by
a one bit, zeros and its length in bits, so that whole blocks stand, and the hash value after the last block is read
most significant byte first. -/
def sha256 (bs : List Byte) : List Byte :=
  let n := bs.length / 64 + (if bs.length % 64 < 56 then 1 else 2)
  let body := padTo (64 * n - 8) (bs ++ [0x80]) ++ (le 8 (8 * bs.length)).reverse
  ((pieces64 n body).foldl shaMix (wordsOf 8 shaStart)).flatMap fun w => (le 4 w.toNat).reverse

/-- HMAC-SHA-256 under a key of at most 64 bytes (R35). -/
def hmac (key msg : List Byte) : List Byte :=
  let k := padTo 64 key
  sha256 (k.map (· ^^^ 0x5C) ++ sha256 (k.map (· ^^^ 0x36) ++ msg))

/-! ## Free values -/

/-- Take the next free value: the value, and the state with the counter advanced. -/
def takeFree (s : State) : BitVec 64 × State :=
  (Config.freeBits s.freeIx, { s with freeIx := s.freeIx + 1 })

/-! ## Events -/

/-- A digest phase begins (R462): a digest that was not being kept starts with it. -/
def phaseStart (b : BitVec 4) (s : State) : State :=
  { s with
    recd.phases := s.recd.phases ||| b
    recd.digPhases := if s.recd.phases = 0 then b else s.recd.digPhases ||| b
    recd.digStart := if s.recd.phases = 0 then s.time.tns else s.recd.digStart }

/-- A digest phase ends (R465): with the last one the DIGEST event is raised; it carries the phases and the start of
the digest, and its records hold every event raised before it. -/
def phaseEnd (b : BitVec 4) (s : State) : State :=
  let left := s.recd.phases &&& ~~~ b
  let s1 := { s with recd.phases := left }
  if s.recd.phases != 0 && left == 0 then emit 0x0980 (le 1 s.recd.digPhases.toNat ++ le 8 s.recd.digStart) s1 else s1

/-! ## Time -/

/-- The wall-clock time, 0 while it is invalid (R394). -/
def wallOf (s : State) : Nat := match s.time.wallOfs with
  | none => 0
  | some o => (Int.ofNat s.time.tns + o).toNat

/-- The number of nanoseconds since the instant `t`. -/
def since (s : State) (t : Nat) : Nat := s.time.tns - t

/-- One second in nanoseconds. -/
abbrev nsPerSec : Nat := 1000000000

/-- The acquisition mode in force: 0 Standard, 1 Fast, 2 Precise (R30). -/
def acqMode (s : State) : Nat := bits s.sys.modeAct 17 16

/-- The frame period in nanoseconds by acquisition mode (R15). -/
def periodOf (mode : Nat) : Nat := if mode = 1 then 250000 else if mode = 2 then 10000000 else 1000000

/-- The frame period in force. -/
def period (s : State) : Nat := periodOf (acqMode s)

/-- A frame boundary has just been reached. -/
def atBoundary (s : State) : Bool := s.sys.frameOpen && s.time.tns == s.sys.t0

/-! ## Topology -/

/-- The string entry of TOPO for string `i`. -/
def topoStr (s : State) (i : Nat) : Option TopoStr := s.cfg.topo.strings.find? (·.s == i)

/-- String `i` is configured. -/
def configured (s : State) (i : Nat) : Bool := (topoStr s i).isSome

/-- The configured strings, in ascending order. -/
def strings (s : State) : List Nat := (List.range 4).filter (configured s)

/-- The node entry of TOPO at a ring position. -/
def topoNode (s : State) (r p : Nat) : Option TopoNode :=
  s.cfg.topo.nodes.find? fun n => n.ring == r && n.pos == p

/-- The populated inputs of a mask, ascending. -/
def inputs (mask : Nat) : List Nat := (List.range 16).filter fun k => mask.testBit k

/-- The cells of one node entry: global index and input. -/
def nodeCells (n : TopoNode) : List (Nat × Nat) :=
  (inputs n.mask).zipIdx.map fun ki => (n.firstC + ki.2, ki.1)

/-- Every configured cell: its global index, node entry and input. -/
def allCells (s : State) : List (Nat × TopoNode × Nat) :=
  s.cfg.topo.nodes.flatMap fun n => if n.kind = 1 then (nodeCells n).map fun ck => (ck.1, n, ck.2) else []

/-- The node entry and input of cell `c`. -/
def cellNode (s : State) (c : Nat) : Option (TopoNode × Nat) :=
  ((allCells s).find? (·.1 == c)).map (·.2)

/-- Cell `c` is configured. -/
def cellConf (s : State) (c : Nat) : Bool := (cellNode s c).isSome

/-- The string of cell `c`. -/
def cellString (s : State) (c : Nat) : Option Nat := (cellNode s c).map (·.1.string)

/-- The last valid V_PACK of string `i`, 50 mV (R255, R433). -/
def vPackOf (s : State) (i : Nat) : Nat := Tab.get 0 s.acq.vPack i

/-- The cells of string `i`, in series order (R39). -/
def stringCells (s : State) (i : Nat) : List Nat :=
  (List.range s.cfg.topo.nCells).filter fun c => cellString s c == some i

/-- Every configured cell index, ascending. -/
def cells (s : State) : List Nat := (List.range s.cfg.topo.nCells).filter (cellConf s)

/-- CAP_NOM of string `i`, mAh; under Sprout the basis C of R78. -/
def capNom (s : State) (i : Nat) : Nat := match topoStr s i with
  | some t => t.capNom
  | none => 0

/-- Sprout is the running image. -/
def sproutRuns (s : State) : Bool := s.img.active == .sprout

/-! ## Rings and nodes -/

/-- Ring `r`. -/
def ringOf (s : State) (r : Nat) : Ring := Tab.get {} s.ring r

/-- Put ring `r`. -/
def setRing (s : State) (r : Nat) (x : Ring) : State := { s with ring := Tab.set {} s.ring r x }

/-- Change ring `r`. -/
def modRing (s : State) (r : Nat) (f : Ring → Ring) : State := setRing s r (f (ringOf s r))

/-- Node `p` of ring `r`. -/
def nodeOf (s : State) (r p : Nat) : Node := Tab.get {} (ringOf s r).nodes p

/-- Put node `p` of ring `r`. -/
def setNode (s : State) (r p : Nat) (n : Node) : State :=
  modRing s r fun x => { x with nodes := Tab.set {} x.nodes p n }

/-- Change node `p` of ring `r`. -/
def modNode (s : State) (r p : Nat) (f : Node → Node) : State := setNode s r p (f (nodeOf s r p))

/-- The ring positions that hold a node the master has found, ascending. -/
def positions (s : State) (r : Nat) : List Nat := (ringOf s r).nodes.map (·.1)

/-- The positions of the nodes of string `i` on the two rings. -/
def stringNodes (s : State) (i : Nat) : List (Nat × Nat) :=
  (s.cfg.topo.nodes.filter (·.string == i)).map fun n => (n.ring, n.pos)

/-- The string node of string `i`. -/
def stringNode (s : State) (i : Nat) : Option (Nat × Nat) := (topoStr s i).map fun t => (t.snRing, t.snPos)

/-- Queue an addressed exchange for the next gap of ring `r` (R103). -/
def mgmtPush (r : Nat) (m : Mgmt) (s : State) : State := modRing s r fun x => { x with mgmt := x.mgmt ++ [m] }

/-! ## Cell records -/

/-- The acquisition part of cell `c`. -/
def cellAcq (s : State) (c : Nat) : CellAcq := Tab.get {} s.acq.cells c

/-- Change the acquisition part of cell `c`. -/
def modCell (s : State) (c : Nat) (f : CellAcq → CellAcq) : State :=
  { s with acq.cells := Tab.set {} s.acq.cells c (f (cellAcq s c)) }

/-- The estimate of cell `c`. -/
def eCell (s : State) (c : Nat) : ECell := Tab.get {} s.est.cells c

/-- Change the estimate of cell `c`. -/
def modECell (s : State) (c : Nat) (f : ECell → ECell) : State :=
  { s with est.cells := Tab.set {} s.est.cells c (f (eCell s c)) }

/-- The EST registers of string `i`. -/
def eStr (s : State) (i : Nat) : EStr := Tab.get {} s.est.str i

/-- Change the EST registers of string `i`. -/
def modEStr (s : State) (i : Nat) (f : EStr → EStr) : State :=
  { s with est.str := Tab.set {} s.est.str i (f (eStr s i)) }

/-- The kernel's part of cell `c`. -/
def kCell (s : State) (c : Nat) : KCell := Tab.get {} s.krn.cells c

/-- Change the kernel's part of cell `c`. -/
def modKCell (s : State) (c : Nat) (f : KCell → KCell) : State :=
  { s with krn.cells := Tab.set {} s.krn.cells c (f (kCell s c)) }

/-- Winnow's part of cell `c`. -/
def wCell (s : State) (c : Nat) : WCell := Tab.get {} s.win.cells c

/-- Change Winnow's part of cell `c`. -/
def modWCell (s : State) (c : Nat) (f : WCell → WCell) : State :=
  { s with win.cells := Tab.set {} s.win.cells c (f (wCell s c)) }

/-- The Tally part of cell `c`. -/
def tCell (s : State) (c : Nat) : TCell := Tab.get {} s.tally.cells c

/-- Change the Tally part of cell `c`. -/
def modTCell (s : State) (c : Nat) (f : TCell → TCell) : State :=
  { s with tally.cells := Tab.set {} s.tally.cells c (f (tCell s c)) }

/-- Bit `b` of the ACQ_STAT of cell `c` (R635). -/
def acqStat (s : State) (c b : Nat) : Bool := (cellAcq s c).stat.getLsbD b

/-- A word with bit `b` set to `v`. -/
def setBit (w : Word) (b : Nat) (v : Bool) : Word :=
  if v then w ||| BitVec.ofNat 32 (2 ^ b) else w &&& ~~~ BitVec.ofNat 32 (2 ^ b)

/-- A four-bit mask with bit `i` set to `v`. -/
def setBit4 (w : BitVec 4) (i : Nat) (v : Bool) : BitVec 4 :=
  if v then w ||| BitVec.ofNat 4 (2 ^ i) else w &&& ~~~ BitVec.ofNat 4 (2 ^ i)

/-! ## Current channels -/

/-- Current channel `n`. -/
def curCh (s : State) (n : Nat) : CurCh := Tab.get {} s.cur.ch n

/-- Change current channel `n`. -/
def modCh (s : State) (n : Nat) (f : CurCh → CurCh) : State :=
  { s with cur.ch := Tab.set {} s.cur.ch n (f (curCh s n)) }

/-- The current channels of string `i` together. -/
def curStr (s : State) (i : Nat) : CurStr := Tab.get {} s.cur.str i

/-- Change the current channels of string `i` together. -/
def modCurStr (s : State) (i : Nat) (f : CurStr → CurStr) : State :=
  { s with cur.str := Tab.set {} s.cur.str i (f (curStr s i)) }

/-! ## Husk and drivers -/

/-- One copy of Husk: the main copy, or the shadow copy. -/
def copyOf (s : State) (shadow : Bool) : HuskCopy := if shadow then s.husk.shadow else s.husk.main

/-- Put one copy of Husk. -/
def setCopy (s : State) (shadow : Bool) (h : HuskCopy) : State :=
  if shadow then { s with husk.shadow := h } else { s with husk.main := h }

/-- Change both copies of Husk. -/
def modBoth (s : State) (f : HuskCopy → HuskCopy) : State :=
  { s with husk.main := f s.husk.main, husk.shadow := f s.husk.shadow }

/-- Sequencer `q` of a copy. -/
def seqOf (h : HuskCopy) (q : Nat) : SeqSt := Tab.get {} h.seqs q

/-- Put sequencer `q` of a copy. -/
def setSeq (h : HuskCopy) (q : Nat) (x : SeqSt) : HuskCopy := { h with seqs := Tab.set {} h.seqs q x }

/-- The channel commands of string `i` in a copy: bit 0 positive main, 1 negative main, 2 precharge. -/
def actOf (h : HuskCopy) (i : Nat) : BitVec 3 := Tab.get 0 h.act i

/-- Sequencer `q` is BUSY in either copy. -/
def seqBusy (s : State) (q : Nat) : Bool := (seqOf s.husk.main q).busy || (seqOf s.husk.shadow q).busy

/-- Pre-driver channel `j` of string `i` is commanded on in some copy (R642). -/
def chCmd (s : State) (i j : Nat) : Bool :=
  (actOf s.husk.main i).getLsbD j || (actOf s.husk.shadow i).getLsbD j

/-- Pre-driver channel `j` of string `i` is commanded on: in both copies (R203, R246). -/
def chOn (s : State) (i j : Nat) : Bool :=
  (actOf s.husk.main i).getLsbD j && (actOf s.husk.shadow i).getLsbD j

/-- String `i` stands open (R642). -/
def standsOpen (s : State) (i : Nat) : Bool :=
  !(chCmd s i 0 || chCmd s i 1 || chCmd s i 2 ||
    seqBusy s (4 * i) || seqBusy s (4 * i + 1) || seqBusy s (4 * i + 2))

/-- Every string stands open. -/
def allOpen (s : State) : Bool := (List.range 4).all (standsOpen s)

/-- String `i` is closed: both mains commanded on in both copies (source 0xB10 + s, R191). -/
def closed (s : State) (i : Nat) : Bool := chOn s i 0 && chOn s i 1

/-- Pre-driver channel `n` as a register of the DRV window. -/
def drvCh (s : State) (n : Nat) : DrvCh := Tab.get {} s.drv.ch n

/-- Change pre-driver channel `n`. -/
def modDrvCh (s : State) (n : Nat) (f : DrvCh → DrvCh) : State :=
  { s with drv.ch := Tab.set {} s.drv.ch n (f (drvCh s n)) }

/-- The driver state of string `i`. -/
def drvStr (s : State) (i : Nat) : DrvStr := Tab.get {} s.drv.str i

/-- Change the driver state of string `i`. -/
def modDrvStr (s : State) (i : Nat) (f : DrvStr → DrvStr) : State :=
  { s with drv.str := Tab.set {} s.drv.str i (f (drvStr s i)) }

/-- The DRV entry of string `i` in force. -/
def drvCfg (s : State) (i : Nat) : Option DrvCfg := s.cfg.drv.find? (·.s == i)

/-- The trip latch of category `cat` of string `i` in a copy. -/
def latchOf (h : HuskCopy) (cat i : Nat) : Bool :=
  if cat = 0 then h.t0.getLsbD i else if cat = 1 then h.t1.getLsbD i else h.t2.getLsbD i

/-- The trip latch of category `cat` of string `i` is set in either copy (R206). -/
def latched (s : State) (cat i : Nat) : Bool := latchOf s.husk.main cat i || latchOf s.husk.shadow cat i

/-! ## Presence windows -/

/-- A window that ends at the instant named is open (R520, R521). -/
def winOpen (s : State) (w : Option Nat) : Bool := match w with
  | some e => decide (s.time.tns < e)
  | none => false

/-- A presence window is open (R522). -/
def presOpen (s : State) : Bool := winOpen s s.sec.btn || winOpen s s.sec.strap

/-! ## The reserve -/

/-- The next summary of string `i` gives its jump the cause `v` (R304). -/
def jumpMark (i v : Nat) (s : State) : State := { s with est.mark := Tab.set 0 s.est.mark i v }

/-- The next summary of every string gives its jump the cause `v` (R304). -/
def jumpMarks (v : Nat) (s : State) : State := (List.range 4).foldl (fun s i => jumpMark i v s) s

/-- The reserve is released or held: RESERVE_OPEN shows it at once (R303, R311). -/
def reserveSet (v : Bool) (s : State) : State :=
  jumpMarks 4 { s with est.released := v
                       est.status := if v then s.est.status ||| 0x800 else s.est.status &&& ~~~0x800 }

/-- A reserve release ends, with its cause: 1 KEY inactive, 2 RESERVE_HOLD, 3 net charge (R303). -/
def reserveRestore (cause : Nat) (s : State) : State :=
  if s.est.released then emit 0x050A (le 1 cause ++ le 3 0) (reserveSet false s) else s

/-! ## The characterisation run -/

/-- The run ends, aborted with its result (R310). -/
def charStop (result : Nat) (s : State) : State :=
  if s.est.chr.step = 15 then s
  else
    let st := s.est.chr.step
    phaseEnd 8 (emit 0x050C (le 1 st ++ le 1 result ++ le 2 0)
      { s with est.chr := { s.est.chr with step := 15, result := result, req := 0, outAt := none } })

/-- A trip latch or an opening of a configured string aborts a run (R310). -/
def settleChar (s : State) : State :=
  if s.est.chr.step ≠ 15 && (strings s).any fun i => latched s 0 i || latched s 1 i || latched s 2 i || !closed s i
  then charStop 3 s else s

/-! ## The last-gasp ring -/

/-- Counter block `b` of a ledger. -/
def ctrOf (l : LedgBody) (b : Nat) : Ctr := Tab.get {} l.blk b

/-- The ledger deltas of a last-gasp slot (R427, R437): live counters less those of the newest
completed checkpoint. -/
def lgDeltas (s : State) : List (Nat × Nat × Nat × Nat) :=
  (List.range 4).map fun i =>
    let a := ctrOf s.ledg.live i
    let b := ctrOf s.ledg.ckpt i
    (a.disMwh - b.disMwh, a.chgMwh - b.chgMwh, a.disMah - b.disMah, a.chgMah - b.chgMah)

/-- Ask for a last-gasp slot with this record (R426); the SLOT_SEQ is taken when the slot is written. -/
def lgRequest (code : Nat) (payload : List Byte) (s : State) : State :=
  let slot : LgSlot :=
    { seq := 0, ckpt := s.ledg.ckptSeq, deltas := lgDeltas s, code := code, payload := payload
      tns := s.time.tns, wall := s.time.wallOfs.map (Int.ofNat s.time.tns + ·) }
  { s with nv.lgWait := s.nv.lgWait ++ [slot] }

end Sys2Proof.Machine
end

