-- ==== Sys2Proof/Machine/Flags.lean ====
section
/-! DEFINITION. The flags the device derives from its state: service levels (R22 to R32), the S3
conditions (R581), the interrupt pins (R588) and the level pins. -/

namespace Sys2Proof.Machine

/-- The device-wide L0 items run (R22). -/
def l0Runs (s : State) : Bool :=
  let r := s.sys.run
  r.buck && r.bandgap && r.thermP && r.husk && r.drivers && s.husk.nlSrc != .none

/-- The device-wide L1 items run (R22). -/
def l1Runs (s : State) : Bool :=
  let r := s.sys.run
  l0Runs s && r.core && r.timebase && r.thermL && r.margin && r.trust && r.acq

/-- A node brings no data: lost (R118), or new and still to be unwrapped (R119). -/
def nodeOut (n : Node) : Bool := n.lost || n.fresh

/-- A node may stand for its string: it is there as configured, not lost, and has passed
authentication, or is foreign where SEC.FOREIGN lets its string close (R127, R527). -/
def nodeStands (s : State) (t : TopoNode) : Bool :=
  let n := nodeOf s t.ring t.pos
  n.kind == t.kind && !nodeOut n &&
    (n.auth == .passed || n.auth == .foreignOk || (n.auth == .pending && n.failPend))

/-- Ring `r` is enumerated and in service (R22, R112). -/
def ringServes (s : State) (r : Nat) : Bool :=
  let x := ringOf s r
  x.inService && (x.state == .whole || x.state == .wrapped || x.state == .broken2)

/-- The rings that carry nodes of string `i` serve, with all of the string's nodes (R22). -/
def ringsServe (s : State) (i : Nat) : Bool :=
  (s.cfg.topo.nodes.filter (·.string == i)).all fun t => ringServes s t.ring && nodeStands s t

/-- A current channel of string `i` runs (R22, R175). -/
def someChRuns (s : State) (i : Nat) : Bool := (curCh s (2 * i)).run || (curCh s (2 * i + 1)).run

/-- The device is in a power state in which strings may be above L0 (R550, R551). -/
def pwrServes (s : State) : Bool := match s.pwr.state with
  | .run | .waking | .leaving | .shipEntry => true
  | _ => false

/-- Every string is held at L0: cold activation (R60), a copy fault (R208), thermal hold (R415),
TEST_EN (R604), or a power state without acquisition (R550). -/
def heldAtL0 (s : State) : Bool :=
  s.husk.hold || s.husk.copyFault && !(s.husk.mainOk && s.husk.shadowOk) || s.nv.tb.hold ||
    s.pins.testEn || !pwrServes s

/-- G_s of string `i` (R23). -/
def gOf (s : State) (i : Nat) : Bool :=
  configured s i && l1Runs s && ringsServe s i && someChRuns s i && !heldAtL0 s

/-- The L2 set runs (R22). -/
def l2Runs (s : State) : Bool :=
  let r := s.sys.run
  r.steward && r.sram && r.hostLink && r.recorder

/-- Pair `q`. -/
def pairOf (s : State) (q : Nat) : PairSt := Tab.get {} s.pairs.q q

/-- Pair `q` is under debug: no unit (R368, R372). -/
def dbgOut (s : State) (q : Nat) : Bool :=
  s.pairs.dbg.pair == q && (match s.pairs.dbg.state with
    | .running | .halted | .leaving => true
    | _ => false)

/-- Pair `q` is no unit: quarantined or under debug. -/
def pairOut (s : State) (q : Nat) : Bool := (pairOf s q).quar || dbgOut s q

/-- Pair `q` runs split, or is treated as split (R30, R31). -/
def pairSplit (s : State) (q : Nat) : Bool := ((pairOf s q).split || (pairOf s q).unver) && !pairOut s q

/-- Word `b` is at or before word `a`, by serial-number order. -/
def frmLe (b a : Word) : Bool := b == a || serNewer 32 a.toNat b.toNat

/-- A hand-over is scheduled for a boundary at or before FRM `a`. -/
def handBefore (s : State) (a : Word) : Bool := s.pairs.handAt.any fun b => frmLe b a

/-- Pair `q` runs split from the boundary on (R30, R362): while the boundary's own hand-over is still to run, as it will in
Fast mode after the commit of the frame before, the request decides. -/
def splitFrom (s : State) (q : Nat) : Bool :=
  if s.sys.run.kernel && handBefore s s.time.frm then ((pairOf s q).unver || s.sys.modeForce.getLsbD q) && !pairOut s q
  else pairSplit s q

/-- The units of the Fast capacity test (R31): one for each pair that runs paired and two for each that runs split. -/
def fastUnits (s : State) : Nat :=
  if !s.sys.run.kernel then 0
  else ((List.range 16).map fun q => if pairOut s q then 0 else if pairSplit s q then 2 else 1).sum

/-- SYS_MODE_ACT for a request while the present limits hold (R30, R31, R80, R410, R412). -/
def modeActOf (s : State) (m : Word) : Word :=
  let eco := s.therm.throtOn || s.therm.ecoLock
  let slow (v : Nat) := if s.therm.throtOn && decide (v < 2) then 2 else v
  let acq := bits m 17 16
  let acq := if acq = 1 ∧ (eco ∨ (cells s).length > 112 * fastUnits s) then 0 else acq
  let bal := if sproutRuns s && s.sys.chem == 3 then 2 else bits m 27 26
  let split := ((List.range 16).map fun q => if splitFrom s q then 2 ^ q else 0).sum
  BitVec.ofNat 32 (at' 26 bal + at' 24 (if eco then 1 else bits m 25 24) + at' 22 (slow (bits m 23 22)) +
    at' 20 (slow (bits m 21 20)) + at' 16 acq + split)

/-- The modes that the present or first frame runs in: SYS_MODE_ACT once frames run, before that what the request gives. -/
def modeSoon (s : State) : Word := if s.sys.run.acq then s.sys.modeAct else modeActOf s s.sys.modeForce

/-- Some pair is a unit: with none the kernel cluster and the pair checker stop counting as running (R359). -/
def someUnit (s : State) : Bool := (List.range 16).any fun q => !pairOut s q

/-- The L3 set runs (R22): the cluster and the checker have passed their checks and some pair is a unit (R359). -/
def l3Runs (s : State) : Bool := s.sys.run.kernel && s.sys.run.checker && someUnit s

/-- The Granary controller runs with a responding device (R22, R474). -/
def granRuns (s : State) : Bool := s.sys.run.granary && s.recd.gran.state == .running

/-- The L4 set runs (R22). -/
def l4Runs (s : State) : Bool :=
  let r := s.sys.run
  r.winnow && r.tally && r.ledger && r.nv && granRuns s

/-- U, the device-wide level (R23): each level needs the sets of every lower one too. With the device-wide L1 set
incomplete R23 defines no U; the register reads 1, its lowest encoding (R32; DESIGN CHOICE, assumption 62). -/
def upper (s : State) : Nat :=
  if !(l1Runs s && l2Runs s) then 1 else if !l3Runs s then 2 else if !l4Runs s then 3 else 4

/-- SYS_LEVEL.MISSING (R32): the items that block the level above U. -/
def missing (s : State) : Nat :=
  let r := s.sys.run
  match upper s with
  | 1 => b2n (!r.steward) + 2 * b2n (!r.sram) + 4 * b2n (!r.hostLink)
  | 2 => 8 * b2n (!(r.kernel && someUnit s)) + 16 * b2n (!(r.checker && someUnit s))
  | 3 => 32 * b2n (!(r.winnow && r.tally)) + 64 * b2n (!(r.ledger && r.nv)) + 128 * b2n (!granRuns s)
  | _ => 0

/-- The level field of string `i` (R32). -/
def levelOf (s : State) (i : Nat) : Nat :=
  if s.husk.nlSrc == .none then 0xE
  else if !configured s i then 0xF
  else if gOf s i then upper s else 0

/-- The device level (R23): the highest level over the configured strings. -/
def devLevel (s : State) : Nat :=
  if s.husk.nlSrc == .none then 0xE
  else ((strings s).map (levelOf s)).foldl max 0

/-- SYS_LEVEL (R32). -/
def sysLevel (s : State) : Word :=
  BitVec.ofNat 32 (at' 24 (missing s) + at' 20 (upper s) + at' 16 (devLevel s) +
    at' 12 (levelOf s 3) + at' 8 (levelOf s 2) + at' 4 (levelOf s 1) + levelOf s 0)

/-- The rank of a level field: below L0 and "not configured" stand under L0, so that a string which stops being
configured falls (R25 names no direction for it; DESIGN CHOICE, assumption 63). -/
def levelRank (f : Nat) : Nat := if f ≥ 0xE then 0 else f + 1

/-- Field `lo` of SYS_LEVEL fell from `old` to `new`. -/
def levelFell (old new : Word) : Bool :=
  [0, 4, 8, 12, 20].any fun lo => decide (levelRank (bits new (lo + 3) lo) < levelRank (bits old (lo + 3) lo))

/-- Field `lo` of SYS_LEVEL rose from `old` to `new`. -/
def levelRose (old new : Word) : Bool :=
  [0, 4, 8, 12, 20].any fun lo => decide (levelRank (bits old (lo + 3) lo) < levelRank (bits new (lo + 3) lo))

/-- The P-die start-up counter, ns from VSUP valid or the restart instant (R67, R91). -/
def bootNs (s : State) : Nat := s.sys.bootUp + since s s.sys.bootStart

/-- SYS_BOOT is written at a start-up or restart with its CAUSE and the steps that stand done, and the start-up counter
begins (R90, R91). -/
def bootBegin (cause step : Nat) (s : State) : State :=
  { s with
    sys.cause := cause
    sys.step := step
    sys.lateStep := 0
    sys.sectFail := false
    sys.bootStart := s.time.tns
    sys.bootUp := 0 }

/-- SYS_BOOT_TIME counts 10 us units from VSUP valid or the restart instant (R91). -/
def bootTime (s : State) : Nat := sat 16 (bootNs s / 10000)

/-- The SEQ_START bindings of the close sequencers of the strings named see their sources rise again, so that a close
request which still holds is acted on (R60, R87). -/
def rearmClose (is : List Nat) (s : State) : State :=
  let f (h : HuskCopy) : HuskCopy := { h with
    outs := h.outs.filter fun e => match h.net.outs[e.1]? with
      | some o => !(o.func == 6 && is.any fun i => o.arg == 4 * i)
      | none => true }
  { s with husk.main := f s.husk.main, husk.shadow := f s.husk.shadow }

/-- The LEVEL_CHANGE record of a new SYS_LEVEL (R25): one record holds the old and the new value of the register, with
the code of a fall when some level falls, whether or not another rises at the same instant (R25 gives each direction
its code and no rule for both; DESIGN CHOICE, assumption 63). In SLEEP no record is stamped (R552). -/
def levelRecord (new : Word) (s : State) : State :=
  let old := s.sys.level
  let pay := le 4 old.toNat ++ le 4 new.toNat
  if s.pwr.state == .sleep then s
  else if levelFell old new then emit 0x0785 pay s
  else if levelRose old new then emit 0x0786 pay s else s

/-- The new level `new` and the strings `l1` at L1 or above enter the state, with the times of their first (R25, R91). -/
def levelTimes (new : Word) (l1 : List Nat) (s : State) : State :=
  { s with
    sys.level := new
    sys.tL1 := if s.sys.tL1 = 0 && !l1.isEmpty then bootTime s else s.sys.tL1
    sys.tL4 := if s.sys.tL4 = 0 && upper s == 4 then bootTime s else s.sys.tL4
    husk.reachedL1 := l1.foldl (fun m i => setBit4 m i true) s.husk.reachedL1 }

/-- Report the service levels (R25): SYS_LEVEL takes its new value, LEVEL_CHANGE is recorded when a
string level or U changed, and SYS_BOOT_TIME and "has reached L1" take their first times. A KEY close request that
was held when step 4 completed is acted on when its string first reaches L1 (R87). Levels
exist from start-up step 4 on, while the core is powered. -/
def settleLevel (s : State) : State :=
  if !s.img.selected || !s.sys.run.core then s else
  let new := sysLevel s
  let s := levelRecord new s
  let l1 := (List.range 4).filter (gOf s)
  let first := l1.filter fun i => !s.husk.reachedL1.getLsbD i
  levelTimes new l1 (if s.drv.key && s.sys.keyAt4 && !first.isEmpty then rearmClose first s else s)

/-- Some S3 condition is active (R581). -/
def s3Active (s : State) : Bool :=
  s.evt.s3NoNet || s.evt.s3Brk || s.evt.s3Shut || s.evt.s3Ledg || s.nv.tb.hold

/-- FAULT_n is asserted (R26, R414, R544): a configured string at L0 or below, U below L2, an active
S3 condition, or the core unpowered; undriven in OFF and SHIP. -/
def faultPin (s : State) : Bool :=
  match s.pwr.state with
  | .off | .ship => false
  | _ => (s.sys.run.thermP || s.sys.run.drivers) && (!s.sys.run.core || (strings s).any (fun i => !gOf s i) ||
      s.husk.nlSrc == .none || decide (upper s < 2) || s3Active s)

/-- BRKs drives the open command (R238): a T0 latch in either copy, L1 not reached since the last
start-up, string not configured, or the P die holding it (R413, R544, R545, R558). -/
def brkPin (s : State) (i : Nat) : Bool :=
  latched s 0 i || !s.husk.reachedL1.getLsbD i || !configured s i || s.pwr.pfHold || !s.sys.run.drivers

/-- Event source `k` is pending and mapped to pin code `v` (R588). -/
def irqHit (s : State) (v k : Nat) : Bool :=
  s.evt.pend.getLsbD k && decide (s.evt.irqmap.toNat / 4 ^ k % 4 = v)

/-- CAN_STB is high while the CAN FD port does not run (R551); in SLEEP it holds, for the CAN wake of R488. -/
def stbPin (s : State) : Bool := match s.pwr.state with
  | .sleep | .waking => s.pins.canStb
  | _ => !(s.sys.run.hostLink && s.host.can != .off)

/-- The conditions of auto-sleep that hold over time (R557). -/
def idleNow (s : State) : Bool :=
  allOpen s && !s.drv.key && !s.pwr.chg && !presOpen s && (s.pwr.state == .run || s.pwr.state == .standby)

/-- The level pins follow the state (R26, R238, R489, R551, R588), and the time since which auto-sleep's conditions
hold (R557). -/
def settlePins (s : State) : State :=
  { s with
    pins.canStb := stbPin s
    pwr.idleAt := if idleNow s then some (s.pwr.idleAt.getD s.time.tns) else none
    pins.fault := faultPin s
    pins.brk := (List.range 4).foldl (fun m i => setBit4 m i (brkPin s i)) 0
    pins.irq0 := (List.range 128).any (irqHit s 1)
    pins.irq1 := (List.range 128).any (irqHit s 2)
    pins.spiAtn := !((Tab.get {} s.host.ports 2).txq).isEmpty }

/-! ## Status words that gather bits of several strings -/

/-- Four bits, one per string. -/
def mask4 (f : Nat → Bool) : Nat := b2n (f 0) + 2 * b2n (f 1) + 4 * b2n (f 2) + 8 * b2n (f 3)

/-- The DRV state of string `i` (R244). -/
def drvState (s : State) (i : Nat) : Nat :=
  if !configured s i then 0xF
  else if seqBusy s (4 * i + 2) then 7
  else if seqBusy s (4 * i + 1) then 6
  else if seqBusy s (4 * i) then
    let k := max (seqOf s.husk.main (4 * i)).step (seqOf s.husk.shadow (4 * i)).step
    if k = 2 then 3 else if k ≥ 4 then 4 else 2
  else if seqBusy s (4 * i + 3) then 1
  else if closed s i then 5
  else if (seqOf s.husk.main (4 * i)).fault || (seqOf s.husk.shadow (4 * i)).fault then 8
  else 0

end Sys2Proof.Machine
end

