-- ==== Sys2Proof/Machine/Husk.lean ====
section
/-! DEFINITION. The Husk protection fabric (chapter 7) and the contactor sequences (chapter 8): source
values, husk cells, slots, timers, sequencers, trip latches, clear requests, netlist loading, and the
meanings of the Husk commands. -/

namespace Sys2Proof.Machine

/-- The copies that a command's copy mask names: `false` is the main copy. -/
def copyList : Copies → List Bool
  | .main => [false]
  | .shadow => [true]
  | .both => [false, true]

/-- The copy mask of a record: bit 0 main, bit 1 shadow (R211, R222). -/
def maskBits (m : List Bool) : Nat := b2n (m.contains false) + 2 * b2n (m.contains true)

/-! ## Measurements of comparator slots -/

/-- The aggregates of string `i` at the last close (R198). -/
def aggOf (s : State) (i : Nat) : Agg := Tab.get {} s.husk.agg i

/-- The measurement that selector `meas` names (R197); `none` when it is missing. A class 0 slot
reads the value that the aggregate of its direction uses (R198). -/
def measOf (s : State) (meas : Nat) (above : Bool) : Option Int :=
  let i := meas % 0x1000
  match meas / 0x1000 with
  | 0 => if above then (cellAcq s i).aggHi else (cellAcq s i).aggLo
  | 1 => (aggOf s i).vHi
  | 2 => (aggOf s i).vLo
  | 3 => (aggOf s i).tHi
  | 4 => (aggOf s i).tLo
  | 5 => (aggOf s i).iS
  | 6 => (aggOf s i).vPack
  | 7 => (aggOf s i).vLink
  | 8 => (aggOf s i).iso
  | 9 => if s.cur.auxDone then some (Tab.get 0 s.cur.aux i : Nat) else none
  | 10 => (aggOf s i).die
  | _ => none

/-- The counts of a slot after one frame's close (R199); the output itself changes when HUSK_SLOT_ASSERT
or HUSK_SLOT_CLEAR finds the count at QUAL. -/
def slotCount (e : HSlot) (m : Option Int) (x : SlotSt) : SlotSt :=
  match m with
  | none => if e.missTrip then { x with cin := 0, cout := x.cout + 1 } else x
  | some v =>
    let beyond := if e.above then decide (v > e.thr) else decide (v < e.thr)
    let inside := if e.above then decide (v ≤ e.thr - e.hyst) else decide (v ≥ e.thr + e.hyst)
    if !x.out then { x with cout := if beyond then x.cout + 1 else 0 }
    else if inside then { x with cin := x.cin + 1 }
    else { x with cin := 0 }

/-- Every slot of a copy counts the frame (R199). -/
def slotsCount (s : State) (h : HuskCopy) : HuskCopy :=
  let one (t : Tab SlotSt) (ei : HSlot × Nat) : Tab SlotSt :=
    Tab.set {} t ei.2 (slotCount ei.1 (measOf s ei.1.meas ei.1.above) (Tab.get {} t ei.2))
  { h with slots := (h.net.slots.zipIdx).foldl one h.slots }

/-! ## Sources -/

/-- Pre-driver channel `n` is driven: its string is configured and its CH_EN bit is set (R224). -/
def chDriven (s : State) (n : Nat) : Bool :=
  match drvCfg s (n / 3) with
  | some e => configured s (n / 3) && e.chEn.testBit (n % 3)
  | none => false

/-- The latched fault of pre-driver channel `n` (R227). -/
def chFault (s : State) (n : Nat) : Bool := chDriven s n && ((drvCh s n).drive || (drvCh s n).openF)

/-- The value of source index `i` as copy `h` sees it (R191). -/
def srcVal (s : State) (h : HuskCopy) (i : Nat) : Bool :=
  if i < 0x800 then Tab.get false h.cells i
  else if i < 0x900 then (Tab.get {} h.slots (i - 0x800)).out
  else if i < 0x940 then (Tab.get {} h.timers (i - 0x900)).out
  else if i < 0x960 then (seqOf h (i - 0x940)).busy
  else if i < 0x980 then (seqOf h (i - 0x960)).fault
  else if i < 0x990 then
    let c := curCh s ((i - 0x980) / 2)
    if i % 2 = 0 then c.latHi else c.latLo
  else if 0x9C0 ≤ i ∧ i < 0xA00 then (seqOf h (16 + (i - 0x9C0) / 4)).act.getLsbD (i % 4)
  else if 0xA00 ≤ i ∧ i < 0xAE0 then Tab.get false s.husk.alarm (i - 0xA00)
  else if i = 0xAE0 then s.husk.ringAlarm.getLsbD 0
  else if i = 0xAE1 then s.husk.ringAlarm.getLsbD 1
  else if i = 0xB00 then s.drv.key
  else if i = 0xB02 then (Tab.get {} s.drv.hvil 0).fault
  else if i = 0xB03 then (Tab.get {} s.drv.hvil 1).fault
  else if 0xB04 ≤ i ∧ i < 0xB08 then gOf s (i - 0xB04)
  else if 0xB08 ≤ i ∧ i < 0xB0C then (aggOf s (i - 0xB08)).vlimHi
  else if 0xB0C ≤ i ∧ i < 0xB10 then (aggOf s (i - 0xB0C)).vlimLo
  else if 0xB10 ≤ i ∧ i < 0xB14 then closed s (i - 0xB10)
  else if 0xB14 ≤ i ∧ i < 0xB18 then (drvStr s (i - 0xB14)).weld
  else if 0xB18 ≤ i ∧ i < 0xB1C then s.husk.hostOpen.getLsbD (i - 0xB18)
  else if 0xB1C ≤ i ∧ i < 0xB20 then s.husk.closeReq.getLsbD (i - 0xB1C)
  else if 0xB20 ≤ i ∧ i < 0xB2C then chFault s (i - 0xB20)
  else if 0xB30 ≤ i ∧ i < 0xB34 then latchOf h 0 (i - 0xB30) || latchOf h 1 (i - 0xB30)
  else i == 0xFFF

/-- The measurement a record of source `i` carries: that of a slot source, else 0 (R211, R587). -/
def srcMeas (s : State) (i : Nat) : Int :=
  if 0x800 ≤ i ∧ i < 0x900 then
    match s.husk.net.slots[i - 0x800]? with
    | some e => (measOf s e.meas e.above).getD 0
    | none => 0
  else 0

/-! ## Settling of husk cells, timers and bindings -/

/-- The output of a husk cell from its inputs and its own output (R194). -/
def cellOut (e : HCell) (a b c d y : Bool) : Bool :=
  let ix (w : Bool) := b2n a + 2 * b2n b + 4 * b2n c + 8 * b2n w
  if e.mode = 0 then e.tt.getLsbD (ix d)
  else if e.mode = 1 then e.tt.getLsbD (ix y)
  else
    let st := e.tt.getLsbD (ix false)
    let rs := e.tt.getLsbD (ix true)
    if st && !rs then true else if rs && !st then false else y

/-- One pass over the husk cells of a copy. -/
def cellsPass (s : State) (h : HuskCopy) : HuskCopy :=
  (h.net.cells.zipIdx).foldl (fun h ei =>
    let e := ei.1
    let y := cellOut e (srcVal s h e.a) (srcVal s h e.b) (srcVal s h e.c) (srcVal s h e.d)
      (Tab.get false h.cells ei.2)
    { h with cells := Tab.set false h.cells ei.2 y }) h

/-- A timer follows its input (R200). -/
def timerFollow (now : Nat) (e : HTimer) (inp : Bool) (x : TimerSt) : TimerSt :=
  if inp == x.inp then x
  else if e.mode = 0 then { out := false, inp := inp, since := if inp then some now else none }
  else if e.mode = 1 then
    if inp then { out := true, inp := true, since := none } else { x with inp := false, since := some now }
  else if inp && !x.out then { out := true, inp := true, since := some now }
  else { x with inp := inp }

/-- Every timer of a copy follows its input. -/
def timersPass (s : State) (h : HuskCopy) : HuskCopy :=
  (h.net.timers.zipIdx).foldl (fun h ei =>
    let x := timerFollow s.time.tns ei.1 (srcVal s h ei.1.src) (Tab.get {} h.timers ei.2)
    { h with timers := Tab.set {} h.timers ei.2 x }) h

/-- `n` passes over the cells and timers of a copy. -/
def netPasses (s : State) : Nat → HuskCopy → HuskCopy
  | 0, h => h
  | n + 1, h => netPasses s n (timersPass s (cellsPass s h))

/-- The number of passes in which every chain of cells and timers settles, whatever its order in the netlist: one for each
cell and each timer, and one more. -/
def netDepth (h : HuskCopy) : Nat := h.net.cells.length + h.net.timers.length + 1

/-- A cell of a loop that does not come to rest in its passes has no level that the spec states (R194, R196): its level is
free (DESIGN CHOICE, assumption 87). -/
def restless (s : State) (a b : HuskCopy) : HuskCopy :=
  (a.net.cells.zipIdx).foldl (fun h ei =>
    if Tab.get false a.cells ei.2 == Tab.get false b.cells ei.2 then h
    else { h with cells := Tab.set false h.cells ei.2 (Config.huskRestless s.time.tns ei.2) }) b

/-- The cells and timers of a copy settle (R195). -/
def netRest (s : State) (h : HuskCopy) : HuskCopy :=
  let a := netPasses s (netDepth h) h
  restless s a (cellsPass s a)

/-- A binding's level in a copy, kept from one settling to the next (R204). -/
def outsLevel (s : State) (h : HuskCopy) : Tab Bool :=
  (h.net.outs.zipIdx).foldl (fun t oi => Tab.set false t oi.2 (srcVal s h oi.1.src)) []

/-- A binding is of the close kind: it asserts only while both copies assert it (R204). -/
def closeKind (o : HOut) : Bool := o.func == 5 || (o.func == 6 && decide (o.arg < 16) && o.arg % 4 == 0)

/-- The voted level of binding `k` (R204). -/
def voted (o : HOut) (k : Nat) (m s : Tab Bool) : Bool :=
  if closeKind o then Tab.get false m k && Tab.get false s k else Tab.get false m k || Tab.get false s k

/-- The rising edges of voted SEQ_START outputs, gathered by sequencer (R204). -/
def startEdges (outs : List HOut) (oldM oldS newM newS : Tab Bool) : BitVec 32 :=
  (outs.zipIdx).foldl (fun m oi =>
    if oi.1.func = 6 && voted oi.1 oi.2 newM newS && !voted oi.1 oi.2 oldM oldS
    then m ||| BitVec.ofNat 32 (2 ^ oi.1.arg) else m) 0

/-- ADVISE_T3 records its code on each rising edge of its voted level (R204, R211). -/
def adviseEdges (oldM oldS : Tab Bool) (s : State) : State :=
  (s.husk.net.outs.zipIdx).foldl (fun s oi =>
    emitIf (oi.1.func == 4 && voted oi.1 oi.2 s.husk.main.outs s.husk.shadow.outs && !voted oi.1 oi.2 oldM oldS) oi.1.code
      (leI 4 (srcMeas s oi.1.src) ++ le 2 oi.2 ++ le 2 oi.1.src) s) s

/-- One copy settles: cells, timers and binding levels. -/
def settleCopy (s : State) (h : HuskCopy) : HuskCopy :=
  let h1 := netRest s h
  { h1 with outs := outsLevel s h1 }

/-- A start edge waits in a copy. -/
def addReq (e : BitVec 32) (h : HuskCopy) : HuskCopy := { h with startReq := h.startReq ||| e }

/-- The outputs that the copies check against each other (R207), numbered: bindings first, then the 12
pre-driver commands from 0x400 on. -/
def divOutput (h : HuskCopy) (k : Nat) : Bool :=
  if k < 0x400 then Tab.get false h.outs k else (actOf h ((k - 0x400) / 3)).getLsbD ((k - 0x400) % 3)

/-- The copies differ in output `k`. -/
def differs (s : State) (k : Nat) : Bool := divOutput s.husk.main k != divOutput s.husk.shadow k

/-- A divergence whose difference has gone ends (R207). -/
def divEnd (s : State) (d : Div) : Div :=
  if d.till.isNone && !differs s d.out then { d with till := some s.time.tns } else d

/-- Both copies settle after a change of their inputs (R195), and divergences that have ended end (R207). Edges that start a
close during SHIP entry are disregarded (R558). -/
def settleNet (s : State) : State :=
  let m := settleCopy s s.husk.main
  let h := settleCopy s s.husk.shadow
  let e := startEdges s.husk.net.outs s.husk.main.outs s.husk.shadow.outs m.outs h.outs &&&
    (if s.pwr.state == .shipEntry then ~~~ 0x1111#32 else ~~~ 0#32)
  let s1 := { s with husk.main := addReq e m, husk.shadow := addReq e h }
  adviseEdges s.husk.main.outs s.husk.shadow.outs
    { s1 with husk.divs := (s1.husk.divs.map (divEnd s1)).filter fun d => !(d.said && d.till.isSome) }

/-- A host open request stands until the string stands open (R221). -/
def settleHostOpen (s : State) : State :=
  let one (m : BitVec 4) (i : Nat) := if standsOpen s i then setBit4 m i false else m
  { s with husk.hostOpen := (List.range 4).foldl one s.husk.hostOpen }

/-- Channel `n` under its command `on` (R225, R227): the pull-in time counts from the command; commanded off, the channel
leaves economy. Both gates are on while it is commanded on, the high-side gate with ECON_DUTY in economy, and held off
while a DRIVE fault is latched. -/
def drvFollow (s : State) (n : Nat) (on : Bool) (d : DrvCh) : DrvCh :=
  let econ := d.econ && on && !d.drive
  let gates := on && !d.drive
  { d with
    onAt := if on then some (d.onAt.getD s.time.tns) else none
    econ := econ
    lg := gates
    hg := if !gates then 0 else if econ then ((drvCfg s (n / 3)).map (·.econDuty)).getD 0 else 100 }

/-- Pre-driver channel `n` follows its command in both copies (R225). -/
def settleDrvCh (s : State) (n : Nat) : State :=
  let d := drvFollow s n (chOn s (n / 3) (n % 3) && chDriven s n) (drvCh s n)
  if d = drvCh s n then s else modDrvCh s n fun _ => d

/-- Every pre-driver channel follows its command (R225). -/
def settleDrv (s : State) : State := (List.range 12).foldl settleDrvCh s

/-- What a node of string `i` that fails authentication becomes (R48, R127). -/
def foreignAuth (s : State) (i : Nat) : Auth := if s.cfg.sec.foreign.getLsbD i then .foreignOk else .foreignBlock

/-- The node at position `p` of ring `r`, whose periodic challenge failed while its string was closed, is foreign once
the string stands open (R532). -/
def settleNodeAuth (r : Nat) (s : State) (p : Nat) : State :=
  let n := nodeOf s r p
  match n.string with
  | some i => if n.failPend && standsOpen s i
      then modNode s r p fun n => { n with failPend := false, auth := foreignAuth s i } else s
  | none => s

/-- Every node's standing follows its string (R532). -/
def settleAuth (s : State) : State :=
  [0, 1].foldl (fun s r => (positions s r).foldl (settleNodeAuth r) s) s

/-! ## Sequencers -/

/-- A duration unit in ns (R200). -/
def unitNs (u : Nat) : Nat := if u = 0 then 1000 else if u = 1 then 100000 else if u = 2 then 10000000 else 1000000000

/-- Put the channel commands of string `i` in a copy. -/
def setAct (h : HuskCopy) (i : Nat) (a : BitVec 3) : HuskCopy := { h with act := Tab.set 0 h.act i a }

/-- The sequencer that commands string `i` in a copy: 0 close, 1 orderly open, 2 fast open (R230). -/
def cmdrOf (h : HuskCopy) (i : Nat) : Nat := Tab.get 0 h.cmdr i

/-- Sequencer `j` of string `i` changes the channel commands, if it commands the string (R230). -/
def stepAct (h : HuskCopy) (i j : Nat) (f : BitVec 3 → BitVec 3) : HuskCopy :=
  if cmdrOf h i = j then setAct h i (f (actOf h i)) else h

/-- Sequencer `q` of a copy goes to step `k`. -/
def goStep (now : Nat) (h : HuskCopy) (q k : Nat) : HuskCopy :=
  setSeq h q { seqOf h q with busy := true, step := k, since := now, cut := false }

/-- Sequencer `q` of a copy ends. -/
def endSeq (h : HuskCopy) (q : Nat) (fault : Bool) : HuskCopy :=
  setSeq h q { seqOf h q with busy := false, fault := fault }

/-- A user sequencer enters step `k` of its program (R201). -/
def enterUser (now : Nat) (prog : List HStep) (h : HuskCopy) (q k : Nat) : HuskCopy :=
  match prog[k]? with
  | none => h
  | some e =>
    if e.flt then setSeq h q { seqOf h q with busy := false, fault := true, act := 0, step := k }
    else if e.fin then setSeq h q { seqOf h q with busy := false, act := e.act, step := k }
    else setSeq h q { busy := true, fault := false, act := e.act, step := k, since := now, cut := false }

/-- The program of user sequencer `q` in a copy. -/
def userProg (h : HuskCopy) (q : Nat) : List HStep := h.net.useqs.getD (q - 16) []

/-- The close sequencer of string `i` stops in a copy: an abort (R201, R203). Channels keep the commands
in force when another sequencer has taken command (R230). -/
def abortClose (h : HuskCopy) (i : Nat) : HuskCopy :=
  if (seqOf h (4 * i)).busy then setSeq h (4 * i) { seqOf h (4 * i) with busy := false, step := 0 } else h

/-- Nothing of string `i` is commanded on or opening in a copy. -/
def copyOpen (h : HuskCopy) (i : Nat) : Bool :=
  actOf h i == 0 && !(seqOf h (4 * i)).busy && !(seqOf h (4 * i + 1)).busy && !(seqOf h (4 * i + 2)).busy

/-- The fast-open sequencer of string `i` starts in a copy (R203, R232). On a string that stands open it
ends at once (R243); without T0 it turns every channel off at once. -/
def startFast (now i : Nat) (h : HuskCopy) : HuskCopy :=
  if (seqOf h (4 * i + 2)).busy then h
  else if copyOpen h i then endSeq h (4 * i + 2) false
  else
    let h := { abortClose h i with cmdr := Tab.set 0 h.cmdr i 2 }
    if latchOf h 0 i then
      goStep now (setAct (setSeq h (4 * i + 2) { seqOf h (4 * i + 2) with fault := false }) i (actOf h i &&& 3)) (4 * i + 2) 0
    else endSeq (endSeq (setAct h i 0) (4 * i + 1) false) (4 * i + 2) false

/-- The orderly-open sequencer of string `i` starts in a copy (R203, R232): ignored while BUSY or while a
fast open runs; on a string that stands open it ends at once (R243). -/
def startOrderly (now i : Nat) (h : HuskCopy) : HuskCopy :=
  if (seqOf h (4 * i + 1)).busy || (seqOf h (4 * i + 2)).busy then h
  else if copyOpen h i then endSeq h (4 * i + 1) false
  else
    let h := { abortClose h i with cmdr := Tab.set 0 h.cmdr i 1 }
    goStep now (setAct (setSeq h (4 * i + 1) { seqOf h (4 * i + 1) with fault := false }) i (actOf h i &&& 3)) (4 * i + 1) 0

/-- An open that really opens something is followed by a weld check (R234). -/
def noteOpen (i : Nat) (s : State) : State :=
  if standsOpen s i then s else modDrvStr s i fun d => { d with openReal := true }

/-- When an open has ended, the 200 ms before its weld check begin (R234). -/
def noteOpenEnd (i : Nat) (s : State) : State :=
  if standsOpen s i && (drvStr s i).openReal
  then modDrvStr s i fun d => { d with openReal := false, openEnd := some s.time.tns } else s

/-- A SEQ_ABORT binding of sequencer `q` is asserted in either copy (R204). -/
def abortBound (s : State) (q : Nat) : Bool :=
  (s.husk.net.outs.zipIdx).any fun oi =>
    oi.1.func == 7 && oi.1.arg == q && voted oi.1 oi.2 s.husk.main.outs s.husk.shadow.outs

/-- A sequencer aborts in one copy: it stops at once with every ACT bit at 0 (R201); a string sequencer
that commands its string turns the string's channels off. -/
def abortSeq (q : Nat) (c : Bool) (s : State) : State :=
  let h := copyOf s c
  if !(seqOf h q).busy then s
  else
    let h := setSeq h q { seqOf h q with busy := false, act := 0 }
    setCopy s c (if q < 16 ∧ q % 4 < 3 then stepAct h (q / 4) (q % 4) fun _ => 0 else h)

/-- A sequencer that starts while a SEQ_ABORT binding of it stands is aborted at once (R204). -/
def abortStanding (m : List Bool) (q : Nat) (s : State) : State :=
  if abortBound s q then m.foldl (fun s c => abortSeq q c s) s else s

/-- The orderly open of string `i` starts in the copies named. -/
def orderlyOpen (m : List Bool) (i : Nat) (s : State) : State :=
  let s := noteOpen i s
  let f (s : State) (c : Bool) := setCopy s c (startOrderly s.time.tns i (copyOf s c))
  noteOpenEnd i (abortStanding m (4 * i + 1) (m.foldl f s))

/-- The fast open of string `i` starts in the copies named. -/
def fastOpen (m : List Bool) (i : Nat) (s : State) : State :=
  let s := noteOpen i s
  let f (s : State) (c : Bool) := setCopy s c (startFast s.time.tns i (copyOf s c))
  noteOpenEnd i (abortStanding m (4 * i + 2) (m.foldl f s))

/-- An error queue overflow starts the orderly open of every configured string, without grace (R584, R221). -/
def settleOverflow (s : State) : State :=
  if s.evt.ovfOpen then
    { (strings s).foldl (fun s i => orderlyOpen [false, true] i s) s with evt.ovfOpen := false }
  else s

/-- Everything that follows the state at once: node standing, levels, the fabric, the drivers, a characterisation run and
the pins. -/
def settle (s : State) : State :=
  settlePins (settleChar (settleDrv (settleNet (settleOverflow (settleLevel (settleAuth (settleHostOpen s)))))))

/-! ## Trip latches -/

/-- Set the latch of category `cat` of string `i` in a copy. -/
def latchIn (cat i : Nat) (h : HuskCopy) : HuskCopy :=
  if cat = 0 then { h with t0 := setBit4 h.t0 i true }
  else if cat = 1 then { h with t1 := setBit4 h.t1 i true }
  else { h with t2 := setBit4 h.t2 i true }

/-- HUSK_CAUSE of string `i`. -/
def causeOf (s : State) (i : Nat) : Cause := Tab.get {} s.husk.cause i

/-- Count a latching in HUSK_CAUSE (R212, R222). -/
def countCause (i : Nat) (s : State) : State :=
  { s with husk.cause := Tab.set {} s.husk.cause i { causeOf s i with count := sat 8 ((causeOf s i).count + 1) } }

/-- A latch of string `i` is set. -/
def anyLatch (s : State) (i : Nat) : Bool := latched s 0 i || latched s 1 i || latched s 2 i

/-- The limits entry of string `i` in force. -/
def limitOf (s : State) (i : Nat) : HLimit := s.husk.net.limits.getD i {}

/-- HUSK_CAUSEs as a register (R222). -/
def causeWord (c : Cause) : Word :=
  BitVec.ofNat 32 (at' 26 c.cat + at' 24 c.copy + at' 16 c.count + c.src)

/-- The HUSK_TRIP payload (R587). -/
def tripPayload (s : State) (cat i src : Nat) (m : List Bool) : List Byte :=
  leI 4 (srcMeas s src) ++ le 2 src ++ le 1 i ++ le 1 cat ++ le 1 (maskBits m) ++ le 3 0

/-- The T2 grace time of string `i` starts (R211). -/
def startGrace (i : Nat) (s : State) : State :=
  { s with husk.grace := Tab.set none s.husk.grace i (some (s.time.tns + (limitOf s i).grace * 10000000)) }

/-- The grace count of string `i` stops (R212). -/
def stopGrace (i : Nat) (s : State) : State :=
  { s with husk.grace := Tab.set none s.husk.grace i none }

/-- The source that last set the latch of category `cat` of string `i` (R211). -/
def latSrcOf (s : State) (cat i : Nat) : Nat := Tab.get 0 s.husk.latSrc (4 * cat + i)

/-- Note the source of a latch setting. -/
def noteSrc (cat i src : Nat) (s : State) : State :=
  { s with husk.latSrc := Tab.set 0 s.husk.latSrc (4 * cat + i) src }

/-- A copy follows the other in latching category `cat` (R21, R212): its own sequencer acts; a grace time that runs is not
restarted. -/
def tripFollow (m : List Bool) (cat i : Nat) (s : State) : State :=
  if cat ≤ 1 then fastOpen m i s
  else if !latched s 1 i && seqBusy s (4 * i) then orderlyOpen m i s else s

/-- What a latch of category `cat` does in the copies it set (R203, R211, R212, R243). A T2 that meets a
close opens the string without grace; one that meets a T1 latch starts no grace, since the fast open
governs (Assumption 7). -/
def tripAction (m : List Bool) (cat i : Nat) (s : State) : State :=
  if cat ≤ 1 then fastOpen m i (stopGrace i s)
  else if latched s 1 i then s
  else if seqBusy s (4 * i) then orderlyOpen m i s
  else startGrace i s

/-- An assertion of category `cat` that R212 or R243 answers with "cause counted". -/
def tripGoverned (s : State) (cat i : Nat) : Bool :=
  (cat ≥ 1 && latched s 0 i) || (cat == 2 && seqBusy s (4 * i + 1))

/-- A trip of category `cat` reaches the latches of string `i` in the copies `m`, from source `src`
(R206, R211, R212). The first change of the latch from clear to set writes the HUSK_TRIP record and
HUSK_CAUSE or counts in it; a copy that follows the other sets its own latch and its action with no
second record (R21), counted when its source is another; an assertion that finds its latch set is counted. -/
def tripSet (m : List Bool) (cat i src : Nat) (s : State) : State :=
  let fresh := m.filter fun c => !latchOf (copyOf s c) cat i
  let setAll (s : State) := fresh.foldl (fun s c => setCopy s c (latchIn cat i (copyOf s c))) s
  if latched s cat i then
    if fresh.isEmpty then countCause i s
    else tripFollow fresh cat i (setAll (if src = latSrcOf s cat i then s else countCause i s))
  else if tripGoverned s cat i then countCause i s
  else
    let first := !anyLatch s i
    let firstHard := decide (cat ≤ 1) && !(latched s 0 i || latched s 1 i)
    let pay := tripPayload s cat i src m
    let s1 := noteSrc cat i src (setAll s)
    let s2 := if first then
        { s1 with husk.cause := Tab.set {} s1.husk.cause i { cat := cat, copy := maskBits m, count := 1, src := src } }
      else countCause i s1
    let s3 := emit 0x0280 pay s2 i
    let s4 := if firstHard then lgRequest 0x0280 pay s3 else s3
    tripAction m cat i s4

/-- A trip of every configured string by an internal cause (R191). -/
def tripAll (cat src : Nat) (s : State) : State :=
  (strings s).foldl (fun s i => tripSet [false, true] cat i src s) s

/-- The output functions that set a latch of category `cat` (R204). -/
def tripFunc (cat : Nat) : Nat := cat + 1

/-- The condition of a built-in trip of category `cat` of string `i` at source `src` holds (R209). -/
def builtInTrip (s : State) (cat i src : Nat) : Bool :=
  if cat = 0 then
    decide (0x980 ≤ src ∧ src < 0x990) && (src - 0x980) / 4 == i && srcVal s {} src
  else if cat = 1 then
    (src == 0xB08 + i && (aggOf s i).vlimHi) || (src == 0xB0C + i && (aggOf s i).vlimLo) ||
      (src == 0xB04 + i && !gOf s i && closed s i)
  else false

/-- In a copy, a binding of the trip function is asserted from source `src` (R204, R206). -/
def boundTrip (h : HuskCopy) (cat i src : Nat) : Bool :=
  (h.net.outs.zipIdx).any fun oi =>
    oi.1.func == tripFunc cat && oi.1.arg == i && oi.1.src == src && Tab.get false h.outs oi.2

/-- The copies among `m` in which the trip's condition stands. -/
def tripCopies (s : State) (m : List Bool) (cat i src : Nat) : List Bool :=
  m.filter fun c => builtInTrip s cat i src || boundTrip (copyOf s c) cat i src

/-- TRIP_LATCH_SET (R206, R209, R211): a trip condition of string `i` has stood for 2 ns in the copies
named. It acts in the copies in which the condition stands. -/
def execTripLatchSet (m : Copies) (cat i src : Nat) (s : State) : Host.Outcome State Fault Refusal :=
  let cs := if configured s i && decide (cat < 3) && s.husk.nlSrc != .none then tripCopies s (copyList m) cat i src else []
  .next (settle (if cs.isEmpty then s else tripSet cs cat i src s))

/-! ## Slots and timers -/

/-- Slot `k` of one copy asserts once its condition held for its qualification time (R199). -/
def slotAssertIn (k : Nat) (s : State) (c : Bool) : State :=
  let h := copyOf s c
  let x : SlotSt := Tab.get {} h.slots k
  match h.net.slots[k]? with
  | none => s
  | some e => if !x.out && decide (x.cout ≥ e.qual)
      then setCopy s c { h with slots := Tab.set {} h.slots k { x with out := true, cin := 0 } } else s

/-- HUSK_SLOT_ASSERT (R199): slot `k` asserts in the copies in which its count has reached QUAL. -/
def execHuskSlotAssert (m : Copies) (k : Nat) (s : State) : Host.Outcome State Fault Refusal :=
  .next (settle ((copyList m).foldl (slotAssertIn k) s))

/-- Slot `k` of one copy clears once its condition was absent for its qualification time (R199). -/
def slotClearIn (k : Nat) (s : State) (c : Bool) : State :=
  let h := copyOf s c
  let x : SlotSt := Tab.get {} h.slots k
  match h.net.slots[k]? with
  | none => s
  | some e => if x.out && decide (x.cin ≥ e.qual)
      then setCopy s c { h with slots := Tab.set {} h.slots k { x with out := false, cout := 0 } } else s

/-- HUSK_SLOT_CLEAR (R199): slot `k` clears in the copies in which its inside count has reached QUAL. -/
def execHuskSlotClear (m : Copies) (k : Nat) (s : State) : Host.Outcome State Fault Refusal :=
  .next (settle ((copyList m).foldl (slotClearIn k) s))

/-- A timer's duration has elapsed (R200). -/
def timerDue (now : Nat) (e : HTimer) (x : TimerSt) : Bool := match x.since with
  | none => false
  | some t => decide (now ≥ t + e.count * unitNs e.unit)

/-- The state of a timer whose duration has elapsed (R200). -/
def timerExpire (e : HTimer) (x : TimerSt) : TimerSt :=
  if e.mode = 0 then { x with out := x.inp, since := none }
  else if e.mode = 1 then { x with out := x.inp, since := none }
  else { x with out := false, since := none }

/-- Timer `k` of one copy expires when it is due (R200). -/
def timerExpireIn (k : Nat) (s : State) (c : Bool) : State :=
  let h := copyOf s c
  let x : TimerSt := Tab.get {} h.timers k
  match h.net.timers[k]? with
  | none => s
  | some e => if timerDue s.time.tns e x
      then setCopy s c { h with timers := Tab.set {} h.timers k (timerExpire e x) } else s

/-- HUSK_TIMER_EXPIRY (R200): timer `k` of the copies named has run its duration. -/
def execHuskTimerExpiry (m : Copies) (k : Nat) (s : State) : Host.Outcome State Fault Refusal :=
  .next (settle ((copyList m).foldl (timerExpireIn k) s))

/-! ## Starting, waiting, timing out and aborting -/

/-- A start edge of sequencer `q` waits in a copy. -/
def reqOf (h : HuskCopy) (q : Nat) : Bool := h.startReq.getLsbD q

/-- Take the start edge of sequencer `q` in a copy. -/
def dropReq (q : Nat) (h : HuskCopy) : HuskCopy :=
  { h with startReq := h.startReq &&& ~~~ BitVec.ofNat 32 (2 ^ q) }

/-- Close permission of string `i` is given: every CLOSE_PERMIT binding of the string is asserted in both
copies (R204). -/
def closePermit (s : State) (i : Nat) : Bool :=
  (s.husk.net.outs.zipIdx).all fun oi =>
    !(oi.1.func == 5 && oi.1.arg == i) ||
      voted oi.1 oi.2 s.husk.main.outs s.husk.shadow.outs

/-- A close start of string `i` is acted on (R205, R87, R231, R551, R558, R584), once the weld check of this start-up has
been run on it (R88). -/
def closeAllowed (s : State) (i : Nat) : Bool :=
  gOf s i && !anyLatch s i && closePermit s i && (drvStr s i).weldDone && !seqBusy s (4 * i + 3) &&
    !seqBusy s (4 * i + 1) && !seqBusy s (4 * i + 2) && !s.sys.keyRearm && !s.evt.overflow &&
    !s.husk.hold && s.pwr.state == .run

/-- The close sequencer of string `i` starts in a copy (R201, R231): FAULT clears, and step 0 begins. -/
def startClose (now i : Nat) (h : HuskCopy) : HuskCopy :=
  goStep now (setSeq { h with cmdr := Tab.set 0 h.cmdr i 0 } (4 * i) { seqOf h (4 * i) with fault := false }) (4 * i) 0

/-- Step 0 of the close template in a copy (R231): a weld found is a FLT, else the negative main goes on. -/
def closeStep0 (now i : Nat) (weld : Bool) (h : HuskCopy) : HuskCopy :=
  if weld then endSeq (setAct h i 0) (4 * i) true else goStep now (setAct h i 2) (4 * i) 1

/-- The close sequencer of string `i` starts in one copy: the fabric sees FAULT clear before step 0 is decided. -/
def closeStart (i : Nat) (c : Bool) (s : State) : State :=
  if !closeAllowed s i || (seqOf (copyOf s c) (4 * i)).busy then s
  else
    let s1 := settleNet (setCopy s c (startClose s.time.tns i (copyOf s c)))
    setCopy s1 c (closeStep0 s1.time.tns i (drvStr s1 i).weld (copyOf s1 c))

/-- User sequencer `q` starts in one copy (R201). -/
def userStart (q : Nat) (c : Bool) (s : State) : State :=
  let h := copyOf s c
  if (seqOf h q).busy then s
  else setCopy s c (enterUser s.time.tns (userProg h q) (setSeq h q { seqOf h q with fault := false }) q 0)

/-- Sequencer `q` starts in one copy. -/
def startSeq (s : State) (q : Nat) (c : Bool) : State :=
  if q ≥ 16 then abortStanding [c] q (userStart q c s)
  else if q % 4 = 0 then abortStanding [c] q (closeStart (q / 4) c s)
  else if q % 4 = 1 then orderlyOpen [c] (q / 4) s
  else if q % 4 = 2 then fastOpen [c] (q / 4) s
  else s

/-- The start edge of sequencer `q` that waits in a copy is acted on. -/
def startIn (q : Nat) (s : State) (c : Bool) : State :=
  if reqOf (copyOf s c) q then startSeq (setCopy s c (dropReq q (copyOf s c))) q c else s

/-- SEQUENCER_START (R201, R204): a rising edge of a SEQ_START output of sequencer `q` is acted on in the copies named. The
output is voted: that of a close sequencer rises when both copies assert it, any other when either does. -/
def execSequencerStart (m : Copies) (q : Nat) (s : State) : Host.Outcome State Fault Refusal :=
  .next (settle (if q < 32 then (copyList m).foldl (startIn q) s else s))

/-- The monitor signals of string `i` in a copy (R228). -/
def monOf (h : HuskCopy) (i : Nat) : Monitor := Tab.get {} h.mon i

/-- The DRV entry of string `i`, or the Sprout values (R41, R81). -/
def drvOf (s : State) (i : Nat) : DrvCfg := (drvCfg s i).getD { s := i }

/-- The tau code of DRV_PREs (R246): 0.1 ms, 0xFFFF when not measured. -/
def tauCode (t : Option Nat) : Nat := match t with
  | none => 0xFFFF
  | some n => sat 16 (n / 100000)

/-- PRECHARGE_FAIL's tau (R587): 0.1 ms, -1 when not measured. -/
def tauPay (t : Option Nat) : Int := match t with
  | none => -1
  | some n => (n / 100000 : Nat)

/-- The close of string `i` leaves result `r` in DRV_PRE_RES; a precharge, whose measurement is `mon`, also leaves its
values in DRV_PREs (R231, R246). -/
def preResult (i r : Nat) (mon : Option Monitor) (s : State) : State :=
  modDrvStr s i fun d => match mon with
    | none => { d with preRes := r }
    | some m => { d with preRes := r, tau := tauCode m.tau, tDone := match m.tDone with
        | none => 0
        | some n => sat 16 (n / 1000000) }

/-- The close sequencer of string `i` fails in one copy with result `r` (R231): every channel off, FAULT, and the record of
the failure once. `mon` is the measurement of a close with precharge. -/
def closeFail (i r : Nat) (mon : Option Monitor) (c : Bool) (s : State) : State :=
  let said := (seqOf (copyOf s (!c)) (4 * i)).fault
  let s1 := preResult i r mon (setCopy s c (endSeq (setAct (copyOf s c) i 0) (4 * i) true))
  if r = 5 then
    emitIf (!said) 0x0383 (leI 4 (((aggOf s i).vLink.getD 0) - ((aggOf s i).vPack.getD 0)) ++ le 1 i ++ le 3 0) s1 i
  else emitIf (!said) 0x0382 (leI 4 (tauPay (mon.bind (·.tau))) ++ le 1 i ++ le 1 r ++ le 2 0) s1 i

/-- A wait of the close template is met in one copy (R231): PRE_DONE or PRE_BAD in step 2, PAR_OK at a
cut-off in step 3. -/
def closeWait (i : Nat) (c : Bool) (s : State) : State :=
  let h := copyOf s c
  let q := 4 * i
  let x := seqOf h q
  let mon := monOf h i
  let now := s.time.tns
  if x.step = 2 && mon.preBad then
    let long := match mon.tau with
      | some t => decide (t > (drvOf s i).preTau * 100000)
      | none => false
    closeFail i (if long then 4 else 3) (some mon) c s
  else if x.step = 2 && mon.preDone then
    preResult i 1 (some mon) (setCopy s c (goStep now (setAct h i 7) q 4))
  else if x.step = 3 && x.cut && mon.parOk then
    preResult i (if mon.linkLive then 6 else 1) none (setCopy s c (endSeq (setAct h i 3) q false))
  else s

/-- A bound of the close template is reached in one copy (R231). -/
def closeTimeout (i : Nat) (c : Bool) (s : State) : State :=
  let h := copyOf s c
  let q := 4 * i
  let x := seqOf h q
  let e := drvOf s i
  let mon := monOf h i
  let now := s.time.tns
  let past (ms : Nat) := decide (now ≥ x.since + ms * 1000000)
  if x.step = 1 && past e.pullIn then
    if mon.linkLive || !e.chEn.testBit 2 then setCopy s c (goStep now h q 3)
    else
      let m : Monitor := { mon with preAt := some now, v0 := mon.vLast, start := none, tau := none,
                                    tDone := none, preDone := false, preBad := false }
      setCopy s c (goStep now { setAct h i 6 with mon := Tab.set {} h.mon i m } q 2)
  else if x.step = 2 && past e.preTmax then closeFail i 2 (some mon) c s
  else if x.step = 3 && x.cut && !mon.parOk then closeFail i (if mon.linkLive then 5 else 7) none c s
  else if x.step = 4 && past e.preOverlap then setCopy s c (endSeq (setAct h i 3) q false)
  else s

/-- The orderly open of string `i` goes on in one copy (R232): I_ORD, or 2 s; then 20 ms. -/
def orderlyNext (i : Nat) (timeout : Bool) (c : Bool) (s : State) : State :=
  let h := copyOf s c
  let q := 4 * i + 1
  let x := seqOf h q
  let now := s.time.tns
  let past (ms : Nat) := decide (now ≥ x.since + ms * 1000000)
  if x.step = 0 && (if timeout then past 2000 else (monOf h i).iOrd) then
    setCopy s c (goStep now (stepAct h i 1 (· &&& 6)) q 1)
  else if x.step = 1 && timeout && past 20 then
    noteOpenEnd i (setCopy s c (endSeq (stepAct h i 1 fun _ => 0) q false))
  else s

/-- The fast open of string `i` after a T0 turns every channel off in one copy when I_BRK holds (R232). -/
def fastNext (i : Nat) (c : Bool) (s : State) : State :=
  let h := copyOf s c
  if (seqOf h (4 * i + 2)).step = 0 && (monOf h i).iBrk then
    noteOpenEnd i (setCopy s c (endSeq (endSeq (stepAct h i 2 fun _ => 0) (4 * i + 1) false) (4 * i + 2) false))
  else s

/-- A wait or a timeout of a user sequencer in one copy (R201). -/
def userNext (q : Nat) (timeout : Bool) (c : Bool) (s : State) : State :=
  let h := copyOf s c
  let x := seqOf h q
  match (userProg h q)[x.step]? with
  | none => s
  | some e =>
    let met := srcVal s h e.wait != e.waitZero
    let past := decide (s.time.tns ≥ x.since + e.tmo * unitNs e.tunit)
    if timeout then
      if past && !met then setCopy s c (enterUser s.time.tns (userProg h q) h q e.nextTmo) else s
    else if met then setCopy s c (enterUser s.time.tns (userProg h q) h q e.nextOk) else s

/-- The weld check of string `i` goes from step 0 to step 1 in one copy after 50 ms (R234). -/
def weldTimeout (i : Nat) (c : Bool) (s : State) : State :=
  let h := copyOf s c
  let x := seqOf h (4 * i + 3)
  if x.step = 0 && decide (s.time.tns ≥ x.since + 50000000) then setCopy s c (goStep s.time.tns h (4 * i + 3) 1) else s

/-- One sequencer goes on in one copy, by a wait met or by a timeout. -/
def seqNext (q : Nat) (timeout : Bool) (c : Bool) (s : State) : State :=
  if !(seqOf (copyOf s c) q).busy then s
  else if q ≥ 16 then userNext q timeout c s
  else if q % 4 = 0 then (if timeout then closeTimeout (q / 4) c s else closeWait (q / 4) c s)
  else if q % 4 = 1 then orderlyNext (q / 4) timeout c s
  else if q % 4 = 2 then (if timeout then s else fastNext (q / 4) c s)
  else if timeout then weldTimeout (q / 4) c s
  else s

/-- SEQUENCER_WAIT_MET (R201): the WAIT of the step of sequencer `q` is met in the copies named. -/
def execSequencerWaitMet (m : Copies) (q : Nat) (s : State) : Host.Outcome State Fault Refusal :=
  .next (settle ((copyList m).foldl (fun s c => seqNext q false c s) s))

/-- SEQUENCER_TIMEOUT (R201): the timeout of the step of sequencer `q` has elapsed in the copies named. -/
def execSequencerTimeout (m : Copies) (q : Nat) (s : State) : Host.Outcome State Fault Refusal :=
  .next (settle ((copyList m).foldl (fun s c => seqNext q true c s) s))

/-- SEQUENCER_ABORT (R201, R204): sequencer `q` is aborted in the copies named while a SEQ_ABORT binding
of it is asserted. -/
def execSequencerAbort (m : Copies) (q : Nat) (s : State) : Host.Outcome State Fault Refusal :=
  .next (settle (if abortBound s q then noteOpenEnd (q / 4) ((copyList m).foldl (fun s c => abortSeq q c s) s) else s))

/-- GRACE_EXPIRY (R211): the T2 grace time of string `i` has ended, and the orderly open starts. -/
def execGraceExpiry (i : Nat) (s : State) : Host.Outcome State Fault Refusal :=
  .next (settle (match Tab.get none s.husk.grace i with
    | some t => if s.time.tns ≥ t then orderlyOpen [false, true] i (stopGrace i s) else s
    | none => s))

/-! ## Clear requests -/

/-- A comparator of string `i` is latched while its raw output is active (R214). -/
def cmpRawActive (s : State) (i : Nat) : Bool :=
  [2 * i, 2 * i + 1].any fun n => let c := curCh s n; (c.latHi && c.rawHi) || (c.latLo && c.rawLo)

/-- Some comparator of string `i` is latched. -/
def cmpLatched (s : State) (i : Nat) : Bool :=
  [2 * i, 2 * i + 1].any fun n => (curCh s n).latHi || (curCh s n).latLo

/-- Some pre-driver fault of string `i` is latched. -/
def drvLatched (s : State) (i : Nat) : Bool := [3 * i, 3 * i + 1, 3 * i + 2].any (chFault s)

/-- A binding that sets a latch of string `i` is asserted in either copy (R214). -/
def tripBound (s : State) (i : Nat) : Bool :=
  (s.husk.net.outs.zipIdx).any fun oi =>
    decide (1 ≤ oi.1.func ∧ oi.1.func ≤ 3) && oi.1.arg == i && voted oi.1 oi.2 s.husk.main.outs s.husk.shadow.outs

/-- Clear the latched pre-driver faults of string `i`. -/
def clearDrv (i : Nat) (s : State) : State :=
  [3 * i, 3 * i + 1, 3 * i + 2].foldl (fun s n => modDrvCh s n fun d => { d with drive := false, openF := false }) s

/-- Clear the latches of string `i` in a copy. -/
def unlatch (i : Nat) (h : HuskCopy) : HuskCopy :=
  { h with t0 := setBit4 h.t0 i false, t1 := setBit4 h.t1 i false, t2 := setBit4 h.t2 i false }

/-- Every T0 and T1 latch has cleared, which ends BRK_NO_EFFECT (R581). -/
def noHardLatch (s : State) : Bool := (List.range 4).all fun i => !(latched s 0 i || latched s 1 i)

/-- A clear request of string `i` is refused, for the first condition that fails (R214, R587). -/
def clearRefuse (why req i : Nat) (s : State) : State := emit 0x0285 (le 1 why ++ le 1 i ++ le 1 req ++ le 1 0) s

/-- A clear request of string `i` is granted: TRIP_CLEARED holds what HUSK_CAUSEs read (R214, R587). -/
def clearDone (was : Word) (req i : Nat) (s : State) : State :=
  emit 0x0284 (le 4 was.toNat ++ le 1 i ++ le 1 req ++ le 2 0) s

/-- The trip and comparator latches of string `i` clear, and its grace stops (R214). -/
def clearLatches (i : Nat) (s : State) : State :=
  let s1 := [2 * i, 2 * i + 1].foldl (fun s n => modCh s n fun c => { c with latHi := false, latLo := false })
    (modBoth s (unlatch i))
  let s2 := stopGrace i { s1 with husk.cause := Tab.set {} s1.husk.cause i {} }
  if noHardLatch s2 then { s2 with evt.s3Brk := false } else s2

/-- A clear request of string `i` (R214); `req` is 1 for TRIP_CLR and 2 for a KEY re-arm. -/
def clearRequest (req i : Nat) (s : State) : State :=
  if !(anyLatch s i || cmpLatched s i || drvLatched s i) then s
  else
    let on := chCmd s i 0 || chCmd s i 1 || chCmd s i 2
    let raw := cmpRawActive s i
    let was := causeWord (causeOf s i)
    let s1 := if !on && !raw then settleNet (clearDrv i s) else s
    if !(anyLatch s i || cmpLatched s i) then
      if drvLatched s i && !on && !raw then clearDone was req i s1 else clearRefuse 1 req i s1
    else if on then clearRefuse 1 req i s1
    else if tripBound s1 i then clearRefuse 2 req i s1
    else if raw then clearRefuse 3 req i s1
    else clearDone was req i (clearLatches i s1)

/-- KEY_REARM (R214, R84, R87, R90): KEY has been qualified inactive for 1 s and is active again. A clear
request is made for every string, SYS_BOOT.KEY_REARM clears, and a last-gasp slot holds KEY_REARM. -/
def execKeyRearm (s : State) : Host.Outcome State Fault Refusal :=
  .next (settle (match s.drv.keyOffAt with
    | some t =>
      if s.drv.key && decide (s.time.tns ≥ t + nsPerSec) then
        let s1 := { s with sys.keyRearm := false, drv.keyOffAt := none }
        let s2 := lgRequest 0x0389 [] (emit 0x0389 [] s1)
        (List.range 4).foldl (fun s i => clearRequest 2 i s) s2
      else s
    | none => s))

/-! ## Divergence, copy faults, netlist loading -/

/-- A divergence of output `k` is present (R207). -/
def diverges (s : State) (k : Nat) : Bool := s.husk.divs.any fun d => d.out == k && d.till.isNone

/-- HUSK_DIVERGENCE (R207): a difference of output `k` has been held for 2 us, and is counted. -/
def execHuskDivergence (k : Nat) (s : State) : Host.Outcome State Fault Refusal :=
  .next (if differs s k && !diverges s k then
      { s with husk.divs := s.husk.divs ++ [{ out := k, since := s.time.tns - 2000, till := none, said := false }]
               husk.divCnt := sat 16 (s.husk.divCnt + 1) }
    else s)

/-- The kind of an output in HUSK_DIVERGE (R587): 1 open output, 2 close output, 3 pre-driver command. -/
def divKind (s : State) (k : Nat) : Nat :=
  if k ≥ 0x400 then 3 else match s.husk.net.outs[k]? with
    | some o => if closeKind o then 2 else 1
    | none => 1

/-- A netlist loads into both copies (R215): trip latches, comparator latches and HUSK_CAUSE are kept; slots,
timers, user sequencers and LATCH and CEL cells are reset. -/
def loadInto (n : Netlist) (h : HuskCopy) : HuskCopy :=
  { h with
    net := n
    slots := [], timers := [], outs := [], startReq := 0
    cells := (n.cells.zipIdx).foldl (fun t ei => Tab.set false t ei.2 (ei.1.mode != 0 && ei.1.init)) []
    seqs := (List.range 16).foldl (fun t q => Tab.set {} t q (seqOf h q)) [] }

/-- The ROM fallback netlist with these limits entries (R210): the built-in trips alone. -/
def romNetlist (lim : List HLimit) : Netlist := { limits := lim }

/-- The 32 bytes of a limits entry (R216). -/
def limitBytes (l : HLimit) : List Byte :=
  le 1 (b2n l.en) ++ le 1 0 ++ le 2 l.vMin ++ le 2 l.vMax ++ le 2 l.nUv ++ le 2 l.nOv ++ le 2 l.grace ++
    leI 4 l.iHi ++ leI 4 l.iLo ++ le 12 0

/-- The 12 bytes of a slot (R216). -/
def slotBytes (e : HSlot) : List Byte :=
  le 2 e.meas ++ le 1 (b2n (!e.above)) ++ le 1 (b2n e.missTrip) ++ leI 4 e.thr ++ le 2 e.hyst ++ le 1 e.qual ++ le 1 0

/-- The 4 bytes of a timer (R216). -/
def timerBytes (e : HTimer) : List Byte := le 4 (at' 16 e.count + at' 14 e.unit + at' 12 e.mode + e.src)

/-- The 12 bytes of a husk cell (R216). -/
def cellBytes (e : HCell) : List Byte :=
  le 2 e.tt.toNat ++ le 1 (at' 2 (b2n e.init) + e.mode) ++ le 1 0 ++ le 2 e.a ++ le 2 e.b ++ le 2 e.c ++ le 2 e.d

/-- The 8 bytes of a sequencer step (R216). -/
def stepBytes (e : HStep) : List Byte :=
  le 1 e.act.toNat ++ le 1 (at' 4 e.nextTmo + e.nextOk) ++ le 2 (at' 15 (b2n e.waitZero) + e.wait) ++
    le 2 e.tmo ++ le 1 e.tunit ++ le 1 (b2n e.fin + 2 * b2n e.flt)

/-- The 8 bytes of an output binding (R216). -/
def outBytes (e : HOut) : List Byte := le 2 e.src ++ le 1 e.func ++ le 1 e.arg ++ le 2 e.code ++ le 2 0

/-- The HUSK body of a netlist (R216). -/
def huskBody (n : Netlist) : List Byte :=
  le 2 n.cells.length ++ le 2 n.slots.length ++ le 1 n.timers.length ++ le 1 n.useqs.length ++
    le 2 n.outs.length ++ le 24 0 ++
    ((List.range 4).flatMap fun i => limitBytes (n.limits.getD i {})) ++
    n.slots.flatMap slotBytes ++ n.timers.flatMap timerBytes ++ n.cells.flatMap cellBytes ++
    (n.useqs.flatMap fun p => p.flatMap stepBytes) ++ n.outs.flatMap outBytes

/-- Load netlist `n` as the netlist in force into the configuration memory of both copies (R189, R215, R219, R223); the load
completes with NETLIST_LOAD. Both copies pass their CRC comparison again
once HUSK_CRC_CHECK has run; a load outside a copy fault leaves them passing. -/
def loadNet (n : Netlist) (src : NlSrc) (s : State) : State :=
  let n := { n with crc := crc32c (huskBody n) }
  let s1 := { s with husk.net := n, husk.nlSrc := src, husk.loading := true
                     husk.main := loadInto n s.husk.main, husk.shadow := loadInto n s.husk.shadow
                     husk.mainOk := !s.husk.copyFault, husk.shadowOk := !s.husk.copyFault }
  { s1 with husk.main := settleCopy s1 s1.husk.main, husk.shadow := settleCopy s1 s1.husk.shadow }

/-- A copy fault (R208): T1 on every string in both copies, the record, every string held at L0, and both
copies reloaded; a second one within 1 h leaves the ROM fallback until reset. `intact` says that the HUSK
section could be read. -/
def copyFault (cause : Nat) (shadow : Bool) (crc : Word) (intact : Bool) (s : State) : State :=
  let again := match s.husk.faultAt with
    | some t => decide (s.time.tns < t + 3600 * nsPerSec)
    | none => false
  let s1 := tripAll 1 0xF00 s
  let s2 := emit 0x0282 (le 1 cause ++ le 1 (b2n shadow) ++ le 2 0 ++ le 4 crc.toNat) s1
  let s2' := phaseStart 4 s2
  let s3 := { s2' with
    husk.copyFault := true
    husk.mainOk := false
    husk.shadowOk := false
    husk.faultAt := some s.time.tns
    husk.romHeld := s2.husk.romHeld || again }
  if s3.husk.romHeld || !intact || s3.husk.nlSrc == .rom
  then loadNet (romNetlist s3.husk.net.limits) .rom s3
  else loadNet s3.husk.net s3.husk.nlSrc s3

/-- A divergence is to be recorded now: it has ended, or reached 1 s, and is not recorded yet (R207). -/
def divDue (s : State) (d : Div) : Bool := !d.said && (d.till.isSome || decide (s.time.tns ≥ d.since + nsPerSec))

/-- The HUSK_DIVERGE record of a divergence, with its whole duration (R207, R587). -/
def divRecord (s : State) (d : Div) : State :=
  emit 0x0281 (le 4 (d.till.getD s.time.tns - d.since) ++ le 1 (divKind s d.out) ++ le 1 d.out ++
    le 1 (b2n (divOutput s.husk.shadow d.out)) ++ le 1 0) s

/-- HUSK_DIVERGE_RECORD (R207): each divergence that has ended or reached 1 s is recorded once; one still present at 1 s is
a copy fault. -/
def execHuskDivergeRecord (intact : Bool) (s : State) : Host.Outcome State Fault Refusal :=
  let due := s.husk.divs.filter (divDue s)
  let s1 := due.foldl divRecord s
  let s2 := { s1 with husk.divs := (s1.husk.divs.map fun d => { d with said := d.said || divDue s d }).filter (·.till.isNone) }
  .next (settle (match due.find? (·.till.isNone) with
    | none => s2
    | some d => copyFault 3 (divOutput s.husk.shadow d.out) s.husk.net.crc intact s2))

/-- HUSK_CRC_CHECK (R208): each copy recomputes its configuration CRC, `crcM` and `crcS`. `corr` corrected ECC
errors are counted; `uncM` and `uncS` report an uncorrectable error. A failing copy is a copy fault; when
both pass, a copy fault that was being handled ends and levels may rise. -/
def execHuskCrcCheck (crcM crcS : Word) (corr : Nat) (uncM uncS intact : Bool) (s : State) :
    Host.Outcome State Fault Refusal :=
  let s := { s with husk.eccCnt := sat 16 (s.husk.eccCnt + corr) }
  .next (settle (if s.husk.nlSrc == .none then s
    else if uncM then copyFault 1 false crcM intact s
    else if uncS then copyFault 1 true crcS intact s
    else if crcM ≠ s.husk.net.crc then copyFault 2 false crcM intact s
    else if crcS ≠ s.husk.net.crc then copyFault 2 true crcS intact s
    else
      let s1 := { s with husk.mainOk := true, husk.shadowOk := true, husk.copyFault := s.husk.romHeld }
      if s.husk.mainOk && s.husk.shadowOk then s1 else phaseEnd 4 s1))

/-- A changed configuration brings its netlist, unless no netlist could be loaded (R75) or the ROM fallback stays until the
next reset (R208). -/
def netChange (n : Netlist) (s : State) : State :=
  if s.husk.nlSrc == .none || s.husk.romHeld then s else loadNet n .image s


end Sys2Proof.Machine
end

