-- ==== Sys2Proof/Machine/Drv.lean ====
section
/-! DEFINITION. Pre-drivers, the contactor monitor, the weld check, the HVIL loops and the KEY input (chapter 8),
and the meanings of their events. -/

namespace Sys2Proof.Machine

/-! ## Pre-driver channels -/

/-- ECONOMY_ENTRY (R225): channel `n` has been commanded on for PULL_IN and enters economy. -/
def execEconomyEntry (n : Nat) (s : State) : Host.Outcome State Fault Refusal :=
  .next (settle (match (drvCh s n).onAt with
    | some t => if decide (n < 12) && !(drvCh s n).drive && decide (s.time.tns ≥ t + (drvOf s (n / 3)).pullIn * 1000000)
        then modDrvCh s n fun d => { d with econ := true } else s
    | none => s))

/-- DRIVE_FAULT (R227): coil current of 4 A or more (`gate` false), or a gate not at its commanded level
(`gate` true), on driven channel `n`; `coil` is the coil current in mA. The fault latches once and holds both gates off. -/
def execDriveFault (n : Nat) (gate : Bool) (coil : Nat) (s : State) : Host.Outcome State Fault Refusal :=
  .next (settle (if !(decide (n < 12) && chDriven s n) then s
    else
      let s1 := modDrvCh s n fun d => { d with coil := sat 16 coil }
      if (drvCh s n).drive || !(gate || decide (coil ≥ 4000)) then s1
      else emit 0x0380 (leI 4 coil ++ le 1 n ++ le 1 (if gate then 2 else 1) ++ le 2 0)
        (modDrvCh s1 n fun d => { d with drive := true })))

/-- OPEN_COIL_FAULT (R227): three consecutive coil currents of channel `n`, in mA, oldest first. Below 40 mA in
all three on a channel on for 10 ms, the fault latches and the channel keeps its command. -/
def execOpenCoilFault (n c0 c1 c2 : Nat) (s : State) : Host.Outcome State Fault Refusal :=
  .next (settle (if !(decide (n < 12) && chDriven s n) then s
    else
      let s1 := modDrvCh s n fun d => { d with coil := sat 16 c2 }
      let onLong := match (drvCh s n).onAt with
        | some t => decide (s.time.tns ≥ t + 10000000)
        | none => false
      if onLong && decide (c0 < 40 ∧ c1 < 40 ∧ c2 < 40) && !(drvCh s n).openF
      then emit 0x0381 (leI 4 c2 ++ le 1 n ++ le 3 0) (modDrvCh s1 n fun d => { d with openF := true })
      else s1))

/-- FAST_OPEN_TIMEOUT (R232): the fast open of string `i` after a T0 has waited 100 ms for I_BRK.
BRK_NO_EFFECT is recorded, T1 is set on every string, and every channel of the string goes off. -/
def execFastOpenTimeout (i : Nat) (s : State) : Host.Outcome State Fault Refusal :=
  let late (c : Bool) : Bool :=
    let x := seqOf (copyOf s c) (4 * i + 2)
    x.busy && x.step == 0 && !(monOf (copyOf s c) i).iBrk && decide (s.time.tns ≥ x.since + 100000000)
  let cs := [false, true].filter late
  .next (settle (if cs.isEmpty then s
    else
      let s1 := emit 0x0286 (leI 4 (curStr s i).iS ++ le 1 i ++ le 3 0) { s with evt.s3Brk := true }
      let s2 := tripAll 1 0xF01 s1
      let off (s : State) (c : Bool) :=
        let h := copyOf s c
        setCopy s c (endSeq (endSeq (stepAct h i 2 fun _ => 0) (4 * i + 1) false) (4 * i + 2) false)
      noteOpenEnd i (cs.foldl off s2)))

/-! ## The contactor monitor -/

/-- I_BREAK of string `i` (R228), mA times 3: the smaller of I_HI and -I_LO. -/
def iBreak3 (s : State) (i : Nat) : Int := min (limitOf s i).iHi (-(limitOf s i).iLo)

/-- The precharge measurement at a cut-off at `now` (R229), with integers: 2 % is 1/50, 0.3679 is
3679/10000, and the time constant is compared in ns. -/
def preMeasure (e : DrvCfg) (now vl vp : Nat) (m : Monitor) : Monitor :=
  match m.preAt with
  | none => m
  | some t0 =>
    let m1 : Monitor := match m.start with
      | none => if 50 * ((vl : Int) - m.v0) ≥ vp then { m with start := some (now, vl) } else m
      | some (ts, vs) =>
        if m.tau.isNone && decide (10000 * ((vp : Int) - vl) ≤ 3679 * ((vp : Int) - vs))
        then { m with tau := some (now - ts) } else m
    match m1.tau with
    | none => { m1 with preBad := false, preDone := false }
    | some tau =>
      let bad := decide (absI ((tau : Int) - e.preTau * 100000) * 100 > e.preTol * (e.preTau * 100000))
      let done := !bad && decide (vl * 10000 ≥ e.preTarget * vp)
      { m1 with preBad := bad, preDone := done
                tDone := if done && m1.tDone.isNone then some (now - t0) else m1.tDone }

/-- The monitor of string `i` in one copy at a cut-off (R228). With the string node's slot MISSING it keeps its
values. -/
def monUpdate (s : State) (i : Nat) (m : Monitor) : Monitor :=
  match (aggOf s i).vLink, (aggOf s i).vPack with
  | some vl, some vp =>
    let c := capNom s i
    let m := preMeasure (drvOf s i) s.time.tns vl.toNat vp.toNat m
    { m with
      linkLive := decide (2 * vl ≥ vp)
      parOk := decide (50 * (absI (vl - vp) : Int) ≤ vp)
      iOrd := decide (20 * absI (curStr s i).iMean ≤ c) && !(curStr s i).missing
      iBrk := decide (3 * (absI (curStr s i).iS : Int) ≤ iBreak3 s i) && !(curStr s i).missing
      vLast := vl.toNat }
  | _, _ => m

/-- The string node of string `i` has a valid slot in this frame (R99). -/
def stringSlot (s : State) (i : Nat) : Option SlotData := match stringNode s i with
  | none => none
  | some (r, p) =>
    let n := nodeOf s r p
    if n.rxA.isSome || n.rxB.isSome then some n.last else none

/-- The instant from which the weld check of string `i` is evaluated: 50 ms after its start (R234). -/
def weldFrom (s : State) (i : Nat) : Nat :=
  let x := seqOf s.husk.main (4 * i + 3)
  if x.step = 1 then x.since else x.since + 50000000

/-- At a cut-off from 50 ms into the weld check of string `i` on, the first valid slot of its string node is the one to be
evaluated (R234). -/
def weldNote (s : State) (i : Nat) : State :=
  if seqBusy s (4 * i + 3) && decide (s.time.tns ≥ weldFrom s i) && (drvStr s i).weldSlot.isNone
  then modDrvStr s i fun d => { d with weldSlot := stringSlot s i } else s

/-- Both copies evaluate their monitors at a cut-off and note the cut-off in running sequencers (R228, R231, R234). -/
def monitorsClose (s : State) : State :=
  let s1 := modBoth s fun h =>
    let h1 := (strings s).foldl (fun h i => { h with mon := Tab.set {} h.mon i (monUpdate s i (monOf h i)) }) h
    { h1 with seqs := h1.seqs.map fun kx => (kx.1, if kx.2.busy then { kx.2 with cut := true } else kx.2) }
  (strings s).foldl weldNote s1

/-! ## The weld check -/

/-- The weld-check sequencer of string `i` starts in both copies (R234); ignored while BUSY. -/
def startWeld (i : Nat) (s : State) : State :=
  if seqBusy s (4 * i + 3) then s
  else
    modDrvStr (modBoth s fun h => setSeq h (4 * i + 3) { busy := true, fault := false, step := 0, since := s.time.tns }) i
      fun d => { d with weldSlot := none }

/-- WELD_CHECK_START (R88, R234): the weld check of string `i` starts when the string has first reached L1 since
start-up, or 200 ms after an open that switched something. It runs on a string that stands open (Assumption 8). -/
def execWeldCheckStart (i : Nat) (s : State) : Host.Outcome State Fault Refusal :=
  let d := drvStr s i
  let first := s.husk.reachedL1.getLsbD i && !d.weldDone
  let after := match d.openEnd with
    | some t => decide (s.time.tns ≥ t + 200000000)
    | none => false
  .next (settle (if configured s i && standsOpen s i && (first || after)
    then startWeld i (modDrvStr s i fun d => { d with weldDone := true, openEnd := none })
    else s))

/-- The channels of string `i` found welded by a slot (R235): the AUX bits, and with the voltage checks the
positive and negative sides. -/
def weldFind (e : DrvCfg) (volt : Bool) (x : SlotData) : Nat :=
  let aux := x.aux.getD 0 % 8
  let pos := volt && decide (absI x.vPos * 50 < e.weldDv * 100)
  let neg := volt && decide (absI x.vNeg * 50 < e.weldDv * 100)
  let named := aux.testBit 0 || aux.testBit 2
  ((BitVec.ofNat 3 aux) ||| (if pos && !named then 5#3 else 0#3) ||| (if neg then 2#3 else 0#3)).toNat

/-- The checks that found a weld (R587): bit 0 auxiliary, bit 1 positive voltage, bit 2 negative voltage; the
record names the checks applied. -/
def weldChecks (volt : Bool) : Nat := if volt then 7 else 1

/-- The weld-check sequencer of string `i` ends in both copies. -/
def endWeld (i : Nat) (s : State) : State := modBoth s fun h => endSeq h (4 * i + 3) false

/-- The check ends unchecked (R235): the weld source keeps its value. -/
def weldUnchecked (i : Nat) (s : State) : State :=
  emit 0x0386 (le 1 i ++ le 3 0) (modDrvStr s i fun d => { d with unchk := true }) i

/-- The weld check is evaluated on a slot (R235). -/
def weldJudge (i : Nat) (x : SlotData) (s : State) : State :=
  let volt := !((strings s).any fun k => k != i && closed s k)
  let found := weldFind (drvOf s i) volt x
  if found ≠ 0 then
    emit 0x0384 (le 4 (found * 8 ^ i) ++ le 1 i ++ le 1 (weldChecks volt) ++ le 2 0)
      (modDrvStr s i fun d => { d with weld := true, unchk := false }) i
  else if volt then
    emitIf (drvStr s i).weld 0x0385 (le 1 i ++ le 3 0)
      (modDrvStr s i fun d => { d with weld := false, unchk := false }) i
  else weldUnchecked i s

/-- WELD_CHECK_EVALUATE (R234, R235): the weld check of string `i` is evaluated on the string node's slot of the first
cut-off after its 50 ms at which it was valid, or ends unchecked after 100 ms more without one. -/
def execWeldCheckEvaluate (i : Nat) (s : State) : Host.Outcome State Fault Refusal :=
  .next (settle (if !seqBusy s (4 * i + 3) then s
    else match (drvStr s i).weldSlot with
      | some d => weldJudge i d (endWeld i s)
      | none => if s.time.tns ≥ weldFrom s i + 100000000 then weldUnchecked i (endWeld i s) else s))

/-! ## HVIL loops and KEY -/

/-- The number of changes between neighbours of a list of samples. -/
def changes : List Bool → Nat
  | a :: b :: t => (if a != b then 1 else 0) + changes (b :: t)
  | _ => 0

/-- Loop `n` of HVIL. -/
def hvilOf (s : State) (n : Nat) : Hvil := Tab.get {} s.drv.hvil n

/-- Put loop `n` of HVIL. -/
def setHvil (s : State) (n : Nat) (x : Hvil) : State := { s with drv.hvil := Tab.set {} s.drv.hvil n x }

/-- A loop assesses one sample, a return current in 10 uA (R240). -/
def hvilNext (v : Nat) (x : Hvil) : Hvil :=
  let good := decide (700 ≤ v ∧ v ≤ 1300)
  let win := (good :: x.win).take 20
  let ch := decide (changes win > 2)
  let o := if !good || ch then x.openRun + 1 else 0
  let g := if !good || ch then 0 else x.goodRun + 1
  { fault := (x.fault || decide (o ≥ 11)) && decide (g < 100)
    chatter := ch, iRet := v % 4096, win := win, openRun := o, goodRun := g }

/-- A sample of loop `n` (R240): a fault that sets is recorded. -/
def hvilSample (n : Nat) (s : State) (v : Nat) : State :=
  let x := hvilNext v (hvilOf s n)
  emitIf (x.fault && !(hvilOf s n).fault) 0x0387 (leI 4 v ++ le 1 n ++ le 1 (b2n x.chatter) ++ le 2 0) (setHvil s n x)

/-- HVIL_FAULT (R240): samples of loop `n`, 1 ms apart, oldest first, of which one completes an open run of 11. Each is
assessed in turn. -/
def execHvilFault (n : Nat) (samples : List Nat) (s : State) : Host.Outcome State Fault Refusal :=
  .next (settle (if n < 2 then samples.foldl (hvilSample n) s else s))

/-- HVIL_FAULT_CLEAR (R240): samples of loop `n`, 1 ms apart, oldest first, of which one completes a good run of 100. Each
is assessed in turn. -/
def execHvilFaultClear (n : Nat) (samples : List Nat) (s : State) : Host.Outcome State Fault Refusal :=
  .next (if n < 2 then settle (samples.foldl (hvilSample n) s) else settle s)

/-- The qualified KEY takes value `v` at the instant `t` (R214, R241, R303). -/
def keyTake (v : Bool) (t : Nat) (s : State) : State :=
  if v then
    { s with
      drv.key := true
      drv.keyOffAt := match s.drv.keyOffAt with
        | some t0 => if t ≥ t0 + nsPerSec then some t0 else none
        | none => none }
  else reserveRestore 1 { s with drv.key := false, drv.keyOffAt := some t }

/-- The window and chatter time of KEY take a sample (R241). -/
def keyNote (v : Bool) (s : State) : State :=
  let win := (v :: s.drv.keyWin).take 20
  let ch := decide (changes win > 2)
  { s with drv.keyWin := win, drv.chatter := ch, drv.chatTime := if ch then s.drv.chatTime + 1 else 0 }

/-- After a sample, KEY does not chatter and its last three samples read `v`, which is not its qualified value (R241). -/
def keyQualifies (v : Bool) (s : State) : Bool :=
  !s.drv.chatter && decide (s.drv.keyWin.length ≥ 3) && (s.drv.keyWin.take 3).all (· == v) && v != s.drv.key

end Sys2Proof.Machine
end

