-- ==== Sys2Proof/Machine/Nv.lean ====
section
/-! DEFINITION. The NV store (chapter 15): object banks, the write queue, the time block and the last-gasp ring,
and the meanings of their events. -/

namespace Sys2Proof.Machine

/-! ## Objects -/

/-- NV object `oid`. -/
def nvObj (s : State) (oid : Nat) : NvObj := Tab.get {} s.nv.objs oid

/-- Put NV object `oid`. -/
def setNvObj (s : State) (oid : Nat) (o : NvObj) : State := { s with nv.objs := Tab.set {} s.nv.objs oid o }

/-- The bank that a read of an object returns (R421): none, bank A (`false`) or bank B (`true`). -/
def nvPick (o : NvObj) : Option Bool :=
  match o.a.body.isSome, o.b.body.isSome with
  | false, false => none
  | true, false => some false
  | false, true => some true
  | true, true => some (serNewer 32 o.b.seq o.a.seq)

/-- The bank returned by a read of an object (R421). -/
def nvBank (o : NvObj) : Option NvBank := (nvPick o).map fun b => if b then o.b else o.a

/-- The content of object `oid` (R421). -/
def nvRead (s : State) (oid : Nat) : Option NvBody := (nvBank (nvObj s oid)).bind (·.body)

/-- The bank that a write of an object goes to (R422): B (`true`) or A (`false`). -/
def nvTarget (o : NvObj) : Bool :=
  match nvPick o with
  | none => false
  | some b => !b

/-- A bank is found unreadable (R421): it is invalid from then on, and NV_BANK_BAD is recorded. -/
def nvBankBad (oid : Nat) (bankB : Bool) (s : State) : State :=
  let o := nvObj s oid
  let o1 := if bankB then { o with b.body := none } else { o with a.body := none }
  emit 0x0880 (le 2 oid ++ le 1 (b2n bankB) ++ le 1 0)
    (setNvObj { s with nv.uncorr := sat 16 (s.nv.uncorr + 1) } oid o1)

/-- The body length of an object, in bytes (R419). -/
def nvLen (oid : Nat) : Nat :=
  if oid = 2 then 8192 else if oid = 4 then 128 else if oid = 5 then 904 else if oid = 6 then 98304
  else if oid = 7 then 245760 else if oid = 8 then 12272 else if oid ≥ 0x100 then 1152 else 64

/-- The 256-byte bursts of an object's body (R422). -/
def nvBursts (oid : Nat) : Nat := (nvLen oid + 255) / 256

/-- The priority of an object's write, 1 the highest (R423). -/
def nvPrio (oid : Nat) : Nat :=
  if oid = 2 then 1 else if oid = 6 then 3 else if oid = 7 then 5 else if oid ≥ 0x100 then 4 else 2

/-! ## The bytes of a bank -/

/-- The 40 bytes of a counter block (R436). -/
def ctrBytes (x : Ctr) : List Byte := le 8 x.disMwh ++ le 8 x.chgMwh ++ le 8 x.disMah ++ le 8 x.chgMah ++ le 8 x.efc

/-- The 128 bytes of a string's pod state (R436). -/
def podBytes (p : Pod) : List Byte :=
  padTo 72 p.cur ++ le 4 p.prevSeq ++ padTo 32 p.prevDig ++ le 8 p.thru ++ le 12 0

/-- The 8 bytes of a string's sub-unit remainders (R436). -/
def ledgRemBytes (i : Nat) (r : LedgRem) : List Byte := padTo 8 (Config.nvLayout 2 [i, r.disE, r.chgE, r.disQ, r.chgQ, r.efc])

/-- The LEDGER body (R436). -/
def ledgerBytes (b : LedgBody) : List Byte :=
  le 1 b.era ++ le 1 (b2n b.era2Valid) ++ le 2 0 ++ le 4 b.epoch ++ le 4 b.stmtSeq ++ le 4 b.adoptCount ++
    ((List.range 5).flatMap fun i => ctrBytes (Tab.get {} b.blk i)) ++
    (if b.era2Valid then ctrBytes b.era2 else le 40 0) ++ le 8 b.gapNs ++
    ((List.range 4).flatMap fun i => ledgRemBytes i (Tab.get {} b.rem i)) ++ le 8 0 ++ padTo 32 b.adoptDig ++
    ((List.range 4).flatMap fun i => podBytes (Tab.get {} b.pods i)) ++
    ((List.range 8).flatMap fun a => padTo 32 (b.adopts.getD a [])) ++ le 7088 0

/-- The 64 bytes of a per-cell record (R430). -/
def cellRecBytes (r : CellRec) : List Byte :=
  le 8 r.uid.toNat ++ le 1 r.k ++ le 1 (at' 1 (b2n r.rsBaseOk) + b2n r.persistOk) ++ le 2 0 ++ le 4 r.progId ++
    padTo 32 (r.persist.flatMap fun w => le 4 w.toNat) ++ le 4 r.rsBase.toNat ++ le 4 r.balSec ++ le 4 r.capChar ++ le 4 0

/-- The 12 bytes of an impedance table entry (R322, R339). -/
def zEntryBytes (e : ZEntry) : List Byte :=
  le 2 e.rs.toNat ++ le 2 e.ra.toNat ++ le 2 e.ta.toNat ++ le 2 e.rb.toNat ++ le 2 e.tb.toNat ++ le 2 e.conf

/-- The bytes of an object's body (R419, R429, R430, R432, R436, R339). -/
def bodyBytes : NvBody → List Byte
  | .device seqRes lgDone pinMib autoSleep lastSnid =>
    le 8 seqRes ++ le 4 lgDone ++ le 2 pinMib ++ le 1 autoSleep ++ le 1 0 ++ le 2 lastSnid ++ le 46 0
  | .limitSave xs => padTo 64 (Config.nvLayout 3 (xs.flatMap fun x => [x.1, x.2.1, x.2.2]))
  | .curCal chs => padTo 128 (Config.nvLayout 4 (chs.flatMap fun c => [b2n c.1, b2n c.2.1, c.2.2.1, c.2.2.2]))
  | .ringMap us => padTo 904 (Config.nvLayout 5 (us.flatMap fun r => Int.ofNat r.length :: r.map fun u => Int.ofNat u.toNat))
  | .ledger b => ledgerBytes b
  | .cellRec recs => (List.range 1536).flatMap fun c => cellRecBytes (Tab.get {} recs c)
  | .tally t => (List.range 1536).flatMap fun c => (List.range 40).flatMap fun b => le 4 ((Tab.get [] t c).getD b 0)
  | .ztab es => (List.range 96).flatMap fun k => zEntryBytes (Tab.get {} es k)
  | .patch bs => bs

/-- Header and body of a valid bank as MRAM holds them (R420): the CRC-32C covers header bytes 0 to 11 and the body. -/
def bankBytes (oid seq : Nat) (body : NvBody) : List Byte :=
  let bs := bodyBytes body
  let h := le 2 oid ++ le 1 1 ++ le 1 0 ++ le 4 seq ++ le 4 bs.length
  h ++ le 4 (crc32c (h ++ bs)).toNat ++ bs

/-- The 48 bytes of a copy of the time block (R424). -/
def tbBytes (t : TimeBlk) : List Byte :=
  let b := le 4 t.seq ++ le 8 t.tnsSave ++ ((List.range 3).flatMap fun i => le 8 (t.shut.getD i 0)) ++ le 2 t.shutCnt ++
    le 1 (b2n t.hold) ++ le 1 0 ++ le 4 t.seqResHi
  b ++ le 4 (crc32c b).toNat

/-! ## What a write captures -/

/-- The entries of the impedance table of cell `c`. -/
def ztabOf (s : State) (c : Nat) : Tab ZEntry :=
  (s.win.z.filter fun e => decide (96 * c ≤ e.1 ∧ e.1 < 96 * c + 96)).map fun e => (e.1 - 96 * c, e.2)

/-- The cell group of cell `c` (R42), none for 0xFF. -/
def groupOf (s : State) (c : Nat) : Option Nat := match s.cfg.gmap[c]? with
  | some g => if g < 8 then some g else none
  | none => none

/-- The program of cell `c`. -/
def progOf (s : State) (c : Nat) : Option Prog := (groupOf s c).bind fun g => s.cfg.prog[g]?

/-- The node UID of cell `c`. -/
def cellUid (s : State) (c : Nat) : BitVec 64 := match cellNode s c with
  | some (t, _) => (nodeOf s t.ring t.pos).uid
  | none => 0

/-- The record of cell `c` as CELL_REC takes it now (R431): a cell that ran no step since the last write keeps its
record as it stands. -/
def recNow (s : State) (c : Nat) : CellRec :=
  let r : CellRec := Tab.get {} s.nv.recs c
  let k := match cellNode s c with
    | some (_, k) => k
    | none => 0
  match progOf s c with
  | some p => if (kCell s c).recStep then
      { r with
        uid := cellUid s c
        k := k
        balSec := (cellAcq s c).balSec
        persistOk := !p.persist.isEmpty
        progId := p.id
        persist := p.persist.map fun w => Tab.get 0 (kCell s c).w w } else r
  | none => r

/-- CELL_REC as it would be written now (R430, R431). -/
def recsNow (s : State) : Tab CellRec :=
  (cells s).foldl (fun t c => Tab.set {} t c (recNow s c)) s.nv.recs

/-- The content that a write of object `oid` carries (R429, R430, R432, R436, R78, R168, R114, R339). -/
def nvCapture (s : State) (oid : Nat) : Option NvBody :=
  if oid = 1 then some (.device s.recd.seqRes s.recd.lgDone s.recd.pinCfg s.pwr.autoSleep s.host.lastSnid)
  else if oid = 2 then some (.ledger (s.ledg.capture.getD s.ledg.live))
  else if oid = 3 then
    some (.limitSave ((List.range 4).map fun i =>
      let l := s.cfg.est.lim.getD i {}
      (capNom s i, l.iChg, l.iDis)))
  else if oid = 4 then
    some (.curCal ((List.range 8).map fun n => ((curCh s n).inv, (curCh s n).en, (curCh s n).fs, (curCh s n).ofs)))
  else if oid = 5 then
    let old := match nvRead s 5 with
      | some (.ringMap m) => m
      | _ => []
    some (.ringMap ((List.range 2).map fun r =>
      if (ringOf s r).mapUid.isEmpty then old.getD r [] else (ringOf s r).mapUid))
  else if oid = 6 then some (.cellRec (recsNow s))
  else if oid = 7 then
    some (.tally ((cells s).foldl (fun t c =>
      Tab.set [] t c ((List.range 40).map fun b => Tab.get 0 (tCell s c).life b)) []))
  else if 0x100 ≤ oid ∧ oid < 0x700 then some (.ztab (ztabOf s (oid - 0x100)))
  else none

/-! ## The write queue -/

/-- The object manager can start a write (R413, R423). -/
def nvOn (s : State) : Bool := s.sys.run.nv && !s.nv.refuse

/-- Put an object's DIRTY bit. -/
def nvDirty (oid : Nat) (v : Bool) (s : State) : State := setNvObj s oid { nvObj s oid with dirty := v }

/-- What capturing an object does beside the copy: CELL_REC takes the new records (R431), and a written
impedance table is no longer waiting (R339). -/
def nvTaken (oid : Nat) (s : State) : State :=
  if oid = 6 then
    let recs := recsNow s
    { s with nv.recs := recs
             krn.cells := s.krn.cells.map fun ck => (ck.1, { ck.2 with recStep := false }) }
  else if 0x100 ≤ oid ∧ oid < 0x700 then modWCell s (oid - 0x100) fun w => { w with dirtyAt := none }
  else s

/-- The first queued write starts if none is in progress (R422): the target bank's header is overwritten and
the content is captured. -/
def nvStart (s : State) : State :=
  match s.nv.queue with
  | [] => s
  | j :: rest =>
    if j.body.isSome || !nvOn s then s
    else
      let o := nvObj s j.oid
      let o1 := if nvTarget o then { o with b.body := none } else { o with a.body := none }
      let s1 := setNvObj s j.oid { o1 with dirty := false }
      nvTaken j.oid { s1 with
        nv.queue := { j with body := nvCapture s j.oid, bursts := nvBursts j.oid } :: rest }

/-- Insert a write behind those of its own or a higher priority. -/
def nvInsert (j : NvJob) : List NvJob → List NvJob
  | [] => [j]
  | k :: ks => if nvPrio j.oid < nvPrio k.oid then j :: k :: ks else k :: nvInsert j ks

/-- Queue a write of object `oid` (R423): a write of the object that is queued stands for it; one in progress
is followed by one further write. -/
def nvQueue (oid : Nat) (s0 : State) : State :=
  let s := nvDirty oid true s0
  if s.nv.queue.any (·.oid == oid) then
    { s with nv.queue := s.nv.queue.map fun j =>
        if j.oid == oid && j.body.isSome then { j with again := true } else j }
  else
    let j : NvJob := { oid := oid }
    let q := match s.nv.queue with
      | k :: ks => if k.body.isSome then k :: nvInsert j ks else nvInsert j (k :: ks)
      | [] => [j]
    nvStart { s with nv.queue := q }

/-- At a burst boundary a write of higher priority goes first (R423). -/
def nvYield (s : State) : State :=
  match s.nv.queue with
  | j :: k :: ks => if nvPrio k.oid < nvPrio j.oid then { s with nv.queue := nvInsert j (k :: ks) } else s
  | _ => s

/-- NV_BURST_DONE (R422, R423): the burst in progress completes, with `corr` corrected ECC errors fixed in
place, and the next burst by priority starts. -/
def execNvBurstDone (corr : Nat) (s : State) : Host.Outcome State Fault Refusal :=
  .next (settle (match s.nv.queue with
    | j :: rest =>
      if j.body.isSome && decide (j.bursts > 0) then
        nvStart (nvYield { s with nv.queue := { j with bursts := j.bursts - 1 } :: rest
                                  nv.corr := sat 16 (s.nv.corr + corr) })
      else s
    | [] => s))

/-- What a completed write does for its owner: a ledger checkpoint completes (R437), and a raised SEQ_RES is
durable in DEVICE (R467). -/
def nvWritten (oid seq : Nat) (body : Option NvBody) (s : State) : State :=
  match body with
  | some (.ledger b) =>
    { s with ledg.ckpt := b, ledg.ckptSeq := seq
             ledg.capture := if s.ledg.capture = some b then none else s.ledg.capture }
  | some (.device r _ _ _ _) => if oid = 1 && r == s.recd.seqRes then { s with recd.resDev := false } else s
  | _ => s

/-- The SEQ that a write gives its bank (R422). -/
def nvNextSeq (o : NvObj) : Nat := match nvBank o with
  | some b => (b.seq + 1) % 4294967296
  | none => 1

/-- NV_WRITE_DONE (R422): the body of the first write has been written and its header follows; the bank is
valid, and the next write starts. -/
def execNvWriteDone (s : State) : Host.Outcome State Fault Refusal :=
  .next (settle (match s.nv.queue with
    | j :: rest =>
      if j.body.isSome && j.bursts == 0 then
        let o := nvObj s j.oid
        let bank : NvBank := { seq := nvNextSeq o, body := j.body }
        let o1 := if nvTarget o then { o with b := bank } else { o with a := bank }
        let s1 := setNvObj { s with nv.queue := rest } j.oid o1
        let s2 := nvWritten j.oid bank.seq j.body s1
        if j.again then nvQueue j.oid s2 else nvStart s2
      else s
    | [] => s))

/-- A write does not come about: its object has changed and waits to be written (R447). -/
def nvAgain (oid : Nat) (s : State) : State :=
  let s1 := nvDirty oid true s
  if 0x100 ≤ oid then
    modWCell s1 (oid - 0x100) fun w => { w with dirtyAt := if w.dirtyAt.isNone then some s.time.tns else w.dirtyAt }
  else s1

/-- Every queued write is abandoned, the one in progress with its target bank invalid (R413, R423). -/
def nvAbandon (s : State) : State :=
  s.nv.queue.foldl (fun s j => nvAgain j.oid s) { s with nv.queue := [], ledg.capture := none }

/-- The ledger holds its counters (R438): it has started, whether or not it counts. -/
def ledgHeld (s : State) : Bool := s.sys.run.ledger || s.sys.run.nv

/-- The content of object `oid` has changed since its last write (R446, R447). -/
def nvChanged (s : State) (oid : Nat) : Bool :=
  (nvObj s oid).dirty || (oid == 2 && ledgHeld s && decide (s.ledg.live ≠ s.ledg.ckpt)) ||
    (oid == 6 && (cells s).any fun c => (kCell s c).recStep)

/-- NV_FLUSH's effect (R446): a write of every object whose content has changed is queued, and one of CELL_REC
(R431). -/
def nvFlush (s : State) : State :=
  let ledg := nvChanged s 2
  let oids := ((s.nv.objs.filter fun o => o.2.dirty).map (·.1)).filter fun o => decide (o ≠ 2 ∧ o ≠ 6)
  ((if ledg then [2, 6] else [6]) ++ oids).foldl (fun s oid => nvQueue oid s)
    (if ledg then { s with ledg.capture := some s.ledg.live } else s)

/-- CELL_REC_WRITE (R431): CELL_REC is written from the verified PERSIST words. -/
def execCellRecWrite (s : State) : Host.Outcome State Fault Refusal :=
  .next (settle (if s.sys.run.nv then nvQueue 6 s else s))

/-- ZTAB_WRITE (R339): the changed impedance table of cell `c` is written. -/
def execZtabWrite (c : Nat) (s : State) : Host.Outcome State Fault Refusal :=
  .next (settle (if s.sys.run.nv && cellConf s c && (wCell s c).dirtyAt.isSome then nvQueue (0x100 + c) s else s))

/-- TALLY_WRITE (R432): TALLY is written from the lifetime bins. -/
def execTallyWrite (s : State) : Host.Outcome State Fault Refusal :=
  .next (settle (if s.sys.run.nv && s.sys.run.tally then nvQueue 7 s else s))

/-! ## Key region and last-gasp ring, written by hardware -/

/-- The hardware writes the time block in force over its older copy (R424), with the present TNS as TNS_SAVE. -/
def tbWrite (s : State) : State :=
  let b := { s.nv.tb with seq := (s.nv.tb.seq + 1) % 4294967296, tnsSave := s.time.tns }
  let toA := match s.nv.tbA, s.nv.tbB with
    | none, _ => true
    | some _, none => false
    | some x, some y => serNewer 32 y.seq x.seq
  if toA then { s with nv.tb := b, nv.tbA := some b } else { s with nv.tb := b, nv.tbB := some b }

/-- TNS_SAVE_WRITE (R386): every 10 s the time block is written with TNS. -/
def execTnsSaveWrite (s : State) : Host.Outcome State Fault Refusal :=
  .next (if s.sys.run.timebase && !s.nv.refuse then tbWrite s else s)

/-- Last-gasp slot `i`. -/
def lgSlot (s : State) (i : Nat) : Option LgSlot := Tab.get none s.nv.lg i

/-- The newest of two slots by SLOT_SEQ. -/
def lgNewer (x : Option (Nat × LgSlot)) (i : Nat) (y : Option LgSlot) : Option (Nat × LgSlot) :=
  match x, y with
  | x, none => x
  | none, some b => some (i, b)
  | some a, some b => if serNewer 32 b.seq a.2.seq then some (i, b) else some a

/-- The valid last-gasp slot with the newest SLOT_SEQ, and its index (R426). -/
def lgNewest (s : State) : Option (Nat × LgSlot) :=
  (List.range 8).foldl (fun x i => lgNewer x i (lgSlot s i)) none

/-- The index and SLOT_SEQ of the next last-gasp slot (R426, R427). -/
def lgNext (s : State) : Nat × Nat := match lgNewest s with
  | none => (0, 1)
  | some (i, x) => ((i + 1) % 8, (x.seq + 1) % 4294967296)

/-- The first waiting last-gasp slot is written, and the time block after it (R426). -/
def lgWrite (s : State) : State :=
  match s.nv.lgWait with
  | [] => s
  | x :: rest =>
    let n := lgNext s
    tbWrite { s with
      nv.lgWait := rest
      nv.lg := Tab.set none s.nv.lg n.1 (some { x with seq := n.2 })
      nv.lgTorn := Tab.set false s.nv.lgTorn n.1 false }

/-- LAST_GASP_DONE (R426): a last-gasp slot and the time block are complete. -/
def execLastGaspDone (s : State) : Host.Outcome State Fault Refusal := .next (lgWrite s)

/-- A write of a last-gasp slot is cut off (R426): its slot is invalid. -/
def lgCut (s : State) : State :=
  if s.nv.lgWait.isEmpty then s
  else { s with
    nv.lgWait := []
    nv.lg := Tab.set none s.nv.lg (lgNext s).1 none
    nv.lgTorn := Tab.set false s.nv.lgTorn (lgNext s).1 true }

end Sys2Proof.Machine
end

