-- ==== Sys2Proof/Machine/Ledger.lean ====
section
/-! DEFINITION. The energy ledger (chapter 15): metering, checkpoints, pod checkpoints, eras and statements, and
the meanings of their events. -/

namespace Sys2Proof.Machine

/-! ## Metering -/

/-- The ledger counts (R435): it runs and U is at L4. -/
def ledgCounts (s : State) : Bool := s.sys.run.ledger && upper s == 4

/-- The voltage of string `i` that the ledger uses (R433), in 100 uV: V_PACK, or the sum of the cell voltages
while VSUM is in force. -/
def ledgVolt (s : State) (i : Nat) : Nat :=
  if s.ledg.vsum.getLsbD i then ((stringCells s i).map fun c => (cellAcq s c).v).foldl (· + ·) 0
  else vPackOf s i * 500

/-- A sum moved past whole units: the units counted and the remainder (R433). -/
def carry (rem add unit : Nat) : Nat × Nat := ((rem + add) / unit, (rem + add) % unit)

/-- 3.6 J in 100 uV x mA x ns. -/
abbrev unitE : Nat := 36000000000000000

/-- 3.6 A s in mA x ns. -/
abbrev unitQ : Nat := 3600000000000

/-- The remainders of string `i`, or of the total for 4. -/
def remOf (l : LedgBody) (i : Nat) : LedgRem := Tab.get {} l.rem i

/-- The EFC steps that `mah` more of throughput brings (R434): the steps and the remainder, mAh x 1,000. -/
def efcSteps (rem mah cap : Nat) : Nat × Nat := if cap = 0 then (0, rem) else carry rem (mah * 1000) (2 * cap)

/-- Add whole units to counter block `b` and its EFC. -/
def addBlock (b dE cE dQ cQ cap : Nat) (l : LedgBody) : LedgBody :=
  let x := ctrOf l b
  let r := remOf l b
  let e := efcSteps r.efc (dQ + cQ) cap
  { l with
    blk := Tab.set {} l.blk b { disMwh := x.disMwh + dE, chgMwh := x.chgMwh + cE, disMah := x.disMah + dQ
                                chgMah := x.chgMah + cQ, efc := x.efc + e.1 }
    rem := Tab.set {} l.rem b { r with efc := e.2 } }

/-- The pod state of string `i`. -/
def podOf (l : LedgBody) (i : Nat) : Pod := Tab.get {} l.pods i

/-- Change the pod state of string `i`. -/
def modPod (l : LedgBody) (i : Nat) (f : Pod → Pod) : LedgBody := { l with pods := Tab.set {} l.pods i (f (podOf l i)) }

/-- The ledger counts discharge `dis` and charge `chg` of string `i`, in mA x ns, at voltage `v` in
100 uV (R433, R434). -/
def ledgAdd (i dis chg v capI capT : Nat) (l : LedgBody) : LedgBody :=
  let r := remOf l i
  let dE := carry r.disE (dis * v) unitE
  let cE := carry r.chgE (chg * v) unitE
  let dQ := carry r.disQ dis unitQ
  let cQ := carry r.chgQ chg unitQ
  let l1 := { l with rem := Tab.set {} l.rem i { r with disE := dE.2, chgE := cE.2, disQ := dQ.2, chgQ := cQ.2 } }
  let l2 := addBlock 4 dE.1 cE.1 dQ.1 cQ.1 capT (addBlock i dE.1 cE.1 dQ.1 cQ.1 capI l1)
  modPod l2 i fun p => { p with thru := p.thru + dE.1 + cE.1 }

/-- The sum of CAP_NOM over the configured strings. -/
def capTotal (s : State) : Nat := ((strings s).map (capNom s)).foldl (· + ·) 0

/-- Charge of string `i` enters the ledger with the V_PACK now known (R433). -/
def ledgCount (i dis chg : Nat) (s : State) : State :=
  if dis = 0 && chg = 0 then s
  else { s with ledg.live := ledgAdd i dis chg (ledgVolt s i) (capNom s i) (capTotal s) s.ledg.live }

/-- A sample of the selected channel of string `i` (R172, R433): `cur` mA for `ns` nanoseconds. The charge of a
frame waits for the frame's V_PACK; a sample of the frame before (`old`) counts at once. -/
def ledgSample (i : Nat) (cur : Int) (ns : Nat) (old : Bool) (s : State) : State :=
  if !ledgCounts s then s
  else
    let q := absI cur * ns
    let d := if cur > 0 then q else 0
    let c := if cur < 0 then q else 0
    if old then ledgCount i d c s
    else
      let p : Nat × Nat := Tab.get (0, 0) s.ledg.pend i
      { s with ledg.pend := Tab.set (0, 0) s.ledg.pend i (p.1 + d, p.2 + c) }

/-- At the end of a frame its charge is counted with the frame's V_PACK (R433). -/
def ledgFrame (s : State) : State :=
  (List.range 4).foldl (fun s i =>
    let p : Nat × Nat := Tab.get (0, 0) s.ledg.pend i
    { ledgCount i p.1 p.2 s with ledg.pend := Tab.set (0, 0) s.ledg.pend i (0, 0) }) s

/-- At a cut-off the frames without V_PACK are counted, and VSUM follows (R433). -/
def ledgVsum (s : State) : State :=
  (strings s).foldl (fun s i =>
    let miss := (aggOfHusk s i).isNone
    let n := if miss then sat 7 (Tab.get 0 s.ledg.vMiss i + 1) else 0
    { s with ledg.vMiss := Tab.set 0 s.ledg.vMiss i n, ledg.vsum := setBit4 s.ledg.vsum i (decide (n ≥ 100)) }) s
where
  /-- V_PACK as closed in this frame. -/
  aggOfHusk (s : State) (i : Nat) : Option Int := (Tab.get {} s.husk.agg i).vPack

/-- Time without counting while a string is closed goes into GAP_NS (R435). GAP follows. -/
def ledgGap (s : State) : State :=
  let run := ledgCounts s
  let shut := (strings s).any (closed s)
  let gap := !run && shut
  let d := s.time.tns - s.ledg.gapAt
  { s with
    ledg.gapAt := s.time.tns
    ledg.gap := gap
    ledg.live.gapNs := if gap && s.ledg.gap then s.ledg.live.gapNs + d else s.ledg.live.gapNs }

/-- TNS moves on to `t` (R384): the interval is counted in GAP_NS when the ledger stands still in it (R435). -/
def tnsTo (t : Nat) (s : State) : State := ledgGap { ledgGap s with time.tns := t }

/-! ## Checkpoints -/

/-- A checkpoint captures the live counters and writes LEDGER (R437). -/
def checkpoint (s : State) : State := nvQueue 2 { s with ledg.capture := some s.ledg.live }

/-- A checkpoint is still being written. -/
def checkpointBusy (s : State) : Bool := s.ledg.capture.isSome || s.nv.queue.any (·.oid == 2)

/-- LEDGER_CHECKPOINT (R437). -/
def execLedgerCheckpoint (s : State) : Host.Outcome State Fault Refusal :=
  .next (settle (if s.sys.run.ledger then checkpoint s else s))

/-! ## Pod checkpoints -/

/-- The pod checkpoint block of string `i` (R439). -/
def podBlock (s : State) (i : Nat) : List Byte :=
  le 8 s.sec.mid.toNat ++ le 1 i ++ le 1 s.ledg.ckpt.era ++ le 2 0 ++ le 4 s.ledg.ckptSeq ++
    le 4 s.ledg.ckpt.epoch ++ le 8 s.time.tns ++ ctrBytes (ctrOf s.ledg.ckpt i)

/-- The pod key of string `i`, empty when absent (R525). -/
def podKey (s : State) (i : Nat) : List Byte := (Tab.get {} s.nv.keys.pod i).val

/-- The pairing record of a node of string `i` for a pod checkpoint block (R128, R439). -/
def pairRecord (s : State) (i : Nat) (block : List Byte) (uid : BitVec 64) : List Byte :=
  let body := le 8 s.sec.mid.toNat ++ le 1 i ++ le 1 (fld block 9 1) ++ le 2 0 ++ le 4 (fld block 12 4) ++ sha256 block
  body ++ (hmac (podKey s i) (body ++ le 8 uid.toNat)).take 8

/-- The write of a pairing record to a node (R129, R439). -/
def pairWrite (i : Nat) (block : List Byte) (rp : Nat × Nat) (s : State) : State :=
  let n := nodeOf s rp.1 rp.2
  mgmtPush rp.1 { pos := rp.2, write := true, addr := 0x80, n := 56, data := pairRecord s i block n.uid }
    (modNode s rp.1 rp.2 fun n => { n with podOk := false })

/-- Pod checkpoints of the strings named are asked for (R439): each starts with a checkpoint. -/
def podAsk (m : BitVec 4) (s : State) : State := checkpoint { s with ledg.podWant := s.ledg.podWant ||| m }

/-- The configured strings as a mask. -/
def configMask (s : State) : BitVec 4 := BitVec.ofNat 4 (mask4 (configured s))

/-- The adoption of the pod of string `i` runs (R533). -/
def adopting (s : State) (i : Nat) : Bool := s.sec.adopt.any (·.1 == i)

/-- An adoption ends (R533 step 5): POD_FOREIGN clears, SEC_ADOPT_STAT is set and POD_ADOPTED is recorded. -/
def adoptDone (i : Nat) (s : State) : State :=
  match s.sec.adopt.find? (·.1 == i) with
  | none => s
  | some (_, r) =>
    let n := (stringNodes s i).length
    emit 0x0A8A (le 1 i ++ le 1 n ++ le 2 0 ++ r.take 8) { s with
      sec.adopt := s.sec.adopt.filter (·.1 != i)
      sec.adResult := 1
      sec.adNodes := n
      sec.adString := i
      ledg.podForeign := setBit4 s.ledg.podForeign i false }

/-- A node's pairing record could not be written in three tries (R103, R448, R537): the pod stays pending, and an
adoption of it ends with RESULT 5. -/
def podUnconfirmed (i : Nat) (s : State) : State :=
  let s1 := { s with ledg.podPend := setBit4 s.ledg.podPend i true }
  if adopting s i then
    { s1 with
      sec.adopt := s.sec.adopt.filter (·.1 != i)
      sec.adResult := 5
      sec.adNodes := ((stringNodes s i).filter fun rp => (nodeOf s rp.1 rp.2).podOk).length
      sec.adString := i }
  else s1

/-- POD_CHECKPOINT (R439): the pod checkpoint of string `i` takes its next step. One that is due by THRU_MWH asks
for its checkpoint; with the checkpoint complete, the block is formed and written to every node. A pod held
by another MID is not written (R89) unless its adoption runs (R533). -/
def execPodCheckpoint (i : Nat) (s : State) : Host.Outcome State Fault Refusal :=
  let want := s.ledg.podWant.getLsbD i
  .next (settle (if !configured s i || (s.ledg.podForeign.getLsbD i && !adopting s i) || !s.sys.run.ledger then s
    else if want then
      if checkpointBusy s then s
      else
        let b := podBlock s i
        let s1 := { s with ledg.podWant := setBit4 s.ledg.podWant i false
                           ledg.podRun := Tab.set [] s.ledg.podRun i b }
        (stringNodes s i).foldl (fun s rp => pairWrite i b rp s) s1
    else if (podOf s.ledg.live i).thru ≥ 1000000 then podAsk (setBit4 0 i true) s
    else s))

/-- POD_CHECKPOINT_CONFIRMED (R439): every node of string `i` has confirmed its pairing record; the block becomes
the current one, the former current one the previous, and THRU_MWH is cleared. -/
def execPodCheckpointConfirmed (i : Nat) (s : State) : Host.Outcome State Fault Refusal :=
  let b : List Byte := Tab.get [] s.ledg.podRun i
  let all := (stringNodes s i).all fun rp => (nodeOf s rp.1 rp.2).podOk
  .next (settle (if b.isEmpty || !all then s
    else adoptDone i { s with
      ledg.podRun := Tab.set [] s.ledg.podRun i []
      ledg.podPend := setBit4 s.ledg.podPend i false
      ledg.live := modPod s.ledg.live i fun p =>
        { cur := b, prevSeq := fld p.cur 12 4, prevDig := if p.cur.isEmpty then [] else sha256 p.cur, thru := 0 } }))

/-! ## Eras and statements -/

/-- ERA advances to 2 (R442): the total is copied, and a checkpoint and pod checkpoints run. -/
def eraAdvance (s : State) : State :=
  if s.ledg.live.era = 2 then s
  else podAsk (configMask s) { s with
    ledg.live.era := 2
    ledg.live.era2 := ctrOf s.ledg.live 4
    ledg.live.era2Valid := true }

/-- LEDG_CTRL.ERA_ADV (R442, R449): ignored in era 2. -/
def eraForce (s : State) : State :=
  if s.ledg.live.era = 2 then s else emit 0x0701 [] (eraAdvance s)

/-- The nonce registers as the statement carries them. -/
def nonceBytes (s : State) : List Byte := le 4 s.ledg.nonceLo.toNat ++ le 4 s.ledg.nonceHi.toNat

/-- Bytes 0 to 335 of a statement captured now (R444); the CKPT_SEQ field is filled in when its checkpoint
completes. -/
def stmtBody (s : State) : List Byte :=
  let l := s.ledg.live
  let flags := at' 4 (mask4 (configured s)) + at' 3 (b2n (s.ledg.vsum != 0)) +
    at' 2 (b2n (l.gapNs != s.ledg.gapStmt)) + at' 1 (b2n l.era2Valid) + b2n s.time.wallOfs.isSome
  le 4 0x544D5453 ++ le 2 1 ++ le 1 l.era ++ le 1 flags ++ le 4 l.stmtSeq ++ le 4 0 ++ le 8 s.sec.mid.toNat ++
    nonceBytes s ++ le 8 s.time.tns ++ le 8 (wallOf s) ++ ((List.range 5).flatMap fun b => ctrBytes (ctrOf l b)) ++
    (if l.era2Valid then ctrBytes l.era2 else le 40 0) ++ le 8 l.gapNs ++ le 4 l.adoptCount ++ le 4 l.epoch ++
    padTo 32 l.adoptDig

/-- A statement request is refused as busy (R443), or with STATE without a ledger key (R527). -/
def stmtChk (s : State) : Nat :=
  let soon := match s.ledg.stmtAt with
    | some t => decide (s.time.tns < t + 100000000)
    | none => false
  if s.nv.keys.ledger.val.isEmpty then 9 else if s.ledg.stmt.isSome || soon then 1 else 0

/-- A statement is captured and its checkpoint starts (R443). -/
def stmtStart (s : State) : State :=
  let s1 := { s with ledg.live.stmtSeq := (s.ledg.live.stmtSeq + 1) % 4294967296 }
  checkpoint { s1 with
    ledg.stmt := some (stmtBody s1)
    ledg.stmtAt := some s.time.tns
    ledg.gapStmt := s1.ledg.live.gapNs
    ledg.ready := false }

/-- STATEMENT_READY (R443): the checkpoint that holds the STMT_SEQ is complete, and the statement is placed in
LEDG_STMT. STMT_READY is set if the nonce still stands (R448). -/
def execStatementReady (s : State) : Host.Outcome State Fault Refusal :=
  .next (match s.ledg.stmt with
    | some b =>
      if !checkpointBusy s && s.ledg.ckpt.stmtSeq == fld b 8 4 then
        let body := b.take 12 ++ le 4 s.ledg.ckptSeq ++ b.drop 16
        { s with
          ledg.stmt := none
          ledg.out := body ++ hmac s.nv.keys.ledger.val body
          ledg.ready := (b.drop 24).take 8 == nonceBytes s }
      else s
    | none => s)

/-- A write of LEDG_NONCE clears STMT_READY (R443). -/
def nonceWritten (s : State) : State := { s with ledg.ready := false }

/-! ## Start of the ledger -/

/-- The newest valid last-gasp slot written under checkpoint `ckpt` (R438). -/
def lgForCkpt (s : State) (ckpt : Nat) : Option LgSlot :=
  ((List.range 8).foldl (fun x i => lgNewer x i (match lgSlot s i with
    | some y => if y.ckpt = ckpt then some y else none
    | none => none)) none).map (·.2)

/-- The deltas of a slot are added to the counters of a ledger (R427, R438). -/
def lgApply (s : State) (x : LgSlot) (l : LedgBody) : LedgBody :=
  (x.deltas.zipIdx).foldl (fun l di =>
    let (dE, cE, dQ, cQ) := di.1
    let l1 := addBlock 4 dE cE dQ cQ (capTotal s) (addBlock di.2 dE cE dQ cQ (capNom s di.2) l)
    modPod l1 di.2 fun p => { p with thru := p.thru + dE + cE }) l

/-- The ledger starts (R438, R528): it reads LEDGER and applies the last-gasp deltas that belong to it, or starts
a new object with a new EPOCH; a checkpoint follows at once. -/
def ledgStart (s : State) : State :=
  match nvRead s 2 with
  | some (.ledger b) =>
    let seq := ((nvBank (nvObj s 2)).map (·.seq)).getD 0
    let b := { b with epoch := s.nv.keys.epoch }
    let l := match lgForCkpt s seq with
      | some x => lgApply s x b
      | none => b
    checkpoint { s with ledg.live := l, ledg.ckpt := b, ledg.ckptSeq := seq }
  | _ =>
    let e := (s.nv.keys.epoch + 1) % 4294967296
    let l : LedgBody := { epoch := e }
    let s1 := { s with nv.keys.epoch := e, ledg.live := l, ledg.ckpt := l, ledg.ckptSeq := 0, evt.s3Ledg := true }
    checkpoint (emit 0x0700 (le 4 e) s1)

end Sys2Proof.Machine
end

