-- ==== Sys2Proof/Machine/Cur.lean ====
section
/-! DEFINITION. The current channels (chapter 6): conversion, the selected channel, background calibration, the
cross-check and the fast comparators, and the meanings of their events. -/

namespace Sys2Proof.Machine

/-! ## Configuration in force and conversion -/

/-- INV, EN, FS and OFS in force in this frame (R169). -/
def chVals (c : CurCh) : Bool × Bool × Nat × Int := c.use.getD (c.inv, c.en, c.fs, c.ofs)

/-- The string of channel `n`. -/
def chString (n : Nat) : Nat := n / 2

/-- The other channel of the string. -/
def otherCh (n : Nat) : Nat := if n % 2 = 0 then n + 1 else n - 1

/-- The current of a sum of `k` codes in mA (R167): the mean code is scaled, the offset taken off and the polarity applied,
rounded once (R171 does not say where the mean of several samples rounds; DESIGN CHOICE, assumption 86). -/
def codeToMa (c : CurCh) (sum : Int) (k : Nat) : Int :=
  let v := chVals c
  let i := roundDiv (sum * v.2.2.1) (8388608 * k) - v.2.2.2 * 10
  if v.1 then -i else i

/-- A sample is saturated (R178). -/
def codeSat (x : Int) : Bool := decide (absI x > 8388608 - 256)

/-! ## Comparator thresholds -/

/-- The comparator code of a threshold current after INV (R180), before the clamp. -/
def thrRaw (ith ofs : Int) (fs : Nat) : Int := if fs = 0 then 512 else 512 + Int.tdiv (512 * (ith + ofs * 10)) fs

/-- The code clamped to the DAC's range (R180). -/
def thrCode (d : Int) : Nat := (clampI 0 1023 d).toNat

/-- Set one comparator of channel `n` (`lo` for the low one) to the threshold current `req` (R180). -/
def setThr (n : Nat) (lo : Bool) (req : Int) (s : State) : State :=
  let c := curCh s n
  let d := thrRaw (if c.inv then -req else req) c.ofs c.fs
  let code := thrCode d
  let s1 := modCh s n fun c => if lo then { c with thrLo := code } else { c with thrHi := code }
  emitIf (d != code) 0x0307 (leI 4 req ++ le 1 n ++ le 1 (b2n lo) ++ le 2 code) s1

/-- Both comparators of channel `n` take their codes from the limits entry of its string (R180, R216). -/
def setThresholds (n : Nat) (s : State) : State :=
  let l := limitOf s (chString n)
  let inv := (curCh s n).inv
  if configured s (chString n) then
    setThr n true (if inv then l.iHi else l.iLo) (setThr n false (if inv then l.iLo else l.iHi) s)
  else s

/-- Every channel takes its codes after the limits have changed. -/
def allThresholds (s : State) : State := (List.range 8).foldl (fun s n => setThresholds n s) s

/-! ## Running and selection -/

/-- VANA, from which the converters and their reference work, is in regulation (R544, R562). -/
def vanaOk (s : State) : Bool := s.pwr.pg.getLsbD 4

/-- A channel is running once its converter is on (R175). -/
def chFit (s : State) (n : Nat) : Bool :=
  let c := curCh s n
  (chVals c).2.1 && configured s (chString n) && c.fault == .none && c.cmpOk && vanaOk s

/-- Whether channel `n` runs is found anew: while the current channels are on, when it fits (R175). -/
def chRefit (n : Nat) (s : State) : State := modCh s n fun c => { c with run := s.sys.run.acq && chFit s n }

/-- Whether each channel runs is found anew after a change of the topology (R175). -/
def allRefit (s : State) : State := (List.range 8).foldl (fun s n => chRefit n s) s

/-- The comparators of channel `n` may be checked (R182): its string, if it is configured, stands open. -/
def mayTest (s : State) (n : Nat) : Bool := !configured s (chString n) || standsOpen s (chString n)

/-- The comparators of channel `n` are armed (R175). -/
def armed (s : State) (n : Nat) : Bool := (chVals (curCh s n)).2.1 && configured s (chString n)

/-- The primary channel of string `i` can be the selected one (R176). -/
def primaryUp (s : State) (i : Nat) : Bool :=
  let c := curCh s (2 * i)
  c.run && c.cal != .switched && c.cal != .settling

/-- The redundant channel becomes the selected one when the primary stops running or is calibrated (R176). -/
def selectAway (i : Nat) (s : State) : State :=
  if primaryUp s i || (curStr s i).red || !configured s i then s
  else
    let cause := if (curCh s (2 * i)).run then 2 else 1
    emit 0x0305 (le 1 i ++ le 1 cause ++ le 2 0) (modCurStr s i fun x => { x with red := true }) i

/-- The primary channel is selected again (R174, R176). -/
def selectBack (i : Nat) (s : State) : State :=
  if primaryUp s i then modCurStr s i fun x => { x with red := false } else s

/-- The channel number selected for string `i` (R176). -/
def selected (s : State) (i : Nat) : Nat := if (curStr s i).red then 2 * i + 1 else 2 * i

/-- Channel `n` starts (R67 step 5, R168, R554): a configuration written meanwhile applies (R169). -/
def chStart (n : Nat) (s : State) : State :=
  let s1 := modCh s n fun c =>
    { c with win := [], iS := none, iMean := none, beyondHi := 0, beyondLo := 0, use := none, calFrame := false }
  chRefit n (if (curCh s n).use.isSome then setThresholds n s1 else s1)

/-- The channels of configured strings, which are calibrated in turn (R174). -/
def calAll (s : State) : List Nat := (List.range 8).filter fun n => configured s (chString n)

/-- The current channels start, due for calibration (R174). -/
def curStart (s : State) : State :=
  let s1 := (List.range 8).foldl (fun s n => chStart n s) s
  { s1 with cur.calQueue := calAll s1 }

/-- The current channels stop (R550, R551). -/
def curStop (s : State) : State :=
  (List.range 8).foldl (fun s n => modCh s n fun c =>
    { c with run := false, sat := false, cal := .none, win := [], iS := none, iMean := none, test := false }) s

/-! ## Samples -/

/-- A converted value lies more than 2 % of FS beyond a comparator threshold whose comparator has not latched
(R178). -/
def beyondThr (c : CurCh) (x : Int) : Bool × Bool :=
  let full : Int := 8388608 * 512
  (decide ((x * 512 - ((c.thrHi : Int) - 512) * 8388608) * 50 > full) && !c.latHi,
   decide ((((c.thrLo : Int) - 512) * 8388608 - x * 512) * 50 > full) && !c.latLo)

/-- The codes whose reference instants lie in (S - `p`, S], of the samples newest first, the first one at S (R171). -/
def windowFrom (p : Nat) : Nat → List (Int × Nat) → List Int
  | _, [] => []
  | d, (x, ns) :: w => if d + ns < p then x :: windowFrom p (d + ns) w else []

/-- The codes of the frame that ends with the first sample (R171): those in (S - P, S], or the 16 of the Precise window. -/
def frameCodes (mode : Nat) : List (Int × Nat) → List Int
  | [] => []
  | (x, ns) :: w => if mode = 2 then (((x, ns) :: w).take 16).map (·.1) else x :: windowFrom (periodOf mode) 0 w

/-- A sample of channel `n` enters the channel's window (R171); at S, or at the end of the Precise window, RAW is formed
and, for a channel that runs, I_S and I_MEAN. -/
def chSample (mode : Nat) (x : Int) (ns : Nat) (atS : Bool) (c : CurCh) : CurCh :=
  let b := beyondThr c x
  let w := ((x, ns) :: c.win).take 32
  let c1 := { c with
    win := w
    sat := c.sat || codeSat x
    beyondHi := if b.1 then min 3 (c.beyondHi + 1) else 0
    beyondLo := if b.2 then min 3 (c.beyondLo + 1) else 0 }
  if !atS then c1
  else
    let codes := frameCodes mode w
    let mean := codeToMa c (sumI codes) codes.length
    { c1 with
      raw := if mode = 2 then roundDiv (sumI codes) codes.length else x
      iS := if c.run then some (if mode = 2 then mean else codeToMa c x 1) else none
      iMean := if c.run then some mean else none }

/-- The charge of the selected channel by sample instants (R172, R255): at S the charge since the last S is closed.
In Precise mode the sample instant is the window centre, so the window's last 8 samples open the next interval. -/
def stringCharge (precise atS : Bool) (c : CurCh) (x : Int) (ns : Nat) (y : CurStr) : CurStr :=
  let now := codeToMa c x 1 * ns
  if !atS then { y with q := y.q + now }
  else
    let late := if precise then sumI ((c.win.take 7).map fun v => codeToMa c v.1 1 * v.2) else 0
    { y with qS := y.qS + y.q - late, q := late + now }

/-- CURRENT_SAMPLE (R167, R170 to R172, R175, R178): code `x` of channel `n` becomes available. `atS`: its reference
instant is S, or it is the last of the Precise window; `old`: the instant lies in the frame before; `ns`: the
interval to the next reference instant. While the converter is switched for calibration, or settles after it, the
sample is discarded. A channel that does not run shows its code and feeds nothing. -/
def execCurrentSample (n : Nat) (x : Int) (atS old : Bool) (ns : Nat) (s : State) : Host.Outcome State Fault Refusal :=
  let c := curCh s n
  let x := clampI (-8388608) 8388607 x
  let i := chString n
  .next (if !(decide (n < 8) && armed s n && s.sys.run.acq) || c.cal == .switched || c.cal == .settling then s
    else
      let s1 := modCh s n (chSample (acqMode s) x ns atS)
      if c.run && selected s i = n then
        modCurStr (ledgSample i (codeToMa c x 1) ns old s1) i (stringCharge (acqMode s == 2) atS c x ns)
      else s1)

/-- At a cut-off the string's values are taken from its selected channel (R171, R188, R635). -/
def curClose (s : State) : State :=
  let s1 := (List.range 4).foldl (fun s i =>
    let c := curCh s (selected s i)
    let go := configured s i && c.run && c.iS.isSome
    modCurStr s i fun x => { x with
      iS := if go then c.iS.getD 0 else 0
      iMean := if go then c.iMean.getD 0 else 0
      missing := !go
      sat := go && c.sat }) s
  (List.range 8).foldl (fun s n => modCh s n fun c => { c with rawPub := c.raw }) s1

/-- The channels of string `i` disagree in this frame (R177), by the FS in force. -/
def disagrees (a b : CurCh) : Bool :=
  match a.iMean, b.iMean with
  | some p, some q =>
    let d := absI (p - q)
    decide (d * 200 > max (absI p) (absI q)) && decide (d * 500 > min (chVals a).2.2.1 (chVals b).2.2.1)
  | _, _ => false

/-- The cross-check of string `i` at a cut-off (R177): a frame in which a channel was calibrating is not compared, and
holds the counts. -/
def crossCheck (i : Nat) (s : State) : State :=
  let a := curCh s (2 * i)
  let b := curCh s (2 * i + 1)
  if a.calFrame || b.calFrame then s
  else if a.run && b.run && a.iMean.isSome && b.iMean.isSome then
    if disagrees a b then modCurStr s i fun x => { x with disCnt := min 100 (x.disCnt + 1), agrCnt := 0 }
    else modCurStr s i fun x => { x with agrCnt := min 100 (x.agrCnt + 1), disCnt := 0 }
  else modCurStr s i fun x => { x with disCnt := 0, agrCnt := 0 }

/-- Channel `n` is calibrating (R174): its converter is off its input, or settles. -/
def calOn (c : CurCh) : Bool := c.cal == .switched || c.cal == .settling

/-- Channel `n` at the frame boundary; one whose configuration was written runs by its new use, with its comparator codes
(R168, R169, R177). -/
def boundaryCh (s : State) (n : Nat) : State :=
  let s1 := modCh s n fun c => { c with sat := false, use := none, iS := none, iMean := none, calFrame := calOn c }
  if (curCh s n).use.isSome then chRefit n (setThresholds n s1) else s1

/-- A new frame begins: written configurations apply, the flags and values of the last frame clear, and a running primary channel is
selected again (R169, R176, R178). -/
def curBoundary (s : State) : State :=
  (List.range 4).foldl (fun s i => selectBack i (selectAway i s)) ((List.range 8).foldl boundaryCh s)

/-! ## Calibration -/

/-- CAL_TRIGGER (R174 step 1): channel `n` is due for calibration, 600 s after its last or because it was asked for, and
waits. -/
def execCalTrigger (n : Nat) (s : State) : Host.Outcome State Fault Refusal :=
  let c := curCh s n
  let due := decide (s.time.tns ≥ c.calAt + 600 * nsPerSec) || s.cur.calQueue.contains n
  .next (if decide (n < 8) && configured s (chString n) && c.cal == .none && due
    then modCh s n fun c => { c with cal := .waiting } else s)

/-- Channel `n` may be calibrated now (R174 step 1): the other channel of its string is running and the string's DISAGREE
is clear, or the string stands open; never both channels of a string at once. -/
def calFree (s : State) (n : Nat) : Bool :=
  let i := chString n
  let o := curCh s (otherCh n)
  (curCh s n).cal == .waiting && !calOn o && (o.run && !(curStr s i).disagree || standsOpen s i)

/-- It is channel `n`'s turn (R186): of the channels asked for, one is calibrated at a time, the first that may be. -/
def calTurn (s : State) (n : Nat) : Bool :=
  !s.cur.calQueue.contains n ||
    (!s.cur.calQueue.any (fun m => calOn (curCh s m)) && s.cur.calQueue.find? (calFree s) == some n)

/-- CAL_SWITCH (R174 step 2): at a frame boundary, with the condition of step 1, the other channel is selected and this
converter is switched to zero and reference. -/
def execCalSwitch (n : Nat) (s : State) : Host.Outcome State Fault Refusal :=
  .next (if decide (n < 8) && atBoundary s && calFree s n && calTurn s n
    then selectAway (chString n) (modCh s n fun c => { c with cal := .switched, calFrame := true, win := [] }) else s)

/-- CAL_APPLY (R174): the new offset and gain are applied and the converter returns to its input. -/
def execCalApply (n : Nat) (s : State) : Host.Outcome State Fault Refusal :=
  .next (if (curCh s n).cal == .switched then
      modCh s n fun c => { c with cal := .settling, calAt := s.time.tns, calOver := false }
    else s)

/-- CAL_RETURN (R174 step 3, R176): after 0.5 ms of discarded samples the calibration is done, and a running primary is the
selected channel again from the next frame boundary, as R176 says. -/
def execCalReturn (n : Nat) (s : State) : Host.Outcome State Fault Refusal :=
  .next (if (curCh s n).cal == .settling then
      { modCh s n (fun c => { c with cal := .none, win := [] }) with
        cur.calQueue := s.cur.calQueue.filter (· != n) }
    else s)

/-- CUR_CAL_OVERDUE (R174): channel `n` has not been calibrated for 3,600 s. -/
def execCurCalOverdue (n : Nat) (s : State) : Host.Outcome State Fault Refusal :=
  let c := curCh s n
  .next (if decide (n < 8) && armed s n && !c.calOver && decide (s.time.tns ≥ c.calAt + 3600 * nsPerSec)
    then emit 0x0301 (le 1 n ++ le 3 0 ++ le 4 (sat 32 ((s.time.tns - c.calAt) / nsPerSec)))
      (modCh s n fun c => { c with calOver := true })
    else s)

/-- CAL_NOW (R186): every channel of a configured string is calibrated in turn. -/
def calNow (s : State) : State :=
  { s with cur.calQueue := s.cur.calQueue ++ (calAll s).filter fun n => !s.cur.calQueue.contains n }

/-! ## Stops, cross-check, comparators -/

/-- Channel `n` stops for a fault, or because its comparators failed (`cmp`; R175, R176). -/
def chStop (n : Nat) (f : CurFault) (s : State) : State :=
  selectAway (chString n) (modCh s n fun c =>
    { c with
      fault := if f == .cmp then c.fault else f
      cmpOk := c.cmpOk && f != .cmp
      run := false, iS := none, iMean := none, win := [], beyondHi := 0, beyondLo := 0 })

/-- CHANNEL_STOP (R175, R178, R618): channel `n` stops through an input fault at pin `sub` (0 CSnP, 1 CSnN) with `mv`
millivolts on it, below -0.10 V or above 5.10 V, through a converter fault of cause `sub` (1 modulator, 2 reference), or through comparator
`sub` (0 high, 1 low) once three samples in a row lay beyond its threshold without a latch. -/
def execChannelStop (n : Nat) (f : CurFault) (sub : Nat) (mv : Int) (s : State) : Host.Outcome State Fault Refusal :=
  let c := curCh s n
  let ok := decide (n < 8) && armed s n && (f == .cmp || c.fault == .none)
  let i := chString n
  .next (settle (if !ok then s
    else match f with
      | .none => s
      | .input =>
        if mv < -100 ∨ 5100 < mv then emit 0x0302 (le 1 n ++ le 1 sub ++ le 2 0 ++ leI 4 mv) (chStop n f s) i else s
      | .conv => emit 0x0303 (le 1 n ++ le 1 sub ++ le 2 0) (chStop n f s) i
      | .cmp =>
        if (if sub = 0 then c.beyondHi else c.beyondLo) ≥ 3 then
          emit 0x0304 (le 1 n ++ le 1 sub ++ le 1 2 ++ le 1 0) (chStop n f s) i
        else s))

/-- CHANNEL_RUNNING (R175): the input pins are back within range, or the converter is valid again, and the
channel runs. A comparator fault ends only with a check passed (R182). -/
def execChannelRunning (n : Nat) (s : State) : Host.Outcome State Fault Refusal :=
  let c := curCh s n
  .next (settle (if decide (n < 8) && c.fault != .none && vanaOk s then
      chRefit n (modCh s n fun c => { c with fault := .none, win := [] })
    else s))

/-- CUR_DISAGREE_SET (R177). -/
def execCurDisagreeSet (i : Nat) (s : State) : Host.Outcome State Fault Refusal :=
  let x := curStr s i
  let d := (curCh s (2 * i)).iMean.getD 0 - (curCh s (2 * i + 1)).iMean.getD 0
  .next (if decide (i < 4) && decide (x.disCnt ≥ 100) && !x.disagree
    then emit 0x0306 (leI 4 d ++ le 1 i ++ le 3 0) (modCurStr s i fun x => { x with disagree := true }) i else s)

/-- CUR_DISAGREE_CLEAR (R177). -/
def execCurDisagreeClear (i : Nat) (s : State) : Host.Outcome State Fault Refusal :=
  let x := curStr s i
  .next (if decide (i < 4) && decide (x.agrCnt ≥ 100) && x.disagree
    then modCurStr s i fun x => { x with disagree := false } else s)

/-- COMPARATOR_CROSSING (R175, R181, R182): the raw output of a comparator of channel `n` (`lo` for the low one)
asserts or falls. An assertion of an armed comparator latches, unless its output is held from Husk for a
check. -/
def execComparatorCrossing (n : Nat) (lo up : Bool) (s : State) : Host.Outcome State Fault Refusal :=
  let take := up && armed s n && !(curCh s n).test
  .next (settle (if n ≥ 8 then s
    else modCh s n fun c =>
      if lo then { c with rawLo := up, latLo := c.latLo || take } else { c with rawHi := up, latHi := c.latHi || take }))

/-- CMP_TEST (R182, R186): the comparator check starts on every channel whose string stands open. -/
def cmpTest (s : State) : State :=
  (List.range 8).foldl (fun s n => if mayTest s n then modCh s n fun c => { c with test := true } else s) s

/-- The check of channel `n` is over: its outputs reach Husk again, and one that is active then latches (R181, R182). -/
def cmpRestore (n : Nat) (s : State) : State :=
  modCh s n fun c => { c with
    test := false
    latHi := c.latHi || (c.rawHi && armed s n)
    latLo := c.latLo || (c.rawLo && armed s n) }

/-- CMP_CHECK_DONE (R175, R182): the check of channel `n` ends with the results of its high and low comparators. The
thresholds and the connection to Husk are restored; a channel whose comparators pass may run, one whose comparators fail
does not. -/
def execCmpCheckDone (n : Nat) (hiOk loOk : Bool) (s : State) : Host.Outcome State Fault Refusal :=
  let i := chString n
  .next (settle (if !(decide (n < 8) && (curCh s n).test) then s
    else
      let s1 := cmpRestore n s
      if hiOk && loOk then
        if (curCh s n).cmpOk then s1 else chRefit n (modCh s1 n fun c => { c with cmpOk := true })
      else
        let s2 := chStop n .cmp s1
        emitIf (!loOk && armed s n) 0x0304 (le 1 n ++ le 1 1 ++ le 1 1 ++ le 1 0)
          (emitIf (!hiOk && armed s n) 0x0304 (le 1 n ++ le 1 0 ++ le 1 1 ++ le 1 0) s2 i) i))

/-! ## Configuration writes -/

/-- A write to a channel's configuration needs its string standing open (R169): status STATE otherwise. -/
def chWriteChk (n : Nat) (s : State) : Nat := if standsOpen s (chString n) then 0 else 9

/-- A configuration of channel `n` is written (R169): CUR_CAL is updated, and it applies from the next frame
boundary. -/
def chWrite (n : Nat) (f : CurCh → CurCh) (s : State) : State :=
  nvQueue 4 (modCh s n fun c => { f c with use := some (chVals c) })

end Sys2Proof.Machine
end

