-- ==== Sys2Proof/Machine/Float.lean ====
section
/-! DEFINITION. binary32 and binary16 arithmetic as the kernel lanes do it (R256, R259): every operation is computed
exactly and rounded once. -/

namespace Sys2Proof.Machine

/-- A number in floating point: not a number, an infinity, or `m` times a power of two, with its sign
(`true` negative). -/
inductive FVal
  | nan
  | inf (neg : Bool)
  | num (neg : Bool) (m : Nat) (e : Int)
  deriving DecidableEq, Repr

/-- The canonical quiet NaN (R256). -/
abbrev qNaN : Word := 0x7FC00000

/-- A signed infinity. -/
def infW (neg : Bool) : Word := if neg then 0xFF800000 else 0x7F800000

/-- A signed zero. -/
def zeroW (neg : Bool) : Word := if neg then 0x80000000 else 0

/-- A binary32 pattern read as a floating-point value: a subnormal is a zero of its sign (R256). -/
def fread (w : Word) : FVal :=
  let neg := w.getLsbD 31
  let ex := bits w 30 23
  let fr := bits w 22 0
  if ex = 255 then (if fr = 0 then .inf neg else .nan)
  else if ex = 0 then .num neg 0 0
  else .num neg (8388608 + fr) ((ex : Int) - 150)

/-- A binary16 pattern read exactly, its subnormals included. -/
def fread16 (w : Nat) : FVal :=
  let neg := w.testBit 15
  let ex := w / 1024 % 32
  let fr := w % 1024
  if ex = 31 then (if fr = 0 then .inf neg else .nan)
  else if ex = 0 then .num neg fr (-24)
  else .num neg (1024 + fr) ((ex : Int) - 25)

/-- `n` halved, to nearest with ties to even, of the quotient `a / b`. -/
def divEven (a b : Nat) : Nat :=
  let q := a / b
  let r := a % b
  if 2 * r < b then q else if 2 * r > b then q + 1 else q + q % 2

/-- The scaling by a power of two: the fraction `a / b` times 2 to the `k`. -/
def scale2 (a b : Nat) (k : Int) : Nat × Nat :=
  match k with
  | .ofNat n => (a * 2 ^ n, b)
  | .negSucc n => (a, b * 2 ^ (n + 1))

/-- The exponent `k` with `2 ^ p ≤ (a / b) * 2 ^ (-k) < 2 ^ (p + 1)`. -/
def expOf (p a b : Nat) : Int :=
  let k : Int := (Nat.log2 a : Int) - Nat.log2 b - p
  let x := scale2 a b (-k)
  if x.1 < x.2 * 2 ^ p then k - 1 else k

/-- The fraction `a / b`, not zero, rounded to `p + 1` significant bits, ties to even: mantissa and exponent. -/
def roundSig (p a b : Nat) : Nat × Int :=
  let k := expOf p a b
  let x := scale2 a b (-k)
  let m := divEven x.1 x.2
  if m = 2 ^ (p + 1) then (2 ^ p, k + 1) else (m, k)

/-- The fraction `a / b` with a sign as binary32 (R256): to nearest even, flushed to zero below the smallest normal
magnitude after rounding, infinite above the largest. -/
def pack32 (neg : Bool) (a b : Nat) : Word :=
  if a = 0 then zeroW neg
  else
    let r := roundSig 23 a b
    let ex := r.2 + 150
    if ex ≤ 0 then zeroW neg
    else if ex ≥ 255 then infW neg
    else BitVec.ofNat 32 (at' 31 (b2n neg) + at' 23 ex.toNat + (r.1 - 8388608))

/-- A dyadic number as binary32. -/
def packDy (neg : Bool) (m : Nat) (e : Int) : Word :=
  let x := scale2 m 1 e
  pack32 neg x.1 x.2

/-- The fraction `a / b` with a sign as binary16, to nearest even, with subnormals (R256). -/
def pack16 (neg : Bool) (a b : Nat) : BitVec 16 :=
  let s := at' 15 (b2n neg)
  if a = 0 then BitVec.ofNat 16 s
  else
    let r := roundSig 10 a b
    let ex := r.2 + 25
    if ex ≥ 31 then BitVec.ofNat 16 (s + 31744)
    else if ex ≥ 1 then BitVec.ofNat 16 (s + at' 10 ex.toNat + (r.1 - 1024))
    else
      let x := scale2 a b 24
      BitVec.ofNat 16 (s + divEven x.1 x.2)

/-- A signed dyadic sum `a * 2 ^ ea + b * 2 ^ eb`, on a common exponent. -/
def dySum (a : Int) (ea : Int) (b : Int) (eb : Int) : Int × Int :=
  let e := min ea eb
  (a * 2 ^ (ea - e).toNat + b * 2 ^ (eb - e).toNat, e)

/-- The signed mantissa. -/
def smant (neg : Bool) (m : Nat) : Int := if neg then -(m : Int) else m

/-- The sum of two values as binary32; a sum of zeros or an exact cancellation takes the sign that round to
nearest gives. -/
def addVal (x y : FVal) : Word :=
  match x, y with
  | .nan, _ | _, .nan => qNaN
  | .inf a, .inf b => if a == b then infW a else qNaN
  | .inf a, _ => infW a
  | _, .inf b => infW b
  | .num na ma ea, .num nb mb eb =>
    let s := dySum (smant na ma) ea (smant nb mb) eb
    if s.1 = 0 then zeroW (na && nb && ma == 0 && mb == 0) else packDy (decide (s.1 < 0)) s.1.natAbs s.2

/-- The negated value. -/
def negVal : FVal → FVal
  | .nan => .nan
  | .inf n => .inf (!n)
  | .num n m e => .num (!n) m e

/-- The exact product of two values. -/
def mulVal (x y : FVal) : FVal :=
  match x, y with
  | .nan, _ | _, .nan => .nan
  | .inf a, .inf b => .inf (a != b)
  | .inf a, .num b m _ => if m = 0 then .nan else .inf (a != b)
  | .num a m _, .inf b => if m = 0 then .nan else .inf (a != b)
  | .num a m e, .num b n f => .num (a != b) (m * n) (e + f)

/-- A value as binary32. -/
def packVal : FVal → Word
  | .nan => qNaN
  | .inf n => infW n
  | .num n m e => packDy n m e

/-- FA + FB (R259). -/
def fadd (a b : Word) : Word := addVal (fread a) (fread b)

/-- FA - FB. -/
def fsub (a b : Word) : Word := addVal (fread a) (negVal (fread b))

/-- FA x FB. -/
def fmul (a b : Word) : Word := packVal (mulVal (fread a) (fread b))

/-- FA x FB + FC with one rounding. -/
def ffma (a b c : Word) : Word := addVal (mulVal (fread a) (fread b)) (fread c)

/-- FA / FB. -/
def fdiv (a b : Word) : Word :=
  match fread a, fread b with
  | .nan, _ | _, .nan => qNaN
  | .inf _, .inf _ => qNaN
  | .inf x, .num y _ _ => infW (x != y)
  | .num x _ _, .inf y => zeroW (x != y)
  | .num x m e, .num y n f =>
    if n = 0 then (if m = 0 then qNaN else infW (x != y))
    else
      let r := scale2 m n (e - f)
      pack32 (x != y) r.1 r.2

/-- The integer square root, one bit at a time from bit `n - 1` down. -/
def isqrtBits (v : Nat) : Nat → Nat → Nat
  | 0, r => r
  | n + 1, r => let t := r + 2 ^ n; isqrtBits v n (if t * t ≤ v then t else r)

/-- The square root of FA. -/
def fsqrt (a : Word) : Word :=
  match fread a with
  | .nan => qNaN
  | .inf n => if n then qNaN else infW false
  | .num n m e =>
    if m = 0 then zeroW n
    else if n then qNaN
    else
      let odd := decide (e % 2 ≠ 0)
      let m1 := (if odd then 2 * m else m) * 2 ^ 40
      let e1 := (if odd then e - 1 else e) - 40
      let r := isqrtBits m1 34 0
      let sticky := if r * r = m1 then 0 else 1
      packDy false (2 * r + sticky) (e1 / 2 - 1)

/-- The fixed point of the exponential: 256 bits behind the point. -/
abbrev expBits : Nat := 256

/-- The terms of the exponential series at `y`, in fixed point: the sum, and the next term. -/
def expTerms (y : Nat) : Nat → Nat → Nat → Nat → Nat
  | 0, _, _, acc => acc
  | n + 1, k, term, acc => let t := term * y / 2 ^ expBits / k; expTerms y n (k + 1) t (acc + t)

/-- Square a fixed-point number `n` times. -/
def squares : Nat → Nat → Nat
  | 0, v => v
  | n + 1, v => squares n (v * v / 2 ^ expBits)

/-- e to the power of a fixed-point number, in fixed point: the argument is cut to a 1,024th, 40 terms are
summed, and the result squared ten times. -/
def expFix (x : Nat) : Nat := squares 10 (expTerms (x / 1024) 40 1 (2 ^ expBits) (2 ^ expBits))

/-- e to the power FA, correctly rounded (R256, R259). -/
def fexp (a : Word) : Word :=
  match fread a with
  | .nan => qNaN
  | .inf n => if n then 0 else infW false
  | .num n m e =>
    let r := scale2 m 1 (e + expBits)
    let x := r.1 / r.2
    if x > 89 * 2 ^ expBits then (if n then 0 else infW false)
    else if n then pack32 false (2 ^ expBits) (expFix x)
    else pack32 false (expFix x) (2 ^ expBits)

/-- FA is below FB, with -0 below +0; neither is a NaN. -/
def ltVal (x y : FVal) : Bool :=
  match x, y with
  | .inf a, .inf b => a && !b
  | .inf a, _ => a
  | _, .inf b => !b
  | .num na ma ea, .num nb mb eb =>
    let d := dySum (smant na ma) ea (-(smant nb mb)) eb
    if d.1 = 0 then na && !nb else decide (d.1 < 0)
  | _, _ => false

/-- The bits of an operand as read: a subnormal is a zero of its sign. -/
def fclean (w : Word) : Word := if bits w 30 23 = 0 then zeroW (w.getLsbD 31) else w

/-- An operand is a NaN. -/
def isNaN (w : Word) : Bool := fread w == .nan

/-- A word holds a NaN or an infinity (R263). -/
def notFinite (w : Word) : Bool := decide (bits w 30 23 = 255)

/-- The smaller of FA and FB. -/
def fmin (a b : Word) : Word :=
  if isNaN a then (if isNaN b then qNaN else fclean b) else if isNaN b then fclean a
  else if ltVal (fread b) (fread a) then fclean b else fclean a

/-- The larger of FA and FB. -/
def fmax (a b : Word) : Word :=
  if isNaN a then (if isNaN b then qNaN else fclean b) else if isNaN b then fclean a
  else if ltVal (fread a) (fread b) then fclean b else fclean a

/-- FA with its sign cleared. -/
def fabs (a : Word) : Word := if isNaN a then qNaN else fclean a &&& 0x7FFFFFFF

/-- FMIN(FMAX(FA, FB), FC). -/
def fclamp (a b c : Word) : Word := fmin (fmax a b) c

/-- FA COND FB (R259); -0 equals +0. -/
def fcmp (cond : Nat) (a b : Word) : Bool :=
  let un := isNaN a || isNaN b
  let zero (w : Word) := fclean w &&& 0x7FFFFFFF == 0
  let eq := !un && ((zero a && zero b) || fclean a == fclean b)
  let lt := !un && !eq && ltVal (fread a) (fread b)
  if cond = 0 then eq else if cond = 1 then !eq else if cond = 2 then lt
  else if cond = 3 then lt || eq else if cond = 4 then !un && !lt && !eq
  else if cond = 5 then !un && !lt else cond == 6 && un

/-- A dyadic number rounded to an integer, ties to even. -/
def dyInt (m : Nat) (e : Int) : Nat := let r := scale2 m 1 e; divEven r.1 r.2

/-- A dyadic number cut to an integer. -/
def dyTrunc (m : Nat) (e : Int) : Nat := let r := scale2 m 1 e; r.1 / r.2

/-- An int32 in a word, as binary32. -/
def ofInt32 (w : Word) : Word := let v := w.toInt; packDy (decide (v < 0)) v.natAbs 0

/-- A binary16 pattern converted to binary32 exactly. -/
def of16 (w : Nat) : Word := packVal (fread16 w)

/-- FA as binary16 (R256); the pattern of a NaN is not stated (Assumption 3). -/
def to16 (a : Word) : BitVec 16 :=
  match fread a with
  | .nan => Config.nan16
  | .inf n => BitVec.ofNat 16 (at' 15 (b2n n) + 31744)
  | .num n m e => let r := scale2 m 1 e; pack16 n r.1 r.2

/-- CVT (R259). -/
def fcvt (mode : Nat) (a : Word) : Word :=
  if mode = 0 then
    match fread a with
    | .nan => 0
    | .inf n => if n then 0x80000000 else 0x7FFFFFFF
    | .num n m e => BitVec.ofInt 32 (satI 32 (smant n (dyInt m e)))
  else if mode = 1 then ofInt32 a
  else if mode = 2 then (to16 a).setWidth 32
  else if mode = 3 then of16 (bits a 15 0)
  else if mode = 4 then of16 (bits a 31 16)
  else match fread a with
    | .nan => qNaN
    | .inf n => infW n
    | .num n m e => packDy n (dyTrunc m e) 0

/-! ## Rationals -/

/-- A rational number as binary32. -/
def ofRat (q : Rat) : Word := pack32 (decide (q < 0)) q.num.natAbs q.den

/-- A rational number as binary16. -/
def rat16 (q : Rat) : BitVec 16 := pack16 (decide (q < 0)) q.num.natAbs q.den

/-- Two to an integer power, as a rational. -/
def pow2 (e : Int) : Rat := match e with
  | .ofNat n => (2 ^ n : Nat)
  | .negSucc n => 1 / ((2 ^ (n + 1) : Nat) : Rat)

/-- A finite value as a rational; none for a NaN or an infinity. -/
def valRat : FVal → Option Rat
  | .num n m e => some ((smant n m : Rat) * pow2 e)
  | _ => none

/-- A binary32 word as a rational, 0 where it is not finite. -/
def toRat (w : Word) : Rat := (valRat (fread w)).getD 0

/-- A binary16 pattern as a rational, 0 where it is not finite. -/
def rat16Of (w : BitVec 16) : Rat := (valRat (fread16 w.toNat)).getD 0

end Sys2Proof.Machine
end

