-- ==== Sys2Proof/Machine/SproutProg.lean ====
section
/-! DEFINITION. The words of kernel instructions (R257, R258, R269) and the Sprout step program written with them
(R279, R281 to R287). The spec gives what the program computes and not its words: which instructions compute it, in which
order and with which registers, predicates and scratch words, is the model's (Assumption 4). -/

namespace Sys2Proof.Machine

/-! ## Instruction words -/

/-- The word of an instruction from its five fields (R257, R258). -/
def encWord (op d a b c e : Nat) : Word := BitVec.ofNat 32 (at' 26 op + at' 21 d + at' 16 a + at' 11 b + at' 6 c + e)

/-- The word of an R3 instruction. -/
def encR3 (op : Nat) (d a b c : BitVec 5) : Word := encWord op d.toNat a.toNat b.toNat c.toNat 0

/-- The time of an instruction word at the reference conditions, ns (R269), none for an OP that is invalid (R257). -/
def wordNs (w : Nat) : Option Nat :=
  let op := w / 67108864
  if op ∈ [0, 0xA, 0xD, 0xE, 0x15] then some 2
  else if op ∈ [8, 9, 0xB, 0xC, 0xF, 0x10, 0x11, 0x12, 0x14] then some 3
  else if op ∈ [1, 2, 3] then some 5 else if op = 4 then some 6 else if op = 0x13 then some 14
  else if op ∈ [5, 6] then some 16 else if op = 7 then some 20 else none

/-- The step time of a program: 40 ns and the times of all its instructions (R271). -/
def stepNs (ws : List Nat) : Nat := (ws.map fun w => (wordNs w).getD 0).foldl (· + ·) 40

/-- Fd = Fa + Fb. -/
def asmAdd (d a b : Nat) : Word := encWord 1 d a b 0 0

/-- Fd = Fa - Fb. -/
def asmSub (d a b : Nat) : Word := encWord 2 d a b 0 0

/-- Fd = Fa x Fb. -/
def asmMul (d a b : Nat) : Word := encWord 3 d a b 0 0

/-- Fd = Fa x Fb + Fc. -/
def asmFma (d a b c : Nat) : Word := encWord 4 d a b c 0

/-- Fd = Fa / Fb. -/
def asmDiv (d a b : Nat) : Word := encWord 5 d a b 0 0

/-- Fd is the square root of Fa. -/
def asmSqrt (d a : Nat) : Word := encWord 6 d a 0 0 0

/-- Fd is e to the power Fa. -/
def asmExp (d a : Nat) : Word := encWord 7 d a 0 0 0

/-- Fd is the larger of Fa and Fb. -/
def asmMax (d a b : Nat) : Word := encWord 9 d a b 0 0

/-- Fd is Fa with its sign cleared. -/
def asmAbs (d a : Nat) : Word := encWord 10 d a 0 0 0

/-- Fd is Fa held between Fb and Fc. -/
def asmClamp (d a b c : Nat) : Word := encWord 11 d a b c 0

/-- Pp = Fa COND Fb: 0 EQ, 1 NE, 2 LT, 3 LE, 4 GT, 5 GE. -/
def asmCmp (cond p a b : Nat) : Word := encWord 12 p a b (at' 2 cond) 0

/-- Fd = Fa if Pp is 1, else Fb. -/
def asmSel (d p a b : Nat) : Word := encWord 13 d a b p 0

/-- Fd = a binary16 pattern, converted. -/
def asmHalf (d imm : Nat) : Word := encWord 14 d 0 0 0 imm

/-- Fd = a binary32 pattern, in two instructions. -/
def asmFull (d w : Nat) : List Word := [encWord 14 d 1 0 0 (w / 65536), encWord 14 d 2 0 0 (w % 65536)]

/-- Fd is Fa rounded toward zero to an integral value. -/
def asmTrunc (d a : Nat) : Word := encWord 15 d a 0 (at' 2 5) 0

/-- Fd = frame input `i` (R255). -/
def asmLdi (d i : Nat) : Word := encWord 16 d 0 0 0 i

/-- Fd = PARAM word `i` (R255, R284). -/
def asmPar (d i : Nat) : Word := asmLdi d (64 + i)

/-- Fd = state word `w`. -/
def asmLds (d w : Nat) : Word := encWord 17 d 0 0 0 w

/-- State word `w` = Fa. -/
def asmSts (w a : Nat) : Word := encWord 18 0 a 0 0 w

/-- Fd is local table `t` at (Fa, Fb). -/
def asmTbl (d t a b : Nat) : Word := encWord 19 d a b t 0

/-- Output slot `j` = Fa. -/
def asmOut (j a : Nat) : Word := encWord 20 0 a 0 0 j

/-- The instructions `l` run when Pp is 1. -/
def asmIf (p : Nat) (l : List Word) : List Word := encWord 21 p 0 0 0 l.length :: l

/-- The instructions `l` run when Pp is 0. -/
def asmUnless (p : Nat) (l : List Word) : List Word := encWord 21 (8 + p) 0 0 0 l.length :: l

/-- Pp = 0. -/
def asmClr (p : Nat) : Word := asmCmp 1 p 0 0

/-- Pp = 1. -/
def asmSet (p : Nat) : Word := asmCmp 0 p 0 0

/-! ## The Sprout program

Registers: F1 to F4 z, Va, Vb, h; F5 to F14 the covariance zz, zA, zB, zh, AA, AB, Ah, BB, Bh, hh, and before it the fit
sums; F15 C; F16 T_LOC; F17 DT; F18 q; F19 one; F20 M and F21 OCV at (z, T); F22 H_z; F24, F25 and F27 the decays a, b and g;
the others hold what is in hand. P1: the current lies below the rest threshold. P3: the measurement update runs. P2 and P5: a
rest or a relaxation anchor is taken. P0, P6 and P7 hold a condition in hand. Scratch words: 31 the time toward the next rest
anchor, 32 the part of a second of word 29, 33 updates left of a rest anchor, 34 the first voltage of the relaxation interval
and then V_inf, 35 and 36 the decays since its start. -/

/-- The capacity word is set from CAP_NOM while it is 0, and z is read from the inverse table while it is unknown and a
voltage is valid (R283). P7: z is still unknown. -/
def spFirst : List Word :=
  [asmLdi 16 3, asmLdi 17 5, asmHalf 19 0x3C00, asmLds 15 14, asmCmp 0 7 15 0] ++
    asmIf 7 [asmLdi 15 7, asmHalf 23 0x6B08, asmMul 15 15 23, asmSts 14 15] ++
    [asmLds 1 0, asmHalf 24 0xBC00, asmCmp 0 7 1 24] ++
    asmIf 7 (asmIf 0 [asmLdi 23 0, asmTbl 1 2 23 16]) ++ [asmCmp 0 7 1 24]

/-- The state is predicted (R281): q, z, a, b, Va, Vb, g and h; the term (1 - a) r i of a branch is a decay of Va toward
r i, and that of h one toward the opposite sign of QS. I_MEAN stays in F26. -/
def spPredict : List Word :=
  [asmLdi 18 6, asmCmp 5 7 18 0, asmCmp 0 3 18 0, asmHalf 24 0xBC00, asmSel 23 7 19 24, asmSel 23 3 0 23, asmPar 24 0,
   asmMul 24 24 18, asmSel 18 7 18 24, asmDiv 27 18 15, asmSub 1 1 27, asmClamp 1 1 0 19,
   asmSub 28 0 17, asmLdi 24 0x12, asmDiv 24 28 24, asmExp 24 24, asmLdi 25 0x14, asmDiv 25 28 25, asmExp 25 25,
   asmLdi 26 2, asmLds 2 1, asmLdi 28 0x11, asmMul 28 28 26, asmSub 2 2 28, asmFma 2 24 2 28,
   asmLds 3 2, asmLdi 28 0x13, asmMul 28 28 26, asmSub 3 3 28, asmFma 3 25 3 28,
   asmPar 28 1, asmAbs 27 27, asmMul 27 27 28, asmSub 27 0 27, asmExp 27 27,
   asmLds 4 3, asmAdd 4 4 23, asmMul 4 27 4, asmSub 4 4 23]

/-- P3: the voltage and the current are valid and the voltage is neither skewed nor of an identification frame (R282
item 2). No anchor is taken yet. -/
def spValid : List Word := [asmClr 3, asmClr 2, asmClr 5] ++ asmUnless 6 (asmIf 0 (asmIf 1 [asmSet 3]))

/-- |I_MEAN| lies below REST_I x C (P1) and below RELAX_I x C (P7), with C the capacity word in A s per hour (R285,
R286). -/
def spIdle : List Word :=
  [asmAbs 23 26] ++ asmFull 28 0x3991A2B4 ++ [asmMul 28 15 28, asmPar 29 9, asmMul 29 29 28, asmCmp 2 1 23 29,
   asmPar 29 11, asmMul 29 29 28, asmCmp 2 7 23 29]

/-- A frame with a valid voltage enters the sums of the fit (R286), F5 to F14: n, the sums of ea (F30), eb (F31), ea ea,
ea eb, eb eb, v, v ea, v eb and v v, with v the voltage above the interval's first one. -/
def spFitSums : List Word :=
  [asmLdi 20 0, asmCmp 0 0 5 0] ++ asmIf 0 [asmSts 34 20] ++
    [asmLds 21 34, asmSub 20 20 21, asmAdd 5 5 19, asmAdd 6 6 30, asmAdd 7 7 31, asmFma 8 30 30 8, asmFma 9 30 31 9,
     asmFma 10 31 31 10, asmAdd 11 11 20, asmFma 12 20 30 12, asmFma 13 20 31 13, asmFma 14 20 20 14]

/-- The least-squares fit of V_inf, A and B by elimination (R286): V_inf in F23, the sum of squared residuals in F14, the
pivots in F8 and F10. -/
def spFit : List Word :=
  [asmHalf 26 0xBC00, asmDiv 20 26 5, asmMul 21 6 20, asmMul 22 7 20, asmFma 8 21 6 8, asmFma 9 22 6 9, asmFma 10 22 7 10,
   asmFma 12 21 11 12, asmFma 13 22 11 13, asmMul 23 11 20, asmFma 14 23 11 14,
   asmDiv 28 26 8, asmMul 29 9 28, asmFma 10 29 9 10, asmFma 13 29 12 13, asmMul 28 12 28, asmFma 14 28 12 14,
   asmDiv 30 26 10, asmMul 31 13 30, asmFma 14 31 13 14,
   asmFma 28 29 31 28, asmFma 23 21 28 23, asmFma 23 22 31 23, asmLds 30 34, asmSub 23 30 23]

/-- The fit is taken as a relaxation anchor (P5) when it exists, its rms residual is RELAX_RES or less and Z_CONF is 1 or
more (R286). -/
def spFitTest : List Word :=
  spFit ++ [asmCmp 4 7 10 0] ++ asmIf 7 [asmCmp 4 7 8 0] ++
    asmIf 7 [asmPar 30 17, asmMul 30 30 30, asmMul 30 30 5, asmCmp 3 7 14 30] ++
    asmIf 7 [asmLdi 30 0x15, asmCmp 5 7 30 19] ++ asmIf 7 [asmSts 34 23, asmSet 5]

/-- t_relax, and the sums and the fit of the first RELAX_T of an interval (R286): at most one anchor in each. P7: the
current lies below the threshold. -/
def spRelax : List Word :=
  [asmLds 26 16, asmAdd 28 26 17, asmSel 28 7 28 0, asmSts 16 28, asmPar 29 12, asmCmp 2 6 26 29] ++
    asmIf 7 (asmIf 6 ([asmCmp 0 7 26 0, asmLds 30 35, asmLds 31 36, asmSel 30 7 19 30, asmSel 31 7 19 31, asmMul 30 30 24,
        asmMul 31 31 25, asmSts 35 30, asmSts 36 31] ++
      asmUnless 7 ((List.range 10).map fun k => asmLds (5 + k) (17 + k)) ++ asmIf 3 spFitSums ++
      ((List.range 10).map fun k => asmSts (17 + k) (5 + k)) ++ [asmCmp 5 7 28 29] ++ asmIf 7 spFitTest))

/-- The covariance is predicted with F = diag(1, a, b, g) and the process noise (R282 item 1). -/
def spCovariance : List Word :=
  ((List.range 10).map fun k => asmLds (5 + k) (4 + k)) ++
    [asmPar 28 4, asmMul 28 28 28, asmFma 5 28 17 5, asmMul 6 6 24, asmMul 7 7 25, asmMul 8 8 27,
     asmMul 9 9 24, asmMul 9 9 24, asmPar 28 5, asmMul 28 28 28, asmFma 9 28 17 9,
     asmMul 10 10 24, asmMul 10 10 25, asmMul 11 11 24, asmMul 11 11 27,
     asmMul 12 12 25, asmMul 12 12 25, asmPar 28 6, asmMul 28 28 28, asmFma 12 28 17 12,
     asmMul 13 13 25, asmMul 13 13 27,
     asmMul 14 14 27, asmMul 14 14 27, asmPar 28 7, asmMul 28 28 28, asmFma 14 28 17 14]

/-- M (F20) and OCV (F21) at the state in hand. -/
def spLookup : List Word := [asmTbl 20 1 1 16, asmTbl 21 0 1 16]

/-- The modelled voltage of the frame, in F29 and slot 1, and Rs in slot 5 (R279, R281). -/
def spVoltage : List Word :=
  spLookup ++
    [asmFma 29 20 4 21, asmSub 29 29 2, asmSub 29 29 3, asmLdi 30 0x10, asmOut 5 30, asmLdi 31 1, asmMul 30 30 31,
     asmSub 29 29 30, asmOut 1 29]

/-- H_z = s + h m_s in F22, from the table values at z + 0.005 and z - 0.005; a hundred times the difference (R282
item 3). -/
def spSlope : List Word :=
  asmFull 23 0x3BA3D70A ++
    [asmAdd 24 1 23, asmSub 25 1 23, asmTbl 26 0 24 16, asmTbl 27 0 25 16, asmSub 26 26 27,
     asmTbl 27 1 24 16, asmTbl 28 1 25 16, asmSub 27 27 28, asmHalf 23 0x5640, asmMul 26 26 23, asmMul 27 27 23,
     asmFma 22 4 27 26]

/-- z stays within 0 to 1 and h within -1 to 1 after an update (R279 slot 0, R281). -/
def spBounds : List Word := [asmClamp 1 1 0 19, asmHalf 30 0xBC00, asmClamp 4 4 30 19]

/-- The covariance entry Fd takes -K times the entry `j` of P Ht, with -K in F30. -/
def spDown (d j : Nat) : Word := asmFma d 30 j d

/-- The measurement variance in F30 (R282 item 4, R285): SIG_V and SIG_SUBST, or SIG_REST while a rest anchor's updates are
under way (P7). -/
def spVariance : List Word :=
  [asmPar 30 2, asmPar 31 3, asmSel 31 4 31 0, asmLds 23 33, asmCmp 4 7 23 0, asmPar 23 14, asmSel 30 7 23 30,
   asmSel 31 7 0 31, asmMul 30 30 30, asmFma 30 31 31 30]

/-- The state and the covariance take an applied innovation e (F23), with P Ht in F24 to F27 and S in F28; F28 and F31
become -1 / S and -e (R282 item 6). -/
def spApply : List Word :=
  [asmOut 2 23, asmHalf 30 0xBC00, asmDiv 28 30 28, asmSub 31 0 23,
   asmMul 30 24 28, asmFma 1 30 31 1, spDown 5 24, spDown 6 25, spDown 7 26, spDown 8 27,
   asmMul 30 25 28, asmFma 2 30 31 2, spDown 9 25, spDown 10 26, spDown 11 27,
   asmMul 30 26 28, asmFma 3 30 31 3, spDown 12 26, spDown 13 27,
   asmMul 30 27 28, asmFma 4 30 31 4, spDown 14 27]

/-- The measurement update (R282 items 2 to 6): P Ht, S, e and the gate (P0), which a rest anchor's updates do not have
(R285), and the count of those updates, whose last one takes the rest anchor. -/
def spUpdate : List Word :=
  spVariance ++
    [asmMul 24 22 5, asmSub 24 24 6, asmSub 24 24 7, asmFma 24 20 8 24,
     asmMul 25 22 6, asmSub 25 25 9, asmSub 25 25 10, asmFma 25 20 11 25,
     asmMul 26 22 7, asmSub 26 26 10, asmSub 26 26 12, asmFma 26 20 13 26,
     asmMul 27 22 8, asmSub 27 27 11, asmSub 27 27 13, asmFma 27 20 14 27,
     asmFma 28 22 24 30, asmSub 28 28 25, asmSub 28 28 26, asmFma 28 20 27 28,
     asmLdi 23 0, asmSub 23 23 29,
     asmPar 31 8, asmMul 31 31 31, asmMul 31 31 28, asmMul 30 23 23, asmCmp 3 0 30 31] ++
    asmIf 7 [asmSet 0] ++ asmIf 0 spApply ++
    asmIf 7 [asmLds 31 33, asmSub 31 31 19, asmSts 33 31, asmCmp 0 2 31 0]

/-- The update of z and h by V_inf with H = [s + h m_s, 0, 0, M] and R = RELAX_W x SIG_REST squared (R286); Va and Vb
stay. -/
def spRelaxUpdate : List Word :=
  spLookup ++
    [asmLds 29 34, asmFma 23 20 4 21, asmSub 31 23 29, asmMul 24 22 5, asmFma 24 20 8 24, asmMul 25 22 6, asmFma 25 20 11 25,
     asmMul 26 22 7, asmFma 26 20 13 26, asmMul 27 22 8, asmFma 27 20 14 27,
     asmPar 30 14, asmMul 30 30 30, asmPar 28 13, asmMul 28 30 28, asmFma 28 22 24 28, asmFma 28 20 27 28,
     asmHalf 30 0xBC00, asmDiv 28 30 28,
     asmMul 30 24 28, asmFma 1 30 31 1, spDown 5 24, spDown 6 25, spDown 7 26, spDown 8 27,
     asmMul 30 27 28, asmFma 4 30 31 4, spDown 14 27, spDown 11 25, spDown 13 26]

/-- t_rest, and what a rest anchor does when it applies (R285): Va and Vb are 0, their variances SIG_V squared, and the
next eight updates are the anchor's. -/
def spRest : List Word :=
  [asmLds 26 15, asmAdd 26 26 17, asmSel 26 1 26 0, asmSts 15 26,
   asmLds 27 31, asmAdd 27 27 17, asmSel 27 1 27 0, asmPar 28 10, asmCmp 5 7 27 28] ++
    asmIf 7 [asmSub 27 27 28, asmSel 2 7 0 0, asmSel 3 7 0 0, asmPar 29 2, asmMul 29 29 29, asmSel 9 7 29 0,
      asmSel 12 7 29 0, asmHalf 29 0x4800, asmSts 33 29] ++ [asmSts 31 27]

/-- The capacity update of an anchor (R287), with q_anc in F23 and z of the last anchor in F26. -/
def spCapacity : List Word :=
  [asmSub 28 26 1, asmAbs 29 28, asmPar 30 15, asmCmp 5 6 29 30] ++
    asmIf 6 ([asmDiv 29 23 28, asmSub 29 29 15, asmPar 30 16, asmFma 15 30 29 15, asmLdi 30 7, asmHalf 31 0x6B08,
      asmMul 30 30 31, asmHalf 31 0x3800, asmMul 31 31 30] ++ asmFull 29 0x3F99999A ++
      [asmMul 30 29 30, asmClamp 15 15 31 30])

/-- The charge and the time since the last anchor, and what an anchor resets (R283, R287): words 27 to 30, 32 and slots 10
and 11. The time is held in whole seconds and a part of one. -/
def spAnchor : List Word :=
  [asmLds 23 28, asmAdd 23 23 18, asmLds 24 29, asmLds 25 32, asmAdd 25 25 17, asmTrunc 26 25, asmAdd 24 24 26,
   asmSub 25 25 26, asmLds 26 27, asmLds 27 30, asmHalf 28 0x4000, asmSel 28 5 28 0, asmSel 28 2 19 28, asmCmp 1 7 28 0,
   asmSel 27 7 28 27] ++
    asmIf 7 (spCapacity ++ [asmSel 26 7 1 0, asmSel 23 7 0 0, asmSel 24 7 0 0, asmSel 25 7 0 0]) ++
    [asmSts 28 23, asmSts 29 24, asmSts 32 25, asmSts 27 26, asmSts 30 27, asmAdd 24 24 25, asmOut 10 24, asmOut 11 27]

/-- The state block and the slots take the state of the step (R279, R282 item 7). -/
def spOutputs : List Word :=
  ((List.range 15).map fun k => asmSts k (k + 1)) ++ spLookup ++
    [asmMul 22 20 4, asmOut 0 1, asmMax 23 5 0, asmSqrt 23 23, asmOut 3 23, asmHalf 23 0x6B08, asmDiv 24 15 23, asmOut 4 24,
     asmOut 6 21, asmOut 7 2, asmOut 8 3, asmOut 9 22]

/-- The Sprout step program (R281 to R287). A step whose cell has no SoC and no valid voltage ends at once. -/
def sproutWords : List Word :=
  spFirst ++
    asmUnless 7 (spPredict ++ spValid ++ spIdle ++ spRelax ++ spCovariance ++ spVoltage ++ spSlope ++ asmIf 3 spUpdate ++
      asmIf 5 spRelaxUpdate ++ spBounds ++ spRest ++ spAnchor ++ spOutputs) ++ [0]

end Sys2Proof.Machine
end

