-- ==== Sys2Proof/Machine/Sprout.lean ====
section
/-! DEFINITION. Sprout (chapter 3): the limits of each chemistry, the topology derived at enumeration, the
current and capacity basis, and the sections and the netlist built from them (R76 to R85, R218, R307, R641). -/

namespace Sys2Proof.Machine

/-- The chemistry values of R79: voltages in 100 uV, temperatures in 0.01 degC. -/
structure ChemLim where
  vMin : Nat
  vMax : Nat
  tDisMin : Int
  tDisMax : Int
  tChgMin : Int
  tChgMax : Int
  balVmin : Nat
  balDelta : Nat
  pvMin : Nat
  pvMax : Nat
  ptMin : Int
  ptMax : Int
  deriving DecidableEq, Repr

/-- The Sprout limits by chemistry strap (R79). -/
def chemLim (chem : Nat) : ChemLim :=
  match chem with
  | 0 => { vMin := 25000, vMax := 36500, tDisMin := -2000, tDisMax := 6000, tChgMin := 0, tChgMax := 4500
           balVmin := 34000, balDelta := 50, pvMin := 26000, pvMax := 36000, ptMin := -3000, ptMax := 5500 }
  | 1 => { vMin := 30000, vMax := 42000, tDisMin := -2000, tDisMax := 5500, tChgMin := 0, tChgMax := 4500
           balVmin := 37000, balDelta := 100, pvMin := 31000, pvMax := 41500, ptMin := -3000, ptMax := 5500 }
  | 2 => { vMin := 16000, vMax := 28000, tDisMin := -3000, tDisMax := 6000, tChgMin := -2000, tChgMax := 5000
           balVmin := 23000, balDelta := 100, pvMin := 17000, pvMax := 27500, ptMin := -3000, ptMax := 5500 }
  | _ => { vMin := 20000, vMax := 36000, tDisMin := 0, tDisMax := 4500, tChgMin := 0, tChgMax := 4500
           balVmin := 36000, balDelta := 100, pvMin := 21000, pvMax := 35500, ptMin := 0, ptMax := 4500 }

/-! ## Derived topology -/

/-- What the derivation of R77 has found so far: strings and node entries, the run of cell nodes in hand, the
next cell index, and the positions that are not configured. -/
structure SproutAcc where
  strs : List TopoStr := []
  nodes : List TopoNode := []
  run : List (Nat × Nat) := []
  nextC : Nat := 0
  un : List (Nat × Nat) := []

/-- The node entries of a run of cell nodes (position, mask) of string `i`, from cell index `c` (R77). -/
def runEntries (r i : Nat) : Nat → List (Nat × Nat) → List TopoNode × Nat
  | c, [] => ([], c)
  | c, (p, m) :: rest =>
    let y := runEntries r i (c + (inputs m).length) rest
    ({ ring := r, pos := p, string := i, kind := 1, mask := m, firstC := c } :: y.1, y.2)

/-- One node of ring `r` enters the derivation (R77). -/
def sproutNode (r : Nat) (a : SproutAcc) (pn : Nat × Node) : SproutAcc :=
  if pn.2.kind = 1 then { a with run := a.run ++ [(pn.1, pn.2.mask.toNat)] }
  else if pn.2.kind = 2 then
    let i := a.strs.length
    if a.run.isEmpty || i ≥ 4 then { a with run := [], un := a.un ++ a.run.map (fun x => (r, x.1)) ++ [(r, pn.1)] }
    else
      let y := runEntries r i a.nextC a.run
      let sn : TopoNode := { ring := r, pos := pn.1, string := i, kind := 2, mask := 0, firstC := 0 }
      let st : TopoStr := { s := i, cells := y.2 - a.nextC, capNom := 0, snRing := r, snPos := pn.1 }
      { a with strs := a.strs ++ [st], nodes := a.nodes ++ y.1 ++ [sn], run := [], nextC := y.2 }
  else a

/-- The nodes of one ring enter the derivation; a run that no string node ends is not configured (R77). -/
def sproutRing (s : State) (a : SproutAcc) (r : Nat) : SproutAcc :=
  let b := (ringOf s r).nodes.foldl (sproutNode r) a
  { b with run := [], un := b.un ++ b.run.map fun x => (r, x.1) }

/-- The derivation over both rings, RING0 first (R77). -/
def sproutDerive (s : State) : SproutAcc := [0, 1].foldl (sproutRing s) {}

/-! ## Current and capacity basis -/

/-- The persistent record of the cell at input `k` of the node with this UID (R430). -/
def recFor (recs : Tab CellRec) (uid : BitVec 64) (k : Nat) : Option CellRec :=
  (recs.find? fun cr => cr.2.uid == uid && cr.2.k == k && uid != 0).map (·.2)

/-- The capacity in mAh that a record of a Sprout program estimates: PERSIST word 14, in A s (R268, R306). -/
def recCap (chem : Nat) (x : CellRec) : Option Nat :=
  if x.persistOk && x.progId == Config.sproutId chem then
    let q := toRat (x.persist.getD 3 0)
    if q ≤ 0 then none else some (roundRat (q * 1000 / 3600)).toNat
  else none

/-- The lowest of the capacities when every cell has one. -/
def minAll : List (Option Nat) → Option Nat
  | [] => none
  | [x] => x
  | x :: xs => match x, minAll xs with
    | some a, some b => some (min a b)
    | _, _ => none

/-- Sources 1 to 3 of R78 for string `i` of a topology: charge and discharge limit in mA, and C in mAh. -/
def sproutBasis (s : State) (t : TopoCfg) (i : Nat) : Nat × Nat × Nat :=
  let saved := match nvRead s 3 with
    | some (.limitSave l) => l.getD i (0, 0, 0)
    | _ => (0, 0, 0)
  if saved.1 ≠ 0 then (saved.2.1, saved.2.2, saved.1) else
  let recs := match nvRead s 6 with
    | some (.cellRec r) => r
    | _ => []
  let caps := (t.nodes.filter fun n => n.string == i && n.kind == 1).flatMap fun n =>
    (inputs n.mask).map fun k => (recFor recs (nodeOf s n.ring n.pos).uid k).bind (recCap s.sys.chem)
  match minAll caps with
  | some c => (c / 2, c / 2, c)
  | none => (10000, 10000, 20000)

/-- The topology in force under Sprout, with its basis C as CAP_NOM (R77, R78). -/
def sproutTopo (s : State) : TopoCfg :=
  let a := sproutDerive s
  let used (r : Nat) : Nat := b2n (a.nodes.any (·.ring == r))
  let t : TopoCfg := { strings := a.strs, rings := used 0 + 2 * used 1, nCells := a.nextC, nodes := a.nodes }
  { t with strings := t.strings.map fun e => { e with capNom := (sproutBasis s t e.s).2.2 } }

/-- The bases of the four strings of a topology. -/
def sproutBases (s : State) (t : TopoCfg) : List (Nat × Nat × Nat) :=
  (List.range 4).map fun i => if t.strings.any (·.s == i) then sproutBasis s t i else (0, 0, 0)

/-! ## Sections -/

/-- The Sprout ACQ of a chemistry (R79, R80, R81). -/
def sproutAcq (chem : Nat) : AcqCfg :=
  let l := chemLim chem
  { mode := if chem = 3 then 0x08000000 else 0
    pvMin := l.pvMin, pvMax := l.pvMax, ptMin := l.ptMin, ptMax := l.ptMax
    balDelta := l.balDelta, balVmin := l.balVmin }

/-- The Sprout DRV of a topology (R81). -/
def sproutDrv (t : TopoCfg) : List DrvCfg := t.strings.map fun e => { s := e.s }

/-- The parameter set of the Sprout EST (R284, R307). -/
def sproutParams (chem : Nat) : List Word :=
  let g : Word := if chem = 1 then 0x41000000 else if chem = 2 then 0x40A00000 else 0x41A00000
  [0x3F7FBE77, g, 0x3B03126F, 0x3CCCCCCD, 0x37A7C5AC, 0x38D1B717, 0x3851B717, 0x3A83126F, 0x40800000, 0x3C23D70A,
   0x44E10000, 0x3CA3D70A, 0x42700000, 0x40800000, 0x3A83126F, 0x3E4CCCCD, 0x3E800000, 0x3B03126F] ++
    List.replicate 46 0

/-- The Sprout EST of a chemistry for the bases of its strings (R307). -/
def sproutEst (chem : Nat) (bases : List (Nat × Nat × Nat)) : EstCfg :=
  let l := chemLim chem
  { vEmpty := l.pvMin, vFull := l.pvMax
    tDisMin := l.tDisMin, tDisMax := l.tDisMax, tChgMin := l.tChgMin, tChgMax := l.tChgMax
    lim := bases.map fun b => { iDis := b.2.1, iChg := b.1 }
    pset := [sproutParams chem] }

/-- The base values of the Sprout priors (R641): RS, RA (mOhm Ah), TA (s), RB, TB. -/
def priorBase (chem : Nat) : Nat × Nat × Nat × Nat × Nat :=
  if chem = 1 then (90, 45, 6, 55, 70) else if chem = 2 then (50, 25, 5, 30, 60) else (72, 40, 8, 50, 90)

/-- F_T of R641. -/
def priorFT : List Rat := [6, 3, 18/10, 13/10, 1, 85/100, 75/100, 7/10]

/-- F_S of R641. -/
def priorFS : List Rat := [2, 15/10, 12/10, 1, 1, 1, 1, 1, 1, 1, 11/10, 125/100]

/-- The Sprout prior table (R641). -/
def sproutPrior (chem : Nat) : List Prior :=
  let b := priorBase chem
  priorFT.flatMap fun ft => priorFS.map fun fs =>
    { rs := rat16 (b.1 * ft * fs), ra := rat16 (b.2.1 * ft * fs), ta := rat16 b.2.2.1
      rb := rat16 (b.2.2.2.1 * ft * fs), tb := rat16 b.2.2.2.2 }

/-- The Sprout WIN of a chemistry (R341, R641). -/
def sproutWin (chem : Nat) : WinCfg := { prior := sproutPrior chem }

/-- The Sprout REC (R81). -/
def sproutRec : RecCfg := {}

/-- The Sprout HOST (R81): sources 0 to 31 to IRQ0_n, 96 to 127 to IRQ1_n, every source to EVENT frames. -/
def sproutHost : HostCfg :=
  { irqMap := [0x55555555, 0x55555555, 0, 0, 0, 0, 0xAAAAAAAA, 0xAAAAAAAA]
    evtMap := List.replicate 4 0xFFFFFFFF }

/-- The Sprout SEC (R81). -/
def sproutSec : SecCfg := {}

/-- The INIT values of the Sprout program (R268, R282): word 0 -1, word 4 1/16, words 8 and 11 0.0001, word 13 1. -/
def sproutInit : List Word :=
  (List.range 64).map fun w =>
    if w = 0 then 0xBF800000 else if w = 4 then 0x3D800000 else if w = 8 || w = 11 then 0x38D1B717
    else if w = 13 then 0x3F800000 else 0

/-- The Sprout program of a chemistry, none for the conservative setting (R76, R80, R271, R283). -/
def sproutProg (chem : Nat) : List Prog :=
  if chem = 3 then []
  else [{ id := Config.sproutId chem, live := 0, wNs := stepNs (sproutWords.map (·.toNat)), persist := [0, 3, 4, 14, 27, 28, 29, 30]
          tabs := [0, 1, 2], init := sproutInit, words := sproutWords }]

/-- The Sprout tables of a chemistry: OCV and M over SoC and temperature, and SoC over voltage and temperature (R281,
R283). The grids and values are mask ROM contents that the spec does not list (Assumption 4). -/
def sproutTabs (chem : Nat) : List KTable :=
  if chem = 3 then []
  else
    let l := chemLim chem
    let grid (i : Nat) (x0 dx : Word) : KTable :=
      { id := i, nx := 21, ny := 11, x0 := x0, dx := dx, y0 := 0xC2200000, dy := 0x41200000, vals := Config.sproutTable chem i }
    [grid 0 0 0x3D4CCCCD, grid 1 0 0x3D4CCCCD, grid 2 (ofRat ((l.vMin : Rat) / 10000)) (ofRat (((l.vMax - l.vMin : Nat) : Rat) / 200000))]

/-! ## Sprout netlist -/

/-- The limits entry of string `i` (R218): N_UV and N_OV take the cell voltage range, GRACE is 5 s. -/
def sproutLimit (chem : Nat) (b : Nat × Nat × Nat) (conf : Bool) : HLimit :=
  let l := chemLim chem
  if conf then { en := true, vMin := l.vMin, vMax := l.vMax, nUv := l.vMin, nOv := l.vMax, grace := 500
                 iHi := 3 * b.2.1, iLo := -(3 * (b.1 : Int)) }
  else {}

/-- The seven slots of string `i` (R79, R218). -/
def sproutSlots (chem i c : Nat) : List HSlot :=
  let l := chemLim chem
  [{ meas := 0x3000 + i, above := true, missTrip := false, thr := l.tDisMax, hyst := 200, qual := 3 },
   { meas := 0x4000 + i, above := false, missTrip := false, thr := l.tDisMin, hyst := 200, qual := 3 },
   { meas := 0x3000 + i, above := true, missTrip := false, thr := l.tChgMax, hyst := 200, qual := 3 },
   { meas := 0x4000 + i, above := false, missTrip := false, thr := l.tChgMin, hyst := 200, qual := 3 },
   { meas := 0x5000 + i, above := false, missTrip := false, thr := -((c / 50 : Nat) : Int), hyst := c / 100, qual := 3 },
   { meas := 0x8000 + i, above := false, missTrip := false, thr := 100, hyst := 10, qual := 1 },
   { meas := 0x8000 + i, above := false, missTrip := false, thr := 500, hyst := 50, qual := 1 }]

/-- The timers of string `i`, the `k`-th configured one: ISO for 1 s and 10 s (R218), KEY off for 1 s, a
pulse from a failed close, and a pulse from a T0 or T1 trip (R84). -/
def sproutTimers (i k : Nat) : List HTimer :=
  [{ count := 1, unit := 3, mode := 0, src := 0x800 + 7 * k + 5 },
   { count := 10, unit := 3, mode := 0, src := 0x800 + 7 * k + 6 },
   { count := 1, unit := 3, mode := 1, src := 0xB00 },
   { count := 1, unit := 0, mode := 2, src := 0x960 + 4 * i },
   { count := 1, unit := 0, mode := 2, src := 0xB30 + i }]

/-- The truth table of a CEL cell set by input a and reset by b and a both 0. -/
def celHold : BitVec 16 := 0x11AA

/-- The truth table of a CEL cell set by a and b both 1 and reset by b at 0. -/
def celBoth : BitVec 16 := 0x3388

/-- The husk cells of string `i`, the `k`-th configured one, after `prev` (R84, R218). Cell 0: since a T0 or T1 trip KEY
has not been inactive for 1 s. Cell 1: a close failed in this KEY cycle. Cell 2: the string before it closes, has failed
or cannot close. Cells 3 and 4: the close start. Cell 5: the open start. Cell 6: charging outside the charge range. Cell
7: the string waits for a KEY cycle or stands tripped. Cell 8: the strings before it have had their turn in this KEY
cycle. -/
def sproutCells (i k : Nat) (prev : Option Nat) : List HCell :=
  let b := 9 * k
  let t := 0x900 + 5 * k
  let v := 0x800 + 7 * k
  let none' := 0xFFE
  let before : HCell := match prev with
    | none => { tt := 0xFEFF, init := false, mode := 0, a := 0xFFF, b := 0xFFF, c := 0xFFF, d := 0xFFF }
    | some j => { tt := 0xFEFF, init := false, mode := 0, a := 0xB10 + j, b := b - 9 + 1, c := b - 9 + 7, d := 0xB04 + j }
  [{ tt := celHold, init := false, mode := 2, a := t + 4, b := t + 2, c := none', d := none' },
   { tt := celHold, init := false, mode := 2, a := t + 3, b := 0xB00, c := none', d := none' },
   before,
   { tt := 0x0020, init := false, mode := 0, a := 0xB00, b := 0x943 + 4 * i, c := 0xB04 + i, d := 0xB30 + i },
   { tt := 0x0008, init := false, mode := 0, a := b + 3, b := b + 8, c := b + 7, d := b + 1 },
   { tt := 0x0004, init := false, mode := 0, a := 0xB00, b := 0xB10 + i, c := none', d := none' },
   { tt := 0x00A8, init := false, mode := 0, a := v + 4, b := v + 2, c := v + 3, d := none' },
   { tt := 0x000E, init := false, mode := 0, a := b, b := 0xB30 + i, c := none', d := none' },
   { tt := celBoth, init := false, mode := 2, a := b + 2, b := 0xB00, c := none', d := none' }]

/-- A binding of the Sprout netlist. -/
def bind (src func arg : Nat) : HOut := { src := src, func := func, arg := arg, code := 0 }

/-- The output bindings of string `i`, the `k`-th configured one (R84, R218). -/
def sproutOuts (t : TopoCfg) (i k : Nat) : List HOut :=
  let own := t.nodes.filter (·.string == i)
  let alarms := own.flatMap fun n =>
    let a := 0xA00 + 112 * n.ring + 2 * (n.pos - 1)
    [bind a 2 i, bind (a + 1) 2 i]
  let rings := ([0, 1].filter fun r => own.any (·.ring == r)).map fun r => bind (0xAE0 + r) 2 i
  alarms ++ rings ++
    [bind (0x800 + 7 * k) 2 i, bind (0x800 + 7 * k + 1) 2 i, bind (9 * k + 6) 2 i, bind 0xB02 2 i, bind 0xB03 2 i,
     bind (0xB20 + 3 * i) 2 i, bind (0xB21 + 3 * i) 2 i, bind (0xB22 + 3 * i) 2 i, bind (0x900 + 5 * k) 3 i,
     { src := 0x900 + 5 * k + 1, func := 4, arg := 0, code := 0x0287 },
     bind (9 * k + 4) 6 (4 * i), bind (9 * k + 5) 6 (4 * i + 1)]

/-- The Sprout netlist for a topology and the bases of its strings (R77, R84, R218). Assumption 10. -/
def sproutNet (chem : Nat) (t : TopoCfg) (bases : List (Nat × Nat × Nat)) : Netlist :=
  let is := t.strings.map (·.s)
  let lim := (List.range 4).map fun i => sproutLimit chem (bases.getD i (0, 0, 0)) (is.contains i)
  { limits := lim
    slots := is.flatMap fun i => sproutSlots chem i (bases.getD i (0, 0, 0)).2.2
    timers := (is.zipIdx).flatMap fun ik => sproutTimers ik.1 ik.2
    cells := (is.zipIdx).flatMap fun ik => sproutCells ik.1 ik.2 (if ik.2 = 0 then none else some (is.getD (ik.2 - 1) 0))
    outs := (is.zipIdx).flatMap fun ik => sproutOuts t ik.1 ik.2 }

/-- The limits entries before any image is selected (R210): those of Sprout for the latched CHEM. -/
def startLimits (s : State) : List HLimit :=
  (List.range 4).map fun i => sproutLimit s.sys.chem (sproutBasis s {} i) true

/-! ## Loading -/

/-- The configuration that Sprout gives for the topology derived now (R76 to R81); KPROG and its group map put
every cell in group 0. -/
def sproutCfg (s : State) : Cfg :=
  let chem := s.sys.chem
  let t := sproutTopo s
  let bases := sproutBases s t
  { topo := t, acq := sproutAcq chem, drv := sproutDrv t
    prog := sproutProg chem
    gmap := if chem = 3 then List.replicate t.nCells 0xFF else List.replicate t.nCells 0
    tabs := sproutTabs chem, est := sproutEst chem bases, win := sproutWin chem, recd := sproutRec
    host := sproutHost, sec := sproutSec, basis := bases, seq := 0, build := 0 }

/-- The unassigned nodes `un` of ring `r` are recorded once (R77). -/
def unassigned (un : List (Nat × Nat)) (s : State) (r : Nat) : State :=
  match un.filter (·.1 == r) with
  | [] => s
  | x :: xs => emit 0x0405 (le 1 r ++ le 1 x.2 ++ le 1 (xs.length + 1) ++ le 1 0) s r

/-- The positions that a derivation leaves out are recorded for ring `r`: the ring enumerated, or one of whose nodes loses
its string by it (R113). -/
def unassignedNew (un : List (Nat × Nat)) (s : State) (r : Nat) : Bool :=
  un.any fun x => x.1 == r && (nodeOf s r x.2).string.isSome

/-- The topology is derived by the enumeration of ring `r0` under Sprout (R77, R215): the sections that depend on it and
the Sprout netlist load again, and the positions it leaves out are recorded by ring. -/
def sproutLoad (r0 : Nat) (s : State) : State :=
  let c := sproutCfg s
  let un := (sproutDerive s).un
  let s1 := { s with cfg.topo := c.topo, cfg.drv := c.drv, cfg.gmap := c.gmap, cfg.basis := c.basis
                     cfg.est.lim := c.est.lim }
  let s2 := netChange (sproutNet s.sys.chem c.topo c.basis) s1
  ([0, 1].filter fun r => r == r0 || unassignedNew un s r).foldl (unassigned un) s2

end Sys2Proof.Machine
end

