-- ==== Sys2Proof/Machine/Ring.lean ====
section
/-! DEFINITION. The Parac ring (chapter 4): enumeration, collection, alarms, addressed exchanges, delays, node
loss, live insertion and authentication. -/

namespace Sys2Proof.Machine

/-! ## Frames (R97, R98) -/

/-- A frame between SOF and EOF (R97): TYPE, SEQ, LEN and HCRC, then the payload. -/
def ringFrame (type seq : Nat) (payload : List Byte) : List Byte :=
  let h := le 1 type ++ le 1 seq ++ le 2 payload.length
  h ++ le 2 (crc16 h).toNat ++ payload

/-- A slot as the master sends it (R98): POS and SLEN, every data byte 0xFF, and the complement of that fill's CRC. -/
def slotEmpty (seq p len : Nat) : List Byte :=
  let b := le 1 p ++ le 1 len ++ List.replicate (len - 4) 0xFF#8
  b ++ le 2 (~~~crc16 (le 1 seq ++ b)).toNat

/-- SEQ of the frames sent in this frame (R97). -/
def seqNow (s : State) : Nat := s.time.frm.toNat % 256

/-- A frame leaves a port of ring `r`. -/
def ringTx (r : Nat) (portB : Bool) (bytes : List Byte) (s : State) : State :=
  modRing s r fun x => if portB then { x with txB := bytes } else { x with txA := bytes }

/-- A frame leaves both ports of ring `r`. -/
def ringTxBoth (r type : Nat) (payload : List Byte) (s : State) : State :=
  let f := ringFrame type (seqNow s) payload
  modRing s r fun x => { x with txA := f, txB := f }

/-- An error is counted at a port (R95, R133). -/
def portErr (r : Nat) (portB : Bool) (s : State) : State :=
  modRing s r fun x =>
    if portB then { x with errB := sat 32 (x.errB + 1) } else { x with errA := sat 32 (x.errA + 1) }

/-- A slot's CRC verifies for the frame's SEQ (R98, R99). -/
def slotOk (frm : Word) (len : Nat) (bs : List Byte) : Bool :=
  bs.length == len && fld bs 1 1 == len && decide (len ≥ 4) &&
    fld bs (len - 2) 2 == (crc16 (le 1 (frm.toNat % 256) ++ bs.take (len - 2))).toNat

/-- The gap for MGMT frames (R103): after COMMAND, and up to 10 us before the next boundary. -/
def mgmtGap (s : State) : Bool :=
  !s.sys.frameOpen && (!s.sys.run.acq || decide (s.time.tns + 10000 ≤ s.sys.t0 + period s))

/-! ## Reach of the nodes -/

/-- The number of nodes that hold positions (R132 N_ENUM). -/
def nodeCount (s : State) (r : Nat) : Nat := (positions s r).length

/-- B_FIRST as a bound: a ring on which port B reaches no node has it above every position. -/
def bFirstOf (x : Ring) : Nat := if x.bFirst = 0 then 64 else x.bFirst

/-- The nearer port of a node, by its measured delays (R106). -/
def nearerB (n : Node) : Bool := decide (n.dB < n.dA)

/-- A node's reach by port, its reference port and SKEWED, from the break registers (R106, R117). -/
def nodeReach (x : Ring) (p : Nat) (n : Node) : Node :=
  let a := x.breaks == 0 || decide (p ≤ x.aLast)
  let b := x.breaks == 0 || decide (p ≥ bFirstOf x)
  let refB := if a && b then nearerB n else b && !a
  let d := if refB then n.dB else n.dA
  { n with reachA := a, reachB := b, refB := refB, skewed := decide (d > 4900) || n.skewFault }

/-- The nodes, the counts per port and the state of a ring follow its break registers (R117, R132). -/
def reach (r : Nat) (s : State) : State :=
  let x := ringOf s r
  let s1 := (positions s r).foldl (fun s p => modNode s r p (nodeReach x p)) s
  let cnt (f : Node → Bool) := ((ringOf s1 r).nodes.filter fun pn => f pn.2).length
  modRing s1 r fun y =>
    { y with
      nA := cnt (·.reachA)
      nB := cnt (·.reachB) + y.unplaced
      state := if !y.inService then y.state
               else if y.breaks = 0 then .whole else if y.breaks = 1 then .wrapped else .broken2 }

/-- The offset for an input whose delay is `d` (R104, R106): 100 ns above 4,900 ns, also for an input that is not the
reference, which takes over when the reference is lost (R106 speaks of the reference; DESIGN CHOICE, assumption 74). -/
def ofsOf (d : Nat) : Nat := if d > 4900 then 100 else 5000 - d

/-- The offset in use (R134 OFS). -/
def ofsInUse (n : Node) : Nat := if n.refB then n.ofsCCW else n.ofsCW

/-- The delay that 16 ECHO exchanges give (R105): the mean of (RTT - T_TURN) / 2, to the nearest ns (R105 gives no
rounding; DESIGN CHOICE, assumption 75); none without 16 replies. -/
def echoDelay (tTurn : Nat) (rtts : List Nat) : Option Nat :=
  if rtts.length = 16 then
    some (sat 16 (roundDiv (rtts.foldl (fun a r => a + (Int.ofNat r - Int.ofNat tTurn)) 0) 32).toNat)
  else none

/-- Twice the cross-check error of a node reached by both ports (R105). -/
def skewErr2 (n : Node) (dA dB lCW lCCW : Nat) : Int := 2 * ((dA : Int) + n.hp + dB) - (lCW + lCCW)

/-- The cross-check of R105, where both ports reach the node and the loop is whole. -/
def skewOf (n : Node) (a b : Option Nat) (loop : Option (Nat × Nat)) : Option Int := match a, b, loop with
  | some dA, some dB, some l => some (skewErr2 n dA dB l.1 l.2)
  | _, _, _ => none

/-- N_CFG as it is to be (R121, R123): BAL_TO and the nearer port as the reference. -/
def cfgData (s : State) (n : Node) : List Byte := le 4 (at' 16 s.cfg.acq.tBalTo + b2n (nearerB n))

/-- N_CFG is written to a node. -/
def cfgPush (r p : Nat) (s : State) : State :=
  mgmtPush r { pos := p, write := true, addr := 0x18, n := 4, data := cfgData s (nodeOf s r p) } s

/-- N_CFG is written to every node (R123). -/
def cfgWrite (s : State) : State :=
  [0, 1].foldl (fun s r => (positions s r).foldl (fun s p => cfgPush r p s) s) s

/-- The offsets last written to a node. -/
def ofsWritten (n : Node) : Nat × Nat := n.ofsReq.getD (n.ofsCW, n.ofsCCW)

/-- A TRIG passes: offsets written before it apply (R108). -/
def ofsApply (n : Node) : Node := match n.ofsReq with
  | some w => { n with ofsCW := w.1, ofsCCW := w.2, ofsReq := none }
  | none => n

/-- The offsets that a node's measured delays ask for; the input of a port that has not measured it keeps its own. -/
def ofsWant (n : Node) (a b : Option Nat) : Nat × Nat :=
  ((a.map ofsOf).getD (ofsWritten n).1, (b.map ofsOf).getD (ofsWritten n).2)

/-- A node's measured delays are taken (R104 to R106): those of the ports that reach it; SKEW_FAULT when the cross-check
fails. -/
def takeDelay (r p : Nat) (a b : Option Nat) (loop : Option (Nat × Nat)) (s : State) : State :=
  let e2 := skewOf (nodeOf s r p) a b loop
  let bad := decide (absI (e2.getD 0) > 40)
  let s1 := emitIf bad 0x040B (leI 4 (roundDiv (e2.getD 0) 2) ++ le 1 r ++ le 1 p ++ le 2 0) s r
  modNode s1 r p fun n =>
    nodeReach (ringOf s r) p { n with dA := a.getD n.dA, dB := b.getD n.dB, skewFault := bad }

/-- A running ring's node is written what its new delays ask for: an offset that changed by more than 5 ns (R108), and
N_CFG when its nearer port has changed. -/
def delayWrites (r p : Nat) (old : Node) (a b : Option Nat) (s : State) : State :=
  let w := ofsWritten old
  let want := ofsWant old a b
  let moved := decide (absI ((want.1 : Int) - w.1) > 5 ∨ absI ((want.2 : Int) - w.2) > 5)
  let s1 := if moved then
      mgmtPush r { pos := p, write := true, addr := 0x14, n := 4, data := le 2 want.1 ++ le 2 want.2 } s
    else s
  if nearerB (nodeOf s r p) != nearerB old then cfgPush r p s1 else s1

/-- The loop delays and SKEW_RISK (R105, R106), where the loop is whole. -/
def takeLoop (r : Nat) (loop : Option (Nat × Nat)) (s : State) : State := match loop with
  | some (lCW, lCCW) =>
    modRing s r fun x => { x with lCW := lCW, lCCW := lCCW, skewRisk := decide (lCW > 4900 ∨ lCCW > 4900) }
  | none => s

/-- N_THRESH of a cell node from the limits block in force (R109, R215). -/
def threshOf (s : State) (n : Node) : Option (Nat × Nat) :=
  if n.kind = 1 then n.string.map fun i => ((s.husk.net.limits.getD i {}).nOv, (s.husk.net.limits.getD i {}).nUv)
  else none

/-- The thresholds of the cell node at position `p` of ring `r` are written to it (R109, R215). -/
def threshNode (r : Nat) (s : State) (p : Nat) : State := match threshOf s (nodeOf s r p) with
  | some t => mgmtPush r { pos := p, write := true, addr := 0x1C, n := 4, data := le 2 t.2 ++ le 2 t.1 } s
  | none => s

/-- The node thresholds of the limits block are written to every cell node (R109, R215). -/
def threshWrite (s : State) : State :=
  [0, 1].foldl (fun s r => (positions s r).foldl (threshNode r) s) s

/-- NETLIST_LOAD (R215): the netlist load in progress completes. Slots, timers, user sequencers and LATCH and CEL cells are
reset, trip latches, comparator latches and HUSK_CAUSE are kept, and the node thresholds and comparator codes of the new
limits block apply from here. -/
def execNetlistLoad (s : State) : Host.Outcome State Fault Refusal :=
  .next (settle (if s.husk.loading then
      { threshWrite (allThresholds (loadNet s.husk.net s.husk.nlSrc s)) with husk.loading := false }
    else s))

/-- What enumeration and live insertion write to a node (R112 step 5, R119 step 4, R139): N_OFS, N_CFG, N_THRESH and N_ACQ
hold their values when the step is done. -/
def nodeSetup (s : State) (a b : Option Nat) (n : Node) : Node :=
  { n with
    ofsCW := (ofsWant n a b).1
    ofsCCW := (ofsWant n a b).2
    ofsReq := none
    balTo := s.cfg.acq.tBalTo
    cfgRef := nearerB n
    thr := (threshOf s n).getD n.thr
    acqOk := true
    acqMode := bits (modeSoon s) 17 16
    comp := false
    acqReq := none
    balFault := false }

/-- The delays of the nodes named are measured and their registers written. -/
def measureNodes (r : Nat) (loop : Option (Nat × Nat)) (ms : List DelayMeas) (s : State) : State :=
  ms.foldl (fun s m =>
    let n := nodeOf s r m.pos
    if n.kind = 0 then s
    else
      let a := echoDelay n.tTurn m.rttA
      let b := echoDelay n.tTurn m.rttB
      let s1 := takeDelay r m.pos a b loop s
      modNode s1 r m.pos (nodeSetup s1 a b)) s

/-! ## Topology of the nodes -/

/-- The TOPO entry of a ring position for the checks of enumeration: that of the image which a cold activation loads
(R60), else of the image in force. -/
def topoEntry (s : State) (r p : Nat) : Option TopoNode :=
  (s.img.topoNext.getD s.cfg.topo).nodes.find? fun n => n.ring == r && n.pos == p

/-- A node takes the string and the first cell of its TOPO entry when KIND and CELL_MASK agree (R113). -/
def nodeAssign (s : State) (r p : Nat) (n : Node) : Node :=
  match topoEntry s r p with
  | some t => if n.kind = t.kind ∧ n.mask.toNat = t.mask then { n with string := some t.string, firstC := t.firstC }
      else { n with string := none, firstC := 0 }
  | none => { n with string := none, firstC := 0 }

/-- The nodes of ring `r` take their configuration from TOPO (R113). -/
def assignRing (r : Nat) (s : State) : State :=
  (positions s r).foldl (fun s p => modNode s r p (nodeAssign s r p)) s

/-- The node at position `p` of ring `r` is compared with its TOPO entry, when it has one (R113). -/
def topoCheckNode (r : Nat) (s : State) (p : Nat) : State :=
  match topoEntry s r p with
  | some t =>
    let n := nodeOf s r p
    emitIf (n.kind != t.kind || n.mask.toNat != t.mask) 0x0404
      (le 1 r ++ le 1 p ++ le 1 n.kind ++ le 1 0 ++ le 2 n.mask.toNat ++ le 2 t.mask) s r
  | none => s

/-- The topology check of R113 on ring `r` under an image: each differing node is recorded, and the nodes without
an entry once together. -/
def topoCheck (r : Nat) (s : State) : State :=
  let s1 := (positions s r).foldl (topoCheckNode r) s
  match (positions s r).filter fun p => (topoEntry s r p).isNone with
  | [] => s1
  | p :: ps => emit 0x0405 (le 1 r ++ le 1 p ++ le 1 (ps.length + 1) ++ le 1 0) s1 r

/-- Some node of ring `r` differs from its TOPO entry (R113). -/
def topoDiffers (s : State) (r : Nat) : Bool :=
  (positions s r).any fun p => match topoEntry s r p with
    | some t => (nodeOf s r p).kind != t.kind || (nodeOf s r p).mask.toNat != t.mask
    | none => false

/-! ## Enumeration -/

/-- What enumeration or live insertion reads from a node (R112, R121). -/
structure NodeDesc where
  /-- N_POS.POS, 0 when the node was reached from port B only -/
  pos : Nat
  /-- N_POS.QPOS -/
  qpos : Nat
  /-- N_UID -/
  uid : BitVec 64
  /-- N_DESC.KIND -/
  kind : Nat
  /-- N_DESC h_p, ns -/
  hp : Nat
  /-- N_DESC.CELL_MASK -/
  mask : BitVec 16
  /-- N_TIMING.T_TURN, ns -/
  tTurn : Nat
  deriving DecidableEq, Repr

/-- The registers 0x00 to 0x10 of a node (R121): N_UID_LO, N_UID_HI, N_DESC, N_TIMING and N_POS. -/
def descOf (b : List Byte) : NodeDesc :=
  { pos := fld b 16 1, qpos := fld b 17 1, uid := BitVec.ofNat 64 (fld b 0 8), kind := fld b 11 1, hp := fld b 10 1
    mask := BitVec.ofNat 16 (fld b 8 2), tTurn := fld b 14 2 }

/-- The node at a position as its registers describe it (R112 step 4). -/
def nodeOfDesc (d : NodeDesc) : Node :=
  { uid := d.uid, kind := d.kind, mask := d.mask, hp := d.hp, tTurn := d.tTurn, qpos := d.qpos }

/-- What an enumeration needs runs (R11): the core, the trust block and TREF, which serves it before step 5 ends. -/
def enumMay (s : State) : Bool := s.sys.run.core && s.sys.run.trust && !s.time.trefBad

/-- RING_START (R112 step 1): WAKE from both ports, then IDLE; the nodes lock and clear POS. It runs on a ring
that is off or failed, that an enumeration was asked for, or whose steps 1 to 4 are repeated. -/
def execRingStart (r : Nat) (s : State) : Host.Outcome State Fault Refusal :=
  let x := ringOf s r
  let again := x.state == .waking && x.enumStep == 0
  let ok := enumMay s && s.img.selected && decide (r < 2) && (x.state == .off || x.enumReq || again) &&
    x.state != .sleeping
  .next (if !ok then s else
    settle (modRing s r fun x =>
      { x with
        state := .waking
        enumReq := false
        inService := false
        nodes := []
        nA := 0
        nB := 0
        aLast := 0
        bFirst := 0
        breaks := 0
        alarmCnt := 0
        enumErr := if again then x.enumErr else false
        enumStep := 1
        enumTries := if again then x.enumTries else 0
        thinA := false
        thinB := false
        unplaced := 0
        mgmt := []
        liveStep := 0
        collected := false }))

/-- ENUM_TOKEN_A (R112 step 2): the token from port A gives the nodes their positions; it arrives at port B with
the count, or returns to port A through a wrap. -/
def execEnumTokenA (r count : Nat) (returned : Bool) (s : State) : Host.Outcome State Fault Refusal :=
  .next (if (ringOf s r).enumStep = 1 then
      modRing s r fun x => { x with state := .enumerating, enumStep := 2, cntA := count % 256, tokA := returned }
    else s)

/-- ENUM_TOKEN_B (R112 step 3): the token from port B sets QPOS. -/
def execEnumTokenB (r count : Nat) (s : State) : Host.Outcome State Fault Refusal :=
  .next (if (ringOf s r).enumStep = 2 then modRing s r fun x => { x with enumStep := 3, cntB := count % 256 } else s)

/-- The ring fails its enumeration (R112, R113). -/
def enumFail (r cause : Nat) (s : State) : State :=
  let x := ringOf s r
  settle (modRing (emit 0x0402 (le 1 r ++ le 1 cause ++ le 1 x.cntA ++ le 1 x.cntB) s r) r fun x =>
    { x with state := .failed, enumErr := true, enumStep := 0, nodes := [] })

/-- The first check of R112 that a whole ring fails: 1 count above 56, 2 counts differ, 3 position check. -/
def enumCause (x : Ring) (ds : List NodeDesc) : Nat :=
  if x.cntA > 56 then 1 else if x.cntA ≠ x.cntB then 2
  else if ds.all fun d => d.pos + d.qpos == x.cntA + 1 then 0 else 3

/-- The UIDs that RING_MAP holds for ring `r`, by position (R114). -/
def ringMap (s : State) (r : Nat) : List (BitVec 64) :=
  let saved := match nvRead s 5 with
    | some (.ringMap m) => m.getD r []
    | _ => []
  if (ringOf s r).mapUid.isEmpty then saved else (ringOf s r).mapUid

/-- The positions of the nodes of a broken ring (R114), and whether the nodes from port B could be placed. -/
def brokenPlaces (s : State) (r : Nat) (ds : List NodeDesc) : List (Nat × NodeDesc) × Bool :=
  let fromA := (ds.filter fun d => decide (d.pos ≠ 0)).map fun d => (d.pos, d)
  let fromB := ds.filter fun d => d.pos == 0
  let map := ringMap s r
  let nr := map.length
  let ok := decide (nr ≠ 0 ∧ fromA.length + fromB.length ≤ nr) &&
    fromB.all fun d => decide (1 ≤ d.qpos ∧ d.qpos ≤ nr) && map.getD (nr - d.qpos) 0 == d.uid
  (fromA ++ (if ok then fromB.map fun d => (nr + 1 - d.qpos, d) else []), ok)

/-- The nodes of a ring, put at their positions. -/
def putNodes (r : Nat) (ps : List (Nat × NodeDesc)) (s : State) : State :=
  ps.foldl (fun s pd => setNode s r pd.1 (nodeOfDesc pd.2)) s

/-- The break registers after an enumeration (R114, R133). A whole ring has no break. On a broken one, one break
leaves the last node from port A next to the first from port B. Assumption 11. -/
def enumBreaks (r a b nr : Nat) (whole : Bool) (s : State) : State :=
  if whole then s
  else
    let first := if b = 0 then 0 else nr + 1 - b
    let brk := if b = 0 || a + b = nr then 1 else 2
    modRing (emit 0x0400 (le 1 r ++ le 1 a ++ le 1 first ++ le 1 brk) s r) r fun x =>
      { x with aLast := a, bFirst := first, breaks := brk }

/-- The configured nodes and topology of a ring that has been read: the derivation under Sprout (R77), the check
under an image (R113). -/
def enumTopo (r : Nat) (s : State) : State :=
  if sproutRuns s && s.img.topoNext.isNone then
    let s1 := sproutLoad r s
    assignRing 1 (assignRing 0 s1)
  else assignRing r (topoCheck r s)

/-- A complete enumeration that passes R113 is kept for RING_MAP (R114). -/
def enumMap (r : Nat) (complete : Bool) (s : State) : State :=
  if complete && !topoDiffers s r then
    nvQueue 5 (modRing s r fun x => { x with mapUid := (positions s r).map fun p => (nodeOf s r p).uid })
  else s

/-- The nodes are placed and the topology is checked (R112 step 4 once its count and position checks pass). -/
def enumAccept (r : Nat) (ps : List (Nat × NodeDesc)) (whole placed : Bool) (a b nr : Nat) (s : State) : State :=
  let s1 := enumTopo r (putNodes r ps s)
  let s2 := if whole || placed then s1
    else modRing (emit 0x0403 (le 1 r ++ le 1 a ++ le 1 b ++ le 1 nr) s1 r) r fun x =>
      { x with enumErr := true, unplaced := b }
  let s3 := enumBreaks r a (if placed then b else 0) nr whole s2
  let s4 := enumMap r (whole || (placed && a + b == nr)) s3
  settle (reach r (modRing s4 r fun x => { x with enumStep := 4 }))

/-- ENUM_READ (R112 step 4, R113, R114): the registers of every node are read, the counts and positions are
checked with up to two repeats of steps 1 to 4, and the topology check runs. -/
def execEnumRead (r : Nat) (regs : List (List Byte)) (s : State) : Host.Outcome State Fault Refusal :=
  let x := ringOf s r
  let ds := regs.map descOf
  let whole := !x.tokA
  .next (if x.enumStep ≠ 3 then s
    else
      let cause := if whole then enumCause x ds else 0
      if cause ≠ 0 then
        if x.enumTries ≥ 2 then enumFail r cause s
        else modRing s r fun x => { x with state := .waking, enumStep := 0, enumTries := x.enumTries + 1 }
      else if (ds.filter fun d => d.kind == 1).length > 48 then enumFail r 4 s
      else if whole then enumAccept r (ds.map fun d => (d.pos, d)) true true x.cntA 0 0 s
      else
        let pl := brokenPlaces s r ds
        let a := (ds.filter fun d => decide (d.pos ≠ 0)).length
        enumAccept r pl.1 false pl.2 a (ds.length - a) (ringMap s r).length s)

/-- ENUM_MEASURE (R112 step 5): delays are measured, and N_OFS, N_CFG, N_THRESH and N_ACQ are written. -/
def execEnumMeasure (r : Nat) (loop : Option (Nat × Nat)) (ms : List DelayMeas) (s : State) :
    Host.Outcome State Fault Refusal :=
  .next (if (ringOf s r).enumStep ≠ 4 then s
    else
      let s1 := takeLoop r loop s
      let s2 := (positions s1 r).foldl (fun s p => modNode s r p (nodeSetup s none none)) s1
      let s3 := measureNodes r loop ms s2
      modRing s3 r fun x => { x with enumStep := 5, measPos := 0 })

/-! ## Authentication and pairing records -/

/-- The pod state that pairing records are checked against: the running ledger's, or that of the LEDGER object
(R436, R440). -/
def podNow (s : State) (i : Nat) : Pod :=
  if s.sys.run.ledger then podOf s.ledg.live i
  else match nvRead s 2 with
    | some (.ledger b) => podOf b i
    | _ => {}

/-- A tag of R125 under a pod key. -/
def nodeTag (s : State) (i p : Nat) (n : Node) : List Byte :=
  (hmac (podKey s i) (le 8 n.nonce.toNat ++ le 8 s.sec.mid.toNat ++ le 8 n.uid.toNat ++ le 1 i ++ le 1 p)).take 8

/-- A fresh nonce is written to a node (R125, R126). -/
def challenge (r p : Nat) (s : State) : State :=
  let f := takeFree s
  modNode f.2 r p fun n => { n with nonce := f.1, chalAt := s.time.tns, chalOut := true }

/-- The nonce of a new challenge is written in the next gap, and the tag read back no earlier than 2 ms later (R122,
R126). -/
def challengeGap (r p : Nat) (s : State) : State :=
  let s1 := challenge r p (modNode s r p fun n => { n with tagRx := none })
  mgmtPush r { pos := p, write := true, addr := 0x40, n := 8, data := le 8 (nodeOf s1 r p).nonce.toNat } s1

/-- The tag is right (R125, R527): with no pod key every challenge fails. -/
def tagOk (s : State) (r p : Nat) (tag : List Byte) : Bool :=
  let n := nodeOf s r p
  match n.string with
  | some i => !(podKey s i).isEmpty && tag == nodeTag s i p n
  | none => false

/-- A challenge passed: counted, and the node stands unless its pairing record made it foreign (R531, R538). -/
def authPass (r p : Nat) (s : State) : State :=
  modNode { s with sec.authPass := sat 16 (s.sec.authPass + 1) } r p fun n =>
    { n with chalOut := false, authFails := 0, failPend := false, auth := if n.pairBad then n.auth else .passed }

/-- SEC_KEY_ABSENT once per start-up for a string without a pod key whose nodes are challenged (R527). -/
def keyAbsent (i : Nat) (s : State) : State :=
  if (podKey s i).isEmpty && !s.sec.absent.getLsbD i then
    emit 0x0A86 (le 1 i ++ le 3 0) { s with sec.absent := setBit4 s.sec.absent i true }
  else s

/-- A node has failed its second challenge, on occasion `occ` (R126, R127, R532): it is foreign; a node of a
string that does not stand open keeps its standing after a periodic failure, and opens its string as T2 when
SEC.FOREIGN does not let it close. -/
def authFail (occ r p : Nat) (s : State) : State :=
  let n := nodeOf s r p
  match n.string with
  | none => s
  | some i =>
    let s1 := emit 0x0409 (le 1 r ++ le 1 p ++ le 1 i ++ le 1 occ ++ le 8 n.uid.toNat) s i
    let keeps := occ == 3 && !standsOpen s i && n.auth == .passed
    let s2 := modNode s1 r p fun n =>
      { n with chalOut := false, authFails := 0
               auth := if keeps then n.auth else foreignAuth s i
               failPend := keeps }
    if keeps && !s.cfg.sec.foreign.getLsbD i then tripSet [false, true] 2 i 0xF04 s2 else s2

/-- One failed challenge is counted (R538). -/
def countFail (s : State) : State := { s with sec.authFail := sat 16 (s.sec.authFail + 1) }

/-- Both challenges of one node at enumeration, live insertion or wake (R126). -/
def authNode (occ r : Nat) (s : State) (a : AuthResp) : State :=
  let n := nodeOf s r a.pos
  match n.string with
  | none => s
  | some i =>
    let s1 := challenge r a.pos (keyAbsent i (modNode s r a.pos fun n => { n with auth := .pending }))
    if tagOk s1 r a.pos a.tag1 then authPass r a.pos s1
    else
      let s2 := challenge r a.pos (countFail s1)
      if tagOk s2 r a.pos a.tag2 then authPass r a.pos s2 else authFail occ r a.pos (countFail s2)

/-- The current record is written to a node (R440): from the current pod block, or by a new pod checkpoint. -/
def pairRewrite (i r p : Nat) (s : State) : State :=
  let cur := (podNow s i).cur
  if !cur.isEmpty then pairWrite i cur (r, p) s
  else if s.sys.run.ledger then podAsk (setBit4 0 i true) s
  else { s with ledg.podWant := setBit4 s.ledg.podWant i true }

/-- A pairing record of this master's holds the pod's current checkpoint or the one before it (R440). -/
def podHolds (s : State) (i : Nat) (rec' : List Byte) : Bool :=
  let pod := podNow s i
  let seq := fld rec' 12 4
  let dig := (rec'.drop 16).take 32
  fld rec' 8 1 == i && (!pod.cur.isEmpty && seq == fld pod.cur 12 4 && dig == sha256 pod.cur ||
    !pod.prevDig.isEmpty && seq == pod.prevSeq && dig == pod.prevDig)

/-- The pairing record of one node is read and checked (R440, R531). -/
def pairCheck (r : Nat) (s : State) (a : AuthResp) : State :=
  let p := a.pos
  let n := nodeOf s r p
  match n.string with
  | none => s
  | some i =>
    let rec' := padTo 56 a.pair
    let good := !(podKey s i).isEmpty &&
      (rec'.drop 48) == (hmac (podKey s i) (rec'.take 48 ++ le 8 n.uid.toNat)).take 8
    let s1 := modNode s r p fun n => { n with pair := rec', pairBad := !good, podOk := false }
    if !good then
      modNode (emit 0x0A8B (le 1 r ++ le 1 p ++ le 1 i ++ le 1 0) s1 i) r p fun n => { n with auth := foreignAuth s i }
    else
      emitIf (fld rec' 0 8 == s.sec.mid.toNat && !podHolds s i rec') 0x0A89
        (le 4 (fld rec' 12 4) ++ le 1 r ++ le 1 p ++ le 1 i ++ le 1 0) s1

/-- A checked record is written anew (R440, R529): a blank one of a node that has passed, or this master's own that does
not hold the pod's checkpoint; in a pod in which no node names another master (R89). -/
def pairStale (s : State) (i r p : Nat) : Bool :=
  let n := nodeOf s r p
  let mid := fld n.pair 0 8
  !n.pairBad && !n.pair.isEmpty && !s.ledg.podForeign.getLsbD i &&
    (mid == 0 && n.auth == .passed || mid == s.sec.mid.toNat && !podHolds s i n.pair)

/-- The record of one checked node is written anew where it must be. -/
def pairMend (r : Nat) (s : State) (a : AuthResp) : State := match (nodeOf s r a.pos).string with
  | some i => if pairStale s i r a.pos then pairRewrite i r a.pos s else s
  | none => s

/-- The nodes of string `i` whose verified record names another MID (R440, R533). -/
def foreignNodes (s : State) (i : Nat) : List (Nat × Nat) :=
  (stringNodes s i).filter fun rp =>
    let n := nodeOf s rp.1 rp.2
    let mid := fld n.pair 0 8
    !n.pairBad && !n.pair.isEmpty && mid != 0 && mid != s.sec.mid.toNat

/-- A pod with foreign nodes is recorded once. -/
def podForeignOne (s : State) (i : Nat) : State :=
  match foreignNodes s i with
  | [] => s
  | x :: xs =>
    if s.ledg.podForeign.getLsbD i then s
    else emit 0x0A88 (le 1 i ++ le 1 (xs.length + 1) ++ le 2 0 ++ (nodeOf s x.1 x.2).pair.take 8)
      { s with ledg.podForeign := setBit4 s.ledg.podForeign i true }

/-- POD_FOREIGN_MASTER for each string with a node that names another MID (R89, R440). -/
def podForeignCheck (s : State) : State :=
  (strings s).foldl podForeignOne s

/-- Authentication and pairing records of the nodes named, on occasion `occ`: records are written anew only after all
have been checked for another master's (R89). -/
def authAll (occ r : Nat) (as : List AuthResp) (s : State) : State :=
  as.foldl (pairMend r) (podForeignCheck (as.foldl (pairCheck r) (as.foldl (authNode occ r) s)))

/-- ENUM_AUTHENTICATE (R112 step 6, R126): nonces are written, tags are read and compared, and pairing records are
read and checked. -/
def execEnumAuthenticate (r : Nat) (as : List AuthResp) (s : State) : Host.Outcome State Fault Refusal :=
  .next (if (ringOf s r).enumStep = 5 then
      settle (modRing (authAll 1 r as s) r fun x => { x with enumStep := 6 })
    else s)

/-- ENUM_FIRST_TRIG (R112 step 7): the ring takes part in the TRIG of the next frame boundary. -/
def execEnumFirstTrig (r : Nat) (s : State) : Host.Outcome State Fault Refusal :=
  .next (if (ringOf s r).enumStep = 6 then
      settle (reach r (modRing s r fun x => { x with enumStep := 7, inService := true }))
    else s)

/-- RINGn_CTRL.ENUM (R115): an enumeration is asked for when every string that has a node on the ring stands
open; those strings are at L0 while it runs. -/
def ringEnumRequest (r : Nat) (s : State) : State :=
  if (s.cfg.topo.nodes.filter (·.ring == r)).all fun t => standsOpen s t.string then
    settle (modRing s r fun x => { x with enumReq := true, inService := false })
  else s

/-- RINGn_CTRL.MEAS (R131): a full delay re-measurement starts. -/
def ringMeasRequest (r : Nat) (s : State) : State :=
  modRing s r fun x => { x with measLeft := x.nodes.length, measPos := 0 }

/-! ## Collection -/

/-- The collection serves a node (R97, R113, R118): it is configured, not lost, and not still to be unwrapped. -/
def served (s : State) (r p : Nat) : Bool :=
  let n := nodeOf s r p
  n.kind != 0 && n.string.isSome && !nodeOut n

/-- The nodes of one kind on one side of a wrapped ring, by port (R101). -/
def sideNodes (s : State) (r : Nat) (portB : Bool) (kind : Nat) : List Nat :=
  (positions s r).filter fun p =>
    let n := nodeOf s r p
    n.kind == kind && served s r p && (if portB then n.reachB && !n.reachA else n.reachA && !n.reachB)

/-- A side of a wrapped ring holds more slots than Fast mode collects (R101). -/
def sideThin (s : State) (r : Nat) (portB : Bool) : Bool :=
  acqMode s == 1 && (ringOf s r).breaks != 0 &&
    decide ((sideNodes s r portB 1).length > 24 ∨ (sideNodes s r portB 2).length > 4)

/-- A node sends in this frame (R101): one of a thinned side in frames of its ordinal's parity, ordinals counted from
1. -/
def thinTurn (s : State) (r p : Nat) : Bool :=
  let n := nodeOf s r p
  let side := n.reachB && !n.reachA
  !sideThin s r side || (((sideNodes s r side n.kind).filter (· < p)).length + 1) % 2 == s.time.frm.toNat % 2

/-- The slot of a node is due in this frame (R101, R138): an unconfirmed node's data does not count. -/
def slotDue (s : State) (r p : Nat) : Bool := (nodeOf s r p).acqOk && thinTurn s r p

/-- The node lies in the lower half of its kind (R101): the first half of the nodes served, the middle one included. -/
def lowerHalf (s : State) (r p : Nat) : Bool :=
  let xs := (positions s r).filter fun q => served s r q && (nodeOf s r q).kind == (nodeOf s r p).kind
  decide ((xs.filter (· < p)).length < (xs.length + 1) / 2)

/-- The nodes with a slot in the copy that leaves a port (R100, R101): every node; in Fast mode on a whole ring the lower
half in the copy from port B, which arrives at port A, and the others in that from port A; on a wrapped ring those that
the port still reaches. -/
def copyNodes (s : State) (r : Nat) (fromB : Bool) : List Nat :=
  let ps := (positions s r).filter (served s r)
  if acqMode s != 1 then ps
  else if (ringOf s r).breaks = 0 then ps.filter fun p => lowerHalf s r p == fromB
  else ps.filter fun p => (if fromB then (nodeOf s r p).reachB else (nodeOf s r p).reachA) && thinTurn s r p

/-- The length of a node's slot by kind and mode (R98). -/
def slotLen (kind mode : Nat) : Nat :=
  if kind = 1 then (if mode = 1 then 39 else 46) else if mode = 1 then 13 else 18

/-- The COLLECT frame that leaves a port (R97, R98): the slots of its copy, unfilled. -/
def collectFrame (s : State) (r : Nat) (fromB : Bool) : List Byte :=
  ringFrame 1 (seqNow s) ((copyNodes s r fromB).flatMap fun p =>
    slotEmpty (seqNow s) p (slotLen (nodeOf s r p).kind (acqMode s)))

/-- COLLECT_SEND (R100, R101): the COLLECT copies leave both ports; RING_FAST_THIN when a side comes to be thinned. -/
def execCollectSend (r : Nat) (s : State) : Host.Outcome State Fault Refusal :=
  .next (if !ringServes s r || !s.sys.frameOpen then s
    else
      let thinA := sideThin s r false
      let thinB := sideThin s r true
      let x := ringOf s r
      let pay (b : Bool) := le 1 r ++ le 1 (b2n b) ++ le 1 (sideNodes s r b 1).length ++ le 1 (sideNodes s r b 2).length
      let s1 := emitIf (thinA && !x.thinA) 0x040C (pay false) s r
      let s2 := emitIf (thinB && !x.thinB) 0x040C (pay true) s1 r
      modRing s2 r fun x => { x with
        collected := true, thinA := thinA, thinB := thinB
        txA := collectFrame s r false, txB := collectFrame s r true })

/-- `n` 16-bit fields from offset `off`. -/
def halves (bs : List Byte) (off n : Nat) : List Nat := (List.range n).map fun k => fld bs (off + 2 * k) 2

/-- The fields of a slot (R98); the temperature input of a Fast slot is FRM mod 4. -/
def slotData (kind mode : Nat) (frm : Word) (bs : List Byte) : SlotData :=
  let st := bs.getD 2 0
  if kind = 1 then
    if mode = 1 then
      { stat := st, v := halves bs 3 16, t := [(frm.toNat % 4, fldI bs 35 2)] }
    else
      { stat := st, die := some (fldI bs 3 1), v := halves bs 4 16
        t := (List.range 4).map fun k => (k, fldI bs (36 + 2 * k) 2) }
  else if mode = 1 then
    { stat := st, vPack := fld bs 3 2, vLink := fld bs 5 2, vPos := fldI bs 7 2, vNeg := fldI bs 9 2 }
  else
    { stat := st, die := some (fldI bs 3 1), vPack := fld bs 4 2, vLink := fld bs 6 2, vPos := fldI bs 8 2
      vNeg := fldI bs 10 2, iso := some (fld bs 12 2), aux := some (fld bs 14 1) }

/-- The segments that a slot shows broken, each by the position below it (R116, R117): a node that has lost its CCW input
is the last before the break, one that has lost its CW input the first behind it. So it is with the node at which a copy
turned that returns to the port it left; its position follows from the copy's round trip (R117 says only that the return
shows the break; DEDUCED, assumption 80). -/
def brokenSegs (p : Nat) (stat : Byte) (portB : Bool) (turn : Option Nat) : List Nat :=
  (if stat.getLsbD 3 then [p] else []) ++ (if stat.getLsbD 2 then [p - 1] else []) ++
    (match turn with
      | some t => [if portB then t - 1 else t]
      | none => [])

/-- Broken segments move the break registers (R117). The nodes' reach follows at the next boundary. -/
def breakSeen (r : Nat) (segs : List Nat) (s : State) : State :=
  let x := ringOf s r
  let a0 := if x.breaks = 0 then 64 else x.aLast
  let b0 := if x.breaks = 0 then 0 else bFirstOf x
  let a := segs.foldl min a0
  let b := (segs.map (· + 1)).foldl max b0
  if segs.isEmpty || decide (x.breaks ≠ 0 ∧ a = a0 ∧ b = b0) then s
  else
    let top := (positions s r).foldl max 0
    let first := if b > top then 0 else b
    let brk := if b = a + 1 then 1 else 2
    modRing (emit 0x0400 (le 1 r ++ le 1 a ++ le 1 first ++ le 1 brk) s r) r fun x =>
      { x with aLast := a, bFirst := first, breaks := brk }

/-- Alarm source of a node: kind 0 OV, 1 UV (R191). -/
def alarmIx (r p kind : Nat) : Nat := 112 * r + 2 * (p - 1) + kind

/-- Put a node alarm source. -/
def setAlarm (r p kind : Nat) (v : Bool) (s : State) : State :=
  { s with husk.alarm := Tab.set false s.husk.alarm (alarmIx r p kind) v }

/-- A node alarm source falls with the STAT bit of a valid slot clear (R192). -/
def alarmClear (r p : Nat) (stat : Byte) (s : State) : State :=
  let s1 := if stat.getLsbD 0 then s else setAlarm r p 0 false s
  if stat.getLsbD 1 then s1 else setAlarm r p 1 false s1

/-- A valid slot is taken (R99, R190). -/
def slotTake (r p : Nat) (portB : Bool) (turn : Option Nat) (d : SlotData) (s : State) : State :=
  let s1 := modNode s r p fun n =>
    { n with
      rxA := if portB then n.rxA else some d
      rxB := if portB then some d else n.rxB
      linkUp := d.stat.getLsbD 4
      die := if d.die.isSome then d.die else n.die
      dieAt := if d.die.isSome then s.time.tns else n.dieAt
      dieStale := if d.die.isSome then false else n.dieStale }
  settle (alarmClear r p d.stat (breakSeen r (brokenSegs p d.stat portB turn) s1))

/-- COLLECT_SLOT_RECEIVE (R95, R98, R99, R117): a slot arrives at a port of ring `r`. It is accepted when its CRC verifies
with the SEQ of the frame; any other, and one that names no node served, is counted as an error of the port, as is an
invalid code group on its own (no bytes). The slot of a thinned node does not count in its off frames (R101). -/
def execCollectSlotReceive (r : Nat) (portB : Bool) (bytes : List Byte) (turn : Option Nat) (s : State) :
    Host.Outcome State Fault Refusal :=
  let p := fld bytes 0 1
  let n := nodeOf s r p
  .next (if !ringServes s r || !(ringOf s r).collected && !bytes.isEmpty then s
    else if served s r p && slotOk s.time.frm (slotLen n.kind (acqMode s)) bytes then
      if thinTurn s r p then slotTake r p portB turn (slotData n.kind (acqMode s) s.time.frm bytes) s else s
    else settle (portErr r portB s))

/-- ALARM_RECEIVE (R110): a valid ALARM passes to Husk's alarm input for its ring, position and kind, or to the
ring-level input from a position that is not configured; ALARM_ACK goes into the next COMMAND. One whose third code group
is not the complement, or whose position is none of R9, is discarded and counted as an error. Kind 0b00, which R95 does
not define, is taken as valid and raises no source (DESIGN CHOICE, assumption 79). -/
def execAlarmReceive (r : Nat) (portB : Bool) (a na : Byte) (s : State) : Host.Outcome State Fault Refusal :=
  let p := a.toNat % 64
  let kind := a.toNat / 64
  .next (if na ≠ ~~~a || p = 0 || decide (56 < p) then portErr r portB s
    else
      let s1 := modRing s r fun x => { x with alarmCnt := sat 16 (x.alarmCnt + 1), alarmKind := kind, alarmPos := p }
      let n := nodeOf s r p
      let s2 := if n.kind = 0 then s1 else modNode s1 r p fun n => { n with alarmAck := true }
      settle (if n.string.isSome then
          let s3 := if kind % 2 = 1 then setAlarm r p 0 true s2 else s2
          if kind / 2 = 1 then setAlarm r p 1 true s3 else s3
        else
          let b := BitVec.ofNat 2 (2 ^ r)
          emit 0x040A (le 1 r ++ le 1 p ++ le 1 kind ++ le 1 0)
            { s2 with husk.ringAlarm := s2.husk.ringAlarm ||| b, husk.ringAlarmNew := s2.husk.ringAlarmNew ||| b } r))

/-! ## Addressed exchanges -/

/-- Compensated mode is in force (R146). -/
def compMode (s : State) : Bool := bits s.sys.modeAct 27 26 == 1

/-- The N_ACQ of a node is that of the modes in force (R138, R146). -/
def acqMatch (s : State) (n : Node) : Bool :=
  n.acqMode == acqMode s && n.comp == (n.kind == 1 && compMode s && n.coup.valid)

/-- Set N_ACQ of a node (R139, R146) from the frame whose FRM ends in `seq` on. -/
def acqWrite (r p : Nat) (mode : Nat) (comp : Bool) (seq : Nat) (s : State) : State :=
  mgmtPush r { pos := p, write := true, addr := 0x30, n := 4
               data := le 4 (at' 24 (seq % 256) + at' 3 (b2n comp) + mode) } s

/-- N_ACQ of a node takes effect (R140). -/
def nodeApply (s : State) (mode : Nat) (comp : Bool) (n : Node) : Node :=
  let m := { n with acqMode := mode, comp := comp, acqReq := none }
  { m with acqOk := n.acqOk || acqMatch s m }

/-- A write of N_ACQ is confirmed (R138): it applies from the TRIG whose sequence byte equals APPLY_SEQ, or at once when
that frame has begun. -/
def nodeConfirm (r p mode : Nat) (comp : Bool) (seq : Nat) (s : State) : State :=
  modNode s r p fun n =>
    if (s.time.frm.toNat + 256 - seq) % 256 < 128 then nodeApply s mode comp n
    else { n with acqReq := some (mode, comp, seq) }

/-- The request part of an MGMT frame (R103): DST, OP, ADDR, N, DATA of a WRITE, and a CRC-32C over them. -/
def mgmtRequest (m : Mgmt) : List Byte :=
  let b := le 1 m.pos ++ le 1 (if m.write then 2 else 1) ++ le 2 m.addr ++ le 2 m.n ++
    (if m.write then padTo m.n m.data else [])
  b ++ le 4 (crc32c b).toNat

/-- The bytes of a response area without its CRC (R103): RSTAT, a reserved byte, and DATA of a READ. -/
def mgmtArea (m : Mgmt) : Nat := 2 + (if m.write then 0 else m.n)

/-- The frame of a request (R97, R103): its response area goes out filled as a slot is, so that it fails its check until
the node fills it. Its CRC-16 covers RSTAT to DATA (R103 does not say how the area goes out and what its CRC covers;
DEDUCED, assumption 82). -/
def mgmtFrame (seq : Nat) (m : Mgmt) : List Byte :=
  let fill := List.replicate (mgmtArea m) 0xFF#8
  ringFrame 3 seq (mgmtRequest m ++ fill ++ le 2 (~~~crc16 fill).toNat)

/-- The response area has been filled: its CRC-16 verifies (R103). -/
def mgmtFilled (m : Mgmt) (resp : List Byte) : Bool :=
  resp.length == mgmtArea m + 2 && fld resp (mgmtArea m) 2 == (crc16 (resp.take (mgmtArea m))).toNat

/-- What a completed exchange does for its owner (R103, R108, R119, R121, R123, R126, R138, R139). -/
def mgmtDone (r : Nat) (m : Mgmt) (data : List Byte) (s : State) : State :=
  let on (f : Node → Node) : State := modNode s r m.pos f
  if m.write then
    match m.addr with
    | 0x14 => on fun n => { n with ofsReq := some (fld m.data 0 2, fld m.data 2 2) }
    | 0x18 => on fun n => { n with balTo := fld m.data 2 2, cfgRef := (m.data.getD 0 0).getLsbD 0 }
    | 0x1C => on fun n => { n with thr := (fld m.data 2 2, fld m.data 0 2) }
    | 0x20 => if (m.data.getD 0 0).getLsbD 0 then modRing s r fun x => { x with liveStep := if x.liveStep = 1 then 2 else x.liveStep }
        else s
    | 0x30 => nodeConfirm r m.pos (fld m.data 0 1 % 4) ((m.data.getD 0 0).getLsbD 3) (fld m.data 3 1) s
    | 0x40 => mgmtPush r { pos := m.pos, write := false, addr := 0x48, n := 8, due := s.time.tns + 2000000 } s
    | 0x80 => on fun n => { n with podOk := true, pair := m.data }
    | _ => s
  else match m.addr with
    | 0x28 => on fun n => { n with die := some (fldI data 0 1), dieAt := s.time.tns, dieStale := false }
    | 0x2C => on fun n =>
      { n with ow.stack := if fld data 3 1 = s.time.frm.toNat % 256 then some (fld data 0 3) else n.ow.stack }
    | 0x48 => on fun n => { n with tagRx := some data }
    | _ => s

/-- An exchange has failed three times (R103): NODE_MGMT_FAIL; a pod whose record could not be written stays pending
(R448), a tag that could not be read counts as absent (R126), and a probe that could not be asked for ends the
insertion. -/
def mgmtFail (r : Nat) (m : Mgmt) (rstat : Nat) (s : State) : State :=
  let s0 := if m.write && m.addr == 0x30 then mgmtPush r { m with tries := 0 } s else s
  let s1 := emit 0x040D (le 1 r ++ le 1 m.pos ++ le 1 (if m.write then 2 else 1) ++ le 1 rstat ++ le 2 m.addr ++ le 2 0) s0
  let s2 := if m.addr == 0x40 || m.addr == 0x48 then modNode s1 r m.pos fun n => { n with tagRx := some [] } else s1
  let s3 := if m.write && m.addr == 0x20 && (m.data.getD 0 0).getLsbD 0 then
      modRing s2 r fun x => { x with liveStep := if x.liveStep = 1 then 0 else x.liveStep }
    else s2
  match m.write && m.addr == 0x80, (nodeOf s r m.pos).string with
  | true, some i => podUnconfirmed i s3
  | _, _ => s3

/-- The first waiting request that may go out, and the others (R103). -/
def mgmtNext (now : Nat) : List Mgmt → Option (Mgmt × List Mgmt)
  | [] => none
  | m :: ms => if m.due ≤ now then some (m, ms) else (mgmtNext now ms).map fun y => (y.1, m :: y.2)

/-- MGMT_EXCHANGE (R103): the first request that may go out is sent in the gap, from the node's reference port (assumption 82), and its
response area comes back: at the other port of a whole ring, at the same one of a wrapped ring. A try that is not done,
unfilled or with an RSTAT other than 0 (R103 names the unfilled one; DESIGN CHOICE, assumption 76), is repeated in the next
gap, up to three tries. -/
def execMgmtExchange (r : Nat) (resp : List Byte) (s : State) : Host.Outcome State Fault Refusal :=
  let x := ringOf s r
  .next (if !x.inService || !mgmtGap s then s
    else match mgmtNext s.time.tns x.mgmt with
    | none => s
    | some (m, rest) =>
        let from' := (nodeOf s r m.pos).refB
        let s1 := ringTx r from' (mgmtFrame (seqNow s) m) (modRing s r fun x => { x with mgmt := rest })
        let filled := mgmtFilled m resp
        let s2 := if filled || resp.isEmpty then s1 else portErr r (from' != (x.breaks == 0)) s1
        let rstat := if filled then fld resp 0 1 else 0xFF
        settle (if rstat = 0 then mgmtDone r m ((resp.drop 2).take m.n) s2
          else if m.tries ≥ 2 then mgmtFail r m rstat s2
          else modRing s2 r fun x => { x with mgmt := { m with tries := m.tries + 1 } :: rest }))

/-- The next position after `p` that holds a node, wrapping (R108). -/
def nextPos (s : State) (r p : Nat) : Nat :=
  match (positions s r).filter (· > p) with
  | q :: _ => q
  | [] => (positions s r).headD 0

/-- DELAY_MEASUREMENT (R105, R108): the next node in turn is measured in the gap, one in each frame, by 16 ECHO exchanges
from each port that reaches it. -/
def execDelayMeasurement (r : Nat) (rttA rttB : List Nat) (loop : Option (Nat × Nat)) (s : State) :
    Host.Outcome State Fault Refusal :=
  let x := ringOf s r
  let p := nextPos s r x.measPos
  let n := nodeOf s r p
  .next (if !ringServes s r || n.kind == 0 || x.measured || !mgmtGap s then s
    else
      let a := echoDelay n.tTurn rttA
      let b := echoDelay n.tTurn rttB
      let s1 := delayWrites r p n a b (takeDelay r p a b loop (takeLoop r loop s))
      settle (modRing s1 r fun x => { x with measPos := p, measured := true, measLeft := x.measLeft - 1 }))

/-- NODE_LOST (R118): a configured node without a valid slot in 3 consecutive due frames is lost. -/
def execNodeLost (r p : Nat) (s : State) : Host.Outcome State Fault Refusal :=
  let n := nodeOf s r p
  .next (match n.string with
    | some i =>
      if n.kind ≠ 0 ∧ n.misses ≥ 3 ∧ !nodeOut n then
        settle (emit 0x0406 (le 1 r ++ le 1 p ++ le 1 i ++ le 1 0) (modNode s r p fun n => { n with lost := true }) i)
      else s
    | none => s)

/-! ## Live insertion -/

/-- LINK_UP (R119 step 2): the master writes N_CTRL.PROBE to the wrapped node at A_LAST, and the probe token runs. With
no node reached from port A there is none to write to, and no insertion starts (R119 is silent; DESIGN CHOICE,
assumption 78). -/
def execLinkUp (r : Nat) (s : State) : Host.Outcome State Fault Refusal :=
  let x := ringOf s r
  let up := x.nodes.any fun pn => pn.2.linkUp && (pn.1 == x.aLast || pn.1 == x.bFirst)
  .next (if ringServes s r && x.liveEn && x.breaks != 0 && decide (x.aLast ≥ 1) && x.liveStep == 0 && up then
      mgmtPush r { pos := x.aLast, write := true, addr := 0x20, n := 4, data := le 4 1 }
        (modRing s r fun x => { x with liveStep := 1 })
    else s)

/-- LIVE_INSERT_COUNT (R119 step 3, R120): the count of new nodes is what the token holds above A_LAST, as N_PROBE of the
node at B_FIRST gives it, or as it returned to port A; the acceptance rule applies. -/
def execLiveInsertCount (r n : Nat) (returned : Bool) (descs : List Word) (s : State) :
    Host.Outcome State Fault Refusal :=
  let x := ringOf s r
  let k := n - x.aLast
  let places := decide (x.aLast + k < bFirstOf x) || returned
  let fits := ((List.range k).all fun j => match topoNode s r (x.aLast + 1 + j), descs[j]? with
    | some t, some d => t.kind == bits d 31 24 && t.mask == bits d 15 0
    | _, _ => false)
  let s1 := if returned || x.bFirst = 0 then s else modNode s r x.bFirst fun y => { y with probe := n % 256 }
  .next (if x.liveStep ≠ 2 then s
    else if places && fits then
      modRing s1 r fun x => { x with liveStep := if k = 0 then 5 else 3, liveK := k, liveBack := returned }
    else emit 0x0408 (le 1 r ++ le 1 k ++ le 1 (if places then 2 else 1) ++ le 1 0)
      (modRing s1 r fun x => { x with liveStep := 0, liveK := 0 }) r)

/-- LIVE_INSERT_CONFIGURE (R119 step 4): descriptors are read, delays measured and N_OFS, N_CFG, N_THRESH and
N_ACQ written. The new nodes stay out of service until they are unwrapped. -/
def execLiveInsertConfigure (r : Nat) (regs : List (List Byte)) (ms : List DelayMeas) (s : State) :
    Host.Outcome State Fault Refusal :=
  let x := ringOf s r
  .next (if x.liveStep ≠ 3 then s
    else
      let new := (regs.map descOf).filter fun d => decide (x.aLast < d.pos ∧ d.pos ≤ x.aLast + x.liveK)
      let s1 := new.foldl (fun s d =>
        modNode (setNode s r d.pos (nodeAssign s r d.pos { nodeOfDesc d with fresh := true })) r d.pos
          (nodeSetup s none none)) s
      let s2 := measureNodes r none (ms.filter fun m => new.any (·.pos == m.pos)) s1
      settle (modRing s2 r fun x => { x with liveStep := 4 }))

/-- LIVE_INSERT_AUTHENTICATE (R119 step 5): the new nodes are authenticated and their pairing records checked. -/
def execLiveInsertAuthenticate (r : Nat) (as : List AuthResp) (s : State) : Host.Outcome State Fault Refusal :=
  let x := ringOf s r
  .next (if x.liveStep ≠ 4 then s
    else
      let new := as.filter fun a => decide (x.aLast < a.pos ∧ a.pos ≤ x.aLast + x.liveK)
      settle (modRing (authAll 2 r new s) r fun x => { x with liveStep := 5 }))

/-- NODE_INSERTED for the new node at a position, which is in service from now on (R119 step 6). -/
def insertNode (r : Nat) (s : State) (p : Nat) : State :=
  let n := nodeOf s r p
  match n.string with
  | some i =>
    if n.kind = 0 then s
    else emit 0x0407 (le 1 r ++ le 1 p ++ le 1 i ++ le 1 0 ++ le 8 n.uid.toNat)
      (modNode s r p fun n => { n with fresh := false, misses := 0, linkUp := false }) r
  | none => s

/-- The break is healed by the nodes up to `last` (R119, R120): the token met a wrapped node on its lost input, and no
position is missing before it. A token that returned to port A has met another break. -/
def healed (s : State) (r last : Nat) : Bool :=
  let x := ringOf s r
  !x.liveBack && decide (last + 1 = bFirstOf x ∨ (x.bFirst = 0 ∧ (positions s r).all (· ≤ last)))

/-- LIVE_INSERT_UNWRAP (R119 step 6): at the frame boundary N_CTRL.UNWRAP goes to the wrapped nodes with valid
neighbours, the new nodes are in service, and RING_HEAL is recorded when the ring is whole. -/
def execLiveInsertUnwrap (r : Nat) (s : State) : Host.Outcome State Fault Refusal :=
  let x := ringOf s r
  .next (if x.liveStep ≠ 5 || !atBoundary s then s
    else
      let s1 := (rangeFrom (x.aLast + 1) x.liveK).foldl (insertNode r) s
      let unwrap (p : Nat) (s : State) := if (nodeOf s r p).kind = 0 then s
        else mgmtPush r { pos := p, write := true, addr := 0x20, n := 4, data := le 4 2 }
          (modNode s r p fun n => { n with linkUp := false })
      let last := x.aLast + x.liveK
      let whole := healed s1 r last
      let s2 := if x.liveK = 0 && !whole then s1 else unwrap x.aLast s1
      let s3 := if whole then unwrap x.bFirst s2 else s2
      let s4 := modRing s3 r fun x =>
        { x with
          liveStep := 0
          liveK := 0
          liveBack := false
          aLast := if whole then 0 else last
          bFirst := if whole then 0 else x.bFirst
          breaks := if whole then 0 else x.breaks
          unplaced := if whole then 0 else x.unplaced }
      settle (reach r (emitIf whole 0x0401 (le 1 r ++ le 3 0) s4 r)))

/-! ## Periodic challenges -/

/-- NODE_CHALLENGE (R126): a fresh nonce is written to a node whose challenge period has passed. -/
def execNodeChallenge (r p : Nat) (s : State) : Host.Outcome State Fault Refusal :=
  let n := nodeOf s r p
  .next (match n.string with
    | some i =>
      if ringServes s r && !nodeOut n && !n.chalOut && decide (s.time.tns ≥ n.chalAt + s.cfg.sec.chalPeriod * nsPerSec)
      then challengeGap r p (keyAbsent i s) else s
    | none => s)

/-- NODE_TAG_CHECK (R126, R127): the tag that has been read is compared. A wrong or absent one is challenged again with a
new nonce, and a second failure makes the node foreign. -/
def execNodeTagCheck (r p : Nat) (s : State) : Host.Outcome State Fault Refusal :=
  let n := nodeOf s r p
  .next (match n.chalOut, n.tagRx with
    | true, some tag =>
      let s0 := modNode s r p fun n => { n with tagRx := none }
      settle (if tagOk s0 r p tag then authPass r p s0
        else
          let s1 := countFail s0
          if n.authFails = 0 then challengeGap r p (modNode s1 r p fun n => { n with authFails := 1 })
          else authFail 3 r p s1)
    | _, _ => s)

end Sys2Proof.Machine
end

