-- ==== Sys2Proof/Machine/Acq.lean ====
section
/-! DEFINITION. Cell acquisition and balancing (chapter 5): what a cut-off makes of the slots received, open-wire
tests, balancing, coupling identification and the COMMAND frame. -/

namespace Sys2Proof.Machine

/-! ## Slots of the frame -/

/-- The slot of a node used in this frame (R99): the copy of its reference port when both are valid. A lost node
and one whose N_ACQ is not confirmed bring none (R118, R138). -/
def nodeSlot (n : Node) : Option SlotData :=
  if nodeOut n || !n.acqOk then none
  else if n.refB then (match n.rxB with
    | some d => some d
    | none => n.rxA)
  else match n.rxA with
    | some d => some d
    | none => n.rxB

/-- The populated input below `k` that is its neighbour. -/
def lowerOf (ks : List Nat) (k : Nat) : Option Nat := (ks.filter (· < k)).getLast?

/-- The populated input above `k` that is its neighbour. -/
def upperOf (ks : List Nat) (k : Nat) : Option Nat := (ks.filter (· > k)).head?

/-- The neighbour pairs of a node, lower input first. -/
def pairsOf : List Nat → List (Nat × Nat)
  | a :: b :: rest => (a, b) :: pairsOf (b :: rest)
  | _ => []

/-- Wire `w` is the inner wire of the pair. -/
def wireOf (ab : Nat × Nat) (w : Nat) : Bool := decide (ab.1 < w ∧ w ≤ ab.2)

/-- The pair whose inner wire is `w`. -/
def innerPair (ks : List Nat) (w : Nat) : Option (Nat × Nat) := (pairsOf ks).find? fun ab => wireOf ab w

/-- The input on end wire `w`. -/
def endInput (ks : List Nat) (w : Nat) : Option Nat :=
  match ks.head?, ks.getLast? with
  | some a, some b => if w = a then some a else if w = b + 1 then some b else none
  | _, _ => none

/-- The pair that holds input `k` and has a confirmed inner break (R156). -/
def brokenPair (ks : List Nat) (n : Node) (k : Nat) : Option (Nat × Nat) :=
  (pairsOf ks).find? fun ab => (ab.1 == k || ab.2 == k) && n.ow.broken.any (wireOf ab)

/-- The pair that holds input `k` and is under suspect (R153). -/
def suspectPair (ks : List Nat) (n : Node) (k : Nat) : Option (Nat × Nat) :=
  (pairsOf ks).find? fun ab => (ab.1 == k || ab.2 == k) && n.ow.suspect.any (·.1 == ab.1)

/-- Input `k` lies on a broken end wire (R156). -/
def endBroken (ks : List Nat) (n : Node) (k : Nat) : Bool := n.ow.broken.any fun w => endInput ks w == some k

/-- The pair that holds input `k` and whose inner wire is a candidate (R155). -/
def candPair (ks : List Nat) (n : Node) (k : Nat) : Option (Nat × Nat) :=
  (pairsOf ks).find? fun ab => (ab.1 == k || ab.2 == k) && n.ow.cand.any (wireOf ab)

/-- Input `k` lies on a candidate wire (R155). -/
def onCand (ks : List Nat) (n : Node) (k : Nat) : Bool :=
  n.ow.cand.any fun w => endInput ks w == some k || (match innerPair ks w with
    | some ab => ab.1 == k || ab.2 == k
    | none => false)

/-! ## Suspects -/

/-- The moves of a node's inputs since their last valid values, 100 uV; an input never received has none. -/
def movesOf (s : State) (t : TopoNode) (v : List Nat) : List (Nat × Int) :=
  (nodeCells t).filterMap fun ck =>
    let x := cellAcq s ck.1
    if x.vGot then some (ck.2, (v.getD ck.2 0 : Int) - x.vMeas) else none

/-- Two neighbours have moved by 20 mV or more in opposite directions, with a sum within 5 mV (R153). -/
def oppose (a b : Int) : Bool := decide (absI a ≥ 200 ∧ absI b ≥ 200 ∧ a * b < 0 ∧ absI (a + b) ≤ 50)

/-- The suspects and the lone mover of a node in this frame (R153, R154), and whether it is tested at once. -/
def suspectMark (s : State) (t : TopoNode) (v : List Nat) (n : Node) : Node :=
  let ks := inputs t.mask
  let mv := movesOf s t v
  let move (k : Nat) : Int := ((mv.find? (·.1 == k)).map (·.2)).getD 0
  let new := (pairsOf ks).filter fun ab =>
    oppose (move ab.1) (move ab.2) && (brokenPair ks n ab.1 != some ab) && !(n.ow.suspect.any (·.1 == ab.1))
  let far := mv.filter fun km => decide (absI km.2 ≥ 200)
  let lone := match far with
    | [km] => if new.any fun ab => ab.1 == km.1 || ab.2 == km.1 then none else some km
    | _ => none
  let odd := ks.any fun k => v.getD k 0 == 0 || v.getD k 0 == 0xFFFF
  { n with
    ow.suspect := n.ow.suspect ++ new.map fun ab => (ab.1, decide (move ab.1 > 0))
    ow.moved := if lone.isSome then lone else n.ow.moved
    ow.want := n.ow.want || !new.isEmpty
    ow.now := n.ow.now || odd }

/-! ## Values -/

/-- A computed cell voltage as the record holds it, a uint16 of 100 uV (R7). What stands for one outside that range the
spec does not say: a free value (assumption 83). -/
def vRec (x : Int) : Nat := if 0 ≤ x ∧ x ≤ 65535 then x.toNat else (Config.vOut x).toNat

/-- The Compensated correction of input `j` (R146), rounded to the nearest 100 uV. -/
def compensate (n : Node) (ks : List Nat) (v : List Nat) (j : Nat) : Nat :=
  let raw (k : Nat) : Int := v.getD k 0
  let g (k : Nat) : Nat × Nat := Tab.get (0, 0) n.coup.g k
  let bal (k : Nat) : Bool := n.balAtS.getLsbD k
  let own := if bal j then raw j * ((g j).1 + (g j).2) else 0
  let low := match lowerOf ks j with
    | some k => if bal k then raw k * (g k).2 else 0
    | none => 0
  let up := match upperOf ks j with
    | some k => if bal k then raw k * (g k).1 else 0
    | none => 0
  vRec (raw j + roundDiv (own - low - up) 65536)

/-- The correction applies to a node in this frame (R146): it runs compensated, reports balancing and has not
stopped by timeout. -/
def compOn (n : Node) (d : SlotData) : Bool := n.comp && n.coup.valid && d.stat.getLsbD 5 && !d.stat.getLsbD 6

/-- Identification frames carry BAL_ID (R147). -/
def balId (n : Node) : Bool := n.coup.busy && decide (n.coup.phase < 8)

/-- Temperature input `j` of a node is MISSING at FRM (R137). -/
def tMissing (n : Node) (frm : Word) (j : Nat) : Bool := match Tab.get none n.tIn j with
  | none => true
  | some (_, f) => decide ((frm - f).toNat ≥ 8)

/-- The latest value of temperature input `j`. -/
def tLatest (n : Node) (j : Nat) : Int := ((Tab.get none n.tIn j).map (·.1)).getD 0

/-- The mean of a node's temperature inputs that are not MISSING; T_LOC when there is none (R255). -/
def tNode (n : Node) (frm : Word) (loc : Int) : Int :=
  match (List.range 4).filter fun j => !tMissing n frm j with
  | [] => loc
  | js => roundDiv (sumI (js.map (tLatest n))) js.length

/-- The nominal sample instant of the frame (R135). -/
def sampleInstant (s : State) : Nat := s.sys.t0 + (if acqMode s = 2 then 1000000 else 5000)

/-- A flag at bit `b` of a status word. -/
def flag (b : Nat) (v : Bool) : Nat := if v then 2 ^ b else 0

/-- The interval of a frame in which balancing runs, ns (R135, R151). -/
def onTime (s : State) (n : Node) : Nat :=
  if n.comp then period s else if acqMode s = 2 then period s - 1045000 else period s - 47000

/-- The balance duty accumulator takes the on-time of a frame (R151). -/
def dutyAdd (ns : Nat) (x : CellAcq) : CellAcq :=
  let t := x.balNs + ns
  { x with balSec := sat 32 (x.balSec + t / nsPerSec), balNs := t % nsPerSec }

/-- The acquisition part of one cell closes (R156, R198, R634, R635). The two cells of a broken, suspect or candidate inner
wire enter the aggregates by their sum, halved outwards, so that a limit is crossed exactly where the sum crosses twice the
limit tightened by 50 mV. `v`: the corrected values of a valid slot;
`derived`: the value from the stack, for a cell on a broken end wire. -/
def cellClose (s : State) (t : TopoNode) (n : Node) (slot : Option SlotData) (vs : List Nat) (derived : Option Nat)
    (k : Nat) (x : CellAcq) : CellAcq :=
  let ks := inputs t.mask
  let got := slot.isSome
  let own := vs.getD k 0
  let brk := brokenPair ks n k
  let sus := (suspectPair ks n k).orElse fun _ => candPair ks n k
  let eb := endBroken ks n k
  let sum (ab : Nat × Nat) : Nat := vs.getD ab.1 0 + vs.getD ab.2 0
  let v : Option Nat :=
    if eb then (if got then derived else none)
    else if got then some (match brk with
      | some ab => sum ab / 2
      | none => own)
    else none
  let hilo : Option (Int × Int) :=
    match v with
    | none => none
    | some v =>
      if eb then some ((v : Int) + 500, (v : Int) - 500)
      else match brk.orElse fun _ => sus with
        | some ab => some ((((sum ab + 1) / 2 : Nat) : Int) + 500, ((sum ab / 2 : Nat) : Int) - 500)
        | none => some (v, v)
  let i := t.string
  let y := curStr s i
  let sub := eb || brk.isSome
  let st := flag 11 y.missing + flag 10 (tMissing n s.time.frm (k / 4)) + flag 9 (got && n.balAtS.getLsbD k) +
    flag 8 y.sat + flag 7 eb + flag 6 (sus.isSome || n.ow.measFault || onCand ks n k) + flag 5 sub +
    flag 4 (sub && v.isSome) + flag 3 (n.auth != .passed) + flag 2 (got && balId n) + flag 1 (got && n.skewed) +
    flag 0 (!got)
  let loc := ((Tab.get none n.tIn (k / 4)).map (·.1)).getD x.tLoc
  let bal := got && n.balAtS.getLsbD k && (slot.map fun d => d.stat.getLsbD 5).getD false
  let x1 := { x with
    frm := s.time.frm
    stat := BitVec.ofNat 32 st
    v := v.getD x.v
    vMeas := match slot with
      | some d => d.v.getD k 0
      | none => x.vMeas
    vGot := x.vGot || got
    sel := x.sel && !sub
    tLoc := loc
    tNode := tNode n s.time.frm loc
    tFrm := ((Tab.get none n.tIn (k / 4)).map (·.2)).getD 0
    iS := y.iS
    iMean := y.iMean
    sampleTns := sampleInstant s
    aggHi := hilo.map (·.1)
    aggLo := hilo.map (·.2)
    decSum := x.decSum + v.getD 0
    decCnt := x.decCnt + b2n v.isSome }
  if bal then dutyAdd (onTime s n) x1 else x1

/-- The value of the cell on a broken end wire (R156): the stack of the last frame less the sum of the node's other
cells in that frame. -/
def derivedOf (s : State) (t : TopoNode) (n : Node) : Option Nat :=
  let ks := inputs t.mask
  match n.ow.stack with
  | none => none
  | some st =>
    let other := (nodeCells t).filter fun ck => !endBroken ks n ck.2
    some (vRec (Int.ofNat st - Int.ofNat ((other.map fun ck => (cellAcq s ck.1).vMeas).foldl (· + ·) 0)))

/-- The temperature inputs of a slot are taken (R137). -/
def tempsIn (frm : Word) (d : SlotData) (n : Node) : Node :=
  { n with tIn := d.t.foldl (fun m kt => Tab.set none m kt.1 (some (kt.2, frm))) n.tIn }

/-- The balancing state at the sample against the COMMAND in force (R145). -/
def balCheck (d : SlotData) (n : Node) : Node :=
  let want := n.balAtS != 0
  { n with balMis := if n.comp || n.coup.busy || d.stat.getLsbD 5 == want then 0 else min 3 (n.balMis + 1) }

/-- The mask of the inputs of a list. -/
def maskOf (ks : List Nat) : BitVec 16 := ks.foldl (fun m k => m ||| BitVec.ofNat 16 (2 ^ k)) 0

/-- The switches of an identification by the frame of its round (R147): a group by ordinal mod 4 in an even one, none in
an odd one. -/
def coupWord (ks : List Nat) (phase : Nat) : BitVec 16 :=
  if phase % 2 = 0 && decide (phase < 8) then
    maskOf ((ks.zipIdx.filter fun ki => ki.2 % 4 == phase / 2).map (·.1))
  else 0

/-- The frame of a coupling identification is taken (R147): an even phase holds the values with switches on, an odd
one closes the pair of frames, which is repeated when the current moved by more than C/100, a slot is missing, or the node
did not balance as the group asks. -/
def coupTake (s : State) (t : TopoNode) (slot : Option SlotData) (n : Node) : Node :=
  let c := n.coup
  if !c.busy then n
  else
    let ks := inputs t.mask
    let cur := (curStr s t.string).iS
    let next : CoupState :=
      if c.phase ≥ 8 then { c with phase := 0 }
      else match slot with
        | none => { c with phase := c.phase / 2 * 2 }
        | some d =>
          if n.balAtS != coupWord ks c.phase || d.stat.getLsbD 5 != (n.balAtS != 0) then { c with phase := c.phase / 2 * 2 }
          else if c.phase % 2 = 0 then { c with phase := c.phase + 1, von := d.v, ion := cur }
          else if absI (cur - c.ion) * 100 > capNom s t.string || (curStr s t.string).missing then
            { c with phase := c.phase - 1 }
          else
            let on := (ks.zipIdx.filter fun ki => ki.2 % 4 == c.phase / 2).map (·.1)
            let dv (k : Nat) : Int := (c.von.getD k 0 : Int) - d.v.getD k 0
            let acc := on.foldl (fun (a : Tab (Int × Int × Int × Int)) k =>
              let o : Int × Int × Int × Int := Tab.get (0, 0, 0, 0) a k
              let lo := ((lowerOf ks k).map dv).getD 0
              let up := ((upperOf ks k).map dv).getD 0
              Tab.set (0, 0, 0, 0) a k (o.1 - dv k, o.2.1 + lo, o.2.2.1 + up, o.2.2.2 + c.von.getD k 0)) c.acc
            if c.phase = 7 then { c with acc := acc, phase := 0, rounds := min 7 (c.rounds + 1) }
            else { c with acc := acc, phase := c.phase + 1 }
    { n with coup := { next with frames := min 511 (c.frames + 1) } }

/-- One node entry of TOPO at the cut-off: its values close into the cell records (R14, R634). -/
def nodeClose (s : State) (t : TopoNode) : State :=
  let n0 := nodeOf s t.ring t.pos
  let slot := if n0.string == some t.string then nodeSlot n0 else none
  let n1 := { n0 with balAtS := n0.bal }
  let n2 := match slot with
    | some d => balCheck d (tempsIn s.time.frm d { n1 with last := { d with aux := if d.aux.isSome then d.aux else n1.last.aux
                                                                            iso := d.iso } })
    | none => n1
  if t.kind ≠ 1 then setNode s t.ring t.pos n2
  else
    let ks := inputs t.mask
    let n3 := match slot with
      | some d => suspectMark s t d.v n2
      | none => n2
    let derived := derivedOf s t n3
    let vs := match slot with
      | some d => (List.range 16).map fun k => if compOn n3 d then compensate n3 ks d.v k else d.v.getD k 0
      | none => []
    let s1 := (nodeCells t).foldl (fun s1 ck =>
      modCell s1 ck.1 (cellClose s t n3 slot vs derived ck.2)) s
    let n4 := { coupTake s t slot n3 with ow.stack := none }
    setNode s1 t.ring t.pos n4

/-- Misses and node loss at the cut-off (R118): a node that was due and brought no valid slot has missed a frame. -/
def missCount (r : Nat) (s : State) : State :=
  if !(ringOf s r).collected then s
  else (positions s r).foldl (fun s p =>
    let n := nodeOf s r p
    if !served s r p then s
    else if (nodeSlot n).isSome then modNode s r p fun n => { n with misses := 0 }
    else if slotDue s r p then modNode s r p fun n => { n with misses := min 3 (n.misses + 1) }
    else s) s

/-! ## Aggregates -/

/-- The aggregates of string `i` close (R190, R197, R198, R209). -/
def aggClose (s : State) (i : Nat) : Agg :=
  let ts := s.cfg.topo.nodes.filter (·.string == i)
  let cs := stringCells s i
  let his := cs.filterMap fun c => (cellAcq s c).aggHi
  let los := cs.filterMap fun c => (cellAcq s c).aggLo
  let fast := acqMode s == 1
  let temps := ts.flatMap fun t =>
    let n := nodeOf s t.ring t.pos
    if t.kind = 1 && n.string.isSome && (fast || (nodeSlot n).isSome) then
      ((List.range 4).filter fun j => !tMissing n s.time.frm j).map (tLatest n)
    else []
  let dies := ts.filterMap fun t =>
    let n := nodeOf s t.ring t.pos
    if n.string.isSome && !n.dieStale && (fast || (nodeSlot n).isSome) then n.die else none
  let sn := match stringNode s i with
    | some (r, p) => if (nodeOf s r p).string.isSome then nodeSlot (nodeOf s r p) else none
    | none => none
  let y := curStr s i
  let lim := limitOf s i
  { vHi := maxOf? his
    vLo := minOf? los
    tHi := maxOf? temps
    tLo := minOf? temps
    iS := if y.missing then none else some y.iS
    vPack := sn.map fun d => (d.vPack : Int)
    vLink := sn.map fun d => (d.vLink : Int)
    iso := sn.bind fun d => d.iso.map Int.ofNat
    die := maxOf? dies
    vlimHi := lim.en && his.any fun v => decide (v > lim.vMax)
    vlimLo := lim.en && los.any fun v => decide (v < lim.vMin) }

/-! ## The COMMAND frame -/

/-- The duty limit of a node in 1/30 (R149). -/
def dutyMax (die : Int) : Nat := if die < 85 then 30 else (115 - die).toNat

/-- The duty credit of a node in this frame (R149): the new node, and whether its BAL bits may be sent. -/
def credit (even : Bool) (n : Node) : Node × Bool :=
  match n.die with
  | none => (n, false)
  | some d =>
    let c := (if even then n.creditE else n.creditO) + dutyMax d
    let go := decide (c ≥ 30)
    let c' := if go then c - 30 else c
    (if even then { n with creditE := c' } else { n with creditO := c' }, go && !n.dieStale)

/-- BAL_DIE_LIMIT when a node first enters the limit after a period below 85 degC (R149). -/
def dieLimit (r p : Nat) (s : State) : State :=
  let n := nodeOf s r p
  match n.die with
  | none => s
  | some d =>
    let hot := decide (d ≥ 85)
    if hot == n.inLimit then s
    else emitIf hot 0x0488 (leI 4 d ++ le 1 r ++ le 1 p ++ le 2 0) (modNode s r p fun n => { n with inLimit := hot })

/-- BAL of the mode in force is off, or a change of ACQ or BAL takes effect at the next boundary (R138, R142). -/
def balOff (s : State) : Bool :=
  bits s.sys.modeAct 27 26 == 2 || (match s.sys.modeNext with
    | some m => bits m 27 26 != bits s.sys.modeForce 27 26 || bits m 17 16 != bits s.sys.modeForce 17 16
    | none => false)

/-- The BAL word of a cell node for this COMMAND before its duty limit (R144, R147): the group of an identification,
or the selected cells of the frame's parity. -/
def balWord (s : State) (t : TopoNode) (n : Node) : BitVec 16 :=
  let ord := (inputs t.mask).zipIdx
  if n.coup.busy then coupWord (inputs t.mask) n.coup.phase
  else
    let par := s.time.frm.toNat % 2
    let sel := (nodeCells t).filter fun ck => (cellAcq s ck.1).sel
    maskOf ((ord.filter fun ki => ki.2 % 2 == par && sel.any (·.2 == ki.1)).map (·.1))

/-- The node may balance in this COMMAND (R138, R142, R143, R145, R152). -/
def balMay (s : State) (t : TopoNode) (n : Node) (ow : Bool) : Bool :=
  !balOff s && !ow && !n.balFault && n.acqOk && n.auth == .passed && !nodeOut n && !s.acq.curHold.getLsbD t.string &&
    gOf s t.string

/-- Open-wire tests allowed in one ring and frame (R152). -/
def owLimit (mode : Nat) : Nat := if mode = 1 then 4 else if mode = 2 then 16 else 8

/-- The number of the period in which instant `t` lies, for the cell node with ordinal `j` of `m` on its ring: each
node's periods begin at its own share of the period, which spreads the tests over it (R152 gives no order; DESIGN CHOICE,
assumption 84). -/
def owTurn (period j m t : Nat) : Nat := (t + period - j * period / max 1 m) / max 1 period

/-- The periodic test of the node is due (R152): a period of its own has begun since its last one. -/
def owPeriodic (s : State) (r p : Nat) : Bool :=
  let xs := (positions s r).filter fun q => (nodeOf s r q).kind == 1
  let turn := owTurn (s.cfg.acq.owPeriod * 1000000) (xs.filter (· < p)).length xs.length
  decide (turn s.time.tns > turn (nodeOf s r p).ow.lastAt)

/-- A test of the node is due (R152, R153): asked for, at once, a suspect, a candidate, or its periodic one. -/
def owDue (s : State) (r p : Nat) : Bool :=
  let n := nodeOf s r p
  n.kind == 1 && n.string.isSome && !nodeOut n && n.acqOk && n.ow.testSeq.isNone &&
    (n.ow.want || n.ow.now || !n.ow.suspect.isEmpty || !n.ow.cand.isEmpty || owPeriodic s r p)

/-- The order of tests (R152, R153): suspects and nodes tested at once, then confirmations, then the others. -/
def owRank (n : Node) : Nat := if !n.ow.suspect.isEmpty || n.ow.now then 0 else if !n.ow.cand.isEmpty then 1 else 2

/-- The nodes of ring `r` tested by this COMMAND (R152). -/
def owNodes (s : State) (r : Nat) : List Nat :=
  let due := (positions s r).filter fun p => owDue s r p
  let by' (k : Nat) := due.filter fun p => owRank (nodeOf s r p) == k
  (by' 0 ++ by' 1 ++ by' 2).take (owLimit (acqMode s))

/-- The entry of one node in the COMMAND payload (R102), and the node after it. -/
def cmdEntry (s : State) (r p : Nat) (ow : Bool) : List Byte × Node :=
  let n := nodeOf s r p
  let even := s.time.frm.toNat % 2 == 0
  let cr := credit even n
  let bal := match topoNode s r p with
    | some t =>
      if t.kind = 1 && n.string.isSome && balMay s t n ow && cr.2 then balWord s t n else 0
    | none => 0
  let flags := b2n n.alarmAck + 2 * b2n ow
  (le 1 p ++ le 1 flags ++ le 2 bal.toNat,
   { cr.1 with bal := bal, alarmAck := false
               ow.testSeq := if ow then some ((s.time.frm.toNat + 1) % 256) else n.ow.testSeq
               ow.want := if ow then false else n.ow.want
               ow.now := if ow then false else n.ow.now
               ow.periodic := if ow then owRank n == 2 && owPeriodic s r p else n.ow.periodic })

/-- Reads that a ring owes in the gaps of this frame: N_STACK of nodes with a broken end wire (R156), and N_DIE in
Fast mode every 100 ms (R98). -/
def gapReads (r p : Nat) (s : State) : State :=
  let n := nodeOf s r p
  let ks := inputs n.mask.toNat
  let has (a : Nat) := (ringOf s r).mgmt.any fun m => m.pos == p && m.addr == a && !m.write
  let s1 := if n.kind = 1 && (ks.any (endBroken ks n)) && !has 0x2C
    then mgmtPush r { pos := p, write := false, addr := 0x2C, n := 4 } s else s
  if acqMode s = 1 && decide (s.time.tns ≥ n.dieAt + 100000000) && !has 0x28
  then mgmtPush r { pos := p, write := false, addr := 0x28, n := 4 } s1 else s1

/-- The COMMAND entry of position `p` joins those before it, and what it announces enters the node's state (R102). -/
def cmdStep (s : State) (r : Nat) (tests : List Nat) (a : List Byte × State) (p : Nat) : List Byte × State :=
  let e := cmdEntry s r p (tests.contains p)
  (a.1 ++ e.1, gapReads r p (dieLimit r p (setNode a.2 r p e.2)))

/-- A COMMAND frame of these entries leaves both ports of ring `r` (R97, R102). -/
def commandOut (r : Nat) (entries : List Byte) (s : State) : State :=
  let b := entries ++ le 4 (crc32c entries).toNat
  ringTxBoth r 2 b (modRing s r fun x => { x with cmd := b })

/-- The COMMAND frame of ring `r` leaves both ports (R102). -/
def commandSend (r : Nat) (s : State) : State :=
  if !(ringOf s r).inService then s
  else
    let y := (positions s r).foldl (cmdStep s r (owNodes s r)) ([], s)
    commandOut r y.1 y.2

/-- BAL_CUR_HOLD (R143): the string current exceeds C/20, or no channel gives it. -/
def curHolds (s : State) : BitVec 4 :=
  BitVec.ofNat 4 (mask4 fun i =>
    configured s i && ((curStr s i).missing || decide (absI (curStr s i).iS * 20 > capNom s i)))

/-- The acquisition part of the cut-off (R14, R190): values close, suspects are marked, the aggregates close, and
the COMMAND frames leave. -/
def acqClose (s : State) : State :=
  let s1 := missCount 1 (missCount 0 s)
  let s2 := s1.cfg.topo.nodes.foldl nodeClose s1
  let s3 := (List.range 4).foldl (fun s i =>
    { s with husk.agg := Tab.set {} s.husk.agg i (if configured s i then aggClose s i else {}) }) s2
  let s4 := { s3 with
    husk.ringAlarm := s3.husk.ringAlarmNew
    husk.ringAlarmNew := 0
    acq.vPack := (List.range 4).foldl (fun t i => match (aggOf s3 i).vPack with
      | some v => Tab.set 0 t i v.toNat
      | none => t) s3.acq.vPack
    acq.curHold := curHolds s3
    acq.phase := s3.time.frm.toNat % 2 == 1 }
  { commandSend 1 (commandSend 0 s4) with acq.pub := s4.acq.cells }

/-! ## Balancing events -/

/-- The mean of a cell's valid values in the decision period (R143). -/
def decMean (x : CellAcq) : Rat := (x.decSum : Rat) / x.decCnt

/-- The cells of string `i` selected for the next decision period (R142, R143). -/
def balSelect (s : State) (i : Nat) : List Nat :=
  let cs := stringCells s i
  let ok := bits s.sys.modeAct 27 26 != 2 && !s.acq.inhibit.getLsbD i && gOf s i && !(curHolds s).getLsbD i &&
    cs.all fun c => decide ((cellAcq s c).decCnt ≠ 0)
  if !ok then []
  else
    let lo := (cs.map fun c => decMean (cellAcq s c)).foldl minR (65536 : Rat)
    cs.filter fun c =>
      let x := cellAcq s c
      let m := decMean x
      !(x.stat.getLsbD 3) && !(x.stat.getLsbD 5) && !(x.stat.getLsbD 6) &&
        decide (m ≥ s.cfg.acq.balVmin ∧ m - lo > s.cfg.acq.balDelta)

/-- BALANCE_DECISION (R142, R143): once per decision period the cells to balance are selected. -/
def execBalanceDecision (s : State) : Host.Outcome State Fault Refusal :=
  .next (if !s.sys.run.acq || decide (s.time.tns < s.acq.decAt + nsPerSec) then s
    else
      let sel := (strings s).flatMap (balSelect s)
      let s1 := (cells s).foldl (fun s c =>
        modCell s c fun x => { x with sel := sel.contains c, decSum := 0, decCnt := 0 }) s
      { s1 with acq.decAt := s.time.tns })

/-- BAL_NODE_FAULT (R145): a node whose balancing state disagreed for 3 consecutive frames receives BAL = 0, from the next
COMMAND (R144), until it is enumerated again. -/
def execBalNodeFault (r p : Nat) (s : State) : Host.Outcome State Fault Refusal :=
  let n := nodeOf s r p
  .next (settle (if n.balMis ≥ 3 && !n.balFault then
      emit 0x0487 (le 1 r ++ le 1 p ++ le 2 0) (modNode s r p fun n => { n with balFault := true })
    else s))

/-- DIE_TEMP_TIMEOUT (R149): a node whose die temperature has not come for 1 s receives BAL = 0, from the next
COMMAND. -/
def execDieTempTimeout (r p : Nat) (s : State) : Host.Outcome State Fault Refusal :=
  let n := nodeOf s r p
  .next (if n.kind ≠ 0 ∧ s.time.tns ≥ n.dieAt + nsPerSec then
      modNode s r p fun n => { n with dieStale := true }
    else s)

/-! ## Coupling identification -/

/-- COUP_ID_START (R147): identification starts on a node when it is due: when the mode comes into force or the node
enters service, every 10 min, after a move of its die temperature by 5 degC, or when it was asked for. -/
def execCoupIdStart (r p : Nat) (s : State) : Host.Outcome State Fault Refusal :=
  let n := nodeOf s r p
  let c := n.coup
  let due := c.want || c.lastAt == 0 || decide (s.time.tns ≥ c.lastAt + 600 * nsPerSec) ||
    decide (absI (n.die.getD c.lastDie - c.lastDie) ≥ 5)
  .next (if compMode s && n.kind == 1 && n.string.isSome && !nodeOut n && !c.busy && due && decide (s.time.tns ≥ c.holdUntil)
    then modNode s r p fun n =>
      { n with coup := { n.coup with busy := true, want := false, phase := 8, rounds := 0, frames := 0, acc := [] } }
    else s)

/-- A coefficient in units of 2^-16 from a rise and a value, to nearest. -/
def coef (rise value : Int) : Int := if value ≤ 0 then 0 else roundDiv (rise * 65536) value.toNat

/-- G_LO and G_HI of input `k` from its sums, and whether the acceptance rule holds for it (R147). Of an input without
neighbours R147 gives only the sum of the two; the model has it all in G_LO. Within 20 % is taken of the sum (both DESIGN
CHOICE, assumption 85). -/
def coupOf (ks : List Nat) (acc : Tab (Int × Int × Int × Int)) (k : Nat) : (Nat × Nat) × Bool :=
  let o : Int × Int × Int × Int := Tab.get (0, 0, 0, 0) acc k
  let own := coef o.1 o.2.2.2
  let lo := coef o.2.1 o.2.2.2
  let up := coef o.2.2.1 o.2.2.2
  let hasL := (lowerOf ks k).isSome
  let hasU := (upperOf ks k).isSome
  let gl := if hasL then lo else if hasU then own - up else own
  let gh := if hasU then up else if hasL then own - lo else 0
  let sum := gl + gh
  ((gl.toNat, gh.toNat),
   decide (gl ≤ 3276 ∧ gh ≤ 3276 ∧ gl ≥ 0 ∧ gh ≥ 0) &&
     (!(hasL && hasU) || decide (absI (own - sum) * 5 ≤ absI sum)))

/-- COUP_ID_COMPLETE (R147): after 4 valid rounds the coefficients are computed and accepted, or COUP_ID_FAIL is
recorded and the node stays in the Interleaved manner. -/
def execCoupIdComplete (r p : Nat) (s : State) : Host.Outcome State Fault Refusal :=
  let n := nodeOf s r p
  .next (if !n.coup.busy || decide (n.coup.rounds < 4) then s
    else
      let ks := inputs n.mask.toNat
      let rs := ks.map fun k => (k, coupOf ks n.coup.acc k)
      let ok := rs.all fun x => x.2.2
      let g : Tab (Nat × Nat) := if ok then rs.foldl (fun t x => Tab.set (0, 0) t x.1 x.2.1) [] else n.coup.g
      let s1 := modNode s r p fun n =>
        { n with coup := { n.coup with
            busy := false, valid := ok, g := g, acc := [], von := []
            lastAt := s.time.tns, lastDie := n.die.getD 0 } }
      let s2 := emitIf (!ok) 0x0489 (le 1 r ++ le 1 p ++ le 1 2 ++ le 1 0) s1
      settle (if ok == n.comp then s2 else acqWrite r p (acqMode s) ok (s.time.frm.toNat + 1) s2))

/-- COUP_ID_GIVE_UP (R147): a node without 4 valid rounds within 256 frames gives up for 10 s. -/
def execCoupIdGiveUp (r p : Nat) (s : State) : Host.Outcome State Fault Refusal :=
  let n := nodeOf s r p
  .next (if !n.coup.busy || decide (n.coup.frames < 256) || decide (n.coup.rounds ≥ 4) then s
    else settle (emit 0x0489 (le 1 r ++ le 1 p ++ le 1 1 ++ le 1 0)
      (modNode s r p fun n =>
        { n with coup := { n.coup with busy := false, want := true, acc := [], von := []
                                       holdUntil := s.time.tns + 10 * nsPerSec } })))

/-- Every cell node of the rings. -/
def cellNodes (s : State) : List (Nat × Nat) :=
  [0, 1].flatMap fun r => ((positions s r).filter fun p => (nodeOf s r p).kind == 1).map fun p => (r, p)

/-- ACQ_CTRL.COUP_ID (R161): identification of every node is asked for in Compensated mode. -/
def acqCoupId (s : State) : State :=
  if compMode s then (cellNodes s).foldl (fun s rp => modNode s rp.1 rp.2 fun n => { n with coup.want := true }) s
  else s

/-- ACQ_CTRL.OW_NOW (R161): every cell node is tested at the next opportunities. -/
def acqOwNow (s : State) : State :=
  (cellNodes s).foldl (fun s rp => modNode s rp.1 rp.2 fun n => { n with ow.want := true }) s

/-! ## Open-wire tests -/

/-- OPEN_WIRE_MULTI and the T2 orderly open of the string (R157, R191). -/
def owMulti (i case r : Nat) (s : State) : State :=
  tripSet [false, true] 2 i 0xF05 (emit 0x0483 (le 1 i ++ le 1 case ++ le 1 r ++ le 1 0) s i)

/-- The end-wire breaks confirmed on ring `r`. -/
def endBreaks (s : State) (r : Nat) : Nat :=
  (((ringOf s r).nodes.map fun pn =>
    let ks := inputs pn.2.mask.toNat
    (pn.2.ow.broken.filter fun w => (endInput ks w).isSome).length)).foldl (· + ·) 0

/-- The rule of R157 that the confirmed breaks of a node meet, 0 when none. -/
def multiCase (s : State) (r : Nat) (ks broken : List Nat) : Nat :=
  let inner := broken.filter fun w => (innerPair ks w).isSome
  let ends := broken.filter fun w => (endInput ks w).isSome
  let pairs := inner.filterMap (innerPair ks)
  if pairs.any fun a => pairs.any fun b => a.2 == b.1 then 1
  else if !ends.isEmpty && decide (broken.length ≥ 2) then 2
  else if endBreaks s r > (if acqMode s = 1 then 4 else 8) then 3
  else 0

/-- A candidate wire is confirmed (R155): OPEN_WIRE, and the rule of R157. -/
def owConfirm (r p : Nat) (ps : List Nat) (d : Int) (s : State) (w : Nat) : State :=
  let n := nodeOf s r p
  let i := n.string.getD 0
  let s1 := emit 0x0480 (leI 4 d ++ le 1 r ++ le 1 p ++ le 1 w ++ le 1 0 ++ le 2 (ps.getD w 0) ++ le 2 0)
    (modNode s r p fun n => { n with ow.broken := n.ow.broken ++ [w], ow.passes := 0 }) i
  let c := multiCase s1 r (inputs n.mask.toNat) (n.ow.broken ++ [w])
  if c = 0 then s1 else owMulti i c r s1

/-- A test with collapsed wires (R154, R155): candidates that repeat are confirmed, the others tested again. -/
def owCollapse (r p : Nat) (ps col : List Nat) (d : Int) (s : State) : State :=
  let n := nodeOf s r p
  let i := n.string.getD 0
  let ks := inputs n.mask.toNat
  let far := decide (absI d > 50)
  let new := col.filter fun w => !n.ow.broken.contains w
  let s1 := new.foldl (fun s w =>
    let inconsistent := if (innerPair ks w).isSome then far else !far
    emitIf inconsistent 0x0482 (leI 4 d ++ le 1 r ++ le 1 p ++ le 1 w ++ le 1 0) s i) s
  let conf := new.filter n.ow.cand.contains
  let wait := new.filter fun w => !n.ow.cand.contains w
  let s2 := modNode s1 r p fun n =>
    { n with ow.cand := wait, ow.want := !wait.isEmpty, ow.suspect := [], ow.moved := none, ow.drift := 0, ow.passes := 0 }
  conf.foldl (owConfirm r p ps d) s2

/-- A passing test (R154, R155): three periodic ones in a row clear the node's confirmed breaks. -/
def owPass (r p : Nat) (s : State) : State :=
  let n := nodeOf s r p
  let passes := n.ow.passes + b2n n.ow.periodic
  let done := decide (passes ≥ 3)
  let s1 := if done then n.ow.broken.foldl (fun s w =>
      emit 0x0481 (le 1 r ++ le 1 p ++ le 1 w ++ le 1 0) s (n.string.getD 0)) s else s
  modNode s1 r p fun n =>
    { n with ow.passes := if done then 0 else passes
             ow.broken := if done then [] else n.ow.broken
             ow.measFault := false, ow.drift := 0 }

/-- A test without a collapsed wire (R154). -/
def owClean (r p : Nat) (t : TopoNode) (d : Int) (s : State) : State :=
  let n := nodeOf s r p
  let i := n.string.getD 0
  let far := decide (absI d > 50)
  let cellOf (k : Nat) : Nat := (((nodeCells t).find? (·.2 == k)).map (·.1)).getD 0
  let s1 := modNode s r p fun n => { n with ow.cand := [], ow.suspect := [], ow.moved := none, ow.want := false }
  match n.ow.suspect, n.ow.moved with
  | (k, up) :: _, _ =>
    if far then modNode s1 r p fun n => { n with ow.drift := 0, ow.passes := 0 }
    else
      let hi := if up then k else (upperOf (inputs t.mask) k).getD k
      let third := decide (n.ow.drift ≥ 2)
      emitIf third 0x0484 (le 4 (cellOf hi))
        (modNode s1 r p fun n => { n with ow.drift := if third then 0 else n.ow.drift + 1, ow.passes := 0 }) i
  | [], some (k, mv) =>
    let s2 := modNode s1 r p fun n => { n with ow.drift := 0, ow.passes := 0 }
    if far then
      emit 0x0486 (leI 4 d ++ le 1 r ++ le 1 p ++ le 2 0) (modNode s2 r p fun n => { n with ow.measFault := true }) i
    else emit 0x0485 (leI 4 mv ++ le 2 (cellOf k) ++ le 2 0) s2 i
  | [], none => if far then modNode s1 r p fun n => { n with ow.drift := 0, ow.passes := 0 } else owPass r p s1

/-- OW_TEST_READ (R152 to R157): N_OW of a tested node is read in the gap of its test frame: the N_STACK word and
P_0 to P_16. A read whose sequence byte does not match is retried as a new test. -/
def execOwTestRead (r p : Nat) (stack : Word) (ps : List Nat) (s : State) : Host.Outcome State Fault Refusal :=
  let n := nodeOf s r p
  .next (match n.ow.testSeq, topoNode s r p with
    | some q, some t =>
      if s.time.frm.toNat % 256 ≠ q ∨ bits stack 31 24 ≠ q then
        modNode s r p fun n => { n with ow.testSeq := none, ow.want := true }
      else
        let sum : Nat := ((nodeCells t).map fun ck => (cellAcq s ck.1).vMeas).foldl (· + ·) 0
        let d : Int := (Int.ofNat sum) - Int.ofNat (bits stack 23 0)
        let ks := inputs t.mask
        let wires := (List.range 17).filter fun w => (innerPair ks w).isSome || (endInput ks w).isSome
        let col := wires.filter fun w => decide (ps.getD w 0 > 200)
        let s1 := modNode { s with acq.tests := (s.acq.tests + 1) % 65536 } r p fun n =>
          { n with ow.testSeq := none, ow.lastAt := if n.ow.periodic then s.time.tns else n.ow.lastAt, ow.p := ps }
        settle (if col.isEmpty then owClean r p t d s1 else owCollapse r p ps col d s1)
    | _, _ => s)

end Sys2Proof.Machine
end

