-- ==== Sys2Proof/Machine/Time.lean ====
section
/-! DEFINITION. Time (chapter 13): supervision of TREF, the SYNC servo, WALL, and the meanings of their commands. -/

namespace Sys2Proof.Machine

/-- The run of comparisons that meet `ok` goes on, or breaks. -/
def devRun (ok : Bool) (n : Nat) : Nat := if ok then n + 1 else 0

/-- A comparison of TREF with the crystal, `d` in ppm (R383): three in a row beyond 500 ppm lose the locked crystal, and TREF
runs on its last trim; a hundred in a row within it relock. In SLEEP TREF stands. -/
def xtalStep (s : State) (d : Int) : State :=
  let far := decide (absI d > 500)
  if s.pwr.state == .sleep then s
  else if s.time.xtalLock then
    let n := devRun far s.time.xtalRun
    if n ≥ 3 then emit 0x0100 (leI 4 d) { s with time.xtalLock := false, time.xtalLost := true, time.xtalRun := 0 }
    else { s with time.xtalRun := n }
  else if s.time.xtal && s.time.xtalLost then
    let n := devRun (!far) s.time.xtalRun
    if n ≥ 100 then { s with time.xtalLock := true, time.xtalLost := false, time.xtalRun := 0 }
    else { s with time.xtalRun := n }
  else s

/-- XTAL_LOST (R383): the comparisons `devs` of TREF with the locked crystal are taken, and the third in a row beyond 500 ppm
loses it. -/
def execXtalLost (devs : List Int) (s : State) : Host.Outcome State Fault Refusal :=
  .next (settle (devs.foldl xtalStep s))

/-- XTAL_RELOCK (R383): the comparisons `devs` of TREF with the lost crystal are taken, and the hundredth in a row within 500
ppm relocks TREF to it. -/
def execXtalRelock (devs : List Int) (s : State) : Host.Outcome State Fault Refusal :=
  .next (settle (devs.foldl xtalStep s))

/-! ## Ports -/

/-- The number of a port: 0 10BASE-T1S, 1 CAN FD, 2 SPI (R513). -/
def portIx : Port → Nat
  | .t1s => 0
  | .can => 1
  | .spi => 2

/-- What the host link holds of a port. -/
def portOf (s : State) (p : Port) : PortSt := Tab.get {} s.host.ports (portIx p)

/-- Change what the host link holds of a port. -/
def modPort (p : Port) (f : PortSt → PortSt) (s : State) : State :=
  { s with host.ports := Tab.set {} s.host.ports (portIx p) (f (portOf s p)) }

/-- The image enables the port (R484). -/
def portOn (s : State) (p : Port) : Bool := s.cfg.host.ports.testBit (portIx p)

/-- The port runs: the host link runs, the image enables it, and the CAN FD controller has its clock (R484, R486). -/
def portRuns (s : State) (p : Port) : Bool :=
  s.sys.run.hostLink && portOn s p && (p != .can || s.host.can != .off)

/-- The port whose SYNC drives the servo (R506). -/
def servoPort (s : State) : Option Port :=
  if s.host.syncPort = 1 then some .t1s
  else if s.host.syncPort = 2 then some .can
  else if s.host.syncPort = 3 then some .spi
  else [Port.t1s, .can, .spi].find? (portRuns s)

/-! ## The SYNC servo -/

/-- The SEG_OFS within 5 ms of H - TNS that places the frame boundary `t0` on a multiple of 10 ms (R389). -/
def segOfsFor (h t t0 : Int) : Int :=
  let d := h - t
  let r := (t0 + d) % 10000000
  if r ≤ 5000000 then d - r else d - r + 10000000

/-- The device sets SEG_OFS from a SYNC (R389): its frame boundaries lie on the grid. -/
def setSegOfs (h t : Int) (s : State) : State :=
  { s with time.segOfs := some (segOfsFor h t s.sys.t0), time.gridOk := true
           time.resync := false, time.servo := .acquire, time.lockCnt := 0, time.loseCnt := 0
           time.syncAt := some t.toNat }

/-- A rate held within +-`lim` (R390). -/
def clampRate (lim v : Rat) : Rat := maxR (-lim) (minR lim v)

/-- The servo takes an error of `e` ns `dt` ns after the previous SYNC (R390): freq and rate, and without a crystal
a move of the TREF trim when freq reaches its clamp. -/
def servoStep (e : Int) (dt : Nat) (s : State) : State :=
  let lim : Rat := 150 / 1000000
  let step : Rat := if dt = 0 then Config.byZero e else (e : Rat) / (16 * dt : Nat)
  let f := clampRate lim (s.time.freq + step)
  let r := clampRate (200 / 1000000) (f + (e : Rat) / 8000000000)
  let up := !s.time.xtal && decide (f = lim)
  let down := !s.time.xtal && decide (f = -lim)
  let move : Int := if up then 1 else if down then -1 else 0
  { s with time.freq := f - (move : Rat) * (50 / 1000000), time.rate := r, time.trim := s.time.trim + move }

/-- The servo's state after an error of `e` ns (R391). -/
def servoState (e : Int) (s : State) : State :=
  let lock := if absI e < 500 then min 8 (s.time.lockCnt + 1) else 0
  let lose := if absI e > 2000 then min 3 (s.time.loseCnt + 1) else 0
  let v : Servo := match s.time.servo with
    | .free => .acquire
    | .holdover => .acquire
    | .acquire => if lock = 8 then .locked else .acquire
    | .locked => if lose = 3 then .acquire else .locked
  let fresh := s.time.servo == .free || s.time.servo == .holdover
  { s with time.servo := v
           time.lockCnt := if v == .acquire && s.time.servo == .locked then 0 else if fresh then min lock 1 else lock
           time.loseCnt := if v == .locked then lose else 0 }

/-- A valid pair of H and TNS drives the servo (R389 to R391). -/
def servoTake (h t : Int) (s : State) : State :=
  match s.time.segOfs with
  | none => setSegOfs h t s
  | some o =>
    let e := h - (t + o)
    let s1 := { s with time.syncErr := satI 32 e }
    if s.time.resync || (s.time.servo != .free && decide (absI e > 10000000)) then
      let s2 := setSegOfs h t s1
      emit 0x0102 (leI 4 (satI 32 (Int.tdiv e 1000)) ++ le 4 0 ++ leI 8 (s2.time.segOfs.getD 0)) s2
    else
      let dt := match s.time.syncAt with
        | some t0 => t.toNat - t0
        | none => 0
      { servoState e (servoStep e dt s1) with time.syncAt := some t.toNat }

/-! ## The link of a frame (R485, R487, R499) -/

/-- The NODE N of the master, 0 when none (R499, R512). -/
def nodeNum (s : State) : Nat := match s.host.snid with
  | some n => n % 64 + 1
  | none => 0

/-- The device's MAC address (R485): 0x02 followed by MID[39:0]. -/
def ownMac (s : State) : BitVec 48 := 0x02#8 ++ s.sec.mid.extractLsb' 0 40

/-- The broadcast address of Ethernet. -/
def macAll : BitVec 48 := 0xFFFFFFFFFFFF#48

/-- A frame of the host reaches the device by its link (R485, R487): `off` is the offset of its CAN identifier. -/
def linkTakes (off : Nat) (l : LinkAddr) (s : State) : Bool := match l with
  | .eth dst _ etype fcs => fcs && etype == 0x88B6#16 && (dst == ownMac s || dst == macAll)
  | .can id ext => ext == (s.cfg.host.canIdf == 1) && decide (id.toNat = s.cfg.host.canBase + off)
  | .spi => true

/-- A frame with a bad FCS is counted (R515). -/
def linkNote (l : LinkAddr) (s : State) : State := match l with
  | .eth _ _ _ false => if portRuns s .t1s then { s with host.errT1s := sat 8 (s.host.errT1s + 1) } else s
  | _ => s

/-- What a SYNC pairs with its H (R505): its own timestamp, or with TWO_STEP the timestamp of the SYNC with SSEQ one
lower. -/
def syncPair (prev : Option (Nat × Nat)) (two : Bool) (sseq t : Nat) : Option Nat :=
  if !two then some t
  else match prev with
    | some (q, t0) => if (q + 1) % 65536 = sseq then some t0 else none
    | none => none

/-- The beacon lets an unassigned master join after a random wait of 0 to 9 ms (R86, R501). -/
def syncHeard (l : LinkAddr) (s0 : State) : State :=
  let p := l.port
  let s := match l with
    | .eth _ src _ _ => modPort p (fun x => { x with hostMac := some src }) s0
    | _ => s0
  if p == .spi || s.host.snid.isSome || (portOf s p).heard then s
  else
    let r := takeFree s
    modPort p (fun x => { x with heard := true, joining := true
                                 joinAt := some (s.time.tns + r.1.toNat % 9000001) }) r.2

/-- SYNC (R390, R505, R506): the beacon is heard, and on the servo's port its pair of H and TNS drives the servo. -/
def execSync (l : LinkAddr) (sseq : BitVec 16) (two : Bool) (h : BitVec 64) (s : State) :
    Host.Outcome State Fault Refusal :=
  let p := l.port
  .next (settle (if !portRuns s p || !linkTakes 0 l s then linkNote l s
    else
      let t := s.time.tns - s.host.syncDly
      let prev := Tab.get none s.time.twoStep (portIx p)
      let s1 := syncHeard l { s with time.twoStep := Tab.set none s.time.twoStep (portIx p) (some (sseq.toNat, t)) }
      if servoPort s != some p || !s.time.syncEn then s1
      else
        let s2 := { s1 with time.syncSeen := some s.time.tns }
        match syncPair prev two sseq.toNat t with
        | some t0 => servoTake (Int.ofNat h.toNat) (Int.ofNat t0) s2
        | none => s2))

/-- SYNC_HOLDOVER (R391): no SYNC for 5 s in ACQUIRE or LOCKED; the rate holds at freq. -/
def execSyncHoldover (s : State) : Host.Outcome State Fault Refusal :=
  .next (match s.time.syncSeen with
    | some t =>
      if (s.time.servo == .acquire || s.time.servo == .locked) && decide (since s t ≥ 5 * nsPerSec) then
        { s with time.servo := .holdover, time.rate := s.time.freq, time.lockCnt := 0, time.loseCnt := 0 }
      else s
    | none => s)

/-- A write of TIME_CTRL (R403): RESYNC forces a resync at the next SYNC, and SYNC_EN 0 holds the servo in FREE. -/
def timeCtrlWrite (v : Word) (s : State) : State :=
  let s1 := if v.getLsbD 0 then { s with time.resync := true } else s
  if v.getLsbD 1 then { s1 with time.syncEn := true }
  else { s1 with time.syncEn := false, time.servo := .free, time.rate := 0, time.lockCnt := 0, time.loseCnt := 0 }

/-- The write of TIME_WALL_SET_HI applies the WALL value (R395). -/
def wallSet (hi : Word) (s : State) : State :=
  let old := wallOf s
  let new := hi.toNat * 4294967296 + s.time.wallSetLo.toNat
  emit 0x0105 (le 8 old ++ le 8 new ++ le 4 0)
    { s with time.wallOfs := some (Int.ofNat new - Int.ofNat s.time.tns) }

/-- A read of TIME_TNS_LO latches TNS, WALL and FRM for the port (R404). -/
def tnsLatch (p : Port) (s : State) : State :=
  modPort p (fun x => { x with
    lat.tnsHi := BitVec.ofNat 32 (s.time.tns / 4294967296)
    lat.wallLo := BitVec.ofNat 32 (wallOf s)
    lat.wallHi := BitVec.ofNat 32 (wallOf s / 4294967296)
    lat.frm := s.time.frm }) s

/-! ## Margins -/

/-- The band of a junction temperature, 0.01 degC (R399). -/
def bandOf (t : Int) : Nat :=
  if t < -1000 then 0 else if t ≤ 4000 then 1 else if t ≤ 8500 then 2 else if t ≤ 11500 then 3 else 4

/-- The lower edge of a band, 0.01 degC. -/
def bandLow (b : Nat) : Int :=
  if b = 1 then -1000 else if b = 2 then 4000 else if b = 3 then 8500 else 11500

/-- A band rises at once and falls only from 3 degC below its lower edge (R399), one band after another (DEDUCED,
assumption 102). `n` bounds the number of bands. -/
def bandFall : Nat → Nat → Int → Nat
  | 0, b, _ => b
  | n + 1, b, t => if b > 0 ∧ t ≤ bandLow b - 300 then bandFall n (b - 1) t else b

/-- The next band (R399). -/
def bandNext (old : Option Nat) (t : Int) : Nat := match old with
  | none => bandOf t
  | some b => if bandOf t > b then bandOf t else bandFall 4 b t

/-- The margins of the present bands, or the wide settings when a die has no valid sensor (R399, R401). -/
def applyMargins (ok : Bool) (s : State) : State :=
  let dl := match s.time.lBand with
    | some 0 => 20
    | some 1 => 10
    | some 2 => 15
    | some 3 => 25
    | _ => 35
  let mr := match s.time.lBand with
    | some 1 => 45
    | some 2 => 40
    | some 3 => 35
    | some 4 => 35
    | _ => 60
  { s with time.dlPct := if ok then dl else 35, time.mramNs := if ok then mr else 60
           time.refTrim := s.time.pBand.getD 2, time.wide := !ok }

end Sys2Proof.Machine
end

