-- ==== Sys2Proof/Machine/Link.lean ====
section
/-! DEFINITION. Outbound THP messages: the queue of each port, the on-wire loads of streams, and EVENT frames
(R489 to R498, R508 to R510). -/

namespace Sys2Proof.Machine

/-! ## Queues -/

/-- Queue a message behind those of its own and of lower classes (R498). -/
def txInsert (m : Msg) : List Msg → List Msg
  | [] => [m]
  | x :: xs => if m.cls < x.cls then m :: x :: xs else x :: txInsert m xs

/-- Queue an outbound message on a port. -/
def txPush (p : Port) (m : Msg) (s : State) : State := modPort p (fun x => { x with txq := txInsert m x.txq }) s

/-- The master may transmit messages of its own on the port: SPI always, the others with a NODE (R86, R493). -/
def mayTalk (s : State) (p : Port) : Bool := portRuns s p && (p == .spi || s.host.snid.isSome)

/-! ## Frames of the link (R485, R487, R489, R490, R492) -/

/-- Bytes of a number, the most significant first. -/
def be (n v : Nat) : List Byte := (le n v).reverse

/-- The CAN identifier of an outbound message (R487): the Sprout status frame, JOIN, or any other. -/
def canIdOf (m : Msg) (s : State) : Nat :=
  s.cfg.host.canBase +
    (if m.op = 0 then 0x100 + nodeNum s else if m.op = 0x0D then 0xC1 else 0x80 + nodeNum s)

/-- The THP header of a segment (R490). -/
def thpHeader (m : Msg) (seg len : Nat) (more : Bool) (s : State) : List Byte :=
  le 1 m.op ++ le 1 (16 * seg + 8 * b2n more) ++ le 2 m.tag.toNat ++ le 2 (s.host.snid.getD Config.snidNone.toNat) ++ le 2 len

/-- The CAN FD data fields of a message from segment `seg` on (R492); `n` bounds their number. -/
def canSegs (m : Msg) (s : State) : Nat → Nat → List Byte → List (List Byte)
  | 0, _, _ => []
  | n + 1, seg, b =>
    let rest := b.drop 56
    padTo 64 (thpHeader m seg (min 56 b.length) (!rest.isEmpty) s ++ b.take 56) ::
      if rest.isEmpty then [] else canSegs m s n (seg + 1) rest

/-- The Ethernet frame of a message, up to the FCS that IEEE 802.3 gives (R485, R492, R493). -/
def ethFrame (m : Msg) (s : State) : List Byte :=
  let dst := m.dst.getD ((portOf s .t1s).hostMac.getD macAll)
  let body := thpHeader m 0 m.body.length false s ++ m.body
  be 6 dst.toNat ++ be 6 (ownMac s).toNat ++ be 2 0x88B6 ++ padTo (max 46 body.length) body

/-- The frame of a message on SPI_MISO (R489): header, payload and CRC-32C over both. -/
def spiFrame (m : Msg) (s : State) : List Byte :=
  let b := thpHeader m 0 m.body.length false s ++ m.body
  b ++ le 4 (crc32c b).toNat

/-- The frames of a message on the wire of a port (R492); the Sprout status frame is no THP message (R487). -/
def wireFrames (p : Port) (m : Msg) (s : State) : List WireFrame := match p with
  | .t1s => [{ bytes := ethFrame m s }]
  | .spi => [{ bytes := spiFrame m s }]
  | .can => (if m.op = 0 then [m.body] else canSegs m s 16 0 m.body).map fun b => { canId := some (canIdOf m s), bytes := b }

/-- The oldest queued message of a port leaves (R489, R498). -/
def txPop (p : Port) (s : State) : State := match (portOf s p).txq with
  | m :: rest => modPort p (fun x => { x with txq := rest, wire := wireFrames p m s }) s
  | [] => s

/-! ## Loads (R510) -/

/-- The whole parts of `per` entries that `n` entries take, and the rest. -/
def partSizes (n per : Nat) : List Nat :=
  List.replicate (n / per) per ++ (if n % per = 0 then [] else [n % per])

/-- Entries of a CELL part by port (R509). -/
def cellPer : Port → Nat
  | .t1s => 185
  | .can => 6
  | .spi => 510

/-- The cells of a CELL stream: configured cells from FIRST, COUNT indices (R507). -/
def streamCells (s : State) (x : Stream) : List Nat := (rangeFrom x.first x.count).filter (cellConf s)

/-- The entry bytes of each message of one snapshot (R508, R509). -/
def snapSizes (s : State) (x : Stream) : List Nat :=
  if x.stype = 1 then
    let n := (strings s).length
    if x.port == .can then List.replicate n 32 else [32 * n]
  else (partSizes (streamCells s x).length (cellPer x.port)).map (8 * ·)

/-- The on-wire bits of a message of `d` entry bytes (R510); on CAN FD one frame. -/
def wireCost (p : Port) (d : Nat) : Nat := match p with
  | .t1s => 8 * (38 + max 46 (16 + d))
  | .can => 1
  | .spi => 8 * (20 + d)

/-- The load of a stream (R510): kbit/s, or frames/s on CAN FD. -/
def streamLoad (s : State) (x : Stream) : Rat :=
  if x.stype = 3 then 2
  else if x.period = 0 then 0
  else
    let sum := ((snapSizes s x).map (wireCost x.port)).foldl (· + ·) 0
    if x.port == .can then (sum * 1000 : Nat) / (x.period : Rat) else (sum : Rat) / (x.period : Rat)

/-- The open streams of a port. -/
def portStreams (s : State) (p : Port) : List Stream :=
  (s.host.str.filterMap (·.2)).filter (·.port == p)

/-- The stream load in use on a port (R515). -/
def portLoad (s : State) (p : Port) : Rat :=
  ((portStreams s p).map (streamLoad s)).foldl (· + ·) 0

/-- The limit of the stream load on a port (R510): 90 % of HOST_BUDGET, or 12,000 kbit/s on SPI. -/
def portLimit (s : State) (p : Port) : Rat := match p with
  | .t1s => (s.host.budT1s : Rat) * 9 / 10
  | .can => (s.host.budCan : Rat) * 9 / 10
  | .spi => 12000

/-- Streams close: their slots empty, and the read cursors of REC streams become free (R477, R511). -/
def closeStreams (f : Stream → Bool) (s : State) : State :=
  let shut := (s.host.str.filterMap (·.2)).filter f
  let cur := (shut.filter (·.stype == 3)).foldl (fun t x => Tab.set {} t x.cursor { Tab.get {} t x.cursor with
    active := false }) s.recd.cur
  { s with
    recd.cur := cur
    host.str := s.host.str.filter fun e => match e.2 with
      | some x => !f x
      | none => false }

/-! ## EVENT frames (R458, R497, R510) -/

/-- The bytes of a record up to its CRC (R451). -/
def recHead (r : Rec) : List Byte :=
  le 2 0xA5C3 ++ le 2 (36 + r.payload.length) ++ le 2 r.code ++ le 1 r.sevf ++ le 1 r.src ++ le 6 r.seq ++ le 2 0 ++
    le 8 r.tns ++ le 8 r.wall ++ r.payload

/-- A record's bytes, its CRC included (R451). -/
def recBytes (r : Rec) : List Byte := recHead r ++ le 4 (crc32c (recHead r)).toNat

/-- A record's length in bytes (R451). -/
def recLen (r : Rec) : Nat := 36 + r.payload.length

/-- A record's severity. -/
def recSev (r : Rec) : Nat := r.sevf % 4

/-- The 16-byte notice of a record on CAN FD (R497). -/
def notice (r : Rec) : List Byte :=
  le 6 r.seq ++ le 2 r.code ++ le 1 r.sevf ++ le 1 r.src ++ le 2 0 ++
    (if r.payload.length < 4 then le 4 0 else r.payload.take 4)

/-- The body of an EVENT that carries one record (R497). -/
def eventBody (p : Port) (r : Rec) : List Byte :=
  if p == .can then le 1 1 ++ le 1 1 ++ le 2 0 ++ notice r else le 1 0 ++ le 1 1 ++ le 2 0 ++ recBytes r

/-- The budget that streams leave for EVENT in one second (R510): bits, or frames on CAN FD; none on SPI. -/
def eventRoom (s : State) (p : Port) : Option Rat := match p with
  | .t1s => some (((s.host.budT1s : Rat) - portLoad s p) * 1000)
  | .can => some ((s.host.budCan : Rat) - portLoad s p)
  | .spi => none

/-- What an EVENT of one record takes of the budget: an Ethernet frame, or a CAN FD frame. -/
def eventCost (p : Port) (r : Rec) : Nat :=
  if p == .can then 1 else 8 * (38 + max 46 (8 + (eventBody p r).length))

/-- The current second of the EVENT budget begins again when it has passed. -/
def eventSecond (s : State) : State :=
  if since s s.host.evtAt ≥ nsPerSec then { s with host.evtAt := s.time.tns, host.evtUsed := [] } else s

/-- A published record goes out as an EVENT frame on a port, or is withheld beyond the budget (R510). -/
def eventOn (r : Rec) (s : State) (p : Port) : State :=
  if !(mayTalk s p && s.host.evtPorts.testBit (portIx p)) then s
  else
    let m : Msg := { cls := if recSev r ≥ 2 then 2 else 4, op := 6, body := eventBody p r }
    match eventRoom s p with
    | none => txPush p m s
    | some room =>
      let used := Tab.get 0 s.host.evtUsed (portIx p) + eventCost p r
      if (used : Rat) ≤ room
      then txPush p m { s with host.evtUsed := Tab.set 0 s.host.evtUsed (portIx p) used }
      else { s with host.withheld := sat 16 (s.host.withheld + 1) }

/-- The EVENT frames of a record whose source is mapped to them (R458): `ix` selects the source in a range. -/
def eventFrames (r : Rec) (ix : Nat) (s : State) : State :=
  if s.evt.evtmap.getLsbD (eventSource r.code ix) then [Port.t1s, .can, .spi].foldl (eventOn r) (eventSecond s) else s

end Sys2Proof.Machine
end

