-- ==== Sys2Proof/Machine/Operands.lean ====
section
/-! DEFINITION. What every THP request goes through before and after its own effect: addressing, segments, repeats,
and the answer (R491 to R499). -/

namespace Sys2Proof.Machine

/-- The answer to a request (R491, R494). -/
inductive Reply
  /-- ACK with DETAIL, COUNT and the words read -/
  | ack (detail count : Nat) (data : List Word)
  /-- NAK with STATUS and DETAIL -/
  | nak (status detail : Nat)
  /-- RESPONSE with its body (R496) -/
  | resp (body : List Byte)
  /-- answered later, at completion -/
  | later
  deriving DecidableEq, Repr

/-- The message of an answer. -/
def replyMsg (tag : BitVec 16) : Reply → Option Msg
  | .ack d n ws => some { cls := 1, op := 8, tag := tag, body := le 1 0 ++ le 1 d ++ le 2 n ++ ws.flatMap fun w => le 4 w.toNat }
  | .nak st d => some { cls := 1, op := 8, tag := tag, body := le 1 st ++ le 1 d ++ le 2 0 }
  | .resp b => some { cls := 1, op := 0x0C, tag := tag, body := b }
  | .later => none

/-- Requests refused with BUSY and messages refused with MALFORMED are counted (R515). -/
def countReply (r : Reply) (s : State) : State := match r with
  | .nak 1 _ => { s with host.busy := sat 16 (s.host.busy + 1) }
  | .nak 7 _ => { s with host.errThp := sat 8 (s.host.errThp + 1) }
  | _ => s

/-- The address of the sender of a request is held until its answer (R493). -/
def noteAsk (op : Nat) (h : ReqHdr) (s : State) : State := match h.link with
  | .eth _ src _ _ => modPort .t1s (fun x => { x with
      asks := (op, h.tag, src) :: x.asks.filter fun a => !(a.1 == op && a.2.1 == h.tag) }) s
  | _ => s

/-- The address to which the answer of a request goes (R493). -/
def askOf (op : Nat) (p : Port) (tag : BitVec 16) (s : State) : Option (BitVec 48) :=
  ((portOf s p).asks.find? fun a => a.1 == op && a.2.1 == tag).map (·.2.2)

/-- Answer a request on its port (R493), to the sender's address: the answer is queued and kept among the last 16. -/
def answer (op : Nat) (p : Port) (tag : BitVec 16) (r : Reply) (s : State) : State :=
  match replyMsg tag r with
  | none => s
  | some m0 =>
    let m := { m0 with dst := askOf op p tag s }
    let k : Kept := { op := op, tag := tag, at0 := s.time.tns, msg := m }
    settlePins (txPush p m (modPort p (fun x => { x with
      kept := (k :: x.kept).take 16
      asks := x.asks.filter fun a => !(a.1 == op && a.2.1 == tag) }) (countReply r s)))

/-- Answer NAK with a status. -/
def refuse (st : Nat) (s : State) : State × Reply := (s, .nak st 0)

/-- Answer ACK with nothing more. -/
def accept (s : State) : State × Reply := (s, .ack 0 0 [])

/-- The frame reaches the device on a port that runs, and addresses it (R485, R487, R491, R493, R499). -/
def addressed (h : ReqHdr) (s : State) : Bool :=
  portRuns s h.port && linkTakes (nodeNum s) h.link s && (h.port == .spi || (match s.host.snid with
    | some n => h.bcast || decide (h.snid.toNat = n)
    | none => false))

/-- A request with this OP and TAG is executing (R493). -/
def executing (op : Nat) (p : Port) (tag : BitVec 16) (s : State) : Bool :=
  (match s.img.commit with
    | some c => op == 0x0A && c.port == p && c.tag == tag
    | none => false) ||
  s.pwr.waitReq.any (fun w => w.1 == op && w.2.1 == p && w.2.2.1 == tag) ||
  s.bist.waitAbort.any (fun w => w.1 == op && w.2.1 == p && w.2.2 == tag)

/-- The kept answer to a request with this OP and TAG of the last 2 s (R493). -/
def keptAnswer (op : Nat) (p : Port) (tag : BitVec 16) (s : State) : Option Msg :=
  ((portOf s p).kept.find? fun k => k.op == op && k.tag == tag && decide (since s k.at0 ≤ 2 * nsPerSec)).map (·.msg)

/-- The requests of a port that are not answered yet (R493). -/
def unanswered (p : Port) (s : State) : Nat :=
  (match s.img.commit with
    | some c => b2n (c.port == p)
    | none => 0) +
  (s.pwr.waitReq.filter fun w => w.2.1 == p).length + (s.bist.waitAbort.filter fun w => w.2.1 == p).length

/-- The message of which this frame is a segment. -/
def partOf (op : Nat) (h : ReqHdr) (s : State) : Option Partial :=
  (portOf s h.port).part.find? fun x => x.op == op && x.tag == h.tag

/-- The message is no longer incomplete. -/
def dropPart (op : Nat) (h : ReqHdr) (s : State) : State :=
  modPort h.port (fun x => { x with part := x.part.filter fun y => !(y.op == op && y.tag == h.tag) }) s

/-- A whole request (R493): a repeat is answered with the kept answer, one that still executes is dropped, one beyond 16 unanswered
is BUSY, and any other executes. -/
def hostExec (op : Nat) (h : ReqHdr) (f : State → State × Reply) (s : State) : State :=
  if executing op h.port h.tag s then s
  else match keptAnswer op h.port h.tag s with
    | some m => settlePins (txPush h.port m s)
    | none =>
      let s := noteAsk op h s
      if unanswered h.port s ≥ 16 then settle (answer op h.port h.tag (.nak 1 0) s) else
      let (s1, r) := f { s with host.done := sat 16 (s.host.done + 1) }
      settle (answer op h.port h.tag r s1)

/-- The segment begins its message, or follows those received of it (R492). -/
def segOk (op : Nat) (h : ReqHdr) (s : State) : Bool := h.seg == 0 || match partOf op h s with
  | some x => h.seg == x.next
  | none => false

/-- The instants that a frame of a request sets (R512, R557). -/
def noteFrame (h : ReqHdr) (s : State) : State :=
  { s with host.reqAt := s.time.tns, host.spiAt := if h.port == .spi then some s.time.tns else s.host.spiAt }

/-- A segment with MORE is held until the message is complete (R492). -/
def holdSeg (op : Nat) (h : ReqHdr) (s : State) : State :=
  let at0 := match partOf op h s with
    | some x => if h.seg = 0 then s.time.tns else x.at0
    | none => s.time.tns
  modPort h.port (fun x => { x with part := x.part ++ [{ op := op, tag := h.tag, at0 := at0, next := h.seg + 1 }] })
    (dropPart op h s)

/-- A frame of a request that the device takes (R492): a segment out of order makes the message MALFORMED (R494). -/
def hostFrame (op : Nat) (h : ReqHdr) (f : State → State × Reply) (s : State) : State :=
  if !segOk op h s || h.seg ≥ 16 || (h.more && h.port != .can) then
    answer op h.port h.tag (.nak 7 0) (noteAsk op h (dropPart op h (noteFrame h s)))
  else if h.more then holdSeg op h (noteFrame h s)
  else hostExec op h f (dropPart op h (noteFrame h s))

/-- A THP request with its effect and answer: frames that do not reach or address the device are discarded. -/
def hostRequest (op : Nat) (h : ReqHdr) (f : State → State × Reply) (s : State) : State :=
  if addressed h s then hostFrame op h f s else linkNote h.link s

end Sys2Proof.Machine
end

