-- ==== Sys2Proof/Machine/Pair.lean ====
section
/-! DEFINITION. Pairs of kernel lanes (chapter 12): units, the assignment of cells, verification, mismatches, rollback,
quarantine, the hand-over and the debug session. -/

namespace Sys2Proof.Machine

/-! ## Lanes, pairs and units -/

/-- Kernel lane `l`. -/
def laneOf (s : State) (l : Nat) : Lane := Tab.get {} s.krn.lanes l

/-- Put kernel lane `l`. -/
def setLane (l : Nat) (x : Lane) (s : State) : State := { s with krn.lanes := Tab.set {} s.krn.lanes l x }

/-- Change kernel lane `l`. -/
def modLane (l : Nat) (f : Lane → Lane) (s : State) : State := setLane l (f (laneOf s l)) s

/-- Change pair `q`. -/
def modPair (q : Nat) (f : PairSt → PairSt) (s : State) : State :=
  { s with pairs.q := Tab.set {} s.pairs.q q (f (pairOf s q)) }

/-- Pair `q` runs the shadow cells of a debug session (R368). -/
def shadowPair (s : State) (q : Nat) : Bool :=
  s.pairs.dbg.pair == q && (s.pairs.dbg.state == .running || s.pairs.dbg.state == .halted)

/-- The lanes of pair `q` that run cells: none when it is out, both when it is split, lane 2q alone when it became
UNVERIFIED since the last hand-over (R354), its main lane when it is paired. -/
def unitsOf (s : State) (q : Nat) : List Nat :=
  if !s.sys.run.kernel || pairOut s q then []
  else if (pairOf s q).split && !(pairOf s q).oneLane then [2 * q, 2 * q + 1] else [2 * q]

/-- Every unit, in ascending lane order. -/
def units (s : State) : List Nat := (List.range 16).flatMap (unitsOf s)

/-- The capacity K of a unit in cells, by acquisition mode. -/
def unitCap (mode : Nat) : Nat := if mode = 1 then 112 else if mode = 2 then 497 else 272

/-- The cells that have a program, ascending (R363). -/
def progCells (s : State) : List Nat := (cells s).filter fun c => (progOf s c).isSome

/-- Cell `c` runs steps (R251): it is configured, its node had passed authentication at the cut-off, and its cell
group has a program. From step 1 of a cold activation until step 4 the cells whose nodes had passed keep stepping (R60). -/
def steppable (s : State) (c : Nat) : Bool :=
  cellConf s c && (!acqStat s c 3 || s.img.coldCells.contains c) && (progOf s c).isSome

/-! ## Assignment -/

/-- Deal `cs` over `us` in contiguous blocks as the even rule does, each unit limited to its room; the blocks and the
cells left over (R363, R364; a share does not grow when another unit lacks room: DEDUCED, assumption 100). `n` cells and
`u` units at the start, `k` units served. -/
def deal (n u : Nat) (room : Nat → Nat) : Nat → List Nat → List Nat → List (Nat × List Nat) × List Nat
  | _, [], cs => ([], cs)
  | k, l :: ls, cs =>
    let share := n / u + (if k < n % u then 1 else 0)
    let m := min share (room l)
    let r := deal n u room (k + 1) ls (cs.drop m)
    ((l, cs.take m) :: r.1, r.2)

/-- PAIR_NO_SPARE while cells are unassigned (R365). -/
def noSpare (s : State) : State :=
  if s.pairs.stale.isEmpty then s else emit 0x0583 (le 4 s.pairs.stale.length) s

/-- The even rule for the units and the capacity in force (R363). -/
def evenRule (mode : Nat) (s : State) : State :=
  let cs := progCells s
  let us := units s
  let d := deal cs.length us.length (fun _ => unitCap mode) 0 us cs
  noSpare { s with pairs.assign := d.1.foldl (fun t lc => Tab.set [] t lc.1 lc.2) [], pairs.stale := d.2 }

/-- The even rule would leave cells unassigned without pair `q` (R367). -/
def sparesWithout (s : State) (q mode : Nat) : Bool :=
  let us := (List.range 16).flatMap fun p => if p = q then [] else unitsOf s p
  decide ((progCells s).length ≤ us.length * unitCap mode)

/-- The cells assigned to lane `l`. -/
def assigned (s : State) (l : Nat) : List Nat := Tab.get [] s.pairs.assign l

/-- The fill rule for the cells of quarantined pair `q` (R364). -/
def fillRule (q : Nat) (s : State) : State :=
  let cs := assigned s (2 * q) ++ assigned s (2 * q + 1)
  let a0 := Tab.set [] (Tab.set [] s.pairs.assign (2 * q) []) (2 * q + 1) []
  let cap := unitCap (acqMode s)
  let room (l : Nat) := cap - (Tab.get [] a0 l).length
  let us := (units s).filter fun l => decide (room l > 0)
  let d := deal cs.length us.length room 0 us cs
  let merge (t : Tab (List Nat)) (lc : Nat × List Nat) := Tab.set [] t lc.1 ((Tab.get [] t lc.1 ++ lc.2).mergeSort)
  let s1 := { s with pairs.assign := d.1.foldl merge a0, pairs.stale := (s.pairs.stale ++ d.2).mergeSort }
  if d.2.isEmpty then s1 else noSpare s1

/-! ## Ends of steps -/

/-- Lane `l` is idle: the step in hand is given up. -/
def laneIdle (x : Lane) : Lane :=
  { x with cell := none, writes := [], pc := 0, skip := 0, done := 0, again := none, isRerun := false, halted := false }

/-- Pair `q` gives up every step in hand (R357, R358, R362). -/
def pairClear (q : Nat) (s : State) : State :=
  modPair q (fun p => { p with queue := [], steps := [], reruns := [], redo := [], restored := false })
    (modLane (2 * q) laneIdle (modLane (2 * q + 1) laneIdle s))

/-- Pair `q` is quarantined (R358): its cells are placed by the fill rule from the next boundary. -/
def quarantine (q cause : Nat) (s : State) : State :=
  let s1 := modPair q (fun p => { p with quar := true }) (pairClear q s)
  emit 0x0582 (le 1 q ++ le 1 cause ++ le 2 0) { s1 with pairs.fill := s1.pairs.fill ++ [q] }

/-- Pair `q` becomes UNVERIFIED (R354). -/
def unverified (q cause : Nat) (s : State) : State :=
  if (pairOf s q).unver then s
  else emit 0x0584 (le 1 q ++ le 1 cause ++ le 2 0) (modPair q (fun p => { p with unver := true }) s)

/-- The registers of a step whose LIVE bit is set. -/
def liveRegs (live : BitVec 32) (f : Tab Word) : Tab Word := f.filter fun iv => live.getLsbD iv.1

/-- The liveness mask of cell group `g`. -/
def liveOf (s : State) (g : Nat) : BitVec 32 := ((s.cfg.prog[g]?).map (·.live)).getD 0

/-- A mismatch in step `x` of pair `q` rolls the pair back (R357): steps from `x` on are discarded and run again in
order, from the entry values of the checkpoints, or with a live reset when those differ or cannot be read. -/
def rollback (q : Nat) (x : PStep) (badCkpt : Bool) (s : State) : State :=
  let p := pairOf s q
  let now := s.time.tns
  let rb := now :: p.rbAt.filter fun t => decide (now < t + 10 * nsPerSec)
  if rb.length ≥ 16 then quarantine q 2 (modPair q (fun p => { p with rbAt := rb }) s)
  else
    let later := p.steps.filter fun y => decide (y.ord ≥ x.ord)
    let differ := badCkpt || (match x.entryC with
      | some e => decide (e ≠ x.entry)
      | none => false)
    let back (f : Tab Word) (y : Lane) : Lane := { laneIdle y with f := if differ then [] else f }
    let s1 := modLane (2 * q) (back x.entry) s
    let s2 := match x.entryC with
      | some e => modLane (2 * q + 1) (back e) s1
      | none => s1
    modPair q (fun p => { p with
      steps := p.steps.filter fun y => decide (y.ord < x.ord)
      queue := p.queue.filter fun e => decide (e.step < x.ord)
      redo := later.map (·.cell) ++ p.redo
      reruns := x.ord :: p.reruns.filter fun o => decide (o < x.ord)
      nextOrd := x.ord
      restored := true
      liveReset := x.lr || differ
      rbAt := rb }) s2

/-- A mismatch of pair `q` in step `x` (R356): counted, recorded by `log`, and handled by rollback or, in a re-run of the
same step, by quarantine (R357). In shadow run it is counted and recorded only (R369). -/
def mismatch (q : Nat) (x : PStep) (latent badCkpt : Bool) (log : State → State) (s : State) : State :=
  let s1 := modPair q (fun p =>
    if latent then { p with mmL := sat 16 (p.mmL + 1) } else { p with mmC := sat 16 (p.mmC + 1) })
    (if latent then { s with pairs.mmL := sat 16 (s.pairs.mmL + 1) }
     else { s with pairs.mmC := sat 16 (s.pairs.mmC + 1) })
  if shadowPair s q then
    emit 0x0B82 (le 1 (x.cell - s.pairs.dbg.first) ++ le 1 q ++ le 2 x.cell)
      (modPair q (fun p => { p with steps := p.steps.map fun y => if y.ord = x.ord then { y with failed := true } else y })
        { s1 with pairs.dbg.mm := true })
  else if (pairOf s q).reruns.contains x.ord then quarantine q 1 (log s1)
  else rollback q x badCkpt (log s1)

/-- The PAIR_MISMATCH record (R587): target and both values. -/
def logMismatch (q c target : Nat) (mv cv : Word) (s : State) : State :=
  emit 0x0580 (le 2 c ++ le 1 q ++ le 1 target ++ le 4 mv.toNat ++ le 4 cv.toNat) s

/-- The PAIR_MISMATCH record of a disagreement that has no pair of values, such as an ECC error or a write count: the
spec states no value for the fields (Assumption 12). -/
def logOpen (q c : Nat) (s : State) : State :=
  let a := takeFree s
  let b := takeFree a.2
  emit 0x0580 (le 2 c ++ le 1 q ++ le 1 (a.1.toNat % 256) ++ le 8 b.1.toNat) b.2

/-- The target byte of a committed write in PAIR_MISMATCH. -/
def targetByte (w : KWrite) : Nat := if w.out then 128 + w.idx else w.idx

/-- An event that R249 or R250 makes a committed mismatch, met by lane `l` in its step of cell `c`: in a split pair the
step runs once more on the lane, and a second event there quarantines the pair (R361). -/
def eccEvent (l c : Nat) (s : State) : State :=
  let q := l / 2
  let p := pairOf s q
  if p.split then
    let x := laneOf s l
    let s1 := modPair q (fun p => { p with mmC := sat 16 (p.mmC + 1) })
      (logOpen q c { s with pairs.mmC := sat 16 (s.pairs.mmC + 1) })
    if x.isRerun then quarantine q 3 s1
    else setLane l { laneIdle x with f := x.entry, again := some c } s1
  else match p.steps.find? (·.cell == c) with
    | some x => mismatch q x false false (logOpen q c) s
    | none => s

/-! ## Verification -/

/-- The summary stage's part of an initialisation of cell `c` (R280, R288, R290): it is no longer estimated. -/
def estInit (c : Nat) (s : State) : State :=
  modECell s c fun e => { e with
    seen := false, tAnc := none, initAt := s.time.tns, cre := none, reest := false, disagree := false, disNow := false
    eCnt := 0, fCnt := 0, vEmpty := false, vFull := false, ccExcl := false, staleSoc := none, row := 5 }

/-- Initialise the state block of cell `c` (R267): from the persistent record where `keep` and the record holds the
program's PROG_ID, else from INIT. -/
def initCell (keep : Bool) (c : Nat) (s : State) : State :=
  match progOf s c with
  | none => estInit c (modKCell s c fun k => { k with
      slotOk := 0, initWord := false, init := false, lastTns := none, qs := 0, idle := 0, pend := none })
  | some p =>
    let base := (p.init.zipIdx).foldl (fun t wi => Tab.set 0 t wi.2 wi.1) []
    let r : CellRec := Tab.get {} s.nv.recs c
    let use := keep && r.persistOk && r.progId == p.id
    let w := if use then (p.persist.zip r.persist).foldl (fun t iv => Tab.set 0 t iv.1 iv.2) base else base
    modKCell (estInit c s) c fun k => { k with
      w := w
      slotOk := 0
      initWord := true
      init := true
      lastTns := none
      qs := 0
      idle := 0
      pend := none }

/-- A verified step of cell `c` is rejected (R263): at every sixteenth rejection in a row the block is initialised. -/
def rejectStep (l c : Nat) (s : State) : State :=
  let k := kCell s c
  let again := k.rejRun16 + 1 == 16
  let s1 := modKCell { s with krn.numCnt := sat 32 (s.krn.numCnt + 1) } c fun k =>
    { k with rejectRun := sat 8 (k.rejectRun + 1), rejRun16 := if again then 0 else k.rejRun16 + 1, numeric := true
             rejNow := true, init := false, initWord := false, lane := l }
  let s2 := emitIf (k.rejectRun == 0) 0x0501 (le 4 c ++ le 1 ((groupOf s c).getD 0) ++ le 3 0) s1
  if again then
    emit 0x0502 (le 4 c ++ le 4 (((progOf s c).map (·.id)).getD 0))
      (initCell false c (jumpMark ((cellString s2 c).getD 0) 8 { s2 with krn.reinitCnt := sat 32 (s2.krn.reinitCnt + 1) }))
  else s2

/-- The write set of a step carries a NaN or an infinity (R263). -/
def setBad (ws : List KWrite) : Bool := ws.any fun w => notFinite w.val

/-- A write set is released (R352, R361): it waits for the commit point, or its step is rejected. `l` is the main lane
that ran the step. -/
def releaseSet (l c : Nat) (split : Bool) (ws : List KWrite) (s : State) : State :=
  if setBad ws then rejectStep l c s
  else modKCell s c fun k =>
    { k with pend := some ws, rejectRun := 0, rejRun16 := 0, numeric := false, lane := l, uncheckedStep := split }

/-- A write set of shadow cell `c` reaches the shadow blocks and slots (R369). -/
def releaseShadow (c : Nat) (ws : List KWrite) (s : State) : State :=
  let j := c - s.pairs.dbg.first
  if setBad ws then s
  else ws.foldl (fun s w =>
    if w.out then { s with pairs.dbg.out := Tab.set 0 s.pairs.dbg.out (16 * j + w.idx) w.val }
    else { s with pairs.dbg.sw := Tab.set 0 s.pairs.dbg.sw (64 * j + w.idx) w.val }) s

/-- The comparator's injection after every 1,024th committed write (R354): the comparison is repeated with a bit of the
checker's value inverted and must report unequal. -/
def injection (q : Nat) (w e : KWrite) (cmp : Cmp) (s : State) : State :=
  let p := pairOf s q
  let s1 := modPair q (fun p => { p with writeCnt := p.writeCnt + 1 }) s
  if (p.writeCnt + 1) % 1024 ≠ 0 then s1
  else
    let v := w.val ^^^ BitVec.ofNat 32 (2 ^ (p.injCnt % 32))
    if cmp ≠ .missed ∧ { w with val := v } ≠ e then
      modPair q (fun p => { p with injCnt := p.injCnt + 1, odd := !p.odd })
        { s1 with pairs.inj := sat 16 (s1.pairs.inj + 1) }
    else unverified q 2 (modPair q (fun p => { p with injCnt := p.injCnt + 1, odd := !p.odd }) s1)

/-- The checker of pair `q` makes its committed write `w`, number `n` of the step (R352, R353, R356). -/
def compareWrite (q n : Nat) (w : KWrite) (cmp : Cmp) (s : State) : State :=
  match (pairOf s q).steps with
  | [] => s
  | x :: _ =>
    match ((pairOf s q).queue.filter fun e => e.step == x.ord)[n]? with
    | none => s
    | some e =>
      let s1 := modPair q (fun p => { p with odd := !p.odd }) s
      let s2 := if cmp = .railFault then unverified q 1 s1 else s1
      let s3 := injection q w e.w cmp s2
      if e.bad || cmp == .badEntry then mismatch q x false false (logOpen q x.cell) s3
      else if w ≠ e.w then
        mismatch q x false (cmp == .badCkpt) (logMismatch q x.cell (targetByte e.w) e.w.val w.val) s3
      else s3

/-- The first register in which two lanes differ at a scrub compare, among those with LIVE bit `b` (R355). -/
def scrubDiff (live : BitVec 32) (b : Bool) (f g : Tab Word) : List Nat :=
  (rangeFrom 1 31).filter fun i => live.getLsbD i == b && Tab.get 0 f i != Tab.get 0 g i

/-- The checker of pair `q` reaches END of its step with `ws` written (R352, R355): the step is verified, or differs. -/
def verifyStep (q : Nat) (ws : List KWrite) (f : Tab Word) (cmp : Cmp) (s : State) : State :=
  match (pairOf s q).steps with
  | [] => s
  | x :: rest =>
    if x.ended ≠ some ws.length then mismatch q x false (cmp == .badCkpt) (logOpen q x.cell) s
    else
      let live := liveOf s x.group
      let dead := match x.scrub with
        | some g => (scrubDiff live false g f).length
        | none => 0
      let lat := match x.scrub with
        | some g => scrubDiff live true g f
        | none => []
      let s0 := { s with pairs.dead := sat 16 (s.pairs.dead + dead) }
      match lat with
      | i :: _ => mismatch q x true (cmp == .badCkpt) (emit 0x0581 (le 2 x.cell ++ le 1 q ++ le 1 i)) s0
      | [] =>
        let again := (pairOf s q).reruns.contains x.ord
        let s1 := modPair q (fun p => { p with
          steps := rest
          queue := p.queue.filter fun e => e.step != x.ord
          reruns := p.reruns.filter (· != x.ord) }) s0
        let s2 := if again then { s1 with pairs.rb := sat 32 (s1.pairs.rb + 1) } else s1
        if shadowPair s q then (if x.failed then s2 else releaseShadow x.cell ws s2)
        else releaseSet (2 * q) x.cell false ws s2

/-! ## Hand-over -/

/-- Schedule a hand-over at the second boundary from now (R29, R366, R368, R372). -/
def handIn2 (s : State) : State := { s with pairs.handAt := s.pairs.handAt ++ [s.time.frm + 2] }

/-- The boundary for which a hand-over runs now (R362): the next one once the frame has committed, or the last one
while its hand-over is outstanding. -/
def handBoundary (s : State) : Option Word :=
  if s.sys.commitDue then none
  else if handBefore s s.time.frm then some s.time.frm
  else if !s.sys.frameOpen && handBefore s (s.time.frm + 1) then some (s.time.frm + 1)
  else none

/-- A scrub compare runs on the last step of a pair before its hand-over (R362 step 2). -/
def lastBefore (s : State) : Bool := handBefore s (s.sys.frmCut + 1)

/-- The SYS_MODE request that is in force from boundary `b` on. -/
def modeAt (s : State) (b : Word) : Word :=
  if b = s.time.frm then s.sys.modeForce else s.sys.modeNext.getD s.sys.modeForce

/-- Pair `q` leaves quarantine or UNVERIFIED, or returns from debug, when its retest caught every injection (R366,
R372). -/
def retestPair (q : Nat) (ok split back : Bool) (s : State) : State :=
  if ok then
    let s1 := modPair q (fun p => { p with quar := false, unver := false, release := none, split := split }) s
    emitIf (!back) 0x0585 (le 1 q ++ le 1 (b2n split) ++ le 2 0) s1
  else
    emit 0x0584 (le 1 q ++ le 1 3 ++ le 2 0)
      (modPair q (fun p => { p with release := none, unver := p.unver || back, split := p.split || back }) s)

/-- What the hand-over for boundary `b` makes of pair `q` (R360 to R362, R366, R368, R372). -/
def handPair (b : Word) (retest : BitVec 16) (s : State) (q : Nat) : State :=
  let split := (modeAt s b).getLsbD q
  let ok := retest.getLsbD q
  let back := s.pairs.dbg.pair == q && s.pairs.dbg.state == .leaving &&
    (match s.pairs.dbg.at0 with
      | some a => frmLe a b
      | none => false)
  let due := match (pairOf s q).release with
    | some a => frmLe a b
    | none => false
  let s0 := if shadowPair s q then s else pairClear q s
  let s1 := modPair q (fun p => { p with
    nextOrd := 0, writeCnt := 0, injCnt := 0, odd := false, oneLane := false, split := p.unver || split }) s0
  if back then retestPair q ok split true { s1 with pairs.dbg.state := .none, pairs.dbg.at0 := none }
  else if due then retestPair q ok split false s1
  else s1

/-- The shadow run starts (R368): the state blocks of the shadow cells are copied. -/
def shadowStart (s : State) : State :=
  let d := s.pairs.dbg
  let sw := (List.range d.count).foldl (fun t j =>
    (kCell s (d.first + j)).w.foldl (fun t wv => Tab.set 0 t (64 * j + wv.1) wv.2) t) []
  let s1 := pairClear d.pair s
  emit 0x0B80 (le 1 d.pair ++ le 1 d.count ++ le 2 d.first) { s1 with
    pairs.dbg := { d with state := .running, sw := sw, out := [], replay := [], mm := false, chkAt := false
                          haltReq := false, jNext := d.count, at0 := none } }

/-- The session enters its shadow run at boundary `b`. -/
def shadowDue (s : State) (b : Word) : Bool :=
  s.pairs.dbg.state == .entering && (match s.pairs.dbg.at0 with
    | some a => frmLe a b
    | none => false)

/-- The PAIR_SPLIT bits of SYS_MODE_ACT follow the pairs (R30). -/
def splitShown (s : State) : State :=
  { s with sys.modeAct := BitVec.ofNat 32 (s.sys.modeAct.toNat / 65536 * 65536 +
      ((List.range 16).map fun q => if pairSplit s q then 2 ^ q else 0).sum) }

/-- HAND_OVER (R362): the hand-over that is scheduled runs. `retest`: the pairs whose comparator retest catches every
injection. -/
def execHandOver (retest : BitVec 16) (s : State) : Host.Outcome State Fault Refusal :=
  .next (settle' (match handBoundary s with
    | none => s
    | some b =>
      if !s.sys.run.kernel then { s with pairs.handAt := [] }
      else
        let s1 := (List.range 16).foldl (handPair b retest) s
        let s2 := if shadowDue s1 b then shadowStart s1 else s1
        let s3 := { s2 with
          pairs.handAt := s2.pairs.handAt.filter fun a => !frmLe a b
          pairs.handDone := some b
          pairs.fill := []
          krn.lanes := s2.krn.lanes.map fun lx => (lx.1, { lx.2 with first := true }) }
        if b = s.time.frm then evenRule (acqMode s3) (splitShown s3)
        else evenRule (bits (modeActOf s3 (modeAt s b)) 17 16) s3))
where
  /-- Levels, event levels and pins follow the units (R25, R359). -/
  settle' (s : State) : State := settle (settleLevel s)

/-! ## Release and debug -/

/-- PAIR_CTRL.RELEASE (R366, R375): ignored for a pair that is neither quarantined nor UNVERIFIED. -/
def pairRelease (m : BitVec 16) (s : State) : State :=
  let qs := (List.range 16).filter fun q => m.getLsbD q && ((pairOf s q).quar || (pairOf s q).unver)
  if qs.isEmpty then s
  else handIn2 (qs.foldl (fun s q => modPair q (fun p => { p with release := some (s.time.frm + 2) }) s) s)

/-- Why a debug session on pair `q` is refused, 0 when it is not (R367, R378). -/
def dbgRefuse (s : State) (q : Nat) : Nat :=
  let p := pairOf s q
  if !s.cfg.sec.debugAllow then 1
  else if upper s < 3 then 5
  else if p.split || p.unver || p.quar then 2
  else if s.pairs.dbg.state != .none then 3
  else if !sparesWithout s q (acqMode s) then 4 else 0

/-- DBG_SESSION.OPEN (R367, R368). -/
def dbgOpen (q : Nat) (s : State) : State :=
  let why := dbgRefuse s q
  if why ≠ 0 then { s with pairs.dbg.refuse := why }
  else handIn2 { s with
    pairs.dbg.state := .entering
    pairs.dbg.pair := q
    pairs.dbg.mm := false
    pairs.dbg.chkAt := false
    pairs.dbg.at0 := some (s.time.frm + 2)
    pairs.dbg.lastAt := s.time.tns }

/-- A debug session ends (R372) with its cause: 1 CLOSE, 2 10 min, 3 U below L3, 4 cold activation, 5 reset. -/
def dbgEnd (cause : Nat) (s : State) : State :=
  let d := s.pairs.dbg
  let done (st : DbgState) (at0 : Option Word) : Dbg :=
    { d with state := st, at0 := at0, replay := [], sw := [], out := [], chkAt := false, haltReq := false }
  let rec' := emit 0x0B81 (le 1 d.pair ++ le 1 cause ++ le 2 0)
  match d.state with
  | .none | .leaving => s
  | .entering => rec' { s with pairs.dbg := done .none none }
  | .running | .halted => handIn2 (rec' (pairClear d.pair { s with pairs.dbg := done .leaving (some (s.time.frm + 2)) }))

/-- DBG_SESSION_TIMEOUT (R372): 10 min without a DBG write. -/
def execDbgSessionTimeout (s : State) : Host.Outcome State Fault Refusal :=
  .next (if s.time.tns ≥ s.pairs.dbg.lastAt + 600 * nsPerSec then dbgEnd 2 s else s)

/-- The point of lane `l`: cell and instruction index (R370). -/
def lanePoint (s : State) (l : Nat) : Nat × Nat := ((laneOf s l).cell.getD 0, (laneOf s l).pc)

/-- The checker of the debugged pair is at the main lane's point (R370). -/
def atPoint (s : State) (q : Nat) : Bool :=
  let m := laneOf s (2 * q)
  let k := laneOf s (2 * q + 1)
  m.cell.isSome && m.cell == k.cell && m.pc == k.pc && decide ((pairOf s q).steps.length = 1)

/-- While the main lane is halted the checker halts at the same point, and CHK_AT_POINT is set (R370). -/
def dbgFollow (s : State) : State :=
  let d := s.pairs.dbg
  if d.state == .halted && !d.chkAt && atPoint s d.pair then
    modLane (2 * d.pair + 1) (fun x => { x with halted := true }) { s with pairs.dbg.chkAt := true }
  else s

/-- The main lane of the debugged pair halts (R370). -/
def dbgHaltNow (s : State) : State :=
  let q := s.pairs.dbg.pair
  dbgFollow (modLane (2 * q) (fun x => { x with halted := true })
    { s with pairs.dbg.state := .halted, pairs.dbg.haltReq := false, pairs.dbg.chkAt := false })

/-- DBG_CTRL.HALT (R370, R379): the main lane halts at its next instruction. -/
def dbgHalt (s : State) : State :=
  if s.pairs.dbg.state != .running then s
  else if (laneOf s (2 * s.pairs.dbg.pair)).cell.isSome then dbgHaltNow s
  else { s with pairs.dbg.haltReq := true }

/-- DBG_CTRL.RESUME (R379): both lanes resume. -/
def dbgResume (s : State) : State :=
  let q := s.pairs.dbg.pair
  if s.pairs.dbg.state != .halted then s
  else modLane (2 * q) (fun x => { x with halted := false }) (modLane (2 * q + 1) (fun x => { x with halted := false })
    { s with pairs.dbg.state := .running, pairs.dbg.chkAt := false })

/-- DBG_BREAKPOINT (R370, R380): the main lane is at the breakpoint and halts. -/
def execDbgBreakpoint (s : State) : Host.Outcome State Fault Refusal :=
  let d := s.pairs.dbg
  let x := laneOf s (2 * d.pair)
  .next (if d.state == .running && d.brk.getLsbD 31 && x.cell == some (bits d.brk 10 0) && x.pc == bits d.brk 30 21
    then dbgHaltNow s else s)

/-- Apply a debugger write to lane `l`: registers 0 to 31, predicates 32; a write to F0 is discarded (R371). -/
def dbgPoke (l target : Nat) (v : Word) (s : State) : State :=
  if target = 0 then s
  else if target < 32 then modLane l (fun x => { x with f := Tab.set 0 x.f target v }) s
  else modLane l (fun x => { x with p := v.setWidth 8 }) s

/-- The registers of the debugged pair can be written: both lanes are halted (R370). -/
def dbgOpenRegs (s : State) : Bool := s.pairs.dbg.state == .halted && s.pairs.dbg.chkAt

/-- The replay queue is full (R371): the write is answered as busy. -/
def dbgFull (s : State) : Bool := decide (s.pairs.dbg.replay.length ≥ 256)

/-- A debugger write of register, predicate or shadow word `target` (R370, R371). `bad`: its replay entry turns out
uncorrectable. -/
def dbgWrite (target : Nat) (v : Word) (bad : Bool) (s : State) : State :=
  if !dbgOpenRegs s || dbgFull s then s
  else
    let q := s.pairs.dbg.pair
    let s1 := if target ≥ 64 then { s with pairs.dbg.sw := Tab.set 0 s.pairs.dbg.sw (target - 64) v }
      else dbgPoke (2 * q) target v s
    { s1 with pairs.dbg.replay := s1.pairs.dbg.replay ++
        [{ point := lanePoint s (2 * q), target := target, val := v, bad := bad }] }

/-- A replayed DBG write reaches the shadow lane of pair `q`; an entry that fails its check is a mismatch of the step
in execution (R371). -/
def replayOne (q : Nat) (e : Replay) (s : State) : State :=
  if e.bad then
    match (pairOf s q).steps with
    | x :: _ => mismatch q x false false id s
    | [] => s
  else if e.target < 64 then dbgPoke (2 * q + 1) e.target e.val s else s

/-- The checker applies the replay entries of its point, oldest first (R371). -/
def replayApply (q : Nat) : Nat → State → State
  | 0, s => s
  | n + 1, s => match s.pairs.dbg.replay with
    | e :: rest =>
      if e.point = lanePoint s (2 * q + 1) then replayApply q n (replayOne q e { s with pairs.dbg.replay := rest })
      else s
    | [] => s

end Sys2Proof.Machine
end

