-- ==== Sys2Proof/Machine/Therm.lean ====
section
/-! DEFINITION. The thermal guard (chapter 14): sensors, substitution, bands and levels, and the meanings of their
commands. The shutdown sequence that it shares with a power-fail warning is in Power. -/

namespace Sys2Proof.Machine

/-- The neighbours of a sensor (R405): one step away in the L-die grid, or the other P-die sensors. -/
def sensNb (i : Nat) : List Nat :=
  if i ≥ 16 then [16, 17, 18, 19].filter (· != i)
  else
    (if i ≥ 4 then [i - 4] else []) ++ (if i % 4 > 0 then [i - 1] else []) ++
      (if i % 4 < 3 then [i + 1] else []) ++ (if i < 12 then [i + 4] else [])

/-- The quadrant of a sensor (R405): 0 to 3 on the L die, 4 for the P die. -/
def sensQuad (i : Nat) : Nat := if i ≥ 16 then 4 else 2 * (i / 8) + (i % 4) / 2

/-- The other sensors of the sensor's die. -/
def sensDie (i : Nat) : List Nat := if i ≥ 16 then rangeFrom 16 4 else List.range 16

/-- Sensor `i`. -/
def sensor (s : State) (i : Nat) : Sensor := Tab.get {} s.therm.sens i

/-- Change sensor `i`. -/
def modSensor (i : Nat) (f : Sensor → Sensor) (s : State) : State :=
  { s with therm.sens := Tab.set {} s.therm.sens i (f (sensor s i)) }

/-- Insert into an ascending list. -/
def insertI (v : Int) : List Int → List Int
  | [] => [v]
  | x :: xs => if v ≤ x then v :: x :: xs else x :: insertI v xs

/-- Twice the median of a list (R407): the middle value, or the mean of the two middle values. -/
def median2 (l : List Int) : Int :=
  let m := l.foldr insertI []
  let n := m.length
  if n % 2 = 1 then 2 * m.getD (n / 2) 0 else m.getD (n / 2 - 1) 0 + m.getD (n / 2) 0

/-- Why a sensor fails at this measurement (R407), 0 when it does not: 1 its frequency lies outside the band, 2 it
lies more than 15 degC from the median of its valid neighbours. `m` holds each sensor measured: its value and whether
its frequency lies in the band. -/
def sensFail (s : State) (m : List (Nat × Int × Bool)) (i : Nat) (v : Int) (band : Bool) : Nat :=
  if (sensor s i).failed then 0
  else if !band then 1
  else
    let nb := (m.filter fun e => (sensNb i).contains e.1 && e.2.2 && !(sensor s e.1).failed).map (·.2.1)
    if nb.length < 2 then 0
    else if absI (2 * v - median2 nb) > 3000 then 2 else 0

/-- Two failed sensors of quadrant `q` lock ECO (R410). -/
def quadEco (q : Nat) (s : State) : State :=
  let n := ((List.range 20).filter fun j => sensQuad j == q && (sensor s j).failed).length
  if n ≥ 2 && !s.therm.ecoQ.contains q then
    emit 0x0188 (le 1 q ++ le 3 0) { s with therm.ecoLock := true, therm.ecoQ := q :: s.therm.ecoQ } else s

/-- The L die is without sensors once the last of its sixteen failed (R410). -/
def lDieBlind (i : Nat) (s : State) : State :=
  if i < 16 && (List.range 16).all fun j => (sensor s j).failed then { s with therm.lBlind := true } else s

/-- The P die is without sensors once the last of its four failed (R410). -/
def pDieBlind (i : Nat) (s : State) : State :=
  if i ≥ 16 && !s.therm.pBlind && (rangeFrom 16 4).all fun j => (sensor s j).failed
  then emit 0x0189 [] { s with therm.pBlind := true, therm.noRestart := true } else s

/-- Sensor `i` fails (R407, R409, R410). -/
def failSensor (s : State) (e : Nat × Int × Nat) : State :=
  let i := e.1
  if e.2.2 = 0 then s
  else
    let s1 := modSensor i (fun x => { x with failed := true }) s
    let s2 := emit 0x0187 (leI 4 e.2.1 ++ le 1 i ++ le 1 e.2.2 ++ le 2 0) s1
    let s3 := if s2.therm.throtOn then { s2 with therm.failHold := some (s2.time.tns + 600 * nsPerSec) } else s2
    pDieBlind i (lDieBlind i (quadEco (sensQuad i) s3))

/-- The highest value among the valid sensors of a list. -/
def hiValid (s : State) (m : List (Nat × Int × Bool)) (is : List Nat) : Option Int :=
  maxOf? ((m.filter fun e => is.contains e.1 && !(sensor s e.1).failed).map (·.2.1))

/-- The reported value of a measured sensor (R408). -/
def reported (s : State) (m : List (Nat × Int × Bool)) (i : Nat) (v : Int) : Int :=
  if !(sensor s i).failed then v
  else
    match hiValid s m (sensNb i) with
    | some x => x + 800
    | none => match hiValid s m (sensDie i) with
      | some x => x + 800
      | none => match hiValid s m (List.range 20) with
        | some x => x + 800
        | none => (sensor s i).temp

/-- The highest reported value of a list of sensors and the first sensor that has it. -/
def hiReported (s : State) (is : List Nat) : Option (Int × Nat) :=
  is.foldl (fun a i => match a with
    | none => some ((sensor s i).temp, i)
    | some x => if x.1 < (sensor s i).temp then some ((sensor s i).temp, i) else a) none

/-- A die has a valid sensor. -/
def dieValid (s : State) (is : List Nat) : Bool := is.any fun i => !(sensor s i).failed

/-- The margin bands follow the reported values (R399, R400): every change but the first counts, and a change of P
band starts calibration of the current channels. -/
def takeBands (core : Bool) (s : State) : State :=
  let lOk := core && dieValid s (List.range 16)
  let pOk := dieValid s (rangeFrom 16 4)
  let lNew := if core then (hiReported s (List.range 16)).map fun x => bandNext s.time.lBand x.1 else s.time.lBand
  let pNew := if pOk then (hiReported s (rangeFrom 16 4)).map fun x => bandNext s.time.pBand x.1 else s.time.pBand
  let lCh := s.time.lBand.isSome && lNew != s.time.lBand
  let pCh := s.time.pBand.isSome && pNew != s.time.pBand
  let s1 := { s with time.lBand := lNew, time.pBand := pNew
                     time.lCnt := if lCh then sat 16 (s.time.lCnt + 1) else s.time.lCnt
                     time.pCnt := if pCh then sat 16 (s.time.pCnt + 1) else s.time.pCnt }
  let s2 := applyMargins (lOk && pOk) s1
  if pCh then calNow s2 else s2

/-- Count consecutive measurements for a condition. -/
def countUp (b : Bool) (n lim : Nat) : Nat := if b then min lim (n + 1) else 0

/-- The counts toward the levels (R409, R411): `h` is the highest reported value. -/
def countLevels (h : Int) (s : State) : State :=
  let t := s.therm
  let held := t.failHold.isSome || t.lBlind
  { s with
    therm.warnIn := countUp (decide (h ≥ t.warn)) t.warnIn 2
    therm.warnOut := countUp (t.warnOn && decide (h < t.warn - 500)) t.warnOut 10
    therm.throtIn := countUp (decide (h ≥ t.throt)) t.throtIn 2
    therm.throtOut := countUp (t.throtOn && !held && decide (h < t.throt - 500)) t.throtOut 10 }

/-- The restart watch while the core is unpowered (R413, R414): consecutive measurements in which every valid P-die
sensor reads below the restart level; a value at or above SHUT holds start-up before step 3. -/
def watchRestart (s : State) : State :=
  let vs := ((rangeFrom 16 4).filter fun i => !(sensor s i).failed).map fun i => (sensor s i).temp
  let n := countUp (!vs.isEmpty && vs.all fun v => decide (v < s.therm.warn - 500)) s.therm.restartCnt 10
  let hot := vs.any fun v => decide (v ≥ s.therm.shut)
  { s with therm.restartCnt := n, therm.preHot := hot || s.therm.preHot && decide (n < 10) }

/-- The measurement interval of R406 as THERM_STATUS.RATE. -/
def rateOf (h : Int) (s : State) : Nat :=
  if h < s.therm.throt - 1000 then 0 else if h < s.therm.shut - 500 then 1 else 2

/-- THERMAL_MEASUREMENT (R405 to R411): every sensor of the powered dies is measured together. -/
def execThermalMeasurement (ls ps : List (Int × Bool)) (s : State) : Host.Outcome State Fault Refusal :=
  .next (settle (if !s.sys.run.thermP then s
    else
      let core := s.sys.run.core && s.sys.run.thermL
      let lm := if core then (List.range 16).zip ls else []
      let m := (lm ++ (rangeFrom 16 4).zip ps).map fun e => (e.1, e.2.1, e.2.2)
      let s1 := m.foldl (fun x e => failSensor x (e.1, e.2.1, sensFail s m e.1 e.2.1 e.2.2)) s
      let rep := m.map fun e => (e.1, reported s1 m e.1 e.2.1, e.2.1)
      let s2 := rep.foldl (fun x e => modSensor e.1 (fun y =>
          { y with temp := satI 16 e.2.1, raw := e.2.2, subst := y.failed }) x) s1
      let hi := hiReported s2 (rep.map (·.1))
      match hi with
      | none => s
      | some h =>
        let s3 := takeBands core { s2 with therm.measured := true, therm.hi := hi }
        if core then
          let s4 := countLevels h.1 s3
          { s4 with therm.rate := rateOf h.1 s4, therm.shutHit := decide (h.1 ≥ s4.therm.shut) }
        else watchRestart { s3 with therm.rate := 1 }))

/-- The payload of THERM_WARN and THERM_THROTTLE (R587). -/
def thermPay (h : Option (Int × Nat)) : List Byte := leI 4 (h.getD (0, 0)).1 ++ le 1 (h.getD (0, 0)).2 ++ le 3 0

/-- THERMAL_WARNING (R411): two measurements at or above WARN. -/
def execThermalWarning (s : State) : Host.Outcome State Fault Refusal :=
  .next (settle (if !s.therm.warnOn && decide (s.therm.warnIn ≥ 2) then
      emit 0x0180 (thermPay s.therm.hi) { s with therm.warnOn := true, therm.warnOut := 0 } else s))

/-- THERMAL_WARNING_END (R411): ten measurements below WARN - 5 degC. -/
def execThermalWarningEnd (s : State) : Host.Outcome State Fault Refusal :=
  .next (if s.therm.warnOn && decide (s.therm.warnOut ≥ 10) then { s with therm.warnOn := false, therm.warnIn := 0 } else s)

/-- Throttle enters (R411): its actions begin at the next frame boundary (R412). -/
def throttleEnter (h : Option (Int × Nat)) (s : State) : State :=
  emit 0x0181 (thermPay h) { s with therm.throtOn := true, therm.throtOut := 0, therm.throtAt := s.time.tns }

/-- THERMAL_THROTTLE (R411): two measurements at or above THROT. -/
def execThermalThrottle (s : State) : Host.Outcome State Fault Refusal :=
  .next (settle (if !s.therm.throtOn && decide (s.therm.throtIn ≥ 2) then throttleEnter s.therm.hi s else s))

/-- THERMAL_THROTTLE_END (R411): ten measurements below THROT - 5 degC with no hold in force. -/
def execThermalThrottleEnd (s : State) : Host.Outcome State Fault Refusal :=
  .next (settle (if s.therm.throtOn && decide (s.therm.throtOut ≥ 10) && s.therm.failHold.isNone && !s.therm.lBlind then
      emit 0x0182 (le 4 (since s s.therm.throtAt / nsPerSec)) { s with therm.throtOn := false, therm.throtIn := 0 }
    else s))

/-- FAIL_HOLD_EXPIRY (R409): ten minutes after the last sensor failure in throttle the hold ends. -/
def execFailHoldExpiry (s : State) : Host.Outcome State Fault Refusal :=
  .next (match s.therm.failHold with
    | some t => if s.time.tns ≥ t then { s with therm.failHold := none, therm.throtOut := 0 } else s
    | none => s)

/-- THERM_CTRL.HOLD_CLR ends thermal hold (R415, R425): the time block keeps its stored shutdowns. -/
def holdClear (s : State) : State :=
  if s.nv.tb.hold then emit 0x0186 [] (tbWrite { s with nv.tb.hold := false }) else s

/-- The shutdowns within the last 3,600 s of TNS (R415, R418). -/
def recentShut (now : Nat) (shut : List Nat) : Nat := (shut.filter fun t => decide (now - t ≤ 3600 * nsPerSec)).length

end Sys2Proof.Machine
end

