-- ==== Sys2Proof/Machine/Bist.lean ====
section
/-! DEFINITION. Self-test (chapter 20): runs of the BIST controller, their results and aborts, and soft repair. -/

namespace Sys2Proof.Machine

/-! ## Targets and conditions -/

/-- The regions of a target (R566). -/
def bistRegions (t : Nat) : Nat :=
  if t = 0 then 256 else if t = 1 then 6 else if t = 2 then 8 else if t = 3 then 16 else if t = 4 then 12 else 128

/-- The steps per region of a target (R566). -/
def bistSteps (t : Nat) : Nat := if t ≤ 2 then 10 else if t = 3 then 64 else 1

/-- A run is in progress or being aborted. -/
def bistBusy (s : State) : Bool := s.bist.state == .running || s.bist.state == .aborting

/-- The conditions of R567, with VCORE in mV and the deviation of TREF in ppm as measured. -/
def bistCond (mv : Nat) (ppm : Int) (s : State) : Bool :=
  decide (780 ≤ mv ∧ mv ≤ 820) && decide (absI ppm ≤ 10000) &&
    ((List.range 16).all fun i => (sensor s i).failed || decide (-4000 ≤ (sensor s i).temp ∧ (sensor s i).temp ≤ 13500)) &&
    !s.therm.acting && s.pwr.state == .run && s.img.coldStep == 0

/-- The first region of the run in progress and the number of its regions. -/
def bistRange (s : State) : Nat × Nat :=
  let k := bistSteps s.bist.last
  (s.bist.region - s.bist.done / k, s.bist.total / k)

/-- A range of regions lies within the target (R568); COUNT 0 is 256. -/
def bistCount (s : State) : Nat := if s.bist.count = 0 then 256 else s.bist.count

/-! ## Runs -/

/-- An uncorrectable word met while region `bist.region` of the target is copied to the shadow is handled by its owner
as on any other read (R570): an error of a table unit copy is recorded and the copy reloaded (R249); one of a cell's
state block is a mismatch of the pair whose step of that cell is in progress (R250), and waits for the next read where
none is (DEDUCED, assumption 98). The spec names no action of an owner of SRAM. -/
def bistEcc (h : BistEcc) (s : State) : State :=
  match s.bist.last, h with
  | 2, .table id => emit 0x0503 (le 4 (b2n (decide (4 ≤ s.bist.region))) ++ le 2 id ++ le 2 0) s
  | 1, .cell c => match (List.range 32).find? fun l => (laneOf s l).cell == some c with
    | some l => eccEvent l c s
    | none => s
  | _, _ => s

/-- The copy of a region into the shadow (R569, R570). -/
def bistCopy (ecc : List BistEcc) (s : State) : State := ecc.foldl (fun s h => bistEcc h s) s

/-- A run starts over `n` regions from `first` of target `t` (R567, R569, R571, R575): VCORE is forced to 0.80 V and the
first region is copied. -/
def bistRun (t first n : Nat) (bg : Bool) (ecc : List BistEcc) (s : State) : State :=
  bistCopy ecc (phaseStart 2 { s with
    bist.state := .running
    bist.last := t
    bist.region := first
    bist.total := n * bistSteps t
    bist.done := 0
    bist.fail := false
    bist.abort := 0
    bist.failAddr := 0
    bist.failCnt := 0
    bist.failBit := 0
    bist.bg := bg
    pwr.force := 1
    pwr.vcore := 2 })

/-- The refusal of a START of target `t` over BIST_RANGE (R567, R568): status and REFUSE, 0 when it may run. -/
def bistChk (t mv : Nat) (ppm : Int) (s : State) : Nat × Nat :=
  if decide (s.bist.first + bistCount s > bistRegions t) then (2, 4)
  else if bistBusy s then (1, 2)
  else if t = 3 && !((rangeFrom s.bist.first (bistCount s)).all fun q => (Tab.get {} s.pairs.q q).quar) then (9, 3)
  else if !bistCond mv ppm s then (9, 1)
  else (0, 0)

/-- BIST_CTRL.START with its TARGET (R568): it runs, or is refused and REFUSE says why. -/
def bistStart (t mv : Nat) (ppm : Int) (ecc : List BistEcc) (s : State) : State × Nat :=
  let c := bistChk t mv ppm s
  if c.1 ≠ 0 then ({ s with bist.refuse := c.2 }, c.1)
  else (bistRun t s.bist.first (bistCount s) false ecc { s with bist.target := t }, 0)

/-- A run is aborted (R573), with its cause. -/
def bistAbort (cause : Nat) (s : State) : State :=
  if s.bist.state == .running then { s with bist.state := .aborting, bist.abort := cause } else s

/-- Failing compares of a region are taken: address and bit (R572). -/
def bistFails (fs : List (Nat × Nat)) (s : State) : State :=
  match fs with
  | [] => s
  | (a, b) :: _ =>
    { s with
      bist.failAddr := if s.bist.fail then s.bist.failAddr else BitVec.ofNat 32 a
      bist.failBit := if s.bist.fail then s.bist.failBit else b
      bist.failCnt := sat 16 (s.bist.failCnt + fs.length)
      bist.fail := true }

/-- The signature of a region of targets 3 and 4 is compared with what mask ROM expects (R572). -/
def bistSign (sig : Word) (s : State) : State :=
  if s.bist.last = 3 ∨ s.bist.last = 4 then
    let e := Config.bistSig s.bist.last s.bist.region
    let s1 := { s with bist.sig := sig, bist.sigExp := e }
    if sig = e then s1 else bistFails [(s.bist.region, 0xFF)] s1
  else s

/-- The record of a run's result (R571). -/
def bistRecord (s : State) : State :=
  let b := s.bist
  if b.done ≠ b.total then
    emit 0x0B02 (le 4 b.done ++ le 1 b.last ++ le 1 b.abort ++ le 1 (b2n b.fail) ++ le 1 0) s
  else if b.fail then
    emit 0x0B01 (le 4 b.failAddr.toNat ++ le 1 b.last ++ le 1 b.failBit ++ le 2 0 ++ le 4 b.failCnt) s
  else emit 0x0B00 (le 1 b.last ++ le 3 0 ++ le 4 b.total) s

/-- A run ends (R571, R575): its result stands, the redirection and the forcing of VCORE end, and digest mode ends
with its record. -/
def bistEnd (s : State) : State :=
  let b := s.bist
  let r := if b.done ≠ b.total then 3 else if b.fail then 2 else 1
  phaseEnd 2 (bistRecord { s with
    bist.state := .idle
    bist.result := r
    bist.bg := false
    pwr.force := if s.pwr.force = 1 then 0 else s.pwr.force
    pwr.vcore := if s.pwr.force = 1 && bits s.sys.modeAct 25 24 == 1 then 1 else s.pwr.vcore })

/-- BIST_REGION_DONE (R569 to R572): the region under test completes with these failing compares (address and bit), or
this signature, and is restored; the run ends with its last region, or the next one is copied. -/
def execBistRegionDone (fails : List (Nat × Nat)) (sig : Word) (ecc : List BistEcc) (s : State) :
    Host.Outcome State Fault Refusal :=
  .next (if s.bist.state != .running then s
    else
      let s1 := bistSign sig (bistFails (if s.bist.last = 3 ∨ s.bist.last = 4 then [] else fails) s)
      let s2 := { s1 with
        bist.done := s1.bist.done + bistSteps s1.bist.last
        bist.region := s1.bist.region + 1
        bist.bgNext := if s1.bist.bg then (s1.bist.region + 1) % 256 else s1.bist.bgNext }
      settle (settleLevel (if s2.bist.done ≥ s2.bist.total then bistEnd s2 else bistCopy ecc s2)))

/-- BIST_CONDITION_LOST (R567, R573): the 1 ms check finds a condition false. -/
def execBistConditionLost (mv : Nat) (ppm : Int) (s : State) : Host.Outcome State Fault Refusal :=
  .next (if bistCond mv ppm s then s else bistAbort 2 s)

/-- BIST_BACKGROUND (R577): PERIOD seconds have passed since the last background region; the next one runs, or is
skipped when its conditions fail. It waits while a run is in progress. -/
def execBistBackground (mv : Nat) (ppm : Int) (ecc : List BistEcc) (s : State) : Host.Outcome State Fault Refusal :=
  .next (if !s.sys.run.bist || s.bist.period = 0 || bistBusy s || since s s.bist.bgAt < s.bist.period * nsPerSec then s
    else
      let s1 := { s with bist.bgAt := s.time.tns }
      if bistCond mv ppm s then settle (bistRun 0 s.bist.bgNext 1 true ecc s1)
      else { s1 with bist.skips := sat 16 (s1.bist.skips + 1) })

/-! ## Soft repair (R578) -/

/-- Repair entry `e`: EN and ROW. -/
def repairEnt (s : State) (e : Nat) : Bool × Nat := Tab.get (false, 0) s.bist.repair e

/-- The row that an entry maps. -/
def mapped (x : Bool × Nat) : Option Nat := if x.1 then some x.2 else none

/-- A run in progress covers SRAM row `row`. -/
def rowInRun (s : State) (row : Nat) : Bool :=
  bistBusy s && s.bist.last == 0 &&
    (let r := bistRange s
     decide (r.1 ≤ row / 64 ∧ row / 64 < r.1 + r.2))

/-- The entry that a BIST_REPAIR write asks for. -/
def repairOf (v : Word) : Bool × Nat := (v.getLsbD 31, bits v 13 0)

/-- The refusal of a BIST_REPAIR write to entry `e`, 0 when it is accepted (R578). -/
def repairChk (e : Nat) (v : Word) (s : State) : Nat :=
  let new := repairOf v
  let old := repairEnt s e
  let taken := new.1 && s.bist.repair.any fun x => decide (x.1 ≠ e) && x.2 == new
  let rows := [mapped old, mapped new].filterMap id
  if taken then 9 else if mapped old ≠ mapped new && rows.any (rowInRun s) then 1 else 0

/-- A BIST_REPAIR write to entry `e` (R578): the row is mapped to its spare, or copied back and unmapped. -/
def repairPut (e : Nat) (v : Word) (s : State) : State :=
  let new := repairOf v
  let old := repairEnt s e
  let s1 := { s with bist.repair := Tab.set (false, 0) s.bist.repair e new }
  if mapped old = mapped new then s1
  else emit 0x0B03 (le 4 (if new.1 then new.2 else old.2) ++ le 1 e ++ le 1 (b2n new.1) ++ le 2 0) s1

end Sys2Proof.Machine
end

