-- ==== Sys2Proof/Machine/Win.lean ====
section
/-! DEFINITION. Winnow (chapter 11): the impedance tables, the values the lanes use, step events, windows, tails and the
update rule. -/

namespace Sys2Proof.Machine

/-! ## Exponentials -/

/-- e to the power -x, for x ≥ 0, to 256 bits. -/
def expNeg (x : Rat) : Rat :=
  if x ≤ 0 then 1 else if x > 200 then 0
  else (2 ^ expBits : Nat) / (expFix (x * (2 ^ expBits : Nat)).floor.toNat : Rat)

/-- Bisect for the x with e^-x = a between `lo` and `lo + w`. -/
def lnBisect (a : Rat) : Nat → Rat → Rat → Rat
  | 0, lo, w => lo + w / 2
  | n + 1, lo, w => let m := lo + w / 2; if expNeg m > a then lnBisect a n m (w / 2) else lnBisect a n lo (w / 2)

/-- -ln a for 0 < a < 1, to 2^-64. -/
def lnNeg (a : Rat) : Rat := lnBisect a 72 0 200

/-! ## Bands, bins and the source entry -/

/-- The index that a value has among its boundaries, with hysteresis about the index in force (R323). -/
def moveIx (bounds : List Rat) (hyst v : Rat) (known : Bool) (cur : Nat) : Nat :=
  if !known then (bounds.filter fun b => decide (v ≥ b)).length
  else
    let up := (bounds.filter fun b => decide (v ≥ b + hyst)).length
    let down := (bounds.filter fun b => decide (v > b - hyst)).length
    if up > cur then up else if down < cur then down else cur

/-- The boundaries of the temperature bands, 0.01 degC (R323). -/
def bandBounds : List Rat := [-1000, 0, 1000, 2000, 3000, 4000, 5000]

/-- The boundaries of the SoC bins (R323). -/
def binBounds : List Rat := [5, 10, 20, 30, 40, 50, 60, 70, 80, 90, 95].map (· / 100)

/-- Output slot `j` of cell `c` as a number (R279). -/
def slotVal (s : State) (c j : Nat) : Rat := toRat (Tab.get 0 (kCell s c).out j)

/-- Entry (b, j) of cell `c` (R322). -/
def zEntry (s : State) (c b j : Nat) : ZEntry := Tab.get {} s.win.z (96 * c + 12 * b + j)

/-- Put entry (b, j) of cell `c`. -/
def setZ (c b j : Nat) (e : ZEntry) (s : State) : State :=
  { s with win.z := Tab.set {} s.win.z (96 * c + 12 * b + j) e }

/-- Indices 0 to `n - 1` by distance from `k`, the lower first on a tie (R326). -/
def byDistance (n k : Nat) : List Nat :=
  k :: (rangeFrom 1 n).flatMap fun d => (if d ≤ k then [k - d] else []) ++ (if k + d < n then [k + d] else [])

/-- The source entry of cell `c` (R326): band and bin. -/
def sourceOf (s : State) (c b j : Nat) : Nat × Nat :=
  let all := (byDistance 8 b).flatMap fun b' => (byDistance 12 j).map fun j' => (b', j')
  (all.find? fun bj => decide ((zEntry s c bj.1 bj.2).conf ≥ 1)).getD (b, j)

/-- At a cut-off band and bin follow, and the source entry is captured for the lanes (R323, R326). -/
def winCapture (s : State) (c : Nat) : State :=
  let w := wCell s c
  let b := moveIx bandBounds 100 ((cellAcq s c).tLoc : Rat) w.known w.band
  let j := moveIx binBounds (1 / 200) (slotVal s c 0) w.known w.bin
  let src := sourceOf s c b j
  let moved := w.known && (b != w.band || j != w.bin)
  modWCell s c fun w => { w with
    band := b, bin := j, known := true, srcBand := src.1, srcBin := src.2, cap := zEntry s c src.1 src.2
    winEnd := w.winEnd || (moved && w.win.isSome)
    tail := if b != w.band then w.tail.map fun t => { t with ended := true } else w.tail }

/-! ## Priors -/

/-- The prior records in force (R324): those of the WIN section. -/
def priorOf (s : State) (b j : Nat) : Prior := s.cfg.win.prior.getD (12 * b + j) {}

/-- A prior resistance divided by the capacity of the string (R324). -/
def priorR (cap : Nat) (r : BitVec 16) : BitVec 16 := if cap = 0 then r else rat16 (rat16Of r * 1000 / cap)

/-- Entry (b, j) of cell `c` as its prior (R324). -/
def priorEntry (s : State) (c b j : Nat) : ZEntry :=
  let p := priorOf s b j
  let cap := capNom s ((cellString s c).getD 0)
  { rs := priorR cap p.rs, ra := priorR cap p.ra, ta := p.ta, rb := priorR cap p.rb, tb := p.tb, conf := 0 }

/-- Every entry of cell `c` takes its prior. -/
def takePriors (c : Nat) (s : State) : State :=
  (List.range 96).foldl (fun s e => setZ c (e / 12) (e % 12) (priorEntry s c (e / 12) (e % 12)) s) s

/-- The table of cell `c` is read into SRAM, or takes its priors when no bank is readable (R339). -/
def loadTable (c : Nat) (s : State) : State :=
  match nvRead s (0x100 + c) with
  | some (.ztab es) => es.foldl (fun s e => setZ c (e.1 / 12) (e.1 % 12) e.2 s) s
  | _ => takePriors c s

/-! ## The stream -/

/-- C of string `i` in mA (R328). -/
def capMa (s : State) (i : Nat) : Int := capNom s i

/-- The steps of WIN_RATE (R337): 1, 2 or 4, or 0 when off. -/
def winStep (rate : Nat) : Nat := if rate = 0 then 1 else if rate = 1 then 2 else if rate = 2 then 4 else 0

/-- WIN_RATE in force. -/
def winRate (s : State) : Nat := bits s.sys.modeAct 23 22

/-- Winnow works (R22, R24, R337). -/
def winOn (s : State) : Bool := s.sys.run.winnow && upper s == 4 && winRate s != 3

/-- Characterisation step 2 is in force (R338). -/
def winChar (s : State) : Bool := s.est.chr.step == 2

/-- The number of the frame in the stream, none when the frame is not in it (R319). -/
def streamIx (s : State) : Option Nat :=
  let f := s.time.frm.toNat
  if acqMode s = 1 then (if f % 4 = 0 then some (f / 4) else none) else some f

/-- The sample of string `i`, none when it is excluded (R320). -/
def strSample (s : State) (i : Nat) : Option Int :=
  let y := curStr s i
  if y.missing || y.sat || levelOf s i != 4 then none else some y.iS

/-- The cell is STALE (R295, R365). -/
def isStale (s : State) (c : Nat) : Bool := s.pairs.stale.contains c

/-- The sample of cell `c` is excluded (R320). -/
def cellExcl (s : State) (c : Nat) : Bool :=
  [0, 1, 2, 3, 4, 5].any (acqStat s c) || (progOf s c).isNone || isStale s c ||
    (strSample s ((cellString s c).getD 0)).isNone

/-- A stream sample enters the histories of string `i` (R328, R332). -/
def strPush (s : State) (i : Nat) : State :=
  let w : WStr := Tab.get {} s.win.str i
  let x := strSample s i
  let big := match x with
    | some v => decide ((absI v : Int) * 100 ≥ s.cfg.win.stepDi * capMa s i)
    | none => false
  { s with win.str := Tab.set {} s.win.str i { w with
      iHist := (x :: w.iHist).take 24, bigAt := if big then some s.time.tns else w.bigAt } }

/-- The current of string `i` is below C/50. -/
def lowCur (s : State) (i : Nat) (v : Int) : Bool := decide ((absI v : Int) * 50 < capMa s i)

/-- A tail starts on string `i` at this sample (R332); the rest after a characterisation pulse is one whatever STEP_DI
(R338). -/
def tailStarts (s : State) (i : Nat) : Bool :=
  let w : WStr := Tab.get {} s.win.str i
  match w.iHist with
  | some v :: some u :: _ => lowCur s i v && !lowCur s i u && (winChar s || (match w.bigAt with
      | some t => decide (s.time.tns ≤ t + nsPerSec)
      | none => false))
  | _ => false

/-- The time between the samples that windows and tails use, ns (R319, R337). -/
def usePeriod (s : State) : Nat := (if acqMode s = 1 then 4 * period s else period s) * winStep (winRate s)

/-- The decimation block of cell `c` takes a sample; with the last sample of its 50 ms it goes into the window (R330,
R331). -/
def blockPush (s : State) (c v : Nat) (i : Int) (w : WCell) : WCell :=
  let fresh := w.blk.2.2 == 0 && !(w.blkNext && decide (s.time.tns < w.blkAt + 50000000))
  let at0 := if fresh then s.time.tns else w.blkAt
  let b : Nat × Int × Nat := (w.blk.1 + v, w.blk.2.1 + i, w.blk.2.2 + 1)
  let next := w.blkNext && !fresh
  if s.time.tns + usePeriod s < at0 + 50000000 then { w with blk := b, blkAt := at0, blkNext := next }
  else
    let vm : Rat := (b.1 : Rat) / (10 * (b.2.2 : Rat))
    let im : Rat := (b.2.1 : Rat) / (b.2.2 : Rat)
    let y := (slotVal s c 6 + slotVal s c 9) * 1000 - vm - slotVal s c 5 * im
    let win : ZWin := w.win.getD { openAt := at0, band := w.band, bin := w.bin }
    { w with blk := (0, 0, 0), blkAt := at0 + 50000000, blkNext := true
             win := some { win with blocks := win.blocks ++ [(y, im, next)] } }

/-- A tail of cell `c` takes a sample, or ends (R332). -/
def tailPush (s : State) (v : Nat) (i : Int) (str : Nat) (t : ZTail) : ZTail :=
  if t.ended then t
  else if !lowCur s str i then { t with ended := true }
  else { t with samples := t.samples ++ [(s.time.tns - t.startAt, v)] }

/-- The samples of a window in progress stop: what comes next begins a new block. -/
def blockBreak (w : WCell) : WCell := { w with blk := (0, 0, 0), blkNext := false }

/-- A tail of cell `c` starts (R332). In characterisation step 2 the window that ends with the pulse is complete (R338). -/
def tailStart (use : Bool) (s : State) (c : Nat) (w : WCell) : WCell :=
  { blockBreak w with
    tail := some { startAt := s.time.tns, band := w.band, bin := w.bin, vb := slotVal s c 8, chr := winChar s
                   samples := if use then [(0, (cellAcq s c).v)] else [] }
    win := if winChar s && !w.winEnd then w.win.map fun z => { z with pulse := true } else w.win
    winEnd := w.winEnd || (winChar s && w.win.isSome) }

/-- Cell `c` takes a stream sample; `use`: windows and tails use it (R320, R337). A tail feeds no window (R332); in
characterisation step 2 the 2 s before a pulse lie in a tail and count (R338). -/
def cellPush (use starts : Bool) (s : State) (c : Nat) : State :=
  let i := (cellString s c).getD 0
  let x := cellAcq s c
  if cellExcl s c then
    modWCell s c fun w =>
      let w1 := { w with vHist := (none :: w.vHist).take 24 }
      if use then { blockBreak w1 with
          winEnd := w.winEnd || w.win.isSome, tail := w.tail.map fun t => { t with ended := true } }
      else w1
  else
    let cur := x.iS
    modWCell s c fun w =>
      let w1 := { w with vHist := (some (x.v, w.band, w.bin) :: w.vHist).take 24 }
      let block (w : WCell) : WCell := if w.winEnd then blockBreak w else blockPush s c x.v cur w
      if starts then tailStart use s c w1
      else if !use then w1
      else match w1.tail with
        | some t => let w2 := { w1 with tail := some (tailPush s x.v cur i t) }; if winChar s then block w2 else w2
        | none => block w1

/-- Open windows and tails are discarded (R337). -/
def winDiscard (s : State) : State :=
  { s with win.cells := (s.win.cells.map fun cw => (cw.1, { cw.2 with
      win := none, tail := none, winEnd := false, blk := (0, 0, 0), blkNext := false })).filter fun cw => decide (cw.2 ≠ {}) }

/-- A change of the acquisition mode ends every window (R331). -/
def winEndAll (s : State) : State :=
  { s with win.cells := s.win.cells.map fun cw => (cw.1, { cw.2 with winEnd := cw.2.winEnd || cw.2.win.isSome }) }

/-- Winnow's part of the cut-off (R319, R326, R328); at WIN_RATE 0b11 the lane inputs of a cell stay as they were captured
(R337). -/
def winCutOff (s : State) : State :=
  let s1 := (cells s).foldl (fun s c => if winRate s == 3 && (wCell s c).known then s else winCapture s c) s
  if !winOn s1 then
    let s2 := winDiscard s1
    { s2 with win.str := [], win.cells := s2.win.cells.map fun cw => (cw.1, { cw.2 with vHist := [] }) }
  else match streamIx s1 with
    | none => s1
    | some n =>
      let s2 := (strings s1).foldl strPush s1
      let starts := (strings s2).filter (tailStarts s2)
      (cells s2).foldl (fun s c =>
        cellPush (n % winStep (winRate s2) == 0) (starts.contains ((cellString s c).getD 0)) s c) s2

/-! ## Step events -/

/-- The number of samples back from n1 to n0, from the changes of the current, newest first (R328). -/
def stepRun (lim : Rat) : List (Option Int) → Nat
  | some a :: some b :: rest => if absR ((a : Rat) - b) > lim then stepRun lim (some b :: rest) + 1 else 0
  | _ => 0

/-- The step event that string `i` shows at this sample (R328): n1 - n0. In characterisation step 2 a change between a pulse
and rest is one whatever STEP_DI and EVT_HOLD (R338). -/
def stepEvent (s : State) (i : Nat) : Option Nat :=
  let w : WStr := Tab.get {} s.win.str i
  let lim : Rat := (capMa s i : Rat) / 50
  let hold := s.cfg.win.evtHold * 1000000 * winStep (winRate s)
  let free := match w.evAt with
    | some t => decide (s.time.tns ≥ t + hold) || (winChar s && t != s.time.tns)
    | none => true
  match w.iHist with
  | some a :: some b :: rest =>
    let n := stepRun lim (some b :: rest)
    match (some b :: rest)[n]? with
    | some (some z) =>
      if absR ((a : Rat) - b) ≤ lim && n != 0 && decide (n ≤ s.cfg.win.stepT) && free && acqMode s != 2 &&
          (decide (absR ((b : Rat) - z) * 100 ≥ s.cfg.win.stepDi * (capMa s i : Rat)) ||
            winChar s && lowCur s i b != lowCur s i z)
      then some n else none
    | _ => none
  | _ => none

/-- The change of a polarisation voltage over currents `is` in mA, one for each millisecond, relative to the current at
n0 (R329), in mV; `r` in mOhm, `tau` in s. -/
def polar (r tau : Rat) (is : List Rat) : Rat :=
  if tau ≤ 0 then 0
  else
    let a := expNeg (1 / (1000 * tau))
    is.foldl (fun v i => a * v + (1 - a) * r * i / 1000) 0

/-- The event estimate of cell `c` and its offer (R329), `n` samples from n0 to n1. -/
def stepOffer (s : State) (i n c : Nat) : Option ZOffer :=
  let w := wCell s c
  let str : WStr := Tab.get {} s.win.str i
  let vs := (w.vHist.drop 1).take (n + 1)
  let is := ((str.iHist.drop 1).take (n + 1)).map fun x => x.getD 0
  if vs.any (·.isNone) || decide (vs.length < n + 1) then none
  else
    let v1 := ((vs.getD 0 none).map (·.1)).getD 0
    let o := (vs.getD n none).getD (0, 0, 0)
    let i1 := is.getD 0 0
    let i0 := is.getD n 0
    let rel := ((is.take n).reverse).map fun (x : Int) => (x : Rat) - i0
    let dv : Rat := ((v1 : Rat) - o.1) / 10
    let da := polar (rat16Of w.cap.ra) (rat16Of w.cap.ta) rel
    let db := polar (rat16Of w.cap.rb) (rat16Of w.cap.tb) rel
    let di : Rat := ((i1 : Rat) - i0) / 1000
    if di = 0 then none
    else some { kind := .step, cell := c, band := o.2.1, bin := o.2.2, r := -(dv + da + db) / di, chr := winChar s }

/-- Offer results (R333): discarded while frozen (R336). -/
def offer (zs : List ZOffer) (s : State) : State :=
  if s.win.freeze then s else { s with win.offers := s.win.offers ++ zs }

/-- WIN_STEP_EVENT (R328, R329): an accepted step event of string `i` gives an estimate for each of its cells. -/
def execWinStepEvent (i : Nat) (s : State) : Host.Outcome State Fault Refusal :=
  .next (if !winOn s then s
    else match stepEvent s i with
      | none => s
      | some n =>
        let w : WStr := Tab.get {} s.win.str i
        offer ((stringCells s i).filterMap (stepOffer s i n))
          { s with win.str := Tab.set {} s.win.str i { w with evAt := some s.time.tns } })

/-! ## Windows -/

/-- Sums of the weighted normal equations of R330 over blocks that follow one another, the forgetting factor `f`: of aa,
ai, a, ii, i, 1 and of ya, yi, y, with a = y of the block before and i = I of the block before. -/
def fitSums (f : Rat) : List (Rat × Rat × Bool) → List Rat → List Rat
  | p :: q :: rest, m =>
    let x := [p.1 * p.1, p.1 * p.2.1, p.1, p.2.1 * p.2.1, p.2.1, 1, q.1 * p.1, q.1 * p.2.1, q.1]
    fitSums f (q :: rest) (if q.2.2 then (m.zip x).map fun ab => f * ab.1 + ab.2 else m)
  | _, m => m

/-- A 3 x 3 determinant. -/
def det3 (a b c d e f g h i : Rat) : Rat := a * (e * i - f * h) - b * (d * i - f * g) + c * (d * h - e * g)

/-- The fit of R330: a, beta and gamma, none when the equations are singular. -/
def fitOf (f : Rat) (bs : List (Rat × Rat × Bool)) : Option (Rat × Rat × Rat) :=
  match fitSums f bs (List.replicate 9 0) with
  | [aa, ai, a1, ii, i1, n, ya, yi, y1] =>
    let d := det3 aa ai a1 ai ii i1 a1 i1 n
    if d = 0 then none
    else some (det3 ya ai a1 yi ii i1 y1 i1 n / d, det3 aa ya a1 ai yi i1 a1 y1 n / d, det3 aa ai ya ai ii yi a1 i1 y1 / d)
  | _ => none

/-- The mean square residual of a fit over the blocks, mV squared. -/
def fitResid (p : Rat × Rat × Rat) (bs : List (Rat × Rat × Bool)) : Rat :=
  let r := ((bs.zip (bs.drop 1)).filter fun xy => xy.2.2.2).map fun xy =>
    let e := xy.2.1 - (p.1 * xy.1.1 + p.2.1 * xy.1.2.1 + p.2.2)
    e * e
  if r.isEmpty then 0 else r.foldl (· + ·) 0 / (r.length : Rat)

/-- The forgetting factor of R330. -/
def forget (s : State) : Rat := if s.cfg.win.winMax = 0 then 1 else 1 - 1 / (2 * (s.cfg.win.winMax : Rat))

/-- Sign changes of a list about zero. -/
def crossings : List Rat → Nat
  | x :: y :: rest => b2n (decide ((x < 0) != (y < 0))) + crossings (y :: rest)
  | _ => 0

/-- A window is rich (R331). -/
def rich (s : State) (i : Nat) (z : ZWin) : Bool :=
  let is := z.blocks.map (·.2.1)
  if is.isEmpty then false
  else
    let m := is.foldl (· + ·) 0 / (is.length : Rat)
    let ms := (is.map fun x => (x - m) * (x - m)).foldl (· + ·) 0 / (is.length : Rat)
    let need : Rat := (s.cfg.win.richI : Rat) * capMa s i / 1000
    match fitOf (forget s) z.blocks with
    | some p => decide (ms ≥ need * need) && decide (crossings (is.map (· - m)) ≥ 4) &&
        decide (fitResid p z.blocks * 100 ≤ (s.cfg.win.residMax : Rat) * s.cfg.win.residMax)
    | none => false

/-- The result of a window (R330): Ra in mOhm and tau_a in s, none when the fit gives no decay. -/
def winResult (s : State) (c : Nat) (z : ZWin) : Option ZOffer :=
  match fitOf (forget s) z.blocks with
  | some (a, b, _) =>
    if a ≤ 0 || a ≥ 1 then none
    else some { kind := .window, cell := c, band := z.band, bin := z.bin, r := 1000 * b / (1 - a), t := 1 / (20 * lnNeg a)
                chr := winChar s }
  | none => none

/-- The test for richness falls at a whole second of the window after WIN_MIN (R331). -/
def richTest (s : State) (z : ZWin) : Bool :=
  let age := s.time.tns - z.openAt
  decide (age ≥ s.cfg.win.winMin * 100000000) && decide (age % nsPerSec < period s)

/-- The blocks of the last 12 s of a window: a characterisation pulse and the 2 s before it (R338). -/
def pulseBlocks (z : ZWin) : ZWin := { z with blocks := z.blocks.drop (z.blocks.length - 240) }

/-- WIN_WINDOW_CLOSE (R331, R338): the window of cell `c` closes, by WIN_MAX, a change of band, bin or mode, an
excluded sample, or because it is rich, when its result is offered. In characterisation step 2 the end of a pulse
closes it in place of WIN_MAX, and the last 12 s are offered without the test. -/
def execWinWindowClose (c : Nat) (s : State) : Host.Outcome State Fault Refusal :=
  let w := wCell s c
  let i := (cellString s c).getD 0
  let shut := modWCell s c fun w => { blockBreak w with win := none, winEnd := false }
  .next (match w.win with
    | none => s
    | some z =>
      if z.pulse then offer (winResult s c (pulseBlocks z)).toList shut
      else if winChar s then (if w.winEnd then shut else s)
      else if richTest s z && !w.winEnd && rich s i z then offer (winResult s c z).toList shut
      else if w.winEnd || decide (s.time.tns ≥ z.openAt + s.cfg.win.winMax * 100000000) then shut
      else s)

/-! ## Tails -/

/-- The sums of the normal equations of R332 over the samples, with time constants `ta` and `tb` in s: of a, b, aa, ab, bb, 1
and of V, Va, Vb, where a and b are the exponentials of a sample and V its voltage in 100 uV. -/
def tailSums (ta tb : Rat) (xs : List (Nat × Nat)) : List Rat :=
  xs.foldl (fun m x =>
    let t : Rat := (x.1 : Rat) / 1000000000
    let a := expNeg (t / ta)
    let b := expNeg (t / tb)
    let v : Rat := x.2
    (m.zip [a, b, a * a, a * b, b * b, 1, v, v * a, v * b]).map fun p => p.1 + p.2) (List.replicate 9 0)

/-- The least-squares fit of V = V-inf - A e^(-t/ta) - B e^(-t/tb) to a tail for given time constants (R332): B in mV and the
mean square residual in (100 uV) squared, none when the equations are singular. -/
def tailFit (ta tb : Rat) (xs : List (Nat × Nat)) : Option (Rat × Rat) :=
  match tailSums ta tb xs with
  | [a, b, aa, ab, bb, n, v, va, vb] =>
    let d := det3 n a b a aa ab b ab bb
    if d = 0 then none
    else
      let c := det3 v a b va aa ab vb ab bb / d
      let p := det3 n v b a va ab b vb bb / d
      let q := det3 n a v a aa va b ab vb / d
      let err (x : Nat × Nat) : Rat :=
        let t : Rat := (x.1 : Rat) / 1000000000
        (x.2 : Rat) - (c + p * expNeg (t / ta) + q * expNeg (t / tb))
      some (-q / 10, (xs.map fun x => err x * err x).foldl (· + ·) 0 / n)
  | _ => none

/-- The result of a tail (R332): Rb in mOhm and tau_b in s, for the band and bin at its start (Assumption 89). The rest after
a characterisation pulse is a tail whatever TAIL_MIN (R338). -/
def tailResult (s : State) (c : Nat) (t : ZTail) : Option ZOffer :=
  let w := wCell s c
  let len := match t.samples.getLast? with
    | some x => x.1
    | none => 0
  let min' := if t.chr then 0 else s.cfg.win.tailMin
  let ta := rat16Of w.cap.ta
  let tau := Config.tailTau ta t.samples
  let top := minR (s.cfg.win.tbMax : Rat) (4 * (len : Rat) / 1000000000)
  if len < min' * nsPerSec then none
  else match tailFit ta tau t.samples with
    | none => none
    | some (b, mse) =>
      if decide (mse ≤ (s.cfg.win.residMax : Rat) * s.cfg.win.residMax) && decide ((s.cfg.win.tbMin : Rat) ≤ tau) &&
          decide (tau ≤ top) && decide (absR t.vb ≥ 2 / 1000) then
        some { kind := .tail, cell := c, band := t.band, bin := t.bin
               r := rat16Of w.cap.rb * b / (1000 * t.vb), t := tau, chr := t.chr }
      else none

/-- WIN_TAIL_END (R332): the tail of cell `c` has ended, or has reached TAIL_MAX, and its fit is offered. -/
def execWinTailEnd (c : Nat) (s : State) : Host.Outcome State Fault Refusal :=
  .next (match (wCell s c).tail with
    | none => s
    | some t =>
      let most := if t.chr then max 120 s.cfg.win.tailMax else s.cfg.win.tailMax
      if t.ended || decide (s.time.tns ≥ t.startAt + most * nsPerSec) then
        offer (tailResult s c t).toList (modWCell s c fun w => { w with tail := none })
      else s)

/-! ## Updates -/

/-- The values of an offer lie within the WIN limits (R333). -/
def inLimits (s : State) (o : ZOffer) : Bool :=
  let g := s.cfg.win
  let between (lo hi v : Rat) : Bool := decide (lo ≤ v) && decide (v ≤ hi)
  match o.kind with
  | .step => between ((g.rsMin : Rat) / 1000) ((g.rsMax : Rat) / 1000) o.r
  | .window => between 0 ((g.raMax : Rat) / 1000) o.r && between ((g.taMin : Rat) / 100) ((g.taMax : Rat) / 100) o.t
  | .tail => between 0 ((g.rbMax : Rat) / 1000) o.r && between (g.tbMin : Rat) (g.tbMax : Rat) o.t

/-- The values of an entry that an offer updates: resistance and time constant. -/
def entryVals (o : ZOffer) (e : ZEntry) : Rat × Rat :=
  match o.kind with
  | .step => (rat16Of e.rs, 0)
  | .window => (rat16Of e.ra, rat16Of e.ta)
  | .tail => (rat16Of e.rb, rat16Of e.tb)

/-- A value lies outside [old / OUTLIER, old x OUTLIER] (R333). -/
def isOut (s : State) (old v : Rat) : Bool :=
  let k : Rat := (s.cfg.win.outlier : Rat) / 10
  decide (v * k < old) || decide (v > old * k)

/-- An offer is an outlier for its entry (R333); the check is left out in characterisation step 2 (R338). -/
def outlierOf (s : State) (o : ZOffer) (e : ZEntry) : Bool :=
  let old := entryVals o e
  !o.chr && decide (e.conf ≥ 8) && (isOut s old.1 o.r || (o.kind != .step && isOut s old.2 o.t))

/-- The weight of a result (R334, R338). -/
def weightOf (s : State) (o : ZOffer) (conf : Nat) : Rat :=
  let w : Rat := match o.kind with
    | .tail => (s.cfg.win.wb : Rat) / 100
    | _ => 1 / (min (conf + 1) (max 1 s.cfg.win.nAvg) : Nat)
  if o.chr then maxR w (1 / 2) else w

/-- An entry takes a result with weight `w` (R334). -/
def entryTake (o : ZOffer) (w : Rat) (e : ZEntry) : ZEntry :=
  let old := entryVals o e
  let r := rat16 (old.1 + w * (o.r - old.1))
  let t := rat16 (old.2 + w * (o.t - old.2))
  let e1 := match o.kind with
    | .step => { e with rs := r }
    | .window => { e with ra := r, ta := t }
    | .tail => { e with rb := r, tb := t }
  { e1 with conf := sat 16 (e.conf + 1) }

/-- RS_BASE is taken when the reference entry's CONF first reaches 16 (R294, R325). -/
def rsBaseTake (c : Nat) (s : State) : State :=
  let e := zEntry s c 4 6
  let r : CellRec := Tab.get {} s.nv.recs c
  if e.conf ≥ 16 && !r.rsBaseOk then
    nvDirty 6 true
      { s with nv.recs := Tab.set {} s.nv.recs c { r with rsBaseOk := true, rsBase := ofRat (rat16Of e.rs / 1000) } }
  else s

/-- A table has changed: its write is due within 10 min (R339). -/
def zDirty (c : Nat) (s : State) : State :=
  nvDirty (0x100 + c) true
    (modWCell s c fun w => { w with dirtyAt := if w.dirtyAt.isNone then some s.time.tns else w.dirtyAt })

/-- Count an accepted result (R345). -/
def countOffer (k : ZKind) (s : State) : State :=
  match k with
  | .step => { s with win.evtCnt := sat 32 (s.win.evtCnt + 1) }
  | .window => { s with win.rlsCnt := sat 32 (s.win.rlsCnt + 1) }
  | .tail => { s with win.tailCnt := sat 32 (s.win.tailCnt + 1) }

/-- One offered result is checked and applied (R333 to R335). -/
def applyOffer (s : State) (o : ZOffer) : State :=
  let e := zEntry s o.cell o.band o.bin
  if !inLimits s o then { s with win.rejBound := sat 16 (s.win.rejBound + 1) }
  else if outlierOf s o e then
    let n := (wCell s o.cell).outRun + 1
    let s1 := modWCell { s with win.rejOut := sat 16 (s.win.rejOut + 1) } o.cell fun w => { w with outRun := n }
    if n < 8 then s1
    else
      let s2 := (List.range 96).foldl (fun s k =>
        setZ o.cell (k / 12) (k % 12) { zEntry s o.cell (k / 12) (k % 12) with conf := 0 } s) s1
      let e2 := entryTake o 1 (zEntry s2 o.cell o.band o.bin)
      zDirty o.cell (emit 0x0600 (le 4 o.cell)
        (modWCell (setZ o.cell o.band o.bin e2 s2) o.cell fun w => { w with outRun := 0 }))
  else
    let s1 := setZ o.cell o.band o.bin (entryTake o (weightOf s o e.conf) e) s
    rsBaseTake o.cell (zDirty o.cell (countOffer o.kind (modWCell s1 o.cell fun w => { w with outRun := 0 })))

/-- Winnow's part of the commit point (R327, R336, R337): cleared cells take their priors, and offered results are
applied, step events first, then windows, then tails; the tables stand published (R638). Below L4 and while frozen no
result updates (R24, R336). -/
def winCommit (s : State) : State :=
  let s1 := s.win.clr.foldl (fun s c => zDirty c (takePriors c s)) s
  let k (z : ZKind) := s.win.offers.filter (·.kind == z)
  let s2 := { s1 with win.offers := [], win.clr := [], win.pub := true }
  if s.sys.run.winnow && upper s == 4 && !s.win.freeze then (k .step ++ k .window ++ k .tail).foldl applyOffer s2 else s2

/-- WIN_CTRL.CLR_CELL (R336): the table of a configured cell goes back to its priors, as published at the next commit
point (R638). -/
def winClear (c : Nat) (s : State) : State :=
  if cellConf s c then emit 0x0601 (le 4 c) { s with win.clr := s.win.clr ++ [c] } else s

end Sys2Proof.Machine
end

