-- ==== Sys2Proof/Machine/Est.lean ====
section
/-! DEFINITION. State estimation (chapter 10): the summary stage with its per-cell reports, string summaries, limits and
jumps, the reserve release and the characterisation run. -/

namespace Sys2Proof.Machine

/-! ## Numbers -/

/-- A quotient; a divisor of zero gives a value the spec does not state (Assumption 13). -/
def ratDiv (a b : Rat) : Rat := if b = 0 then Config.byZero a else a / b

/-- A rational held between bounds. -/
def clampR (lo hi v : Rat) : Rat := if v < lo then lo else if v > hi then hi else v

/-- A rational cut toward zero, in an unsigned field of `n` bits; a negative one is 0. -/
def truncU (n : Nat) (v : Rat) : Nat := if v ≤ 0 then 0 else sat n v.floor.toNat

/-- A rational rounded to nearest in an unsigned field of `n` bits (R294). -/
def roundU (n : Nat) (v : Rat) : Nat := let r := roundRat v; if r ≤ 0 then 0 else sat n r.toNat

/-- A fraction in units of 0.002 %, 16 bits. -/
def pct (v : Rat) : Nat := roundU 16 (v * 50000)

/-- A field in units of 0.002 % as a fraction. -/
def ofPct (n : Nat) : Rat := (n : Rat) / 50000

/-- mA ns as A s. -/
def asOf (q : Int) : Rat := (q : Rat) / 1000000000000

/-- The sum of a list. -/
def sumR (l : List Rat) : Rat := l.foldl (· + ·) 0

/-- The least of a list, 0 of an empty one. -/
def minList : List Rat → Rat
  | [] => 0
  | x :: xs => xs.foldl minR x

/-- The greatest of a list, 0 of an empty one. -/
def maxList : List Rat → Rat
  | [] => 0
  | x :: xs => xs.foldl maxR x

/-! ## Voltage limits and arbitration -/

/-- V_E of string `i` in V (R297). -/
def vE (s : State) (i : Nat) : Rat :=
  maxR ((s.cfg.est.vEmpty : Rat) / 10000) (((s.husk.net.limits.getD i {}).vMin : Rat) / 10000 + 1 / 20)

/-- V_F of string `i` in V (R297). -/
def vF (s : State) (i : Nat) : Rat :=
  minR ((s.cfg.est.vFull : Rat) / 10000) (((s.husk.net.limits.getD i {}).vMax : Rat) / 10000 - 1 / 20)

/-- The measured voltage of cell `c` corrected to open circuit, V. -/
def vCorr (s : State) (c : Nat) : Rat :=
  let x := cellAcq s c
  (x.v : Rat) / 10000 + slotVal s c 5 * ((x.iS : Rat) / 1000) + slotVal s c 7 + slotVal s c 8 - slotVal s c 9

/-- The cell meets every condition of R280 but STALE. -/
def estimable (s : State) (c : Nat) : Bool :=
  let k := kCell s c
  [0, 3, 4, 5, 6, 7, 8, 9].all k.slotOk.getLsbD && !acqStat s c 3 && (progOf s c).isSome && decide (k.idle < 100)

/-- The cell's outputs are frozen: it is marked STALE, or U lies below L3 (R24, R295, R365). -/
def estStale (s : State) (c : Nat) : Bool := isStale s c || decide (upper s < 3)

/-- The cell is estimated (R280). -/
def estimated (s : State) (c : Nat) : Bool := estimable s c && !estStale s c

/-- At each commit point the frames at V_E and V_F are counted, and the two flags follow (R292); a frame in which the cell is
not estimated breaks both runs. -/
def arbCount (s : State) (c : Nat) : State :=
  if !estimated s c then modECell s c fun e => { e with eCnt := 0, fCnt := 0 }
  else
    let i := (cellString s c).getD 0
    let v := vCorr s c
    let ok := (cellAcq s c).aggHi.isSome
    let lo := ok && decide (v ≤ vE s i) && decide ((cellAcq s c).iMean ≥ 0)
    let hi := ok && decide (v ≥ vF s i) && decide ((cellAcq s c).iMean ≤ 0)
    modECell s c fun e =>
      let en := if lo then min 3 (e.eCnt + 1) else 0
      let fn := if hi then min 3 (e.fCnt + 1) else 0
      { e with
        eCnt := en, fCnt := fn
        vEmpty := decide (en ≥ 3) || (e.vEmpty && decide (v < vE s i + 1 / 20))
        vFull := decide (fn ≥ 3) || (e.vFull && decide (v > vF s i - 1 / 20)) }

/-- The estimator's part of the commit point. -/
def estCommit (s : State) : State := (cells s).foldl arbCount s

/-- The estimator's part of the cut-off: charge by sample instants (R290, R303, R308). -/
def estCutOff (s : State) : State :=
  (strings s).foldl (fun s i =>
    let q := (curStr s i).qS
    modEStr s i fun x => { x with
      q := x.q + q
      qRel := if s.est.released then x.qRel + q else 0
      qChar := if s.est.chr.step = 5 then x.qChar + q else x.qChar }) s

/-! ## Per-cell reports -/

/-- The charge of the interval with the charge efficiency (R281, R290), A s. -/
def effCharge (s : State) (i : Nat) : Rat :=
  let q := asOf (eStr s i).q
  if q ≥ 0 then q else (s.cfg.est.etaChg : Rat) / 10000 * q

/-- C_cc in Ah (R290). -/
def ccCap (e : ECell) (cap : Rat) : Rat := match e.cre with
  | some x => x
  | none => cap

/-- What the summary stage finds of an estimated cell: the slots it reads. -/
structure Slots where
  /-- SOC -/
  soc : Rat
  /-- SIGMA -/
  sig : Rat
  /-- CAP, Ah -/
  cap : Rat
  /-- T_ANCHOR, s, none while slot 10 has never been written -/
  tAnc : Option Rat

/-- The slots of cell `c`. -/
def slotsOf (s : State) (c : Nat) : Slots :=
  { soc := slotVal s c 0, sig := slotVal s c 3, cap := slotVal s c 4
    tAnc := if (kCell s c).slotOk.getLsbD 10 then some (slotVal s c 10) else none }

/-- An anchor is seen: slot 10 fell below its value of the summary before. -/
def anchorSeen (e : ECell) (x : Slots) : Bool := match e.tAnc, x.tAnc with
  | some p, some n => decide (n < p)
  | _, _ => false

/-- The coulomb count of an estimated cell (R290, R293), and whether a capacity was re-estimated. `dq`: charge of the
interval, A s. -/
def coulomb (x : Slots) (dq : Rat) (e : ECell) : ECell × Bool :=
  if !e.seen then ({ e with zc := x.soc, qd := 0, za := x.soc, sigBase := x.sig }, false)
  else if anchorSeen e x then
    let q := e.qd + dq
    let far := decide (absR (e.za - x.soc) ≥ 1 / 5)
    if e.reest then
      if far then ({ e with zc := x.soc, cre := some (q / (3600 * (e.za - x.soc))), reest := false, qd := 0, za := x.soc
                            sigBase := x.sig, ccExcl := false }, true)
      else ({ e with zc := x.soc, qd := q, sigBase := x.sig, ccExcl := false }, false)
    else ({ e with zc := x.soc, qd := 0, za := x.soc, sigBase := x.sig, ccExcl := false }, false)
  else ({ e with zc := clampR 0 1 (e.zc - ratDiv dq (3600 * ccCap e x.cap)), qd := e.qd + dq }, false)

/-- C_cc returns to CAP once it is within 3 % of C_re (R293). -/
def creDrop (cap : Rat) (e : ECell) : ECell := match e.cre with
  | some r => if absR (cap - r) ≤ 3 / 100 * r then { e with cre := none } else e
  | none => e

/-- The seconds since an instant. -/
def secsSince (s : State) (t : Nat) : Rat := ((s.time.tns - t : Nat) : Rat) / 1000000000

/-- sigma_rep of a cell whose slots are `late` s old (R288, R295): T_ANCHOR is slot 10 and that age, or the time since
initialisation. -/
def sigRepOf (s : State) (x : Slots) (late : Rat) (e : ECell) : Rat :=
  let t := match x.tAnc with
    | some t => t + late
    | none => secsSince s e.initAt
  maxR x.sig (e.sigBase + (s.cfg.est.sigGrow : Rat) / 100000 * t / 3600)

/-- UNCERTAIN follows sigma_rep (R289). -/
def uncOf (s : State) (sig : Rat) (was : Bool) : Bool :=
  let on := ofPct s.cfg.est.uncOn
  if sig ≥ on then true else if sig < on - 1 / 200 then false else was

/-- DISAGREE follows the difference of z_c and SOC (R291). -/
def disFollow (s : State) (anchor : Bool) (soc : Rat) (e : ECell) : ECell :=
  let apart := decide (absR (e.zc - soc) > ofPct s.cfg.est.ccDiff)
  let at0 := if apart == e.disNow then e.disAt else s.time.tns
  let long := decide (s.time.tns ≥ at0 + s.cfg.est.ccTime * nsPerSec)
  { e with disNow := apart, disAt := at0
           disagree := if anchor then false else if long then apart else e.disagree }

/-- The row of the arbitration table that applies (R292). -/
def arbRow (s : State) (c : Nat) (e : ECell) : Nat :=
  if e.vEmpty then 1 else if e.vFull then 2
  else if e.ccExcl || (e.zc == 0 && decide (vCorr s c ≥ vE s ((cellString s c).getD 0) + 1 / 20)) then 3
  else if e.disagree then 4 else 5

/-- z_dis, z_chg and the reported SoC of a row (R292). -/
def arbVals (row : Nat) (soc zc : Rat) : Rat × Rat × Rat :=
  if row = 1 then (0, soc, 0) else if row = 2 then (soc, 1, 1)
  else if row = 4 then (minR soc zc, maxR soc zc, soc) else (soc, soc, soc)

/-- The jump of a cell (R304). -/
def cellJump (e : ECell) (rep dq : Rat) : Rat := match e.prev with
  | some (z, cap) => rep - (z - ratDiv dq (3600 * cap))
  | none => 0

/-- EST_CELL_FLAGS (R317); CC_EXCL, V_EMPTY and V_FULL are rows 3, 1 and 2 of the arbitration. -/
def estFlags (s : State) (c : Nat) (e : ECell) (jump : Rat) (stale : Bool) : Word :=
  let big := decide (absR jump ≥ ofPct s.cfg.est.jumpMin)
  let k := kCell s c
  let size := if big then (clampI (-32768) 32767 (roundRat (jump * 50000)) % 65536).toNat else 0
  BitVec.ofNat 32 (at' 16 size + at' 15 (b2n big) + at' 14 (b2n stale) + at' 13 (b2n (progOf s c).isNone) +
    at' 12 (b2n (acqStat s c 3)) + at' 11 (b2n (k.outStat.getLsbD 1)) + at' 10 (b2n k.numeric) +
    at' 9 (b2n e.uncertain) + at' 8 (b2n e.disagree) + at' 7 (b2n (e.row == 3)) + at' 6 (b2n (e.row == 1)) +
    at' 5 (b2n (e.row == 2)) + at' 4 (b2n e.reest) + at' 3 (b2n (acqStat s c 4)) +
    at' 2 (b2n ((Tab.get {} s.nv.recs c).rsBaseOk && (zEntry s c 4 6).rs != 0)) + at' 1 (b2n (!e.seen)))

/-- The values that a report of an estimated cell carries (R294). -/
def estReport (s : State) (c : Nat) (x : Slots) (rep : Rat) (e : ECell) : ECell :=
  let i := (cellString s c).getD 0
  let rsRef := rat16Of (zEntry s c 4 6).rs / 1000
  { e with
    soc := pct rep
    sigma := pct e.sigRep
    cc := pct e.zc
    cap := roundU 32 (x.cap * 1000)
    rs := roundU 32 (slotVal s c 5 * 100000000)
    sohC := if capNom s i = 0 then e.sohC else pct (x.cap * 1000 / (capNom s i : Rat))
    sohR := if (Tab.get {} s.nv.recs c).rsBaseOk && rsRef != 0 then pct (toRat (Tab.get {} s.nv.recs c).rsBase / rsRef)
      else 0
    capre := match e.cre with
      | some r => roundU 32 (r * 1000)
      | none => 0 }

/-- The charge of an interval moves z_c and q_d of a cell that takes no slots from it (R290, R295): the cell's next QS
spans the whole time. -/
def coulombCarry (cap dq : Rat) (e : ECell) : ECell :=
  if e.seen then { e with zc := clampR 0 1 (e.zc - ratDiv dq (3600 * ccCap e cap)), qd := e.qd + dq } else e

/-- The summary of an estimated cell (R288 to R294, R304). Row 3 of the arbitration holds until the next anchor, also while
row 1 or 2 stands before it. -/
def sumEstimated (s : State) (c : Nat) : State :=
  let i := (cellString s c).getD 0
  let e0 := eCell s c
  let x := slotsOf s c
  let dq := effCharge s i
  let anchor := e0.seen && anchorSeen e0 x
  let cc := coulomb x dq e0
  let e1 := { creDrop x.cap cc.1 with seen := true, tAnc := x.tAnc, staleSoc := none, estAt := s.time.tns }
  let e2 := { e1 with sigRep := sigRepOf s x 0 e1 }
  let e3 := disFollow s anchor x.soc { e2 with uncertain := uncOf s e2.sigRep e0.uncertain }
  let row := arbRow s c e3
  let e4 := { e3 with row := row, ccExcl := e3.ccExcl || row == 3, reest := e3.reest || (row == 3 && !e3.ccExcl) }
  let v := arbVals row x.soc e4.zc
  let jump := cellJump e0 v.2.2 dq
  let e5 := { estReport s c x v.2.2 e4 with frm := s.sys.frmCommit, flags := estFlags s c e4 jump false
                                            prev := some (v.2.2, x.cap) }
  let s1 := emitIf cc.2 0x0507 (le 4 (roundU 32 ((cc.1.cre.getD 0) * 1000)) ++ le 4 (roundU 32 (x.cap * 1000)) ++ le 2 c ++
    le 2 0) (modECell s c fun _ => e5) i
  emitIf (e4.disagree && !e0.disagree) 0x0506
    (leI 4 (roundRat ((e4.zc - x.soc) * 50000)) ++ le 2 c ++ le 1 i ++ le 1 0) s1 i

/-- The summary of a STALE cell (R295): its SoC is the last one less the charge counted since, within 0 to 1, and sigma_rep
grows with the time since its anchor. The arbitration of R292 does not apply to it (Assumption 88). -/
def sumStale (s : State) (c : Nat) : State :=
  let i := (cellString s c).getD 0
  let e := eCell s c
  let x := slotsOf s c
  let dq := effCharge s i
  let z := clampR 0 1 (e.staleSoc.getD x.soc - ratDiv dq (3600 * x.cap))
  let sig := sigRepOf s x (secsSince s e.estAt) e
  let e1 := { coulombCarry x.cap dq e with staleSoc := some z, sigRep := sig, uncertain := uncOf s sig e.uncertain, row := 5 }
  let jump := cellJump e z dq
  modECell s c fun _ => { estReport s c x z e1 with
    frm := s.sys.frmCommit, flags := estFlags s c e1 jump true, prev := some (z, x.cap) }

/-- A cell that is neither estimated nor carried publishes its flags; the charge of the interval moves what the next report
is compared with (R304). -/
def sumNone (s : State) (c : Nat) : State :=
  let dq := effCharge s ((cellString s c).getD 0)
  let e := eCell s c
  let e1 := { coulombCarry (slotsOf s c).cap dq e with
    row := 5, prev := e.prev.map fun (p : Rat × Rat) => (p.1 - ratDiv dq (3600 * p.2), p.2) }
  modECell s c fun _ => { e1 with frm := s.sys.frmCommit, flags := estFlags s c e1 0 (estStale s c) }

/-- The summary of one cell (R280, R294, R295). -/
def sumCell (s : State) (c : Nat) : State :=
  if estimated s c then sumEstimated s c
  else if isStale s c && decide (upper s ≥ 3) then sumStale s c
  else sumNone s c

/-! ## String summaries -/

/-- String `i` is on the MODEL basis (R296): every cell of it is estimated or STALE, CHEM is not 0b11 and U is L3 or
above. -/
def onModel (s : State) (i : Nat) : Bool :=
  s.sys.chem != 3 && decide (upper s ≥ 3) && (stringCells s i).all fun c => estimated s c || isStale s c

/-- z_dis and z_chg of a cell in this summary. -/
def zPair (s : State) (c : Nat) : Rat × Rat :=
  let e := eCell s c
  match e.staleSoc with
  | some z => (z, z)
  | none => let v := arbVals e.row (slotVal s c 0) e.zc; (v.1, v.2.1)

/-- A temperature factor (R300), in 0.01 degC; a missing temperature leaves it unstated. -/
def tempFactor (a : Agg) (lo hi : Int) : Rat := match a.tLo, a.tHi with
  | some l, some h => clampR 0 1 ((min (l - lo) (hi - h) : Int) / 500)
  | _, _ => clampR 0 1 (Config.noInput 3)

/-- f_sigma (R300). -/
def sigFactor (s : State) (i : Nat) : Rat :=
  let g := s.cfg.est
  let m := maxList ((stringCells s i).map fun c => (eCell s c).sigRep)
  let on := ofPct g.uncOn
  let full := ofPct g.uncFull
  let fl : Rat := (g.uncFloor : Rat) / 100
  if m ≤ on then 1 else if m ≥ full then fl else 1 - (1 - fl) * (m - on) / (full - on)

/-- f_grace (R300). -/
def graceFactor (s : State) (i : Nat) : Rat := match Tab.get none s.husk.grace i with
  | some t =>
    let g := (s.husk.net.limits.getD i {}).grace * 10000000
    if g = 0 then 0 else clampR 0 1 ((((t - s.time.tns : Nat) : Rat)) / (g : Rat))
  | none => 1

/-- V_PACK of string `i`, V. -/
def packV (s : State) (i : Nat) : Rat := (vPackOf s i : Rat) / 20

/-- The power ceiling of R299, W. -/
def capPower (lim : Nat) (p : Rat) : Rat := if lim = 0 then p else minR p ((lim : Rat) * 100)

/-- A string's limits at one horizon: discharge and charge current (A) and power (W), and the sum of R_i. -/
structure Lims where
  /-- discharge current -/
  iD : Rat
  /-- charge current -/
  iC : Rat
  /-- discharge power -/
  pD : Rat
  /-- charge power -/
  pC : Rat
  /-- sum of R_i, Ohm -/
  sr : Rat

/-- A current limit: a negative one becomes 0. -/
def floor0 (v : Rat) : Rat := if v < 0 then 0 else v

/-- The limits of string `i` on the MODEL basis at horizon `t` s (R299). -/
def modelLims (s : State) (i : Nat) (aRes b : Rat) (fD fC : Rat) (t : Rat) : Lims :=
  let l := s.cfg.est.lim.getD i {}
  let per (c : Nat) : Rat × Rat :=
    let z := (wCell s c).cap
    let ea := expNeg (ratDiv t (rat16Of z.ta))
    let eb := expNeg (ratDiv t (rat16Of z.tb))
    (slotVal s c 6 + slotVal s c 9 - slotVal s c 7 * ea - slotVal s c 8 * eb,
     slotVal s c 5 + rat16Of z.ra / 1000 * (1 - ea) + rat16Of z.rb / 1000 * (1 - eb))
  let vr := (stringCells s i).map per
  let sv := sumR (vr.map (·.1))
  let sr := sumR (vr.map (·.2))
  let iD := floor0 (minR (minR (minList (vr.map fun x => ratDiv (x.1 - vE s i) x.2)) (aRes * 3600 / t))
    ((l.iDis : Rat) / 1000) * fD)
  let iC := floor0 (minR (minR (minList (vr.map fun x => ratDiv (vF s i - x.1) x.2)) (b * 3600 / t))
    ((l.iChg : Rat) / 1000) * fC)
  { iD := iD, iC := iC, pD := capPower l.pDis (iD * (sv - iD * sr)), pC := capPower l.pChg (iC * (sv + iC * sr)), sr := sr }

/-- The limits of string `i` on the RAW basis (R301); a missing cell voltage leaves its factor unstated. -/
def rawLims (s : State) (i : Nat) (fD fC : Rat) : Lims :=
  let l := s.cfg.est.lim.getD i {}
  let a := aggOf s i
  let kD := match a.vLo with
    | some v => clampR 0 1 (((v : Rat) / 10000 - vE s i) * 10)
    | none => clampR 0 1 (Config.noInput 2)
  let kC := match a.vHi with
    | some v => clampR 0 1 ((vF s i - (v : Rat) / 10000) * 10)
    | none => clampR 0 1 (Config.noInput 1)
  let iD := (l.iDis : Rat) / 1000 * fD * kD
  let iC := (l.iChg : Rat) / 1000 * fC * kC
  { iD := iD, iC := iC, pD := capPower l.pDis (iD * packV s i), pC := capPower l.pChg (iC * packV s i), sr := 0 }

/-- The reserve fraction in force (R298, R303). -/
def reserveFrac (s : State) : Rat := if s.est.released then 0 else (s.cfg.est.reserve : Rat) / 10000

/-- The cause of a jump of string `i` (R304, R587): a mark of the summary first, then what its cells did. `old` holds the
cells before this summary. -/
def jumpCause (old s : State) (i : Nat) : Nat :=
  let cs := stringCells s i
  if Tab.get 0 s.est.mark i ≠ 0 then Tab.get 0 s.est.mark i
  else if cs.any fun c => anchorSeen (eCell old c) (slotsOf s c) then 1
  else if cs.any fun c => (eCell old c).row != (eCell s c).row then 3
  else if cs.any fun c => ((eCell old c).prev.map (·.2)) != ((eCell s c).prev.map (·.2)) then 6
  else 2

/-- A, B, C_use, r, U and the reported SoC of string `i` (R298). -/
def useOf (s : State) (i : Nat) : Rat × Rat × Rat × Rat :=
  let cs := stringCells s i
  let a := minList (cs.map fun c => (zPair s c).1 * slotVal s c 4)
  let b := minList (cs.map fun c => (1 - (zPair s c).2) * slotVal s c 4)
  let r := reserveFrac s
  let u := ratDiv a (a + b)
  (a, b, r, clampR 0 1 (ratDiv (u - r) (1 - r)))

/-- The words of three horizons in a unit. -/
def three (k : Rat) (f : Lims → Rat) (ls : List Lims) : List Nat := ls.map fun l => truncU 32 (f l * k)

/-- The records of a string's summary: SOC_UNCERTAIN and its end, with the cell `worst` of the largest standard
deviation, and SOC_JUMP (R289, R296 to R304). -/
def sumRecords (old : State) (i : Nat) (jump : Rat) (model unc was : Bool) (worst : Nat) (s : State) : State :=
  let s2 := if unc && !was then emit 0x0504 (le 4 (pct (eCell s worst).sigRep) ++ le 1 i ++ le 1 0 ++ le 2 worst) s i
    else if !unc && was then emit 0x0505 (le 4 i) s i else s
  emitIf (model && decide (absR jump ≥ 1 / 100)) 0x0508
    (leI 4 (roundRat (jump * 50000)) ++ le 1 i ++ le 1 (jumpCause old s i) ++ le 2 0) s2 i

/-- The string summary of string `i` (R289, R296 to R304); `old` is the state before the cells' summaries. -/
def sumString (old s : State) (i : Nat) : State :=
  let g := s.cfg.est
  let cs := stringCells s i
  let model := onModel s i
  let x := eStr s i
  let stale := cs.any fun c => estStale s c
  let fOpen : Rat := if drvState s i = 5 then 1 else 0
  let fStale : Rat := if model && stale then (g.staleDerate : Rat) / 100 else 1
  let fSig : Rat := if model then sigFactor s i else 1
  let fGr := graceFactor s i
  let fD := tempFactor (aggOf s i) g.tDisMin g.tDisMax
  let fC := tempFactor (aggOf s i) g.tChgMin g.tChgMax
  let k := fSig * fStale * fGr * fOpen
  let u := useOf s i
  let cUse := u.1 + u.2.1
  let aRes := floor0 (u.1 - u.2.2.1 * cUse)
  let ls := if model then [2, 10, 30].map (modelLims s i aRes u.2.1 (fD * k) (fC * k))
    else let l := rawLims s i (fD * fGr * fOpen) (fC * fGr * fOpen); [l, l, l]
  let l10 := ls.getD 1 { iD := 0, iC := 0, pD := 0, pC := 0, sr := 0 }
  let pw := (s.time.tns, (vPackOf s i : Int) * (curStr s i).iMean) ::
    x.pow.filter fun t => decide (s.time.tns < t.1 + g.ttrWindow * nsPerSec)
  let pAvg : Rat := ((sumI (pw.map (·.2)) : Int) : Rat) / (20000 * (pw.length : Rat))
  let eRes := aRes * sumR (cs.map fun c => slotVal s c 6) * ((g.eFactor : Rat) / 10000)
  let jump : Rat := match x.prev with
    | some (z, cu, r) => if model then u.2.2.2 - (z - ratDiv (effCharge s i) (3600 * cu * (1 - r))) else 0
    | none => 0
  let big := model && decide (absR jump ≥ ofPct g.jumpMin)
  let unc := cs.any fun c => (eCell s c).uncertain
  let dis := cs.any fun c => (eCell s c).disagree
  let reg := at' 30 (if model then 0 else 1) + at' 29 (b2n s.est.released) + at' 28 (b2n (decide (fSig < 1) || unc)) +
    at' 27 (b2n dis) + at' 26 (b2n (decide (fStale < 1))) + at' 25 (b2n (Tab.get none s.husk.grace i).isSome) +
    at' 24 (b2n (decide (fOpen = 0))) + at' 23 (b2n big) + at' 22 (b2n model) + (if model then pct u.2.2.2 else 0)
  let worst := cs.foldl (fun b c => if (eCell s c).sigRep > (eCell s b).sigRep then c else b) (cs.headD 0)
  sumRecords old i jump model unc x.uncertain worst (modEStr s i fun x => { x with
    socReg := BitVec.ofNat 32 reg
    jump := if big then satI 32 (x.jump + roundRat (jump * 50000)) else x.jump
    eres := if model then truncU 32 eRes else 0
    tres := if !model then 0 else if pAvg < 100 then 0xFFFFFFFF else truncU 32 (eRes * 3600 / pAvg)
    pd := three 1 (·.pD) ls, pc := three 1 (·.pC) ls, idl := three 1000 (·.iD) ls, icl := three 1000 (·.iC) ls
    prev := if model then some (u.2.2.2, cUse, u.2.2.1) else none
    q := 0
    pow := pw
    uncertain := unc
    sumR := l10.sr
    iD10 := l10.iD
    iC10 := l10.iC })

/-- The pack limits (R302), A. -/
def packLims (s : State) : Nat × Nat :=
  let cl := (strings s).filter fun i => drvState s i = 5
  let raw := cl.any fun i => !onModel s i
  let w (i : Nat) : Rat := if raw then ((s.cfg.est.lim.getD i {}).iDis : Rat) else ratDiv 1 (eStr s i).sumR
  let tot := sumR (cl.map w)
  let f (g : EStr → Rat) : Nat := truncU 16 (minList (cl.map fun i => ratDiv (g (eStr s i)) (ratDiv (w i) tot)))
  (f (·.iD10), f (·.iC10))

/-- EST_STATUS as the summary leaves it (R311). -/
def estStatus (s : State) : Word :=
  let bit (b : Nat) (i : Nat) : Bool := configured s i && (eStr s i).socReg.getLsbD b
  BitVec.ofNat 32 (at' 28 (mask4 fun i => configured s i && (eStr s i).uncertain) + at' 24 (mask4 (bit 27)) +
    at' 20 (mask4 (bit 30)) + at' 16 (mask4 (bit 26)) + at' 12 (mask4 (bit 25)) + at' 11 (b2n s.est.released) +
    b2n (decide (upper s ≥ 3)))

/-- A net charge of 5 % of C_use into any string ends a reserve release (R303). -/
def releaseCheck (s : State) : State :=
  if s.est.released && (strings s).any fun i =>
      match (eStr s i).prev with
      | some (_, cu, _) => decide (-(asOf (eStr s i).qRel) ≥ cu * 3600 / 20)
      | none => false
  then reserveRestore 3 s else s

/-! ## Characterisation -/

/-- Half of C_p in mA (R308). -/
def halfCp (s : State) : Int := (capTotal s : Int) / 2

/-- Every configured cell. -/
def charAll (s : State) (cs : List Nat) : Bool := (cells s).all fun c => cs.contains c

/-- The cells whose loaded voltage, where there is a valid one, has reached V_F (charging) or V_E (discharging) (R308). -/
def charHits (s : State) (charging : Bool) : List Nat :=
  (cells s).filter fun c =>
    let i := (cellString s c).getD 0
    let v : Rat := ((cellAcq s c).v : Rat) / 10000
    (cellAcq s c).aggHi.isSome && (if charging then decide (v ≥ vF s i) else decide (v ≤ vE s i))

/-- Halve a request `n` times. -/
def halve (n : Nat) (v : Int) : Int := match n with
  | 0 => v
  | n + 1 => halve n (if v ≥ 0 then v / 2 else -((-v) / 2))

/-- A characterisation run takes a summary (R308, R310): rest anchors, pulses, halvings and the current band. -/
def charSummary (old s : State) : State :=
  let r := s.est.chr
  if r.step = 15 then s
  else
    let rest := (cells s).filter fun c => anchorSeen (eCell old c) (slotsOf s c) && slotVal s c 11 == 1
    let tot := sumI ((strings s).map fun i => (curStr s i).iMean)
    let cp : Int := capTotal s
    let band := max ((absI r.req : Int) / 10) (cp / 50)
    let out := decide ((absI (tot - r.req) : Int) > band)
    let r1 := { r with
      anch := r.anch ++ rest.filter fun c => !r.anch.contains c
      outAt := if out then (if r.outAt.isSome then r.outAt else some s.time.tns) else none }
    let dt := s.time.tns - r.pulseAt
    let r2 :=
      if r.step = 2 then
        if r.req ≠ 0 && decide (dt ≥ 10 * nsPerSec) then { r1 with req := 0, pulseAt := s.time.tns }
        else if r.req = 0 && decide (dt ≥ 120 * nsPerSec) && decide (r.pulses < 5) then
          { r1 with pulses := r.pulses + 1, pulseAt := s.time.tns, req := if r.pulses + 1 < 5 then -(halfCp s) else 0 }
        else r1
      else if r.step = 3 || r.step = 5 then
        let h := charHits s (r.step = 3)
        { r1 with hit := h, req := halve (h.filter fun c => !r.hit.contains c).length r.req }
      else r1
    { s with est.chr := r2 }

/-- Why a run is refused (R308 step 0). -/
def charOk (s : State) : Bool :=
  s.ledg.live.era == 1 && upper s == 4 && !(strings s).isEmpty && (strings s).all (closed s) &&
    (List.range 4).all fun i => !(latched s 0 i || latched s 1 i || latched s 2 i)

/-- EST_CHAR.START (R308): step 0 passes and step 1 begins, or the run is refused. -/
def charStart (s : State) : State :=
  if s.est.chr.step ≠ 15 then s
  else if !charOk s then { s with est.chr.result := 5 }
  else phaseStart 8 { s with est.chr := { step := 1, result := s.est.chr.result, at0 := s.time.tns } }

/-- EST_CHAR.ABORT (R310). -/
def charAbort (s : State) : State := charStop 2 s

/-- A step of the run begins. -/
def charEnter (k : Nat) (req : Int) (f : CharRun → CharRun) (s : State) : State :=
  { s with est.chr := f { s.est.chr with
      step := k, req := req, at0 := s.time.tns, pulseAt := s.time.tns, pulses := 0, anch := [], hit := [] } }

/-- The CAP_CHAR of cell `c`, mAh (R308 step 6). -/
def capChar (s : State) (c : Nat) : Nat :=
  let i := (cellString s c).getD 0
  let d := Tab.get 0 s.est.chr.zFull c - Tab.get 0 s.est.chr.zEmpty c
  roundU 32 (ratDiv (asOf (eStr s i).qChar * 1000) (3600 * d))

/-- The persistent record of a cell takes a CHAR_MAP word, when the program keeps it (R309, R431). -/
def charWord (s : State) (c : Nat) (w : Nat) (v : Word) (r : CellRec) : CellRec :=
  match progOf s c with
  | some p => match p.persist.findIdx? (· == w) with
    | some k => { r with persist := r.persist.set k v }
    | none => r
  | none => r

/-- The commit of one cell (R309). -/
def charCell (s : State) (c : Nat) : State :=
  let r := recNow s c
  let g := groupOf s c
  let wz := (g.map fun g => s.cfg.est.charMap.getD (2 * g) 255).getD 255
  let wc := (g.map fun g => s.cfg.est.charMap.getD (2 * g + 1) 255).getD 255
  let cc := capChar s c
  let r1 := charWord s c wc (ofRat ((cc : Rat) * 3600 / 1000)) r
  let r2 := charWord s c wz (ofRat (Tab.get 0 s.est.chr.zEmpty c)) r1
  { s with nv.recs := Tab.set {} s.nv.recs c { r2 with capChar := cc } }

/-- The old and new capacity of the weakest cell of string `i`, mAh (R309, R587). -/
def weakest (s : State) (i : Nat) : Nat × Nat :=
  match stringCells s i with
  | [] => (0, 0)
  | c :: cs =>
    let w := cs.foldl (fun b k => if capChar s k < capChar s b then k else b) c
    ((eCell s w).cap, capChar s w)

/-- The commit of a run (R309). -/
def charCommit (s : State) : State :=
  let pay := (List.range 4).flatMap fun i =>
    if configured s i then le 4 (weakest s i).1 ++ le 4 (weakest s i).2 else le 8 0
  let s1 := (cells s).foldl charCell s
  let s2 := (cells s1).foldl (fun s c => initCell true c s) (nvQueue 6 s1)
  let s3 := eraAdvance s2
  jumpMarks 9 (phaseEnd 8 (emit 0x050B pay { s3 with
    est.chr := { s3.est.chr with step := 15, result := 1, req := 0, outAt := none } }))

/-- The characterisation step in progress has completed (R308). -/
def charDone (s : State) : Bool :=
  let r := s.est.chr
  if r.step = 1 || r.step = 4 || r.step = 6 then charAll s r.anch
  else if r.step = 2 then decide (r.pulses ≥ 5)
  else if r.step = 3 || r.step = 5 then decide (20 * (absI r.req : Int) ≤ (capTotal s : Int))
  else r.step == 7

/-- The SoC of every cell. -/
def charZ (s : State) : Tab Rat := (cells s).foldl (fun t c => Tab.set 0 t c (slotVal s c 0)) []

/-- CHAR_STEP_DONE (R308): the step in progress has completed and the next begins, or the run commits. -/
def execCharStepDone (s : State) : Host.Outcome State Fault Refusal :=
  let r := s.est.chr
  .next (settle (if !charDone s then s
    else if r.step = 1 then charEnter 2 (-(halfCp s)) id s
    else if r.step = 2 then charEnter 3 (-(halfCp s)) id s
    else if r.step = 3 then charEnter 4 0 id s
    else if r.step = 4 then
      charEnter 5 (halfCp s) (fun x => { x with zFull := charZ s })
        ((List.range 4).foldl (fun s i => modEStr s i fun x => { x with qChar := 0 }) s)
    else if r.step = 5 then charEnter 6 0 id s
    else if r.step = 6 then charEnter 7 0 (fun x => { x with zEmpty := charZ s }) s
    else charCommit s))

/-- The bound of a characterisation step in s (R308). -/
def charBound (k : Nat) : Nat :=
  if k = 1 || k = 4 || k = 6 then 7200 else if k = 2 then 1200 else if k = 3 || k = 5 then 21600 else 10

/-- CHAR_STEP_TIMEOUT (R310): a step bound is exceeded. -/
def execCharStepTimeout (s : State) : Host.Outcome State Fault Refusal :=
  let r := s.est.chr
  .next (settle (if r.step ≠ 15 ∧ s.time.tns > r.at0 + charBound r.step * nsPerSec then charStop 4 s else s))

/-- CHAR_CURRENT_TIMEOUT (R310): the pack current has been outside its band for 30 s. -/
def execCharCurrentTimeout (s : State) : Host.Outcome State Fault Refusal :=
  .next (settle (match s.est.chr.outAt with
    | some t => if s.est.chr.step ≠ 15 ∧ s.time.tns ≥ t + 30 * nsPerSec then charStop 4 s else s
    | none => s))

/-! ## Reserve, reseed and the stage itself -/

/-- EST_CTRL.RESERVE_RELEASE (R303): r is 0 from the next summary. -/
def reserveRelease (s : State) : State :=
  if s.est.released then s
  else emit 0x0509 (le 4 s.cfg.est.reserve) ((List.range 4).foldl (fun s i => modEStr s i fun x => { x with qRel := 0 })
    (reserveSet true s))

/-- EST_CTRL.RESERVE_HOLD (R303, R312): a release ends. -/
def reserveHold (s : State) : State :=
  reserveRestore 2 s

/-- EST_CTRL.CC_RESEED (R290, R312): z_c of every estimated cell is set to its SOC. -/
def ccReseed (s : State) : State :=
  (cells s).foldl (fun s c =>
    if (eCell s c).seen then modECell s c fun e => { e with zc := slotVal s c 0 } else s) s

/-- A summary is due (R278): the steward runs, a committed frame waits, and in Fast mode its FRM mod 4 is 3. -/
def sumNow (s : State) : Bool :=
  s.sys.sumDue && s.sys.run.steward && (acqMode s != 1 || decide (s.sys.frmCommit.toNat % 4 = 3))

/-- SUMMARY_STAGE (R278): per-cell reports, string summaries, power limits and pack limits from the committed slots. -/
def execSummaryStage (s : State) : Host.Outcome State Fault Refusal :=
  .next (if !sumNow s then s
    else
      let s1 := (cells s).foldl sumCell s
      let s2 := (strings s1).foldl (sumString s) s1
      let s3 := releaseCheck s2
      let p := packLims s3
      let s4 := charSummary s { s3 with
        est.packDis := p.1, est.packChg := p.2, est.status := estStatus s3
        est.mark := if s3.est.released == s2.est.released then [] else s3.est.mark
        sys.frmSum := s.sys.frmCommit, sys.sumDue := false }
      settle s4)

end Sys2Proof.Machine
end

