-- ==== Sys2Proof/Machine/Parse.lean ====
section
/-! DEFINITION. The Abanga image (chapter 2) read from its bytes: header, directory, and the sections that make the
configuration and the netlist of the device; and the byte forms of the Sprout sections (R55). -/

namespace Sys2Proof.Machine

/-! ## Header and directory -/

/-- LENGTH of an image (R35). -/
def imgLen (b : List Byte) : Nat := fld b 8 4

/-- SEQ of an image (R35). -/
def imgSeq (b : List Byte) : Nat := fld b 16 4

/-- SIGNED of an image (R35). -/
def imgSigned (b : List Byte) : Bool := fld b 20 4 % 2 == 1

/-- SECT_COUNT of an image (R35). -/
def imgSects (b : List Byte) : Nat := fld b 24 2

/-- BUILD_ID of an image (R35). -/
def imgBuild (b : List Byte) : Nat := fld b 28 4

/-- The offset of directory entry `i` (R34). -/
def entAt (i : Nat) : Nat := 96 + 16 * i

/-- TYPE of directory entry `i` (R36). -/
def entType (b : List Byte) (i : Nat) : Nat := fld b (entAt i) 2

/-- OFFSET of directory entry `i`. -/
def entOff (b : List Byte) (i : Nat) : Nat := fld b (entAt i + 4) 4

/-- SIZE of directory entry `i`. -/
def entSize (b : List Byte) (i : Nat) : Nat := fld b (entAt i + 8) 4

/-- The body that directory entry `i` names. -/
def entBody (b : List Byte) (i : Nat) : List Byte := (b.drop (entOff b i)).take (entSize b i)

/-- The directory index of a section type. -/
def sectIx (b : List Byte) (ty : Nat) : Option Nat := (List.range (imgSects b)).find? fun i => entType b i == ty

/-- The image has a section of this type. -/
def hasSect (b : List Byte) (ty : Nat) : Bool := (sectIx b ty).isSome

/-- The body of a section, empty when absent. -/
def sect (b : List Byte) (ty : Nat) : List Byte := match sectIx b ty with
  | some i => entBody b i
  | none => []

/-- The `n` bytes from offset `off` on replaced by zeros. -/
def zeroAt (off n : Nat) (b : List Byte) : List Byte := b.take off ++ List.replicate n 0 ++ b.drop (off + n)

/-- The CRC that the header of an image must hold (R35). -/
def imgCrc (b : List Byte) : Word := crc32c (zeroAt 64 32 (zeroAt 32 4 b))

/-- The HMAC that the header of a signed image must hold (R35). -/
def imgHmac (key b : List Byte) : List Byte := hmac key (zeroAt 64 32 b)

/-! ## Sections -/

/-- The 16-bit fields that lie at an offset and follow it. -/
def words16 (b : List Byte) (off n : Nat) : List Nat := (List.range n).map fun k => fld b (off + 2 * k) 2

/-- The 32-bit words that lie at an offset and follow it. -/
def words32 (b : List Byte) (off n : Nat) : List Word := (List.range n).map fun k => BitVec.ofNat 32 (fld b (off + 4 * k) 4)

/-- String entry `i` of a TOPO body (R38). -/
def readTopoStr (b : List Byte) (i : Nat) : TopoStr :=
  let o := 16 + 16 * i
  { s := fld b o 1, cells := fld b (o + 2) 2, capNom := fld b (o + 4) 4, snRing := fld b (o + 8) 1, snPos := fld b (o + 9) 1 }

/-- The offset of node entry `i` of a TOPO body (R38). -/
def topoNodeAt (b : List Byte) (i : Nat) : Nat := 16 + 16 * fld b 0 1 + 8 * i

/-- Node entry `i` of a TOPO body (R38). -/
def readTopoNode (b : List Byte) (i : Nat) : TopoNode :=
  let o := topoNodeAt b i
  { ring := fld b o 1, pos := fld b (o + 1) 1, string := fld b (o + 2) 1, kind := fld b (o + 3) 1
    mask := fld b (o + 4) 2, firstC := fld b (o + 6) 2 }

/-- A TOPO body (R38). -/
def readTopo (b : List Byte) : TopoCfg :=
  { strings := (List.range (fld b 0 1)).map (readTopoStr b)
    rings := fld b 1 1 % 4, nCells := fld b 2 2
    nodes := (List.range (fld b 4 2)).map (readTopoNode b) }

/-- An ACQ body (R40). -/
def readAcq (b : List Byte) : AcqCfg :=
  { mode := BitVec.ofNat 32 (fld b 0 4), tBalTo := fld b 4 2, owPeriod := fld b 6 2, patrol := fld b 8 2
    pvMin := fld b 12 2, pvMax := fld b 14 2, ptMin := fldI b 16 2, ptMax := fldI b 18 2
    balDelta := fld b 20 2, balVmin := fld b 22 2 }

/-- String entry `i` of a DRV body (R41). -/
def readDrvStr (b : List Byte) (i : Nat) : DrvCfg :=
  let o := 4 + 32 * i
  { s := fld b o 1, chEn := fld b (o + 1) 1 % 8, preTmax := fld b (o + 2) 2, preTarget := fld b (o + 4) 2
    preTau := fld b (o + 6) 2, preTol := fld b (o + 8) 2, preOverlap := fld b (o + 10) 2, pullIn := fld b (o + 12) 2
    econDuty := fld b (o + 14) 1, weldDv := fld b (o + 16) 2 }

/-- A DRV body (R41). -/
def readDrv (b : List Byte) : List DrvCfg := (List.range (fld b 0 1)).map (readDrvStr b)

/-- The length of the program block at an offset of a KPROG body (R264). -/
def blockLen (b : List Byte) (o : Nat) : Nat := 320 + 4 * fld b o 2

/-- The offsets of `n` program blocks from `o` on (R42). -/
def blocksAt (b : List Byte) : Nat → Nat → List Nat
  | 0, _ => []
  | n + 1, o => o :: blocksAt b n (o + blockLen b o)

/-- The program block at an offset (R264). -/
def readProg (b : List Byte) (o : Nat) : Prog :=
  { id := fld b (o + 4) 4, live := BitVec.ofNat 32 (fld b (o + 8) 4), wNs := fld b (o + 12) 4
    persist := ((List.range 8).map fun j => fld b (o + 16 + j) 1).filter (· < 64)
    tabs := words16 b (o + 24) (fld b (o + 2) 1), init := words32 b (o + 64) 64
    words := words32 b (o + 320) (fld b o 2) }

/-- The offsets of the program blocks of a KPROG body. -/
def progsAt (b : List Byte) : List Nat := blocksAt b (fld b 0 1) 4

/-- The offset of the group map of a KPROG body (R42). -/
def mapAt (b : List Byte) : Nat := (progsAt b).foldl (fun o p => o + blockLen b p) 4

/-- The programs of a KPROG body. -/
def readProgs (b : List Byte) : List Prog := (progsAt b).map (readProg b)

/-- The group map of a KPROG body (R42). -/
def readMap (b : List Byte) (nCells : Nat) : List Nat := (List.range nCells).map fun c => fld b (mapAt b + c) 1

/-- The length of the table at an offset of a KTAB body (R43). -/
def tableLen (b : List Byte) (o : Nat) : Nat := 24 + 4 * (fld b (o + 2) 1 * fld b (o + 3) 1)

/-- The offsets of `n` tables from `o` on (R43). -/
def tablesFrom (b : List Byte) : Nat → Nat → List Nat
  | 0, _ => []
  | n + 1, o => o :: tablesFrom b n (o + tableLen b o)

/-- The offsets of the tables of a KTAB body. -/
def tablesAt (b : List Byte) : List Nat := tablesFrom b (fld b 0 2) 4

/-- The table at an offset (R43). -/
def readTable (b : List Byte) (o : Nat) : KTable :=
  let nx := fld b (o + 2) 1
  let ny := fld b (o + 3) 1
  let w (k : Nat) : Word := BitVec.ofNat 32 (fld b (o + k) 4)
  { id := fld b o 2, nx := nx, ny := ny, x0 := w 4, dx := w 8, y0 := w 12, dy := w 16, vals := words32 b (o + 24) (nx * ny) }

/-- The tables of a KTAB body. -/
def readTables (b : List Byte) : List KTable := (tablesAt b).map (readTable b)

/-- The limits of string `i` in an EST body (R305). -/
def readLim (b : List Byte) (i : Nat) : EstLim :=
  let o := 16 + 12 * i
  { iDis := fld b o 4, iChg := fld b (o + 4) 4, pDis := fld b (o + 8) 2, pChg := fld b (o + 10) 2 }

/-- An EST body (R305, R306). -/
def readEst (b : List Byte) : EstCfg :=
  { reserve := fld b 0 2, vEmpty := fld b 2 2, vFull := fld b 4 2
    tDisMin := fldI b 6 2, tDisMax := fldI b 8 2, tChgMin := fldI b 10 2, tChgMax := fldI b 12 2
    lim := (List.range 4).map (readLim b)
    sigGrow := fld b 68 2, uncOn := fld b 70 2, uncFull := fld b 72 2, uncFloor := fld b 74 1, staleDerate := fld b 75 1
    ccDiff := fld b 76 2, ccTime := fld b 78 2, etaChg := fld b 80 2, eFactor := fld b 82 2, jumpMin := fld b 84 2
    ttrWindow := fld b 86 2, charMap := (List.range 16).map fun j => fld b (88 + j) 1
    pset := (List.range (fld b 64 1)).map fun g => words32 b (256 + 256 * g) 64 }

/-- Record `k` of a prior table (R341). -/
def readPrior (b : List Byte) (k : Nat) : Prior :=
  let w (j : Nat) : BitVec 16 := BitVec.ofNat 16 (fld b (64 + 10 * k + 2 * j) 2)
  { rs := w 0, ra := w 1, rb := w 2, ta := w 3, tb := w 4 }

/-- A WIN body (R341). -/
def readWin (b : List Byte) : WinCfg :=
  { stepDi := fld b 0 2, stepT := fld b 2 2, evtHold := fld b 4 2, winMin := fld b 6 2, winMax := fld b 8 2
    richI := fld b 10 2, tailMin := fld b 12 2, tailMax := fld b 14 2, nAvg := fld b 16 2, wb := fld b 18 1
    outlier := fld b 19 1, residMax := fld b 20 2, rsMin := fld b 24 2, rsMax := fld b 26 2, raMax := fld b 28 2
    rbMax := fld b 30 2, taMin := fld b 32 2, taMax := fld b 34 2, tbMin := fld b 36 2, tbMax := fld b 38 2
    prior := if fld b 22 1 = 1 then (List.range 96).map (readPrior b) else [] }

/-- A REC body (R45). -/
def readRec (b : List Byte) : RecCfg :=
  { agg := fld b 2 2
    ents := (List.range (fld b 0 2)).map fun i =>
      let o := 4 + 8 * i
      { code := fld b o 2, sev := fld b (o + 2) 1, burst := fld b (o + 4) 2, rate := fld b (o + 6) 2 } }

/-- A HOST body (R46). -/
def readHost (b : List Byte) : HostCfg :=
  { ports := fld b 0 1 % 8, canIdf := fld b 1 1, canArb := fld b 2 1, canData := fld b 3 1, canBase := fld b 4 4
    irqMap := words32 b 48 8, evtMap := words32 b 80 4 }

/-- A SEC body (R48). -/
def readSec (b : List Byte) : SecCfg :=
  { reqHmac := fld b 0 1 == 1, debugAllow := fld b 1 1 == 1
    foreign := (List.range 4).foldl (fun m i => setBit4 m i (fld b (2 + i) 1 == 1)) 0
    chalPeriod := fld b 6 2 }

/-! ## HUSK -/

/-- The counts of a HUSK body and the offsets of its parts (R216). -/
structure HuskAt where
  /-- N_CELL -/
  nCell : Nat
  /-- N_SLOT -/
  nSlot : Nat
  /-- N_TMR -/
  nTmr : Nat
  /-- N_USEQ -/
  nUseq : Nat
  /-- N_OUT -/
  nOut : Nat
  /-- first slot -/
  slot : Nat
  /-- first timer -/
  tmr : Nat
  /-- first cell -/
  cell : Nat
  /-- first program -/
  useq : Nat
  /-- first binding -/
  out : Nat
  /-- end of the body -/
  fin : Nat
  deriving DecidableEq, Repr

/-- The parts of a HUSK body (R216). -/
def huskAt (b : List Byte) : HuskAt :=
  let nc := fld b 0 2
  let ns := fld b 2 2
  let nt := fld b 4 1
  let nu := fld b 5 1
  let no := fld b 6 2
  let s := 160
  let t := s + 12 * ns
  let c := t + 4 * nt
  let u := c + 12 * nc
  let o := u + 128 * nu
  { nCell := nc, nSlot := ns, nTmr := nt, nUseq := nu, nOut := no
    slot := s, tmr := t, cell := c, useq := u, out := o, fin := o + 8 * no }

/-- Limits entry `i` of a HUSK body. -/
def readLimit (b : List Byte) (i : Nat) : HLimit :=
  let o := 32 + 32 * i
  { en := fld b o 1 == 1, vMin := fld b (o + 2) 2, vMax := fld b (o + 4) 2, nUv := fld b (o + 6) 2, nOv := fld b (o + 8) 2
    grace := fld b (o + 10) 2, iHi := fldI b (o + 12) 4, iLo := fldI b (o + 16) 4 }

/-- The slot at an offset. -/
def readSlot (b : List Byte) (o : Nat) : HSlot :=
  { meas := fld b o 2, above := fld b (o + 2) 1 == 0, missTrip := fld b (o + 3) 1 % 2 == 1, thr := fldI b (o + 4) 4
    hyst := fld b (o + 8) 2, qual := fld b (o + 10) 1 }

/-- The timer at an offset. -/
def readTimer (b : List Byte) (o : Nat) : HTimer :=
  let v := fld b o 4
  { count := v / 65536, unit := v / 16384 % 4, mode := v / 4096 % 4, src := v % 4096 }

/-- The husk cell at an offset. -/
def readCell (b : List Byte) (o : Nat) : HCell :=
  let m := fld b (o + 2) 1
  { tt := BitVec.ofNat 16 (fld b o 2), init := m / 4 % 2 == 1, mode := m % 4, a := fld b (o + 4) 2 % 4096
    b := fld b (o + 6) 2 % 4096, c := fld b (o + 8) 2 % 4096, d := fld b (o + 10) 2 % 4096 }

/-- The sequencer step at an offset. -/
def readStep (b : List Byte) (o : Nat) : HStep :=
  let n := fld b (o + 1) 1
  let w := fld b (o + 2) 2
  let f := fld b (o + 7) 1
  { act := BitVec.ofNat 4 (fld b o 1), nextOk := n % 16, nextTmo := n / 16, waitZero := w / 32768 == 1, wait := w % 4096
    tmo := fld b (o + 4) 2, tunit := fld b (o + 6) 1, fin := f % 2 == 1, flt := f / 2 % 2 == 1 }

/-- The output binding at an offset. -/
def readOut (b : List Byte) (o : Nat) : HOut :=
  { src := fld b o 2 % 4096, func := fld b (o + 2) 1, arg := fld b (o + 3) 1, code := fld b (o + 4) 2 }

/-- The offsets of `n` entries of a size from `o` on. -/
def entries (o size n : Nat) : List Nat := (List.range n).map fun k => o + size * k

/-- A HUSK body (R216). -/
def readHusk (b : List Byte) : Netlist :=
  let h := huskAt b
  { limits := (List.range 4).map (readLimit b)
    slots := (entries h.slot 12 h.nSlot).map (readSlot b)
    timers := (entries h.tmr 4 h.nTmr).map (readTimer b)
    cells := (entries h.cell 12 h.nCell).map (readCell b)
    useqs := (entries h.useq 128 h.nUseq).map fun o => (entries o 8 16).map (readStep b)
    outs := (entries h.out 8 h.nOut).map (readOut b) }

/-! ## A whole image -/

/-- The Sprout EST of the latched chemistry for a topology (R37, R78, R307). -/
def sproutEstFor (s : State) (t : TopoCfg) : EstCfg := sproutEst s.sys.chem (sproutBases s t)

/-- A WIN section without a prior table takes the Sprout priors of the latched chemistry (R324). -/
def winPriors (chem : Nat) (w : WinCfg) : WinCfg := if w.prior.isEmpty then { w with prior := sproutPrior chem } else w

/-- The configuration that an image of a slot gives (R37 to R48): an absent optional section is the Sprout section of
the latched chemistry, KPROG and KTAB together. -/
def imgCfg (s : State) (b : List Byte) : Cfg :=
  let t := readTopo (sect b 1)
  let own := hasSect b 5
  let chem := s.sys.chem
  { topo := t, acq := readAcq (sect b 2), drv := readDrv (sect b 4)
    prog := if own then readProgs (sect b 5) else sproutProg chem
    gmap := if own then readMap (sect b 5) t.nCells else List.replicate t.nCells (if chem = 3 then 0xFF else 0)
    tabs := if !own then sproutTabs chem else if hasSect b 6 then readTables (sect b 6) else []
    est := if hasSect b 7 then readEst (sect b 7) else sproutEstFor s t
    win := if hasSect b 8 then winPriors chem (readWin (sect b 8)) else sproutWin chem
    recd := readRec (sect b 9), host := readHost (sect b 10), sec := readSec (sect b 12)
    basis := [], seq := BitVec.ofNat 32 (imgSeq b), build := BitVec.ofNat 32 (imgBuild b) }

/-- A THERM body (R47): WARN, THROT and SHUT. -/
def readTherm (b : List Byte) : Int × Int × Int := (fldI b 0 2, fldI b 2 2, fldI b 4 2)

/-! ## Byte forms of the Sprout sections (R55) -/

/-- A list of 32-bit words as bytes. -/
def bytes32 (l : List Word) : List Byte := l.flatMap fun w => le 4 w.toNat

/-- The byte form of a TOPO (R38). -/
def topoBody (t : TopoCfg) : List Byte :=
  le 1 t.strings.length ++ le 1 t.rings ++ le 2 t.nCells ++ le 2 t.nodes.length ++ le 10 0 ++
    (t.strings.flatMap fun e => le 1 e.s ++ le 1 0 ++ le 2 e.cells ++ le 4 e.capNom ++ le 1 e.snRing ++ le 1 e.snPos ++ le 6 0) ++
    (t.nodes.flatMap fun n => le 1 n.ring ++ le 1 n.pos ++ le 1 n.string ++ le 1 n.kind ++ le 2 n.mask ++ le 2 n.firstC)

/-- The byte form of an ACQ (R40). -/
def acqBody (a : AcqCfg) : List Byte :=
  le 4 a.mode.toNat ++ le 2 a.tBalTo ++ le 2 a.owPeriod ++ le 2 a.patrol ++ le 2 0 ++ le 2 a.pvMin ++ le 2 a.pvMax ++
    leI 2 a.ptMin ++ leI 2 a.ptMax ++ le 2 a.balDelta ++ le 2 a.balVmin ++ le 8 0

/-- The byte form of a DRV (R41). -/
def drvBody (l : List DrvCfg) : List Byte :=
  le 1 l.length ++ le 3 0 ++ l.flatMap fun d =>
    le 1 d.s ++ le 1 d.chEn ++ le 2 d.preTmax ++ le 2 d.preTarget ++ le 2 d.preTau ++ le 2 d.preTol ++ le 2 d.preOverlap ++
      le 2 d.pullIn ++ le 1 d.econDuty ++ le 1 0 ++ le 2 d.weldDv ++ le 14 0

/-- The byte form of a program block (R264). -/
def progBytes (p : Prog) : List Byte :=
  le 2 p.words.length ++ le 1 p.tabs.length ++ le 1 0 ++ le 4 p.id ++ le 4 p.live.toNat ++ le 4 p.wNs ++
    ((p.persist ++ List.replicate (8 - p.persist.length) 0xFF).flatMap (le 1)) ++
    padTo 32 (p.tabs.flatMap (le 2)) ++ le 8 0 ++ bytes32 p.init ++ bytes32 p.words

/-- The byte form of a KPROG with its group map (R42). -/
def kprogBody (ps : List Prog) (gmap : List Nat) : List Byte :=
  le 1 ps.length ++ le 3 0 ++ ps.flatMap progBytes ++ padTo ((gmap.length + 3) / 4 * 4) (gmap.flatMap (le 1))

/-- The byte form of a KTAB (R43). -/
def ktabBody (ts : List KTable) : List Byte :=
  le 2 ts.length ++ le 2 0 ++ ts.flatMap fun t =>
    le 2 t.id ++ le 1 t.nx ++ le 1 t.ny ++ bytes32 [t.x0, t.dx, t.y0, t.dy] ++ le 4 0 ++ bytes32 t.vals

/-- The byte form of an EST limit block (R305). -/
def limBody (e : EstCfg) : List Byte :=
  le 2 e.reserve ++ le 2 e.vEmpty ++ le 2 e.vFull ++ leI 2 e.tDisMin ++ leI 2 e.tDisMax ++ leI 2 e.tChgMin ++
    leI 2 e.tChgMax ++ le 2 0 ++ (List.range 4).flatMap fun i =>
      let l := e.lim.getD i {}
      le 4 l.iDis ++ le 4 l.iChg ++ le 2 l.pDis ++ le 2 l.pChg

/-- The byte form of an EST (R305, R306). -/
def estBody (e : EstCfg) : List Byte :=
  limBody e ++ le 1 e.pset.length ++ le 3 0 ++ le 2 e.sigGrow ++ le 2 e.uncOn ++ le 2 e.uncFull ++ le 1 e.uncFloor ++
    le 1 e.staleDerate ++ le 2 e.ccDiff ++ le 2 e.ccTime ++ le 2 e.etaChg ++ le 2 e.eFactor ++ le 2 e.jumpMin ++
    le 2 e.ttrWindow ++ e.charMap.flatMap (le 1) ++ le 152 0 ++ e.pset.flatMap bytes32

/-- The byte form of a WIN (R341). -/
def winBody (w : WinCfg) : List Byte :=
  le 2 w.stepDi ++ le 2 w.stepT ++ le 2 w.evtHold ++ le 2 w.winMin ++ le 2 w.winMax ++ le 2 w.richI ++ le 2 w.tailMin ++
    le 2 w.tailMax ++ le 2 w.nAvg ++ le 1 w.wb ++ le 1 w.outlier ++ le 2 w.residMax ++ le 1 (b2n (!w.prior.isEmpty)) ++
    le 1 0 ++ le 2 w.rsMin ++ le 2 w.rsMax ++ le 2 w.raMax ++ le 2 w.rbMax ++ le 2 w.taMin ++ le 2 w.taMax ++ le 2 w.tbMin ++
    le 2 w.tbMax ++ le 24 0 ++
    w.prior.flatMap fun p => [p.rs, p.ra, p.rb, p.ta, p.tb].flatMap fun v => le 2 v.toNat

/-- The byte form of a REC (R45). -/
def recBody (r : RecCfg) : List Byte :=
  le 2 r.ents.length ++ le 2 r.agg ++ r.ents.flatMap fun e => le 2 e.code ++ le 1 e.sev ++ le 1 0 ++ le 2 e.burst ++ le 2 e.rate

/-- The byte form of a HOST (R46). -/
def hostBody (h : HostCfg) : List Byte :=
  le 1 h.ports ++ le 1 h.canIdf ++ le 1 h.canArb ++ le 1 h.canData ++ le 4 h.canBase ++ le 40 0 ++ bytes32 h.irqMap ++
    bytes32 h.evtMap

/-- The byte form of the Sprout THERM (R81). -/
def thermBody : List Byte := le 2 12000 ++ le 2 13000 ++ le 2 14500 ++ le 10 0

/-- The byte form of a SEC (R48). -/
def secBody (c : SecCfg) : List Byte :=
  le 1 (b2n c.reqHmac) ++ le 1 (b2n c.debugAllow) ++ ((List.range 4).flatMap fun i => le 1 (b2n (c.foreign.getLsbD i))) ++
    le 2 c.chalPeriod ++ le 24 0

/-- The byte form of a Sprout section for a chemistry, a topology and its limits, none where Sprout holds no such
section (R55, R76). -/
def sproutSect (chem : Nat) (t : TopoCfg) (basis : List (Nat × Nat × Nat)) (ty : Nat) : Option (List Byte) :=
  if ty = 1 then some (topoBody t)
  else if ty = 2 then some (acqBody (sproutAcq chem))
  else if ty = 3 then some (huskBody (sproutNet chem t basis))
  else if ty = 4 then some (drvBody (sproutDrv t))
  else if ty = 5 then if chem = 3 then none else some (kprogBody (sproutProg chem) (List.replicate t.nCells 0))
  else if ty = 6 then if chem = 3 then none else some (ktabBody (sproutTabs chem))
  else if ty = 7 then some (estBody (sproutEst chem basis))
  else if ty = 8 then some (winBody (sproutWin chem))
  else if ty = 9 then some (recBody sproutRec)
  else if ty = 10 then some (hostBody sproutHost)
  else if ty = 11 then some thermBody
  else if ty = 12 then some (secBody sproutSec)
  else none

end Sys2Proof.Machine
end

