-- ==== Sys2Proof/Machine/Check.lean ====
section
/-! DEFINITION. The validation of an Abanga image (R49): each check lists the image offsets of the fields it finds at
fault, and a step reports the lowest. -/

namespace Sys2Proof.Machine

/-- A validation failure (R49, R64, R66): ERR, ERR_SECT and IMG_ERR_LOC. -/
structure ImgFail where
  /-- 8; R64 ERR -/
  err : Nat
  /-- 4; R64 ERR_SECT -/
  sect : Nat
  /-- 32; R66 IMG_ERR_LOC -/
  loc : Nat
  deriving DecidableEq, Repr

/-- The offset is at fault when the condition fails. -/
def want (ok : Bool) (off : Nat) : List Nat := if ok then [] else [off]

/-- The field at `off`, of `n` bytes, lies in a range. -/
def inRange (b : List Byte) (off n lo hi : Nat) : List Nat := want (decide (lo ≤ fld b off n ∧ fld b off n ≤ hi)) off

/-- The least number of a list. -/
def least : List Nat → Option Nat
  | [] => none
  | x :: xs => some (xs.foldl min x)

/-- The failure at the lowest of the offsets found at fault, none when there is none. -/
def failAt (err sec : Nat) (offs : List Nat) : Option ImgFail := (least offs).map fun o => { err := err, sect := sec, loc := o }

/-- An entry of a list has the value of a later one. -/
def twice (l : List Nat) (i : Nat) : Bool := (l.drop (i + 1)).contains (l.getD i 0)

/-- An entry of a list has the value of an earlier one. -/
def again (l : List Nat) (i : Nat) : Bool := (l.take i).contains (l.getD i 0)

/-! ## Steps 1 to 3, 7 and 8: header and directory -/

/-- Steps 1 to 3 on the header of an image of `len` bytes. -/
def headFail (b : List Byte) (len : Nat) : Option ImgFail :=
  failAt 1 0 (want (fld b 0 4 == 0x474E4241) 0 ++ want (fld b 4 1 == 1) 4 ++ want (fld b 5 1 == 0) 5 ++ want (fld b 6 2 == 96) 6)
  <|> failAt 2 0 (want (imgLen b % 4 == 0 && decide (112 ≤ imgLen b ∧ imgLen b ≤ 1572864) && imgLen b == len) 8)
  <|> failAt 3 0 (want (fld b 12 4 == 0x600) 12)

/-- A section type exists (R36). -/
def typeOk (ty : Nat) : Bool := decide (1 ≤ ty ∧ ty ≤ 12) || decide (0x8000 ≤ ty)

/-- The fields at fault in directory entry `i`, whose body must start at `o` (R34, R36). -/
def entErrs (b : List Byte) (i o : Nat) : List Nat :=
  let ty := entType b i
  let dup := decide (ty ≤ 12) && again ((List.range i).map (entType b) ++ [ty]) i
  want (typeOk ty && !dup) (entAt i) ++ want (entOff b i == o) (entAt i + 4) ++
    want (entSize b i % 4 == 0 && decide (o + entSize b i ≤ imgLen b)) (entAt i + 8)

/-- The first directory entry at fault among the last `n` of the `i + n` entries, and where the bodies end. -/
def dirErrs (b : List Byte) : Nat → Nat → Nat → List Nat × Nat
  | 0, _, o => ([], o)
  | n + 1, i, o => match entErrs b i o with
    | [] => dirErrs b n (i + 1) (o + entSize b i)
    | e => (e, o)

/-- Step 7: the directory (R34, R36). -/
def dirFail (b : List Byte) : Option ImgFail :=
  let n := imgSects b
  if n < 1 ∨ n > 64 ∨ entAt n > imgLen b then some { err := 8, sect := 0, loc := 24 }
  else
    let r := dirErrs b n 0 (entAt n)
    failAt 8 0 r.1 <|> failAt 8 0 (want (r.2 == imgLen b) 8)

/-- The section types that an image must have (R37). -/
def required : List Nat := [1, 2, 3, 4, 9, 10, 11, 12]

/-- Step 8: required sections and versions; an annotation is not looked at (R36). -/
def presentFail (b : List Byte) : Option ImgFail :=
  match required.find? fun ty => !hasSect b ty with
  | some ty => some { err := 9, sect := ty, loc := 24 }
  | none =>
    match (List.range (imgSects b)).find? fun i => decide (entType b i ≤ 12) && fld b (entAt i + 2) 1 != 1 with
    | some i => some { err := 0xA, sect := entType b i, loc := entAt i + 2 }
    | none => none

/-- The section types present, ascending. -/
def present (b : List Byte) : List Nat := (rangeFrom 1 12).filter (hasSect b)

/-- The CRC of a section matches its directory entry (R36). -/
def sectCrcOk (b : List Byte) (ty : Nat) : Bool := match sectIx b ty with
  | some i => (crc32c (entBody b i)).toNat == fld b (entAt i + 12) 4
  | none => true

/-- Step 9: the CRC of each section. -/
def crcFail (b : List Byte) : Option ImgFail :=
  match (present b).find? fun ty => !sectCrcOk b ty with
  | some ty => (sectIx b ty).map fun i => { err := 0xB, sect := ty, loc := entAt i + 12 }
  | none => none

/-! ## Step 10: reserved fields -/

/-- The `n` bytes at `off` of a body are reserved. -/
def resv (b : List Byte) (off n : Nat) : List Nat := want (((b.drop off).take n).all (· == 0)) off

/-- The bits `m` of the byte at `off` are reserved. -/
def resvBits (b : List Byte) (off m : Nat) : List Nat := want (fld b off 1 &&& m == 0) off

/-- The reserved fields of a HUSK body that are not zero (R216). -/
def huskResv (b : List Byte) : List Nat :=
  let h := huskAt b
  resv b 8 24 ++ ((entries 32 32 4).flatMap fun o => resv b (o + 1) 1 ++ resv b (o + 20) 12) ++
    ((entries h.slot 12 h.nSlot).flatMap fun o => resvBits b (o + 3) 0xFE ++ resv b (o + 11) 1) ++
    ((entries h.cell 12 h.nCell).flatMap fun o => resvBits b (o + 2) 0xF8 ++ resv b (o + 3) 1 ++
      [5, 7, 9, 11].flatMap fun k => resvBits b (o + k) 0xF0) ++
    ((entries h.useq 8 (16 * h.nUseq)).flatMap fun o => resvBits b o 0xF0 ++ resvBits b (o + 3) 0x70 ++ resvBits b (o + 7) 0xFC) ++
    ((entries h.out 8 h.nOut).flatMap fun o => resvBits b (o + 1) 0xF0 ++ resv b (o + 6) 2)

/-- The reserved fields of a section body that are not zero, by offset in the body. -/
def sectResv (b : List Byte) (ty nCells : Nat) : List Nat :=
  if ty = 1 then
    resvBits b 1 0xFC ++ resv b 6 10 ++ (entries 16 16 (fld b 0 1)).flatMap fun o => resv b (o + 1) 1 ++ resv b (o + 10) 6
  else if ty = 2 then resvBits b 2 0x0C ++ resvBits b 3 0xF0 ++ resv b 10 2 ++ resv b 24 8
  else if ty = 3 then huskResv b
  else if ty = 4 then
    resv b 1 3 ++ (entries 4 32 (fld b 0 1)).flatMap fun o => resvBits b (o + 1) 0xF8 ++ resv b (o + 15) 1 ++ resv b (o + 18) 14
  else if ty = 5 then
    resv b 1 3 ++ ((progsAt b).flatMap fun o => resv b (o + 3) 1 ++ resv b (o + 56) 8) ++
      resv b (mapAt b + nCells) ((nCells + 3) / 4 * 4 - nCells)
  else if ty = 6 then resv b 2 2 ++ (tablesAt b).flatMap fun o => resv b (o + 20) 4
  else if ty = 7 then resv b 14 2 ++ resv b 65 3 ++ resv b 104 152
  else if ty = 8 then resv b 23 1 ++ resv b 40 24
  else if ty = 9 then (entries 4 8 (fld b 0 2)).flatMap fun o => resv b (o + 3) 1
  else if ty = 10 then resvBits b 0 0xF8 ++ resv b 8 40
  else if ty = 11 then resv b 6 10
  else resv b 8 24

/-- The failure of the lower offset. -/
def lower (a b : Option ImgFail) : Option ImgFail := match a, b with
  | none, y => y
  | x, none => x
  | some x, some y => if y.loc < x.loc then some y else some x

/-- The failures of the sections present, each at its image offset, and the lowest of them. -/
def lowestOf (b : List Byte) (f : Nat → Option ImgFail) : Option ImgFail :=
  (present b).foldl (fun a ty => lower a (f ty)) none

/-- The offset of a section's body in the image. -/
def bodyAt (b : List Byte) (ty : Nat) : Nat := match sectIx b ty with
  | some i => entOff b i
  | none => 0

/-- Step 10: reserved fields in the header, the directory and the sections. -/
def resvFail (b : List Byte) : Option ImgFail :=
  let head := want (fld b 20 4 / 2 == 0) 20 ++ resv b 26 2 ++ resv b 36 28 ++ (if imgSigned b then [] else resv b 64 32) ++
    (List.range (imgSects b)).flatMap fun i => resv b (entAt i + 3) 1
  let n := (readTopo (sect b 1)).nCells
  lower (failAt 0xC 0 head)
    (lowestOf b fun ty => failAt 0xC ty ((sectResv (sect b ty) ty n).map (· + bodyAt b ty)))

/-! ## Step 11: section contents -/

/-- The populated inputs of the nodes of a string. -/
def inputsOf (t : TopoCfg) (i : Nat) : List Nat :=
  ((t.nodes.filter fun n => n.string == i && n.kind == 1).flatMap nodeCells).map (·.1)

/-- TOPO (R38, R39). -/
def topoErrs (b : List Byte) : List Nat :=
  let nS := fld b 0 1
  let nC := fld b 2 2
  let nN := fld b 4 2
  let counts := inRange b 0 1 1 4 ++ inRange b 2 2 1 1536 ++ inRange b 4 2 1 112
  if !counts.isEmpty then counts
  else
    let t := readTopo b
    let ids := t.strings.map (·.s)
    let keys := t.nodes.map fun n => 256 * n.ring + n.pos
    let cs := (t.nodes.filter (·.kind == 1)).flatMap fun n => (nodeCells n).map (·.1)
    let used (r : Nat) := t.nodes.any (·.ring == r)
    let many (r : Nat) := decide ((t.nodes.filter fun n => n.ring == r && n.kind == 1).length > 48)
    want ((List.range 2).all fun r => t.rings.testBit r == used r) 1 ++
      want ((List.range nC).all (fun c => (cs.filter (· == c)).length == 1) && cs.all (· < nC)) 2 ++
      ((List.range nS).flatMap fun i =>
        let o := 16 + 16 * i
        let e := readTopoStr b i
        let mine := inputsOf t e.s
        let sn := t.nodes.filter fun n => n.string == e.s && n.kind == 2
        want (decide (e.s < 4) && !twice ids i) o ++
          want (decide (1 ≤ e.cells ∧ e.cells ≤ 384) && mine.length == e.cells &&
            mine.all fun c => decide (c < mine.foldl min nC + e.cells)) (o + 2) ++
          want (decide (e.snRing < 2) && match sn with
            | [n] => n.ring == e.snRing && n.pos == e.snPos
            | _ => false) (o + 8)) ++
      (List.range nN).flatMap fun i =>
        let o := topoNodeAt b i
        let n := readTopoNode b i
        want (decide (n.ring < 2) && !twice keys i && !(n.kind == 1 && many n.ring)) o ++
          want (decide (1 ≤ n.pos ∧ n.pos ≤ 56)) (o + 1) ++ want (ids.contains n.string) (o + 2) ++
          want (n.kind == 1 || n.kind == 2) (o + 3) ++ want ((n.kind == 1) == (n.mask != 0)) (o + 4) ++
          want (n.kind == 1 || n.firstC == 0) (o + 6)

/-- A SYS_MODE value holds no reserved encoding (R27, R28). -/
def modeOk (m : Word) : Bool :=
  bits m 27 26 != 3 && decide (bits m 25 24 < 2) && bits m 17 16 != 3

/-- ACQ (R40). -/
def acqErrs (b : List Byte) : List Nat :=
  let a := readAcq b
  want (modeOk a.mode) 0 ++ inRange b 4 2 10 1000 ++ inRange b 6 2 100 60000 ++ inRange b 8 2 5 3600 ++
    want (decide (a.pvMin < a.pvMax)) 12 ++ want (decide (a.ptMin < a.ptMax)) 16 ++ inRange b 20 2 10 1000

/-- DRV (R41). -/
def drvErrs (b : List Byte) : List Nat :=
  let ss := (readDrv b).map (·.s)
  inRange b 0 1 1 4 ++ (List.range (min 4 (fld b 0 1))).flatMap fun i =>
    let o := 4 + 32 * i
    want (decide (fld b o 1 < 4) && !twice ss i) o ++ want (fld b (o + 1) 1 % 4 == 3) (o + 1) ++
      inRange b (o + 2) 2 50 5000 ++ inRange b (o + 4) 2 9000 9900 ++ inRange b (o + 8) 2 5 50 ++
      inRange b (o + 10) 2 5 200 ++ inRange b (o + 12) 2 10 500 ++ inRange b (o + 14) 1 20 100

/-- The frame inputs exist (R255). -/
def ldiOk (ix : Nat) : Bool := decide (ix ≤ 0xB) || decide (0x10 ≤ ix ∧ ix ≤ 0x15) || decide (0x40 ≤ ix ∧ ix ≤ 0x7F)

/-- The word obeys its format and the rules of its instruction (R257, R258, R265): `k` is its index, `fin` the index of
the program's last word and `nTab` its N_TAB. -/
def wordOk (nTab fin k w : Nat) : Bool :=
  let v := BitVec.ofNat 32 w
  let z (hi lo : Nat) := bits v hi lo == 0
  let op := bits v 31 26
  if op = 0 then z 25 0 && k == fin
  else if op ∈ [1, 2, 3, 5, 8, 9] then z 10 0
  else if op ∈ [4, 0xB] then z 5 0
  else if op ∈ [6, 7, 0xA] then z 15 0
  else if op = 0xC then z 25 24 && bits v 10 8 != 7 && z 7 0
  else if op = 0xD then z 10 9 && z 5 0
  else if op = 0xE then z 20 18 && bits v 17 16 != 3 && !(bits v 17 16 == 0 && bits v 14 10 == 31)
  else if op = 0xF then z 15 11 && decide (bits v 10 8 < 6) && z 7 0
  else if op = 0x10 then z 20 8 && ldiOk (bits v 7 0)
  else if op = 0x11 then z 20 6
  else if op = 0x12 then z 25 21 && z 15 6
  else if op = 0x13 then z 10 10 && z 5 0 && decide (bits v 9 6 < nTab)
  else if op = 0x14 then z 25 21 && z 15 4
  else if op = 0x15 then z 20 10 && decide (1 ≤ bits v 9 0 ∧ k + bits v 9 0 + 1 ≤ fin)
  else false

/-- PERSIST holds distinct state words, then 0xFF entries (R264). -/
def persistOk (l : List Nat) : Bool :=
  let used := l.takeWhile (· != 0xFF)
  (l.drop used.length).all (· == 0xFF) && used.all (· < 64) && (List.range used.length).all fun i => !twice used i

/-- One program block at offset `o` (R264, R265, R271); `ids` are the PROG_IDs and `i` the block's number. -/
def blockErrs (b : List Byte) (ids : List Nat) (i o : Nat) : List Nat :=
  let n := fld b o 2
  let nTab := fld b (o + 2) 1
  let ws := (List.range n).map fun k => fld b (o + 320 + 4 * k) 4
  inRange b o 2 1 1024 ++ inRange b (o + 2) 1 0 16 ++
    want (fld b (o + 4) 4 != 0 && !twice ids i) (o + 4) ++ want (fld b (o + 8) 1 % 2 == 0) (o + 8) ++
    want (fld b (o + 12) 4 == stepNs ws && decide (fld b (o + 12) 4 ≤ 2000)) (o + 12) ++
    want (persistOk ((List.range 8).map fun j => fld b (o + 16 + j) 1)) (o + 16) ++
    (((List.range 16).filter (nTab ≤ ·)).flatMap fun j => inRange b (o + 24 + 2 * j) 2 0 0) ++
    ((List.range 64).flatMap fun j => want (!notFinite (BitVec.ofNat 32 (fld b (o + 64 + 4 * j) 4))) (o + 64 + 4 * j)) ++
    (ws.zipIdx).flatMap fun wk =>
      want (wordOk nTab (n - 1) wk.2 wk.1 && (wk.2 != n - 1 || wk.1 / 67108864 == 0)) (o + 320 + 4 * wk.2)

/-- KPROG (R42, R264, R265) for N_CELLS of the image's TOPO. -/
def kprogErrs (b : List Byte) (nCells : Nat) : List Nat :=
  let ids := (readProgs b).map (·.id)
  inRange b 0 1 1 8 ++ (((progsAt b).take 8).zipIdx.flatMap fun oi => blockErrs b ids oi.2 oi.1) ++
    (List.range nCells).flatMap fun c => want (decide (fld b (mapAt b + c) 1 < fld b 0 1)) (mapAt b + c)

/-- A binary32 value is finite and greater than zero. -/
def posFinite (w : Nat) : Bool := decide (0 < w ∧ w < 0x7F800000)

/-- KTAB (R43, R265). -/
def ktabErrs (b : List Byte) : List Nat :=
  let n := fld b 0 2
  if n < 1 ∨ n > 64 then [0]
  else
    let os := tablesAt b
    let ids := os.map fun o => fld b o 2
    let total := (os.map fun o => fld b (o + 2) 1 * fld b (o + 3) 1).foldl (· + ·) 0
    want (decide (total ≤ 65536)) 6 ++ (os.zipIdx).flatMap fun oi =>
      let o := oi.1
      let k := fld b (o + 2) 1 * fld b (o + 3) 1
      want (!twice ids oi.2) o ++ inRange b (o + 2) 1 2 64 ++ inRange b (o + 3) 1 2 64 ++
        want (posFinite (fld b (o + 8) 4)) (o + 8) ++ want (posFinite (fld b (o + 16) 4)) (o + 16) ++
        (entries (o + 24) 4 k).flatMap fun v => want (!notFinite (BitVec.ofNat 32 (fld b v 4))) v

/-- EST (R305, R306) for the strings of the image's TOPO. -/
def estErrs (b : List Byte) (ids : List Nat) : List Nat :=
  let e := readEst b
  inRange b 0 2 0 2000 ++ want (decide (e.vEmpty < e.vFull)) 2 ++ want (decide (e.tDisMin + 1000 ≤ e.tDisMax)) 6 ++
    want (decide (e.tChgMin + 1000 ≤ e.tChgMax)) 10 ++
    ((List.range 4).flatMap fun i =>
      let o := 16 + 12 * i
      if ids.contains i then want (fld b o 4 != 0) o ++ want (fld b (o + 4) 4 != 0) (o + 4)
      else inRange b o 4 0 0 ++ inRange b (o + 4) 4 0 0 ++ inRange b (o + 8) 2 0 0 ++ inRange b (o + 10) 2 0 0) ++
    inRange b 64 1 0 8 ++ inRange b 68 2 100 5000 ++ want (decide (500 ≤ e.uncOn ∧ e.uncOn ≤ 10000 ∧ e.uncOn < e.uncFull)) 70 ++
    want (decide (e.uncFull ≤ 25000)) 72 ++ inRange b 74 1 0 100 ++ inRange b 75 1 0 100 ++ inRange b 76 2 500 25000 ++
    inRange b 78 2 1 3600 ++ inRange b 80 2 9000 10000 ++ inRange b 82 2 8000 10000 ++ inRange b 84 2 1 5000 ++
    inRange b 86 2 1 600 ++
    ((List.range 16).flatMap fun j => want (decide (fld b (88 + j) 1 < 64) || fld b (88 + j) 1 == 0xFF) (88 + j)) ++
    (entries 256 4 (64 * min 8 (fld b 64 1))).flatMap fun o => want (!notFinite (BitVec.ofNat 32 (fld b o 4))) o

/-- A binary16 value is finite and greater than zero. -/
def posFinite16 (w : Nat) : Bool := decide (0 < w ∧ w < 0x7C00)

/-- WIN (R341, R342). -/
def winErrs (b : List Byte) : List Nat :=
  let w := readWin b
  inRange b 0 2 5 100 ++ inRange b 2 2 1 20 ++ inRange b 4 2 10 10000 ++
    want (decide (20 ≤ w.winMin ∧ w.winMin ≤ 600 ∧ w.winMin ≤ w.winMax)) 6 ++ want (decide (w.winMax ≤ 600)) 8 ++
    inRange b 10 2 5 500 ++ want (decide (30 ≤ w.tailMin ∧ w.tailMin ≤ 600 ∧ w.tailMin ≤ w.tailMax)) 12 ++
    want (decide (w.tailMax ≤ 3600)) 14 ++ inRange b 16 2 1 1024 ++ inRange b 18 1 1 100 ++ inRange b 19 1 12 100 ++
    inRange b 20 2 5 100 ++ inRange b 22 1 0 1 ++ want (decide (1 ≤ w.rsMin ∧ w.rsMin < w.rsMax)) 24 ++
    want (decide (1 ≤ w.taMin ∧ w.taMin < w.taMax)) 32 ++ want (decide (w.taMax < 100 * w.tbMin)) 34 ++
    want (decide (w.tbMin ≤ w.tbMax)) 36 ++ want (decide (w.tbMax ≤ 3600)) 38 ++
    if fld b 22 1 = 1 then (entries 64 2 480).flatMap fun o => want (posFinite16 (fld b o 2)) o else []

/-- REC (R45). -/
def recErrs (b : List Byte) : List Nat :=
  let n := fld b 0 2
  if n > 4096 then [0]
  else
    let codes := (readRec b).ents.map (·.code)
    inRange b 2 2 100 4000 ++ (List.range n).flatMap fun i =>
      let o := 4 + 8 * i
      let c := fld b o 2
      let sev := fld b (o + 2) 1
      want ((decide (0x8000 ≤ c ∧ c ≤ 0x8FFF) || (decide (c ≤ 0xFFF) && devSev c == some sev)) && !twice codes i) o ++
        want (decide (sev ≤ 3)) (o + 2) ++ inRange b (o + 4) 2 1 1024 ++ inRange b (o + 6) 2 0 4000

/-- HOST (R46, R487). -/
def hostErrs (b : List Byte) : List Nat :=
  want (fld b 0 1 % 8 != 0) 0 ++ inRange b 1 1 0 1 ++ inRange b 2 1 0 3 ++ inRange b 3 1 0 3 ++
    inRange b 4 4 0 (if fld b 1 1 = 0 then 0x6BF else 0x1FFFFEBF) ++
    (rangeFrom 48 32).flatMap fun o => want ((List.range 4).all fun k => fld b o 1 / 4 ^ k % 4 != 3) o

/-- THERM (R47). -/
def thermErrs (b : List Byte) : List Nat :=
  let (w, t, u) := readTherm b
  want (decide (9000 ≤ w ∧ w ≤ 12000 ∧ w + 500 ≤ t)) 0 ++ want (decide (10000 ≤ t ∧ t ≤ 13000 ∧ t + 500 ≤ u)) 2 ++
    want (decide (11500 ≤ u ∧ u ≤ 14500)) 4

/-- SEC (R48). -/
def secErrs (b : List Byte) : List Nat := (List.range 6).flatMap (inRange b · 1 0 1) ++ inRange b 6 2 60 3600

/-! ### HUSK -/

/-- A source index names an existing item (R191, R217). -/
def srcOk (t : TopoCfg) (h : HuskAt) (k : Nat) : Bool :=
  let str (i : Nat) := t.strings.any (·.s == i)
  let sq (q : Nat) := if q < 16 then str (q / 4) else decide (q < 16 + h.nUseq)
  if k < 0x800 then decide (k < h.nCell)
  else if k < 0x900 then decide (k - 0x800 < h.nSlot)
  else if k < 0x940 then decide (k - 0x900 < h.nTmr)
  else if k < 0x960 then sq (k - 0x940)
  else if k < 0x980 then sq (k - 0x960)
  else if k < 0x990 then str ((k - 0x980) / 4)
  else if k < 0x9C0 then false
  else if k < 0xA00 then decide ((k - 0x9C0) / 4 < h.nUseq)
  else if k < 0xAE0 then t.nodes.any fun n => n.ring == (k - 0xA00) / 112 && n.pos == (k - 0xA00) % 112 / 2 + 1
  else if k < 0xAE2 then t.rings.testBit (k - 0xAE0)
  else if k = 0xB00 || k = 0xB02 || k = 0xB03 then true
  else if 0xB04 ≤ k ∧ k < 0xB20 then str (k % 4)
  else if 0xB20 ≤ k ∧ k < 0xB2C then str ((k - 0xB20) / 3)
  else if 0xB30 ≤ k ∧ k < 0xB34 then str (k - 0xB30)
  else k == 0xFFE || k == 0xFFF

/-- A MEAS selector is valid (R197, R216); a string that TOPO lacks is a matter of step 12. -/
def measOk (t : TopoCfg) (m : Nat) : Bool :=
  let i := m % 4096
  if m / 4096 = 0 then decide (i < t.nCells)
  else if m / 4096 = 9 then decide (i < 8)
  else decide (m / 4096 ≤ 0xA) && decide (i < 4)

/-- A limits entry (R216). -/
def limitOk (t : TopoCfg) (b : List Byte) (i : Nat) : Bool :=
  let o := 32 + 32 * i
  let l := readLimit b i
  if t.strings.any (·.s == i) then
    fld b o 1 == 1 && decide (l.vMin < l.vMax ∧ l.nUv ≤ l.vMin ∧ l.vMax ≤ l.nOv ∧ 10 ≤ l.grace ∧ l.grace ≤ 6000 ∧
      0 < l.iHi ∧ l.iLo < 0)
  else ((b.drop o).take 32).all (· == 0)

/-- The COMB depth of every cell after another pass (R196): a LATCH or CEL cell starts a path. -/
def depthPass (cs : List HCell) (d : List Nat) : List Nat :=
  cs.map fun c =>
    if c.mode != 0 then 0
    else 1 + ([c.a, c.b, c.c, c.d].map fun k => if k < 0x800 then d.getD k 0 else 0).foldl max 0

/-- The COMB depths after `n` passes. -/
def depths (cs : List HCell) : Nat → List Nat
  | 0 => cs.map fun _ => 0
  | n + 1 => depthPass cs (depths cs n)

/-- The steps that a program reaches from the ones listed, after `n` more passes (R217). -/
def reached (p : List HStep) : Nat → List Nat → List Nat
  | 0, r => r
  | n + 1, r => reached p n ((r ++ r.flatMap fun k => match p[k]? with
      | some e => if e.fin || e.flt then [] else [e.nextOk, e.nextTmo]
      | none => []).eraseDups)

/-- The user sequencer program at offset `o` (R217). -/
def useqErrs (t : TopoCfg) (h : HuskAt) (b : List Byte) (o : Nat) : List Nat :=
  let p := (entries o 8 16).map (readStep b)
  let r := reached p 16 [0]
  want (r.any fun k => match p[k]? with
    | some e => e.fin || e.flt
    | none => false) o ++
  (List.range 16).flatMap fun k => match p[k]? with
    | some e => want (!r.contains k || e.fin || e.flt ||
        (decide (1 ≤ e.tmo) && decide (e.tunit ≤ 3) && srcOk t h e.wait)) (o + 8 * k)
    | none => []

/-- The output binding at an offset (R204, R216, R217). -/
def outOk (t : TopoCfg) (h : HuskAt) (e : HOut) : Bool :=
  srcOk t h e.src &&
    (if e.func = 4 then e.arg == 0
     else if e.func = 6 || e.func = 7 then
       decide (e.arg < 32) && !(decide (e.arg < 16) && e.arg % 4 == 3)
     else (e.func == 1 || e.func == 2 || e.func == 3 || e.func == 5) && decide (e.arg < 4)) &&
    (if e.func = 4 then e.code == 0x0287 || decide (0x8000 ≤ e.code ∧ e.code ≤ 0x8FFF) else e.code == 0)

/-- HUSK (R194, R196, R201, R216, R217) for the image's TOPO; the failing entry is reported. -/
def huskErrs (b : List Byte) (t : TopoCfg) : List Nat :=
  let h := huskAt b
  let counts := inRange b 0 2 0 2048 ++ inRange b 2 2 0 256 ++ inRange b 4 1 0 64 ++ inRange b 5 1 0 16 ++ inRange b 6 2 1 1024
  if !counts.isEmpty then counts
  else
    let cs := (entries h.cell 12 h.nCell).map (readCell b)
    let d := depths cs 17
    ((List.range 4).flatMap fun i => want (limitOk t b i) (32 + 32 * i)) ++
      ((entries h.slot 12 h.nSlot).flatMap fun o =>
        let e := readSlot b o
        want (measOk t e.meas && decide (fld b (o + 2) 1 ≤ 1) && decide (1 ≤ e.qual ∧ e.qual ≤ 16)) o) ++
      ((entries h.tmr 4 h.nTmr).flatMap fun o =>
        let e := readTimer b o
        want (decide (1 ≤ e.count) && decide (e.mode < 3) && srcOk t h e.src) o) ++
      ((cs.zipIdx).flatMap fun ck =>
        let c := ck.1
        want (decide (c.mode < 3) && (c.mode == 0 || c.d == 0xFFE) && decide (d.getD ck.2 0 ≤ 16) &&
          [c.a, c.b, c.c, c.d].all (srcOk t h)) (h.cell + 12 * ck.2)) ++
      ((entries h.useq 128 h.nUseq).flatMap (useqErrs t h b)) ++
      (entries h.out 8 h.nOut).flatMap fun o => want (outOk t h (readOut b o)) o

/-- The length that the counts of a section give its body. -/
def sizeOf (b : List Byte) (ty nCells : Nat) : Nat :=
  if ty = 1 then topoNodeAt b (fld b 4 2)
  else if ty = 2 then 32
  else if ty = 3 then (huskAt b).fin
  else if ty = 4 then 4 + 32 * fld b 0 1
  else if ty = 5 then mapAt b + (nCells + 3) / 4 * 4
  else if ty = 6 then (tablesAt b).foldl (fun o t => o + tableLen b t) 4
  else if ty = 7 then 256 + 256 * fld b 64 1
  else if ty = 8 then 64 + 960 * fld b 22 1
  else if ty = 9 then 4 + 8 * fld b 0 2
  else if ty = 10 then 96 else if ty = 11 then 16 else 32

/-- The contents of a section, by offset in its body. -/
def contentErrs (img : List Byte) (ty : Nat) : List Nat :=
  let b := sect img ty
  let t := readTopo (sect img 1)
  if ty = 1 then topoErrs b else if ty = 2 then acqErrs b else if ty = 3 then huskErrs b t else if ty = 4 then drvErrs b
  else if ty = 5 then kprogErrs b t.nCells else if ty = 6 then ktabErrs b
  else if ty = 7 then estErrs b (t.strings.map (·.s)) else if ty = 8 then winErrs b else if ty = 9 then recErrs b
  else if ty = 10 then hostErrs b else if ty = 11 then thermErrs b else secErrs b

/-- Step 11 on one section: a body whose length does not fit its counts is reported at SIZE of its directory entry. -/
def sectFail (img : List Byte) (ty : Nat) : Option ImgFail :=
  let size := match sectIx img ty with
    | some i => want (entSize img i == sizeOf (sect img ty) ty (readTopo (sect img 1)).nCells) (entAt i + 8)
    | none => []
  failAt (0x10 + ty - 1) ty (size ++ (contentErrs img ty).map (· + bodyAt img ty))

/-- Step 11: the sections in type order. -/
def contentFail (img : List Byte) : Option ImgFail := (present img).findSome? (sectFail img)

/-! ## Step 12: references between sections -/

/-- The string that an output binding names. -/
def outString (e : HOut) : Option Nat :=
  if e.func = 1 || e.func = 2 || e.func = 3 || e.func = 5 then some e.arg
  else if (e.func = 6 || e.func = 7) && decide (e.arg < 16) then some (e.arg / 4) else none

/-- The references of a section that name nothing, by offset in its body (R49, R217, R265). DRV and HUSK bind a string by
their string and limits entries (Assumption 28). -/
def refErrs (img : List Byte) (ty : Nat) : List Nat :=
  let b := sect img ty
  let ids := (readTopo (sect img 1)).strings.map (·.s)
  let h := huskAt (sect img 3)
  if ty = 1 then
    (ids.zipIdx).flatMap fun ei =>
      want (((readDrv (sect img 4)).any (·.s == ei.1)) && fld (sect img 3) (32 + 32 * ei.1) 1 == 1) (16 + 16 * ei.2)
  else if ty = 3 then
    ((entries h.slot 12 h.nSlot).flatMap fun o =>
      let m := fld b o 2
      want (m / 4096 == 0 || m / 4096 == 9 || ids.contains (m % 4096)) o) ++
    (entries h.out 8 h.nOut).flatMap fun o =>
      let e := readOut b o
      want (match outString e with
        | some i => ids.contains i
        | none => true) (o + 3) ++
      want (!(e.func == 4 && decide (0x8000 ≤ e.code)) || (readRec (sect img 9)).ents.any (·.code == e.code)) (o + 4)
  else if ty = 4 then (List.range (fld b 0 1)).flatMap fun i => want (ids.contains (fld b (4 + 32 * i) 1)) (4 + 32 * i)
  else if ty = 5 then
    let have' := (tablesAt (sect img 6)).map fun o => fld (sect img 6) o 2
    (progsAt b).flatMap fun o => (List.range (fld b (o + 2) 1)).flatMap fun j =>
      want (hasSect img 6 && have'.contains (fld b (o + 24 + 2 * j) 2)) (o + 24 + 2 * j)
  else if ty = 6 then want (hasSect img 5) 0
  else []

/-- Step 12. -/
def refFail (img : List Byte) : Option ImgFail :=
  lowestOf img fun ty => failAt 0x1C ty ((refErrs img ty).map (· + bodyAt img ty))

/-! ## The order of validation -/

/-- Slot `IMG_A` or `IMG_B`. -/
def slotOf (s : State) (x : ImgSrc) : Slot := if x = .slotB then s.img.slotB else s.img.slotA

/-- Put a slot. -/
def setSlot (x : ImgSrc) (v : Slot) (s : State) : State :=
  if x = .slotB then { s with img.slotB := v } else { s with img.slotA := v }

/-- SEQ is newer than the active image's and than that of every valid slot (R49 step 6). -/
def seqNewer (s : State) (b : List Byte) : Bool :=
  serNewer 32 (imgSeq b) s.cfg.seq.toNat &&
    [s.img.slotA, s.img.slotB].all fun x => !x.valid || serNewer 32 (imgSeq b) (imgSeq x.bytes)

/-- Steps 4 to 6: CRC, signature and sequence number. -/
def trustFail (s : State) (b : List Byte) : Option ImgFail :=
  let key := s.nv.keys.image.val
  failAt 4 0 (want ((imgCrc b).toNat == fld b 32 4) 32)
  <|> (if imgSigned b then failAt 5 0 (want (!key.isEmpty && imgHmac key b == (b.drop 64).take 32) 64)
       else failAt 6 0 (want (!s.cfg.sec.reqHmac) 20))
  <|> failAt 7 0 (want (seqNewer s b) 16)

/-- Steps 1 to 12 on an image of `len` bytes (R49). -/
def imgCheck (s : State) (b : List Byte) (len : Nat) : Option ImgFail :=
  headFail b len <|> trustFail s b <|> dirFail b <|> presentFail b <|> crcFail b <|> resvFail b <|> contentFail b <|> refFail b

/-! ## Changed sections (R55) -/

/-- The base that section `ty` of a new image is compared with: that of the active image, or, while Sprout runs, the
byte form of the Sprout section for the topology that was in force when IMG_COMMIT was received. -/
def baseSect (s : State) (c : Commit) (ty : Nat) : Option (List Byte) :=
  if s.img.active = .sprout then sproutSect s.sys.chem c.topo c.basis ty
  else
    let b := (slotOf s s.img.active).bytes
    if hasSect b ty then some (sect b ty) else none

/-- Section `ty` of a new image. -/
def newSect (b : List Byte) (ty : Nat) : Option (List Byte) := if hasSect b ty then some (sect b ty) else none

/-- Section `ty` is changed (R55). -/
def changed (s : State) (c : Commit) (b : List Byte) (ty : Nat) : Bool := newSect b ty != baseSect s c ty

/-- The EST limit block is changed (R55). -/
def limChanged (s : State) (c : Commit) (b : List Byte) : Bool :=
  (newSect b 7).map (·.take 64) != (baseSect s c 7).map (·.take 64)

/-- The changed section types of a new image, 0 for the EST limit block (R55). -/
def sectChanges (s : State) (c : Commit) (b : List Byte) : List Nat :=
  (if limChanged s c b then [0] else []) ++ (rangeFrom 1 12).filter (changed s c b)

/-- The commit of the image needs presence (R56). -/
def needsPresence (s : State) (c : Commit) (b : List Byte) : Bool := [0, 3, 4, 11, 12].any (sectChanges s c b).contains

/-- The image is hot (R58). -/
def isHot (s : State) (c : Commit) (b : List Byte) : Bool := [1, 2, 3, 4, 5, 6, 11, 12].all fun ty => !(sectChanges s c b).contains ty

end Sys2Proof.Machine
end

