-- ==== Sys2Proof/Machine/Kernel.lean ====
section
/-! DEFINITION. Kernel lanes (chapter 9): frame inputs, the start of a step, every instruction, and the end of a step.
An instruction command runs on a lane whose program holds that instruction next. -/

namespace Sys2Proof.Machine

/-! ## Frame inputs and predicates -/

/-- Frame input `i` of cell `c` (R255), as captured at the cut-off; an index not listed cannot occur in a program. -/
def frameInput (s : State) (c i : Nat) : Word :=
  let x := cellAcq s c
  let k := kCell s c
  let g := (groupOf s c).getD 0
  let st := (cellString s c).getD 0
  let z := (wCell s c).cap
  let ohm (w : BitVec 16) := ofRat (rat16Of w / 1000)
  if i = 0 then ofRat ((x.v : Rat) / 10000)
  else if i = 1 then ofRat ((x.iS : Rat) / 1000)
  else if i = 2 then ofRat ((x.iMean : Rat) / 1000)
  else if i = 3 then ofRat ((x.tLoc : Rat) / 100)
  else if i = 4 then ofRat ((x.tNode : Rat) / 100)
  else if i = 5 then ofRat ((k.inDt : Rat) / 1000000000)
  else if i = 6 then ofRat ((k.inQs : Rat) / 1000000000000)
  else if i = 7 then ofRat ((capNom s st : Rat) / 1000)
  else if i = 8 then ofRat ((vPackOf s st : Rat) / 20)
  else if i = 9 then ofRat (c : Rat)
  else if i = 10 then ofRat (st : Rat)
  else if i = 11 then ofRat (s.ledg.live.era : Rat)
  else if i = 16 then ohm z.rs
  else if i = 17 then ohm z.ra
  else if i = 18 then of16 z.ta.toNat
  else if i = 19 then ohm z.rb
  else if i = 20 then of16 z.tb.toNat
  else if i = 21 then ofRat (z.conf : Rat)
  else (s.cfg.est.pset.getD g []).getD (i - 64) 0

/-- The predicates at the start of a step of cell `c` (R254); `lr`: a live reset applies. -/
def predsAt (s : State) (c : Nat) (lr : Bool) : BitVec 8 :=
  BitVec.ofNat 8 (b2n (cellAcq s c).aggHi.isSome + 2 * b2n (!acqStat s c 11) + 4 * b2n (!acqStat s c 10) +
    8 * b2n (kCell s c).initWord + 16 * b2n (acqStat s c 4) + 32 * b2n lr +
    64 * b2n (acqStat s c 1 || acqStat s c 2))

/-- What the cut-off captures for cell `c` (R255): DT and QS since the last committed step, `q` the charge between the
last two sample instants in mA ns. -/
def krnCell (per : Nat) (q : Int) (tns : Nat) (k : KCell) : KCell :=
  let qs := if k.lastTns.isSome then k.qs + q else q
  { k with qs := qs, inQs := qs
           inDt := (match k.lastTns with
             | some t => tns - t
             | none => per)
           started := false, rejNow := false, pend := none }

/-- The kernel's part of the cut-off (R252, R255, R369): inputs are captured, every lane's next step takes a live reset,
and a shadow run that is not halted takes the frame. -/
def krnCutOff (s : State) : State :=
  let s1 := (cells s).foldl (fun s c =>
    modKCell s c (krnCell (period s) (curStr s ((cellString s c).getD 0)).qS (cellAcq s c).sampleTns)) s
  let d := s1.pairs.dbg
  let go := d.state == .running && (laneOf s1 (2 * d.pair)).cell.isNone
  { s1 with
    krn.lanes := (List.range 32).foldl (fun t l =>
      if shadowPair s1 (l / 2) && !go then t else Tab.set {} t l { Tab.get {} t l with first := true }) s1.krn.lanes
    pairs.dbg.jNext := if go then 0 else d.jNext }

/-! ## The start of a step -/

/-- The next cell of main lane or unit `l`: a step that runs again, then the next assigned cell in ascending order
(R252), or the next shadow cell (R369). -/
def nextCell (s : State) (l : Nat) : Option Nat :=
  let q := l / 2
  if shadowPair s q then
    ((rangeFrom s.pairs.dbg.jNext (s.pairs.dbg.count - s.pairs.dbg.jNext)).map (· + s.pairs.dbg.first)).find? fun c =>
      (progOf s c).isSome
  else match (laneOf s l).again with
    | some c => some c
    | none => match (pairOf s q).redo with
      | c :: _ => some c
      | [] => (assigned s l).find? fun c => steppable s c && !(kCell s c).started

/-- Lanes may start live steps: a closed frame has not committed, and no hand-over for it is outstanding. -/
def stepsOpen (s : State) : Bool := s.sys.run.kernel && s.sys.commitDue && !handBefore s s.sys.frmCut

/-- A step of cell `c` begins on lane `l` (R253, R254). -/
def beginStep (l c g : Nat) (lr : Bool) (s : State) : State :=
  modLane l (fun x =>
    let f := if lr then [] else liveRegs (liveOf s g) x.f
    { x with f := f, entry := f, p := predsAt s c lr, pc := 0, skip := 0, cell := some c, group := some g
             first := false, rejected := false, writes := [], lr := lr, done := 0 }) s

/-- A live reset applies to the next step of lane `l` with group `g` (R253). -/
def liveResetOf (x : Lane) (g : Nat) : Bool := x.first || x.rejected || x.group != some g

/-- A main lane starts its next step (R351). -/
def startMain (q c : Nat) (s : State) : State :=
  let l := 2 * q
  let p := pairOf s q
  let g := (groupOf s c).getD 0
  let lr := if p.restored then p.liveReset else liveResetOf (laneOf s l) g
  let s1 := beginStep l c g lr s
  let step : PStep := { ord := p.nextOrd, cell := c, group := g, lr := lr, entry := (laneOf s1 l).entry }
  let s2 := modPair q (fun p => { p with
    steps := p.steps ++ [step], nextOrd := p.nextOrd + 1, redo := p.redo.drop 1, restored := false }) s1
  if shadowPair s q then
    let s3 := { s2 with pairs.dbg.jNext := c - s.pairs.dbg.first + 1 }
    if s3.pairs.dbg.haltReq then dbgHaltNow s3 else s3
  else modKCell s2 c fun k => { k with started := true }

/-- A lane of a split pair starts its next step (R361); a discarded step runs again from its entry values. -/
def startSplit (l c : Nat) (s : State) : State :=
  let x := laneOf s l
  let g := (groupOf s c).getD 0
  let re := x.again.isSome
  let s1 := beginStep l c g (if re then x.lr else liveResetOf x g) s
  modKCell (modLane l (fun x => { x with again := none, isRerun := re }) s1) c fun k => { k with started := true }

/-- The step that the checker of pair `q` starts next, when its time has come: the main lane has started two more, has
no more to start, or is halted by the debugger (R349, R370). -/
def checkerNext (s : State) (q : Nat) : Option PStep :=
  let p := pairOf s q
  match p.steps with
  | x :: rest =>
    let m := laneOf s (2 * q)
    let free := decide (rest.length ≥ 2) || m.halted || (m.cell.isNone && (nextCell s (2 * q)).isNone)
    if x.entryC.isNone && free then some x else none
  | [] => none

/-- The checker of pair `q` starts step `x`. -/
def startChecker (q : Nat) (x : PStep) (s : State) : State :=
  let l := 2 * q + 1
  let s1 := beginStep l x.cell x.group x.lr s
  modPair q (fun p => { p with steps := p.steps.map fun y =>
    if y.ord = x.ord then { y with entryC := some (laneOf s1 l).entry } else y }) s1

/-- KERNEL_STEP_START (R253): lane `l` starts its next step. `bad`: a program word of the step has an uncorrectable
error (R250). -/
def execKernelStepStart (l : Nat) (bad : Bool) (s : State) : Host.Outcome State Fault Refusal :=
  let q := l / 2
  let p := pairOf s q
  let x := laneOf s l
  let ecc (c : Nat) (s : State) : State := if bad then eccEvent l c s else s
  .next (settle (settleLevel (
    if l ≥ 32 ∨ x.cell.isSome ∨ x.halted ∨ p.quar then s
    else if p.split && !shadowPair s q then
      if stepsOpen s && (units s).contains l then
        match nextCell s l with
        | some c => ecc c (startSplit l c s)
        | none => s
      else s
    else if l % 2 = 1 then
      match checkerNext s q with
      | some y => ecc y.cell (startChecker q y s)
      | none => s
    else if (if shadowPair s q then s.sys.run.kernel else stepsOpen s) && decide (p.steps.length < 3) then
      match nextCell s l with
      | some c => ecc c (startMain q c s)
      | none => s
    else s)))

/-! ## Instruction words -/

/-- Register `i` of a lane: F0 reads +0 (R247). -/
def freg (x : Lane) (i : BitVec 5) : Word := if i = 0 then 0 else Tab.get 0 x.f i.toNat

/-- Write register `i` of a lane: a write to F0 is discarded (R247, R259). -/
def setFreg (i : BitVec 5) (v : Word) (x : Lane) : Lane := if i = 0 then x else { x with f := Tab.set 0 x.f i.toNat v }

/-- Write predicate `i` of a lane. -/
def setPred (i : BitVec 3) (v : Bool) (x : Lane) : Lane :=
  { x with p := if v then x.p ||| BitVec.ofNat 8 (2 ^ i.toNat) else x.p &&& ~~~ BitVec.ofNat 8 (2 ^ i.toNat) }

/-- Predicate `i` of a lane. -/
def pred (x : Lane) (i : BitVec 3) : Bool := x.p.getLsbD i.toNat

/-- The checker of pair `q` may run its next instruction: the main lane has passed it (R349, R370). -/
def checkerMay (s : State) (q : Nat) : Bool :=
  match (pairOf s q).steps with
  | x :: rest => x.ended.isSome || !rest.isEmpty || decide ((laneOf s (2 * q)).pc > (laneOf s (2 * q + 1)).pc)
  | [] => false

/-- The cell of lane `l` when the lane's next instruction is the word `w` and nothing holds it. -/
def laneCell (s : State) (l : Nat) (w : Word) : Option Nat :=
  let x := laneOf s l
  let q := l / 2
  match x.cell with
  | none => none
  | some c =>
    let ready := decide (l < 32) && !x.halted && ((pairOf s q).split && !shadowPair s q || l % 2 == 0 || checkerMay s q)
    match progOf s c with
    | some p => if ready && p.words[x.pc]? == some w then some c else none
    | none => none

/-- Lane `l` executes the instruction of word `w` as `f` does, or skips it (R259 SKIP). `f` takes the cell and the lane,
its index already past the instruction. -/
def withInstr (l : Nat) (w : Word) (f : Nat → Lane → State → State) (s0 : State) : State :=
  let s := if l % 2 = 1 && shadowPair s0 (l / 2) && (laneOf s0 l).cell.isSome then replayApply (l / 2) 256 s0 else s0
  match laneCell s l w with
  | none => s
  | some c =>
    let x := laneOf s l
    let y := { x with pc := x.pc + 1 }
    dbgFollow (if x.skip > 0 then setLane l { y with skip := x.skip - 1 } s else f c y s)

/-- An instruction that changes the lane alone. -/
def laneInstr (l : Nat) (w : Word) (f : Lane → Lane) (s : State) : Host.Outcome State Fault Refusal :=
  .next (withInstr l w (fun _ x s => setLane l (f x) s) s)

/-! ## Arithmetic -/

/-- FADD (R259): FD = FA + FB. -/
def execFadd (l : Nat) (d a b : BitVec 5) (s : State) : Host.Outcome State Fault Refusal :=
  laneInstr l (encR3 1 d a b 0) (fun x => setFreg d (fadd (freg x a) (freg x b)) x) s

/-- FSUB (R259): FD = FA - FB. -/
def execFsub (l : Nat) (d a b : BitVec 5) (s : State) : Host.Outcome State Fault Refusal :=
  laneInstr l (encR3 2 d a b 0) (fun x => setFreg d (fsub (freg x a) (freg x b)) x) s

/-- FMUL (R259): FD = FA x FB. -/
def execFmul (l : Nat) (d a b : BitVec 5) (s : State) : Host.Outcome State Fault Refusal :=
  laneInstr l (encR3 3 d a b 0) (fun x => setFreg d (fmul (freg x a) (freg x b)) x) s

/-- FMA (R259): FD = FA x FB + FC with one rounding. -/
def execFma (l : Nat) (d a b c : BitVec 5) (s : State) : Host.Outcome State Fault Refusal :=
  laneInstr l (encR3 4 d a b c) (fun x => setFreg d (ffma (freg x a) (freg x b) (freg x c)) x) s

/-- FDIV (R259): FD = FA / FB. -/
def execFdiv (l : Nat) (d a b : BitVec 5) (s : State) : Host.Outcome State Fault Refusal :=
  laneInstr l (encR3 5 d a b 0) (fun x => setFreg d (fdiv (freg x a) (freg x b)) x) s

/-- FSQRT (R259): FD is the square root of FA. -/
def execFsqrt (l : Nat) (d a : BitVec 5) (s : State) : Host.Outcome State Fault Refusal :=
  laneInstr l (encR3 6 d a 0 0) (fun x => setFreg d (fsqrt (freg x a)) x) s

/-- FEXP (R259): FD is e to the power FA. -/
def execFexp (l : Nat) (d a : BitVec 5) (s : State) : Host.Outcome State Fault Refusal :=
  laneInstr l (encR3 7 d a 0 0) (fun x => setFreg d (fexp (freg x a)) x) s

/-- FMIN (R259): FD is the smaller of FA and FB. -/
def execFmin (l : Nat) (d a b : BitVec 5) (s : State) : Host.Outcome State Fault Refusal :=
  laneInstr l (encR3 8 d a b 0) (fun x => setFreg d (fmin (freg x a) (freg x b)) x) s

/-- FMAX (R259): FD is the larger of FA and FB. -/
def execFmax (l : Nat) (d a b : BitVec 5) (s : State) : Host.Outcome State Fault Refusal :=
  laneInstr l (encR3 9 d a b 0) (fun x => setFreg d (fmax (freg x a) (freg x b)) x) s

/-- FABS (R259): FD is FA with its sign cleared. -/
def execFabs (l : Nat) (d a : BitVec 5) (s : State) : Host.Outcome State Fault Refusal :=
  laneInstr l (encR3 10 d a 0 0) (fun x => setFreg d (fabs (freg x a)) x) s

/-- CLAMP (R259): FD = FMIN(FMAX(FA, FB), FC). -/
def execClamp (l : Nat) (d a b c : BitVec 5) (s : State) : Host.Outcome State Fault Refusal :=
  laneInstr l (encR3 11 d a b c) (fun x => setFreg d (fclamp (freg x a) (freg x b) (freg x c)) x) s

/-- CMP (R259): Pd = FA COND FB. -/
def execCmp (l : Nat) (pd : BitVec 3) (a b : BitVec 5) (cond : BitVec 3) (s : State) :
    Host.Outcome State Fault Refusal :=
  laneInstr l (encWord 12 pd.toNat a.toNat b.toNat (at' 2 cond.toNat) 0)
    (fun x => setPred pd (fcmp cond.toNat (freg x a) (freg x b)) x) s

/-- SEL (R259): FD = FA if Pn is 1, else FB. -/
def execSel (l : Nat) (d a b : BitVec 5) (pn : BitVec 3) (s : State) : Host.Outcome State Fault Refusal :=
  laneInstr l (encWord 13 d.toNat a.toNat b.toNat pn.toNat 0)
    (fun x => setFreg d (if pred x pn then freg x a else freg x b) x) s

/-- The value that MOVI gives a register that holds `old` (R259). -/
def moviVal (kind imm : Nat) (old : Word) : Word :=
  if kind = 0 then of16 imm
  else if kind = 1 then BitVec.ofNat 32 (at' 16 imm)
  else BitVec.ofNat 32 (at' 16 (bits old 31 16) + imm)

/-- MOVI (R259): FD is loaded from the immediate by KIND. -/
def execMovi (l : Nat) (d : BitVec 5) (kind : BitVec 2) (imm : BitVec 16) (s : State) :
    Host.Outcome State Fault Refusal :=
  laneInstr l (encWord 14 d.toNat kind.toNat 0 0 imm.toNat)
    (fun x => setFreg d (moviVal kind.toNat imm.toNat (freg x d)) x) s

/-- CVT (R259): FD is FA converted by MODE. -/
def execCvt (l : Nat) (d a : BitVec 5) (mode : BitVec 3) (s : State) : Host.Outcome State Fault Refusal :=
  laneInstr l (encWord 15 d.toNat a.toNat 0 (at' 2 mode.toNat) 0) (fun x => setFreg d (fcvt mode.toNat (freg x a)) x) s

/-! ## Inputs, state words and tables -/

/-- LDI (R259): FD = frame input IDX. -/
def execLdi (l : Nat) (d : BitVec 5) (idx : BitVec 8) (s : State) : Host.Outcome State Fault Refusal :=
  .next (withInstr l (encWord 16 d.toNat 0 0 0 idx.toNat)
    (fun c x s => setLane l (setFreg d (frameInput s c idx.toNat) x) s) s)

/-- Word `w` of the state block as LDS reads it (R259, R368): this step's latest STS, or the committed value, or the
shadow block's. -/
def stateWord (s : State) (l c w : Nat) (x : Lane) : Word :=
  match (x.writes.filter fun k => !k.out && k.idx == w).getLast? with
  | some k => k.val
  | none => if shadowPair s (l / 2) then Tab.get 0 s.pairs.dbg.sw (64 * (c - s.pairs.dbg.first) + w)
            else Tab.get 0 (kCell s c).w w

/-- LDS (R259): FD = word W of the cell's state block. `bad`: the word has an uncorrectable error, a committed mismatch
of the pair (R250). -/
def execLds (l : Nat) (d : BitVec 5) (w : BitVec 6) (bad : Bool) (s : State) : Host.Outcome State Fault Refusal :=
  .next (settle (withInstr l (encWord 17 d.toNat 0 0 0 w.toNat) (fun c x s =>
    let s1 := setLane l (setFreg d (stateWord s l c w.toNat x) x) s
    if bad then eccEvent l c s1 else s1) s))

/-- A committed write of lane `l` (R261, R350, R352): the main lane of a pair queues it for its checker, the checker
compares it, a lane of a split pair keeps it. -/
def commitWrite (l : Nat) (w : KWrite) (cmp : Cmp) (_ : Nat) (x : Lane) (s : State) : State :=
  let q := l / 2
  let s1 := setLane l { x with writes := x.writes ++ [w], done := x.done + 1 } s
  if (pairOf s q).split && !shadowPair s q then s1
  else if l % 2 = 1 then compareWrite q x.done w cmp s1
  else match (pairOf s q).steps.getLast? with
    | some st => modPair q (fun p => { p with queue := p.queue ++ [{ step := st.ord, w := w }] }) s1
    | none => s1

/-- STS (R259): word W of the state block = FA, a committed write. `cmp`: how the comparator behaves at a checker's
write. -/
def execSts (l : Nat) (a : BitVec 5) (w : BitVec 6) (cmp : Cmp) (s : State) : Host.Outcome State Fault Refusal :=
  .next (settle (settleLevel (withInstr l (encWord 18 0 a.toNat 0 0 w.toNat) (fun c x s =>
    commitWrite l { out := false, idx := w.toNat, val := freg x a } cmp c x s) s)))

/-- OUT (R259): output slot J = FA, a committed write. -/
def execOut (l : Nat) (a : BitVec 5) (j : BitVec 4) (cmp : Cmp) (s : State) : Host.Outcome State Fault Refusal :=
  .next (settle (settleLevel (withInstr l (encWord 20 0 a.toNat 0 0 j.toNat) (fun c x s =>
    commitWrite l { out := true, idx := j.toNat, val := freg x a } cmp c x s) s)))

/-- Bilinear interpolation in a table (R260), each operation one binary32 operation. -/
def interp (t : KTable) (x y : Word) : Word :=
  if isNaN x || isNaN y then qNaN
  else
    let n (k : Nat) : Word := ofRat (k : Rat)
    let u := fmin (fmax (fdiv (fsub x t.x0) t.dx) 0) (n (t.nx - 1))
    let w := fmin (fmax (fdiv (fsub y t.y0) t.dy) 0) (n (t.ny - 1))
    let i := min (toRat (fcvt 5 u)).floor.toNat (t.nx - 2)
    let j := min (toRat (fcvt 5 w)).floor.toNat (t.ny - 2)
    let fx := fsub u (n i)
    let fy := fsub w (n j)
    let v (i j : Nat) : Word := t.vals.getD (j * t.nx + i) 0
    let r0 := ffma fx (fsub (v (i + 1) j) (v i j)) (v i j)
    let r1 := ffma fx (fsub (v (i + 1) (j + 1)) (v i (j + 1))) (v i (j + 1))
    ffma fy (fsub r1 r0) r0

/-- Local table `t` of the program of cell `c` (R260). -/
def localTable (s : State) (c t : Nat) : Option KTable :=
  (progOf s c).bind fun p => (p.tabs[t]?).bind fun id => s.cfg.tabs.find? (·.id == id)

/-- TBL2 (R259, R260): FD is the interpolation of local table T at (FA, FB). `bad`: the copy that the lane reads has an
uncorrectable error there: NaN, KRN_TAB_ECC and a reload of the copy (R249); in a split pair the step is discarded
(R361). -/
def execTbl2 (l : Nat) (d a b : BitVec 5) (t : BitVec 4) (bad : Bool) (s : State) : Host.Outcome State Fault Refusal :=
  .next (settle (settleLevel (withInstr l (encWord 19 d.toNat a.toNat b.toNat t.toNat 0) (fun c x s =>
    let tab := localTable s c t.toNat
    if bad then
      let id := (tab.map (·.id)).getD 0
      let s1 := emit 0x0503 (le 4 (l % 2) ++ le 2 id ++ le 2 0) s
      if (pairOf s (l / 2)).split && !shadowPair s (l / 2) then eccEvent l c s1
      else setLane l (setFreg d qNaN x) s1
    else setLane l (setFreg d (match tab with
      | some tb => interp tb (freg x a) (freg x b)
      | none => qNaN) x) s) s)))

/-- SKIP (R259): the next N instructions do not execute when ALWAYS is set or Pn equals SENSE. -/
def execSkip (l : Nat) (always sense : Bool) (pn : BitVec 3) (n : BitVec 10) (s : State) :
    Host.Outcome State Fault Refusal :=
  laneInstr l (encWord 21 (at' 4 (b2n always) + at' 3 (b2n sense) + pn.toNat) 0 0 0 n.toNat)
    (fun x => if always || pred x pn == sense then { x with skip := n.toNat } else x) s

/-! ## The end of a step -/

/-- The longest step of the frame takes the time measured (R274). -/
def stepTime (l ns : Nat) (s : State) : State :=
  if ns > s.krn.curMax.2 then { s with krn.curMax := (l, sat 16 ns) } else s

/-- A main lane ends its step (R352, R355): every 4,096th step, and the last one before a hand-over, takes a scrub
compare. -/
def endMain (q : Nat) (x : Lane) (s : State) : State :=
  let l := 2 * q
  let s1 := setLane l { x with cell := none, rejected := setBad x.writes } s
  match (pairOf s q).steps.getLast? with
  | some st =>
    let scrub := (st.ord + 1) % 4096 == 0 || (lastBefore s && (nextCell s1 l).isNone)
    modPair q (fun p => { p with steps := p.steps.map fun y =>
      if y.ord = st.ord then { y with ended := some x.writes.length, scrub := if scrub then some x.f else none } else y }) s1
  | none => s1

/-- END (R259): the step of lane `l` ends after `ns` measured nanoseconds and hands over its committed writes. -/
def execEnd (l ns : Nat) (cmp : Cmp) (s : State) : Host.Outcome State Fault Refusal :=
  .next (settle (settleLevel (withInstr l 0 (fun c x s =>
    let q := l / 2
    if (pairOf s q).split && !shadowPair s q then
      releaseSet l c true x.writes
        (setLane l { x with cell := none, rejected := setBad x.writes, isRerun := false } (stepTime l ns s))
    else if l % 2 = 1 then
      verifyStep q x.writes x.f cmp (setLane l { x with cell := none, rejected := setBad x.writes } (stepTime l ns s))
    else endMain q x (stepTime l ns s)) s)))

/-- The instruction that a word spells, as the debugger executes it on lane `l` (R257, R258, R370). -/
def runWord (l : Nat) (w : Word) (s : State) : Host.Outcome State Fault Refusal :=
  let d : BitVec 5 := BitVec.ofNat 5 (bits w 25 21)
  let a : BitVec 5 := BitVec.ofNat 5 (bits w 20 16)
  let b : BitVec 5 := BitVec.ofNat 5 (bits w 15 11)
  let c : BitVec 5 := BitVec.ofNat 5 (bits w 10 6)
  let n3 (hi lo : Nat) : BitVec 3 := BitVec.ofNat 3 (bits w hi lo)
  match bits w 31 26 with
  | 0 => execEnd l 0 .good s
  | 1 => execFadd l d a b s
  | 2 => execFsub l d a b s
  | 3 => execFmul l d a b s
  | 4 => execFma l d a b c s
  | 5 => execFdiv l d a b s
  | 6 => execFsqrt l d a s
  | 7 => execFexp l d a s
  | 8 => execFmin l d a b s
  | 9 => execFmax l d a b s
  | 10 => execFabs l d a s
  | 11 => execClamp l d a b c s
  | 12 => execCmp l (n3 23 21) a b (n3 10 8) s
  | 13 => execSel l d a b (n3 8 6) s
  | 14 => execMovi l d (BitVec.ofNat 2 (bits w 17 16)) (BitVec.ofNat 16 (bits w 15 0)) s
  | 15 => execCvt l d a (n3 10 8) s
  | 16 => execLdi l d (BitVec.ofNat 8 (bits w 7 0)) s
  | 17 => execLds l d (BitVec.ofNat 6 (bits w 5 0)) false s
  | 18 => execSts l a (BitVec.ofNat 6 (bits w 5 0)) .good s
  | 19 => execTbl2 l d a b (BitVec.ofNat 4 (bits w 9 6)) false s
  | 20 => execOut l a (BitVec.ofNat 4 (bits w 3 0)) .good s
  | 21 => execSkip l (w.getLsbD 25) (w.getLsbD 24) (n3 23 21) (BitVec.ofNat 10 (bits w 9 0)) s
  | _ => .next s

/-- The next instruction of lane `l`, or the start of its next cell step. -/
def dbgRun (l : Nat) (s : State) : Host.Outcome State Fault Refusal :=
  match (laneOf s l).cell with
  | some c => match (progOf s c).bind fun p => p.words[(laneOf s l).pc]? with
    | some w => runWord l w s
    | none => .next s
  | none => execKernelStepStart l false s

/-- DBG_CTRL.STEP (R370, R379): the halted main lane executes one instruction and halts again; between two steps it
starts the next one. -/
def dbgStep (s : State) : State :=
  let l := 2 * s.pairs.dbg.pair
  if s.pairs.dbg.state != .halted then s
  else
    let free := modLane l (fun x => { x with halted := false })
      (modLane (l + 1) (fun x => { x with halted := false }) { s with pairs.dbg.chkAt := false })
    match dbgRun l free with
    | .next s1 => dbgFollow (modLane l (fun x => { x with halted := true }) s1)
    | _ => s

/-! ## The commit point -/

/-- A verified write set reaches the state block and the output slots of its cell (R261, R262). -/
def applyWrites (ws : List KWrite) (k : KCell) : KCell :=
  ws.foldl (fun k w =>
    if w.out then { k with out := Tab.set 0 k.out w.idx w.val, slotOk := k.slotOk ||| BitVec.ofNat 16 (2 ^ w.idx) }
    else { k with w := Tab.set 0 k.w w.idx w.val }) k

/-- The commit of one cell (R16, R262, R636): the new record, and whether the cell is LATE. -/
def commitCell (s : State) (live : List Nat) (c : Nat) : KCell × Bool :=
  let k := kCell s c
  let run := steppable s c && live.contains c
  let idle := min 127 (k.idle + 1)
  match k.pend with
  | some ws =>
    let k1 := applyWrites ws k
    ({ k1 with wPub := k1.w, outPub := k1.out, outFrm := s.sys.frmCut
               outStat := BitVec.ofNat 32 (16 + 8 * b2n k.uncheckedStep), pend := none
               lastTns := some (cellAcq s c).sampleTns, qs := 0, idle := 0
               initWord := false, init := false, recStep := true }, false)
  | none =>
    let k1 := { k with wPub := k.w, outPub := k.out, idle := idle }
    if !run then ({ k1 with outStat := 1 }, false)
    else if k.rejNow then ({ k1 with outStat := 4 }, false)
    else ({ k1 with outStat := 2, initWord := k.initWord && !k.started, init := k.init && !k.started }, true)

/-- The cells that some unit carries. -/
def carried (s : State) : List Nat := s.pairs.assign.flatMap (·.2)

/-- An UNVERIFIED pair runs as split on lane 2q alone from the next boundary on (R354). -/
def unverSplit (s : State) : State :=
  (List.range 16).foldl (fun s q =>
    let p := pairOf s q
    if p.unver && !p.split then modPair q (fun p => { p with split := true, oneLane := true }) (pairClear q s) else s) s

/-- The kernel's part of the commit point (R14, R16, R262, R274): verified steps commit, the others are abandoned and
LATE. A cell that stays assigned while no lane runs is LATE too, and counts, whether the cluster stands or only its lane
(R16 asks no reason; DESIGN CHOICE, assumption 73). -/
def krnCommit (s : State) : State :=
  let live := carried s
  let r := (cells s).map fun c => (c, commitCell s live c)
  let late := (r.filter fun x => x.2.2).map (·.1)
  let s1 := r.foldl (fun s x => { s with krn.cells := Tab.set {} s.krn.cells x.1 x.2.1 }) s
  let s2 := (List.range 16).foldl (fun s q => if shadowPair s q then s else pairClear q s) s1
  { s2 with
    sys.lateCnt := sat 32 (s2.sys.lateCnt + late.length)
    krn.stepped := (r.filter fun x => x.2.1.outStat.getLsbD 4).length
    krn.maxLane := s2.krn.curMax.1
    krn.maxNs := s2.krn.curMax.2
    krn.curMax := (0, 0) }

end Sys2Proof.Machine
end

