-- ==== Sys2Proof/Machine/Sec.lean ====
section
/-! DEFINITION. Presence and trust (chapter 18): presence windows, the seal loop, keys, attestation and pod adoption,
and the meanings of their events. -/

namespace Sys2Proof.Machine

/-! ## Presence windows -/

/-- A window opens or restarts (R520, R521, R522): PRES_OPEN carries its length in seconds and its source, 1 the button
and 2 the strap. -/
def presStart (src len : Nat) (s : State) : State :=
  let e := some (s.time.tns + len * nsPerSec)
  emit 0x0A80 (le 4 len ++ le 1 src ++ le 3 0)
    (if src = 1 then { s with sec.btn := e } else { s with sec.strap := e })

/-- Both windows are closed. -/
def presNone (s : State) : Bool := s.sec.btn.isNone && s.sec.strap.isNone

/-- PRES_BTN_PRESS (R520): three samples 1 ms apart, `true` for pressed; three equal ones qualify the press. -/
def execPresBtnPress (a b c : Bool) (s : State) : Host.Outcome State Fault Refusal :=
  .next (if a && b && c && !s.pins.btn then
      { s with
        pins.btn := true
        sec.relAt := none
        sec.pressAt := if s.sys.run.trust && !s.sec.ignore then some s.time.tns else none }
    else s)

/-- What a qualified release after a press of `d` nanoseconds does (R520). -/
def presRelease (d : Nat) (s : State) : State :=
  if 500000000 ≤ d ∧ d ≤ 5 * nsPerSec then presStart 1 120 s else s

/-- PRES_BTN_RELEASE (R520): three samples 1 ms apart, `false` for released. -/
def execPresBtnRelease (a b c : Bool) (s : State) : Host.Outcome State Fault Refusal :=
  .next (if !a && !b && !c && s.pins.btn then
      let s1 := { s with
        pins.btn := false
        sec.pressAt := none
        sec.relAt := if s.sec.ignore then some s.time.tns else none }
      match s.sec.pressAt with
      | some t => if s.sys.run.trust then settlePins (presRelease (s.time.tns - t) s1) else s1
      | none => s1
    else s)

/-- PRES_STUCK (R520): a press has been held for more than 10 s. -/
def execPresStuck (s : State) : Host.Outcome State Fault Refusal :=
  .next (match s.sec.pressAt with
    | some t =>
      if s.sys.run.trust && decide (s.time.tns > t + 10 * nsPerSec) then
        settle (emit 0x0A82 [] { s with sec.stuck := true, sec.ignore := true, sec.pressAt := none })
      else s
    | none => s)

/-- PRES_STUCK_CLEAR (R520): the button has been released continuously for 1 s and is heeded again. -/
def execPresStuckClear (s : State) : Host.Outcome State Fault Refusal :=
  .next (match s.sec.relAt with
    | some t =>
      if s.sys.run.trust && s.sec.ignore && !s.pins.btn && decide (s.time.tns ≥ t + nsPerSec) then
        { s with sec.ignore := false, sec.stuck := false, sec.relAt := none }
      else s
    | none => s)

/-- The window named has run out. -/
def ranOut (s : State) (w : Option Nat) : Bool := match w with
  | some e => decide (e ≤ s.time.tns)
  | none => false

/-- PRESENCE_EXPIRY (R520, R521, R522): the strap window (`strap`) or the button window has run out; PRES_CLOSED is
recorded when it was the last. -/
def execPresenceExpiry (strap : Bool) (s : State) : Host.Outcome State Fault Refusal :=
  .next (if s.sys.run.trust && ranOut s (if strap then s.sec.strap else s.sec.btn) then
      let s1 := if strap then { s with sec.strap := none } else { s with sec.btn := none }
      settle (emitIf (presNone s1) 0x0A81 (le 1 1 ++ le 3 0) s1)
    else s)

/-- SEC_CTRL.PRES_CLOSE (R522, R535): both windows close at once, with one record. -/
def presClose (s : State) : State :=
  if presNone s then s
  else emit 0x0A81 (le 1 2 ++ le 3 0) { s with sec.btn := none, sec.strap := none }

/-! ## Seal loop -/

/-- The seal loop goes open (R524): the tamper counter increments, and the new state is stored with it. -/
def sealBreak (s : State) : State :=
  let n := sat 32 (s.nv.keys.tamper + 1)
  emit 0x0A83 (le 4 n) { s with nv.keys.tamper := n, nv.keys.sealOpen := true, sec.sealOpen := true }

/-- The seal loop closes (R524). -/
def sealClose (s : State) : State :=
  emit 0x0A84 (le 4 s.nv.keys.tamper) { s with nv.keys.sealOpen := false, sec.sealOpen := false }

/-- SEAL_BREAK (R523, R524): three samples of the loop, `true` for good; three bad ones open it. -/
def execSealBreak (a b c : Bool) (s : State) : Host.Outcome State Fault Refusal :=
  .next (if s.sys.run.trust && !a && !b && !c && !s.sec.sealOpen then settle (sealBreak s) else s)

/-- SEAL_RESTORED (R523, R524): three samples of the loop, `true` for good; three good ones close it. -/
def execSealRestored (a b c : Bool) (s : State) : Host.Outcome State Fault Refusal :=
  .next (if s.sys.run.trust && a && b && c && s.sec.sealOpen then settle (sealClose s) else s)

/-- At start-up step 3 the loop, found open or closed, is compared with the state in the key region (R523). -/
def sealCheck (isOpen : Bool) (s : State) : State :=
  if isOpen && !s.nv.keys.sealOpen then sealBreak s
  else if !isOpen && s.nv.keys.sealOpen then sealClose s
  else { s with sec.sealOpen := isOpen }

/-! ## Keys -/

/-- The key of a KEY_ID (R525), none for an unknown one. -/
def keyGet (k : KeyMat) (id : Nat) : Option Key :=
  if id = 1 then some k.image else if id = 2 then some k.ledger
  else if 0x10 ≤ id ∧ id < 0x14 then some (Tab.get {} k.pod (id - 0x10)) else none

/-- Put the key of a KEY_ID. -/
def keyPut (k : KeyMat) (id : Nat) (v : Key) : KeyMat :=
  if id = 1 then { k with image := v } else if id = 2 then { k with ledger := v }
  else { k with pod := Tab.set {} k.pod (id - 0x10) v }

/-- KEY_LOAD's refusal (R526): 0 when the load passes its checks, else the NAK status. -/
def keyChk (s : State) (body : List Byte) : Nat :=
  let id := fld body 0 1
  if !presOpen s then 3
  else match keyGet s.nv.keys id with
    | none => 2
    | some k =>
      if (body.drop 36).take 4 != (sha256 ((body.drop 4).take 32)).take 4 then 2
      else if k.lock then 9
      else if decide (0x10 ≤ id) && !standsOpen s (id - 0x10) then 9
      else 0

/-- A key load that has passed its checks (R526): the key region is written and KEY_LOADED recorded. A key of zeros
makes the key absent. -/
def keyLoad (body : List Byte) (s : State) : State :=
  let id := fld body 0 1
  let lock := fld body 1 1 % 2
  let key := (body.drop 4).take 32
  let kcv := (body.drop 36).take 4
  let v : Key := { val := if key.all (· == 0) then [] else key, lock := lock == 1 }
  emit 0x0A85 (kcv ++ le 1 id ++ le 1 lock ++ le 2 0) { s with nv.keys := keyPut s.nv.keys id v }

/-- Neither bank of the key material is valid at reset release (R528): every key but the device key is absent, the
tamper counter and the loop state take their values, and EPOCH is set above that of the newer valid LEDGER. -/
def keyRegionLost (s : State) : State :=
  let e := match nvRead s 2 with
    | some (.ledger b) => (b.epoch + 1) % 4294967296
    | _ => 1
  emit 0x0A87 (le 4 e) { s with
    nv.keys := { tamper := 0xFFFFFFFF, epoch := e, everLost := true }
    sec.keyLost := true }

/-! ## Attestation -/

/-- The body of an attestation (R529). -/
def attestBody (s : State) (nonce : List Byte) : List Byte :=
  let k := s.nv.keys
  let flags := b2n s.sec.sealOpen + 2 * b2n k.everLost + 4 * b2n k.ledger.lock
  let b := padTo 8 nonce ++ le 8 s.sec.mid.toNat ++ le 4 k.tamper ++ le 4 k.epoch ++ le 4 s.ledg.live.adoptCount ++
    le 4 flags ++ le 8 s.time.tns
  b ++ (hmac k.ledger.val b).take 16

/-! ## Pod adoption -/

/-- How many of the nodes named hold the foreign MID of node `rp`. -/
def midVotes (s : State) (ns : List (Nat × Nat)) (rp : Nat × Nat) : Nat :=
  (ns.filter fun q => (nodeOf s q.1 q.2).pair.take 8 == (nodeOf s rp.1 rp.2).pair.take 8).length

/-- Node `b` is preferred to node `a` for the adopted record (R533 step 2): its MID is held by more nodes, or by as
many and its CKPT_SEQ is newer. -/
def adoptBetter (s : State) (ns : List (Nat × Nat)) (a b : Nat × Nat) : Bool :=
  let va := midVotes s ns a
  let vb := midVotes s ns b
  decide (vb > va) || (vb == va &&
    serNewer 32 (fld (nodeOf s b.1 b.2).pair 12 4) (fld (nodeOf s a.1 a.2).pair 12 4))

/-- The adopted record of a pod (R533 step 2). -/
def adoptRecord (s : State) : List (Nat × Nat) → List Byte
  | [] => []
  | n :: ns =>
    let all := n :: ns
    let m := ns.foldl (fun a b => if adoptBetter s all a b then b else a) n
    (nodeOf s m.1 m.2).pair

/-- The adoption entry of a string (R441). -/
def adoptEntry (s : State) (i : Nat) (rec' : List Byte) : List Byte :=
  rec'.take 8 ++ le 8 s.time.tns ++ (rec'.drop 12).take 4 ++ le 1 i ++ le 3 0 ++ (rec'.drop 16).take 8

/-- The RESULT of a request to adopt the pod of string `i` (R533, R537): 0 when it is granted. -/
def adoptChk (s : State) (i : Nat) : Nat :=
  if !s.sys.run.ledger || !s.ledg.podForeign.getLsbD i then 2
  else if !((stringNodes s i).all fun rp => (nodeOf s rp.1 rp.2).auth == .passed) then 3
  else if fld (adoptRecord s (foreignNodes s i)) 9 1 = 2 && s.ledg.live.era = 1 then 4
  else 0

/-- The adoption of the pod of string `i` is asked for (R441, R533): a refused one sets RESULT only; a granted one
appends its entry and asks for the pod checkpoint that writes every node. -/
def adoptOne (i : Nat) (s : State) : State :=
  let st := adoptChk s i
  if st != 0 then { s with sec.adResult := st, sec.adString := i }
  else
    let r := adoptRecord s (foreignNodes s i)
    let e := adoptEntry s i r
    podAsk (setBit4 0 i true) { s with
      sec.adopt := s.sec.adopt.filter (·.1 != i) ++ [(i, r)]
      ledg.live.adopts := if s.ledg.live.adopts.length < 8 then s.ledg.live.adopts ++ [e] else s.ledg.live.adopts
      ledg.live.adoptDig := sha256 (padTo 32 s.ledg.live.adoptDig ++ e)
      ledg.live.adoptCount := (s.ledg.live.adoptCount + 1) % 4294967296 }

/-- A SEC_ADOPT write (R533, R536): the strings whose bits are set, in ascending order. -/
def secAdopt (m : Nat) (s : State) : State :=
  ((List.range 4).filter (m.testBit ·)).foldl (fun s i => adoptOne i s) s

end Sys2Proof.Machine
end

