-- ==== Sys2Proof/Machine/Image.lean ====
section
/-! DEFINITION. The Abanga image (chapter 2): staging, commit, hot and cold activation, and what an image's sections
change when they load. -/

namespace Sys2Proof.Machine

/-! ## Staging -/

/-- The state in which the IMG window rests between commits and activations (R64). -/
def imgRest (s : State) : ImgState :=
  if s.img.pending != .none then .waiting else if s.img.stageLen > 0 then .staging else .idle

/-- A commit is in progress (R54). -/
def commitBusy (s : State) : Bool := s.img.commit.isSome

/-- Put bytes at an offset of IMGSTAGE. -/
def stagePut : Nat → List Byte → Tab Byte → Tab Byte
  | _, [], t => t
  | o, b :: bs, t => stagePut (o + 1) bs (Tab.set 0 t o b)

/-- An IMG_CHUNK of `data` at `off` (R52, R54). -/
def imgChunk (off : Nat) (data : List Byte) (s : State) : State × Reply :=
  if commitBusy s then refuse 1 s
  else if off % 4 ≠ 0 || data.length % 4 ≠ 0 then refuse 7 s
  else if off + data.length > 2097152 then refuse 5 s
  else
    let s1 := { s with
      img.stage := stagePut off data s.img.stage
      img.stageLen := if data.isEmpty then s.img.stageLen else max s.img.stageLen (off + data.length) }
    accept { s1 with img.state := if s1.img.state == .idle then imgRest s1 else s1.img.state }

/-- IMG_CHUNK (R52): `data` is staged at `off`. -/
def execImgChunk (h : ReqHdr) (off : Nat) (data : List Byte) (s : State) : Host.Outcome State Fault Refusal :=
  .next (hostRequest 0x09 h (imgChunk off data) s)

/-- IMG_CTRL.ABORT_STAGE (R65): IMGSTAGE is cleared unless a commit is in progress. -/
def imgAbortStage (s : State) : State :=
  if commitBusy s then s
  else
    let s1 := { s with img.stage := [], img.stageLen := 0 }
    { s1 with img.state := if s1.img.state == .staging then imgRest s1 else s1.img.state }

/-! ## Commit -/

/-- `n` staged bytes from offset `i`; what was not staged reads zero (R638). -/
def stageBytes : Nat → Nat → Tab Byte → List Byte
  | 0, _, _ => []
  | n + 1, i, [] => 0 :: stageBytes n (i + 1) []
  | n + 1, i, (k, v) :: t => if k = i then v :: stageBytes n (i + 1) t else 0 :: stageBytes n (i + 1) ((k, v) :: t)

/-- An IMG_COMMIT of `len` bytes (R53, R54, R56): its validation starts, or it is refused BUSY. -/
def imgCommit (h : ReqHdr) (len : Nat) (s : State) : State × Reply :=
  if commitBusy s || s.img.state == .activating || s.img.coldStep != 0 then refuse 1 s
  else
    let c : Commit := { port := h.port, tag := h.tag, len := len, presence := presOpen s
                        topo := s.cfg.topo, basis := s.cfg.basis }
    ({ s with img.commit := some c, img.state := .validating }, .later)

/-- IMG_COMMIT (R53): validation of the first `len` bytes of IMGSTAGE starts; the answer comes at completion. -/
def execImgCommit (h : ReqHdr) (len : Nat) (s : State) : Host.Outcome State Fault Refusal :=
  .next (hostRequest 0x0A h (imgCommit h len) s)

/-- A slot as IMG_STATUS numbers it: 1 IMG_A, 2 IMG_B, 0 Sprout. -/
def slotNum (x : ImgSrc) : Nat := match x with
  | .sprout => 0
  | .slotA => 1
  | .slotB => 2

/-- The slot that R63 runs of two valid ones: the newer SEQ, IMG_A on a tie. -/
def newerSlot (s : State) : ImgSrc :=
  if serNewer 32 (imgSeq s.img.slotB.bytes) (imgSeq s.img.slotA.bytes) then .slotB else .slotA

/-- The slot other than `x`. -/
def otherSlot (x : ImgSrc) : ImgSrc := if x = .slotA then .slotB else .slotA

/-- The target slot of a commit (R53). -/
def targetSlot (s : State) : ImgSrc :=
  if s.img.pending != .none then s.img.waiting
  else if s.img.active != .sprout then otherSlot s.img.active
  else if !s.img.slotA.valid then .slotA
  else if !s.img.slotB.valid then .slotB
  else otherSlot (newerSlot s)

/-- The committed image that waits is given up (R57, R65): its slot is invalid. `cause`: 1 replaced, 2 CANCEL. -/
def imgDropWaiting (cause : Nat) (s : State) : State :=
  let x := s.img.waiting
  let v := slotOf s x
  emit 0x078A (le 4 (imgSeq v.bytes) ++ le 1 cause ++ le 1 (slotNum x) ++ le 2 0)
    (setSlot x { v with valid := false } { s with img.pending := .none, img.hotAt := none, img.waiting := .sprout, img.chg := [] })

/-- The commit fails (R50, R53): the failure is shown and recorded, and the request refused with IMAGE_REJECTED, whatever
the failure (R494; for want of presence R517 names PRESENCE_REQUIRED as well; DESIGN CHOICE, assumption 65). -/
def imgReject (c : Commit) (b : List Byte) (f : ImgFail) (s : State) : State :=
  let s1 := { s with img.commit := none, img.err := f.err, img.errSect := f.sect, img.errLoc := f.loc }
  let s2 := emit 0x0789 (le 1 f.err ++ le 1 f.sect ++ le 2 0 ++ le 4 f.loc ++ le 4 (imgSeq b) ++ le 4 (imgBuild b))
    { s1 with img.state := imgRest s1 }
  answer 0x0A c.port c.tag (.nak 8 f.err) s2

/-- The failure of a commit whose slot does not read back: its codes are free values. -/
def slotFail : ImgFail :=
  { err := Config.slotFail.1 % 256, sect := Config.slotFail.2.1 % 16, loc := Config.slotFail.2.2 % 2 ^ 32 }

/-- The image passes: its write to the target slot starts (R53, R57). The slot holds no whole image until the write
is complete. -/
def imgPass (c : Commit) (b : List Byte) (s : State) : State :=
  let x := targetSlot s
  let s1 := if s.img.pending != .none then imgDropWaiting 1 s else s
  setSlot x { bytes := b, valid := false, torn := true }
    { s1 with
      img.commit := some { c with needs := needsPresence s c b, hot := isHot s c b, target := x, chg := sectChanges s c b }
      img.state := .writing }

/-- IMG_VALIDATION_DONE (R49, R50, R56, R57): validation ends at its first failure, or passes. A want of presence lies
in no section and at no offset: R49 gives its ERR_SECT and IMG_ERR_LOC no value, and both are 0 (DESIGN CHOICE, assumption
64). -/
def execImgValidationDone (s : State) : Host.Outcome State Fault Refusal :=
  .next (match s.img.commit with
    | some c =>
      if s.img.state != .validating then s
      else
        let b := stageBytes (min c.len 2097152) 0 s.img.stage
        settle (match imgCheck s b c.len with
          | some f => imgReject c b f s
          | none =>
            if needsPresence s c b && !c.presence then imgReject c b { err := 0x1D, sect := 0, loc := 0 } s
            else imgPass c b s)
    | none => s)

/-- IMG_SLOT_WRITE_DONE (R53, R58, R59, R60): written and read back (`ok`), the slot holds the image, the commit is
recorded and answered, and the image waits for its activation. A slot that does not read back stays as a cut write leaves
it (R54), and the commit fails: R49 names no ERR, ERR_SECT and IMG_ERR_LOC for it, and they are free values (assumption
66). -/
def execImgSlotWriteDone (ok : Bool) (s : State) : Host.Outcome State Fault Refusal :=
  .next (match s.img.commit with
    | some c =>
      if s.img.state != .writing then s
      else
        let v := slotOf s c.target
        if !ok then settle (imgReject c v.bytes slotFail s) else
        let s1 := setSlot c.target { v with valid := true, torn := false } { s with
          img.commit := none
          img.err := 0
          img.errSect := 0
          img.errLoc := 0
          img.presUsed := c.needs
          img.pending := if c.hot then .hot else .cold
          img.waiting := c.target
          img.hotAt := if c.hot then some (s.time.frm + 2) else none
          img.chg := c.chg
          img.state := .waiting }
        let pay := le 4 (imgSeq v.bytes) ++ le 4 (imgBuild v.bytes) ++ le 1 (slotNum c.target) ++
          le 1 (if c.hot then 1 else 2) ++ le 1 (b2n c.needs) ++ le 1 0
        settle (answer 0x0A c.port c.tag (.ack 0 0 []) (emit 0x0788 pay s1))
    | none => s)

/-- IMG_CTRL.CANCEL (R65): a waiting activation is cancelled; ignored while one runs. -/
def imgCancel (s : State) : State :=
  if s.img.pending == .none || s.img.state == .activating || s.img.coldStep != 0 then s
  else
    let s1 := imgDropWaiting 2 s
    { s1 with img.state := if commitBusy s1 then s1.img.state else imgRest s1 }

/-! ## What sections change when they load -/

/-- N_ACQ of every node is written for the modes `act` of the boundary that starts frame `seq` (R138). -/
def acqAnnounce (act : Word) (seq : Nat) (s : State) : State :=
  [0, 1].foldl (fun s r =>
    let s1 := modRing s r fun x => { x with mgmt := x.mgmt.filter fun m =>
      !(m.write && m.addr == 0x30 && decide (fld m.data 3 1 = seq % 256)) }
    (positions s1 r).foldl (fun s p =>
      let n := nodeOf s r p
      acqWrite r p (bits act 17 16) (n.kind == 1 && bits act 27 26 == 1 && n.coup.valid) seq s) s1) s

/-- Two SYS_MODE values have the same ACQ and BAL. -/
def sameAcq (a b : Word) : Bool := bits a 17 16 == bits b 17 16 && bits a 27 26 == bits b 27 26

/-- ACQ and BAL stay as they are with the request `v`, whatever is scheduled before it (R138). -/
def modeSame (v : Word) (s : State) : Bool :=
  let before := s.sys.modeNext.getD s.sys.modeForce
  sameAcq (modeActOf s v) (modeActOf s before) &&
    (match s.sys.modeLater with
      | some w => sameAcq (modeActOf s v) (modeActOf s w)
      | none => true)

/-- A SYS_MODE value is accepted (R27, R29, R138): it takes effect at the second boundary from now, and N_ACQ goes to
every node when ACQ or BAL changes with it. -/
def modeAccept (v : Word) (s : State) : State :=
  let s1 := { s with sys.mode := v, sys.modeLater := some v }
  if modeSame v s then s1 else acqAnnounce (modeActOf s v) (s.time.frm.toNat + 2) s1

/-- Streams on a port that the image has disabled close (R511). -/
def closeOffPorts (s : State) : State := closeStreams (fun x => !portOn s x.port) s

/-- The CAN FD controller follows HOST.PORTS (R484, R486): it needs a crystal. -/
def canFollow (s : State) : State :=
  if !portOn s .can then { s with host.can := .off }
  else if s.host.can != .off then s
  else if s.time.xtal then { s with host.can := .active }
  else emit 0x0A02 [] s

/-- A map of the HOST section as one number: its words, the lowest first. -/
def mapOf (n : Nat) (ws : List Word) : BitVec n := BitVec.ofNat n (ofLe (ws.flatMap fun w => le 4 w.toNat))

/-- The event maps load from HOST (R589). -/
def mapsLoad (s : State) : State :=
  { s with evt.irqmap := mapOf 256 s.cfg.host.irqMap, evt.evtmap := mapOf 128 s.cfg.host.evtMap }

/-- The HOST section applies (R46, R59, R511). -/
def hostApply (s : State) : State := canFollow (closeOffPorts s)

/-- The REC section applies (R59): token buckets restart full. -/
def recApply (s : State) : State :=
  { s with recd.tok := [], recd.aggTok := Int.ofNat (s.cfg.recd.agg * (nsPerSec / 10)), recd.aggAt := s.time.tns }

/-- The THERM section applies (R47). -/
def thermApply (b : List Byte) (s : State) : State :=
  let t := readTherm b
  { s with therm.warn := t.1, therm.throt := t.2.1, therm.shut := t.2.2 }

/-! ## Hot activation -/

/-- The record of an activation (R59, R60). -/
def activated (kind : Nat) (x : ImgSrc) (s : State) : State :=
  emit 0x078B (le 4 s.cfg.seq.toNat ++ le 4 s.cfg.build.toNat ++ le 1 (slotNum x) ++ le 1 kind ++ le 2 0) s

/-- The changed sections of a hot image apply (R59, R78). -/
def hotApply (b : List Byte) (s : State) : State :=
  let c := imgCfg s b
  let has := s.img.chg.contains
  let est := has 7
  let lim := has 0
  let win := has 8
  let rec' := has 9
  let host := has 10
  let moved := decide (c.est.reserve ≠ s.cfg.est.reserve)
  let s1 := { s with cfg.est := c.est, cfg.win := c.win, cfg.recd := c.recd, cfg.host := c.host, cfg.basis := []
                     cfg.seq := c.seq, cfg.build := c.build }
  let s1 := if est then jumpMarks (if moved then 5 else 7) s1 else s1
  let s2 := if win then winDiscard s1 else s1
  let s3 := if rec' then recApply s2 else s2
  let s4 := mapsLoad (if host then hostApply s3 else s3)
  let x := s.img.waiting
  let s5 := { s4 with img.active := x, img.waiting := .sprout, img.pending := .none, img.hotAt := none, img.chg := []
                      img.fallback := false }
  let s6 := modeAccept c.acq.mode { s5 with img.state := if commitBusy s5 then s5.img.state else imgRest s5 }
  activated 1 x (if lim then nvQueue 3 s6 else s6)

/-- HOT_ACTIVATION (R59): at the boundary of frame n + 2. -/
def execHotActivation (s : State) : Host.Outcome State Fault Refusal :=
  .next (match s.img.hotAt with
    | some a =>
      if s.img.pending == .hot && frmLe a s.time.frm && atBoundary s then
        settle (hotApply (slotOf s s.img.waiting).bytes s)
      else s
    | none => s)

/-! ## Persistent records follow their cells (R339, R431) -/

/-- The index of the record of an old topology that belongs to cell `c`: same node UID and input. -/
def recIndex (s : State) (recs : Tab CellRec) (c : Nat) : Option Nat :=
  let u := cellUid s c
  let k := match cellNode s c with
    | some (_, k) => k
    | none => 0
  if u = 0 then none else (recs.find? fun r => r.2.uid == u && r.2.k == k).map (·.1)

/-- The tables of a cell, entry by entry, in place of what it holds. -/
def putTable (c : Nat) (es : Tab ZEntry) (s : State) : State :=
  (List.range 96).foldl (fun s e => setZ c (e / 12) (e % 12) (Tab.get {} es e) s) s

/-- The cell `e.1` takes the record of index `e.2` with its impedance table, its Tally block and what Winnow keeps of
it, or starts from priors when no record is its own (R431). -/
def reassocCell (recs : Tab CellRec) (tab : Nat → Option (Tab ZEntry)) (hist : Nat → TCell × WCell) (s : State)
    (e : Nat × Option Nat) : State :=
  match e.2 with
  | some i =>
    let r : CellRec := Tab.get {} recs i
    let s1 := modWCell { s with nv.recs := Tab.set {} s.nv.recs e.1 r } e.1 fun _ => (hist i).2
    let s2 := modCell (modTCell s1 e.1 fun _ => (hist i).1) e.1 fun a => { a with balSec := r.balSec }
    match tab i with
    | some es => putTable e.1 es s2
    | none => takePriors e.1 s2
  | none => takePriors e.1 (modCell s e.1 fun a => { a with balSec := 0 })

/-- Each configured cell takes the record, the table and the Tally block that match its node and input (R431, R638);
`recs`, `tab` and `hist` are those of the old order, `none` for a table that cannot be read. The objects that change
their order are queued for writing, and what is dropped or lost is recorded. -/
def reassociate (recs : Tab CellRec) (tab : Nat → Option (Tab ZEntry)) (hist : Nat → TCell × WCell) (s : State) : State :=
  let cs := cells s
  let ix := cs.map fun c => (c, recIndex s recs c)
  let used := ix.filterMap (·.2)
  let dropped := (recs.filter fun r => r.2.uid != 0 && !used.contains r.1).length
  let lost := (ix.filter fun e => match e.2 with
    | some i => (tab i).isNone
    | none => false).length
  let moved := dropped != 0 || ix.any fun e => match e.2 with
    | some i => i != e.1
    | none => false
  let s0 := { s with nv.recs := [], win.z := [], win.cells := [], tally.cells := [] }
  let s1 := ix.foldl (reassocCell recs tab hist) s0
  let s2 := if lost = 0 then s1 else emit 0x0602 (le 4 lost) s1
  let s3 := if dropped = 0 then s2 else emit 0x0881 (le 4 dropped) s2
  if !moved then s3
  else (ix.foldl (fun s e => if e.2 = some e.1 then s else nvQueue (0x100 + e.1) s) (nvQueue 7 (nvQueue 6 s3)))

/-- The lanes start from the NV last state (R60, R267): every cell's state block and estimate begins again. -/
def cellsStart (s : State) : State :=
  (cells s).foldl (fun s c => initCell true c s) { s with krn.loaded := true }

/-- A per-cell array in the new global order (R638): the cell `e.1` takes the entry of the old index `e.2`. -/
def reorder {α : Type} [DecidableEq α] (d : α) (ix : List (Nat × Option Nat)) (t : Tab α) : Tab α :=
  ix.foldl (fun u e => match e.2 with
    | some i => Tab.set d u e.1 (Tab.get d t i)
    | none => u) []

/-! ## Cold activation (R60, R61) -/

/-- No Husk sequencer runs in either copy. -/
def noSeqBusy (s : State) : Bool := (List.range 32).all fun q => !seqBusy s q

/-- The image that a cold activation loads: the waiting one, or the active one again after a failure (R61). -/
def coldSrc (s : State) : ImgSrc := if s.img.coldBack then s.img.active else s.img.waiting

/-- Its bytes. -/
def coldBytes (s : State) : List Byte := (slotOf s (coldSrc s)).bytes

/-- The configuration it gives. -/
def coldCfg (s : State) : Cfg := if coldSrc s = .sprout then sproutCfg s else imgCfg s (coldBytes s)

/-- The SYS_MODE that an image gives (R27): its ACQ's, or the reset value while Sprout runs. -/
def modeFrom (x : ImgSrc) (c : Cfg) : Word := if x = .sprout then 0 else c.acq.mode

/-- Its protection netlist. -/
def coldNet (s : State) : Netlist :=
  if coldSrc s = .sprout then
    let c := sproutCfg s
    sproutNet s.sys.chem c.topo c.basis
  else readHusk (sect (coldBytes s) 3)

/-- Husk runs the ROM fallback netlist with the limits in force (R60 step 1, R210). -/
def coldRom (s : State) : State :=
  if s.husk.nlSrc == .none then s else loadNet (romNetlist s.husk.net.limits) .rom s

/-- Step 1 (R60): every string is held at L0 on the ROM fallback netlist, and a debug session ends (R372). -/
def coldHold (s : State) : State :=
  let s1 := { s with img.coldStep := 1, img.state := .activating, husk.hold := true
                     img.coldCells := (cells s).filter (steppable s) }
  bistAbort 4 (dbgEnd 4 (coldRom s1))

/-- COLD_ACTIVATION_HOLD (R60): at a frame boundary at which every string stands open and no sequencer runs. A ledger
checkpoint is taken (R437). While a further commit is in progress, which would replace the waiting image (R57), the
activation waits for its end (DESIGN CHOICE, assumption 67). -/
def execColdActivationHold (s : State) : Host.Outcome State Fault Refusal :=
  .next (if s.img.pending == .cold && s.img.coldStep == 0 && !commitBusy s && atBoundary s && allOpen s && noSeqBusy s then
      (let s1 := coldHold s
       settle (if s1.sys.run.ledger then checkpoint s1 else s1))
    else s)

/-- The new slot cannot be read intact (R61): it is invalid, and the same steps run with the previously active image,
from the ROM fallback of step 1 on. -/
def coldFail (s : State) : State :=
  if s.img.coldBack then s
  else
    let x := s.img.waiting
    let v := slotOf s x
    emit 0x078C (le 4 (imgSeq v.bytes) ++ le 1 (slotNum x) ++ le 3 0)
      (coldRom (setSlot x { v with valid := false }
        { s with img.coldBack := true, img.coldStep := 1, img.pending := .none }))

/-- Steps 2 to 4 wait until an aborted self-test run is restored (R573). -/
def coldAt (k : Nat) (s : State) : Bool := s.img.coldStep == k && !bistBusy s

/-- HUSK, DRV, THERM and SEC of the image load (R60 step 2); the thresholds apply once the load completes (R215). -/
def coldProtect (s : State) : State :=
  let c := coldCfg s
  let s1 := { s with cfg.drv := c.drv, cfg.sec := c.sec, img.coldStep := 2 }
  let s2 := if coldSrc s = .sprout then thermApply thermBody s1 else thermApply (sect (coldBytes s) 11) s1
  netChange (coldNet s) s2

/-- COLD_ACTIVATION_LOAD_PROTECTION (R60, R61): `intact` says that the slot could be read. -/
def execColdActivationLoadProtection (intact : Bool) (s : State) : Host.Outcome State Fault Refusal :=
  .next (if !coldAt 1 s then s else settle (if intact then coldProtect s else coldFail s))

/-- TOPO of the image differs from the one that the rings were last enumerated under. -/
def coldTopo (s : State) : Bool := s.img.topoNext.isSome || decide ((coldCfg s).topo ≠ s.cfg.topo)

/-- COLD_ACTIVATION_ENUMERATE (R60 step 3): if TOPO changed, both rings enumerate and authenticate again. -/
def execColdActivationEnumerate (s : State) : Host.Outcome State Fault Refusal :=
  .next (if !coldAt 2 s then s
    else if !coldTopo s then { s with img.coldStep := 3 }
    else
      let back := decide (coldSrc s = .sprout)
      let s1 := { s with img.coldStep := 3, img.topoNext := if back then none else some (coldCfg s).topo }
      [0, 1].foldl (fun s r => modRing s r fun x => { x with enumReq := true }) s1)

/-- Both rings have ended their enumeration. -/
def ringsSettled (s : State) : Bool :=
  [0, 1].all fun r =>
    let x := ringOf s r
    !x.enumReq && (x.enumStep == 0 || x.enumStep == 7) && x.state != .waking && x.state != .enumerating

/-- Every array of per-cell values follows the cells into the new global order (R638). Where the topology is unchanged it
stands as it is. -/
def cellsFollow (topo : Bool) (recs : Tab CellRec) (s : State) : State :=
  if !topo then s
  else
    let ix := (cells s).map fun c => (c, recIndex s recs c)
    { s with acq.cells := reorder {} ix s.acq.cells, acq.pub := reorder {} ix s.acq.pub
             krn.cells := reorder {} ix s.krn.cells, est.cells := reorder {} ix s.est.cells }

/-- The models and the topology of the image are in force (R60 step 4): records follow their cells, the lanes start
from the NV last state, and a hand-over assigns the new topology. -/
def coldModels (s0 : State) : State :=
  let s := { nvTaken 6 s0 with img.topoNext := none }
  let c := coldCfg s
  let recs := s.nv.recs
  let old := winDiscard s
  let topo := decide (c.topo ≠ s.cfg.topo)
  let s1 := { s with
    cfg := { c with seq := s.cfg.seq, build := s.cfg.build }
    img.coldStep := 4
    img.coldCells := []
    pairs.assign := []
    pairs.stale := []
    acq.vPack := if topo then [] else s.acq.vPack
    est.str := if topo then [] else s.est.str
    est.mark := (List.range 4).map (·, 7)
    win.str := []
    win.offers := []
    win.clr := [] }
  let s2 := (List.range 16).foldl (fun s q => pairClear q s) (assignRing 1 (assignRing 0 s1))
  let s3 := reassociate recs (fun i => some (ztabOf old i))
    (fun i => (tCell old i, { wCell old i with vHist := [] })) (cellsFollow topo recs s2)
  let s4 := threshWrite (cfgWrite (mapsLoad (hostApply (recApply (cellsStart (allRefit (allThresholds s3)))))))
  let s5 := modeAccept (modeFrom (coldSrc s) c) (handIn2 s4)
  nvQueue 6 (if coldSrc s = .sprout then s5 else nvQueue 3 s5)

/-- COLD_ACTIVATION_LOAD_MODELS (R60 step 4, R61): once the rings have settled. -/
def execColdActivationLoadModels (intact : Bool) (s : State) : Host.Outcome State Fault Refusal :=
  .next (if coldAt 3 s && ringsSettled s then settle (if intact then coldModels s else coldFail s) else s)

/-- COLD_ACTIVATION_COMPLETE (R60 step 5): the hold ends, IMG_ACTIVATED is recorded, and a KEY close request that
still holds is acted on. -/
def execColdActivationComplete (s : State) : Host.Outcome State Fault Refusal :=
  .next (if !coldAt 4 s then s
    else
      let x := coldSrc s
      let c := coldCfg s
      let s1 := { s with
        husk.hold := false
        img.active := x
        img.fallback := (x == ImgSrc.sprout) && s.img.fallback
        img.waiting := .sprout
        img.pending := .none
        img.coldStep := 0
        img.coldBack := false
        cfg.seq := c.seq
        cfg.build := c.build }
      let s2 := activated 2 x { s1 with img.state := imgRest s1 }
      settle (if s.drv.key then rearmClose (List.range 4) s2 else s2))

end Sys2Proof.Machine
end

