-- ==== Sys2Proof/Machine/Rec.lean ====
section
/-! DEFINITION. The event recorder and the Granary (chapter 16): admission, Chaff, digests, publication and
programming, and the meanings of their commands. -/

namespace Sys2Proof.Machine

/-! ## Rate limits (R455) -/

/-- BURST and RATE of a code: its REC entry, or the default of its severity. -/
def limitsOf (s : State) (code : Nat) : Nat × Nat :=
  match s.cfg.recd.ents.find? (·.code == code) with
  | some e => (e.burst, e.rate)
  | none => if (devSev code).getD 0 ≥ 2 then (64, 100) else (16, 10)

/-- The tokens of a code's bucket now, in 1e-9 records. -/
def tokNow (s : State) (code : Nat) : Nat :=
  let l := limitsOf s code
  match Tab.get none s.recd.tok code with
  | none => l.1 * nsPerSec
  | some (n, t) => min (l.1 * nsPerSec) (n + l.2 * since s t)

/-- The tokens of the aggregate bucket now, in 1e-9 records. -/
def aggNow (s : State) : Int :=
  min (Int.ofNat (s.cfg.recd.agg * nsPerSec) / 10) (s.recd.aggTok + Int.ofNat (s.cfg.recd.agg * since s s.recd.aggAt))

/-- Put the tokens of a code's bucket. -/
def setTok (code n : Nat) (s : State) : State :=
  { s with recd.tok := Tab.set none s.recd.tok code (some (n, s.time.tns)) }

/-- Put the tokens of the aggregate bucket. -/
def setAgg (n : Int) (s : State) : State := { s with recd.aggTok := n, recd.aggAt := s.time.tns }

/-- Take an aggregate token, into a deficit of AGG at most. -/
def takeAgg (s : State) : State :=
  setAgg (max (aggNow s - Int.ofNat nsPerSec) (-(Int.ofNat (s.cfg.recd.agg * nsPerSec)))) s

/-- The event is exempt from the rate limits: DIGEST, CHAFF_SUMMARY, last-gasp and digest records (R455). -/
def exempt (w : Wait) : Bool := w.ev.code == 0x0980 || w.ev.code == 0x0981 || w.lg.isSome || w.hw

/-- The severity of a waiting event. -/
def waitSev (s : State) (w : Wait) : Nat := (sevOf s w.ev.code).getD 0

/-- The rate limit of R455: the tokens are taken, or the event is refused. -/
def rateLimit (w : Wait) (s : State) : Option State :=
  let c := w.ev.code
  if exempt w then some (takeAgg s)
  else
    let t := tokNow s c
    if t < nsPerSec then none
    else if waitSev s w ≥ 2 then some (takeAgg (setTok c (t - nsPerSec) s))
    else if aggNow s < Int.ofNat nsPerSec then none
    else some (setAgg (aggNow s - Int.ofNat nsPerSec) (setTok c (t - nsPerSec) s))

/-- An event is dropped to Chaff (R458, R460). -/
def toChaff (code : Nat) (s : State) : State :=
  let up (t : Tab Nat) := Tab.set 0 t code (sat 32 (Tab.get 0 t code + 1))
  { s with recd.chaff := up s.recd.chaff, recd.delta := up s.recd.delta, recd.drop := sat 32 (s.recd.drop + 1) }

/-! ## Sequence numbers (R467) -/

/-- A raised SEQ_RES still waits for a write that can complete. -/
def resWaits (s : State) : Bool := s.recd.resTb || (s.recd.resDev && nvOn s)

/-- The next SEQ may be used. -/
def seqFree (s : State) : Bool :=
  decide (s.recd.next < if resWaits s then s.recd.seqRes - 1048576 else s.recd.seqRes)

/-- SEQ_RES becomes `res` in the device and, where it can be written, in the time block (R467). -/
def seqResTo (res : Nat) (s : State) : State :=
  let s1 := { s with recd.seqRes := res, recd.resDev := true, nv.tb.seqResHi := res / 1048576 }
  nvQueue 1 (if s1.nv.refuse then { s1 with recd.resTb := true } else { tbWrite s1 with recd.resTb := false })

/-- SEQ_RES rises by 2^20 and both stores are written (R467); the time block is written by hardware. -/
def raiseRes (s : State) : State := seqResTo (s.recd.seqRes + 1048576) s

/-- SEQ_RES rises when the next SEQ comes within 2^19 of it. -/
def keepRes (s : State) : State := if s.recd.next + 524288 ≥ s.recd.seqRes then raiseRes s else s

/-! ## Digests (R463 to R465) -/

/-- An event joins a digest entry. -/
def digJoin (e : DigEnt) (key : Option Int) (sev n tns0 tns1 : Nat) : DigEnt :=
  let fresh := e.count = 0
  let noval := e.noval || key.isNone
  let k := key.getD 0
  { noval := noval, sev := sev, count := sat 32 (e.count + n)
    first := if fresh then tns0 else e.first, last := tns1
    lo := if noval then 0 else if fresh then k else min e.lo k
    hi := if noval then 0 else if fresh then k else max e.hi k }

/-- The key value of an event: the int32 at payload offset 0 (R464). -/
def keyOf (payload : List Byte) : Option Int := if payload.length < 4 then none else some (fldI payload 0 4)

/-- An event is added to its code's digest entry, or beyond 256 codes to the overflow entry (R463). -/
def digAdd (code sev tns : Nat) (payload : List Byte) (s : State) : State :=
  let have_ := (Tab.get none s.recd.dig code).isSome
  let codes := (s.recd.dig.filter (·.1 != 0xFFFF)).length
  let s1 := { s with recd.digTotal := sat 32 (s.recd.digTotal + 1) }
  if have_ || codes < 256 then
    let e := digJoin ((Tab.get none s1.recd.dig code).getD {}) (keyOf payload) sev 1 tns tns
    { s1 with recd.dig := Tab.set none s1.recd.dig code (some e) }
  else
    let e := digJoin ((Tab.get none s1.recd.dig 0xFFFF).getD {}) (some 0) Config.overflowSev 1 tns tns
    { s1 with recd.dig := Tab.set none s1.recd.dig 0xFFFF (some e) }

/-- The 32 bytes of a digest entry (R464). -/
def digBytes (ce : Nat × DigEnt) : List Byte :=
  let e := ce.2
  le 2 ce.1 ++ le 1 (b2n e.noval + 2 * b2n (e.count == 4294967295)) ++ le 1 e.sev ++ le 4 e.count ++
    le 8 e.first ++ le 8 e.last ++ leI 4 e.lo ++ leI 4 e.hi

/-- The digest's entries in ascending CODE, the overflow entry last. -/
def digList (s : State) : List (Nat × DigEnt) := s.recd.dig.filterMap fun ce => ce.2.map fun e => (ce.1, e)

/-- Cut a list into runs of `per`; `n` bounds the number of runs. -/
def chunks {α : Type} (per : Nat) : Nat → List α → List (List α)
  | 0, _ => []
  | n + 1, l => if l.isEmpty then [] else l.take per :: chunks per n (l.drop per)

/-- The runs of a list, at least one. -/
def parts {α : Type} (per : Nat) (l : List α) : List (List α) :=
  let c := chunks per (l.length / per + 1) l
  if c.isEmpty then [[]] else c

/-- The DIGEST payloads of a digest with its phases and start (R465). -/
def digPayloads (phases start : Nat) (s : State) : List (List Byte) :=
  let ps := parts 30 (digList s)
  ps.zipIdx.map fun p =>
    le 1 phases ++ le 1 (p.2 + 1) ++ le 1 ps.length ++ le 1 0 ++ le 8 start ++ le 4 s.recd.digTotal ++ le 4 0 ++
      p.1.flatMap digBytes

/-- A DIGEST event forms its records, which stand in its place, and the digest is cleared (R465). -/
def digForm (w : Wait) (rest : List Wait) (s : State) : State :=
  let ps := digPayloads (fld w.ev.payload 0 1) (fld w.ev.payload 1 8) s
  { s with recd.produced := ps.map (fun p => { w with ev.payload := p }) ++ rest
           recd.dig := [], recd.digTotal := 0 }

/-! ## Admission (R455 to R457) -/

/-- The payload of a record, with the trailer of one from the last-gasp ring (R454). -/
def recPayload (w : Wait) : List Byte := match w.lg with
  | some (seq, tns, wall) => w.ev.payload ++ le 8 tns ++ le 8 (match wall with
      | some x => x.toNat
      | none => 0) ++ le 4 seq ++ le 4 0
  | none => w.ev.payload

/-- SRC of a code (R452): the subsystem of a device code; a user code is raised by Husk (R211). -/
def recSrc (code : Nat) : Nat := if code ≥ 0x8000 then 5 else code / 128

/-- The record an event becomes (R451, R456). -/
def recOf (w : Wait) (s : State) : Rec :=
  { seq := s.recd.next, code := w.ev.code
    sevf := at' 5 (b2n s.time.wallOfs.isNone) + at' 3 (b2n w.lg.isSome) +
      at' 2 (b2n (w.hw || w.ev.code == 0x0980)) + waitSev s w
    src := recSrc w.ev.code, tns := s.time.tns, wall := wallOf s, payload := recPayload w, ix := w.ev.ix }

/-- An event takes the next SEQ and a staging buffer (R456). -/
def takeIn (w : Wait) (s : State) : State :=
  keepRes { s with recd.staging := s.recd.staging ++ [recOf w s], recd.next := s.recd.next + 1 }

/-- The staging buffers that are busy: those of records not yet complete (R456, R457). -/
def stageBusy (s : State) : Nat := (s.recd.staging.filter (!·.done)).length

/-- A staging buffer and a SEQ are free. -/
def roomFor (s : State) : Bool := decide (stageBusy s < 8) && seqFree s

/-- The front event meets the rate limit, and is admitted, waits, or is dropped (R455, R457). -/
def takeFront (w : Wait) (rest : List Wait) (s : State) : State :=
  if w.since.isSome then
    if roomFor s then takeIn w { s with recd.produced := rest } else s
  else match rateLimit w s with
    | none => toChaff w.ev.code { s with recd.produced := rest }
    | some s1 =>
      if roomFor s1 then takeIn w { s1 with recd.produced := rest }
      else { s1 with recd.produced := { w with since := some s.time.tns, dig := false } :: rest }

/-- EVENT_ADMIT (R455, R463): the oldest event raised joins the digest, is admitted, waits or is dropped to Chaff. -/
def execEventAdmit (s : State) : Host.Outcome State Fault Refusal :=
  .next (settle (if !s.sys.run.recorder then s
    else match s.recd.produced with
      | [] => s
      | w :: rest =>
        if w.ev.code == 0x0980 && w.ev.payload.length == 9 then digForm w rest s
        else if w.dig && !exempt w then
          let s1 := digAdd w.ev.code (waitSev s w) w.ev.tns w.ev.payload s
          if waitSev s w < 2 then { s1 with recd.produced := rest } else takeFront { w with dig := false } rest s1
        else takeFront w rest s))

/-- ADMISSION_TIMEOUT (R457): an S0 or S1 event that has waited 100 us for a staging buffer is dropped to Chaff, and
its tokens are returned. -/
def execAdmissionTimeout (s : State) : Host.Outcome State Fault Refusal :=
  .next (match s.recd.produced with
    | w :: rest => match w.since with
      | some t =>
        if waitSev s w < 2 && !exempt w && decide (since s t ≥ 100000) then
          let s1 := setAgg (aggNow s + Int.ofNat nsPerSec) (setTok w.ev.code (tokNow s w.ev.code + nsPerSec) s)
          toChaff w.ev.code { s1 with recd.produced := rest }
        else s
      | none => s
    | [] => s)

/-! ## What is held (R473, R477, R479) -/

/-- The records of a region, oldest block first. -/
def regionRecs (g : GRegion) : List Rec := g.blocks.flatMap (·.2.recs)

/-- The oldest retrievable SEQ (R473, R479): of the main ring and the SRAM ring. -/
def oldestSeq (s : State) : Nat :=
  let seqs := ((regionRecs s.recd.gran.main).filter (·.done) ++ s.recd.ring).map fun r => Int.ofNat r.seq
  ((minOf? seqs).getD 0).toNat

/-- The records that a cursor of a scope meets, by its store (R477), those of a program cut off among them (R476): the
SRAM ring and the main ring, or the unacknowledged pinned copies in the SRAM ring and the pinned region. -/
def scopeAll (s : State) (scope : Nat) : List Rec :=
  if scope = 0 then s.recd.ring ++ regionRecs s.recd.gran.main
  else (s.recd.ring.filter (fun r => decide (recSev r ≥ 2)) ++ regionRecs s.recd.gran.pin).filter
    fun r => decide (r.seq > s.recd.ack)

/-- The records that a cursor of a scope can deliver (R477). -/
def scopeRecs (s : State) (scope : Nat) : List Rec := (scopeAll s scope).filter (·.done)

/-- The oldest SEQ of a scope, the next record published when it holds none. -/
def scopeOldest (s : State) (scope : Nat) : Nat :=
  ((minOf? ((scopeRecs s scope).map fun r => Int.ofNat r.seq)).map Int.toNat).getD (s.recd.pub + 1)

/-- A main-ring cursor whose next record is no longer held moves to the oldest retrievable SEQ (R479). -/
def curOverrun (s : State) : State :=
  (List.range 4).foldl (fun s k =>
    let c := Tab.get {} s.recd.cur k
    if c.active && c.scope == 0 && decide (c.next < scopeOldest s 0) then
      { s with recd.cur := Tab.set {} s.recd.cur k { c with overrun := true, next := scopeOldest s 0 } }
    else s) s

/-! ## Publication (R456, R459) -/

/-- Bytes of a list of records. -/
def ringBytes (l : List Rec) : Nat := (l.map recLen).foldl (· + ·) 0

/-- The oldest records give way until the ring holds 2 MiB at most: what is left and what was overwritten. -/
def ringTrim : Nat → List Rec → List Rec × List Rec
  | 0, l => (l, [])
  | n + 1, l => if ringBytes l ≤ 2097152 then (l, []) else match l with
    | [] => ([], [])
    | r :: rs => let t := ringTrim n rs; (t.1, r :: t.2)

/-- The Granary controller publishes the range of records it lost (R474). -/
def lagEvent (lost : List Rec) (s : State) : State :=
  match lost.map (·.seq), lost.getLast? with
  | lo :: _, some r => emit 0x0988 (le 8 lo ++ le 8 r.seq) s
  | _, _ => s

/-- A record passes the publish pointer (R456, R458): it enters the SRAM ring, and goes out as an EVENT frame. -/
def publish (r : Rec) (s : State) : State :=
  let t := ringTrim (s.recd.ring.length + 1) (s.recd.ring ++ [r])
  let s1 := { s with recd.ring := t.1, recd.pub := r.seq }
  let lost := t.2.filter fun x => decide (x.seq > s.recd.gran.progSeq)
  let s2 := if granRuns s then lagEvent lost { s1 with
      recd.gran.progSeq := ((lost.getLast?).map (·.seq)).getD s.recd.gran.progSeq } else s1
  eventFrames r r.ix (if t.2.isEmpty then s2 else curOverrun s2)

/-- The publish pointer advances past complete records. -/
def advance : Nat → State → State
  | 0, s => s
  | n + 1, s => match s.recd.staging with
    | r :: rest => if r.done then advance n (publish r { s with recd.staging := rest }) else s
    | [] => s

/-- RECORD_COMPLETE (R456): the record with this SEQ is assembled with its CRC, and the publish pointer advances past
complete records. -/
def execRecordComplete (seq : BitVec 48) (s : State) : Host.Outcome State Fault Refusal :=
  let s1 := { s with recd.staging := s.recd.staging.map fun r => if r.seq = seq.toNat then { r with done := true } else r }
  .next (settle (advance s1.recd.staging.length s1))

/-! ## Chaff summary (R461) -/

/-- The CHAFF_SUMMARY payloads of the deltas now. -/
def chaffPayloads (s : State) : List (List Byte) :=
  let es := s.recd.delta.filter (·.2 != 0)
  let ps := parts 81 es
  ps.zipIdx.map fun p =>
    le 2 p.1.length ++ le 1 (p.2 + 1) ++ le 1 ps.length ++ le 4 0 ++
      p.1.flatMap fun e => le 2 e.1 ++ le 2 0 ++ le 4 e.2 ++ le 4 (Tab.get 0 s.recd.chaff e.1)

/-- CHAFF_SUMMARY (R461): at a 10 s multiple of TNS with a nonzero delta, the deltas are published and cleared. -/
def execChaffSummary (s : State) : Host.Outcome State Fault Refusal :=
  let ten := 10 * nsPerSec
  .next (settle (if s.sys.run.recorder && decide (s.time.tns / ten > s.recd.chaffAt / ten) then
      let s1 := { s with recd.chaffAt := s.time.tns }
      if s.recd.delta.any (·.2 != 0) then
        (chaffPayloads s).foldl (fun s p => emit 0x0981 p s) { s1 with recd.delta := [] }
      else s1
    else s))

/-! ## The Granary (R468 to R475) -/

/-- One region: the pinned region, or the main ring. -/
def regionOf (s : State) (pin : Bool) : GRegion := if pin then s.recd.gran.pin else s.recd.gran.main

/-- Put one region. -/
def setRegion (pin : Bool) (g : GRegion) (s : State) : State :=
  if pin then { s with recd.gran.pin := g } else { s with recd.gran.main := g }

/-- Block `b` of a region. -/
def blockOf (g : GRegion) (b : Nat) : GBlock := Tab.get {} g.blocks b

/-- Change block `b` of a region. -/
def modBlock (b : Nat) (f : GBlock → GBlock) (g : GRegion) : GRegion :=
  { g with blocks := Tab.set {} g.blocks b (f (blockOf g b)) }

/-- The next block of a region after `b` that is not retired; `k` bounds the search. -/
def nextBlock (g : GRegion) : Nat → Nat → Option Nat
  | 0, _ => none
  | k + 1, b =>
    let c := if b + 1 < g.n then b + 1 else 0
    if (blockOf g c).retired then nextBlock g k c else if g.n = 0 then none else some c

/-- The block that follows the write position. -/
def aheadBlock (g : GRegion) : Option Nat := match g.pos with
  | some b => nextBlock g g.n b
  | none => if g.n = 0 then none else nextBlock g g.n (g.n - 1)

/-- The two blocks kept erased ahead of the write position (R471). -/
def aheadTwo (g : GRegion) : List Nat := match aheadBlock g with
  | none => []
  | some a => match nextBlock g g.n a with
    | some b => if b = a then [a] else [a, b]
    | none => [a]

/-- The record to be programmed next in a region (R470, R474): the oldest in the SRAM ring beyond the newest
programmed; in the pinned region only pinned codes. -/
def nextProg (s : State) (pin : Bool) : Option Rec :=
  if pin then s.recd.ring.find? fun r => decide (r.seq > s.recd.gran.pinSeq) && decide (recSev r ≥ 2)
  else s.recd.ring.find? fun r => decide (r.seq > s.recd.gran.progSeq)

/-- The block into which the next record goes: the one being written while the record fits, else the next erased
one (R470, R471); with it, whether it is newly entered. -/
def progBlock (s : State) (g : GRegion) (r : Rec) : Option (Nat × Bool) :=
  let next := match aheadBlock g with
    | some b => if (blockOf g b).erased then some (b, true) else none
    | none => none
  match g.pos with
  | some b =>
    if !(blockOf g b).retired && (blockOf g b).used + recLen r ≤ s.recd.gran.unit then some (b, false) else next
  | none => next

/-- The PAD record (code 0x098F, SEQ 0) of `n` bytes, none where the shortest record does not fit (R451, R453, R470). -/
def padRec (s : State) (n : Nat) : Option Rec :=
  if n < 36 then none
  else some { seq := 0, code := 0x098F, sevf := at' 5 (b2n s.time.wallOfs.isNone), src := recSrc 0x098F, tns := s.time.tns
              wall := wallOf s, payload := List.replicate (n - 36) 0, done := true }

/-- Program a record at the end of a block; entering a block makes it the newest (R471), and what is left of the block
before it is filled with a PAD record (R470). -/
def putRec (s : State) (b : Nat) (enter : Bool) (r : Rec) (g : GRegion) : GRegion :=
  let fill (g : GRegion) : GRegion := match g.pos with
    | some p => if enter && !(blockOf g p).retired then
        modBlock p (fun x => { x with pad := padRec s (s.recd.gran.unit - x.used) }) g else g
    | none => g
  let g1 := modBlock b (fun x => if enter then { recs := [r], used := recLen r } else
    { x with recs := x.recs ++ [r], used := x.used + recLen r }) (fill g)
  { g1 with pos := some b }

/-- The newest SEQ programmed in a region. -/
def markProg (pin : Bool) (seq : Nat) (s : State) : State :=
  if pin then { s with recd.gran.pinSeq := seq } else { s with recd.gran.progSeq := seq }

/-- Nothing is left to program. -/
def granIdle (s : State) : Bool := (nextProg s false).isNone && (nextProg s true).isNone

/-- The Granary stops responding (R474): U falls. -/
def granLost (s : State) : State :=
  { s with recd.gran.state := .notResp, recd.gran.retryAt := some (s.time.tns + 10 * nsPerSec) }

/-- An operation on a block failed (R474): the block is retired, and with the 16th the Granary is not responding. -/
def granFail (pin : Bool) (b op cs addr : Nat) (s : State) : State :=
  let s1 := setRegion pin (modBlock b (fun x => { x with retired := true, erased := false }) (regionOf s pin)) s
  let s2 := emit 0x0983 (le 1 cs ++ le 1 op ++ le 2 0 ++ le 4 addr)
    { s1 with recd.gran.retired := sat 16 (s.recd.gran.retired + 1) }
  if s2.recd.gran.retired ≥ 16 then granLost s2 else s2

/-- The controller may start an operation (R413, R474). -/
def granOn (s : State) : Bool := granRuns s && !s.recd.gran.refuse

/-- The Granary receives records: at level L4 (R22, R24), for a flush that was asked for (R476, R481), and outside
RUN, where R547 lists it and SLEEP and SHIP entry fill it (DEDUCED, assumption 72). -/
def granTakes (s : State) : Bool :=
  granOn s && (upper s == 4 || s.recd.gran.flush || s.pwr.state != .run)

/-- GRANARY_PROGRAM_DONE (R470, R474): the next record of a region is programmed, or its block fails. -/
def execGranaryProgramDone (pin fail : Bool) (cs addr : Nat) (s : State) : Host.Outcome State Fault Refusal :=
  .next (settle (if !granTakes s then s
    else match nextProg s pin with
      | none => s
      | some r => match progBlock s (regionOf s pin) r with
        | none => s
        | some (b, enter) =>
          if fail then granFail pin b 2 cs addr s
          else
            let wrap := !pin && enter && match (regionOf s pin).pos with
              | some p => decide (b ≤ p)
              | none => false
            let s1 := markProg pin r.seq (setRegion pin (putRec s b enter { r with done := true } (regionOf s pin)) s)
            let s2 := { s1 with recd.gran.wraps := if wrap then sat 32 (s.recd.gran.wraps + 1) else s.recd.gran.wraps }
            { s2 with recd.gran.flush := s2.recd.gran.flush && !granIdle s2 }))

/-- The pinned copies of a block that the host has not acknowledged (R472). -/
def unacked (s : State) (b : GBlock) : List Rec := b.recs.filter fun r => decide (r.seq > s.recd.ack)

/-- Erasing a pinned block with unacknowledged copies is an overflow (R472). -/
def pinOverflow (b : GBlock) (s : State) : State :=
  match (unacked s b).map (·.seq), (unacked s b).getLast? with
  | lo :: _, some r =>
    emit 0x0982 (le 8 lo ++ le 8 r.seq ++ le 4 (unacked s b).length) { s with recd.ovf := sat 16 (s.recd.ovf + 1) }
  | _, _ => s

/-- Pinned cursors that had still to deliver an unacknowledged copy of an erased block have been overrun (R479). -/
def pinOverrun (b : GBlock) (s : State) : State :=
  (List.range 4).foldl (fun s k =>
    let c := Tab.get {} s.recd.cur k
    if c.active && c.scope == 1 && (unacked s b).any (fun r => decide (c.next ≤ r.seq) && !s.recd.ring.contains r) then
      { s with recd.cur := Tab.set {} s.recd.cur k { c with overrun := true, next := scopeOldest s 1 } }
    else s) s

/-- A block is erased: overrun cursors move first (R471, R472, R479). -/
def eraseBlock (pin : Bool) (b : Nat) (s : State) : State :=
  let old := blockOf (regionOf s pin) b
  let s1 := if pin then pinOverflow old s else s
  let s2 := setRegion pin (modBlock b (fun _ => { erased := true }) (regionOf s1 pin)) s1
  if pin then pinOverrun old s2 else curOverrun s2

/-- GRANARY_ERASE_DONE (R471): the erase of the next block ahead of the write position completes, or fails. -/
def execGranaryEraseDone (pin fail : Bool) (cs addr : Nat) (s : State) : Host.Outcome State Fault Refusal :=
  .next (settle (if !granOn s then s
    else
      let g := regionOf s pin
      match (aheadTwo g).find? fun b => !(blockOf g b).erased with
      | none => s
      | some b => if fail then granFail pin b 3 cs addr s else eraseBlock pin b s))

/-- GRANARY_TIMEOUT (R474): an operation exceeds four times its SFDP timeout; the block in use is retired. -/
def execGranaryTimeout (pin : Bool) (cs addr : Nat) (s : State) : Host.Outcome State Fault Refusal :=
  .next (settle (if !granOn s then s
    else
      let g := regionOf s pin
      match (aheadTwo g).find? (fun b => !(blockOf g b).erased), g.pos with
      | some b, _ => granFail pin b 4 cs addr s
      | none, some b => granFail pin b 4 cs addr s
      | none, none => s))

/-- VFL is in regulation. -/
def vflOk (s : State) : Bool := s.pwr.pg.getLsbD 3

/-- GRANARY_RESTART (R474): every 10 s a Granary that does not respond is restarted; with VFL in regulation and an
answer it programs on from the oldest record still in the SRAM ring. -/
def execGranaryRestart (answers : Bool) (s : State) : Host.Outcome State Fault Refusal :=
  .next (settle (match s.recd.gran.retryAt with
    | some t =>
      if s.sys.run.granary && s.recd.gran.state == .notResp && decide (s.time.tns ≥ t) then
        if answers && vflOk s then
          let was := s.recd.gran.progSeq
          let s1 := emit 0x0985 (le 8 was) { s with recd.gran.state := .running, recd.gran.retryAt := none }
          match nextProg s1 false with
          | some r => if r.seq > was + 1 && was > 0 then
              emit 0x0988 (le 8 (was + 1) ++ le 8 (r.seq - 1)) { s1 with recd.gran.progSeq := r.seq - 1 } else s1
          | none => s1
        else { s with recd.gran.retryAt := some (t + 10 * nsPerSec) }
      else s
    | none => s))

/-! ## Commands of the REC window -/

/-- REC_CTRL.CHAFF_CLR clears every Chaff counter and delta (R481). -/
def chaffClear (s : State) : State := { s with recd.chaff := [], recd.delta := [] }

/-- REC_CTRL.FLUSH asks for every unprogrammed record to be programmed (R481). -/
def recFlush (s : State) : State := { s with recd.gran.flush := !granIdle s }

/-- The number of erase blocks in `mib` MiB. -/
def blocksIn (mib unit : Nat) : Nat := if unit = 0 then 0 else mib * 1048576 / unit

/-- Every cursor whose next record is from before a format has been overrun (R479). -/
def formatOverrun (s : State) : State :=
  (List.range 4).foldl (fun s k =>
    let c := Tab.get {} s.recd.cur k
    if c.active && decide (c.next ≤ s.recd.pub) then
      { s with recd.cur := Tab.set {} s.recd.cur k { c with overrun := true, next := s.recd.pub + 1 } }
    else s) s

/-- Both regions start empty with `pin` MiB of pinned region (R470, R473, R475). -/
def granFresh (pin : Nat) (s : State) : State :=
  let g := s.recd.gran
  let np := blocksIn pin g.unit
  let newest := s.recd.pub
  curOverrun { s with
    recd.gran.pinMib := pin
    recd.gran.main := { n := blocksIn g.sizeMib g.unit - np }
    recd.gran.pin := { n := np }
    recd.gran.wraps := 0
    recd.gran.progSeq := newest
    recd.gran.pinSeq := newest }

/-- The Granary is formatted with `pin` MiB of pinned region (R475): records from before are never delivered again, those
in the SRAM ring among them. -/
def granFormat (pin : Nat) (s : State) : State :=
  emit 0x0986 (le 4 s.recd.gran.sizeMib ++ le 4 pin) (formatOverrun (granFresh pin { s with recd.ring := [] }))

/-- REC_CTRL.FORMAT formats the Granary with REC_GRAN_CFG.PIN_MIB (R475). -/
def recFormat (s : State) : State := if granRuns s then granFormat s.recd.pinCfg s else s

/-- The write of REC_PIN_ACK_HI acknowledges every pinned copy up to the value (R472). -/
def pinAck (hi : Word) (s : State) : State :=
  let v := hi.toNat % 65536 * 4294967296 + s.recd.ackLo.toNat
  if v > s.recd.ack then { s with recd.ack := v } else s

/-- A PIN_MIB value may be set (R475): 16 MiB to half the total. -/
def pinMibOk (s : State) (v : Nat) : Bool :=
  decide (16 ≤ v) && (s.recd.gran.sizeMib == 0 || decide (2 * v ≤ s.recd.gran.sizeMib))

/-! ## The recorder starts (R466, R467) -/

/-- The first SEQ and SEQ_RES at start-up step 6 (R467): the larger valid value of the two stores, else 2^47. -/
def seqStart (s : State) : Nat × Bool :=
  let dev := match nvRead s 1 with
    | some (.device r _ _ _ _) => r
    | _ => 0
  let best := max dev (s.nv.tb.seqResHi * 1048576)
  if best = 0 then (140737488355328, true) else (best, false)

/-- The pinned codes that hardware counted before step 6, each once, with their digest entries (R466). -/
def hwCodes (s : State) (ws : List Wait) : List Nat :=
  ws.foldl (fun l w => if waitSev s w ≥ 2 && !l.contains w.ev.code && !exempt w then l ++ [w.ev.code] else l) []

/-- The recorder starts at step 6 (R466, R467): SEQ begins at SEQ_RES, every event counted by hardware joins the
digest, and each pinned code among them becomes one exempt record whose payload is its digest entry. -/
def recStart (s : State) : State :=
  let ws := s.recd.produced
  let q := seqStart s
  let s1 := { s with sys.run.recorder := true, recd.next := q.1, recd.seqRes := q.1
                     recd.produced := [], recd.chaffAt := s.time.tns }
  let cnt := (ws.filter fun w => !exempt w)
  let s2 := cnt.foldl (fun s w => digAdd w.ev.code (waitSev s w) w.ev.tns w.ev.payload s) s1
  let hw := (hwCodes s ws).map fun c =>
    { ev := { code := c, payload := digBytes (c, (Tab.get none s2.recd.dig c).getD {}), tns := s.time.tns }
      hw := true : Wait }
  let s3 := keepRes { s2 with recd.produced := hw ++ ws.filter exempt }
  if q.2 then emit 0x0989 (le 8 q.1) s3 else s3

end Sys2Proof.Machine
end

