-- ==== Sys2Proof/Machine/Reset.lean ====
section
/-! DEFINITION. What a loss of power leaves (R386, R414, R419, R544, R629): the reset of the L die, the core switched
off, and the device off. -/

namespace Sys2Proof.Machine

/-- What the P die keeps of the thermal guard while the core is unpowered (R410, R413, R414): its own sensors and
thresholds, and the restart watch. -/
def thermKeep (t : Therm) : Therm :=
  { sens := t.sens.filter fun e => decide (e.1 ≥ 16)
    warn := t.warn, throt := t.throt, shut := t.shut
    restartCnt := t.restartCnt, preHot := t.preHot, noRestart := t.noRestart, pBlind := t.pBlind }

/-- What the MRAM keeps (R419, R424, R426). -/
def nvKeep (n : Nv) : Nv := { keys := n.keys, tbA := n.tbA, tbB := n.tbB, lg := n.lg, lgTorn := n.lgTorn, objs := n.objs }

/-- What the flash keeps of a region (R470): its blocks; retired ones are used again in the next run (R474). -/
def regionKeep (g : GRegion) : GRegion :=
  { g with blocks := g.blocks.filterMap fun e =>
      let b := { e.2 with retired := false }
      if b = {} then none else some (e.1, b) }

/-- What the flash keeps (R470). -/
def granKeep (g : Gran) : Gran :=
  { pinMib := g.pinMib, main := regionKeep g.main, pin := regionKeep g.pin, unit := g.unit, sizeMib := g.sizeMib }

/-- The running flags that do not need the core: the P die's, and Husk's while VHUSK stays (R544). -/
def runKeep (husk : Bool) (r : Running) : Running :=
  { buck := r.buck, bandgap := r.bandgap, thermP := r.thermP, drivers := r.drivers, wake := r.wake
    husk := husk && r.husk }

/-- What the P die keeps of the supply block and the wake controller (R555, R562, R565). -/
def pwrKeep (p : Pwr) : Pwr :=
  { state := p.state, pfw := p.pfw, armed := p.armed, chg := p.chg, wakeOut := p.wakeOut, wakeOutEnd := p.wakeOutEnd
    pg := p.pg, vhold := p.vhold, vsup := p.vsup, vsupMs := p.vsupMs, pfwCnt := p.pfwCnt, railCnt := p.railCnt
    pfHold := p.pfHold, brown := p.brown, coreAt := p.coreAt, armChg := p.armChg, armBtn := p.armBtn }

/-- The L die loses its state: what remains is the P die's, the MRAM's, the flash's and the OTP's, and Husk with its
configuration and the comparator settings when VHUSK stayed in regulation (`husk`; R215, R544). -/
def lDieReset (husk : Bool) (s : State) : State :=
  let k : State := {
    sys := { run := runKeep husk s.sys.run, cause := s.sys.cause, bootStart := s.sys.bootStart,
             bootUp := s.sys.bootUp, step := 2 }
    img := { slotA := { s.img.slotA with valid := false }, slotB := { s.img.slotB with valid := false } }
    time := { tns := s.time.tns }
    therm := thermKeep s.therm
    nv := nvKeep (lgCut s).nv
    recd := { digStart := s.time.tns, gran := granKeep s.recd.gran }
    sec := { mid := s.sec.mid, devKey := s.sec.devKey }
    pwr := pwrKeep s.pwr
    pins := { testEn := s.pins.testEn, btn := s.pins.btn }
    freeIx := s.freeIx
    pending := s.pending }
  if husk then { k with husk := s.husk, drv := s.drv, cfg := s.cfg, cur := (curStop s).cur } else k

/-- The core buck goes off (R413, R544, R545, R561): the L die's contents are lost. -/
def coreOff (husk : Bool) (s : State) : State :=
  let k := lDieReset husk s
  { k with sys.run.core := false, pwr.pg := if husk then 5 else k.pwr.pg &&& 1 }

/-- The device enters OFF (R541, R549): every rail stops. -/
def deviceOff (s : State) : State :=
  let k := lDieReset false s
  { k with
    sys := { }
    therm := { }
    time := { }
    recd.digStart := 0
    pwr := { brown := s.pwr.state != .ship && (s.pwr.state != .off || s.pwr.brown) } }

end Sys2Proof.Machine
end

