-- ==== Sys2Proof/Machine/Startup.lean ====
section
/-! DEFINITION. Start-up (chapter 3): the steps of R67, the straps, slot selection, and the Sprout status frame. -/

namespace Sys2Proof.Machine

/-! ## Steps 1 to 3 -/

/-- Start-up begins (R67 step 1): the start-up counter runs from here. -/
def startBegin (cause : Nat) (s : State) : State :=
  { bootBegin cause 1 (lDieReset false s) with
    sys.run := { buck := true, bandgap := true, wake := true }
    pwr.state := .run
    pwr.brown := false
    pwr.pfHold := false
    therm.noRestart := false }

/-- VSUP_VALID (R67 step 1, R541, R545): VSUP, in mV, has stayed above V_POR for 1 ms, in OFF or after a power-fail
warning. -/
def execVsupValid (vsup : Nat) (s : State) : Host.Outcome State Fault Refusal :=
  .next (if vsup < 5600 then s
    else if s.pwr.state == .off then settle (startBegin (if s.pwr.brown then 2 else 0) s)
    else if s.pwr.state == .thermOff && s.pwr.pfHold then settle (startBegin 2 s)
    else s)

/-- STARTUP_P_DIE_UP (R67 step 2): VIO is in regulation. -/
def execStartupPDieUp (s : State) : Host.Outcome State Fault Refusal :=
  .next (if s.sys.step = 1 && s.sys.run.buck then
      settle { s with sys.run.thermP := true, sys.run.drivers := true, sys.step := 2, pwr.pg := 1 }
    else s)

/-- A last-gasp slot holds a thermal shutdown or a T0 or T1 trip (R87, R428); the slot of a power-fail warning, which
sets T0 on every string, is one. -/
def lgTrip (x : LgSlot) : Bool := x.code == 0x0280 || x.code == 0x0183 || x.code == 0x0081

/-- The valid last-gasp slots. -/
def lgValid (s : State) : List LgSlot := (List.range 8).filterMap (lgSlot s)

/-- A trip or shutdown slot is newer than every KEY_REARM slot (R428). -/
def lgRearm (s : State) : Bool :=
  (lgValid s).any fun x => lgTrip x &&
    (lgValid s).all fun y => y.code != 0x0389 || serNewer 32 x.seq y.seq

/-- The copy of the time block in force (R424): the newer valid one. -/
def tbPick (s : State) : Option TimeBlk := match s.nv.tbA, s.nv.tbB with
  | none, none => none
  | some a, none => some a
  | none, some b => some b
  | some a, some b => if serNewer 32 b.seq a.seq then some b else some a

/-- TNS is restored at L-die reset release (R386, R425). Events counted before TNS ran carry the value it takes
(R465). -/
def tnsRestore (s : State) : State :=
  let up := bootNs s
  let put (t : Nat) (s : State) : State := { s with
    time.tns := t
    sys.bootStart := t
    sys.bootUp := up
    recd.digStart := t
    recd.produced := s.recd.produced.map fun w => { w with ev.tns := t } }
  match tbPick s with
  | some b => put (b.tnsSave + 16 * nsPerSec) { s with nv.tb := b }
  | none =>
    let b : TimeBlk := { seq := 1, shutCnt := 65535, hold := true }
    emit 0x0106 [] (put 0 { s with nv.tb := b, nv.tbA := some b, nv.tbB := some b, nv.tbLost := true })

/-- PFW_LEVEL is read (R542): a level above 5.8 V waits until it is armed. -/
def pfwRead (s : State) : State := { s with pwr.pfw := 0, pwr.armed := s.nv.keys.pfwLevel == 0 }

/-- The L-die reset is released (R67 step 3): the key region, the time block and the last-gasp ring are read by
hardware, and the seal loop is compared with its stored state. The sampling of KEY starts: while it is not qualified
active it counts as inactive (R87, R214; DEDUCED, assumption 68). `keyOk`, `aOk`, `bOk`: a bank of the key material and
the two copies of the time block can be read; `sealOpen`: the loop is found open. -/
def coreUp (keyOk aOk bOk sealOpen : Bool) (s : State) : State :=
  let ws := s.recd.produced
  let s0 := lDieReset s.sys.run.husk s
  let s1 := { s0 with
    sys.run := { s0.sys.run with core := true, trust := true, thermL := true, margin := true }
    sys.step := 3
    sys.lateStep := s.sys.lateStep
    therm.warn := 12000
    therm.throt := 13000
    therm.shut := 14500
    therm.restartCnt := 0
    pwr.pg := 31
    pwr.vcore := 2
    recd.produced := ws
    nv.tbA := if aOk then s.nv.tbA else none
    nv.tbB := if bOk then s.nv.tbB else none }
  let s2 := tnsRestore s1
  let s3 := if keyOk then s2 else keyRegionLost s2
  let s4 := { s3 with
    sys.keyRearm := lgRearm s3
    sec.ignore := s3.pins.btn
    drv.keyOffAt := if s3.drv.key then none else some s3.time.tns }
  sealCheck sealOpen (pfwRead s4)

/-- STARTUP_CORE_UP (R67 step 3): VCORE is at 0.80 V. Start-up does not pass step 2 while the restart watch holds it
(R413). -/
def execStartupCoreUp (keyOk aOk bOk sealOpen : Bool) (s : State) : Host.Outcome State Fault Refusal :=
  .next (if s.sys.step = 2 && s.pwr.state == .run && !s.sys.run.core && s.pwr.pg.getLsbD 0 && !s.therm.preHot &&
      s.sys.run.drivers && s.pwr.coreAt.isNone then
      settle (coreUp keyOk aOk bOk sealOpen s)
    else s)

/-- STRAP_LATCH (R70, R210, R521, R608): three samples of CHEM and of PRES_STRAP (`true` reads 1), 1 ms apart from L-die
reset release. The limits entries are those of Sprout for the CHEM latched until an image is selected. -/
def execStrapLatch (c0 c1 c2 : BitVec 2) (_ _ p2 : Bool) (s : State) : Host.Outcome State Fault Refusal :=
  .next (if 3 ≤ s.sys.step && !s.sys.strapped then
      let same := c0 == c1 && c1 == c2
      let low := !p2
      let s1 := { s with
        sys.strapped := true
        sys.chem := if same then c2.toNat else 3
        sys.chemUnstable := !same
        sys.presStrap := low
        sec.strapLow := low }
      let s2 := emitIf (!same) 0x0784 (le 1 c0.toNat ++ le 1 c1.toNat ++ le 1 c2.toNat ++ le 1 0) s1
      let s3 := { s2 with husk.net.limits := startLimits s2 }
      settle (if low then presStart 2 28800 s3 else s3)
    else s)

/-! ## Step 4: slot selection (R63, R68, R73 to R75) -/

/-- What the loader finds in a slot. -/
structure SlotFind where
  /-- the slot passes checks 1 to 3 of the validation order -/
  head : Bool
  /-- its whole-image CRC matches -/
  crc : Bool
  deriving DecidableEq, Repr

/-- The checks of R63 on a slot. -/
def slotFind (v : Slot) : SlotFind :=
  { head := !v.bytes.isEmpty && (headFail v.bytes (imgLen v.bytes)).isNone
    crc := !v.torn && (imgCrc v.bytes).toNat == fld v.bytes 32 4 }

/-- Slot `x` is read (R63): a candidate is marked valid; a slot with a good header that fails its CRC, or cannot be
read (`ok`), is recorded. -/
def slotRead (x : ImgSrc) (ok : Bool) (s : State) : State :=
  let v := slotOf s x
  let f := slotFind v
  let s1 := setSlot x { v with valid := f.head && f.crc && ok } s
  emitIf (f.head && !(f.crc && ok)) 0x078E (le 2 0 ++ le 1 (slotNum x) ++ le 1 (if ok then 1 else 2)) s1

/-- The candidates in the order in which the loader tries them (R63, R73). -/
def slotOrder (s : State) : List ImgSrc :=
  match s.img.slotA.valid, s.img.slotB.valid with
  | true, true => [newerSlot s, otherSlot (newerSlot s)]
  | true, false => [.slotA]
  | false, true => [.slotB]
  | false, false => []

/-- A candidate whose section cannot be read intact as it loads is abandoned for this start-up (R73): the section's
type and the cause, 2 ECC or 3 section CRC. -/
def slotAbandon (x : ImgSrc) (f : Nat × Nat) (s : State) : State :=
  emit 0x078E (le 2 f.1 ++ le 1 (slotNum x) ++ le 1 f.2) (setSlot x { slotOf s x with valid := false } s)

/-- The loader tries the candidates in order: the image it runs, Sprout with none. -/
def slotTry (bad : ImgSrc → Option (Nat × Nat)) : List ImgSrc → State → ImgSrc × State
  | [], s => (.sprout, s)
  | x :: xs, s => match bad x with
    | none => (x, s)
    | some f => slotTry bad xs (slotAbandon x f s)

/-- The sections of the selected image load (R67 step 4). LIMIT_SAVE is written for an image of a slot (R62, R78). -/
def imgLoad (x : ImgSrc) (netOk romOk : Bool) (s0 : State) : State :=
  let s := { s0 with img.active := x, sys.src := x, img.selected := true }
  let b := (slotOf s x).bytes
  let c := if x = .sprout then sproutCfg s else imgCfg s b
  let mode := modeFrom x c
  let s1 := thermApply (if x = .sprout then thermBody else sect b 11)
    { s with cfg := c, sys.mode := mode, sys.modeForce := mode, sys.run.husk := true }
  let net := if x = .sprout then sproutNet s.sys.chem c.topo c.basis else readHusk (sect b 3)
  let s2 := if netOk then loadNet net .image s1
    else if romOk then loadNet (romNetlist (if x = .sprout then startLimits s else net.limits)) .rom s1
    else emit 0x0283 [] { s1 with evt.s3NoNet := true }
  if x = .sprout then s2 else nvQueue 3 s2

/-- The host link has a port that can run (R484, R486). -/
def hostMay (s : State) : Bool :=
  decide (s.cfg.host.ports % 8 ≠ 0) && (s.host.can != .off || decide (s.cfg.host.ports % 8 ≠ 2))

/-- REC and HOST apply, and the host link runs where a port is enabled (R67 step 6). -/
def linkLoad (s : State) : State :=
  let s1 := canFollow (mapsLoad (recApply s))
  { s1 with sys.run.hostLink := hostMay s1 }

/-- STARTUP_IMAGE_SELECT (R67 step 4): both slots are checked, an image is selected and its sections load. `aOk` and
`bOk`: the slot can be read; `fa` and `fb`: a section of it that cannot be read intact as it loads, with the cause;
`netOk` and `romOk`: the netlist of the selected image, and the ROM fallback, can be loaded. Where the steward has booted before the selection, REC and HOST load with it. -/
def execStartupImageSelect (aOk bOk : Bool) (fa fb : Option (Nat × Nat)) (netOk romOk : Bool) (s : State) :
    Host.Outcome State Fault Refusal :=
  .next (if 3 ≤ s.sys.step && s.sys.strapped && !s.img.selected then
      let s1 := slotRead .slotB bOk (slotRead .slotA aOk s)
      let (x, s2) := slotTry (fun x => if x = .slotA then fa else fb) (slotOrder s1) s1
      let s3 := if x = .sprout then emit 0x078D [] { s2 with img.fallback := true } else s2
      let s4 := imgLoad x netOk romOk s3
      settle (if s4.sys.run.steward then linkLoad { s4 with sys.step := max 4 s4.sys.step, sys.keyAt4 := s4.drv.key }
        else { s4 with sys.step := max 4 s4.sys.step, sys.keyAt4 := s4.drv.key })
    else s)

/-! ## Step 5 -/

/-- A bank that holds something and fails its check is bad. -/
def badBank (s : State) (e : Nat × Bool) : State :=
  match (nvObj s e.1).a.body, (nvObj s e.1).b.body, e.2 with
  | some _, _, false => nvBankBad e.1 false s
  | _, some _, true => nvBankBad e.1 true s
  | _, _, _ => s

/-- Banks of NV objects that a read finds unreadable (R421): the object and whether it is bank B. -/
def badBanks (bad : List (Nat × Bool)) (s : State) : State :=
  bad.foldl badBank s

/-- CUR_CAL is loaded, or every channel takes its reset values and every configured string is recorded as uncalibrated
(R168). -/
def curCalLoad (s : State) : State :=
  match nvRead s 4 with
  | some (.curCal l) => (l.zipIdx).foldl (fun s e => modCh s e.2 fun c =>
      { c with inv := e.1.1, en := e.1.2.1, fs := e.1.2.2.1, ofs := e.1.2.2.2 }) s
  | _ =>
    let s1 := (List.range 8).foldl (fun s n => modCh s n fun c =>
      { c with inv := false, en := true, fs := 500000, ofs := 0 }) s
    (strings s1).foldl (fun s i => emit 0x0300 (le 1 i ++ le 3 0) s i) { s1 with cur.uncal := true }

/-- STARTUP_RINGS (R67 step 5, R168, R382): the rings have enumerated, TREF is trimmed, and locked when a crystal is
found (`xtal`); the current channels start, and run once their comparators have passed the check that starts with them. The first frame begins with the next FRAME_BOUNDARY. -/
def execStartupRings (xtal : Bool) (bad : List (Nat × Bool)) (s : State) : Host.Outcome State Fault Refusal :=
  .next (if s.sys.run.core && s.img.selected && !s.sys.run.timebase && !s.time.trefBad && ringsSettled s then
      let s1 := allThresholds (curCalLoad (badBanks bad s))
      settle (cmpTest (curStart { s1 with
        time.xtal := xtal
        time.xtalLock := xtal
        sys.run.timebase := true
        sys.run.acq := true
        sys.step := max 5 s1.sys.step
        acq.decAt := s1.time.tns
        acq.patrolAt := s1.time.tns }))
    else s)

/-! ## Step 6 -/

/-- Failures of start-up or wake BIST (R571, R572, R576): target, first failing address, bit, and failing compares. -/
def bootTest (fs : List (Nat × Nat × Nat × Nat)) (s : State) : State :=
  fs.foldl (fun s f =>
    emit 0x0B01 (le 4 f.2.1 ++ le 1 f.1 ++ le 1 f.2.2.1 ++ le 2 0 ++ le 4 (sat 16 f.2.2.2))
      { s with bist.boot := s.bist.boot ||| BitVec.ofNat 6 (2 ^ f.1) }) s

/-- A section that cannot be read intact in step 6 or 7 (R74): its type and the cause, 2 ECC or 3 section CRC, 0 for
none. Sprout's sections are in ROM. -/
def sectLost (ty cause : Nat) (s : State) : State :=
  if cause = 0 || s.img.active == .sprout then s
  else emit 0x078F (le 2 ty ++ le 1 cause ++ le 1 0) { s with sys.sectFail := true }

/-- Section `ty` loads, or is lost. -/
def sectOk (cause : Nat) (s : State) : Bool := cause == 0 || s.img.active == .sprout

/-- The steward boots (R12): its patches are applied, or it runs unpatched. -/
def stewardBoot (s : State) : State :=
  let s1 := { s with sys.run.steward := true }
  emitIf (nvRead s1 8).isNone 0x0782 [] s1

/-- The fields of DEVICE (R429). -/
def deviceLoad (s : State) : State := match nvRead s 1 with
  | some (.device _ lg pin sleep snid) =>
    { s with recd.lgDone := lg, recd.pinCfg := pin, pwr.autoSleep := sleep, host.lastSnid := snid }
  | _ => s

/-- What a steward's boot starts beside itself (R11, R504): REC and HOST with the host link, and BIST. -/
def stewardStarts (s : State) : State :=
  linkLoad { s with sys.run.sram := true, sys.run.bist := true, host.reqAt := s.time.tns }

/-- STARTUP_STEWARD (R67 step 6): once step 3 is done the steward boots, the low SRAM is tested, REC and HOST load, and
the host link and the recorder start. `recBad` and `hostBad`: the cause where the section cannot be read intact. Until
an image is selected the Sprout sections stand in. -/
def execStartupSteward (bad : List (Nat × Bool)) (recBad hostBad : Nat) (tests : List (Nat × Nat × Nat × Nat)) (s : State) :
    Host.Outcome State Fault Refusal :=
  .next (if s.sys.run.core && decide (3 ≤ s.sys.step) && !s.sys.run.steward && !s.evt.stewHeld then
      let s1 := bootTest tests (stewardBoot (badBanks bad s))
      let s2 := sectLost 10 hostBad (sectLost 9 recBad s1)
      let s3 := { s2 with
        cfg.recd := if sectOk recBad s2 then s2.cfg.recd else sproutRec
        cfg.host := if sectOk hostBad s2 && s2.img.selected then s2.cfg.host else sproutHost }
      let s4 := stewardStarts (deviceLoad s3)
      settle (recStart { s4 with sys.step := max 6 s4.sys.step })
    else s)

/-! ## Step 7 -/

/-- The records, tables and bins of the NV store, in its order (R430 to R432). -/
def nvAssociate (s : State) : State :=
  let recs : Tab CellRec := match nvRead s 6 with
    | some (.cellRec r) => r
    | _ => []
  let tab (i : Nat) : Option (Tab ZEntry) := match nvRead s (0x100 + i) with
    | some (.ztab es) => some es
    | _ => none
  let hist (i : Nat) : TCell × WCell := match nvRead s 7 with
    | some (.tally t) => ({ life := ((Tab.get [] t i).zipIdx).foldl (fun t v => Tab.set 0 t v.2 v.1) [] }, {})
    | _ => ({}, {})
  emitIf (nvRead s 7).isNone 0x0680 [] (reassociate recs tab hist s)

/-- The models load and the lanes start from the NV last state (R67 step 7, R74, R267, R339, R363). -/
def modelsLoad (kprog ktab est win : Nat) (s : State) : State :=
  let s1 := sectLost 8 win (sectLost 7 est (sectLost 6 ktab (sectLost 5 kprog s)))
  let s2 := nvAssociate { s1 with sys.winBad := !sectOk win s1 }
  if sectOk kprog s && sectOk ktab s && sectOk est s then
    evenRule (bits (modeSoon s) 17 16) (cellsStart { s2 with
      krn.cells := [], est.cells := []
      sys.run.kernel := true, sys.run.checker := true
      pairs.q := (List.range 16).foldl (fun t q => Tab.set {} t q { split := s.sys.modeForce.getLsbD q }) []
      pairs.assign := [], pairs.stale := []
      krn.lanes := [] })
  else s2

/-- Step 5 is done; a timebase that has failed since leaves it so (R67, R383). -/
def stepDone5 (s : State) : Bool := s.sys.run.timebase || s.time.trefBad

/-- STARTUP_ESTIMATE (R67 step 7): once steps 5 and 6 are done. `kprog`, `ktab`, `est`, `win`: the cause where that
section cannot be read intact. -/
def execStartupEstimate (bad : List (Nat × Bool)) (kprog ktab est win : Nat) (tests : List (Nat × Nat × Nat × Nat))
    (s : State) : Host.Outcome State Fault Refusal :=
  .next (if stepDone5 s && s.sys.run.steward && decide (s.sys.step < 7) then
      settle { modelsLoad kprog ktab est win (bootTest tests (badBanks bad s)) with sys.step := 7 }
    else s)

/-! ## Step 8 -/

/-- Insert a slot in SLOT_SEQ order. -/
def lgInsert (x : LgSlot) : List LgSlot → List LgSlot
  | [] => [x]
  | y :: ys => if serNewer 32 x.seq y.seq then y :: lgInsert x ys else x :: y :: ys

/-- A last-gasp slot is handed to the recorder (R428, R454). -/
def lgPublish (s : State) (x : LgSlot) : State :=
  let ix := if x.code = 0x0280 then fld x.payload 6 1 else 0
  produce { ev := { code := x.code, payload := x.payload, tns := s.time.tns, ix := ix }
            lg := some (x.seq, x.tns, x.wall), dig := s.recd.phases != 0 }
    (raiseSrc (eventSource x.code ix) s)

/-- The slots newer than LG_DONE are published in SLOT_SEQ order, and DEVICE is written with the newest (R428). -/
def lgPublishAll (s : State) : State :=
  let xs := ((lgValid s).filter fun x => serNewer 32 x.seq s.recd.lgDone).foldr lgInsert []
  match xs.getLast? with
  | none => s
  | some x => nvQueue 1 { xs.foldl lgPublish s with recd.lgDone := x.seq }

/-- The newest SEQ of this Granary. -/
def granNewest (g : Gran) : Nat :=
  ((regionRecs g.main ++ regionRecs g.pin).map (·.seq)).foldl max 0

/-- The Granary controller starts (R429, R468, R473, R474): the chip selects that answered, the total in MiB and the erase
unit that SFDP gives. -/
def granStart (cs mib unit : Nat) (s : State) : State :=
  if cs = 0 then
    emit 0x0984 (le 1 0 ++ le 3 0) { s with sys.run.granary := true, recd.gran.state := .absent, recd.gran.cs := 0 }
  else
    let old := s.recd.gran
    let s1 := { s with
      sys.run.granary := true
      recd.gran.state := .running
      recd.gran.foreign := false
      recd.gran.cs := cs
      recd.gran.sizeMib := mib
      recd.gran.unit := unit }
    let newest := granNewest old
    let fresh := newest = 0 || old.sizeMib ≠ mib || old.unit ≠ unit
    let s2 := if !fresh && decide (newest > s.recd.seqRes) then
        emit 0x0987 (le 8 newest) { s1 with recd.gran.foreign := true } else s1
    if (nvRead s 1).isNone then granFormat 64 s2
    else if fresh || s2.recd.gran.foreign then granFresh s.recd.pinCfg s2
    else { s2 with
      recd.gran.progSeq := ((regionRecs old.main).map (·.seq)).foldl max old.progSeq
      recd.gran.pinSeq := ((regionRecs old.pin).map (·.seq)).foldl max old.pinSeq }

/-- What step 8 starts (R67): Winnow, the Tally engine, the ledger, the NV store and the Granary. After a steward reset
the ledger keeps its counters, which the reset leaves as they stand (R435, R629), and checkpoints them. -/
def fullStart (cs mib unit : Nat) (s : State) : State :=
  let s1 := { s with
    sys.run.winnow := !s.sys.winBad && s.sys.run.timebase
    sys.run.tally := s.sys.run.timebase
    sys.run.nv := true
    sys.run.ledger := s.sys.run.timebase
    bist.bgAt := s.time.tns
    ledg.gapAt := s.time.tns
    tally.at0 := none }
  let s2 := if s.recd.phases.getLsbD 0 then ledgStart s1 else checkpoint s1
  nvStart (granStart cs mib unit s2)

/-- STARTUP_FULL (R67 step 8): the chip selects of the Granary that answer, its total in MiB and its erase unit. The
recorder leaves digest mode. -/
def execStartupFull (bad : List (Nat × Bool)) (cs mib unit : Nat) (s : State) : Host.Outcome State Fault Refusal :=
  .next (if s.sys.step = 7 && s.sys.run.steward then
      let s1 := lgPublishAll (fullStart cs mib unit (badBanks bad s))
      settle (phaseEnd 4 (phaseEnd 1 { s1 with sys.step := 8 }))
    else s)

/-! ## Bounds and the Sprout status frame -/

/-- The bound of a start-up step in ns (R67). Step 4 has the 10 ms of the table, also when both fallbacks of R73 are taken
on the way, which may then take 16 ms (the table and R73 differ; DESIGN CHOICE, assumption 69). -/
def stepBound (k : Nat) : Nat :=
  if k = 2 then 2000000 else if k = 3 then 5000000 else if k = 4 then 10000000 else if k = 5 then 60000000
  else if k = 6 then 120000000 else if k = 7 then 200000000 else 300000000

/-- Start-up step `k` is done; steps 4 and 5 run in parallel with step 6. -/
def stepDone (s : State) (k : Nat) : Bool :=
  if k = 4 then s.img.selected else if k = 5 then stepDone5 s || decide (7 ≤ s.sys.step)
  else if k = 6 then s.sys.run.steward else decide (k ≤ s.sys.step)

/-- STARTUP_LATE (R69): step `k` misses its bound; the first late step is recorded. -/
def execStartupLate (k : Nat) (s : State) : Host.Outcome State Fault Refusal :=
  .next (if 2 ≤ k && k ≤ 8 && decide (1 ≤ s.sys.step) && s.sys.lateStep = 0 && !stepDone s k &&
      decide (bootNs s ≥ stepBound k) then
      settle (emit 0x0783 (le 4 k) { s with sys.lateStep := k })
    else s)

/-- The 12 bytes of string `i` in the Sprout status frame (R83). What the frame carries for an aggregate with no
contributor the spec does not say: a free value (assumption 70). -/
def statusString (s : State) (i : Nat) : List Byte :=
  let a := aggOf s i
  let v (k : Nat) (x : Option Int) : Int := x.getD (Config.statusNone k).toNat
  leI 2 (v 0 a.vLo) ++ leI 2 (v 1 a.vHi) ++ leI 2 (v 2 a.tHi) ++ leI 4 (curStr s i).iS ++
    le 2 (bits (eStr s i).socReg 15 0)

/-- The payload of the Sprout status frame (R83). SoC is valid where SOC_VALID of the string's register is set
(R314). -/
def statusBody (s : State) : List Byte :=
  le 4 s.sys.frmSum.toNat ++ le 1 (devLevel s) ++ le 1 (upper s) ++
    le 2 (mask4 (closed s) + 16 * mask4 (anyLatch s)) ++ (List.range 4).flatMap (statusString s) ++
    le 4 (mask4 (configured s) + 16 * mask4 fun i => configured s i && bits (eStr s i).socReg 22 22 == 1) ++ le 4 0

/-- SPROUT_STATUS_FRAME (R83): every 100 ms on CAN FD, under Sprout with a NODE assigned. -/
def execSproutStatusFrame (s : State) : Host.Outcome State Fault Refusal :=
  let due := match s.host.statAt with
    | none => true
    | some t => decide (since s t ≥ 100000000)
  .next (if sproutRuns s && mayTalk s .can && due then
      settlePins (txPush .can { cls := 6, op := 0, body := statusBody s } { s with host.statAt := some s.time.tns })
    else s)

end Sys2Proof.Machine
end

