-- ==== Sys2Proof/Machine/Power.lean ====
section
/-! DEFINITION. Supply and power states (chapter 19): VSUP and the rails, the shutdown that a thermal shutdown and a
power-fail warning share (R413), STANDBY, SLEEP, SHIP, and the sleep patrol (R158). -/

namespace Sys2Proof.Machine

/-! ## Acquisition stops and starts again -/

/-- FRM advances by one (R387): each wrap is recorded. -/
def frmNext (s : State) : State :=
  let s1 := { s with time.frm := s.time.frm + 1 }
  if s1.time.frm = 0 then emit 0x0104 (le 4 (s.evt.wraps + 1)) { s1 with evt.wraps := s.evt.wraps + 1 } else s1

/-- COMMAND with SLEEP (`flag` 4) or SHIP (8) goes to every node of ring `r` (R102, R124): balancing stops and the ring
sleeps. A ring that sleeps already is woken to be sent SHIP (R558 step 3 sends it to every node; DEDUCED,
assumption 77). -/
def ringSleep (flag r : Nat) (s : State) : State :=
  let x := ringOf s r
  if x.state == .off || x.state == .failed || x.state == .sleeping && flag != 8 then s
  else
    commandOut r (x.nodes.flatMap fun pn => le 1 pn.1 ++ le 1 flag ++ le 2 0) (modRing s r fun x =>
      { x with
        state := .sleeping
        collected := false
        nodes := x.nodes.map fun pn => (pn.1, { pn.2 with bal := 0, rxA := none, rxB := none, chalOut := false }) })

/-- Acquisition stops (R550, R551): no frame is open, and what needs frames stops. In STANDBY Winnow, the Tally engine and
the ledger stop too (R547). -/
def framesStop (s : State) : State :=
  let stay := s.pwr.state == .sleepEntry
  dbgEnd 3 { winDiscard s with
    sys.run.acq := false
    sys.run.kernel := false
    sys.run.checker := false
    sys.run.winnow := stay && s.sys.run.winnow
    sys.run.tally := stay && s.sys.run.tally
    sys.run.ledger := stay && s.sys.run.ledger
    sys.frameOpen := false
    sys.commitDue := false
    krn.lanes := []
    win.str := []
    win.offers := [] }

/-- Acquisition stops and the rings sleep (R550, R551). -/
def stopAcq (s : State) : State := framesStop (ringSleep 4 1 (ringSleep 4 0 s))

/-- The timebase stops counting as running (R383), and with it what needs it (R11): the current channels, the
acquisition scheduler and, through these two, Winnow, the Tally engine and the ledger. -/
def timebaseStops (s : State) : State :=
  curStop (winDiscard { s with
    time.trefBad := true
    sys.run := { s.sys.run with timebase := false, acq := false, winnow := false, tally := false, ledger := false }
    sys.frameOpen := false
    sys.commitDue := false
    krn.lanes := []
    win.str := []
    win.offers := [] })

/-- A comparison of TREF with the P-die oscillator, `d` in ppm, without a crystal (R383): three in a row beyond 5 % are
TIME_TREF_FAULT. In SLEEP TREF stands. -/
def trefStep (s : State) (d : Int) : State :=
  if s.time.xtal || !s.sys.run.timebase || s.pwr.state == .sleep then s
  else
    let n := devRun (decide (absI d > 50000)) s.time.trefRun
    if n ≥ 3 then emit 0x0101 (leI 4 d) (timebaseStops { s with time.trefRun := 0 })
    else { s with time.trefRun := n }

/-- TREF_FAULT (R383): the comparisons `devs` of TREF with the P-die oscillator are taken, and the third in a row beyond 5 %
stops the timebase. -/
def execTrefFault (devs : List Int) (s : State) : Host.Outcome State Fault Refusal :=
  .next (settle (devs.foldl trefStep s))

/-- WAKE goes out on both rings (R554 step 2). A ring that had not finished its enumeration enumerates. -/
def ringsWake (s : State) : State :=
  [0, 1].foldl (fun s r =>
    if (ringOf s r).state == .sleeping then
      modRing s r fun x => { x with state := .waking, enumReq := x.enumReq || !x.inService }
    else s) s

/-- An exit from SLEEP or STANDBY is counted with its cause (R565). -/
def pwrExit (cause : Nat) (s : State) : State :=
  { s with pwr.cause := cause, pwr.count := sat 16 (s.pwr.count + 1), pwr.wakeLate := none }

/-- The device leaves STANDBY (R549, R550): steps 2, 4 and 5 of the wake sequence run. -/
def leaveStandby (cause : Nat) (s : State) : State :=
  if s.pwr.state != .standby then s
  else
    let s1 := if s.sys.run.acq then stopAcq s else s
    ringsWake (pwrExit cause { s1 with pwr.state := .leaving, pwr.step := 2, pwr.wakeDone := 2 })

/-- A wake from SLEEP starts (R554 step 1, R555): VCORE rises, and WAKE_OUT is asserted for causes 7 and 8. -/
def wakeStart (cause : Nat) (s : State) : State :=
  let out := cause == 7 || cause == 8
  pwrExit cause { s with
    pwr.state := .waking
    pwr.step := 1
    pwr.wakeDone := 0
    pwr.vcore := 2
    pwr.wakeOut := out || s.pwr.wakeOut
    pwr.wakeOutEnd := if out then some (s.time.tns + 600 * nsPerSec) else s.pwr.wakeOutEnd }

/-- A sample of KEY taken at the instant `t` (R241): qualified active leaves STANDBY (R549), and a chatter of 2,000 samples
is recorded. -/
def keySample (v : Bool) (t : Nat) (s : State) : State :=
  let s1 := keyNote v s
  let s2 := if !keyQualifies v s1 then s1
    else if v then leaveStandby 2 (keyTake v t s1) else keyTake v t s1
  emitIf (decide (s1.drv.chatTime = 2000)) 0x0388 (le 1 1 ++ le 3 0) s2

/-- Samples of KEY, 1 ms apart, oldest first, of which the last is taken now. -/
def keySamples (vs : List Bool) (s : State) : State :=
  match vs with
  | [] => s
  | v :: vs => keySamples vs (keySample v (s.time.tns - vs.length * 1000000) s)

/-- KEY_QUALIFY (R241): samples of KEY, of which one changes its qualified value. Each is assessed in turn. -/
def execKeyQualify (samples : List Bool) (s : State) : Host.Outcome State Fault Refusal :=
  .next (settle (if s.sys.run.buck then keySamples samples s else s))

/-- INPUT_CHATTER (R241): samples of KEY, of which one is the 2,000th of a chatter. Each is assessed in turn. -/
def execInputChatter (samples : List Bool) (s : State) : Host.Outcome State Fault Refusal :=
  .next (settle (if s.sys.run.buck then keySamples samples s else s))

/-- CHG_DET_QUALIFY (R553, R610): CHG_DET has read the same, active for `true`, for `ns` nanoseconds. It is qualified
active after 50 ms and inactive after three samples 1 ms apart; active leaves STANDBY (R549). -/
def execChgDetQualify (active : Bool) (ns : Nat) (s : State) : Host.Outcome State Fault Refusal :=
  .next (if !s.sys.run.wake || active == s.pwr.chg || ns < (if active then 50000000 else 2000000) then s
    else
      let s1 := { s with pwr.chg := active }
      settle (if active then leaveStandby 3 s1 else s1))

/-- TEST_EN_CHANGE (R604): while TEST_EN reads high, G_s is 0 for every string. -/
def execTestEnChange (high : Bool) (s : State) : Host.Outcome State Fault Refusal :=
  .next (settle { s with pins.testEn := high })

/-! ## VSUP -/

/-- The V_PFW threshold of a level, mV (R541). -/
def pfwMv (level : Nat) : Nat := if level = 0 then 5800 else if level = 1 then 9000 else if level = 2 then 16000 else 20000

/-- BROWN_OUT (R541, R559): VSUP, in mV, has been below V_BO for 10 us. -/
def execBrownOut (vsup : Nat) (s : State) : Host.Outcome State Fault Refusal :=
  .next (if vsup < 5000 && s.pwr.state != .off then
      settle { deviceOff s with pwr.vhold := 0, pwr.vsup := 0 }
    else s)

/-- PFW_ARM (R542): VSUP, in mV, has stayed above the configured level by 1 V or more for 10 ms. -/
def execPfwArm (vsup : Nat) (s : State) : Host.Outcome State Fault Refusal :=
  let l := s.nv.keys.pfwLevel
  .next (if s.sys.run.core && !s.pwr.armed && decide (vsup ≥ pfwMv l + 1000) then
      { s with pwr.pfw := l, pwr.armed := true }
    else s)

/-! ## The shutdown of R413 -/

/-- Entry to SHIP is abandoned (R560). -/
def shipAbandon (s : State) : State :=
  if s.pwr.state == .shipEntry then { s with pwr.state := .run, pwr.step := 0 } else s

/-- Step 1 (R413): T0 of every configured string is set in both copies, and new MRAM and Granary operations are
refused. The shutdown writes one last-gasp record, its own. -/
def shutBegin (src : Nat) (s : State) : State :=
  let s1 := tripAll 0 src (shipAbandon s)
  { s1 with
    nv.lgWait := s.nv.lgWait
    nv.refuse := true
    recd.gran.refuse := true
    evt.s3Shut := true
    therm.shutStep := 1
    pwr.quiet := s.pwr.state == .sleep }

/-- A shutdown may start (R413, R546): none runs, and the device is powered. -/
def shutMay (s : State) : Bool :=
  s.therm.shutStep == 0 && s.pwr.state != .off && s.pwr.state != .ship && s.pwr.state != .thermOff

/-- THERMAL_SHUTDOWN (R411, R413): the last measurement found SHUT crossed. -/
def execThermalShutdown (s : State) : Host.Outcome State Fault Refusal :=
  .next (if s.therm.shutHit && s.sys.run.core && shutMay s then
      settle { shutBegin 0xF02 s with therm.lastSensor := (s.therm.hi.getD (0, 0)).2, pwr.pfVsup := none }
    else s)

/-- The P die holds the device off until VSUP rises again (R545). -/
def pfOff (s : State) : State :=
  let k := coreOff false s
  { k with pwr.state := .thermOff, pwr.pfHold := true, pwr.brown := true, pwr.coreAt := none }

/-- A qualified power-fail warning (R545, R546), with VSUP in mV. With the core unpowered the P die holds at once. -/
def powerFail (vsup : Int) (s : State) : State :=
  if !shutMay s then s
  else
    let s1 := { s with pwr.pfwCnt := sat 16 (s.pwr.pfwCnt + 1) }
    if s.sys.run.core then { shutBegin 0xF03 s1 with pwr.pfVsup := some vsup } else pfOff s1

/-- POWER_FAIL_WARNING (R541, R545, R615): VSUP, in mV, has been below the level in force for 20 us. The 5.8 V level warns
only on a falling crossing (`fell`) after VSUP has been above it for 1 ms. -/
def execPowerFailWarning (vsup : Nat) (fell : Bool) (s : State) : Host.Outcome State Fault Refusal :=
  .next (if decide (vsup < pfwMv s.pwr.pfw) && (fell || s.pwr.pfw != 0) then settle (powerFail vsup s) else s)

/-- OVERVOLTAGE (R541): VSUP, in mV, has been above V_OV for 10 us; the ideal diode opens. -/
def execOvervoltage (vsup : Nat) (s : State) : Host.Outcome State Fault Refusal :=
  .next (if vsup > 61000 then settle (powerFail vsup s) else s)

/-- The shutdown counts in the time block, and a third within 3,600 s of TNS enters thermal hold (R415). -/
def shutCount (s : State) : State :=
  let t := s.time.tns
  let l := (t :: s.nv.tb.shut).take 3
  let hour := l.length == 3 && decide (t - l.getD 2 0 ≤ 3600 * nsPerSec)
  { s with
    nv.tb := { s.nv.tb with shut := l, shutCnt := sat 16 (s.nv.tb.shutCnt + 1), hold := s.nv.tb.hold || hour }
    therm.holdNew := hour && !s.nv.tb.hold }

/-- The shutdown record (R413, R545, R587). -/
def shutRecord (s : State) : State :=
  match s.pwr.pfVsup with
  | some v => lgRequest 0x0081 (leI 4 v ++ le 1 s.pwr.pfw ++ le 3 0) s
  | none =>
    let h := s.therm.hi.getD (0, 0)
    let s1 := shutCount s
    lgRequest 0x0183 (leI 4 h.1 ++ le 1 h.2 ++ le 1 (b2n (sensor s h.2).subst) ++ le 2 0 ++ le 8 s.time.tns ++
      le 4 s1.nv.tb.shutCnt) s1

/-- Every waiting last-gasp slot is written. -/
def lgWriteAll : Nat → State → State
  | 0, s => s
  | n + 1, s => lgWriteAll n (lgWrite s)

/-- A slot write of an image commit is abandoned (R54, R413): the slot stays torn. -/
def imgAbandon (s : State) : State :=
  if commitBusy s then { s with img.commit := none, img.state := imgRest { s with img.commit := none } } else s

/-- SHUTDOWN_BURST_DONE (R413 steps 2 to 4, R546): the burst in progress completes, the NV write is abandoned, and the
shutdown record is written with TNS_SAVE; a warning in SLEEP writes none. -/
def execShutdownBurstDone (s : State) : Host.Outcome State Fault Refusal :=
  .next (if s.therm.shutStep ≠ 1 then s
    else
      let s1 := imgAbandon (nvAbandon s)
      let s2 := if s.pwr.quiet && s.pwr.pfVsup.isSome then s1
        else
          let w := shutRecord s1
          lgWriteAll w.nv.lgWait.length w
      { s2 with therm.shutStep := 4 })

/-- A Granary page program in progress is abandoned (R413, R476): its record takes its place, fails its CRC, and
readers skip it. -/
def cutProgram (pin busy : Bool) (s : State) : State :=
  if !busy || !granRuns s then s
  else match nextProg s pin with
    | none => s
    | some r => match progBlock s (regionOf s pin) r with
      | none => s
      | some (b, enter) =>
        setRegion pin (putRec s b enter { r with done := false } (regionOf s pin)) s

/-- The last step (R413 step 6, R414, R545): the P die turns every pre-driver off and switches off the core buck. Entry
to thermal hold is recorded (R415). -/
def shutEnd (s : State) : State :=
  if s.pwr.pfVsup.isSome then pfOff s
  else
    let k := coreOff false s
    let k1 := { k with pwr.state := .thermOff, therm.lastSensor := 0, therm.restartCnt := 0 }
    if s.therm.holdNew then
      emit 0x0185 (le 4 (recentShut s.time.tns s.nv.tb.shut) ++ le 4 0 ++
        (List.range 3).flatMap fun i => le 8 (s.nv.tb.shut.getD i 0)) k1
    else k1

/-- SHUTDOWN_RECORD_WRITTEN (R413 steps 5 and 6): with the regions of the Granary in which a page program was in
progress. -/
def execShutdownRecordWritten (main pin : Bool) (s : State) : Host.Outcome State Fault Refusal :=
  .next (if s.therm.shutStep ≠ 4 then s else settle (shutEnd (cutProgram true pin (cutProgram false main s))))

/-- The highest value among the P-die sensors. -/
def pHighest (s : State) : Int := ((hiReported s (rangeFrom 16 4)).getD (0, 0)).1

/-- THERMAL_RESTART (R72, R413, R414): ten measurements below the restart level; start-up steps 3 to 8 follow. -/
def execThermalRestart (s : State) : Host.Outcome State Fault Refusal :=
  .next (if s.pwr.state == .thermOff && !s.pwr.pfHold && decide (s.therm.restartCnt ≥ 10) && !s.therm.noRestart then
      let n := match tbPick s with
        | some b => b.shutCnt
        | none => 65535
      settle (emit 0x0184 (le 4 n ++ leI 4 (pHighest s)) { bootBegin 1 2 s with
        pwr.state := .run
        pwr.pg := 1
        therm.preHot := false })
    else s)

/-! ## Rails (R539, R544) -/

/-- The bit of PG that stands for rail `r` (R562, R587): 0 VIO, 1 VCORE, 2 VHUSK, 3 VANA, 4 VFL. -/
def railBit (r : Nat) : Nat := if r = 3 then 4 else if r = 4 then 3 else r

/-- The value of rail `r` in mV, and its tolerance in percent (R539). -/
def railSpec (s : State) (r : Nat) : Nat × Nat :=
  if r = 0 then (3300, 3)
  else if r = 1 then (if s.pwr.vcore = 0 then 550 else if s.pwr.vcore = 1 then 720 else if s.pwr.vcore = 2 then 800 else 900, 3)
  else if r = 2 then (if s.pwr.state == .sleep then 550 else 800, 3)
  else if r = 3 then (1800, 2) else (1800, 3)

/-- A measured voltage lies outside a rail's tolerance. -/
def railOut (s : State) (r mv : Nat) : Bool :=
  let e := railSpec s r
  decide (absI ((mv : Int) - e.1) * 100 > e.1 * e.2)

/-- A rail is in regulation. -/
def railOn (s : State) (r : Nat) : Bool := decide (r < 5) && s.pwr.pg.getLsbD (railBit r)

/-- Put a rail's power-good bit. -/
def setRail (r : Nat) (v : Bool) (s : State) : State :=
  let b := BitVec.ofNat 5 (2 ^ railBit r)
  { s with pwr.pg := if v then s.pwr.pg ||| b else s.pwr.pg &&& ~~~ b }

/-- The current channels lose their reference (R175, R544). -/
def vanaLost (s : State) : State :=
  (List.range 8).foldl (fun s n =>
    if armed s n && (curCh s n).fault == .none then
      emit 0x0303 (le 1 n ++ le 1 2 ++ le 2 0) (chStop n .conv s) (chString n)
    else s) s

/-- What a rail fault does (R544): the record is kept for the recorder, which runs again after a restart. -/
def railLost (r mv : Nat) (s : State) : State :=
  let rec' := emit 0x0080 (le 1 r ++ le 3 0 ++ le 4 mv)
  let s1 := shipAbandon { s with pwr.railCnt := sat 16 (s.pwr.railCnt + 1) }
  if r = 0 ∨ r = 2 then
    let k := coreOff false s1
    rec' (setRail r false { k with pwr.state := .run, pwr.brown := true, sys.run.drivers := false, sys.run.husk := false })
  else if r = 1 then
    let k := coreOff true s1
    rec' (setRail 1 false { k with pwr.state := .run, pwr.brown := true, pwr.coreAt := some s.time.tns })
  else if r = 3 then vanaLost (rec' (setRail 3 false s1))
  else
    let s2 := rec' (setRail 4 false s1)
    if granRuns s2 then emit 0x0983 (le 1 0xFF ++ le 1 5 ++ le 2 0 ++ le 4 0) (granLost s2) else s2

/-- RAIL_FAULT (R544, R560): rail `r`, in regulation until now, has been out of its tolerance for 5 us; `mv` is its
measured voltage. -/
def execRailFault (r mv : Nat) (s : State) : Host.Outcome State Fault Refusal :=
  .next (if railOn s r && railOut s r mv && shutMay s then settle (railLost r mv s) else s)

/-- RAIL_RECOVERY (R544): rail `r` has been in regulation for 2 ms. VIO and VHUSK restart the device from step 3 with
CAUSE 2. -/
def execRailRecovery (r mv : Nat) (s : State) : Host.Outcome State Fault Refusal :=
  .next (if railOn s r || railOut s r mv || !shutMay s || !s.sys.run.buck then s
    else if r = 0 ∨ r = 2 then
      settle (setRail r true { bootBegin 2 2 s with
        sys.run.drivers := true
        pwr.brown := false
        pwr.pg := s.pwr.pg ||| 1 })
    else if r = 3 ∨ r = 4 then settle (setRail r true s)
    else s)

/-- VCORE_RETRY (R544): 100 ms after a VCORE fault start-up steps 3 to 8 run with CAUSE 2. -/
def execVcoreRetry (s : State) : Host.Outcome State Fault Refusal :=
  .next (match s.pwr.coreAt with
    | some t =>
      if s.time.tns ≥ t + 100000000 then
        { bootBegin 2 2 s with pwr.coreAt := none, pwr.brown := false }
      else s
    | none => s)

/-- VCORE_RETURN (R548): 1,000 frames in a row had no tight kernel work. -/
def execVcoreReturn (s : State) : Host.Outcome State Fault Refusal :=
  .next (if s.pwr.vcore = 3 && decide (s.pwr.loose ≥ 1000) && s.pwr.force = 0 then
      { s with pwr.vcore := 2, pwr.loose := 0 } else s)

/-! ## Requests of PWR_CTRL (R563) -/

/-- A session of debug is open. -/
def dbgActive (s : State) : Bool := s.pairs.dbg.state != .none

/-- SLEEP can be accepted (R549, R551). -/
def sleepOk (s : State) : Bool :=
  (s.pwr.state == .run || s.pwr.state == .standby) && allOpen s && !s.drv.key && !s.pwr.chg &&
    s.est.chr.step == 15 && !dbgActive s && !commitBusy s

/-- SLEEP is accepted (R551 step 1). -/
def sleepStart (s : State) : State :=
  { s with pwr.state := .sleepEntry, pwr.step := 1, pwr.wakeLate := none, acq.patrolCnt := 0, acq.recheck := false }

/-- STANDBY is accepted (R549, R550). -/
def standbyStart (s : State) : State :=
  let s1 := { s with pwr.state := .standby, pwr.sleepAt := s.time.tns, acq.patrolAt := s.time.tns, acq.recheck := false }
  if s1.sys.frameOpen then s1 else stopAcq s1

/-- SHIP is accepted (R558 step 1): every string that does not stand open starts its orderly open without grace. -/
def shipStart (s : State) : State :=
  let s1 := charStop 3 { s with pwr.state := .shipEntry, pwr.step := 1, pwr.sleepAt := s.time.tns, husk.closeReq := 0 }
  ((strings s1).filter fun i => !standsOpen s1 i).foldl (fun s i => orderlyOpen [false, true] i s) s1

/-- The restart of PWR_CTRL.RESET (R561): a checkpoint completes, the Granary is flushed, and start-up runs from step 3
with CAUSE 3. -/
def nvFinish : Nat → State → State
  | 0, s => s
  | n + 1, s => match s.nv.queue with
    | [] => s
    | j :: rest =>
      match execNvWriteDone { s with nv.queue := { j with bursts := 0 } :: rest } with
      | .next t => nvFinish n t
      | _ => s

/-- The next record that waits for the Granary's pinned (`pin`) or ring part is programmed. -/
def granOne (pin : Bool) (s : State) : State :=
  match nextProg s pin with
  | some _ => match execGranaryProgramDone pin false 0 0 s with
    | .next t => t
    | _ => s
  | none => s

/-- Everything that waits in the recorder is programmed (R476). -/
def granFinish : Nat → State → State
  | 0, s => s
  | n + 1, s => granFinish n (granOne true (granOne false s))

/-- Restart of the L die (R72, R561). -/
def pwrReset (s : State) : State :=
  let s1 := if ledgHeld s then checkpoint s else s
  let s2 := nvFinish (2 * s1.nv.queue.length) s1
  let s3 := granFinish s2.recd.ring.length (recFlush s2)
  let k := coreOff false s3
  { bootBegin 3 2 k with pwr.state := .run, pwr.pg := 1 }

/-- The refusal of a PWR_CTRL request bit, 0 when it is accepted (R549, R551, R558, R561). -/
def pwrChk (b : Nat) (s : State) : Nat :=
  let on := s.pwr.state == .run || s.pwr.state == .standby
  if b = 1 then if s.pwr.state == .run && allOpen s && !s.drv.key then 0 else 9
  else if b = 2 then if sleepOk s then 0 else 9
  else if b = 3 then if on then 0 else 9
  else if b = 4 then if allOpen s then 0 else 9
  else 0

/-- A PWR_CTRL request that is accepted takes effect. -/
def pwrDo (b : Nat) (s : State) : State :=
  if b = 0 then leaveStandby 1 s
  else if b = 1 then standbyStart s
  else if b = 2 then sleepStart s
  else if b = 3 then shipStart s
  else if b = 4 then pwrReset s
  else { s with pwr.wakeOut := false, pwr.wakeOutEnd := none }

/-- A PWR_CTRL write is refused (R563): more than one bit is INVALID_VALUE. -/
def pwrCtrlChk (v : Word) (s : State) : Nat :=
  match (List.range 6).filter (v.getLsbD ·) with
  | [] => 0
  | [b] => pwrChk b s
  | _ => 2

/-- A PWR_CTRL write takes effect: SLEEP, SHIP and RESET wait for the restore of an aborted self-test run (R573). -/
def pwrCtrlPut (op : Nat) (p : Port) (tag : BitVec 16) (v : Word) (s : State) : State :=
  match (List.range 6).filter (v.getLsbD ·) with
  | [b] =>
    if bistBusy s && (b = 2 || b = 3 || b = 4) then
      { bistAbort 3 s with pwr.waitReq := s.pwr.waitReq ++ [(op, p, tag, b)] }
    else pwrDo b s
  | _ => s

/-- A power command that waited is answered, and obeyed unless its target is refused by now (R573). -/
def waitOne (s : State) (q : Nat × Port × BitVec 16 × Nat) : State :=
  let st := pwrChk q.2.2.2 s
  if st = 0 then pwrDo q.2.2.2 (answer q.1 q.2.1 q.2.2.1 (.ack 0 0 []) s)
  else answer q.1 q.2.1 q.2.2.1 (.nak st 0) s

/-- The requests that waited for the restore proceed and are answered (R573). -/
def waitDone (s : State) : State :=
  let qs := s.bist.waitAbort
  let rs := s.pwr.waitReq
  let s1 := { s with bist.waitAbort := [], pwr.waitReq := [] }
  let s2 := qs.foldl (fun s q => answer q.1 q.2.1 q.2.2 (.ack 0 0 []) s) s1
  rs.foldl waitOne s2

/-- BIST_RESTORED (R573): the region under test has been restored; the run ends INCOMPLETE with the steps it had done
and the failing compares of the cut region, and what waited for it proceeds. -/
def execBistRestored (steps : Nat) (fails : List (Nat × Nat)) (s : State) : Host.Outcome State Fault Refusal :=
  .next (if s.bist.state != .aborting then s
    else
      let s1 := bistFails fails { s with bist.done := min (s.bist.done + steps % bistSteps s.bist.last) (s.bist.total - 1) }
      settle (waitDone (bistEnd s1)))

/-- AUTO_SLEEP (R557): the device requests SLEEP by itself; it waits while a self-test run is restored. -/
def execAutoSleep (s : State) : Host.Outcome State Fault Refusal :=
  .next (match s.pwr.idleAt with
    | some t =>
      if s.pwr.autoSleep ≠ 0 && decide (s.time.tns ≥ max t s.host.reqAt + s.pwr.autoSleep * 60 * nsPerSec) && sleepOk s then
        if bistBusy s then bistAbort 3 s else settle (sleepStart s)
      else s
    | none => s)

/-- WAKE_OUT_TIMEOUT (R555): 600 s after its assertion WAKE_OUT is released. -/
def execWakeOutTimeout (s : State) : Host.Outcome State Fault Refusal :=
  .next (match s.pwr.wakeOutEnd with
    | some t => if s.time.tns ≥ t then { s with pwr.wakeOut := false, pwr.wakeOutEnd := none } else s
    | none => s)

/-! ## SLEEP entry (R551, R556) -/

/-- A wake source that qualified during entry is acted on when step `k` ends (R556); else the next step begins. -/
def sleepStep (k : Nat) (next : State → State) (s : State) : State :=
  match s.pwr.wakeLate with
  | some c => wakeStart c (emit 0x0085 (le 1 c ++ le 1 k ++ le 2 0) { s with pwr.sleepAt := s.time.tns })
  | none => { next s with pwr.step := k + 1 }

/-- Step 2 begins (R437, R431, R446, R551): checkpoint, CELL_REC, every changed object, and TNS_SAVE. -/
def sleepSave (s : State) : State :=
  let s1 := if ledgHeld s then checkpoint s else s
  tbWrite (if s.sys.run.nv then nvFlush (nvQueue 6 s1) else s1)

/-- SLEEP_STOP_ACQUISITION (R551 step 1): the frame boundary after the request; from STANDBY acquisition stands still
already. -/
def execSleepStopAcquisition (s : State) : Host.Outcome State Fault Refusal :=
  .next (if s.pwr.state == .sleepEntry && s.pwr.step == 1 && (atBoundary s || !s.sys.run.acq) then
      settle (sleepStep 1 sleepSave (stopAcq s))
    else s)

/-- The NV store has nothing left to write. -/
def nvIdle (s : State) : Bool := s.nv.queue.isEmpty || !nvOn s

/-- Every event raised has been published, and the Granary holds every record that it can (R476). -/
def recIdle (s : State) : Bool :=
  (!s.sys.run.recorder || (s.recd.produced.isEmpty && s.recd.staging.isEmpty)) && (!granOn s || granIdle s)

/-- SLEEP_SAVE_DONE (R551 steps 2 and 3): PWR_SLEEP is published and the Granary flushed. -/
def execSleepSaveDone (s : State) : Host.Outcome State Fault Refusal :=
  .next (if s.pwr.state == .sleepEntry && s.pwr.step == 2 && nvIdle s then
      settle (sleepStep 2 (fun s => recFlush (emit 0x0082 (le 4 s.cfg.acq.patrol) s)) s)
    else s)

/-- The device sleeps (R547, R551 step 4): the rails fall, and SRAM outside the retention region loses its contents,
the recorder's ring and a staged image among them (DESIGN CHOICE, assumption 96). -/
def asleep (s : State) : State :=
  let s1 := closeStreams (fun _ => true) (curStop s)
  { s1 with
    sys.run := { s.sys.run with
      acq := false, kernel := false, checker := false, winnow := false, tally := false, ledger := false
      steward := false, nv := false, granary := false, recorder := false, hostLink := false, bist := false }
    recd.ring := []
    acq.pub := []
    krn.cells := []
    est.cells := []
    win.pub := false
    tally.cells := []
    tally.pub := false
    img.stage := []
    img.stageLen := 0
    img.state := imgRest { s1 with img.stageLen := 0 }
    pwr.state := .sleep
    pwr.vcore := 0
    pwr.pg := 7
    pwr.wakeOut := false
    pwr.wakeOutEnd := none
    pwr.sleepAt := s.time.tns
    pins.canStb := true
    acq.patrolAt := s.time.tns }

/-- SLEEP_FLUSH_DONE (R551 steps 3 and 4). -/
def execSleepFlushDone (s : State) : Host.Outcome State Fault Refusal :=
  .next (if s.pwr.state == .sleepEntry && s.pwr.step == 3 && recIdle s then settle (sleepStep 3 asleep s) else s)

/-! ## The wake (R553, R554) -/

/-- The wake source of a cause is active (R553): 2 KEY, 3 CHG_DET, 4 PRES_BTN, 5 CAN, 6 SPI, 8 the seal loop. -/
def wakeSrc (c : Nat) (s : State) : Bool :=
  if c = 2 then s.drv.key else if c = 3 then s.pwr.chg else if c = 4 then s.pins.btn
  else if c = 8 then s.sec.sealOpen else c == 5 || c == 6

/-- SLEEP_WAKE (R553, R554, R556): the wake source of cause `c` qualifies, in SLEEP or during entry. -/
def execSleepWake (c : Nat) (s : State) : Host.Outcome State Fault Refusal :=
  .next (if !wakeSrc c s then s
    else if s.pwr.state == .sleep then settle (wakeStart c s)
    else if s.pwr.state == .sleepEntry && s.pwr.wakeLate.isNone then { s with pwr.wakeLate := some c }
    else s)

/-- WAKE_RAILS_READY (R554 steps 1 to 3): the steward resumes, WAKE goes out on the rings, the host link starts, and
PWR_WAKE is recorded. -/
def execWakeRailsReady (s : State) : Host.Outcome State Fault Refusal :=
  .next (if s.pwr.state == .waking && s.pwr.step == 1 then
      let s1 := { s with
        sys.run := { s.sys.run with steward := true, sram := true, recorder := true, bist := true, hostLink := hostMay s }
        pwr.pg := 31
        pwr.step := 2
        pwr.wakeDone := s.pwr.wakeDone ||| 2
        pins.canStb := s.host.can == .off }
      settle (ringsWake (emit 0x0083 (le 1 s.pwr.cause ++ le 3 0 ++ le 8 (s.time.tns - s.pwr.sleepAt)) s1))
    else s)

/-- The nodes of a woken ring are read and challenged (R126, R554 step 2). Offsets and positions are kept; a changed UID
or node count makes the ring enumerate in full. -/
def wakeRing (r : Nat) (uids : List (BitVec 64)) (as : List AuthResp) (s : State) : State :=
  let x := ringOf s r
  if x.state != .waking || x.enumReq then s
  else if x.nodes.map (·.2.uid) != uids then
    modRing s r fun x => { x with enumReq := true, inService := false }
  else
    let resp (p : Nat) : AuthResp := (as.find? (·.pos == p)).getD { pos := p, tag1 := [], tag2 := [], pair := [] }
    let s1 := (positions s r).foldl (fun s p => authNode 4 r (modNode s r p fun n => { n with misses := 0 }) (resp p)) s
    reach r s1

/-- WAKE_RINGS_READY (R554 step 2): what each ring's nodes answered; strings reach L1, and the models load next. -/
def execWakeRingsReady (ua ub : List (BitVec 64)) (aa ab : List AuthResp) (s : State) : Host.Outcome State Fault Refusal :=
  .next (if (s.pwr.state == .waking || s.pwr.state == .leaving) && s.pwr.step == 2 then
      let s1 := wakeRing 1 ub ab (wakeRing 0 ua aa s)
      let s2 := { s1 with
        sys.run.acq := s.sys.run.timebase
        pwr.step := 4
        pwr.wakeDone := s.pwr.wakeDone ||| 1
        acq.decAt := s.time.tns
        acq.patrolAt := s.time.tns }
      settle (if s.pwr.state == .waking && s.sys.run.timebase then curStart s2 else s2)
    else s)

/-- WAKE_MODELS_LOADED (R554 step 4, R576): self-test of the SRAM not retained, with its failures; the models load and
the lanes start from the NV last state. SYS_BOOT is unchanged. -/
def execWakeModelsLoaded (tests : List (Nat × Nat × Nat × Nat)) (s : State) : Host.Outcome State Fault Refusal :=
  .next (if (s.pwr.state == .waking || s.pwr.state == .leaving) && s.pwr.step == 4 && s.pwr.wakeDone == 3 then
      let s1 := modelsLoad 0 0 0 0 (bootTest tests s)
      settle { s1 with sys.winBad := s.sys.winBad, pwr.step := 5 }
    else s)

/-- WAKE_FULL_SERVICE (R554 step 5): Winnow, the Tally engine, the ledger, the NV store and the Granary start. -/
def execWakeFullService (s : State) : Host.Outcome State Fault Refusal :=
  .next (if (s.pwr.state == .waking || s.pwr.state == .leaving) && s.pwr.step == 5 then
      settle (nvStart { s with
        sys.run := { s.sys.run with
          winnow := !s.sys.winBad && s.sys.run.timebase, tally := s.sys.run.timebase, ledger := s.sys.run.timebase
          nv := true, granary := true }
        pwr.state := .run
        pwr.step := 0
        ledg.gapAt := s.time.tns
        tally.at0 := none })
    else s)

/-! ## The sleep patrol (R158, R159) -/

/-- The fields of a valid SUMMARY slot (R98): those of a cell node, or V_PACK and ISO of a string node. -/
structure SumSlot where
  /-- ring -/
  ring : Nat
  /-- position -/
  pos : Nat
  /-- STAT -/
  stat : Byte
  /-- the first and second 16-bit values of the slot -/
  a : Nat
  /-- second value -/
  b : Nat
  /-- lowest temperature, 0.01 degC -/
  tMin : Int
  /-- highest temperature, 0.01 degC -/
  tMax : Int
  deriving DecidableEq, Repr

/-- The length of a node's SUMMARY slot (R98). -/
def sumLen (kind : Nat) : Nat := if kind = 1 then 13 else 9

/-- The fields of a SUMMARY slot (R98). -/
def sumData (r kind : Nat) (bs : List Byte) : SumSlot :=
  let st := bs.getD 2 0
  if kind = 1 then
    { ring := r, pos := fld bs 0 1, stat := st, a := fld bs 3 2, b := fld bs 5 2, tMin := fldI bs 7 2, tMax := fldI bs 9 2 }
  else { ring := r, pos := fld bs 0 1, stat := st, a := fld bs 3 2, b := fld bs 5 2, tMin := 0, tMax := 0 }

/-- The conditions of R158 that a SUMMARY slot meets, as bits of ACQ_PATROL.CAUSE (R162). -/
def patrolBits (s : State) (x : SumSlot) : Nat :=
  let a := s.cfg.acq
  let flags := flag 7 (x.stat.getLsbD 0 || x.stat.getLsbD 1)
  if (nodeOf s x.ring x.pos).kind = 2 then flags + flag 4 (decide (x.b * 200 < x.a))
  else flags + flag 0 (decide (x.b > a.pvMax)) + flag 1 (decide (x.a < a.pvMin)) +
    flag 2 (decide (x.tMax > a.ptMax)) + flag 3 (decide (x.tMin < a.ptMin))

/-- PATROL_WAKE is recorded once the recorder runs, and the device wakes (R159): WAKE_OUT is asserted and the CAN
transceiver leaves standby. -/
def patrolWake (bits : Nat) (x : SumSlot) (s : State) : State :=
  let cell := (nodeOf s x.ring x.pos).kind == 1
  let s1 := emit 0x048A (le 4 bits ++ le 1 x.ring ++ le 1 x.pos ++ le 2 0 ++ le 2 (if cell then x.a else 0) ++
    le 2 (if cell then x.b else 0) ++ leI 2 x.tMin ++ leI 2 x.tMax) { s with acq.patrolCause := bits, acq.recheck := false }
  if s.pwr.state == .standby then leaveStandby 7 s1
  else wakeStart 7 { s1 with pins.canStb := s1.pins.canStb && !portOn s1 .can }

/-- A slot that stands for a missing node or a ring that did not wake. -/
def blankSlot (r p : Nat) : SumSlot := { ring := r, pos := p, stat := 0, a := 0, b := 0, tMin := 0, tMax := 0 }

/-- The rings that carry configured nodes. -/
def patrolRings (s : State) : List Nat := [0, 1].filter fun r => s.cfg.topo.nodes.any (·.ring == r)

/-- The nodes that a SUMMARY frame serves (R97, R113): the configured ones. -/
def patrolNodes (s : State) (r : Nat) : List Nat := (positions s r).filter fun p => (nodeOf s r p).string.isSome

/-- One SUMMARY slot as it arrives in the patrol of ring `r` (R95, R98, R99): its fields when it verifies, else an error of
the port. -/
def patrolSlot (r : Nat) (a : State × List SumSlot) (x : SumRx) : State × List SumSlot :=
  let p := fld x.bytes 0 1
  let kind := (nodeOf a.1 r p).kind
  if (patrolNodes a.1 r).contains p && slotOk a.1.time.frm (sumLen kind) x.bytes then (a.1, a.2 ++ [sumData r kind x.bytes])
  else (portErr r x.portB a.1, a.2)

/-- The patrol of ring `r` (R124, R387): one TRIG, one SUMMARY frame in both directions, its slots, and COMMAND with
SLEEP. -/
def patrolRing (rx : List SumRx) (a : State × List SumSlot) (r : Nat) : State × List SumSlot :=
  let s1 := frmNext (modRing a.1 r fun x => { x with nodes := x.nodes.map fun pn => (pn.1, ofsApply pn.2) })
  let s2 := ringTxBoth r 4 ((patrolNodes s1 r).flatMap fun p =>
    slotEmpty (seqNow s1) p (sumLen (nodeOf s1 r p).kind)) s1
  let b := (rx.filter (·.ring == r)).foldl (patrolSlot r) (s2, a.2)
  (commandOut r ((positions b.1 r).flatMap fun p => le 1 p ++ le 1 4 ++ le 2 0) b.1, b.2)

/-- The configured nodes of the rings named that sent no valid SUMMARY slot. -/
def patrolMissing (s : State) (rs : List Nat) (xs : List SumSlot) : List (Nat × Nat) :=
  (s.cfg.topo.nodes.filter fun t => rs.contains t.ring && !xs.any fun x => x.ring == t.ring && x.pos == t.pos).map
    fun t => (t.ring, t.pos)

/-- What wakes the device in a patrol (R158, R159): the bits of every slot's conditions, bit 5 for a node missing again and
bit 6 for a ring that did not wake; and the slot to be recorded, the first that meets a condition. -/
def patrolCauses (s : State) (fails : List Nat) (gone : List (Nat × Nat)) (xs : List SumSlot) : Nat × SumSlot :=
  let cond := xs.foldl (fun b y => b ||| patrolBits s y) 0
  (cond + flag 5 (!gone.isEmpty) + flag 6 (!fails.isEmpty),
   match xs.find? (fun x => decide (patrolBits s x ≠ 0)), gone, fails with
    | some x, _, _ => x
    | none, rp :: _, _ => blankSlot rp.1 rp.2
    | none, [], r :: _ => blankSlot r 0
    | none, [], [] => blankSlot 0 0)

/-- What a patrol finds decides (R158, R159): a condition, a ring that fails to wake or a node missing again wakes the
device; nodes missing for the first time are patrolled again 1 s later. A patrol that does not wake is counted, whether or
not a node was missing in it (R158 counts one that finds no condition; DEDUCED, assumption 81). -/
def patrolDecide (fails : List Nat) (missing : List (Nat × Nat)) (xs : List SumSlot) (s : State) : State :=
  let gone := missing.filter fun rp => s.acq.recheck && (ringOf s rp.1).patrolMiss.contains rp.2
  let s1 := if s.pwr.state == .sleep && !s.nv.refuse then tbWrite s else s
  let c := patrolCauses s fails gone xs
  if c.1 ≠ 0 then patrolWake c.1 c.2 s1
  else
    let s2 := [0, 1].foldl (fun s r =>
      modRing s r fun x => { x with patrolMiss := (missing.filter (·.1 == r)).map (·.2) }) s1
    { s2 with
      acq.recheck := !missing.isEmpty
      acq.recheckAt := s.time.tns
      acq.patrolCnt := sat 16 (s.acq.patrolCnt + 1) }

/-- The rings named are patrolled, those that fail to wake apart, and what is found decides. -/
def patrolRun (rx : List SumRx) (rs fails : List Nat) (s : State) : State :=
  let up := rs.filter fun r => !fails.contains r
  let y := up.foldl (patrolRing rx) (s, [])
  patrolDecide (rs.filter (fails.contains ·)) (patrolMissing y.1 up y.2) y.2 y.1

/-- A patrol may run: SLEEP, or STANDBY with the rings asleep (R550, R556). -/
def patrolMay (s : State) : Bool := s.pwr.state == .sleep || (s.pwr.state == .standby && !s.sys.run.acq)

/-- SLEEP_PATROL (R158, R552): PATROL seconds after the last patrol each configured ring is woken and read; `fails`
names the rings that did not wake. -/
def execSleepPatrol (slots : List SumRx) (fails : List Nat) (s : State) : Host.Outcome State Fault Refusal :=
  .next (if patrolMay s && decide (s.time.tns ≥ s.acq.patrolAt + s.cfg.acq.patrol * nsPerSec) then
      settle (patrolRun slots (patrolRings s) fails { s with acq.patrolAt := s.time.tns, acq.recheck := false })
    else s)

/-- PATROL_RECHECK (R159): 1 s after the patrol that missed nodes, their rings are patrolled again. -/
def execPatrolRecheck (slots : List SumRx) (fails : List Nat) (s : State) : Host.Outcome State Fault Refusal :=
  .next (if patrolMay s && s.acq.recheck && decide (s.time.tns ≥ s.acq.recheckAt + nsPerSec) then
      settle (patrolRun slots ((patrolRings s).filter fun r => !(ringOf s r).patrolMiss.isEmpty) fails s)
    else s)

/-! ## SHIP (R558, R559) -/

/-- SHIP_STRINGS_OPEN (R558 steps 1 and 2): every string stands open and no image commit runs; ledger and pod
checkpoints, CELL_REC and every changed object are written. A pod held by another MID is not written (R89). -/
def execShipStringsOpen (s : State) : Host.Outcome State Fault Refusal :=
  .next (if s.pwr.state == .shipEntry && s.pwr.step == 1 && allOpen s && !commitBusy s then
      let s1 := if s.sys.run.ledger then podAsk (configMask s &&& ~~~ s.ledg.podForeign) s
        else if ledgHeld s then checkpoint s else s
      let s2 := if s.sys.run.nv then nvFlush (nvQueue 6 s1) else s1
      settle { s2 with pwr.step := 2, pwr.sleepAt := s.time.tns }
    else s)

/-- The saves of SHIP entry are done: the objects are written, and the pod checkpoints are, or their 2 s have
passed. -/
def shipSaved (s : State) : Bool :=
  nvIdle s && (!s.sys.run.ledger || (s.ledg.podWant == 0 && s.ledg.podRun.isEmpty) ||
    decide (s.time.tns ≥ s.pwr.sleepAt + 2 * nsPerSec))

/-- SHIP_SAVED (R558 steps 2 and 3): COMMAND with SHIP goes to every node, PWR_SHIP is published and the Granary is
flushed. -/
def execShipSaved (s : State) : Host.Outcome State Fault Refusal :=
  .next (if s.pwr.state == .shipEntry && s.pwr.step == 2 && shipSaved s then
      let s0 := ringSleep 8 1 (ringSleep 8 0 s)
      let s1 := if s0.sys.run.acq then framesStop s0 else s0
      settle (recFlush (emit 0x0084 [] { s1 with pwr.step := 3 }))
    else s)

/-- SHIP_POWER_DOWN (R558 steps 3 and 4): every driver and rail goes off. -/
def execShipPowerDown (s : State) : Host.Outcome State Fault Refusal :=
  .next (if s.pwr.state == .shipEntry && s.pwr.step == 3 && recIdle s then
      settle { deviceOff s with pwr := { state := .ship, vsup := s.pwr.vsup } }
    else s)

/-- WAKE_CONTROLLER_ARM (R559): in SHIP, PRES_BTN (`btn`) has been released, or CHG_DET inactive, for `ns` nanoseconds
without a break. -/
def execWakeControllerArm (btn : Bool) (ns : Nat) (s : State) : Host.Outcome State Fault Refusal :=
  .next (if s.pwr.state != .ship then s
    else if btn then { s with pwr.armBtn := s.pwr.armBtn || decide (ns ≥ nsPerSec) }
    else { s with pwr.armChg := s.pwr.armChg || decide (ns ≥ 50000000) })

/-- SHIP_WAKE (R559): an armed input has been active for `ns` nanoseconds without a break: PRES_BTN for 10 s, CHG_DET
for 50 ms. Start-up runs with CAUSE 5. -/
def execShipWake (btn : Bool) (ns : Nat) (s : State) : Host.Outcome State Fault Refusal :=
  .next (if s.pwr.state != .ship then s
    else if btn && s.pwr.armBtn && decide (ns ≥ 10 * nsPerSec) then settle (startBegin 5 { s with pins.btn := true })
    else if !btn && s.pwr.armChg && decide (ns ≥ 50000000) then
      settle { startBegin 5 s with pwr.chg := true }
    else s)

/-! ## PWR_CFG (R564) -/

/-- A PWR_CFG write that is accepted: AUTO_SLEEP and PFW_LEVEL. A new level waits until it is armed (R542). -/
def pwrCfgPut (sleep level : Nat) (s : State) : State :=
  let s1 := if sleep = s.pwr.autoSleep then s else nvQueue 1 { s with pwr.autoSleep := sleep }
  if level = s1.nv.keys.pfwLevel then s1
  else { s1 with nv.keys.pfwLevel := level, pwr.pfw := 0, pwr.armed := level == 0 }

end Sys2Proof.Machine
end

