-- ==== Sys2Proof/Machine/Evt.lean ====
section
/-! DEFINITION. The error queue's handling and the steward's resets (chapter 20). -/

namespace Sys2Proof.Machine

/-- The entry to be taken next from a list (R583): the highest severity, the first of it. -/
def bestEnt : List ErrEnt → Option ErrEnt
  | [] => none
  | e :: es => match bestEnt es with
    | some f => if f.sev > e.sev then some f else some e
    | none => some e

/-- Remove the entry of a code. -/
def dropCode (c : Nat) (es : List ErrEnt) : List ErrEnt := es.filter (·.code != c)

/-- OVERFLOW ends once the queue holds 8 entries or fewer (R584). -/
def overflowEnd (s : State) : State :=
  { s with evt.overflow := s.evt.overflow && decide (s.evt.queue.length + s.evt.handling.length > 8) }

/-- The best waiting entry starts being handled, unless one of its severity or higher is being handled (R583). -/
def takeEnt (s : State) : State :=
  let cur := match s.evt.handling with
    | h :: _ => h.sev
    | [] => 0
  match bestEnt s.evt.queue with
  | some e => if e.sev > cur then { s with evt.queue := dropCode e.code s.evt.queue, evt.handling := e :: s.evt.handling } else s
  | none => s

/-- ERRQ_HANDLE (R583, R584): the steward has handled the entry in hand, and takes the next: the suspended one, or the
waiting entry of the highest severity. -/
def execErrqHandle (s : State) : Host.Outcome State Fault Refusal :=
  .next (if !s.sys.run.steward then s
    else settle (takeEnt (overflowEnd { s with evt.handling := s.evt.handling.drop 1 })))

/-- ERRQ_PREEMPT (R583): at the handler's next safe point an entry of higher severity suspends it. -/
def execErrqPreempt (s : State) : Host.Outcome State Fault Refusal :=
  .next (if s.sys.run.steward && !s.evt.handling.isEmpty then takeEnt s else s)

/-- What stops with the steward pair (R11, R72). -/
def stewardStops (r : Running) : Running :=
  { r with
    steward := false, hostLink := false, recorder := false, kernel := false, checker := false, winnow := false
    tally := false, ledger := false, nv := false, granary := false, bist := false }

/-- STEWARD_RESET (R72, R90, R91, R423, R462, R585): the watchdog has lapsed, or the lockstep cores disagree (`lockstep`).
Steps 6 to 8 run again, with their bounds and T_L4 from this restart on, while T_L1 stands, since strings keep their level
(DEDUCED, assumption 71). The fourth reset within 10 min holds the steward in reset. -/
def execStewardReset (lockstep : Bool) (s : State) : Host.Outcome State Fault Refusal :=
  .next (if !s.sys.run.steward then s
    else
      let l := stewRecent s
      let s1 := phaseStart 4 (imgAbandon (nvAbandon (winDiscard { bootBegin 4 5 s with
        sys.run := stewardStops s.sys.run
        sys.tL4 := 0
        krn.lanes := []
        win.str := []
        win.offers := []
        evt.stewAt := l
        evt.stewHeld := decide (l.length ≥ 4) })))
      settle (emit 0x0781 (le 1 (if lockstep then 2 else 1) ++ le 3 0 ++ le 4 l.length) s1))
where
  /-- The resets of the last 10 min, this one among them. -/
  stewRecent (s : State) : List Nat :=
    s.time.tns :: s.evt.stewAt.filter fun t => decide (s.time.tns - t < 600 * nsPerSec)

end Sys2Proof.Machine
end

