-- ==== Sys2Proof/Machine/Tally.lean ====
section
/-! DEFINITION. The Tally engine (R432, R637): rainflow cycles and dwell times of every cell, and the meanings of
their flushes. -/

namespace Sys2Proof.Machine

/-- The rainflow bin of a cycle between two turning points (R637). -/
def cycleBin (a b : Nat × Int) : Nat :=
  let depth := absI ((a.1 : Int) - b.1)
  let mean := (a.1 + b.1) / 2
  let d := if depth < 2500 then 0 else if depth < 10000 then 1 else if depth < 25000 then 2 else 3
  let m := if mean < 15000 then 0 else if mean < 35000 then 1 else 2
  6 * d + 2 * m + (if a.2 + b.2 < 5000 then 0 else 1)

/-- Add to a bin that counts since its last flush: 16 bits, saturating (R397, R637). -/
def binAdd (b n : Nat) (t : Tab Nat) : Tab Nat := Tab.set 0 t b (sat 16 (Tab.get 0 t b + n))

/-- Close the cycles that the newest turning point completes (Assumption 9): while the inner range of the last
four points is no larger than its neighbours, it is one full cycle. `n` bounds the number of closings. -/
def closeCycles : Nat → List (Nat × Int) → Tab Nat → List (Nat × Int) × Tab Nat
  | 0, st, bins => (st, bins)
  | n + 1, st, bins => match st with
    | d :: c :: b :: a :: r =>
      let inner := absI ((c.1 : Int) - b.1)
      if inner ≤ absI ((d.1 : Int) - c.1) ∧ inner ≤ absI ((b.1 : Int) - a.1)
      then closeCycles n (d :: a :: r) (binAdd (cycleBin b c) 1 bins)
      else (st, bins)
    | _ => (st, bins)

/-- A new SoC and temperature enter the turning points, newest first. -/
def turnPush (v : Nat × Int) (st : List (Nat × Int)) : List (Nat × Int) :=
  match st with
  | [] => [v]
  | [x] => if v.1 = x.1 then [x] else [v, x]
  | x :: y :: r =>
    if v.1 = x.1 then st
    else if decide (v.1 > x.1) == decide (x.1 > y.1) then v :: y :: r
    else v :: st

/-- The voltage dwell bin (R637): eight equal spans from V_MIN to V_MAX. -/
def voltBin (l : HLimit) (v : Nat) : Nat :=
  if v < l.vMin || l.vMax ≤ l.vMin then 24 else 24 + min 7 ((v - l.vMin) * 8 / (l.vMax - l.vMin))

/-- The temperature dwell bin (R637), by T_LOC in 0.01 degC. -/
def tempBin (t : Int) : Nat := if t < 0 then 32 else if t ≥ 6000 then 39 else 33 + (t / 1000).toNat

/-- The Tally engine takes the closed record of cell `c`, `dt` nanoseconds after its last update. -/
def tallyCell (dt c : Nat) (s : State) : State :=
  if acqStat s c 0 || acqStat s c 3 then s
  else
    let a := cellAcq s c
    let l := s.husk.net.limits.getD ((cellString s c).getD 0) {}
    modTCell s c fun t =>
      let st := if (eCell s c).seen then turnPush ((eCell s c).soc, a.tLoc) t.stack else t.stack
      let r := closeCycles st.length st t.bins
      let v := t.vNs + dt
      let u := t.tNs + dt
      let b1 := if v < nsPerSec then r.2 else binAdd (voltBin l a.v) (v / nsPerSec) r.2
      let b2 := if u < nsPerSec then b1 else binAdd (tempBin a.tLoc) (u / nsPerSec) b1
      { t with stack := r.1, bins := b2, vNs := v % nsPerSec, tNs := u % nsPerSec }

/-- A rate field is due in this frame (R27): every frame, every 2nd, every 4th, or never. -/
def rateDue (rate : Nat) (frm : Word) : Bool :=
  if rate = 0 then true else if rate = 1 then decide (frm.toNat % 2 = 0)
  else if rate = 2 then decide (frm.toNat % 4 = 0) else false

/-- The Tally block as the update publishes it (R638): the bins since their last flush and the frames of the flushes. -/
def tallyPublish (t : TCell) : TCell := { t with binsPub := t.bins, rfPub := t.rfFrm, dwPub := t.dwFrm }

/-- The Tally update at a commit point (R24, R27, R638). -/
def tallyUpdate (s : State) : State :=
  if !(s.sys.run.tally && upper s == 4 && rateDue (bits s.sys.modeAct 21 20) s.sys.frmCommit) then s
  else
    let dt := match s.tally.at0 with
      | some t => s.time.tns - t
      | none => 0
    let s1 := (cells s).foldl (fun s c => modTCell (tallyCell dt c s) c tallyPublish) s
    { s1 with tally.at0 := some s.time.tns }

/-- Flush the bins from `lo` up, `n` of them, of one cell (R432). -/
def flushBins (lo n : Nat) (t : TCell) : TCell :=
  (rangeFrom lo n).foldl (fun t b =>
    { t with life := Tab.set 0 t.life b (sat 32 (Tab.get 0 t.life b + Tab.get 0 t.bins b))
             bins := Tab.set 0 t.bins b 0, binsPub := Tab.set 0 t.binsPub b 0 }) t

/-- RAINFLOW_FLUSH (R432): the rainflow bins of every cell go into the lifetime bins. -/
def execRainflowFlush (s : State) : Host.Outcome State Fault Refusal :=
  .next (if s.sys.run.tally then
      nvDirty 7 true ((cells s).foldl (fun s c => modTCell s c fun t => { flushBins 0 24 t with rfFrm := s.time.frm })
        { s with tally.pub := true })
    else s)

/-- DWELL_FLUSH (R432): the dwell bins of every cell go into the lifetime bins. -/
def execDwellFlush (s : State) : Host.Outcome State Fault Refusal :=
  .next (if s.sys.run.tally then
      nvDirty 7 true ((cells s).foldl (fun s c => modTCell s c fun t => { flushBins 24 16 t with dwFrm := s.time.frm })
        { s with tally.pub := true })
    else s)

end Sys2Proof.Machine
end

