-- ==== Sys2Proof/Machine/Frame.lean ====
section
/-! DEFINITION. Frame flow (chapter 1): the frame boundary, the acquisition cut-off, the commit point and the mode
words. -/

namespace Sys2Proof.Machine

/-! ## The grid of boundaries -/

/-- The first multiple of `p` above `t0` that lies at or after `now`, counted from `t0` (R14): the next boundary. -/
def nextGrid (t0 p now : Nat) : Nat := t0 + p * max 1 ((now - t0 + p - 1) / p)

/-- The first instant from `t` on whose segment time `t + o` is a multiple of `p` (R393). -/
def nextSeg (o : Int) (p t : Nat) : Nat := (t + (-(Int.ofNat t + o)) % (p : Int)).toNat

/-- `t` is a multiple of `p` in segment time. -/
def onSeg (o : Int) (p t : Nat) : Bool := (Int.ofNat t + o) % (p : Int) == 0

/-- The device re-phases at this boundary (R393): GRID_OK is 0, the servo is LOCKED and every string stands open. -/
def rephaseDue (s : State) : Bool := !s.time.gridOk && s.time.servo == .locked && allOpen s

/-- The instant of the boundary due at `t`, for the period `p` of the frame it starts (R393): the boundary moves to the
grid, or a changed period takes it off the grid. The gap recorded is the time between the two boundaries (DEDUCED,
assumption 102). -/
def gridStep (p t : Nat) (s : State) : State :=
  match s.time.segOfs with
  | none => { tnsTo t s with sys.t0 := t, time.gridOk := false }
  | some o =>
    if rephaseDue s then
      let u := nextSeg o p t
      emit 0x0103 (le 4 (sat 32 (u - s.sys.t0))) { tnsTo u s with sys.t0 := u, time.gridOk := true }
    else { tnsTo t s with sys.t0 := t, time.gridOk := onSeg o p t }

/-! ## Modes at a boundary -/

/-- The fields in which SYS_MODE_ACT differs from the request in force (R30). -/
def modeDiff (req act : Word) : BitVec 6 :=
  let d (hi lo k : Nat) := if bits req hi lo = bits act hi lo then 0 else 2 ^ k
  BitVec.ofNat 6 (d 17 16 0 + d 25 24 1 + d 27 26 2 + d 23 22 3 + d 21 20 4 + d 15 0 5)

/-- Throttle actions follow throttle, which every L-die sensor's failure enters (R410, R412). -/
def throttleActs (s : State) : State :=
  let s1 := if s.therm.lBlind && !s.therm.throtOn then
      throttleEnter ((hiReported s (rangeFrom 16 4)).map fun x => (x.1, 0xFF)) s else s
  { s1 with therm.acting := s1.therm.throtOn }

/-- The scheduled request comes into force (R29); a change of PAIR_SPLIT or ACQ for the following boundary schedules its
hand-over (R362). -/
def modeRequests (s : State) : State :=
  let force := s.sys.modeNext.getD s.sys.modeForce
  let s1 := { s with sys.modeForce := force, sys.modeNext := s.sys.modeLater, sys.modeLater := none }
  match s1.sys.modeNext with
  | some m =>
    if bits m 15 0 ≠ bits force 15 0 ∨ bits m 17 16 ≠ bits force 17 16 then
      { s1 with pairs.handAt := s1.pairs.handAt ++ [s1.time.frm + 1] }
    else s1
  | none => s1

/-- N_ACQ of a node at a boundary (R138): a confirmed write applies at its APPLY_SEQ, and when ACQ or BAL has changed a
node counts as confirmed only when it runs the new modes. -/
def nodeBoundary (changed : Bool) (s : State) (n0 : Node) : Node :=
  let n := ofsApply n0
  let n1 := match n.acqReq with
    | some (m, c, q) => if q = s.time.frm.toNat % 256 then { n with acqMode := m, comp := c, acqReq := none } else n
    | none => n
  if changed then { n1 with acqOk := acqMatch s n1, rxA := none, rxB := none }
  else { n1 with acqOk := n1.acqOk || acqMatch s n1, rxA := none, rxB := none }

/-- N_ACQ is written to the nodes that do not run the modes in force and have no such write under way: the change was the
device's own and could not be announced. -/
def acqCatchUp (r : Nat) (s : State) : State :=
  (positions s r).foldl (fun s p =>
    let n := nodeOf s r p
    let under := n.acqReq.isSome || (ringOf s r).mgmt.any fun m => m.write && m.addr == 0x30 && m.pos == p
    if n.kind = 0 || n.acqOk || under then s
    else acqWrite r p (acqMode s) (n.kind == 1 && compMode s && n.coup.valid) s.time.frm.toNat s) s

/-- The nodes of both rings at a boundary: the slots of the last frame go, each node is read from the port it still reaches
(R117), and N_ACQ follows the modes. -/
def nodesBoundary (changed : Bool) (s : State) : State :=
  [0, 1].foldl (fun s r =>
    let s1 := modRing s r fun x => { x with
      collected := false, measured := false, nodes := x.nodes.map fun pn => (pn.1, nodeBoundary changed s pn.2) }
    acqCatchUp r (reach r s1)) s

/-- SYS_MODE_ACT is formed, and MODE_LIMITED rises for a field that comes to differ (R30). -/
def modeTake (s : State) : State :=
  let act := modeActOf s s.sys.modeForce
  let diff := modeDiff s.sys.modeForce act
  emitIf (diff &&& ~~~s.sys.modeLim != 0) 0x0787 (le 4 s.sys.modeForce.toNat ++ le 4 act.toNat)
    { s with sys.modeAct := act, sys.modeLim := diff }

/-- VCORE from this boundary on (R412, R548): forced for BIST, at the floor in RUN-ECO and throttle, raised after tight
kernel work. -/
def vcoreBoundary (s : State) : State :=
  if s.pwr.force = 1 then s
  else if bits s.sys.modeAct 25 24 = 1 then { s with pwr.vcore := 1, pwr.loose := 0, pwr.tight := false }
  else if s.pwr.tight then { s with pwr.vcore := 3, pwr.loose := 0, pwr.tight := false }
  else if s.pwr.vcore = 3 then s
  else { s with pwr.vcore := 2 }

/-- The units at a boundary (R354, R358, R362, R367): an UNVERIFIED pair runs as split, the cells of quarantined pairs are
placed, and a changed ACQ changes the capacities. In Fast mode this waits for the commit of the frame before. -/
def unitsBoundary (s : State) : State :=
  let s1 := unverSplit s
  let s2 := { s1.pairs.fill.foldl (fun s q => fillRule q s) s1 with pairs.fill := [] }
  let s3 := if s2.pairs.dbg.state != .none && decide (upper s2 < 3) then dbgEnd 3 s2 else s2
  settle s3

/-- A change of SYS_MODE_ACT.ACQ (R331, R362): windows end, and the cells are assigned anew by a hand-over. -/
def acqChanged (s : State) : State :=
  let s1 := winEndAll s
  if s1.pairs.handDone == some s1.time.frm && s1.sys.run.kernel then evenRule (acqMode s1) s1
  else { s1 with pairs.handAt := s1.pairs.handAt ++ [s1.time.frm] }

/-- Compensated mode has come into force: coupling identification is due on every cell node (R147). -/
def coupWanted (old : Word) (s : State) : State :=
  if bits old 27 26 ≠ 1 ∧ compMode s then acqCoupId s else s

/-- The modes of a new frame. -/
def modesBoundary (s0 : State) : State :=
  let old := s0.sys.modeAct
  let s1 := modeTake s0
  let act := s1.sys.modeAct
  let acq := decide (bits old 17 16 ≠ bits act 17 16)
  let s2 := nodesBoundary (!sameAcq old act) s1
  let s3 := coupWanted old (if acq then acqChanged s2 else s2)
  vcoreBoundary (if bits old 23 22 ≠ bits act 23 22 then winDiscard s3 else s3)

/-- FRAME_BOUNDARY (R14, R29, R30, R104, R387, R393, R412, R433): at the next boundary of the grid the ledger counts the
frame that ends, FRM increments, throttle actions and scheduled modes take effect, and TRIG leaves all four ring
ports. -/
def execFrameBoundary (s : State) : Host.Outcome State Fault Refusal :=
  .next (if !s.sys.run.acq || s.sys.frameOpen || (s.sys.commitDue && acqMode s != 1) then s
    else
      let t := nextGrid s.sys.t0 (period s) s.time.tns
      let s1 := throttleActs (modeRequests (frmNext (ledgFrame s)))
      let new := bits (modeActOf s1 s1.sys.modeForce) 17 16
      let s2 := gridStep (periodOf new) t s1
      let s3 := curBoundary (modesBoundary { s2 with sys.frameOpen := true })
      let s4 := if s3.sys.commitDue then s3 else unitsBoundary s3
      settle (if s4.pwr.state == .standby then stopAcq s4 else s4))

/-! ## Cut-off and commit point -/

/-- The acquisition cut-off after t0 (R14, R15). -/
def cutNs (mode : Nat) : Nat := if mode = 1 then 120000 else if mode = 2 then 2000000 else 350000

/-- The auxiliary inputs are converted in this frame (R183): every frame, in Fast mode every fourth. -/
def auxDue (s : State) : Bool := acqMode s != 1 || decide (s.time.frm.toNat % 4 = 0)

/-- Converted AUX codes (R183). -/
def auxTake (aux : List Nat) (s : State) : State :=
  if auxDue s then
    { s with cur.aux := (List.range 8).foldl (fun t i => Tab.set 0 t i (sat 16 (aux.getD i 0))) [], cur.auxDone := true }
  else s

/-- Both Husk copies compare the frame's values in their slots (R19, R199). -/
def frameCompare (s : State) : State := modBoth s fun h => slotsCount s h

/-- The charge between the last two sample instants has been taken. -/
def chargeTaken (s : State) : State :=
  (List.range 4).foldl (fun s i => modCurStr s i fun x => { x with qS := 0 }) s

/-- ACQUISITION_CUT_OFF (R14, R15, R102, R143, R153, R199, R228, R229): the frame's records close, what did not arrive is
MISSING, the aggregates close and are compared, the monitors are evaluated, COMMAND leaves, and the closed records go to
estimation, kernel, Winnow and ledger. `aux`: the codes of the auxiliary inputs. -/
def execAcquisitionCutOff (aux : List Nat) (s : State) : Host.Outcome State Fault Refusal :=
  .next (if !s.sys.run.acq || !s.sys.frameOpen || s.sys.commitDue then s
    else
      let s1 := acqClose (curClose (auxTake aux (tnsTo (max s.time.tns (s.sys.t0 + cutNs (acqMode s))) s)))
      let s2 := frameCompare ((strings s1).foldl (fun s i => crossCheck i s) s1)
      let s3 := ledgVsum (monitorsClose s2)
      let s4 := { s3 with sys.frmCut := s3.time.frm, sys.frameOpen := false, sys.commitDue := true }
      settle (chargeTaken (winCutOff (krnCutOff (estCutOff s4)))))

/-- The margin of the kernel work before the commit point decides VCORE (R548). -/
def kernelMargin (slackNs : Nat) (s : State) : State :=
  if !s.sys.run.kernel then s
  else if slackNs < 100000 then { s with pwr.tight := true, pwr.loose := 0 }
  else if s.pwr.vcore = 3 then { s with pwr.loose := min 1000 (s.pwr.loose + 1) }
  else s

/-- COMMIT_POINT (R14, R16, R18, R262, R336, R548): verified steps commit and publish, unfinished ones are abandoned and
LATE, and Winnow, estimation and the Tally engine take the committed frame. `slackNs`: how long before the commit point
the kernel work ended. -/
def execCommitPoint (slackNs : Nat) (s : State) : Host.Outcome State Fault Refusal :=
  .next (if !s.sys.commitDue then s
    else
      let s1 := krnCommit { s with sys.frmCommit := s.sys.frmCut, sys.commitAt := some s.time.tns }
      let n := ((cells s1).filter fun c => (kCell s1 c).outStat.getLsbD 1).length
      let s2 := emitIf (n != 0) 0x0500 (le 4 n ++ le 4 s1.sys.frmCommit.toNat) s1
      let s3 := tallyUpdate (estCommit (winCommit s2))
      let s4 := kernelMargin slackNs { s3 with sys.sumDue := true, sys.commitDue := false }
      settle (if s4.sys.frameOpen then unitsBoundary s4 else s4))

/-! ## SYS_MODE -/

/-- A SYS_MODE value sets a reserved encoding (R27, R28). -/
def modeReserved (v : Word) : Bool :=
  decide (bits v 27 26 = 3 ∨ bits v 25 24 ≥ 2 ∨ bits v 17 16 = 3)

end Sys2Proof.Machine
end

