-- ==== Sys2Proof/Machine/RegSys.lean ====
section
/-! DEFINITION. What a register write carries beside its data, and the SYS, EVT, PWR, TIME, THERM and IMG windows: for
each window what a word reads, when a write reaches an RWP field, when it is refused, and what it does. -/

namespace Sys2Proof.Machine

/-- A WRITE or WRITE_P request as its words see it: its opcode, port and TAG, and what the device measures or meets
while it carries the write out. -/
structure Req where
  /-- 2 WRITE, 3 WRITE_P -/
  op : Nat
  /-- port -/
  port : Port
  /-- TAG -/
  tag : BitVec 16
  /-- measured conditions -/
  m : WrMeas

/-- A register value from a number. -/
def w32 (n : Nat) : Word := BitVec.ofNat 32 n

/-- `n` bits of a signed value. -/
def tw (n : Nat) (v : Int) : Nat := (v % (2 ^ n : Nat)).toNat

/-- The 32-bit half `k` of a value, saturated at 64 bits. -/
def half (k v : Nat) : Nat := v / 4294967296 ^ k % 4294967296

/-- An index of a run of registers that begins at `base`, `step` bytes apart, `n` of them. -/
def regIx (base step n off : Nat) : Option Nat :=
  if off ≥ base ∧ off < base + step * n ∧ (off - base) % step = 0 then some ((off - base) / step) else none

/-- A W1C counter register is cleared by bit 0 (R515 and its like). -/
def clr (v : Word) (n : Nat) : Nat := if v.getLsbD 0 then 0 else n

/-- The number of a source selection (R64, R90). -/
def srcNum : ImgSrc → Nat
  | .sprout => 0
  | .slotA => 1
  | .slotB => 2

/-! ## SYS (R27, R30, R32, R33, R90, R91, R633) -/

/-- SYS_BOOT (R90). -/
def sysBoot (s : State) : Nat :=
  let y := s.sys
  at' 28 y.cause + at' 24 y.lateStep + at' 12 y.step + at' 8 y.chem + at' 7 (b2n y.chemUnstable) +
    at' 6 (b2n y.presStrap) + at' 4 (srcNum y.src) + at' 3 (b2n y.sectFail) + at' 2 (b2n y.keyRearm)

/-- A word of the SYS window. -/
def readSys (off : Nat) (s : State) : Word :=
  match off with
  | 0x000 => 0x0600
  | 0x004 => Config.sysRev
  | 0x008 => s.sys.frmCut
  | 0x00C => s.sys.frmCommit
  | 0x010 => s.sys.frmSum
  | 0x040 => s.sys.mode
  | 0x044 => s.sys.modeAct
  | 0x048 => s.sys.level
  | 0x04C => w32 s.sys.lateCnt
  | 0x050 => w32 (sysBoot s)
  | 0x054 => w32 (at' 16 s.sys.tL4 + s.sys.tL1)
  | _ => 0

/-- A write of a reserved SYS_MODE encoding is INVALID_VALUE (R28). -/
def chkSys (off : Nat) (v : Word) : Nat := if off = 0x040 ∧ modeReserved v then 2 else 0

/-- A write of a word of the SYS window. -/
def putSys (off : Nat) (v : Word) (s : State) : State :=
  if off = 0x040 then modeAccept (v &&& 0x0FF3FFFF) s
  else if off = 0x04C then { s with sys.lateCnt := clr v s.sys.lateCnt }
  else s

/-! ## EVT (R588 to R590) -/

/-- EVT_ERRQ (R590). -/
def errqWord (s : State) : Nat :=
  let cur := match s.evt.handling with
    | e :: _ => at' 24 e.sev + e.code
    | [] => 0
  at' 27 (s.evt.queue.length + s.evt.handling.length) + at' 26 (b2n s.evt.overflow) + at' 16 s.evt.lost + cur

/-- A word of the EVT window. -/
def readEvt (off : Nat) (s : State) : Word :=
  match regIx 0x000 4 4 off, regIx 0x020 4 8 off, regIx 0x040 4 4 off with
  | some i, _, _ => (s.evt.pend >>> (32 * i)).setWidth 32
  | _, some i, _ => (s.evt.irqmap >>> (32 * i)).setWidth 32
  | _, _, some i => (s.evt.evtmap >>> (32 * i)).setWidth 32
  | _, _, _ => match off with
    | 0x060 => w32 (errqWord s)
    | 0x068 => w32 (at' 4 (b2n s.evt.s3Ledg) + at' 3 (b2n s.nv.tb.hold) + at' 2 (b2n s.evt.s3Brk) +
        at' 1 (b2n s.evt.s3NoNet))
    | _ => 0

/-- A write that sets a map field to 0b11 is INVALID_VALUE (R589). -/
def chkEvt (off : Nat) (v : Word) : Nat :=
  match regIx 0x020 4 8 off with
  | some _ => if (List.range 16).any fun i => bits v (2 * i + 1) (2 * i) = 3 then 2 else 0
  | none => 0

/-- Put 32-bit word `i` of a wide register. -/
def putWord {n : Nat} (i : Nat) (v : Word) (w : BitVec n) : BitVec n :=
  (w &&& ~~~((0xFFFFFFFF : BitVec 32).setWidth n <<< (32 * i))) ||| (v.setWidth n <<< (32 * i))

/-- A write of a word of the EVT window. -/
def putEvt (off : Nat) (v : Word) (s : State) : State :=
  match regIx 0x000 4 4 off, regIx 0x020 4 8 off, regIx 0x040 4 4 off with
  | some i, _, _ => { s with evt.pend := s.evt.pend &&& ~~~(v.setWidth 128 <<< (32 * i)) }
  | _, some i, _ => { s with evt.irqmap := putWord i v s.evt.irqmap }
  | _, _, some i => { s with evt.evtmap := putWord i v s.evt.evtmap }
  | _, _, _ => if off = 0x064 ∧ v.getLsbD 0 then { s with evt.s3Ledg := false } else s

/-! ## PWR (R562 to R565) -/

/-- PWR_STATUS.STATE (R562). -/
def pwrStateNum (s : State) : Nat := match s.pwr.state with
  | .standby => 2
  | .sleepEntry => 3
  | .sleep => 3
  | .waking => 4
  | .shipEntry => 5
  | .leaving => 6
  | _ => bits s.sys.modeAct 25 24

/-- PWR_STATUS (R562). -/
def pwrStatus (s : State) : Nat :=
  let p := s.pwr
  at' 28 (pwrStateNum s) + at' 26 p.vcore + at' 24 p.pfw + at' 23 (b2n p.armed) + at' 22 (b2n p.chg) +
    at' 21 (b2n p.wakeOut) + at' 16 (p.pg.toNat % 16)

/-- A word of the PWR window. -/
def readPwr (off : Nat) (s : State) : Word :=
  match off with
  | 0x000 => w32 (pwrStatus s)
  | 0x008 => w32 (at' 8 s.pwr.autoSleep + s.nv.keys.pfwLevel)
  | 0x00C => w32 (at' 16 s.pwr.cause + s.pwr.count)
  | 0x010 => w32 (at' 16 s.pwr.vhold + s.pwr.vsup)
  | 0x014 => w32 (at' 16 s.pwr.pfwCnt + s.pwr.railCnt)
  | _ => 0

/-- A PWR write is refused (R563, R564). -/
def chkPwr (off : Nat) (v : Word) (s : State) : Nat :=
  match off with
  | 0x004 => pwrCtrlChk (v &&& 0x3F) s
  | 0x008 => if allOpen s then 0 else 9
  | _ => 0

/-- A write of a word of the PWR window. -/
def putPwr (q : Req) (off : Nat) (v : Word) (s : State) : State :=
  if off = 0x004 then pwrCtrlPut q.op q.port q.tag (v &&& 0x3F) s
  else if off = 0x008 then pwrCfgPut (bits v 15 8) (bits v 1 0) s
  else if off = 0x014 then { s with pwr.pfwCnt := clr v s.pwr.pfwCnt, pwr.railCnt := clr v s.pwr.railCnt }
  else s

/-! ## TIME (R402 to R404) -/

/-- TIME_STATUS (R402). -/
def timeStatus (s : State) : Nat :=
  let t := s.time
  let v := match t.servo with
    | .free => 0
    | .acquire => 1
    | .locked => 2
    | .holdover => 3
  at' 30 v + at' 29 (b2n t.gridOk) + at' 28 (b2n t.wallOfs.isSome) + at' 27 (b2n t.xtalLock) + at' 26 (b2n t.xtalLost) +
    at' 8 (t.lBand.getD 7) + at' 4 (t.pBand.getD 7) + b2n t.wide

/-- A word of the TIME window, with the latches of the reading port (R404). -/
def readTime (p : Port) (off : Nat) (s : State) : Word :=
  let l := (portOf s p).lat
  match off with
  | 0x000 => w32 (timeStatus s)
  | 0x004 => w32 (at' 1 (b2n s.time.syncEn))
  | 0x008 => w32 s.time.tns
  | 0x00C => l.tnsHi
  | 0x010 => l.wallLo
  | 0x014 => l.wallHi
  | 0x018 => s.time.wallSetLo
  | 0x020 => l.frm
  | 0x024 => w32 (tw 32 s.time.syncErr)
  | 0x028 => w32 (tw 32 (roundRat (s.time.rate * 1000000000)))
  | 0x02C => w32 (at' 24 s.time.dlPct + at' 16 s.time.mramNs + at' 4 s.time.refTrim)
  | 0x030 => w32 (at' 16 s.time.pCnt + s.time.lCnt)
  | _ => 0

/-- A write of a word of the TIME window. -/
def putTime (off : Nat) (v : Word) (s : State) : State :=
  if off = 0x004 then timeCtrlWrite v s
  else if off = 0x018 then { s with time.wallSetLo := v }
  else if off = 0x01C then wallSet v s
  else if off = 0x030 then { s with time.lCnt := clr v s.time.lCnt, time.pCnt := clr v s.time.pCnt }
  else s

/-! ## THERM (R416 to R418) -/

/-- The failed sensors of a list as a mask, the first in bit 0. -/
def failMask (s : State) (is : List Nat) : Nat :=
  ((is.zipIdx).map fun e => if (sensor s e.1).failed then 2 ^ e.2 else 0).sum

/-- THERM_STATUS (R416). -/
def thermStatus (s : State) : Nat :=
  let t := s.therm
  at' 30 (if t.throtOn then 2 else if t.warnOn then 1 else 0) + at' 29 (b2n s.nv.tb.hold) +
    at' 28 (b2n t.failHold.isSome) + at' 27 (b2n t.ecoLock) + at' 26 (b2n t.pBlind) + at' 24 t.rate +
    at' 20 (failMask s (rangeFrom 16 4)) + failMask s (List.range 16)

/-- The highest reported value of some sensors, 0 before the first measurement (R418). -/
def thermMax (s : State) (is : List Nat) : Int :=
  if s.therm.measured then ((hiReported s is).map (·.1)).getD 0 else 0

/-- A word of the THERM window. -/
def readTherm' (off : Nat) (s : State) : Word :=
  match regIx 0x040 4 20 off with
  | some i =>
    let x := sensor s i
    w32 (at' 31 (b2n x.failed) + at' 30 (b2n x.subst) + tw 16 x.temp)
  | none => match off with
    | 0x000 => w32 (thermStatus s)
    | 0x008 => w32 (at' 16 (tw 16 (thermMax s (rangeFrom 16 4))) + tw 16 (thermMax s (List.range 16)))
    | 0x00C => w32 (at' 16 (tw 16 s.therm.throt) + tw 16 s.therm.warn)
    | 0x010 => w32 (at' 16 (tw 16 (s.therm.warn - 500)) + tw 16 s.therm.shut)
    | 0x014 => w32 (at' 16 s.nv.tb.shutCnt + at' 8 (min 3 (recentShut s.time.tns s.nv.tb.shut)) + s.therm.lastSensor)
    | _ => 0

/-- A write of a word of the THERM window. -/
def putTherm (off : Nat) (v : Word) (s : State) : State :=
  if off = 0x004 ∧ v.getLsbD 0 then holdClear s else s

/-! ## IMG (R64 to R66) -/

/-- IMG_STATUS.STATE (R64). -/
def imgStateNum : ImgState → Nat
  | .idle => 0
  | .staging => 1
  | .validating => 2
  | .writing => 3
  | .waiting => 4
  | .activating => 5

/-- IMG_STATUS (R64). -/
def imgStatus (s : State) : Nat :=
  let i := s.img
  let pend := match i.pending with
    | .none => 0
    | .hot => 1
    | .cold => 2
  at' 24 i.err + at' 16 i.errSect + at' 10 pend + at' 8 (srcNum i.active) + at' 4 (imgStateNum i.state) +
    at' 3 (b2n i.slotA.valid) + at' 2 (b2n i.slotB.valid) + at' 1 (b2n i.presUsed) + b2n i.fallback

/-- A word of the IMG window. Before slot selection it reads its reset values. -/
def readImg (off : Nat) (s : State) : Word :=
  let i := s.img
  if !i.selected then (if off = 0x01C then w32 i.stageLen else 0)
  else match off with
    | 0x000 => w32 (imgStatus s)
    | 0x008 => w32 i.errLoc
    | 0x00C => w32 (if i.active = .sprout then 0 else imgSeq (slotOf s i.active).bytes)
    | 0x010 => w32 (if i.active = .sprout then 0 else imgBuild (slotOf s i.active).bytes)
    | 0x014 => w32 (imgSeq i.slotA.bytes)
    | 0x018 => w32 (imgSeq i.slotB.bytes)
    | 0x01C => w32 i.stageLen
    | _ => 0

/-- A write of a word of the IMG window: CANCEL, then ABORT_STAGE. -/
def putImg (off : Nat) (v : Word) (s : State) : State :=
  if off ≠ 0x004 then s
  else
    let s1 := if v.getLsbD 0 then imgCancel s else s
    if v.getLsbD 1 then imgAbortStage s1 else s1

end Sys2Proof.Machine
end

