-- ==== Sys2Proof/Machine/RegRing.lean ====
section
/-! DEFINITION. The RING0, RING1, ACQ and CUR windows: what a word reads, when a write reaches an RWP field, when it is
refused, and what it does. -/

namespace Sys2Proof.Machine

/-! ## RINGn (R131 to R134) -/

/-- RINGn_STATUS.STATE (R132). -/
def ringStateNum : RingState → Nat
  | .off => 0
  | .waking => 1
  | .enumerating => 2
  | .whole => 3
  | .wrapped => 4
  | .broken2 => 5
  | .sleeping => 6
  | .failed => 7

/-- RINGn_STATUS (R132). -/
def ringStatus (x : Ring) : Nat :=
  let held := x.nodes.filter fun pn => pn.2.kind ≠ 0
  at' 28 (ringStateNum x.state) + at' 22 x.nA + at' 16 x.nB + at' 10 held.length +
    at' 4 (held.filter fun pn => pn.2.lost).length + at' 3 (b2n x.skewRisk) + at' 2 (b2n (x.thinA || x.thinB)) +
    at' 1 (b2n (decide (x.liveStep ≠ 0))) + b2n x.enumErr

/-- RINGn_NODE_STATE.AUTH (R134). -/
def authNum : Auth → Nat
  | .none => 0
  | .pending => 1
  | .passed => 2
  | .foreignOk => 3
  | .foreignBlock => 4

/-- RINGn_NODE_STATE (R134). -/
def nodeState (n : Node) : Nat :=
  at' 16 (if n.refB then n.ofsCCW else n.ofsCW) + at' 15 (b2n n.refB) + at' 12 (authNum n.auth) + at' 10 n.kind +
    at' 9 (b2n n.lost) + at' 8 (b2n n.skewed) + n.string.getD 15

/-- A word of the window of ring `r`. -/
def readRing (r off : Nat) (s : State) : Word :=
  let x := ringOf s r
  if off ≥ 0x100 ∧ off < 0x100 + 16 * 56 then
    let n := nodeOf s r ((off - 0x100) / 16 + 1)
    match off % 16 with
    | 0 => w32 n.uid.toNat
    | 4 => w32 (half 1 n.uid.toNat)
    | 8 => w32 (at' 16 n.dB + n.dA)
    | _ => w32 (nodeState n)
  else match off with
    | 0x000 => w32 (at' 3 (b2n x.liveEn))
    | 0x004 => w32 (ringStatus x)
    | 0x008 => w32 (at' 24 x.aLast + at' 16 x.bFirst + x.breaks)
    | 0x00C => w32 (at' 16 x.lCCW + x.lCW)
    | 0x010 => w32 x.errA
    | 0x014 => w32 x.errB
    | 0x018 => w32 (at' 16 x.alarmCnt + at' 6 x.alarmKind + x.alarmPos)
    | _ => 0

/-- A write of RINGn_CTRL (R115, R131): LIVE_EN is stored; ENUM and MEAS act while the ring controller runs (R629). -/
def putRingCtrl (r : Nat) (v : Word) (s : State) : State :=
  let s1 := modRing s r fun x => { x with liveEn := v.getLsbD 3 }
  let st := (ringOf s r).state
  if st = .off || st = .sleeping then s1
  else
    let s2 := if v.getLsbD 2 then ringMeasRequest r s1 else s1
    if v.getLsbD 0 then ringEnumRequest r s2 else s2

/-- A write of a word of the window of ring `r`. -/
def putRing (r off : Nat) (v : Word) (s : State) : State :=
  if off = 0x000 then putRingCtrl r v s
  else if off = 0x010 then modRing s r fun x => { x with errA := clr v x.errA }
  else if off = 0x014 then modRing s r fun x => { x with errB := clr v x.errB }
  else s

/-! ## ACQ (R160 to R165) -/

/-- The nodes of string `i` as the master holds them. -/
def strNodes (s : State) (i : Nat) : List Node := (stringNodes s i).map fun rp => nodeOf s rp.1 rp.2

/-- ACQ_STAT of a cell as published at the last cut-off (R635, R638). -/
def pubStat (s : State) (c b : Nat) : Bool := (Tab.get {} s.acq.pub c).stat.getLsbD b

/-- A node has not yet confirmed N_ACQ (R138, R160). -/
def modeSync (s : State) : Bool :=
  [0, 1].any fun r => ((ringOf s r).nodes.any fun pn => pn.2.kind ≠ 0 && !pn.2.acqOk) ||
    (ringOf s r).mgmt.any fun m => m.write && m.addr == 0x30

/-- ACQ_STATUS (R160). -/
def acqStatus (s : State) : Nat :=
  let cn (i : Nat) := (strNodes s i).filter (·.kind == 1)
  at' 20 (mask4 fun i => !(cn i).isEmpty && (cn i).all (·.coup.valid)) +
    at' 16 (mask4 fun i => (cn i).any fun n => !n.ow.broken.isEmpty) + at' 12 s.acq.curHold.toNat +
    at' 8 (mask4 fun i => (stringCells s i).any fun c => pubStat s c 9) + at' 4 (mask4 fun i => (cn i).any (·.coup.busy)) +
    at' 1 (b2n s.acq.phase) + b2n (modeSync s)

/-- The cells of string `i` selected for balancing (R162). -/
def balCount (s : State) (i : Nat) : Nat := ((stringCells s i).filter fun c => (cellAcq s c).sel).length

/-- ACQ_OW_STAT (R162). -/
def owStat (s : State) : Nat :=
  let broken := ((cellNodes s).map fun rp => (nodeOf s rp.1 rp.2).ow.broken.length).sum
  at' 16 s.acq.tests + at' 8 (sat 8 broken) + sat 8 ((cells s).filter fun c => pubStat s c 6).length

/-- The per-cell registers of cell `c` (R164, R165). -/
def readAcqCell (off c : Nat) (s : State) : Nat :=
  match cellNode s c with
  | none => 0
  | some (t, k) =>
    let n := nodeOf s t.ring t.pos
    match off with
    | 0x024 => at' 7 (b2n (cellAcq s c).sel) + at' 6 (b2n (pubStat s c 9)) + at' 5 (b2n (pubStat s c 6)) +
        at' 4 (b2n (pubStat s c 5)) + at' 3 (b2n (pubStat s c 7)) + at' 2 (b2n n.coup.valid) +
        at' 1 (b2n (match n.die with
          | some d => decide (dutyMax d < 30)
          | none => false))
    | 0x028 => at' 16 (sat 16 (n.ow.p.getD k 0)) + sat 16 (n.ow.p.getD (k + 1) 0)
    | 0x02C => at' 16 (Tab.get (0, 0) n.coup.g k).1 + (Tab.get (0, 0) n.coup.g k).2
    | 0x030 => (cellAcq s c).balSec
    | _ => 0

/-- A word of the ACQ window. -/
def readAcqW (p : Port) (off : Nat) (s : State) : Word :=
  match off with
  | 0x000 => w32 (acqStatus s)
  | 0x004 => w32 (at' 4 s.acq.inhibit.toNat)
  | 0x008 => w32 (at' 16 (balCount s 1) + balCount s 0)
  | 0x00C => w32 (at' 16 (balCount s 3) + balCount s 2)
  | 0x010 => w32 (owStat s)
  | 0x014 => w32 (at' 16 s.acq.patrolCnt + s.acq.patrolCause)
  | 0x020 => w32 (portOf s p).sel.acq
  | _ => w32 (readAcqCell off (portOf s p).sel.acq s)

/-- A write of ACQ_CTRL (R161): COUP_ID and OW_NOW act while the acquisition scheduler runs (R629). -/
def putAcqCtrl (v : Word) (s : State) : State :=
  let s1 := { s with acq.inhibit := BitVec.ofNat 4 (bits v 7 4) }
  if !s.sys.run.acq then s1
  else
    let s2 := if v.getLsbD 1 then acqCoupId s1 else s1
    if v.getLsbD 0 then acqOwNow s2 else s2

/-- A write of a word of the ACQ window. -/
def putAcq (p : Port) (off : Nat) (v : Word) (s : State) : State :=
  if off = 0x004 then putAcqCtrl v s
  else if off = 0x020 then modPort p (fun x => { x with sel.acq := bits v 10 0 }) s
  else s

/-! ## CUR (R169, R184 to R188) -/

/-- A mask over the eight channels. -/
def chMask (f : Nat → Bool) : Nat := ((List.range 8).map fun n => if f n then 2 ^ n else 0).sum

/-- CUR_STATUS (R184). -/
def curStatus (s : State) : Nat :=
  at' 28 (mask4 fun i => (curStr s i).disagree) + at' 24 (mask4 fun i => (curStr s i).red) +
    at' 16 (chMask fun n => (curCh s n).sat) + at' 8 (chMask fun n => calOn (curCh s n)) +
    chMask fun n => (curCh s n).run

/-- The registers of channel `n` (R187). -/
def readCh (n k : Nat) (s : State) : Nat :=
  let c := curCh s n
  match k with
  | 0 => at' 1 (b2n c.inv) + b2n c.en
  | 4 => c.fs
  | 8 => tw 16 c.ofs
  | _ => at' 16 c.thrHi + c.thrLo

/-- CUR_AUXn (R183, R188). -/
def auxWord (s : State) (n : Nat) : Nat :=
  let v := Tab.get 0 s.cur.aux n
  if !s.cur.auxDone then 0
  else at' 17 (b2n (decide (v ≥ 0xFFC0))) + at' 16 (b2n (decide (v ≤ 0x0040))) + v

/-- A word of the CUR window. -/
def readCur (off : Nat) (s : State) : Word :=
  if off ≥ 0x040 ∧ off < 0x0C0 then w32 (readCh ((off - 0x040) / 16) (off % 16) s)
  else match regIx 0x0C0 8 4 off, regIx 0x0C4 8 4 off, regIx 0x100 4 8 off, regIx 0x140 4 8 off with
    | some i, _, _, _ => w32 (tw 32 (curStr s i).iS)
    | _, some i, _, _ => w32 (tw 32 (curStr s i).iMean)
    | _, _, some n, _ => w32 (tw 32 (curCh s n).rawPub)
    | _, _, _, some n => w32 (auxWord s n)
    | _, _, _, _ => match off with
      | 0x000 => w32 (curStatus s)
      | 0x004 => w32 (at' 8 (chMask fun n => (curCh s n).latLo) + chMask fun n => (curCh s n).latHi)
      | 0x138 => w32 s.cur.auxPull.toNat
      | _ => 0

/-- The RWP bits of a CUR word (R187). -/
def curRwp (off : Nat) : Word :=
  if off ≥ 0x040 ∧ off < 0x0C0 then
    (match off % 16 with
      | 0 => 0x3
      | 4 => 0xFFFFFFFF
      | 8 => 0xFFFF
      | _ => 0)
  else 0

/-- A write of a CUR word reaches an RWP field (R495): it holds another value than the one read. -/
def reachCur (off : Nat) (v : Word) (s : State) : Bool := (v ^^^ readCur off s) &&& curRwp off != 0

/-- A write that changes a channel's configuration is refused (R169, R187): FS out of range, or its string not standing
open. -/
def chkCur (off : Nat) (v : Word) (s : State) : Nat :=
  if !reachCur off v s then 0
  else if off % 16 = 4 ∧ ¬(10000 ≤ v.toNat ∧ v.toNat ≤ 5000000) then 2
  else chWriteChk ((off - 0x040) / 16) s

/-- A write of a word of the CUR window. -/
def putCur (off : Nat) (v : Word) (s : State) : State :=
  if reachCur off v s then
    let n := (off - 0x040) / 16
    if off % 16 = 0 then chWrite n (fun c => { c with inv := v.getLsbD 1, en := v.getLsbD 0 }) s
    else if off % 16 = 4 then chWrite n (fun c => { c with fs := v.toNat }) s
    else chWrite n (fun c => { c with ofs := toSigned 16 (bits v 15 0) }) s
  else
    if off = 0x008 && s.sys.run.acq then
      let s1 := if v.getLsbD 1 then cmpTest s else s
      if v.getLsbD 0 then calNow s1 else s1
    else if off = 0x138 then { s with cur.auxPull := BitVec.ofNat 8 (bits v 7 0) }
    else s

end Sys2Proof.Machine
end

