-- ==== Sys2Proof/Machine/RegHusk.lean ====
section
/-! DEFINITION. The HUSK, DRV, KRN, PAIR and DBG windows: what a word reads, when a write reaches an RWP field, when it
is refused, and what it does. -/

namespace Sys2Proof.Machine

/-! ## HUSK (R214, R219 to R223) -/

/-- HUSK_STATUS (R219). -/
def huskStatus (s : State) : Nat :=
  let h := s.husk
  let src := match h.nlSrc with
    | .none => 0
    | .rom => 1
    | .image => 2
  at' 30 src + at' 3 (b2n (h.copyFault || h.romHeld)) + at' 2 (b2n (h.divs.any (·.till.isNone))) + at' 1 (b2n h.shadowOk) + b2n h.mainOk

/-- Grace time left on string `i`, in started units of 10 ms (R223). -/
def graceLeft (s : State) (i : Nat) : Nat := match Tab.get none s.husk.grace i with
  | some t => sat 16 ((t - s.time.tns + 9999999) / 10000000)
  | none => 0

/-- HUSK_TRIP (R220). -/
def huskTrip (s : State) : Nat :=
  at' 12 (mask4 fun i => (Tab.get none s.husk.grace i).isSome) + at' 8 (mask4 (latched s 2)) +
    at' 4 (mask4 (latched s 1)) + mask4 (latched s 0)

/-- HUSK_SLOT_OUTi: slots asserted in either copy (R223). -/
def slotOut (s : State) (i : Nat) : Nat :=
  ((List.range 32).map fun j =>
    let k := 32 * i + j
    if (Tab.get {} s.husk.main.slots k).out || (Tab.get {} s.husk.shadow.slots k).out then 2 ^ j else 0).sum

/-- A word of the HUSK window. -/
def readHuskW (off : Nat) (s : State) : Word :=
  match regIx 0x020 4 4 off, regIx 0x040 4 8 off with
  | some i, _ => causeWord (Tab.get {} s.husk.cause i)
  | _, some i => w32 (slotOut s i)
  | _, _ => match off with
    | 0x000 => w32 (huskStatus s)
    | 0x004 => w32 (huskTrip s)
    | 0x008 => w32 (at' 8 s.husk.closeReq.toNat)
    | 0x00C => w32 (at' 16 s.husk.eccCnt + s.husk.divCnt)
    | 0x010 => s.husk.net.crc
    | 0x014 => w32 (at' 16 (graceLeft s 1) + graceLeft s 0)
    | 0x018 => w32 (at' 16 (graceLeft s 3) + graceLeft s 2)
    | _ => 0

/-- HUSK_CTRL.OPEN of string `i` (R221): its orderly open starts, CLOSE_REQ clears, and its host open source is asserted
until the string stands open. -/
def hostOpen (i : Nat) (s : State) : State :=
  orderlyOpen [false, true] i { s with
    husk.closeReq := setBit4 s.husk.closeReq i false
    husk.hostOpen := setBit4 s.husk.hostOpen i (!standsOpen s i) }

/-- A write of HUSK_CTRL (R214, R221): CLOSE_REQ is stored, then strings open, then clear requests are made. OPEN and
TRIP_CLR act while Husk runs (R629). -/
def putHuskCtrl (v : Word) (s : State) : State :=
  let s1 := if s.pwr.state == .shipEntry then s else { s with husk.closeReq := BitVec.ofNat 4 (bits v 11 8) }
  if !s.sys.run.husk then s1
  else
    let s2 := ((List.range 4).filter fun i => v.getLsbD (4 + i)).foldl (fun s i => hostOpen i s) s1
    ((List.range 4).filter fun i => v.getLsbD i).foldl (fun s i => clearRequest 1 i s) s2

/-- A write of a word of the HUSK window. -/
def putHusk (off : Nat) (v : Word) (s : State) : State :=
  if off = 0x008 then putHuskCtrl v s
  else if off = 0x00C then { s with husk.divCnt := clr v s.husk.divCnt, husk.eccCnt := clr v s.husk.eccCnt }
  else s

/-! ## DRV (R244 to R246) -/

/-- DRV_STATUS (R244). -/
def drvStatus (s : State) : Nat :=
  let st (i : Nat) := at' (16 + 4 * i) (drvState s i)
  st 0 + st 1 + st 2 + st 3 + at' 12 (mask4 fun i => (drvStr s i).weld) + at' 8 (mask4 fun i => (drvStr s i).unchk) +
    at' 4 (mask4 fun i => (seqOf s.husk.main (4 * i)).fault || (seqOf s.husk.shadow (4 * i)).fault) +
    at' 3 (b2n s.drv.chatter) + at' 2 (b2n s.drv.key) + at' 1 (b2n (Tab.get {} s.drv.hvil 1).fault) +
    b2n (Tab.get {} s.drv.hvil 0).fault

/-- A mask over the twelve pre-driver channels. -/
def drvMask (f : Nat → Bool) : Nat := ((List.range 12).map fun n => if f n then 2 ^ n else 0).sum

/-- DRV_HVILn (R246). -/
def hvilWord (x : Hvil) : Nat := at' 15 (b2n x.fault) + at' 14 (b2n x.chatter) + x.iRet

/-- A word of the DRV window. -/
def readDrvW (off : Nat) (s : State) : Word :=
  match regIx 0x040 4 12 off, regIx 0x080 4 2 off, regIx 0x0C0 4 4 off with
  | some n, _, _ => w32 (drvCh s n).coil
  | _, some n, _ => w32 (hvilWord (Tab.get {} s.drv.hvil n))
  | _, _, some i => w32 (at' 16 (drvStr s i).tau + (drvStr s i).tDone)
  | _, _, _ => match off with
    | 0x000 => w32 (drvStatus s)
    | 0x004 => w32 (at' 12 (drvMask fun n => (drvCh s n).econ) + drvMask fun n => chOn s (n / 3) (n % 3))
    | 0x008 => w32 (at' 12 (drvMask fun n => (drvCh s n).drive) + drvMask fun n => (drvCh s n).openF)
    | 0x010 => w32 (((List.range 4).map fun i => at' (4 * i) (drvStr s i).preRes).sum)
    | _ => 0

/-- A write of DRV_CTRL (R245): a weld check starts on a string that stands open; it acts while the drivers and Husk
run (R629). -/
def putDrv (off : Nat) (v : Word) (s : State) : State :=
  if off = 0x00C ∧ s.sys.run.husk ∧ s.sys.run.drivers then
    ((strings s).filter fun i => v.getLsbD i && standsOpen s i).foldl (fun s i => startWeld i s) s
  else s

/-! ## KRN (R273 to R277) -/

/-- KRN_STATUS (R273). -/
def krnStatus (s : State) : Nat :=
  let run := s.sys.run.kernel
  at' 31 (b2n run) + at' 30 (b2n (run && decide (s.pwr.vcore ≥ 1))) +
    at' 16 ((List.range 8).map fun g => if s.krn.loaded && (s.cfg.prog[g]?).isSome then 2 ^ g else 0).sum + s.krn.stepped

/-- KRN_CELL_STAT of cell `c` (R276). -/
def krnCellStat (s : State) (c : Nat) : Nat :=
  if !cellConf s c then 0
  else
    let k := kCell s c
    at' 27 k.lane + at' 24 ((groupOf s c).getD 0) + at' 16 k.rejectRun + at' 3 (b2n (k.outStat.getLsbD 4)) +
      at' 2 (b2n k.numeric) + at' 1 (b2n k.init) + b2n (!steppable s c)

/-- The registers of cell group `g` (R277). -/
def readGrp (g k : Nat) (s : State) : Nat :=
  match if s.krn.loaded then s.cfg.prog[g]? else none with
  | none => 0
  | some p => match k with
    | 0 => p.id
    | 4 => at' 16 p.wNs + p.words.length
    | 8 => p.live.toNat
    | _ => ((cells s).filter fun c => groupOf s c == some g).length

/-- A word of the KRN window. -/
def readKrn (p : Port) (off : Nat) (s : State) : Word :=
  if off ≥ 0x040 ∧ off < 0x0C0 then w32 (readGrp ((off - 0x040) / 16) (off % 16) s)
  else match off with
    | 0x000 => w32 (krnStatus s)
    | 0x004 => w32 s.krn.numCnt
    | 0x008 => w32 s.krn.reinitCnt
    | 0x00C => w32 (at' 27 s.krn.maxLane + s.krn.maxNs)
    | 0x020 => w32 (portOf s p).sel.krn
    | 0x024 => w32 (krnCellStat s (portOf s p).sel.krn)
    | _ => 0

/-- A write of a word of the KRN window. -/
def putKrn (p : Port) (off : Nat) (v : Word) (s : State) : State :=
  if off = 0x004 then { s with krn.numCnt := clr v s.krn.numCnt }
  else if off = 0x008 then { s with krn.reinitCnt := clr v s.krn.reinitCnt }
  else if off = 0x020 then modPort p (fun x => { x with sel.krn := bits v 10 0 }) s
  else s

/-! ## PAIR (R373 to R376) -/

/-- The state of pair `q` in PAIR_STATE (R373). -/
def pairCode (s : State) (q : Nat) : Nat :=
  if !s.sys.run.kernel || pairOut s q then 3
  else if (pairOf s q).unver then 2 else if (pairOf s q).split then 1 else 0

/-- A mask over the sixteen pairs. -/
def pairMask (f : Nat → Bool) : Nat := ((List.range 16).map fun q => if f q then 2 ^ q else 0).sum

/-- PAIR_Qq_CELLS (R376). -/
def pairCells (s : State) (q : Nat) : Nat :=
  let cs := assigned s (2 * q) ++ assigned s (2 * q + 1)
  at' 16 cs.length + (cs.foldl (fun m c => some (match m with
    | some x => min x c
    | none => c)) (none : Option Nat)).getD 0

/-- A word of the PAIR window. -/
def readPair (off : Nat) (s : State) : Word :=
  match regIx 0x040 8 16 off, regIx 0x044 8 16 off with
  | some q, _ => w32 (pairCells s q)
  | _, some q => w32 (at' 16 (pairOf s q).mmC + (pairOf s q).mmL)
  | _, _ => match off with
    | 0x000 => w32 (((List.range 16).map fun q => at' (2 * q) (pairCode s q)).sum)
    | 0x004 => w32 (at' 16 (pairMask fun q => (pairOf s q).unver) + pairMask fun q => (pairOf s q).quar)
    | 0x00C => w32 (at' 16 s.pairs.mmL + s.pairs.mmC)
    | 0x010 => w32 (at' 16 s.pairs.inj + s.pairs.dead)
    | 0x014 => w32 s.pairs.rb
    | 0x018 => w32 s.pairs.stale.length
    | _ => 0

/-- A write of a word of the PAIR window; RELEASE acts while the kernel cluster runs (R629). -/
def putPair (off : Nat) (v : Word) (s : State) : State :=
  if off = 0x008 then if s.sys.run.kernel then pairRelease (BitVec.ofNat 16 (bits v 15 0)) s else s
  else if off = 0x00C then { s with pairs.mmC := clr v s.pairs.mmC, pairs.mmL := clr v s.pairs.mmL }
  else if off = 0x010 then { s with pairs.inj := clr v s.pairs.inj, pairs.dead := clr v s.pairs.dead }
  else if off = 0x014 then { s with pairs.rb := clr v s.pairs.rb }
  else s

/-! ## DBG (R367 to R372, R377 to R380) -/

/-- A debug session is open. -/
def dbgIsOpen (s : State) : Bool := s.pairs.dbg.state == .entering || s.pairs.dbg.state == .running ||
  s.pairs.dbg.state == .halted

/-- DBG_STATUS (R378). -/
def dbgStatus (s : State) : Nat :=
  let d := s.pairs.dbg
  let st := match d.state with
    | .none => 0
    | .entering => 1
    | .running => 2
    | .halted => 3
    | .leaving => 4
  at' 28 st + at' 24 d.refuse + at' 17 (b2n d.mm) + at' 16 (b2n d.chkAt) + d.replay.length

/-- A word of the DBG window (R380). -/
def readDbg (off : Nat) (s : State) : Word :=
  let d := s.pairs.dbg
  let m := laneOf s (2 * d.pair)
  let shown := d.state == .halted
  if off ≥ 0x800 ∧ off < 0x1000 then (if shown then Tab.get 0 d.sw ((off - 0x800) / 4) else 0)
  else match regIx 0x080 4 32 off, regIx 0x600 4 128 off with
    | some i, _ => if shown then Tab.get 0 m.f i else 0
    | _, some i => if shown then Tab.get 0 d.out i else 0
    | _, _ => match off with
      | 0x000 => w32 (at' 8 (b2n (dbgIsOpen s)) + d.pair)
      | 0x004 => w32 (dbgStatus s)
      | 0x00C => d.brk
      | 0x010 => if d.state == .running || d.state == .halted then w32 (at' 21 m.pc + m.cell.getD 0) else 0
      | 0x014 => if shown then m.p.setWidth 32 else 0
      | 0x018 => w32 (at' 16 d.count + d.first)
      | _ => 0

/-- A write of a DBG word reaches an RWP field (R377, R495). -/
def reachDbg (off : Nat) (v : Word) (s : State) : Bool :=
  decide (off = 0x000) && (v.getLsbD 8 || decide (bits v 3 0 ≠ s.pairs.dbg.pair))

/-- The register, predicate or shadow word that a DBG word is logged as (R371). -/
def dbgTarget (off : Nat) : Option Nat :=
  if off ≥ 0x800 ∧ off < 0x1000 then some (64 + (off - 0x800) / 4)
  else if off = 0x014 then some 32
  else regIx 0x080 4 32 off

/-- A DBG write is refused: DBG_SHADOW out of range, or no room in the replay queue after the `n` words of the request
that come before (R371, R380). -/
def chkDbg (n off : Nat) (v : Word) (s : State) : Nat :=
  if off = 0x018 then (if 1 ≤ bits v 19 16 ∧ bits v 19 16 ≤ 8 then 0 else 2)
  else if (dbgTarget off).isSome && dbgOpenRegs s && decide (s.pairs.dbg.replay.length + n ≥ 256) then 1
  else 0

/-- A write of DBG_SESSION (R367, R372, R377): CLOSE, then OPEN. PAIR is stored while no session is open. -/
def putDbgSession (v : Word) (s : State) : State :=
  let s1 := if v.getLsbD 9 then dbgEnd 1 s else s
  let q := bits v 3 0
  let s2 := if s1.pairs.dbg.state == .none then { s1 with pairs.dbg.pair := q } else s1
  if v.getLsbD 8 then dbgOpen q s2 else s2

/-- A write of DBG_CTRL (R370, R379): HALT, RESUME and STEP. -/
def putDbgCtrl (v : Word) (s : State) : State :=
  let s1 := if v.getLsbD 0 then dbgHalt s else s
  let s2 := if v.getLsbD 1 then dbgResume s1 else s1
  if v.getLsbD 2 then dbgStep s2 else s2

/-- A write of a word of the DBG window. Every write restarts the 10 min of R372. -/
def putDbg (q : Req) (off : Nat) (v : Word) (s0 : State) : State :=
  let s := { s0 with pairs.dbg.lastAt := s0.time.tns }
  match dbgTarget off with
  | some t => dbgWrite t v q.m.bad s
  | none =>
    if off = 0x000 then putDbgSession v s
    else if off = 0x008 then putDbgCtrl v s
    else if off = 0x00C then { s with pairs.dbg.brk := v &&& 0xFFE007FF }
    else if off = 0x018 then
      if dbgIsOpen s then s else
        { s with pairs.dbg.count := bits v 19 16, pairs.dbg.first := bits v 10 0 }
    else s

end Sys2Proof.Machine
end

