-- ==== Sys2Proof/Machine/RegEst.lean ====
section
/-! DEFINITION. The EST and WIN windows: what a word reads, when a write reaches an RWP field, and what it does. -/

namespace Sys2Proof.Machine

/-! ## EST (R311 to R318) -/

/-- The registers of the selected cell (R317, R318). -/
def readEstCell (off c : Nat) (s : State) : Word :=
  if !cellConf s c then 0
  else
    let e := eCell s c
    match off with
    | 0x024 => e.flags
    | 0x028 => w32 (at' 16 e.sigma + e.soc)
    | 0x02C => w32 e.cc
    | 0x030 => w32 e.cap
    | 0x034 => w32 e.rs
    | 0x038 => w32 (at' 16 e.sohR + e.sohC)
    | 0x03C => w32 e.capre
    | _ => 0

/-- Register `k` of string `i` (R314, R315). -/
def readEstStr (i k : Nat) (s : State) : Word :=
  let e := eStr s i
  match k with
  | 0 => e.socReg
  | 1 => w32 (tw 32 e.jump)
  | 2 => w32 e.eres
  | 3 => w32 e.tres
  | _ => w32 ((e.pd ++ e.pc ++ e.idl ++ e.icl).getD (k - 4) 0)

/-- EST_CHAR (R313). -/
def estChar (s : State) : Nat := at' 24 s.ledg.live.era + at' 20 s.est.chr.step + at' 16 s.est.chr.result

/-- A word of the EST window. -/
def readEstW (p : Port) (off : Nat) (s : State) : Word :=
  if off ≥ 0x100 ∧ off < 0x200 then readEstStr ((off - 0x100) / 64) (off % 64 / 4) s
  else match off with
    | 0x000 => s.est.status &&& ~~~1 ||| w32 (b2n (decide (upper s ≥ 3)))
    | 0x008 => w32 (estChar s)
    | 0x00C => w32 (tw 32 s.est.chr.req)
    | 0x010 => w32 (at' 16 s.est.packDis + s.est.packChg)
    | 0x020 => w32 (portOf s p).sel.est
    | _ => readEstCell off (portOf s p).sel.est s

/-- A write of EST_CTRL (R303, R312): HOLD, RELEASE, then CC_RESEED. -/
def putEstCtrl (v : Word) (s : State) : State :=
  let s1 := if v.getLsbD 1 then reserveHold s else s
  let s2 := if v.getLsbD 0 then reserveRelease s1 else s1
  if v.getLsbD 2 then ccReseed s2 else s2

/-- A write of a word of the EST window. -/
def putEst (p : Port) (off : Nat) (v : Word) (s : State) : State :=
  match regIx 0x104 64 4 off with
  | some i => if v.getLsbD 0 then modEStr s i fun e => { e with jump := 0 } else s
  | none =>
    if off = 0x004 then putEstCtrl v s
    else if off = 0x008 then
      let s1 := if v.getLsbD 1 then charAbort s else s
      if v.getLsbD 0 then charStart s1 else s1
    else if off = 0x020 then modPort p (fun x => { x with sel.est := bits v 10 0 }) s
    else s

/-! ## WIN (R343 to R348) -/

/-- WIN_STATUS (R343). -/
def winStatus (s : State) : Nat :=
  at' 31 (b2n s.sys.run.winnow) + at' 30 (b2n s.win.freeze) + at' 28 (winRate s) + at' 23 (b2n (winChar s)) +
    (s.win.cells.filter fun cw => cw.2.win.isSome).length

/-- The registers of the selected cell (R347, R348). -/
def readWinCell (off c : Nat) (s : State) : Word :=
  if !cellConf s c then 0
  else
    let w := wCell s c
    match off with
    | 0x024 => w32 (at' 28 w.band + at' 24 w.bin + at' 20 w.srcBand + at' 16 w.srcBin +
        (zEntry s c w.srcBand w.srcBin).conf)
    | 0x028 => w32 w.outRun
    | _ => 0

/-- A word of the WIN window. -/
def readWinW (p : Port) (off : Nat) (s : State) : Word :=
  match off with
  | 0x000 => w32 (winStatus s)
  | 0x004 => w32 (b2n s.win.freeze)
  | 0x008 => w32 s.win.evtCnt
  | 0x00C => w32 s.win.rlsCnt
  | 0x010 => w32 s.win.tailCnt
  | 0x014 => w32 (at' 16 s.win.rejOut + s.win.rejBound)
  | 0x020 => w32 (portOf s p).sel.win
  | _ => readWinCell off (portOf s p).sel.win s

/-- A write of a word of the WIN window; CLR_CELL acts while Winnow runs (R629). -/
def putWin (p : Port) (off : Nat) (v : Word) (s : State) : State :=
  if off = 0x004 then
    let s1 := { s with win.freeze := v.getLsbD 0 }
    if v.getLsbD 1 && s.sys.run.winnow then winClear (portOf s p).sel.win s1 else s1
  else if off = 0x008 then { s with win.evtCnt := clr v s.win.evtCnt }
  else if off = 0x00C then { s with win.rlsCnt := clr v s.win.rlsCnt }
  else if off = 0x010 then { s with win.tailCnt := clr v s.win.tailCnt }
  else if off = 0x014 then { s with win.rejOut := clr v s.win.rejOut, win.rejBound := clr v s.win.rejBound }
  else if off = 0x020 then modPort p (fun x => { x with sel.win := bits v 10 0 }) s
  else s

end Sys2Proof.Machine
end

