-- ==== Sys2Proof/Machine/RegNv.lean ====
section
/-! DEFINITION. The NV and LEDG windows, which share 0x0001_0000 to 0x0001_1FFF: what a word reads, when a write reaches
an RWP field, when it is refused, and what it does. Offsets of LEDG registers are counted from 0x0001_0000. -/

namespace Sys2Proof.Machine

/-- The little-endian word at byte `off` of a run of bytes; zero beyond its end. -/
def wordAt (bs : List Byte) (off : Nat) : Word := w32 (fld bs off 4)

/-! ## NV (R445 to R447) -/

/-- NV_OBJ_STAT of the selected object (R447). -/
def objStat (o : NvObj) (dirty : Bool) : Nat :=
  let newer := match nvPick o with
    | none => 0
    | some false => 1
    | some true => 2
  at' 30 newer + at' 29 (b2n o.a.body.isSome) + at' 28 (b2n o.b.body.isSome) + at' 27 (b2n dirty)

/-- The record part of a last-gasp slot (R427, R451): its SEQ is zero. -/
def lgRecord (x : LgSlot) (sev : Nat) : List Byte :=
  let w := match x.wall with
    | some o => Int.toNat (Int.ofNat x.tns + o)
    | none => 0
  let r : Rec := { seq := 0, code := x.code, sevf := at' 5 (b2n x.wall.isNone) + sev, src := recSrc x.code
                   tns := x.tns, wall := w, payload := x.payload }
  padTo 176 (recBytes r)

/-- The 256 bytes of a last-gasp slot (R427). -/
def lgBytes (s : State) (x : LgSlot) : List Byte :=
  let part (crc : Nat) := le 4 0x5053474C ++ le 4 x.seq ++ le 4 x.ckpt ++ le 4 crc ++
    padTo 64 (x.deltas.flatMap fun d => le 4 (sat 32 d.1) ++ le 4 (sat 32 d.2.1) ++ le 4 (sat 32 d.2.2.1) ++
      le 4 (sat 32 d.2.2.2)) ++ lgRecord x ((sevOf s x.code).getD 0)
  part (crc32c (part 0)).toNat

/-- NV_LG_STAT (R447). -/
def lgStat (s : State) : Nat :=
  at' 8 (((List.range 8).map fun i => if (lgSlot s i).isSome then 2 ^ i else 0).sum) + ((lgNewest s).map (·.1)).getD 0

/-- A word of the NV window. A last-gasp slot never written reads zero, one whose write was cut
off a free value. -/
def readNv (p : Port) (off : Nat) (s : State) : Word :=
  if off ≥ 0x800 ∧ off < 0x1000 then
    (match lgSlot s ((off - 0x800) / 256) with
      | some x => wordAt (lgBytes s x) (off % 256)
      | none => if Tab.get false s.nv.lgTorn ((off - 0x800) / 256)
          then Config.lgTornWord ((off - 0x800) / 256) (off % 256) else 0)
  else
    let o := nvObj s (portOf s p).sel.nvObj
    match off with
    | 0x000 => match s.nv.queue with
      | j :: rest => if j.body.isSome then w32 (at' 24 (sat 8 rest.length) + j.oid)
          else w32 (at' 24 (sat 8 (rest.length + 1)) + 0xFFFF)
      | [] => 0xFFFF
    | 0x008 => w32 (portOf s p).sel.nvObj
    | 0x00C => w32 (objStat o (nvChanged s (portOf s p).sel.nvObj))
    | 0x010 => w32 (((nvBank o).map (·.seq)).getD 0)
    | 0x014 => w32 (at' 16 s.nv.uncorr + s.nv.corr)
    | 0x018 => w32 (lgStat s)
    | 0x01C => w32 (((lgNewest s).map (·.2.seq)).getD 0)
    | _ => 0

/-- A write of a word of the NV window; FLUSH acts while the NV store runs (R629). -/
def putNv (p : Port) (off : Nat) (v : Word) (s : State) : State :=
  if off = 0x004 then if v.getLsbD 0 && s.sys.run.nv then nvFlush s else s
  else if off = 0x008 then modPort p (fun x => { x with sel.nvObj := bits v 15 0 }) s
  else if off = 0x014 then { s with nv.uncorr := clr v s.nv.uncorr, nv.corr := clr v s.nv.corr }
  else s

/-! ## LEDG (R442, R443, R448 to R450) -/

/-- LEDG_STATUS (R448). -/
def ledgStatus (s : State) : Nat :=
  let l := s.ledg
  let run := ledgCounts s
  at' 31 (b2n run) + at' 30 (b2n l.ready) + at' 29 (b2n l.stmt.isSome) +
    at' 28 (b2n (!run && (strings s).any (closed s))) + at' 24 l.podPend.toNat + at' 20 l.podForeign.toNat +
    at' 16 l.vsum.toNat + at' 8 l.live.era

/-- Word `w` of live counter block `b` (R436, R450). -/
def blkWord (s : State) (b w : Nat) : Word := wordAt (ctrBytes (ctrOf s.ledg.live b)) (4 * w)

/-- A read of offset 0 of a counter block latches it for the port (R450). -/
def blkLatch (p : Port) (b : Nat) (s : State) : State :=
  modPort p (fun x =>
    let l := (List.range 10).foldl (fun t w => Tab.set 0 t (10 * b + w) (blkWord s b w)) x.lat.ledg
    { x with lat.ledg := l }) s

/-- A word of the LEDG registers. -/
def readLedg (p : Port) (off : Nat) (s : State) : Word :=
  let l := s.ledg
  if off ≥ 0x1100 ∧ off < 0x1240 then
    (if off % 64 < 40 then Tab.get 0 (portOf s p).lat.ledg (10 * ((off - 0x1100) / 64) + off % 64 / 4) else 0)
  else if off ≥ 0x1240 ∧ off < 0x1268 then (if l.live.era2Valid then wordAt (ctrBytes l.live.era2) (off - 0x1240) else 0)
  else if off ≥ 0x1300 ∧ off < 0x1500 then wordAt ((podOf l.live ((off - 0x1300) / 128)).cur.take 68) (off % 128)
  else if off ≥ 0x1600 ∧ off < 0x1600 + 368 then wordAt l.out (off - 0x1600)
  else if off ≥ 0x1800 ∧ off < 0x1900 then wordAt (l.live.adopts.getD ((off - 0x1800) / 32) []) (off % 32)
  else match off with
    | 0x1000 => w32 (ledgStatus s)
    | 0x1008 => l.nonceLo
    | 0x100C => l.nonceHi
    | 0x1010 => w32 l.ckptSeq
    | 0x1014 => w32 l.live.stmtSeq
    | 0x1018 => w32 l.live.epoch
    | 0x101C => w32 (sat 32 (l.live.gapNs / nsPerSec))
    | _ => 0

/-- A statement request that the ledger cannot take is refused (R443, R527). -/
def chkLedg (off : Nat) (v : Word) (s : State) : Nat :=
  if off = 0x1004 ∧ v.getLsbD 0 ∧ s.sys.run.ledger then stmtChk s else 0

/-- A write of a LEDG register; STMT and ERA_ADV act while the ledger runs (R629). -/
def putLedg (off : Nat) (v : Word) (s : State) : State :=
  if off = 0x1004 then
    if !s.sys.run.ledger then s
    else
      let s1 := if v.getLsbD 1 then eraForce s else s
      if v.getLsbD 0 then stmtStart s1 else s1
  else if off = 0x1008 then nonceWritten { s with ledg.nonceLo := v }
  else if off = 0x100C then nonceWritten { s with ledg.nonceHi := v }
  else s

/-! ## The window -/

/-- A word of the window. -/
def readNvLedg (p : Port) (off : Nat) (s : State) : Word := if off < 0x1000 then readNv p off s else readLedg p off s

/-- A write of a word of the window. -/
def putNvLedg (p : Port) (off : Nat) (v : Word) (s : State) : State :=
  if off < 0x1000 then putNv p off v s else putLedg off v s

end Sys2Proof.Machine
end

