-- ==== Sys2Proof/Machine/RegRec.lean ====
section
/-! DEFINITION. The REC, HOST, SEC and BIST windows: what a word reads, when a write reaches an RWP field, when it is
refused, and what it does. -/

namespace Sys2Proof.Machine

/-! ## REC (R480 to R483) -/

/-- The number of a port in a register field (R483, R516). -/
def portNum : Port → Nat
  | .t1s => 0
  | .can => 1
  | .spi => 2

/-- REC_STATUS (R480). -/
def recStatus (s : State) : Nat :=
  let g := match s.recd.gran.state with
    | .off => 0
    | .running => 1
    | .notResp => 2
    | .absent => 3
  at' 31 (b2n s.sys.run.recorder) + at' 30 (b2n (s.recd.phases != 0)) + at' 26 s.recd.phases.toNat + at' 24 g +
    at' 23 (b2n s.recd.gran.foreign) + at' 16 (min 7 (stageBusy s)) + s.recd.gran.retired

/-- REC_PIN_STAT.FILL: the share of the pinned region that unacknowledged copies fill, % (R482). -/
def pinFill (s : State) : Nat :=
  let g := s.recd.gran
  let used := (((regionRecs g.pin).filter fun r => decide (r.seq > s.recd.ack)).map recLen).sum
  if g.pin.n * g.unit = 0 then 0 else 100 * used / (g.pin.n * g.unit)

/-- The cursor of a number. -/
def cursorOf (s : State) (k : Nat) : Cursor := Tab.get {} s.recd.cur k

/-- Register `j` of cursor `k` (R483). -/
def readCursor (k j : Nat) (s : State) : Nat :=
  let c := cursorOf s k
  match j with
  | 0 => at' 31 (b2n c.active) + at' 30 (b2n c.overrun) + at' 28 c.scope + at' 26 c.minSev + at' 24 (portNum c.port) +
      c.skip
  | 1 => half 0 c.next
  | 2 => half 1 c.next
  | _ => 0

/-- A word of the REC window, with the selector and the latches of the reading port. -/
def readRecW (p : Port) (off : Nat) (s : State) : Word :=
  let r := s.recd
  let x := portOf s p
  if off ≥ 0x100 ∧ off < 0x140 then w32 (readCursor ((off - 0x100) / 16) (off % 16 / 4) s)
  else match off with
    | 0x000 => w32 (recStatus s)
    | 0x008 => w32 (half 0 r.pub)
    | 0x00C => x.lat.seqHi
    | 0x010 => w32 (half 0 (oldestSeq s))
    | 0x014 => x.lat.oldHi
    | 0x018 => w32 s.cfg.recd.agg
    | 0x01C => w32 r.drop
    | 0x020 => w32 (at' 24 r.gran.cs + r.gran.sizeMib)
    | 0x024 => w32 r.pinCfg
    | 0x028 => w32 r.gran.wraps
    | 0x030 => r.ackLo
    | 0x034 => w32 (half 1 r.ack)
    | 0x038 => w32 (at' 24 (pinFill s) + r.ovf)
    | 0x040 => w32 x.sel.chaff
    | 0x044 => if (sevOf s x.sel.chaff).isSome then w32 (Tab.get 0 r.chaff x.sel.chaff) else 0
    | 0x048 => if (sevOf s x.sel.chaff).isSome then w32 (Tab.get 0 r.delta x.sel.chaff) else 0
    | _ => 0

/-- A read of REC_SEQ_LO latches REC_SEQ_HI for the port (R482). -/
def seqLatch (p : Port) (s : State) : State :=
  modPort p (fun x => { x with lat.seqHi := w32 (half 1 s.recd.pub) }) s

/-- A read of REC_OLDEST_LO latches REC_OLDEST_HI for the port (R482). -/
def oldLatch (p : Port) (s : State) : State :=
  modPort p (fun x => { x with lat.oldHi := w32 (half 1 (oldestSeq s)) }) s

/-- A write of a REC word reaches an RWP field (R481, R482, R495). -/
def reachRec (off : Nat) (v : Word) (s : State) : Bool :=
  (off == 0x004 && v.getLsbD 2) || (off == 0x024 && bits v 15 0 != s.recd.pinCfg)

/-- A PIN_MIB out of its range is INVALID_VALUE (R475, R494). -/
def chkRec (off : Nat) (v : Word) (s : State) : Nat :=
  if off = 0x024 ∧ bits v 15 0 ≠ s.recd.pinCfg ∧ pinMibOk s (bits v 15 0) = false then 2 else 0

/-- A write of REC_CTRL (R481): CHAFF_CLR and FLUSH act while the recorder runs (R629), then FORMAT. -/
def putRecCtrl (v : Word) (s : State) : State :=
  if !s.sys.run.recorder then s
  else
    let s1 := if v.getLsbD 0 then chaffClear s else s
    let s2 := if v.getLsbD 1 then recFlush s1 else s1
    if v.getLsbD 2 then recFormat s2 else s2

/-- A write of a word of the REC window. -/
def putRecW (p : Port) (off : Nat) (v : Word) (s : State) : State :=
  match regIx 0x100 16 4 off with
  | some k => if v.getLsbD 30 then
      { s with recd.cur := Tab.set {} s.recd.cur k { cursorOf s k with overrun := false } } else s
  | none =>
    if off = 0x004 then putRecCtrl v s
    else if off = 0x01C then { s with recd.drop := clr v s.recd.drop }
    else if off = 0x024 then if bits v 15 0 = s.recd.pinCfg then s else nvQueue 1 { s with recd.pinCfg := bits v 15 0 }
    else if off = 0x030 then { s with recd.ackLo := v }
    else if off = 0x034 then pinAck v s
    else if off = 0x040 then modPort p (fun x => { x with sel.chaff := bits v 15 0 }) s
    else s

/-! ## HOST (R512 to R516) -/

/-- Within `ns` nanoseconds of an instant. -/
def within (s : State) (t : Option Nat) (ns : Nat) : Bool := match t with
  | some a => decide (since s a ≤ ns)
  | none => false

/-- HOST_STATUS (R512). -/
def hostStatus (s : State) : Nat :=
  let h := s.host
  let can := match h.can with
    | .off => 0
    | .active => 1
    | .passive => 2
    | .busOff => 3
  at' 31 (b2n h.snid.isSome) + at' 30 (b2n (within s h.plcaAt 4000000)) + at' 28 can +
    at' 27 (b2n (within s h.spiAt nsPerSec)) + at' 26 (b2n (h.ports.any (·.2.joining))) + at' 12 (h.snid.getD 0) +
    nodeNum s

/-- A load as a register shows it, truncated. -/
def loadNum (q : Rat) : Nat := sat 16 q.floor.toNat

/-- Register `j` of stream slot `k` (R516). -/
def readStr (k j : Nat) (s : State) : Nat :=
  match Tab.get none s.host.str k, j with
  | some x, 0 => at' 31 1 + at' 29 (portNum x.port) + at' 24 x.stype + at' 16 x.cursor + x.period
  | some x, 1 => at' 16 x.drop + loadNum (streamLoad s x)
  | _, _ => 0

/-- A word of the HOST window. -/
def readHostW (off : Nat) (s : State) : Word :=
  let h := s.host
  if off ≥ 0x100 ∧ off < 0x180 then w32 (readStr ((off - 0x100) / 16) (off % 16 / 4) s)
  else match off with
    | 0x000 => w32 (hostStatus s)
    | 0x004 => w32 (at' 6 h.syncPort + at' 3 h.evtPorts + s.cfg.host.ports)
    | 0x008 => w32 (at' 16 h.budT1s + h.budCan)
    | 0x00C => w32 (at' 16 (loadNum (portLoad s .t1s)) + loadNum (portLoad s .can))
    | 0x010 => w32 h.syncDly
    | 0x014 => w32 (at' 24 h.errSpi + at' 16 h.errT1s + at' 8 h.errCan + h.errThp)
    | 0x018 => w32 (at' 16 h.busy + h.done)
    | 0x01C => w32 (at' 16 h.withheld + h.keepalive)
    | _ => 0

/-- A HOST_BUDGET value is refused: out of its range is INVALID_VALUE, and a limit below the stream load in use is STATE
(R514). -/
def chkHost (off : Nat) (v : Word) (s : State) : Nat :=
  let t := bits v 31 16
  let c := bits v 15 0
  if off ≠ 0x008 then 0
  else if t = 0 ∨ t > 8000 ∨ c = 0 ∨ c > 2000 then 2
  else if (t : Rat) < portLoad s .t1s ∨ (c : Rat) < portLoad s .can then 9
  else 0

/-- A write of a word of the HOST window. -/
def putHost (off : Nat) (v : Word) (s : State) : State :=
  if off = 0x004 then { s with host.syncPort := bits v 7 6, host.evtPorts := bits v 5 3 }
  else if off = 0x008 then { s with host.budT1s := bits v 31 16, host.budCan := bits v 15 0 }
  else if off = 0x010 then { s with host.syncDly := bits v 15 0 }
  else if off = 0x014 then
    if v.getLsbD 0 then
      { s with host.errSpi := 0, host.errT1s := 0, host.errCan := 0, host.errThp := 0 } else s
  else if off = 0x018 then { s with host.busy := clr v s.host.busy, host.done := clr v s.host.done }
  else if off = 0x01C then { s with host.withheld := clr v s.host.withheld, host.keepalive := clr v s.host.keepalive }
  else s

/-! ## SEC (R534 to R538) -/

/-- Time left of a window, ns. -/
def leftOf (s : State) (w : Option Nat) : Nat := match w with
  | some e => e - s.time.tns
  | none => 0

/-- SEC_STATUS (R534). -/
def secStatus (s : State) : Nat :=
  let x := s.sec
  let b := leftOf s x.btn
  let t := leftOf s x.strap
  let src := if presOpen s then (if t > b then 2 else 1) else 0
  at' 31 (b2n (presOpen s)) + at' 29 src + at' 28 (b2n x.stuck) + at' 27 (b2n x.strapLow) + at' 26 (b2n x.sealOpen) +
    at' 25 (b2n x.keyLost) + sat 16 (max b t / nsPerSec)

/-- SEC_KEYS (R538). -/
def secKeys (s : State) : Nat :=
  let ks := [1, 2, 0x10, 0x11, 0x12, 0x13].map fun id => (keyGet s.nv.keys id).getD {}
  let mask (f : Key → Bool) := ((ks.zipIdx).map fun e => if f e.1 then 2 ^ e.2 else 0).sum
  at' 16 (mask (·.lock)) + mask (fun k => !k.val.isEmpty)

/-- A word of the SEC window. -/
def readSecW (off : Nat) (s : State) : Word :=
  let x := s.sec
  match off with
  | 0x000 => w32 (secStatus s)
  | 0x00C => w32 (at' 28 x.adResult + at' 16 x.adNodes + x.adString)
  | 0x010 => w32 (half 0 x.mid.toNat)
  | 0x014 => w32 (half 1 x.mid.toNat)
  | 0x018 => w32 s.nv.keys.tamper
  | 0x01C => w32 (secKeys s)
  | 0x020 => w32 (at' 16 x.authFail + x.authPass)
  | _ => 0

/-- A write of a word of the SEC window; SEC_CTRL and SEC_ADOPT act while the trust block runs (R629). -/
def putSec (off : Nat) (v : Word) (s : State) : State :=
  if off = 0x004 then if v.getLsbD 0 && s.sys.run.trust then presClose s else s
  else if off = 0x008 then if s.sys.run.trust then secAdopt (bits v 3 0) s else s
  else if off = 0x020 then { s with sec.authFail := clr v s.sec.authFail, sec.authPass := clr v s.sec.authPass }
  else s

/-! ## BIST (R591 to R593) -/

/-- BIST_STATUS (R591). -/
def bistStatus (s : State) : Nat :=
  let b := s.bist
  let st := match b.state with
    | .idle => 0
    | .running => 1
    | .aborting => 2
    | .repairing => 3
  at' 28 st + at' 24 b.result + at' 20 b.refuse + at' 16 b.abort + at' 15 (b2n b.fail) + at' 12 b.last

/-- BIST_REPAIR of an entry (R593). -/
def repairWord (e : Nat) (s : State) : Word := w32 (at' 31 (b2n (repairEnt s e).1) + (repairEnt s e).2)

/-- A word of the BIST window, with the selector of the reading port. -/
def readBist (p : Port) (off : Nat) (s : State) : Word :=
  let b := s.bist
  let e := (portOf s p).sel.repair
  match off with
  | 0x000 => w32 (bistStatus s)
  | 0x004 => w32 (at' 16 b.target)
  | 0x008 => w32 (at' 16 b.count + b.first)
  | 0x00C => w32 (at' 16 b.done + b.total)
  | 0x010 => b.sig
  | 0x014 => b.sigExp
  | 0x018 => b.failAddr
  | 0x01C => w32 (at' 16 b.failCnt + b.failBit)
  | 0x020 => w32 (at' 16 b.skips + b.period)
  | 0x024 => b.boot.setWidth 32
  | 0x040 => w32 e
  | 0x044 => repairWord e s
  | 0x048 => w32 (b.repair.filter (·.2.1)).length
  | _ => 0

/-- A write of a BIST word reaches an RWP field (R495, R593): EN or ROW of the selected entry changes. -/
def reachBist (p : Port) (off : Nat) (v : Word) (s : State) : Bool :=
  off == 0x044 && (v ^^^ repairWord (portOf s p).sel.repair s) &&& 0x80003FFF != 0

/-- A BIST_CTRL write asks for a start that the controller takes (R629). -/
def startAsked (off : Nat) (v : Word) (s : State) : Bool := off == 0x004 && v.getLsbD 0 && s.sys.run.bist

/-- A BIST write is refused (R568, R578, R592). -/
def chkBist (q : Req) (off : Nat) (v : Word) (s : State) : Nat :=
  if off = 0x004 ∧ 6 ≤ bits v 18 16 then 2
  else if startAsked off v s then (bistChk (bits v 18 16) q.m.mv q.m.ppm s).1
  else if reachBist q.port off v s then repairChk (portOf s q.port).sel.repair v s
  else 0

/-- A refused START leaves its reason in REFUSE (R568). -/
def refusedBist (q : Req) (off : Nat) (v : Word) (s : State) : State :=
  if startAsked off v s && decide (bits v 18 16 < 6) then { s with bist.refuse := (bistChk (bits v 18 16) q.m.mv q.m.ppm s).2 } else s

/-- A write of BIST_CTRL (R568, R573, R592): an ABORT of a run in progress is answered after the restore. -/
def putBistCtrl (q : Req) (v : Word) (s : State) : State :=
  let s1 := { s with bist.target := bits v 18 16 }
  let s2 := if v.getLsbD 1 && bistBusy s1 then
      { bistAbort 1 s1 with bist.waitAbort := s1.bist.waitAbort ++ [(q.op, q.port, q.tag)] } else s1
  if startAsked 0x004 v s2 then (bistStart (bits v 18 16) q.m.mv q.m.ppm q.m.ecc s2).1 else s2

/-- A write of a word of the BIST window. -/
def putBist (q : Req) (off : Nat) (v : Word) (s : State) : State :=
  if off = 0x004 then putBistCtrl q v s
  else if off = 0x008 then { s with bist.count := bits v 23 16, bist.first := bits v 7 0 }
  else if off = 0x020 then { s with bist.period := bits v 15 0 }
  else if off = 0x040 then modPort q.port (fun x => { x with sel.repair := bits v 5 0 }) s
  else if off = 0x044 then repairPut (portOf s q.port).sel.repair v s
  else s

end Sys2Proof.Machine
end

