-- ==== Sys2Proof/Machine/RegAll.lean ====
section
/-! DEFINITION. The address space (chapter 23): the arrays, the address map, and what READ, WRITE and WRITE_P do to a
range of words. -/

namespace Sys2Proof.Machine

/-! ## Arrays (R634 to R638, R248, R322, R52) -/

/-- STRING, RING, POS and K of a cell (R634). -/
def cellPlace (s : State) (c : Nat) : Nat := match cellNode s c with
  | some (n, k) => at' 24 k + at' 16 n.pos + at' 8 n.ring + n.string
  | none => 0

/-- Word `w` of the acquisition part of the record of cell `c` (R634). It reads zero until its first publication. -/
def acqWord (s : State) (c w : Nat) : Word :=
  let a := Tab.get {} s.acq.pub c
  if a = {} then 0
  else match w with
    | 0 => a.frm
    | 1 => a.stat
    | 2 => w32 (at' 16 a.vMeas + a.v)
    | 3 => w32 (at' 16 (tw 16 a.tNode) + tw 16 a.tLoc)
    | 4 => w32 (tw 32 a.iS)
    | 5 => w32 (tw 32 a.iMean)
    | 6 => w32 (half 0 a.sampleTns)
    | 7 => w32 (half 1 a.sampleTns)
    | _ => w32 (cellPlace s c)

/-- Word `w` of the record of cell `c` (R634). -/
def cellWord (s : State) (c w : Nat) : Word :=
  let k := kCell s c
  let e := eCell s c
  if w < 9 then acqWord s c w
  else if w ≥ 32 ∧ w < 48 then Tab.get 0 k.outPub (w - 32)
  else match w with
    | 9 => k.outFrm
    | 10 => k.outStat
    | 11 => e.frm
    | 12 => e.flags
    | 13 => w32 (at' 16 e.sigma + e.soc)
    | 14 => w32 (at' 16 e.sohC + e.cc)
    | 15 => w32 e.sohR
    | 16 => w32 e.cap
    | 17 => w32 e.rs
    | _ => 0

/-- Word `w` of entry `e` of the impedance table of cell `c` (R322); zero until the first publication (R638). -/
def ztabWord (s : State) (c e w : Nat) : Word :=
  let z : ZEntry := if s.win.pub then Tab.get {} s.win.z (96 * c + e) else {}
  match w with
  | 0 => z.ra ++ z.rs
  | 1 => z.rb ++ z.ta
  | _ => w32 (at' 16 z.conf + z.tb.toNat)

/-- Word `w` of the Tally block of cell `c` (R637), each part as published (R638; log entry 103). -/
def histWord (s : State) (c w : Nat) : Word :=
  let t := tCell s c
  if w < 40 then (if s.tally.pub then w32 (Tab.get 0 t.life w) else 0)
  else if w < 60 then w32 (at' 16 (Tab.get 0 t.binsPub (2 * (w - 40) + 1)) + Tab.get 0 t.binsPub (2 * (w - 40)))
  else if w = 60 then t.rfPub
  else if w = 61 then t.dwPub
  else 0

/-- A word of the staging memory (R52). -/
def stageWord (s : State) (off : Nat) : Word := w32 (ofLe ((List.range 4).map fun i => Tab.get 0 s.img.stage (off + i)))

/-- The array words: array 0 CELL, 1 ZTAB, 2 HIST, 3 KSTATE, 4 IMGSTAGE. Words of a cell that is not configured read
zero (R628). -/
def arrayWord (s : State) (k off : Nat) : Word :=
  let c := if k = 1 then off / 1152 else off / 256
  if k = 4 then stageWord s off
  else if !cellConf s c then 0
  else match k with
    | 0 => cellWord s c (off % 256 / 4)
    | 1 => ztabWord s c (off % 1152 / 12) (off % 12 / 4)
    | 2 => histWord s c (off % 256 / 4)
    | _ => Tab.get 0 (kCell s c).wPub (off % 256 / 4)

/-! ## The address map (R627) -/

/-- The window of an address: a control window by its number, or an array. -/
inductive Window
  | ctl (n : Nat)
  | arr (k : Nat)
  deriving DecidableEq, Repr

/-- The window that holds a byte address. -/
def windowOf (a : Nat) : Option Window :=
  if a < 0x17000 then some (.ctl (a / 4096))
  else if 0x100000 ≤ a ∧ a < 0x160000 then some (.arr 0)
  else if 0x200000 ≤ a ∧ a < 0x3B0000 then some (.arr 1)
  else if 0x400000 ≤ a ∧ a < 0x460000 then some (.arr 2)
  else if 0x800000 ≤ a ∧ a < 0x860000 then some (.arr 3)
  else if 0x1000000 ≤ a ∧ a < 0x1200000 then some (.arr 4)
  else none

/-- The base of an array. -/
def arrayBase (k : Nat) : Nat :=
  if k = 0 then 0x100000 else if k = 1 then 0x200000 else if k = 2 then 0x400000 else if k = 3 then 0x800000
  else 0x1000000

/-- The word that a port reads at a word address. -/
def readWord (p : Port) (a : Nat) (s : State) : Word :=
  let o := a % 4096
  match windowOf a with
  | some (.arr k) => arrayWord s k (a - arrayBase k)
  | some (.ctl n) => match n with
    | 0x00 => readSys o s
    | 0x01 => readEvt o s
    | 0x02 => readPwr o s
    | 0x03 => readTime p o s
    | 0x04 => readTherm' o s
    | 0x05 => readImg o s
    | 0x06 => readRing 0 o s
    | 0x07 => readRing 1 o s
    | 0x08 => readAcqW p o s
    | 0x09 => readCur o s
    | 0x0A => readHuskW o s
    | 0x0B => readDrvW o s
    | 0x0C => readKrn p o s
    | 0x0D => readPair o s
    | 0x0E => readEstW p o s
    | 0x0F => readWinW p o s
    | 0x10 => readNvLedg p o s
    | 0x11 => readNvLedg p (o + 4096) s
    | 0x12 => readRecW p o s
    | 0x13 => readHostW o s
    | 0x14 => readSecW o s
    | 0x15 => readBist p o s
    | 0x16 => readDbg o s
    | _ => 0
  | none => 0

/-- What a read of a word latches for its port (R404, R450, R482). -/
def latchWord (p : Port) (a : Nat) (s : State) : State :=
  if a = 0x3008 then tnsLatch p s
  else if a = 0x12008 then seqLatch p s
  else if a = 0x12010 then oldLatch p s
  else match regIx 0x11100 64 5 a with
    | some b => blkLatch p b s
    | none => s

/-- `n` words read in ascending address, each after what the words before it latched. -/
def readWords (p : Port) : Nat → Nat → State → List Word × State
  | 0, _, s => ([], s)
  | n + 1, a, s =>
    let s1 := latchWord p a s
    let r := readWords p n (a + 4) s1
    (readWord p a s1 :: r.1, r.2)

/-! ## Writes -/

/-- The data of a write reaches an RWP field at this word (R495). -/
def reaches (p : Port) (a : Nat) (v : Word) (s : State) : Bool :=
  let o := a % 4096
  match a / 4096 with
  | 0x04 => o == 0x004 && v.getLsbD 0
  | 0x09 => reachCur o v s
  | 0x0E => o == 0x008 && v.getLsbD 0
  | 0x11 => o == 0x004 && v.getLsbD 1
  | 0x12 => reachRec o v s
  | 0x14 => o == 0x008 && bits v 3 0 != 0
  | 0x15 => reachBist p o v s
  | 0x16 => reachDbg o v s
  | _ => false

/-- The refusal of a word of a write, 0 for none. `n` words of the request stand before it. -/
def chkWord (q : Req) (n a : Nat) (v : Word) (s : State) : Nat :=
  let o := a % 4096
  match a / 4096 with
  | 0x00 => chkSys o v
  | 0x01 => chkEvt o v
  | 0x02 => chkPwr o v s
  | 0x09 => chkCur o v s
  | 0x11 => chkLedg (o + 4096) v s
  | 0x12 => chkRec o v s
  | 0x13 => chkHost o v s
  | 0x15 => chkBist q o v s
  | 0x16 => chkDbg n o v s
  | _ => 0

/-- The write of one word. -/
def putReg (q : Req) (a : Nat) (v : Word) (s : State) : State :=
  let o := a % 4096
  if a / 4096 = 0x00 then putSys o v s
  else if a / 4096 = 0x01 then putEvt o v s
  else if a / 4096 = 0x02 then putPwr q o v s
  else if a / 4096 = 0x03 then putTime o v s
  else if a / 4096 = 0x04 then putTherm o v s
  else if a / 4096 = 0x05 then putImg o v s
  else if a / 4096 = 0x06 then putRing 0 o v s
  else if a / 4096 = 0x07 then putRing 1 o v s
  else if a / 4096 = 0x08 then putAcq q.port o v s
  else if a / 4096 = 0x09 then putCur o v s
  else if a / 4096 = 0x0A then putHusk o v s
  else if a / 4096 = 0x0B then putDrv o v s
  else if a / 4096 = 0x0C then putKrn q.port o v s
  else if a / 4096 = 0x0D then putPair o v s
  else if a / 4096 = 0x0E then putEst q.port o v s
  else if a / 4096 = 0x0F then putWin q.port o v s
  else if a / 4096 = 0x10 then putNvLedg q.port o v s
  else if a / 4096 = 0x11 then putNvLedg q.port (o + 4096) v s
  else if a / 4096 = 0x12 then putRecW q.port o v s
  else if a / 4096 = 0x13 then putHost o v s
  else if a / 4096 = 0x14 then putSec o v s
  else if a / 4096 = 0x15 then putBist q o v s
  else if a / 4096 = 0x16 then putDbg q o v s
  else s

/-- The words of a write with their numbers and addresses. -/
def addrWords (addr : Nat) (data : List Word) : List (Nat × Nat × Word) :=
  (data.zipIdx).map fun e => (e.2, addr + 4 * e.2, e.1)

/-- The most words of a request on a port (R495). -/
def maxWords : Port → Nat
  | .can => 128
  | _ => 256

/-- The range of a request lies in one window and is aligned (R628). -/
def rangeOk (addr n : Nat) : Bool :=
  addr % 4 == 0 && (windowOf addr).isSome && windowOf (addr + 4 * n - 4) == windowOf addr

/-- The first refusal of the words of a write, and the word it falls on. -/
def firstRefusal (q : Req) (ws : List (Nat × Nat × Word)) (s : State) : Option (Nat × Nat × Word) :=
  (ws.find? fun e => chkWord q e.1 e.2.1 e.2.2 s != 0).map fun e => (chkWord q e.1 e.2.1 e.2.2 s, e.2.1, e.2.2)

/-- A refused self-test start leaves its reason (R568). -/
def noteRefusal (q : Req) (a : Nat) (v : Word) (s : State) : State :=
  if a / 4096 = 0x15 then refusedBist q (a % 4096) v s else s

/-- The selectors (R630, R631): ACQ_CELL_SEL, KRN_CELL_SEL, EST_CELL_SEL, WIN_CELL_SEL, NV_OBJ_SEL, REC_CHAFF_SEL and
BIST_REPAIR_SEL. -/
def isSel (a : Nat) : Bool := [0x8020, 0xC020, 0xE020, 0xF020, 0x10008, 0x12040, 0x15040].contains a

/-- The order in which the words of a write act: as their addresses ascend, but for a selector, which sets the selection
for later requests only (R495, R630). -/
def writeOrder (ws : List (Nat × Nat × Word)) : List (Nat × Nat × Word) :=
  ws.filter (fun e => !isSel e.2.1) ++ ws.filter fun e => isSel e.2.1

/-- The words of a write whose form is right, checked whole and then written in ascending address (R495). An aborted
self-test run or a power command that waits for its restore is answered later (R573). -/
def writeAll (q : Req) (addr : Nat) (data : List Word) (s : State) : State × Reply :=
  let ws := addrWords addr data
  if (windowOf addr).any (fun w => match w with
      | .arr _ => true
      | .ctl _ => false) then refuse 6 s
  else if q.op = 3 ∧ presOpen s = false then refuse 3 s
  else if q.op = 2 ∧ ws.any (fun e => reaches q.port e.2.1 e.2.2 s) then refuse 4 s
  else match firstRefusal q ws s with
    | some (st, a, v) => refuse st (noteRefusal q a v s)
    | none =>
      let s1 := (writeOrder ws).foldl (fun s e => putReg q e.2.1 e.2.2 s) s
      if executing q.op q.port q.tag s1 then (s1, .later) else (s1, .ack 0 data.length [])

/-- WRITE and WRITE_P (R495): COUNT that does not fit is MALFORMED, a range that does not fit is BAD_ADDRESS. -/
def writeWords (q : Req) (addr cnt : Nat) (data : List Word) (s : State) : State × Reply :=
  if cnt = 0 ∨ cnt > maxWords q.port ∨ data.length ≠ cnt then refuse 7 s
  else if rangeOk addr cnt = false then refuse 5 s
  else writeAll q addr data s

/-- READ (R495). -/
def readReq (p : Port) (addr cnt : Nat) (s : State) : State × Reply :=
  if cnt = 0 ∨ cnt > maxWords p then refuse 7 s
  else if rangeOk addr cnt = false then refuse 5 s
  else
    let r := readWords p cnt addr s
    (r.2, .ack 0 cnt r.1)

end Sys2Proof.Machine
end

