-- ==== Sys2Proof/Machine/RegCmds.lean ====
section
/-! DEFINITION. The commands that write, or read and latch, one register word. Each is a WRITE or WRITE_P (`p`) request
of one word, or a READ of one word, with everything that goes before and after one (R491 to R495); a field that the
command does not name keeps the value it reads. -/

namespace Sys2Proof.Machine

/-- A write of one word at an address: the data are `f` of what the port reads there. -/
def regReq (p : Bool) (h : ReqHdr) (m : WrMeas) (a : Nat) (f : Word → Word) (s : State) : State :=
  hostRequest (if p then 3 else 2) h
    (fun s => writeWords { op := if p then 3 else 2, port := h.port, tag := h.tag, m := m } a 1
      [f (readWord h.port a s)] s) s

/-- A read of one word at an address. -/
def latchReq (h : ReqHdr) (a : Nat) (s : State) : State := hostRequest 1 h (readReq h.port a 1) s

/-- No condition that the write depends on is measured. -/
def noMeas : WrMeas := { mv := 0, ppm := 0, bad := false }

/-- The address of a debug register (R380). -/
def dbgAddr : DbgReg → Nat
  | .f i => 0x16080 + 4 * i.val
  | .pred => 0x16014
  | .shadow j => 0x16800 + 4 * j.val

/-- SYS_MODE_WRITE: SYS_MODE written with `v` (R29, R30). -/
def execSysModeWrite (h : ReqHdr) (p : Bool) (v : Word) (s : State) : Host.Outcome State Fault Refusal :=
  .next (regReq p h noMeas 0x040 (fun _ => v) s)

/-- IMG_ABORT_STAGE: IMG_CTRL.ABORT_STAGE written 1 (R52, R65). -/
def execImgAbortStage (h : ReqHdr) (p : Bool) (s : State) : Host.Outcome State Fault Refusal :=
  .next (regReq p h noMeas 0x5004 (fun _ => 2) s)

/-- IMG_CANCEL: IMG_CTRL.CANCEL written 1 (R57, R65). -/
def execImgCancel (h : ReqHdr) (p : Bool) (s : State) : Host.Outcome State Fault Refusal :=
  .next (regReq p h noMeas 0x5004 (fun _ => 1) s)

/-- RING_ENUM_REQUEST: RINGn_CTRL.ENUM of ring `r` written 1 (R115, R131). -/
def execRingEnumRequest (h : ReqHdr) (p : Bool) (r : Fin 2) (s : State) : Host.Outcome State Fault Refusal :=
  .next (regReq p h noMeas (0x6000 + 0x1000 * r.val) (fun w => w ||| 1) s)

/-- RING_MEAS_REQUEST: RINGn_CTRL.MEAS of ring `r` written 1 (R131). -/
def execRingMeasRequest (h : ReqHdr) (p : Bool) (r : Fin 2) (s : State) : Host.Outcome State Fault Refusal :=
  .next (regReq p h noMeas (0x6000 + 0x1000 * r.val) (fun w => w ||| 4) s)

/-- ACQ_COUP_ID: ACQ_CTRL.COUP_ID written 1 (R147, R161). -/
def execAcqCoupId (h : ReqHdr) (p : Bool) (s : State) : Host.Outcome State Fault Refusal :=
  .next (regReq p h noMeas 0x8004 (fun w => w ||| 2) s)

/-- ACQ_OW_NOW: ACQ_CTRL.OW_NOW written 1 (R152, R161). -/
def execAcqOwNow (h : ReqHdr) (p : Bool) (s : State) : Host.Outcome State Fault Refusal :=
  .next (regReq p h noMeas 0x8004 (fun w => w ||| 1) s)

/-- CUR_CH_CFG_WRITE: CUR_CHn_CFG of channel `n` written with `v` (R169, R187). -/
def execCurChCfgWrite (h : ReqHdr) (p : Bool) (n : Fin 8) (v : Word) (s : State) : Host.Outcome State Fault Refusal :=
  .next (regReq p h noMeas (0x9040 + 16 * n.val) (fun _ => v) s)

/-- CUR_CH_FS_WRITE: CUR_CHn_FS of channel `n` written with `v` (R169, R187). -/
def execCurChFsWrite (h : ReqHdr) (p : Bool) (n : Fin 8) (v : Word) (s : State) : Host.Outcome State Fault Refusal :=
  .next (regReq p h noMeas (0x9044 + 16 * n.val) (fun _ => v) s)

/-- CUR_CH_OFS_WRITE: CUR_CHn_OFS of channel `n` written with `v` (R169, R187). -/
def execCurChOfsWrite (h : ReqHdr) (p : Bool) (n : Fin 8) (v : Word) (s : State) : Host.Outcome State Fault Refusal :=
  .next (regReq p h noMeas (0x9048 + 16 * n.val) (fun _ => v) s)

/-- CUR_CAL_NOW: CUR_CTRL.CAL_NOW written 1 (R174, R186). -/
def execCurCalNow (h : ReqHdr) (p : Bool) (s : State) : Host.Outcome State Fault Refusal :=
  .next (regReq p h noMeas 0x9008 (fun _ => 1) s)

/-- CMP_TEST: CUR_CTRL.CMP_TEST written 1 (R182, R186). -/
def execCmpTest (h : ReqHdr) (p : Bool) (s : State) : Host.Outcome State Fault Refusal :=
  .next (regReq p h noMeas 0x9008 (fun _ => 2) s)

/-- HUSK_CLOSE_REQ: HUSK_CTRL.CLOSE_REQ written with `mask` (R221). -/
def execHuskCloseReq (h : ReqHdr) (p : Bool) (mask : BitVec 4) (s : State) : Host.Outcome State Fault Refusal :=
  .next (regReq p h noMeas 0xA008 (fun _ => mask.setWidth 32 <<< 8) s)

/-- HUSK_OPEN: HUSK_CTRL.OPEN written with `mask` (R221). -/
def execHuskOpen (h : ReqHdr) (p : Bool) (mask : BitVec 4) (s : State) : Host.Outcome State Fault Refusal :=
  .next (regReq p h noMeas 0xA008 (fun w => w ||| mask.setWidth 32 <<< 4) s)

/-- HUSK_TRIP_CLR: HUSK_CTRL.TRIP_CLR written with `mask` (R214, R221). -/
def execHuskTripClr (h : ReqHdr) (p : Bool) (mask : BitVec 4) (s : State) : Host.Outcome State Fault Refusal :=
  .next (regReq p h noMeas 0xA008 (fun w => w ||| mask.setWidth 32) s)

/-- DRV_WELD_CHECK: DRV_CTRL.WELD_CHECK written with `mask` (R234, R245). -/
def execDrvWeldCheck (h : ReqHdr) (p : Bool) (mask : BitVec 4) (s : State) : Host.Outcome State Fault Refusal :=
  .next (regReq p h noMeas 0xB00C (fun _ => mask.setWidth 32) s)

/-- PAIR_RELEASE: PAIR_CTRL.RELEASE written with `mask` (R366). -/
def execPairRelease (h : ReqHdr) (p : Bool) (mask : BitVec 16) (s : State) : Host.Outcome State Fault Refusal :=
  .next (regReq p h noMeas 0xD008 (fun _ => mask.setWidth 32) s)

/-- DBG_SESSION_OPEN: DBG_SESSION written with OPEN 1 and PAIR `q` (R367, R377). -/
def execDbgSessionOpen (h : ReqHdr) (p : Bool) (q : BitVec 4) (s : State) : Host.Outcome State Fault Refusal :=
  .next (regReq p h noMeas 0x16000 (fun _ => 0x100 ||| q.setWidth 32) s)

/-- DBG_SESSION_CLOSE: DBG_SESSION.CLOSE written 1 (R372, R377). -/
def execDbgSessionClose (h : ReqHdr) (p : Bool) (s : State) : Host.Outcome State Fault Refusal :=
  .next (regReq p h noMeas 0x16000 (fun w => 0x200 ||| (w &&& 0xF)) s)

/-- DBG_HALT: DBG_CTRL.HALT written 1 (R370, R379). -/
def execDbgHalt (h : ReqHdr) (p : Bool) (s : State) : Host.Outcome State Fault Refusal :=
  .next (regReq p h noMeas 0x16008 (fun _ => 1) s)

/-- DBG_RESUME: DBG_CTRL.RESUME written 1 (R370, R379). -/
def execDbgResume (h : ReqHdr) (p : Bool) (s : State) : Host.Outcome State Fault Refusal :=
  .next (regReq p h noMeas 0x16008 (fun _ => 2) s)

/-- DBG_STEP: DBG_CTRL.STEP written 1 (R370, R379). -/
def execDbgStep (h : ReqHdr) (p : Bool) (s : State) : Host.Outcome State Fault Refusal :=
  .next (regReq p h noMeas 0x16008 (fun _ => 4) s)

/-- DBG_REGISTER_WRITE: the debug register `g` written with `v` (R371, R380). -/
def execDbgRegisterWrite (h : ReqHdr) (p : Bool) (g : DbgReg) (v : Word) (m : WrMeas) (s : State) :
    Host.Outcome State Fault Refusal :=
  .next (regReq p h m (dbgAddr g) (fun _ => v) s)

/-- TIME_RESYNC_REQUEST: TIME_CTRL.RESYNC written 1 (R390, R403). -/
def execTimeResyncRequest (h : ReqHdr) (p : Bool) (s : State) : Host.Outcome State Fault Refusal :=
  .next (regReq p h noMeas 0x3004 (fun w => w ||| 1) s)

/-- SYNC_EN_WRITE: TIME_CTRL.SYNC_EN written with `on` (R403). -/
def execSyncEnWrite (h : ReqHdr) (p : Bool) (on : Bool) (s : State) : Host.Outcome State Fault Refusal :=
  .next (regReq p h noMeas 0x3004 (fun _ => if on then 2 else 0) s)

/-- TIME_WALL_SET: TIME_WALL_SET_HI written with `hi` (R395). -/
def execTimeWallSet (h : ReqHdr) (p : Bool) (hi : Word) (s : State) : Host.Outcome State Fault Refusal :=
  .next (regReq p h noMeas 0x301C (fun _ => hi) s)

/-- THERM_HOLD_CLR: THERM_CTRL.HOLD_CLR written 1 (R415, R417). -/
def execThermHoldClr (h : ReqHdr) (p : Bool) (s : State) : Host.Outcome State Fault Refusal :=
  .next (regReq p h noMeas 0x4004 (fun _ => 1) s)

/-- LEDG_STMT: LEDG_CTRL.STMT written 1 (R443). -/
def execLedgStmt (h : ReqHdr) (p : Bool) (s : State) : Host.Outcome State Fault Refusal :=
  .next (regReq p h noMeas 0x11004 (fun _ => 1) s)

/-- LEDG_NONCE_WRITE: the high or low half of LEDG_NONCE written with `v` (R443). -/
def execLedgNonceWrite (h : ReqHdr) (p : Bool) (hi : Bool) (v : Word) (s : State) :
    Host.Outcome State Fault Refusal :=
  .next (regReq p h noMeas (if hi then 0x1100C else 0x11008) (fun _ => v) s)

/-- LEDG_ERA_ADV: LEDG_CTRL.ERA_ADV written 1 (R442). -/
def execLedgEraAdv (h : ReqHdr) (p : Bool) (s : State) : Host.Outcome State Fault Refusal :=
  .next (regReq p h noMeas 0x11004 (fun _ => 2) s)

/-- NV_FLUSH: NV_CTRL.FLUSH written 1 (R446). -/
def execNvFlush (h : ReqHdr) (p : Bool) (s : State) : Host.Outcome State Fault Refusal :=
  .next (regReq p h noMeas 0x10004 (fun _ => 1) s)

/-- REC_CHAFF_CLR: REC_CTRL.CHAFF_CLR written 1 (R481). -/
def execRecChaffClr (h : ReqHdr) (p : Bool) (s : State) : Host.Outcome State Fault Refusal :=
  .next (regReq p h noMeas 0x12004 (fun _ => 1) s)

/-- REC_FLUSH: REC_CTRL.FLUSH written 1 (R481). -/
def execRecFlush (h : ReqHdr) (p : Bool) (s : State) : Host.Outcome State Fault Refusal :=
  .next (regReq p h noMeas 0x12004 (fun _ => 2) s)

/-- REC_FORMAT: REC_CTRL.FORMAT written 1 (R475, R481). -/
def execRecFormat (h : ReqHdr) (p : Bool) (s : State) : Host.Outcome State Fault Refusal :=
  .next (regReq p h noMeas 0x12004 (fun _ => 4) s)

/-- REC_PIN_ACK: REC_PIN_ACK_HI written with `hi` (R472). -/
def execRecPinAck (h : ReqHdr) (p : Bool) (hi : Word) (s : State) : Host.Outcome State Fault Refusal :=
  .next (regReq p h noMeas 0x12034 (fun _ => hi) s)

/-- HOST_BUDGET_WRITE: HOST_BUDGET written (R514). -/
def execHostBudgetWrite (h : ReqHdr) (p : Bool) (t1s can : BitVec 16) (s : State) :
    Host.Outcome State Fault Refusal :=
  .next (regReq p h noMeas 0x13008 (fun _ => t1s ++ can) s)

/-- PRES_CLOSE: SEC_CTRL.PRES_CLOSE written 1 (R522, R535). -/
def execPresClose (h : ReqHdr) (p : Bool) (s : State) : Host.Outcome State Fault Refusal :=
  .next (regReq p h noMeas 0x14004 (fun _ => 1) s)

/-- SEC_ADOPT: SEC_ADOPT.ADOPT written with `mask` (R533, R536). -/
def execSecAdopt (h : ReqHdr) (p : Bool) (mask : BitVec 4) (s : State) : Host.Outcome State Fault Refusal :=
  .next (regReq p h noMeas 0x14008 (fun _ => mask.setWidth 32) s)

/-- PWR_RUN: PWR_CTRL.RUN written 1 (R549, R563). -/
def execPwrRun (h : ReqHdr) (p : Bool) (s : State) : Host.Outcome State Fault Refusal :=
  .next (regReq p h noMeas 0x2004 (fun _ => 1) s)

/-- PWR_STANDBY: PWR_CTRL.STANDBY written 1 (R550, R563). -/
def execPwrStandby (h : ReqHdr) (p : Bool) (s : State) : Host.Outcome State Fault Refusal :=
  .next (regReq p h noMeas 0x2004 (fun _ => 2) s)

/-- PWR_SLEEP: PWR_CTRL.SLEEP written 1 (R551, R563). -/
def execPwrSleep (h : ReqHdr) (p : Bool) (s : State) : Host.Outcome State Fault Refusal :=
  .next (regReq p h noMeas 0x2004 (fun _ => 4) s)

/-- PWR_SHIP: PWR_CTRL.SHIP written 1 (R558, R563). -/
def execPwrShip (h : ReqHdr) (p : Bool) (s : State) : Host.Outcome State Fault Refusal :=
  .next (regReq p h noMeas 0x2004 (fun _ => 8) s)

/-- PWR_RESET: PWR_CTRL.RESET written 1 (R561, R563). -/
def execPwrReset (h : ReqHdr) (p : Bool) (s : State) : Host.Outcome State Fault Refusal :=
  .next (regReq p h noMeas 0x2004 (fun _ => 16) s)

/-- PWR_WAKE_OUT_CLR: PWR_CTRL.WAKE_OUT_CLR written 1 (R563). -/
def execPwrWakeOutClr (h : ReqHdr) (p : Bool) (s : State) : Host.Outcome State Fault Refusal :=
  .next (regReq p h noMeas 0x2004 (fun _ => 32) s)

/-- PWR_CFG_WRITE: PWR_CFG written with `v` (R564). -/
def execPwrCfgWrite (h : ReqHdr) (p : Bool) (v : Word) (s : State) : Host.Outcome State Fault Refusal :=
  .next (regReq p h noMeas 0x2008 (fun _ => v) s)

/-- BIST_START: BIST_CTRL written with TARGET and START 1 (R567, R568). -/
def execBistStart (h : ReqHdr) (p : Bool) (target : BitVec 3) (m : WrMeas) (s : State) :
    Host.Outcome State Fault Refusal :=
  .next (regReq p h m 0x15004 (fun _ => 1 ||| target.setWidth 32 <<< 16) s)

/-- BIST_ABORT: BIST_CTRL.ABORT written 1 (R573). -/
def execBistAbort (h : ReqHdr) (p : Bool) (s : State) : Host.Outcome State Fault Refusal :=
  .next (regReq p h noMeas 0x15004 (fun w => 2 ||| (w &&& 0x70000)) s)

/-- BIST_REPAIR_WRITE: BIST_REPAIR of the selected entry written with `v` (R578). -/
def execBistRepairWrite (h : ReqHdr) (p : Bool) (v : Word) (s : State) : Host.Outcome State Fault Refusal :=
  .next (regReq p h noMeas 0x15044 (fun _ => v) s)

/-- EVT_PEND_CLEAR: EVT_PENDi written with `v` (R588). -/
def execEvtPendClear (h : ReqHdr) (p : Bool) (i : Fin 4) (v : Word) (s : State) : Host.Outcome State Fault Refusal :=
  .next (regReq p h noMeas (0x1000 + 4 * i.val) (fun _ => v) s)

/-- EVT_IRQMAP_WRITE: EVT_IRQMAPi written with `v` (R589). -/
def execEvtIrqmapWrite (h : ReqHdr) (p : Bool) (i : Fin 8) (v : Word) (s : State) :
    Host.Outcome State Fault Refusal :=
  .next (regReq p h noMeas (0x1020 + 4 * i.val) (fun _ => v) s)

/-- EVT_S3_ACK: EVT_CTRL.S3_ACK written 1 (R590). -/
def execEvtS3Ack (h : ReqHdr) (p : Bool) (s : State) : Host.Outcome State Fault Refusal :=
  .next (regReq p h noMeas 0x1064 (fun _ => 1) s)

/-- RESERVE_RELEASE: EST_CTRL.RESERVE_RELEASE written 1 (R303, R312). -/
def execReserveRelease (h : ReqHdr) (p : Bool) (s : State) : Host.Outcome State Fault Refusal :=
  .next (regReq p h noMeas 0xE004 (fun _ => 1) s)

/-- RESERVE_HOLD: EST_CTRL.RESERVE_HOLD written 1 (R303, R312). -/
def execReserveHold (h : ReqHdr) (p : Bool) (s : State) : Host.Outcome State Fault Refusal :=
  .next (regReq p h noMeas 0xE004 (fun _ => 2) s)

/-- CC_RESEED: EST_CTRL.CC_RESEED written 1 (R312). -/
def execCcReseed (h : ReqHdr) (p : Bool) (s : State) : Host.Outcome State Fault Refusal :=
  .next (regReq p h noMeas 0xE004 (fun _ => 4) s)

/-- EST_CHAR_START: EST_CHAR.START written 1 (R308, R313). -/
def execEstCharStart (h : ReqHdr) (p : Bool) (s : State) : Host.Outcome State Fault Refusal :=
  .next (regReq p h noMeas 0xE008 (fun _ => 1) s)

/-- EST_CHAR_ABORT: EST_CHAR.ABORT written 1 (R310, R313). -/
def execEstCharAbort (h : ReqHdr) (p : Bool) (s : State) : Host.Outcome State Fault Refusal :=
  .next (regReq p h noMeas 0xE008 (fun _ => 2) s)

/-- WIN_CLR_CELL: WIN_CTRL.CLR_CELL written 1 (R336, R344). -/
def execWinClrCell (h : ReqHdr) (p : Bool) (s : State) : Host.Outcome State Fault Refusal :=
  .next (regReq p h noMeas 0xF004 (fun w => w ||| 2) s)

/-- WIN_FREEZE: WIN_CTRL.FREEZE written with `on` (R344). -/
def execWinFreeze (h : ReqHdr) (p : Bool) (on : Bool) (s : State) : Host.Outcome State Fault Refusal :=
  .next (regReq p h noMeas 0xF004 (fun _ => if on then 1 else 0) s)

/-- TIME_TNS_LATCH: TIME_TNS_LO read (R404). -/
def execTimeTnsLatch (h : ReqHdr) (s : State) : Host.Outcome State Fault Refusal :=
  .next (latchReq h 0x3008 s)

/-- LEDG_BLOCK_LATCH: offset 0 of LEDG_BLKb read (R450). -/
def execLedgBlockLatch (h : ReqHdr) (b : Fin 5) (s : State) : Host.Outcome State Fault Refusal :=
  .next (latchReq h (0x11100 + 64 * b.val) s)

/-- REC_SEQ_LATCH: REC_OLDEST_LO or REC_SEQ_LO read (R482). -/
def execRecSeqLatch (h : ReqHdr) (oldest : Bool) (s : State) : Host.Outcome State Fault Refusal :=
  .next (latchReq h (if oldest then 0x12010 else 0x12008) s)

end Sys2Proof.Machine
end

