-- ==== Sys2Proof/Machine/Host.lean ====
section
/-! DEFINITION. Commands of the host link (chapter 17): register access, streams, challenges, joining, and the events
of its ports. -/

namespace Sys2Proof.Machine

/-! ## Register access (R491, R495) -/

/-- READ (R495): the words from `addr` on. -/
def execRead (h : ReqHdr) (addr : Word) (cnt : BitVec 16) (s : State) : Host.Outcome State Fault Refusal :=
  .next (hostRequest 1 h (readReq h.port addr.toNat cnt.toNat) s)

/-- WRITE (R495). -/
def execWrite (h : ReqHdr) (addr : Word) (cnt : BitVec 16) (data : List Word) (m : WrMeas) (s : State) :
    Host.Outcome State Fault Refusal :=
  .next (hostRequest 2 h (writeWords { op := 2, port := h.port, tag := h.tag, m := m } addr.toNat cnt.toNat data) s)

/-- WRITE_P (R495). -/
def execWriteP (h : ReqHdr) (addr : Word) (cnt : BitVec 16) (data : List Word) (m : WrMeas) (s : State) :
    Host.Outcome State Fault Refusal :=
  .next (hostRequest 3 h (writeWords { op := 3, port := h.port, tag := h.tag, m := m } addr.toNat cnt.toNat data) s)

/-- An opcode that no request has (R491): reserved, or sent by masters only. 0x00 stands only in the SPI idle header. -/
def unknownOp (p : Port) (op : Byte) : Bool :=
  decide (op.toNat ≥ 0x0F) || [5, 6, 8, 0x0C, 0x0D].contains op.toNat || (op == 0 && p != .spi)

/-- UNKNOWN_OP (R491): a request with such an opcode is answered with NAK UNKNOWN_OP. -/
def execUnknownOp (h : ReqHdr) (op : Byte) (s : State) : Host.Outcome State Fault Refusal :=
  .next (if unknownOp h.port op then hostRequest op.toNat h (refuse 0x0C) s else s)

/-! ## Streams (R507 to R511) -/

/-- The parameters of a stream have the length and the values of its type (R477, R507): a STATUS, 0 for valid. -/
def streamChk (p : Port) (stype period : Nat) (ps : List Byte) (s : State) : Nat :=
  let start := fld ps 0 8
  if stype > 3 then 2
  else if ps.length ≠ (if stype = 1 then 0 else if stype = 2 then 4 else 12) then 7
  else if stype = 3 then
    if p = .can then 2
    else if fld ps 8 1 > 3 ∨ fld ps 9 1 > 1 ∨ (start ≥ 2 ^ 48 ∧ start ≠ 2 ^ 64 - 1) then 2
    else if (List.range 4).all (fun k => (cursorOf s k).active) then 0x0A else 0
  else if period < 10 then 2
  else if stype = 2 ∧ (fld ps 2 2 = 0 ∨ fld ps 2 2 > 1536) then 2 else 0

/-- The first free stream slot. -/
def freeSlot (s : State) : Option Nat := (List.range 8).find? fun k => (Tab.get none s.host.str k).isNone

/-- The first free read cursor. -/
def freeCursor (s : State) : Nat := ((List.range 4).find? fun k => !(cursorOf s k).active).getD 0

/-- A REC stream takes cursor `k` (R477, R479, R483): a START below the oldest retrievable record is an overrun. -/
def cursorOpen (k : Nat) (p : Port) (ps : List Byte) (s : State) : State :=
  let start := fld ps 0 8
  let old := scopeOldest s (fld ps 9 1)
  let next := if start = 0 then old else if start = 2 ^ 64 - 1 then s.recd.pub + 1 else start
  let c : Cursor := { active := true, overrun := decide (next < old), scope := fld ps 9 1, minSev := fld ps 8 1
                      port := p, skip := 0, next := max next old }
  { s with recd.cur := Tab.set {} s.recd.cur k c }

/-- STREAM_OPEN (R507, R510): the stream takes the first free slot, and its first period instant is now. -/
def streamOpen (p : Port) (stype sid period : Nat) (ps : List Byte) (s : State) : State × Reply :=
  let x : Stream := { port := p, stype := stype, sid := sid, period := period, first := fld ps 0 2, count := fld ps 2 2
                      cursor := freeCursor s, nextAt := s.time.tns }
  let st := streamChk p stype period ps s
  if st ≠ 0 then refuse st s
  else match freeSlot s with
    | none => refuse 0x0A s
    | some k =>
      if portLoad s p + streamLoad s x > portLimit s p then refuse 0x0B s
      else
        let y := if stype = 3 then { x with first := 0, count := 0 } else { x with cursor := 0 }
        let s1 := if stype = 3 then cursorOpen x.cursor p ps s else s
        ({ s1 with host.str := Tab.set none s1.host.str k (some y) }, .ack sid 0 [])

/-- STREAM_OPEN with STYPE 0 (R507): the streams of the port with this SID close. -/
def streamClose (p : Port) (sid : Nat) (s : State) : State × Reply :=
  (closeStreams (fun x => x.port == p && x.sid == sid) s, .ack sid 0 [])

/-- STREAM_OPEN (R507): STYPE 0 closes a stream. -/
def execStreamOpen (h : ReqHdr) (stype sid : Byte) (period : BitVec 16) (ps : List Byte) (s : State) :
    Host.Outcome State Fault Refusal :=
  .next (hostRequest 4 h (fun s => if stype = 0 then streamClose h.port sid.toNat s
    else streamOpen h.port stype.toNat sid.toNat period.toNat ps s) s)

/-- STREAM_CLOSE (R507): STREAM_OPEN with STYPE 0. -/
def execStreamClose (h : ReqHdr) (sid : Byte) (s : State) : Host.Outcome State Fault Refusal :=
  .next (hostRequest 4 h (streamClose h.port sid.toNat) s)

/-- A STRING entry (R508). Values that no frame has delivered are zero. -/
def stringEntry (s : State) (i : Nat) : List Byte :=
  let e := eStr s i
  let a := aggOf s i
  let iS := match (stringCells s i).head? with
    | some c => (Tab.get {} s.acq.pub c).iS
    | none => 0
  le 4 e.socReg.toNat ++ leI 4 iS ++ leI 2 (a.vPack.getD 0) ++ leI 2 (a.vLink.getD 0) ++ leI 2 (a.vLo.getD 0) ++
    leI 2 (a.vHi.getD 0) ++ leI 2 (a.tLo.getD 0) ++ leI 2 (a.tHi.getD 0) ++ le 4 (e.pd.getD 1 0) ++
    le 4 (e.pc.getD 1 0) ++ le 1 (drvState s i) ++ le 1 (levelOf s i) ++
    le 1 (at' 2 (b2n (latched s 2 i)) + at' 1 (b2n (latched s 1 i)) + b2n (latched s 0 i)) ++ le 1 i

/-- A CELL entry (R508). -/
def cellEntry (s : State) (c : Nat) : List Byte :=
  let a := Tab.get {} s.acq.pub c
  let e := eCell s c
  let k := kCell s c
  let f (w : Word) (src dst : Nat) := at' dst (b2n (w.getLsbD src))
  le 2 a.v ++ le 2 e.soc ++ leI 2 a.tLoc ++
    le 2 (f e.flags 13 11 + f e.flags 9 10 + f e.flags 15 9 + f k.outStat 1 8 + f k.outStat 3 7 + f e.flags 14 6 +
      f a.stat 9 5 + f a.stat 5 4 + f a.stat 1 3 + f a.stat 3 2 + f a.stat 6 1 + f a.stat 0 0)

/-- The entries of a list in parts of at most `per`. -/
def cutParts {α : Type} (per : Nat) : Nat → List α → List (List α)
  | 0, _ => []
  | n + 1, l => if l.isEmpty then [] else l.take per :: cutParts per n (l.drop per)

/-- The entries of each part of a snapshot (R509). -/
def snapParts (s : State) (x : Stream) : List (List Byte) :=
  if x.stype = 1 then
    let es := (strings s).map (stringEntry s)
    (cutParts (if x.port = .can then 1 else 4) es.length es).map (·.flatten)
  else
    let es := (streamCells s x).map (cellEntry s)
    (cutParts (cellPer x.port) es.length es).map (·.flatten)

/-- The bodies of the parts of a snapshot, FLAGS 0 (R509). -/
def snapBodies (s : State) (x : Stream) : List (List Byte) :=
  let ps := snapParts s x
  (ps.zipIdx).map fun e => le 1 x.sid ++ le 1 (e.2 + 1) ++ le 1 ps.length ++ le 1 0 ++ le 4 s.sys.frmCommit.toNat ++ e.1

/-- The first period instant after `t`. -/
def nextInstant (x : Stream) (t : Nat) : Nat :=
  x.nextAt + x.period * 1000000 * ((t - x.nextAt) / (x.period * 1000000) + 1)

/-- A snapshot of the stream in slot `k` is taken (R509): parts of the last one that have not left are discarded. -/
def snapshot (k : Nat) (x : Stream) (t : Nat) (s : State) : State :=
  let left (m : Msg) : Bool := m.slot == some k
  let drop := !x.parts.isEmpty || (portOf s x.port).txq.any left
  let y := { x with
    parts := snapBodies s x
    drop := if drop then sat 16 (x.drop + 1) else x.drop
    dropNext := drop || x.dropNext
    nextAt := nextInstant x t }
  modPort x.port (fun q => { q with txq := q.txq.filter fun m => !left m })
    { s with host.str := Tab.set none s.host.str k (some y) }

/-- STREAM_SNAPSHOT (R509): the last commit point lies at or after the period instant of the STRING or CELL stream in
slot `k`. -/
def execStreamSnapshot (k : Fin 8) (s : State) : Host.Outcome State Fault Refusal :=
  .next (match Tab.get none s.host.str k.val, s.sys.commitAt with
    | some x, some t => if x.stype ≠ 3 ∧ t ≥ x.nextAt then settle (snapshot k.val x t s) else s
    | _, _ => s)

/-- A record enters a list in ascending SEQ, once. -/
def insRec (r : Rec) : List Rec → List Rec
  | [] => [r]
  | x :: xs => if r.seq < x.seq then r :: x :: xs else if r.seq = x.seq then x :: xs else x :: insRec r xs

/-- The records that a cursor has still to read, in ascending SEQ (R477). -/
def cursorRecs (s : State) (c : Cursor) : List Rec :=
  ((scopeAll s c.scope).filter fun r => decide (r.seq ≥ c.next ∧ recSev r ≥ c.minSev)).foldl (fun l r => insRec r l) []

/-- Whole records that fit in `room` bytes, those whose CRC fails left out: their bytes, the SEQ after the last one
read, and the number that failed (R477, R478). -/
def takeRecs (bad : List Nat) : Nat → Nat → List Rec → List Byte × Nat × Nat
  | _, next, [] => ([], next, 0)
  | room, next, r :: rs =>
    if !r.done || bad.contains r.seq then
      let t := takeRecs bad room (r.seq + 1) rs
      (t.1, t.2.1, t.2.2 + 1)
    else if recLen r ≤ room then
      let t := takeRecs bad (room - recLen r) (r.seq + 1) rs
      (recBytes r ++ t.1, t.2)
    else ([], next, 0)

/-- The bytes of records that a part holds (R492, R509). -/
def recRoom : Port → Nat
  | .spi => 4080
  | _ => 1484

/-- A part of whole records leaves the REC stream in slot `k` (R477, R478, R509). -/
def recPart (k : Nat) (x : Stream) (bad : List Nat) (s : State) : State :=
  let c := cursorOf s x.cursor
  let t := takeRecs bad (recRoom x.port) c.next (cursorRecs s c)
  let s1 := { s with recd.cur := Tab.set {} s.recd.cur x.cursor { c with next := t.2.1, skip := sat 16 (c.skip + t.2.2) } }
  if t.1.isEmpty then s1
  else txPush x.port { cls := 5, op := 5, slot := some k
                       body := le 1 x.sid ++ le 1 1 ++ le 1 1 ++ le 1 0 ++ le 4 s.sys.frmCommit.toNat ++ t.1 } s1

/-- The next part of a snapshot is queued (R498, R509): the first after a discard carries DROP_BEFORE. -/
def snapSend (k : Nat) (x : Stream) (s : State) : State :=
  match x.parts with
  | [] => s
  | b :: rest =>
    let body := b.take 3 ++ le 1 (b2n x.dropNext) ++ b.drop 4
    txPush x.port { cls := if x.stype = 1 then 3 else 5, op := 5, slot := some k, body := body }
      { s with host.str := Tab.set none s.host.str k (some { x with parts := rest, dropNext := false }) }

/-- STREAM_PART_SEND (R478, R509): the next STREAM_DATA part of slot `k` is queued; `bad` holds the SEQs of records whose
CRC fails as they are read. -/
def execStreamPartSend (k : Fin 8) (bad : List (BitVec 48)) (s : State) : Host.Outcome State Fault Refusal :=
  .next (match Tab.get none s.host.str k.val with
    | some x => if mayTalk s x.port then
        settle (if x.stype = 3 then recPart k.val x (bad.map (·.toNat)) s else snapSend k.val x s) else s
    | none => s)

/-! ## Challenges (R496, R526, R529) -/

/-- ATTEST (R527, R529): it needs the ledger key. -/
def attest (body : List Byte) (s : State) : State × Reply :=
  if body.length ≠ 8 then refuse 7 s
  else if s.nv.keys.ledger.val.isEmpty then refuse 9 s
  else (s, .resp (le 1 2 ++ le 3 0 ++ attestBody s body))

/-- KEY_LOAD (R526). -/
def keyLoadReq (body : List Byte) (s : State) : State × Reply :=
  let st := keyChk s body
  if body.length ≠ 40 then refuse 7 s
  else if st ≠ 0 then refuse st s
  else (keyLoad body s, .resp (le 1 0x11 ++ le 3 0 ++ body.take 1 ++ (body.drop 36).take 4))

/-- A CHALLENGE of a KIND (R496). -/
def challengeReq (kind : Nat) (body : List Byte) (s : State) : State × Reply :=
  if kind = 1 then attest body s else if kind = 0x10 then keyLoadReq body s else refuse 2 s

/-- CHALLENGE_ATTEST (R496, R529): a CHALLENGE of KIND 0x01; one of an undefined KIND is INVALID_VALUE. -/
def execChallengeAttest (h : ReqHdr) (kind : Byte) (body : List Byte) (s : State) : Host.Outcome State Fault Refusal :=
  .next (hostRequest 0x0B h (challengeReq kind.toNat body) s)

/-- CHALLENGE_KEY_LOAD (R526): a CHALLENGE of KIND 0x10. -/
def execChallengeKeyLoad (h : ReqHdr) (body : List Byte) (s : State) : Host.Outcome State Fault Refusal :=
  .next (hostRequest 0x0B h (challengeReq 0x10 body) s)

/-! ## Joining (R500 to R502) -/

/-- The payload of JOIN (R500). -/
def joinBody (s : State) : List Byte :=
  le 8 s.sec.mid.toNat ++ le 4 0x0600 ++ le 2 s.host.lastSnid ++ le 1 (b2n (sproutRuns s)) ++ le 1 (upper s) ++
    le 4 (readImg 0x00C s).toNat

/-- JOIN (R86, R501): the random wait of a joining port is over. -/
def execJoin (p : Port) (s : State) : Host.Outcome State Fault Refusal :=
  .next (let x := portOf s p
    match x.joinAt with
    | some t =>
      if portRuns s p && x.joining && decide (t ≤ s.time.tns) then
        settle (txPush p { cls := 1, op := 0x0D, body := joinBody s, dst := some macAll }
          (modPort p (fun x => { x with joinAt := none, joinSent := some s.time.tns }) s))
      else s
    | none => s)

/-- JOIN_RETRY (R501): no ASSIGN has come within 200 ms of JOIN, or JOIN was lost; it is sent again after a random 100 to
355 ms. On CAN FD a lost JOIN is an error frame (R515). -/
def execJoinRetry (p : Port) (lost : Bool) (s : State) : Host.Outcome State Fault Refusal :=
  .next (let x := portOf s p
    match x.joinSent with
    | some t =>
      if portRuns s p && x.joining && (lost || decide (since s t ≥ 200000000)) then
        let r := takeFree s
        let s1 := modPort p (fun x => { x with joinSent := none
                                               joinAt := some (s.time.tns + 100000000 + r.1.toNat % 255000001) }) r.2
        if lost && p == .can then { s1 with host.errCan := sat 8 (s1.host.errCan + 1) } else s1
      else s
    | none => s)

/-- Streams that need a NODE close: those of 10BASE-T1S and CAN FD (R502). -/
def closeNodeStreams (s : State) : State := closeStreams (fun x => x.port != .spi) s

/-- The master drops its NODE (R502): it joins again at the next SYNC. -/
def dropNode (p : Port) (cause : Nat) (s : State) : State :=
  match s.host.snid with
  | none => s
  | some n =>
    let s1 := closeNodeStreams (emit 0x0A01 (le 2 n ++ le 1 (portIx p) ++ le 1 cause) s)
    [Port.t1s, .can].foldl (fun s q => modPort q (fun x => { x with
      txq := [], heard := false, joining := false, joinAt := none, joinSent := none }) s) { s1 with host.snid := none }

/-- The master takes an SNID (R501 step 3, R502, R514). -/
def takeNode (p : Port) (n ncnt : Nat) (s : State) : State :=
  let s1 := if s.host.snid.isSome && s.host.snid != some n then closeNodeStreams s else s
  let s2 := [Port.t1s, .can, .spi].foldl (fun s q => modPort q (fun x => { x with
    heard := true, joining := false, joinAt := none, joinSent := none }) s) s1
  emit 0x0A00 (le 2 n ++ le 1 (portIx p) ++ le 1 ncnt) (nvQueue 1 { s2 with
    host.snid := some n
    host.lastSnid := n
    host.budT1s := 8000 / (ncnt + 1)
    host.budCan := 2000 / (ncnt + 1) })

/-- ASSIGN with the master's own MID (R500 to R502). -/
def assignOwn (p : Port) (snid ncnt : Nat) (s : State) : State × Reply :=
  if snid = 0xFFFF then accept (dropNode p 2 s)
  else if snid ≥ 4096 ∨ ncnt = 0 ∨ ncnt > 64 then refuse 2 s
  else accept (takeNode p snid ncnt s)

/-- ASSIGN (R493, R501, R502): it needs no NODE. One that names another MID takes away a NODE that it gives. -/
def execAssign (h : ReqHdr) (mid : BitVec 64) (snid : BitVec 16) (ncnt : Byte) (s : State) :
    Host.Outcome State Fault Refusal :=
  .next (if !portRuns s h.port || !linkTakes 0x41 h.link s then linkNote h.link s
    else if mid = s.sec.mid then hostFrame 0x0E h (assignOwn h.port snid.toNat ncnt.toNat) s
    else if snid ≠ 0xFFFF ∧ s.host.snid.any (fun n => n % 64 == snid.toNat % 64) then
      settle (dropNode h.port 1 (noteFrame h s))
    else noteFrame h s)

/-! ## Events of the ports -/

/-- KEEP_ALIVE (R497, R503): nothing else is queued by the 24th PLCA cycle. -/
def execKeepAlive (s : State) : Host.Outcome State Fault Refusal :=
  .next (if mayTalk s .t1s && (portOf s .t1s).txq.isEmpty then
      settle (txPush .t1s { cls := 6, op := 6, body := le 4 0 } { s with
        host.keepalive := sat 16 (s.host.keepalive + 1)
        host.plcaAt := some s.time.tns })
    else s)

/-- SPI_TRANSACTION (R489): the oldest queued frame leaves, or the idle header. The host's frame is an idle header (`none`), or a frame whose
CRC verifies, whose request is a command of its own, or does not, and is counted. -/
def execSpiTransaction (frame : Option Bool) (s : State) : Host.Outcome State Fault Refusal :=
  .next (if !portRuns s .spi then s
    else
      let s1 := if (portOf s .spi).txq.isEmpty then
          modPort .spi (fun x => { x with wire := [{ bytes := List.replicate 8 0 }] }) s else txPop .spi s
      settle { s1 with
        host.spiAt := some s.time.tns
        host.errSpi := if frame == some false then sat 8 (s.host.errSpi + 1) else s.host.errSpi })

/-- SPI_EARLY_END (R489): SPI_CS_n rises early; the device's frame stays queued. -/
def execSpiEarlyEnd (s : State) : Host.Outcome State Fault Refusal :=
  .next (if !portRuns s .spi then s
    else { s with host.spiAt := some s.time.tns, host.errSpi := sat 8 (s.host.errSpi + 1) })

/-- SEGMENT_TIMEOUT (R492): messages whose segments are not complete within 50 ms of the first are discarded. -/
def execSegmentTimeout (s : State) : Host.Outcome State Fault Refusal :=
  .next (modPort .can (fun x => { x with part := x.part.filter fun y => decide (since s y.at0 < 50000000) }) s)

/-- CAN_BUS_OFF (R486, R512, R515): after `errors` error frames the controller goes bus-off and records it, recovers as
ISO 11898-1 provides, or changes between error active and error passive. -/
def execCanBusOff (ev : CanEvent) (errors : Nat) (s : State) : Host.Outcome State Fault Refusal :=
  .next (if s.host.can == .off then s
    else
      let s1 := { s with host.errCan := sat 8 (s.host.errCan + errors) }
      match ev with
      | .busOff =>
        if s.host.can == .busOff then s1
        else
          let n := sat 32 (s.host.busOffs + 1)
          settle (emit 0x0A03 (le 4 n) { s1 with host.can := .busOff, host.busOffs := n })
      | .recovered => if s.host.can == .busOff then settle { s1 with host.can := .active } else s1
      | .passive => if s.host.can == .active then { s1 with host.can := .passive } else s1
      | .active => if s.host.can == .passive then { s1 with host.can := .active } else s1)

end Sys2Proof.Machine
end

