-- ==== Sys2Proof/Machine/Dispatch.lean ====
section
/-! DEFINITION. One arm for each command, and nothing else. -/

namespace Sys2Proof.Machine

/-- The effect of a command on everything but the queue. -/
def exec (i : Instr) (s : State) : Host.Outcome State Fault Refusal :=
  match i with
  | .frameBoundary => Sys2Proof.Machine.execFrameBoundary s
  | .acquisitionCutOff aux => Sys2Proof.Machine.execAcquisitionCutOff aux s
  | .commitPoint slackNs => Sys2Proof.Machine.execCommitPoint slackNs s
  | .summaryStage => Sys2Proof.Machine.execSummaryStage s
  | .sysModeWrite h p v => Sys2Proof.Machine.execSysModeWrite h p v s
  | .imgChunk h off data => Sys2Proof.Machine.execImgChunk h off data s
  | .imgCommit h len => Sys2Proof.Machine.execImgCommit h len s
  | .imgValidationDone => Sys2Proof.Machine.execImgValidationDone s
  | .imgSlotWriteDone ok => Sys2Proof.Machine.execImgSlotWriteDone ok s
  | .imgAbortStage h p => Sys2Proof.Machine.execImgAbortStage h p s
  | .imgCancel h p => Sys2Proof.Machine.execImgCancel h p s
  | .hotActivation => Sys2Proof.Machine.execHotActivation s
  | .coldActivationHold => Sys2Proof.Machine.execColdActivationHold s
  | .coldActivationLoadProtection intact => Sys2Proof.Machine.execColdActivationLoadProtection intact s
  | .coldActivationEnumerate => Sys2Proof.Machine.execColdActivationEnumerate s
  | .coldActivationLoadModels intact => Sys2Proof.Machine.execColdActivationLoadModels intact s
  | .coldActivationComplete => Sys2Proof.Machine.execColdActivationComplete s
  | .vsupValid vsup => Sys2Proof.Machine.execVsupValid vsup s
  | .startupPDieUp => Sys2Proof.Machine.execStartupPDieUp s
  | .startupCoreUp keyOk aOk bOk sealOpen => Sys2Proof.Machine.execStartupCoreUp keyOk aOk bOk sealOpen s
  | .strapLatch c0 c1 c2 p0 p1 p2 => Sys2Proof.Machine.execStrapLatch c0 c1 c2 p0 p1 p2 s
  | .startupImageSelect aOk bOk fa fb netOk romOk => Sys2Proof.Machine.execStartupImageSelect aOk bOk fa fb netOk romOk s
  | .startupRings xtal bad => Sys2Proof.Machine.execStartupRings xtal bad s
  | .startupSteward bad recBad hostBad tests => Sys2Proof.Machine.execStartupSteward bad recBad hostBad tests s
  | .startupEstimate bad kprog ktab est win tests => Sys2Proof.Machine.execStartupEstimate bad kprog ktab est win tests s
  | .startupFull bad cs mib unit => Sys2Proof.Machine.execStartupFull bad cs mib unit s
  | .startupLate k => Sys2Proof.Machine.execStartupLate k s
  | .sproutStatusFrame => Sys2Proof.Machine.execSproutStatusFrame s
  | .ringStart r => Sys2Proof.Machine.execRingStart r s
  | .enumTokenA r count returned => Sys2Proof.Machine.execEnumTokenA r count returned s
  | .enumTokenB r count => Sys2Proof.Machine.execEnumTokenB r count s
  | .enumRead r ds => Sys2Proof.Machine.execEnumRead r ds s
  | .enumMeasure r loop ms => Sys2Proof.Machine.execEnumMeasure r loop ms s
  | .enumAuthenticate r as => Sys2Proof.Machine.execEnumAuthenticate r as s
  | .enumFirstTrig r => Sys2Proof.Machine.execEnumFirstTrig r s
  | .ringEnumRequest h p r => Sys2Proof.Machine.execRingEnumRequest h p r s
  | .ringMeasRequest h p r => Sys2Proof.Machine.execRingMeasRequest h p r s
  | .collectSend r => Sys2Proof.Machine.execCollectSend r s
  | .collectSlotReceive r portB bytes turn => Sys2Proof.Machine.execCollectSlotReceive r portB bytes turn s
  | .alarmReceive r portB a na => Sys2Proof.Machine.execAlarmReceive r portB a na s
  | .mgmtExchange r resp => Sys2Proof.Machine.execMgmtExchange r resp s
  | .delayMeasurement r rttA rttB loop => Sys2Proof.Machine.execDelayMeasurement r rttA rttB loop s
  | .nodeLost r p => Sys2Proof.Machine.execNodeLost r p s
  | .linkUp r => Sys2Proof.Machine.execLinkUp r s
  | .liveInsertCount r n returned descs => Sys2Proof.Machine.execLiveInsertCount r n returned descs s
  | .liveInsertConfigure r ds ms => Sys2Proof.Machine.execLiveInsertConfigure r ds ms s
  | .liveInsertAuthenticate r as => Sys2Proof.Machine.execLiveInsertAuthenticate r as s
  | .liveInsertUnwrap r => Sys2Proof.Machine.execLiveInsertUnwrap r s
  | .nodeChallenge r p => Sys2Proof.Machine.execNodeChallenge r p s
  | .nodeTagCheck r p => Sys2Proof.Machine.execNodeTagCheck r p s
  | .balanceDecision => Sys2Proof.Machine.execBalanceDecision s
  | .balNodeFault r p => Sys2Proof.Machine.execBalNodeFault r p s
  | .dieTempTimeout r p => Sys2Proof.Machine.execDieTempTimeout r p s
  | .coupIdStart r p => Sys2Proof.Machine.execCoupIdStart r p s
  | .coupIdComplete r p => Sys2Proof.Machine.execCoupIdComplete r p s
  | .coupIdGiveUp r p => Sys2Proof.Machine.execCoupIdGiveUp r p s
  | .acqCoupId h p => Sys2Proof.Machine.execAcqCoupId h p s
  | .acqOwNow h p => Sys2Proof.Machine.execAcqOwNow h p s
  | .owTestRead r p stack ps => Sys2Proof.Machine.execOwTestRead r p stack ps s
  | .sleepPatrol slots fails => Sys2Proof.Machine.execSleepPatrol slots fails s
  | .patrolRecheck slots fails => Sys2Proof.Machine.execPatrolRecheck slots fails s
  | .currentSample n x atS old ns => Sys2Proof.Machine.execCurrentSample n x atS old ns s
  | .curChCfgWrite h p n v => Sys2Proof.Machine.execCurChCfgWrite h p n v s
  | .curChFsWrite h p n v => Sys2Proof.Machine.execCurChFsWrite h p n v s
  | .curChOfsWrite h p n v => Sys2Proof.Machine.execCurChOfsWrite h p n v s
  | .calTrigger n => Sys2Proof.Machine.execCalTrigger n s
  | .calSwitch n => Sys2Proof.Machine.execCalSwitch n s
  | .calApply n => Sys2Proof.Machine.execCalApply n s
  | .calReturn n => Sys2Proof.Machine.execCalReturn n s
  | .curCalNow h p => Sys2Proof.Machine.execCurCalNow h p s
  | .curCalOverdue n => Sys2Proof.Machine.execCurCalOverdue n s
  | .channelStop n f sub mv => Sys2Proof.Machine.execChannelStop n f sub mv s
  | .curDisagreeSet idx => Sys2Proof.Machine.execCurDisagreeSet idx s
  | .curDisagreeClear idx => Sys2Proof.Machine.execCurDisagreeClear idx s
  | .comparatorCrossing n lo up => Sys2Proof.Machine.execComparatorCrossing n lo up s
  | .cmpTest h p => Sys2Proof.Machine.execCmpTest h p s
  | .cmpCheckDone n hiOk loOk => Sys2Proof.Machine.execCmpCheckDone n hiOk loOk s
  | .tripLatchSet m cat idx src => Sys2Proof.Machine.execTripLatchSet m cat idx src s
  | .huskSlotAssert m k => Sys2Proof.Machine.execHuskSlotAssert m k s
  | .huskSlotClear m k => Sys2Proof.Machine.execHuskSlotClear m k s
  | .huskTimerExpiry m k => Sys2Proof.Machine.execHuskTimerExpiry m k s
  | .sequencerStart m q => Sys2Proof.Machine.execSequencerStart m q s
  | .sequencerWaitMet m q => Sys2Proof.Machine.execSequencerWaitMet m q s
  | .sequencerTimeout m q => Sys2Proof.Machine.execSequencerTimeout m q s
  | .sequencerAbort m q => Sys2Proof.Machine.execSequencerAbort m q s
  | .huskDivergence k => Sys2Proof.Machine.execHuskDivergence k s
  | .huskDivergeRecord intact => Sys2Proof.Machine.execHuskDivergeRecord intact s
  | .huskCrcCheck crcM crcS corr uncM uncS intact => Sys2Proof.Machine.execHuskCrcCheck crcM crcS corr uncM uncS intact s
  | .netlistLoad => Sys2Proof.Machine.execNetlistLoad s
  | .graceExpiry idx => Sys2Proof.Machine.execGraceExpiry idx s
  | .huskCloseReq h p mask => Sys2Proof.Machine.execHuskCloseReq h p mask s
  | .huskOpen h p mask => Sys2Proof.Machine.execHuskOpen h p mask s
  | .huskTripClr h p mask => Sys2Proof.Machine.execHuskTripClr h p mask s
  | .keyRearm => Sys2Proof.Machine.execKeyRearm s
  | .economyEntry n => Sys2Proof.Machine.execEconomyEntry n s
  | .driveFault n gate coil => Sys2Proof.Machine.execDriveFault n gate coil s
  | .openCoilFault n c0 c1 c2 => Sys2Proof.Machine.execOpenCoilFault n c0 c1 c2 s
  | .fastOpenTimeout idx => Sys2Proof.Machine.execFastOpenTimeout idx s
  | .weldCheckStart idx => Sys2Proof.Machine.execWeldCheckStart idx s
  | .weldCheckEvaluate idx => Sys2Proof.Machine.execWeldCheckEvaluate idx s
  | .drvWeldCheck h p mask => Sys2Proof.Machine.execDrvWeldCheck h p mask s
  | .hvilFault n samples => Sys2Proof.Machine.execHvilFault n samples s
  | .hvilFaultClear n samples => Sys2Proof.Machine.execHvilFaultClear n samples s
  | .keyQualify samples => Sys2Proof.Machine.execKeyQualify samples s
  | .inputChatter samples => Sys2Proof.Machine.execInputChatter samples s
  | .chgDetQualify active ns => Sys2Proof.Machine.execChgDetQualify active ns s
  | .kernelStepStart l bad => Sys2Proof.Machine.execKernelStepStart l bad s
  | .endStep l ns cmp => Sys2Proof.Machine.execEnd l ns cmp s
  | .fadd l d a b => Sys2Proof.Machine.execFadd l d a b s
  | .fsub l d a b => Sys2Proof.Machine.execFsub l d a b s
  | .fmul l d a b => Sys2Proof.Machine.execFmul l d a b s
  | .fma l d a b c => Sys2Proof.Machine.execFma l d a b c s
  | .fdiv l d a b => Sys2Proof.Machine.execFdiv l d a b s
  | .fsqrt l d a => Sys2Proof.Machine.execFsqrt l d a s
  | .fexp l d a => Sys2Proof.Machine.execFexp l d a s
  | .fmin l d a b => Sys2Proof.Machine.execFmin l d a b s
  | .fmax l d a b => Sys2Proof.Machine.execFmax l d a b s
  | .fabs l d a => Sys2Proof.Machine.execFabs l d a s
  | .clamp l d a b c => Sys2Proof.Machine.execClamp l d a b c s
  | .cmp l pd a b cond => Sys2Proof.Machine.execCmp l pd a b cond s
  | .sel l d a b pn => Sys2Proof.Machine.execSel l d a b pn s
  | .movi l d kind imm => Sys2Proof.Machine.execMovi l d kind imm s
  | .cvt l d a mode => Sys2Proof.Machine.execCvt l d a mode s
  | .ldi l d idx => Sys2Proof.Machine.execLdi l d idx s
  | .lds l d w bad => Sys2Proof.Machine.execLds l d w bad s
  | .sts l a w cmp => Sys2Proof.Machine.execSts l a w cmp s
  | .out l a j cmp => Sys2Proof.Machine.execOut l a j cmp s
  | .tbl2 l d a b t bad => Sys2Proof.Machine.execTbl2 l d a b t bad s
  | .skip l always sense pn n => Sys2Proof.Machine.execSkip l always sense pn n s
  | .handOver retest => Sys2Proof.Machine.execHandOver retest s
  | .pairRelease h p mask => Sys2Proof.Machine.execPairRelease h p mask s
  | .dbgSessionOpen h p q => Sys2Proof.Machine.execDbgSessionOpen h p q s
  | .dbgSessionClose h p => Sys2Proof.Machine.execDbgSessionClose h p s
  | .dbgSessionTimeout => Sys2Proof.Machine.execDbgSessionTimeout s
  | .dbgHalt h p => Sys2Proof.Machine.execDbgHalt h p s
  | .dbgResume h p => Sys2Proof.Machine.execDbgResume h p s
  | .dbgStep h p => Sys2Proof.Machine.execDbgStep h p s
  | .dbgBreakpoint => Sys2Proof.Machine.execDbgBreakpoint s
  | .dbgRegisterWrite h p g v m => Sys2Proof.Machine.execDbgRegisterWrite h p g v m s
  | .xtalLost devs => Sys2Proof.Machine.execXtalLost devs s
  | .xtalRelock devs => Sys2Proof.Machine.execXtalRelock devs s
  | .trefFault devs => Sys2Proof.Machine.execTrefFault devs s
  | .tnsSaveWrite => Sys2Proof.Machine.execTnsSaveWrite s
  | .sync l sseq two h => Sys2Proof.Machine.execSync l sseq two h s
  | .syncHoldover => Sys2Proof.Machine.execSyncHoldover s
  | .timeResyncRequest h p => Sys2Proof.Machine.execTimeResyncRequest h p s
  | .syncEnWrite h p on => Sys2Proof.Machine.execSyncEnWrite h p on s
  | .timeWallSet h p hi => Sys2Proof.Machine.execTimeWallSet h p hi s
  | .timeTnsLatch h => Sys2Proof.Machine.execTimeTnsLatch h s
  | .thermalMeasurement ls ps => Sys2Proof.Machine.execThermalMeasurement ls ps s
  | .thermalWarning => Sys2Proof.Machine.execThermalWarning s
  | .thermalWarningEnd => Sys2Proof.Machine.execThermalWarningEnd s
  | .thermalThrottle => Sys2Proof.Machine.execThermalThrottle s
  | .thermalThrottleEnd => Sys2Proof.Machine.execThermalThrottleEnd s
  | .failHoldExpiry => Sys2Proof.Machine.execFailHoldExpiry s
  | .thermalShutdown => Sys2Proof.Machine.execThermalShutdown s
  | .shutdownBurstDone => Sys2Proof.Machine.execShutdownBurstDone s
  | .shutdownRecordWritten main pin => Sys2Proof.Machine.execShutdownRecordWritten main pin s
  | .thermalRestart => Sys2Proof.Machine.execThermalRestart s
  | .thermHoldClr h p => Sys2Proof.Machine.execThermHoldClr h p s
  | .nvBurstDone corr => Sys2Proof.Machine.execNvBurstDone corr s
  | .nvWriteDone => Sys2Proof.Machine.execNvWriteDone s
  | .lastGaspDone => Sys2Proof.Machine.execLastGaspDone s
  | .ledgerCheckpoint => Sys2Proof.Machine.execLedgerCheckpoint s
  | .podCheckpoint idx => Sys2Proof.Machine.execPodCheckpoint idx s
  | .podCheckpointConfirmed idx => Sys2Proof.Machine.execPodCheckpointConfirmed idx s
  | .ledgStmt h p => Sys2Proof.Machine.execLedgStmt h p s
  | .statementReady => Sys2Proof.Machine.execStatementReady s
  | .ledgNonceWrite h p hi v => Sys2Proof.Machine.execLedgNonceWrite h p hi v s
  | .ledgEraAdv h p => Sys2Proof.Machine.execLedgEraAdv h p s
  | .ledgBlockLatch h b => Sys2Proof.Machine.execLedgBlockLatch h b s
  | .nvFlush h p => Sys2Proof.Machine.execNvFlush h p s
  | .cellRecWrite => Sys2Proof.Machine.execCellRecWrite s
  | .ztabWrite c => Sys2Proof.Machine.execZtabWrite c s
  | .tallyWrite => Sys2Proof.Machine.execTallyWrite s
  | .rainflowFlush => Sys2Proof.Machine.execRainflowFlush s
  | .dwellFlush => Sys2Proof.Machine.execDwellFlush s
  | .eventAdmit => Sys2Proof.Machine.execEventAdmit s
  | .admissionTimeout => Sys2Proof.Machine.execAdmissionTimeout s
  | .recordComplete seq => Sys2Proof.Machine.execRecordComplete seq s
  | .chaffSummary => Sys2Proof.Machine.execChaffSummary s
  | .granaryProgramDone pin fail cs addr => Sys2Proof.Machine.execGranaryProgramDone pin fail cs addr s
  | .granaryEraseDone pin fail cs addr => Sys2Proof.Machine.execGranaryEraseDone pin fail cs addr s
  | .granaryTimeout pin cs addr => Sys2Proof.Machine.execGranaryTimeout pin cs addr s
  | .granaryRestart answers => Sys2Proof.Machine.execGranaryRestart answers s
  | .recChaffClr h p => Sys2Proof.Machine.execRecChaffClr h p s
  | .recFlush h p => Sys2Proof.Machine.execRecFlush h p s
  | .recFormat h p => Sys2Proof.Machine.execRecFormat h p s
  | .recPinAck h p hi => Sys2Proof.Machine.execRecPinAck h p hi s
  | .recSeqLatch h oldest => Sys2Proof.Machine.execRecSeqLatch h oldest s
  | .read h addr cnt => Sys2Proof.Machine.execRead h addr cnt s
  | .write h addr cnt data m => Sys2Proof.Machine.execWrite h addr cnt data m s
  | .writeP h addr cnt data m => Sys2Proof.Machine.execWriteP h addr cnt data m s
  | .unknownOp h op => Sys2Proof.Machine.execUnknownOp h op s
  | .streamOpen h stype sid period ps => Sys2Proof.Machine.execStreamOpen h stype sid period ps s
  | .streamClose h sid => Sys2Proof.Machine.execStreamClose h sid s
  | .streamSnapshot k => Sys2Proof.Machine.execStreamSnapshot k s
  | .streamPartSend k bad => Sys2Proof.Machine.execStreamPartSend k bad s
  | .challengeAttest h kind body => Sys2Proof.Machine.execChallengeAttest h kind body s
  | .challengeKeyLoad h body => Sys2Proof.Machine.execChallengeKeyLoad h body s
  | .join p => Sys2Proof.Machine.execJoin p s
  | .joinRetry p lost => Sys2Proof.Machine.execJoinRetry p lost s
  | .assign h mid snid ncnt => Sys2Proof.Machine.execAssign h mid snid ncnt s
  | .keepAlive => Sys2Proof.Machine.execKeepAlive s
  | .spiTransaction frame => Sys2Proof.Machine.execSpiTransaction frame s
  | .spiEarlyEnd => Sys2Proof.Machine.execSpiEarlyEnd s
  | .segmentTimeout => Sys2Proof.Machine.execSegmentTimeout s
  | .canBusOff ev errors => Sys2Proof.Machine.execCanBusOff ev errors s
  | .hostBudgetWrite h p t1s can => Sys2Proof.Machine.execHostBudgetWrite h p t1s can s
  | .presBtnPress a b c => Sys2Proof.Machine.execPresBtnPress a b c s
  | .presBtnRelease a b c => Sys2Proof.Machine.execPresBtnRelease a b c s
  | .presStuck => Sys2Proof.Machine.execPresStuck s
  | .presStuckClear => Sys2Proof.Machine.execPresStuckClear s
  | .presenceExpiry strap => Sys2Proof.Machine.execPresenceExpiry strap s
  | .presClose h p => Sys2Proof.Machine.execPresClose h p s
  | .sealBreak a b c => Sys2Proof.Machine.execSealBreak a b c s
  | .sealRestored a b c => Sys2Proof.Machine.execSealRestored a b c s
  | .secAdopt h p mask => Sys2Proof.Machine.execSecAdopt h p mask s
  | .brownOut vsup => Sys2Proof.Machine.execBrownOut vsup s
  | .powerFailWarning vsup fell => Sys2Proof.Machine.execPowerFailWarning vsup fell s
  | .overvoltage vsup => Sys2Proof.Machine.execOvervoltage vsup s
  | .pfwArm vsup => Sys2Proof.Machine.execPfwArm vsup s
  | .railFault r mv => Sys2Proof.Machine.execRailFault r mv s
  | .railRecovery r mv => Sys2Proof.Machine.execRailRecovery r mv s
  | .vcoreRetry => Sys2Proof.Machine.execVcoreRetry s
  | .vcoreReturn => Sys2Proof.Machine.execVcoreReturn s
  | .pwrStandby h p => Sys2Proof.Machine.execPwrStandby h p s
  | .pwrRun h p => Sys2Proof.Machine.execPwrRun h p s
  | .pwrSleep h p => Sys2Proof.Machine.execPwrSleep h p s
  | .autoSleep => Sys2Proof.Machine.execAutoSleep s
  | .sleepStopAcquisition => Sys2Proof.Machine.execSleepStopAcquisition s
  | .sleepSaveDone => Sys2Proof.Machine.execSleepSaveDone s
  | .sleepFlushDone => Sys2Proof.Machine.execSleepFlushDone s
  | .sleepWake c => Sys2Proof.Machine.execSleepWake c s
  | .wakeRailsReady => Sys2Proof.Machine.execWakeRailsReady s
  | .wakeRingsReady ua ub aa ab => Sys2Proof.Machine.execWakeRingsReady ua ub aa ab s
  | .wakeModelsLoaded tests => Sys2Proof.Machine.execWakeModelsLoaded tests s
  | .wakeFullService => Sys2Proof.Machine.execWakeFullService s
  | .wakeOutTimeout => Sys2Proof.Machine.execWakeOutTimeout s
  | .pwrWakeOutClr h p => Sys2Proof.Machine.execPwrWakeOutClr h p s
  | .pwrShip h p => Sys2Proof.Machine.execPwrShip h p s
  | .shipStringsOpen => Sys2Proof.Machine.execShipStringsOpen s
  | .shipSaved => Sys2Proof.Machine.execShipSaved s
  | .shipPowerDown => Sys2Proof.Machine.execShipPowerDown s
  | .shipWake btn ns => Sys2Proof.Machine.execShipWake btn ns s
  | .pwrReset h p => Sys2Proof.Machine.execPwrReset h p s
  | .pwrCfgWrite h p v => Sys2Proof.Machine.execPwrCfgWrite h p v s
  | .bistStart h p target m => Sys2Proof.Machine.execBistStart h p target m s
  | .bistAbort h p => Sys2Proof.Machine.execBistAbort h p s
  | .bistConditionLost mv ppm => Sys2Proof.Machine.execBistConditionLost mv ppm s
  | .bistRestored steps fails => Sys2Proof.Machine.execBistRestored steps fails s
  | .bistRegionDone fails sig ecc => Sys2Proof.Machine.execBistRegionDone fails sig ecc s
  | .bistBackground mv ppm ecc => Sys2Proof.Machine.execBistBackground mv ppm ecc s
  | .bistRepairWrite h p v => Sys2Proof.Machine.execBistRepairWrite h p v s
  | .errqHandle => Sys2Proof.Machine.execErrqHandle s
  | .errqPreempt => Sys2Proof.Machine.execErrqPreempt s
  | .stewardReset lockstep => Sys2Proof.Machine.execStewardReset lockstep s
  | .evtPendClear h p idx v => Sys2Proof.Machine.execEvtPendClear h p idx v s
  | .evtIrqmapWrite h p idx v => Sys2Proof.Machine.execEvtIrqmapWrite h p idx v s
  | .evtS3Ack h p => Sys2Proof.Machine.execEvtS3Ack h p s
  | .reserveRelease h p => Sys2Proof.Machine.execReserveRelease h p s
  | .reserveHold h p => Sys2Proof.Machine.execReserveHold h p s
  | .ccReseed h p => Sys2Proof.Machine.execCcReseed h p s
  | .estCharStart h p => Sys2Proof.Machine.execEstCharStart h p s
  | .estCharAbort h p => Sys2Proof.Machine.execEstCharAbort h p s
  | .charStepDone => Sys2Proof.Machine.execCharStepDone s
  | .charStepTimeout => Sys2Proof.Machine.execCharStepTimeout s
  | .charCurrentTimeout => Sys2Proof.Machine.execCharCurrentTimeout s
  | .winStepEvent idx => Sys2Proof.Machine.execWinStepEvent idx s
  | .winWindowClose c => Sys2Proof.Machine.execWinWindowClose c s
  | .winTailEnd c => Sys2Proof.Machine.execWinTailEnd c s
  | .winClrCell h p => Sys2Proof.Machine.execWinClrCell h p s
  | .winFreeze h p on => Sys2Proof.Machine.execWinFreeze h p on s
  | .channelRunning n => Sys2Proof.Machine.execChannelRunning n s
  | .testEnChange high => Sys2Proof.Machine.execTestEnChange high s
  | .wakeControllerArm btn ns => Sys2Proof.Machine.execWakeControllerArm btn ns s

end Sys2Proof.Machine
end

