-- ==== Sys2Proof/Machine/Tick.lean ====
section
/-! DEFINITION. What a step does while no command waits (Assumption 1): a nanosecond passes. -/

namespace Sys2Proof.Machine

/-- The oldest queued frame of a port that transmits on its own leaves (R498); a controller that is bus-off sends
nothing (R486). -/
def portSend (s : State) (p : Port) : State :=
  if portRuns s p && !(p == .can && s.host.can == .busOff) then txPop p s else s

/-- No clock of the device runs: it is OFF or in SHIP (R547). -/
def noClock (s : State) : Bool := s.pwr.state == .off || s.pwr.state == .ship

/-- PWR_VSUP is refreshed every 1 ms (R565). -/
def vsupTick (s : State) : State :=
  let k := s.time.tns / 1000000
  if k = s.pwr.vsupMs then s
  else
    let m := Config.vsupMeas k
    { s with pwr.vsup := m.1.toNat, pwr.vhold := m.2.toNat, pwr.vsupMs := k }

/-- A nanosecond passes (R385, R435): TNS advances, PWR_VSUP is refreshed, and frames on 10BASE-T1S and CAN FD leave. SPI
frames leave in transactions only (R489). -/
def tick (s : State) : State :=
  if noClock s then s else portSend (portSend (vsupTick (tnsTo (s.time.tns + 1) s)) .t1s) .can

end Sys2Proof.Machine
end

