-- ==== Sys2Proof/Machine/Parts.lean ====
section
/-! DEFINITION. The parts of the state that statements about what a command leaves unchanged speak of. -/

namespace Sys2Proof.Machine

/-- SYS without the levels and the start-up times that follow them (R25, R90). -/
def Sys.held (x : Sys) : Sys :=
  { x with level := 0, tL1 := 0, tL4 := 0 }

/-- HUSK without the two copies and what follows them, the divergences among it. -/
def Husk.held (x : Husk) : Husk :=
  { x with hostOpen := 0, reachedL1 := 0, main := {}, shadow := {}, divs := [] }

/-- DRV without the channels and strings that follow the commands. -/
def Drv.held (x : Drv) : Drv :=
  { x with ch := [], str := [] }

/-- REC without the events raised and not yet admitted and the digest phases in progress. -/
def Recd.held (x : Recd) : Recd :=
  { x with produced := [], phases := 0 }

/-- EST without the characterisation run, which a trip or an opening ends (R310). -/
def Est.held (x : Est) : Est :=
  { x with chr := {} }

/-- PWR without the instant since which auto-sleep would be possible. -/
def Pwr.held (x : Pwr) : Pwr :=
  { x with idleAt := none }

/-- EVT without the pending bits and the error queue. -/
def Evt.held (x : Evt) : Evt :=
  { x with pend := 0, lost := 0, handling := [], overflow := false, ovfOpen := false, queue := [] }

/-- The pins that do not follow the state at once. -/
def Pins.held (x : Pins) : Pins :=
  { x with canStb := true, irq0 := false, irq1 := false, fault := false, brk := 0, spiAtn := false }

/-- A ring without its nodes. -/
def Ring.held (x : Ring) : Ring := { x with nodes := [] }

/-- A node without what an opening string decides about its authentication (R127). -/
def Node.held (x : Node) : Node := { x with auth := .none, failPend := false }

/-- The rings without what an opening string decides: ring `r` and, at position `p` of it, its node. -/
def ringsRest (x : Tab Ring) : Nat → Ring × (Nat → Node) := fun r =>
  ((Tab.get {} x r).held, fun p => (Tab.get {} (Tab.get {} x r).nodes p).held)

/-! ## What a command may change -/

/-- The parts of the state; a `Rest` is a part without what follows other parts as soon as they change. -/
inductive Part where
  | sys | sysRest | img | cfg | ring | ringRest | acq | cur | husk
  | huskRest | drv | drvRest | krn | est | estRest | win | pairs | time | therm
  | nv | ledg | tally | recd | recdRest | host | sec | pwr | pwrRest
  | bist | evt | evtRest | pins | pinsRest | freeIx
  deriving DecidableEq, Repr

/-- A part is the same in two states. -/
def Part.same (s t : State) : Part → Prop
  | .sys => t.sys = s.sys
  | .sysRest => t.sys.held = s.sys.held
  | .img => t.img = s.img
  | .cfg => t.cfg = s.cfg
  | .ring => t.ring = s.ring
  | .ringRest => ringsRest t.ring = ringsRest s.ring
  | .acq => t.acq = s.acq
  | .cur => t.cur = s.cur
  | .husk => t.husk = s.husk
  | .huskRest => t.husk.held = s.husk.held
  | .drv => t.drv = s.drv
  | .drvRest => t.drv.held = s.drv.held
  | .krn => t.krn = s.krn
  | .est => t.est = s.est
  | .estRest => t.est.held = s.est.held
  | .win => t.win = s.win
  | .pairs => t.pairs = s.pairs
  | .time => t.time = s.time
  | .therm => t.therm = s.therm
  | .nv => t.nv = s.nv
  | .ledg => t.ledg = s.ledg
  | .tally => t.tally = s.tally
  | .recd => t.recd = s.recd
  | .recdRest => t.recd.held = s.recd.held
  | .host => t.host = s.host
  | .sec => t.sec = s.sec
  | .pwr => t.pwr = s.pwr
  | .pwrRest => t.pwr.held = s.pwr.held
  | .bist => t.bist = s.bist
  | .evt => t.evt = s.evt
  | .evtRest => t.evt.held = s.evt.held
  | .pins => t.pins = s.pins
  | .pinsRest => t.pins.held = s.pins.held
  | .freeIx => t.freeIx = s.freeIx

/-- The parts that follow the others when a command has had its effect: levels, authentications, switch commands, a
characterisation run, events, pending bits and pins. -/
def followers : List Part := [.sys, .ring, .husk, .drv, .est, .recd, .pwr, .evt, .pins]

/-- The parts that a command may change; it leaves the others as they are. -/
def touched : Instr → List Part
  | .frameBoundary .. =>
    [.sysRest, .ringRest, .cur, .krn, .win, .pairs, .time, .therm, .ledg, .pwrRest, .evtRest] ++ followers
  | .acquisitionCutOff .. =>
    [.sysRest, .ringRest, .acq, .cur, .huskRest, .krn, .estRest, .win, .pairs, .time, .ledg] ++ followers
  | .commitPoint .. =>
    [.sysRest, .krn, .estRest, .win, .pairs, .nv, .tally, .pwrRest] ++ followers
  | .summaryStage .. =>
    [.sysRest, .estRest] ++ followers
  | .sysModeWrite .. =>
    [.sysRest, .ringRest, .host] ++ followers
  | .imgChunk .. | .imgCommit .. | .imgValidationDone .. | .imgSlotWriteDone .. | .imgAbortStage .. | .imgCancel .. =>
    [.img, .host] ++ followers
  | .hotActivation .. =>
    [.sysRest, .img, .cfg, .ringRest, .krn, .estRest, .win, .nv, .recdRest, .host, .evtRest] ++ followers
  | .coldActivationHold .. =>
    [.img, .huskRest, .krn, .win, .pairs, .nv, .ledg, .bist] ++ followers
  | .coldActivationLoadProtection .. =>
    [.img, .cfg, .huskRest, .therm] ++ followers
  | .coldActivationEnumerate .. =>
    [.img, .ring, .ringRest]
  | .coldActivationLoadModels .. =>
    [.sysRest, .img, .cfg, .ringRest, .acq, .cur, .huskRest, .krn, .estRest, .win, .pairs, .nv, .tally, .recdRest,
    .host, .evtRest] ++ followers
  | .coldActivationComplete .. =>
    [.img, .cfg, .huskRest] ++ followers
  | .vsupValid .. | .startupCoreUp .. | .shutdownRecordWritten .. | .brownOut .. | .powerFailWarning ..
  | .overvoltage .. | .railFault .. | .shipPowerDown .. | .shipWake .. | .bistRestored .. =>
    [.sysRest, .img, .cfg, .ringRest, .acq, .cur, .huskRest, .drvRest, .krn, .estRest, .win, .pairs, .time, .therm,
    .nv, .ledg, .tally, .recdRest, .host, .sec, .pwrRest, .bist, .evtRest, .pinsRest] ++ followers
  | .startupPDieUp .. | .railRecovery .. =>
    [.sysRest, .pwrRest] ++ followers
  | .strapLatch .. =>
    [.sysRest, .huskRest, .sec] ++ followers
  | .startupImageSelect .. =>
    [.sysRest, .img, .cfg, .huskRest, .krn, .win, .therm, .nv, .recdRest, .host, .evtRest] ++ followers
  | .startupRings .. =>
    [.sysRest, .acq, .cur, .win, .time, .nv] ++ followers
  | .startupSteward .. =>
    [.sysRest, .cfg, .krn, .win, .nv, .recdRest, .host, .pwrRest, .bist, .evtRest] ++ followers
  | .startupEstimate .. =>
    [.sysRest, .acq, .krn, .estRest, .win, .pairs, .nv, .tally, .bist] ++ followers
  | .startupFull .. =>
    [.sysRest, .krn, .win, .nv, .ledg, .tally, .recdRest, .bist, .evtRest] ++ followers
  | .startupLate .. =>
    [.sysRest] ++ followers
  | .sproutStatusFrame .. =>
    [.host, .pwr, .pins]
  | .ringStart .. | .enumFirstTrig .. | .delayMeasurement .. | .nodeLost .. | .liveInsertConfigure ..
  | .liveInsertUnwrap .. | .balNodeFault .. | .coupIdComplete .. | .coupIdGiveUp .. =>
    [.ringRest] ++ followers
  | .enumTokenA .. | .enumTokenB .. | .linkUp .. | .dieTempTimeout .. | .coupIdStart .. =>
    [.ring, .ringRest]
  | .enumRead .. =>
    [.cfg, .ringRest, .huskRest, .krn, .win, .nv] ++ followers
  | .enumMeasure .. | .collectSend .. | .liveInsertCount .. =>
    [.ring, .ringRest, .recd, .evt]
  | .enumAuthenticate .. | .liveInsertAuthenticate .. =>
    [.ringRest, .huskRest, .krn, .win, .nv, .ledg, .sec, .freeIx] ++ followers
  | .ringEnumRequest .. | .ringMeasRequest .. =>
    [.ringRest, .host] ++ followers
  | .collectSlotReceive .. | .alarmReceive .. =>
    [.ringRest, .huskRest] ++ followers
  | .mgmtExchange .. =>
    [.ringRest, .ledg, .sec] ++ followers
  | .nodeChallenge .. =>
    [.ring, .ringRest, .recd, .sec, .evt, .freeIx]
  | .nodeTagCheck .. =>
    [.ringRest, .huskRest, .nv, .sec, .freeIx] ++ followers
  | .balanceDecision .. =>
    [.acq]
  | .acqCoupId .. | .acqOwNow .. =>
    [.ringRest, .acq, .host] ++ followers
  | .owTestRead .. =>
    [.ringRest, .acq, .huskRest, .nv] ++ followers
  | .sleepPatrol .. | .patrolRecheck .. =>
    [.sysRest, .ringRest, .acq, .krn, .win, .pairs, .time, .nv, .pwrRest, .evtRest] ++ followers
  | .currentSample .. =>
    [.cur, .ledg]
  | .curChCfgWrite .. | .curChFsWrite .. | .curChOfsWrite .. | .curCalNow .. | .cmpTest .. =>
    [.cur, .krn, .win, .nv, .host] ++ followers
  | .calTrigger .. | .calApply .. | .curDisagreeClear .. =>
    [.cur]
  | .calSwitch .. =>
    [.cur, .win, .recd, .evt]
  | .calReturn .. =>
    [.cur, .win]
  | .curCalOverdue .. | .curDisagreeSet .. =>
    [.cur, .recd, .evt]
  | .channelStop .. | .cmpCheckDone .. | .channelRunning .. =>
    [.cur, .win] ++ followers
  | .comparatorCrossing .. =>
    [.cur] ++ followers
  | .tripLatchSet .. =>
    [.huskRest, .nv] ++ followers
  | .huskSlotAssert .. | .huskSlotClear .. | .huskTimerExpiry .. | .sequencerStart .. | .sequencerWaitMet ..
  | .sequencerTimeout .. | .sequencerAbort .. | .economyEntry .. | .driveFault .. | .openCoilFault ..
  | .weldCheckStart .. | .weldCheckEvaluate .. | .errqHandle .. | .charStepTimeout .. | .charCurrentTimeout .. =>
    followers
  | .huskDivergence .. =>
    [.husk, .huskRest]
  | .huskDivergeRecord .. | .huskCrcCheck .. =>
    [.huskRest, .nv, .recdRest] ++ followers
  | .netlistLoad .. =>
    [.ringRest, .cur, .huskRest] ++ followers
  | .graceExpiry .. =>
    [.huskRest] ++ followers
  | .huskCloseReq .. | .huskOpen .. | .huskTripClr .. =>
    [.cur, .huskRest, .host, .evtRest] ++ followers
  | .keyRearm .. =>
    [.sysRest, .cur, .huskRest, .drvRest, .nv, .evtRest] ++ followers
  | .fastOpenTimeout .. =>
    [.huskRest, .nv, .evtRest] ++ followers
  | .drvWeldCheck .. | .timeTnsLatch .. | .ledgBlockLatch .. | .recSeqLatch .. | .read .. | .unknownOp ..
  | .streamSnapshot .. | .join .. | .keepAlive .. | .spiTransaction .. | .canBusOff .. | .hostBudgetWrite .. =>
    [.host] ++ followers
  | .hvilFault .. | .hvilFaultClear .. =>
    [.drvRest] ++ followers
  | .keyQualify .. | .inputChatter .. =>
    [.sysRest, .ringRest, .drvRest, .krn, .estRest, .win, .pairs, .pwrRest] ++ followers
  | .chgDetQualify .. =>
    [.sysRest, .ringRest, .krn, .win, .pairs, .pwrRest] ++ followers
  | .kernelStepStart .. | .lds .. | .sts .. | .out .. | .tbl2 .. =>
    [.krn, .pairs, .freeIx] ++ followers
  | .endStep .. =>
    [.krn, .estRest, .pairs, .freeIx] ++ followers
  | .fadd .. | .fsub .. | .fmul .. | .fma .. | .fdiv .. | .fsqrt .. | .fexp .. | .fmin .. | .fmax .. | .fabs ..
  | .clamp .. | .cmp .. | .sel .. | .movi .. | .cvt .. | .ldi .. | .skip .. | .dbgSessionTimeout .. =>
    [.krn, .pairs, .recd, .evt]
  | .handOver .. =>
    [.sysRest, .krn, .pairs] ++ followers
  | .pairRelease .. =>
    [.pairs, .host] ++ followers
  | .dbgSessionOpen .. | .dbgSessionClose .. | .dbgHalt .. | .dbgResume .. | .dbgStep .. | .dbgRegisterWrite .. =>
    [.ringRest, .krn, .estRest, .pairs, .host, .freeIx] ++ followers
  | .dbgBreakpoint .. =>
    [.krn, .pairs]
  | .xtalLost .. | .xtalRelock .. =>
    [.time] ++ followers
  | .trefFault .. =>
    [.sysRest, .acq, .cur, .krn, .win, .time, .tally] ++ followers
  | .tnsSaveWrite .. | .lastGaspDone .. =>
    [.nv]
  | .sync .. =>
    [.time, .host, .freeIx] ++ followers
  | .syncHoldover .. =>
    [.time]
  | .timeResyncRequest .. | .syncEnWrite .. | .timeWallSet .. =>
    [.time, .host] ++ followers
  | .thermalMeasurement .. =>
    [.cur, .time, .therm] ++ followers
  | .thermalWarning .. | .thermalThrottle .. | .thermalThrottleEnd .. =>
    [.therm] ++ followers
  | .thermalWarningEnd .. | .failHoldExpiry .. =>
    [.therm]
  | .thermalShutdown .. =>
    [.huskRest, .therm, .nv, .recdRest, .pwrRest, .evtRest] ++ followers
  | .shutdownBurstDone .. =>
    [.img, .win, .therm, .nv, .ledg]
  | .thermalRestart .. =>
    [.sysRest, .therm, .pwrRest] ++ followers
  | .thermHoldClr .. | .challengeAttest .. | .challengeKeyLoad .. =>
    [.nv, .host] ++ followers
  | .nvBurstDone .. | .cellRecWrite .. | .ztabWrite .. | .tallyWrite .. =>
    [.krn, .win, .nv] ++ followers
  | .nvWriteDone .. =>
    [.krn, .win, .nv, .ledg, .recdRest] ++ followers
  | .ledgerCheckpoint .. =>
    [.krn, .win, .nv, .ledg] ++ followers
  | .podCheckpoint .. =>
    [.ringRest, .krn, .win, .nv, .ledg] ++ followers
  | .podCheckpointConfirmed .. =>
    [.cur, .ledg, .sec] ++ followers
  | .ledgStmt .. | .ledgNonceWrite .. | .ledgEraAdv .. | .nvFlush .. =>
    [.krn, .win, .nv, .ledg, .host] ++ followers
  | .statementReady .. =>
    [.ledg]
  | .rainflowFlush .. | .dwellFlush .. =>
    [.nv, .tally]
  | .eventAdmit .. =>
    [.krn, .win, .nv, .recdRest] ++ followers
  | .admissionTimeout .. =>
    [.recd, .recdRest]
  | .recordComplete .. | .streamOpen .. | .streamClose .. | .streamPartSend .. =>
    [.recdRest, .host] ++ followers
  | .chaffSummary .. | .granaryProgramDone .. | .granaryEraseDone .. | .granaryTimeout .. | .granaryRestart .. =>
    [.recdRest] ++ followers
  | .recChaffClr .. | .recFlush .. | .recFormat .. | .recPinAck .. | .assign .. =>
    [.krn, .win, .nv, .recdRest, .host] ++ followers
  | .write .. | .writeP .. | .pwrStandby .. | .pwrRun .. | .pwrSleep .. | .pwrWakeOutClr .. | .pwrShip ..
  | .pwrReset .. | .pwrCfgWrite .. =>
    [.sysRest, .img, .cfg, .ringRest, .acq, .cur, .huskRest, .drvRest, .krn, .estRest, .win, .pairs, .time, .therm,
    .nv, .ledg, .tally, .recdRest, .host, .sec, .pwrRest, .bist, .evtRest, .pinsRest, .freeIx] ++ followers
  | .joinRetry .. =>
    [.host, .freeIx]
  | .spiEarlyEnd .. | .segmentTimeout .. =>
    [.host]
  | .presBtnPress .. =>
    [.sec, .pins, .pinsRest]
  | .presBtnRelease .. =>
    [.recd, .sec, .pwr, .evt, .pins, .pinsRest]
  | .presStuck .. | .presenceExpiry .. =>
    [.sec] ++ followers
  | .presStuckClear .. =>
    [.sec]
  | .presClose .. | .secAdopt .. =>
    [.krn, .win, .nv, .ledg, .host, .sec] ++ followers
  | .sealBreak .. | .sealRestored .. =>
    [.nv, .sec] ++ followers
  | .pfwArm .. | .vcoreReturn .. | .wakeOutTimeout .. | .wakeControllerArm .. =>
    [.pwr, .pwrRest]
  | .vcoreRetry .. =>
    [.sys, .sysRest, .pwr, .pwrRest]
  | .autoSleep .. =>
    [.acq, .pwrRest, .bist] ++ followers
  | .sleepStopAcquisition .. =>
    [.sysRest, .ringRest, .krn, .win, .pairs, .nv, .ledg, .pwrRest] ++ followers
  | .sleepSaveDone .. =>
    [.recdRest, .pwrRest] ++ followers
  | .sleepFlushDone .. =>
    [.sysRest, .img, .acq, .cur, .krn, .estRest, .win, .nv, .tally, .recdRest, .host, .pwrRest, .bist] ++ followers
  | .sleepWake .. =>
    [.pwrRest] ++ followers
  | .wakeRailsReady .. =>
    [.sysRest, .ringRest, .pwrRest, .bist] ++ followers
  | .wakeRingsReady .. =>
    [.sysRest, .ringRest, .acq, .cur, .huskRest, .win, .nv, .sec, .pwrRest, .freeIx] ++ followers
  | .wakeModelsLoaded .. =>
    [.sysRest, .acq, .krn, .estRest, .win, .pairs, .nv, .tally, .pwrRest, .bist] ++ followers
  | .wakeFullService .. =>
    [.sysRest, .krn, .win, .nv, .ledg, .tally, .pwrRest] ++ followers
  | .shipStringsOpen .. =>
    [.krn, .win, .nv, .ledg, .pwrRest] ++ followers
  | .shipSaved .. =>
    [.sysRest, .ringRest, .krn, .win, .pairs, .recdRest, .pwrRest] ++ followers
  | .bistStart .. | .bistAbort .. | .bistRepairWrite .. =>
    [.krn, .pairs, .recdRest, .host, .pwrRest, .bist, .freeIx] ++ followers
  | .bistConditionLost .. =>
    [.bist]
  | .bistRegionDone .. =>
    [.krn, .pairs, .pwrRest, .bist, .freeIx] ++ followers
  | .bistBackground .. =>
    [.krn, .pairs, .recdRest, .pwrRest, .bist, .freeIx] ++ followers
  | .errqPreempt .. =>
    [.evt]
  | .stewardReset .. =>
    [.sysRest, .img, .krn, .win, .nv, .ledg, .recdRest, .evtRest] ++ followers
  | .evtPendClear .. | .evtIrqmapWrite .. | .evtS3Ack .. =>
    [.host, .evtRest] ++ followers
  | .reserveRelease .. | .reserveHold .. | .ccReseed .. | .estCharStart .. | .estCharAbort .. =>
    [.estRest, .recdRest, .host] ++ followers
  | .charStepDone .. =>
    [.krn, .estRest, .win, .nv, .ledg] ++ followers
  | .winStepEvent .. | .winWindowClose .. | .winTailEnd .. =>
    [.win]
  | .winClrCell .. | .winFreeze .. =>
    [.win, .host] ++ followers
  | .testEnChange .. =>
    [.pinsRest] ++ followers

end Sys2Proof.Machine
end

