-- ==== Sys2Proof/Safety.lean ====
section
/-! DEFINITION. What a safe run is, and the terms that statements use: a command that completes, a request that the
device takes, an instruction that a lane executes. -/

namespace Sys2Proof.Machine

/-- Every command that waits has operands that the device can have. -/
def queueWf (s : State) : Bool := s.pending.all Instr.wf

/-- The step goes on: it neither faults nor refuses. -/
def goesOn (s : State) : Prop := ∃ t, step s = .next t

/-- The command `c` completes at `s`, in a state that has the property `P`. -/
def completes (c : Instr) (s : State) (P : State → Prop) : Prop := ∃ t, exec c s = .next t ∧ P t

/-- The command `c` completes at `s`, in the state that `u` settles to. -/
def settlesTo (c : Instr) (s u : State) : Prop := exec c s = .next (settle u)

/-- The command `c` completes at `s`, in what a state with the property `P` settles to. -/
def makes (c : Instr) (s : State) (P : State → Prop) : Prop := ∃ u, settlesTo c s u ∧ P u

/-- The staged image is in its canonical form and lies within the 2 MiB of IMGSTAGE (R52): bytes below the highest offset
staged, none listed that reads as an unstaged one. -/
abbrev stagingWf (s : State) : Prop :=
  Tab.wf 0 s.img.stage = true ∧ (∀ e ∈ s.img.stage, e.1 < s.img.stageLen) ∧ s.img.stageLen ≤ 2097152

/-- What each control register holds after reset (R632), SYS_REV, SEC_MID and SEC_TAMPER apart. -/
def resetWord (a : Nat) : Word :=
  let o := a % 4096
  if a = 0x00000 then 0x00000600
  else if a = 0x00048 then 0x00100000
  else if a = 0x02000 then 0x08000000
  else if a = 0x03000 then 0x00000771
  else if a = 0x03004 then 0x00000002
  else if a = 0x0302C then 0x233C0020
  else if a = 0x0400C then 0x32C82EE0
  else if a = 0x04010 then 0x2CEC38A4
  else if a = 0x06000 ∨ a = 0x07000 then 0x00000008
  else if (a / 4096 = 6 ∨ a / 4096 = 7) ∧ 0x100 ≤ o ∧ o < 0x480 ∧ o % 16 = 8 then 0xFFFFFFFF
  else if (a / 4096 = 6 ∨ a / 4096 = 7) ∧ 0x100 ≤ o ∧ o < 0x480 ∧ o % 16 = 12 then 0x0000000F
  else if a / 4096 = 9 ∧ 0x040 ≤ o ∧ o < 0x0C0 ∧ o % 16 = 0 then 0x00000001
  else if a / 4096 = 9 ∧ 0x040 ≤ o ∧ o < 0x0C0 ∧ o % 16 = 4 then 0x0007A120
  else if a / 4096 = 9 ∧ 0x040 ≤ o ∧ o < 0x0C0 ∧ o % 16 = 12 then 0x03FF0000
  else if a = 0x0B000 then 0xFFFF0000
  else if a = 0x0D000 then 0xFFFFFFFF
  else if a = 0x0E008 then 0x01F00000
  else if a / 4096 = 14 ∧ 0x100 ≤ o ∧ o < 0x200 ∧ o % 64 = 0 then 0xC0000000
  else if a = 0x10000 then 0x0000FFFF
  else if a = 0x10008 then 0x00000001
  else if a = 0x11000 then 0x00000100
  else if a = 0x12000 then 0x44000000
  else if a = 0x12018 then 0x00000FA0
  else if a = 0x12024 then 0x00000040
  else if a = 0x13004 then 0x0000003F
  else if a = 0x13008 then 0x007B001E
  else if a = 0x15008 then 0x00010000
  else if a = 0x16018 then 0x00010000
  else 0

/-! ## Requests (R491 to R494) -/

/-- The state in which a whole request is looked at: its frame is noted, and no segment of it is outstanding. -/
def reqSeen (op : Nat) (h : ReqHdr) (s : State) : State := dropPart op h (noteFrame h s)

/-- A whole frame of opcode `op` that the device takes as new: it repeats no request still executing or answered within
2 s, and fewer than 16 requests of its port wait. -/
def freshFrame (op : Nat) (h : ReqHdr) (s : State) : Bool :=
  h.seg == 0 && !h.more && !executing op h.port h.tag (reqSeen op h s) &&
    (keptAnswer op h.port h.tag (reqSeen op h s)).isNone && decide (unanswered h.port (reqSeen op h s) < 16)

/-- A request of opcode `op` that the device takes as new: it reaches and addresses the device besides. -/
def freshReq (op : Nat) (h : ReqHdr) (s : State) : Bool := addressed h s && freshFrame op h s

/-- The state in which a new request takes effect: the address of its sender is held (R493), and HOST_REQ_CNT counts it
(R512). -/
def reqStart (op : Nat) (h : ReqHdr) (s : State) : State :=
  let u := noteAsk op h (reqSeen op h s)
  { u with host.done := sat 16 (u.host.done + 1) }

/-- The opcode of a register write. -/
def wrOp (p : Bool) : Nat := if p then 3 else 2

/-- A register write that the device takes as new; a WRITE_P meets an open presence window. -/
abbrev freshWr (h : ReqHdr) (p : Bool) (s : State) : Prop := freshReq (wrOp p) h s = true ∧ (p = true → presOpen s = true)

/-- A register write of one word as its checks and its effect see it. -/
def wrReq (h : ReqHdr) (p : Bool) (m : WrMeas) : Req := { op := wrOp p, port := h.port, tag := h.tag, m := m }

/-- The state in which a new register write takes effect. -/
def wrStart (h : ReqHdr) (p : Bool) (s : State) : State := reqStart (wrOp p) h s

/-- The command `c`, a register write with header `h`, is answered, and what it writes makes `u`, which settles. -/
def writes (h : ReqHdr) (p : Bool) (c : Instr) (s u : State) : Prop :=
  ∃ r, exec c s = .next (settle (answer (wrOp p) h.port h.tag r u))

/-- The command `c`, a register write with header `h`, is answered, and what it writes has the property `P` and settles. -/
def writesTo (h : ReqHdr) (p : Bool) (c : Instr) (s : State) (P : State → Prop) : Prop :=
  ∃ u, writes h p c s u ∧ P u

/-- The command `c`, a request of opcode `op` with header `h`, is answered with `r` from the state `u`, which settles. -/
def answers (op : Nat) (h : ReqHdr) (c : Instr) (s : State) (r : Reply) (u : State) : Prop :=
  exec c s = .next (settle (answer op h.port h.tag r u))

/-! ## Lanes (R252, R259) -/

/-- Lane `l` executes the instruction of word `w` next: it is the next word of its program, nothing holds the lane, no
SKIP is in force, no replay entry can come before it and no debugger waits for the checker. -/
abbrev laneRuns (s : State) (l : Nat) (w : Word) : Prop :=
  (laneCell s l w).isSome = true ∧ (laneOf s l).skip = 0 ∧ (l % 2 = 1 → shadowPair s (l / 2) = false) ∧
    s.pairs.dbg.state ≠ .halted

/-- Lane `l` is past its instruction and changed by `f`. -/
def laneTakes (s : State) (l : Nat) (f : Lane → Lane) : State :=
  setLane l (f { laneOf s l with pc := (laneOf s l).pc + 1 }) s

end Sys2Proof.Machine
end

