-- ==== Sys2Proof/Certificates/Slice0/Obligations.lean ====
section
/-! DEFINITION. The statements about the model that the provers take: what each command does, when it completes, and what
it leaves unchanged. -/

open Sys2Proof Sys2Proof.Machine

/-- A step runs the command at the front of the queue on the state with the queue's rest. With no command waiting it
leaves a device without a clock as it is, and otherwise a nanosecond of TNS passes (R385, R547). The queue and the
tick of 1 ns are the model's choice (Assumption 1). -/
def Obligations.StepRunsFront : Prop :=
  (∀ c rest s, s.pending = c :: rest → step s = exec c { s with pending := rest }) ∧
  (∀ c s, step { s with pending := c :: s.pending } = exec c s) ∧
  (∀ s, s.pending = [] → noClock s = true → step s = .next s) ∧
  (∀ s, s.pending = [] → noClock s = false → ∃ t, step s = .next t ∧ t.time.tns = s.time.tns + 1 ∧ t.pending = [])

/-- Every control register reads 0 after reset, but for those of the table of R632, which read what it gives: SYS_REV
as built, the MID from OTP and the stored tamper count among them. -/
def Obligations.ResetValues : Prop :=
  (∀ p a, a < 0x17000 → a % 4 = 0 → a ≠ 0x0004 → a ≠ 0x14010 → a ≠ 0x14014 → a ≠ 0x14018 →
    readWord p a State.reset = resetWord a) ∧
  (∀ p s, readWord p 0x0004 s = Config.sysRev ∧ readWord p 0x14010 s = w32 (half 0 s.sec.mid.toNat) ∧
    readWord p 0x14014 s = w32 (half 1 s.sec.mid.toNat) ∧ readWord p 0x14018 s = w32 s.nv.keys.tamper)

/-- After reset IMGSTAGE is in its canonical form with nothing staged (R52) and reads 0 everywhere, and no command
waits. The 0 that an unstaged byte reads as and the empty queue are the model's choice (Assumptions 1 and 15). -/
def Obligations.ResetStaging : Prop :=
  stagingWf State.reset ∧ (∀ a, Tab.get 0 State.reset.img.stage a = 0) ∧ State.reset.pending = []

/-- Every step keeps IMGSTAGE in its canonical form and within its 2 MiB (R52), and changes neither the MID nor the
device key, which are in OTP (R525). The form of IMGSTAGE is the model's (Assumption 15). -/
def Obligations.StepsKeep : Prop :=
  ∀ s t, stagingWf s → step s = .next t →
    stagingWf t ∧ t.sec.mid = s.sec.mid ∧ t.sec.devKey = s.sec.devKey

/-- Every command completes, leaves the queue, and leaves as it was every part of the state that is not listed for it;
the parts together cover every field of the state. No command faults or refuses. -/
def Obligations.CommandFrame : Prop :=
  ∀ c s, ∃ t, exec c s = .next t ∧ t.pending = s.pending ∧ ∀ p, p ∉ touched c → Part.same s t p

/-- SYS_MODE takes the value written and holds it for the boundaries to come (R29, R30). ABORT_STAGE empties IMGSTAGE
(R52) and CANCEL gives up the waiting image (R57). RESYNC is noted, SYNC_EN is stored, and clearing it frees the servo
(R390, R403); TIME_WALL_SET_HI sets the wall clock (R395); HOLD_CLR ends the thermal hold (R415). RINGn_CTRL.ENUM is
taken while the ring's strings stand open and only then (R115); MEAS starts a measurement of every node (R131);
COUP_ID asks for coupling identification of every cell node in Compensated mode (R147, R161) and OW_NOW for an
open-wire test of every cell node (R161). The requests are one-word writes (Assumption 16). -/
def Obligations.WritesSystem : Prop :=
  (∀ h p v s, freshWr h p s → modeReserved v = false →
    completes (.sysModeWrite h p v) s fun t =>
      t.sys.mode = v &&& 0x0FF3FFFF ∧ t.sys.modeLater = some (v &&& 0x0FF3FFFF)) ∧
  (∀ h p s, freshWr h p s → commitBusy s = false →
    completes (.imgAbortStage h p) s fun t => t.img.stage = [] ∧ t.img.stageLen = 0) ∧
  (∀ h p s, freshWr h p s → s.img.pending ≠ .none → s.img.state ≠ .activating → s.img.coldStep = 0 →
    completes (.imgCancel h p) s fun t => t.img.pending = .none ∧ t.img.hotAt = none ∧ t.img.waiting = .sprout) ∧
  (∀ h p s, freshWr h p s →
    completes (.timeResyncRequest h p) s fun t =>
      t.time.resync = true ∧ t.time.syncEn = s.time.syncEn ∧ t.time.tns = s.time.tns) ∧
  (∀ h p on s, freshWr h p s →
    completes (.syncEnWrite h p on) s fun t =>
      t.time.syncEn = on ∧ (on = false → t.time.servo = .free ∧ t.time.rate = 0) ∧ (on = true → t.time.rate = s.time.rate)) ∧
  (∀ h p hi s, freshWr h p s →
    completes (.timeWallSet h p hi) s fun t =>
      t.time = { s.time with
        wallOfs := some (Int.ofNat (hi.toNat * 4294967296 + s.time.wallSetLo.toNat) - Int.ofNat s.time.tns) }) ∧
  (∀ h s, freshWr h true s → s.nv.tb.hold = true →
    completes (.thermHoldClr h true) s fun t => t.nv.tb.hold = false) ∧
  (∀ h p r s, freshWr h p s → (ringOf s r.val).state ≠ .off → (ringOf s r.val).state ≠ .sleeping →
    (∀ n ∈ s.cfg.topo.nodes, n.ring = r.val → standsOpen s n.string = true) →
    completes (.ringEnumRequest h p r) s fun t =>
      (ringOf t r.val).enumReq = true ∧ (ringOf t r.val).inService = false) ∧
  (∀ h p r s, freshWr h p s → (ringOf s r.val).state ≠ .off → (ringOf s r.val).state ≠ .sleeping →
    (∃ n ∈ s.cfg.topo.nodes, n.ring = r.val ∧ standsOpen s n.string = false) →
    completes (.ringEnumRequest h p r) s fun t =>
      (ringOf t r.val).enumReq = (ringOf s r.val).enumReq ∧ (ringOf t r.val).inService = (ringOf s r.val).inService) ∧
  (∀ h p r s, freshWr h p s → (ringOf s r.val).state ≠ .off → (ringOf s r.val).state ≠ .sleeping →
    completes (.ringMeasRequest h p r) s fun t =>
      (ringOf t r.val).measLeft = (ringOf s r.val).nodes.length ∧ (ringOf t r.val).measPos = 0) ∧
  (∀ h p s, freshWr h p s → s.sys.run.acq = true → compMode s = true →
    completes (.acqCoupId h p) s fun t =>
      t.acq = s.acq ∧ ∀ rp ∈ cellNodes s, (nodeOf t rp.1 rp.2).coup.want = true) ∧
  (∀ h p s, freshWr h p s → s.sys.run.acq = true →
    completes (.acqOwNow h p) s fun t =>
      t.acq = s.acq ∧ ∀ rp ∈ cellNodes s, (nodeOf t rp.1 rp.2).ow.want = true)

/-- FRM advances at a boundary and the frame opens. At the cut-off the frame closes and its commit is due. At the
commit point FRM_COMMIT is the cut-off frame and its summary is due. The summary stage makes FRM_SUM the committed
frame (R14, R278). When each falls is the sender's (Assumption 2). -/
def Obligations.FrameCompletes : Prop :=
  (∀ s, s.sys.run.acq = true → s.sys.frameOpen = false → (s.sys.commitDue = false ∨ acqMode s = 1) →
    s.pwr.state ≠ .standby →
    completes .frameBoundary s fun t => t.time.frm = s.time.frm + 1 ∧ t.sys.frameOpen = true) ∧
  (∀ aux s, s.sys.run.acq = true → s.sys.frameOpen = true → s.sys.commitDue = false →
    completes (.acquisitionCutOff aux) s fun t =>
      t.sys.frameOpen = false ∧ t.sys.commitDue = true ∧ t.sys.frmCut = s.time.frm ∧ t.time.frm = s.time.frm) ∧
  (∀ ns s, s.sys.commitDue = true →
    completes (.commitPoint ns) s fun t =>
      t.sys.frmCommit = s.sys.frmCut ∧ t.sys.commitAt = some s.time.tns ∧ t.sys.sumDue = true ∧ t.sys.commitDue = false) ∧
  (∀ s, sumNow s = true →
    completes .summaryStage s fun t =>
      t.sys.frmSum = s.sys.frmCommit ∧ t.sys.sumDue = false)

/-- A converter sample at the sampling instant gives I_S from its code, in Precise mode from the mean of the 16 of its
window, which is I_MEAN as well; a saturated code is noted (R170, R171, R178). A channel that is switched away or
settles measures nothing. A channel that is due waits for calibration; at a frame boundary it is switched away when
its partner may carry the string or the string stands open; it is calibrated at that instant, and then returns to its
input (R174). A channel not calibrated for 3,600 s is overdue (R174). Codes are operands (Assumption 2). -/
def Obligations.CurrentCalibrates : Prop :=
  (∀ n x old ns s, n < 8 → armed s n = true → s.sys.run.acq = true → (curCh s n).run = true →
    (curCh s n).cal ≠ .switched → (curCh s n).cal ≠ .settling → acqMode s ≠ 2 → -8388608 ≤ x → x ≤ 8388607 →
    completes (.currentSample n x true old ns) s fun t =>
      (curCh t n).iS = some (codeToMa (curCh s n) x 1) ∧ (curCh t n).raw = x ∧
      (curCh t n).win = ((x, ns) :: (curCh s n).win).take 32 ∧ (curCh t n).sat = ((curCh s n).sat || codeSat x)) ∧
  (∀ n x old ns s, n < 8 → armed s n = true → s.sys.run.acq = true → (curCh s n).run = true →
    (curCh s n).cal ≠ .switched → (curCh s n).cal ≠ .settling → acqMode s = 2 → -8388608 ≤ x → x ≤ 8388607 →
    (curCh s n).win.length ≥ 15 →
    completes (.currentSample n x true old ns) s fun t =>
      (curCh t n).iS = some (codeToMa (curCh s n) (x + sumI (((curCh s n).win.take 15).map (·.1))) 16) ∧
      (curCh t n).iMean = (curCh t n).iS) ∧
  (∀ n x b old ns s, ((curCh s n).cal = .switched ∨ (curCh s n).cal = .settling) →
    exec (.currentSample n x b old ns) s = .next s) ∧
  (∀ n s, n < 8 → configured s (chString n) = true → (curCh s n).cal = .none →
    (s.time.tns ≥ (curCh s n).calAt + 600000000000 ∨ n ∈ s.cur.calQueue) →
    exec (.calTrigger n) s = .next (modCh s n fun c => { c with cal := .waiting })) ∧
  (∀ n s, n < 8 → atBoundary s = true → (curCh s n).cal = .waiting → calTurn s n = true →
    (curCh s (otherCh n)).cal ≠ .switched → (curCh s (otherCh n)).cal ≠ .settling →
    ((curCh s (otherCh n)).run = true ∧ (curStr s (chString n)).disagree = false ∨ standsOpen s (chString n) = true) →
    completes (.calSwitch n) s fun t => (curCh t n).cal = .switched ∧ (curCh t n).win = [] ∧
      (n % 2 = 0 → configured s (chString n) = true → selected t (chString n) = otherCh n)) ∧
  (∀ n s, (curCh s n).cal = .switched →
    exec (.calApply n) s =
      .next (modCh s n fun c => { c with cal := .settling, calAt := s.time.tns, calOver := false })) ∧
  (∀ n s, (curCh s n).cal = .settling →
    completes (.calReturn n) s fun t => (curCh t n).cal = .none ∧ n ∉ t.cur.calQueue) ∧
  (∀ n s, n < 8 → armed s n = true → (curCh s n).calOver = false → s.time.tns ≥ (curCh s n).calAt + 3600000000000 →
    completes (.curCalOverdue n) s fun t => (curCh t n).calOver = true)

/-- A channel stops on an input or converter fault (R175), and when three samples in a row lay beyond a comparator
that has not latched (R178), and measures nothing; it runs again when its input or converter is back and its
comparators passed their check (R175). 100 frames of disagreement set DISAGREE and 100 of agreement clear it (R177). A
comparator that asserts latches on an armed channel that is not under test and on no other (R181). A comparator check
ends with the channel's comparators in service, or with the channel stopped (R182). -/
def Obligations.CurrentFaults : Prop :=
  (∀ n sub mv s, n < 8 → armed s n = true → (curCh s n).fault = .none → (mv < -100 ∨ mv > 5100) →
    completes (.channelStop n .input sub mv) s fun t =>
      (curCh t n).fault = .input ∧ (curCh t n).run = false ∧ (curCh t n).iS = none ∧ (curCh t n).iMean = none) ∧
  (∀ n sub mv s, n < 8 → armed s n = true → (curCh s n).fault = .none →
    completes (.channelStop n .conv sub mv) s fun t =>
      (curCh t n).fault = .conv ∧ (curCh t n).run = false ∧ (curCh t n).iS = none ∧ (curCh t n).iMean = none) ∧
  (∀ n sub mv s, n < 8 → armed s n = true →
    (if sub = 0 then (curCh s n).beyondHi else (curCh s n).beyondLo) ≥ 3 →
    completes (.channelStop n .cmp sub mv) s fun t =>
      (curCh t n).cmpOk = false ∧ (curCh t n).run = false ∧ (curCh t n).fault = (curCh s n).fault) ∧
  (∀ n s, n < 8 → (curCh s n).fault ≠ .none → vanaOk s = true →
    completes (.channelRunning n) s fun t =>
      (curCh t n).fault = .none ∧ (curCh t n).run = (s.sys.run.acq && armed s n && (curCh s n).cmpOk)) ∧
  (∀ i s, i < 4 → (curStr s i).disCnt ≥ 100 → (curStr s i).disagree = false →
    completes (.curDisagreeSet i) s fun t => curStr t i = { curStr s i with disagree := true }) ∧
  (∀ i s, i < 4 → (curStr s i).agrCnt ≥ 100 → (curStr s i).disagree = true →
    exec (.curDisagreeClear i) s = .next (modCurStr s i fun x => { x with disagree := false })) ∧
  (∀ n up s, n < 8 →
    completes (.comparatorCrossing n false up) s fun t => curCh t n = { curCh s n with
      rawHi := up, latHi := (curCh s n).latHi || (up && armed s n && !(curCh s n).test) }) ∧
  (∀ n up s, n < 8 →
    completes (.comparatorCrossing n true up) s fun t => curCh t n = { curCh s n with
      rawLo := up, latLo := (curCh s n).latLo || (up && armed s n && !(curCh s n).test) }) ∧
  (∀ n s, n < 8 → (curCh s n).test = true →
    completes (.cmpCheckDone n true true) s fun t =>
      (curCh t n).test = false ∧ (curCh t n).cmpOk = true ∧ (curCh t n).fault = (curCh s n).fault) ∧
  (∀ n hiOk loOk s, n < 8 → (curCh s n).test = true → (hiOk && loOk) = false →
    completes (.cmpCheckDone n hiOk loOk) s fun t =>
      (curCh t n).test = false ∧ (curCh t n).cmpOk = false ∧ (curCh t n).run = false)

/-- A trip binding that holds sets its latch in each copy where it holds, unless a latch that governs the string is
set (R206, R210, R212). A clear request clears every latch of a string whose channels are off with no binding and no
comparator active, and changes nothing while a channel is on (R214). KEY inactive for 1 s and then active makes one
for every string (R214), and a grace time that runs out opens its string in order (R211). -/
def Obligations.HuskLatches : Prop :=
  (∀ m cat i src c s, i < 4 → cat < 3 → configured s i = true → s.husk.nlSrc ≠ .none → c ∈ tripCopies s (copyList m) cat i src →
    (latched s cat i = true ∨ tripGoverned s cat i = false) →
    makes (.tripLatchSet m cat i src) s fun u => latchOf (copyOf u c) cat i = true) ∧
  (∀ req i s, i < 4 → (∀ j, j < 3 → chCmd s i j = false) → cmpRawActive s i = false →
    (anyLatch s i = true ∨ cmpLatched s i = true) → tripBound (settleNet (clearDrv i s)) i = false →
    anyLatch (clearRequest req i s) i = false ∧ cmpLatched (clearRequest req i s) i = false ∧
    drvLatched (clearRequest req i s) i = false ∧ causeOf (clearRequest req i s) i = {}) ∧
  (∀ req i j s, j < 3 → chCmd s i j = true →
    (clearRequest req i s).husk = s.husk ∧ (clearRequest req i s).cur = s.cur ∧ (clearRequest req i s).drv = s.drv) ∧
  (∀ t s, s.drv.keyOffAt = some t → s.drv.key = true → s.time.tns ≥ t + 1000000000 →
    settlesTo .keyRearm s ((List.range 4).foldl (fun s i => clearRequest 2 i s)
      (lgRequest 0x0389 [] (emit 0x0389 [] { s with sys.keyRearm := false, drv.keyOffAt := none })))) ∧
  (∀ i t s, Tab.get none s.husk.grace i = some t → s.time.tns ≥ t →
    settlesTo (.graceExpiry i) s (orderlyOpen [false, true] i (stopGrace i s)))

/-- CLOSE_REQ drives the host close requests. OPEN starts the orderly-open sequencer of each configured string named,
unless it stands open or opens already, with its first channel's command removed, and clears its close request.
TRIP_CLR makes a clear request for each configured string named (R214, R221). WELD_CHECK starts a weld check of each
string named that stands open (R234, R245). -/
def Obligations.WritesHusk : Prop :=
  (∀ h p m s, freshWr h p s → s.pwr.state ≠ .shipEntry →
    completes (.huskCloseReq h p m) s fun t => t.husk.closeReq = m) ∧
  (∀ h p m s, freshWr h p s → s.sys.run.husk = true →
    writes h p (.huskOpen h p m) s
      (((List.range 4).filter fun i => m.getLsbD i).foldl (fun s i => hostOpen i s) (wrStart h p s))) ∧
  (∀ h p m s, freshWr h p s → s.sys.run.husk = true →
    writes h p (.huskTripClr h p m) s
      (((List.range 4).filter fun i => m.getLsbD i).foldl (fun s i => clearRequest 1 i s) (wrStart h p s))) ∧
  (∀ i s, i < 4 → (hostOpen i s).husk.closeReq.getLsbD i = false) ∧
  (∀ i c s, i < 4 → (seqOf (copyOf s c) (4 * i + 1)).busy = false → (seqOf (copyOf s c) (4 * i + 2)).busy = false →
      copyOpen (copyOf s c) i = false → abortBound s (4 * i + 1) = false →
      seqOf (copyOf (hostOpen i s) c) (4 * i + 1) = { seqOf (copyOf s c) (4 * i + 1) with
        busy := true, fault := false, step := 0, since := s.time.tns, cut := false } ∧
      actOf (copyOf (hostOpen i s) c) i = actOf (copyOf s c) i &&& 3) ∧
  (∀ h p m s, freshWr h p s → s.sys.run.husk = true → s.sys.run.drivers = true →
    writes h p (.drvWeldCheck h p m) s
      (((strings s).filter fun i => m.getLsbD i && standsOpen s i).foldl (fun s i => startWeld i s) (wrStart h p s))) ∧
  (∀ i c s, (seqOf (copyOf s c) (4 * i + 3)).busy = false →
    seqOf (copyOf (startWeld i s) c) (4 * i + 3) =
      { busy := true, fault := false, step := 0, since := s.time.tns, act := 0, cut := false })

/-- In each copy a comparator slot asserts or clears when its count has reached QUAL (R199), and a timer's output is
set by its mode and input when its duration is over (R200). -/
def Obligations.HuskSlots : Prop :=
  (∀ m k e c s, (copyOf s c).net.slots[k]? = some e → c ∈ copyList m →
    (Tab.get {} (copyOf s c).slots k).out = false → (Tab.get {} (copyOf s c).slots k).cout ≥ e.qual →
    makes (.huskSlotAssert m k) s fun u =>
      Tab.get {} (copyOf u c).slots k = { Tab.get {} (copyOf s c).slots k with out := true, cin := 0 }) ∧
  (∀ m k e c s, (copyOf s c).net.slots[k]? = some e → c ∈ copyList m →
    (Tab.get {} (copyOf s c).slots k).out = true → (Tab.get {} (copyOf s c).slots k).cin ≥ e.qual →
    makes (.huskSlotClear m k) s fun u =>
      Tab.get {} (copyOf u c).slots k = { Tab.get {} (copyOf s c).slots k with out := false, cout := 0 }) ∧
  (∀ m k e t c s, (copyOf s c).net.timers[k]? = some e → c ∈ copyList m →
    (Tab.get {} (copyOf s c).timers k).since = some t → s.time.tns ≥ t + e.count * unitNs e.unit →
    makes (.huskTimerExpiry m k) s fun u =>
      Tab.get {} (copyOf u c).timers k = { Tab.get {} (copyOf s c).timers k with
        out := decide (e.mode ≤ 1) && (Tab.get {} (copyOf s c).timers k).inp, since := none })

/-- A sequencer request that stands in a copy starts a user sequencer at step 0 with that step's ACT bits, unless an
abort bound to it stands (R204); it goes to NEXT_OK when its WAIT source is at its level and to NEXT_TMO when its
timeout is over, and ends in a fault step with ACT 0 (R201). The close sequencer starts at step 1 with the negative
main on, and a weld found ends it in fault (R231). An orderly open whose current has fallen, or which has waited 2 s,
opens its next channel (R232). An abort that is bound stops a sequencer with every ACT bit 0 (R201). -/
def Obligations.HuskSequencers : Prop :=
  (∀ m q c e s, 16 ≤ q → q < 32 → reqOf (copyOf s c) q = true → c ∈ copyList m → abortBound s q = false →
    (seqOf (copyOf s c) q).busy = false → (userProg (copyOf s c) q)[0]? = some e → e.flt = false → e.fin = false →
    makes (.sequencerStart m q) s fun u => seqOf (copyOf u c) q =
      { busy := true, fault := false, step := 0, since := s.time.tns, act := e.act, cut := false }) ∧
  (∀ i c s, closeAllowed s i = true → (seqOf (copyOf s c) (4 * i)).busy = false → (drvStr s i).weld = false →
    seqOf (copyOf (closeStart i c s) c) (4 * i) =
      { seqOf (copyOf s c) (4 * i) with busy := true, fault := false, step := 1, since := s.time.tns, cut := false } ∧
    actOf (copyOf (closeStart i c s) c) i = 2) ∧
  (∀ i c s, closeAllowed s i = true → (seqOf (copyOf s c) (4 * i)).busy = false → (drvStr s i).weld = true →
    (seqOf (copyOf (closeStart i c s) c) (4 * i)).busy = false ∧
    (seqOf (copyOf (closeStart i c s) c) (4 * i)).fault = true ∧ actOf (copyOf (closeStart i c s) c) i = 0) ∧
  (∀ m q s, q < 32 →
    settlesTo (.sequencerStart m q) s ((copyList m).foldl (startIn q) s)) ∧
  (∀ m q s,
    settlesTo (.sequencerWaitMet m q) s ((copyList m).foldl (fun s c => seqNext q false c s) s) ∧
    settlesTo (.sequencerTimeout m q) s ((copyList m).foldl (fun s c => seqNext q true c s) s)) ∧
  (∀ m q c e f s, copyList m = [c] → 16 ≤ q → (seqOf (copyOf s c) q).busy = true →
    (userProg (copyOf s c) q)[(seqOf (copyOf s c) q).step]? = some e → srcVal s (copyOf s c) e.wait ≠ e.waitZero →
    (userProg (copyOf s c) q)[e.nextOk]? = some f → f.flt = false → f.fin = false →
    makes (.sequencerWaitMet m q) s fun u => seqOf (copyOf u c) q =
      { busy := true, fault := false, step := e.nextOk, since := s.time.tns, act := f.act, cut := false }) ∧
  (∀ m q c e f s, copyList m = [c] → 16 ≤ q → (seqOf (copyOf s c) q).busy = true →
    (userProg (copyOf s c) q)[(seqOf (copyOf s c) q).step]? = some e → srcVal s (copyOf s c) e.wait = e.waitZero →
    s.time.tns ≥ (seqOf (copyOf s c) q).since + e.tmo * unitNs e.tunit →
    (userProg (copyOf s c) q)[e.nextTmo]? = some f → f.flt = true →
    makes (.sequencerTimeout m q) s fun u => seqOf (copyOf u c) q =
      { seqOf (copyOf s c) q with busy := false, fault := true, act := 0, step := e.nextTmo }) ∧
  (∀ m i c s, c ∈ copyList m → i < 4 → (seqOf (copyOf s c) (4 * i + 1)).busy = true →
    (seqOf (copyOf s c) (4 * i + 1)).step = 0 → (monOf (copyOf s c) i).iOrd = true → cmdrOf (copyOf s c) i = 1 →
    makes (.sequencerWaitMet m (4 * i + 1)) s fun u =>
      actOf (copyOf u c) i = actOf (copyOf s c) i &&& 6 ∧ (seqOf (copyOf u c) (4 * i + 1)).step = 1) ∧
  (∀ m i c s, c ∈ copyList m → i < 4 → (seqOf (copyOf s c) (4 * i + 1)).busy = true →
    (seqOf (copyOf s c) (4 * i + 1)).step = 0 → cmdrOf (copyOf s c) i = 1 →
    s.time.tns ≥ (seqOf (copyOf s c) (4 * i + 1)).since + 2000000000 →
    makes (.sequencerTimeout m (4 * i + 1)) s fun u =>
      actOf (copyOf u c) i = actOf (copyOf s c) i &&& 6 ∧ (seqOf (copyOf u c) (4 * i + 1)).step = 1) ∧
  (∀ m q c s, abortBound s q = true → c ∈ copyList m → (seqOf (copyOf s c) q).busy = true →
    makes (.sequencerAbort m q) s fun u =>
      (seqOf (copyOf u c) q).busy = false ∧ (seqOf (copyOf u c) q).act = 0)

/-- A difference between the copies is counted and held with its output and time (R207). One that has ended is dropped
once it is recorded, and one that has lasted 1 s is a copy fault (R207, R209). Configurations with the right CRC leave
both copies in service, and a wrong one or an uncorrectable error is a copy fault (R208, R209). A netlist load keeps
every trip latch, records where the netlist came from and applies the thresholds, and ends the loading (R215), and the
code of a threshold is the one R180 gives. -/
def Obligations.HuskCopies : Prop :=
  (∀ k s, differs s k = true → diverges s k = false →
    exec (.huskDivergence k) s = .next { s with
      husk.divs := s.husk.divs ++ [{ out := k, since := s.time.tns - 2000, till := none, said := false }],
      husk.divCnt := sat 16 (s.husk.divCnt + 1) }) ∧
  (∀ intact s, (∀ d ∈ s.husk.divs, d.till = none → s.time.tns < d.since + 1000000000) →
    makes (.huskDivergeRecord intact) s fun u =>
      u.husk.divs = s.husk.divs.filter (·.till.isNone) ∧ u.husk.copyFault = s.husk.copyFault) ∧
  (∀ intact d s, d ∈ s.husk.divs → d.till = none → d.said = false → s.time.tns ≥ d.since + 1000000000 →
    completes (.huskDivergeRecord intact) s fun u => u.husk.copyFault = true ∧ u.husk.faultAt = some s.time.tns) ∧
  (∀ crc corr intact s, s.husk.nlSrc ≠ .none → s.husk.net.crc = crc → s.husk.mainOk = true → s.husk.shadowOk = true →
    settlesTo (.huskCrcCheck crc crc corr false false intact) s { s with
      husk.eccCnt := sat 16 (s.husk.eccCnt + corr), husk.copyFault := s.husk.romHeld }) ∧
  (∀ crcM crcS corr uncM uncS intact s, s.husk.nlSrc ≠ .none →
    (uncM = true ∨ uncS = true ∨ crcM ≠ s.husk.net.crc ∨ crcS ≠ s.husk.net.crc) →
    completes (.huskCrcCheck crcM crcS corr uncM uncS intact) s fun t =>
      t.husk.copyFault = true ∧ t.husk.faultAt = some s.time.tns) ∧
  (∀ s, s.husk.loading = true →
    settlesTo .netlistLoad s
      { threshWrite (allThresholds (loadNet s.husk.net s.husk.nlSrc s)) with husk.loading := false }) ∧
  (∀ n src s c cat i, latchOf (copyOf (loadNet n src s) c) cat i = latchOf (copyOf s c) cat i) ∧
  (∀ n src s, (loadNet n src s).husk.cause = s.husk.cause ∧ (loadNet n src s).cur = s.cur ∧
    (loadNet n src s).husk.mainOk = !s.husk.copyFault ∧ (loadNet n src s).husk.nlSrc = src) ∧
  (∀ n (lo : Bool) req s, n < 8 → (if lo then (curCh (setThr n lo req s) n).thrLo else (curCh (setThr n lo req s) n).thrHi) =
    thrCode (thrRaw (if (curCh s n).inv then -req else req) (curCh s n).ofs (curCh s n).fs))

/-- A channel enters economy after PULL_IN (R225). Overcurrent or a wrong gate level latches DRV_DRIVE_FAULT and turns
both gates off, and a coil below 40 mA in three measurements latches DRV_OPEN_COIL (R227). HVIL_FAULT sets when the
loop has been open for 11 samples and 120 good samples leave it clear (R240). KEY takes a level that three samples
agree on, and more than two changes in its last 20 samples are chatter (R241). The windows run on across commands. -/
def Obligations.DriverInputs : Prop :=
  (∀ n t s, n < 12 → (drvCh s n).onAt = some t → (drvCh s n).drive = false →
    s.time.tns ≥ t + (drvOf s (n / 3)).pullIn * 1000000 →
    settlesTo (.economyEntry n) s (modDrvCh s n fun d => { d with econ := true })) ∧
  (∀ n gate coil s, n < 12 → chDriven s n = true → (gate = true ∨ coil ≥ 4000) → (drvCh s n).drive = false →
    completes (.driveFault n gate coil) s fun t =>
      (drvCh t n).drive = true ∧ (drvCh t n).coil = sat 16 coil ∧ (drvCh t n).hg = 0 ∧ (drvCh t n).lg = false) ∧
  (∀ n c0 c1 c2 t s, n < 12 → chDriven s n = true → (drvCh s n).onAt = some t → s.time.tns ≥ t + 10000000 →
    c0 < 40 → c1 < 40 → c2 < 40 → (drvCh s n).openF = false →
    makes (.openCoilFault n c0 c1 c2) s fun u =>
      drvCh u n = { drvCh s n with coil := sat 16 c2, openF := true }) ∧
  (∀ n l s, n < 2 →
    completes (.hvilFault n l) s fun t => hvilOf t n = l.foldl (fun x v => hvilNext v x) (hvilOf s n)) ∧
  (∀ n l s, n < 2 →
    completes (.hvilFaultClear n l) s fun t => hvilOf t n = l.foldl (fun x v => hvilNext v x) (hvilOf s n)) ∧
  (∀ (l : List Nat) x, l.length = 11 → (∀ v ∈ l, v < 700 ∨ v > 1300) → (l.foldl (fun x v => hvilNext v x) x).fault = true) ∧
  (∀ (l : List Nat) x, l.length = 120 → (∀ v ∈ l, 700 ≤ v ∧ v ≤ 1300) → (l.foldl (fun x v => hvilNext v x) x).fault = false) ∧
  (∀ v s, s.sys.run.buck = true → changes ((v :: v :: v :: s.drv.keyWin).take 20) ≤ 2 →
    completes (.keyQualify [v, v, v]) s fun t => t.drv.key = v ∧ t.drv.chatter = false) ∧
  (∀ v s, s.sys.run.buck = true →
    completes (.inputChatter [v]) s fun t =>
      t.drv.keyWin = (v :: s.drv.keyWin).take 20 ∧ t.drv.chatter = decide (changes t.drv.keyWin > 2) ∧
      t.drv.chatTime = if changes t.drv.keyWin > 2 then s.drv.chatTime + 1 else 0) ∧
  (∀ l s, exec (.inputChatter l) s = exec (.keyQualify l) s)

/-- A fast open whose current has not fallen below the breaking current in 100 ms sets the S3 condition and leaves its
wait (R232). A weld check starts for a string that stands open, when Husk has reached L1 or 200 ms after an opening
(R88, R234), and is judged from the first slot of its string node 50 ms or more into it: no finding clears WELD and
UNCHECKED, a finding sets WELD, and without a slot the string is unchecked and WELD stays (R235). -/
def Obligations.DriverChecks : Prop :=
  (∀ i c s, i < 4 → (seqOf (copyOf s c) (4 * i + 2)).busy = true → (seqOf (copyOf s c) (4 * i + 2)).step = 0 →
    (monOf (copyOf s c) i).iBrk = false → s.time.tns ≥ (seqOf (copyOf s c) (4 * i + 2)).since + 100000000 →
    makes (.fastOpenTimeout i) s fun u => u.evt.s3Brk = true ∧ (seqOf (copyOf u c) (4 * i + 2)).busy = false) ∧
  (∀ i s, configured s i = true → standsOpen s i = true → s.husk.reachedL1.getLsbD i = true → (drvStr s i).weldDone = false →
    settlesTo (.weldCheckStart i) s
      (startWeld i (modDrvStr s i fun d => { d with weldDone := true, openEnd := none }))) ∧
  (∀ i t s, configured s i = true → standsOpen s i = true → (drvStr s i).openEnd = some t → s.time.tns ≥ t + 200000000 →
    settlesTo (.weldCheckStart i) s
      (startWeld i (modDrvStr s i fun d => { d with weldDone := true, openEnd := none }))) ∧
  (∀ i d s, seqBusy s (4 * i + 3) = true → (drvStr s i).weldSlot = some d →
    settlesTo (.weldCheckEvaluate i) s (weldJudge i d (endWeld i s))) ∧
  (∀ i s, i < 4 → seqBusy s (4 * i + 3) = true → (drvStr s i).weldSlot = none →
    s.time.tns ≥ weldFrom s i + 100000000 →
    makes (.weldCheckEvaluate i) s fun u => (drvStr u i).unchk = true ∧ (drvStr u i).weld = (drvStr s i).weld) ∧
  (∀ i d s, (∀ k ∈ strings s, k ≠ i → closed s k = false) → weldFind (drvOf s i) true d = 0 →
    (drvStr (weldJudge i d s) i).weld = false ∧ (drvStr (weldJudge i d s) i).unchk = false) ∧
  (∀ i d s, weldFind (drvOf s i) (!((strings s).any fun k => k != i && closed s k)) d ≠ 0 →
    (drvStr (weldJudge i d s) i).weld = true)

/-- A ring that is off or asked for starts enumeration with no node and out of service. The tokens give its counts. A
ring whose counts and positions agree is accepted; one whose do not is tried again twice and then failed. Its delays
are measured and its nodes configured (R123), they are authenticated, a node of a string without a pod key as a
foreign one (R127), and the ring serves from its first TRIG (R112, R114, R115). What the nodes answer is the sender's
(Assumption 2). -/
def Obligations.RingEnumerates : Prop :=
  (∀ r s, enumMay s = true → s.img.selected = true → r < 2 → ((ringOf s r).state = .off ∨ (ringOf s r).enumReq = true) →
    (ringOf s r).state ≠ .sleeping →
    completes (.ringStart r) s fun t =>
      (ringOf t r).state = .waking ∧ (ringOf t r).enumStep = 1 ∧ (ringOf t r).nodes = [] ∧
      (ringOf t r).enumReq = false ∧ (ringOf t r).inService = false) ∧
  (∀ r n back s, (ringOf s r).enumStep = 1 →
    exec (.enumTokenA r n back) s = .next (modRing s r fun x =>
      { x with state := .enumerating, enumStep := 2, cntA := n % 256, tokA := back })) ∧
  (∀ r n s, (ringOf s r).enumStep = 2 →
    exec (.enumTokenB r n) s = .next (modRing s r fun x => { x with enumStep := 3, cntB := n % 256 })) ∧
  (∀ r regs s, (ringOf s r).enumStep = 3 → (ringOf s r).tokA = false → enumCause (ringOf s r) (regs.map descOf) = 0 →
    (regs.map fun b => (descOf b).pos).Nodup → ((regs.map descOf).filter fun d => d.kind == 1).length ≤ 48 →
    completes (.enumRead r regs) s fun t => (ringOf t r).enumStep = 4 ∧
      ∀ b ∈ regs, (nodeOf t r (descOf b).pos).uid = (descOf b).uid ∧ (nodeOf t r (descOf b).pos).kind = (descOf b).kind) ∧
  (∀ r regs s, (ringOf s r).enumStep = 3 → (ringOf s r).tokA = false → enumCause (ringOf s r) (regs.map descOf) ≠ 0 →
    (ringOf s r).enumTries < 2 →
    exec (.enumRead r regs) s = .next (modRing s r fun x =>
      { x with state := .waking, enumStep := 0, enumTries := x.enumTries + 1 })) ∧
  (∀ r regs s, (ringOf s r).enumStep = 3 → (ringOf s r).tokA = false → enumCause (ringOf s r) (regs.map descOf) ≠ 0 →
    (ringOf s r).enumTries ≥ 2 →
    completes (.enumRead r regs) s fun t => (ringOf t r).state = .failed ∧ (ringOf t r).enumErr = true ∧
      (ringOf t r).enumStep = 0 ∧ (ringOf t r).nodes = []) ∧
  (∀ r a b ms s, (ringOf s r).enumStep = 4 →
    completes (.enumMeasure r (some (a, b)) ms) s fun t => (ringOf t r).enumStep = 5 ∧ (ringOf t r).lCW = a ∧
      (ringOf t r).lCCW = b ∧ (ringOf t r).skewRisk = decide (a > 4900 ∨ b > 4900) ∧
      ∀ q ∈ positions s r, (nodeOf t r q).acqOk = true ∧ (nodeOf t r q).balTo = s.cfg.acq.tBalTo) ∧
  (∀ r rs s, (ringOf s r).enumStep = 5 → completes (.enumAuthenticate r rs) s fun t => (ringOf t r).enumStep = 6) ∧
  (∀ r a i s, (ringOf s r).enumStep = 5 → (nodeOf s r a.pos).string = some i → podKey s i = [] →
    completes (.enumAuthenticate r [a]) s fun t => (nodeOf t r a.pos).auth = foreignAuth s i) ∧
  (∀ r s, (ringOf s r).enumStep = 6 →
    completes (.enumFirstTrig r) s fun t => (ringOf t r).enumStep = 7 ∧ (ringOf t r).inService = true ∧
      (ringOf t r).state = if (ringOf s r).breaks = 0 then .whole else if (ringOf s r).breaks = 1 then .wrapped else .broken2)

/-- COLLECT is sent on a ring that serves (R100). A slot whose CRC verifies is the node's slot of that port, is left
unread in a frame in which its node is thinned out (R101), and any other counts an error of the port (R95, R99). An
ALARM is counted with its kind and position, and one whose halves disagree, or with a position that no node has,
counts an error (R110; the last by R9, Assumption 79). The front management exchange is done, or is tried again twice
(R103). A delay measurement gives its node's delays from its round trips (R105, R108). A node with three misses is
lost (R118). -/
def Obligations.RingCollects : Prop :=
  (∀ r s, ringServes s r = true → s.sys.frameOpen = true →
    completes (.collectSend r) s fun t =>
      (ringOf t r).collected = true ∧ (ringOf t r).thinA = sideThin s r false ∧ (ringOf t r).thinB = sideThin s r true ∧
      (ringOf t r).txA = collectFrame s r false ∧ (ringOf t r).txB = collectFrame s r true) ∧
  (∀ r b bytes turn s, ringServes s r = true → (ringOf s r).collected = true → served s r (fld bytes 0 1) = true →
    slotOk s.time.frm (slotLen (nodeOf s r (fld bytes 0 1)).kind (acqMode s)) bytes = true →
    thinTurn s r (fld bytes 0 1) = true →
    completes (.collectSlotReceive r b bytes turn) s fun t =>
      (if b then (nodeOf t r (fld bytes 0 1)).rxB else (nodeOf t r (fld bytes 0 1)).rxA) =
        some (slotData (nodeOf s r (fld bytes 0 1)).kind (acqMode s) s.time.frm bytes)) ∧
  (∀ r b bytes turn s, ringServes s r = true → (ringOf s r).collected = true → served s r (fld bytes 0 1) = true →
    slotOk s.time.frm (slotLen (nodeOf s r (fld bytes 0 1)).kind (acqMode s)) bytes = true →
    thinTurn s r (fld bytes 0 1) = false → exec (.collectSlotReceive r b bytes turn) s = .next s) ∧
  (∀ r b bytes turn s, ringServes s r = true → (ringOf s r).collected = true →
    (served s r (fld bytes 0 1) = false ∨
      slotOk s.time.frm (slotLen (nodeOf s r (fld bytes 0 1)).kind (acqMode s)) bytes = false) →
    settlesTo (.collectSlotReceive r b bytes turn) s (portErr r b s)) ∧
  (∀ r b (a : Byte) s, 1 ≤ a.toNat % 64 → a.toNat % 64 ≤ 56 →
    completes (.alarmReceive r b a (~~~a)) s fun t => (ringOf t r).alarmCnt = sat 16 ((ringOf s r).alarmCnt + 1) ∧
      (ringOf t r).alarmKind = a.toNat / 64 ∧ (ringOf t r).alarmPos = a.toNat % 64) ∧
  (∀ r b (a na : Byte) s, (na ≠ ~~~a ∨ a.toNat % 64 = 0 ∨ a.toNat % 64 > 56) →
    exec (.alarmReceive r b a na) s = .next (portErr r b s)) ∧
  (∀ r (b : Bool) s, (if b then (ringOf (portErr r b s) r).errB else (ringOf (portErr r b s) r).errA) =
    sat 32 ((if b then (ringOf s r).errB else (ringOf s r).errA) + 1)) ∧
  (∀ r m rest resp s, mgmtNext s.time.tns (ringOf s r).mgmt = some (m, rest) → (ringOf s r).inService = true →
    mgmtGap s = true → m.write = false → mgmtFilled m resp = true → fld resp 0 1 = 0 →
    completes (.mgmtExchange r resp) s fun t => (ringOf t r).mgmt = rest ∧
      (m.addr = 0x28 → (nodeOf t r m.pos).die = some (fldI ((resp.drop 2).take m.n) 0 1))) ∧
  (∀ r m rest s, mgmtNext s.time.tns (ringOf s r).mgmt = some (m, rest) → (ringOf s r).inService = true →
    mgmtGap s = true → m.tries < 2 →
    completes (.mgmtExchange r []) s fun t => (ringOf t r).mgmt = { m with tries := m.tries + 1 } :: rest) ∧
  (∀ r m rest s, mgmtNext s.time.tns (ringOf s r).mgmt = some (m, rest) → (ringOf s r).inService = true →
    mgmtGap s = true → m.tries ≥ 2 → m.write = false →
    completes (.mgmtExchange r []) s fun t => (ringOf t r).mgmt = rest) ∧
  (∀ r rttA rttB l a b q s, q = nextPos s r (ringOf s r).measPos → ringServes s r = true → (nodeOf s r q).kind ≠ 0 →
    (ringOf s r).measured = false → mgmtGap s = true → echoDelay (nodeOf s r q).tTurn rttA = some a →
    echoDelay (nodeOf s r q).tTurn rttB = some b →
    completes (.delayMeasurement r rttA rttB l) s fun t => (nodeOf t r q).dA = a ∧ (nodeOf t r q).dB = b ∧
      (ringOf t r).measPos = q ∧ (ringOf t r).measLeft = (ringOf s r).measLeft - 1) ∧
  (∀ r p i s, (nodeOf s r p).string = some i → (nodeOf s r p).kind ≠ 0 → (nodeOf s r p).misses ≥ 3 →
    nodeOut (nodeOf s r p) = false →
    completes (.nodeLost r p) s fun t => (nodeOf t r p).lost = true)

/-- A live insertion goes from the probe of a gap whose link is up through the count, the configuration and the
authentication of the new nodes to the unwrap at a boundary, which ends the last break when the new nodes close the
gap; a count that does not fit ends it (R119, R121). -/
def Obligations.RingHeals : Prop :=
  (∀ r s, ringServes s r = true → (ringOf s r).liveEn = true → (ringOf s r).breaks ≠ 0 → (ringOf s r).aLast ≥ 1 →
    (ringOf s r).liveStep = 0 →
    (∃ pn ∈ (ringOf s r).nodes, pn.2.linkUp = true ∧ (pn.1 = (ringOf s r).aLast ∨ pn.1 = (ringOf s r).bFirst)) →
    completes (.linkUp r) s fun t => (ringOf t r).liveStep = 1 ∧ (ringOf t r).mgmt = (ringOf s r).mgmt ++
      [{ pos := (ringOf s r).aLast, write := true, addr := 0x20, n := 4, data := le 4 1 }]) ∧
  (∀ r m rest resp s, mgmtNext s.time.tns (ringOf s r).mgmt = some (m, rest) → (ringOf s r).inService = true →
    mgmtGap s = true → m.write = true → m.addr = 0x20 → m.data = le 4 1 → mgmtFilled m resp = true → fld resp 0 1 = 0 →
    (ringOf s r).liveStep = 1 →
    completes (.mgmtExchange r resp) s fun t => (ringOf t r).liveStep = 2 ∧ (ringOf t r).mgmt = rest) ∧
  (∀ r descs s, (ringOf s r).liveStep = 2 →
    completes (.liveInsertCount r (ringOf s r).aLast true descs) s fun t =>
      (ringOf t r).liveStep = 5 ∧ (ringOf t r).liveK = 0) ∧
  (∀ r k back descs s, (ringOf s r).liveStep = 2 → k ≠ 0 →
    ((ringOf s r).aLast + k < bFirstOf (ringOf s r) ∨ back = true) →
    (∀ j < k, ∃ d y, topoNode s r ((ringOf s r).aLast + 1 + j) = some d ∧ descs[j]? = some y ∧ d.kind = bits y 31 24 ∧
      d.mask = bits y 15 0) →
    completes (.liveInsertCount r ((ringOf s r).aLast + k) back descs) s fun t =>
      (ringOf t r).liveStep = 3 ∧ (ringOf t r).liveK = k ∧ (ringOf t r).liveBack = back) ∧
  (∀ r k descs s, (ringOf s r).liveStep = 2 → (ringOf s r).aLast + k ≥ bFirstOf (ringOf s r) →
    completes (.liveInsertCount r ((ringOf s r).aLast + k) false descs) s fun t =>
      (ringOf t r).liveStep = 0 ∧ (ringOf t r).liveK = 0) ∧
  (∀ r regs ms s, (ringOf s r).liveStep = 3 → (regs.map fun b => (descOf b).pos).Nodup →
    completes (.liveInsertConfigure r regs ms) s fun t => (ringOf t r).liveStep = 4 ∧
      ∀ b ∈ regs, (ringOf s r).aLast < (descOf b).pos → (descOf b).pos ≤ (ringOf s r).aLast + (ringOf s r).liveK →
        (nodeOf t r (descOf b).pos).uid = (descOf b).uid ∧ (nodeOf t r (descOf b).pos).fresh = true) ∧
  (∀ r rs s, (ringOf s r).liveStep = 4 →
    completes (.liveInsertAuthenticate r rs) s fun t => (ringOf t r).liveStep = 5) ∧
  (∀ r s, (ringOf s r).liveStep = 5 → atBoundary s = true →
    completes (.liveInsertUnwrap r) s fun t => (ringOf t r).liveStep = 0 ∧ (ringOf t r).liveK = 0) ∧
  (∀ r s, (ringOf s r).liveStep = 5 → atBoundary s = true → (ringOf s r).liveBack = false →
    (ringOf s r).aLast + (ringOf s r).liveK + 1 = bFirstOf (ringOf s r) →
    completes (.liveInsertUnwrap r) s fun t =>
      (ringOf t r).breaks = 0 ∧ (ringOf t r).aLast = 0 ∧ (ringOf t r).bFirst = 0)

/-- A periodic challenge writes a fresh nonce, a free value that nothing fixes (Assumption 3). A node that answers
with its tag has passed and its failures are forgotten; one that does not is counted and challenged again (R126,
R127). -/
def Obligations.NodeChallenges : Prop :=
  (∀ r p i s, (nodeOf s r p).string = some i → ringServes s r = true → nodeOut (nodeOf s r p) = false →
    (nodeOf s r p).chalOut = false → s.time.tns ≥ (nodeOf s r p).chalAt + s.cfg.sec.chalPeriod * 1000000000 →
    completes (.nodeChallenge r p) s fun t =>
      (nodeOf t r p).chalOut = true ∧ (nodeOf t r p).chalAt = s.time.tns ∧ (nodeOf t r p).nonce = (takeFree s).1 ∧
      t.freeIx = s.freeIx + 1 ∧ (ringOf t r).mgmt = (ringOf s r).mgmt ++
        [{ pos := p, write := true, addr := 0x40, n := 8, data := le 8 (takeFree s).1.toNat }]) ∧
  (∀ r p tag s, (nodeOf s r p).chalOut = true → (nodeOf s r p).tagRx = some tag → tagOk s r p tag = true →
    completes (.nodeTagCheck r p) s fun t =>
      (nodeOf t r p).chalOut = false ∧ (nodeOf t r p).authFails = 0 ∧ t.sec.authPass = sat 16 (s.sec.authPass + 1) ∧
      t.sec.authFail = s.sec.authFail ∧ ((nodeOf s r p).pairBad = false → (nodeOf t r p).auth = .passed)) ∧
  (∀ r p tag s, (nodeOf s r p).chalOut = true → (nodeOf s r p).tagRx = some tag → tagOk s r p tag = false →
    (nodeOf s r p).authFails = 0 → (nodeOf s r p).failPend = false →
    completes (.nodeTagCheck r p) s fun t =>
      (nodeOf t r p).chalOut = true ∧ (nodeOf t r p).authFails = 1 ∧ t.sec.authFail = sat 16 (s.sec.authFail + 1) ∧
      (nodeOf t r p).auth = (nodeOf s r p).auth) ∧
  (∀ r p tag i s, (nodeOf s r p).chalOut = true → (nodeOf s r p).tagRx = some tag → tagOk s r p tag = false →
    (nodeOf s r p).authFails ≠ 0 → (nodeOf s r p).string = some i → standsOpen s i = true →
    completes (.nodeTagCheck r p) s fun t =>
      (nodeOf t r p).chalOut = false ∧ (nodeOf t r p).authFails = 0 ∧ (nodeOf t r p).auth = foreignAuth s i)

/-- Once per decision period the cells to balance are chosen (R143). Three mismatches, and a die temperature 1 s old,
stop a node's balancing (R145, R149). Coupling identification starts, completes after four rounds, valid when every
input's result is, and is given up after 256 frames (R147). A read of the node's test of this frame ends the test, and
one of another frame asks for it again (R152, R154). -/
def Obligations.AcquisitionTests : Prop :=
  (∀ s, s.sys.run.acq = true → s.time.tns ≥ s.acq.decAt + 1000000000 →
    completes .balanceDecision s fun t => t.acq.decAt = s.time.tns ∧
      ∀ c ∈ cells s, (cellAcq t c).sel = ((strings s).flatMap (balSelect s)).contains c ∧ (cellAcq t c).decCnt = 0) ∧
  (∀ r p s, (nodeOf s r p).balMis ≥ 3 → (nodeOf s r p).balFault = false →
    completes (.balNodeFault r p) s fun t => (nodeOf t r p).balFault = true) ∧
  (∀ r p s, (nodeOf s r p).kind ≠ 0 → s.time.tns ≥ (nodeOf s r p).dieAt + 1000000000 →
    exec (.dieTempTimeout r p) s = .next (modNode s r p fun n => { n with dieStale := true })) ∧
  (∀ r p ow s, ((nodeOf s r p).balFault = true ∨ (nodeOf s r p).dieStale = true) → (cmdEntry s r p ow).2.bal = 0) ∧
  (∀ r p i s, compMode s = true → (nodeOf s r p).kind = 1 → (nodeOf s r p).string = some i → nodeOut (nodeOf s r p) = false →
    (nodeOf s r p).coup.busy = false → s.time.tns ≥ (nodeOf s r p).coup.holdUntil → (nodeOf s r p).coup.want = true →
    completes (.coupIdStart r p) s fun t =>
      (nodeOf t r p).coup.busy = true ∧ (nodeOf t r p).coup.want = false ∧ (nodeOf t r p).coup.rounds = 0) ∧
  (∀ r p s, (nodeOf s r p).coup.busy = true → (nodeOf s r p).coup.rounds ≥ 4 →
    completes (.coupIdComplete r p) s fun t =>
      (nodeOf t r p).coup.busy = false ∧ (nodeOf t r p).coup.lastAt = s.time.tns ∧
      (nodeOf t r p).coup.valid = (inputs (nodeOf s r p).mask.toNat).all fun k =>
        (coupOf (inputs (nodeOf s r p).mask.toNat) (nodeOf s r p).coup.acc k).2) ∧
  (∀ r p s, (nodeOf s r p).coup.busy = true → (nodeOf s r p).coup.frames ≥ 256 → (nodeOf s r p).coup.rounds < 4 →
    completes (.coupIdGiveUp r p) s fun t =>
      (nodeOf t r p).coup.busy = false ∧ (nodeOf t r p).coup.want = true ∧
      (nodeOf t r p).coup.holdUntil = s.time.tns + 10000000000) ∧
  (∀ r p stack ps q d s, (nodeOf s r p).ow.testSeq = some q → topoNode s r p = some d → s.time.frm.toNat % 256 = q →
    bits stack 31 24 = q →
    completes (.owTestRead r p stack ps) s fun t =>
      (nodeOf t r p).ow.testSeq = none ∧ (nodeOf t r p).ow.p = ps ∧ t.acq.tests = (s.acq.tests + 1) % 65536) ∧
  (∀ r p stack ps q d s, (nodeOf s r p).ow.testSeq = some q → topoNode s r p = some d →
    (s.time.frm.toNat % 256 ≠ q ∨ bits stack 31 24 ≠ q) →
    exec (.owTestRead r p stack ps) s = .next (modNode s r p fun n => { n with ow.testSeq := none, ow.want := true }))

/-- Each arithmetic instruction that a lane runs next writes FD with its operation on FA, FB and FC and goes to the
next word; a write to F0 is discarded (R247, R259). -/
def Obligations.LaneArithmetic : Prop :=
  (∀ l d a b s, laneRuns s l (encR3 1 d a b 0) →
    exec (.fadd l d a b) s = .next (laneTakes s l fun x => setFreg d (fadd (freg x a) (freg x b)) x)) ∧
  (∀ l d a b s, laneRuns s l (encR3 2 d a b 0) →
    exec (.fsub l d a b) s = .next (laneTakes s l fun x => setFreg d (fsub (freg x a) (freg x b)) x)) ∧
  (∀ l d a b s, laneRuns s l (encR3 3 d a b 0) →
    exec (.fmul l d a b) s = .next (laneTakes s l fun x => setFreg d (fmul (freg x a) (freg x b)) x)) ∧
  (∀ l d a b c s, laneRuns s l (encR3 4 d a b c) →
    exec (.fma l d a b c) s = .next (laneTakes s l fun x => setFreg d (ffma (freg x a) (freg x b) (freg x c)) x)) ∧
  (∀ l d a b s, laneRuns s l (encR3 5 d a b 0) →
    exec (.fdiv l d a b) s = .next (laneTakes s l fun x => setFreg d (fdiv (freg x a) (freg x b)) x)) ∧
  (∀ l d a s, laneRuns s l (encR3 6 d a 0 0) →
    exec (.fsqrt l d a) s = .next (laneTakes s l fun x => setFreg d (fsqrt (freg x a)) x)) ∧
  (∀ l d a s, laneRuns s l (encR3 7 d a 0 0) →
    exec (.fexp l d a) s = .next (laneTakes s l fun x => setFreg d (fexp (freg x a)) x)) ∧
  (∀ l d a b s, laneRuns s l (encR3 8 d a b 0) →
    exec (.fmin l d a b) s = .next (laneTakes s l fun x => setFreg d (fmin (freg x a) (freg x b)) x)) ∧
  (∀ l d a b s, laneRuns s l (encR3 9 d a b 0) →
    exec (.fmax l d a b) s = .next (laneTakes s l fun x => setFreg d (fmax (freg x a) (freg x b)) x)) ∧
  (∀ l d a s, laneRuns s l (encR3 10 d a 0 0) →
    exec (.fabs l d a) s = .next (laneTakes s l fun x => setFreg d (fabs (freg x a)) x)) ∧
  (∀ l d a b c s, laneRuns s l (encR3 11 d a b c) →
    exec (.clamp l d a b c) s =
      .next (laneTakes s l fun x => setFreg d (fmin (fmax (freg x a) (freg x b)) (freg x c)) x))

/-- CMP writes its predicate with the comparison. SEL, MOVI and CVT write FD with the choice, the immediate by KIND
and the conversion by MODE, and LDI with the frame input (R259). F0 reads +0 and keeps nothing, and every other
register or predicate holds what was last written to it (R247). -/
def Obligations.LanePredicates : Prop :=
  (∀ l pd a b cond s, laneRuns s l (encWord 12 pd.toNat a.toNat b.toNat (at' 2 cond.toNat) 0) →
    exec (.cmp l pd a b cond) s =
      .next (laneTakes s l fun x => setPred pd (fcmp cond.toNat (freg x a) (freg x b)) x)) ∧
  (∀ l d a b pn s, laneRuns s l (encWord 13 d.toNat a.toNat b.toNat pn.toNat 0) →
    exec (.sel l d a b pn) s = .next (laneTakes s l fun x => setFreg d (if pred x pn then freg x a else freg x b) x)) ∧
  (∀ l d imm s, laneRuns s l (encWord 14 d.toNat 0 0 0 imm.toNat) →
    exec (.movi l d 0 imm) s = .next (laneTakes s l fun x => setFreg d (of16 imm.toNat) x)) ∧
  (∀ l d imm s, laneRuns s l (encWord 14 d.toNat 1 0 0 imm.toNat) →
    exec (.movi l d 1 imm) s = .next (laneTakes s l fun x => setFreg d (imm ++ (0 : BitVec 16)) x)) ∧
  (∀ l d imm s, laneRuns s l (encWord 14 d.toNat 2 0 0 imm.toNat) →
    exec (.movi l d 2 imm) s = .next (laneTakes s l fun x => setFreg d ((freg x d).extractLsb 31 16 ++ imm) x)) ∧
  (∀ l d a mode s, laneRuns s l (encWord 15 d.toNat a.toNat 0 (at' 2 mode.toNat) 0) →
    exec (.cvt l d a mode) s = .next (laneTakes s l fun x => setFreg d (fcvt mode.toNat (freg x a)) x)) ∧
  (∀ l d ix c s, laneRuns s l (encWord 16 d.toNat 0 0 0 ix.toNat) →
    laneCell s l (encWord 16 d.toNat 0 0 0 ix.toNat) = some c →
    exec (.ldi l d ix) s = .next (laneTakes s l fun x => setFreg d (frameInput s c ix.toNat) x)) ∧
  (∀ x i v, freg (setFreg 0 v x) i = freg x i ∧ freg x 0 = 0) ∧
  (∀ x i j v, i ≠ 0 → freg (setFreg i v x) j = if j = i then v else freg x j) ∧
  (∀ x i j v, pred (setPred i v x) j = if j = i then v else pred x j)

/-- LDS reads the word of the cell's state block, or what this step has stored (R259, R261). STS and OUT are committed
writes, which a main lane queues for its checker (R261, R350). TBL2 interpolates (R260). END ends the step. SKIP
passes over the next N instructions when it is unconditional or its predicate equals SENSE, and while a count of
skipped instructions is left an instruction takes one from it and does nothing else (R259). -/
def Obligations.LaneState : Prop :=
  (∀ l d w c s, laneRuns s l (encWord 17 d.toNat 0 0 0 w.toNat) →
    laneCell s l (encWord 17 d.toNat 0 0 0 w.toNat) = some c →
    settlesTo (.lds l d w false) s (laneTakes s l fun x => setFreg d (stateWord s l c w.toNat x) x)) ∧
  (∀ l c w x s, shadowPair s (l / 2) = false → (∀ k ∈ x.writes, k.out = true ∨ k.idx ≠ w) →
    stateWord s l c w x = Tab.get 0 (kCell s c).w w) ∧
  (∀ l c w k ws x s, x.writes = ws ++ [k] → k.out = false → k.idx = w → stateWord s l c w x = k.val) ∧
  (∀ l a w cmp st s, laneRuns s l (encWord 18 0 a.toNat 0 0 w.toNat) → l % 2 = 0 → (pairOf s (l / 2)).split = false →
    (pairOf s (l / 2)).steps.getLast? = some st →
    completes (.sts l a w cmp) s fun t =>
      (laneOf t l).writes = (laneOf s l).writes ++ [{ out := false, idx := w.toNat, val := freg (laneOf s l) a }] ∧
      (laneOf t l).pc = (laneOf s l).pc + 1 ∧
      (pairOf t (l / 2)).queue = (pairOf s (l / 2)).queue ++
        [{ step := st.ord, w := { out := false, idx := w.toNat, val := freg (laneOf s l) a } }]) ∧
  (∀ l a j cmp st s, laneRuns s l (encWord 20 0 a.toNat 0 0 j.toNat) → l % 2 = 0 → (pairOf s (l / 2)).split = false →
    (pairOf s (l / 2)).steps.getLast? = some st →
    completes (.out l a j cmp) s fun t =>
      (laneOf t l).writes = (laneOf s l).writes ++ [{ out := true, idx := j.toNat, val := freg (laneOf s l) a }] ∧
      (laneOf t l).pc = (laneOf s l).pc + 1 ∧
      (pairOf t (l / 2)).queue = (pairOf s (l / 2)).queue ++
        [{ step := st.ord, w := { out := true, idx := j.toNat, val := freg (laneOf s l) a } }]) ∧
  (∀ l d a b k c tb s, laneRuns s l (encWord 19 d.toNat a.toNat b.toNat k.toNat 0) →
    laneCell s l (encWord 19 d.toNat a.toNat b.toNat k.toNat 0) = some c → localTable s c k.toNat = some tb →
    completes (.tbl2 l d a b k false) s fun t =>
      laneOf t l = setFreg d (interp tb (freg (laneOf s l) a) (freg (laneOf s l) b))
        { laneOf s l with pc := (laneOf s l).pc + 1 }) ∧
  (∀ l ns cmp s, laneRuns s l 0 → l % 2 = 0 → (pairOf s (l / 2)).split = false →
    completes (.endStep l ns cmp) s fun t =>
      (laneOf t l).cell = none ∧ (laneOf t l).rejected = setBad (laneOf s l).writes) ∧
  (∀ l sense pn n s, laneRuns s l (encWord 21 (16 + at' 3 (b2n sense) + pn.toNat) 0 0 0 n.toNat) →
    exec (.skip l true sense pn n) s = .next (laneTakes s l fun x => { x with skip := n.toNat })) ∧
  (∀ l sense pn n s, laneRuns s l (encWord 21 (at' 3 (b2n sense) + pn.toNat) 0 0 0 n.toNat) →
    exec (.skip l false sense pn n) s =
      .next (laneTakes s l fun x => if pred x pn = sense then { x with skip := n.toNat } else x)) ∧
  (∀ l d a b c s, laneCell s l (encR3 1 d a b 0) = some c → (laneOf s l).skip > 0 →
    (l % 2 = 1 → shadowPair s (l / 2) = false) → s.pairs.dbg.state ≠ .halted →
    exec (.fadd l d a b) s = .next (laneTakes s l fun x => { x with skip := x.skip - 1 }))

/-- For every lane, operand and state, the word that the fields of an instruction lay out by R257 and R258 makes the
lane execute exactly that instruction with exactly those operands. -/
def Obligations.LaneEncoding : Prop :=
  ∀ l s,
  (∀ d a b, runWord l (encR3 1 d a b 0) s = exec (.fadd l d a b) s) ∧
  (∀ d a b, runWord l (encR3 2 d a b 0) s = exec (.fsub l d a b) s) ∧
  (∀ d a b, runWord l (encR3 3 d a b 0) s = exec (.fmul l d a b) s) ∧
  (∀ d a b c, runWord l (encR3 4 d a b c) s = exec (.fma l d a b c) s) ∧
  (∀ d a b, runWord l (encR3 5 d a b 0) s = exec (.fdiv l d a b) s) ∧
  (∀ d a, runWord l (encR3 6 d a 0 0) s = exec (.fsqrt l d a) s) ∧
  (∀ d a, runWord l (encR3 7 d a 0 0) s = exec (.fexp l d a) s) ∧
  (∀ d a b, runWord l (encR3 8 d a b 0) s = exec (.fmin l d a b) s) ∧
  (∀ d a b, runWord l (encR3 9 d a b 0) s = exec (.fmax l d a b) s) ∧
  (∀ d a, runWord l (encR3 10 d a 0 0) s = exec (.fabs l d a) s) ∧
  (∀ d a b c, runWord l (encR3 11 d a b c) s = exec (.clamp l d a b c) s) ∧
  (∀ pd a b k, runWord l (encWord 12 pd.toNat a.toNat b.toNat (at' 2 k.toNat) 0) s = exec (.cmp l pd a b k) s) ∧
  (∀ d a b pn, runWord l (encWord 13 d.toNat a.toNat b.toNat pn.toNat 0) s = exec (.sel l d a b pn) s) ∧
  (∀ d k imm, runWord l (encWord 14 d.toNat k.toNat 0 0 imm.toNat) s = exec (.movi l d k imm) s) ∧
  (∀ d a m, runWord l (encWord 15 d.toNat a.toNat 0 (at' 2 m.toNat) 0) s = exec (.cvt l d a m) s) ∧
  (∀ d ix, runWord l (encWord 16 d.toNat 0 0 0 ix.toNat) s = exec (.ldi l d ix) s) ∧
  (∀ d w, runWord l (encWord 17 d.toNat 0 0 0 w.toNat) s = exec (.lds l d w false) s) ∧
  (∀ a w, runWord l (encWord 18 0 a.toNat 0 0 w.toNat) s = exec (.sts l a w .good) s) ∧
  (∀ d a b k, runWord l (encWord 19 d.toNat a.toNat b.toNat k.toNat 0) s = exec (.tbl2 l d a b k false) s) ∧
  (∀ a j, runWord l (encWord 20 0 a.toNat 0 0 j.toNat) s = exec (.out l a j .good) s) ∧
  (∀ al se pn n, runWord l (encWord 21 (at' 4 (b2n al) + at' 3 (b2n se) + pn.toNat) 0 0 0 n.toNat) s =
    exec (.skip l al se pn n) s)

/-- A main lane starts its next cell's step at word 0 with no write and no skip (R252, R253). A hand-over before its
boundary is done (R362). PAIR_CTRL.RELEASE schedules one two frames later for each pair named that is quarantined or
unverified (R366). -/
def Obligations.PairsStep : Prop :=
  (∀ l c s, l < 32 → l % 2 = 0 → (laneOf s l).cell = none → (laneOf s l).halted = false →
    (pairOf s (l / 2)).quar = false → (pairOf s (l / 2)).split = false → shadowPair s (l / 2) = false →
    stepsOpen s = true → (pairOf s (l / 2)).steps.length < 3 → nextCell s l = some c →
    completes (.kernelStepStart l false) s fun t =>
      (laneOf t l).cell = some c ∧ (laneOf t l).pc = 0 ∧ (laneOf t l).skip = 0 ∧ (laneOf t l).writes = [] ∧
      (kCell t c).started = true ∧ (pairOf t (l / 2)).steps.length = (pairOf s (l / 2)).steps.length + 1) ∧
  (∀ retest b s, handBoundary s = some b → s.sys.run.kernel = true →
    completes (.handOver retest) s fun t => t.pairs.handDone = some b ∧ ∀ a ∈ t.pairs.handAt, frmLe a b = false) ∧
  (∀ h p m q s, freshWr h p s → s.sys.run.kernel = true → q < 16 → m.getLsbD q = true →
    ((pairOf s q).quar = true ∨ (pairOf s q).unver = true) →
    completes (.pairRelease h p m) s fun t =>
      (pairOf t q).release = some (s.time.frm + 2) ∧ s.time.frm + 2 ∈ t.pairs.handAt)

/-- DBG_SESSION.OPEN opens a session on its pair or says why not (R367). CLOSE and 10 min without a write end it
(R372). DBG_CTRL.HALT stops the main lane at once within a step and otherwise at the next step's start, RESUME lets it
run, STEP executes one instruction, and the breakpoint halts the main lane (R370). A register, predicate or shadow
word written goes to the main lane, and the first two to the replay for the checker (R371, R379). -/
def Obligations.DebugSessions : Prop :=
  (∀ h q s, freshWr h true s → dbgRefuse s q.toNat = 0 →
    completes (.dbgSessionOpen h true q) s fun t => t.pairs.dbg.state = .entering ∧ t.pairs.dbg.pair = q.toNat ∧
      t.pairs.dbg.at0 = some (s.time.frm + 2) ∧ t.pairs.dbg.lastAt = s.time.tns ∧ s.time.frm + 2 ∈ t.pairs.handAt) ∧
  (∀ h q s, freshWr h true s → dbgRefuse s q.toNat ≠ 0 →
    completes (.dbgSessionOpen h true q) s fun t => t.pairs.dbg.state = s.pairs.dbg.state ∧
      t.pairs.dbg.refuse = dbgRefuse s q.toNat) ∧
  (∀ h p s, freshWr h p s → s.pairs.dbg.pair < 16 → s.pairs.dbg.state = .entering →
    completes (.dbgSessionClose h p) s fun t => t.pairs.dbg.state = .none ∧ t.pairs.dbg.at0 = none) ∧
  (∀ h p s, freshWr h p s → s.pairs.dbg.pair < 16 → (s.pairs.dbg.state = .running ∨ s.pairs.dbg.state = .halted) →
    completes (.dbgSessionClose h p) s fun t => t.pairs.dbg.state = .leaving ∧
      t.pairs.dbg.at0 = some (s.time.frm + 2) ∧ t.pairs.dbg.replay = [] ∧ t.pairs.dbg.sw = []) ∧
  (∀ s, s.time.tns ≥ s.pairs.dbg.lastAt + 600000000000 → (s.pairs.dbg.state = .running ∨ s.pairs.dbg.state = .halted) →
    completes .dbgSessionTimeout s fun t => t.pairs.dbg.state = .leaving ∧ t.pairs.dbg.at0 = some (s.time.frm + 2)) ∧
  (∀ h p s, freshWr h p s → s.pairs.dbg.state = .running → (laneOf s (2 * s.pairs.dbg.pair)).cell ≠ none →
    completes (.dbgHalt h p) s fun t =>
      t.pairs.dbg.state = .halted ∧ (laneOf t (2 * s.pairs.dbg.pair)).halted = true) ∧
  (∀ h p s, freshWr h p s → s.pairs.dbg.state = .running → (laneOf s (2 * s.pairs.dbg.pair)).cell = none →
    completes (.dbgHalt h p) s fun t => t.pairs.dbg.state = .running ∧ t.pairs.dbg.haltReq = true) ∧
  (∀ h p s, freshWr h p s → s.pairs.dbg.state = .halted →
    completes (.dbgResume h p) s fun t => t.pairs.dbg.state = .running ∧
      (laneOf t (2 * s.pairs.dbg.pair)).halted = false ∧ (laneOf t (2 * s.pairs.dbg.pair + 1)).halted = false) ∧
  (∀ h p s, freshWr h p s →
    writes h p (.dbgStep h p) s (dbgStep { wrStart h p s with pairs.dbg.lastAt := s.time.tns })) ∧
  (∀ c g d a b s, s.pairs.dbg.state = .halted → (laneOf s (2 * s.pairs.dbg.pair)).cell = some c → s.pairs.dbg.pair < 16 →
    progOf s c = some g → g.words[(laneOf s (2 * s.pairs.dbg.pair)).pc]? = some (encR3 1 d a b 0) →
    (laneOf s (2 * s.pairs.dbg.pair)).skip = 0 →
    laneOf (dbgStep s) (2 * s.pairs.dbg.pair) = { setFreg d (fadd (freg (laneOf s (2 * s.pairs.dbg.pair)) a)
      (freg (laneOf s (2 * s.pairs.dbg.pair)) b)) (laneOf s (2 * s.pairs.dbg.pair)) with
      pc := (laneOf s (2 * s.pairs.dbg.pair)).pc + 1, halted := true }) ∧
  (∀ c s, s.pairs.dbg.state = .running → s.pairs.dbg.brk.getLsbD 31 = true → bits s.pairs.dbg.brk 10 0 = c →
    (laneOf s (2 * s.pairs.dbg.pair)).cell = some c → (laneOf s (2 * s.pairs.dbg.pair)).pc = bits s.pairs.dbg.brk 30 21 →
    completes .dbgBreakpoint s fun t =>
      t.pairs.dbg.state = .halted ∧ (laneOf t (2 * s.pairs.dbg.pair)).halted = true) ∧
  (∀ h p i v m s, freshWr h p s → dbgOpenRegs s = true → s.pairs.dbg.replay.length < 256 → i ≠ 0 →
    completes (.dbgRegisterWrite h p (.f i) v m) s fun t =>
      Tab.get 0 (laneOf t (2 * s.pairs.dbg.pair)).f i.val = v ∧
      t.pairs.dbg.replay.length = s.pairs.dbg.replay.length + 1) ∧
  (∀ h p v m s, freshWr h p s → dbgOpenRegs s = true → s.pairs.dbg.replay.length < 256 →
    completes (.dbgRegisterWrite h p .pred v m) s fun t => (laneOf t (2 * s.pairs.dbg.pair)).p = v.setWidth 8) ∧
  (∀ h p j v m s, freshWr h p s → dbgOpenRegs s = true → s.pairs.dbg.replay.length < 256 →
    completes (.dbgRegisterWrite h p (.shadow j) v m) s fun t => Tab.get 0 t.pairs.dbg.sw j.val = v)

/-- A write to CFG, FS or OFS of a channel whose string stands open is stored within presence, and the channel uses
the values it had until they are confirmed; one that changes nothing is none (R169, R187). While the channels run,
CAL_NOW queues every channel of a configured string for calibration, and CMP_TEST tests the comparators of every
channel whose string stands open (R174, R182, R186). -/
def Obligations.WritesCurrent : Prop :=
  (∀ h n v s, freshWr h true s → standsOpen s (chString n.val) = true → reachCur (0x040 + 16 * n.val) v s = true →
    completes (.curChCfgWrite h true n v) s fun t =>
      (curCh t n.val).inv = v.getLsbD 1 ∧ (curCh t n.val).en = v.getLsbD 0 ∧
      (curCh t n.val).use = some (chVals (curCh s n.val)) ∧ (curCh t n.val).fs = (curCh s n.val).fs) ∧
  (∀ h n v s, freshWr h true s → standsOpen s (chString n.val) = true → reachCur (0x044 + 16 * n.val) v s = true →
    10000 ≤ v.toNat → v.toNat ≤ 5000000 →
    completes (.curChFsWrite h true n v) s fun t =>
      (curCh t n.val).fs = v.toNat ∧ (curCh t n.val).use = some (chVals (curCh s n.val)) ∧
      (curCh t n.val).ofs = (curCh s n.val).ofs) ∧
  (∀ h n v s, freshWr h true s → standsOpen s (chString n.val) = true → reachCur (0x048 + 16 * n.val) v s = true →
    completes (.curChOfsWrite h true n v) s fun t =>
      (curCh t n.val).ofs = toSigned 16 (bits v 15 0) ∧ (curCh t n.val).use = some (chVals (curCh s n.val)) ∧
      (curCh t n.val).fs = (curCh s n.val).fs) ∧
  (∀ h n v s, freshWr h true s → reachCur (0x044 + 16 * n.val) v s = false →
    completes (.curChFsWrite h true n v) s fun t => t.cur = s.cur) ∧
  (∀ h p s, freshWr h p s → s.sys.run.acq = true →
    completes (.curCalNow h p) s fun t => ∀ n, n ∈ t.cur.calQueue ↔
      n ∈ s.cur.calQueue ∨ (n < 8 ∧ configured s (chString n) = true)) ∧
  (∀ h p n s, freshWr h p s → s.sys.run.acq = true → n < 8 →
    completes (.cmpTest h p) s fun t =>
      curCh t n = { curCh s n with
        test := (curCh s n).test || !configured s (chString n) || standsOpen s (chString n) })

/-- EST_CTRL releases and holds the reserve, which RESERVE_OPEN shows at once and the next jump of every string is
marked with (R303, R304), and takes every seen cell's reference from its SOC (R312). EST_CHAR starts a
characterisation whose conditions hold, refuses another, and aborts a run (R308, R310). CLR_CELL asks for the selected
cell's priors, and FREEZE stops or resumes the updates (R336, R344). -/
def Obligations.WritesEstimator : Prop :=
  (∀ h p s, freshWr h p s → s.est.released = false →
    completes (.reserveRelease h p) s fun t =>
      t.est.released = true ∧ t.est.status.getLsbD 11 = true ∧
      ∀ i < 4, (eStr t i).qRel = 0 ∧ Tab.get 0 t.est.mark i = 4) ∧
  (∀ h p s, freshWr h p s → s.est.released = true →
    completes (.reserveHold h p) s fun t => t.est.released = false ∧ t.est.status.getLsbD 11 = false ∧
      ∀ i < 4, Tab.get 0 t.est.mark i = 4) ∧
  (∀ h p c s, freshWr h p s → c ∈ cells s → (eCell s c).seen = true →
    completes (.ccReseed h p) s fun t => (eCell t c).zc = slotVal s c 0) ∧
  (∀ h s, freshWr h true s → s.est.chr.step = 15 → charOk s = true →
    writesTo h true (.estCharStart h true) s fun u =>
      u.est.chr.step = 1 ∧ u.est.chr.at0 = s.time.tns ∧ u.est.chr.req = 0) ∧
  (∀ h s, freshWr h true s → s.est.chr.step = 15 → charOk s = false →
    completes (.estCharStart h true) s fun t => t.est.chr.step = 15 ∧ t.est.chr.result = 5) ∧
  (∀ h p s, freshWr h p s → s.est.chr.step ≠ 15 →
    completes (.estCharAbort h p) s fun t => t.est.chr.step = 15 ∧ t.est.chr.result = 2 ∧ t.est.chr.req = 0) ∧
  (∀ h p s, freshWr h p s → s.sys.run.winnow = true → cellConf s (portOf s h.port).sel.win = true →
    completes (.winClrCell h p) s fun t =>
      t.win.clr = s.win.clr ++ [(portOf s h.port).sel.win] ∧ t.win.freeze = s.win.freeze) ∧
  (∀ h p on s, freshWr h p s →
    completes (.winFreeze h p on) s fun t => t.win = { s.win with freeze := on })

/-- STMT starts a statement unless one was made in the last 100 ms, a nonce written makes it no longer ready, and
ERA_ADV ends era 1 (R442, R443). FLUSH queues every changed object (R446). REC_CTRL clears the Chaff counters, flushes
the Granary and formats it (R475, R481). REC_PIN_ACK_HI acknowledges up to a later SEQ and to no earlier one (R472).
-/
def Obligations.WritesStores : Prop :=
  (∀ h p s, freshWr h p s → s.sys.run.ledger = true → s.nv.keys.ledger.val ≠ [] → s.ledg.stmt = none →
    (∀ x ∈ s.ledg.stmtAt, x + 100000000 ≤ s.time.tns) →
    completes (.ledgStmt h p) s fun t =>
      t.ledg.live.stmtSeq = (s.ledg.live.stmtSeq + 1) % 4294967296 ∧ t.ledg.stmtAt = some s.time.tns ∧
      t.ledg.ready = false ∧ t.ledg.gapStmt = s.ledg.live.gapNs ∧ t.ledg.stmt ≠ none) ∧
  (∀ h p v s, freshWr h p s →
    completes (.ledgNonceWrite h p false v) s fun t => t.ledg = { s.ledg with nonceLo := v, ready := false }) ∧
  (∀ h p v s, freshWr h p s →
    completes (.ledgNonceWrite h p true v) s fun t => t.ledg = { s.ledg with nonceHi := v, ready := false }) ∧
  (∀ h s, freshWr h true s → s.sys.run.ledger = true → s.ledg.live.era ≠ 2 →
    completes (.ledgEraAdv h true) s fun t => t.ledg.live.era = 2 ∧ t.ledg.live.era2Valid = true ∧
      t.ledg.live.era2 = ctrOf s.ledg.live 4) ∧
  (∀ h p oid s, freshWr h p s → s.sys.run.nv = true → nvChanged s oid = true →
    completes (.nvFlush h p) s fun t => t.nv.queue.any (·.oid == oid) = true) ∧
  (∀ h p s, freshWr h p s → s.sys.run.recorder = true →
    completes (.recChaffClr h p) s fun t => t.recd.chaff = [] ∧ t.recd.delta = []) ∧
  (∀ h p s, freshWr h p s → s.sys.run.recorder = true →
    completes (.recFlush h p) s fun t => t.recd.gran.flush = !granIdle s) ∧
  (∀ h s, freshWr h true s → s.sys.run.recorder = true → granRuns s = true →
    completes (.recFormat h true) s fun t =>
      t.recd.gran.pinMib = s.recd.pinCfg ∧ t.recd.gran.progSeq = s.recd.pub ∧ t.recd.gran.pinSeq = s.recd.pub ∧
      t.recd.gran.pin = { n := blocksIn s.recd.pinCfg s.recd.gran.unit }) ∧
  (∀ h p hi s, freshWr h p s →
    completes (.recPinAck h p hi) s fun t =>
      t.recd.ack = max s.recd.ack (hi.toNat % 65536 * 4294967296 + s.recd.ackLo.toNat))

/-- HOST_BUDGET takes a budget within its maxima and not below the streams' load (R514). PRES_CLOSE closes both
windows (R522). SEC_ADOPT adopts the pods named within presence, or says why not (R533). An EVT_PEND write clears the
bits written 1 (R588), an EVT_IRQMAP write stores its word (R589), and S3_ACK ends LEDGER_LOST alone (R590). PWR_CFG
sets AUTO_SLEEP, and the warning level with its arming when that changes (R542, R564). WAKE_OUT_CLR releases WAKE_OUT
(R563). -/
def Obligations.WritesHost : Prop :=
  (∀ h p t1s can s, freshWr h p s → 1 ≤ t1s.toNat → t1s.toNat ≤ 8000 → 1 ≤ can.toNat → can.toNat ≤ 2000 →
    portLoad s .t1s ≤ (t1s.toNat : Rat) → portLoad s .can ≤ (can.toNat : Rat) →
    completes (.hostBudgetWrite h p t1s can) s fun t => t.host.budT1s = t1s.toNat ∧ t.host.budCan = can.toNat) ∧
  (∀ h p s, freshWr h p s → s.sys.run.trust = true →
    completes (.presClose h p) s fun t => t.sec.btn = none ∧ t.sec.strap = none) ∧
  (∀ h m s, freshWr h true s → s.sys.run.trust = true → m ≠ 0 →
    writes h true (.secAdopt h true m) s
      (((List.range 4).filter fun i => m.getLsbD i).foldl (fun s i => adoptOne i s) (wrStart h true s))) ∧
  (∀ i s, adoptChk s i = 0 →
    (adoptOne i s).ledg.live.adoptCount = (s.ledg.live.adoptCount + 1) % 4294967296 ∧
    (adoptOne i s).ledg.podWant.getLsbD i = (decide (i < 4) || s.ledg.podWant.getLsbD i)) ∧
  (∀ i s, adoptChk s i ≠ 0 → adoptOne i s = { s with sec.adResult := adoptChk s i, sec.adString := i }) ∧
  (∀ h p i v s, freshWr h p s →
    writes h p (.evtPendClear h p i v) s { wrStart h p s with
      evt.pend := s.evt.pend &&& ~~~(v.setWidth 128 <<< (32 * i.val)) }) ∧
  (∀ h p i v s, freshWr h p s → (∀ k < 16, bits v (2 * k + 1) (2 * k) ≠ 3) →
    completes (.evtIrqmapWrite h p i v) s fun t =>
      ∀ b, t.evt.irqmap.getLsbD b = if b / 32 = i.val then v.getLsbD (b % 32) else s.evt.irqmap.getLsbD b) ∧
  (∀ h p s, freshWr h p s → completes (.evtS3Ack h p) s fun t => t.evt.s3Ledg = false ∧ t.evt.s3Brk = s.evt.s3Brk) ∧
  (∀ h p v s, freshWr h p s → allOpen s = true → bits v 1 0 ≠ s.nv.keys.pfwLevel →
    completes (.pwrCfgWrite h p v) s fun t => t.pwr.autoSleep = bits v 15 8 ∧ t.nv.keys.pfwLevel = bits v 1 0 ∧
      t.pwr.pfw = 0 ∧ t.pwr.armed = decide (bits v 1 0 = 0)) ∧
  (∀ h p v s, freshWr h p s → allOpen s = true → bits v 1 0 = s.nv.keys.pfwLevel →
    completes (.pwrCfgWrite h p v) s fun t => t.pwr.autoSleep = bits v 15 8 ∧ t.pwr.armed = s.pwr.armed) ∧
  (∀ h p s, freshWr h p s →
    completes (.pwrWakeOutClr h p) s fun t => t.pwr.wakeOut = false ∧ t.pwr.wakeOutEnd = none)

/-- PWR_CTRL leaves STANDBY, enters STANDBY, starts SLEEP entry, starts SHIP entry, where close requests are
disregarded, and resets, each under its conditions (R549 to R551, R558, R561, R563), and SLEEP waits where a self-test
must be restored first (R573). -/
def Obligations.WritesPower : Prop :=
  (∀ h p s, freshWr h p s → s.pwr.state = .standby →
    completes (.pwrRun h p) s fun t => t.pwr.state = .leaving) ∧
  (∀ h p s, freshWr h p s → s.pwr.state = .run → allOpen s = true → s.drv.key = false →
    completes (.pwrStandby h p) s fun t => t.pwr.state = .standby ∧ t.pwr.sleepAt = s.time.tns) ∧
  (∀ h p s, freshWr h p s → sleepOk s = true → bistBusy s = false →
    completes (.pwrSleep h p) s fun t => t.pwr.state = .sleepEntry ∧ t.pwr.step = 1) ∧
  (∀ h p s, freshWr h p s → sleepOk s = true → s.bist.state = .running →
    completes (.pwrSleep h p) s fun t => t.bist.state = .aborting ∧ t.bist.abort = 3 ∧ t.pwr.state = s.pwr.state ∧
      t.pwr.waitReq = s.pwr.waitReq ++ [(wrOp p, h.port, h.tag, 2)]) ∧
  (∀ h p s, freshWr h p s → (s.pwr.state = .run ∨ s.pwr.state = .standby) → bistBusy s = false →
    completes (.pwrShip h p) s fun t => t.pwr.state = .shipEntry ∧ t.pwr.step = 1 ∧ t.husk.closeReq = 0) ∧
  (∀ h p s, freshWr h p s → allOpen s = true → bistBusy s = false →
    writes h p (.pwrReset h p) s (pwrReset (wrStart h p s))) ∧
  (∀ s, (pwrReset s).sys.cause = 3 ∧ (pwrReset s).sys.step = 2 ∧ (pwrReset s).pwr.state = .run)

/-- BIST_CTRL.START of targets 0 to 5 starts a run over the range that BIST_RANGE names where nothing is against it,
and else names in REFUSE what is (R567, R568). ABORT stops a run and is answered when it has stopped (R573). The
target held stays one of the six. BIST_REPAIR stores the selected entry within presence and no other (R578). -/
def Obligations.WritesBist : Prop :=
  (∀ h p tg m s, freshWr h p s → s.sys.run.bist = true → tg.toNat < 6 → (bistChk tg.toNat m.mv m.ppm s).1 = 0 →
    completes (.bistStart h p tg m) s fun t => t.bist.state = .running ∧ t.bist.last = tg.toNat ∧
      t.bist.target = tg.toNat ∧ t.bist.region = s.bist.first ∧ t.bist.done = 0 ∧ t.bist.fail = false ∧ t.pwr.force = 1) ∧
  (∀ h p tg m s, freshWr h p s → s.sys.run.bist = true → tg.toNat < 6 → (bistChk tg.toNat m.mv m.ppm s).1 ≠ 0 →
    completes (.bistStart h p tg m) s fun t => t.bist.state = s.bist.state ∧
      t.bist.refuse = (bistChk tg.toNat m.mv m.ppm s).2) ∧
  (∀ h p s, freshWr h p s → s.bist.target < 6 → s.bist.state = .running →
    completes (.bistAbort h p) s fun t => t.bist.state = .aborting ∧ t.bist.abort = 1 ∧
      t.bist.waitAbort = s.bist.waitAbort ++ [(wrOp p, h.port, h.tag)]) ∧
  (∀ q off v s, s.bist.target < 6 → chkBist q off v s = 0 → (putBist q off v s).bist.target < 6) ∧
  (∀ h v s, freshWr h true s → repairChk (portOf s h.port).sel.repair v s = 0 →
    completes (.bistRepairWrite h true v) s fun t =>
      repairEnt t (portOf s h.port).sel.repair = repairOf v ∧
      ∀ e, e ≠ (portOf s h.port).sel.repair → repairEnt t e = repairEnt s e)

/-- An MRAM burst counts its corrections and leaves one less to do (R422). A write whose bursts are done, and whose
content has not changed since, makes its bank the newest of its object (R421, R422). Objects are queued on their
occasions (R431, R432). A last-gasp slot goes to the oldest place (R426), and TNS_SAVE to the time block (R386). -/
def Obligations.StoreWrites : Prop :=
  (∀ corr j rest s, s.nv.queue = j :: rest → j.body ≠ none → j.bursts > 1 →
    (∀ k ∈ rest.head?, nvPrio j.oid ≤ nvPrio k.oid) →
    completes (.nvBurstDone corr) s fun t =>
      t.nv.queue = { j with bursts := j.bursts - 1 } :: rest ∧ t.nv.corr = sat 16 (s.nv.corr + corr)) ∧
  (∀ j s, s.nv.queue = [j] → j.body ≠ none → j.bursts = 0 → j.again = false →
    (nvObj s j.oid).a.seq < 4294967296 → (nvObj s j.oid).b.seq < 4294967296 →
    completes .nvWriteDone s fun t => t.nv.queue = [] ∧ nvBank (nvObj t j.oid) =
      some { seq := nvNextSeq (nvObj s j.oid), body := j.body }) ∧
  (∀ s, s.sys.run.nv = true → completes .cellRecWrite s fun t => t.nv.queue.any (·.oid == 6) = true) ∧
  (∀ c s, s.sys.run.nv = true → cellConf s c = true → (wCell s c).dirtyAt ≠ none →
    completes (.ztabWrite c) s fun t => t.nv.queue.any (·.oid == 0x100 + c) = true) ∧
  (∀ s, s.sys.run.nv = true → s.sys.run.tally = true →
    completes .tallyWrite s fun t => t.nv.queue.any (·.oid == 7) = true) ∧
  (∀ s, s.sys.run.timebase = true → s.nv.refuse = false →
    completes .tnsSaveWrite s fun t => t.nv.tb.tnsSave = s.time.tns ∧ t.nv.tb.seq = (s.nv.tb.seq + 1) % 4294967296 ∧
      (t.nv.tbA = some t.nv.tb ∨ t.nv.tbB = some t.nv.tb)) ∧
  (∀ x rest s, s.nv.lgWait = x :: rest →
    completes .lastGaspDone s fun t => t.nv.lgWait = rest ∧
      Tab.get none t.nv.lg (lgNext s).1 = some { x with seq := (lgNext s).2 } ∧ t.nv.tb.tnsSave = s.time.tns)

/-- A ledger checkpoint captures the live counters (R437). A pod checkpoint forms the block; its confirmation by every
node stores it and clears THRU_MWH (R439). A statement whose checkpoint is durable is signed and handed out (R443).
The rainflow and the dwell bins of every cell go into its lifetime bins and are cleared (R432). -/
def Obligations.LedgerCheckpoints : Prop :=
  (∀ s, s.sys.run.ledger = true →
    completes .ledgerCheckpoint s fun t => t.ledg.capture = some s.ledg.live ∧ t.nv.queue.any (·.oid == 2) = true) ∧
  (∀ i s, i < 4 → configured s i = true → s.ledg.podForeign.getLsbD i = false → s.sys.run.ledger = true →
    s.ledg.podWant.getLsbD i = true → checkpointBusy s = false →
    completes (.podCheckpoint i) s fun t => t.ledg.podWant.getLsbD i = false ∧ Tab.get [] t.ledg.podRun i = podBlock s i) ∧
  (∀ i s, i < 4 → configured s i = true → s.ledg.podForeign.getLsbD i = false → s.sys.run.ledger = true →
    s.ledg.podWant.getLsbD i = false → (podOf s.ledg.live i).thru ≥ 1000000 →
    completes (.podCheckpoint i) s fun t => t.ledg.podWant.getLsbD i = true) ∧
  (∀ i s, Tab.get [] s.ledg.podRun i ≠ [] → (∀ rp ∈ stringNodes s i, (nodeOf s rp.1 rp.2).podOk = true) →
    completes (.podCheckpointConfirmed i) s fun t =>
      Tab.get [] t.ledg.podRun i = [] ∧ (podOf t.ledg.live i).thru = 0 ∧
      (podOf t.ledg.live i).cur = Tab.get [] s.ledg.podRun i) ∧
  (∀ b s, s.ledg.stmt = some b → checkpointBusy s = false → s.ledg.ckpt.stmtSeq = fld b 8 4 →
    exec .statementReady s = .next { s with
      ledg.stmt := none
      ledg.out := b.take 12 ++ le 4 s.ledg.ckptSeq ++ b.drop 16 ++
        hmac s.nv.keys.ledger.val (b.take 12 ++ le 4 s.ledg.ckptSeq ++ b.drop 16)
      ledg.ready := ((b.take 12 ++ le 4 s.ledg.ckptSeq ++ b.drop 16).drop 24).take 8 == nonceBytes s }) ∧
  (∀ c s, s.sys.run.tally = true → c ∈ cells s →
    completes .rainflowFlush s fun t => (tCell t c).rfFrm = s.time.frm ∧ (nvObj t 7).dirty = true ∧
      ∀ b < 24, Tab.get 0 (tCell t c).bins b = 0) ∧
  (∀ c s, s.sys.run.tally = true → c ∈ cells s →
    completes .dwellFlush s fun t => (tCell t c).dwFrm = s.time.frm ∧ (nvObj t 7).dirty = true ∧
      ∀ b < 24, Tab.get 0 (tCell t c).bins b = Tab.get 0 (tCell s c).bins b) ∧
  (∀ b t, b < 24 → Tab.get 0 (flushBins 0 24 t).life b = sat 32 (Tab.get 0 t.life b + Tab.get 0 t.bins b)) ∧
  (∀ b t, 24 ≤ b → b < 40 → Tab.get 0 (flushBins 24 16 t).life b = sat 32 (Tab.get 0 t.life b + Tab.get 0 t.bins b)) ∧
  (∀ b t, 24 ≤ b → Tab.get 0 (flushBins 0 24 t).bins b = Tab.get 0 t.bins b)

/-- A current step offers an estimate for each cell of its string (R329). A rich window offers its result and closes,
and one that must end closes with none (R331). A tail that ends offers its fit (R332), whose values are free
(Assumption 5). -/
def Obligations.WinnowOffers : Prop :=
  (∀ i n s, winOn s = true → stepEvent s i = some n → s.win.freeze = false →
    completes (.winStepEvent i) s fun t =>
      t.win.offers = s.win.offers ++ (stringCells s i).filterMap (stepOffer s i n) ∧
      (Tab.get {} t.win.str i).evAt = some s.time.tns) ∧
  (∀ c z i s, (wCell s c).win = some z → cellString s c = some i → z.pulse = false → winChar s = false →
    richTest s z = true → (wCell s c).winEnd = false → rich s i z = true → s.win.freeze = false →
    completes (.winWindowClose c) s fun t =>
      t.win.offers = s.win.offers ++ (winResult s c z).toList ∧ (wCell t c).win = none) ∧
  (∀ c z s, (wCell s c).win = some z → z.pulse = true → s.win.freeze = false →
    completes (.winWindowClose c) s fun t =>
      t.win.offers = s.win.offers ++ (winResult s c (pulseBlocks z)).toList ∧ (wCell t c).win = none) ∧
  (∀ c z s, (wCell s c).win = some z → z.pulse = false → (wCell s c).winEnd = true →
    completes (.winWindowClose c) s fun t => t.win.offers = s.win.offers ∧ (wCell t c).win = none ∧ (wCell t c).winEnd = false) ∧
  (∀ c x s, (wCell s c).tail = some x → x.ended = true → s.win.freeze = false →
    completes (.winTailEnd c) s fun t =>
      t.win.offers = s.win.offers ++ (tailResult s c x).toList ∧ (wCell t c).tail = none)

/-- Each completed step of a characterisation starts the next with its current request, and the last ends the run and
era 1 (R308). A step beyond its bound, and a current out of its band for 30 s, end it with RESULT 4 (R310). -/
def Obligations.Characterises : Prop :=
  (∀ k s, charDone s = true → s.est.chr.step = k → 1 ≤ k → k ≤ 6 →
    makes .charStepDone s fun u => u.est.chr.step = k + 1 ∧ u.est.chr.at0 = s.time.tns ∧
      u.est.chr.req = (if k ≤ 2 then -(halfCp s) else if k = 4 then halfCp s else 0)) ∧
  (∀ s, s.est.chr.step = 7 →
    completes .charStepDone s fun t => t.est.chr.step = 15 ∧ t.est.chr.result = 1 ∧ t.est.chr.req = 0 ∧ t.ledg.live.era = 2) ∧
  (∀ s, s.est.chr.step ≠ 15 → s.time.tns > s.est.chr.at0 + charBound s.est.chr.step * 1000000000 →
    completes .charStepTimeout s fun t => t.est.chr.step = 15 ∧ t.est.chr.result = 4 ∧ t.est.chr.req = 0) ∧
  (∀ x s, s.est.chr.step ≠ 15 → s.est.chr.outAt = some x → s.time.tns ≥ x + 30000000000 →
    completes .charCurrentTimeout s fun t => t.est.chr.step = 15 ∧ t.est.chr.result = 4 ∧ t.est.chr.outAt = none)

/-- Out of SLEEP, three comparisons beyond 500 ppm lose the crystal, and 100 within it lock to it again; the count
runs on across commands. Three beyond 5 % without a crystal stop the timebase (R383, R385). A first SYNC that its link
delivers sets SEG_OFS (R389), one that it does not deliver leaves the time alone (R485), and 5 s without SYNC hold the
servo's last frequency (R391). -/
def Obligations.TimeKeeping : Prop :=
  (∀ a b c l s, s.pwr.state ≠ .sleep → s.time.xtalLock = true → absI a > 500 → absI b > 500 → absI c > 500 →
    completes (.xtalLost (l ++ [a, b, c])) s fun t => t.time.xtalLock = false ∧ t.time.xtalLost = true) ∧
  (∀ d s, s.pwr.state ≠ .sleep → s.time.xtalLock = true →
    completes (.xtalLost [d]) s fun t =>
      t.time.xtalLock = !(decide (absI d > 500) && decide (s.time.xtalRun ≥ 2))) ∧
  (∀ l s, s.pwr.state ≠ .sleep → s.time.xtal = true → s.time.xtalLock = false → s.time.xtalLost = true → l.length = 100 →
    (∀ d ∈ l, absI d ≤ 500) →
    completes (.xtalRelock l) s fun t => t.time.xtalLock = true ∧ t.time.xtalLost = false) ∧
  (∀ a b c l s, s.pwr.state ≠ .sleep → s.time.xtal = false → s.sys.run.timebase = true → absI a > 50000 →
    absI b > 50000 → absI c > 50000 →
    completes (.trefFault (l ++ [a, b, c])) s fun t => t.sys.run.timebase = false) ∧
  (∀ l sseq h s, portRuns s l.port = true → linkTakes 0 l s = true → servoPort s = some l.port → s.time.syncEn = true →
    s.time.segOfs = none →
    completes (.sync l sseq false h) s fun t =>
      t.time.segOfs = some (segOfsFor h.toNat ((s.time.tns - s.host.syncDly : Nat) : Int) s.sys.t0) ∧
      t.time.servo = .acquire ∧ t.time.syncSeen = some s.time.tns) ∧
  (∀ l sseq two h s, portRuns s l.port = false ∨ linkTakes 0 l s = false →
    completes (.sync l sseq two h) s fun t => t.time = s.time) ∧
  (∀ x s, s.time.syncSeen = some x → (s.time.servo = .acquire ∨ s.time.servo = .locked) → s.time.tns - x ≥ 5000000000 →
    exec .syncHoldover s = .next { s with
      time.servo := .holdover, time.rate := s.time.freq, time.lockCnt := 0, time.loseCnt := 0 })

/-- A measurement of the sensors is taken (R406). Two measurements enter warning and throttle and ten leave them, the
throttle not while a hold stands (R409, R411). Shutdown stops new writes, finishes its burst, writes its record,
switches off, and the device starts again when the P die has cooled ten times over (R413, R414). -/
def Obligations.ThermalLevels : Prop :=
  (∀ v s, s.sys.run.thermP = true → s.sys.run.core = true → s.sys.run.thermL = true → s.therm.sens = [] →
    -32768 ≤ v → v ≤ 32767 →
    completes (.thermalMeasurement (List.replicate 16 (v, true)) (List.replicate 4 (v, true))) s fun t =>
      t.therm.measured = true ∧ t.therm.hi = some (v, 0) ∧ t.therm.shutHit = decide (v ≥ s.therm.shut) ∧
      t.therm.warnIn = countUp (decide (v ≥ s.therm.warn)) s.therm.warnIn 2) ∧
  (∀ s, s.therm.warnOn = false → s.therm.warnIn ≥ 2 →
    completes .thermalWarning s fun t => t.therm.warnOn = true ∧ t.therm.warnOut = 0) ∧
  (∀ s, s.therm.warnOn = true → s.therm.warnOut ≥ 10 →
    exec .thermalWarningEnd s = .next { s with therm.warnOn := false, therm.warnIn := 0 }) ∧
  (∀ s, s.therm.throtOn = false → s.therm.throtIn ≥ 2 →
    completes .thermalThrottle s fun t => t.therm.throtOn = true ∧ t.therm.throtOut = 0 ∧ t.therm.throtAt = s.time.tns) ∧
  (∀ s, s.therm.throtOn = true → s.therm.throtOut ≥ 10 → s.therm.failHold = none → s.therm.lBlind = false →
    completes .thermalThrottleEnd s fun t => t.therm.throtOn = false ∧ t.therm.throtIn = 0) ∧
  (∀ x s, s.therm.failHold = some x → s.time.tns ≥ x →
    exec .failHoldExpiry s = .next { s with therm.failHold := none, therm.throtOut := 0 }) ∧
  (∀ s, s.therm.shutHit = true → s.sys.run.core = true → shutMay s = true →
    completes .thermalShutdown s fun t => t.therm.shutStep = 1 ∧ t.nv.refuse = true ∧ t.recd.gran.refuse = true ∧
      t.therm.lastSensor = (s.therm.hi.getD (0, 0)).2 ∧ t.pwr.pfVsup = none) ∧
  (∀ s, s.therm.shutStep = 1 → completes .shutdownBurstDone s fun t => t.therm.shutStep = 4) ∧
  (∀ m p s, s.therm.shutStep = 4 → s.pwr.pfVsup = none →
    completes (.shutdownRecordWritten m p) s fun t => t.pwr.state = .thermOff ∧ t.sys.run.core = false) ∧
  (∀ s, s.pwr.state = .thermOff → s.pwr.pfHold = false → s.therm.restartCnt ≥ 10 → s.therm.noRestart = false →
    completes .thermalRestart s fun t => t.pwr.state = .run ∧ t.sys.cause = 1 ∧ t.sys.step = 2 ∧
      t.sys.bootStart = s.time.tns)

/-- An admitted event takes the next SEQ and a staging buffer, and one beyond its rate is counted in Chaff (R455,
R456, R460). An S0 or S1 event that has waited 100 us goes to Chaff (R457). Records are published in order of SEQ
(R456). Every 10 s the Chaff deltas are published and cleared (R461). -/
def Obligations.RecorderAdmits : Prop :=
  (∀ w rest u s, s.sys.run.recorder = true → s.recd.produced = w :: rest → w.ev.code ≠ 0x0980 → w.dig = false →
    w.since = none → rateLimit w s = some u → roomFor u = true →
    completes .eventAdmit s fun t => t.recd.next = s.recd.next + 1 ∧
      t.recd.staging = s.recd.staging ++ [recOf w s]) ∧
  (∀ w rest s, s.sys.run.recorder = true → s.recd.produced = w :: rest → w.ev.code ≠ 0x0980 → w.dig = false →
    w.since = none → rateLimit w s = none →
    completes .eventAdmit s fun t => t.recd.next = s.recd.next ∧ t.recd.staging = s.recd.staging ∧
      Tab.get 0 t.recd.chaff w.ev.code = sat 32 (Tab.get 0 s.recd.chaff w.ev.code + 1) ∧
      t.recd.drop = sat 32 (s.recd.drop + 1)) ∧
  (∀ w rest x s, s.recd.produced = w :: rest → w.since = some x → waitSev s w < 2 → exempt w = false →
    s.time.tns - x ≥ 100000 →
    completes .admissionTimeout s fun t => t.recd.produced = rest ∧
      Tab.get 0 t.recd.delta w.ev.code = sat 32 (Tab.get 0 s.recd.delta w.ev.code + 1)) ∧
  (∀ q r rest s, s.recd.staging = r :: rest → r.seq = q.toNat → (∀ x ∈ rest, x.seq ≠ q.toNat) → (∀ x ∈ rest, x.done = false) →
    completes (.recordComplete q) s fun t => t.recd.pub = r.seq ∧ t.recd.staging = rest) ∧
  (∀ q s, (∀ r ∈ s.recd.staging.head?, r.seq ≠ q.toNat ∧ r.done = false) →
    completes (.recordComplete q) s fun t => t.recd.pub = s.recd.pub) ∧
  (∀ s, s.sys.run.recorder = true → s.time.tns / 10000000000 > s.recd.chaffAt / 10000000000 →
    completes .chaffSummary s fun t => t.recd.chaffAt = s.time.tns ∧ ∀ c, Tab.get 0 t.recd.delta c = 0 ∨
      (s.recd.delta.any fun e => e.2 != 0) = false)

/-- A page program stores the next record of its region and moves the region's position, and one that fails retires
its block (R474). An erase readies the block ahead (R471). An operation that takes too long retires its block (R474).
A Granary that did not respond runs again or is tried 10 s later (R474). When records go to it is read so (Assumption
72). -/
def Obligations.GranaryWorks : Prop :=
  (∀ cs addr r b enter s, granTakes s = true → nextProg s false = some r → progBlock s (regionOf s false) r = some (b, enter) →
    completes (.granaryProgramDone false false cs addr) s fun t =>
      t.recd.gran.progSeq = r.seq ∧ t.recd.gran.main.pos = some b ∧ t.recd.gran.retired = s.recd.gran.retired) ∧
  (∀ cs addr r b enter s, granTakes s = true → nextProg s true = some r → progBlock s (regionOf s true) r = some (b, enter) →
    completes (.granaryProgramDone true false cs addr) s fun t =>
      t.recd.gran.pinSeq = r.seq ∧ t.recd.gran.pin.pos = some b ∧ t.recd.gran.progSeq = s.recd.gran.progSeq) ∧
  (∀ p cs addr r b enter s, granTakes s = true → nextProg s p = some r → progBlock s (regionOf s p) r = some (b, enter) →
    settlesTo (.granaryProgramDone p true cs addr) s (granFail p b 2 cs addr s)) ∧
  (∀ p cs addr b s, granOn s = true → (aheadTwo (regionOf s p)).find? (fun b => !(blockOf (regionOf s p) b).erased) = some b →
    completes (.granaryEraseDone p false cs addr) s fun t => (blockOf (regionOf t p) b).erased = true ∧
      (blockOf (regionOf t p) b).recs = []) ∧
  (∀ p cs addr b s, granOn s = true → (aheadTwo (regionOf s p)).find? (fun b => !(blockOf (regionOf s p) b).erased) = some b →
    settlesTo (.granaryTimeout p cs addr) s (granFail p b 4 cs addr s)) ∧
  (∀ p b op cs addr s, (blockOf (regionOf (granFail p b op cs addr s) p) b).retired = true ∧
    (granFail p b op cs addr s).recd.gran.retired = sat 16 (s.recd.gran.retired + 1)) ∧
  (∀ x s, s.recd.gran.retryAt = some x → s.sys.run.granary = true → s.recd.gran.state = .notResp → s.time.tns ≥ x →
    completes (.granaryRestart false) s fun t => t.recd.gran.state = .notResp ∧
      t.recd.gran.retryAt = some (x + 10000000000)) ∧
  (∀ x s, s.recd.gran.retryAt = some x → s.sys.run.granary = true → s.recd.gran.state = .notResp → s.time.tns ≥ x →
    vflOk s = true →
    completes (.granaryRestart true) s fun t => t.recd.gran.state = .running ∧ t.recd.gran.retryAt = none)

/-- A press of three samples is timed; its release after 0.5 to 5 s opens a button window of 120 s and another release
opens none. One held beyond 10 s is stuck and ignored until 1 s released (R520). A window that has run out closes
(R522). The seal loop opens and closes on three samples (R523), and each break counts (R524). -/
def Obligations.PresenceAndSeal : Prop :=
  (∀ s, s.pins.btn = false → s.sys.run.trust = true → s.sec.ignore = false →
    exec (.presBtnPress true true true) s = .next { s with
      pins.btn := true, sec.relAt := none, sec.pressAt := some s.time.tns }) ∧
  (∀ x s, s.pins.btn = true → s.sys.run.trust = true → s.sec.pressAt = some x → 500000000 ≤ s.time.tns - x →
    s.time.tns - x ≤ 5000000000 →
    completes (.presBtnRelease false false false) s fun t => t.pins.btn = false ∧ t.sec.pressAt = none ∧
      t.sec.btn = some (s.time.tns + 120000000000) ∧ t.sec.strap = s.sec.strap) ∧
  (∀ x s, s.pins.btn = true → s.sys.run.trust = true → s.sec.pressAt = some x →
    (s.time.tns - x < 500000000 ∨ s.time.tns - x > 5000000000) →
    completes (.presBtnRelease false false false) s fun t => t.pins.btn = false ∧ t.sec.pressAt = none ∧
      t.sec.btn = s.sec.btn) ∧
  (∀ x s, s.sec.pressAt = some x → s.sys.run.trust = true → s.time.tns > x + 10000000000 →
    completes .presStuck s fun t => t.sec.stuck = true ∧ t.sec.ignore = true ∧ t.sec.pressAt = none) ∧
  (∀ x s, s.sec.relAt = some x → s.sys.run.trust = true → s.sec.ignore = true → s.pins.btn = false →
    s.time.tns ≥ x + 1000000000 →
    exec .presStuckClear s = .next { s with sec.ignore := false, sec.stuck := false, sec.relAt := none }) ∧
  (∀ e s, s.sys.run.trust = true → s.sec.btn = some e → e ≤ s.time.tns →
    completes (.presenceExpiry false) s fun t => t.sec.btn = none ∧ t.sec.strap = s.sec.strap) ∧
  (∀ e s, s.sys.run.trust = true → s.sec.strap = some e → e ≤ s.time.tns →
    completes (.presenceExpiry true) s fun t => t.sec.strap = none ∧ t.sec.btn = s.sec.btn) ∧
  (∀ s, s.sys.run.trust = true → s.sec.sealOpen = false →
    completes (.sealBreak false false false) s fun t => t.sec.sealOpen = true ∧ t.nv.keys.sealOpen = true ∧
      t.nv.keys.tamper = sat 32 (s.nv.keys.tamper + 1)) ∧
  (∀ s, s.sys.run.trust = true → s.sec.sealOpen = true →
    completes (.sealRestored true true true) s fun t => t.sec.sealOpen = false ∧ t.nv.keys.sealOpen = false ∧
      t.nv.keys.tamper = s.nv.keys.tamper)

/-- A region that completes is counted and the last one ends the run with its result (R569, R571). A condition that
fails aborts the run (R567). A restored run ends INCOMPLETE (R573). A background run tests the next region, or is
skipped (R577). -/
def Obligations.SelfTests : Prop :=
  (∀ sig ecc s, s.bist.state = .running → s.bist.last ≠ 3 → s.bist.last ≠ 4 →
    s.bist.done + bistSteps s.bist.last < s.bist.total →
    completes (.bistRegionDone [] sig ecc) s fun t => t.bist.state = .running ∧ t.bist.region = s.bist.region + 1 ∧
      t.bist.done = s.bist.done + bistSteps s.bist.last ∧ t.bist.fail = s.bist.fail) ∧
  (∀ sig ecc s, s.bist.state = .running → s.bist.last ≠ 3 → s.bist.last ≠ 4 →
    s.bist.done + bistSteps s.bist.last = s.bist.total → s.bist.fail = false →
    completes (.bistRegionDone [] sig ecc) s fun t => t.bist.state = .idle ∧ t.bist.result = 1) ∧
  (∀ a b fs sig ecc s, s.bist.state = .running → s.bist.last ≠ 3 → s.bist.last ≠ 4 → s.bist.fail = false →
    s.bist.done + bistSteps s.bist.last = s.bist.total →
    completes (.bistRegionDone ((a, b) :: fs) sig ecc) s fun t => t.bist.state = .idle ∧ t.bist.result = 2 ∧
      t.bist.failAddr = BitVec.ofNat 32 a ∧ t.bist.failBit = b ∧ t.bist.failCnt = sat 16 (s.bist.failCnt + (fs.length + 1))) ∧
  (∀ mv ppm s, bistCond mv ppm s = false → s.bist.state = .running →
    exec (.bistConditionLost mv ppm) s = .next { s with bist.state := .aborting, bist.abort := 2 }) ∧
  (∀ n fs s, s.bist.state = .aborting → s.bist.total > 0 → s.pwr.waitReq = [] →
    completes (.bistRestored n fs) s fun t => t.bist.state = .idle ∧ t.bist.result = 3 ∧ t.bist.waitAbort = []) ∧
  (∀ mv ppm ecc s, s.sys.run.bist = true → s.bist.period ≠ 0 → bistBusy s = false →
    s.time.tns - s.bist.bgAt ≥ s.bist.period * 1000000000 → bistCond mv ppm s = true →
    completes (.bistBackground mv ppm ecc) s fun t => t.bist.state = .running ∧ t.bist.bg = true ∧ t.bist.last = 0 ∧
      t.bist.region = s.bist.bgNext ∧ t.bist.total = 10) ∧
  (∀ mv ppm ecc s, s.sys.run.bist = true → s.bist.period ≠ 0 → bistBusy s = false →
    s.time.tns - s.bist.bgAt ≥ s.bist.period * 1000000000 → bistCond mv ppm s = false →
    exec (.bistBackground mv ppm ecc) s = .next { s with
      bist.bgAt := s.time.tns, bist.skips := sat 16 (s.bist.skips + 1) })

/-- The steward takes an entry of the highest severity of its error queue when it is free, a higher one suspends the
handler, and no other does (R583). A reset of the steward stops what it runs and starts again after step 5 with CAUSE
4, Husk running on (R585). -/
def Obligations.StewardHandles : Prop :=
  (∀ e s, s.sys.run.steward = true → s.evt.handling.length ≤ 1 → bestEnt s.evt.queue = some e → e.sev > 0 →
    makes .errqHandle s fun u => u.evt.handling = [e] ∧ u.evt.queue = dropCode e.code s.evt.queue) ∧
  (∀ e h rest s, s.sys.run.steward = true → s.evt.handling = h :: rest → bestEnt s.evt.queue = some e → e.sev > h.sev →
    exec .errqPreempt s = .next { s with
      evt.queue := dropCode e.code s.evt.queue, evt.handling := e :: h :: rest }) ∧
  (∀ e h rest s, s.sys.run.steward = true → s.evt.handling = h :: rest → bestEnt s.evt.queue = some e → e.sev ≤ h.sev →
    exec .errqPreempt s = .next s) ∧
  (∀ l e, bestEnt l = some e → e ∈ l ∧ ∀ x ∈ l, x.sev ≤ e.sev) ∧
  (∀ b s, s.sys.run.steward = true →
    completes (.stewardReset b) s fun t => t.sys.step = 5 ∧ t.sys.cause = 4 ∧ t.sys.run.steward = false ∧
      t.sys.run.kernel = false ∧ t.sys.run.husk = s.sys.run.husk ∧ t.sys.run.acq = s.sys.run.acq)

/-- A chunk is staged at its offset and replaces what lay there (R52); while a commit is in progress it is BUSY. A
commit fixes the topology and the bases that a validation compares with, and starts it; it refuses with its code and
place, or asks for presence, or starts the slot write (R49, R50, R53). The slot written waits for its activation, and
a slot that fails leaves the earlier image in force with a code that is free (R53, R57; Assumption 66). -/
def Obligations.ImageUploads : Prop :=
  (∀ h off data s, freshReq 0x09 h s = true → commitBusy s = false → off % 4 = 0 → data.length % 4 = 0 →
    off + data.length ≤ 2097152 →
    completes (.imgChunk h off data) s fun t =>
      ∀ i, Tab.get 0 t.img.stage i = if off ≤ i ∧ i < off + data.length then data.getD (i - off) 0
        else Tab.get 0 s.img.stage i) ∧
  (∀ h off data s, freshReq 0x09 h s = true → commitBusy s = true →
    ∃ u, answers 0x09 h (.imgChunk h off data) s (.nak 1 0) u ∧ u.img = s.img) ∧
  (∀ h len s, freshReq 0x0A h s = true → commitBusy s = false → s.img.state ≠ .activating → s.img.coldStep = 0 →
    completes (.imgCommit h len) s fun t => t.img.state = .validating ∧ t.img.stage = s.img.stage ∧
      t.img.commit = some { port := h.port, tag := h.tag, len := len, presence := presOpen s,
                            topo := s.cfg.topo, basis := s.cfg.basis }) ∧
  (∀ c f s, s.img.commit = some c → s.img.state = .validating →
    imgCheck s (stageBytes (min c.len 2097152) 0 s.img.stage) c.len = some f →
    completes .imgValidationDone s fun t => t.img.commit = none ∧ t.img.err = f.err ∧ t.img.errSect = f.sect ∧
      t.img.errLoc = f.loc) ∧
  (∀ c b s, s.img.commit = some c → s.img.state = .validating → b = stageBytes (min c.len 2097152) 0 s.img.stage →
    imgCheck s b c.len = none → needsPresence s c b = true → c.presence = false →
    completes .imgValidationDone s fun t => t.img.commit = none ∧ t.img.err = 0x1D) ∧
  (∀ c b s, s.img.commit = some c → s.img.state = .validating → b = stageBytes (min c.len 2097152) 0 s.img.stage →
    imgCheck s b c.len = none → (needsPresence s c b = true → c.presence = true) → s.img.pending = .none →
    completes .imgValidationDone s fun t => t.img.state = .writing ∧
      t.img.commit = some { c with needs := needsPresence s c b, hot := isHot s c b, target := targetSlot s,
                                   chg := sectChanges s c b } ∧
      slotOf t (targetSlot s) = { bytes := b, valid := false, torn := true }) ∧
  (∀ c s, s.img.commit = some c → s.img.state = .writing →
    completes (.imgSlotWriteDone true) s fun t => t.img.commit = none ∧ t.img.err = 0 ∧ t.img.state = .waiting ∧
      t.img.waiting = c.target ∧ t.img.pending = (if c.hot then .hot else .cold) ∧
      t.img.hotAt = (if c.hot then some (s.time.frm + 2) else none) ∧
      slotOf t c.target = { slotOf s c.target with valid := true, torn := false }) ∧
  (∀ c s, s.img.commit = some c → s.img.state = .writing →
    completes (.imgSlotWriteDone false) s fun t => t.img.commit = none ∧ t.img.err = slotFail.err ∧
      t.img.errSect = slotFail.sect ∧ t.img.errLoc = slotFail.loc ∧ t.img.pending = s.img.pending ∧
      slotOf t c.target = slotOf s c.target)

/-- A hot image takes effect at the boundary it waits for (R59). A cold one holds every string on the ROM fallback
netlist, loads its protection or goes back, enumerates when its topology changes, loads its models and then releases
the hold (R60, R61). -/
def Obligations.ImageActivates : Prop :=
  (∀ a s, s.img.hotAt = some a → s.img.pending = .hot → frmLe a s.time.frm = true → atBoundary s = true →
    completes .hotActivation s fun t => t.img.active = s.img.waiting ∧ t.img.pending = .none ∧ t.img.hotAt = none ∧
      t.img.waiting = .sprout ∧ t.cfg.topo = s.cfg.topo ∧ t.cfg.drv = s.cfg.drv) ∧
  (∀ s, s.img.pending = .cold → s.img.coldStep = 0 → commitBusy s = false → atBoundary s = true → allOpen s = true →
    noSeqBusy s = true →
    completes .coldActivationHold s fun t => t.img.coldStep = 1 ∧ t.img.state = .activating ∧ t.husk.hold = true ∧
      t.husk.nlSrc = (if s.husk.nlSrc = .none then .none else .rom)) ∧
  (∀ s, coldAt 1 s = true →
    completes (.coldActivationLoadProtection true) s fun t => t.img.coldStep = 2 ∧ t.cfg.drv = (coldCfg s).drv ∧
      t.cfg.sec = (coldCfg s).sec ∧ (s.husk.nlSrc ≠ .none → s.husk.romHeld = false → t.husk.nlSrc = .image)) ∧
  (∀ s, coldAt 1 s = true → s.img.coldBack = false →
    completes (.coldActivationLoadProtection false) s fun t => t.img.coldBack = true ∧ t.img.coldStep = 1 ∧
      t.img.pending = .none ∧ (slotOf t s.img.waiting).valid = false) ∧
  (∀ s, coldAt 2 s = true → coldTopo s = false →
    exec .coldActivationEnumerate s = .next { s with img.coldStep := 3 }) ∧
  (∀ s, coldAt 2 s = true → coldTopo s = true →
    completes .coldActivationEnumerate s fun t => t.img.coldStep = 3 ∧ (ringOf t 0).enumReq = true ∧
      (ringOf t 1).enumReq = true) ∧
  (∀ s, coldAt 3 s = true → ringsSettled s = true →
    completes (.coldActivationLoadModels true) s fun t => t.img.coldStep = 4) ∧
  (∀ s, coldAt 4 s = true →
    completes .coldActivationComplete s fun t => t.img.coldStep = 0 ∧ t.img.pending = .none ∧ t.husk.hold = false ∧
      t.img.active = coldSrc s ∧ t.img.waiting = .sprout)

/-- A valid supply starts a device that was off (R67). Each step ends with what it starts running, and every step that
it is the condition of may then begin, steps 4, 5 and 6 side by side (R67, R70). A step that has not ended by its
bound is noted late (R69). Under Sprout the status frame goes out on CAN FD (R83). -/
def Obligations.StartsUp : Prop :=
  (∀ v s, v ≥ 5600 → s.pwr.state = .off →
    completes (.vsupValid v) s fun t => t.pwr.state = .run ∧ t.sys.step = 1 ∧ t.sys.run.buck = true ∧ t.sys.run.core = false ∧
      t.sys.cause = (if s.pwr.brown then 2 else 0) ∧ t.sys.bootStart = s.time.tns) ∧
  (∀ s, s.sys.step = 1 → s.sys.run.buck = true →
    completes .startupPDieUp s fun t => t.sys.step = 2 ∧ t.sys.run.thermP = true ∧ t.sys.run.drivers = true ∧ t.pwr.pg = 1) ∧
  (∀ k a b o s, s.sys.step = 2 → s.pwr.state = .run → s.sys.run.core = false → s.pwr.pg.getLsbD 0 = true →
    s.therm.preHot = false → s.sys.run.drivers = true → s.pwr.coreAt = none →
    completes (.startupCoreUp k a b o) s fun t => t.sys.step = 3 ∧ t.sys.run.core = true ∧ t.sys.run.trust = true ∧
      t.pwr.pg = 31 ∧ t.pwr.vcore = 2 ∧ t.sys.run.acq = false) ∧
  (∀ c p0 p1 s, 3 ≤ s.sys.step → s.sys.strapped = false →
    completes (.strapLatch c c c p0 p1 true) s fun t => t.sys.strapped = true ∧ t.sys.chem = c.toNat ∧
      t.sys.chemUnstable = false ∧ t.sys.presStrap = false ∧ t.sec.strap = s.sec.strap ∧ t.husk.net.limits = startLimits t) ∧
  (∀ c0 c1 c2 p0 p1 s, 3 ≤ s.sys.step → s.sys.strapped = false → (c0 ≠ c1 ∨ c1 ≠ c2) →
    completes (.strapLatch c0 c1 c2 p0 p1 false) s fun t => t.sys.chem = 3 ∧ t.sys.chemUnstable = true ∧
      t.sys.presStrap = true ∧ t.sec.strap = some (s.time.tns + 28800000000000)) ∧
  (∀ a b fa fb net rom s, 3 ≤ s.sys.step → s.sys.strapped = true → s.img.selected = false →
    completes (.startupImageSelect a b fa fb net rom) s fun t => t.sys.step = max 4 s.sys.step ∧ t.sys.run.husk = true ∧
      t.img.selected = true ∧ t.sys.keyAt4 = t.drv.key) ∧
  (∀ x bad s, s.sys.run.core = true → s.img.selected = true → s.sys.run.timebase = false → s.time.trefBad = false →
    ringsSettled s = true →
    completes (.startupRings x bad) s fun t => t.sys.run.timebase = true ∧ t.sys.run.acq = true ∧
      t.sys.step = max 5 s.sys.step ∧ t.time.xtal = x ∧ t.time.xtalLock = x) ∧
  (∀ bad rb hb ts s, s.sys.run.core = true → 3 ≤ s.sys.step → s.sys.run.steward = false → s.evt.stewHeld = false →
    completes (.startupSteward bad rb hb ts) s fun t => t.sys.step = max 6 s.sys.step ∧ t.sys.run.recorder = true) ∧
  (∀ bad a b c d ts s, stepDone5 s = true → s.sys.run.steward = true → s.sys.step < 7 →
    completes (.startupEstimate bad a b c d ts) s fun t => t.sys.step = 7) ∧
  (∀ bad cs mib unit s, s.sys.step = 7 → s.sys.run.steward = true →
    completes (.startupFull bad cs mib unit) s fun t => t.sys.step = 8 ∧ t.sys.run.nv = true ∧
      t.sys.run.ledger = s.sys.run.timebase ∧ t.sys.run.tally = s.sys.run.timebase ∧
      t.sys.run.winnow = (!s.sys.winBad && s.sys.run.timebase)) ∧
  (∀ k s, 2 ≤ k → k ≤ 8 → 1 ≤ s.sys.step → s.sys.lateStep = 0 → stepDone s k = false →
    bootNs s ≥ stepBound k →
    completes (.startupLate k) s fun t => t.sys.lateStep = k) ∧
  (∀ s, sproutRuns s = true → mayTalk s .can = true → s.host.statAt = none →
    completes .sproutStatusFrame s fun t => t.host.statAt = some s.time.tns)

/-- CHG_DET is taken after 50 ms (R553), and TEST_EN when it changes (R604). A brown-out puts the device in OFF
(R541). The warning level arms at 1 V above it (R542). A fall below it, or a supply above V_OV, begins the shutdown;
at 5.8 V a supply that has not fallen warns of nothing (R541, R542, R545). A rail out of regulation has the effect of
its rail and is counted; VIO and VHUSK back in regulation start again at step 3, and the core is tried 100 ms after
its fault (R544). VCORE returns to 0.80 V after 1,000 frames (R548). -/
def Obligations.PowerFails : Prop :=
  (∀ a ns s, s.sys.run.wake = true → a ≠ s.pwr.chg → ns ≥ 50000000 →
    completes (.chgDetQualify a ns) s fun t => t.pwr.chg = a) ∧
  (∀ high s, completes (.testEnChange high) s fun t => t.pins.testEn = high ∧ t.pwr.state = s.pwr.state) ∧
  (∀ v s, v < 5000 → s.pwr.state ≠ .off →
    completes (.brownOut v) s fun t => t.pwr.state = .off ∧ t.sys.run = {} ∧ t.sys.step = 0 ∧ t.sec.mid = s.sec.mid) ∧
  (∀ v s, s.sys.run.core = true → s.pwr.armed = false → v ≥ pfwMv s.nv.keys.pfwLevel + 1000 →
    exec (.pfwArm v) s = .next { s with pwr.pfw := s.nv.keys.pfwLevel, pwr.armed := true }) ∧
  (∀ v fell s, v < pfwMv s.pwr.pfw → (fell = true ∨ s.pwr.pfw ≠ 0) → shutMay s = true → s.sys.run.core = true →
    completes (.powerFailWarning v fell) s fun t => t.therm.shutStep = 1 ∧ t.pwr.pfVsup = some (v : Int) ∧
      t.pwr.pfwCnt = sat 16 (s.pwr.pfwCnt + 1) ∧ t.nv.refuse = true) ∧
  (∀ v s, s.pwr.pfw = 0 → exec (.powerFailWarning v false) s = .next s) ∧
  (∀ v s, v > 61000 → shutMay s = true → s.sys.run.core = true →
    completes (.overvoltage v) s fun t => t.therm.shutStep = 1 ∧ t.pwr.pfVsup = some (v : Int) ∧ t.nv.refuse = true) ∧
  (∀ mv s, railOn s 0 = true → railOut s 0 mv = true → shutMay s = true →
    completes (.railFault 0 mv) s fun t => t.sys.run.core = false ∧ t.sys.run.drivers = false ∧ t.sys.run.husk = false ∧
      t.pwr.brown = true ∧ t.pwr.railCnt = sat 16 (s.pwr.railCnt + 1)) ∧
  (∀ mv s, railOn s 1 = true → railOut s 1 mv = true → shutMay s = true →
    completes (.railFault 1 mv) s fun t => t.sys.run.core = false ∧ t.pwr.coreAt = some s.time.tns ∧
      t.sys.run.husk = s.sys.run.husk ∧ t.pwr.railCnt = sat 16 (s.pwr.railCnt + 1)) ∧
  (∀ r mv s, (r = 3 ∨ r = 4) → railOn s r = true → railOut s r mv = true → shutMay s = true →
    completes (.railFault r mv) s fun t => t.sys.run.core = s.sys.run.core ∧ railOn t r = false ∧
      t.pwr.railCnt = sat 16 (s.pwr.railCnt + 1)) ∧
  (∀ r mv s, (r = 0 ∨ r = 2) → railOn s r = false → railOut s r mv = false → shutMay s = true → s.sys.run.buck = true →
    completes (.railRecovery r mv) s fun t => t.sys.step = 2 ∧ t.sys.cause = 2 ∧ t.sys.run.drivers = true ∧ railOn t r = true) ∧
  (∀ r mv s, (r = 3 ∨ r = 4) → railOn s r = false → railOut s r mv = false → shutMay s = true → s.sys.run.buck = true →
    completes (.railRecovery r mv) s fun t => railOn t r = true ∧ t.sys.step = s.sys.step) ∧
  (∀ x s, s.pwr.coreAt = some x → s.time.tns ≥ x + 100000000 →
    exec .vcoreRetry s = .next { s with
      pwr.coreAt := none, pwr.brown := false, sys.cause := 2, sys.step := 2, sys.lateStep := 0, sys.sectFail := false
      sys.bootStart := s.time.tns, sys.bootUp := 0 }) ∧
  (∀ s, s.pwr.vcore = 3 → s.pwr.loose ≥ 1000 → s.pwr.force = 0 →
    exec .vcoreReturn s = .next { s with pwr.vcore := 2, pwr.loose := 0 })

/-- SLEEP is entered through the stop of acquisition, the save and the flush, and at its end a wake that came before
turns it back (R551). AUTO_SLEEP minutes without activity start it (R557). A wake source raises VCORE, and the rails,
rings, models and services follow in turn, back to RUN; during entry it is noted (R553 to R555). A patrol counts and
leaves SLEEP standing when nothing is found, wakes with cause bit 6 for a ring that fails, and its recheck comes 1 s
later (R158 to R160). WAKE_OUT is released at its time (R555). -/
def Obligations.SleepPasses : Prop :=
  (∀ x s, s.pwr.idleAt = some x → s.pwr.autoSleep ≠ 0 → s.time.tns ≥ max x s.host.reqAt + s.pwr.autoSleep * 60000000000 →
    sleepOk s = true → bistBusy s = false →
    completes .autoSleep s fun t => t.pwr.state = .sleepEntry ∧ t.pwr.step = 1) ∧
  (∀ s, s.pwr.state = .sleepEntry → s.pwr.step = 1 → (atBoundary s = true ∨ s.sys.run.acq = false) →
    s.pwr.wakeLate = none →
    completes .sleepStopAcquisition s fun t => t.pwr.step = 2 ∧ t.sys.run.acq = false ∧ t.sys.run.kernel = false) ∧
  (∀ s, s.pwr.state = .sleepEntry → s.pwr.step = 2 → nvIdle s = true → s.pwr.wakeLate = none →
    completes .sleepSaveDone s fun t => t.pwr.step = 3 ∧ t.pwr.state = .sleepEntry) ∧
  (∀ s, s.pwr.state = .sleepEntry → s.pwr.step = 3 → recIdle s = true → s.pwr.wakeLate = none →
    completes .sleepFlushDone s fun t => t.pwr.state = .sleep ∧ t.pwr.vcore = 0 ∧ t.pwr.pg = 7 ∧ t.pwr.wakeOut = false ∧
      t.sys.run.steward = false ∧ t.sys.run.husk = s.sys.run.husk ∧ t.recd.ring = []) ∧
  (∀ c s, s.pwr.state = .sleepEntry → s.pwr.step = 3 → recIdle s = true → s.pwr.wakeLate = some c →
    completes .sleepFlushDone s fun t => t.pwr.state = .waking ∧ t.pwr.step = 1 ∧ t.pwr.cause = c) ∧
  (∀ c s, wakeSrc c s = true → s.pwr.state = .sleep →
    completes (.sleepWake c) s fun t => t.pwr.state = .waking ∧ t.pwr.step = 1 ∧ t.pwr.cause = c ∧ t.pwr.vcore = 2 ∧
      t.pwr.count = sat 16 (s.pwr.count + 1)) ∧
  (∀ c s, wakeSrc c s = true → s.pwr.state = .sleepEntry → s.pwr.wakeLate = none →
    exec (.sleepWake c) s = .next { s with pwr.wakeLate := some c }) ∧
  (∀ s, s.pwr.state = .waking → s.pwr.step = 1 →
    completes .wakeRailsReady s fun t => t.pwr.step = 2 ∧ t.pwr.pg = 31 ∧ t.sys.run.steward = true ∧
      t.sys.run.recorder = true ∧ t.sys.run.acq = s.sys.run.acq) ∧
  (∀ ua ub aa ab s, (s.pwr.state = .waking ∨ s.pwr.state = .leaving) → s.pwr.step = 2 →
    completes (.wakeRingsReady ua ub aa ab) s fun t => t.sys.run.acq = s.sys.run.timebase ∧ t.pwr.step = 4 ∧ t.acq.decAt = s.time.tns) ∧
  (∀ ts s, (s.pwr.state = .waking ∨ s.pwr.state = .leaving) → s.pwr.step = 4 → s.pwr.wakeDone = 3 →
    completes (.wakeModelsLoaded ts) s fun t => t.pwr.step = 5 ∧ t.pwr.state = s.pwr.state) ∧
  (∀ s, (s.pwr.state = .waking ∨ s.pwr.state = .leaving) → s.pwr.step = 5 →
    completes .wakeFullService s fun t => t.pwr.state = .run ∧ t.pwr.step = 0 ∧ t.sys.run.nv = true ∧
      t.sys.run.ledger = s.sys.run.timebase ∧ t.sys.run.winnow = (!s.sys.winBad && s.sys.run.timebase)) ∧
  (∀ x s, s.pwr.wakeOutEnd = some x → s.time.tns ≥ x →
    exec .wakeOutTimeout s = .next { s with pwr.wakeOut := false, pwr.wakeOutEnd := none }) ∧
  (∀ rx fails s, patrolMay s = true → s.time.tns ≥ s.acq.patrolAt + s.cfg.acq.patrol * 1000000000 →
    settlesTo (.sleepPatrol rx fails) s
      (patrolRun rx (patrolRings s) fails { s with acq.patrolAt := s.time.tns, acq.recheck := false })) ∧
  (∀ rx fails s, patrolMay s = true → s.acq.recheck = true → s.time.tns ≥ s.acq.recheckAt + 1000000000 →
    settlesTo (.patrolRecheck rx fails) s
      (patrolRun rx ((patrolRings s).filter fun r => !(ringOf s r).patrolMiss.isEmpty) fails s)) ∧
  (∀ missing xs s, s.acq.recheck = false → (∀ x ∈ xs, patrolBits s x = 0) →
    (patrolDecide [] missing xs s).acq.patrolCnt = sat 16 (s.acq.patrolCnt + 1) ∧
    (patrolDecide [] missing xs s).pwr.state = s.pwr.state ∧
    (patrolDecide [] missing xs s).acq.recheck = !missing.isEmpty) ∧
  (∀ s, patrolMay s = true → s.pwr.state = .sleep → s.time.tns ≥ s.acq.patrolAt + s.cfg.acq.patrol * 1000000000 →
    patrolRings s = [] →
    completes (.sleepPatrol [] []) s fun t => t.acq.patrolCnt = sat 16 (s.acq.patrolCnt + 1) ∧
      t.acq.patrolAt = s.time.tns ∧ t.pwr.state = .sleep) ∧
  (∀ r s, patrolMay s = true → s.time.tns ≥ s.acq.patrolAt + s.cfg.acq.patrol * 1000000000 → r ∈ patrolRings s →
    s.pwr.state = .sleep →
    completes (.sleepPatrol [] [r]) s fun t => t.pwr.state = .waking ∧ t.acq.patrolCause = 64) ∧
  (∀ s, patrolMay s = true → s.acq.recheck = true → s.time.tns ≥ s.acq.recheckAt + 1000000000 → patrolRings s = [] →
    completes (.patrolRecheck [] []) s fun t => t.acq.patrolCnt = sat 16 (s.acq.patrolCnt + 1) ∧ t.acq.recheck = false ∧
      t.acq.patrolAt = s.acq.patrolAt)

/-- SHIP entry goes on when every string stands open, when its saves are done and when the recorder is idle, and
powers down (R558). In SHIP the wake controller arms its inputs after their times, and an armed one starts the device
up with CAUSE 5 (R559). -/
def Obligations.ShipEntryExit : Prop :=
  (∀ s, s.pwr.state = .shipEntry → s.pwr.step = 1 → allOpen s = true → commitBusy s = false →
    completes .shipStringsOpen s fun t => t.pwr.step = 2 ∧ t.pwr.state = .shipEntry ∧ t.pwr.sleepAt = s.time.tns) ∧
  (∀ s, s.pwr.state = .shipEntry → s.pwr.step = 2 → shipSaved s = true →
    completes .shipSaved s fun t => t.pwr.step = 3 ∧ t.sys.run.acq = false) ∧
  (∀ s, s.pwr.state = .shipEntry → s.pwr.step = 3 → recIdle s = true →
    completes .shipPowerDown s fun t => t.pwr.state = .ship ∧ t.sys.run = {} ∧ t.pwr.armBtn = false ∧
      t.pwr.armChg = false) ∧
  (∀ ns s, s.pwr.state = .ship → ns ≥ 1000000000 →
    exec (.wakeControllerArm true ns) s = .next { s with pwr.armBtn := true }) ∧
  (∀ ns s, s.pwr.state = .ship → ns ≥ 50000000 →
    exec (.wakeControllerArm false ns) s = .next { s with pwr.armChg := true }) ∧
  (∀ ns s, s.pwr.state = .ship → s.pwr.armBtn = true → ns ≥ 10000000000 →
    completes (.shipWake true ns) s fun t => t.pwr.state = .run ∧ t.sys.cause = 5 ∧ t.sys.step = 1 ∧ t.pins.btn = true) ∧
  (∀ ns s, s.pwr.state = .ship → s.pwr.armChg = true → ns ≥ 50000000 →
    completes (.shipWake false ns) s fun t => t.pwr.state = .run ∧ t.sys.cause = 5 ∧ t.sys.step = 1 ∧ t.pwr.chg = true)

/-- A READ that the device takes as new is answered with the words from its address, as many as asked for, up to the
port's most and all in one window (R491, R495). A COUNT of 0 is MALFORMED and a bad range BAD_ADDRESS (R494). A READ
changes nothing but what its port has latched, and the words that latch others are answered with what they latch. -/
def Obligations.HostReads : Prop :=
  (∀ h a n s, freshReq 1 h s = true → n ≠ 0 → n.toNat ≤ maxWords h.port → rangeOk a.toNat n.toNat = true →
    let r := readWords h.port n.toNat a.toNat (reqStart 1 h s)
    answers 1 h (.read h a n) s (.ack 0 n.toNat r.1) r.2) ∧
  (∀ h a s, freshReq 1 h s = true → answers 1 h (.read h a 0) s (.nak 7 0) (reqStart 1 h s)) ∧
  (∀ h a n s, freshReq 1 h s = true → n ≠ 0 → n.toNat ≤ maxWords h.port → rangeOk a.toNat n.toNat = false →
    answers 1 h (.read h a n) s (.nak 5 0) (reqStart 1 h s)) ∧
  (∀ p n a s, (readWords p n a s).1.length = n ∧
    (readWords p n a s).2 = { s with host.ports := (readWords p n a s).2.host.ports }) ∧
  (∀ h s, freshReq 1 h s = true →
    answers 1 h (.timeTnsLatch h) s (.ack 0 1 [BitVec.ofNat 32 s.time.tns]) (tnsLatch h.port (reqStart 1 h s))) ∧
  (∀ h (b : Fin 5) s, freshReq 1 h s = true →
    answers 1 h (.ledgBlockLatch h b) s (.ack 0 1 [readWord h.port (0x11100 + 64 * b.val) (blkLatch h.port b.val (reqStart 1 h s))])
      (blkLatch h.port b.val (reqStart 1 h s))) ∧
  (∀ h s, freshReq 1 h s = true →
    answers 1 h (.recSeqLatch h false) s (.ack 0 1 [BitVec.ofNat 32 s.recd.pub]) (seqLatch h.port (reqStart 1 h s))) ∧
  (∀ h s, freshReq 1 h s = true →
    answers 1 h (.recSeqLatch h true) s (.ack 0 1 [BitVec.ofNat 32 (oldestSeq s)]) (oldLatch h.port (reqStart 1 h s)))

/-- A WRITE or WRITE_P is checked whole before a word is written (R495). A WRITE_P outside a presence window is
PRESENCE_REQUIRED, a WRITE that reaches an RWP field is PRIV_REQUIRED, the first word refused refuses all, and else
every word is written, as addresses ascend but for a selector, which is written last (R630). A write to an array is
refused with ACCESS, and an opcode that no request has is UNKNOWN_OP (R491, R494). -/
def Obligations.HostWrites : Prop :=
  (∀ h a n ws m s, freshReq 2 h s = true → n ≠ 0 → n.toNat ≤ maxWords h.port → ws.length = n.toNat →
    rangeOk a.toNat n.toNat = true → a.toNat < 0x17000 →
    (addrWords a.toNat ws).any (fun e => reaches h.port e.2.1 e.2.2 (reqStart 2 h s)) = false →
    firstRefusal (wrReq h false m) (addrWords a.toNat ws) (reqStart 2 h s) = none →
    writes h false (.write h a n ws m) s
      ((writeOrder (addrWords a.toNat ws)).foldl (fun s e => putReg (wrReq h false m) e.2.1 e.2.2 s) (reqStart 2 h s))) ∧
  (∀ h a n ws m s, freshReq 3 h s = true → presOpen s = true → n ≠ 0 → n.toNat ≤ maxWords h.port → ws.length = n.toNat →
    rangeOk a.toNat n.toNat = true → a.toNat < 0x17000 →
    firstRefusal (wrReq h true m) (addrWords a.toNat ws) (reqStart 3 h s) = none →
    writes h true (.writeP h a n ws m) s
      ((writeOrder (addrWords a.toNat ws)).foldl (fun s e => putReg (wrReq h true m) e.2.1 e.2.2 s) (reqStart 3 h s))) ∧
  (∀ h a n ws m s, freshReq 3 h s = true → presOpen s = false → n ≠ 0 → n.toNat ≤ maxWords h.port → ws.length = n.toNat →
    rangeOk a.toNat n.toNat = true → a.toNat < 0x17000 →
    answers 3 h (.writeP h a n ws m) s (.nak 3 0) (reqStart 3 h s)) ∧
  (∀ h a n ws m s, freshReq 2 h s = true → n ≠ 0 → n.toNat ≤ maxWords h.port → ws.length = n.toNat →
    rangeOk a.toNat n.toNat = true → a.toNat < 0x17000 →
    (addrWords a.toNat ws).any (fun e => reaches h.port e.2.1 e.2.2 (reqStart 2 h s)) = true →
    answers 2 h (.write h a n ws m) s (.nak 4 0) (reqStart 2 h s)) ∧
  (∀ h a n ws m s st b v, freshReq 2 h s = true → n ≠ 0 → n.toNat ≤ maxWords h.port → ws.length = n.toNat →
    rangeOk a.toNat n.toNat = true → a.toNat < 0x17000 →
    (addrWords a.toNat ws).any (fun e => reaches h.port e.2.1 e.2.2 (reqStart 2 h s)) = false →
    firstRefusal (wrReq h false m) (addrWords a.toNat ws) (reqStart 2 h s) = some (st, b, v) →
    answers 2 h (.write h a n ws m) s (.nak st 0) (noteRefusal (wrReq h false m) b v (reqStart 2 h s))) ∧
  (∀ h a n ws m s st b v, freshReq 3 h s = true → presOpen s = true → n ≠ 0 → n.toNat ≤ maxWords h.port →
    ws.length = n.toNat → rangeOk a.toNat n.toNat = true → a.toNat < 0x17000 →
    firstRefusal (wrReq h true m) (addrWords a.toNat ws) (reqStart 3 h s) = some (st, b, v) →
    answers 3 h (.writeP h a n ws m) s (.nak st 0) (noteRefusal (wrReq h true m) b v (reqStart 3 h s))) ∧
  (∀ h a n ws m s, freshReq 2 h s = true → n ≠ 0 → n.toNat ≤ maxWords h.port → ws.length = n.toNat →
    rangeOk a.toNat n.toNat = true → 0x17000 ≤ a.toNat →
    answers 2 h (.write h a n ws m) s (.nak 6 0) (reqStart 2 h s)) ∧
  (∀ h op s, freshReq op.toNat h s = true → unknownOp h.port op = true →
    answers op.toNat h (.unknownOp h op) s (.nak 0x0C 0) (reqStart op.toNat h s))

/-- A request that repeats one still executing is dropped, one that repeats an answer of the last 2 s has it sent
again, and a seventeenth unanswered one is BUSY (R493; the bound of 16 waiting requests is read so, Assumption 20).
One that does not address the device is nothing to it but a frame whose FCS may be counted (R491, R515). A message
whose segments are not complete within 50 ms of its first is discarded (R492). -/
def Obligations.RequestRepeats : Prop :=
  (∀ op h f s, addressed h s = true → h.seg = 0 → h.more = false → executing op h.port h.tag (reqSeen op h s) = true →
    hostRequest op h f s = reqSeen op h s) ∧
  (∀ op h f m s, addressed h s = true → h.seg = 0 → h.more = false → executing op h.port h.tag (reqSeen op h s) = false →
    keptAnswer op h.port h.tag (reqSeen op h s) = some m →
    hostRequest op h f s = settlePins (txPush h.port m (reqSeen op h s))) ∧
  (∀ op h f s, addressed h s = true → h.seg = 0 → h.more = false → executing op h.port h.tag (reqSeen op h s) = false →
    keptAnswer op h.port h.tag (reqSeen op h s) = none → unanswered h.port (reqSeen op h s) ≥ 16 →
    hostRequest op h f s = settle (answer op h.port h.tag (.nak 1 0) (noteAsk op h (reqSeen op h s)))) ∧
  (∀ op h f s, addressed h s = false → hostRequest op h f s = linkNote h.link s) ∧
  (∀ s, completes .segmentTimeout s fun t => ∀ x ∈ (portOf t .can).part, s.time.tns - x.at0 < 50000000)

/-- STREAM_OPEN takes the first free slot and answers with the SID, or refuses where none is free or the port's limit
does not hold (R507, R510). STYPE 0 closes the streams of that SID on its port and no other (R507; Assumption 21). At
a commit a due stream takes a snapshot, dropping the parts still queued, and parts leave in turn (R509). -/
def Obligations.StreamsRun : Prop :=
  (∀ h stype sid period ps s k, freshReq 4 h s = true → stype ≠ 0 →
    streamChk h.port stype.toNat period.toNat ps (reqStart 4 h s) = 0 → freeSlot s = some k →
    portLoad s h.port + streamLoad s { port := h.port, stype := stype.toNat, sid := sid.toNat, period := period.toNat,
                                       first := fld ps 0 2, count := fld ps 2 2 } ≤ portLimit s h.port →
    ∃ u y, answers 4 h (.streamOpen h stype sid period ps) s (.ack sid.toNat 0 []) u ∧
      Tab.get none u.host.str k = some y ∧ y.port = h.port ∧ y.stype = stype.toNat ∧ y.sid = sid.toNat ∧
      y.period = period.toNat ∧ y.nextAt = s.time.tns) ∧
  (∀ h stype sid period ps s, freshReq 4 h s = true → stype ≠ 0 →
    streamChk h.port stype.toNat period.toNat ps (reqStart 4 h s) = 0 → freeSlot s = none →
    answers 4 h (.streamOpen h stype sid period ps) s (.nak 0x0A 0) (reqStart 4 h s)) ∧
  (∀ h stype sid period ps s k, freshReq 4 h s = true → stype ≠ 0 →
    streamChk h.port stype.toNat period.toNat ps (reqStart 4 h s) = 0 → freeSlot s = some k →
    portLimit s h.port < portLoad s h.port + streamLoad s { port := h.port, stype := stype.toNat, sid := sid.toNat,
                                                            period := period.toNat, first := fld ps 0 2,
                                                            count := fld ps 2 2 } →
    answers 4 h (.streamOpen h stype sid period ps) s (.nak 0x0B 0) (reqStart 4 h s)) ∧
  (∀ h sid s, freshReq 4 h s = true →
    ∃ u, answers 4 h (.streamClose h sid) s (.ack sid.toNat 0 []) u ∧
      (∀ x ∈ portStreams u h.port, x.sid ≠ sid.toNat) ∧
      (∀ p x, x ∈ portStreams s p → (p ≠ h.port ∨ x.sid ≠ sid.toNat) → x ∈ portStreams u p)) ∧
  (∀ (k : Fin 8) x t s, Tab.get none s.host.str k.val = some x → s.sys.commitAt = some t → x.stype ≠ 3 → t ≥ x.nextAt →
    0 < x.period →
    makes (.streamSnapshot k) s fun u => ∃ y, Tab.get none u.host.str k.val = some y ∧ y.parts = snapBodies s x ∧
      t < y.nextAt ∧ y.nextAt ≤ t + x.period * 1000000 ∧
      (x.parts = [] → (∀ m ∈ (portOf s x.port).txq, m.slot ≠ some k.val) → y.drop = x.drop ∧ y.dropNext = x.dropNext) ∧
      (x.parts ≠ [] → y.drop = sat 16 (x.drop + 1) ∧ y.dropNext = true) ∧
      ∀ m ∈ (portOf u x.port).txq, m.slot ≠ some k.val) ∧
  (∀ (k : Fin 8) bad x b rest s, Tab.get none s.host.str k.val = some x → x.stype ≠ 3 → mayTalk s x.port = true →
    x.parts = b :: rest →
    makes (.streamPartSend k bad) s fun u =>
      Tab.get none u.host.str k.val = some { x with parts := rest, dropNext := false } ∧
      ∃ m ∈ (portOf u x.port).txq, m.op = 5 ∧ m.slot = some k.val ∧ m.body = b.take 3 ++ le 1 (b2n x.dropNext) ++ b.drop 4) ∧
  (∀ (k : Fin 8) bad x s, Tab.get none s.host.str k.val = some x → x.stype = 3 → mayTalk s x.port = true →
    makes (.streamPartSend k bad) s fun u => u.host.str = s.host.str ∧
      (cursorOf u x.cursor).next ≥ (cursorOf s x.cursor).next)

/-- An ATTEST is answered under the ledger key, and refused without one (R527, R529). A KEY_LOAD that its check lets
pass writes its key, and one outside a presence window is refused (R526). A body of the wrong length is MALFORMED and
an undefined KIND INVALID_VALUE (R496). -/
def Obligations.ChallengesAnswer : Prop :=
  (∀ h b s, freshReq 0x0B h s = true → b.length = 8 → s.nv.keys.ledger.val ≠ [] →
    answers 0x0B h (.challengeAttest h 1 b) s (.resp (le 1 2 ++ le 3 0 ++ attestBody (reqStart 0x0B h s) b))
      (reqStart 0x0B h s)) ∧
  (∀ h b s, freshReq 0x0B h s = true → b.length = 8 → s.nv.keys.ledger.val = [] →
    answers 0x0B h (.challengeAttest h 1 b) s (.nak 9 0) (reqStart 0x0B h s)) ∧
  (∀ h b s, freshReq 0x0B h s = true → b.length ≠ 8 →
    answers 0x0B h (.challengeAttest h 1 b) s (.nak 7 0) (reqStart 0x0B h s)) ∧
  (∀ h k b s, freshReq 0x0B h s = true → k ≠ 1 → k ≠ 0x10 →
    answers 0x0B h (.challengeAttest h k b) s (.nak 2 0) (reqStart 0x0B h s)) ∧
  (∀ h b s, freshReq 0x0B h s = true → b.length = 40 → keyChk s b = 0 →
    ∃ u, answers 0x0B h (.challengeKeyLoad h b) s (.resp (le 1 0x11 ++ le 3 0 ++ b.take 1 ++ (b.drop 36).take 4)) u ∧
      ∃ k, keyGet u.nv.keys (fld b 0 1) = some k ∧ k.lock = (fld b 1 1 % 2 == 1)) ∧
  (∀ h b s, freshReq 0x0B h s = true → b.length = 40 → presOpen s = false →
    answers 0x0B h (.challengeKeyLoad h b) s (.nak 3 0) (reqStart 0x0B h s))

/-- A joining port sends JOIN after its wait and waits again when no ASSIGN comes, for a free time between its bounds
(R501, Assumption 3). An ASSIGN that its link delivers (R82, R485) with the device's MID sets the SNID and the budgets
(R501, R514), or withdraws the SNID; one that gives the NODE to another MID takes it away and ends its streams (R502).
-/
def Obligations.PortsJoin : Prop :=
  (∀ p t s, portRuns s p = true → (portOf s p).joining = true → (portOf s p).joinAt = some t → t ≤ s.time.tns →
    makes (.join p) s fun u => (portOf u p).joinAt = none ∧ (portOf u p).joinSent = some s.time.tns ∧
      ∃ m ∈ (portOf u p).txq, m.op = 0x0D ∧ m.body = joinBody s) ∧
  (∀ p lost t s, portRuns s p = true → (portOf s p).joining = true → (portOf s p).joinSent = some t →
    (lost = true ∨ s.time.tns ≥ t + 200000000) →
    completes (.joinRetry p lost) s fun u => (portOf u p).joinSent = none ∧ u.freeIx = s.freeIx + 1 ∧
      ∃ w, (portOf u p).joinAt = some w ∧ s.time.tns + 100000000 ≤ w ∧ w ≤ s.time.tns + 355000000) ∧
  (∀ h n m s, portRuns s h.port = true → linkTakes 0x41 h.link s = true → freshFrame 0x0E h s = true → n.toNat < 4096 →
    1 ≤ m.toNat → m.toNat ≤ 64 →
    ∃ u, answers 0x0E h (.assign h s.sec.mid n m) s (.ack 0 0 []) u ∧ u.host.snid = some n.toNat ∧
      u.host.lastSnid = n.toNat ∧ u.host.budT1s = 8000 / (m.toNat + 1) ∧ u.host.budCan = 2000 / (m.toNat + 1)) ∧
  (∀ h m s, portRuns s h.port = true → linkTakes 0x41 h.link s = true → freshFrame 0x0E h s = true →
    ∃ u, answers 0x0E h (.assign h s.sec.mid 0xFFFF m) s (.ack 0 0 []) u ∧ u.host.snid = none) ∧
  (∀ h mid n m k s, portRuns s h.port = true → linkTakes 0x41 h.link s = true → mid ≠ s.sec.mid → n ≠ 0xFFFF →
    s.host.snid = some k → k % 64 = n.toNat % 64 →
    makes (.assign h mid n m) s fun u => u.host.snid = none ∧ portStreams u .t1s = [] ∧ portStreams u .can = [])

/-- A keep-alive goes out when nothing else is queued (R503). An SPI transaction puts the oldest frame on the wire, or
zeros, and one that ends early leaves it and is counted (R489). Bus-off and error-passive are counted, and recovery
ends them (R486). -/
def Obligations.PortEvents : Prop :=
  (∀ s, mayTalk s .t1s = true → (portOf s .t1s).txq = [] →
    completes .keepAlive s fun t => t.host.keepalive = sat 16 (s.host.keepalive + 1) ∧
      ∃ m, (portOf t .t1s).txq = [m] ∧ m.op = 6 ∧ m.body = le 4 0) ∧
  (∀ f s, portRuns s .spi = true →
    completes (.spiTransaction f) s fun t => (portOf t .spi).txq = (portOf s .spi).txq.drop 1 ∧
      t.host.spiAt = some s.time.tns ∧
      t.host.errSpi = (if f = some false then sat 8 (s.host.errSpi + 1) else s.host.errSpi) ∧
      (portOf t .spi).wire = match (portOf s .spi).txq with
        | m :: _ => [{ bytes := spiFrame m s }]
        | [] => [{ bytes := List.replicate 8 0 }]) ∧
  (∀ s, portRuns s .spi = true →
    exec .spiEarlyEnd s = .next { s with host.spiAt := some s.time.tns, host.errSpi := sat 8 (s.host.errSpi + 1) }) ∧
  (∀ n s, s.host.can ≠ .off → s.host.can ≠ .busOff →
    makes (.canBusOff .busOff n) s fun t => t.host.can = .busOff ∧ t.host.busOffs = sat 32 (s.host.busOffs + 1) ∧
      t.host.errCan = sat 8 (s.host.errCan + n)) ∧
  (∀ n s, s.host.can = .busOff → makes (.canBusOff .recovered n) s fun t => t.host.can = .active) ∧
  (∀ n s, s.host.can = .active →
    exec (.canBusOff .passive n) s = .next { s with
      host.can := .passive, host.errCan := sat 8 (s.host.errCan + n) })

/-- With another value in place of a key that is present, or of the device key, every register reads the same, a READ
answers the same, and a snapshot stream sends the same (R525). -/
def Obligations.KeysUnread : Prop :=
  (∀ p a s d, readWord p a { s with sec.devKey := d } = readWord p a s) ∧
  (∀ p a s id k v, keyGet s.nv.keys id = some k → (v = [] ↔ k.val = []) →
    readWord p a { s with nv.keys := keyPut s.nv.keys id { k with val := v } } = readWord p a s) ∧
  (∀ p n a s id k v, keyGet s.nv.keys id = some k → (v = [] ↔ k.val = []) →
    (readWords p n a { s with nv.keys := keyPut s.nv.keys id { k with val := v } }).1 = (readWords p n a s).1) ∧
  (∀ x s id k v, keyGet s.nv.keys id = some k →
    snapBodies { s with nv.keys := keyPut s.nv.keys id { k with val := v } } x = snapBodies s x)

/-- A write to SYS_MODE of a reserved encoding, over any port, is refused with INVALID_VALUE, and SYS_MODE reads as
before. -/
def Obligations.ReservedModeRefused : Prop :=
  ∀ h p v s, freshWr h p s → modeReserved v = true →
    answers (wrOp p) h (.sysModeWrite h p v) s (.nak 2 0) (wrStart h p s) ∧ (wrStart h p s).sys = s.sys ∧
      ∀ q, readWord q 0x040 (wrStart h p s) = s.sys.mode

/-- A START of target 3 over a range with a pair that is not quarantined, and so may carry cells, is refused with
STATE and REFUSE 3. A range beyond the target's regions is refused with INVALID_VALUE and REFUSE 4. A START while a
run is in progress is refused with BUSY and REFUSE 2. A target of 6 or 7 is refused with INVALID_VALUE. -/
def Obligations.SelfTestRefused : Prop :=
  (∀ h p m q s, freshWr h p s → s.sys.run.bist = true → bistBusy s = false →
    s.bist.first + bistCount s ≤ 16 → q ∈ rangeFrom s.bist.first (bistCount s) → (pairOf s q).quar = false →
    answers (wrOp p) h (.bistStart h p 3 m) s (.nak 9 0) { wrStart h p s with bist.refuse := 3 }) ∧
  (∀ h p tg m s, freshWr h p s → s.sys.run.bist = true → tg.toNat < 6 →
    s.bist.first + bistCount s > bistRegions tg.toNat →
    answers (wrOp p) h (.bistStart h p tg m) s (.nak 2 0) { wrStart h p s with bist.refuse := 4 }) ∧
  (∀ h p tg m s, freshWr h p s → s.sys.run.bist = true → tg.toNat < 6 →
    s.bist.first + bistCount s ≤ bistRegions tg.toNat → bistBusy s = true →
    answers (wrOp p) h (.bistStart h p tg m) s (.nak 1 0) { wrStart h p s with bist.refuse := 2 }) ∧
  (∀ h p tg m s, freshWr h p s → 6 ≤ tg.toNat →
    answers (wrOp p) h (.bistStart h p tg m) s (.nak 2 0) (wrStart h p s))
end

