-- ==== Sys2Proof/Laws/Keep.lean ====
section
/-! SUPPORT. Each part of the state through a choice and through a fold. -/

namespace Sys2Proof.Machine

/-- What every step of a fold keeps, the fold keeps. -/
theorem foldl_keep {α β : Type} (g : State → β) (f : State → α → State) (l : List α) (s : State)
    (h : ∀ t a, g (f t a) = g t) : g (l.foldl f s) = g s := by
  induction l generalizing s with
  | nil => rfl
  | cons a l ih => rw [List.foldl_cons, ih, h]

/-- The same for a fold that carries a second value. -/
theorem foldl_fst {α β γ : Type} (g : State → β) (f : State × γ → α → State × γ) (l : List α) (a : State × γ)
    (h : ∀ b x, g (f b x).1 = g b.1) : g (l.foldl f a).1 = g a.1 := by
  induction l generalizing a with
  | nil => rfl
  | cons x l ih => rw [List.foldl_cons, ih, h]

@[simp] theorem foldl_sys {α : Type} (f : State → α → State) (l : List α) (s : State)
    (h : ∀ t a, (f t a).sys = t.sys) : (l.foldl f s).sys = s.sys := foldl_keep (·.sys) f l s h

@[simp] theorem ite_sys (c : Prop) [Decidable c] (s t : State) :
    (if c then s else t).sys = if c then s.sys else t.sys := apply_ite (·.sys) c s t

@[simp] theorem foldl_img {α : Type} (f : State → α → State) (l : List α) (s : State)
    (h : ∀ t a, (f t a).img = t.img) : (l.foldl f s).img = s.img := foldl_keep (·.img) f l s h

@[simp] theorem ite_img (c : Prop) [Decidable c] (s t : State) :
    (if c then s else t).img = if c then s.img else t.img := apply_ite (·.img) c s t

@[simp] theorem foldl_cfg {α : Type} (f : State → α → State) (l : List α) (s : State)
    (h : ∀ t a, (f t a).cfg = t.cfg) : (l.foldl f s).cfg = s.cfg := foldl_keep (·.cfg) f l s h

@[simp] theorem ite_cfg (c : Prop) [Decidable c] (s t : State) :
    (if c then s else t).cfg = if c then s.cfg else t.cfg := apply_ite (·.cfg) c s t

@[simp] theorem foldl_ring {α : Type} (f : State → α → State) (l : List α) (s : State)
    (h : ∀ t a, (f t a).ring = t.ring) : (l.foldl f s).ring = s.ring := foldl_keep (·.ring) f l s h

@[simp] theorem ite_ring (c : Prop) [Decidable c] (s t : State) :
    (if c then s else t).ring = if c then s.ring else t.ring := apply_ite (·.ring) c s t

@[simp] theorem foldl_acq {α : Type} (f : State → α → State) (l : List α) (s : State)
    (h : ∀ t a, (f t a).acq = t.acq) : (l.foldl f s).acq = s.acq := foldl_keep (·.acq) f l s h

@[simp] theorem ite_acq (c : Prop) [Decidable c] (s t : State) :
    (if c then s else t).acq = if c then s.acq else t.acq := apply_ite (·.acq) c s t

@[simp] theorem foldl_cur {α : Type} (f : State → α → State) (l : List α) (s : State)
    (h : ∀ t a, (f t a).cur = t.cur) : (l.foldl f s).cur = s.cur := foldl_keep (·.cur) f l s h

@[simp] theorem ite_cur (c : Prop) [Decidable c] (s t : State) :
    (if c then s else t).cur = if c then s.cur else t.cur := apply_ite (·.cur) c s t

@[simp] theorem foldl_husk {α : Type} (f : State → α → State) (l : List α) (s : State)
    (h : ∀ t a, (f t a).husk = t.husk) : (l.foldl f s).husk = s.husk := foldl_keep (·.husk) f l s h

@[simp] theorem ite_husk (c : Prop) [Decidable c] (s t : State) :
    (if c then s else t).husk = if c then s.husk else t.husk := apply_ite (·.husk) c s t

@[simp] theorem foldl_drv {α : Type} (f : State → α → State) (l : List α) (s : State)
    (h : ∀ t a, (f t a).drv = t.drv) : (l.foldl f s).drv = s.drv := foldl_keep (·.drv) f l s h

@[simp] theorem ite_drv (c : Prop) [Decidable c] (s t : State) :
    (if c then s else t).drv = if c then s.drv else t.drv := apply_ite (·.drv) c s t

@[simp] theorem foldl_krn {α : Type} (f : State → α → State) (l : List α) (s : State)
    (h : ∀ t a, (f t a).krn = t.krn) : (l.foldl f s).krn = s.krn := foldl_keep (·.krn) f l s h

@[simp] theorem ite_krn (c : Prop) [Decidable c] (s t : State) :
    (if c then s else t).krn = if c then s.krn else t.krn := apply_ite (·.krn) c s t

@[simp] theorem foldl_est {α : Type} (f : State → α → State) (l : List α) (s : State)
    (h : ∀ t a, (f t a).est = t.est) : (l.foldl f s).est = s.est := foldl_keep (·.est) f l s h

@[simp] theorem ite_est (c : Prop) [Decidable c] (s t : State) :
    (if c then s else t).est = if c then s.est else t.est := apply_ite (·.est) c s t

@[simp] theorem foldl_win {α : Type} (f : State → α → State) (l : List α) (s : State)
    (h : ∀ t a, (f t a).win = t.win) : (l.foldl f s).win = s.win := foldl_keep (·.win) f l s h

@[simp] theorem ite_win (c : Prop) [Decidable c] (s t : State) :
    (if c then s else t).win = if c then s.win else t.win := apply_ite (·.win) c s t

@[simp] theorem foldl_pairs {α : Type} (f : State → α → State) (l : List α) (s : State)
    (h : ∀ t a, (f t a).pairs = t.pairs) : (l.foldl f s).pairs = s.pairs := foldl_keep (·.pairs) f l s h

@[simp] theorem ite_pairs (c : Prop) [Decidable c] (s t : State) :
    (if c then s else t).pairs = if c then s.pairs else t.pairs := apply_ite (·.pairs) c s t

@[simp] theorem foldl_time {α : Type} (f : State → α → State) (l : List α) (s : State)
    (h : ∀ t a, (f t a).time = t.time) : (l.foldl f s).time = s.time := foldl_keep (·.time) f l s h

@[simp] theorem ite_time (c : Prop) [Decidable c] (s t : State) :
    (if c then s else t).time = if c then s.time else t.time := apply_ite (·.time) c s t

@[simp] theorem foldl_therm {α : Type} (f : State → α → State) (l : List α) (s : State)
    (h : ∀ t a, (f t a).therm = t.therm) : (l.foldl f s).therm = s.therm := foldl_keep (·.therm) f l s h

@[simp] theorem ite_therm (c : Prop) [Decidable c] (s t : State) :
    (if c then s else t).therm = if c then s.therm else t.therm := apply_ite (·.therm) c s t

@[simp] theorem foldl_nv {α : Type} (f : State → α → State) (l : List α) (s : State)
    (h : ∀ t a, (f t a).nv = t.nv) : (l.foldl f s).nv = s.nv := foldl_keep (·.nv) f l s h

@[simp] theorem ite_nv (c : Prop) [Decidable c] (s t : State) :
    (if c then s else t).nv = if c then s.nv else t.nv := apply_ite (·.nv) c s t

@[simp] theorem foldl_ledg {α : Type} (f : State → α → State) (l : List α) (s : State)
    (h : ∀ t a, (f t a).ledg = t.ledg) : (l.foldl f s).ledg = s.ledg := foldl_keep (·.ledg) f l s h

@[simp] theorem ite_ledg (c : Prop) [Decidable c] (s t : State) :
    (if c then s else t).ledg = if c then s.ledg else t.ledg := apply_ite (·.ledg) c s t

@[simp] theorem foldl_tally {α : Type} (f : State → α → State) (l : List α) (s : State)
    (h : ∀ t a, (f t a).tally = t.tally) : (l.foldl f s).tally = s.tally := foldl_keep (·.tally) f l s h

@[simp] theorem ite_tally (c : Prop) [Decidable c] (s t : State) :
    (if c then s else t).tally = if c then s.tally else t.tally := apply_ite (·.tally) c s t

@[simp] theorem foldl_recd {α : Type} (f : State → α → State) (l : List α) (s : State)
    (h : ∀ t a, (f t a).recd = t.recd) : (l.foldl f s).recd = s.recd := foldl_keep (·.recd) f l s h

@[simp] theorem ite_recd (c : Prop) [Decidable c] (s t : State) :
    (if c then s else t).recd = if c then s.recd else t.recd := apply_ite (·.recd) c s t

@[simp] theorem foldl_host {α : Type} (f : State → α → State) (l : List α) (s : State)
    (h : ∀ t a, (f t a).host = t.host) : (l.foldl f s).host = s.host := foldl_keep (·.host) f l s h

@[simp] theorem ite_host (c : Prop) [Decidable c] (s t : State) :
    (if c then s else t).host = if c then s.host else t.host := apply_ite (·.host) c s t

@[simp] theorem foldl_sec {α : Type} (f : State → α → State) (l : List α) (s : State)
    (h : ∀ t a, (f t a).sec = t.sec) : (l.foldl f s).sec = s.sec := foldl_keep (·.sec) f l s h

@[simp] theorem ite_sec (c : Prop) [Decidable c] (s t : State) :
    (if c then s else t).sec = if c then s.sec else t.sec := apply_ite (·.sec) c s t

@[simp] theorem foldl_pwr {α : Type} (f : State → α → State) (l : List α) (s : State)
    (h : ∀ t a, (f t a).pwr = t.pwr) : (l.foldl f s).pwr = s.pwr := foldl_keep (·.pwr) f l s h

@[simp] theorem ite_pwr (c : Prop) [Decidable c] (s t : State) :
    (if c then s else t).pwr = if c then s.pwr else t.pwr := apply_ite (·.pwr) c s t

@[simp] theorem foldl_bist {α : Type} (f : State → α → State) (l : List α) (s : State)
    (h : ∀ t a, (f t a).bist = t.bist) : (l.foldl f s).bist = s.bist := foldl_keep (·.bist) f l s h

@[simp] theorem ite_bist (c : Prop) [Decidable c] (s t : State) :
    (if c then s else t).bist = if c then s.bist else t.bist := apply_ite (·.bist) c s t

@[simp] theorem foldl_evt {α : Type} (f : State → α → State) (l : List α) (s : State)
    (h : ∀ t a, (f t a).evt = t.evt) : (l.foldl f s).evt = s.evt := foldl_keep (·.evt) f l s h

@[simp] theorem ite_evt (c : Prop) [Decidable c] (s t : State) :
    (if c then s else t).evt = if c then s.evt else t.evt := apply_ite (·.evt) c s t

@[simp] theorem foldl_pins {α : Type} (f : State → α → State) (l : List α) (s : State)
    (h : ∀ t a, (f t a).pins = t.pins) : (l.foldl f s).pins = s.pins := foldl_keep (·.pins) f l s h

@[simp] theorem ite_pins (c : Prop) [Decidable c] (s t : State) :
    (if c then s else t).pins = if c then s.pins else t.pins := apply_ite (·.pins) c s t

@[simp] theorem foldl_freeIx {α : Type} (f : State → α → State) (l : List α) (s : State)
    (h : ∀ t a, (f t a).freeIx = t.freeIx) : (l.foldl f s).freeIx = s.freeIx := foldl_keep (·.freeIx) f l s h

@[simp] theorem ite_freeIx (c : Prop) [Decidable c] (s t : State) :
    (if c then s else t).freeIx = if c then s.freeIx else t.freeIx := apply_ite (·.freeIx) c s t

@[simp] theorem foldl_pending {α : Type} (f : State → α → State) (l : List α) (s : State)
    (h : ∀ t a, (f t a).pending = t.pending) : (l.foldl f s).pending = s.pending := foldl_keep (·.pending) f l s h

@[simp] theorem ite_pending (c : Prop) [Decidable c] (s t : State) :
    (if c then s else t).pending = if c then s.pending else t.pending := apply_ite (·.pending) c s t

@[simp] theorem iteSec_mid (c : Prop) [Decidable c] (x y : Sec) :
    (if c then x else y).mid = if c then x.mid else y.mid := apply_ite (·.mid) c x y

@[simp] theorem foldl_sec_mid {α : Type} (f : State → α → State) (l : List α) (s : State)
    (h : ∀ t a, (f t a).sec.mid = t.sec.mid) : (l.foldl f s).sec.mid = s.sec.mid := foldl_keep (·.sec.mid) f l s h

@[simp] theorem ite_sec_mid (c : Prop) [Decidable c] (s t : State) :
    (if c then s else t).sec.mid = if c then s.sec.mid else t.sec.mid := apply_ite (·.sec.mid) c s t

@[simp] theorem iteSec_devKey (c : Prop) [Decidable c] (x y : Sec) :
    (if c then x else y).devKey = if c then x.devKey else y.devKey := apply_ite (·.devKey) c x y

@[simp] theorem foldl_sec_devKey {α : Type} (f : State → α → State) (l : List α) (s : State)
    (h : ∀ t a, (f t a).sec.devKey = t.sec.devKey) : (l.foldl f s).sec.devKey = s.sec.devKey := foldl_keep (·.sec.devKey) f l s h

@[simp] theorem ite_sec_devKey (c : Prop) [Decidable c] (s t : State) :
    (if c then s else t).sec.devKey = if c then s.sec.devKey else t.sec.devKey := apply_ite (·.sec.devKey) c s t

@[simp] theorem Sys.held_upd (x : Sys) u0 u1 u2 : Sys.held { x with level := u0, tL1 := u1, tL4 := u2 } = x.held := rfl

@[simp] theorem foldl_sys_held {α : Type} (f : State → α → State) (l : List α) (s : State)
    (h : ∀ t a, (f t a).sys.held = t.sys.held) : (l.foldl f s).sys.held = s.sys.held := foldl_keep (·.sys.held) f l s h

@[simp] theorem ite_sys_held (c : Prop) [Decidable c] (s t : State) :
    (if c then s else t).sys.held = if c then s.sys.held else t.sys.held := apply_ite (·.sys.held) c s t

@[simp] theorem Husk.held_upd (x : Husk) u0 u1 u2 u3 u4 : Husk.held { x with hostOpen := u0, reachedL1 := u1, main := u2, shadow := u3, divs := u4 } = x.held := rfl

@[simp] theorem foldl_husk_held {α : Type} (f : State → α → State) (l : List α) (s : State)
    (h : ∀ t a, (f t a).husk.held = t.husk.held) : (l.foldl f s).husk.held = s.husk.held := foldl_keep (·.husk.held) f l s h

@[simp] theorem ite_husk_held (c : Prop) [Decidable c] (s t : State) :
    (if c then s else t).husk.held = if c then s.husk.held else t.husk.held := apply_ite (·.husk.held) c s t

@[simp] theorem Drv.held_upd (x : Drv) u0 u1 : Drv.held { x with ch := u0, str := u1 } = x.held := rfl

@[simp] theorem foldl_drv_held {α : Type} (f : State → α → State) (l : List α) (s : State)
    (h : ∀ t a, (f t a).drv.held = t.drv.held) : (l.foldl f s).drv.held = s.drv.held := foldl_keep (·.drv.held) f l s h

@[simp] theorem ite_drv_held (c : Prop) [Decidable c] (s t : State) :
    (if c then s else t).drv.held = if c then s.drv.held else t.drv.held := apply_ite (·.drv.held) c s t

@[simp] theorem Recd.held_upd (x : Recd) u0 u1 : Recd.held { x with produced := u0, phases := u1 } = x.held := rfl

@[simp] theorem foldl_recd_held {α : Type} (f : State → α → State) (l : List α) (s : State)
    (h : ∀ t a, (f t a).recd.held = t.recd.held) : (l.foldl f s).recd.held = s.recd.held := foldl_keep (·.recd.held) f l s h

@[simp] theorem ite_recd_held (c : Prop) [Decidable c] (s t : State) :
    (if c then s else t).recd.held = if c then s.recd.held else t.recd.held := apply_ite (·.recd.held) c s t

@[simp] theorem Est.held_upd (x : Est) u0 : Est.held { x with chr := u0 } = x.held := rfl

@[simp] theorem foldl_est_held {α : Type} (f : State → α → State) (l : List α) (s : State)
    (h : ∀ t a, (f t a).est.held = t.est.held) : (l.foldl f s).est.held = s.est.held := foldl_keep (·.est.held) f l s h

@[simp] theorem ite_est_held (c : Prop) [Decidable c] (s t : State) :
    (if c then s else t).est.held = if c then s.est.held else t.est.held := apply_ite (·.est.held) c s t

@[simp] theorem Pwr.held_upd (x : Pwr) u0 : Pwr.held { x with idleAt := u0 } = x.held := rfl

@[simp] theorem foldl_pwr_held {α : Type} (f : State → α → State) (l : List α) (s : State)
    (h : ∀ t a, (f t a).pwr.held = t.pwr.held) : (l.foldl f s).pwr.held = s.pwr.held := foldl_keep (·.pwr.held) f l s h

@[simp] theorem ite_pwr_held (c : Prop) [Decidable c] (s t : State) :
    (if c then s else t).pwr.held = if c then s.pwr.held else t.pwr.held := apply_ite (·.pwr.held) c s t

@[simp] theorem Evt.held_upd (x : Evt) u0 u1 u2 u3 u4 u5 : Evt.held { x with pend := u0, lost := u1, handling := u2, overflow := u3, ovfOpen := u4, queue := u5 } = x.held := rfl

@[simp] theorem foldl_evt_held {α : Type} (f : State → α → State) (l : List α) (s : State)
    (h : ∀ t a, (f t a).evt.held = t.evt.held) : (l.foldl f s).evt.held = s.evt.held := foldl_keep (·.evt.held) f l s h

@[simp] theorem ite_evt_held (c : Prop) [Decidable c] (s t : State) :
    (if c then s else t).evt.held = if c then s.evt.held else t.evt.held := apply_ite (·.evt.held) c s t

@[simp] theorem Pins.held_upd (x : Pins) u0 u1 u2 u3 u4 u5 : Pins.held { x with canStb := u0, irq0 := u1, irq1 := u2, fault := u3, brk := u4, spiAtn := u5 } = x.held := rfl

@[simp] theorem foldl_pins_held {α : Type} (f : State → α → State) (l : List α) (s : State)
    (h : ∀ t a, (f t a).pins.held = t.pins.held) : (l.foldl f s).pins.held = s.pins.held := foldl_keep (·.pins.held) f l s h

@[simp] theorem ite_pins_held (c : Prop) [Decidable c] (s t : State) :
    (if c then s else t).pins.held = if c then s.pins.held else t.pins.held := apply_ite (·.pins.held) c s t

end Sys2Proof.Machine
end

