-- ==== Sys2Proof/Laws/KeepCodes.lean ====
section
/-! SUPPORT. What the operations of Machine/Codes.lean leave unchanged. -/

namespace Sys2Proof.Machine

theorem raiseSrc_keep (k : Nat) (s : State) :
    (raiseSrc k s).sys = s.sys ∧
    (raiseSrc k s).img = s.img ∧
    (raiseSrc k s).cfg = s.cfg ∧
    (raiseSrc k s).ring = s.ring ∧
    (raiseSrc k s).acq = s.acq ∧
    (raiseSrc k s).cur = s.cur ∧
    (raiseSrc k s).husk = s.husk ∧
    (raiseSrc k s).drv = s.drv ∧
    (raiseSrc k s).krn = s.krn ∧
    (raiseSrc k s).est = s.est ∧
    (raiseSrc k s).win = s.win ∧
    (raiseSrc k s).pairs = s.pairs ∧
    (raiseSrc k s).time = s.time ∧
    (raiseSrc k s).therm = s.therm ∧
    (raiseSrc k s).nv = s.nv ∧
    (raiseSrc k s).ledg = s.ledg ∧
    (raiseSrc k s).tally = s.tally ∧
    (raiseSrc k s).recd = s.recd ∧
    (raiseSrc k s).host = s.host ∧
    (raiseSrc k s).sec = s.sec ∧
    (raiseSrc k s).pwr = s.pwr ∧
    (raiseSrc k s).bist = s.bist ∧
    (raiseSrc k s).pins = s.pins ∧
    (raiseSrc k s).freeIx = s.freeIx ∧
    (raiseSrc k s).pending = s.pending ∧
    (raiseSrc k s).evt.held = s.evt.held := by
  simp [raiseSrc]

theorem produce_keep (w : Wait) (s : State) :
    (produce w s).sys = s.sys ∧
    (produce w s).img = s.img ∧
    (produce w s).cfg = s.cfg ∧
    (produce w s).ring = s.ring ∧
    (produce w s).acq = s.acq ∧
    (produce w s).cur = s.cur ∧
    (produce w s).husk = s.husk ∧
    (produce w s).drv = s.drv ∧
    (produce w s).krn = s.krn ∧
    (produce w s).est = s.est ∧
    (produce w s).win = s.win ∧
    (produce w s).pairs = s.pairs ∧
    (produce w s).time = s.time ∧
    (produce w s).therm = s.therm ∧
    (produce w s).nv = s.nv ∧
    (produce w s).ledg = s.ledg ∧
    (produce w s).tally = s.tally ∧
    (produce w s).host = s.host ∧
    (produce w s).sec = s.sec ∧
    (produce w s).pwr = s.pwr ∧
    (produce w s).bist = s.bist ∧
    (produce w s).evt = s.evt ∧
    (produce w s).pins = s.pins ∧
    (produce w s).freeIx = s.freeIx ∧
    (produce w s).pending = s.pending ∧
    (produce w s).recd.held = s.recd.held := by
  simp [produce]

theorem errqOverflow_keep (e : ErrEnt) (s : State) :
    (errqOverflow e s).sys = s.sys ∧
    (errqOverflow e s).img = s.img ∧
    (errqOverflow e s).cfg = s.cfg ∧
    (errqOverflow e s).ring = s.ring ∧
    (errqOverflow e s).acq = s.acq ∧
    (errqOverflow e s).cur = s.cur ∧
    (errqOverflow e s).husk = s.husk ∧
    (errqOverflow e s).drv = s.drv ∧
    (errqOverflow e s).krn = s.krn ∧
    (errqOverflow e s).est = s.est ∧
    (errqOverflow e s).win = s.win ∧
    (errqOverflow e s).pairs = s.pairs ∧
    (errqOverflow e s).time = s.time ∧
    (errqOverflow e s).therm = s.therm ∧
    (errqOverflow e s).nv = s.nv ∧
    (errqOverflow e s).ledg = s.ledg ∧
    (errqOverflow e s).tally = s.tally ∧
    (errqOverflow e s).host = s.host ∧
    (errqOverflow e s).sec = s.sec ∧
    (errqOverflow e s).pwr = s.pwr ∧
    (errqOverflow e s).bist = s.bist ∧
    (errqOverflow e s).pins = s.pins ∧
    (errqOverflow e s).freeIx = s.freeIx ∧
    (errqOverflow e s).pending = s.pending ∧
    (errqOverflow e s).recd.held = s.recd.held ∧
    (errqOverflow e s).evt.held = s.evt.held := by
  simp [errqOverflow, id @produce_keep, id @raiseSrc_keep]

theorem errqPush_keep (code : Nat) (sev : Nat) (src : Nat) (s : State) :
    (errqPush code sev src s).sys = s.sys ∧
    (errqPush code sev src s).img = s.img ∧
    (errqPush code sev src s).cfg = s.cfg ∧
    (errqPush code sev src s).ring = s.ring ∧
    (errqPush code sev src s).acq = s.acq ∧
    (errqPush code sev src s).cur = s.cur ∧
    (errqPush code sev src s).husk = s.husk ∧
    (errqPush code sev src s).drv = s.drv ∧
    (errqPush code sev src s).krn = s.krn ∧
    (errqPush code sev src s).est = s.est ∧
    (errqPush code sev src s).win = s.win ∧
    (errqPush code sev src s).pairs = s.pairs ∧
    (errqPush code sev src s).time = s.time ∧
    (errqPush code sev src s).therm = s.therm ∧
    (errqPush code sev src s).nv = s.nv ∧
    (errqPush code sev src s).ledg = s.ledg ∧
    (errqPush code sev src s).tally = s.tally ∧
    (errqPush code sev src s).host = s.host ∧
    (errqPush code sev src s).sec = s.sec ∧
    (errqPush code sev src s).pwr = s.pwr ∧
    (errqPush code sev src s).bist = s.bist ∧
    (errqPush code sev src s).pins = s.pins ∧
    (errqPush code sev src s).freeIx = s.freeIx ∧
    (errqPush code sev src s).pending = s.pending ∧
    (errqPush code sev src s).recd.held = s.recd.held ∧
    (errqPush code sev src s).evt.held = s.evt.held := by
  unfold errqPush
  repeat' split
  all_goals simp [id @errqOverflow_keep]

theorem emit_keep (code : Nat) (payload : List Byte) (s : State) (ix : Nat) :
    (emit code payload s ix).sys = s.sys ∧
    (emit code payload s ix).img = s.img ∧
    (emit code payload s ix).cfg = s.cfg ∧
    (emit code payload s ix).ring = s.ring ∧
    (emit code payload s ix).acq = s.acq ∧
    (emit code payload s ix).cur = s.cur ∧
    (emit code payload s ix).husk = s.husk ∧
    (emit code payload s ix).drv = s.drv ∧
    (emit code payload s ix).krn = s.krn ∧
    (emit code payload s ix).est = s.est ∧
    (emit code payload s ix).win = s.win ∧
    (emit code payload s ix).pairs = s.pairs ∧
    (emit code payload s ix).time = s.time ∧
    (emit code payload s ix).therm = s.therm ∧
    (emit code payload s ix).nv = s.nv ∧
    (emit code payload s ix).ledg = s.ledg ∧
    (emit code payload s ix).tally = s.tally ∧
    (emit code payload s ix).host = s.host ∧
    (emit code payload s ix).sec = s.sec ∧
    (emit code payload s ix).pwr = s.pwr ∧
    (emit code payload s ix).bist = s.bist ∧
    (emit code payload s ix).pins = s.pins ∧
    (emit code payload s ix).freeIx = s.freeIx ∧
    (emit code payload s ix).pending = s.pending ∧
    (emit code payload s ix).recd.held = s.recd.held ∧
    (emit code payload s ix).evt.held = s.evt.held := by
  unfold emit
  repeat' split
  all_goals simp [id @errqPush_keep, id @produce_keep, id @raiseSrc_keep]

theorem emitIf_keep (b : Bool) (code : Nat) (payload : List Byte) (s : State) (ix : Nat) :
    (emitIf b code payload s ix).sys = s.sys ∧
    (emitIf b code payload s ix).img = s.img ∧
    (emitIf b code payload s ix).cfg = s.cfg ∧
    (emitIf b code payload s ix).ring = s.ring ∧
    (emitIf b code payload s ix).acq = s.acq ∧
    (emitIf b code payload s ix).cur = s.cur ∧
    (emitIf b code payload s ix).husk = s.husk ∧
    (emitIf b code payload s ix).drv = s.drv ∧
    (emitIf b code payload s ix).krn = s.krn ∧
    (emitIf b code payload s ix).est = s.est ∧
    (emitIf b code payload s ix).win = s.win ∧
    (emitIf b code payload s ix).pairs = s.pairs ∧
    (emitIf b code payload s ix).time = s.time ∧
    (emitIf b code payload s ix).therm = s.therm ∧
    (emitIf b code payload s ix).nv = s.nv ∧
    (emitIf b code payload s ix).ledg = s.ledg ∧
    (emitIf b code payload s ix).tally = s.tally ∧
    (emitIf b code payload s ix).host = s.host ∧
    (emitIf b code payload s ix).sec = s.sec ∧
    (emitIf b code payload s ix).pwr = s.pwr ∧
    (emitIf b code payload s ix).bist = s.bist ∧
    (emitIf b code payload s ix).pins = s.pins ∧
    (emitIf b code payload s ix).freeIx = s.freeIx ∧
    (emitIf b code payload s ix).pending = s.pending ∧
    (emitIf b code payload s ix).recd.held = s.recd.held ∧
    (emitIf b code payload s ix).evt.held = s.evt.held := by
  unfold emitIf
  repeat' split
  all_goals simp [id @emit_keep]

end Sys2Proof.Machine
end

