-- ==== Sys2Proof/Laws/KeepOps.lean ====
section
/-! SUPPORT. What the operations of Machine/Ops.lean leave unchanged. -/

namespace Sys2Proof.Machine

theorem takeFree_keep (s : State) :
    (takeFree s).2.sys = s.sys ∧
    (takeFree s).2.img = s.img ∧
    (takeFree s).2.cfg = s.cfg ∧
    (takeFree s).2.ring = s.ring ∧
    (takeFree s).2.acq = s.acq ∧
    (takeFree s).2.cur = s.cur ∧
    (takeFree s).2.husk = s.husk ∧
    (takeFree s).2.drv = s.drv ∧
    (takeFree s).2.krn = s.krn ∧
    (takeFree s).2.est = s.est ∧
    (takeFree s).2.win = s.win ∧
    (takeFree s).2.pairs = s.pairs ∧
    (takeFree s).2.time = s.time ∧
    (takeFree s).2.therm = s.therm ∧
    (takeFree s).2.nv = s.nv ∧
    (takeFree s).2.ledg = s.ledg ∧
    (takeFree s).2.tally = s.tally ∧
    (takeFree s).2.recd = s.recd ∧
    (takeFree s).2.host = s.host ∧
    (takeFree s).2.sec = s.sec ∧
    (takeFree s).2.pwr = s.pwr ∧
    (takeFree s).2.bist = s.bist ∧
    (takeFree s).2.evt = s.evt ∧
    (takeFree s).2.pins = s.pins ∧
    (takeFree s).2.pending = s.pending := by
  simp [takeFree]

theorem phaseStart_keep (b : BitVec 4) (s : State) :
    (phaseStart b s).sys = s.sys ∧
    (phaseStart b s).img = s.img ∧
    (phaseStart b s).cfg = s.cfg ∧
    (phaseStart b s).ring = s.ring ∧
    (phaseStart b s).acq = s.acq ∧
    (phaseStart b s).cur = s.cur ∧
    (phaseStart b s).husk = s.husk ∧
    (phaseStart b s).drv = s.drv ∧
    (phaseStart b s).krn = s.krn ∧
    (phaseStart b s).est = s.est ∧
    (phaseStart b s).win = s.win ∧
    (phaseStart b s).pairs = s.pairs ∧
    (phaseStart b s).time = s.time ∧
    (phaseStart b s).therm = s.therm ∧
    (phaseStart b s).nv = s.nv ∧
    (phaseStart b s).ledg = s.ledg ∧
    (phaseStart b s).tally = s.tally ∧
    (phaseStart b s).host = s.host ∧
    (phaseStart b s).sec = s.sec ∧
    (phaseStart b s).pwr = s.pwr ∧
    (phaseStart b s).bist = s.bist ∧
    (phaseStart b s).evt = s.evt ∧
    (phaseStart b s).pins = s.pins ∧
    (phaseStart b s).freeIx = s.freeIx ∧
    (phaseStart b s).pending = s.pending := by
  simp [phaseStart]

theorem phaseEnd_keep (b : BitVec 4) (s : State) :
    (phaseEnd b s).sys = s.sys ∧
    (phaseEnd b s).img = s.img ∧
    (phaseEnd b s).cfg = s.cfg ∧
    (phaseEnd b s).ring = s.ring ∧
    (phaseEnd b s).acq = s.acq ∧
    (phaseEnd b s).cur = s.cur ∧
    (phaseEnd b s).husk = s.husk ∧
    (phaseEnd b s).drv = s.drv ∧
    (phaseEnd b s).krn = s.krn ∧
    (phaseEnd b s).est = s.est ∧
    (phaseEnd b s).win = s.win ∧
    (phaseEnd b s).pairs = s.pairs ∧
    (phaseEnd b s).time = s.time ∧
    (phaseEnd b s).therm = s.therm ∧
    (phaseEnd b s).nv = s.nv ∧
    (phaseEnd b s).ledg = s.ledg ∧
    (phaseEnd b s).tally = s.tally ∧
    (phaseEnd b s).host = s.host ∧
    (phaseEnd b s).sec = s.sec ∧
    (phaseEnd b s).pwr = s.pwr ∧
    (phaseEnd b s).bist = s.bist ∧
    (phaseEnd b s).pins = s.pins ∧
    (phaseEnd b s).freeIx = s.freeIx ∧
    (phaseEnd b s).pending = s.pending ∧
    (phaseEnd b s).recd.held = s.recd.held ∧
    (phaseEnd b s).evt.held = s.evt.held := by
  simp only [phaseEnd]
  repeat' split
  all_goals simp [id @emit_keep]

theorem setRing_keep (s : State) (r : Nat) (x : Ring) :
    (setRing s r x).sys = s.sys ∧
    (setRing s r x).img = s.img ∧
    (setRing s r x).cfg = s.cfg ∧
    (setRing s r x).acq = s.acq ∧
    (setRing s r x).cur = s.cur ∧
    (setRing s r x).husk = s.husk ∧
    (setRing s r x).drv = s.drv ∧
    (setRing s r x).krn = s.krn ∧
    (setRing s r x).est = s.est ∧
    (setRing s r x).win = s.win ∧
    (setRing s r x).pairs = s.pairs ∧
    (setRing s r x).time = s.time ∧
    (setRing s r x).therm = s.therm ∧
    (setRing s r x).nv = s.nv ∧
    (setRing s r x).ledg = s.ledg ∧
    (setRing s r x).tally = s.tally ∧
    (setRing s r x).recd = s.recd ∧
    (setRing s r x).host = s.host ∧
    (setRing s r x).sec = s.sec ∧
    (setRing s r x).pwr = s.pwr ∧
    (setRing s r x).bist = s.bist ∧
    (setRing s r x).evt = s.evt ∧
    (setRing s r x).pins = s.pins ∧
    (setRing s r x).freeIx = s.freeIx ∧
    (setRing s r x).pending = s.pending := by
  simp [setRing]

theorem modRing_keep (s : State) (r : Nat) (f : Ring → Ring) :
    (modRing s r f).sys = s.sys ∧
    (modRing s r f).img = s.img ∧
    (modRing s r f).cfg = s.cfg ∧
    (modRing s r f).acq = s.acq ∧
    (modRing s r f).cur = s.cur ∧
    (modRing s r f).husk = s.husk ∧
    (modRing s r f).drv = s.drv ∧
    (modRing s r f).krn = s.krn ∧
    (modRing s r f).est = s.est ∧
    (modRing s r f).win = s.win ∧
    (modRing s r f).pairs = s.pairs ∧
    (modRing s r f).time = s.time ∧
    (modRing s r f).therm = s.therm ∧
    (modRing s r f).nv = s.nv ∧
    (modRing s r f).ledg = s.ledg ∧
    (modRing s r f).tally = s.tally ∧
    (modRing s r f).recd = s.recd ∧
    (modRing s r f).host = s.host ∧
    (modRing s r f).sec = s.sec ∧
    (modRing s r f).pwr = s.pwr ∧
    (modRing s r f).bist = s.bist ∧
    (modRing s r f).evt = s.evt ∧
    (modRing s r f).pins = s.pins ∧
    (modRing s r f).freeIx = s.freeIx ∧
    (modRing s r f).pending = s.pending := by
  simp [modRing, id @setRing_keep]

theorem setNode_keep (s : State) (r : Nat) (p : Nat) (n : Node) :
    (setNode s r p n).sys = s.sys ∧
    (setNode s r p n).img = s.img ∧
    (setNode s r p n).cfg = s.cfg ∧
    (setNode s r p n).acq = s.acq ∧
    (setNode s r p n).cur = s.cur ∧
    (setNode s r p n).husk = s.husk ∧
    (setNode s r p n).drv = s.drv ∧
    (setNode s r p n).krn = s.krn ∧
    (setNode s r p n).est = s.est ∧
    (setNode s r p n).win = s.win ∧
    (setNode s r p n).pairs = s.pairs ∧
    (setNode s r p n).time = s.time ∧
    (setNode s r p n).therm = s.therm ∧
    (setNode s r p n).nv = s.nv ∧
    (setNode s r p n).ledg = s.ledg ∧
    (setNode s r p n).tally = s.tally ∧
    (setNode s r p n).recd = s.recd ∧
    (setNode s r p n).host = s.host ∧
    (setNode s r p n).sec = s.sec ∧
    (setNode s r p n).pwr = s.pwr ∧
    (setNode s r p n).bist = s.bist ∧
    (setNode s r p n).evt = s.evt ∧
    (setNode s r p n).pins = s.pins ∧
    (setNode s r p n).freeIx = s.freeIx ∧
    (setNode s r p n).pending = s.pending := by
  simp [setNode, id @modRing_keep]

theorem modNode_keep (s : State) (r : Nat) (p : Nat) (f : Node → Node) :
    (modNode s r p f).sys = s.sys ∧
    (modNode s r p f).img = s.img ∧
    (modNode s r p f).cfg = s.cfg ∧
    (modNode s r p f).acq = s.acq ∧
    (modNode s r p f).cur = s.cur ∧
    (modNode s r p f).husk = s.husk ∧
    (modNode s r p f).drv = s.drv ∧
    (modNode s r p f).krn = s.krn ∧
    (modNode s r p f).est = s.est ∧
    (modNode s r p f).win = s.win ∧
    (modNode s r p f).pairs = s.pairs ∧
    (modNode s r p f).time = s.time ∧
    (modNode s r p f).therm = s.therm ∧
    (modNode s r p f).nv = s.nv ∧
    (modNode s r p f).ledg = s.ledg ∧
    (modNode s r p f).tally = s.tally ∧
    (modNode s r p f).recd = s.recd ∧
    (modNode s r p f).host = s.host ∧
    (modNode s r p f).sec = s.sec ∧
    (modNode s r p f).pwr = s.pwr ∧
    (modNode s r p f).bist = s.bist ∧
    (modNode s r p f).evt = s.evt ∧
    (modNode s r p f).pins = s.pins ∧
    (modNode s r p f).freeIx = s.freeIx ∧
    (modNode s r p f).pending = s.pending := by
  simp [modNode, id @setNode_keep]

theorem mgmtPush_keep (r : Nat) (m : Mgmt) (s : State) :
    (mgmtPush r m s).sys = s.sys ∧
    (mgmtPush r m s).img = s.img ∧
    (mgmtPush r m s).cfg = s.cfg ∧
    (mgmtPush r m s).acq = s.acq ∧
    (mgmtPush r m s).cur = s.cur ∧
    (mgmtPush r m s).husk = s.husk ∧
    (mgmtPush r m s).drv = s.drv ∧
    (mgmtPush r m s).krn = s.krn ∧
    (mgmtPush r m s).est = s.est ∧
    (mgmtPush r m s).win = s.win ∧
    (mgmtPush r m s).pairs = s.pairs ∧
    (mgmtPush r m s).time = s.time ∧
    (mgmtPush r m s).therm = s.therm ∧
    (mgmtPush r m s).nv = s.nv ∧
    (mgmtPush r m s).ledg = s.ledg ∧
    (mgmtPush r m s).tally = s.tally ∧
    (mgmtPush r m s).recd = s.recd ∧
    (mgmtPush r m s).host = s.host ∧
    (mgmtPush r m s).sec = s.sec ∧
    (mgmtPush r m s).pwr = s.pwr ∧
    (mgmtPush r m s).bist = s.bist ∧
    (mgmtPush r m s).evt = s.evt ∧
    (mgmtPush r m s).pins = s.pins ∧
    (mgmtPush r m s).freeIx = s.freeIx ∧
    (mgmtPush r m s).pending = s.pending := by
  simp [mgmtPush, id @modRing_keep]

theorem modCell_keep (s : State) (c : Nat) (f : CellAcq → CellAcq) :
    (modCell s c f).sys = s.sys ∧
    (modCell s c f).img = s.img ∧
    (modCell s c f).cfg = s.cfg ∧
    (modCell s c f).ring = s.ring ∧
    (modCell s c f).cur = s.cur ∧
    (modCell s c f).husk = s.husk ∧
    (modCell s c f).drv = s.drv ∧
    (modCell s c f).krn = s.krn ∧
    (modCell s c f).est = s.est ∧
    (modCell s c f).win = s.win ∧
    (modCell s c f).pairs = s.pairs ∧
    (modCell s c f).time = s.time ∧
    (modCell s c f).therm = s.therm ∧
    (modCell s c f).nv = s.nv ∧
    (modCell s c f).ledg = s.ledg ∧
    (modCell s c f).tally = s.tally ∧
    (modCell s c f).recd = s.recd ∧
    (modCell s c f).host = s.host ∧
    (modCell s c f).sec = s.sec ∧
    (modCell s c f).pwr = s.pwr ∧
    (modCell s c f).bist = s.bist ∧
    (modCell s c f).evt = s.evt ∧
    (modCell s c f).pins = s.pins ∧
    (modCell s c f).freeIx = s.freeIx ∧
    (modCell s c f).pending = s.pending := by
  simp [modCell]

theorem modECell_keep (s : State) (c : Nat) (f : ECell → ECell) :
    (modECell s c f).sys = s.sys ∧
    (modECell s c f).img = s.img ∧
    (modECell s c f).cfg = s.cfg ∧
    (modECell s c f).ring = s.ring ∧
    (modECell s c f).acq = s.acq ∧
    (modECell s c f).cur = s.cur ∧
    (modECell s c f).husk = s.husk ∧
    (modECell s c f).drv = s.drv ∧
    (modECell s c f).krn = s.krn ∧
    (modECell s c f).win = s.win ∧
    (modECell s c f).pairs = s.pairs ∧
    (modECell s c f).time = s.time ∧
    (modECell s c f).therm = s.therm ∧
    (modECell s c f).nv = s.nv ∧
    (modECell s c f).ledg = s.ledg ∧
    (modECell s c f).tally = s.tally ∧
    (modECell s c f).recd = s.recd ∧
    (modECell s c f).host = s.host ∧
    (modECell s c f).sec = s.sec ∧
    (modECell s c f).pwr = s.pwr ∧
    (modECell s c f).bist = s.bist ∧
    (modECell s c f).evt = s.evt ∧
    (modECell s c f).pins = s.pins ∧
    (modECell s c f).freeIx = s.freeIx ∧
    (modECell s c f).pending = s.pending := by
  simp [modECell]

theorem modEStr_keep (s : State) (i : Nat) (f : EStr → EStr) :
    (modEStr s i f).sys = s.sys ∧
    (modEStr s i f).img = s.img ∧
    (modEStr s i f).cfg = s.cfg ∧
    (modEStr s i f).ring = s.ring ∧
    (modEStr s i f).acq = s.acq ∧
    (modEStr s i f).cur = s.cur ∧
    (modEStr s i f).husk = s.husk ∧
    (modEStr s i f).drv = s.drv ∧
    (modEStr s i f).krn = s.krn ∧
    (modEStr s i f).win = s.win ∧
    (modEStr s i f).pairs = s.pairs ∧
    (modEStr s i f).time = s.time ∧
    (modEStr s i f).therm = s.therm ∧
    (modEStr s i f).nv = s.nv ∧
    (modEStr s i f).ledg = s.ledg ∧
    (modEStr s i f).tally = s.tally ∧
    (modEStr s i f).recd = s.recd ∧
    (modEStr s i f).host = s.host ∧
    (modEStr s i f).sec = s.sec ∧
    (modEStr s i f).pwr = s.pwr ∧
    (modEStr s i f).bist = s.bist ∧
    (modEStr s i f).evt = s.evt ∧
    (modEStr s i f).pins = s.pins ∧
    (modEStr s i f).freeIx = s.freeIx ∧
    (modEStr s i f).pending = s.pending := by
  simp [modEStr]

theorem modKCell_keep (s : State) (c : Nat) (f : KCell → KCell) :
    (modKCell s c f).sys = s.sys ∧
    (modKCell s c f).img = s.img ∧
    (modKCell s c f).cfg = s.cfg ∧
    (modKCell s c f).ring = s.ring ∧
    (modKCell s c f).acq = s.acq ∧
    (modKCell s c f).cur = s.cur ∧
    (modKCell s c f).husk = s.husk ∧
    (modKCell s c f).drv = s.drv ∧
    (modKCell s c f).est = s.est ∧
    (modKCell s c f).win = s.win ∧
    (modKCell s c f).pairs = s.pairs ∧
    (modKCell s c f).time = s.time ∧
    (modKCell s c f).therm = s.therm ∧
    (modKCell s c f).nv = s.nv ∧
    (modKCell s c f).ledg = s.ledg ∧
    (modKCell s c f).tally = s.tally ∧
    (modKCell s c f).recd = s.recd ∧
    (modKCell s c f).host = s.host ∧
    (modKCell s c f).sec = s.sec ∧
    (modKCell s c f).pwr = s.pwr ∧
    (modKCell s c f).bist = s.bist ∧
    (modKCell s c f).evt = s.evt ∧
    (modKCell s c f).pins = s.pins ∧
    (modKCell s c f).freeIx = s.freeIx ∧
    (modKCell s c f).pending = s.pending := by
  simp [modKCell]

theorem modWCell_keep (s : State) (c : Nat) (f : WCell → WCell) :
    (modWCell s c f).sys = s.sys ∧
    (modWCell s c f).img = s.img ∧
    (modWCell s c f).cfg = s.cfg ∧
    (modWCell s c f).ring = s.ring ∧
    (modWCell s c f).acq = s.acq ∧
    (modWCell s c f).cur = s.cur ∧
    (modWCell s c f).husk = s.husk ∧
    (modWCell s c f).drv = s.drv ∧
    (modWCell s c f).krn = s.krn ∧
    (modWCell s c f).est = s.est ∧
    (modWCell s c f).pairs = s.pairs ∧
    (modWCell s c f).time = s.time ∧
    (modWCell s c f).therm = s.therm ∧
    (modWCell s c f).nv = s.nv ∧
    (modWCell s c f).ledg = s.ledg ∧
    (modWCell s c f).tally = s.tally ∧
    (modWCell s c f).recd = s.recd ∧
    (modWCell s c f).host = s.host ∧
    (modWCell s c f).sec = s.sec ∧
    (modWCell s c f).pwr = s.pwr ∧
    (modWCell s c f).bist = s.bist ∧
    (modWCell s c f).evt = s.evt ∧
    (modWCell s c f).pins = s.pins ∧
    (modWCell s c f).freeIx = s.freeIx ∧
    (modWCell s c f).pending = s.pending := by
  simp [modWCell]

theorem modTCell_keep (s : State) (c : Nat) (f : TCell → TCell) :
    (modTCell s c f).sys = s.sys ∧
    (modTCell s c f).img = s.img ∧
    (modTCell s c f).cfg = s.cfg ∧
    (modTCell s c f).ring = s.ring ∧
    (modTCell s c f).acq = s.acq ∧
    (modTCell s c f).cur = s.cur ∧
    (modTCell s c f).husk = s.husk ∧
    (modTCell s c f).drv = s.drv ∧
    (modTCell s c f).krn = s.krn ∧
    (modTCell s c f).est = s.est ∧
    (modTCell s c f).win = s.win ∧
    (modTCell s c f).pairs = s.pairs ∧
    (modTCell s c f).time = s.time ∧
    (modTCell s c f).therm = s.therm ∧
    (modTCell s c f).nv = s.nv ∧
    (modTCell s c f).ledg = s.ledg ∧
    (modTCell s c f).recd = s.recd ∧
    (modTCell s c f).host = s.host ∧
    (modTCell s c f).sec = s.sec ∧
    (modTCell s c f).pwr = s.pwr ∧
    (modTCell s c f).bist = s.bist ∧
    (modTCell s c f).evt = s.evt ∧
    (modTCell s c f).pins = s.pins ∧
    (modTCell s c f).freeIx = s.freeIx ∧
    (modTCell s c f).pending = s.pending := by
  simp [modTCell]

theorem modCh_keep (s : State) (n : Nat) (f : CurCh → CurCh) :
    (modCh s n f).sys = s.sys ∧
    (modCh s n f).img = s.img ∧
    (modCh s n f).cfg = s.cfg ∧
    (modCh s n f).ring = s.ring ∧
    (modCh s n f).acq = s.acq ∧
    (modCh s n f).husk = s.husk ∧
    (modCh s n f).drv = s.drv ∧
    (modCh s n f).krn = s.krn ∧
    (modCh s n f).est = s.est ∧
    (modCh s n f).win = s.win ∧
    (modCh s n f).pairs = s.pairs ∧
    (modCh s n f).time = s.time ∧
    (modCh s n f).therm = s.therm ∧
    (modCh s n f).nv = s.nv ∧
    (modCh s n f).ledg = s.ledg ∧
    (modCh s n f).tally = s.tally ∧
    (modCh s n f).recd = s.recd ∧
    (modCh s n f).host = s.host ∧
    (modCh s n f).sec = s.sec ∧
    (modCh s n f).pwr = s.pwr ∧
    (modCh s n f).bist = s.bist ∧
    (modCh s n f).evt = s.evt ∧
    (modCh s n f).pins = s.pins ∧
    (modCh s n f).freeIx = s.freeIx ∧
    (modCh s n f).pending = s.pending := by
  simp [modCh]

theorem modCurStr_keep (s : State) (i : Nat) (f : CurStr → CurStr) :
    (modCurStr s i f).sys = s.sys ∧
    (modCurStr s i f).img = s.img ∧
    (modCurStr s i f).cfg = s.cfg ∧
    (modCurStr s i f).ring = s.ring ∧
    (modCurStr s i f).acq = s.acq ∧
    (modCurStr s i f).husk = s.husk ∧
    (modCurStr s i f).drv = s.drv ∧
    (modCurStr s i f).krn = s.krn ∧
    (modCurStr s i f).est = s.est ∧
    (modCurStr s i f).win = s.win ∧
    (modCurStr s i f).pairs = s.pairs ∧
    (modCurStr s i f).time = s.time ∧
    (modCurStr s i f).therm = s.therm ∧
    (modCurStr s i f).nv = s.nv ∧
    (modCurStr s i f).ledg = s.ledg ∧
    (modCurStr s i f).tally = s.tally ∧
    (modCurStr s i f).recd = s.recd ∧
    (modCurStr s i f).host = s.host ∧
    (modCurStr s i f).sec = s.sec ∧
    (modCurStr s i f).pwr = s.pwr ∧
    (modCurStr s i f).bist = s.bist ∧
    (modCurStr s i f).evt = s.evt ∧
    (modCurStr s i f).pins = s.pins ∧
    (modCurStr s i f).freeIx = s.freeIx ∧
    (modCurStr s i f).pending = s.pending := by
  simp [modCurStr]

theorem setCopy_keep (s : State) (shadow : Bool) (h : HuskCopy) :
    (setCopy s shadow h).sys = s.sys ∧
    (setCopy s shadow h).img = s.img ∧
    (setCopy s shadow h).cfg = s.cfg ∧
    (setCopy s shadow h).ring = s.ring ∧
    (setCopy s shadow h).acq = s.acq ∧
    (setCopy s shadow h).cur = s.cur ∧
    (setCopy s shadow h).drv = s.drv ∧
    (setCopy s shadow h).krn = s.krn ∧
    (setCopy s shadow h).est = s.est ∧
    (setCopy s shadow h).win = s.win ∧
    (setCopy s shadow h).pairs = s.pairs ∧
    (setCopy s shadow h).time = s.time ∧
    (setCopy s shadow h).therm = s.therm ∧
    (setCopy s shadow h).nv = s.nv ∧
    (setCopy s shadow h).ledg = s.ledg ∧
    (setCopy s shadow h).tally = s.tally ∧
    (setCopy s shadow h).recd = s.recd ∧
    (setCopy s shadow h).host = s.host ∧
    (setCopy s shadow h).sec = s.sec ∧
    (setCopy s shadow h).pwr = s.pwr ∧
    (setCopy s shadow h).bist = s.bist ∧
    (setCopy s shadow h).evt = s.evt ∧
    (setCopy s shadow h).pins = s.pins ∧
    (setCopy s shadow h).freeIx = s.freeIx ∧
    (setCopy s shadow h).pending = s.pending ∧
    (setCopy s shadow h).husk.held = s.husk.held := by
  unfold setCopy
  repeat' split
  all_goals simp

theorem modBoth_keep (s : State) (f : HuskCopy → HuskCopy) :
    (modBoth s f).sys = s.sys ∧
    (modBoth s f).img = s.img ∧
    (modBoth s f).cfg = s.cfg ∧
    (modBoth s f).ring = s.ring ∧
    (modBoth s f).acq = s.acq ∧
    (modBoth s f).cur = s.cur ∧
    (modBoth s f).drv = s.drv ∧
    (modBoth s f).krn = s.krn ∧
    (modBoth s f).est = s.est ∧
    (modBoth s f).win = s.win ∧
    (modBoth s f).pairs = s.pairs ∧
    (modBoth s f).time = s.time ∧
    (modBoth s f).therm = s.therm ∧
    (modBoth s f).nv = s.nv ∧
    (modBoth s f).ledg = s.ledg ∧
    (modBoth s f).tally = s.tally ∧
    (modBoth s f).recd = s.recd ∧
    (modBoth s f).host = s.host ∧
    (modBoth s f).sec = s.sec ∧
    (modBoth s f).pwr = s.pwr ∧
    (modBoth s f).bist = s.bist ∧
    (modBoth s f).evt = s.evt ∧
    (modBoth s f).pins = s.pins ∧
    (modBoth s f).freeIx = s.freeIx ∧
    (modBoth s f).pending = s.pending ∧
    (modBoth s f).husk.held = s.husk.held := by
  simp [modBoth]

theorem modDrvCh_keep (s : State) (n : Nat) (f : DrvCh → DrvCh) :
    (modDrvCh s n f).sys = s.sys ∧
    (modDrvCh s n f).img = s.img ∧
    (modDrvCh s n f).cfg = s.cfg ∧
    (modDrvCh s n f).ring = s.ring ∧
    (modDrvCh s n f).acq = s.acq ∧
    (modDrvCh s n f).cur = s.cur ∧
    (modDrvCh s n f).husk = s.husk ∧
    (modDrvCh s n f).krn = s.krn ∧
    (modDrvCh s n f).est = s.est ∧
    (modDrvCh s n f).win = s.win ∧
    (modDrvCh s n f).pairs = s.pairs ∧
    (modDrvCh s n f).time = s.time ∧
    (modDrvCh s n f).therm = s.therm ∧
    (modDrvCh s n f).nv = s.nv ∧
    (modDrvCh s n f).ledg = s.ledg ∧
    (modDrvCh s n f).tally = s.tally ∧
    (modDrvCh s n f).recd = s.recd ∧
    (modDrvCh s n f).host = s.host ∧
    (modDrvCh s n f).sec = s.sec ∧
    (modDrvCh s n f).pwr = s.pwr ∧
    (modDrvCh s n f).bist = s.bist ∧
    (modDrvCh s n f).evt = s.evt ∧
    (modDrvCh s n f).pins = s.pins ∧
    (modDrvCh s n f).freeIx = s.freeIx ∧
    (modDrvCh s n f).pending = s.pending ∧
    (modDrvCh s n f).drv.held = s.drv.held := by
  simp [modDrvCh]

theorem modDrvStr_keep (s : State) (i : Nat) (f : DrvStr → DrvStr) :
    (modDrvStr s i f).sys = s.sys ∧
    (modDrvStr s i f).img = s.img ∧
    (modDrvStr s i f).cfg = s.cfg ∧
    (modDrvStr s i f).ring = s.ring ∧
    (modDrvStr s i f).acq = s.acq ∧
    (modDrvStr s i f).cur = s.cur ∧
    (modDrvStr s i f).husk = s.husk ∧
    (modDrvStr s i f).krn = s.krn ∧
    (modDrvStr s i f).est = s.est ∧
    (modDrvStr s i f).win = s.win ∧
    (modDrvStr s i f).pairs = s.pairs ∧
    (modDrvStr s i f).time = s.time ∧
    (modDrvStr s i f).therm = s.therm ∧
    (modDrvStr s i f).nv = s.nv ∧
    (modDrvStr s i f).ledg = s.ledg ∧
    (modDrvStr s i f).tally = s.tally ∧
    (modDrvStr s i f).recd = s.recd ∧
    (modDrvStr s i f).host = s.host ∧
    (modDrvStr s i f).sec = s.sec ∧
    (modDrvStr s i f).pwr = s.pwr ∧
    (modDrvStr s i f).bist = s.bist ∧
    (modDrvStr s i f).evt = s.evt ∧
    (modDrvStr s i f).pins = s.pins ∧
    (modDrvStr s i f).freeIx = s.freeIx ∧
    (modDrvStr s i f).pending = s.pending ∧
    (modDrvStr s i f).drv.held = s.drv.held := by
  simp [modDrvStr]

theorem jumpMark_keep (i : Nat) (v : Nat) (s : State) :
    (jumpMark i v s).sys = s.sys ∧
    (jumpMark i v s).img = s.img ∧
    (jumpMark i v s).cfg = s.cfg ∧
    (jumpMark i v s).ring = s.ring ∧
    (jumpMark i v s).acq = s.acq ∧
    (jumpMark i v s).cur = s.cur ∧
    (jumpMark i v s).husk = s.husk ∧
    (jumpMark i v s).drv = s.drv ∧
    (jumpMark i v s).krn = s.krn ∧
    (jumpMark i v s).win = s.win ∧
    (jumpMark i v s).pairs = s.pairs ∧
    (jumpMark i v s).time = s.time ∧
    (jumpMark i v s).therm = s.therm ∧
    (jumpMark i v s).nv = s.nv ∧
    (jumpMark i v s).ledg = s.ledg ∧
    (jumpMark i v s).tally = s.tally ∧
    (jumpMark i v s).recd = s.recd ∧
    (jumpMark i v s).host = s.host ∧
    (jumpMark i v s).sec = s.sec ∧
    (jumpMark i v s).pwr = s.pwr ∧
    (jumpMark i v s).bist = s.bist ∧
    (jumpMark i v s).evt = s.evt ∧
    (jumpMark i v s).pins = s.pins ∧
    (jumpMark i v s).freeIx = s.freeIx ∧
    (jumpMark i v s).pending = s.pending := by
  simp [jumpMark]

theorem jumpMarks_keep (v : Nat) (s : State) :
    (jumpMarks v s).sys = s.sys ∧
    (jumpMarks v s).img = s.img ∧
    (jumpMarks v s).cfg = s.cfg ∧
    (jumpMarks v s).ring = s.ring ∧
    (jumpMarks v s).acq = s.acq ∧
    (jumpMarks v s).cur = s.cur ∧
    (jumpMarks v s).husk = s.husk ∧
    (jumpMarks v s).drv = s.drv ∧
    (jumpMarks v s).krn = s.krn ∧
    (jumpMarks v s).win = s.win ∧
    (jumpMarks v s).pairs = s.pairs ∧
    (jumpMarks v s).time = s.time ∧
    (jumpMarks v s).therm = s.therm ∧
    (jumpMarks v s).nv = s.nv ∧
    (jumpMarks v s).ledg = s.ledg ∧
    (jumpMarks v s).tally = s.tally ∧
    (jumpMarks v s).recd = s.recd ∧
    (jumpMarks v s).host = s.host ∧
    (jumpMarks v s).sec = s.sec ∧
    (jumpMarks v s).pwr = s.pwr ∧
    (jumpMarks v s).bist = s.bist ∧
    (jumpMarks v s).evt = s.evt ∧
    (jumpMarks v s).pins = s.pins ∧
    (jumpMarks v s).freeIx = s.freeIx ∧
    (jumpMarks v s).pending = s.pending := by
  simp [jumpMarks, id @jumpMark_keep]

theorem reserveSet_keep (v : Bool) (s : State) :
    (reserveSet v s).sys = s.sys ∧
    (reserveSet v s).img = s.img ∧
    (reserveSet v s).cfg = s.cfg ∧
    (reserveSet v s).ring = s.ring ∧
    (reserveSet v s).acq = s.acq ∧
    (reserveSet v s).cur = s.cur ∧
    (reserveSet v s).husk = s.husk ∧
    (reserveSet v s).drv = s.drv ∧
    (reserveSet v s).krn = s.krn ∧
    (reserveSet v s).win = s.win ∧
    (reserveSet v s).pairs = s.pairs ∧
    (reserveSet v s).time = s.time ∧
    (reserveSet v s).therm = s.therm ∧
    (reserveSet v s).nv = s.nv ∧
    (reserveSet v s).ledg = s.ledg ∧
    (reserveSet v s).tally = s.tally ∧
    (reserveSet v s).recd = s.recd ∧
    (reserveSet v s).host = s.host ∧
    (reserveSet v s).sec = s.sec ∧
    (reserveSet v s).pwr = s.pwr ∧
    (reserveSet v s).bist = s.bist ∧
    (reserveSet v s).evt = s.evt ∧
    (reserveSet v s).pins = s.pins ∧
    (reserveSet v s).freeIx = s.freeIx ∧
    (reserveSet v s).pending = s.pending := by
  simp [reserveSet, id @jumpMarks_keep]

theorem reserveRestore_keep (cause : Nat) (s : State) :
    (reserveRestore cause s).sys = s.sys ∧
    (reserveRestore cause s).img = s.img ∧
    (reserveRestore cause s).cfg = s.cfg ∧
    (reserveRestore cause s).ring = s.ring ∧
    (reserveRestore cause s).acq = s.acq ∧
    (reserveRestore cause s).cur = s.cur ∧
    (reserveRestore cause s).husk = s.husk ∧
    (reserveRestore cause s).drv = s.drv ∧
    (reserveRestore cause s).krn = s.krn ∧
    (reserveRestore cause s).win = s.win ∧
    (reserveRestore cause s).pairs = s.pairs ∧
    (reserveRestore cause s).time = s.time ∧
    (reserveRestore cause s).therm = s.therm ∧
    (reserveRestore cause s).nv = s.nv ∧
    (reserveRestore cause s).ledg = s.ledg ∧
    (reserveRestore cause s).tally = s.tally ∧
    (reserveRestore cause s).host = s.host ∧
    (reserveRestore cause s).sec = s.sec ∧
    (reserveRestore cause s).pwr = s.pwr ∧
    (reserveRestore cause s).bist = s.bist ∧
    (reserveRestore cause s).pins = s.pins ∧
    (reserveRestore cause s).freeIx = s.freeIx ∧
    (reserveRestore cause s).pending = s.pending ∧
    (reserveRestore cause s).recd.held = s.recd.held ∧
    (reserveRestore cause s).evt.held = s.evt.held := by
  unfold reserveRestore
  repeat' split
  all_goals simp [id @emit_keep, id @reserveSet_keep]

theorem charStop_keep (result : Nat) (s : State) :
    (charStop result s).sys = s.sys ∧
    (charStop result s).img = s.img ∧
    (charStop result s).cfg = s.cfg ∧
    (charStop result s).ring = s.ring ∧
    (charStop result s).acq = s.acq ∧
    (charStop result s).cur = s.cur ∧
    (charStop result s).husk = s.husk ∧
    (charStop result s).drv = s.drv ∧
    (charStop result s).krn = s.krn ∧
    (charStop result s).win = s.win ∧
    (charStop result s).pairs = s.pairs ∧
    (charStop result s).time = s.time ∧
    (charStop result s).therm = s.therm ∧
    (charStop result s).nv = s.nv ∧
    (charStop result s).ledg = s.ledg ∧
    (charStop result s).tally = s.tally ∧
    (charStop result s).host = s.host ∧
    (charStop result s).sec = s.sec ∧
    (charStop result s).pwr = s.pwr ∧
    (charStop result s).bist = s.bist ∧
    (charStop result s).pins = s.pins ∧
    (charStop result s).freeIx = s.freeIx ∧
    (charStop result s).pending = s.pending ∧
    (charStop result s).recd.held = s.recd.held ∧
    (charStop result s).est.held = s.est.held ∧
    (charStop result s).evt.held = s.evt.held := by
  unfold charStop
  repeat' split
  all_goals simp [id @emit_keep, id @phaseEnd_keep]

theorem settleChar_keep (s : State) :
    (settleChar s).sys = s.sys ∧
    (settleChar s).img = s.img ∧
    (settleChar s).cfg = s.cfg ∧
    (settleChar s).ring = s.ring ∧
    (settleChar s).acq = s.acq ∧
    (settleChar s).cur = s.cur ∧
    (settleChar s).husk = s.husk ∧
    (settleChar s).drv = s.drv ∧
    (settleChar s).krn = s.krn ∧
    (settleChar s).win = s.win ∧
    (settleChar s).pairs = s.pairs ∧
    (settleChar s).time = s.time ∧
    (settleChar s).therm = s.therm ∧
    (settleChar s).nv = s.nv ∧
    (settleChar s).ledg = s.ledg ∧
    (settleChar s).tally = s.tally ∧
    (settleChar s).host = s.host ∧
    (settleChar s).sec = s.sec ∧
    (settleChar s).pwr = s.pwr ∧
    (settleChar s).bist = s.bist ∧
    (settleChar s).pins = s.pins ∧
    (settleChar s).freeIx = s.freeIx ∧
    (settleChar s).pending = s.pending ∧
    (settleChar s).recd.held = s.recd.held ∧
    (settleChar s).est.held = s.est.held ∧
    (settleChar s).evt.held = s.evt.held := by
  unfold settleChar
  repeat' split
  all_goals simp [id @charStop_keep]

theorem lgRequest_keep (code : Nat) (payload : List Byte) (s : State) :
    (lgRequest code payload s).sys = s.sys ∧
    (lgRequest code payload s).img = s.img ∧
    (lgRequest code payload s).cfg = s.cfg ∧
    (lgRequest code payload s).ring = s.ring ∧
    (lgRequest code payload s).acq = s.acq ∧
    (lgRequest code payload s).cur = s.cur ∧
    (lgRequest code payload s).husk = s.husk ∧
    (lgRequest code payload s).drv = s.drv ∧
    (lgRequest code payload s).krn = s.krn ∧
    (lgRequest code payload s).est = s.est ∧
    (lgRequest code payload s).win = s.win ∧
    (lgRequest code payload s).pairs = s.pairs ∧
    (lgRequest code payload s).time = s.time ∧
    (lgRequest code payload s).therm = s.therm ∧
    (lgRequest code payload s).ledg = s.ledg ∧
    (lgRequest code payload s).tally = s.tally ∧
    (lgRequest code payload s).recd = s.recd ∧
    (lgRequest code payload s).host = s.host ∧
    (lgRequest code payload s).sec = s.sec ∧
    (lgRequest code payload s).pwr = s.pwr ∧
    (lgRequest code payload s).bist = s.bist ∧
    (lgRequest code payload s).evt = s.evt ∧
    (lgRequest code payload s).pins = s.pins ∧
    (lgRequest code payload s).freeIx = s.freeIx ∧
    (lgRequest code payload s).pending = s.pending := by
  simp [lgRequest]

end Sys2Proof.Machine
end

