-- ==== Sys2Proof/Laws/KeepFlags.lean ====
section
/-! SUPPORT. What the operations of Machine/Flags.lean leave unchanged. -/

namespace Sys2Proof.Machine

theorem bootBegin_keep (cause : Nat) (step : Nat) (s : State) :
    (bootBegin cause step s).img = s.img ∧
    (bootBegin cause step s).cfg = s.cfg ∧
    (bootBegin cause step s).ring = s.ring ∧
    (bootBegin cause step s).acq = s.acq ∧
    (bootBegin cause step s).cur = s.cur ∧
    (bootBegin cause step s).husk = s.husk ∧
    (bootBegin cause step s).drv = s.drv ∧
    (bootBegin cause step s).krn = s.krn ∧
    (bootBegin cause step s).est = s.est ∧
    (bootBegin cause step s).win = s.win ∧
    (bootBegin cause step s).pairs = s.pairs ∧
    (bootBegin cause step s).time = s.time ∧
    (bootBegin cause step s).therm = s.therm ∧
    (bootBegin cause step s).nv = s.nv ∧
    (bootBegin cause step s).ledg = s.ledg ∧
    (bootBegin cause step s).tally = s.tally ∧
    (bootBegin cause step s).recd = s.recd ∧
    (bootBegin cause step s).host = s.host ∧
    (bootBegin cause step s).sec = s.sec ∧
    (bootBegin cause step s).pwr = s.pwr ∧
    (bootBegin cause step s).bist = s.bist ∧
    (bootBegin cause step s).evt = s.evt ∧
    (bootBegin cause step s).pins = s.pins ∧
    (bootBegin cause step s).freeIx = s.freeIx ∧
    (bootBegin cause step s).pending = s.pending := by
  simp [bootBegin]

theorem rearmClose_keep (is : List Nat) (s : State) :
    (rearmClose is s).sys = s.sys ∧
    (rearmClose is s).img = s.img ∧
    (rearmClose is s).cfg = s.cfg ∧
    (rearmClose is s).ring = s.ring ∧
    (rearmClose is s).acq = s.acq ∧
    (rearmClose is s).cur = s.cur ∧
    (rearmClose is s).drv = s.drv ∧
    (rearmClose is s).krn = s.krn ∧
    (rearmClose is s).est = s.est ∧
    (rearmClose is s).win = s.win ∧
    (rearmClose is s).pairs = s.pairs ∧
    (rearmClose is s).time = s.time ∧
    (rearmClose is s).therm = s.therm ∧
    (rearmClose is s).nv = s.nv ∧
    (rearmClose is s).ledg = s.ledg ∧
    (rearmClose is s).tally = s.tally ∧
    (rearmClose is s).recd = s.recd ∧
    (rearmClose is s).host = s.host ∧
    (rearmClose is s).sec = s.sec ∧
    (rearmClose is s).pwr = s.pwr ∧
    (rearmClose is s).bist = s.bist ∧
    (rearmClose is s).evt = s.evt ∧
    (rearmClose is s).pins = s.pins ∧
    (rearmClose is s).freeIx = s.freeIx ∧
    (rearmClose is s).pending = s.pending ∧
    (rearmClose is s).husk.held = s.husk.held := by
  simp [rearmClose]

theorem levelRecord_keep (new : Word) (s : State) :
    (levelRecord new s).sys = s.sys ∧
    (levelRecord new s).img = s.img ∧
    (levelRecord new s).cfg = s.cfg ∧
    (levelRecord new s).ring = s.ring ∧
    (levelRecord new s).acq = s.acq ∧
    (levelRecord new s).cur = s.cur ∧
    (levelRecord new s).husk = s.husk ∧
    (levelRecord new s).drv = s.drv ∧
    (levelRecord new s).krn = s.krn ∧
    (levelRecord new s).est = s.est ∧
    (levelRecord new s).win = s.win ∧
    (levelRecord new s).pairs = s.pairs ∧
    (levelRecord new s).time = s.time ∧
    (levelRecord new s).therm = s.therm ∧
    (levelRecord new s).nv = s.nv ∧
    (levelRecord new s).ledg = s.ledg ∧
    (levelRecord new s).tally = s.tally ∧
    (levelRecord new s).host = s.host ∧
    (levelRecord new s).sec = s.sec ∧
    (levelRecord new s).pwr = s.pwr ∧
    (levelRecord new s).bist = s.bist ∧
    (levelRecord new s).pins = s.pins ∧
    (levelRecord new s).freeIx = s.freeIx ∧
    (levelRecord new s).pending = s.pending ∧
    (levelRecord new s).recd.held = s.recd.held ∧
    (levelRecord new s).evt.held = s.evt.held := by
  simp only [levelRecord]
  repeat' split
  all_goals simp [id @emit_keep]

theorem levelTimes_keep (new : Word) (l1 : List Nat) (s : State) :
    (levelTimes new l1 s).img = s.img ∧
    (levelTimes new l1 s).cfg = s.cfg ∧
    (levelTimes new l1 s).ring = s.ring ∧
    (levelTimes new l1 s).acq = s.acq ∧
    (levelTimes new l1 s).cur = s.cur ∧
    (levelTimes new l1 s).drv = s.drv ∧
    (levelTimes new l1 s).krn = s.krn ∧
    (levelTimes new l1 s).est = s.est ∧
    (levelTimes new l1 s).win = s.win ∧
    (levelTimes new l1 s).pairs = s.pairs ∧
    (levelTimes new l1 s).time = s.time ∧
    (levelTimes new l1 s).therm = s.therm ∧
    (levelTimes new l1 s).nv = s.nv ∧
    (levelTimes new l1 s).ledg = s.ledg ∧
    (levelTimes new l1 s).tally = s.tally ∧
    (levelTimes new l1 s).recd = s.recd ∧
    (levelTimes new l1 s).host = s.host ∧
    (levelTimes new l1 s).sec = s.sec ∧
    (levelTimes new l1 s).pwr = s.pwr ∧
    (levelTimes new l1 s).bist = s.bist ∧
    (levelTimes new l1 s).evt = s.evt ∧
    (levelTimes new l1 s).pins = s.pins ∧
    (levelTimes new l1 s).freeIx = s.freeIx ∧
    (levelTimes new l1 s).pending = s.pending ∧
    (levelTimes new l1 s).sys.held = s.sys.held ∧
    (levelTimes new l1 s).husk.held = s.husk.held := by
  simp [levelTimes]

theorem settleLevel_keep (s : State) :
    (settleLevel s).img = s.img ∧
    (settleLevel s).cfg = s.cfg ∧
    (settleLevel s).ring = s.ring ∧
    (settleLevel s).acq = s.acq ∧
    (settleLevel s).cur = s.cur ∧
    (settleLevel s).drv = s.drv ∧
    (settleLevel s).krn = s.krn ∧
    (settleLevel s).est = s.est ∧
    (settleLevel s).win = s.win ∧
    (settleLevel s).pairs = s.pairs ∧
    (settleLevel s).time = s.time ∧
    (settleLevel s).therm = s.therm ∧
    (settleLevel s).nv = s.nv ∧
    (settleLevel s).ledg = s.ledg ∧
    (settleLevel s).tally = s.tally ∧
    (settleLevel s).host = s.host ∧
    (settleLevel s).sec = s.sec ∧
    (settleLevel s).pwr = s.pwr ∧
    (settleLevel s).bist = s.bist ∧
    (settleLevel s).pins = s.pins ∧
    (settleLevel s).freeIx = s.freeIx ∧
    (settleLevel s).pending = s.pending ∧
    (settleLevel s).sys.held = s.sys.held ∧
    (settleLevel s).husk.held = s.husk.held ∧
    (settleLevel s).recd.held = s.recd.held ∧
    (settleLevel s).evt.held = s.evt.held := by
  simp only [settleLevel]
  repeat' split
  all_goals simp [id @levelRecord_keep, id @levelTimes_keep, id @rearmClose_keep]

theorem settlePins_keep (s : State) :
    (settlePins s).sys = s.sys ∧
    (settlePins s).img = s.img ∧
    (settlePins s).cfg = s.cfg ∧
    (settlePins s).ring = s.ring ∧
    (settlePins s).acq = s.acq ∧
    (settlePins s).cur = s.cur ∧
    (settlePins s).husk = s.husk ∧
    (settlePins s).drv = s.drv ∧
    (settlePins s).krn = s.krn ∧
    (settlePins s).est = s.est ∧
    (settlePins s).win = s.win ∧
    (settlePins s).pairs = s.pairs ∧
    (settlePins s).time = s.time ∧
    (settlePins s).therm = s.therm ∧
    (settlePins s).nv = s.nv ∧
    (settlePins s).ledg = s.ledg ∧
    (settlePins s).tally = s.tally ∧
    (settlePins s).recd = s.recd ∧
    (settlePins s).host = s.host ∧
    (settlePins s).sec = s.sec ∧
    (settlePins s).bist = s.bist ∧
    (settlePins s).evt = s.evt ∧
    (settlePins s).freeIx = s.freeIx ∧
    (settlePins s).pending = s.pending ∧
    (settlePins s).pwr.held = s.pwr.held ∧
    (settlePins s).pins.held = s.pins.held := by
  simp [settlePins]

end Sys2Proof.Machine
end

