-- ==== Sys2Proof/Laws/KeepHusk.lean ====
section
/-! SUPPORT. What the operations of Machine/Husk.lean leave unchanged. -/

namespace Sys2Proof.Machine

theorem adviseEdges_keep (oldM : Tab Bool) (oldS : Tab Bool) (s : State) :
    (adviseEdges oldM oldS s).sys = s.sys ∧
    (adviseEdges oldM oldS s).img = s.img ∧
    (adviseEdges oldM oldS s).cfg = s.cfg ∧
    (adviseEdges oldM oldS s).ring = s.ring ∧
    (adviseEdges oldM oldS s).acq = s.acq ∧
    (adviseEdges oldM oldS s).cur = s.cur ∧
    (adviseEdges oldM oldS s).husk = s.husk ∧
    (adviseEdges oldM oldS s).drv = s.drv ∧
    (adviseEdges oldM oldS s).krn = s.krn ∧
    (adviseEdges oldM oldS s).est = s.est ∧
    (adviseEdges oldM oldS s).win = s.win ∧
    (adviseEdges oldM oldS s).pairs = s.pairs ∧
    (adviseEdges oldM oldS s).time = s.time ∧
    (adviseEdges oldM oldS s).therm = s.therm ∧
    (adviseEdges oldM oldS s).nv = s.nv ∧
    (adviseEdges oldM oldS s).ledg = s.ledg ∧
    (adviseEdges oldM oldS s).tally = s.tally ∧
    (adviseEdges oldM oldS s).host = s.host ∧
    (adviseEdges oldM oldS s).sec = s.sec ∧
    (adviseEdges oldM oldS s).pwr = s.pwr ∧
    (adviseEdges oldM oldS s).bist = s.bist ∧
    (adviseEdges oldM oldS s).pins = s.pins ∧
    (adviseEdges oldM oldS s).freeIx = s.freeIx ∧
    (adviseEdges oldM oldS s).pending = s.pending ∧
    (adviseEdges oldM oldS s).recd.held = s.recd.held ∧
    (adviseEdges oldM oldS s).evt.held = s.evt.held := by
  simp [adviseEdges, id @emitIf_keep]

theorem settleNet_keep (s : State) :
    (settleNet s).sys = s.sys ∧
    (settleNet s).img = s.img ∧
    (settleNet s).cfg = s.cfg ∧
    (settleNet s).ring = s.ring ∧
    (settleNet s).acq = s.acq ∧
    (settleNet s).cur = s.cur ∧
    (settleNet s).drv = s.drv ∧
    (settleNet s).krn = s.krn ∧
    (settleNet s).est = s.est ∧
    (settleNet s).win = s.win ∧
    (settleNet s).pairs = s.pairs ∧
    (settleNet s).time = s.time ∧
    (settleNet s).therm = s.therm ∧
    (settleNet s).nv = s.nv ∧
    (settleNet s).ledg = s.ledg ∧
    (settleNet s).tally = s.tally ∧
    (settleNet s).host = s.host ∧
    (settleNet s).sec = s.sec ∧
    (settleNet s).pwr = s.pwr ∧
    (settleNet s).bist = s.bist ∧
    (settleNet s).pins = s.pins ∧
    (settleNet s).freeIx = s.freeIx ∧
    (settleNet s).pending = s.pending ∧
    (settleNet s).husk.held = s.husk.held ∧
    (settleNet s).recd.held = s.recd.held ∧
    (settleNet s).evt.held = s.evt.held := by
  simp [settleNet, id @adviseEdges_keep]

theorem settleHostOpen_keep (s : State) :
    (settleHostOpen s).sys = s.sys ∧
    (settleHostOpen s).img = s.img ∧
    (settleHostOpen s).cfg = s.cfg ∧
    (settleHostOpen s).ring = s.ring ∧
    (settleHostOpen s).acq = s.acq ∧
    (settleHostOpen s).cur = s.cur ∧
    (settleHostOpen s).drv = s.drv ∧
    (settleHostOpen s).krn = s.krn ∧
    (settleHostOpen s).est = s.est ∧
    (settleHostOpen s).win = s.win ∧
    (settleHostOpen s).pairs = s.pairs ∧
    (settleHostOpen s).time = s.time ∧
    (settleHostOpen s).therm = s.therm ∧
    (settleHostOpen s).nv = s.nv ∧
    (settleHostOpen s).ledg = s.ledg ∧
    (settleHostOpen s).tally = s.tally ∧
    (settleHostOpen s).recd = s.recd ∧
    (settleHostOpen s).host = s.host ∧
    (settleHostOpen s).sec = s.sec ∧
    (settleHostOpen s).pwr = s.pwr ∧
    (settleHostOpen s).bist = s.bist ∧
    (settleHostOpen s).evt = s.evt ∧
    (settleHostOpen s).pins = s.pins ∧
    (settleHostOpen s).freeIx = s.freeIx ∧
    (settleHostOpen s).pending = s.pending ∧
    (settleHostOpen s).husk.held = s.husk.held := by
  simp [settleHostOpen]

theorem settleDrvCh_keep (s : State) (n : Nat) :
    (settleDrvCh s n).sys = s.sys ∧
    (settleDrvCh s n).img = s.img ∧
    (settleDrvCh s n).cfg = s.cfg ∧
    (settleDrvCh s n).ring = s.ring ∧
    (settleDrvCh s n).acq = s.acq ∧
    (settleDrvCh s n).cur = s.cur ∧
    (settleDrvCh s n).husk = s.husk ∧
    (settleDrvCh s n).krn = s.krn ∧
    (settleDrvCh s n).est = s.est ∧
    (settleDrvCh s n).win = s.win ∧
    (settleDrvCh s n).pairs = s.pairs ∧
    (settleDrvCh s n).time = s.time ∧
    (settleDrvCh s n).therm = s.therm ∧
    (settleDrvCh s n).nv = s.nv ∧
    (settleDrvCh s n).ledg = s.ledg ∧
    (settleDrvCh s n).tally = s.tally ∧
    (settleDrvCh s n).recd = s.recd ∧
    (settleDrvCh s n).host = s.host ∧
    (settleDrvCh s n).sec = s.sec ∧
    (settleDrvCh s n).pwr = s.pwr ∧
    (settleDrvCh s n).bist = s.bist ∧
    (settleDrvCh s n).evt = s.evt ∧
    (settleDrvCh s n).pins = s.pins ∧
    (settleDrvCh s n).freeIx = s.freeIx ∧
    (settleDrvCh s n).pending = s.pending ∧
    (settleDrvCh s n).drv.held = s.drv.held := by
  simp only [settleDrvCh]
  repeat' split
  all_goals simp [id @modDrvCh_keep]

theorem settleDrv_keep (s : State) :
    (settleDrv s).sys = s.sys ∧
    (settleDrv s).img = s.img ∧
    (settleDrv s).cfg = s.cfg ∧
    (settleDrv s).ring = s.ring ∧
    (settleDrv s).acq = s.acq ∧
    (settleDrv s).cur = s.cur ∧
    (settleDrv s).husk = s.husk ∧
    (settleDrv s).krn = s.krn ∧
    (settleDrv s).est = s.est ∧
    (settleDrv s).win = s.win ∧
    (settleDrv s).pairs = s.pairs ∧
    (settleDrv s).time = s.time ∧
    (settleDrv s).therm = s.therm ∧
    (settleDrv s).nv = s.nv ∧
    (settleDrv s).ledg = s.ledg ∧
    (settleDrv s).tally = s.tally ∧
    (settleDrv s).recd = s.recd ∧
    (settleDrv s).host = s.host ∧
    (settleDrv s).sec = s.sec ∧
    (settleDrv s).pwr = s.pwr ∧
    (settleDrv s).bist = s.bist ∧
    (settleDrv s).evt = s.evt ∧
    (settleDrv s).pins = s.pins ∧
    (settleDrv s).freeIx = s.freeIx ∧
    (settleDrv s).pending = s.pending ∧
    (settleDrv s).drv.held = s.drv.held := by
  simp [settleDrv, id @settleDrvCh_keep]

theorem settleNodeAuth_keep (r : Nat) (s : State) (p : Nat) :
    (settleNodeAuth r s p).sys = s.sys ∧
    (settleNodeAuth r s p).img = s.img ∧
    (settleNodeAuth r s p).cfg = s.cfg ∧
    (settleNodeAuth r s p).acq = s.acq ∧
    (settleNodeAuth r s p).cur = s.cur ∧
    (settleNodeAuth r s p).husk = s.husk ∧
    (settleNodeAuth r s p).drv = s.drv ∧
    (settleNodeAuth r s p).krn = s.krn ∧
    (settleNodeAuth r s p).est = s.est ∧
    (settleNodeAuth r s p).win = s.win ∧
    (settleNodeAuth r s p).pairs = s.pairs ∧
    (settleNodeAuth r s p).time = s.time ∧
    (settleNodeAuth r s p).therm = s.therm ∧
    (settleNodeAuth r s p).nv = s.nv ∧
    (settleNodeAuth r s p).ledg = s.ledg ∧
    (settleNodeAuth r s p).tally = s.tally ∧
    (settleNodeAuth r s p).recd = s.recd ∧
    (settleNodeAuth r s p).host = s.host ∧
    (settleNodeAuth r s p).sec = s.sec ∧
    (settleNodeAuth r s p).pwr = s.pwr ∧
    (settleNodeAuth r s p).bist = s.bist ∧
    (settleNodeAuth r s p).evt = s.evt ∧
    (settleNodeAuth r s p).pins = s.pins ∧
    (settleNodeAuth r s p).freeIx = s.freeIx ∧
    (settleNodeAuth r s p).pending = s.pending := by
  simp only [settleNodeAuth]
  repeat' split
  all_goals simp [id @modNode_keep]

theorem settleAuth_keep (s : State) :
    (settleAuth s).sys = s.sys ∧
    (settleAuth s).img = s.img ∧
    (settleAuth s).cfg = s.cfg ∧
    (settleAuth s).acq = s.acq ∧
    (settleAuth s).cur = s.cur ∧
    (settleAuth s).husk = s.husk ∧
    (settleAuth s).drv = s.drv ∧
    (settleAuth s).krn = s.krn ∧
    (settleAuth s).est = s.est ∧
    (settleAuth s).win = s.win ∧
    (settleAuth s).pairs = s.pairs ∧
    (settleAuth s).time = s.time ∧
    (settleAuth s).therm = s.therm ∧
    (settleAuth s).nv = s.nv ∧
    (settleAuth s).ledg = s.ledg ∧
    (settleAuth s).tally = s.tally ∧
    (settleAuth s).recd = s.recd ∧
    (settleAuth s).host = s.host ∧
    (settleAuth s).sec = s.sec ∧
    (settleAuth s).pwr = s.pwr ∧
    (settleAuth s).bist = s.bist ∧
    (settleAuth s).evt = s.evt ∧
    (settleAuth s).pins = s.pins ∧
    (settleAuth s).freeIx = s.freeIx ∧
    (settleAuth s).pending = s.pending := by
  simp [settleAuth, id @settleNodeAuth_keep]

theorem noteOpen_keep (i : Nat) (s : State) :
    (noteOpen i s).sys = s.sys ∧
    (noteOpen i s).img = s.img ∧
    (noteOpen i s).cfg = s.cfg ∧
    (noteOpen i s).ring = s.ring ∧
    (noteOpen i s).acq = s.acq ∧
    (noteOpen i s).cur = s.cur ∧
    (noteOpen i s).husk = s.husk ∧
    (noteOpen i s).krn = s.krn ∧
    (noteOpen i s).est = s.est ∧
    (noteOpen i s).win = s.win ∧
    (noteOpen i s).pairs = s.pairs ∧
    (noteOpen i s).time = s.time ∧
    (noteOpen i s).therm = s.therm ∧
    (noteOpen i s).nv = s.nv ∧
    (noteOpen i s).ledg = s.ledg ∧
    (noteOpen i s).tally = s.tally ∧
    (noteOpen i s).recd = s.recd ∧
    (noteOpen i s).host = s.host ∧
    (noteOpen i s).sec = s.sec ∧
    (noteOpen i s).pwr = s.pwr ∧
    (noteOpen i s).bist = s.bist ∧
    (noteOpen i s).evt = s.evt ∧
    (noteOpen i s).pins = s.pins ∧
    (noteOpen i s).freeIx = s.freeIx ∧
    (noteOpen i s).pending = s.pending ∧
    (noteOpen i s).drv.held = s.drv.held := by
  unfold noteOpen
  repeat' split
  all_goals simp [id @modDrvStr_keep]

theorem noteOpenEnd_keep (i : Nat) (s : State) :
    (noteOpenEnd i s).sys = s.sys ∧
    (noteOpenEnd i s).img = s.img ∧
    (noteOpenEnd i s).cfg = s.cfg ∧
    (noteOpenEnd i s).ring = s.ring ∧
    (noteOpenEnd i s).acq = s.acq ∧
    (noteOpenEnd i s).cur = s.cur ∧
    (noteOpenEnd i s).husk = s.husk ∧
    (noteOpenEnd i s).krn = s.krn ∧
    (noteOpenEnd i s).est = s.est ∧
    (noteOpenEnd i s).win = s.win ∧
    (noteOpenEnd i s).pairs = s.pairs ∧
    (noteOpenEnd i s).time = s.time ∧
    (noteOpenEnd i s).therm = s.therm ∧
    (noteOpenEnd i s).nv = s.nv ∧
    (noteOpenEnd i s).ledg = s.ledg ∧
    (noteOpenEnd i s).tally = s.tally ∧
    (noteOpenEnd i s).recd = s.recd ∧
    (noteOpenEnd i s).host = s.host ∧
    (noteOpenEnd i s).sec = s.sec ∧
    (noteOpenEnd i s).pwr = s.pwr ∧
    (noteOpenEnd i s).bist = s.bist ∧
    (noteOpenEnd i s).evt = s.evt ∧
    (noteOpenEnd i s).pins = s.pins ∧
    (noteOpenEnd i s).freeIx = s.freeIx ∧
    (noteOpenEnd i s).pending = s.pending ∧
    (noteOpenEnd i s).drv.held = s.drv.held := by
  unfold noteOpenEnd
  repeat' split
  all_goals simp [id @modDrvStr_keep]

theorem abortSeq_keep (q : Nat) (c : Bool) (s : State) :
    (abortSeq q c s).sys = s.sys ∧
    (abortSeq q c s).img = s.img ∧
    (abortSeq q c s).cfg = s.cfg ∧
    (abortSeq q c s).ring = s.ring ∧
    (abortSeq q c s).acq = s.acq ∧
    (abortSeq q c s).cur = s.cur ∧
    (abortSeq q c s).drv = s.drv ∧
    (abortSeq q c s).krn = s.krn ∧
    (abortSeq q c s).est = s.est ∧
    (abortSeq q c s).win = s.win ∧
    (abortSeq q c s).pairs = s.pairs ∧
    (abortSeq q c s).time = s.time ∧
    (abortSeq q c s).therm = s.therm ∧
    (abortSeq q c s).nv = s.nv ∧
    (abortSeq q c s).ledg = s.ledg ∧
    (abortSeq q c s).tally = s.tally ∧
    (abortSeq q c s).recd = s.recd ∧
    (abortSeq q c s).host = s.host ∧
    (abortSeq q c s).sec = s.sec ∧
    (abortSeq q c s).pwr = s.pwr ∧
    (abortSeq q c s).bist = s.bist ∧
    (abortSeq q c s).evt = s.evt ∧
    (abortSeq q c s).pins = s.pins ∧
    (abortSeq q c s).freeIx = s.freeIx ∧
    (abortSeq q c s).pending = s.pending ∧
    (abortSeq q c s).husk.held = s.husk.held := by
  simp only [abortSeq]
  repeat' split
  all_goals simp [id @setCopy_keep]

theorem abortStanding_keep (m : List Bool) (q : Nat) (s : State) :
    (abortStanding m q s).sys = s.sys ∧
    (abortStanding m q s).img = s.img ∧
    (abortStanding m q s).cfg = s.cfg ∧
    (abortStanding m q s).ring = s.ring ∧
    (abortStanding m q s).acq = s.acq ∧
    (abortStanding m q s).cur = s.cur ∧
    (abortStanding m q s).drv = s.drv ∧
    (abortStanding m q s).krn = s.krn ∧
    (abortStanding m q s).est = s.est ∧
    (abortStanding m q s).win = s.win ∧
    (abortStanding m q s).pairs = s.pairs ∧
    (abortStanding m q s).time = s.time ∧
    (abortStanding m q s).therm = s.therm ∧
    (abortStanding m q s).nv = s.nv ∧
    (abortStanding m q s).ledg = s.ledg ∧
    (abortStanding m q s).tally = s.tally ∧
    (abortStanding m q s).recd = s.recd ∧
    (abortStanding m q s).host = s.host ∧
    (abortStanding m q s).sec = s.sec ∧
    (abortStanding m q s).pwr = s.pwr ∧
    (abortStanding m q s).bist = s.bist ∧
    (abortStanding m q s).evt = s.evt ∧
    (abortStanding m q s).pins = s.pins ∧
    (abortStanding m q s).freeIx = s.freeIx ∧
    (abortStanding m q s).pending = s.pending ∧
    (abortStanding m q s).husk.held = s.husk.held := by
  unfold abortStanding
  repeat' split
  all_goals simp [id @abortSeq_keep]

theorem orderlyOpen_keep (m : List Bool) (i : Nat) (s : State) :
    (orderlyOpen m i s).sys = s.sys ∧
    (orderlyOpen m i s).img = s.img ∧
    (orderlyOpen m i s).cfg = s.cfg ∧
    (orderlyOpen m i s).ring = s.ring ∧
    (orderlyOpen m i s).acq = s.acq ∧
    (orderlyOpen m i s).cur = s.cur ∧
    (orderlyOpen m i s).krn = s.krn ∧
    (orderlyOpen m i s).est = s.est ∧
    (orderlyOpen m i s).win = s.win ∧
    (orderlyOpen m i s).pairs = s.pairs ∧
    (orderlyOpen m i s).time = s.time ∧
    (orderlyOpen m i s).therm = s.therm ∧
    (orderlyOpen m i s).nv = s.nv ∧
    (orderlyOpen m i s).ledg = s.ledg ∧
    (orderlyOpen m i s).tally = s.tally ∧
    (orderlyOpen m i s).recd = s.recd ∧
    (orderlyOpen m i s).host = s.host ∧
    (orderlyOpen m i s).sec = s.sec ∧
    (orderlyOpen m i s).pwr = s.pwr ∧
    (orderlyOpen m i s).bist = s.bist ∧
    (orderlyOpen m i s).evt = s.evt ∧
    (orderlyOpen m i s).pins = s.pins ∧
    (orderlyOpen m i s).freeIx = s.freeIx ∧
    (orderlyOpen m i s).pending = s.pending ∧
    (orderlyOpen m i s).husk.held = s.husk.held ∧
    (orderlyOpen m i s).drv.held = s.drv.held := by
  simp [orderlyOpen, id @abortStanding_keep, id @noteOpen_keep, id @noteOpenEnd_keep, id @setCopy_keep]

theorem fastOpen_keep (m : List Bool) (i : Nat) (s : State) :
    (fastOpen m i s).sys = s.sys ∧
    (fastOpen m i s).img = s.img ∧
    (fastOpen m i s).cfg = s.cfg ∧
    (fastOpen m i s).ring = s.ring ∧
    (fastOpen m i s).acq = s.acq ∧
    (fastOpen m i s).cur = s.cur ∧
    (fastOpen m i s).krn = s.krn ∧
    (fastOpen m i s).est = s.est ∧
    (fastOpen m i s).win = s.win ∧
    (fastOpen m i s).pairs = s.pairs ∧
    (fastOpen m i s).time = s.time ∧
    (fastOpen m i s).therm = s.therm ∧
    (fastOpen m i s).nv = s.nv ∧
    (fastOpen m i s).ledg = s.ledg ∧
    (fastOpen m i s).tally = s.tally ∧
    (fastOpen m i s).recd = s.recd ∧
    (fastOpen m i s).host = s.host ∧
    (fastOpen m i s).sec = s.sec ∧
    (fastOpen m i s).pwr = s.pwr ∧
    (fastOpen m i s).bist = s.bist ∧
    (fastOpen m i s).evt = s.evt ∧
    (fastOpen m i s).pins = s.pins ∧
    (fastOpen m i s).freeIx = s.freeIx ∧
    (fastOpen m i s).pending = s.pending ∧
    (fastOpen m i s).husk.held = s.husk.held ∧
    (fastOpen m i s).drv.held = s.drv.held := by
  simp [fastOpen, id @abortStanding_keep, id @noteOpen_keep, id @noteOpenEnd_keep, id @setCopy_keep]

theorem settleOverflow_keep (s : State) :
    (settleOverflow s).sys = s.sys ∧
    (settleOverflow s).img = s.img ∧
    (settleOverflow s).cfg = s.cfg ∧
    (settleOverflow s).ring = s.ring ∧
    (settleOverflow s).acq = s.acq ∧
    (settleOverflow s).cur = s.cur ∧
    (settleOverflow s).krn = s.krn ∧
    (settleOverflow s).est = s.est ∧
    (settleOverflow s).win = s.win ∧
    (settleOverflow s).pairs = s.pairs ∧
    (settleOverflow s).time = s.time ∧
    (settleOverflow s).therm = s.therm ∧
    (settleOverflow s).nv = s.nv ∧
    (settleOverflow s).ledg = s.ledg ∧
    (settleOverflow s).tally = s.tally ∧
    (settleOverflow s).recd = s.recd ∧
    (settleOverflow s).host = s.host ∧
    (settleOverflow s).sec = s.sec ∧
    (settleOverflow s).pwr = s.pwr ∧
    (settleOverflow s).bist = s.bist ∧
    (settleOverflow s).pins = s.pins ∧
    (settleOverflow s).freeIx = s.freeIx ∧
    (settleOverflow s).pending = s.pending ∧
    (settleOverflow s).husk.held = s.husk.held ∧
    (settleOverflow s).drv.held = s.drv.held ∧
    (settleOverflow s).evt.held = s.evt.held := by
  unfold settleOverflow
  repeat' split
  all_goals simp [id @orderlyOpen_keep]

theorem settle_keep (s : State) :
    (settle s).img = s.img ∧
    (settle s).cfg = s.cfg ∧
    (settle s).acq = s.acq ∧
    (settle s).cur = s.cur ∧
    (settle s).krn = s.krn ∧
    (settle s).win = s.win ∧
    (settle s).pairs = s.pairs ∧
    (settle s).time = s.time ∧
    (settle s).therm = s.therm ∧
    (settle s).nv = s.nv ∧
    (settle s).ledg = s.ledg ∧
    (settle s).tally = s.tally ∧
    (settle s).host = s.host ∧
    (settle s).sec = s.sec ∧
    (settle s).bist = s.bist ∧
    (settle s).freeIx = s.freeIx ∧
    (settle s).pending = s.pending ∧
    (settle s).sys.held = s.sys.held ∧
    (settle s).husk.held = s.husk.held ∧
    (settle s).drv.held = s.drv.held ∧
    (settle s).recd.held = s.recd.held ∧
    (settle s).est.held = s.est.held ∧
    (settle s).pwr.held = s.pwr.held ∧
    (settle s).evt.held = s.evt.held ∧
    (settle s).pins.held = s.pins.held := by
  simp [settle, id @settleAuth_keep, id @settleChar_keep, id @settleDrv_keep, id @settleHostOpen_keep,
      id @settleLevel_keep, id @settleNet_keep, id @settleOverflow_keep, id @settlePins_keep]

theorem countCause_keep (i : Nat) (s : State) :
    (countCause i s).sys = s.sys ∧
    (countCause i s).img = s.img ∧
    (countCause i s).cfg = s.cfg ∧
    (countCause i s).ring = s.ring ∧
    (countCause i s).acq = s.acq ∧
    (countCause i s).cur = s.cur ∧
    (countCause i s).drv = s.drv ∧
    (countCause i s).krn = s.krn ∧
    (countCause i s).est = s.est ∧
    (countCause i s).win = s.win ∧
    (countCause i s).pairs = s.pairs ∧
    (countCause i s).time = s.time ∧
    (countCause i s).therm = s.therm ∧
    (countCause i s).nv = s.nv ∧
    (countCause i s).ledg = s.ledg ∧
    (countCause i s).tally = s.tally ∧
    (countCause i s).recd = s.recd ∧
    (countCause i s).host = s.host ∧
    (countCause i s).sec = s.sec ∧
    (countCause i s).pwr = s.pwr ∧
    (countCause i s).bist = s.bist ∧
    (countCause i s).evt = s.evt ∧
    (countCause i s).pins = s.pins ∧
    (countCause i s).freeIx = s.freeIx ∧
    (countCause i s).pending = s.pending := by
  simp [countCause]

theorem startGrace_keep (i : Nat) (s : State) :
    (startGrace i s).sys = s.sys ∧
    (startGrace i s).img = s.img ∧
    (startGrace i s).cfg = s.cfg ∧
    (startGrace i s).ring = s.ring ∧
    (startGrace i s).acq = s.acq ∧
    (startGrace i s).cur = s.cur ∧
    (startGrace i s).drv = s.drv ∧
    (startGrace i s).krn = s.krn ∧
    (startGrace i s).est = s.est ∧
    (startGrace i s).win = s.win ∧
    (startGrace i s).pairs = s.pairs ∧
    (startGrace i s).time = s.time ∧
    (startGrace i s).therm = s.therm ∧
    (startGrace i s).nv = s.nv ∧
    (startGrace i s).ledg = s.ledg ∧
    (startGrace i s).tally = s.tally ∧
    (startGrace i s).recd = s.recd ∧
    (startGrace i s).host = s.host ∧
    (startGrace i s).sec = s.sec ∧
    (startGrace i s).pwr = s.pwr ∧
    (startGrace i s).bist = s.bist ∧
    (startGrace i s).evt = s.evt ∧
    (startGrace i s).pins = s.pins ∧
    (startGrace i s).freeIx = s.freeIx ∧
    (startGrace i s).pending = s.pending := by
  simp [startGrace]

theorem stopGrace_keep (i : Nat) (s : State) :
    (stopGrace i s).sys = s.sys ∧
    (stopGrace i s).img = s.img ∧
    (stopGrace i s).cfg = s.cfg ∧
    (stopGrace i s).ring = s.ring ∧
    (stopGrace i s).acq = s.acq ∧
    (stopGrace i s).cur = s.cur ∧
    (stopGrace i s).drv = s.drv ∧
    (stopGrace i s).krn = s.krn ∧
    (stopGrace i s).est = s.est ∧
    (stopGrace i s).win = s.win ∧
    (stopGrace i s).pairs = s.pairs ∧
    (stopGrace i s).time = s.time ∧
    (stopGrace i s).therm = s.therm ∧
    (stopGrace i s).nv = s.nv ∧
    (stopGrace i s).ledg = s.ledg ∧
    (stopGrace i s).tally = s.tally ∧
    (stopGrace i s).recd = s.recd ∧
    (stopGrace i s).host = s.host ∧
    (stopGrace i s).sec = s.sec ∧
    (stopGrace i s).pwr = s.pwr ∧
    (stopGrace i s).bist = s.bist ∧
    (stopGrace i s).evt = s.evt ∧
    (stopGrace i s).pins = s.pins ∧
    (stopGrace i s).freeIx = s.freeIx ∧
    (stopGrace i s).pending = s.pending := by
  simp [stopGrace]

theorem noteSrc_keep (cat : Nat) (i : Nat) (src : Nat) (s : State) :
    (noteSrc cat i src s).sys = s.sys ∧
    (noteSrc cat i src s).img = s.img ∧
    (noteSrc cat i src s).cfg = s.cfg ∧
    (noteSrc cat i src s).ring = s.ring ∧
    (noteSrc cat i src s).acq = s.acq ∧
    (noteSrc cat i src s).cur = s.cur ∧
    (noteSrc cat i src s).drv = s.drv ∧
    (noteSrc cat i src s).krn = s.krn ∧
    (noteSrc cat i src s).est = s.est ∧
    (noteSrc cat i src s).win = s.win ∧
    (noteSrc cat i src s).pairs = s.pairs ∧
    (noteSrc cat i src s).time = s.time ∧
    (noteSrc cat i src s).therm = s.therm ∧
    (noteSrc cat i src s).nv = s.nv ∧
    (noteSrc cat i src s).ledg = s.ledg ∧
    (noteSrc cat i src s).tally = s.tally ∧
    (noteSrc cat i src s).recd = s.recd ∧
    (noteSrc cat i src s).host = s.host ∧
    (noteSrc cat i src s).sec = s.sec ∧
    (noteSrc cat i src s).pwr = s.pwr ∧
    (noteSrc cat i src s).bist = s.bist ∧
    (noteSrc cat i src s).evt = s.evt ∧
    (noteSrc cat i src s).pins = s.pins ∧
    (noteSrc cat i src s).freeIx = s.freeIx ∧
    (noteSrc cat i src s).pending = s.pending := by
  simp [noteSrc]

theorem tripFollow_keep (m : List Bool) (cat : Nat) (i : Nat) (s : State) :
    (tripFollow m cat i s).sys = s.sys ∧
    (tripFollow m cat i s).img = s.img ∧
    (tripFollow m cat i s).cfg = s.cfg ∧
    (tripFollow m cat i s).ring = s.ring ∧
    (tripFollow m cat i s).acq = s.acq ∧
    (tripFollow m cat i s).cur = s.cur ∧
    (tripFollow m cat i s).krn = s.krn ∧
    (tripFollow m cat i s).est = s.est ∧
    (tripFollow m cat i s).win = s.win ∧
    (tripFollow m cat i s).pairs = s.pairs ∧
    (tripFollow m cat i s).time = s.time ∧
    (tripFollow m cat i s).therm = s.therm ∧
    (tripFollow m cat i s).nv = s.nv ∧
    (tripFollow m cat i s).ledg = s.ledg ∧
    (tripFollow m cat i s).tally = s.tally ∧
    (tripFollow m cat i s).recd = s.recd ∧
    (tripFollow m cat i s).host = s.host ∧
    (tripFollow m cat i s).sec = s.sec ∧
    (tripFollow m cat i s).pwr = s.pwr ∧
    (tripFollow m cat i s).bist = s.bist ∧
    (tripFollow m cat i s).evt = s.evt ∧
    (tripFollow m cat i s).pins = s.pins ∧
    (tripFollow m cat i s).freeIx = s.freeIx ∧
    (tripFollow m cat i s).pending = s.pending ∧
    (tripFollow m cat i s).husk.held = s.husk.held ∧
    (tripFollow m cat i s).drv.held = s.drv.held := by
  unfold tripFollow
  repeat' split
  all_goals simp [id @fastOpen_keep, id @orderlyOpen_keep]

theorem tripAction_keep (m : List Bool) (cat : Nat) (i : Nat) (s : State) :
    (tripAction m cat i s).sys = s.sys ∧
    (tripAction m cat i s).img = s.img ∧
    (tripAction m cat i s).cfg = s.cfg ∧
    (tripAction m cat i s).ring = s.ring ∧
    (tripAction m cat i s).acq = s.acq ∧
    (tripAction m cat i s).cur = s.cur ∧
    (tripAction m cat i s).krn = s.krn ∧
    (tripAction m cat i s).est = s.est ∧
    (tripAction m cat i s).win = s.win ∧
    (tripAction m cat i s).pairs = s.pairs ∧
    (tripAction m cat i s).time = s.time ∧
    (tripAction m cat i s).therm = s.therm ∧
    (tripAction m cat i s).nv = s.nv ∧
    (tripAction m cat i s).ledg = s.ledg ∧
    (tripAction m cat i s).tally = s.tally ∧
    (tripAction m cat i s).recd = s.recd ∧
    (tripAction m cat i s).host = s.host ∧
    (tripAction m cat i s).sec = s.sec ∧
    (tripAction m cat i s).pwr = s.pwr ∧
    (tripAction m cat i s).bist = s.bist ∧
    (tripAction m cat i s).evt = s.evt ∧
    (tripAction m cat i s).pins = s.pins ∧
    (tripAction m cat i s).freeIx = s.freeIx ∧
    (tripAction m cat i s).pending = s.pending ∧
    (tripAction m cat i s).drv.held = s.drv.held := by
  unfold tripAction
  repeat' split
  all_goals simp [id @fastOpen_keep, id @orderlyOpen_keep, id @startGrace_keep, id @stopGrace_keep]

theorem tripSet_keep (m : List Bool) (cat : Nat) (i : Nat) (src : Nat) (s : State) :
    (tripSet m cat i src s).sys = s.sys ∧
    (tripSet m cat i src s).img = s.img ∧
    (tripSet m cat i src s).cfg = s.cfg ∧
    (tripSet m cat i src s).ring = s.ring ∧
    (tripSet m cat i src s).acq = s.acq ∧
    (tripSet m cat i src s).cur = s.cur ∧
    (tripSet m cat i src s).krn = s.krn ∧
    (tripSet m cat i src s).est = s.est ∧
    (tripSet m cat i src s).win = s.win ∧
    (tripSet m cat i src s).pairs = s.pairs ∧
    (tripSet m cat i src s).time = s.time ∧
    (tripSet m cat i src s).therm = s.therm ∧
    (tripSet m cat i src s).ledg = s.ledg ∧
    (tripSet m cat i src s).tally = s.tally ∧
    (tripSet m cat i src s).host = s.host ∧
    (tripSet m cat i src s).sec = s.sec ∧
    (tripSet m cat i src s).pwr = s.pwr ∧
    (tripSet m cat i src s).bist = s.bist ∧
    (tripSet m cat i src s).pins = s.pins ∧
    (tripSet m cat i src s).freeIx = s.freeIx ∧
    (tripSet m cat i src s).pending = s.pending ∧
    (tripSet m cat i src s).drv.held = s.drv.held ∧
    (tripSet m cat i src s).recd.held = s.recd.held ∧
    (tripSet m cat i src s).evt.held = s.evt.held := by
  simp only [tripSet]
  repeat' split
  all_goals simp [id @countCause_keep, id @emit_keep, id @lgRequest_keep, id @noteSrc_keep, id @setCopy_keep,
      id @tripAction_keep, id @tripFollow_keep]

theorem tripAll_keep (cat : Nat) (src : Nat) (s : State) :
    (tripAll cat src s).sys = s.sys ∧
    (tripAll cat src s).img = s.img ∧
    (tripAll cat src s).cfg = s.cfg ∧
    (tripAll cat src s).ring = s.ring ∧
    (tripAll cat src s).acq = s.acq ∧
    (tripAll cat src s).cur = s.cur ∧
    (tripAll cat src s).krn = s.krn ∧
    (tripAll cat src s).est = s.est ∧
    (tripAll cat src s).win = s.win ∧
    (tripAll cat src s).pairs = s.pairs ∧
    (tripAll cat src s).time = s.time ∧
    (tripAll cat src s).therm = s.therm ∧
    (tripAll cat src s).ledg = s.ledg ∧
    (tripAll cat src s).tally = s.tally ∧
    (tripAll cat src s).host = s.host ∧
    (tripAll cat src s).sec = s.sec ∧
    (tripAll cat src s).pwr = s.pwr ∧
    (tripAll cat src s).bist = s.bist ∧
    (tripAll cat src s).pins = s.pins ∧
    (tripAll cat src s).freeIx = s.freeIx ∧
    (tripAll cat src s).pending = s.pending ∧
    (tripAll cat src s).drv.held = s.drv.held ∧
    (tripAll cat src s).recd.held = s.recd.held ∧
    (tripAll cat src s).evt.held = s.evt.held := by
  simp [tripAll, id @tripSet_keep]

theorem execTripLatchSet_keep {m : Copies} {cat : Nat} {i : Nat} {src : Nat} {s t : State} (h : execTripLatchSet m cat i src s = .next t) :
    t.img = s.img ∧
    t.cfg = s.cfg ∧
    t.acq = s.acq ∧
    t.cur = s.cur ∧
    t.krn = s.krn ∧
    t.win = s.win ∧
    t.pairs = s.pairs ∧
    t.time = s.time ∧
    t.therm = s.therm ∧
    t.ledg = s.ledg ∧
    t.tally = s.tally ∧
    t.host = s.host ∧
    t.sec = s.sec ∧
    t.bist = s.bist ∧
    t.freeIx = s.freeIx ∧
    t.pending = s.pending ∧
    t.sys.held = s.sys.held ∧
    t.drv.held = s.drv.held ∧
    t.recd.held = s.recd.held ∧
    t.est.held = s.est.held ∧
    t.pwr.held = s.pwr.held ∧
    t.evt.held = s.evt.held ∧
    t.pins.held = s.pins.held := by
  have e := Host.Outcome.next.inj h
  subst e
  simp [id @settle_keep, id @tripSet_keep]
  repeat' split
  all_goals simp [id @tripSet_keep]

theorem slotAssertIn_keep (k : Nat) (s : State) (c : Bool) :
    (slotAssertIn k s c).sys = s.sys ∧
    (slotAssertIn k s c).img = s.img ∧
    (slotAssertIn k s c).cfg = s.cfg ∧
    (slotAssertIn k s c).ring = s.ring ∧
    (slotAssertIn k s c).acq = s.acq ∧
    (slotAssertIn k s c).cur = s.cur ∧
    (slotAssertIn k s c).drv = s.drv ∧
    (slotAssertIn k s c).krn = s.krn ∧
    (slotAssertIn k s c).est = s.est ∧
    (slotAssertIn k s c).win = s.win ∧
    (slotAssertIn k s c).pairs = s.pairs ∧
    (slotAssertIn k s c).time = s.time ∧
    (slotAssertIn k s c).therm = s.therm ∧
    (slotAssertIn k s c).nv = s.nv ∧
    (slotAssertIn k s c).ledg = s.ledg ∧
    (slotAssertIn k s c).tally = s.tally ∧
    (slotAssertIn k s c).recd = s.recd ∧
    (slotAssertIn k s c).host = s.host ∧
    (slotAssertIn k s c).sec = s.sec ∧
    (slotAssertIn k s c).pwr = s.pwr ∧
    (slotAssertIn k s c).bist = s.bist ∧
    (slotAssertIn k s c).evt = s.evt ∧
    (slotAssertIn k s c).pins = s.pins ∧
    (slotAssertIn k s c).freeIx = s.freeIx ∧
    (slotAssertIn k s c).pending = s.pending ∧
    (slotAssertIn k s c).husk.held = s.husk.held := by
  simp only [slotAssertIn]
  repeat' split
  all_goals simp [id @setCopy_keep]

theorem execHuskSlotAssert_keep {m : Copies} {k : Nat} {s t : State} (h : execHuskSlotAssert m k s = .next t) :
    t.img = s.img ∧
    t.cfg = s.cfg ∧
    t.acq = s.acq ∧
    t.cur = s.cur ∧
    t.krn = s.krn ∧
    t.win = s.win ∧
    t.pairs = s.pairs ∧
    t.time = s.time ∧
    t.therm = s.therm ∧
    t.nv = s.nv ∧
    t.ledg = s.ledg ∧
    t.tally = s.tally ∧
    t.host = s.host ∧
    t.sec = s.sec ∧
    t.bist = s.bist ∧
    t.freeIx = s.freeIx ∧
    t.pending = s.pending ∧
    t.sys.held = s.sys.held ∧
    t.husk.held = s.husk.held ∧
    t.drv.held = s.drv.held ∧
    t.recd.held = s.recd.held ∧
    t.est.held = s.est.held ∧
    t.pwr.held = s.pwr.held ∧
    t.evt.held = s.evt.held ∧
    t.pins.held = s.pins.held := by
  have e := Host.Outcome.next.inj h
  subst e
  simp [id @settle_keep, id @slotAssertIn_keep]
  repeat' split
  all_goals simp [id @settle_keep, id @slotAssertIn_keep]

theorem slotClearIn_keep (k : Nat) (s : State) (c : Bool) :
    (slotClearIn k s c).sys = s.sys ∧
    (slotClearIn k s c).img = s.img ∧
    (slotClearIn k s c).cfg = s.cfg ∧
    (slotClearIn k s c).ring = s.ring ∧
    (slotClearIn k s c).acq = s.acq ∧
    (slotClearIn k s c).cur = s.cur ∧
    (slotClearIn k s c).drv = s.drv ∧
    (slotClearIn k s c).krn = s.krn ∧
    (slotClearIn k s c).est = s.est ∧
    (slotClearIn k s c).win = s.win ∧
    (slotClearIn k s c).pairs = s.pairs ∧
    (slotClearIn k s c).time = s.time ∧
    (slotClearIn k s c).therm = s.therm ∧
    (slotClearIn k s c).nv = s.nv ∧
    (slotClearIn k s c).ledg = s.ledg ∧
    (slotClearIn k s c).tally = s.tally ∧
    (slotClearIn k s c).recd = s.recd ∧
    (slotClearIn k s c).host = s.host ∧
    (slotClearIn k s c).sec = s.sec ∧
    (slotClearIn k s c).pwr = s.pwr ∧
    (slotClearIn k s c).bist = s.bist ∧
    (slotClearIn k s c).evt = s.evt ∧
    (slotClearIn k s c).pins = s.pins ∧
    (slotClearIn k s c).freeIx = s.freeIx ∧
    (slotClearIn k s c).pending = s.pending ∧
    (slotClearIn k s c).husk.held = s.husk.held := by
  simp only [slotClearIn]
  repeat' split
  all_goals simp [id @setCopy_keep]

theorem execHuskSlotClear_keep {m : Copies} {k : Nat} {s t : State} (h : execHuskSlotClear m k s = .next t) :
    t.img = s.img ∧
    t.cfg = s.cfg ∧
    t.acq = s.acq ∧
    t.cur = s.cur ∧
    t.krn = s.krn ∧
    t.win = s.win ∧
    t.pairs = s.pairs ∧
    t.time = s.time ∧
    t.therm = s.therm ∧
    t.nv = s.nv ∧
    t.ledg = s.ledg ∧
    t.tally = s.tally ∧
    t.host = s.host ∧
    t.sec = s.sec ∧
    t.bist = s.bist ∧
    t.freeIx = s.freeIx ∧
    t.pending = s.pending ∧
    t.sys.held = s.sys.held ∧
    t.husk.held = s.husk.held ∧
    t.drv.held = s.drv.held ∧
    t.recd.held = s.recd.held ∧
    t.est.held = s.est.held ∧
    t.pwr.held = s.pwr.held ∧
    t.evt.held = s.evt.held ∧
    t.pins.held = s.pins.held := by
  have e := Host.Outcome.next.inj h
  subst e
  simp [id @settle_keep, id @slotClearIn_keep]
  repeat' split
  all_goals simp [id @settle_keep, id @slotClearIn_keep]

theorem timerExpireIn_keep (k : Nat) (s : State) (c : Bool) :
    (timerExpireIn k s c).sys = s.sys ∧
    (timerExpireIn k s c).img = s.img ∧
    (timerExpireIn k s c).cfg = s.cfg ∧
    (timerExpireIn k s c).ring = s.ring ∧
    (timerExpireIn k s c).acq = s.acq ∧
    (timerExpireIn k s c).cur = s.cur ∧
    (timerExpireIn k s c).drv = s.drv ∧
    (timerExpireIn k s c).krn = s.krn ∧
    (timerExpireIn k s c).est = s.est ∧
    (timerExpireIn k s c).win = s.win ∧
    (timerExpireIn k s c).pairs = s.pairs ∧
    (timerExpireIn k s c).time = s.time ∧
    (timerExpireIn k s c).therm = s.therm ∧
    (timerExpireIn k s c).nv = s.nv ∧
    (timerExpireIn k s c).ledg = s.ledg ∧
    (timerExpireIn k s c).tally = s.tally ∧
    (timerExpireIn k s c).recd = s.recd ∧
    (timerExpireIn k s c).host = s.host ∧
    (timerExpireIn k s c).sec = s.sec ∧
    (timerExpireIn k s c).pwr = s.pwr ∧
    (timerExpireIn k s c).bist = s.bist ∧
    (timerExpireIn k s c).evt = s.evt ∧
    (timerExpireIn k s c).pins = s.pins ∧
    (timerExpireIn k s c).freeIx = s.freeIx ∧
    (timerExpireIn k s c).pending = s.pending ∧
    (timerExpireIn k s c).husk.held = s.husk.held := by
  simp only [timerExpireIn]
  repeat' split
  all_goals simp [id @setCopy_keep]

theorem execHuskTimerExpiry_keep {m : Copies} {k : Nat} {s t : State} (h : execHuskTimerExpiry m k s = .next t) :
    t.img = s.img ∧
    t.cfg = s.cfg ∧
    t.acq = s.acq ∧
    t.cur = s.cur ∧
    t.krn = s.krn ∧
    t.win = s.win ∧
    t.pairs = s.pairs ∧
    t.time = s.time ∧
    t.therm = s.therm ∧
    t.nv = s.nv ∧
    t.ledg = s.ledg ∧
    t.tally = s.tally ∧
    t.host = s.host ∧
    t.sec = s.sec ∧
    t.bist = s.bist ∧
    t.freeIx = s.freeIx ∧
    t.pending = s.pending ∧
    t.sys.held = s.sys.held ∧
    t.husk.held = s.husk.held ∧
    t.drv.held = s.drv.held ∧
    t.recd.held = s.recd.held ∧
    t.est.held = s.est.held ∧
    t.pwr.held = s.pwr.held ∧
    t.evt.held = s.evt.held ∧
    t.pins.held = s.pins.held := by
  have e := Host.Outcome.next.inj h
  subst e
  simp [id @settle_keep, id @timerExpireIn_keep]
  repeat' split
  all_goals simp [id @settle_keep, id @timerExpireIn_keep]

theorem closeStart_keep (i : Nat) (c : Bool) (s : State) :
    (closeStart i c s).sys = s.sys ∧
    (closeStart i c s).img = s.img ∧
    (closeStart i c s).cfg = s.cfg ∧
    (closeStart i c s).ring = s.ring ∧
    (closeStart i c s).acq = s.acq ∧
    (closeStart i c s).cur = s.cur ∧
    (closeStart i c s).drv = s.drv ∧
    (closeStart i c s).krn = s.krn ∧
    (closeStart i c s).est = s.est ∧
    (closeStart i c s).win = s.win ∧
    (closeStart i c s).pairs = s.pairs ∧
    (closeStart i c s).time = s.time ∧
    (closeStart i c s).therm = s.therm ∧
    (closeStart i c s).nv = s.nv ∧
    (closeStart i c s).ledg = s.ledg ∧
    (closeStart i c s).tally = s.tally ∧
    (closeStart i c s).host = s.host ∧
    (closeStart i c s).sec = s.sec ∧
    (closeStart i c s).pwr = s.pwr ∧
    (closeStart i c s).bist = s.bist ∧
    (closeStart i c s).pins = s.pins ∧
    (closeStart i c s).freeIx = s.freeIx ∧
    (closeStart i c s).pending = s.pending ∧
    (closeStart i c s).husk.held = s.husk.held ∧
    (closeStart i c s).recd.held = s.recd.held ∧
    (closeStart i c s).evt.held = s.evt.held := by
  unfold closeStart
  repeat' split
  all_goals simp [id @setCopy_keep, id @settleNet_keep]

theorem userStart_keep (q : Nat) (c : Bool) (s : State) :
    (userStart q c s).sys = s.sys ∧
    (userStart q c s).img = s.img ∧
    (userStart q c s).cfg = s.cfg ∧
    (userStart q c s).ring = s.ring ∧
    (userStart q c s).acq = s.acq ∧
    (userStart q c s).cur = s.cur ∧
    (userStart q c s).drv = s.drv ∧
    (userStart q c s).krn = s.krn ∧
    (userStart q c s).est = s.est ∧
    (userStart q c s).win = s.win ∧
    (userStart q c s).pairs = s.pairs ∧
    (userStart q c s).time = s.time ∧
    (userStart q c s).therm = s.therm ∧
    (userStart q c s).nv = s.nv ∧
    (userStart q c s).ledg = s.ledg ∧
    (userStart q c s).tally = s.tally ∧
    (userStart q c s).recd = s.recd ∧
    (userStart q c s).host = s.host ∧
    (userStart q c s).sec = s.sec ∧
    (userStart q c s).pwr = s.pwr ∧
    (userStart q c s).bist = s.bist ∧
    (userStart q c s).evt = s.evt ∧
    (userStart q c s).pins = s.pins ∧
    (userStart q c s).freeIx = s.freeIx ∧
    (userStart q c s).pending = s.pending ∧
    (userStart q c s).husk.held = s.husk.held := by
  simp only [userStart]
  repeat' split
  all_goals simp [id @setCopy_keep]

theorem startSeq_keep (s : State) (q : Nat) (c : Bool) :
    (startSeq s q c).sys = s.sys ∧
    (startSeq s q c).img = s.img ∧
    (startSeq s q c).cfg = s.cfg ∧
    (startSeq s q c).ring = s.ring ∧
    (startSeq s q c).acq = s.acq ∧
    (startSeq s q c).cur = s.cur ∧
    (startSeq s q c).krn = s.krn ∧
    (startSeq s q c).est = s.est ∧
    (startSeq s q c).win = s.win ∧
    (startSeq s q c).pairs = s.pairs ∧
    (startSeq s q c).time = s.time ∧
    (startSeq s q c).therm = s.therm ∧
    (startSeq s q c).nv = s.nv ∧
    (startSeq s q c).ledg = s.ledg ∧
    (startSeq s q c).tally = s.tally ∧
    (startSeq s q c).host = s.host ∧
    (startSeq s q c).sec = s.sec ∧
    (startSeq s q c).pwr = s.pwr ∧
    (startSeq s q c).bist = s.bist ∧
    (startSeq s q c).pins = s.pins ∧
    (startSeq s q c).freeIx = s.freeIx ∧
    (startSeq s q c).pending = s.pending ∧
    (startSeq s q c).husk.held = s.husk.held ∧
    (startSeq s q c).drv.held = s.drv.held ∧
    (startSeq s q c).recd.held = s.recd.held ∧
    (startSeq s q c).evt.held = s.evt.held := by
  simp only [startSeq]
  repeat' split
  all_goals simp [id @abortStanding_keep, id @closeStart_keep, id @fastOpen_keep, id @orderlyOpen_keep,
      id @userStart_keep]

theorem startIn_keep (q : Nat) (s : State) (c : Bool) :
    (startIn q s c).sys = s.sys ∧
    (startIn q s c).img = s.img ∧
    (startIn q s c).cfg = s.cfg ∧
    (startIn q s c).ring = s.ring ∧
    (startIn q s c).acq = s.acq ∧
    (startIn q s c).cur = s.cur ∧
    (startIn q s c).krn = s.krn ∧
    (startIn q s c).est = s.est ∧
    (startIn q s c).win = s.win ∧
    (startIn q s c).pairs = s.pairs ∧
    (startIn q s c).time = s.time ∧
    (startIn q s c).therm = s.therm ∧
    (startIn q s c).nv = s.nv ∧
    (startIn q s c).ledg = s.ledg ∧
    (startIn q s c).tally = s.tally ∧
    (startIn q s c).host = s.host ∧
    (startIn q s c).sec = s.sec ∧
    (startIn q s c).pwr = s.pwr ∧
    (startIn q s c).bist = s.bist ∧
    (startIn q s c).pins = s.pins ∧
    (startIn q s c).freeIx = s.freeIx ∧
    (startIn q s c).pending = s.pending ∧
    (startIn q s c).husk.held = s.husk.held ∧
    (startIn q s c).drv.held = s.drv.held ∧
    (startIn q s c).recd.held = s.recd.held ∧
    (startIn q s c).evt.held = s.evt.held := by
  unfold startIn
  repeat' split
  all_goals simp [id @setCopy_keep, id @startSeq_keep]

theorem execSequencerStart_keep {m : Copies} {q : Nat} {s t : State} (h : execSequencerStart m q s = .next t) :
    t.img = s.img ∧
    t.cfg = s.cfg ∧
    t.acq = s.acq ∧
    t.cur = s.cur ∧
    t.krn = s.krn ∧
    t.win = s.win ∧
    t.pairs = s.pairs ∧
    t.time = s.time ∧
    t.therm = s.therm ∧
    t.nv = s.nv ∧
    t.ledg = s.ledg ∧
    t.tally = s.tally ∧
    t.host = s.host ∧
    t.sec = s.sec ∧
    t.bist = s.bist ∧
    t.freeIx = s.freeIx ∧
    t.pending = s.pending ∧
    t.sys.held = s.sys.held ∧
    t.husk.held = s.husk.held ∧
    t.drv.held = s.drv.held ∧
    t.recd.held = s.recd.held ∧
    t.est.held = s.est.held ∧
    t.pwr.held = s.pwr.held ∧
    t.evt.held = s.evt.held ∧
    t.pins.held = s.pins.held := by
  have e := Host.Outcome.next.inj h
  subst e
  simp [id @settle_keep, id @startIn_keep]
  repeat' split
  all_goals simp [id @startIn_keep]

theorem preResult_keep (i : Nat) (r : Nat) (mon : Option Monitor) (s : State) :
    (preResult i r mon s).sys = s.sys ∧
    (preResult i r mon s).img = s.img ∧
    (preResult i r mon s).cfg = s.cfg ∧
    (preResult i r mon s).ring = s.ring ∧
    (preResult i r mon s).acq = s.acq ∧
    (preResult i r mon s).cur = s.cur ∧
    (preResult i r mon s).husk = s.husk ∧
    (preResult i r mon s).krn = s.krn ∧
    (preResult i r mon s).est = s.est ∧
    (preResult i r mon s).win = s.win ∧
    (preResult i r mon s).pairs = s.pairs ∧
    (preResult i r mon s).time = s.time ∧
    (preResult i r mon s).therm = s.therm ∧
    (preResult i r mon s).nv = s.nv ∧
    (preResult i r mon s).ledg = s.ledg ∧
    (preResult i r mon s).tally = s.tally ∧
    (preResult i r mon s).recd = s.recd ∧
    (preResult i r mon s).host = s.host ∧
    (preResult i r mon s).sec = s.sec ∧
    (preResult i r mon s).pwr = s.pwr ∧
    (preResult i r mon s).bist = s.bist ∧
    (preResult i r mon s).evt = s.evt ∧
    (preResult i r mon s).pins = s.pins ∧
    (preResult i r mon s).freeIx = s.freeIx ∧
    (preResult i r mon s).pending = s.pending ∧
    (preResult i r mon s).drv.held = s.drv.held := by
  simp [preResult, id @modDrvStr_keep]

theorem closeFail_keep (i : Nat) (r : Nat) (mon : Option Monitor) (c : Bool) (s : State) :
    (closeFail i r mon c s).sys = s.sys ∧
    (closeFail i r mon c s).img = s.img ∧
    (closeFail i r mon c s).cfg = s.cfg ∧
    (closeFail i r mon c s).ring = s.ring ∧
    (closeFail i r mon c s).acq = s.acq ∧
    (closeFail i r mon c s).cur = s.cur ∧
    (closeFail i r mon c s).krn = s.krn ∧
    (closeFail i r mon c s).est = s.est ∧
    (closeFail i r mon c s).win = s.win ∧
    (closeFail i r mon c s).pairs = s.pairs ∧
    (closeFail i r mon c s).time = s.time ∧
    (closeFail i r mon c s).therm = s.therm ∧
    (closeFail i r mon c s).nv = s.nv ∧
    (closeFail i r mon c s).ledg = s.ledg ∧
    (closeFail i r mon c s).tally = s.tally ∧
    (closeFail i r mon c s).host = s.host ∧
    (closeFail i r mon c s).sec = s.sec ∧
    (closeFail i r mon c s).pwr = s.pwr ∧
    (closeFail i r mon c s).bist = s.bist ∧
    (closeFail i r mon c s).pins = s.pins ∧
    (closeFail i r mon c s).freeIx = s.freeIx ∧
    (closeFail i r mon c s).pending = s.pending ∧
    (closeFail i r mon c s).husk.held = s.husk.held ∧
    (closeFail i r mon c s).drv.held = s.drv.held ∧
    (closeFail i r mon c s).recd.held = s.recd.held ∧
    (closeFail i r mon c s).evt.held = s.evt.held := by
  unfold closeFail
  repeat' split
  all_goals simp [id @emitIf_keep, id @preResult_keep, id @setCopy_keep]

theorem closeWait_keep (i : Nat) (c : Bool) (s : State) :
    (closeWait i c s).sys = s.sys ∧
    (closeWait i c s).img = s.img ∧
    (closeWait i c s).cfg = s.cfg ∧
    (closeWait i c s).ring = s.ring ∧
    (closeWait i c s).acq = s.acq ∧
    (closeWait i c s).cur = s.cur ∧
    (closeWait i c s).krn = s.krn ∧
    (closeWait i c s).est = s.est ∧
    (closeWait i c s).win = s.win ∧
    (closeWait i c s).pairs = s.pairs ∧
    (closeWait i c s).time = s.time ∧
    (closeWait i c s).therm = s.therm ∧
    (closeWait i c s).nv = s.nv ∧
    (closeWait i c s).ledg = s.ledg ∧
    (closeWait i c s).tally = s.tally ∧
    (closeWait i c s).host = s.host ∧
    (closeWait i c s).sec = s.sec ∧
    (closeWait i c s).pwr = s.pwr ∧
    (closeWait i c s).bist = s.bist ∧
    (closeWait i c s).pins = s.pins ∧
    (closeWait i c s).freeIx = s.freeIx ∧
    (closeWait i c s).pending = s.pending ∧
    (closeWait i c s).husk.held = s.husk.held ∧
    (closeWait i c s).drv.held = s.drv.held ∧
    (closeWait i c s).recd.held = s.recd.held ∧
    (closeWait i c s).evt.held = s.evt.held := by
  simp only [closeWait]
  repeat' split
  all_goals simp [id @closeFail_keep, id @preResult_keep, id @setCopy_keep]

theorem closeTimeout_keep (i : Nat) (c : Bool) (s : State) :
    (closeTimeout i c s).sys = s.sys ∧
    (closeTimeout i c s).img = s.img ∧
    (closeTimeout i c s).cfg = s.cfg ∧
    (closeTimeout i c s).ring = s.ring ∧
    (closeTimeout i c s).acq = s.acq ∧
    (closeTimeout i c s).cur = s.cur ∧
    (closeTimeout i c s).krn = s.krn ∧
    (closeTimeout i c s).est = s.est ∧
    (closeTimeout i c s).win = s.win ∧
    (closeTimeout i c s).pairs = s.pairs ∧
    (closeTimeout i c s).time = s.time ∧
    (closeTimeout i c s).therm = s.therm ∧
    (closeTimeout i c s).nv = s.nv ∧
    (closeTimeout i c s).ledg = s.ledg ∧
    (closeTimeout i c s).tally = s.tally ∧
    (closeTimeout i c s).host = s.host ∧
    (closeTimeout i c s).sec = s.sec ∧
    (closeTimeout i c s).pwr = s.pwr ∧
    (closeTimeout i c s).bist = s.bist ∧
    (closeTimeout i c s).pins = s.pins ∧
    (closeTimeout i c s).freeIx = s.freeIx ∧
    (closeTimeout i c s).pending = s.pending ∧
    (closeTimeout i c s).husk.held = s.husk.held ∧
    (closeTimeout i c s).drv.held = s.drv.held ∧
    (closeTimeout i c s).recd.held = s.recd.held ∧
    (closeTimeout i c s).evt.held = s.evt.held := by
  simp only [closeTimeout]
  repeat' split
  all_goals simp [id @closeFail_keep, id @setCopy_keep]

theorem orderlyNext_keep (i : Nat) (timeout : Bool) (c : Bool) (s : State) :
    (orderlyNext i timeout c s).sys = s.sys ∧
    (orderlyNext i timeout c s).img = s.img ∧
    (orderlyNext i timeout c s).cfg = s.cfg ∧
    (orderlyNext i timeout c s).ring = s.ring ∧
    (orderlyNext i timeout c s).acq = s.acq ∧
    (orderlyNext i timeout c s).cur = s.cur ∧
    (orderlyNext i timeout c s).krn = s.krn ∧
    (orderlyNext i timeout c s).est = s.est ∧
    (orderlyNext i timeout c s).win = s.win ∧
    (orderlyNext i timeout c s).pairs = s.pairs ∧
    (orderlyNext i timeout c s).time = s.time ∧
    (orderlyNext i timeout c s).therm = s.therm ∧
    (orderlyNext i timeout c s).nv = s.nv ∧
    (orderlyNext i timeout c s).ledg = s.ledg ∧
    (orderlyNext i timeout c s).tally = s.tally ∧
    (orderlyNext i timeout c s).recd = s.recd ∧
    (orderlyNext i timeout c s).host = s.host ∧
    (orderlyNext i timeout c s).sec = s.sec ∧
    (orderlyNext i timeout c s).pwr = s.pwr ∧
    (orderlyNext i timeout c s).bist = s.bist ∧
    (orderlyNext i timeout c s).evt = s.evt ∧
    (orderlyNext i timeout c s).pins = s.pins ∧
    (orderlyNext i timeout c s).freeIx = s.freeIx ∧
    (orderlyNext i timeout c s).pending = s.pending ∧
    (orderlyNext i timeout c s).husk.held = s.husk.held ∧
    (orderlyNext i timeout c s).drv.held = s.drv.held := by
  simp only [orderlyNext]
  repeat' split
  all_goals simp [id @noteOpenEnd_keep, id @setCopy_keep]

theorem fastNext_keep (i : Nat) (c : Bool) (s : State) :
    (fastNext i c s).sys = s.sys ∧
    (fastNext i c s).img = s.img ∧
    (fastNext i c s).cfg = s.cfg ∧
    (fastNext i c s).ring = s.ring ∧
    (fastNext i c s).acq = s.acq ∧
    (fastNext i c s).cur = s.cur ∧
    (fastNext i c s).krn = s.krn ∧
    (fastNext i c s).est = s.est ∧
    (fastNext i c s).win = s.win ∧
    (fastNext i c s).pairs = s.pairs ∧
    (fastNext i c s).time = s.time ∧
    (fastNext i c s).therm = s.therm ∧
    (fastNext i c s).nv = s.nv ∧
    (fastNext i c s).ledg = s.ledg ∧
    (fastNext i c s).tally = s.tally ∧
    (fastNext i c s).recd = s.recd ∧
    (fastNext i c s).host = s.host ∧
    (fastNext i c s).sec = s.sec ∧
    (fastNext i c s).pwr = s.pwr ∧
    (fastNext i c s).bist = s.bist ∧
    (fastNext i c s).evt = s.evt ∧
    (fastNext i c s).pins = s.pins ∧
    (fastNext i c s).freeIx = s.freeIx ∧
    (fastNext i c s).pending = s.pending ∧
    (fastNext i c s).husk.held = s.husk.held ∧
    (fastNext i c s).drv.held = s.drv.held := by
  simp only [fastNext]
  repeat' split
  all_goals simp [id @noteOpenEnd_keep, id @setCopy_keep]

theorem userNext_keep (q : Nat) (timeout : Bool) (c : Bool) (s : State) :
    (userNext q timeout c s).sys = s.sys ∧
    (userNext q timeout c s).img = s.img ∧
    (userNext q timeout c s).cfg = s.cfg ∧
    (userNext q timeout c s).ring = s.ring ∧
    (userNext q timeout c s).acq = s.acq ∧
    (userNext q timeout c s).cur = s.cur ∧
    (userNext q timeout c s).drv = s.drv ∧
    (userNext q timeout c s).krn = s.krn ∧
    (userNext q timeout c s).est = s.est ∧
    (userNext q timeout c s).win = s.win ∧
    (userNext q timeout c s).pairs = s.pairs ∧
    (userNext q timeout c s).time = s.time ∧
    (userNext q timeout c s).therm = s.therm ∧
    (userNext q timeout c s).nv = s.nv ∧
    (userNext q timeout c s).ledg = s.ledg ∧
    (userNext q timeout c s).tally = s.tally ∧
    (userNext q timeout c s).recd = s.recd ∧
    (userNext q timeout c s).host = s.host ∧
    (userNext q timeout c s).sec = s.sec ∧
    (userNext q timeout c s).pwr = s.pwr ∧
    (userNext q timeout c s).bist = s.bist ∧
    (userNext q timeout c s).evt = s.evt ∧
    (userNext q timeout c s).pins = s.pins ∧
    (userNext q timeout c s).freeIx = s.freeIx ∧
    (userNext q timeout c s).pending = s.pending ∧
    (userNext q timeout c s).husk.held = s.husk.held := by
  simp only [userNext]
  repeat' split
  all_goals simp [id @setCopy_keep]

theorem weldTimeout_keep (i : Nat) (c : Bool) (s : State) :
    (weldTimeout i c s).sys = s.sys ∧
    (weldTimeout i c s).img = s.img ∧
    (weldTimeout i c s).cfg = s.cfg ∧
    (weldTimeout i c s).ring = s.ring ∧
    (weldTimeout i c s).acq = s.acq ∧
    (weldTimeout i c s).cur = s.cur ∧
    (weldTimeout i c s).drv = s.drv ∧
    (weldTimeout i c s).krn = s.krn ∧
    (weldTimeout i c s).est = s.est ∧
    (weldTimeout i c s).win = s.win ∧
    (weldTimeout i c s).pairs = s.pairs ∧
    (weldTimeout i c s).time = s.time ∧
    (weldTimeout i c s).therm = s.therm ∧
    (weldTimeout i c s).nv = s.nv ∧
    (weldTimeout i c s).ledg = s.ledg ∧
    (weldTimeout i c s).tally = s.tally ∧
    (weldTimeout i c s).recd = s.recd ∧
    (weldTimeout i c s).host = s.host ∧
    (weldTimeout i c s).sec = s.sec ∧
    (weldTimeout i c s).pwr = s.pwr ∧
    (weldTimeout i c s).bist = s.bist ∧
    (weldTimeout i c s).evt = s.evt ∧
    (weldTimeout i c s).pins = s.pins ∧
    (weldTimeout i c s).freeIx = s.freeIx ∧
    (weldTimeout i c s).pending = s.pending ∧
    (weldTimeout i c s).husk.held = s.husk.held := by
  simp only [weldTimeout]
  repeat' split
  all_goals simp [id @setCopy_keep]

theorem seqNext_keep (q : Nat) (timeout : Bool) (c : Bool) (s : State) :
    (seqNext q timeout c s).sys = s.sys ∧
    (seqNext q timeout c s).img = s.img ∧
    (seqNext q timeout c s).cfg = s.cfg ∧
    (seqNext q timeout c s).ring = s.ring ∧
    (seqNext q timeout c s).acq = s.acq ∧
    (seqNext q timeout c s).cur = s.cur ∧
    (seqNext q timeout c s).krn = s.krn ∧
    (seqNext q timeout c s).est = s.est ∧
    (seqNext q timeout c s).win = s.win ∧
    (seqNext q timeout c s).pairs = s.pairs ∧
    (seqNext q timeout c s).time = s.time ∧
    (seqNext q timeout c s).therm = s.therm ∧
    (seqNext q timeout c s).nv = s.nv ∧
    (seqNext q timeout c s).ledg = s.ledg ∧
    (seqNext q timeout c s).tally = s.tally ∧
    (seqNext q timeout c s).host = s.host ∧
    (seqNext q timeout c s).sec = s.sec ∧
    (seqNext q timeout c s).pwr = s.pwr ∧
    (seqNext q timeout c s).bist = s.bist ∧
    (seqNext q timeout c s).pins = s.pins ∧
    (seqNext q timeout c s).freeIx = s.freeIx ∧
    (seqNext q timeout c s).pending = s.pending ∧
    (seqNext q timeout c s).husk.held = s.husk.held ∧
    (seqNext q timeout c s).drv.held = s.drv.held ∧
    (seqNext q timeout c s).recd.held = s.recd.held ∧
    (seqNext q timeout c s).evt.held = s.evt.held := by
  unfold seqNext
  repeat' split
  all_goals simp [id @closeTimeout_keep, id @closeWait_keep, id @fastNext_keep, id @orderlyNext_keep,
      id @userNext_keep, id @weldTimeout_keep]

theorem execSequencerWaitMet_keep {m : Copies} {q : Nat} {s t : State} (h : execSequencerWaitMet m q s = .next t) :
    t.img = s.img ∧
    t.cfg = s.cfg ∧
    t.acq = s.acq ∧
    t.cur = s.cur ∧
    t.krn = s.krn ∧
    t.win = s.win ∧
    t.pairs = s.pairs ∧
    t.time = s.time ∧
    t.therm = s.therm ∧
    t.nv = s.nv ∧
    t.ledg = s.ledg ∧
    t.tally = s.tally ∧
    t.host = s.host ∧
    t.sec = s.sec ∧
    t.bist = s.bist ∧
    t.freeIx = s.freeIx ∧
    t.pending = s.pending ∧
    t.sys.held = s.sys.held ∧
    t.husk.held = s.husk.held ∧
    t.drv.held = s.drv.held ∧
    t.recd.held = s.recd.held ∧
    t.est.held = s.est.held ∧
    t.pwr.held = s.pwr.held ∧
    t.evt.held = s.evt.held ∧
    t.pins.held = s.pins.held := by
  have e := Host.Outcome.next.inj h
  subst e
  simp [id @seqNext_keep, id @settle_keep]

theorem execSequencerTimeout_keep {m : Copies} {q : Nat} {s t : State} (h : execSequencerTimeout m q s = .next t) :
    t.img = s.img ∧
    t.cfg = s.cfg ∧
    t.acq = s.acq ∧
    t.cur = s.cur ∧
    t.krn = s.krn ∧
    t.win = s.win ∧
    t.pairs = s.pairs ∧
    t.time = s.time ∧
    t.therm = s.therm ∧
    t.nv = s.nv ∧
    t.ledg = s.ledg ∧
    t.tally = s.tally ∧
    t.host = s.host ∧
    t.sec = s.sec ∧
    t.bist = s.bist ∧
    t.freeIx = s.freeIx ∧
    t.pending = s.pending ∧
    t.sys.held = s.sys.held ∧
    t.husk.held = s.husk.held ∧
    t.drv.held = s.drv.held ∧
    t.recd.held = s.recd.held ∧
    t.est.held = s.est.held ∧
    t.pwr.held = s.pwr.held ∧
    t.evt.held = s.evt.held ∧
    t.pins.held = s.pins.held := by
  have e := Host.Outcome.next.inj h
  subst e
  simp [id @seqNext_keep, id @settle_keep]

theorem execSequencerAbort_keep {m : Copies} {q : Nat} {s t : State} (h : execSequencerAbort m q s = .next t) :
    t.img = s.img ∧
    t.cfg = s.cfg ∧
    t.acq = s.acq ∧
    t.cur = s.cur ∧
    t.krn = s.krn ∧
    t.win = s.win ∧
    t.pairs = s.pairs ∧
    t.time = s.time ∧
    t.therm = s.therm ∧
    t.nv = s.nv ∧
    t.ledg = s.ledg ∧
    t.tally = s.tally ∧
    t.host = s.host ∧
    t.sec = s.sec ∧
    t.bist = s.bist ∧
    t.freeIx = s.freeIx ∧
    t.pending = s.pending ∧
    t.sys.held = s.sys.held ∧
    t.husk.held = s.husk.held ∧
    t.drv.held = s.drv.held ∧
    t.recd.held = s.recd.held ∧
    t.est.held = s.est.held ∧
    t.pwr.held = s.pwr.held ∧
    t.evt.held = s.evt.held ∧
    t.pins.held = s.pins.held := by
  have e := Host.Outcome.next.inj h
  subst e
  simp [id @abortSeq_keep, id @noteOpenEnd_keep, id @settle_keep]
  repeat' split
  all_goals simp [id @abortSeq_keep, id @noteOpenEnd_keep]

theorem execGraceExpiry_keep {i : Nat} {s t : State} (h : execGraceExpiry i s = .next t) :
    t.img = s.img ∧
    t.cfg = s.cfg ∧
    t.acq = s.acq ∧
    t.cur = s.cur ∧
    t.krn = s.krn ∧
    t.win = s.win ∧
    t.pairs = s.pairs ∧
    t.time = s.time ∧
    t.therm = s.therm ∧
    t.nv = s.nv ∧
    t.ledg = s.ledg ∧
    t.tally = s.tally ∧
    t.host = s.host ∧
    t.sec = s.sec ∧
    t.bist = s.bist ∧
    t.freeIx = s.freeIx ∧
    t.pending = s.pending ∧
    t.sys.held = s.sys.held ∧
    t.drv.held = s.drv.held ∧
    t.recd.held = s.recd.held ∧
    t.est.held = s.est.held ∧
    t.pwr.held = s.pwr.held ∧
    t.evt.held = s.evt.held ∧
    t.pins.held = s.pins.held := by
  have e := Host.Outcome.next.inj h
  subst e
  simp [id @settle_keep]
  repeat' split
  all_goals simp [id @orderlyOpen_keep, id @stopGrace_keep]

theorem clearDrv_keep (i : Nat) (s : State) :
    (clearDrv i s).sys = s.sys ∧
    (clearDrv i s).img = s.img ∧
    (clearDrv i s).cfg = s.cfg ∧
    (clearDrv i s).ring = s.ring ∧
    (clearDrv i s).acq = s.acq ∧
    (clearDrv i s).cur = s.cur ∧
    (clearDrv i s).husk = s.husk ∧
    (clearDrv i s).krn = s.krn ∧
    (clearDrv i s).est = s.est ∧
    (clearDrv i s).win = s.win ∧
    (clearDrv i s).pairs = s.pairs ∧
    (clearDrv i s).time = s.time ∧
    (clearDrv i s).therm = s.therm ∧
    (clearDrv i s).nv = s.nv ∧
    (clearDrv i s).ledg = s.ledg ∧
    (clearDrv i s).tally = s.tally ∧
    (clearDrv i s).recd = s.recd ∧
    (clearDrv i s).host = s.host ∧
    (clearDrv i s).sec = s.sec ∧
    (clearDrv i s).pwr = s.pwr ∧
    (clearDrv i s).bist = s.bist ∧
    (clearDrv i s).evt = s.evt ∧
    (clearDrv i s).pins = s.pins ∧
    (clearDrv i s).freeIx = s.freeIx ∧
    (clearDrv i s).pending = s.pending ∧
    (clearDrv i s).drv.held = s.drv.held := by
  simp [clearDrv, id @modDrvCh_keep]

theorem clearRefuse_keep (why : Nat) (req : Nat) (i : Nat) (s : State) :
    (clearRefuse why req i s).sys = s.sys ∧
    (clearRefuse why req i s).img = s.img ∧
    (clearRefuse why req i s).cfg = s.cfg ∧
    (clearRefuse why req i s).ring = s.ring ∧
    (clearRefuse why req i s).acq = s.acq ∧
    (clearRefuse why req i s).cur = s.cur ∧
    (clearRefuse why req i s).husk = s.husk ∧
    (clearRefuse why req i s).drv = s.drv ∧
    (clearRefuse why req i s).krn = s.krn ∧
    (clearRefuse why req i s).est = s.est ∧
    (clearRefuse why req i s).win = s.win ∧
    (clearRefuse why req i s).pairs = s.pairs ∧
    (clearRefuse why req i s).time = s.time ∧
    (clearRefuse why req i s).therm = s.therm ∧
    (clearRefuse why req i s).nv = s.nv ∧
    (clearRefuse why req i s).ledg = s.ledg ∧
    (clearRefuse why req i s).tally = s.tally ∧
    (clearRefuse why req i s).host = s.host ∧
    (clearRefuse why req i s).sec = s.sec ∧
    (clearRefuse why req i s).pwr = s.pwr ∧
    (clearRefuse why req i s).bist = s.bist ∧
    (clearRefuse why req i s).pins = s.pins ∧
    (clearRefuse why req i s).freeIx = s.freeIx ∧
    (clearRefuse why req i s).pending = s.pending ∧
    (clearRefuse why req i s).recd.held = s.recd.held ∧
    (clearRefuse why req i s).evt.held = s.evt.held := by
  simp [clearRefuse, id @emit_keep]

theorem clearDone_keep (was : Word) (req : Nat) (i : Nat) (s : State) :
    (clearDone was req i s).sys = s.sys ∧
    (clearDone was req i s).img = s.img ∧
    (clearDone was req i s).cfg = s.cfg ∧
    (clearDone was req i s).ring = s.ring ∧
    (clearDone was req i s).acq = s.acq ∧
    (clearDone was req i s).cur = s.cur ∧
    (clearDone was req i s).husk = s.husk ∧
    (clearDone was req i s).drv = s.drv ∧
    (clearDone was req i s).krn = s.krn ∧
    (clearDone was req i s).est = s.est ∧
    (clearDone was req i s).win = s.win ∧
    (clearDone was req i s).pairs = s.pairs ∧
    (clearDone was req i s).time = s.time ∧
    (clearDone was req i s).therm = s.therm ∧
    (clearDone was req i s).nv = s.nv ∧
    (clearDone was req i s).ledg = s.ledg ∧
    (clearDone was req i s).tally = s.tally ∧
    (clearDone was req i s).host = s.host ∧
    (clearDone was req i s).sec = s.sec ∧
    (clearDone was req i s).pwr = s.pwr ∧
    (clearDone was req i s).bist = s.bist ∧
    (clearDone was req i s).pins = s.pins ∧
    (clearDone was req i s).freeIx = s.freeIx ∧
    (clearDone was req i s).pending = s.pending ∧
    (clearDone was req i s).recd.held = s.recd.held ∧
    (clearDone was req i s).evt.held = s.evt.held := by
  simp [clearDone, id @emit_keep]

theorem clearLatches_keep (i : Nat) (s : State) :
    (clearLatches i s).sys = s.sys ∧
    (clearLatches i s).img = s.img ∧
    (clearLatches i s).cfg = s.cfg ∧
    (clearLatches i s).ring = s.ring ∧
    (clearLatches i s).acq = s.acq ∧
    (clearLatches i s).drv = s.drv ∧
    (clearLatches i s).krn = s.krn ∧
    (clearLatches i s).est = s.est ∧
    (clearLatches i s).win = s.win ∧
    (clearLatches i s).pairs = s.pairs ∧
    (clearLatches i s).time = s.time ∧
    (clearLatches i s).therm = s.therm ∧
    (clearLatches i s).nv = s.nv ∧
    (clearLatches i s).ledg = s.ledg ∧
    (clearLatches i s).tally = s.tally ∧
    (clearLatches i s).recd = s.recd ∧
    (clearLatches i s).host = s.host ∧
    (clearLatches i s).sec = s.sec ∧
    (clearLatches i s).pwr = s.pwr ∧
    (clearLatches i s).bist = s.bist ∧
    (clearLatches i s).pins = s.pins ∧
    (clearLatches i s).freeIx = s.freeIx ∧
    (clearLatches i s).pending = s.pending := by
  simp [clearLatches, id @modBoth_keep, id @modCh_keep, id @stopGrace_keep]

theorem clearRequest_keep (req : Nat) (i : Nat) (s : State) :
    (clearRequest req i s).sys = s.sys ∧
    (clearRequest req i s).img = s.img ∧
    (clearRequest req i s).cfg = s.cfg ∧
    (clearRequest req i s).ring = s.ring ∧
    (clearRequest req i s).acq = s.acq ∧
    (clearRequest req i s).krn = s.krn ∧
    (clearRequest req i s).est = s.est ∧
    (clearRequest req i s).win = s.win ∧
    (clearRequest req i s).pairs = s.pairs ∧
    (clearRequest req i s).time = s.time ∧
    (clearRequest req i s).therm = s.therm ∧
    (clearRequest req i s).nv = s.nv ∧
    (clearRequest req i s).ledg = s.ledg ∧
    (clearRequest req i s).tally = s.tally ∧
    (clearRequest req i s).host = s.host ∧
    (clearRequest req i s).sec = s.sec ∧
    (clearRequest req i s).pwr = s.pwr ∧
    (clearRequest req i s).bist = s.bist ∧
    (clearRequest req i s).pins = s.pins ∧
    (clearRequest req i s).freeIx = s.freeIx ∧
    (clearRequest req i s).pending = s.pending ∧
    (clearRequest req i s).drv.held = s.drv.held ∧
    (clearRequest req i s).recd.held = s.recd.held := by
  simp only [clearRequest]
  repeat' split
  all_goals simp [id @clearDone_keep, id @clearDrv_keep, id @clearLatches_keep, id @clearRefuse_keep,
      id @settleNet_keep]

theorem execKeyRearm_keep  {s t : State} (h : execKeyRearm s = .next t) :
    t.img = s.img ∧
    t.cfg = s.cfg ∧
    t.acq = s.acq ∧
    t.krn = s.krn ∧
    t.win = s.win ∧
    t.pairs = s.pairs ∧
    t.time = s.time ∧
    t.therm = s.therm ∧
    t.ledg = s.ledg ∧
    t.tally = s.tally ∧
    t.host = s.host ∧
    t.sec = s.sec ∧
    t.bist = s.bist ∧
    t.freeIx = s.freeIx ∧
    t.pending = s.pending ∧
    t.recd.held = s.recd.held ∧
    t.est.held = s.est.held ∧
    t.pwr.held = s.pwr.held ∧
    t.pins.held = s.pins.held := by
  have e := Host.Outcome.next.inj h
  subst e
  dsimp only
  repeat' split
  all_goals simp [id @clearRequest_keep, id @emit_keep, id @lgRequest_keep, id @settle_keep]

theorem execHuskDivergence_keep {k : Nat} {s t : State} (h : execHuskDivergence k s = .next t) :
    t.sys = s.sys ∧
    t.img = s.img ∧
    t.cfg = s.cfg ∧
    t.ring = s.ring ∧
    t.acq = s.acq ∧
    t.cur = s.cur ∧
    t.drv = s.drv ∧
    t.krn = s.krn ∧
    t.est = s.est ∧
    t.win = s.win ∧
    t.pairs = s.pairs ∧
    t.time = s.time ∧
    t.therm = s.therm ∧
    t.nv = s.nv ∧
    t.ledg = s.ledg ∧
    t.tally = s.tally ∧
    t.recd = s.recd ∧
    t.host = s.host ∧
    t.sec = s.sec ∧
    t.pwr = s.pwr ∧
    t.bist = s.bist ∧
    t.evt = s.evt ∧
    t.pins = s.pins ∧
    t.freeIx = s.freeIx ∧
    t.pending = s.pending := by
  have e := Host.Outcome.next.inj h
  subst e
  simp

theorem loadNet_keep (n : Netlist) (src : NlSrc) (s : State) :
    (loadNet n src s).sys = s.sys ∧
    (loadNet n src s).img = s.img ∧
    (loadNet n src s).cfg = s.cfg ∧
    (loadNet n src s).ring = s.ring ∧
    (loadNet n src s).acq = s.acq ∧
    (loadNet n src s).cur = s.cur ∧
    (loadNet n src s).drv = s.drv ∧
    (loadNet n src s).krn = s.krn ∧
    (loadNet n src s).est = s.est ∧
    (loadNet n src s).win = s.win ∧
    (loadNet n src s).pairs = s.pairs ∧
    (loadNet n src s).time = s.time ∧
    (loadNet n src s).therm = s.therm ∧
    (loadNet n src s).nv = s.nv ∧
    (loadNet n src s).ledg = s.ledg ∧
    (loadNet n src s).tally = s.tally ∧
    (loadNet n src s).recd = s.recd ∧
    (loadNet n src s).host = s.host ∧
    (loadNet n src s).sec = s.sec ∧
    (loadNet n src s).pwr = s.pwr ∧
    (loadNet n src s).bist = s.bist ∧
    (loadNet n src s).evt = s.evt ∧
    (loadNet n src s).pins = s.pins ∧
    (loadNet n src s).freeIx = s.freeIx ∧
    (loadNet n src s).pending = s.pending := by
  simp [loadNet]

theorem copyFault_keep (cause : Nat) (shadow : Bool) (crc : Word) (intact : Bool) (s : State) :
    (copyFault cause shadow crc intact s).sys = s.sys ∧
    (copyFault cause shadow crc intact s).img = s.img ∧
    (copyFault cause shadow crc intact s).cfg = s.cfg ∧
    (copyFault cause shadow crc intact s).ring = s.ring ∧
    (copyFault cause shadow crc intact s).acq = s.acq ∧
    (copyFault cause shadow crc intact s).cur = s.cur ∧
    (copyFault cause shadow crc intact s).krn = s.krn ∧
    (copyFault cause shadow crc intact s).est = s.est ∧
    (copyFault cause shadow crc intact s).win = s.win ∧
    (copyFault cause shadow crc intact s).pairs = s.pairs ∧
    (copyFault cause shadow crc intact s).time = s.time ∧
    (copyFault cause shadow crc intact s).therm = s.therm ∧
    (copyFault cause shadow crc intact s).ledg = s.ledg ∧
    (copyFault cause shadow crc intact s).tally = s.tally ∧
    (copyFault cause shadow crc intact s).host = s.host ∧
    (copyFault cause shadow crc intact s).sec = s.sec ∧
    (copyFault cause shadow crc intact s).pwr = s.pwr ∧
    (copyFault cause shadow crc intact s).bist = s.bist ∧
    (copyFault cause shadow crc intact s).pins = s.pins ∧
    (copyFault cause shadow crc intact s).freeIx = s.freeIx ∧
    (copyFault cause shadow crc intact s).pending = s.pending ∧
    (copyFault cause shadow crc intact s).drv.held = s.drv.held ∧
    (copyFault cause shadow crc intact s).evt.held = s.evt.held := by
  simp [copyFault, id @emit_keep, id @loadNet_keep, id @phaseStart_keep, id @tripAll_keep]

theorem divRecord_keep (s : State) (d : Div) :
    (divRecord s d).sys = s.sys ∧
    (divRecord s d).img = s.img ∧
    (divRecord s d).cfg = s.cfg ∧
    (divRecord s d).ring = s.ring ∧
    (divRecord s d).acq = s.acq ∧
    (divRecord s d).cur = s.cur ∧
    (divRecord s d).husk = s.husk ∧
    (divRecord s d).drv = s.drv ∧
    (divRecord s d).krn = s.krn ∧
    (divRecord s d).est = s.est ∧
    (divRecord s d).win = s.win ∧
    (divRecord s d).pairs = s.pairs ∧
    (divRecord s d).time = s.time ∧
    (divRecord s d).therm = s.therm ∧
    (divRecord s d).nv = s.nv ∧
    (divRecord s d).ledg = s.ledg ∧
    (divRecord s d).tally = s.tally ∧
    (divRecord s d).host = s.host ∧
    (divRecord s d).sec = s.sec ∧
    (divRecord s d).pwr = s.pwr ∧
    (divRecord s d).bist = s.bist ∧
    (divRecord s d).pins = s.pins ∧
    (divRecord s d).freeIx = s.freeIx ∧
    (divRecord s d).pending = s.pending ∧
    (divRecord s d).recd.held = s.recd.held ∧
    (divRecord s d).evt.held = s.evt.held := by
  simp [divRecord, id @emit_keep]

theorem execHuskDivergeRecord_keep {intact : Bool} {s t : State} (h : execHuskDivergeRecord intact s = .next t) :
    t.img = s.img ∧
    t.cfg = s.cfg ∧
    t.acq = s.acq ∧
    t.cur = s.cur ∧
    t.krn = s.krn ∧
    t.win = s.win ∧
    t.pairs = s.pairs ∧
    t.time = s.time ∧
    t.therm = s.therm ∧
    t.ledg = s.ledg ∧
    t.tally = s.tally ∧
    t.host = s.host ∧
    t.sec = s.sec ∧
    t.bist = s.bist ∧
    t.freeIx = s.freeIx ∧
    t.pending = s.pending ∧
    t.sys.held = s.sys.held ∧
    t.drv.held = s.drv.held ∧
    t.est.held = s.est.held ∧
    t.pwr.held = s.pwr.held ∧
    t.evt.held = s.evt.held ∧
    t.pins.held = s.pins.held := by
  have e := Host.Outcome.next.inj h
  subst e
  dsimp only
  repeat' split
  all_goals simp [id @copyFault_keep, id @divRecord_keep, id @settle_keep]

theorem execHuskCrcCheck_keep {crcM : Word} {crcS : Word} {corr : Nat} {uncM : Bool} {uncS : Bool} {intact : Bool} {s t : State} (h : execHuskCrcCheck crcM crcS corr uncM uncS intact s = .next t) :
    t.img = s.img ∧
    t.cfg = s.cfg ∧
    t.acq = s.acq ∧
    t.cur = s.cur ∧
    t.krn = s.krn ∧
    t.win = s.win ∧
    t.pairs = s.pairs ∧
    t.time = s.time ∧
    t.therm = s.therm ∧
    t.ledg = s.ledg ∧
    t.tally = s.tally ∧
    t.host = s.host ∧
    t.sec = s.sec ∧
    t.bist = s.bist ∧
    t.freeIx = s.freeIx ∧
    t.pending = s.pending ∧
    t.sys.held = s.sys.held ∧
    t.drv.held = s.drv.held ∧
    t.est.held = s.est.held ∧
    t.pwr.held = s.pwr.held ∧
    t.evt.held = s.evt.held ∧
    t.pins.held = s.pins.held := by
  have e := Host.Outcome.next.inj h
  subst e
  dsimp only
  repeat' split
  all_goals simp [id @copyFault_keep, id @phaseEnd_keep, id @settle_keep]

theorem netChange_keep (n : Netlist) (s : State) :
    (netChange n s).sys = s.sys ∧
    (netChange n s).img = s.img ∧
    (netChange n s).cfg = s.cfg ∧
    (netChange n s).ring = s.ring ∧
    (netChange n s).acq = s.acq ∧
    (netChange n s).cur = s.cur ∧
    (netChange n s).drv = s.drv ∧
    (netChange n s).krn = s.krn ∧
    (netChange n s).est = s.est ∧
    (netChange n s).win = s.win ∧
    (netChange n s).pairs = s.pairs ∧
    (netChange n s).time = s.time ∧
    (netChange n s).therm = s.therm ∧
    (netChange n s).nv = s.nv ∧
    (netChange n s).ledg = s.ledg ∧
    (netChange n s).tally = s.tally ∧
    (netChange n s).recd = s.recd ∧
    (netChange n s).host = s.host ∧
    (netChange n s).sec = s.sec ∧
    (netChange n s).pwr = s.pwr ∧
    (netChange n s).bist = s.bist ∧
    (netChange n s).evt = s.evt ∧
    (netChange n s).pins = s.pins ∧
    (netChange n s).freeIx = s.freeIx ∧
    (netChange n s).pending = s.pending := by
  simp [netChange, id @loadNet_keep]

end Sys2Proof.Machine
end

