-- ==== Sys2Proof/Laws/KeepDrv.lean ====
section
/-! SUPPORT. What the operations of Machine/Drv.lean leave unchanged. -/

namespace Sys2Proof.Machine

theorem execEconomyEntry_keep {n : Nat} {s t : State} (h : execEconomyEntry n s = .next t) :
    t.img = s.img ∧
    t.cfg = s.cfg ∧
    t.acq = s.acq ∧
    t.cur = s.cur ∧
    t.krn = s.krn ∧
    t.win = s.win ∧
    t.pairs = s.pairs ∧
    t.time = s.time ∧
    t.therm = s.therm ∧
    t.nv = s.nv ∧
    t.ledg = s.ledg ∧
    t.tally = s.tally ∧
    t.host = s.host ∧
    t.sec = s.sec ∧
    t.bist = s.bist ∧
    t.freeIx = s.freeIx ∧
    t.pending = s.pending ∧
    t.sys.held = s.sys.held ∧
    t.husk.held = s.husk.held ∧
    t.drv.held = s.drv.held ∧
    t.recd.held = s.recd.held ∧
    t.est.held = s.est.held ∧
    t.pwr.held = s.pwr.held ∧
    t.evt.held = s.evt.held ∧
    t.pins.held = s.pins.held := by
  have e := Host.Outcome.next.inj h
  subst e
  simp [id @settle_keep]
  repeat' split
  all_goals simp [id @modDrvCh_keep]

theorem execDriveFault_keep {n : Nat} {gate : Bool} {coil : Nat} {s t : State} (h : execDriveFault n gate coil s = .next t) :
    t.img = s.img ∧
    t.cfg = s.cfg ∧
    t.acq = s.acq ∧
    t.cur = s.cur ∧
    t.krn = s.krn ∧
    t.win = s.win ∧
    t.pairs = s.pairs ∧
    t.time = s.time ∧
    t.therm = s.therm ∧
    t.nv = s.nv ∧
    t.ledg = s.ledg ∧
    t.tally = s.tally ∧
    t.host = s.host ∧
    t.sec = s.sec ∧
    t.bist = s.bist ∧
    t.freeIx = s.freeIx ∧
    t.pending = s.pending ∧
    t.sys.held = s.sys.held ∧
    t.husk.held = s.husk.held ∧
    t.drv.held = s.drv.held ∧
    t.recd.held = s.recd.held ∧
    t.est.held = s.est.held ∧
    t.pwr.held = s.pwr.held ∧
    t.evt.held = s.evt.held ∧
    t.pins.held = s.pins.held := by
  have e := Host.Outcome.next.inj h
  subst e
  dsimp only
  repeat' split
  all_goals simp [id @emit_keep, id @modDrvCh_keep, id @settle_keep]

theorem execOpenCoilFault_keep {n : Nat} {c0 : Nat} {c1 : Nat} {c2 : Nat} {s t : State} (h : execOpenCoilFault n c0 c1 c2 s = .next t) :
    t.img = s.img ∧
    t.cfg = s.cfg ∧
    t.acq = s.acq ∧
    t.cur = s.cur ∧
    t.krn = s.krn ∧
    t.win = s.win ∧
    t.pairs = s.pairs ∧
    t.time = s.time ∧
    t.therm = s.therm ∧
    t.nv = s.nv ∧
    t.ledg = s.ledg ∧
    t.tally = s.tally ∧
    t.host = s.host ∧
    t.sec = s.sec ∧
    t.bist = s.bist ∧
    t.freeIx = s.freeIx ∧
    t.pending = s.pending ∧
    t.sys.held = s.sys.held ∧
    t.husk.held = s.husk.held ∧
    t.drv.held = s.drv.held ∧
    t.recd.held = s.recd.held ∧
    t.est.held = s.est.held ∧
    t.pwr.held = s.pwr.held ∧
    t.evt.held = s.evt.held ∧
    t.pins.held = s.pins.held := by
  have e := Host.Outcome.next.inj h
  subst e
  dsimp only
  repeat' split
  all_goals simp [id @emit_keep, id @modDrvCh_keep, id @settle_keep]

theorem execFastOpenTimeout_keep {i : Nat} {s t : State} (h : execFastOpenTimeout i s = .next t) :
    t.img = s.img ∧
    t.cfg = s.cfg ∧
    t.acq = s.acq ∧
    t.cur = s.cur ∧
    t.krn = s.krn ∧
    t.win = s.win ∧
    t.pairs = s.pairs ∧
    t.time = s.time ∧
    t.therm = s.therm ∧
    t.ledg = s.ledg ∧
    t.tally = s.tally ∧
    t.host = s.host ∧
    t.sec = s.sec ∧
    t.bist = s.bist ∧
    t.freeIx = s.freeIx ∧
    t.pending = s.pending ∧
    t.sys.held = s.sys.held ∧
    t.drv.held = s.drv.held ∧
    t.recd.held = s.recd.held ∧
    t.est.held = s.est.held ∧
    t.pwr.held = s.pwr.held ∧
    t.pins.held = s.pins.held := by
  have e := Host.Outcome.next.inj h
  subst e
  dsimp only
  repeat' split
  all_goals simp [id @emit_keep, id @noteOpenEnd_keep, id @setCopy_keep, id @settle_keep, id @tripAll_keep]

theorem weldNote_keep (s : State) (i : Nat) :
    (weldNote s i).sys = s.sys ∧
    (weldNote s i).img = s.img ∧
    (weldNote s i).cfg = s.cfg ∧
    (weldNote s i).ring = s.ring ∧
    (weldNote s i).acq = s.acq ∧
    (weldNote s i).cur = s.cur ∧
    (weldNote s i).husk = s.husk ∧
    (weldNote s i).krn = s.krn ∧
    (weldNote s i).est = s.est ∧
    (weldNote s i).win = s.win ∧
    (weldNote s i).pairs = s.pairs ∧
    (weldNote s i).time = s.time ∧
    (weldNote s i).therm = s.therm ∧
    (weldNote s i).nv = s.nv ∧
    (weldNote s i).ledg = s.ledg ∧
    (weldNote s i).tally = s.tally ∧
    (weldNote s i).recd = s.recd ∧
    (weldNote s i).host = s.host ∧
    (weldNote s i).sec = s.sec ∧
    (weldNote s i).pwr = s.pwr ∧
    (weldNote s i).bist = s.bist ∧
    (weldNote s i).evt = s.evt ∧
    (weldNote s i).pins = s.pins ∧
    (weldNote s i).freeIx = s.freeIx ∧
    (weldNote s i).pending = s.pending ∧
    (weldNote s i).drv.held = s.drv.held := by
  unfold weldNote
  repeat' split
  all_goals simp [id @modDrvStr_keep]

theorem monitorsClose_keep (s : State) :
    (monitorsClose s).sys = s.sys ∧
    (monitorsClose s).img = s.img ∧
    (monitorsClose s).cfg = s.cfg ∧
    (monitorsClose s).ring = s.ring ∧
    (monitorsClose s).acq = s.acq ∧
    (monitorsClose s).cur = s.cur ∧
    (monitorsClose s).krn = s.krn ∧
    (monitorsClose s).est = s.est ∧
    (monitorsClose s).win = s.win ∧
    (monitorsClose s).pairs = s.pairs ∧
    (monitorsClose s).time = s.time ∧
    (monitorsClose s).therm = s.therm ∧
    (monitorsClose s).nv = s.nv ∧
    (monitorsClose s).ledg = s.ledg ∧
    (monitorsClose s).tally = s.tally ∧
    (monitorsClose s).recd = s.recd ∧
    (monitorsClose s).host = s.host ∧
    (monitorsClose s).sec = s.sec ∧
    (monitorsClose s).pwr = s.pwr ∧
    (monitorsClose s).bist = s.bist ∧
    (monitorsClose s).evt = s.evt ∧
    (monitorsClose s).pins = s.pins ∧
    (monitorsClose s).freeIx = s.freeIx ∧
    (monitorsClose s).pending = s.pending ∧
    (monitorsClose s).husk.held = s.husk.held ∧
    (monitorsClose s).drv.held = s.drv.held := by
  simp [monitorsClose, id @modBoth_keep, id @weldNote_keep]

theorem startWeld_keep (i : Nat) (s : State) :
    (startWeld i s).sys = s.sys ∧
    (startWeld i s).img = s.img ∧
    (startWeld i s).cfg = s.cfg ∧
    (startWeld i s).ring = s.ring ∧
    (startWeld i s).acq = s.acq ∧
    (startWeld i s).cur = s.cur ∧
    (startWeld i s).krn = s.krn ∧
    (startWeld i s).est = s.est ∧
    (startWeld i s).win = s.win ∧
    (startWeld i s).pairs = s.pairs ∧
    (startWeld i s).time = s.time ∧
    (startWeld i s).therm = s.therm ∧
    (startWeld i s).nv = s.nv ∧
    (startWeld i s).ledg = s.ledg ∧
    (startWeld i s).tally = s.tally ∧
    (startWeld i s).recd = s.recd ∧
    (startWeld i s).host = s.host ∧
    (startWeld i s).sec = s.sec ∧
    (startWeld i s).pwr = s.pwr ∧
    (startWeld i s).bist = s.bist ∧
    (startWeld i s).evt = s.evt ∧
    (startWeld i s).pins = s.pins ∧
    (startWeld i s).freeIx = s.freeIx ∧
    (startWeld i s).pending = s.pending ∧
    (startWeld i s).husk.held = s.husk.held ∧
    (startWeld i s).drv.held = s.drv.held := by
  unfold startWeld
  repeat' split
  all_goals simp [id @modBoth_keep, id @modDrvStr_keep]

theorem execWeldCheckStart_keep {i : Nat} {s t : State} (h : execWeldCheckStart i s = .next t) :
    t.img = s.img ∧
    t.cfg = s.cfg ∧
    t.acq = s.acq ∧
    t.cur = s.cur ∧
    t.krn = s.krn ∧
    t.win = s.win ∧
    t.pairs = s.pairs ∧
    t.time = s.time ∧
    t.therm = s.therm ∧
    t.nv = s.nv ∧
    t.ledg = s.ledg ∧
    t.tally = s.tally ∧
    t.host = s.host ∧
    t.sec = s.sec ∧
    t.bist = s.bist ∧
    t.freeIx = s.freeIx ∧
    t.pending = s.pending ∧
    t.sys.held = s.sys.held ∧
    t.husk.held = s.husk.held ∧
    t.drv.held = s.drv.held ∧
    t.recd.held = s.recd.held ∧
    t.est.held = s.est.held ∧
    t.pwr.held = s.pwr.held ∧
    t.evt.held = s.evt.held ∧
    t.pins.held = s.pins.held := by
  have e := Host.Outcome.next.inj h
  subst e
  simp [id @modDrvStr_keep, id @settle_keep, id @startWeld_keep]
  repeat' split
  all_goals simp [id @modDrvStr_keep, id @startWeld_keep]

theorem endWeld_keep (i : Nat) (s : State) :
    (endWeld i s).sys = s.sys ∧
    (endWeld i s).img = s.img ∧
    (endWeld i s).cfg = s.cfg ∧
    (endWeld i s).ring = s.ring ∧
    (endWeld i s).acq = s.acq ∧
    (endWeld i s).cur = s.cur ∧
    (endWeld i s).drv = s.drv ∧
    (endWeld i s).krn = s.krn ∧
    (endWeld i s).est = s.est ∧
    (endWeld i s).win = s.win ∧
    (endWeld i s).pairs = s.pairs ∧
    (endWeld i s).time = s.time ∧
    (endWeld i s).therm = s.therm ∧
    (endWeld i s).nv = s.nv ∧
    (endWeld i s).ledg = s.ledg ∧
    (endWeld i s).tally = s.tally ∧
    (endWeld i s).recd = s.recd ∧
    (endWeld i s).host = s.host ∧
    (endWeld i s).sec = s.sec ∧
    (endWeld i s).pwr = s.pwr ∧
    (endWeld i s).bist = s.bist ∧
    (endWeld i s).evt = s.evt ∧
    (endWeld i s).pins = s.pins ∧
    (endWeld i s).freeIx = s.freeIx ∧
    (endWeld i s).pending = s.pending ∧
    (endWeld i s).husk.held = s.husk.held := by
  simp [endWeld, id @modBoth_keep]

theorem weldUnchecked_keep (i : Nat) (s : State) :
    (weldUnchecked i s).sys = s.sys ∧
    (weldUnchecked i s).img = s.img ∧
    (weldUnchecked i s).cfg = s.cfg ∧
    (weldUnchecked i s).ring = s.ring ∧
    (weldUnchecked i s).acq = s.acq ∧
    (weldUnchecked i s).cur = s.cur ∧
    (weldUnchecked i s).husk = s.husk ∧
    (weldUnchecked i s).krn = s.krn ∧
    (weldUnchecked i s).est = s.est ∧
    (weldUnchecked i s).win = s.win ∧
    (weldUnchecked i s).pairs = s.pairs ∧
    (weldUnchecked i s).time = s.time ∧
    (weldUnchecked i s).therm = s.therm ∧
    (weldUnchecked i s).nv = s.nv ∧
    (weldUnchecked i s).ledg = s.ledg ∧
    (weldUnchecked i s).tally = s.tally ∧
    (weldUnchecked i s).host = s.host ∧
    (weldUnchecked i s).sec = s.sec ∧
    (weldUnchecked i s).pwr = s.pwr ∧
    (weldUnchecked i s).bist = s.bist ∧
    (weldUnchecked i s).pins = s.pins ∧
    (weldUnchecked i s).freeIx = s.freeIx ∧
    (weldUnchecked i s).pending = s.pending ∧
    (weldUnchecked i s).drv.held = s.drv.held ∧
    (weldUnchecked i s).recd.held = s.recd.held ∧
    (weldUnchecked i s).evt.held = s.evt.held := by
  simp [weldUnchecked, id @emit_keep, id @modDrvStr_keep]

theorem weldJudge_keep (i : Nat) (x : SlotData) (s : State) :
    (weldJudge i x s).sys = s.sys ∧
    (weldJudge i x s).img = s.img ∧
    (weldJudge i x s).cfg = s.cfg ∧
    (weldJudge i x s).ring = s.ring ∧
    (weldJudge i x s).acq = s.acq ∧
    (weldJudge i x s).cur = s.cur ∧
    (weldJudge i x s).husk = s.husk ∧
    (weldJudge i x s).krn = s.krn ∧
    (weldJudge i x s).est = s.est ∧
    (weldJudge i x s).win = s.win ∧
    (weldJudge i x s).pairs = s.pairs ∧
    (weldJudge i x s).time = s.time ∧
    (weldJudge i x s).therm = s.therm ∧
    (weldJudge i x s).nv = s.nv ∧
    (weldJudge i x s).ledg = s.ledg ∧
    (weldJudge i x s).tally = s.tally ∧
    (weldJudge i x s).host = s.host ∧
    (weldJudge i x s).sec = s.sec ∧
    (weldJudge i x s).pwr = s.pwr ∧
    (weldJudge i x s).bist = s.bist ∧
    (weldJudge i x s).pins = s.pins ∧
    (weldJudge i x s).freeIx = s.freeIx ∧
    (weldJudge i x s).pending = s.pending ∧
    (weldJudge i x s).drv.held = s.drv.held ∧
    (weldJudge i x s).recd.held = s.recd.held ∧
    (weldJudge i x s).evt.held = s.evt.held := by
  simp only [weldJudge]
  repeat' split
  all_goals simp [id @emit_keep, id @emitIf_keep, id @modDrvStr_keep, id @weldUnchecked_keep]

theorem execWeldCheckEvaluate_keep {i : Nat} {s t : State} (h : execWeldCheckEvaluate i s = .next t) :
    t.img = s.img ∧
    t.cfg = s.cfg ∧
    t.acq = s.acq ∧
    t.cur = s.cur ∧
    t.krn = s.krn ∧
    t.win = s.win ∧
    t.pairs = s.pairs ∧
    t.time = s.time ∧
    t.therm = s.therm ∧
    t.nv = s.nv ∧
    t.ledg = s.ledg ∧
    t.tally = s.tally ∧
    t.host = s.host ∧
    t.sec = s.sec ∧
    t.bist = s.bist ∧
    t.freeIx = s.freeIx ∧
    t.pending = s.pending ∧
    t.sys.held = s.sys.held ∧
    t.husk.held = s.husk.held ∧
    t.drv.held = s.drv.held ∧
    t.recd.held = s.recd.held ∧
    t.est.held = s.est.held ∧
    t.pwr.held = s.pwr.held ∧
    t.evt.held = s.evt.held ∧
    t.pins.held = s.pins.held := by
  have e := Host.Outcome.next.inj h
  subst e
  simp [id @settle_keep]
  repeat' split
  all_goals simp [id @endWeld_keep, id @weldJudge_keep, id @weldUnchecked_keep]

theorem setHvil_keep (s : State) (n : Nat) (x : Hvil) :
    (setHvil s n x).sys = s.sys ∧
    (setHvil s n x).img = s.img ∧
    (setHvil s n x).cfg = s.cfg ∧
    (setHvil s n x).ring = s.ring ∧
    (setHvil s n x).acq = s.acq ∧
    (setHvil s n x).cur = s.cur ∧
    (setHvil s n x).husk = s.husk ∧
    (setHvil s n x).krn = s.krn ∧
    (setHvil s n x).est = s.est ∧
    (setHvil s n x).win = s.win ∧
    (setHvil s n x).pairs = s.pairs ∧
    (setHvil s n x).time = s.time ∧
    (setHvil s n x).therm = s.therm ∧
    (setHvil s n x).nv = s.nv ∧
    (setHvil s n x).ledg = s.ledg ∧
    (setHvil s n x).tally = s.tally ∧
    (setHvil s n x).recd = s.recd ∧
    (setHvil s n x).host = s.host ∧
    (setHvil s n x).sec = s.sec ∧
    (setHvil s n x).pwr = s.pwr ∧
    (setHvil s n x).bist = s.bist ∧
    (setHvil s n x).evt = s.evt ∧
    (setHvil s n x).pins = s.pins ∧
    (setHvil s n x).freeIx = s.freeIx ∧
    (setHvil s n x).pending = s.pending := by
  simp [setHvil]

theorem hvilSample_keep (n : Nat) (s : State) (v : Nat) :
    (hvilSample n s v).sys = s.sys ∧
    (hvilSample n s v).img = s.img ∧
    (hvilSample n s v).cfg = s.cfg ∧
    (hvilSample n s v).ring = s.ring ∧
    (hvilSample n s v).acq = s.acq ∧
    (hvilSample n s v).cur = s.cur ∧
    (hvilSample n s v).husk = s.husk ∧
    (hvilSample n s v).krn = s.krn ∧
    (hvilSample n s v).est = s.est ∧
    (hvilSample n s v).win = s.win ∧
    (hvilSample n s v).pairs = s.pairs ∧
    (hvilSample n s v).time = s.time ∧
    (hvilSample n s v).therm = s.therm ∧
    (hvilSample n s v).nv = s.nv ∧
    (hvilSample n s v).ledg = s.ledg ∧
    (hvilSample n s v).tally = s.tally ∧
    (hvilSample n s v).host = s.host ∧
    (hvilSample n s v).sec = s.sec ∧
    (hvilSample n s v).pwr = s.pwr ∧
    (hvilSample n s v).bist = s.bist ∧
    (hvilSample n s v).pins = s.pins ∧
    (hvilSample n s v).freeIx = s.freeIx ∧
    (hvilSample n s v).pending = s.pending ∧
    (hvilSample n s v).recd.held = s.recd.held ∧
    (hvilSample n s v).evt.held = s.evt.held := by
  simp [hvilSample, id @emitIf_keep, id @setHvil_keep]

theorem execHvilFault_keep {n : Nat} {samples : List Nat} {s t : State} (h : execHvilFault n samples s = .next t) :
    t.img = s.img ∧
    t.cfg = s.cfg ∧
    t.acq = s.acq ∧
    t.cur = s.cur ∧
    t.krn = s.krn ∧
    t.win = s.win ∧
    t.pairs = s.pairs ∧
    t.time = s.time ∧
    t.therm = s.therm ∧
    t.nv = s.nv ∧
    t.ledg = s.ledg ∧
    t.tally = s.tally ∧
    t.host = s.host ∧
    t.sec = s.sec ∧
    t.bist = s.bist ∧
    t.freeIx = s.freeIx ∧
    t.pending = s.pending ∧
    t.sys.held = s.sys.held ∧
    t.husk.held = s.husk.held ∧
    t.recd.held = s.recd.held ∧
    t.est.held = s.est.held ∧
    t.pwr.held = s.pwr.held ∧
    t.evt.held = s.evt.held ∧
    t.pins.held = s.pins.held := by
  have e := Host.Outcome.next.inj h
  subst e
  simp [id @hvilSample_keep, id @settle_keep]
  repeat' split
  all_goals simp [id @hvilSample_keep]

theorem execHvilFaultClear_keep {n : Nat} {samples : List Nat} {s t : State} (h : execHvilFaultClear n samples s = .next t) :
    t.img = s.img ∧
    t.cfg = s.cfg ∧
    t.acq = s.acq ∧
    t.cur = s.cur ∧
    t.krn = s.krn ∧
    t.win = s.win ∧
    t.pairs = s.pairs ∧
    t.time = s.time ∧
    t.therm = s.therm ∧
    t.nv = s.nv ∧
    t.ledg = s.ledg ∧
    t.tally = s.tally ∧
    t.host = s.host ∧
    t.sec = s.sec ∧
    t.bist = s.bist ∧
    t.freeIx = s.freeIx ∧
    t.pending = s.pending ∧
    t.sys.held = s.sys.held ∧
    t.husk.held = s.husk.held ∧
    t.recd.held = s.recd.held ∧
    t.est.held = s.est.held ∧
    t.pwr.held = s.pwr.held ∧
    t.evt.held = s.evt.held ∧
    t.pins.held = s.pins.held := by
  have e := Host.Outcome.next.inj h
  subst e
  simp [id @hvilSample_keep, id @settle_keep]
  repeat' split
  all_goals simp [id @hvilSample_keep, id @settle_keep]

theorem keyTake_keep (v : Bool) (t : Nat) (s : State) :
    (keyTake v t s).sys = s.sys ∧
    (keyTake v t s).img = s.img ∧
    (keyTake v t s).cfg = s.cfg ∧
    (keyTake v t s).ring = s.ring ∧
    (keyTake v t s).acq = s.acq ∧
    (keyTake v t s).cur = s.cur ∧
    (keyTake v t s).husk = s.husk ∧
    (keyTake v t s).krn = s.krn ∧
    (keyTake v t s).win = s.win ∧
    (keyTake v t s).pairs = s.pairs ∧
    (keyTake v t s).time = s.time ∧
    (keyTake v t s).therm = s.therm ∧
    (keyTake v t s).nv = s.nv ∧
    (keyTake v t s).ledg = s.ledg ∧
    (keyTake v t s).tally = s.tally ∧
    (keyTake v t s).host = s.host ∧
    (keyTake v t s).sec = s.sec ∧
    (keyTake v t s).pwr = s.pwr ∧
    (keyTake v t s).bist = s.bist ∧
    (keyTake v t s).pins = s.pins ∧
    (keyTake v t s).freeIx = s.freeIx ∧
    (keyTake v t s).pending = s.pending ∧
    (keyTake v t s).recd.held = s.recd.held ∧
    (keyTake v t s).evt.held = s.evt.held := by
  unfold keyTake
  repeat' split
  all_goals simp [id @reserveRestore_keep]

theorem keyNote_keep (v : Bool) (s : State) :
    (keyNote v s).sys = s.sys ∧
    (keyNote v s).img = s.img ∧
    (keyNote v s).cfg = s.cfg ∧
    (keyNote v s).ring = s.ring ∧
    (keyNote v s).acq = s.acq ∧
    (keyNote v s).cur = s.cur ∧
    (keyNote v s).husk = s.husk ∧
    (keyNote v s).krn = s.krn ∧
    (keyNote v s).est = s.est ∧
    (keyNote v s).win = s.win ∧
    (keyNote v s).pairs = s.pairs ∧
    (keyNote v s).time = s.time ∧
    (keyNote v s).therm = s.therm ∧
    (keyNote v s).nv = s.nv ∧
    (keyNote v s).ledg = s.ledg ∧
    (keyNote v s).tally = s.tally ∧
    (keyNote v s).recd = s.recd ∧
    (keyNote v s).host = s.host ∧
    (keyNote v s).sec = s.sec ∧
    (keyNote v s).pwr = s.pwr ∧
    (keyNote v s).bist = s.bist ∧
    (keyNote v s).evt = s.evt ∧
    (keyNote v s).pins = s.pins ∧
    (keyNote v s).freeIx = s.freeIx ∧
    (keyNote v s).pending = s.pending := by
  simp [keyNote]

end Sys2Proof.Machine
end

