-- ==== Sys2Proof/Laws/KeepNv.lean ====
section
/-! SUPPORT. What the operations of Machine/Nv.lean leave unchanged. -/

namespace Sys2Proof.Machine

theorem setNvObj_keep (s : State) (oid : Nat) (o : NvObj) :
    (setNvObj s oid o).sys = s.sys ∧
    (setNvObj s oid o).img = s.img ∧
    (setNvObj s oid o).cfg = s.cfg ∧
    (setNvObj s oid o).ring = s.ring ∧
    (setNvObj s oid o).acq = s.acq ∧
    (setNvObj s oid o).cur = s.cur ∧
    (setNvObj s oid o).husk = s.husk ∧
    (setNvObj s oid o).drv = s.drv ∧
    (setNvObj s oid o).krn = s.krn ∧
    (setNvObj s oid o).est = s.est ∧
    (setNvObj s oid o).win = s.win ∧
    (setNvObj s oid o).pairs = s.pairs ∧
    (setNvObj s oid o).time = s.time ∧
    (setNvObj s oid o).therm = s.therm ∧
    (setNvObj s oid o).ledg = s.ledg ∧
    (setNvObj s oid o).tally = s.tally ∧
    (setNvObj s oid o).recd = s.recd ∧
    (setNvObj s oid o).host = s.host ∧
    (setNvObj s oid o).sec = s.sec ∧
    (setNvObj s oid o).pwr = s.pwr ∧
    (setNvObj s oid o).bist = s.bist ∧
    (setNvObj s oid o).evt = s.evt ∧
    (setNvObj s oid o).pins = s.pins ∧
    (setNvObj s oid o).freeIx = s.freeIx ∧
    (setNvObj s oid o).pending = s.pending := by
  simp [setNvObj]

theorem nvBankBad_keep (oid : Nat) (bankB : Bool) (s : State) :
    (nvBankBad oid bankB s).sys = s.sys ∧
    (nvBankBad oid bankB s).img = s.img ∧
    (nvBankBad oid bankB s).cfg = s.cfg ∧
    (nvBankBad oid bankB s).ring = s.ring ∧
    (nvBankBad oid bankB s).acq = s.acq ∧
    (nvBankBad oid bankB s).cur = s.cur ∧
    (nvBankBad oid bankB s).husk = s.husk ∧
    (nvBankBad oid bankB s).drv = s.drv ∧
    (nvBankBad oid bankB s).krn = s.krn ∧
    (nvBankBad oid bankB s).est = s.est ∧
    (nvBankBad oid bankB s).win = s.win ∧
    (nvBankBad oid bankB s).pairs = s.pairs ∧
    (nvBankBad oid bankB s).time = s.time ∧
    (nvBankBad oid bankB s).therm = s.therm ∧
    (nvBankBad oid bankB s).ledg = s.ledg ∧
    (nvBankBad oid bankB s).tally = s.tally ∧
    (nvBankBad oid bankB s).host = s.host ∧
    (nvBankBad oid bankB s).sec = s.sec ∧
    (nvBankBad oid bankB s).pwr = s.pwr ∧
    (nvBankBad oid bankB s).bist = s.bist ∧
    (nvBankBad oid bankB s).pins = s.pins ∧
    (nvBankBad oid bankB s).freeIx = s.freeIx ∧
    (nvBankBad oid bankB s).pending = s.pending ∧
    (nvBankBad oid bankB s).recd.held = s.recd.held ∧
    (nvBankBad oid bankB s).evt.held = s.evt.held := by
  simp [nvBankBad, id @emit_keep, id @setNvObj_keep]

theorem nvDirty_keep (oid : Nat) (v : Bool) (s : State) :
    (nvDirty oid v s).sys = s.sys ∧
    (nvDirty oid v s).img = s.img ∧
    (nvDirty oid v s).cfg = s.cfg ∧
    (nvDirty oid v s).ring = s.ring ∧
    (nvDirty oid v s).acq = s.acq ∧
    (nvDirty oid v s).cur = s.cur ∧
    (nvDirty oid v s).husk = s.husk ∧
    (nvDirty oid v s).drv = s.drv ∧
    (nvDirty oid v s).krn = s.krn ∧
    (nvDirty oid v s).est = s.est ∧
    (nvDirty oid v s).win = s.win ∧
    (nvDirty oid v s).pairs = s.pairs ∧
    (nvDirty oid v s).time = s.time ∧
    (nvDirty oid v s).therm = s.therm ∧
    (nvDirty oid v s).ledg = s.ledg ∧
    (nvDirty oid v s).tally = s.tally ∧
    (nvDirty oid v s).recd = s.recd ∧
    (nvDirty oid v s).host = s.host ∧
    (nvDirty oid v s).sec = s.sec ∧
    (nvDirty oid v s).pwr = s.pwr ∧
    (nvDirty oid v s).bist = s.bist ∧
    (nvDirty oid v s).evt = s.evt ∧
    (nvDirty oid v s).pins = s.pins ∧
    (nvDirty oid v s).freeIx = s.freeIx ∧
    (nvDirty oid v s).pending = s.pending := by
  simp [nvDirty, id @setNvObj_keep]

theorem nvTaken_keep (oid : Nat) (s : State) :
    (nvTaken oid s).sys = s.sys ∧
    (nvTaken oid s).img = s.img ∧
    (nvTaken oid s).cfg = s.cfg ∧
    (nvTaken oid s).ring = s.ring ∧
    (nvTaken oid s).acq = s.acq ∧
    (nvTaken oid s).cur = s.cur ∧
    (nvTaken oid s).husk = s.husk ∧
    (nvTaken oid s).drv = s.drv ∧
    (nvTaken oid s).est = s.est ∧
    (nvTaken oid s).pairs = s.pairs ∧
    (nvTaken oid s).time = s.time ∧
    (nvTaken oid s).therm = s.therm ∧
    (nvTaken oid s).ledg = s.ledg ∧
    (nvTaken oid s).tally = s.tally ∧
    (nvTaken oid s).recd = s.recd ∧
    (nvTaken oid s).host = s.host ∧
    (nvTaken oid s).sec = s.sec ∧
    (nvTaken oid s).pwr = s.pwr ∧
    (nvTaken oid s).bist = s.bist ∧
    (nvTaken oid s).evt = s.evt ∧
    (nvTaken oid s).pins = s.pins ∧
    (nvTaken oid s).freeIx = s.freeIx ∧
    (nvTaken oid s).pending = s.pending := by
  simp [nvTaken, id @modWCell_keep]

theorem nvStart_keep (s : State) :
    (nvStart s).sys = s.sys ∧
    (nvStart s).img = s.img ∧
    (nvStart s).cfg = s.cfg ∧
    (nvStart s).ring = s.ring ∧
    (nvStart s).acq = s.acq ∧
    (nvStart s).cur = s.cur ∧
    (nvStart s).husk = s.husk ∧
    (nvStart s).drv = s.drv ∧
    (nvStart s).est = s.est ∧
    (nvStart s).pairs = s.pairs ∧
    (nvStart s).time = s.time ∧
    (nvStart s).therm = s.therm ∧
    (nvStart s).ledg = s.ledg ∧
    (nvStart s).tally = s.tally ∧
    (nvStart s).recd = s.recd ∧
    (nvStart s).host = s.host ∧
    (nvStart s).sec = s.sec ∧
    (nvStart s).pwr = s.pwr ∧
    (nvStart s).bist = s.bist ∧
    (nvStart s).evt = s.evt ∧
    (nvStart s).pins = s.pins ∧
    (nvStart s).freeIx = s.freeIx ∧
    (nvStart s).pending = s.pending := by
  unfold nvStart
  repeat' split
  all_goals simp [id @nvTaken_keep, id @setNvObj_keep]

theorem nvQueue_keep (oid : Nat) (s0 : State) :
    (nvQueue oid s0).sys = s0.sys ∧
    (nvQueue oid s0).img = s0.img ∧
    (nvQueue oid s0).cfg = s0.cfg ∧
    (nvQueue oid s0).ring = s0.ring ∧
    (nvQueue oid s0).acq = s0.acq ∧
    (nvQueue oid s0).cur = s0.cur ∧
    (nvQueue oid s0).husk = s0.husk ∧
    (nvQueue oid s0).drv = s0.drv ∧
    (nvQueue oid s0).est = s0.est ∧
    (nvQueue oid s0).pairs = s0.pairs ∧
    (nvQueue oid s0).time = s0.time ∧
    (nvQueue oid s0).therm = s0.therm ∧
    (nvQueue oid s0).ledg = s0.ledg ∧
    (nvQueue oid s0).tally = s0.tally ∧
    (nvQueue oid s0).recd = s0.recd ∧
    (nvQueue oid s0).host = s0.host ∧
    (nvQueue oid s0).sec = s0.sec ∧
    (nvQueue oid s0).pwr = s0.pwr ∧
    (nvQueue oid s0).bist = s0.bist ∧
    (nvQueue oid s0).evt = s0.evt ∧
    (nvQueue oid s0).pins = s0.pins ∧
    (nvQueue oid s0).freeIx = s0.freeIx ∧
    (nvQueue oid s0).pending = s0.pending := by
  simp [nvQueue, id @nvDirty_keep, id @nvStart_keep]

theorem nvYield_keep (s : State) :
    (nvYield s).sys = s.sys ∧
    (nvYield s).img = s.img ∧
    (nvYield s).cfg = s.cfg ∧
    (nvYield s).ring = s.ring ∧
    (nvYield s).acq = s.acq ∧
    (nvYield s).cur = s.cur ∧
    (nvYield s).husk = s.husk ∧
    (nvYield s).drv = s.drv ∧
    (nvYield s).krn = s.krn ∧
    (nvYield s).est = s.est ∧
    (nvYield s).win = s.win ∧
    (nvYield s).pairs = s.pairs ∧
    (nvYield s).time = s.time ∧
    (nvYield s).therm = s.therm ∧
    (nvYield s).ledg = s.ledg ∧
    (nvYield s).tally = s.tally ∧
    (nvYield s).recd = s.recd ∧
    (nvYield s).host = s.host ∧
    (nvYield s).sec = s.sec ∧
    (nvYield s).pwr = s.pwr ∧
    (nvYield s).bist = s.bist ∧
    (nvYield s).evt = s.evt ∧
    (nvYield s).pins = s.pins ∧
    (nvYield s).freeIx = s.freeIx ∧
    (nvYield s).pending = s.pending := by
  unfold nvYield
  repeat' split
  all_goals simp

theorem execNvBurstDone_keep {corr : Nat} {s t : State} (h : execNvBurstDone corr s = .next t) :
    t.img = s.img ∧
    t.cfg = s.cfg ∧
    t.acq = s.acq ∧
    t.cur = s.cur ∧
    t.pairs = s.pairs ∧
    t.time = s.time ∧
    t.therm = s.therm ∧
    t.ledg = s.ledg ∧
    t.tally = s.tally ∧
    t.host = s.host ∧
    t.sec = s.sec ∧
    t.bist = s.bist ∧
    t.freeIx = s.freeIx ∧
    t.pending = s.pending ∧
    t.sys.held = s.sys.held ∧
    t.husk.held = s.husk.held ∧
    t.drv.held = s.drv.held ∧
    t.recd.held = s.recd.held ∧
    t.est.held = s.est.held ∧
    t.pwr.held = s.pwr.held ∧
    t.evt.held = s.evt.held ∧
    t.pins.held = s.pins.held := by
  have e := Host.Outcome.next.inj h
  subst e
  dsimp only
  repeat' split
  all_goals simp [id @nvStart_keep, id @nvYield_keep, id @settle_keep]

theorem nvWritten_keep (oid : Nat) (seq : Nat) (body : Option NvBody) (s : State) :
    (nvWritten oid seq body s).sys = s.sys ∧
    (nvWritten oid seq body s).img = s.img ∧
    (nvWritten oid seq body s).cfg = s.cfg ∧
    (nvWritten oid seq body s).ring = s.ring ∧
    (nvWritten oid seq body s).acq = s.acq ∧
    (nvWritten oid seq body s).cur = s.cur ∧
    (nvWritten oid seq body s).husk = s.husk ∧
    (nvWritten oid seq body s).drv = s.drv ∧
    (nvWritten oid seq body s).krn = s.krn ∧
    (nvWritten oid seq body s).est = s.est ∧
    (nvWritten oid seq body s).win = s.win ∧
    (nvWritten oid seq body s).pairs = s.pairs ∧
    (nvWritten oid seq body s).time = s.time ∧
    (nvWritten oid seq body s).therm = s.therm ∧
    (nvWritten oid seq body s).nv = s.nv ∧
    (nvWritten oid seq body s).tally = s.tally ∧
    (nvWritten oid seq body s).host = s.host ∧
    (nvWritten oid seq body s).sec = s.sec ∧
    (nvWritten oid seq body s).pwr = s.pwr ∧
    (nvWritten oid seq body s).bist = s.bist ∧
    (nvWritten oid seq body s).evt = s.evt ∧
    (nvWritten oid seq body s).pins = s.pins ∧
    (nvWritten oid seq body s).freeIx = s.freeIx ∧
    (nvWritten oid seq body s).pending = s.pending := by
  unfold nvWritten
  repeat' split
  all_goals simp

theorem execNvWriteDone_keep  {s t : State} (h : execNvWriteDone s = .next t) :
    t.img = s.img ∧
    t.cfg = s.cfg ∧
    t.acq = s.acq ∧
    t.cur = s.cur ∧
    t.pairs = s.pairs ∧
    t.time = s.time ∧
    t.therm = s.therm ∧
    t.tally = s.tally ∧
    t.host = s.host ∧
    t.sec = s.sec ∧
    t.bist = s.bist ∧
    t.freeIx = s.freeIx ∧
    t.pending = s.pending ∧
    t.sys.held = s.sys.held ∧
    t.husk.held = s.husk.held ∧
    t.drv.held = s.drv.held ∧
    t.est.held = s.est.held ∧
    t.pwr.held = s.pwr.held ∧
    t.evt.held = s.evt.held ∧
    t.pins.held = s.pins.held := by
  have e := Host.Outcome.next.inj h
  subst e
  dsimp only
  repeat' split
  all_goals simp [id @nvQueue_keep, id @nvStart_keep, id @nvWritten_keep, id @setNvObj_keep, id @settle_keep]

theorem nvAgain_keep (oid : Nat) (s : State) :
    (nvAgain oid s).sys = s.sys ∧
    (nvAgain oid s).img = s.img ∧
    (nvAgain oid s).cfg = s.cfg ∧
    (nvAgain oid s).ring = s.ring ∧
    (nvAgain oid s).acq = s.acq ∧
    (nvAgain oid s).cur = s.cur ∧
    (nvAgain oid s).husk = s.husk ∧
    (nvAgain oid s).drv = s.drv ∧
    (nvAgain oid s).krn = s.krn ∧
    (nvAgain oid s).est = s.est ∧
    (nvAgain oid s).pairs = s.pairs ∧
    (nvAgain oid s).time = s.time ∧
    (nvAgain oid s).therm = s.therm ∧
    (nvAgain oid s).ledg = s.ledg ∧
    (nvAgain oid s).tally = s.tally ∧
    (nvAgain oid s).recd = s.recd ∧
    (nvAgain oid s).host = s.host ∧
    (nvAgain oid s).sec = s.sec ∧
    (nvAgain oid s).pwr = s.pwr ∧
    (nvAgain oid s).bist = s.bist ∧
    (nvAgain oid s).evt = s.evt ∧
    (nvAgain oid s).pins = s.pins ∧
    (nvAgain oid s).freeIx = s.freeIx ∧
    (nvAgain oid s).pending = s.pending := by
  simp [nvAgain, id @modWCell_keep, id @nvDirty_keep]

theorem nvAbandon_keep (s : State) :
    (nvAbandon s).sys = s.sys ∧
    (nvAbandon s).img = s.img ∧
    (nvAbandon s).cfg = s.cfg ∧
    (nvAbandon s).ring = s.ring ∧
    (nvAbandon s).acq = s.acq ∧
    (nvAbandon s).cur = s.cur ∧
    (nvAbandon s).husk = s.husk ∧
    (nvAbandon s).drv = s.drv ∧
    (nvAbandon s).krn = s.krn ∧
    (nvAbandon s).est = s.est ∧
    (nvAbandon s).pairs = s.pairs ∧
    (nvAbandon s).time = s.time ∧
    (nvAbandon s).therm = s.therm ∧
    (nvAbandon s).tally = s.tally ∧
    (nvAbandon s).recd = s.recd ∧
    (nvAbandon s).host = s.host ∧
    (nvAbandon s).sec = s.sec ∧
    (nvAbandon s).pwr = s.pwr ∧
    (nvAbandon s).bist = s.bist ∧
    (nvAbandon s).evt = s.evt ∧
    (nvAbandon s).pins = s.pins ∧
    (nvAbandon s).freeIx = s.freeIx ∧
    (nvAbandon s).pending = s.pending := by
  simp [nvAbandon, id @nvAgain_keep]

theorem nvFlush_keep (s : State) :
    (nvFlush s).sys = s.sys ∧
    (nvFlush s).img = s.img ∧
    (nvFlush s).cfg = s.cfg ∧
    (nvFlush s).ring = s.ring ∧
    (nvFlush s).acq = s.acq ∧
    (nvFlush s).cur = s.cur ∧
    (nvFlush s).husk = s.husk ∧
    (nvFlush s).drv = s.drv ∧
    (nvFlush s).est = s.est ∧
    (nvFlush s).pairs = s.pairs ∧
    (nvFlush s).time = s.time ∧
    (nvFlush s).therm = s.therm ∧
    (nvFlush s).tally = s.tally ∧
    (nvFlush s).recd = s.recd ∧
    (nvFlush s).host = s.host ∧
    (nvFlush s).sec = s.sec ∧
    (nvFlush s).pwr = s.pwr ∧
    (nvFlush s).bist = s.bist ∧
    (nvFlush s).evt = s.evt ∧
    (nvFlush s).pins = s.pins ∧
    (nvFlush s).freeIx = s.freeIx ∧
    (nvFlush s).pending = s.pending := by
  simp [nvFlush, id @nvQueue_keep]

theorem execCellRecWrite_keep  {s t : State} (h : execCellRecWrite s = .next t) :
    t.img = s.img ∧
    t.cfg = s.cfg ∧
    t.acq = s.acq ∧
    t.cur = s.cur ∧
    t.pairs = s.pairs ∧
    t.time = s.time ∧
    t.therm = s.therm ∧
    t.ledg = s.ledg ∧
    t.tally = s.tally ∧
    t.host = s.host ∧
    t.sec = s.sec ∧
    t.bist = s.bist ∧
    t.freeIx = s.freeIx ∧
    t.pending = s.pending ∧
    t.sys.held = s.sys.held ∧
    t.husk.held = s.husk.held ∧
    t.drv.held = s.drv.held ∧
    t.recd.held = s.recd.held ∧
    t.est.held = s.est.held ∧
    t.pwr.held = s.pwr.held ∧
    t.evt.held = s.evt.held ∧
    t.pins.held = s.pins.held := by
  have e := Host.Outcome.next.inj h
  subst e
  simp [id @nvQueue_keep, id @settle_keep]

theorem execZtabWrite_keep {c : Nat} {s t : State} (h : execZtabWrite c s = .next t) :
    t.img = s.img ∧
    t.cfg = s.cfg ∧
    t.acq = s.acq ∧
    t.cur = s.cur ∧
    t.pairs = s.pairs ∧
    t.time = s.time ∧
    t.therm = s.therm ∧
    t.ledg = s.ledg ∧
    t.tally = s.tally ∧
    t.host = s.host ∧
    t.sec = s.sec ∧
    t.bist = s.bist ∧
    t.freeIx = s.freeIx ∧
    t.pending = s.pending ∧
    t.sys.held = s.sys.held ∧
    t.husk.held = s.husk.held ∧
    t.drv.held = s.drv.held ∧
    t.recd.held = s.recd.held ∧
    t.est.held = s.est.held ∧
    t.pwr.held = s.pwr.held ∧
    t.evt.held = s.evt.held ∧
    t.pins.held = s.pins.held := by
  have e := Host.Outcome.next.inj h
  subst e
  simp [id @nvQueue_keep, id @settle_keep]

theorem execTallyWrite_keep  {s t : State} (h : execTallyWrite s = .next t) :
    t.img = s.img ∧
    t.cfg = s.cfg ∧
    t.acq = s.acq ∧
    t.cur = s.cur ∧
    t.pairs = s.pairs ∧
    t.time = s.time ∧
    t.therm = s.therm ∧
    t.ledg = s.ledg ∧
    t.tally = s.tally ∧
    t.host = s.host ∧
    t.sec = s.sec ∧
    t.bist = s.bist ∧
    t.freeIx = s.freeIx ∧
    t.pending = s.pending ∧
    t.sys.held = s.sys.held ∧
    t.husk.held = s.husk.held ∧
    t.drv.held = s.drv.held ∧
    t.recd.held = s.recd.held ∧
    t.est.held = s.est.held ∧
    t.pwr.held = s.pwr.held ∧
    t.evt.held = s.evt.held ∧
    t.pins.held = s.pins.held := by
  have e := Host.Outcome.next.inj h
  subst e
  simp [id @nvQueue_keep, id @settle_keep]

theorem tbWrite_keep (s : State) :
    (tbWrite s).sys = s.sys ∧
    (tbWrite s).img = s.img ∧
    (tbWrite s).cfg = s.cfg ∧
    (tbWrite s).ring = s.ring ∧
    (tbWrite s).acq = s.acq ∧
    (tbWrite s).cur = s.cur ∧
    (tbWrite s).husk = s.husk ∧
    (tbWrite s).drv = s.drv ∧
    (tbWrite s).krn = s.krn ∧
    (tbWrite s).est = s.est ∧
    (tbWrite s).win = s.win ∧
    (tbWrite s).pairs = s.pairs ∧
    (tbWrite s).time = s.time ∧
    (tbWrite s).therm = s.therm ∧
    (tbWrite s).ledg = s.ledg ∧
    (tbWrite s).tally = s.tally ∧
    (tbWrite s).recd = s.recd ∧
    (tbWrite s).host = s.host ∧
    (tbWrite s).sec = s.sec ∧
    (tbWrite s).pwr = s.pwr ∧
    (tbWrite s).bist = s.bist ∧
    (tbWrite s).evt = s.evt ∧
    (tbWrite s).pins = s.pins ∧
    (tbWrite s).freeIx = s.freeIx ∧
    (tbWrite s).pending = s.pending := by
  simp [tbWrite]

theorem execTnsSaveWrite_keep  {s t : State} (h : execTnsSaveWrite s = .next t) :
    t.sys = s.sys ∧
    t.img = s.img ∧
    t.cfg = s.cfg ∧
    t.ring = s.ring ∧
    t.acq = s.acq ∧
    t.cur = s.cur ∧
    t.husk = s.husk ∧
    t.drv = s.drv ∧
    t.krn = s.krn ∧
    t.est = s.est ∧
    t.win = s.win ∧
    t.pairs = s.pairs ∧
    t.time = s.time ∧
    t.therm = s.therm ∧
    t.ledg = s.ledg ∧
    t.tally = s.tally ∧
    t.recd = s.recd ∧
    t.host = s.host ∧
    t.sec = s.sec ∧
    t.pwr = s.pwr ∧
    t.bist = s.bist ∧
    t.evt = s.evt ∧
    t.pins = s.pins ∧
    t.freeIx = s.freeIx ∧
    t.pending = s.pending := by
  have e := Host.Outcome.next.inj h
  subst e
  simp [id @tbWrite_keep]

theorem lgWrite_keep (s : State) :
    (lgWrite s).sys = s.sys ∧
    (lgWrite s).img = s.img ∧
    (lgWrite s).cfg = s.cfg ∧
    (lgWrite s).ring = s.ring ∧
    (lgWrite s).acq = s.acq ∧
    (lgWrite s).cur = s.cur ∧
    (lgWrite s).husk = s.husk ∧
    (lgWrite s).drv = s.drv ∧
    (lgWrite s).krn = s.krn ∧
    (lgWrite s).est = s.est ∧
    (lgWrite s).win = s.win ∧
    (lgWrite s).pairs = s.pairs ∧
    (lgWrite s).time = s.time ∧
    (lgWrite s).therm = s.therm ∧
    (lgWrite s).ledg = s.ledg ∧
    (lgWrite s).tally = s.tally ∧
    (lgWrite s).recd = s.recd ∧
    (lgWrite s).host = s.host ∧
    (lgWrite s).sec = s.sec ∧
    (lgWrite s).pwr = s.pwr ∧
    (lgWrite s).bist = s.bist ∧
    (lgWrite s).evt = s.evt ∧
    (lgWrite s).pins = s.pins ∧
    (lgWrite s).freeIx = s.freeIx ∧
    (lgWrite s).pending = s.pending := by
  unfold lgWrite
  repeat' split
  all_goals simp [id @tbWrite_keep]

theorem execLastGaspDone_keep  {s t : State} (h : execLastGaspDone s = .next t) :
    t.sys = s.sys ∧
    t.img = s.img ∧
    t.cfg = s.cfg ∧
    t.ring = s.ring ∧
    t.acq = s.acq ∧
    t.cur = s.cur ∧
    t.husk = s.husk ∧
    t.drv = s.drv ∧
    t.krn = s.krn ∧
    t.est = s.est ∧
    t.win = s.win ∧
    t.pairs = s.pairs ∧
    t.time = s.time ∧
    t.therm = s.therm ∧
    t.ledg = s.ledg ∧
    t.tally = s.tally ∧
    t.recd = s.recd ∧
    t.host = s.host ∧
    t.sec = s.sec ∧
    t.pwr = s.pwr ∧
    t.bist = s.bist ∧
    t.evt = s.evt ∧
    t.pins = s.pins ∧
    t.freeIx = s.freeIx ∧
    t.pending = s.pending := by
  have e := Host.Outcome.next.inj h
  subst e
  simp [id @lgWrite_keep]

theorem lgCut_keep (s : State) :
    (lgCut s).sys = s.sys ∧
    (lgCut s).img = s.img ∧
    (lgCut s).cfg = s.cfg ∧
    (lgCut s).ring = s.ring ∧
    (lgCut s).acq = s.acq ∧
    (lgCut s).cur = s.cur ∧
    (lgCut s).husk = s.husk ∧
    (lgCut s).drv = s.drv ∧
    (lgCut s).krn = s.krn ∧
    (lgCut s).est = s.est ∧
    (lgCut s).win = s.win ∧
    (lgCut s).pairs = s.pairs ∧
    (lgCut s).time = s.time ∧
    (lgCut s).therm = s.therm ∧
    (lgCut s).ledg = s.ledg ∧
    (lgCut s).tally = s.tally ∧
    (lgCut s).recd = s.recd ∧
    (lgCut s).host = s.host ∧
    (lgCut s).sec = s.sec ∧
    (lgCut s).pwr = s.pwr ∧
    (lgCut s).bist = s.bist ∧
    (lgCut s).evt = s.evt ∧
    (lgCut s).pins = s.pins ∧
    (lgCut s).freeIx = s.freeIx ∧
    (lgCut s).pending = s.pending := by
  simp [lgCut]

end Sys2Proof.Machine
end

