-- ==== Sys2Proof/Laws/KeepLedger.lean ====
section
/-! SUPPORT. What the operations of Machine/Ledger.lean leave unchanged. -/

namespace Sys2Proof.Machine

theorem ledgCount_keep (i : Nat) (dis : Nat) (chg : Nat) (s : State) :
    (ledgCount i dis chg s).sys = s.sys ∧
    (ledgCount i dis chg s).img = s.img ∧
    (ledgCount i dis chg s).cfg = s.cfg ∧
    (ledgCount i dis chg s).ring = s.ring ∧
    (ledgCount i dis chg s).acq = s.acq ∧
    (ledgCount i dis chg s).cur = s.cur ∧
    (ledgCount i dis chg s).husk = s.husk ∧
    (ledgCount i dis chg s).drv = s.drv ∧
    (ledgCount i dis chg s).krn = s.krn ∧
    (ledgCount i dis chg s).est = s.est ∧
    (ledgCount i dis chg s).win = s.win ∧
    (ledgCount i dis chg s).pairs = s.pairs ∧
    (ledgCount i dis chg s).time = s.time ∧
    (ledgCount i dis chg s).therm = s.therm ∧
    (ledgCount i dis chg s).nv = s.nv ∧
    (ledgCount i dis chg s).tally = s.tally ∧
    (ledgCount i dis chg s).recd = s.recd ∧
    (ledgCount i dis chg s).host = s.host ∧
    (ledgCount i dis chg s).sec = s.sec ∧
    (ledgCount i dis chg s).pwr = s.pwr ∧
    (ledgCount i dis chg s).bist = s.bist ∧
    (ledgCount i dis chg s).evt = s.evt ∧
    (ledgCount i dis chg s).pins = s.pins ∧
    (ledgCount i dis chg s).freeIx = s.freeIx ∧
    (ledgCount i dis chg s).pending = s.pending := by
  simp [ledgCount]

theorem ledgSample_keep (i : Nat) (cur : Int) (ns : Nat) (old : Bool) (s : State) :
    (ledgSample i cur ns old s).sys = s.sys ∧
    (ledgSample i cur ns old s).img = s.img ∧
    (ledgSample i cur ns old s).cfg = s.cfg ∧
    (ledgSample i cur ns old s).ring = s.ring ∧
    (ledgSample i cur ns old s).acq = s.acq ∧
    (ledgSample i cur ns old s).cur = s.cur ∧
    (ledgSample i cur ns old s).husk = s.husk ∧
    (ledgSample i cur ns old s).drv = s.drv ∧
    (ledgSample i cur ns old s).krn = s.krn ∧
    (ledgSample i cur ns old s).est = s.est ∧
    (ledgSample i cur ns old s).win = s.win ∧
    (ledgSample i cur ns old s).pairs = s.pairs ∧
    (ledgSample i cur ns old s).time = s.time ∧
    (ledgSample i cur ns old s).therm = s.therm ∧
    (ledgSample i cur ns old s).nv = s.nv ∧
    (ledgSample i cur ns old s).tally = s.tally ∧
    (ledgSample i cur ns old s).recd = s.recd ∧
    (ledgSample i cur ns old s).host = s.host ∧
    (ledgSample i cur ns old s).sec = s.sec ∧
    (ledgSample i cur ns old s).pwr = s.pwr ∧
    (ledgSample i cur ns old s).bist = s.bist ∧
    (ledgSample i cur ns old s).evt = s.evt ∧
    (ledgSample i cur ns old s).pins = s.pins ∧
    (ledgSample i cur ns old s).freeIx = s.freeIx ∧
    (ledgSample i cur ns old s).pending = s.pending := by
  simp [ledgSample, id @ledgCount_keep]

theorem ledgFrame_keep (s : State) :
    (ledgFrame s).sys = s.sys ∧
    (ledgFrame s).img = s.img ∧
    (ledgFrame s).cfg = s.cfg ∧
    (ledgFrame s).ring = s.ring ∧
    (ledgFrame s).acq = s.acq ∧
    (ledgFrame s).cur = s.cur ∧
    (ledgFrame s).husk = s.husk ∧
    (ledgFrame s).drv = s.drv ∧
    (ledgFrame s).krn = s.krn ∧
    (ledgFrame s).est = s.est ∧
    (ledgFrame s).win = s.win ∧
    (ledgFrame s).pairs = s.pairs ∧
    (ledgFrame s).time = s.time ∧
    (ledgFrame s).therm = s.therm ∧
    (ledgFrame s).nv = s.nv ∧
    (ledgFrame s).tally = s.tally ∧
    (ledgFrame s).recd = s.recd ∧
    (ledgFrame s).host = s.host ∧
    (ledgFrame s).sec = s.sec ∧
    (ledgFrame s).pwr = s.pwr ∧
    (ledgFrame s).bist = s.bist ∧
    (ledgFrame s).evt = s.evt ∧
    (ledgFrame s).pins = s.pins ∧
    (ledgFrame s).freeIx = s.freeIx ∧
    (ledgFrame s).pending = s.pending := by
  simp [ledgFrame, id @ledgCount_keep]

theorem ledgVsum_keep (s : State) :
    (ledgVsum s).sys = s.sys ∧
    (ledgVsum s).img = s.img ∧
    (ledgVsum s).cfg = s.cfg ∧
    (ledgVsum s).ring = s.ring ∧
    (ledgVsum s).acq = s.acq ∧
    (ledgVsum s).cur = s.cur ∧
    (ledgVsum s).husk = s.husk ∧
    (ledgVsum s).drv = s.drv ∧
    (ledgVsum s).krn = s.krn ∧
    (ledgVsum s).est = s.est ∧
    (ledgVsum s).win = s.win ∧
    (ledgVsum s).pairs = s.pairs ∧
    (ledgVsum s).time = s.time ∧
    (ledgVsum s).therm = s.therm ∧
    (ledgVsum s).nv = s.nv ∧
    (ledgVsum s).tally = s.tally ∧
    (ledgVsum s).recd = s.recd ∧
    (ledgVsum s).host = s.host ∧
    (ledgVsum s).sec = s.sec ∧
    (ledgVsum s).pwr = s.pwr ∧
    (ledgVsum s).bist = s.bist ∧
    (ledgVsum s).evt = s.evt ∧
    (ledgVsum s).pins = s.pins ∧
    (ledgVsum s).freeIx = s.freeIx ∧
    (ledgVsum s).pending = s.pending := by
  simp [ledgVsum]

theorem ledgGap_keep (s : State) :
    (ledgGap s).sys = s.sys ∧
    (ledgGap s).img = s.img ∧
    (ledgGap s).cfg = s.cfg ∧
    (ledgGap s).ring = s.ring ∧
    (ledgGap s).acq = s.acq ∧
    (ledgGap s).cur = s.cur ∧
    (ledgGap s).husk = s.husk ∧
    (ledgGap s).drv = s.drv ∧
    (ledgGap s).krn = s.krn ∧
    (ledgGap s).est = s.est ∧
    (ledgGap s).win = s.win ∧
    (ledgGap s).pairs = s.pairs ∧
    (ledgGap s).time = s.time ∧
    (ledgGap s).therm = s.therm ∧
    (ledgGap s).nv = s.nv ∧
    (ledgGap s).tally = s.tally ∧
    (ledgGap s).recd = s.recd ∧
    (ledgGap s).host = s.host ∧
    (ledgGap s).sec = s.sec ∧
    (ledgGap s).pwr = s.pwr ∧
    (ledgGap s).bist = s.bist ∧
    (ledgGap s).evt = s.evt ∧
    (ledgGap s).pins = s.pins ∧
    (ledgGap s).freeIx = s.freeIx ∧
    (ledgGap s).pending = s.pending := by
  simp [ledgGap]

theorem tnsTo_keep (t : Nat) (s : State) :
    (tnsTo t s).sys = s.sys ∧
    (tnsTo t s).img = s.img ∧
    (tnsTo t s).cfg = s.cfg ∧
    (tnsTo t s).ring = s.ring ∧
    (tnsTo t s).acq = s.acq ∧
    (tnsTo t s).cur = s.cur ∧
    (tnsTo t s).husk = s.husk ∧
    (tnsTo t s).drv = s.drv ∧
    (tnsTo t s).krn = s.krn ∧
    (tnsTo t s).est = s.est ∧
    (tnsTo t s).win = s.win ∧
    (tnsTo t s).pairs = s.pairs ∧
    (tnsTo t s).therm = s.therm ∧
    (tnsTo t s).nv = s.nv ∧
    (tnsTo t s).tally = s.tally ∧
    (tnsTo t s).recd = s.recd ∧
    (tnsTo t s).host = s.host ∧
    (tnsTo t s).sec = s.sec ∧
    (tnsTo t s).pwr = s.pwr ∧
    (tnsTo t s).bist = s.bist ∧
    (tnsTo t s).evt = s.evt ∧
    (tnsTo t s).pins = s.pins ∧
    (tnsTo t s).freeIx = s.freeIx ∧
    (tnsTo t s).pending = s.pending := by
  simp [tnsTo, id @ledgGap_keep]

theorem checkpoint_keep (s : State) :
    (checkpoint s).sys = s.sys ∧
    (checkpoint s).img = s.img ∧
    (checkpoint s).cfg = s.cfg ∧
    (checkpoint s).ring = s.ring ∧
    (checkpoint s).acq = s.acq ∧
    (checkpoint s).cur = s.cur ∧
    (checkpoint s).husk = s.husk ∧
    (checkpoint s).drv = s.drv ∧
    (checkpoint s).est = s.est ∧
    (checkpoint s).pairs = s.pairs ∧
    (checkpoint s).time = s.time ∧
    (checkpoint s).therm = s.therm ∧
    (checkpoint s).tally = s.tally ∧
    (checkpoint s).recd = s.recd ∧
    (checkpoint s).host = s.host ∧
    (checkpoint s).sec = s.sec ∧
    (checkpoint s).pwr = s.pwr ∧
    (checkpoint s).bist = s.bist ∧
    (checkpoint s).evt = s.evt ∧
    (checkpoint s).pins = s.pins ∧
    (checkpoint s).freeIx = s.freeIx ∧
    (checkpoint s).pending = s.pending := by
  simp [checkpoint, id @nvQueue_keep]

theorem execLedgerCheckpoint_keep  {s t : State} (h : execLedgerCheckpoint s = .next t) :
    t.img = s.img ∧
    t.cfg = s.cfg ∧
    t.acq = s.acq ∧
    t.cur = s.cur ∧
    t.pairs = s.pairs ∧
    t.time = s.time ∧
    t.therm = s.therm ∧
    t.tally = s.tally ∧
    t.host = s.host ∧
    t.sec = s.sec ∧
    t.bist = s.bist ∧
    t.freeIx = s.freeIx ∧
    t.pending = s.pending ∧
    t.sys.held = s.sys.held ∧
    t.husk.held = s.husk.held ∧
    t.drv.held = s.drv.held ∧
    t.recd.held = s.recd.held ∧
    t.est.held = s.est.held ∧
    t.pwr.held = s.pwr.held ∧
    t.evt.held = s.evt.held ∧
    t.pins.held = s.pins.held := by
  have e := Host.Outcome.next.inj h
  subst e
  simp [id @checkpoint_keep, id @settle_keep]

theorem pairWrite_keep (i : Nat) (block : List Byte) (rp : Nat × Nat) (s : State) :
    (pairWrite i block rp s).sys = s.sys ∧
    (pairWrite i block rp s).img = s.img ∧
    (pairWrite i block rp s).cfg = s.cfg ∧
    (pairWrite i block rp s).acq = s.acq ∧
    (pairWrite i block rp s).cur = s.cur ∧
    (pairWrite i block rp s).husk = s.husk ∧
    (pairWrite i block rp s).drv = s.drv ∧
    (pairWrite i block rp s).krn = s.krn ∧
    (pairWrite i block rp s).est = s.est ∧
    (pairWrite i block rp s).win = s.win ∧
    (pairWrite i block rp s).pairs = s.pairs ∧
    (pairWrite i block rp s).time = s.time ∧
    (pairWrite i block rp s).therm = s.therm ∧
    (pairWrite i block rp s).nv = s.nv ∧
    (pairWrite i block rp s).ledg = s.ledg ∧
    (pairWrite i block rp s).tally = s.tally ∧
    (pairWrite i block rp s).recd = s.recd ∧
    (pairWrite i block rp s).host = s.host ∧
    (pairWrite i block rp s).sec = s.sec ∧
    (pairWrite i block rp s).pwr = s.pwr ∧
    (pairWrite i block rp s).bist = s.bist ∧
    (pairWrite i block rp s).evt = s.evt ∧
    (pairWrite i block rp s).pins = s.pins ∧
    (pairWrite i block rp s).freeIx = s.freeIx ∧
    (pairWrite i block rp s).pending = s.pending := by
  simp [pairWrite, id @mgmtPush_keep, id @modNode_keep]

theorem podAsk_keep (m : BitVec 4) (s : State) :
    (podAsk m s).sys = s.sys ∧
    (podAsk m s).img = s.img ∧
    (podAsk m s).cfg = s.cfg ∧
    (podAsk m s).ring = s.ring ∧
    (podAsk m s).acq = s.acq ∧
    (podAsk m s).cur = s.cur ∧
    (podAsk m s).husk = s.husk ∧
    (podAsk m s).drv = s.drv ∧
    (podAsk m s).est = s.est ∧
    (podAsk m s).pairs = s.pairs ∧
    (podAsk m s).time = s.time ∧
    (podAsk m s).therm = s.therm ∧
    (podAsk m s).tally = s.tally ∧
    (podAsk m s).recd = s.recd ∧
    (podAsk m s).host = s.host ∧
    (podAsk m s).sec = s.sec ∧
    (podAsk m s).pwr = s.pwr ∧
    (podAsk m s).bist = s.bist ∧
    (podAsk m s).evt = s.evt ∧
    (podAsk m s).pins = s.pins ∧
    (podAsk m s).freeIx = s.freeIx ∧
    (podAsk m s).pending = s.pending := by
  simp [podAsk, id @checkpoint_keep]

theorem adoptDone_keep (i : Nat) (s : State) :
    (adoptDone i s).sys = s.sys ∧
    (adoptDone i s).img = s.img ∧
    (adoptDone i s).cfg = s.cfg ∧
    (adoptDone i s).ring = s.ring ∧
    (adoptDone i s).acq = s.acq ∧
    (adoptDone i s).cur = s.cur ∧
    (adoptDone i s).husk = s.husk ∧
    (adoptDone i s).drv = s.drv ∧
    (adoptDone i s).krn = s.krn ∧
    (adoptDone i s).est = s.est ∧
    (adoptDone i s).win = s.win ∧
    (adoptDone i s).pairs = s.pairs ∧
    (adoptDone i s).time = s.time ∧
    (adoptDone i s).therm = s.therm ∧
    (adoptDone i s).nv = s.nv ∧
    (adoptDone i s).tally = s.tally ∧
    (adoptDone i s).host = s.host ∧
    (adoptDone i s).pwr = s.pwr ∧
    (adoptDone i s).bist = s.bist ∧
    (adoptDone i s).pins = s.pins ∧
    (adoptDone i s).freeIx = s.freeIx ∧
    (adoptDone i s).pending = s.pending ∧
    (adoptDone i s).sec.mid = s.sec.mid ∧
    (adoptDone i s).sec.devKey = s.sec.devKey ∧
    (adoptDone i s).recd.held = s.recd.held ∧
    (adoptDone i s).evt.held = s.evt.held := by
  unfold adoptDone
  repeat' split
  all_goals simp [id @emit_keep]

theorem podUnconfirmed_keep (i : Nat) (s : State) :
    (podUnconfirmed i s).sys = s.sys ∧
    (podUnconfirmed i s).img = s.img ∧
    (podUnconfirmed i s).cfg = s.cfg ∧
    (podUnconfirmed i s).ring = s.ring ∧
    (podUnconfirmed i s).acq = s.acq ∧
    (podUnconfirmed i s).cur = s.cur ∧
    (podUnconfirmed i s).husk = s.husk ∧
    (podUnconfirmed i s).drv = s.drv ∧
    (podUnconfirmed i s).krn = s.krn ∧
    (podUnconfirmed i s).est = s.est ∧
    (podUnconfirmed i s).win = s.win ∧
    (podUnconfirmed i s).pairs = s.pairs ∧
    (podUnconfirmed i s).time = s.time ∧
    (podUnconfirmed i s).therm = s.therm ∧
    (podUnconfirmed i s).nv = s.nv ∧
    (podUnconfirmed i s).tally = s.tally ∧
    (podUnconfirmed i s).recd = s.recd ∧
    (podUnconfirmed i s).host = s.host ∧
    (podUnconfirmed i s).pwr = s.pwr ∧
    (podUnconfirmed i s).bist = s.bist ∧
    (podUnconfirmed i s).evt = s.evt ∧
    (podUnconfirmed i s).pins = s.pins ∧
    (podUnconfirmed i s).freeIx = s.freeIx ∧
    (podUnconfirmed i s).pending = s.pending ∧
    (podUnconfirmed i s).sec.mid = s.sec.mid ∧
    (podUnconfirmed i s).sec.devKey = s.sec.devKey := by
  unfold podUnconfirmed
  repeat' split
  all_goals simp

theorem execPodCheckpoint_keep {i : Nat} {s t : State} (h : execPodCheckpoint i s = .next t) :
    t.img = s.img ∧
    t.cfg = s.cfg ∧
    t.acq = s.acq ∧
    t.cur = s.cur ∧
    t.pairs = s.pairs ∧
    t.time = s.time ∧
    t.therm = s.therm ∧
    t.tally = s.tally ∧
    t.host = s.host ∧
    t.sec = s.sec ∧
    t.bist = s.bist ∧
    t.freeIx = s.freeIx ∧
    t.pending = s.pending ∧
    t.sys.held = s.sys.held ∧
    t.husk.held = s.husk.held ∧
    t.drv.held = s.drv.held ∧
    t.recd.held = s.recd.held ∧
    t.est.held = s.est.held ∧
    t.pwr.held = s.pwr.held ∧
    t.evt.held = s.evt.held ∧
    t.pins.held = s.pins.held := by
  have e := Host.Outcome.next.inj h
  subst e
  simp [id @pairWrite_keep, id @podAsk_keep, id @settle_keep]

theorem execPodCheckpointConfirmed_keep {i : Nat} {s t : State} (h : execPodCheckpointConfirmed i s = .next t) :
    t.img = s.img ∧
    t.cfg = s.cfg ∧
    t.acq = s.acq ∧
    t.krn = s.krn ∧
    t.win = s.win ∧
    t.pairs = s.pairs ∧
    t.time = s.time ∧
    t.therm = s.therm ∧
    t.nv = s.nv ∧
    t.tally = s.tally ∧
    t.host = s.host ∧
    t.bist = s.bist ∧
    t.freeIx = s.freeIx ∧
    t.pending = s.pending ∧
    t.sec.mid = s.sec.mid ∧
    t.sec.devKey = s.sec.devKey ∧
    t.sys.held = s.sys.held ∧
    t.husk.held = s.husk.held ∧
    t.drv.held = s.drv.held ∧
    t.recd.held = s.recd.held ∧
    t.est.held = s.est.held ∧
    t.pwr.held = s.pwr.held ∧
    t.evt.held = s.evt.held ∧
    t.pins.held = s.pins.held := by
  have e := Host.Outcome.next.inj h
  subst e
  dsimp only
  repeat' split
  all_goals simp [id @adoptDone_keep, id @settle_keep]

theorem eraAdvance_keep (s : State) :
    (eraAdvance s).sys = s.sys ∧
    (eraAdvance s).img = s.img ∧
    (eraAdvance s).cfg = s.cfg ∧
    (eraAdvance s).ring = s.ring ∧
    (eraAdvance s).acq = s.acq ∧
    (eraAdvance s).cur = s.cur ∧
    (eraAdvance s).husk = s.husk ∧
    (eraAdvance s).drv = s.drv ∧
    (eraAdvance s).est = s.est ∧
    (eraAdvance s).pairs = s.pairs ∧
    (eraAdvance s).time = s.time ∧
    (eraAdvance s).therm = s.therm ∧
    (eraAdvance s).tally = s.tally ∧
    (eraAdvance s).recd = s.recd ∧
    (eraAdvance s).host = s.host ∧
    (eraAdvance s).sec = s.sec ∧
    (eraAdvance s).pwr = s.pwr ∧
    (eraAdvance s).bist = s.bist ∧
    (eraAdvance s).evt = s.evt ∧
    (eraAdvance s).pins = s.pins ∧
    (eraAdvance s).freeIx = s.freeIx ∧
    (eraAdvance s).pending = s.pending := by
  simp [eraAdvance, id @podAsk_keep]

theorem eraForce_keep (s : State) :
    (eraForce s).sys = s.sys ∧
    (eraForce s).img = s.img ∧
    (eraForce s).cfg = s.cfg ∧
    (eraForce s).ring = s.ring ∧
    (eraForce s).acq = s.acq ∧
    (eraForce s).cur = s.cur ∧
    (eraForce s).husk = s.husk ∧
    (eraForce s).drv = s.drv ∧
    (eraForce s).est = s.est ∧
    (eraForce s).pairs = s.pairs ∧
    (eraForce s).time = s.time ∧
    (eraForce s).therm = s.therm ∧
    (eraForce s).tally = s.tally ∧
    (eraForce s).host = s.host ∧
    (eraForce s).sec = s.sec ∧
    (eraForce s).pwr = s.pwr ∧
    (eraForce s).bist = s.bist ∧
    (eraForce s).pins = s.pins ∧
    (eraForce s).freeIx = s.freeIx ∧
    (eraForce s).pending = s.pending ∧
    (eraForce s).recd.held = s.recd.held ∧
    (eraForce s).evt.held = s.evt.held := by
  unfold eraForce
  repeat' split
  all_goals simp [id @emit_keep, id @eraAdvance_keep]

theorem stmtStart_keep (s : State) :
    (stmtStart s).sys = s.sys ∧
    (stmtStart s).img = s.img ∧
    (stmtStart s).cfg = s.cfg ∧
    (stmtStart s).ring = s.ring ∧
    (stmtStart s).acq = s.acq ∧
    (stmtStart s).cur = s.cur ∧
    (stmtStart s).husk = s.husk ∧
    (stmtStart s).drv = s.drv ∧
    (stmtStart s).est = s.est ∧
    (stmtStart s).pairs = s.pairs ∧
    (stmtStart s).time = s.time ∧
    (stmtStart s).therm = s.therm ∧
    (stmtStart s).tally = s.tally ∧
    (stmtStart s).recd = s.recd ∧
    (stmtStart s).host = s.host ∧
    (stmtStart s).sec = s.sec ∧
    (stmtStart s).pwr = s.pwr ∧
    (stmtStart s).bist = s.bist ∧
    (stmtStart s).evt = s.evt ∧
    (stmtStart s).pins = s.pins ∧
    (stmtStart s).freeIx = s.freeIx ∧
    (stmtStart s).pending = s.pending := by
  simp [stmtStart, id @checkpoint_keep]

theorem execStatementReady_keep  {s t : State} (h : execStatementReady s = .next t) :
    t.sys = s.sys ∧
    t.img = s.img ∧
    t.cfg = s.cfg ∧
    t.ring = s.ring ∧
    t.acq = s.acq ∧
    t.cur = s.cur ∧
    t.husk = s.husk ∧
    t.drv = s.drv ∧
    t.krn = s.krn ∧
    t.est = s.est ∧
    t.win = s.win ∧
    t.pairs = s.pairs ∧
    t.time = s.time ∧
    t.therm = s.therm ∧
    t.nv = s.nv ∧
    t.tally = s.tally ∧
    t.recd = s.recd ∧
    t.host = s.host ∧
    t.sec = s.sec ∧
    t.pwr = s.pwr ∧
    t.bist = s.bist ∧
    t.evt = s.evt ∧
    t.pins = s.pins ∧
    t.freeIx = s.freeIx ∧
    t.pending = s.pending := by
  have e := Host.Outcome.next.inj h
  subst e
  dsimp only
  repeat' split
  all_goals simp

theorem nonceWritten_keep (s : State) :
    (nonceWritten s).sys = s.sys ∧
    (nonceWritten s).img = s.img ∧
    (nonceWritten s).cfg = s.cfg ∧
    (nonceWritten s).ring = s.ring ∧
    (nonceWritten s).acq = s.acq ∧
    (nonceWritten s).cur = s.cur ∧
    (nonceWritten s).husk = s.husk ∧
    (nonceWritten s).drv = s.drv ∧
    (nonceWritten s).krn = s.krn ∧
    (nonceWritten s).est = s.est ∧
    (nonceWritten s).win = s.win ∧
    (nonceWritten s).pairs = s.pairs ∧
    (nonceWritten s).time = s.time ∧
    (nonceWritten s).therm = s.therm ∧
    (nonceWritten s).nv = s.nv ∧
    (nonceWritten s).tally = s.tally ∧
    (nonceWritten s).recd = s.recd ∧
    (nonceWritten s).host = s.host ∧
    (nonceWritten s).sec = s.sec ∧
    (nonceWritten s).pwr = s.pwr ∧
    (nonceWritten s).bist = s.bist ∧
    (nonceWritten s).evt = s.evt ∧
    (nonceWritten s).pins = s.pins ∧
    (nonceWritten s).freeIx = s.freeIx ∧
    (nonceWritten s).pending = s.pending := by
  simp [nonceWritten]

theorem ledgStart_keep (s : State) :
    (ledgStart s).sys = s.sys ∧
    (ledgStart s).img = s.img ∧
    (ledgStart s).cfg = s.cfg ∧
    (ledgStart s).ring = s.ring ∧
    (ledgStart s).acq = s.acq ∧
    (ledgStart s).cur = s.cur ∧
    (ledgStart s).husk = s.husk ∧
    (ledgStart s).drv = s.drv ∧
    (ledgStart s).est = s.est ∧
    (ledgStart s).pairs = s.pairs ∧
    (ledgStart s).time = s.time ∧
    (ledgStart s).therm = s.therm ∧
    (ledgStart s).tally = s.tally ∧
    (ledgStart s).host = s.host ∧
    (ledgStart s).sec = s.sec ∧
    (ledgStart s).pwr = s.pwr ∧
    (ledgStart s).bist = s.bist ∧
    (ledgStart s).pins = s.pins ∧
    (ledgStart s).freeIx = s.freeIx ∧
    (ledgStart s).pending = s.pending ∧
    (ledgStart s).recd.held = s.recd.held := by
  unfold ledgStart
  repeat' split
  all_goals simp [id @checkpoint_keep, id @emit_keep]

end Sys2Proof.Machine
end

