-- ==== Sys2Proof/Laws/KeepTally.lean ====
section
/-! SUPPORT. What the operations of Machine/Tally.lean leave unchanged. -/

namespace Sys2Proof.Machine

theorem tallyCell_keep (dt : Nat) (c : Nat) (s : State) :
    (tallyCell dt c s).sys = s.sys ∧
    (tallyCell dt c s).img = s.img ∧
    (tallyCell dt c s).cfg = s.cfg ∧
    (tallyCell dt c s).ring = s.ring ∧
    (tallyCell dt c s).acq = s.acq ∧
    (tallyCell dt c s).cur = s.cur ∧
    (tallyCell dt c s).husk = s.husk ∧
    (tallyCell dt c s).drv = s.drv ∧
    (tallyCell dt c s).krn = s.krn ∧
    (tallyCell dt c s).est = s.est ∧
    (tallyCell dt c s).win = s.win ∧
    (tallyCell dt c s).pairs = s.pairs ∧
    (tallyCell dt c s).time = s.time ∧
    (tallyCell dt c s).therm = s.therm ∧
    (tallyCell dt c s).nv = s.nv ∧
    (tallyCell dt c s).ledg = s.ledg ∧
    (tallyCell dt c s).recd = s.recd ∧
    (tallyCell dt c s).host = s.host ∧
    (tallyCell dt c s).sec = s.sec ∧
    (tallyCell dt c s).pwr = s.pwr ∧
    (tallyCell dt c s).bist = s.bist ∧
    (tallyCell dt c s).evt = s.evt ∧
    (tallyCell dt c s).pins = s.pins ∧
    (tallyCell dt c s).freeIx = s.freeIx ∧
    (tallyCell dt c s).pending = s.pending := by
  simp [tallyCell, id @modTCell_keep]

theorem tallyUpdate_keep (s : State) :
    (tallyUpdate s).sys = s.sys ∧
    (tallyUpdate s).img = s.img ∧
    (tallyUpdate s).cfg = s.cfg ∧
    (tallyUpdate s).ring = s.ring ∧
    (tallyUpdate s).acq = s.acq ∧
    (tallyUpdate s).cur = s.cur ∧
    (tallyUpdate s).husk = s.husk ∧
    (tallyUpdate s).drv = s.drv ∧
    (tallyUpdate s).krn = s.krn ∧
    (tallyUpdate s).est = s.est ∧
    (tallyUpdate s).win = s.win ∧
    (tallyUpdate s).pairs = s.pairs ∧
    (tallyUpdate s).time = s.time ∧
    (tallyUpdate s).therm = s.therm ∧
    (tallyUpdate s).nv = s.nv ∧
    (tallyUpdate s).ledg = s.ledg ∧
    (tallyUpdate s).recd = s.recd ∧
    (tallyUpdate s).host = s.host ∧
    (tallyUpdate s).sec = s.sec ∧
    (tallyUpdate s).pwr = s.pwr ∧
    (tallyUpdate s).bist = s.bist ∧
    (tallyUpdate s).evt = s.evt ∧
    (tallyUpdate s).pins = s.pins ∧
    (tallyUpdate s).freeIx = s.freeIx ∧
    (tallyUpdate s).pending = s.pending := by
  simp [tallyUpdate, id @modTCell_keep, id @tallyCell_keep]

theorem execRainflowFlush_keep  {s t : State} (h : execRainflowFlush s = .next t) :
    t.sys = s.sys ∧
    t.img = s.img ∧
    t.cfg = s.cfg ∧
    t.ring = s.ring ∧
    t.acq = s.acq ∧
    t.cur = s.cur ∧
    t.husk = s.husk ∧
    t.drv = s.drv ∧
    t.krn = s.krn ∧
    t.est = s.est ∧
    t.win = s.win ∧
    t.pairs = s.pairs ∧
    t.time = s.time ∧
    t.therm = s.therm ∧
    t.ledg = s.ledg ∧
    t.recd = s.recd ∧
    t.host = s.host ∧
    t.sec = s.sec ∧
    t.pwr = s.pwr ∧
    t.bist = s.bist ∧
    t.evt = s.evt ∧
    t.pins = s.pins ∧
    t.freeIx = s.freeIx ∧
    t.pending = s.pending := by
  have e := Host.Outcome.next.inj h
  subst e
  simp [id @modTCell_keep, id @nvDirty_keep]

theorem execDwellFlush_keep  {s t : State} (h : execDwellFlush s = .next t) :
    t.sys = s.sys ∧
    t.img = s.img ∧
    t.cfg = s.cfg ∧
    t.ring = s.ring ∧
    t.acq = s.acq ∧
    t.cur = s.cur ∧
    t.husk = s.husk ∧
    t.drv = s.drv ∧
    t.krn = s.krn ∧
    t.est = s.est ∧
    t.win = s.win ∧
    t.pairs = s.pairs ∧
    t.time = s.time ∧
    t.therm = s.therm ∧
    t.ledg = s.ledg ∧
    t.recd = s.recd ∧
    t.host = s.host ∧
    t.sec = s.sec ∧
    t.pwr = s.pwr ∧
    t.bist = s.bist ∧
    t.evt = s.evt ∧
    t.pins = s.pins ∧
    t.freeIx = s.freeIx ∧
    t.pending = s.pending := by
  have e := Host.Outcome.next.inj h
  subst e
  simp [id @modTCell_keep, id @nvDirty_keep]

end Sys2Proof.Machine
end

