-- ==== Sys2Proof/Laws/KeepCur.lean ====
section
/-! SUPPORT. What the operations of Machine/Cur.lean leave unchanged. -/

namespace Sys2Proof.Machine

theorem setThr_keep (n : Nat) (lo : Bool) (req : Int) (s : State) :
    (setThr n lo req s).sys = s.sys ∧
    (setThr n lo req s).img = s.img ∧
    (setThr n lo req s).cfg = s.cfg ∧
    (setThr n lo req s).ring = s.ring ∧
    (setThr n lo req s).acq = s.acq ∧
    (setThr n lo req s).husk = s.husk ∧
    (setThr n lo req s).drv = s.drv ∧
    (setThr n lo req s).krn = s.krn ∧
    (setThr n lo req s).est = s.est ∧
    (setThr n lo req s).win = s.win ∧
    (setThr n lo req s).pairs = s.pairs ∧
    (setThr n lo req s).time = s.time ∧
    (setThr n lo req s).therm = s.therm ∧
    (setThr n lo req s).nv = s.nv ∧
    (setThr n lo req s).ledg = s.ledg ∧
    (setThr n lo req s).tally = s.tally ∧
    (setThr n lo req s).host = s.host ∧
    (setThr n lo req s).sec = s.sec ∧
    (setThr n lo req s).pwr = s.pwr ∧
    (setThr n lo req s).bist = s.bist ∧
    (setThr n lo req s).pins = s.pins ∧
    (setThr n lo req s).freeIx = s.freeIx ∧
    (setThr n lo req s).pending = s.pending ∧
    (setThr n lo req s).recd.held = s.recd.held ∧
    (setThr n lo req s).evt.held = s.evt.held := by
  simp [setThr, id @emitIf_keep, id @modCh_keep]

theorem setThresholds_keep (n : Nat) (s : State) :
    (setThresholds n s).sys = s.sys ∧
    (setThresholds n s).img = s.img ∧
    (setThresholds n s).cfg = s.cfg ∧
    (setThresholds n s).ring = s.ring ∧
    (setThresholds n s).acq = s.acq ∧
    (setThresholds n s).husk = s.husk ∧
    (setThresholds n s).drv = s.drv ∧
    (setThresholds n s).krn = s.krn ∧
    (setThresholds n s).est = s.est ∧
    (setThresholds n s).win = s.win ∧
    (setThresholds n s).pairs = s.pairs ∧
    (setThresholds n s).time = s.time ∧
    (setThresholds n s).therm = s.therm ∧
    (setThresholds n s).nv = s.nv ∧
    (setThresholds n s).ledg = s.ledg ∧
    (setThresholds n s).tally = s.tally ∧
    (setThresholds n s).host = s.host ∧
    (setThresholds n s).sec = s.sec ∧
    (setThresholds n s).pwr = s.pwr ∧
    (setThresholds n s).bist = s.bist ∧
    (setThresholds n s).pins = s.pins ∧
    (setThresholds n s).freeIx = s.freeIx ∧
    (setThresholds n s).pending = s.pending ∧
    (setThresholds n s).recd.held = s.recd.held ∧
    (setThresholds n s).evt.held = s.evt.held := by
  unfold setThresholds
  repeat' split
  all_goals simp [id @setThr_keep]

theorem allThresholds_keep (s : State) :
    (allThresholds s).sys = s.sys ∧
    (allThresholds s).img = s.img ∧
    (allThresholds s).cfg = s.cfg ∧
    (allThresholds s).ring = s.ring ∧
    (allThresholds s).acq = s.acq ∧
    (allThresholds s).husk = s.husk ∧
    (allThresholds s).drv = s.drv ∧
    (allThresholds s).krn = s.krn ∧
    (allThresholds s).est = s.est ∧
    (allThresholds s).win = s.win ∧
    (allThresholds s).pairs = s.pairs ∧
    (allThresholds s).time = s.time ∧
    (allThresholds s).therm = s.therm ∧
    (allThresholds s).nv = s.nv ∧
    (allThresholds s).ledg = s.ledg ∧
    (allThresholds s).tally = s.tally ∧
    (allThresholds s).host = s.host ∧
    (allThresholds s).sec = s.sec ∧
    (allThresholds s).pwr = s.pwr ∧
    (allThresholds s).bist = s.bist ∧
    (allThresholds s).pins = s.pins ∧
    (allThresholds s).freeIx = s.freeIx ∧
    (allThresholds s).pending = s.pending ∧
    (allThresholds s).recd.held = s.recd.held ∧
    (allThresholds s).evt.held = s.evt.held := by
  simp [allThresholds, id @setThresholds_keep]

theorem chRefit_keep (n : Nat) (s : State) :
    (chRefit n s).sys = s.sys ∧
    (chRefit n s).img = s.img ∧
    (chRefit n s).cfg = s.cfg ∧
    (chRefit n s).ring = s.ring ∧
    (chRefit n s).acq = s.acq ∧
    (chRefit n s).husk = s.husk ∧
    (chRefit n s).drv = s.drv ∧
    (chRefit n s).krn = s.krn ∧
    (chRefit n s).est = s.est ∧
    (chRefit n s).win = s.win ∧
    (chRefit n s).pairs = s.pairs ∧
    (chRefit n s).time = s.time ∧
    (chRefit n s).therm = s.therm ∧
    (chRefit n s).nv = s.nv ∧
    (chRefit n s).ledg = s.ledg ∧
    (chRefit n s).tally = s.tally ∧
    (chRefit n s).recd = s.recd ∧
    (chRefit n s).host = s.host ∧
    (chRefit n s).sec = s.sec ∧
    (chRefit n s).pwr = s.pwr ∧
    (chRefit n s).bist = s.bist ∧
    (chRefit n s).evt = s.evt ∧
    (chRefit n s).pins = s.pins ∧
    (chRefit n s).freeIx = s.freeIx ∧
    (chRefit n s).pending = s.pending := by
  simp [chRefit, id @modCh_keep]

theorem allRefit_keep (s : State) :
    (allRefit s).sys = s.sys ∧
    (allRefit s).img = s.img ∧
    (allRefit s).cfg = s.cfg ∧
    (allRefit s).ring = s.ring ∧
    (allRefit s).acq = s.acq ∧
    (allRefit s).husk = s.husk ∧
    (allRefit s).drv = s.drv ∧
    (allRefit s).krn = s.krn ∧
    (allRefit s).est = s.est ∧
    (allRefit s).win = s.win ∧
    (allRefit s).pairs = s.pairs ∧
    (allRefit s).time = s.time ∧
    (allRefit s).therm = s.therm ∧
    (allRefit s).nv = s.nv ∧
    (allRefit s).ledg = s.ledg ∧
    (allRefit s).tally = s.tally ∧
    (allRefit s).recd = s.recd ∧
    (allRefit s).host = s.host ∧
    (allRefit s).sec = s.sec ∧
    (allRefit s).pwr = s.pwr ∧
    (allRefit s).bist = s.bist ∧
    (allRefit s).evt = s.evt ∧
    (allRefit s).pins = s.pins ∧
    (allRefit s).freeIx = s.freeIx ∧
    (allRefit s).pending = s.pending := by
  simp [allRefit, id @chRefit_keep]

theorem selectAway_keep (i : Nat) (s : State) :
    (selectAway i s).sys = s.sys ∧
    (selectAway i s).img = s.img ∧
    (selectAway i s).cfg = s.cfg ∧
    (selectAway i s).ring = s.ring ∧
    (selectAway i s).acq = s.acq ∧
    (selectAway i s).husk = s.husk ∧
    (selectAway i s).drv = s.drv ∧
    (selectAway i s).krn = s.krn ∧
    (selectAway i s).est = s.est ∧
    (selectAway i s).win = s.win ∧
    (selectAway i s).pairs = s.pairs ∧
    (selectAway i s).time = s.time ∧
    (selectAway i s).therm = s.therm ∧
    (selectAway i s).nv = s.nv ∧
    (selectAway i s).ledg = s.ledg ∧
    (selectAway i s).tally = s.tally ∧
    (selectAway i s).host = s.host ∧
    (selectAway i s).sec = s.sec ∧
    (selectAway i s).pwr = s.pwr ∧
    (selectAway i s).bist = s.bist ∧
    (selectAway i s).pins = s.pins ∧
    (selectAway i s).freeIx = s.freeIx ∧
    (selectAway i s).pending = s.pending ∧
    (selectAway i s).recd.held = s.recd.held ∧
    (selectAway i s).evt.held = s.evt.held := by
  unfold selectAway
  repeat' split
  all_goals simp [id @emit_keep, id @modCurStr_keep]

theorem selectBack_keep (i : Nat) (s : State) :
    (selectBack i s).sys = s.sys ∧
    (selectBack i s).img = s.img ∧
    (selectBack i s).cfg = s.cfg ∧
    (selectBack i s).ring = s.ring ∧
    (selectBack i s).acq = s.acq ∧
    (selectBack i s).husk = s.husk ∧
    (selectBack i s).drv = s.drv ∧
    (selectBack i s).krn = s.krn ∧
    (selectBack i s).est = s.est ∧
    (selectBack i s).win = s.win ∧
    (selectBack i s).pairs = s.pairs ∧
    (selectBack i s).time = s.time ∧
    (selectBack i s).therm = s.therm ∧
    (selectBack i s).nv = s.nv ∧
    (selectBack i s).ledg = s.ledg ∧
    (selectBack i s).tally = s.tally ∧
    (selectBack i s).recd = s.recd ∧
    (selectBack i s).host = s.host ∧
    (selectBack i s).sec = s.sec ∧
    (selectBack i s).pwr = s.pwr ∧
    (selectBack i s).bist = s.bist ∧
    (selectBack i s).evt = s.evt ∧
    (selectBack i s).pins = s.pins ∧
    (selectBack i s).freeIx = s.freeIx ∧
    (selectBack i s).pending = s.pending := by
  simp [selectBack, id @modCurStr_keep]

theorem chStart_keep (n : Nat) (s : State) :
    (chStart n s).sys = s.sys ∧
    (chStart n s).img = s.img ∧
    (chStart n s).cfg = s.cfg ∧
    (chStart n s).ring = s.ring ∧
    (chStart n s).acq = s.acq ∧
    (chStart n s).husk = s.husk ∧
    (chStart n s).drv = s.drv ∧
    (chStart n s).krn = s.krn ∧
    (chStart n s).est = s.est ∧
    (chStart n s).pairs = s.pairs ∧
    (chStart n s).time = s.time ∧
    (chStart n s).therm = s.therm ∧
    (chStart n s).nv = s.nv ∧
    (chStart n s).ledg = s.ledg ∧
    (chStart n s).tally = s.tally ∧
    (chStart n s).host = s.host ∧
    (chStart n s).sec = s.sec ∧
    (chStart n s).pwr = s.pwr ∧
    (chStart n s).bist = s.bist ∧
    (chStart n s).pins = s.pins ∧
    (chStart n s).freeIx = s.freeIx ∧
    (chStart n s).pending = s.pending ∧
    (chStart n s).recd.held = s.recd.held ∧
    (chStart n s).evt.held = s.evt.held := by
  unfold chStart
  repeat' split
  all_goals simp [id @chRefit_keep, id @modCh_keep, id @setThresholds_keep]

theorem curStart_keep (s : State) :
    (curStart s).sys = s.sys ∧
    (curStart s).img = s.img ∧
    (curStart s).cfg = s.cfg ∧
    (curStart s).ring = s.ring ∧
    (curStart s).acq = s.acq ∧
    (curStart s).husk = s.husk ∧
    (curStart s).drv = s.drv ∧
    (curStart s).krn = s.krn ∧
    (curStart s).est = s.est ∧
    (curStart s).pairs = s.pairs ∧
    (curStart s).time = s.time ∧
    (curStart s).therm = s.therm ∧
    (curStart s).nv = s.nv ∧
    (curStart s).ledg = s.ledg ∧
    (curStart s).tally = s.tally ∧
    (curStart s).host = s.host ∧
    (curStart s).sec = s.sec ∧
    (curStart s).pwr = s.pwr ∧
    (curStart s).bist = s.bist ∧
    (curStart s).pins = s.pins ∧
    (curStart s).freeIx = s.freeIx ∧
    (curStart s).pending = s.pending ∧
    (curStart s).recd.held = s.recd.held ∧
    (curStart s).evt.held = s.evt.held := by
  simp [curStart, id @chStart_keep]

theorem curStop_keep (s : State) :
    (curStop s).sys = s.sys ∧
    (curStop s).img = s.img ∧
    (curStop s).cfg = s.cfg ∧
    (curStop s).ring = s.ring ∧
    (curStop s).acq = s.acq ∧
    (curStop s).husk = s.husk ∧
    (curStop s).drv = s.drv ∧
    (curStop s).krn = s.krn ∧
    (curStop s).est = s.est ∧
    (curStop s).pairs = s.pairs ∧
    (curStop s).time = s.time ∧
    (curStop s).therm = s.therm ∧
    (curStop s).nv = s.nv ∧
    (curStop s).ledg = s.ledg ∧
    (curStop s).tally = s.tally ∧
    (curStop s).recd = s.recd ∧
    (curStop s).host = s.host ∧
    (curStop s).sec = s.sec ∧
    (curStop s).pwr = s.pwr ∧
    (curStop s).bist = s.bist ∧
    (curStop s).evt = s.evt ∧
    (curStop s).pins = s.pins ∧
    (curStop s).freeIx = s.freeIx ∧
    (curStop s).pending = s.pending := by
  simp [curStop, id @modCh_keep]

theorem execCurrentSample_keep {n : Nat} {x : Int} {atS : Bool} {old : Bool} {ns : Nat} {s t : State} (h : execCurrentSample n x atS old ns s = .next t) :
    t.sys = s.sys ∧
    t.img = s.img ∧
    t.cfg = s.cfg ∧
    t.ring = s.ring ∧
    t.acq = s.acq ∧
    t.husk = s.husk ∧
    t.drv = s.drv ∧
    t.krn = s.krn ∧
    t.est = s.est ∧
    t.win = s.win ∧
    t.pairs = s.pairs ∧
    t.time = s.time ∧
    t.therm = s.therm ∧
    t.nv = s.nv ∧
    t.tally = s.tally ∧
    t.recd = s.recd ∧
    t.host = s.host ∧
    t.sec = s.sec ∧
    t.pwr = s.pwr ∧
    t.bist = s.bist ∧
    t.evt = s.evt ∧
    t.pins = s.pins ∧
    t.freeIx = s.freeIx ∧
    t.pending = s.pending := by
  have e := Host.Outcome.next.inj h
  subst e
  simp [id @ledgSample_keep, id @modCh_keep, id @modCurStr_keep]

theorem curClose_keep (s : State) :
    (curClose s).sys = s.sys ∧
    (curClose s).img = s.img ∧
    (curClose s).cfg = s.cfg ∧
    (curClose s).ring = s.ring ∧
    (curClose s).acq = s.acq ∧
    (curClose s).husk = s.husk ∧
    (curClose s).drv = s.drv ∧
    (curClose s).krn = s.krn ∧
    (curClose s).est = s.est ∧
    (curClose s).win = s.win ∧
    (curClose s).pairs = s.pairs ∧
    (curClose s).time = s.time ∧
    (curClose s).therm = s.therm ∧
    (curClose s).nv = s.nv ∧
    (curClose s).ledg = s.ledg ∧
    (curClose s).tally = s.tally ∧
    (curClose s).recd = s.recd ∧
    (curClose s).host = s.host ∧
    (curClose s).sec = s.sec ∧
    (curClose s).pwr = s.pwr ∧
    (curClose s).bist = s.bist ∧
    (curClose s).evt = s.evt ∧
    (curClose s).pins = s.pins ∧
    (curClose s).freeIx = s.freeIx ∧
    (curClose s).pending = s.pending := by
  simp [curClose, id @modCh_keep, id @modCurStr_keep]

theorem crossCheck_keep (i : Nat) (s : State) :
    (crossCheck i s).sys = s.sys ∧
    (crossCheck i s).img = s.img ∧
    (crossCheck i s).cfg = s.cfg ∧
    (crossCheck i s).ring = s.ring ∧
    (crossCheck i s).acq = s.acq ∧
    (crossCheck i s).husk = s.husk ∧
    (crossCheck i s).drv = s.drv ∧
    (crossCheck i s).krn = s.krn ∧
    (crossCheck i s).est = s.est ∧
    (crossCheck i s).win = s.win ∧
    (crossCheck i s).pairs = s.pairs ∧
    (crossCheck i s).time = s.time ∧
    (crossCheck i s).therm = s.therm ∧
    (crossCheck i s).nv = s.nv ∧
    (crossCheck i s).ledg = s.ledg ∧
    (crossCheck i s).tally = s.tally ∧
    (crossCheck i s).recd = s.recd ∧
    (crossCheck i s).host = s.host ∧
    (crossCheck i s).sec = s.sec ∧
    (crossCheck i s).pwr = s.pwr ∧
    (crossCheck i s).bist = s.bist ∧
    (crossCheck i s).evt = s.evt ∧
    (crossCheck i s).pins = s.pins ∧
    (crossCheck i s).freeIx = s.freeIx ∧
    (crossCheck i s).pending = s.pending := by
  simp [crossCheck, id @modCurStr_keep]

theorem boundaryCh_keep (s : State) (n : Nat) :
    (boundaryCh s n).sys = s.sys ∧
    (boundaryCh s n).img = s.img ∧
    (boundaryCh s n).cfg = s.cfg ∧
    (boundaryCh s n).ring = s.ring ∧
    (boundaryCh s n).acq = s.acq ∧
    (boundaryCh s n).husk = s.husk ∧
    (boundaryCh s n).drv = s.drv ∧
    (boundaryCh s n).krn = s.krn ∧
    (boundaryCh s n).est = s.est ∧
    (boundaryCh s n).win = s.win ∧
    (boundaryCh s n).pairs = s.pairs ∧
    (boundaryCh s n).time = s.time ∧
    (boundaryCh s n).therm = s.therm ∧
    (boundaryCh s n).nv = s.nv ∧
    (boundaryCh s n).ledg = s.ledg ∧
    (boundaryCh s n).tally = s.tally ∧
    (boundaryCh s n).host = s.host ∧
    (boundaryCh s n).sec = s.sec ∧
    (boundaryCh s n).pwr = s.pwr ∧
    (boundaryCh s n).bist = s.bist ∧
    (boundaryCh s n).pins = s.pins ∧
    (boundaryCh s n).freeIx = s.freeIx ∧
    (boundaryCh s n).pending = s.pending ∧
    (boundaryCh s n).recd.held = s.recd.held ∧
    (boundaryCh s n).evt.held = s.evt.held := by
  unfold boundaryCh
  repeat' split
  all_goals simp [id @chRefit_keep, id @modCh_keep, id @setThresholds_keep]

theorem curBoundary_keep (s : State) :
    (curBoundary s).sys = s.sys ∧
    (curBoundary s).img = s.img ∧
    (curBoundary s).cfg = s.cfg ∧
    (curBoundary s).ring = s.ring ∧
    (curBoundary s).acq = s.acq ∧
    (curBoundary s).husk = s.husk ∧
    (curBoundary s).drv = s.drv ∧
    (curBoundary s).krn = s.krn ∧
    (curBoundary s).est = s.est ∧
    (curBoundary s).win = s.win ∧
    (curBoundary s).pairs = s.pairs ∧
    (curBoundary s).time = s.time ∧
    (curBoundary s).therm = s.therm ∧
    (curBoundary s).nv = s.nv ∧
    (curBoundary s).ledg = s.ledg ∧
    (curBoundary s).tally = s.tally ∧
    (curBoundary s).host = s.host ∧
    (curBoundary s).sec = s.sec ∧
    (curBoundary s).pwr = s.pwr ∧
    (curBoundary s).bist = s.bist ∧
    (curBoundary s).pins = s.pins ∧
    (curBoundary s).freeIx = s.freeIx ∧
    (curBoundary s).pending = s.pending ∧
    (curBoundary s).recd.held = s.recd.held ∧
    (curBoundary s).evt.held = s.evt.held := by
  simp [curBoundary, id @boundaryCh_keep, id @selectAway_keep, id @selectBack_keep]

theorem execCalTrigger_keep {n : Nat} {s t : State} (h : execCalTrigger n s = .next t) :
    t.sys = s.sys ∧
    t.img = s.img ∧
    t.cfg = s.cfg ∧
    t.ring = s.ring ∧
    t.acq = s.acq ∧
    t.husk = s.husk ∧
    t.drv = s.drv ∧
    t.krn = s.krn ∧
    t.est = s.est ∧
    t.win = s.win ∧
    t.pairs = s.pairs ∧
    t.time = s.time ∧
    t.therm = s.therm ∧
    t.nv = s.nv ∧
    t.ledg = s.ledg ∧
    t.tally = s.tally ∧
    t.recd = s.recd ∧
    t.host = s.host ∧
    t.sec = s.sec ∧
    t.pwr = s.pwr ∧
    t.bist = s.bist ∧
    t.evt = s.evt ∧
    t.pins = s.pins ∧
    t.freeIx = s.freeIx ∧
    t.pending = s.pending := by
  have e := Host.Outcome.next.inj h
  subst e
  simp [id @modCh_keep]

theorem execCalSwitch_keep {n : Nat} {s t : State} (h : execCalSwitch n s = .next t) :
    t.sys = s.sys ∧
    t.img = s.img ∧
    t.cfg = s.cfg ∧
    t.ring = s.ring ∧
    t.acq = s.acq ∧
    t.husk = s.husk ∧
    t.drv = s.drv ∧
    t.krn = s.krn ∧
    t.est = s.est ∧
    t.pairs = s.pairs ∧
    t.time = s.time ∧
    t.therm = s.therm ∧
    t.nv = s.nv ∧
    t.ledg = s.ledg ∧
    t.tally = s.tally ∧
    t.host = s.host ∧
    t.sec = s.sec ∧
    t.pwr = s.pwr ∧
    t.bist = s.bist ∧
    t.pins = s.pins ∧
    t.freeIx = s.freeIx ∧
    t.pending = s.pending ∧
    t.recd.held = s.recd.held ∧
    t.evt.held = s.evt.held := by
  have e := Host.Outcome.next.inj h
  subst e
  simp [id @modCh_keep, id @selectAway_keep]
  repeat' split
  all_goals simp [id @modCh_keep, id @selectAway_keep]

theorem execCalApply_keep {n : Nat} {s t : State} (h : execCalApply n s = .next t) :
    t.sys = s.sys ∧
    t.img = s.img ∧
    t.cfg = s.cfg ∧
    t.ring = s.ring ∧
    t.acq = s.acq ∧
    t.husk = s.husk ∧
    t.drv = s.drv ∧
    t.krn = s.krn ∧
    t.est = s.est ∧
    t.win = s.win ∧
    t.pairs = s.pairs ∧
    t.time = s.time ∧
    t.therm = s.therm ∧
    t.nv = s.nv ∧
    t.ledg = s.ledg ∧
    t.tally = s.tally ∧
    t.recd = s.recd ∧
    t.host = s.host ∧
    t.sec = s.sec ∧
    t.pwr = s.pwr ∧
    t.bist = s.bist ∧
    t.evt = s.evt ∧
    t.pins = s.pins ∧
    t.freeIx = s.freeIx ∧
    t.pending = s.pending := by
  have e := Host.Outcome.next.inj h
  subst e
  simp [id @modCh_keep]

theorem execCalReturn_keep {n : Nat} {s t : State} (h : execCalReturn n s = .next t) :
    t.sys = s.sys ∧
    t.img = s.img ∧
    t.cfg = s.cfg ∧
    t.ring = s.ring ∧
    t.acq = s.acq ∧
    t.husk = s.husk ∧
    t.drv = s.drv ∧
    t.krn = s.krn ∧
    t.est = s.est ∧
    t.pairs = s.pairs ∧
    t.time = s.time ∧
    t.therm = s.therm ∧
    t.nv = s.nv ∧
    t.ledg = s.ledg ∧
    t.tally = s.tally ∧
    t.recd = s.recd ∧
    t.host = s.host ∧
    t.sec = s.sec ∧
    t.pwr = s.pwr ∧
    t.bist = s.bist ∧
    t.evt = s.evt ∧
    t.pins = s.pins ∧
    t.freeIx = s.freeIx ∧
    t.pending = s.pending := by
  have e := Host.Outcome.next.inj h
  subst e
  simp [id @modCh_keep]

theorem execCurCalOverdue_keep {n : Nat} {s t : State} (h : execCurCalOverdue n s = .next t) :
    t.sys = s.sys ∧
    t.img = s.img ∧
    t.cfg = s.cfg ∧
    t.ring = s.ring ∧
    t.acq = s.acq ∧
    t.husk = s.husk ∧
    t.drv = s.drv ∧
    t.krn = s.krn ∧
    t.est = s.est ∧
    t.win = s.win ∧
    t.pairs = s.pairs ∧
    t.time = s.time ∧
    t.therm = s.therm ∧
    t.nv = s.nv ∧
    t.ledg = s.ledg ∧
    t.tally = s.tally ∧
    t.host = s.host ∧
    t.sec = s.sec ∧
    t.pwr = s.pwr ∧
    t.bist = s.bist ∧
    t.pins = s.pins ∧
    t.freeIx = s.freeIx ∧
    t.pending = s.pending ∧
    t.recd.held = s.recd.held ∧
    t.evt.held = s.evt.held := by
  have e := Host.Outcome.next.inj h
  subst e
  simp [id @emit_keep, id @modCh_keep]
  repeat' split
  all_goals simp [id @emit_keep, id @modCh_keep]

theorem calNow_keep (s : State) :
    (calNow s).sys = s.sys ∧
    (calNow s).img = s.img ∧
    (calNow s).cfg = s.cfg ∧
    (calNow s).ring = s.ring ∧
    (calNow s).acq = s.acq ∧
    (calNow s).husk = s.husk ∧
    (calNow s).drv = s.drv ∧
    (calNow s).krn = s.krn ∧
    (calNow s).est = s.est ∧
    (calNow s).win = s.win ∧
    (calNow s).pairs = s.pairs ∧
    (calNow s).time = s.time ∧
    (calNow s).therm = s.therm ∧
    (calNow s).nv = s.nv ∧
    (calNow s).ledg = s.ledg ∧
    (calNow s).tally = s.tally ∧
    (calNow s).recd = s.recd ∧
    (calNow s).host = s.host ∧
    (calNow s).sec = s.sec ∧
    (calNow s).pwr = s.pwr ∧
    (calNow s).bist = s.bist ∧
    (calNow s).evt = s.evt ∧
    (calNow s).pins = s.pins ∧
    (calNow s).freeIx = s.freeIx ∧
    (calNow s).pending = s.pending := by
  simp [calNow]

theorem chStop_keep (n : Nat) (f : CurFault) (s : State) :
    (chStop n f s).sys = s.sys ∧
    (chStop n f s).img = s.img ∧
    (chStop n f s).cfg = s.cfg ∧
    (chStop n f s).ring = s.ring ∧
    (chStop n f s).acq = s.acq ∧
    (chStop n f s).husk = s.husk ∧
    (chStop n f s).drv = s.drv ∧
    (chStop n f s).krn = s.krn ∧
    (chStop n f s).est = s.est ∧
    (chStop n f s).pairs = s.pairs ∧
    (chStop n f s).time = s.time ∧
    (chStop n f s).therm = s.therm ∧
    (chStop n f s).nv = s.nv ∧
    (chStop n f s).ledg = s.ledg ∧
    (chStop n f s).tally = s.tally ∧
    (chStop n f s).host = s.host ∧
    (chStop n f s).sec = s.sec ∧
    (chStop n f s).pwr = s.pwr ∧
    (chStop n f s).bist = s.bist ∧
    (chStop n f s).pins = s.pins ∧
    (chStop n f s).freeIx = s.freeIx ∧
    (chStop n f s).pending = s.pending ∧
    (chStop n f s).recd.held = s.recd.held ∧
    (chStop n f s).evt.held = s.evt.held := by
  simp [chStop, id @modCh_keep, id @selectAway_keep]

theorem execChannelStop_keep {n : Nat} {f : CurFault} {sub : Nat} {mv : Int} {s t : State} (h : execChannelStop n f sub mv s = .next t) :
    t.img = s.img ∧
    t.cfg = s.cfg ∧
    t.acq = s.acq ∧
    t.krn = s.krn ∧
    t.pairs = s.pairs ∧
    t.time = s.time ∧
    t.therm = s.therm ∧
    t.nv = s.nv ∧
    t.ledg = s.ledg ∧
    t.tally = s.tally ∧
    t.host = s.host ∧
    t.sec = s.sec ∧
    t.bist = s.bist ∧
    t.freeIx = s.freeIx ∧
    t.pending = s.pending ∧
    t.sys.held = s.sys.held ∧
    t.husk.held = s.husk.held ∧
    t.drv.held = s.drv.held ∧
    t.recd.held = s.recd.held ∧
    t.est.held = s.est.held ∧
    t.pwr.held = s.pwr.held ∧
    t.evt.held = s.evt.held ∧
    t.pins.held = s.pins.held := by
  have e := Host.Outcome.next.inj h
  subst e
  simp [id @settle_keep]
  repeat' split
  all_goals simp [id @chStop_keep, id @emit_keep]

theorem execChannelRunning_keep {n : Nat} {s t : State} (h : execChannelRunning n s = .next t) :
    t.img = s.img ∧
    t.cfg = s.cfg ∧
    t.acq = s.acq ∧
    t.krn = s.krn ∧
    t.pairs = s.pairs ∧
    t.time = s.time ∧
    t.therm = s.therm ∧
    t.nv = s.nv ∧
    t.ledg = s.ledg ∧
    t.tally = s.tally ∧
    t.host = s.host ∧
    t.sec = s.sec ∧
    t.bist = s.bist ∧
    t.freeIx = s.freeIx ∧
    t.pending = s.pending ∧
    t.sys.held = s.sys.held ∧
    t.husk.held = s.husk.held ∧
    t.drv.held = s.drv.held ∧
    t.recd.held = s.recd.held ∧
    t.est.held = s.est.held ∧
    t.pwr.held = s.pwr.held ∧
    t.evt.held = s.evt.held ∧
    t.pins.held = s.pins.held := by
  have e := Host.Outcome.next.inj h
  subst e
  simp [id @chRefit_keep, id @modCh_keep, id @settle_keep]

theorem execCurDisagreeSet_keep {i : Nat} {s t : State} (h : execCurDisagreeSet i s = .next t) :
    t.sys = s.sys ∧
    t.img = s.img ∧
    t.cfg = s.cfg ∧
    t.ring = s.ring ∧
    t.acq = s.acq ∧
    t.husk = s.husk ∧
    t.drv = s.drv ∧
    t.krn = s.krn ∧
    t.est = s.est ∧
    t.win = s.win ∧
    t.pairs = s.pairs ∧
    t.time = s.time ∧
    t.therm = s.therm ∧
    t.nv = s.nv ∧
    t.ledg = s.ledg ∧
    t.tally = s.tally ∧
    t.host = s.host ∧
    t.sec = s.sec ∧
    t.pwr = s.pwr ∧
    t.bist = s.bist ∧
    t.pins = s.pins ∧
    t.freeIx = s.freeIx ∧
    t.pending = s.pending ∧
    t.recd.held = s.recd.held ∧
    t.evt.held = s.evt.held := by
  have e := Host.Outcome.next.inj h
  subst e
  simp [id @emit_keep, id @modCurStr_keep]
  repeat' split
  all_goals simp [id @emit_keep, id @modCurStr_keep]

theorem execCurDisagreeClear_keep {i : Nat} {s t : State} (h : execCurDisagreeClear i s = .next t) :
    t.sys = s.sys ∧
    t.img = s.img ∧
    t.cfg = s.cfg ∧
    t.ring = s.ring ∧
    t.acq = s.acq ∧
    t.husk = s.husk ∧
    t.drv = s.drv ∧
    t.krn = s.krn ∧
    t.est = s.est ∧
    t.win = s.win ∧
    t.pairs = s.pairs ∧
    t.time = s.time ∧
    t.therm = s.therm ∧
    t.nv = s.nv ∧
    t.ledg = s.ledg ∧
    t.tally = s.tally ∧
    t.recd = s.recd ∧
    t.host = s.host ∧
    t.sec = s.sec ∧
    t.pwr = s.pwr ∧
    t.bist = s.bist ∧
    t.evt = s.evt ∧
    t.pins = s.pins ∧
    t.freeIx = s.freeIx ∧
    t.pending = s.pending := by
  have e := Host.Outcome.next.inj h
  subst e
  simp [id @modCurStr_keep]

theorem execComparatorCrossing_keep {n : Nat} {lo : Bool} {up : Bool} {s t : State} (h : execComparatorCrossing n lo up s = .next t) :
    t.img = s.img ∧
    t.cfg = s.cfg ∧
    t.acq = s.acq ∧
    t.krn = s.krn ∧
    t.win = s.win ∧
    t.pairs = s.pairs ∧
    t.time = s.time ∧
    t.therm = s.therm ∧
    t.nv = s.nv ∧
    t.ledg = s.ledg ∧
    t.tally = s.tally ∧
    t.host = s.host ∧
    t.sec = s.sec ∧
    t.bist = s.bist ∧
    t.freeIx = s.freeIx ∧
    t.pending = s.pending ∧
    t.sys.held = s.sys.held ∧
    t.husk.held = s.husk.held ∧
    t.drv.held = s.drv.held ∧
    t.recd.held = s.recd.held ∧
    t.est.held = s.est.held ∧
    t.pwr.held = s.pwr.held ∧
    t.evt.held = s.evt.held ∧
    t.pins.held = s.pins.held := by
  have e := Host.Outcome.next.inj h
  subst e
  simp [id @modCh_keep, id @settle_keep]

theorem cmpTest_keep (s : State) :
    (cmpTest s).sys = s.sys ∧
    (cmpTest s).img = s.img ∧
    (cmpTest s).cfg = s.cfg ∧
    (cmpTest s).ring = s.ring ∧
    (cmpTest s).acq = s.acq ∧
    (cmpTest s).husk = s.husk ∧
    (cmpTest s).drv = s.drv ∧
    (cmpTest s).krn = s.krn ∧
    (cmpTest s).est = s.est ∧
    (cmpTest s).win = s.win ∧
    (cmpTest s).pairs = s.pairs ∧
    (cmpTest s).time = s.time ∧
    (cmpTest s).therm = s.therm ∧
    (cmpTest s).nv = s.nv ∧
    (cmpTest s).ledg = s.ledg ∧
    (cmpTest s).tally = s.tally ∧
    (cmpTest s).recd = s.recd ∧
    (cmpTest s).host = s.host ∧
    (cmpTest s).sec = s.sec ∧
    (cmpTest s).pwr = s.pwr ∧
    (cmpTest s).bist = s.bist ∧
    (cmpTest s).evt = s.evt ∧
    (cmpTest s).pins = s.pins ∧
    (cmpTest s).freeIx = s.freeIx ∧
    (cmpTest s).pending = s.pending := by
  simp [cmpTest, id @modCh_keep]

theorem cmpRestore_keep (n : Nat) (s : State) :
    (cmpRestore n s).sys = s.sys ∧
    (cmpRestore n s).img = s.img ∧
    (cmpRestore n s).cfg = s.cfg ∧
    (cmpRestore n s).ring = s.ring ∧
    (cmpRestore n s).acq = s.acq ∧
    (cmpRestore n s).husk = s.husk ∧
    (cmpRestore n s).drv = s.drv ∧
    (cmpRestore n s).krn = s.krn ∧
    (cmpRestore n s).est = s.est ∧
    (cmpRestore n s).win = s.win ∧
    (cmpRestore n s).pairs = s.pairs ∧
    (cmpRestore n s).time = s.time ∧
    (cmpRestore n s).therm = s.therm ∧
    (cmpRestore n s).nv = s.nv ∧
    (cmpRestore n s).ledg = s.ledg ∧
    (cmpRestore n s).tally = s.tally ∧
    (cmpRestore n s).recd = s.recd ∧
    (cmpRestore n s).host = s.host ∧
    (cmpRestore n s).sec = s.sec ∧
    (cmpRestore n s).pwr = s.pwr ∧
    (cmpRestore n s).bist = s.bist ∧
    (cmpRestore n s).evt = s.evt ∧
    (cmpRestore n s).pins = s.pins ∧
    (cmpRestore n s).freeIx = s.freeIx ∧
    (cmpRestore n s).pending = s.pending := by
  simp [cmpRestore, id @modCh_keep]

theorem execCmpCheckDone_keep {n : Nat} {hiOk : Bool} {loOk : Bool} {s t : State} (h : execCmpCheckDone n hiOk loOk s = .next t) :
    t.img = s.img ∧
    t.cfg = s.cfg ∧
    t.acq = s.acq ∧
    t.krn = s.krn ∧
    t.pairs = s.pairs ∧
    t.time = s.time ∧
    t.therm = s.therm ∧
    t.nv = s.nv ∧
    t.ledg = s.ledg ∧
    t.tally = s.tally ∧
    t.host = s.host ∧
    t.sec = s.sec ∧
    t.bist = s.bist ∧
    t.freeIx = s.freeIx ∧
    t.pending = s.pending ∧
    t.sys.held = s.sys.held ∧
    t.husk.held = s.husk.held ∧
    t.drv.held = s.drv.held ∧
    t.recd.held = s.recd.held ∧
    t.est.held = s.est.held ∧
    t.pwr.held = s.pwr.held ∧
    t.evt.held = s.evt.held ∧
    t.pins.held = s.pins.held := by
  have e := Host.Outcome.next.inj h
  subst e
  dsimp only
  repeat' split
  all_goals simp [id @chRefit_keep, id @chStop_keep, id @cmpRestore_keep, id @emitIf_keep, id @modCh_keep,
      id @settle_keep]

theorem chWrite_keep (n : Nat) (f : CurCh → CurCh) (s : State) :
    (chWrite n f s).sys = s.sys ∧
    (chWrite n f s).img = s.img ∧
    (chWrite n f s).cfg = s.cfg ∧
    (chWrite n f s).ring = s.ring ∧
    (chWrite n f s).acq = s.acq ∧
    (chWrite n f s).husk = s.husk ∧
    (chWrite n f s).drv = s.drv ∧
    (chWrite n f s).est = s.est ∧
    (chWrite n f s).pairs = s.pairs ∧
    (chWrite n f s).time = s.time ∧
    (chWrite n f s).therm = s.therm ∧
    (chWrite n f s).ledg = s.ledg ∧
    (chWrite n f s).tally = s.tally ∧
    (chWrite n f s).recd = s.recd ∧
    (chWrite n f s).host = s.host ∧
    (chWrite n f s).sec = s.sec ∧
    (chWrite n f s).pwr = s.pwr ∧
    (chWrite n f s).bist = s.bist ∧
    (chWrite n f s).evt = s.evt ∧
    (chWrite n f s).pins = s.pins ∧
    (chWrite n f s).freeIx = s.freeIx ∧
    (chWrite n f s).pending = s.pending := by
  simp [chWrite, id @modCh_keep, id @nvQueue_keep]

end Sys2Proof.Machine
end

