-- ==== Sys2Proof/Laws/KeepSprout.lean ====
section
/-! SUPPORT. What the operations of Machine/Sprout.lean leave unchanged. -/

namespace Sys2Proof.Machine

theorem unassigned_keep (un : List (Nat × Nat)) (s : State) (r : Nat) :
    (unassigned un s r).sys = s.sys ∧
    (unassigned un s r).img = s.img ∧
    (unassigned un s r).cfg = s.cfg ∧
    (unassigned un s r).ring = s.ring ∧
    (unassigned un s r).acq = s.acq ∧
    (unassigned un s r).cur = s.cur ∧
    (unassigned un s r).husk = s.husk ∧
    (unassigned un s r).drv = s.drv ∧
    (unassigned un s r).krn = s.krn ∧
    (unassigned un s r).est = s.est ∧
    (unassigned un s r).win = s.win ∧
    (unassigned un s r).pairs = s.pairs ∧
    (unassigned un s r).time = s.time ∧
    (unassigned un s r).therm = s.therm ∧
    (unassigned un s r).nv = s.nv ∧
    (unassigned un s r).ledg = s.ledg ∧
    (unassigned un s r).tally = s.tally ∧
    (unassigned un s r).host = s.host ∧
    (unassigned un s r).sec = s.sec ∧
    (unassigned un s r).pwr = s.pwr ∧
    (unassigned un s r).bist = s.bist ∧
    (unassigned un s r).pins = s.pins ∧
    (unassigned un s r).freeIx = s.freeIx ∧
    (unassigned un s r).pending = s.pending ∧
    (unassigned un s r).recd.held = s.recd.held ∧
    (unassigned un s r).evt.held = s.evt.held := by
  unfold unassigned
  repeat' split
  all_goals simp [id @emit_keep]

theorem sproutLoad_keep (r0 : Nat) (s : State) :
    (sproutLoad r0 s).sys = s.sys ∧
    (sproutLoad r0 s).img = s.img ∧
    (sproutLoad r0 s).ring = s.ring ∧
    (sproutLoad r0 s).acq = s.acq ∧
    (sproutLoad r0 s).cur = s.cur ∧
    (sproutLoad r0 s).drv = s.drv ∧
    (sproutLoad r0 s).krn = s.krn ∧
    (sproutLoad r0 s).est = s.est ∧
    (sproutLoad r0 s).win = s.win ∧
    (sproutLoad r0 s).pairs = s.pairs ∧
    (sproutLoad r0 s).time = s.time ∧
    (sproutLoad r0 s).therm = s.therm ∧
    (sproutLoad r0 s).nv = s.nv ∧
    (sproutLoad r0 s).ledg = s.ledg ∧
    (sproutLoad r0 s).tally = s.tally ∧
    (sproutLoad r0 s).host = s.host ∧
    (sproutLoad r0 s).sec = s.sec ∧
    (sproutLoad r0 s).pwr = s.pwr ∧
    (sproutLoad r0 s).bist = s.bist ∧
    (sproutLoad r0 s).pins = s.pins ∧
    (sproutLoad r0 s).freeIx = s.freeIx ∧
    (sproutLoad r0 s).pending = s.pending ∧
    (sproutLoad r0 s).recd.held = s.recd.held ∧
    (sproutLoad r0 s).evt.held = s.evt.held := by
  simp [sproutLoad, id @netChange_keep, id @unassigned_keep]

end Sys2Proof.Machine
end

