-- ==== Sys2Proof/Laws/KeepRing.lean ====
section
/-! SUPPORT. What the operations of Machine/Ring.lean leave unchanged. -/

namespace Sys2Proof.Machine

theorem ringTx_keep (r : Nat) (portB : Bool) (bytes : List Byte) (s : State) :
    (ringTx r portB bytes s).sys = s.sys ∧
    (ringTx r portB bytes s).img = s.img ∧
    (ringTx r portB bytes s).cfg = s.cfg ∧
    (ringTx r portB bytes s).acq = s.acq ∧
    (ringTx r portB bytes s).cur = s.cur ∧
    (ringTx r portB bytes s).husk = s.husk ∧
    (ringTx r portB bytes s).drv = s.drv ∧
    (ringTx r portB bytes s).krn = s.krn ∧
    (ringTx r portB bytes s).est = s.est ∧
    (ringTx r portB bytes s).win = s.win ∧
    (ringTx r portB bytes s).pairs = s.pairs ∧
    (ringTx r portB bytes s).time = s.time ∧
    (ringTx r portB bytes s).therm = s.therm ∧
    (ringTx r portB bytes s).nv = s.nv ∧
    (ringTx r portB bytes s).ledg = s.ledg ∧
    (ringTx r portB bytes s).tally = s.tally ∧
    (ringTx r portB bytes s).recd = s.recd ∧
    (ringTx r portB bytes s).host = s.host ∧
    (ringTx r portB bytes s).sec = s.sec ∧
    (ringTx r portB bytes s).pwr = s.pwr ∧
    (ringTx r portB bytes s).bist = s.bist ∧
    (ringTx r portB bytes s).evt = s.evt ∧
    (ringTx r portB bytes s).pins = s.pins ∧
    (ringTx r portB bytes s).freeIx = s.freeIx ∧
    (ringTx r portB bytes s).pending = s.pending := by
  simp [ringTx, id @modRing_keep]

theorem ringTxBoth_keep (r : Nat) (type : Nat) (payload : List Byte) (s : State) :
    (ringTxBoth r type payload s).sys = s.sys ∧
    (ringTxBoth r type payload s).img = s.img ∧
    (ringTxBoth r type payload s).cfg = s.cfg ∧
    (ringTxBoth r type payload s).acq = s.acq ∧
    (ringTxBoth r type payload s).cur = s.cur ∧
    (ringTxBoth r type payload s).husk = s.husk ∧
    (ringTxBoth r type payload s).drv = s.drv ∧
    (ringTxBoth r type payload s).krn = s.krn ∧
    (ringTxBoth r type payload s).est = s.est ∧
    (ringTxBoth r type payload s).win = s.win ∧
    (ringTxBoth r type payload s).pairs = s.pairs ∧
    (ringTxBoth r type payload s).time = s.time ∧
    (ringTxBoth r type payload s).therm = s.therm ∧
    (ringTxBoth r type payload s).nv = s.nv ∧
    (ringTxBoth r type payload s).ledg = s.ledg ∧
    (ringTxBoth r type payload s).tally = s.tally ∧
    (ringTxBoth r type payload s).recd = s.recd ∧
    (ringTxBoth r type payload s).host = s.host ∧
    (ringTxBoth r type payload s).sec = s.sec ∧
    (ringTxBoth r type payload s).pwr = s.pwr ∧
    (ringTxBoth r type payload s).bist = s.bist ∧
    (ringTxBoth r type payload s).evt = s.evt ∧
    (ringTxBoth r type payload s).pins = s.pins ∧
    (ringTxBoth r type payload s).freeIx = s.freeIx ∧
    (ringTxBoth r type payload s).pending = s.pending := by
  simp [ringTxBoth, id @modRing_keep]

theorem portErr_keep (r : Nat) (portB : Bool) (s : State) :
    (portErr r portB s).sys = s.sys ∧
    (portErr r portB s).img = s.img ∧
    (portErr r portB s).cfg = s.cfg ∧
    (portErr r portB s).acq = s.acq ∧
    (portErr r portB s).cur = s.cur ∧
    (portErr r portB s).husk = s.husk ∧
    (portErr r portB s).drv = s.drv ∧
    (portErr r portB s).krn = s.krn ∧
    (portErr r portB s).est = s.est ∧
    (portErr r portB s).win = s.win ∧
    (portErr r portB s).pairs = s.pairs ∧
    (portErr r portB s).time = s.time ∧
    (portErr r portB s).therm = s.therm ∧
    (portErr r portB s).nv = s.nv ∧
    (portErr r portB s).ledg = s.ledg ∧
    (portErr r portB s).tally = s.tally ∧
    (portErr r portB s).recd = s.recd ∧
    (portErr r portB s).host = s.host ∧
    (portErr r portB s).sec = s.sec ∧
    (portErr r portB s).pwr = s.pwr ∧
    (portErr r portB s).bist = s.bist ∧
    (portErr r portB s).evt = s.evt ∧
    (portErr r portB s).pins = s.pins ∧
    (portErr r portB s).freeIx = s.freeIx ∧
    (portErr r portB s).pending = s.pending := by
  simp [portErr, id @modRing_keep]

theorem reach_keep (r : Nat) (s : State) :
    (reach r s).sys = s.sys ∧
    (reach r s).img = s.img ∧
    (reach r s).cfg = s.cfg ∧
    (reach r s).acq = s.acq ∧
    (reach r s).cur = s.cur ∧
    (reach r s).husk = s.husk ∧
    (reach r s).drv = s.drv ∧
    (reach r s).krn = s.krn ∧
    (reach r s).est = s.est ∧
    (reach r s).win = s.win ∧
    (reach r s).pairs = s.pairs ∧
    (reach r s).time = s.time ∧
    (reach r s).therm = s.therm ∧
    (reach r s).nv = s.nv ∧
    (reach r s).ledg = s.ledg ∧
    (reach r s).tally = s.tally ∧
    (reach r s).recd = s.recd ∧
    (reach r s).host = s.host ∧
    (reach r s).sec = s.sec ∧
    (reach r s).pwr = s.pwr ∧
    (reach r s).bist = s.bist ∧
    (reach r s).evt = s.evt ∧
    (reach r s).pins = s.pins ∧
    (reach r s).freeIx = s.freeIx ∧
    (reach r s).pending = s.pending := by
  simp [reach, id @modNode_keep, id @modRing_keep]

theorem cfgPush_keep (r : Nat) (p : Nat) (s : State) :
    (cfgPush r p s).sys = s.sys ∧
    (cfgPush r p s).img = s.img ∧
    (cfgPush r p s).cfg = s.cfg ∧
    (cfgPush r p s).acq = s.acq ∧
    (cfgPush r p s).cur = s.cur ∧
    (cfgPush r p s).husk = s.husk ∧
    (cfgPush r p s).drv = s.drv ∧
    (cfgPush r p s).krn = s.krn ∧
    (cfgPush r p s).est = s.est ∧
    (cfgPush r p s).win = s.win ∧
    (cfgPush r p s).pairs = s.pairs ∧
    (cfgPush r p s).time = s.time ∧
    (cfgPush r p s).therm = s.therm ∧
    (cfgPush r p s).nv = s.nv ∧
    (cfgPush r p s).ledg = s.ledg ∧
    (cfgPush r p s).tally = s.tally ∧
    (cfgPush r p s).recd = s.recd ∧
    (cfgPush r p s).host = s.host ∧
    (cfgPush r p s).sec = s.sec ∧
    (cfgPush r p s).pwr = s.pwr ∧
    (cfgPush r p s).bist = s.bist ∧
    (cfgPush r p s).evt = s.evt ∧
    (cfgPush r p s).pins = s.pins ∧
    (cfgPush r p s).freeIx = s.freeIx ∧
    (cfgPush r p s).pending = s.pending := by
  simp [cfgPush, id @mgmtPush_keep]

theorem cfgWrite_keep (s : State) :
    (cfgWrite s).sys = s.sys ∧
    (cfgWrite s).img = s.img ∧
    (cfgWrite s).cfg = s.cfg ∧
    (cfgWrite s).acq = s.acq ∧
    (cfgWrite s).cur = s.cur ∧
    (cfgWrite s).husk = s.husk ∧
    (cfgWrite s).drv = s.drv ∧
    (cfgWrite s).krn = s.krn ∧
    (cfgWrite s).est = s.est ∧
    (cfgWrite s).win = s.win ∧
    (cfgWrite s).pairs = s.pairs ∧
    (cfgWrite s).time = s.time ∧
    (cfgWrite s).therm = s.therm ∧
    (cfgWrite s).nv = s.nv ∧
    (cfgWrite s).ledg = s.ledg ∧
    (cfgWrite s).tally = s.tally ∧
    (cfgWrite s).recd = s.recd ∧
    (cfgWrite s).host = s.host ∧
    (cfgWrite s).sec = s.sec ∧
    (cfgWrite s).pwr = s.pwr ∧
    (cfgWrite s).bist = s.bist ∧
    (cfgWrite s).evt = s.evt ∧
    (cfgWrite s).pins = s.pins ∧
    (cfgWrite s).freeIx = s.freeIx ∧
    (cfgWrite s).pending = s.pending := by
  simp [cfgWrite, id @cfgPush_keep]

theorem takeDelay_keep (r : Nat) (p : Nat) (a : Option Nat) (b : Option Nat) (loop : Option (Nat × Nat)) (s : State) :
    (takeDelay r p a b loop s).sys = s.sys ∧
    (takeDelay r p a b loop s).img = s.img ∧
    (takeDelay r p a b loop s).cfg = s.cfg ∧
    (takeDelay r p a b loop s).acq = s.acq ∧
    (takeDelay r p a b loop s).cur = s.cur ∧
    (takeDelay r p a b loop s).husk = s.husk ∧
    (takeDelay r p a b loop s).drv = s.drv ∧
    (takeDelay r p a b loop s).krn = s.krn ∧
    (takeDelay r p a b loop s).est = s.est ∧
    (takeDelay r p a b loop s).win = s.win ∧
    (takeDelay r p a b loop s).pairs = s.pairs ∧
    (takeDelay r p a b loop s).time = s.time ∧
    (takeDelay r p a b loop s).therm = s.therm ∧
    (takeDelay r p a b loop s).nv = s.nv ∧
    (takeDelay r p a b loop s).ledg = s.ledg ∧
    (takeDelay r p a b loop s).tally = s.tally ∧
    (takeDelay r p a b loop s).host = s.host ∧
    (takeDelay r p a b loop s).sec = s.sec ∧
    (takeDelay r p a b loop s).pwr = s.pwr ∧
    (takeDelay r p a b loop s).bist = s.bist ∧
    (takeDelay r p a b loop s).pins = s.pins ∧
    (takeDelay r p a b loop s).freeIx = s.freeIx ∧
    (takeDelay r p a b loop s).pending = s.pending ∧
    (takeDelay r p a b loop s).recd.held = s.recd.held ∧
    (takeDelay r p a b loop s).evt.held = s.evt.held := by
  simp [takeDelay, id @emitIf_keep, id @modNode_keep]

theorem delayWrites_keep (r : Nat) (p : Nat) (old : Node) (a : Option Nat) (b : Option Nat) (s : State) :
    (delayWrites r p old a b s).sys = s.sys ∧
    (delayWrites r p old a b s).img = s.img ∧
    (delayWrites r p old a b s).cfg = s.cfg ∧
    (delayWrites r p old a b s).acq = s.acq ∧
    (delayWrites r p old a b s).cur = s.cur ∧
    (delayWrites r p old a b s).husk = s.husk ∧
    (delayWrites r p old a b s).drv = s.drv ∧
    (delayWrites r p old a b s).krn = s.krn ∧
    (delayWrites r p old a b s).est = s.est ∧
    (delayWrites r p old a b s).win = s.win ∧
    (delayWrites r p old a b s).pairs = s.pairs ∧
    (delayWrites r p old a b s).time = s.time ∧
    (delayWrites r p old a b s).therm = s.therm ∧
    (delayWrites r p old a b s).nv = s.nv ∧
    (delayWrites r p old a b s).ledg = s.ledg ∧
    (delayWrites r p old a b s).tally = s.tally ∧
    (delayWrites r p old a b s).recd = s.recd ∧
    (delayWrites r p old a b s).host = s.host ∧
    (delayWrites r p old a b s).sec = s.sec ∧
    (delayWrites r p old a b s).pwr = s.pwr ∧
    (delayWrites r p old a b s).bist = s.bist ∧
    (delayWrites r p old a b s).evt = s.evt ∧
    (delayWrites r p old a b s).pins = s.pins ∧
    (delayWrites r p old a b s).freeIx = s.freeIx ∧
    (delayWrites r p old a b s).pending = s.pending := by
  simp [delayWrites, id @cfgPush_keep, id @mgmtPush_keep]

theorem takeLoop_keep (r : Nat) (loop : Option (Nat × Nat)) (s : State) :
    (takeLoop r loop s).sys = s.sys ∧
    (takeLoop r loop s).img = s.img ∧
    (takeLoop r loop s).cfg = s.cfg ∧
    (takeLoop r loop s).acq = s.acq ∧
    (takeLoop r loop s).cur = s.cur ∧
    (takeLoop r loop s).husk = s.husk ∧
    (takeLoop r loop s).drv = s.drv ∧
    (takeLoop r loop s).krn = s.krn ∧
    (takeLoop r loop s).est = s.est ∧
    (takeLoop r loop s).win = s.win ∧
    (takeLoop r loop s).pairs = s.pairs ∧
    (takeLoop r loop s).time = s.time ∧
    (takeLoop r loop s).therm = s.therm ∧
    (takeLoop r loop s).nv = s.nv ∧
    (takeLoop r loop s).ledg = s.ledg ∧
    (takeLoop r loop s).tally = s.tally ∧
    (takeLoop r loop s).recd = s.recd ∧
    (takeLoop r loop s).host = s.host ∧
    (takeLoop r loop s).sec = s.sec ∧
    (takeLoop r loop s).pwr = s.pwr ∧
    (takeLoop r loop s).bist = s.bist ∧
    (takeLoop r loop s).evt = s.evt ∧
    (takeLoop r loop s).pins = s.pins ∧
    (takeLoop r loop s).freeIx = s.freeIx ∧
    (takeLoop r loop s).pending = s.pending := by
  unfold takeLoop
  repeat' split
  all_goals simp [id @modRing_keep]

theorem threshNode_keep (r : Nat) (s : State) (p : Nat) :
    (threshNode r s p).sys = s.sys ∧
    (threshNode r s p).img = s.img ∧
    (threshNode r s p).cfg = s.cfg ∧
    (threshNode r s p).acq = s.acq ∧
    (threshNode r s p).cur = s.cur ∧
    (threshNode r s p).husk = s.husk ∧
    (threshNode r s p).drv = s.drv ∧
    (threshNode r s p).krn = s.krn ∧
    (threshNode r s p).est = s.est ∧
    (threshNode r s p).win = s.win ∧
    (threshNode r s p).pairs = s.pairs ∧
    (threshNode r s p).time = s.time ∧
    (threshNode r s p).therm = s.therm ∧
    (threshNode r s p).nv = s.nv ∧
    (threshNode r s p).ledg = s.ledg ∧
    (threshNode r s p).tally = s.tally ∧
    (threshNode r s p).recd = s.recd ∧
    (threshNode r s p).host = s.host ∧
    (threshNode r s p).sec = s.sec ∧
    (threshNode r s p).pwr = s.pwr ∧
    (threshNode r s p).bist = s.bist ∧
    (threshNode r s p).evt = s.evt ∧
    (threshNode r s p).pins = s.pins ∧
    (threshNode r s p).freeIx = s.freeIx ∧
    (threshNode r s p).pending = s.pending := by
  unfold threshNode
  repeat' split
  all_goals simp [id @mgmtPush_keep]

theorem threshWrite_keep (s : State) :
    (threshWrite s).sys = s.sys ∧
    (threshWrite s).img = s.img ∧
    (threshWrite s).cfg = s.cfg ∧
    (threshWrite s).acq = s.acq ∧
    (threshWrite s).cur = s.cur ∧
    (threshWrite s).husk = s.husk ∧
    (threshWrite s).drv = s.drv ∧
    (threshWrite s).krn = s.krn ∧
    (threshWrite s).est = s.est ∧
    (threshWrite s).win = s.win ∧
    (threshWrite s).pairs = s.pairs ∧
    (threshWrite s).time = s.time ∧
    (threshWrite s).therm = s.therm ∧
    (threshWrite s).nv = s.nv ∧
    (threshWrite s).ledg = s.ledg ∧
    (threshWrite s).tally = s.tally ∧
    (threshWrite s).recd = s.recd ∧
    (threshWrite s).host = s.host ∧
    (threshWrite s).sec = s.sec ∧
    (threshWrite s).pwr = s.pwr ∧
    (threshWrite s).bist = s.bist ∧
    (threshWrite s).evt = s.evt ∧
    (threshWrite s).pins = s.pins ∧
    (threshWrite s).freeIx = s.freeIx ∧
    (threshWrite s).pending = s.pending := by
  simp [threshWrite, id @threshNode_keep]

theorem execNetlistLoad_keep  {s t : State} (h : execNetlistLoad s = .next t) :
    t.img = s.img ∧
    t.cfg = s.cfg ∧
    t.acq = s.acq ∧
    t.krn = s.krn ∧
    t.win = s.win ∧
    t.pairs = s.pairs ∧
    t.time = s.time ∧
    t.therm = s.therm ∧
    t.nv = s.nv ∧
    t.ledg = s.ledg ∧
    t.tally = s.tally ∧
    t.host = s.host ∧
    t.sec = s.sec ∧
    t.bist = s.bist ∧
    t.freeIx = s.freeIx ∧
    t.pending = s.pending ∧
    t.sys.held = s.sys.held ∧
    t.drv.held = s.drv.held ∧
    t.recd.held = s.recd.held ∧
    t.est.held = s.est.held ∧
    t.pwr.held = s.pwr.held ∧
    t.evt.held = s.evt.held ∧
    t.pins.held = s.pins.held := by
  have e := Host.Outcome.next.inj h
  subst e
  dsimp only
  repeat' split
  all_goals simp [id @allThresholds_keep, id @loadNet_keep, id @settle_keep, id @threshWrite_keep]

theorem measureNodes_keep (r : Nat) (loop : Option (Nat × Nat)) (ms : List DelayMeas) (s : State) :
    (measureNodes r loop ms s).sys = s.sys ∧
    (measureNodes r loop ms s).img = s.img ∧
    (measureNodes r loop ms s).cfg = s.cfg ∧
    (measureNodes r loop ms s).acq = s.acq ∧
    (measureNodes r loop ms s).cur = s.cur ∧
    (measureNodes r loop ms s).husk = s.husk ∧
    (measureNodes r loop ms s).drv = s.drv ∧
    (measureNodes r loop ms s).krn = s.krn ∧
    (measureNodes r loop ms s).est = s.est ∧
    (measureNodes r loop ms s).win = s.win ∧
    (measureNodes r loop ms s).pairs = s.pairs ∧
    (measureNodes r loop ms s).time = s.time ∧
    (measureNodes r loop ms s).therm = s.therm ∧
    (measureNodes r loop ms s).nv = s.nv ∧
    (measureNodes r loop ms s).ledg = s.ledg ∧
    (measureNodes r loop ms s).tally = s.tally ∧
    (measureNodes r loop ms s).host = s.host ∧
    (measureNodes r loop ms s).sec = s.sec ∧
    (measureNodes r loop ms s).pwr = s.pwr ∧
    (measureNodes r loop ms s).bist = s.bist ∧
    (measureNodes r loop ms s).pins = s.pins ∧
    (measureNodes r loop ms s).freeIx = s.freeIx ∧
    (measureNodes r loop ms s).pending = s.pending ∧
    (measureNodes r loop ms s).recd.held = s.recd.held ∧
    (measureNodes r loop ms s).evt.held = s.evt.held := by
  refine ⟨?_, ?_, ?_, ?_, ?_, ?_, ?_, ?_, ?_, ?_, ?_, ?_, ?_, ?_, ?_, ?_, ?_, ?_, ?_, ?_, ?_, ?_, ?_, ?_, ?_⟩
  · unfold measureNodes
    apply foldl_sys
    intro s m
    dsimp only
    split <;> simp [id @modNode_keep, id @takeDelay_keep]
  · unfold measureNodes
    apply foldl_img
    intro s m
    dsimp only
    split <;> simp [id @modNode_keep, id @takeDelay_keep]
  · unfold measureNodes
    apply foldl_cfg
    intro s m
    dsimp only
    split <;> simp [id @modNode_keep, id @takeDelay_keep]
  · unfold measureNodes
    apply foldl_acq
    intro s m
    dsimp only
    split <;> simp [id @modNode_keep, id @takeDelay_keep]
  · unfold measureNodes
    apply foldl_cur
    intro s m
    dsimp only
    split <;> simp [id @modNode_keep, id @takeDelay_keep]
  · unfold measureNodes
    apply foldl_husk
    intro s m
    dsimp only
    split <;> simp [id @modNode_keep, id @takeDelay_keep]
  · unfold measureNodes
    apply foldl_drv
    intro s m
    dsimp only
    split <;> simp [id @modNode_keep, id @takeDelay_keep]
  · unfold measureNodes
    apply foldl_krn
    intro s m
    dsimp only
    split <;> simp [id @modNode_keep, id @takeDelay_keep]
  · unfold measureNodes
    apply foldl_est
    intro s m
    dsimp only
    split <;> simp [id @modNode_keep, id @takeDelay_keep]
  · unfold measureNodes
    apply foldl_win
    intro s m
    dsimp only
    split <;> simp [id @modNode_keep, id @takeDelay_keep]
  · unfold measureNodes
    apply foldl_pairs
    intro s m
    dsimp only
    split <;> simp [id @modNode_keep, id @takeDelay_keep]
  · unfold measureNodes
    apply foldl_time
    intro s m
    dsimp only
    split <;> simp [id @modNode_keep, id @takeDelay_keep]
  · unfold measureNodes
    apply foldl_therm
    intro s m
    dsimp only
    split <;> simp [id @modNode_keep, id @takeDelay_keep]
  · unfold measureNodes
    apply foldl_nv
    intro s m
    dsimp only
    split <;> simp [id @modNode_keep, id @takeDelay_keep]
  · unfold measureNodes
    apply foldl_ledg
    intro s m
    dsimp only
    split <;> simp [id @modNode_keep, id @takeDelay_keep]
  · unfold measureNodes
    apply foldl_tally
    intro s m
    dsimp only
    split <;> simp [id @modNode_keep, id @takeDelay_keep]
  · unfold measureNodes
    apply foldl_host
    intro s m
    dsimp only
    split <;> simp [id @modNode_keep, id @takeDelay_keep]
  · unfold measureNodes
    apply foldl_sec
    intro s m
    dsimp only
    split <;> simp [id @modNode_keep, id @takeDelay_keep]
  · unfold measureNodes
    apply foldl_pwr
    intro s m
    dsimp only
    split <;> simp [id @modNode_keep, id @takeDelay_keep]
  · unfold measureNodes
    apply foldl_bist
    intro s m
    dsimp only
    split <;> simp [id @modNode_keep, id @takeDelay_keep]
  · unfold measureNodes
    apply foldl_pins
    intro s m
    dsimp only
    split <;> simp [id @modNode_keep, id @takeDelay_keep]
  · unfold measureNodes
    apply foldl_freeIx
    intro s m
    dsimp only
    split <;> simp [id @modNode_keep, id @takeDelay_keep]
  · unfold measureNodes
    apply foldl_pending
    intro s m
    dsimp only
    split <;> simp [id @modNode_keep, id @takeDelay_keep]
  · unfold measureNodes
    apply foldl_recd_held
    intro s m
    dsimp only
    split <;> simp [id @modNode_keep, id @takeDelay_keep]
  · unfold measureNodes
    apply foldl_evt_held
    intro s m
    dsimp only
    split <;> simp [id @modNode_keep, id @takeDelay_keep]

theorem assignRing_keep (r : Nat) (s : State) :
    (assignRing r s).sys = s.sys ∧
    (assignRing r s).img = s.img ∧
    (assignRing r s).cfg = s.cfg ∧
    (assignRing r s).acq = s.acq ∧
    (assignRing r s).cur = s.cur ∧
    (assignRing r s).husk = s.husk ∧
    (assignRing r s).drv = s.drv ∧
    (assignRing r s).krn = s.krn ∧
    (assignRing r s).est = s.est ∧
    (assignRing r s).win = s.win ∧
    (assignRing r s).pairs = s.pairs ∧
    (assignRing r s).time = s.time ∧
    (assignRing r s).therm = s.therm ∧
    (assignRing r s).nv = s.nv ∧
    (assignRing r s).ledg = s.ledg ∧
    (assignRing r s).tally = s.tally ∧
    (assignRing r s).recd = s.recd ∧
    (assignRing r s).host = s.host ∧
    (assignRing r s).sec = s.sec ∧
    (assignRing r s).pwr = s.pwr ∧
    (assignRing r s).bist = s.bist ∧
    (assignRing r s).evt = s.evt ∧
    (assignRing r s).pins = s.pins ∧
    (assignRing r s).freeIx = s.freeIx ∧
    (assignRing r s).pending = s.pending := by
  simp [assignRing, id @modNode_keep]

theorem topoCheckNode_keep (r : Nat) (s : State) (p : Nat) :
    (topoCheckNode r s p).sys = s.sys ∧
    (topoCheckNode r s p).img = s.img ∧
    (topoCheckNode r s p).cfg = s.cfg ∧
    (topoCheckNode r s p).ring = s.ring ∧
    (topoCheckNode r s p).acq = s.acq ∧
    (topoCheckNode r s p).cur = s.cur ∧
    (topoCheckNode r s p).husk = s.husk ∧
    (topoCheckNode r s p).drv = s.drv ∧
    (topoCheckNode r s p).krn = s.krn ∧
    (topoCheckNode r s p).est = s.est ∧
    (topoCheckNode r s p).win = s.win ∧
    (topoCheckNode r s p).pairs = s.pairs ∧
    (topoCheckNode r s p).time = s.time ∧
    (topoCheckNode r s p).therm = s.therm ∧
    (topoCheckNode r s p).nv = s.nv ∧
    (topoCheckNode r s p).ledg = s.ledg ∧
    (topoCheckNode r s p).tally = s.tally ∧
    (topoCheckNode r s p).host = s.host ∧
    (topoCheckNode r s p).sec = s.sec ∧
    (topoCheckNode r s p).pwr = s.pwr ∧
    (topoCheckNode r s p).bist = s.bist ∧
    (topoCheckNode r s p).pins = s.pins ∧
    (topoCheckNode r s p).freeIx = s.freeIx ∧
    (topoCheckNode r s p).pending = s.pending ∧
    (topoCheckNode r s p).recd.held = s.recd.held ∧
    (topoCheckNode r s p).evt.held = s.evt.held := by
  unfold topoCheckNode
  repeat' split
  all_goals simp [id @emitIf_keep]

theorem topoCheck_keep (r : Nat) (s : State) :
    (topoCheck r s).sys = s.sys ∧
    (topoCheck r s).img = s.img ∧
    (topoCheck r s).cfg = s.cfg ∧
    (topoCheck r s).ring = s.ring ∧
    (topoCheck r s).acq = s.acq ∧
    (topoCheck r s).cur = s.cur ∧
    (topoCheck r s).husk = s.husk ∧
    (topoCheck r s).drv = s.drv ∧
    (topoCheck r s).krn = s.krn ∧
    (topoCheck r s).est = s.est ∧
    (topoCheck r s).win = s.win ∧
    (topoCheck r s).pairs = s.pairs ∧
    (topoCheck r s).time = s.time ∧
    (topoCheck r s).therm = s.therm ∧
    (topoCheck r s).nv = s.nv ∧
    (topoCheck r s).ledg = s.ledg ∧
    (topoCheck r s).tally = s.tally ∧
    (topoCheck r s).host = s.host ∧
    (topoCheck r s).sec = s.sec ∧
    (topoCheck r s).pwr = s.pwr ∧
    (topoCheck r s).bist = s.bist ∧
    (topoCheck r s).pins = s.pins ∧
    (topoCheck r s).freeIx = s.freeIx ∧
    (topoCheck r s).pending = s.pending ∧
    (topoCheck r s).recd.held = s.recd.held ∧
    (topoCheck r s).evt.held = s.evt.held := by
  unfold topoCheck
  repeat' split
  all_goals simp [id @emit_keep, id @topoCheckNode_keep]

theorem execRingStart_keep {r : Nat} {s t : State} (h : execRingStart r s = .next t) :
    t.img = s.img ∧
    t.cfg = s.cfg ∧
    t.acq = s.acq ∧
    t.cur = s.cur ∧
    t.krn = s.krn ∧
    t.win = s.win ∧
    t.pairs = s.pairs ∧
    t.time = s.time ∧
    t.therm = s.therm ∧
    t.nv = s.nv ∧
    t.ledg = s.ledg ∧
    t.tally = s.tally ∧
    t.host = s.host ∧
    t.sec = s.sec ∧
    t.bist = s.bist ∧
    t.freeIx = s.freeIx ∧
    t.pending = s.pending ∧
    t.sys.held = s.sys.held ∧
    t.husk.held = s.husk.held ∧
    t.drv.held = s.drv.held ∧
    t.recd.held = s.recd.held ∧
    t.est.held = s.est.held ∧
    t.pwr.held = s.pwr.held ∧
    t.evt.held = s.evt.held ∧
    t.pins.held = s.pins.held := by
  have e := Host.Outcome.next.inj h
  subst e
  simp [id @modRing_keep, id @settle_keep]
  repeat' split
  all_goals simp [id @modRing_keep, id @settle_keep]

theorem execEnumTokenA_keep {r : Nat} {count : Nat} {returned : Bool} {s t : State} (h : execEnumTokenA r count returned s = .next t) :
    t.sys = s.sys ∧
    t.img = s.img ∧
    t.cfg = s.cfg ∧
    t.acq = s.acq ∧
    t.cur = s.cur ∧
    t.husk = s.husk ∧
    t.drv = s.drv ∧
    t.krn = s.krn ∧
    t.est = s.est ∧
    t.win = s.win ∧
    t.pairs = s.pairs ∧
    t.time = s.time ∧
    t.therm = s.therm ∧
    t.nv = s.nv ∧
    t.ledg = s.ledg ∧
    t.tally = s.tally ∧
    t.recd = s.recd ∧
    t.host = s.host ∧
    t.sec = s.sec ∧
    t.pwr = s.pwr ∧
    t.bist = s.bist ∧
    t.evt = s.evt ∧
    t.pins = s.pins ∧
    t.freeIx = s.freeIx ∧
    t.pending = s.pending := by
  have e := Host.Outcome.next.inj h
  subst e
  simp [id @modRing_keep]

theorem execEnumTokenB_keep {r : Nat} {count : Nat} {s t : State} (h : execEnumTokenB r count s = .next t) :
    t.sys = s.sys ∧
    t.img = s.img ∧
    t.cfg = s.cfg ∧
    t.acq = s.acq ∧
    t.cur = s.cur ∧
    t.husk = s.husk ∧
    t.drv = s.drv ∧
    t.krn = s.krn ∧
    t.est = s.est ∧
    t.win = s.win ∧
    t.pairs = s.pairs ∧
    t.time = s.time ∧
    t.therm = s.therm ∧
    t.nv = s.nv ∧
    t.ledg = s.ledg ∧
    t.tally = s.tally ∧
    t.recd = s.recd ∧
    t.host = s.host ∧
    t.sec = s.sec ∧
    t.pwr = s.pwr ∧
    t.bist = s.bist ∧
    t.evt = s.evt ∧
    t.pins = s.pins ∧
    t.freeIx = s.freeIx ∧
    t.pending = s.pending := by
  have e := Host.Outcome.next.inj h
  subst e
  simp [id @modRing_keep]

theorem enumFail_keep (r : Nat) (cause : Nat) (s : State) :
    (enumFail r cause s).img = s.img ∧
    (enumFail r cause s).cfg = s.cfg ∧
    (enumFail r cause s).acq = s.acq ∧
    (enumFail r cause s).cur = s.cur ∧
    (enumFail r cause s).krn = s.krn ∧
    (enumFail r cause s).win = s.win ∧
    (enumFail r cause s).pairs = s.pairs ∧
    (enumFail r cause s).time = s.time ∧
    (enumFail r cause s).therm = s.therm ∧
    (enumFail r cause s).nv = s.nv ∧
    (enumFail r cause s).ledg = s.ledg ∧
    (enumFail r cause s).tally = s.tally ∧
    (enumFail r cause s).host = s.host ∧
    (enumFail r cause s).sec = s.sec ∧
    (enumFail r cause s).bist = s.bist ∧
    (enumFail r cause s).freeIx = s.freeIx ∧
    (enumFail r cause s).pending = s.pending ∧
    (enumFail r cause s).sys.held = s.sys.held ∧
    (enumFail r cause s).husk.held = s.husk.held ∧
    (enumFail r cause s).drv.held = s.drv.held ∧
    (enumFail r cause s).recd.held = s.recd.held ∧
    (enumFail r cause s).est.held = s.est.held ∧
    (enumFail r cause s).pwr.held = s.pwr.held ∧
    (enumFail r cause s).evt.held = s.evt.held ∧
    (enumFail r cause s).pins.held = s.pins.held := by
  simp [enumFail, id @emit_keep, id @modRing_keep, id @settle_keep]

theorem putNodes_keep (r : Nat) (ps : List (Nat × NodeDesc)) (s : State) :
    (putNodes r ps s).sys = s.sys ∧
    (putNodes r ps s).img = s.img ∧
    (putNodes r ps s).cfg = s.cfg ∧
    (putNodes r ps s).acq = s.acq ∧
    (putNodes r ps s).cur = s.cur ∧
    (putNodes r ps s).husk = s.husk ∧
    (putNodes r ps s).drv = s.drv ∧
    (putNodes r ps s).krn = s.krn ∧
    (putNodes r ps s).est = s.est ∧
    (putNodes r ps s).win = s.win ∧
    (putNodes r ps s).pairs = s.pairs ∧
    (putNodes r ps s).time = s.time ∧
    (putNodes r ps s).therm = s.therm ∧
    (putNodes r ps s).nv = s.nv ∧
    (putNodes r ps s).ledg = s.ledg ∧
    (putNodes r ps s).tally = s.tally ∧
    (putNodes r ps s).recd = s.recd ∧
    (putNodes r ps s).host = s.host ∧
    (putNodes r ps s).sec = s.sec ∧
    (putNodes r ps s).pwr = s.pwr ∧
    (putNodes r ps s).bist = s.bist ∧
    (putNodes r ps s).evt = s.evt ∧
    (putNodes r ps s).pins = s.pins ∧
    (putNodes r ps s).freeIx = s.freeIx ∧
    (putNodes r ps s).pending = s.pending := by
  simp [putNodes, id @setNode_keep]

theorem enumBreaks_keep (r : Nat) (a : Nat) (b : Nat) (nr : Nat) (whole : Bool) (s : State) :
    (enumBreaks r a b nr whole s).sys = s.sys ∧
    (enumBreaks r a b nr whole s).img = s.img ∧
    (enumBreaks r a b nr whole s).cfg = s.cfg ∧
    (enumBreaks r a b nr whole s).acq = s.acq ∧
    (enumBreaks r a b nr whole s).cur = s.cur ∧
    (enumBreaks r a b nr whole s).husk = s.husk ∧
    (enumBreaks r a b nr whole s).drv = s.drv ∧
    (enumBreaks r a b nr whole s).krn = s.krn ∧
    (enumBreaks r a b nr whole s).est = s.est ∧
    (enumBreaks r a b nr whole s).win = s.win ∧
    (enumBreaks r a b nr whole s).pairs = s.pairs ∧
    (enumBreaks r a b nr whole s).time = s.time ∧
    (enumBreaks r a b nr whole s).therm = s.therm ∧
    (enumBreaks r a b nr whole s).nv = s.nv ∧
    (enumBreaks r a b nr whole s).ledg = s.ledg ∧
    (enumBreaks r a b nr whole s).tally = s.tally ∧
    (enumBreaks r a b nr whole s).host = s.host ∧
    (enumBreaks r a b nr whole s).sec = s.sec ∧
    (enumBreaks r a b nr whole s).pwr = s.pwr ∧
    (enumBreaks r a b nr whole s).bist = s.bist ∧
    (enumBreaks r a b nr whole s).pins = s.pins ∧
    (enumBreaks r a b nr whole s).freeIx = s.freeIx ∧
    (enumBreaks r a b nr whole s).pending = s.pending ∧
    (enumBreaks r a b nr whole s).recd.held = s.recd.held ∧
    (enumBreaks r a b nr whole s).evt.held = s.evt.held := by
  unfold enumBreaks
  repeat' split
  all_goals simp [id @emit_keep, id @modRing_keep]

theorem enumTopo_keep (r : Nat) (s : State) :
    (enumTopo r s).sys = s.sys ∧
    (enumTopo r s).img = s.img ∧
    (enumTopo r s).acq = s.acq ∧
    (enumTopo r s).cur = s.cur ∧
    (enumTopo r s).drv = s.drv ∧
    (enumTopo r s).krn = s.krn ∧
    (enumTopo r s).est = s.est ∧
    (enumTopo r s).win = s.win ∧
    (enumTopo r s).pairs = s.pairs ∧
    (enumTopo r s).time = s.time ∧
    (enumTopo r s).therm = s.therm ∧
    (enumTopo r s).nv = s.nv ∧
    (enumTopo r s).ledg = s.ledg ∧
    (enumTopo r s).tally = s.tally ∧
    (enumTopo r s).host = s.host ∧
    (enumTopo r s).sec = s.sec ∧
    (enumTopo r s).pwr = s.pwr ∧
    (enumTopo r s).bist = s.bist ∧
    (enumTopo r s).pins = s.pins ∧
    (enumTopo r s).freeIx = s.freeIx ∧
    (enumTopo r s).pending = s.pending ∧
    (enumTopo r s).recd.held = s.recd.held ∧
    (enumTopo r s).evt.held = s.evt.held := by
  unfold enumTopo
  repeat' split
  all_goals simp [id @assignRing_keep, id @sproutLoad_keep, id @topoCheck_keep]

theorem enumMap_keep (r : Nat) (complete : Bool) (s : State) :
    (enumMap r complete s).sys = s.sys ∧
    (enumMap r complete s).img = s.img ∧
    (enumMap r complete s).cfg = s.cfg ∧
    (enumMap r complete s).acq = s.acq ∧
    (enumMap r complete s).cur = s.cur ∧
    (enumMap r complete s).husk = s.husk ∧
    (enumMap r complete s).drv = s.drv ∧
    (enumMap r complete s).est = s.est ∧
    (enumMap r complete s).pairs = s.pairs ∧
    (enumMap r complete s).time = s.time ∧
    (enumMap r complete s).therm = s.therm ∧
    (enumMap r complete s).ledg = s.ledg ∧
    (enumMap r complete s).tally = s.tally ∧
    (enumMap r complete s).recd = s.recd ∧
    (enumMap r complete s).host = s.host ∧
    (enumMap r complete s).sec = s.sec ∧
    (enumMap r complete s).pwr = s.pwr ∧
    (enumMap r complete s).bist = s.bist ∧
    (enumMap r complete s).evt = s.evt ∧
    (enumMap r complete s).pins = s.pins ∧
    (enumMap r complete s).freeIx = s.freeIx ∧
    (enumMap r complete s).pending = s.pending := by
  simp [enumMap, id @modRing_keep, id @nvQueue_keep]

theorem enumAccept_keep (r : Nat) (ps : List (Nat × NodeDesc)) (whole : Bool) (placed : Bool) (a : Nat) (b : Nat) (nr : Nat) (s : State) :
    (enumAccept r ps whole placed a b nr s).img = s.img ∧
    (enumAccept r ps whole placed a b nr s).acq = s.acq ∧
    (enumAccept r ps whole placed a b nr s).cur = s.cur ∧
    (enumAccept r ps whole placed a b nr s).pairs = s.pairs ∧
    (enumAccept r ps whole placed a b nr s).time = s.time ∧
    (enumAccept r ps whole placed a b nr s).therm = s.therm ∧
    (enumAccept r ps whole placed a b nr s).ledg = s.ledg ∧
    (enumAccept r ps whole placed a b nr s).tally = s.tally ∧
    (enumAccept r ps whole placed a b nr s).host = s.host ∧
    (enumAccept r ps whole placed a b nr s).sec = s.sec ∧
    (enumAccept r ps whole placed a b nr s).bist = s.bist ∧
    (enumAccept r ps whole placed a b nr s).freeIx = s.freeIx ∧
    (enumAccept r ps whole placed a b nr s).pending = s.pending ∧
    (enumAccept r ps whole placed a b nr s).sys.held = s.sys.held ∧
    (enumAccept r ps whole placed a b nr s).drv.held = s.drv.held ∧
    (enumAccept r ps whole placed a b nr s).recd.held = s.recd.held ∧
    (enumAccept r ps whole placed a b nr s).est.held = s.est.held ∧
    (enumAccept r ps whole placed a b nr s).pwr.held = s.pwr.held ∧
    (enumAccept r ps whole placed a b nr s).evt.held = s.evt.held ∧
    (enumAccept r ps whole placed a b nr s).pins.held = s.pins.held := by
  unfold enumAccept
  repeat' split
  all_goals simp [id @emit_keep, id @enumBreaks_keep, id @enumMap_keep, id @enumTopo_keep, id @modRing_keep,
      id @putNodes_keep, id @reach_keep, id @settle_keep]

theorem execEnumRead_keep {r : Nat} {regs : List (List Byte)} {s t : State} (h : execEnumRead r regs s = .next t) :
    t.img = s.img ∧
    t.acq = s.acq ∧
    t.cur = s.cur ∧
    t.pairs = s.pairs ∧
    t.time = s.time ∧
    t.therm = s.therm ∧
    t.ledg = s.ledg ∧
    t.tally = s.tally ∧
    t.host = s.host ∧
    t.sec = s.sec ∧
    t.bist = s.bist ∧
    t.freeIx = s.freeIx ∧
    t.pending = s.pending ∧
    t.sys.held = s.sys.held ∧
    t.drv.held = s.drv.held ∧
    t.recd.held = s.recd.held ∧
    t.est.held = s.est.held ∧
    t.pwr.held = s.pwr.held ∧
    t.evt.held = s.evt.held ∧
    t.pins.held = s.pins.held := by
  have e := Host.Outcome.next.inj h
  subst e
  dsimp only
  repeat' split
  all_goals simp [id @enumAccept_keep, id @enumFail_keep, id @modRing_keep]

theorem execEnumMeasure_keep {r : Nat} {loop : Option (Nat × Nat)} {ms : List DelayMeas} {s t : State} (h : execEnumMeasure r loop ms s = .next t) :
    t.sys = s.sys ∧
    t.img = s.img ∧
    t.cfg = s.cfg ∧
    t.acq = s.acq ∧
    t.cur = s.cur ∧
    t.husk = s.husk ∧
    t.drv = s.drv ∧
    t.krn = s.krn ∧
    t.est = s.est ∧
    t.win = s.win ∧
    t.pairs = s.pairs ∧
    t.time = s.time ∧
    t.therm = s.therm ∧
    t.nv = s.nv ∧
    t.ledg = s.ledg ∧
    t.tally = s.tally ∧
    t.host = s.host ∧
    t.sec = s.sec ∧
    t.pwr = s.pwr ∧
    t.bist = s.bist ∧
    t.pins = s.pins ∧
    t.freeIx = s.freeIx ∧
    t.pending = s.pending ∧
    t.recd.held = s.recd.held ∧
    t.evt.held = s.evt.held := by
  have e := Host.Outcome.next.inj h
  subst e
  dsimp only
  repeat' split
  all_goals simp [id @measureNodes_keep, id @modNode_keep, id @modRing_keep, id @takeLoop_keep]

theorem challenge_keep (r : Nat) (p : Nat) (s : State) :
    (challenge r p s).sys = s.sys ∧
    (challenge r p s).img = s.img ∧
    (challenge r p s).cfg = s.cfg ∧
    (challenge r p s).acq = s.acq ∧
    (challenge r p s).cur = s.cur ∧
    (challenge r p s).husk = s.husk ∧
    (challenge r p s).drv = s.drv ∧
    (challenge r p s).krn = s.krn ∧
    (challenge r p s).est = s.est ∧
    (challenge r p s).win = s.win ∧
    (challenge r p s).pairs = s.pairs ∧
    (challenge r p s).time = s.time ∧
    (challenge r p s).therm = s.therm ∧
    (challenge r p s).nv = s.nv ∧
    (challenge r p s).ledg = s.ledg ∧
    (challenge r p s).tally = s.tally ∧
    (challenge r p s).recd = s.recd ∧
    (challenge r p s).host = s.host ∧
    (challenge r p s).sec = s.sec ∧
    (challenge r p s).pwr = s.pwr ∧
    (challenge r p s).bist = s.bist ∧
    (challenge r p s).evt = s.evt ∧
    (challenge r p s).pins = s.pins ∧
    (challenge r p s).pending = s.pending := by
  simp [challenge, id @modNode_keep, id @takeFree_keep]

theorem challengeGap_keep (r : Nat) (p : Nat) (s : State) :
    (challengeGap r p s).sys = s.sys ∧
    (challengeGap r p s).img = s.img ∧
    (challengeGap r p s).cfg = s.cfg ∧
    (challengeGap r p s).acq = s.acq ∧
    (challengeGap r p s).cur = s.cur ∧
    (challengeGap r p s).husk = s.husk ∧
    (challengeGap r p s).drv = s.drv ∧
    (challengeGap r p s).krn = s.krn ∧
    (challengeGap r p s).est = s.est ∧
    (challengeGap r p s).win = s.win ∧
    (challengeGap r p s).pairs = s.pairs ∧
    (challengeGap r p s).time = s.time ∧
    (challengeGap r p s).therm = s.therm ∧
    (challengeGap r p s).nv = s.nv ∧
    (challengeGap r p s).ledg = s.ledg ∧
    (challengeGap r p s).tally = s.tally ∧
    (challengeGap r p s).recd = s.recd ∧
    (challengeGap r p s).host = s.host ∧
    (challengeGap r p s).sec = s.sec ∧
    (challengeGap r p s).pwr = s.pwr ∧
    (challengeGap r p s).bist = s.bist ∧
    (challengeGap r p s).evt = s.evt ∧
    (challengeGap r p s).pins = s.pins ∧
    (challengeGap r p s).pending = s.pending := by
  simp [challengeGap, id @challenge_keep, id @mgmtPush_keep, id @modNode_keep]

theorem authPass_keep (r : Nat) (p : Nat) (s : State) :
    (authPass r p s).sys = s.sys ∧
    (authPass r p s).img = s.img ∧
    (authPass r p s).cfg = s.cfg ∧
    (authPass r p s).acq = s.acq ∧
    (authPass r p s).cur = s.cur ∧
    (authPass r p s).husk = s.husk ∧
    (authPass r p s).drv = s.drv ∧
    (authPass r p s).krn = s.krn ∧
    (authPass r p s).est = s.est ∧
    (authPass r p s).win = s.win ∧
    (authPass r p s).pairs = s.pairs ∧
    (authPass r p s).time = s.time ∧
    (authPass r p s).therm = s.therm ∧
    (authPass r p s).nv = s.nv ∧
    (authPass r p s).ledg = s.ledg ∧
    (authPass r p s).tally = s.tally ∧
    (authPass r p s).recd = s.recd ∧
    (authPass r p s).host = s.host ∧
    (authPass r p s).pwr = s.pwr ∧
    (authPass r p s).bist = s.bist ∧
    (authPass r p s).evt = s.evt ∧
    (authPass r p s).pins = s.pins ∧
    (authPass r p s).freeIx = s.freeIx ∧
    (authPass r p s).pending = s.pending ∧
    (authPass r p s).sec.mid = s.sec.mid ∧
    (authPass r p s).sec.devKey = s.sec.devKey := by
  simp [authPass, id @modNode_keep]

theorem keyAbsent_keep (i : Nat) (s : State) :
    (keyAbsent i s).sys = s.sys ∧
    (keyAbsent i s).img = s.img ∧
    (keyAbsent i s).cfg = s.cfg ∧
    (keyAbsent i s).ring = s.ring ∧
    (keyAbsent i s).acq = s.acq ∧
    (keyAbsent i s).cur = s.cur ∧
    (keyAbsent i s).husk = s.husk ∧
    (keyAbsent i s).drv = s.drv ∧
    (keyAbsent i s).krn = s.krn ∧
    (keyAbsent i s).est = s.est ∧
    (keyAbsent i s).win = s.win ∧
    (keyAbsent i s).pairs = s.pairs ∧
    (keyAbsent i s).time = s.time ∧
    (keyAbsent i s).therm = s.therm ∧
    (keyAbsent i s).nv = s.nv ∧
    (keyAbsent i s).ledg = s.ledg ∧
    (keyAbsent i s).tally = s.tally ∧
    (keyAbsent i s).host = s.host ∧
    (keyAbsent i s).pwr = s.pwr ∧
    (keyAbsent i s).bist = s.bist ∧
    (keyAbsent i s).pins = s.pins ∧
    (keyAbsent i s).freeIx = s.freeIx ∧
    (keyAbsent i s).pending = s.pending ∧
    (keyAbsent i s).sec.mid = s.sec.mid ∧
    (keyAbsent i s).sec.devKey = s.sec.devKey ∧
    (keyAbsent i s).recd.held = s.recd.held ∧
    (keyAbsent i s).evt.held = s.evt.held := by
  unfold keyAbsent
  repeat' split
  all_goals simp [id @emit_keep]

theorem authFail_keep (occ : Nat) (r : Nat) (p : Nat) (s : State) :
    (authFail occ r p s).sys = s.sys ∧
    (authFail occ r p s).img = s.img ∧
    (authFail occ r p s).cfg = s.cfg ∧
    (authFail occ r p s).acq = s.acq ∧
    (authFail occ r p s).cur = s.cur ∧
    (authFail occ r p s).krn = s.krn ∧
    (authFail occ r p s).est = s.est ∧
    (authFail occ r p s).win = s.win ∧
    (authFail occ r p s).pairs = s.pairs ∧
    (authFail occ r p s).time = s.time ∧
    (authFail occ r p s).therm = s.therm ∧
    (authFail occ r p s).ledg = s.ledg ∧
    (authFail occ r p s).tally = s.tally ∧
    (authFail occ r p s).host = s.host ∧
    (authFail occ r p s).sec = s.sec ∧
    (authFail occ r p s).pwr = s.pwr ∧
    (authFail occ r p s).bist = s.bist ∧
    (authFail occ r p s).pins = s.pins ∧
    (authFail occ r p s).freeIx = s.freeIx ∧
    (authFail occ r p s).pending = s.pending ∧
    (authFail occ r p s).drv.held = s.drv.held ∧
    (authFail occ r p s).recd.held = s.recd.held ∧
    (authFail occ r p s).evt.held = s.evt.held := by
  simp only [authFail]
  repeat' split
  all_goals simp [id @emit_keep, id @modNode_keep, id @tripSet_keep]

theorem countFail_keep (s : State) :
    (countFail s).sys = s.sys ∧
    (countFail s).img = s.img ∧
    (countFail s).cfg = s.cfg ∧
    (countFail s).ring = s.ring ∧
    (countFail s).acq = s.acq ∧
    (countFail s).cur = s.cur ∧
    (countFail s).husk = s.husk ∧
    (countFail s).drv = s.drv ∧
    (countFail s).krn = s.krn ∧
    (countFail s).est = s.est ∧
    (countFail s).win = s.win ∧
    (countFail s).pairs = s.pairs ∧
    (countFail s).time = s.time ∧
    (countFail s).therm = s.therm ∧
    (countFail s).nv = s.nv ∧
    (countFail s).ledg = s.ledg ∧
    (countFail s).tally = s.tally ∧
    (countFail s).recd = s.recd ∧
    (countFail s).host = s.host ∧
    (countFail s).pwr = s.pwr ∧
    (countFail s).bist = s.bist ∧
    (countFail s).evt = s.evt ∧
    (countFail s).pins = s.pins ∧
    (countFail s).freeIx = s.freeIx ∧
    (countFail s).pending = s.pending ∧
    (countFail s).sec.mid = s.sec.mid ∧
    (countFail s).sec.devKey = s.sec.devKey := by
  simp [countFail]

theorem authNode_keep (occ : Nat) (r : Nat) (s : State) (a : AuthResp) :
    (authNode occ r s a).sys = s.sys ∧
    (authNode occ r s a).img = s.img ∧
    (authNode occ r s a).cfg = s.cfg ∧
    (authNode occ r s a).acq = s.acq ∧
    (authNode occ r s a).cur = s.cur ∧
    (authNode occ r s a).krn = s.krn ∧
    (authNode occ r s a).est = s.est ∧
    (authNode occ r s a).win = s.win ∧
    (authNode occ r s a).pairs = s.pairs ∧
    (authNode occ r s a).time = s.time ∧
    (authNode occ r s a).therm = s.therm ∧
    (authNode occ r s a).ledg = s.ledg ∧
    (authNode occ r s a).tally = s.tally ∧
    (authNode occ r s a).host = s.host ∧
    (authNode occ r s a).pwr = s.pwr ∧
    (authNode occ r s a).bist = s.bist ∧
    (authNode occ r s a).pins = s.pins ∧
    (authNode occ r s a).pending = s.pending ∧
    (authNode occ r s a).sec.mid = s.sec.mid ∧
    (authNode occ r s a).sec.devKey = s.sec.devKey ∧
    (authNode occ r s a).drv.held = s.drv.held ∧
    (authNode occ r s a).recd.held = s.recd.held ∧
    (authNode occ r s a).evt.held = s.evt.held := by
  simp only [authNode]
  repeat' split
  all_goals simp [id @authFail_keep, id @authPass_keep, id @challenge_keep, id @countFail_keep, id @keyAbsent_keep,
      id @modNode_keep]

theorem pairRewrite_keep (i : Nat) (r : Nat) (p : Nat) (s : State) :
    (pairRewrite i r p s).sys = s.sys ∧
    (pairRewrite i r p s).img = s.img ∧
    (pairRewrite i r p s).cfg = s.cfg ∧
    (pairRewrite i r p s).acq = s.acq ∧
    (pairRewrite i r p s).cur = s.cur ∧
    (pairRewrite i r p s).husk = s.husk ∧
    (pairRewrite i r p s).drv = s.drv ∧
    (pairRewrite i r p s).est = s.est ∧
    (pairRewrite i r p s).pairs = s.pairs ∧
    (pairRewrite i r p s).time = s.time ∧
    (pairRewrite i r p s).therm = s.therm ∧
    (pairRewrite i r p s).tally = s.tally ∧
    (pairRewrite i r p s).recd = s.recd ∧
    (pairRewrite i r p s).host = s.host ∧
    (pairRewrite i r p s).sec = s.sec ∧
    (pairRewrite i r p s).pwr = s.pwr ∧
    (pairRewrite i r p s).bist = s.bist ∧
    (pairRewrite i r p s).evt = s.evt ∧
    (pairRewrite i r p s).pins = s.pins ∧
    (pairRewrite i r p s).freeIx = s.freeIx ∧
    (pairRewrite i r p s).pending = s.pending := by
  simp [pairRewrite, id @pairWrite_keep, id @podAsk_keep]

theorem pairCheck_keep (r : Nat) (s : State) (a : AuthResp) :
    (pairCheck r s a).sys = s.sys ∧
    (pairCheck r s a).img = s.img ∧
    (pairCheck r s a).cfg = s.cfg ∧
    (pairCheck r s a).acq = s.acq ∧
    (pairCheck r s a).cur = s.cur ∧
    (pairCheck r s a).husk = s.husk ∧
    (pairCheck r s a).drv = s.drv ∧
    (pairCheck r s a).krn = s.krn ∧
    (pairCheck r s a).est = s.est ∧
    (pairCheck r s a).win = s.win ∧
    (pairCheck r s a).pairs = s.pairs ∧
    (pairCheck r s a).time = s.time ∧
    (pairCheck r s a).therm = s.therm ∧
    (pairCheck r s a).nv = s.nv ∧
    (pairCheck r s a).ledg = s.ledg ∧
    (pairCheck r s a).tally = s.tally ∧
    (pairCheck r s a).host = s.host ∧
    (pairCheck r s a).sec = s.sec ∧
    (pairCheck r s a).pwr = s.pwr ∧
    (pairCheck r s a).bist = s.bist ∧
    (pairCheck r s a).pins = s.pins ∧
    (pairCheck r s a).freeIx = s.freeIx ∧
    (pairCheck r s a).pending = s.pending ∧
    (pairCheck r s a).recd.held = s.recd.held ∧
    (pairCheck r s a).evt.held = s.evt.held := by
  simp only [pairCheck]
  repeat' split
  all_goals simp [id @emit_keep, id @emitIf_keep, id @modNode_keep]

theorem pairMend_keep (r : Nat) (s : State) (a : AuthResp) :
    (pairMend r s a).sys = s.sys ∧
    (pairMend r s a).img = s.img ∧
    (pairMend r s a).cfg = s.cfg ∧
    (pairMend r s a).acq = s.acq ∧
    (pairMend r s a).cur = s.cur ∧
    (pairMend r s a).husk = s.husk ∧
    (pairMend r s a).drv = s.drv ∧
    (pairMend r s a).est = s.est ∧
    (pairMend r s a).pairs = s.pairs ∧
    (pairMend r s a).time = s.time ∧
    (pairMend r s a).therm = s.therm ∧
    (pairMend r s a).tally = s.tally ∧
    (pairMend r s a).recd = s.recd ∧
    (pairMend r s a).host = s.host ∧
    (pairMend r s a).sec = s.sec ∧
    (pairMend r s a).pwr = s.pwr ∧
    (pairMend r s a).bist = s.bist ∧
    (pairMend r s a).evt = s.evt ∧
    (pairMend r s a).pins = s.pins ∧
    (pairMend r s a).freeIx = s.freeIx ∧
    (pairMend r s a).pending = s.pending := by
  unfold pairMend
  repeat' split
  all_goals simp [id @pairRewrite_keep]

theorem podForeignOne_keep (s : State) (i : Nat) :
    (podForeignOne s i).sys = s.sys ∧
    (podForeignOne s i).img = s.img ∧
    (podForeignOne s i).cfg = s.cfg ∧
    (podForeignOne s i).ring = s.ring ∧
    (podForeignOne s i).acq = s.acq ∧
    (podForeignOne s i).cur = s.cur ∧
    (podForeignOne s i).husk = s.husk ∧
    (podForeignOne s i).drv = s.drv ∧
    (podForeignOne s i).krn = s.krn ∧
    (podForeignOne s i).est = s.est ∧
    (podForeignOne s i).win = s.win ∧
    (podForeignOne s i).pairs = s.pairs ∧
    (podForeignOne s i).time = s.time ∧
    (podForeignOne s i).therm = s.therm ∧
    (podForeignOne s i).nv = s.nv ∧
    (podForeignOne s i).tally = s.tally ∧
    (podForeignOne s i).host = s.host ∧
    (podForeignOne s i).sec = s.sec ∧
    (podForeignOne s i).pwr = s.pwr ∧
    (podForeignOne s i).bist = s.bist ∧
    (podForeignOne s i).pins = s.pins ∧
    (podForeignOne s i).freeIx = s.freeIx ∧
    (podForeignOne s i).pending = s.pending ∧
    (podForeignOne s i).recd.held = s.recd.held ∧
    (podForeignOne s i).evt.held = s.evt.held := by
  unfold podForeignOne
  repeat' split
  all_goals simp [id @emit_keep]

theorem podForeignCheck_keep (s : State) :
    (podForeignCheck s).sys = s.sys ∧
    (podForeignCheck s).img = s.img ∧
    (podForeignCheck s).cfg = s.cfg ∧
    (podForeignCheck s).ring = s.ring ∧
    (podForeignCheck s).acq = s.acq ∧
    (podForeignCheck s).cur = s.cur ∧
    (podForeignCheck s).husk = s.husk ∧
    (podForeignCheck s).drv = s.drv ∧
    (podForeignCheck s).krn = s.krn ∧
    (podForeignCheck s).est = s.est ∧
    (podForeignCheck s).win = s.win ∧
    (podForeignCheck s).pairs = s.pairs ∧
    (podForeignCheck s).time = s.time ∧
    (podForeignCheck s).therm = s.therm ∧
    (podForeignCheck s).nv = s.nv ∧
    (podForeignCheck s).tally = s.tally ∧
    (podForeignCheck s).host = s.host ∧
    (podForeignCheck s).sec = s.sec ∧
    (podForeignCheck s).pwr = s.pwr ∧
    (podForeignCheck s).bist = s.bist ∧
    (podForeignCheck s).pins = s.pins ∧
    (podForeignCheck s).freeIx = s.freeIx ∧
    (podForeignCheck s).pending = s.pending ∧
    (podForeignCheck s).recd.held = s.recd.held ∧
    (podForeignCheck s).evt.held = s.evt.held := by
  simp [podForeignCheck, id @podForeignOne_keep]

theorem authAll_keep (occ : Nat) (r : Nat) (as : List AuthResp) (s : State) :
    (authAll occ r as s).sys = s.sys ∧
    (authAll occ r as s).img = s.img ∧
    (authAll occ r as s).cfg = s.cfg ∧
    (authAll occ r as s).acq = s.acq ∧
    (authAll occ r as s).cur = s.cur ∧
    (authAll occ r as s).est = s.est ∧
    (authAll occ r as s).pairs = s.pairs ∧
    (authAll occ r as s).time = s.time ∧
    (authAll occ r as s).therm = s.therm ∧
    (authAll occ r as s).tally = s.tally ∧
    (authAll occ r as s).host = s.host ∧
    (authAll occ r as s).pwr = s.pwr ∧
    (authAll occ r as s).bist = s.bist ∧
    (authAll occ r as s).pins = s.pins ∧
    (authAll occ r as s).pending = s.pending ∧
    (authAll occ r as s).sec.mid = s.sec.mid ∧
    (authAll occ r as s).sec.devKey = s.sec.devKey ∧
    (authAll occ r as s).drv.held = s.drv.held ∧
    (authAll occ r as s).recd.held = s.recd.held ∧
    (authAll occ r as s).evt.held = s.evt.held := by
  simp [authAll, id @authNode_keep, id @pairCheck_keep, id @pairMend_keep, id @podForeignCheck_keep]

theorem execEnumAuthenticate_keep {r : Nat} {as : List AuthResp} {s t : State} (h : execEnumAuthenticate r as s = .next t) :
    t.img = s.img ∧
    t.cfg = s.cfg ∧
    t.acq = s.acq ∧
    t.cur = s.cur ∧
    t.pairs = s.pairs ∧
    t.time = s.time ∧
    t.therm = s.therm ∧
    t.tally = s.tally ∧
    t.host = s.host ∧
    t.bist = s.bist ∧
    t.pending = s.pending ∧
    t.sec.mid = s.sec.mid ∧
    t.sec.devKey = s.sec.devKey ∧
    t.sys.held = s.sys.held ∧
    t.drv.held = s.drv.held ∧
    t.recd.held = s.recd.held ∧
    t.est.held = s.est.held ∧
    t.pwr.held = s.pwr.held ∧
    t.evt.held = s.evt.held ∧
    t.pins.held = s.pins.held := by
  have e := Host.Outcome.next.inj h
  subst e
  simp [id @authAll_keep, id @modRing_keep, id @settle_keep]
  repeat' split
  all_goals simp [id @authAll_keep, id @modRing_keep, id @settle_keep]

theorem execEnumFirstTrig_keep {r : Nat} {s t : State} (h : execEnumFirstTrig r s = .next t) :
    t.img = s.img ∧
    t.cfg = s.cfg ∧
    t.acq = s.acq ∧
    t.cur = s.cur ∧
    t.krn = s.krn ∧
    t.win = s.win ∧
    t.pairs = s.pairs ∧
    t.time = s.time ∧
    t.therm = s.therm ∧
    t.nv = s.nv ∧
    t.ledg = s.ledg ∧
    t.tally = s.tally ∧
    t.host = s.host ∧
    t.sec = s.sec ∧
    t.bist = s.bist ∧
    t.freeIx = s.freeIx ∧
    t.pending = s.pending ∧
    t.sys.held = s.sys.held ∧
    t.husk.held = s.husk.held ∧
    t.drv.held = s.drv.held ∧
    t.recd.held = s.recd.held ∧
    t.est.held = s.est.held ∧
    t.pwr.held = s.pwr.held ∧
    t.evt.held = s.evt.held ∧
    t.pins.held = s.pins.held := by
  have e := Host.Outcome.next.inj h
  subst e
  simp [id @modRing_keep, id @reach_keep, id @settle_keep]
  repeat' split
  all_goals simp [id @modRing_keep, id @reach_keep, id @settle_keep]

theorem ringEnumRequest_keep (r : Nat) (s : State) :
    (ringEnumRequest r s).img = s.img ∧
    (ringEnumRequest r s).cfg = s.cfg ∧
    (ringEnumRequest r s).acq = s.acq ∧
    (ringEnumRequest r s).cur = s.cur ∧
    (ringEnumRequest r s).krn = s.krn ∧
    (ringEnumRequest r s).win = s.win ∧
    (ringEnumRequest r s).pairs = s.pairs ∧
    (ringEnumRequest r s).time = s.time ∧
    (ringEnumRequest r s).therm = s.therm ∧
    (ringEnumRequest r s).nv = s.nv ∧
    (ringEnumRequest r s).ledg = s.ledg ∧
    (ringEnumRequest r s).tally = s.tally ∧
    (ringEnumRequest r s).host = s.host ∧
    (ringEnumRequest r s).sec = s.sec ∧
    (ringEnumRequest r s).bist = s.bist ∧
    (ringEnumRequest r s).freeIx = s.freeIx ∧
    (ringEnumRequest r s).pending = s.pending ∧
    (ringEnumRequest r s).sys.held = s.sys.held ∧
    (ringEnumRequest r s).husk.held = s.husk.held ∧
    (ringEnumRequest r s).drv.held = s.drv.held ∧
    (ringEnumRequest r s).recd.held = s.recd.held ∧
    (ringEnumRequest r s).est.held = s.est.held ∧
    (ringEnumRequest r s).pwr.held = s.pwr.held ∧
    (ringEnumRequest r s).evt.held = s.evt.held ∧
    (ringEnumRequest r s).pins.held = s.pins.held := by
  unfold ringEnumRequest
  repeat' split
  all_goals simp [id @modRing_keep, id @settle_keep]

theorem ringMeasRequest_keep (r : Nat) (s : State) :
    (ringMeasRequest r s).sys = s.sys ∧
    (ringMeasRequest r s).img = s.img ∧
    (ringMeasRequest r s).cfg = s.cfg ∧
    (ringMeasRequest r s).acq = s.acq ∧
    (ringMeasRequest r s).cur = s.cur ∧
    (ringMeasRequest r s).husk = s.husk ∧
    (ringMeasRequest r s).drv = s.drv ∧
    (ringMeasRequest r s).krn = s.krn ∧
    (ringMeasRequest r s).est = s.est ∧
    (ringMeasRequest r s).win = s.win ∧
    (ringMeasRequest r s).pairs = s.pairs ∧
    (ringMeasRequest r s).time = s.time ∧
    (ringMeasRequest r s).therm = s.therm ∧
    (ringMeasRequest r s).nv = s.nv ∧
    (ringMeasRequest r s).ledg = s.ledg ∧
    (ringMeasRequest r s).tally = s.tally ∧
    (ringMeasRequest r s).recd = s.recd ∧
    (ringMeasRequest r s).host = s.host ∧
    (ringMeasRequest r s).sec = s.sec ∧
    (ringMeasRequest r s).pwr = s.pwr ∧
    (ringMeasRequest r s).bist = s.bist ∧
    (ringMeasRequest r s).evt = s.evt ∧
    (ringMeasRequest r s).pins = s.pins ∧
    (ringMeasRequest r s).freeIx = s.freeIx ∧
    (ringMeasRequest r s).pending = s.pending := by
  simp [ringMeasRequest, id @modRing_keep]

theorem execCollectSend_keep {r : Nat} {s t : State} (h : execCollectSend r s = .next t) :
    t.sys = s.sys ∧
    t.img = s.img ∧
    t.cfg = s.cfg ∧
    t.acq = s.acq ∧
    t.cur = s.cur ∧
    t.husk = s.husk ∧
    t.drv = s.drv ∧
    t.krn = s.krn ∧
    t.est = s.est ∧
    t.win = s.win ∧
    t.pairs = s.pairs ∧
    t.time = s.time ∧
    t.therm = s.therm ∧
    t.nv = s.nv ∧
    t.ledg = s.ledg ∧
    t.tally = s.tally ∧
    t.host = s.host ∧
    t.sec = s.sec ∧
    t.pwr = s.pwr ∧
    t.bist = s.bist ∧
    t.pins = s.pins ∧
    t.freeIx = s.freeIx ∧
    t.pending = s.pending ∧
    t.recd.held = s.recd.held ∧
    t.evt.held = s.evt.held := by
  have e := Host.Outcome.next.inj h
  subst e
  dsimp only
  repeat' split
  all_goals simp [id @emitIf_keep, id @modRing_keep]

theorem breakSeen_keep (r : Nat) (segs : List Nat) (s : State) :
    (breakSeen r segs s).sys = s.sys ∧
    (breakSeen r segs s).img = s.img ∧
    (breakSeen r segs s).cfg = s.cfg ∧
    (breakSeen r segs s).acq = s.acq ∧
    (breakSeen r segs s).cur = s.cur ∧
    (breakSeen r segs s).husk = s.husk ∧
    (breakSeen r segs s).drv = s.drv ∧
    (breakSeen r segs s).krn = s.krn ∧
    (breakSeen r segs s).est = s.est ∧
    (breakSeen r segs s).win = s.win ∧
    (breakSeen r segs s).pairs = s.pairs ∧
    (breakSeen r segs s).time = s.time ∧
    (breakSeen r segs s).therm = s.therm ∧
    (breakSeen r segs s).nv = s.nv ∧
    (breakSeen r segs s).ledg = s.ledg ∧
    (breakSeen r segs s).tally = s.tally ∧
    (breakSeen r segs s).host = s.host ∧
    (breakSeen r segs s).sec = s.sec ∧
    (breakSeen r segs s).pwr = s.pwr ∧
    (breakSeen r segs s).bist = s.bist ∧
    (breakSeen r segs s).pins = s.pins ∧
    (breakSeen r segs s).freeIx = s.freeIx ∧
    (breakSeen r segs s).pending = s.pending ∧
    (breakSeen r segs s).recd.held = s.recd.held ∧
    (breakSeen r segs s).evt.held = s.evt.held := by
  simp only [breakSeen]
  repeat' split
  all_goals simp [id @emit_keep, id @modRing_keep]

theorem setAlarm_keep (r : Nat) (p : Nat) (kind : Nat) (v : Bool) (s : State) :
    (setAlarm r p kind v s).sys = s.sys ∧
    (setAlarm r p kind v s).img = s.img ∧
    (setAlarm r p kind v s).cfg = s.cfg ∧
    (setAlarm r p kind v s).ring = s.ring ∧
    (setAlarm r p kind v s).acq = s.acq ∧
    (setAlarm r p kind v s).cur = s.cur ∧
    (setAlarm r p kind v s).drv = s.drv ∧
    (setAlarm r p kind v s).krn = s.krn ∧
    (setAlarm r p kind v s).est = s.est ∧
    (setAlarm r p kind v s).win = s.win ∧
    (setAlarm r p kind v s).pairs = s.pairs ∧
    (setAlarm r p kind v s).time = s.time ∧
    (setAlarm r p kind v s).therm = s.therm ∧
    (setAlarm r p kind v s).nv = s.nv ∧
    (setAlarm r p kind v s).ledg = s.ledg ∧
    (setAlarm r p kind v s).tally = s.tally ∧
    (setAlarm r p kind v s).recd = s.recd ∧
    (setAlarm r p kind v s).host = s.host ∧
    (setAlarm r p kind v s).sec = s.sec ∧
    (setAlarm r p kind v s).pwr = s.pwr ∧
    (setAlarm r p kind v s).bist = s.bist ∧
    (setAlarm r p kind v s).evt = s.evt ∧
    (setAlarm r p kind v s).pins = s.pins ∧
    (setAlarm r p kind v s).freeIx = s.freeIx ∧
    (setAlarm r p kind v s).pending = s.pending := by
  simp [setAlarm]

theorem alarmClear_keep (r : Nat) (p : Nat) (stat : Byte) (s : State) :
    (alarmClear r p stat s).sys = s.sys ∧
    (alarmClear r p stat s).img = s.img ∧
    (alarmClear r p stat s).cfg = s.cfg ∧
    (alarmClear r p stat s).ring = s.ring ∧
    (alarmClear r p stat s).acq = s.acq ∧
    (alarmClear r p stat s).cur = s.cur ∧
    (alarmClear r p stat s).drv = s.drv ∧
    (alarmClear r p stat s).krn = s.krn ∧
    (alarmClear r p stat s).est = s.est ∧
    (alarmClear r p stat s).win = s.win ∧
    (alarmClear r p stat s).pairs = s.pairs ∧
    (alarmClear r p stat s).time = s.time ∧
    (alarmClear r p stat s).therm = s.therm ∧
    (alarmClear r p stat s).nv = s.nv ∧
    (alarmClear r p stat s).ledg = s.ledg ∧
    (alarmClear r p stat s).tally = s.tally ∧
    (alarmClear r p stat s).recd = s.recd ∧
    (alarmClear r p stat s).host = s.host ∧
    (alarmClear r p stat s).sec = s.sec ∧
    (alarmClear r p stat s).pwr = s.pwr ∧
    (alarmClear r p stat s).bist = s.bist ∧
    (alarmClear r p stat s).evt = s.evt ∧
    (alarmClear r p stat s).pins = s.pins ∧
    (alarmClear r p stat s).freeIx = s.freeIx ∧
    (alarmClear r p stat s).pending = s.pending := by
  simp [alarmClear, id @setAlarm_keep]

theorem slotTake_keep (r : Nat) (p : Nat) (portB : Bool) (turn : Option Nat) (d : SlotData) (s : State) :
    (slotTake r p portB turn d s).img = s.img ∧
    (slotTake r p portB turn d s).cfg = s.cfg ∧
    (slotTake r p portB turn d s).acq = s.acq ∧
    (slotTake r p portB turn d s).cur = s.cur ∧
    (slotTake r p portB turn d s).krn = s.krn ∧
    (slotTake r p portB turn d s).win = s.win ∧
    (slotTake r p portB turn d s).pairs = s.pairs ∧
    (slotTake r p portB turn d s).time = s.time ∧
    (slotTake r p portB turn d s).therm = s.therm ∧
    (slotTake r p portB turn d s).nv = s.nv ∧
    (slotTake r p portB turn d s).ledg = s.ledg ∧
    (slotTake r p portB turn d s).tally = s.tally ∧
    (slotTake r p portB turn d s).host = s.host ∧
    (slotTake r p portB turn d s).sec = s.sec ∧
    (slotTake r p portB turn d s).bist = s.bist ∧
    (slotTake r p portB turn d s).freeIx = s.freeIx ∧
    (slotTake r p portB turn d s).pending = s.pending ∧
    (slotTake r p portB turn d s).sys.held = s.sys.held ∧
    (slotTake r p portB turn d s).drv.held = s.drv.held ∧
    (slotTake r p portB turn d s).recd.held = s.recd.held ∧
    (slotTake r p portB turn d s).est.held = s.est.held ∧
    (slotTake r p portB turn d s).pwr.held = s.pwr.held ∧
    (slotTake r p portB turn d s).evt.held = s.evt.held ∧
    (slotTake r p portB turn d s).pins.held = s.pins.held := by
  simp [slotTake, id @alarmClear_keep, id @breakSeen_keep, id @modNode_keep, id @settle_keep]

theorem execCollectSlotReceive_keep {r : Nat} {portB : Bool} {bytes : List Byte} {turn : Option Nat} {s t : State} (h : execCollectSlotReceive r portB bytes turn s = .next t) :
    t.img = s.img ∧
    t.cfg = s.cfg ∧
    t.acq = s.acq ∧
    t.cur = s.cur ∧
    t.krn = s.krn ∧
    t.win = s.win ∧
    t.pairs = s.pairs ∧
    t.time = s.time ∧
    t.therm = s.therm ∧
    t.nv = s.nv ∧
    t.ledg = s.ledg ∧
    t.tally = s.tally ∧
    t.host = s.host ∧
    t.sec = s.sec ∧
    t.bist = s.bist ∧
    t.freeIx = s.freeIx ∧
    t.pending = s.pending ∧
    t.sys.held = s.sys.held ∧
    t.drv.held = s.drv.held ∧
    t.recd.held = s.recd.held ∧
    t.est.held = s.est.held ∧
    t.pwr.held = s.pwr.held ∧
    t.evt.held = s.evt.held ∧
    t.pins.held = s.pins.held := by
  have e := Host.Outcome.next.inj h
  subst e
  simp [id @portErr_keep, id @settle_keep, id @slotTake_keep]
  repeat' split
  all_goals simp [id @portErr_keep, id @settle_keep, id @slotTake_keep]

theorem execAlarmReceive_keep {r : Nat} {portB : Bool} {a : Byte} {na : Byte} {s t : State} (h : execAlarmReceive r portB a na s = .next t) :
    t.img = s.img ∧
    t.cfg = s.cfg ∧
    t.acq = s.acq ∧
    t.cur = s.cur ∧
    t.krn = s.krn ∧
    t.win = s.win ∧
    t.pairs = s.pairs ∧
    t.time = s.time ∧
    t.therm = s.therm ∧
    t.nv = s.nv ∧
    t.ledg = s.ledg ∧
    t.tally = s.tally ∧
    t.host = s.host ∧
    t.sec = s.sec ∧
    t.bist = s.bist ∧
    t.freeIx = s.freeIx ∧
    t.pending = s.pending ∧
    t.sys.held = s.sys.held ∧
    t.drv.held = s.drv.held ∧
    t.recd.held = s.recd.held ∧
    t.est.held = s.est.held ∧
    t.pwr.held = s.pwr.held ∧
    t.evt.held = s.evt.held ∧
    t.pins.held = s.pins.held := by
  have e := Host.Outcome.next.inj h
  subst e
  dsimp only
  repeat' split
  all_goals simp [id @emit_keep, id @modNode_keep, id @modRing_keep, id @portErr_keep, id @setAlarm_keep,
      id @settle_keep]

theorem acqWrite_keep (r : Nat) (p : Nat) (mode : Nat) (comp : Bool) (seq : Nat) (s : State) :
    (acqWrite r p mode comp seq s).sys = s.sys ∧
    (acqWrite r p mode comp seq s).img = s.img ∧
    (acqWrite r p mode comp seq s).cfg = s.cfg ∧
    (acqWrite r p mode comp seq s).acq = s.acq ∧
    (acqWrite r p mode comp seq s).cur = s.cur ∧
    (acqWrite r p mode comp seq s).husk = s.husk ∧
    (acqWrite r p mode comp seq s).drv = s.drv ∧
    (acqWrite r p mode comp seq s).krn = s.krn ∧
    (acqWrite r p mode comp seq s).est = s.est ∧
    (acqWrite r p mode comp seq s).win = s.win ∧
    (acqWrite r p mode comp seq s).pairs = s.pairs ∧
    (acqWrite r p mode comp seq s).time = s.time ∧
    (acqWrite r p mode comp seq s).therm = s.therm ∧
    (acqWrite r p mode comp seq s).nv = s.nv ∧
    (acqWrite r p mode comp seq s).ledg = s.ledg ∧
    (acqWrite r p mode comp seq s).tally = s.tally ∧
    (acqWrite r p mode comp seq s).recd = s.recd ∧
    (acqWrite r p mode comp seq s).host = s.host ∧
    (acqWrite r p mode comp seq s).sec = s.sec ∧
    (acqWrite r p mode comp seq s).pwr = s.pwr ∧
    (acqWrite r p mode comp seq s).bist = s.bist ∧
    (acqWrite r p mode comp seq s).evt = s.evt ∧
    (acqWrite r p mode comp seq s).pins = s.pins ∧
    (acqWrite r p mode comp seq s).freeIx = s.freeIx ∧
    (acqWrite r p mode comp seq s).pending = s.pending := by
  simp [acqWrite, id @mgmtPush_keep]

theorem nodeConfirm_keep (r : Nat) (p : Nat) (mode : Nat) (comp : Bool) (seq : Nat) (s : State) :
    (nodeConfirm r p mode comp seq s).sys = s.sys ∧
    (nodeConfirm r p mode comp seq s).img = s.img ∧
    (nodeConfirm r p mode comp seq s).cfg = s.cfg ∧
    (nodeConfirm r p mode comp seq s).acq = s.acq ∧
    (nodeConfirm r p mode comp seq s).cur = s.cur ∧
    (nodeConfirm r p mode comp seq s).husk = s.husk ∧
    (nodeConfirm r p mode comp seq s).drv = s.drv ∧
    (nodeConfirm r p mode comp seq s).krn = s.krn ∧
    (nodeConfirm r p mode comp seq s).est = s.est ∧
    (nodeConfirm r p mode comp seq s).win = s.win ∧
    (nodeConfirm r p mode comp seq s).pairs = s.pairs ∧
    (nodeConfirm r p mode comp seq s).time = s.time ∧
    (nodeConfirm r p mode comp seq s).therm = s.therm ∧
    (nodeConfirm r p mode comp seq s).nv = s.nv ∧
    (nodeConfirm r p mode comp seq s).ledg = s.ledg ∧
    (nodeConfirm r p mode comp seq s).tally = s.tally ∧
    (nodeConfirm r p mode comp seq s).recd = s.recd ∧
    (nodeConfirm r p mode comp seq s).host = s.host ∧
    (nodeConfirm r p mode comp seq s).sec = s.sec ∧
    (nodeConfirm r p mode comp seq s).pwr = s.pwr ∧
    (nodeConfirm r p mode comp seq s).bist = s.bist ∧
    (nodeConfirm r p mode comp seq s).evt = s.evt ∧
    (nodeConfirm r p mode comp seq s).pins = s.pins ∧
    (nodeConfirm r p mode comp seq s).freeIx = s.freeIx ∧
    (nodeConfirm r p mode comp seq s).pending = s.pending := by
  simp [nodeConfirm, id @modNode_keep]

theorem mgmtDone_keep (r : Nat) (m : Mgmt) (data : List Byte) (s : State) :
    (mgmtDone r m data s).sys = s.sys ∧
    (mgmtDone r m data s).img = s.img ∧
    (mgmtDone r m data s).cfg = s.cfg ∧
    (mgmtDone r m data s).acq = s.acq ∧
    (mgmtDone r m data s).cur = s.cur ∧
    (mgmtDone r m data s).husk = s.husk ∧
    (mgmtDone r m data s).drv = s.drv ∧
    (mgmtDone r m data s).krn = s.krn ∧
    (mgmtDone r m data s).est = s.est ∧
    (mgmtDone r m data s).win = s.win ∧
    (mgmtDone r m data s).pairs = s.pairs ∧
    (mgmtDone r m data s).time = s.time ∧
    (mgmtDone r m data s).therm = s.therm ∧
    (mgmtDone r m data s).nv = s.nv ∧
    (mgmtDone r m data s).ledg = s.ledg ∧
    (mgmtDone r m data s).tally = s.tally ∧
    (mgmtDone r m data s).recd = s.recd ∧
    (mgmtDone r m data s).host = s.host ∧
    (mgmtDone r m data s).sec = s.sec ∧
    (mgmtDone r m data s).pwr = s.pwr ∧
    (mgmtDone r m data s).bist = s.bist ∧
    (mgmtDone r m data s).evt = s.evt ∧
    (mgmtDone r m data s).pins = s.pins ∧
    (mgmtDone r m data s).freeIx = s.freeIx ∧
    (mgmtDone r m data s).pending = s.pending := by
  unfold mgmtDone
  repeat' split
  all_goals simp [id @mgmtPush_keep, id @modNode_keep, id @modRing_keep, id @nodeConfirm_keep]

theorem mgmtFail_keep (r : Nat) (m : Mgmt) (rstat : Nat) (s : State) :
    (mgmtFail r m rstat s).sys = s.sys ∧
    (mgmtFail r m rstat s).img = s.img ∧
    (mgmtFail r m rstat s).cfg = s.cfg ∧
    (mgmtFail r m rstat s).acq = s.acq ∧
    (mgmtFail r m rstat s).cur = s.cur ∧
    (mgmtFail r m rstat s).husk = s.husk ∧
    (mgmtFail r m rstat s).drv = s.drv ∧
    (mgmtFail r m rstat s).krn = s.krn ∧
    (mgmtFail r m rstat s).est = s.est ∧
    (mgmtFail r m rstat s).win = s.win ∧
    (mgmtFail r m rstat s).pairs = s.pairs ∧
    (mgmtFail r m rstat s).time = s.time ∧
    (mgmtFail r m rstat s).therm = s.therm ∧
    (mgmtFail r m rstat s).nv = s.nv ∧
    (mgmtFail r m rstat s).tally = s.tally ∧
    (mgmtFail r m rstat s).host = s.host ∧
    (mgmtFail r m rstat s).pwr = s.pwr ∧
    (mgmtFail r m rstat s).bist = s.bist ∧
    (mgmtFail r m rstat s).pins = s.pins ∧
    (mgmtFail r m rstat s).freeIx = s.freeIx ∧
    (mgmtFail r m rstat s).pending = s.pending ∧
    (mgmtFail r m rstat s).sec.mid = s.sec.mid ∧
    (mgmtFail r m rstat s).sec.devKey = s.sec.devKey ∧
    (mgmtFail r m rstat s).recd.held = s.recd.held ∧
    (mgmtFail r m rstat s).evt.held = s.evt.held := by
  unfold mgmtFail
  repeat' split
  all_goals simp [id @emit_keep, id @mgmtPush_keep, id @modNode_keep, id @modRing_keep, id @podUnconfirmed_keep]

theorem execMgmtExchange_keep {r : Nat} {resp : List Byte} {s t : State} (h : execMgmtExchange r resp s = .next t) :
    t.img = s.img ∧
    t.cfg = s.cfg ∧
    t.acq = s.acq ∧
    t.cur = s.cur ∧
    t.krn = s.krn ∧
    t.win = s.win ∧
    t.pairs = s.pairs ∧
    t.time = s.time ∧
    t.therm = s.therm ∧
    t.nv = s.nv ∧
    t.tally = s.tally ∧
    t.host = s.host ∧
    t.bist = s.bist ∧
    t.freeIx = s.freeIx ∧
    t.pending = s.pending ∧
    t.sec.mid = s.sec.mid ∧
    t.sec.devKey = s.sec.devKey ∧
    t.sys.held = s.sys.held ∧
    t.husk.held = s.husk.held ∧
    t.drv.held = s.drv.held ∧
    t.recd.held = s.recd.held ∧
    t.est.held = s.est.held ∧
    t.pwr.held = s.pwr.held ∧
    t.evt.held = s.evt.held ∧
    t.pins.held = s.pins.held := by
  have e := Host.Outcome.next.inj h
  subst e
  dsimp only
  repeat' split
  all_goals simp [id @mgmtDone_keep, id @mgmtFail_keep, id @modRing_keep, id @portErr_keep, id @ringTx_keep,
      id @settle_keep]

theorem execDelayMeasurement_keep {r : Nat} {rttA : List Nat} {rttB : List Nat} {loop : Option (Nat × Nat)} {s t : State} (h : execDelayMeasurement r rttA rttB loop s = .next t) :
    t.img = s.img ∧
    t.cfg = s.cfg ∧
    t.acq = s.acq ∧
    t.cur = s.cur ∧
    t.krn = s.krn ∧
    t.win = s.win ∧
    t.pairs = s.pairs ∧
    t.time = s.time ∧
    t.therm = s.therm ∧
    t.nv = s.nv ∧
    t.ledg = s.ledg ∧
    t.tally = s.tally ∧
    t.host = s.host ∧
    t.sec = s.sec ∧
    t.bist = s.bist ∧
    t.freeIx = s.freeIx ∧
    t.pending = s.pending ∧
    t.sys.held = s.sys.held ∧
    t.husk.held = s.husk.held ∧
    t.drv.held = s.drv.held ∧
    t.recd.held = s.recd.held ∧
    t.est.held = s.est.held ∧
    t.pwr.held = s.pwr.held ∧
    t.evt.held = s.evt.held ∧
    t.pins.held = s.pins.held := by
  have e := Host.Outcome.next.inj h
  subst e
  dsimp only
  repeat' split
  all_goals simp [id @delayWrites_keep, id @modRing_keep, id @settle_keep, id @takeDelay_keep, id @takeLoop_keep]

theorem execNodeLost_keep {r : Nat} {p : Nat} {s t : State} (h : execNodeLost r p s = .next t) :
    t.img = s.img ∧
    t.cfg = s.cfg ∧
    t.acq = s.acq ∧
    t.cur = s.cur ∧
    t.krn = s.krn ∧
    t.win = s.win ∧
    t.pairs = s.pairs ∧
    t.time = s.time ∧
    t.therm = s.therm ∧
    t.nv = s.nv ∧
    t.ledg = s.ledg ∧
    t.tally = s.tally ∧
    t.host = s.host ∧
    t.sec = s.sec ∧
    t.bist = s.bist ∧
    t.freeIx = s.freeIx ∧
    t.pending = s.pending ∧
    t.sys.held = s.sys.held ∧
    t.husk.held = s.husk.held ∧
    t.drv.held = s.drv.held ∧
    t.recd.held = s.recd.held ∧
    t.est.held = s.est.held ∧
    t.pwr.held = s.pwr.held ∧
    t.evt.held = s.evt.held ∧
    t.pins.held = s.pins.held := by
  have e := Host.Outcome.next.inj h
  subst e
  simp
  repeat' split
  all_goals simp [id @emit_keep, id @modNode_keep, id @settle_keep]

theorem execLinkUp_keep {r : Nat} {s t : State} (h : execLinkUp r s = .next t) :
    t.sys = s.sys ∧
    t.img = s.img ∧
    t.cfg = s.cfg ∧
    t.acq = s.acq ∧
    t.cur = s.cur ∧
    t.husk = s.husk ∧
    t.drv = s.drv ∧
    t.krn = s.krn ∧
    t.est = s.est ∧
    t.win = s.win ∧
    t.pairs = s.pairs ∧
    t.time = s.time ∧
    t.therm = s.therm ∧
    t.nv = s.nv ∧
    t.ledg = s.ledg ∧
    t.tally = s.tally ∧
    t.recd = s.recd ∧
    t.host = s.host ∧
    t.sec = s.sec ∧
    t.pwr = s.pwr ∧
    t.bist = s.bist ∧
    t.evt = s.evt ∧
    t.pins = s.pins ∧
    t.freeIx = s.freeIx ∧
    t.pending = s.pending := by
  have e := Host.Outcome.next.inj h
  subst e
  simp [id @mgmtPush_keep, id @modRing_keep]

theorem execLiveInsertCount_keep {r : Nat} {n : Nat} {returned : Bool} {descs : List Word} {s t : State} (h : execLiveInsertCount r n returned descs s = .next t) :
    t.sys = s.sys ∧
    t.img = s.img ∧
    t.cfg = s.cfg ∧
    t.acq = s.acq ∧
    t.cur = s.cur ∧
    t.husk = s.husk ∧
    t.drv = s.drv ∧
    t.krn = s.krn ∧
    t.est = s.est ∧
    t.win = s.win ∧
    t.pairs = s.pairs ∧
    t.time = s.time ∧
    t.therm = s.therm ∧
    t.nv = s.nv ∧
    t.ledg = s.ledg ∧
    t.tally = s.tally ∧
    t.host = s.host ∧
    t.sec = s.sec ∧
    t.pwr = s.pwr ∧
    t.bist = s.bist ∧
    t.pins = s.pins ∧
    t.freeIx = s.freeIx ∧
    t.pending = s.pending ∧
    t.recd.held = s.recd.held ∧
    t.evt.held = s.evt.held := by
  have e := Host.Outcome.next.inj h
  subst e
  simp [id @emit_keep, id @modNode_keep, id @modRing_keep]
  repeat' split
  all_goals simp [id @emit_keep, id @modNode_keep, id @modRing_keep]

theorem execLiveInsertConfigure_keep {r : Nat} {regs : List (List Byte)} {ms : List DelayMeas} {s t : State} (h : execLiveInsertConfigure r regs ms s = .next t) :
    t.img = s.img ∧
    t.cfg = s.cfg ∧
    t.acq = s.acq ∧
    t.cur = s.cur ∧
    t.krn = s.krn ∧
    t.win = s.win ∧
    t.pairs = s.pairs ∧
    t.time = s.time ∧
    t.therm = s.therm ∧
    t.nv = s.nv ∧
    t.ledg = s.ledg ∧
    t.tally = s.tally ∧
    t.host = s.host ∧
    t.sec = s.sec ∧
    t.bist = s.bist ∧
    t.freeIx = s.freeIx ∧
    t.pending = s.pending ∧
    t.sys.held = s.sys.held ∧
    t.husk.held = s.husk.held ∧
    t.drv.held = s.drv.held ∧
    t.recd.held = s.recd.held ∧
    t.est.held = s.est.held ∧
    t.pwr.held = s.pwr.held ∧
    t.evt.held = s.evt.held ∧
    t.pins.held = s.pins.held := by
  have e := Host.Outcome.next.inj h
  subst e
  dsimp only
  repeat' split
  all_goals simp [id @measureNodes_keep, id @modNode_keep, id @modRing_keep, id @setNode_keep, id @settle_keep]

theorem execLiveInsertAuthenticate_keep {r : Nat} {as : List AuthResp} {s t : State} (h : execLiveInsertAuthenticate r as s = .next t) :
    t.img = s.img ∧
    t.cfg = s.cfg ∧
    t.acq = s.acq ∧
    t.cur = s.cur ∧
    t.pairs = s.pairs ∧
    t.time = s.time ∧
    t.therm = s.therm ∧
    t.tally = s.tally ∧
    t.host = s.host ∧
    t.bist = s.bist ∧
    t.pending = s.pending ∧
    t.sec.mid = s.sec.mid ∧
    t.sec.devKey = s.sec.devKey ∧
    t.sys.held = s.sys.held ∧
    t.drv.held = s.drv.held ∧
    t.recd.held = s.recd.held ∧
    t.est.held = s.est.held ∧
    t.pwr.held = s.pwr.held ∧
    t.evt.held = s.evt.held ∧
    t.pins.held = s.pins.held := by
  have e := Host.Outcome.next.inj h
  subst e
  dsimp only
  repeat' split
  all_goals simp [id @authAll_keep, id @modRing_keep, id @settle_keep]

theorem insertNode_keep (r : Nat) (s : State) (p : Nat) :
    (insertNode r s p).sys = s.sys ∧
    (insertNode r s p).img = s.img ∧
    (insertNode r s p).cfg = s.cfg ∧
    (insertNode r s p).acq = s.acq ∧
    (insertNode r s p).cur = s.cur ∧
    (insertNode r s p).husk = s.husk ∧
    (insertNode r s p).drv = s.drv ∧
    (insertNode r s p).krn = s.krn ∧
    (insertNode r s p).est = s.est ∧
    (insertNode r s p).win = s.win ∧
    (insertNode r s p).pairs = s.pairs ∧
    (insertNode r s p).time = s.time ∧
    (insertNode r s p).therm = s.therm ∧
    (insertNode r s p).nv = s.nv ∧
    (insertNode r s p).ledg = s.ledg ∧
    (insertNode r s p).tally = s.tally ∧
    (insertNode r s p).host = s.host ∧
    (insertNode r s p).sec = s.sec ∧
    (insertNode r s p).pwr = s.pwr ∧
    (insertNode r s p).bist = s.bist ∧
    (insertNode r s p).pins = s.pins ∧
    (insertNode r s p).freeIx = s.freeIx ∧
    (insertNode r s p).pending = s.pending ∧
    (insertNode r s p).recd.held = s.recd.held ∧
    (insertNode r s p).evt.held = s.evt.held := by
  simp only [insertNode]
  repeat' split
  all_goals simp [id @emit_keep, id @modNode_keep]

theorem execLiveInsertUnwrap_keep {r : Nat} {s t : State} (h : execLiveInsertUnwrap r s = .next t) :
    t.img = s.img ∧
    t.cfg = s.cfg ∧
    t.acq = s.acq ∧
    t.cur = s.cur ∧
    t.krn = s.krn ∧
    t.win = s.win ∧
    t.pairs = s.pairs ∧
    t.time = s.time ∧
    t.therm = s.therm ∧
    t.nv = s.nv ∧
    t.ledg = s.ledg ∧
    t.tally = s.tally ∧
    t.host = s.host ∧
    t.sec = s.sec ∧
    t.bist = s.bist ∧
    t.freeIx = s.freeIx ∧
    t.pending = s.pending ∧
    t.sys.held = s.sys.held ∧
    t.husk.held = s.husk.held ∧
    t.drv.held = s.drv.held ∧
    t.recd.held = s.recd.held ∧
    t.est.held = s.est.held ∧
    t.pwr.held = s.pwr.held ∧
    t.evt.held = s.evt.held ∧
    t.pins.held = s.pins.held := by
  have e := Host.Outcome.next.inj h
  subst e
  dsimp only
  repeat' split
  all_goals simp [id @emitIf_keep, id @insertNode_keep, id @mgmtPush_keep, id @modNode_keep, id @modRing_keep,
      id @reach_keep, id @settle_keep]

theorem execNodeChallenge_keep {r : Nat} {p : Nat} {s t : State} (h : execNodeChallenge r p s = .next t) :
    t.sys = s.sys ∧
    t.img = s.img ∧
    t.cfg = s.cfg ∧
    t.acq = s.acq ∧
    t.cur = s.cur ∧
    t.husk = s.husk ∧
    t.drv = s.drv ∧
    t.krn = s.krn ∧
    t.est = s.est ∧
    t.win = s.win ∧
    t.pairs = s.pairs ∧
    t.time = s.time ∧
    t.therm = s.therm ∧
    t.nv = s.nv ∧
    t.ledg = s.ledg ∧
    t.tally = s.tally ∧
    t.host = s.host ∧
    t.pwr = s.pwr ∧
    t.bist = s.bist ∧
    t.pins = s.pins ∧
    t.pending = s.pending ∧
    t.sec.mid = s.sec.mid ∧
    t.sec.devKey = s.sec.devKey ∧
    t.recd.held = s.recd.held ∧
    t.evt.held = s.evt.held := by
  have e := Host.Outcome.next.inj h
  subst e
  simp
  repeat' split
  all_goals simp [id @challengeGap_keep, id @keyAbsent_keep]

theorem execNodeTagCheck_keep {r : Nat} {p : Nat} {s t : State} (h : execNodeTagCheck r p s = .next t) :
    t.img = s.img ∧
    t.cfg = s.cfg ∧
    t.acq = s.acq ∧
    t.cur = s.cur ∧
    t.krn = s.krn ∧
    t.win = s.win ∧
    t.pairs = s.pairs ∧
    t.time = s.time ∧
    t.therm = s.therm ∧
    t.ledg = s.ledg ∧
    t.tally = s.tally ∧
    t.host = s.host ∧
    t.bist = s.bist ∧
    t.pending = s.pending ∧
    t.sec.mid = s.sec.mid ∧
    t.sec.devKey = s.sec.devKey ∧
    t.sys.held = s.sys.held ∧
    t.drv.held = s.drv.held ∧
    t.recd.held = s.recd.held ∧
    t.est.held = s.est.held ∧
    t.pwr.held = s.pwr.held ∧
    t.evt.held = s.evt.held ∧
    t.pins.held = s.pins.held := by
  have e := Host.Outcome.next.inj h
  subst e
  dsimp only
  repeat' split
  all_goals simp [id @authFail_keep, id @authPass_keep, id @challengeGap_keep, id @countFail_keep, id @modNode_keep,
      id @settle_keep]

end Sys2Proof.Machine
end

