-- ==== Sys2Proof/Laws/KeepAcq.lean ====
section
/-! SUPPORT. What the operations of Machine/Acq.lean leave unchanged. -/

namespace Sys2Proof.Machine

theorem nodeClose_keep (s : State) (t : TopoNode) :
    (nodeClose s t).sys = s.sys ∧
    (nodeClose s t).img = s.img ∧
    (nodeClose s t).cfg = s.cfg ∧
    (nodeClose s t).cur = s.cur ∧
    (nodeClose s t).husk = s.husk ∧
    (nodeClose s t).drv = s.drv ∧
    (nodeClose s t).krn = s.krn ∧
    (nodeClose s t).est = s.est ∧
    (nodeClose s t).win = s.win ∧
    (nodeClose s t).pairs = s.pairs ∧
    (nodeClose s t).time = s.time ∧
    (nodeClose s t).therm = s.therm ∧
    (nodeClose s t).nv = s.nv ∧
    (nodeClose s t).ledg = s.ledg ∧
    (nodeClose s t).tally = s.tally ∧
    (nodeClose s t).recd = s.recd ∧
    (nodeClose s t).host = s.host ∧
    (nodeClose s t).sec = s.sec ∧
    (nodeClose s t).pwr = s.pwr ∧
    (nodeClose s t).bist = s.bist ∧
    (nodeClose s t).evt = s.evt ∧
    (nodeClose s t).pins = s.pins ∧
    (nodeClose s t).freeIx = s.freeIx ∧
    (nodeClose s t).pending = s.pending := by
  simp [nodeClose, id @modCell_keep, id @setNode_keep]

theorem missCount_keep (r : Nat) (s : State) :
    (missCount r s).sys = s.sys ∧
    (missCount r s).img = s.img ∧
    (missCount r s).cfg = s.cfg ∧
    (missCount r s).acq = s.acq ∧
    (missCount r s).cur = s.cur ∧
    (missCount r s).husk = s.husk ∧
    (missCount r s).drv = s.drv ∧
    (missCount r s).krn = s.krn ∧
    (missCount r s).est = s.est ∧
    (missCount r s).win = s.win ∧
    (missCount r s).pairs = s.pairs ∧
    (missCount r s).time = s.time ∧
    (missCount r s).therm = s.therm ∧
    (missCount r s).nv = s.nv ∧
    (missCount r s).ledg = s.ledg ∧
    (missCount r s).tally = s.tally ∧
    (missCount r s).recd = s.recd ∧
    (missCount r s).host = s.host ∧
    (missCount r s).sec = s.sec ∧
    (missCount r s).pwr = s.pwr ∧
    (missCount r s).bist = s.bist ∧
    (missCount r s).evt = s.evt ∧
    (missCount r s).pins = s.pins ∧
    (missCount r s).freeIx = s.freeIx ∧
    (missCount r s).pending = s.pending := by
  simp [missCount, id @modNode_keep]

theorem dieLimit_keep (r : Nat) (p : Nat) (s : State) :
    (dieLimit r p s).sys = s.sys ∧
    (dieLimit r p s).img = s.img ∧
    (dieLimit r p s).cfg = s.cfg ∧
    (dieLimit r p s).acq = s.acq ∧
    (dieLimit r p s).cur = s.cur ∧
    (dieLimit r p s).husk = s.husk ∧
    (dieLimit r p s).drv = s.drv ∧
    (dieLimit r p s).krn = s.krn ∧
    (dieLimit r p s).est = s.est ∧
    (dieLimit r p s).win = s.win ∧
    (dieLimit r p s).pairs = s.pairs ∧
    (dieLimit r p s).time = s.time ∧
    (dieLimit r p s).therm = s.therm ∧
    (dieLimit r p s).nv = s.nv ∧
    (dieLimit r p s).ledg = s.ledg ∧
    (dieLimit r p s).tally = s.tally ∧
    (dieLimit r p s).host = s.host ∧
    (dieLimit r p s).sec = s.sec ∧
    (dieLimit r p s).pwr = s.pwr ∧
    (dieLimit r p s).bist = s.bist ∧
    (dieLimit r p s).pins = s.pins ∧
    (dieLimit r p s).freeIx = s.freeIx ∧
    (dieLimit r p s).pending = s.pending ∧
    (dieLimit r p s).recd.held = s.recd.held ∧
    (dieLimit r p s).evt.held = s.evt.held := by
  simp only [dieLimit]
  repeat' split
  all_goals simp [id @emitIf_keep, id @modNode_keep]

theorem gapReads_keep (r : Nat) (p : Nat) (s : State) :
    (gapReads r p s).sys = s.sys ∧
    (gapReads r p s).img = s.img ∧
    (gapReads r p s).cfg = s.cfg ∧
    (gapReads r p s).acq = s.acq ∧
    (gapReads r p s).cur = s.cur ∧
    (gapReads r p s).husk = s.husk ∧
    (gapReads r p s).drv = s.drv ∧
    (gapReads r p s).krn = s.krn ∧
    (gapReads r p s).est = s.est ∧
    (gapReads r p s).win = s.win ∧
    (gapReads r p s).pairs = s.pairs ∧
    (gapReads r p s).time = s.time ∧
    (gapReads r p s).therm = s.therm ∧
    (gapReads r p s).nv = s.nv ∧
    (gapReads r p s).ledg = s.ledg ∧
    (gapReads r p s).tally = s.tally ∧
    (gapReads r p s).recd = s.recd ∧
    (gapReads r p s).host = s.host ∧
    (gapReads r p s).sec = s.sec ∧
    (gapReads r p s).pwr = s.pwr ∧
    (gapReads r p s).bist = s.bist ∧
    (gapReads r p s).evt = s.evt ∧
    (gapReads r p s).pins = s.pins ∧
    (gapReads r p s).freeIx = s.freeIx ∧
    (gapReads r p s).pending = s.pending := by
  simp [gapReads, id @mgmtPush_keep]

theorem cmdStep_keep (s : State) (r : Nat) (tests : List Nat) (a : List Byte × State) (p : Nat) :
    (cmdStep s r tests a p).2.sys = a.2.sys ∧
    (cmdStep s r tests a p).2.img = a.2.img ∧
    (cmdStep s r tests a p).2.cfg = a.2.cfg ∧
    (cmdStep s r tests a p).2.acq = a.2.acq ∧
    (cmdStep s r tests a p).2.cur = a.2.cur ∧
    (cmdStep s r tests a p).2.husk = a.2.husk ∧
    (cmdStep s r tests a p).2.drv = a.2.drv ∧
    (cmdStep s r tests a p).2.krn = a.2.krn ∧
    (cmdStep s r tests a p).2.est = a.2.est ∧
    (cmdStep s r tests a p).2.win = a.2.win ∧
    (cmdStep s r tests a p).2.pairs = a.2.pairs ∧
    (cmdStep s r tests a p).2.time = a.2.time ∧
    (cmdStep s r tests a p).2.therm = a.2.therm ∧
    (cmdStep s r tests a p).2.nv = a.2.nv ∧
    (cmdStep s r tests a p).2.ledg = a.2.ledg ∧
    (cmdStep s r tests a p).2.tally = a.2.tally ∧
    (cmdStep s r tests a p).2.host = a.2.host ∧
    (cmdStep s r tests a p).2.sec = a.2.sec ∧
    (cmdStep s r tests a p).2.pwr = a.2.pwr ∧
    (cmdStep s r tests a p).2.bist = a.2.bist ∧
    (cmdStep s r tests a p).2.pins = a.2.pins ∧
    (cmdStep s r tests a p).2.freeIx = a.2.freeIx ∧
    (cmdStep s r tests a p).2.pending = a.2.pending ∧
    (cmdStep s r tests a p).2.recd.held = a.2.recd.held ∧
    (cmdStep s r tests a p).2.evt.held = a.2.evt.held := by
  simp [cmdStep, id @dieLimit_keep, id @gapReads_keep, id @setNode_keep]

theorem commandOut_keep (r : Nat) (entries : List Byte) (s : State) :
    (commandOut r entries s).sys = s.sys ∧
    (commandOut r entries s).img = s.img ∧
    (commandOut r entries s).cfg = s.cfg ∧
    (commandOut r entries s).acq = s.acq ∧
    (commandOut r entries s).cur = s.cur ∧
    (commandOut r entries s).husk = s.husk ∧
    (commandOut r entries s).drv = s.drv ∧
    (commandOut r entries s).krn = s.krn ∧
    (commandOut r entries s).est = s.est ∧
    (commandOut r entries s).win = s.win ∧
    (commandOut r entries s).pairs = s.pairs ∧
    (commandOut r entries s).time = s.time ∧
    (commandOut r entries s).therm = s.therm ∧
    (commandOut r entries s).nv = s.nv ∧
    (commandOut r entries s).ledg = s.ledg ∧
    (commandOut r entries s).tally = s.tally ∧
    (commandOut r entries s).recd = s.recd ∧
    (commandOut r entries s).host = s.host ∧
    (commandOut r entries s).sec = s.sec ∧
    (commandOut r entries s).pwr = s.pwr ∧
    (commandOut r entries s).bist = s.bist ∧
    (commandOut r entries s).evt = s.evt ∧
    (commandOut r entries s).pins = s.pins ∧
    (commandOut r entries s).freeIx = s.freeIx ∧
    (commandOut r entries s).pending = s.pending := by
  simp [commandOut, id @modRing_keep, id @ringTxBoth_keep]

theorem foldl_cmdStep (g : State → β) (s : State) (r : Nat) (tests ps : List Nat) (a : List Byte × State)
    (h : ∀ a p, g (cmdStep s r tests a p).2 = g a.2) : g (ps.foldl (cmdStep s r tests) a).2 = g a.2 := by
  induction ps generalizing a with
  | nil => rfl
  | cons p ps ih => rw [List.foldl_cons, ih, h]

theorem commandSend_keep (r : Nat) (s : State) :
    (commandSend r s).sys = s.sys ∧
    (commandSend r s).img = s.img ∧
    (commandSend r s).cfg = s.cfg ∧
    (commandSend r s).acq = s.acq ∧
    (commandSend r s).cur = s.cur ∧
    (commandSend r s).husk = s.husk ∧
    (commandSend r s).drv = s.drv ∧
    (commandSend r s).krn = s.krn ∧
    (commandSend r s).est = s.est ∧
    (commandSend r s).win = s.win ∧
    (commandSend r s).pairs = s.pairs ∧
    (commandSend r s).time = s.time ∧
    (commandSend r s).therm = s.therm ∧
    (commandSend r s).nv = s.nv ∧
    (commandSend r s).ledg = s.ledg ∧
    (commandSend r s).tally = s.tally ∧
    (commandSend r s).host = s.host ∧
    (commandSend r s).sec = s.sec ∧
    (commandSend r s).pwr = s.pwr ∧
    (commandSend r s).bist = s.bist ∧
    (commandSend r s).pins = s.pins ∧
    (commandSend r s).freeIx = s.freeIx ∧
    (commandSend r s).pending = s.pending ∧
    (commandSend r s).recd.held = s.recd.held ∧
    (commandSend r s).evt.held = s.evt.held := by
  unfold commandSend
  split
  · simp
  · refine ⟨?_, ?_, ?_, ?_, ?_, ?_, ?_, ?_, ?_, ?_, ?_, ?_, ?_, ?_, ?_, ?_, ?_, ?_, ?_, ?_, ?_, ?_, ?_, ?_, ?_⟩
    · simp [id @commandOut_keep]
      exact foldl_cmdStep (·.sys) _ _ _ _ _ (fun a p => by simp [id @cmdStep_keep])
    · simp [id @commandOut_keep]
      exact foldl_cmdStep (·.img) _ _ _ _ _ (fun a p => by simp [id @cmdStep_keep])
    · simp [id @commandOut_keep]
      exact foldl_cmdStep (·.cfg) _ _ _ _ _ (fun a p => by simp [id @cmdStep_keep])
    · simp [id @commandOut_keep]
      exact foldl_cmdStep (·.acq) _ _ _ _ _ (fun a p => by simp [id @cmdStep_keep])
    · simp [id @commandOut_keep]
      exact foldl_cmdStep (·.cur) _ _ _ _ _ (fun a p => by simp [id @cmdStep_keep])
    · simp [id @commandOut_keep]
      exact foldl_cmdStep (·.husk) _ _ _ _ _ (fun a p => by simp [id @cmdStep_keep])
    · simp [id @commandOut_keep]
      exact foldl_cmdStep (·.drv) _ _ _ _ _ (fun a p => by simp [id @cmdStep_keep])
    · simp [id @commandOut_keep]
      exact foldl_cmdStep (·.krn) _ _ _ _ _ (fun a p => by simp [id @cmdStep_keep])
    · simp [id @commandOut_keep]
      exact foldl_cmdStep (·.est) _ _ _ _ _ (fun a p => by simp [id @cmdStep_keep])
    · simp [id @commandOut_keep]
      exact foldl_cmdStep (·.win) _ _ _ _ _ (fun a p => by simp [id @cmdStep_keep])
    · simp [id @commandOut_keep]
      exact foldl_cmdStep (·.pairs) _ _ _ _ _ (fun a p => by simp [id @cmdStep_keep])
    · simp [id @commandOut_keep]
      exact foldl_cmdStep (·.time) _ _ _ _ _ (fun a p => by simp [id @cmdStep_keep])
    · simp [id @commandOut_keep]
      exact foldl_cmdStep (·.therm) _ _ _ _ _ (fun a p => by simp [id @cmdStep_keep])
    · simp [id @commandOut_keep]
      exact foldl_cmdStep (·.nv) _ _ _ _ _ (fun a p => by simp [id @cmdStep_keep])
    · simp [id @commandOut_keep]
      exact foldl_cmdStep (·.ledg) _ _ _ _ _ (fun a p => by simp [id @cmdStep_keep])
    · simp [id @commandOut_keep]
      exact foldl_cmdStep (·.tally) _ _ _ _ _ (fun a p => by simp [id @cmdStep_keep])
    · simp [id @commandOut_keep]
      exact foldl_cmdStep (·.host) _ _ _ _ _ (fun a p => by simp [id @cmdStep_keep])
    · simp [id @commandOut_keep]
      exact foldl_cmdStep (·.sec) _ _ _ _ _ (fun a p => by simp [id @cmdStep_keep])
    · simp [id @commandOut_keep]
      exact foldl_cmdStep (·.pwr) _ _ _ _ _ (fun a p => by simp [id @cmdStep_keep])
    · simp [id @commandOut_keep]
      exact foldl_cmdStep (·.bist) _ _ _ _ _ (fun a p => by simp [id @cmdStep_keep])
    · simp [id @commandOut_keep]
      exact foldl_cmdStep (·.pins) _ _ _ _ _ (fun a p => by simp [id @cmdStep_keep])
    · simp [id @commandOut_keep]
      exact foldl_cmdStep (·.freeIx) _ _ _ _ _ (fun a p => by simp [id @cmdStep_keep])
    · simp [id @commandOut_keep]
      exact foldl_cmdStep (·.pending) _ _ _ _ _ (fun a p => by simp [id @cmdStep_keep])
    · simp [id @commandOut_keep]
      exact foldl_cmdStep (·.recd.held) _ _ _ _ _ (fun a p => by simp [id @cmdStep_keep])
    · simp [id @commandOut_keep]
      exact foldl_cmdStep (·.evt.held) _ _ _ _ _ (fun a p => by simp [id @cmdStep_keep])

theorem acqClose_keep (s : State) :
    (acqClose s).sys = s.sys ∧
    (acqClose s).img = s.img ∧
    (acqClose s).cfg = s.cfg ∧
    (acqClose s).cur = s.cur ∧
    (acqClose s).drv = s.drv ∧
    (acqClose s).krn = s.krn ∧
    (acqClose s).est = s.est ∧
    (acqClose s).win = s.win ∧
    (acqClose s).pairs = s.pairs ∧
    (acqClose s).time = s.time ∧
    (acqClose s).therm = s.therm ∧
    (acqClose s).nv = s.nv ∧
    (acqClose s).ledg = s.ledg ∧
    (acqClose s).tally = s.tally ∧
    (acqClose s).host = s.host ∧
    (acqClose s).sec = s.sec ∧
    (acqClose s).pwr = s.pwr ∧
    (acqClose s).bist = s.bist ∧
    (acqClose s).pins = s.pins ∧
    (acqClose s).freeIx = s.freeIx ∧
    (acqClose s).pending = s.pending ∧
    (acqClose s).recd.held = s.recd.held ∧
    (acqClose s).evt.held = s.evt.held := by
  simp [acqClose, id @commandSend_keep, id @missCount_keep, id @nodeClose_keep]

theorem execBalanceDecision_keep  {s t : State} (h : execBalanceDecision s = .next t) :
    t.sys = s.sys ∧
    t.img = s.img ∧
    t.cfg = s.cfg ∧
    t.ring = s.ring ∧
    t.cur = s.cur ∧
    t.husk = s.husk ∧
    t.drv = s.drv ∧
    t.krn = s.krn ∧
    t.est = s.est ∧
    t.win = s.win ∧
    t.pairs = s.pairs ∧
    t.time = s.time ∧
    t.therm = s.therm ∧
    t.nv = s.nv ∧
    t.ledg = s.ledg ∧
    t.tally = s.tally ∧
    t.recd = s.recd ∧
    t.host = s.host ∧
    t.sec = s.sec ∧
    t.pwr = s.pwr ∧
    t.bist = s.bist ∧
    t.evt = s.evt ∧
    t.pins = s.pins ∧
    t.freeIx = s.freeIx ∧
    t.pending = s.pending := by
  have e := Host.Outcome.next.inj h
  subst e
  simp [id @modCell_keep]

theorem execBalNodeFault_keep {r : Nat} {p : Nat} {s t : State} (h : execBalNodeFault r p s = .next t) :
    t.img = s.img ∧
    t.cfg = s.cfg ∧
    t.acq = s.acq ∧
    t.cur = s.cur ∧
    t.krn = s.krn ∧
    t.win = s.win ∧
    t.pairs = s.pairs ∧
    t.time = s.time ∧
    t.therm = s.therm ∧
    t.nv = s.nv ∧
    t.ledg = s.ledg ∧
    t.tally = s.tally ∧
    t.host = s.host ∧
    t.sec = s.sec ∧
    t.bist = s.bist ∧
    t.freeIx = s.freeIx ∧
    t.pending = s.pending ∧
    t.sys.held = s.sys.held ∧
    t.husk.held = s.husk.held ∧
    t.drv.held = s.drv.held ∧
    t.recd.held = s.recd.held ∧
    t.est.held = s.est.held ∧
    t.pwr.held = s.pwr.held ∧
    t.evt.held = s.evt.held ∧
    t.pins.held = s.pins.held := by
  have e := Host.Outcome.next.inj h
  subst e
  simp [id @emit_keep, id @modNode_keep, id @settle_keep]
  repeat' split
  all_goals simp [id @emit_keep, id @modNode_keep]

theorem execDieTempTimeout_keep {r : Nat} {p : Nat} {s t : State} (h : execDieTempTimeout r p s = .next t) :
    t.sys = s.sys ∧
    t.img = s.img ∧
    t.cfg = s.cfg ∧
    t.acq = s.acq ∧
    t.cur = s.cur ∧
    t.husk = s.husk ∧
    t.drv = s.drv ∧
    t.krn = s.krn ∧
    t.est = s.est ∧
    t.win = s.win ∧
    t.pairs = s.pairs ∧
    t.time = s.time ∧
    t.therm = s.therm ∧
    t.nv = s.nv ∧
    t.ledg = s.ledg ∧
    t.tally = s.tally ∧
    t.recd = s.recd ∧
    t.host = s.host ∧
    t.sec = s.sec ∧
    t.pwr = s.pwr ∧
    t.bist = s.bist ∧
    t.evt = s.evt ∧
    t.pins = s.pins ∧
    t.freeIx = s.freeIx ∧
    t.pending = s.pending := by
  have e := Host.Outcome.next.inj h
  subst e
  simp [id @modNode_keep]

theorem execCoupIdStart_keep {r : Nat} {p : Nat} {s t : State} (h : execCoupIdStart r p s = .next t) :
    t.sys = s.sys ∧
    t.img = s.img ∧
    t.cfg = s.cfg ∧
    t.acq = s.acq ∧
    t.cur = s.cur ∧
    t.husk = s.husk ∧
    t.drv = s.drv ∧
    t.krn = s.krn ∧
    t.est = s.est ∧
    t.win = s.win ∧
    t.pairs = s.pairs ∧
    t.time = s.time ∧
    t.therm = s.therm ∧
    t.nv = s.nv ∧
    t.ledg = s.ledg ∧
    t.tally = s.tally ∧
    t.recd = s.recd ∧
    t.host = s.host ∧
    t.sec = s.sec ∧
    t.pwr = s.pwr ∧
    t.bist = s.bist ∧
    t.evt = s.evt ∧
    t.pins = s.pins ∧
    t.freeIx = s.freeIx ∧
    t.pending = s.pending := by
  have e := Host.Outcome.next.inj h
  subst e
  simp [id @modNode_keep]

theorem execCoupIdComplete_keep {r : Nat} {p : Nat} {s t : State} (h : execCoupIdComplete r p s = .next t) :
    t.img = s.img ∧
    t.cfg = s.cfg ∧
    t.acq = s.acq ∧
    t.cur = s.cur ∧
    t.krn = s.krn ∧
    t.win = s.win ∧
    t.pairs = s.pairs ∧
    t.time = s.time ∧
    t.therm = s.therm ∧
    t.nv = s.nv ∧
    t.ledg = s.ledg ∧
    t.tally = s.tally ∧
    t.host = s.host ∧
    t.sec = s.sec ∧
    t.bist = s.bist ∧
    t.freeIx = s.freeIx ∧
    t.pending = s.pending ∧
    t.sys.held = s.sys.held ∧
    t.husk.held = s.husk.held ∧
    t.drv.held = s.drv.held ∧
    t.recd.held = s.recd.held ∧
    t.est.held = s.est.held ∧
    t.pwr.held = s.pwr.held ∧
    t.evt.held = s.evt.held ∧
    t.pins.held = s.pins.held := by
  have e := Host.Outcome.next.inj h
  subst e
  dsimp only
  repeat' split
  all_goals simp [id @acqWrite_keep, id @emitIf_keep, id @modNode_keep, id @settle_keep]

theorem execCoupIdGiveUp_keep {r : Nat} {p : Nat} {s t : State} (h : execCoupIdGiveUp r p s = .next t) :
    t.img = s.img ∧
    t.cfg = s.cfg ∧
    t.acq = s.acq ∧
    t.cur = s.cur ∧
    t.krn = s.krn ∧
    t.win = s.win ∧
    t.pairs = s.pairs ∧
    t.time = s.time ∧
    t.therm = s.therm ∧
    t.nv = s.nv ∧
    t.ledg = s.ledg ∧
    t.tally = s.tally ∧
    t.host = s.host ∧
    t.sec = s.sec ∧
    t.bist = s.bist ∧
    t.freeIx = s.freeIx ∧
    t.pending = s.pending ∧
    t.sys.held = s.sys.held ∧
    t.husk.held = s.husk.held ∧
    t.drv.held = s.drv.held ∧
    t.recd.held = s.recd.held ∧
    t.est.held = s.est.held ∧
    t.pwr.held = s.pwr.held ∧
    t.evt.held = s.evt.held ∧
    t.pins.held = s.pins.held := by
  have e := Host.Outcome.next.inj h
  subst e
  dsimp only
  repeat' split
  all_goals simp [id @emit_keep, id @modNode_keep, id @settle_keep]

theorem acqCoupId_keep (s : State) :
    (acqCoupId s).sys = s.sys ∧
    (acqCoupId s).img = s.img ∧
    (acqCoupId s).cfg = s.cfg ∧
    (acqCoupId s).acq = s.acq ∧
    (acqCoupId s).cur = s.cur ∧
    (acqCoupId s).husk = s.husk ∧
    (acqCoupId s).drv = s.drv ∧
    (acqCoupId s).krn = s.krn ∧
    (acqCoupId s).est = s.est ∧
    (acqCoupId s).win = s.win ∧
    (acqCoupId s).pairs = s.pairs ∧
    (acqCoupId s).time = s.time ∧
    (acqCoupId s).therm = s.therm ∧
    (acqCoupId s).nv = s.nv ∧
    (acqCoupId s).ledg = s.ledg ∧
    (acqCoupId s).tally = s.tally ∧
    (acqCoupId s).recd = s.recd ∧
    (acqCoupId s).host = s.host ∧
    (acqCoupId s).sec = s.sec ∧
    (acqCoupId s).pwr = s.pwr ∧
    (acqCoupId s).bist = s.bist ∧
    (acqCoupId s).evt = s.evt ∧
    (acqCoupId s).pins = s.pins ∧
    (acqCoupId s).freeIx = s.freeIx ∧
    (acqCoupId s).pending = s.pending := by
  simp [acqCoupId, id @modNode_keep]

theorem acqOwNow_keep (s : State) :
    (acqOwNow s).sys = s.sys ∧
    (acqOwNow s).img = s.img ∧
    (acqOwNow s).cfg = s.cfg ∧
    (acqOwNow s).acq = s.acq ∧
    (acqOwNow s).cur = s.cur ∧
    (acqOwNow s).husk = s.husk ∧
    (acqOwNow s).drv = s.drv ∧
    (acqOwNow s).krn = s.krn ∧
    (acqOwNow s).est = s.est ∧
    (acqOwNow s).win = s.win ∧
    (acqOwNow s).pairs = s.pairs ∧
    (acqOwNow s).time = s.time ∧
    (acqOwNow s).therm = s.therm ∧
    (acqOwNow s).nv = s.nv ∧
    (acqOwNow s).ledg = s.ledg ∧
    (acqOwNow s).tally = s.tally ∧
    (acqOwNow s).recd = s.recd ∧
    (acqOwNow s).host = s.host ∧
    (acqOwNow s).sec = s.sec ∧
    (acqOwNow s).pwr = s.pwr ∧
    (acqOwNow s).bist = s.bist ∧
    (acqOwNow s).evt = s.evt ∧
    (acqOwNow s).pins = s.pins ∧
    (acqOwNow s).freeIx = s.freeIx ∧
    (acqOwNow s).pending = s.pending := by
  simp [acqOwNow, id @modNode_keep]

theorem owMulti_keep (i : Nat) (case : Nat) (r : Nat) (s : State) :
    (owMulti i case r s).sys = s.sys ∧
    (owMulti i case r s).img = s.img ∧
    (owMulti i case r s).cfg = s.cfg ∧
    (owMulti i case r s).ring = s.ring ∧
    (owMulti i case r s).acq = s.acq ∧
    (owMulti i case r s).cur = s.cur ∧
    (owMulti i case r s).krn = s.krn ∧
    (owMulti i case r s).est = s.est ∧
    (owMulti i case r s).win = s.win ∧
    (owMulti i case r s).pairs = s.pairs ∧
    (owMulti i case r s).time = s.time ∧
    (owMulti i case r s).therm = s.therm ∧
    (owMulti i case r s).ledg = s.ledg ∧
    (owMulti i case r s).tally = s.tally ∧
    (owMulti i case r s).host = s.host ∧
    (owMulti i case r s).sec = s.sec ∧
    (owMulti i case r s).pwr = s.pwr ∧
    (owMulti i case r s).bist = s.bist ∧
    (owMulti i case r s).pins = s.pins ∧
    (owMulti i case r s).freeIx = s.freeIx ∧
    (owMulti i case r s).pending = s.pending ∧
    (owMulti i case r s).drv.held = s.drv.held ∧
    (owMulti i case r s).recd.held = s.recd.held ∧
    (owMulti i case r s).evt.held = s.evt.held := by
  simp [owMulti, id @emit_keep, id @tripSet_keep]

theorem owConfirm_keep (r : Nat) (p : Nat) (ps : List Nat) (d : Int) (s : State) (w : Nat) :
    (owConfirm r p ps d s w).sys = s.sys ∧
    (owConfirm r p ps d s w).img = s.img ∧
    (owConfirm r p ps d s w).cfg = s.cfg ∧
    (owConfirm r p ps d s w).acq = s.acq ∧
    (owConfirm r p ps d s w).cur = s.cur ∧
    (owConfirm r p ps d s w).krn = s.krn ∧
    (owConfirm r p ps d s w).est = s.est ∧
    (owConfirm r p ps d s w).win = s.win ∧
    (owConfirm r p ps d s w).pairs = s.pairs ∧
    (owConfirm r p ps d s w).time = s.time ∧
    (owConfirm r p ps d s w).therm = s.therm ∧
    (owConfirm r p ps d s w).ledg = s.ledg ∧
    (owConfirm r p ps d s w).tally = s.tally ∧
    (owConfirm r p ps d s w).host = s.host ∧
    (owConfirm r p ps d s w).sec = s.sec ∧
    (owConfirm r p ps d s w).pwr = s.pwr ∧
    (owConfirm r p ps d s w).bist = s.bist ∧
    (owConfirm r p ps d s w).pins = s.pins ∧
    (owConfirm r p ps d s w).freeIx = s.freeIx ∧
    (owConfirm r p ps d s w).pending = s.pending ∧
    (owConfirm r p ps d s w).drv.held = s.drv.held ∧
    (owConfirm r p ps d s w).recd.held = s.recd.held ∧
    (owConfirm r p ps d s w).evt.held = s.evt.held := by
  simp only [owConfirm]
  repeat' split
  all_goals simp [id @emit_keep, id @modNode_keep, id @owMulti_keep]

theorem owCollapse_keep (r : Nat) (p : Nat) (ps : List Nat) (col : List Nat) (d : Int) (s : State) :
    (owCollapse r p ps col d s).sys = s.sys ∧
    (owCollapse r p ps col d s).img = s.img ∧
    (owCollapse r p ps col d s).cfg = s.cfg ∧
    (owCollapse r p ps col d s).acq = s.acq ∧
    (owCollapse r p ps col d s).cur = s.cur ∧
    (owCollapse r p ps col d s).krn = s.krn ∧
    (owCollapse r p ps col d s).est = s.est ∧
    (owCollapse r p ps col d s).win = s.win ∧
    (owCollapse r p ps col d s).pairs = s.pairs ∧
    (owCollapse r p ps col d s).time = s.time ∧
    (owCollapse r p ps col d s).therm = s.therm ∧
    (owCollapse r p ps col d s).ledg = s.ledg ∧
    (owCollapse r p ps col d s).tally = s.tally ∧
    (owCollapse r p ps col d s).host = s.host ∧
    (owCollapse r p ps col d s).sec = s.sec ∧
    (owCollapse r p ps col d s).pwr = s.pwr ∧
    (owCollapse r p ps col d s).bist = s.bist ∧
    (owCollapse r p ps col d s).pins = s.pins ∧
    (owCollapse r p ps col d s).freeIx = s.freeIx ∧
    (owCollapse r p ps col d s).pending = s.pending ∧
    (owCollapse r p ps col d s).drv.held = s.drv.held ∧
    (owCollapse r p ps col d s).recd.held = s.recd.held ∧
    (owCollapse r p ps col d s).evt.held = s.evt.held := by
  simp [owCollapse, id @emitIf_keep, id @modNode_keep, id @owConfirm_keep]

theorem owPass_keep (r : Nat) (p : Nat) (s : State) :
    (owPass r p s).sys = s.sys ∧
    (owPass r p s).img = s.img ∧
    (owPass r p s).cfg = s.cfg ∧
    (owPass r p s).acq = s.acq ∧
    (owPass r p s).cur = s.cur ∧
    (owPass r p s).husk = s.husk ∧
    (owPass r p s).drv = s.drv ∧
    (owPass r p s).krn = s.krn ∧
    (owPass r p s).est = s.est ∧
    (owPass r p s).win = s.win ∧
    (owPass r p s).pairs = s.pairs ∧
    (owPass r p s).time = s.time ∧
    (owPass r p s).therm = s.therm ∧
    (owPass r p s).nv = s.nv ∧
    (owPass r p s).ledg = s.ledg ∧
    (owPass r p s).tally = s.tally ∧
    (owPass r p s).host = s.host ∧
    (owPass r p s).sec = s.sec ∧
    (owPass r p s).pwr = s.pwr ∧
    (owPass r p s).bist = s.bist ∧
    (owPass r p s).pins = s.pins ∧
    (owPass r p s).freeIx = s.freeIx ∧
    (owPass r p s).pending = s.pending ∧
    (owPass r p s).recd.held = s.recd.held ∧
    (owPass r p s).evt.held = s.evt.held := by
  simp only [owPass]
  repeat' split
  all_goals simp [id @emit_keep, id @modNode_keep]

theorem owClean_keep (r : Nat) (p : Nat) (t : TopoNode) (d : Int) (s : State) :
    (owClean r p t d s).sys = s.sys ∧
    (owClean r p t d s).img = s.img ∧
    (owClean r p t d s).cfg = s.cfg ∧
    (owClean r p t d s).acq = s.acq ∧
    (owClean r p t d s).cur = s.cur ∧
    (owClean r p t d s).husk = s.husk ∧
    (owClean r p t d s).drv = s.drv ∧
    (owClean r p t d s).krn = s.krn ∧
    (owClean r p t d s).est = s.est ∧
    (owClean r p t d s).win = s.win ∧
    (owClean r p t d s).pairs = s.pairs ∧
    (owClean r p t d s).time = s.time ∧
    (owClean r p t d s).therm = s.therm ∧
    (owClean r p t d s).nv = s.nv ∧
    (owClean r p t d s).ledg = s.ledg ∧
    (owClean r p t d s).tally = s.tally ∧
    (owClean r p t d s).host = s.host ∧
    (owClean r p t d s).sec = s.sec ∧
    (owClean r p t d s).pwr = s.pwr ∧
    (owClean r p t d s).bist = s.bist ∧
    (owClean r p t d s).pins = s.pins ∧
    (owClean r p t d s).freeIx = s.freeIx ∧
    (owClean r p t d s).pending = s.pending ∧
    (owClean r p t d s).recd.held = s.recd.held ∧
    (owClean r p t d s).evt.held = s.evt.held := by
  simp only [owClean]
  repeat' split
  all_goals simp [id @emit_keep, id @emitIf_keep, id @modNode_keep, id @owPass_keep]

theorem execOwTestRead_keep {r : Nat} {p : Nat} {stack : Word} {ps : List Nat} {s t : State} (h : execOwTestRead r p stack ps s = .next t) :
    t.img = s.img ∧
    t.cfg = s.cfg ∧
    t.cur = s.cur ∧
    t.krn = s.krn ∧
    t.win = s.win ∧
    t.pairs = s.pairs ∧
    t.time = s.time ∧
    t.therm = s.therm ∧
    t.ledg = s.ledg ∧
    t.tally = s.tally ∧
    t.host = s.host ∧
    t.sec = s.sec ∧
    t.bist = s.bist ∧
    t.freeIx = s.freeIx ∧
    t.pending = s.pending ∧
    t.sys.held = s.sys.held ∧
    t.drv.held = s.drv.held ∧
    t.recd.held = s.recd.held ∧
    t.est.held = s.est.held ∧
    t.pwr.held = s.pwr.held ∧
    t.evt.held = s.evt.held ∧
    t.pins.held = s.pins.held := by
  have e := Host.Outcome.next.inj h
  subst e
  dsimp only
  repeat' split
  all_goals simp [id @modNode_keep, id @owClean_keep, id @owCollapse_keep, id @settle_keep]

end Sys2Proof.Machine
end

