-- ==== Sys2Proof/Laws/KeepPair.lean ====
section
/-! SUPPORT. What the operations of Machine/Pair.lean leave unchanged. -/

namespace Sys2Proof.Machine

theorem setLane_keep (l : Nat) (x : Lane) (s : State) :
    (setLane l x s).sys = s.sys ∧
    (setLane l x s).img = s.img ∧
    (setLane l x s).cfg = s.cfg ∧
    (setLane l x s).ring = s.ring ∧
    (setLane l x s).acq = s.acq ∧
    (setLane l x s).cur = s.cur ∧
    (setLane l x s).husk = s.husk ∧
    (setLane l x s).drv = s.drv ∧
    (setLane l x s).est = s.est ∧
    (setLane l x s).win = s.win ∧
    (setLane l x s).pairs = s.pairs ∧
    (setLane l x s).time = s.time ∧
    (setLane l x s).therm = s.therm ∧
    (setLane l x s).nv = s.nv ∧
    (setLane l x s).ledg = s.ledg ∧
    (setLane l x s).tally = s.tally ∧
    (setLane l x s).recd = s.recd ∧
    (setLane l x s).host = s.host ∧
    (setLane l x s).sec = s.sec ∧
    (setLane l x s).pwr = s.pwr ∧
    (setLane l x s).bist = s.bist ∧
    (setLane l x s).evt = s.evt ∧
    (setLane l x s).pins = s.pins ∧
    (setLane l x s).freeIx = s.freeIx ∧
    (setLane l x s).pending = s.pending := by
  simp [setLane]

theorem modLane_keep (l : Nat) (f : Lane → Lane) (s : State) :
    (modLane l f s).sys = s.sys ∧
    (modLane l f s).img = s.img ∧
    (modLane l f s).cfg = s.cfg ∧
    (modLane l f s).ring = s.ring ∧
    (modLane l f s).acq = s.acq ∧
    (modLane l f s).cur = s.cur ∧
    (modLane l f s).husk = s.husk ∧
    (modLane l f s).drv = s.drv ∧
    (modLane l f s).est = s.est ∧
    (modLane l f s).win = s.win ∧
    (modLane l f s).pairs = s.pairs ∧
    (modLane l f s).time = s.time ∧
    (modLane l f s).therm = s.therm ∧
    (modLane l f s).nv = s.nv ∧
    (modLane l f s).ledg = s.ledg ∧
    (modLane l f s).tally = s.tally ∧
    (modLane l f s).recd = s.recd ∧
    (modLane l f s).host = s.host ∧
    (modLane l f s).sec = s.sec ∧
    (modLane l f s).pwr = s.pwr ∧
    (modLane l f s).bist = s.bist ∧
    (modLane l f s).evt = s.evt ∧
    (modLane l f s).pins = s.pins ∧
    (modLane l f s).freeIx = s.freeIx ∧
    (modLane l f s).pending = s.pending := by
  simp [modLane, id @setLane_keep]

theorem modPair_keep (q : Nat) (f : PairSt → PairSt) (s : State) :
    (modPair q f s).sys = s.sys ∧
    (modPair q f s).img = s.img ∧
    (modPair q f s).cfg = s.cfg ∧
    (modPair q f s).ring = s.ring ∧
    (modPair q f s).acq = s.acq ∧
    (modPair q f s).cur = s.cur ∧
    (modPair q f s).husk = s.husk ∧
    (modPair q f s).drv = s.drv ∧
    (modPair q f s).krn = s.krn ∧
    (modPair q f s).est = s.est ∧
    (modPair q f s).win = s.win ∧
    (modPair q f s).time = s.time ∧
    (modPair q f s).therm = s.therm ∧
    (modPair q f s).nv = s.nv ∧
    (modPair q f s).ledg = s.ledg ∧
    (modPair q f s).tally = s.tally ∧
    (modPair q f s).recd = s.recd ∧
    (modPair q f s).host = s.host ∧
    (modPair q f s).sec = s.sec ∧
    (modPair q f s).pwr = s.pwr ∧
    (modPair q f s).bist = s.bist ∧
    (modPair q f s).evt = s.evt ∧
    (modPair q f s).pins = s.pins ∧
    (modPair q f s).freeIx = s.freeIx ∧
    (modPair q f s).pending = s.pending := by
  simp [modPair]

theorem noSpare_keep (s : State) :
    (noSpare s).sys = s.sys ∧
    (noSpare s).img = s.img ∧
    (noSpare s).cfg = s.cfg ∧
    (noSpare s).ring = s.ring ∧
    (noSpare s).acq = s.acq ∧
    (noSpare s).cur = s.cur ∧
    (noSpare s).husk = s.husk ∧
    (noSpare s).drv = s.drv ∧
    (noSpare s).krn = s.krn ∧
    (noSpare s).est = s.est ∧
    (noSpare s).win = s.win ∧
    (noSpare s).pairs = s.pairs ∧
    (noSpare s).time = s.time ∧
    (noSpare s).therm = s.therm ∧
    (noSpare s).nv = s.nv ∧
    (noSpare s).ledg = s.ledg ∧
    (noSpare s).tally = s.tally ∧
    (noSpare s).host = s.host ∧
    (noSpare s).sec = s.sec ∧
    (noSpare s).pwr = s.pwr ∧
    (noSpare s).bist = s.bist ∧
    (noSpare s).pins = s.pins ∧
    (noSpare s).freeIx = s.freeIx ∧
    (noSpare s).pending = s.pending ∧
    (noSpare s).recd.held = s.recd.held ∧
    (noSpare s).evt.held = s.evt.held := by
  unfold noSpare
  repeat' split
  all_goals simp [id @emit_keep]

theorem evenRule_keep (mode : Nat) (s : State) :
    (evenRule mode s).sys = s.sys ∧
    (evenRule mode s).img = s.img ∧
    (evenRule mode s).cfg = s.cfg ∧
    (evenRule mode s).ring = s.ring ∧
    (evenRule mode s).acq = s.acq ∧
    (evenRule mode s).cur = s.cur ∧
    (evenRule mode s).husk = s.husk ∧
    (evenRule mode s).drv = s.drv ∧
    (evenRule mode s).krn = s.krn ∧
    (evenRule mode s).est = s.est ∧
    (evenRule mode s).win = s.win ∧
    (evenRule mode s).time = s.time ∧
    (evenRule mode s).therm = s.therm ∧
    (evenRule mode s).nv = s.nv ∧
    (evenRule mode s).ledg = s.ledg ∧
    (evenRule mode s).tally = s.tally ∧
    (evenRule mode s).host = s.host ∧
    (evenRule mode s).sec = s.sec ∧
    (evenRule mode s).pwr = s.pwr ∧
    (evenRule mode s).bist = s.bist ∧
    (evenRule mode s).pins = s.pins ∧
    (evenRule mode s).freeIx = s.freeIx ∧
    (evenRule mode s).pending = s.pending ∧
    (evenRule mode s).recd.held = s.recd.held ∧
    (evenRule mode s).evt.held = s.evt.held := by
  simp [evenRule, id @noSpare_keep]

theorem fillRule_keep (q : Nat) (s : State) :
    (fillRule q s).sys = s.sys ∧
    (fillRule q s).img = s.img ∧
    (fillRule q s).cfg = s.cfg ∧
    (fillRule q s).ring = s.ring ∧
    (fillRule q s).acq = s.acq ∧
    (fillRule q s).cur = s.cur ∧
    (fillRule q s).husk = s.husk ∧
    (fillRule q s).drv = s.drv ∧
    (fillRule q s).krn = s.krn ∧
    (fillRule q s).est = s.est ∧
    (fillRule q s).win = s.win ∧
    (fillRule q s).time = s.time ∧
    (fillRule q s).therm = s.therm ∧
    (fillRule q s).nv = s.nv ∧
    (fillRule q s).ledg = s.ledg ∧
    (fillRule q s).tally = s.tally ∧
    (fillRule q s).host = s.host ∧
    (fillRule q s).sec = s.sec ∧
    (fillRule q s).pwr = s.pwr ∧
    (fillRule q s).bist = s.bist ∧
    (fillRule q s).pins = s.pins ∧
    (fillRule q s).freeIx = s.freeIx ∧
    (fillRule q s).pending = s.pending ∧
    (fillRule q s).recd.held = s.recd.held ∧
    (fillRule q s).evt.held = s.evt.held := by
  simp only [fillRule]
  repeat' split
  all_goals simp [id @noSpare_keep]

theorem pairClear_keep (q : Nat) (s : State) :
    (pairClear q s).sys = s.sys ∧
    (pairClear q s).img = s.img ∧
    (pairClear q s).cfg = s.cfg ∧
    (pairClear q s).ring = s.ring ∧
    (pairClear q s).acq = s.acq ∧
    (pairClear q s).cur = s.cur ∧
    (pairClear q s).husk = s.husk ∧
    (pairClear q s).drv = s.drv ∧
    (pairClear q s).est = s.est ∧
    (pairClear q s).win = s.win ∧
    (pairClear q s).time = s.time ∧
    (pairClear q s).therm = s.therm ∧
    (pairClear q s).nv = s.nv ∧
    (pairClear q s).ledg = s.ledg ∧
    (pairClear q s).tally = s.tally ∧
    (pairClear q s).recd = s.recd ∧
    (pairClear q s).host = s.host ∧
    (pairClear q s).sec = s.sec ∧
    (pairClear q s).pwr = s.pwr ∧
    (pairClear q s).bist = s.bist ∧
    (pairClear q s).evt = s.evt ∧
    (pairClear q s).pins = s.pins ∧
    (pairClear q s).freeIx = s.freeIx ∧
    (pairClear q s).pending = s.pending := by
  simp [pairClear, id @modLane_keep, id @modPair_keep]

theorem quarantine_keep (q : Nat) (cause : Nat) (s : State) :
    (quarantine q cause s).sys = s.sys ∧
    (quarantine q cause s).img = s.img ∧
    (quarantine q cause s).cfg = s.cfg ∧
    (quarantine q cause s).ring = s.ring ∧
    (quarantine q cause s).acq = s.acq ∧
    (quarantine q cause s).cur = s.cur ∧
    (quarantine q cause s).husk = s.husk ∧
    (quarantine q cause s).drv = s.drv ∧
    (quarantine q cause s).est = s.est ∧
    (quarantine q cause s).win = s.win ∧
    (quarantine q cause s).time = s.time ∧
    (quarantine q cause s).therm = s.therm ∧
    (quarantine q cause s).nv = s.nv ∧
    (quarantine q cause s).ledg = s.ledg ∧
    (quarantine q cause s).tally = s.tally ∧
    (quarantine q cause s).host = s.host ∧
    (quarantine q cause s).sec = s.sec ∧
    (quarantine q cause s).pwr = s.pwr ∧
    (quarantine q cause s).bist = s.bist ∧
    (quarantine q cause s).pins = s.pins ∧
    (quarantine q cause s).freeIx = s.freeIx ∧
    (quarantine q cause s).pending = s.pending ∧
    (quarantine q cause s).recd.held = s.recd.held ∧
    (quarantine q cause s).evt.held = s.evt.held := by
  simp [quarantine, id @emit_keep, id @modPair_keep, id @pairClear_keep]

theorem unverified_keep (q : Nat) (cause : Nat) (s : State) :
    (unverified q cause s).sys = s.sys ∧
    (unverified q cause s).img = s.img ∧
    (unverified q cause s).cfg = s.cfg ∧
    (unverified q cause s).ring = s.ring ∧
    (unverified q cause s).acq = s.acq ∧
    (unverified q cause s).cur = s.cur ∧
    (unverified q cause s).husk = s.husk ∧
    (unverified q cause s).drv = s.drv ∧
    (unverified q cause s).krn = s.krn ∧
    (unverified q cause s).est = s.est ∧
    (unverified q cause s).win = s.win ∧
    (unverified q cause s).time = s.time ∧
    (unverified q cause s).therm = s.therm ∧
    (unverified q cause s).nv = s.nv ∧
    (unverified q cause s).ledg = s.ledg ∧
    (unverified q cause s).tally = s.tally ∧
    (unverified q cause s).host = s.host ∧
    (unverified q cause s).sec = s.sec ∧
    (unverified q cause s).pwr = s.pwr ∧
    (unverified q cause s).bist = s.bist ∧
    (unverified q cause s).pins = s.pins ∧
    (unverified q cause s).freeIx = s.freeIx ∧
    (unverified q cause s).pending = s.pending ∧
    (unverified q cause s).recd.held = s.recd.held ∧
    (unverified q cause s).evt.held = s.evt.held := by
  unfold unverified
  repeat' split
  all_goals simp [id @emit_keep, id @modPair_keep]

theorem rollback_keep (q : Nat) (x : PStep) (badCkpt : Bool) (s : State) :
    (rollback q x badCkpt s).sys = s.sys ∧
    (rollback q x badCkpt s).img = s.img ∧
    (rollback q x badCkpt s).cfg = s.cfg ∧
    (rollback q x badCkpt s).ring = s.ring ∧
    (rollback q x badCkpt s).acq = s.acq ∧
    (rollback q x badCkpt s).cur = s.cur ∧
    (rollback q x badCkpt s).husk = s.husk ∧
    (rollback q x badCkpt s).drv = s.drv ∧
    (rollback q x badCkpt s).est = s.est ∧
    (rollback q x badCkpt s).win = s.win ∧
    (rollback q x badCkpt s).time = s.time ∧
    (rollback q x badCkpt s).therm = s.therm ∧
    (rollback q x badCkpt s).nv = s.nv ∧
    (rollback q x badCkpt s).ledg = s.ledg ∧
    (rollback q x badCkpt s).tally = s.tally ∧
    (rollback q x badCkpt s).host = s.host ∧
    (rollback q x badCkpt s).sec = s.sec ∧
    (rollback q x badCkpt s).pwr = s.pwr ∧
    (rollback q x badCkpt s).bist = s.bist ∧
    (rollback q x badCkpt s).pins = s.pins ∧
    (rollback q x badCkpt s).freeIx = s.freeIx ∧
    (rollback q x badCkpt s).pending = s.pending ∧
    (rollback q x badCkpt s).recd.held = s.recd.held ∧
    (rollback q x badCkpt s).evt.held = s.evt.held := by
  simp only [rollback]
  repeat' split
  all_goals simp [id @modLane_keep, id @modPair_keep, id @quarantine_keep]

@[simp] theorem mismatch_sys (q : Nat) (x : PStep) (latent badCkpt : Bool) (log : State → State) (s : State)
    (hf : ∀ t, (log t).sys = t.sys) : (mismatch q x latent badCkpt log s).sys = s.sys := by
  unfold mismatch
  dsimp only
  repeat' split
  all_goals simp [hf, id @emit_keep, id @modPair_keep, id @quarantine_keep, id @rollback_keep]

@[simp] theorem mismatch_img (q : Nat) (x : PStep) (latent badCkpt : Bool) (log : State → State) (s : State)
    (hf : ∀ t, (log t).img = t.img) : (mismatch q x latent badCkpt log s).img = s.img := by
  unfold mismatch
  dsimp only
  repeat' split
  all_goals simp [hf, id @emit_keep, id @modPair_keep, id @quarantine_keep, id @rollback_keep]

@[simp] theorem mismatch_cfg (q : Nat) (x : PStep) (latent badCkpt : Bool) (log : State → State) (s : State)
    (hf : ∀ t, (log t).cfg = t.cfg) : (mismatch q x latent badCkpt log s).cfg = s.cfg := by
  unfold mismatch
  dsimp only
  repeat' split
  all_goals simp [hf, id @emit_keep, id @modPair_keep, id @quarantine_keep, id @rollback_keep]

@[simp] theorem mismatch_ring (q : Nat) (x : PStep) (latent badCkpt : Bool) (log : State → State) (s : State)
    (hf : ∀ t, (log t).ring = t.ring) : (mismatch q x latent badCkpt log s).ring = s.ring := by
  unfold mismatch
  dsimp only
  repeat' split
  all_goals simp [hf, id @emit_keep, id @modPair_keep, id @quarantine_keep, id @rollback_keep]

@[simp] theorem mismatch_acq (q : Nat) (x : PStep) (latent badCkpt : Bool) (log : State → State) (s : State)
    (hf : ∀ t, (log t).acq = t.acq) : (mismatch q x latent badCkpt log s).acq = s.acq := by
  unfold mismatch
  dsimp only
  repeat' split
  all_goals simp [hf, id @emit_keep, id @modPair_keep, id @quarantine_keep, id @rollback_keep]

@[simp] theorem mismatch_cur (q : Nat) (x : PStep) (latent badCkpt : Bool) (log : State → State) (s : State)
    (hf : ∀ t, (log t).cur = t.cur) : (mismatch q x latent badCkpt log s).cur = s.cur := by
  unfold mismatch
  dsimp only
  repeat' split
  all_goals simp [hf, id @emit_keep, id @modPair_keep, id @quarantine_keep, id @rollback_keep]

@[simp] theorem mismatch_husk (q : Nat) (x : PStep) (latent badCkpt : Bool) (log : State → State) (s : State)
    (hf : ∀ t, (log t).husk = t.husk) : (mismatch q x latent badCkpt log s).husk = s.husk := by
  unfold mismatch
  dsimp only
  repeat' split
  all_goals simp [hf, id @emit_keep, id @modPair_keep, id @quarantine_keep, id @rollback_keep]

@[simp] theorem mismatch_drv (q : Nat) (x : PStep) (latent badCkpt : Bool) (log : State → State) (s : State)
    (hf : ∀ t, (log t).drv = t.drv) : (mismatch q x latent badCkpt log s).drv = s.drv := by
  unfold mismatch
  dsimp only
  repeat' split
  all_goals simp [hf, id @emit_keep, id @modPair_keep, id @quarantine_keep, id @rollback_keep]

@[simp] theorem mismatch_est (q : Nat) (x : PStep) (latent badCkpt : Bool) (log : State → State) (s : State)
    (hf : ∀ t, (log t).est = t.est) : (mismatch q x latent badCkpt log s).est = s.est := by
  unfold mismatch
  dsimp only
  repeat' split
  all_goals simp [hf, id @emit_keep, id @modPair_keep, id @quarantine_keep, id @rollback_keep]

@[simp] theorem mismatch_win (q : Nat) (x : PStep) (latent badCkpt : Bool) (log : State → State) (s : State)
    (hf : ∀ t, (log t).win = t.win) : (mismatch q x latent badCkpt log s).win = s.win := by
  unfold mismatch
  dsimp only
  repeat' split
  all_goals simp [hf, id @emit_keep, id @modPair_keep, id @quarantine_keep, id @rollback_keep]

@[simp] theorem mismatch_time (q : Nat) (x : PStep) (latent badCkpt : Bool) (log : State → State) (s : State)
    (hf : ∀ t, (log t).time = t.time) : (mismatch q x latent badCkpt log s).time = s.time := by
  unfold mismatch
  dsimp only
  repeat' split
  all_goals simp [hf, id @emit_keep, id @modPair_keep, id @quarantine_keep, id @rollback_keep]

@[simp] theorem mismatch_therm (q : Nat) (x : PStep) (latent badCkpt : Bool) (log : State → State) (s : State)
    (hf : ∀ t, (log t).therm = t.therm) : (mismatch q x latent badCkpt log s).therm = s.therm := by
  unfold mismatch
  dsimp only
  repeat' split
  all_goals simp [hf, id @emit_keep, id @modPair_keep, id @quarantine_keep, id @rollback_keep]

@[simp] theorem mismatch_nv (q : Nat) (x : PStep) (latent badCkpt : Bool) (log : State → State) (s : State)
    (hf : ∀ t, (log t).nv = t.nv) : (mismatch q x latent badCkpt log s).nv = s.nv := by
  unfold mismatch
  dsimp only
  repeat' split
  all_goals simp [hf, id @emit_keep, id @modPair_keep, id @quarantine_keep, id @rollback_keep]

@[simp] theorem mismatch_ledg (q : Nat) (x : PStep) (latent badCkpt : Bool) (log : State → State) (s : State)
    (hf : ∀ t, (log t).ledg = t.ledg) : (mismatch q x latent badCkpt log s).ledg = s.ledg := by
  unfold mismatch
  dsimp only
  repeat' split
  all_goals simp [hf, id @emit_keep, id @modPair_keep, id @quarantine_keep, id @rollback_keep]

@[simp] theorem mismatch_tally (q : Nat) (x : PStep) (latent badCkpt : Bool) (log : State → State) (s : State)
    (hf : ∀ t, (log t).tally = t.tally) : (mismatch q x latent badCkpt log s).tally = s.tally := by
  unfold mismatch
  dsimp only
  repeat' split
  all_goals simp [hf, id @emit_keep, id @modPair_keep, id @quarantine_keep, id @rollback_keep]

@[simp] theorem mismatch_host (q : Nat) (x : PStep) (latent badCkpt : Bool) (log : State → State) (s : State)
    (hf : ∀ t, (log t).host = t.host) : (mismatch q x latent badCkpt log s).host = s.host := by
  unfold mismatch
  dsimp only
  repeat' split
  all_goals simp [hf, id @emit_keep, id @modPair_keep, id @quarantine_keep, id @rollback_keep]

@[simp] theorem mismatch_sec (q : Nat) (x : PStep) (latent badCkpt : Bool) (log : State → State) (s : State)
    (hf : ∀ t, (log t).sec = t.sec) : (mismatch q x latent badCkpt log s).sec = s.sec := by
  unfold mismatch
  dsimp only
  repeat' split
  all_goals simp [hf, id @emit_keep, id @modPair_keep, id @quarantine_keep, id @rollback_keep]

@[simp] theorem mismatch_pwr (q : Nat) (x : PStep) (latent badCkpt : Bool) (log : State → State) (s : State)
    (hf : ∀ t, (log t).pwr = t.pwr) : (mismatch q x latent badCkpt log s).pwr = s.pwr := by
  unfold mismatch
  dsimp only
  repeat' split
  all_goals simp [hf, id @emit_keep, id @modPair_keep, id @quarantine_keep, id @rollback_keep]

@[simp] theorem mismatch_bist (q : Nat) (x : PStep) (latent badCkpt : Bool) (log : State → State) (s : State)
    (hf : ∀ t, (log t).bist = t.bist) : (mismatch q x latent badCkpt log s).bist = s.bist := by
  unfold mismatch
  dsimp only
  repeat' split
  all_goals simp [hf, id @emit_keep, id @modPair_keep, id @quarantine_keep, id @rollback_keep]

@[simp] theorem mismatch_pins (q : Nat) (x : PStep) (latent badCkpt : Bool) (log : State → State) (s : State)
    (hf : ∀ t, (log t).pins = t.pins) : (mismatch q x latent badCkpt log s).pins = s.pins := by
  unfold mismatch
  dsimp only
  repeat' split
  all_goals simp [hf, id @emit_keep, id @modPair_keep, id @quarantine_keep, id @rollback_keep]

@[simp] theorem mismatch_pending (q : Nat) (x : PStep) (latent badCkpt : Bool) (log : State → State) (s : State)
    (hf : ∀ t, (log t).pending = t.pending) : (mismatch q x latent badCkpt log s).pending = s.pending := by
  unfold mismatch
  dsimp only
  repeat' split
  all_goals simp [hf, id @emit_keep, id @modPair_keep, id @quarantine_keep, id @rollback_keep]

@[simp] theorem mismatch_recd_held (q : Nat) (x : PStep) (latent badCkpt : Bool) (log : State → State) (s : State)
    (hf : ∀ t, (log t).recd.held = t.recd.held) : (mismatch q x latent badCkpt log s).recd.held = s.recd.held := by
  unfold mismatch
  dsimp only
  repeat' split
  all_goals simp [hf, id @emit_keep, id @modPair_keep, id @quarantine_keep, id @rollback_keep]

@[simp] theorem mismatch_evt_held (q : Nat) (x : PStep) (latent badCkpt : Bool) (log : State → State) (s : State)
    (hf : ∀ t, (log t).evt.held = t.evt.held) : (mismatch q x latent badCkpt log s).evt.held = s.evt.held := by
  unfold mismatch
  dsimp only
  repeat' split
  all_goals simp [hf, id @emit_keep, id @modPair_keep, id @quarantine_keep, id @rollback_keep]

@[simp] theorem mismatch_freeIx (q : Nat) (x : PStep) (latent badCkpt : Bool) (log : State → State) (s : State)
    (hf : ∀ t, (log t).freeIx = t.freeIx) : (mismatch q x latent badCkpt log s).freeIx = s.freeIx := by
  unfold mismatch
  dsimp only
  repeat' split
  all_goals simp [hf, id @emit_keep, id @modPair_keep, id @quarantine_keep, id @rollback_keep]

theorem logMismatch_keep (q : Nat) (c : Nat) (target : Nat) (mv : Word) (cv : Word) (s : State) :
    (logMismatch q c target mv cv s).sys = s.sys ∧
    (logMismatch q c target mv cv s).img = s.img ∧
    (logMismatch q c target mv cv s).cfg = s.cfg ∧
    (logMismatch q c target mv cv s).ring = s.ring ∧
    (logMismatch q c target mv cv s).acq = s.acq ∧
    (logMismatch q c target mv cv s).cur = s.cur ∧
    (logMismatch q c target mv cv s).husk = s.husk ∧
    (logMismatch q c target mv cv s).drv = s.drv ∧
    (logMismatch q c target mv cv s).krn = s.krn ∧
    (logMismatch q c target mv cv s).est = s.est ∧
    (logMismatch q c target mv cv s).win = s.win ∧
    (logMismatch q c target mv cv s).pairs = s.pairs ∧
    (logMismatch q c target mv cv s).time = s.time ∧
    (logMismatch q c target mv cv s).therm = s.therm ∧
    (logMismatch q c target mv cv s).nv = s.nv ∧
    (logMismatch q c target mv cv s).ledg = s.ledg ∧
    (logMismatch q c target mv cv s).tally = s.tally ∧
    (logMismatch q c target mv cv s).host = s.host ∧
    (logMismatch q c target mv cv s).sec = s.sec ∧
    (logMismatch q c target mv cv s).pwr = s.pwr ∧
    (logMismatch q c target mv cv s).bist = s.bist ∧
    (logMismatch q c target mv cv s).pins = s.pins ∧
    (logMismatch q c target mv cv s).freeIx = s.freeIx ∧
    (logMismatch q c target mv cv s).pending = s.pending ∧
    (logMismatch q c target mv cv s).recd.held = s.recd.held ∧
    (logMismatch q c target mv cv s).evt.held = s.evt.held := by
  simp [logMismatch, id @emit_keep]

theorem logOpen_keep (q : Nat) (c : Nat) (s : State) :
    (logOpen q c s).sys = s.sys ∧
    (logOpen q c s).img = s.img ∧
    (logOpen q c s).cfg = s.cfg ∧
    (logOpen q c s).ring = s.ring ∧
    (logOpen q c s).acq = s.acq ∧
    (logOpen q c s).cur = s.cur ∧
    (logOpen q c s).husk = s.husk ∧
    (logOpen q c s).drv = s.drv ∧
    (logOpen q c s).krn = s.krn ∧
    (logOpen q c s).est = s.est ∧
    (logOpen q c s).win = s.win ∧
    (logOpen q c s).pairs = s.pairs ∧
    (logOpen q c s).time = s.time ∧
    (logOpen q c s).therm = s.therm ∧
    (logOpen q c s).nv = s.nv ∧
    (logOpen q c s).ledg = s.ledg ∧
    (logOpen q c s).tally = s.tally ∧
    (logOpen q c s).host = s.host ∧
    (logOpen q c s).sec = s.sec ∧
    (logOpen q c s).pwr = s.pwr ∧
    (logOpen q c s).bist = s.bist ∧
    (logOpen q c s).pins = s.pins ∧
    (logOpen q c s).pending = s.pending ∧
    (logOpen q c s).recd.held = s.recd.held ∧
    (logOpen q c s).evt.held = s.evt.held := by
  simp [logOpen, id @emit_keep, id @takeFree_keep]

theorem eccEvent_keep (l : Nat) (c : Nat) (s : State) :
    (eccEvent l c s).sys = s.sys ∧
    (eccEvent l c s).img = s.img ∧
    (eccEvent l c s).cfg = s.cfg ∧
    (eccEvent l c s).ring = s.ring ∧
    (eccEvent l c s).acq = s.acq ∧
    (eccEvent l c s).cur = s.cur ∧
    (eccEvent l c s).husk = s.husk ∧
    (eccEvent l c s).drv = s.drv ∧
    (eccEvent l c s).est = s.est ∧
    (eccEvent l c s).win = s.win ∧
    (eccEvent l c s).time = s.time ∧
    (eccEvent l c s).therm = s.therm ∧
    (eccEvent l c s).nv = s.nv ∧
    (eccEvent l c s).ledg = s.ledg ∧
    (eccEvent l c s).tally = s.tally ∧
    (eccEvent l c s).host = s.host ∧
    (eccEvent l c s).sec = s.sec ∧
    (eccEvent l c s).pwr = s.pwr ∧
    (eccEvent l c s).bist = s.bist ∧
    (eccEvent l c s).pins = s.pins ∧
    (eccEvent l c s).pending = s.pending ∧
    (eccEvent l c s).recd.held = s.recd.held ∧
    (eccEvent l c s).evt.held = s.evt.held := by
  unfold eccEvent
  dsimp only
  repeat' split
  all_goals simp [id @logOpen_keep, id @modPair_keep, id @quarantine_keep, id @setLane_keep]

theorem estInit_keep (c : Nat) (s : State) :
    (estInit c s).sys = s.sys ∧
    (estInit c s).img = s.img ∧
    (estInit c s).cfg = s.cfg ∧
    (estInit c s).ring = s.ring ∧
    (estInit c s).acq = s.acq ∧
    (estInit c s).cur = s.cur ∧
    (estInit c s).husk = s.husk ∧
    (estInit c s).drv = s.drv ∧
    (estInit c s).krn = s.krn ∧
    (estInit c s).win = s.win ∧
    (estInit c s).pairs = s.pairs ∧
    (estInit c s).time = s.time ∧
    (estInit c s).therm = s.therm ∧
    (estInit c s).nv = s.nv ∧
    (estInit c s).ledg = s.ledg ∧
    (estInit c s).tally = s.tally ∧
    (estInit c s).recd = s.recd ∧
    (estInit c s).host = s.host ∧
    (estInit c s).sec = s.sec ∧
    (estInit c s).pwr = s.pwr ∧
    (estInit c s).bist = s.bist ∧
    (estInit c s).evt = s.evt ∧
    (estInit c s).pins = s.pins ∧
    (estInit c s).freeIx = s.freeIx ∧
    (estInit c s).pending = s.pending := by
  simp [estInit, id @modECell_keep]

theorem initCell_keep (keep : Bool) (c : Nat) (s : State) :
    (initCell keep c s).sys = s.sys ∧
    (initCell keep c s).img = s.img ∧
    (initCell keep c s).cfg = s.cfg ∧
    (initCell keep c s).ring = s.ring ∧
    (initCell keep c s).acq = s.acq ∧
    (initCell keep c s).cur = s.cur ∧
    (initCell keep c s).husk = s.husk ∧
    (initCell keep c s).drv = s.drv ∧
    (initCell keep c s).win = s.win ∧
    (initCell keep c s).pairs = s.pairs ∧
    (initCell keep c s).time = s.time ∧
    (initCell keep c s).therm = s.therm ∧
    (initCell keep c s).nv = s.nv ∧
    (initCell keep c s).ledg = s.ledg ∧
    (initCell keep c s).tally = s.tally ∧
    (initCell keep c s).recd = s.recd ∧
    (initCell keep c s).host = s.host ∧
    (initCell keep c s).sec = s.sec ∧
    (initCell keep c s).pwr = s.pwr ∧
    (initCell keep c s).bist = s.bist ∧
    (initCell keep c s).evt = s.evt ∧
    (initCell keep c s).pins = s.pins ∧
    (initCell keep c s).freeIx = s.freeIx ∧
    (initCell keep c s).pending = s.pending := by
  unfold initCell
  repeat' split
  all_goals simp [id @estInit_keep, id @modKCell_keep]

theorem rejectStep_keep (l : Nat) (c : Nat) (s : State) :
    (rejectStep l c s).sys = s.sys ∧
    (rejectStep l c s).img = s.img ∧
    (rejectStep l c s).cfg = s.cfg ∧
    (rejectStep l c s).ring = s.ring ∧
    (rejectStep l c s).acq = s.acq ∧
    (rejectStep l c s).cur = s.cur ∧
    (rejectStep l c s).husk = s.husk ∧
    (rejectStep l c s).drv = s.drv ∧
    (rejectStep l c s).win = s.win ∧
    (rejectStep l c s).pairs = s.pairs ∧
    (rejectStep l c s).time = s.time ∧
    (rejectStep l c s).therm = s.therm ∧
    (rejectStep l c s).nv = s.nv ∧
    (rejectStep l c s).ledg = s.ledg ∧
    (rejectStep l c s).tally = s.tally ∧
    (rejectStep l c s).host = s.host ∧
    (rejectStep l c s).sec = s.sec ∧
    (rejectStep l c s).pwr = s.pwr ∧
    (rejectStep l c s).bist = s.bist ∧
    (rejectStep l c s).pins = s.pins ∧
    (rejectStep l c s).freeIx = s.freeIx ∧
    (rejectStep l c s).pending = s.pending ∧
    (rejectStep l c s).recd.held = s.recd.held ∧
    (rejectStep l c s).evt.held = s.evt.held := by
  simp only [rejectStep]
  repeat' split
  all_goals simp [id @emit_keep, id @emitIf_keep, id @initCell_keep, id @jumpMark_keep, id @modKCell_keep]

theorem releaseSet_keep (l : Nat) (c : Nat) (split : Bool) (ws : List KWrite) (s : State) :
    (releaseSet l c split ws s).sys = s.sys ∧
    (releaseSet l c split ws s).img = s.img ∧
    (releaseSet l c split ws s).cfg = s.cfg ∧
    (releaseSet l c split ws s).ring = s.ring ∧
    (releaseSet l c split ws s).acq = s.acq ∧
    (releaseSet l c split ws s).cur = s.cur ∧
    (releaseSet l c split ws s).husk = s.husk ∧
    (releaseSet l c split ws s).drv = s.drv ∧
    (releaseSet l c split ws s).win = s.win ∧
    (releaseSet l c split ws s).pairs = s.pairs ∧
    (releaseSet l c split ws s).time = s.time ∧
    (releaseSet l c split ws s).therm = s.therm ∧
    (releaseSet l c split ws s).nv = s.nv ∧
    (releaseSet l c split ws s).ledg = s.ledg ∧
    (releaseSet l c split ws s).tally = s.tally ∧
    (releaseSet l c split ws s).host = s.host ∧
    (releaseSet l c split ws s).sec = s.sec ∧
    (releaseSet l c split ws s).pwr = s.pwr ∧
    (releaseSet l c split ws s).bist = s.bist ∧
    (releaseSet l c split ws s).pins = s.pins ∧
    (releaseSet l c split ws s).freeIx = s.freeIx ∧
    (releaseSet l c split ws s).pending = s.pending ∧
    (releaseSet l c split ws s).recd.held = s.recd.held ∧
    (releaseSet l c split ws s).evt.held = s.evt.held := by
  unfold releaseSet
  repeat' split
  all_goals simp [id @modKCell_keep, id @rejectStep_keep]

theorem releaseShadow_keep (c : Nat) (ws : List KWrite) (s : State) :
    (releaseShadow c ws s).sys = s.sys ∧
    (releaseShadow c ws s).img = s.img ∧
    (releaseShadow c ws s).cfg = s.cfg ∧
    (releaseShadow c ws s).ring = s.ring ∧
    (releaseShadow c ws s).acq = s.acq ∧
    (releaseShadow c ws s).cur = s.cur ∧
    (releaseShadow c ws s).husk = s.husk ∧
    (releaseShadow c ws s).drv = s.drv ∧
    (releaseShadow c ws s).krn = s.krn ∧
    (releaseShadow c ws s).est = s.est ∧
    (releaseShadow c ws s).win = s.win ∧
    (releaseShadow c ws s).time = s.time ∧
    (releaseShadow c ws s).therm = s.therm ∧
    (releaseShadow c ws s).nv = s.nv ∧
    (releaseShadow c ws s).ledg = s.ledg ∧
    (releaseShadow c ws s).tally = s.tally ∧
    (releaseShadow c ws s).recd = s.recd ∧
    (releaseShadow c ws s).host = s.host ∧
    (releaseShadow c ws s).sec = s.sec ∧
    (releaseShadow c ws s).pwr = s.pwr ∧
    (releaseShadow c ws s).bist = s.bist ∧
    (releaseShadow c ws s).evt = s.evt ∧
    (releaseShadow c ws s).pins = s.pins ∧
    (releaseShadow c ws s).freeIx = s.freeIx ∧
    (releaseShadow c ws s).pending = s.pending := by
  simp [releaseShadow]

theorem injection_keep (q : Nat) (w : KWrite) (e : KWrite) (cmp : Cmp) (s : State) :
    (injection q w e cmp s).sys = s.sys ∧
    (injection q w e cmp s).img = s.img ∧
    (injection q w e cmp s).cfg = s.cfg ∧
    (injection q w e cmp s).ring = s.ring ∧
    (injection q w e cmp s).acq = s.acq ∧
    (injection q w e cmp s).cur = s.cur ∧
    (injection q w e cmp s).husk = s.husk ∧
    (injection q w e cmp s).drv = s.drv ∧
    (injection q w e cmp s).krn = s.krn ∧
    (injection q w e cmp s).est = s.est ∧
    (injection q w e cmp s).win = s.win ∧
    (injection q w e cmp s).time = s.time ∧
    (injection q w e cmp s).therm = s.therm ∧
    (injection q w e cmp s).nv = s.nv ∧
    (injection q w e cmp s).ledg = s.ledg ∧
    (injection q w e cmp s).tally = s.tally ∧
    (injection q w e cmp s).host = s.host ∧
    (injection q w e cmp s).sec = s.sec ∧
    (injection q w e cmp s).pwr = s.pwr ∧
    (injection q w e cmp s).bist = s.bist ∧
    (injection q w e cmp s).pins = s.pins ∧
    (injection q w e cmp s).freeIx = s.freeIx ∧
    (injection q w e cmp s).pending = s.pending ∧
    (injection q w e cmp s).recd.held = s.recd.held ∧
    (injection q w e cmp s).evt.held = s.evt.held := by
  simp only [injection]
  repeat' split
  all_goals simp [id @modPair_keep, id @unverified_keep]

theorem compareWrite_keep (q : Nat) (n : Nat) (w : KWrite) (cmp : Cmp) (s : State) :
    (compareWrite q n w cmp s).sys = s.sys ∧
    (compareWrite q n w cmp s).img = s.img ∧
    (compareWrite q n w cmp s).cfg = s.cfg ∧
    (compareWrite q n w cmp s).ring = s.ring ∧
    (compareWrite q n w cmp s).acq = s.acq ∧
    (compareWrite q n w cmp s).cur = s.cur ∧
    (compareWrite q n w cmp s).husk = s.husk ∧
    (compareWrite q n w cmp s).drv = s.drv ∧
    (compareWrite q n w cmp s).est = s.est ∧
    (compareWrite q n w cmp s).win = s.win ∧
    (compareWrite q n w cmp s).time = s.time ∧
    (compareWrite q n w cmp s).therm = s.therm ∧
    (compareWrite q n w cmp s).nv = s.nv ∧
    (compareWrite q n w cmp s).ledg = s.ledg ∧
    (compareWrite q n w cmp s).tally = s.tally ∧
    (compareWrite q n w cmp s).host = s.host ∧
    (compareWrite q n w cmp s).sec = s.sec ∧
    (compareWrite q n w cmp s).pwr = s.pwr ∧
    (compareWrite q n w cmp s).bist = s.bist ∧
    (compareWrite q n w cmp s).pins = s.pins ∧
    (compareWrite q n w cmp s).pending = s.pending ∧
    (compareWrite q n w cmp s).recd.held = s.recd.held ∧
    (compareWrite q n w cmp s).evt.held = s.evt.held := by
  unfold compareWrite
  repeat' split
  all_goals simp [id @injection_keep, id @logMismatch_keep, id @logOpen_keep, id @modPair_keep, id @unverified_keep]

theorem verifyStep_keep (q : Nat) (ws : List KWrite) (f : Tab Word) (cmp : Cmp) (s : State) :
    (verifyStep q ws f cmp s).sys = s.sys ∧
    (verifyStep q ws f cmp s).img = s.img ∧
    (verifyStep q ws f cmp s).cfg = s.cfg ∧
    (verifyStep q ws f cmp s).ring = s.ring ∧
    (verifyStep q ws f cmp s).acq = s.acq ∧
    (verifyStep q ws f cmp s).cur = s.cur ∧
    (verifyStep q ws f cmp s).husk = s.husk ∧
    (verifyStep q ws f cmp s).drv = s.drv ∧
    (verifyStep q ws f cmp s).win = s.win ∧
    (verifyStep q ws f cmp s).time = s.time ∧
    (verifyStep q ws f cmp s).therm = s.therm ∧
    (verifyStep q ws f cmp s).nv = s.nv ∧
    (verifyStep q ws f cmp s).ledg = s.ledg ∧
    (verifyStep q ws f cmp s).tally = s.tally ∧
    (verifyStep q ws f cmp s).host = s.host ∧
    (verifyStep q ws f cmp s).sec = s.sec ∧
    (verifyStep q ws f cmp s).pwr = s.pwr ∧
    (verifyStep q ws f cmp s).bist = s.bist ∧
    (verifyStep q ws f cmp s).pins = s.pins ∧
    (verifyStep q ws f cmp s).pending = s.pending ∧
    (verifyStep q ws f cmp s).recd.held = s.recd.held ∧
    (verifyStep q ws f cmp s).evt.held = s.evt.held := by
  simp only [verifyStep]
  repeat' split
  all_goals simp [id @emit_keep, id @logOpen_keep, id @modPair_keep, id @releaseSet_keep, id @releaseShadow_keep]

theorem handIn2_keep (s : State) :
    (handIn2 s).sys = s.sys ∧
    (handIn2 s).img = s.img ∧
    (handIn2 s).cfg = s.cfg ∧
    (handIn2 s).ring = s.ring ∧
    (handIn2 s).acq = s.acq ∧
    (handIn2 s).cur = s.cur ∧
    (handIn2 s).husk = s.husk ∧
    (handIn2 s).drv = s.drv ∧
    (handIn2 s).krn = s.krn ∧
    (handIn2 s).est = s.est ∧
    (handIn2 s).win = s.win ∧
    (handIn2 s).time = s.time ∧
    (handIn2 s).therm = s.therm ∧
    (handIn2 s).nv = s.nv ∧
    (handIn2 s).ledg = s.ledg ∧
    (handIn2 s).tally = s.tally ∧
    (handIn2 s).recd = s.recd ∧
    (handIn2 s).host = s.host ∧
    (handIn2 s).sec = s.sec ∧
    (handIn2 s).pwr = s.pwr ∧
    (handIn2 s).bist = s.bist ∧
    (handIn2 s).evt = s.evt ∧
    (handIn2 s).pins = s.pins ∧
    (handIn2 s).freeIx = s.freeIx ∧
    (handIn2 s).pending = s.pending := by
  simp [handIn2]

theorem retestPair_keep (q : Nat) (ok : Bool) (split : Bool) (back : Bool) (s : State) :
    (retestPair q ok split back s).sys = s.sys ∧
    (retestPair q ok split back s).img = s.img ∧
    (retestPair q ok split back s).cfg = s.cfg ∧
    (retestPair q ok split back s).ring = s.ring ∧
    (retestPair q ok split back s).acq = s.acq ∧
    (retestPair q ok split back s).cur = s.cur ∧
    (retestPair q ok split back s).husk = s.husk ∧
    (retestPair q ok split back s).drv = s.drv ∧
    (retestPair q ok split back s).krn = s.krn ∧
    (retestPair q ok split back s).est = s.est ∧
    (retestPair q ok split back s).win = s.win ∧
    (retestPair q ok split back s).time = s.time ∧
    (retestPair q ok split back s).therm = s.therm ∧
    (retestPair q ok split back s).nv = s.nv ∧
    (retestPair q ok split back s).ledg = s.ledg ∧
    (retestPair q ok split back s).tally = s.tally ∧
    (retestPair q ok split back s).host = s.host ∧
    (retestPair q ok split back s).sec = s.sec ∧
    (retestPair q ok split back s).pwr = s.pwr ∧
    (retestPair q ok split back s).bist = s.bist ∧
    (retestPair q ok split back s).pins = s.pins ∧
    (retestPair q ok split back s).freeIx = s.freeIx ∧
    (retestPair q ok split back s).pending = s.pending ∧
    (retestPair q ok split back s).recd.held = s.recd.held ∧
    (retestPair q ok split back s).evt.held = s.evt.held := by
  unfold retestPair
  repeat' split
  all_goals simp [id @emit_keep, id @emitIf_keep, id @modPair_keep]

theorem handPair_keep (b : Word) (retest : BitVec 16) (s : State) (q : Nat) :
    (handPair b retest s q).sys = s.sys ∧
    (handPair b retest s q).img = s.img ∧
    (handPair b retest s q).cfg = s.cfg ∧
    (handPair b retest s q).ring = s.ring ∧
    (handPair b retest s q).acq = s.acq ∧
    (handPair b retest s q).cur = s.cur ∧
    (handPair b retest s q).husk = s.husk ∧
    (handPair b retest s q).drv = s.drv ∧
    (handPair b retest s q).est = s.est ∧
    (handPair b retest s q).win = s.win ∧
    (handPair b retest s q).time = s.time ∧
    (handPair b retest s q).therm = s.therm ∧
    (handPair b retest s q).nv = s.nv ∧
    (handPair b retest s q).ledg = s.ledg ∧
    (handPair b retest s q).tally = s.tally ∧
    (handPair b retest s q).host = s.host ∧
    (handPair b retest s q).sec = s.sec ∧
    (handPair b retest s q).pwr = s.pwr ∧
    (handPair b retest s q).bist = s.bist ∧
    (handPair b retest s q).pins = s.pins ∧
    (handPair b retest s q).freeIx = s.freeIx ∧
    (handPair b retest s q).pending = s.pending ∧
    (handPair b retest s q).recd.held = s.recd.held ∧
    (handPair b retest s q).evt.held = s.evt.held := by
  simp only [handPair]
  repeat' split
  all_goals simp [id @modPair_keep, id @pairClear_keep, id @retestPair_keep]

theorem shadowStart_keep (s : State) :
    (shadowStart s).sys = s.sys ∧
    (shadowStart s).img = s.img ∧
    (shadowStart s).cfg = s.cfg ∧
    (shadowStart s).ring = s.ring ∧
    (shadowStart s).acq = s.acq ∧
    (shadowStart s).cur = s.cur ∧
    (shadowStart s).husk = s.husk ∧
    (shadowStart s).drv = s.drv ∧
    (shadowStart s).est = s.est ∧
    (shadowStart s).win = s.win ∧
    (shadowStart s).time = s.time ∧
    (shadowStart s).therm = s.therm ∧
    (shadowStart s).nv = s.nv ∧
    (shadowStart s).ledg = s.ledg ∧
    (shadowStart s).tally = s.tally ∧
    (shadowStart s).host = s.host ∧
    (shadowStart s).sec = s.sec ∧
    (shadowStart s).pwr = s.pwr ∧
    (shadowStart s).bist = s.bist ∧
    (shadowStart s).pins = s.pins ∧
    (shadowStart s).freeIx = s.freeIx ∧
    (shadowStart s).pending = s.pending ∧
    (shadowStart s).recd.held = s.recd.held ∧
    (shadowStart s).evt.held = s.evt.held := by
  simp [shadowStart, id @emit_keep, id @pairClear_keep]

theorem splitShown_keep (s : State) :
    (splitShown s).img = s.img ∧
    (splitShown s).cfg = s.cfg ∧
    (splitShown s).ring = s.ring ∧
    (splitShown s).acq = s.acq ∧
    (splitShown s).cur = s.cur ∧
    (splitShown s).husk = s.husk ∧
    (splitShown s).drv = s.drv ∧
    (splitShown s).krn = s.krn ∧
    (splitShown s).est = s.est ∧
    (splitShown s).win = s.win ∧
    (splitShown s).pairs = s.pairs ∧
    (splitShown s).time = s.time ∧
    (splitShown s).therm = s.therm ∧
    (splitShown s).nv = s.nv ∧
    (splitShown s).ledg = s.ledg ∧
    (splitShown s).tally = s.tally ∧
    (splitShown s).recd = s.recd ∧
    (splitShown s).host = s.host ∧
    (splitShown s).sec = s.sec ∧
    (splitShown s).pwr = s.pwr ∧
    (splitShown s).bist = s.bist ∧
    (splitShown s).evt = s.evt ∧
    (splitShown s).pins = s.pins ∧
    (splitShown s).freeIx = s.freeIx ∧
    (splitShown s).pending = s.pending := by
  simp [splitShown]

theorem execHandOver_keep {retest : BitVec 16} {s t : State} (h : execHandOver retest s = .next t) :
    t.img = s.img ∧
    t.cfg = s.cfg ∧
    t.acq = s.acq ∧
    t.cur = s.cur ∧
    t.win = s.win ∧
    t.time = s.time ∧
    t.therm = s.therm ∧
    t.nv = s.nv ∧
    t.ledg = s.ledg ∧
    t.tally = s.tally ∧
    t.host = s.host ∧
    t.sec = s.sec ∧
    t.bist = s.bist ∧
    t.freeIx = s.freeIx ∧
    t.pending = s.pending ∧
    t.husk.held = s.husk.held ∧
    t.drv.held = s.drv.held ∧
    t.recd.held = s.recd.held ∧
    t.est.held = s.est.held ∧
    t.pwr.held = s.pwr.held ∧
    t.evt.held = s.evt.held ∧
    t.pins.held = s.pins.held := by
  have e := Host.Outcome.next.inj h
  subst e
  simp only [execHandOver.settle']
  repeat' split
  all_goals simp [id @evenRule_keep, id @handPair_keep, id @settle_keep, id @settleLevel_keep, id @shadowStart_keep,
      id @splitShown_keep]

theorem pairRelease_keep (m : BitVec 16) (s : State) :
    (pairRelease m s).sys = s.sys ∧
    (pairRelease m s).img = s.img ∧
    (pairRelease m s).cfg = s.cfg ∧
    (pairRelease m s).ring = s.ring ∧
    (pairRelease m s).acq = s.acq ∧
    (pairRelease m s).cur = s.cur ∧
    (pairRelease m s).husk = s.husk ∧
    (pairRelease m s).drv = s.drv ∧
    (pairRelease m s).krn = s.krn ∧
    (pairRelease m s).est = s.est ∧
    (pairRelease m s).win = s.win ∧
    (pairRelease m s).time = s.time ∧
    (pairRelease m s).therm = s.therm ∧
    (pairRelease m s).nv = s.nv ∧
    (pairRelease m s).ledg = s.ledg ∧
    (pairRelease m s).tally = s.tally ∧
    (pairRelease m s).recd = s.recd ∧
    (pairRelease m s).host = s.host ∧
    (pairRelease m s).sec = s.sec ∧
    (pairRelease m s).pwr = s.pwr ∧
    (pairRelease m s).bist = s.bist ∧
    (pairRelease m s).evt = s.evt ∧
    (pairRelease m s).pins = s.pins ∧
    (pairRelease m s).freeIx = s.freeIx ∧
    (pairRelease m s).pending = s.pending := by
  simp [pairRelease, id @handIn2_keep, id @modPair_keep]

theorem dbgOpen_keep (q : Nat) (s : State) :
    (dbgOpen q s).sys = s.sys ∧
    (dbgOpen q s).img = s.img ∧
    (dbgOpen q s).cfg = s.cfg ∧
    (dbgOpen q s).ring = s.ring ∧
    (dbgOpen q s).acq = s.acq ∧
    (dbgOpen q s).cur = s.cur ∧
    (dbgOpen q s).husk = s.husk ∧
    (dbgOpen q s).drv = s.drv ∧
    (dbgOpen q s).krn = s.krn ∧
    (dbgOpen q s).est = s.est ∧
    (dbgOpen q s).win = s.win ∧
    (dbgOpen q s).time = s.time ∧
    (dbgOpen q s).therm = s.therm ∧
    (dbgOpen q s).nv = s.nv ∧
    (dbgOpen q s).ledg = s.ledg ∧
    (dbgOpen q s).tally = s.tally ∧
    (dbgOpen q s).recd = s.recd ∧
    (dbgOpen q s).host = s.host ∧
    (dbgOpen q s).sec = s.sec ∧
    (dbgOpen q s).pwr = s.pwr ∧
    (dbgOpen q s).bist = s.bist ∧
    (dbgOpen q s).evt = s.evt ∧
    (dbgOpen q s).pins = s.pins ∧
    (dbgOpen q s).freeIx = s.freeIx ∧
    (dbgOpen q s).pending = s.pending := by
  simp [dbgOpen, id @handIn2_keep]

theorem dbgEnd_keep (cause : Nat) (s : State) :
    (dbgEnd cause s).sys = s.sys ∧
    (dbgEnd cause s).img = s.img ∧
    (dbgEnd cause s).cfg = s.cfg ∧
    (dbgEnd cause s).ring = s.ring ∧
    (dbgEnd cause s).acq = s.acq ∧
    (dbgEnd cause s).cur = s.cur ∧
    (dbgEnd cause s).husk = s.husk ∧
    (dbgEnd cause s).drv = s.drv ∧
    (dbgEnd cause s).est = s.est ∧
    (dbgEnd cause s).win = s.win ∧
    (dbgEnd cause s).time = s.time ∧
    (dbgEnd cause s).therm = s.therm ∧
    (dbgEnd cause s).nv = s.nv ∧
    (dbgEnd cause s).ledg = s.ledg ∧
    (dbgEnd cause s).tally = s.tally ∧
    (dbgEnd cause s).host = s.host ∧
    (dbgEnd cause s).sec = s.sec ∧
    (dbgEnd cause s).pwr = s.pwr ∧
    (dbgEnd cause s).bist = s.bist ∧
    (dbgEnd cause s).pins = s.pins ∧
    (dbgEnd cause s).freeIx = s.freeIx ∧
    (dbgEnd cause s).pending = s.pending ∧
    (dbgEnd cause s).recd.held = s.recd.held ∧
    (dbgEnd cause s).evt.held = s.evt.held := by
  simp only [dbgEnd]
  repeat' split
  all_goals simp [id @emit_keep, id @handIn2_keep, id @pairClear_keep]

theorem execDbgSessionTimeout_keep  {s t : State} (h : execDbgSessionTimeout s = .next t) :
    t.sys = s.sys ∧
    t.img = s.img ∧
    t.cfg = s.cfg ∧
    t.ring = s.ring ∧
    t.acq = s.acq ∧
    t.cur = s.cur ∧
    t.husk = s.husk ∧
    t.drv = s.drv ∧
    t.est = s.est ∧
    t.win = s.win ∧
    t.time = s.time ∧
    t.therm = s.therm ∧
    t.nv = s.nv ∧
    t.ledg = s.ledg ∧
    t.tally = s.tally ∧
    t.host = s.host ∧
    t.sec = s.sec ∧
    t.pwr = s.pwr ∧
    t.bist = s.bist ∧
    t.pins = s.pins ∧
    t.freeIx = s.freeIx ∧
    t.pending = s.pending ∧
    t.recd.held = s.recd.held ∧
    t.evt.held = s.evt.held := by
  have e := Host.Outcome.next.inj h
  subst e
  simp [id @dbgEnd_keep]
  repeat' split
  all_goals simp [id @dbgEnd_keep]

theorem dbgFollow_keep (s : State) :
    (dbgFollow s).sys = s.sys ∧
    (dbgFollow s).img = s.img ∧
    (dbgFollow s).cfg = s.cfg ∧
    (dbgFollow s).ring = s.ring ∧
    (dbgFollow s).acq = s.acq ∧
    (dbgFollow s).cur = s.cur ∧
    (dbgFollow s).husk = s.husk ∧
    (dbgFollow s).drv = s.drv ∧
    (dbgFollow s).est = s.est ∧
    (dbgFollow s).win = s.win ∧
    (dbgFollow s).time = s.time ∧
    (dbgFollow s).therm = s.therm ∧
    (dbgFollow s).nv = s.nv ∧
    (dbgFollow s).ledg = s.ledg ∧
    (dbgFollow s).tally = s.tally ∧
    (dbgFollow s).recd = s.recd ∧
    (dbgFollow s).host = s.host ∧
    (dbgFollow s).sec = s.sec ∧
    (dbgFollow s).pwr = s.pwr ∧
    (dbgFollow s).bist = s.bist ∧
    (dbgFollow s).evt = s.evt ∧
    (dbgFollow s).pins = s.pins ∧
    (dbgFollow s).freeIx = s.freeIx ∧
    (dbgFollow s).pending = s.pending := by
  simp [dbgFollow, id @modLane_keep]

theorem dbgHaltNow_keep (s : State) :
    (dbgHaltNow s).sys = s.sys ∧
    (dbgHaltNow s).img = s.img ∧
    (dbgHaltNow s).cfg = s.cfg ∧
    (dbgHaltNow s).ring = s.ring ∧
    (dbgHaltNow s).acq = s.acq ∧
    (dbgHaltNow s).cur = s.cur ∧
    (dbgHaltNow s).husk = s.husk ∧
    (dbgHaltNow s).drv = s.drv ∧
    (dbgHaltNow s).est = s.est ∧
    (dbgHaltNow s).win = s.win ∧
    (dbgHaltNow s).time = s.time ∧
    (dbgHaltNow s).therm = s.therm ∧
    (dbgHaltNow s).nv = s.nv ∧
    (dbgHaltNow s).ledg = s.ledg ∧
    (dbgHaltNow s).tally = s.tally ∧
    (dbgHaltNow s).recd = s.recd ∧
    (dbgHaltNow s).host = s.host ∧
    (dbgHaltNow s).sec = s.sec ∧
    (dbgHaltNow s).pwr = s.pwr ∧
    (dbgHaltNow s).bist = s.bist ∧
    (dbgHaltNow s).evt = s.evt ∧
    (dbgHaltNow s).pins = s.pins ∧
    (dbgHaltNow s).freeIx = s.freeIx ∧
    (dbgHaltNow s).pending = s.pending := by
  simp [dbgHaltNow, id @dbgFollow_keep, id @modLane_keep]

theorem dbgHalt_keep (s : State) :
    (dbgHalt s).sys = s.sys ∧
    (dbgHalt s).img = s.img ∧
    (dbgHalt s).cfg = s.cfg ∧
    (dbgHalt s).ring = s.ring ∧
    (dbgHalt s).acq = s.acq ∧
    (dbgHalt s).cur = s.cur ∧
    (dbgHalt s).husk = s.husk ∧
    (dbgHalt s).drv = s.drv ∧
    (dbgHalt s).est = s.est ∧
    (dbgHalt s).win = s.win ∧
    (dbgHalt s).time = s.time ∧
    (dbgHalt s).therm = s.therm ∧
    (dbgHalt s).nv = s.nv ∧
    (dbgHalt s).ledg = s.ledg ∧
    (dbgHalt s).tally = s.tally ∧
    (dbgHalt s).recd = s.recd ∧
    (dbgHalt s).host = s.host ∧
    (dbgHalt s).sec = s.sec ∧
    (dbgHalt s).pwr = s.pwr ∧
    (dbgHalt s).bist = s.bist ∧
    (dbgHalt s).evt = s.evt ∧
    (dbgHalt s).pins = s.pins ∧
    (dbgHalt s).freeIx = s.freeIx ∧
    (dbgHalt s).pending = s.pending := by
  simp [dbgHalt, id @dbgHaltNow_keep]

theorem dbgResume_keep (s : State) :
    (dbgResume s).sys = s.sys ∧
    (dbgResume s).img = s.img ∧
    (dbgResume s).cfg = s.cfg ∧
    (dbgResume s).ring = s.ring ∧
    (dbgResume s).acq = s.acq ∧
    (dbgResume s).cur = s.cur ∧
    (dbgResume s).husk = s.husk ∧
    (dbgResume s).drv = s.drv ∧
    (dbgResume s).est = s.est ∧
    (dbgResume s).win = s.win ∧
    (dbgResume s).time = s.time ∧
    (dbgResume s).therm = s.therm ∧
    (dbgResume s).nv = s.nv ∧
    (dbgResume s).ledg = s.ledg ∧
    (dbgResume s).tally = s.tally ∧
    (dbgResume s).recd = s.recd ∧
    (dbgResume s).host = s.host ∧
    (dbgResume s).sec = s.sec ∧
    (dbgResume s).pwr = s.pwr ∧
    (dbgResume s).bist = s.bist ∧
    (dbgResume s).evt = s.evt ∧
    (dbgResume s).pins = s.pins ∧
    (dbgResume s).freeIx = s.freeIx ∧
    (dbgResume s).pending = s.pending := by
  simp [dbgResume, id @modLane_keep]

theorem execDbgBreakpoint_keep  {s t : State} (h : execDbgBreakpoint s = .next t) :
    t.sys = s.sys ∧
    t.img = s.img ∧
    t.cfg = s.cfg ∧
    t.ring = s.ring ∧
    t.acq = s.acq ∧
    t.cur = s.cur ∧
    t.husk = s.husk ∧
    t.drv = s.drv ∧
    t.est = s.est ∧
    t.win = s.win ∧
    t.time = s.time ∧
    t.therm = s.therm ∧
    t.nv = s.nv ∧
    t.ledg = s.ledg ∧
    t.tally = s.tally ∧
    t.recd = s.recd ∧
    t.host = s.host ∧
    t.sec = s.sec ∧
    t.pwr = s.pwr ∧
    t.bist = s.bist ∧
    t.evt = s.evt ∧
    t.pins = s.pins ∧
    t.freeIx = s.freeIx ∧
    t.pending = s.pending := by
  have e := Host.Outcome.next.inj h
  subst e
  simp [id @dbgHaltNow_keep]

theorem dbgPoke_keep (l : Nat) (target : Nat) (v : Word) (s : State) :
    (dbgPoke l target v s).sys = s.sys ∧
    (dbgPoke l target v s).img = s.img ∧
    (dbgPoke l target v s).cfg = s.cfg ∧
    (dbgPoke l target v s).ring = s.ring ∧
    (dbgPoke l target v s).acq = s.acq ∧
    (dbgPoke l target v s).cur = s.cur ∧
    (dbgPoke l target v s).husk = s.husk ∧
    (dbgPoke l target v s).drv = s.drv ∧
    (dbgPoke l target v s).est = s.est ∧
    (dbgPoke l target v s).win = s.win ∧
    (dbgPoke l target v s).pairs = s.pairs ∧
    (dbgPoke l target v s).time = s.time ∧
    (dbgPoke l target v s).therm = s.therm ∧
    (dbgPoke l target v s).nv = s.nv ∧
    (dbgPoke l target v s).ledg = s.ledg ∧
    (dbgPoke l target v s).tally = s.tally ∧
    (dbgPoke l target v s).recd = s.recd ∧
    (dbgPoke l target v s).host = s.host ∧
    (dbgPoke l target v s).sec = s.sec ∧
    (dbgPoke l target v s).pwr = s.pwr ∧
    (dbgPoke l target v s).bist = s.bist ∧
    (dbgPoke l target v s).evt = s.evt ∧
    (dbgPoke l target v s).pins = s.pins ∧
    (dbgPoke l target v s).freeIx = s.freeIx ∧
    (dbgPoke l target v s).pending = s.pending := by
  simp [dbgPoke, id @modLane_keep]

theorem dbgWrite_keep (target : Nat) (v : Word) (bad : Bool) (s : State) :
    (dbgWrite target v bad s).sys = s.sys ∧
    (dbgWrite target v bad s).img = s.img ∧
    (dbgWrite target v bad s).cfg = s.cfg ∧
    (dbgWrite target v bad s).ring = s.ring ∧
    (dbgWrite target v bad s).acq = s.acq ∧
    (dbgWrite target v bad s).cur = s.cur ∧
    (dbgWrite target v bad s).husk = s.husk ∧
    (dbgWrite target v bad s).drv = s.drv ∧
    (dbgWrite target v bad s).est = s.est ∧
    (dbgWrite target v bad s).win = s.win ∧
    (dbgWrite target v bad s).time = s.time ∧
    (dbgWrite target v bad s).therm = s.therm ∧
    (dbgWrite target v bad s).nv = s.nv ∧
    (dbgWrite target v bad s).ledg = s.ledg ∧
    (dbgWrite target v bad s).tally = s.tally ∧
    (dbgWrite target v bad s).recd = s.recd ∧
    (dbgWrite target v bad s).host = s.host ∧
    (dbgWrite target v bad s).sec = s.sec ∧
    (dbgWrite target v bad s).pwr = s.pwr ∧
    (dbgWrite target v bad s).bist = s.bist ∧
    (dbgWrite target v bad s).evt = s.evt ∧
    (dbgWrite target v bad s).pins = s.pins ∧
    (dbgWrite target v bad s).freeIx = s.freeIx ∧
    (dbgWrite target v bad s).pending = s.pending := by
  simp [dbgWrite, id @dbgPoke_keep]

theorem replayOne_keep (q : Nat) (e : Replay) (s : State) :
    (replayOne q e s).sys = s.sys ∧
    (replayOne q e s).img = s.img ∧
    (replayOne q e s).cfg = s.cfg ∧
    (replayOne q e s).ring = s.ring ∧
    (replayOne q e s).acq = s.acq ∧
    (replayOne q e s).cur = s.cur ∧
    (replayOne q e s).husk = s.husk ∧
    (replayOne q e s).drv = s.drv ∧
    (replayOne q e s).est = s.est ∧
    (replayOne q e s).win = s.win ∧
    (replayOne q e s).time = s.time ∧
    (replayOne q e s).therm = s.therm ∧
    (replayOne q e s).nv = s.nv ∧
    (replayOne q e s).ledg = s.ledg ∧
    (replayOne q e s).tally = s.tally ∧
    (replayOne q e s).host = s.host ∧
    (replayOne q e s).sec = s.sec ∧
    (replayOne q e s).pwr = s.pwr ∧
    (replayOne q e s).bist = s.bist ∧
    (replayOne q e s).pins = s.pins ∧
    (replayOne q e s).freeIx = s.freeIx ∧
    (replayOne q e s).pending = s.pending ∧
    (replayOne q e s).recd.held = s.recd.held ∧
    (replayOne q e s).evt.held = s.evt.held := by
  unfold replayOne
  repeat' split
  all_goals simp [id @dbgPoke_keep]

theorem replayApply_keep (q : Nat) (k0 : Nat) (s : State) :
    (replayApply q k0 s).sys = s.sys ∧
    (replayApply q k0 s).img = s.img ∧
    (replayApply q k0 s).cfg = s.cfg ∧
    (replayApply q k0 s).ring = s.ring ∧
    (replayApply q k0 s).acq = s.acq ∧
    (replayApply q k0 s).cur = s.cur ∧
    (replayApply q k0 s).husk = s.husk ∧
    (replayApply q k0 s).drv = s.drv ∧
    (replayApply q k0 s).est = s.est ∧
    (replayApply q k0 s).win = s.win ∧
    (replayApply q k0 s).time = s.time ∧
    (replayApply q k0 s).therm = s.therm ∧
    (replayApply q k0 s).nv = s.nv ∧
    (replayApply q k0 s).ledg = s.ledg ∧
    (replayApply q k0 s).tally = s.tally ∧
    (replayApply q k0 s).host = s.host ∧
    (replayApply q k0 s).sec = s.sec ∧
    (replayApply q k0 s).pwr = s.pwr ∧
    (replayApply q k0 s).bist = s.bist ∧
    (replayApply q k0 s).pins = s.pins ∧
    (replayApply q k0 s).freeIx = s.freeIx ∧
    (replayApply q k0 s).pending = s.pending ∧
    (replayApply q k0 s).recd.held = s.recd.held ∧
    (replayApply q k0 s).evt.held = s.evt.held := by
  induction k0 generalizing s with
  | zero => simp [replayApply]
  | succ n ih =>
    unfold replayApply
    repeat' split
    all_goals simp [ih, id @replayOne_keep]

end Sys2Proof.Machine
end

