-- ==== Sys2Proof/Laws/KeepKernel.lean ====
section
/-! SUPPORT. What the operations of Machine/Kernel.lean leave unchanged. -/

namespace Sys2Proof.Machine

theorem krnCutOff_keep (s : State) :
    (krnCutOff s).sys = s.sys ∧
    (krnCutOff s).img = s.img ∧
    (krnCutOff s).cfg = s.cfg ∧
    (krnCutOff s).ring = s.ring ∧
    (krnCutOff s).acq = s.acq ∧
    (krnCutOff s).cur = s.cur ∧
    (krnCutOff s).husk = s.husk ∧
    (krnCutOff s).drv = s.drv ∧
    (krnCutOff s).est = s.est ∧
    (krnCutOff s).win = s.win ∧
    (krnCutOff s).time = s.time ∧
    (krnCutOff s).therm = s.therm ∧
    (krnCutOff s).nv = s.nv ∧
    (krnCutOff s).ledg = s.ledg ∧
    (krnCutOff s).tally = s.tally ∧
    (krnCutOff s).recd = s.recd ∧
    (krnCutOff s).host = s.host ∧
    (krnCutOff s).sec = s.sec ∧
    (krnCutOff s).pwr = s.pwr ∧
    (krnCutOff s).bist = s.bist ∧
    (krnCutOff s).evt = s.evt ∧
    (krnCutOff s).pins = s.pins ∧
    (krnCutOff s).freeIx = s.freeIx ∧
    (krnCutOff s).pending = s.pending := by
  simp [krnCutOff, id @modKCell_keep]

theorem beginStep_keep (l : Nat) (c : Nat) (g : Nat) (lr : Bool) (s : State) :
    (beginStep l c g lr s).sys = s.sys ∧
    (beginStep l c g lr s).img = s.img ∧
    (beginStep l c g lr s).cfg = s.cfg ∧
    (beginStep l c g lr s).ring = s.ring ∧
    (beginStep l c g lr s).acq = s.acq ∧
    (beginStep l c g lr s).cur = s.cur ∧
    (beginStep l c g lr s).husk = s.husk ∧
    (beginStep l c g lr s).drv = s.drv ∧
    (beginStep l c g lr s).est = s.est ∧
    (beginStep l c g lr s).win = s.win ∧
    (beginStep l c g lr s).pairs = s.pairs ∧
    (beginStep l c g lr s).time = s.time ∧
    (beginStep l c g lr s).therm = s.therm ∧
    (beginStep l c g lr s).nv = s.nv ∧
    (beginStep l c g lr s).ledg = s.ledg ∧
    (beginStep l c g lr s).tally = s.tally ∧
    (beginStep l c g lr s).recd = s.recd ∧
    (beginStep l c g lr s).host = s.host ∧
    (beginStep l c g lr s).sec = s.sec ∧
    (beginStep l c g lr s).pwr = s.pwr ∧
    (beginStep l c g lr s).bist = s.bist ∧
    (beginStep l c g lr s).evt = s.evt ∧
    (beginStep l c g lr s).pins = s.pins ∧
    (beginStep l c g lr s).freeIx = s.freeIx ∧
    (beginStep l c g lr s).pending = s.pending := by
  simp [beginStep, id @modLane_keep]

theorem startMain_keep (q : Nat) (c : Nat) (s : State) :
    (startMain q c s).sys = s.sys ∧
    (startMain q c s).img = s.img ∧
    (startMain q c s).cfg = s.cfg ∧
    (startMain q c s).ring = s.ring ∧
    (startMain q c s).acq = s.acq ∧
    (startMain q c s).cur = s.cur ∧
    (startMain q c s).husk = s.husk ∧
    (startMain q c s).drv = s.drv ∧
    (startMain q c s).est = s.est ∧
    (startMain q c s).win = s.win ∧
    (startMain q c s).time = s.time ∧
    (startMain q c s).therm = s.therm ∧
    (startMain q c s).nv = s.nv ∧
    (startMain q c s).ledg = s.ledg ∧
    (startMain q c s).tally = s.tally ∧
    (startMain q c s).recd = s.recd ∧
    (startMain q c s).host = s.host ∧
    (startMain q c s).sec = s.sec ∧
    (startMain q c s).pwr = s.pwr ∧
    (startMain q c s).bist = s.bist ∧
    (startMain q c s).evt = s.evt ∧
    (startMain q c s).pins = s.pins ∧
    (startMain q c s).freeIx = s.freeIx ∧
    (startMain q c s).pending = s.pending := by
  simp [startMain, id @beginStep_keep, id @dbgHaltNow_keep, id @modKCell_keep, id @modPair_keep]

theorem startSplit_keep (l : Nat) (c : Nat) (s : State) :
    (startSplit l c s).sys = s.sys ∧
    (startSplit l c s).img = s.img ∧
    (startSplit l c s).cfg = s.cfg ∧
    (startSplit l c s).ring = s.ring ∧
    (startSplit l c s).acq = s.acq ∧
    (startSplit l c s).cur = s.cur ∧
    (startSplit l c s).husk = s.husk ∧
    (startSplit l c s).drv = s.drv ∧
    (startSplit l c s).est = s.est ∧
    (startSplit l c s).win = s.win ∧
    (startSplit l c s).pairs = s.pairs ∧
    (startSplit l c s).time = s.time ∧
    (startSplit l c s).therm = s.therm ∧
    (startSplit l c s).nv = s.nv ∧
    (startSplit l c s).ledg = s.ledg ∧
    (startSplit l c s).tally = s.tally ∧
    (startSplit l c s).recd = s.recd ∧
    (startSplit l c s).host = s.host ∧
    (startSplit l c s).sec = s.sec ∧
    (startSplit l c s).pwr = s.pwr ∧
    (startSplit l c s).bist = s.bist ∧
    (startSplit l c s).evt = s.evt ∧
    (startSplit l c s).pins = s.pins ∧
    (startSplit l c s).freeIx = s.freeIx ∧
    (startSplit l c s).pending = s.pending := by
  simp [startSplit, id @beginStep_keep, id @modKCell_keep, id @modLane_keep]

theorem startChecker_keep (q : Nat) (x : PStep) (s : State) :
    (startChecker q x s).sys = s.sys ∧
    (startChecker q x s).img = s.img ∧
    (startChecker q x s).cfg = s.cfg ∧
    (startChecker q x s).ring = s.ring ∧
    (startChecker q x s).acq = s.acq ∧
    (startChecker q x s).cur = s.cur ∧
    (startChecker q x s).husk = s.husk ∧
    (startChecker q x s).drv = s.drv ∧
    (startChecker q x s).est = s.est ∧
    (startChecker q x s).win = s.win ∧
    (startChecker q x s).time = s.time ∧
    (startChecker q x s).therm = s.therm ∧
    (startChecker q x s).nv = s.nv ∧
    (startChecker q x s).ledg = s.ledg ∧
    (startChecker q x s).tally = s.tally ∧
    (startChecker q x s).recd = s.recd ∧
    (startChecker q x s).host = s.host ∧
    (startChecker q x s).sec = s.sec ∧
    (startChecker q x s).pwr = s.pwr ∧
    (startChecker q x s).bist = s.bist ∧
    (startChecker q x s).evt = s.evt ∧
    (startChecker q x s).pins = s.pins ∧
    (startChecker q x s).freeIx = s.freeIx ∧
    (startChecker q x s).pending = s.pending := by
  simp [startChecker, id @beginStep_keep, id @modPair_keep]

theorem execKernelStepStart_keep {l : Nat} {bad : Bool} {s t : State} (h : execKernelStepStart l bad s = .next t) :
    t.img = s.img ∧
    t.cfg = s.cfg ∧
    t.acq = s.acq ∧
    t.cur = s.cur ∧
    t.win = s.win ∧
    t.time = s.time ∧
    t.therm = s.therm ∧
    t.nv = s.nv ∧
    t.ledg = s.ledg ∧
    t.tally = s.tally ∧
    t.host = s.host ∧
    t.sec = s.sec ∧
    t.bist = s.bist ∧
    t.pending = s.pending ∧
    t.sys.held = s.sys.held ∧
    t.husk.held = s.husk.held ∧
    t.drv.held = s.drv.held ∧
    t.recd.held = s.recd.held ∧
    t.est.held = s.est.held ∧
    t.pwr.held = s.pwr.held ∧
    t.evt.held = s.evt.held ∧
    t.pins.held = s.pins.held := by
  have e := Host.Outcome.next.inj h
  subst e
  dsimp only
  repeat' split
  all_goals simp [id @eccEvent_keep, id @settle_keep, id @settleLevel_keep, id @startChecker_keep,
      id @startMain_keep, id @startSplit_keep]

@[simp] theorem withInstr_sys (l : Nat) (w : Word) (f : Nat → Lane → State → State) (s : State)
    (hf : ∀ c x t, (f c x t).sys = t.sys) : (withInstr l w f s).sys = s.sys := by
  unfold withInstr
  dsimp only
  repeat' split
  all_goals simp [hf, id @dbgFollow_keep, id @replayApply_keep, id @setLane_keep]

@[simp] theorem withInstr_img (l : Nat) (w : Word) (f : Nat → Lane → State → State) (s : State)
    (hf : ∀ c x t, (f c x t).img = t.img) : (withInstr l w f s).img = s.img := by
  unfold withInstr
  dsimp only
  repeat' split
  all_goals simp [hf, id @dbgFollow_keep, id @replayApply_keep, id @setLane_keep]

@[simp] theorem withInstr_cfg (l : Nat) (w : Word) (f : Nat → Lane → State → State) (s : State)
    (hf : ∀ c x t, (f c x t).cfg = t.cfg) : (withInstr l w f s).cfg = s.cfg := by
  unfold withInstr
  dsimp only
  repeat' split
  all_goals simp [hf, id @dbgFollow_keep, id @replayApply_keep, id @setLane_keep]

@[simp] theorem withInstr_ring (l : Nat) (w : Word) (f : Nat → Lane → State → State) (s : State)
    (hf : ∀ c x t, (f c x t).ring = t.ring) : (withInstr l w f s).ring = s.ring := by
  unfold withInstr
  dsimp only
  repeat' split
  all_goals simp [hf, id @dbgFollow_keep, id @replayApply_keep, id @setLane_keep]

@[simp] theorem withInstr_acq (l : Nat) (w : Word) (f : Nat → Lane → State → State) (s : State)
    (hf : ∀ c x t, (f c x t).acq = t.acq) : (withInstr l w f s).acq = s.acq := by
  unfold withInstr
  dsimp only
  repeat' split
  all_goals simp [hf, id @dbgFollow_keep, id @replayApply_keep, id @setLane_keep]

@[simp] theorem withInstr_cur (l : Nat) (w : Word) (f : Nat → Lane → State → State) (s : State)
    (hf : ∀ c x t, (f c x t).cur = t.cur) : (withInstr l w f s).cur = s.cur := by
  unfold withInstr
  dsimp only
  repeat' split
  all_goals simp [hf, id @dbgFollow_keep, id @replayApply_keep, id @setLane_keep]

@[simp] theorem withInstr_husk (l : Nat) (w : Word) (f : Nat → Lane → State → State) (s : State)
    (hf : ∀ c x t, (f c x t).husk = t.husk) : (withInstr l w f s).husk = s.husk := by
  unfold withInstr
  dsimp only
  repeat' split
  all_goals simp [hf, id @dbgFollow_keep, id @replayApply_keep, id @setLane_keep]

@[simp] theorem withInstr_drv (l : Nat) (w : Word) (f : Nat → Lane → State → State) (s : State)
    (hf : ∀ c x t, (f c x t).drv = t.drv) : (withInstr l w f s).drv = s.drv := by
  unfold withInstr
  dsimp only
  repeat' split
  all_goals simp [hf, id @dbgFollow_keep, id @replayApply_keep, id @setLane_keep]

@[simp] theorem withInstr_est (l : Nat) (w : Word) (f : Nat → Lane → State → State) (s : State)
    (hf : ∀ c x t, (f c x t).est = t.est) : (withInstr l w f s).est = s.est := by
  unfold withInstr
  dsimp only
  repeat' split
  all_goals simp [hf, id @dbgFollow_keep, id @replayApply_keep, id @setLane_keep]

@[simp] theorem withInstr_win (l : Nat) (w : Word) (f : Nat → Lane → State → State) (s : State)
    (hf : ∀ c x t, (f c x t).win = t.win) : (withInstr l w f s).win = s.win := by
  unfold withInstr
  dsimp only
  repeat' split
  all_goals simp [hf, id @dbgFollow_keep, id @replayApply_keep, id @setLane_keep]

@[simp] theorem withInstr_time (l : Nat) (w : Word) (f : Nat → Lane → State → State) (s : State)
    (hf : ∀ c x t, (f c x t).time = t.time) : (withInstr l w f s).time = s.time := by
  unfold withInstr
  dsimp only
  repeat' split
  all_goals simp [hf, id @dbgFollow_keep, id @replayApply_keep, id @setLane_keep]

@[simp] theorem withInstr_therm (l : Nat) (w : Word) (f : Nat → Lane → State → State) (s : State)
    (hf : ∀ c x t, (f c x t).therm = t.therm) : (withInstr l w f s).therm = s.therm := by
  unfold withInstr
  dsimp only
  repeat' split
  all_goals simp [hf, id @dbgFollow_keep, id @replayApply_keep, id @setLane_keep]

@[simp] theorem withInstr_nv (l : Nat) (w : Word) (f : Nat → Lane → State → State) (s : State)
    (hf : ∀ c x t, (f c x t).nv = t.nv) : (withInstr l w f s).nv = s.nv := by
  unfold withInstr
  dsimp only
  repeat' split
  all_goals simp [hf, id @dbgFollow_keep, id @replayApply_keep, id @setLane_keep]

@[simp] theorem withInstr_ledg (l : Nat) (w : Word) (f : Nat → Lane → State → State) (s : State)
    (hf : ∀ c x t, (f c x t).ledg = t.ledg) : (withInstr l w f s).ledg = s.ledg := by
  unfold withInstr
  dsimp only
  repeat' split
  all_goals simp [hf, id @dbgFollow_keep, id @replayApply_keep, id @setLane_keep]

@[simp] theorem withInstr_tally (l : Nat) (w : Word) (f : Nat → Lane → State → State) (s : State)
    (hf : ∀ c x t, (f c x t).tally = t.tally) : (withInstr l w f s).tally = s.tally := by
  unfold withInstr
  dsimp only
  repeat' split
  all_goals simp [hf, id @dbgFollow_keep, id @replayApply_keep, id @setLane_keep]

@[simp] theorem withInstr_host (l : Nat) (w : Word) (f : Nat → Lane → State → State) (s : State)
    (hf : ∀ c x t, (f c x t).host = t.host) : (withInstr l w f s).host = s.host := by
  unfold withInstr
  dsimp only
  repeat' split
  all_goals simp [hf, id @dbgFollow_keep, id @replayApply_keep, id @setLane_keep]

@[simp] theorem withInstr_sec (l : Nat) (w : Word) (f : Nat → Lane → State → State) (s : State)
    (hf : ∀ c x t, (f c x t).sec = t.sec) : (withInstr l w f s).sec = s.sec := by
  unfold withInstr
  dsimp only
  repeat' split
  all_goals simp [hf, id @dbgFollow_keep, id @replayApply_keep, id @setLane_keep]

@[simp] theorem withInstr_pwr (l : Nat) (w : Word) (f : Nat → Lane → State → State) (s : State)
    (hf : ∀ c x t, (f c x t).pwr = t.pwr) : (withInstr l w f s).pwr = s.pwr := by
  unfold withInstr
  dsimp only
  repeat' split
  all_goals simp [hf, id @dbgFollow_keep, id @replayApply_keep, id @setLane_keep]

@[simp] theorem withInstr_bist (l : Nat) (w : Word) (f : Nat → Lane → State → State) (s : State)
    (hf : ∀ c x t, (f c x t).bist = t.bist) : (withInstr l w f s).bist = s.bist := by
  unfold withInstr
  dsimp only
  repeat' split
  all_goals simp [hf, id @dbgFollow_keep, id @replayApply_keep, id @setLane_keep]

@[simp] theorem withInstr_pins (l : Nat) (w : Word) (f : Nat → Lane → State → State) (s : State)
    (hf : ∀ c x t, (f c x t).pins = t.pins) : (withInstr l w f s).pins = s.pins := by
  unfold withInstr
  dsimp only
  repeat' split
  all_goals simp [hf, id @dbgFollow_keep, id @replayApply_keep, id @setLane_keep]

@[simp] theorem withInstr_pending (l : Nat) (w : Word) (f : Nat → Lane → State → State) (s : State)
    (hf : ∀ c x t, (f c x t).pending = t.pending) : (withInstr l w f s).pending = s.pending := by
  unfold withInstr
  dsimp only
  repeat' split
  all_goals simp [hf, id @dbgFollow_keep, id @replayApply_keep, id @setLane_keep]

@[simp] theorem withInstr_recd_held (l : Nat) (w : Word) (f : Nat → Lane → State → State) (s : State)
    (hf : ∀ c x t, (f c x t).recd.held = t.recd.held) : (withInstr l w f s).recd.held = s.recd.held := by
  unfold withInstr
  dsimp only
  repeat' split
  all_goals simp [hf, id @dbgFollow_keep, id @replayApply_keep, id @setLane_keep]

@[simp] theorem withInstr_evt_held (l : Nat) (w : Word) (f : Nat → Lane → State → State) (s : State)
    (hf : ∀ c x t, (f c x t).evt.held = t.evt.held) : (withInstr l w f s).evt.held = s.evt.held := by
  unfold withInstr
  dsimp only
  repeat' split
  all_goals simp [hf, id @dbgFollow_keep, id @replayApply_keep, id @setLane_keep]

@[simp] theorem withInstr_freeIx (l : Nat) (w : Word) (f : Nat → Lane → State → State) (s : State)
    (hf : ∀ c x t, (f c x t).freeIx = t.freeIx) : (withInstr l w f s).freeIx = s.freeIx := by
  unfold withInstr
  dsimp only
  repeat' split
  all_goals simp [hf, id @dbgFollow_keep, id @replayApply_keep, id @setLane_keep]

theorem laneInstr_keep {l : Nat} {w : Word} {f : Lane → Lane} {s t : State} (h : laneInstr l w f s = .next t) :
    t.sys = s.sys ∧
    t.img = s.img ∧
    t.cfg = s.cfg ∧
    t.ring = s.ring ∧
    t.acq = s.acq ∧
    t.cur = s.cur ∧
    t.husk = s.husk ∧
    t.drv = s.drv ∧
    t.est = s.est ∧
    t.win = s.win ∧
    t.time = s.time ∧
    t.therm = s.therm ∧
    t.nv = s.nv ∧
    t.ledg = s.ledg ∧
    t.tally = s.tally ∧
    t.host = s.host ∧
    t.sec = s.sec ∧
    t.pwr = s.pwr ∧
    t.bist = s.bist ∧
    t.pins = s.pins ∧
    t.freeIx = s.freeIx ∧
    t.pending = s.pending ∧
    t.recd.held = s.recd.held ∧
    t.evt.held = s.evt.held := by
  have e := Host.Outcome.next.inj h
  subst e
  simp [id @setLane_keep]

theorem execFadd_keep {l : Nat} {d : BitVec 5} {a : BitVec 5} {b : BitVec 5} {s t : State} (h : execFadd l d a b s = .next t) :
    t.sys = s.sys ∧
    t.img = s.img ∧
    t.cfg = s.cfg ∧
    t.ring = s.ring ∧
    t.acq = s.acq ∧
    t.cur = s.cur ∧
    t.husk = s.husk ∧
    t.drv = s.drv ∧
    t.est = s.est ∧
    t.win = s.win ∧
    t.time = s.time ∧
    t.therm = s.therm ∧
    t.nv = s.nv ∧
    t.ledg = s.ledg ∧
    t.tally = s.tally ∧
    t.host = s.host ∧
    t.sec = s.sec ∧
    t.pwr = s.pwr ∧
    t.bist = s.bist ∧
    t.pins = s.pins ∧
    t.freeIx = s.freeIx ∧
    t.pending = s.pending ∧
    t.recd.held = s.recd.held ∧
    t.evt.held = s.evt.held := by
  exact laneInstr_keep h

theorem execFsub_keep {l : Nat} {d : BitVec 5} {a : BitVec 5} {b : BitVec 5} {s t : State} (h : execFsub l d a b s = .next t) :
    t.sys = s.sys ∧
    t.img = s.img ∧
    t.cfg = s.cfg ∧
    t.ring = s.ring ∧
    t.acq = s.acq ∧
    t.cur = s.cur ∧
    t.husk = s.husk ∧
    t.drv = s.drv ∧
    t.est = s.est ∧
    t.win = s.win ∧
    t.time = s.time ∧
    t.therm = s.therm ∧
    t.nv = s.nv ∧
    t.ledg = s.ledg ∧
    t.tally = s.tally ∧
    t.host = s.host ∧
    t.sec = s.sec ∧
    t.pwr = s.pwr ∧
    t.bist = s.bist ∧
    t.pins = s.pins ∧
    t.freeIx = s.freeIx ∧
    t.pending = s.pending ∧
    t.recd.held = s.recd.held ∧
    t.evt.held = s.evt.held := by
  exact laneInstr_keep h

theorem execFmul_keep {l : Nat} {d : BitVec 5} {a : BitVec 5} {b : BitVec 5} {s t : State} (h : execFmul l d a b s = .next t) :
    t.sys = s.sys ∧
    t.img = s.img ∧
    t.cfg = s.cfg ∧
    t.ring = s.ring ∧
    t.acq = s.acq ∧
    t.cur = s.cur ∧
    t.husk = s.husk ∧
    t.drv = s.drv ∧
    t.est = s.est ∧
    t.win = s.win ∧
    t.time = s.time ∧
    t.therm = s.therm ∧
    t.nv = s.nv ∧
    t.ledg = s.ledg ∧
    t.tally = s.tally ∧
    t.host = s.host ∧
    t.sec = s.sec ∧
    t.pwr = s.pwr ∧
    t.bist = s.bist ∧
    t.pins = s.pins ∧
    t.freeIx = s.freeIx ∧
    t.pending = s.pending ∧
    t.recd.held = s.recd.held ∧
    t.evt.held = s.evt.held := by
  exact laneInstr_keep h

theorem execFma_keep {l : Nat} {d : BitVec 5} {a : BitVec 5} {b : BitVec 5} {c : BitVec 5} {s t : State} (h : execFma l d a b c s = .next t) :
    t.sys = s.sys ∧
    t.img = s.img ∧
    t.cfg = s.cfg ∧
    t.ring = s.ring ∧
    t.acq = s.acq ∧
    t.cur = s.cur ∧
    t.husk = s.husk ∧
    t.drv = s.drv ∧
    t.est = s.est ∧
    t.win = s.win ∧
    t.time = s.time ∧
    t.therm = s.therm ∧
    t.nv = s.nv ∧
    t.ledg = s.ledg ∧
    t.tally = s.tally ∧
    t.host = s.host ∧
    t.sec = s.sec ∧
    t.pwr = s.pwr ∧
    t.bist = s.bist ∧
    t.pins = s.pins ∧
    t.freeIx = s.freeIx ∧
    t.pending = s.pending ∧
    t.recd.held = s.recd.held ∧
    t.evt.held = s.evt.held := by
  exact laneInstr_keep h

theorem execFdiv_keep {l : Nat} {d : BitVec 5} {a : BitVec 5} {b : BitVec 5} {s t : State} (h : execFdiv l d a b s = .next t) :
    t.sys = s.sys ∧
    t.img = s.img ∧
    t.cfg = s.cfg ∧
    t.ring = s.ring ∧
    t.acq = s.acq ∧
    t.cur = s.cur ∧
    t.husk = s.husk ∧
    t.drv = s.drv ∧
    t.est = s.est ∧
    t.win = s.win ∧
    t.time = s.time ∧
    t.therm = s.therm ∧
    t.nv = s.nv ∧
    t.ledg = s.ledg ∧
    t.tally = s.tally ∧
    t.host = s.host ∧
    t.sec = s.sec ∧
    t.pwr = s.pwr ∧
    t.bist = s.bist ∧
    t.pins = s.pins ∧
    t.freeIx = s.freeIx ∧
    t.pending = s.pending ∧
    t.recd.held = s.recd.held ∧
    t.evt.held = s.evt.held := by
  exact laneInstr_keep h

theorem execFsqrt_keep {l : Nat} {d : BitVec 5} {a : BitVec 5} {s t : State} (h : execFsqrt l d a s = .next t) :
    t.sys = s.sys ∧
    t.img = s.img ∧
    t.cfg = s.cfg ∧
    t.ring = s.ring ∧
    t.acq = s.acq ∧
    t.cur = s.cur ∧
    t.husk = s.husk ∧
    t.drv = s.drv ∧
    t.est = s.est ∧
    t.win = s.win ∧
    t.time = s.time ∧
    t.therm = s.therm ∧
    t.nv = s.nv ∧
    t.ledg = s.ledg ∧
    t.tally = s.tally ∧
    t.host = s.host ∧
    t.sec = s.sec ∧
    t.pwr = s.pwr ∧
    t.bist = s.bist ∧
    t.pins = s.pins ∧
    t.freeIx = s.freeIx ∧
    t.pending = s.pending ∧
    t.recd.held = s.recd.held ∧
    t.evt.held = s.evt.held := by
  exact laneInstr_keep h

theorem execFexp_keep {l : Nat} {d : BitVec 5} {a : BitVec 5} {s t : State} (h : execFexp l d a s = .next t) :
    t.sys = s.sys ∧
    t.img = s.img ∧
    t.cfg = s.cfg ∧
    t.ring = s.ring ∧
    t.acq = s.acq ∧
    t.cur = s.cur ∧
    t.husk = s.husk ∧
    t.drv = s.drv ∧
    t.est = s.est ∧
    t.win = s.win ∧
    t.time = s.time ∧
    t.therm = s.therm ∧
    t.nv = s.nv ∧
    t.ledg = s.ledg ∧
    t.tally = s.tally ∧
    t.host = s.host ∧
    t.sec = s.sec ∧
    t.pwr = s.pwr ∧
    t.bist = s.bist ∧
    t.pins = s.pins ∧
    t.freeIx = s.freeIx ∧
    t.pending = s.pending ∧
    t.recd.held = s.recd.held ∧
    t.evt.held = s.evt.held := by
  exact laneInstr_keep h

theorem execFmin_keep {l : Nat} {d : BitVec 5} {a : BitVec 5} {b : BitVec 5} {s t : State} (h : execFmin l d a b s = .next t) :
    t.sys = s.sys ∧
    t.img = s.img ∧
    t.cfg = s.cfg ∧
    t.ring = s.ring ∧
    t.acq = s.acq ∧
    t.cur = s.cur ∧
    t.husk = s.husk ∧
    t.drv = s.drv ∧
    t.est = s.est ∧
    t.win = s.win ∧
    t.time = s.time ∧
    t.therm = s.therm ∧
    t.nv = s.nv ∧
    t.ledg = s.ledg ∧
    t.tally = s.tally ∧
    t.host = s.host ∧
    t.sec = s.sec ∧
    t.pwr = s.pwr ∧
    t.bist = s.bist ∧
    t.pins = s.pins ∧
    t.freeIx = s.freeIx ∧
    t.pending = s.pending ∧
    t.recd.held = s.recd.held ∧
    t.evt.held = s.evt.held := by
  exact laneInstr_keep h

theorem execFmax_keep {l : Nat} {d : BitVec 5} {a : BitVec 5} {b : BitVec 5} {s t : State} (h : execFmax l d a b s = .next t) :
    t.sys = s.sys ∧
    t.img = s.img ∧
    t.cfg = s.cfg ∧
    t.ring = s.ring ∧
    t.acq = s.acq ∧
    t.cur = s.cur ∧
    t.husk = s.husk ∧
    t.drv = s.drv ∧
    t.est = s.est ∧
    t.win = s.win ∧
    t.time = s.time ∧
    t.therm = s.therm ∧
    t.nv = s.nv ∧
    t.ledg = s.ledg ∧
    t.tally = s.tally ∧
    t.host = s.host ∧
    t.sec = s.sec ∧
    t.pwr = s.pwr ∧
    t.bist = s.bist ∧
    t.pins = s.pins ∧
    t.freeIx = s.freeIx ∧
    t.pending = s.pending ∧
    t.recd.held = s.recd.held ∧
    t.evt.held = s.evt.held := by
  exact laneInstr_keep h

theorem execFabs_keep {l : Nat} {d : BitVec 5} {a : BitVec 5} {s t : State} (h : execFabs l d a s = .next t) :
    t.sys = s.sys ∧
    t.img = s.img ∧
    t.cfg = s.cfg ∧
    t.ring = s.ring ∧
    t.acq = s.acq ∧
    t.cur = s.cur ∧
    t.husk = s.husk ∧
    t.drv = s.drv ∧
    t.est = s.est ∧
    t.win = s.win ∧
    t.time = s.time ∧
    t.therm = s.therm ∧
    t.nv = s.nv ∧
    t.ledg = s.ledg ∧
    t.tally = s.tally ∧
    t.host = s.host ∧
    t.sec = s.sec ∧
    t.pwr = s.pwr ∧
    t.bist = s.bist ∧
    t.pins = s.pins ∧
    t.freeIx = s.freeIx ∧
    t.pending = s.pending ∧
    t.recd.held = s.recd.held ∧
    t.evt.held = s.evt.held := by
  exact laneInstr_keep h

theorem execClamp_keep {l : Nat} {d : BitVec 5} {a : BitVec 5} {b : BitVec 5} {c : BitVec 5} {s t : State} (h : execClamp l d a b c s = .next t) :
    t.sys = s.sys ∧
    t.img = s.img ∧
    t.cfg = s.cfg ∧
    t.ring = s.ring ∧
    t.acq = s.acq ∧
    t.cur = s.cur ∧
    t.husk = s.husk ∧
    t.drv = s.drv ∧
    t.est = s.est ∧
    t.win = s.win ∧
    t.time = s.time ∧
    t.therm = s.therm ∧
    t.nv = s.nv ∧
    t.ledg = s.ledg ∧
    t.tally = s.tally ∧
    t.host = s.host ∧
    t.sec = s.sec ∧
    t.pwr = s.pwr ∧
    t.bist = s.bist ∧
    t.pins = s.pins ∧
    t.freeIx = s.freeIx ∧
    t.pending = s.pending ∧
    t.recd.held = s.recd.held ∧
    t.evt.held = s.evt.held := by
  exact laneInstr_keep h

theorem execCmp_keep {l : Nat} {pd : BitVec 3} {a : BitVec 5} {b : BitVec 5} {cond : BitVec 3} {s t : State} (h : execCmp l pd a b cond s = .next t) :
    t.sys = s.sys ∧
    t.img = s.img ∧
    t.cfg = s.cfg ∧
    t.ring = s.ring ∧
    t.acq = s.acq ∧
    t.cur = s.cur ∧
    t.husk = s.husk ∧
    t.drv = s.drv ∧
    t.est = s.est ∧
    t.win = s.win ∧
    t.time = s.time ∧
    t.therm = s.therm ∧
    t.nv = s.nv ∧
    t.ledg = s.ledg ∧
    t.tally = s.tally ∧
    t.host = s.host ∧
    t.sec = s.sec ∧
    t.pwr = s.pwr ∧
    t.bist = s.bist ∧
    t.pins = s.pins ∧
    t.freeIx = s.freeIx ∧
    t.pending = s.pending ∧
    t.recd.held = s.recd.held ∧
    t.evt.held = s.evt.held := by
  exact laneInstr_keep h

theorem execSel_keep {l : Nat} {d : BitVec 5} {a : BitVec 5} {b : BitVec 5} {pn : BitVec 3} {s t : State} (h : execSel l d a b pn s = .next t) :
    t.sys = s.sys ∧
    t.img = s.img ∧
    t.cfg = s.cfg ∧
    t.ring = s.ring ∧
    t.acq = s.acq ∧
    t.cur = s.cur ∧
    t.husk = s.husk ∧
    t.drv = s.drv ∧
    t.est = s.est ∧
    t.win = s.win ∧
    t.time = s.time ∧
    t.therm = s.therm ∧
    t.nv = s.nv ∧
    t.ledg = s.ledg ∧
    t.tally = s.tally ∧
    t.host = s.host ∧
    t.sec = s.sec ∧
    t.pwr = s.pwr ∧
    t.bist = s.bist ∧
    t.pins = s.pins ∧
    t.freeIx = s.freeIx ∧
    t.pending = s.pending ∧
    t.recd.held = s.recd.held ∧
    t.evt.held = s.evt.held := by
  exact laneInstr_keep h

theorem execMovi_keep {l : Nat} {d : BitVec 5} {kind : BitVec 2} {imm : BitVec 16} {s t : State} (h : execMovi l d kind imm s = .next t) :
    t.sys = s.sys ∧
    t.img = s.img ∧
    t.cfg = s.cfg ∧
    t.ring = s.ring ∧
    t.acq = s.acq ∧
    t.cur = s.cur ∧
    t.husk = s.husk ∧
    t.drv = s.drv ∧
    t.est = s.est ∧
    t.win = s.win ∧
    t.time = s.time ∧
    t.therm = s.therm ∧
    t.nv = s.nv ∧
    t.ledg = s.ledg ∧
    t.tally = s.tally ∧
    t.host = s.host ∧
    t.sec = s.sec ∧
    t.pwr = s.pwr ∧
    t.bist = s.bist ∧
    t.pins = s.pins ∧
    t.freeIx = s.freeIx ∧
    t.pending = s.pending ∧
    t.recd.held = s.recd.held ∧
    t.evt.held = s.evt.held := by
  exact laneInstr_keep h

theorem execCvt_keep {l : Nat} {d : BitVec 5} {a : BitVec 5} {mode : BitVec 3} {s t : State} (h : execCvt l d a mode s = .next t) :
    t.sys = s.sys ∧
    t.img = s.img ∧
    t.cfg = s.cfg ∧
    t.ring = s.ring ∧
    t.acq = s.acq ∧
    t.cur = s.cur ∧
    t.husk = s.husk ∧
    t.drv = s.drv ∧
    t.est = s.est ∧
    t.win = s.win ∧
    t.time = s.time ∧
    t.therm = s.therm ∧
    t.nv = s.nv ∧
    t.ledg = s.ledg ∧
    t.tally = s.tally ∧
    t.host = s.host ∧
    t.sec = s.sec ∧
    t.pwr = s.pwr ∧
    t.bist = s.bist ∧
    t.pins = s.pins ∧
    t.freeIx = s.freeIx ∧
    t.pending = s.pending ∧
    t.recd.held = s.recd.held ∧
    t.evt.held = s.evt.held := by
  exact laneInstr_keep h

theorem execLdi_keep {l : Nat} {d : BitVec 5} {idx : BitVec 8} {s t : State} (h : execLdi l d idx s = .next t) :
    t.sys = s.sys ∧
    t.img = s.img ∧
    t.cfg = s.cfg ∧
    t.ring = s.ring ∧
    t.acq = s.acq ∧
    t.cur = s.cur ∧
    t.husk = s.husk ∧
    t.drv = s.drv ∧
    t.est = s.est ∧
    t.win = s.win ∧
    t.time = s.time ∧
    t.therm = s.therm ∧
    t.nv = s.nv ∧
    t.ledg = s.ledg ∧
    t.tally = s.tally ∧
    t.host = s.host ∧
    t.sec = s.sec ∧
    t.pwr = s.pwr ∧
    t.bist = s.bist ∧
    t.pins = s.pins ∧
    t.freeIx = s.freeIx ∧
    t.pending = s.pending ∧
    t.recd.held = s.recd.held ∧
    t.evt.held = s.evt.held := by
  have e := Host.Outcome.next.inj h
  subst e
  simp [id @setLane_keep]

theorem execLds_keep {l : Nat} {d : BitVec 5} {w : BitVec 6} {bad : Bool} {s t : State} (h : execLds l d w bad s = .next t) :
    t.img = s.img ∧
    t.cfg = s.cfg ∧
    t.acq = s.acq ∧
    t.cur = s.cur ∧
    t.win = s.win ∧
    t.time = s.time ∧
    t.therm = s.therm ∧
    t.nv = s.nv ∧
    t.ledg = s.ledg ∧
    t.tally = s.tally ∧
    t.host = s.host ∧
    t.sec = s.sec ∧
    t.bist = s.bist ∧
    t.pending = s.pending ∧
    t.sys.held = s.sys.held ∧
    t.husk.held = s.husk.held ∧
    t.drv.held = s.drv.held ∧
    t.recd.held = s.recd.held ∧
    t.est.held = s.est.held ∧
    t.pwr.held = s.pwr.held ∧
    t.evt.held = s.evt.held ∧
    t.pins.held = s.pins.held := by
  have e := Host.Outcome.next.inj h
  subst e
  dsimp only
  repeat' split
  all_goals simp [id @eccEvent_keep, id @setLane_keep, id @settle_keep]

theorem commitWrite_keep (l : Nat) (w : KWrite) (cmp : Cmp) (u3 : Nat) (x : Lane) (s : State) :
    (commitWrite l w cmp u3 x s).sys = s.sys ∧
    (commitWrite l w cmp u3 x s).img = s.img ∧
    (commitWrite l w cmp u3 x s).cfg = s.cfg ∧
    (commitWrite l w cmp u3 x s).ring = s.ring ∧
    (commitWrite l w cmp u3 x s).acq = s.acq ∧
    (commitWrite l w cmp u3 x s).cur = s.cur ∧
    (commitWrite l w cmp u3 x s).husk = s.husk ∧
    (commitWrite l w cmp u3 x s).drv = s.drv ∧
    (commitWrite l w cmp u3 x s).est = s.est ∧
    (commitWrite l w cmp u3 x s).win = s.win ∧
    (commitWrite l w cmp u3 x s).time = s.time ∧
    (commitWrite l w cmp u3 x s).therm = s.therm ∧
    (commitWrite l w cmp u3 x s).nv = s.nv ∧
    (commitWrite l w cmp u3 x s).ledg = s.ledg ∧
    (commitWrite l w cmp u3 x s).tally = s.tally ∧
    (commitWrite l w cmp u3 x s).host = s.host ∧
    (commitWrite l w cmp u3 x s).sec = s.sec ∧
    (commitWrite l w cmp u3 x s).pwr = s.pwr ∧
    (commitWrite l w cmp u3 x s).bist = s.bist ∧
    (commitWrite l w cmp u3 x s).pins = s.pins ∧
    (commitWrite l w cmp u3 x s).pending = s.pending ∧
    (commitWrite l w cmp u3 x s).recd.held = s.recd.held ∧
    (commitWrite l w cmp u3 x s).evt.held = s.evt.held := by
  simp only [commitWrite]
  repeat' split
  all_goals simp [id @compareWrite_keep, id @modPair_keep, id @setLane_keep]

theorem execSts_keep {l : Nat} {a : BitVec 5} {w : BitVec 6} {cmp : Cmp} {s t : State} (h : execSts l a w cmp s = .next t) :
    t.img = s.img ∧
    t.cfg = s.cfg ∧
    t.acq = s.acq ∧
    t.cur = s.cur ∧
    t.win = s.win ∧
    t.time = s.time ∧
    t.therm = s.therm ∧
    t.nv = s.nv ∧
    t.ledg = s.ledg ∧
    t.tally = s.tally ∧
    t.host = s.host ∧
    t.sec = s.sec ∧
    t.bist = s.bist ∧
    t.pending = s.pending ∧
    t.sys.held = s.sys.held ∧
    t.husk.held = s.husk.held ∧
    t.drv.held = s.drv.held ∧
    t.recd.held = s.recd.held ∧
    t.est.held = s.est.held ∧
    t.pwr.held = s.pwr.held ∧
    t.evt.held = s.evt.held ∧
    t.pins.held = s.pins.held := by
  have e := Host.Outcome.next.inj h
  subst e
  simp [id @commitWrite_keep, id @settle_keep, id @settleLevel_keep]

theorem execOut_keep {l : Nat} {a : BitVec 5} {j : BitVec 4} {cmp : Cmp} {s t : State} (h : execOut l a j cmp s = .next t) :
    t.img = s.img ∧
    t.cfg = s.cfg ∧
    t.acq = s.acq ∧
    t.cur = s.cur ∧
    t.win = s.win ∧
    t.time = s.time ∧
    t.therm = s.therm ∧
    t.nv = s.nv ∧
    t.ledg = s.ledg ∧
    t.tally = s.tally ∧
    t.host = s.host ∧
    t.sec = s.sec ∧
    t.bist = s.bist ∧
    t.pending = s.pending ∧
    t.sys.held = s.sys.held ∧
    t.husk.held = s.husk.held ∧
    t.drv.held = s.drv.held ∧
    t.recd.held = s.recd.held ∧
    t.est.held = s.est.held ∧
    t.pwr.held = s.pwr.held ∧
    t.evt.held = s.evt.held ∧
    t.pins.held = s.pins.held := by
  have e := Host.Outcome.next.inj h
  subst e
  simp [id @commitWrite_keep, id @settle_keep, id @settleLevel_keep]

theorem execTbl2_keep {l : Nat} {d : BitVec 5} {a : BitVec 5} {b : BitVec 5} {t0 : BitVec 4} {bad : Bool} {s t : State} (h : execTbl2 l d a b t0 bad s = .next t) :
    t.img = s.img ∧
    t.cfg = s.cfg ∧
    t.acq = s.acq ∧
    t.cur = s.cur ∧
    t.win = s.win ∧
    t.time = s.time ∧
    t.therm = s.therm ∧
    t.nv = s.nv ∧
    t.ledg = s.ledg ∧
    t.tally = s.tally ∧
    t.host = s.host ∧
    t.sec = s.sec ∧
    t.bist = s.bist ∧
    t.pending = s.pending ∧
    t.sys.held = s.sys.held ∧
    t.husk.held = s.husk.held ∧
    t.drv.held = s.drv.held ∧
    t.recd.held = s.recd.held ∧
    t.est.held = s.est.held ∧
    t.pwr.held = s.pwr.held ∧
    t.evt.held = s.evt.held ∧
    t.pins.held = s.pins.held := by
  have e := Host.Outcome.next.inj h
  subst e
  refine ⟨?_, ?_, ?_, ?_, ?_, ?_, ?_, ?_, ?_, ?_, ?_, ?_, ?_, ?_, ?_, ?_, ?_, ?_, ?_, ?_, ?_, ?_⟩
  · first
    | (simp [id @eccEvent_keep, id @emit_keep, id @setLane_keep, id @settle_keep, id @settleLevel_keep]; done)
    | (simp only [settle_keep,
        settleLevel_keep]; apply withInstr_img; intro c x t; (repeat' split) <;> simp [id @eccEvent_keep,
            id @emit_keep, id @setLane_keep, id @settle_keep, id @settleLevel_keep])
  · first
    | (simp [id @eccEvent_keep, id @emit_keep, id @setLane_keep, id @settle_keep, id @settleLevel_keep]; done)
    | (simp only [settle_keep,
        settleLevel_keep]; apply withInstr_cfg; intro c x t; (repeat' split) <;> simp [id @eccEvent_keep,
            id @emit_keep, id @setLane_keep, id @settle_keep, id @settleLevel_keep])
  · first
    | (simp [id @eccEvent_keep, id @emit_keep, id @setLane_keep, id @settle_keep, id @settleLevel_keep]; done)
    | (simp only [settle_keep,
        settleLevel_keep]; apply withInstr_acq; intro c x t; (repeat' split) <;> simp [id @eccEvent_keep,
            id @emit_keep, id @setLane_keep, id @settle_keep, id @settleLevel_keep])
  · first
    | (simp [id @eccEvent_keep, id @emit_keep, id @setLane_keep, id @settle_keep, id @settleLevel_keep]; done)
    | (simp only [settle_keep,
        settleLevel_keep]; apply withInstr_cur; intro c x t; (repeat' split) <;> simp [id @eccEvent_keep,
            id @emit_keep, id @setLane_keep, id @settle_keep, id @settleLevel_keep])
  · first
    | (simp [id @eccEvent_keep, id @emit_keep, id @setLane_keep, id @settle_keep, id @settleLevel_keep]; done)
    | (simp only [settle_keep,
        settleLevel_keep]; apply withInstr_win; intro c x t; (repeat' split) <;> simp [id @eccEvent_keep,
            id @emit_keep, id @setLane_keep, id @settle_keep, id @settleLevel_keep])
  · first
    | (simp [id @eccEvent_keep, id @emit_keep, id @setLane_keep, id @settle_keep, id @settleLevel_keep]; done)
    | (simp only [settle_keep,
        settleLevel_keep]; apply withInstr_time; intro c x t; (repeat' split) <;> simp [id @eccEvent_keep,
            id @emit_keep, id @setLane_keep, id @settle_keep, id @settleLevel_keep])
  · first
    | (simp [id @eccEvent_keep, id @emit_keep, id @setLane_keep, id @settle_keep, id @settleLevel_keep]; done)
    | (simp only [settle_keep,
        settleLevel_keep]; apply withInstr_therm; intro c x t; (repeat' split) <;> simp [id @eccEvent_keep,
            id @emit_keep, id @setLane_keep, id @settle_keep, id @settleLevel_keep])
  · first
    | (simp [id @eccEvent_keep, id @emit_keep, id @setLane_keep, id @settle_keep, id @settleLevel_keep]; done)
    | (simp only [settle_keep,
        settleLevel_keep]; apply withInstr_nv; intro c x t; (repeat' split) <;> simp [id @eccEvent_keep,
            id @emit_keep, id @setLane_keep, id @settle_keep, id @settleLevel_keep])
  · first
    | (simp [id @eccEvent_keep, id @emit_keep, id @setLane_keep, id @settle_keep, id @settleLevel_keep]; done)
    | (simp only [settle_keep,
        settleLevel_keep]; apply withInstr_ledg; intro c x t; (repeat' split) <;> simp [id @eccEvent_keep,
            id @emit_keep, id @setLane_keep, id @settle_keep, id @settleLevel_keep])
  · first
    | (simp [id @eccEvent_keep, id @emit_keep, id @setLane_keep, id @settle_keep, id @settleLevel_keep]; done)
    | (simp only [settle_keep,
        settleLevel_keep]; apply withInstr_tally; intro c x t; (repeat' split) <;> simp [id @eccEvent_keep,
            id @emit_keep, id @setLane_keep, id @settle_keep, id @settleLevel_keep])
  · first
    | (simp [id @eccEvent_keep, id @emit_keep, id @setLane_keep, id @settle_keep, id @settleLevel_keep]; done)
    | (simp only [settle_keep,
        settleLevel_keep]; apply withInstr_host; intro c x t; (repeat' split) <;> simp [id @eccEvent_keep,
            id @emit_keep, id @setLane_keep, id @settle_keep, id @settleLevel_keep])
  · first
    | (simp [id @eccEvent_keep, id @emit_keep, id @setLane_keep, id @settle_keep, id @settleLevel_keep]; done)
    | (simp only [settle_keep,
        settleLevel_keep]; apply withInstr_sec; intro c x t; (repeat' split) <;> simp [id @eccEvent_keep,
            id @emit_keep, id @setLane_keep, id @settle_keep, id @settleLevel_keep])
  · first
    | (simp [id @eccEvent_keep, id @emit_keep, id @setLane_keep, id @settle_keep, id @settleLevel_keep]; done)
    | (simp only [settle_keep,
        settleLevel_keep]; apply withInstr_bist; intro c x t; (repeat' split) <;> simp [id @eccEvent_keep,
            id @emit_keep, id @setLane_keep, id @settle_keep, id @settleLevel_keep])
  · first
    | (simp [id @eccEvent_keep, id @emit_keep, id @setLane_keep, id @settle_keep, id @settleLevel_keep]; done)
    | (simp only [settle_keep,
        settleLevel_keep]; apply withInstr_pending; intro c x t; (repeat' split) <;> simp [id @eccEvent_keep,
            id @emit_keep, id @setLane_keep, id @settle_keep, id @settleLevel_keep])
  · first
    | (simp [id @eccEvent_keep, id @emit_keep, id @setLane_keep, id @settle_keep, id @settleLevel_keep]; done)
    | (simp only [settle_keep,
        settleLevel_keep]; apply withInstr_sys_held; intro c x t; (repeat' split) <;> simp [id @eccEvent_keep,
            id @emit_keep, id @setLane_keep, id @settle_keep, id @settleLevel_keep])
  · first
    | (simp [id @eccEvent_keep, id @emit_keep, id @setLane_keep, id @settle_keep, id @settleLevel_keep]; done)
    | (simp only [settle_keep,
        settleLevel_keep]; apply withInstr_husk_held; intro c x t; (repeat' split) <;> simp [id @eccEvent_keep,
            id @emit_keep, id @setLane_keep, id @settle_keep, id @settleLevel_keep])
  · first
    | (simp [id @eccEvent_keep, id @emit_keep, id @setLane_keep, id @settle_keep, id @settleLevel_keep]; done)
    | (simp only [settle_keep,
        settleLevel_keep]; apply withInstr_drv_held; intro c x t; (repeat' split) <;> simp [id @eccEvent_keep,
            id @emit_keep, id @setLane_keep, id @settle_keep, id @settleLevel_keep])
  · first
    | (simp [id @settle_keep, id @settleLevel_keep]; done)
    | (simp only [settle_keep,
        settleLevel_keep]; apply withInstr_recd_held; intro c x t; (repeat' split) <;> simp [id @eccEvent_keep,
            id @emit_keep, id @setLane_keep])
  · first
    | (simp [id @eccEvent_keep, id @emit_keep, id @setLane_keep, id @settle_keep, id @settleLevel_keep]; done)
    | (simp only [settle_keep,
        settleLevel_keep]; apply withInstr_est_held; intro c x t; (repeat' split) <;> simp [id @eccEvent_keep,
            id @emit_keep, id @setLane_keep, id @settle_keep, id @settleLevel_keep])
  · first
    | (simp [id @eccEvent_keep, id @emit_keep, id @setLane_keep, id @settle_keep, id @settleLevel_keep]; done)
    | (simp only [settle_keep,
        settleLevel_keep]; apply withInstr_pwr_held; intro c x t; (repeat' split) <;> simp [id @eccEvent_keep,
            id @emit_keep, id @setLane_keep, id @settle_keep, id @settleLevel_keep])
  · first
    | (simp [id @settle_keep, id @settleLevel_keep]; done)
    | (simp only [settle_keep,
        settleLevel_keep]; apply withInstr_evt_held; intro c x t; (repeat' split) <;> simp [id @eccEvent_keep,
            id @emit_keep, id @setLane_keep])
  · first
    | (simp [id @eccEvent_keep, id @emit_keep, id @setLane_keep, id @settle_keep, id @settleLevel_keep]; done)
    | (simp only [settle_keep,
        settleLevel_keep]; apply withInstr_pins_held; intro c x t; (repeat' split) <;> simp [id @eccEvent_keep,
            id @emit_keep, id @setLane_keep, id @settle_keep, id @settleLevel_keep])

theorem execSkip_keep {l : Nat} {always : Bool} {sense : Bool} {pn : BitVec 3} {n : BitVec 10} {s t : State} (h : execSkip l always sense pn n s = .next t) :
    t.sys = s.sys ∧
    t.img = s.img ∧
    t.cfg = s.cfg ∧
    t.ring = s.ring ∧
    t.acq = s.acq ∧
    t.cur = s.cur ∧
    t.husk = s.husk ∧
    t.drv = s.drv ∧
    t.est = s.est ∧
    t.win = s.win ∧
    t.time = s.time ∧
    t.therm = s.therm ∧
    t.nv = s.nv ∧
    t.ledg = s.ledg ∧
    t.tally = s.tally ∧
    t.host = s.host ∧
    t.sec = s.sec ∧
    t.pwr = s.pwr ∧
    t.bist = s.bist ∧
    t.pins = s.pins ∧
    t.freeIx = s.freeIx ∧
    t.pending = s.pending ∧
    t.recd.held = s.recd.held ∧
    t.evt.held = s.evt.held := by
  exact laneInstr_keep h

theorem stepTime_keep (l : Nat) (ns : Nat) (s : State) :
    (stepTime l ns s).sys = s.sys ∧
    (stepTime l ns s).img = s.img ∧
    (stepTime l ns s).cfg = s.cfg ∧
    (stepTime l ns s).ring = s.ring ∧
    (stepTime l ns s).acq = s.acq ∧
    (stepTime l ns s).cur = s.cur ∧
    (stepTime l ns s).husk = s.husk ∧
    (stepTime l ns s).drv = s.drv ∧
    (stepTime l ns s).est = s.est ∧
    (stepTime l ns s).win = s.win ∧
    (stepTime l ns s).pairs = s.pairs ∧
    (stepTime l ns s).time = s.time ∧
    (stepTime l ns s).therm = s.therm ∧
    (stepTime l ns s).nv = s.nv ∧
    (stepTime l ns s).ledg = s.ledg ∧
    (stepTime l ns s).tally = s.tally ∧
    (stepTime l ns s).recd = s.recd ∧
    (stepTime l ns s).host = s.host ∧
    (stepTime l ns s).sec = s.sec ∧
    (stepTime l ns s).pwr = s.pwr ∧
    (stepTime l ns s).bist = s.bist ∧
    (stepTime l ns s).evt = s.evt ∧
    (stepTime l ns s).pins = s.pins ∧
    (stepTime l ns s).freeIx = s.freeIx ∧
    (stepTime l ns s).pending = s.pending := by
  simp [stepTime]

theorem endMain_keep (q : Nat) (x : Lane) (s : State) :
    (endMain q x s).sys = s.sys ∧
    (endMain q x s).img = s.img ∧
    (endMain q x s).cfg = s.cfg ∧
    (endMain q x s).ring = s.ring ∧
    (endMain q x s).acq = s.acq ∧
    (endMain q x s).cur = s.cur ∧
    (endMain q x s).husk = s.husk ∧
    (endMain q x s).drv = s.drv ∧
    (endMain q x s).est = s.est ∧
    (endMain q x s).win = s.win ∧
    (endMain q x s).time = s.time ∧
    (endMain q x s).therm = s.therm ∧
    (endMain q x s).nv = s.nv ∧
    (endMain q x s).ledg = s.ledg ∧
    (endMain q x s).tally = s.tally ∧
    (endMain q x s).recd = s.recd ∧
    (endMain q x s).host = s.host ∧
    (endMain q x s).sec = s.sec ∧
    (endMain q x s).pwr = s.pwr ∧
    (endMain q x s).bist = s.bist ∧
    (endMain q x s).evt = s.evt ∧
    (endMain q x s).pins = s.pins ∧
    (endMain q x s).freeIx = s.freeIx ∧
    (endMain q x s).pending = s.pending := by
  unfold endMain
  repeat' split
  all_goals simp [id @modPair_keep, id @setLane_keep]

theorem execEnd_keep {l : Nat} {ns : Nat} {cmp : Cmp} {s t : State} (h : execEnd l ns cmp s = .next t) :
    t.img = s.img ∧
    t.cfg = s.cfg ∧
    t.acq = s.acq ∧
    t.cur = s.cur ∧
    t.win = s.win ∧
    t.time = s.time ∧
    t.therm = s.therm ∧
    t.nv = s.nv ∧
    t.ledg = s.ledg ∧
    t.tally = s.tally ∧
    t.host = s.host ∧
    t.sec = s.sec ∧
    t.bist = s.bist ∧
    t.pending = s.pending ∧
    t.sys.held = s.sys.held ∧
    t.husk.held = s.husk.held ∧
    t.drv.held = s.drv.held ∧
    t.recd.held = s.recd.held ∧
    t.pwr.held = s.pwr.held ∧
    t.evt.held = s.evt.held ∧
    t.pins.held = s.pins.held := by
  have e := Host.Outcome.next.inj h
  subst e
  refine ⟨?_, ?_, ?_, ?_, ?_, ?_, ?_, ?_, ?_, ?_, ?_, ?_, ?_, ?_, ?_, ?_, ?_, ?_, ?_, ?_, ?_⟩
  · first
    | (simp [id @endMain_keep, id @releaseSet_keep, id @setLane_keep, id @settle_keep, id @settleLevel_keep,
        id @stepTime_keep, id @verifyStep_keep]; done)
    | (simp only [settle_keep,
        settleLevel_keep]; apply withInstr_img; intro c x t; (repeat' split) <;> simp [id @endMain_keep,
            id @releaseSet_keep, id @setLane_keep, id @settle_keep, id @settleLevel_keep, id @stepTime_keep,
                id @verifyStep_keep])
  · first
    | (simp [id @endMain_keep, id @releaseSet_keep, id @setLane_keep, id @settle_keep, id @settleLevel_keep,
        id @stepTime_keep, id @verifyStep_keep]; done)
    | (simp only [settle_keep,
        settleLevel_keep]; apply withInstr_cfg; intro c x t; (repeat' split) <;> simp [id @endMain_keep,
            id @releaseSet_keep, id @setLane_keep, id @settle_keep, id @settleLevel_keep, id @stepTime_keep,
                id @verifyStep_keep])
  · first
    | (simp [id @endMain_keep, id @releaseSet_keep, id @setLane_keep, id @settle_keep, id @settleLevel_keep,
        id @stepTime_keep, id @verifyStep_keep]; done)
    | (simp only [settle_keep,
        settleLevel_keep]; apply withInstr_acq; intro c x t; (repeat' split) <;> simp [id @endMain_keep,
            id @releaseSet_keep, id @setLane_keep, id @settle_keep, id @settleLevel_keep, id @stepTime_keep,
                id @verifyStep_keep])
  · first
    | (simp [id @endMain_keep, id @releaseSet_keep, id @setLane_keep, id @settle_keep, id @settleLevel_keep,
        id @stepTime_keep, id @verifyStep_keep]; done)
    | (simp only [settle_keep,
        settleLevel_keep]; apply withInstr_cur; intro c x t; (repeat' split) <;> simp [id @endMain_keep,
            id @releaseSet_keep, id @setLane_keep, id @settle_keep, id @settleLevel_keep, id @stepTime_keep,
                id @verifyStep_keep])
  · first
    | (simp [id @endMain_keep, id @releaseSet_keep, id @setLane_keep, id @settle_keep, id @settleLevel_keep,
        id @stepTime_keep, id @verifyStep_keep]; done)
    | (simp only [settle_keep,
        settleLevel_keep]; apply withInstr_win; intro c x t; (repeat' split) <;> simp [id @endMain_keep,
            id @releaseSet_keep, id @setLane_keep, id @settle_keep, id @settleLevel_keep, id @stepTime_keep,
                id @verifyStep_keep])
  · first
    | (simp [id @endMain_keep, id @releaseSet_keep, id @setLane_keep, id @settle_keep, id @settleLevel_keep,
        id @stepTime_keep, id @verifyStep_keep]; done)
    | (simp only [settle_keep,
        settleLevel_keep]; apply withInstr_time; intro c x t; (repeat' split) <;> simp [id @endMain_keep,
            id @releaseSet_keep, id @setLane_keep, id @settle_keep, id @settleLevel_keep, id @stepTime_keep,
                id @verifyStep_keep])
  · first
    | (simp [id @endMain_keep, id @releaseSet_keep, id @setLane_keep, id @settle_keep, id @settleLevel_keep,
        id @stepTime_keep, id @verifyStep_keep]; done)
    | (simp only [settle_keep,
        settleLevel_keep]; apply withInstr_therm; intro c x t; (repeat' split) <;> simp [id @endMain_keep,
            id @releaseSet_keep, id @setLane_keep, id @settle_keep, id @settleLevel_keep, id @stepTime_keep,
                id @verifyStep_keep])
  · first
    | (simp [id @endMain_keep, id @releaseSet_keep, id @setLane_keep, id @settle_keep, id @settleLevel_keep,
        id @stepTime_keep, id @verifyStep_keep]; done)
    | (simp only [settle_keep,
        settleLevel_keep]; apply withInstr_nv; intro c x t; (repeat' split) <;> simp [id @endMain_keep,
            id @releaseSet_keep, id @setLane_keep, id @settle_keep, id @settleLevel_keep, id @stepTime_keep,
                id @verifyStep_keep])
  · first
    | (simp [id @endMain_keep, id @releaseSet_keep, id @setLane_keep, id @settle_keep, id @settleLevel_keep,
        id @stepTime_keep, id @verifyStep_keep]; done)
    | (simp only [settle_keep,
        settleLevel_keep]; apply withInstr_ledg; intro c x t; (repeat' split) <;> simp [id @endMain_keep,
            id @releaseSet_keep, id @setLane_keep, id @settle_keep, id @settleLevel_keep, id @stepTime_keep,
                id @verifyStep_keep])
  · first
    | (simp [id @endMain_keep, id @releaseSet_keep, id @setLane_keep, id @settle_keep, id @settleLevel_keep,
        id @stepTime_keep, id @verifyStep_keep]; done)
    | (simp only [settle_keep,
        settleLevel_keep]; apply withInstr_tally; intro c x t; (repeat' split) <;> simp [id @endMain_keep,
            id @releaseSet_keep, id @setLane_keep, id @settle_keep, id @settleLevel_keep, id @stepTime_keep,
                id @verifyStep_keep])
  · first
    | (simp [id @endMain_keep, id @releaseSet_keep, id @setLane_keep, id @settle_keep, id @settleLevel_keep,
        id @stepTime_keep, id @verifyStep_keep]; done)
    | (simp only [settle_keep,
        settleLevel_keep]; apply withInstr_host; intro c x t; (repeat' split) <;> simp [id @endMain_keep,
            id @releaseSet_keep, id @setLane_keep, id @settle_keep, id @settleLevel_keep, id @stepTime_keep,
                id @verifyStep_keep])
  · first
    | (simp [id @endMain_keep, id @releaseSet_keep, id @setLane_keep, id @settle_keep, id @settleLevel_keep,
        id @stepTime_keep, id @verifyStep_keep]; done)
    | (simp only [settle_keep,
        settleLevel_keep]; apply withInstr_sec; intro c x t; (repeat' split) <;> simp [id @endMain_keep,
            id @releaseSet_keep, id @setLane_keep, id @settle_keep, id @settleLevel_keep, id @stepTime_keep,
                id @verifyStep_keep])
  · first
    | (simp [id @endMain_keep, id @releaseSet_keep, id @setLane_keep, id @settle_keep, id @settleLevel_keep,
        id @stepTime_keep, id @verifyStep_keep]; done)
    | (simp only [settle_keep,
        settleLevel_keep]; apply withInstr_bist; intro c x t; (repeat' split) <;> simp [id @endMain_keep,
            id @releaseSet_keep, id @setLane_keep, id @settle_keep, id @settleLevel_keep, id @stepTime_keep,
                id @verifyStep_keep])
  · first
    | (simp [id @endMain_keep, id @releaseSet_keep, id @setLane_keep, id @settle_keep, id @settleLevel_keep,
        id @stepTime_keep, id @verifyStep_keep]; done)
    | (simp only [settle_keep,
        settleLevel_keep]; apply withInstr_pending; intro c x t; (repeat' split) <;> simp [id @endMain_keep,
            id @releaseSet_keep, id @setLane_keep, id @settle_keep, id @settleLevel_keep, id @stepTime_keep,
                id @verifyStep_keep])
  · first
    | (simp [id @endMain_keep, id @releaseSet_keep, id @setLane_keep, id @settle_keep, id @settleLevel_keep,
        id @stepTime_keep, id @verifyStep_keep]; done)
    | (simp only [settle_keep,
        settleLevel_keep]; apply withInstr_sys_held; intro c x t; (repeat' split) <;> simp [id @endMain_keep,
            id @releaseSet_keep, id @setLane_keep, id @settle_keep, id @settleLevel_keep, id @stepTime_keep,
                id @verifyStep_keep])
  · first
    | (simp [id @endMain_keep, id @releaseSet_keep, id @setLane_keep, id @settle_keep, id @settleLevel_keep,
        id @stepTime_keep, id @verifyStep_keep]; done)
    | (simp only [settle_keep,
        settleLevel_keep]; apply withInstr_husk_held; intro c x t; (repeat' split) <;> simp [id @endMain_keep,
            id @releaseSet_keep, id @setLane_keep, id @settle_keep, id @settleLevel_keep, id @stepTime_keep,
                id @verifyStep_keep])
  · first
    | (simp [id @endMain_keep, id @releaseSet_keep, id @setLane_keep, id @settle_keep, id @settleLevel_keep,
        id @stepTime_keep, id @verifyStep_keep]; done)
    | (simp only [settle_keep,
        settleLevel_keep]; apply withInstr_drv_held; intro c x t; (repeat' split) <;> simp [id @endMain_keep,
            id @releaseSet_keep, id @setLane_keep, id @settle_keep, id @settleLevel_keep, id @stepTime_keep,
                id @verifyStep_keep])
  · first
    | (simp [id @settle_keep, id @settleLevel_keep]; done)
    | (simp only [settle_keep,
        settleLevel_keep]; apply withInstr_recd_held; intro c x t; (repeat' split) <;> simp [id @endMain_keep,
            id @releaseSet_keep, id @setLane_keep, id @stepTime_keep,
                id @verifyStep_keep])
  · first
    | (simp [id @endMain_keep, id @releaseSet_keep, id @setLane_keep, id @settle_keep, id @settleLevel_keep,
        id @stepTime_keep, id @verifyStep_keep]; done)
    | (simp only [settle_keep,
        settleLevel_keep]; apply withInstr_pwr_held; intro c x t; (repeat' split) <;> simp [id @endMain_keep,
            id @releaseSet_keep, id @setLane_keep, id @settle_keep, id @settleLevel_keep, id @stepTime_keep,
                id @verifyStep_keep])
  · first
    | (simp [id @settle_keep, id @settleLevel_keep]; done)
    | (simp only [settle_keep,
        settleLevel_keep]; apply withInstr_evt_held; intro c x t; (repeat' split) <;> simp [id @endMain_keep,
            id @releaseSet_keep, id @setLane_keep, id @stepTime_keep,
                id @verifyStep_keep])
  · first
    | (simp [id @endMain_keep, id @releaseSet_keep, id @setLane_keep, id @settle_keep, id @settleLevel_keep,
        id @stepTime_keep, id @verifyStep_keep]; done)
    | (simp only [settle_keep,
        settleLevel_keep]; apply withInstr_pins_held; intro c x t; (repeat' split) <;> simp [id @endMain_keep,
            id @releaseSet_keep, id @setLane_keep, id @settle_keep, id @settleLevel_keep, id @stepTime_keep,
                id @verifyStep_keep])

theorem runWord_keep {l : Nat} {w : Word} {s t : State} (h : runWord l w s = .next t) :
    t.img = s.img ∧
    t.cfg = s.cfg ∧
    t.acq = s.acq ∧
    t.cur = s.cur ∧
    t.win = s.win ∧
    t.time = s.time ∧
    t.therm = s.therm ∧
    t.nv = s.nv ∧
    t.ledg = s.ledg ∧
    t.tally = s.tally ∧
    t.host = s.host ∧
    t.sec = s.sec ∧
    t.bist = s.bist ∧
    t.pending = s.pending ∧
    t.sys.held = s.sys.held ∧
    t.husk.held = s.husk.held ∧
    t.drv.held = s.drv.held ∧
    t.recd.held = s.recd.held ∧
    t.pwr.held = s.pwr.held ∧
    t.evt.held = s.evt.held ∧
    t.pins.held = s.pins.held := by
  unfold runWord at h
  dsimp only at h
  split at h
  · simp [execEnd_keep h]
  · simp [execFadd_keep h]
  · simp [execFsub_keep h]
  · simp [execFmul_keep h]
  · simp [execFma_keep h]
  · simp [execFdiv_keep h]
  · simp [execFsqrt_keep h]
  · simp [execFexp_keep h]
  · simp [execFmin_keep h]
  · simp [execFmax_keep h]
  · simp [execFabs_keep h]
  · simp [execClamp_keep h]
  · simp [execCmp_keep h]
  · simp [execSel_keep h]
  · simp [execMovi_keep h]
  · simp [execCvt_keep h]
  · simp [execLdi_keep h]
  · simp [execLds_keep h]
  · simp [execSts_keep h]
  · simp [execTbl2_keep h]
  · simp [execOut_keep h]
  · simp [execSkip_keep h]
  · cases h
    simp

theorem dbgRun_keep {l : Nat} {s t : State} (h : dbgRun l s = .next t) :
    t.img = s.img ∧
    t.cfg = s.cfg ∧
    t.acq = s.acq ∧
    t.cur = s.cur ∧
    t.win = s.win ∧
    t.time = s.time ∧
    t.therm = s.therm ∧
    t.nv = s.nv ∧
    t.ledg = s.ledg ∧
    t.tally = s.tally ∧
    t.host = s.host ∧
    t.sec = s.sec ∧
    t.bist = s.bist ∧
    t.pending = s.pending ∧
    t.sys.held = s.sys.held ∧
    t.husk.held = s.husk.held ∧
    t.drv.held = s.drv.held ∧
    t.recd.held = s.recd.held ∧
    t.pwr.held = s.pwr.held ∧
    t.evt.held = s.evt.held ∧
    t.pins.held = s.pins.held := by
  unfold dbgRun at h
  repeat' split at h
  · simp [runWord_keep h]
  · cases h
    simp
  · simp [execKernelStepStart_keep h]

theorem dbgStep_keep (s : State) :
    (dbgStep s).img = s.img ∧
    (dbgStep s).cfg = s.cfg ∧
    (dbgStep s).acq = s.acq ∧
    (dbgStep s).cur = s.cur ∧
    (dbgStep s).win = s.win ∧
    (dbgStep s).time = s.time ∧
    (dbgStep s).therm = s.therm ∧
    (dbgStep s).nv = s.nv ∧
    (dbgStep s).ledg = s.ledg ∧
    (dbgStep s).tally = s.tally ∧
    (dbgStep s).host = s.host ∧
    (dbgStep s).sec = s.sec ∧
    (dbgStep s).bist = s.bist ∧
    (dbgStep s).pending = s.pending ∧
    (dbgStep s).sys.held = s.sys.held ∧
    (dbgStep s).husk.held = s.husk.held ∧
    (dbgStep s).drv.held = s.drv.held ∧
    (dbgStep s).recd.held = s.recd.held ∧
    (dbgStep s).pwr.held = s.pwr.held ∧
    (dbgStep s).evt.held = s.evt.held ∧
    (dbgStep s).pins.held = s.pins.held := by
  unfold dbgStep
  dsimp only
  repeat' split
  all_goals first | (rename_i h; simp [dbgRun_keep h, id @dbgFollow_keep,
      id @modLane_keep]) | simp

theorem unverSplit_keep (s : State) :
    (unverSplit s).sys = s.sys ∧
    (unverSplit s).img = s.img ∧
    (unverSplit s).cfg = s.cfg ∧
    (unverSplit s).ring = s.ring ∧
    (unverSplit s).acq = s.acq ∧
    (unverSplit s).cur = s.cur ∧
    (unverSplit s).husk = s.husk ∧
    (unverSplit s).drv = s.drv ∧
    (unverSplit s).est = s.est ∧
    (unverSplit s).win = s.win ∧
    (unverSplit s).time = s.time ∧
    (unverSplit s).therm = s.therm ∧
    (unverSplit s).nv = s.nv ∧
    (unverSplit s).ledg = s.ledg ∧
    (unverSplit s).tally = s.tally ∧
    (unverSplit s).recd = s.recd ∧
    (unverSplit s).host = s.host ∧
    (unverSplit s).sec = s.sec ∧
    (unverSplit s).pwr = s.pwr ∧
    (unverSplit s).bist = s.bist ∧
    (unverSplit s).evt = s.evt ∧
    (unverSplit s).pins = s.pins ∧
    (unverSplit s).freeIx = s.freeIx ∧
    (unverSplit s).pending = s.pending := by
  simp [unverSplit, id @modPair_keep, id @pairClear_keep]

theorem krnCommit_keep (s : State) :
    (krnCommit s).img = s.img ∧
    (krnCommit s).cfg = s.cfg ∧
    (krnCommit s).ring = s.ring ∧
    (krnCommit s).acq = s.acq ∧
    (krnCommit s).cur = s.cur ∧
    (krnCommit s).husk = s.husk ∧
    (krnCommit s).drv = s.drv ∧
    (krnCommit s).est = s.est ∧
    (krnCommit s).win = s.win ∧
    (krnCommit s).time = s.time ∧
    (krnCommit s).therm = s.therm ∧
    (krnCommit s).nv = s.nv ∧
    (krnCommit s).ledg = s.ledg ∧
    (krnCommit s).tally = s.tally ∧
    (krnCommit s).recd = s.recd ∧
    (krnCommit s).host = s.host ∧
    (krnCommit s).sec = s.sec ∧
    (krnCommit s).pwr = s.pwr ∧
    (krnCommit s).bist = s.bist ∧
    (krnCommit s).evt = s.evt ∧
    (krnCommit s).pins = s.pins ∧
    (krnCommit s).freeIx = s.freeIx ∧
    (krnCommit s).pending = s.pending := by
  simp [krnCommit, id @pairClear_keep]

end Sys2Proof.Machine
end

