-- ==== Sys2Proof/Laws/KeepWin.lean ====
section
/-! SUPPORT. What the operations of Machine/Win.lean leave unchanged. -/

namespace Sys2Proof.Machine

theorem setZ_keep (c : Nat) (b : Nat) (j : Nat) (e : ZEntry) (s : State) :
    (setZ c b j e s).sys = s.sys ∧
    (setZ c b j e s).img = s.img ∧
    (setZ c b j e s).cfg = s.cfg ∧
    (setZ c b j e s).ring = s.ring ∧
    (setZ c b j e s).acq = s.acq ∧
    (setZ c b j e s).cur = s.cur ∧
    (setZ c b j e s).husk = s.husk ∧
    (setZ c b j e s).drv = s.drv ∧
    (setZ c b j e s).krn = s.krn ∧
    (setZ c b j e s).est = s.est ∧
    (setZ c b j e s).pairs = s.pairs ∧
    (setZ c b j e s).time = s.time ∧
    (setZ c b j e s).therm = s.therm ∧
    (setZ c b j e s).nv = s.nv ∧
    (setZ c b j e s).ledg = s.ledg ∧
    (setZ c b j e s).tally = s.tally ∧
    (setZ c b j e s).recd = s.recd ∧
    (setZ c b j e s).host = s.host ∧
    (setZ c b j e s).sec = s.sec ∧
    (setZ c b j e s).pwr = s.pwr ∧
    (setZ c b j e s).bist = s.bist ∧
    (setZ c b j e s).evt = s.evt ∧
    (setZ c b j e s).pins = s.pins ∧
    (setZ c b j e s).freeIx = s.freeIx ∧
    (setZ c b j e s).pending = s.pending := by
  simp [setZ]

theorem winCapture_keep (s : State) (c : Nat) :
    (winCapture s c).sys = s.sys ∧
    (winCapture s c).img = s.img ∧
    (winCapture s c).cfg = s.cfg ∧
    (winCapture s c).ring = s.ring ∧
    (winCapture s c).acq = s.acq ∧
    (winCapture s c).cur = s.cur ∧
    (winCapture s c).husk = s.husk ∧
    (winCapture s c).drv = s.drv ∧
    (winCapture s c).krn = s.krn ∧
    (winCapture s c).est = s.est ∧
    (winCapture s c).pairs = s.pairs ∧
    (winCapture s c).time = s.time ∧
    (winCapture s c).therm = s.therm ∧
    (winCapture s c).nv = s.nv ∧
    (winCapture s c).ledg = s.ledg ∧
    (winCapture s c).tally = s.tally ∧
    (winCapture s c).recd = s.recd ∧
    (winCapture s c).host = s.host ∧
    (winCapture s c).sec = s.sec ∧
    (winCapture s c).pwr = s.pwr ∧
    (winCapture s c).bist = s.bist ∧
    (winCapture s c).evt = s.evt ∧
    (winCapture s c).pins = s.pins ∧
    (winCapture s c).freeIx = s.freeIx ∧
    (winCapture s c).pending = s.pending := by
  simp [winCapture, id @modWCell_keep]

theorem takePriors_keep (c : Nat) (s : State) :
    (takePriors c s).sys = s.sys ∧
    (takePriors c s).img = s.img ∧
    (takePriors c s).cfg = s.cfg ∧
    (takePriors c s).ring = s.ring ∧
    (takePriors c s).acq = s.acq ∧
    (takePriors c s).cur = s.cur ∧
    (takePriors c s).husk = s.husk ∧
    (takePriors c s).drv = s.drv ∧
    (takePriors c s).krn = s.krn ∧
    (takePriors c s).est = s.est ∧
    (takePriors c s).pairs = s.pairs ∧
    (takePriors c s).time = s.time ∧
    (takePriors c s).therm = s.therm ∧
    (takePriors c s).nv = s.nv ∧
    (takePriors c s).ledg = s.ledg ∧
    (takePriors c s).tally = s.tally ∧
    (takePriors c s).recd = s.recd ∧
    (takePriors c s).host = s.host ∧
    (takePriors c s).sec = s.sec ∧
    (takePriors c s).pwr = s.pwr ∧
    (takePriors c s).bist = s.bist ∧
    (takePriors c s).evt = s.evt ∧
    (takePriors c s).pins = s.pins ∧
    (takePriors c s).freeIx = s.freeIx ∧
    (takePriors c s).pending = s.pending := by
  simp [takePriors, id @setZ_keep]

theorem loadTable_keep (c : Nat) (s : State) :
    (loadTable c s).sys = s.sys ∧
    (loadTable c s).img = s.img ∧
    (loadTable c s).cfg = s.cfg ∧
    (loadTable c s).ring = s.ring ∧
    (loadTable c s).acq = s.acq ∧
    (loadTable c s).cur = s.cur ∧
    (loadTable c s).husk = s.husk ∧
    (loadTable c s).drv = s.drv ∧
    (loadTable c s).krn = s.krn ∧
    (loadTable c s).est = s.est ∧
    (loadTable c s).pairs = s.pairs ∧
    (loadTable c s).time = s.time ∧
    (loadTable c s).therm = s.therm ∧
    (loadTable c s).nv = s.nv ∧
    (loadTable c s).ledg = s.ledg ∧
    (loadTable c s).tally = s.tally ∧
    (loadTable c s).recd = s.recd ∧
    (loadTable c s).host = s.host ∧
    (loadTable c s).sec = s.sec ∧
    (loadTable c s).pwr = s.pwr ∧
    (loadTable c s).bist = s.bist ∧
    (loadTable c s).evt = s.evt ∧
    (loadTable c s).pins = s.pins ∧
    (loadTable c s).freeIx = s.freeIx ∧
    (loadTable c s).pending = s.pending := by
  unfold loadTable
  repeat' split
  all_goals simp [id @setZ_keep, id @takePriors_keep]

theorem strPush_keep (s : State) (i : Nat) :
    (strPush s i).sys = s.sys ∧
    (strPush s i).img = s.img ∧
    (strPush s i).cfg = s.cfg ∧
    (strPush s i).ring = s.ring ∧
    (strPush s i).acq = s.acq ∧
    (strPush s i).cur = s.cur ∧
    (strPush s i).husk = s.husk ∧
    (strPush s i).drv = s.drv ∧
    (strPush s i).krn = s.krn ∧
    (strPush s i).est = s.est ∧
    (strPush s i).pairs = s.pairs ∧
    (strPush s i).time = s.time ∧
    (strPush s i).therm = s.therm ∧
    (strPush s i).nv = s.nv ∧
    (strPush s i).ledg = s.ledg ∧
    (strPush s i).tally = s.tally ∧
    (strPush s i).recd = s.recd ∧
    (strPush s i).host = s.host ∧
    (strPush s i).sec = s.sec ∧
    (strPush s i).pwr = s.pwr ∧
    (strPush s i).bist = s.bist ∧
    (strPush s i).evt = s.evt ∧
    (strPush s i).pins = s.pins ∧
    (strPush s i).freeIx = s.freeIx ∧
    (strPush s i).pending = s.pending := by
  simp [strPush]

theorem cellPush_keep (use : Bool) (starts : Bool) (s : State) (c : Nat) :
    (cellPush use starts s c).sys = s.sys ∧
    (cellPush use starts s c).img = s.img ∧
    (cellPush use starts s c).cfg = s.cfg ∧
    (cellPush use starts s c).ring = s.ring ∧
    (cellPush use starts s c).acq = s.acq ∧
    (cellPush use starts s c).cur = s.cur ∧
    (cellPush use starts s c).husk = s.husk ∧
    (cellPush use starts s c).drv = s.drv ∧
    (cellPush use starts s c).krn = s.krn ∧
    (cellPush use starts s c).est = s.est ∧
    (cellPush use starts s c).pairs = s.pairs ∧
    (cellPush use starts s c).time = s.time ∧
    (cellPush use starts s c).therm = s.therm ∧
    (cellPush use starts s c).nv = s.nv ∧
    (cellPush use starts s c).ledg = s.ledg ∧
    (cellPush use starts s c).tally = s.tally ∧
    (cellPush use starts s c).recd = s.recd ∧
    (cellPush use starts s c).host = s.host ∧
    (cellPush use starts s c).sec = s.sec ∧
    (cellPush use starts s c).pwr = s.pwr ∧
    (cellPush use starts s c).bist = s.bist ∧
    (cellPush use starts s c).evt = s.evt ∧
    (cellPush use starts s c).pins = s.pins ∧
    (cellPush use starts s c).freeIx = s.freeIx ∧
    (cellPush use starts s c).pending = s.pending := by
  simp [cellPush, id @modWCell_keep]

theorem winDiscard_keep (s : State) :
    (winDiscard s).sys = s.sys ∧
    (winDiscard s).img = s.img ∧
    (winDiscard s).cfg = s.cfg ∧
    (winDiscard s).ring = s.ring ∧
    (winDiscard s).acq = s.acq ∧
    (winDiscard s).cur = s.cur ∧
    (winDiscard s).husk = s.husk ∧
    (winDiscard s).drv = s.drv ∧
    (winDiscard s).krn = s.krn ∧
    (winDiscard s).est = s.est ∧
    (winDiscard s).pairs = s.pairs ∧
    (winDiscard s).time = s.time ∧
    (winDiscard s).therm = s.therm ∧
    (winDiscard s).nv = s.nv ∧
    (winDiscard s).ledg = s.ledg ∧
    (winDiscard s).tally = s.tally ∧
    (winDiscard s).recd = s.recd ∧
    (winDiscard s).host = s.host ∧
    (winDiscard s).sec = s.sec ∧
    (winDiscard s).pwr = s.pwr ∧
    (winDiscard s).bist = s.bist ∧
    (winDiscard s).evt = s.evt ∧
    (winDiscard s).pins = s.pins ∧
    (winDiscard s).freeIx = s.freeIx ∧
    (winDiscard s).pending = s.pending := by
  simp [winDiscard]

theorem winEndAll_keep (s : State) :
    (winEndAll s).sys = s.sys ∧
    (winEndAll s).img = s.img ∧
    (winEndAll s).cfg = s.cfg ∧
    (winEndAll s).ring = s.ring ∧
    (winEndAll s).acq = s.acq ∧
    (winEndAll s).cur = s.cur ∧
    (winEndAll s).husk = s.husk ∧
    (winEndAll s).drv = s.drv ∧
    (winEndAll s).krn = s.krn ∧
    (winEndAll s).est = s.est ∧
    (winEndAll s).pairs = s.pairs ∧
    (winEndAll s).time = s.time ∧
    (winEndAll s).therm = s.therm ∧
    (winEndAll s).nv = s.nv ∧
    (winEndAll s).ledg = s.ledg ∧
    (winEndAll s).tally = s.tally ∧
    (winEndAll s).recd = s.recd ∧
    (winEndAll s).host = s.host ∧
    (winEndAll s).sec = s.sec ∧
    (winEndAll s).pwr = s.pwr ∧
    (winEndAll s).bist = s.bist ∧
    (winEndAll s).evt = s.evt ∧
    (winEndAll s).pins = s.pins ∧
    (winEndAll s).freeIx = s.freeIx ∧
    (winEndAll s).pending = s.pending := by
  simp [winEndAll]

theorem winCutOff_keep (s : State) :
    (winCutOff s).sys = s.sys ∧
    (winCutOff s).img = s.img ∧
    (winCutOff s).cfg = s.cfg ∧
    (winCutOff s).ring = s.ring ∧
    (winCutOff s).acq = s.acq ∧
    (winCutOff s).cur = s.cur ∧
    (winCutOff s).husk = s.husk ∧
    (winCutOff s).drv = s.drv ∧
    (winCutOff s).krn = s.krn ∧
    (winCutOff s).est = s.est ∧
    (winCutOff s).pairs = s.pairs ∧
    (winCutOff s).time = s.time ∧
    (winCutOff s).therm = s.therm ∧
    (winCutOff s).nv = s.nv ∧
    (winCutOff s).ledg = s.ledg ∧
    (winCutOff s).tally = s.tally ∧
    (winCutOff s).recd = s.recd ∧
    (winCutOff s).host = s.host ∧
    (winCutOff s).sec = s.sec ∧
    (winCutOff s).pwr = s.pwr ∧
    (winCutOff s).bist = s.bist ∧
    (winCutOff s).evt = s.evt ∧
    (winCutOff s).pins = s.pins ∧
    (winCutOff s).freeIx = s.freeIx ∧
    (winCutOff s).pending = s.pending := by
  simp only [winCutOff]
  repeat' split
  all_goals simp [id @cellPush_keep, id @strPush_keep, id @winCapture_keep, id @winDiscard_keep]

theorem offer_keep (zs : List ZOffer) (s : State) :
    (offer zs s).sys = s.sys ∧
    (offer zs s).img = s.img ∧
    (offer zs s).cfg = s.cfg ∧
    (offer zs s).ring = s.ring ∧
    (offer zs s).acq = s.acq ∧
    (offer zs s).cur = s.cur ∧
    (offer zs s).husk = s.husk ∧
    (offer zs s).drv = s.drv ∧
    (offer zs s).krn = s.krn ∧
    (offer zs s).est = s.est ∧
    (offer zs s).pairs = s.pairs ∧
    (offer zs s).time = s.time ∧
    (offer zs s).therm = s.therm ∧
    (offer zs s).nv = s.nv ∧
    (offer zs s).ledg = s.ledg ∧
    (offer zs s).tally = s.tally ∧
    (offer zs s).recd = s.recd ∧
    (offer zs s).host = s.host ∧
    (offer zs s).sec = s.sec ∧
    (offer zs s).pwr = s.pwr ∧
    (offer zs s).bist = s.bist ∧
    (offer zs s).evt = s.evt ∧
    (offer zs s).pins = s.pins ∧
    (offer zs s).freeIx = s.freeIx ∧
    (offer zs s).pending = s.pending := by
  simp [offer]

theorem execWinStepEvent_keep {i : Nat} {s t : State} (h : execWinStepEvent i s = .next t) :
    t.sys = s.sys ∧
    t.img = s.img ∧
    t.cfg = s.cfg ∧
    t.ring = s.ring ∧
    t.acq = s.acq ∧
    t.cur = s.cur ∧
    t.husk = s.husk ∧
    t.drv = s.drv ∧
    t.krn = s.krn ∧
    t.est = s.est ∧
    t.pairs = s.pairs ∧
    t.time = s.time ∧
    t.therm = s.therm ∧
    t.nv = s.nv ∧
    t.ledg = s.ledg ∧
    t.tally = s.tally ∧
    t.recd = s.recd ∧
    t.host = s.host ∧
    t.sec = s.sec ∧
    t.pwr = s.pwr ∧
    t.bist = s.bist ∧
    t.evt = s.evt ∧
    t.pins = s.pins ∧
    t.freeIx = s.freeIx ∧
    t.pending = s.pending := by
  have e := Host.Outcome.next.inj h
  subst e
  dsimp only
  repeat' split
  all_goals simp [id @offer_keep]

theorem execWinWindowClose_keep {c : Nat} {s t : State} (h : execWinWindowClose c s = .next t) :
    t.sys = s.sys ∧
    t.img = s.img ∧
    t.cfg = s.cfg ∧
    t.ring = s.ring ∧
    t.acq = s.acq ∧
    t.cur = s.cur ∧
    t.husk = s.husk ∧
    t.drv = s.drv ∧
    t.krn = s.krn ∧
    t.est = s.est ∧
    t.pairs = s.pairs ∧
    t.time = s.time ∧
    t.therm = s.therm ∧
    t.nv = s.nv ∧
    t.ledg = s.ledg ∧
    t.tally = s.tally ∧
    t.recd = s.recd ∧
    t.host = s.host ∧
    t.sec = s.sec ∧
    t.pwr = s.pwr ∧
    t.bist = s.bist ∧
    t.evt = s.evt ∧
    t.pins = s.pins ∧
    t.freeIx = s.freeIx ∧
    t.pending = s.pending := by
  have e := Host.Outcome.next.inj h
  subst e
  dsimp only
  repeat' split
  all_goals simp [id @modWCell_keep, id @offer_keep]

theorem execWinTailEnd_keep {c : Nat} {s t : State} (h : execWinTailEnd c s = .next t) :
    t.sys = s.sys ∧
    t.img = s.img ∧
    t.cfg = s.cfg ∧
    t.ring = s.ring ∧
    t.acq = s.acq ∧
    t.cur = s.cur ∧
    t.husk = s.husk ∧
    t.drv = s.drv ∧
    t.krn = s.krn ∧
    t.est = s.est ∧
    t.pairs = s.pairs ∧
    t.time = s.time ∧
    t.therm = s.therm ∧
    t.nv = s.nv ∧
    t.ledg = s.ledg ∧
    t.tally = s.tally ∧
    t.recd = s.recd ∧
    t.host = s.host ∧
    t.sec = s.sec ∧
    t.pwr = s.pwr ∧
    t.bist = s.bist ∧
    t.evt = s.evt ∧
    t.pins = s.pins ∧
    t.freeIx = s.freeIx ∧
    t.pending = s.pending := by
  have e := Host.Outcome.next.inj h
  subst e
  simp
  repeat' split
  all_goals simp [id @modWCell_keep, id @offer_keep]

theorem rsBaseTake_keep (c : Nat) (s : State) :
    (rsBaseTake c s).sys = s.sys ∧
    (rsBaseTake c s).img = s.img ∧
    (rsBaseTake c s).cfg = s.cfg ∧
    (rsBaseTake c s).ring = s.ring ∧
    (rsBaseTake c s).acq = s.acq ∧
    (rsBaseTake c s).cur = s.cur ∧
    (rsBaseTake c s).husk = s.husk ∧
    (rsBaseTake c s).drv = s.drv ∧
    (rsBaseTake c s).krn = s.krn ∧
    (rsBaseTake c s).est = s.est ∧
    (rsBaseTake c s).win = s.win ∧
    (rsBaseTake c s).pairs = s.pairs ∧
    (rsBaseTake c s).time = s.time ∧
    (rsBaseTake c s).therm = s.therm ∧
    (rsBaseTake c s).ledg = s.ledg ∧
    (rsBaseTake c s).tally = s.tally ∧
    (rsBaseTake c s).recd = s.recd ∧
    (rsBaseTake c s).host = s.host ∧
    (rsBaseTake c s).sec = s.sec ∧
    (rsBaseTake c s).pwr = s.pwr ∧
    (rsBaseTake c s).bist = s.bist ∧
    (rsBaseTake c s).evt = s.evt ∧
    (rsBaseTake c s).pins = s.pins ∧
    (rsBaseTake c s).freeIx = s.freeIx ∧
    (rsBaseTake c s).pending = s.pending := by
  simp [rsBaseTake, id @nvDirty_keep]

theorem zDirty_keep (c : Nat) (s : State) :
    (zDirty c s).sys = s.sys ∧
    (zDirty c s).img = s.img ∧
    (zDirty c s).cfg = s.cfg ∧
    (zDirty c s).ring = s.ring ∧
    (zDirty c s).acq = s.acq ∧
    (zDirty c s).cur = s.cur ∧
    (zDirty c s).husk = s.husk ∧
    (zDirty c s).drv = s.drv ∧
    (zDirty c s).krn = s.krn ∧
    (zDirty c s).est = s.est ∧
    (zDirty c s).pairs = s.pairs ∧
    (zDirty c s).time = s.time ∧
    (zDirty c s).therm = s.therm ∧
    (zDirty c s).ledg = s.ledg ∧
    (zDirty c s).tally = s.tally ∧
    (zDirty c s).recd = s.recd ∧
    (zDirty c s).host = s.host ∧
    (zDirty c s).sec = s.sec ∧
    (zDirty c s).pwr = s.pwr ∧
    (zDirty c s).bist = s.bist ∧
    (zDirty c s).evt = s.evt ∧
    (zDirty c s).pins = s.pins ∧
    (zDirty c s).freeIx = s.freeIx ∧
    (zDirty c s).pending = s.pending := by
  simp [zDirty, id @modWCell_keep, id @nvDirty_keep]

theorem countOffer_keep (k : ZKind) (s : State) :
    (countOffer k s).sys = s.sys ∧
    (countOffer k s).img = s.img ∧
    (countOffer k s).cfg = s.cfg ∧
    (countOffer k s).ring = s.ring ∧
    (countOffer k s).acq = s.acq ∧
    (countOffer k s).cur = s.cur ∧
    (countOffer k s).husk = s.husk ∧
    (countOffer k s).drv = s.drv ∧
    (countOffer k s).krn = s.krn ∧
    (countOffer k s).est = s.est ∧
    (countOffer k s).pairs = s.pairs ∧
    (countOffer k s).time = s.time ∧
    (countOffer k s).therm = s.therm ∧
    (countOffer k s).nv = s.nv ∧
    (countOffer k s).ledg = s.ledg ∧
    (countOffer k s).tally = s.tally ∧
    (countOffer k s).recd = s.recd ∧
    (countOffer k s).host = s.host ∧
    (countOffer k s).sec = s.sec ∧
    (countOffer k s).pwr = s.pwr ∧
    (countOffer k s).bist = s.bist ∧
    (countOffer k s).evt = s.evt ∧
    (countOffer k s).pins = s.pins ∧
    (countOffer k s).freeIx = s.freeIx ∧
    (countOffer k s).pending = s.pending := by
  unfold countOffer
  repeat' split
  all_goals simp

theorem applyOffer_keep (s : State) (o : ZOffer) :
    (applyOffer s o).sys = s.sys ∧
    (applyOffer s o).img = s.img ∧
    (applyOffer s o).cfg = s.cfg ∧
    (applyOffer s o).ring = s.ring ∧
    (applyOffer s o).acq = s.acq ∧
    (applyOffer s o).cur = s.cur ∧
    (applyOffer s o).husk = s.husk ∧
    (applyOffer s o).drv = s.drv ∧
    (applyOffer s o).krn = s.krn ∧
    (applyOffer s o).est = s.est ∧
    (applyOffer s o).pairs = s.pairs ∧
    (applyOffer s o).time = s.time ∧
    (applyOffer s o).therm = s.therm ∧
    (applyOffer s o).ledg = s.ledg ∧
    (applyOffer s o).tally = s.tally ∧
    (applyOffer s o).host = s.host ∧
    (applyOffer s o).sec = s.sec ∧
    (applyOffer s o).pwr = s.pwr ∧
    (applyOffer s o).bist = s.bist ∧
    (applyOffer s o).pins = s.pins ∧
    (applyOffer s o).freeIx = s.freeIx ∧
    (applyOffer s o).pending = s.pending ∧
    (applyOffer s o).recd.held = s.recd.held ∧
    (applyOffer s o).evt.held = s.evt.held := by
  simp only [applyOffer]
  repeat' split
  all_goals simp [id @countOffer_keep, id @emit_keep, id @modWCell_keep, id @rsBaseTake_keep, id @setZ_keep,
      id @zDirty_keep]

theorem winCommit_keep (s : State) :
    (winCommit s).sys = s.sys ∧
    (winCommit s).img = s.img ∧
    (winCommit s).cfg = s.cfg ∧
    (winCommit s).ring = s.ring ∧
    (winCommit s).acq = s.acq ∧
    (winCommit s).cur = s.cur ∧
    (winCommit s).husk = s.husk ∧
    (winCommit s).drv = s.drv ∧
    (winCommit s).krn = s.krn ∧
    (winCommit s).est = s.est ∧
    (winCommit s).pairs = s.pairs ∧
    (winCommit s).time = s.time ∧
    (winCommit s).therm = s.therm ∧
    (winCommit s).ledg = s.ledg ∧
    (winCommit s).tally = s.tally ∧
    (winCommit s).host = s.host ∧
    (winCommit s).sec = s.sec ∧
    (winCommit s).pwr = s.pwr ∧
    (winCommit s).bist = s.bist ∧
    (winCommit s).pins = s.pins ∧
    (winCommit s).freeIx = s.freeIx ∧
    (winCommit s).pending = s.pending ∧
    (winCommit s).recd.held = s.recd.held ∧
    (winCommit s).evt.held = s.evt.held := by
  unfold winCommit
  repeat' split
  all_goals simp [id @applyOffer_keep, id @takePriors_keep, id @zDirty_keep]

theorem winClear_keep (c : Nat) (s : State) :
    (winClear c s).sys = s.sys ∧
    (winClear c s).img = s.img ∧
    (winClear c s).cfg = s.cfg ∧
    (winClear c s).ring = s.ring ∧
    (winClear c s).acq = s.acq ∧
    (winClear c s).cur = s.cur ∧
    (winClear c s).husk = s.husk ∧
    (winClear c s).drv = s.drv ∧
    (winClear c s).krn = s.krn ∧
    (winClear c s).est = s.est ∧
    (winClear c s).pairs = s.pairs ∧
    (winClear c s).time = s.time ∧
    (winClear c s).therm = s.therm ∧
    (winClear c s).nv = s.nv ∧
    (winClear c s).ledg = s.ledg ∧
    (winClear c s).tally = s.tally ∧
    (winClear c s).host = s.host ∧
    (winClear c s).sec = s.sec ∧
    (winClear c s).pwr = s.pwr ∧
    (winClear c s).bist = s.bist ∧
    (winClear c s).pins = s.pins ∧
    (winClear c s).freeIx = s.freeIx ∧
    (winClear c s).pending = s.pending ∧
    (winClear c s).recd.held = s.recd.held ∧
    (winClear c s).evt.held = s.evt.held := by
  unfold winClear
  repeat' split
  all_goals simp [id @emit_keep]

end Sys2Proof.Machine
end

