-- ==== Sys2Proof/Laws/KeepEst.lean ====
section
/-! SUPPORT. What the operations of Machine/Est.lean leave unchanged. -/

namespace Sys2Proof.Machine

theorem arbCount_keep (s : State) (c : Nat) :
    (arbCount s c).sys = s.sys ∧
    (arbCount s c).img = s.img ∧
    (arbCount s c).cfg = s.cfg ∧
    (arbCount s c).ring = s.ring ∧
    (arbCount s c).acq = s.acq ∧
    (arbCount s c).cur = s.cur ∧
    (arbCount s c).husk = s.husk ∧
    (arbCount s c).drv = s.drv ∧
    (arbCount s c).krn = s.krn ∧
    (arbCount s c).win = s.win ∧
    (arbCount s c).pairs = s.pairs ∧
    (arbCount s c).time = s.time ∧
    (arbCount s c).therm = s.therm ∧
    (arbCount s c).nv = s.nv ∧
    (arbCount s c).ledg = s.ledg ∧
    (arbCount s c).tally = s.tally ∧
    (arbCount s c).recd = s.recd ∧
    (arbCount s c).host = s.host ∧
    (arbCount s c).sec = s.sec ∧
    (arbCount s c).pwr = s.pwr ∧
    (arbCount s c).bist = s.bist ∧
    (arbCount s c).evt = s.evt ∧
    (arbCount s c).pins = s.pins ∧
    (arbCount s c).freeIx = s.freeIx ∧
    (arbCount s c).pending = s.pending := by
  simp [arbCount, id @modECell_keep]

theorem estCommit_keep (s : State) :
    (estCommit s).sys = s.sys ∧
    (estCommit s).img = s.img ∧
    (estCommit s).cfg = s.cfg ∧
    (estCommit s).ring = s.ring ∧
    (estCommit s).acq = s.acq ∧
    (estCommit s).cur = s.cur ∧
    (estCommit s).husk = s.husk ∧
    (estCommit s).drv = s.drv ∧
    (estCommit s).krn = s.krn ∧
    (estCommit s).win = s.win ∧
    (estCommit s).pairs = s.pairs ∧
    (estCommit s).time = s.time ∧
    (estCommit s).therm = s.therm ∧
    (estCommit s).nv = s.nv ∧
    (estCommit s).ledg = s.ledg ∧
    (estCommit s).tally = s.tally ∧
    (estCommit s).recd = s.recd ∧
    (estCommit s).host = s.host ∧
    (estCommit s).sec = s.sec ∧
    (estCommit s).pwr = s.pwr ∧
    (estCommit s).bist = s.bist ∧
    (estCommit s).evt = s.evt ∧
    (estCommit s).pins = s.pins ∧
    (estCommit s).freeIx = s.freeIx ∧
    (estCommit s).pending = s.pending := by
  simp [estCommit, id @arbCount_keep]

theorem estCutOff_keep (s : State) :
    (estCutOff s).sys = s.sys ∧
    (estCutOff s).img = s.img ∧
    (estCutOff s).cfg = s.cfg ∧
    (estCutOff s).ring = s.ring ∧
    (estCutOff s).acq = s.acq ∧
    (estCutOff s).cur = s.cur ∧
    (estCutOff s).husk = s.husk ∧
    (estCutOff s).drv = s.drv ∧
    (estCutOff s).krn = s.krn ∧
    (estCutOff s).win = s.win ∧
    (estCutOff s).pairs = s.pairs ∧
    (estCutOff s).time = s.time ∧
    (estCutOff s).therm = s.therm ∧
    (estCutOff s).nv = s.nv ∧
    (estCutOff s).ledg = s.ledg ∧
    (estCutOff s).tally = s.tally ∧
    (estCutOff s).recd = s.recd ∧
    (estCutOff s).host = s.host ∧
    (estCutOff s).sec = s.sec ∧
    (estCutOff s).pwr = s.pwr ∧
    (estCutOff s).bist = s.bist ∧
    (estCutOff s).evt = s.evt ∧
    (estCutOff s).pins = s.pins ∧
    (estCutOff s).freeIx = s.freeIx ∧
    (estCutOff s).pending = s.pending := by
  simp [estCutOff, id @modEStr_keep]

theorem sumEstimated_keep (s : State) (c : Nat) :
    (sumEstimated s c).sys = s.sys ∧
    (sumEstimated s c).img = s.img ∧
    (sumEstimated s c).cfg = s.cfg ∧
    (sumEstimated s c).ring = s.ring ∧
    (sumEstimated s c).acq = s.acq ∧
    (sumEstimated s c).cur = s.cur ∧
    (sumEstimated s c).husk = s.husk ∧
    (sumEstimated s c).drv = s.drv ∧
    (sumEstimated s c).krn = s.krn ∧
    (sumEstimated s c).win = s.win ∧
    (sumEstimated s c).pairs = s.pairs ∧
    (sumEstimated s c).time = s.time ∧
    (sumEstimated s c).therm = s.therm ∧
    (sumEstimated s c).nv = s.nv ∧
    (sumEstimated s c).ledg = s.ledg ∧
    (sumEstimated s c).tally = s.tally ∧
    (sumEstimated s c).host = s.host ∧
    (sumEstimated s c).sec = s.sec ∧
    (sumEstimated s c).pwr = s.pwr ∧
    (sumEstimated s c).bist = s.bist ∧
    (sumEstimated s c).pins = s.pins ∧
    (sumEstimated s c).freeIx = s.freeIx ∧
    (sumEstimated s c).pending = s.pending ∧
    (sumEstimated s c).recd.held = s.recd.held ∧
    (sumEstimated s c).evt.held = s.evt.held := by
  simp [sumEstimated, id @emitIf_keep, id @modECell_keep]

theorem sumStale_keep (s : State) (c : Nat) :
    (sumStale s c).sys = s.sys ∧
    (sumStale s c).img = s.img ∧
    (sumStale s c).cfg = s.cfg ∧
    (sumStale s c).ring = s.ring ∧
    (sumStale s c).acq = s.acq ∧
    (sumStale s c).cur = s.cur ∧
    (sumStale s c).husk = s.husk ∧
    (sumStale s c).drv = s.drv ∧
    (sumStale s c).krn = s.krn ∧
    (sumStale s c).win = s.win ∧
    (sumStale s c).pairs = s.pairs ∧
    (sumStale s c).time = s.time ∧
    (sumStale s c).therm = s.therm ∧
    (sumStale s c).nv = s.nv ∧
    (sumStale s c).ledg = s.ledg ∧
    (sumStale s c).tally = s.tally ∧
    (sumStale s c).recd = s.recd ∧
    (sumStale s c).host = s.host ∧
    (sumStale s c).sec = s.sec ∧
    (sumStale s c).pwr = s.pwr ∧
    (sumStale s c).bist = s.bist ∧
    (sumStale s c).evt = s.evt ∧
    (sumStale s c).pins = s.pins ∧
    (sumStale s c).freeIx = s.freeIx ∧
    (sumStale s c).pending = s.pending := by
  simp [sumStale, id @modECell_keep]

theorem sumNone_keep (s : State) (c : Nat) :
    (sumNone s c).sys = s.sys ∧
    (sumNone s c).img = s.img ∧
    (sumNone s c).cfg = s.cfg ∧
    (sumNone s c).ring = s.ring ∧
    (sumNone s c).acq = s.acq ∧
    (sumNone s c).cur = s.cur ∧
    (sumNone s c).husk = s.husk ∧
    (sumNone s c).drv = s.drv ∧
    (sumNone s c).krn = s.krn ∧
    (sumNone s c).win = s.win ∧
    (sumNone s c).pairs = s.pairs ∧
    (sumNone s c).time = s.time ∧
    (sumNone s c).therm = s.therm ∧
    (sumNone s c).nv = s.nv ∧
    (sumNone s c).ledg = s.ledg ∧
    (sumNone s c).tally = s.tally ∧
    (sumNone s c).recd = s.recd ∧
    (sumNone s c).host = s.host ∧
    (sumNone s c).sec = s.sec ∧
    (sumNone s c).pwr = s.pwr ∧
    (sumNone s c).bist = s.bist ∧
    (sumNone s c).evt = s.evt ∧
    (sumNone s c).pins = s.pins ∧
    (sumNone s c).freeIx = s.freeIx ∧
    (sumNone s c).pending = s.pending := by
  simp [sumNone, id @modECell_keep]

theorem sumCell_keep (s : State) (c : Nat) :
    (sumCell s c).sys = s.sys ∧
    (sumCell s c).img = s.img ∧
    (sumCell s c).cfg = s.cfg ∧
    (sumCell s c).ring = s.ring ∧
    (sumCell s c).acq = s.acq ∧
    (sumCell s c).cur = s.cur ∧
    (sumCell s c).husk = s.husk ∧
    (sumCell s c).drv = s.drv ∧
    (sumCell s c).krn = s.krn ∧
    (sumCell s c).win = s.win ∧
    (sumCell s c).pairs = s.pairs ∧
    (sumCell s c).time = s.time ∧
    (sumCell s c).therm = s.therm ∧
    (sumCell s c).nv = s.nv ∧
    (sumCell s c).ledg = s.ledg ∧
    (sumCell s c).tally = s.tally ∧
    (sumCell s c).host = s.host ∧
    (sumCell s c).sec = s.sec ∧
    (sumCell s c).pwr = s.pwr ∧
    (sumCell s c).bist = s.bist ∧
    (sumCell s c).pins = s.pins ∧
    (sumCell s c).freeIx = s.freeIx ∧
    (sumCell s c).pending = s.pending ∧
    (sumCell s c).recd.held = s.recd.held ∧
    (sumCell s c).evt.held = s.evt.held := by
  unfold sumCell
  repeat' split
  all_goals simp [id @sumEstimated_keep, id @sumNone_keep, id @sumStale_keep]

theorem sumRecords_keep (old : State) (i : Nat) (jump : Rat) (model : Bool) (unc : Bool) (was : Bool) (worst : Nat) (s : State) :
    (sumRecords old i jump model unc was worst s).sys = s.sys ∧
    (sumRecords old i jump model unc was worst s).img = s.img ∧
    (sumRecords old i jump model unc was worst s).cfg = s.cfg ∧
    (sumRecords old i jump model unc was worst s).ring = s.ring ∧
    (sumRecords old i jump model unc was worst s).acq = s.acq ∧
    (sumRecords old i jump model unc was worst s).cur = s.cur ∧
    (sumRecords old i jump model unc was worst s).husk = s.husk ∧
    (sumRecords old i jump model unc was worst s).drv = s.drv ∧
    (sumRecords old i jump model unc was worst s).krn = s.krn ∧
    (sumRecords old i jump model unc was worst s).est = s.est ∧
    (sumRecords old i jump model unc was worst s).win = s.win ∧
    (sumRecords old i jump model unc was worst s).pairs = s.pairs ∧
    (sumRecords old i jump model unc was worst s).time = s.time ∧
    (sumRecords old i jump model unc was worst s).therm = s.therm ∧
    (sumRecords old i jump model unc was worst s).nv = s.nv ∧
    (sumRecords old i jump model unc was worst s).ledg = s.ledg ∧
    (sumRecords old i jump model unc was worst s).tally = s.tally ∧
    (sumRecords old i jump model unc was worst s).host = s.host ∧
    (sumRecords old i jump model unc was worst s).sec = s.sec ∧
    (sumRecords old i jump model unc was worst s).pwr = s.pwr ∧
    (sumRecords old i jump model unc was worst s).bist = s.bist ∧
    (sumRecords old i jump model unc was worst s).pins = s.pins ∧
    (sumRecords old i jump model unc was worst s).freeIx = s.freeIx ∧
    (sumRecords old i jump model unc was worst s).pending = s.pending ∧
    (sumRecords old i jump model unc was worst s).recd.held = s.recd.held ∧
    (sumRecords old i jump model unc was worst s).evt.held = s.evt.held := by
  unfold sumRecords
  repeat' split
  all_goals simp [id @emit_keep, id @emitIf_keep]

theorem sumString_keep (old : State) (s : State) (i : Nat) :
    (sumString old s i).sys = s.sys ∧
    (sumString old s i).img = s.img ∧
    (sumString old s i).cfg = s.cfg ∧
    (sumString old s i).ring = s.ring ∧
    (sumString old s i).acq = s.acq ∧
    (sumString old s i).cur = s.cur ∧
    (sumString old s i).husk = s.husk ∧
    (sumString old s i).drv = s.drv ∧
    (sumString old s i).krn = s.krn ∧
    (sumString old s i).win = s.win ∧
    (sumString old s i).pairs = s.pairs ∧
    (sumString old s i).time = s.time ∧
    (sumString old s i).therm = s.therm ∧
    (sumString old s i).nv = s.nv ∧
    (sumString old s i).ledg = s.ledg ∧
    (sumString old s i).tally = s.tally ∧
    (sumString old s i).host = s.host ∧
    (sumString old s i).sec = s.sec ∧
    (sumString old s i).pwr = s.pwr ∧
    (sumString old s i).bist = s.bist ∧
    (sumString old s i).pins = s.pins ∧
    (sumString old s i).freeIx = s.freeIx ∧
    (sumString old s i).pending = s.pending ∧
    (sumString old s i).recd.held = s.recd.held ∧
    (sumString old s i).evt.held = s.evt.held := by
  unfold sumString
  refine ⟨?_, ?_, ?_, ?_, ?_, ?_, ?_, ?_, ?_, ?_, ?_, ?_, ?_, ?_, ?_, ?_, ?_, ?_, ?_, ?_, ?_, ?_, ?_, ?_,
      ?_⟩ <;> (lift_lets; extract_lets; simp [id @modEStr_keep, id @sumRecords_keep])

theorem releaseCheck_keep (s : State) :
    (releaseCheck s).sys = s.sys ∧
    (releaseCheck s).img = s.img ∧
    (releaseCheck s).cfg = s.cfg ∧
    (releaseCheck s).ring = s.ring ∧
    (releaseCheck s).acq = s.acq ∧
    (releaseCheck s).cur = s.cur ∧
    (releaseCheck s).husk = s.husk ∧
    (releaseCheck s).drv = s.drv ∧
    (releaseCheck s).krn = s.krn ∧
    (releaseCheck s).win = s.win ∧
    (releaseCheck s).pairs = s.pairs ∧
    (releaseCheck s).time = s.time ∧
    (releaseCheck s).therm = s.therm ∧
    (releaseCheck s).nv = s.nv ∧
    (releaseCheck s).ledg = s.ledg ∧
    (releaseCheck s).tally = s.tally ∧
    (releaseCheck s).host = s.host ∧
    (releaseCheck s).sec = s.sec ∧
    (releaseCheck s).pwr = s.pwr ∧
    (releaseCheck s).bist = s.bist ∧
    (releaseCheck s).pins = s.pins ∧
    (releaseCheck s).freeIx = s.freeIx ∧
    (releaseCheck s).pending = s.pending ∧
    (releaseCheck s).recd.held = s.recd.held ∧
    (releaseCheck s).evt.held = s.evt.held := by
  unfold releaseCheck
  repeat' split
  all_goals simp [id @reserveRestore_keep]

theorem charSummary_keep (old : State) (s : State) :
    (charSummary old s).sys = s.sys ∧
    (charSummary old s).img = s.img ∧
    (charSummary old s).cfg = s.cfg ∧
    (charSummary old s).ring = s.ring ∧
    (charSummary old s).acq = s.acq ∧
    (charSummary old s).cur = s.cur ∧
    (charSummary old s).husk = s.husk ∧
    (charSummary old s).drv = s.drv ∧
    (charSummary old s).krn = s.krn ∧
    (charSummary old s).win = s.win ∧
    (charSummary old s).pairs = s.pairs ∧
    (charSummary old s).time = s.time ∧
    (charSummary old s).therm = s.therm ∧
    (charSummary old s).nv = s.nv ∧
    (charSummary old s).ledg = s.ledg ∧
    (charSummary old s).tally = s.tally ∧
    (charSummary old s).recd = s.recd ∧
    (charSummary old s).host = s.host ∧
    (charSummary old s).sec = s.sec ∧
    (charSummary old s).pwr = s.pwr ∧
    (charSummary old s).bist = s.bist ∧
    (charSummary old s).evt = s.evt ∧
    (charSummary old s).pins = s.pins ∧
    (charSummary old s).freeIx = s.freeIx ∧
    (charSummary old s).pending = s.pending ∧
    (charSummary old s).est.held = s.est.held := by
  simp only [charSummary]
  repeat' split
  all_goals simp

theorem charStart_keep (s : State) :
    (charStart s).sys = s.sys ∧
    (charStart s).img = s.img ∧
    (charStart s).cfg = s.cfg ∧
    (charStart s).ring = s.ring ∧
    (charStart s).acq = s.acq ∧
    (charStart s).cur = s.cur ∧
    (charStart s).husk = s.husk ∧
    (charStart s).drv = s.drv ∧
    (charStart s).krn = s.krn ∧
    (charStart s).win = s.win ∧
    (charStart s).pairs = s.pairs ∧
    (charStart s).time = s.time ∧
    (charStart s).therm = s.therm ∧
    (charStart s).nv = s.nv ∧
    (charStart s).ledg = s.ledg ∧
    (charStart s).tally = s.tally ∧
    (charStart s).host = s.host ∧
    (charStart s).sec = s.sec ∧
    (charStart s).pwr = s.pwr ∧
    (charStart s).bist = s.bist ∧
    (charStart s).evt = s.evt ∧
    (charStart s).pins = s.pins ∧
    (charStart s).freeIx = s.freeIx ∧
    (charStart s).pending = s.pending := by
  simp [charStart, id @phaseStart_keep]

theorem charAbort_keep (s : State) :
    (charAbort s).sys = s.sys ∧
    (charAbort s).img = s.img ∧
    (charAbort s).cfg = s.cfg ∧
    (charAbort s).ring = s.ring ∧
    (charAbort s).acq = s.acq ∧
    (charAbort s).cur = s.cur ∧
    (charAbort s).husk = s.husk ∧
    (charAbort s).drv = s.drv ∧
    (charAbort s).krn = s.krn ∧
    (charAbort s).win = s.win ∧
    (charAbort s).pairs = s.pairs ∧
    (charAbort s).time = s.time ∧
    (charAbort s).therm = s.therm ∧
    (charAbort s).nv = s.nv ∧
    (charAbort s).ledg = s.ledg ∧
    (charAbort s).tally = s.tally ∧
    (charAbort s).host = s.host ∧
    (charAbort s).sec = s.sec ∧
    (charAbort s).pwr = s.pwr ∧
    (charAbort s).bist = s.bist ∧
    (charAbort s).pins = s.pins ∧
    (charAbort s).freeIx = s.freeIx ∧
    (charAbort s).pending = s.pending ∧
    (charAbort s).recd.held = s.recd.held ∧
    (charAbort s).est.held = s.est.held ∧
    (charAbort s).evt.held = s.evt.held := by
  simp [charAbort, id @charStop_keep]

theorem charEnter_keep (k : Nat) (req : Int) (f : CharRun → CharRun) (s : State) :
    (charEnter k req f s).sys = s.sys ∧
    (charEnter k req f s).img = s.img ∧
    (charEnter k req f s).cfg = s.cfg ∧
    (charEnter k req f s).ring = s.ring ∧
    (charEnter k req f s).acq = s.acq ∧
    (charEnter k req f s).cur = s.cur ∧
    (charEnter k req f s).husk = s.husk ∧
    (charEnter k req f s).drv = s.drv ∧
    (charEnter k req f s).krn = s.krn ∧
    (charEnter k req f s).win = s.win ∧
    (charEnter k req f s).pairs = s.pairs ∧
    (charEnter k req f s).time = s.time ∧
    (charEnter k req f s).therm = s.therm ∧
    (charEnter k req f s).nv = s.nv ∧
    (charEnter k req f s).ledg = s.ledg ∧
    (charEnter k req f s).tally = s.tally ∧
    (charEnter k req f s).recd = s.recd ∧
    (charEnter k req f s).host = s.host ∧
    (charEnter k req f s).sec = s.sec ∧
    (charEnter k req f s).pwr = s.pwr ∧
    (charEnter k req f s).bist = s.bist ∧
    (charEnter k req f s).evt = s.evt ∧
    (charEnter k req f s).pins = s.pins ∧
    (charEnter k req f s).freeIx = s.freeIx ∧
    (charEnter k req f s).pending = s.pending ∧
    (charEnter k req f s).est.held = s.est.held := by
  simp [charEnter]

theorem charCell_keep (s : State) (c : Nat) :
    (charCell s c).sys = s.sys ∧
    (charCell s c).img = s.img ∧
    (charCell s c).cfg = s.cfg ∧
    (charCell s c).ring = s.ring ∧
    (charCell s c).acq = s.acq ∧
    (charCell s c).cur = s.cur ∧
    (charCell s c).husk = s.husk ∧
    (charCell s c).drv = s.drv ∧
    (charCell s c).krn = s.krn ∧
    (charCell s c).est = s.est ∧
    (charCell s c).win = s.win ∧
    (charCell s c).pairs = s.pairs ∧
    (charCell s c).time = s.time ∧
    (charCell s c).therm = s.therm ∧
    (charCell s c).ledg = s.ledg ∧
    (charCell s c).tally = s.tally ∧
    (charCell s c).recd = s.recd ∧
    (charCell s c).host = s.host ∧
    (charCell s c).sec = s.sec ∧
    (charCell s c).pwr = s.pwr ∧
    (charCell s c).bist = s.bist ∧
    (charCell s c).evt = s.evt ∧
    (charCell s c).pins = s.pins ∧
    (charCell s c).freeIx = s.freeIx ∧
    (charCell s c).pending = s.pending := by
  simp [charCell]

theorem charCommit_keep (s : State) :
    (charCommit s).sys = s.sys ∧
    (charCommit s).img = s.img ∧
    (charCommit s).cfg = s.cfg ∧
    (charCommit s).ring = s.ring ∧
    (charCommit s).acq = s.acq ∧
    (charCommit s).cur = s.cur ∧
    (charCommit s).husk = s.husk ∧
    (charCommit s).drv = s.drv ∧
    (charCommit s).pairs = s.pairs ∧
    (charCommit s).time = s.time ∧
    (charCommit s).therm = s.therm ∧
    (charCommit s).tally = s.tally ∧
    (charCommit s).host = s.host ∧
    (charCommit s).sec = s.sec ∧
    (charCommit s).pwr = s.pwr ∧
    (charCommit s).bist = s.bist ∧
    (charCommit s).pins = s.pins ∧
    (charCommit s).freeIx = s.freeIx ∧
    (charCommit s).pending = s.pending ∧
    (charCommit s).recd.held = s.recd.held ∧
    (charCommit s).evt.held = s.evt.held := by
  simp [charCommit, id @charCell_keep, id @emit_keep, id @eraAdvance_keep, id @initCell_keep, id @jumpMarks_keep,
      id @nvQueue_keep, id @phaseEnd_keep]

theorem execCharStepDone_keep  {s t : State} (h : execCharStepDone s = .next t) :
    t.img = s.img ∧
    t.cfg = s.cfg ∧
    t.acq = s.acq ∧
    t.cur = s.cur ∧
    t.pairs = s.pairs ∧
    t.time = s.time ∧
    t.therm = s.therm ∧
    t.tally = s.tally ∧
    t.host = s.host ∧
    t.sec = s.sec ∧
    t.bist = s.bist ∧
    t.freeIx = s.freeIx ∧
    t.pending = s.pending ∧
    t.sys.held = s.sys.held ∧
    t.husk.held = s.husk.held ∧
    t.drv.held = s.drv.held ∧
    t.recd.held = s.recd.held ∧
    t.pwr.held = s.pwr.held ∧
    t.evt.held = s.evt.held ∧
    t.pins.held = s.pins.held := by
  have e := Host.Outcome.next.inj h
  subst e
  simp [id @charCommit_keep, id @charEnter_keep, id @modEStr_keep, id @settle_keep]
  repeat' split
  all_goals simp [id @charCommit_keep]

theorem execCharStepTimeout_keep  {s t : State} (h : execCharStepTimeout s = .next t) :
    t.img = s.img ∧
    t.cfg = s.cfg ∧
    t.acq = s.acq ∧
    t.cur = s.cur ∧
    t.krn = s.krn ∧
    t.win = s.win ∧
    t.pairs = s.pairs ∧
    t.time = s.time ∧
    t.therm = s.therm ∧
    t.nv = s.nv ∧
    t.ledg = s.ledg ∧
    t.tally = s.tally ∧
    t.host = s.host ∧
    t.sec = s.sec ∧
    t.bist = s.bist ∧
    t.freeIx = s.freeIx ∧
    t.pending = s.pending ∧
    t.sys.held = s.sys.held ∧
    t.husk.held = s.husk.held ∧
    t.drv.held = s.drv.held ∧
    t.recd.held = s.recd.held ∧
    t.est.held = s.est.held ∧
    t.pwr.held = s.pwr.held ∧
    t.evt.held = s.evt.held ∧
    t.pins.held = s.pins.held := by
  have e := Host.Outcome.next.inj h
  subst e
  simp [id @charStop_keep, id @settle_keep]
  repeat' split
  all_goals simp [id @charStop_keep]

theorem execCharCurrentTimeout_keep  {s t : State} (h : execCharCurrentTimeout s = .next t) :
    t.img = s.img ∧
    t.cfg = s.cfg ∧
    t.acq = s.acq ∧
    t.cur = s.cur ∧
    t.krn = s.krn ∧
    t.win = s.win ∧
    t.pairs = s.pairs ∧
    t.time = s.time ∧
    t.therm = s.therm ∧
    t.nv = s.nv ∧
    t.ledg = s.ledg ∧
    t.tally = s.tally ∧
    t.host = s.host ∧
    t.sec = s.sec ∧
    t.bist = s.bist ∧
    t.freeIx = s.freeIx ∧
    t.pending = s.pending ∧
    t.sys.held = s.sys.held ∧
    t.husk.held = s.husk.held ∧
    t.drv.held = s.drv.held ∧
    t.recd.held = s.recd.held ∧
    t.est.held = s.est.held ∧
    t.pwr.held = s.pwr.held ∧
    t.evt.held = s.evt.held ∧
    t.pins.held = s.pins.held := by
  have e := Host.Outcome.next.inj h
  subst e
  simp [id @settle_keep]
  repeat' split
  all_goals simp [id @charStop_keep]

theorem reserveRelease_keep (s : State) :
    (reserveRelease s).sys = s.sys ∧
    (reserveRelease s).img = s.img ∧
    (reserveRelease s).cfg = s.cfg ∧
    (reserveRelease s).ring = s.ring ∧
    (reserveRelease s).acq = s.acq ∧
    (reserveRelease s).cur = s.cur ∧
    (reserveRelease s).husk = s.husk ∧
    (reserveRelease s).drv = s.drv ∧
    (reserveRelease s).krn = s.krn ∧
    (reserveRelease s).win = s.win ∧
    (reserveRelease s).pairs = s.pairs ∧
    (reserveRelease s).time = s.time ∧
    (reserveRelease s).therm = s.therm ∧
    (reserveRelease s).nv = s.nv ∧
    (reserveRelease s).ledg = s.ledg ∧
    (reserveRelease s).tally = s.tally ∧
    (reserveRelease s).host = s.host ∧
    (reserveRelease s).sec = s.sec ∧
    (reserveRelease s).pwr = s.pwr ∧
    (reserveRelease s).bist = s.bist ∧
    (reserveRelease s).pins = s.pins ∧
    (reserveRelease s).freeIx = s.freeIx ∧
    (reserveRelease s).pending = s.pending ∧
    (reserveRelease s).recd.held = s.recd.held ∧
    (reserveRelease s).evt.held = s.evt.held := by
  unfold reserveRelease
  repeat' split
  all_goals simp [id @emit_keep, id @modEStr_keep, id @reserveSet_keep]

theorem reserveHold_keep (s : State) :
    (reserveHold s).sys = s.sys ∧
    (reserveHold s).img = s.img ∧
    (reserveHold s).cfg = s.cfg ∧
    (reserveHold s).ring = s.ring ∧
    (reserveHold s).acq = s.acq ∧
    (reserveHold s).cur = s.cur ∧
    (reserveHold s).husk = s.husk ∧
    (reserveHold s).drv = s.drv ∧
    (reserveHold s).krn = s.krn ∧
    (reserveHold s).win = s.win ∧
    (reserveHold s).pairs = s.pairs ∧
    (reserveHold s).time = s.time ∧
    (reserveHold s).therm = s.therm ∧
    (reserveHold s).nv = s.nv ∧
    (reserveHold s).ledg = s.ledg ∧
    (reserveHold s).tally = s.tally ∧
    (reserveHold s).host = s.host ∧
    (reserveHold s).sec = s.sec ∧
    (reserveHold s).pwr = s.pwr ∧
    (reserveHold s).bist = s.bist ∧
    (reserveHold s).pins = s.pins ∧
    (reserveHold s).freeIx = s.freeIx ∧
    (reserveHold s).pending = s.pending ∧
    (reserveHold s).recd.held = s.recd.held ∧
    (reserveHold s).evt.held = s.evt.held := by
  unfold reserveHold
  repeat' split
  all_goals simp [id @reserveRestore_keep]

theorem ccReseed_keep (s : State) :
    (ccReseed s).sys = s.sys ∧
    (ccReseed s).img = s.img ∧
    (ccReseed s).cfg = s.cfg ∧
    (ccReseed s).ring = s.ring ∧
    (ccReseed s).acq = s.acq ∧
    (ccReseed s).cur = s.cur ∧
    (ccReseed s).husk = s.husk ∧
    (ccReseed s).drv = s.drv ∧
    (ccReseed s).krn = s.krn ∧
    (ccReseed s).win = s.win ∧
    (ccReseed s).pairs = s.pairs ∧
    (ccReseed s).time = s.time ∧
    (ccReseed s).therm = s.therm ∧
    (ccReseed s).nv = s.nv ∧
    (ccReseed s).ledg = s.ledg ∧
    (ccReseed s).tally = s.tally ∧
    (ccReseed s).recd = s.recd ∧
    (ccReseed s).host = s.host ∧
    (ccReseed s).sec = s.sec ∧
    (ccReseed s).pwr = s.pwr ∧
    (ccReseed s).bist = s.bist ∧
    (ccReseed s).evt = s.evt ∧
    (ccReseed s).pins = s.pins ∧
    (ccReseed s).freeIx = s.freeIx ∧
    (ccReseed s).pending = s.pending := by
  simp [ccReseed, id @modECell_keep]

theorem execSummaryStage_keep  {s t : State} (h : execSummaryStage s = .next t) :
    t.img = s.img ∧
    t.cfg = s.cfg ∧
    t.acq = s.acq ∧
    t.cur = s.cur ∧
    t.krn = s.krn ∧
    t.win = s.win ∧
    t.pairs = s.pairs ∧
    t.time = s.time ∧
    t.therm = s.therm ∧
    t.nv = s.nv ∧
    t.ledg = s.ledg ∧
    t.tally = s.tally ∧
    t.host = s.host ∧
    t.sec = s.sec ∧
    t.bist = s.bist ∧
    t.freeIx = s.freeIx ∧
    t.pending = s.pending ∧
    t.husk.held = s.husk.held ∧
    t.drv.held = s.drv.held ∧
    t.recd.held = s.recd.held ∧
    t.pwr.held = s.pwr.held ∧
    t.evt.held = s.evt.held ∧
    t.pins.held = s.pins.held := by
  have e := Host.Outcome.next.inj h
  subst e
  dsimp only
  repeat' split
  all_goals simp [id @charSummary_keep, id @releaseCheck_keep, id @settle_keep, id @sumCell_keep, id @sumString_keep]

end Sys2Proof.Machine
end

