-- ==== Sys2Proof/Laws/KeepTime.lean ====
section
/-! SUPPORT. What the operations of Machine/Time.lean leave unchanged. -/

namespace Sys2Proof.Machine

theorem xtalStep_keep (s : State) (d : Int) :
    (xtalStep s d).sys = s.sys ∧
    (xtalStep s d).img = s.img ∧
    (xtalStep s d).cfg = s.cfg ∧
    (xtalStep s d).ring = s.ring ∧
    (xtalStep s d).acq = s.acq ∧
    (xtalStep s d).cur = s.cur ∧
    (xtalStep s d).husk = s.husk ∧
    (xtalStep s d).drv = s.drv ∧
    (xtalStep s d).krn = s.krn ∧
    (xtalStep s d).est = s.est ∧
    (xtalStep s d).win = s.win ∧
    (xtalStep s d).pairs = s.pairs ∧
    (xtalStep s d).therm = s.therm ∧
    (xtalStep s d).nv = s.nv ∧
    (xtalStep s d).ledg = s.ledg ∧
    (xtalStep s d).tally = s.tally ∧
    (xtalStep s d).host = s.host ∧
    (xtalStep s d).sec = s.sec ∧
    (xtalStep s d).pwr = s.pwr ∧
    (xtalStep s d).bist = s.bist ∧
    (xtalStep s d).pins = s.pins ∧
    (xtalStep s d).freeIx = s.freeIx ∧
    (xtalStep s d).pending = s.pending ∧
    (xtalStep s d).recd.held = s.recd.held ∧
    (xtalStep s d).evt.held = s.evt.held := by
  simp only [xtalStep]
  repeat' split
  all_goals simp [id @emit_keep]

theorem execXtalLost_keep {devs : List Int} {s t : State} (h : execXtalLost devs s = .next t) :
    t.img = s.img ∧
    t.cfg = s.cfg ∧
    t.acq = s.acq ∧
    t.cur = s.cur ∧
    t.krn = s.krn ∧
    t.win = s.win ∧
    t.pairs = s.pairs ∧
    t.therm = s.therm ∧
    t.nv = s.nv ∧
    t.ledg = s.ledg ∧
    t.tally = s.tally ∧
    t.host = s.host ∧
    t.sec = s.sec ∧
    t.bist = s.bist ∧
    t.freeIx = s.freeIx ∧
    t.pending = s.pending ∧
    t.sys.held = s.sys.held ∧
    t.husk.held = s.husk.held ∧
    t.drv.held = s.drv.held ∧
    t.recd.held = s.recd.held ∧
    t.est.held = s.est.held ∧
    t.pwr.held = s.pwr.held ∧
    t.evt.held = s.evt.held ∧
    t.pins.held = s.pins.held := by
  have e := Host.Outcome.next.inj h
  subst e
  simp [id @settle_keep, id @xtalStep_keep]
  repeat' split
  all_goals simp [id @settle_keep, id @xtalStep_keep]

theorem execXtalRelock_keep {devs : List Int} {s t : State} (h : execXtalRelock devs s = .next t) :
    t.img = s.img ∧
    t.cfg = s.cfg ∧
    t.acq = s.acq ∧
    t.cur = s.cur ∧
    t.krn = s.krn ∧
    t.win = s.win ∧
    t.pairs = s.pairs ∧
    t.therm = s.therm ∧
    t.nv = s.nv ∧
    t.ledg = s.ledg ∧
    t.tally = s.tally ∧
    t.host = s.host ∧
    t.sec = s.sec ∧
    t.bist = s.bist ∧
    t.freeIx = s.freeIx ∧
    t.pending = s.pending ∧
    t.sys.held = s.sys.held ∧
    t.husk.held = s.husk.held ∧
    t.drv.held = s.drv.held ∧
    t.recd.held = s.recd.held ∧
    t.est.held = s.est.held ∧
    t.pwr.held = s.pwr.held ∧
    t.evt.held = s.evt.held ∧
    t.pins.held = s.pins.held := by
  have e := Host.Outcome.next.inj h
  subst e
  simp [id @settle_keep, id @xtalStep_keep]

theorem modPort_keep (p : Port) (f : PortSt → PortSt) (s : State) :
    (modPort p f s).sys = s.sys ∧
    (modPort p f s).img = s.img ∧
    (modPort p f s).cfg = s.cfg ∧
    (modPort p f s).ring = s.ring ∧
    (modPort p f s).acq = s.acq ∧
    (modPort p f s).cur = s.cur ∧
    (modPort p f s).husk = s.husk ∧
    (modPort p f s).drv = s.drv ∧
    (modPort p f s).krn = s.krn ∧
    (modPort p f s).est = s.est ∧
    (modPort p f s).win = s.win ∧
    (modPort p f s).pairs = s.pairs ∧
    (modPort p f s).time = s.time ∧
    (modPort p f s).therm = s.therm ∧
    (modPort p f s).nv = s.nv ∧
    (modPort p f s).ledg = s.ledg ∧
    (modPort p f s).tally = s.tally ∧
    (modPort p f s).recd = s.recd ∧
    (modPort p f s).sec = s.sec ∧
    (modPort p f s).pwr = s.pwr ∧
    (modPort p f s).bist = s.bist ∧
    (modPort p f s).evt = s.evt ∧
    (modPort p f s).pins = s.pins ∧
    (modPort p f s).freeIx = s.freeIx ∧
    (modPort p f s).pending = s.pending := by
  simp [modPort]

theorem setSegOfs_keep (h : Int) (t : Int) (s : State) :
    (setSegOfs h t s).sys = s.sys ∧
    (setSegOfs h t s).img = s.img ∧
    (setSegOfs h t s).cfg = s.cfg ∧
    (setSegOfs h t s).ring = s.ring ∧
    (setSegOfs h t s).acq = s.acq ∧
    (setSegOfs h t s).cur = s.cur ∧
    (setSegOfs h t s).husk = s.husk ∧
    (setSegOfs h t s).drv = s.drv ∧
    (setSegOfs h t s).krn = s.krn ∧
    (setSegOfs h t s).est = s.est ∧
    (setSegOfs h t s).win = s.win ∧
    (setSegOfs h t s).pairs = s.pairs ∧
    (setSegOfs h t s).therm = s.therm ∧
    (setSegOfs h t s).nv = s.nv ∧
    (setSegOfs h t s).ledg = s.ledg ∧
    (setSegOfs h t s).tally = s.tally ∧
    (setSegOfs h t s).recd = s.recd ∧
    (setSegOfs h t s).host = s.host ∧
    (setSegOfs h t s).sec = s.sec ∧
    (setSegOfs h t s).pwr = s.pwr ∧
    (setSegOfs h t s).bist = s.bist ∧
    (setSegOfs h t s).evt = s.evt ∧
    (setSegOfs h t s).pins = s.pins ∧
    (setSegOfs h t s).freeIx = s.freeIx ∧
    (setSegOfs h t s).pending = s.pending := by
  simp [setSegOfs]

theorem servoStep_keep (e : Int) (dt : Nat) (s : State) :
    (servoStep e dt s).sys = s.sys ∧
    (servoStep e dt s).img = s.img ∧
    (servoStep e dt s).cfg = s.cfg ∧
    (servoStep e dt s).ring = s.ring ∧
    (servoStep e dt s).acq = s.acq ∧
    (servoStep e dt s).cur = s.cur ∧
    (servoStep e dt s).husk = s.husk ∧
    (servoStep e dt s).drv = s.drv ∧
    (servoStep e dt s).krn = s.krn ∧
    (servoStep e dt s).est = s.est ∧
    (servoStep e dt s).win = s.win ∧
    (servoStep e dt s).pairs = s.pairs ∧
    (servoStep e dt s).therm = s.therm ∧
    (servoStep e dt s).nv = s.nv ∧
    (servoStep e dt s).ledg = s.ledg ∧
    (servoStep e dt s).tally = s.tally ∧
    (servoStep e dt s).recd = s.recd ∧
    (servoStep e dt s).host = s.host ∧
    (servoStep e dt s).sec = s.sec ∧
    (servoStep e dt s).pwr = s.pwr ∧
    (servoStep e dt s).bist = s.bist ∧
    (servoStep e dt s).evt = s.evt ∧
    (servoStep e dt s).pins = s.pins ∧
    (servoStep e dt s).freeIx = s.freeIx ∧
    (servoStep e dt s).pending = s.pending := by
  simp [servoStep]

theorem servoState_keep (e : Int) (s : State) :
    (servoState e s).sys = s.sys ∧
    (servoState e s).img = s.img ∧
    (servoState e s).cfg = s.cfg ∧
    (servoState e s).ring = s.ring ∧
    (servoState e s).acq = s.acq ∧
    (servoState e s).cur = s.cur ∧
    (servoState e s).husk = s.husk ∧
    (servoState e s).drv = s.drv ∧
    (servoState e s).krn = s.krn ∧
    (servoState e s).est = s.est ∧
    (servoState e s).win = s.win ∧
    (servoState e s).pairs = s.pairs ∧
    (servoState e s).therm = s.therm ∧
    (servoState e s).nv = s.nv ∧
    (servoState e s).ledg = s.ledg ∧
    (servoState e s).tally = s.tally ∧
    (servoState e s).recd = s.recd ∧
    (servoState e s).host = s.host ∧
    (servoState e s).sec = s.sec ∧
    (servoState e s).pwr = s.pwr ∧
    (servoState e s).bist = s.bist ∧
    (servoState e s).evt = s.evt ∧
    (servoState e s).pins = s.pins ∧
    (servoState e s).freeIx = s.freeIx ∧
    (servoState e s).pending = s.pending := by
  simp [servoState]

theorem servoTake_keep (h : Int) (t : Int) (s : State) :
    (servoTake h t s).sys = s.sys ∧
    (servoTake h t s).img = s.img ∧
    (servoTake h t s).cfg = s.cfg ∧
    (servoTake h t s).ring = s.ring ∧
    (servoTake h t s).acq = s.acq ∧
    (servoTake h t s).cur = s.cur ∧
    (servoTake h t s).husk = s.husk ∧
    (servoTake h t s).drv = s.drv ∧
    (servoTake h t s).krn = s.krn ∧
    (servoTake h t s).est = s.est ∧
    (servoTake h t s).win = s.win ∧
    (servoTake h t s).pairs = s.pairs ∧
    (servoTake h t s).therm = s.therm ∧
    (servoTake h t s).nv = s.nv ∧
    (servoTake h t s).ledg = s.ledg ∧
    (servoTake h t s).tally = s.tally ∧
    (servoTake h t s).host = s.host ∧
    (servoTake h t s).sec = s.sec ∧
    (servoTake h t s).pwr = s.pwr ∧
    (servoTake h t s).bist = s.bist ∧
    (servoTake h t s).pins = s.pins ∧
    (servoTake h t s).freeIx = s.freeIx ∧
    (servoTake h t s).pending = s.pending ∧
    (servoTake h t s).recd.held = s.recd.held ∧
    (servoTake h t s).evt.held = s.evt.held := by
  simp only [servoTake]
  repeat' split
  all_goals simp [id @emit_keep, id @servoState_keep, id @servoStep_keep, id @setSegOfs_keep]

theorem linkNote_keep (l : LinkAddr) (s : State) :
    (linkNote l s).sys = s.sys ∧
    (linkNote l s).img = s.img ∧
    (linkNote l s).cfg = s.cfg ∧
    (linkNote l s).ring = s.ring ∧
    (linkNote l s).acq = s.acq ∧
    (linkNote l s).cur = s.cur ∧
    (linkNote l s).husk = s.husk ∧
    (linkNote l s).drv = s.drv ∧
    (linkNote l s).krn = s.krn ∧
    (linkNote l s).est = s.est ∧
    (linkNote l s).win = s.win ∧
    (linkNote l s).pairs = s.pairs ∧
    (linkNote l s).time = s.time ∧
    (linkNote l s).therm = s.therm ∧
    (linkNote l s).nv = s.nv ∧
    (linkNote l s).ledg = s.ledg ∧
    (linkNote l s).tally = s.tally ∧
    (linkNote l s).recd = s.recd ∧
    (linkNote l s).sec = s.sec ∧
    (linkNote l s).pwr = s.pwr ∧
    (linkNote l s).bist = s.bist ∧
    (linkNote l s).evt = s.evt ∧
    (linkNote l s).pins = s.pins ∧
    (linkNote l s).freeIx = s.freeIx ∧
    (linkNote l s).pending = s.pending := by
  unfold linkNote
  repeat' split
  all_goals simp

theorem syncHeard_keep (l : LinkAddr) (s0 : State) :
    (syncHeard l s0).sys = s0.sys ∧
    (syncHeard l s0).img = s0.img ∧
    (syncHeard l s0).cfg = s0.cfg ∧
    (syncHeard l s0).ring = s0.ring ∧
    (syncHeard l s0).acq = s0.acq ∧
    (syncHeard l s0).cur = s0.cur ∧
    (syncHeard l s0).husk = s0.husk ∧
    (syncHeard l s0).drv = s0.drv ∧
    (syncHeard l s0).krn = s0.krn ∧
    (syncHeard l s0).est = s0.est ∧
    (syncHeard l s0).win = s0.win ∧
    (syncHeard l s0).pairs = s0.pairs ∧
    (syncHeard l s0).time = s0.time ∧
    (syncHeard l s0).therm = s0.therm ∧
    (syncHeard l s0).nv = s0.nv ∧
    (syncHeard l s0).ledg = s0.ledg ∧
    (syncHeard l s0).tally = s0.tally ∧
    (syncHeard l s0).recd = s0.recd ∧
    (syncHeard l s0).sec = s0.sec ∧
    (syncHeard l s0).pwr = s0.pwr ∧
    (syncHeard l s0).bist = s0.bist ∧
    (syncHeard l s0).evt = s0.evt ∧
    (syncHeard l s0).pins = s0.pins ∧
    (syncHeard l s0).pending = s0.pending := by
  unfold syncHeard
  repeat' split
  all_goals simp [id @modPort_keep, id @takeFree_keep]

theorem execSync_keep {l : LinkAddr} {sseq : BitVec 16} {two : Bool} {h : BitVec 64} {s t : State} (h : execSync l sseq two h s = .next t) :
    t.img = s.img ∧
    t.cfg = s.cfg ∧
    t.acq = s.acq ∧
    t.cur = s.cur ∧
    t.krn = s.krn ∧
    t.win = s.win ∧
    t.pairs = s.pairs ∧
    t.therm = s.therm ∧
    t.nv = s.nv ∧
    t.ledg = s.ledg ∧
    t.tally = s.tally ∧
    t.sec = s.sec ∧
    t.bist = s.bist ∧
    t.pending = s.pending ∧
    t.sys.held = s.sys.held ∧
    t.husk.held = s.husk.held ∧
    t.drv.held = s.drv.held ∧
    t.recd.held = s.recd.held ∧
    t.est.held = s.est.held ∧
    t.pwr.held = s.pwr.held ∧
    t.evt.held = s.evt.held ∧
    t.pins.held = s.pins.held := by
  have e := Host.Outcome.next.inj h
  subst e
  dsimp only
  repeat' split
  all_goals simp [id @linkNote_keep, id @servoTake_keep, id @settle_keep, id @syncHeard_keep]

theorem execSyncHoldover_keep  {s t : State} (h : execSyncHoldover s = .next t) :
    t.sys = s.sys ∧
    t.img = s.img ∧
    t.cfg = s.cfg ∧
    t.ring = s.ring ∧
    t.acq = s.acq ∧
    t.cur = s.cur ∧
    t.husk = s.husk ∧
    t.drv = s.drv ∧
    t.krn = s.krn ∧
    t.est = s.est ∧
    t.win = s.win ∧
    t.pairs = s.pairs ∧
    t.therm = s.therm ∧
    t.nv = s.nv ∧
    t.ledg = s.ledg ∧
    t.tally = s.tally ∧
    t.recd = s.recd ∧
    t.host = s.host ∧
    t.sec = s.sec ∧
    t.pwr = s.pwr ∧
    t.bist = s.bist ∧
    t.evt = s.evt ∧
    t.pins = s.pins ∧
    t.freeIx = s.freeIx ∧
    t.pending = s.pending := by
  have e := Host.Outcome.next.inj h
  subst e
  dsimp only
  repeat' split
  all_goals simp

theorem timeCtrlWrite_keep (v : Word) (s : State) :
    (timeCtrlWrite v s).sys = s.sys ∧
    (timeCtrlWrite v s).img = s.img ∧
    (timeCtrlWrite v s).cfg = s.cfg ∧
    (timeCtrlWrite v s).ring = s.ring ∧
    (timeCtrlWrite v s).acq = s.acq ∧
    (timeCtrlWrite v s).cur = s.cur ∧
    (timeCtrlWrite v s).husk = s.husk ∧
    (timeCtrlWrite v s).drv = s.drv ∧
    (timeCtrlWrite v s).krn = s.krn ∧
    (timeCtrlWrite v s).est = s.est ∧
    (timeCtrlWrite v s).win = s.win ∧
    (timeCtrlWrite v s).pairs = s.pairs ∧
    (timeCtrlWrite v s).therm = s.therm ∧
    (timeCtrlWrite v s).nv = s.nv ∧
    (timeCtrlWrite v s).ledg = s.ledg ∧
    (timeCtrlWrite v s).tally = s.tally ∧
    (timeCtrlWrite v s).recd = s.recd ∧
    (timeCtrlWrite v s).host = s.host ∧
    (timeCtrlWrite v s).sec = s.sec ∧
    (timeCtrlWrite v s).pwr = s.pwr ∧
    (timeCtrlWrite v s).bist = s.bist ∧
    (timeCtrlWrite v s).evt = s.evt ∧
    (timeCtrlWrite v s).pins = s.pins ∧
    (timeCtrlWrite v s).freeIx = s.freeIx ∧
    (timeCtrlWrite v s).pending = s.pending := by
  simp [timeCtrlWrite]

theorem wallSet_keep (hi : Word) (s : State) :
    (wallSet hi s).sys = s.sys ∧
    (wallSet hi s).img = s.img ∧
    (wallSet hi s).cfg = s.cfg ∧
    (wallSet hi s).ring = s.ring ∧
    (wallSet hi s).acq = s.acq ∧
    (wallSet hi s).cur = s.cur ∧
    (wallSet hi s).husk = s.husk ∧
    (wallSet hi s).drv = s.drv ∧
    (wallSet hi s).krn = s.krn ∧
    (wallSet hi s).est = s.est ∧
    (wallSet hi s).win = s.win ∧
    (wallSet hi s).pairs = s.pairs ∧
    (wallSet hi s).therm = s.therm ∧
    (wallSet hi s).nv = s.nv ∧
    (wallSet hi s).ledg = s.ledg ∧
    (wallSet hi s).tally = s.tally ∧
    (wallSet hi s).host = s.host ∧
    (wallSet hi s).sec = s.sec ∧
    (wallSet hi s).pwr = s.pwr ∧
    (wallSet hi s).bist = s.bist ∧
    (wallSet hi s).pins = s.pins ∧
    (wallSet hi s).freeIx = s.freeIx ∧
    (wallSet hi s).pending = s.pending ∧
    (wallSet hi s).recd.held = s.recd.held ∧
    (wallSet hi s).evt.held = s.evt.held := by
  simp [wallSet, id @emit_keep]

theorem tnsLatch_keep (p : Port) (s : State) :
    (tnsLatch p s).sys = s.sys ∧
    (tnsLatch p s).img = s.img ∧
    (tnsLatch p s).cfg = s.cfg ∧
    (tnsLatch p s).ring = s.ring ∧
    (tnsLatch p s).acq = s.acq ∧
    (tnsLatch p s).cur = s.cur ∧
    (tnsLatch p s).husk = s.husk ∧
    (tnsLatch p s).drv = s.drv ∧
    (tnsLatch p s).krn = s.krn ∧
    (tnsLatch p s).est = s.est ∧
    (tnsLatch p s).win = s.win ∧
    (tnsLatch p s).pairs = s.pairs ∧
    (tnsLatch p s).time = s.time ∧
    (tnsLatch p s).therm = s.therm ∧
    (tnsLatch p s).nv = s.nv ∧
    (tnsLatch p s).ledg = s.ledg ∧
    (tnsLatch p s).tally = s.tally ∧
    (tnsLatch p s).recd = s.recd ∧
    (tnsLatch p s).sec = s.sec ∧
    (tnsLatch p s).pwr = s.pwr ∧
    (tnsLatch p s).bist = s.bist ∧
    (tnsLatch p s).evt = s.evt ∧
    (tnsLatch p s).pins = s.pins ∧
    (tnsLatch p s).freeIx = s.freeIx ∧
    (tnsLatch p s).pending = s.pending := by
  simp [tnsLatch, id @modPort_keep]

theorem applyMargins_keep (ok : Bool) (s : State) :
    (applyMargins ok s).sys = s.sys ∧
    (applyMargins ok s).img = s.img ∧
    (applyMargins ok s).cfg = s.cfg ∧
    (applyMargins ok s).ring = s.ring ∧
    (applyMargins ok s).acq = s.acq ∧
    (applyMargins ok s).cur = s.cur ∧
    (applyMargins ok s).husk = s.husk ∧
    (applyMargins ok s).drv = s.drv ∧
    (applyMargins ok s).krn = s.krn ∧
    (applyMargins ok s).est = s.est ∧
    (applyMargins ok s).win = s.win ∧
    (applyMargins ok s).pairs = s.pairs ∧
    (applyMargins ok s).therm = s.therm ∧
    (applyMargins ok s).nv = s.nv ∧
    (applyMargins ok s).ledg = s.ledg ∧
    (applyMargins ok s).tally = s.tally ∧
    (applyMargins ok s).recd = s.recd ∧
    (applyMargins ok s).host = s.host ∧
    (applyMargins ok s).sec = s.sec ∧
    (applyMargins ok s).pwr = s.pwr ∧
    (applyMargins ok s).bist = s.bist ∧
    (applyMargins ok s).evt = s.evt ∧
    (applyMargins ok s).pins = s.pins ∧
    (applyMargins ok s).freeIx = s.freeIx ∧
    (applyMargins ok s).pending = s.pending := by
  simp [applyMargins]

end Sys2Proof.Machine
end

