-- ==== Sys2Proof/Laws/KeepTherm.lean ====
section
/-! SUPPORT. What the operations of Machine/Therm.lean leave unchanged. -/

namespace Sys2Proof.Machine

theorem modSensor_keep (i : Nat) (f : Sensor → Sensor) (s : State) :
    (modSensor i f s).sys = s.sys ∧
    (modSensor i f s).img = s.img ∧
    (modSensor i f s).cfg = s.cfg ∧
    (modSensor i f s).ring = s.ring ∧
    (modSensor i f s).acq = s.acq ∧
    (modSensor i f s).cur = s.cur ∧
    (modSensor i f s).husk = s.husk ∧
    (modSensor i f s).drv = s.drv ∧
    (modSensor i f s).krn = s.krn ∧
    (modSensor i f s).est = s.est ∧
    (modSensor i f s).win = s.win ∧
    (modSensor i f s).pairs = s.pairs ∧
    (modSensor i f s).time = s.time ∧
    (modSensor i f s).nv = s.nv ∧
    (modSensor i f s).ledg = s.ledg ∧
    (modSensor i f s).tally = s.tally ∧
    (modSensor i f s).recd = s.recd ∧
    (modSensor i f s).host = s.host ∧
    (modSensor i f s).sec = s.sec ∧
    (modSensor i f s).pwr = s.pwr ∧
    (modSensor i f s).bist = s.bist ∧
    (modSensor i f s).evt = s.evt ∧
    (modSensor i f s).pins = s.pins ∧
    (modSensor i f s).freeIx = s.freeIx ∧
    (modSensor i f s).pending = s.pending := by
  simp [modSensor]

theorem quadEco_keep (q : Nat) (s : State) :
    (quadEco q s).sys = s.sys ∧
    (quadEco q s).img = s.img ∧
    (quadEco q s).cfg = s.cfg ∧
    (quadEco q s).ring = s.ring ∧
    (quadEco q s).acq = s.acq ∧
    (quadEco q s).cur = s.cur ∧
    (quadEco q s).husk = s.husk ∧
    (quadEco q s).drv = s.drv ∧
    (quadEco q s).krn = s.krn ∧
    (quadEco q s).est = s.est ∧
    (quadEco q s).win = s.win ∧
    (quadEco q s).pairs = s.pairs ∧
    (quadEco q s).time = s.time ∧
    (quadEco q s).nv = s.nv ∧
    (quadEco q s).ledg = s.ledg ∧
    (quadEco q s).tally = s.tally ∧
    (quadEco q s).host = s.host ∧
    (quadEco q s).sec = s.sec ∧
    (quadEco q s).pwr = s.pwr ∧
    (quadEco q s).bist = s.bist ∧
    (quadEco q s).pins = s.pins ∧
    (quadEco q s).freeIx = s.freeIx ∧
    (quadEco q s).pending = s.pending ∧
    (quadEco q s).recd.held = s.recd.held ∧
    (quadEco q s).evt.held = s.evt.held := by
  simp only [quadEco]
  repeat' split
  all_goals simp [id @emit_keep]

theorem lDieBlind_keep (i : Nat) (s : State) :
    (lDieBlind i s).sys = s.sys ∧
    (lDieBlind i s).img = s.img ∧
    (lDieBlind i s).cfg = s.cfg ∧
    (lDieBlind i s).ring = s.ring ∧
    (lDieBlind i s).acq = s.acq ∧
    (lDieBlind i s).cur = s.cur ∧
    (lDieBlind i s).husk = s.husk ∧
    (lDieBlind i s).drv = s.drv ∧
    (lDieBlind i s).krn = s.krn ∧
    (lDieBlind i s).est = s.est ∧
    (lDieBlind i s).win = s.win ∧
    (lDieBlind i s).pairs = s.pairs ∧
    (lDieBlind i s).time = s.time ∧
    (lDieBlind i s).nv = s.nv ∧
    (lDieBlind i s).ledg = s.ledg ∧
    (lDieBlind i s).tally = s.tally ∧
    (lDieBlind i s).recd = s.recd ∧
    (lDieBlind i s).host = s.host ∧
    (lDieBlind i s).sec = s.sec ∧
    (lDieBlind i s).pwr = s.pwr ∧
    (lDieBlind i s).bist = s.bist ∧
    (lDieBlind i s).evt = s.evt ∧
    (lDieBlind i s).pins = s.pins ∧
    (lDieBlind i s).freeIx = s.freeIx ∧
    (lDieBlind i s).pending = s.pending := by
  simp [lDieBlind]

theorem pDieBlind_keep (i : Nat) (s : State) :
    (pDieBlind i s).sys = s.sys ∧
    (pDieBlind i s).img = s.img ∧
    (pDieBlind i s).cfg = s.cfg ∧
    (pDieBlind i s).ring = s.ring ∧
    (pDieBlind i s).acq = s.acq ∧
    (pDieBlind i s).cur = s.cur ∧
    (pDieBlind i s).husk = s.husk ∧
    (pDieBlind i s).drv = s.drv ∧
    (pDieBlind i s).krn = s.krn ∧
    (pDieBlind i s).est = s.est ∧
    (pDieBlind i s).win = s.win ∧
    (pDieBlind i s).pairs = s.pairs ∧
    (pDieBlind i s).time = s.time ∧
    (pDieBlind i s).nv = s.nv ∧
    (pDieBlind i s).ledg = s.ledg ∧
    (pDieBlind i s).tally = s.tally ∧
    (pDieBlind i s).host = s.host ∧
    (pDieBlind i s).sec = s.sec ∧
    (pDieBlind i s).pwr = s.pwr ∧
    (pDieBlind i s).bist = s.bist ∧
    (pDieBlind i s).pins = s.pins ∧
    (pDieBlind i s).freeIx = s.freeIx ∧
    (pDieBlind i s).pending = s.pending ∧
    (pDieBlind i s).recd.held = s.recd.held ∧
    (pDieBlind i s).evt.held = s.evt.held := by
  unfold pDieBlind
  repeat' split
  all_goals simp [id @emit_keep]

theorem failSensor_keep (s : State) (e : Nat × Int × Nat) :
    (failSensor s e).sys = s.sys ∧
    (failSensor s e).img = s.img ∧
    (failSensor s e).cfg = s.cfg ∧
    (failSensor s e).ring = s.ring ∧
    (failSensor s e).acq = s.acq ∧
    (failSensor s e).cur = s.cur ∧
    (failSensor s e).husk = s.husk ∧
    (failSensor s e).drv = s.drv ∧
    (failSensor s e).krn = s.krn ∧
    (failSensor s e).est = s.est ∧
    (failSensor s e).win = s.win ∧
    (failSensor s e).pairs = s.pairs ∧
    (failSensor s e).time = s.time ∧
    (failSensor s e).nv = s.nv ∧
    (failSensor s e).ledg = s.ledg ∧
    (failSensor s e).tally = s.tally ∧
    (failSensor s e).host = s.host ∧
    (failSensor s e).sec = s.sec ∧
    (failSensor s e).pwr = s.pwr ∧
    (failSensor s e).bist = s.bist ∧
    (failSensor s e).pins = s.pins ∧
    (failSensor s e).freeIx = s.freeIx ∧
    (failSensor s e).pending = s.pending ∧
    (failSensor s e).recd.held = s.recd.held ∧
    (failSensor s e).evt.held = s.evt.held := by
  unfold failSensor
  repeat' split
  all_goals simp [id @emit_keep, id @lDieBlind_keep, id @modSensor_keep, id @pDieBlind_keep, id @quadEco_keep]

theorem takeBands_keep (core : Bool) (s : State) :
    (takeBands core s).sys = s.sys ∧
    (takeBands core s).img = s.img ∧
    (takeBands core s).cfg = s.cfg ∧
    (takeBands core s).ring = s.ring ∧
    (takeBands core s).acq = s.acq ∧
    (takeBands core s).husk = s.husk ∧
    (takeBands core s).drv = s.drv ∧
    (takeBands core s).krn = s.krn ∧
    (takeBands core s).est = s.est ∧
    (takeBands core s).win = s.win ∧
    (takeBands core s).pairs = s.pairs ∧
    (takeBands core s).therm = s.therm ∧
    (takeBands core s).nv = s.nv ∧
    (takeBands core s).ledg = s.ledg ∧
    (takeBands core s).tally = s.tally ∧
    (takeBands core s).recd = s.recd ∧
    (takeBands core s).host = s.host ∧
    (takeBands core s).sec = s.sec ∧
    (takeBands core s).pwr = s.pwr ∧
    (takeBands core s).bist = s.bist ∧
    (takeBands core s).evt = s.evt ∧
    (takeBands core s).pins = s.pins ∧
    (takeBands core s).freeIx = s.freeIx ∧
    (takeBands core s).pending = s.pending := by
  simp [takeBands, id @applyMargins_keep, id @calNow_keep]

theorem countLevels_keep (h : Int) (s : State) :
    (countLevels h s).sys = s.sys ∧
    (countLevels h s).img = s.img ∧
    (countLevels h s).cfg = s.cfg ∧
    (countLevels h s).ring = s.ring ∧
    (countLevels h s).acq = s.acq ∧
    (countLevels h s).cur = s.cur ∧
    (countLevels h s).husk = s.husk ∧
    (countLevels h s).drv = s.drv ∧
    (countLevels h s).krn = s.krn ∧
    (countLevels h s).est = s.est ∧
    (countLevels h s).win = s.win ∧
    (countLevels h s).pairs = s.pairs ∧
    (countLevels h s).time = s.time ∧
    (countLevels h s).nv = s.nv ∧
    (countLevels h s).ledg = s.ledg ∧
    (countLevels h s).tally = s.tally ∧
    (countLevels h s).recd = s.recd ∧
    (countLevels h s).host = s.host ∧
    (countLevels h s).sec = s.sec ∧
    (countLevels h s).pwr = s.pwr ∧
    (countLevels h s).bist = s.bist ∧
    (countLevels h s).evt = s.evt ∧
    (countLevels h s).pins = s.pins ∧
    (countLevels h s).freeIx = s.freeIx ∧
    (countLevels h s).pending = s.pending := by
  simp [countLevels]

theorem watchRestart_keep (s : State) :
    (watchRestart s).sys = s.sys ∧
    (watchRestart s).img = s.img ∧
    (watchRestart s).cfg = s.cfg ∧
    (watchRestart s).ring = s.ring ∧
    (watchRestart s).acq = s.acq ∧
    (watchRestart s).cur = s.cur ∧
    (watchRestart s).husk = s.husk ∧
    (watchRestart s).drv = s.drv ∧
    (watchRestart s).krn = s.krn ∧
    (watchRestart s).est = s.est ∧
    (watchRestart s).win = s.win ∧
    (watchRestart s).pairs = s.pairs ∧
    (watchRestart s).time = s.time ∧
    (watchRestart s).nv = s.nv ∧
    (watchRestart s).ledg = s.ledg ∧
    (watchRestart s).tally = s.tally ∧
    (watchRestart s).recd = s.recd ∧
    (watchRestart s).host = s.host ∧
    (watchRestart s).sec = s.sec ∧
    (watchRestart s).pwr = s.pwr ∧
    (watchRestart s).bist = s.bist ∧
    (watchRestart s).evt = s.evt ∧
    (watchRestart s).pins = s.pins ∧
    (watchRestart s).freeIx = s.freeIx ∧
    (watchRestart s).pending = s.pending := by
  simp [watchRestart]

theorem execThermalMeasurement_keep {ls : List (Int × Bool)} {ps : List (Int × Bool)} {s t : State} (h : execThermalMeasurement ls ps s = .next t) :
    t.img = s.img ∧
    t.cfg = s.cfg ∧
    t.acq = s.acq ∧
    t.krn = s.krn ∧
    t.win = s.win ∧
    t.pairs = s.pairs ∧
    t.nv = s.nv ∧
    t.ledg = s.ledg ∧
    t.tally = s.tally ∧
    t.host = s.host ∧
    t.sec = s.sec ∧
    t.bist = s.bist ∧
    t.freeIx = s.freeIx ∧
    t.pending = s.pending ∧
    t.sys.held = s.sys.held ∧
    t.husk.held = s.husk.held ∧
    t.drv.held = s.drv.held ∧
    t.recd.held = s.recd.held ∧
    t.est.held = s.est.held ∧
    t.pwr.held = s.pwr.held ∧
    t.evt.held = s.evt.held ∧
    t.pins.held = s.pins.held := by
  have e := Host.Outcome.next.inj h
  subst e
  dsimp only
  repeat' split
  all_goals simp [id @countLevels_keep, id @failSensor_keep, id @modSensor_keep, id @settle_keep,
      id @takeBands_keep, id @watchRestart_keep]

theorem execThermalWarning_keep  {s t : State} (h : execThermalWarning s = .next t) :
    t.img = s.img ∧
    t.cfg = s.cfg ∧
    t.acq = s.acq ∧
    t.cur = s.cur ∧
    t.krn = s.krn ∧
    t.win = s.win ∧
    t.pairs = s.pairs ∧
    t.time = s.time ∧
    t.nv = s.nv ∧
    t.ledg = s.ledg ∧
    t.tally = s.tally ∧
    t.host = s.host ∧
    t.sec = s.sec ∧
    t.bist = s.bist ∧
    t.freeIx = s.freeIx ∧
    t.pending = s.pending ∧
    t.sys.held = s.sys.held ∧
    t.husk.held = s.husk.held ∧
    t.drv.held = s.drv.held ∧
    t.recd.held = s.recd.held ∧
    t.est.held = s.est.held ∧
    t.pwr.held = s.pwr.held ∧
    t.evt.held = s.evt.held ∧
    t.pins.held = s.pins.held := by
  have e := Host.Outcome.next.inj h
  subst e
  dsimp only
  repeat' split
  all_goals simp [id @emit_keep, id @settle_keep]

theorem execThermalWarningEnd_keep  {s t : State} (h : execThermalWarningEnd s = .next t) :
    t.sys = s.sys ∧
    t.img = s.img ∧
    t.cfg = s.cfg ∧
    t.ring = s.ring ∧
    t.acq = s.acq ∧
    t.cur = s.cur ∧
    t.husk = s.husk ∧
    t.drv = s.drv ∧
    t.krn = s.krn ∧
    t.est = s.est ∧
    t.win = s.win ∧
    t.pairs = s.pairs ∧
    t.time = s.time ∧
    t.nv = s.nv ∧
    t.ledg = s.ledg ∧
    t.tally = s.tally ∧
    t.recd = s.recd ∧
    t.host = s.host ∧
    t.sec = s.sec ∧
    t.pwr = s.pwr ∧
    t.bist = s.bist ∧
    t.evt = s.evt ∧
    t.pins = s.pins ∧
    t.freeIx = s.freeIx ∧
    t.pending = s.pending := by
  have e := Host.Outcome.next.inj h
  subst e
  simp

theorem throttleEnter_keep (h : Option (Int × Nat)) (s : State) :
    (throttleEnter h s).sys = s.sys ∧
    (throttleEnter h s).img = s.img ∧
    (throttleEnter h s).cfg = s.cfg ∧
    (throttleEnter h s).ring = s.ring ∧
    (throttleEnter h s).acq = s.acq ∧
    (throttleEnter h s).cur = s.cur ∧
    (throttleEnter h s).husk = s.husk ∧
    (throttleEnter h s).drv = s.drv ∧
    (throttleEnter h s).krn = s.krn ∧
    (throttleEnter h s).est = s.est ∧
    (throttleEnter h s).win = s.win ∧
    (throttleEnter h s).pairs = s.pairs ∧
    (throttleEnter h s).time = s.time ∧
    (throttleEnter h s).nv = s.nv ∧
    (throttleEnter h s).ledg = s.ledg ∧
    (throttleEnter h s).tally = s.tally ∧
    (throttleEnter h s).host = s.host ∧
    (throttleEnter h s).sec = s.sec ∧
    (throttleEnter h s).pwr = s.pwr ∧
    (throttleEnter h s).bist = s.bist ∧
    (throttleEnter h s).pins = s.pins ∧
    (throttleEnter h s).freeIx = s.freeIx ∧
    (throttleEnter h s).pending = s.pending ∧
    (throttleEnter h s).recd.held = s.recd.held ∧
    (throttleEnter h s).evt.held = s.evt.held := by
  simp [throttleEnter, id @emit_keep]

theorem execThermalThrottle_keep  {s t : State} (h : execThermalThrottle s = .next t) :
    t.img = s.img ∧
    t.cfg = s.cfg ∧
    t.acq = s.acq ∧
    t.cur = s.cur ∧
    t.krn = s.krn ∧
    t.win = s.win ∧
    t.pairs = s.pairs ∧
    t.time = s.time ∧
    t.nv = s.nv ∧
    t.ledg = s.ledg ∧
    t.tally = s.tally ∧
    t.host = s.host ∧
    t.sec = s.sec ∧
    t.bist = s.bist ∧
    t.freeIx = s.freeIx ∧
    t.pending = s.pending ∧
    t.sys.held = s.sys.held ∧
    t.husk.held = s.husk.held ∧
    t.drv.held = s.drv.held ∧
    t.recd.held = s.recd.held ∧
    t.est.held = s.est.held ∧
    t.pwr.held = s.pwr.held ∧
    t.evt.held = s.evt.held ∧
    t.pins.held = s.pins.held := by
  have e := Host.Outcome.next.inj h
  subst e
  simp [id @settle_keep, id @throttleEnter_keep]
  repeat' split
  all_goals simp [id @throttleEnter_keep]

theorem execThermalThrottleEnd_keep  {s t : State} (h : execThermalThrottleEnd s = .next t) :
    t.img = s.img ∧
    t.cfg = s.cfg ∧
    t.acq = s.acq ∧
    t.cur = s.cur ∧
    t.krn = s.krn ∧
    t.win = s.win ∧
    t.pairs = s.pairs ∧
    t.time = s.time ∧
    t.nv = s.nv ∧
    t.ledg = s.ledg ∧
    t.tally = s.tally ∧
    t.host = s.host ∧
    t.sec = s.sec ∧
    t.bist = s.bist ∧
    t.freeIx = s.freeIx ∧
    t.pending = s.pending ∧
    t.sys.held = s.sys.held ∧
    t.husk.held = s.husk.held ∧
    t.drv.held = s.drv.held ∧
    t.recd.held = s.recd.held ∧
    t.est.held = s.est.held ∧
    t.pwr.held = s.pwr.held ∧
    t.evt.held = s.evt.held ∧
    t.pins.held = s.pins.held := by
  have e := Host.Outcome.next.inj h
  subst e
  dsimp only
  repeat' split
  all_goals simp [id @emit_keep, id @settle_keep]

theorem execFailHoldExpiry_keep  {s t : State} (h : execFailHoldExpiry s = .next t) :
    t.sys = s.sys ∧
    t.img = s.img ∧
    t.cfg = s.cfg ∧
    t.ring = s.ring ∧
    t.acq = s.acq ∧
    t.cur = s.cur ∧
    t.husk = s.husk ∧
    t.drv = s.drv ∧
    t.krn = s.krn ∧
    t.est = s.est ∧
    t.win = s.win ∧
    t.pairs = s.pairs ∧
    t.time = s.time ∧
    t.nv = s.nv ∧
    t.ledg = s.ledg ∧
    t.tally = s.tally ∧
    t.recd = s.recd ∧
    t.host = s.host ∧
    t.sec = s.sec ∧
    t.pwr = s.pwr ∧
    t.bist = s.bist ∧
    t.evt = s.evt ∧
    t.pins = s.pins ∧
    t.freeIx = s.freeIx ∧
    t.pending = s.pending := by
  have e := Host.Outcome.next.inj h
  subst e
  dsimp only
  repeat' split
  all_goals simp

theorem holdClear_keep (s : State) :
    (holdClear s).sys = s.sys ∧
    (holdClear s).img = s.img ∧
    (holdClear s).cfg = s.cfg ∧
    (holdClear s).ring = s.ring ∧
    (holdClear s).acq = s.acq ∧
    (holdClear s).cur = s.cur ∧
    (holdClear s).husk = s.husk ∧
    (holdClear s).drv = s.drv ∧
    (holdClear s).krn = s.krn ∧
    (holdClear s).est = s.est ∧
    (holdClear s).win = s.win ∧
    (holdClear s).pairs = s.pairs ∧
    (holdClear s).time = s.time ∧
    (holdClear s).therm = s.therm ∧
    (holdClear s).ledg = s.ledg ∧
    (holdClear s).tally = s.tally ∧
    (holdClear s).host = s.host ∧
    (holdClear s).sec = s.sec ∧
    (holdClear s).pwr = s.pwr ∧
    (holdClear s).bist = s.bist ∧
    (holdClear s).pins = s.pins ∧
    (holdClear s).freeIx = s.freeIx ∧
    (holdClear s).pending = s.pending ∧
    (holdClear s).recd.held = s.recd.held ∧
    (holdClear s).evt.held = s.evt.held := by
  unfold holdClear
  repeat' split
  all_goals simp [id @emit_keep, id @tbWrite_keep]

end Sys2Proof.Machine
end

