-- ==== Sys2Proof/Laws/KeepLink.lean ====
section
/-! SUPPORT. What the operations of Machine/Link.lean leave unchanged. -/

namespace Sys2Proof.Machine

theorem txPush_keep (p : Port) (m : Msg) (s : State) :
    (txPush p m s).sys = s.sys ∧
    (txPush p m s).img = s.img ∧
    (txPush p m s).cfg = s.cfg ∧
    (txPush p m s).ring = s.ring ∧
    (txPush p m s).acq = s.acq ∧
    (txPush p m s).cur = s.cur ∧
    (txPush p m s).husk = s.husk ∧
    (txPush p m s).drv = s.drv ∧
    (txPush p m s).krn = s.krn ∧
    (txPush p m s).est = s.est ∧
    (txPush p m s).win = s.win ∧
    (txPush p m s).pairs = s.pairs ∧
    (txPush p m s).time = s.time ∧
    (txPush p m s).therm = s.therm ∧
    (txPush p m s).nv = s.nv ∧
    (txPush p m s).ledg = s.ledg ∧
    (txPush p m s).tally = s.tally ∧
    (txPush p m s).recd = s.recd ∧
    (txPush p m s).sec = s.sec ∧
    (txPush p m s).pwr = s.pwr ∧
    (txPush p m s).bist = s.bist ∧
    (txPush p m s).evt = s.evt ∧
    (txPush p m s).pins = s.pins ∧
    (txPush p m s).freeIx = s.freeIx ∧
    (txPush p m s).pending = s.pending := by
  simp [txPush, id @modPort_keep]

theorem txPop_keep (p : Port) (s : State) :
    (txPop p s).sys = s.sys ∧
    (txPop p s).img = s.img ∧
    (txPop p s).cfg = s.cfg ∧
    (txPop p s).ring = s.ring ∧
    (txPop p s).acq = s.acq ∧
    (txPop p s).cur = s.cur ∧
    (txPop p s).husk = s.husk ∧
    (txPop p s).drv = s.drv ∧
    (txPop p s).krn = s.krn ∧
    (txPop p s).est = s.est ∧
    (txPop p s).win = s.win ∧
    (txPop p s).pairs = s.pairs ∧
    (txPop p s).time = s.time ∧
    (txPop p s).therm = s.therm ∧
    (txPop p s).nv = s.nv ∧
    (txPop p s).ledg = s.ledg ∧
    (txPop p s).tally = s.tally ∧
    (txPop p s).recd = s.recd ∧
    (txPop p s).sec = s.sec ∧
    (txPop p s).pwr = s.pwr ∧
    (txPop p s).bist = s.bist ∧
    (txPop p s).evt = s.evt ∧
    (txPop p s).pins = s.pins ∧
    (txPop p s).freeIx = s.freeIx ∧
    (txPop p s).pending = s.pending := by
  unfold txPop
  repeat' split
  all_goals simp [id @modPort_keep]

theorem closeStreams_keep (f : Stream → Bool) (s : State) :
    (closeStreams f s).sys = s.sys ∧
    (closeStreams f s).img = s.img ∧
    (closeStreams f s).cfg = s.cfg ∧
    (closeStreams f s).ring = s.ring ∧
    (closeStreams f s).acq = s.acq ∧
    (closeStreams f s).cur = s.cur ∧
    (closeStreams f s).husk = s.husk ∧
    (closeStreams f s).drv = s.drv ∧
    (closeStreams f s).krn = s.krn ∧
    (closeStreams f s).est = s.est ∧
    (closeStreams f s).win = s.win ∧
    (closeStreams f s).pairs = s.pairs ∧
    (closeStreams f s).time = s.time ∧
    (closeStreams f s).therm = s.therm ∧
    (closeStreams f s).nv = s.nv ∧
    (closeStreams f s).ledg = s.ledg ∧
    (closeStreams f s).tally = s.tally ∧
    (closeStreams f s).sec = s.sec ∧
    (closeStreams f s).pwr = s.pwr ∧
    (closeStreams f s).bist = s.bist ∧
    (closeStreams f s).evt = s.evt ∧
    (closeStreams f s).pins = s.pins ∧
    (closeStreams f s).freeIx = s.freeIx ∧
    (closeStreams f s).pending = s.pending := by
  simp [closeStreams]

theorem eventSecond_keep (s : State) :
    (eventSecond s).sys = s.sys ∧
    (eventSecond s).img = s.img ∧
    (eventSecond s).cfg = s.cfg ∧
    (eventSecond s).ring = s.ring ∧
    (eventSecond s).acq = s.acq ∧
    (eventSecond s).cur = s.cur ∧
    (eventSecond s).husk = s.husk ∧
    (eventSecond s).drv = s.drv ∧
    (eventSecond s).krn = s.krn ∧
    (eventSecond s).est = s.est ∧
    (eventSecond s).win = s.win ∧
    (eventSecond s).pairs = s.pairs ∧
    (eventSecond s).time = s.time ∧
    (eventSecond s).therm = s.therm ∧
    (eventSecond s).nv = s.nv ∧
    (eventSecond s).ledg = s.ledg ∧
    (eventSecond s).tally = s.tally ∧
    (eventSecond s).recd = s.recd ∧
    (eventSecond s).sec = s.sec ∧
    (eventSecond s).pwr = s.pwr ∧
    (eventSecond s).bist = s.bist ∧
    (eventSecond s).evt = s.evt ∧
    (eventSecond s).pins = s.pins ∧
    (eventSecond s).freeIx = s.freeIx ∧
    (eventSecond s).pending = s.pending := by
  simp [eventSecond]

theorem eventOn_keep (r : Rec) (s : State) (p : Port) :
    (eventOn r s p).sys = s.sys ∧
    (eventOn r s p).img = s.img ∧
    (eventOn r s p).cfg = s.cfg ∧
    (eventOn r s p).ring = s.ring ∧
    (eventOn r s p).acq = s.acq ∧
    (eventOn r s p).cur = s.cur ∧
    (eventOn r s p).husk = s.husk ∧
    (eventOn r s p).drv = s.drv ∧
    (eventOn r s p).krn = s.krn ∧
    (eventOn r s p).est = s.est ∧
    (eventOn r s p).win = s.win ∧
    (eventOn r s p).pairs = s.pairs ∧
    (eventOn r s p).time = s.time ∧
    (eventOn r s p).therm = s.therm ∧
    (eventOn r s p).nv = s.nv ∧
    (eventOn r s p).ledg = s.ledg ∧
    (eventOn r s p).tally = s.tally ∧
    (eventOn r s p).recd = s.recd ∧
    (eventOn r s p).sec = s.sec ∧
    (eventOn r s p).pwr = s.pwr ∧
    (eventOn r s p).bist = s.bist ∧
    (eventOn r s p).evt = s.evt ∧
    (eventOn r s p).pins = s.pins ∧
    (eventOn r s p).freeIx = s.freeIx ∧
    (eventOn r s p).pending = s.pending := by
  unfold eventOn
  repeat' split
  all_goals simp [id @txPush_keep]

theorem eventFrames_keep (r : Rec) (ix : Nat) (s : State) :
    (eventFrames r ix s).sys = s.sys ∧
    (eventFrames r ix s).img = s.img ∧
    (eventFrames r ix s).cfg = s.cfg ∧
    (eventFrames r ix s).ring = s.ring ∧
    (eventFrames r ix s).acq = s.acq ∧
    (eventFrames r ix s).cur = s.cur ∧
    (eventFrames r ix s).husk = s.husk ∧
    (eventFrames r ix s).drv = s.drv ∧
    (eventFrames r ix s).krn = s.krn ∧
    (eventFrames r ix s).est = s.est ∧
    (eventFrames r ix s).win = s.win ∧
    (eventFrames r ix s).pairs = s.pairs ∧
    (eventFrames r ix s).time = s.time ∧
    (eventFrames r ix s).therm = s.therm ∧
    (eventFrames r ix s).nv = s.nv ∧
    (eventFrames r ix s).ledg = s.ledg ∧
    (eventFrames r ix s).tally = s.tally ∧
    (eventFrames r ix s).recd = s.recd ∧
    (eventFrames r ix s).sec = s.sec ∧
    (eventFrames r ix s).pwr = s.pwr ∧
    (eventFrames r ix s).bist = s.bist ∧
    (eventFrames r ix s).evt = s.evt ∧
    (eventFrames r ix s).pins = s.pins ∧
    (eventFrames r ix s).freeIx = s.freeIx ∧
    (eventFrames r ix s).pending = s.pending := by
  simp [eventFrames, id @eventOn_keep, id @eventSecond_keep]

end Sys2Proof.Machine
end

