-- ==== Sys2Proof/Laws/KeepRec.lean ====
section
/-! SUPPORT. What the operations of Machine/Rec.lean leave unchanged. -/

namespace Sys2Proof.Machine

theorem setTok_keep (code : Nat) (n : Nat) (s : State) :
    (setTok code n s).sys = s.sys ∧
    (setTok code n s).img = s.img ∧
    (setTok code n s).cfg = s.cfg ∧
    (setTok code n s).ring = s.ring ∧
    (setTok code n s).acq = s.acq ∧
    (setTok code n s).cur = s.cur ∧
    (setTok code n s).husk = s.husk ∧
    (setTok code n s).drv = s.drv ∧
    (setTok code n s).krn = s.krn ∧
    (setTok code n s).est = s.est ∧
    (setTok code n s).win = s.win ∧
    (setTok code n s).pairs = s.pairs ∧
    (setTok code n s).time = s.time ∧
    (setTok code n s).therm = s.therm ∧
    (setTok code n s).nv = s.nv ∧
    (setTok code n s).ledg = s.ledg ∧
    (setTok code n s).tally = s.tally ∧
    (setTok code n s).host = s.host ∧
    (setTok code n s).sec = s.sec ∧
    (setTok code n s).pwr = s.pwr ∧
    (setTok code n s).bist = s.bist ∧
    (setTok code n s).evt = s.evt ∧
    (setTok code n s).pins = s.pins ∧
    (setTok code n s).freeIx = s.freeIx ∧
    (setTok code n s).pending = s.pending := by
  simp [setTok]

theorem setAgg_keep (n : Int) (s : State) :
    (setAgg n s).sys = s.sys ∧
    (setAgg n s).img = s.img ∧
    (setAgg n s).cfg = s.cfg ∧
    (setAgg n s).ring = s.ring ∧
    (setAgg n s).acq = s.acq ∧
    (setAgg n s).cur = s.cur ∧
    (setAgg n s).husk = s.husk ∧
    (setAgg n s).drv = s.drv ∧
    (setAgg n s).krn = s.krn ∧
    (setAgg n s).est = s.est ∧
    (setAgg n s).win = s.win ∧
    (setAgg n s).pairs = s.pairs ∧
    (setAgg n s).time = s.time ∧
    (setAgg n s).therm = s.therm ∧
    (setAgg n s).nv = s.nv ∧
    (setAgg n s).ledg = s.ledg ∧
    (setAgg n s).tally = s.tally ∧
    (setAgg n s).host = s.host ∧
    (setAgg n s).sec = s.sec ∧
    (setAgg n s).pwr = s.pwr ∧
    (setAgg n s).bist = s.bist ∧
    (setAgg n s).evt = s.evt ∧
    (setAgg n s).pins = s.pins ∧
    (setAgg n s).freeIx = s.freeIx ∧
    (setAgg n s).pending = s.pending := by
  simp [setAgg]

theorem takeAgg_keep (s : State) :
    (takeAgg s).sys = s.sys ∧
    (takeAgg s).img = s.img ∧
    (takeAgg s).cfg = s.cfg ∧
    (takeAgg s).ring = s.ring ∧
    (takeAgg s).acq = s.acq ∧
    (takeAgg s).cur = s.cur ∧
    (takeAgg s).husk = s.husk ∧
    (takeAgg s).drv = s.drv ∧
    (takeAgg s).krn = s.krn ∧
    (takeAgg s).est = s.est ∧
    (takeAgg s).win = s.win ∧
    (takeAgg s).pairs = s.pairs ∧
    (takeAgg s).time = s.time ∧
    (takeAgg s).therm = s.therm ∧
    (takeAgg s).nv = s.nv ∧
    (takeAgg s).ledg = s.ledg ∧
    (takeAgg s).tally = s.tally ∧
    (takeAgg s).host = s.host ∧
    (takeAgg s).sec = s.sec ∧
    (takeAgg s).pwr = s.pwr ∧
    (takeAgg s).bist = s.bist ∧
    (takeAgg s).evt = s.evt ∧
    (takeAgg s).pins = s.pins ∧
    (takeAgg s).freeIx = s.freeIx ∧
    (takeAgg s).pending = s.pending := by
  simp [takeAgg, id @setAgg_keep]

theorem rateLimit_keep {w : Wait} {s t : State} (h : rateLimit w s = some t) :
    t.sys = s.sys ∧
    t.img = s.img ∧
    t.cfg = s.cfg ∧
    t.ring = s.ring ∧
    t.acq = s.acq ∧
    t.cur = s.cur ∧
    t.husk = s.husk ∧
    t.drv = s.drv ∧
    t.krn = s.krn ∧
    t.est = s.est ∧
    t.win = s.win ∧
    t.pairs = s.pairs ∧
    t.time = s.time ∧
    t.therm = s.therm ∧
    t.nv = s.nv ∧
    t.ledg = s.ledg ∧
    t.tally = s.tally ∧
    t.host = s.host ∧
    t.sec = s.sec ∧
    t.pwr = s.pwr ∧
    t.bist = s.bist ∧
    t.evt = s.evt ∧
    t.pins = s.pins ∧
    t.freeIx = s.freeIx ∧
    t.pending = s.pending := by
  unfold rateLimit at h
  dsimp only at h
  repeat' split at h
  all_goals first | cases h | skip
  all_goals simp [id @setAgg_keep, id @setTok_keep, id @takeAgg_keep]

theorem toChaff_keep (code : Nat) (s : State) :
    (toChaff code s).sys = s.sys ∧
    (toChaff code s).img = s.img ∧
    (toChaff code s).cfg = s.cfg ∧
    (toChaff code s).ring = s.ring ∧
    (toChaff code s).acq = s.acq ∧
    (toChaff code s).cur = s.cur ∧
    (toChaff code s).husk = s.husk ∧
    (toChaff code s).drv = s.drv ∧
    (toChaff code s).krn = s.krn ∧
    (toChaff code s).est = s.est ∧
    (toChaff code s).win = s.win ∧
    (toChaff code s).pairs = s.pairs ∧
    (toChaff code s).time = s.time ∧
    (toChaff code s).therm = s.therm ∧
    (toChaff code s).nv = s.nv ∧
    (toChaff code s).ledg = s.ledg ∧
    (toChaff code s).tally = s.tally ∧
    (toChaff code s).host = s.host ∧
    (toChaff code s).sec = s.sec ∧
    (toChaff code s).pwr = s.pwr ∧
    (toChaff code s).bist = s.bist ∧
    (toChaff code s).evt = s.evt ∧
    (toChaff code s).pins = s.pins ∧
    (toChaff code s).freeIx = s.freeIx ∧
    (toChaff code s).pending = s.pending := by
  simp [toChaff]

theorem seqResTo_keep (res : Nat) (s : State) :
    (seqResTo res s).sys = s.sys ∧
    (seqResTo res s).img = s.img ∧
    (seqResTo res s).cfg = s.cfg ∧
    (seqResTo res s).ring = s.ring ∧
    (seqResTo res s).acq = s.acq ∧
    (seqResTo res s).cur = s.cur ∧
    (seqResTo res s).husk = s.husk ∧
    (seqResTo res s).drv = s.drv ∧
    (seqResTo res s).est = s.est ∧
    (seqResTo res s).pairs = s.pairs ∧
    (seqResTo res s).time = s.time ∧
    (seqResTo res s).therm = s.therm ∧
    (seqResTo res s).ledg = s.ledg ∧
    (seqResTo res s).tally = s.tally ∧
    (seqResTo res s).host = s.host ∧
    (seqResTo res s).sec = s.sec ∧
    (seqResTo res s).pwr = s.pwr ∧
    (seqResTo res s).bist = s.bist ∧
    (seqResTo res s).evt = s.evt ∧
    (seqResTo res s).pins = s.pins ∧
    (seqResTo res s).freeIx = s.freeIx ∧
    (seqResTo res s).pending = s.pending := by
  simp [seqResTo, id @nvQueue_keep, id @tbWrite_keep]

theorem raiseRes_keep (s : State) :
    (raiseRes s).sys = s.sys ∧
    (raiseRes s).img = s.img ∧
    (raiseRes s).cfg = s.cfg ∧
    (raiseRes s).ring = s.ring ∧
    (raiseRes s).acq = s.acq ∧
    (raiseRes s).cur = s.cur ∧
    (raiseRes s).husk = s.husk ∧
    (raiseRes s).drv = s.drv ∧
    (raiseRes s).est = s.est ∧
    (raiseRes s).pairs = s.pairs ∧
    (raiseRes s).time = s.time ∧
    (raiseRes s).therm = s.therm ∧
    (raiseRes s).ledg = s.ledg ∧
    (raiseRes s).tally = s.tally ∧
    (raiseRes s).host = s.host ∧
    (raiseRes s).sec = s.sec ∧
    (raiseRes s).pwr = s.pwr ∧
    (raiseRes s).bist = s.bist ∧
    (raiseRes s).evt = s.evt ∧
    (raiseRes s).pins = s.pins ∧
    (raiseRes s).freeIx = s.freeIx ∧
    (raiseRes s).pending = s.pending := by
  simp [raiseRes, id @seqResTo_keep]

theorem keepRes_keep (s : State) :
    (keepRes s).sys = s.sys ∧
    (keepRes s).img = s.img ∧
    (keepRes s).cfg = s.cfg ∧
    (keepRes s).ring = s.ring ∧
    (keepRes s).acq = s.acq ∧
    (keepRes s).cur = s.cur ∧
    (keepRes s).husk = s.husk ∧
    (keepRes s).drv = s.drv ∧
    (keepRes s).est = s.est ∧
    (keepRes s).pairs = s.pairs ∧
    (keepRes s).time = s.time ∧
    (keepRes s).therm = s.therm ∧
    (keepRes s).ledg = s.ledg ∧
    (keepRes s).tally = s.tally ∧
    (keepRes s).host = s.host ∧
    (keepRes s).sec = s.sec ∧
    (keepRes s).pwr = s.pwr ∧
    (keepRes s).bist = s.bist ∧
    (keepRes s).evt = s.evt ∧
    (keepRes s).pins = s.pins ∧
    (keepRes s).freeIx = s.freeIx ∧
    (keepRes s).pending = s.pending := by
  simp [keepRes, id @raiseRes_keep]

theorem digAdd_keep (code : Nat) (sev : Nat) (tns : Nat) (payload : List Byte) (s : State) :
    (digAdd code sev tns payload s).sys = s.sys ∧
    (digAdd code sev tns payload s).img = s.img ∧
    (digAdd code sev tns payload s).cfg = s.cfg ∧
    (digAdd code sev tns payload s).ring = s.ring ∧
    (digAdd code sev tns payload s).acq = s.acq ∧
    (digAdd code sev tns payload s).cur = s.cur ∧
    (digAdd code sev tns payload s).husk = s.husk ∧
    (digAdd code sev tns payload s).drv = s.drv ∧
    (digAdd code sev tns payload s).krn = s.krn ∧
    (digAdd code sev tns payload s).est = s.est ∧
    (digAdd code sev tns payload s).win = s.win ∧
    (digAdd code sev tns payload s).pairs = s.pairs ∧
    (digAdd code sev tns payload s).time = s.time ∧
    (digAdd code sev tns payload s).therm = s.therm ∧
    (digAdd code sev tns payload s).nv = s.nv ∧
    (digAdd code sev tns payload s).ledg = s.ledg ∧
    (digAdd code sev tns payload s).tally = s.tally ∧
    (digAdd code sev tns payload s).host = s.host ∧
    (digAdd code sev tns payload s).sec = s.sec ∧
    (digAdd code sev tns payload s).pwr = s.pwr ∧
    (digAdd code sev tns payload s).bist = s.bist ∧
    (digAdd code sev tns payload s).evt = s.evt ∧
    (digAdd code sev tns payload s).pins = s.pins ∧
    (digAdd code sev tns payload s).freeIx = s.freeIx ∧
    (digAdd code sev tns payload s).pending = s.pending := by
  simp [digAdd]

theorem digForm_keep (w : Wait) (rest : List Wait) (s : State) :
    (digForm w rest s).sys = s.sys ∧
    (digForm w rest s).img = s.img ∧
    (digForm w rest s).cfg = s.cfg ∧
    (digForm w rest s).ring = s.ring ∧
    (digForm w rest s).acq = s.acq ∧
    (digForm w rest s).cur = s.cur ∧
    (digForm w rest s).husk = s.husk ∧
    (digForm w rest s).drv = s.drv ∧
    (digForm w rest s).krn = s.krn ∧
    (digForm w rest s).est = s.est ∧
    (digForm w rest s).win = s.win ∧
    (digForm w rest s).pairs = s.pairs ∧
    (digForm w rest s).time = s.time ∧
    (digForm w rest s).therm = s.therm ∧
    (digForm w rest s).nv = s.nv ∧
    (digForm w rest s).ledg = s.ledg ∧
    (digForm w rest s).tally = s.tally ∧
    (digForm w rest s).host = s.host ∧
    (digForm w rest s).sec = s.sec ∧
    (digForm w rest s).pwr = s.pwr ∧
    (digForm w rest s).bist = s.bist ∧
    (digForm w rest s).evt = s.evt ∧
    (digForm w rest s).pins = s.pins ∧
    (digForm w rest s).freeIx = s.freeIx ∧
    (digForm w rest s).pending = s.pending := by
  simp [digForm]

theorem takeIn_keep (w : Wait) (s : State) :
    (takeIn w s).sys = s.sys ∧
    (takeIn w s).img = s.img ∧
    (takeIn w s).cfg = s.cfg ∧
    (takeIn w s).ring = s.ring ∧
    (takeIn w s).acq = s.acq ∧
    (takeIn w s).cur = s.cur ∧
    (takeIn w s).husk = s.husk ∧
    (takeIn w s).drv = s.drv ∧
    (takeIn w s).est = s.est ∧
    (takeIn w s).pairs = s.pairs ∧
    (takeIn w s).time = s.time ∧
    (takeIn w s).therm = s.therm ∧
    (takeIn w s).ledg = s.ledg ∧
    (takeIn w s).tally = s.tally ∧
    (takeIn w s).host = s.host ∧
    (takeIn w s).sec = s.sec ∧
    (takeIn w s).pwr = s.pwr ∧
    (takeIn w s).bist = s.bist ∧
    (takeIn w s).evt = s.evt ∧
    (takeIn w s).pins = s.pins ∧
    (takeIn w s).freeIx = s.freeIx ∧
    (takeIn w s).pending = s.pending := by
  simp [takeIn, id @keepRes_keep]

theorem takeFront_keep (w : Wait) (rest : List Wait) (s : State) :
    (takeFront w rest s).sys = s.sys ∧
    (takeFront w rest s).img = s.img ∧
    (takeFront w rest s).cfg = s.cfg ∧
    (takeFront w rest s).ring = s.ring ∧
    (takeFront w rest s).acq = s.acq ∧
    (takeFront w rest s).cur = s.cur ∧
    (takeFront w rest s).husk = s.husk ∧
    (takeFront w rest s).drv = s.drv ∧
    (takeFront w rest s).est = s.est ∧
    (takeFront w rest s).pairs = s.pairs ∧
    (takeFront w rest s).time = s.time ∧
    (takeFront w rest s).therm = s.therm ∧
    (takeFront w rest s).ledg = s.ledg ∧
    (takeFront w rest s).tally = s.tally ∧
    (takeFront w rest s).host = s.host ∧
    (takeFront w rest s).sec = s.sec ∧
    (takeFront w rest s).pwr = s.pwr ∧
    (takeFront w rest s).bist = s.bist ∧
    (takeFront w rest s).evt = s.evt ∧
    (takeFront w rest s).pins = s.pins ∧
    (takeFront w rest s).freeIx = s.freeIx ∧
    (takeFront w rest s).pending = s.pending := by
  unfold takeFront
  repeat' split
  all_goals simp [id @takeIn_keep, id @toChaff_keep]
  all_goals (rename_i h _; have := rateLimit_keep h; simp [this])

theorem execEventAdmit_keep  {s t : State} (h : execEventAdmit s = .next t) :
    t.img = s.img ∧
    t.cfg = s.cfg ∧
    t.acq = s.acq ∧
    t.cur = s.cur ∧
    t.pairs = s.pairs ∧
    t.time = s.time ∧
    t.therm = s.therm ∧
    t.ledg = s.ledg ∧
    t.tally = s.tally ∧
    t.host = s.host ∧
    t.sec = s.sec ∧
    t.bist = s.bist ∧
    t.freeIx = s.freeIx ∧
    t.pending = s.pending ∧
    t.sys.held = s.sys.held ∧
    t.husk.held = s.husk.held ∧
    t.drv.held = s.drv.held ∧
    t.est.held = s.est.held ∧
    t.pwr.held = s.pwr.held ∧
    t.evt.held = s.evt.held ∧
    t.pins.held = s.pins.held := by
  have e := Host.Outcome.next.inj h
  subst e
  dsimp only
  repeat' split
  all_goals simp [id @digAdd_keep, id @digForm_keep, id @settle_keep, id @takeFront_keep]

theorem execAdmissionTimeout_keep  {s t : State} (h : execAdmissionTimeout s = .next t) :
    t.sys = s.sys ∧
    t.img = s.img ∧
    t.cfg = s.cfg ∧
    t.ring = s.ring ∧
    t.acq = s.acq ∧
    t.cur = s.cur ∧
    t.husk = s.husk ∧
    t.drv = s.drv ∧
    t.krn = s.krn ∧
    t.est = s.est ∧
    t.win = s.win ∧
    t.pairs = s.pairs ∧
    t.time = s.time ∧
    t.therm = s.therm ∧
    t.nv = s.nv ∧
    t.ledg = s.ledg ∧
    t.tally = s.tally ∧
    t.host = s.host ∧
    t.sec = s.sec ∧
    t.pwr = s.pwr ∧
    t.bist = s.bist ∧
    t.evt = s.evt ∧
    t.pins = s.pins ∧
    t.freeIx = s.freeIx ∧
    t.pending = s.pending := by
  have e := Host.Outcome.next.inj h
  subst e
  dsimp only
  repeat' split
  all_goals simp [id @setAgg_keep, id @setTok_keep, id @toChaff_keep]

theorem curOverrun_keep (s : State) :
    (curOverrun s).sys = s.sys ∧
    (curOverrun s).img = s.img ∧
    (curOverrun s).cfg = s.cfg ∧
    (curOverrun s).ring = s.ring ∧
    (curOverrun s).acq = s.acq ∧
    (curOverrun s).cur = s.cur ∧
    (curOverrun s).husk = s.husk ∧
    (curOverrun s).drv = s.drv ∧
    (curOverrun s).krn = s.krn ∧
    (curOverrun s).est = s.est ∧
    (curOverrun s).win = s.win ∧
    (curOverrun s).pairs = s.pairs ∧
    (curOverrun s).time = s.time ∧
    (curOverrun s).therm = s.therm ∧
    (curOverrun s).nv = s.nv ∧
    (curOverrun s).ledg = s.ledg ∧
    (curOverrun s).tally = s.tally ∧
    (curOverrun s).host = s.host ∧
    (curOverrun s).sec = s.sec ∧
    (curOverrun s).pwr = s.pwr ∧
    (curOverrun s).bist = s.bist ∧
    (curOverrun s).evt = s.evt ∧
    (curOverrun s).pins = s.pins ∧
    (curOverrun s).freeIx = s.freeIx ∧
    (curOverrun s).pending = s.pending := by
  simp [curOverrun]

theorem lagEvent_keep (lost : List Rec) (s : State) :
    (lagEvent lost s).sys = s.sys ∧
    (lagEvent lost s).img = s.img ∧
    (lagEvent lost s).cfg = s.cfg ∧
    (lagEvent lost s).ring = s.ring ∧
    (lagEvent lost s).acq = s.acq ∧
    (lagEvent lost s).cur = s.cur ∧
    (lagEvent lost s).husk = s.husk ∧
    (lagEvent lost s).drv = s.drv ∧
    (lagEvent lost s).krn = s.krn ∧
    (lagEvent lost s).est = s.est ∧
    (lagEvent lost s).win = s.win ∧
    (lagEvent lost s).pairs = s.pairs ∧
    (lagEvent lost s).time = s.time ∧
    (lagEvent lost s).therm = s.therm ∧
    (lagEvent lost s).nv = s.nv ∧
    (lagEvent lost s).ledg = s.ledg ∧
    (lagEvent lost s).tally = s.tally ∧
    (lagEvent lost s).host = s.host ∧
    (lagEvent lost s).sec = s.sec ∧
    (lagEvent lost s).pwr = s.pwr ∧
    (lagEvent lost s).bist = s.bist ∧
    (lagEvent lost s).pins = s.pins ∧
    (lagEvent lost s).freeIx = s.freeIx ∧
    (lagEvent lost s).pending = s.pending ∧
    (lagEvent lost s).recd.held = s.recd.held ∧
    (lagEvent lost s).evt.held = s.evt.held := by
  unfold lagEvent
  repeat' split
  all_goals simp [id @emit_keep]

theorem publish_keep (r : Rec) (s : State) :
    (publish r s).sys = s.sys ∧
    (publish r s).img = s.img ∧
    (publish r s).cfg = s.cfg ∧
    (publish r s).ring = s.ring ∧
    (publish r s).acq = s.acq ∧
    (publish r s).cur = s.cur ∧
    (publish r s).husk = s.husk ∧
    (publish r s).drv = s.drv ∧
    (publish r s).krn = s.krn ∧
    (publish r s).est = s.est ∧
    (publish r s).win = s.win ∧
    (publish r s).pairs = s.pairs ∧
    (publish r s).time = s.time ∧
    (publish r s).therm = s.therm ∧
    (publish r s).nv = s.nv ∧
    (publish r s).ledg = s.ledg ∧
    (publish r s).tally = s.tally ∧
    (publish r s).sec = s.sec ∧
    (publish r s).pwr = s.pwr ∧
    (publish r s).bist = s.bist ∧
    (publish r s).pins = s.pins ∧
    (publish r s).freeIx = s.freeIx ∧
    (publish r s).pending = s.pending ∧
    (publish r s).evt.held = s.evt.held := by
  unfold publish
  repeat' split
  all_goals simp [id @curOverrun_keep, id @eventFrames_keep, id @lagEvent_keep]

theorem advance_keep (k0 : Nat) (s : State) :
    (advance k0 s).sys = s.sys ∧
    (advance k0 s).img = s.img ∧
    (advance k0 s).cfg = s.cfg ∧
    (advance k0 s).ring = s.ring ∧
    (advance k0 s).acq = s.acq ∧
    (advance k0 s).cur = s.cur ∧
    (advance k0 s).husk = s.husk ∧
    (advance k0 s).drv = s.drv ∧
    (advance k0 s).krn = s.krn ∧
    (advance k0 s).est = s.est ∧
    (advance k0 s).win = s.win ∧
    (advance k0 s).pairs = s.pairs ∧
    (advance k0 s).time = s.time ∧
    (advance k0 s).therm = s.therm ∧
    (advance k0 s).nv = s.nv ∧
    (advance k0 s).ledg = s.ledg ∧
    (advance k0 s).tally = s.tally ∧
    (advance k0 s).sec = s.sec ∧
    (advance k0 s).pwr = s.pwr ∧
    (advance k0 s).bist = s.bist ∧
    (advance k0 s).pins = s.pins ∧
    (advance k0 s).freeIx = s.freeIx ∧
    (advance k0 s).pending = s.pending ∧
    (advance k0 s).evt.held = s.evt.held := by
  induction k0 generalizing s with
  | zero => simp [advance]
  | succ n ih =>
    unfold advance
    repeat' split
    all_goals simp [ih, id @publish_keep]

theorem execRecordComplete_keep {seq : BitVec 48} {s t : State} (h : execRecordComplete seq s = .next t) :
    t.img = s.img ∧
    t.cfg = s.cfg ∧
    t.acq = s.acq ∧
    t.cur = s.cur ∧
    t.krn = s.krn ∧
    t.win = s.win ∧
    t.pairs = s.pairs ∧
    t.time = s.time ∧
    t.therm = s.therm ∧
    t.nv = s.nv ∧
    t.ledg = s.ledg ∧
    t.tally = s.tally ∧
    t.sec = s.sec ∧
    t.bist = s.bist ∧
    t.freeIx = s.freeIx ∧
    t.pending = s.pending ∧
    t.sys.held = s.sys.held ∧
    t.husk.held = s.husk.held ∧
    t.drv.held = s.drv.held ∧
    t.est.held = s.est.held ∧
    t.pwr.held = s.pwr.held ∧
    t.evt.held = s.evt.held ∧
    t.pins.held = s.pins.held := by
  have e := Host.Outcome.next.inj h
  subst e
  simp [id @advance_keep, id @settle_keep]

theorem execChaffSummary_keep  {s t : State} (h : execChaffSummary s = .next t) :
    t.img = s.img ∧
    t.cfg = s.cfg ∧
    t.acq = s.acq ∧
    t.cur = s.cur ∧
    t.krn = s.krn ∧
    t.win = s.win ∧
    t.pairs = s.pairs ∧
    t.time = s.time ∧
    t.therm = s.therm ∧
    t.nv = s.nv ∧
    t.ledg = s.ledg ∧
    t.tally = s.tally ∧
    t.host = s.host ∧
    t.sec = s.sec ∧
    t.bist = s.bist ∧
    t.freeIx = s.freeIx ∧
    t.pending = s.pending ∧
    t.sys.held = s.sys.held ∧
    t.husk.held = s.husk.held ∧
    t.drv.held = s.drv.held ∧
    t.est.held = s.est.held ∧
    t.pwr.held = s.pwr.held ∧
    t.evt.held = s.evt.held ∧
    t.pins.held = s.pins.held := by
  have e := Host.Outcome.next.inj h
  subst e
  dsimp only
  repeat' split
  all_goals simp [id @emit_keep, id @settle_keep]

theorem setRegion_keep (pin : Bool) (g : GRegion) (s : State) :
    (setRegion pin g s).sys = s.sys ∧
    (setRegion pin g s).img = s.img ∧
    (setRegion pin g s).cfg = s.cfg ∧
    (setRegion pin g s).ring = s.ring ∧
    (setRegion pin g s).acq = s.acq ∧
    (setRegion pin g s).cur = s.cur ∧
    (setRegion pin g s).husk = s.husk ∧
    (setRegion pin g s).drv = s.drv ∧
    (setRegion pin g s).krn = s.krn ∧
    (setRegion pin g s).est = s.est ∧
    (setRegion pin g s).win = s.win ∧
    (setRegion pin g s).pairs = s.pairs ∧
    (setRegion pin g s).time = s.time ∧
    (setRegion pin g s).therm = s.therm ∧
    (setRegion pin g s).nv = s.nv ∧
    (setRegion pin g s).ledg = s.ledg ∧
    (setRegion pin g s).tally = s.tally ∧
    (setRegion pin g s).host = s.host ∧
    (setRegion pin g s).sec = s.sec ∧
    (setRegion pin g s).pwr = s.pwr ∧
    (setRegion pin g s).bist = s.bist ∧
    (setRegion pin g s).evt = s.evt ∧
    (setRegion pin g s).pins = s.pins ∧
    (setRegion pin g s).freeIx = s.freeIx ∧
    (setRegion pin g s).pending = s.pending := by
  simp [setRegion]

theorem markProg_keep (pin : Bool) (seq : Nat) (s : State) :
    (markProg pin seq s).sys = s.sys ∧
    (markProg pin seq s).img = s.img ∧
    (markProg pin seq s).cfg = s.cfg ∧
    (markProg pin seq s).ring = s.ring ∧
    (markProg pin seq s).acq = s.acq ∧
    (markProg pin seq s).cur = s.cur ∧
    (markProg pin seq s).husk = s.husk ∧
    (markProg pin seq s).drv = s.drv ∧
    (markProg pin seq s).krn = s.krn ∧
    (markProg pin seq s).est = s.est ∧
    (markProg pin seq s).win = s.win ∧
    (markProg pin seq s).pairs = s.pairs ∧
    (markProg pin seq s).time = s.time ∧
    (markProg pin seq s).therm = s.therm ∧
    (markProg pin seq s).nv = s.nv ∧
    (markProg pin seq s).ledg = s.ledg ∧
    (markProg pin seq s).tally = s.tally ∧
    (markProg pin seq s).host = s.host ∧
    (markProg pin seq s).sec = s.sec ∧
    (markProg pin seq s).pwr = s.pwr ∧
    (markProg pin seq s).bist = s.bist ∧
    (markProg pin seq s).evt = s.evt ∧
    (markProg pin seq s).pins = s.pins ∧
    (markProg pin seq s).freeIx = s.freeIx ∧
    (markProg pin seq s).pending = s.pending := by
  simp [markProg]

theorem granLost_keep (s : State) :
    (granLost s).sys = s.sys ∧
    (granLost s).img = s.img ∧
    (granLost s).cfg = s.cfg ∧
    (granLost s).ring = s.ring ∧
    (granLost s).acq = s.acq ∧
    (granLost s).cur = s.cur ∧
    (granLost s).husk = s.husk ∧
    (granLost s).drv = s.drv ∧
    (granLost s).krn = s.krn ∧
    (granLost s).est = s.est ∧
    (granLost s).win = s.win ∧
    (granLost s).pairs = s.pairs ∧
    (granLost s).time = s.time ∧
    (granLost s).therm = s.therm ∧
    (granLost s).nv = s.nv ∧
    (granLost s).ledg = s.ledg ∧
    (granLost s).tally = s.tally ∧
    (granLost s).host = s.host ∧
    (granLost s).sec = s.sec ∧
    (granLost s).pwr = s.pwr ∧
    (granLost s).bist = s.bist ∧
    (granLost s).evt = s.evt ∧
    (granLost s).pins = s.pins ∧
    (granLost s).freeIx = s.freeIx ∧
    (granLost s).pending = s.pending := by
  simp [granLost]

theorem granFail_keep (pin : Bool) (b : Nat) (op : Nat) (cs : Nat) (addr : Nat) (s : State) :
    (granFail pin b op cs addr s).sys = s.sys ∧
    (granFail pin b op cs addr s).img = s.img ∧
    (granFail pin b op cs addr s).cfg = s.cfg ∧
    (granFail pin b op cs addr s).ring = s.ring ∧
    (granFail pin b op cs addr s).acq = s.acq ∧
    (granFail pin b op cs addr s).cur = s.cur ∧
    (granFail pin b op cs addr s).husk = s.husk ∧
    (granFail pin b op cs addr s).drv = s.drv ∧
    (granFail pin b op cs addr s).krn = s.krn ∧
    (granFail pin b op cs addr s).est = s.est ∧
    (granFail pin b op cs addr s).win = s.win ∧
    (granFail pin b op cs addr s).pairs = s.pairs ∧
    (granFail pin b op cs addr s).time = s.time ∧
    (granFail pin b op cs addr s).therm = s.therm ∧
    (granFail pin b op cs addr s).nv = s.nv ∧
    (granFail pin b op cs addr s).ledg = s.ledg ∧
    (granFail pin b op cs addr s).tally = s.tally ∧
    (granFail pin b op cs addr s).host = s.host ∧
    (granFail pin b op cs addr s).sec = s.sec ∧
    (granFail pin b op cs addr s).pwr = s.pwr ∧
    (granFail pin b op cs addr s).bist = s.bist ∧
    (granFail pin b op cs addr s).pins = s.pins ∧
    (granFail pin b op cs addr s).freeIx = s.freeIx ∧
    (granFail pin b op cs addr s).pending = s.pending ∧
    (granFail pin b op cs addr s).evt.held = s.evt.held := by
  simp [granFail, id @emit_keep, id @granLost_keep, id @setRegion_keep]

theorem execGranaryProgramDone_keep {pin : Bool} {fail : Bool} {cs : Nat} {addr : Nat} {s t : State} (h : execGranaryProgramDone pin fail cs addr s = .next t) :
    t.img = s.img ∧
    t.cfg = s.cfg ∧
    t.acq = s.acq ∧
    t.cur = s.cur ∧
    t.krn = s.krn ∧
    t.win = s.win ∧
    t.pairs = s.pairs ∧
    t.time = s.time ∧
    t.therm = s.therm ∧
    t.nv = s.nv ∧
    t.ledg = s.ledg ∧
    t.tally = s.tally ∧
    t.host = s.host ∧
    t.sec = s.sec ∧
    t.bist = s.bist ∧
    t.freeIx = s.freeIx ∧
    t.pending = s.pending ∧
    t.sys.held = s.sys.held ∧
    t.husk.held = s.husk.held ∧
    t.drv.held = s.drv.held ∧
    t.est.held = s.est.held ∧
    t.pwr.held = s.pwr.held ∧
    t.evt.held = s.evt.held ∧
    t.pins.held = s.pins.held := by
  have e := Host.Outcome.next.inj h
  subst e
  dsimp only
  repeat' split
  all_goals simp [id @granFail_keep, id @markProg_keep, id @setRegion_keep, id @settle_keep]

theorem pinOverflow_keep (b : GBlock) (s : State) :
    (pinOverflow b s).sys = s.sys ∧
    (pinOverflow b s).img = s.img ∧
    (pinOverflow b s).cfg = s.cfg ∧
    (pinOverflow b s).ring = s.ring ∧
    (pinOverflow b s).acq = s.acq ∧
    (pinOverflow b s).cur = s.cur ∧
    (pinOverflow b s).husk = s.husk ∧
    (pinOverflow b s).drv = s.drv ∧
    (pinOverflow b s).krn = s.krn ∧
    (pinOverflow b s).est = s.est ∧
    (pinOverflow b s).win = s.win ∧
    (pinOverflow b s).pairs = s.pairs ∧
    (pinOverflow b s).time = s.time ∧
    (pinOverflow b s).therm = s.therm ∧
    (pinOverflow b s).nv = s.nv ∧
    (pinOverflow b s).ledg = s.ledg ∧
    (pinOverflow b s).tally = s.tally ∧
    (pinOverflow b s).host = s.host ∧
    (pinOverflow b s).sec = s.sec ∧
    (pinOverflow b s).pwr = s.pwr ∧
    (pinOverflow b s).bist = s.bist ∧
    (pinOverflow b s).pins = s.pins ∧
    (pinOverflow b s).freeIx = s.freeIx ∧
    (pinOverflow b s).pending = s.pending ∧
    (pinOverflow b s).evt.held = s.evt.held := by
  unfold pinOverflow
  repeat' split
  all_goals simp [id @emit_keep]

theorem pinOverrun_keep (b : GBlock) (s : State) :
    (pinOverrun b s).sys = s.sys ∧
    (pinOverrun b s).img = s.img ∧
    (pinOverrun b s).cfg = s.cfg ∧
    (pinOverrun b s).ring = s.ring ∧
    (pinOverrun b s).acq = s.acq ∧
    (pinOverrun b s).cur = s.cur ∧
    (pinOverrun b s).husk = s.husk ∧
    (pinOverrun b s).drv = s.drv ∧
    (pinOverrun b s).krn = s.krn ∧
    (pinOverrun b s).est = s.est ∧
    (pinOverrun b s).win = s.win ∧
    (pinOverrun b s).pairs = s.pairs ∧
    (pinOverrun b s).time = s.time ∧
    (pinOverrun b s).therm = s.therm ∧
    (pinOverrun b s).nv = s.nv ∧
    (pinOverrun b s).ledg = s.ledg ∧
    (pinOverrun b s).tally = s.tally ∧
    (pinOverrun b s).host = s.host ∧
    (pinOverrun b s).sec = s.sec ∧
    (pinOverrun b s).pwr = s.pwr ∧
    (pinOverrun b s).bist = s.bist ∧
    (pinOverrun b s).evt = s.evt ∧
    (pinOverrun b s).pins = s.pins ∧
    (pinOverrun b s).freeIx = s.freeIx ∧
    (pinOverrun b s).pending = s.pending := by
  simp [pinOverrun]

theorem eraseBlock_keep (pin : Bool) (b : Nat) (s : State) :
    (eraseBlock pin b s).sys = s.sys ∧
    (eraseBlock pin b s).img = s.img ∧
    (eraseBlock pin b s).cfg = s.cfg ∧
    (eraseBlock pin b s).ring = s.ring ∧
    (eraseBlock pin b s).acq = s.acq ∧
    (eraseBlock pin b s).cur = s.cur ∧
    (eraseBlock pin b s).husk = s.husk ∧
    (eraseBlock pin b s).drv = s.drv ∧
    (eraseBlock pin b s).krn = s.krn ∧
    (eraseBlock pin b s).est = s.est ∧
    (eraseBlock pin b s).win = s.win ∧
    (eraseBlock pin b s).pairs = s.pairs ∧
    (eraseBlock pin b s).time = s.time ∧
    (eraseBlock pin b s).therm = s.therm ∧
    (eraseBlock pin b s).nv = s.nv ∧
    (eraseBlock pin b s).ledg = s.ledg ∧
    (eraseBlock pin b s).tally = s.tally ∧
    (eraseBlock pin b s).host = s.host ∧
    (eraseBlock pin b s).sec = s.sec ∧
    (eraseBlock pin b s).pwr = s.pwr ∧
    (eraseBlock pin b s).bist = s.bist ∧
    (eraseBlock pin b s).pins = s.pins ∧
    (eraseBlock pin b s).freeIx = s.freeIx ∧
    (eraseBlock pin b s).pending = s.pending ∧
    (eraseBlock pin b s).evt.held = s.evt.held := by
  unfold eraseBlock
  repeat' split
  all_goals simp [id @curOverrun_keep, id @pinOverflow_keep, id @pinOverrun_keep, id @setRegion_keep]

theorem execGranaryEraseDone_keep {pin : Bool} {fail : Bool} {cs : Nat} {addr : Nat} {s t : State} (h : execGranaryEraseDone pin fail cs addr s = .next t) :
    t.img = s.img ∧
    t.cfg = s.cfg ∧
    t.acq = s.acq ∧
    t.cur = s.cur ∧
    t.krn = s.krn ∧
    t.win = s.win ∧
    t.pairs = s.pairs ∧
    t.time = s.time ∧
    t.therm = s.therm ∧
    t.nv = s.nv ∧
    t.ledg = s.ledg ∧
    t.tally = s.tally ∧
    t.host = s.host ∧
    t.sec = s.sec ∧
    t.bist = s.bist ∧
    t.freeIx = s.freeIx ∧
    t.pending = s.pending ∧
    t.sys.held = s.sys.held ∧
    t.husk.held = s.husk.held ∧
    t.drv.held = s.drv.held ∧
    t.est.held = s.est.held ∧
    t.pwr.held = s.pwr.held ∧
    t.evt.held = s.evt.held ∧
    t.pins.held = s.pins.held := by
  have e := Host.Outcome.next.inj h
  subst e
  dsimp only
  repeat' split
  all_goals simp [id @eraseBlock_keep, id @granFail_keep, id @settle_keep]

theorem execGranaryTimeout_keep {pin : Bool} {cs : Nat} {addr : Nat} {s t : State} (h : execGranaryTimeout pin cs addr s = .next t) :
    t.img = s.img ∧
    t.cfg = s.cfg ∧
    t.acq = s.acq ∧
    t.cur = s.cur ∧
    t.krn = s.krn ∧
    t.win = s.win ∧
    t.pairs = s.pairs ∧
    t.time = s.time ∧
    t.therm = s.therm ∧
    t.nv = s.nv ∧
    t.ledg = s.ledg ∧
    t.tally = s.tally ∧
    t.host = s.host ∧
    t.sec = s.sec ∧
    t.bist = s.bist ∧
    t.freeIx = s.freeIx ∧
    t.pending = s.pending ∧
    t.sys.held = s.sys.held ∧
    t.husk.held = s.husk.held ∧
    t.drv.held = s.drv.held ∧
    t.est.held = s.est.held ∧
    t.pwr.held = s.pwr.held ∧
    t.evt.held = s.evt.held ∧
    t.pins.held = s.pins.held := by
  have e := Host.Outcome.next.inj h
  subst e
  dsimp only
  repeat' split
  all_goals simp [id @granFail_keep, id @settle_keep]

theorem execGranaryRestart_keep {answers : Bool} {s t : State} (h : execGranaryRestart answers s = .next t) :
    t.img = s.img ∧
    t.cfg = s.cfg ∧
    t.acq = s.acq ∧
    t.cur = s.cur ∧
    t.krn = s.krn ∧
    t.win = s.win ∧
    t.pairs = s.pairs ∧
    t.time = s.time ∧
    t.therm = s.therm ∧
    t.nv = s.nv ∧
    t.ledg = s.ledg ∧
    t.tally = s.tally ∧
    t.host = s.host ∧
    t.sec = s.sec ∧
    t.bist = s.bist ∧
    t.freeIx = s.freeIx ∧
    t.pending = s.pending ∧
    t.sys.held = s.sys.held ∧
    t.husk.held = s.husk.held ∧
    t.drv.held = s.drv.held ∧
    t.est.held = s.est.held ∧
    t.pwr.held = s.pwr.held ∧
    t.evt.held = s.evt.held ∧
    t.pins.held = s.pins.held := by
  have e := Host.Outcome.next.inj h
  subst e
  dsimp only
  repeat' split
  all_goals simp [id @emit_keep, id @settle_keep]

theorem chaffClear_keep (s : State) :
    (chaffClear s).sys = s.sys ∧
    (chaffClear s).img = s.img ∧
    (chaffClear s).cfg = s.cfg ∧
    (chaffClear s).ring = s.ring ∧
    (chaffClear s).acq = s.acq ∧
    (chaffClear s).cur = s.cur ∧
    (chaffClear s).husk = s.husk ∧
    (chaffClear s).drv = s.drv ∧
    (chaffClear s).krn = s.krn ∧
    (chaffClear s).est = s.est ∧
    (chaffClear s).win = s.win ∧
    (chaffClear s).pairs = s.pairs ∧
    (chaffClear s).time = s.time ∧
    (chaffClear s).therm = s.therm ∧
    (chaffClear s).nv = s.nv ∧
    (chaffClear s).ledg = s.ledg ∧
    (chaffClear s).tally = s.tally ∧
    (chaffClear s).host = s.host ∧
    (chaffClear s).sec = s.sec ∧
    (chaffClear s).pwr = s.pwr ∧
    (chaffClear s).bist = s.bist ∧
    (chaffClear s).evt = s.evt ∧
    (chaffClear s).pins = s.pins ∧
    (chaffClear s).freeIx = s.freeIx ∧
    (chaffClear s).pending = s.pending := by
  simp [chaffClear]

theorem recFlush_keep (s : State) :
    (recFlush s).sys = s.sys ∧
    (recFlush s).img = s.img ∧
    (recFlush s).cfg = s.cfg ∧
    (recFlush s).ring = s.ring ∧
    (recFlush s).acq = s.acq ∧
    (recFlush s).cur = s.cur ∧
    (recFlush s).husk = s.husk ∧
    (recFlush s).drv = s.drv ∧
    (recFlush s).krn = s.krn ∧
    (recFlush s).est = s.est ∧
    (recFlush s).win = s.win ∧
    (recFlush s).pairs = s.pairs ∧
    (recFlush s).time = s.time ∧
    (recFlush s).therm = s.therm ∧
    (recFlush s).nv = s.nv ∧
    (recFlush s).ledg = s.ledg ∧
    (recFlush s).tally = s.tally ∧
    (recFlush s).host = s.host ∧
    (recFlush s).sec = s.sec ∧
    (recFlush s).pwr = s.pwr ∧
    (recFlush s).bist = s.bist ∧
    (recFlush s).evt = s.evt ∧
    (recFlush s).pins = s.pins ∧
    (recFlush s).freeIx = s.freeIx ∧
    (recFlush s).pending = s.pending := by
  simp [recFlush]

theorem formatOverrun_keep (s : State) :
    (formatOverrun s).sys = s.sys ∧
    (formatOverrun s).img = s.img ∧
    (formatOverrun s).cfg = s.cfg ∧
    (formatOverrun s).ring = s.ring ∧
    (formatOverrun s).acq = s.acq ∧
    (formatOverrun s).cur = s.cur ∧
    (formatOverrun s).husk = s.husk ∧
    (formatOverrun s).drv = s.drv ∧
    (formatOverrun s).krn = s.krn ∧
    (formatOverrun s).est = s.est ∧
    (formatOverrun s).win = s.win ∧
    (formatOverrun s).pairs = s.pairs ∧
    (formatOverrun s).time = s.time ∧
    (formatOverrun s).therm = s.therm ∧
    (formatOverrun s).nv = s.nv ∧
    (formatOverrun s).ledg = s.ledg ∧
    (formatOverrun s).tally = s.tally ∧
    (formatOverrun s).host = s.host ∧
    (formatOverrun s).sec = s.sec ∧
    (formatOverrun s).pwr = s.pwr ∧
    (formatOverrun s).bist = s.bist ∧
    (formatOverrun s).evt = s.evt ∧
    (formatOverrun s).pins = s.pins ∧
    (formatOverrun s).freeIx = s.freeIx ∧
    (formatOverrun s).pending = s.pending := by
  simp [formatOverrun]

theorem granFresh_keep (pin : Nat) (s : State) :
    (granFresh pin s).sys = s.sys ∧
    (granFresh pin s).img = s.img ∧
    (granFresh pin s).cfg = s.cfg ∧
    (granFresh pin s).ring = s.ring ∧
    (granFresh pin s).acq = s.acq ∧
    (granFresh pin s).cur = s.cur ∧
    (granFresh pin s).husk = s.husk ∧
    (granFresh pin s).drv = s.drv ∧
    (granFresh pin s).krn = s.krn ∧
    (granFresh pin s).est = s.est ∧
    (granFresh pin s).win = s.win ∧
    (granFresh pin s).pairs = s.pairs ∧
    (granFresh pin s).time = s.time ∧
    (granFresh pin s).therm = s.therm ∧
    (granFresh pin s).nv = s.nv ∧
    (granFresh pin s).ledg = s.ledg ∧
    (granFresh pin s).tally = s.tally ∧
    (granFresh pin s).host = s.host ∧
    (granFresh pin s).sec = s.sec ∧
    (granFresh pin s).pwr = s.pwr ∧
    (granFresh pin s).bist = s.bist ∧
    (granFresh pin s).evt = s.evt ∧
    (granFresh pin s).pins = s.pins ∧
    (granFresh pin s).freeIx = s.freeIx ∧
    (granFresh pin s).pending = s.pending := by
  simp [granFresh, id @curOverrun_keep]

theorem granFormat_keep (pin : Nat) (s : State) :
    (granFormat pin s).sys = s.sys ∧
    (granFormat pin s).img = s.img ∧
    (granFormat pin s).cfg = s.cfg ∧
    (granFormat pin s).ring = s.ring ∧
    (granFormat pin s).acq = s.acq ∧
    (granFormat pin s).cur = s.cur ∧
    (granFormat pin s).husk = s.husk ∧
    (granFormat pin s).drv = s.drv ∧
    (granFormat pin s).krn = s.krn ∧
    (granFormat pin s).est = s.est ∧
    (granFormat pin s).win = s.win ∧
    (granFormat pin s).pairs = s.pairs ∧
    (granFormat pin s).time = s.time ∧
    (granFormat pin s).therm = s.therm ∧
    (granFormat pin s).nv = s.nv ∧
    (granFormat pin s).ledg = s.ledg ∧
    (granFormat pin s).tally = s.tally ∧
    (granFormat pin s).host = s.host ∧
    (granFormat pin s).sec = s.sec ∧
    (granFormat pin s).pwr = s.pwr ∧
    (granFormat pin s).bist = s.bist ∧
    (granFormat pin s).pins = s.pins ∧
    (granFormat pin s).freeIx = s.freeIx ∧
    (granFormat pin s).pending = s.pending ∧
    (granFormat pin s).evt.held = s.evt.held := by
  simp [granFormat, id @emit_keep, id @formatOverrun_keep, id @granFresh_keep]

theorem recFormat_keep (s : State) :
    (recFormat s).sys = s.sys ∧
    (recFormat s).img = s.img ∧
    (recFormat s).cfg = s.cfg ∧
    (recFormat s).ring = s.ring ∧
    (recFormat s).acq = s.acq ∧
    (recFormat s).cur = s.cur ∧
    (recFormat s).husk = s.husk ∧
    (recFormat s).drv = s.drv ∧
    (recFormat s).krn = s.krn ∧
    (recFormat s).est = s.est ∧
    (recFormat s).win = s.win ∧
    (recFormat s).pairs = s.pairs ∧
    (recFormat s).time = s.time ∧
    (recFormat s).therm = s.therm ∧
    (recFormat s).nv = s.nv ∧
    (recFormat s).ledg = s.ledg ∧
    (recFormat s).tally = s.tally ∧
    (recFormat s).host = s.host ∧
    (recFormat s).sec = s.sec ∧
    (recFormat s).pwr = s.pwr ∧
    (recFormat s).bist = s.bist ∧
    (recFormat s).pins = s.pins ∧
    (recFormat s).freeIx = s.freeIx ∧
    (recFormat s).pending = s.pending ∧
    (recFormat s).evt.held = s.evt.held := by
  unfold recFormat
  repeat' split
  all_goals simp [id @granFormat_keep]

theorem pinAck_keep (hi : Word) (s : State) :
    (pinAck hi s).sys = s.sys ∧
    (pinAck hi s).img = s.img ∧
    (pinAck hi s).cfg = s.cfg ∧
    (pinAck hi s).ring = s.ring ∧
    (pinAck hi s).acq = s.acq ∧
    (pinAck hi s).cur = s.cur ∧
    (pinAck hi s).husk = s.husk ∧
    (pinAck hi s).drv = s.drv ∧
    (pinAck hi s).krn = s.krn ∧
    (pinAck hi s).est = s.est ∧
    (pinAck hi s).win = s.win ∧
    (pinAck hi s).pairs = s.pairs ∧
    (pinAck hi s).time = s.time ∧
    (pinAck hi s).therm = s.therm ∧
    (pinAck hi s).nv = s.nv ∧
    (pinAck hi s).ledg = s.ledg ∧
    (pinAck hi s).tally = s.tally ∧
    (pinAck hi s).host = s.host ∧
    (pinAck hi s).sec = s.sec ∧
    (pinAck hi s).pwr = s.pwr ∧
    (pinAck hi s).bist = s.bist ∧
    (pinAck hi s).evt = s.evt ∧
    (pinAck hi s).pins = s.pins ∧
    (pinAck hi s).freeIx = s.freeIx ∧
    (pinAck hi s).pending = s.pending := by
  simp [pinAck]

theorem recStart_keep (s : State) :
    (recStart s).img = s.img ∧
    (recStart s).cfg = s.cfg ∧
    (recStart s).ring = s.ring ∧
    (recStart s).acq = s.acq ∧
    (recStart s).cur = s.cur ∧
    (recStart s).husk = s.husk ∧
    (recStart s).drv = s.drv ∧
    (recStart s).est = s.est ∧
    (recStart s).pairs = s.pairs ∧
    (recStart s).time = s.time ∧
    (recStart s).therm = s.therm ∧
    (recStart s).ledg = s.ledg ∧
    (recStart s).tally = s.tally ∧
    (recStart s).host = s.host ∧
    (recStart s).sec = s.sec ∧
    (recStart s).pwr = s.pwr ∧
    (recStart s).bist = s.bist ∧
    (recStart s).pins = s.pins ∧
    (recStart s).freeIx = s.freeIx ∧
    (recStart s).pending = s.pending ∧
    (recStart s).evt.held = s.evt.held := by
  simp only [recStart]
  repeat' split
  all_goals simp [id @digAdd_keep, id @emit_keep, id @keepRes_keep]

end Sys2Proof.Machine
end

