-- ==== Sys2Proof/Laws/KeepSec.lean ====
section
/-! SUPPORT. What the operations of Machine/Sec.lean leave unchanged. -/

namespace Sys2Proof.Machine

theorem presStart_keep (src : Nat) (len : Nat) (s : State) :
    (presStart src len s).sys = s.sys ∧
    (presStart src len s).img = s.img ∧
    (presStart src len s).cfg = s.cfg ∧
    (presStart src len s).ring = s.ring ∧
    (presStart src len s).acq = s.acq ∧
    (presStart src len s).cur = s.cur ∧
    (presStart src len s).husk = s.husk ∧
    (presStart src len s).drv = s.drv ∧
    (presStart src len s).krn = s.krn ∧
    (presStart src len s).est = s.est ∧
    (presStart src len s).win = s.win ∧
    (presStart src len s).pairs = s.pairs ∧
    (presStart src len s).time = s.time ∧
    (presStart src len s).therm = s.therm ∧
    (presStart src len s).nv = s.nv ∧
    (presStart src len s).ledg = s.ledg ∧
    (presStart src len s).tally = s.tally ∧
    (presStart src len s).host = s.host ∧
    (presStart src len s).pwr = s.pwr ∧
    (presStart src len s).bist = s.bist ∧
    (presStart src len s).pins = s.pins ∧
    (presStart src len s).freeIx = s.freeIx ∧
    (presStart src len s).pending = s.pending ∧
    (presStart src len s).sec.mid = s.sec.mid ∧
    (presStart src len s).sec.devKey = s.sec.devKey ∧
    (presStart src len s).recd.held = s.recd.held ∧
    (presStart src len s).evt.held = s.evt.held := by
  unfold presStart
  repeat' split
  all_goals simp [id @emit_keep]

theorem execPresBtnPress_keep {a : Bool} {b : Bool} {c : Bool} {s t : State} (h : execPresBtnPress a b c s = .next t) :
    t.sys = s.sys ∧
    t.img = s.img ∧
    t.cfg = s.cfg ∧
    t.ring = s.ring ∧
    t.acq = s.acq ∧
    t.cur = s.cur ∧
    t.husk = s.husk ∧
    t.drv = s.drv ∧
    t.krn = s.krn ∧
    t.est = s.est ∧
    t.win = s.win ∧
    t.pairs = s.pairs ∧
    t.time = s.time ∧
    t.therm = s.therm ∧
    t.nv = s.nv ∧
    t.ledg = s.ledg ∧
    t.tally = s.tally ∧
    t.recd = s.recd ∧
    t.host = s.host ∧
    t.pwr = s.pwr ∧
    t.bist = s.bist ∧
    t.evt = s.evt ∧
    t.freeIx = s.freeIx ∧
    t.pending = s.pending ∧
    t.sec.mid = s.sec.mid ∧
    t.sec.devKey = s.sec.devKey := by
  have e := Host.Outcome.next.inj h
  subst e
  dsimp only
  repeat' split
  all_goals simp

theorem presRelease_keep (d : Nat) (s : State) :
    (presRelease d s).sys = s.sys ∧
    (presRelease d s).img = s.img ∧
    (presRelease d s).cfg = s.cfg ∧
    (presRelease d s).ring = s.ring ∧
    (presRelease d s).acq = s.acq ∧
    (presRelease d s).cur = s.cur ∧
    (presRelease d s).husk = s.husk ∧
    (presRelease d s).drv = s.drv ∧
    (presRelease d s).krn = s.krn ∧
    (presRelease d s).est = s.est ∧
    (presRelease d s).win = s.win ∧
    (presRelease d s).pairs = s.pairs ∧
    (presRelease d s).time = s.time ∧
    (presRelease d s).therm = s.therm ∧
    (presRelease d s).nv = s.nv ∧
    (presRelease d s).ledg = s.ledg ∧
    (presRelease d s).tally = s.tally ∧
    (presRelease d s).host = s.host ∧
    (presRelease d s).pwr = s.pwr ∧
    (presRelease d s).bist = s.bist ∧
    (presRelease d s).pins = s.pins ∧
    (presRelease d s).freeIx = s.freeIx ∧
    (presRelease d s).pending = s.pending ∧
    (presRelease d s).sec.mid = s.sec.mid ∧
    (presRelease d s).sec.devKey = s.sec.devKey ∧
    (presRelease d s).recd.held = s.recd.held ∧
    (presRelease d s).evt.held = s.evt.held := by
  unfold presRelease
  repeat' split
  all_goals simp [id @presStart_keep]

theorem execPresBtnRelease_keep {a : Bool} {b : Bool} {c : Bool} {s t : State} (h : execPresBtnRelease a b c s = .next t) :
    t.sys = s.sys ∧
    t.img = s.img ∧
    t.cfg = s.cfg ∧
    t.ring = s.ring ∧
    t.acq = s.acq ∧
    t.cur = s.cur ∧
    t.husk = s.husk ∧
    t.drv = s.drv ∧
    t.krn = s.krn ∧
    t.est = s.est ∧
    t.win = s.win ∧
    t.pairs = s.pairs ∧
    t.time = s.time ∧
    t.therm = s.therm ∧
    t.nv = s.nv ∧
    t.ledg = s.ledg ∧
    t.tally = s.tally ∧
    t.host = s.host ∧
    t.bist = s.bist ∧
    t.freeIx = s.freeIx ∧
    t.pending = s.pending ∧
    t.sec.mid = s.sec.mid ∧
    t.sec.devKey = s.sec.devKey ∧
    t.recd.held = s.recd.held ∧
    t.pwr.held = s.pwr.held ∧
    t.evt.held = s.evt.held := by
  have e := Host.Outcome.next.inj h
  subst e
  dsimp only
  repeat' split
  all_goals simp [id @presRelease_keep, id @settlePins_keep]

theorem execPresStuck_keep  {s t : State} (h : execPresStuck s = .next t) :
    t.img = s.img ∧
    t.cfg = s.cfg ∧
    t.acq = s.acq ∧
    t.cur = s.cur ∧
    t.krn = s.krn ∧
    t.win = s.win ∧
    t.pairs = s.pairs ∧
    t.time = s.time ∧
    t.therm = s.therm ∧
    t.nv = s.nv ∧
    t.ledg = s.ledg ∧
    t.tally = s.tally ∧
    t.host = s.host ∧
    t.bist = s.bist ∧
    t.freeIx = s.freeIx ∧
    t.pending = s.pending ∧
    t.sec.mid = s.sec.mid ∧
    t.sec.devKey = s.sec.devKey ∧
    t.sys.held = s.sys.held ∧
    t.husk.held = s.husk.held ∧
    t.drv.held = s.drv.held ∧
    t.recd.held = s.recd.held ∧
    t.est.held = s.est.held ∧
    t.pwr.held = s.pwr.held ∧
    t.evt.held = s.evt.held ∧
    t.pins.held = s.pins.held := by
  have e := Host.Outcome.next.inj h
  subst e
  dsimp only
  repeat' split
  all_goals simp [id @emit_keep, id @settle_keep]

theorem execPresStuckClear_keep  {s t : State} (h : execPresStuckClear s = .next t) :
    t.sys = s.sys ∧
    t.img = s.img ∧
    t.cfg = s.cfg ∧
    t.ring = s.ring ∧
    t.acq = s.acq ∧
    t.cur = s.cur ∧
    t.husk = s.husk ∧
    t.drv = s.drv ∧
    t.krn = s.krn ∧
    t.est = s.est ∧
    t.win = s.win ∧
    t.pairs = s.pairs ∧
    t.time = s.time ∧
    t.therm = s.therm ∧
    t.nv = s.nv ∧
    t.ledg = s.ledg ∧
    t.tally = s.tally ∧
    t.recd = s.recd ∧
    t.host = s.host ∧
    t.pwr = s.pwr ∧
    t.bist = s.bist ∧
    t.evt = s.evt ∧
    t.pins = s.pins ∧
    t.freeIx = s.freeIx ∧
    t.pending = s.pending ∧
    t.sec.mid = s.sec.mid ∧
    t.sec.devKey = s.sec.devKey := by
  have e := Host.Outcome.next.inj h
  subst e
  dsimp only
  repeat' split
  all_goals simp

theorem execPresenceExpiry_keep {strap : Bool} {s t : State} (h : execPresenceExpiry strap s = .next t) :
    t.img = s.img ∧
    t.cfg = s.cfg ∧
    t.acq = s.acq ∧
    t.cur = s.cur ∧
    t.krn = s.krn ∧
    t.win = s.win ∧
    t.pairs = s.pairs ∧
    t.time = s.time ∧
    t.therm = s.therm ∧
    t.nv = s.nv ∧
    t.ledg = s.ledg ∧
    t.tally = s.tally ∧
    t.host = s.host ∧
    t.bist = s.bist ∧
    t.freeIx = s.freeIx ∧
    t.pending = s.pending ∧
    t.sec.mid = s.sec.mid ∧
    t.sec.devKey = s.sec.devKey ∧
    t.sys.held = s.sys.held ∧
    t.husk.held = s.husk.held ∧
    t.drv.held = s.drv.held ∧
    t.recd.held = s.recd.held ∧
    t.est.held = s.est.held ∧
    t.pwr.held = s.pwr.held ∧
    t.evt.held = s.evt.held ∧
    t.pins.held = s.pins.held := by
  have e := Host.Outcome.next.inj h
  subst e
  dsimp only
  repeat' split
  all_goals simp [id @emitIf_keep, id @settle_keep]

theorem presClose_keep (s : State) :
    (presClose s).sys = s.sys ∧
    (presClose s).img = s.img ∧
    (presClose s).cfg = s.cfg ∧
    (presClose s).ring = s.ring ∧
    (presClose s).acq = s.acq ∧
    (presClose s).cur = s.cur ∧
    (presClose s).husk = s.husk ∧
    (presClose s).drv = s.drv ∧
    (presClose s).krn = s.krn ∧
    (presClose s).est = s.est ∧
    (presClose s).win = s.win ∧
    (presClose s).pairs = s.pairs ∧
    (presClose s).time = s.time ∧
    (presClose s).therm = s.therm ∧
    (presClose s).nv = s.nv ∧
    (presClose s).ledg = s.ledg ∧
    (presClose s).tally = s.tally ∧
    (presClose s).host = s.host ∧
    (presClose s).pwr = s.pwr ∧
    (presClose s).bist = s.bist ∧
    (presClose s).pins = s.pins ∧
    (presClose s).freeIx = s.freeIx ∧
    (presClose s).pending = s.pending ∧
    (presClose s).sec.mid = s.sec.mid ∧
    (presClose s).sec.devKey = s.sec.devKey ∧
    (presClose s).recd.held = s.recd.held ∧
    (presClose s).evt.held = s.evt.held := by
  unfold presClose
  repeat' split
  all_goals simp [id @emit_keep]

theorem sealBreak_keep (s : State) :
    (sealBreak s).sys = s.sys ∧
    (sealBreak s).img = s.img ∧
    (sealBreak s).cfg = s.cfg ∧
    (sealBreak s).ring = s.ring ∧
    (sealBreak s).acq = s.acq ∧
    (sealBreak s).cur = s.cur ∧
    (sealBreak s).husk = s.husk ∧
    (sealBreak s).drv = s.drv ∧
    (sealBreak s).krn = s.krn ∧
    (sealBreak s).est = s.est ∧
    (sealBreak s).win = s.win ∧
    (sealBreak s).pairs = s.pairs ∧
    (sealBreak s).time = s.time ∧
    (sealBreak s).therm = s.therm ∧
    (sealBreak s).ledg = s.ledg ∧
    (sealBreak s).tally = s.tally ∧
    (sealBreak s).host = s.host ∧
    (sealBreak s).pwr = s.pwr ∧
    (sealBreak s).bist = s.bist ∧
    (sealBreak s).pins = s.pins ∧
    (sealBreak s).freeIx = s.freeIx ∧
    (sealBreak s).pending = s.pending ∧
    (sealBreak s).sec.mid = s.sec.mid ∧
    (sealBreak s).sec.devKey = s.sec.devKey ∧
    (sealBreak s).recd.held = s.recd.held ∧
    (sealBreak s).evt.held = s.evt.held := by
  simp [sealBreak, id @emit_keep]

theorem sealClose_keep (s : State) :
    (sealClose s).sys = s.sys ∧
    (sealClose s).img = s.img ∧
    (sealClose s).cfg = s.cfg ∧
    (sealClose s).ring = s.ring ∧
    (sealClose s).acq = s.acq ∧
    (sealClose s).cur = s.cur ∧
    (sealClose s).husk = s.husk ∧
    (sealClose s).drv = s.drv ∧
    (sealClose s).krn = s.krn ∧
    (sealClose s).est = s.est ∧
    (sealClose s).win = s.win ∧
    (sealClose s).pairs = s.pairs ∧
    (sealClose s).time = s.time ∧
    (sealClose s).therm = s.therm ∧
    (sealClose s).ledg = s.ledg ∧
    (sealClose s).tally = s.tally ∧
    (sealClose s).host = s.host ∧
    (sealClose s).pwr = s.pwr ∧
    (sealClose s).bist = s.bist ∧
    (sealClose s).pins = s.pins ∧
    (sealClose s).freeIx = s.freeIx ∧
    (sealClose s).pending = s.pending ∧
    (sealClose s).sec.mid = s.sec.mid ∧
    (sealClose s).sec.devKey = s.sec.devKey ∧
    (sealClose s).recd.held = s.recd.held ∧
    (sealClose s).evt.held = s.evt.held := by
  simp [sealClose, id @emit_keep]

theorem execSealBreak_keep {a : Bool} {b : Bool} {c : Bool} {s t : State} (h : execSealBreak a b c s = .next t) :
    t.img = s.img ∧
    t.cfg = s.cfg ∧
    t.acq = s.acq ∧
    t.cur = s.cur ∧
    t.krn = s.krn ∧
    t.win = s.win ∧
    t.pairs = s.pairs ∧
    t.time = s.time ∧
    t.therm = s.therm ∧
    t.ledg = s.ledg ∧
    t.tally = s.tally ∧
    t.host = s.host ∧
    t.bist = s.bist ∧
    t.freeIx = s.freeIx ∧
    t.pending = s.pending ∧
    t.sec.mid = s.sec.mid ∧
    t.sec.devKey = s.sec.devKey ∧
    t.sys.held = s.sys.held ∧
    t.husk.held = s.husk.held ∧
    t.drv.held = s.drv.held ∧
    t.recd.held = s.recd.held ∧
    t.est.held = s.est.held ∧
    t.pwr.held = s.pwr.held ∧
    t.evt.held = s.evt.held ∧
    t.pins.held = s.pins.held := by
  have e := Host.Outcome.next.inj h
  subst e
  simp [id @sealBreak_keep, id @settle_keep]
  repeat' split
  all_goals simp [id @sealBreak_keep, id @settle_keep]

theorem execSealRestored_keep {a : Bool} {b : Bool} {c : Bool} {s t : State} (h : execSealRestored a b c s = .next t) :
    t.img = s.img ∧
    t.cfg = s.cfg ∧
    t.acq = s.acq ∧
    t.cur = s.cur ∧
    t.krn = s.krn ∧
    t.win = s.win ∧
    t.pairs = s.pairs ∧
    t.time = s.time ∧
    t.therm = s.therm ∧
    t.ledg = s.ledg ∧
    t.tally = s.tally ∧
    t.host = s.host ∧
    t.bist = s.bist ∧
    t.freeIx = s.freeIx ∧
    t.pending = s.pending ∧
    t.sec.mid = s.sec.mid ∧
    t.sec.devKey = s.sec.devKey ∧
    t.sys.held = s.sys.held ∧
    t.husk.held = s.husk.held ∧
    t.drv.held = s.drv.held ∧
    t.recd.held = s.recd.held ∧
    t.est.held = s.est.held ∧
    t.pwr.held = s.pwr.held ∧
    t.evt.held = s.evt.held ∧
    t.pins.held = s.pins.held := by
  have e := Host.Outcome.next.inj h
  subst e
  simp [id @sealClose_keep, id @settle_keep]
  repeat' split
  all_goals simp [id @sealClose_keep, id @settle_keep]

theorem sealCheck_keep (isOpen : Bool) (s : State) :
    (sealCheck isOpen s).sys = s.sys ∧
    (sealCheck isOpen s).img = s.img ∧
    (sealCheck isOpen s).cfg = s.cfg ∧
    (sealCheck isOpen s).ring = s.ring ∧
    (sealCheck isOpen s).acq = s.acq ∧
    (sealCheck isOpen s).cur = s.cur ∧
    (sealCheck isOpen s).husk = s.husk ∧
    (sealCheck isOpen s).drv = s.drv ∧
    (sealCheck isOpen s).krn = s.krn ∧
    (sealCheck isOpen s).est = s.est ∧
    (sealCheck isOpen s).win = s.win ∧
    (sealCheck isOpen s).pairs = s.pairs ∧
    (sealCheck isOpen s).time = s.time ∧
    (sealCheck isOpen s).therm = s.therm ∧
    (sealCheck isOpen s).ledg = s.ledg ∧
    (sealCheck isOpen s).tally = s.tally ∧
    (sealCheck isOpen s).host = s.host ∧
    (sealCheck isOpen s).pwr = s.pwr ∧
    (sealCheck isOpen s).bist = s.bist ∧
    (sealCheck isOpen s).pins = s.pins ∧
    (sealCheck isOpen s).freeIx = s.freeIx ∧
    (sealCheck isOpen s).pending = s.pending ∧
    (sealCheck isOpen s).sec.mid = s.sec.mid ∧
    (sealCheck isOpen s).sec.devKey = s.sec.devKey ∧
    (sealCheck isOpen s).recd.held = s.recd.held ∧
    (sealCheck isOpen s).evt.held = s.evt.held := by
  unfold sealCheck
  repeat' split
  all_goals simp [id @sealBreak_keep, id @sealClose_keep]

theorem keyLoad_keep (body : List Byte) (s : State) :
    (keyLoad body s).sys = s.sys ∧
    (keyLoad body s).img = s.img ∧
    (keyLoad body s).cfg = s.cfg ∧
    (keyLoad body s).ring = s.ring ∧
    (keyLoad body s).acq = s.acq ∧
    (keyLoad body s).cur = s.cur ∧
    (keyLoad body s).husk = s.husk ∧
    (keyLoad body s).drv = s.drv ∧
    (keyLoad body s).krn = s.krn ∧
    (keyLoad body s).est = s.est ∧
    (keyLoad body s).win = s.win ∧
    (keyLoad body s).pairs = s.pairs ∧
    (keyLoad body s).time = s.time ∧
    (keyLoad body s).therm = s.therm ∧
    (keyLoad body s).ledg = s.ledg ∧
    (keyLoad body s).tally = s.tally ∧
    (keyLoad body s).host = s.host ∧
    (keyLoad body s).sec = s.sec ∧
    (keyLoad body s).pwr = s.pwr ∧
    (keyLoad body s).bist = s.bist ∧
    (keyLoad body s).pins = s.pins ∧
    (keyLoad body s).freeIx = s.freeIx ∧
    (keyLoad body s).pending = s.pending ∧
    (keyLoad body s).recd.held = s.recd.held ∧
    (keyLoad body s).evt.held = s.evt.held := by
  simp [keyLoad, id @emit_keep]

theorem keyRegionLost_keep (s : State) :
    (keyRegionLost s).sys = s.sys ∧
    (keyRegionLost s).img = s.img ∧
    (keyRegionLost s).cfg = s.cfg ∧
    (keyRegionLost s).ring = s.ring ∧
    (keyRegionLost s).acq = s.acq ∧
    (keyRegionLost s).cur = s.cur ∧
    (keyRegionLost s).husk = s.husk ∧
    (keyRegionLost s).drv = s.drv ∧
    (keyRegionLost s).krn = s.krn ∧
    (keyRegionLost s).est = s.est ∧
    (keyRegionLost s).win = s.win ∧
    (keyRegionLost s).pairs = s.pairs ∧
    (keyRegionLost s).time = s.time ∧
    (keyRegionLost s).therm = s.therm ∧
    (keyRegionLost s).ledg = s.ledg ∧
    (keyRegionLost s).tally = s.tally ∧
    (keyRegionLost s).host = s.host ∧
    (keyRegionLost s).pwr = s.pwr ∧
    (keyRegionLost s).bist = s.bist ∧
    (keyRegionLost s).pins = s.pins ∧
    (keyRegionLost s).freeIx = s.freeIx ∧
    (keyRegionLost s).pending = s.pending ∧
    (keyRegionLost s).sec.mid = s.sec.mid ∧
    (keyRegionLost s).sec.devKey = s.sec.devKey ∧
    (keyRegionLost s).recd.held = s.recd.held ∧
    (keyRegionLost s).evt.held = s.evt.held := by
  simp [keyRegionLost, id @emit_keep]

theorem adoptOne_keep (i : Nat) (s : State) :
    (adoptOne i s).sys = s.sys ∧
    (adoptOne i s).img = s.img ∧
    (adoptOne i s).cfg = s.cfg ∧
    (adoptOne i s).ring = s.ring ∧
    (adoptOne i s).acq = s.acq ∧
    (adoptOne i s).cur = s.cur ∧
    (adoptOne i s).husk = s.husk ∧
    (adoptOne i s).drv = s.drv ∧
    (adoptOne i s).est = s.est ∧
    (adoptOne i s).pairs = s.pairs ∧
    (adoptOne i s).time = s.time ∧
    (adoptOne i s).therm = s.therm ∧
    (adoptOne i s).tally = s.tally ∧
    (adoptOne i s).recd = s.recd ∧
    (adoptOne i s).host = s.host ∧
    (adoptOne i s).pwr = s.pwr ∧
    (adoptOne i s).bist = s.bist ∧
    (adoptOne i s).evt = s.evt ∧
    (adoptOne i s).pins = s.pins ∧
    (adoptOne i s).freeIx = s.freeIx ∧
    (adoptOne i s).pending = s.pending ∧
    (adoptOne i s).sec.mid = s.sec.mid ∧
    (adoptOne i s).sec.devKey = s.sec.devKey := by
  simp only [adoptOne]
  repeat' split
  all_goals simp [id @podAsk_keep]

theorem secAdopt_keep (m : Nat) (s : State) :
    (secAdopt m s).sys = s.sys ∧
    (secAdopt m s).img = s.img ∧
    (secAdopt m s).cfg = s.cfg ∧
    (secAdopt m s).ring = s.ring ∧
    (secAdopt m s).acq = s.acq ∧
    (secAdopt m s).cur = s.cur ∧
    (secAdopt m s).husk = s.husk ∧
    (secAdopt m s).drv = s.drv ∧
    (secAdopt m s).est = s.est ∧
    (secAdopt m s).pairs = s.pairs ∧
    (secAdopt m s).time = s.time ∧
    (secAdopt m s).therm = s.therm ∧
    (secAdopt m s).tally = s.tally ∧
    (secAdopt m s).recd = s.recd ∧
    (secAdopt m s).host = s.host ∧
    (secAdopt m s).pwr = s.pwr ∧
    (secAdopt m s).bist = s.bist ∧
    (secAdopt m s).evt = s.evt ∧
    (secAdopt m s).pins = s.pins ∧
    (secAdopt m s).freeIx = s.freeIx ∧
    (secAdopt m s).pending = s.pending ∧
    (secAdopt m s).sec.mid = s.sec.mid ∧
    (secAdopt m s).sec.devKey = s.sec.devKey := by
  simp [secAdopt, id @adoptOne_keep]

end Sys2Proof.Machine
end

