-- ==== Sys2Proof/Laws/KeepCheck.lean ====
section
/-! SUPPORT. What the operations of Machine/Check.lean leave unchanged. -/

namespace Sys2Proof.Machine

theorem setSlot_keep (x : ImgSrc) (v : Slot) (s : State) :
    (setSlot x v s).sys = s.sys ∧
    (setSlot x v s).cfg = s.cfg ∧
    (setSlot x v s).ring = s.ring ∧
    (setSlot x v s).acq = s.acq ∧
    (setSlot x v s).cur = s.cur ∧
    (setSlot x v s).husk = s.husk ∧
    (setSlot x v s).drv = s.drv ∧
    (setSlot x v s).krn = s.krn ∧
    (setSlot x v s).est = s.est ∧
    (setSlot x v s).win = s.win ∧
    (setSlot x v s).pairs = s.pairs ∧
    (setSlot x v s).time = s.time ∧
    (setSlot x v s).therm = s.therm ∧
    (setSlot x v s).nv = s.nv ∧
    (setSlot x v s).ledg = s.ledg ∧
    (setSlot x v s).tally = s.tally ∧
    (setSlot x v s).recd = s.recd ∧
    (setSlot x v s).host = s.host ∧
    (setSlot x v s).sec = s.sec ∧
    (setSlot x v s).pwr = s.pwr ∧
    (setSlot x v s).bist = s.bist ∧
    (setSlot x v s).evt = s.evt ∧
    (setSlot x v s).pins = s.pins ∧
    (setSlot x v s).freeIx = s.freeIx ∧
    (setSlot x v s).pending = s.pending := by
  simp [setSlot]

end Sys2Proof.Machine
end

