-- ==== Sys2Proof/Laws/KeepOperands.lean ====
section
/-! SUPPORT. What the operations of Machine/Operands.lean leave unchanged. -/

namespace Sys2Proof.Machine

theorem countReply_keep (r : Reply) (s : State) :
    (countReply r s).sys = s.sys ∧
    (countReply r s).img = s.img ∧
    (countReply r s).cfg = s.cfg ∧
    (countReply r s).ring = s.ring ∧
    (countReply r s).acq = s.acq ∧
    (countReply r s).cur = s.cur ∧
    (countReply r s).husk = s.husk ∧
    (countReply r s).drv = s.drv ∧
    (countReply r s).krn = s.krn ∧
    (countReply r s).est = s.est ∧
    (countReply r s).win = s.win ∧
    (countReply r s).pairs = s.pairs ∧
    (countReply r s).time = s.time ∧
    (countReply r s).therm = s.therm ∧
    (countReply r s).nv = s.nv ∧
    (countReply r s).ledg = s.ledg ∧
    (countReply r s).tally = s.tally ∧
    (countReply r s).recd = s.recd ∧
    (countReply r s).sec = s.sec ∧
    (countReply r s).pwr = s.pwr ∧
    (countReply r s).bist = s.bist ∧
    (countReply r s).evt = s.evt ∧
    (countReply r s).pins = s.pins ∧
    (countReply r s).freeIx = s.freeIx ∧
    (countReply r s).pending = s.pending := by
  unfold countReply
  repeat' split
  all_goals simp

theorem noteAsk_keep (op : Nat) (h : ReqHdr) (s : State) :
    (noteAsk op h s).sys = s.sys ∧
    (noteAsk op h s).img = s.img ∧
    (noteAsk op h s).cfg = s.cfg ∧
    (noteAsk op h s).ring = s.ring ∧
    (noteAsk op h s).acq = s.acq ∧
    (noteAsk op h s).cur = s.cur ∧
    (noteAsk op h s).husk = s.husk ∧
    (noteAsk op h s).drv = s.drv ∧
    (noteAsk op h s).krn = s.krn ∧
    (noteAsk op h s).est = s.est ∧
    (noteAsk op h s).win = s.win ∧
    (noteAsk op h s).pairs = s.pairs ∧
    (noteAsk op h s).time = s.time ∧
    (noteAsk op h s).therm = s.therm ∧
    (noteAsk op h s).nv = s.nv ∧
    (noteAsk op h s).ledg = s.ledg ∧
    (noteAsk op h s).tally = s.tally ∧
    (noteAsk op h s).recd = s.recd ∧
    (noteAsk op h s).sec = s.sec ∧
    (noteAsk op h s).pwr = s.pwr ∧
    (noteAsk op h s).bist = s.bist ∧
    (noteAsk op h s).evt = s.evt ∧
    (noteAsk op h s).pins = s.pins ∧
    (noteAsk op h s).freeIx = s.freeIx ∧
    (noteAsk op h s).pending = s.pending := by
  unfold noteAsk
  repeat' split
  all_goals simp [id @modPort_keep]

theorem answer_keep (op : Nat) (p : Port) (tag : BitVec 16) (r : Reply) (s : State) :
    (answer op p tag r s).sys = s.sys ∧
    (answer op p tag r s).img = s.img ∧
    (answer op p tag r s).cfg = s.cfg ∧
    (answer op p tag r s).ring = s.ring ∧
    (answer op p tag r s).acq = s.acq ∧
    (answer op p tag r s).cur = s.cur ∧
    (answer op p tag r s).husk = s.husk ∧
    (answer op p tag r s).drv = s.drv ∧
    (answer op p tag r s).krn = s.krn ∧
    (answer op p tag r s).est = s.est ∧
    (answer op p tag r s).win = s.win ∧
    (answer op p tag r s).pairs = s.pairs ∧
    (answer op p tag r s).time = s.time ∧
    (answer op p tag r s).therm = s.therm ∧
    (answer op p tag r s).nv = s.nv ∧
    (answer op p tag r s).ledg = s.ledg ∧
    (answer op p tag r s).tally = s.tally ∧
    (answer op p tag r s).recd = s.recd ∧
    (answer op p tag r s).sec = s.sec ∧
    (answer op p tag r s).bist = s.bist ∧
    (answer op p tag r s).evt = s.evt ∧
    (answer op p tag r s).freeIx = s.freeIx ∧
    (answer op p tag r s).pending = s.pending ∧
    (answer op p tag r s).pwr.held = s.pwr.held ∧
    (answer op p tag r s).pins.held = s.pins.held := by
  unfold answer
  repeat' split
  all_goals simp [id @countReply_keep, id @modPort_keep, id @settlePins_keep, id @txPush_keep]

theorem refuse_keep (st : Nat) (s : State) :
    (refuse st s).1.sys = s.sys ∧
    (refuse st s).1.img = s.img ∧
    (refuse st s).1.cfg = s.cfg ∧
    (refuse st s).1.ring = s.ring ∧
    (refuse st s).1.acq = s.acq ∧
    (refuse st s).1.cur = s.cur ∧
    (refuse st s).1.husk = s.husk ∧
    (refuse st s).1.drv = s.drv ∧
    (refuse st s).1.krn = s.krn ∧
    (refuse st s).1.est = s.est ∧
    (refuse st s).1.win = s.win ∧
    (refuse st s).1.pairs = s.pairs ∧
    (refuse st s).1.time = s.time ∧
    (refuse st s).1.therm = s.therm ∧
    (refuse st s).1.nv = s.nv ∧
    (refuse st s).1.ledg = s.ledg ∧
    (refuse st s).1.tally = s.tally ∧
    (refuse st s).1.recd = s.recd ∧
    (refuse st s).1.host = s.host ∧
    (refuse st s).1.sec = s.sec ∧
    (refuse st s).1.pwr = s.pwr ∧
    (refuse st s).1.bist = s.bist ∧
    (refuse st s).1.evt = s.evt ∧
    (refuse st s).1.pins = s.pins ∧
    (refuse st s).1.freeIx = s.freeIx ∧
    (refuse st s).1.pending = s.pending := by
  simp [refuse]

theorem accept_keep (s : State) :
    (accept s).1.sys = s.sys ∧
    (accept s).1.img = s.img ∧
    (accept s).1.cfg = s.cfg ∧
    (accept s).1.ring = s.ring ∧
    (accept s).1.acq = s.acq ∧
    (accept s).1.cur = s.cur ∧
    (accept s).1.husk = s.husk ∧
    (accept s).1.drv = s.drv ∧
    (accept s).1.krn = s.krn ∧
    (accept s).1.est = s.est ∧
    (accept s).1.win = s.win ∧
    (accept s).1.pairs = s.pairs ∧
    (accept s).1.time = s.time ∧
    (accept s).1.therm = s.therm ∧
    (accept s).1.nv = s.nv ∧
    (accept s).1.ledg = s.ledg ∧
    (accept s).1.tally = s.tally ∧
    (accept s).1.recd = s.recd ∧
    (accept s).1.host = s.host ∧
    (accept s).1.sec = s.sec ∧
    (accept s).1.pwr = s.pwr ∧
    (accept s).1.bist = s.bist ∧
    (accept s).1.evt = s.evt ∧
    (accept s).1.pins = s.pins ∧
    (accept s).1.freeIx = s.freeIx ∧
    (accept s).1.pending = s.pending := by
  simp [accept]

theorem dropPart_keep (op : Nat) (h : ReqHdr) (s : State) :
    (dropPart op h s).sys = s.sys ∧
    (dropPart op h s).img = s.img ∧
    (dropPart op h s).cfg = s.cfg ∧
    (dropPart op h s).ring = s.ring ∧
    (dropPart op h s).acq = s.acq ∧
    (dropPart op h s).cur = s.cur ∧
    (dropPart op h s).husk = s.husk ∧
    (dropPart op h s).drv = s.drv ∧
    (dropPart op h s).krn = s.krn ∧
    (dropPart op h s).est = s.est ∧
    (dropPart op h s).win = s.win ∧
    (dropPart op h s).pairs = s.pairs ∧
    (dropPart op h s).time = s.time ∧
    (dropPart op h s).therm = s.therm ∧
    (dropPart op h s).nv = s.nv ∧
    (dropPart op h s).ledg = s.ledg ∧
    (dropPart op h s).tally = s.tally ∧
    (dropPart op h s).recd = s.recd ∧
    (dropPart op h s).sec = s.sec ∧
    (dropPart op h s).pwr = s.pwr ∧
    (dropPart op h s).bist = s.bist ∧
    (dropPart op h s).evt = s.evt ∧
    (dropPart op h s).pins = s.pins ∧
    (dropPart op h s).freeIx = s.freeIx ∧
    (dropPart op h s).pending = s.pending := by
  simp [dropPart, id @modPort_keep]

@[simp] theorem hostExec_img (op : Nat) (h : ReqHdr) (f : State → State × Reply) (s : State)
    (hf : ∀ t, (f t).1.img = t.img) : (hostExec op h f s).img = s.img := by
  unfold hostExec
  dsimp only
  repeat' split
  all_goals simp [hf, id @answer_keep, id @noteAsk_keep, id @settle_keep, id @settlePins_keep, id @txPush_keep]

@[simp] theorem hostExec_cfg (op : Nat) (h : ReqHdr) (f : State → State × Reply) (s : State)
    (hf : ∀ t, (f t).1.cfg = t.cfg) : (hostExec op h f s).cfg = s.cfg := by
  unfold hostExec
  dsimp only
  repeat' split
  all_goals simp [hf, id @answer_keep, id @noteAsk_keep, id @settle_keep, id @settlePins_keep, id @txPush_keep]

@[simp] theorem hostExec_acq (op : Nat) (h : ReqHdr) (f : State → State × Reply) (s : State)
    (hf : ∀ t, (f t).1.acq = t.acq) : (hostExec op h f s).acq = s.acq := by
  unfold hostExec
  dsimp only
  repeat' split
  all_goals simp [hf, id @answer_keep, id @noteAsk_keep, id @settle_keep, id @settlePins_keep, id @txPush_keep]

@[simp] theorem hostExec_cur (op : Nat) (h : ReqHdr) (f : State → State × Reply) (s : State)
    (hf : ∀ t, (f t).1.cur = t.cur) : (hostExec op h f s).cur = s.cur := by
  unfold hostExec
  dsimp only
  repeat' split
  all_goals simp [hf, id @answer_keep, id @noteAsk_keep, id @settle_keep, id @settlePins_keep, id @txPush_keep]

@[simp] theorem hostExec_krn (op : Nat) (h : ReqHdr) (f : State → State × Reply) (s : State)
    (hf : ∀ t, (f t).1.krn = t.krn) : (hostExec op h f s).krn = s.krn := by
  unfold hostExec
  dsimp only
  repeat' split
  all_goals simp [hf, id @answer_keep, id @noteAsk_keep, id @settle_keep, id @settlePins_keep, id @txPush_keep]

@[simp] theorem hostExec_win (op : Nat) (h : ReqHdr) (f : State → State × Reply) (s : State)
    (hf : ∀ t, (f t).1.win = t.win) : (hostExec op h f s).win = s.win := by
  unfold hostExec
  dsimp only
  repeat' split
  all_goals simp [hf, id @answer_keep, id @noteAsk_keep, id @settle_keep, id @settlePins_keep, id @txPush_keep]

@[simp] theorem hostExec_pairs (op : Nat) (h : ReqHdr) (f : State → State × Reply) (s : State)
    (hf : ∀ t, (f t).1.pairs = t.pairs) : (hostExec op h f s).pairs = s.pairs := by
  unfold hostExec
  dsimp only
  repeat' split
  all_goals simp [hf, id @answer_keep, id @noteAsk_keep, id @settle_keep, id @settlePins_keep, id @txPush_keep]

@[simp] theorem hostExec_time (op : Nat) (h : ReqHdr) (f : State → State × Reply) (s : State)
    (hf : ∀ t, (f t).1.time = t.time) : (hostExec op h f s).time = s.time := by
  unfold hostExec
  dsimp only
  repeat' split
  all_goals simp [hf, id @answer_keep, id @noteAsk_keep, id @settle_keep, id @settlePins_keep, id @txPush_keep]

@[simp] theorem hostExec_therm (op : Nat) (h : ReqHdr) (f : State → State × Reply) (s : State)
    (hf : ∀ t, (f t).1.therm = t.therm) : (hostExec op h f s).therm = s.therm := by
  unfold hostExec
  dsimp only
  repeat' split
  all_goals simp [hf, id @answer_keep, id @noteAsk_keep, id @settle_keep, id @settlePins_keep, id @txPush_keep]

@[simp] theorem hostExec_nv (op : Nat) (h : ReqHdr) (f : State → State × Reply) (s : State)
    (hf : ∀ t, (f t).1.nv = t.nv) : (hostExec op h f s).nv = s.nv := by
  unfold hostExec
  dsimp only
  repeat' split
  all_goals simp [hf, id @answer_keep, id @noteAsk_keep, id @settle_keep, id @settlePins_keep, id @txPush_keep]

@[simp] theorem hostExec_ledg (op : Nat) (h : ReqHdr) (f : State → State × Reply) (s : State)
    (hf : ∀ t, (f t).1.ledg = t.ledg) : (hostExec op h f s).ledg = s.ledg := by
  unfold hostExec
  dsimp only
  repeat' split
  all_goals simp [hf, id @answer_keep, id @noteAsk_keep, id @settle_keep, id @settlePins_keep, id @txPush_keep]

@[simp] theorem hostExec_tally (op : Nat) (h : ReqHdr) (f : State → State × Reply) (s : State)
    (hf : ∀ t, (f t).1.tally = t.tally) : (hostExec op h f s).tally = s.tally := by
  unfold hostExec
  dsimp only
  repeat' split
  all_goals simp [hf, id @answer_keep, id @noteAsk_keep, id @settle_keep, id @settlePins_keep, id @txPush_keep]

@[simp] theorem hostExec_sec (op : Nat) (h : ReqHdr) (f : State → State × Reply) (s : State)
    (hf : ∀ t, (f t).1.sec = t.sec) : (hostExec op h f s).sec = s.sec := by
  unfold hostExec
  dsimp only
  repeat' split
  all_goals simp [hf, id @answer_keep, id @noteAsk_keep, id @settle_keep, id @settlePins_keep, id @txPush_keep]

@[simp] theorem hostExec_bist (op : Nat) (h : ReqHdr) (f : State → State × Reply) (s : State)
    (hf : ∀ t, (f t).1.bist = t.bist) : (hostExec op h f s).bist = s.bist := by
  unfold hostExec
  dsimp only
  repeat' split
  all_goals simp [hf, id @answer_keep, id @noteAsk_keep, id @settle_keep, id @settlePins_keep, id @txPush_keep]

@[simp] theorem hostExec_freeIx (op : Nat) (h : ReqHdr) (f : State → State × Reply) (s : State)
    (hf : ∀ t, (f t).1.freeIx = t.freeIx) : (hostExec op h f s).freeIx = s.freeIx := by
  unfold hostExec
  dsimp only
  repeat' split
  all_goals simp [hf, id @answer_keep, id @noteAsk_keep, id @settle_keep, id @settlePins_keep, id @txPush_keep]

@[simp] theorem hostExec_pending (op : Nat) (h : ReqHdr) (f : State → State × Reply) (s : State)
    (hf : ∀ t, (f t).1.pending = t.pending) : (hostExec op h f s).pending = s.pending := by
  unfold hostExec
  dsimp only
  repeat' split
  all_goals simp [hf, id @answer_keep, id @noteAsk_keep, id @settle_keep, id @settlePins_keep, id @txPush_keep]

@[simp] theorem hostExec_sys_held (op : Nat) (h : ReqHdr) (f : State → State × Reply) (s : State)
    (hf : ∀ t, (f t).1.sys.held = t.sys.held) : (hostExec op h f s).sys.held = s.sys.held := by
  unfold hostExec
  dsimp only
  repeat' split
  all_goals simp [hf, id @answer_keep, id @noteAsk_keep, id @settle_keep, id @settlePins_keep, id @txPush_keep]

@[simp] theorem hostExec_husk_held (op : Nat) (h : ReqHdr) (f : State → State × Reply) (s : State)
    (hf : ∀ t, (f t).1.husk.held = t.husk.held) : (hostExec op h f s).husk.held = s.husk.held := by
  unfold hostExec
  dsimp only
  repeat' split
  all_goals simp [hf, id @answer_keep, id @noteAsk_keep, id @settle_keep, id @settlePins_keep, id @txPush_keep]

@[simp] theorem hostExec_drv_held (op : Nat) (h : ReqHdr) (f : State → State × Reply) (s : State)
    (hf : ∀ t, (f t).1.drv.held = t.drv.held) : (hostExec op h f s).drv.held = s.drv.held := by
  unfold hostExec
  dsimp only
  repeat' split
  all_goals simp [hf, id @answer_keep, id @noteAsk_keep, id @settle_keep, id @settlePins_keep, id @txPush_keep]

@[simp] theorem hostExec_recd_held (op : Nat) (h : ReqHdr) (f : State → State × Reply) (s : State)
    (hf : ∀ t, (f t).1.recd.held = t.recd.held) : (hostExec op h f s).recd.held = s.recd.held := by
  unfold hostExec
  dsimp only
  repeat' split
  all_goals simp [hf, id @answer_keep, id @noteAsk_keep, id @settle_keep, id @settlePins_keep, id @txPush_keep]

@[simp] theorem hostExec_est_held (op : Nat) (h : ReqHdr) (f : State → State × Reply) (s : State)
    (hf : ∀ t, (f t).1.est.held = t.est.held) : (hostExec op h f s).est.held = s.est.held := by
  unfold hostExec
  dsimp only
  repeat' split
  all_goals simp [hf, id @answer_keep, id @noteAsk_keep, id @settle_keep, id @settlePins_keep, id @txPush_keep]

@[simp] theorem hostExec_pwr_held (op : Nat) (h : ReqHdr) (f : State → State × Reply) (s : State)
    (hf : ∀ t, (f t).1.pwr.held = t.pwr.held) : (hostExec op h f s).pwr.held = s.pwr.held := by
  unfold hostExec
  dsimp only
  repeat' split
  all_goals simp [hf, id @answer_keep, id @noteAsk_keep, id @settle_keep, id @settlePins_keep, id @txPush_keep]

@[simp] theorem hostExec_evt_held (op : Nat) (h : ReqHdr) (f : State → State × Reply) (s : State)
    (hf : ∀ t, (f t).1.evt.held = t.evt.held) : (hostExec op h f s).evt.held = s.evt.held := by
  unfold hostExec
  dsimp only
  repeat' split
  all_goals simp [hf, id @answer_keep, id @noteAsk_keep, id @settle_keep, id @settlePins_keep, id @txPush_keep]

@[simp] theorem hostExec_pins_held (op : Nat) (h : ReqHdr) (f : State → State × Reply) (s : State)
    (hf : ∀ t, (f t).1.pins.held = t.pins.held) : (hostExec op h f s).pins.held = s.pins.held := by
  unfold hostExec
  dsimp only
  repeat' split
  all_goals simp [hf, id @answer_keep, id @noteAsk_keep, id @settle_keep, id @settlePins_keep, id @txPush_keep]

@[simp] theorem hostExec_sec_mid (op : Nat) (h : ReqHdr) (f : State → State × Reply) (s : State)
    (hf : ∀ t, (f t).1.sec.mid = t.sec.mid) : (hostExec op h f s).sec.mid = s.sec.mid := by
  unfold hostExec
  dsimp only
  repeat' split
  all_goals simp [hf, id @answer_keep, id @noteAsk_keep, id @settle_keep, id @settlePins_keep, id @txPush_keep]

@[simp] theorem hostExec_sec_devKey (op : Nat) (h : ReqHdr) (f : State → State × Reply) (s : State)
    (hf : ∀ t, (f t).1.sec.devKey = t.sec.devKey) : (hostExec op h f s).sec.devKey = s.sec.devKey := by
  unfold hostExec
  dsimp only
  repeat' split
  all_goals simp [hf, id @answer_keep, id @noteAsk_keep, id @settle_keep, id @settlePins_keep, id @txPush_keep]

theorem noteFrame_keep (h : ReqHdr) (s : State) :
    (noteFrame h s).sys = s.sys ∧
    (noteFrame h s).img = s.img ∧
    (noteFrame h s).cfg = s.cfg ∧
    (noteFrame h s).ring = s.ring ∧
    (noteFrame h s).acq = s.acq ∧
    (noteFrame h s).cur = s.cur ∧
    (noteFrame h s).husk = s.husk ∧
    (noteFrame h s).drv = s.drv ∧
    (noteFrame h s).krn = s.krn ∧
    (noteFrame h s).est = s.est ∧
    (noteFrame h s).win = s.win ∧
    (noteFrame h s).pairs = s.pairs ∧
    (noteFrame h s).time = s.time ∧
    (noteFrame h s).therm = s.therm ∧
    (noteFrame h s).nv = s.nv ∧
    (noteFrame h s).ledg = s.ledg ∧
    (noteFrame h s).tally = s.tally ∧
    (noteFrame h s).recd = s.recd ∧
    (noteFrame h s).sec = s.sec ∧
    (noteFrame h s).pwr = s.pwr ∧
    (noteFrame h s).bist = s.bist ∧
    (noteFrame h s).evt = s.evt ∧
    (noteFrame h s).pins = s.pins ∧
    (noteFrame h s).freeIx = s.freeIx ∧
    (noteFrame h s).pending = s.pending := by
  simp [noteFrame]

theorem holdSeg_keep (op : Nat) (h : ReqHdr) (s : State) :
    (holdSeg op h s).sys = s.sys ∧
    (holdSeg op h s).img = s.img ∧
    (holdSeg op h s).cfg = s.cfg ∧
    (holdSeg op h s).ring = s.ring ∧
    (holdSeg op h s).acq = s.acq ∧
    (holdSeg op h s).cur = s.cur ∧
    (holdSeg op h s).husk = s.husk ∧
    (holdSeg op h s).drv = s.drv ∧
    (holdSeg op h s).krn = s.krn ∧
    (holdSeg op h s).est = s.est ∧
    (holdSeg op h s).win = s.win ∧
    (holdSeg op h s).pairs = s.pairs ∧
    (holdSeg op h s).time = s.time ∧
    (holdSeg op h s).therm = s.therm ∧
    (holdSeg op h s).nv = s.nv ∧
    (holdSeg op h s).ledg = s.ledg ∧
    (holdSeg op h s).tally = s.tally ∧
    (holdSeg op h s).recd = s.recd ∧
    (holdSeg op h s).sec = s.sec ∧
    (holdSeg op h s).pwr = s.pwr ∧
    (holdSeg op h s).bist = s.bist ∧
    (holdSeg op h s).evt = s.evt ∧
    (holdSeg op h s).pins = s.pins ∧
    (holdSeg op h s).freeIx = s.freeIx ∧
    (holdSeg op h s).pending = s.pending := by
  simp [holdSeg, id @dropPart_keep, id @modPort_keep]

@[simp] theorem hostFrame_img (op : Nat) (h : ReqHdr) (f : State → State × Reply) (s : State)
    (hf : ∀ t, (f t).1.img = t.img) : (hostFrame op h f s).img = s.img := by
  unfold hostFrame
  repeat' split
  all_goals simp [hf, id @answer_keep, id @dropPart_keep, id @holdSeg_keep, id @noteAsk_keep, id @noteFrame_keep]

@[simp] theorem hostFrame_cfg (op : Nat) (h : ReqHdr) (f : State → State × Reply) (s : State)
    (hf : ∀ t, (f t).1.cfg = t.cfg) : (hostFrame op h f s).cfg = s.cfg := by
  unfold hostFrame
  repeat' split
  all_goals simp [hf, id @answer_keep, id @dropPart_keep, id @holdSeg_keep, id @noteAsk_keep, id @noteFrame_keep]

@[simp] theorem hostFrame_acq (op : Nat) (h : ReqHdr) (f : State → State × Reply) (s : State)
    (hf : ∀ t, (f t).1.acq = t.acq) : (hostFrame op h f s).acq = s.acq := by
  unfold hostFrame
  repeat' split
  all_goals simp [hf, id @answer_keep, id @dropPart_keep, id @holdSeg_keep, id @noteAsk_keep, id @noteFrame_keep]

@[simp] theorem hostFrame_cur (op : Nat) (h : ReqHdr) (f : State → State × Reply) (s : State)
    (hf : ∀ t, (f t).1.cur = t.cur) : (hostFrame op h f s).cur = s.cur := by
  unfold hostFrame
  repeat' split
  all_goals simp [hf, id @answer_keep, id @dropPart_keep, id @holdSeg_keep, id @noteAsk_keep, id @noteFrame_keep]

@[simp] theorem hostFrame_krn (op : Nat) (h : ReqHdr) (f : State → State × Reply) (s : State)
    (hf : ∀ t, (f t).1.krn = t.krn) : (hostFrame op h f s).krn = s.krn := by
  unfold hostFrame
  repeat' split
  all_goals simp [hf, id @answer_keep, id @dropPart_keep, id @holdSeg_keep, id @noteAsk_keep, id @noteFrame_keep]

@[simp] theorem hostFrame_win (op : Nat) (h : ReqHdr) (f : State → State × Reply) (s : State)
    (hf : ∀ t, (f t).1.win = t.win) : (hostFrame op h f s).win = s.win := by
  unfold hostFrame
  repeat' split
  all_goals simp [hf, id @answer_keep, id @dropPart_keep, id @holdSeg_keep, id @noteAsk_keep, id @noteFrame_keep]

@[simp] theorem hostFrame_pairs (op : Nat) (h : ReqHdr) (f : State → State × Reply) (s : State)
    (hf : ∀ t, (f t).1.pairs = t.pairs) : (hostFrame op h f s).pairs = s.pairs := by
  unfold hostFrame
  repeat' split
  all_goals simp [hf, id @answer_keep, id @dropPart_keep, id @holdSeg_keep, id @noteAsk_keep, id @noteFrame_keep]

@[simp] theorem hostFrame_time (op : Nat) (h : ReqHdr) (f : State → State × Reply) (s : State)
    (hf : ∀ t, (f t).1.time = t.time) : (hostFrame op h f s).time = s.time := by
  unfold hostFrame
  repeat' split
  all_goals simp [hf, id @answer_keep, id @dropPart_keep, id @holdSeg_keep, id @noteAsk_keep, id @noteFrame_keep]

@[simp] theorem hostFrame_therm (op : Nat) (h : ReqHdr) (f : State → State × Reply) (s : State)
    (hf : ∀ t, (f t).1.therm = t.therm) : (hostFrame op h f s).therm = s.therm := by
  unfold hostFrame
  repeat' split
  all_goals simp [hf, id @answer_keep, id @dropPart_keep, id @holdSeg_keep, id @noteAsk_keep, id @noteFrame_keep]

@[simp] theorem hostFrame_nv (op : Nat) (h : ReqHdr) (f : State → State × Reply) (s : State)
    (hf : ∀ t, (f t).1.nv = t.nv) : (hostFrame op h f s).nv = s.nv := by
  unfold hostFrame
  repeat' split
  all_goals simp [hf, id @answer_keep, id @dropPart_keep, id @holdSeg_keep, id @noteAsk_keep, id @noteFrame_keep]

@[simp] theorem hostFrame_ledg (op : Nat) (h : ReqHdr) (f : State → State × Reply) (s : State)
    (hf : ∀ t, (f t).1.ledg = t.ledg) : (hostFrame op h f s).ledg = s.ledg := by
  unfold hostFrame
  repeat' split
  all_goals simp [hf, id @answer_keep, id @dropPart_keep, id @holdSeg_keep, id @noteAsk_keep, id @noteFrame_keep]

@[simp] theorem hostFrame_tally (op : Nat) (h : ReqHdr) (f : State → State × Reply) (s : State)
    (hf : ∀ t, (f t).1.tally = t.tally) : (hostFrame op h f s).tally = s.tally := by
  unfold hostFrame
  repeat' split
  all_goals simp [hf, id @answer_keep, id @dropPart_keep, id @holdSeg_keep, id @noteAsk_keep, id @noteFrame_keep]

@[simp] theorem hostFrame_sec (op : Nat) (h : ReqHdr) (f : State → State × Reply) (s : State)
    (hf : ∀ t, (f t).1.sec = t.sec) : (hostFrame op h f s).sec = s.sec := by
  unfold hostFrame
  repeat' split
  all_goals simp [hf, id @answer_keep, id @dropPart_keep, id @holdSeg_keep, id @noteAsk_keep, id @noteFrame_keep]

@[simp] theorem hostFrame_bist (op : Nat) (h : ReqHdr) (f : State → State × Reply) (s : State)
    (hf : ∀ t, (f t).1.bist = t.bist) : (hostFrame op h f s).bist = s.bist := by
  unfold hostFrame
  repeat' split
  all_goals simp [hf, id @answer_keep, id @dropPart_keep, id @holdSeg_keep, id @noteAsk_keep, id @noteFrame_keep]

@[simp] theorem hostFrame_freeIx (op : Nat) (h : ReqHdr) (f : State → State × Reply) (s : State)
    (hf : ∀ t, (f t).1.freeIx = t.freeIx) : (hostFrame op h f s).freeIx = s.freeIx := by
  unfold hostFrame
  repeat' split
  all_goals simp [hf, id @answer_keep, id @dropPart_keep, id @holdSeg_keep, id @noteAsk_keep, id @noteFrame_keep]

@[simp] theorem hostFrame_pending (op : Nat) (h : ReqHdr) (f : State → State × Reply) (s : State)
    (hf : ∀ t, (f t).1.pending = t.pending) : (hostFrame op h f s).pending = s.pending := by
  unfold hostFrame
  repeat' split
  all_goals simp [hf, id @answer_keep, id @dropPart_keep, id @holdSeg_keep, id @noteAsk_keep, id @noteFrame_keep]

@[simp] theorem hostFrame_sys_held (op : Nat) (h : ReqHdr) (f : State → State × Reply) (s : State)
    (hf : ∀ t, (f t).1.sys.held = t.sys.held) : (hostFrame op h f s).sys.held = s.sys.held := by
  unfold hostFrame
  repeat' split
  all_goals simp [hf, id @answer_keep, id @dropPart_keep, id @holdSeg_keep, id @noteAsk_keep, id @noteFrame_keep]

@[simp] theorem hostFrame_husk_held (op : Nat) (h : ReqHdr) (f : State → State × Reply) (s : State)
    (hf : ∀ t, (f t).1.husk.held = t.husk.held) : (hostFrame op h f s).husk.held = s.husk.held := by
  unfold hostFrame
  repeat' split
  all_goals simp [hf, id @answer_keep, id @dropPart_keep, id @holdSeg_keep, id @noteAsk_keep, id @noteFrame_keep]

@[simp] theorem hostFrame_drv_held (op : Nat) (h : ReqHdr) (f : State → State × Reply) (s : State)
    (hf : ∀ t, (f t).1.drv.held = t.drv.held) : (hostFrame op h f s).drv.held = s.drv.held := by
  unfold hostFrame
  repeat' split
  all_goals simp [hf, id @answer_keep, id @dropPart_keep, id @holdSeg_keep, id @noteAsk_keep, id @noteFrame_keep]

@[simp] theorem hostFrame_recd_held (op : Nat) (h : ReqHdr) (f : State → State × Reply) (s : State)
    (hf : ∀ t, (f t).1.recd.held = t.recd.held) : (hostFrame op h f s).recd.held = s.recd.held := by
  unfold hostFrame
  repeat' split
  all_goals simp [hf, id @answer_keep, id @dropPart_keep, id @holdSeg_keep, id @noteAsk_keep, id @noteFrame_keep]

@[simp] theorem hostFrame_est_held (op : Nat) (h : ReqHdr) (f : State → State × Reply) (s : State)
    (hf : ∀ t, (f t).1.est.held = t.est.held) : (hostFrame op h f s).est.held = s.est.held := by
  unfold hostFrame
  repeat' split
  all_goals simp [hf, id @answer_keep, id @dropPart_keep, id @holdSeg_keep, id @noteAsk_keep, id @noteFrame_keep]

@[simp] theorem hostFrame_pwr_held (op : Nat) (h : ReqHdr) (f : State → State × Reply) (s : State)
    (hf : ∀ t, (f t).1.pwr.held = t.pwr.held) : (hostFrame op h f s).pwr.held = s.pwr.held := by
  unfold hostFrame
  repeat' split
  all_goals simp [hf, id @answer_keep, id @dropPart_keep, id @holdSeg_keep, id @noteAsk_keep, id @noteFrame_keep]

@[simp] theorem hostFrame_evt_held (op : Nat) (h : ReqHdr) (f : State → State × Reply) (s : State)
    (hf : ∀ t, (f t).1.evt.held = t.evt.held) : (hostFrame op h f s).evt.held = s.evt.held := by
  unfold hostFrame
  repeat' split
  all_goals simp [hf, id @answer_keep, id @dropPart_keep, id @holdSeg_keep, id @noteAsk_keep, id @noteFrame_keep]

@[simp] theorem hostFrame_pins_held (op : Nat) (h : ReqHdr) (f : State → State × Reply) (s : State)
    (hf : ∀ t, (f t).1.pins.held = t.pins.held) : (hostFrame op h f s).pins.held = s.pins.held := by
  unfold hostFrame
  repeat' split
  all_goals simp [hf, id @answer_keep, id @dropPart_keep, id @holdSeg_keep, id @noteAsk_keep, id @noteFrame_keep]

@[simp] theorem hostFrame_sec_mid (op : Nat) (h : ReqHdr) (f : State → State × Reply) (s : State)
    (hf : ∀ t, (f t).1.sec.mid = t.sec.mid) : (hostFrame op h f s).sec.mid = s.sec.mid := by
  unfold hostFrame
  repeat' split
  all_goals simp [hf, id @answer_keep, id @dropPart_keep, id @holdSeg_keep, id @noteAsk_keep, id @noteFrame_keep]

@[simp] theorem hostFrame_sec_devKey (op : Nat) (h : ReqHdr) (f : State → State × Reply) (s : State)
    (hf : ∀ t, (f t).1.sec.devKey = t.sec.devKey) : (hostFrame op h f s).sec.devKey = s.sec.devKey := by
  unfold hostFrame
  repeat' split
  all_goals simp [hf, id @answer_keep, id @dropPart_keep, id @holdSeg_keep, id @noteAsk_keep, id @noteFrame_keep]

@[simp] theorem hostRequest_img (op : Nat) (h : ReqHdr) (f : State → State × Reply) (s : State)
    (hf : ∀ t, (f t).1.img = t.img) : (hostRequest op h f s).img = s.img := by
  unfold hostRequest
  repeat' split
  all_goals simp [hf, id @linkNote_keep]

@[simp] theorem hostRequest_cfg (op : Nat) (h : ReqHdr) (f : State → State × Reply) (s : State)
    (hf : ∀ t, (f t).1.cfg = t.cfg) : (hostRequest op h f s).cfg = s.cfg := by
  unfold hostRequest
  repeat' split
  all_goals simp [hf, id @linkNote_keep]

@[simp] theorem hostRequest_acq (op : Nat) (h : ReqHdr) (f : State → State × Reply) (s : State)
    (hf : ∀ t, (f t).1.acq = t.acq) : (hostRequest op h f s).acq = s.acq := by
  unfold hostRequest
  repeat' split
  all_goals simp [hf, id @linkNote_keep]

@[simp] theorem hostRequest_cur (op : Nat) (h : ReqHdr) (f : State → State × Reply) (s : State)
    (hf : ∀ t, (f t).1.cur = t.cur) : (hostRequest op h f s).cur = s.cur := by
  unfold hostRequest
  repeat' split
  all_goals simp [hf, id @linkNote_keep]

@[simp] theorem hostRequest_krn (op : Nat) (h : ReqHdr) (f : State → State × Reply) (s : State)
    (hf : ∀ t, (f t).1.krn = t.krn) : (hostRequest op h f s).krn = s.krn := by
  unfold hostRequest
  repeat' split
  all_goals simp [hf, id @linkNote_keep]

@[simp] theorem hostRequest_win (op : Nat) (h : ReqHdr) (f : State → State × Reply) (s : State)
    (hf : ∀ t, (f t).1.win = t.win) : (hostRequest op h f s).win = s.win := by
  unfold hostRequest
  repeat' split
  all_goals simp [hf, id @linkNote_keep]

@[simp] theorem hostRequest_pairs (op : Nat) (h : ReqHdr) (f : State → State × Reply) (s : State)
    (hf : ∀ t, (f t).1.pairs = t.pairs) : (hostRequest op h f s).pairs = s.pairs := by
  unfold hostRequest
  repeat' split
  all_goals simp [hf, id @linkNote_keep]

@[simp] theorem hostRequest_time (op : Nat) (h : ReqHdr) (f : State → State × Reply) (s : State)
    (hf : ∀ t, (f t).1.time = t.time) : (hostRequest op h f s).time = s.time := by
  unfold hostRequest
  repeat' split
  all_goals simp [hf, id @linkNote_keep]

@[simp] theorem hostRequest_therm (op : Nat) (h : ReqHdr) (f : State → State × Reply) (s : State)
    (hf : ∀ t, (f t).1.therm = t.therm) : (hostRequest op h f s).therm = s.therm := by
  unfold hostRequest
  repeat' split
  all_goals simp [hf, id @linkNote_keep]

@[simp] theorem hostRequest_nv (op : Nat) (h : ReqHdr) (f : State → State × Reply) (s : State)
    (hf : ∀ t, (f t).1.nv = t.nv) : (hostRequest op h f s).nv = s.nv := by
  unfold hostRequest
  repeat' split
  all_goals simp [hf, id @linkNote_keep]

@[simp] theorem hostRequest_ledg (op : Nat) (h : ReqHdr) (f : State → State × Reply) (s : State)
    (hf : ∀ t, (f t).1.ledg = t.ledg) : (hostRequest op h f s).ledg = s.ledg := by
  unfold hostRequest
  repeat' split
  all_goals simp [hf, id @linkNote_keep]

@[simp] theorem hostRequest_tally (op : Nat) (h : ReqHdr) (f : State → State × Reply) (s : State)
    (hf : ∀ t, (f t).1.tally = t.tally) : (hostRequest op h f s).tally = s.tally := by
  unfold hostRequest
  repeat' split
  all_goals simp [hf, id @linkNote_keep]

@[simp] theorem hostRequest_sec (op : Nat) (h : ReqHdr) (f : State → State × Reply) (s : State)
    (hf : ∀ t, (f t).1.sec = t.sec) : (hostRequest op h f s).sec = s.sec := by
  unfold hostRequest
  repeat' split
  all_goals simp [hf, id @linkNote_keep]

@[simp] theorem hostRequest_bist (op : Nat) (h : ReqHdr) (f : State → State × Reply) (s : State)
    (hf : ∀ t, (f t).1.bist = t.bist) : (hostRequest op h f s).bist = s.bist := by
  unfold hostRequest
  repeat' split
  all_goals simp [hf, id @linkNote_keep]

@[simp] theorem hostRequest_freeIx (op : Nat) (h : ReqHdr) (f : State → State × Reply) (s : State)
    (hf : ∀ t, (f t).1.freeIx = t.freeIx) : (hostRequest op h f s).freeIx = s.freeIx := by
  unfold hostRequest
  repeat' split
  all_goals simp [hf, id @linkNote_keep]

@[simp] theorem hostRequest_pending (op : Nat) (h : ReqHdr) (f : State → State × Reply) (s : State)
    (hf : ∀ t, (f t).1.pending = t.pending) : (hostRequest op h f s).pending = s.pending := by
  unfold hostRequest
  repeat' split
  all_goals simp [hf, id @linkNote_keep]

@[simp] theorem hostRequest_sys_held (op : Nat) (h : ReqHdr) (f : State → State × Reply) (s : State)
    (hf : ∀ t, (f t).1.sys.held = t.sys.held) : (hostRequest op h f s).sys.held = s.sys.held := by
  unfold hostRequest
  repeat' split
  all_goals simp [hf, id @linkNote_keep]

@[simp] theorem hostRequest_husk_held (op : Nat) (h : ReqHdr) (f : State → State × Reply) (s : State)
    (hf : ∀ t, (f t).1.husk.held = t.husk.held) : (hostRequest op h f s).husk.held = s.husk.held := by
  unfold hostRequest
  repeat' split
  all_goals simp [hf, id @linkNote_keep]

@[simp] theorem hostRequest_drv_held (op : Nat) (h : ReqHdr) (f : State → State × Reply) (s : State)
    (hf : ∀ t, (f t).1.drv.held = t.drv.held) : (hostRequest op h f s).drv.held = s.drv.held := by
  unfold hostRequest
  repeat' split
  all_goals simp [hf, id @linkNote_keep]

@[simp] theorem hostRequest_recd_held (op : Nat) (h : ReqHdr) (f : State → State × Reply) (s : State)
    (hf : ∀ t, (f t).1.recd.held = t.recd.held) : (hostRequest op h f s).recd.held = s.recd.held := by
  unfold hostRequest
  repeat' split
  all_goals simp [hf, id @linkNote_keep]

@[simp] theorem hostRequest_est_held (op : Nat) (h : ReqHdr) (f : State → State × Reply) (s : State)
    (hf : ∀ t, (f t).1.est.held = t.est.held) : (hostRequest op h f s).est.held = s.est.held := by
  unfold hostRequest
  repeat' split
  all_goals simp [hf, id @linkNote_keep]

@[simp] theorem hostRequest_pwr_held (op : Nat) (h : ReqHdr) (f : State → State × Reply) (s : State)
    (hf : ∀ t, (f t).1.pwr.held = t.pwr.held) : (hostRequest op h f s).pwr.held = s.pwr.held := by
  unfold hostRequest
  repeat' split
  all_goals simp [hf, id @linkNote_keep]

@[simp] theorem hostRequest_evt_held (op : Nat) (h : ReqHdr) (f : State → State × Reply) (s : State)
    (hf : ∀ t, (f t).1.evt.held = t.evt.held) : (hostRequest op h f s).evt.held = s.evt.held := by
  unfold hostRequest
  repeat' split
  all_goals simp [hf, id @linkNote_keep]

@[simp] theorem hostRequest_pins_held (op : Nat) (h : ReqHdr) (f : State → State × Reply) (s : State)
    (hf : ∀ t, (f t).1.pins.held = t.pins.held) : (hostRequest op h f s).pins.held = s.pins.held := by
  unfold hostRequest
  repeat' split
  all_goals simp [hf, id @linkNote_keep]

@[simp] theorem hostRequest_sec_mid (op : Nat) (h : ReqHdr) (f : State → State × Reply) (s : State)
    (hf : ∀ t, (f t).1.sec.mid = t.sec.mid) : (hostRequest op h f s).sec.mid = s.sec.mid := by
  unfold hostRequest
  repeat' split
  all_goals simp [hf, id @linkNote_keep]

@[simp] theorem hostRequest_sec_devKey (op : Nat) (h : ReqHdr) (f : State → State × Reply) (s : State)
    (hf : ∀ t, (f t).1.sec.devKey = t.sec.devKey) : (hostRequest op h f s).sec.devKey = s.sec.devKey := by
  unfold hostRequest
  repeat' split
  all_goals simp [hf, id @linkNote_keep]

end Sys2Proof.Machine
end

