-- ==== Sys2Proof/Laws/KeepBist.lean ====
section
/-! SUPPORT. What the operations of Machine/Bist.lean leave unchanged. -/

namespace Sys2Proof.Machine

theorem bistEcc_keep (h : BistEcc) (s : State) :
    (bistEcc h s).sys = s.sys ∧
    (bistEcc h s).img = s.img ∧
    (bistEcc h s).cfg = s.cfg ∧
    (bistEcc h s).ring = s.ring ∧
    (bistEcc h s).acq = s.acq ∧
    (bistEcc h s).cur = s.cur ∧
    (bistEcc h s).husk = s.husk ∧
    (bistEcc h s).drv = s.drv ∧
    (bistEcc h s).est = s.est ∧
    (bistEcc h s).win = s.win ∧
    (bistEcc h s).time = s.time ∧
    (bistEcc h s).therm = s.therm ∧
    (bistEcc h s).nv = s.nv ∧
    (bistEcc h s).ledg = s.ledg ∧
    (bistEcc h s).tally = s.tally ∧
    (bistEcc h s).host = s.host ∧
    (bistEcc h s).sec = s.sec ∧
    (bistEcc h s).pwr = s.pwr ∧
    (bistEcc h s).bist = s.bist ∧
    (bistEcc h s).pins = s.pins ∧
    (bistEcc h s).pending = s.pending ∧
    (bistEcc h s).recd.held = s.recd.held ∧
    (bistEcc h s).evt.held = s.evt.held := by
  unfold bistEcc
  repeat' split
  all_goals simp [id @eccEvent_keep, id @emit_keep]

theorem bistCopy_keep (ecc : List BistEcc) (s : State) :
    (bistCopy ecc s).sys = s.sys ∧
    (bistCopy ecc s).img = s.img ∧
    (bistCopy ecc s).cfg = s.cfg ∧
    (bistCopy ecc s).ring = s.ring ∧
    (bistCopy ecc s).acq = s.acq ∧
    (bistCopy ecc s).cur = s.cur ∧
    (bistCopy ecc s).husk = s.husk ∧
    (bistCopy ecc s).drv = s.drv ∧
    (bistCopy ecc s).est = s.est ∧
    (bistCopy ecc s).win = s.win ∧
    (bistCopy ecc s).time = s.time ∧
    (bistCopy ecc s).therm = s.therm ∧
    (bistCopy ecc s).nv = s.nv ∧
    (bistCopy ecc s).ledg = s.ledg ∧
    (bistCopy ecc s).tally = s.tally ∧
    (bistCopy ecc s).host = s.host ∧
    (bistCopy ecc s).sec = s.sec ∧
    (bistCopy ecc s).pwr = s.pwr ∧
    (bistCopy ecc s).bist = s.bist ∧
    (bistCopy ecc s).pins = s.pins ∧
    (bistCopy ecc s).pending = s.pending ∧
    (bistCopy ecc s).recd.held = s.recd.held ∧
    (bistCopy ecc s).evt.held = s.evt.held := by
  simp [bistCopy, id @bistEcc_keep]

theorem bistRun_keep (t : Nat) (first : Nat) (n : Nat) (bg : Bool) (ecc : List BistEcc) (s : State) :
    (bistRun t first n bg ecc s).sys = s.sys ∧
    (bistRun t first n bg ecc s).img = s.img ∧
    (bistRun t first n bg ecc s).cfg = s.cfg ∧
    (bistRun t first n bg ecc s).ring = s.ring ∧
    (bistRun t first n bg ecc s).acq = s.acq ∧
    (bistRun t first n bg ecc s).cur = s.cur ∧
    (bistRun t first n bg ecc s).husk = s.husk ∧
    (bistRun t first n bg ecc s).drv = s.drv ∧
    (bistRun t first n bg ecc s).est = s.est ∧
    (bistRun t first n bg ecc s).win = s.win ∧
    (bistRun t first n bg ecc s).time = s.time ∧
    (bistRun t first n bg ecc s).therm = s.therm ∧
    (bistRun t first n bg ecc s).nv = s.nv ∧
    (bistRun t first n bg ecc s).ledg = s.ledg ∧
    (bistRun t first n bg ecc s).tally = s.tally ∧
    (bistRun t first n bg ecc s).host = s.host ∧
    (bistRun t first n bg ecc s).sec = s.sec ∧
    (bistRun t first n bg ecc s).pins = s.pins ∧
    (bistRun t first n bg ecc s).pending = s.pending ∧
    (bistRun t first n bg ecc s).evt.held = s.evt.held := by
  simp [bistRun, id @bistCopy_keep, id @phaseStart_keep]

theorem bistStart_keep (t : Nat) (mv : Nat) (ppm : Int) (ecc : List BistEcc) (s : State) :
    (bistStart t mv ppm ecc s).1.sys = s.sys ∧
    (bistStart t mv ppm ecc s).1.img = s.img ∧
    (bistStart t mv ppm ecc s).1.cfg = s.cfg ∧
    (bistStart t mv ppm ecc s).1.ring = s.ring ∧
    (bistStart t mv ppm ecc s).1.acq = s.acq ∧
    (bistStart t mv ppm ecc s).1.cur = s.cur ∧
    (bistStart t mv ppm ecc s).1.husk = s.husk ∧
    (bistStart t mv ppm ecc s).1.drv = s.drv ∧
    (bistStart t mv ppm ecc s).1.est = s.est ∧
    (bistStart t mv ppm ecc s).1.win = s.win ∧
    (bistStart t mv ppm ecc s).1.time = s.time ∧
    (bistStart t mv ppm ecc s).1.therm = s.therm ∧
    (bistStart t mv ppm ecc s).1.nv = s.nv ∧
    (bistStart t mv ppm ecc s).1.ledg = s.ledg ∧
    (bistStart t mv ppm ecc s).1.tally = s.tally ∧
    (bistStart t mv ppm ecc s).1.host = s.host ∧
    (bistStart t mv ppm ecc s).1.sec = s.sec ∧
    (bistStart t mv ppm ecc s).1.pins = s.pins ∧
    (bistStart t mv ppm ecc s).1.pending = s.pending ∧
    (bistStart t mv ppm ecc s).1.evt.held = s.evt.held := by
  simp only [bistStart]
  repeat' split
  all_goals simp [id @bistRun_keep]

theorem bistAbort_keep (cause : Nat) (s : State) :
    (bistAbort cause s).sys = s.sys ∧
    (bistAbort cause s).img = s.img ∧
    (bistAbort cause s).cfg = s.cfg ∧
    (bistAbort cause s).ring = s.ring ∧
    (bistAbort cause s).acq = s.acq ∧
    (bistAbort cause s).cur = s.cur ∧
    (bistAbort cause s).husk = s.husk ∧
    (bistAbort cause s).drv = s.drv ∧
    (bistAbort cause s).krn = s.krn ∧
    (bistAbort cause s).est = s.est ∧
    (bistAbort cause s).win = s.win ∧
    (bistAbort cause s).pairs = s.pairs ∧
    (bistAbort cause s).time = s.time ∧
    (bistAbort cause s).therm = s.therm ∧
    (bistAbort cause s).nv = s.nv ∧
    (bistAbort cause s).ledg = s.ledg ∧
    (bistAbort cause s).tally = s.tally ∧
    (bistAbort cause s).recd = s.recd ∧
    (bistAbort cause s).host = s.host ∧
    (bistAbort cause s).sec = s.sec ∧
    (bistAbort cause s).pwr = s.pwr ∧
    (bistAbort cause s).evt = s.evt ∧
    (bistAbort cause s).pins = s.pins ∧
    (bistAbort cause s).freeIx = s.freeIx ∧
    (bistAbort cause s).pending = s.pending := by
  simp [bistAbort]

theorem bistFails_keep (fs : List (Nat × Nat)) (s : State) :
    (bistFails fs s).sys = s.sys ∧
    (bistFails fs s).img = s.img ∧
    (bistFails fs s).cfg = s.cfg ∧
    (bistFails fs s).ring = s.ring ∧
    (bistFails fs s).acq = s.acq ∧
    (bistFails fs s).cur = s.cur ∧
    (bistFails fs s).husk = s.husk ∧
    (bistFails fs s).drv = s.drv ∧
    (bistFails fs s).krn = s.krn ∧
    (bistFails fs s).est = s.est ∧
    (bistFails fs s).win = s.win ∧
    (bistFails fs s).pairs = s.pairs ∧
    (bistFails fs s).time = s.time ∧
    (bistFails fs s).therm = s.therm ∧
    (bistFails fs s).nv = s.nv ∧
    (bistFails fs s).ledg = s.ledg ∧
    (bistFails fs s).tally = s.tally ∧
    (bistFails fs s).recd = s.recd ∧
    (bistFails fs s).host = s.host ∧
    (bistFails fs s).sec = s.sec ∧
    (bistFails fs s).pwr = s.pwr ∧
    (bistFails fs s).evt = s.evt ∧
    (bistFails fs s).pins = s.pins ∧
    (bistFails fs s).freeIx = s.freeIx ∧
    (bistFails fs s).pending = s.pending := by
  unfold bistFails
  repeat' split
  all_goals simp

theorem bistSign_keep (sig : Word) (s : State) :
    (bistSign sig s).sys = s.sys ∧
    (bistSign sig s).img = s.img ∧
    (bistSign sig s).cfg = s.cfg ∧
    (bistSign sig s).ring = s.ring ∧
    (bistSign sig s).acq = s.acq ∧
    (bistSign sig s).cur = s.cur ∧
    (bistSign sig s).husk = s.husk ∧
    (bistSign sig s).drv = s.drv ∧
    (bistSign sig s).krn = s.krn ∧
    (bistSign sig s).est = s.est ∧
    (bistSign sig s).win = s.win ∧
    (bistSign sig s).pairs = s.pairs ∧
    (bistSign sig s).time = s.time ∧
    (bistSign sig s).therm = s.therm ∧
    (bistSign sig s).nv = s.nv ∧
    (bistSign sig s).ledg = s.ledg ∧
    (bistSign sig s).tally = s.tally ∧
    (bistSign sig s).recd = s.recd ∧
    (bistSign sig s).host = s.host ∧
    (bistSign sig s).sec = s.sec ∧
    (bistSign sig s).pwr = s.pwr ∧
    (bistSign sig s).evt = s.evt ∧
    (bistSign sig s).pins = s.pins ∧
    (bistSign sig s).freeIx = s.freeIx ∧
    (bistSign sig s).pending = s.pending := by
  simp [bistSign, id @bistFails_keep]

theorem bistRecord_keep (s : State) :
    (bistRecord s).sys = s.sys ∧
    (bistRecord s).img = s.img ∧
    (bistRecord s).cfg = s.cfg ∧
    (bistRecord s).ring = s.ring ∧
    (bistRecord s).acq = s.acq ∧
    (bistRecord s).cur = s.cur ∧
    (bistRecord s).husk = s.husk ∧
    (bistRecord s).drv = s.drv ∧
    (bistRecord s).krn = s.krn ∧
    (bistRecord s).est = s.est ∧
    (bistRecord s).win = s.win ∧
    (bistRecord s).pairs = s.pairs ∧
    (bistRecord s).time = s.time ∧
    (bistRecord s).therm = s.therm ∧
    (bistRecord s).nv = s.nv ∧
    (bistRecord s).ledg = s.ledg ∧
    (bistRecord s).tally = s.tally ∧
    (bistRecord s).host = s.host ∧
    (bistRecord s).sec = s.sec ∧
    (bistRecord s).pwr = s.pwr ∧
    (bistRecord s).bist = s.bist ∧
    (bistRecord s).pins = s.pins ∧
    (bistRecord s).freeIx = s.freeIx ∧
    (bistRecord s).pending = s.pending ∧
    (bistRecord s).recd.held = s.recd.held ∧
    (bistRecord s).evt.held = s.evt.held := by
  simp only [bistRecord]
  repeat' split
  all_goals simp [id @emit_keep]

theorem bistEnd_keep (s : State) :
    (bistEnd s).sys = s.sys ∧
    (bistEnd s).img = s.img ∧
    (bistEnd s).cfg = s.cfg ∧
    (bistEnd s).ring = s.ring ∧
    (bistEnd s).acq = s.acq ∧
    (bistEnd s).cur = s.cur ∧
    (bistEnd s).husk = s.husk ∧
    (bistEnd s).drv = s.drv ∧
    (bistEnd s).krn = s.krn ∧
    (bistEnd s).est = s.est ∧
    (bistEnd s).win = s.win ∧
    (bistEnd s).pairs = s.pairs ∧
    (bistEnd s).time = s.time ∧
    (bistEnd s).therm = s.therm ∧
    (bistEnd s).nv = s.nv ∧
    (bistEnd s).ledg = s.ledg ∧
    (bistEnd s).tally = s.tally ∧
    (bistEnd s).host = s.host ∧
    (bistEnd s).sec = s.sec ∧
    (bistEnd s).pins = s.pins ∧
    (bistEnd s).freeIx = s.freeIx ∧
    (bistEnd s).pending = s.pending ∧
    (bistEnd s).recd.held = s.recd.held ∧
    (bistEnd s).evt.held = s.evt.held := by
  simp [bistEnd, id @bistRecord_keep, id @phaseEnd_keep]

theorem execBistRegionDone_keep {fails : List (Nat × Nat)} {sig : Word} {ecc : List BistEcc} {s t : State} (h : execBistRegionDone fails sig ecc s = .next t) :
    t.img = s.img ∧
    t.cfg = s.cfg ∧
    t.acq = s.acq ∧
    t.cur = s.cur ∧
    t.win = s.win ∧
    t.time = s.time ∧
    t.therm = s.therm ∧
    t.nv = s.nv ∧
    t.ledg = s.ledg ∧
    t.tally = s.tally ∧
    t.host = s.host ∧
    t.sec = s.sec ∧
    t.pending = s.pending ∧
    t.sys.held = s.sys.held ∧
    t.husk.held = s.husk.held ∧
    t.drv.held = s.drv.held ∧
    t.recd.held = s.recd.held ∧
    t.est.held = s.est.held ∧
    t.evt.held = s.evt.held ∧
    t.pins.held = s.pins.held := by
  have e := Host.Outcome.next.inj h
  subst e
  dsimp only
  repeat' split
  all_goals simp [id @bistCopy_keep, id @bistEnd_keep, id @bistFails_keep, id @bistSign_keep, id @settle_keep,
      id @settleLevel_keep]

theorem execBistConditionLost_keep {mv : Nat} {ppm : Int} {s t : State} (h : execBistConditionLost mv ppm s = .next t) :
    t.sys = s.sys ∧
    t.img = s.img ∧
    t.cfg = s.cfg ∧
    t.ring = s.ring ∧
    t.acq = s.acq ∧
    t.cur = s.cur ∧
    t.husk = s.husk ∧
    t.drv = s.drv ∧
    t.krn = s.krn ∧
    t.est = s.est ∧
    t.win = s.win ∧
    t.pairs = s.pairs ∧
    t.time = s.time ∧
    t.therm = s.therm ∧
    t.nv = s.nv ∧
    t.ledg = s.ledg ∧
    t.tally = s.tally ∧
    t.recd = s.recd ∧
    t.host = s.host ∧
    t.sec = s.sec ∧
    t.pwr = s.pwr ∧
    t.evt = s.evt ∧
    t.pins = s.pins ∧
    t.freeIx = s.freeIx ∧
    t.pending = s.pending := by
  have e := Host.Outcome.next.inj h
  subst e
  simp [id @bistAbort_keep]

theorem execBistBackground_keep {mv : Nat} {ppm : Int} {ecc : List BistEcc} {s t : State} (h : execBistBackground mv ppm ecc s = .next t) :
    t.img = s.img ∧
    t.cfg = s.cfg ∧
    t.acq = s.acq ∧
    t.cur = s.cur ∧
    t.win = s.win ∧
    t.time = s.time ∧
    t.therm = s.therm ∧
    t.nv = s.nv ∧
    t.ledg = s.ledg ∧
    t.tally = s.tally ∧
    t.host = s.host ∧
    t.sec = s.sec ∧
    t.pending = s.pending ∧
    t.sys.held = s.sys.held ∧
    t.husk.held = s.husk.held ∧
    t.drv.held = s.drv.held ∧
    t.est.held = s.est.held ∧
    t.evt.held = s.evt.held ∧
    t.pins.held = s.pins.held := by
  have e := Host.Outcome.next.inj h
  subst e
  dsimp only
  repeat' split
  all_goals simp [id @bistRun_keep, id @settle_keep]

theorem repairPut_keep (e : Nat) (v : Word) (s : State) :
    (repairPut e v s).sys = s.sys ∧
    (repairPut e v s).img = s.img ∧
    (repairPut e v s).cfg = s.cfg ∧
    (repairPut e v s).ring = s.ring ∧
    (repairPut e v s).acq = s.acq ∧
    (repairPut e v s).cur = s.cur ∧
    (repairPut e v s).husk = s.husk ∧
    (repairPut e v s).drv = s.drv ∧
    (repairPut e v s).krn = s.krn ∧
    (repairPut e v s).est = s.est ∧
    (repairPut e v s).win = s.win ∧
    (repairPut e v s).pairs = s.pairs ∧
    (repairPut e v s).time = s.time ∧
    (repairPut e v s).therm = s.therm ∧
    (repairPut e v s).nv = s.nv ∧
    (repairPut e v s).ledg = s.ledg ∧
    (repairPut e v s).tally = s.tally ∧
    (repairPut e v s).host = s.host ∧
    (repairPut e v s).sec = s.sec ∧
    (repairPut e v s).pwr = s.pwr ∧
    (repairPut e v s).pins = s.pins ∧
    (repairPut e v s).freeIx = s.freeIx ∧
    (repairPut e v s).pending = s.pending ∧
    (repairPut e v s).recd.held = s.recd.held ∧
    (repairPut e v s).evt.held = s.evt.held := by
  simp only [repairPut]
  repeat' split
  all_goals simp [id @emit_keep]

end Sys2Proof.Machine
end

