-- ==== Sys2Proof/Laws/KeepImage.lean ====
section
/-! SUPPORT. What the operations of Machine/Image.lean leave unchanged. -/

namespace Sys2Proof.Machine

theorem imgChunk_keep (off : Nat) (data : List Byte) (s : State) :
    (imgChunk off data s).1.sys = s.sys ∧
    (imgChunk off data s).1.cfg = s.cfg ∧
    (imgChunk off data s).1.ring = s.ring ∧
    (imgChunk off data s).1.acq = s.acq ∧
    (imgChunk off data s).1.cur = s.cur ∧
    (imgChunk off data s).1.husk = s.husk ∧
    (imgChunk off data s).1.drv = s.drv ∧
    (imgChunk off data s).1.krn = s.krn ∧
    (imgChunk off data s).1.est = s.est ∧
    (imgChunk off data s).1.win = s.win ∧
    (imgChunk off data s).1.pairs = s.pairs ∧
    (imgChunk off data s).1.time = s.time ∧
    (imgChunk off data s).1.therm = s.therm ∧
    (imgChunk off data s).1.nv = s.nv ∧
    (imgChunk off data s).1.ledg = s.ledg ∧
    (imgChunk off data s).1.tally = s.tally ∧
    (imgChunk off data s).1.recd = s.recd ∧
    (imgChunk off data s).1.host = s.host ∧
    (imgChunk off data s).1.sec = s.sec ∧
    (imgChunk off data s).1.pwr = s.pwr ∧
    (imgChunk off data s).1.bist = s.bist ∧
    (imgChunk off data s).1.evt = s.evt ∧
    (imgChunk off data s).1.pins = s.pins ∧
    (imgChunk off data s).1.freeIx = s.freeIx ∧
    (imgChunk off data s).1.pending = s.pending := by
  unfold imgChunk
  repeat' split
  all_goals simp [id @accept_keep, id @refuse_keep]

theorem execImgChunk_keep {h : ReqHdr} {off : Nat} {data : List Byte} {s t : State} (h : execImgChunk h off data s = .next t) :
    t.cfg = s.cfg ∧
    t.acq = s.acq ∧
    t.cur = s.cur ∧
    t.krn = s.krn ∧
    t.win = s.win ∧
    t.pairs = s.pairs ∧
    t.time = s.time ∧
    t.therm = s.therm ∧
    t.nv = s.nv ∧
    t.ledg = s.ledg ∧
    t.tally = s.tally ∧
    t.sec = s.sec ∧
    t.bist = s.bist ∧
    t.freeIx = s.freeIx ∧
    t.pending = s.pending ∧
    t.sys.held = s.sys.held ∧
    t.husk.held = s.husk.held ∧
    t.drv.held = s.drv.held ∧
    t.recd.held = s.recd.held ∧
    t.est.held = s.est.held ∧
    t.pwr.held = s.pwr.held ∧
    t.evt.held = s.evt.held ∧
    t.pins.held = s.pins.held := by
  have e := Host.Outcome.next.inj h
  subst e
  simp [id @imgChunk_keep]

theorem imgAbortStage_keep (s : State) :
    (imgAbortStage s).sys = s.sys ∧
    (imgAbortStage s).cfg = s.cfg ∧
    (imgAbortStage s).ring = s.ring ∧
    (imgAbortStage s).acq = s.acq ∧
    (imgAbortStage s).cur = s.cur ∧
    (imgAbortStage s).husk = s.husk ∧
    (imgAbortStage s).drv = s.drv ∧
    (imgAbortStage s).krn = s.krn ∧
    (imgAbortStage s).est = s.est ∧
    (imgAbortStage s).win = s.win ∧
    (imgAbortStage s).pairs = s.pairs ∧
    (imgAbortStage s).time = s.time ∧
    (imgAbortStage s).therm = s.therm ∧
    (imgAbortStage s).nv = s.nv ∧
    (imgAbortStage s).ledg = s.ledg ∧
    (imgAbortStage s).tally = s.tally ∧
    (imgAbortStage s).recd = s.recd ∧
    (imgAbortStage s).host = s.host ∧
    (imgAbortStage s).sec = s.sec ∧
    (imgAbortStage s).pwr = s.pwr ∧
    (imgAbortStage s).bist = s.bist ∧
    (imgAbortStage s).evt = s.evt ∧
    (imgAbortStage s).pins = s.pins ∧
    (imgAbortStage s).freeIx = s.freeIx ∧
    (imgAbortStage s).pending = s.pending := by
  simp [imgAbortStage]

theorem imgCommit_keep (h : ReqHdr) (len : Nat) (s : State) :
    (imgCommit h len s).1.sys = s.sys ∧
    (imgCommit h len s).1.cfg = s.cfg ∧
    (imgCommit h len s).1.ring = s.ring ∧
    (imgCommit h len s).1.acq = s.acq ∧
    (imgCommit h len s).1.cur = s.cur ∧
    (imgCommit h len s).1.husk = s.husk ∧
    (imgCommit h len s).1.drv = s.drv ∧
    (imgCommit h len s).1.krn = s.krn ∧
    (imgCommit h len s).1.est = s.est ∧
    (imgCommit h len s).1.win = s.win ∧
    (imgCommit h len s).1.pairs = s.pairs ∧
    (imgCommit h len s).1.time = s.time ∧
    (imgCommit h len s).1.therm = s.therm ∧
    (imgCommit h len s).1.nv = s.nv ∧
    (imgCommit h len s).1.ledg = s.ledg ∧
    (imgCommit h len s).1.tally = s.tally ∧
    (imgCommit h len s).1.recd = s.recd ∧
    (imgCommit h len s).1.host = s.host ∧
    (imgCommit h len s).1.sec = s.sec ∧
    (imgCommit h len s).1.pwr = s.pwr ∧
    (imgCommit h len s).1.bist = s.bist ∧
    (imgCommit h len s).1.evt = s.evt ∧
    (imgCommit h len s).1.pins = s.pins ∧
    (imgCommit h len s).1.freeIx = s.freeIx ∧
    (imgCommit h len s).1.pending = s.pending := by
  unfold imgCommit
  repeat' split
  all_goals simp [id @refuse_keep]

theorem execImgCommit_keep {h : ReqHdr} {len : Nat} {s t : State} (h : execImgCommit h len s = .next t) :
    t.cfg = s.cfg ∧
    t.acq = s.acq ∧
    t.cur = s.cur ∧
    t.krn = s.krn ∧
    t.win = s.win ∧
    t.pairs = s.pairs ∧
    t.time = s.time ∧
    t.therm = s.therm ∧
    t.nv = s.nv ∧
    t.ledg = s.ledg ∧
    t.tally = s.tally ∧
    t.sec = s.sec ∧
    t.bist = s.bist ∧
    t.freeIx = s.freeIx ∧
    t.pending = s.pending ∧
    t.sys.held = s.sys.held ∧
    t.husk.held = s.husk.held ∧
    t.drv.held = s.drv.held ∧
    t.recd.held = s.recd.held ∧
    t.est.held = s.est.held ∧
    t.pwr.held = s.pwr.held ∧
    t.evt.held = s.evt.held ∧
    t.pins.held = s.pins.held := by
  have e := Host.Outcome.next.inj h
  subst e
  simp [id @imgCommit_keep]

theorem imgDropWaiting_keep (cause : Nat) (s : State) :
    (imgDropWaiting cause s).sys = s.sys ∧
    (imgDropWaiting cause s).cfg = s.cfg ∧
    (imgDropWaiting cause s).ring = s.ring ∧
    (imgDropWaiting cause s).acq = s.acq ∧
    (imgDropWaiting cause s).cur = s.cur ∧
    (imgDropWaiting cause s).husk = s.husk ∧
    (imgDropWaiting cause s).drv = s.drv ∧
    (imgDropWaiting cause s).krn = s.krn ∧
    (imgDropWaiting cause s).est = s.est ∧
    (imgDropWaiting cause s).win = s.win ∧
    (imgDropWaiting cause s).pairs = s.pairs ∧
    (imgDropWaiting cause s).time = s.time ∧
    (imgDropWaiting cause s).therm = s.therm ∧
    (imgDropWaiting cause s).nv = s.nv ∧
    (imgDropWaiting cause s).ledg = s.ledg ∧
    (imgDropWaiting cause s).tally = s.tally ∧
    (imgDropWaiting cause s).host = s.host ∧
    (imgDropWaiting cause s).sec = s.sec ∧
    (imgDropWaiting cause s).pwr = s.pwr ∧
    (imgDropWaiting cause s).bist = s.bist ∧
    (imgDropWaiting cause s).pins = s.pins ∧
    (imgDropWaiting cause s).freeIx = s.freeIx ∧
    (imgDropWaiting cause s).pending = s.pending ∧
    (imgDropWaiting cause s).recd.held = s.recd.held ∧
    (imgDropWaiting cause s).evt.held = s.evt.held := by
  simp [imgDropWaiting, id @emit_keep, id @setSlot_keep]

theorem imgReject_keep (c : Commit) (b : List Byte) (f : ImgFail) (s : State) :
    (imgReject c b f s).sys = s.sys ∧
    (imgReject c b f s).cfg = s.cfg ∧
    (imgReject c b f s).ring = s.ring ∧
    (imgReject c b f s).acq = s.acq ∧
    (imgReject c b f s).cur = s.cur ∧
    (imgReject c b f s).husk = s.husk ∧
    (imgReject c b f s).drv = s.drv ∧
    (imgReject c b f s).krn = s.krn ∧
    (imgReject c b f s).est = s.est ∧
    (imgReject c b f s).win = s.win ∧
    (imgReject c b f s).pairs = s.pairs ∧
    (imgReject c b f s).time = s.time ∧
    (imgReject c b f s).therm = s.therm ∧
    (imgReject c b f s).nv = s.nv ∧
    (imgReject c b f s).ledg = s.ledg ∧
    (imgReject c b f s).tally = s.tally ∧
    (imgReject c b f s).sec = s.sec ∧
    (imgReject c b f s).bist = s.bist ∧
    (imgReject c b f s).freeIx = s.freeIx ∧
    (imgReject c b f s).pending = s.pending ∧
    (imgReject c b f s).recd.held = s.recd.held ∧
    (imgReject c b f s).pwr.held = s.pwr.held ∧
    (imgReject c b f s).evt.held = s.evt.held ∧
    (imgReject c b f s).pins.held = s.pins.held := by
  simp [imgReject, id @answer_keep, id @emit_keep]

theorem imgPass_keep (c : Commit) (b : List Byte) (s : State) :
    (imgPass c b s).sys = s.sys ∧
    (imgPass c b s).cfg = s.cfg ∧
    (imgPass c b s).ring = s.ring ∧
    (imgPass c b s).acq = s.acq ∧
    (imgPass c b s).cur = s.cur ∧
    (imgPass c b s).husk = s.husk ∧
    (imgPass c b s).drv = s.drv ∧
    (imgPass c b s).krn = s.krn ∧
    (imgPass c b s).est = s.est ∧
    (imgPass c b s).win = s.win ∧
    (imgPass c b s).pairs = s.pairs ∧
    (imgPass c b s).time = s.time ∧
    (imgPass c b s).therm = s.therm ∧
    (imgPass c b s).nv = s.nv ∧
    (imgPass c b s).ledg = s.ledg ∧
    (imgPass c b s).tally = s.tally ∧
    (imgPass c b s).host = s.host ∧
    (imgPass c b s).sec = s.sec ∧
    (imgPass c b s).pwr = s.pwr ∧
    (imgPass c b s).bist = s.bist ∧
    (imgPass c b s).pins = s.pins ∧
    (imgPass c b s).freeIx = s.freeIx ∧
    (imgPass c b s).pending = s.pending ∧
    (imgPass c b s).recd.held = s.recd.held ∧
    (imgPass c b s).evt.held = s.evt.held := by
  unfold imgPass
  repeat' split
  all_goals simp [id @imgDropWaiting_keep, id @setSlot_keep]

theorem execImgValidationDone_keep  {s t : State} (h : execImgValidationDone s = .next t) :
    t.cfg = s.cfg ∧
    t.acq = s.acq ∧
    t.cur = s.cur ∧
    t.krn = s.krn ∧
    t.win = s.win ∧
    t.pairs = s.pairs ∧
    t.time = s.time ∧
    t.therm = s.therm ∧
    t.nv = s.nv ∧
    t.ledg = s.ledg ∧
    t.tally = s.tally ∧
    t.sec = s.sec ∧
    t.bist = s.bist ∧
    t.freeIx = s.freeIx ∧
    t.pending = s.pending ∧
    t.sys.held = s.sys.held ∧
    t.husk.held = s.husk.held ∧
    t.drv.held = s.drv.held ∧
    t.recd.held = s.recd.held ∧
    t.est.held = s.est.held ∧
    t.pwr.held = s.pwr.held ∧
    t.evt.held = s.evt.held ∧
    t.pins.held = s.pins.held := by
  have e := Host.Outcome.next.inj h
  subst e
  dsimp only
  repeat' split
  all_goals simp [id @imgPass_keep, id @imgReject_keep, id @settle_keep]

theorem execImgSlotWriteDone_keep {ok : Bool} {s t : State} (h : execImgSlotWriteDone ok s = .next t) :
    t.cfg = s.cfg ∧
    t.acq = s.acq ∧
    t.cur = s.cur ∧
    t.krn = s.krn ∧
    t.win = s.win ∧
    t.pairs = s.pairs ∧
    t.time = s.time ∧
    t.therm = s.therm ∧
    t.nv = s.nv ∧
    t.ledg = s.ledg ∧
    t.tally = s.tally ∧
    t.sec = s.sec ∧
    t.bist = s.bist ∧
    t.freeIx = s.freeIx ∧
    t.pending = s.pending ∧
    t.sys.held = s.sys.held ∧
    t.husk.held = s.husk.held ∧
    t.drv.held = s.drv.held ∧
    t.recd.held = s.recd.held ∧
    t.est.held = s.est.held ∧
    t.pwr.held = s.pwr.held ∧
    t.evt.held = s.evt.held ∧
    t.pins.held = s.pins.held := by
  have e := Host.Outcome.next.inj h
  subst e
  dsimp only
  repeat' split
  all_goals simp [id @answer_keep, id @emit_keep, id @imgReject_keep, id @setSlot_keep, id @settle_keep]

theorem imgCancel_keep (s : State) :
    (imgCancel s).sys = s.sys ∧
    (imgCancel s).cfg = s.cfg ∧
    (imgCancel s).ring = s.ring ∧
    (imgCancel s).acq = s.acq ∧
    (imgCancel s).cur = s.cur ∧
    (imgCancel s).husk = s.husk ∧
    (imgCancel s).drv = s.drv ∧
    (imgCancel s).krn = s.krn ∧
    (imgCancel s).est = s.est ∧
    (imgCancel s).win = s.win ∧
    (imgCancel s).pairs = s.pairs ∧
    (imgCancel s).time = s.time ∧
    (imgCancel s).therm = s.therm ∧
    (imgCancel s).nv = s.nv ∧
    (imgCancel s).ledg = s.ledg ∧
    (imgCancel s).tally = s.tally ∧
    (imgCancel s).host = s.host ∧
    (imgCancel s).sec = s.sec ∧
    (imgCancel s).pwr = s.pwr ∧
    (imgCancel s).bist = s.bist ∧
    (imgCancel s).pins = s.pins ∧
    (imgCancel s).freeIx = s.freeIx ∧
    (imgCancel s).pending = s.pending ∧
    (imgCancel s).recd.held = s.recd.held ∧
    (imgCancel s).evt.held = s.evt.held := by
  unfold imgCancel
  repeat' split
  all_goals simp [id @imgDropWaiting_keep]

theorem acqAnnounce_keep (act : Word) (seq : Nat) (s : State) :
    (acqAnnounce act seq s).sys = s.sys ∧
    (acqAnnounce act seq s).img = s.img ∧
    (acqAnnounce act seq s).cfg = s.cfg ∧
    (acqAnnounce act seq s).acq = s.acq ∧
    (acqAnnounce act seq s).cur = s.cur ∧
    (acqAnnounce act seq s).husk = s.husk ∧
    (acqAnnounce act seq s).drv = s.drv ∧
    (acqAnnounce act seq s).krn = s.krn ∧
    (acqAnnounce act seq s).est = s.est ∧
    (acqAnnounce act seq s).win = s.win ∧
    (acqAnnounce act seq s).pairs = s.pairs ∧
    (acqAnnounce act seq s).time = s.time ∧
    (acqAnnounce act seq s).therm = s.therm ∧
    (acqAnnounce act seq s).nv = s.nv ∧
    (acqAnnounce act seq s).ledg = s.ledg ∧
    (acqAnnounce act seq s).tally = s.tally ∧
    (acqAnnounce act seq s).recd = s.recd ∧
    (acqAnnounce act seq s).host = s.host ∧
    (acqAnnounce act seq s).sec = s.sec ∧
    (acqAnnounce act seq s).pwr = s.pwr ∧
    (acqAnnounce act seq s).bist = s.bist ∧
    (acqAnnounce act seq s).evt = s.evt ∧
    (acqAnnounce act seq s).pins = s.pins ∧
    (acqAnnounce act seq s).freeIx = s.freeIx ∧
    (acqAnnounce act seq s).pending = s.pending := by
  simp [acqAnnounce, id @acqWrite_keep, id @modRing_keep]

theorem modeAccept_keep (v : Word) (s : State) :
    (modeAccept v s).img = s.img ∧
    (modeAccept v s).cfg = s.cfg ∧
    (modeAccept v s).acq = s.acq ∧
    (modeAccept v s).cur = s.cur ∧
    (modeAccept v s).husk = s.husk ∧
    (modeAccept v s).drv = s.drv ∧
    (modeAccept v s).krn = s.krn ∧
    (modeAccept v s).est = s.est ∧
    (modeAccept v s).win = s.win ∧
    (modeAccept v s).pairs = s.pairs ∧
    (modeAccept v s).time = s.time ∧
    (modeAccept v s).therm = s.therm ∧
    (modeAccept v s).nv = s.nv ∧
    (modeAccept v s).ledg = s.ledg ∧
    (modeAccept v s).tally = s.tally ∧
    (modeAccept v s).recd = s.recd ∧
    (modeAccept v s).host = s.host ∧
    (modeAccept v s).sec = s.sec ∧
    (modeAccept v s).pwr = s.pwr ∧
    (modeAccept v s).bist = s.bist ∧
    (modeAccept v s).evt = s.evt ∧
    (modeAccept v s).pins = s.pins ∧
    (modeAccept v s).freeIx = s.freeIx ∧
    (modeAccept v s).pending = s.pending := by
  simp [modeAccept, id @acqAnnounce_keep]

theorem closeOffPorts_keep (s : State) :
    (closeOffPorts s).sys = s.sys ∧
    (closeOffPorts s).img = s.img ∧
    (closeOffPorts s).cfg = s.cfg ∧
    (closeOffPorts s).ring = s.ring ∧
    (closeOffPorts s).acq = s.acq ∧
    (closeOffPorts s).cur = s.cur ∧
    (closeOffPorts s).husk = s.husk ∧
    (closeOffPorts s).drv = s.drv ∧
    (closeOffPorts s).krn = s.krn ∧
    (closeOffPorts s).est = s.est ∧
    (closeOffPorts s).win = s.win ∧
    (closeOffPorts s).pairs = s.pairs ∧
    (closeOffPorts s).time = s.time ∧
    (closeOffPorts s).therm = s.therm ∧
    (closeOffPorts s).nv = s.nv ∧
    (closeOffPorts s).ledg = s.ledg ∧
    (closeOffPorts s).tally = s.tally ∧
    (closeOffPorts s).sec = s.sec ∧
    (closeOffPorts s).pwr = s.pwr ∧
    (closeOffPorts s).bist = s.bist ∧
    (closeOffPorts s).evt = s.evt ∧
    (closeOffPorts s).pins = s.pins ∧
    (closeOffPorts s).freeIx = s.freeIx ∧
    (closeOffPorts s).pending = s.pending := by
  simp [closeOffPorts, id @closeStreams_keep]

theorem canFollow_keep (s : State) :
    (canFollow s).sys = s.sys ∧
    (canFollow s).img = s.img ∧
    (canFollow s).cfg = s.cfg ∧
    (canFollow s).ring = s.ring ∧
    (canFollow s).acq = s.acq ∧
    (canFollow s).cur = s.cur ∧
    (canFollow s).husk = s.husk ∧
    (canFollow s).drv = s.drv ∧
    (canFollow s).krn = s.krn ∧
    (canFollow s).est = s.est ∧
    (canFollow s).win = s.win ∧
    (canFollow s).pairs = s.pairs ∧
    (canFollow s).time = s.time ∧
    (canFollow s).therm = s.therm ∧
    (canFollow s).nv = s.nv ∧
    (canFollow s).ledg = s.ledg ∧
    (canFollow s).tally = s.tally ∧
    (canFollow s).sec = s.sec ∧
    (canFollow s).pwr = s.pwr ∧
    (canFollow s).bist = s.bist ∧
    (canFollow s).pins = s.pins ∧
    (canFollow s).freeIx = s.freeIx ∧
    (canFollow s).pending = s.pending ∧
    (canFollow s).recd.held = s.recd.held ∧
    (canFollow s).evt.held = s.evt.held := by
  unfold canFollow
  repeat' split
  all_goals simp [id @emit_keep]

theorem mapsLoad_keep (s : State) :
    (mapsLoad s).sys = s.sys ∧
    (mapsLoad s).img = s.img ∧
    (mapsLoad s).cfg = s.cfg ∧
    (mapsLoad s).ring = s.ring ∧
    (mapsLoad s).acq = s.acq ∧
    (mapsLoad s).cur = s.cur ∧
    (mapsLoad s).husk = s.husk ∧
    (mapsLoad s).drv = s.drv ∧
    (mapsLoad s).krn = s.krn ∧
    (mapsLoad s).est = s.est ∧
    (mapsLoad s).win = s.win ∧
    (mapsLoad s).pairs = s.pairs ∧
    (mapsLoad s).time = s.time ∧
    (mapsLoad s).therm = s.therm ∧
    (mapsLoad s).nv = s.nv ∧
    (mapsLoad s).ledg = s.ledg ∧
    (mapsLoad s).tally = s.tally ∧
    (mapsLoad s).recd = s.recd ∧
    (mapsLoad s).host = s.host ∧
    (mapsLoad s).sec = s.sec ∧
    (mapsLoad s).pwr = s.pwr ∧
    (mapsLoad s).bist = s.bist ∧
    (mapsLoad s).pins = s.pins ∧
    (mapsLoad s).freeIx = s.freeIx ∧
    (mapsLoad s).pending = s.pending := by
  simp [mapsLoad]

theorem hostApply_keep (s : State) :
    (hostApply s).sys = s.sys ∧
    (hostApply s).img = s.img ∧
    (hostApply s).cfg = s.cfg ∧
    (hostApply s).ring = s.ring ∧
    (hostApply s).acq = s.acq ∧
    (hostApply s).cur = s.cur ∧
    (hostApply s).husk = s.husk ∧
    (hostApply s).drv = s.drv ∧
    (hostApply s).krn = s.krn ∧
    (hostApply s).est = s.est ∧
    (hostApply s).win = s.win ∧
    (hostApply s).pairs = s.pairs ∧
    (hostApply s).time = s.time ∧
    (hostApply s).therm = s.therm ∧
    (hostApply s).nv = s.nv ∧
    (hostApply s).ledg = s.ledg ∧
    (hostApply s).tally = s.tally ∧
    (hostApply s).sec = s.sec ∧
    (hostApply s).pwr = s.pwr ∧
    (hostApply s).bist = s.bist ∧
    (hostApply s).pins = s.pins ∧
    (hostApply s).freeIx = s.freeIx ∧
    (hostApply s).pending = s.pending ∧
    (hostApply s).evt.held = s.evt.held := by
  simp [hostApply, id @canFollow_keep, id @closeOffPorts_keep]

theorem recApply_keep (s : State) :
    (recApply s).sys = s.sys ∧
    (recApply s).img = s.img ∧
    (recApply s).cfg = s.cfg ∧
    (recApply s).ring = s.ring ∧
    (recApply s).acq = s.acq ∧
    (recApply s).cur = s.cur ∧
    (recApply s).husk = s.husk ∧
    (recApply s).drv = s.drv ∧
    (recApply s).krn = s.krn ∧
    (recApply s).est = s.est ∧
    (recApply s).win = s.win ∧
    (recApply s).pairs = s.pairs ∧
    (recApply s).time = s.time ∧
    (recApply s).therm = s.therm ∧
    (recApply s).nv = s.nv ∧
    (recApply s).ledg = s.ledg ∧
    (recApply s).tally = s.tally ∧
    (recApply s).host = s.host ∧
    (recApply s).sec = s.sec ∧
    (recApply s).pwr = s.pwr ∧
    (recApply s).bist = s.bist ∧
    (recApply s).evt = s.evt ∧
    (recApply s).pins = s.pins ∧
    (recApply s).freeIx = s.freeIx ∧
    (recApply s).pending = s.pending := by
  simp [recApply]

theorem thermApply_keep (b : List Byte) (s : State) :
    (thermApply b s).sys = s.sys ∧
    (thermApply b s).img = s.img ∧
    (thermApply b s).cfg = s.cfg ∧
    (thermApply b s).ring = s.ring ∧
    (thermApply b s).acq = s.acq ∧
    (thermApply b s).cur = s.cur ∧
    (thermApply b s).husk = s.husk ∧
    (thermApply b s).drv = s.drv ∧
    (thermApply b s).krn = s.krn ∧
    (thermApply b s).est = s.est ∧
    (thermApply b s).win = s.win ∧
    (thermApply b s).pairs = s.pairs ∧
    (thermApply b s).time = s.time ∧
    (thermApply b s).nv = s.nv ∧
    (thermApply b s).ledg = s.ledg ∧
    (thermApply b s).tally = s.tally ∧
    (thermApply b s).recd = s.recd ∧
    (thermApply b s).host = s.host ∧
    (thermApply b s).sec = s.sec ∧
    (thermApply b s).pwr = s.pwr ∧
    (thermApply b s).bist = s.bist ∧
    (thermApply b s).evt = s.evt ∧
    (thermApply b s).pins = s.pins ∧
    (thermApply b s).freeIx = s.freeIx ∧
    (thermApply b s).pending = s.pending := by
  simp [thermApply]

theorem activated_keep (kind : Nat) (x : ImgSrc) (s : State) :
    (activated kind x s).sys = s.sys ∧
    (activated kind x s).img = s.img ∧
    (activated kind x s).cfg = s.cfg ∧
    (activated kind x s).ring = s.ring ∧
    (activated kind x s).acq = s.acq ∧
    (activated kind x s).cur = s.cur ∧
    (activated kind x s).husk = s.husk ∧
    (activated kind x s).drv = s.drv ∧
    (activated kind x s).krn = s.krn ∧
    (activated kind x s).est = s.est ∧
    (activated kind x s).win = s.win ∧
    (activated kind x s).pairs = s.pairs ∧
    (activated kind x s).time = s.time ∧
    (activated kind x s).therm = s.therm ∧
    (activated kind x s).nv = s.nv ∧
    (activated kind x s).ledg = s.ledg ∧
    (activated kind x s).tally = s.tally ∧
    (activated kind x s).host = s.host ∧
    (activated kind x s).sec = s.sec ∧
    (activated kind x s).pwr = s.pwr ∧
    (activated kind x s).bist = s.bist ∧
    (activated kind x s).pins = s.pins ∧
    (activated kind x s).freeIx = s.freeIx ∧
    (activated kind x s).pending = s.pending ∧
    (activated kind x s).recd.held = s.recd.held ∧
    (activated kind x s).evt.held = s.evt.held := by
  simp [activated, id @emit_keep]

theorem hotApply_keep (b : List Byte) (s : State) :
    (hotApply b s).acq = s.acq ∧
    (hotApply b s).cur = s.cur ∧
    (hotApply b s).husk = s.husk ∧
    (hotApply b s).drv = s.drv ∧
    (hotApply b s).pairs = s.pairs ∧
    (hotApply b s).time = s.time ∧
    (hotApply b s).therm = s.therm ∧
    (hotApply b s).ledg = s.ledg ∧
    (hotApply b s).tally = s.tally ∧
    (hotApply b s).sec = s.sec ∧
    (hotApply b s).pwr = s.pwr ∧
    (hotApply b s).bist = s.bist ∧
    (hotApply b s).pins = s.pins ∧
    (hotApply b s).freeIx = s.freeIx ∧
    (hotApply b s).pending = s.pending := by
  simp [hotApply, id @activated_keep, id @hostApply_keep, id @jumpMarks_keep, id @mapsLoad_keep,
      id @modeAccept_keep, id @nvQueue_keep, id @recApply_keep, id @winDiscard_keep]

theorem execHotActivation_keep  {s t : State} (h : execHotActivation s = .next t) :
    t.acq = s.acq ∧
    t.cur = s.cur ∧
    t.pairs = s.pairs ∧
    t.time = s.time ∧
    t.therm = s.therm ∧
    t.ledg = s.ledg ∧
    t.tally = s.tally ∧
    t.sec = s.sec ∧
    t.bist = s.bist ∧
    t.freeIx = s.freeIx ∧
    t.pending = s.pending ∧
    t.husk.held = s.husk.held ∧
    t.drv.held = s.drv.held ∧
    t.pwr.held = s.pwr.held ∧
    t.pins.held = s.pins.held := by
  have e := Host.Outcome.next.inj h
  subst e
  simp
  repeat' split
  all_goals simp [id @hotApply_keep, id @settle_keep]

theorem putTable_keep (c : Nat) (es : Tab ZEntry) (s : State) :
    (putTable c es s).sys = s.sys ∧
    (putTable c es s).img = s.img ∧
    (putTable c es s).cfg = s.cfg ∧
    (putTable c es s).ring = s.ring ∧
    (putTable c es s).acq = s.acq ∧
    (putTable c es s).cur = s.cur ∧
    (putTable c es s).husk = s.husk ∧
    (putTable c es s).drv = s.drv ∧
    (putTable c es s).krn = s.krn ∧
    (putTable c es s).est = s.est ∧
    (putTable c es s).pairs = s.pairs ∧
    (putTable c es s).time = s.time ∧
    (putTable c es s).therm = s.therm ∧
    (putTable c es s).nv = s.nv ∧
    (putTable c es s).ledg = s.ledg ∧
    (putTable c es s).tally = s.tally ∧
    (putTable c es s).recd = s.recd ∧
    (putTable c es s).host = s.host ∧
    (putTable c es s).sec = s.sec ∧
    (putTable c es s).pwr = s.pwr ∧
    (putTable c es s).bist = s.bist ∧
    (putTable c es s).evt = s.evt ∧
    (putTable c es s).pins = s.pins ∧
    (putTable c es s).freeIx = s.freeIx ∧
    (putTable c es s).pending = s.pending := by
  simp [putTable, id @setZ_keep]

theorem reassocCell_keep (recs : Tab CellRec) (tab : Nat → Option (Tab ZEntry)) (hist : Nat → TCell × WCell) (s : State) (e : Nat × Option Nat) :
    (reassocCell recs tab hist s e).sys = s.sys ∧
    (reassocCell recs tab hist s e).img = s.img ∧
    (reassocCell recs tab hist s e).cfg = s.cfg ∧
    (reassocCell recs tab hist s e).ring = s.ring ∧
    (reassocCell recs tab hist s e).cur = s.cur ∧
    (reassocCell recs tab hist s e).husk = s.husk ∧
    (reassocCell recs tab hist s e).drv = s.drv ∧
    (reassocCell recs tab hist s e).krn = s.krn ∧
    (reassocCell recs tab hist s e).est = s.est ∧
    (reassocCell recs tab hist s e).pairs = s.pairs ∧
    (reassocCell recs tab hist s e).time = s.time ∧
    (reassocCell recs tab hist s e).therm = s.therm ∧
    (reassocCell recs tab hist s e).ledg = s.ledg ∧
    (reassocCell recs tab hist s e).recd = s.recd ∧
    (reassocCell recs tab hist s e).host = s.host ∧
    (reassocCell recs tab hist s e).sec = s.sec ∧
    (reassocCell recs tab hist s e).pwr = s.pwr ∧
    (reassocCell recs tab hist s e).bist = s.bist ∧
    (reassocCell recs tab hist s e).evt = s.evt ∧
    (reassocCell recs tab hist s e).pins = s.pins ∧
    (reassocCell recs tab hist s e).freeIx = s.freeIx ∧
    (reassocCell recs tab hist s e).pending = s.pending := by
  unfold reassocCell
  repeat' split
  all_goals simp [id @modCell_keep, id @modTCell_keep, id @modWCell_keep, id @putTable_keep, id @takePriors_keep]

theorem reassociate_keep (recs : Tab CellRec) (tab : Nat → Option (Tab ZEntry)) (hist : Nat → TCell × WCell) (s : State) :
    (reassociate recs tab hist s).sys = s.sys ∧
    (reassociate recs tab hist s).img = s.img ∧
    (reassociate recs tab hist s).cfg = s.cfg ∧
    (reassociate recs tab hist s).ring = s.ring ∧
    (reassociate recs tab hist s).cur = s.cur ∧
    (reassociate recs tab hist s).husk = s.husk ∧
    (reassociate recs tab hist s).drv = s.drv ∧
    (reassociate recs tab hist s).est = s.est ∧
    (reassociate recs tab hist s).pairs = s.pairs ∧
    (reassociate recs tab hist s).time = s.time ∧
    (reassociate recs tab hist s).therm = s.therm ∧
    (reassociate recs tab hist s).ledg = s.ledg ∧
    (reassociate recs tab hist s).host = s.host ∧
    (reassociate recs tab hist s).sec = s.sec ∧
    (reassociate recs tab hist s).pwr = s.pwr ∧
    (reassociate recs tab hist s).bist = s.bist ∧
    (reassociate recs tab hist s).pins = s.pins ∧
    (reassociate recs tab hist s).freeIx = s.freeIx ∧
    (reassociate recs tab hist s).pending = s.pending ∧
    (reassociate recs tab hist s).recd.held = s.recd.held ∧
    (reassociate recs tab hist s).evt.held = s.evt.held := by
  simp only [reassociate]
  repeat' split
  all_goals simp [id @emit_keep, id @nvQueue_keep, id @reassocCell_keep]

theorem cellsStart_keep (s : State) :
    (cellsStart s).sys = s.sys ∧
    (cellsStart s).img = s.img ∧
    (cellsStart s).cfg = s.cfg ∧
    (cellsStart s).ring = s.ring ∧
    (cellsStart s).acq = s.acq ∧
    (cellsStart s).cur = s.cur ∧
    (cellsStart s).husk = s.husk ∧
    (cellsStart s).drv = s.drv ∧
    (cellsStart s).win = s.win ∧
    (cellsStart s).pairs = s.pairs ∧
    (cellsStart s).time = s.time ∧
    (cellsStart s).therm = s.therm ∧
    (cellsStart s).nv = s.nv ∧
    (cellsStart s).ledg = s.ledg ∧
    (cellsStart s).tally = s.tally ∧
    (cellsStart s).recd = s.recd ∧
    (cellsStart s).host = s.host ∧
    (cellsStart s).sec = s.sec ∧
    (cellsStart s).pwr = s.pwr ∧
    (cellsStart s).bist = s.bist ∧
    (cellsStart s).evt = s.evt ∧
    (cellsStart s).pins = s.pins ∧
    (cellsStart s).freeIx = s.freeIx ∧
    (cellsStart s).pending = s.pending := by
  simp [cellsStart, id @initCell_keep]

theorem coldRom_keep (s : State) :
    (coldRom s).sys = s.sys ∧
    (coldRom s).img = s.img ∧
    (coldRom s).cfg = s.cfg ∧
    (coldRom s).ring = s.ring ∧
    (coldRom s).acq = s.acq ∧
    (coldRom s).cur = s.cur ∧
    (coldRom s).drv = s.drv ∧
    (coldRom s).krn = s.krn ∧
    (coldRom s).est = s.est ∧
    (coldRom s).win = s.win ∧
    (coldRom s).pairs = s.pairs ∧
    (coldRom s).time = s.time ∧
    (coldRom s).therm = s.therm ∧
    (coldRom s).nv = s.nv ∧
    (coldRom s).ledg = s.ledg ∧
    (coldRom s).tally = s.tally ∧
    (coldRom s).recd = s.recd ∧
    (coldRom s).host = s.host ∧
    (coldRom s).sec = s.sec ∧
    (coldRom s).pwr = s.pwr ∧
    (coldRom s).bist = s.bist ∧
    (coldRom s).evt = s.evt ∧
    (coldRom s).pins = s.pins ∧
    (coldRom s).freeIx = s.freeIx ∧
    (coldRom s).pending = s.pending := by
  simp [coldRom, id @loadNet_keep]

theorem coldHold_keep (s : State) :
    (coldHold s).sys = s.sys ∧
    (coldHold s).cfg = s.cfg ∧
    (coldHold s).ring = s.ring ∧
    (coldHold s).acq = s.acq ∧
    (coldHold s).cur = s.cur ∧
    (coldHold s).drv = s.drv ∧
    (coldHold s).est = s.est ∧
    (coldHold s).win = s.win ∧
    (coldHold s).time = s.time ∧
    (coldHold s).therm = s.therm ∧
    (coldHold s).nv = s.nv ∧
    (coldHold s).ledg = s.ledg ∧
    (coldHold s).tally = s.tally ∧
    (coldHold s).host = s.host ∧
    (coldHold s).sec = s.sec ∧
    (coldHold s).pwr = s.pwr ∧
    (coldHold s).pins = s.pins ∧
    (coldHold s).freeIx = s.freeIx ∧
    (coldHold s).pending = s.pending ∧
    (coldHold s).recd.held = s.recd.held ∧
    (coldHold s).evt.held = s.evt.held := by
  simp [coldHold, id @bistAbort_keep, id @coldRom_keep, id @dbgEnd_keep]

theorem execColdActivationHold_keep  {s t : State} (h : execColdActivationHold s = .next t) :
    t.cfg = s.cfg ∧
    t.acq = s.acq ∧
    t.cur = s.cur ∧
    t.time = s.time ∧
    t.therm = s.therm ∧
    t.tally = s.tally ∧
    t.host = s.host ∧
    t.sec = s.sec ∧
    t.freeIx = s.freeIx ∧
    t.pending = s.pending ∧
    t.sys.held = s.sys.held ∧
    t.drv.held = s.drv.held ∧
    t.recd.held = s.recd.held ∧
    t.est.held = s.est.held ∧
    t.pwr.held = s.pwr.held ∧
    t.evt.held = s.evt.held ∧
    t.pins.held = s.pins.held := by
  have e := Host.Outcome.next.inj h
  subst e
  dsimp only
  repeat' split
  all_goals simp [id @checkpoint_keep, id @coldHold_keep, id @settle_keep]

theorem coldFail_keep (s : State) :
    (coldFail s).sys = s.sys ∧
    (coldFail s).cfg = s.cfg ∧
    (coldFail s).ring = s.ring ∧
    (coldFail s).acq = s.acq ∧
    (coldFail s).cur = s.cur ∧
    (coldFail s).drv = s.drv ∧
    (coldFail s).krn = s.krn ∧
    (coldFail s).est = s.est ∧
    (coldFail s).win = s.win ∧
    (coldFail s).pairs = s.pairs ∧
    (coldFail s).time = s.time ∧
    (coldFail s).therm = s.therm ∧
    (coldFail s).nv = s.nv ∧
    (coldFail s).ledg = s.ledg ∧
    (coldFail s).tally = s.tally ∧
    (coldFail s).host = s.host ∧
    (coldFail s).sec = s.sec ∧
    (coldFail s).pwr = s.pwr ∧
    (coldFail s).bist = s.bist ∧
    (coldFail s).pins = s.pins ∧
    (coldFail s).freeIx = s.freeIx ∧
    (coldFail s).pending = s.pending ∧
    (coldFail s).recd.held = s.recd.held ∧
    (coldFail s).evt.held = s.evt.held := by
  unfold coldFail
  repeat' split
  all_goals simp [id @coldRom_keep, id @emit_keep, id @setSlot_keep]

theorem coldProtect_keep (s : State) :
    (coldProtect s).sys = s.sys ∧
    (coldProtect s).ring = s.ring ∧
    (coldProtect s).acq = s.acq ∧
    (coldProtect s).cur = s.cur ∧
    (coldProtect s).drv = s.drv ∧
    (coldProtect s).krn = s.krn ∧
    (coldProtect s).est = s.est ∧
    (coldProtect s).win = s.win ∧
    (coldProtect s).pairs = s.pairs ∧
    (coldProtect s).time = s.time ∧
    (coldProtect s).nv = s.nv ∧
    (coldProtect s).ledg = s.ledg ∧
    (coldProtect s).tally = s.tally ∧
    (coldProtect s).recd = s.recd ∧
    (coldProtect s).host = s.host ∧
    (coldProtect s).sec = s.sec ∧
    (coldProtect s).pwr = s.pwr ∧
    (coldProtect s).bist = s.bist ∧
    (coldProtect s).evt = s.evt ∧
    (coldProtect s).pins = s.pins ∧
    (coldProtect s).freeIx = s.freeIx ∧
    (coldProtect s).pending = s.pending := by
  simp [coldProtect, id @netChange_keep, id @thermApply_keep]

theorem execColdActivationLoadProtection_keep {intact : Bool} {s t : State} (h : execColdActivationLoadProtection intact s = .next t) :
    t.acq = s.acq ∧
    t.cur = s.cur ∧
    t.krn = s.krn ∧
    t.win = s.win ∧
    t.pairs = s.pairs ∧
    t.time = s.time ∧
    t.nv = s.nv ∧
    t.ledg = s.ledg ∧
    t.tally = s.tally ∧
    t.host = s.host ∧
    t.sec = s.sec ∧
    t.bist = s.bist ∧
    t.freeIx = s.freeIx ∧
    t.pending = s.pending ∧
    t.sys.held = s.sys.held ∧
    t.drv.held = s.drv.held ∧
    t.recd.held = s.recd.held ∧
    t.est.held = s.est.held ∧
    t.pwr.held = s.pwr.held ∧
    t.evt.held = s.evt.held ∧
    t.pins.held = s.pins.held := by
  have e := Host.Outcome.next.inj h
  subst e
  simp [id @coldFail_keep, id @coldProtect_keep, id @settle_keep]
  repeat' split
  all_goals simp [id @coldFail_keep, id @coldProtect_keep, id @settle_keep]

theorem execColdActivationEnumerate_keep  {s t : State} (h : execColdActivationEnumerate s = .next t) :
    t.sys = s.sys ∧
    t.cfg = s.cfg ∧
    t.acq = s.acq ∧
    t.cur = s.cur ∧
    t.husk = s.husk ∧
    t.drv = s.drv ∧
    t.krn = s.krn ∧
    t.est = s.est ∧
    t.win = s.win ∧
    t.pairs = s.pairs ∧
    t.time = s.time ∧
    t.therm = s.therm ∧
    t.nv = s.nv ∧
    t.ledg = s.ledg ∧
    t.tally = s.tally ∧
    t.recd = s.recd ∧
    t.host = s.host ∧
    t.sec = s.sec ∧
    t.pwr = s.pwr ∧
    t.bist = s.bist ∧
    t.evt = s.evt ∧
    t.pins = s.pins ∧
    t.freeIx = s.freeIx ∧
    t.pending = s.pending := by
  have e := Host.Outcome.next.inj h
  subst e
  simp [id @modRing_keep]

theorem cellsFollow_keep (topo : Bool) (recs : Tab CellRec) (s : State) :
    (cellsFollow topo recs s).sys = s.sys ∧
    (cellsFollow topo recs s).img = s.img ∧
    (cellsFollow topo recs s).cfg = s.cfg ∧
    (cellsFollow topo recs s).ring = s.ring ∧
    (cellsFollow topo recs s).cur = s.cur ∧
    (cellsFollow topo recs s).husk = s.husk ∧
    (cellsFollow topo recs s).drv = s.drv ∧
    (cellsFollow topo recs s).win = s.win ∧
    (cellsFollow topo recs s).pairs = s.pairs ∧
    (cellsFollow topo recs s).time = s.time ∧
    (cellsFollow topo recs s).therm = s.therm ∧
    (cellsFollow topo recs s).nv = s.nv ∧
    (cellsFollow topo recs s).ledg = s.ledg ∧
    (cellsFollow topo recs s).tally = s.tally ∧
    (cellsFollow topo recs s).recd = s.recd ∧
    (cellsFollow topo recs s).host = s.host ∧
    (cellsFollow topo recs s).sec = s.sec ∧
    (cellsFollow topo recs s).pwr = s.pwr ∧
    (cellsFollow topo recs s).bist = s.bist ∧
    (cellsFollow topo recs s).evt = s.evt ∧
    (cellsFollow topo recs s).pins = s.pins ∧
    (cellsFollow topo recs s).freeIx = s.freeIx ∧
    (cellsFollow topo recs s).pending = s.pending := by
  simp [cellsFollow]

theorem coldModels_keep (s0 : State) :
    (coldModels s0).husk = s0.husk ∧
    (coldModels s0).drv = s0.drv ∧
    (coldModels s0).time = s0.time ∧
    (coldModels s0).therm = s0.therm ∧
    (coldModels s0).ledg = s0.ledg ∧
    (coldModels s0).sec = s0.sec ∧
    (coldModels s0).pwr = s0.pwr ∧
    (coldModels s0).bist = s0.bist ∧
    (coldModels s0).pins = s0.pins ∧
    (coldModels s0).freeIx = s0.freeIx ∧
    (coldModels s0).pending = s0.pending := by
  simp [coldModels, id @allRefit_keep, id @allThresholds_keep, id @assignRing_keep, id @cellsFollow_keep,
      id @cellsStart_keep, id @cfgWrite_keep, id @handIn2_keep, id @hostApply_keep, id @mapsLoad_keep,
          id @modeAccept_keep, id @nvQueue_keep, id @nvTaken_keep, id @pairClear_keep, id @reassociate_keep,
              id @recApply_keep, id @threshWrite_keep]

theorem execColdActivationLoadModels_keep {intact : Bool} {s t : State} (h : execColdActivationLoadModels intact s = .next t) :
    t.time = s.time ∧
    t.therm = s.therm ∧
    t.ledg = s.ledg ∧
    t.sec = s.sec ∧
    t.bist = s.bist ∧
    t.freeIx = s.freeIx ∧
    t.pending = s.pending ∧
    t.drv.held = s.drv.held ∧
    t.pwr.held = s.pwr.held ∧
    t.pins.held = s.pins.held := by
  have e := Host.Outcome.next.inj h
  subst e
  simp [id @coldFail_keep, id @coldModels_keep, id @settle_keep]
  repeat' split
  all_goals simp [id @coldFail_keep, id @coldModels_keep, id @settle_keep]

theorem execColdActivationComplete_keep  {s t : State} (h : execColdActivationComplete s = .next t) :
    t.acq = s.acq ∧
    t.cur = s.cur ∧
    t.krn = s.krn ∧
    t.win = s.win ∧
    t.pairs = s.pairs ∧
    t.time = s.time ∧
    t.therm = s.therm ∧
    t.nv = s.nv ∧
    t.ledg = s.ledg ∧
    t.tally = s.tally ∧
    t.host = s.host ∧
    t.sec = s.sec ∧
    t.bist = s.bist ∧
    t.freeIx = s.freeIx ∧
    t.pending = s.pending ∧
    t.sys.held = s.sys.held ∧
    t.drv.held = s.drv.held ∧
    t.recd.held = s.recd.held ∧
    t.est.held = s.est.held ∧
    t.pwr.held = s.pwr.held ∧
    t.evt.held = s.evt.held ∧
    t.pins.held = s.pins.held := by
  have e := Host.Outcome.next.inj h
  subst e
  dsimp only
  repeat' split
  all_goals simp [id @activated_keep, id @rearmClose_keep, id @settle_keep]

end Sys2Proof.Machine
end

