-- ==== Sys2Proof/Laws/KeepReset.lean ====
section
/-! SUPPORT. What the operations of Machine/Reset.lean leave unchanged. -/

namespace Sys2Proof.Machine

theorem lDieReset_keep (husk : Bool) (s : State) :
    (lDieReset husk s).freeIx = s.freeIx ∧
    (lDieReset husk s).pending = s.pending ∧
    (lDieReset husk s).sec.mid = s.sec.mid ∧
    (lDieReset husk s).sec.devKey = s.sec.devKey := by
  simp [lDieReset]

theorem coreOff_keep (husk : Bool) (s : State) :
    (coreOff husk s).freeIx = s.freeIx ∧
    (coreOff husk s).pending = s.pending ∧
    (coreOff husk s).sec.mid = s.sec.mid ∧
    (coreOff husk s).sec.devKey = s.sec.devKey := by
  simp [coreOff, id @lDieReset_keep]

theorem deviceOff_keep (s : State) :
    (deviceOff s).freeIx = s.freeIx ∧
    (deviceOff s).pending = s.pending ∧
    (deviceOff s).sec.mid = s.sec.mid ∧
    (deviceOff s).sec.devKey = s.sec.devKey := by
  simp [deviceOff, id @lDieReset_keep]

end Sys2Proof.Machine
end

