-- ==== Sys2Proof/Laws/KeepStartup.lean ====
section
/-! SUPPORT. What the operations of Machine/Startup.lean leave unchanged. -/

namespace Sys2Proof.Machine

theorem startBegin_keep (cause : Nat) (s : State) :
    (startBegin cause s).freeIx = s.freeIx ∧
    (startBegin cause s).pending = s.pending ∧
    (startBegin cause s).sec.mid = s.sec.mid ∧
    (startBegin cause s).sec.devKey = s.sec.devKey := by
  simp [startBegin, id @bootBegin_keep, id @lDieReset_keep]

theorem execVsupValid_keep {vsup : Nat} {s t : State} (h : execVsupValid vsup s = .next t) :
    t.freeIx = s.freeIx ∧
    t.pending = s.pending ∧
    t.sec.mid = s.sec.mid ∧
    t.sec.devKey = s.sec.devKey := by
  have e := Host.Outcome.next.inj h
  subst e
  simp [id @settle_keep, id @startBegin_keep]
  repeat' split
  all_goals simp [id @settle_keep, id @startBegin_keep]

theorem execStartupPDieUp_keep  {s t : State} (h : execStartupPDieUp s = .next t) :
    t.img = s.img ∧
    t.cfg = s.cfg ∧
    t.acq = s.acq ∧
    t.cur = s.cur ∧
    t.krn = s.krn ∧
    t.win = s.win ∧
    t.pairs = s.pairs ∧
    t.time = s.time ∧
    t.therm = s.therm ∧
    t.nv = s.nv ∧
    t.ledg = s.ledg ∧
    t.tally = s.tally ∧
    t.host = s.host ∧
    t.sec = s.sec ∧
    t.bist = s.bist ∧
    t.freeIx = s.freeIx ∧
    t.pending = s.pending ∧
    t.husk.held = s.husk.held ∧
    t.drv.held = s.drv.held ∧
    t.recd.held = s.recd.held ∧
    t.est.held = s.est.held ∧
    t.evt.held = s.evt.held ∧
    t.pins.held = s.pins.held := by
  have e := Host.Outcome.next.inj h
  subst e
  dsimp only
  repeat' split
  all_goals simp [id @settle_keep]

theorem tnsRestore_keep (s : State) :
    (tnsRestore s).img = s.img ∧
    (tnsRestore s).cfg = s.cfg ∧
    (tnsRestore s).ring = s.ring ∧
    (tnsRestore s).acq = s.acq ∧
    (tnsRestore s).cur = s.cur ∧
    (tnsRestore s).husk = s.husk ∧
    (tnsRestore s).drv = s.drv ∧
    (tnsRestore s).krn = s.krn ∧
    (tnsRestore s).est = s.est ∧
    (tnsRestore s).win = s.win ∧
    (tnsRestore s).pairs = s.pairs ∧
    (tnsRestore s).therm = s.therm ∧
    (tnsRestore s).ledg = s.ledg ∧
    (tnsRestore s).tally = s.tally ∧
    (tnsRestore s).host = s.host ∧
    (tnsRestore s).sec = s.sec ∧
    (tnsRestore s).pwr = s.pwr ∧
    (tnsRestore s).bist = s.bist ∧
    (tnsRestore s).pins = s.pins ∧
    (tnsRestore s).freeIx = s.freeIx ∧
    (tnsRestore s).pending = s.pending ∧
    (tnsRestore s).evt.held = s.evt.held := by
  unfold tnsRestore
  repeat' split
  all_goals simp [id @emit_keep]

theorem pfwRead_keep (s : State) :
    (pfwRead s).sys = s.sys ∧
    (pfwRead s).img = s.img ∧
    (pfwRead s).cfg = s.cfg ∧
    (pfwRead s).ring = s.ring ∧
    (pfwRead s).acq = s.acq ∧
    (pfwRead s).cur = s.cur ∧
    (pfwRead s).husk = s.husk ∧
    (pfwRead s).drv = s.drv ∧
    (pfwRead s).krn = s.krn ∧
    (pfwRead s).est = s.est ∧
    (pfwRead s).win = s.win ∧
    (pfwRead s).pairs = s.pairs ∧
    (pfwRead s).time = s.time ∧
    (pfwRead s).therm = s.therm ∧
    (pfwRead s).nv = s.nv ∧
    (pfwRead s).ledg = s.ledg ∧
    (pfwRead s).tally = s.tally ∧
    (pfwRead s).recd = s.recd ∧
    (pfwRead s).host = s.host ∧
    (pfwRead s).sec = s.sec ∧
    (pfwRead s).bist = s.bist ∧
    (pfwRead s).evt = s.evt ∧
    (pfwRead s).pins = s.pins ∧
    (pfwRead s).freeIx = s.freeIx ∧
    (pfwRead s).pending = s.pending := by
  simp [pfwRead]

theorem coreUp_keep (keyOk : Bool) (aOk : Bool) (bOk : Bool) (sealOpen : Bool) (s : State) :
    (coreUp keyOk aOk bOk sealOpen s).freeIx = s.freeIx ∧
    (coreUp keyOk aOk bOk sealOpen s).pending = s.pending ∧
    (coreUp keyOk aOk bOk sealOpen s).sec.mid = s.sec.mid ∧
    (coreUp keyOk aOk bOk sealOpen s).sec.devKey = s.sec.devKey := by
  unfold coreUp
  repeat' split
  all_goals simp [id @keyRegionLost_keep, id @lDieReset_keep, id @pfwRead_keep, id @sealCheck_keep,
      id @tnsRestore_keep]

theorem execStartupCoreUp_keep {keyOk : Bool} {aOk : Bool} {bOk : Bool} {sealOpen : Bool} {s t : State} (h : execStartupCoreUp keyOk aOk bOk sealOpen s = .next t) :
    t.freeIx = s.freeIx ∧
    t.pending = s.pending ∧
    t.sec.mid = s.sec.mid ∧
    t.sec.devKey = s.sec.devKey := by
  have e := Host.Outcome.next.inj h
  subst e
  simp [id @coreUp_keep, id @settle_keep]
  repeat' split
  all_goals simp [id @coreUp_keep, id @settle_keep]

theorem execStrapLatch_keep {c0 : BitVec 2} {c1 : BitVec 2} {c2 : BitVec 2} {u3 : Bool} {u4 : Bool} {p2 : Bool} {s t : State} (h : execStrapLatch c0 c1 c2 u3 u4 p2 s = .next t) :
    t.img = s.img ∧
    t.cfg = s.cfg ∧
    t.acq = s.acq ∧
    t.cur = s.cur ∧
    t.krn = s.krn ∧
    t.win = s.win ∧
    t.pairs = s.pairs ∧
    t.time = s.time ∧
    t.therm = s.therm ∧
    t.nv = s.nv ∧
    t.ledg = s.ledg ∧
    t.tally = s.tally ∧
    t.host = s.host ∧
    t.bist = s.bist ∧
    t.freeIx = s.freeIx ∧
    t.pending = s.pending ∧
    t.sec.mid = s.sec.mid ∧
    t.sec.devKey = s.sec.devKey ∧
    t.drv.held = s.drv.held ∧
    t.recd.held = s.recd.held ∧
    t.est.held = s.est.held ∧
    t.pwr.held = s.pwr.held ∧
    t.evt.held = s.evt.held ∧
    t.pins.held = s.pins.held := by
  have e := Host.Outcome.next.inj h
  subst e
  dsimp only
  repeat' split
  all_goals simp [id @emitIf_keep, id @presStart_keep, id @settle_keep]

theorem slotRead_keep (x : ImgSrc) (ok : Bool) (s : State) :
    (slotRead x ok s).sys = s.sys ∧
    (slotRead x ok s).cfg = s.cfg ∧
    (slotRead x ok s).ring = s.ring ∧
    (slotRead x ok s).acq = s.acq ∧
    (slotRead x ok s).cur = s.cur ∧
    (slotRead x ok s).husk = s.husk ∧
    (slotRead x ok s).drv = s.drv ∧
    (slotRead x ok s).krn = s.krn ∧
    (slotRead x ok s).est = s.est ∧
    (slotRead x ok s).win = s.win ∧
    (slotRead x ok s).pairs = s.pairs ∧
    (slotRead x ok s).time = s.time ∧
    (slotRead x ok s).therm = s.therm ∧
    (slotRead x ok s).nv = s.nv ∧
    (slotRead x ok s).ledg = s.ledg ∧
    (slotRead x ok s).tally = s.tally ∧
    (slotRead x ok s).host = s.host ∧
    (slotRead x ok s).sec = s.sec ∧
    (slotRead x ok s).pwr = s.pwr ∧
    (slotRead x ok s).bist = s.bist ∧
    (slotRead x ok s).pins = s.pins ∧
    (slotRead x ok s).freeIx = s.freeIx ∧
    (slotRead x ok s).pending = s.pending ∧
    (slotRead x ok s).recd.held = s.recd.held ∧
    (slotRead x ok s).evt.held = s.evt.held := by
  simp [slotRead, id @emitIf_keep, id @setSlot_keep]

theorem slotAbandon_keep (x : ImgSrc) (f : Nat × Nat) (s : State) :
    (slotAbandon x f s).sys = s.sys ∧
    (slotAbandon x f s).cfg = s.cfg ∧
    (slotAbandon x f s).ring = s.ring ∧
    (slotAbandon x f s).acq = s.acq ∧
    (slotAbandon x f s).cur = s.cur ∧
    (slotAbandon x f s).husk = s.husk ∧
    (slotAbandon x f s).drv = s.drv ∧
    (slotAbandon x f s).krn = s.krn ∧
    (slotAbandon x f s).est = s.est ∧
    (slotAbandon x f s).win = s.win ∧
    (slotAbandon x f s).pairs = s.pairs ∧
    (slotAbandon x f s).time = s.time ∧
    (slotAbandon x f s).therm = s.therm ∧
    (slotAbandon x f s).nv = s.nv ∧
    (slotAbandon x f s).ledg = s.ledg ∧
    (slotAbandon x f s).tally = s.tally ∧
    (slotAbandon x f s).host = s.host ∧
    (slotAbandon x f s).sec = s.sec ∧
    (slotAbandon x f s).pwr = s.pwr ∧
    (slotAbandon x f s).bist = s.bist ∧
    (slotAbandon x f s).pins = s.pins ∧
    (slotAbandon x f s).freeIx = s.freeIx ∧
    (slotAbandon x f s).pending = s.pending ∧
    (slotAbandon x f s).recd.held = s.recd.held ∧
    (slotAbandon x f s).evt.held = s.evt.held := by
  simp [slotAbandon, id @emit_keep, id @setSlot_keep]

theorem slotTry_keep (bad : ImgSrc → Option (Nat × Nat)) (l : List ImgSrc) (s : State) :
    (slotTry bad l s).2.sys = s.sys ∧
    (slotTry bad l s).2.cfg = s.cfg ∧
    (slotTry bad l s).2.ring = s.ring ∧
    (slotTry bad l s).2.acq = s.acq ∧
    (slotTry bad l s).2.cur = s.cur ∧
    (slotTry bad l s).2.husk = s.husk ∧
    (slotTry bad l s).2.drv = s.drv ∧
    (slotTry bad l s).2.krn = s.krn ∧
    (slotTry bad l s).2.est = s.est ∧
    (slotTry bad l s).2.win = s.win ∧
    (slotTry bad l s).2.pairs = s.pairs ∧
    (slotTry bad l s).2.time = s.time ∧
    (slotTry bad l s).2.therm = s.therm ∧
    (slotTry bad l s).2.nv = s.nv ∧
    (slotTry bad l s).2.ledg = s.ledg ∧
    (slotTry bad l s).2.tally = s.tally ∧
    (slotTry bad l s).2.host = s.host ∧
    (slotTry bad l s).2.sec = s.sec ∧
    (slotTry bad l s).2.pwr = s.pwr ∧
    (slotTry bad l s).2.bist = s.bist ∧
    (slotTry bad l s).2.pins = s.pins ∧
    (slotTry bad l s).2.freeIx = s.freeIx ∧
    (slotTry bad l s).2.pending = s.pending ∧
    (slotTry bad l s).2.recd.held = s.recd.held ∧
    (slotTry bad l s).2.evt.held = s.evt.held := by
  induction l generalizing s with
  | nil => simp [slotTry]
  | cons x xs ih =>
    unfold slotTry
    split
    · simp
    · simp [ih, id @slotAbandon_keep]

theorem imgLoad_keep (x : ImgSrc) (netOk : Bool) (romOk : Bool) (s0 : State) :
    (imgLoad x netOk romOk s0).ring = s0.ring ∧
    (imgLoad x netOk romOk s0).acq = s0.acq ∧
    (imgLoad x netOk romOk s0).cur = s0.cur ∧
    (imgLoad x netOk romOk s0).drv = s0.drv ∧
    (imgLoad x netOk romOk s0).est = s0.est ∧
    (imgLoad x netOk romOk s0).pairs = s0.pairs ∧
    (imgLoad x netOk romOk s0).time = s0.time ∧
    (imgLoad x netOk romOk s0).ledg = s0.ledg ∧
    (imgLoad x netOk romOk s0).tally = s0.tally ∧
    (imgLoad x netOk romOk s0).host = s0.host ∧
    (imgLoad x netOk romOk s0).sec = s0.sec ∧
    (imgLoad x netOk romOk s0).pwr = s0.pwr ∧
    (imgLoad x netOk romOk s0).bist = s0.bist ∧
    (imgLoad x netOk romOk s0).pins = s0.pins ∧
    (imgLoad x netOk romOk s0).freeIx = s0.freeIx ∧
    (imgLoad x netOk romOk s0).pending = s0.pending ∧
    (imgLoad x netOk romOk s0).recd.held = s0.recd.held := by
  unfold imgLoad
  repeat' split
  all_goals simp [id @emit_keep, id @loadNet_keep, id @nvQueue_keep, id @thermApply_keep]

theorem linkLoad_keep (s : State) :
    (linkLoad s).img = s.img ∧
    (linkLoad s).cfg = s.cfg ∧
    (linkLoad s).ring = s.ring ∧
    (linkLoad s).acq = s.acq ∧
    (linkLoad s).cur = s.cur ∧
    (linkLoad s).husk = s.husk ∧
    (linkLoad s).drv = s.drv ∧
    (linkLoad s).krn = s.krn ∧
    (linkLoad s).est = s.est ∧
    (linkLoad s).win = s.win ∧
    (linkLoad s).pairs = s.pairs ∧
    (linkLoad s).time = s.time ∧
    (linkLoad s).therm = s.therm ∧
    (linkLoad s).nv = s.nv ∧
    (linkLoad s).ledg = s.ledg ∧
    (linkLoad s).tally = s.tally ∧
    (linkLoad s).sec = s.sec ∧
    (linkLoad s).pwr = s.pwr ∧
    (linkLoad s).bist = s.bist ∧
    (linkLoad s).pins = s.pins ∧
    (linkLoad s).freeIx = s.freeIx ∧
    (linkLoad s).pending = s.pending := by
  simp [linkLoad, id @canFollow_keep, id @mapsLoad_keep, id @recApply_keep]

theorem execStartupImageSelect_keep {aOk : Bool} {bOk : Bool} {fa : Option (Nat × Nat)} {fb : Option (Nat × Nat)} {netOk : Bool} {romOk : Bool} {s t : State} (h : execStartupImageSelect aOk bOk fa fb netOk romOk s = .next t) :
    t.acq = s.acq ∧
    t.cur = s.cur ∧
    t.pairs = s.pairs ∧
    t.time = s.time ∧
    t.ledg = s.ledg ∧
    t.tally = s.tally ∧
    t.sec = s.sec ∧
    t.bist = s.bist ∧
    t.freeIx = s.freeIx ∧
    t.pending = s.pending ∧
    t.drv.held = s.drv.held ∧
    t.est.held = s.est.held ∧
    t.pwr.held = s.pwr.held ∧
    t.pins.held = s.pins.held := by
  have e := Host.Outcome.next.inj h
  subst e
  dsimp only
  repeat' split
  all_goals simp [id @emit_keep, id @imgLoad_keep, id @linkLoad_keep, id @settle_keep, id @slotRead_keep,
      id @slotTry_keep]

theorem badBank_keep (s : State) (e : Nat × Bool) :
    (badBank s e).sys = s.sys ∧
    (badBank s e).img = s.img ∧
    (badBank s e).cfg = s.cfg ∧
    (badBank s e).ring = s.ring ∧
    (badBank s e).acq = s.acq ∧
    (badBank s e).cur = s.cur ∧
    (badBank s e).husk = s.husk ∧
    (badBank s e).drv = s.drv ∧
    (badBank s e).krn = s.krn ∧
    (badBank s e).est = s.est ∧
    (badBank s e).win = s.win ∧
    (badBank s e).pairs = s.pairs ∧
    (badBank s e).time = s.time ∧
    (badBank s e).therm = s.therm ∧
    (badBank s e).ledg = s.ledg ∧
    (badBank s e).tally = s.tally ∧
    (badBank s e).host = s.host ∧
    (badBank s e).sec = s.sec ∧
    (badBank s e).pwr = s.pwr ∧
    (badBank s e).bist = s.bist ∧
    (badBank s e).pins = s.pins ∧
    (badBank s e).freeIx = s.freeIx ∧
    (badBank s e).pending = s.pending ∧
    (badBank s e).recd.held = s.recd.held ∧
    (badBank s e).evt.held = s.evt.held := by
  unfold badBank
  repeat' split
  all_goals simp [id @nvBankBad_keep]

theorem badBanks_keep (bad : List (Nat × Bool)) (s : State) :
    (badBanks bad s).sys = s.sys ∧
    (badBanks bad s).img = s.img ∧
    (badBanks bad s).cfg = s.cfg ∧
    (badBanks bad s).ring = s.ring ∧
    (badBanks bad s).acq = s.acq ∧
    (badBanks bad s).cur = s.cur ∧
    (badBanks bad s).husk = s.husk ∧
    (badBanks bad s).drv = s.drv ∧
    (badBanks bad s).krn = s.krn ∧
    (badBanks bad s).est = s.est ∧
    (badBanks bad s).win = s.win ∧
    (badBanks bad s).pairs = s.pairs ∧
    (badBanks bad s).time = s.time ∧
    (badBanks bad s).therm = s.therm ∧
    (badBanks bad s).ledg = s.ledg ∧
    (badBanks bad s).tally = s.tally ∧
    (badBanks bad s).host = s.host ∧
    (badBanks bad s).sec = s.sec ∧
    (badBanks bad s).pwr = s.pwr ∧
    (badBanks bad s).bist = s.bist ∧
    (badBanks bad s).pins = s.pins ∧
    (badBanks bad s).freeIx = s.freeIx ∧
    (badBanks bad s).pending = s.pending ∧
    (badBanks bad s).recd.held = s.recd.held ∧
    (badBanks bad s).evt.held = s.evt.held := by
  simp [badBanks, id @badBank_keep]

theorem curCalLoad_keep (s : State) :
    (curCalLoad s).sys = s.sys ∧
    (curCalLoad s).img = s.img ∧
    (curCalLoad s).cfg = s.cfg ∧
    (curCalLoad s).ring = s.ring ∧
    (curCalLoad s).acq = s.acq ∧
    (curCalLoad s).husk = s.husk ∧
    (curCalLoad s).drv = s.drv ∧
    (curCalLoad s).krn = s.krn ∧
    (curCalLoad s).est = s.est ∧
    (curCalLoad s).win = s.win ∧
    (curCalLoad s).pairs = s.pairs ∧
    (curCalLoad s).time = s.time ∧
    (curCalLoad s).therm = s.therm ∧
    (curCalLoad s).nv = s.nv ∧
    (curCalLoad s).ledg = s.ledg ∧
    (curCalLoad s).tally = s.tally ∧
    (curCalLoad s).host = s.host ∧
    (curCalLoad s).sec = s.sec ∧
    (curCalLoad s).pwr = s.pwr ∧
    (curCalLoad s).bist = s.bist ∧
    (curCalLoad s).pins = s.pins ∧
    (curCalLoad s).freeIx = s.freeIx ∧
    (curCalLoad s).pending = s.pending ∧
    (curCalLoad s).recd.held = s.recd.held ∧
    (curCalLoad s).evt.held = s.evt.held := by
  unfold curCalLoad
  repeat' split
  all_goals simp [id @emit_keep, id @modCh_keep]

theorem execStartupRings_keep {xtal : Bool} {bad : List (Nat × Bool)} {s t : State} (h : execStartupRings xtal bad s = .next t) :
    t.img = s.img ∧
    t.cfg = s.cfg ∧
    t.krn = s.krn ∧
    t.pairs = s.pairs ∧
    t.therm = s.therm ∧
    t.ledg = s.ledg ∧
    t.tally = s.tally ∧
    t.host = s.host ∧
    t.sec = s.sec ∧
    t.bist = s.bist ∧
    t.freeIx = s.freeIx ∧
    t.pending = s.pending ∧
    t.husk.held = s.husk.held ∧
    t.drv.held = s.drv.held ∧
    t.recd.held = s.recd.held ∧
    t.est.held = s.est.held ∧
    t.pwr.held = s.pwr.held ∧
    t.evt.held = s.evt.held ∧
    t.pins.held = s.pins.held := by
  have e := Host.Outcome.next.inj h
  subst e
  dsimp only
  repeat' split
  all_goals simp [id @allThresholds_keep, id @badBanks_keep, id @cmpTest_keep, id @curCalLoad_keep,
      id @curStart_keep, id @settle_keep]

theorem bootTest_keep (fs : List (Nat × Nat × Nat × Nat)) (s : State) :
    (bootTest fs s).sys = s.sys ∧
    (bootTest fs s).img = s.img ∧
    (bootTest fs s).cfg = s.cfg ∧
    (bootTest fs s).ring = s.ring ∧
    (bootTest fs s).acq = s.acq ∧
    (bootTest fs s).cur = s.cur ∧
    (bootTest fs s).husk = s.husk ∧
    (bootTest fs s).drv = s.drv ∧
    (bootTest fs s).krn = s.krn ∧
    (bootTest fs s).est = s.est ∧
    (bootTest fs s).win = s.win ∧
    (bootTest fs s).pairs = s.pairs ∧
    (bootTest fs s).time = s.time ∧
    (bootTest fs s).therm = s.therm ∧
    (bootTest fs s).nv = s.nv ∧
    (bootTest fs s).ledg = s.ledg ∧
    (bootTest fs s).tally = s.tally ∧
    (bootTest fs s).host = s.host ∧
    (bootTest fs s).sec = s.sec ∧
    (bootTest fs s).pwr = s.pwr ∧
    (bootTest fs s).pins = s.pins ∧
    (bootTest fs s).freeIx = s.freeIx ∧
    (bootTest fs s).pending = s.pending ∧
    (bootTest fs s).recd.held = s.recd.held ∧
    (bootTest fs s).evt.held = s.evt.held := by
  simp [bootTest, id @emit_keep]

theorem sectLost_keep (ty : Nat) (cause : Nat) (s : State) :
    (sectLost ty cause s).img = s.img ∧
    (sectLost ty cause s).cfg = s.cfg ∧
    (sectLost ty cause s).ring = s.ring ∧
    (sectLost ty cause s).acq = s.acq ∧
    (sectLost ty cause s).cur = s.cur ∧
    (sectLost ty cause s).husk = s.husk ∧
    (sectLost ty cause s).drv = s.drv ∧
    (sectLost ty cause s).krn = s.krn ∧
    (sectLost ty cause s).est = s.est ∧
    (sectLost ty cause s).win = s.win ∧
    (sectLost ty cause s).pairs = s.pairs ∧
    (sectLost ty cause s).time = s.time ∧
    (sectLost ty cause s).therm = s.therm ∧
    (sectLost ty cause s).nv = s.nv ∧
    (sectLost ty cause s).ledg = s.ledg ∧
    (sectLost ty cause s).tally = s.tally ∧
    (sectLost ty cause s).host = s.host ∧
    (sectLost ty cause s).sec = s.sec ∧
    (sectLost ty cause s).pwr = s.pwr ∧
    (sectLost ty cause s).bist = s.bist ∧
    (sectLost ty cause s).pins = s.pins ∧
    (sectLost ty cause s).freeIx = s.freeIx ∧
    (sectLost ty cause s).pending = s.pending ∧
    (sectLost ty cause s).recd.held = s.recd.held ∧
    (sectLost ty cause s).evt.held = s.evt.held := by
  unfold sectLost
  repeat' split
  all_goals simp [id @emit_keep]

theorem stewardBoot_keep (s : State) :
    (stewardBoot s).img = s.img ∧
    (stewardBoot s).cfg = s.cfg ∧
    (stewardBoot s).ring = s.ring ∧
    (stewardBoot s).acq = s.acq ∧
    (stewardBoot s).cur = s.cur ∧
    (stewardBoot s).husk = s.husk ∧
    (stewardBoot s).drv = s.drv ∧
    (stewardBoot s).krn = s.krn ∧
    (stewardBoot s).est = s.est ∧
    (stewardBoot s).win = s.win ∧
    (stewardBoot s).pairs = s.pairs ∧
    (stewardBoot s).time = s.time ∧
    (stewardBoot s).therm = s.therm ∧
    (stewardBoot s).nv = s.nv ∧
    (stewardBoot s).ledg = s.ledg ∧
    (stewardBoot s).tally = s.tally ∧
    (stewardBoot s).host = s.host ∧
    (stewardBoot s).sec = s.sec ∧
    (stewardBoot s).pwr = s.pwr ∧
    (stewardBoot s).bist = s.bist ∧
    (stewardBoot s).pins = s.pins ∧
    (stewardBoot s).freeIx = s.freeIx ∧
    (stewardBoot s).pending = s.pending ∧
    (stewardBoot s).recd.held = s.recd.held ∧
    (stewardBoot s).evt.held = s.evt.held := by
  simp [stewardBoot, id @emitIf_keep]

theorem deviceLoad_keep (s : State) :
    (deviceLoad s).sys = s.sys ∧
    (deviceLoad s).img = s.img ∧
    (deviceLoad s).cfg = s.cfg ∧
    (deviceLoad s).ring = s.ring ∧
    (deviceLoad s).acq = s.acq ∧
    (deviceLoad s).cur = s.cur ∧
    (deviceLoad s).husk = s.husk ∧
    (deviceLoad s).drv = s.drv ∧
    (deviceLoad s).krn = s.krn ∧
    (deviceLoad s).est = s.est ∧
    (deviceLoad s).win = s.win ∧
    (deviceLoad s).pairs = s.pairs ∧
    (deviceLoad s).time = s.time ∧
    (deviceLoad s).therm = s.therm ∧
    (deviceLoad s).nv = s.nv ∧
    (deviceLoad s).ledg = s.ledg ∧
    (deviceLoad s).tally = s.tally ∧
    (deviceLoad s).sec = s.sec ∧
    (deviceLoad s).bist = s.bist ∧
    (deviceLoad s).evt = s.evt ∧
    (deviceLoad s).pins = s.pins ∧
    (deviceLoad s).freeIx = s.freeIx ∧
    (deviceLoad s).pending = s.pending := by
  unfold deviceLoad
  repeat' split
  all_goals simp

theorem stewardStarts_keep (s : State) :
    (stewardStarts s).img = s.img ∧
    (stewardStarts s).cfg = s.cfg ∧
    (stewardStarts s).ring = s.ring ∧
    (stewardStarts s).acq = s.acq ∧
    (stewardStarts s).cur = s.cur ∧
    (stewardStarts s).husk = s.husk ∧
    (stewardStarts s).drv = s.drv ∧
    (stewardStarts s).krn = s.krn ∧
    (stewardStarts s).est = s.est ∧
    (stewardStarts s).win = s.win ∧
    (stewardStarts s).pairs = s.pairs ∧
    (stewardStarts s).time = s.time ∧
    (stewardStarts s).therm = s.therm ∧
    (stewardStarts s).nv = s.nv ∧
    (stewardStarts s).ledg = s.ledg ∧
    (stewardStarts s).tally = s.tally ∧
    (stewardStarts s).sec = s.sec ∧
    (stewardStarts s).pwr = s.pwr ∧
    (stewardStarts s).bist = s.bist ∧
    (stewardStarts s).pins = s.pins ∧
    (stewardStarts s).freeIx = s.freeIx ∧
    (stewardStarts s).pending = s.pending := by
  simp [stewardStarts, id @linkLoad_keep]

theorem execStartupSteward_keep {bad : List (Nat × Bool)} {recBad : Nat} {hostBad : Nat} {tests : List (Nat × Nat × Nat × Nat)} {s t : State} (h : execStartupSteward bad recBad hostBad tests s = .next t) :
    t.img = s.img ∧
    t.acq = s.acq ∧
    t.cur = s.cur ∧
    t.pairs = s.pairs ∧
    t.time = s.time ∧
    t.therm = s.therm ∧
    t.ledg = s.ledg ∧
    t.tally = s.tally ∧
    t.sec = s.sec ∧
    t.freeIx = s.freeIx ∧
    t.pending = s.pending ∧
    t.husk.held = s.husk.held ∧
    t.drv.held = s.drv.held ∧
    t.est.held = s.est.held ∧
    t.pins.held = s.pins.held := by
  have e := Host.Outcome.next.inj h
  subst e
  dsimp only
  repeat' split
  all_goals simp [id @badBanks_keep, id @bootTest_keep, id @deviceLoad_keep, id @recStart_keep, id @sectLost_keep,
      id @settle_keep, id @stewardBoot_keep, id @stewardStarts_keep]

theorem nvAssociate_keep (s : State) :
    (nvAssociate s).sys = s.sys ∧
    (nvAssociate s).img = s.img ∧
    (nvAssociate s).cfg = s.cfg ∧
    (nvAssociate s).ring = s.ring ∧
    (nvAssociate s).cur = s.cur ∧
    (nvAssociate s).husk = s.husk ∧
    (nvAssociate s).drv = s.drv ∧
    (nvAssociate s).est = s.est ∧
    (nvAssociate s).pairs = s.pairs ∧
    (nvAssociate s).time = s.time ∧
    (nvAssociate s).therm = s.therm ∧
    (nvAssociate s).ledg = s.ledg ∧
    (nvAssociate s).host = s.host ∧
    (nvAssociate s).sec = s.sec ∧
    (nvAssociate s).pwr = s.pwr ∧
    (nvAssociate s).bist = s.bist ∧
    (nvAssociate s).pins = s.pins ∧
    (nvAssociate s).freeIx = s.freeIx ∧
    (nvAssociate s).pending = s.pending ∧
    (nvAssociate s).recd.held = s.recd.held ∧
    (nvAssociate s).evt.held = s.evt.held := by
  simp [nvAssociate, id @emitIf_keep, id @reassociate_keep]

theorem modelsLoad_keep (kprog : Nat) (ktab : Nat) (est : Nat) (win : Nat) (s : State) :
    (modelsLoad kprog ktab est win s).img = s.img ∧
    (modelsLoad kprog ktab est win s).cfg = s.cfg ∧
    (modelsLoad kprog ktab est win s).ring = s.ring ∧
    (modelsLoad kprog ktab est win s).cur = s.cur ∧
    (modelsLoad kprog ktab est win s).husk = s.husk ∧
    (modelsLoad kprog ktab est win s).drv = s.drv ∧
    (modelsLoad kprog ktab est win s).time = s.time ∧
    (modelsLoad kprog ktab est win s).therm = s.therm ∧
    (modelsLoad kprog ktab est win s).ledg = s.ledg ∧
    (modelsLoad kprog ktab est win s).host = s.host ∧
    (modelsLoad kprog ktab est win s).sec = s.sec ∧
    (modelsLoad kprog ktab est win s).pwr = s.pwr ∧
    (modelsLoad kprog ktab est win s).bist = s.bist ∧
    (modelsLoad kprog ktab est win s).pins = s.pins ∧
    (modelsLoad kprog ktab est win s).freeIx = s.freeIx ∧
    (modelsLoad kprog ktab est win s).pending = s.pending ∧
    (modelsLoad kprog ktab est win s).recd.held = s.recd.held ∧
    (modelsLoad kprog ktab est win s).evt.held = s.evt.held := by
  unfold modelsLoad
  repeat' split
  all_goals simp [id @cellsStart_keep, id @evenRule_keep, id @nvAssociate_keep, id @sectLost_keep]

theorem execStartupEstimate_keep {bad : List (Nat × Bool)} {kprog : Nat} {ktab : Nat} {est : Nat} {win : Nat} {tests : List (Nat × Nat × Nat × Nat)} {s t : State} (h : execStartupEstimate bad kprog ktab est win tests s = .next t) :
    t.img = s.img ∧
    t.cfg = s.cfg ∧
    t.cur = s.cur ∧
    t.time = s.time ∧
    t.therm = s.therm ∧
    t.ledg = s.ledg ∧
    t.host = s.host ∧
    t.sec = s.sec ∧
    t.freeIx = s.freeIx ∧
    t.pending = s.pending ∧
    t.husk.held = s.husk.held ∧
    t.drv.held = s.drv.held ∧
    t.recd.held = s.recd.held ∧
    t.pwr.held = s.pwr.held ∧
    t.evt.held = s.evt.held ∧
    t.pins.held = s.pins.held := by
  have e := Host.Outcome.next.inj h
  subst e
  dsimp only
  repeat' split
  all_goals simp [id @badBanks_keep, id @bootTest_keep, id @modelsLoad_keep, id @settle_keep]

theorem lgPublish_keep (s : State) (x : LgSlot) :
    (lgPublish s x).sys = s.sys ∧
    (lgPublish s x).img = s.img ∧
    (lgPublish s x).cfg = s.cfg ∧
    (lgPublish s x).ring = s.ring ∧
    (lgPublish s x).acq = s.acq ∧
    (lgPublish s x).cur = s.cur ∧
    (lgPublish s x).husk = s.husk ∧
    (lgPublish s x).drv = s.drv ∧
    (lgPublish s x).krn = s.krn ∧
    (lgPublish s x).est = s.est ∧
    (lgPublish s x).win = s.win ∧
    (lgPublish s x).pairs = s.pairs ∧
    (lgPublish s x).time = s.time ∧
    (lgPublish s x).therm = s.therm ∧
    (lgPublish s x).nv = s.nv ∧
    (lgPublish s x).ledg = s.ledg ∧
    (lgPublish s x).tally = s.tally ∧
    (lgPublish s x).host = s.host ∧
    (lgPublish s x).sec = s.sec ∧
    (lgPublish s x).pwr = s.pwr ∧
    (lgPublish s x).bist = s.bist ∧
    (lgPublish s x).pins = s.pins ∧
    (lgPublish s x).freeIx = s.freeIx ∧
    (lgPublish s x).pending = s.pending ∧
    (lgPublish s x).recd.held = s.recd.held ∧
    (lgPublish s x).evt.held = s.evt.held := by
  simp [lgPublish, id @produce_keep, id @raiseSrc_keep]

theorem lgPublishAll_keep (s : State) :
    (lgPublishAll s).sys = s.sys ∧
    (lgPublishAll s).img = s.img ∧
    (lgPublishAll s).cfg = s.cfg ∧
    (lgPublishAll s).ring = s.ring ∧
    (lgPublishAll s).acq = s.acq ∧
    (lgPublishAll s).cur = s.cur ∧
    (lgPublishAll s).husk = s.husk ∧
    (lgPublishAll s).drv = s.drv ∧
    (lgPublishAll s).est = s.est ∧
    (lgPublishAll s).pairs = s.pairs ∧
    (lgPublishAll s).time = s.time ∧
    (lgPublishAll s).therm = s.therm ∧
    (lgPublishAll s).ledg = s.ledg ∧
    (lgPublishAll s).tally = s.tally ∧
    (lgPublishAll s).host = s.host ∧
    (lgPublishAll s).sec = s.sec ∧
    (lgPublishAll s).pwr = s.pwr ∧
    (lgPublishAll s).bist = s.bist ∧
    (lgPublishAll s).pins = s.pins ∧
    (lgPublishAll s).freeIx = s.freeIx ∧
    (lgPublishAll s).pending = s.pending ∧
    (lgPublishAll s).evt.held = s.evt.held := by
  simp only [lgPublishAll]
  repeat' split
  all_goals simp [id @lgPublish_keep, id @nvQueue_keep]

theorem granStart_keep (cs : Nat) (mib : Nat) (unit : Nat) (s : State) :
    (granStart cs mib unit s).img = s.img ∧
    (granStart cs mib unit s).cfg = s.cfg ∧
    (granStart cs mib unit s).ring = s.ring ∧
    (granStart cs mib unit s).acq = s.acq ∧
    (granStart cs mib unit s).cur = s.cur ∧
    (granStart cs mib unit s).husk = s.husk ∧
    (granStart cs mib unit s).drv = s.drv ∧
    (granStart cs mib unit s).krn = s.krn ∧
    (granStart cs mib unit s).est = s.est ∧
    (granStart cs mib unit s).win = s.win ∧
    (granStart cs mib unit s).pairs = s.pairs ∧
    (granStart cs mib unit s).time = s.time ∧
    (granStart cs mib unit s).therm = s.therm ∧
    (granStart cs mib unit s).nv = s.nv ∧
    (granStart cs mib unit s).ledg = s.ledg ∧
    (granStart cs mib unit s).tally = s.tally ∧
    (granStart cs mib unit s).host = s.host ∧
    (granStart cs mib unit s).sec = s.sec ∧
    (granStart cs mib unit s).pwr = s.pwr ∧
    (granStart cs mib unit s).bist = s.bist ∧
    (granStart cs mib unit s).pins = s.pins ∧
    (granStart cs mib unit s).freeIx = s.freeIx ∧
    (granStart cs mib unit s).pending = s.pending ∧
    (granStart cs mib unit s).evt.held = s.evt.held := by
  simp only [granStart]
  repeat' split
  all_goals simp [id @emit_keep, id @granFormat_keep, id @granFresh_keep]

theorem fullStart_keep (cs : Nat) (mib : Nat) (unit : Nat) (s : State) :
    (fullStart cs mib unit s).img = s.img ∧
    (fullStart cs mib unit s).cfg = s.cfg ∧
    (fullStart cs mib unit s).ring = s.ring ∧
    (fullStart cs mib unit s).acq = s.acq ∧
    (fullStart cs mib unit s).cur = s.cur ∧
    (fullStart cs mib unit s).husk = s.husk ∧
    (fullStart cs mib unit s).drv = s.drv ∧
    (fullStart cs mib unit s).est = s.est ∧
    (fullStart cs mib unit s).pairs = s.pairs ∧
    (fullStart cs mib unit s).time = s.time ∧
    (fullStart cs mib unit s).therm = s.therm ∧
    (fullStart cs mib unit s).host = s.host ∧
    (fullStart cs mib unit s).sec = s.sec ∧
    (fullStart cs mib unit s).pwr = s.pwr ∧
    (fullStart cs mib unit s).pins = s.pins ∧
    (fullStart cs mib unit s).freeIx = s.freeIx ∧
    (fullStart cs mib unit s).pending = s.pending := by
  simp [fullStart, id @checkpoint_keep, id @granStart_keep, id @ledgStart_keep, id @nvStart_keep]

theorem execStartupFull_keep {bad : List (Nat × Bool)} {cs : Nat} {mib : Nat} {unit : Nat} {s t : State} (h : execStartupFull bad cs mib unit s = .next t) :
    t.img = s.img ∧
    t.cfg = s.cfg ∧
    t.acq = s.acq ∧
    t.cur = s.cur ∧
    t.pairs = s.pairs ∧
    t.time = s.time ∧
    t.therm = s.therm ∧
    t.host = s.host ∧
    t.sec = s.sec ∧
    t.freeIx = s.freeIx ∧
    t.pending = s.pending ∧
    t.husk.held = s.husk.held ∧
    t.drv.held = s.drv.held ∧
    t.est.held = s.est.held ∧
    t.pwr.held = s.pwr.held ∧
    t.pins.held = s.pins.held := by
  have e := Host.Outcome.next.inj h
  subst e
  dsimp only
  repeat' split
  all_goals simp [id @badBanks_keep, id @fullStart_keep, id @lgPublishAll_keep, id @phaseEnd_keep, id @settle_keep]

theorem execStartupLate_keep {k : Nat} {s t : State} (h : execStartupLate k s = .next t) :
    t.img = s.img ∧
    t.cfg = s.cfg ∧
    t.acq = s.acq ∧
    t.cur = s.cur ∧
    t.krn = s.krn ∧
    t.win = s.win ∧
    t.pairs = s.pairs ∧
    t.time = s.time ∧
    t.therm = s.therm ∧
    t.nv = s.nv ∧
    t.ledg = s.ledg ∧
    t.tally = s.tally ∧
    t.host = s.host ∧
    t.sec = s.sec ∧
    t.bist = s.bist ∧
    t.freeIx = s.freeIx ∧
    t.pending = s.pending ∧
    t.husk.held = s.husk.held ∧
    t.drv.held = s.drv.held ∧
    t.recd.held = s.recd.held ∧
    t.est.held = s.est.held ∧
    t.pwr.held = s.pwr.held ∧
    t.evt.held = s.evt.held ∧
    t.pins.held = s.pins.held := by
  have e := Host.Outcome.next.inj h
  subst e
  dsimp only
  repeat' split
  all_goals simp [id @emit_keep, id @settle_keep]

theorem execSproutStatusFrame_keep  {s t : State} (h : execSproutStatusFrame s = .next t) :
    t.sys = s.sys ∧
    t.img = s.img ∧
    t.cfg = s.cfg ∧
    t.ring = s.ring ∧
    t.acq = s.acq ∧
    t.cur = s.cur ∧
    t.husk = s.husk ∧
    t.drv = s.drv ∧
    t.krn = s.krn ∧
    t.est = s.est ∧
    t.win = s.win ∧
    t.pairs = s.pairs ∧
    t.time = s.time ∧
    t.therm = s.therm ∧
    t.nv = s.nv ∧
    t.ledg = s.ledg ∧
    t.tally = s.tally ∧
    t.recd = s.recd ∧
    t.sec = s.sec ∧
    t.bist = s.bist ∧
    t.evt = s.evt ∧
    t.freeIx = s.freeIx ∧
    t.pending = s.pending ∧
    t.pwr.held = s.pwr.held ∧
    t.pins.held = s.pins.held := by
  have e := Host.Outcome.next.inj h
  subst e
  dsimp only
  repeat' split
  all_goals simp [id @settlePins_keep, id @txPush_keep]

end Sys2Proof.Machine
end

