-- ==== Sys2Proof/Laws/KeepPower.lean ====
section
/-! SUPPORT. What the operations of Machine/Power.lean leave unchanged. -/

namespace Sys2Proof.Machine

theorem frmNext_keep (s : State) :
    (frmNext s).sys = s.sys ∧
    (frmNext s).img = s.img ∧
    (frmNext s).cfg = s.cfg ∧
    (frmNext s).ring = s.ring ∧
    (frmNext s).acq = s.acq ∧
    (frmNext s).cur = s.cur ∧
    (frmNext s).husk = s.husk ∧
    (frmNext s).drv = s.drv ∧
    (frmNext s).krn = s.krn ∧
    (frmNext s).est = s.est ∧
    (frmNext s).win = s.win ∧
    (frmNext s).pairs = s.pairs ∧
    (frmNext s).therm = s.therm ∧
    (frmNext s).nv = s.nv ∧
    (frmNext s).ledg = s.ledg ∧
    (frmNext s).tally = s.tally ∧
    (frmNext s).host = s.host ∧
    (frmNext s).sec = s.sec ∧
    (frmNext s).pwr = s.pwr ∧
    (frmNext s).bist = s.bist ∧
    (frmNext s).pins = s.pins ∧
    (frmNext s).freeIx = s.freeIx ∧
    (frmNext s).pending = s.pending ∧
    (frmNext s).recd.held = s.recd.held := by
  simp only [frmNext]
  repeat' split
  all_goals simp [id @emit_keep]

theorem ringSleep_keep (flag : Nat) (r : Nat) (s : State) :
    (ringSleep flag r s).sys = s.sys ∧
    (ringSleep flag r s).img = s.img ∧
    (ringSleep flag r s).cfg = s.cfg ∧
    (ringSleep flag r s).acq = s.acq ∧
    (ringSleep flag r s).cur = s.cur ∧
    (ringSleep flag r s).husk = s.husk ∧
    (ringSleep flag r s).drv = s.drv ∧
    (ringSleep flag r s).krn = s.krn ∧
    (ringSleep flag r s).est = s.est ∧
    (ringSleep flag r s).win = s.win ∧
    (ringSleep flag r s).pairs = s.pairs ∧
    (ringSleep flag r s).time = s.time ∧
    (ringSleep flag r s).therm = s.therm ∧
    (ringSleep flag r s).nv = s.nv ∧
    (ringSleep flag r s).ledg = s.ledg ∧
    (ringSleep flag r s).tally = s.tally ∧
    (ringSleep flag r s).recd = s.recd ∧
    (ringSleep flag r s).host = s.host ∧
    (ringSleep flag r s).sec = s.sec ∧
    (ringSleep flag r s).pwr = s.pwr ∧
    (ringSleep flag r s).bist = s.bist ∧
    (ringSleep flag r s).evt = s.evt ∧
    (ringSleep flag r s).pins = s.pins ∧
    (ringSleep flag r s).freeIx = s.freeIx ∧
    (ringSleep flag r s).pending = s.pending := by
  simp [ringSleep, id @commandOut_keep, id @modRing_keep]

theorem framesStop_keep (s : State) :
    (framesStop s).img = s.img ∧
    (framesStop s).cfg = s.cfg ∧
    (framesStop s).ring = s.ring ∧
    (framesStop s).acq = s.acq ∧
    (framesStop s).cur = s.cur ∧
    (framesStop s).husk = s.husk ∧
    (framesStop s).drv = s.drv ∧
    (framesStop s).est = s.est ∧
    (framesStop s).time = s.time ∧
    (framesStop s).therm = s.therm ∧
    (framesStop s).nv = s.nv ∧
    (framesStop s).ledg = s.ledg ∧
    (framesStop s).tally = s.tally ∧
    (framesStop s).host = s.host ∧
    (framesStop s).sec = s.sec ∧
    (framesStop s).pwr = s.pwr ∧
    (framesStop s).bist = s.bist ∧
    (framesStop s).pins = s.pins ∧
    (framesStop s).freeIx = s.freeIx ∧
    (framesStop s).pending = s.pending ∧
    (framesStop s).recd.held = s.recd.held ∧
    (framesStop s).evt.held = s.evt.held := by
  simp [framesStop, id @dbgEnd_keep, id @winDiscard_keep]

theorem stopAcq_keep (s : State) :
    (stopAcq s).img = s.img ∧
    (stopAcq s).cfg = s.cfg ∧
    (stopAcq s).acq = s.acq ∧
    (stopAcq s).cur = s.cur ∧
    (stopAcq s).husk = s.husk ∧
    (stopAcq s).drv = s.drv ∧
    (stopAcq s).est = s.est ∧
    (stopAcq s).time = s.time ∧
    (stopAcq s).therm = s.therm ∧
    (stopAcq s).nv = s.nv ∧
    (stopAcq s).ledg = s.ledg ∧
    (stopAcq s).tally = s.tally ∧
    (stopAcq s).host = s.host ∧
    (stopAcq s).sec = s.sec ∧
    (stopAcq s).pwr = s.pwr ∧
    (stopAcq s).bist = s.bist ∧
    (stopAcq s).pins = s.pins ∧
    (stopAcq s).freeIx = s.freeIx ∧
    (stopAcq s).pending = s.pending ∧
    (stopAcq s).recd.held = s.recd.held ∧
    (stopAcq s).evt.held = s.evt.held := by
  simp [stopAcq, id @framesStop_keep, id @ringSleep_keep]

theorem timebaseStops_keep (s : State) :
    (timebaseStops s).img = s.img ∧
    (timebaseStops s).cfg = s.cfg ∧
    (timebaseStops s).ring = s.ring ∧
    (timebaseStops s).husk = s.husk ∧
    (timebaseStops s).drv = s.drv ∧
    (timebaseStops s).est = s.est ∧
    (timebaseStops s).pairs = s.pairs ∧
    (timebaseStops s).therm = s.therm ∧
    (timebaseStops s).nv = s.nv ∧
    (timebaseStops s).ledg = s.ledg ∧
    (timebaseStops s).recd = s.recd ∧
    (timebaseStops s).host = s.host ∧
    (timebaseStops s).sec = s.sec ∧
    (timebaseStops s).pwr = s.pwr ∧
    (timebaseStops s).bist = s.bist ∧
    (timebaseStops s).evt = s.evt ∧
    (timebaseStops s).pins = s.pins ∧
    (timebaseStops s).freeIx = s.freeIx ∧
    (timebaseStops s).pending = s.pending := by
  simp [timebaseStops, id @curStop_keep, id @winDiscard_keep]

theorem trefStep_keep (s : State) (d : Int) :
    (trefStep s d).img = s.img ∧
    (trefStep s d).cfg = s.cfg ∧
    (trefStep s d).ring = s.ring ∧
    (trefStep s d).husk = s.husk ∧
    (trefStep s d).drv = s.drv ∧
    (trefStep s d).est = s.est ∧
    (trefStep s d).pairs = s.pairs ∧
    (trefStep s d).therm = s.therm ∧
    (trefStep s d).nv = s.nv ∧
    (trefStep s d).ledg = s.ledg ∧
    (trefStep s d).host = s.host ∧
    (trefStep s d).sec = s.sec ∧
    (trefStep s d).pwr = s.pwr ∧
    (trefStep s d).bist = s.bist ∧
    (trefStep s d).pins = s.pins ∧
    (trefStep s d).freeIx = s.freeIx ∧
    (trefStep s d).pending = s.pending ∧
    (trefStep s d).recd.held = s.recd.held ∧
    (trefStep s d).evt.held = s.evt.held := by
  simp only [trefStep]
  repeat' split
  all_goals simp [id @emit_keep, id @timebaseStops_keep]

theorem execTrefFault_keep {devs : List Int} {s t : State} (h : execTrefFault devs s = .next t) :
    t.img = s.img ∧
    t.cfg = s.cfg ∧
    t.pairs = s.pairs ∧
    t.therm = s.therm ∧
    t.nv = s.nv ∧
    t.ledg = s.ledg ∧
    t.host = s.host ∧
    t.sec = s.sec ∧
    t.bist = s.bist ∧
    t.freeIx = s.freeIx ∧
    t.pending = s.pending ∧
    t.husk.held = s.husk.held ∧
    t.drv.held = s.drv.held ∧
    t.recd.held = s.recd.held ∧
    t.est.held = s.est.held ∧
    t.pwr.held = s.pwr.held ∧
    t.evt.held = s.evt.held ∧
    t.pins.held = s.pins.held := by
  have e := Host.Outcome.next.inj h
  subst e
  simp [id @settle_keep, id @trefStep_keep]
  repeat' split
  all_goals simp [id @settle_keep, id @trefStep_keep]

theorem ringsWake_keep (s : State) :
    (ringsWake s).sys = s.sys ∧
    (ringsWake s).img = s.img ∧
    (ringsWake s).cfg = s.cfg ∧
    (ringsWake s).acq = s.acq ∧
    (ringsWake s).cur = s.cur ∧
    (ringsWake s).husk = s.husk ∧
    (ringsWake s).drv = s.drv ∧
    (ringsWake s).krn = s.krn ∧
    (ringsWake s).est = s.est ∧
    (ringsWake s).win = s.win ∧
    (ringsWake s).pairs = s.pairs ∧
    (ringsWake s).time = s.time ∧
    (ringsWake s).therm = s.therm ∧
    (ringsWake s).nv = s.nv ∧
    (ringsWake s).ledg = s.ledg ∧
    (ringsWake s).tally = s.tally ∧
    (ringsWake s).recd = s.recd ∧
    (ringsWake s).host = s.host ∧
    (ringsWake s).sec = s.sec ∧
    (ringsWake s).pwr = s.pwr ∧
    (ringsWake s).bist = s.bist ∧
    (ringsWake s).evt = s.evt ∧
    (ringsWake s).pins = s.pins ∧
    (ringsWake s).freeIx = s.freeIx ∧
    (ringsWake s).pending = s.pending := by
  simp [ringsWake, id @modRing_keep]

theorem pwrExit_keep (cause : Nat) (s : State) :
    (pwrExit cause s).sys = s.sys ∧
    (pwrExit cause s).img = s.img ∧
    (pwrExit cause s).cfg = s.cfg ∧
    (pwrExit cause s).ring = s.ring ∧
    (pwrExit cause s).acq = s.acq ∧
    (pwrExit cause s).cur = s.cur ∧
    (pwrExit cause s).husk = s.husk ∧
    (pwrExit cause s).drv = s.drv ∧
    (pwrExit cause s).krn = s.krn ∧
    (pwrExit cause s).est = s.est ∧
    (pwrExit cause s).win = s.win ∧
    (pwrExit cause s).pairs = s.pairs ∧
    (pwrExit cause s).time = s.time ∧
    (pwrExit cause s).therm = s.therm ∧
    (pwrExit cause s).nv = s.nv ∧
    (pwrExit cause s).ledg = s.ledg ∧
    (pwrExit cause s).tally = s.tally ∧
    (pwrExit cause s).recd = s.recd ∧
    (pwrExit cause s).host = s.host ∧
    (pwrExit cause s).sec = s.sec ∧
    (pwrExit cause s).bist = s.bist ∧
    (pwrExit cause s).evt = s.evt ∧
    (pwrExit cause s).pins = s.pins ∧
    (pwrExit cause s).freeIx = s.freeIx ∧
    (pwrExit cause s).pending = s.pending := by
  simp [pwrExit]

theorem leaveStandby_keep (cause : Nat) (s : State) :
    (leaveStandby cause s).img = s.img ∧
    (leaveStandby cause s).cfg = s.cfg ∧
    (leaveStandby cause s).acq = s.acq ∧
    (leaveStandby cause s).cur = s.cur ∧
    (leaveStandby cause s).husk = s.husk ∧
    (leaveStandby cause s).drv = s.drv ∧
    (leaveStandby cause s).est = s.est ∧
    (leaveStandby cause s).time = s.time ∧
    (leaveStandby cause s).therm = s.therm ∧
    (leaveStandby cause s).nv = s.nv ∧
    (leaveStandby cause s).ledg = s.ledg ∧
    (leaveStandby cause s).tally = s.tally ∧
    (leaveStandby cause s).host = s.host ∧
    (leaveStandby cause s).sec = s.sec ∧
    (leaveStandby cause s).bist = s.bist ∧
    (leaveStandby cause s).pins = s.pins ∧
    (leaveStandby cause s).freeIx = s.freeIx ∧
    (leaveStandby cause s).pending = s.pending ∧
    (leaveStandby cause s).recd.held = s.recd.held ∧
    (leaveStandby cause s).evt.held = s.evt.held := by
  unfold leaveStandby
  repeat' split
  all_goals simp [id @pwrExit_keep, id @ringsWake_keep, id @stopAcq_keep]

theorem wakeStart_keep (cause : Nat) (s : State) :
    (wakeStart cause s).sys = s.sys ∧
    (wakeStart cause s).img = s.img ∧
    (wakeStart cause s).cfg = s.cfg ∧
    (wakeStart cause s).ring = s.ring ∧
    (wakeStart cause s).acq = s.acq ∧
    (wakeStart cause s).cur = s.cur ∧
    (wakeStart cause s).husk = s.husk ∧
    (wakeStart cause s).drv = s.drv ∧
    (wakeStart cause s).krn = s.krn ∧
    (wakeStart cause s).est = s.est ∧
    (wakeStart cause s).win = s.win ∧
    (wakeStart cause s).pairs = s.pairs ∧
    (wakeStart cause s).time = s.time ∧
    (wakeStart cause s).therm = s.therm ∧
    (wakeStart cause s).nv = s.nv ∧
    (wakeStart cause s).ledg = s.ledg ∧
    (wakeStart cause s).tally = s.tally ∧
    (wakeStart cause s).recd = s.recd ∧
    (wakeStart cause s).host = s.host ∧
    (wakeStart cause s).sec = s.sec ∧
    (wakeStart cause s).bist = s.bist ∧
    (wakeStart cause s).evt = s.evt ∧
    (wakeStart cause s).pins = s.pins ∧
    (wakeStart cause s).freeIx = s.freeIx ∧
    (wakeStart cause s).pending = s.pending := by
  simp [wakeStart, id @pwrExit_keep]

theorem keySample_keep (v : Bool) (t : Nat) (s : State) :
    (keySample v t s).img = s.img ∧
    (keySample v t s).cfg = s.cfg ∧
    (keySample v t s).acq = s.acq ∧
    (keySample v t s).cur = s.cur ∧
    (keySample v t s).husk = s.husk ∧
    (keySample v t s).time = s.time ∧
    (keySample v t s).therm = s.therm ∧
    (keySample v t s).nv = s.nv ∧
    (keySample v t s).ledg = s.ledg ∧
    (keySample v t s).tally = s.tally ∧
    (keySample v t s).host = s.host ∧
    (keySample v t s).sec = s.sec ∧
    (keySample v t s).bist = s.bist ∧
    (keySample v t s).pins = s.pins ∧
    (keySample v t s).freeIx = s.freeIx ∧
    (keySample v t s).pending = s.pending ∧
    (keySample v t s).recd.held = s.recd.held ∧
    (keySample v t s).evt.held = s.evt.held := by
  simp only [keySample]
  repeat' split
  all_goals simp [id @emitIf_keep, id @keyNote_keep, id @keyTake_keep, id @leaveStandby_keep]

theorem keySamples_keep (vs : List Bool) (s : State) :
    (keySamples vs s).img = s.img ∧
    (keySamples vs s).cfg = s.cfg ∧
    (keySamples vs s).acq = s.acq ∧
    (keySamples vs s).cur = s.cur ∧
    (keySamples vs s).husk = s.husk ∧
    (keySamples vs s).time = s.time ∧
    (keySamples vs s).therm = s.therm ∧
    (keySamples vs s).nv = s.nv ∧
    (keySamples vs s).ledg = s.ledg ∧
    (keySamples vs s).tally = s.tally ∧
    (keySamples vs s).host = s.host ∧
    (keySamples vs s).sec = s.sec ∧
    (keySamples vs s).bist = s.bist ∧
    (keySamples vs s).pins = s.pins ∧
    (keySamples vs s).freeIx = s.freeIx ∧
    (keySamples vs s).pending = s.pending ∧
    (keySamples vs s).recd.held = s.recd.held ∧
    (keySamples vs s).evt.held = s.evt.held := by
  induction vs generalizing s with
  | nil => simp [keySamples]
  | cons v vs ih => simp [keySamples, ih, id @keySample_keep]

theorem execKeyQualify_keep {samples : List Bool} {s t : State} (h : execKeyQualify samples s = .next t) :
    t.img = s.img ∧
    t.cfg = s.cfg ∧
    t.acq = s.acq ∧
    t.cur = s.cur ∧
    t.time = s.time ∧
    t.therm = s.therm ∧
    t.nv = s.nv ∧
    t.ledg = s.ledg ∧
    t.tally = s.tally ∧
    t.host = s.host ∧
    t.sec = s.sec ∧
    t.bist = s.bist ∧
    t.freeIx = s.freeIx ∧
    t.pending = s.pending ∧
    t.husk.held = s.husk.held ∧
    t.recd.held = s.recd.held ∧
    t.evt.held = s.evt.held ∧
    t.pins.held = s.pins.held := by
  have e := Host.Outcome.next.inj h
  subst e
  simp [id @keySamples_keep, id @settle_keep]
  repeat' split
  all_goals simp [id @keySamples_keep]

theorem execInputChatter_keep {samples : List Bool} {s t : State} (h : execInputChatter samples s = .next t) :
    t.img = s.img ∧
    t.cfg = s.cfg ∧
    t.acq = s.acq ∧
    t.cur = s.cur ∧
    t.time = s.time ∧
    t.therm = s.therm ∧
    t.nv = s.nv ∧
    t.ledg = s.ledg ∧
    t.tally = s.tally ∧
    t.host = s.host ∧
    t.sec = s.sec ∧
    t.bist = s.bist ∧
    t.freeIx = s.freeIx ∧
    t.pending = s.pending ∧
    t.husk.held = s.husk.held ∧
    t.recd.held = s.recd.held ∧
    t.evt.held = s.evt.held ∧
    t.pins.held = s.pins.held := by
  have e := Host.Outcome.next.inj h
  subst e
  simp [id @keySamples_keep, id @settle_keep]
  repeat' split
  all_goals simp [id @keySamples_keep]

theorem execChgDetQualify_keep {active : Bool} {ns : Nat} {s t : State} (h : execChgDetQualify active ns s = .next t) :
    t.img = s.img ∧
    t.cfg = s.cfg ∧
    t.acq = s.acq ∧
    t.cur = s.cur ∧
    t.time = s.time ∧
    t.therm = s.therm ∧
    t.nv = s.nv ∧
    t.ledg = s.ledg ∧
    t.tally = s.tally ∧
    t.host = s.host ∧
    t.sec = s.sec ∧
    t.bist = s.bist ∧
    t.freeIx = s.freeIx ∧
    t.pending = s.pending ∧
    t.husk.held = s.husk.held ∧
    t.drv.held = s.drv.held ∧
    t.recd.held = s.recd.held ∧
    t.est.held = s.est.held ∧
    t.evt.held = s.evt.held ∧
    t.pins.held = s.pins.held := by
  have e := Host.Outcome.next.inj h
  subst e
  dsimp only
  repeat' split
  all_goals simp [id @leaveStandby_keep, id @settle_keep]

theorem execTestEnChange_keep {high : Bool} {s t : State} (h : execTestEnChange high s = .next t) :
    t.img = s.img ∧
    t.cfg = s.cfg ∧
    t.acq = s.acq ∧
    t.cur = s.cur ∧
    t.krn = s.krn ∧
    t.win = s.win ∧
    t.pairs = s.pairs ∧
    t.time = s.time ∧
    t.therm = s.therm ∧
    t.nv = s.nv ∧
    t.ledg = s.ledg ∧
    t.tally = s.tally ∧
    t.host = s.host ∧
    t.sec = s.sec ∧
    t.bist = s.bist ∧
    t.freeIx = s.freeIx ∧
    t.pending = s.pending ∧
    t.sys.held = s.sys.held ∧
    t.husk.held = s.husk.held ∧
    t.drv.held = s.drv.held ∧
    t.recd.held = s.recd.held ∧
    t.est.held = s.est.held ∧
    t.pwr.held = s.pwr.held ∧
    t.evt.held = s.evt.held := by
  have e := Host.Outcome.next.inj h
  subst e
  simp [id @settle_keep]

theorem execBrownOut_keep {vsup : Nat} {s t : State} (h : execBrownOut vsup s = .next t) :
    t.freeIx = s.freeIx ∧
    t.pending = s.pending ∧
    t.sec.mid = s.sec.mid ∧
    t.sec.devKey = s.sec.devKey := by
  have e := Host.Outcome.next.inj h
  subst e
  dsimp only
  repeat' split
  all_goals simp [id @deviceOff_keep, id @settle_keep]

theorem execPfwArm_keep {vsup : Nat} {s t : State} (h : execPfwArm vsup s = .next t) :
    t.sys = s.sys ∧
    t.img = s.img ∧
    t.cfg = s.cfg ∧
    t.ring = s.ring ∧
    t.acq = s.acq ∧
    t.cur = s.cur ∧
    t.husk = s.husk ∧
    t.drv = s.drv ∧
    t.krn = s.krn ∧
    t.est = s.est ∧
    t.win = s.win ∧
    t.pairs = s.pairs ∧
    t.time = s.time ∧
    t.therm = s.therm ∧
    t.nv = s.nv ∧
    t.ledg = s.ledg ∧
    t.tally = s.tally ∧
    t.recd = s.recd ∧
    t.host = s.host ∧
    t.sec = s.sec ∧
    t.bist = s.bist ∧
    t.evt = s.evt ∧
    t.pins = s.pins ∧
    t.freeIx = s.freeIx ∧
    t.pending = s.pending := by
  have e := Host.Outcome.next.inj h
  subst e
  simp

theorem shipAbandon_keep (s : State) :
    (shipAbandon s).sys = s.sys ∧
    (shipAbandon s).img = s.img ∧
    (shipAbandon s).cfg = s.cfg ∧
    (shipAbandon s).ring = s.ring ∧
    (shipAbandon s).acq = s.acq ∧
    (shipAbandon s).cur = s.cur ∧
    (shipAbandon s).husk = s.husk ∧
    (shipAbandon s).drv = s.drv ∧
    (shipAbandon s).krn = s.krn ∧
    (shipAbandon s).est = s.est ∧
    (shipAbandon s).win = s.win ∧
    (shipAbandon s).pairs = s.pairs ∧
    (shipAbandon s).time = s.time ∧
    (shipAbandon s).therm = s.therm ∧
    (shipAbandon s).nv = s.nv ∧
    (shipAbandon s).ledg = s.ledg ∧
    (shipAbandon s).tally = s.tally ∧
    (shipAbandon s).recd = s.recd ∧
    (shipAbandon s).host = s.host ∧
    (shipAbandon s).sec = s.sec ∧
    (shipAbandon s).bist = s.bist ∧
    (shipAbandon s).evt = s.evt ∧
    (shipAbandon s).pins = s.pins ∧
    (shipAbandon s).freeIx = s.freeIx ∧
    (shipAbandon s).pending = s.pending := by
  simp [shipAbandon]

theorem shutBegin_keep (src : Nat) (s : State) :
    (shutBegin src s).sys = s.sys ∧
    (shutBegin src s).img = s.img ∧
    (shutBegin src s).cfg = s.cfg ∧
    (shutBegin src s).ring = s.ring ∧
    (shutBegin src s).acq = s.acq ∧
    (shutBegin src s).cur = s.cur ∧
    (shutBegin src s).krn = s.krn ∧
    (shutBegin src s).est = s.est ∧
    (shutBegin src s).win = s.win ∧
    (shutBegin src s).pairs = s.pairs ∧
    (shutBegin src s).time = s.time ∧
    (shutBegin src s).ledg = s.ledg ∧
    (shutBegin src s).tally = s.tally ∧
    (shutBegin src s).host = s.host ∧
    (shutBegin src s).sec = s.sec ∧
    (shutBegin src s).bist = s.bist ∧
    (shutBegin src s).pins = s.pins ∧
    (shutBegin src s).freeIx = s.freeIx ∧
    (shutBegin src s).pending = s.pending ∧
    (shutBegin src s).drv.held = s.drv.held := by
  simp [shutBegin, id @shipAbandon_keep, id @tripAll_keep]

theorem execThermalShutdown_keep  {s t : State} (h : execThermalShutdown s = .next t) :
    t.img = s.img ∧
    t.cfg = s.cfg ∧
    t.acq = s.acq ∧
    t.cur = s.cur ∧
    t.krn = s.krn ∧
    t.win = s.win ∧
    t.pairs = s.pairs ∧
    t.time = s.time ∧
    t.ledg = s.ledg ∧
    t.tally = s.tally ∧
    t.host = s.host ∧
    t.sec = s.sec ∧
    t.bist = s.bist ∧
    t.freeIx = s.freeIx ∧
    t.pending = s.pending ∧
    t.sys.held = s.sys.held ∧
    t.drv.held = s.drv.held ∧
    t.est.held = s.est.held ∧
    t.pins.held = s.pins.held := by
  have e := Host.Outcome.next.inj h
  subst e
  dsimp only
  repeat' split
  all_goals simp [id @settle_keep, id @shutBegin_keep]

theorem pfOff_keep (s : State) :
    (pfOff s).freeIx = s.freeIx ∧
    (pfOff s).pending = s.pending ∧
    (pfOff s).sec.mid = s.sec.mid ∧
    (pfOff s).sec.devKey = s.sec.devKey := by
  simp [pfOff, id @coreOff_keep]

theorem powerFail_keep (vsup : Int) (s : State) :
    (powerFail vsup s).freeIx = s.freeIx ∧
    (powerFail vsup s).pending = s.pending ∧
    (powerFail vsup s).sec.mid = s.sec.mid ∧
    (powerFail vsup s).sec.devKey = s.sec.devKey := by
  unfold powerFail
  repeat' split
  all_goals simp [id @pfOff_keep, id @shutBegin_keep]

theorem execPowerFailWarning_keep {vsup : Nat} {fell : Bool} {s t : State} (h : execPowerFailWarning vsup fell s = .next t) :
    t.freeIx = s.freeIx ∧
    t.pending = s.pending ∧
    t.sec.mid = s.sec.mid ∧
    t.sec.devKey = s.sec.devKey := by
  have e := Host.Outcome.next.inj h
  subst e
  simp [id @powerFail_keep, id @settle_keep]
  repeat' split
  all_goals simp [id @powerFail_keep, id @settle_keep]

theorem execOvervoltage_keep {vsup : Nat} {s t : State} (h : execOvervoltage vsup s = .next t) :
    t.freeIx = s.freeIx ∧
    t.pending = s.pending ∧
    t.sec.mid = s.sec.mid ∧
    t.sec.devKey = s.sec.devKey := by
  have e := Host.Outcome.next.inj h
  subst e
  simp [id @powerFail_keep, id @settle_keep]
  repeat' split
  all_goals simp [id @powerFail_keep, id @settle_keep]

theorem shutCount_keep (s : State) :
    (shutCount s).sys = s.sys ∧
    (shutCount s).img = s.img ∧
    (shutCount s).cfg = s.cfg ∧
    (shutCount s).ring = s.ring ∧
    (shutCount s).acq = s.acq ∧
    (shutCount s).cur = s.cur ∧
    (shutCount s).husk = s.husk ∧
    (shutCount s).drv = s.drv ∧
    (shutCount s).krn = s.krn ∧
    (shutCount s).est = s.est ∧
    (shutCount s).win = s.win ∧
    (shutCount s).pairs = s.pairs ∧
    (shutCount s).time = s.time ∧
    (shutCount s).ledg = s.ledg ∧
    (shutCount s).tally = s.tally ∧
    (shutCount s).recd = s.recd ∧
    (shutCount s).host = s.host ∧
    (shutCount s).sec = s.sec ∧
    (shutCount s).pwr = s.pwr ∧
    (shutCount s).bist = s.bist ∧
    (shutCount s).evt = s.evt ∧
    (shutCount s).pins = s.pins ∧
    (shutCount s).freeIx = s.freeIx ∧
    (shutCount s).pending = s.pending := by
  simp [shutCount]

theorem shutRecord_keep (s : State) :
    (shutRecord s).sys = s.sys ∧
    (shutRecord s).img = s.img ∧
    (shutRecord s).cfg = s.cfg ∧
    (shutRecord s).ring = s.ring ∧
    (shutRecord s).acq = s.acq ∧
    (shutRecord s).cur = s.cur ∧
    (shutRecord s).husk = s.husk ∧
    (shutRecord s).drv = s.drv ∧
    (shutRecord s).krn = s.krn ∧
    (shutRecord s).est = s.est ∧
    (shutRecord s).win = s.win ∧
    (shutRecord s).pairs = s.pairs ∧
    (shutRecord s).time = s.time ∧
    (shutRecord s).ledg = s.ledg ∧
    (shutRecord s).tally = s.tally ∧
    (shutRecord s).recd = s.recd ∧
    (shutRecord s).host = s.host ∧
    (shutRecord s).sec = s.sec ∧
    (shutRecord s).pwr = s.pwr ∧
    (shutRecord s).bist = s.bist ∧
    (shutRecord s).evt = s.evt ∧
    (shutRecord s).pins = s.pins ∧
    (shutRecord s).freeIx = s.freeIx ∧
    (shutRecord s).pending = s.pending := by
  unfold shutRecord
  repeat' split
  all_goals simp [id @lgRequest_keep, id @shutCount_keep]

theorem lgWriteAll_keep (k0 : Nat) (s : State) :
    (lgWriteAll k0 s).sys = s.sys ∧
    (lgWriteAll k0 s).img = s.img ∧
    (lgWriteAll k0 s).cfg = s.cfg ∧
    (lgWriteAll k0 s).ring = s.ring ∧
    (lgWriteAll k0 s).acq = s.acq ∧
    (lgWriteAll k0 s).cur = s.cur ∧
    (lgWriteAll k0 s).husk = s.husk ∧
    (lgWriteAll k0 s).drv = s.drv ∧
    (lgWriteAll k0 s).krn = s.krn ∧
    (lgWriteAll k0 s).est = s.est ∧
    (lgWriteAll k0 s).win = s.win ∧
    (lgWriteAll k0 s).pairs = s.pairs ∧
    (lgWriteAll k0 s).time = s.time ∧
    (lgWriteAll k0 s).therm = s.therm ∧
    (lgWriteAll k0 s).ledg = s.ledg ∧
    (lgWriteAll k0 s).tally = s.tally ∧
    (lgWriteAll k0 s).recd = s.recd ∧
    (lgWriteAll k0 s).host = s.host ∧
    (lgWriteAll k0 s).sec = s.sec ∧
    (lgWriteAll k0 s).pwr = s.pwr ∧
    (lgWriteAll k0 s).bist = s.bist ∧
    (lgWriteAll k0 s).evt = s.evt ∧
    (lgWriteAll k0 s).pins = s.pins ∧
    (lgWriteAll k0 s).freeIx = s.freeIx ∧
    (lgWriteAll k0 s).pending = s.pending := by
  induction k0 generalizing s with
  | zero => simp [lgWriteAll]
  | succ n ih => simp [lgWriteAll, ih, id @lgWrite_keep]

theorem imgAbandon_keep (s : State) :
    (imgAbandon s).sys = s.sys ∧
    (imgAbandon s).cfg = s.cfg ∧
    (imgAbandon s).ring = s.ring ∧
    (imgAbandon s).acq = s.acq ∧
    (imgAbandon s).cur = s.cur ∧
    (imgAbandon s).husk = s.husk ∧
    (imgAbandon s).drv = s.drv ∧
    (imgAbandon s).krn = s.krn ∧
    (imgAbandon s).est = s.est ∧
    (imgAbandon s).win = s.win ∧
    (imgAbandon s).pairs = s.pairs ∧
    (imgAbandon s).time = s.time ∧
    (imgAbandon s).therm = s.therm ∧
    (imgAbandon s).nv = s.nv ∧
    (imgAbandon s).ledg = s.ledg ∧
    (imgAbandon s).tally = s.tally ∧
    (imgAbandon s).recd = s.recd ∧
    (imgAbandon s).host = s.host ∧
    (imgAbandon s).sec = s.sec ∧
    (imgAbandon s).pwr = s.pwr ∧
    (imgAbandon s).bist = s.bist ∧
    (imgAbandon s).evt = s.evt ∧
    (imgAbandon s).pins = s.pins ∧
    (imgAbandon s).freeIx = s.freeIx ∧
    (imgAbandon s).pending = s.pending := by
  simp [imgAbandon]

theorem execShutdownBurstDone_keep  {s t : State} (h : execShutdownBurstDone s = .next t) :
    t.sys = s.sys ∧
    t.cfg = s.cfg ∧
    t.ring = s.ring ∧
    t.acq = s.acq ∧
    t.cur = s.cur ∧
    t.husk = s.husk ∧
    t.drv = s.drv ∧
    t.krn = s.krn ∧
    t.est = s.est ∧
    t.pairs = s.pairs ∧
    t.time = s.time ∧
    t.tally = s.tally ∧
    t.recd = s.recd ∧
    t.host = s.host ∧
    t.sec = s.sec ∧
    t.pwr = s.pwr ∧
    t.bist = s.bist ∧
    t.evt = s.evt ∧
    t.pins = s.pins ∧
    t.freeIx = s.freeIx ∧
    t.pending = s.pending := by
  have e := Host.Outcome.next.inj h
  subst e
  simp [id @imgAbandon_keep, id @lgWriteAll_keep, id @nvAbandon_keep, id @shutRecord_keep]

theorem cutProgram_keep (pin : Bool) (busy : Bool) (s : State) :
    (cutProgram pin busy s).sys = s.sys ∧
    (cutProgram pin busy s).img = s.img ∧
    (cutProgram pin busy s).cfg = s.cfg ∧
    (cutProgram pin busy s).ring = s.ring ∧
    (cutProgram pin busy s).acq = s.acq ∧
    (cutProgram pin busy s).cur = s.cur ∧
    (cutProgram pin busy s).husk = s.husk ∧
    (cutProgram pin busy s).drv = s.drv ∧
    (cutProgram pin busy s).krn = s.krn ∧
    (cutProgram pin busy s).est = s.est ∧
    (cutProgram pin busy s).win = s.win ∧
    (cutProgram pin busy s).pairs = s.pairs ∧
    (cutProgram pin busy s).time = s.time ∧
    (cutProgram pin busy s).therm = s.therm ∧
    (cutProgram pin busy s).nv = s.nv ∧
    (cutProgram pin busy s).ledg = s.ledg ∧
    (cutProgram pin busy s).tally = s.tally ∧
    (cutProgram pin busy s).host = s.host ∧
    (cutProgram pin busy s).sec = s.sec ∧
    (cutProgram pin busy s).pwr = s.pwr ∧
    (cutProgram pin busy s).bist = s.bist ∧
    (cutProgram pin busy s).evt = s.evt ∧
    (cutProgram pin busy s).pins = s.pins ∧
    (cutProgram pin busy s).freeIx = s.freeIx ∧
    (cutProgram pin busy s).pending = s.pending := by
  unfold cutProgram
  repeat' split
  all_goals simp [id @setRegion_keep]

theorem shutEnd_keep (s : State) :
    (shutEnd s).freeIx = s.freeIx ∧
    (shutEnd s).pending = s.pending ∧
    (shutEnd s).sec.mid = s.sec.mid ∧
    (shutEnd s).sec.devKey = s.sec.devKey := by
  unfold shutEnd
  repeat' split
  all_goals simp [id @coreOff_keep, id @emit_keep, id @pfOff_keep]

theorem execShutdownRecordWritten_keep {main : Bool} {pin : Bool} {s t : State} (h : execShutdownRecordWritten main pin s = .next t) :
    t.freeIx = s.freeIx ∧
    t.pending = s.pending ∧
    t.sec.mid = s.sec.mid ∧
    t.sec.devKey = s.sec.devKey := by
  have e := Host.Outcome.next.inj h
  subst e
  simp [id @cutProgram_keep, id @settle_keep, id @shutEnd_keep]
  repeat' split
  all_goals simp [id @cutProgram_keep, id @settle_keep, id @shutEnd_keep]

theorem execThermalRestart_keep  {s t : State} (h : execThermalRestart s = .next t) :
    t.img = s.img ∧
    t.cfg = s.cfg ∧
    t.acq = s.acq ∧
    t.cur = s.cur ∧
    t.krn = s.krn ∧
    t.win = s.win ∧
    t.pairs = s.pairs ∧
    t.time = s.time ∧
    t.nv = s.nv ∧
    t.ledg = s.ledg ∧
    t.tally = s.tally ∧
    t.host = s.host ∧
    t.sec = s.sec ∧
    t.bist = s.bist ∧
    t.freeIx = s.freeIx ∧
    t.pending = s.pending ∧
    t.husk.held = s.husk.held ∧
    t.drv.held = s.drv.held ∧
    t.recd.held = s.recd.held ∧
    t.est.held = s.est.held ∧
    t.evt.held = s.evt.held ∧
    t.pins.held = s.pins.held := by
  have e := Host.Outcome.next.inj h
  subst e
  dsimp only
  repeat' split
  all_goals simp [id @bootBegin_keep, id @emit_keep, id @settle_keep]

theorem setRail_keep (r : Nat) (v : Bool) (s : State) :
    (setRail r v s).sys = s.sys ∧
    (setRail r v s).img = s.img ∧
    (setRail r v s).cfg = s.cfg ∧
    (setRail r v s).ring = s.ring ∧
    (setRail r v s).acq = s.acq ∧
    (setRail r v s).cur = s.cur ∧
    (setRail r v s).husk = s.husk ∧
    (setRail r v s).drv = s.drv ∧
    (setRail r v s).krn = s.krn ∧
    (setRail r v s).est = s.est ∧
    (setRail r v s).win = s.win ∧
    (setRail r v s).pairs = s.pairs ∧
    (setRail r v s).time = s.time ∧
    (setRail r v s).therm = s.therm ∧
    (setRail r v s).nv = s.nv ∧
    (setRail r v s).ledg = s.ledg ∧
    (setRail r v s).tally = s.tally ∧
    (setRail r v s).recd = s.recd ∧
    (setRail r v s).host = s.host ∧
    (setRail r v s).sec = s.sec ∧
    (setRail r v s).bist = s.bist ∧
    (setRail r v s).evt = s.evt ∧
    (setRail r v s).pins = s.pins ∧
    (setRail r v s).freeIx = s.freeIx ∧
    (setRail r v s).pending = s.pending := by
  simp [setRail]

theorem vanaLost_keep (s : State) :
    (vanaLost s).sys = s.sys ∧
    (vanaLost s).img = s.img ∧
    (vanaLost s).cfg = s.cfg ∧
    (vanaLost s).ring = s.ring ∧
    (vanaLost s).acq = s.acq ∧
    (vanaLost s).husk = s.husk ∧
    (vanaLost s).drv = s.drv ∧
    (vanaLost s).krn = s.krn ∧
    (vanaLost s).est = s.est ∧
    (vanaLost s).pairs = s.pairs ∧
    (vanaLost s).time = s.time ∧
    (vanaLost s).therm = s.therm ∧
    (vanaLost s).nv = s.nv ∧
    (vanaLost s).ledg = s.ledg ∧
    (vanaLost s).tally = s.tally ∧
    (vanaLost s).host = s.host ∧
    (vanaLost s).sec = s.sec ∧
    (vanaLost s).pwr = s.pwr ∧
    (vanaLost s).bist = s.bist ∧
    (vanaLost s).pins = s.pins ∧
    (vanaLost s).freeIx = s.freeIx ∧
    (vanaLost s).pending = s.pending ∧
    (vanaLost s).recd.held = s.recd.held ∧
    (vanaLost s).evt.held = s.evt.held := by
  unfold vanaLost
  refine ⟨?_, ?_, ?_, ?_, ?_, ?_, ?_, ?_, ?_, ?_, ?_, ?_, ?_, ?_, ?_, ?_, ?_, ?_, ?_, ?_, ?_, ?_, ?_, ?_⟩
  · (apply foldl_sys; intro s a; repeat' split) <;> simp [id @chStop_keep, id @emit_keep]
  · (apply foldl_img; intro s a; repeat' split) <;> simp [id @chStop_keep, id @emit_keep]
  · (apply foldl_cfg; intro s a; repeat' split) <;> simp [id @chStop_keep, id @emit_keep]
  · (apply foldl_ring; intro s a; repeat' split) <;> simp [id @chStop_keep, id @emit_keep]
  · (apply foldl_acq; intro s a; repeat' split) <;> simp [id @chStop_keep, id @emit_keep]
  · (apply foldl_husk; intro s a; repeat' split) <;> simp [id @chStop_keep, id @emit_keep]
  · (apply foldl_drv; intro s a; repeat' split) <;> simp [id @chStop_keep, id @emit_keep]
  · (apply foldl_krn; intro s a; repeat' split) <;> simp [id @chStop_keep, id @emit_keep]
  · (apply foldl_est; intro s a; repeat' split) <;> simp [id @chStop_keep, id @emit_keep]
  · (apply foldl_pairs; intro s a; repeat' split) <;> simp [id @chStop_keep, id @emit_keep]
  · (apply foldl_time; intro s a; repeat' split) <;> simp [id @chStop_keep, id @emit_keep]
  · (apply foldl_therm; intro s a; repeat' split) <;> simp [id @chStop_keep, id @emit_keep]
  · (apply foldl_nv; intro s a; repeat' split) <;> simp [id @chStop_keep, id @emit_keep]
  · (apply foldl_ledg; intro s a; repeat' split) <;> simp [id @chStop_keep, id @emit_keep]
  · (apply foldl_tally; intro s a; repeat' split) <;> simp [id @chStop_keep, id @emit_keep]
  · (apply foldl_host; intro s a; repeat' split) <;> simp [id @chStop_keep, id @emit_keep]
  · (apply foldl_sec; intro s a; repeat' split) <;> simp [id @chStop_keep, id @emit_keep]
  · (apply foldl_pwr; intro s a; repeat' split) <;> simp [id @chStop_keep, id @emit_keep]
  · (apply foldl_bist; intro s a; repeat' split) <;> simp [id @chStop_keep, id @emit_keep]
  · (apply foldl_pins; intro s a; repeat' split) <;> simp [id @chStop_keep, id @emit_keep]
  · (apply foldl_freeIx; intro s a; repeat' split) <;> simp [id @chStop_keep, id @emit_keep]
  · (apply foldl_pending; intro s a; repeat' split) <;> simp [id @chStop_keep, id @emit_keep]
  · (apply foldl_recd_held; intro s a; repeat' split) <;> simp [id @chStop_keep, id @emit_keep]
  · (apply foldl_evt_held; intro s a; repeat' split) <;> simp [id @chStop_keep, id @emit_keep]

theorem railLost_keep (r : Nat) (mv : Nat) (s : State) :
    (railLost r mv s).freeIx = s.freeIx ∧
    (railLost r mv s).pending = s.pending ∧
    (railLost r mv s).sec.mid = s.sec.mid ∧
    (railLost r mv s).sec.devKey = s.sec.devKey := by
  unfold railLost
  repeat' split
  all_goals simp [id @coreOff_keep, id @emit_keep, id @granLost_keep, id @setRail_keep, id @shipAbandon_keep,
      id @vanaLost_keep]

theorem execRailFault_keep {r : Nat} {mv : Nat} {s t : State} (h : execRailFault r mv s = .next t) :
    t.freeIx = s.freeIx ∧
    t.pending = s.pending ∧
    t.sec.mid = s.sec.mid ∧
    t.sec.devKey = s.sec.devKey := by
  have e := Host.Outcome.next.inj h
  subst e
  simp [id @railLost_keep, id @settle_keep]
  repeat' split
  all_goals simp [id @railLost_keep, id @settle_keep]

theorem execRailRecovery_keep {r : Nat} {mv : Nat} {s t : State} (h : execRailRecovery r mv s = .next t) :
    t.img = s.img ∧
    t.cfg = s.cfg ∧
    t.acq = s.acq ∧
    t.cur = s.cur ∧
    t.krn = s.krn ∧
    t.win = s.win ∧
    t.pairs = s.pairs ∧
    t.time = s.time ∧
    t.therm = s.therm ∧
    t.nv = s.nv ∧
    t.ledg = s.ledg ∧
    t.tally = s.tally ∧
    t.host = s.host ∧
    t.sec = s.sec ∧
    t.bist = s.bist ∧
    t.freeIx = s.freeIx ∧
    t.pending = s.pending ∧
    t.husk.held = s.husk.held ∧
    t.drv.held = s.drv.held ∧
    t.recd.held = s.recd.held ∧
    t.est.held = s.est.held ∧
    t.evt.held = s.evt.held ∧
    t.pins.held = s.pins.held := by
  have e := Host.Outcome.next.inj h
  subst e
  dsimp only
  repeat' split
  all_goals simp [id @bootBegin_keep, id @setRail_keep, id @settle_keep]

theorem execVcoreRetry_keep  {s t : State} (h : execVcoreRetry s = .next t) :
    t.img = s.img ∧
    t.cfg = s.cfg ∧
    t.ring = s.ring ∧
    t.acq = s.acq ∧
    t.cur = s.cur ∧
    t.husk = s.husk ∧
    t.drv = s.drv ∧
    t.krn = s.krn ∧
    t.est = s.est ∧
    t.win = s.win ∧
    t.pairs = s.pairs ∧
    t.time = s.time ∧
    t.therm = s.therm ∧
    t.nv = s.nv ∧
    t.ledg = s.ledg ∧
    t.tally = s.tally ∧
    t.recd = s.recd ∧
    t.host = s.host ∧
    t.sec = s.sec ∧
    t.bist = s.bist ∧
    t.evt = s.evt ∧
    t.pins = s.pins ∧
    t.freeIx = s.freeIx ∧
    t.pending = s.pending := by
  have e := Host.Outcome.next.inj h
  subst e
  dsimp only
  repeat' split
  all_goals simp [id @bootBegin_keep]

theorem execVcoreReturn_keep  {s t : State} (h : execVcoreReturn s = .next t) :
    t.sys = s.sys ∧
    t.img = s.img ∧
    t.cfg = s.cfg ∧
    t.ring = s.ring ∧
    t.acq = s.acq ∧
    t.cur = s.cur ∧
    t.husk = s.husk ∧
    t.drv = s.drv ∧
    t.krn = s.krn ∧
    t.est = s.est ∧
    t.win = s.win ∧
    t.pairs = s.pairs ∧
    t.time = s.time ∧
    t.therm = s.therm ∧
    t.nv = s.nv ∧
    t.ledg = s.ledg ∧
    t.tally = s.tally ∧
    t.recd = s.recd ∧
    t.host = s.host ∧
    t.sec = s.sec ∧
    t.bist = s.bist ∧
    t.evt = s.evt ∧
    t.pins = s.pins ∧
    t.freeIx = s.freeIx ∧
    t.pending = s.pending := by
  have e := Host.Outcome.next.inj h
  subst e
  simp

theorem sleepStart_keep (s : State) :
    (sleepStart s).sys = s.sys ∧
    (sleepStart s).img = s.img ∧
    (sleepStart s).cfg = s.cfg ∧
    (sleepStart s).ring = s.ring ∧
    (sleepStart s).cur = s.cur ∧
    (sleepStart s).husk = s.husk ∧
    (sleepStart s).drv = s.drv ∧
    (sleepStart s).krn = s.krn ∧
    (sleepStart s).est = s.est ∧
    (sleepStart s).win = s.win ∧
    (sleepStart s).pairs = s.pairs ∧
    (sleepStart s).time = s.time ∧
    (sleepStart s).therm = s.therm ∧
    (sleepStart s).nv = s.nv ∧
    (sleepStart s).ledg = s.ledg ∧
    (sleepStart s).tally = s.tally ∧
    (sleepStart s).recd = s.recd ∧
    (sleepStart s).host = s.host ∧
    (sleepStart s).sec = s.sec ∧
    (sleepStart s).bist = s.bist ∧
    (sleepStart s).evt = s.evt ∧
    (sleepStart s).pins = s.pins ∧
    (sleepStart s).freeIx = s.freeIx ∧
    (sleepStart s).pending = s.pending := by
  simp [sleepStart]

theorem standbyStart_keep (s : State) :
    (standbyStart s).img = s.img ∧
    (standbyStart s).cfg = s.cfg ∧
    (standbyStart s).cur = s.cur ∧
    (standbyStart s).husk = s.husk ∧
    (standbyStart s).drv = s.drv ∧
    (standbyStart s).est = s.est ∧
    (standbyStart s).time = s.time ∧
    (standbyStart s).therm = s.therm ∧
    (standbyStart s).nv = s.nv ∧
    (standbyStart s).ledg = s.ledg ∧
    (standbyStart s).tally = s.tally ∧
    (standbyStart s).host = s.host ∧
    (standbyStart s).sec = s.sec ∧
    (standbyStart s).bist = s.bist ∧
    (standbyStart s).pins = s.pins ∧
    (standbyStart s).freeIx = s.freeIx ∧
    (standbyStart s).pending = s.pending ∧
    (standbyStart s).recd.held = s.recd.held ∧
    (standbyStart s).evt.held = s.evt.held := by
  simp only [standbyStart]
  repeat' split
  all_goals simp [id @stopAcq_keep]

theorem shipStart_keep (s : State) :
    (shipStart s).sys = s.sys ∧
    (shipStart s).img = s.img ∧
    (shipStart s).cfg = s.cfg ∧
    (shipStart s).ring = s.ring ∧
    (shipStart s).acq = s.acq ∧
    (shipStart s).cur = s.cur ∧
    (shipStart s).krn = s.krn ∧
    (shipStart s).win = s.win ∧
    (shipStart s).pairs = s.pairs ∧
    (shipStart s).time = s.time ∧
    (shipStart s).therm = s.therm ∧
    (shipStart s).nv = s.nv ∧
    (shipStart s).ledg = s.ledg ∧
    (shipStart s).tally = s.tally ∧
    (shipStart s).host = s.host ∧
    (shipStart s).sec = s.sec ∧
    (shipStart s).bist = s.bist ∧
    (shipStart s).pins = s.pins ∧
    (shipStart s).freeIx = s.freeIx ∧
    (shipStart s).pending = s.pending ∧
    (shipStart s).drv.held = s.drv.held ∧
    (shipStart s).recd.held = s.recd.held ∧
    (shipStart s).est.held = s.est.held ∧
    (shipStart s).evt.held = s.evt.held := by
  simp [shipStart, id @charStop_keep, id @orderlyOpen_keep]

theorem nvFinish_keep (k0 : Nat) (s : State) :
    (nvFinish k0 s).img = s.img ∧
    (nvFinish k0 s).cfg = s.cfg ∧
    (nvFinish k0 s).acq = s.acq ∧
    (nvFinish k0 s).cur = s.cur ∧
    (nvFinish k0 s).pairs = s.pairs ∧
    (nvFinish k0 s).time = s.time ∧
    (nvFinish k0 s).therm = s.therm ∧
    (nvFinish k0 s).tally = s.tally ∧
    (nvFinish k0 s).host = s.host ∧
    (nvFinish k0 s).sec = s.sec ∧
    (nvFinish k0 s).bist = s.bist ∧
    (nvFinish k0 s).freeIx = s.freeIx ∧
    (nvFinish k0 s).pending = s.pending ∧
    (nvFinish k0 s).sys.held = s.sys.held ∧
    (nvFinish k0 s).husk.held = s.husk.held ∧
    (nvFinish k0 s).drv.held = s.drv.held ∧
    (nvFinish k0 s).est.held = s.est.held ∧
    (nvFinish k0 s).pwr.held = s.pwr.held ∧
    (nvFinish k0 s).evt.held = s.evt.held ∧
    (nvFinish k0 s).pins.held = s.pins.held := by
  induction k0 generalizing s with
  | zero => simp [nvFinish]
  | succ n ih =>
    unfold nvFinish
    repeat' split
    all_goals first | (rename_i h; have := execNvWriteDone_keep h; simp [ih, this]) | simp

theorem granOne_keep (pin : Bool) (s : State) :
    (granOne pin s).img = s.img ∧
    (granOne pin s).cfg = s.cfg ∧
    (granOne pin s).acq = s.acq ∧
    (granOne pin s).cur = s.cur ∧
    (granOne pin s).krn = s.krn ∧
    (granOne pin s).win = s.win ∧
    (granOne pin s).pairs = s.pairs ∧
    (granOne pin s).time = s.time ∧
    (granOne pin s).therm = s.therm ∧
    (granOne pin s).nv = s.nv ∧
    (granOne pin s).ledg = s.ledg ∧
    (granOne pin s).tally = s.tally ∧
    (granOne pin s).host = s.host ∧
    (granOne pin s).sec = s.sec ∧
    (granOne pin s).bist = s.bist ∧
    (granOne pin s).freeIx = s.freeIx ∧
    (granOne pin s).pending = s.pending ∧
    (granOne pin s).sys.held = s.sys.held ∧
    (granOne pin s).husk.held = s.husk.held ∧
    (granOne pin s).drv.held = s.drv.held ∧
    (granOne pin s).est.held = s.est.held ∧
    (granOne pin s).pwr.held = s.pwr.held ∧
    (granOne pin s).evt.held = s.evt.held ∧
    (granOne pin s).pins.held = s.pins.held := by
  unfold granOne
  repeat' split
  all_goals first | (rename_i h; have := execGranaryProgramDone_keep h; simp [this]) | simp

theorem granFinish_keep (k0 : Nat) (s : State) :
    (granFinish k0 s).img = s.img ∧
    (granFinish k0 s).cfg = s.cfg ∧
    (granFinish k0 s).acq = s.acq ∧
    (granFinish k0 s).cur = s.cur ∧
    (granFinish k0 s).krn = s.krn ∧
    (granFinish k0 s).win = s.win ∧
    (granFinish k0 s).pairs = s.pairs ∧
    (granFinish k0 s).time = s.time ∧
    (granFinish k0 s).therm = s.therm ∧
    (granFinish k0 s).nv = s.nv ∧
    (granFinish k0 s).ledg = s.ledg ∧
    (granFinish k0 s).tally = s.tally ∧
    (granFinish k0 s).host = s.host ∧
    (granFinish k0 s).sec = s.sec ∧
    (granFinish k0 s).bist = s.bist ∧
    (granFinish k0 s).freeIx = s.freeIx ∧
    (granFinish k0 s).pending = s.pending ∧
    (granFinish k0 s).sys.held = s.sys.held ∧
    (granFinish k0 s).husk.held = s.husk.held ∧
    (granFinish k0 s).drv.held = s.drv.held ∧
    (granFinish k0 s).est.held = s.est.held ∧
    (granFinish k0 s).pwr.held = s.pwr.held ∧
    (granFinish k0 s).evt.held = s.evt.held ∧
    (granFinish k0 s).pins.held = s.pins.held := by
  induction k0 generalizing s with
  | zero => simp [granFinish]
  | succ n ih => simp [granFinish, ih, id @granOne_keep]

theorem pwrReset_keep (s : State) :
    (pwrReset s).freeIx = s.freeIx ∧
    (pwrReset s).pending = s.pending ∧
    (pwrReset s).sec.mid = s.sec.mid ∧
    (pwrReset s).sec.devKey = s.sec.devKey := by
  simp [pwrReset, id @bootBegin_keep, id @checkpoint_keep, id @coreOff_keep, id @granFinish_keep, id @nvFinish_keep,
      id @recFlush_keep]

theorem pwrDo_keep (b : Nat) (s : State) :
    (pwrDo b s).freeIx = s.freeIx ∧
    (pwrDo b s).pending = s.pending ∧
    (pwrDo b s).sec.mid = s.sec.mid ∧
    (pwrDo b s).sec.devKey = s.sec.devKey := by
  unfold pwrDo
  repeat' split
  all_goals simp [id @leaveStandby_keep, id @pwrReset_keep, id @shipStart_keep, id @sleepStart_keep,
      id @standbyStart_keep]

theorem pwrCtrlPut_keep (op : Nat) (p : Port) (tag : BitVec 16) (v : Word) (s : State) :
    (pwrCtrlPut op p tag v s).freeIx = s.freeIx ∧
    (pwrCtrlPut op p tag v s).pending = s.pending ∧
    (pwrCtrlPut op p tag v s).sec.mid = s.sec.mid ∧
    (pwrCtrlPut op p tag v s).sec.devKey = s.sec.devKey := by
  unfold pwrCtrlPut
  repeat' split
  all_goals simp [id @bistAbort_keep, id @pwrDo_keep]

theorem waitOne_keep (s : State) (q : Nat × Port × BitVec 16 × Nat) :
    (waitOne s q).freeIx = s.freeIx ∧
    (waitOne s q).pending = s.pending ∧
    (waitOne s q).sec.mid = s.sec.mid ∧
    (waitOne s q).sec.devKey = s.sec.devKey := by
  simp only [waitOne]
  repeat' split
  all_goals simp [id @answer_keep, id @pwrDo_keep]

theorem waitDone_keep (s : State) :
    (waitDone s).freeIx = s.freeIx ∧
    (waitDone s).pending = s.pending ∧
    (waitDone s).sec.mid = s.sec.mid ∧
    (waitDone s).sec.devKey = s.sec.devKey := by
  simp [waitDone, id @answer_keep, id @waitOne_keep]

theorem execBistRestored_keep {steps : Nat} {fails : List (Nat × Nat)} {s t : State} (h : execBistRestored steps fails s = .next t) :
    t.freeIx = s.freeIx ∧
    t.pending = s.pending ∧
    t.sec.mid = s.sec.mid ∧
    t.sec.devKey = s.sec.devKey := by
  have e := Host.Outcome.next.inj h
  subst e
  dsimp only
  repeat' split
  all_goals simp [id @bistEnd_keep, id @bistFails_keep, id @settle_keep, id @waitDone_keep]

theorem execAutoSleep_keep  {s t : State} (h : execAutoSleep s = .next t) :
    t.img = s.img ∧
    t.cfg = s.cfg ∧
    t.cur = s.cur ∧
    t.krn = s.krn ∧
    t.win = s.win ∧
    t.pairs = s.pairs ∧
    t.time = s.time ∧
    t.therm = s.therm ∧
    t.nv = s.nv ∧
    t.ledg = s.ledg ∧
    t.tally = s.tally ∧
    t.host = s.host ∧
    t.sec = s.sec ∧
    t.freeIx = s.freeIx ∧
    t.pending = s.pending ∧
    t.sys.held = s.sys.held ∧
    t.husk.held = s.husk.held ∧
    t.drv.held = s.drv.held ∧
    t.recd.held = s.recd.held ∧
    t.est.held = s.est.held ∧
    t.evt.held = s.evt.held ∧
    t.pins.held = s.pins.held := by
  have e := Host.Outcome.next.inj h
  subst e
  simp
  repeat' split
  all_goals simp [id @bistAbort_keep, id @settle_keep, id @sleepStart_keep]

theorem execWakeOutTimeout_keep  {s t : State} (h : execWakeOutTimeout s = .next t) :
    t.sys = s.sys ∧
    t.img = s.img ∧
    t.cfg = s.cfg ∧
    t.ring = s.ring ∧
    t.acq = s.acq ∧
    t.cur = s.cur ∧
    t.husk = s.husk ∧
    t.drv = s.drv ∧
    t.krn = s.krn ∧
    t.est = s.est ∧
    t.win = s.win ∧
    t.pairs = s.pairs ∧
    t.time = s.time ∧
    t.therm = s.therm ∧
    t.nv = s.nv ∧
    t.ledg = s.ledg ∧
    t.tally = s.tally ∧
    t.recd = s.recd ∧
    t.host = s.host ∧
    t.sec = s.sec ∧
    t.bist = s.bist ∧
    t.evt = s.evt ∧
    t.pins = s.pins ∧
    t.freeIx = s.freeIx ∧
    t.pending = s.pending := by
  have e := Host.Outcome.next.inj h
  subst e
  dsimp only
  repeat' split
  all_goals simp

@[simp] theorem sleepStep_sys (k : Nat) (next : State → State) (s : State)
    (hf : ∀ t, (next t).sys = t.sys) : (sleepStep k next s).sys = s.sys := by
  unfold sleepStep
  split
  · simp [id @emit_keep, id @wakeStart_keep]
  · simp [hf]

@[simp] theorem sleepStep_img (k : Nat) (next : State → State) (s : State)
    (hf : ∀ t, (next t).img = t.img) : (sleepStep k next s).img = s.img := by
  unfold sleepStep
  split
  · simp [id @emit_keep, id @wakeStart_keep]
  · simp [hf]

@[simp] theorem sleepStep_cfg (k : Nat) (next : State → State) (s : State)
    (hf : ∀ t, (next t).cfg = t.cfg) : (sleepStep k next s).cfg = s.cfg := by
  unfold sleepStep
  split
  · simp [id @emit_keep, id @wakeStart_keep]
  · simp [hf]

@[simp] theorem sleepStep_ring (k : Nat) (next : State → State) (s : State)
    (hf : ∀ t, (next t).ring = t.ring) : (sleepStep k next s).ring = s.ring := by
  unfold sleepStep
  split
  · simp [id @emit_keep, id @wakeStart_keep]
  · simp [hf]

@[simp] theorem sleepStep_acq (k : Nat) (next : State → State) (s : State)
    (hf : ∀ t, (next t).acq = t.acq) : (sleepStep k next s).acq = s.acq := by
  unfold sleepStep
  split
  · simp [id @emit_keep, id @wakeStart_keep]
  · simp [hf]

@[simp] theorem sleepStep_cur (k : Nat) (next : State → State) (s : State)
    (hf : ∀ t, (next t).cur = t.cur) : (sleepStep k next s).cur = s.cur := by
  unfold sleepStep
  split
  · simp [id @emit_keep, id @wakeStart_keep]
  · simp [hf]

@[simp] theorem sleepStep_husk (k : Nat) (next : State → State) (s : State)
    (hf : ∀ t, (next t).husk = t.husk) : (sleepStep k next s).husk = s.husk := by
  unfold sleepStep
  split
  · simp [id @emit_keep, id @wakeStart_keep]
  · simp [hf]

@[simp] theorem sleepStep_drv (k : Nat) (next : State → State) (s : State)
    (hf : ∀ t, (next t).drv = t.drv) : (sleepStep k next s).drv = s.drv := by
  unfold sleepStep
  split
  · simp [id @emit_keep, id @wakeStart_keep]
  · simp [hf]

@[simp] theorem sleepStep_krn (k : Nat) (next : State → State) (s : State)
    (hf : ∀ t, (next t).krn = t.krn) : (sleepStep k next s).krn = s.krn := by
  unfold sleepStep
  split
  · simp [id @emit_keep, id @wakeStart_keep]
  · simp [hf]

@[simp] theorem sleepStep_est (k : Nat) (next : State → State) (s : State)
    (hf : ∀ t, (next t).est = t.est) : (sleepStep k next s).est = s.est := by
  unfold sleepStep
  split
  · simp [id @emit_keep, id @wakeStart_keep]
  · simp [hf]

@[simp] theorem sleepStep_win (k : Nat) (next : State → State) (s : State)
    (hf : ∀ t, (next t).win = t.win) : (sleepStep k next s).win = s.win := by
  unfold sleepStep
  split
  · simp [id @emit_keep, id @wakeStart_keep]
  · simp [hf]

@[simp] theorem sleepStep_pairs (k : Nat) (next : State → State) (s : State)
    (hf : ∀ t, (next t).pairs = t.pairs) : (sleepStep k next s).pairs = s.pairs := by
  unfold sleepStep
  split
  · simp [id @emit_keep, id @wakeStart_keep]
  · simp [hf]

@[simp] theorem sleepStep_time (k : Nat) (next : State → State) (s : State)
    (hf : ∀ t, (next t).time = t.time) : (sleepStep k next s).time = s.time := by
  unfold sleepStep
  split
  · simp [id @emit_keep, id @wakeStart_keep]
  · simp [hf]

@[simp] theorem sleepStep_therm (k : Nat) (next : State → State) (s : State)
    (hf : ∀ t, (next t).therm = t.therm) : (sleepStep k next s).therm = s.therm := by
  unfold sleepStep
  split
  · simp [id @emit_keep, id @wakeStart_keep]
  · simp [hf]

@[simp] theorem sleepStep_nv (k : Nat) (next : State → State) (s : State)
    (hf : ∀ t, (next t).nv = t.nv) : (sleepStep k next s).nv = s.nv := by
  unfold sleepStep
  split
  · simp [id @emit_keep, id @wakeStart_keep]
  · simp [hf]

@[simp] theorem sleepStep_ledg (k : Nat) (next : State → State) (s : State)
    (hf : ∀ t, (next t).ledg = t.ledg) : (sleepStep k next s).ledg = s.ledg := by
  unfold sleepStep
  split
  · simp [id @emit_keep, id @wakeStart_keep]
  · simp [hf]

@[simp] theorem sleepStep_tally (k : Nat) (next : State → State) (s : State)
    (hf : ∀ t, (next t).tally = t.tally) : (sleepStep k next s).tally = s.tally := by
  unfold sleepStep
  split
  · simp [id @emit_keep, id @wakeStart_keep]
  · simp [hf]

@[simp] theorem sleepStep_host (k : Nat) (next : State → State) (s : State)
    (hf : ∀ t, (next t).host = t.host) : (sleepStep k next s).host = s.host := by
  unfold sleepStep
  split
  · simp [id @emit_keep, id @wakeStart_keep]
  · simp [hf]

@[simp] theorem sleepStep_sec (k : Nat) (next : State → State) (s : State)
    (hf : ∀ t, (next t).sec = t.sec) : (sleepStep k next s).sec = s.sec := by
  unfold sleepStep
  split
  · simp [id @emit_keep, id @wakeStart_keep]
  · simp [hf]

@[simp] theorem sleepStep_bist (k : Nat) (next : State → State) (s : State)
    (hf : ∀ t, (next t).bist = t.bist) : (sleepStep k next s).bist = s.bist := by
  unfold sleepStep
  split
  · simp [id @emit_keep, id @wakeStart_keep]
  · simp [hf]

@[simp] theorem sleepStep_pins (k : Nat) (next : State → State) (s : State)
    (hf : ∀ t, (next t).pins = t.pins) : (sleepStep k next s).pins = s.pins := by
  unfold sleepStep
  split
  · simp [id @emit_keep, id @wakeStart_keep]
  · simp [hf]

@[simp] theorem sleepStep_freeIx (k : Nat) (next : State → State) (s : State)
    (hf : ∀ t, (next t).freeIx = t.freeIx) : (sleepStep k next s).freeIx = s.freeIx := by
  unfold sleepStep
  split
  · simp [id @emit_keep, id @wakeStart_keep]
  · simp [hf]

@[simp] theorem sleepStep_pending (k : Nat) (next : State → State) (s : State)
    (hf : ∀ t, (next t).pending = t.pending) : (sleepStep k next s).pending = s.pending := by
  unfold sleepStep
  split
  · simp [id @emit_keep, id @wakeStart_keep]
  · simp [hf]

@[simp] theorem sleepStep_recd_held (k : Nat) (next : State → State) (s : State)
    (hf : ∀ t, (next t).recd.held = t.recd.held) : (sleepStep k next s).recd.held = s.recd.held := by
  unfold sleepStep
  split
  · simp [id @emit_keep, id @wakeStart_keep]
  · simp [hf]

@[simp] theorem sleepStep_evt_held (k : Nat) (next : State → State) (s : State)
    (hf : ∀ t, (next t).evt.held = t.evt.held) : (sleepStep k next s).evt.held = s.evt.held := by
  unfold sleepStep
  split
  · simp [id @emit_keep, id @wakeStart_keep]
  · simp [hf]

@[simp] theorem sleepStep_sys_held (k : Nat) (next : State → State) (s : State)
    (hf : ∀ t, (next t).sys.held = t.sys.held) : (sleepStep k next s).sys.held = s.sys.held := by
  unfold sleepStep
  split
  · simp [id @emit_keep, id @wakeStart_keep]
  · simp [hf]

@[simp] theorem sleepStep_husk_held (k : Nat) (next : State → State) (s : State)
    (hf : ∀ t, (next t).husk.held = t.husk.held) : (sleepStep k next s).husk.held = s.husk.held := by
  unfold sleepStep
  split
  · simp [id @emit_keep, id @wakeStart_keep]
  · simp [hf]

@[simp] theorem sleepStep_drv_held (k : Nat) (next : State → State) (s : State)
    (hf : ∀ t, (next t).drv.held = t.drv.held) : (sleepStep k next s).drv.held = s.drv.held := by
  unfold sleepStep
  split
  · simp [id @emit_keep, id @wakeStart_keep]
  · simp [hf]

@[simp] theorem sleepStep_est_held (k : Nat) (next : State → State) (s : State)
    (hf : ∀ t, (next t).est.held = t.est.held) : (sleepStep k next s).est.held = s.est.held := by
  unfold sleepStep
  split
  · simp [id @emit_keep, id @wakeStart_keep]
  · simp [hf]

@[simp] theorem sleepStep_pins_held (k : Nat) (next : State → State) (s : State)
    (hf : ∀ t, (next t).pins.held = t.pins.held) : (sleepStep k next s).pins.held = s.pins.held := by
  unfold sleepStep
  split
  · simp [id @emit_keep, id @wakeStart_keep]
  · simp [hf]

theorem sleepSave_keep (s : State) :
    (sleepSave s).sys = s.sys ∧
    (sleepSave s).img = s.img ∧
    (sleepSave s).cfg = s.cfg ∧
    (sleepSave s).ring = s.ring ∧
    (sleepSave s).acq = s.acq ∧
    (sleepSave s).cur = s.cur ∧
    (sleepSave s).husk = s.husk ∧
    (sleepSave s).drv = s.drv ∧
    (sleepSave s).est = s.est ∧
    (sleepSave s).pairs = s.pairs ∧
    (sleepSave s).time = s.time ∧
    (sleepSave s).therm = s.therm ∧
    (sleepSave s).tally = s.tally ∧
    (sleepSave s).recd = s.recd ∧
    (sleepSave s).host = s.host ∧
    (sleepSave s).sec = s.sec ∧
    (sleepSave s).pwr = s.pwr ∧
    (sleepSave s).bist = s.bist ∧
    (sleepSave s).evt = s.evt ∧
    (sleepSave s).pins = s.pins ∧
    (sleepSave s).freeIx = s.freeIx ∧
    (sleepSave s).pending = s.pending := by
  simp [sleepSave, id @checkpoint_keep, id @nvFlush_keep, id @nvQueue_keep, id @tbWrite_keep]

theorem execSleepStopAcquisition_keep  {s t : State} (h : execSleepStopAcquisition s = .next t) :
    t.img = s.img ∧
    t.cfg = s.cfg ∧
    t.acq = s.acq ∧
    t.cur = s.cur ∧
    t.time = s.time ∧
    t.therm = s.therm ∧
    t.tally = s.tally ∧
    t.host = s.host ∧
    t.sec = s.sec ∧
    t.bist = s.bist ∧
    t.freeIx = s.freeIx ∧
    t.pending = s.pending ∧
    t.husk.held = s.husk.held ∧
    t.drv.held = s.drv.held ∧
    t.recd.held = s.recd.held ∧
    t.est.held = s.est.held ∧
    t.evt.held = s.evt.held ∧
    t.pins.held = s.pins.held := by
  have e := Host.Outcome.next.inj h
  subst e
  simp [id @settle_keep, id @sleepSave_keep, id @stopAcq_keep]
  repeat' split
  all_goals simp [id @settle_keep, id @sleepSave_keep, id @stopAcq_keep]

theorem execSleepSaveDone_keep  {s t : State} (h : execSleepSaveDone s = .next t) :
    t.img = s.img ∧
    t.cfg = s.cfg ∧
    t.acq = s.acq ∧
    t.cur = s.cur ∧
    t.krn = s.krn ∧
    t.win = s.win ∧
    t.pairs = s.pairs ∧
    t.time = s.time ∧
    t.therm = s.therm ∧
    t.nv = s.nv ∧
    t.ledg = s.ledg ∧
    t.tally = s.tally ∧
    t.host = s.host ∧
    t.sec = s.sec ∧
    t.bist = s.bist ∧
    t.freeIx = s.freeIx ∧
    t.pending = s.pending ∧
    t.sys.held = s.sys.held ∧
    t.husk.held = s.husk.held ∧
    t.drv.held = s.drv.held ∧
    t.est.held = s.est.held ∧
    t.evt.held = s.evt.held ∧
    t.pins.held = s.pins.held := by
  have e := Host.Outcome.next.inj h
  subst e
  simp [id @emit_keep, id @recFlush_keep, id @settle_keep]
  repeat' split
  all_goals simp [id @emit_keep, id @recFlush_keep, id @settle_keep]

theorem asleep_keep (s : State) :
    (asleep s).cfg = s.cfg ∧
    (asleep s).ring = s.ring ∧
    (asleep s).husk = s.husk ∧
    (asleep s).drv = s.drv ∧
    (asleep s).krn.numCnt = s.krn.numCnt ∧
    (asleep s).krn.reinitCnt = s.krn.reinitCnt ∧
    (asleep s).est.str = s.est.str ∧
    (asleep s).est.chr = s.est.chr ∧
    (asleep s).pairs = s.pairs ∧
    (asleep s).time = s.time ∧
    (asleep s).therm = s.therm ∧
    (asleep s).ledg = s.ledg ∧
    (asleep s).sec = s.sec ∧
    (asleep s).evt = s.evt ∧
    (asleep s).freeIx = s.freeIx ∧
    (asleep s).pending = s.pending ∧
    (asleep s).pins.held = s.pins.held := by
  simp [asleep, id @closeStreams_keep, id @curStop_keep]

theorem execSleepFlushDone_keep  {s t : State} (h : execSleepFlushDone s = .next t) :
    t.cfg = s.cfg ∧
    t.pairs = s.pairs ∧
    t.time = s.time ∧
    t.therm = s.therm ∧
    t.ledg = s.ledg ∧
    t.sec = s.sec ∧
    t.freeIx = s.freeIx ∧
    t.pending = s.pending ∧
    t.husk.held = s.husk.held ∧
    t.drv.held = s.drv.held ∧
    t.evt.held = s.evt.held ∧
    t.pins.held = s.pins.held := by
  have e := Host.Outcome.next.inj h
  subst e
  refine ⟨?_, ?_, ?_, ?_, ?_, ?_, ?_, ?_, ?_, ?_, ?_, ?_⟩
  all_goals (repeat' split) <;> simp [id @asleep_keep, id @settle_keep]

theorem execSleepWake_keep {c : Nat} {s t : State} (h : execSleepWake c s = .next t) :
    t.img = s.img ∧
    t.cfg = s.cfg ∧
    t.acq = s.acq ∧
    t.cur = s.cur ∧
    t.krn = s.krn ∧
    t.win = s.win ∧
    t.pairs = s.pairs ∧
    t.time = s.time ∧
    t.therm = s.therm ∧
    t.nv = s.nv ∧
    t.ledg = s.ledg ∧
    t.tally = s.tally ∧
    t.host = s.host ∧
    t.sec = s.sec ∧
    t.bist = s.bist ∧
    t.freeIx = s.freeIx ∧
    t.pending = s.pending ∧
    t.sys.held = s.sys.held ∧
    t.husk.held = s.husk.held ∧
    t.drv.held = s.drv.held ∧
    t.recd.held = s.recd.held ∧
    t.est.held = s.est.held ∧
    t.evt.held = s.evt.held ∧
    t.pins.held = s.pins.held := by
  have e := Host.Outcome.next.inj h
  subst e
  dsimp only
  repeat' split
  all_goals simp [id @settle_keep, id @wakeStart_keep]

theorem execWakeRailsReady_keep  {s t : State} (h : execWakeRailsReady s = .next t) :
    t.img = s.img ∧
    t.cfg = s.cfg ∧
    t.acq = s.acq ∧
    t.cur = s.cur ∧
    t.krn = s.krn ∧
    t.win = s.win ∧
    t.pairs = s.pairs ∧
    t.time = s.time ∧
    t.therm = s.therm ∧
    t.nv = s.nv ∧
    t.ledg = s.ledg ∧
    t.tally = s.tally ∧
    t.host = s.host ∧
    t.sec = s.sec ∧
    t.freeIx = s.freeIx ∧
    t.pending = s.pending ∧
    t.husk.held = s.husk.held ∧
    t.drv.held = s.drv.held ∧
    t.recd.held = s.recd.held ∧
    t.est.held = s.est.held ∧
    t.evt.held = s.evt.held ∧
    t.pins.held = s.pins.held := by
  have e := Host.Outcome.next.inj h
  subst e
  dsimp only
  repeat' split
  all_goals simp [id @emit_keep, id @ringsWake_keep, id @settle_keep]

theorem wakeRing_keep (r : Nat) (uids : List (BitVec 64)) (as : List AuthResp) (s : State) :
    (wakeRing r uids as s).sys = s.sys ∧
    (wakeRing r uids as s).img = s.img ∧
    (wakeRing r uids as s).cfg = s.cfg ∧
    (wakeRing r uids as s).acq = s.acq ∧
    (wakeRing r uids as s).cur = s.cur ∧
    (wakeRing r uids as s).krn = s.krn ∧
    (wakeRing r uids as s).est = s.est ∧
    (wakeRing r uids as s).win = s.win ∧
    (wakeRing r uids as s).pairs = s.pairs ∧
    (wakeRing r uids as s).time = s.time ∧
    (wakeRing r uids as s).therm = s.therm ∧
    (wakeRing r uids as s).ledg = s.ledg ∧
    (wakeRing r uids as s).tally = s.tally ∧
    (wakeRing r uids as s).host = s.host ∧
    (wakeRing r uids as s).pwr = s.pwr ∧
    (wakeRing r uids as s).bist = s.bist ∧
    (wakeRing r uids as s).pins = s.pins ∧
    (wakeRing r uids as s).pending = s.pending ∧
    (wakeRing r uids as s).sec.mid = s.sec.mid ∧
    (wakeRing r uids as s).sec.devKey = s.sec.devKey ∧
    (wakeRing r uids as s).drv.held = s.drv.held ∧
    (wakeRing r uids as s).recd.held = s.recd.held ∧
    (wakeRing r uids as s).evt.held = s.evt.held := by
  simp only [wakeRing]
  repeat' split
  all_goals simp [id @authNode_keep, id @modNode_keep, id @modRing_keep, id @reach_keep]

theorem execWakeRingsReady_keep {ua : List (BitVec 64)} {ub : List (BitVec 64)} {aa : List AuthResp} {ab : List AuthResp} {s t : State} (h : execWakeRingsReady ua ub aa ab s = .next t) :
    t.img = s.img ∧
    t.cfg = s.cfg ∧
    t.krn = s.krn ∧
    t.pairs = s.pairs ∧
    t.time = s.time ∧
    t.therm = s.therm ∧
    t.ledg = s.ledg ∧
    t.tally = s.tally ∧
    t.host = s.host ∧
    t.bist = s.bist ∧
    t.pending = s.pending ∧
    t.sec.mid = s.sec.mid ∧
    t.sec.devKey = s.sec.devKey ∧
    t.drv.held = s.drv.held ∧
    t.recd.held = s.recd.held ∧
    t.est.held = s.est.held ∧
    t.evt.held = s.evt.held ∧
    t.pins.held = s.pins.held := by
  have e := Host.Outcome.next.inj h
  subst e
  dsimp only
  repeat' split
  all_goals simp [id @curStart_keep, id @settle_keep, id @wakeRing_keep]

theorem execWakeModelsLoaded_keep {tests : List (Nat × Nat × Nat × Nat)} {s t : State} (h : execWakeModelsLoaded tests s = .next t) :
    t.img = s.img ∧
    t.cfg = s.cfg ∧
    t.cur = s.cur ∧
    t.time = s.time ∧
    t.therm = s.therm ∧
    t.ledg = s.ledg ∧
    t.host = s.host ∧
    t.sec = s.sec ∧
    t.freeIx = s.freeIx ∧
    t.pending = s.pending ∧
    t.husk.held = s.husk.held ∧
    t.drv.held = s.drv.held ∧
    t.recd.held = s.recd.held ∧
    t.evt.held = s.evt.held ∧
    t.pins.held = s.pins.held := by
  have e := Host.Outcome.next.inj h
  subst e
  dsimp only
  repeat' split
  all_goals simp [id @bootTest_keep, id @modelsLoad_keep, id @settle_keep]

theorem execWakeFullService_keep  {s t : State} (h : execWakeFullService s = .next t) :
    t.img = s.img ∧
    t.cfg = s.cfg ∧
    t.acq = s.acq ∧
    t.cur = s.cur ∧
    t.pairs = s.pairs ∧
    t.time = s.time ∧
    t.therm = s.therm ∧
    t.host = s.host ∧
    t.sec = s.sec ∧
    t.bist = s.bist ∧
    t.freeIx = s.freeIx ∧
    t.pending = s.pending ∧
    t.husk.held = s.husk.held ∧
    t.drv.held = s.drv.held ∧
    t.recd.held = s.recd.held ∧
    t.est.held = s.est.held ∧
    t.evt.held = s.evt.held ∧
    t.pins.held = s.pins.held := by
  have e := Host.Outcome.next.inj h
  subst e
  dsimp only
  repeat' split
  all_goals simp [id @nvStart_keep, id @settle_keep]

theorem patrolWake_keep (bits : Nat) (x : SumSlot) (s : State) :
    (patrolWake bits x s).img = s.img ∧
    (patrolWake bits x s).cfg = s.cfg ∧
    (patrolWake bits x s).cur = s.cur ∧
    (patrolWake bits x s).husk = s.husk ∧
    (patrolWake bits x s).drv = s.drv ∧
    (patrolWake bits x s).est = s.est ∧
    (patrolWake bits x s).time = s.time ∧
    (patrolWake bits x s).therm = s.therm ∧
    (patrolWake bits x s).nv = s.nv ∧
    (patrolWake bits x s).ledg = s.ledg ∧
    (patrolWake bits x s).tally = s.tally ∧
    (patrolWake bits x s).host = s.host ∧
    (patrolWake bits x s).sec = s.sec ∧
    (patrolWake bits x s).bist = s.bist ∧
    (patrolWake bits x s).freeIx = s.freeIx ∧
    (patrolWake bits x s).pending = s.pending ∧
    (patrolWake bits x s).recd.held = s.recd.held ∧
    (patrolWake bits x s).evt.held = s.evt.held ∧
    (patrolWake bits x s).pins.held = s.pins.held := by
  unfold patrolWake
  repeat' split
  all_goals simp [id @emit_keep, id @leaveStandby_keep, id @wakeStart_keep]

theorem patrolSlot_keep (r : Nat) (a : State × List SumSlot) (x : SumRx) :
    (patrolSlot r a x).1.sys = a.1.sys ∧
    (patrolSlot r a x).1.img = a.1.img ∧
    (patrolSlot r a x).1.cfg = a.1.cfg ∧
    (patrolSlot r a x).1.acq = a.1.acq ∧
    (patrolSlot r a x).1.cur = a.1.cur ∧
    (patrolSlot r a x).1.husk = a.1.husk ∧
    (patrolSlot r a x).1.drv = a.1.drv ∧
    (patrolSlot r a x).1.krn = a.1.krn ∧
    (patrolSlot r a x).1.est = a.1.est ∧
    (patrolSlot r a x).1.win = a.1.win ∧
    (patrolSlot r a x).1.pairs = a.1.pairs ∧
    (patrolSlot r a x).1.time = a.1.time ∧
    (patrolSlot r a x).1.therm = a.1.therm ∧
    (patrolSlot r a x).1.nv = a.1.nv ∧
    (patrolSlot r a x).1.ledg = a.1.ledg ∧
    (patrolSlot r a x).1.tally = a.1.tally ∧
    (patrolSlot r a x).1.recd = a.1.recd ∧
    (patrolSlot r a x).1.host = a.1.host ∧
    (patrolSlot r a x).1.sec = a.1.sec ∧
    (patrolSlot r a x).1.pwr = a.1.pwr ∧
    (patrolSlot r a x).1.bist = a.1.bist ∧
    (patrolSlot r a x).1.evt = a.1.evt ∧
    (patrolSlot r a x).1.pins = a.1.pins ∧
    (patrolSlot r a x).1.freeIx = a.1.freeIx ∧
    (patrolSlot r a x).1.pending = a.1.pending := by
  unfold patrolSlot
  dsimp only
  repeat' split
  all_goals simp [id @portErr_keep]

theorem patrolRing_sys (rx : List SumRx) (a : State × List SumSlot) (r : Nat) :
    (patrolRing rx a r).1.sys = a.1.sys := by
  simp only [patrolRing]
  simp [id @commandOut_keep]
  refine (foldl_fst (·.sys) _ _ _ fun b x => ?_).trans ?_ <;> simp [id @frmNext_keep,
      id @modRing_keep, id @patrolSlot_keep, id @ringTxBoth_keep]

theorem patrolRing_img (rx : List SumRx) (a : State × List SumSlot) (r : Nat) :
    (patrolRing rx a r).1.img = a.1.img := by
  simp only [patrolRing]
  simp [id @commandOut_keep]
  refine (foldl_fst (·.img) _ _ _ fun b x => ?_).trans ?_ <;> simp [id @frmNext_keep,
      id @modRing_keep, id @patrolSlot_keep, id @ringTxBoth_keep]

theorem patrolRing_cfg (rx : List SumRx) (a : State × List SumSlot) (r : Nat) :
    (patrolRing rx a r).1.cfg = a.1.cfg := by
  simp only [patrolRing]
  simp [id @commandOut_keep]
  refine (foldl_fst (·.cfg) _ _ _ fun b x => ?_).trans ?_ <;> simp [id @frmNext_keep,
      id @modRing_keep, id @patrolSlot_keep, id @ringTxBoth_keep]

theorem patrolRing_acq (rx : List SumRx) (a : State × List SumSlot) (r : Nat) :
    (patrolRing rx a r).1.acq = a.1.acq := by
  simp only [patrolRing]
  simp [id @commandOut_keep]
  refine (foldl_fst (·.acq) _ _ _ fun b x => ?_).trans ?_ <;> simp [id @frmNext_keep,
      id @modRing_keep, id @patrolSlot_keep, id @ringTxBoth_keep]

theorem patrolRing_cur (rx : List SumRx) (a : State × List SumSlot) (r : Nat) :
    (patrolRing rx a r).1.cur = a.1.cur := by
  simp only [patrolRing]
  simp [id @commandOut_keep]
  refine (foldl_fst (·.cur) _ _ _ fun b x => ?_).trans ?_ <;> simp [id @frmNext_keep,
      id @modRing_keep, id @patrolSlot_keep, id @ringTxBoth_keep]

theorem patrolRing_husk (rx : List SumRx) (a : State × List SumSlot) (r : Nat) :
    (patrolRing rx a r).1.husk = a.1.husk := by
  simp only [patrolRing]
  simp [id @commandOut_keep]
  refine (foldl_fst (·.husk) _ _ _ fun b x => ?_).trans ?_ <;> simp [id @frmNext_keep,
      id @modRing_keep, id @patrolSlot_keep, id @ringTxBoth_keep]

theorem patrolRing_drv (rx : List SumRx) (a : State × List SumSlot) (r : Nat) :
    (patrolRing rx a r).1.drv = a.1.drv := by
  simp only [patrolRing]
  simp [id @commandOut_keep]
  refine (foldl_fst (·.drv) _ _ _ fun b x => ?_).trans ?_ <;> simp [id @frmNext_keep,
      id @modRing_keep, id @patrolSlot_keep, id @ringTxBoth_keep]

theorem patrolRing_krn (rx : List SumRx) (a : State × List SumSlot) (r : Nat) :
    (patrolRing rx a r).1.krn = a.1.krn := by
  simp only [patrolRing]
  simp [id @commandOut_keep]
  refine (foldl_fst (·.krn) _ _ _ fun b x => ?_).trans ?_ <;> simp [id @frmNext_keep,
      id @modRing_keep, id @patrolSlot_keep, id @ringTxBoth_keep]

theorem patrolRing_est (rx : List SumRx) (a : State × List SumSlot) (r : Nat) :
    (patrolRing rx a r).1.est = a.1.est := by
  simp only [patrolRing]
  simp [id @commandOut_keep]
  refine (foldl_fst (·.est) _ _ _ fun b x => ?_).trans ?_ <;> simp [id @frmNext_keep,
      id @modRing_keep, id @patrolSlot_keep, id @ringTxBoth_keep]

theorem patrolRing_win (rx : List SumRx) (a : State × List SumSlot) (r : Nat) :
    (patrolRing rx a r).1.win = a.1.win := by
  simp only [patrolRing]
  simp [id @commandOut_keep]
  refine (foldl_fst (·.win) _ _ _ fun b x => ?_).trans ?_ <;> simp [id @frmNext_keep,
      id @modRing_keep, id @patrolSlot_keep, id @ringTxBoth_keep]

theorem patrolRing_pairs (rx : List SumRx) (a : State × List SumSlot) (r : Nat) :
    (patrolRing rx a r).1.pairs = a.1.pairs := by
  simp only [patrolRing]
  simp [id @commandOut_keep]
  refine (foldl_fst (·.pairs) _ _ _ fun b x => ?_).trans ?_ <;> simp [id @frmNext_keep,
      id @modRing_keep, id @patrolSlot_keep, id @ringTxBoth_keep]

theorem patrolRing_therm (rx : List SumRx) (a : State × List SumSlot) (r : Nat) :
    (patrolRing rx a r).1.therm = a.1.therm := by
  simp only [patrolRing]
  simp [id @commandOut_keep]
  refine (foldl_fst (·.therm) _ _ _ fun b x => ?_).trans ?_ <;> simp [id @frmNext_keep,
      id @modRing_keep, id @patrolSlot_keep, id @ringTxBoth_keep]

theorem patrolRing_nv (rx : List SumRx) (a : State × List SumSlot) (r : Nat) :
    (patrolRing rx a r).1.nv = a.1.nv := by
  simp only [patrolRing]
  simp [id @commandOut_keep]
  refine (foldl_fst (·.nv) _ _ _ fun b x => ?_).trans ?_ <;> simp [id @frmNext_keep,
      id @modRing_keep, id @patrolSlot_keep, id @ringTxBoth_keep]

theorem patrolRing_ledg (rx : List SumRx) (a : State × List SumSlot) (r : Nat) :
    (patrolRing rx a r).1.ledg = a.1.ledg := by
  simp only [patrolRing]
  simp [id @commandOut_keep]
  refine (foldl_fst (·.ledg) _ _ _ fun b x => ?_).trans ?_ <;> simp [id @frmNext_keep,
      id @modRing_keep, id @patrolSlot_keep, id @ringTxBoth_keep]

theorem patrolRing_tally (rx : List SumRx) (a : State × List SumSlot) (r : Nat) :
    (patrolRing rx a r).1.tally = a.1.tally := by
  simp only [patrolRing]
  simp [id @commandOut_keep]
  refine (foldl_fst (·.tally) _ _ _ fun b x => ?_).trans ?_ <;> simp [id @frmNext_keep,
      id @modRing_keep, id @patrolSlot_keep, id @ringTxBoth_keep]

theorem patrolRing_host (rx : List SumRx) (a : State × List SumSlot) (r : Nat) :
    (patrolRing rx a r).1.host = a.1.host := by
  simp only [patrolRing]
  simp [id @commandOut_keep]
  refine (foldl_fst (·.host) _ _ _ fun b x => ?_).trans ?_ <;> simp [id @frmNext_keep,
      id @modRing_keep, id @patrolSlot_keep, id @ringTxBoth_keep]

theorem patrolRing_sec (rx : List SumRx) (a : State × List SumSlot) (r : Nat) :
    (patrolRing rx a r).1.sec = a.1.sec := by
  simp only [patrolRing]
  simp [id @commandOut_keep]
  refine (foldl_fst (·.sec) _ _ _ fun b x => ?_).trans ?_ <;> simp [id @frmNext_keep,
      id @modRing_keep, id @patrolSlot_keep, id @ringTxBoth_keep]

theorem patrolRing_pwr (rx : List SumRx) (a : State × List SumSlot) (r : Nat) :
    (patrolRing rx a r).1.pwr = a.1.pwr := by
  simp only [patrolRing]
  simp [id @commandOut_keep]
  refine (foldl_fst (·.pwr) _ _ _ fun b x => ?_).trans ?_ <;> simp [id @frmNext_keep,
      id @modRing_keep, id @patrolSlot_keep, id @ringTxBoth_keep]

theorem patrolRing_bist (rx : List SumRx) (a : State × List SumSlot) (r : Nat) :
    (patrolRing rx a r).1.bist = a.1.bist := by
  simp only [patrolRing]
  simp [id @commandOut_keep]
  refine (foldl_fst (·.bist) _ _ _ fun b x => ?_).trans ?_ <;> simp [id @frmNext_keep,
      id @modRing_keep, id @patrolSlot_keep, id @ringTxBoth_keep]

theorem patrolRing_pins (rx : List SumRx) (a : State × List SumSlot) (r : Nat) :
    (patrolRing rx a r).1.pins = a.1.pins := by
  simp only [patrolRing]
  simp [id @commandOut_keep]
  refine (foldl_fst (·.pins) _ _ _ fun b x => ?_).trans ?_ <;> simp [id @frmNext_keep,
      id @modRing_keep, id @patrolSlot_keep, id @ringTxBoth_keep]

theorem patrolRing_freeIx (rx : List SumRx) (a : State × List SumSlot) (r : Nat) :
    (patrolRing rx a r).1.freeIx = a.1.freeIx := by
  simp only [patrolRing]
  simp [id @commandOut_keep]
  refine (foldl_fst (·.freeIx) _ _ _ fun b x => ?_).trans ?_ <;> simp [id @frmNext_keep,
      id @modRing_keep, id @patrolSlot_keep, id @ringTxBoth_keep]

theorem patrolRing_pending (rx : List SumRx) (a : State × List SumSlot) (r : Nat) :
    (patrolRing rx a r).1.pending = a.1.pending := by
  simp only [patrolRing]
  simp [id @commandOut_keep]
  refine (foldl_fst (·.pending) _ _ _ fun b x => ?_).trans ?_ <;> simp [id @frmNext_keep,
      id @modRing_keep, id @patrolSlot_keep, id @ringTxBoth_keep]

theorem patrolRing_recd_held (rx : List SumRx) (a : State × List SumSlot) (r : Nat) :
    (patrolRing rx a r).1.recd.held = a.1.recd.held := by
  simp only [patrolRing]
  simp [id @commandOut_keep]
  refine (foldl_fst (·.recd.held) _ _ _ fun b x => ?_).trans ?_ <;> simp [id @frmNext_keep,
      id @modRing_keep, id @patrolSlot_keep, id @ringTxBoth_keep]

theorem patrolRing_keep (rx : List SumRx) (a : State × List SumSlot) (r : Nat) :
    (patrolRing rx a r).1.sys = a.1.sys ∧
    (patrolRing rx a r).1.img = a.1.img ∧
    (patrolRing rx a r).1.cfg = a.1.cfg ∧
    (patrolRing rx a r).1.acq = a.1.acq ∧
    (patrolRing rx a r).1.cur = a.1.cur ∧
    (patrolRing rx a r).1.husk = a.1.husk ∧
    (patrolRing rx a r).1.drv = a.1.drv ∧
    (patrolRing rx a r).1.krn = a.1.krn ∧
    (patrolRing rx a r).1.est = a.1.est ∧
    (patrolRing rx a r).1.win = a.1.win ∧
    (patrolRing rx a r).1.pairs = a.1.pairs ∧
    (patrolRing rx a r).1.therm = a.1.therm ∧
    (patrolRing rx a r).1.nv = a.1.nv ∧
    (patrolRing rx a r).1.ledg = a.1.ledg ∧
    (patrolRing rx a r).1.tally = a.1.tally ∧
    (patrolRing rx a r).1.host = a.1.host ∧
    (patrolRing rx a r).1.sec = a.1.sec ∧
    (patrolRing rx a r).1.pwr = a.1.pwr ∧
    (patrolRing rx a r).1.bist = a.1.bist ∧
    (patrolRing rx a r).1.pins = a.1.pins ∧
    (patrolRing rx a r).1.freeIx = a.1.freeIx ∧
    (patrolRing rx a r).1.pending = a.1.pending ∧
    (patrolRing rx a r).1.recd.held = a.1.recd.held :=
  ⟨patrolRing_sys rx a r, patrolRing_img rx a r, patrolRing_cfg rx a r, patrolRing_acq rx a r,
      patrolRing_cur rx a r, patrolRing_husk rx a r, patrolRing_drv rx a r, patrolRing_krn rx a r,
          patrolRing_est rx a r, patrolRing_win rx a r, patrolRing_pairs rx a r, patrolRing_therm rx a r,
              patrolRing_nv rx a r, patrolRing_ledg rx a r, patrolRing_tally rx a r, patrolRing_host rx a r,
                  patrolRing_sec rx a r, patrolRing_pwr rx a r, patrolRing_bist rx a r, patrolRing_pins rx a r,
                      patrolRing_freeIx rx a r, patrolRing_pending rx a r, patrolRing_recd_held rx a r⟩

theorem patrolDecide_keep (fails : List Nat) (missing : List (Nat × Nat)) (xs : List SumSlot) (s : State) :
    (patrolDecide fails missing xs s).img = s.img ∧
    (patrolDecide fails missing xs s).cfg = s.cfg ∧
    (patrolDecide fails missing xs s).cur = s.cur ∧
    (patrolDecide fails missing xs s).husk = s.husk ∧
    (patrolDecide fails missing xs s).drv = s.drv ∧
    (patrolDecide fails missing xs s).est = s.est ∧
    (patrolDecide fails missing xs s).time = s.time ∧
    (patrolDecide fails missing xs s).therm = s.therm ∧
    (patrolDecide fails missing xs s).ledg = s.ledg ∧
    (patrolDecide fails missing xs s).tally = s.tally ∧
    (patrolDecide fails missing xs s).host = s.host ∧
    (patrolDecide fails missing xs s).sec = s.sec ∧
    (patrolDecide fails missing xs s).bist = s.bist ∧
    (patrolDecide fails missing xs s).freeIx = s.freeIx ∧
    (patrolDecide fails missing xs s).pending = s.pending ∧
    (patrolDecide fails missing xs s).recd.held = s.recd.held ∧
    (patrolDecide fails missing xs s).evt.held = s.evt.held ∧
    (patrolDecide fails missing xs s).pins.held = s.pins.held := by
  simp only [patrolDecide]
  repeat' split
  all_goals simp [id @modRing_keep, id @patrolWake_keep, id @tbWrite_keep]

theorem patrolRun_img (rx : List SumRx) (rs fails : List Nat) (s : State) :
    (patrolRun rx rs fails s).img = s.img := by
  simp only [patrolRun]
  simp [id @patrolDecide_keep]
  exact foldl_fst (·.img) _ _ _ fun b x => by simp [id @patrolRing_keep]

theorem patrolRun_cfg (rx : List SumRx) (rs fails : List Nat) (s : State) :
    (patrolRun rx rs fails s).cfg = s.cfg := by
  simp only [patrolRun]
  simp [id @patrolDecide_keep]
  exact foldl_fst (·.cfg) _ _ _ fun b x => by simp [id @patrolRing_keep]

theorem patrolRun_cur (rx : List SumRx) (rs fails : List Nat) (s : State) :
    (patrolRun rx rs fails s).cur = s.cur := by
  simp only [patrolRun]
  simp [id @patrolDecide_keep]
  exact foldl_fst (·.cur) _ _ _ fun b x => by simp [id @patrolRing_keep]

theorem patrolRun_husk (rx : List SumRx) (rs fails : List Nat) (s : State) :
    (patrolRun rx rs fails s).husk = s.husk := by
  simp only [patrolRun]
  simp [id @patrolDecide_keep]
  exact foldl_fst (·.husk) _ _ _ fun b x => by simp [id @patrolRing_keep]

theorem patrolRun_drv (rx : List SumRx) (rs fails : List Nat) (s : State) :
    (patrolRun rx rs fails s).drv = s.drv := by
  simp only [patrolRun]
  simp [id @patrolDecide_keep]
  exact foldl_fst (·.drv) _ _ _ fun b x => by simp [id @patrolRing_keep]

theorem patrolRun_est (rx : List SumRx) (rs fails : List Nat) (s : State) :
    (patrolRun rx rs fails s).est = s.est := by
  simp only [patrolRun]
  simp [id @patrolDecide_keep]
  exact foldl_fst (·.est) _ _ _ fun b x => by simp [id @patrolRing_keep]

theorem patrolRun_therm (rx : List SumRx) (rs fails : List Nat) (s : State) :
    (patrolRun rx rs fails s).therm = s.therm := by
  simp only [patrolRun]
  simp [id @patrolDecide_keep]
  exact foldl_fst (·.therm) _ _ _ fun b x => by simp [id @patrolRing_keep]

theorem patrolRun_ledg (rx : List SumRx) (rs fails : List Nat) (s : State) :
    (patrolRun rx rs fails s).ledg = s.ledg := by
  simp only [patrolRun]
  simp [id @patrolDecide_keep]
  exact foldl_fst (·.ledg) _ _ _ fun b x => by simp [id @patrolRing_keep]

theorem patrolRun_tally (rx : List SumRx) (rs fails : List Nat) (s : State) :
    (patrolRun rx rs fails s).tally = s.tally := by
  simp only [patrolRun]
  simp [id @patrolDecide_keep]
  exact foldl_fst (·.tally) _ _ _ fun b x => by simp [id @patrolRing_keep]

theorem patrolRun_host (rx : List SumRx) (rs fails : List Nat) (s : State) :
    (patrolRun rx rs fails s).host = s.host := by
  simp only [patrolRun]
  simp [id @patrolDecide_keep]
  exact foldl_fst (·.host) _ _ _ fun b x => by simp [id @patrolRing_keep]

theorem patrolRun_sec (rx : List SumRx) (rs fails : List Nat) (s : State) :
    (patrolRun rx rs fails s).sec = s.sec := by
  simp only [patrolRun]
  simp [id @patrolDecide_keep]
  exact foldl_fst (·.sec) _ _ _ fun b x => by simp [id @patrolRing_keep]

theorem patrolRun_bist (rx : List SumRx) (rs fails : List Nat) (s : State) :
    (patrolRun rx rs fails s).bist = s.bist := by
  simp only [patrolRun]
  simp [id @patrolDecide_keep]
  exact foldl_fst (·.bist) _ _ _ fun b x => by simp [id @patrolRing_keep]

theorem patrolRun_freeIx (rx : List SumRx) (rs fails : List Nat) (s : State) :
    (patrolRun rx rs fails s).freeIx = s.freeIx := by
  simp only [patrolRun]
  simp [id @patrolDecide_keep]
  exact foldl_fst (·.freeIx) _ _ _ fun b x => by simp [id @patrolRing_keep]

theorem patrolRun_pending (rx : List SumRx) (rs fails : List Nat) (s : State) :
    (patrolRun rx rs fails s).pending = s.pending := by
  simp only [patrolRun]
  simp [id @patrolDecide_keep]
  exact foldl_fst (·.pending) _ _ _ fun b x => by simp [id @patrolRing_keep]

theorem patrolRun_recd_held (rx : List SumRx) (rs fails : List Nat) (s : State) :
    (patrolRun rx rs fails s).recd.held = s.recd.held := by
  simp only [patrolRun]
  simp [id @patrolDecide_keep]
  exact foldl_fst (·.recd.held) _ _ _ fun b x => by simp [id @patrolRing_keep]

theorem patrolRun_pins_held (rx : List SumRx) (rs fails : List Nat) (s : State) :
    (patrolRun rx rs fails s).pins.held = s.pins.held := by
  simp only [patrolRun]
  simp [id @patrolDecide_keep]
  exact foldl_fst (·.pins.held) _ _ _ fun b x => by simp [id @patrolRing_keep]

theorem patrolRun_keep (rx : List SumRx) (rs fails : List Nat) (s : State) :
    (patrolRun rx rs fails s).img = s.img ∧
    (patrolRun rx rs fails s).cfg = s.cfg ∧
    (patrolRun rx rs fails s).cur = s.cur ∧
    (patrolRun rx rs fails s).husk = s.husk ∧
    (patrolRun rx rs fails s).drv = s.drv ∧
    (patrolRun rx rs fails s).est = s.est ∧
    (patrolRun rx rs fails s).therm = s.therm ∧
    (patrolRun rx rs fails s).ledg = s.ledg ∧
    (patrolRun rx rs fails s).tally = s.tally ∧
    (patrolRun rx rs fails s).host = s.host ∧
    (patrolRun rx rs fails s).sec = s.sec ∧
    (patrolRun rx rs fails s).bist = s.bist ∧
    (patrolRun rx rs fails s).freeIx = s.freeIx ∧
    (patrolRun rx rs fails s).pending = s.pending ∧
    (patrolRun rx rs fails s).recd.held = s.recd.held ∧
    (patrolRun rx rs fails s).pins.held = s.pins.held :=
  ⟨patrolRun_img rx rs fails s, patrolRun_cfg rx rs fails s, patrolRun_cur rx rs fails s,
      patrolRun_husk rx rs fails s, patrolRun_drv rx rs fails s, patrolRun_est rx rs fails s,
          patrolRun_therm rx rs fails s, patrolRun_ledg rx rs fails s, patrolRun_tally rx rs fails s,
              patrolRun_host rx rs fails s, patrolRun_sec rx rs fails s, patrolRun_bist rx rs fails s,
                  patrolRun_freeIx rx rs fails s, patrolRun_pending rx rs fails s,
                      patrolRun_recd_held rx rs fails s, patrolRun_pins_held rx rs fails s⟩

theorem execSleepPatrol_keep {slots : List SumRx} {fails : List Nat} {s t : State} (h : execSleepPatrol slots fails s = .next t) :
    t.img = s.img ∧
    t.cfg = s.cfg ∧
    t.cur = s.cur ∧
    t.therm = s.therm ∧
    t.ledg = s.ledg ∧
    t.tally = s.tally ∧
    t.host = s.host ∧
    t.sec = s.sec ∧
    t.bist = s.bist ∧
    t.freeIx = s.freeIx ∧
    t.pending = s.pending ∧
    t.husk.held = s.husk.held ∧
    t.drv.held = s.drv.held ∧
    t.recd.held = s.recd.held ∧
    t.est.held = s.est.held ∧
    t.pins.held = s.pins.held := by
  have e := Host.Outcome.next.inj h
  subst e
  dsimp only
  repeat' split
  all_goals simp [id @patrolRun_keep, id @settle_keep]

theorem execPatrolRecheck_keep {slots : List SumRx} {fails : List Nat} {s t : State} (h : execPatrolRecheck slots fails s = .next t) :
    t.img = s.img ∧
    t.cfg = s.cfg ∧
    t.cur = s.cur ∧
    t.therm = s.therm ∧
    t.ledg = s.ledg ∧
    t.tally = s.tally ∧
    t.host = s.host ∧
    t.sec = s.sec ∧
    t.bist = s.bist ∧
    t.freeIx = s.freeIx ∧
    t.pending = s.pending ∧
    t.husk.held = s.husk.held ∧
    t.drv.held = s.drv.held ∧
    t.recd.held = s.recd.held ∧
    t.est.held = s.est.held ∧
    t.pins.held = s.pins.held := by
  have e := Host.Outcome.next.inj h
  subst e
  simp [id @patrolRun_keep, id @settle_keep]
  repeat' split
  all_goals simp [id @patrolRun_keep, id @settle_keep]

theorem execShipStringsOpen_keep  {s t : State} (h : execShipStringsOpen s = .next t) :
    t.img = s.img ∧
    t.cfg = s.cfg ∧
    t.acq = s.acq ∧
    t.cur = s.cur ∧
    t.pairs = s.pairs ∧
    t.time = s.time ∧
    t.therm = s.therm ∧
    t.tally = s.tally ∧
    t.host = s.host ∧
    t.sec = s.sec ∧
    t.bist = s.bist ∧
    t.freeIx = s.freeIx ∧
    t.pending = s.pending ∧
    t.sys.held = s.sys.held ∧
    t.husk.held = s.husk.held ∧
    t.drv.held = s.drv.held ∧
    t.recd.held = s.recd.held ∧
    t.est.held = s.est.held ∧
    t.evt.held = s.evt.held ∧
    t.pins.held = s.pins.held := by
  have e := Host.Outcome.next.inj h
  subst e
  dsimp only
  repeat' split
  all_goals simp [id @checkpoint_keep, id @nvFlush_keep, id @nvQueue_keep, id @podAsk_keep, id @settle_keep]

theorem execShipSaved_keep  {s t : State} (h : execShipSaved s = .next t) :
    t.img = s.img ∧
    t.cfg = s.cfg ∧
    t.acq = s.acq ∧
    t.cur = s.cur ∧
    t.time = s.time ∧
    t.therm = s.therm ∧
    t.nv = s.nv ∧
    t.ledg = s.ledg ∧
    t.tally = s.tally ∧
    t.host = s.host ∧
    t.sec = s.sec ∧
    t.bist = s.bist ∧
    t.freeIx = s.freeIx ∧
    t.pending = s.pending ∧
    t.husk.held = s.husk.held ∧
    t.drv.held = s.drv.held ∧
    t.est.held = s.est.held ∧
    t.evt.held = s.evt.held ∧
    t.pins.held = s.pins.held := by
  have e := Host.Outcome.next.inj h
  subst e
  dsimp only
  repeat' split
  all_goals simp [id @emit_keep, id @framesStop_keep, id @recFlush_keep, id @ringSleep_keep, id @settle_keep]

theorem execShipPowerDown_keep  {s t : State} (h : execShipPowerDown s = .next t) :
    t.freeIx = s.freeIx ∧
    t.pending = s.pending ∧
    t.sec.mid = s.sec.mid ∧
    t.sec.devKey = s.sec.devKey := by
  have e := Host.Outcome.next.inj h
  subst e
  dsimp only
  repeat' split
  all_goals simp [id @deviceOff_keep, id @settle_keep]

theorem execWakeControllerArm_keep {btn : Bool} {ns : Nat} {s t : State} (h : execWakeControllerArm btn ns s = .next t) :
    t.sys = s.sys ∧
    t.img = s.img ∧
    t.cfg = s.cfg ∧
    t.ring = s.ring ∧
    t.acq = s.acq ∧
    t.cur = s.cur ∧
    t.husk = s.husk ∧
    t.drv = s.drv ∧
    t.krn = s.krn ∧
    t.est = s.est ∧
    t.win = s.win ∧
    t.pairs = s.pairs ∧
    t.time = s.time ∧
    t.therm = s.therm ∧
    t.nv = s.nv ∧
    t.ledg = s.ledg ∧
    t.tally = s.tally ∧
    t.recd = s.recd ∧
    t.host = s.host ∧
    t.sec = s.sec ∧
    t.bist = s.bist ∧
    t.evt = s.evt ∧
    t.pins = s.pins ∧
    t.freeIx = s.freeIx ∧
    t.pending = s.pending := by
  have e := Host.Outcome.next.inj h
  subst e
  simp

theorem execShipWake_keep {btn : Bool} {ns : Nat} {s t : State} (h : execShipWake btn ns s = .next t) :
    t.freeIx = s.freeIx ∧
    t.pending = s.pending ∧
    t.sec.mid = s.sec.mid ∧
    t.sec.devKey = s.sec.devKey := by
  have e := Host.Outcome.next.inj h
  subst e
  dsimp only
  repeat' split
  all_goals simp [id @settle_keep, id @startBegin_keep]

theorem pwrCfgPut_keep (sleep : Nat) (level : Nat) (s : State) :
    (pwrCfgPut sleep level s).sys = s.sys ∧
    (pwrCfgPut sleep level s).img = s.img ∧
    (pwrCfgPut sleep level s).cfg = s.cfg ∧
    (pwrCfgPut sleep level s).ring = s.ring ∧
    (pwrCfgPut sleep level s).acq = s.acq ∧
    (pwrCfgPut sleep level s).cur = s.cur ∧
    (pwrCfgPut sleep level s).husk = s.husk ∧
    (pwrCfgPut sleep level s).drv = s.drv ∧
    (pwrCfgPut sleep level s).est = s.est ∧
    (pwrCfgPut sleep level s).pairs = s.pairs ∧
    (pwrCfgPut sleep level s).time = s.time ∧
    (pwrCfgPut sleep level s).therm = s.therm ∧
    (pwrCfgPut sleep level s).ledg = s.ledg ∧
    (pwrCfgPut sleep level s).tally = s.tally ∧
    (pwrCfgPut sleep level s).recd = s.recd ∧
    (pwrCfgPut sleep level s).host = s.host ∧
    (pwrCfgPut sleep level s).sec = s.sec ∧
    (pwrCfgPut sleep level s).bist = s.bist ∧
    (pwrCfgPut sleep level s).evt = s.evt ∧
    (pwrCfgPut sleep level s).pins = s.pins ∧
    (pwrCfgPut sleep level s).freeIx = s.freeIx ∧
    (pwrCfgPut sleep level s).pending = s.pending := by
  simp [pwrCfgPut, id @nvQueue_keep]

end Sys2Proof.Machine
end

