-- ==== Sys2Proof/Laws/KeepEvt.lean ====
section
/-! SUPPORT. What the operations of Machine/Evt.lean leave unchanged. -/

namespace Sys2Proof.Machine

theorem overflowEnd_keep (s : State) :
    (overflowEnd s).sys = s.sys ∧
    (overflowEnd s).img = s.img ∧
    (overflowEnd s).cfg = s.cfg ∧
    (overflowEnd s).ring = s.ring ∧
    (overflowEnd s).acq = s.acq ∧
    (overflowEnd s).cur = s.cur ∧
    (overflowEnd s).husk = s.husk ∧
    (overflowEnd s).drv = s.drv ∧
    (overflowEnd s).krn = s.krn ∧
    (overflowEnd s).est = s.est ∧
    (overflowEnd s).win = s.win ∧
    (overflowEnd s).pairs = s.pairs ∧
    (overflowEnd s).time = s.time ∧
    (overflowEnd s).therm = s.therm ∧
    (overflowEnd s).nv = s.nv ∧
    (overflowEnd s).ledg = s.ledg ∧
    (overflowEnd s).tally = s.tally ∧
    (overflowEnd s).recd = s.recd ∧
    (overflowEnd s).host = s.host ∧
    (overflowEnd s).sec = s.sec ∧
    (overflowEnd s).pwr = s.pwr ∧
    (overflowEnd s).bist = s.bist ∧
    (overflowEnd s).pins = s.pins ∧
    (overflowEnd s).freeIx = s.freeIx ∧
    (overflowEnd s).pending = s.pending ∧
    (overflowEnd s).evt.held = s.evt.held := by
  simp [overflowEnd]

theorem takeEnt_keep (s : State) :
    (takeEnt s).sys = s.sys ∧
    (takeEnt s).img = s.img ∧
    (takeEnt s).cfg = s.cfg ∧
    (takeEnt s).ring = s.ring ∧
    (takeEnt s).acq = s.acq ∧
    (takeEnt s).cur = s.cur ∧
    (takeEnt s).husk = s.husk ∧
    (takeEnt s).drv = s.drv ∧
    (takeEnt s).krn = s.krn ∧
    (takeEnt s).est = s.est ∧
    (takeEnt s).win = s.win ∧
    (takeEnt s).pairs = s.pairs ∧
    (takeEnt s).time = s.time ∧
    (takeEnt s).therm = s.therm ∧
    (takeEnt s).nv = s.nv ∧
    (takeEnt s).ledg = s.ledg ∧
    (takeEnt s).tally = s.tally ∧
    (takeEnt s).recd = s.recd ∧
    (takeEnt s).host = s.host ∧
    (takeEnt s).sec = s.sec ∧
    (takeEnt s).pwr = s.pwr ∧
    (takeEnt s).bist = s.bist ∧
    (takeEnt s).pins = s.pins ∧
    (takeEnt s).freeIx = s.freeIx ∧
    (takeEnt s).pending = s.pending ∧
    (takeEnt s).evt.held = s.evt.held := by
  simp only [takeEnt]
  repeat' split
  all_goals simp

theorem execErrqHandle_keep  {s t : State} (h : execErrqHandle s = .next t) :
    t.img = s.img ∧
    t.cfg = s.cfg ∧
    t.acq = s.acq ∧
    t.cur = s.cur ∧
    t.krn = s.krn ∧
    t.win = s.win ∧
    t.pairs = s.pairs ∧
    t.time = s.time ∧
    t.therm = s.therm ∧
    t.nv = s.nv ∧
    t.ledg = s.ledg ∧
    t.tally = s.tally ∧
    t.host = s.host ∧
    t.sec = s.sec ∧
    t.bist = s.bist ∧
    t.freeIx = s.freeIx ∧
    t.pending = s.pending ∧
    t.sys.held = s.sys.held ∧
    t.husk.held = s.husk.held ∧
    t.drv.held = s.drv.held ∧
    t.recd.held = s.recd.held ∧
    t.est.held = s.est.held ∧
    t.pwr.held = s.pwr.held ∧
    t.evt.held = s.evt.held ∧
    t.pins.held = s.pins.held := by
  have e := Host.Outcome.next.inj h
  subst e
  dsimp only
  repeat' split
  all_goals simp [id @overflowEnd_keep, id @settle_keep, id @takeEnt_keep]

theorem execErrqPreempt_keep  {s t : State} (h : execErrqPreempt s = .next t) :
    t.sys = s.sys ∧
    t.img = s.img ∧
    t.cfg = s.cfg ∧
    t.ring = s.ring ∧
    t.acq = s.acq ∧
    t.cur = s.cur ∧
    t.husk = s.husk ∧
    t.drv = s.drv ∧
    t.krn = s.krn ∧
    t.est = s.est ∧
    t.win = s.win ∧
    t.pairs = s.pairs ∧
    t.time = s.time ∧
    t.therm = s.therm ∧
    t.nv = s.nv ∧
    t.ledg = s.ledg ∧
    t.tally = s.tally ∧
    t.recd = s.recd ∧
    t.host = s.host ∧
    t.sec = s.sec ∧
    t.pwr = s.pwr ∧
    t.bist = s.bist ∧
    t.pins = s.pins ∧
    t.freeIx = s.freeIx ∧
    t.pending = s.pending ∧
    t.evt.held = s.evt.held := by
  have e := Host.Outcome.next.inj h
  subst e
  simp [id @takeEnt_keep]
  repeat' split
  all_goals simp [id @takeEnt_keep]

theorem execStewardReset_keep {lockstep : Bool} {s t : State} (h : execStewardReset lockstep s = .next t) :
    t.cfg = s.cfg ∧
    t.acq = s.acq ∧
    t.cur = s.cur ∧
    t.pairs = s.pairs ∧
    t.time = s.time ∧
    t.therm = s.therm ∧
    t.tally = s.tally ∧
    t.host = s.host ∧
    t.sec = s.sec ∧
    t.bist = s.bist ∧
    t.freeIx = s.freeIx ∧
    t.pending = s.pending ∧
    t.husk.held = s.husk.held ∧
    t.drv.held = s.drv.held ∧
    t.est.held = s.est.held ∧
    t.pwr.held = s.pwr.held ∧
    t.pins.held = s.pins.held := by
  have e := Host.Outcome.next.inj h
  subst e
  dsimp only
  repeat' split
  all_goals simp [id @bootBegin_keep, id @emit_keep, id @imgAbandon_keep, id @nvAbandon_keep, id @phaseStart_keep,
      id @settle_keep, id @winDiscard_keep]

end Sys2Proof.Machine
end

