-- ==== Sys2Proof/Laws/KeepFrame.lean ====
section
/-! SUPPORT. What the operations of Machine/Frame.lean leave unchanged. -/

namespace Sys2Proof.Machine

theorem gridStep_keep (p : Nat) (t : Nat) (s : State) :
    (gridStep p t s).img = s.img ∧
    (gridStep p t s).cfg = s.cfg ∧
    (gridStep p t s).ring = s.ring ∧
    (gridStep p t s).acq = s.acq ∧
    (gridStep p t s).cur = s.cur ∧
    (gridStep p t s).husk = s.husk ∧
    (gridStep p t s).drv = s.drv ∧
    (gridStep p t s).krn = s.krn ∧
    (gridStep p t s).est = s.est ∧
    (gridStep p t s).win = s.win ∧
    (gridStep p t s).pairs = s.pairs ∧
    (gridStep p t s).therm = s.therm ∧
    (gridStep p t s).nv = s.nv ∧
    (gridStep p t s).tally = s.tally ∧
    (gridStep p t s).host = s.host ∧
    (gridStep p t s).sec = s.sec ∧
    (gridStep p t s).pwr = s.pwr ∧
    (gridStep p t s).bist = s.bist ∧
    (gridStep p t s).pins = s.pins ∧
    (gridStep p t s).freeIx = s.freeIx ∧
    (gridStep p t s).pending = s.pending ∧
    (gridStep p t s).recd.held = s.recd.held ∧
    (gridStep p t s).evt.held = s.evt.held := by
  unfold gridStep
  repeat' split
  all_goals simp [id @emit_keep, id @tnsTo_keep]

theorem throttleActs_keep (s : State) :
    (throttleActs s).sys = s.sys ∧
    (throttleActs s).img = s.img ∧
    (throttleActs s).cfg = s.cfg ∧
    (throttleActs s).ring = s.ring ∧
    (throttleActs s).acq = s.acq ∧
    (throttleActs s).cur = s.cur ∧
    (throttleActs s).husk = s.husk ∧
    (throttleActs s).drv = s.drv ∧
    (throttleActs s).krn = s.krn ∧
    (throttleActs s).est = s.est ∧
    (throttleActs s).win = s.win ∧
    (throttleActs s).pairs = s.pairs ∧
    (throttleActs s).time = s.time ∧
    (throttleActs s).nv = s.nv ∧
    (throttleActs s).ledg = s.ledg ∧
    (throttleActs s).tally = s.tally ∧
    (throttleActs s).host = s.host ∧
    (throttleActs s).sec = s.sec ∧
    (throttleActs s).pwr = s.pwr ∧
    (throttleActs s).bist = s.bist ∧
    (throttleActs s).pins = s.pins ∧
    (throttleActs s).freeIx = s.freeIx ∧
    (throttleActs s).pending = s.pending ∧
    (throttleActs s).recd.held = s.recd.held ∧
    (throttleActs s).evt.held = s.evt.held := by
  unfold throttleActs
  repeat' split
  all_goals simp [id @throttleEnter_keep]

theorem modeRequests_keep (s : State) :
    (modeRequests s).img = s.img ∧
    (modeRequests s).cfg = s.cfg ∧
    (modeRequests s).ring = s.ring ∧
    (modeRequests s).acq = s.acq ∧
    (modeRequests s).cur = s.cur ∧
    (modeRequests s).husk = s.husk ∧
    (modeRequests s).drv = s.drv ∧
    (modeRequests s).krn = s.krn ∧
    (modeRequests s).est = s.est ∧
    (modeRequests s).win = s.win ∧
    (modeRequests s).time = s.time ∧
    (modeRequests s).therm = s.therm ∧
    (modeRequests s).nv = s.nv ∧
    (modeRequests s).ledg = s.ledg ∧
    (modeRequests s).tally = s.tally ∧
    (modeRequests s).recd = s.recd ∧
    (modeRequests s).host = s.host ∧
    (modeRequests s).sec = s.sec ∧
    (modeRequests s).pwr = s.pwr ∧
    (modeRequests s).bist = s.bist ∧
    (modeRequests s).evt = s.evt ∧
    (modeRequests s).pins = s.pins ∧
    (modeRequests s).freeIx = s.freeIx ∧
    (modeRequests s).pending = s.pending := by
  simp only [modeRequests]
  repeat' split
  all_goals simp

theorem acqCatchUp_keep (r : Nat) (s : State) :
    (acqCatchUp r s).sys = s.sys ∧
    (acqCatchUp r s).img = s.img ∧
    (acqCatchUp r s).cfg = s.cfg ∧
    (acqCatchUp r s).acq = s.acq ∧
    (acqCatchUp r s).cur = s.cur ∧
    (acqCatchUp r s).husk = s.husk ∧
    (acqCatchUp r s).drv = s.drv ∧
    (acqCatchUp r s).krn = s.krn ∧
    (acqCatchUp r s).est = s.est ∧
    (acqCatchUp r s).win = s.win ∧
    (acqCatchUp r s).pairs = s.pairs ∧
    (acqCatchUp r s).time = s.time ∧
    (acqCatchUp r s).therm = s.therm ∧
    (acqCatchUp r s).nv = s.nv ∧
    (acqCatchUp r s).ledg = s.ledg ∧
    (acqCatchUp r s).tally = s.tally ∧
    (acqCatchUp r s).recd = s.recd ∧
    (acqCatchUp r s).host = s.host ∧
    (acqCatchUp r s).sec = s.sec ∧
    (acqCatchUp r s).pwr = s.pwr ∧
    (acqCatchUp r s).bist = s.bist ∧
    (acqCatchUp r s).evt = s.evt ∧
    (acqCatchUp r s).pins = s.pins ∧
    (acqCatchUp r s).freeIx = s.freeIx ∧
    (acqCatchUp r s).pending = s.pending := by
  simp [acqCatchUp, id @acqWrite_keep]

theorem nodesBoundary_keep (changed : Bool) (s : State) :
    (nodesBoundary changed s).sys = s.sys ∧
    (nodesBoundary changed s).img = s.img ∧
    (nodesBoundary changed s).cfg = s.cfg ∧
    (nodesBoundary changed s).acq = s.acq ∧
    (nodesBoundary changed s).cur = s.cur ∧
    (nodesBoundary changed s).husk = s.husk ∧
    (nodesBoundary changed s).drv = s.drv ∧
    (nodesBoundary changed s).krn = s.krn ∧
    (nodesBoundary changed s).est = s.est ∧
    (nodesBoundary changed s).win = s.win ∧
    (nodesBoundary changed s).pairs = s.pairs ∧
    (nodesBoundary changed s).time = s.time ∧
    (nodesBoundary changed s).therm = s.therm ∧
    (nodesBoundary changed s).nv = s.nv ∧
    (nodesBoundary changed s).ledg = s.ledg ∧
    (nodesBoundary changed s).tally = s.tally ∧
    (nodesBoundary changed s).recd = s.recd ∧
    (nodesBoundary changed s).host = s.host ∧
    (nodesBoundary changed s).sec = s.sec ∧
    (nodesBoundary changed s).pwr = s.pwr ∧
    (nodesBoundary changed s).bist = s.bist ∧
    (nodesBoundary changed s).evt = s.evt ∧
    (nodesBoundary changed s).pins = s.pins ∧
    (nodesBoundary changed s).freeIx = s.freeIx ∧
    (nodesBoundary changed s).pending = s.pending := by
  simp [nodesBoundary, id @acqCatchUp_keep, id @modRing_keep, id @reach_keep]

theorem modeTake_keep (s : State) :
    (modeTake s).img = s.img ∧
    (modeTake s).cfg = s.cfg ∧
    (modeTake s).ring = s.ring ∧
    (modeTake s).acq = s.acq ∧
    (modeTake s).cur = s.cur ∧
    (modeTake s).husk = s.husk ∧
    (modeTake s).drv = s.drv ∧
    (modeTake s).krn = s.krn ∧
    (modeTake s).est = s.est ∧
    (modeTake s).win = s.win ∧
    (modeTake s).pairs = s.pairs ∧
    (modeTake s).time = s.time ∧
    (modeTake s).therm = s.therm ∧
    (modeTake s).nv = s.nv ∧
    (modeTake s).ledg = s.ledg ∧
    (modeTake s).tally = s.tally ∧
    (modeTake s).host = s.host ∧
    (modeTake s).sec = s.sec ∧
    (modeTake s).pwr = s.pwr ∧
    (modeTake s).bist = s.bist ∧
    (modeTake s).pins = s.pins ∧
    (modeTake s).freeIx = s.freeIx ∧
    (modeTake s).pending = s.pending ∧
    (modeTake s).recd.held = s.recd.held ∧
    (modeTake s).evt.held = s.evt.held := by
  simp [modeTake, id @emitIf_keep]

theorem vcoreBoundary_keep (s : State) :
    (vcoreBoundary s).sys = s.sys ∧
    (vcoreBoundary s).img = s.img ∧
    (vcoreBoundary s).cfg = s.cfg ∧
    (vcoreBoundary s).ring = s.ring ∧
    (vcoreBoundary s).acq = s.acq ∧
    (vcoreBoundary s).cur = s.cur ∧
    (vcoreBoundary s).husk = s.husk ∧
    (vcoreBoundary s).drv = s.drv ∧
    (vcoreBoundary s).krn = s.krn ∧
    (vcoreBoundary s).est = s.est ∧
    (vcoreBoundary s).win = s.win ∧
    (vcoreBoundary s).pairs = s.pairs ∧
    (vcoreBoundary s).time = s.time ∧
    (vcoreBoundary s).therm = s.therm ∧
    (vcoreBoundary s).nv = s.nv ∧
    (vcoreBoundary s).ledg = s.ledg ∧
    (vcoreBoundary s).tally = s.tally ∧
    (vcoreBoundary s).recd = s.recd ∧
    (vcoreBoundary s).host = s.host ∧
    (vcoreBoundary s).sec = s.sec ∧
    (vcoreBoundary s).bist = s.bist ∧
    (vcoreBoundary s).evt = s.evt ∧
    (vcoreBoundary s).pins = s.pins ∧
    (vcoreBoundary s).freeIx = s.freeIx ∧
    (vcoreBoundary s).pending = s.pending := by
  simp [vcoreBoundary]

theorem unitsBoundary_keep (s : State) :
    (unitsBoundary s).img = s.img ∧
    (unitsBoundary s).cfg = s.cfg ∧
    (unitsBoundary s).acq = s.acq ∧
    (unitsBoundary s).cur = s.cur ∧
    (unitsBoundary s).win = s.win ∧
    (unitsBoundary s).time = s.time ∧
    (unitsBoundary s).therm = s.therm ∧
    (unitsBoundary s).nv = s.nv ∧
    (unitsBoundary s).ledg = s.ledg ∧
    (unitsBoundary s).tally = s.tally ∧
    (unitsBoundary s).host = s.host ∧
    (unitsBoundary s).sec = s.sec ∧
    (unitsBoundary s).bist = s.bist ∧
    (unitsBoundary s).freeIx = s.freeIx ∧
    (unitsBoundary s).pending = s.pending ∧
    (unitsBoundary s).sys.held = s.sys.held ∧
    (unitsBoundary s).husk.held = s.husk.held ∧
    (unitsBoundary s).drv.held = s.drv.held ∧
    (unitsBoundary s).recd.held = s.recd.held ∧
    (unitsBoundary s).est.held = s.est.held ∧
    (unitsBoundary s).pwr.held = s.pwr.held ∧
    (unitsBoundary s).evt.held = s.evt.held ∧
    (unitsBoundary s).pins.held = s.pins.held := by
  simp only [unitsBoundary]
  repeat' split
  all_goals simp [id @dbgEnd_keep, id @fillRule_keep, id @settle_keep, id @unverSplit_keep]

theorem acqChanged_keep (s : State) :
    (acqChanged s).sys = s.sys ∧
    (acqChanged s).img = s.img ∧
    (acqChanged s).cfg = s.cfg ∧
    (acqChanged s).ring = s.ring ∧
    (acqChanged s).acq = s.acq ∧
    (acqChanged s).cur = s.cur ∧
    (acqChanged s).husk = s.husk ∧
    (acqChanged s).drv = s.drv ∧
    (acqChanged s).krn = s.krn ∧
    (acqChanged s).est = s.est ∧
    (acqChanged s).time = s.time ∧
    (acqChanged s).therm = s.therm ∧
    (acqChanged s).nv = s.nv ∧
    (acqChanged s).ledg = s.ledg ∧
    (acqChanged s).tally = s.tally ∧
    (acqChanged s).host = s.host ∧
    (acqChanged s).sec = s.sec ∧
    (acqChanged s).pwr = s.pwr ∧
    (acqChanged s).bist = s.bist ∧
    (acqChanged s).pins = s.pins ∧
    (acqChanged s).freeIx = s.freeIx ∧
    (acqChanged s).pending = s.pending ∧
    (acqChanged s).recd.held = s.recd.held ∧
    (acqChanged s).evt.held = s.evt.held := by
  simp only [acqChanged]
  repeat' split
  all_goals simp [id @evenRule_keep, id @winEndAll_keep]

theorem coupWanted_keep (old : Word) (s : State) :
    (coupWanted old s).sys = s.sys ∧
    (coupWanted old s).img = s.img ∧
    (coupWanted old s).cfg = s.cfg ∧
    (coupWanted old s).acq = s.acq ∧
    (coupWanted old s).cur = s.cur ∧
    (coupWanted old s).husk = s.husk ∧
    (coupWanted old s).drv = s.drv ∧
    (coupWanted old s).krn = s.krn ∧
    (coupWanted old s).est = s.est ∧
    (coupWanted old s).win = s.win ∧
    (coupWanted old s).pairs = s.pairs ∧
    (coupWanted old s).time = s.time ∧
    (coupWanted old s).therm = s.therm ∧
    (coupWanted old s).nv = s.nv ∧
    (coupWanted old s).ledg = s.ledg ∧
    (coupWanted old s).tally = s.tally ∧
    (coupWanted old s).recd = s.recd ∧
    (coupWanted old s).host = s.host ∧
    (coupWanted old s).sec = s.sec ∧
    (coupWanted old s).pwr = s.pwr ∧
    (coupWanted old s).bist = s.bist ∧
    (coupWanted old s).evt = s.evt ∧
    (coupWanted old s).pins = s.pins ∧
    (coupWanted old s).freeIx = s.freeIx ∧
    (coupWanted old s).pending = s.pending := by
  simp [coupWanted, id @acqCoupId_keep]

theorem modesBoundary_keep (s0 : State) :
    (modesBoundary s0).img = s0.img ∧
    (modesBoundary s0).cfg = s0.cfg ∧
    (modesBoundary s0).acq = s0.acq ∧
    (modesBoundary s0).cur = s0.cur ∧
    (modesBoundary s0).husk = s0.husk ∧
    (modesBoundary s0).drv = s0.drv ∧
    (modesBoundary s0).krn = s0.krn ∧
    (modesBoundary s0).est = s0.est ∧
    (modesBoundary s0).time = s0.time ∧
    (modesBoundary s0).therm = s0.therm ∧
    (modesBoundary s0).nv = s0.nv ∧
    (modesBoundary s0).ledg = s0.ledg ∧
    (modesBoundary s0).tally = s0.tally ∧
    (modesBoundary s0).host = s0.host ∧
    (modesBoundary s0).sec = s0.sec ∧
    (modesBoundary s0).bist = s0.bist ∧
    (modesBoundary s0).pins = s0.pins ∧
    (modesBoundary s0).freeIx = s0.freeIx ∧
    (modesBoundary s0).pending = s0.pending ∧
    (modesBoundary s0).recd.held = s0.recd.held ∧
    (modesBoundary s0).evt.held = s0.evt.held := by
  simp only [modesBoundary]
  repeat' split
  all_goals simp [id @acqChanged_keep, id @coupWanted_keep, id @modeTake_keep, id @nodesBoundary_keep,
      id @vcoreBoundary_keep, id @winDiscard_keep]

theorem execFrameBoundary_keep  {s t : State} (h : execFrameBoundary s = .next t) :
    t.img = s.img ∧
    t.cfg = s.cfg ∧
    t.acq = s.acq ∧
    t.nv = s.nv ∧
    t.tally = s.tally ∧
    t.host = s.host ∧
    t.sec = s.sec ∧
    t.bist = s.bist ∧
    t.freeIx = s.freeIx ∧
    t.pending = s.pending ∧
    t.husk.held = s.husk.held ∧
    t.drv.held = s.drv.held ∧
    t.recd.held = s.recd.held ∧
    t.est.held = s.est.held ∧
    t.pins.held = s.pins.held := by
  have e := Host.Outcome.next.inj h
  subst e
  dsimp only
  repeat' split
  all_goals simp [id @curBoundary_keep, id @frmNext_keep, id @gridStep_keep, id @ledgFrame_keep,
      id @modeRequests_keep, id @modesBoundary_keep, id @settle_keep, id @stopAcq_keep, id @throttleActs_keep,
          id @unitsBoundary_keep]

theorem auxTake_keep (aux : List Nat) (s : State) :
    (auxTake aux s).sys = s.sys ∧
    (auxTake aux s).img = s.img ∧
    (auxTake aux s).cfg = s.cfg ∧
    (auxTake aux s).ring = s.ring ∧
    (auxTake aux s).acq = s.acq ∧
    (auxTake aux s).husk = s.husk ∧
    (auxTake aux s).drv = s.drv ∧
    (auxTake aux s).krn = s.krn ∧
    (auxTake aux s).est = s.est ∧
    (auxTake aux s).win = s.win ∧
    (auxTake aux s).pairs = s.pairs ∧
    (auxTake aux s).time = s.time ∧
    (auxTake aux s).therm = s.therm ∧
    (auxTake aux s).nv = s.nv ∧
    (auxTake aux s).ledg = s.ledg ∧
    (auxTake aux s).tally = s.tally ∧
    (auxTake aux s).recd = s.recd ∧
    (auxTake aux s).host = s.host ∧
    (auxTake aux s).sec = s.sec ∧
    (auxTake aux s).pwr = s.pwr ∧
    (auxTake aux s).bist = s.bist ∧
    (auxTake aux s).evt = s.evt ∧
    (auxTake aux s).pins = s.pins ∧
    (auxTake aux s).freeIx = s.freeIx ∧
    (auxTake aux s).pending = s.pending := by
  simp [auxTake]

theorem frameCompare_keep (s : State) :
    (frameCompare s).sys = s.sys ∧
    (frameCompare s).img = s.img ∧
    (frameCompare s).cfg = s.cfg ∧
    (frameCompare s).ring = s.ring ∧
    (frameCompare s).acq = s.acq ∧
    (frameCompare s).cur = s.cur ∧
    (frameCompare s).drv = s.drv ∧
    (frameCompare s).krn = s.krn ∧
    (frameCompare s).est = s.est ∧
    (frameCompare s).win = s.win ∧
    (frameCompare s).pairs = s.pairs ∧
    (frameCompare s).time = s.time ∧
    (frameCompare s).therm = s.therm ∧
    (frameCompare s).nv = s.nv ∧
    (frameCompare s).ledg = s.ledg ∧
    (frameCompare s).tally = s.tally ∧
    (frameCompare s).recd = s.recd ∧
    (frameCompare s).host = s.host ∧
    (frameCompare s).sec = s.sec ∧
    (frameCompare s).pwr = s.pwr ∧
    (frameCompare s).bist = s.bist ∧
    (frameCompare s).evt = s.evt ∧
    (frameCompare s).pins = s.pins ∧
    (frameCompare s).freeIx = s.freeIx ∧
    (frameCompare s).pending = s.pending ∧
    (frameCompare s).husk.held = s.husk.held := by
  simp [frameCompare, id @modBoth_keep]

theorem chargeTaken_keep (s : State) :
    (chargeTaken s).sys = s.sys ∧
    (chargeTaken s).img = s.img ∧
    (chargeTaken s).cfg = s.cfg ∧
    (chargeTaken s).ring = s.ring ∧
    (chargeTaken s).acq = s.acq ∧
    (chargeTaken s).husk = s.husk ∧
    (chargeTaken s).drv = s.drv ∧
    (chargeTaken s).krn = s.krn ∧
    (chargeTaken s).est = s.est ∧
    (chargeTaken s).win = s.win ∧
    (chargeTaken s).pairs = s.pairs ∧
    (chargeTaken s).time = s.time ∧
    (chargeTaken s).therm = s.therm ∧
    (chargeTaken s).nv = s.nv ∧
    (chargeTaken s).ledg = s.ledg ∧
    (chargeTaken s).tally = s.tally ∧
    (chargeTaken s).recd = s.recd ∧
    (chargeTaken s).host = s.host ∧
    (chargeTaken s).sec = s.sec ∧
    (chargeTaken s).pwr = s.pwr ∧
    (chargeTaken s).bist = s.bist ∧
    (chargeTaken s).evt = s.evt ∧
    (chargeTaken s).pins = s.pins ∧
    (chargeTaken s).freeIx = s.freeIx ∧
    (chargeTaken s).pending = s.pending := by
  simp [chargeTaken, id @modCurStr_keep]

theorem execAcquisitionCutOff_keep {aux : List Nat} {s t : State} (h : execAcquisitionCutOff aux s = .next t) :
    t.img = s.img ∧
    t.cfg = s.cfg ∧
    t.therm = s.therm ∧
    t.nv = s.nv ∧
    t.tally = s.tally ∧
    t.host = s.host ∧
    t.sec = s.sec ∧
    t.bist = s.bist ∧
    t.freeIx = s.freeIx ∧
    t.pending = s.pending ∧
    t.drv.held = s.drv.held ∧
    t.recd.held = s.recd.held ∧
    t.pwr.held = s.pwr.held ∧
    t.evt.held = s.evt.held ∧
    t.pins.held = s.pins.held := by
  have e := Host.Outcome.next.inj h
  subst e
  dsimp only
  repeat' split
  all_goals simp [id @acqClose_keep, id @auxTake_keep, id @chargeTaken_keep, id @crossCheck_keep, id @curClose_keep,
      id @estCutOff_keep, id @frameCompare_keep, id @krnCutOff_keep, id @ledgVsum_keep, id @monitorsClose_keep,
          id @settle_keep, id @tnsTo_keep, id @winCutOff_keep]

theorem kernelMargin_keep (slackNs : Nat) (s : State) :
    (kernelMargin slackNs s).sys = s.sys ∧
    (kernelMargin slackNs s).img = s.img ∧
    (kernelMargin slackNs s).cfg = s.cfg ∧
    (kernelMargin slackNs s).ring = s.ring ∧
    (kernelMargin slackNs s).acq = s.acq ∧
    (kernelMargin slackNs s).cur = s.cur ∧
    (kernelMargin slackNs s).husk = s.husk ∧
    (kernelMargin slackNs s).drv = s.drv ∧
    (kernelMargin slackNs s).krn = s.krn ∧
    (kernelMargin slackNs s).est = s.est ∧
    (kernelMargin slackNs s).win = s.win ∧
    (kernelMargin slackNs s).pairs = s.pairs ∧
    (kernelMargin slackNs s).time = s.time ∧
    (kernelMargin slackNs s).therm = s.therm ∧
    (kernelMargin slackNs s).nv = s.nv ∧
    (kernelMargin slackNs s).ledg = s.ledg ∧
    (kernelMargin slackNs s).tally = s.tally ∧
    (kernelMargin slackNs s).recd = s.recd ∧
    (kernelMargin slackNs s).host = s.host ∧
    (kernelMargin slackNs s).sec = s.sec ∧
    (kernelMargin slackNs s).bist = s.bist ∧
    (kernelMargin slackNs s).evt = s.evt ∧
    (kernelMargin slackNs s).pins = s.pins ∧
    (kernelMargin slackNs s).freeIx = s.freeIx ∧
    (kernelMargin slackNs s).pending = s.pending := by
  simp [kernelMargin]

theorem execCommitPoint_keep {slackNs : Nat} {s t : State} (h : execCommitPoint slackNs s = .next t) :
    t.img = s.img ∧
    t.cfg = s.cfg ∧
    t.acq = s.acq ∧
    t.cur = s.cur ∧
    t.time = s.time ∧
    t.therm = s.therm ∧
    t.ledg = s.ledg ∧
    t.host = s.host ∧
    t.sec = s.sec ∧
    t.bist = s.bist ∧
    t.freeIx = s.freeIx ∧
    t.pending = s.pending ∧
    t.husk.held = s.husk.held ∧
    t.drv.held = s.drv.held ∧
    t.recd.held = s.recd.held ∧
    t.evt.held = s.evt.held ∧
    t.pins.held = s.pins.held := by
  have e := Host.Outcome.next.inj h
  subst e
  dsimp only
  repeat' split
  all_goals simp [id @emitIf_keep, id @estCommit_keep, id @kernelMargin_keep, id @krnCommit_keep, id @settle_keep,
      id @tallyUpdate_keep, id @unitsBoundary_keep, id @winCommit_keep]

end Sys2Proof.Machine
end

