-- ==== Sys2Proof/Laws/KeepRegSys.lean ====
section
/-! SUPPORT. What the operations of Machine/RegSys.lean leave unchanged. -/

namespace Sys2Proof.Machine

theorem putSys_keep (off : Nat) (v : Word) (s : State) :
    (putSys off v s).img = s.img ∧
    (putSys off v s).cfg = s.cfg ∧
    (putSys off v s).acq = s.acq ∧
    (putSys off v s).cur = s.cur ∧
    (putSys off v s).husk = s.husk ∧
    (putSys off v s).drv = s.drv ∧
    (putSys off v s).krn = s.krn ∧
    (putSys off v s).est = s.est ∧
    (putSys off v s).win = s.win ∧
    (putSys off v s).pairs = s.pairs ∧
    (putSys off v s).time = s.time ∧
    (putSys off v s).therm = s.therm ∧
    (putSys off v s).nv = s.nv ∧
    (putSys off v s).ledg = s.ledg ∧
    (putSys off v s).tally = s.tally ∧
    (putSys off v s).recd = s.recd ∧
    (putSys off v s).host = s.host ∧
    (putSys off v s).sec = s.sec ∧
    (putSys off v s).pwr = s.pwr ∧
    (putSys off v s).bist = s.bist ∧
    (putSys off v s).evt = s.evt ∧
    (putSys off v s).pins = s.pins ∧
    (putSys off v s).freeIx = s.freeIx ∧
    (putSys off v s).pending = s.pending := by
  simp [putSys, id @modeAccept_keep]

theorem putEvt_keep (off : Nat) (v : Word) (s : State) :
    (putEvt off v s).sys = s.sys ∧
    (putEvt off v s).img = s.img ∧
    (putEvt off v s).cfg = s.cfg ∧
    (putEvt off v s).ring = s.ring ∧
    (putEvt off v s).acq = s.acq ∧
    (putEvt off v s).cur = s.cur ∧
    (putEvt off v s).husk = s.husk ∧
    (putEvt off v s).drv = s.drv ∧
    (putEvt off v s).krn = s.krn ∧
    (putEvt off v s).est = s.est ∧
    (putEvt off v s).win = s.win ∧
    (putEvt off v s).pairs = s.pairs ∧
    (putEvt off v s).time = s.time ∧
    (putEvt off v s).therm = s.therm ∧
    (putEvt off v s).nv = s.nv ∧
    (putEvt off v s).ledg = s.ledg ∧
    (putEvt off v s).tally = s.tally ∧
    (putEvt off v s).recd = s.recd ∧
    (putEvt off v s).host = s.host ∧
    (putEvt off v s).sec = s.sec ∧
    (putEvt off v s).pwr = s.pwr ∧
    (putEvt off v s).bist = s.bist ∧
    (putEvt off v s).pins = s.pins ∧
    (putEvt off v s).freeIx = s.freeIx ∧
    (putEvt off v s).pending = s.pending := by
  unfold putEvt
  repeat' split
  all_goals simp

theorem putPwr_keep (q : Req) (off : Nat) (v : Word) (s : State) :
    (putPwr q off v s).freeIx = s.freeIx ∧
    (putPwr q off v s).pending = s.pending ∧
    (putPwr q off v s).sec.mid = s.sec.mid ∧
    (putPwr q off v s).sec.devKey = s.sec.devKey := by
  simp [putPwr, id @pwrCfgPut_keep, id @pwrCtrlPut_keep]

theorem putTime_keep (off : Nat) (v : Word) (s : State) :
    (putTime off v s).sys = s.sys ∧
    (putTime off v s).img = s.img ∧
    (putTime off v s).cfg = s.cfg ∧
    (putTime off v s).ring = s.ring ∧
    (putTime off v s).acq = s.acq ∧
    (putTime off v s).cur = s.cur ∧
    (putTime off v s).husk = s.husk ∧
    (putTime off v s).drv = s.drv ∧
    (putTime off v s).krn = s.krn ∧
    (putTime off v s).est = s.est ∧
    (putTime off v s).win = s.win ∧
    (putTime off v s).pairs = s.pairs ∧
    (putTime off v s).therm = s.therm ∧
    (putTime off v s).nv = s.nv ∧
    (putTime off v s).ledg = s.ledg ∧
    (putTime off v s).tally = s.tally ∧
    (putTime off v s).host = s.host ∧
    (putTime off v s).sec = s.sec ∧
    (putTime off v s).pwr = s.pwr ∧
    (putTime off v s).bist = s.bist ∧
    (putTime off v s).pins = s.pins ∧
    (putTime off v s).freeIx = s.freeIx ∧
    (putTime off v s).pending = s.pending ∧
    (putTime off v s).recd.held = s.recd.held ∧
    (putTime off v s).evt.held = s.evt.held := by
  unfold putTime
  repeat' split
  all_goals simp [id @timeCtrlWrite_keep, id @wallSet_keep]

theorem putTherm_keep (off : Nat) (v : Word) (s : State) :
    (putTherm off v s).sys = s.sys ∧
    (putTherm off v s).img = s.img ∧
    (putTherm off v s).cfg = s.cfg ∧
    (putTherm off v s).ring = s.ring ∧
    (putTherm off v s).acq = s.acq ∧
    (putTherm off v s).cur = s.cur ∧
    (putTherm off v s).husk = s.husk ∧
    (putTherm off v s).drv = s.drv ∧
    (putTherm off v s).krn = s.krn ∧
    (putTherm off v s).est = s.est ∧
    (putTherm off v s).win = s.win ∧
    (putTherm off v s).pairs = s.pairs ∧
    (putTherm off v s).time = s.time ∧
    (putTherm off v s).therm = s.therm ∧
    (putTherm off v s).ledg = s.ledg ∧
    (putTherm off v s).tally = s.tally ∧
    (putTherm off v s).host = s.host ∧
    (putTherm off v s).sec = s.sec ∧
    (putTherm off v s).pwr = s.pwr ∧
    (putTherm off v s).bist = s.bist ∧
    (putTherm off v s).pins = s.pins ∧
    (putTherm off v s).freeIx = s.freeIx ∧
    (putTherm off v s).pending = s.pending ∧
    (putTherm off v s).recd.held = s.recd.held ∧
    (putTherm off v s).evt.held = s.evt.held := by
  unfold putTherm
  repeat' split
  all_goals simp [id @holdClear_keep]

theorem putImg_keep (off : Nat) (v : Word) (s : State) :
    (putImg off v s).sys = s.sys ∧
    (putImg off v s).cfg = s.cfg ∧
    (putImg off v s).ring = s.ring ∧
    (putImg off v s).acq = s.acq ∧
    (putImg off v s).cur = s.cur ∧
    (putImg off v s).husk = s.husk ∧
    (putImg off v s).drv = s.drv ∧
    (putImg off v s).krn = s.krn ∧
    (putImg off v s).est = s.est ∧
    (putImg off v s).win = s.win ∧
    (putImg off v s).pairs = s.pairs ∧
    (putImg off v s).time = s.time ∧
    (putImg off v s).therm = s.therm ∧
    (putImg off v s).nv = s.nv ∧
    (putImg off v s).ledg = s.ledg ∧
    (putImg off v s).tally = s.tally ∧
    (putImg off v s).host = s.host ∧
    (putImg off v s).sec = s.sec ∧
    (putImg off v s).pwr = s.pwr ∧
    (putImg off v s).bist = s.bist ∧
    (putImg off v s).pins = s.pins ∧
    (putImg off v s).freeIx = s.freeIx ∧
    (putImg off v s).pending = s.pending ∧
    (putImg off v s).recd.held = s.recd.held ∧
    (putImg off v s).evt.held = s.evt.held := by
  unfold putImg
  repeat' split
  all_goals simp [id @imgAbortStage_keep, id @imgCancel_keep]

end Sys2Proof.Machine
end

