-- ==== Sys2Proof/Laws/KeepRegRing.lean ====
section
/-! SUPPORT. What the operations of Machine/RegRing.lean leave unchanged. -/

namespace Sys2Proof.Machine

theorem putRingCtrl_keep (r : Nat) (v : Word) (s : State) :
    (putRingCtrl r v s).img = s.img ∧
    (putRingCtrl r v s).cfg = s.cfg ∧
    (putRingCtrl r v s).acq = s.acq ∧
    (putRingCtrl r v s).cur = s.cur ∧
    (putRingCtrl r v s).krn = s.krn ∧
    (putRingCtrl r v s).win = s.win ∧
    (putRingCtrl r v s).pairs = s.pairs ∧
    (putRingCtrl r v s).time = s.time ∧
    (putRingCtrl r v s).therm = s.therm ∧
    (putRingCtrl r v s).nv = s.nv ∧
    (putRingCtrl r v s).ledg = s.ledg ∧
    (putRingCtrl r v s).tally = s.tally ∧
    (putRingCtrl r v s).host = s.host ∧
    (putRingCtrl r v s).sec = s.sec ∧
    (putRingCtrl r v s).bist = s.bist ∧
    (putRingCtrl r v s).freeIx = s.freeIx ∧
    (putRingCtrl r v s).pending = s.pending ∧
    (putRingCtrl r v s).sys.held = s.sys.held ∧
    (putRingCtrl r v s).husk.held = s.husk.held ∧
    (putRingCtrl r v s).drv.held = s.drv.held ∧
    (putRingCtrl r v s).recd.held = s.recd.held ∧
    (putRingCtrl r v s).est.held = s.est.held ∧
    (putRingCtrl r v s).pwr.held = s.pwr.held ∧
    (putRingCtrl r v s).evt.held = s.evt.held ∧
    (putRingCtrl r v s).pins.held = s.pins.held := by
  simp only [putRingCtrl]
  repeat' split
  all_goals simp [id @modRing_keep, id @ringEnumRequest_keep, id @ringMeasRequest_keep]

theorem putRing_keep (r : Nat) (off : Nat) (v : Word) (s : State) :
    (putRing r off v s).img = s.img ∧
    (putRing r off v s).cfg = s.cfg ∧
    (putRing r off v s).acq = s.acq ∧
    (putRing r off v s).cur = s.cur ∧
    (putRing r off v s).krn = s.krn ∧
    (putRing r off v s).win = s.win ∧
    (putRing r off v s).pairs = s.pairs ∧
    (putRing r off v s).time = s.time ∧
    (putRing r off v s).therm = s.therm ∧
    (putRing r off v s).nv = s.nv ∧
    (putRing r off v s).ledg = s.ledg ∧
    (putRing r off v s).tally = s.tally ∧
    (putRing r off v s).host = s.host ∧
    (putRing r off v s).sec = s.sec ∧
    (putRing r off v s).bist = s.bist ∧
    (putRing r off v s).freeIx = s.freeIx ∧
    (putRing r off v s).pending = s.pending ∧
    (putRing r off v s).sys.held = s.sys.held ∧
    (putRing r off v s).husk.held = s.husk.held ∧
    (putRing r off v s).drv.held = s.drv.held ∧
    (putRing r off v s).recd.held = s.recd.held ∧
    (putRing r off v s).est.held = s.est.held ∧
    (putRing r off v s).pwr.held = s.pwr.held ∧
    (putRing r off v s).evt.held = s.evt.held ∧
    (putRing r off v s).pins.held = s.pins.held := by
  unfold putRing
  repeat' split
  all_goals simp [id @modRing_keep, id @putRingCtrl_keep]

theorem putAcqCtrl_keep (v : Word) (s : State) :
    (putAcqCtrl v s).sys = s.sys ∧
    (putAcqCtrl v s).img = s.img ∧
    (putAcqCtrl v s).cfg = s.cfg ∧
    (putAcqCtrl v s).cur = s.cur ∧
    (putAcqCtrl v s).husk = s.husk ∧
    (putAcqCtrl v s).drv = s.drv ∧
    (putAcqCtrl v s).krn = s.krn ∧
    (putAcqCtrl v s).est = s.est ∧
    (putAcqCtrl v s).win = s.win ∧
    (putAcqCtrl v s).pairs = s.pairs ∧
    (putAcqCtrl v s).time = s.time ∧
    (putAcqCtrl v s).therm = s.therm ∧
    (putAcqCtrl v s).nv = s.nv ∧
    (putAcqCtrl v s).ledg = s.ledg ∧
    (putAcqCtrl v s).tally = s.tally ∧
    (putAcqCtrl v s).recd = s.recd ∧
    (putAcqCtrl v s).host = s.host ∧
    (putAcqCtrl v s).sec = s.sec ∧
    (putAcqCtrl v s).pwr = s.pwr ∧
    (putAcqCtrl v s).bist = s.bist ∧
    (putAcqCtrl v s).evt = s.evt ∧
    (putAcqCtrl v s).pins = s.pins ∧
    (putAcqCtrl v s).freeIx = s.freeIx ∧
    (putAcqCtrl v s).pending = s.pending := by
  simp [putAcqCtrl, id @acqCoupId_keep, id @acqOwNow_keep]

theorem putAcq_keep (p : Port) (off : Nat) (v : Word) (s : State) :
    (putAcq p off v s).sys = s.sys ∧
    (putAcq p off v s).img = s.img ∧
    (putAcq p off v s).cfg = s.cfg ∧
    (putAcq p off v s).cur = s.cur ∧
    (putAcq p off v s).husk = s.husk ∧
    (putAcq p off v s).drv = s.drv ∧
    (putAcq p off v s).krn = s.krn ∧
    (putAcq p off v s).est = s.est ∧
    (putAcq p off v s).win = s.win ∧
    (putAcq p off v s).pairs = s.pairs ∧
    (putAcq p off v s).time = s.time ∧
    (putAcq p off v s).therm = s.therm ∧
    (putAcq p off v s).nv = s.nv ∧
    (putAcq p off v s).ledg = s.ledg ∧
    (putAcq p off v s).tally = s.tally ∧
    (putAcq p off v s).recd = s.recd ∧
    (putAcq p off v s).sec = s.sec ∧
    (putAcq p off v s).pwr = s.pwr ∧
    (putAcq p off v s).bist = s.bist ∧
    (putAcq p off v s).evt = s.evt ∧
    (putAcq p off v s).pins = s.pins ∧
    (putAcq p off v s).freeIx = s.freeIx ∧
    (putAcq p off v s).pending = s.pending := by
  simp [putAcq, id @modPort_keep, id @putAcqCtrl_keep]

theorem putCur_keep (off : Nat) (v : Word) (s : State) :
    (putCur off v s).sys = s.sys ∧
    (putCur off v s).img = s.img ∧
    (putCur off v s).cfg = s.cfg ∧
    (putCur off v s).ring = s.ring ∧
    (putCur off v s).acq = s.acq ∧
    (putCur off v s).husk = s.husk ∧
    (putCur off v s).drv = s.drv ∧
    (putCur off v s).est = s.est ∧
    (putCur off v s).pairs = s.pairs ∧
    (putCur off v s).time = s.time ∧
    (putCur off v s).therm = s.therm ∧
    (putCur off v s).ledg = s.ledg ∧
    (putCur off v s).tally = s.tally ∧
    (putCur off v s).recd = s.recd ∧
    (putCur off v s).host = s.host ∧
    (putCur off v s).sec = s.sec ∧
    (putCur off v s).pwr = s.pwr ∧
    (putCur off v s).bist = s.bist ∧
    (putCur off v s).evt = s.evt ∧
    (putCur off v s).pins = s.pins ∧
    (putCur off v s).freeIx = s.freeIx ∧
    (putCur off v s).pending = s.pending := by
  simp [putCur, id @calNow_keep, id @chWrite_keep, id @cmpTest_keep]

end Sys2Proof.Machine
end

