-- ==== Sys2Proof/Laws/KeepRegHusk.lean ====
section
/-! SUPPORT. What the operations of Machine/RegHusk.lean leave unchanged. -/

namespace Sys2Proof.Machine

theorem hostOpen_keep (i : Nat) (s : State) :
    (hostOpen i s).sys = s.sys ∧
    (hostOpen i s).img = s.img ∧
    (hostOpen i s).cfg = s.cfg ∧
    (hostOpen i s).ring = s.ring ∧
    (hostOpen i s).acq = s.acq ∧
    (hostOpen i s).cur = s.cur ∧
    (hostOpen i s).krn = s.krn ∧
    (hostOpen i s).est = s.est ∧
    (hostOpen i s).win = s.win ∧
    (hostOpen i s).pairs = s.pairs ∧
    (hostOpen i s).time = s.time ∧
    (hostOpen i s).therm = s.therm ∧
    (hostOpen i s).nv = s.nv ∧
    (hostOpen i s).ledg = s.ledg ∧
    (hostOpen i s).tally = s.tally ∧
    (hostOpen i s).recd = s.recd ∧
    (hostOpen i s).host = s.host ∧
    (hostOpen i s).sec = s.sec ∧
    (hostOpen i s).pwr = s.pwr ∧
    (hostOpen i s).bist = s.bist ∧
    (hostOpen i s).evt = s.evt ∧
    (hostOpen i s).pins = s.pins ∧
    (hostOpen i s).freeIx = s.freeIx ∧
    (hostOpen i s).pending = s.pending ∧
    (hostOpen i s).drv.held = s.drv.held := by
  simp [hostOpen, id @orderlyOpen_keep]

theorem putHuskCtrl_keep (v : Word) (s : State) :
    (putHuskCtrl v s).sys = s.sys ∧
    (putHuskCtrl v s).img = s.img ∧
    (putHuskCtrl v s).cfg = s.cfg ∧
    (putHuskCtrl v s).ring = s.ring ∧
    (putHuskCtrl v s).acq = s.acq ∧
    (putHuskCtrl v s).krn = s.krn ∧
    (putHuskCtrl v s).est = s.est ∧
    (putHuskCtrl v s).win = s.win ∧
    (putHuskCtrl v s).pairs = s.pairs ∧
    (putHuskCtrl v s).time = s.time ∧
    (putHuskCtrl v s).therm = s.therm ∧
    (putHuskCtrl v s).nv = s.nv ∧
    (putHuskCtrl v s).ledg = s.ledg ∧
    (putHuskCtrl v s).tally = s.tally ∧
    (putHuskCtrl v s).host = s.host ∧
    (putHuskCtrl v s).sec = s.sec ∧
    (putHuskCtrl v s).pwr = s.pwr ∧
    (putHuskCtrl v s).bist = s.bist ∧
    (putHuskCtrl v s).pins = s.pins ∧
    (putHuskCtrl v s).freeIx = s.freeIx ∧
    (putHuskCtrl v s).pending = s.pending ∧
    (putHuskCtrl v s).drv.held = s.drv.held ∧
    (putHuskCtrl v s).recd.held = s.recd.held := by
  unfold putHuskCtrl
  repeat' split
  all_goals simp [id @clearRequest_keep, id @hostOpen_keep]

theorem putHusk_keep (off : Nat) (v : Word) (s : State) :
    (putHusk off v s).sys = s.sys ∧
    (putHusk off v s).img = s.img ∧
    (putHusk off v s).cfg = s.cfg ∧
    (putHusk off v s).ring = s.ring ∧
    (putHusk off v s).acq = s.acq ∧
    (putHusk off v s).krn = s.krn ∧
    (putHusk off v s).est = s.est ∧
    (putHusk off v s).win = s.win ∧
    (putHusk off v s).pairs = s.pairs ∧
    (putHusk off v s).time = s.time ∧
    (putHusk off v s).therm = s.therm ∧
    (putHusk off v s).nv = s.nv ∧
    (putHusk off v s).ledg = s.ledg ∧
    (putHusk off v s).tally = s.tally ∧
    (putHusk off v s).host = s.host ∧
    (putHusk off v s).sec = s.sec ∧
    (putHusk off v s).pwr = s.pwr ∧
    (putHusk off v s).bist = s.bist ∧
    (putHusk off v s).pins = s.pins ∧
    (putHusk off v s).freeIx = s.freeIx ∧
    (putHusk off v s).pending = s.pending ∧
    (putHusk off v s).drv.held = s.drv.held ∧
    (putHusk off v s).recd.held = s.recd.held := by
  unfold putHusk
  repeat' split
  all_goals simp [id @putHuskCtrl_keep]

theorem putDrv_keep (off : Nat) (v : Word) (s : State) :
    (putDrv off v s).sys = s.sys ∧
    (putDrv off v s).img = s.img ∧
    (putDrv off v s).cfg = s.cfg ∧
    (putDrv off v s).ring = s.ring ∧
    (putDrv off v s).acq = s.acq ∧
    (putDrv off v s).cur = s.cur ∧
    (putDrv off v s).krn = s.krn ∧
    (putDrv off v s).est = s.est ∧
    (putDrv off v s).win = s.win ∧
    (putDrv off v s).pairs = s.pairs ∧
    (putDrv off v s).time = s.time ∧
    (putDrv off v s).therm = s.therm ∧
    (putDrv off v s).nv = s.nv ∧
    (putDrv off v s).ledg = s.ledg ∧
    (putDrv off v s).tally = s.tally ∧
    (putDrv off v s).recd = s.recd ∧
    (putDrv off v s).host = s.host ∧
    (putDrv off v s).sec = s.sec ∧
    (putDrv off v s).pwr = s.pwr ∧
    (putDrv off v s).bist = s.bist ∧
    (putDrv off v s).evt = s.evt ∧
    (putDrv off v s).pins = s.pins ∧
    (putDrv off v s).freeIx = s.freeIx ∧
    (putDrv off v s).pending = s.pending ∧
    (putDrv off v s).husk.held = s.husk.held ∧
    (putDrv off v s).drv.held = s.drv.held := by
  unfold putDrv
  repeat' split
  all_goals simp [id @startWeld_keep]

theorem putKrn_keep (p : Port) (off : Nat) (v : Word) (s : State) :
    (putKrn p off v s).sys = s.sys ∧
    (putKrn p off v s).img = s.img ∧
    (putKrn p off v s).cfg = s.cfg ∧
    (putKrn p off v s).ring = s.ring ∧
    (putKrn p off v s).acq = s.acq ∧
    (putKrn p off v s).cur = s.cur ∧
    (putKrn p off v s).husk = s.husk ∧
    (putKrn p off v s).drv = s.drv ∧
    (putKrn p off v s).est = s.est ∧
    (putKrn p off v s).win = s.win ∧
    (putKrn p off v s).pairs = s.pairs ∧
    (putKrn p off v s).time = s.time ∧
    (putKrn p off v s).therm = s.therm ∧
    (putKrn p off v s).nv = s.nv ∧
    (putKrn p off v s).ledg = s.ledg ∧
    (putKrn p off v s).tally = s.tally ∧
    (putKrn p off v s).recd = s.recd ∧
    (putKrn p off v s).sec = s.sec ∧
    (putKrn p off v s).pwr = s.pwr ∧
    (putKrn p off v s).bist = s.bist ∧
    (putKrn p off v s).evt = s.evt ∧
    (putKrn p off v s).pins = s.pins ∧
    (putKrn p off v s).freeIx = s.freeIx ∧
    (putKrn p off v s).pending = s.pending := by
  simp [putKrn, id @modPort_keep]

theorem putPair_keep (off : Nat) (v : Word) (s : State) :
    (putPair off v s).sys = s.sys ∧
    (putPair off v s).img = s.img ∧
    (putPair off v s).cfg = s.cfg ∧
    (putPair off v s).ring = s.ring ∧
    (putPair off v s).acq = s.acq ∧
    (putPair off v s).cur = s.cur ∧
    (putPair off v s).husk = s.husk ∧
    (putPair off v s).drv = s.drv ∧
    (putPair off v s).krn = s.krn ∧
    (putPair off v s).est = s.est ∧
    (putPair off v s).win = s.win ∧
    (putPair off v s).time = s.time ∧
    (putPair off v s).therm = s.therm ∧
    (putPair off v s).nv = s.nv ∧
    (putPair off v s).ledg = s.ledg ∧
    (putPair off v s).tally = s.tally ∧
    (putPair off v s).recd = s.recd ∧
    (putPair off v s).host = s.host ∧
    (putPair off v s).sec = s.sec ∧
    (putPair off v s).pwr = s.pwr ∧
    (putPair off v s).bist = s.bist ∧
    (putPair off v s).evt = s.evt ∧
    (putPair off v s).pins = s.pins ∧
    (putPair off v s).freeIx = s.freeIx ∧
    (putPair off v s).pending = s.pending := by
  simp [putPair, id @pairRelease_keep]

theorem putDbgSession_keep (v : Word) (s : State) :
    (putDbgSession v s).sys = s.sys ∧
    (putDbgSession v s).img = s.img ∧
    (putDbgSession v s).cfg = s.cfg ∧
    (putDbgSession v s).ring = s.ring ∧
    (putDbgSession v s).acq = s.acq ∧
    (putDbgSession v s).cur = s.cur ∧
    (putDbgSession v s).husk = s.husk ∧
    (putDbgSession v s).drv = s.drv ∧
    (putDbgSession v s).est = s.est ∧
    (putDbgSession v s).win = s.win ∧
    (putDbgSession v s).time = s.time ∧
    (putDbgSession v s).therm = s.therm ∧
    (putDbgSession v s).nv = s.nv ∧
    (putDbgSession v s).ledg = s.ledg ∧
    (putDbgSession v s).tally = s.tally ∧
    (putDbgSession v s).host = s.host ∧
    (putDbgSession v s).sec = s.sec ∧
    (putDbgSession v s).pwr = s.pwr ∧
    (putDbgSession v s).bist = s.bist ∧
    (putDbgSession v s).pins = s.pins ∧
    (putDbgSession v s).freeIx = s.freeIx ∧
    (putDbgSession v s).pending = s.pending ∧
    (putDbgSession v s).recd.held = s.recd.held ∧
    (putDbgSession v s).evt.held = s.evt.held := by
  unfold putDbgSession
  repeat' split
  all_goals simp [id @dbgEnd_keep, id @dbgOpen_keep]

theorem putDbgCtrl_keep (v : Word) (s : State) :
    (putDbgCtrl v s).img = s.img ∧
    (putDbgCtrl v s).cfg = s.cfg ∧
    (putDbgCtrl v s).acq = s.acq ∧
    (putDbgCtrl v s).cur = s.cur ∧
    (putDbgCtrl v s).win = s.win ∧
    (putDbgCtrl v s).time = s.time ∧
    (putDbgCtrl v s).therm = s.therm ∧
    (putDbgCtrl v s).nv = s.nv ∧
    (putDbgCtrl v s).ledg = s.ledg ∧
    (putDbgCtrl v s).tally = s.tally ∧
    (putDbgCtrl v s).host = s.host ∧
    (putDbgCtrl v s).sec = s.sec ∧
    (putDbgCtrl v s).bist = s.bist ∧
    (putDbgCtrl v s).pending = s.pending ∧
    (putDbgCtrl v s).sys.held = s.sys.held ∧
    (putDbgCtrl v s).husk.held = s.husk.held ∧
    (putDbgCtrl v s).drv.held = s.drv.held ∧
    (putDbgCtrl v s).recd.held = s.recd.held ∧
    (putDbgCtrl v s).pwr.held = s.pwr.held ∧
    (putDbgCtrl v s).evt.held = s.evt.held ∧
    (putDbgCtrl v s).pins.held = s.pins.held := by
  unfold putDbgCtrl
  repeat' split
  all_goals simp [id @dbgHalt_keep, id @dbgResume_keep, id @dbgStep_keep]

theorem putDbg_keep (q : Req) (off : Nat) (v : Word) (s0 : State) :
    (putDbg q off v s0).img = s0.img ∧
    (putDbg q off v s0).cfg = s0.cfg ∧
    (putDbg q off v s0).acq = s0.acq ∧
    (putDbg q off v s0).cur = s0.cur ∧
    (putDbg q off v s0).win = s0.win ∧
    (putDbg q off v s0).time = s0.time ∧
    (putDbg q off v s0).therm = s0.therm ∧
    (putDbg q off v s0).nv = s0.nv ∧
    (putDbg q off v s0).ledg = s0.ledg ∧
    (putDbg q off v s0).tally = s0.tally ∧
    (putDbg q off v s0).host = s0.host ∧
    (putDbg q off v s0).sec = s0.sec ∧
    (putDbg q off v s0).bist = s0.bist ∧
    (putDbg q off v s0).pending = s0.pending ∧
    (putDbg q off v s0).sys.held = s0.sys.held ∧
    (putDbg q off v s0).husk.held = s0.husk.held ∧
    (putDbg q off v s0).drv.held = s0.drv.held ∧
    (putDbg q off v s0).recd.held = s0.recd.held ∧
    (putDbg q off v s0).pwr.held = s0.pwr.held ∧
    (putDbg q off v s0).evt.held = s0.evt.held ∧
    (putDbg q off v s0).pins.held = s0.pins.held := by
  unfold putDbg
  repeat' split
  all_goals simp [id @dbgWrite_keep, id @putDbgCtrl_keep, id @putDbgSession_keep]

end Sys2Proof.Machine
end

