-- ==== Sys2Proof/Laws/KeepRegEst.lean ====
section
/-! SUPPORT. What the operations of Machine/RegEst.lean leave unchanged. -/

namespace Sys2Proof.Machine

theorem putEstCtrl_keep (v : Word) (s : State) :
    (putEstCtrl v s).sys = s.sys ∧
    (putEstCtrl v s).img = s.img ∧
    (putEstCtrl v s).cfg = s.cfg ∧
    (putEstCtrl v s).ring = s.ring ∧
    (putEstCtrl v s).acq = s.acq ∧
    (putEstCtrl v s).cur = s.cur ∧
    (putEstCtrl v s).husk = s.husk ∧
    (putEstCtrl v s).drv = s.drv ∧
    (putEstCtrl v s).krn = s.krn ∧
    (putEstCtrl v s).win = s.win ∧
    (putEstCtrl v s).pairs = s.pairs ∧
    (putEstCtrl v s).time = s.time ∧
    (putEstCtrl v s).therm = s.therm ∧
    (putEstCtrl v s).nv = s.nv ∧
    (putEstCtrl v s).ledg = s.ledg ∧
    (putEstCtrl v s).tally = s.tally ∧
    (putEstCtrl v s).host = s.host ∧
    (putEstCtrl v s).sec = s.sec ∧
    (putEstCtrl v s).pwr = s.pwr ∧
    (putEstCtrl v s).bist = s.bist ∧
    (putEstCtrl v s).pins = s.pins ∧
    (putEstCtrl v s).freeIx = s.freeIx ∧
    (putEstCtrl v s).pending = s.pending ∧
    (putEstCtrl v s).recd.held = s.recd.held ∧
    (putEstCtrl v s).evt.held = s.evt.held := by
  unfold putEstCtrl
  repeat' split
  all_goals simp [id @ccReseed_keep, id @reserveHold_keep, id @reserveRelease_keep]

theorem putEst_keep (p : Port) (off : Nat) (v : Word) (s : State) :
    (putEst p off v s).sys = s.sys ∧
    (putEst p off v s).img = s.img ∧
    (putEst p off v s).cfg = s.cfg ∧
    (putEst p off v s).ring = s.ring ∧
    (putEst p off v s).acq = s.acq ∧
    (putEst p off v s).cur = s.cur ∧
    (putEst p off v s).husk = s.husk ∧
    (putEst p off v s).drv = s.drv ∧
    (putEst p off v s).krn = s.krn ∧
    (putEst p off v s).win = s.win ∧
    (putEst p off v s).pairs = s.pairs ∧
    (putEst p off v s).time = s.time ∧
    (putEst p off v s).therm = s.therm ∧
    (putEst p off v s).nv = s.nv ∧
    (putEst p off v s).ledg = s.ledg ∧
    (putEst p off v s).tally = s.tally ∧
    (putEst p off v s).sec = s.sec ∧
    (putEst p off v s).pwr = s.pwr ∧
    (putEst p off v s).bist = s.bist ∧
    (putEst p off v s).pins = s.pins ∧
    (putEst p off v s).freeIx = s.freeIx ∧
    (putEst p off v s).pending = s.pending ∧
    (putEst p off v s).evt.held = s.evt.held := by
  unfold putEst
  repeat' split
  all_goals simp [id @charAbort_keep, id @charStart_keep, id @modEStr_keep, id @modPort_keep, id @putEstCtrl_keep]

theorem putWin_keep (p : Port) (off : Nat) (v : Word) (s : State) :
    (putWin p off v s).sys = s.sys ∧
    (putWin p off v s).img = s.img ∧
    (putWin p off v s).cfg = s.cfg ∧
    (putWin p off v s).ring = s.ring ∧
    (putWin p off v s).acq = s.acq ∧
    (putWin p off v s).cur = s.cur ∧
    (putWin p off v s).husk = s.husk ∧
    (putWin p off v s).drv = s.drv ∧
    (putWin p off v s).krn = s.krn ∧
    (putWin p off v s).est = s.est ∧
    (putWin p off v s).pairs = s.pairs ∧
    (putWin p off v s).time = s.time ∧
    (putWin p off v s).therm = s.therm ∧
    (putWin p off v s).nv = s.nv ∧
    (putWin p off v s).ledg = s.ledg ∧
    (putWin p off v s).tally = s.tally ∧
    (putWin p off v s).sec = s.sec ∧
    (putWin p off v s).pwr = s.pwr ∧
    (putWin p off v s).bist = s.bist ∧
    (putWin p off v s).pins = s.pins ∧
    (putWin p off v s).freeIx = s.freeIx ∧
    (putWin p off v s).pending = s.pending ∧
    (putWin p off v s).recd.held = s.recd.held ∧
    (putWin p off v s).evt.held = s.evt.held := by
  unfold putWin
  repeat' split
  all_goals simp [id @modPort_keep, id @winClear_keep]

end Sys2Proof.Machine
end

