-- ==== Sys2Proof/Laws/KeepRegNv.lean ====
section
/-! SUPPORT. What the operations of Machine/RegNv.lean leave unchanged. -/

namespace Sys2Proof.Machine

theorem putNv_keep (p : Port) (off : Nat) (v : Word) (s : State) :
    (putNv p off v s).sys = s.sys ∧
    (putNv p off v s).img = s.img ∧
    (putNv p off v s).cfg = s.cfg ∧
    (putNv p off v s).ring = s.ring ∧
    (putNv p off v s).acq = s.acq ∧
    (putNv p off v s).cur = s.cur ∧
    (putNv p off v s).husk = s.husk ∧
    (putNv p off v s).drv = s.drv ∧
    (putNv p off v s).est = s.est ∧
    (putNv p off v s).pairs = s.pairs ∧
    (putNv p off v s).time = s.time ∧
    (putNv p off v s).therm = s.therm ∧
    (putNv p off v s).tally = s.tally ∧
    (putNv p off v s).recd = s.recd ∧
    (putNv p off v s).sec = s.sec ∧
    (putNv p off v s).pwr = s.pwr ∧
    (putNv p off v s).bist = s.bist ∧
    (putNv p off v s).evt = s.evt ∧
    (putNv p off v s).pins = s.pins ∧
    (putNv p off v s).freeIx = s.freeIx ∧
    (putNv p off v s).pending = s.pending := by
  simp [putNv, id @modPort_keep, id @nvFlush_keep]

theorem blkLatch_keep (p : Port) (b : Nat) (s : State) :
    (blkLatch p b s).sys = s.sys ∧
    (blkLatch p b s).img = s.img ∧
    (blkLatch p b s).cfg = s.cfg ∧
    (blkLatch p b s).ring = s.ring ∧
    (blkLatch p b s).acq = s.acq ∧
    (blkLatch p b s).cur = s.cur ∧
    (blkLatch p b s).husk = s.husk ∧
    (blkLatch p b s).drv = s.drv ∧
    (blkLatch p b s).krn = s.krn ∧
    (blkLatch p b s).est = s.est ∧
    (blkLatch p b s).win = s.win ∧
    (blkLatch p b s).pairs = s.pairs ∧
    (blkLatch p b s).time = s.time ∧
    (blkLatch p b s).therm = s.therm ∧
    (blkLatch p b s).nv = s.nv ∧
    (blkLatch p b s).ledg = s.ledg ∧
    (blkLatch p b s).tally = s.tally ∧
    (blkLatch p b s).recd = s.recd ∧
    (blkLatch p b s).sec = s.sec ∧
    (blkLatch p b s).pwr = s.pwr ∧
    (blkLatch p b s).bist = s.bist ∧
    (blkLatch p b s).evt = s.evt ∧
    (blkLatch p b s).pins = s.pins ∧
    (blkLatch p b s).freeIx = s.freeIx ∧
    (blkLatch p b s).pending = s.pending := by
  simp [blkLatch, id @modPort_keep]

theorem putLedg_keep (off : Nat) (v : Word) (s : State) :
    (putLedg off v s).sys = s.sys ∧
    (putLedg off v s).img = s.img ∧
    (putLedg off v s).cfg = s.cfg ∧
    (putLedg off v s).ring = s.ring ∧
    (putLedg off v s).acq = s.acq ∧
    (putLedg off v s).cur = s.cur ∧
    (putLedg off v s).husk = s.husk ∧
    (putLedg off v s).drv = s.drv ∧
    (putLedg off v s).est = s.est ∧
    (putLedg off v s).pairs = s.pairs ∧
    (putLedg off v s).time = s.time ∧
    (putLedg off v s).therm = s.therm ∧
    (putLedg off v s).tally = s.tally ∧
    (putLedg off v s).host = s.host ∧
    (putLedg off v s).sec = s.sec ∧
    (putLedg off v s).pwr = s.pwr ∧
    (putLedg off v s).bist = s.bist ∧
    (putLedg off v s).pins = s.pins ∧
    (putLedg off v s).freeIx = s.freeIx ∧
    (putLedg off v s).pending = s.pending ∧
    (putLedg off v s).recd.held = s.recd.held ∧
    (putLedg off v s).evt.held = s.evt.held := by
  unfold putLedg
  repeat' split
  all_goals simp [id @eraForce_keep, id @nonceWritten_keep, id @stmtStart_keep]

theorem putNvLedg_keep (p : Port) (off : Nat) (v : Word) (s : State) :
    (putNvLedg p off v s).sys = s.sys ∧
    (putNvLedg p off v s).img = s.img ∧
    (putNvLedg p off v s).cfg = s.cfg ∧
    (putNvLedg p off v s).ring = s.ring ∧
    (putNvLedg p off v s).acq = s.acq ∧
    (putNvLedg p off v s).cur = s.cur ∧
    (putNvLedg p off v s).husk = s.husk ∧
    (putNvLedg p off v s).drv = s.drv ∧
    (putNvLedg p off v s).est = s.est ∧
    (putNvLedg p off v s).pairs = s.pairs ∧
    (putNvLedg p off v s).time = s.time ∧
    (putNvLedg p off v s).therm = s.therm ∧
    (putNvLedg p off v s).tally = s.tally ∧
    (putNvLedg p off v s).sec = s.sec ∧
    (putNvLedg p off v s).pwr = s.pwr ∧
    (putNvLedg p off v s).bist = s.bist ∧
    (putNvLedg p off v s).pins = s.pins ∧
    (putNvLedg p off v s).freeIx = s.freeIx ∧
    (putNvLedg p off v s).pending = s.pending ∧
    (putNvLedg p off v s).recd.held = s.recd.held ∧
    (putNvLedg p off v s).evt.held = s.evt.held := by
  unfold putNvLedg
  repeat' split
  all_goals simp [id @putLedg_keep, id @putNv_keep]

end Sys2Proof.Machine
end

