-- ==== Sys2Proof/Laws/KeepRegRec.lean ====
section
/-! SUPPORT. What the operations of Machine/RegRec.lean leave unchanged. -/

namespace Sys2Proof.Machine

theorem seqLatch_keep (p : Port) (s : State) :
    (seqLatch p s).sys = s.sys ∧
    (seqLatch p s).img = s.img ∧
    (seqLatch p s).cfg = s.cfg ∧
    (seqLatch p s).ring = s.ring ∧
    (seqLatch p s).acq = s.acq ∧
    (seqLatch p s).cur = s.cur ∧
    (seqLatch p s).husk = s.husk ∧
    (seqLatch p s).drv = s.drv ∧
    (seqLatch p s).krn = s.krn ∧
    (seqLatch p s).est = s.est ∧
    (seqLatch p s).win = s.win ∧
    (seqLatch p s).pairs = s.pairs ∧
    (seqLatch p s).time = s.time ∧
    (seqLatch p s).therm = s.therm ∧
    (seqLatch p s).nv = s.nv ∧
    (seqLatch p s).ledg = s.ledg ∧
    (seqLatch p s).tally = s.tally ∧
    (seqLatch p s).recd = s.recd ∧
    (seqLatch p s).sec = s.sec ∧
    (seqLatch p s).pwr = s.pwr ∧
    (seqLatch p s).bist = s.bist ∧
    (seqLatch p s).evt = s.evt ∧
    (seqLatch p s).pins = s.pins ∧
    (seqLatch p s).freeIx = s.freeIx ∧
    (seqLatch p s).pending = s.pending := by
  simp [seqLatch, id @modPort_keep]

theorem oldLatch_keep (p : Port) (s : State) :
    (oldLatch p s).sys = s.sys ∧
    (oldLatch p s).img = s.img ∧
    (oldLatch p s).cfg = s.cfg ∧
    (oldLatch p s).ring = s.ring ∧
    (oldLatch p s).acq = s.acq ∧
    (oldLatch p s).cur = s.cur ∧
    (oldLatch p s).husk = s.husk ∧
    (oldLatch p s).drv = s.drv ∧
    (oldLatch p s).krn = s.krn ∧
    (oldLatch p s).est = s.est ∧
    (oldLatch p s).win = s.win ∧
    (oldLatch p s).pairs = s.pairs ∧
    (oldLatch p s).time = s.time ∧
    (oldLatch p s).therm = s.therm ∧
    (oldLatch p s).nv = s.nv ∧
    (oldLatch p s).ledg = s.ledg ∧
    (oldLatch p s).tally = s.tally ∧
    (oldLatch p s).recd = s.recd ∧
    (oldLatch p s).sec = s.sec ∧
    (oldLatch p s).pwr = s.pwr ∧
    (oldLatch p s).bist = s.bist ∧
    (oldLatch p s).evt = s.evt ∧
    (oldLatch p s).pins = s.pins ∧
    (oldLatch p s).freeIx = s.freeIx ∧
    (oldLatch p s).pending = s.pending := by
  simp [oldLatch, id @modPort_keep]

theorem putRecCtrl_keep (v : Word) (s : State) :
    (putRecCtrl v s).sys = s.sys ∧
    (putRecCtrl v s).img = s.img ∧
    (putRecCtrl v s).cfg = s.cfg ∧
    (putRecCtrl v s).ring = s.ring ∧
    (putRecCtrl v s).acq = s.acq ∧
    (putRecCtrl v s).cur = s.cur ∧
    (putRecCtrl v s).husk = s.husk ∧
    (putRecCtrl v s).drv = s.drv ∧
    (putRecCtrl v s).krn = s.krn ∧
    (putRecCtrl v s).est = s.est ∧
    (putRecCtrl v s).win = s.win ∧
    (putRecCtrl v s).pairs = s.pairs ∧
    (putRecCtrl v s).time = s.time ∧
    (putRecCtrl v s).therm = s.therm ∧
    (putRecCtrl v s).nv = s.nv ∧
    (putRecCtrl v s).ledg = s.ledg ∧
    (putRecCtrl v s).tally = s.tally ∧
    (putRecCtrl v s).host = s.host ∧
    (putRecCtrl v s).sec = s.sec ∧
    (putRecCtrl v s).pwr = s.pwr ∧
    (putRecCtrl v s).bist = s.bist ∧
    (putRecCtrl v s).pins = s.pins ∧
    (putRecCtrl v s).freeIx = s.freeIx ∧
    (putRecCtrl v s).pending = s.pending ∧
    (putRecCtrl v s).evt.held = s.evt.held := by
  unfold putRecCtrl
  repeat' split
  all_goals simp [id @chaffClear_keep, id @recFlush_keep, id @recFormat_keep]

theorem putRecW_keep (p : Port) (off : Nat) (v : Word) (s : State) :
    (putRecW p off v s).sys = s.sys ∧
    (putRecW p off v s).img = s.img ∧
    (putRecW p off v s).cfg = s.cfg ∧
    (putRecW p off v s).ring = s.ring ∧
    (putRecW p off v s).acq = s.acq ∧
    (putRecW p off v s).cur = s.cur ∧
    (putRecW p off v s).husk = s.husk ∧
    (putRecW p off v s).drv = s.drv ∧
    (putRecW p off v s).est = s.est ∧
    (putRecW p off v s).pairs = s.pairs ∧
    (putRecW p off v s).time = s.time ∧
    (putRecW p off v s).therm = s.therm ∧
    (putRecW p off v s).ledg = s.ledg ∧
    (putRecW p off v s).tally = s.tally ∧
    (putRecW p off v s).sec = s.sec ∧
    (putRecW p off v s).pwr = s.pwr ∧
    (putRecW p off v s).bist = s.bist ∧
    (putRecW p off v s).pins = s.pins ∧
    (putRecW p off v s).freeIx = s.freeIx ∧
    (putRecW p off v s).pending = s.pending ∧
    (putRecW p off v s).evt.held = s.evt.held := by
  unfold putRecW
  repeat' split
  all_goals simp [id @modPort_keep, id @nvQueue_keep, id @pinAck_keep, id @putRecCtrl_keep]

theorem putHost_keep (off : Nat) (v : Word) (s : State) :
    (putHost off v s).sys = s.sys ∧
    (putHost off v s).img = s.img ∧
    (putHost off v s).cfg = s.cfg ∧
    (putHost off v s).ring = s.ring ∧
    (putHost off v s).acq = s.acq ∧
    (putHost off v s).cur = s.cur ∧
    (putHost off v s).husk = s.husk ∧
    (putHost off v s).drv = s.drv ∧
    (putHost off v s).krn = s.krn ∧
    (putHost off v s).est = s.est ∧
    (putHost off v s).win = s.win ∧
    (putHost off v s).pairs = s.pairs ∧
    (putHost off v s).time = s.time ∧
    (putHost off v s).therm = s.therm ∧
    (putHost off v s).nv = s.nv ∧
    (putHost off v s).ledg = s.ledg ∧
    (putHost off v s).tally = s.tally ∧
    (putHost off v s).recd = s.recd ∧
    (putHost off v s).sec = s.sec ∧
    (putHost off v s).pwr = s.pwr ∧
    (putHost off v s).bist = s.bist ∧
    (putHost off v s).evt = s.evt ∧
    (putHost off v s).pins = s.pins ∧
    (putHost off v s).freeIx = s.freeIx ∧
    (putHost off v s).pending = s.pending := by
  simp [putHost]

theorem putSec_keep (off : Nat) (v : Word) (s : State) :
    (putSec off v s).sys = s.sys ∧
    (putSec off v s).img = s.img ∧
    (putSec off v s).cfg = s.cfg ∧
    (putSec off v s).ring = s.ring ∧
    (putSec off v s).acq = s.acq ∧
    (putSec off v s).cur = s.cur ∧
    (putSec off v s).husk = s.husk ∧
    (putSec off v s).drv = s.drv ∧
    (putSec off v s).est = s.est ∧
    (putSec off v s).pairs = s.pairs ∧
    (putSec off v s).time = s.time ∧
    (putSec off v s).therm = s.therm ∧
    (putSec off v s).tally = s.tally ∧
    (putSec off v s).host = s.host ∧
    (putSec off v s).pwr = s.pwr ∧
    (putSec off v s).bist = s.bist ∧
    (putSec off v s).pins = s.pins ∧
    (putSec off v s).freeIx = s.freeIx ∧
    (putSec off v s).pending = s.pending ∧
    (putSec off v s).sec.mid = s.sec.mid ∧
    (putSec off v s).sec.devKey = s.sec.devKey ∧
    (putSec off v s).recd.held = s.recd.held ∧
    (putSec off v s).evt.held = s.evt.held := by
  unfold putSec
  repeat' split
  all_goals simp [id @presClose_keep, id @secAdopt_keep]

theorem refusedBist_keep (q : Req) (off : Nat) (v : Word) (s : State) :
    (refusedBist q off v s).sys = s.sys ∧
    (refusedBist q off v s).img = s.img ∧
    (refusedBist q off v s).cfg = s.cfg ∧
    (refusedBist q off v s).ring = s.ring ∧
    (refusedBist q off v s).acq = s.acq ∧
    (refusedBist q off v s).cur = s.cur ∧
    (refusedBist q off v s).husk = s.husk ∧
    (refusedBist q off v s).drv = s.drv ∧
    (refusedBist q off v s).krn = s.krn ∧
    (refusedBist q off v s).est = s.est ∧
    (refusedBist q off v s).win = s.win ∧
    (refusedBist q off v s).pairs = s.pairs ∧
    (refusedBist q off v s).time = s.time ∧
    (refusedBist q off v s).therm = s.therm ∧
    (refusedBist q off v s).nv = s.nv ∧
    (refusedBist q off v s).ledg = s.ledg ∧
    (refusedBist q off v s).tally = s.tally ∧
    (refusedBist q off v s).recd = s.recd ∧
    (refusedBist q off v s).host = s.host ∧
    (refusedBist q off v s).sec = s.sec ∧
    (refusedBist q off v s).pwr = s.pwr ∧
    (refusedBist q off v s).evt = s.evt ∧
    (refusedBist q off v s).pins = s.pins ∧
    (refusedBist q off v s).freeIx = s.freeIx ∧
    (refusedBist q off v s).pending = s.pending := by
  simp [refusedBist]

theorem putBistCtrl_keep (q : Req) (v : Word) (s : State) :
    (putBistCtrl q v s).sys = s.sys ∧
    (putBistCtrl q v s).img = s.img ∧
    (putBistCtrl q v s).cfg = s.cfg ∧
    (putBistCtrl q v s).ring = s.ring ∧
    (putBistCtrl q v s).acq = s.acq ∧
    (putBistCtrl q v s).cur = s.cur ∧
    (putBistCtrl q v s).husk = s.husk ∧
    (putBistCtrl q v s).drv = s.drv ∧
    (putBistCtrl q v s).est = s.est ∧
    (putBistCtrl q v s).win = s.win ∧
    (putBistCtrl q v s).time = s.time ∧
    (putBistCtrl q v s).therm = s.therm ∧
    (putBistCtrl q v s).nv = s.nv ∧
    (putBistCtrl q v s).ledg = s.ledg ∧
    (putBistCtrl q v s).tally = s.tally ∧
    (putBistCtrl q v s).host = s.host ∧
    (putBistCtrl q v s).sec = s.sec ∧
    (putBistCtrl q v s).pins = s.pins ∧
    (putBistCtrl q v s).pending = s.pending ∧
    (putBistCtrl q v s).evt.held = s.evt.held := by
  simp only [putBistCtrl]
  repeat' split
  all_goals simp [id @bistAbort_keep, id @bistStart_keep]

theorem putBist_keep (q : Req) (off : Nat) (v : Word) (s : State) :
    (putBist q off v s).sys = s.sys ∧
    (putBist q off v s).img = s.img ∧
    (putBist q off v s).cfg = s.cfg ∧
    (putBist q off v s).ring = s.ring ∧
    (putBist q off v s).acq = s.acq ∧
    (putBist q off v s).cur = s.cur ∧
    (putBist q off v s).husk = s.husk ∧
    (putBist q off v s).drv = s.drv ∧
    (putBist q off v s).est = s.est ∧
    (putBist q off v s).win = s.win ∧
    (putBist q off v s).time = s.time ∧
    (putBist q off v s).therm = s.therm ∧
    (putBist q off v s).nv = s.nv ∧
    (putBist q off v s).ledg = s.ledg ∧
    (putBist q off v s).tally = s.tally ∧
    (putBist q off v s).sec = s.sec ∧
    (putBist q off v s).pins = s.pins ∧
    (putBist q off v s).pending = s.pending ∧
    (putBist q off v s).evt.held = s.evt.held := by
  unfold putBist
  repeat' split
  all_goals simp [id @modPort_keep, id @putBistCtrl_keep, id @repairPut_keep]

end Sys2Proof.Machine
end

