-- ==== Sys2Proof/Laws/KeepRegAll.lean ====
section
/-! SUPPORT. What the operations of Machine/RegAll.lean leave unchanged. -/

namespace Sys2Proof.Machine

theorem latchWord_keep (p : Port) (a : Nat) (s : State) :
    (latchWord p a s).sys = s.sys ∧
    (latchWord p a s).img = s.img ∧
    (latchWord p a s).cfg = s.cfg ∧
    (latchWord p a s).ring = s.ring ∧
    (latchWord p a s).acq = s.acq ∧
    (latchWord p a s).cur = s.cur ∧
    (latchWord p a s).husk = s.husk ∧
    (latchWord p a s).drv = s.drv ∧
    (latchWord p a s).krn = s.krn ∧
    (latchWord p a s).est = s.est ∧
    (latchWord p a s).win = s.win ∧
    (latchWord p a s).pairs = s.pairs ∧
    (latchWord p a s).time = s.time ∧
    (latchWord p a s).therm = s.therm ∧
    (latchWord p a s).nv = s.nv ∧
    (latchWord p a s).ledg = s.ledg ∧
    (latchWord p a s).tally = s.tally ∧
    (latchWord p a s).recd = s.recd ∧
    (latchWord p a s).sec = s.sec ∧
    (latchWord p a s).pwr = s.pwr ∧
    (latchWord p a s).bist = s.bist ∧
    (latchWord p a s).evt = s.evt ∧
    (latchWord p a s).pins = s.pins ∧
    (latchWord p a s).freeIx = s.freeIx ∧
    (latchWord p a s).pending = s.pending := by
  unfold latchWord
  repeat' split
  all_goals simp [id @blkLatch_keep, id @oldLatch_keep, id @seqLatch_keep, id @tnsLatch_keep]

theorem readWords_keep (p : Port) (k0 : Nat) (k1 : Nat) (s : State) :
    (readWords p k0 k1 s).2.sys = s.sys ∧
    (readWords p k0 k1 s).2.img = s.img ∧
    (readWords p k0 k1 s).2.cfg = s.cfg ∧
    (readWords p k0 k1 s).2.ring = s.ring ∧
    (readWords p k0 k1 s).2.acq = s.acq ∧
    (readWords p k0 k1 s).2.cur = s.cur ∧
    (readWords p k0 k1 s).2.husk = s.husk ∧
    (readWords p k0 k1 s).2.drv = s.drv ∧
    (readWords p k0 k1 s).2.krn = s.krn ∧
    (readWords p k0 k1 s).2.est = s.est ∧
    (readWords p k0 k1 s).2.win = s.win ∧
    (readWords p k0 k1 s).2.pairs = s.pairs ∧
    (readWords p k0 k1 s).2.time = s.time ∧
    (readWords p k0 k1 s).2.therm = s.therm ∧
    (readWords p k0 k1 s).2.nv = s.nv ∧
    (readWords p k0 k1 s).2.ledg = s.ledg ∧
    (readWords p k0 k1 s).2.tally = s.tally ∧
    (readWords p k0 k1 s).2.recd = s.recd ∧
    (readWords p k0 k1 s).2.sec = s.sec ∧
    (readWords p k0 k1 s).2.pwr = s.pwr ∧
    (readWords p k0 k1 s).2.bist = s.bist ∧
    (readWords p k0 k1 s).2.evt = s.evt ∧
    (readWords p k0 k1 s).2.pins = s.pins ∧
    (readWords p k0 k1 s).2.freeIx = s.freeIx ∧
    (readWords p k0 k1 s).2.pending = s.pending := by
  induction k0 generalizing k1 s with
  | zero => simp [readWords]
  | succ n ih => simp [readWords, ih, id @latchWord_keep]

theorem putReg_keep (q : Req) (a : Nat) (v : Word) (s : State) :
    (putReg q a v s).pending = s.pending ∧
    (putReg q a v s).sec.mid = s.sec.mid ∧
    (putReg q a v s).sec.devKey = s.sec.devKey := by
  simp [putReg, id @putAcq_keep, id @putBist_keep, id @putCur_keep, id @putDbg_keep, id @putDrv_keep,
      id @putEst_keep, id @putEvt_keep, id @putHost_keep, id @putHusk_keep, id @putImg_keep, id @putKrn_keep,
          id @putNvLedg_keep, id @putPair_keep, id @putPwr_keep, id @putRecW_keep, id @putRing_keep,
              id @putSec_keep, id @putSys_keep, id @putTherm_keep, id @putTime_keep, id @putWin_keep]

theorem noteRefusal_keep (q : Req) (a : Nat) (v : Word) (s : State) :
    (noteRefusal q a v s).sys = s.sys ∧
    (noteRefusal q a v s).img = s.img ∧
    (noteRefusal q a v s).cfg = s.cfg ∧
    (noteRefusal q a v s).ring = s.ring ∧
    (noteRefusal q a v s).acq = s.acq ∧
    (noteRefusal q a v s).cur = s.cur ∧
    (noteRefusal q a v s).husk = s.husk ∧
    (noteRefusal q a v s).drv = s.drv ∧
    (noteRefusal q a v s).krn = s.krn ∧
    (noteRefusal q a v s).est = s.est ∧
    (noteRefusal q a v s).win = s.win ∧
    (noteRefusal q a v s).pairs = s.pairs ∧
    (noteRefusal q a v s).time = s.time ∧
    (noteRefusal q a v s).therm = s.therm ∧
    (noteRefusal q a v s).nv = s.nv ∧
    (noteRefusal q a v s).ledg = s.ledg ∧
    (noteRefusal q a v s).tally = s.tally ∧
    (noteRefusal q a v s).recd = s.recd ∧
    (noteRefusal q a v s).host = s.host ∧
    (noteRefusal q a v s).sec = s.sec ∧
    (noteRefusal q a v s).pwr = s.pwr ∧
    (noteRefusal q a v s).evt = s.evt ∧
    (noteRefusal q a v s).pins = s.pins ∧
    (noteRefusal q a v s).freeIx = s.freeIx ∧
    (noteRefusal q a v s).pending = s.pending := by
  simp [noteRefusal, id @refusedBist_keep]

theorem writeAll_keep (q : Req) (addr : Nat) (data : List Word) (s : State) :
    (writeAll q addr data s).1.pending = s.pending ∧
    (writeAll q addr data s).1.sec.mid = s.sec.mid ∧
    (writeAll q addr data s).1.sec.devKey = s.sec.devKey := by
  simp only [writeAll]
  repeat' split
  all_goals simp [id @noteRefusal_keep, id @putReg_keep, id @refuse_keep]

theorem writeWords_keep (q : Req) (addr : Nat) (cnt : Nat) (data : List Word) (s : State) :
    (writeWords q addr cnt data s).1.pending = s.pending ∧
    (writeWords q addr cnt data s).1.sec.mid = s.sec.mid ∧
    (writeWords q addr cnt data s).1.sec.devKey = s.sec.devKey := by
  unfold writeWords
  repeat' split
  all_goals simp [id @refuse_keep, id @writeAll_keep]

theorem readReq_keep (p : Port) (addr : Nat) (cnt : Nat) (s : State) :
    (readReq p addr cnt s).1.sys = s.sys ∧
    (readReq p addr cnt s).1.img = s.img ∧
    (readReq p addr cnt s).1.cfg = s.cfg ∧
    (readReq p addr cnt s).1.ring = s.ring ∧
    (readReq p addr cnt s).1.acq = s.acq ∧
    (readReq p addr cnt s).1.cur = s.cur ∧
    (readReq p addr cnt s).1.husk = s.husk ∧
    (readReq p addr cnt s).1.drv = s.drv ∧
    (readReq p addr cnt s).1.krn = s.krn ∧
    (readReq p addr cnt s).1.est = s.est ∧
    (readReq p addr cnt s).1.win = s.win ∧
    (readReq p addr cnt s).1.pairs = s.pairs ∧
    (readReq p addr cnt s).1.time = s.time ∧
    (readReq p addr cnt s).1.therm = s.therm ∧
    (readReq p addr cnt s).1.nv = s.nv ∧
    (readReq p addr cnt s).1.ledg = s.ledg ∧
    (readReq p addr cnt s).1.tally = s.tally ∧
    (readReq p addr cnt s).1.recd = s.recd ∧
    (readReq p addr cnt s).1.sec = s.sec ∧
    (readReq p addr cnt s).1.pwr = s.pwr ∧
    (readReq p addr cnt s).1.bist = s.bist ∧
    (readReq p addr cnt s).1.evt = s.evt ∧
    (readReq p addr cnt s).1.pins = s.pins ∧
    (readReq p addr cnt s).1.freeIx = s.freeIx ∧
    (readReq p addr cnt s).1.pending = s.pending := by
  unfold readReq
  repeat' split
  all_goals simp [id @readWords_keep, id @refuse_keep]

end Sys2Proof.Machine
end

