-- ==== Sys2Proof/Laws/KeepRegCmds.lean ====
section
/-! SUPPORT. What the operations of Machine/RegCmds.lean leave unchanged. -/

namespace Sys2Proof.Machine

theorem regReq_keep (p : Bool) (h : ReqHdr) (m : WrMeas) (a : Nat) (f : Word → Word) (s : State) :
    (regReq p h m a f s).pending = s.pending ∧
    (regReq p h m a f s).sec.mid = s.sec.mid ∧
    (regReq p h m a f s).sec.devKey = s.sec.devKey := by
  simp [regReq, id @writeWords_keep]

theorem latchReq_keep (h : ReqHdr) (a : Nat) (s : State) :
    (latchReq h a s).img = s.img ∧
    (latchReq h a s).cfg = s.cfg ∧
    (latchReq h a s).acq = s.acq ∧
    (latchReq h a s).cur = s.cur ∧
    (latchReq h a s).krn = s.krn ∧
    (latchReq h a s).win = s.win ∧
    (latchReq h a s).pairs = s.pairs ∧
    (latchReq h a s).time = s.time ∧
    (latchReq h a s).therm = s.therm ∧
    (latchReq h a s).nv = s.nv ∧
    (latchReq h a s).ledg = s.ledg ∧
    (latchReq h a s).tally = s.tally ∧
    (latchReq h a s).sec = s.sec ∧
    (latchReq h a s).bist = s.bist ∧
    (latchReq h a s).freeIx = s.freeIx ∧
    (latchReq h a s).pending = s.pending ∧
    (latchReq h a s).sys.held = s.sys.held ∧
    (latchReq h a s).husk.held = s.husk.held ∧
    (latchReq h a s).drv.held = s.drv.held ∧
    (latchReq h a s).recd.held = s.recd.held ∧
    (latchReq h a s).est.held = s.est.held ∧
    (latchReq h a s).pwr.held = s.pwr.held ∧
    (latchReq h a s).evt.held = s.evt.held ∧
    (latchReq h a s).pins.held = s.pins.held := by
  simp [latchReq, id @readReq_keep]

theorem execSysModeWrite_keep {h : ReqHdr} {p : Bool} {v : Word} {s t : State} (h : execSysModeWrite h p v s = .next t) :
    t.pending = s.pending ∧
    t.sec.mid = s.sec.mid ∧
    t.sec.devKey = s.sec.devKey := by
  have e := Host.Outcome.next.inj h
  subst e
  simp [id @regReq_keep]

theorem execImgAbortStage_keep {h : ReqHdr} {p : Bool} {s t : State} (h : execImgAbortStage h p s = .next t) :
    t.pending = s.pending ∧
    t.sec.mid = s.sec.mid ∧
    t.sec.devKey = s.sec.devKey := by
  have e := Host.Outcome.next.inj h
  subst e
  simp [id @regReq_keep]

theorem execImgCancel_keep {h : ReqHdr} {p : Bool} {s t : State} (h : execImgCancel h p s = .next t) :
    t.pending = s.pending ∧
    t.sec.mid = s.sec.mid ∧
    t.sec.devKey = s.sec.devKey := by
  have e := Host.Outcome.next.inj h
  subst e
  simp [id @regReq_keep]

theorem execRingEnumRequest_keep {h : ReqHdr} {p : Bool} {r : Fin 2} {s t : State} (h : execRingEnumRequest h p r s = .next t) :
    t.pending = s.pending ∧
    t.sec.mid = s.sec.mid ∧
    t.sec.devKey = s.sec.devKey := by
  have e := Host.Outcome.next.inj h
  subst e
  simp [id @regReq_keep]

theorem execRingMeasRequest_keep {h : ReqHdr} {p : Bool} {r : Fin 2} {s t : State} (h : execRingMeasRequest h p r s = .next t) :
    t.pending = s.pending ∧
    t.sec.mid = s.sec.mid ∧
    t.sec.devKey = s.sec.devKey := by
  have e := Host.Outcome.next.inj h
  subst e
  simp [id @regReq_keep]

theorem execAcqCoupId_keep {h : ReqHdr} {p : Bool} {s t : State} (h : execAcqCoupId h p s = .next t) :
    t.pending = s.pending ∧
    t.sec.mid = s.sec.mid ∧
    t.sec.devKey = s.sec.devKey := by
  have e := Host.Outcome.next.inj h
  subst e
  simp [id @regReq_keep]

theorem execAcqOwNow_keep {h : ReqHdr} {p : Bool} {s t : State} (h : execAcqOwNow h p s = .next t) :
    t.pending = s.pending ∧
    t.sec.mid = s.sec.mid ∧
    t.sec.devKey = s.sec.devKey := by
  have e := Host.Outcome.next.inj h
  subst e
  simp [id @regReq_keep]

theorem execCurChCfgWrite_keep {h : ReqHdr} {p : Bool} {n : Fin 8} {v : Word} {s t : State} (h : execCurChCfgWrite h p n v s = .next t) :
    t.pending = s.pending ∧
    t.sec.mid = s.sec.mid ∧
    t.sec.devKey = s.sec.devKey := by
  have e := Host.Outcome.next.inj h
  subst e
  simp [id @regReq_keep]

theorem execCurChFsWrite_keep {h : ReqHdr} {p : Bool} {n : Fin 8} {v : Word} {s t : State} (h : execCurChFsWrite h p n v s = .next t) :
    t.pending = s.pending ∧
    t.sec.mid = s.sec.mid ∧
    t.sec.devKey = s.sec.devKey := by
  have e := Host.Outcome.next.inj h
  subst e
  simp [id @regReq_keep]

theorem execCurChOfsWrite_keep {h : ReqHdr} {p : Bool} {n : Fin 8} {v : Word} {s t : State} (h : execCurChOfsWrite h p n v s = .next t) :
    t.pending = s.pending ∧
    t.sec.mid = s.sec.mid ∧
    t.sec.devKey = s.sec.devKey := by
  have e := Host.Outcome.next.inj h
  subst e
  simp [id @regReq_keep]

theorem execCurCalNow_keep {h : ReqHdr} {p : Bool} {s t : State} (h : execCurCalNow h p s = .next t) :
    t.pending = s.pending ∧
    t.sec.mid = s.sec.mid ∧
    t.sec.devKey = s.sec.devKey := by
  have e := Host.Outcome.next.inj h
  subst e
  simp [id @regReq_keep]

theorem execCmpTest_keep {h : ReqHdr} {p : Bool} {s t : State} (h : execCmpTest h p s = .next t) :
    t.pending = s.pending ∧
    t.sec.mid = s.sec.mid ∧
    t.sec.devKey = s.sec.devKey := by
  have e := Host.Outcome.next.inj h
  subst e
  simp [id @regReq_keep]

theorem execHuskCloseReq_keep {h : ReqHdr} {p : Bool} {mask : BitVec 4} {s t : State} (h : execHuskCloseReq h p mask s = .next t) :
    t.pending = s.pending ∧
    t.sec.mid = s.sec.mid ∧
    t.sec.devKey = s.sec.devKey := by
  have e := Host.Outcome.next.inj h
  subst e
  simp [id @regReq_keep]

theorem execHuskOpen_keep {h : ReqHdr} {p : Bool} {mask : BitVec 4} {s t : State} (h : execHuskOpen h p mask s = .next t) :
    t.pending = s.pending ∧
    t.sec.mid = s.sec.mid ∧
    t.sec.devKey = s.sec.devKey := by
  have e := Host.Outcome.next.inj h
  subst e
  simp [id @regReq_keep]

theorem execHuskTripClr_keep {h : ReqHdr} {p : Bool} {mask : BitVec 4} {s t : State} (h : execHuskTripClr h p mask s = .next t) :
    t.pending = s.pending ∧
    t.sec.mid = s.sec.mid ∧
    t.sec.devKey = s.sec.devKey := by
  have e := Host.Outcome.next.inj h
  subst e
  simp [id @regReq_keep]

theorem execDrvWeldCheck_keep {h : ReqHdr} {p : Bool} {mask : BitVec 4} {s t : State} (h : execDrvWeldCheck h p mask s = .next t) :
    t.pending = s.pending ∧
    t.sec.mid = s.sec.mid ∧
    t.sec.devKey = s.sec.devKey := by
  have e := Host.Outcome.next.inj h
  subst e
  simp [id @regReq_keep]

theorem execPairRelease_keep {h : ReqHdr} {p : Bool} {mask : BitVec 16} {s t : State} (h : execPairRelease h p mask s = .next t) :
    t.pending = s.pending ∧
    t.sec.mid = s.sec.mid ∧
    t.sec.devKey = s.sec.devKey := by
  have e := Host.Outcome.next.inj h
  subst e
  simp [id @regReq_keep]

theorem execDbgSessionOpen_keep {h : ReqHdr} {p : Bool} {q : BitVec 4} {s t : State} (h : execDbgSessionOpen h p q s = .next t) :
    t.pending = s.pending ∧
    t.sec.mid = s.sec.mid ∧
    t.sec.devKey = s.sec.devKey := by
  have e := Host.Outcome.next.inj h
  subst e
  simp [id @regReq_keep]

theorem execDbgSessionClose_keep {h : ReqHdr} {p : Bool} {s t : State} (h : execDbgSessionClose h p s = .next t) :
    t.pending = s.pending ∧
    t.sec.mid = s.sec.mid ∧
    t.sec.devKey = s.sec.devKey := by
  have e := Host.Outcome.next.inj h
  subst e
  simp [id @regReq_keep]

theorem execDbgHalt_keep {h : ReqHdr} {p : Bool} {s t : State} (h : execDbgHalt h p s = .next t) :
    t.pending = s.pending ∧
    t.sec.mid = s.sec.mid ∧
    t.sec.devKey = s.sec.devKey := by
  have e := Host.Outcome.next.inj h
  subst e
  simp [id @regReq_keep]

theorem execDbgResume_keep {h : ReqHdr} {p : Bool} {s t : State} (h : execDbgResume h p s = .next t) :
    t.pending = s.pending ∧
    t.sec.mid = s.sec.mid ∧
    t.sec.devKey = s.sec.devKey := by
  have e := Host.Outcome.next.inj h
  subst e
  simp [id @regReq_keep]

theorem execDbgStep_keep {h : ReqHdr} {p : Bool} {s t : State} (h : execDbgStep h p s = .next t) :
    t.pending = s.pending ∧
    t.sec.mid = s.sec.mid ∧
    t.sec.devKey = s.sec.devKey := by
  have e := Host.Outcome.next.inj h
  subst e
  simp [id @regReq_keep]

theorem execDbgRegisterWrite_keep {h : ReqHdr} {p : Bool} {g : DbgReg} {v : Word} {m : WrMeas} {s t : State} (h : execDbgRegisterWrite h p g v m s = .next t) :
    t.pending = s.pending ∧
    t.sec.mid = s.sec.mid ∧
    t.sec.devKey = s.sec.devKey := by
  have e := Host.Outcome.next.inj h
  subst e
  simp [id @regReq_keep]

theorem execTimeResyncRequest_keep {h : ReqHdr} {p : Bool} {s t : State} (h : execTimeResyncRequest h p s = .next t) :
    t.pending = s.pending ∧
    t.sec.mid = s.sec.mid ∧
    t.sec.devKey = s.sec.devKey := by
  have e := Host.Outcome.next.inj h
  subst e
  simp [id @regReq_keep]

theorem execSyncEnWrite_keep {h : ReqHdr} {p : Bool} {on : Bool} {s t : State} (h : execSyncEnWrite h p on s = .next t) :
    t.pending = s.pending ∧
    t.sec.mid = s.sec.mid ∧
    t.sec.devKey = s.sec.devKey := by
  have e := Host.Outcome.next.inj h
  subst e
  simp [id @regReq_keep]

theorem execTimeWallSet_keep {h : ReqHdr} {p : Bool} {hi : Word} {s t : State} (h : execTimeWallSet h p hi s = .next t) :
    t.pending = s.pending ∧
    t.sec.mid = s.sec.mid ∧
    t.sec.devKey = s.sec.devKey := by
  have e := Host.Outcome.next.inj h
  subst e
  simp [id @regReq_keep]

theorem execThermHoldClr_keep {h : ReqHdr} {p : Bool} {s t : State} (h : execThermHoldClr h p s = .next t) :
    t.pending = s.pending ∧
    t.sec.mid = s.sec.mid ∧
    t.sec.devKey = s.sec.devKey := by
  have e := Host.Outcome.next.inj h
  subst e
  simp [id @regReq_keep]

theorem execLedgStmt_keep {h : ReqHdr} {p : Bool} {s t : State} (h : execLedgStmt h p s = .next t) :
    t.pending = s.pending ∧
    t.sec.mid = s.sec.mid ∧
    t.sec.devKey = s.sec.devKey := by
  have e := Host.Outcome.next.inj h
  subst e
  simp [id @regReq_keep]

theorem execLedgNonceWrite_keep {h : ReqHdr} {p : Bool} {hi : Bool} {v : Word} {s t : State} (h : execLedgNonceWrite h p hi v s = .next t) :
    t.pending = s.pending ∧
    t.sec.mid = s.sec.mid ∧
    t.sec.devKey = s.sec.devKey := by
  have e := Host.Outcome.next.inj h
  subst e
  simp [id @regReq_keep]

theorem execLedgEraAdv_keep {h : ReqHdr} {p : Bool} {s t : State} (h : execLedgEraAdv h p s = .next t) :
    t.pending = s.pending ∧
    t.sec.mid = s.sec.mid ∧
    t.sec.devKey = s.sec.devKey := by
  have e := Host.Outcome.next.inj h
  subst e
  simp [id @regReq_keep]

theorem execNvFlush_keep {h : ReqHdr} {p : Bool} {s t : State} (h : execNvFlush h p s = .next t) :
    t.pending = s.pending ∧
    t.sec.mid = s.sec.mid ∧
    t.sec.devKey = s.sec.devKey := by
  have e := Host.Outcome.next.inj h
  subst e
  simp [id @regReq_keep]

theorem execRecChaffClr_keep {h : ReqHdr} {p : Bool} {s t : State} (h : execRecChaffClr h p s = .next t) :
    t.pending = s.pending ∧
    t.sec.mid = s.sec.mid ∧
    t.sec.devKey = s.sec.devKey := by
  have e := Host.Outcome.next.inj h
  subst e
  simp [id @regReq_keep]

theorem execRecFlush_keep {h : ReqHdr} {p : Bool} {s t : State} (h : execRecFlush h p s = .next t) :
    t.pending = s.pending ∧
    t.sec.mid = s.sec.mid ∧
    t.sec.devKey = s.sec.devKey := by
  have e := Host.Outcome.next.inj h
  subst e
  simp [id @regReq_keep]

theorem execRecFormat_keep {h : ReqHdr} {p : Bool} {s t : State} (h : execRecFormat h p s = .next t) :
    t.pending = s.pending ∧
    t.sec.mid = s.sec.mid ∧
    t.sec.devKey = s.sec.devKey := by
  have e := Host.Outcome.next.inj h
  subst e
  simp [id @regReq_keep]

theorem execRecPinAck_keep {h : ReqHdr} {p : Bool} {hi : Word} {s t : State} (h : execRecPinAck h p hi s = .next t) :
    t.pending = s.pending ∧
    t.sec.mid = s.sec.mid ∧
    t.sec.devKey = s.sec.devKey := by
  have e := Host.Outcome.next.inj h
  subst e
  simp [id @regReq_keep]

theorem execHostBudgetWrite_keep {h : ReqHdr} {p : Bool} {t1s : BitVec 16} {can : BitVec 16} {s t : State} (h : execHostBudgetWrite h p t1s can s = .next t) :
    t.pending = s.pending ∧
    t.sec.mid = s.sec.mid ∧
    t.sec.devKey = s.sec.devKey := by
  have e := Host.Outcome.next.inj h
  subst e
  simp [id @regReq_keep]

theorem execPresClose_keep {h : ReqHdr} {p : Bool} {s t : State} (h : execPresClose h p s = .next t) :
    t.pending = s.pending ∧
    t.sec.mid = s.sec.mid ∧
    t.sec.devKey = s.sec.devKey := by
  have e := Host.Outcome.next.inj h
  subst e
  simp [id @regReq_keep]

theorem execSecAdopt_keep {h : ReqHdr} {p : Bool} {mask : BitVec 4} {s t : State} (h : execSecAdopt h p mask s = .next t) :
    t.pending = s.pending ∧
    t.sec.mid = s.sec.mid ∧
    t.sec.devKey = s.sec.devKey := by
  have e := Host.Outcome.next.inj h
  subst e
  simp [id @regReq_keep]

theorem execPwrRun_keep {h : ReqHdr} {p : Bool} {s t : State} (h : execPwrRun h p s = .next t) :
    t.pending = s.pending ∧
    t.sec.mid = s.sec.mid ∧
    t.sec.devKey = s.sec.devKey := by
  have e := Host.Outcome.next.inj h
  subst e
  simp [id @regReq_keep]

theorem execPwrStandby_keep {h : ReqHdr} {p : Bool} {s t : State} (h : execPwrStandby h p s = .next t) :
    t.pending = s.pending ∧
    t.sec.mid = s.sec.mid ∧
    t.sec.devKey = s.sec.devKey := by
  have e := Host.Outcome.next.inj h
  subst e
  simp [id @regReq_keep]

theorem execPwrSleep_keep {h : ReqHdr} {p : Bool} {s t : State} (h : execPwrSleep h p s = .next t) :
    t.pending = s.pending ∧
    t.sec.mid = s.sec.mid ∧
    t.sec.devKey = s.sec.devKey := by
  have e := Host.Outcome.next.inj h
  subst e
  simp [id @regReq_keep]

theorem execPwrShip_keep {h : ReqHdr} {p : Bool} {s t : State} (h : execPwrShip h p s = .next t) :
    t.pending = s.pending ∧
    t.sec.mid = s.sec.mid ∧
    t.sec.devKey = s.sec.devKey := by
  have e := Host.Outcome.next.inj h
  subst e
  simp [id @regReq_keep]

theorem execPwrReset_keep {h : ReqHdr} {p : Bool} {s t : State} (h : execPwrReset h p s = .next t) :
    t.pending = s.pending ∧
    t.sec.mid = s.sec.mid ∧
    t.sec.devKey = s.sec.devKey := by
  have e := Host.Outcome.next.inj h
  subst e
  simp [id @regReq_keep]

theorem execPwrWakeOutClr_keep {h : ReqHdr} {p : Bool} {s t : State} (h : execPwrWakeOutClr h p s = .next t) :
    t.pending = s.pending ∧
    t.sec.mid = s.sec.mid ∧
    t.sec.devKey = s.sec.devKey := by
  have e := Host.Outcome.next.inj h
  subst e
  simp [id @regReq_keep]

theorem execPwrCfgWrite_keep {h : ReqHdr} {p : Bool} {v : Word} {s t : State} (h : execPwrCfgWrite h p v s = .next t) :
    t.pending = s.pending ∧
    t.sec.mid = s.sec.mid ∧
    t.sec.devKey = s.sec.devKey := by
  have e := Host.Outcome.next.inj h
  subst e
  simp [id @regReq_keep]

theorem execBistStart_keep {h : ReqHdr} {p : Bool} {target : BitVec 3} {m : WrMeas} {s t : State} (h : execBistStart h p target m s = .next t) :
    t.pending = s.pending ∧
    t.sec.mid = s.sec.mid ∧
    t.sec.devKey = s.sec.devKey := by
  have e := Host.Outcome.next.inj h
  subst e
  simp [id @regReq_keep]

theorem execBistAbort_keep {h : ReqHdr} {p : Bool} {s t : State} (h : execBistAbort h p s = .next t) :
    t.pending = s.pending ∧
    t.sec.mid = s.sec.mid ∧
    t.sec.devKey = s.sec.devKey := by
  have e := Host.Outcome.next.inj h
  subst e
  simp [id @regReq_keep]

theorem execBistRepairWrite_keep {h : ReqHdr} {p : Bool} {v : Word} {s t : State} (h : execBistRepairWrite h p v s = .next t) :
    t.pending = s.pending ∧
    t.sec.mid = s.sec.mid ∧
    t.sec.devKey = s.sec.devKey := by
  have e := Host.Outcome.next.inj h
  subst e
  simp [id @regReq_keep]

theorem execEvtPendClear_keep {h : ReqHdr} {p : Bool} {i : Fin 4} {v : Word} {s t : State} (h : execEvtPendClear h p i v s = .next t) :
    t.pending = s.pending ∧
    t.sec.mid = s.sec.mid ∧
    t.sec.devKey = s.sec.devKey := by
  have e := Host.Outcome.next.inj h
  subst e
  simp [id @regReq_keep]

theorem execEvtIrqmapWrite_keep {h : ReqHdr} {p : Bool} {i : Fin 8} {v : Word} {s t : State} (h : execEvtIrqmapWrite h p i v s = .next t) :
    t.pending = s.pending ∧
    t.sec.mid = s.sec.mid ∧
    t.sec.devKey = s.sec.devKey := by
  have e := Host.Outcome.next.inj h
  subst e
  simp [id @regReq_keep]

theorem execEvtS3Ack_keep {h : ReqHdr} {p : Bool} {s t : State} (h : execEvtS3Ack h p s = .next t) :
    t.pending = s.pending ∧
    t.sec.mid = s.sec.mid ∧
    t.sec.devKey = s.sec.devKey := by
  have e := Host.Outcome.next.inj h
  subst e
  simp [id @regReq_keep]

theorem execReserveRelease_keep {h : ReqHdr} {p : Bool} {s t : State} (h : execReserveRelease h p s = .next t) :
    t.pending = s.pending ∧
    t.sec.mid = s.sec.mid ∧
    t.sec.devKey = s.sec.devKey := by
  have e := Host.Outcome.next.inj h
  subst e
  simp [id @regReq_keep]

theorem execReserveHold_keep {h : ReqHdr} {p : Bool} {s t : State} (h : execReserveHold h p s = .next t) :
    t.pending = s.pending ∧
    t.sec.mid = s.sec.mid ∧
    t.sec.devKey = s.sec.devKey := by
  have e := Host.Outcome.next.inj h
  subst e
  simp [id @regReq_keep]

theorem execCcReseed_keep {h : ReqHdr} {p : Bool} {s t : State} (h : execCcReseed h p s = .next t) :
    t.pending = s.pending ∧
    t.sec.mid = s.sec.mid ∧
    t.sec.devKey = s.sec.devKey := by
  have e := Host.Outcome.next.inj h
  subst e
  simp [id @regReq_keep]

theorem execEstCharStart_keep {h : ReqHdr} {p : Bool} {s t : State} (h : execEstCharStart h p s = .next t) :
    t.pending = s.pending ∧
    t.sec.mid = s.sec.mid ∧
    t.sec.devKey = s.sec.devKey := by
  have e := Host.Outcome.next.inj h
  subst e
  simp [id @regReq_keep]

theorem execEstCharAbort_keep {h : ReqHdr} {p : Bool} {s t : State} (h : execEstCharAbort h p s = .next t) :
    t.pending = s.pending ∧
    t.sec.mid = s.sec.mid ∧
    t.sec.devKey = s.sec.devKey := by
  have e := Host.Outcome.next.inj h
  subst e
  simp [id @regReq_keep]

theorem execWinClrCell_keep {h : ReqHdr} {p : Bool} {s t : State} (h : execWinClrCell h p s = .next t) :
    t.pending = s.pending ∧
    t.sec.mid = s.sec.mid ∧
    t.sec.devKey = s.sec.devKey := by
  have e := Host.Outcome.next.inj h
  subst e
  simp [id @regReq_keep]

theorem execWinFreeze_keep {h : ReqHdr} {p : Bool} {on : Bool} {s t : State} (h : execWinFreeze h p on s = .next t) :
    t.pending = s.pending ∧
    t.sec.mid = s.sec.mid ∧
    t.sec.devKey = s.sec.devKey := by
  have e := Host.Outcome.next.inj h
  subst e
  simp [id @regReq_keep]

theorem execTimeTnsLatch_keep {h : ReqHdr} {s t : State} (h : execTimeTnsLatch h s = .next t) :
    t.img = s.img ∧
    t.cfg = s.cfg ∧
    t.acq = s.acq ∧
    t.cur = s.cur ∧
    t.krn = s.krn ∧
    t.win = s.win ∧
    t.pairs = s.pairs ∧
    t.time = s.time ∧
    t.therm = s.therm ∧
    t.nv = s.nv ∧
    t.ledg = s.ledg ∧
    t.tally = s.tally ∧
    t.sec = s.sec ∧
    t.bist = s.bist ∧
    t.freeIx = s.freeIx ∧
    t.pending = s.pending ∧
    t.sys.held = s.sys.held ∧
    t.husk.held = s.husk.held ∧
    t.drv.held = s.drv.held ∧
    t.recd.held = s.recd.held ∧
    t.est.held = s.est.held ∧
    t.pwr.held = s.pwr.held ∧
    t.evt.held = s.evt.held ∧
    t.pins.held = s.pins.held := by
  have e := Host.Outcome.next.inj h
  subst e
  simp [id @latchReq_keep]

theorem execLedgBlockLatch_keep {h : ReqHdr} {b : Fin 5} {s t : State} (h : execLedgBlockLatch h b s = .next t) :
    t.img = s.img ∧
    t.cfg = s.cfg ∧
    t.acq = s.acq ∧
    t.cur = s.cur ∧
    t.krn = s.krn ∧
    t.win = s.win ∧
    t.pairs = s.pairs ∧
    t.time = s.time ∧
    t.therm = s.therm ∧
    t.nv = s.nv ∧
    t.ledg = s.ledg ∧
    t.tally = s.tally ∧
    t.sec = s.sec ∧
    t.bist = s.bist ∧
    t.freeIx = s.freeIx ∧
    t.pending = s.pending ∧
    t.sys.held = s.sys.held ∧
    t.husk.held = s.husk.held ∧
    t.drv.held = s.drv.held ∧
    t.recd.held = s.recd.held ∧
    t.est.held = s.est.held ∧
    t.pwr.held = s.pwr.held ∧
    t.evt.held = s.evt.held ∧
    t.pins.held = s.pins.held := by
  have e := Host.Outcome.next.inj h
  subst e
  simp [id @latchReq_keep]

theorem execRecSeqLatch_keep {h : ReqHdr} {oldest : Bool} {s t : State} (h : execRecSeqLatch h oldest s = .next t) :
    t.img = s.img ∧
    t.cfg = s.cfg ∧
    t.acq = s.acq ∧
    t.cur = s.cur ∧
    t.krn = s.krn ∧
    t.win = s.win ∧
    t.pairs = s.pairs ∧
    t.time = s.time ∧
    t.therm = s.therm ∧
    t.nv = s.nv ∧
    t.ledg = s.ledg ∧
    t.tally = s.tally ∧
    t.sec = s.sec ∧
    t.bist = s.bist ∧
    t.freeIx = s.freeIx ∧
    t.pending = s.pending ∧
    t.sys.held = s.sys.held ∧
    t.husk.held = s.husk.held ∧
    t.drv.held = s.drv.held ∧
    t.recd.held = s.recd.held ∧
    t.est.held = s.est.held ∧
    t.pwr.held = s.pwr.held ∧
    t.evt.held = s.evt.held ∧
    t.pins.held = s.pins.held := by
  have e := Host.Outcome.next.inj h
  subst e
  simp [id @latchReq_keep]

end Sys2Proof.Machine
end

