-- ==== Sys2Proof/Laws/KeepHost.lean ====
section
/-! SUPPORT. What the operations of Machine/Host.lean leave unchanged. -/

namespace Sys2Proof.Machine

theorem execRead_keep {h : ReqHdr} {addr : Word} {cnt : BitVec 16} {s t : State} (h : execRead h addr cnt s = .next t) :
    t.img = s.img ∧
    t.cfg = s.cfg ∧
    t.acq = s.acq ∧
    t.cur = s.cur ∧
    t.krn = s.krn ∧
    t.win = s.win ∧
    t.pairs = s.pairs ∧
    t.time = s.time ∧
    t.therm = s.therm ∧
    t.nv = s.nv ∧
    t.ledg = s.ledg ∧
    t.tally = s.tally ∧
    t.sec = s.sec ∧
    t.bist = s.bist ∧
    t.freeIx = s.freeIx ∧
    t.pending = s.pending ∧
    t.sys.held = s.sys.held ∧
    t.husk.held = s.husk.held ∧
    t.drv.held = s.drv.held ∧
    t.recd.held = s.recd.held ∧
    t.est.held = s.est.held ∧
    t.pwr.held = s.pwr.held ∧
    t.evt.held = s.evt.held ∧
    t.pins.held = s.pins.held := by
  have e := Host.Outcome.next.inj h
  subst e
  simp [id @readReq_keep]

theorem execWrite_keep {h : ReqHdr} {addr : Word} {cnt : BitVec 16} {data : List Word} {m : WrMeas} {s t : State} (h : execWrite h addr cnt data m s = .next t) :
    t.pending = s.pending ∧
    t.sec.mid = s.sec.mid ∧
    t.sec.devKey = s.sec.devKey := by
  have e := Host.Outcome.next.inj h
  subst e
  simp [id @writeWords_keep]

theorem execWriteP_keep {h : ReqHdr} {addr : Word} {cnt : BitVec 16} {data : List Word} {m : WrMeas} {s t : State} (h : execWriteP h addr cnt data m s = .next t) :
    t.pending = s.pending ∧
    t.sec.mid = s.sec.mid ∧
    t.sec.devKey = s.sec.devKey := by
  have e := Host.Outcome.next.inj h
  subst e
  simp [id @writeWords_keep]

theorem execUnknownOp_keep {h : ReqHdr} {op : Byte} {s t : State} (h : execUnknownOp h op s = .next t) :
    t.img = s.img ∧
    t.cfg = s.cfg ∧
    t.acq = s.acq ∧
    t.cur = s.cur ∧
    t.krn = s.krn ∧
    t.win = s.win ∧
    t.pairs = s.pairs ∧
    t.time = s.time ∧
    t.therm = s.therm ∧
    t.nv = s.nv ∧
    t.ledg = s.ledg ∧
    t.tally = s.tally ∧
    t.sec = s.sec ∧
    t.bist = s.bist ∧
    t.freeIx = s.freeIx ∧
    t.pending = s.pending ∧
    t.sys.held = s.sys.held ∧
    t.husk.held = s.husk.held ∧
    t.drv.held = s.drv.held ∧
    t.recd.held = s.recd.held ∧
    t.est.held = s.est.held ∧
    t.pwr.held = s.pwr.held ∧
    t.evt.held = s.evt.held ∧
    t.pins.held = s.pins.held := by
  have e := Host.Outcome.next.inj h
  subst e
  simp [id @refuse_keep]
  repeat' split
  all_goals simp [id @refuse_keep]

theorem cursorOpen_keep (k : Nat) (p : Port) (ps : List Byte) (s : State) :
    (cursorOpen k p ps s).sys = s.sys ∧
    (cursorOpen k p ps s).img = s.img ∧
    (cursorOpen k p ps s).cfg = s.cfg ∧
    (cursorOpen k p ps s).ring = s.ring ∧
    (cursorOpen k p ps s).acq = s.acq ∧
    (cursorOpen k p ps s).cur = s.cur ∧
    (cursorOpen k p ps s).husk = s.husk ∧
    (cursorOpen k p ps s).drv = s.drv ∧
    (cursorOpen k p ps s).krn = s.krn ∧
    (cursorOpen k p ps s).est = s.est ∧
    (cursorOpen k p ps s).win = s.win ∧
    (cursorOpen k p ps s).pairs = s.pairs ∧
    (cursorOpen k p ps s).time = s.time ∧
    (cursorOpen k p ps s).therm = s.therm ∧
    (cursorOpen k p ps s).nv = s.nv ∧
    (cursorOpen k p ps s).ledg = s.ledg ∧
    (cursorOpen k p ps s).tally = s.tally ∧
    (cursorOpen k p ps s).host = s.host ∧
    (cursorOpen k p ps s).sec = s.sec ∧
    (cursorOpen k p ps s).pwr = s.pwr ∧
    (cursorOpen k p ps s).bist = s.bist ∧
    (cursorOpen k p ps s).evt = s.evt ∧
    (cursorOpen k p ps s).pins = s.pins ∧
    (cursorOpen k p ps s).freeIx = s.freeIx ∧
    (cursorOpen k p ps s).pending = s.pending := by
  simp [cursorOpen]

theorem streamOpen_keep (p : Port) (stype : Nat) (sid : Nat) (period : Nat) (ps : List Byte) (s : State) :
    (streamOpen p stype sid period ps s).1.sys = s.sys ∧
    (streamOpen p stype sid period ps s).1.img = s.img ∧
    (streamOpen p stype sid period ps s).1.cfg = s.cfg ∧
    (streamOpen p stype sid period ps s).1.ring = s.ring ∧
    (streamOpen p stype sid period ps s).1.acq = s.acq ∧
    (streamOpen p stype sid period ps s).1.cur = s.cur ∧
    (streamOpen p stype sid period ps s).1.husk = s.husk ∧
    (streamOpen p stype sid period ps s).1.drv = s.drv ∧
    (streamOpen p stype sid period ps s).1.krn = s.krn ∧
    (streamOpen p stype sid period ps s).1.est = s.est ∧
    (streamOpen p stype sid period ps s).1.win = s.win ∧
    (streamOpen p stype sid period ps s).1.pairs = s.pairs ∧
    (streamOpen p stype sid period ps s).1.time = s.time ∧
    (streamOpen p stype sid period ps s).1.therm = s.therm ∧
    (streamOpen p stype sid period ps s).1.nv = s.nv ∧
    (streamOpen p stype sid period ps s).1.ledg = s.ledg ∧
    (streamOpen p stype sid period ps s).1.tally = s.tally ∧
    (streamOpen p stype sid period ps s).1.sec = s.sec ∧
    (streamOpen p stype sid period ps s).1.pwr = s.pwr ∧
    (streamOpen p stype sid period ps s).1.bist = s.bist ∧
    (streamOpen p stype sid period ps s).1.evt = s.evt ∧
    (streamOpen p stype sid period ps s).1.pins = s.pins ∧
    (streamOpen p stype sid period ps s).1.freeIx = s.freeIx ∧
    (streamOpen p stype sid period ps s).1.pending = s.pending := by
  simp only [streamOpen]
  repeat' split
  all_goals simp [id @cursorOpen_keep, id @refuse_keep]

theorem streamClose_keep (p : Port) (sid : Nat) (s : State) :
    (streamClose p sid s).1.sys = s.sys ∧
    (streamClose p sid s).1.img = s.img ∧
    (streamClose p sid s).1.cfg = s.cfg ∧
    (streamClose p sid s).1.ring = s.ring ∧
    (streamClose p sid s).1.acq = s.acq ∧
    (streamClose p sid s).1.cur = s.cur ∧
    (streamClose p sid s).1.husk = s.husk ∧
    (streamClose p sid s).1.drv = s.drv ∧
    (streamClose p sid s).1.krn = s.krn ∧
    (streamClose p sid s).1.est = s.est ∧
    (streamClose p sid s).1.win = s.win ∧
    (streamClose p sid s).1.pairs = s.pairs ∧
    (streamClose p sid s).1.time = s.time ∧
    (streamClose p sid s).1.therm = s.therm ∧
    (streamClose p sid s).1.nv = s.nv ∧
    (streamClose p sid s).1.ledg = s.ledg ∧
    (streamClose p sid s).1.tally = s.tally ∧
    (streamClose p sid s).1.sec = s.sec ∧
    (streamClose p sid s).1.pwr = s.pwr ∧
    (streamClose p sid s).1.bist = s.bist ∧
    (streamClose p sid s).1.evt = s.evt ∧
    (streamClose p sid s).1.pins = s.pins ∧
    (streamClose p sid s).1.freeIx = s.freeIx ∧
    (streamClose p sid s).1.pending = s.pending := by
  simp [streamClose, id @closeStreams_keep]

theorem execStreamOpen_keep {h : ReqHdr} {stype : Byte} {sid : Byte} {period : BitVec 16} {ps : List Byte} {s t : State} (h : execStreamOpen h stype sid period ps s = .next t) :
    t.img = s.img ∧
    t.cfg = s.cfg ∧
    t.acq = s.acq ∧
    t.cur = s.cur ∧
    t.krn = s.krn ∧
    t.win = s.win ∧
    t.pairs = s.pairs ∧
    t.time = s.time ∧
    t.therm = s.therm ∧
    t.nv = s.nv ∧
    t.ledg = s.ledg ∧
    t.tally = s.tally ∧
    t.sec = s.sec ∧
    t.bist = s.bist ∧
    t.freeIx = s.freeIx ∧
    t.pending = s.pending ∧
    t.sys.held = s.sys.held ∧
    t.husk.held = s.husk.held ∧
    t.drv.held = s.drv.held ∧
    t.est.held = s.est.held ∧
    t.pwr.held = s.pwr.held ∧
    t.evt.held = s.evt.held ∧
    t.pins.held = s.pins.held := by
  have e := Host.Outcome.next.inj h
  subst e
  simp
  repeat' split
  all_goals simp [id @streamClose_keep, id @streamOpen_keep]

theorem execStreamClose_keep {h : ReqHdr} {sid : Byte} {s t : State} (h : execStreamClose h sid s = .next t) :
    t.img = s.img ∧
    t.cfg = s.cfg ∧
    t.acq = s.acq ∧
    t.cur = s.cur ∧
    t.krn = s.krn ∧
    t.win = s.win ∧
    t.pairs = s.pairs ∧
    t.time = s.time ∧
    t.therm = s.therm ∧
    t.nv = s.nv ∧
    t.ledg = s.ledg ∧
    t.tally = s.tally ∧
    t.sec = s.sec ∧
    t.bist = s.bist ∧
    t.freeIx = s.freeIx ∧
    t.pending = s.pending ∧
    t.sys.held = s.sys.held ∧
    t.husk.held = s.husk.held ∧
    t.drv.held = s.drv.held ∧
    t.est.held = s.est.held ∧
    t.pwr.held = s.pwr.held ∧
    t.evt.held = s.evt.held ∧
    t.pins.held = s.pins.held := by
  have e := Host.Outcome.next.inj h
  subst e
  simp [id @streamClose_keep]

theorem snapshot_keep (k : Nat) (x : Stream) (t : Nat) (s : State) :
    (snapshot k x t s).sys = s.sys ∧
    (snapshot k x t s).img = s.img ∧
    (snapshot k x t s).cfg = s.cfg ∧
    (snapshot k x t s).ring = s.ring ∧
    (snapshot k x t s).acq = s.acq ∧
    (snapshot k x t s).cur = s.cur ∧
    (snapshot k x t s).husk = s.husk ∧
    (snapshot k x t s).drv = s.drv ∧
    (snapshot k x t s).krn = s.krn ∧
    (snapshot k x t s).est = s.est ∧
    (snapshot k x t s).win = s.win ∧
    (snapshot k x t s).pairs = s.pairs ∧
    (snapshot k x t s).time = s.time ∧
    (snapshot k x t s).therm = s.therm ∧
    (snapshot k x t s).nv = s.nv ∧
    (snapshot k x t s).ledg = s.ledg ∧
    (snapshot k x t s).tally = s.tally ∧
    (snapshot k x t s).recd = s.recd ∧
    (snapshot k x t s).sec = s.sec ∧
    (snapshot k x t s).pwr = s.pwr ∧
    (snapshot k x t s).bist = s.bist ∧
    (snapshot k x t s).evt = s.evt ∧
    (snapshot k x t s).pins = s.pins ∧
    (snapshot k x t s).freeIx = s.freeIx ∧
    (snapshot k x t s).pending = s.pending := by
  simp [snapshot, id @modPort_keep]

theorem execStreamSnapshot_keep {k : Fin 8} {s t : State} (h : execStreamSnapshot k s = .next t) :
    t.img = s.img ∧
    t.cfg = s.cfg ∧
    t.acq = s.acq ∧
    t.cur = s.cur ∧
    t.krn = s.krn ∧
    t.win = s.win ∧
    t.pairs = s.pairs ∧
    t.time = s.time ∧
    t.therm = s.therm ∧
    t.nv = s.nv ∧
    t.ledg = s.ledg ∧
    t.tally = s.tally ∧
    t.sec = s.sec ∧
    t.bist = s.bist ∧
    t.freeIx = s.freeIx ∧
    t.pending = s.pending ∧
    t.sys.held = s.sys.held ∧
    t.husk.held = s.husk.held ∧
    t.drv.held = s.drv.held ∧
    t.recd.held = s.recd.held ∧
    t.est.held = s.est.held ∧
    t.pwr.held = s.pwr.held ∧
    t.evt.held = s.evt.held ∧
    t.pins.held = s.pins.held := by
  have e := Host.Outcome.next.inj h
  subst e
  simp
  repeat' split
  all_goals simp [id @settle_keep, id @snapshot_keep]

theorem recPart_keep (k : Nat) (x : Stream) (bad : List Nat) (s : State) :
    (recPart k x bad s).sys = s.sys ∧
    (recPart k x bad s).img = s.img ∧
    (recPart k x bad s).cfg = s.cfg ∧
    (recPart k x bad s).ring = s.ring ∧
    (recPart k x bad s).acq = s.acq ∧
    (recPart k x bad s).cur = s.cur ∧
    (recPart k x bad s).husk = s.husk ∧
    (recPart k x bad s).drv = s.drv ∧
    (recPart k x bad s).krn = s.krn ∧
    (recPart k x bad s).est = s.est ∧
    (recPart k x bad s).win = s.win ∧
    (recPart k x bad s).pairs = s.pairs ∧
    (recPart k x bad s).time = s.time ∧
    (recPart k x bad s).therm = s.therm ∧
    (recPart k x bad s).nv = s.nv ∧
    (recPart k x bad s).ledg = s.ledg ∧
    (recPart k x bad s).tally = s.tally ∧
    (recPart k x bad s).sec = s.sec ∧
    (recPart k x bad s).pwr = s.pwr ∧
    (recPart k x bad s).bist = s.bist ∧
    (recPart k x bad s).evt = s.evt ∧
    (recPart k x bad s).pins = s.pins ∧
    (recPart k x bad s).freeIx = s.freeIx ∧
    (recPart k x bad s).pending = s.pending := by
  simp [recPart, id @txPush_keep]

theorem snapSend_keep (k : Nat) (x : Stream) (s : State) :
    (snapSend k x s).sys = s.sys ∧
    (snapSend k x s).img = s.img ∧
    (snapSend k x s).cfg = s.cfg ∧
    (snapSend k x s).ring = s.ring ∧
    (snapSend k x s).acq = s.acq ∧
    (snapSend k x s).cur = s.cur ∧
    (snapSend k x s).husk = s.husk ∧
    (snapSend k x s).drv = s.drv ∧
    (snapSend k x s).krn = s.krn ∧
    (snapSend k x s).est = s.est ∧
    (snapSend k x s).win = s.win ∧
    (snapSend k x s).pairs = s.pairs ∧
    (snapSend k x s).time = s.time ∧
    (snapSend k x s).therm = s.therm ∧
    (snapSend k x s).nv = s.nv ∧
    (snapSend k x s).ledg = s.ledg ∧
    (snapSend k x s).tally = s.tally ∧
    (snapSend k x s).recd = s.recd ∧
    (snapSend k x s).sec = s.sec ∧
    (snapSend k x s).pwr = s.pwr ∧
    (snapSend k x s).bist = s.bist ∧
    (snapSend k x s).evt = s.evt ∧
    (snapSend k x s).pins = s.pins ∧
    (snapSend k x s).freeIx = s.freeIx ∧
    (snapSend k x s).pending = s.pending := by
  unfold snapSend
  repeat' split
  all_goals simp [id @txPush_keep]

theorem execStreamPartSend_keep {k : Fin 8} {bad : List (BitVec 48)} {s t : State} (h : execStreamPartSend k bad s = .next t) :
    t.img = s.img ∧
    t.cfg = s.cfg ∧
    t.acq = s.acq ∧
    t.cur = s.cur ∧
    t.krn = s.krn ∧
    t.win = s.win ∧
    t.pairs = s.pairs ∧
    t.time = s.time ∧
    t.therm = s.therm ∧
    t.nv = s.nv ∧
    t.ledg = s.ledg ∧
    t.tally = s.tally ∧
    t.sec = s.sec ∧
    t.bist = s.bist ∧
    t.freeIx = s.freeIx ∧
    t.pending = s.pending ∧
    t.sys.held = s.sys.held ∧
    t.husk.held = s.husk.held ∧
    t.drv.held = s.drv.held ∧
    t.est.held = s.est.held ∧
    t.pwr.held = s.pwr.held ∧
    t.evt.held = s.evt.held ∧
    t.pins.held = s.pins.held := by
  have e := Host.Outcome.next.inj h
  subst e
  repeat' split
  all_goals simp [id @recPart_keep, id @settle_keep, id @snapSend_keep]

theorem attest_keep (body : List Byte) (s : State) :
    (attest body s).1.sys = s.sys ∧
    (attest body s).1.img = s.img ∧
    (attest body s).1.cfg = s.cfg ∧
    (attest body s).1.ring = s.ring ∧
    (attest body s).1.acq = s.acq ∧
    (attest body s).1.cur = s.cur ∧
    (attest body s).1.husk = s.husk ∧
    (attest body s).1.drv = s.drv ∧
    (attest body s).1.krn = s.krn ∧
    (attest body s).1.est = s.est ∧
    (attest body s).1.win = s.win ∧
    (attest body s).1.pairs = s.pairs ∧
    (attest body s).1.time = s.time ∧
    (attest body s).1.therm = s.therm ∧
    (attest body s).1.nv = s.nv ∧
    (attest body s).1.ledg = s.ledg ∧
    (attest body s).1.tally = s.tally ∧
    (attest body s).1.recd = s.recd ∧
    (attest body s).1.host = s.host ∧
    (attest body s).1.sec = s.sec ∧
    (attest body s).1.pwr = s.pwr ∧
    (attest body s).1.bist = s.bist ∧
    (attest body s).1.evt = s.evt ∧
    (attest body s).1.pins = s.pins ∧
    (attest body s).1.freeIx = s.freeIx ∧
    (attest body s).1.pending = s.pending := by
  unfold attest
  repeat' split
  all_goals simp [id @refuse_keep]

theorem keyLoadReq_keep (body : List Byte) (s : State) :
    (keyLoadReq body s).1.sys = s.sys ∧
    (keyLoadReq body s).1.img = s.img ∧
    (keyLoadReq body s).1.cfg = s.cfg ∧
    (keyLoadReq body s).1.ring = s.ring ∧
    (keyLoadReq body s).1.acq = s.acq ∧
    (keyLoadReq body s).1.cur = s.cur ∧
    (keyLoadReq body s).1.husk = s.husk ∧
    (keyLoadReq body s).1.drv = s.drv ∧
    (keyLoadReq body s).1.krn = s.krn ∧
    (keyLoadReq body s).1.est = s.est ∧
    (keyLoadReq body s).1.win = s.win ∧
    (keyLoadReq body s).1.pairs = s.pairs ∧
    (keyLoadReq body s).1.time = s.time ∧
    (keyLoadReq body s).1.therm = s.therm ∧
    (keyLoadReq body s).1.ledg = s.ledg ∧
    (keyLoadReq body s).1.tally = s.tally ∧
    (keyLoadReq body s).1.host = s.host ∧
    (keyLoadReq body s).1.sec = s.sec ∧
    (keyLoadReq body s).1.pwr = s.pwr ∧
    (keyLoadReq body s).1.bist = s.bist ∧
    (keyLoadReq body s).1.pins = s.pins ∧
    (keyLoadReq body s).1.freeIx = s.freeIx ∧
    (keyLoadReq body s).1.pending = s.pending ∧
    (keyLoadReq body s).1.recd.held = s.recd.held ∧
    (keyLoadReq body s).1.evt.held = s.evt.held := by
  simp only [keyLoadReq]
  repeat' split
  all_goals simp [id @keyLoad_keep, id @refuse_keep]

theorem challengeReq_keep (kind : Nat) (body : List Byte) (s : State) :
    (challengeReq kind body s).1.sys = s.sys ∧
    (challengeReq kind body s).1.img = s.img ∧
    (challengeReq kind body s).1.cfg = s.cfg ∧
    (challengeReq kind body s).1.ring = s.ring ∧
    (challengeReq kind body s).1.acq = s.acq ∧
    (challengeReq kind body s).1.cur = s.cur ∧
    (challengeReq kind body s).1.husk = s.husk ∧
    (challengeReq kind body s).1.drv = s.drv ∧
    (challengeReq kind body s).1.krn = s.krn ∧
    (challengeReq kind body s).1.est = s.est ∧
    (challengeReq kind body s).1.win = s.win ∧
    (challengeReq kind body s).1.pairs = s.pairs ∧
    (challengeReq kind body s).1.time = s.time ∧
    (challengeReq kind body s).1.therm = s.therm ∧
    (challengeReq kind body s).1.ledg = s.ledg ∧
    (challengeReq kind body s).1.tally = s.tally ∧
    (challengeReq kind body s).1.host = s.host ∧
    (challengeReq kind body s).1.sec = s.sec ∧
    (challengeReq kind body s).1.pwr = s.pwr ∧
    (challengeReq kind body s).1.bist = s.bist ∧
    (challengeReq kind body s).1.pins = s.pins ∧
    (challengeReq kind body s).1.freeIx = s.freeIx ∧
    (challengeReq kind body s).1.pending = s.pending ∧
    (challengeReq kind body s).1.recd.held = s.recd.held ∧
    (challengeReq kind body s).1.evt.held = s.evt.held := by
  unfold challengeReq
  repeat' split
  all_goals simp [id @attest_keep, id @keyLoadReq_keep, id @refuse_keep]

theorem execChallengeAttest_keep {h : ReqHdr} {kind : Byte} {body : List Byte} {s t : State} (h : execChallengeAttest h kind body s = .next t) :
    t.img = s.img ∧
    t.cfg = s.cfg ∧
    t.acq = s.acq ∧
    t.cur = s.cur ∧
    t.krn = s.krn ∧
    t.win = s.win ∧
    t.pairs = s.pairs ∧
    t.time = s.time ∧
    t.therm = s.therm ∧
    t.ledg = s.ledg ∧
    t.tally = s.tally ∧
    t.sec = s.sec ∧
    t.bist = s.bist ∧
    t.freeIx = s.freeIx ∧
    t.pending = s.pending ∧
    t.sys.held = s.sys.held ∧
    t.husk.held = s.husk.held ∧
    t.drv.held = s.drv.held ∧
    t.recd.held = s.recd.held ∧
    t.est.held = s.est.held ∧
    t.pwr.held = s.pwr.held ∧
    t.evt.held = s.evt.held ∧
    t.pins.held = s.pins.held := by
  have e := Host.Outcome.next.inj h
  subst e
  simp [id @challengeReq_keep]

theorem execChallengeKeyLoad_keep {h : ReqHdr} {body : List Byte} {s t : State} (h : execChallengeKeyLoad h body s = .next t) :
    t.img = s.img ∧
    t.cfg = s.cfg ∧
    t.acq = s.acq ∧
    t.cur = s.cur ∧
    t.krn = s.krn ∧
    t.win = s.win ∧
    t.pairs = s.pairs ∧
    t.time = s.time ∧
    t.therm = s.therm ∧
    t.ledg = s.ledg ∧
    t.tally = s.tally ∧
    t.sec = s.sec ∧
    t.bist = s.bist ∧
    t.freeIx = s.freeIx ∧
    t.pending = s.pending ∧
    t.sys.held = s.sys.held ∧
    t.husk.held = s.husk.held ∧
    t.drv.held = s.drv.held ∧
    t.recd.held = s.recd.held ∧
    t.est.held = s.est.held ∧
    t.pwr.held = s.pwr.held ∧
    t.evt.held = s.evt.held ∧
    t.pins.held = s.pins.held := by
  have e := Host.Outcome.next.inj h
  subst e
  simp [id @challengeReq_keep]

theorem execJoin_keep {p : Port} {s t : State} (h : execJoin p s = .next t) :
    t.img = s.img ∧
    t.cfg = s.cfg ∧
    t.acq = s.acq ∧
    t.cur = s.cur ∧
    t.krn = s.krn ∧
    t.win = s.win ∧
    t.pairs = s.pairs ∧
    t.time = s.time ∧
    t.therm = s.therm ∧
    t.nv = s.nv ∧
    t.ledg = s.ledg ∧
    t.tally = s.tally ∧
    t.sec = s.sec ∧
    t.bist = s.bist ∧
    t.freeIx = s.freeIx ∧
    t.pending = s.pending ∧
    t.sys.held = s.sys.held ∧
    t.husk.held = s.husk.held ∧
    t.drv.held = s.drv.held ∧
    t.recd.held = s.recd.held ∧
    t.est.held = s.est.held ∧
    t.pwr.held = s.pwr.held ∧
    t.evt.held = s.evt.held ∧
    t.pins.held = s.pins.held := by
  have e := Host.Outcome.next.inj h
  subst e
  dsimp only
  repeat' split
  all_goals simp [id @modPort_keep, id @settle_keep, id @txPush_keep]

theorem execJoinRetry_keep {p : Port} {lost : Bool} {s t : State} (h : execJoinRetry p lost s = .next t) :
    t.sys = s.sys ∧
    t.img = s.img ∧
    t.cfg = s.cfg ∧
    t.ring = s.ring ∧
    t.acq = s.acq ∧
    t.cur = s.cur ∧
    t.husk = s.husk ∧
    t.drv = s.drv ∧
    t.krn = s.krn ∧
    t.est = s.est ∧
    t.win = s.win ∧
    t.pairs = s.pairs ∧
    t.time = s.time ∧
    t.therm = s.therm ∧
    t.nv = s.nv ∧
    t.ledg = s.ledg ∧
    t.tally = s.tally ∧
    t.recd = s.recd ∧
    t.sec = s.sec ∧
    t.pwr = s.pwr ∧
    t.bist = s.bist ∧
    t.evt = s.evt ∧
    t.pins = s.pins ∧
    t.pending = s.pending := by
  have e := Host.Outcome.next.inj h
  subst e
  dsimp only
  repeat' split
  all_goals simp [id @modPort_keep, id @takeFree_keep]

theorem closeNodeStreams_keep (s : State) :
    (closeNodeStreams s).sys = s.sys ∧
    (closeNodeStreams s).img = s.img ∧
    (closeNodeStreams s).cfg = s.cfg ∧
    (closeNodeStreams s).ring = s.ring ∧
    (closeNodeStreams s).acq = s.acq ∧
    (closeNodeStreams s).cur = s.cur ∧
    (closeNodeStreams s).husk = s.husk ∧
    (closeNodeStreams s).drv = s.drv ∧
    (closeNodeStreams s).krn = s.krn ∧
    (closeNodeStreams s).est = s.est ∧
    (closeNodeStreams s).win = s.win ∧
    (closeNodeStreams s).pairs = s.pairs ∧
    (closeNodeStreams s).time = s.time ∧
    (closeNodeStreams s).therm = s.therm ∧
    (closeNodeStreams s).nv = s.nv ∧
    (closeNodeStreams s).ledg = s.ledg ∧
    (closeNodeStreams s).tally = s.tally ∧
    (closeNodeStreams s).sec = s.sec ∧
    (closeNodeStreams s).pwr = s.pwr ∧
    (closeNodeStreams s).bist = s.bist ∧
    (closeNodeStreams s).evt = s.evt ∧
    (closeNodeStreams s).pins = s.pins ∧
    (closeNodeStreams s).freeIx = s.freeIx ∧
    (closeNodeStreams s).pending = s.pending := by
  simp [closeNodeStreams, id @closeStreams_keep]

theorem dropNode_keep (p : Port) (cause : Nat) (s : State) :
    (dropNode p cause s).sys = s.sys ∧
    (dropNode p cause s).img = s.img ∧
    (dropNode p cause s).cfg = s.cfg ∧
    (dropNode p cause s).ring = s.ring ∧
    (dropNode p cause s).acq = s.acq ∧
    (dropNode p cause s).cur = s.cur ∧
    (dropNode p cause s).husk = s.husk ∧
    (dropNode p cause s).drv = s.drv ∧
    (dropNode p cause s).krn = s.krn ∧
    (dropNode p cause s).est = s.est ∧
    (dropNode p cause s).win = s.win ∧
    (dropNode p cause s).pairs = s.pairs ∧
    (dropNode p cause s).time = s.time ∧
    (dropNode p cause s).therm = s.therm ∧
    (dropNode p cause s).nv = s.nv ∧
    (dropNode p cause s).ledg = s.ledg ∧
    (dropNode p cause s).tally = s.tally ∧
    (dropNode p cause s).sec = s.sec ∧
    (dropNode p cause s).pwr = s.pwr ∧
    (dropNode p cause s).bist = s.bist ∧
    (dropNode p cause s).pins = s.pins ∧
    (dropNode p cause s).freeIx = s.freeIx ∧
    (dropNode p cause s).pending = s.pending ∧
    (dropNode p cause s).evt.held = s.evt.held := by
  unfold dropNode
  repeat' split
  all_goals simp [id @closeNodeStreams_keep, id @emit_keep, id @modPort_keep]

theorem takeNode_keep (p : Port) (n : Nat) (ncnt : Nat) (s : State) :
    (takeNode p n ncnt s).sys = s.sys ∧
    (takeNode p n ncnt s).img = s.img ∧
    (takeNode p n ncnt s).cfg = s.cfg ∧
    (takeNode p n ncnt s).ring = s.ring ∧
    (takeNode p n ncnt s).acq = s.acq ∧
    (takeNode p n ncnt s).cur = s.cur ∧
    (takeNode p n ncnt s).husk = s.husk ∧
    (takeNode p n ncnt s).drv = s.drv ∧
    (takeNode p n ncnt s).est = s.est ∧
    (takeNode p n ncnt s).pairs = s.pairs ∧
    (takeNode p n ncnt s).time = s.time ∧
    (takeNode p n ncnt s).therm = s.therm ∧
    (takeNode p n ncnt s).ledg = s.ledg ∧
    (takeNode p n ncnt s).tally = s.tally ∧
    (takeNode p n ncnt s).sec = s.sec ∧
    (takeNode p n ncnt s).pwr = s.pwr ∧
    (takeNode p n ncnt s).bist = s.bist ∧
    (takeNode p n ncnt s).pins = s.pins ∧
    (takeNode p n ncnt s).freeIx = s.freeIx ∧
    (takeNode p n ncnt s).pending = s.pending ∧
    (takeNode p n ncnt s).evt.held = s.evt.held := by
  simp [takeNode, id @closeNodeStreams_keep, id @emit_keep, id @modPort_keep, id @nvQueue_keep]

theorem assignOwn_keep (p : Port) (snid : Nat) (ncnt : Nat) (s : State) :
    (assignOwn p snid ncnt s).1.sys = s.sys ∧
    (assignOwn p snid ncnt s).1.img = s.img ∧
    (assignOwn p snid ncnt s).1.cfg = s.cfg ∧
    (assignOwn p snid ncnt s).1.ring = s.ring ∧
    (assignOwn p snid ncnt s).1.acq = s.acq ∧
    (assignOwn p snid ncnt s).1.cur = s.cur ∧
    (assignOwn p snid ncnt s).1.husk = s.husk ∧
    (assignOwn p snid ncnt s).1.drv = s.drv ∧
    (assignOwn p snid ncnt s).1.est = s.est ∧
    (assignOwn p snid ncnt s).1.pairs = s.pairs ∧
    (assignOwn p snid ncnt s).1.time = s.time ∧
    (assignOwn p snid ncnt s).1.therm = s.therm ∧
    (assignOwn p snid ncnt s).1.ledg = s.ledg ∧
    (assignOwn p snid ncnt s).1.tally = s.tally ∧
    (assignOwn p snid ncnt s).1.sec = s.sec ∧
    (assignOwn p snid ncnt s).1.pwr = s.pwr ∧
    (assignOwn p snid ncnt s).1.bist = s.bist ∧
    (assignOwn p snid ncnt s).1.pins = s.pins ∧
    (assignOwn p snid ncnt s).1.freeIx = s.freeIx ∧
    (assignOwn p snid ncnt s).1.pending = s.pending ∧
    (assignOwn p snid ncnt s).1.evt.held = s.evt.held := by
  unfold assignOwn
  repeat' split
  all_goals simp [id @accept_keep, id @dropNode_keep, id @refuse_keep, id @takeNode_keep]

theorem execAssign_keep {h : ReqHdr} {mid : BitVec 64} {snid : BitVec 16} {ncnt : Byte} {s t : State} (h : execAssign h mid snid ncnt s = .next t) :
    t.img = s.img ∧
    t.cfg = s.cfg ∧
    t.acq = s.acq ∧
    t.cur = s.cur ∧
    t.pairs = s.pairs ∧
    t.time = s.time ∧
    t.therm = s.therm ∧
    t.ledg = s.ledg ∧
    t.tally = s.tally ∧
    t.sec = s.sec ∧
    t.bist = s.bist ∧
    t.freeIx = s.freeIx ∧
    t.pending = s.pending ∧
    t.sys.held = s.sys.held ∧
    t.husk.held = s.husk.held ∧
    t.drv.held = s.drv.held ∧
    t.est.held = s.est.held ∧
    t.pwr.held = s.pwr.held ∧
    t.evt.held = s.evt.held ∧
    t.pins.held = s.pins.held := by
  have e := Host.Outcome.next.inj h
  subst e
  simp [id @assignOwn_keep, id @dropNode_keep, id @linkNote_keep, id @noteFrame_keep, id @settle_keep]
  repeat' split
  all_goals simp [id @assignOwn_keep, id @dropNode_keep, id @noteFrame_keep, id @settle_keep]

theorem execKeepAlive_keep  {s t : State} (h : execKeepAlive s = .next t) :
    t.img = s.img ∧
    t.cfg = s.cfg ∧
    t.acq = s.acq ∧
    t.cur = s.cur ∧
    t.krn = s.krn ∧
    t.win = s.win ∧
    t.pairs = s.pairs ∧
    t.time = s.time ∧
    t.therm = s.therm ∧
    t.nv = s.nv ∧
    t.ledg = s.ledg ∧
    t.tally = s.tally ∧
    t.sec = s.sec ∧
    t.bist = s.bist ∧
    t.freeIx = s.freeIx ∧
    t.pending = s.pending ∧
    t.sys.held = s.sys.held ∧
    t.husk.held = s.husk.held ∧
    t.drv.held = s.drv.held ∧
    t.recd.held = s.recd.held ∧
    t.est.held = s.est.held ∧
    t.pwr.held = s.pwr.held ∧
    t.evt.held = s.evt.held ∧
    t.pins.held = s.pins.held := by
  have e := Host.Outcome.next.inj h
  subst e
  dsimp only
  repeat' split
  all_goals simp [id @settle_keep, id @txPush_keep]

theorem execSpiTransaction_keep {frame : Option Bool} {s t : State} (h : execSpiTransaction frame s = .next t) :
    t.img = s.img ∧
    t.cfg = s.cfg ∧
    t.acq = s.acq ∧
    t.cur = s.cur ∧
    t.krn = s.krn ∧
    t.win = s.win ∧
    t.pairs = s.pairs ∧
    t.time = s.time ∧
    t.therm = s.therm ∧
    t.nv = s.nv ∧
    t.ledg = s.ledg ∧
    t.tally = s.tally ∧
    t.sec = s.sec ∧
    t.bist = s.bist ∧
    t.freeIx = s.freeIx ∧
    t.pending = s.pending ∧
    t.sys.held = s.sys.held ∧
    t.husk.held = s.husk.held ∧
    t.drv.held = s.drv.held ∧
    t.recd.held = s.recd.held ∧
    t.est.held = s.est.held ∧
    t.pwr.held = s.pwr.held ∧
    t.evt.held = s.evt.held ∧
    t.pins.held = s.pins.held := by
  have e := Host.Outcome.next.inj h
  subst e
  dsimp only
  repeat' split
  all_goals simp [id @modPort_keep, id @settle_keep, id @txPop_keep]

theorem execSpiEarlyEnd_keep  {s t : State} (h : execSpiEarlyEnd s = .next t) :
    t.sys = s.sys ∧
    t.img = s.img ∧
    t.cfg = s.cfg ∧
    t.ring = s.ring ∧
    t.acq = s.acq ∧
    t.cur = s.cur ∧
    t.husk = s.husk ∧
    t.drv = s.drv ∧
    t.krn = s.krn ∧
    t.est = s.est ∧
    t.win = s.win ∧
    t.pairs = s.pairs ∧
    t.time = s.time ∧
    t.therm = s.therm ∧
    t.nv = s.nv ∧
    t.ledg = s.ledg ∧
    t.tally = s.tally ∧
    t.recd = s.recd ∧
    t.sec = s.sec ∧
    t.pwr = s.pwr ∧
    t.bist = s.bist ∧
    t.evt = s.evt ∧
    t.pins = s.pins ∧
    t.freeIx = s.freeIx ∧
    t.pending = s.pending := by
  have e := Host.Outcome.next.inj h
  subst e
  simp

theorem execSegmentTimeout_keep  {s t : State} (h : execSegmentTimeout s = .next t) :
    t.sys = s.sys ∧
    t.img = s.img ∧
    t.cfg = s.cfg ∧
    t.ring = s.ring ∧
    t.acq = s.acq ∧
    t.cur = s.cur ∧
    t.husk = s.husk ∧
    t.drv = s.drv ∧
    t.krn = s.krn ∧
    t.est = s.est ∧
    t.win = s.win ∧
    t.pairs = s.pairs ∧
    t.time = s.time ∧
    t.therm = s.therm ∧
    t.nv = s.nv ∧
    t.ledg = s.ledg ∧
    t.tally = s.tally ∧
    t.recd = s.recd ∧
    t.sec = s.sec ∧
    t.pwr = s.pwr ∧
    t.bist = s.bist ∧
    t.evt = s.evt ∧
    t.pins = s.pins ∧
    t.freeIx = s.freeIx ∧
    t.pending = s.pending := by
  have e := Host.Outcome.next.inj h
  subst e
  simp [id @modPort_keep]

theorem execCanBusOff_keep {ev : CanEvent} {errors : Nat} {s t : State} (h : execCanBusOff ev errors s = .next t) :
    t.img = s.img ∧
    t.cfg = s.cfg ∧
    t.acq = s.acq ∧
    t.cur = s.cur ∧
    t.krn = s.krn ∧
    t.win = s.win ∧
    t.pairs = s.pairs ∧
    t.time = s.time ∧
    t.therm = s.therm ∧
    t.nv = s.nv ∧
    t.ledg = s.ledg ∧
    t.tally = s.tally ∧
    t.sec = s.sec ∧
    t.bist = s.bist ∧
    t.freeIx = s.freeIx ∧
    t.pending = s.pending ∧
    t.sys.held = s.sys.held ∧
    t.husk.held = s.husk.held ∧
    t.drv.held = s.drv.held ∧
    t.recd.held = s.recd.held ∧
    t.est.held = s.est.held ∧
    t.pwr.held = s.pwr.held ∧
    t.evt.held = s.evt.held ∧
    t.pins.held = s.pins.held := by
  have e := Host.Outcome.next.inj h
  subst e
  dsimp only
  repeat' split
  all_goals simp [id @emit_keep, id @settle_keep]

end Sys2Proof.Machine
end

