-- ==== Sys2Proof/Laws/KeepTick.lean ====
section
/-! SUPPORT. What the operations of Machine/Tick.lean leave unchanged. -/

namespace Sys2Proof.Machine

theorem portSend_keep (s : State) (p : Port) :
    (portSend s p).sys = s.sys ∧
    (portSend s p).img = s.img ∧
    (portSend s p).cfg = s.cfg ∧
    (portSend s p).ring = s.ring ∧
    (portSend s p).acq = s.acq ∧
    (portSend s p).cur = s.cur ∧
    (portSend s p).husk = s.husk ∧
    (portSend s p).drv = s.drv ∧
    (portSend s p).krn = s.krn ∧
    (portSend s p).est = s.est ∧
    (portSend s p).win = s.win ∧
    (portSend s p).pairs = s.pairs ∧
    (portSend s p).time = s.time ∧
    (portSend s p).therm = s.therm ∧
    (portSend s p).nv = s.nv ∧
    (portSend s p).ledg = s.ledg ∧
    (portSend s p).tally = s.tally ∧
    (portSend s p).recd = s.recd ∧
    (portSend s p).sec = s.sec ∧
    (portSend s p).pwr = s.pwr ∧
    (portSend s p).bist = s.bist ∧
    (portSend s p).evt = s.evt ∧
    (portSend s p).pins = s.pins ∧
    (portSend s p).freeIx = s.freeIx ∧
    (portSend s p).pending = s.pending := by
  simp [portSend, id @txPop_keep]

theorem vsupTick_keep (s : State) :
    (vsupTick s).sys = s.sys ∧
    (vsupTick s).img = s.img ∧
    (vsupTick s).cfg = s.cfg ∧
    (vsupTick s).ring = s.ring ∧
    (vsupTick s).acq = s.acq ∧
    (vsupTick s).cur = s.cur ∧
    (vsupTick s).husk = s.husk ∧
    (vsupTick s).drv = s.drv ∧
    (vsupTick s).krn = s.krn ∧
    (vsupTick s).est = s.est ∧
    (vsupTick s).win = s.win ∧
    (vsupTick s).pairs = s.pairs ∧
    (vsupTick s).time = s.time ∧
    (vsupTick s).therm = s.therm ∧
    (vsupTick s).nv = s.nv ∧
    (vsupTick s).ledg = s.ledg ∧
    (vsupTick s).tally = s.tally ∧
    (vsupTick s).recd = s.recd ∧
    (vsupTick s).host = s.host ∧
    (vsupTick s).sec = s.sec ∧
    (vsupTick s).bist = s.bist ∧
    (vsupTick s).evt = s.evt ∧
    (vsupTick s).pins = s.pins ∧
    (vsupTick s).freeIx = s.freeIx ∧
    (vsupTick s).pending = s.pending := by
  simp [vsupTick]

theorem tick_keep (s : State) :
    (tick s).sys = s.sys ∧
    (tick s).img = s.img ∧
    (tick s).cfg = s.cfg ∧
    (tick s).ring = s.ring ∧
    (tick s).acq = s.acq ∧
    (tick s).cur = s.cur ∧
    (tick s).husk = s.husk ∧
    (tick s).drv = s.drv ∧
    (tick s).krn = s.krn ∧
    (tick s).est = s.est ∧
    (tick s).win = s.win ∧
    (tick s).pairs = s.pairs ∧
    (tick s).therm = s.therm ∧
    (tick s).nv = s.nv ∧
    (tick s).tally = s.tally ∧
    (tick s).recd = s.recd ∧
    (tick s).sec = s.sec ∧
    (tick s).bist = s.bist ∧
    (tick s).evt = s.evt ∧
    (tick s).pins = s.pins ∧
    (tick s).freeIx = s.freeIx ∧
    (tick s).pending = s.pending := by
  simp [tick, id @portSend_keep, id @tnsTo_keep, id @vsupTick_keep]

end Sys2Proof.Machine
end

