-- ==== Sys2Proof/Laws/Tab.lean ====
section
/-! SUPPORT. What a numbered array holds after an entry is set, and that setting keeps its canonical form. -/

namespace Sys2Proof

theorem Tab.get_put {α : Type} (d : α) (t : Tab α) (i j : Nat) (v : α) :
    Tab.get d (Tab.put t i v) j = if j = i then v else Tab.get d t j := by
  induction t with
  | nil => simp [Tab.put, Tab.get]
  | cons e t ih =>
    obtain ⟨k, w⟩ := e
    simp only [Tab.put]
    split
    · simp [Tab.get]
    · split
      · simp only [Tab.get]; grind
      · simp only [Tab.get, ih]; grind

theorem Tab.get_filter {α : Type} (d : α) (t : Tab α) (i j : Nat) :
    Tab.get d (t.filter fun e => e.1 != i) j = if j = i then d else Tab.get d t j := by
  induction t with
  | nil => simp [Tab.get]
  | cons e t ih =>
    obtain ⟨k, w⟩ := e
    by_cases h : k = i <;> simp [List.filter_cons, h, Tab.get, ih] <;> grind

/-- Every index reads what it last was made to hold. -/
@[simp] theorem Tab.get_set {α : Type} [DecidableEq α] (d : α) (t : Tab α) (i j : Nat) (v : α) :
    Tab.get d (Tab.set d t i v) j = if j = i then v else Tab.get d t j := by
  unfold Tab.set
  split
  · next h => rw [Tab.get_filter, h]
  · exact Tab.get_put d t i j v

theorem Tab.wfFrom_filter {α : Type} [DecidableEq α] (d : α) (t : Tab α) (i : Nat) (lo : Option Nat)
    (h : Tab.wfFrom d lo t = true) : Tab.wfFrom d lo (t.filter fun e => e.1 != i) = true := by
  have weak : ∀ (t : Tab α) (a b : Nat), a < b → Tab.wfFrom d (some b) t = true → Tab.wfFrom d (some a) t = true := by
    intro t a b hab ht
    cases t with
    | nil => rfl
    | cons e t =>
      simp only [Tab.wfFrom, Bool.and_eq_true, decide_eq_true_eq] at ht ⊢
      exact ⟨⟨by omega, ht.1.2⟩, ht.2⟩
  induction t generalizing lo with
  | nil => simpa using h
  | cons e t ih =>
    obtain ⟨k, w⟩ := e
    simp only [Tab.wfFrom, Bool.and_eq_true, decide_eq_true_eq] at h
    by_cases hk : k = i
    · simp only [List.filter_cons, hk, bne_self_eq_false, Bool.false_eq_true, if_false]
      subst hk
      refine ih lo ?_
      cases lo with
      | none =>
        cases t with
        | nil => rfl
        | cons e t =>
          have := h.2
          simp only [Tab.wfFrom, Bool.and_eq_true, decide_eq_true_eq] at this ⊢
          exact ⟨⟨trivial, this.1.2⟩, this.2⟩
      | some b => exact weak t b k (by simpa using h.1.1) h.2
    · have : (k != i) = true := by simpa using hk
      simp only [List.filter_cons, this, if_true, Tab.wfFrom, Bool.and_eq_true, decide_eq_true_eq]
      exact ⟨h.1, ih _ h.2⟩

theorem Tab.wfFrom_put {α : Type} [DecidableEq α] (d : α) (t : Tab α) (i : Nat) (v : α) (hv : v ≠ d)
    (lo : Option Nat) (hlo : ∀ b, lo = some b → b < i) (h : Tab.wfFrom d lo t = true) :
    Tab.wfFrom d lo (Tab.put t i v) = true := by
  induction t generalizing lo with
  | nil =>
    cases lo with
    | none => simp [Tab.put, Tab.wfFrom, hv]
    | some b => simp [Tab.put, Tab.wfFrom, hv, hlo b rfl]
  | cons e t ih =>
    obtain ⟨k, w⟩ := e
    simp only [Tab.wfFrom, Bool.and_eq_true, decide_eq_true_eq] at h
    simp only [Tab.put]
    split
    · next hik =>
      simp only [Tab.wfFrom, Bool.and_eq_true, decide_eq_true_eq]
      refine ⟨⟨?_, hv⟩, ⟨hik, h.1.2⟩, h.2⟩
      cases lo with
      | none => trivial
      | some b => simpa using hlo b rfl
    · split
      · next hik =>
        subst hik
        simp only [Tab.wfFrom, Bool.and_eq_true, decide_eq_true_eq]
        exact ⟨⟨h.1.1, hv⟩, h.2⟩
      · next h1 h2 =>
        simp only [Tab.wfFrom, Bool.and_eq_true, decide_eq_true_eq]
        exact ⟨h.1, ih (some k) (fun b hb => by cases hb; omega) h.2⟩

/-- Setting an entry keeps the canonical form. -/
theorem Tab.wf_set {α : Type} [DecidableEq α] (d : α) (t : Tab α) (i : Nat) (v : α) (h : Tab.wf d t = true) :
    Tab.wf d (Tab.set d t i v) = true := by
  unfold Tab.set Tab.wf
  split
  · exact Tab.wfFrom_filter d t i none h
  · next hv => exact Tab.wfFrom_put d t i v hv none (fun b hb => by cases hb) h

end Sys2Proof
end

