-- ==== Sys2Proof/Laws/State.lean ====
section
/-! SUPPORT. What each numbered entry of the state reads after one of them is changed. -/

namespace Sys2Proof.Machine

@[simp] theorem ringOf_modRing (s : State) (r i : Nat) (f : Ring → Ring) :
    ringOf (modRing s r f) i = if i = r then f (ringOf s r) else ringOf s i := by
  simp [ringOf, modRing, setRing]

@[simp] theorem curCh_modCh (s : State) (r i : Nat) (f : CurCh → CurCh) :
    curCh (modCh s r f) i = if i = r then f (curCh s r) else curCh s i := by
  simp [curCh, modCh]

@[simp] theorem cellAcq_modCell (s : State) (r i : Nat) (f : CellAcq → CellAcq) :
    cellAcq (modCell s r f) i = if i = r then f (cellAcq s r) else cellAcq s i := by
  simp [cellAcq, modCell]

@[simp] theorem eCell_modECell (s : State) (r i : Nat) (f : ECell → ECell) :
    eCell (modECell s r f) i = if i = r then f (eCell s r) else eCell s i := by
  simp [eCell, modECell]

@[simp] theorem eStr_modEStr (s : State) (r i : Nat) (f : EStr → EStr) :
    eStr (modEStr s r f) i = if i = r then f (eStr s r) else eStr s i := by
  simp [eStr, modEStr]

@[simp] theorem kCell_modKCell (s : State) (r i : Nat) (f : KCell → KCell) :
    kCell (modKCell s r f) i = if i = r then f (kCell s r) else kCell s i := by
  simp [kCell, modKCell]

@[simp] theorem wCell_modWCell (s : State) (r i : Nat) (f : WCell → WCell) :
    wCell (modWCell s r f) i = if i = r then f (wCell s r) else wCell s i := by
  simp [wCell, modWCell]

@[simp] theorem tCell_modTCell (s : State) (r i : Nat) (f : TCell → TCell) :
    tCell (modTCell s r f) i = if i = r then f (tCell s r) else tCell s i := by
  simp [tCell, modTCell]

@[simp] theorem curStr_modCurStr (s : State) (r i : Nat) (f : CurStr → CurStr) :
    curStr (modCurStr s r f) i = if i = r then f (curStr s r) else curStr s i := by
  simp [curStr, modCurStr]

@[simp] theorem drvCh_modDrvCh (s : State) (r i : Nat) (f : DrvCh → DrvCh) :
    drvCh (modDrvCh s r f) i = if i = r then f (drvCh s r) else drvCh s i := by
  simp [drvCh, modDrvCh]

@[simp] theorem drvStr_modDrvStr (s : State) (r i : Nat) (f : DrvStr → DrvStr) :
    drvStr (modDrvStr s r f) i = if i = r then f (drvStr s r) else drvStr s i := by
  simp [drvStr, modDrvStr]

@[simp] theorem laneOf_modLane (s : State) (r i : Nat) (f : Lane → Lane) :
    laneOf (modLane r f s) i = if i = r then f (laneOf s r) else laneOf s i := by
  simp [laneOf, modLane, setLane]

@[simp] theorem pairOf_modPair (s : State) (r i : Nat) (f : PairSt → PairSt) :
    pairOf (modPair r f s) i = if i = r then f (pairOf s r) else pairOf s i := by
  simp [pairOf, modPair]

@[simp] theorem laneOf_setLane (s : State) (r i : Nat) (x : Lane) :
    laneOf (setLane r x s) i = if i = r then x else laneOf s i := by
  simp [laneOf, setLane]

@[simp] theorem ringOf_setRing (s : State) (r i : Nat) (x : Ring) :
    ringOf (setRing s r x) i = if i = r then x else ringOf s i := by
  simp [ringOf, setRing]

@[simp] theorem nodeOf_modNode (s : State) (r p a b : Nat) (f : Node → Node) :
    nodeOf (modNode s r p f) a b = if a = r ∧ b = p then f (nodeOf s r p) else nodeOf s a b := by
  unfold nodeOf modNode setNode
  by_cases h : a = r
  · subst h
    by_cases h2 : b = p <;> simp [h2, nodeOf]
  · simp [h]

@[simp] theorem seqOf_setSeq (h : HuskCopy) (q i : Nat) (x : SeqSt) :
    seqOf (setSeq h q x) i = if i = q then x else seqOf h i := by
  simp [seqOf, setSeq]

@[simp] theorem nvObj_setNvObj (s : State) (o i : Nat) (x : NvObj) :
    nvObj (setNvObj s o x) i = if i = o then x else nvObj s i := by
  simp [nvObj, setNvObj]

@[simp] theorem hvilOf_setHvil (s : State) (n i : Nat) (x : Hvil) :
    hvilOf (setHvil s n x) i = if i = n then x else hvilOf s i := by
  simp [hvilOf, setHvil]

@[simp] theorem portOf_modPort (s : State) (p q : Port) (f : PortSt → PortSt) :
    portOf (modPort p f s) q = if q = p then f (portOf s p) else portOf s q := by
  cases p <;> cases q <;> simp [portOf, modPort, portIx]

/-- A fold of changes that each set one node's entry by an idempotent change makes it of every node of the list. -/
theorem nodeOf_foldl (f : Node → Node) (hf : ∀ n, f (f n) = f n) (l : List (Nat × Nat)) (s : State) (a b : Nat) :
    nodeOf (l.foldl (fun s rp => modNode s rp.1 rp.2 f) s) a b =
      if (a, b) ∈ l then f (nodeOf s a b) else nodeOf s a b := by
  induction l generalizing s with
  | nil => simp
  | cons e l ih =>
    obtain ⟨r, p⟩ := e
    simp only [List.foldl_cons, ih, nodeOf_modNode, List.mem_cons, Prod.mk.injEq]
    by_cases h : a = r ∧ b = p
    · obtain ⟨rfl, rfl⟩ := h
      simp [hf]
    · simp [h]

end Sys2Proof.Machine
end

