-- ==== Sys2Proof/Laws/Settle.lean ====
section
/-! SUPPORT. The fields that settling, answering and recording leave unchanged in the parts that they do change. -/

namespace Sys2Proof.Machine

theorem Sys.of_held {a b : Sys} (h : a.held = b.held) :
    a.run = b.run ∧ a.mode = b.mode ∧ a.modeNext = b.modeNext ∧ a.modeLater = b.modeLater ∧
    a.modeForce = b.modeForce ∧ a.modeAct = b.modeAct ∧ a.modeLim = b.modeLim ∧ a.lateCnt = b.lateCnt ∧
    a.frmCut = b.frmCut ∧ a.frmCommit = b.frmCommit ∧ a.frmSum = b.frmSum ∧ a.frameOpen = b.frameOpen ∧
    a.commitDue = b.commitDue ∧ a.sumDue = b.sumDue ∧ a.t0 = b.t0 ∧ a.commitAt = b.commitAt ∧ a.cause = b.cause ∧
    a.lateStep = b.lateStep ∧ a.step = b.step ∧ a.chem = b.chem ∧ a.chemUnstable = b.chemUnstable ∧
    a.presStrap = b.presStrap ∧ a.strapped = b.strapped ∧ a.keyAt4 = b.keyAt4 ∧ a.winBad = b.winBad ∧
    a.src = b.src ∧ a.sectFail = b.sectFail ∧ a.keyRearm = b.keyRearm ∧ a.bootStart = b.bootStart ∧
    a.bootUp = b.bootUp := by
  simpa only [Sys.held, Sys.mk.injEq, true_and, and_true] using h

theorem Husk.of_held {a b : Husk} (h : a.held = b.held) :
    a.net = b.net ∧ a.loading = b.loading ∧ a.nlSrc = b.nlSrc ∧ a.mainOk = b.mainOk ∧ a.shadowOk = b.shadowOk ∧
    a.copyFault = b.copyFault ∧ a.faultAt = b.faultAt ∧ a.romHeld = b.romHeld ∧ a.divCnt = b.divCnt ∧
    a.eccCnt = b.eccCnt ∧ a.alarm = b.alarm ∧ a.ringAlarm = b.ringAlarm ∧ a.ringAlarmNew = b.ringAlarmNew ∧
    a.closeReq = b.closeReq ∧ a.grace = b.grace ∧ a.cause = b.cause ∧ a.latSrc = b.latSrc ∧ a.agg = b.agg ∧
    a.hold = b.hold := by
  simpa only [Husk.held, Husk.mk.injEq, true_and, and_true] using h

theorem Drv.of_held {a b : Drv} (h : a.held = b.held) :
    a.hvil = b.hvil ∧ a.key = b.key ∧ a.chatter = b.chatter ∧ a.keyOffAt = b.keyOffAt ∧ a.keyWin = b.keyWin ∧
    a.chatTime = b.chatTime := by
  simpa only [Drv.held, Drv.mk.injEq, true_and, and_true] using h

theorem Recd.of_held {a b : Recd} (h : a.held = b.held) :
    a.next = b.next ∧ a.seqRes = b.seqRes ∧ a.resDev = b.resDev ∧ a.resTb = b.resTb ∧ a.staging = b.staging ∧
    a.ring = b.ring ∧ a.pub = b.pub ∧ a.tok = b.tok ∧ a.aggTok = b.aggTok ∧ a.aggAt = b.aggAt ∧ a.chaff = b.chaff ∧
    a.delta = b.delta ∧ a.drop = b.drop ∧ a.digPhases = b.digPhases ∧ a.digStart = b.digStart ∧
    a.digTotal = b.digTotal ∧ a.dig = b.dig ∧ a.gran = b.gran ∧ a.pinCfg = b.pinCfg ∧ a.ackLo = b.ackLo ∧
    a.ack = b.ack ∧ a.ovf = b.ovf ∧ a.cur = b.cur ∧ a.chaffAt = b.chaffAt ∧ a.lgDone = b.lgDone := by
  simpa only [Recd.held, Recd.mk.injEq, true_and, and_true] using h

theorem Est.of_held {a b : Est} (h : a.held = b.held) :
    a.cells = b.cells ∧ a.str = b.str ∧ a.status = b.status ∧ a.released = b.released ∧ a.packDis = b.packDis ∧
    a.packChg = b.packChg ∧ a.mark = b.mark := by
  simpa only [Est.held, Est.mk.injEq, true_and, and_true] using h

theorem Pwr.of_held {a b : Pwr} (h : a.held = b.held) :
    a.state = b.state ∧ a.vcore = b.vcore ∧ a.force = b.force ∧ a.loose = b.loose ∧ a.tight = b.tight ∧
    a.pfw = b.pfw ∧ a.armed = b.armed ∧ a.chg = b.chg ∧ a.wakeOut = b.wakeOut ∧ a.wakeOutEnd = b.wakeOutEnd ∧
    a.pg = b.pg ∧ a.cause = b.cause ∧ a.count = b.count ∧ a.vhold = b.vhold ∧ a.vsup = b.vsup ∧
    a.vsupMs = b.vsupMs ∧ a.pfwCnt = b.pfwCnt ∧ a.railCnt = b.railCnt ∧ a.autoSleep = b.autoSleep ∧
    a.step = b.step ∧ a.wakeDone = b.wakeDone ∧ a.wakeLate = b.wakeLate ∧ a.pfVsup = b.pfVsup ∧ a.quiet = b.quiet ∧
    a.coreAt = b.coreAt ∧ a.sleepAt = b.sleepAt ∧ a.pfHold = b.pfHold ∧ a.brown = b.brown ∧ a.armChg = b.armChg ∧
    a.armBtn = b.armBtn ∧ a.waitReq = b.waitReq := by
  simpa only [Pwr.held, Pwr.mk.injEq, true_and, and_true] using h

theorem Evt.of_held {a b : Evt} (h : a.held = b.held) :
    a.irqmap = b.irqmap ∧ a.evtmap = b.evtmap ∧ a.s3NoNet = b.s3NoNet ∧ a.s3Brk = b.s3Brk ∧ a.s3Shut = b.s3Shut ∧
    a.s3Ledg = b.s3Ledg ∧ a.stewAt = b.stewAt ∧ a.stewHeld = b.stewHeld ∧ a.wraps = b.wraps := by
  simpa only [Evt.held, Evt.mk.injEq, true_and, and_true] using h

theorem Pins.of_held {a b : Pins} (h : a.held = b.held) :
    a.testEn = b.testEn ∧ a.btn = b.btn := by
  simpa only [Pins.held, Pins.mk.injEq, true_and, and_true] using h

theorem settle_sys (s : State) :
    (settle s).sys.run = s.sys.run ∧
    (settle s).sys.mode = s.sys.mode ∧
    (settle s).sys.modeNext = s.sys.modeNext ∧
    (settle s).sys.modeLater = s.sys.modeLater ∧
    (settle s).sys.modeForce = s.sys.modeForce ∧
    (settle s).sys.modeAct = s.sys.modeAct ∧
    (settle s).sys.modeLim = s.sys.modeLim ∧
    (settle s).sys.lateCnt = s.sys.lateCnt ∧
    (settle s).sys.frmCut = s.sys.frmCut ∧
    (settle s).sys.frmCommit = s.sys.frmCommit ∧
    (settle s).sys.frmSum = s.sys.frmSum ∧
    (settle s).sys.frameOpen = s.sys.frameOpen ∧
    (settle s).sys.commitDue = s.sys.commitDue ∧
    (settle s).sys.sumDue = s.sys.sumDue ∧
    (settle s).sys.t0 = s.sys.t0 ∧
    (settle s).sys.commitAt = s.sys.commitAt ∧
    (settle s).sys.cause = s.sys.cause ∧
    (settle s).sys.lateStep = s.sys.lateStep ∧
    (settle s).sys.step = s.sys.step ∧
    (settle s).sys.chem = s.sys.chem ∧
    (settle s).sys.chemUnstable = s.sys.chemUnstable ∧
    (settle s).sys.presStrap = s.sys.presStrap ∧
    (settle s).sys.strapped = s.sys.strapped ∧
    (settle s).sys.keyAt4 = s.sys.keyAt4 ∧
    (settle s).sys.winBad = s.sys.winBad ∧
    (settle s).sys.src = s.sys.src ∧
    (settle s).sys.sectFail = s.sys.sectFail ∧
    (settle s).sys.keyRearm = s.sys.keyRearm ∧
    (settle s).sys.bootStart = s.sys.bootStart ∧
    (settle s).sys.bootUp = s.sys.bootUp := by
  have e : (settle s).sys.held = s.sys.held := by simp [id @settle_keep]
  exact Sys.of_held e

theorem settle_husk (s : State) :
    (settle s).husk.net = s.husk.net ∧
    (settle s).husk.loading = s.husk.loading ∧
    (settle s).husk.nlSrc = s.husk.nlSrc ∧
    (settle s).husk.mainOk = s.husk.mainOk ∧
    (settle s).husk.shadowOk = s.husk.shadowOk ∧
    (settle s).husk.copyFault = s.husk.copyFault ∧
    (settle s).husk.faultAt = s.husk.faultAt ∧
    (settle s).husk.romHeld = s.husk.romHeld ∧
    (settle s).husk.divCnt = s.husk.divCnt ∧
    (settle s).husk.eccCnt = s.husk.eccCnt ∧
    (settle s).husk.alarm = s.husk.alarm ∧
    (settle s).husk.ringAlarm = s.husk.ringAlarm ∧
    (settle s).husk.ringAlarmNew = s.husk.ringAlarmNew ∧
    (settle s).husk.closeReq = s.husk.closeReq ∧
    (settle s).husk.grace = s.husk.grace ∧
    (settle s).husk.cause = s.husk.cause ∧
    (settle s).husk.latSrc = s.husk.latSrc ∧
    (settle s).husk.agg = s.husk.agg ∧
    (settle s).husk.hold = s.husk.hold := by
  have e : (settle s).husk.held = s.husk.held := by simp [id @settle_keep]
  exact Husk.of_held e

theorem settle_drv (s : State) :
    (settle s).drv.hvil = s.drv.hvil ∧
    (settle s).drv.key = s.drv.key ∧
    (settle s).drv.chatter = s.drv.chatter ∧
    (settle s).drv.keyOffAt = s.drv.keyOffAt ∧
    (settle s).drv.keyWin = s.drv.keyWin ∧
    (settle s).drv.chatTime = s.drv.chatTime := by
  have e : (settle s).drv.held = s.drv.held := by simp [id @settle_keep]
  exact Drv.of_held e

theorem settle_recd (s : State) :
    (settle s).recd.next = s.recd.next ∧
    (settle s).recd.seqRes = s.recd.seqRes ∧
    (settle s).recd.resDev = s.recd.resDev ∧
    (settle s).recd.resTb = s.recd.resTb ∧
    (settle s).recd.staging = s.recd.staging ∧
    (settle s).recd.ring = s.recd.ring ∧
    (settle s).recd.pub = s.recd.pub ∧
    (settle s).recd.tok = s.recd.tok ∧
    (settle s).recd.aggTok = s.recd.aggTok ∧
    (settle s).recd.aggAt = s.recd.aggAt ∧
    (settle s).recd.chaff = s.recd.chaff ∧
    (settle s).recd.delta = s.recd.delta ∧
    (settle s).recd.drop = s.recd.drop ∧
    (settle s).recd.digPhases = s.recd.digPhases ∧
    (settle s).recd.digStart = s.recd.digStart ∧
    (settle s).recd.digTotal = s.recd.digTotal ∧
    (settle s).recd.dig = s.recd.dig ∧
    (settle s).recd.gran = s.recd.gran ∧
    (settle s).recd.pinCfg = s.recd.pinCfg ∧
    (settle s).recd.ackLo = s.recd.ackLo ∧
    (settle s).recd.ack = s.recd.ack ∧
    (settle s).recd.ovf = s.recd.ovf ∧
    (settle s).recd.cur = s.recd.cur ∧
    (settle s).recd.chaffAt = s.recd.chaffAt ∧
    (settle s).recd.lgDone = s.recd.lgDone := by
  have e : (settle s).recd.held = s.recd.held := by simp [id @settle_keep]
  exact Recd.of_held e

theorem settle_est (s : State) :
    (settle s).est.cells = s.est.cells ∧
    (settle s).est.str = s.est.str ∧
    (settle s).est.status = s.est.status ∧
    (settle s).est.released = s.est.released ∧
    (settle s).est.packDis = s.est.packDis ∧
    (settle s).est.packChg = s.est.packChg ∧
    (settle s).est.mark = s.est.mark := by
  have e : (settle s).est.held = s.est.held := by simp [id @settle_keep]
  exact Est.of_held e

theorem settle_pwr (s : State) :
    (settle s).pwr.state = s.pwr.state ∧
    (settle s).pwr.vcore = s.pwr.vcore ∧
    (settle s).pwr.force = s.pwr.force ∧
    (settle s).pwr.loose = s.pwr.loose ∧
    (settle s).pwr.tight = s.pwr.tight ∧
    (settle s).pwr.pfw = s.pwr.pfw ∧
    (settle s).pwr.armed = s.pwr.armed ∧
    (settle s).pwr.chg = s.pwr.chg ∧
    (settle s).pwr.wakeOut = s.pwr.wakeOut ∧
    (settle s).pwr.wakeOutEnd = s.pwr.wakeOutEnd ∧
    (settle s).pwr.pg = s.pwr.pg ∧
    (settle s).pwr.cause = s.pwr.cause ∧
    (settle s).pwr.count = s.pwr.count ∧
    (settle s).pwr.vhold = s.pwr.vhold ∧
    (settle s).pwr.vsup = s.pwr.vsup ∧
    (settle s).pwr.vsupMs = s.pwr.vsupMs ∧
    (settle s).pwr.pfwCnt = s.pwr.pfwCnt ∧
    (settle s).pwr.railCnt = s.pwr.railCnt ∧
    (settle s).pwr.autoSleep = s.pwr.autoSleep ∧
    (settle s).pwr.step = s.pwr.step ∧
    (settle s).pwr.wakeDone = s.pwr.wakeDone ∧
    (settle s).pwr.wakeLate = s.pwr.wakeLate ∧
    (settle s).pwr.pfVsup = s.pwr.pfVsup ∧
    (settle s).pwr.quiet = s.pwr.quiet ∧
    (settle s).pwr.coreAt = s.pwr.coreAt ∧
    (settle s).pwr.sleepAt = s.pwr.sleepAt ∧
    (settle s).pwr.pfHold = s.pwr.pfHold ∧
    (settle s).pwr.brown = s.pwr.brown ∧
    (settle s).pwr.armChg = s.pwr.armChg ∧
    (settle s).pwr.armBtn = s.pwr.armBtn ∧
    (settle s).pwr.waitReq = s.pwr.waitReq := by
  have e : (settle s).pwr.held = s.pwr.held := by simp [id @settle_keep]
  exact Pwr.of_held e

theorem settle_evt (s : State) :
    (settle s).evt.irqmap = s.evt.irqmap ∧
    (settle s).evt.evtmap = s.evt.evtmap ∧
    (settle s).evt.s3NoNet = s.evt.s3NoNet ∧
    (settle s).evt.s3Brk = s.evt.s3Brk ∧
    (settle s).evt.s3Shut = s.evt.s3Shut ∧
    (settle s).evt.s3Ledg = s.evt.s3Ledg ∧
    (settle s).evt.stewAt = s.evt.stewAt ∧
    (settle s).evt.stewHeld = s.evt.stewHeld ∧
    (settle s).evt.wraps = s.evt.wraps := by
  have e : (settle s).evt.held = s.evt.held := by simp [id @settle_keep]
  exact Evt.of_held e

theorem settle_pins (s : State) :
    (settle s).pins.testEn = s.pins.testEn ∧
    (settle s).pins.btn = s.pins.btn := by
  have e : (settle s).pins.held = s.pins.held := by simp [id @settle_keep]
  exact Pins.of_held e

theorem answer_pwr (op : Nat) (p : Port) (tag : BitVec 16) (r : Reply) (s : State) :
    (answer op p tag r s).pwr.state = s.pwr.state ∧
    (answer op p tag r s).pwr.vcore = s.pwr.vcore ∧
    (answer op p tag r s).pwr.force = s.pwr.force ∧
    (answer op p tag r s).pwr.loose = s.pwr.loose ∧
    (answer op p tag r s).pwr.tight = s.pwr.tight ∧
    (answer op p tag r s).pwr.pfw = s.pwr.pfw ∧
    (answer op p tag r s).pwr.armed = s.pwr.armed ∧
    (answer op p tag r s).pwr.chg = s.pwr.chg ∧
    (answer op p tag r s).pwr.wakeOut = s.pwr.wakeOut ∧
    (answer op p tag r s).pwr.wakeOutEnd = s.pwr.wakeOutEnd ∧
    (answer op p tag r s).pwr.pg = s.pwr.pg ∧
    (answer op p tag r s).pwr.cause = s.pwr.cause ∧
    (answer op p tag r s).pwr.count = s.pwr.count ∧
    (answer op p tag r s).pwr.vhold = s.pwr.vhold ∧
    (answer op p tag r s).pwr.vsup = s.pwr.vsup ∧
    (answer op p tag r s).pwr.vsupMs = s.pwr.vsupMs ∧
    (answer op p tag r s).pwr.pfwCnt = s.pwr.pfwCnt ∧
    (answer op p tag r s).pwr.railCnt = s.pwr.railCnt ∧
    (answer op p tag r s).pwr.autoSleep = s.pwr.autoSleep ∧
    (answer op p tag r s).pwr.step = s.pwr.step ∧
    (answer op p tag r s).pwr.wakeDone = s.pwr.wakeDone ∧
    (answer op p tag r s).pwr.wakeLate = s.pwr.wakeLate ∧
    (answer op p tag r s).pwr.pfVsup = s.pwr.pfVsup ∧
    (answer op p tag r s).pwr.quiet = s.pwr.quiet ∧
    (answer op p tag r s).pwr.coreAt = s.pwr.coreAt ∧
    (answer op p tag r s).pwr.sleepAt = s.pwr.sleepAt ∧
    (answer op p tag r s).pwr.pfHold = s.pwr.pfHold ∧
    (answer op p tag r s).pwr.brown = s.pwr.brown ∧
    (answer op p tag r s).pwr.armChg = s.pwr.armChg ∧
    (answer op p tag r s).pwr.armBtn = s.pwr.armBtn ∧
    (answer op p tag r s).pwr.waitReq = s.pwr.waitReq := by
  have e : (answer op p tag r s).pwr.held = s.pwr.held := by simp [id @answer_keep]
  exact Pwr.of_held e

theorem answer_pins (op : Nat) (p : Port) (tag : BitVec 16) (r : Reply) (s : State) :
    (answer op p tag r s).pins.testEn = s.pins.testEn ∧
    (answer op p tag r s).pins.btn = s.pins.btn := by
  have e : (answer op p tag r s).pins.held = s.pins.held := by simp [id @answer_keep]
  exact Pins.of_held e

theorem emit_recd (code : Nat) (payload : List Byte) (s : State) (ix : Nat) :
    (emit code payload s ix).recd.next = s.recd.next ∧
    (emit code payload s ix).recd.seqRes = s.recd.seqRes ∧
    (emit code payload s ix).recd.resDev = s.recd.resDev ∧
    (emit code payload s ix).recd.resTb = s.recd.resTb ∧
    (emit code payload s ix).recd.staging = s.recd.staging ∧
    (emit code payload s ix).recd.ring = s.recd.ring ∧
    (emit code payload s ix).recd.pub = s.recd.pub ∧
    (emit code payload s ix).recd.tok = s.recd.tok ∧
    (emit code payload s ix).recd.aggTok = s.recd.aggTok ∧
    (emit code payload s ix).recd.aggAt = s.recd.aggAt ∧
    (emit code payload s ix).recd.chaff = s.recd.chaff ∧
    (emit code payload s ix).recd.delta = s.recd.delta ∧
    (emit code payload s ix).recd.drop = s.recd.drop ∧
    (emit code payload s ix).recd.digPhases = s.recd.digPhases ∧
    (emit code payload s ix).recd.digStart = s.recd.digStart ∧
    (emit code payload s ix).recd.digTotal = s.recd.digTotal ∧
    (emit code payload s ix).recd.dig = s.recd.dig ∧
    (emit code payload s ix).recd.gran = s.recd.gran ∧
    (emit code payload s ix).recd.pinCfg = s.recd.pinCfg ∧
    (emit code payload s ix).recd.ackLo = s.recd.ackLo ∧
    (emit code payload s ix).recd.ack = s.recd.ack ∧
    (emit code payload s ix).recd.ovf = s.recd.ovf ∧
    (emit code payload s ix).recd.cur = s.recd.cur ∧
    (emit code payload s ix).recd.chaffAt = s.recd.chaffAt ∧
    (emit code payload s ix).recd.lgDone = s.recd.lgDone := by
  have e : (emit code payload s ix).recd.held = s.recd.held := by simp [id @emit_keep]
  exact Recd.of_held e

theorem emit_evt (code : Nat) (payload : List Byte) (s : State) (ix : Nat) :
    (emit code payload s ix).evt.irqmap = s.evt.irqmap ∧
    (emit code payload s ix).evt.evtmap = s.evt.evtmap ∧
    (emit code payload s ix).evt.s3NoNet = s.evt.s3NoNet ∧
    (emit code payload s ix).evt.s3Brk = s.evt.s3Brk ∧
    (emit code payload s ix).evt.s3Shut = s.evt.s3Shut ∧
    (emit code payload s ix).evt.s3Ledg = s.evt.s3Ledg ∧
    (emit code payload s ix).evt.stewAt = s.evt.stewAt ∧
    (emit code payload s ix).evt.stewHeld = s.evt.stewHeld ∧
    (emit code payload s ix).evt.wraps = s.evt.wraps := by
  have e : (emit code payload s ix).evt.held = s.evt.held := by simp [id @emit_keep]
  exact Evt.of_held e

theorem Ring.of_held {a b : Ring} (h : a.held = b.held) :
    a.state = b.state ∧ a.liveEn = b.liveEn ∧ a.enumReq = b.enumReq ∧ a.measLeft = b.measLeft ∧ a.nA = b.nA ∧
    a.nB = b.nB ∧ a.aLast = b.aLast ∧ a.bFirst = b.bFirst ∧ a.breaks = b.breaks ∧ a.lCW = b.lCW ∧ a.lCCW = b.lCCW ∧
    a.errA = b.errA ∧ a.errB = b.errB ∧ a.alarmCnt = b.alarmCnt ∧ a.alarmKind = b.alarmKind ∧
    a.alarmPos = b.alarmPos ∧ a.skewRisk = b.skewRisk ∧ a.thinA = b.thinA ∧ a.thinB = b.thinB ∧
    a.unplaced = b.unplaced ∧ a.measured = b.measured ∧ a.liveBack = b.liveBack ∧ a.txA = b.txA ∧ a.txB = b.txB ∧
    a.enumErr = b.enumErr ∧ a.enumStep = b.enumStep ∧ a.enumTries = b.enumTries ∧ a.cntA = b.cntA ∧
    a.cntB = b.cntB ∧ a.tokA = b.tokA ∧ a.inService = b.inService ∧ a.measPos = b.measPos ∧
    a.liveStep = b.liveStep ∧ a.liveK = b.liveK ∧ a.collected = b.collected ∧ a.cmd = b.cmd ∧ a.mgmt = b.mgmt ∧
    a.patrolMiss = b.patrolMiss ∧ a.mapUid = b.mapUid := by
  simpa only [Ring.held, Ring.mk.injEq, true_and, and_true] using h

theorem Node.of_held {a b : Node} (h : a.held = b.held) :
    a.uid = b.uid ∧ a.kind = b.kind ∧ a.mask = b.mask ∧ a.hp = b.hp ∧ a.tTurn = b.tTurn ∧ a.qpos = b.qpos ∧
    a.dA = b.dA ∧ a.dB = b.dB ∧ a.ofsCW = b.ofsCW ∧ a.ofsCCW = b.ofsCCW ∧ a.refB = b.refB ∧ a.skewed = b.skewed ∧
    a.skewFault = b.skewFault ∧ a.string = b.string ∧ a.firstC = b.firstC ∧ a.ofsReq = b.ofsReq ∧
    a.balTo = b.balTo ∧ a.cfgRef = b.cfgRef ∧ a.thr = b.thr ∧ a.probe = b.probe ∧ a.fresh = b.fresh ∧
    a.tagRx = b.tagRx ∧ a.nonce = b.nonce ∧ a.authFails = b.authFails ∧ a.chalAt = b.chalAt ∧ a.lost = b.lost ∧
    a.misses = b.misses ∧ a.reachA = b.reachA ∧ a.reachB = b.reachB ∧ a.rxA = b.rxA ∧ a.rxB = b.rxB ∧
    a.last = b.last ∧ a.die = b.die ∧ a.dieAt = b.dieAt ∧ a.acqOk = b.acqOk ∧ a.acqMode = b.acqMode ∧
    a.acqReq = b.acqReq ∧ a.tIn = b.tIn ∧ a.comp = b.comp ∧ a.bal = b.bal ∧ a.balAtS = b.balAtS ∧
    a.balMis = b.balMis ∧ a.balFault = b.balFault ∧ a.dieStale = b.dieStale ∧ a.creditE = b.creditE ∧
    a.creditO = b.creditO ∧ a.inLimit = b.inLimit ∧ a.alarmAck = b.alarmAck ∧ a.linkUp = b.linkUp ∧
    a.coup = b.coup ∧ a.ow = b.ow ∧ a.pair = b.pair ∧ a.pairBad = b.pairBad ∧ a.podOk = b.podOk ∧
    a.chalOut = b.chalOut := by
  simpa only [Node.held, Node.mk.injEq, true_and, and_true] using h

theorem settleNodeAuth_ring (r : Nat) (s : State) (p r' p' : Nat) :
    (ringOf (settleNodeAuth r s p) r').held = (ringOf s r').held ∧
    (nodeOf (settleNodeAuth r s p) r' p').held = (nodeOf s r' p').held := by
  unfold settleNodeAuth
  simp only
  split
  · split
    · constructor
      · by_cases h : r' = r <;> simp [modNode, setNode, h, Ring.held]
      · simp only [nodeOf_modNode]
        split
        · next h => simp [h.1, h.2, Node.held]
        · rfl
    · exact ⟨rfl, rfl⟩
  · exact ⟨rfl, rfl⟩

/-- Settling changes of a ring only what an opening string decides about its nodes' authentication. -/
theorem settle_ring_held (s : State) (r p : Nat) :
    (ringOf (settle s) r).held = (ringOf s r).held ∧ (nodeOf (settle s) r p).held = (nodeOf s r p).held := by
  have e : (settle s).ring = (settleAuth (settleHostOpen s)).ring := by
    simp [settle, id @settleChar_keep, id @settleDrv_keep, id @settleLevel_keep, id @settleNet_keep,
        id @settleOverflow_keep, id @settlePins_keep]
  have e0 : (settleHostOpen s).ring = s.ring := by simp [id @settleHostOpen_keep]
  have e1 : ringOf (settle s) r = ringOf (settleAuth (settleHostOpen s)) r := by simp [ringOf, e]
  have e2 : nodeOf (settle s) r p = nodeOf (settleAuth (settleHostOpen s)) r p := by simp [nodeOf, ringOf, e]
  have f1 : ringOf s r = ringOf (settleHostOpen s) r := by simp [ringOf, e0]
  have f2 : nodeOf s r p = nodeOf (settleHostOpen s) r p := by simp [nodeOf, ringOf, e0]
  rw [e1, e2, f1, f2]
  generalize settleHostOpen s = x
  have one (l : List Nat) (q : Nat) (y : State) :
      (ringOf (l.foldl (settleNodeAuth q) y) r).held = (ringOf y r).held ∧
      (nodeOf (l.foldl (settleNodeAuth q) y) r p).held = (nodeOf y r p).held := by
    induction l generalizing y with
    | nil => exact ⟨rfl, rfl⟩
    | cons a l ih =>
      have := settleNodeAuth_ring q y a r p
      exact ⟨(ih _).1.trans this.1, (ih _).2.trans this.2⟩
  unfold settleAuth
  simp only [List.foldl_cons, List.foldl_nil]
  exact ⟨(one _ 1 _).1.trans (one _ 0 _).1, (one _ 1 _).2.trans (one _ 0 _).2⟩

theorem settle_ringOf (s : State) (r : Nat) :
    (ringOf (settle s) r).state = (ringOf s r).state ∧
    (ringOf (settle s) r).liveEn = (ringOf s r).liveEn ∧
    (ringOf (settle s) r).enumReq = (ringOf s r).enumReq ∧
    (ringOf (settle s) r).measLeft = (ringOf s r).measLeft ∧
    (ringOf (settle s) r).nA = (ringOf s r).nA ∧
    (ringOf (settle s) r).nB = (ringOf s r).nB ∧
    (ringOf (settle s) r).aLast = (ringOf s r).aLast ∧
    (ringOf (settle s) r).bFirst = (ringOf s r).bFirst ∧
    (ringOf (settle s) r).breaks = (ringOf s r).breaks ∧
    (ringOf (settle s) r).lCW = (ringOf s r).lCW ∧
    (ringOf (settle s) r).lCCW = (ringOf s r).lCCW ∧
    (ringOf (settle s) r).errA = (ringOf s r).errA ∧
    (ringOf (settle s) r).errB = (ringOf s r).errB ∧
    (ringOf (settle s) r).alarmCnt = (ringOf s r).alarmCnt ∧
    (ringOf (settle s) r).alarmKind = (ringOf s r).alarmKind ∧
    (ringOf (settle s) r).alarmPos = (ringOf s r).alarmPos ∧
    (ringOf (settle s) r).skewRisk = (ringOf s r).skewRisk ∧
    (ringOf (settle s) r).thinA = (ringOf s r).thinA ∧
    (ringOf (settle s) r).thinB = (ringOf s r).thinB ∧
    (ringOf (settle s) r).unplaced = (ringOf s r).unplaced ∧
    (ringOf (settle s) r).measured = (ringOf s r).measured ∧
    (ringOf (settle s) r).liveBack = (ringOf s r).liveBack ∧
    (ringOf (settle s) r).txA = (ringOf s r).txA ∧
    (ringOf (settle s) r).txB = (ringOf s r).txB ∧
    (ringOf (settle s) r).enumErr = (ringOf s r).enumErr ∧
    (ringOf (settle s) r).enumStep = (ringOf s r).enumStep ∧
    (ringOf (settle s) r).enumTries = (ringOf s r).enumTries ∧
    (ringOf (settle s) r).cntA = (ringOf s r).cntA ∧
    (ringOf (settle s) r).cntB = (ringOf s r).cntB ∧
    (ringOf (settle s) r).tokA = (ringOf s r).tokA ∧
    (ringOf (settle s) r).inService = (ringOf s r).inService ∧
    (ringOf (settle s) r).measPos = (ringOf s r).measPos ∧
    (ringOf (settle s) r).liveStep = (ringOf s r).liveStep ∧
    (ringOf (settle s) r).liveK = (ringOf s r).liveK ∧
    (ringOf (settle s) r).collected = (ringOf s r).collected ∧
    (ringOf (settle s) r).cmd = (ringOf s r).cmd ∧
    (ringOf (settle s) r).mgmt = (ringOf s r).mgmt ∧
    (ringOf (settle s) r).patrolMiss = (ringOf s r).patrolMiss ∧
    (ringOf (settle s) r).mapUid = (ringOf s r).mapUid := Ring.of_held (settle_ring_held s r 0).1

theorem settle_nodeOf (s : State) (r p : Nat) :
    (nodeOf (settle s) r p).uid = (nodeOf s r p).uid ∧
    (nodeOf (settle s) r p).kind = (nodeOf s r p).kind ∧
    (nodeOf (settle s) r p).mask = (nodeOf s r p).mask ∧
    (nodeOf (settle s) r p).hp = (nodeOf s r p).hp ∧
    (nodeOf (settle s) r p).tTurn = (nodeOf s r p).tTurn ∧
    (nodeOf (settle s) r p).qpos = (nodeOf s r p).qpos ∧
    (nodeOf (settle s) r p).dA = (nodeOf s r p).dA ∧
    (nodeOf (settle s) r p).dB = (nodeOf s r p).dB ∧
    (nodeOf (settle s) r p).ofsCW = (nodeOf s r p).ofsCW ∧
    (nodeOf (settle s) r p).ofsCCW = (nodeOf s r p).ofsCCW ∧
    (nodeOf (settle s) r p).refB = (nodeOf s r p).refB ∧
    (nodeOf (settle s) r p).skewed = (nodeOf s r p).skewed ∧
    (nodeOf (settle s) r p).skewFault = (nodeOf s r p).skewFault ∧
    (nodeOf (settle s) r p).string = (nodeOf s r p).string ∧
    (nodeOf (settle s) r p).firstC = (nodeOf s r p).firstC ∧
    (nodeOf (settle s) r p).ofsReq = (nodeOf s r p).ofsReq ∧
    (nodeOf (settle s) r p).balTo = (nodeOf s r p).balTo ∧
    (nodeOf (settle s) r p).cfgRef = (nodeOf s r p).cfgRef ∧
    (nodeOf (settle s) r p).thr = (nodeOf s r p).thr ∧
    (nodeOf (settle s) r p).probe = (nodeOf s r p).probe ∧
    (nodeOf (settle s) r p).fresh = (nodeOf s r p).fresh ∧
    (nodeOf (settle s) r p).tagRx = (nodeOf s r p).tagRx ∧
    (nodeOf (settle s) r p).nonce = (nodeOf s r p).nonce ∧
    (nodeOf (settle s) r p).authFails = (nodeOf s r p).authFails ∧
    (nodeOf (settle s) r p).chalAt = (nodeOf s r p).chalAt ∧
    (nodeOf (settle s) r p).lost = (nodeOf s r p).lost ∧
    (nodeOf (settle s) r p).misses = (nodeOf s r p).misses ∧
    (nodeOf (settle s) r p).reachA = (nodeOf s r p).reachA ∧
    (nodeOf (settle s) r p).reachB = (nodeOf s r p).reachB ∧
    (nodeOf (settle s) r p).rxA = (nodeOf s r p).rxA ∧
    (nodeOf (settle s) r p).rxB = (nodeOf s r p).rxB ∧
    (nodeOf (settle s) r p).last = (nodeOf s r p).last ∧
    (nodeOf (settle s) r p).die = (nodeOf s r p).die ∧
    (nodeOf (settle s) r p).dieAt = (nodeOf s r p).dieAt ∧
    (nodeOf (settle s) r p).acqOk = (nodeOf s r p).acqOk ∧
    (nodeOf (settle s) r p).acqMode = (nodeOf s r p).acqMode ∧
    (nodeOf (settle s) r p).acqReq = (nodeOf s r p).acqReq ∧
    (nodeOf (settle s) r p).tIn = (nodeOf s r p).tIn ∧
    (nodeOf (settle s) r p).comp = (nodeOf s r p).comp ∧
    (nodeOf (settle s) r p).bal = (nodeOf s r p).bal ∧
    (nodeOf (settle s) r p).balAtS = (nodeOf s r p).balAtS ∧
    (nodeOf (settle s) r p).balMis = (nodeOf s r p).balMis ∧
    (nodeOf (settle s) r p).balFault = (nodeOf s r p).balFault ∧
    (nodeOf (settle s) r p).dieStale = (nodeOf s r p).dieStale ∧
    (nodeOf (settle s) r p).creditE = (nodeOf s r p).creditE ∧
    (nodeOf (settle s) r p).creditO = (nodeOf s r p).creditO ∧
    (nodeOf (settle s) r p).inLimit = (nodeOf s r p).inLimit ∧
    (nodeOf (settle s) r p).alarmAck = (nodeOf s r p).alarmAck ∧
    (nodeOf (settle s) r p).linkUp = (nodeOf s r p).linkUp ∧
    (nodeOf (settle s) r p).coup = (nodeOf s r p).coup ∧
    (nodeOf (settle s) r p).ow = (nodeOf s r p).ow ∧
    (nodeOf (settle s) r p).pair = (nodeOf s r p).pair ∧
    (nodeOf (settle s) r p).pairBad = (nodeOf s r p).pairBad ∧
    (nodeOf (settle s) r p).podOk = (nodeOf s r p).podOk ∧
    (nodeOf (settle s) r p).chalOut = (nodeOf s r p).chalOut := Node.of_held (settle_ring_held s r p).2

theorem emit_entries (code : Nat) (payload : List Byte) (s : State) (ix : Nat) (r : Nat) :
    ringOf (emit code payload s ix) r = ringOf s r ∧
    curCh (emit code payload s ix) r = curCh s r ∧
    curStr (emit code payload s ix) r = curStr s r ∧
    cellAcq (emit code payload s ix) r = cellAcq s r ∧
    eCell (emit code payload s ix) r = eCell s r ∧
    eStr (emit code payload s ix) r = eStr s r ∧
    kCell (emit code payload s ix) r = kCell s r ∧
    wCell (emit code payload s ix) r = wCell s r ∧
    tCell (emit code payload s ix) r = tCell s r ∧
    laneOf (emit code payload s ix) r = laneOf s r ∧
    pairOf (emit code payload s ix) r = pairOf s r ∧
    nvObj (emit code payload s ix) r = nvObj s r ∧
    drvCh (emit code payload s ix) r = drvCh s r ∧
    drvStr (emit code payload s ix) r = drvStr s r ∧
    hvilOf (emit code payload s ix) r = hvilOf s r := by
  simp [ringOf, curCh, curStr, cellAcq, eCell, eStr, kCell, wCell, tCell, laneOf, pairOf, nvObj, drvCh, drvStr,
      hvilOf, id @emit_keep]

theorem emit_nodeOf (code : Nat) (payload : List Byte) (s : State) (ix : Nat) (r q : Nat) : nodeOf (emit code payload s ix) r q = nodeOf s r q := by
  simp [nodeOf, id @emit_entries]

theorem emitIf_entries (c : Bool) (code : Nat) (payload : List Byte) (s : State) (ix : Nat) (r : Nat) :
    ringOf (emitIf c code payload s ix) r = ringOf s r ∧
    curCh (emitIf c code payload s ix) r = curCh s r ∧
    curStr (emitIf c code payload s ix) r = curStr s r ∧
    cellAcq (emitIf c code payload s ix) r = cellAcq s r ∧
    eCell (emitIf c code payload s ix) r = eCell s r ∧
    eStr (emitIf c code payload s ix) r = eStr s r ∧
    kCell (emitIf c code payload s ix) r = kCell s r ∧
    wCell (emitIf c code payload s ix) r = wCell s r ∧
    tCell (emitIf c code payload s ix) r = tCell s r ∧
    laneOf (emitIf c code payload s ix) r = laneOf s r ∧
    pairOf (emitIf c code payload s ix) r = pairOf s r ∧
    nvObj (emitIf c code payload s ix) r = nvObj s r ∧
    drvCh (emitIf c code payload s ix) r = drvCh s r ∧
    drvStr (emitIf c code payload s ix) r = drvStr s r ∧
    hvilOf (emitIf c code payload s ix) r = hvilOf s r := by
  simp [ringOf, curCh, curStr, cellAcq, eCell, eStr, kCell, wCell, tCell, laneOf, pairOf, nvObj, drvCh, drvStr,
      hvilOf, id @emitIf_keep]

theorem emitIf_nodeOf (c : Bool) (code : Nat) (payload : List Byte) (s : State) (ix : Nat) (r q : Nat) : nodeOf (emitIf c code payload s ix) r q = nodeOf s r q := by
  simp [nodeOf, id @emitIf_entries]

theorem settle_entries (s : State) (r : Nat) :
    curCh (settle s) r = curCh s r ∧
    curStr (settle s) r = curStr s r ∧
    cellAcq (settle s) r = cellAcq s r ∧
    eCell (settle s) r = eCell s r ∧
    eStr (settle s) r = eStr s r ∧
    kCell (settle s) r = kCell s r ∧
    wCell (settle s) r = wCell s r ∧
    tCell (settle s) r = tCell s r ∧
    laneOf (settle s) r = laneOf s r ∧
    pairOf (settle s) r = pairOf s r ∧
    nvObj (settle s) r = nvObj s r := by
  simp [curCh, curStr, cellAcq, eCell, eStr, kCell, wCell, tCell, laneOf, pairOf, nvObj, id @settle_keep,
      id @settle_est]

theorem answer_entries (op : Nat) (p : Port) (tag : BitVec 16) (y : Reply) (s : State) (r : Nat) :
    ringOf (answer op p tag y s) r = ringOf s r ∧
    curCh (answer op p tag y s) r = curCh s r ∧
    curStr (answer op p tag y s) r = curStr s r ∧
    cellAcq (answer op p tag y s) r = cellAcq s r ∧
    eCell (answer op p tag y s) r = eCell s r ∧
    eStr (answer op p tag y s) r = eStr s r ∧
    kCell (answer op p tag y s) r = kCell s r ∧
    wCell (answer op p tag y s) r = wCell s r ∧
    tCell (answer op p tag y s) r = tCell s r ∧
    laneOf (answer op p tag y s) r = laneOf s r ∧
    pairOf (answer op p tag y s) r = pairOf s r ∧
    nvObj (answer op p tag y s) r = nvObj s r ∧
    drvCh (answer op p tag y s) r = drvCh s r ∧
    drvStr (answer op p tag y s) r = drvStr s r ∧
    hvilOf (answer op p tag y s) r = hvilOf s r := by
  simp [ringOf, curCh, curStr, cellAcq, eCell, eStr, kCell, wCell, tCell, laneOf, pairOf, nvObj, drvCh, drvStr,
      hvilOf, id @answer_keep]

theorem answer_nodeOf (op : Nat) (p : Port) (tag : BitVec 16) (y : Reply) (s : State) (r q : Nat) : nodeOf (answer op p tag y s) r q = nodeOf s r q := by
  simp [nodeOf, id @answer_entries]

end Sys2Proof.Machine
end

