-- ==== Sys2Proof/Laws/Request.lean ====
section
/-! SUPPORT. What a new request does (R491 to R495): its effect on the state it starts from, and its answer. -/

namespace Sys2Proof.Machine

/-- A frame taken as new has its effect on the state it starts from, and is answered. -/
theorem hostFrame_fresh {op : Nat} {h : ReqHdr} (f : State → State × Reply) {s : State}
    (hf : freshFrame op h s = true) :
    hostFrame op h f s = settle (answer op h.port h.tag (f (reqStart op h s)).2 (f (reqStart op h s)).1) := by
  simp only [freshFrame, Bool.and_eq_true, Bool.not_eq_true', beq_iff_eq, decide_eq_true_eq, Option.isNone_iff_eq_none] at hf
  obtain ⟨⟨⟨⟨hs, hm⟩, he⟩, hk⟩, hu⟩ := hf
  have h16 : ¬ (h.seg ≥ 16) := by omega
  have hseg : segOk op h s = true := by simp [segOk, hs]
  have hn (u : State) : unanswered h.port (noteAsk op h u) = unanswered h.port u := by
    simp [unanswered, id @noteAsk_keep]
  have hu' : ¬ (unanswered h.port (noteAsk op h (reqSeen op h s)) ≥ 16) := by rw [hn]; omega
  unfold reqSeen at he hk hu'
  have hstop : (!segOk op h s || decide (h.seg ≥ 16) || (h.more && h.port != .can)) = false := by simp [hseg, hm, hs]
  have hm' : ¬ (h.more = true) := by simp [hm]
  rw [hostFrame, if_neg (by simp [hstop]), if_neg hm']
  simp only [hostExec, he, Bool.false_eq_true, if_false, hk, if_neg hu', reqStart, reqSeen]

/-- A request taken as new has its effect on the state it starts from, and is answered. -/
theorem hostRequest_fresh {op : Nat} {h : ReqHdr} (f : State → State × Reply) {s : State}
    (hf : freshReq op h s = true) :
    hostRequest op h f s = settle (answer op h.port h.tag (f (reqStart op h s)).2 (f (reqStart op h s)).1) := by
  simp only [freshReq, Bool.and_eq_true] at hf
  rw [hostRequest, if_pos hf.1, hostFrame_fresh f hf.2]

/-- A request whose effect is known is answered with its reply. -/
theorem answers_fresh {c : Instr} {op : Nat} {h : ReqHdr} {f : State → State × Reply} {s u : State} {r : Reply}
    (hx : exec c s = .next (hostRequest op h f s)) (hf : freshReq op h s = true) (hu : f (reqStart op h s) = (u, r)) :
    answers op h c s r u := by
  rw [answers, hx, hostRequest_fresh f hf, hu]

/-- The word that a register write carries to address `a`. -/
def wrWord (h : ReqHdr) (p : Bool) (a : Nat) (f : Word → Word) (s : State) : Word :=
  f (readWord h.port a (reqStart (wrOp p) h s))

/-- One word has one order. -/
theorem writeOrder_one (e : Nat × Nat × Word) : writeOrder [e] = [e] := by
  cases h : isSel e.2.1 <;> simp [writeOrder, h]

/-- A write of one word of a control window that no check refuses. -/
theorem writeWords_one {q : Req} {a : Nat} {v : Word} {s : State} (ha : a < 0x17000) (h4 : a % 4 = 0)
    (h3 : ¬ (q.op = 3 ∧ presOpen s = false)) (h2 : q.op = 2 → reaches q.port a v s = false)
    (hc : chkWord q 0 a v s = 0) :
    ∃ r, writeWords q a 1 [v] s = (putReg q a v s, r) := by
  have hw : windowOf a = some (.ctl (a / 4096)) := by simp [windowOf, ha]
  have hrange : rangeOk a 1 = true := by
    have : a + 4 * 1 - 4 = a := by omega
    simp [rangeOk, h4, hw, this]
  have hmax : ¬ (1 > maxWords q.port) := by cases q.port <;> simp [maxWords]
  have hz : (List.zipIdx [v]) = [(v, 0)] := rfl
  have h2' : ¬ (q.op = 2 ∧ ([(0, a, v)].any fun e => reaches q.port e.2.1 e.2.2 s) = true) := by
    rintro ⟨e, h⟩
    simp [h2 e] at h
  simp only [writeWords, hrange, hmax, List.length_singleton, Nat.one_ne_zero, ne_eq, not_true, or_self, if_false,
    Bool.true_eq_false, writeAll, hw, addrWords, hz, List.map_cons, List.map_nil, Nat.mul_zero, Nat.add_zero,
    Option.any_some, Bool.false_eq_true, h3, h2', firstRefusal, writeOrder_one, List.find?_cons, List.find?_nil, hc,
    bne_self_eq_false, Option.map_none, List.foldl_cons, List.foldl_nil]
  split
  · exact ⟨_, rfl⟩
  · exact ⟨_, rfl⟩

/-- What a request changes before its effect: its port and the count of requests. -/
theorem reqStart_keep (op : Nat) (h : ReqHdr) (s : State) :
    (reqStart op h s).sys = s.sys ∧
    (reqStart op h s).img = s.img ∧
    (reqStart op h s).cfg = s.cfg ∧
    (reqStart op h s).ring = s.ring ∧
    (reqStart op h s).acq = s.acq ∧
    (reqStart op h s).cur = s.cur ∧
    (reqStart op h s).husk = s.husk ∧
    (reqStart op h s).drv = s.drv ∧
    (reqStart op h s).krn = s.krn ∧
    (reqStart op h s).est = s.est ∧
    (reqStart op h s).win = s.win ∧
    (reqStart op h s).pairs = s.pairs ∧
    (reqStart op h s).time = s.time ∧
    (reqStart op h s).therm = s.therm ∧
    (reqStart op h s).nv = s.nv ∧
    (reqStart op h s).ledg = s.ledg ∧
    (reqStart op h s).tally = s.tally ∧
    (reqStart op h s).recd = s.recd ∧
    (reqStart op h s).sec = s.sec ∧
    (reqStart op h s).pwr = s.pwr ∧
    (reqStart op h s).bist = s.bist ∧
    (reqStart op h s).evt = s.evt ∧
    (reqStart op h s).pins = s.pins ∧
    (reqStart op h s).freeIx = s.freeIx ∧
    (reqStart op h s).pending = s.pending := by
  simp [reqStart, reqSeen, id @dropPart_keep, id @noteFrame_keep, id @noteAsk_keep]

/-- The rest of the host's state stands when a request begins. -/
theorem reqStart_host (op : Nat) (h : ReqHdr) (s : State) :
    (reqStart op h s).host.lastSnid = s.host.lastSnid ∧
    (reqStart op h s).host.snid = s.host.snid ∧
    (reqStart op h s).host.syncPort = s.host.syncPort ∧
    (reqStart op h s).host.evtPorts = s.host.evtPorts ∧
    (reqStart op h s).host.budT1s = s.host.budT1s ∧
    (reqStart op h s).host.budCan = s.host.budCan ∧
    (reqStart op h s).host.syncDly = s.host.syncDly ∧
    (reqStart op h s).host.errSpi = s.host.errSpi ∧
    (reqStart op h s).host.errT1s = s.host.errT1s ∧
    (reqStart op h s).host.errCan = s.host.errCan ∧
    (reqStart op h s).host.errThp = s.host.errThp ∧
    (reqStart op h s).host.busy = s.host.busy ∧
    (reqStart op h s).host.withheld = s.host.withheld ∧
    (reqStart op h s).host.keepalive = s.host.keepalive ∧
    (reqStart op h s).host.can = s.host.can ∧
    (reqStart op h s).host.busOffs = s.host.busOffs ∧
    (reqStart op h s).host.plcaAt = s.host.plcaAt ∧
    (reqStart op h s).host.str = s.host.str ∧
    (reqStart op h s).host.statAt = s.host.statAt ∧
    (reqStart op h s).host.evtUsed = s.host.evtUsed ∧
    (reqStart op h s).host.evtAt = s.host.evtAt := by
  cases hl : h.link <;> simp [reqStart, reqSeen, dropPart, modPort, noteFrame, noteAsk, hl]

@[simp] theorem presOpen_reqStart (op : Nat) (h : ReqHdr) (s : State) : presOpen (reqStart op h s) = presOpen s := by
  simp [presOpen, winOpen, reqStart, reqSeen, id @dropPart_keep, id @noteFrame_keep, id @noteAsk_keep]

/-- A register write taken as new whose word no check refuses writes its register and is answered. -/
theorem regReq_fresh {h : ReqHdr} {p : Bool} (m : WrMeas) (a : Nat) (f : Word → Word) {s : State}
    (hf : freshWr h p s) (ha : a < 0x17000) (h4 : a % 4 = 0)
    (hr : p = false → reaches h.port a (wrWord h p a f s) (reqStart (wrOp p) h s) = false)
    (hc : chkWord (wrReq h p m) 0 a (wrWord h p a f s) (reqStart (wrOp p) h s) = 0) :
    ∃ r, regReq p h m a f s = settle (answer (wrOp p) h.port h.tag r
      (putReg (wrReq h p m) a (wrWord h p a f s) (reqStart (wrOp p) h s))) := by
  obtain ⟨hq, hp⟩ := hf
  have h3 : ¬ ((wrReq h p m).op = 3 ∧ presOpen (reqStart (wrOp p) h s) = false) := by
    cases p with
    | false => simp [wrReq, wrOp]
    | true => simp [hp rfl]
  have h2 : (wrReq h p m).op = 2 → reaches (wrReq h p m).port a (wrWord h p a f s) (reqStart (wrOp p) h s) = false := by
    cases p with
    | false => exact fun _ => hr rfl
    | true => simp [wrReq, wrOp]
  obtain ⟨r, hw⟩ := writeWords_one ha h4 h3 h2 hc
  refine ⟨r, ?_⟩
  have e := hostRequest_fresh (fun s => writeWords (wrReq h p m) a 1 [f (readWord h.port a s)] s) hq
  have e' : regReq p h m a f s =
      hostRequest (wrOp p) h (fun s => writeWords (wrReq h p m) a 1 [f (readWord h.port a s)] s) s := by
    unfold regReq wrReq wrOp
    rfl
  rw [e', e]
  unfold wrWord at hw
  rw [hw]
  rfl

/-- A register write that no check refuses completes with what every answered effect has. -/
theorem completes_write {c : Instr} {h : ReqHdr} {p : Bool} (m : WrMeas) (a : Nat) (f : Word → Word) {s : State}
    {P : State → Prop} (hx : exec c s = .next (regReq p h m a f s)) (hf : freshWr h p s) (ha : a < 0x17000)
    (h4 : a % 4 = 0)
    (hr : p = false → reaches h.port a (wrWord h p a f s) (reqStart (wrOp p) h s) = false)
    (hc : chkWord (wrReq h p m) 0 a (wrWord h p a f s) (reqStart (wrOp p) h s) = 0)
    (hP : ∀ r, P (settle (answer (wrOp p) h.port h.tag r
      (putReg (wrReq h p m) a (wrWord h p a f s) (reqStart (wrOp p) h s))))) : completes c s P := by
  obtain ⟨r, e⟩ := regReq_fresh m a f hf ha h4 hr hc
  exact ⟨_, by rw [hx, e], hP r⟩

/-- A register write that no check refuses is answered from the state that it makes. -/
theorem writes_intro {c : Instr} {h : ReqHdr} {p : Bool} (m : WrMeas) (a : Nat) (f : Word → Word) {s u : State}
    (hx : exec c s = .next (regReq p h m a f s)) (hf : freshWr h p s) (ha : a < 0x17000) (h4 : a % 4 = 0)
    (hr : p = false → reaches h.port a (wrWord h p a f s) (reqStart (wrOp p) h s) = false)
    (hc : chkWord (wrReq h p m) 0 a (wrWord h p a f s) (reqStart (wrOp p) h s) = 0)
    (hu : putReg (wrReq h p m) a (wrWord h p a f s) (reqStart (wrOp p) h s) = u) : writes h p c s u := by
  obtain ⟨r, e⟩ := regReq_fresh m a f hf ha h4 hr hc
  exact ⟨r, by rw [hx, e, hu]⟩

end Sys2Proof.Machine
end

