-- ==== Sys2Proof/Laws/KeepWrite.lean ====
section
/-! SUPPORT. What a register write leaves unchanged, by the window of its address. -/

namespace Sys2Proof.Machine

@[simp] theorem settle_ringRest (s : State) : ringsRest (settle s).ring = ringsRest s.ring := by
  funext r
  exact Prod.ext (settle_ring_held s r 0).1 (funext fun p => (settle_ring_held s r p).2)

/-- A part of the state that neither the host link nor the settling of the state changes. -/
def Quiet {α : Type} (π : State → α) : Prop :=
  (∀ s x, π { s with host := x } = π s) ∧ (∀ s, π (settle s) = π s) ∧ ∀ s, π (settlePins s) = π s

theorem quiet_img : Quiet (·.img) :=
  ⟨fun _ _ => rfl, fun _ => by simp [id @settle_keep], fun _ => by simp [id @settlePins_keep]⟩

theorem quiet_cfg : Quiet (·.cfg) :=
  ⟨fun _ _ => rfl, fun _ => by simp [id @settle_keep], fun _ => by simp [id @settlePins_keep]⟩

theorem quiet_acq : Quiet (·.acq) :=
  ⟨fun _ _ => rfl, fun _ => by simp [id @settle_keep], fun _ => by simp [id @settlePins_keep]⟩

theorem quiet_cur : Quiet (·.cur) :=
  ⟨fun _ _ => rfl, fun _ => by simp [id @settle_keep], fun _ => by simp [id @settlePins_keep]⟩

theorem quiet_krn : Quiet (·.krn) :=
  ⟨fun _ _ => rfl, fun _ => by simp [id @settle_keep], fun _ => by simp [id @settlePins_keep]⟩

theorem quiet_win : Quiet (·.win) :=
  ⟨fun _ _ => rfl, fun _ => by simp [id @settle_keep], fun _ => by simp [id @settlePins_keep]⟩

theorem quiet_pairs : Quiet (·.pairs) :=
  ⟨fun _ _ => rfl, fun _ => by simp [id @settle_keep], fun _ => by simp [id @settlePins_keep]⟩

theorem quiet_time : Quiet (·.time) :=
  ⟨fun _ _ => rfl, fun _ => by simp [id @settle_keep], fun _ => by simp [id @settlePins_keep]⟩

theorem quiet_therm : Quiet (·.therm) :=
  ⟨fun _ _ => rfl, fun _ => by simp [id @settle_keep], fun _ => by simp [id @settlePins_keep]⟩

theorem quiet_nv : Quiet (·.nv) :=
  ⟨fun _ _ => rfl, fun _ => by simp [id @settle_keep], fun _ => by simp [id @settlePins_keep]⟩

theorem quiet_ledg : Quiet (·.ledg) :=
  ⟨fun _ _ => rfl, fun _ => by simp [id @settle_keep], fun _ => by simp [id @settlePins_keep]⟩

theorem quiet_tally : Quiet (·.tally) :=
  ⟨fun _ _ => rfl, fun _ => by simp [id @settle_keep], fun _ => by simp [id @settlePins_keep]⟩

theorem quiet_sec : Quiet (·.sec) :=
  ⟨fun _ _ => rfl, fun _ => by simp [id @settle_keep], fun _ => by simp [id @settlePins_keep]⟩

theorem quiet_bist : Quiet (·.bist) :=
  ⟨fun _ _ => rfl, fun _ => by simp [id @settle_keep], fun _ => by simp [id @settlePins_keep]⟩

theorem quiet_freeIx : Quiet (·.freeIx) :=
  ⟨fun _ _ => rfl, fun _ => by simp [id @settle_keep], fun _ => by simp [id @settlePins_keep]⟩

theorem quiet_pending : Quiet (·.pending) :=
  ⟨fun _ _ => rfl, fun _ => by simp [id @settle_keep], fun _ => by simp [id @settlePins_keep]⟩

theorem quiet_sys : Quiet (·.sys.held) :=
  ⟨fun _ _ => rfl, fun _ => by simp [id @settle_keep], fun _ => by simp [id @settlePins_keep]⟩

theorem quiet_husk : Quiet (·.husk.held) :=
  ⟨fun _ _ => rfl, fun _ => by simp [id @settle_keep], fun _ => by simp [id @settlePins_keep]⟩

theorem quiet_drv : Quiet (·.drv.held) :=
  ⟨fun _ _ => rfl, fun _ => by simp [id @settle_keep], fun _ => by simp [id @settlePins_keep]⟩

theorem quiet_est : Quiet (·.est.held) :=
  ⟨fun _ _ => rfl, fun _ => by simp [id @settle_keep], fun _ => by simp [id @settlePins_keep]⟩

theorem quiet_recd : Quiet (·.recd.held) :=
  ⟨fun _ _ => rfl, fun _ => by simp [id @settle_keep], fun _ => by simp [id @settlePins_keep]⟩

theorem quiet_pwr : Quiet (·.pwr.held) :=
  ⟨fun _ _ => rfl, fun _ => by simp [id @settle_keep], fun _ => by simp [id @settlePins_keep]⟩

theorem quiet_evt : Quiet (·.evt.held) :=
  ⟨fun _ _ => rfl, fun _ => by simp [id @settle_keep], fun _ => by simp [id @settlePins_keep]⟩

theorem quiet_pins : Quiet (·.pins.held) :=
  ⟨fun _ _ => rfl, fun _ => by simp [id @settle_keep], fun _ => by simp [id @settlePins_keep]⟩

theorem quiet_ring : Quiet (fun s => ringsRest s.ring) :=
  ⟨fun _ _ => rfl, fun _ => by simp, fun _ => by simp [id @settlePins_keep]⟩

theorem linkNote_part {α : Type} {π : State → α} (hq : Quiet π) (l : LinkAddr) (s : State) : π (linkNote l s) = π s := by
  unfold linkNote
  repeat' split
  all_goals first | rfl | exact hq.1 s _

theorem noteFrame_part {α : Type} {π : State → α} (hq : Quiet π) (h : ReqHdr) (s : State) : π (noteFrame h s) = π s :=
  hq.1 s _

/-- What neither the host link, the settling of the state nor the effect of a request changes, no frame of one changes. -/
theorem hostFrame_part {α : Type} {π : State → α} (hq : Quiet π) {op : Nat} {h : ReqHdr} {f : State → State × Reply}
    (hf : ∀ s, π (f s).1 = π s) (s : State) : π (hostFrame op h f s) = π s := by
  have hn := noteFrame_part hq h
  obtain ⟨hh, hs, hp⟩ := hq
  have hd : ∀ s, π (dropPart op h s) = π s := fun s => hh s _
  have hk : ∀ s, π (noteAsk op h s) = π s := by
    intro s
    unfold noteAsk
    split
    · exact hh s _
    · rfl
  have hx : ∀ s p m, π (txPush p m s) = π s := fun s _ _ => hh s _
  have ha : ∀ s r, π (answer op h.port h.tag r s) = π s := by
    intro s r
    unfold answer
    split
    · rfl
    · rw [hp, hx, modPort, hh]
      unfold countReply
      split <;> first | exact hh s _ | rfl
  unfold hostFrame hostExec
  dsimp only
  repeat' split
  · rw [ha, hk, hd, hn]
  · unfold holdSeg
    rw [modPort, hh, hd, hn]
  · rw [hd, hn]
  · rw [hp, hx, hd, hn]
  · rw [hs, ha, hk, hd, hn]
  · rw [hs, ha, hf, hh, hk, hd, hn]

/-- What neither the host link, the settling of the state nor the effect of a request changes, no request changes. -/
theorem hostRequest_part {α : Type} {π : State → α} (hq : Quiet π) {op : Nat} {h : ReqHdr} {f : State → State × Reply}
    (hf : ∀ s, π (f s).1 = π s) (s : State) : π (hostRequest op h f s) = π s := by
  unfold hostRequest
  split
  · exact hostFrame_part hq hf s
  · exact linkNote_part hq _ s

/-- What neither the host link, the settling of the state nor a write of the register changes, no write of one word
changes. -/
theorem regReq_part {α : Type} {π : State → α} (hq : Quiet π) {p : Bool} {h : ReqHdr} {m : WrMeas} {a : Nat}
    {f : Word → Word} (hr : ∀ q v s, π (noteRefusal q a v s) = π s) (hw : ∀ q v s, π (putReg q a v s) = π s) (s : State) :
    π (regReq p h m a f s) = π s := by
  refine hostRequest_part hq (fun s => ?_) s
  generalize f (readWord h.port a s) = v
  have hz : List.zipIdx [v] = [(v, 0)] := rfl
  unfold writeWords writeAll firstRefusal
  simp only [addrWords, hz, List.map_cons, List.map_nil, Nat.mul_zero, Nat.add_zero, writeOrder_one, List.find?_cons,
    List.find?_nil, List.foldl_cons, List.foldl_nil]
  cases chkWord { op := if p then 3 else 2, port := h.port, tag := h.tag, m := m } 0 a v s != 0
  all_goals simp only [Option.map_some, Option.map_none]
  all_goals repeat' split
  all_goals first | rfl | exact hw _ _ _ | exact hr _ _ _

/-- A write of a register of window 0x00. -/
theorem regReq_keepSys {p : Bool} {h : ReqHdr} {m : WrMeas} {a : Nat} (ha : a / 4096 = 0x00) (f : Word → Word)
    (s : State) :
    (regReq p h m a f s).img = s.img ∧
    (regReq p h m a f s).cfg = s.cfg ∧
    (regReq p h m a f s).acq = s.acq ∧
    (regReq p h m a f s).cur = s.cur ∧
    (regReq p h m a f s).krn = s.krn ∧
    (regReq p h m a f s).win = s.win ∧
    (regReq p h m a f s).pairs = s.pairs ∧
    (regReq p h m a f s).time = s.time ∧
    (regReq p h m a f s).therm = s.therm ∧
    (regReq p h m a f s).nv = s.nv ∧
    (regReq p h m a f s).ledg = s.ledg ∧
    (regReq p h m a f s).tally = s.tally ∧
    (regReq p h m a f s).sec = s.sec ∧
    (regReq p h m a f s).bist = s.bist ∧
    (regReq p h m a f s).freeIx = s.freeIx ∧
    (regReq p h m a f s).pending = s.pending ∧
    (regReq p h m a f s).husk.held = s.husk.held ∧
    (regReq p h m a f s).drv.held = s.drv.held ∧
    (regReq p h m a f s).est.held = s.est.held ∧
    (regReq p h m a f s).recd.held = s.recd.held ∧
    (regReq p h m a f s).pwr.held = s.pwr.held ∧
    (regReq p h m a f s).evt.held = s.evt.held ∧
    (regReq p h m a f s).pins.held = s.pins.held := by
  refine ⟨regReq_part quiet_img ?_ ?_ s, regReq_part quiet_cfg ?_ ?_ s, regReq_part quiet_acq ?_ ?_ s,
      regReq_part quiet_cur ?_ ?_ s, regReq_part quiet_krn ?_ ?_ s, regReq_part quiet_win ?_ ?_ s,
          regReq_part quiet_pairs ?_ ?_ s, regReq_part quiet_time ?_ ?_ s, regReq_part quiet_therm ?_ ?_ s,
              regReq_part quiet_nv ?_ ?_ s, regReq_part quiet_ledg ?_ ?_ s, regReq_part quiet_tally ?_ ?_ s,
                  regReq_part quiet_sec ?_ ?_ s, regReq_part quiet_bist ?_ ?_ s, regReq_part quiet_freeIx ?_ ?_ s,
                      regReq_part quiet_pending ?_ ?_ s, regReq_part quiet_husk ?_ ?_ s,
                          regReq_part quiet_drv ?_ ?_ s, regReq_part quiet_est ?_ ?_ s,
                              regReq_part quiet_recd ?_ ?_ s, regReq_part quiet_pwr ?_ ?_ s,
                                  regReq_part quiet_evt ?_ ?_ s, regReq_part quiet_pins ?_ ?_ s⟩ <;>
  · intro q v s
    simp [noteRefusal, putReg, ha, id @putSys_keep]

/-- A write of a register of window 0x01. -/
theorem regReq_keepEvt {p : Bool} {h : ReqHdr} {m : WrMeas} {a : Nat} (ha : a / 4096 = 0x01) (f : Word → Word)
    (s : State) :
    (regReq p h m a f s).img = s.img ∧
    (regReq p h m a f s).cfg = s.cfg ∧
    (regReq p h m a f s).acq = s.acq ∧
    (regReq p h m a f s).cur = s.cur ∧
    (regReq p h m a f s).krn = s.krn ∧
    (regReq p h m a f s).win = s.win ∧
    (regReq p h m a f s).pairs = s.pairs ∧
    (regReq p h m a f s).time = s.time ∧
    (regReq p h m a f s).therm = s.therm ∧
    (regReq p h m a f s).nv = s.nv ∧
    (regReq p h m a f s).ledg = s.ledg ∧
    (regReq p h m a f s).tally = s.tally ∧
    (regReq p h m a f s).sec = s.sec ∧
    (regReq p h m a f s).bist = s.bist ∧
    (regReq p h m a f s).freeIx = s.freeIx ∧
    (regReq p h m a f s).pending = s.pending ∧
    (regReq p h m a f s).sys.held = s.sys.held ∧
    (regReq p h m a f s).husk.held = s.husk.held ∧
    (regReq p h m a f s).drv.held = s.drv.held ∧
    (regReq p h m a f s).est.held = s.est.held ∧
    (regReq p h m a f s).recd.held = s.recd.held ∧
    (regReq p h m a f s).pwr.held = s.pwr.held ∧
    (regReq p h m a f s).pins.held = s.pins.held ∧
    ringsRest (regReq p h m a f s).ring = ringsRest s.ring := by
  refine ⟨regReq_part quiet_img ?_ ?_ s, regReq_part quiet_cfg ?_ ?_ s, regReq_part quiet_acq ?_ ?_ s,
      regReq_part quiet_cur ?_ ?_ s, regReq_part quiet_krn ?_ ?_ s, regReq_part quiet_win ?_ ?_ s,
          regReq_part quiet_pairs ?_ ?_ s, regReq_part quiet_time ?_ ?_ s, regReq_part quiet_therm ?_ ?_ s,
              regReq_part quiet_nv ?_ ?_ s, regReq_part quiet_ledg ?_ ?_ s, regReq_part quiet_tally ?_ ?_ s,
                  regReq_part quiet_sec ?_ ?_ s, regReq_part quiet_bist ?_ ?_ s, regReq_part quiet_freeIx ?_ ?_ s,
                      regReq_part quiet_pending ?_ ?_ s, regReq_part quiet_sys ?_ ?_ s,
                          regReq_part quiet_husk ?_ ?_ s, regReq_part quiet_drv ?_ ?_ s,
                              regReq_part quiet_est ?_ ?_ s, regReq_part quiet_recd ?_ ?_ s,
                                  regReq_part quiet_pwr ?_ ?_ s, regReq_part quiet_pins ?_ ?_ s,
                                      regReq_part quiet_ring ?_ ?_ s⟩ <;>
  · intro q v s
    simp [noteRefusal, putReg, ha, id @putEvt_keep]

/-- A write of a register of window 0x03. -/
theorem regReq_keepTime {p : Bool} {h : ReqHdr} {m : WrMeas} {a : Nat} (ha : a / 4096 = 0x03) (f : Word → Word)
    (s : State) :
    (regReq p h m a f s).img = s.img ∧
    (regReq p h m a f s).cfg = s.cfg ∧
    (regReq p h m a f s).acq = s.acq ∧
    (regReq p h m a f s).cur = s.cur ∧
    (regReq p h m a f s).krn = s.krn ∧
    (regReq p h m a f s).win = s.win ∧
    (regReq p h m a f s).pairs = s.pairs ∧
    (regReq p h m a f s).therm = s.therm ∧
    (regReq p h m a f s).nv = s.nv ∧
    (regReq p h m a f s).ledg = s.ledg ∧
    (regReq p h m a f s).tally = s.tally ∧
    (regReq p h m a f s).sec = s.sec ∧
    (regReq p h m a f s).bist = s.bist ∧
    (regReq p h m a f s).freeIx = s.freeIx ∧
    (regReq p h m a f s).pending = s.pending ∧
    (regReq p h m a f s).sys.held = s.sys.held ∧
    (regReq p h m a f s).husk.held = s.husk.held ∧
    (regReq p h m a f s).drv.held = s.drv.held ∧
    (regReq p h m a f s).est.held = s.est.held ∧
    (regReq p h m a f s).recd.held = s.recd.held ∧
    (regReq p h m a f s).pwr.held = s.pwr.held ∧
    (regReq p h m a f s).evt.held = s.evt.held ∧
    (regReq p h m a f s).pins.held = s.pins.held ∧
    ringsRest (regReq p h m a f s).ring = ringsRest s.ring := by
  refine ⟨regReq_part quiet_img ?_ ?_ s, regReq_part quiet_cfg ?_ ?_ s, regReq_part quiet_acq ?_ ?_ s,
      regReq_part quiet_cur ?_ ?_ s, regReq_part quiet_krn ?_ ?_ s, regReq_part quiet_win ?_ ?_ s,
          regReq_part quiet_pairs ?_ ?_ s, regReq_part quiet_therm ?_ ?_ s, regReq_part quiet_nv ?_ ?_ s,
              regReq_part quiet_ledg ?_ ?_ s, regReq_part quiet_tally ?_ ?_ s, regReq_part quiet_sec ?_ ?_ s,
                  regReq_part quiet_bist ?_ ?_ s, regReq_part quiet_freeIx ?_ ?_ s,
                      regReq_part quiet_pending ?_ ?_ s, regReq_part quiet_sys ?_ ?_ s,
                          regReq_part quiet_husk ?_ ?_ s, regReq_part quiet_drv ?_ ?_ s,
                              regReq_part quiet_est ?_ ?_ s, regReq_part quiet_recd ?_ ?_ s,
                                  regReq_part quiet_pwr ?_ ?_ s, regReq_part quiet_evt ?_ ?_ s,
                                      regReq_part quiet_pins ?_ ?_ s, regReq_part quiet_ring ?_ ?_ s⟩ <;>
  · intro q v s
    simp [noteRefusal, putReg, ha, id @putTime_keep]

/-- A write of a register of window 0x04. -/
theorem regReq_keepTherm {p : Bool} {h : ReqHdr} {m : WrMeas} {a : Nat} (ha : a / 4096 = 0x04) (f : Word → Word)
    (s : State) :
    (regReq p h m a f s).img = s.img ∧
    (regReq p h m a f s).cfg = s.cfg ∧
    (regReq p h m a f s).acq = s.acq ∧
    (regReq p h m a f s).cur = s.cur ∧
    (regReq p h m a f s).krn = s.krn ∧
    (regReq p h m a f s).win = s.win ∧
    (regReq p h m a f s).pairs = s.pairs ∧
    (regReq p h m a f s).time = s.time ∧
    (regReq p h m a f s).therm = s.therm ∧
    (regReq p h m a f s).ledg = s.ledg ∧
    (regReq p h m a f s).tally = s.tally ∧
    (regReq p h m a f s).sec = s.sec ∧
    (regReq p h m a f s).bist = s.bist ∧
    (regReq p h m a f s).freeIx = s.freeIx ∧
    (regReq p h m a f s).pending = s.pending ∧
    (regReq p h m a f s).sys.held = s.sys.held ∧
    (regReq p h m a f s).husk.held = s.husk.held ∧
    (regReq p h m a f s).drv.held = s.drv.held ∧
    (regReq p h m a f s).est.held = s.est.held ∧
    (regReq p h m a f s).recd.held = s.recd.held ∧
    (regReq p h m a f s).pwr.held = s.pwr.held ∧
    (regReq p h m a f s).evt.held = s.evt.held ∧
    (regReq p h m a f s).pins.held = s.pins.held ∧
    ringsRest (regReq p h m a f s).ring = ringsRest s.ring := by
  refine ⟨regReq_part quiet_img ?_ ?_ s, regReq_part quiet_cfg ?_ ?_ s, regReq_part quiet_acq ?_ ?_ s,
      regReq_part quiet_cur ?_ ?_ s, regReq_part quiet_krn ?_ ?_ s, regReq_part quiet_win ?_ ?_ s,
          regReq_part quiet_pairs ?_ ?_ s, regReq_part quiet_time ?_ ?_ s, regReq_part quiet_therm ?_ ?_ s,
              regReq_part quiet_ledg ?_ ?_ s, regReq_part quiet_tally ?_ ?_ s, regReq_part quiet_sec ?_ ?_ s,
                  regReq_part quiet_bist ?_ ?_ s, regReq_part quiet_freeIx ?_ ?_ s,
                      regReq_part quiet_pending ?_ ?_ s, regReq_part quiet_sys ?_ ?_ s,
                          regReq_part quiet_husk ?_ ?_ s, regReq_part quiet_drv ?_ ?_ s,
                              regReq_part quiet_est ?_ ?_ s, regReq_part quiet_recd ?_ ?_ s,
                                  regReq_part quiet_pwr ?_ ?_ s, regReq_part quiet_evt ?_ ?_ s,
                                      regReq_part quiet_pins ?_ ?_ s, regReq_part quiet_ring ?_ ?_ s⟩ <;>
  · intro q v s
    simp [noteRefusal, putReg, ha, id @putTherm_keep]

/-- A write of a register of window 0x05. -/
theorem regReq_keepImg {p : Bool} {h : ReqHdr} {m : WrMeas} {a : Nat} (ha : a / 4096 = 0x05) (f : Word → Word)
    (s : State) :
    (regReq p h m a f s).cfg = s.cfg ∧
    (regReq p h m a f s).acq = s.acq ∧
    (regReq p h m a f s).cur = s.cur ∧
    (regReq p h m a f s).krn = s.krn ∧
    (regReq p h m a f s).win = s.win ∧
    (regReq p h m a f s).pairs = s.pairs ∧
    (regReq p h m a f s).time = s.time ∧
    (regReq p h m a f s).therm = s.therm ∧
    (regReq p h m a f s).nv = s.nv ∧
    (regReq p h m a f s).ledg = s.ledg ∧
    (regReq p h m a f s).tally = s.tally ∧
    (regReq p h m a f s).sec = s.sec ∧
    (regReq p h m a f s).bist = s.bist ∧
    (regReq p h m a f s).freeIx = s.freeIx ∧
    (regReq p h m a f s).pending = s.pending ∧
    (regReq p h m a f s).sys.held = s.sys.held ∧
    (regReq p h m a f s).husk.held = s.husk.held ∧
    (regReq p h m a f s).drv.held = s.drv.held ∧
    (regReq p h m a f s).est.held = s.est.held ∧
    (regReq p h m a f s).recd.held = s.recd.held ∧
    (regReq p h m a f s).pwr.held = s.pwr.held ∧
    (regReq p h m a f s).evt.held = s.evt.held ∧
    (regReq p h m a f s).pins.held = s.pins.held ∧
    ringsRest (regReq p h m a f s).ring = ringsRest s.ring := by
  refine ⟨regReq_part quiet_cfg ?_ ?_ s, regReq_part quiet_acq ?_ ?_ s, regReq_part quiet_cur ?_ ?_ s,
      regReq_part quiet_krn ?_ ?_ s, regReq_part quiet_win ?_ ?_ s, regReq_part quiet_pairs ?_ ?_ s,
          regReq_part quiet_time ?_ ?_ s, regReq_part quiet_therm ?_ ?_ s, regReq_part quiet_nv ?_ ?_ s,
              regReq_part quiet_ledg ?_ ?_ s, regReq_part quiet_tally ?_ ?_ s, regReq_part quiet_sec ?_ ?_ s,
                  regReq_part quiet_bist ?_ ?_ s, regReq_part quiet_freeIx ?_ ?_ s,
                      regReq_part quiet_pending ?_ ?_ s, regReq_part quiet_sys ?_ ?_ s,
                          regReq_part quiet_husk ?_ ?_ s, regReq_part quiet_drv ?_ ?_ s,
                              regReq_part quiet_est ?_ ?_ s, regReq_part quiet_recd ?_ ?_ s,
                                  regReq_part quiet_pwr ?_ ?_ s, regReq_part quiet_evt ?_ ?_ s,
                                      regReq_part quiet_pins ?_ ?_ s, regReq_part quiet_ring ?_ ?_ s⟩ <;>
  · intro q v s
    simp [noteRefusal, putReg, ha, id @putImg_keep]

/-- A write of a register of window 0x06. -/
theorem regReq_keepRingA {p : Bool} {h : ReqHdr} {m : WrMeas} {a : Nat} (ha : a / 4096 = 0x06) (f : Word → Word)
    (s : State) :
    (regReq p h m a f s).img = s.img ∧
    (regReq p h m a f s).cfg = s.cfg ∧
    (regReq p h m a f s).acq = s.acq ∧
    (regReq p h m a f s).cur = s.cur ∧
    (regReq p h m a f s).krn = s.krn ∧
    (regReq p h m a f s).win = s.win ∧
    (regReq p h m a f s).pairs = s.pairs ∧
    (regReq p h m a f s).time = s.time ∧
    (regReq p h m a f s).therm = s.therm ∧
    (regReq p h m a f s).nv = s.nv ∧
    (regReq p h m a f s).ledg = s.ledg ∧
    (regReq p h m a f s).tally = s.tally ∧
    (regReq p h m a f s).sec = s.sec ∧
    (regReq p h m a f s).bist = s.bist ∧
    (regReq p h m a f s).freeIx = s.freeIx ∧
    (regReq p h m a f s).pending = s.pending ∧
    (regReq p h m a f s).sys.held = s.sys.held ∧
    (regReq p h m a f s).husk.held = s.husk.held ∧
    (regReq p h m a f s).drv.held = s.drv.held ∧
    (regReq p h m a f s).est.held = s.est.held ∧
    (regReq p h m a f s).recd.held = s.recd.held ∧
    (regReq p h m a f s).pwr.held = s.pwr.held ∧
    (regReq p h m a f s).evt.held = s.evt.held ∧
    (regReq p h m a f s).pins.held = s.pins.held := by
  refine ⟨regReq_part quiet_img ?_ ?_ s, regReq_part quiet_cfg ?_ ?_ s, regReq_part quiet_acq ?_ ?_ s,
      regReq_part quiet_cur ?_ ?_ s, regReq_part quiet_krn ?_ ?_ s, regReq_part quiet_win ?_ ?_ s,
          regReq_part quiet_pairs ?_ ?_ s, regReq_part quiet_time ?_ ?_ s, regReq_part quiet_therm ?_ ?_ s,
              regReq_part quiet_nv ?_ ?_ s, regReq_part quiet_ledg ?_ ?_ s, regReq_part quiet_tally ?_ ?_ s,
                  regReq_part quiet_sec ?_ ?_ s, regReq_part quiet_bist ?_ ?_ s, regReq_part quiet_freeIx ?_ ?_ s,
                      regReq_part quiet_pending ?_ ?_ s, regReq_part quiet_sys ?_ ?_ s,
                          regReq_part quiet_husk ?_ ?_ s, regReq_part quiet_drv ?_ ?_ s,
                              regReq_part quiet_est ?_ ?_ s, regReq_part quiet_recd ?_ ?_ s,
                                  regReq_part quiet_pwr ?_ ?_ s, regReq_part quiet_evt ?_ ?_ s,
                                      regReq_part quiet_pins ?_ ?_ s⟩ <;>
  · intro q v s
    simp [noteRefusal, putReg, ha, id @putRing_keep]

/-- A write of a register of window 0x07. -/
theorem regReq_keepRingB {p : Bool} {h : ReqHdr} {m : WrMeas} {a : Nat} (ha : a / 4096 = 0x07) (f : Word → Word)
    (s : State) :
    (regReq p h m a f s).img = s.img ∧
    (regReq p h m a f s).cfg = s.cfg ∧
    (regReq p h m a f s).acq = s.acq ∧
    (regReq p h m a f s).cur = s.cur ∧
    (regReq p h m a f s).krn = s.krn ∧
    (regReq p h m a f s).win = s.win ∧
    (regReq p h m a f s).pairs = s.pairs ∧
    (regReq p h m a f s).time = s.time ∧
    (regReq p h m a f s).therm = s.therm ∧
    (regReq p h m a f s).nv = s.nv ∧
    (regReq p h m a f s).ledg = s.ledg ∧
    (regReq p h m a f s).tally = s.tally ∧
    (regReq p h m a f s).sec = s.sec ∧
    (regReq p h m a f s).bist = s.bist ∧
    (regReq p h m a f s).freeIx = s.freeIx ∧
    (regReq p h m a f s).pending = s.pending ∧
    (regReq p h m a f s).sys.held = s.sys.held ∧
    (regReq p h m a f s).husk.held = s.husk.held ∧
    (regReq p h m a f s).drv.held = s.drv.held ∧
    (regReq p h m a f s).est.held = s.est.held ∧
    (regReq p h m a f s).recd.held = s.recd.held ∧
    (regReq p h m a f s).pwr.held = s.pwr.held ∧
    (regReq p h m a f s).evt.held = s.evt.held ∧
    (regReq p h m a f s).pins.held = s.pins.held := by
  refine ⟨regReq_part quiet_img ?_ ?_ s, regReq_part quiet_cfg ?_ ?_ s, regReq_part quiet_acq ?_ ?_ s,
      regReq_part quiet_cur ?_ ?_ s, regReq_part quiet_krn ?_ ?_ s, regReq_part quiet_win ?_ ?_ s,
          regReq_part quiet_pairs ?_ ?_ s, regReq_part quiet_time ?_ ?_ s, regReq_part quiet_therm ?_ ?_ s,
              regReq_part quiet_nv ?_ ?_ s, regReq_part quiet_ledg ?_ ?_ s, regReq_part quiet_tally ?_ ?_ s,
                  regReq_part quiet_sec ?_ ?_ s, regReq_part quiet_bist ?_ ?_ s, regReq_part quiet_freeIx ?_ ?_ s,
                      regReq_part quiet_pending ?_ ?_ s, regReq_part quiet_sys ?_ ?_ s,
                          regReq_part quiet_husk ?_ ?_ s, regReq_part quiet_drv ?_ ?_ s,
                              regReq_part quiet_est ?_ ?_ s, regReq_part quiet_recd ?_ ?_ s,
                                  regReq_part quiet_pwr ?_ ?_ s, regReq_part quiet_evt ?_ ?_ s,
                                      regReq_part quiet_pins ?_ ?_ s⟩ <;>
  · intro q v s
    simp [noteRefusal, putReg, ha, id @putRing_keep]

/-- A write of a register of window 0x08. -/
theorem regReq_keepAcq {p : Bool} {h : ReqHdr} {m : WrMeas} {a : Nat} (ha : a / 4096 = 0x08) (f : Word → Word)
    (s : State) :
    (regReq p h m a f s).img = s.img ∧
    (regReq p h m a f s).cfg = s.cfg ∧
    (regReq p h m a f s).cur = s.cur ∧
    (regReq p h m a f s).krn = s.krn ∧
    (regReq p h m a f s).win = s.win ∧
    (regReq p h m a f s).pairs = s.pairs ∧
    (regReq p h m a f s).time = s.time ∧
    (regReq p h m a f s).therm = s.therm ∧
    (regReq p h m a f s).nv = s.nv ∧
    (regReq p h m a f s).ledg = s.ledg ∧
    (regReq p h m a f s).tally = s.tally ∧
    (regReq p h m a f s).sec = s.sec ∧
    (regReq p h m a f s).bist = s.bist ∧
    (regReq p h m a f s).freeIx = s.freeIx ∧
    (regReq p h m a f s).pending = s.pending ∧
    (regReq p h m a f s).sys.held = s.sys.held ∧
    (regReq p h m a f s).husk.held = s.husk.held ∧
    (regReq p h m a f s).drv.held = s.drv.held ∧
    (regReq p h m a f s).est.held = s.est.held ∧
    (regReq p h m a f s).recd.held = s.recd.held ∧
    (regReq p h m a f s).pwr.held = s.pwr.held ∧
    (regReq p h m a f s).evt.held = s.evt.held ∧
    (regReq p h m a f s).pins.held = s.pins.held := by
  refine ⟨regReq_part quiet_img ?_ ?_ s, regReq_part quiet_cfg ?_ ?_ s, regReq_part quiet_cur ?_ ?_ s,
      regReq_part quiet_krn ?_ ?_ s, regReq_part quiet_win ?_ ?_ s, regReq_part quiet_pairs ?_ ?_ s,
          regReq_part quiet_time ?_ ?_ s, regReq_part quiet_therm ?_ ?_ s, regReq_part quiet_nv ?_ ?_ s,
              regReq_part quiet_ledg ?_ ?_ s, regReq_part quiet_tally ?_ ?_ s, regReq_part quiet_sec ?_ ?_ s,
                  regReq_part quiet_bist ?_ ?_ s, regReq_part quiet_freeIx ?_ ?_ s,
                      regReq_part quiet_pending ?_ ?_ s, regReq_part quiet_sys ?_ ?_ s,
                          regReq_part quiet_husk ?_ ?_ s, regReq_part quiet_drv ?_ ?_ s,
                              regReq_part quiet_est ?_ ?_ s, regReq_part quiet_recd ?_ ?_ s,
                                  regReq_part quiet_pwr ?_ ?_ s, regReq_part quiet_evt ?_ ?_ s,
                                      regReq_part quiet_pins ?_ ?_ s⟩ <;>
  · intro q v s
    simp [noteRefusal, putReg, ha, id @putAcq_keep]

/-- A write of a register of window 0x09. -/
theorem regReq_keepCur {p : Bool} {h : ReqHdr} {m : WrMeas} {a : Nat} (ha : a / 4096 = 0x09) (f : Word → Word)
    (s : State) :
    (regReq p h m a f s).img = s.img ∧
    (regReq p h m a f s).cfg = s.cfg ∧
    (regReq p h m a f s).acq = s.acq ∧
    (regReq p h m a f s).pairs = s.pairs ∧
    (regReq p h m a f s).time = s.time ∧
    (regReq p h m a f s).therm = s.therm ∧
    (regReq p h m a f s).ledg = s.ledg ∧
    (regReq p h m a f s).tally = s.tally ∧
    (regReq p h m a f s).sec = s.sec ∧
    (regReq p h m a f s).bist = s.bist ∧
    (regReq p h m a f s).freeIx = s.freeIx ∧
    (regReq p h m a f s).pending = s.pending ∧
    (regReq p h m a f s).sys.held = s.sys.held ∧
    (regReq p h m a f s).husk.held = s.husk.held ∧
    (regReq p h m a f s).drv.held = s.drv.held ∧
    (regReq p h m a f s).est.held = s.est.held ∧
    (regReq p h m a f s).recd.held = s.recd.held ∧
    (regReq p h m a f s).pwr.held = s.pwr.held ∧
    (regReq p h m a f s).evt.held = s.evt.held ∧
    (regReq p h m a f s).pins.held = s.pins.held ∧
    ringsRest (regReq p h m a f s).ring = ringsRest s.ring := by
  refine ⟨regReq_part quiet_img ?_ ?_ s, regReq_part quiet_cfg ?_ ?_ s, regReq_part quiet_acq ?_ ?_ s,
      regReq_part quiet_pairs ?_ ?_ s, regReq_part quiet_time ?_ ?_ s, regReq_part quiet_therm ?_ ?_ s,
          regReq_part quiet_ledg ?_ ?_ s, regReq_part quiet_tally ?_ ?_ s, regReq_part quiet_sec ?_ ?_ s,
              regReq_part quiet_bist ?_ ?_ s, regReq_part quiet_freeIx ?_ ?_ s, regReq_part quiet_pending ?_ ?_ s,
                  regReq_part quiet_sys ?_ ?_ s, regReq_part quiet_husk ?_ ?_ s, regReq_part quiet_drv ?_ ?_ s,
                      regReq_part quiet_est ?_ ?_ s, regReq_part quiet_recd ?_ ?_ s, regReq_part quiet_pwr ?_ ?_ s,
                          regReq_part quiet_evt ?_ ?_ s, regReq_part quiet_pins ?_ ?_ s,
                              regReq_part quiet_ring ?_ ?_ s⟩ <;>
  · intro q v s
    simp [noteRefusal, putReg, ha, id @putCur_keep]

/-- A write of a register of window 0x0A. -/
theorem regReq_keepHusk {p : Bool} {h : ReqHdr} {m : WrMeas} {a : Nat} (ha : a / 4096 = 0x0A) (f : Word → Word)
    (s : State) :
    (regReq p h m a f s).img = s.img ∧
    (regReq p h m a f s).cfg = s.cfg ∧
    (regReq p h m a f s).acq = s.acq ∧
    (regReq p h m a f s).krn = s.krn ∧
    (regReq p h m a f s).win = s.win ∧
    (regReq p h m a f s).pairs = s.pairs ∧
    (regReq p h m a f s).time = s.time ∧
    (regReq p h m a f s).therm = s.therm ∧
    (regReq p h m a f s).nv = s.nv ∧
    (regReq p h m a f s).ledg = s.ledg ∧
    (regReq p h m a f s).tally = s.tally ∧
    (regReq p h m a f s).sec = s.sec ∧
    (regReq p h m a f s).bist = s.bist ∧
    (regReq p h m a f s).freeIx = s.freeIx ∧
    (regReq p h m a f s).pending = s.pending ∧
    (regReq p h m a f s).sys.held = s.sys.held ∧
    (regReq p h m a f s).drv.held = s.drv.held ∧
    (regReq p h m a f s).est.held = s.est.held ∧
    (regReq p h m a f s).recd.held = s.recd.held ∧
    (regReq p h m a f s).pwr.held = s.pwr.held ∧
    (regReq p h m a f s).pins.held = s.pins.held ∧
    ringsRest (regReq p h m a f s).ring = ringsRest s.ring := by
  refine ⟨regReq_part quiet_img ?_ ?_ s, regReq_part quiet_cfg ?_ ?_ s, regReq_part quiet_acq ?_ ?_ s,
      regReq_part quiet_krn ?_ ?_ s, regReq_part quiet_win ?_ ?_ s, regReq_part quiet_pairs ?_ ?_ s,
          regReq_part quiet_time ?_ ?_ s, regReq_part quiet_therm ?_ ?_ s, regReq_part quiet_nv ?_ ?_ s,
              regReq_part quiet_ledg ?_ ?_ s, regReq_part quiet_tally ?_ ?_ s, regReq_part quiet_sec ?_ ?_ s,
                  regReq_part quiet_bist ?_ ?_ s, regReq_part quiet_freeIx ?_ ?_ s,
                      regReq_part quiet_pending ?_ ?_ s, regReq_part quiet_sys ?_ ?_ s,
                          regReq_part quiet_drv ?_ ?_ s, regReq_part quiet_est ?_ ?_ s,
                              regReq_part quiet_recd ?_ ?_ s, regReq_part quiet_pwr ?_ ?_ s,
                                  regReq_part quiet_pins ?_ ?_ s, regReq_part quiet_ring ?_ ?_ s⟩ <;>
  · intro q v s
    simp [noteRefusal, putReg, ha, id @putHusk_keep]

/-- A write of a register of window 0x0B. -/
theorem regReq_keepDrv {p : Bool} {h : ReqHdr} {m : WrMeas} {a : Nat} (ha : a / 4096 = 0x0B) (f : Word → Word)
    (s : State) :
    (regReq p h m a f s).img = s.img ∧
    (regReq p h m a f s).cfg = s.cfg ∧
    (regReq p h m a f s).acq = s.acq ∧
    (regReq p h m a f s).cur = s.cur ∧
    (regReq p h m a f s).krn = s.krn ∧
    (regReq p h m a f s).win = s.win ∧
    (regReq p h m a f s).pairs = s.pairs ∧
    (regReq p h m a f s).time = s.time ∧
    (regReq p h m a f s).therm = s.therm ∧
    (regReq p h m a f s).nv = s.nv ∧
    (regReq p h m a f s).ledg = s.ledg ∧
    (regReq p h m a f s).tally = s.tally ∧
    (regReq p h m a f s).sec = s.sec ∧
    (regReq p h m a f s).bist = s.bist ∧
    (regReq p h m a f s).freeIx = s.freeIx ∧
    (regReq p h m a f s).pending = s.pending ∧
    (regReq p h m a f s).sys.held = s.sys.held ∧
    (regReq p h m a f s).husk.held = s.husk.held ∧
    (regReq p h m a f s).drv.held = s.drv.held ∧
    (regReq p h m a f s).est.held = s.est.held ∧
    (regReq p h m a f s).recd.held = s.recd.held ∧
    (regReq p h m a f s).pwr.held = s.pwr.held ∧
    (regReq p h m a f s).evt.held = s.evt.held ∧
    (regReq p h m a f s).pins.held = s.pins.held ∧
    ringsRest (regReq p h m a f s).ring = ringsRest s.ring := by
  refine ⟨regReq_part quiet_img ?_ ?_ s, regReq_part quiet_cfg ?_ ?_ s, regReq_part quiet_acq ?_ ?_ s,
      regReq_part quiet_cur ?_ ?_ s, regReq_part quiet_krn ?_ ?_ s, regReq_part quiet_win ?_ ?_ s,
          regReq_part quiet_pairs ?_ ?_ s, regReq_part quiet_time ?_ ?_ s, regReq_part quiet_therm ?_ ?_ s,
              regReq_part quiet_nv ?_ ?_ s, regReq_part quiet_ledg ?_ ?_ s, regReq_part quiet_tally ?_ ?_ s,
                  regReq_part quiet_sec ?_ ?_ s, regReq_part quiet_bist ?_ ?_ s, regReq_part quiet_freeIx ?_ ?_ s,
                      regReq_part quiet_pending ?_ ?_ s, regReq_part quiet_sys ?_ ?_ s,
                          regReq_part quiet_husk ?_ ?_ s, regReq_part quiet_drv ?_ ?_ s,
                              regReq_part quiet_est ?_ ?_ s, regReq_part quiet_recd ?_ ?_ s,
                                  regReq_part quiet_pwr ?_ ?_ s, regReq_part quiet_evt ?_ ?_ s,
                                      regReq_part quiet_pins ?_ ?_ s, regReq_part quiet_ring ?_ ?_ s⟩ <;>
  · intro q v s
    simp [noteRefusal, putReg, ha, id @putDrv_keep]

/-- A write of a register of window 0x0C. -/
theorem regReq_keepKrn {p : Bool} {h : ReqHdr} {m : WrMeas} {a : Nat} (ha : a / 4096 = 0x0C) (f : Word → Word)
    (s : State) :
    (regReq p h m a f s).img = s.img ∧
    (regReq p h m a f s).cfg = s.cfg ∧
    (regReq p h m a f s).acq = s.acq ∧
    (regReq p h m a f s).cur = s.cur ∧
    (regReq p h m a f s).win = s.win ∧
    (regReq p h m a f s).pairs = s.pairs ∧
    (regReq p h m a f s).time = s.time ∧
    (regReq p h m a f s).therm = s.therm ∧
    (regReq p h m a f s).nv = s.nv ∧
    (regReq p h m a f s).ledg = s.ledg ∧
    (regReq p h m a f s).tally = s.tally ∧
    (regReq p h m a f s).sec = s.sec ∧
    (regReq p h m a f s).bist = s.bist ∧
    (regReq p h m a f s).freeIx = s.freeIx ∧
    (regReq p h m a f s).pending = s.pending ∧
    (regReq p h m a f s).sys.held = s.sys.held ∧
    (regReq p h m a f s).husk.held = s.husk.held ∧
    (regReq p h m a f s).drv.held = s.drv.held ∧
    (regReq p h m a f s).est.held = s.est.held ∧
    (regReq p h m a f s).recd.held = s.recd.held ∧
    (regReq p h m a f s).pwr.held = s.pwr.held ∧
    (regReq p h m a f s).evt.held = s.evt.held ∧
    (regReq p h m a f s).pins.held = s.pins.held ∧
    ringsRest (regReq p h m a f s).ring = ringsRest s.ring := by
  refine ⟨regReq_part quiet_img ?_ ?_ s, regReq_part quiet_cfg ?_ ?_ s, regReq_part quiet_acq ?_ ?_ s,
      regReq_part quiet_cur ?_ ?_ s, regReq_part quiet_win ?_ ?_ s, regReq_part quiet_pairs ?_ ?_ s,
          regReq_part quiet_time ?_ ?_ s, regReq_part quiet_therm ?_ ?_ s, regReq_part quiet_nv ?_ ?_ s,
              regReq_part quiet_ledg ?_ ?_ s, regReq_part quiet_tally ?_ ?_ s, regReq_part quiet_sec ?_ ?_ s,
                  regReq_part quiet_bist ?_ ?_ s, regReq_part quiet_freeIx ?_ ?_ s,
                      regReq_part quiet_pending ?_ ?_ s, regReq_part quiet_sys ?_ ?_ s,
                          regReq_part quiet_husk ?_ ?_ s, regReq_part quiet_drv ?_ ?_ s,
                              regReq_part quiet_est ?_ ?_ s, regReq_part quiet_recd ?_ ?_ s,
                                  regReq_part quiet_pwr ?_ ?_ s, regReq_part quiet_evt ?_ ?_ s,
                                      regReq_part quiet_pins ?_ ?_ s, regReq_part quiet_ring ?_ ?_ s⟩ <;>
  · intro q v s
    simp [noteRefusal, putReg, ha, id @putKrn_keep]

/-- A write of a register of window 0x0D. -/
theorem regReq_keepPair {p : Bool} {h : ReqHdr} {m : WrMeas} {a : Nat} (ha : a / 4096 = 0x0D) (f : Word → Word)
    (s : State) :
    (regReq p h m a f s).img = s.img ∧
    (regReq p h m a f s).cfg = s.cfg ∧
    (regReq p h m a f s).acq = s.acq ∧
    (regReq p h m a f s).cur = s.cur ∧
    (regReq p h m a f s).krn = s.krn ∧
    (regReq p h m a f s).win = s.win ∧
    (regReq p h m a f s).time = s.time ∧
    (regReq p h m a f s).therm = s.therm ∧
    (regReq p h m a f s).nv = s.nv ∧
    (regReq p h m a f s).ledg = s.ledg ∧
    (regReq p h m a f s).tally = s.tally ∧
    (regReq p h m a f s).sec = s.sec ∧
    (regReq p h m a f s).bist = s.bist ∧
    (regReq p h m a f s).freeIx = s.freeIx ∧
    (regReq p h m a f s).pending = s.pending ∧
    (regReq p h m a f s).sys.held = s.sys.held ∧
    (regReq p h m a f s).husk.held = s.husk.held ∧
    (regReq p h m a f s).drv.held = s.drv.held ∧
    (regReq p h m a f s).est.held = s.est.held ∧
    (regReq p h m a f s).recd.held = s.recd.held ∧
    (regReq p h m a f s).pwr.held = s.pwr.held ∧
    (regReq p h m a f s).evt.held = s.evt.held ∧
    (regReq p h m a f s).pins.held = s.pins.held ∧
    ringsRest (regReq p h m a f s).ring = ringsRest s.ring := by
  refine ⟨regReq_part quiet_img ?_ ?_ s, regReq_part quiet_cfg ?_ ?_ s, regReq_part quiet_acq ?_ ?_ s,
      regReq_part quiet_cur ?_ ?_ s, regReq_part quiet_krn ?_ ?_ s, regReq_part quiet_win ?_ ?_ s,
          regReq_part quiet_time ?_ ?_ s, regReq_part quiet_therm ?_ ?_ s, regReq_part quiet_nv ?_ ?_ s,
              regReq_part quiet_ledg ?_ ?_ s, regReq_part quiet_tally ?_ ?_ s, regReq_part quiet_sec ?_ ?_ s,
                  regReq_part quiet_bist ?_ ?_ s, regReq_part quiet_freeIx ?_ ?_ s,
                      regReq_part quiet_pending ?_ ?_ s, regReq_part quiet_sys ?_ ?_ s,
                          regReq_part quiet_husk ?_ ?_ s, regReq_part quiet_drv ?_ ?_ s,
                              regReq_part quiet_est ?_ ?_ s, regReq_part quiet_recd ?_ ?_ s,
                                  regReq_part quiet_pwr ?_ ?_ s, regReq_part quiet_evt ?_ ?_ s,
                                      regReq_part quiet_pins ?_ ?_ s, regReq_part quiet_ring ?_ ?_ s⟩ <;>
  · intro q v s
    simp [noteRefusal, putReg, ha, id @putPair_keep]

/-- A write of a register of window 0x0E. -/
theorem regReq_keepEst {p : Bool} {h : ReqHdr} {m : WrMeas} {a : Nat} (ha : a / 4096 = 0x0E) (f : Word → Word)
    (s : State) :
    (regReq p h m a f s).img = s.img ∧
    (regReq p h m a f s).cfg = s.cfg ∧
    (regReq p h m a f s).acq = s.acq ∧
    (regReq p h m a f s).cur = s.cur ∧
    (regReq p h m a f s).krn = s.krn ∧
    (regReq p h m a f s).win = s.win ∧
    (regReq p h m a f s).pairs = s.pairs ∧
    (regReq p h m a f s).time = s.time ∧
    (regReq p h m a f s).therm = s.therm ∧
    (regReq p h m a f s).nv = s.nv ∧
    (regReq p h m a f s).ledg = s.ledg ∧
    (regReq p h m a f s).tally = s.tally ∧
    (regReq p h m a f s).sec = s.sec ∧
    (regReq p h m a f s).bist = s.bist ∧
    (regReq p h m a f s).freeIx = s.freeIx ∧
    (regReq p h m a f s).pending = s.pending ∧
    (regReq p h m a f s).sys.held = s.sys.held ∧
    (regReq p h m a f s).husk.held = s.husk.held ∧
    (regReq p h m a f s).drv.held = s.drv.held ∧
    (regReq p h m a f s).pwr.held = s.pwr.held ∧
    (regReq p h m a f s).evt.held = s.evt.held ∧
    (regReq p h m a f s).pins.held = s.pins.held ∧
    ringsRest (regReq p h m a f s).ring = ringsRest s.ring := by
  refine ⟨regReq_part quiet_img ?_ ?_ s, regReq_part quiet_cfg ?_ ?_ s, regReq_part quiet_acq ?_ ?_ s,
      regReq_part quiet_cur ?_ ?_ s, regReq_part quiet_krn ?_ ?_ s, regReq_part quiet_win ?_ ?_ s,
          regReq_part quiet_pairs ?_ ?_ s, regReq_part quiet_time ?_ ?_ s, regReq_part quiet_therm ?_ ?_ s,
              regReq_part quiet_nv ?_ ?_ s, regReq_part quiet_ledg ?_ ?_ s, regReq_part quiet_tally ?_ ?_ s,
                  regReq_part quiet_sec ?_ ?_ s, regReq_part quiet_bist ?_ ?_ s, regReq_part quiet_freeIx ?_ ?_ s,
                      regReq_part quiet_pending ?_ ?_ s, regReq_part quiet_sys ?_ ?_ s,
                          regReq_part quiet_husk ?_ ?_ s, regReq_part quiet_drv ?_ ?_ s,
                              regReq_part quiet_pwr ?_ ?_ s, regReq_part quiet_evt ?_ ?_ s,
                                  regReq_part quiet_pins ?_ ?_ s, regReq_part quiet_ring ?_ ?_ s⟩ <;>
  · intro q v s
    simp [noteRefusal, putReg, ha, id @putEst_keep]

/-- A write of a register of window 0x0F. -/
theorem regReq_keepWin {p : Bool} {h : ReqHdr} {m : WrMeas} {a : Nat} (ha : a / 4096 = 0x0F) (f : Word → Word)
    (s : State) :
    (regReq p h m a f s).img = s.img ∧
    (regReq p h m a f s).cfg = s.cfg ∧
    (regReq p h m a f s).acq = s.acq ∧
    (regReq p h m a f s).cur = s.cur ∧
    (regReq p h m a f s).krn = s.krn ∧
    (regReq p h m a f s).pairs = s.pairs ∧
    (regReq p h m a f s).time = s.time ∧
    (regReq p h m a f s).therm = s.therm ∧
    (regReq p h m a f s).nv = s.nv ∧
    (regReq p h m a f s).ledg = s.ledg ∧
    (regReq p h m a f s).tally = s.tally ∧
    (regReq p h m a f s).sec = s.sec ∧
    (regReq p h m a f s).bist = s.bist ∧
    (regReq p h m a f s).freeIx = s.freeIx ∧
    (regReq p h m a f s).pending = s.pending ∧
    (regReq p h m a f s).sys.held = s.sys.held ∧
    (regReq p h m a f s).husk.held = s.husk.held ∧
    (regReq p h m a f s).drv.held = s.drv.held ∧
    (regReq p h m a f s).est.held = s.est.held ∧
    (regReq p h m a f s).recd.held = s.recd.held ∧
    (regReq p h m a f s).pwr.held = s.pwr.held ∧
    (regReq p h m a f s).evt.held = s.evt.held ∧
    (regReq p h m a f s).pins.held = s.pins.held ∧
    ringsRest (regReq p h m a f s).ring = ringsRest s.ring := by
  refine ⟨regReq_part quiet_img ?_ ?_ s, regReq_part quiet_cfg ?_ ?_ s, regReq_part quiet_acq ?_ ?_ s,
      regReq_part quiet_cur ?_ ?_ s, regReq_part quiet_krn ?_ ?_ s, regReq_part quiet_pairs ?_ ?_ s,
          regReq_part quiet_time ?_ ?_ s, regReq_part quiet_therm ?_ ?_ s, regReq_part quiet_nv ?_ ?_ s,
              regReq_part quiet_ledg ?_ ?_ s, regReq_part quiet_tally ?_ ?_ s, regReq_part quiet_sec ?_ ?_ s,
                  regReq_part quiet_bist ?_ ?_ s, regReq_part quiet_freeIx ?_ ?_ s,
                      regReq_part quiet_pending ?_ ?_ s, regReq_part quiet_sys ?_ ?_ s,
                          regReq_part quiet_husk ?_ ?_ s, regReq_part quiet_drv ?_ ?_ s,
                              regReq_part quiet_est ?_ ?_ s, regReq_part quiet_recd ?_ ?_ s,
                                  regReq_part quiet_pwr ?_ ?_ s, regReq_part quiet_evt ?_ ?_ s,
                                      regReq_part quiet_pins ?_ ?_ s, regReq_part quiet_ring ?_ ?_ s⟩ <;>
  · intro q v s
    simp [noteRefusal, putReg, ha, id @putWin_keep]

/-- A write of a register of window 0x10. -/
theorem regReq_keepNv {p : Bool} {h : ReqHdr} {m : WrMeas} {a : Nat} (ha : a / 4096 = 0x10) (f : Word → Word)
    (s : State) :
    (regReq p h m a f s).img = s.img ∧
    (regReq p h m a f s).cfg = s.cfg ∧
    (regReq p h m a f s).acq = s.acq ∧
    (regReq p h m a f s).cur = s.cur ∧
    (regReq p h m a f s).pairs = s.pairs ∧
    (regReq p h m a f s).time = s.time ∧
    (regReq p h m a f s).therm = s.therm ∧
    (regReq p h m a f s).tally = s.tally ∧
    (regReq p h m a f s).sec = s.sec ∧
    (regReq p h m a f s).bist = s.bist ∧
    (regReq p h m a f s).freeIx = s.freeIx ∧
    (regReq p h m a f s).pending = s.pending ∧
    (regReq p h m a f s).sys.held = s.sys.held ∧
    (regReq p h m a f s).husk.held = s.husk.held ∧
    (regReq p h m a f s).drv.held = s.drv.held ∧
    (regReq p h m a f s).est.held = s.est.held ∧
    (regReq p h m a f s).recd.held = s.recd.held ∧
    (regReq p h m a f s).pwr.held = s.pwr.held ∧
    (regReq p h m a f s).evt.held = s.evt.held ∧
    (regReq p h m a f s).pins.held = s.pins.held ∧
    ringsRest (regReq p h m a f s).ring = ringsRest s.ring := by
  refine ⟨regReq_part quiet_img ?_ ?_ s, regReq_part quiet_cfg ?_ ?_ s, regReq_part quiet_acq ?_ ?_ s,
      regReq_part quiet_cur ?_ ?_ s, regReq_part quiet_pairs ?_ ?_ s, regReq_part quiet_time ?_ ?_ s,
          regReq_part quiet_therm ?_ ?_ s, regReq_part quiet_tally ?_ ?_ s, regReq_part quiet_sec ?_ ?_ s,
              regReq_part quiet_bist ?_ ?_ s, regReq_part quiet_freeIx ?_ ?_ s, regReq_part quiet_pending ?_ ?_ s,
                  regReq_part quiet_sys ?_ ?_ s, regReq_part quiet_husk ?_ ?_ s, regReq_part quiet_drv ?_ ?_ s,
                      regReq_part quiet_est ?_ ?_ s, regReq_part quiet_recd ?_ ?_ s, regReq_part quiet_pwr ?_ ?_ s,
                          regReq_part quiet_evt ?_ ?_ s, regReq_part quiet_pins ?_ ?_ s,
                              regReq_part quiet_ring ?_ ?_ s⟩ <;>
  · intro q v s
    simp [noteRefusal, putReg, ha, id @putNvLedg_keep]

/-- A write of a register of window 0x11. -/
theorem regReq_keepLedg {p : Bool} {h : ReqHdr} {m : WrMeas} {a : Nat} (ha : a / 4096 = 0x11) (f : Word → Word)
    (s : State) :
    (regReq p h m a f s).img = s.img ∧
    (regReq p h m a f s).cfg = s.cfg ∧
    (regReq p h m a f s).acq = s.acq ∧
    (regReq p h m a f s).cur = s.cur ∧
    (regReq p h m a f s).pairs = s.pairs ∧
    (regReq p h m a f s).time = s.time ∧
    (regReq p h m a f s).therm = s.therm ∧
    (regReq p h m a f s).tally = s.tally ∧
    (regReq p h m a f s).sec = s.sec ∧
    (regReq p h m a f s).bist = s.bist ∧
    (regReq p h m a f s).freeIx = s.freeIx ∧
    (regReq p h m a f s).pending = s.pending ∧
    (regReq p h m a f s).sys.held = s.sys.held ∧
    (regReq p h m a f s).husk.held = s.husk.held ∧
    (regReq p h m a f s).drv.held = s.drv.held ∧
    (regReq p h m a f s).est.held = s.est.held ∧
    (regReq p h m a f s).recd.held = s.recd.held ∧
    (regReq p h m a f s).pwr.held = s.pwr.held ∧
    (regReq p h m a f s).evt.held = s.evt.held ∧
    (regReq p h m a f s).pins.held = s.pins.held ∧
    ringsRest (regReq p h m a f s).ring = ringsRest s.ring := by
  refine ⟨regReq_part quiet_img ?_ ?_ s, regReq_part quiet_cfg ?_ ?_ s, regReq_part quiet_acq ?_ ?_ s,
      regReq_part quiet_cur ?_ ?_ s, regReq_part quiet_pairs ?_ ?_ s, regReq_part quiet_time ?_ ?_ s,
          regReq_part quiet_therm ?_ ?_ s, regReq_part quiet_tally ?_ ?_ s, regReq_part quiet_sec ?_ ?_ s,
              regReq_part quiet_bist ?_ ?_ s, regReq_part quiet_freeIx ?_ ?_ s, regReq_part quiet_pending ?_ ?_ s,
                  regReq_part quiet_sys ?_ ?_ s, regReq_part quiet_husk ?_ ?_ s, regReq_part quiet_drv ?_ ?_ s,
                      regReq_part quiet_est ?_ ?_ s, regReq_part quiet_recd ?_ ?_ s, regReq_part quiet_pwr ?_ ?_ s,
                          regReq_part quiet_evt ?_ ?_ s, regReq_part quiet_pins ?_ ?_ s,
                              regReq_part quiet_ring ?_ ?_ s⟩ <;>
  · intro q v s
    simp [noteRefusal, putReg, ha, id @putNvLedg_keep]

/-- A write of a register of window 0x12. -/
theorem regReq_keepRec {p : Bool} {h : ReqHdr} {m : WrMeas} {a : Nat} (ha : a / 4096 = 0x12) (f : Word → Word)
    (s : State) :
    (regReq p h m a f s).img = s.img ∧
    (regReq p h m a f s).cfg = s.cfg ∧
    (regReq p h m a f s).acq = s.acq ∧
    (regReq p h m a f s).cur = s.cur ∧
    (regReq p h m a f s).pairs = s.pairs ∧
    (regReq p h m a f s).time = s.time ∧
    (regReq p h m a f s).therm = s.therm ∧
    (regReq p h m a f s).ledg = s.ledg ∧
    (regReq p h m a f s).tally = s.tally ∧
    (regReq p h m a f s).sec = s.sec ∧
    (regReq p h m a f s).bist = s.bist ∧
    (regReq p h m a f s).freeIx = s.freeIx ∧
    (regReq p h m a f s).pending = s.pending ∧
    (regReq p h m a f s).sys.held = s.sys.held ∧
    (regReq p h m a f s).husk.held = s.husk.held ∧
    (regReq p h m a f s).drv.held = s.drv.held ∧
    (regReq p h m a f s).est.held = s.est.held ∧
    (regReq p h m a f s).pwr.held = s.pwr.held ∧
    (regReq p h m a f s).evt.held = s.evt.held ∧
    (regReq p h m a f s).pins.held = s.pins.held ∧
    ringsRest (regReq p h m a f s).ring = ringsRest s.ring := by
  refine ⟨regReq_part quiet_img ?_ ?_ s, regReq_part quiet_cfg ?_ ?_ s, regReq_part quiet_acq ?_ ?_ s,
      regReq_part quiet_cur ?_ ?_ s, regReq_part quiet_pairs ?_ ?_ s, regReq_part quiet_time ?_ ?_ s,
          regReq_part quiet_therm ?_ ?_ s, regReq_part quiet_ledg ?_ ?_ s, regReq_part quiet_tally ?_ ?_ s,
              regReq_part quiet_sec ?_ ?_ s, regReq_part quiet_bist ?_ ?_ s, regReq_part quiet_freeIx ?_ ?_ s,
                  regReq_part quiet_pending ?_ ?_ s, regReq_part quiet_sys ?_ ?_ s, regReq_part quiet_husk ?_ ?_ s,
                      regReq_part quiet_drv ?_ ?_ s, regReq_part quiet_est ?_ ?_ s, regReq_part quiet_pwr ?_ ?_ s,
                          regReq_part quiet_evt ?_ ?_ s, regReq_part quiet_pins ?_ ?_ s,
                              regReq_part quiet_ring ?_ ?_ s⟩ <;>
  · intro q v s
    simp [noteRefusal, putReg, ha, id @putRecW_keep]

/-- A write of a register of window 0x13. -/
theorem regReq_keepHost {p : Bool} {h : ReqHdr} {m : WrMeas} {a : Nat} (ha : a / 4096 = 0x13) (f : Word → Word)
    (s : State) :
    (regReq p h m a f s).img = s.img ∧
    (regReq p h m a f s).cfg = s.cfg ∧
    (regReq p h m a f s).acq = s.acq ∧
    (regReq p h m a f s).cur = s.cur ∧
    (regReq p h m a f s).krn = s.krn ∧
    (regReq p h m a f s).win = s.win ∧
    (regReq p h m a f s).pairs = s.pairs ∧
    (regReq p h m a f s).time = s.time ∧
    (regReq p h m a f s).therm = s.therm ∧
    (regReq p h m a f s).nv = s.nv ∧
    (regReq p h m a f s).ledg = s.ledg ∧
    (regReq p h m a f s).tally = s.tally ∧
    (regReq p h m a f s).sec = s.sec ∧
    (regReq p h m a f s).bist = s.bist ∧
    (regReq p h m a f s).freeIx = s.freeIx ∧
    (regReq p h m a f s).pending = s.pending ∧
    (regReq p h m a f s).sys.held = s.sys.held ∧
    (regReq p h m a f s).husk.held = s.husk.held ∧
    (regReq p h m a f s).drv.held = s.drv.held ∧
    (regReq p h m a f s).est.held = s.est.held ∧
    (regReq p h m a f s).recd.held = s.recd.held ∧
    (regReq p h m a f s).pwr.held = s.pwr.held ∧
    (regReq p h m a f s).evt.held = s.evt.held ∧
    (regReq p h m a f s).pins.held = s.pins.held ∧
    ringsRest (regReq p h m a f s).ring = ringsRest s.ring := by
  refine ⟨regReq_part quiet_img ?_ ?_ s, regReq_part quiet_cfg ?_ ?_ s, regReq_part quiet_acq ?_ ?_ s,
      regReq_part quiet_cur ?_ ?_ s, regReq_part quiet_krn ?_ ?_ s, regReq_part quiet_win ?_ ?_ s,
          regReq_part quiet_pairs ?_ ?_ s, regReq_part quiet_time ?_ ?_ s, regReq_part quiet_therm ?_ ?_ s,
              regReq_part quiet_nv ?_ ?_ s, regReq_part quiet_ledg ?_ ?_ s, regReq_part quiet_tally ?_ ?_ s,
                  regReq_part quiet_sec ?_ ?_ s, regReq_part quiet_bist ?_ ?_ s, regReq_part quiet_freeIx ?_ ?_ s,
                      regReq_part quiet_pending ?_ ?_ s, regReq_part quiet_sys ?_ ?_ s,
                          regReq_part quiet_husk ?_ ?_ s, regReq_part quiet_drv ?_ ?_ s,
                              regReq_part quiet_est ?_ ?_ s, regReq_part quiet_recd ?_ ?_ s,
                                  regReq_part quiet_pwr ?_ ?_ s, regReq_part quiet_evt ?_ ?_ s,
                                      regReq_part quiet_pins ?_ ?_ s, regReq_part quiet_ring ?_ ?_ s⟩ <;>
  · intro q v s
    simp [noteRefusal, putReg, ha, id @putHost_keep]

/-- A write of a register of window 0x14. -/
theorem regReq_keepSec {p : Bool} {h : ReqHdr} {m : WrMeas} {a : Nat} (ha : a / 4096 = 0x14) (f : Word → Word)
    (s : State) :
    (regReq p h m a f s).img = s.img ∧
    (regReq p h m a f s).cfg = s.cfg ∧
    (regReq p h m a f s).acq = s.acq ∧
    (regReq p h m a f s).cur = s.cur ∧
    (regReq p h m a f s).pairs = s.pairs ∧
    (regReq p h m a f s).time = s.time ∧
    (regReq p h m a f s).therm = s.therm ∧
    (regReq p h m a f s).tally = s.tally ∧
    (regReq p h m a f s).bist = s.bist ∧
    (regReq p h m a f s).freeIx = s.freeIx ∧
    (regReq p h m a f s).pending = s.pending ∧
    (regReq p h m a f s).sys.held = s.sys.held ∧
    (regReq p h m a f s).husk.held = s.husk.held ∧
    (regReq p h m a f s).drv.held = s.drv.held ∧
    (regReq p h m a f s).est.held = s.est.held ∧
    (regReq p h m a f s).recd.held = s.recd.held ∧
    (regReq p h m a f s).pwr.held = s.pwr.held ∧
    (regReq p h m a f s).evt.held = s.evt.held ∧
    (regReq p h m a f s).pins.held = s.pins.held ∧
    ringsRest (regReq p h m a f s).ring = ringsRest s.ring := by
  refine ⟨regReq_part quiet_img ?_ ?_ s, regReq_part quiet_cfg ?_ ?_ s, regReq_part quiet_acq ?_ ?_ s,
      regReq_part quiet_cur ?_ ?_ s, regReq_part quiet_pairs ?_ ?_ s, regReq_part quiet_time ?_ ?_ s,
          regReq_part quiet_therm ?_ ?_ s, regReq_part quiet_tally ?_ ?_ s, regReq_part quiet_bist ?_ ?_ s,
              regReq_part quiet_freeIx ?_ ?_ s, regReq_part quiet_pending ?_ ?_ s, regReq_part quiet_sys ?_ ?_ s,
                  regReq_part quiet_husk ?_ ?_ s, regReq_part quiet_drv ?_ ?_ s, regReq_part quiet_est ?_ ?_ s,
                      regReq_part quiet_recd ?_ ?_ s, regReq_part quiet_pwr ?_ ?_ s, regReq_part quiet_evt ?_ ?_ s,
                          regReq_part quiet_pins ?_ ?_ s, regReq_part quiet_ring ?_ ?_ s⟩ <;>
  · intro q v s
    simp [noteRefusal, putReg, ha, id @putSec_keep]

/-- A write of a register of window 0x15. -/
theorem regReq_keepBist {p : Bool} {h : ReqHdr} {m : WrMeas} {a : Nat} (ha : a / 4096 = 0x15) (f : Word → Word)
    (s : State) :
    (regReq p h m a f s).img = s.img ∧
    (regReq p h m a f s).cfg = s.cfg ∧
    (regReq p h m a f s).acq = s.acq ∧
    (regReq p h m a f s).cur = s.cur ∧
    (regReq p h m a f s).win = s.win ∧
    (regReq p h m a f s).time = s.time ∧
    (regReq p h m a f s).therm = s.therm ∧
    (regReq p h m a f s).nv = s.nv ∧
    (regReq p h m a f s).ledg = s.ledg ∧
    (regReq p h m a f s).tally = s.tally ∧
    (regReq p h m a f s).sec = s.sec ∧
    (regReq p h m a f s).pending = s.pending ∧
    (regReq p h m a f s).sys.held = s.sys.held ∧
    (regReq p h m a f s).husk.held = s.husk.held ∧
    (regReq p h m a f s).drv.held = s.drv.held ∧
    (regReq p h m a f s).est.held = s.est.held ∧
    (regReq p h m a f s).evt.held = s.evt.held ∧
    (regReq p h m a f s).pins.held = s.pins.held ∧
    ringsRest (regReq p h m a f s).ring = ringsRest s.ring := by
  refine ⟨regReq_part quiet_img ?_ ?_ s, regReq_part quiet_cfg ?_ ?_ s, regReq_part quiet_acq ?_ ?_ s,
      regReq_part quiet_cur ?_ ?_ s, regReq_part quiet_win ?_ ?_ s, regReq_part quiet_time ?_ ?_ s,
          regReq_part quiet_therm ?_ ?_ s, regReq_part quiet_nv ?_ ?_ s, regReq_part quiet_ledg ?_ ?_ s,
              regReq_part quiet_tally ?_ ?_ s, regReq_part quiet_sec ?_ ?_ s, regReq_part quiet_pending ?_ ?_ s,
                  regReq_part quiet_sys ?_ ?_ s, regReq_part quiet_husk ?_ ?_ s, regReq_part quiet_drv ?_ ?_ s,
                      regReq_part quiet_est ?_ ?_ s, regReq_part quiet_evt ?_ ?_ s, regReq_part quiet_pins ?_ ?_ s,
                          regReq_part quiet_ring ?_ ?_ s⟩ <;>
  · intro q v s
    simp [noteRefusal, putReg, ha, id @putBist_keep, id @refusedBist_keep]

/-- A write of a register of window 0x16. -/
theorem regReq_keepDbg {p : Bool} {h : ReqHdr} {m : WrMeas} {a : Nat} (ha : a / 4096 = 0x16) (f : Word → Word)
    (s : State) :
    (regReq p h m a f s).img = s.img ∧
    (regReq p h m a f s).cfg = s.cfg ∧
    (regReq p h m a f s).acq = s.acq ∧
    (regReq p h m a f s).cur = s.cur ∧
    (regReq p h m a f s).win = s.win ∧
    (regReq p h m a f s).time = s.time ∧
    (regReq p h m a f s).therm = s.therm ∧
    (regReq p h m a f s).nv = s.nv ∧
    (regReq p h m a f s).ledg = s.ledg ∧
    (regReq p h m a f s).tally = s.tally ∧
    (regReq p h m a f s).sec = s.sec ∧
    (regReq p h m a f s).bist = s.bist ∧
    (regReq p h m a f s).pending = s.pending ∧
    (regReq p h m a f s).sys.held = s.sys.held ∧
    (regReq p h m a f s).husk.held = s.husk.held ∧
    (regReq p h m a f s).drv.held = s.drv.held ∧
    (regReq p h m a f s).recd.held = s.recd.held ∧
    (regReq p h m a f s).pwr.held = s.pwr.held ∧
    (regReq p h m a f s).evt.held = s.evt.held ∧
    (regReq p h m a f s).pins.held = s.pins.held := by
  refine ⟨regReq_part quiet_img ?_ ?_ s, regReq_part quiet_cfg ?_ ?_ s, regReq_part quiet_acq ?_ ?_ s,
      regReq_part quiet_cur ?_ ?_ s, regReq_part quiet_win ?_ ?_ s, regReq_part quiet_time ?_ ?_ s,
          regReq_part quiet_therm ?_ ?_ s, regReq_part quiet_nv ?_ ?_ s, regReq_part quiet_ledg ?_ ?_ s,
              regReq_part quiet_tally ?_ ?_ s, regReq_part quiet_sec ?_ ?_ s, regReq_part quiet_bist ?_ ?_ s,
                  regReq_part quiet_pending ?_ ?_ s, regReq_part quiet_sys ?_ ?_ s, regReq_part quiet_husk ?_ ?_ s,
                      regReq_part quiet_drv ?_ ?_ s, regReq_part quiet_recd ?_ ?_ s, regReq_part quiet_pwr ?_ ?_ s,
                          regReq_part quiet_evt ?_ ?_ s, regReq_part quiet_pins ?_ ?_ s⟩ <;>
  · intro q v s
    simp [noteRefusal, putReg, ha, id @putDbg_keep]

end Sys2Proof.Machine
end

