-- ==== Sys2Proof/Laws/RingRest.lean ====
section
/-! SUPPORT. Commands that change no ring but for what an opening string decides about its nodes (R127). -/

namespace Sys2Proof.Machine

theorem unitsBoundary_ringRest (s : State) : ringsRest (unitsBoundary s).ring = ringsRest s.ring := by
  simp only [unitsBoundary]
  repeat' split
  all_goals simp [id @dbgEnd_keep, id @fillRule_keep, id @unverSplit_keep]

theorem execCommitPoint_ringRest {slackNs : Nat}
    {s t : State} (h : execCommitPoint slackNs s = .next t) : ringsRest t.ring = ringsRest s.ring := by
  have e := Host.Outcome.next.inj h
  subst e
  dsimp only
  split
  · rfl
  · rw [settle_ringRest]
    split <;> simp [id @krnCommit_keep, id @emitIf_keep, id @winCommit_keep, id @estCommit_keep,
        id @tallyUpdate_keep, id @kernelMargin_keep, unitsBoundary_ringRest]

theorem execSummaryStage_ringRest
    {s t : State} (h : execSummaryStage s = .next t) : ringsRest t.ring = ringsRest s.ring := by
  have e := Host.Outcome.next.inj h
  subst e
  try dsimp only
  repeat' split
  all_goals simp [id @charSummary_keep, id @releaseCheck_keep, id @sumCell_keep, id @sumString_keep]

theorem execImgChunk_ringRest {h : ReqHdr} {off : Nat} {data : List Byte}
    {s t : State} (hx : execImgChunk h off data s = .next t) : ringsRest t.ring = ringsRest s.ring := by
  have e := Host.Outcome.next.inj hx
  subst e
  refine hostRequest_part quiet_ring (fun s => ?_) _
  try dsimp only
  repeat' split
  all_goals simp [id @imgChunk_keep]

theorem execImgCommit_ringRest {h : ReqHdr} {len : Nat}
    {s t : State} (hx : execImgCommit h len s = .next t) : ringsRest t.ring = ringsRest s.ring := by
  have e := Host.Outcome.next.inj hx
  subst e
  refine hostRequest_part quiet_ring (fun s => ?_) _
  try dsimp only
  repeat' split
  all_goals simp [id @imgCommit_keep]

theorem execImgValidationDone_ringRest
    {s t : State} (h : execImgValidationDone s = .next t) : ringsRest t.ring = ringsRest s.ring := by
  have e := Host.Outcome.next.inj h
  subst e
  try dsimp only
  repeat' split
  all_goals simp [id @imgPass_keep, id @imgReject_keep]

theorem execImgSlotWriteDone_ringRest {ok : Bool}
    {s t : State} (h : execImgSlotWriteDone ok s = .next t) : ringsRest t.ring = ringsRest s.ring := by
  have e := Host.Outcome.next.inj h
  subst e
  try dsimp only
  repeat' split
  all_goals simp [id @answer_keep, id @emit_keep, id @imgReject_keep, id @setSlot_keep]

theorem execColdActivationHold_ringRest
    {s t : State} (h : execColdActivationHold s = .next t) : ringsRest t.ring = ringsRest s.ring := by
  have e := Host.Outcome.next.inj h
  subst e
  try dsimp only
  repeat' split
  all_goals simp [id @checkpoint_keep, id @coldHold_keep]

theorem execColdActivationLoadProtection_ringRest {intact : Bool}
    {s t : State}
    (h : execColdActivationLoadProtection intact s = .next t) : ringsRest t.ring = ringsRest s.ring := by
  have e := Host.Outcome.next.inj h
  subst e
  try dsimp only
  repeat' split
  all_goals simp [id @coldFail_keep, id @coldProtect_keep]

theorem execColdActivationComplete_ringRest
    {s t : State} (h : execColdActivationComplete s = .next t) : ringsRest t.ring = ringsRest s.ring := by
  have e := Host.Outcome.next.inj h
  subst e
  try dsimp only
  repeat' split
  all_goals simp [id @activated_keep, id @rearmClose_keep]

theorem execStartupPDieUp_ringRest
    {s t : State} (h : execStartupPDieUp s = .next t) : ringsRest t.ring = ringsRest s.ring := by
  have e := Host.Outcome.next.inj h
  subst e
  try dsimp only
  repeat' split
  all_goals simp

theorem execStrapLatch_ringRest {c0 : BitVec 2} {c1 : BitVec 2} {c2 : BitVec 2} {u3 : Bool} {u4 : Bool} {p2 : Bool}
    {s t : State} (h : execStrapLatch c0 c1 c2 u3 u4 p2 s = .next t) : ringsRest t.ring = ringsRest s.ring := by
  have e := Host.Outcome.next.inj h
  subst e
  try dsimp only
  repeat' split
  all_goals simp [id @emitIf_keep, id @presStart_keep]

theorem execStartupImageSelect_ringRest {aOk : Bool} {bOk : Bool} {fa : Option (Nat × Nat)}
    {fb : Option (Nat × Nat)} {netOk : Bool} {romOk : Bool}
    {s t : State}
    (h : execStartupImageSelect aOk bOk fa fb netOk romOk s = .next t) : ringsRest t.ring = ringsRest s.ring := by
  have e := Host.Outcome.next.inj h
  subst e
  try dsimp only
  repeat' split
  all_goals simp [id @emit_keep, id @imgLoad_keep, id @linkLoad_keep, id @slotRead_keep,
      id @slotTry_keep]

theorem execStartupRings_ringRest {xtal : Bool} {bad : List (Nat × Bool)}
    {s t : State} (h : execStartupRings xtal bad s = .next t) : ringsRest t.ring = ringsRest s.ring := by
  have e := Host.Outcome.next.inj h
  subst e
  try dsimp only
  repeat' split
  all_goals simp [id @allThresholds_keep, id @badBanks_keep, id @cmpTest_keep, id @curCalLoad_keep,
      id @curStart_keep]

theorem execStartupSteward_ringRest {bad : List (Nat × Bool)} {recBad : Nat} {hostBad : Nat}
    {tests : List (Nat × Nat × Nat × Nat)}
    {s t : State}
    (h : execStartupSteward bad recBad hostBad tests s = .next t) : ringsRest t.ring = ringsRest s.ring := by
  have e := Host.Outcome.next.inj h
  subst e
  try dsimp only
  repeat' split
  all_goals simp [id @badBanks_keep, id @bootTest_keep, id @deviceLoad_keep, id @recStart_keep, id @sectLost_keep,
      id @stewardBoot_keep, id @stewardStarts_keep]

theorem execStartupEstimate_ringRest {bad : List (Nat × Bool)} {kprog : Nat} {ktab : Nat} {est : Nat} {win : Nat}
    {tests : List (Nat × Nat × Nat × Nat)}
    {s t : State}
    (h : execStartupEstimate bad kprog ktab est win tests s = .next t) : ringsRest t.ring = ringsRest s.ring := by
  have e := Host.Outcome.next.inj h
  subst e
  try dsimp only
  repeat' split
  all_goals simp [id @badBanks_keep, id @bootTest_keep, id @modelsLoad_keep]

theorem execStartupFull_ringRest {bad : List (Nat × Bool)} {cs : Nat} {mib : Nat} {unit : Nat}
    {s t : State} (h : execStartupFull bad cs mib unit s = .next t) : ringsRest t.ring = ringsRest s.ring := by
  have e := Host.Outcome.next.inj h
  subst e
  try dsimp only
  repeat' split
  all_goals simp [id @badBanks_keep, id @fullStart_keep, id @lgPublishAll_keep, id @phaseEnd_keep]

theorem execStartupLate_ringRest {k : Nat}
    {s t : State} (h : execStartupLate k s = .next t) : ringsRest t.ring = ringsRest s.ring := by
  have e := Host.Outcome.next.inj h
  subst e
  try dsimp only
  repeat' split
  all_goals simp [id @emit_keep]

theorem execChannelStop_ringRest {n : Nat} {f : CurFault} {sub : Nat} {mv : Int}
    {s t : State} (h : execChannelStop n f sub mv s = .next t) : ringsRest t.ring = ringsRest s.ring := by
  have e := Host.Outcome.next.inj h
  subst e
  try dsimp only
  repeat' split
  all_goals simp [id @chStop_keep, id @emit_keep]

theorem execComparatorCrossing_ringRest {n : Nat} {lo : Bool} {up : Bool}
    {s t : State} (h : execComparatorCrossing n lo up s = .next t) : ringsRest t.ring = ringsRest s.ring := by
  have e := Host.Outcome.next.inj h
  subst e
  try dsimp only
  repeat' split
  all_goals simp [id @modCh_keep]

theorem execCmpCheckDone_ringRest {n : Nat} {hiOk : Bool} {loOk : Bool}
    {s t : State} (h : execCmpCheckDone n hiOk loOk s = .next t) : ringsRest t.ring = ringsRest s.ring := by
  have e := Host.Outcome.next.inj h
  subst e
  try dsimp only
  repeat' split
  all_goals simp [id @chRefit_keep, id @chStop_keep, id @cmpRestore_keep, id @emitIf_keep, id @modCh_keep]

theorem execTripLatchSet_ringRest {m : Copies} {cat : Nat} {i : Nat} {src : Nat}
    {s t : State} (h : execTripLatchSet m cat i src s = .next t) : ringsRest t.ring = ringsRest s.ring := by
  have e := Host.Outcome.next.inj h
  subst e
  try dsimp only
  repeat' split
  all_goals simp [id @tripSet_keep]

theorem execHuskSlotAssert_ringRest {m : Copies} {k : Nat}
    {s t : State} (h : execHuskSlotAssert m k s = .next t) : ringsRest t.ring = ringsRest s.ring := by
  have e := Host.Outcome.next.inj h
  subst e
  try dsimp only
  repeat' split
  all_goals simp [id @slotAssertIn_keep]

theorem execHuskSlotClear_ringRest {m : Copies} {k : Nat}
    {s t : State} (h : execHuskSlotClear m k s = .next t) : ringsRest t.ring = ringsRest s.ring := by
  have e := Host.Outcome.next.inj h
  subst e
  try dsimp only
  repeat' split
  all_goals simp [id @slotClearIn_keep]

theorem execHuskTimerExpiry_ringRest {m : Copies} {k : Nat}
    {s t : State} (h : execHuskTimerExpiry m k s = .next t) : ringsRest t.ring = ringsRest s.ring := by
  have e := Host.Outcome.next.inj h
  subst e
  try dsimp only
  repeat' split
  all_goals simp [id @timerExpireIn_keep]

theorem execSequencerStart_ringRest {m : Copies} {q : Nat}
    {s t : State} (h : execSequencerStart m q s = .next t) : ringsRest t.ring = ringsRest s.ring := by
  have e := Host.Outcome.next.inj h
  subst e
  try dsimp only
  repeat' split
  all_goals simp [id @startIn_keep]

theorem execSequencerWaitMet_ringRest {m : Copies} {q : Nat}
    {s t : State} (h : execSequencerWaitMet m q s = .next t) : ringsRest t.ring = ringsRest s.ring := by
  have e := Host.Outcome.next.inj h
  subst e
  try dsimp only
  repeat' split
  all_goals simp [id @seqNext_keep]

theorem execSequencerTimeout_ringRest {m : Copies} {q : Nat}
    {s t : State} (h : execSequencerTimeout m q s = .next t) : ringsRest t.ring = ringsRest s.ring := by
  have e := Host.Outcome.next.inj h
  subst e
  try dsimp only
  repeat' split
  all_goals simp [id @seqNext_keep]

theorem execSequencerAbort_ringRest {m : Copies} {q : Nat}
    {s t : State} (h : execSequencerAbort m q s = .next t) : ringsRest t.ring = ringsRest s.ring := by
  have e := Host.Outcome.next.inj h
  subst e
  try dsimp only
  repeat' split
  all_goals simp [id @abortSeq_keep, id @noteOpenEnd_keep]

theorem execHuskDivergeRecord_ringRest {intact : Bool}
    {s t : State} (h : execHuskDivergeRecord intact s = .next t) : ringsRest t.ring = ringsRest s.ring := by
  have e := Host.Outcome.next.inj h
  subst e
  try dsimp only
  repeat' split
  all_goals simp [id @copyFault_keep, id @divRecord_keep]

theorem execHuskCrcCheck_ringRest {crcM : Word} {crcS : Word} {corr : Nat} {uncM : Bool} {uncS : Bool}
    {intact : Bool}
    {s t : State}
    (h : execHuskCrcCheck crcM crcS corr uncM uncS intact s = .next t) : ringsRest t.ring = ringsRest s.ring := by
  have e := Host.Outcome.next.inj h
  subst e
  try dsimp only
  repeat' split
  all_goals simp [id @copyFault_keep, id @phaseEnd_keep]

theorem execGraceExpiry_ringRest {i : Nat}
    {s t : State} (h : execGraceExpiry i s = .next t) : ringsRest t.ring = ringsRest s.ring := by
  have e := Host.Outcome.next.inj h
  subst e
  try dsimp only
  repeat' split
  all_goals simp [id @orderlyOpen_keep, id @stopGrace_keep]

theorem execKeyRearm_ringRest {s t : State} (h : execKeyRearm s = .next t) : ringsRest t.ring = ringsRest s.ring := by
  have e := Host.Outcome.next.inj h
  subst e
  try dsimp only
  repeat' split
  all_goals simp [id @clearRequest_keep, id @emit_keep, id @lgRequest_keep]

theorem execEconomyEntry_ringRest {n : Nat}
    {s t : State} (h : execEconomyEntry n s = .next t) : ringsRest t.ring = ringsRest s.ring := by
  have e := Host.Outcome.next.inj h
  subst e
  try dsimp only
  repeat' split
  all_goals simp [id @modDrvCh_keep]

theorem execDriveFault_ringRest {n : Nat} {gate : Bool} {coil : Nat}
    {s t : State} (h : execDriveFault n gate coil s = .next t) : ringsRest t.ring = ringsRest s.ring := by
  have e := Host.Outcome.next.inj h
  subst e
  try dsimp only
  repeat' split
  all_goals simp [id @emit_keep, id @modDrvCh_keep]

theorem execOpenCoilFault_ringRest {n : Nat} {c0 : Nat} {c1 : Nat} {c2 : Nat}
    {s t : State} (h : execOpenCoilFault n c0 c1 c2 s = .next t) : ringsRest t.ring = ringsRest s.ring := by
  have e := Host.Outcome.next.inj h
  subst e
  try dsimp only
  repeat' split
  all_goals simp [id @emit_keep, id @modDrvCh_keep]

theorem execFastOpenTimeout_ringRest {i : Nat}
    {s t : State} (h : execFastOpenTimeout i s = .next t) : ringsRest t.ring = ringsRest s.ring := by
  have e := Host.Outcome.next.inj h
  subst e
  try dsimp only
  repeat' split
  all_goals simp [id @emit_keep, id @noteOpenEnd_keep, id @setCopy_keep, id @tripAll_keep]

theorem execWeldCheckStart_ringRest {i : Nat}
    {s t : State} (h : execWeldCheckStart i s = .next t) : ringsRest t.ring = ringsRest s.ring := by
  have e := Host.Outcome.next.inj h
  subst e
  try dsimp only
  repeat' split
  all_goals simp [id @modDrvStr_keep, id @startWeld_keep]

theorem execWeldCheckEvaluate_ringRest {i : Nat}
    {s t : State} (h : execWeldCheckEvaluate i s = .next t) : ringsRest t.ring = ringsRest s.ring := by
  have e := Host.Outcome.next.inj h
  subst e
  try dsimp only
  repeat' split
  all_goals simp [id @endWeld_keep, id @weldJudge_keep, id @weldUnchecked_keep]

theorem execHvilFault_ringRest {n : Nat} {samples : List Nat}
    {s t : State} (h : execHvilFault n samples s = .next t) : ringsRest t.ring = ringsRest s.ring := by
  have e := Host.Outcome.next.inj h
  subst e
  try dsimp only
  repeat' split
  all_goals simp [id @hvilSample_keep]

theorem execHvilFaultClear_ringRest {n : Nat} {samples : List Nat}
    {s t : State} (h : execHvilFaultClear n samples s = .next t) : ringsRest t.ring = ringsRest s.ring := by
  have e := Host.Outcome.next.inj h
  subst e
  try dsimp only
  repeat' split
  all_goals simp [id @hvilSample_keep]

theorem execKernelStepStart_ringRest {l : Nat} {bad : Bool}
    {s t : State} (h : execKernelStepStart l bad s = .next t) : ringsRest t.ring = ringsRest s.ring := by
  have e := Host.Outcome.next.inj h
  subst e
  try dsimp only
  repeat' split
  all_goals simp [id @eccEvent_keep, id @settleLevel_keep, id @startChecker_keep,
      id @startMain_keep, id @startSplit_keep]

theorem execEnd_ringRest {l : Nat} {ns : Nat} {cmp : Cmp}
    {s t : State} (h : execEnd l ns cmp s = .next t) : ringsRest t.ring = ringsRest s.ring := by
  have e := Host.Outcome.next.inj h
  subst e
  try dsimp only
  repeat' split
  all_goals simp [id @endMain_keep, id @releaseSet_keep, id @setLane_keep, id @settleLevel_keep,
      id @stepTime_keep, id @verifyStep_keep]

theorem execLds_ringRest {l : Nat} {d : BitVec 5} {w : BitVec 6} {bad : Bool}
    {s t : State} (h : execLds l d w bad s = .next t) : ringsRest t.ring = ringsRest s.ring := by
  have e := Host.Outcome.next.inj h
  subst e
  try dsimp only
  repeat' split
  all_goals simp [id @eccEvent_keep, id @setLane_keep]

theorem execSts_ringRest {l : Nat} {a : BitVec 5} {w : BitVec 6} {cmp : Cmp}
    {s t : State} (h : execSts l a w cmp s = .next t) : ringsRest t.ring = ringsRest s.ring := by
  have e := Host.Outcome.next.inj h
  subst e
  try dsimp only
  repeat' split
  all_goals simp [id @commitWrite_keep, id @settleLevel_keep]

theorem execOut_ringRest {l : Nat} {a : BitVec 5} {j : BitVec 4} {cmp : Cmp}
    {s t : State} (h : execOut l a j cmp s = .next t) : ringsRest t.ring = ringsRest s.ring := by
  have e := Host.Outcome.next.inj h
  subst e
  try dsimp only
  repeat' split
  all_goals simp [id @commitWrite_keep, id @settleLevel_keep]

theorem execTbl2_ringRest {l : Nat} {d : BitVec 5} {a : BitVec 5} {b : BitVec 5} {u4 : BitVec 4} {bad : Bool}
    {s t : State} (h : execTbl2 l d a b u4 bad s = .next t) : ringsRest t.ring = ringsRest s.ring := by
  have e := Host.Outcome.next.inj h
  subst e
  try dsimp only
  repeat' split
  all_goals simp [id @eccEvent_keep, id @emit_keep, id @setLane_keep, id @settleLevel_keep]

theorem execHandOver_ringRest {retest : BitVec 16}
    {s t : State} (h : execHandOver retest s = .next t) : ringsRest t.ring = ringsRest s.ring := by
  have e := Host.Outcome.next.inj h
  subst e
  simp only [execHandOver.settle']
  try dsimp only
  repeat' split
  all_goals simp [id @evenRule_keep, id @handPair_keep, id @settleLevel_keep, id @shadowStart_keep,
      id @splitShown_keep]

theorem execXtalLost_ringRest {devs : List Int}
    {s t : State} (h : execXtalLost devs s = .next t) : ringsRest t.ring = ringsRest s.ring := by
  have e := Host.Outcome.next.inj h
  subst e
  try dsimp only
  repeat' split
  all_goals simp [id @xtalStep_keep]

theorem execXtalRelock_ringRest {devs : List Int}
    {s t : State} (h : execXtalRelock devs s = .next t) : ringsRest t.ring = ringsRest s.ring := by
  have e := Host.Outcome.next.inj h
  subst e
  try dsimp only
  repeat' split
  all_goals simp [id @xtalStep_keep]

theorem execTrefFault_ringRest {devs : List Int}
    {s t : State} (h : execTrefFault devs s = .next t) : ringsRest t.ring = ringsRest s.ring := by
  have e := Host.Outcome.next.inj h
  subst e
  try dsimp only
  repeat' split
  all_goals simp [id @trefStep_keep]

theorem execSync_ringRest {l : LinkAddr} {sseq : BitVec 16} {two : Bool} {h : BitVec 64}
    {s t : State} (hx : execSync l sseq two h s = .next t) : ringsRest t.ring = ringsRest s.ring := by
  have e := Host.Outcome.next.inj hx
  subst e
  try dsimp only
  repeat' split
  all_goals simp [id @linkNote_keep, id @servoTake_keep, id @syncHeard_keep]

theorem execTimeTnsLatch_ringRest {h : ReqHdr}
    {s t : State} (hx : execTimeTnsLatch h s = .next t) : ringsRest t.ring = ringsRest s.ring := by
  have e := Host.Outcome.next.inj hx
  subst e
  refine hostRequest_part quiet_ring (fun s => ?_) s
  simp [id @readReq_keep]

theorem execThermalMeasurement_ringRest {ls : List (Int × Bool)} {ps : List (Int × Bool)}
    {s t : State} (h : execThermalMeasurement ls ps s = .next t) : ringsRest t.ring = ringsRest s.ring := by
  have e := Host.Outcome.next.inj h
  subst e
  try dsimp only
  repeat' split
  all_goals simp [id @countLevels_keep, id @failSensor_keep, id @modSensor_keep,
      id @takeBands_keep, id @watchRestart_keep]

theorem execThermalWarning_ringRest
    {s t : State} (h : execThermalWarning s = .next t) : ringsRest t.ring = ringsRest s.ring := by
  have e := Host.Outcome.next.inj h
  subst e
  try dsimp only
  repeat' split
  all_goals simp [id @emit_keep]

theorem execThermalThrottle_ringRest
    {s t : State} (h : execThermalThrottle s = .next t) : ringsRest t.ring = ringsRest s.ring := by
  have e := Host.Outcome.next.inj h
  subst e
  try dsimp only
  repeat' split
  all_goals simp [id @throttleEnter_keep]

theorem execThermalThrottleEnd_ringRest
    {s t : State} (h : execThermalThrottleEnd s = .next t) : ringsRest t.ring = ringsRest s.ring := by
  have e := Host.Outcome.next.inj h
  subst e
  try dsimp only
  repeat' split
  all_goals simp [id @emit_keep]

theorem execThermalShutdown_ringRest
    {s t : State} (h : execThermalShutdown s = .next t) : ringsRest t.ring = ringsRest s.ring := by
  have e := Host.Outcome.next.inj h
  subst e
  try dsimp only
  repeat' split
  all_goals simp [id @shutBegin_keep]

theorem execThermalRestart_ringRest
    {s t : State} (h : execThermalRestart s = .next t) : ringsRest t.ring = ringsRest s.ring := by
  have e := Host.Outcome.next.inj h
  subst e
  try dsimp only
  repeat' split
  all_goals simp [id @bootBegin_keep, id @emit_keep]

theorem execNvBurstDone_ringRest {corr : Nat}
    {s t : State} (h : execNvBurstDone corr s = .next t) : ringsRest t.ring = ringsRest s.ring := by
  have e := Host.Outcome.next.inj h
  subst e
  try dsimp only
  repeat' split
  all_goals simp [id @nvStart_keep, id @nvYield_keep]

theorem execNvWriteDone_ringRest
    {s t : State} (h : execNvWriteDone s = .next t) : ringsRest t.ring = ringsRest s.ring := by
  have e := Host.Outcome.next.inj h
  subst e
  try dsimp only
  repeat' split
  all_goals simp [id @nvQueue_keep, id @nvStart_keep, id @nvWritten_keep, id @setNvObj_keep]

theorem execLedgerCheckpoint_ringRest
    {s t : State} (h : execLedgerCheckpoint s = .next t) : ringsRest t.ring = ringsRest s.ring := by
  have e := Host.Outcome.next.inj h
  subst e
  try dsimp only
  repeat' split
  all_goals simp [id @checkpoint_keep]

theorem execPodCheckpointConfirmed_ringRest {i : Nat}
    {s t : State} (h : execPodCheckpointConfirmed i s = .next t) : ringsRest t.ring = ringsRest s.ring := by
  have e := Host.Outcome.next.inj h
  subst e
  try dsimp only
  repeat' split
  all_goals simp [id @adoptDone_keep]

theorem execLedgBlockLatch_ringRest {h : ReqHdr} {b : Fin 5}
    {s t : State} (hx : execLedgBlockLatch h b s = .next t) : ringsRest t.ring = ringsRest s.ring := by
  have e := Host.Outcome.next.inj hx
  subst e
  refine hostRequest_part quiet_ring (fun s => ?_) s
  simp [id @readReq_keep]

theorem execCellRecWrite_ringRest
    {s t : State} (h : execCellRecWrite s = .next t) : ringsRest t.ring = ringsRest s.ring := by
  have e := Host.Outcome.next.inj h
  subst e
  try dsimp only
  repeat' split
  all_goals simp [id @nvQueue_keep]

theorem execZtabWrite_ringRest {c : Nat}
    {s t : State} (h : execZtabWrite c s = .next t) : ringsRest t.ring = ringsRest s.ring := by
  have e := Host.Outcome.next.inj h
  subst e
  try dsimp only
  repeat' split
  all_goals simp [id @nvQueue_keep]

theorem execTallyWrite_ringRest
    {s t : State} (h : execTallyWrite s = .next t) : ringsRest t.ring = ringsRest s.ring := by
  have e := Host.Outcome.next.inj h
  subst e
  try dsimp only
  repeat' split
  all_goals simp [id @nvQueue_keep]

theorem execEventAdmit_ringRest
    {s t : State} (h : execEventAdmit s = .next t) : ringsRest t.ring = ringsRest s.ring := by
  have e := Host.Outcome.next.inj h
  subst e
  try dsimp only
  repeat' split
  all_goals simp [id @digAdd_keep, id @digForm_keep, id @takeFront_keep]

theorem execRecordComplete_ringRest {seq : BitVec 48}
    {s t : State} (h : execRecordComplete seq s = .next t) : ringsRest t.ring = ringsRest s.ring := by
  have e := Host.Outcome.next.inj h
  subst e
  try dsimp only
  repeat' split
  all_goals simp [id @advance_keep]

theorem execChaffSummary_ringRest
    {s t : State} (h : execChaffSummary s = .next t) : ringsRest t.ring = ringsRest s.ring := by
  have e := Host.Outcome.next.inj h
  subst e
  try dsimp only
  repeat' split
  all_goals simp [id @emit_keep]

theorem execGranaryProgramDone_ringRest {pin : Bool} {fail : Bool} {cs : Nat} {addr : Nat}
    {s t : State}
    (h : execGranaryProgramDone pin fail cs addr s = .next t) : ringsRest t.ring = ringsRest s.ring := by
  have e := Host.Outcome.next.inj h
  subst e
  try dsimp only
  repeat' split
  all_goals simp [id @granFail_keep, id @markProg_keep, id @setRegion_keep]

theorem execGranaryEraseDone_ringRest {pin : Bool} {fail : Bool} {cs : Nat} {addr : Nat}
    {s t : State} (h : execGranaryEraseDone pin fail cs addr s = .next t) : ringsRest t.ring = ringsRest s.ring := by
  have e := Host.Outcome.next.inj h
  subst e
  try dsimp only
  repeat' split
  all_goals simp [id @eraseBlock_keep, id @granFail_keep]

theorem execGranaryTimeout_ringRest {pin : Bool} {cs : Nat} {addr : Nat}
    {s t : State} (h : execGranaryTimeout pin cs addr s = .next t) : ringsRest t.ring = ringsRest s.ring := by
  have e := Host.Outcome.next.inj h
  subst e
  try dsimp only
  repeat' split
  all_goals simp [id @granFail_keep]

theorem execGranaryRestart_ringRest {answers : Bool}
    {s t : State} (h : execGranaryRestart answers s = .next t) : ringsRest t.ring = ringsRest s.ring := by
  have e := Host.Outcome.next.inj h
  subst e
  try dsimp only
  repeat' split
  all_goals simp [id @emit_keep]

theorem execRecSeqLatch_ringRest {h : ReqHdr} {oldest : Bool}
    {s t : State} (hx : execRecSeqLatch h oldest s = .next t) : ringsRest t.ring = ringsRest s.ring := by
  have e := Host.Outcome.next.inj hx
  subst e
  refine hostRequest_part quiet_ring (fun s => ?_) s
  simp [id @readReq_keep]

theorem execRead_ringRest {h : ReqHdr} {addr : Word} {cnt : BitVec 16}
    {s t : State} (hx : execRead h addr cnt s = .next t) : ringsRest t.ring = ringsRest s.ring := by
  have e := Host.Outcome.next.inj hx
  subst e
  refine hostRequest_part quiet_ring (fun s => ?_) _
  try dsimp only
  repeat' split
  all_goals simp [id @readReq_keep]

theorem execUnknownOp_ringRest {h : ReqHdr} {op : Byte}
    {s t : State} (hx : execUnknownOp h op s = .next t) : ringsRest t.ring = ringsRest s.ring := by
  have e := Host.Outcome.next.inj hx
  subst e
  split
  · exact hostRequest_part quiet_ring (fun _ => rfl) s
  · rfl

theorem execStreamOpen_ringRest {h : ReqHdr} {stype : Byte} {sid : Byte} {period : BitVec 16} {ps : List Byte}
    {s t : State} (hx : execStreamOpen h stype sid period ps s = .next t) : ringsRest t.ring = ringsRest s.ring := by
  have e := Host.Outcome.next.inj hx
  subst e
  refine hostRequest_part quiet_ring (fun s => ?_) _
  try dsimp only
  repeat' split
  all_goals simp [id @streamClose_keep, id @streamOpen_keep]

theorem execStreamClose_ringRest {h : ReqHdr} {sid : Byte}
    {s t : State} (hx : execStreamClose h sid s = .next t) : ringsRest t.ring = ringsRest s.ring := by
  have e := Host.Outcome.next.inj hx
  subst e
  refine hostRequest_part quiet_ring (fun s => ?_) _
  try dsimp only
  repeat' split
  all_goals simp [id @streamClose_keep]

theorem execStreamSnapshot_ringRest {k : Fin 8}
    {s t : State} (h : execStreamSnapshot k s = .next t) : ringsRest t.ring = ringsRest s.ring := by
  have e := Host.Outcome.next.inj h
  subst e
  try dsimp only
  repeat' split
  all_goals simp [id @snapshot_keep]

theorem execStreamPartSend_ringRest {k : Fin 8} {bad : List (BitVec 48)}
    {s t : State} (h : execStreamPartSend k bad s = .next t) : ringsRest t.ring = ringsRest s.ring := by
  have e := Host.Outcome.next.inj h
  subst e
  try dsimp only
  repeat' split
  all_goals simp [id @recPart_keep, id @snapSend_keep]

theorem execChallengeAttest_ringRest {h : ReqHdr} {kind : Byte} {body : List Byte}
    {s t : State} (hx : execChallengeAttest h kind body s = .next t) : ringsRest t.ring = ringsRest s.ring := by
  have e := Host.Outcome.next.inj hx
  subst e
  refine hostRequest_part quiet_ring (fun s => ?_) _
  try dsimp only
  repeat' split
  all_goals simp [id @challengeReq_keep]

theorem execChallengeKeyLoad_ringRest {h : ReqHdr} {body : List Byte}
    {s t : State} (hx : execChallengeKeyLoad h body s = .next t) : ringsRest t.ring = ringsRest s.ring := by
  have e := Host.Outcome.next.inj hx
  subst e
  refine hostRequest_part quiet_ring (fun s => ?_) _
  try dsimp only
  repeat' split
  all_goals simp [id @challengeReq_keep]

theorem execJoin_ringRest {p : Port}
    {s t : State} (h : execJoin p s = .next t) : ringsRest t.ring = ringsRest s.ring := by
  have e := Host.Outcome.next.inj h
  subst e
  try dsimp only
  repeat' split
  all_goals simp [id @modPort_keep, id @txPush_keep]

theorem execAssign_ringRest {h : ReqHdr} {mid : BitVec 64} {snid : BitVec 16} {ncnt : Byte}
    {s t : State} (hx : execAssign h mid snid ncnt s = .next t) : ringsRest t.ring = ringsRest s.ring := by
  have e := Host.Outcome.next.inj hx
  subst e
  repeat' split
  · exact linkNote_part quiet_ring _ s
  · refine hostFrame_part quiet_ring (fun s => ?_) s
    simp only [assignOwn]
    repeat' split
    all_goals simp [accept, refuse, id @dropNode_keep, id @takeNode_keep]
  · simp [id @dropNode_keep, id @noteFrame_keep]
  · simp [id @noteFrame_keep]

theorem execKeepAlive_ringRest
    {s t : State} (h : execKeepAlive s = .next t) : ringsRest t.ring = ringsRest s.ring := by
  have e := Host.Outcome.next.inj h
  subst e
  try dsimp only
  repeat' split
  all_goals simp [id @txPush_keep]

theorem execSpiTransaction_ringRest {frame : Option Bool}
    {s t : State} (h : execSpiTransaction frame s = .next t) : ringsRest t.ring = ringsRest s.ring := by
  have e := Host.Outcome.next.inj h
  subst e
  try dsimp only
  repeat' split
  all_goals simp [id @modPort_keep, id @txPop_keep]

theorem execCanBusOff_ringRest {ev : CanEvent} {errors : Nat}
    {s t : State} (h : execCanBusOff ev errors s = .next t) : ringsRest t.ring = ringsRest s.ring := by
  have e := Host.Outcome.next.inj h
  subst e
  try dsimp only
  repeat' split
  all_goals simp [id @emit_keep]

theorem execPresStuck_ringRest
    {s t : State} (h : execPresStuck s = .next t) : ringsRest t.ring = ringsRest s.ring := by
  have e := Host.Outcome.next.inj h
  subst e
  try dsimp only
  repeat' split
  all_goals simp [id @emit_keep]

theorem execPresenceExpiry_ringRest {strap : Bool}
    {s t : State} (h : execPresenceExpiry strap s = .next t) : ringsRest t.ring = ringsRest s.ring := by
  have e := Host.Outcome.next.inj h
  subst e
  try dsimp only
  repeat' split
  all_goals simp [id @emitIf_keep]

theorem execSealBreak_ringRest {a : Bool} {b : Bool} {c : Bool}
    {s t : State} (h : execSealBreak a b c s = .next t) : ringsRest t.ring = ringsRest s.ring := by
  have e := Host.Outcome.next.inj h
  subst e
  try dsimp only
  repeat' split
  all_goals simp [id @sealBreak_keep]

theorem execSealRestored_ringRest {a : Bool} {b : Bool} {c : Bool}
    {s t : State} (h : execSealRestored a b c s = .next t) : ringsRest t.ring = ringsRest s.ring := by
  have e := Host.Outcome.next.inj h
  subst e
  try dsimp only
  repeat' split
  all_goals simp [id @sealClose_keep]

theorem execRailRecovery_ringRest {r : Nat} {mv : Nat}
    {s t : State} (h : execRailRecovery r mv s = .next t) : ringsRest t.ring = ringsRest s.ring := by
  have e := Host.Outcome.next.inj h
  subst e
  try dsimp only
  repeat' split
  all_goals simp [id @bootBegin_keep, id @setRail_keep]

theorem execAutoSleep_ringRest
    {s t : State} (h : execAutoSleep s = .next t) : ringsRest t.ring = ringsRest s.ring := by
  have e := Host.Outcome.next.inj h
  subst e
  try dsimp only
  repeat' split
  all_goals simp [id @bistAbort_keep, id @sleepStart_keep]

theorem execSleepSaveDone_ringRest
    {s t : State} (h : execSleepSaveDone s = .next t) : ringsRest t.ring = ringsRest s.ring := by
  have e := Host.Outcome.next.inj h
  subst e
  try dsimp only
  repeat' split
  all_goals simp [id @emit_keep, id @recFlush_keep]

theorem execSleepFlushDone_ringRest
    {s t : State} (h : execSleepFlushDone s = .next t) : ringsRest t.ring = ringsRest s.ring := by
  have e := Host.Outcome.next.inj h
  subst e
  try dsimp only
  repeat' split
  all_goals simp [id @asleep_keep]

theorem execSleepWake_ringRest {c : Nat}
    {s t : State} (h : execSleepWake c s = .next t) : ringsRest t.ring = ringsRest s.ring := by
  have e := Host.Outcome.next.inj h
  subst e
  try dsimp only
  repeat' split
  all_goals simp [id @wakeStart_keep]

theorem execWakeModelsLoaded_ringRest {tests : List (Nat × Nat × Nat × Nat)}
    {s t : State} (h : execWakeModelsLoaded tests s = .next t) : ringsRest t.ring = ringsRest s.ring := by
  have e := Host.Outcome.next.inj h
  subst e
  try dsimp only
  repeat' split
  all_goals simp [id @bootTest_keep, id @modelsLoad_keep]

theorem execWakeFullService_ringRest
    {s t : State} (h : execWakeFullService s = .next t) : ringsRest t.ring = ringsRest s.ring := by
  have e := Host.Outcome.next.inj h
  subst e
  try dsimp only
  repeat' split
  all_goals simp [id @nvStart_keep]

theorem execShipStringsOpen_ringRest
    {s t : State} (h : execShipStringsOpen s = .next t) : ringsRest t.ring = ringsRest s.ring := by
  have e := Host.Outcome.next.inj h
  subst e
  try dsimp only
  repeat' split
  all_goals simp [id @checkpoint_keep, id @nvFlush_keep, id @nvQueue_keep, id @podAsk_keep]

theorem execBistRegionDone_ringRest {fails : List (Nat × Nat)} {sig : Word} {ecc : List BistEcc}
    {s t : State} (h : execBistRegionDone fails sig ecc s = .next t) : ringsRest t.ring = ringsRest s.ring := by
  have e := Host.Outcome.next.inj h
  subst e
  try dsimp only
  repeat' split
  all_goals simp [id @bistCopy_keep, id @bistEnd_keep, id @bistFails_keep, id @bistSign_keep,
      id @settleLevel_keep]

theorem execBistBackground_ringRest {mv : Nat} {ppm : Int} {ecc : List BistEcc}
    {s t : State} (h : execBistBackground mv ppm ecc s = .next t) : ringsRest t.ring = ringsRest s.ring := by
  have e := Host.Outcome.next.inj h
  subst e
  try dsimp only
  repeat' split
  all_goals simp [id @bistRun_keep]

theorem execErrqHandle_ringRest
    {s t : State} (h : execErrqHandle s = .next t) : ringsRest t.ring = ringsRest s.ring := by
  have e := Host.Outcome.next.inj h
  subst e
  try dsimp only
  repeat' split
  all_goals simp [id @overflowEnd_keep, id @takeEnt_keep]

theorem execStewardReset_ringRest {lockstep : Bool}
    {s t : State} (h : execStewardReset lockstep s = .next t) : ringsRest t.ring = ringsRest s.ring := by
  have e := Host.Outcome.next.inj h
  subst e
  try dsimp only
  repeat' split
  all_goals simp [id @bootBegin_keep, id @emit_keep, id @imgAbandon_keep, id @nvAbandon_keep, id @phaseStart_keep,
      id @winDiscard_keep]

theorem execCharStepDone_ringRest
    {s t : State} (h : execCharStepDone s = .next t) : ringsRest t.ring = ringsRest s.ring := by
  have e := Host.Outcome.next.inj h
  subst e
  try dsimp only
  repeat' split
  all_goals simp [id @charCommit_keep, id @charEnter_keep, id @modEStr_keep]

theorem execCharStepTimeout_ringRest
    {s t : State} (h : execCharStepTimeout s = .next t) : ringsRest t.ring = ringsRest s.ring := by
  have e := Host.Outcome.next.inj h
  subst e
  try dsimp only
  repeat' split
  all_goals simp [id @charStop_keep]

theorem execCharCurrentTimeout_ringRest
    {s t : State} (h : execCharCurrentTimeout s = .next t) : ringsRest t.ring = ringsRest s.ring := by
  have e := Host.Outcome.next.inj h
  subst e
  try dsimp only
  repeat' split
  all_goals simp [id @charStop_keep]

theorem execChannelRunning_ringRest {n : Nat}
    {s t : State} (h : execChannelRunning n s = .next t) : ringsRest t.ring = ringsRest s.ring := by
  have e := Host.Outcome.next.inj h
  subst e
  try dsimp only
  repeat' split
  all_goals simp [id @chRefit_keep, id @modCh_keep]

theorem execTestEnChange_ringRest {high : Bool}
    {s t : State} (h : execTestEnChange high s = .next t) : ringsRest t.ring = ringsRest s.ring := by
  have e := Host.Outcome.next.inj h
  subst e
  try dsimp only
  repeat' split
  all_goals simp

end Sys2Proof.Machine
end

