-- ==== Sys2Proof/Tests/Base.lean ====
section
/-! SUPPORT. A small device in service, from which the tests build the states that they need. -/

namespace Sys2Proof.Tests

open Sys2Proof Sys2Proof.Machine

/-- A request over SPI, whole. -/
def hd : ReqHdr := { link := .spi, tag := 1, snid := 0, bcast := false, seg := 0, more := false }

/-- Nothing measured. -/
def ms : WrMeas := { mv := 800, ppm := 0, bad := false }

/-- One string of four cells on two cell nodes and a string node of ring 0. -/
def topo : TopoCfg :=
  { strings := [{ s := 0, cells := 4, capNom := 100, snRing := 0, snPos := 3 }], rings := 1, nCells := 4
    nodes := [{ ring := 0, pos := 1, string := 0, kind := 1, mask := 3, firstC := 0 },
      { ring := 0, pos := 2, string := 0, kind := 1, mask := 3, firstC := 2 },
      { ring := 0, pos := 3, string := 0, kind := 2, mask := 0, firstC := 0 }] }

/-- Every subsystem runs. -/
def allRun : Running :=
  { buck := true, bandgap := true, timebase := true, thermP := true, thermL := true, margin := true, husk := true
    drivers := true, core := true, acq := true, kernel := true, checker := true, winnow := true, tally := true
    ledger := true, steward := true, sram := true, nv := true, granary := true, recorder := true, hostLink := true
    trust := true, bist := true, wake := true }

/-- The nodes of ring 0. -/
def nodes0 : Tab Node :=
  [(1, { uid := 11, kind := 1, mask := 3, string := some 0, auth := .passed, reachA := true, reachB := true, linkUp := true }),
   (2, { uid := 12, kind := 1, mask := 3, string := some 0, firstC := 2, auth := .passed, reachA := true, reachB := true,
         linkUp := true }),
   (3, { uid := 13, kind := 2, string := some 0, auth := .passed, reachA := true, reachB := true, linkUp := true })]

/-- Ring 0, whole. -/
def ring0 : Ring := { state := .whole, nA := 3, nodes := nodes0, aLast := 3, bFirst := 1, cntA := 3, cntB := 3, inService := true }

/-- The device in service: string 0 stands open, a presence window is open, and a NODE is held. -/
def live : State :=
  { State.reset with
    sys.run := allRun
    sys.step := 8
    sys.strapped := true
    img.selected := true
    husk.nlSrc := .image
    cfg.topo := topo
    cfg.drv := [{ s := 0 }]
    ring := [(0, ring0)]
    time.tns := 1000000000000000
    time.xtal := true
    time.xtalLock := true
    host.snid := some 0
    host.can := .active
    sec.btn := some 2000000000000000
    pwr.state := .run
    pwr.pg := 31
    recd.phases := 0
    recd.gran.state := .running }

/-- A slot of the string node of ring 0, for frame 0. -/
def slot3 : List Byte :=
  [3, 18] ++ List.replicate 14 0 ++ le 2 (crc16 (le 1 0 ++ ([3, 18] ++ List.replicate 14 0))).toNat

/-- An empty slot of `n` bytes of node `p`, for frame 0. -/
def slotAt (p n : Nat) : List Byte :=
  let b := le 1 p ++ le 1 n ++ List.replicate (n - 4) 0
  b ++ le 2 (crc16 (le 1 0 ++ b)).toNat

/-- What a node answers to a MGMT exchange: RSTAT 0, an empty area and its CRC-16. -/
def respTo (m : Mgmt) : List Byte :=
  let b := List.replicate (mgmtArea m) 0
  b ++ le 2 (crc16 b).toNat

/-- The registers 0x00 to 0x10 of the nodes of ring 0. -/
def regs0 : List (List Byte) :=
  [(1, 3, 1), (2, 2, 1), (3, 1, 2)].map fun x =>
    le 8 (10 + x.1) ++ le 2 3 ++ le 1 1 ++ le 1 x.2.2 ++ le 4 0 ++ le 1 x.1 ++ le 1 x.2.1 ++ le 2 0

/-- String 0 may close: its channels run and its weld check is done. -/
def closable : State :=
  { live with cur.ch := [(0, { run := true })], drv.str := [(0, { weldDone := true })] }

/-- A wrapped ring of 25 cell nodes on the side of port A, in Fast mode. -/
def thinned : State :=
  { live with
    sys.modeAct := 0x00010000
    ring := [(0, { ring0 with
      breaks := 1, aLast := 25, bFirst := 26, collected := true
      nodes := (rangeFrom 1 25).map fun p =>
        (p, { uid := BitVec.ofNat 64 p, kind := 1, mask := 3, string := some 0, auth := .passed, reachA := true }) })] }

/-- Node 1 of ring 0 has a challenge outstanding, and the pod key of its string is held. -/
def challenged : State :=
  modNode { live with nv.keys.pod := [(0, { val := [1] })] } 0 1 fun n => { n with chalOut := true }

/-- A window of cell 0 whose blocks fit a branch whole. -/
def zwin : ZWin :=
  { openAt := 999998000000000, band := 0, bin := 0
    blocks := ([(0, 10), (10, -10), (-5, 20), ((35 : Rat) / 2, -20), ((-45 : Rat) / 4, 10), ((35 : Rat) / 8, -20), ((-285 : Rat) / 16, 10), ((35 : Rat) / 32, -10), ((-605 : Rat) / 64, 20), ((1955 : Rat) / 128, -10)] :
      List (Rat × Rat)).map fun b => (b.1, b.2, true) }

/-- Lane 30 runs cell 0 of a program whose one word is `w`. -/
def laneAt (w : Word) (x : Lane) : State :=
  { live with
    cfg.prog := [{ id := 7, live := 0xFFFFFFFF, wNs := 100, persist := [], tabs := [5], init := [], words := [w] }]
    cfg.gmap := [0]
    cfg.tabs := [{ id := 5, nx := 2, ny := 1, x0 := 0, dx := 0x3F800000, y0 := 0, dy := 0x3F800000, vals := [0, 0x3F800000] }]
    krn.lanes := [(30, { x with cell := some 0 })]
    pairs.q := [(15, { steps := [{ ord := 0, cell := 0, group := 0 }] })] }

/-- One string, the fourth, of four cells. -/
def topo3 : TopoCfg := { topo with strings := [{ s := 3, cells := 4, capNom := 100, snRing := 0, snPos := 3 }] }

/-- A directory whose first body starts at an offset. -/
def mkDir : Nat → List (Nat × List Byte) → List Byte
  | _, [] => []
  | o, (ty, b) :: t => le 2 ty ++ [1, 0] ++ le 4 o ++ le 4 b.length ++ le 4 (crc32c b).toNat ++ mkDir (o + b.length) t

/-- An unsigned image of the Sprout sections that an image must have, written from R34 to R48. -/
def mkImg (s : State) : List Byte :=
  let ss := [1, 2, 3, 4, 9, 10, 11, 12].map fun ty => (ty, (sproutSect s.sys.chem s.cfg.topo s.cfg.basis ty).getD [])
  let bodies := ss.flatMap (·.2)
  let head := le 4 0x474E4241 ++ [1, 0] ++ le 2 96 ++ le 4 (224 + bodies.length) ++ le 4 0x600 ++ le 4 1 ++ le 4 0 ++ le 2 8 ++
    le 6 0
  let b := head ++ le 64 0 ++ mkDir 224 ss ++ bodies
  b.take 32 ++ le 4 (imgCrc b).toNat ++ b.drop 36

/-- The device with the limits of its string in force. -/
def limited : State := { live with cfg.basis := sproutBases live topo }

/-- An image that the device takes. -/
def img1 : List Byte := mkImg limited

/-- Its 1020 bytes are staged, and a commit with or without WRITE_P waits for their validation. -/
def staged (presence : Bool) : State :=
  { limited with
    img.stage := (((List.range 1020).zip img1).filter fun e => e.2 != 0)
    img.stageLen := 1020
    img.state := .validating
    img.commit := some { port := .spi, tag := 1, len := 1020, presence := presence, topo := topo, basis := limited.cfg.basis } }

/-- A record of one erased program block of the Granary, and of one half full. -/
def gran1 (r : Rec) : State :=
  { live with
    recd.ring := [r]
    recd.gran.unit := 65536
    recd.gran.main := { blocks := [(0, { erased := true })], pos := some 0, n := 4 }
    recd.gran.pin := { blocks := [(0, { erased := true })], n := 1 } }

/-- A record of severity 2. -/
def rec1 : Rec := { seq := 1, code := 0x280, sevf := 2, src := 0, tns := 0, wall := 0, payload := [1] }

/-- An event waits for its record. -/
def waiting1 : State :=
  { live with recd.produced := [{ ev := { code := 0x0381 } }], recd.seqRes := 3000000, cfg.recd.agg := 4000 }

/-- A key load of the image key. -/
def keyBody : List Byte := le 4 1 ++ List.replicate 32 7 ++ (sha256 (List.replicate 32 7)).take 4

end Sys2Proof.Tests
end

