-- ==== Sys2Proof/Tests/Slice0.lean ====
section
/-! SUPPORT. Tests of the model: values that the spec's worked examples and tables state, operands that no command has, and
for every statement of the slice states and operands that meet its hypotheses together. -/

namespace Sys2Proof.Tests

open Sys2Proof Sys2Proof.Machine

set_option maxRecDepth 100000
set_option Elab.async false

/-! ## Reset and the queue -/

/-- After reset nothing is staged and no command waits. -/
theorem test_reset_staging : stagingWf State.reset ∧ queueWf State.reset = true := by decide

/-- An unpowered device with no command waiting does nothing. -/
theorem test_reset_idle : (match step State.reset with
    | .next t => t == State.reset
    | _ => false) = true := by decide +kernel

/-- A command behind another one stays in the queue. -/
theorem test_step_takes_front : (match step { State.reset with pending := [.vsupValid 5600, .startupPDieUp] } with
    | .next t => t.pending == [.startupPDieUp] && t.sys.step == 1
    | _ => false) = true := by decide +kernel

/-- The table gives its rows no bits, so no word spells a command. -/
theorem test_no_words : decodeTableWord 32 0 = none ∧ State.withFetchWord State.reset 32 0 = State.reset := by decide +kernel

/-! ## Operands that no command has -/

theorem test_wf_ring : (Instr.ringStart 1).wf = true ∧ (Instr.ringStart 2).wf = false := by decide

theorem test_wf_position : (Instr.nodeLost 0 56).wf = true ∧ (Instr.nodeLost 0 57).wf = false := by decide

theorem test_wf_position_zero : (Instr.nodeLost 0 1).wf = true ∧ (Instr.nodeLost 0 0).wf = false := by decide

theorem test_wf_string : (Instr.graceExpiry 3).wf = true ∧ (Instr.graceExpiry 4).wf = false := by decide

theorem test_wf_channel : (Instr.calTrigger 7).wf = true ∧ (Instr.calTrigger 8).wf = false := by decide

theorem test_wf_driver_channel : (Instr.economyEntry 11).wf = true ∧ (Instr.economyEntry 12).wf = false := by decide

theorem test_wf_loop : (Instr.hvilFault 1 [0]).wf = true ∧ (Instr.hvilFault 2 [0]).wf = false := by decide

theorem test_wf_lane : (Instr.fabs 31 1 2).wf = true ∧ (Instr.fabs 32 1 2).wf = false := by decide

theorem test_wf_cell : (Instr.ztabWrite 1535).wf = true ∧ (Instr.ztabWrite 1536).wf = false := by decide

theorem test_wf_category : (Instr.tripLatchSet .both 2 0 0xB08).wf = true ∧ (Instr.tripLatchSet .both 3 0 0xB08).wf = false := by decide

theorem test_wf_slot : (Instr.huskSlotAssert .main 255).wf = true ∧ (Instr.huskSlotAssert .main 256).wf = false := by decide

theorem test_wf_timer : (Instr.huskTimerExpiry .main 63).wf = true ∧ (Instr.huskTimerExpiry .main 64).wf = false := by decide

theorem test_wf_sequencer : (Instr.sequencerStart .both 31).wf = true ∧ (Instr.sequencerStart .both 32).wf = false := by decide

theorem test_wf_output : (Instr.huskDivergence 0x40B).wf = true ∧ (Instr.huskDivergence 0x40C).wf = false := by decide

theorem test_wf_rail : (Instr.railRecovery 4 800).wf = true ∧ (Instr.railRecovery 5 800).wf = false := by decide

theorem test_wf_wake_source : (Instr.sleepWake 8).wf = true ∧ (Instr.sleepWake 7).wf = false := by decide

theorem test_wf_start_step : (Instr.startupLate 8).wf = true ∧ (Instr.startupLate 9).wf = false := by decide

theorem test_wf_start_step_zero : (Instr.startupLate 1).wf = true ∧ (Instr.startupLate 0).wf = false := by decide

theorem test_wf_segment : (Instr.pwrRun { hd with seg := 15 } false).wf = true ∧
    (Instr.pwrRun { hd with seg := 16 } false).wf = false := by decide

theorem test_wf_staged_offset : (Instr.imgChunk hd 0xFFFFFFFF []).wf = true ∧ (Instr.imgChunk hd 0x100000000 []).wf = false := by decide

theorem test_wf_committed_length : (Instr.imgCommit hd 0xFFFFFFFF).wf = true ∧ (Instr.imgCommit hd 0x100000000).wf = false := by decide

theorem test_wf_descriptor : (Instr.enumRead 0 [List.replicate 20 0]).wf = true ∧
    (Instr.enumRead 0 [List.replicate 19 0]).wf = false := by decide

theorem test_wf_delay : (Instr.enumMeasure 0 none [{ pos := 56, rttA := [], rttB := [] }]).wf = true ∧
    (Instr.enumMeasure 0 none [{ pos := 57, rttA := [], rttB := [] }]).wf = false := by decide

theorem test_wf_fault : (Instr.channelStop 7 .conv 2 0).wf = true ∧ (Instr.channelStop 7 .conv 3 0).wf = false ∧
    (Instr.channelStop 7 .input 2 0).wf = false := by decide

theorem test_wf_response : (Instr.enumAuthenticate 0 [{ pos := 56, tag1 := [], tag2 := [], pair := [] }]).wf = true ∧
    (Instr.enumAuthenticate 0 [{ pos := 0, tag1 := [], tag2 := [], pair := [] }]).wf = false := by decide

theorem test_wf_summary : (Instr.sleepPatrol [{ ring := 1, portB := true, bytes := [] }] [1]).wf = true ∧
    (Instr.sleepPatrol [{ ring := 2, portB := true, bytes := [] }] [1]).wf = false ∧
    (Instr.sleepPatrol [] [2]).wf = false := by decide

/-! ## Values that the spec states -/

/-- The published check values of the CRCs that chapters 2 and 4 name. -/
theorem test_crc_check_values :
    crc32c [0x31, 0x32, 0x33, 0x34, 0x35, 0x36, 0x37, 0x38, 0x39] = 0xE3069283 ∧
    crc16 [0x31, 0x32, 0x33, 0x34, 0x35, 0x36, 0x37, 0x38, 0x39] = 0x29B1 := by decide +kernel

/-- The published SHA-256 of "abc" begins so. -/
theorem test_sha256_abc : (sha256 [0x61, 0x62, 0x63]).take 4 = [0xBA, 0x78, 0x16, 0xBF] := by decide +kernel

/-- The first published HMAC-SHA-256 test case begins so. -/
theorem test_hmac_first_case : (hmac (List.replicate 20 0x0B) [0x48, 0x69, 0x20, 0x54, 0x68, 0x65, 0x72, 0x65]).take 4 =
    [0xB0, 0x34, 0x4C, 0x61] := by decide +kernel

/-- Words of the example program of chapter 9: LDI F7 DT, CMP P7 F7 F21 NE, SKIP 5 if P7 = 0, FDIV F23 F7 F22. -/
theorem test_words_a : encWord 16 7 0 0 0 5 = 0x40E00005 ∧ encWord 12 7 7 21 (at' 2 1) 0 = 0x30E7A900 ∧
    encWord 21 7 0 0 0 5 = 0x54E00005 ∧ encR3 5 23 7 22 0 = 0x16E7B000 := by decide +kernel

/-- More of its words: FSUB F23 F0 F23, FEXP F20 F23, FADD F21 F7 F0, LDS F1 0, MOVI F5 1.0. -/
theorem test_words_b : encR3 2 23 0 23 0 = 0x0AE0B800 ∧ encR3 7 20 23 0 0 = 0x1E970000 ∧
    encR3 1 21 7 0 0 = 0x06A70000 ∧ encWord 17 1 0 0 0 0 = 0x44200000 ∧
    encWord 14 5 0 0 0 0x3C00 = 0x38A03C00 := by decide +kernel

/-- More of its words: CLAMP F1 F1 F0 F5, STS 0 F1, OUT 1 F10, FMUL F15 F14 F11, FMA F6 F20 F16 F15, TBL2 F10 F1 F9 0. -/
theorem test_words_c : encR3 11 1 1 0 5 = 0x2C210140 ∧ encWord 18 0 1 0 0 0 = 0x48010000 ∧
    encWord 20 0 10 0 0 1 = 0x500A0001 ∧ encR3 3 15 14 11 0 = 0x0DEE5800 ∧ encR3 4 6 20 16 15 = 0x10D483C0 ∧
    encWord 19 10 1 9 0 0 = 0x4D414800 := by decide +kernel

/-- MOVI F5, 1.0 of that program puts binary32 one into F5. -/
theorem test_movi_one : freg (laneOf (match exec (.movi 30 5 0 0x3C00) (laneAt 0x38A03C00 {}) with
    | .next t => t
    | _ => live) 30) 5 = 0x3F800000 := by decide +kernel

/-- The OCV table of the TBL2 example of chapter 9. -/
def ocvTable : KTable :=
  { id := 0, nx := 21, ny := 8, x0 := 0, dx := ofRat (5 / 100), y0 := ofRat (-20), dy := ofRat 10
    vals := (List.range 168).map fun k =>
      if k = 94 then ofRat (32900 / 10000) else if k = 95 then ofRat (32950 / 10000)
      else if k = 115 then ofRat (32920 / 10000) else if k = 116 then ofRat (32970 / 10000) else 0 }

/-- The TBL2 example of chapter 9 gives about 3.29085 V. -/
theorem test_tbl2_example : (toRat (interp ocvTable (ofRat (5025 / 10000)) (ofRat 23)) * 1000000).floor = 3290850 := by
  decide +kernel

/-- Channel 2 of the short circuit example of chapter 6: 1,500,000 mA full scale, limits of +1,200 A and -750 A. -/
def shorted : State :=
  { live with
    cfg.topo := { topo with strings := [{ s := 1, cells := 4, capNom := 100, snRing := 0, snPos := 3 }] }
    husk.net.limits := [{}, { en := true, iHi := 1200000, iLo := -750000 }]
    cur.ch := [(2, { fs := 1500000 })] }

/-- CUR_CH2_THR of that example reads 0x0399_0100. -/
theorem test_threshold_example : readWord .spi 0x0906C (setThresholds 2 shorted) = 0x03990100 := by decide +kernel

/-- Ring 0 in the break example of chapter 4, before and after the break between positions 17 and 18. -/
def broken18 (wrapped : Bool) : State :=
  { live with ring := [(0, { ring0 with
      state := if wrapped then .wrapped else .whole
      nA := if wrapped then 17 else 50
      nB := if wrapped then 33 else 50
      aLast := 17, bFirst := 18, breaks := if wrapped then 1 else 0, lCW := 4706, lCCW := 4706
      nodes := (List.range 50).map fun k => (k + 1,
        { kind := 1, dA := 1604, dB := 3014, ofsCW := 3396, ofsCCW := 1986, refB := true, auth := .passed
          string := some 0 }) })] }

/-- RING0_STATUS and RING0_BREAK of that example. -/
theorem test_ring_status_example : readWord .spi 0x06004 (broken18 false) = 0x3CB2C800 ∧
    readWord .spi 0x06004 (broken18 true) = 0x4461C800 ∧ readWord .spi 0x06008 (broken18 true) = 0x11120001 := by
  decide +kernel

/-- RING0_NODE_DELAY and RING0_NODE_STATE of its node 18. -/
theorem test_ring_node_example : readWord .spi 0x06218 (broken18 true) = 0x0BC60644 ∧
    readWord .spi 0x0621C (broken18 true) = 0x07C2A400 := by decide +kernel

/-- The sensor failure example of chapter 14 at T + 4 min. -/
def sensor5 : State :=
  { live with
    therm.throtOn := true, therm.failHold := some 5, therm.rate := 1
    therm.sens := [(5, { temp := 12450, failed := true, subst := true })] }

/-- THERM_SENS5 and THERM_STATUS of that example. -/
theorem test_therm_example : readWord .spi 0x04054 sensor5 = 0xC00030A2 ∧ readWord .spi 0x04000 sensor5 = 0x91000020 := by
  decide +kernel

/-- A master of the 10BASE-T1S example of chapter 17 has four strings. -/
def segment : State :=
  { live with cfg.topo.strings := (List.range 4).map fun s => { s := s, cells := 384, capNom := 100, snRing := 0, snPos := 3 } }

/-- The parts of its CELL stream of 1,536 cells have 102,192 bits, its STRING stream takes 7.28 kbit/s, and its stream limit
is 110.7 kbit/s. -/
theorem test_load_example :
    (((partSizes 1536 (cellPer .t1s)).map fun n => wireCost .t1s (8 * n)).foldl (· + ·) 0) = 102192 ∧
    streamLoad segment { port := .t1s, stype := 1, sid := 0, period := 200 } = 728 / 100 ∧
    portLimit segment .t1s = 1107 / 10 := by decide +kernel

/-- The Rs update example of chapter 11: 0x3690 of CONF 40 meets an event of 0.3999 mΩ. -/
theorem test_winnow_example : entryTake { kind := .step, cell := 611, band := 4, bin := 6, r := 3999 / 10000 } (1 / 41)
    { rs := 0x3690, conf := 40 } = { rs := 0x368F, conf := 41 } := by decide +kernel

/-- An image of the Sprout sections that an image must have passes every check of R49. -/
theorem test_image_valid : imgCheck limited img1 1020 = none := by decide +kernel

/-- One flipped bit of its HUSK body is found by the image CRC. -/
theorem test_image_crc : imgCheck limited (img1.set 400 0xFF) 1020 = some { err := 4, sect := 0, loc := 32 } := by
  decide +kernel


/-! ## The hypotheses of the statements can be met

Each theorem gives, for one statement, states and operands that meet the hypotheses of its clauses together, in the
order of the clauses that have some, at boundary values where a clause has a range. -/

theorem witness_StepRunsFront :
    (∃ (c : _) (rest : _) (s : State), s.pending = c :: rest) ∧
    (∃ (s : State), s.pending = [] ∧ noClock s = true) ∧
    (∃ (s : State), s.pending = [] ∧ noClock s = false) :=
  ⟨⟨.frameBoundary, [], { live with pending := [.frameBoundary] }, by decide +kernel⟩,
    ⟨{ live with pwr.state := .off }, by decide +kernel⟩,
    ⟨live, by decide +kernel⟩⟩

theorem witness_ResetValues :
    ∃ (a : _), a < 0x17000 ∧ a % 4 = 0 ∧ a ≠ 0x0004 ∧ a ≠ 0x14010 ∧ a ≠ 0x14014 ∧ a ≠ 0x14018 :=
  ⟨0x16FFC, by decide +kernel⟩

theorem witness_StepsKeep :
    ∃ (s : State), stagingWf s :=
  ⟨{ live with pending := [.imgAbortStage hd false] }, by decide +kernel⟩

theorem witness_WritesSystem_1 :
    (∃ (h : ReqHdr) (p : _) (v : _) (s : State), freshWr h p s ∧ modeReserved v = false) ∧
    (∃ (h : ReqHdr) (p : _) (s : State), freshWr h p s ∧ commitBusy s = false) ∧
    (∃ (h : ReqHdr) (p : _) (s : State), freshWr h p s ∧ s.img.pending ≠ .none ∧ s.img.state ≠ .activating ∧
      s.img.coldStep = 0) ∧
    (∃ (h : ReqHdr) (p : _) (s : State), freshWr h p s) ∧
    (∃ (h : ReqHdr) (p : _) (s : State), freshWr h p s) ∧
    (∃ (h : ReqHdr) (p : _) (s : State), freshWr h p s) :=
  ⟨⟨hd, false, 0xF0CCFFFF, live, by decide +kernel⟩,
    ⟨hd, false, live, by decide +kernel⟩,
    ⟨hd, false, { live with img.pending := .hot, img.coldStep := 0 }, by decide +kernel⟩,
    ⟨hd, false, live, by decide +kernel⟩,
    ⟨hd, false, live, by decide +kernel⟩,
    ⟨hd, false, live, by decide +kernel⟩⟩

theorem witness_WritesSystem_2 :
    (∃ (h : ReqHdr) (s : State), freshWr h true s ∧ s.nv.tb.hold = true) ∧
    (∃ (h : ReqHdr) (p : _) (r : Fin 2) (s : State), freshWr h p s ∧ (ringOf s r.val).state ≠ .off ∧
      (ringOf s r.val).state ≠ .sleeping ∧ (∀ n ∈ s.cfg.topo.nodes, n.ring = r.val → standsOpen s n.string = true)) ∧
    (∃ (h : ReqHdr) (p : _) (r : Fin 2) (s : State), freshWr h p s ∧ (ringOf s r.val).state ≠ .off ∧
      (ringOf s r.val).state ≠ .sleeping ∧ (∃ n ∈ s.cfg.topo.nodes, n.ring = r.val ∧ standsOpen s n.string = false)) ∧
    (∃ (h : ReqHdr) (p : _) (r : Fin 2) (s : State), freshWr h p s ∧ (ringOf s r.val).state ≠ .off ∧
      (ringOf s r.val).state ≠ .sleeping) ∧
    (∃ (h : ReqHdr) (p : _) (s : State), freshWr h p s ∧ s.sys.run.acq = true ∧ compMode s = true) ∧
    (∃ (h : ReqHdr) (p : _) (s : State), freshWr h p s ∧ s.sys.run.acq = true) :=
  ⟨⟨hd, { live with nv.tb.hold := true }, by decide +kernel⟩,
    ⟨hd, false, 0, { live with pwr.state := .run }, by decide +kernel⟩,
    ⟨hd, false, 0, { live with husk.main.act := [(0, 7)] }, by decide +kernel⟩,
    ⟨hd, false, 0, live, by decide +kernel⟩,
    ⟨hd, false, { live with sys.modeAct := 0x04000000, sys.run.acq := true }, by decide +kernel⟩,
    ⟨hd, false, { live with sys.run.acq := true }, by decide +kernel⟩⟩

theorem witness_FrameCompletes :
    (∃ (s : State), s.sys.run.acq = true ∧ s.sys.frameOpen = false ∧ (s.sys.commitDue = false ∨ acqMode s = 1) ∧
      s.pwr.state ≠ .standby) ∧
    (∃ (s : State), s.sys.run.acq = true ∧ s.sys.frameOpen = true ∧ s.sys.commitDue = false) ∧
    (∃ (s : State), s.sys.commitDue = true) ∧
    (∃ (s : State), sumNow s = true) :=
  ⟨⟨{ live with sys.frameOpen := false, sys.run.acq := true }, by decide +kernel⟩,
    ⟨{ live with sys.frameOpen := true, sys.run.acq := true, sys.commitDue := false }, by decide +kernel⟩,
    ⟨{ live with sys.commitDue := true }, by decide +kernel⟩,
    ⟨{ live with sys.sumDue := true }, by decide +kernel⟩⟩

theorem witness_CurrentCalibrates_1 :
    (∃ (n : _) (x : _) (s : State), n < 8 ∧ armed s n = true ∧ s.sys.run.acq = true ∧ (curCh s n).run = true ∧
      (curCh s n).cal ≠ .switched ∧ (curCh s n).cal ≠ .settling ∧ acqMode s ≠ 2 ∧ -8388608 ≤ x ∧ x ≤ 8388607) ∧
    (∃ (n : _) (x : _) (s : State), n < 8 ∧ armed s n = true ∧ s.sys.run.acq = true ∧ (curCh s n).run = true ∧
      (curCh s n).cal ≠ .switched ∧ (curCh s n).cal ≠ .settling ∧ acqMode s = 2 ∧ -8388608 ≤ x ∧ x ≤ 8388607 ∧
      (curCh s n).win.length ≥ 15) ∧
    (∃ (n : _) (s : State), ((curCh s n).cal = .switched ∨ (curCh s n).cal = .settling)) ∧
    (∃ (n : _) (s : State), n < 8 ∧ configured s (chString n) = true ∧ (curCh s n).cal = .none ∧
      (s.time.tns ≥ (curCh s n).calAt + 600000000000 ∨ n ∈ s.cur.calQueue)) ∧
    (∃ (n : _) (s : State), n < 8 ∧ atBoundary s = true ∧ (curCh s n).cal = .waiting ∧ calTurn s n = true ∧
      (curCh s (otherCh n)).cal ≠ .switched ∧ (curCh s (otherCh n)).cal ≠ .settling ∧
      ((curCh s (otherCh n)).run = true ∧ (curStr s (chString n)).disagree = false ∨ standsOpen s (chString n) = true)) ∧
    (∃ (n : _) (s : State), (curCh s n).cal = .switched) :=
  ⟨⟨7, 8388607,
      { live with cfg.topo := topo3, cur.ch := [(7, { run := true, win := [(1, 0), (2, 0)] })], sys.run.acq := true },
      by decide +kernel⟩,
    ⟨7, -8388608,
      { live with sys.modeAct := 0x00020000, cfg.topo := topo3, cur.ch := [(7, { run := true, win := List.replicate 15 (5, 0) })], sys.run.acq := true },
      by decide +kernel⟩,
    ⟨7, { live with cur.ch := [(7, { run := true, cal := .settling })] }, by decide +kernel⟩,
    ⟨7, { live with cfg.topo := topo3, cur.ch := [(7, { run := true })] }, by decide +kernel⟩,
    ⟨7,
      { live with cfg.topo := topo3, sys.t0 := 1000000000000000, sys.frameOpen := true, cur.ch := [(6, { run := true }), (7, { run := true, cal := .waiting })] },
      by decide +kernel⟩,
    ⟨7, { live with cur.ch := [(7, { run := true, cal := .switched })] }, by decide +kernel⟩⟩

theorem witness_CurrentCalibrates_2 :
    (∃ (n : _) (s : State), (curCh s n).cal = .settling) ∧
    (∃ (n : _) (s : State), n < 8 ∧ armed s n = true ∧ (curCh s n).calOver = false ∧
      s.time.tns ≥ (curCh s n).calAt + 3600000000000) :=
  ⟨⟨7, { live with cfg.topo := topo3, cur.calQueue := [7], cur.ch := [(7, { run := true, cal := .settling })] },
      by decide +kernel⟩,
    ⟨7, { live with cfg.topo := topo3, cur.ch := [(7, { run := true })] }, by decide +kernel⟩⟩

theorem witness_CurrentFaults_1 :
    (∃ (n : _) (mv : Int) (s : State), n < 8 ∧ armed s n = true ∧ (curCh s n).fault = .none ∧ (mv < -100 ∨ mv > 5100)) ∧
    (∃ (n : _) (s : State), n < 8 ∧ armed s n = true ∧ (curCh s n).fault = .none) ∧
    (∃ (n : _) (sub : _) (s : State), n < 8 ∧ armed s n = true ∧
      (if sub = 0 then (curCh s n).beyondHi else (curCh s n).beyondLo) ≥ 3) ∧
    (∃ (n : _) (s : State), n < 8 ∧ (curCh s n).fault ≠ .none ∧ vanaOk s = true) ∧
    (∃ (i : _) (s : State), i < 4 ∧ (curStr s i).disCnt ≥ 100 ∧ (curStr s i).disagree = false) ∧
    (∃ (i : _) (s : State), i < 4 ∧ (curStr s i).agrCnt ≥ 100 ∧ (curStr s i).disagree = true) :=
  ⟨⟨7, -101, { live with cfg.topo := topo3, cur.ch := [(7, { run := true, cmpOk := true })] }, by decide +kernel⟩,
    ⟨7, { live with cfg.topo := topo3, cur.ch := [(7, { run := true, cmpOk := true })] }, by decide +kernel⟩,
    ⟨7, 1, { live with cfg.topo := topo3, cur.ch := [(7, { run := true, cmpOk := true, beyondLo := 3 })] },
      by decide +kernel⟩,
    ⟨7, { live with cfg.topo := topo3, cur.ch := [(7, { fault := .input, cmpOk := true })] }, by decide +kernel⟩,
    ⟨3, { live with cur.str := [(3, { disCnt := 100 })] }, by decide +kernel⟩,
    ⟨3, { live with cur.str := [(3, { agrCnt := 100, disagree := true })] }, by decide +kernel⟩⟩

theorem witness_CurrentFaults_2 :
    (∃ (n : _), n < 8) ∧
    (∃ (n : _), n < 8) ∧
    (∃ (n : _) (s : State), n < 8 ∧ (curCh s n).test = true) ∧
    (∃ (n : _) (hiOk : _) (loOk : _) (s : State), n < 8 ∧ (curCh s n).test = true ∧ (hiOk && loOk) = false) :=
  ⟨⟨7, by decide +kernel⟩,
    ⟨7, by decide +kernel⟩,
    ⟨7, { live with cur.ch := [(7, { test := true })] }, by decide +kernel⟩,
    ⟨7, true, false, { live with cur.ch := [(7, { test := true })] }, by decide +kernel⟩⟩

theorem witness_HuskLatches :
    (∃ (m : Copies) (cat : _) (i : _) (src : _) (c : _) (s : State), i < 4 ∧ cat < 3 ∧ configured s i = true ∧
      s.husk.nlSrc ≠ .none ∧ c ∈ tripCopies s (copyList m) cat i src ∧
      (latched s cat i = true ∨ tripGoverned s cat i = false)) ∧
    (∃ (i : _) (s : State), i < 4 ∧ (∀ j, j < 3 → chCmd s i j = false) ∧ cmpRawActive s i = false ∧
      (anyLatch s i = true ∨ cmpLatched s i = true) ∧ tripBound (settleNet (clearDrv i s)) i = false) ∧
    (∃ (i : _) (j : _) (s : State), j < 3 ∧ chCmd s i j = true) ∧
    (∃ (t : _) (s : State), s.drv.keyOffAt = some t ∧ s.drv.key = true ∧ s.time.tns ≥ t + 1000000000) ∧
    (∃ (i : _) (t : _) (s : State), Tab.get none s.husk.grace i = some t ∧ s.time.tns ≥ t) :=
  ⟨⟨.both, 1, 0, 0xB08, false, { live with husk.nlSrc := .rom, husk.agg := [(0, { vlimHi := true })] },
      by decide +kernel⟩,
    ⟨3, { live with husk.main.t0 := 8 }, by decide +kernel⟩,
    ⟨0, 2, { live with husk.main.act := [(0, 4)], husk.shadow.act := [(0, 4)] }, by decide +kernel⟩,
    ⟨5, { live with drv.key := true, drv.keyOffAt := some 5, sys.keyRearm := true }, by decide +kernel⟩,
    ⟨3, 5, { live with husk.grace := [(3, some 5)] }, by decide +kernel⟩⟩

theorem witness_WritesHusk_1 :
    (∃ (h : ReqHdr) (p : _) (s : State), freshWr h p s ∧ s.pwr.state ≠ .shipEntry) ∧
    (∃ (h : ReqHdr) (p : _) (s : State), freshWr h p s ∧ s.sys.run.husk = true) ∧
    (∃ (h : ReqHdr) (p : _) (s : State), freshWr h p s ∧ s.sys.run.husk = true) ∧
    (∃ (i : _), i < 4) ∧
    (∃ (i : _) (c : _) (s : State), i < 4 ∧ (seqOf (copyOf s c) (4 * i + 1)).busy = false ∧
      (seqOf (copyOf s c) (4 * i + 2)).busy = false ∧ copyOpen (copyOf s c) i = false ∧ abortBound s (4 * i + 1) = false) ∧
    (∃ (h : ReqHdr) (p : _) (s : State), freshWr h p s ∧ s.sys.run.husk = true ∧ s.sys.run.drivers = true) :=
  ⟨⟨hd, false, live, by decide +kernel⟩,
    ⟨hd, false, { live with sys.run.husk := true }, by decide +kernel⟩,
    ⟨hd, false, { live with sys.run.husk := true }, by decide +kernel⟩,
    ⟨3, by decide +kernel⟩,
    ⟨3, true, { live with husk.shadow.act := [(3, 7)] }, by decide +kernel⟩,
    ⟨hd, false, { live with sys.run.husk := true, sys.run.drivers := true }, by decide +kernel⟩⟩

theorem witness_WritesHusk_2 :
    ∃ (i : _) (c : _) (s : State), (seqOf (copyOf s c) (4 * i + 3)).busy = false :=
  ⟨3, true, live, by decide +kernel⟩

theorem witness_HuskSlots :
    (∃ (m : Copies) (k : _) (e : _) (c : _) (s : State), (copyOf s c).net.slots[k]? = some e ∧ c ∈ copyList m ∧
      (Tab.get {} (copyOf s c).slots k).out = false ∧ (Tab.get {} (copyOf s c).slots k).cout ≥ e.qual) ∧
    (∃ (m : Copies) (k : _) (e : _) (c : _) (s : State), (copyOf s c).net.slots[k]? = some e ∧ c ∈ copyList m ∧
      (Tab.get {} (copyOf s c).slots k).out = true ∧ (Tab.get {} (copyOf s c).slots k).cin ≥ e.qual) ∧
    (∃ (m : Copies) (k : _) (e : _) (t : _) (c : _) (s : State), (copyOf s c).net.timers[k]? = some e ∧
      c ∈ copyList m ∧ (Tab.get {} (copyOf s c).timers k).since = some t ∧ s.time.tns ≥ t + e.count * unitNs e.unit) :=
  ⟨⟨.both, 63, { meas := 0, above := true, missTrip := false, thr := 5, hyst := 1, qual := 3 }, true,
      { live with husk.shadow.net.slots := List.replicate 64 { meas := 0, above := true, missTrip := false, thr := 5, hyst := 1, qual := 3 }, husk.shadow.slots := [(63, { cout := 3 })] },
      by decide +kernel⟩,
    ⟨.both, 63, { meas := 0, above := true, missTrip := false, thr := 5, hyst := 1, qual := 3 }, true,
      { live with husk.shadow.net.slots := List.replicate 64 { meas := 0, above := true, missTrip := false, thr := 5, hyst := 1, qual := 3 }, husk.shadow.slots := [(63, { out := true, cin := 3 })] },
      by decide +kernel⟩,
    ⟨.both, 0, { count := 5, unit := 0, mode := 0, src := 0 }, 3, true,
      { live with husk.shadow.net.timers := [{ count := 5, unit := 0, mode := 0, src := 0 }], husk.shadow.timers := [(0, { since := some 3 })] },
      by decide +kernel⟩⟩

theorem witness_HuskSequencers_1 :
    (∃ (m : Copies) (q : _) (c : _) (e : _) (s : State), 16 ≤ q ∧ q < 32 ∧ reqOf (copyOf s c) q = true ∧
      c ∈ copyList m ∧ abortBound s q = false ∧ (seqOf (copyOf s c) q).busy = false ∧
      (userProg (copyOf s c) q)[0]? = some e ∧ e.flt = false ∧ e.fin = false) ∧
    (∃ (i : _) (c : _) (s : State), closeAllowed s i = true ∧ (seqOf (copyOf s c) (4 * i)).busy = false ∧
      (drvStr s i).weld = false) ∧
    (∃ (i : _) (c : _) (s : State), closeAllowed s i = true ∧ (seqOf (copyOf s c) (4 * i)).busy = false ∧
      (drvStr s i).weld = true) ∧
    (∃ (q : _), q < 32) ∧
    (∃ (m : Copies) (q : _) (c : _) (e : _) (f : _) (s : State), copyList m = [c] ∧ 16 ≤ q ∧
      (seqOf (copyOf s c) q).busy = true ∧ (userProg (copyOf s c) q)[(seqOf (copyOf s c) q).step]? = some e ∧
      srcVal s (copyOf s c) e.wait ≠ e.waitZero ∧ (userProg (copyOf s c) q)[e.nextOk]? = some f ∧ f.flt = false ∧
      f.fin = false) ∧
    (∃ (m : Copies) (q : _) (c : _) (e : _) (f : _) (s : State), copyList m = [c] ∧ 16 ≤ q ∧
      (seqOf (copyOf s c) q).busy = true ∧ (userProg (copyOf s c) q)[(seqOf (copyOf s c) q).step]? = some e ∧
      srcVal s (copyOf s c) e.wait = e.waitZero ∧ s.time.tns ≥ (seqOf (copyOf s c) q).since + e.tmo * unitNs e.tunit ∧
      (userProg (copyOf s c) q)[e.nextTmo]? = some f ∧ f.flt = true) :=
  ⟨⟨.both, 31, true,
      { act := 5, nextOk := 0, nextTmo := 1, waitZero := true, wait := 0, tmo := 1, tunit := 0, fin := false, flt := false },
      { live with husk.shadow.net.useqs := List.replicate 16 [{ act := 5, nextOk := 0, nextTmo := 1, waitZero := true, wait := 0, tmo := 1, tunit := 0, fin := false, flt := false }, { act := 0, nextOk := 0, nextTmo := 0, waitZero := true, wait := 0, tmo := 1, tunit := 0, fin := false, flt := true }], husk.shadow.startReq := 0xFFFFFFFF },
      by decide +kernel⟩,
    ⟨0, true, closable, by decide +kernel⟩,
    ⟨0, true, { closable with drv.str := [(0, { weldDone := true, weld := true })] }, by decide +kernel⟩,
    ⟨31, by decide +kernel⟩,
    ⟨.shadow, 31, true,
      { act := 5, nextOk := 0, nextTmo := 1, waitZero := false, wait := 0xFFF, tmo := 1, tunit := 0, fin := false, flt := false },
      { act := 5, nextOk := 0, nextTmo := 1, waitZero := false, wait := 0xFFF, tmo := 1, tunit := 0, fin := false, flt := false },
      { live with husk.shadow.net.useqs := List.replicate 16 [{ act := 5, nextOk := 0, nextTmo := 1, waitZero := false, wait := 0xFFF, tmo := 1, tunit := 0, fin := false, flt := false }, { act := 0, nextOk := 0, nextTmo := 0, waitZero := true, wait := 0, tmo := 1, tunit := 0, fin := false, flt := true }], husk.shadow.seqs := [(31, { busy := true })] },
      by decide +kernel⟩,
    ⟨.shadow, 31, true,
      { act := 5, nextOk := 0, nextTmo := 1, waitZero := false, wait := 0, tmo := 1, tunit := 0, fin := false, flt := false },
      { act := 0, nextOk := 0, nextTmo := 0, waitZero := false, wait := 0, tmo := 1, tunit := 0, fin := false, flt := true },
      { live with husk.shadow.net.useqs := List.replicate 16 [{ act := 5, nextOk := 0, nextTmo := 1, waitZero := false, wait := 0, tmo := 1, tunit := 0, fin := false, flt := false }, { act := 0, nextOk := 0, nextTmo := 0, waitZero := false, wait := 0, tmo := 1, tunit := 0, fin := false, flt := true }], husk.shadow.seqs := [(31, { busy := true })] },
      by decide +kernel⟩⟩

theorem witness_HuskSequencers_2 :
    (∃ (m : Copies) (i : _) (c : _) (s : State), c ∈ copyList m ∧ i < 4 ∧
      (seqOf (copyOf s c) (4 * i + 1)).busy = true ∧ (seqOf (copyOf s c) (4 * i + 1)).step = 0 ∧
      (monOf (copyOf s c) i).iOrd = true ∧ cmdrOf (copyOf s c) i = 1) ∧
    (∃ (m : Copies) (i : _) (c : _) (s : State), c ∈ copyList m ∧ i < 4 ∧
      (seqOf (copyOf s c) (4 * i + 1)).busy = true ∧ (seqOf (copyOf s c) (4 * i + 1)).step = 0 ∧
      cmdrOf (copyOf s c) i = 1 ∧ s.time.tns ≥ (seqOf (copyOf s c) (4 * i + 1)).since + 2000000000) ∧
    (∃ (m : Copies) (q : _) (c : _) (s : State), abortBound s q = true ∧ c ∈ copyList m ∧
      (seqOf (copyOf s c) q).busy = true) :=
  ⟨⟨.both, 3, true,
      { live with husk.shadow.seqs := [(13, { busy := true })], husk.shadow.mon := [(3, { iOrd := true })], husk.shadow.cmdr := [(3, 1)] },
      by decide +kernel⟩,
    ⟨.both, 3, true, { live with husk.shadow.seqs := [(13, { busy := true })], husk.shadow.cmdr := [(3, 1)] },
      by decide +kernel⟩,
    ⟨.both, 1, true,
      { live with husk.net.outs := [{ src := 0, func := 7, arg := 1, code := 0 }], husk.main.net.outs := [{ src := 0, func := 7, arg := 1, code := 0 }], husk.shadow.net.outs := [{ src := 0, func := 7, arg := 1, code := 0 }], husk.main.outs := [(0, true)], husk.shadow.outs := [(0, true)], husk.main.seqs := [(1, { busy := true })], husk.shadow.seqs := [(1, { busy := true })] },
      by decide +kernel⟩⟩

theorem witness_HuskCopies_1 :
    (∃ (k : _) (s : State), differs s k = true ∧ diverges s k = false) ∧
    (∃ (s : State), (∀ d ∈ s.husk.divs, d.till = none → s.time.tns < d.since + 1000000000)) ∧
    (∃ (d : _) (s : State), d ∈ s.husk.divs ∧ d.till = none ∧ d.said = false ∧ s.time.tns ≥ d.since + 1000000000) ∧
    (∃ (crc : _) (s : State), s.husk.nlSrc ≠ .none ∧ s.husk.net.crc = crc ∧ s.husk.mainOk = true ∧
      s.husk.shadowOk = true) ∧
    (∃ (crcM : _) (crcS : _) (uncM : _) (uncS : _) (s : State), s.husk.nlSrc ≠ .none ∧
      (uncM = true ∨ uncS = true ∨ crcM ≠ s.husk.net.crc ∨ crcS ≠ s.husk.net.crc)) ∧
    (∃ (s : State), s.husk.loading = true) :=
  ⟨⟨0, { live with husk.main.outs := [(0, true)] }, by decide +kernel⟩,
    ⟨{ live with husk.divs := [{ out := 0, since := 999999500000000, till := none, said := false }, { out := 1, since := 5, till := some 6, said := true }] },
      by decide +kernel⟩,
    ⟨{ out := 0, since := 5, till := none, said := false },
      { live with husk.divs := [{ out := 0, since := 5, till := none, said := false }], husk.nlSrc := .rom },
      by decide +kernel⟩,
    ⟨7, { live with husk.nlSrc := .rom, husk.net.crc := 7, husk.mainOk := true, husk.shadowOk := true },
      by decide +kernel⟩,
    ⟨0, 0, true, false, { live with husk.nlSrc := .rom }, by decide +kernel⟩,
    ⟨{ live with husk.nlSrc := .rom, husk.loading := true }, by decide +kernel⟩⟩

theorem witness_HuskCopies_2 :
    ∃ (n : _), n < 8 :=
  ⟨7, by decide +kernel⟩

theorem witness_DriverInputs_1 :
    (∃ (n : _) (t : _) (s : State), n < 12 ∧ (drvCh s n).onAt = some t ∧ (drvCh s n).drive = false ∧
      s.time.tns ≥ t + (drvOf s (n / 3)).pullIn * 1000000) ∧
    (∃ (n : _) (gate : _) (coil : _) (s : State), n < 12 ∧ chDriven s n = true ∧ (gate = true ∨ coil ≥ 4000) ∧
      (drvCh s n).drive = false) ∧
    (∃ (n : _) (c0 : _) (c1 : _) (c2 : _) (t : _) (s : State), n < 12 ∧ chDriven s n = true ∧
      (drvCh s n).onAt = some t ∧ s.time.tns ≥ t + 10000000 ∧ c0 < 40 ∧ c1 < 40 ∧ c2 < 40 ∧ (drvCh s n).openF = false) ∧
    (∃ (n : _), n < 2) ∧
    (∃ (n : _), n < 2) ∧
    (∃ (l : List Nat), l.length = 11 ∧ (∀ v ∈ l, v < 700 ∨ v > 1300)) :=
  ⟨⟨11, 5, { live with drv.ch := [(11, { onAt := some 5 })] }, by decide +kernel⟩,
    ⟨11, true, 5,
      { live with cfg.drv := [{ s := 3 }], cfg.topo := { topo with strings := [{ s := 3, cells := 4, capNom := 100, snRing := 0, snPos := 3 }] }, husk.main.act := [(3, 7)], husk.shadow.act := [(3, 7)], husk.mainOk := true, husk.shadowOk := true, drv.hvil := [] },
      by decide +kernel⟩,
    ⟨11, 39, 39, 39, 5,
      { live with cfg.drv := [{ s := 3 }], cfg.topo := { topo with strings := [{ s := 3, cells := 4, capNom := 100, snRing := 0, snPos := 3 }] }, husk.main.act := [(3, 7)], husk.shadow.act := [(3, 7)], husk.mainOk := true, husk.shadowOk := true, drv.ch := [(11, { onAt := some 5 })] },
      by decide +kernel⟩,
    ⟨1, by decide +kernel⟩,
    ⟨1, by decide +kernel⟩,
    ⟨List.replicate 11 1301, by decide⟩⟩

theorem witness_DriverInputs_2 :
    (∃ (l : List Nat), l.length = 120 ∧ (∀ v ∈ l, 700 ≤ v ∧ v ≤ 1300)) ∧
    (∃ (v : _) (s : State), s.sys.run.buck = true ∧ changes ((v :: v :: v :: s.drv.keyWin).take 20) ≤ 2) ∧
    (∃ (s : State), s.sys.run.buck = true) :=
  ⟨⟨List.replicate 120 700, by decide⟩,
    ⟨true, { live with sys.run.buck := true }, by decide +kernel⟩,
    ⟨{ live with sys.run.buck := true }, by decide +kernel⟩⟩

theorem witness_DriverChecks_1 :
    (∃ (i : _) (c : _) (s : State), i < 4 ∧ (seqOf (copyOf s c) (4 * i + 2)).busy = true ∧
      (seqOf (copyOf s c) (4 * i + 2)).step = 0 ∧ (monOf (copyOf s c) i).iBrk = false ∧
      s.time.tns ≥ (seqOf (copyOf s c) (4 * i + 2)).since + 100000000) ∧
    (∃ (i : _) (s : State), configured s i = true ∧ standsOpen s i = true ∧ s.husk.reachedL1.getLsbD i = true ∧
      (drvStr s i).weldDone = false) ∧
    (∃ (i : _) (t : _) (s : State), configured s i = true ∧ standsOpen s i = true ∧ (drvStr s i).openEnd = some t ∧
      s.time.tns ≥ t + 200000000) ∧
    (∃ (i : _) (d : _) (s : State), seqBusy s (4 * i + 3) = true ∧ (drvStr s i).weldSlot = some d) ∧
    (∃ (i : _) (s : State), i < 4 ∧ seqBusy s (4 * i + 3) = true ∧ (drvStr s i).weldSlot = none ∧
      s.time.tns ≥ weldFrom s i + 100000000) ∧
    (∃ (i : _) (d : _) (s : State), (∀ k ∈ strings s, k ≠ i → closed s k = false) ∧ weldFind (drvOf s i) true d = 0) :=
  ⟨⟨3, true, { live with husk.shadow.seqs := [(14, { busy := true })] }, by decide +kernel⟩,
    ⟨3, { live with cfg.topo := topo3, husk.reachedL1 := 8 }, by decide +kernel⟩,
    ⟨3, 5, { live with cfg.topo := topo3, drv.str := [(3, { openEnd := some 5 })] }, by decide +kernel⟩,
    ⟨0, {},
      { live with husk.main.seqs := [(3, { busy := true, step := 1 })], drv.str := [(0, { weldSlot := some {} })] },
      by decide +kernel⟩,
    ⟨0, { live with husk.main.seqs := [(3, { busy := true, step := 1 })] }, by decide +kernel⟩,
    ⟨0, { vPos := 5000, vNeg := 5000, aux := some 0 }, live, by decide +kernel⟩⟩

theorem witness_DriverChecks_2 :
    ∃ (i : _) (d : _) (s : State), weldFind (drvOf s i) (!((strings s).any fun k => k != i && closed s k)) d ≠ 0 :=
  ⟨0, { vPos := 5000, vNeg := 5000, aux := some 7 }, live, by decide +kernel⟩

theorem witness_RingEnumerates_1 :
    (∃ (r : _) (s : State), enumMay s = true ∧ s.img.selected = true ∧ r < 2 ∧
      ((ringOf s r).state = .off ∨ (ringOf s r).enumReq = true) ∧ (ringOf s r).state ≠ .sleeping) ∧
    (∃ (r : _) (s : State), (ringOf s r).enumStep = 1) ∧
    (∃ (r : _) (s : State), (ringOf s r).enumStep = 2) ∧
    (∃ (r : _) (regs : List (List Byte)) (s : State), (ringOf s r).enumStep = 3 ∧ (ringOf s r).tokA = false ∧
      enumCause (ringOf s r) (regs.map descOf) = 0 ∧ (regs.map fun b => (descOf b).pos).Nodup ∧
      ((regs.map descOf).filter fun d => d.kind == 1).length ≤ 48) ∧
    (∃ (r : _) (regs : List (List Byte)) (s : State), (ringOf s r).enumStep = 3 ∧ (ringOf s r).tokA = false ∧
      enumCause (ringOf s r) (regs.map descOf) ≠ 0 ∧ (ringOf s r).enumTries < 2) ∧
    (∃ (r : _) (regs : List (List Byte)) (s : State), (ringOf s r).enumStep = 3 ∧ (ringOf s r).tokA = false ∧
      enumCause (ringOf s r) (regs.map descOf) ≠ 0 ∧ (ringOf s r).enumTries ≥ 2) :=
  ⟨⟨1, { live with ring := [], img.selected := true }, by decide +kernel⟩,
    ⟨0, (fun s => modRing s 0 fun x => { x with enumStep := 1 }) live, by decide +kernel⟩,
    ⟨0, (fun s => modRing s 0 fun x => { x with enumStep := 2 }) live, by decide +kernel⟩,
    ⟨0, regs0, (fun s => modRing s 0 fun x => { x with enumStep := 3 }) live, by decide +kernel⟩,
    ⟨0, [], (fun s => modRing s 0 fun x => { x with enumStep := 3, cntA := 57, enumTries := 1 }) live,
      by decide +kernel⟩,
    ⟨0, [], (fun s => modRing s 0 fun x => { x with enumStep := 3, cntA := 57, enumTries := 2 }) live,
      by decide +kernel⟩⟩

theorem witness_RingEnumerates_2 :
    (∃ (r : _) (s : State), (ringOf s r).enumStep = 4) ∧
    (∃ (r : _) (s : State), (ringOf s r).enumStep = 5) ∧
    (∃ (r : _) (a : AuthResp) (i : _) (s : State), (ringOf s r).enumStep = 5 ∧ (nodeOf s r a.pos).string = some i ∧
      podKey s i = []) ∧
    (∃ (r : _) (s : State), (ringOf s r).enumStep = 6) :=
  ⟨⟨0, (fun s => modRing s 0 fun x => { x with enumStep := 4 }) live, by decide +kernel⟩,
    ⟨0, (fun s => modRing s 0 fun x => { x with enumStep := 5 }) live, by decide +kernel⟩,
    ⟨0, { pos := 3, tag1 := [], tag2 := [], pair := [] }, 0,
      (fun s => modRing s 0 fun x => { x with enumStep := 5 }) live, by decide +kernel⟩,
    ⟨0, (fun s => modRing s 0 fun x => { x with enumStep := 6 }) live, by decide +kernel⟩⟩

theorem witness_RingCollects_1 :
    (∃ (r : _) (s : State), ringServes s r = true ∧ s.sys.frameOpen = true) ∧
    (∃ (r : _) (bytes : _) (s : State), ringServes s r = true ∧ (ringOf s r).collected = true ∧
      served s r (fld bytes 0 1) = true ∧
      slotOk s.time.frm (slotLen (nodeOf s r (fld bytes 0 1)).kind (acqMode s)) bytes = true ∧
      thinTurn s r (fld bytes 0 1) = true) ∧
    (∃ (r : _) (bytes : _) (s : State), ringServes s r = true ∧ (ringOf s r).collected = true ∧
      served s r (fld bytes 0 1) = true ∧
      slotOk s.time.frm (slotLen (nodeOf s r (fld bytes 0 1)).kind (acqMode s)) bytes = true ∧
      thinTurn s r (fld bytes 0 1) = false) ∧
    (∃ (r : _) (bytes : _) (s : State), ringServes s r = true ∧ (ringOf s r).collected = true ∧
      (served s r (fld bytes 0 1) = false ∨ slotOk s.time.frm (slotLen (nodeOf s r (fld bytes 0 1)).kind (acqMode s)) bytes = false)) ∧
    (∃ (a : Byte), 1 ≤ a.toNat % 64 ∧ a.toNat % 64 ≤ 56) ∧
    (∃ (a : Byte) (na : Byte), (na ≠ ~~~a ∨ a.toNat % 64 = 0 ∨ a.toNat % 64 > 56)) :=
  ⟨⟨0, { live with sys.frameOpen := true }, by decide +kernel⟩,
    ⟨0, slot3, (fun s => modRing s 0 fun x => { x with collected := true }) live, by decide +kernel⟩,
    ⟨0, slotAt 1 39, thinned, by decide +kernel⟩,
    ⟨0, [3], (fun s => modRing s 0 fun x => { x with collected := true }) live, by decide +kernel⟩,
    ⟨56, by decide +kernel⟩,
    ⟨64, 0xBF, by decide +kernel⟩⟩

theorem witness_RingCollects_2 :
    (∃ (r : _) (m : _) (rest : _) (resp : _) (s : State), mgmtNext s.time.tns (ringOf s r).mgmt = some (m, rest) ∧
      (ringOf s r).inService = true ∧ mgmtGap s = true ∧ m.write = false ∧ mgmtFilled m resp = true ∧ fld resp 0 1 = 0) ∧
    (∃ (r : _) (m : _) (rest : _) (s : State), mgmtNext s.time.tns (ringOf s r).mgmt = some (m, rest) ∧
      (ringOf s r).inService = true ∧ mgmtGap s = true ∧ m.tries < 2) ∧
    (∃ (r : _) (m : _) (rest : _) (s : State), mgmtNext s.time.tns (ringOf s r).mgmt = some (m, rest) ∧
      (ringOf s r).inService = true ∧ mgmtGap s = true ∧ m.tries ≥ 2 ∧ m.write = false) ∧
    (∃ (r : _) (rttA : _) (rttB : _) (a : _) (b : _) (q : _) (s : State), q = nextPos s r (ringOf s r).measPos ∧
      ringServes s r = true ∧ (nodeOf s r q).kind ≠ 0 ∧ (ringOf s r).measured = false ∧ mgmtGap s = true ∧
      echoDelay (nodeOf s r q).tTurn rttA = some a ∧ echoDelay (nodeOf s r q).tTurn rttB = some b) ∧
    (∃ (r : _) (p : _) (i : _) (s : State), (nodeOf s r p).string = some i ∧ (nodeOf s r p).kind ≠ 0 ∧
      (nodeOf s r p).misses ≥ 3 ∧ nodeOut (nodeOf s r p) = false) :=
  ⟨⟨0, { pos := 1, write := false, addr := 0x28, n := 4 }, [],
      respTo { pos := 1, write := false, addr := 0x28, n := 4 },
      (fun s => modRing s 0 fun x => { x with mgmt := [{ pos := 1, write := false, addr := 0x28, n := 4 }] }) ({ live with sys.t0 := 1000000000000000 }),
      by decide +kernel⟩,
    ⟨0, { pos := 1, write := false, addr := 0x28, n := 4, tries := 1 }, [],
      (fun s => modRing s 0 fun x => { x with mgmt := [{ pos := 1, write := false, addr := 0x28, n := 4, tries := 1 }] }) ({ live with sys.t0 := 1000000000000000 }),
      by decide +kernel⟩,
    ⟨0, { pos := 1, write := false, addr := 0x28, n := 4, tries := 2 }, [],
      (fun s => modRing s 0 fun x => { x with mgmt := [{ pos := 1, write := false, addr := 0x28, n := 4, tries := 2 }] }) ({ live with sys.t0 := 1000000000000000 }),
      by decide +kernel⟩,
    ⟨0, List.replicate 16 100, List.replicate 16 200, 50, 100, 1, { live with sys.t0 := 1000000000000000 },
      by decide +kernel⟩,
    ⟨0, 1, 0, (fun s => modNode s 0 1 fun n => { n with misses := 3 }) live, by decide +kernel⟩⟩

theorem witness_RingHeals_1 :
    (∃ (r : _) (s : State), ringServes s r = true ∧ (ringOf s r).liveEn = true ∧ (ringOf s r).breaks ≠ 0 ∧
      (ringOf s r).aLast ≥ 1 ∧ (ringOf s r).liveStep = 0 ∧
      (∃ pn ∈ (ringOf s r).nodes, pn.2.linkUp = true ∧ (pn.1 = (ringOf s r).aLast ∨ pn.1 = (ringOf s r).bFirst))) ∧
    (∃ (r : _) (m : _) (rest : _) (resp : _) (s : State), mgmtNext s.time.tns (ringOf s r).mgmt = some (m, rest) ∧
      (ringOf s r).inService = true ∧ mgmtGap s = true ∧ m.write = true ∧ m.addr = 0x20 ∧ m.data = le 4 1 ∧
      mgmtFilled m resp = true ∧ fld resp 0 1 = 0 ∧ (ringOf s r).liveStep = 1) ∧
    (∃ (r : _) (s : State), (ringOf s r).liveStep = 2) ∧
    (∃ (r : _) (k : _) (back : _) (descs : List Word) (s : State), (ringOf s r).liveStep = 2 ∧ k ≠ 0 ∧
      ((ringOf s r).aLast + k < bFirstOf (ringOf s r) ∨ back = true) ∧
      (∀ j < k, ∃ d y, topoNode s r ((ringOf s r).aLast + 1 + j) = some d ∧ descs[j]? = some y ∧ d.kind = bits y 31 24 ∧ d.mask = bits y 15 0)) ∧
    (∃ (r : _) (k : _) (s : State), (ringOf s r).liveStep = 2 ∧ (ringOf s r).aLast + k ≥ bFirstOf (ringOf s r)) ∧
    (∃ (r : _) (regs : List (List Byte)) (s : State), (ringOf s r).liveStep = 3 ∧
      (regs.map fun b => (descOf b).pos).Nodup) :=
  ⟨⟨0, (fun s => modRing s 0 fun x => { x with breaks := 1, aLast := 1, bFirst := 3, liveEn := true }) live,
      by decide +kernel⟩,
    ⟨0, { pos := 1, write := true, addr := 0x20, n := 4, data := le 4 1 }, [],
      respTo { pos := 1, write := true, addr := 0x20, n := 4, data := le 4 1 },
      (fun s => modRing s 0 fun x => { x with breaks := 1, aLast := 1, bFirst := 3, liveStep := 1, mgmt := [{ pos := 1, write := true, addr := 0x20, n := 4, data := le 4 1 }] }) ({ live with sys.t0 := 1000000000000000 }),
      by decide +kernel⟩,
    ⟨0, (fun s => modRing s 0 fun x => { x with breaks := 1, aLast := 1, bFirst := 3, liveStep := 2 }) live,
      by decide +kernel⟩,
    ⟨0, 1, true, [0x01000003],
      (fun s => modRing s 0 fun x => { x with breaks := 1, aLast := 1, bFirst := 3, liveStep := 2 }) live,
      by refine ⟨by decide +kernel, by decide,
      by decide +kernel, fun j hj => ⟨{ ring := 0, pos := 2, string := 0, kind := 1, mask := 3, firstC := 2 }, 0x01000003, ?_⟩⟩ <;> (obtain rfl : j = 0 := by omega) <;> decide +kernel⟩,
    ⟨0, 2, (fun s => modRing s 0 fun x => { x with breaks := 1, aLast := 1, bFirst := 3, liveStep := 2 }) live,
      by decide +kernel⟩,
    ⟨0, [], (fun s => modRing s 0 fun x => { x with breaks := 1, aLast := 1, bFirst := 3, liveStep := 3 }) live,
      by decide +kernel⟩⟩

theorem witness_RingHeals_2 :
    (∃ (r : _) (s : State), (ringOf s r).liveStep = 4) ∧
    (∃ (r : _) (s : State), (ringOf s r).liveStep = 5 ∧ atBoundary s = true) ∧
    (∃ (r : _) (s : State), (ringOf s r).liveStep = 5 ∧ atBoundary s = true ∧ (ringOf s r).liveBack = false ∧
      (ringOf s r).aLast + (ringOf s r).liveK + 1 = bFirstOf (ringOf s r)) :=
  ⟨⟨0, (fun s => modRing s 0 fun x => { x with breaks := 1, aLast := 1, bFirst := 3, liveStep := 4 }) live,
      by decide +kernel⟩,
    ⟨0,
      (fun s => modRing s 0 fun x => { x with breaks := 1, aLast := 1, bFirst := 3, liveStep := 5 }) ({ live with sys.frameOpen := true, sys.t0 := 1000000000000000 }),
      by decide +kernel⟩,
    ⟨0,
      (fun s => modRing s 0 fun x => { x with breaks := 1, aLast := 1, bFirst := 3, liveStep := 5, liveK := 1 }) ({ live with sys.frameOpen := true, sys.t0 := 1000000000000000 }),
      by decide +kernel⟩⟩

theorem witness_NodeChallenges :
    (∃ (r : _) (p : _) (i : _) (s : State), (nodeOf s r p).string = some i ∧ ringServes s r = true ∧
      nodeOut (nodeOf s r p) = false ∧ (nodeOf s r p).chalOut = false ∧
      s.time.tns ≥ (nodeOf s r p).chalAt + s.cfg.sec.chalPeriod * 1000000000) ∧
    (∃ (r : _) (p : _) (tag : _) (s : State), (nodeOf s r p).chalOut = true ∧ (nodeOf s r p).tagRx = some tag ∧
      tagOk s r p tag = true) ∧
    (∃ (r : _) (p : _) (tag : _) (s : State), (nodeOf s r p).chalOut = true ∧ (nodeOf s r p).tagRx = some tag ∧
      tagOk s r p tag = false ∧ (nodeOf s r p).authFails = 0 ∧ (nodeOf s r p).failPend = false) ∧
    (∃ (r : _) (p : _) (tag : _) (i : _) (s : State), (nodeOf s r p).chalOut = true ∧ (nodeOf s r p).tagRx = some tag ∧
      tagOk s r p tag = false ∧ (nodeOf s r p).authFails ≠ 0 ∧ (nodeOf s r p).string = some i ∧ standsOpen s i = true) :=
  ⟨⟨0, 1, 0, live, by decide +kernel⟩,
    ⟨0, 1, nodeTag challenged 0 1 (nodeOf challenged 0 1),
      modNode challenged 0 1 fun n => { n with tagRx := some (nodeTag challenged 0 1 (nodeOf challenged 0 1)) },
      by decide +kernel⟩,
    ⟨0, 1, [], (fun s => modNode s 0 1 fun n => { n with chalOut := true, tagRx := some [] }) live, by decide +kernel⟩,
    ⟨0, 1, [], 0, (fun s => modNode s 0 1 fun n => { n with chalOut := true, tagRx := some [], authFails := 1 }) live,
      by decide +kernel⟩⟩

theorem witness_AcquisitionTests_1 :
    (∃ (s : State), s.sys.run.acq = true ∧ s.time.tns ≥ s.acq.decAt + 1000000000) ∧
    (∃ (r : _) (p : _) (s : State), (nodeOf s r p).balMis ≥ 3 ∧ (nodeOf s r p).balFault = false) ∧
    (∃ (r : _) (p : _) (s : State), (nodeOf s r p).kind ≠ 0 ∧ s.time.tns ≥ (nodeOf s r p).dieAt + 1000000000) ∧
    (∃ (r : _) (p : _) (s : State), ((nodeOf s r p).balFault = true ∨ (nodeOf s r p).dieStale = true)) ∧
    (∃ (r : _) (p : _) (i : _) (s : State), compMode s = true ∧ (nodeOf s r p).kind = 1 ∧
      (nodeOf s r p).string = some i ∧ nodeOut (nodeOf s r p) = false ∧ (nodeOf s r p).coup.busy = false ∧
      s.time.tns ≥ (nodeOf s r p).coup.holdUntil ∧ (nodeOf s r p).coup.want = true) ∧
    (∃ (r : _) (p : _) (s : State), (nodeOf s r p).coup.busy = true ∧ (nodeOf s r p).coup.rounds ≥ 4) :=
  ⟨⟨{ live with sys.run.acq := true }, by decide +kernel⟩,
    ⟨0, 1, (fun s => modNode s 0 1 fun n => { n with balMis := 3 }) live, by decide +kernel⟩,
    ⟨0, 1, live, by decide +kernel⟩,
    ⟨0, 1, (fun s => modNode s 0 1 fun n => { n with balFault := true }) live, by decide +kernel⟩,
    ⟨0, 1, 0,
      (fun s => modNode s 0 1 fun n => { n with coup.want := true }) ({ live with sys.modeAct := 0x04000000 }),
      by decide +kernel⟩,
    ⟨0, 1, (fun s => modNode s 0 1 fun n => { n with coup.busy := true, coup.rounds := 4 }) live, by decide +kernel⟩⟩

theorem witness_AcquisitionTests_2 :
    (∃ (r : _) (p : _) (s : State), (nodeOf s r p).coup.busy = true ∧ (nodeOf s r p).coup.frames ≥ 256 ∧
      (nodeOf s r p).coup.rounds < 4) ∧
    (∃ (r : _) (p : _) (stack : _) (q : _) (d : _) (s : State), (nodeOf s r p).ow.testSeq = some q ∧
      topoNode s r p = some d ∧ s.time.frm.toNat % 256 = q ∧ bits stack 31 24 = q) ∧
    (∃ (r : _) (p : _) (stack : _) (q : _) (d : _) (s : State), (nodeOf s r p).ow.testSeq = some q ∧
      topoNode s r p = some d ∧ (s.time.frm.toNat % 256 ≠ q ∨ bits stack 31 24 ≠ q)) :=
  ⟨⟨0, 1, (fun s => modNode s 0 1 fun n => { n with coup.busy := true, coup.frames := 256, coup.rounds := 3 }) live,
      by decide +kernel⟩,
    ⟨0, 1, 0, 0, { ring := 0, pos := 1, string := 0, kind := 1, mask := 3, firstC := 0 },
      (fun s => modNode s 0 1 fun n => { n with ow.testSeq := some 0 }) live, by decide +kernel⟩,
    ⟨0, 1, 0xFF000000, 0, { ring := 0, pos := 1, string := 0, kind := 1, mask := 3, firstC := 0 },
      (fun s => modNode s 0 1 fun n => { n with ow.testSeq := some 0 }) live, by decide +kernel⟩⟩

theorem witness_LaneArithmetic_1 :
    (∃ (l : _) (d : BitVec 5) (a : BitVec 5) (b : BitVec 5) (s : State), laneRuns s l (encR3 1 d a b 0)) ∧
    (∃ (l : _) (d : BitVec 5) (a : BitVec 5) (b : BitVec 5) (s : State), laneRuns s l (encR3 2 d a b 0)) ∧
    (∃ (l : _) (d : BitVec 5) (a : BitVec 5) (b : BitVec 5) (s : State), laneRuns s l (encR3 3 d a b 0)) ∧
    (∃ (l : _) (d : BitVec 5) (a : BitVec 5) (b : BitVec 5) (c : BitVec 5) (s : State), laneRuns s l (encR3 4 d a b c)) ∧
    (∃ (l : _) (d : BitVec 5) (a : BitVec 5) (b : BitVec 5) (s : State), laneRuns s l (encR3 5 d a b 0)) ∧
    (∃ (l : _) (d : BitVec 5) (a : BitVec 5) (s : State), laneRuns s l (encR3 6 d a 0 0)) :=
  ⟨⟨30, 31, 30, 29, laneAt (encR3 1 31 30 29 0) {}, by decide +kernel⟩,
    ⟨30, 31, 30, 29, laneAt (encR3 2 31 30 29 0) {}, by decide +kernel⟩,
    ⟨30, 31, 30, 29, laneAt (encR3 3 31 30 29 0) {}, by decide +kernel⟩,
    ⟨30, 31, 30, 29, 28, laneAt (encR3 4 31 30 29 28) {}, by decide +kernel⟩,
    ⟨30, 31, 30, 29, laneAt (encR3 5 31 30 29 0) {}, by decide +kernel⟩,
    ⟨30, 31, 30, laneAt (encR3 6 31 30 0 0) {}, by decide +kernel⟩⟩

theorem witness_LaneArithmetic_2 :
    (∃ (l : _) (d : BitVec 5) (a : BitVec 5) (s : State), laneRuns s l (encR3 7 d a 0 0)) ∧
    (∃ (l : _) (d : BitVec 5) (a : BitVec 5) (b : BitVec 5) (s : State), laneRuns s l (encR3 8 d a b 0)) ∧
    (∃ (l : _) (d : BitVec 5) (a : BitVec 5) (b : BitVec 5) (s : State), laneRuns s l (encR3 9 d a b 0)) ∧
    (∃ (l : _) (d : BitVec 5) (a : BitVec 5) (s : State), laneRuns s l (encR3 10 d a 0 0)) ∧
    (∃ (l : _) (d : BitVec 5) (a : BitVec 5) (b : BitVec 5) (c : BitVec 5) (s : State), laneRuns s l (encR3 11 d a b c)) :=
  ⟨⟨30, 31, 30, laneAt (encR3 7 31 30 0 0) {}, by decide +kernel⟩,
    ⟨30, 31, 30, 29, laneAt (encR3 8 31 30 29 0) {}, by decide +kernel⟩,
    ⟨30, 31, 30, 29, laneAt (encR3 9 31 30 29 0) {}, by decide +kernel⟩,
    ⟨30, 31, 30, laneAt (encR3 10 31 30 0 0) {}, by decide +kernel⟩,
    ⟨30, 31, 30, 29, 28, laneAt (encR3 11 31 30 29 28) {}, by decide +kernel⟩⟩

theorem witness_LanePredicates_1 :
    (∃ (l : _) (pd : BitVec 3) (a : BitVec 5) (b : BitVec 5) (cond : BitVec 3) (s : State),
      laneRuns s l (encWord 12 pd.toNat a.toNat b.toNat (at' 2 cond.toNat) 0)) ∧
    (∃ (l : _) (d : BitVec 5) (a : BitVec 5) (b : BitVec 5) (pn : BitVec 3) (s : State),
      laneRuns s l (encWord 13 d.toNat a.toNat b.toNat pn.toNat 0)) ∧
    (∃ (l : _) (d : BitVec 5) (imm : BitVec 16) (s : State), laneRuns s l (encWord 14 d.toNat 0 0 0 imm.toNat)) ∧
    (∃ (l : _) (d : BitVec 5) (imm : BitVec 16) (s : State), laneRuns s l (encWord 14 d.toNat 1 0 0 imm.toNat)) ∧
    (∃ (l : _) (d : BitVec 5) (imm : BitVec 16) (s : State), laneRuns s l (encWord 14 d.toNat 2 0 0 imm.toNat)) ∧
    (∃ (l : _) (d : BitVec 5) (a : BitVec 5) (mode : BitVec 3) (s : State),
      laneRuns s l (encWord 15 d.toNat a.toNat 0 (at' 2 mode.toNat) 0)) :=
  ⟨⟨30, 7, 31, 30, 5, laneAt (encWord 12 7 31 30 (at' 2 5) 0) {}, by decide +kernel⟩,
    ⟨30, 31, 30, 29, 7, laneAt (encWord 13 31 30 29 7 0) {}, by decide +kernel⟩,
    ⟨30, 31, 65535, laneAt (encWord 14 31 0 0 0 65535) {}, by decide +kernel⟩,
    ⟨30, 31, 65535, laneAt (encWord 14 31 1 0 0 65535) {}, by decide +kernel⟩,
    ⟨30, 31, 65535, laneAt (encWord 14 31 2 0 0 65535) {}, by decide +kernel⟩,
    ⟨30, 31, 30, 3, laneAt (encWord 15 31 30 0 (at' 2 3) 0) {}, by decide +kernel⟩⟩

theorem witness_LanePredicates_2 :
    (∃ (l : _) (d : BitVec 5) (ix : BitVec 11) (c : _) (s : State), laneRuns s l (encWord 16 d.toNat 0 0 0 ix.toNat) ∧
      laneCell s l (encWord 16 d.toNat 0 0 0 ix.toNat) = some c) ∧
    (∃ (i : BitVec 5), i ≠ 0) :=
  ⟨⟨30, 31, 21, 0, laneAt (encWord 16 31 0 0 0 21) {}, by decide +kernel⟩,
    ⟨31, by decide +kernel⟩⟩

theorem witness_LaneState_1 :
    (∃ (l : _) (d : BitVec 5) (w : BitVec 11) (c : _) (s : State), laneRuns s l (encWord 17 d.toNat 0 0 0 w.toNat) ∧
      laneCell s l (encWord 17 d.toNat 0 0 0 w.toNat) = some c) ∧
    (∃ (l : _) (w : _) (x : Lane) (s : State), shadowPair s (l / 2) = false ∧
      (∀ k ∈ x.writes, k.out = true ∨ k.idx ≠ w)) ∧
    (∃ (w : _) (k : KWrite) (ws : _) (x : Lane), x.writes = ws ++ [k] ∧ k.out = false ∧ k.idx = w) ∧
    (∃ (l : _) (a : BitVec 5) (w : BitVec 11) (st : PStep) (s : State),
      laneRuns s l (encWord 18 0 a.toNat 0 0 w.toNat) ∧ l % 2 = 0 ∧ (pairOf s (l / 2)).split = false ∧
      (pairOf s (l / 2)).steps.getLast? = some st) ∧
    (∃ (l : _) (a : BitVec 5) (j : BitVec 11) (st : PStep) (s : State),
      laneRuns s l (encWord 20 0 a.toNat 0 0 j.toNat) ∧ l % 2 = 0 ∧ (pairOf s (l / 2)).split = false ∧
      (pairOf s (l / 2)).steps.getLast? = some st) ∧
    (∃ (l : _) (d : BitVec 5) (a : BitVec 5) (b : BitVec 5) (k : BitVec 5) (c : _) (tb : _) (s : State),
      laneRuns s l (encWord 19 d.toNat a.toNat b.toNat k.toNat 0) ∧
      laneCell s l (encWord 19 d.toNat a.toNat b.toNat k.toNat 0) = some c ∧ localTable s c k.toNat = some tb) :=
  ⟨⟨30, 31, 31, 0, laneAt (encWord 17 31 0 0 0 31) {}, by decide +kernel⟩,
    ⟨30, 31, {}, live, by decide +kernel⟩,
    ⟨31, { out := false, idx := 31, val := 5 }, [], { writes := [{ out := false, idx := 31, val := 5 }] },
      by decide +kernel⟩,
    ⟨30, 31, 31, { ord := 0, cell := 0, group := 0 }, laneAt (encWord 18 0 31 0 0 31) {}, by decide +kernel⟩,
    ⟨30, 31, 15, { ord := 0, cell := 0, group := 0 }, laneAt (encWord 20 0 31 0 0 15) {}, by decide +kernel⟩,
    ⟨30, 31, 30, 29, 0, 0,
      { id := 5, nx := 2, ny := 1, x0 := 0, dx := 0x3F800000, y0 := 0, dy := 0x3F800000, vals := [0, 0x3F800000] },
      laneAt (encWord 19 31 30 29 0 0) {}, by decide +kernel⟩⟩

theorem witness_LaneState_2 :
    (∃ (l : _) (s : State), laneRuns s l 0 ∧ l % 2 = 0 ∧ (pairOf s (l / 2)).split = false) ∧
    (∃ (l : _) (sense : _) (pn : BitVec 3) (n : BitVec 11) (s : State),
      laneRuns s l (encWord 21 (16 + at' 3 (b2n sense) + pn.toNat) 0 0 0 n.toNat)) ∧
    (∃ (l : _) (sense : _) (pn : BitVec 3) (n : BitVec 11) (s : State),
      laneRuns s l (encWord 21 (at' 3 (b2n sense) + pn.toNat) 0 0 0 n.toNat)) ∧
    (∃ (l : _) (d : BitVec 5) (a : BitVec 5) (b : BitVec 5) (c : _) (s : State),
      laneCell s l (encR3 1 d a b 0) = some c ∧ (laneOf s l).skip > 0 ∧ (l % 2 = 1 → shadowPair s (l / 2) = false) ∧
      s.pairs.dbg.state ≠ .halted) :=
  ⟨⟨30, laneAt 0 {}, by decide +kernel⟩,
    ⟨30, true, 7, 2047, laneAt (encWord 21 (16 + 8 + 7) 0 0 0 2047) {}, by decide +kernel⟩,
    ⟨30, true, 7, 2047, laneAt (encWord 21 (8 + 7) 0 0 0 2047) {}, by decide +kernel⟩,
    ⟨30, 31, 30, 29, 0, laneAt (encR3 1 31 30 29 0) { skip := 3 }, by decide +kernel⟩⟩

theorem witness_PairsStep :
    (∃ (l : _) (c : _) (s : State), l < 32 ∧ l % 2 = 0 ∧ (laneOf s l).cell = none ∧ (laneOf s l).halted = false ∧
      (pairOf s (l / 2)).quar = false ∧ (pairOf s (l / 2)).split = false ∧ shadowPair s (l / 2) = false ∧
      stepsOpen s = true ∧ (pairOf s (l / 2)).steps.length < 3 ∧ nextCell s l = some c) ∧
    (∃ (b : _) (s : State), handBoundary s = some b ∧ s.sys.run.kernel = true) ∧
    (∃ (h : ReqHdr) (p : _) (m : BitVec 16) (q : _) (s : State), freshWr h p s ∧ s.sys.run.kernel = true ∧ q < 16 ∧
      m.getLsbD q = true ∧ ((pairOf s q).quar = true ∨ (pairOf s q).unver = true)) :=
  ⟨⟨30, 0, { laneAt 0 {} with krn.lanes := [(30, { again := some 0 })], sys.commitDue := true, pairs.q := [] },
      by decide +kernel⟩,
    ⟨3, { live with time.frm := 3, pairs.handAt := [2], sys.run.kernel := true }, by decide +kernel⟩,
    ⟨hd, false, 0x8000, 15, { live with pairs.q := [(15, { quar := true })], sys.run.kernel := true },
      by decide +kernel⟩⟩

theorem witness_DebugSessions_1 :
    (∃ (h : ReqHdr) (q : BitVec 4) (s : State), freshWr h true s ∧ dbgRefuse s q.toNat = 0) ∧
    (∃ (h : ReqHdr) (q : BitVec 4) (s : State), freshWr h true s ∧ dbgRefuse s q.toNat ≠ 0) ∧
    (∃ (h : ReqHdr) (p : _) (s : State), freshWr h p s ∧ s.pairs.dbg.pair < 16 ∧ s.pairs.dbg.state = .entering) ∧
    (∃ (h : ReqHdr) (p : _) (s : State), freshWr h p s ∧ s.pairs.dbg.pair < 16 ∧
      (s.pairs.dbg.state = .running ∨ s.pairs.dbg.state = .halted)) ∧
    (∃ (s : State), s.time.tns ≥ s.pairs.dbg.lastAt + 600000000000 ∧
      (s.pairs.dbg.state = .running ∨ s.pairs.dbg.state = .halted)) ∧
    (∃ (h : ReqHdr) (p : _) (s : State), freshWr h p s ∧ s.pairs.dbg.state = .running ∧
      (laneOf s (2 * s.pairs.dbg.pair)).cell ≠ none) :=
  ⟨⟨hd, 15, { live with cfg.sec.debugAllow := true }, by decide +kernel⟩,
    ⟨hd, 15, live, by decide +kernel⟩,
    ⟨hd, false, { live with pairs.dbg.state := .entering, pairs.dbg.pair := 15 }, by decide +kernel⟩,
    ⟨hd, false, { live with pairs.dbg.state := .halted, pairs.dbg.pair := 15 }, by decide +kernel⟩,
    ⟨{ live with pairs.dbg.state := .running, pairs.dbg.pair := 15 }, by decide +kernel⟩,
    ⟨hd, false,
      { live with pairs.dbg.state := .running, pairs.dbg.pair := 15, krn.lanes := [(30, { cell := some 0 })] },
      by decide +kernel⟩⟩

theorem witness_DebugSessions_2 :
    (∃ (h : ReqHdr) (p : _) (s : State), freshWr h p s ∧ s.pairs.dbg.state = .running ∧
      (laneOf s (2 * s.pairs.dbg.pair)).cell = none) ∧
    (∃ (h : ReqHdr) (p : _) (s : State), freshWr h p s ∧ s.pairs.dbg.state = .halted) ∧
    (∃ (h : ReqHdr) (p : _) (s : State), freshWr h p s) ∧
    (∃ (c : _) (g : _) (d : BitVec 5) (a : BitVec 5) (b : BitVec 5) (s : State), s.pairs.dbg.state = .halted ∧
      (laneOf s (2 * s.pairs.dbg.pair)).cell = some c ∧ s.pairs.dbg.pair < 16 ∧ progOf s c = some g ∧
      g.words[(laneOf s (2 * s.pairs.dbg.pair)).pc]? = some (encR3 1 d a b 0) ∧
      (laneOf s (2 * s.pairs.dbg.pair)).skip = 0) ∧
    (∃ (c : _) (s : State), s.pairs.dbg.state = .running ∧ s.pairs.dbg.brk.getLsbD 31 = true ∧
      bits s.pairs.dbg.brk 10 0 = c ∧ (laneOf s (2 * s.pairs.dbg.pair)).cell = some c ∧
      (laneOf s (2 * s.pairs.dbg.pair)).pc = bits s.pairs.dbg.brk 30 21) ∧
    (∃ (h : ReqHdr) (p : _) (i : Fin 32) (s : State), freshWr h p s ∧ dbgOpenRegs s = true ∧
      s.pairs.dbg.replay.length < 256 ∧ i ≠ 0) :=
  ⟨⟨hd, false, { live with pairs.dbg.state := .running, pairs.dbg.pair := 15 }, by decide +kernel⟩,
    ⟨hd, false, { live with pairs.dbg.state := .halted, pairs.dbg.pair := 15 }, by decide +kernel⟩,
    ⟨hd, false, live, by decide +kernel⟩,
    ⟨0,
      { id := 7, live := 0xFFFFFFFF, wNs := 100, persist := [], tabs := [5], init := [], words := [encR3 1 31 30 29 0] },
      31, 30, 29, { laneAt (encR3 1 31 30 29 0) {} with pairs.dbg.state := .halted, pairs.dbg.pair := 15 },
      by decide +kernel⟩,
    ⟨2047,
      { live with pairs.dbg.state := .running, pairs.dbg.pair := 15, pairs.dbg.brk := 0xFFE007FF, krn.lanes := [(30, { cell := some 2047, pc := 1023 })] },
      by decide +kernel⟩,
    ⟨hd, false, 31, { live with pairs.dbg.state := .halted, pairs.dbg.pair := 15, pairs.dbg.chkAt := true },
      by decide +kernel⟩⟩

theorem witness_DebugSessions_3 :
    (∃ (h : ReqHdr) (p : _) (s : State), freshWr h p s ∧ dbgOpenRegs s = true ∧ s.pairs.dbg.replay.length < 256) ∧
    (∃ (h : ReqHdr) (p : _) (s : State), freshWr h p s ∧ dbgOpenRegs s = true ∧ s.pairs.dbg.replay.length < 256) :=
  ⟨⟨hd, false, { live with pairs.dbg.state := .halted, pairs.dbg.pair := 15, pairs.dbg.chkAt := true },
      by decide +kernel⟩,
    ⟨hd, false, { live with pairs.dbg.state := .halted, pairs.dbg.pair := 15, pairs.dbg.chkAt := true },
      by decide +kernel⟩⟩

theorem witness_WritesCurrent :
    (∃ (h : ReqHdr) (n : Fin 8) (v : _) (s : State), freshWr h true s ∧ standsOpen s (chString n.val) = true ∧
      reachCur (0x040 + 16 * n.val) v s = true) ∧
    (∃ (h : ReqHdr) (n : Fin 8) (v : _) (s : State), freshWr h true s ∧ standsOpen s (chString n.val) = true ∧
      reachCur (0x044 + 16 * n.val) v s = true ∧ 10000 ≤ v.toNat ∧ v.toNat ≤ 5000000) ∧
    (∃ (h : ReqHdr) (n : Fin 8) (v : _) (s : State), freshWr h true s ∧ standsOpen s (chString n.val) = true ∧
      reachCur (0x048 + 16 * n.val) v s = true) ∧
    (∃ (h : ReqHdr) (n : Fin 8) (v : _) (s : State), freshWr h true s ∧ reachCur (0x044 + 16 * n.val) v s = false) ∧
    (∃ (h : ReqHdr) (p : _) (s : State), freshWr h p s ∧ s.sys.run.acq = true) ∧
    (∃ (h : ReqHdr) (p : _) (n : _) (s : State), freshWr h p s ∧ s.sys.run.acq = true ∧ n < 8) :=
  ⟨⟨hd, 7, 2, live, by decide +kernel⟩,
    ⟨hd, 7, 5000000, live, by decide +kernel⟩,
    ⟨hd, 7, 0xFFFF, live, by decide +kernel⟩,
    ⟨hd, 7, 500000, live, by decide +kernel⟩,
    ⟨hd, false, { live with sys.run.acq := true }, by decide +kernel⟩,
    ⟨hd, false, 7, { live with sys.run.acq := true }, by decide +kernel⟩⟩

theorem witness_WritesEstimator_1 :
    (∃ (h : ReqHdr) (p : _) (s : State), freshWr h p s ∧ s.est.released = false) ∧
    (∃ (h : ReqHdr) (p : _) (s : State), freshWr h p s ∧ s.est.released = true) ∧
    (∃ (h : ReqHdr) (p : _) (c : _) (s : State), freshWr h p s ∧ c ∈ cells s ∧ (eCell s c).seen = true) ∧
    (∃ (h : ReqHdr) (s : State), freshWr h true s ∧ s.est.chr.step = 15 ∧ charOk s = true) ∧
    (∃ (h : ReqHdr) (s : State), freshWr h true s ∧ s.est.chr.step = 15 ∧ charOk s = false) ∧
    (∃ (h : ReqHdr) (p : _) (s : State), freshWr h p s ∧ s.est.chr.step ≠ 15) :=
  ⟨⟨hd, false, { live with est.released := false }, by decide +kernel⟩,
    ⟨hd, false, { live with est.released := true }, by decide +kernel⟩,
    ⟨hd, false, 0, { live with est.cells := [(0, { seen := true })] }, by decide +kernel⟩,
    ⟨hd, { live with husk.main.act := [(0, 3)], husk.shadow.act := [(0, 3)], est.chr.step := 15 }, by decide +kernel⟩,
    ⟨hd, { live with est.chr.step := 15 }, by decide +kernel⟩,
    ⟨hd, false, { live with est.chr.step := 14 }, by decide +kernel⟩⟩

theorem witness_WritesEstimator_2 :
    (∃ (h : ReqHdr) (p : _) (s : State), freshWr h p s ∧ s.sys.run.winnow = true ∧
      cellConf s (portOf s h.port).sel.win = true) ∧
    (∃ (h : ReqHdr) (p : _) (s : State), freshWr h p s) :=
  ⟨⟨hd, false, { live with sys.run.winnow := true }, by decide +kernel⟩,
    ⟨hd, false, live, by decide +kernel⟩⟩

theorem witness_WritesStores_1 :
    (∃ (h : ReqHdr) (p : _) (s : State), freshWr h p s ∧ s.sys.run.ledger = true ∧ s.nv.keys.ledger.val ≠ [] ∧
      s.ledg.stmt = none ∧ (∀ x ∈ s.ledg.stmtAt, x + 100000000 ≤ s.time.tns)) ∧
    (∃ (h : ReqHdr) (p : _) (s : State), freshWr h p s) ∧
    (∃ (h : ReqHdr) (p : _) (s : State), freshWr h p s) ∧
    (∃ (h : ReqHdr) (s : State), freshWr h true s ∧ s.sys.run.ledger = true ∧ s.ledg.live.era ≠ 2) ∧
    (∃ (h : ReqHdr) (p : _) (oid : _) (s : State), freshWr h p s ∧ s.sys.run.nv = true ∧ nvChanged s oid = true) ∧
    (∃ (h : ReqHdr) (p : _) (s : State), freshWr h p s ∧ s.sys.run.recorder = true) :=
  ⟨⟨hd, false,
      { live with nv.keys.ledger.val := [1], ledg.stmtAt := some 999999900000000, sys.run.ledger := true, ledg.stmt := none },
      by decide +kernel⟩,
    ⟨hd, false, live, by decide +kernel⟩,
    ⟨hd, false, live, by decide +kernel⟩,
    ⟨hd, { live with sys.run.ledger := true }, by decide +kernel⟩,
    ⟨hd, false, 2, { live with ledg.live.gapNs := 5, sys.run.nv := true }, by decide +kernel⟩,
    ⟨hd, false, { live with sys.run.recorder := true }, by decide +kernel⟩⟩

theorem witness_WritesStores_2 :
    (∃ (h : ReqHdr) (p : _) (s : State), freshWr h p s ∧ s.sys.run.recorder = true) ∧
    (∃ (h : ReqHdr) (s : State), freshWr h true s ∧ s.sys.run.recorder = true ∧ granRuns s = true) ∧
    (∃ (h : ReqHdr) (p : _) (s : State), freshWr h p s) :=
  ⟨⟨hd, false, { live with sys.run.recorder := true }, by decide +kernel⟩,
    ⟨hd, { live with sys.run.recorder := true }, by decide +kernel⟩,
    ⟨hd, false, live, by decide +kernel⟩⟩

theorem witness_WritesHost_1 :
    (∃ (h : ReqHdr) (p : _) (t1s : BitVec 16) (can : BitVec 16) (s : State), freshWr h p s ∧ 1 ≤ t1s.toNat ∧
      t1s.toNat ≤ 8000 ∧ 1 ≤ can.toNat ∧ can.toNat ≤ 2000 ∧ portLoad s .t1s ≤ (t1s.toNat : Rat) ∧
      portLoad s .can ≤ (can.toNat : Rat)) ∧
    (∃ (h : ReqHdr) (p : _) (s : State), freshWr h p s ∧ s.sys.run.trust = true) ∧
    (∃ (h : ReqHdr) (m : BitVec 4) (s : State), freshWr h true s ∧ s.sys.run.trust = true ∧ m ≠ 0) ∧
    (∃ (i : _) (s : State), adoptChk s i = 0) ∧
    (∃ (i : _) (s : State), adoptChk s i ≠ 0) ∧
    (∃ (h : ReqHdr) (p : _) (s : State), freshWr h p s) :=
  ⟨⟨hd, false, 8000, 2000, live, by decide +kernel⟩,
    ⟨hd, false, { live with sys.run.trust := true }, by decide +kernel⟩,
    ⟨hd, 15, { live with sys.run.trust := true }, by decide +kernel⟩,
    ⟨0, { live with ledg.podForeign := 1 }, by decide +kernel⟩,
    ⟨3, live, by decide +kernel⟩,
    ⟨hd, false, live, by decide +kernel⟩⟩

theorem witness_WritesHost_2 :
    (∃ (h : ReqHdr) (p : _) (v : _) (s : State), freshWr h p s ∧ (∀ k < 16, bits v (2 * k + 1) (2 * k) ≠ 3)) ∧
    (∃ (h : ReqHdr) (p : _) (s : State), freshWr h p s) ∧
    (∃ (h : ReqHdr) (p : _) (v : _) (s : State), freshWr h p s ∧ allOpen s = true ∧ bits v 1 0 ≠ s.nv.keys.pfwLevel) ∧
    (∃ (h : ReqHdr) (p : _) (v : _) (s : State), freshWr h p s ∧ allOpen s = true ∧ bits v 1 0 = s.nv.keys.pfwLevel) ∧
    (∃ (h : ReqHdr) (p : _) (s : State), freshWr h p s) :=
  ⟨⟨hd, false, 0xAAAAAAAA, live, by decide +kernel⟩,
    ⟨hd, false, live, by decide +kernel⟩,
    ⟨hd, false, 2, live, by decide +kernel⟩,
    ⟨hd, false, 0xFF00, live, by decide +kernel⟩,
    ⟨hd, false, live, by decide +kernel⟩⟩

theorem witness_WritesPower :
    (∃ (h : ReqHdr) (p : _) (s : State), freshWr h p s ∧ s.pwr.state = .standby) ∧
    (∃ (h : ReqHdr) (p : _) (s : State), freshWr h p s ∧ s.pwr.state = .run ∧ allOpen s = true ∧ s.drv.key = false) ∧
    (∃ (h : ReqHdr) (p : _) (s : State), freshWr h p s ∧ sleepOk s = true ∧ bistBusy s = false) ∧
    (∃ (h : ReqHdr) (p : _) (s : State), freshWr h p s ∧ sleepOk s = true ∧ s.bist.state = .running) ∧
    (∃ (h : ReqHdr) (p : _) (s : State), freshWr h p s ∧ (s.pwr.state = .run ∨ s.pwr.state = .standby) ∧
      bistBusy s = false) ∧
    (∃ (h : ReqHdr) (p : _) (s : State), freshWr h p s ∧ allOpen s = true ∧ bistBusy s = false) :=
  ⟨⟨hd, false, { live with pwr.state := .standby }, by decide +kernel⟩,
    ⟨hd, false, { live with pwr.state := .run, drv.key := false }, by decide +kernel⟩,
    ⟨hd, false, live, by decide +kernel⟩,
    ⟨hd, false, { live with bist.state := .running }, by decide +kernel⟩,
    ⟨hd, false, live, by decide +kernel⟩,
    ⟨hd, false, live, by decide +kernel⟩⟩

theorem witness_WritesBist :
    (∃ (h : ReqHdr) (p : _) (tg : BitVec 3) (m : WrMeas) (s : State), freshWr h p s ∧ s.sys.run.bist = true ∧
      tg.toNat < 6 ∧ (bistChk tg.toNat m.mv m.ppm s).1 = 0) ∧
    (∃ (h : ReqHdr) (p : _) (tg : BitVec 3) (m : WrMeas) (s : State), freshWr h p s ∧ s.sys.run.bist = true ∧
      tg.toNat < 6 ∧ (bistChk tg.toNat m.mv m.ppm s).1 ≠ 0) ∧
    (∃ (h : ReqHdr) (p : _) (s : State), freshWr h p s ∧ s.bist.target < 6 ∧ s.bist.state = .running) ∧
    (∃ (q : _) (off : _) (v : _) (s : State), s.bist.target < 6 ∧ chkBist q off v s = 0) ∧
    (∃ (h : ReqHdr) (v : _) (s : State), freshWr h true s ∧ repairChk (portOf s h.port).sel.repair v s = 0) :=
  ⟨⟨hd, false, 5, ms, { live with sys.run.bist := true }, by decide +kernel⟩,
    ⟨hd, false, 5, ms, { live with bist.first := 200, sys.run.bist := true }, by decide +kernel⟩,
    ⟨hd, false, { live with bist.state := .running, bist.target := 5 }, by decide +kernel⟩,
    ⟨{ op := 2, port := .spi, tag := 1, m := ms }, 4, 0x50000, live, by decide +kernel⟩,
    ⟨hd, 0x80003FFF, live, by decide +kernel⟩⟩

theorem witness_StoreWrites_1 :
    (∃ (j : _) (rest : _) (s : State), s.nv.queue = j :: rest ∧ j.body ≠ none ∧ j.bursts > 1 ∧
      (∀ k ∈ rest.head?, nvPrio j.oid ≤ nvPrio k.oid)) ∧
    (∃ (j : _) (s : State), s.nv.queue = [j] ∧ j.body ≠ none ∧ j.bursts = 0 ∧ j.again = false ∧
      (nvObj s j.oid).a.seq < 4294967296 ∧ (nvObj s j.oid).b.seq < 4294967296) ∧
    (∃ (s : State), s.sys.run.nv = true) ∧
    (∃ (c : _) (s : State), s.sys.run.nv = true ∧ cellConf s c = true ∧ (wCell s c).dirtyAt ≠ none) ∧
    (∃ (s : State), s.sys.run.nv = true ∧ s.sys.run.tally = true) ∧
    (∃ (s : State), s.sys.run.timebase = true ∧ s.nv.refuse = false) :=
  ⟨⟨{ oid := 2, body := some (.limitSave []), bursts := 2 }, [{ oid := 1 }],
      { live with nv.queue := [{ oid := 2, body := some (.limitSave []), bursts := 2 }, { oid := 1 }] },
      by decide +kernel⟩,
    ⟨{ oid := 2, body := some (.limitSave []) },
      { live with nv.queue := [{ oid := 2, body := some (.limitSave []) }] }, by decide +kernel⟩,
    ⟨{ live with sys.run.nv := true }, by decide +kernel⟩,
    ⟨0, { live with win.cells := [(0, { dirtyAt := some 5 })], sys.run.nv := true }, by decide +kernel⟩,
    ⟨{ live with sys.run.nv := true, sys.run.tally := true }, by decide +kernel⟩,
    ⟨{ live with sys.run.timebase := true, nv.refuse := false }, by decide +kernel⟩⟩

theorem witness_StoreWrites_2 :
    ∃ (x : _) (rest : _) (s : State), s.nv.lgWait = x :: rest :=
  ⟨{ seq := 0, ckpt := 0, deltas := [], code := 0, payload := [], tns := 0, wall := none }, [],
      { live with nv.lgWait := [{ seq := 0, ckpt := 0, deltas := [], code := 0, payload := [], tns := 0, wall := none }] },
      by decide +kernel⟩

theorem witness_LedgerCheckpoints_1 :
    (∃ (s : State), s.sys.run.ledger = true) ∧
    (∃ (i : _) (s : State), i < 4 ∧ configured s i = true ∧ s.ledg.podForeign.getLsbD i = false ∧
      s.sys.run.ledger = true ∧ s.ledg.podWant.getLsbD i = true ∧ checkpointBusy s = false) ∧
    (∃ (i : _) (s : State), i < 4 ∧ configured s i = true ∧ s.ledg.podForeign.getLsbD i = false ∧
      s.sys.run.ledger = true ∧ s.ledg.podWant.getLsbD i = false ∧ (podOf s.ledg.live i).thru ≥ 1000000) ∧
    (∃ (i : _) (s : State), Tab.get [] s.ledg.podRun i ≠ [] ∧
      (∀ rp ∈ stringNodes s i, (nodeOf s rp.1 rp.2).podOk = true)) ∧
    (∃ (b : _) (s : State), s.ledg.stmt = some b ∧ checkpointBusy s = false ∧ s.ledg.ckpt.stmtSeq = fld b 8 4) ∧
    (∃ (c : _) (s : State), s.sys.run.tally = true ∧ c ∈ cells s) :=
  ⟨⟨{ live with sys.run.ledger := true }, by decide +kernel⟩,
    ⟨3, { live with cfg.topo := topo3, ledg.podWant := 8, sys.run.ledger := true }, by decide +kernel⟩,
    ⟨3, { live with cfg.topo := topo3, ledg.live.pods := [(3, { thru := 1000000 })], sys.run.ledger := true },
      by decide +kernel⟩,
    ⟨3, { live with ledg.podRun := [(3, [1])] }, by decide +kernel⟩,
    ⟨List.replicate 100 0,
      { live with ledg.stmt := some (List.replicate 100 0), ledg.ckpt.stmtSeq := fld (List.replicate 100 0) 8 4 },
      by decide +kernel⟩,
    ⟨3, { live with sys.run.tally := true }, by decide +kernel⟩⟩

theorem witness_LedgerCheckpoints_2 :
    (∃ (c : _) (s : State), s.sys.run.tally = true ∧ c ∈ cells s) ∧
    (∃ (b : _), b < 24) ∧
    (∃ (b : _), 24 ≤ b ∧ b < 40) ∧
    (∃ (b : _), 24 ≤ b) :=
  ⟨⟨3, { live with sys.run.tally := true }, by decide +kernel⟩,
    ⟨23, by decide +kernel⟩,
    ⟨39, by decide +kernel⟩,
    ⟨24, by decide +kernel⟩⟩

theorem witness_WinnowOffers :
    (∃ (i : _) (n : _) (s : State), winOn s = true ∧ stepEvent s i = some n ∧ s.win.freeze = false) ∧
    (∃ (c : _) (z : _) (i : _) (s : State), (wCell s c).win = some z ∧ cellString s c = some i ∧ z.pulse = false ∧
      winChar s = false ∧ richTest s z = true ∧ (wCell s c).winEnd = false ∧ rich s i z = true ∧ s.win.freeze = false) ∧
    (∃ (c : _) (z : _) (s : State), (wCell s c).win = some z ∧ z.pulse = true ∧ s.win.freeze = false) ∧
    (∃ (c : _) (z : _) (s : State), (wCell s c).win = some z ∧ z.pulse = false ∧ (wCell s c).winEnd = true) ∧
    (∃ (c : _) (x : _) (s : State), (wCell s c).tail = some x ∧ x.ended = true ∧ s.win.freeze = false) :=
  ⟨⟨0, 1, { live with win.str := [(0, { iHist := [some 1000, some 1000, some 0, some 0] })], win.freeze := false },
      by decide +kernel⟩,
    ⟨0, zwin, 0, { live with win.cells := [(0, { win := some zwin })], win.freeze := false }, by decide +kernel⟩,
    ⟨0, { zwin with pulse := true },
      { live with win.cells := [(0, { win := some { zwin with pulse := true } })], win.freeze := false },
      by decide +kernel⟩,
    ⟨0, zwin, { live with win.cells := [(0, { win := some zwin, winEnd := true })] }, by decide +kernel⟩,
    ⟨0, { startAt := 0, band := 0, bin := 0, ended := true },
      { live with win.cells := [(0, { tail := some { startAt := 0, band := 0, bin := 0, ended := true } })], win.freeze := false },
      by decide +kernel⟩⟩

theorem witness_Characterises :
    (∃ (k : _) (s : State), charDone s = true ∧ s.est.chr.step = k ∧ 1 ≤ k ∧ k ≤ 6) ∧
    (∃ (s : State), s.est.chr.step = 7) ∧
    (∃ (s : State), s.est.chr.step ≠ 15 ∧ s.time.tns > s.est.chr.at0 + charBound s.est.chr.step * 1000000000) ∧
    (∃ (x : _) (s : State), s.est.chr.step ≠ 15 ∧ s.est.chr.outAt = some x ∧ s.time.tns ≥ x + 30000000000) :=
  ⟨⟨6, { live with est.chr.step := 6, est.chr.anch := [0, 1, 2, 3] }, by decide +kernel⟩,
    ⟨{ live with est.chr.step := 7 }, by decide +kernel⟩,
    ⟨{ live with est.chr.step := 1 }, by decide +kernel⟩,
    ⟨5, { live with est.chr.step := 1, est.chr.outAt := some 5 }, by decide +kernel⟩⟩

theorem witness_TimeKeeping_1 :
    (∃ (a : _) (b : _) (c : _) (s : State), s.pwr.state ≠ .sleep ∧ s.time.xtalLock = true ∧ absI a > 500 ∧
      absI b > 500 ∧ absI c > 500) ∧
    (∃ (s : State), s.pwr.state ≠ .sleep ∧ s.time.xtalLock = true) ∧
    (∃ (l : List Int) (s : State), s.pwr.state ≠ .sleep ∧ s.time.xtal = true ∧ s.time.xtalLock = false ∧
      s.time.xtalLost = true ∧ l.length = 100 ∧ (∀ d ∈ l, absI d ≤ 500)) ∧
    (∃ (a : _) (b : _) (c : _) (s : State), s.pwr.state ≠ .sleep ∧ s.time.xtal = false ∧ s.sys.run.timebase = true ∧
      absI a > 50000 ∧ absI b > 50000 ∧ absI c > 50000) ∧
    (∃ (l : LinkAddr) (s : State), portRuns s l.port = true ∧ linkTakes 0 l s = true ∧ servoPort s = some l.port ∧
      s.time.syncEn = true ∧ s.time.segOfs = none) ∧
    (∃ (l : LinkAddr) (s : State), (portRuns s l.port = false ∨ linkTakes 0 l s = false)) :=
  ⟨⟨501, -501, 501, { live with time.xtalLock := true }, by decide +kernel⟩,
    ⟨{ live with time.xtalRun := 2, time.xtalLock := true }, by decide +kernel⟩,
    ⟨List.replicate 100 500, { live with time.xtalLost := true, time.xtal := true, time.xtalLock := false },
      by decide +kernel⟩,
    ⟨50001, -50001, 50001, { live with time.xtal := false, sys.run.timebase := true }, by decide +kernel⟩,
    ⟨.eth (ownMac live) 5 0x88B6 true, { live with time.syncEn := true, time.segOfs := none }, by decide +kernel⟩,
    ⟨.eth (ownMac live) 5 0x88B6 false, live, by decide +kernel⟩⟩

theorem witness_TimeKeeping_2 :
    ∃ (x : _) (s : State), s.time.syncSeen = some x ∧ (s.time.servo = .acquire ∨ s.time.servo = .locked) ∧
      s.time.tns - x ≥ 5000000000 :=
  ⟨5, { live with time.servo := .locked, time.syncSeen := some (5) }, by decide +kernel⟩

theorem witness_ThermalLevels_1 :
    (∃ (v : _) (s : State), s.sys.run.thermP = true ∧ s.sys.run.core = true ∧ s.sys.run.thermL = true ∧
      s.therm.sens = [] ∧ -32768 ≤ v ∧ v ≤ 32767) ∧
    (∃ (s : State), s.therm.warnOn = false ∧ s.therm.warnIn ≥ 2) ∧
    (∃ (s : State), s.therm.warnOn = true ∧ s.therm.warnOut ≥ 10) ∧
    (∃ (s : State), s.therm.throtOn = false ∧ s.therm.throtIn ≥ 2) ∧
    (∃ (s : State), s.therm.throtOn = true ∧ s.therm.throtOut ≥ 10 ∧ s.therm.failHold = none ∧ s.therm.lBlind = false) ∧
    (∃ (x : _) (s : State), s.therm.failHold = some x ∧ s.time.tns ≥ x) :=
  ⟨⟨-32768, { live with sys.run.thermP := true, sys.run.core := true, sys.run.thermL := true, therm.sens := [] },
      by decide +kernel⟩,
    ⟨{ live with therm.warnIn := 2, therm.warnOn := false }, by decide +kernel⟩,
    ⟨{ live with therm.warnOn := true, therm.warnOut := 10 }, by decide +kernel⟩,
    ⟨{ live with therm.throtIn := 2, therm.throtOn := false }, by decide +kernel⟩,
    ⟨{ live with therm.throtOn := true, therm.throtOut := 10, therm.failHold := none, therm.lBlind := false },
      by decide +kernel⟩,
    ⟨5, { live with therm.failHold := some (5) }, by decide +kernel⟩⟩

theorem witness_ThermalLevels_2 :
    (∃ (s : State), s.therm.shutHit = true ∧ s.sys.run.core = true ∧ shutMay s = true) ∧
    (∃ (s : State), s.therm.shutStep = 1) ∧
    (∃ (s : State), s.therm.shutStep = 4 ∧ s.pwr.pfVsup = none) ∧
    (∃ (s : State), s.pwr.state = .thermOff ∧ s.pwr.pfHold = false ∧ s.therm.restartCnt ≥ 10 ∧
      s.therm.noRestart = false) :=
  ⟨⟨{ live with therm.shutHit := true, sys.run.core := true }, by decide +kernel⟩,
    ⟨{ live with therm.shutStep := 1 }, by decide +kernel⟩,
    ⟨{ live with therm.shutStep := 4, pwr.pfVsup := none }, by decide +kernel⟩,
    ⟨{ live with therm.restartCnt := 10, pwr.state := .thermOff, pwr.pfHold := false, therm.noRestart := false },
      by decide +kernel⟩⟩

theorem witness_RecorderAdmits :
    (∃ (w : _) (rest : _) (u : _) (s : State), s.sys.run.recorder = true ∧ s.recd.produced = w :: rest ∧
      w.ev.code ≠ 0x0980 ∧ w.dig = false ∧ w.since = none ∧ rateLimit w s = some u ∧ roomFor u = true) ∧
    (∃ (w : Wait) (rest : _) (s : State), s.sys.run.recorder = true ∧ s.recd.produced = w :: rest ∧
      w.ev.code ≠ 0x0980 ∧ w.dig = false ∧ w.since = none ∧ rateLimit w s = none) ∧
    (∃ (w : _) (rest : _) (x : _) (s : State), s.recd.produced = w :: rest ∧ w.since = some x ∧ waitSev s w < 2 ∧
      exempt w = false ∧ s.time.tns - x ≥ 100000) ∧
    (∃ (q : BitVec 64) (r : _) (rest : _) (s : State), s.recd.staging = r :: rest ∧ r.seq = q.toNat ∧
      (∀ x ∈ rest, x.seq ≠ q.toNat) ∧ (∀ x ∈ rest, x.done = false)) ∧
    (∃ (q : BitVec 64) (s : State), (∀ r ∈ s.recd.staging.head?, r.seq ≠ q.toNat ∧ r.done = false)) ∧
    (∃ (s : State), s.sys.run.recorder = true ∧ s.time.tns / 10000000000 > s.recd.chaffAt / 10000000000) :=
  ⟨⟨{ ev := { code := 0x0381 } }, [], (rateLimit { ev := { code := 0x0381 } } waiting1).getD live, waiting1,
      by decide +kernel⟩,
    ⟨{ ev := { code := 0x0381 } }, [], { waiting1 with recd.tok := [(0x0381, some (0, 1000000000000000))] },
      by decide +kernel⟩,
    ⟨{ ev := { code := 0x0601 }, since := some 5 }, [], 5,
      { live with recd.produced := [{ ev := { code := 0x0601 }, since := some 5 }] }, by decide +kernel⟩,
    ⟨1, rec1, [], { live with recd.staging := [rec1] }, by decide +kernel⟩,
    ⟨1, live, by decide +kernel⟩,
    ⟨{ live with sys.run.recorder := true }, by decide +kernel⟩⟩

theorem witness_GranaryWorks_1 :
    (∃ (r : _) (b : _) (enter : _) (s : State), granTakes s = true ∧ nextProg s false = some r ∧
      progBlock s (regionOf s false) r = some (b, enter)) ∧
    (∃ (r : _) (b : _) (enter : _) (s : State), granTakes s = true ∧ nextProg s true = some r ∧
      progBlock s (regionOf s true) r = some (b, enter)) ∧
    (∃ (p : _) (r : _) (b : _) (enter : _) (s : State), granTakes s = true ∧ nextProg s p = some r ∧
      progBlock s (regionOf s p) r = some (b, enter)) ∧
    (∃ (p : _) (b : _) (s : State), granOn s = true ∧
      (aheadTwo (regionOf s p)).find? (fun b => !(blockOf (regionOf s p) b).erased) = some b) ∧
    (∃ (p : _) (b : _) (s : State), granOn s = true ∧
      (aheadTwo (regionOf s p)).find? (fun b => !(blockOf (regionOf s p) b).erased) = some b) ∧
    (∃ (x : _) (s : State), s.recd.gran.retryAt = some x ∧ s.sys.run.granary = true ∧ s.recd.gran.state = .notResp ∧
      s.time.tns ≥ x) :=
  ⟨⟨rec1, 0, false, gran1 rec1, by decide +kernel⟩,
    ⟨rec1, 0, true, gran1 rec1, by decide +kernel⟩,
    ⟨true, rec1, 0, true, gran1 rec1, by decide +kernel⟩,
    ⟨false, 1, gran1 rec1, by decide +kernel⟩,
    ⟨false, 1, gran1 rec1, by decide +kernel⟩,
    ⟨5, { live with recd.gran.state := .notResp, recd.gran.retryAt := some (5), sys.run.granary := true },
      by decide +kernel⟩⟩

theorem witness_GranaryWorks_2 :
    ∃ (x : _) (s : State), s.recd.gran.retryAt = some x ∧ s.sys.run.granary = true ∧ s.recd.gran.state = .notResp ∧
      s.time.tns ≥ x ∧ vflOk s = true :=
  ⟨5, { live with recd.gran.state := .notResp, recd.gran.retryAt := some (5), sys.run.granary := true },
      by decide +kernel⟩

theorem witness_PresenceAndSeal_1 :
    (∃ (s : State), s.pins.btn = false ∧ s.sys.run.trust = true ∧ s.sec.ignore = false) ∧
    (∃ (x : _) (s : State), s.pins.btn = true ∧ s.sys.run.trust = true ∧ s.sec.pressAt = some x ∧
      500000000 ≤ s.time.tns - x ∧ s.time.tns - x ≤ 5000000000) ∧
    (∃ (x : _) (s : State), s.pins.btn = true ∧ s.sys.run.trust = true ∧ s.sec.pressAt = some x ∧
      (s.time.tns - x < 500000000 ∨ s.time.tns - x > 5000000000)) ∧
    (∃ (x : _) (s : State), s.sec.pressAt = some x ∧ s.sys.run.trust = true ∧ s.time.tns > x + 10000000000) ∧
    (∃ (x : _) (s : State), s.sec.relAt = some x ∧ s.sys.run.trust = true ∧ s.sec.ignore = true ∧ s.pins.btn = false ∧
      s.time.tns ≥ x + 1000000000) ∧
    (∃ (e : _) (s : State), s.sys.run.trust = true ∧ s.sec.btn = some e ∧ e ≤ s.time.tns) :=
  ⟨⟨{ live with pins.btn := false, sys.run.trust := true, sec.ignore := false }, by decide +kernel⟩,
    ⟨999999500000000, { live with pins.btn := true, sys.run.trust := true, sec.pressAt := some (999999500000000) },
      by decide +kernel⟩,
    ⟨5, { live with pins.btn := true, sys.run.trust := true, sec.pressAt := some (5) }, by decide +kernel⟩,
    ⟨5, { live with sec.pressAt := some (5), sys.run.trust := true }, by decide +kernel⟩,
    ⟨5, { live with sec.ignore := true, sec.relAt := some (5), sys.run.trust := true, pins.btn := false },
      by decide +kernel⟩,
    ⟨1000000000000000, { live with sys.run.trust := true, sec.btn := some (1000000000000000) }, by decide +kernel⟩⟩

theorem witness_PresenceAndSeal_2 :
    (∃ (e : _) (s : State), s.sys.run.trust = true ∧ s.sec.strap = some e ∧ e ≤ s.time.tns) ∧
    (∃ (s : State), s.sys.run.trust = true ∧ s.sec.sealOpen = false) ∧
    (∃ (s : State), s.sys.run.trust = true ∧ s.sec.sealOpen = true) :=
  ⟨⟨1000000000000000, { live with sys.run.trust := true, sec.strap := some (1000000000000000) }, by decide +kernel⟩,
    ⟨{ live with sys.run.trust := true, sec.sealOpen := false }, by decide +kernel⟩,
    ⟨{ live with sys.run.trust := true, sec.sealOpen := true }, by decide +kernel⟩⟩

theorem witness_SelfTests_1 :
    (∃ (s : State), s.bist.state = .running ∧ s.bist.last ≠ 3 ∧ s.bist.last ≠ 4 ∧
      s.bist.done + bistSteps s.bist.last < s.bist.total) ∧
    (∃ (s : State), s.bist.state = .running ∧ s.bist.last ≠ 3 ∧ s.bist.last ≠ 4 ∧
      s.bist.done + bistSteps s.bist.last = s.bist.total ∧ s.bist.fail = false) ∧
    (∃ (s : State), s.bist.state = .running ∧ s.bist.last ≠ 3 ∧ s.bist.last ≠ 4 ∧ s.bist.fail = false ∧
      s.bist.done + bistSteps s.bist.last = s.bist.total) ∧
    (∃ (mv : _) (ppm : Int) (s : State), bistCond mv ppm s = false ∧ s.bist.state = .running) ∧
    (∃ (s : State), s.bist.state = .aborting ∧ s.bist.total > 0 ∧ s.pwr.waitReq = []) ∧
    (∃ (mv : _) (ppm : Int) (s : State), s.sys.run.bist = true ∧ s.bist.period ≠ 0 ∧ bistBusy s = false ∧
      s.time.tns - s.bist.bgAt ≥ s.bist.period * 1000000000 ∧ bistCond mv ppm s = true) :=
  ⟨⟨{ live with bist.state := .running, bist.total := 20 }, by decide +kernel⟩,
    ⟨{ live with bist.state := .running, bist.total := 10, bist.fail := false }, by decide +kernel⟩,
    ⟨{ live with bist.state := .running, bist.total := 10, bist.fail := false }, by decide +kernel⟩,
    ⟨779, 0, { live with bist.state := .running }, by decide +kernel⟩,
    ⟨{ live with bist.state := .aborting, bist.total := 10, pwr.waitReq := [] }, by decide +kernel⟩,
    ⟨780, 10000, { live with bist.period := 3600, sys.run.bist := true }, by decide +kernel⟩⟩

theorem witness_SelfTests_2 :
    ∃ (mv : _) (ppm : Int) (s : State), s.sys.run.bist = true ∧ s.bist.period ≠ 0 ∧ bistBusy s = false ∧
      s.time.tns - s.bist.bgAt ≥ s.bist.period * 1000000000 ∧ bistCond mv ppm s = false :=
  ⟨779, 10000, { live with bist.period := 3600, sys.run.bist := true }, by decide +kernel⟩

theorem witness_StewardHandles :
    (∃ (e : ErrEnt) (s : State), s.sys.run.steward = true ∧ s.evt.handling.length ≤ 1 ∧ bestEnt s.evt.queue = some e ∧
      e.sev > 0) ∧
    (∃ (e : ErrEnt) (h : ErrEnt) (rest : _) (s : State), s.sys.run.steward = true ∧ s.evt.handling = h :: rest ∧
      bestEnt s.evt.queue = some e ∧ e.sev > h.sev) ∧
    (∃ (e : ErrEnt) (h : ErrEnt) (rest : _) (s : State), s.sys.run.steward = true ∧ s.evt.handling = h :: rest ∧
      bestEnt s.evt.queue = some e ∧ e.sev ≤ h.sev) ∧
    (∃ (l : _) (e : _), bestEnt l = some e) ∧
    (∃ (s : State), s.sys.run.steward = true) :=
  ⟨⟨{ code := 5, sev := 2, src := 0, tns := 0 },
      { live with evt.queue := [{ code := 5, sev := 2, src := 0, tns := 0 }], sys.run.steward := true },
      by decide +kernel⟩,
    ⟨{ code := 5, sev := 3, src := 0, tns := 0 }, { code := 4, sev := 2, src := 0, tns := 0 }, [],
      { live with evt.queue := [{ code := 5, sev := 3, src := 0, tns := 0 }], sys.run.steward := true, evt.handling := ({ code := 4, sev := 2, src := 0, tns := 0 }) :: ([]) },
      by decide +kernel⟩,
    ⟨{ code := 5, sev := 2, src := 0, tns := 0 }, { code := 4, sev := 2, src := 0, tns := 0 }, [],
      { live with evt.queue := [{ code := 5, sev := 2, src := 0, tns := 0 }], sys.run.steward := true, evt.handling := ({ code := 4, sev := 2, src := 0, tns := 0 }) :: ([]) },
      by decide +kernel⟩,
    ⟨[{ code := 5, sev := 2, src := 0, tns := 0 }], { code := 5, sev := 2, src := 0, tns := 0 }, by decide +kernel⟩,
    ⟨{ live with sys.run.steward := true }, by decide +kernel⟩⟩

theorem witness_ImageUploads_1 :
    (∃ (h : ReqHdr) (off : _) (data : List Byte) (s : State), freshReq 0x09 h s = true ∧ commitBusy s = false ∧
      off % 4 = 0 ∧ data.length % 4 = 0 ∧ off + data.length ≤ 2097152) ∧
    (∃ (h : ReqHdr) (s : State), freshReq 0x09 h s = true ∧ commitBusy s = true) ∧
    (∃ (h : ReqHdr) (s : State), freshReq 0x0A h s = true ∧ commitBusy s = false ∧ s.img.state ≠ .activating ∧
      s.img.coldStep = 0) ∧
    (∃ (c : Commit) (f : ImgFail) (s : State), s.img.commit = some c ∧ s.img.state = .validating ∧
      imgCheck s (stageBytes (min c.len 2097152) 0 s.img.stage) c.len = some f) ∧
    (∃ (c : Commit) (b : _) (s : State), s.img.commit = some c ∧ s.img.state = .validating ∧
      b = stageBytes (min c.len 2097152) 0 s.img.stage ∧ imgCheck s b c.len = none ∧ needsPresence s c b = true ∧
      c.presence = false) ∧
    (∃ (c : Commit) (b : _) (s : State), s.img.commit = some c ∧ s.img.state = .validating ∧
      b = stageBytes (min c.len 2097152) 0 s.img.stage ∧ imgCheck s b c.len = none ∧
      (needsPresence s c b = true → c.presence = true) ∧ s.img.pending = .none) :=
  ⟨⟨hd, 2097148, [1, 2, 3, 4], live, by decide +kernel⟩,
    ⟨hd, { live with img.commit := some { port := .spi, tag := 1, len := 0, presence := true } }, by decide +kernel⟩,
    ⟨hd, { live with img.coldStep := 0 }, by decide +kernel⟩,
    ⟨{ port := .spi, tag := 1, len := 0, presence := true }, { err := 1, sect := 0, loc := 0 },
      { live with img.commit := some ({ port := .spi, tag := 1, len := 0, presence := true }), img.state := .validating },
      by decide +kernel⟩,
    ⟨((staged false).img.commit.getD { port := .spi, tag := 1, len := 0, presence := false }),
      stageBytes 1020 0 (staged false).img.stage, staged false, by decide +kernel⟩,
    ⟨((staged true).img.commit.getD { port := .spi, tag := 1, len := 0, presence := false }),
      stageBytes 1020 0 (staged true).img.stage, staged true, by decide +kernel⟩⟩

theorem witness_ImageUploads_2 :
    (∃ (c : Commit) (s : State), s.img.commit = some c ∧ s.img.state = .writing) ∧
    (∃ (c : Commit) (s : State), s.img.commit = some c ∧ s.img.state = .writing) :=
  ⟨⟨{ port := .spi, tag := 1, len := 0, presence := true },
      { live with img.commit := some ({ port := .spi, tag := 1, len := 0, presence := true }), img.state := .writing },
      by decide +kernel⟩,
    ⟨{ port := .spi, tag := 1, len := 0, presence := true },
      { live with img.commit := some ({ port := .spi, tag := 1, len := 0, presence := true }), img.state := .writing },
      by decide +kernel⟩⟩

theorem witness_ImageActivates_1 :
    (∃ (a : Word) (s : State), s.img.hotAt = some a ∧ s.img.pending = .hot ∧ frmLe a s.time.frm = true ∧
      atBoundary s = true) ∧
    (∃ (s : State), s.img.pending = .cold ∧ s.img.coldStep = 0 ∧ commitBusy s = false ∧ atBoundary s = true ∧
      allOpen s = true ∧ noSeqBusy s = true) ∧
    (∃ (s : State), coldAt 1 s = true) ∧
    (∃ (s : State), coldAt 1 s = true ∧ s.img.coldBack = false) ∧
    (∃ (s : State), coldAt 2 s = true ∧ coldTopo s = false) ∧
    (∃ (s : State), coldAt 2 s = true ∧ coldTopo s = true) :=
  ⟨⟨0, { live with sys.frameOpen := true, sys.t0 := 1000000000000000, img.hotAt := some (0), img.pending := .hot },
      by decide +kernel⟩,
    ⟨{ live with sys.frameOpen := true, sys.t0 := 1000000000000000, img.pending := .cold, img.coldStep := 0 },
      by decide +kernel⟩,
    ⟨{ live with img.coldStep := 1 }, by decide +kernel⟩,
    ⟨{ live with img.coldStep := 1, img.coldBack := false }, by decide +kernel⟩,
    ⟨{ live with img.coldStep := 2, cfg := sproutCfg live, img.coldBack := true }, by decide +kernel⟩,
    ⟨{ live with img.coldStep := 2, img.topoNext := some topo }, by decide +kernel⟩⟩

theorem witness_ImageActivates_2 :
    (∃ (s : State), coldAt 3 s = true ∧ ringsSettled s = true) ∧
    (∃ (s : State), coldAt 4 s = true) :=
  ⟨⟨{ live with img.coldStep := 3 }, by decide +kernel⟩,
    ⟨{ live with img.coldStep := 4 }, by decide +kernel⟩⟩

theorem witness_StartsUp_1 :
    (∃ (v : _) (s : State), v ≥ 5600 ∧ s.pwr.state = .off) ∧
    (∃ (s : State), s.sys.step = 1 ∧ s.sys.run.buck = true) ∧
    (∃ (s : State), s.sys.step = 2 ∧ s.pwr.state = .run ∧ s.sys.run.core = false ∧ s.pwr.pg.getLsbD 0 = true ∧
      s.therm.preHot = false ∧ s.sys.run.drivers = true ∧ s.pwr.coreAt = none) ∧
    (∃ (s : State), 3 ≤ s.sys.step ∧ s.sys.strapped = false) ∧
    (∃ (c0 : BitVec 2) (c1 : BitVec 2) (c2 : BitVec 2) (s : State), 3 ≤ s.sys.step ∧ s.sys.strapped = false ∧
      (c0 ≠ c1 ∨ c1 ≠ c2)) ∧
    (∃ (s : State), 3 ≤ s.sys.step ∧ s.sys.strapped = true ∧ s.img.selected = false) :=
  ⟨⟨5600, { live with pwr.state := .off }, by decide +kernel⟩,
    ⟨{ live with sys.step := 1, sys.run.buck := true }, by decide +kernel⟩,
    ⟨{ live with sys.step := 2, sys.run.core := false, pwr.state := .run, therm.preHot := false, sys.run.drivers := true, pwr.coreAt := none },
      by decide +kernel⟩,
    ⟨{ live with sys.step := 3, sys.strapped := false }, by decide +kernel⟩,
    ⟨0, 0, 1, { live with sys.step := 3, sys.strapped := false }, by decide +kernel⟩,
    ⟨{ live with sys.step := 3, sys.strapped := true, img.selected := false }, by decide +kernel⟩⟩

theorem witness_StartsUp_2 :
    (∃ (s : State), s.sys.run.core = true ∧ s.img.selected = true ∧ s.sys.run.timebase = false ∧
      s.time.trefBad = false ∧ ringsSettled s = true) ∧
    (∃ (s : State), s.sys.run.core = true ∧ 3 ≤ s.sys.step ∧ s.sys.run.steward = false ∧ s.evt.stewHeld = false) ∧
    (∃ (s : State), stepDone5 s = true ∧ s.sys.run.steward = true ∧ s.sys.step < 7) ∧
    (∃ (s : State), s.sys.step = 7 ∧ s.sys.run.steward = true) ∧
    (∃ (k : _) (s : State), 2 ≤ k ∧ k ≤ 8 ∧ 1 ≤ s.sys.step ∧ s.sys.lateStep = 0 ∧ stepDone s k = false ∧
      bootNs s ≥ stepBound k) ∧
    (∃ (s : State), sproutRuns s = true ∧ mayTalk s .can = true ∧ s.host.statAt = none) :=
  ⟨⟨{ live with sys.run.timebase := false, sys.run.core := true, img.selected := true, time.trefBad := false },
      by decide +kernel⟩,
    ⟨{ live with sys.run.steward := false, sys.step := 3, sys.run.core := true, evt.stewHeld := false },
      by decide +kernel⟩,
    ⟨{ live with sys.step := 6, sys.run.steward := true }, by decide +kernel⟩,
    ⟨{ live with sys.step := 7, sys.run.steward := true }, by decide +kernel⟩,
    ⟨8, { live with sys.step := 7, sys.lateStep := 0 }, by decide +kernel⟩,
    ⟨{ live with host.statAt := none }, by decide +kernel⟩⟩

theorem witness_PowerFails_1 :
    (∃ (a : _) (ns : _) (s : State), s.sys.run.wake = true ∧ a ≠ s.pwr.chg ∧ ns ≥ 50000000) ∧
    (∃ (v : _) (s : State), v < 5000 ∧ s.pwr.state ≠ .off) ∧
    (∃ (v : _) (s : State), s.sys.run.core = true ∧ s.pwr.armed = false ∧ v ≥ pfwMv s.nv.keys.pfwLevel + 1000) ∧
    (∃ (v : _) (fell : _) (s : State), v < pfwMv s.pwr.pfw ∧ (fell = true ∨ s.pwr.pfw ≠ 0) ∧ shutMay s = true ∧
      s.sys.run.core = true) ∧
    (∃ (s : State), s.pwr.pfw = 0) ∧
    (∃ (v : _) (s : State), v > 61000 ∧ shutMay s = true ∧ s.sys.run.core = true) :=
  ⟨⟨true, 50000000, { live with sys.run.wake := true }, by decide +kernel⟩,
    ⟨4999, live, by decide +kernel⟩,
    ⟨6800, { live with sys.run.core := true, pwr.armed := false }, by decide +kernel⟩,
    ⟨5799, true, { live with pwr.pfw := 0, sys.run.core := true }, by decide +kernel⟩,
    ⟨{ live with pwr.pfw := 0 }, by decide +kernel⟩,
    ⟨61001, { live with sys.run.core := true }, by decide +kernel⟩⟩

theorem witness_PowerFails_2 :
    (∃ (mv : _) (s : State), railOn s 0 = true ∧ railOut s 0 mv = true ∧ shutMay s = true) ∧
    (∃ (mv : _) (s : State), railOn s 1 = true ∧ railOut s 1 mv = true ∧ shutMay s = true) ∧
    (∃ (r : _) (mv : _) (s : State), (r = 3 ∨ r = 4) ∧ railOn s r = true ∧ railOut s r mv = true ∧ shutMay s = true) ∧
    (∃ (r : _) (mv : _) (s : State), (r = 0 ∨ r = 2) ∧ railOn s r = false ∧ railOut s r mv = false ∧ shutMay s = true ∧
      s.sys.run.buck = true) ∧
    (∃ (r : _) (mv : _) (s : State), (r = 3 ∨ r = 4) ∧ railOn s r = false ∧ railOut s r mv = false ∧ shutMay s = true ∧
      s.sys.run.buck = true) ∧
    (∃ (x : _) (s : State), s.pwr.coreAt = some x ∧ s.time.tns ≥ x + 100000000) :=
  ⟨⟨3200, live, by decide +kernel⟩,
    ⟨825, { live with pwr.vcore := 2 }, by decide +kernel⟩,
    ⟨4, 1855, live, by decide +kernel⟩,
    ⟨0, 3399, { live with pwr.pg := 30, sys.run.buck := true }, by decide +kernel⟩,
    ⟨4, 1854, { live with pwr.pg := 0, sys.run.buck := true }, by decide +kernel⟩,
    ⟨5, { live with pwr.coreAt := some (5) }, by decide +kernel⟩⟩

theorem witness_PowerFails_3 :
    ∃ (s : State), s.pwr.vcore = 3 ∧ s.pwr.loose ≥ 1000 ∧ s.pwr.force = 0 :=
  ⟨{ live with pwr.loose := 1000, pwr.vcore := 3, pwr.force := 0 }, by decide +kernel⟩

theorem witness_SleepPasses_1 :
    (∃ (x : _) (s : State), s.pwr.idleAt = some x ∧ s.pwr.autoSleep ≠ 0 ∧
      s.time.tns ≥ max x s.host.reqAt + s.pwr.autoSleep * 60000000000 ∧ sleepOk s = true ∧ bistBusy s = false) ∧
    (∃ (s : State), s.pwr.state = .sleepEntry ∧ s.pwr.step = 1 ∧ (atBoundary s = true ∨ s.sys.run.acq = false) ∧
      s.pwr.wakeLate = none) ∧
    (∃ (s : State), s.pwr.state = .sleepEntry ∧ s.pwr.step = 2 ∧ nvIdle s = true ∧ s.pwr.wakeLate = none) ∧
    (∃ (s : State), s.pwr.state = .sleepEntry ∧ s.pwr.step = 3 ∧ recIdle s = true ∧ s.pwr.wakeLate = none) ∧
    (∃ (c : _) (s : State), s.pwr.state = .sleepEntry ∧ s.pwr.step = 3 ∧ recIdle s = true ∧ s.pwr.wakeLate = some c) ∧
    (∃ (c : _) (s : State), wakeSrc c s = true ∧ s.pwr.state = .sleep) :=
  ⟨⟨5, { live with pwr.autoSleep := 1, pwr.idleAt := some (5) }, by decide +kernel⟩,
    ⟨{ live with sys.run.acq := false, pwr.state := .sleepEntry, pwr.step := 1, pwr.wakeLate := none },
      by decide +kernel⟩,
    ⟨{ live with pwr.state := .sleepEntry, pwr.step := 2, pwr.wakeLate := none }, by decide +kernel⟩,
    ⟨{ live with pwr.state := .sleepEntry, pwr.step := 3, pwr.wakeLate := none }, by decide +kernel⟩,
    ⟨2, { live with pwr.state := .sleepEntry, pwr.step := 3, pwr.wakeLate := some (2) }, by decide +kernel⟩,
    ⟨2, { live with drv.key := true, pwr.state := .sleep }, by decide +kernel⟩⟩

theorem witness_SleepPasses_2 :
    (∃ (c : _) (s : State), wakeSrc c s = true ∧ s.pwr.state = .sleepEntry ∧ s.pwr.wakeLate = none) ∧
    (∃ (s : State), s.pwr.state = .waking ∧ s.pwr.step = 1) ∧
    (∃ (s : State), (s.pwr.state = .waking ∨ s.pwr.state = .leaving) ∧ s.pwr.step = 2) ∧
    (∃ (s : State), (s.pwr.state = .waking ∨ s.pwr.state = .leaving) ∧ s.pwr.step = 4 ∧ s.pwr.wakeDone = 3) ∧
    (∃ (s : State), (s.pwr.state = .waking ∨ s.pwr.state = .leaving) ∧ s.pwr.step = 5) ∧
    (∃ (x : _) (s : State), s.pwr.wakeOutEnd = some x ∧ s.time.tns ≥ x) :=
  ⟨⟨8, { live with sec.sealOpen := true, pwr.state := .sleepEntry, pwr.wakeLate := none }, by decide +kernel⟩,
    ⟨{ live with pwr.state := .waking, pwr.step := 1 }, by decide +kernel⟩,
    ⟨{ live with pwr.state := .leaving, pwr.step := 2 }, by decide +kernel⟩,
    ⟨{ live with pwr.state := .waking, pwr.step := 4, pwr.wakeDone := 3 }, by decide +kernel⟩,
    ⟨{ live with pwr.state := .waking, pwr.step := 5 }, by decide +kernel⟩,
    ⟨5, { live with pwr.wakeOutEnd := some (5) }, by decide +kernel⟩⟩

theorem witness_SleepPasses_3 :
    (∃ (s : State), patrolMay s = true ∧ s.time.tns ≥ s.acq.patrolAt + s.cfg.acq.patrol * 1000000000) ∧
    (∃ (s : State), patrolMay s = true ∧ s.acq.recheck = true ∧ s.time.tns ≥ s.acq.recheckAt + 1000000000) ∧
    (∃ (xs : List SumSlot) (s : State), s.acq.recheck = false ∧ (∀ x ∈ xs, patrolBits s x = 0)) ∧
    (∃ (s : State), patrolMay s = true ∧ s.pwr.state = .sleep ∧
      s.time.tns ≥ s.acq.patrolAt + s.cfg.acq.patrol * 1000000000 ∧ patrolRings s = []) ∧
    (∃ (r : _) (s : State), patrolMay s = true ∧ s.time.tns ≥ s.acq.patrolAt + s.cfg.acq.patrol * 1000000000 ∧
      r ∈ patrolRings s ∧ s.pwr.state = .sleep) ∧
    (∃ (s : State), patrolMay s = true ∧ s.acq.recheck = true ∧ s.time.tns ≥ s.acq.recheckAt + 1000000000 ∧
      patrolRings s = []) :=
  ⟨⟨{ live with pwr.state := .sleep }, by decide +kernel⟩,
    ⟨{ live with pwr.state := .sleep, acq.recheck := true }, by decide +kernel⟩,
    ⟨[], { live with acq.recheck := false }, by decide +kernel⟩,
    ⟨{ live with cfg.topo := {}, pwr.state := .sleep }, by decide +kernel⟩,
    ⟨0, { live with pwr.state := .sleep }, by decide +kernel⟩,
    ⟨{ live with cfg.topo := {}, pwr.state := .sleep, acq.recheck := true }, by decide +kernel⟩⟩

theorem witness_ShipEntryExit_1 :
    (∃ (s : State), s.pwr.state = .shipEntry ∧ s.pwr.step = 1 ∧ allOpen s = true ∧ commitBusy s = false) ∧
    (∃ (s : State), s.pwr.state = .shipEntry ∧ s.pwr.step = 2 ∧ shipSaved s = true) ∧
    (∃ (s : State), s.pwr.state = .shipEntry ∧ s.pwr.step = 3 ∧ recIdle s = true) ∧
    (∃ (ns : _) (s : State), s.pwr.state = .ship ∧ ns ≥ 1000000000) ∧
    (∃ (ns : _) (s : State), s.pwr.state = .ship ∧ ns ≥ 50000000) ∧
    (∃ (ns : _) (s : State), s.pwr.state = .ship ∧ s.pwr.armBtn = true ∧ ns ≥ 10000000000) :=
  ⟨⟨{ live with pwr.state := .shipEntry, pwr.step := 1 }, by decide +kernel⟩,
    ⟨{ live with pwr.state := .shipEntry, pwr.step := 2 }, by decide +kernel⟩,
    ⟨{ live with pwr.state := .shipEntry, pwr.step := 3 }, by decide +kernel⟩,
    ⟨1000000000, { live with pwr.state := .ship }, by decide +kernel⟩,
    ⟨50000000, { live with pwr.state := .ship }, by decide +kernel⟩,
    ⟨10000000000, { live with pwr.state := .ship, pwr.armBtn := true }, by decide +kernel⟩⟩

theorem witness_ShipEntryExit_2 :
    ∃ (ns : _) (s : State), s.pwr.state = .ship ∧ s.pwr.armChg = true ∧ ns ≥ 50000000 :=
  ⟨50000000, { live with pwr.state := .ship, pwr.armChg := true }, by decide +kernel⟩

theorem witness_HostReads_1 :
    (∃ (h : ReqHdr) (a : BitVec 32) (n : BitVec 16) (s : State), freshReq 1 h s = true ∧ n ≠ 0 ∧
      n.toNat ≤ maxWords h.port ∧ rangeOk a.toNat n.toNat = true) ∧
    (∃ (h : ReqHdr) (s : State), freshReq 1 h s = true) ∧
    (∃ (h : ReqHdr) (a : BitVec 32) (n : BitVec 16) (s : State), freshReq 1 h s = true ∧ n ≠ 0 ∧
      n.toNat ≤ maxWords h.port ∧ rangeOk a.toNat n.toNat = false) ∧
    (∃ (h : ReqHdr) (s : State), freshReq 1 h s = true) ∧
    (∃ (h : ReqHdr) (s : State), freshReq 1 h s = true) ∧
    (∃ (h : ReqHdr) (s : State), freshReq 1 h s = true) :=
  ⟨⟨hd, 0x16C00, 256, live, by decide +kernel⟩,
    ⟨hd, live, by decide +kernel⟩,
    ⟨hd, 0x16FFC, 2, live, by decide +kernel⟩,
    ⟨hd, live, by decide +kernel⟩,
    ⟨hd, live, by decide +kernel⟩,
    ⟨hd, live, by decide +kernel⟩⟩

theorem witness_HostReads_2 :
    ∃ (h : ReqHdr) (s : State), freshReq 1 h s = true :=
  ⟨hd, live, by decide +kernel⟩

theorem witness_HostWrites_1 :
    (∃ (h : ReqHdr) (a : BitVec 32) (n : BitVec 16) (ws : List Word) (m : WrMeas) (s : State), freshReq 2 h s = true ∧
      n ≠ 0 ∧ n.toNat ≤ maxWords h.port ∧ ws.length = n.toNat ∧ rangeOk a.toNat n.toNat = true ∧ a.toNat < 0x17000 ∧
      (addrWords a.toNat ws).any (fun e => reaches h.port e.2.1 e.2.2 (reqStart 2 h s)) = false ∧
      firstRefusal (wrReq h false m) (addrWords a.toNat ws) (reqStart 2 h s) = none) ∧
    (∃ (h : ReqHdr) (a : BitVec 32) (n : BitVec 16) (ws : List Word) (m : WrMeas) (s : State), freshReq 3 h s = true ∧
      presOpen s = true ∧ n ≠ 0 ∧ n.toNat ≤ maxWords h.port ∧ ws.length = n.toNat ∧ rangeOk a.toNat n.toNat = true ∧
      a.toNat < 0x17000 ∧ firstRefusal (wrReq h true m) (addrWords a.toNat ws) (reqStart 3 h s) = none) ∧
    (∃ (h : ReqHdr) (a : BitVec 32) (n : BitVec 16) (ws : List Word) (s : State), freshReq 3 h s = true ∧
      presOpen s = false ∧ n ≠ 0 ∧ n.toNat ≤ maxWords h.port ∧ ws.length = n.toNat ∧ rangeOk a.toNat n.toNat = true ∧
      a.toNat < 0x17000) ∧
    (∃ (h : ReqHdr) (a : BitVec 32) (n : BitVec 16) (ws : List Word) (s : State), freshReq 2 h s = true ∧ n ≠ 0 ∧
      n.toNat ≤ maxWords h.port ∧ ws.length = n.toNat ∧ rangeOk a.toNat n.toNat = true ∧ a.toNat < 0x17000 ∧
      (addrWords a.toNat ws).any (fun e => reaches h.port e.2.1 e.2.2 (reqStart 2 h s)) = true) ∧
    (∃ (h : ReqHdr) (a : BitVec 32) (n : BitVec 16) (ws : List Word) (m : WrMeas) (s : State) (st : _) (b : _) (v : _),
      freshReq 2 h s = true ∧ n ≠ 0 ∧ n.toNat ≤ maxWords h.port ∧ ws.length = n.toNat ∧ rangeOk a.toNat n.toNat = true ∧
      a.toNat < 0x17000 ∧ (addrWords a.toNat ws).any (fun e => reaches h.port e.2.1 e.2.2 (reqStart 2 h s)) = false ∧
      firstRefusal (wrReq h false m) (addrWords a.toNat ws) (reqStart 2 h s) = some (st, b, v)) ∧
    (∃ (h : ReqHdr) (a : BitVec 32) (n : BitVec 16) (ws : List Word) (m : WrMeas) (s : State) (st : _) (b : _) (v : _),
      freshReq 3 h s = true ∧ presOpen s = true ∧ n ≠ 0 ∧ n.toNat ≤ maxWords h.port ∧ ws.length = n.toNat ∧
      rangeOk a.toNat n.toNat = true ∧ a.toNat < 0x17000 ∧
      firstRefusal (wrReq h true m) (addrWords a.toNat ws) (reqStart 3 h s) = some (st, b, v)) :=
  ⟨⟨hd, 0x00044, 1, [5], ms, live, by decide +kernel⟩,
    ⟨hd, 0x09044, 1, [500000], ms, live, by decide +kernel⟩,
    ⟨hd, 0x09044, 1, [500000], { live with sec.btn := none }, by decide +kernel⟩,
    ⟨hd, 0x14008, 1, [1], live, by decide +kernel⟩,
    ⟨hd, 0x15004, 1, [0x00060000], ms, live, 2, 0x15004, 0x00060000, by decide +kernel⟩,
    ⟨hd, 0x00040, 1, [0x0F000000], ms, live, 2, 0x40, 0x0F000000, by decide +kernel⟩⟩

theorem witness_HostWrites_2 :
    (∃ (h : ReqHdr) (a : BitVec 32) (n : BitVec 16) (ws : List Word) (s : State), freshReq 2 h s = true ∧ n ≠ 0 ∧
      n.toNat ≤ maxWords h.port ∧ ws.length = n.toNat ∧ rangeOk a.toNat n.toNat = true ∧ 0x17000 ≤ a.toNat) ∧
    (∃ (h : ReqHdr) (op : BitVec 8) (s : State), freshReq op.toNat h s = true ∧ unknownOp h.port op = true) :=
  ⟨⟨hd, 0x100000, 1, [5], live, by decide +kernel⟩,
    ⟨hd, 0x0F, live, by decide +kernel⟩⟩

theorem witness_RequestRepeats :
    (∃ (op : _) (h : ReqHdr) (s : State), addressed h s = true ∧ h.seg = 0 ∧ h.more = false ∧
      executing op h.port h.tag (reqSeen op h s) = true) ∧
    (∃ (op : _) (h : ReqHdr) (m : _) (s : State), addressed h s = true ∧ h.seg = 0 ∧ h.more = false ∧
      executing op h.port h.tag (reqSeen op h s) = false ∧ keptAnswer op h.port h.tag (reqSeen op h s) = some m) ∧
    (∃ (op : _) (h : ReqHdr) (s : State), addressed h s = true ∧ h.seg = 0 ∧ h.more = false ∧
      executing op h.port h.tag (reqSeen op h s) = false ∧ keptAnswer op h.port h.tag (reqSeen op h s) = none ∧
      unanswered h.port (reqSeen op h s) ≥ 16) ∧
    (∃ (h : ReqHdr) (s : State), addressed h s = false) :=
  ⟨⟨10, hd, { live with img.commit := some { port := .spi, tag := 1, len := 0, presence := true } },
      by decide +kernel⟩,
    ⟨1, hd, { cls := 0, op := 1 },
      { live with host.ports := [(2, { kept := [{ op := 1, tag := 1, at0 := 999998000000000, msg := { cls := 0, op := 1 } }] })] },
      by decide +kernel⟩,
    ⟨1, hd, { live with bist.waitAbort := List.replicate 16 (2, .spi, 7) }, by decide +kernel⟩,
    ⟨{ hd with link := .eth (ownMac live) 5 0x88B6 true, snid := 5 }, live, by decide +kernel⟩⟩

theorem witness_StreamsRun_1 :
    (∃ (h : ReqHdr) (stype : Byte) (sid : Byte) (period : BitVec 16) (ps : List Byte) (s : State) (k : _),
      freshReq 4 h s = true ∧ stype ≠ 0 ∧ streamChk h.port stype.toNat period.toNat ps (reqStart 4 h s) = 0 ∧
      freeSlot s = some k ∧
      portLoad s h.port + streamLoad s { port := h.port, stype := stype.toNat, sid := sid.toNat, period := period.toNat, first := fld ps 0 2, count := fld ps 2 2 } ≤ portLimit s h.port) ∧
    (∃ (h : ReqHdr) (stype : Byte) (period : BitVec 16) (ps : List Byte) (s : State), freshReq 4 h s = true ∧
      stype ≠ 0 ∧ streamChk h.port stype.toNat period.toNat ps (reqStart 4 h s) = 0 ∧ freeSlot s = none) ∧
    (∃ (h : ReqHdr) (stype : Byte) (sid : Byte) (period : BitVec 16) (ps : List Byte) (s : State) (k : _),
      freshReq 4 h s = true ∧ stype ≠ 0 ∧ streamChk h.port stype.toNat period.toNat ps (reqStart 4 h s) = 0 ∧
      freeSlot s = some k ∧
      portLimit s h.port < portLoad s h.port + streamLoad s { port := h.port, stype := stype.toNat, sid := sid.toNat, period := period.toNat, first := fld ps 0 2, count := fld ps 2 2 }) ∧
    (∃ (h : ReqHdr) (s : State), freshReq 4 h s = true) ∧
    (∃ (k : Fin 8) (x : Stream) (t : _) (s : State), Tab.get none s.host.str k.val = some x ∧ s.sys.commitAt = some t ∧
      x.stype ≠ 3 ∧ t ≥ x.nextAt ∧ 0 < x.period) ∧
    (∃ (k : Fin 8) (x : Stream) (b : _) (rest : _) (s : State), Tab.get none s.host.str k.val = some x ∧ x.stype ≠ 3 ∧
      mayTalk s x.port = true ∧ x.parts = b :: rest) :=
  ⟨⟨hd, 1, 255, 1000, [], live, 0, by decide +kernel⟩,
    ⟨hd, 3, 0, List.replicate 12 0,
      { live with host.str := (List.range 8).map fun k => (k, some { port := .t1s, stype := 1, sid := k }) },
      by decide +kernel⟩,
    ⟨{ hd with link := .eth (ownMac live) 5 0x88B6 true }, 2, 255, 10, [0, 0, 4, 0], { live with host.budT1s := 1 },
      0, by decide +kernel⟩,
    ⟨hd, live, by decide +kernel⟩,
    ⟨7, { port := .spi, stype := 1, sid := 0, period := 10 }, 5,
      { live with host.str := [(7, some { port := .spi, stype := 1, sid := 0, period := 10 })], sys.commitAt := some (5) },
      by decide +kernel⟩,
    ⟨7, { port := .spi, stype := 1, sid := 0, period := 10, parts := [[1]] }, [1], [],
      { live with host.str := [(7, some { port := .spi, stype := 1, sid := 0, period := 10, parts := [[1]] })] },
      by decide +kernel⟩⟩

theorem witness_StreamsRun_2 :
    ∃ (k : Fin 8) (x : Stream) (s : State), Tab.get none s.host.str k.val = some x ∧ x.stype = 3 ∧
      mayTalk s x.port = true :=
  ⟨7, { port := .spi, stype := 3, sid := 0 },
      { live with host.str := [(7, some { port := .spi, stype := 3, sid := 0 })] }, by decide +kernel⟩

theorem witness_ChallengesAnswer :
    (∃ (h : ReqHdr) (b : List Byte) (s : State), freshReq 0x0B h s = true ∧ b.length = 8 ∧ s.nv.keys.ledger.val ≠ []) ∧
    (∃ (h : ReqHdr) (b : List Byte) (s : State), freshReq 0x0B h s = true ∧ b.length = 8 ∧ s.nv.keys.ledger.val = []) ∧
    (∃ (h : ReqHdr) (b : List Byte) (s : State), freshReq 0x0B h s = true ∧ b.length ≠ 8) ∧
    (∃ (h : ReqHdr) (k : BitVec 8) (s : State), freshReq 0x0B h s = true ∧ k ≠ 1 ∧ k ≠ 0x10) ∧
    (∃ (h : ReqHdr) (b : List Byte) (s : State), freshReq 0x0B h s = true ∧ b.length = 40 ∧ keyChk s b = 0) ∧
    (∃ (h : ReqHdr) (b : List Byte) (s : State), freshReq 0x0B h s = true ∧ b.length = 40 ∧ presOpen s = false) :=
  ⟨⟨hd, [1, 2, 3, 4, 5, 6, 7, 8], { live with nv.keys.ledger.val := [1] }, by decide +kernel⟩,
    ⟨hd, [1, 2, 3, 4, 5, 6, 7, 8], { live with nv.keys.ledger.val := [] }, by decide +kernel⟩,
    ⟨hd, [], live, by decide +kernel⟩,
    ⟨hd, 2, live, by decide +kernel⟩,
    ⟨hd, keyBody, live, by decide +kernel⟩,
    ⟨hd, List.replicate 40 0, { live with sec.btn := none }, by decide +kernel⟩⟩

theorem witness_PortsJoin :
    (∃ (p : Port) (t : _) (s : State), portRuns s p = true ∧ (portOf s p).joining = true ∧
      (portOf s p).joinAt = some t ∧ t ≤ s.time.tns) ∧
    (∃ (p : Port) (lost : _) (t : _) (s : State), portRuns s p = true ∧ (portOf s p).joining = true ∧
      (portOf s p).joinSent = some t ∧ (lost = true ∨ s.time.tns ≥ t + 200000000)) ∧
    (∃ (h : ReqHdr) (n : BitVec 16) (m : BitVec 8) (s : State), portRuns s h.port = true ∧
      linkTakes 0x41 h.link s = true ∧ freshFrame 0x0E h s = true ∧ n.toNat < 4096 ∧ 1 ≤ m.toNat ∧ m.toNat ≤ 64) ∧
    (∃ (h : ReqHdr) (s : State), portRuns s h.port = true ∧ linkTakes 0x41 h.link s = true ∧ freshFrame 0x0E h s = true) ∧
    (∃ (h : ReqHdr) (mid : _) (n : BitVec 16) (k : _) (s : State), portRuns s h.port = true ∧
      linkTakes 0x41 h.link s = true ∧ mid ≠ s.sec.mid ∧ n ≠ 0xFFFF ∧ s.host.snid = some k ∧ k % 64 = n.toNat % 64) :=
  ⟨⟨.can, 1000000000000000, { live with host.ports := [(1, { joining := true, joinAt := some 1000000000000000 })] },
      by decide +kernel⟩,
    ⟨.t1s, true, 5, { live with host.ports := [(0, { joining := true, joinSent := some 5 })] }, by decide +kernel⟩,
    ⟨{ hd with link := .eth (ownMac live) 5 0x88B6 true, bcast := true }, 4095, 64, { live with host.snid := none },
      by decide +kernel⟩,
    ⟨{ hd with link := .can (BitVec.ofNat 29 (live.cfg.host.canBase + 0x41)) (live.cfg.host.canIdf == 1), bcast := true },
      live, by decide +kernel⟩,
    ⟨{ hd with link := .eth (ownMac live) 5 0x88B6 true, bcast := true }, 1, 64, 0,
      { live with host.snid := some (0) }, by decide +kernel⟩⟩

theorem witness_PortEvents :
    (∃ (s : State), mayTalk s .t1s = true ∧ (portOf s .t1s).txq = []) ∧
    (∃ (s : State), portRuns s .spi = true) ∧
    (∃ (s : State), portRuns s .spi = true) ∧
    (∃ (s : State), s.host.can ≠ .off ∧ s.host.can ≠ .busOff) ∧
    (∃ (s : State), s.host.can = .busOff) ∧
    (∃ (s : State), s.host.can = .active) :=
  ⟨⟨live, by decide +kernel⟩,
    ⟨live, by decide +kernel⟩,
    ⟨live, by decide +kernel⟩,
    ⟨live, by decide +kernel⟩,
    ⟨{ live with host.can := .busOff }, by decide +kernel⟩,
    ⟨{ live with host.can := .active }, by decide +kernel⟩⟩

theorem witness_KeysUnread :
    (∃ (s : State) (id : _) (k : _) (v : List Byte), keyGet s.nv.keys id = some k ∧ (v = [] ↔ k.val = [])) ∧
    (∃ (s : State) (id : _) (k : Key) (v : List Byte), keyGet s.nv.keys id = some k ∧ (v = [] ↔ k.val = [])) ∧
    (∃ (s : State) (id : _) (k : _), keyGet s.nv.keys id = some k) :=
  ⟨⟨{ live with nv.keys.image := { val := [1] } }, 1, { val := [1] }, [2], by decide +kernel⟩,
    ⟨{ live with nv.keys.pod := [(3, { val := [1] })] }, 0x13, { val := [1] }, [2], by decide +kernel⟩,
    ⟨live, 2, {}, by decide +kernel⟩⟩

theorem witness_ReservedModeRefused :
    ∃ (h : ReqHdr) (p : _) (v : _) (s : State), freshWr h p s ∧ modeReserved v = true :=
  ⟨hd, false, 0x0F000000, live, by decide +kernel⟩

theorem witness_SelfTestRefused :
    (∃ (h : ReqHdr) (p : _) (q : _) (s : State), freshWr h p s ∧ s.sys.run.bist = true ∧ bistBusy s = false ∧
      s.bist.first + bistCount s ≤ 16 ∧ q ∈ rangeFrom s.bist.first (bistCount s) ∧ (pairOf s q).quar = false) ∧
    (∃ (h : ReqHdr) (p : _) (tg : BitVec 3) (s : State), freshWr h p s ∧ s.sys.run.bist = true ∧ tg.toNat < 6 ∧
      s.bist.first + bistCount s > bistRegions tg.toNat) ∧
    (∃ (h : ReqHdr) (p : _) (tg : BitVec 3) (s : State), freshWr h p s ∧ s.sys.run.bist = true ∧ tg.toNat < 6 ∧
      s.bist.first + bistCount s ≤ bistRegions tg.toNat ∧ bistBusy s = true) ∧
    (∃ (h : ReqHdr) (p : _) (tg : BitVec 3) (s : State), freshWr h p s ∧ 6 ≤ tg.toNat) :=
  ⟨⟨hd, false, 15, { live with bist.first := 15, sys.run.bist := true }, by decide +kernel⟩,
    ⟨hd, false, 1, { live with bist.first := 6, sys.run.bist := true }, by decide +kernel⟩,
    ⟨hd, false, 5, { live with bist.first := 127, bist.state := .running, sys.run.bist := true }, by decide +kernel⟩,
    ⟨hd, false, 6, live, by decide +kernel⟩⟩

end Sys2Proof.Tests
end

section
/-! PROOFS. The frame (R14, R278): what the stages of a frame leave of its counts, and the statement of the four. -/

namespace Sys2Proof.Machine

/-! ## The boundary -/

@[simp] theorem frmNext_frm (s : State) : (frmNext s).time.frm = s.time.frm + 1 := by
  unfold frmNext
  dsimp only
  split
  · simp [id @emit_keep]
  · rfl

@[simp] theorem tnsTo_frm (t : Nat) (s : State) : (tnsTo t s).time.frm = s.time.frm := by
  simp [tnsTo, id @ledgGap_keep]

@[simp] theorem gridStep_frm (p t : Nat) (s : State) : (gridStep p t s).time.frm = s.time.frm := by
  unfold gridStep
  split
  · simp
  · dsimp only
    split <;> simp [id @emit_keep]

@[simp] theorem modeTake_frameOpen (s : State) : (modeTake s).sys.frameOpen = s.sys.frameOpen := by
  simp [modeTake, id @emitIf_keep]

@[simp] theorem vcoreBoundary_state (s : State) : (vcoreBoundary s).pwr.state = s.pwr.state := by
  unfold vcoreBoundary
  repeat' split
  all_goals rfl

@[simp] theorem modesBoundary_frameOpen (s : State) : (modesBoundary s).sys.frameOpen = s.sys.frameOpen := by
  simp only [modesBoundary]
  repeat' split
  all_goals simp [id @vcoreBoundary_keep, id @winDiscard_keep, id @coupWanted_keep, id @acqChanged_keep,
    id @nodesBoundary_keep]

@[simp] theorem modesBoundary_pwrState (s : State) : (modesBoundary s).pwr.state = s.pwr.state := by
  simp only [modesBoundary]
  repeat' split
  all_goals simp [id @winDiscard_keep, id @coupWanted_keep, id @acqChanged_keep, id @nodesBoundary_keep,
    id @modeTake_keep]

theorem unitsBoundary_sys (s : State) :
    (unitsBoundary s).sys.frameOpen = s.sys.frameOpen ∧ (unitsBoundary s).sys.commitDue = s.sys.commitDue ∧
    (unitsBoundary s).sys.sumDue = s.sys.sumDue ∧ (unitsBoundary s).sys.frmCommit = s.sys.frmCommit ∧
    (unitsBoundary s).sys.commitAt = s.sys.commitAt := by
  have e : (unitsBoundary s).sys.held = s.sys.held := by simp [id @unitsBoundary_keep]
  simp [id @Sys.of_held e]

theorem unitsBoundary_pwrState (s : State) : (unitsBoundary s).pwr.state = s.pwr.state := by
  have e : (unitsBoundary s).pwr.held = s.pwr.held := by simp [id @unitsBoundary_keep]
  exact (Pwr.of_held e).1

/-- The boundary's units keep the count, the open frame and the power state, whether they act now or wait (R354). -/
theorem unitsBoundary_frame (b : Bool) (s : State) :
    (if b then s else unitsBoundary s).time.frm = s.time.frm ∧
    (if b then s else unitsBoundary s).sys.frameOpen = s.sys.frameOpen ∧
    (if b then s else unitsBoundary s).pwr.state = s.pwr.state := by
  cases b <;> simp [id @unitsBoundary_keep, id @unitsBoundary_sys, unitsBoundary_pwrState]

/-- A boundary outside STANDBY stops no acquisition, and of its operations only `frmNext` counts (R14, R387). -/
theorem frameBoundary_opens {s : State} (hacq : s.sys.run.acq = true) (hopen : s.sys.frameOpen = false)
    (hdue : s.sys.commitDue = false ∨ acqMode s = 1) (hpwr : s.pwr.state ≠ .standby) :
    completes .frameBoundary s fun t => t.time.frm = s.time.frm + 1 ∧ t.sys.frameOpen = true := by
  have hgo : ¬ (!s.sys.run.acq || s.sys.frameOpen || (s.sys.commitDue && acqMode s != 1)) = true := by
    rcases hdue with h | h <;> simp [hacq, hopen, h]
  refine ⟨_, rfl, ?_⟩
  rw [if_neg hgo]
  extract_lets t s1 new s2 sys2 s3 s4
  have hfrm : s3.time.frm = s.time.frm + 1 := by
    simp [s3, s2, s1, id @curBoundary_keep, id @modesBoundary_keep, id @throttleActs_keep, id @modeRequests_keep,
      id @ledgFrame_keep]
  have hframe : s3.sys.frameOpen = true := by simp [s3, id @curBoundary_keep]
  have hstate : s3.pwr.state = s.pwr.state := by
    simp [s3, s2, s1, id @curBoundary_keep, id @gridStep_keep, id @throttleActs_keep, id @modeRequests_keep,
      id @frmNext_keep, id @ledgFrame_keep]
  clear_value s3
  obtain ⟨hfrm4, hframe4, hstate4⟩ :
      s4.time.frm = s3.time.frm ∧ s4.sys.frameOpen = s3.sys.frameOpen ∧ s4.pwr.state = s3.pwr.state :=
    unitsBoundary_frame s3.sys.commitDue s3
  have hrun : ¬ (s4.pwr.state == .standby) = true := by simpa [hstate4, hstate] using hpwr
  rw [if_neg hrun]
  simp [id @settle_keep, id @settle_sys, hfrm4, hframe4, hfrm, hframe]

/-! ## The cut-off -/

theorem acquisitionCutOff_closes {s : State} (aux : List Nat) (hacq : s.sys.run.acq = true)
    (hopen : s.sys.frameOpen = true) (hdue : s.sys.commitDue = false) :
    completes (.acquisitionCutOff aux) s fun t =>
      t.sys.frameOpen = false ∧ t.sys.commitDue = true ∧ t.sys.frmCut = s.time.frm ∧ t.time.frm = s.time.frm := by
  have hgo : ¬ (!s.sys.run.acq || !s.sys.frameOpen || s.sys.commitDue) = true := by simp [hacq, hopen, hdue]
  refine ⟨_, rfl, ?_⟩
  rw [if_neg hgo]
  extract_lets s1 s2 s3 sys3 s4
  have hfrm : s3.time.frm = s.time.frm := by
    simp [s3, s2, s1, id @ledgVsum_keep, id @monitorsClose_keep, id @frameCompare_keep, id @crossCheck_keep,
      id @acqClose_keep, id @curClose_keep, id @auxTake_keep]
  simp [s4, id @settle_sys, id @settle_keep, id @chargeTaken_keep, id @winCutOff_keep, id @krnCutOff_keep,
    id @estCutOff_keep, hfrm]

/-! ## The commit point -/

theorem krnCommit_sys (s : State) :
    (krnCommit s).sys.frmCommit = s.sys.frmCommit ∧ (krnCommit s).sys.commitAt = s.sys.commitAt := by
  simp [krnCommit, id @pairClear_keep]

theorem commitPoint_commits {s : State} (ns : Nat) (hdue : s.sys.commitDue = true) :
    completes (.commitPoint ns) s fun t =>
      t.sys.frmCommit = s.sys.frmCut ∧ t.sys.commitAt = some s.time.tns ∧ t.sys.sumDue = true ∧
      t.sys.commitDue = false := by
  have hgo : ¬ (!s.sys.commitDue) = true := by simp [hdue]
  refine ⟨_, rfl, ?_⟩
  rw [if_neg hgo]
  extract_lets sys0 s1 n s2 s3 sys3 s4
  have hsys : s4.sys.frmCommit = s.sys.frmCut ∧ s4.sys.commitAt = some s.time.tns ∧ s4.sys.sumDue = true ∧
      s4.sys.commitDue = false := by
    simp [s4, sys3, s3, s2, s1, sys0, id @kernelMargin_keep, id @tallyUpdate_keep, id @estCommit_keep,
      id @winCommit_keep, id @emitIf_keep, id @krnCommit_sys]
  split <;> simpa [id @settle_sys, id @unitsBoundary_sys] using hsys

/-! ## The summary stage -/

theorem summaryStage_summarises {s : State} (hsum : sumNow s = true) :
    completes .summaryStage s fun t => t.sys.frmSum = s.sys.frmCommit ∧ t.sys.sumDue = false := by
  have hgo : ¬ (!sumNow s) = true := by simp [hsum]
  refine ⟨_, rfl, ?_⟩
  rw [if_neg hgo]
  simp [id @settle_sys, id @charSummary_keep]

/-- Settles O7: each stage is its operations in order, and of the frame's counts they write what the rules say alone. -/
theorem frameCompletes : Obligations.FrameCompletes :=
  ⟨fun _ => frameBoundary_opens, fun aux _ => acquisitionCutOff_closes aux, fun ns _ => commitPoint_commits ns,
    fun _ => summaryStage_summarises⟩

end Sys2Proof.Machine
end

section
/-! PROOFS. Writes of SYS_MODE, the image, time, thermal, ring and acquisition controls (R27, R52, R57, R115, R131,
R161, R390, R395, R403, R415): what each writes, and the statement of all of them. -/

namespace Sys2Proof.Machine

/-! ## Windows whose words are written unchecked -/

/-- The windows TIME, IMG, RING0, RING1 and ACQ hold no RWP field. -/
theorem reaches_unchecked {a : Nat} (hw : a / 4096 ∈ [3, 5, 6, 7, 8]) (p : Port) (v : Word) (s : State) :
    reaches p a v s = false := by
  simp only [List.mem_cons, List.not_mem_nil, or_false] at hw
  rcases hw with h | h | h | h | h <;> simp [reaches, h]

/-- The windows TIME, IMG, RING0, RING1 and ACQ refuse no word. -/
theorem chkWord_unchecked {a : Nat} (hw : a / 4096 ∈ [3, 5, 6, 7, 8]) (q : Req) (n : Nat) (v : Word) (s : State) :
    chkWord q n a v s = 0 := by
  simp only [List.mem_cons, List.not_mem_nil, or_false] at hw
  rcases hw with h | h | h | h | h <;> simp [chkWord, h]

/-- A write to a window that refuses none and holds no RWP field completes with what every answered effect has. -/
theorem completes_write_unchecked {c : Instr} {h : ReqHdr} {p : Bool} (a : Nat) (f : Word → Word) {s : State}
    {P : State → Prop} (hx : exec c s = .next (regReq p h noMeas a f s)) (hf : freshWr h p s)
    (hw : a / 4096 ∈ [3, 5, 6, 7, 8]) (h4 : a % 4 = 0)
    (hP : ∀ r, P (settle (answer (wrOp p) h.port h.tag r
      (putReg (wrReq h p noMeas) a (wrWord h p a f s) (reqStart (wrOp p) h s))))) : completes c s P := by
  have ha : a < 0x17000 := by
    simp only [List.mem_cons, List.not_mem_nil, or_false] at hw
    omega
  exact completes_write noMeas a f hx hf ha h4 (fun _ => reaches_unchecked hw ..) (chkWord_unchecked hw ..) hP

/-! ## What a write of each control register does -/

theorem putReg_sysMode (q : Req) (v : Word) (s : State) : putReg q 0x040 v s = modeAccept (v &&& 0x0FF3FFFF) s := by
  simp [putReg, putSys]

theorem putReg_timeCtrl (q : Req) (v : Word) (s : State) : putReg q 0x3004 v s = timeCtrlWrite v s := by
  simp [putReg, putTime]

theorem putReg_timeWallSetHi (q : Req) (v : Word) (s : State) : putReg q 0x301C v s = wallSet v s := by
  simp [putReg, putTime]

theorem putReg_thermCtrl (q : Req) (v : Word) (s : State) :
    putReg q 0x4004 v s = if v.getLsbD 0 then holdClear s else s := by
  simp [putReg, putTherm]

theorem putReg_imgCtrl (q : Req) (v : Word) (s : State) :
    putReg q 0x5004 v s =
      let u := if v.getLsbD 0 then imgCancel s else s
      if v.getLsbD 1 then imgAbortStage u else u := by
  simp [putReg, putImg]

theorem putReg_ringCtrl (q : Req) (r : Fin 2) (v : Word) (s : State) :
    putReg q (0x6000 + 0x1000 * r.val) v s = putRingCtrl r.val v s :=
  match r with
  | 0 => rfl
  | 1 => rfl

theorem putReg_acqCtrl (q : Req) (v : Word) (s : State) : putReg q 0x8004 v s = putAcqCtrl v s := by
  simp [putReg, putAcq]

/-! ## SYS_MODE -/

theorem modeAccept_mode (v : Word) (s : State) :
    (modeAccept v s).sys.mode = v ∧ (modeAccept v s).sys.modeLater = some v := by
  simp only [modeAccept]
  split <;> simp [id @acqAnnounce_keep]

theorem sysModeWrite_stores {h : ReqHdr} {p : Bool} {v : Word} {s : State} (hf : freshWr h p s)
    (hv : modeReserved v = false) :
    completes (.sysModeWrite h p v) s fun t =>
      t.sys.mode = v &&& 0x0FF3FFFF ∧ t.sys.modeLater = some (v &&& 0x0FF3FFFF) := by
  refine completes_write noMeas 0x040 (fun _ => v) rfl hf (by decide) (by decide) (fun _ => by simp [reaches])
    (by simp [chkWord, chkSys, wrWord, hv]) fun r => ?_
  simp [putReg_sysMode, wrWord, id @settle_sys, id @answer_keep, id @modeAccept_mode]

/-! ## IMG_CTRL -/

theorem imgAbortStage_empties {s : State} (hc : commitBusy s = false) :
    (imgAbortStage s).img.stage = [] ∧ (imgAbortStage s).img.stageLen = 0 := by
  simp [imgAbortStage, hc]

theorem imgAbortStage_completes {h : ReqHdr} {p : Bool} {s : State} (hf : freshWr h p s) (hc : commitBusy s = false) :
    completes (.imgAbortStage h p) s fun t => t.img.stage = [] ∧ t.img.stageLen = 0 := by
  refine completes_write_unchecked 0x5004 (fun _ => 2) rfl hf (by decide) (by decide) fun r => ?_
  have hc' : commitBusy (reqStart (wrOp p) h s) = false := by simpa [commitBusy, id @reqStart_keep] using hc
  simp [putReg_imgCtrl, wrWord, id @settle_keep, id @answer_keep, id @imgAbortStage_empties hc']

theorem setSlot_waiting (x : ImgSrc) (v : Slot) (s : State) :
    (setSlot x v s).img.pending = s.img.pending ∧ (setSlot x v s).img.hotAt = s.img.hotAt ∧
    (setSlot x v s).img.waiting = s.img.waiting := by
  cases x <;> exact ⟨rfl, rfl, rfl⟩

theorem imgDropWaiting_none (cause : Nat) (s : State) :
    (imgDropWaiting cause s).img.pending = .none ∧ (imgDropWaiting cause s).img.hotAt = none ∧
    (imgDropWaiting cause s).img.waiting = .sprout := by
  simp [imgDropWaiting, id @emit_keep, id @setSlot_waiting]

theorem imgCancel_drops {s : State} (hp : s.img.pending ≠ .none) (ha : s.img.state ≠ .activating)
    (hc : s.img.coldStep = 0) :
    (imgCancel s).img.pending = .none ∧ (imgCancel s).img.hotAt = none ∧ (imgCancel s).img.waiting = .sprout := by
  simp [imgCancel, hp, ha, hc, id @imgDropWaiting_none]

theorem imgCancel_completes {h : ReqHdr} {p : Bool} {s : State} (hf : freshWr h p s) (hp : s.img.pending ≠ .none)
    (ha : s.img.state ≠ .activating) (hc : s.img.coldStep = 0) :
    completes (.imgCancel h p) s fun t => t.img.pending = .none ∧ t.img.hotAt = none ∧ t.img.waiting = .sprout := by
  refine completes_write_unchecked 0x5004 (fun _ => 1) rfl hf (by decide) (by decide) fun r => ?_
  have e : (reqStart (wrOp p) h s).img = s.img := by simp [id @reqStart_keep]
  simp [putReg_imgCtrl, wrWord, id @settle_keep, id @answer_keep,
    id @imgCancel_drops (e ▸ hp) (e ▸ ha) (e ▸ hc)]

/-! ## TIME_CTRL and the wall clock -/

/-- TIME_CTRL reads SYNC_EN at bit 1. -/
theorem readWord_timeCtrl (p : Port) (s : State) : readWord p 0x3004 s = w32 (at' 1 (b2n s.time.syncEn)) := rfl

/-- RESYNC written 1 beside what TIME_CTRL reads leaves SYNC_EN as it was. -/
theorem timeCtrl_resync_bits (on : Bool) :
    (w32 (at' 1 (b2n on)) ||| 1).getLsbD 0 = true ∧ (w32 (at' 1 (b2n on)) ||| 1).getLsbD 1 = on := by
  cases on <;> decide

theorem timeCtrlWrite_syncEn (v : Word) (s : State) : (timeCtrlWrite v s).time.syncEn = v.getLsbD 1 := by
  simp only [timeCtrlWrite]
  split <;> simp_all

theorem timeCtrlWrite_resync {v : Word} (s : State) (hv : v.getLsbD 0 = true) :
    (timeCtrlWrite v s).time.resync = true ∧ (timeCtrlWrite v s).time.tns = s.time.tns := by
  simp only [timeCtrlWrite, hv]
  split <;> simp

theorem timeCtrlWrite_servo_off {v : Word} (s : State) (hv : v.getLsbD 1 = false) :
    (timeCtrlWrite v s).time.servo = .free ∧ (timeCtrlWrite v s).time.rate = 0 := by
  simp only [timeCtrlWrite, hv, Bool.false_eq_true, if_false, and_self]

theorem timeCtrlWrite_rate_on {v : Word} (s : State) (hv : v.getLsbD 1 = true) :
    (timeCtrlWrite v s).time.rate = s.time.rate := by
  cases h0 : v.getLsbD 0 <;> simp only [timeCtrlWrite, hv, h0, if_true, Bool.false_eq_true, if_false]

theorem timeCtrlWrite_resync_kept (s : State) :
    let t := timeCtrlWrite (w32 (at' 1 (b2n s.time.syncEn)) ||| 1) s
    t.time.resync = true ∧ t.time.syncEn = s.time.syncEn ∧ t.time.tns = s.time.tns := by
  obtain ⟨hresync, hsync⟩ := timeCtrl_resync_bits s.time.syncEn
  obtain ⟨hnoted, htns⟩ := timeCtrlWrite_resync s hresync
  exact ⟨hnoted, (timeCtrlWrite_syncEn _ s).trans hsync, htns⟩

theorem timeResyncRequest_notes {h : ReqHdr} {p : Bool} {s : State} (hf : freshWr h p s) :
    completes (.timeResyncRequest h p) s fun t =>
      t.time.resync = true ∧ t.time.syncEn = s.time.syncEn ∧ t.time.tns = s.time.tns := by
  refine completes_write_unchecked 0x3004 (fun w => w ||| 1) rfl hf (by decide) (by decide) fun r => ?_
  simpa only [putReg_timeCtrl, wrWord, readWord_timeCtrl, id @settle_keep, id @answer_keep, id @reqStart_keep]
    using timeCtrlWrite_resync_kept (reqStart (wrOp p) h s)

theorem syncEnWrite_stores {h : ReqHdr} {p : Bool} (on : Bool) {s : State} (hf : freshWr h p s) :
    completes (.syncEnWrite h p on) s fun t =>
      t.time.syncEn = on ∧ (on = false → t.time.servo = .free ∧ t.time.rate = 0) ∧
      (on = true → t.time.rate = s.time.rate) := by
  refine completes_write_unchecked 0x3004 (fun _ => if on then 2 else 0) rfl hf (by decide) (by decide) fun r => ?_
  have hbit : (if on then (2 : Word) else 0).getLsbD 1 = on := by cases on <;> decide
  have htime : (reqStart (wrOp p) h s).time = s.time := by simp [id @reqStart_keep]
  simp only [putReg_timeCtrl, wrWord, id @settle_keep, id @answer_keep, ← htime]
  exact ⟨(timeCtrlWrite_syncEn _ _).trans hbit, fun hoff => timeCtrlWrite_servo_off _ (hbit.trans hoff),
    fun hon => timeCtrlWrite_rate_on _ (hbit.trans hon)⟩

theorem wallSet_time (hi : Word) (s : State) :
    (wallSet hi s).time = { s.time with
      wallOfs := some (Int.ofNat (hi.toNat * 4294967296 + s.time.wallSetLo.toNat) - Int.ofNat s.time.tns) } := by
  simp [wallSet, id @emit_keep]

theorem timeWallSet_sets {h : ReqHdr} {p : Bool} (hi : Word) {s : State} (hf : freshWr h p s) :
    completes (.timeWallSet h p hi) s fun t =>
      t.time = { s.time with
        wallOfs := some (Int.ofNat (hi.toNat * 4294967296 + s.time.wallSetLo.toNat) - Int.ofNat s.time.tns) } := by
  refine completes_write_unchecked 0x301C (fun _ => hi) rfl hf (by decide) (by decide) fun r => ?_
  simp [putReg_timeWallSetHi, wrWord, id @settle_keep, id @answer_keep, wallSet_time, id @reqStart_keep]

/-! ## THERM_CTRL -/

@[simp] theorem tbWrite_hold (s : State) : (tbWrite s).nv.tb.hold = s.nv.tb.hold := by
  simp only [tbWrite]
  repeat' split
  all_goals rfl

theorem holdClear_hold (s : State) : (holdClear s).nv.tb.hold = false := by
  unfold holdClear
  split
  · simp [id @emit_keep]
  · simp_all

theorem thermHoldClr_ends {h : ReqHdr} {s : State} (hf : freshWr h true s) :
    completes (.thermHoldClr h true) s fun t => t.nv.tb.hold = false := by
  refine completes_write noMeas 0x4004 (fun _ => 1) rfl hf (by decide) (by decide) (fun hp => nomatch hp)
    (by simp [chkWord]) fun r => ?_
  simp [putReg_thermCtrl, wrWord, id @settle_keep, id @answer_keep, holdClear_hold]

/-! ## RINGn_CTRL -/

/-- RINGn_CTRL reads LIVE_EN at bit 3. -/
theorem readWord_ringCtrl (p : Port) (r : Fin 2) (s : State) :
    readWord p (0x6000 + 0x1000 * r.val) s = w32 (at' 3 (b2n (ringOf s r.val).liveEn)) :=
  match r with
  | 0 => rfl
  | 1 => rfl

theorem ringCtrl_window (r : Fin 2) :
    (0x6000 + 0x1000 * r.val) / 4096 ∈ [3, 5, 6, 7, 8] ∧ (0x6000 + 0x1000 * r.val) % 4 = 0 :=
  match r with
  | 0 => by decide
  | 1 => by decide

/-- ENUM written 1 beside what RINGn_CTRL reads sets ENUM and not MEAS. -/
theorem ringCtrl_enum_bits (on : Bool) :
    (w32 (at' 3 (b2n on)) ||| 1).getLsbD 0 = true ∧ (w32 (at' 3 (b2n on)) ||| 1).getLsbD 2 = false := by
  cases on <;> decide

/-- MEAS written 1 beside what RINGn_CTRL reads sets MEAS and not ENUM. -/
theorem ringCtrl_meas_bits (on : Bool) :
    (w32 (at' 3 (b2n on)) ||| 4).getLsbD 0 = false ∧ (w32 (at' 3 (b2n on)) ||| 4).getLsbD 2 = true := by
  cases on <;> decide

/-- Ring `r` with LIVE_EN stored from a word of RINGn_CTRL. -/
def liveStored (r : Nat) (v : Word) (s : State) : State := modRing s r fun x => { x with liveEn := v.getLsbD 3 }

section
variable {r : Nat} {v : Word} {s : State}
variable (hoff : (ringOf s r).state ≠ .off) (hsleep : (ringOf s r).state ≠ .sleeping)
include hoff hsleep

theorem putRingCtrl_enum (hv : v.getLsbD 0 = true ∧ v.getLsbD 2 = false) :
    putRingCtrl r v s = ringEnumRequest r (liveStored r v s) := by
  simp only [putRingCtrl, liveStored, hoff, hsleep, hv, decide_false, Bool.or_self, Bool.false_eq_true, if_false,
    if_true]

theorem putRingCtrl_meas (hv : v.getLsbD 0 = false ∧ v.getLsbD 2 = true) :
    putRingCtrl r v s = ringMeasRequest r (liveStored r v s) := by
  simp only [putRingCtrl, liveStored, hoff, hsleep, hv, decide_false, Bool.or_self, Bool.false_eq_true, if_false,
    if_true]

end

/-- Whether a string stands open is Husk's alone. -/
theorem standsOpen_congr {s t : State} (e : t.husk = s.husk) (i : Nat) : standsOpen t i = standsOpen s i := by
  simp [standsOpen, chCmd, seqBusy, e]

theorem ringEnumRequest_open {r : Nat} {s : State}
    (ho : ∀ n ∈ s.cfg.topo.nodes, n.ring = r → standsOpen s n.string = true) :
    (ringOf (ringEnumRequest r s) r).enumReq = true ∧ (ringOf (ringEnumRequest r s) r).inService = false := by
  have hall : ((s.cfg.topo.nodes.filter (·.ring == r)).all fun t => standsOpen s t.string) = true := by
    rw [List.all_eq_true]
    intro n hn
    obtain ⟨hmem, hring⟩ := List.mem_filter.mp hn
    exact ho n hmem (by simpa using hring)
  simp [ringEnumRequest, hall, id @settle_ringOf]

theorem ringEnumRequest_closed {r : Nat} {s : State}
    (hc : ∃ n ∈ s.cfg.topo.nodes, n.ring = r ∧ standsOpen s n.string = false) : ringEnumRequest r s = s := by
  have hall : ((s.cfg.topo.nodes.filter (·.ring == r)).all fun t => standsOpen s t.string) = false := by
    simpa using hc
  simp [ringEnumRequest, hall]

@[simp] theorem ringOf_reqStart (op : Nat) (h : ReqHdr) (s : State) (r : Nat) :
    ringOf (reqStart op h s) r = ringOf s r := by
  simp [ringOf, id @reqStart_keep]

/-- A write of RINGn_CTRL completes with what every answered effect of the word on that ring has. -/
theorem completes_ringCtrl {c : Instr} {h : ReqHdr} {p : Bool} {r : Fin 2} (f : Word → Word) {s : State}
    {P : State → Prop} (hx : exec c s = .next (regReq p h noMeas (0x6000 + 0x1000 * r.val) f s)) (hf : freshWr h p s)
    (hP : ∀ y, P (settle (answer (wrOp p) h.port h.tag y
      (putRingCtrl r.val (f (w32 (at' 3 (b2n (ringOf s r.val).liveEn)))) (reqStart (wrOp p) h s))))) :
    completes c s P := by
  obtain ⟨hw, h4⟩ := ringCtrl_window r
  refine completes_write_unchecked _ f hx hf hw h4 fun y => ?_
  simpa only [wrWord, putReg_ringCtrl, readWord_ringCtrl, ringOf_reqStart] using hP y

/-- Storing LIVE_EN when a request begins leaves the topology and the strings' standing as they were. -/
theorem standsOpen_liveStored_reqStart (op : Nat) (h : ReqHdr) (r : Nat) (v : Word) (s : State) :
    (liveStored r v (reqStart op h s)).cfg = s.cfg ∧
    ∀ i, standsOpen (liveStored r v (reqStart op h s)) i = standsOpen s i := by
  constructor
  · simp [liveStored, id @modRing_keep, id @reqStart_keep]
  · exact standsOpen_congr (by simp [liveStored, id @modRing_keep, id @reqStart_keep])

theorem ringEnumRequest_taken {h : ReqHdr} {p : Bool} {r : Fin 2} {s : State} (hf : freshWr h p s)
    (hoff : (ringOf s r.val).state ≠ .off) (hsleep : (ringOf s r.val).state ≠ .sleeping)
    (ho : ∀ n ∈ s.cfg.topo.nodes, n.ring = r.val → standsOpen s n.string = true) :
    completes (.ringEnumRequest h p r) s fun t =>
      (ringOf t r.val).enumReq = true ∧ (ringOf t r.val).inService = false := by
  refine completes_ringCtrl (fun w => w ||| 1) rfl hf fun y => ?_
  rw [putRingCtrl_enum (by simpa using hoff) (by simpa using hsleep) (ringCtrl_enum_bits _)]
  generalize w32 (at' 3 (b2n (ringOf s r.val).liveEn)) ||| 1 = v
  obtain ⟨hcfg, hopen⟩ := standsOpen_liveStored_reqStart (wrOp p) h r.val v s
  simpa [id @settle_ringOf, id @answer_entries] using ringEnumRequest_open (by simpa [hcfg, hopen] using ho)

theorem ringEnumRequest_ignored {h : ReqHdr} {p : Bool} {r : Fin 2} {s : State} (hf : freshWr h p s)
    (hoff : (ringOf s r.val).state ≠ .off) (hsleep : (ringOf s r.val).state ≠ .sleeping)
    (hc : ∃ n ∈ s.cfg.topo.nodes, n.ring = r.val ∧ standsOpen s n.string = false) :
    completes (.ringEnumRequest h p r) s fun t =>
      (ringOf t r.val).enumReq = (ringOf s r.val).enumReq ∧
      (ringOf t r.val).inService = (ringOf s r.val).inService := by
  refine completes_ringCtrl (fun w => w ||| 1) rfl hf fun y => ?_
  rw [putRingCtrl_enum (by simpa using hoff) (by simpa using hsleep) (ringCtrl_enum_bits _)]
  generalize w32 (at' 3 (b2n (ringOf s r.val).liveEn)) ||| 1 = v
  obtain ⟨hcfg, hopen⟩ := standsOpen_liveStored_reqStart (wrOp p) h r.val v s
  rw [ringEnumRequest_closed (by simpa [hcfg, hopen] using hc)]
  simp [id @settle_ringOf, id @answer_entries, liveStored]

theorem ringMeasRequest_starts {h : ReqHdr} {p : Bool} {r : Fin 2} {s : State} (hf : freshWr h p s)
    (hoff : (ringOf s r.val).state ≠ .off) (hsleep : (ringOf s r.val).state ≠ .sleeping) :
    completes (.ringMeasRequest h p r) s fun t =>
      (ringOf t r.val).measLeft = (ringOf s r.val).nodes.length ∧ (ringOf t r.val).measPos = 0 := by
  refine completes_ringCtrl (fun w => w ||| 4) rfl hf fun y => ?_
  rw [putRingCtrl_meas (by simpa using hoff) (by simpa using hsleep) (ringCtrl_meas_bits _)]
  simp [id @settle_ringOf, id @answer_entries, ringMeasRequest, liveStored]

/-! ## ACQ_CTRL -/

/-- ACQ_CTRL reads the inhibit mask at bits 7 to 4. -/
theorem readWord_acqCtrl (p : Port) (s : State) : readWord p 0x8004 s = w32 (at' 4 s.acq.inhibit.toNat) := rfl

/-- COUP_ID written 1 beside what ACQ_CTRL reads keeps the inhibit mask and asks for no open-wire test. -/
theorem acqCtrl_coupId_bits (x : BitVec 4) :
    BitVec.ofNat 4 (bits (w32 (at' 4 x.toNat) ||| 2) 7 4) = x ∧ (w32 (at' 4 x.toNat) ||| 2).getLsbD 0 = false ∧
    (w32 (at' 4 x.toNat) ||| 2).getLsbD 1 = true := by
  revert x
  decide

/-- OW_NOW written 1 beside what ACQ_CTRL reads keeps the inhibit mask and asks for no identification. -/
theorem acqCtrl_owNow_bits (x : BitVec 4) :
    BitVec.ofNat 4 (bits (w32 (at' 4 x.toNat) ||| 1) 7 4) = x ∧ (w32 (at' 4 x.toNat) ||| 1).getLsbD 0 = true ∧
    (w32 (at' 4 x.toNat) ||| 1).getLsbD 1 = false := by
  revert x
  decide

/-- A word that carries the inhibit mask in force changes what its pulses COUP_ID and OW_NOW ask for alone. -/
theorem putAcqCtrl_of_inhibit {v : Word} {s : State} (hrun : s.sys.run.acq = true)
    (hinh : BitVec.ofNat 4 (bits v 7 4) = s.acq.inhibit) :
    putAcqCtrl v s =
      let u := if v.getLsbD 1 then acqCoupId s else s
      if v.getLsbD 0 then acqOwNow u else u := by
  simp [putAcqCtrl, hrun, hinh]

theorem putAcqCtrl_coupId {s : State} (hrun : s.sys.run.acq = true) :
    putAcqCtrl (w32 (at' 4 s.acq.inhibit.toNat) ||| 2) s = acqCoupId s := by
  obtain ⟨hinh, h0, h1⟩ := acqCtrl_coupId_bits s.acq.inhibit
  simp only [putAcqCtrl_of_inhibit hrun hinh, h0, h1, Bool.false_eq_true, if_false, if_true]

theorem putAcqCtrl_owNow {s : State} (hrun : s.sys.run.acq = true) :
    putAcqCtrl (w32 (at' 4 s.acq.inhibit.toNat) ||| 1) s = acqOwNow s := by
  obtain ⟨hinh, h0, h1⟩ := acqCtrl_owNow_bits s.acq.inhibit
  simp only [putAcqCtrl_of_inhibit hrun hinh, h0, h1, Bool.false_eq_true, if_false, if_true]

theorem acqCoupId_wants {s : State} (hc : compMode s = true) {rp : Nat × Nat} (hrp : rp ∈ cellNodes s) :
    (nodeOf (acqCoupId s) rp.1 rp.2).coup.want = true := by
  rw [acqCoupId, if_pos hc, nodeOf_foldl, if_pos hrp]
  exact fun _ => rfl

theorem acqOwNow_wants {s : State} {rp : Nat × Nat} (hrp : rp ∈ cellNodes s) :
    (nodeOf (acqOwNow s) rp.1 rp.2).ow.want = true := by
  rw [acqOwNow, nodeOf_foldl, if_pos hrp]
  exact fun _ => rfl

@[simp] theorem cellNodes_reqStart (op : Nat) (h : ReqHdr) (s : State) :
    cellNodes (reqStart op h s) = cellNodes s := by
  simp [cellNodes, positions, nodeOf]

theorem acqCoupId_asks {h : ReqHdr} {p : Bool} {s : State} (hf : freshWr h p s) (hrun : s.sys.run.acq = true)
    (hc : compMode s = true) :
    completes (.acqCoupId h p) s fun t =>
      t.acq = s.acq ∧ ∀ rp ∈ cellNodes s, (nodeOf t rp.1 rp.2).coup.want = true := by
  refine completes_write_unchecked 0x8004 (fun w => w ||| 2) rfl hf (by decide) (by decide) fun r => ?_
  have hrun' : (reqStart (wrOp p) h s).sys.run.acq = true := by simpa [id @reqStart_keep] using hrun
  have hc' : compMode (reqStart (wrOp p) h s) = true := by simpa [compMode, id @reqStart_keep] using hc
  simp only [putReg_acqCtrl, wrWord, readWord_acqCtrl, putAcqCtrl_coupId hrun']
  refine ⟨?_, fun rp hrp => ?_⟩
  · simp [id @settle_keep, id @answer_keep, id @acqCoupId_keep, id @reqStart_keep]
  · simpa [id @settle_nodeOf, answer_nodeOf] using acqCoupId_wants hc' (by simpa using hrp)

theorem acqOwNow_asks {h : ReqHdr} {p : Bool} {s : State} (hf : freshWr h p s) (hrun : s.sys.run.acq = true) :
    completes (.acqOwNow h p) s fun t =>
      t.acq = s.acq ∧ ∀ rp ∈ cellNodes s, (nodeOf t rp.1 rp.2).ow.want = true := by
  refine completes_write_unchecked 0x8004 (fun w => w ||| 1) rfl hf (by decide) (by decide) fun r => ?_
  have hrun' : (reqStart (wrOp p) h s).sys.run.acq = true := by simpa [id @reqStart_keep] using hrun
  simp only [putReg_acqCtrl, wrWord, readWord_acqCtrl, putAcqCtrl_owNow hrun']
  refine ⟨?_, fun rp hrp => ?_⟩
  · simp [id @settle_keep, id @answer_keep, id @acqOwNow_keep, id @reqStart_keep]
  · simpa [id @settle_nodeOf, answer_nodeOf] using
      acqOwNow_wants (s := reqStart (wrOp p) h s) (by simpa using hrp)

/-- Settles O6: each request is taken, its word passes the checks, and what the word writes survives the answer and the
settling. -/
theorem writesSystem : Obligations.WritesSystem :=
  ⟨fun _ _ _ _ => sysModeWrite_stores, fun _ _ _ => imgAbortStage_completes, fun _ _ _ => imgCancel_completes,
    fun _ _ _ => timeResyncRequest_notes, fun _ _ on _ => syncEnWrite_stores on, fun _ _ hi _ => timeWallSet_sets hi,
    fun _ _ hf _ => thermHoldClr_ends hf, fun _ _ _ _ => ringEnumRequest_taken, fun _ _ _ _ => ringEnumRequest_ignored,
    fun _ _ _ _ => ringMeasRequest_starts, fun _ _ _ => acqCoupId_asks, fun _ _ _ => acqOwNow_asks⟩

end Sys2Proof.Machine
end

section
/-! PROOFS. IMGSTAGE and the OTP (R52, R525): what each command leaves of the staged image, and the statements of the
reset and of every step. -/

namespace Sys2Proof

theorem Tab.lt_of_mem_put {t : Tab Byte} {i n : Nat} {v : Byte} (ht : ∀ e ∈ t, e.1 < n) (hi : i < n) :
    ∀ e ∈ Tab.put t i v, e.1 < n := by
  induction t with
  | nil => simp [Tab.put, hi]
  | cons x t ih =>
    obtain ⟨hx, hrest⟩ := List.forall_mem_cons.mp ht
    simp only [Tab.put]
    split
    · exact List.forall_mem_cons.mpr ⟨hi, ht⟩
    split
    · exact List.forall_mem_cons.mpr ⟨hx, hrest⟩
    · exact List.forall_mem_cons.mpr ⟨hx, ih hrest⟩

/-- Setting an entry below a bound keeps every entry below it. -/
theorem Tab.lt_of_mem_set {t : Tab Byte} {i n : Nat} {v : Byte} (ht : ∀ e ∈ t, e.1 < n) (hi : i < n) :
    ∀ e ∈ Tab.set 0 t i v, e.1 < n := by
  unfold Tab.set
  split
  · exact fun e he => ht e (List.mem_filter.mp he).1
  · exact Tab.lt_of_mem_put ht hi

end Sys2Proof

namespace Sys2Proof.Machine

/-! ## A chunk -/

theorem stagePut_wf {o : Nat} {bs : List Byte} {t : Tab Byte} (ht : Tab.wf 0 t = true) :
    Tab.wf 0 (stagePut o bs t) = true := by
  induction bs generalizing o t with
  | nil => exact ht
  | cons b bs ih => exact ih (Tab.wf_set 0 t o b ht)

theorem stagePut_lt {o n : Nat} {bs : List Byte} {t : Tab Byte} (ht : ∀ e ∈ t, e.1 < n) (hn : o + bs.length ≤ n) :
    ∀ e ∈ stagePut o bs t, e.1 < n := by
  induction bs generalizing o t with
  | nil => exact ht
  | cons b bs ih =>
    rw [List.length_cons] at hn
    exact ih (Tab.lt_of_mem_set ht (by omega)) (by omega)

/-! ## What keeps the staged image, and what empties it -/

/-- A state whose IMGSTAGE is that of another meets the invariant with it. -/
theorem stagingWf_of_eq {s t : State} (e : t.img.stage = s.img.stage ∧ t.img.stageLen = s.img.stageLen)
    (hs : stagingWf s) : stagingWf t := by
  simpa only [stagingWf, e.1, e.2] using hs

theorem stagingWf_of_img {s t : State} (e : t.img = s.img) (hs : stagingWf s) : stagingWf t :=
  stagingWf_of_eq (by simp [e]) hs

theorem stagingWf_of_empty {t : State} (e : t.img.stage = [] ∧ t.img.stageLen = 0) : stagingWf t := by
  simp [stagingWf, e, Tab.wf, Tab.wfFrom]

theorem imgChunk_stagingWf {off : Nat} {data : List Byte} {s : State} (hs : stagingWf s) :
    stagingWf (imgChunk off data s).1 := by
  obtain ⟨hwf, hlt, hlen⟩ := hs
  unfold imgChunk
  split
  · exact ⟨hwf, hlt, hlen⟩
  split
  · exact ⟨hwf, hlt, hlen⟩
  split
  · exact ⟨hwf, hlt, hlen⟩
  next hmax =>
  cases data with
  | nil => exact ⟨hwf, hlt, hlen⟩
  | cons b bs =>
    refine ⟨stagePut_wf hwf, ?_, ?_⟩
    · exact stagePut_lt (fun e he => Nat.lt_of_lt_of_le (hlt e he) (Nat.le_max_left ..)) (Nat.le_max_right ..)
    · simp only [accept, List.isEmpty_cons, Bool.false_eq_true, if_false]
      omega

theorem imgAbortStage_stagingWf {s : State} (hs : stagingWf s) : stagingWf (imgAbortStage s) := by
  cases hc : commitBusy s with
  | true => simpa [imgAbortStage, hc] using hs
  | false => exact stagingWf_of_empty (imgAbortStage_empties hc)

theorem setSlot_stage (x : ImgSrc) (v : Slot) (s : State) :
    (setSlot x v s).img.stage = s.img.stage ∧ (setSlot x v s).img.stageLen = s.img.stageLen := by
  cases x <;> exact ⟨rfl, rfl⟩

theorem imgCommit_stage (h : ReqHdr) (len : Nat) (s : State) :
    (imgCommit h len s).1.img.stage = s.img.stage ∧ (imgCommit h len s).1.img.stageLen = s.img.stageLen := by
  unfold imgCommit
  split <;> simp [refuse]

theorem imgDropWaiting_stage (cause : Nat) (s : State) :
    (imgDropWaiting cause s).img.stage = s.img.stage ∧ (imgDropWaiting cause s).img.stageLen = s.img.stageLen := by
  simp [imgDropWaiting, id @emit_keep, id @setSlot_stage]

theorem imgCancel_stage (s : State) :
    (imgCancel s).img.stage = s.img.stage ∧ (imgCancel s).img.stageLen = s.img.stageLen := by
  unfold imgCancel
  split <;> simp [id @imgDropWaiting_stage]

theorem imgReject_stage (c : Commit) (b : List Byte) (f : ImgFail) (s : State) :
    (imgReject c b f s).img.stage = s.img.stage ∧ (imgReject c b f s).img.stageLen = s.img.stageLen := by
  simp [imgReject, id @answer_keep, id @emit_keep]

theorem imgPass_stage (c : Commit) (b : List Byte) (s : State) :
    (imgPass c b s).img.stage = s.img.stage ∧ (imgPass c b s).img.stageLen = s.img.stageLen := by
  simp only [imgPass, id @setSlot_stage]
  split <;> simp [id @imgDropWaiting_stage]

/-- What a hot activation makes of the image: the waiting one is in force, and IMGSTAGE is as it was (R59). -/
theorem hotApply_img (b : List Byte) (s : State) :
    (hotApply b s).img.stage = s.img.stage ∧ (hotApply b s).img.stageLen = s.img.stageLen ∧
    (hotApply b s).img.active = s.img.waiting ∧ (hotApply b s).img.pending = .none ∧
    (hotApply b s).img.hotAt = none ∧ (hotApply b s).img.waiting = .sprout := by
  unfold hotApply
  extract_lets c has est lim win rec' host moved cfg s0 s1 s2 s3 s4 x img4 s5 img5 s6
  have h4 : s4.img = s.img := by
    simp [s4, s3, s2, s1, s0, id @mapsLoad_keep, id @hostApply_keep, id @recApply_keep, id @winDiscard_keep,
      id @jumpMarks_keep]
  simp [id @activated_keep, id @nvQueue_keep, s6, img5, s5, img4, x, id @modeAccept_keep, h4]

theorem coldHold_stage (s : State) :
    (coldHold s).img.stage = s.img.stage ∧ (coldHold s).img.stageLen = s.img.stageLen := by
  simp [coldHold, id @bistAbort_keep, id @dbgEnd_keep, id @coldRom_keep]

theorem coldFail_stage (s : State) :
    (coldFail s).img.stage = s.img.stage ∧ (coldFail s).img.stageLen = s.img.stageLen := by
  unfold coldFail
  split <;> simp [id @emit_keep, id @coldRom_keep, id @setSlot_stage]

theorem coldProtect_stage (s : State) :
    (coldProtect s).img.stage = s.img.stage ∧ (coldProtect s).img.stageLen = s.img.stageLen := by
  simp only [coldProtect, id @netChange_keep]
  split <;> simp [id @thermApply_keep]

/-- The models and the topology are in force, and IMGSTAGE is as it was (R60 step 4). -/
theorem coldModels_img (s : State) :
    (coldModels s).img.stage = s.img.stage ∧ (coldModels s).img.stageLen = s.img.stageLen ∧
    (coldModels s).img.coldStep = 4 := by
  simp [coldModels, id @allRefit_keep, id @allThresholds_keep, id @assignRing_keep, id @cellsFollow_keep,
    id @cellsStart_keep, id @cfgWrite_keep, id @handIn2_keep, id @hostApply_keep, id @mapsLoad_keep,
    id @modeAccept_keep, id @nvQueue_keep, id @nvTaken_keep, id @pairClear_keep, id @reassociate_keep,
    id @recApply_keep, id @threshWrite_keep]

theorem imgAbandon_stage (s : State) :
    (imgAbandon s).img.stage = s.img.stage ∧ (imgAbandon s).img.stageLen = s.img.stageLen := by
  unfold imgAbandon
  split <;> simp

/-! ## Start-up -/

theorem slotRead_stage (x : ImgSrc) (ok : Bool) (s : State) :
    (slotRead x ok s).img.stage = s.img.stage ∧ (slotRead x ok s).img.stageLen = s.img.stageLen := by
  simp [slotRead, id @emitIf_keep, id @setSlot_stage]

theorem slotTry_stage (bad : ImgSrc → Option (Nat × Nat)) (xs : List ImgSrc) (s : State) :
    (slotTry bad xs s).2.img.stage = s.img.stage ∧ (slotTry bad xs s).2.img.stageLen = s.img.stageLen := by
  induction xs generalizing s with
  | nil => exact ⟨rfl, rfl⟩
  | cons x xs ih =>
    unfold slotTry
    split
    · exact ⟨rfl, rfl⟩
    · simp [id @ih, slotAbandon, id @emit_keep, id @setSlot_stage]

theorem imgLoad_stage (x : ImgSrc) (netOk romOk : Bool) (s : State) :
    (imgLoad x netOk romOk s).img.stage = s.img.stage ∧ (imgLoad x netOk romOk s).img.stageLen = s.img.stageLen := by
  simp only [imgLoad]
  repeat' split
  all_goals simp [id @nvQueue_keep, id @loadNet_keep, id @emit_keep, id @thermApply_keep]

/-! ## Losses of power and sleep (R52, R547) -/

theorem lDieReset_stage (husk : Bool) (s : State) :
    (lDieReset husk s).img.stage = [] ∧ (lDieReset husk s).img.stageLen = 0 := by
  cases husk <;> exact ⟨rfl, rfl⟩

theorem coreOff_stage (husk : Bool) (s : State) :
    (coreOff husk s).img.stage = [] ∧ (coreOff husk s).img.stageLen = 0 := lDieReset_stage husk s

theorem deviceOff_stage (s : State) : (deviceOff s).img.stage = [] ∧ (deviceOff s).img.stageLen = 0 :=
  lDieReset_stage false s

theorem startBegin_stage (cause : Nat) (s : State) :
    (startBegin cause s).img.stage = [] ∧ (startBegin cause s).img.stageLen = 0 := by
  simp [startBegin, id @bootBegin_keep, id @lDieReset_stage]

theorem coreUp_stage (keyOk aOk bOk sealOpen : Bool) (s : State) :
    (coreUp keyOk aOk bOk sealOpen s).img.stage = [] ∧ (coreUp keyOk aOk bOk sealOpen s).img.stageLen = 0 := by
  simp only [coreUp, id @sealCheck_keep, id @pfwRead_keep]
  split <;> simp [id @keyRegionLost_keep, id @tnsRestore_keep, id @lDieReset_stage]

theorem pfOff_stage (s : State) : (pfOff s).img.stage = [] ∧ (pfOff s).img.stageLen = 0 := coreOff_stage false s

theorem shutEnd_stage (s : State) : (shutEnd s).img.stage = [] ∧ (shutEnd s).img.stageLen = 0 := by
  simp only [shutEnd]
  split
  · exact pfOff_stage s
  · split <;> simp [id @emit_keep, id @coreOff_stage]

theorem pwrReset_stage (s : State) : (pwrReset s).img.stage = [] ∧ (pwrReset s).img.stageLen = 0 := by
  simp [pwrReset, id @bootBegin_keep, id @coreOff_stage]

theorem asleep_stage (s : State) : (asleep s).img.stage = [] ∧ (asleep s).img.stageLen = 0 := ⟨rfl, rfl⟩

theorem powerFail_stagingWf {vsup : Int} {s : State} (hs : stagingWf s) : stagingWf (powerFail vsup s) := by
  unfold powerFail
  split
  · exact hs
  · dsimp only
    split
    · exact stagingWf_of_img (by simp [id @shutBegin_keep]) hs
    · exact stagingWf_of_empty (pfOff_stage _)

theorem railLost_stagingWf {r mv : Nat} {s : State} (hs : stagingWf s) : stagingWf (railLost r mv s) := by
  simp only [railLost]
  split
  · exact stagingWf_of_empty (by simp [id @emit_keep, id @setRail_keep, id @coreOff_stage])
  split
  · exact stagingWf_of_empty (by simp [id @emit_keep, id @setRail_keep, id @coreOff_stage])
  · refine stagingWf_of_img ?_ hs
    repeat' split
    all_goals simp [id @emit_keep, id @setRail_keep, id @vanaLost_keep, id @granLost_keep, id @shipAbandon_keep]

theorem pwrDo_stagingWf {b : Nat} {s : State} (hs : stagingWf s) : stagingWf (pwrDo b s) := by
  by_cases h4 : b = 4
  · exact stagingWf_of_empty (by simp [pwrDo, h4, id @pwrReset_stage])
  · refine stagingWf_of_img ?_ hs
    unfold pwrDo
    repeat' split
    all_goals simp [id @leaveStandby_keep, id @standbyStart_keep, id @sleepStart_keep, id @shipStart_keep]

theorem pwrCtrlPut_stagingWf {op : Nat} {p : Port} {tag : BitVec 16} {v : Word} {s : State} (hs : stagingWf s) :
    stagingWf (pwrCtrlPut op p tag v s) := by
  unfold pwrCtrlPut
  split
  · split
    · exact stagingWf_of_img (by simp [id @bistAbort_keep]) hs
    · exact pwrDo_stagingWf hs
  · exact hs

theorem waitOne_stagingWf {s : State} (q : Nat × Port × BitVec 16 × Nat) (hs : stagingWf s) :
    stagingWf (waitOne s q) := by
  simp only [waitOne]
  split
  · exact pwrDo_stagingWf (stagingWf_of_img (by simp [id @answer_keep]) hs)
  · exact stagingWf_of_img (by simp [id @answer_keep]) hs

/-- What each step of a fold keeps, the fold keeps. -/
theorem foldl_stagingWf {α : Type} {f : State → α → State} (hf : ∀ s a, stagingWf s → stagingWf (f s a)) (l : List α)
    {s : State} (hs : stagingWf s) : stagingWf (l.foldl f s) :=
  List.foldlRecOn l f hs fun t ht a _ => hf t a ht

theorem waitDone_stagingWf {s : State} (hs : stagingWf s) : stagingWf (waitDone s) :=
  foldl_stagingWf (fun _ q h => waitOne_stagingWf q h) _ (stagingWf_of_img (by simp [id @answer_keep]) hs)

/-! ## Register writes and requests -/

theorem putPwr_stagingWf {q : Req} {off : Nat} {v : Word} {s : State} (hs : stagingWf s) :
    stagingWf (putPwr q off v s) := by
  unfold putPwr
  split
  · exact pwrCtrlPut_stagingWf hs
  · refine stagingWf_of_img ?_ hs
    repeat' split
    all_goals simp [id @pwrCfgPut_keep]

theorem putImg_stagingWf {off : Nat} {v : Word} {s : State} (hs : stagingWf s) : stagingWf (putImg off v s) := by
  unfold putImg
  split
  · exact hs
  · have hc : stagingWf (if v.getLsbD 0 then imgCancel s else s) := by
      split
      · exact stagingWf_of_eq (imgCancel_stage s) hs
      · exact hs
    dsimp only
    split
    · exact imgAbortStage_stagingWf hc
    · exact hc

theorem putReg_stagingWf {q : Req} {a : Nat} {v : Word} {s : State} (hs : stagingWf s) :
    stagingWf (putReg q a v s) := by
  by_cases h2 : a / 4096 = 2
  · simpa [putReg, h2] using putPwr_stagingWf hs
  by_cases h5 : a / 4096 = 5
  · simpa [putReg, h5] using putImg_stagingWf hs
  refine stagingWf_of_img ?_ hs
  simp [putReg, h2, h5, id @putAcq_keep, id @putBist_keep, id @putCur_keep, id @putDbg_keep, id @putDrv_keep,
    id @putEst_keep, id @putEvt_keep, id @putHost_keep, id @putHusk_keep, id @putKrn_keep, id @putNvLedg_keep,
    id @putPair_keep, id @putRecW_keep, id @putRing_keep, id @putSec_keep, id @putSys_keep, id @putTherm_keep,
    id @putTime_keep, id @putWin_keep]

theorem writeWords_stagingWf {q : Req} {addr cnt : Nat} {data : List Word} {s : State} (hs : stagingWf s) :
    stagingWf (writeWords q addr cnt data s).1 := by
  unfold writeWords
  split
  · exact hs
  split
  · exact hs
  simp only [writeAll]
  split
  · exact hs
  split
  · exact hs
  split
  · exact hs
  split
  · exact stagingWf_of_img (by simp [refuse, id @noteRefusal_keep]) hs
  · have hw := foldl_stagingWf (f := fun s (e : Nat × Nat × Word) => putReg q e.2.1 e.2.2 s)
      (fun _ _ h => putReg_stagingWf h) (writeOrder (addrWords addr data)) hs
    split <;> exact hw

theorem settle_answer_img (op : Nat) (p : Port) (tag : BitVec 16) (r : Reply) (u : State) :
    (settle (answer op p tag r u)).img = u.img := by
  simp [id @settle_keep, id @answer_keep]

/-- What a request can do to the image: nothing, or what its effect does (R491 to R493). -/
theorem hostRequest_img_cases (op : Nat) (h : ReqHdr) (f : State → State × Reply) (s : State) :
    (hostRequest op h f s).img = s.img ∨
      ∃ u : State, u.img = s.img ∧ (hostRequest op h f s).img = (f u).1.img := by
  unfold hostRequest
  split
  · unfold hostFrame
    split
    · exact .inl (by simp [id @answer_keep, id @noteAsk_keep, id @dropPart_keep, id @noteFrame_keep])
    split
    · exact .inl (by simp [id @holdSeg_keep, id @noteFrame_keep])
    unfold hostExec
    split
    · exact .inl (by simp [id @dropPart_keep, id @noteFrame_keep])
    split
    · exact .inl (by simp [id @settlePins_keep, id @txPush_keep, id @dropPart_keep, id @noteFrame_keep])
    dsimp only
    split
    · exact .inl (by simp [id @settle_keep, id @answer_keep, id @noteAsk_keep, id @dropPart_keep, id @noteFrame_keep])
    · refine .inr ⟨_, ?_, settle_answer_img ..⟩
      simp [id @noteAsk_keep, id @dropPart_keep, id @noteFrame_keep]
  · exact .inl (by simp [id @linkNote_keep])

/-- A request whose effect keeps the staged image in form keeps it so. -/
theorem hostRequest_stagingWf {op : Nat} {h : ReqHdr} {f : State → State × Reply} {s : State}
    (hf : ∀ u, stagingWf u → stagingWf (f u).1) (hs : stagingWf s) : stagingWf (hostRequest op h f s) := by
  obtain e | ⟨u, hu, e⟩ := hostRequest_img_cases op h f s
  · exact stagingWf_of_img e hs
  · exact stagingWf_of_img e (hf u (stagingWf_of_img hu hs))

theorem regReq_stagingWf {p : Bool} {h : ReqHdr} {m : WrMeas} {a : Nat} {f : Word → Word} {s : State}
    (hs : stagingWf s) : stagingWf (regReq p h m a f s) :=
  hostRequest_stagingWf (fun _ hu => writeWords_stagingWf hu) hs

/-! ## The commands that change the image -/

theorem settle_stage (s : State) :
    (settle s).img.stage = s.img.stage ∧ (settle s).img.stageLen = s.img.stageLen := by
  simp [id @settle_keep]

theorem settle_stagingWf {s : State} (hs : stagingWf s) : stagingWf (settle s) := stagingWf_of_eq (settle_stage s) hs

theorem settle_stagingWf_of_empty {s : State} (e : s.img.stage = [] ∧ s.img.stageLen = 0) : stagingWf (settle s) :=
  settle_stagingWf (stagingWf_of_empty e)

section
variable {s t : State}

theorem execImgValidationDone_stage (h : execImgValidationDone s = .next t) :
    t.img.stage = s.img.stage ∧ t.img.stageLen = s.img.stageLen := by
  obtain rfl := Host.Outcome.next.inj h
  dsimp only
  repeat' split
  all_goals simp [id @settle_stage, id @imgReject_stage, id @imgPass_stage]

theorem execImgSlotWriteDone_stage {ok : Bool} (h : execImgSlotWriteDone ok s = .next t) :
    t.img.stage = s.img.stage ∧ t.img.stageLen = s.img.stageLen := by
  obtain rfl := Host.Outcome.next.inj h
  dsimp only
  repeat' split
  all_goals simp [id @settle_stage, id @imgReject_stage, id @answer_keep, id @emit_keep, id @setSlot_stage]

theorem execHotActivation_stage (h : execHotActivation s = .next t) :
    t.img.stage = s.img.stage ∧ t.img.stageLen = s.img.stageLen := by
  obtain rfl := Host.Outcome.next.inj h
  repeat' split
  all_goals simp [id @settle_stage, id @hotApply_img]

theorem execColdActivationHold_stage (h : execColdActivationHold s = .next t) :
    t.img.stage = s.img.stage ∧ t.img.stageLen = s.img.stageLen := by
  obtain rfl := Host.Outcome.next.inj h
  dsimp only
  repeat' split
  all_goals simp [id @settle_stage, id @checkpoint_keep, id @coldHold_stage]

theorem execColdActivationLoadProtection_stage {intact : Bool}
    (h : execColdActivationLoadProtection intact s = .next t) :
    t.img.stage = s.img.stage ∧ t.img.stageLen = s.img.stageLen := by
  obtain rfl := Host.Outcome.next.inj h
  repeat' split
  all_goals simp [id @settle_stage, id @coldProtect_stage, id @coldFail_stage]

theorem execColdActivationEnumerate_stage (h : execColdActivationEnumerate s = .next t) :
    t.img.stage = s.img.stage ∧ t.img.stageLen = s.img.stageLen := by
  obtain rfl := Host.Outcome.next.inj h
  repeat' split
  all_goals simp [id @modRing_keep]

theorem execColdActivationLoadModels_stage {intact : Bool} (h : execColdActivationLoadModels intact s = .next t) :
    t.img.stage = s.img.stage ∧ t.img.stageLen = s.img.stageLen := by
  obtain rfl := Host.Outcome.next.inj h
  repeat' split
  all_goals simp [id @settle_stage, id @coldModels_img, id @coldFail_stage]

theorem execColdActivationComplete_stage (h : execColdActivationComplete s = .next t) :
    t.img.stage = s.img.stage ∧ t.img.stageLen = s.img.stageLen := by
  obtain rfl := Host.Outcome.next.inj h
  dsimp only
  repeat' split
  all_goals simp [id @settle_stage, id @rearmClose_keep, id @activated_keep]

theorem execStartupImageSelect_stage {aOk bOk : Bool} {fa fb : Option (Nat × Nat)} {netOk romOk : Bool}
    (h : execStartupImageSelect aOk bOk fa fb netOk romOk s = .next t) :
    t.img.stage = s.img.stage ∧ t.img.stageLen = s.img.stageLen := by
  obtain rfl := Host.Outcome.next.inj h
  dsimp only
  repeat' split
  all_goals simp [id @settle_stage, id @linkLoad_keep, id @imgLoad_stage, id @emit_keep, id @slotTry_stage,
    id @slotRead_stage]

theorem execShutdownBurstDone_stage (h : execShutdownBurstDone s = .next t) :
    t.img.stage = s.img.stage ∧ t.img.stageLen = s.img.stageLen := by
  obtain rfl := Host.Outcome.next.inj h
  dsimp only
  repeat' split
  all_goals simp [id @imgAbandon_stage, id @nvAbandon_keep, id @lgWriteAll_keep, id @shutRecord_keep]

theorem execStewardReset_stage {lockstep : Bool} (h : execStewardReset lockstep s = .next t) :
    t.img.stage = s.img.stage ∧ t.img.stageLen = s.img.stageLen := by
  obtain rfl := Host.Outcome.next.inj h
  dsimp only
  split
  · exact ⟨rfl, rfl⟩
  · simp [id @settle_stage, id @emit_keep, id @phaseStart_keep, id @imgAbandon_stage, id @nvAbandon_keep,
      id @winDiscard_keep, id @bootBegin_keep]

variable (hs : stagingWf s)
include hs

theorem execVsupValid_stagingWf {vsup : Nat} (h : execVsupValid vsup s = .next t) : stagingWf t := by
  obtain rfl := Host.Outcome.next.inj h
  split
  · exact hs
  split
  · exact settle_stagingWf_of_empty (startBegin_stage _ s)
  split
  · exact settle_stagingWf_of_empty (startBegin_stage 2 s)
  · exact hs

theorem execStartupCoreUp_stagingWf {keyOk aOk bOk sealOpen : Bool}
    (h : execStartupCoreUp keyOk aOk bOk sealOpen s = .next t) : stagingWf t := by
  obtain rfl := Host.Outcome.next.inj h
  split
  · exact settle_stagingWf_of_empty (coreUp_stage ..)
  · exact hs

theorem execShutdownRecordWritten_stagingWf {main pin : Bool} (h : execShutdownRecordWritten main pin s = .next t) :
    stagingWf t := by
  obtain rfl := Host.Outcome.next.inj h
  split
  · exact hs
  · exact settle_stagingWf_of_empty (shutEnd_stage _)

theorem execBrownOut_stagingWf {vsup : Nat} (h : execBrownOut vsup s = .next t) : stagingWf t := by
  obtain rfl := Host.Outcome.next.inj h
  split
  · exact settle_stagingWf_of_empty (deviceOff_stage s)
  · exact hs

theorem execPowerFailWarning_stagingWf {vsup : Nat} {fell : Bool} (h : execPowerFailWarning vsup fell s = .next t) :
    stagingWf t := by
  obtain rfl := Host.Outcome.next.inj h
  split
  · exact settle_stagingWf (powerFail_stagingWf hs)
  · exact hs

theorem execOvervoltage_stagingWf {vsup : Nat} (h : execOvervoltage vsup s = .next t) : stagingWf t := by
  obtain rfl := Host.Outcome.next.inj h
  split
  · exact settle_stagingWf (powerFail_stagingWf hs)
  · exact hs

theorem execRailFault_stagingWf {r mv : Nat} (h : execRailFault r mv s = .next t) : stagingWf t := by
  obtain rfl := Host.Outcome.next.inj h
  split
  · exact settle_stagingWf (railLost_stagingWf hs)
  · exact hs

theorem execShipPowerDown_stagingWf (h : execShipPowerDown s = .next t) : stagingWf t := by
  obtain rfl := Host.Outcome.next.inj h
  split
  · exact settle_stagingWf_of_empty (deviceOff_stage s)
  · exact hs

theorem execShipWake_stagingWf {btn : Bool} {ns : Nat} (h : execShipWake btn ns s = .next t) : stagingWf t := by
  obtain rfl := Host.Outcome.next.inj h
  split
  · exact hs
  split
  · exact settle_stagingWf_of_empty (startBegin_stage 5 _)
  split
  · exact settle_stagingWf_of_empty (startBegin_stage 5 s)
  · exact hs

theorem execBistRestored_stagingWf {steps : Nat} {fails : List (Nat × Nat)}
    (h : execBistRestored steps fails s = .next t) : stagingWf t := by
  obtain rfl := Host.Outcome.next.inj h
  split
  · exact hs
  · refine settle_stagingWf (waitDone_stagingWf (stagingWf_of_img ?_ hs))
    simp [id @bistEnd_keep, id @bistFails_keep]

theorem execImgChunk_stagingWf {hd : ReqHdr} {off : Nat} {data : List Byte}
    (h : execImgChunk hd off data s = .next t) : stagingWf t := by
  obtain rfl := Host.Outcome.next.inj h
  exact hostRequest_stagingWf (fun _ hu => imgChunk_stagingWf hu) hs

theorem execImgCommit_stagingWf {hd : ReqHdr} {len : Nat} (h : execImgCommit hd len s = .next t) : stagingWf t := by
  obtain rfl := Host.Outcome.next.inj h
  exact hostRequest_stagingWf (fun u hu => stagingWf_of_eq (imgCommit_stage hd len u) hu) hs

theorem execWrite_stagingWf {hd : ReqHdr} {addr : Word} {cnt : BitVec 16} {data : List Word} {m : WrMeas}
    (h : execWrite hd addr cnt data m s = .next t) : stagingWf t := by
  obtain rfl := Host.Outcome.next.inj h
  exact hostRequest_stagingWf (fun _ hu => writeWords_stagingWf hu) hs

theorem execWriteP_stagingWf {hd : ReqHdr} {addr : Word} {cnt : BitVec 16} {data : List Word} {m : WrMeas}
    (h : execWriteP hd addr cnt data m s = .next t) : stagingWf t := by
  obtain rfl := Host.Outcome.next.inj h
  exact hostRequest_stagingWf (fun _ hu => writeWords_stagingWf hu) hs

theorem execSleepFlushDone_stagingWf (h : execSleepFlushDone s = .next t) : stagingWf t := by
  obtain rfl := Host.Outcome.next.inj h
  split
  · refine settle_stagingWf ?_
    unfold sleepStep
    split
    · exact stagingWf_of_img (by simp [id @wakeStart_keep, id @emit_keep]) hs
    · exact stagingWf_of_empty (asleep_stage s)
  · exact hs

end

/-! ## Every command -/

/-- What every step keeps: IMGSTAGE in form and within its window (R52), the MID and the device key (R525). -/
@[simp] def StepKeeps (s t : State) : Prop :=
  (stagingWf s → stagingWf t) ∧ t.sec.mid = s.sec.mid ∧ t.sec.devKey = s.sec.devKey

theorem regReq_stepKeeps {p : Bool} {h : ReqHdr} {m : WrMeas} {a : Nat} {f : Word → Word} {s t : State}
    (e : Host.Outcome.next (regReq p h m a f s) = (.next t : Host.Outcome State Fault Refusal)) : StepKeeps s t := by
  obtain rfl := Host.Outcome.next.inj e
  exact ⟨regReq_stagingWf, by simp [id @regReq_keep]⟩

theorem exec_stepKeeps {c : Instr} {s t : State} (h : exec c s = .next t) : StepKeeps s t := by
  cases c with
  | frameBoundary => simp [stagingWf, execFrameBoundary_keep h]
  | acquisitionCutOff => simp [stagingWf, execAcquisitionCutOff_keep h]
  | commitPoint => simp [stagingWf, execCommitPoint_keep h]
  | summaryStage => simp [stagingWf, execSummaryStage_keep h]
  | startupPDieUp => simp [stagingWf, execStartupPDieUp_keep h]
  | strapLatch _ _ _ p0 p1 _ => simp [stagingWf, execStrapLatch_keep (u3 := p0) (u4 := p1) h]
  | startupRings => simp [stagingWf, execStartupRings_keep h]
  | startupSteward => simp [stagingWf, execStartupSteward_keep h]
  | startupEstimate => simp [stagingWf, execStartupEstimate_keep h]
  | startupFull => simp [stagingWf, execStartupFull_keep h]
  | startupLate => simp [stagingWf, execStartupLate_keep h]
  | sproutStatusFrame => simp [stagingWf, execSproutStatusFrame_keep h]
  | ringStart => simp [stagingWf, execRingStart_keep h]
  | enumTokenA => simp [stagingWf, execEnumTokenA_keep h]
  | enumTokenB => simp [stagingWf, execEnumTokenB_keep h]
  | enumRead => simp [stagingWf, execEnumRead_keep h]
  | enumMeasure => simp [stagingWf, execEnumMeasure_keep h]
  | enumAuthenticate => simp [stagingWf, execEnumAuthenticate_keep h]
  | enumFirstTrig => simp [stagingWf, execEnumFirstTrig_keep h]
  | collectSend => simp [stagingWf, execCollectSend_keep h]
  | collectSlotReceive => simp [stagingWf, execCollectSlotReceive_keep h]
  | alarmReceive => simp [stagingWf, execAlarmReceive_keep h]
  | mgmtExchange => simp [stagingWf, execMgmtExchange_keep h]
  | delayMeasurement => simp [stagingWf, execDelayMeasurement_keep h]
  | nodeLost => simp [stagingWf, execNodeLost_keep h]
  | linkUp => simp [stagingWf, execLinkUp_keep h]
  | liveInsertCount => simp [stagingWf, execLiveInsertCount_keep h]
  | liveInsertConfigure => simp [stagingWf, execLiveInsertConfigure_keep h]
  | liveInsertAuthenticate => simp [stagingWf, execLiveInsertAuthenticate_keep h]
  | liveInsertUnwrap => simp [stagingWf, execLiveInsertUnwrap_keep h]
  | nodeChallenge => simp [stagingWf, execNodeChallenge_keep h]
  | nodeTagCheck => simp [stagingWf, execNodeTagCheck_keep h]
  | balanceDecision => simp [stagingWf, execBalanceDecision_keep h]
  | balNodeFault => simp [stagingWf, execBalNodeFault_keep h]
  | dieTempTimeout => simp [stagingWf, execDieTempTimeout_keep h]
  | coupIdStart => simp [stagingWf, execCoupIdStart_keep h]
  | coupIdComplete => simp [stagingWf, execCoupIdComplete_keep h]
  | coupIdGiveUp => simp [stagingWf, execCoupIdGiveUp_keep h]
  | owTestRead => simp [stagingWf, execOwTestRead_keep h]
  | sleepPatrol => simp [stagingWf, execSleepPatrol_keep h]
  | patrolRecheck => simp [stagingWf, execPatrolRecheck_keep h]
  | currentSample => simp [stagingWf, execCurrentSample_keep h]
  | calTrigger => simp [stagingWf, execCalTrigger_keep h]
  | calSwitch => simp [stagingWf, execCalSwitch_keep h]
  | calApply => simp [stagingWf, execCalApply_keep h]
  | calReturn => simp [stagingWf, execCalReturn_keep h]
  | curCalOverdue => simp [stagingWf, execCurCalOverdue_keep h]
  | channelStop => simp [stagingWf, execChannelStop_keep h]
  | curDisagreeSet => simp [stagingWf, execCurDisagreeSet_keep h]
  | curDisagreeClear => simp [stagingWf, execCurDisagreeClear_keep h]
  | comparatorCrossing => simp [stagingWf, execComparatorCrossing_keep h]
  | cmpCheckDone => simp [stagingWf, execCmpCheckDone_keep h]
  | tripLatchSet => simp [stagingWf, execTripLatchSet_keep h]
  | huskSlotAssert => simp [stagingWf, execHuskSlotAssert_keep h]
  | huskSlotClear => simp [stagingWf, execHuskSlotClear_keep h]
  | huskTimerExpiry => simp [stagingWf, execHuskTimerExpiry_keep h]
  | sequencerStart => simp [stagingWf, execSequencerStart_keep h]
  | sequencerWaitMet => simp [stagingWf, execSequencerWaitMet_keep h]
  | sequencerTimeout => simp [stagingWf, execSequencerTimeout_keep h]
  | sequencerAbort => simp [stagingWf, execSequencerAbort_keep h]
  | huskDivergence => simp [stagingWf, execHuskDivergence_keep h]
  | huskDivergeRecord => simp [stagingWf, execHuskDivergeRecord_keep h]
  | huskCrcCheck => simp [stagingWf, execHuskCrcCheck_keep h]
  | netlistLoad => simp [stagingWf, execNetlistLoad_keep h]
  | graceExpiry => simp [stagingWf, execGraceExpiry_keep h]
  | keyRearm => simp [stagingWf, execKeyRearm_keep h]
  | economyEntry => simp [stagingWf, execEconomyEntry_keep h]
  | driveFault => simp [stagingWf, execDriveFault_keep h]
  | openCoilFault => simp [stagingWf, execOpenCoilFault_keep h]
  | fastOpenTimeout => simp [stagingWf, execFastOpenTimeout_keep h]
  | weldCheckStart => simp [stagingWf, execWeldCheckStart_keep h]
  | weldCheckEvaluate => simp [stagingWf, execWeldCheckEvaluate_keep h]
  | hvilFault => simp [stagingWf, execHvilFault_keep h]
  | hvilFaultClear => simp [stagingWf, execHvilFaultClear_keep h]
  | keyQualify => simp [stagingWf, execKeyQualify_keep h]
  | inputChatter => simp [stagingWf, execInputChatter_keep h]
  | chgDetQualify => simp [stagingWf, execChgDetQualify_keep h]
  | kernelStepStart => simp [stagingWf, execKernelStepStart_keep h]
  | endStep => simp [stagingWf, execEnd_keep h]
  | fadd => simp [stagingWf, execFadd_keep h]
  | fsub => simp [stagingWf, execFsub_keep h]
  | fmul => simp [stagingWf, execFmul_keep h]
  | fma => simp [stagingWf, execFma_keep h]
  | fdiv => simp [stagingWf, execFdiv_keep h]
  | fsqrt => simp [stagingWf, execFsqrt_keep h]
  | fexp => simp [stagingWf, execFexp_keep h]
  | fmin => simp [stagingWf, execFmin_keep h]
  | fmax => simp [stagingWf, execFmax_keep h]
  | fabs => simp [stagingWf, execFabs_keep h]
  | clamp => simp [stagingWf, execClamp_keep h]
  | cmp => simp [stagingWf, execCmp_keep h]
  | sel => simp [stagingWf, execSel_keep h]
  | movi => simp [stagingWf, execMovi_keep h]
  | cvt => simp [stagingWf, execCvt_keep h]
  | ldi => simp [stagingWf, execLdi_keep h]
  | lds => simp [stagingWf, execLds_keep h]
  | sts => simp [stagingWf, execSts_keep h]
  | out => simp [stagingWf, execOut_keep h]
  | tbl2 => simp [stagingWf, execTbl2_keep h]
  | skip => simp [stagingWf, execSkip_keep h]
  | handOver => simp [stagingWf, execHandOver_keep h]
  | dbgSessionTimeout => simp [stagingWf, execDbgSessionTimeout_keep h]
  | dbgBreakpoint => simp [stagingWf, execDbgBreakpoint_keep h]
  | xtalLost => simp [stagingWf, execXtalLost_keep h]
  | xtalRelock => simp [stagingWf, execXtalRelock_keep h]
  | trefFault => simp [stagingWf, execTrefFault_keep h]
  | tnsSaveWrite => simp [stagingWf, execTnsSaveWrite_keep h]
  | sync => simp [stagingWf, execSync_keep h]
  | syncHoldover => simp [stagingWf, execSyncHoldover_keep h]
  | timeTnsLatch => simp [stagingWf, execTimeTnsLatch_keep h]
  | thermalMeasurement => simp [stagingWf, execThermalMeasurement_keep h]
  | thermalWarning => simp [stagingWf, execThermalWarning_keep h]
  | thermalWarningEnd => simp [stagingWf, execThermalWarningEnd_keep h]
  | thermalThrottle => simp [stagingWf, execThermalThrottle_keep h]
  | thermalThrottleEnd => simp [stagingWf, execThermalThrottleEnd_keep h]
  | failHoldExpiry => simp [stagingWf, execFailHoldExpiry_keep h]
  | thermalShutdown => simp [stagingWf, execThermalShutdown_keep h]
  | thermalRestart => simp [stagingWf, execThermalRestart_keep h]
  | nvBurstDone => simp [stagingWf, execNvBurstDone_keep h]
  | nvWriteDone => simp [stagingWf, execNvWriteDone_keep h]
  | lastGaspDone => simp [stagingWf, execLastGaspDone_keep h]
  | ledgerCheckpoint => simp [stagingWf, execLedgerCheckpoint_keep h]
  | podCheckpoint => simp [stagingWf, execPodCheckpoint_keep h]
  | podCheckpointConfirmed => simp [stagingWf, execPodCheckpointConfirmed_keep h]
  | statementReady => simp [stagingWf, execStatementReady_keep h]
  | ledgBlockLatch => simp [stagingWf, execLedgBlockLatch_keep h]
  | cellRecWrite => simp [stagingWf, execCellRecWrite_keep h]
  | ztabWrite => simp [stagingWf, execZtabWrite_keep h]
  | tallyWrite => simp [stagingWf, execTallyWrite_keep h]
  | rainflowFlush => simp [stagingWf, execRainflowFlush_keep h]
  | dwellFlush => simp [stagingWf, execDwellFlush_keep h]
  | eventAdmit => simp [stagingWf, execEventAdmit_keep h]
  | admissionTimeout => simp [stagingWf, execAdmissionTimeout_keep h]
  | recordComplete => simp [stagingWf, execRecordComplete_keep h]
  | chaffSummary => simp [stagingWf, execChaffSummary_keep h]
  | granaryProgramDone => simp [stagingWf, execGranaryProgramDone_keep h]
  | granaryEraseDone => simp [stagingWf, execGranaryEraseDone_keep h]
  | granaryTimeout => simp [stagingWf, execGranaryTimeout_keep h]
  | granaryRestart => simp [stagingWf, execGranaryRestart_keep h]
  | recSeqLatch => simp [stagingWf, execRecSeqLatch_keep h]
  | read => simp [stagingWf, execRead_keep h]
  | unknownOp => simp [stagingWf, execUnknownOp_keep h]
  | streamOpen => simp [stagingWf, execStreamOpen_keep h]
  | streamClose => simp [stagingWf, execStreamClose_keep h]
  | streamSnapshot => simp [stagingWf, execStreamSnapshot_keep h]
  | streamPartSend => simp [stagingWf, execStreamPartSend_keep h]
  | challengeAttest => simp [stagingWf, execChallengeAttest_keep h]
  | challengeKeyLoad => simp [stagingWf, execChallengeKeyLoad_keep h]
  | join => simp [stagingWf, execJoin_keep h]
  | joinRetry => simp [stagingWf, execJoinRetry_keep h]
  | assign => simp [stagingWf, execAssign_keep h]
  | keepAlive => simp [stagingWf, execKeepAlive_keep h]
  | spiTransaction => simp [stagingWf, execSpiTransaction_keep h]
  | spiEarlyEnd => simp [stagingWf, execSpiEarlyEnd_keep h]
  | segmentTimeout => simp [stagingWf, execSegmentTimeout_keep h]
  | canBusOff => simp [stagingWf, execCanBusOff_keep h]
  | presBtnPress => simp [stagingWf, execPresBtnPress_keep h]
  | presBtnRelease => simp [stagingWf, execPresBtnRelease_keep h]
  | presStuck => simp [stagingWf, execPresStuck_keep h]
  | presStuckClear => simp [stagingWf, execPresStuckClear_keep h]
  | presenceExpiry => simp [stagingWf, execPresenceExpiry_keep h]
  | sealBreak => simp [stagingWf, execSealBreak_keep h]
  | sealRestored => simp [stagingWf, execSealRestored_keep h]
  | pfwArm => simp [stagingWf, execPfwArm_keep h]
  | railRecovery => simp [stagingWf, execRailRecovery_keep h]
  | vcoreRetry => simp [stagingWf, execVcoreRetry_keep h]
  | vcoreReturn => simp [stagingWf, execVcoreReturn_keep h]
  | autoSleep => simp [stagingWf, execAutoSleep_keep h]
  | sleepStopAcquisition => simp [stagingWf, execSleepStopAcquisition_keep h]
  | sleepSaveDone => simp [stagingWf, execSleepSaveDone_keep h]
  | sleepWake => simp [stagingWf, execSleepWake_keep h]
  | wakeRailsReady => simp [stagingWf, execWakeRailsReady_keep h]
  | wakeRingsReady => simp [stagingWf, execWakeRingsReady_keep h]
  | wakeModelsLoaded => simp [stagingWf, execWakeModelsLoaded_keep h]
  | wakeFullService => simp [stagingWf, execWakeFullService_keep h]
  | wakeOutTimeout => simp [stagingWf, execWakeOutTimeout_keep h]
  | shipStringsOpen => simp [stagingWf, execShipStringsOpen_keep h]
  | shipSaved => simp [stagingWf, execShipSaved_keep h]
  | bistConditionLost => simp [stagingWf, execBistConditionLost_keep h]
  | bistRegionDone => simp [stagingWf, execBistRegionDone_keep h]
  | bistBackground => simp [stagingWf, execBistBackground_keep h]
  | errqHandle => simp [stagingWf, execErrqHandle_keep h]
  | errqPreempt => simp [stagingWf, execErrqPreempt_keep h]
  | charStepDone => simp [stagingWf, execCharStepDone_keep h]
  | charStepTimeout => simp [stagingWf, execCharStepTimeout_keep h]
  | charCurrentTimeout => simp [stagingWf, execCharCurrentTimeout_keep h]
  | winStepEvent => simp [stagingWf, execWinStepEvent_keep h]
  | winWindowClose => simp [stagingWf, execWinWindowClose_keep h]
  | winTailEnd => simp [stagingWf, execWinTailEnd_keep h]
  | channelRunning => simp [stagingWf, execChannelRunning_keep h]
  | testEnChange => simp [stagingWf, execTestEnChange_keep h]
  | wakeControllerArm => simp [stagingWf, execWakeControllerArm_keep h]
  | sysModeWrite | imgAbortStage | imgCancel | ringEnumRequest | ringMeasRequest | acqCoupId | acqOwNow |
  curChCfgWrite | curChFsWrite | curChOfsWrite | curCalNow | cmpTest | huskCloseReq | huskOpen | huskTripClr |
  drvWeldCheck | pairRelease | dbgSessionOpen | dbgSessionClose | dbgHalt | dbgResume | dbgStep | dbgRegisterWrite |
  timeResyncRequest | syncEnWrite | timeWallSet | thermHoldClr | ledgStmt | ledgNonceWrite | ledgEraAdv | nvFlush |
  recChaffClr | recFlush | recFormat | recPinAck | hostBudgetWrite | presClose | secAdopt | pwrStandby | pwrRun |
  pwrSleep | pwrWakeOutClr | pwrShip | pwrReset | pwrCfgWrite | bistStart | bistAbort | bistRepairWrite |
  evtPendClear | evtIrqmapWrite | evtS3Ack | reserveRelease | reserveHold | ccReseed | estCharStart | estCharAbort |
  winClrCell | winFreeze =>
    exact regReq_stepKeeps h
  | imgChunk => exact ⟨fun hs => execImgChunk_stagingWf hs h, by simp [execImgChunk_keep h]⟩
  | imgCommit => exact ⟨fun hs => execImgCommit_stagingWf hs h, by simp [execImgCommit_keep h]⟩
  | imgValidationDone => simp [stagingWf, execImgValidationDone_stage h, execImgValidationDone_keep h]
  | imgSlotWriteDone => simp [stagingWf, execImgSlotWriteDone_stage h, execImgSlotWriteDone_keep h]
  | hotActivation => simp [stagingWf, execHotActivation_stage h, execHotActivation_keep h]
  | coldActivationHold => simp [stagingWf, execColdActivationHold_stage h, execColdActivationHold_keep h]
  | coldActivationLoadProtection =>
    simp [stagingWf, execColdActivationLoadProtection_stage h, execColdActivationLoadProtection_keep h]
  | coldActivationEnumerate => simp [stagingWf, execColdActivationEnumerate_stage h, execColdActivationEnumerate_keep h]
  | coldActivationLoadModels =>
    simp [stagingWf, execColdActivationLoadModels_stage h, execColdActivationLoadModels_keep h]
  | coldActivationComplete => simp [stagingWf, execColdActivationComplete_stage h, execColdActivationComplete_keep h]
  | vsupValid => exact ⟨fun hs => execVsupValid_stagingWf hs h, by simp [execVsupValid_keep h]⟩
  | startupCoreUp => exact ⟨fun hs => execStartupCoreUp_stagingWf hs h, by simp [execStartupCoreUp_keep h]⟩
  | startupImageSelect => simp [stagingWf, execStartupImageSelect_stage h, execStartupImageSelect_keep h]
  | shutdownBurstDone => simp [stagingWf, execShutdownBurstDone_stage h, execShutdownBurstDone_keep h]
  | shutdownRecordWritten =>
    exact ⟨fun hs => execShutdownRecordWritten_stagingWf hs h, by simp [execShutdownRecordWritten_keep h]⟩
  | write => exact ⟨fun hs => execWrite_stagingWf hs h, by simp [execWrite_keep h]⟩
  | writeP => exact ⟨fun hs => execWriteP_stagingWf hs h, by simp [execWriteP_keep h]⟩
  | brownOut => exact ⟨fun hs => execBrownOut_stagingWf hs h, by simp [execBrownOut_keep h]⟩
  | powerFailWarning => exact ⟨fun hs => execPowerFailWarning_stagingWf hs h, by simp [execPowerFailWarning_keep h]⟩
  | overvoltage => exact ⟨fun hs => execOvervoltage_stagingWf hs h, by simp [execOvervoltage_keep h]⟩
  | railFault => exact ⟨fun hs => execRailFault_stagingWf hs h, by simp [execRailFault_keep h]⟩
  | sleepFlushDone => exact ⟨fun hs => execSleepFlushDone_stagingWf hs h, by simp [execSleepFlushDone_keep h]⟩
  | shipPowerDown => exact ⟨fun hs => execShipPowerDown_stagingWf hs h, by simp [execShipPowerDown_keep h]⟩
  | shipWake => exact ⟨fun hs => execShipWake_stagingWf hs h, by simp [execShipWake_keep h]⟩
  | bistRestored => exact ⟨fun hs => execBistRestored_stagingWf hs h, by simp [execBistRestored_keep h]⟩
  | stewardReset => simp [stagingWf, execStewardReset_stage h, execStewardReset_keep h]

/-- Settles O4: each command keeps the form and the OTP; a tick changes neither the image nor the trust block. -/
theorem stepsKeep : Obligations.StepsKeep := by
  intro s t hs h
  unfold step at h
  split at h
  · obtain rfl := Host.Outcome.next.inj h
    exact ⟨stagingWf_of_img (by simp [id @tick_keep]) hs, by simp [id @tick_keep]⟩
  · obtain ⟨hwf, hmid, hkey⟩ := exec_stepKeeps h
    exact ⟨hwf hs, hmid, hkey⟩

/-- Settles O3: the state after reset holds nothing but default values. -/
theorem resetStaging : Obligations.ResetStaging :=
  ⟨stagingWf_of_empty ⟨rfl, rfl⟩, fun _ => rfl, rfl⟩

end Sys2Proof.Machine
end

section
/-! PROOFS. The upload of an image (R49, R50, R52, R53, R57): what a chunk stages, what a commit fixes, how its validation
ends and what its slot write leaves. -/

namespace Sys2Proof.Machine

/-! ## Slots -/

/-- A slot reads what it was last put to. -/
@[simp] theorem slotOf_setSlot (x : ImgSrc) (v : Slot) (s : State) : slotOf (setSlot x v s) x = v := by
  cases x <;> rfl

theorem slotOf_of_img {s t : State} (e : t.img = s.img) (x : ImgSrc) : slotOf t x = slotOf s x := by
  simp [slotOf, e]

@[simp] theorem slotOf_settle (s : State) (x : ImgSrc) : slotOf (settle s) x = slotOf s x :=
  slotOf_of_img (by simp [id @settle_keep]) x

@[simp] theorem slotOf_answer (op : Nat) (p : Port) (tag : BitVec 16) (r : Reply) (s : State) (x : ImgSrc) :
    slotOf (answer op p tag r s) x = slotOf s x := slotOf_of_img (by simp [id @answer_keep]) x

@[simp] theorem slotOf_emit (code : Nat) (pay : List Byte) (s : State) (ix : Nat) (x : ImgSrc) :
    slotOf (emit code pay s ix) x = slotOf s x := slotOf_of_img (by simp [id @emit_keep]) x

/-- Putting a slot changes nothing else of the image that a commit or an activation turns on. -/
theorem setSlot_img (x : ImgSrc) (v : Slot) (s : State) :
    (setSlot x v s).img.state = s.img.state ∧ (setSlot x v s).img.err = s.img.err ∧
    (setSlot x v s).img.errSect = s.img.errSect ∧ (setSlot x v s).img.errLoc = s.img.errLoc ∧
    (setSlot x v s).img.commit = s.img.commit ∧ (setSlot x v s).img.coldStep = s.img.coldStep ∧
    (setSlot x v s).img.coldBack = s.img.coldBack := by
  cases x <;> simp [setSlot]

/-! ## Chunks -/

/-- The bytes put lie at their offset, over what lay there. -/
theorem get_stagePut (o : Nat) (bs : List Byte) (t : Tab Byte) (i : Nat) :
    Tab.get 0 (stagePut o bs t) i = if o ≤ i ∧ i < o + bs.length then bs.getD (i - o) 0 else Tab.get 0 t i := by
  induction bs generalizing o t with
  | nil =>
    have hno : ¬ (o ≤ i ∧ i < o + ([] : List Byte).length) := by simp
    rw [if_neg hno, stagePut]
  | cons b bs ih =>
    rw [stagePut, ih, Tab.get_set, List.length_cons]
    rcases Nat.lt_trichotomy i o with hlt | rfl | hgt
    · rw [if_neg (by omega), if_neg (by omega), if_neg (by omega)]
    · rw [if_neg (by omega), if_pos rfl, if_pos (by omega), Nat.sub_self, List.getD_cons_zero]
    · rw [show i - o = (i - (o + 1)) + 1 by omega, List.getD_cons_succ, if_neg (show ¬ i = o by omega)]
      simp only [show (o + 1 ≤ i ∧ i < o + 1 + bs.length) ↔ (o ≤ i ∧ i < o + (bs.length + 1)) by omega]

theorem imgChunk_staged {off : Nat} {data : List Byte} {s : State} (hc : commitBusy s = false) (ho : off % 4 = 0)
    (hl : data.length % 4 = 0) (hmax : off + data.length ≤ 2097152) :
    (imgChunk off data s).1.img.stage = stagePut off data s.img.stage := by
  have hfit : ¬ off + data.length > 2097152 := by omega
  simp [imgChunk, hc, ho, hl, hfit, accept]

@[simp] theorem commitBusy_reqStart (op : Nat) (h : ReqHdr) (s : State) :
    commitBusy (reqStart op h s) = commitBusy s := by
  simp [commitBusy, id @reqStart_keep]

/-- A request taken as new completes, and of the image it leaves what its effect leaves. -/
theorem exec_request_img {c : Instr} {op : Nat} {h : ReqHdr} {f : State → State × Reply} {s : State}
    (hx : exec c s = .next (hostRequest op h f s)) (hf : freshReq op h s = true) :
    ∃ t, exec c s = .next t ∧ t.img = (f (reqStart op h s)).1.img :=
  ⟨_, by rw [hx, hostRequest_fresh f hf], settle_answer_img ..⟩

theorem imgChunk_stages {h : ReqHdr} {off : Nat} {data : List Byte} {s : State} (hf : freshReq 0x09 h s = true)
    (hc : commitBusy s = false) (ho : off % 4 = 0) (hl : data.length % 4 = 0) (hmax : off + data.length ≤ 2097152) :
    completes (.imgChunk h off data) s fun t =>
      ∀ i, Tab.get 0 t.img.stage i = if off ≤ i ∧ i < off + data.length then data.getD (i - off) 0
        else Tab.get 0 s.img.stage i := by
  obtain ⟨t, hx, himg⟩ := exec_request_img (c := .imgChunk h off data) rfl hf
  refine ⟨t, hx, fun i => ?_⟩
  rw [himg, imgChunk_staged (by simpa using hc) ho hl hmax, get_stagePut]
  simp [id @reqStart_keep]

theorem imgChunk_busy {h : ReqHdr} {off : Nat} {data : List Byte} {s : State} (hf : freshReq 0x09 h s = true)
    (hc : commitBusy s = true) :
    ∃ u, answers 0x09 h (.imgChunk h off data) s (.nak 1 0) u ∧ u.img = s.img :=
  ⟨reqStart 0x09 h s, answers_fresh rfl hf (by simp [imgChunk, hc, refuse]), by simp [id @reqStart_keep]⟩

/-! ## Commits -/

theorem imgCommit_starts {h : ReqHdr} {len : Nat} {s : State} (hf : freshReq 0x0A h s = true)
    (hc : commitBusy s = false) (ha : s.img.state ≠ .activating) (hcold : s.img.coldStep = 0) :
    completes (.imgCommit h len) s fun t => t.img.state = .validating ∧ t.img.stage = s.img.stage ∧
      t.img.commit = some { port := h.port, tag := h.tag, len := len, presence := presOpen s,
                            topo := s.cfg.topo, basis := s.cfg.basis } := by
  obtain ⟨t, hx, himg⟩ := exec_request_img (c := .imgCommit h len) rfl hf
  refine ⟨t, hx, ?_⟩
  simp [himg, imgCommit, hc, ha, hcold, id @reqStart_keep]

/-! ## Validation -/

/-- A rejected commit ends with its failure shown, the slots and the waiting image as they were (R50, R53). -/
theorem imgReject_img (c : Commit) (b : List Byte) (f : ImgFail) (s : State) :
    (settle (imgReject c b f s)).img.commit = none ∧ (settle (imgReject c b f s)).img.err = f.err ∧
    (settle (imgReject c b f s)).img.errSect = f.sect ∧ (settle (imgReject c b f s)).img.errLoc = f.loc ∧
    (settle (imgReject c b f s)).img.pending = s.img.pending ∧
    ∀ x, slotOf (settle (imgReject c b f s)) x = slotOf s x := by
  simp [slotOf, imgReject, id @settle_keep, id @answer_keep, id @emit_keep]

/-- The write of the image that passed begins: its slot is torn until the write is done (R53). -/
theorem imgPass_writes {c : Commit} {b : List Byte} {s : State} (hp : s.img.pending = .none) :
    (imgPass c b s).img.state = .writing ∧
    (imgPass c b s).img.commit = some { c with needs := needsPresence s c b, hot := isHot s c b, target := targetSlot s,
                                               chg := sectChanges s c b } ∧
    slotOf (imgPass c b s) (targetSlot s) = { bytes := b, valid := false, torn := true } := by
  simp [imgPass, hp, id @setSlot_img]

section
variable {c : Commit} {b : List Byte} {s : State}
variable (hc : s.img.commit = some c)
include hc

theorem imgValidationDone_fails {f : ImgFail} (hv : s.img.state = .validating)
    (hf : imgCheck s (stageBytes (min c.len 2097152) 0 s.img.stage) c.len = some f) :
    completes .imgValidationDone s fun t => t.img.commit = none ∧ t.img.err = f.err ∧ t.img.errSect = f.sect ∧
      t.img.errLoc = f.loc := by
  refine ⟨settle (imgReject c (stageBytes (min c.len 2097152) 0 s.img.stage) f s), ?_, ?_⟩
  · simp [exec, execImgValidationDone, hc, hv, hf]
  · simp only [id @imgReject_img, and_self]

theorem imgValidationDone_wants_presence (hv : s.img.state = .validating)
    (hb : b = stageBytes (min c.len 2097152) 0 s.img.stage) (hok : imgCheck s b c.len = none)
    (hneed : needsPresence s c b = true) (hpres : c.presence = false) :
    completes .imgValidationDone s fun t => t.img.commit = none ∧ t.img.err = 0x1D := by
  refine ⟨settle (imgReject c b { err := 0x1D, sect := 0, loc := 0 } s), ?_, ?_⟩
  · simp [exec, execImgValidationDone, hc, hv, ← hb, hok, hneed, hpres]
  · simp only [id @imgReject_img, and_self]

theorem imgValidationDone_passes (hv : s.img.state = .validating)
    (hb : b = stageBytes (min c.len 2097152) 0 s.img.stage) (hok : imgCheck s b c.len = none)
    (hpres : needsPresence s c b = true → c.presence = true) (hp : s.img.pending = .none) :
    completes .imgValidationDone s fun t => t.img.state = .writing ∧
      t.img.commit = some { c with needs := needsPresence s c b, hot := isHot s c b, target := targetSlot s,
                                   chg := sectChanges s c b } ∧
      slotOf t (targetSlot s) = { bytes := b, valid := false, torn := true } := by
  refine ⟨settle (imgPass c b s), ?_, ?_⟩
  · have hgo : ¬ (needsPresence s c b && !c.presence) = true := by simpa using hpres
    simp only [exec, execImgValidationDone, hc, hv, ← hb, hok, if_neg hgo, bne_self_eq_false, Bool.false_eq_true,
      if_false]
  · simpa only [id @settle_keep, slotOf_settle] using imgPass_writes hp

/-! ## The slot write -/

theorem imgSlotWriteDone_waits (hw : s.img.state = .writing) :
    completes (.imgSlotWriteDone true) s fun t => t.img.commit = none ∧ t.img.err = 0 ∧ t.img.state = .waiting ∧
      t.img.waiting = c.target ∧ t.img.pending = (if c.hot then .hot else .cold) ∧
      t.img.hotAt = (if c.hot then some (s.time.frm + 2) else none) ∧
      slotOf t c.target = { slotOf s c.target with valid := true, torn := false } := by
  refine ⟨_, rfl, ?_⟩
  simp only [hc, hw, bne_self_eq_false, Bool.false_eq_true, if_false, Bool.not_true]
  simp [id @settle_keep, id @answer_keep, id @emit_keep, id @setSlot_img, id @setSlot_waiting]

theorem imgSlotWriteDone_fails (hw : s.img.state = .writing) :
    completes (.imgSlotWriteDone false) s fun t => t.img.commit = none ∧ t.img.err = slotFail.err ∧
      t.img.errSect = slotFail.sect ∧ t.img.errLoc = slotFail.loc ∧ t.img.pending = s.img.pending ∧
      slotOf t c.target = slotOf s c.target := by
  refine ⟨settle (imgReject c (slotOf s c.target).bytes slotFail s), ?_, ?_⟩
  · simp only [exec, execImgSlotWriteDone, hc, hw, bne_self_eq_false, Bool.false_eq_true, if_false, Bool.not_false,
      if_true]
  · simp only [id @imgReject_img, and_self]

end

/-- Settles O45: a request's effect on the image survives its answer, and validation and slot write end in one of their
outcomes each. -/
theorem imageUploads : Obligations.ImageUploads :=
  ⟨fun _ _ _ _ => imgChunk_stages, fun _ _ _ _ => imgChunk_busy, fun _ _ _ => imgCommit_starts,
    fun _ _ _ hc => imgValidationDone_fails hc, fun _ _ _ hc => imgValidationDone_wants_presence hc,
    fun _ _ _ hc => imgValidationDone_passes hc, fun _ _ hc => imgSlotWriteDone_waits hc,
    fun _ _ hc => imgSlotWriteDone_fails hc⟩

end Sys2Proof.Machine
end

section
/-! PROOFS. The activation of an image (R59 to R61): what a hot activation puts in force, and what each step of a cold one
loads. -/

namespace Sys2Proof.Machine

/-! ## Hot activation -/

/-- A hot image keeps the sections that only a cold activation loads (R58, R59). -/
theorem hotApply_cfg (b : List Byte) (s : State) :
    (hotApply b s).cfg.topo = s.cfg.topo ∧ (hotApply b s).cfg.drv = s.cfg.drv := by
  unfold hotApply
  extract_lets c has est lim win rec' host moved cfg s0 s1 s2 s3 s4 x img4 s5 img5 s6
  have h4 : s4.cfg = s0.cfg := by
    simp [s4, s3, s2, s1, id @mapsLoad_keep, id @hostApply_keep, id @recApply_keep, id @winDiscard_keep,
      id @jumpMarks_keep]
  simp [id @activated_keep, id @nvQueue_keep, s6, s5, x, id @modeAccept_keep, h4, s0, cfg]

theorem hotActivation_applies {a : Word} {s : State} (hat : s.img.hotAt = some a) (hp : s.img.pending = .hot)
    (hle : frmLe a s.time.frm = true) (hb : atBoundary s = true) :
    completes .hotActivation s fun t => t.img.active = s.img.waiting ∧ t.img.pending = .none ∧ t.img.hotAt = none ∧
      t.img.waiting = .sprout ∧ t.cfg.topo = s.cfg.topo ∧ t.cfg.drv = s.cfg.drv := by
  refine ⟨settle (hotApply (slotOf s s.img.waiting).bytes s), ?_, ?_⟩
  · simp [exec, execHotActivation, hat, hp, hle, hb]
  · simp [id @settle_keep, id @hotApply_img, id @hotApply_cfg]

/-! ## Cold activation: the hold -/

theorem loadNet_husk (n : Netlist) (src : NlSrc) (s : State) :
    (loadNet n src s).husk.nlSrc = src ∧ (loadNet n src s).husk.hold = s.husk.hold := ⟨rfl, rfl⟩

/-- Husk falls back to the ROM netlist, if it runs one at all (R60, R210). -/
theorem coldRom_husk (s : State) :
    (coldRom s).husk.nlSrc = (if s.husk.nlSrc = .none then .none else .rom) ∧ (coldRom s).husk.hold = s.husk.hold := by
  by_cases hn : s.husk.nlSrc = .none <;> simp [coldRom, hn, id @loadNet_husk]

theorem coldHold_holds (s : State) :
    (coldHold s).img.coldStep = 1 ∧ (coldHold s).img.state = .activating ∧ (coldHold s).husk.hold = true ∧
    (coldHold s).husk.nlSrc = (if s.husk.nlSrc = .none then .none else .rom) := by
  simp [coldHold, id @bistAbort_keep, id @dbgEnd_keep, id @coldRom_keep, id @coldRom_husk]

theorem coldActivationHold_holds {s : State} (hp : s.img.pending = .cold) (h0 : s.img.coldStep = 0)
    (hc : commitBusy s = false) (hb : atBoundary s = true) (ho : allOpen s = true) (hq : noSeqBusy s = true) :
    completes .coldActivationHold s fun t => t.img.coldStep = 1 ∧ t.img.state = .activating ∧ t.husk.hold = true ∧
      t.husk.nlSrc = (if s.husk.nlSrc = .none then .none else .rom) := by
  refine ⟨settle (if (coldHold s).sys.run.ledger then checkpoint (coldHold s) else coldHold s), ?_, ?_⟩
  · simp [exec, execColdActivationHold, hp, h0, hc, hb, ho, hq]
  · split <;> simp [id @settle_keep, id @settle_husk, id @checkpoint_keep, id @coldHold_holds]

/-! ## Cold activation: the protection, or the way back -/

theorem netChange_nlSrc {n : Netlist} {s : State} (hn : s.husk.nlSrc ≠ .none) (hr : s.husk.romHeld = false) :
    (netChange n s).husk.nlSrc = .image := by
  simp [netChange, hn, hr, id @loadNet_husk]

theorem coldProtect_loads (s : State) :
    (coldProtect s).img.coldStep = 2 ∧ (coldProtect s).cfg.drv = (coldCfg s).drv ∧
    (coldProtect s).cfg.sec = (coldCfg s).sec ∧
    (s.husk.nlSrc ≠ .none → s.husk.romHeld = false → (coldProtect s).husk.nlSrc = .image) := by
  unfold coldProtect
  extract_lets c cfg img s1 s2
  have h2 : s2.img = s1.img ∧ s2.cfg = s1.cfg ∧ s2.husk = s1.husk := by simp [s2, id @thermApply_keep]
  obtain ⟨himg, hcfg, hhusk⟩ := h2
  refine ⟨?_, ?_, ?_, fun hn hr => netChange_nlSrc ?_ ?_⟩
  · simp [id @netChange_keep, himg, s1]
  · simp [id @netChange_keep, hcfg, s1, c]
  · simp [id @netChange_keep, hcfg, s1, c]
  · simpa [hhusk, s1] using hn
  · simpa [hhusk, s1] using hr

theorem coldActivationLoadProtection_loads {s : State} (h1 : coldAt 1 s = true) :
    completes (.coldActivationLoadProtection true) s fun t => t.img.coldStep = 2 ∧ t.cfg.drv = (coldCfg s).drv ∧
      t.cfg.sec = (coldCfg s).sec ∧ (s.husk.nlSrc ≠ .none → s.husk.romHeld = false → t.husk.nlSrc = .image) := by
  refine ⟨settle (coldProtect s), ?_, ?_⟩
  · simp [exec, execColdActivationLoadProtection, h1]
  · simpa only [id @settle_keep, id @settle_husk] using coldProtect_loads s

/-- The slot that cannot be read is invalid, and the steps begin again from the first (R61). -/
theorem coldFail_goes_back {s : State} (hback : s.img.coldBack = false) :
    (coldFail s).img.coldBack = true ∧ (coldFail s).img.coldStep = 1 ∧ (coldFail s).img.pending = .none ∧
    (slotOf (coldFail s) s.img.waiting).valid = false := by
  have hslot : ∀ u : State, slotOf (coldRom u) = slotOf u := fun u =>
    funext (slotOf_of_img (by simp [id @coldRom_keep]))
  simp [coldFail, hback, hslot, id @emit_keep, id @coldRom_keep, id @setSlot_img, id @setSlot_waiting]

theorem coldActivationLoadProtection_goes_back {s : State} (h1 : coldAt 1 s = true) (hback : s.img.coldBack = false) :
    completes (.coldActivationLoadProtection false) s fun t => t.img.coldBack = true ∧ t.img.coldStep = 1 ∧
      t.img.pending = .none ∧ (slotOf t s.img.waiting).valid = false := by
  refine ⟨settle (coldFail s), ?_, ?_⟩
  · simp [exec, execColdActivationLoadProtection, h1]
  · simpa only [id @settle_keep, slotOf_settle] using coldFail_goes_back hback

/-! ## Cold activation: the rings, the models and the end -/

theorem coldActivationEnumerate_skips {s : State} (h2 : coldAt 2 s = true) (ht : coldTopo s = false) :
    exec .coldActivationEnumerate s = .next { s with img.coldStep := 3 } := by
  simp [exec, execColdActivationEnumerate, h2, ht]

theorem coldActivationEnumerate_asks {s : State} (h2 : coldAt 2 s = true) (ht : coldTopo s = true) :
    completes .coldActivationEnumerate s fun t => t.img.coldStep = 3 ∧ (ringOf t 0).enumReq = true ∧
      (ringOf t 1).enumReq = true := by
  refine ⟨_, rfl, ?_⟩
  simp [h2, ht, id @modRing_keep]

theorem coldActivationLoadModels_loads {s : State} (h3 : coldAt 3 s = true) (hr : ringsSettled s = true) :
    completes (.coldActivationLoadModels true) s fun t => t.img.coldStep = 4 := by
  refine ⟨settle (coldModels s), ?_, ?_⟩
  · simp [exec, execColdActivationLoadModels, h3, hr]
  · simp [id @settle_keep, id @coldModels_img]

theorem coldActivationComplete_ends {s : State} (h4 : coldAt 4 s = true) :
    completes .coldActivationComplete s fun t => t.img.coldStep = 0 ∧ t.img.pending = .none ∧ t.husk.hold = false ∧
      t.img.active = coldSrc s ∧ t.img.waiting = .sprout := by
  refine ⟨_, rfl, ?_⟩
  simp only [h4, Bool.not_true, Bool.false_eq_true, if_false]
  split <;> simp [id @settle_keep, id @settle_husk, id @activated_keep, rearmClose]

/-- Settles O46: each step is taken under its conditions, and what it puts in force survives the settling. -/
theorem imageActivates : Obligations.ImageActivates :=
  ⟨fun _ _ => hotActivation_applies, fun _ => coldActivationHold_holds, fun _ => coldActivationLoadProtection_loads,
    fun _ => coldActivationLoadProtection_goes_back, fun _ => coldActivationEnumerate_skips,
    fun _ => coldActivationEnumerate_asks, fun _ => coldActivationLoadModels_loads,
    fun _ => coldActivationComplete_ends⟩

end Sys2Proof.Machine
end

section
/-! PROOFS. The driver checks (R232, R234, R235): a breaking failure ends the fast open, and a weld check starts and is
judged. -/

namespace Sys2Proof.Machine

/-! ## Breaking failure -/

/-- Each copy of Husk reads what it was last put to, and the other stands. -/
@[simp] theorem copyOf_setCopy (s : State) (c d : Bool) (h : HuskCopy) :
    copyOf (setCopy s c h) d = if d = c then h else copyOf s d := by
  cases c <;> cases d <;> rfl

theorem setCopy_evt (s : State) (c : Bool) (h : HuskCopy) : (setCopy s c h).evt = s.evt := by
  cases c <;> rfl

@[simp] theorem seqOf_endSeq_busy (h : HuskCopy) (q : Nat) (f : Bool) : (seqOf (endSeq h q f) q).busy = false := by
  simp [endSeq]

/-- What a breaking failure does in copy `c` (R232): the channels of string `i` go off, and both its open sequencers end. -/
def breakOff (i : Nat) (s : State) (c : Bool) : State :=
  setCopy s c (endSeq (endSeq (stepAct (copyOf s c) i 2 fun _ => 0) (4 * i + 1) false) (4 * i + 2) false)

/-- The fast open of string `i` has waited 100 ms in copy `c` for the current to fall below the breaking current. -/
def breakLate (i : Nat) (s : State) (c : Bool) : Bool :=
  let x := seqOf (copyOf s c) (4 * i + 2)
  x.busy && x.step == 0 && !(monOf (copyOf s c) i).iBrk && decide (s.time.tns ≥ x.since + 100000000)

/-- A breaking failure before the copies act on it: the S3 condition is set and recorded, and every string trips (R232). -/
def breakFail (i : Nat) (s : State) : State :=
  tripAll 1 0xF01 (emit 0x0286 (leI 4 (curStr s i).iS ++ le 1 i ++ le 3 0) { s with evt.s3Brk := true })

theorem exec_fastOpenTimeout (i : Nat) (s : State) :
    exec (.fastOpenTimeout i) s = .next (settle (
      if ([false, true].filter (breakLate i s)).isEmpty then s
      else noteOpenEnd i (([false, true].filter (breakLate i s)).foldl (breakOff i) (breakFail i s)))) := rfl

theorem fastOpenTimeout_fails {i : Nat} {c : Bool} {s : State} (hc : breakLate i s c = true) :
    settlesTo (.fastOpenTimeout i) s
      (noteOpenEnd i (([false, true].filter (breakLate i s)).foldl (breakOff i) (breakFail i s))) := by
  have hsome : ¬ ([false, true].filter (breakLate i s)).isEmpty = true := by
    have hmem : c ∈ [false, true].filter (breakLate i s) := by cases c <;> simp [hc]
    simpa using List.ne_nil_of_mem hmem
  rw [settlesTo, exec_fastOpenTimeout, if_neg hsome]

/-- The copies that act on a breaking failure leave their fast open idle, and an idle one stands. -/
theorem foldl_breakOff_idle {i : Nat} {c : Bool} (cs : List Bool) (s : State)
    (h : c ∈ cs ∨ (seqOf (copyOf s c) (4 * i + 2)).busy = false) :
    (seqOf (copyOf (cs.foldl (breakOff i) s) c) (4 * i + 2)).busy = false := by
  induction cs generalizing s with
  | nil => simpa using h
  | cons d cs ih =>
    refine ih (breakOff i s d) ?_
    by_cases hd : c = d
    · exact .inr (by simp [breakOff, hd])
    · simpa [breakOff, hd] using h

theorem breakFail_s3Brk (i : Nat) (s : State) : (breakFail i s).evt.s3Brk = true := by
  have e (u : State) : (tripAll 1 0xF01 u).evt.held = u.evt.held := by simp [id @tripAll_keep]
  simp [breakFail, id @Evt.of_held (e _), id @emit_evt]

theorem fastOpenTimeout_ends {i : Nat} {c : Bool} {s : State} (hb : (seqOf (copyOf s c) (4 * i + 2)).busy = true)
    (h0 : (seqOf (copyOf s c) (4 * i + 2)).step = 0) (hi : (monOf (copyOf s c) i).iBrk = false)
    (ht : s.time.tns ≥ (seqOf (copyOf s c) (4 * i + 2)).since + 100000000) :
    makes (.fastOpenTimeout i) s fun u => u.evt.s3Brk = true ∧ (seqOf (copyOf u c) (4 * i + 2)).busy = false := by
  have hlate : breakLate i s c = true := by simp [breakLate, hb, h0, hi, ht]
  have hevt (u : State) (cs : List Bool) : (cs.foldl (breakOff i) u).evt = u.evt :=
    foldl_keep (·.evt) (breakOff i) cs u fun t d => setCopy_evt t d _
  have hcopy (u : State) : copyOf (noteOpenEnd i u) c = copyOf u c := by simp [copyOf, id @noteOpenEnd_keep]
  refine ⟨_, fastOpenTimeout_fails hlate, ?_, ?_⟩
  · simp [id @noteOpenEnd_keep, hevt, breakFail_s3Brk]
  · rw [hcopy]
    exact foldl_breakOff_idle _ _ (.inl (by cases c <;> simp [hlate]))

/-! ## The weld check -/

/-- A weld check that its string's first L1 or an opening calls for starts, on a string that stands open (R88, R234). -/
theorem weldCheckStart_starts {i : Nat} {s : State} (hc : configured s i = true) (ho : standsOpen s i = true)
    (hcall : s.husk.reachedL1.getLsbD i = true ∧ (drvStr s i).weldDone = false ∨
      ∃ t, (drvStr s i).openEnd = some t ∧ s.time.tns ≥ t + 200000000) :
    settlesTo (.weldCheckStart i) s (startWeld i (modDrvStr s i fun d => { d with weldDone := true, openEnd := none })) := by
  simp only [settlesTo, exec, execWeldCheckStart, hc, ho, Bool.and_self, Bool.true_and]
  rcases hcall with ⟨hreach, hdone⟩ | ⟨t, hend, hwait⟩
  · simp [hreach, hdone]
  · simp [hend, hwait]

theorem weldCheckEvaluate_judges {i : Nat} {d : SlotData} {s : State} (hb : seqBusy s (4 * i + 3) = true)
    (hd : (drvStr s i).weldSlot = some d) : settlesTo (.weldCheckEvaluate i) s (weldJudge i d (endWeld i s)) := by
  simp [settlesTo, exec, execWeldCheckEvaluate, hb, hd]

theorem drvStr_endWeld (i k : Nat) (s : State) : drvStr (endWeld i s) k = drvStr s k := rfl

theorem weldCheckEvaluate_unchecked {i : Nat} {s : State} (hb : seqBusy s (4 * i + 3) = true)
    (hd : (drvStr s i).weldSlot = none) (ht : s.time.tns ≥ weldFrom s i + 100000000) :
    makes (.weldCheckEvaluate i) s fun u => (drvStr u i).unchk = true ∧ (drvStr u i).weld = (drvStr s i).weld := by
  refine ⟨weldUnchecked i (endWeld i s), ?_, ?_⟩
  · simp [settlesTo, exec, execWeldCheckEvaluate, hb, hd, ht]
  · simp [weldUnchecked, id @emit_entries, drvStr_endWeld]

theorem weldJudge_clears {i : Nat} {d : SlotData} {s : State} (hopen : ∀ k ∈ strings s, k ≠ i → closed s k = false)
    (hfind : weldFind (drvOf s i) true d = 0) :
    (drvStr (weldJudge i d s) i).weld = false ∧ (drvStr (weldJudge i d s) i).unchk = false := by
  have hvolt : ((strings s).any fun k => k != i && closed s k) = false := by simpa using hopen
  simp [weldJudge, hvolt, hfind, id @emitIf_entries]

theorem weldJudge_sets {i : Nat} {d : SlotData} {s : State}
    (hfind : weldFind (drvOf s i) (!((strings s).any fun k => k != i && closed s k)) d ≠ 0) :
    (drvStr (weldJudge i d s) i).weld = true := by
  unfold weldJudge
  simp only [if_pos hfind]
  simp [id @emit_entries]

/-- Settles O16: a breaking failure acts in the copies that waited, and a weld check ends by what its slot shows. -/
theorem driverChecks : Obligations.DriverChecks :=
  ⟨fun _ _ _ _ => fastOpenTimeout_ends,
    fun _ _ hc ho hr hw => weldCheckStart_starts hc ho (.inl ⟨hr, hw⟩),
    fun _ t _ hc ho he ht => weldCheckStart_starts hc ho (.inr ⟨t, he, ht⟩),
    fun _ _ _ => weldCheckEvaluate_judges, fun _ _ _ => weldCheckEvaluate_unchecked,
    fun _ _ _ => weldJudge_clears, fun _ _ _ => weldJudge_sets⟩

end Sys2Proof.Machine
end

section
/-! PROOFS. Joining (R82, R485, R500 to R502, R514): what JOIN sends, when it is sent again, and what an ASSIGN gives or
takes away. -/

namespace Sys2Proof.Machine

/-! ## JOIN -/

theorem mem_txInsert (m : Msg) (l : List Msg) : m ∈ txInsert m l := by
  induction l with
  | nil => simp [txInsert]
  | cons x l ih =>
    rw [txInsert]
    split <;> simp [ih]

/-- A queued message stands in the queue of its port, of which nothing else changes. -/
theorem portOf_txPush (p : Port) (m : Msg) (s : State) :
    portOf (txPush p m s) p = { portOf s p with txq := txInsert m (portOf s p).txq } := by
  simp [txPush]

theorem join_sends {p : Port} {t : Nat} {s : State} (hrun : portRuns s p = true) (hjoin : (portOf s p).joining = true)
    (hat : (portOf s p).joinAt = some t) (hle : t ≤ s.time.tns) :
    makes (.join p) s fun u => (portOf u p).joinAt = none ∧ (portOf u p).joinSent = some s.time.tns ∧
      ∃ m ∈ (portOf u p).txq, m.op = 0x0D ∧ m.body = joinBody s := by
  let m : Msg := { cls := 1, op := 0x0D, body := joinBody s, dst := some macAll }
  refine ⟨txPush p m (modPort p (fun x => { x with joinAt := none, joinSent := some s.time.tns }) s), ?_, ?_⟩
  · simp [settlesTo, exec, execJoin, hrun, hjoin, hat, hle, m]
  · simp only [portOf_txPush, portOf_modPort, if_true]
    exact ⟨trivial, trivial, m, mem_txInsert m _, rfl, rfl⟩

/-- A port whose JOIN no ASSIGN has answered waits again, for a free time (R501). -/
def joinWait (p : Port) (s : State) : State :=
  modPort p (fun x => { x with
    joinSent := none
    joinAt := some (s.time.tns + 100000000 + (takeFree s).1.toNat % 255000001) }) (takeFree s).2

/-- The wait before the next JOIN ends 100 to 355 ms from now (R501). -/
theorem joinWait_waits (p : Port) (s : State) :
    (portOf (joinWait p s) p).joinSent = none ∧ (joinWait p s).freeIx = s.freeIx + 1 ∧
      ∃ w, (portOf (joinWait p s) p).joinAt = some w ∧ s.time.tns + 100000000 ≤ w ∧ w ≤ s.time.tns + 355000000 := by
  have hwait : (takeFree s).1.toNat % 255000001 ≤ 255000000 := by omega
  simp only [joinWait, portOf_modPort, if_true, id @modPort_keep]
  exact ⟨trivial, rfl, _, rfl, by omega, by omega⟩

theorem joinRetry_waits {p : Port} {lost : Bool} {t : Nat} {s : State} (hrun : portRuns s p = true)
    (hjoin : (portOf s p).joining = true) (hsent : (portOf s p).joinSent = some t)
    (hdue : lost = true ∨ s.time.tns ≥ t + 200000000) :
    completes (.joinRetry p lost) s fun u => (portOf u p).joinSent = none ∧ u.freeIx = s.freeIx + 1 ∧
      ∃ w, (portOf u p).joinAt = some w ∧ s.time.tns + 100000000 ≤ w ∧ w ≤ s.time.tns + 355000000 := by
  have hgo : (lost || decide (since s t ≥ 200000000)) = true := by
    rcases hdue with h | h
    · simp [h]
    · simpa [since] using .inr (show 200000000 ≤ s.time.tns - t by omega)
  refine ⟨_, rfl, ?_⟩
  simp only [hsent, hrun, hjoin, hgo, Bool.and_self, if_true]
  split
  · exact joinWait_waits p s
  · exact joinWait_waits p s

/-! ## ASSIGN -/

/-- The streams that close are those that `f` names. -/
theorem portStreams_closeStreams (f : Stream → Bool) (s : State) (p : Port) :
    portStreams (closeStreams f s) p = (portStreams s p).filter fun x => !f x := by
  simp only [portStreams, closeStreams]
  induction s.host.str with
  | nil => rfl
  | cons e l ih =>
    obtain ⟨k, _ | x⟩ := e
    · simpa using ih
    · cases hf : f x <;> cases hp : x.port == p <;> simpa [hf, hp] using ih

theorem portStreams_closeNodeStreams {p : Port} (hp : p ≠ .spi) (s : State) :
    portStreams (closeNodeStreams s) p = [] := by
  rw [closeNodeStreams, portStreams_closeStreams]
  simp only [List.filter_eq_nil_iff, portStreams, List.mem_filter, beq_iff_eq]
  rintro x ⟨-, rfl⟩
  simpa using hp

/-- A NODE taken away is no longer held, and ends the streams that need one (R502). -/
theorem dropNode_drops (p : Port) (cause : Nat) (s : State) : (dropNode p cause s).host.snid = none := by
  cases hn : s.host.snid with
  | none => simp [dropNode, hn]
  | some n => simp [dropNode, hn, modPort]

theorem dropNode_ends {q : Port} (hq : q ≠ .spi) (p : Port) (cause n : Nat) {s : State} (hn : s.host.snid = some n) :
    portStreams (dropNode p cause s) q = [] := by
  simp only [dropNode, hn]
  exact portStreams_closeNodeStreams hq _

theorem takeNode_sets (p : Port) (n c : Nat) (s : State) :
    (takeNode p n c s).host.snid = some n ∧ (takeNode p n c s).host.lastSnid = n ∧
    (takeNode p n c s).host.budT1s = 8000 / (c + 1) ∧ (takeNode p n c s).host.budCan = 2000 / (c + 1) := by
  simp [takeNode, id @emit_keep, id @nvQueue_keep]

/-- An ASSIGN with the device's MID that the link delivers as a new frame has its effect and is answered. -/
theorem assign_answers {h : ReqHdr} {n : BitVec 16} {m : Byte} {s u : State} {r : Reply}
    (hrun : portRuns s h.port = true) (hlink : linkTakes 0x41 h.link s = true) (hf : freshFrame 0x0E h s = true)
    (hu : assignOwn h.port n.toNat m.toNat (reqStart 0x0E h s) = (u, r)) :
    answers 0x0E h (.assign h s.sec.mid n m) s r u := by
  simp [answers, exec, execAssign, hrun, hlink, hostFrame_fresh _ hf, hu]

theorem assign_takes {h : ReqHdr} {n : BitVec 16} {m : Byte} {s : State}
    (hrun : portRuns s h.port = true) (hlink : linkTakes 0x41 h.link s = true) (hf : freshFrame 0x0E h s = true)
    (hn : n.toNat < 4096) (hlo : 1 ≤ m.toNat) (hhi : m.toNat ≤ 64) :
    ∃ u, answers 0x0E h (.assign h s.sec.mid n m) s (.ack 0 0 []) u ∧ u.host.snid = some n.toNat ∧
      u.host.lastSnid = n.toNat ∧ u.host.budT1s = 8000 / (m.toNat + 1) ∧ u.host.budCan = 2000 / (m.toNat + 1) := by
  refine ⟨_, assign_answers hrun hlink hf ?_, takeNode_sets h.port n.toNat m.toNat (reqStart 0x0E h s)⟩
  rw [assignOwn, if_neg (by omega), if_neg (by omega), accept]

theorem assign_withdraws {h : ReqHdr} {m : Byte} {s : State}
    (hrun : portRuns s h.port = true) (hlink : linkTakes 0x41 h.link s = true) (hf : freshFrame 0x0E h s = true) :
    ∃ u, answers 0x0E h (.assign h s.sec.mid 0xFFFF m) s (.ack 0 0 []) u ∧ u.host.snid = none :=
  ⟨_, assign_answers hrun hlink hf (by rw [assignOwn, if_pos (by decide), accept]), dropNode_drops h.port 2 _⟩

/-- An ASSIGN that gives the NODE held to another MID takes it away (R502). -/
theorem assign_takes_away {h : ReqHdr} {mid : BitVec 64} {n : BitVec 16} {m : Byte} {k : Nat} {s : State}
    (hrun : portRuns s h.port = true) (hlink : linkTakes 0x41 h.link s = true) (hmid : mid ≠ s.sec.mid)
    (hn : n ≠ 0xFFFF) (hk : s.host.snid = some k) (hnode : k % 64 = n.toNat % 64) :
    makes (.assign h mid n m) s fun u => u.host.snid = none ∧ portStreams u .t1s = [] ∧ portStreams u .can = [] := by
  refine ⟨dropNode h.port 1 (noteFrame h s), ?_, dropNode_drops .., ?_, ?_⟩
  · have hgives : n ≠ 0xFFFF ∧ (s.host.snid.any fun k => k % 64 == n.toNat % 64) = true :=
      ⟨hn, by simp [hk, hnode]⟩
    simp only [settlesTo, exec, execAssign, hrun, hlink, if_neg hmid, if_pos hgives, Bool.not_true, Bool.or_self,
      Bool.false_eq_true, if_false]
  · exact dropNode_ends (by decide) _ _ k hk
  · exact dropNode_ends (by decide) _ _ k hk

/-- Settles O56: a JOIN is queued and its wait drawn again, and an ASSIGN gives the NODE, withdraws it or takes it away. -/
theorem portsJoin : Obligations.PortsJoin :=
  ⟨fun _ _ _ => join_sends, fun _ _ _ _ => joinRetry_waits, fun _ _ _ _ => assign_takes, fun _ _ _ => assign_withdraws,
    fun _ _ _ _ _ _ => assign_takes_away⟩

end Sys2Proof.Machine
end

section
/-! PROOFS. The start-up (R67, R69, R70, R83): what each step leaves running, what a late step notes, and the Sprout status
frame. -/

namespace Sys2Proof.Machine

/-! ## Steps 1 to 3 -/

theorem lDieReset_sys (husk : Bool) (s : State) :
    (lDieReset husk s).sys = {
      run := runKeep husk s.sys.run, cause := s.sys.cause, bootStart := s.sys.bootStart, bootUp := s.sys.bootUp
      step := 2 } := by
  cases husk <;> rfl

theorem lDieReset_tns (husk : Bool) (s : State) : (lDieReset husk s).time.tns = s.time.tns := by
  cases husk <;> rfl

theorem vsupValid_starts {v : Nat} {s : State} (hv : v ≥ 5600) (hoff : s.pwr.state = .off) :
    completes (.vsupValid v) s fun t => t.pwr.state = .run ∧ t.sys.step = 1 ∧ t.sys.run.buck = true ∧
      t.sys.run.core = false ∧ t.sys.cause = (if s.pwr.brown then 2 else 0) ∧ t.sys.bootStart = s.time.tns := by
  have hgo : ¬ v < 5600 := by omega
  refine ⟨settle (startBegin (if s.pwr.brown then 2 else 0) s), ?_, ?_⟩
  · simp [exec, execVsupValid, hgo, hoff]
  · simp [id @settle_sys, id @settle_pwr, startBegin, bootBegin, lDieReset_tns]

theorem startupPDieUp_runs {s : State} (h1 : s.sys.step = 1) (hb : s.sys.run.buck = true) :
    completes .startupPDieUp s fun t => t.sys.step = 2 ∧ t.sys.run.thermP = true ∧ t.sys.run.drivers = true ∧
      t.pwr.pg = 1 := by
  refine ⟨_, rfl, ?_⟩
  simp [h1, hb, id @settle_sys, id @settle_pwr]

/-- Restoring TNS moves the start-up counter and nothing else of the system's part (R386). -/
theorem tnsRestore_sys (s : State) :
    (tnsRestore s).sys.run = s.sys.run ∧ (tnsRestore s).sys.step = s.sys.step := by
  simp only [tnsRestore]
  split <;> simp [id @emit_keep]

theorem coreUp_runs (k a b o : Bool) (s : State) :
    (coreUp k a b o s).sys.step = 3 ∧ (coreUp k a b o s).sys.run.core = true ∧
    (coreUp k a b o s).sys.run.trust = true ∧ (coreUp k a b o s).pwr.pg = 31 ∧ (coreUp k a b o s).pwr.vcore = 2 ∧
    (coreUp k a b o s).sys.run.acq = false := by
  cases k <;>
    simp [coreUp, id @sealCheck_keep, pfwRead, id @keyRegionLost_keep, id @tnsRestore_keep, id @tnsRestore_sys,
      lDieReset_sys, runKeep]

theorem startupCoreUp_runs (k a b o : Bool) {s : State} (h2 : s.sys.step = 2) (hrun : s.pwr.state = .run)
    (hcore : s.sys.run.core = false) (hpg : s.pwr.pg.getLsbD 0 = true) (hhot : s.therm.preHot = false)
    (hdrv : s.sys.run.drivers = true) (hat : s.pwr.coreAt = none) :
    completes (.startupCoreUp k a b o) s fun t => t.sys.step = 3 ∧ t.sys.run.core = true ∧ t.sys.run.trust = true ∧
      t.pwr.pg = 31 ∧ t.pwr.vcore = 2 ∧ t.sys.run.acq = false := by
  refine ⟨settle (coreUp k a b o s), ?_, ?_⟩
  · simp only [exec, execStartupCoreUp, h2, hrun, hcore, hpg, hhot, hdrv, hat]
    rfl
  · simpa [id @settle_sys, id @settle_pwr] using coreUp_runs k a b o s

/-! ## The straps -/

/-- The limits of Sprout depend on CHEM and on what the NV store holds alone. -/
theorem startLimits_congr {s t : State} (hchem : t.sys.chem = s.sys.chem) (hnv : t.nv = s.nv) :
    startLimits t = startLimits s := by
  have hread (o : Nat) : nvRead t o = nvRead s o := by simp [nvRead, nvObj, hnv]
  simp [startLimits, sproutBasis, hchem, hread]

theorem strapLatch_latches (c : BitVec 2) (p0 p1 : Bool) {s : State} (h3 : 3 ≤ s.sys.step)
    (hl : s.sys.strapped = false) :
    completes (.strapLatch c c c p0 p1 true) s fun t => t.sys.strapped = true ∧ t.sys.chem = c.toNat ∧
      t.sys.chemUnstable = false ∧ t.sys.presStrap = false ∧ t.sec.strap = s.sec.strap ∧
      t.husk.net.limits = startLimits t := by
  refine ⟨_, rfl, ?_⟩
  have hlim (u : State) : startLimits (settle u) = startLimits u :=
    startLimits_congr (by simp [id @settle_sys]) (by simp [id @settle_keep])
  simp only [h3, hl, hlim, id @settle_sys, id @settle_husk, id @settle_keep, decide_true, Bool.not_false, Bool.and_self,
    if_true, Bool.not_true, beq_self_eq_true, emitIf, Bool.false_eq_true, if_false, true_and]
  exact startLimits_congr rfl rfl

/-- A strap that opens presence keeps it open for `n` s (R521). -/
theorem presStart_strap (n : Nat) (s : State) :
    (presStart 2 n s).sec.strap = some (s.time.tns + n * nsPerSec) := by
  simp [presStart, id @emit_keep]

theorem strapLatch_unstable {c0 c1 c2 : BitVec 2} (p0 p1 : Bool) {s : State} (h3 : 3 ≤ s.sys.step)
    (hl : s.sys.strapped = false) (hc : c0 ≠ c1 ∨ c1 ≠ c2) :
    completes (.strapLatch c0 c1 c2 p0 p1 false) s fun t => t.sys.chem = 3 ∧ t.sys.chemUnstable = true ∧
      t.sys.presStrap = true ∧ t.sec.strap = some (s.time.tns + 28800000000000) := by
  have hdiff : (c0 == c1 && c1 == c2) = false := by
    rcases hc with h | h <;> simp [h]
  refine ⟨_, rfl, ?_⟩
  simp [h3, hl, hdiff, id @settle_sys, id @settle_keep, id @presStart_keep, presStart_strap, id @emitIf_keep, nsPerSec]

/-! ## Step 4: slot selection -/

/-- The sections of an image load: an image is selected and Husk runs (R67 step 4). -/
theorem imgLoad_selects (x : ImgSrc) (netOk romOk : Bool) (s : State) :
    (imgLoad x netOk romOk s).sys.step = s.sys.step ∧ (imgLoad x netOk romOk s).sys.run.husk = true ∧
    (imgLoad x netOk romOk s).img.selected = true := by
  simp only [imgLoad]
  repeat' split
  all_goals simp [id @nvQueue_keep, id @loadNet_keep, id @emit_keep, id @thermApply_keep]

/-- The host link starts with REC and HOST, and no other block of the device does (R67 step 6). -/
theorem linkLoad_sys (s : State) :
    (linkLoad s).sys.step = s.sys.step ∧ (linkLoad s).sys.keyAt4 = s.sys.keyAt4 ∧
    (linkLoad s).sys.run.husk = s.sys.run.husk ∧ (linkLoad s).sys.run.recorder = s.sys.run.recorder := by
  simp [linkLoad, id @canFollow_keep, id @mapsLoad_keep, id @recApply_keep]

theorem startupImageSelect_selects (a b : Bool) (fa fb : Option (Nat × Nat)) (net rom : Bool) {s : State}
    (h3 : 3 ≤ s.sys.step) (hl : s.sys.strapped = true) (hsel : s.img.selected = false) :
    completes (.startupImageSelect a b fa fb net rom) s fun t => t.sys.step = max 4 s.sys.step ∧
      t.sys.run.husk = true ∧ t.img.selected = true ∧ t.sys.keyAt4 = t.drv.key := by
  refine ⟨_, rfl, ?_⟩
  have hgo : (decide (3 ≤ s.sys.step) && s.sys.strapped && !s.img.selected) = true := by simp [h3, hl, hsel]
  rw [if_pos hgo]
  extract_lets s1
  split
  next x s2 hr =>
    extract_lets img s3 s4 sys4
    have htried : s2.sys = s.sys := by
      have e : s2 = (slotTry (fun x => if x = .slotA then fa else fb) (slotOrder s1) s1).2 := by rw [hr]
      simp [e, id @slotTry_keep, s1, id @slotRead_keep]
    have hsys : s3.sys = s.sys := by
      simp only [s3]
      split <;> simp [id @emit_keep, htried]
    obtain ⟨hstep, hhusk, himg⟩ := imgLoad_selects x net rom s3
    rw [hsys] at hstep
    split <;>
      simp [id @settle_sys, id @settle_keep, id @settle_drv, id @linkLoad_sys, id @linkLoad_keep, sys4, s4, hstep, hhusk,
        himg]

/-! ## Step 5 -/

theorem startupRings_runs (x : Bool) (bad : List (Nat × Bool)) {s : State} (hcore : s.sys.run.core = true)
    (hsel : s.img.selected = true) (htb : s.sys.run.timebase = false) (hbad : s.time.trefBad = false)
    (hr : ringsSettled s = true) :
    completes (.startupRings x bad) s fun t => t.sys.run.timebase = true ∧ t.sys.run.acq = true ∧
      t.sys.step = max 5 s.sys.step ∧ t.time.xtal = x ∧ t.time.xtalLock = x := by
  refine ⟨_, rfl, ?_⟩
  simp [hcore, hsel, htb, hbad, hr, id @settle_sys, id @settle_keep, id @cmpTest_keep, id @curStart_keep,
    id @allThresholds_keep, id @curCalLoad_keep, id @badBanks_keep]

/-! ## Step 6 -/

/-- The recorder starts, and no other block of the device does. -/
theorem recStart_sys (s : State) :
    (recStart s).sys.step = s.sys.step ∧ (recStart s).sys.run.recorder = true := by
  simp only [recStart]
  split <;> simp [id @emit_keep, id @keepRes_keep, id @digAdd_keep]

theorem stewardBoot_step (s : State) : (stewardBoot s).sys.step = s.sys.step := by
  simp [stewardBoot, id @emitIf_keep]

theorem sectLost_step (ty cause : Nat) (s : State) : (sectLost ty cause s).sys.step = s.sys.step := by
  unfold sectLost
  split <;> simp [id @emit_keep]

theorem startupSteward_records (bad : List (Nat × Bool)) (rb hb : Nat) (ts : List (Nat × Nat × Nat × Nat)) {s : State}
    (hcore : s.sys.run.core = true) (h3 : 3 ≤ s.sys.step) (hst : s.sys.run.steward = false)
    (hheld : s.evt.stewHeld = false) :
    completes (.startupSteward bad rb hb ts) s fun t => t.sys.step = max 6 s.sys.step ∧ t.sys.run.recorder = true := by
  refine ⟨_, rfl, ?_⟩
  have hgo : (s.sys.run.core && decide (3 ≤ s.sys.step) && !s.sys.run.steward && !s.evt.stewHeld) = true := by
    simp [hcore, h3, hst, hheld]
  rw [if_pos hgo]
  extract_lets s1 s2 cfg s3 s4
  have hstep : s4.sys.step = s.sys.step := by
    simp [s4, s3, s2, s1, stewardStarts, id @linkLoad_sys, id @deviceLoad_keep, sectLost_step, id @bootTest_keep,
      stewardBoot_step, id @badBanks_keep]
  simp [id @settle_sys, id @recStart_sys, hstep]

/-! ## Steps 7 and 8 -/

theorem startupEstimate_steps (bad : List (Nat × Bool)) (a b c d : Nat) (ts : List (Nat × Nat × Nat × Nat)) {s : State}
    (h5 : stepDone5 s = true) (hst : s.sys.run.steward = true) (h7 : s.sys.step < 7) :
    completes (.startupEstimate bad a b c d ts) s fun t => t.sys.step = 7 := by
  refine ⟨_, rfl, ?_⟩
  simp [h5, hst, h7, id @settle_sys]

/-- The Granary controller starts, and no other block of the device does. -/
theorem granStart_sys (cs mib unit : Nat) (s : State) :
    (granStart cs mib unit s).sys = { s.sys with run.granary := true } := by
  simp only [granStart]
  repeat' split
  all_goals simp [id @emit_keep, id @granFormat_keep, id @granFresh_keep]

/-- Step 8 starts the NV store, and with the timebase the ledger, the Tally engine and Winnow (R67). -/
theorem fullStart_run (cs mib unit : Nat) (s : State) :
    (fullStart cs mib unit s).sys.run.nv = true ∧ (fullStart cs mib unit s).sys.run.ledger = s.sys.run.timebase ∧
    (fullStart cs mib unit s).sys.run.tally = s.sys.run.timebase ∧
    (fullStart cs mib unit s).sys.run.winnow = (!s.sys.winBad && s.sys.run.timebase) := by
  simp only [fullStart, id @nvStart_keep, granStart_sys]
  split <;> simp [id @ledgStart_keep, id @checkpoint_keep]

theorem startupFull_runs (bad : List (Nat × Bool)) (cs mib unit : Nat) {s : State} (h7 : s.sys.step = 7)
    (hst : s.sys.run.steward = true) :
    completes (.startupFull bad cs mib unit) s fun t => t.sys.step = 8 ∧ t.sys.run.nv = true ∧
      t.sys.run.ledger = s.sys.run.timebase ∧ t.sys.run.tally = s.sys.run.timebase ∧
      t.sys.run.winnow = (!s.sys.winBad && s.sys.run.timebase) := by
  refine ⟨_, rfl, ?_⟩
  simp [h7, hst, id @settle_sys, id @phaseEnd_keep, id @lgPublishAll_keep, id @fullStart_run, id @badBanks_keep]

/-! ## Bounds and the Sprout status frame -/

theorem startupLate_notes {k : Nat} {s : State} (hlo : 2 ≤ k) (hhi : k ≤ 8) (h1 : 1 ≤ s.sys.step)
    (hl : s.sys.lateStep = 0) (hd : stepDone s k = false) (hb : bootNs s ≥ stepBound k) :
    completes (.startupLate k) s fun t => t.sys.lateStep = k := by
  refine ⟨_, rfl, ?_⟩
  simp [hlo, hhi, h1, hl, hd, hb, id @settle_sys, id @emit_keep]

theorem sproutStatusFrame_sends {s : State} (hs : sproutRuns s = true) (ht : mayTalk s .can = true)
    (hat : s.host.statAt = none) :
    completes .sproutStatusFrame s fun t => t.host.statAt = some s.time.tns := by
  refine ⟨_, rfl, ?_⟩
  simp [hs, ht, hat, id @settlePins_keep, txPush, modPort]

/-- Settles O47: each step ends with what it starts running, and what follows it in the command and the settling leaves
that standing. -/
theorem startsUp : Obligations.StartsUp :=
  ⟨fun _ _ => vsupValid_starts, fun _ => startupPDieUp_runs, fun k a b o _ => startupCoreUp_runs k a b o,
    fun c p0 p1 _ => strapLatch_latches c p0 p1, fun _ _ _ p0 p1 _ => strapLatch_unstable p0 p1,
    fun a b fa fb net rom _ => startupImageSelect_selects a b fa fb net rom,
    fun x bad _ => startupRings_runs x bad, fun bad rb hb ts _ => startupSteward_records bad rb hb ts,
    fun bad a b c d ts _ => startupEstimate_steps bad a b c d ts,
    fun bad cs mib unit _ => startupFull_runs bad cs mib unit, fun _ _ => startupLate_notes,
    fun _ => sproutStatusFrame_sends⟩

end Sys2Proof.Machine
end

section
/-! PROOFS. The rings and their nodes: what one change of a ring or of a node reads as, what a fold of changes comes to,
and what settling leaves of a node for which no opening is awaited. -/

namespace Sys2Proof.Machine

/-! ## One change -/

theorem ringOf_of_ring {s t : State} (e : t.ring = s.ring) (r : Nat) : ringOf t r = ringOf s r := by
  simp [ringOf, e]

theorem nodeOf_of_ring {s t : State} (e : t.ring = s.ring) (r p : Nat) : nodeOf t r p = nodeOf s r p := by
  simp [nodeOf, ringOf, e]

/-- A change of a ring that leaves its nodes leaves every node. -/
@[simp] theorem nodeOf_modRing (s : State) (r a b : Nat) {f : Ring → Ring} (hf : ∀ x, (f x).nodes = x.nodes) :
    nodeOf (modRing s r f) a b = nodeOf s a b := by
  by_cases h : a = r <;> simp [nodeOf, h, hf]

/-- A node that is put changes of its ring the nodes alone. -/
@[simp] theorem ringOf_setNode (s : State) (r p a : Nat) (n : Node) :
    ringOf (setNode s r p n) a =
      { ringOf s a with nodes := if a = r then Tab.set {} (ringOf s r).nodes p n else (ringOf s a).nodes } := by
  by_cases h : a = r <;> simp [setNode, h]

@[simp] theorem ringOf_modNode (s : State) (r p a : Nat) (f : Node → Node) :
    ringOf (modNode s r p f) a =
      { ringOf s a with
        nodes := if a = r then Tab.set {} (ringOf s r).nodes p (f (nodeOf s r p)) else (ringOf s a).nodes } :=
  ringOf_setNode s r p a _

@[simp] theorem nodeOf_setNode (s : State) (r p a b : Nat) (n : Node) :
    nodeOf (setNode s r p n) a b = if a = r ∧ b = p then n else nodeOf s a b :=
  nodeOf_modNode s r p a b fun _ => n

/-- What a change of a node leaves of it, it leaves of every node. -/
theorem modNode_keeps {β : Type} (g : Node → β) {f : Node → Node} (hf : ∀ n, g (f n) = g n) (s : State)
    (r p a b : Nat) : g (nodeOf (modNode s r p f) a b) = g (nodeOf s a b) := by
  rw [nodeOf_modNode]
  split
  · next h => rw [hf, h.1, h.2]
  · rfl

@[simp] theorem ringOf_mgmtPush (r : Nat) (m : Mgmt) (s : State) (a : Nat) :
    ringOf (mgmtPush r m s) a =
      if a = r then { ringOf s r with mgmt := (ringOf s r).mgmt ++ [m] } else ringOf s a :=
  ringOf_modRing s r a _

@[simp] theorem nodeOf_mgmtPush (r : Nat) (m : Mgmt) (s : State) (a b : Nat) :
    nodeOf (mgmtPush r m s) a b = nodeOf s a b :=
  nodeOf_modRing s r a b fun _ => rfl

/-! ## Folds -/

/-- Each ring without its nodes. -/
def ringsHeld (s : State) (r : Nat) : Ring := (ringOf s r).held

@[simp] theorem ringsHeld_modNode (s : State) (r p : Nat) (f : Node → Node) :
    ringsHeld (modNode s r p f) = ringsHeld s := by
  funext a
  simp [ringsHeld, Ring.held]

/-- What each step of a fold makes of its element, and no later step undoes, holds of every element at its end. -/
theorem foldl_establishes {γ : Type} {F : State → γ → State} {Q : γ → State → Prop} (hset : ∀ s x, Q x (F s x))
    {l : List γ} (hl : l.Pairwise fun x y => ∀ s, Q x s → Q x (F s y)) {x : γ} (hx : x ∈ l) (s : State) :
    Q x (l.foldl F s) := by
  induction l generalizing s with
  | nil => cases hx
  | cons y l ih =>
    obtain ⟨hy, hl⟩ := List.pairwise_cons.mp hl
    rcases List.mem_cons.mp hx with rfl | hx
    · exact List.foldlRecOn l F (hset s x) fun t ht z hz => hy z hz t ht
    · exact ih hl hx (F s y)

/-! ## Settling -/

/-- What deciding about one node never changes of the rings, settling does not change. -/
theorem settle_ring_of {Q : Tab Ring → Prop} (h : ∀ r s p, Q s.ring → Q (settleNodeAuth r s p).ring) {s : State}
    (hs : Q s.ring) : Q (settle s).ring := by
  have e : (settle s).ring = (settleAuth (settleHostOpen s)).ring := by
    simp [settle, id @settleChar_keep, id @settleDrv_keep, id @settleLevel_keep, id @settleNet_keep,
      id @settleOverflow_keep, id @settlePins_keep]
  have e0 : (settleHostOpen s).ring = s.ring := by simp [id @settleHostOpen_keep]
  have hfold (r : Nat) (t : State) (ht : Q t.ring) : Q ((positions t r).foldl (settleNodeAuth r) t).ring :=
    List.foldlRecOn (motive := fun u : State => Q u.ring) _ _ ht fun u hu p _ => h r u p hu
  rw [e]
  exact hfold 1 _ (hfold 0 _ (e0 ▸ hs))

theorem settleNodeAuth_nodes_nil {q : Nat} (r : Nat) (s : State) (p : Nat) (h : (ringOf s q).nodes = []) :
    (ringOf (settleNodeAuth r s p) q).nodes = [] := by
  by_cases hq : q = r
  · subst hq
    simp [settleNodeAuth, nodeOf, h, Tab.get]
  · simp only [settleNodeAuth]
    repeat' split
    all_goals simpa [hq] using h

/-- A ring without a node has none when all has settled. -/
theorem settle_nodes_nil {s : State} {r : Nat} (h : (ringOf s r).nodes = []) : (ringOf (settle s) r).nodes = [] :=
  settle_ring_of (Q := fun x => (Tab.get {} x r).nodes = []) (fun r s p => settleNodeAuth_nodes_nil r s p) h

theorem settleNodeAuth_of_not_pending {a b : Nat} (r : Nat) (s : State) (p : Nat)
    (h : (nodeOf s a b).failPend = false) : nodeOf (settleNodeAuth r s p) a b = nodeOf s a b := by
  unfold settleNodeAuth
  dsimp only
  split
  · split
    · next hp =>
      have hne : ¬ (a = r ∧ b = p) := by
        rintro ⟨rfl, rfl⟩
        simp [h] at hp
      simp [hne]
    · rfl
  · rfl

/-- Settling leaves a node that waits for no opening (R532). -/
theorem settle_node_of_not_pending {s : State} {r p : Nat} (h : (nodeOf s r p).failPend = false) :
    nodeOf (settle s) r p = nodeOf s r p := by
  refine settle_ring_of (Q := fun x => Tab.get {} (Tab.get {} x r).nodes p = nodeOf s r p) (fun q t a ht => ?_) rfl
  have ht' : nodeOf t r p = nodeOf s r p := ht
  exact (settleNodeAuth_of_not_pending q t a (by rw [ht', h])).trans ht'

end Sys2Proof.Machine
end

section
/-! PROOFS. What reach, the delays and the configuration of nodes leave of the rings and of the names of the nodes. -/

namespace Sys2Proof.Machine

/-- What names a node: its UID, its kind and whether it is still to be unwrapped. -/
def Node.ident (n : Node) : BitVec 64 × Nat × Bool := (n.uid, n.kind, n.fresh)

theorem settle_ident (s : State) (r p : Nat) : (nodeOf (settle s) r p).ident = (nodeOf s r p).ident := by
  simp [Node.ident, id @settle_nodeOf]

theorem ringsHeld_of_ring {s t : State} (e : t.ring = s.ring) : ringsHeld t = ringsHeld s := by
  funext r
  simp [ringsHeld, ringOf, e]

theorem nodeSetup_ident (s : State) (a b : Option Nat) (n : Node) : (nodeSetup s a b n).ident = n.ident := rfl

@[simp] theorem ringsHeld_emit (code : Nat) (payload : List Byte) (s : State) (ix : Nat) :
    ringsHeld (emit code payload s ix) = ringsHeld s :=
  ringsHeld_of_ring (by simp [id @emit_keep])

@[simp] theorem ringsHeld_emitIf (b : Bool) (code : Nat) (payload : List Byte) (s : State) (ix : Nat) :
    ringsHeld (emitIf b code payload s ix) = ringsHeld s :=
  ringsHeld_of_ring (by simp [id @emitIf_keep])

/-! ## Reach -/

theorem reach_ident (r : Nat) (s : State) (a b : Nat) : (nodeOf (reach r s) a b).ident = (nodeOf s a b).ident := by
  simp only [reach, nodeOf_modRing, implies_true]
  exact foldl_keep (fun t => (nodeOf t a b).ident) _ _ _ fun t p =>
    modNode_keeps Node.ident (f := nodeReach (ringOf s r) p) (fun _ => rfl) t r p a b

/-- Reach sets of the ring its counts and, once it is in service, its state by the break registers (R117, R132). -/
theorem reach_ringOf (r : Nat) (s : State) :
    (ringOf (reach r s) r).enumStep = (ringOf s r).enumStep ∧
    (ringOf (reach r s) r).inService = (ringOf s r).inService ∧
    (ringOf (reach r s) r).aLast = (ringOf s r).aLast ∧ (ringOf (reach r s) r).bFirst = (ringOf s r).bFirst ∧
    (ringOf (reach r s) r).breaks = (ringOf s r).breaks ∧ (ringOf (reach r s) r).liveStep = (ringOf s r).liveStep ∧
    (ringOf (reach r s) r).liveK = (ringOf s r).liveK ∧
    (ringOf (reach r s) r).state = if !(ringOf s r).inService then (ringOf s r).state
      else if (ringOf s r).breaks = 0 then .whole else if (ringOf s r).breaks = 1 then .wrapped else .broken2 := by
  have hrings :
      ringsHeld ((positions s r).foldl (fun t p => modNode t r p (nodeReach (ringOf s r) p)) s) = ringsHeld s :=
    foldl_keep ringsHeld _ _ _ fun t p => ringsHeld_modNode t r p _
  have hring := Ring.of_held (congrFun hrings r)
  simp [reach, id @hring]

/-! ## Delays and configuration -/

theorem takeDelay_ringsHeld (r p : Nat) (a b : Option Nat) (loop : Option (Nat × Nat)) (s : State) :
    ringsHeld (takeDelay r p a b loop s) = ringsHeld s := by
  simp [takeDelay]

/-- What the reach of a node and the measured delays leave of it, a delay that is taken leaves of every node. -/
theorem takeDelay_keeps {β : Type} (g : Node → β) (hg : ∀ n x p a b bad,
      g (nodeReach x p { n with dA := a, dB := b, skewFault := bad }) = g n)
    (r p : Nat) (da db : Option Nat) (loop : Option (Nat × Nat)) (s : State) (a b : Nat) :
    g (nodeOf (takeDelay r p da db loop s) a b) = g (nodeOf s a b) := by
  unfold takeDelay
  rw [modNode_keeps g fun n => hg n _ _ _ _ _, emitIf_nodeOf]

/-- One node of `measureNodes`. -/
def measureNode (r : Nat) (loop : Option (Nat × Nat)) (s : State) (m : DelayMeas) : State :=
  let n := nodeOf s r m.pos
  if n.kind = 0 then s
  else
    let s1 := takeDelay r m.pos (echoDelay n.tTurn m.rttA) (echoDelay n.tTurn m.rttB) loop s
    modNode s1 r m.pos (nodeSetup s1 (echoDelay n.tTurn m.rttA) (echoDelay n.tTurn m.rttB))

theorem measureNodes_eq (r : Nat) (loop : Option (Nat × Nat)) (ms : List DelayMeas) (s : State) :
    measureNodes r loop ms s = ms.foldl (measureNode r loop) s := rfl

theorem measureNodes_ringsHeld (r : Nat) (loop : Option (Nat × Nat)) (ms : List DelayMeas) (s : State) :
    ringsHeld (measureNodes r loop ms s) = ringsHeld s := by
  refine foldl_keep ringsHeld (measureNode r loop) ms s fun t m => ?_
  simp only [measureNode]
  split
  · rfl
  · simp [takeDelay_ringsHeld]

theorem measureNodes_ident (r : Nat) (loop : Option (Nat × Nat)) (ms : List DelayMeas) (s : State) (a b : Nat) :
    (nodeOf (measureNodes r loop ms s) a b).ident = (nodeOf s a b).ident := by
  refine foldl_keep (fun t => (nodeOf t a b).ident) (measureNode r loop) ms s fun t m => ?_
  simp only [measureNode]
  split
  · rfl
  · rw [modNode_keeps Node.ident (nodeSetup_ident _ _ _), takeDelay_keeps Node.ident fun _ _ _ _ _ _ => rfl]

end Sys2Proof.Machine
end

section
/-! PROOFS. The periodic challenges (R125 to R127, R532): what a challenge writes, what a tag that passes or fails makes
of its node, and the statement of both. -/

namespace Sys2Proof.Machine

/-! ## A challenge -/

theorem nodeOf_challenge (r p : Nat) (s : State) :
    nodeOf (challenge r p s) r p =
      { nodeOf s r p with nonce := (takeFree s).1, chalAt := s.time.tns, chalOut := true } := by
  have e : nodeOf (takeFree s).2 r p = nodeOf s r p := rfl
  simp [challenge, e]

/-- A challenge in a gap forgets the tag read before it and writes its nonce (R122, R126). -/
theorem nodeOf_challengeGap (r p : Nat) (s : State) :
    nodeOf (challengeGap r p s) r p =
      { nodeOf s r p with tagRx := none, nonce := (takeFree s).1, chalAt := s.time.tns, chalOut := true } := by
  simp [challengeGap, nodeOf_challenge, takeFree, id @modNode_keep]

theorem challengeGap_writes (r p : Nat) (s : State) :
    (challengeGap r p s).freeIx = s.freeIx + 1 ∧ (ringOf (challengeGap r p s) r).mgmt = (ringOf s r).mgmt ++
      [{ pos := p, write := true, addr := 0x40, n := 8, data := le 8 (takeFree s).1.toNat }] := by
  have e (t : State) : ringOf (takeFree t).2 r = ringOf t r := rfl
  constructor
  · simp [challengeGap, challenge, takeFree, mgmtPush, id @modNode_keep, id @modRing_keep]
  · simp [challengeGap, challenge, e]
    simp [takeFree, id @modNode_keep]

theorem nodeChallenge_challenges {r p i : Nat} {s : State} (hi : (nodeOf s r p).string = some i)
    (hserve : ringServes s r = true) (hout : nodeOut (nodeOf s r p) = false) (hchal : (nodeOf s r p).chalOut = false)
    (hdue : s.time.tns ≥ (nodeOf s r p).chalAt + s.cfg.sec.chalPeriod * 1000000000) :
    completes (.nodeChallenge r p) s fun t =>
      (nodeOf t r p).chalOut = true ∧ (nodeOf t r p).chalAt = s.time.tns ∧ (nodeOf t r p).nonce = (takeFree s).1 ∧
      t.freeIx = s.freeIx + 1 ∧ (ringOf t r).mgmt = (ringOf s r).mgmt ++
        [{ pos := p, write := true, addr := 0x40, n := 8, data := le 8 (takeFree s).1.toNat }] := by
  refine ⟨challengeGap r p (keyAbsent i s), ?_, ?_⟩
  · simp [exec, execNodeChallenge, hi, hserve, hout, hchal, hdue]
  · have hring := ringOf_of_ring (show (keyAbsent i s).ring = s.ring by simp [id @keyAbsent_keep]) r
    have hfree : (takeFree (keyAbsent i s)).1 = (takeFree s).1 := by simp [takeFree, id @keyAbsent_keep]
    simp [nodeOf_challengeGap, challengeGap_writes, hfree, hring, id @keyAbsent_keep]

/-! ## A tag -/

/-- A tag is compared by the node's string, nonce and UID, the pod keys and this master's MID (R125). -/
theorem tagOk_congr {s t : State} {r p : Nat} (hstring : (nodeOf t r p).string = (nodeOf s r p).string)
    (hnonce : (nodeOf t r p).nonce = (nodeOf s r p).nonce) (huid : (nodeOf t r p).uid = (nodeOf s r p).uid)
    (hnv : t.nv = s.nv) (hsec : t.sec = s.sec) (tag : List Byte) : tagOk t r p tag = tagOk s r p tag := by
  simp only [tagOk, hstring]
  split <;> simp [nodeTag, podKey, hnonce, huid, hnv, hsec]

/-- Without a pod key every challenge fails (R527). -/
theorem tagOk_of_no_key {s : State} {r p i : Nat} (hi : (nodeOf s r p).string = some i) (hkey : podKey s i = [])
    (tag : List Byte) : tagOk s r p tag = false := by
  simp [tagOk, hi, hkey]

theorem nodeOf_authPass (r p : Nat) (s : State) :
    nodeOf (authPass r p s) r p =
      { nodeOf s r p with
        chalOut := false, authFails := 0, failPend := false
        auth := if (nodeOf s r p).pairBad then (nodeOf s r p).auth else .passed } := by
  have e (x : Sec) : nodeOf { s with sec := x } r p = nodeOf s r p := rfl
  simp [authPass, e]

theorem authPass_sec (r p : Nat) (s : State) :
    (authPass r p s).sec = { s.sec with authPass := sat 16 (s.sec.authPass + 1) } := by
  simp [authPass, id @modNode_keep]

/-- A second failure at enumeration, live insertion or wake, or while the string stands open, makes the node foreign at
once (R127). -/
theorem authFail_now {occ r p i : Nat} {s : State} (hi : (nodeOf s r p).string = some i)
    (hnow : occ ≠ 3 ∨ standsOpen s i = true) :
    authFail occ r p s =
      modNode (emit 0x0409 (le 1 r ++ le 1 p ++ le 1 i ++ le 1 occ ++ le 8 (nodeOf s r p).uid.toNat) s i) r p fun n =>
        { n with chalOut := false, authFails := 0, auth := foreignAuth s i, failPend := false } := by
  have hkeeps : (occ == 3 && !standsOpen s i) = false := by rcases hnow with h | h <;> simp [h]
  simp [authFail, hi, hkeeps]

theorem nodeOf_authFail {occ r p i : Nat} {s : State} (hi : (nodeOf s r p).string = some i)
    (hnow : occ ≠ 3 ∨ standsOpen s i = true) :
    nodeOf (authFail occ r p s) r p =
      { nodeOf s r p with chalOut := false, authFails := 0, auth := foreignAuth s i, failPend := false } := by
  simp [authFail_now hi hnow, emit_nodeOf]

theorem foreignAuth_congr {s t : State} (e : t.cfg = s.cfg) (i : Nat) : foreignAuth t i = foreignAuth s i := by
  simp [foreignAuth, e]

/-! ## The tag that a node answers with -/

/-- The tag read from a node is taken from it to be compared. -/
def tagTaken (r p : Nat) (s : State) : State := modNode s r p fun n => { n with tagRx := none }

@[simp] theorem nodeOf_tagTaken (r p : Nat) (s : State) :
    nodeOf (tagTaken r p s) r p = { nodeOf s r p with tagRx := none } := by
  simp [tagTaken]

theorem tagTaken_keep (r p : Nat) (s : State) :
    (tagTaken r p s).cfg = s.cfg ∧ (tagTaken r p s).husk = s.husk ∧ (tagTaken r p s).nv = s.nv ∧
    (tagTaken r p s).sec = s.sec := by
  simp [tagTaken, id @modNode_keep]

@[simp] theorem nodeOf_countFail (s : State) (r p : Nat) : nodeOf (countFail s) r p = nodeOf s r p := rfl

theorem countFail_sec (s : State) : (countFail s).sec = { s.sec with authFail := sat 16 (s.sec.authFail + 1) } := rfl

section
variable {r p : Nat} {tag : List Byte} {s : State} (hout : (nodeOf s r p).chalOut = true)
  (htag : (nodeOf s r p).tagRx = some tag)
include hout htag

theorem exec_nodeTagCheck :
    exec (.nodeTagCheck r p) s = .next (settle (if tagOk s r p tag then authPass r p (tagTaken r p s)
      else if (nodeOf s r p).authFails = 0 then
        challengeGap r p (modNode (countFail (tagTaken r p s)) r p fun n => { n with authFails := 1 })
      else authFail 3 r p (countFail (tagTaken r p s)))) := by
  have hok : tagOk (tagTaken r p s) r p tag = tagOk s r p tag :=
    tagOk_congr (by simp) (by simp) (by simp) (tagTaken_keep r p s).2.2.1 (tagTaken_keep r p s).2.2.2 tag
  rw [← hok]
  simp only [exec, execNodeTagCheck, hout, htag]
  rfl

theorem nodeTagCheck_passes (hok : tagOk s r p tag = true) :
    completes (.nodeTagCheck r p) s fun t =>
      (nodeOf t r p).chalOut = false ∧ (nodeOf t r p).authFails = 0 ∧ t.sec.authPass = sat 16 (s.sec.authPass + 1) ∧
      t.sec.authFail = s.sec.authFail ∧ ((nodeOf s r p).pairBad = false → (nodeOf t r p).auth = .passed) := by
  refine ⟨_, exec_nodeTagCheck hout htag, ?_⟩
  dsimp only
  rw [if_pos hok, settle_node_of_not_pending (by simp [nodeOf_authPass])]
  simp +contextual [nodeOf_authPass, authPass_sec, id @settle_keep, id @tagTaken_keep]

theorem nodeTagCheck_challenges_again (hbad : tagOk s r p tag = false) (hfirst : (nodeOf s r p).authFails = 0)
    (hpend : (nodeOf s r p).failPend = false) :
    completes (.nodeTagCheck r p) s fun t =>
      (nodeOf t r p).chalOut = true ∧ (nodeOf t r p).authFails = 1 ∧ t.sec.authFail = sat 16 (s.sec.authFail + 1) ∧
      (nodeOf t r p).auth = (nodeOf s r p).auth := by
  refine ⟨_, exec_nodeTagCheck hout htag, ?_⟩
  dsimp only
  rw [if_neg (by simp [hbad]), if_pos hfirst, settle_node_of_not_pending (by simp [nodeOf_challengeGap, hpend])]
  simp [nodeOf_challengeGap, id @settle_keep, id @challengeGap_keep, id @modNode_keep, countFail_sec,
    id @tagTaken_keep]

theorem nodeTagCheck_makes_foreign {i : Nat} (hbad : tagOk s r p tag = false) (hsecond : (nodeOf s r p).authFails ≠ 0)
    (hi : (nodeOf s r p).string = some i) (hopen : standsOpen s i = true) :
    completes (.nodeTagCheck r p) s fun t =>
      (nodeOf t r p).chalOut = false ∧ (nodeOf t r p).authFails = 0 ∧ (nodeOf t r p).auth = foreignAuth s i := by
  obtain ⟨hcfg, hhusk, -, -⟩ := tagTaken_keep r p s
  have hnode := nodeOf_authFail (occ := 3) (s := countFail (tagTaken r p s)) (r := r) (p := p) (i := i)
    (by simpa using hi) (.inr ((standsOpen_congr hhusk i).trans hopen))
  refine ⟨_, exec_nodeTagCheck hout htag, ?_⟩
  dsimp only
  rw [if_neg (by simp [hbad]), if_neg hsecond, settle_node_of_not_pending (by simp [hnode]), hnode]
  exact ⟨rfl, rfl, foreignAuth_congr hcfg i⟩

end

/-- Settles O20: a challenge is a fresh nonce and its write, and each answer's end is what the node reads after it,
since none leaves it waiting for an opening. -/
theorem nodeChallenges : Obligations.NodeChallenges :=
  ⟨fun _ _ _ _ => nodeChallenge_challenges, fun _ _ _ _ => nodeTagCheck_passes,
    fun _ _ _ _ => nodeTagCheck_challenges_again, fun _ _ _ _ _ hout htag => nodeTagCheck_makes_foreign hout htag⟩

end Sys2Proof.Machine
end

section
/-! PROOFS. Enumeration (R112 to R115, R123, R127): what each step makes of the ring and of its nodes, and the
statement of the ten. -/

namespace Sys2Proof.Machine

/-! ## Steps 1 to 3 -/

theorem ringStart_wakes {r : Nat} {s : State} (hmay : enumMay s = true) (himg : s.img.selected = true) (hr : r < 2)
    (hask : (ringOf s r).state = .off ∨ (ringOf s r).enumReq = true) (hsleep : (ringOf s r).state ≠ .sleeping) :
    completes (.ringStart r) s fun t =>
      (ringOf t r).state = .waking ∧ (ringOf t r).enumStep = 1 ∧ (ringOf t r).nodes = [] ∧
      (ringOf t r).enumReq = false ∧ (ringOf t r).inService = false := by
  refine ⟨_, rfl, ?_⟩
  have hgo : (enumMay s && s.img.selected && decide (r < 2) && ((ringOf s r).state == .off || (ringOf s r).enumReq ||
      ((ringOf s r).state == .waking && (ringOf s r).enumStep == 0)) && (ringOf s r).state != .sleeping) = true := by
    rcases hask with h | h <;> simp [hmay, himg, hr, h, hsleep]
  simp only [hgo, Bool.not_true, Bool.false_eq_true, if_false]
  simp [settle_nodes_nil, id @settle_ringOf]

theorem enumTokenA_counts {r n : Nat} {back : Bool} {s : State} (h : (ringOf s r).enumStep = 1) :
    exec (.enumTokenA r n back) s = .next (modRing s r fun x =>
      { x with state := .enumerating, enumStep := 2, cntA := n % 256, tokA := back }) := by
  simp [exec, execEnumTokenA, h]

theorem enumTokenB_counts {r n : Nat} {s : State} (h : (ringOf s r).enumStep = 2) :
    exec (.enumTokenB r n) s = .next (modRing s r fun x => { x with enumStep := 3, cntB := n % 256 }) := by
  simp [exec, execEnumTokenB, h]

/-! ## Step 4: the nodes are read -/

theorem nodeOf_putNodes {r : Nat} {ps : List (Nat × NodeDesc)} (hnd : (ps.map (·.1)).Nodup) {pd : Nat × NodeDesc}
    (hpd : pd ∈ ps) (s : State) : nodeOf (putNodes r ps s) r pd.1 = nodeOfDesc pd.2 := by
  refine foldl_establishes (F := fun t pd => setNode t r pd.1 (nodeOfDesc pd.2))
    (Q := fun pd t => nodeOf t r pd.1 = nodeOfDesc pd.2) (fun t pd => ?_) ?_ hpd s
  · rw [nodeOf_setNode, if_pos ⟨rfl, rfl⟩]
  · refine (List.pairwise_map.mp hnd).imp fun hne t h => ?_
    rw [nodeOf_setNode, if_neg (by simp [hne]), h]

theorem nodeAssign_ident (s : State) (r p : Nat) (n : Node) : (nodeAssign s r p n).ident = n.ident := by
  unfold nodeAssign
  repeat' split
  all_goals rfl

theorem assignRing_ident (r : Nat) (s : State) (a b : Nat) :
    (nodeOf (assignRing r s) a b).ident = (nodeOf s a b).ident :=
  foldl_keep (fun t => (nodeOf t a b).ident) _ _ _ fun t p =>
    modNode_keeps Node.ident (nodeAssign_ident t r p) t r p a b

theorem enumTopo_ident (r : Nat) (s : State) (a b : Nat) :
    (nodeOf (enumTopo r s) a b).ident = (nodeOf s a b).ident := by
  have hload := nodeOf_of_ring (show (sproutLoad r s).ring = s.ring by simp [id @sproutLoad_keep]) a b
  have hcheck := nodeOf_of_ring (show (topoCheck r s).ring = s.ring by simp [id @topoCheck_keep]) a b
  unfold enumTopo
  split <;> simp [assignRing_ident, hload, hcheck]

theorem enumMap_ident (r : Nat) (complete : Bool) (s : State) (a b : Nat) :
    (nodeOf (enumMap r complete s) a b).ident = (nodeOf s a b).ident := by
  have hqueue (t : State) := nodeOf_of_ring (show (nvQueue 5 t).ring = t.ring by simp [id @nvQueue_keep]) a b
  unfold enumMap
  split <;> simp [hqueue]

/-- A ring that is accepted whole holds the nodes that were read, at their positions. -/
theorem enumAccept_whole {r : Nat} {ps : List (Nat × NodeDesc)} (hnd : (ps.map (·.1)).Nodup) (a b nr : Nat)
    (s : State) :
    (ringOf (enumAccept r ps true true a b nr s) r).enumStep = 4 ∧
    ∀ pd ∈ ps, (nodeOf (enumAccept r ps true true a b nr s) r pd.1).ident = (nodeOfDesc pd.2).ident := by
  constructor
  · simp [enumAccept, id @settle_ringOf, id @reach_ringOf]
  · intro pd hpd
    simp [enumAccept, enumBreaks, settle_ident, reach_ident, enumMap_ident, enumTopo_ident, nodeOf_putNodes hnd hpd]

section
variable {r : Nat} {regs : List (List Byte)} {s : State} (h3 : (ringOf s r).enumStep = 3)
  (htok : (ringOf s r).tokA = false)
include h3 htok

theorem enumRead_accepts (hcause : enumCause (ringOf s r) (regs.map descOf) = 0)
    (hnd : (regs.map fun b => (descOf b).pos).Nodup)
    (hcells : ((regs.map descOf).filter fun d => d.kind == 1).length ≤ 48) :
    completes (.enumRead r regs) s fun t => (ringOf t r).enumStep = 4 ∧
      ∀ b ∈ regs, (nodeOf t r (descOf b).pos).uid = (descOf b).uid ∧
        (nodeOf t r (descOf b).pos).kind = (descOf b).kind := by
  have hps : (((regs.map descOf).map fun d => (d.pos, d)).map (·.1)).Nodup := by simpa [Function.comp_def] using hnd
  obtain ⟨hstep, hnodes⟩ := enumAccept_whole (r := r) hps (ringOf s r).cntA 0 0 s
  have hx : exec (.enumRead r regs) s =
      .next (enumAccept r ((regs.map descOf).map fun d => (d.pos, d)) true true (ringOf s r).cntA 0 0 s) := by
    simp [exec, execEnumRead, h3, htok, hcause, Nat.not_lt.mpr hcells]
  refine ⟨_, hx, hstep, ?_⟩
  · intro b hb
    have hident := hnodes ((descOf b).pos, descOf b) (by simpa using ⟨b, hb, rfl, rfl⟩)
    simp only [Node.ident, nodeOfDesc, Prod.mk.injEq] at hident
    exact ⟨hident.1, hident.2.1⟩

theorem enumRead_repeats (hcause : enumCause (ringOf s r) (regs.map descOf) ≠ 0) (htries : (ringOf s r).enumTries < 2) :
    exec (.enumRead r regs) s = .next (modRing s r fun x =>
      { x with state := .waking, enumStep := 0, enumTries := x.enumTries + 1 }) := by
  simp [exec, execEnumRead, h3, htok, hcause, Nat.not_le.mpr htries]

theorem enumRead_fails (hcause : enumCause (ringOf s r) (regs.map descOf) ≠ 0) (htries : (ringOf s r).enumTries ≥ 2) :
    completes (.enumRead r regs) s fun t => (ringOf t r).state = .failed ∧ (ringOf t r).enumErr = true ∧
      (ringOf t r).enumStep = 0 ∧ (ringOf t r).nodes = [] := by
  refine ⟨enumFail r (enumCause (ringOf s r) (regs.map descOf)) s, ?_, ?_⟩
  · simp [exec, execEnumRead, h3, htok, hcause, htries]
  · simp [enumFail, settle_nodes_nil, id @settle_ringOf]

end

/-! ## Step 5: delays and registers -/

/-- A node holds what the configuration of a node leaves in it (R123, R138). -/
def setUp (r p : Nat) (s : State) : Prop :=
  (nodeOf s r p).acqOk = true ∧ (nodeOf s r p).balTo = s.cfg.acq.tBalTo

/-- The configuration of a node establishes it there and keeps it elsewhere. -/
theorem setUp_nodeSetup (r p q : Nat) (a b : Option Nat) {s : State} (h : q = p ∨ setUp r q s) :
    setUp r q (modNode s r p (nodeSetup s a b)) := by
  by_cases hq : q = p
  · simp [setUp, hq, nodeSetup, id @modNode_keep]
  · simpa [setUp, hq, id @modNode_keep] using h.resolve_left hq

theorem setUp_takeDelay (r p q : Nat) (a b : Option Nat) (loop : Option (Nat × Nat)) {s : State} (h : setUp r q s) :
    setUp r q (takeDelay r p a b loop s) := by
  have hkeep := takeDelay_keeps (fun n => (n.acqOk, n.balTo)) (fun _ _ _ _ _ _ => rfl) r p a b loop s r q
  simp only [Prod.mk.injEq] at hkeep
  simpa [setUp, hkeep, id @takeDelay_keep] using h

theorem setUp_measureNodes (r q : Nat) (loop : Option (Nat × Nat)) (ms : List DelayMeas) {s : State} (h : setUp r q s) :
    setUp r q (measureNodes r loop ms s) := by
  rw [measureNodes_eq]
  refine List.foldlRecOn ms _ h fun t ht m _ => ?_
  simp only [measureNode]
  split
  · exact ht
  · exact setUp_nodeSetup r m.pos q _ _ (.inr (setUp_takeDelay r m.pos q _ _ loop ht))

theorem enumMeasure_configures {r a b : Nat} {ms : List DelayMeas} {s : State} (h4 : (ringOf s r).enumStep = 4) :
    completes (.enumMeasure r (some (a, b)) ms) s fun t => (ringOf t r).enumStep = 5 ∧ (ringOf t r).lCW = a ∧
      (ringOf t r).lCCW = b ∧ (ringOf t r).skewRisk = decide (a > 4900 ∨ b > 4900) ∧
      ∀ q ∈ positions s r, (nodeOf t r q).acqOk = true ∧ (nodeOf t r q).balTo = s.cfg.acq.tBalTo := by
  refine ⟨_, rfl, ?_⟩
  rw [if_neg (by simp [h4])]
  extract_lets s1 s2 s3
  have hrings : ringsHeld s3 = ringsHeld s1 :=
    (measureNodes_ringsHeld r _ ms s2).trans (foldl_keep ringsHeld _ _ _ fun t p => ringsHeld_modNode t r p _)
  have hring := Ring.of_held (congrFun hrings r)
  have hcfg : s3.cfg = s.cfg := by simp [s3, s2, s1, id @measureNodes_keep, id @modNode_keep, id @takeLoop_keep]
  have hset (q : Nat) (hq : q ∈ positions s1 r) : setUp r q s3 :=
    setUp_measureNodes r q _ ms (foldl_establishes (Q := setUp r) (fun t p => setUp_nodeSetup r p p _ _ (.inl rfl))
      (List.pairwise_of_forall fun x y t ht => setUp_nodeSetup r y x _ _ (.inr ht)) hq s1)
  have hpos : positions s1 r = positions s r := by simp [s1, takeLoop, positions]
  refine ⟨by simp, by simp [hring, s1, takeLoop], by simp [hring, s1, takeLoop], by simp [hring, s1, takeLoop], ?_⟩
  intro q hq
  simpa [setUp, hcfg] using hset q (hpos ▸ hq)

/-! ## Step 6: authentication -/

theorem enumAuthenticate_steps {r : Nat} {rs : List AuthResp} {s : State} (h5 : (ringOf s r).enumStep = 5) :
    completes (.enumAuthenticate r rs) s fun t => (ringOf t r).enumStep = 6 := by
  refine ⟨_, rfl, ?_⟩
  simp [h5, id @settle_ringOf]

theorem podKey_congr {s t : State} (e : t.nv = s.nv) (i : Nat) : podKey t i = podKey s i := by simp [podKey, e]

theorem nodeOf_keyAbsent (i : Nat) (s : State) (r p : Nat) : nodeOf (keyAbsent i s) r p = nodeOf s r p :=
  nodeOf_of_ring (by simp [id @keyAbsent_keep]) r p

/-- The first challenge of a node at enumeration, live insertion or wake (R126). -/
def firstChallenge (r p i : Nat) (s : State) : State :=
  challenge r p (keyAbsent i (modNode s r p fun n => { n with auth := .pending }))

/-- The second challenge, after the first has failed and is counted (R126, R538). -/
def secondChallenge (r p : Nat) (s : State) : State := challenge r p (countFail s)

theorem authNode_of_string {r i : Nat} {a : AuthResp} {s : State} (hi : (nodeOf s r a.pos).string = some i)
    (occ : Nat) :
    authNode occ r s a =
      if tagOk (firstChallenge r a.pos i s) r a.pos a.tag1 then authPass r a.pos (firstChallenge r a.pos i s)
      else if tagOk (secondChallenge r a.pos (firstChallenge r a.pos i s)) r a.pos a.tag2 then
        authPass r a.pos (secondChallenge r a.pos (firstChallenge r a.pos i s))
      else authFail occ r a.pos (countFail (secondChallenge r a.pos (firstChallenge r a.pos i s))) := by
  simp only [authNode, hi]
  rfl

theorem firstChallenge_keeps (r p i : Nat) (s : State) :
    (nodeOf (firstChallenge r p i s) r p).string = (nodeOf s r p).string ∧ (firstChallenge r p i s).nv = s.nv := by
  simp [firstChallenge, nodeOf_challenge, nodeOf_keyAbsent, id @challenge_keep, id @keyAbsent_keep, id @modNode_keep]

theorem secondChallenge_keeps (r p : Nat) (s : State) :
    (nodeOf (secondChallenge r p s) r p).string = (nodeOf s r p).string ∧ (secondChallenge r p s).nv = s.nv := by
  simp [secondChallenge, nodeOf_challenge, id @challenge_keep, id @countFail_keep]

section
variable {r i : Nat} {a : AuthResp} {s : State} (hi : (nodeOf s r a.pos).string = some i) (hkey : podKey s i = [])
include hi hkey

/-- Without a pod key both challenges of a node fail (R527), and none of its failures waits for an opening. -/
theorem authNode_without_key {occ : Nat} (hocc : occ ≠ 3) :
    (nodeOf (authNode occ r s a) r a.pos).string = some i ∧ (nodeOf (authNode occ r s a) r a.pos).failPend = false ∧
    (authNode occ r s a).nv = s.nv := by
  obtain ⟨hstring1, hnv1⟩ := firstChallenge_keeps r a.pos i s
  rw [hi] at hstring1
  generalize hs1 : firstChallenge r a.pos i s = s1 at hstring1 hnv1
  obtain ⟨hstring2, hnv2⟩ := secondChallenge_keeps r a.pos s1
  rw [hstring1] at hstring2
  have hfirst := tagOk_of_no_key hstring1 ((podKey_congr hnv1 i).trans hkey) a.tag1
  have hsecond := tagOk_of_no_key hstring2 ((podKey_congr (hnv2.trans hnv1) i).trans hkey) a.tag2
  have hfail := authFail_now (occ := occ) (s := countFail (secondChallenge r a.pos s1)) (by simpa using hstring2)
    (.inl hocc)
  rw [authNode_of_string hi, hs1, if_neg (by simp [hfirst]), if_neg (by simp [hsecond]), hfail]
  simp [emit_nodeOf, hstring2, hnv2, hnv1, id @modNode_keep, id @emit_keep, id @countFail_keep]

/-- Without a pod key a node's pairing record does not verify, and the node is foreign (R531). -/
theorem pairCheck_without_key :
    nodeOf (pairCheck r s a) r a.pos =
      { nodeOf s r a.pos with pair := padTo 56 a.pair, pairBad := true, podOk := false, auth := foreignAuth s i } := by
  simp [pairCheck, hi, hkey, emit_nodeOf]

end

theorem pairMend_of_pairBad {r : Nat} {a : AuthResp} {s : State} (h : (nodeOf s r a.pos).pairBad = true) :
    pairMend r s a = s := by
  unfold pairMend
  split <;> simp [pairStale, h]

theorem nodeOf_podForeignCheck (s : State) (r p : Nat) : nodeOf (podForeignCheck s) r p = nodeOf s r p :=
  nodeOf_of_ring (by simp [id @podForeignCheck_keep]) r p

theorem authAll_single (occ r : Nat) (a : AuthResp) (s : State) :
    authAll occ r [a] s = pairMend r (podForeignCheck (pairCheck r (authNode occ r s a) a)) a := rfl

/-- A node of a string without a pod key is authenticated as a foreign one (R127, R527). -/
theorem authAll_without_key {occ r i : Nat} {a : AuthResp} {s : State} (hocc : occ ≠ 3)
    (hi : (nodeOf s r a.pos).string = some i) (hkey : podKey s i = []) :
    (nodeOf (authAll occ r [a] s) r a.pos).auth = foreignAuth s i ∧
    (nodeOf (authAll occ r [a] s) r a.pos).failPend = false := by
  obtain ⟨hstring, hpend, hnv⟩ := authNode_without_key hi hkey hocc
  have hpair := pairCheck_without_key hstring ((podKey_congr hnv i).trans hkey)
  have hcfg : (authNode occ r s a).cfg = s.cfg := by simp [id @authNode_keep]
  rw [authAll_single, pairMend_of_pairBad (by rw [nodeOf_podForeignCheck, hpair]), nodeOf_podForeignCheck, hpair]
  exact ⟨foreignAuth_congr hcfg i, hpend⟩

theorem enumAuthenticate_foreign {r i : Nat} {a : AuthResp} {s : State} (h5 : (ringOf s r).enumStep = 5)
    (hi : (nodeOf s r a.pos).string = some i) (hkey : podKey s i = []) :
    completes (.enumAuthenticate r [a]) s fun t => (nodeOf t r a.pos).auth = foreignAuth s i := by
  obtain ⟨hauth, hpend⟩ := authAll_without_key (occ := 1) (by decide) hi hkey
  refine ⟨_, rfl, ?_⟩
  dsimp only
  rw [if_pos h5, settle_node_of_not_pending (by simpa using hpend)]
  simpa using hauth

/-! ## Step 7 -/

theorem enumFirstTrig_serves {r : Nat} {s : State} (h6 : (ringOf s r).enumStep = 6) :
    completes (.enumFirstTrig r) s fun t => (ringOf t r).enumStep = 7 ∧ (ringOf t r).inService = true ∧
      (ringOf t r).state = if (ringOf s r).breaks = 0 then .whole else if (ringOf s r).breaks = 1 then .wrapped
        else .broken2 := by
  refine ⟨_, rfl, ?_⟩
  simp [h6, id @settle_ringOf, id @reach_ringOf]

/-- Settles O17: each step ends with what it writes to the ring and to the nodes it names, and what follows it in the
command leaves that standing. -/
theorem ringEnumerates : Obligations.RingEnumerates :=
  ⟨fun _ _ => ringStart_wakes, fun _ _ _ _ => enumTokenA_counts, fun _ _ _ => enumTokenB_counts,
    fun _ _ _ => enumRead_accepts, fun _ _ _ => enumRead_repeats, fun _ _ _ => enumRead_fails,
    fun _ _ _ _ _ => enumMeasure_configures, fun _ _ _ => enumAuthenticate_steps,
    fun _ _ _ _ => enumAuthenticate_foreign, fun _ _ => enumFirstTrig_serves⟩

end Sys2Proof.Machine
end

section
/-! PROOFS. Collection, alarms, addressed exchanges, delays and lost nodes (R95, R99 to R103, R105, R108, R110, R118):
what each leaves on its ring and of its node, and the statement of all of them. -/

namespace Sys2Proof.Machine

/-! ## COLLECT -/

theorem collectSend_sends {r : Nat} {s : State} (hserve : ringServes s r = true) (hopen : s.sys.frameOpen = true) :
    completes (.collectSend r) s fun t =>
      (ringOf t r).collected = true ∧ (ringOf t r).thinA = sideThin s r false ∧ (ringOf t r).thinB = sideThin s r true ∧
      (ringOf t r).txA = collectFrame s r false ∧ (ringOf t r).txB = collectFrame s r true := by
  refine ⟨_, rfl, ?_⟩
  rw [if_neg (by simp [hserve, hopen])]
  simp

theorem nodeOf_alarmClear (r p : Nat) (stat : Byte) (s : State) (a b : Nat) :
    nodeOf (alarmClear r p stat s) a b = nodeOf s a b :=
  nodeOf_of_ring (by simp [id @alarmClear_keep]) a b

/-- Broken segments move the break registers; the nodes follow at the next boundary (R117). -/
theorem nodeOf_breakSeen (r : Nat) (segs : List Nat) (s : State) (a b : Nat) :
    nodeOf (breakSeen r segs s) a b = nodeOf s a b := by
  unfold breakSeen
  extract_lets
  split
  · rfl
  · simp [emit_nodeOf]

theorem slotTake_rx (r p : Nat) (portB : Bool) (turn : Option Nat) (d : SlotData) (s : State) :
    (if portB then (nodeOf (slotTake r p portB turn d s) r p).rxB else (nodeOf (slotTake r p portB turn d s) r p).rxA) =
      some d := by
  cases portB <;> simp [slotTake, id @settle_nodeOf, nodeOf_alarmClear, nodeOf_breakSeen]

section
variable {r : Nat} {b : Bool} {bytes : List Byte} {turn : Option Nat} {s : State} (hserve : ringServes s r = true)
  (hcol : (ringOf s r).collected = true)
include hserve hcol

theorem exec_collectSlotReceive :
    exec (.collectSlotReceive r b bytes turn) s = .next (
      if served s r (fld bytes 0 1) &&
          slotOk s.time.frm (slotLen (nodeOf s r (fld bytes 0 1)).kind (acqMode s)) bytes then
        if thinTurn s r (fld bytes 0 1) then
          slotTake r (fld bytes 0 1) b turn (slotData (nodeOf s r (fld bytes 0 1)).kind (acqMode s) s.time.frm bytes) s
        else s
      else settle (portErr r b s)) := by
  simp [exec, execCollectSlotReceive, hserve, hcol]

theorem collectSlotReceive_takes (hnode : served s r (fld bytes 0 1) = true)
    (hok : slotOk s.time.frm (slotLen (nodeOf s r (fld bytes 0 1)).kind (acqMode s)) bytes = true)
    (hturn : thinTurn s r (fld bytes 0 1) = true) :
    completes (.collectSlotReceive r b bytes turn) s fun t =>
      (if b then (nodeOf t r (fld bytes 0 1)).rxB else (nodeOf t r (fld bytes 0 1)).rxA) =
        some (slotData (nodeOf s r (fld bytes 0 1)).kind (acqMode s) s.time.frm bytes) := by
  refine ⟨_, exec_collectSlotReceive hserve hcol, ?_⟩
  rw [if_pos (by simp [hnode, hok]), if_pos hturn]
  exact slotTake_rx ..

theorem collectSlotReceive_thinned (hnode : served s r (fld bytes 0 1) = true)
    (hok : slotOk s.time.frm (slotLen (nodeOf s r (fld bytes 0 1)).kind (acqMode s)) bytes = true)
    (hturn : thinTurn s r (fld bytes 0 1) = false) : exec (.collectSlotReceive r b bytes turn) s = .next s := by
  rw [exec_collectSlotReceive hserve hcol, if_pos (by simp [hnode, hok]), if_neg (by simp [hturn])]

theorem collectSlotReceive_counts (hbad : served s r (fld bytes 0 1) = false ∨
      slotOk s.time.frm (slotLen (nodeOf s r (fld bytes 0 1)).kind (acqMode s)) bytes = false) :
    settlesTo (.collectSlotReceive r b bytes turn) s (portErr r b s) := by
  have hnot : ¬ (served s r (fld bytes 0 1) &&
      slotOk s.time.frm (slotLen (nodeOf s r (fld bytes 0 1)).kind (acqMode s)) bytes) = true := by
    rcases hbad with h | h <;> simp [h]
  rw [settlesTo, exec_collectSlotReceive hserve hcol, if_neg hnot]

end

theorem portErr_counts (r : Nat) (b : Bool) (s : State) :
    (if b then (ringOf (portErr r b s) r).errB else (ringOf (portErr r b s) r).errA) =
      sat 32 ((if b then (ringOf s r).errB else (ringOf s r).errA) + 1) := by
  cases b <;> simp [portErr]

/-! ## ALARM -/

@[simp] theorem ringsHeld_setAlarm (r p kind : Nat) (v : Bool) (s : State) :
    ringsHeld (setAlarm r p kind v s) = ringsHeld s := rfl

theorem alarmReceive_counts {r : Nat} {b : Bool} {a : Byte} {s : State} (hlo : 1 ≤ a.toNat % 64)
    (hhi : a.toNat % 64 ≤ 56) :
    completes (.alarmReceive r b a (~~~a)) s fun t => (ringOf t r).alarmCnt = sat 16 ((ringOf s r).alarmCnt + 1) ∧
      (ringOf t r).alarmKind = a.toNat / 64 ∧ (ringOf t r).alarmPos = a.toNat % 64 := by
  refine ⟨_, rfl, ?_⟩
  rw [if_neg (by simp; omega)]
  extract_lets s1 n s2 s3 bit
  have hring (u : State) (hu : ringsHeld u = ringsHeld s1) :
      (ringOf (settle u) r).alarmCnt = sat 16 ((ringOf s r).alarmCnt + 1) ∧
      (ringOf (settle u) r).alarmKind = a.toNat / 64 ∧ (ringOf (settle u) r).alarmPos = a.toNat % 64 := by
    have hheld := Ring.of_held (congrFun hu r)
    simp [id @settle_ringOf, id @hheld, s1]
  have hs2 : ringsHeld s2 = ringsHeld s1 := by
    by_cases h : n.kind = 0
    · simp [s2, h]
    · simp [s2, h]
  have hs3 : ringsHeld s3 = ringsHeld s1 := by
    by_cases h : a.toNat / 64 % 2 = 1
    · simpa [s3, h] using hs2
    · simpa [s3, h] using hs2
  refine hring _ ?_
  split
  · split
    · exact hs3
    · exact hs3
  · exact (ringsHeld_emit ..).trans hs2

theorem alarmReceive_discards {r : Nat} {b : Bool} {a na : Byte} {s : State}
    (hbad : na ≠ ~~~a ∨ a.toNat % 64 = 0 ∨ a.toNat % 64 > 56) :
    exec (.alarmReceive r b a na) s = .next (portErr r b s) := by
  simp only [exec, execAlarmReceive]
  rw [if_pos (by simpa [or_assoc] using hbad)]

/-! ## Addressed exchanges -/

section
variable {r : Nat} {m : Mgmt} {rest : List Mgmt} {s : State}
  (hnext : mgmtNext s.time.tns (ringOf s r).mgmt = some (m, rest)) (hserv : (ringOf s r).inService = true)
  (hgap : mgmtGap s = true)

/-- The request of an exchange has left and waits no longer. -/
def mgmtSent (r : Nat) (m : Mgmt) (rest : List Mgmt) (s : State) : State :=
  ringTx r (nodeOf s r m.pos).refB (mgmtFrame (seqNow s) m) (modRing s r fun x => { x with mgmt := rest })

/-- A READ that has failed three times is not asked for again (R103). -/
theorem mgmtFail_read {r : Nat} {m : Mgmt} (hread : m.write = false) (rstat : Nat) (s : State) :
    (ringOf (mgmtFail r m rstat s) r).mgmt = (ringOf s r).mgmt := by
  simp only [mgmtFail, hread, Bool.false_and, Bool.false_eq_true, if_false]
  split <;> simp [id @emit_entries]

theorem mgmtSent_ring (r : Nat) (m : Mgmt) (rest : List Mgmt) (s : State) :
    (ringOf (mgmtSent r m rest s) r).mgmt = rest ∧
    (ringOf (mgmtSent r m rest s) r).liveStep = (ringOf s r).liveStep := by
  cases h : (nodeOf s r m.pos).refB <;> simp [mgmtSent, ringTx, h]

include hnext hserv hgap

theorem exec_mgmtExchange_done {resp : List Byte} (hfill : mgmtFilled m resp = true) (hstat : fld resp 0 1 = 0) :
    exec (.mgmtExchange r resp) s =
      .next (settle (mgmtDone r m ((resp.drop 2).take m.n) (mgmtSent r m rest s))) := by
  simp [exec, execMgmtExchange, hserv, hgap, hnext, hfill, hstat, mgmtSent]

theorem exec_mgmtExchange_unfilled :
    exec (.mgmtExchange r []) s = .next (settle (
      if m.tries ≥ 2 then mgmtFail r m 0xFF (mgmtSent r m rest s)
      else modRing (mgmtSent r m rest s) r fun x => { x with mgmt := { m with tries := m.tries + 1 } :: rest })) := by
  simp [exec, execMgmtExchange, hserv, hgap, hnext, mgmtFilled, mgmtSent]

theorem mgmtExchange_reads {resp : List Byte} (hread : m.write = false) (hfill : mgmtFilled m resp = true)
    (hstat : fld resp 0 1 = 0) :
    completes (.mgmtExchange r resp) s fun t => (ringOf t r).mgmt = rest ∧
      (m.addr = 0x28 → (nodeOf t r m.pos).die = some (fldI ((resp.drop 2).take m.n) 0 1)) := by
  refine ⟨_, exec_mgmtExchange_done hnext hserv hgap hfill hstat, ?_, fun haddr => ?_⟩
  · simp only [mgmtDone, hread, Bool.false_eq_true, if_false, id @settle_ringOf]
    split <;> simp [mgmtSent_ring]
  · simp [mgmtDone, hread, haddr, id @settle_nodeOf]

theorem mgmtExchange_repeats (htries : m.tries < 2) :
    completes (.mgmtExchange r []) s fun t => (ringOf t r).mgmt = { m with tries := m.tries + 1 } :: rest := by
  refine ⟨_, exec_mgmtExchange_unfilled hnext hserv hgap, ?_⟩
  simp [Nat.not_le.mpr htries, id @settle_ringOf]

theorem mgmtExchange_gives_up (htries : m.tries ≥ 2) (hread : m.write = false) :
    completes (.mgmtExchange r []) s fun t => (ringOf t r).mgmt = rest := by
  refine ⟨_, exec_mgmtExchange_unfilled hnext hserv hgap, ?_⟩
  have hring := mgmtFail_read (r := r) hread 0xFF (mgmtSent r m rest s)
  simp [htries, id @settle_ringOf, hring, mgmtSent_ring]

end

/-! ## Delays and lost nodes -/

theorem takeLoop_measLeft (r : Nat) (loop : Option (Nat × Nat)) (s : State) :
    (ringOf (takeLoop r loop s) r).measLeft = (ringOf s r).measLeft := by
  unfold takeLoop
  split <;> simp

theorem takeDelay_takes (r p a b : Nat) (loop : Option (Nat × Nat)) (s : State) :
    (nodeOf (takeDelay r p (some a) (some b) loop s) r p).dA = a ∧
    (nodeOf (takeDelay r p (some a) (some b) loop s) r p).dB = b := by
  simp [takeDelay, nodeReach]

theorem nodeOf_delayWrites (r p : Nat) (old : Node) (da db : Option Nat) (s : State) (a b : Nat) :
    nodeOf (delayWrites r p old da db s) a b = nodeOf s a b := by
  simp only [delayWrites, cfgPush]
  repeat' split
  all_goals simp

theorem delayWrites_measLeft (r p : Nat) (old : Node) (da db : Option Nat) (s : State) :
    (ringOf (delayWrites r p old da db s) r).measLeft = (ringOf s r).measLeft := by
  simp only [delayWrites, cfgPush]
  repeat' split
  all_goals simp

theorem delayMeasurement_measures {r : Nat} {rttA rttB : List Nat} {loop : Option (Nat × Nat)} {a b q : Nat} {s : State}
    (hq : q = nextPos s r (ringOf s r).measPos) (hserve : ringServes s r = true) (hkind : (nodeOf s r q).kind ≠ 0)
    (hmeas : (ringOf s r).measured = false) (hgap : mgmtGap s = true)
    (ha : echoDelay (nodeOf s r q).tTurn rttA = some a) (hb : echoDelay (nodeOf s r q).tTurn rttB = some b) :
    completes (.delayMeasurement r rttA rttB loop) s fun t => (nodeOf t r q).dA = a ∧ (nodeOf t r q).dB = b ∧
      (ringOf t r).measPos = q ∧ (ringOf t r).measLeft = (ringOf s r).measLeft - 1 := by
  refine ⟨_, rfl, ?_⟩
  rw [← hq, if_neg (by simp [hserve, hkind, hmeas, hgap]), ha, hb]
  have hheld := Ring.of_held (congrFun (takeDelay_ringsHeld r q (some a) (some b) loop (takeLoop r loop s)) r)
  simp [id @settle_ringOf, id @settle_nodeOf, nodeOf_delayWrites, takeDelay_takes, delayWrites_measLeft, id @hheld,
    takeLoop_measLeft]

theorem nodeLost_loses {r p i : Nat} {s : State} (hi : (nodeOf s r p).string = some i) (hkind : (nodeOf s r p).kind ≠ 0)
    (hmiss : (nodeOf s r p).misses ≥ 3) (hin : nodeOut (nodeOf s r p) = false) :
    completes (.nodeLost r p) s fun t => (nodeOf t r p).lost = true := by
  refine ⟨_, by simp only [exec, execNodeLost, hi]; rfl, ?_⟩
  simp [hkind, hmiss, hin, id @settle_nodeOf, emit_nodeOf]

/-- Settles O18: what a slot, an alarm, an exchange, a measurement and a loss write to the ring and its node stands when
all has settled, for settling decides only about authentication. -/
theorem ringCollects : Obligations.RingCollects :=
  ⟨fun _ _ => collectSend_sends, fun _ _ _ _ _ => collectSlotReceive_takes,
    fun _ _ _ _ _ => collectSlotReceive_thinned, fun _ _ _ _ _ => collectSlotReceive_counts,
    fun _ _ _ _ => alarmReceive_counts, fun _ _ _ _ _ => alarmReceive_discards, portErr_counts,
    fun _ _ _ _ _ hnext hserv hgap => mgmtExchange_reads hnext hserv hgap, fun _ _ _ _ => mgmtExchange_repeats,
    fun _ _ _ _ => mgmtExchange_gives_up,
    fun _ _ _ _ _ _ _ _ => delayMeasurement_measures, fun _ _ _ _ => nodeLost_loses⟩

end Sys2Proof.Machine
end

section
/-! PROOFS. Live insertion (R119 to R121): what each step makes of the ring and of the new nodes, and the statement of
the nine. -/

namespace Sys2Proof.Machine

/-! ## The probe -/

theorem linkUp_probes {r : Nat} {s : State} (hserve : ringServes s r = true) (hen : (ringOf s r).liveEn = true)
    (hbrk : (ringOf s r).breaks ≠ 0) (hlast : (ringOf s r).aLast ≥ 1) (h0 : (ringOf s r).liveStep = 0)
    (hup : ∃ pn ∈ (ringOf s r).nodes, pn.2.linkUp = true ∧ (pn.1 = (ringOf s r).aLast ∨ pn.1 = (ringOf s r).bFirst)) :
    completes (.linkUp r) s fun t => (ringOf t r).liveStep = 1 ∧ (ringOf t r).mgmt = (ringOf s r).mgmt ++
      [{ pos := (ringOf s r).aLast, write := true, addr := 0x20, n := 4, data := le 4 1 }] := by
  refine ⟨_, rfl, ?_⟩
  have hany : ((ringOf s r).nodes.any fun pn =>
      pn.2.linkUp && (pn.1 == (ringOf s r).aLast || pn.1 == (ringOf s r).bFirst)) = true := by
    simpa only [List.any_eq_true, Bool.and_eq_true, Bool.or_eq_true, beq_iff_eq] using hup
  rw [if_pos (by simp [hserve, hen, hbrk, hlast, h0, hany])]
  simp

/-- A PROBE that is written runs (R119). -/
theorem mgmtDone_probe {r : Nat} {m : Mgmt} {data : List Byte} {s : State} (hwrite : m.write = true)
    (haddr : m.addr = 0x20) (hdata : m.data = le 4 1) :
    mgmtDone r m data s =
      modRing s r fun x => { x with liveStep := if x.liveStep = 1 then 2 else x.liveStep } := by
  have hbit : ((le 4 1).getD 0 0).getLsbD 0 = true := by decide
  simp only [mgmtDone, hwrite, haddr, hdata, hbit, if_true]

theorem mgmtExchange_probes {r : Nat} {m : Mgmt} {rest : List Mgmt} {resp : List Byte} {s : State}
    (hnext : mgmtNext s.time.tns (ringOf s r).mgmt = some (m, rest)) (hserv : (ringOf s r).inService = true)
    (hgap : mgmtGap s = true) (hwrite : m.write = true) (haddr : m.addr = 0x20) (hdata : m.data = le 4 1)
    (hfill : mgmtFilled m resp = true) (hstat : fld resp 0 1 = 0) (h1 : (ringOf s r).liveStep = 1) :
    completes (.mgmtExchange r resp) s fun t => (ringOf t r).liveStep = 2 ∧ (ringOf t r).mgmt = rest := by
  refine ⟨_, exec_mgmtExchange_done hnext hserv hgap hfill hstat, ?_⟩
  simp [mgmtDone_probe hwrite haddr hdata, id @settle_ringOf, mgmtSent_ring, h1]

/-! ## The count -/

/-- The new nodes that the token has counted agree with TOPO (R120). -/
def newFits (s : State) (r k : Nat) (descs : List Word) : Bool :=
  (List.range k).all fun j => match topoNode s r ((ringOf s r).aLast + 1 + j), descs[j]? with
    | some t, some d => t.kind == bits d 31 24 && t.mask == bits d 15 0
    | _, _ => false

theorem newFits_of_topo {s : State} {r k : Nat} {descs : List Word}
    (h : ∀ j < k, ∃ d y, topoNode s r ((ringOf s r).aLast + 1 + j) = some d ∧ descs[j]? = some y ∧
      d.kind = bits y 31 24 ∧ d.mask = bits y 15 0) : newFits s r k descs = true := by
  simp only [newFits, List.all_eq_true, List.mem_range]
  intro j hj
  obtain ⟨d, y, hd, hy, hkind, hmask⟩ := h j hj
  simp [hd, hy, hkind, hmask]

/-- N_PROBE of the node at B_FIRST holds the token's count, unless the token returned to port A (R119 step 3). -/
def probed (s : State) (r n : Nat) (returned : Bool) : State :=
  if returned || (ringOf s r).bFirst = 0 then s
  else modNode s r (ringOf s r).bFirst fun y => { y with probe := n % 256 }

section
variable {r : Nat} {s : State} (h2 : (ringOf s r).liveStep = 2)
include h2

theorem exec_liveInsertCount (k : Nat) (back : Bool) (descs : List Word) :
    exec (.liveInsertCount r ((ringOf s r).aLast + k) back descs) s = .next (
      if (decide ((ringOf s r).aLast + k < bFirstOf (ringOf s r)) || back) && newFits s r k descs then
        modRing (probed s r ((ringOf s r).aLast + k) back) r fun x =>
          { x with liveStep := if k = 0 then 5 else 3, liveK := k, liveBack := back }
      else emit 0x0408 (le 1 r ++ le 1 k ++
          le 1 (if decide ((ringOf s r).aLast + k < bFirstOf (ringOf s r)) || back then 2 else 1) ++ le 1 0)
        (modRing (probed s r ((ringOf s r).aLast + k) back) r fun x => { x with liveStep := 0, liveK := 0 }) r) := by
  simp only [exec, execLiveInsertCount, h2, Nat.add_sub_cancel_left, ne_eq, not_true_eq_false, if_false]
  rfl

theorem liveInsertCount_fits {k : Nat} {back : Bool} {descs : List Word}
    (hplaces : (ringOf s r).aLast + k < bFirstOf (ringOf s r) ∨ back = true) (hfits : newFits s r k descs = true) :
    completes (.liveInsertCount r ((ringOf s r).aLast + k) back descs) s fun t =>
      (ringOf t r).liveStep = (if k = 0 then 5 else 3) ∧ (ringOf t r).liveK = k ∧ (ringOf t r).liveBack = back := by
  refine ⟨_, exec_liveInsertCount h2 k back descs, ?_⟩
  have hgo : (decide ((ringOf s r).aLast + k < bFirstOf (ringOf s r)) || back) = true := by simpa using hplaces
  simp only [hgo, hfits, Bool.and_self, if_true]
  simp

theorem liveInsertCount_none {descs : List Word} :
    completes (.liveInsertCount r (ringOf s r).aLast true descs) s fun t =>
      (ringOf t r).liveStep = 5 ∧ (ringOf t r).liveK = 0 := by
  obtain ⟨t, hx, hstep, hk, -⟩ := liveInsertCount_fits h2 (k := 0) (back := true) (descs := descs) (.inr rfl) rfl
  exact ⟨t, hx, hstep, hk⟩

theorem liveInsertCount_counts {k : Nat} {back : Bool} {descs : List Word} (hk : k ≠ 0)
    (hplaces : (ringOf s r).aLast + k < bFirstOf (ringOf s r) ∨ back = true)
    (htopo : ∀ j < k, ∃ d y, topoNode s r ((ringOf s r).aLast + 1 + j) = some d ∧ descs[j]? = some y ∧
      d.kind = bits y 31 24 ∧ d.mask = bits y 15 0) :
    completes (.liveInsertCount r ((ringOf s r).aLast + k) back descs) s fun t =>
      (ringOf t r).liveStep = 3 ∧ (ringOf t r).liveK = k ∧ (ringOf t r).liveBack = back := by
  simpa [hk] using liveInsertCount_fits h2 hplaces (newFits_of_topo htopo)

theorem liveInsertCount_ends {k : Nat} {descs : List Word}
    (hover : (ringOf s r).aLast + k ≥ bFirstOf (ringOf s r)) :
    completes (.liveInsertCount r ((ringOf s r).aLast + k) false descs) s fun t =>
      (ringOf t r).liveStep = 0 ∧ (ringOf t r).liveK = 0 := by
  refine ⟨_, exec_liveInsertCount h2 k false descs, ?_⟩
  simp [Nat.not_lt.mpr hover, id @emit_entries]

end

/-! ## Configuration and authentication -/

/-- One new node of a live insertion is put and configured. -/
def newNode (r : Nat) (s : State) (d : NodeDesc) : State :=
  modNode (setNode s r d.pos (nodeAssign s r d.pos { nodeOfDesc d with fresh := true })) r d.pos (nodeSetup s none none)

theorem newNode_ident (r : Nat) (s : State) (d : NodeDesc) :
    (nodeOf (newNode r s d) r d.pos).ident = (d.uid, d.kind, true) := by
  have h := nodeAssign_ident s r d.pos { nodeOfDesc d with fresh := true }
  simpa [newNode, nodeSetup, Node.ident, nodeOfDesc] using h

theorem newNodes_ident {r : Nat} {ds : List NodeDesc} (hnd : (ds.map NodeDesc.pos).Nodup) {d : NodeDesc} (hd : d ∈ ds)
    (s : State) : (nodeOf (ds.foldl (newNode r) s) r d.pos).ident = (d.uid, d.kind, true) :=
  foldl_establishes (Q := fun d t => (nodeOf t r d.pos).ident = (d.uid, d.kind, true)) (newNode_ident r)
    ((List.pairwise_map.mp hnd).imp fun hne _ h => by simpa [newNode, hne] using h) hd s

theorem liveInsertConfigure_configures {r : Nat} {regs : List (List Byte)} {ms : List DelayMeas} {s : State}
    (h3 : (ringOf s r).liveStep = 3) (hnd : (regs.map fun b => (descOf b).pos).Nodup) :
    completes (.liveInsertConfigure r regs ms) s fun t => (ringOf t r).liveStep = 4 ∧
      ∀ b ∈ regs, (ringOf s r).aLast < (descOf b).pos → (descOf b).pos ≤ (ringOf s r).aLast + (ringOf s r).liveK →
        (nodeOf t r (descOf b).pos).uid = (descOf b).uid ∧ (nodeOf t r (descOf b).pos).fresh = true := by
  refine ⟨_, rfl, ?_⟩
  rw [if_neg (by simp [h3])]
  extract_lets new s1 s2
  refine ⟨by simp [id @settle_ringOf], fun b hb hlo hhi => ?_⟩
  have hmem : descOf b ∈ new := by simpa [new] using ⟨⟨b, hb, rfl⟩, hlo, hhi⟩
  have hnew : (new.map NodeDesc.pos).Nodup :=
    (List.filter_sublist.map NodeDesc.pos).nodup (by simpa [Function.comp_def] using hnd)
  have hident : (nodeOf s2 r (descOf b).pos).ident = ((descOf b).uid, (descOf b).kind, true) :=
    (measureNodes_ident r none _ s1 r _).trans (newNodes_ident hnew hmem s)
  simp only [Node.ident, Prod.mk.injEq] at hident
  simpa [id @settle_nodeOf] using ⟨hident.1, hident.2.2⟩

theorem liveInsertAuthenticate_steps {r : Nat} {rs : List AuthResp} {s : State} (h4 : (ringOf s r).liveStep = 4) :
    completes (.liveInsertAuthenticate r rs) s fun t => (ringOf t r).liveStep = 5 := by
  refine ⟨_, rfl, ?_⟩
  simp [h4, id @settle_ringOf]

/-! ## The unwrap -/

theorem insertNode_ringsHeld (r : Nat) (s : State) (p : Nat) : ringsHeld (insertNode r s p) = ringsHeld s := by
  simp only [insertNode]
  repeat' split
  · rfl
  · simp
  · rfl

section
variable {r : Nat} {s : State} (h5 : (ringOf s r).liveStep = 5) (hat : atBoundary s = true)
include h5 hat

theorem liveInsertUnwrap_ends :
    completes (.liveInsertUnwrap r) s fun t => (ringOf t r).liveStep = 0 ∧ (ringOf t r).liveK = 0 := by
  refine ⟨_, rfl, ?_⟩
  rw [if_neg (by simp [h5, hat])]
  simp [id @settle_ringOf, id @reach_ringOf, id @emitIf_entries]

theorem liveInsertUnwrap_heals (hback : (ringOf s r).liveBack = false)
    (hgap : (ringOf s r).aLast + (ringOf s r).liveK + 1 = bFirstOf (ringOf s r)) :
    completes (.liveInsertUnwrap r) s fun t =>
      (ringOf t r).breaks = 0 ∧ (ringOf t r).aLast = 0 ∧ (ringOf t r).bFirst = 0 := by
  refine ⟨_, rfl, ?_⟩
  rw [if_neg (by simp [h5, hat])]
  extract_lets s1 unwrap last whole s2 s3 s4
  have hrings : ringsHeld s1 = ringsHeld s := foldl_keep ringsHeld _ _ _ fun t p => insertNode_ringsHeld r t p
  have hring := Ring.of_held (congrFun hrings r)
  have hfirst : bFirstOf (ringOf s1 r) = bFirstOf (ringOf s r) := by simp [bFirstOf, id @hring]
  have hwhole : whole = true := by simp [whole, healed, last, hfirst, id @hring, hback, hgap]
  simp [s4, hwhole, id @settle_ringOf, id @reach_ringOf, id @emitIf_entries]

end

/-- Settles O19: each step is the one that the step before it leaves next, and what it writes to the ring and the new
nodes stands. -/
theorem ringHeals : Obligations.RingHeals :=
  ⟨fun _ _ => linkUp_probes, fun _ _ _ _ _ => mgmtExchange_probes, fun _ _ _ h2 => liveInsertCount_none h2,
    fun _ _ _ _ _ h2 => liveInsertCount_counts h2, fun _ _ _ _ h2 => liveInsertCount_ends h2,
    fun _ _ _ _ => liveInsertConfigure_configures, fun _ _ _ => liveInsertAuthenticate_steps,
    fun _ _ => liveInsertUnwrap_ends, fun _ _ => liveInsertUnwrap_heals⟩

end Sys2Proof.Machine
end

section
/-! PROOFS. Balancing, coupling identification and open-wire tests (R143, R145, R147, R149, R152, R154): what each event
leaves of the cells and of its node, and the statement of all of them. -/

namespace Sys2Proof.Machine

/-! ## Balancing -/

/-- A fold of changes, each idempotent on its own cell, makes each of them of every cell of the list. -/
theorem cellAcq_foldl (f : Nat → CellAcq → CellAcq) (hf : ∀ c x, f c (f c x) = f c x) (l : List Nat) (s : State)
    (c : Nat) : cellAcq (l.foldl (fun s c => modCell s c (f c)) s) c =
      if c ∈ l then f c (cellAcq s c) else cellAcq s c := by
  induction l generalizing s with
  | nil => simp
  | cons a l ih =>
    simp only [List.foldl_cons, ih, cellAcq_modCell, List.mem_cons]
    by_cases h : c = a
    · simp [h, hf]
    · simp [h]

/-- What a decision makes of cell `c` (R143): it is selected or not, and its mean begins anew. -/
def decTake (sel : List Nat) (c : Nat) (x : CellAcq) : CellAcq :=
  { x with sel := sel.contains c, decSum := 0, decCnt := 0 }

theorem exec_balanceDecision {s : State} (hacq : s.sys.run.acq = true) (hdue : s.time.tns ≥ s.acq.decAt + 1000000000) :
    exec .balanceDecision s = .next {
      (cells s).foldl (fun u c => modCell u c (decTake ((strings s).flatMap (balSelect s)) c)) s with
      acq.decAt := s.time.tns } := by
  have hnow : ¬ (!s.sys.run.acq || decide (s.time.tns < s.acq.decAt + nsPerSec)) = true := by
    simp [hacq, nsPerSec, hdue]
  simp only [exec, execBalanceDecision, if_neg hnow]
  rfl

theorem balanceDecision_selects {s : State} (hacq : s.sys.run.acq = true)
    (hdue : s.time.tns ≥ s.acq.decAt + 1000000000) :
    completes .balanceDecision s fun t => t.acq.decAt = s.time.tns ∧
      ∀ c ∈ cells s, (cellAcq t c).sel = ((strings s).flatMap (balSelect s)).contains c ∧ (cellAcq t c).decCnt = 0 := by
  refine ⟨_, exec_balanceDecision hacq hdue, rfl, fun c hc => ?_⟩
  have hcell (u : State) (n : Nat) : cellAcq { u with acq.decAt := n } c = cellAcq u c := rfl
  rw [hcell, cellAcq_foldl (decTake _) (fun _ _ => rfl), if_pos hc]
  exact ⟨rfl, rfl⟩

theorem balNodeFault_faults {r p : Nat} {s : State} (hmis : (nodeOf s r p).balMis ≥ 3)
    (hnew : (nodeOf s r p).balFault = false) :
    completes (.balNodeFault r p) s fun t => (nodeOf t r p).balFault = true := by
  refine ⟨_, rfl, ?_⟩
  rw [if_pos (by simp [hmis, hnew])]
  simp [id @settle_nodeOf, emit_nodeOf]

theorem dieTempTimeout_stale {r p : Nat} {s : State} (hkind : (nodeOf s r p).kind ≠ 0)
    (hold : s.time.tns ≥ (nodeOf s r p).dieAt + 1000000000) :
    exec (.dieTempTimeout r p) s = .next (modNode s r p fun n => { n with dieStale := true }) := by
  simp only [exec, execDieTempTimeout]
  rw [if_pos ⟨hkind, hold⟩]

/-- A die temperature that is stale gives no duty (R149). -/
theorem credit_of_dieStale {n : Node} (h : n.dieStale = true) (even : Bool) : (credit even n).2 = false := by
  unfold credit
  split <;> simp [h]

/-- A node that faulted may not balance (R145). -/
theorem balMay_of_balFault {n : Node} (h : n.balFault = true) (s : State) (t : TopoNode) (ow : Bool) :
    balMay s t n ow = false := by
  simp [balMay, h]

theorem cmdEntry_bal_zero {r p : Nat} {s : State} (ow : Bool)
    (h : (nodeOf s r p).balFault = true ∨ (nodeOf s r p).dieStale = true) : (cmdEntry s r p ow).2.bal = 0 := by
  unfold cmdEntry
  dsimp only
  split
  · rcases h with h | h
    · simp [balMay_of_balFault h]
    · simp [credit_of_dieStale h]
  · rfl

/-! ## Coupling identification -/

theorem coupIdStart_starts {r p i : Nat} {s : State} (hmode : compMode s = true) (hkind : (nodeOf s r p).kind = 1)
    (hi : (nodeOf s r p).string = some i) (hin : nodeOut (nodeOf s r p) = false)
    (hidle : (nodeOf s r p).coup.busy = false) (hhold : s.time.tns ≥ (nodeOf s r p).coup.holdUntil)
    (hwant : (nodeOf s r p).coup.want = true) :
    completes (.coupIdStart r p) s fun t =>
      (nodeOf t r p).coup.busy = true ∧ (nodeOf t r p).coup.want = false ∧ (nodeOf t r p).coup.rounds = 0 := by
  refine ⟨_, rfl, ?_⟩
  rw [if_pos (by simp [hmode, hkind, hi, hin, hidle, hhold, hwant])]
  simp

theorem coupIdComplete_completes {r p : Nat} {s : State} (hbusy : (nodeOf s r p).coup.busy = true)
    (hrounds : (nodeOf s r p).coup.rounds ≥ 4) :
    completes (.coupIdComplete r p) s fun t =>
      (nodeOf t r p).coup.busy = false ∧ (nodeOf t r p).coup.lastAt = s.time.tns ∧
      (nodeOf t r p).coup.valid = (inputs (nodeOf s r p).mask.toNat).all fun k =>
        (coupOf (inputs (nodeOf s r p).mask.toNat) (nodeOf s r p).coup.acc k).2 := by
  refine ⟨_, rfl, ?_⟩
  rw [if_neg (by simp [hbusy, hrounds])]
  extract_lets ks rs ok g s1 s2
  have hsent (u : State) (c : Prop) [Decidable c] (comp : Bool) (mode seq : Nat) :
      nodeOf (if c then u else acqWrite r p mode comp seq u) r p = nodeOf u r p := by
    split <;> simp [acqWrite]
  have hok : ok = ks.all fun k => (coupOf ks (nodeOf s r p).coup.acc k).2 := by
    simp [ok, rs, List.all_map, Function.comp_def]
  rw [← hok]
  simp [id @settle_nodeOf, hsent, s2, emitIf_nodeOf, s1]

theorem coupIdGiveUp_gives_up {r p : Nat} {s : State} (hbusy : (nodeOf s r p).coup.busy = true)
    (hframes : (nodeOf s r p).coup.frames ≥ 256) (hrounds : (nodeOf s r p).coup.rounds < 4) :
    completes (.coupIdGiveUp r p) s fun t =>
      (nodeOf t r p).coup.busy = false ∧ (nodeOf t r p).coup.want = true ∧
      (nodeOf t r p).coup.holdUntil = s.time.tns + 10000000000 := by
  refine ⟨_, rfl, ?_⟩
  rw [if_neg (by simp [hbusy, hframes, hrounds])]
  simp [id @settle_nodeOf, emit_nodeOf, nsPerSec]

/-! ## Open-wire tests -/

/-- What a read of N_OW takes from a node and gives to it: the frame of its test, and the values of its wires. -/
def Node.owTaken (n : Node) : Option Nat × List Nat := (n.ow.testSeq, n.ow.p)

/-- The nodes' tests and wires. -/
def owTakenOf (r p : Nat) (s : State) : Option Nat × List Nat := (nodeOf s r p).owTaken

@[simp] theorem owTakenOf_modNode (s : State) (r p a b : Nat) {f : Node → Node}
    (hseq : ∀ n, (f n).ow.testSeq = n.ow.testSeq) (hp : ∀ n, (f n).ow.p = n.ow.p) :
    owTakenOf a b (modNode s r p f) = owTakenOf a b s :=
  modNode_keeps Node.owTaken (fun n => Prod.ext (hseq n) (hp n)) s r p a b

@[simp] theorem owTakenOf_emit (code : Nat) (payload : List Byte) (s : State) (ix a b : Nat) :
    owTakenOf a b (emit code payload s ix) = owTakenOf a b s := by
  simp [owTakenOf, emit_nodeOf]

@[simp] theorem owTakenOf_emitIf (c : Bool) (code : Nat) (payload : List Byte) (s : State) (ix a b : Nat) :
    owTakenOf a b (emitIf c code payload s ix) = owTakenOf a b s := by
  simp [owTakenOf, emitIf_nodeOf]

@[simp] theorem owTakenOf_owMulti (i case r : Nat) (s : State) (a b : Nat) :
    owTakenOf a b (owMulti i case r s) = owTakenOf a b s := by
  simp [owTakenOf, nodeOf_of_ring (show (owMulti i case r s).ring = s.ring by simp [id @owMulti_keep])]

theorem owTakenOf_owConfirm (r p : Nat) (ps : List Nat) (d : Int) (s : State) (w a b : Nat) :
    owTakenOf a b (owConfirm r p ps d s w) = owTakenOf a b s := by
  simp only [owConfirm]
  split <;> simp

theorem owTakenOf_owCollapse (r p : Nat) (ps col : List Nat) (d : Int) (s : State) (a b : Nat) :
    owTakenOf a b (owCollapse r p ps col d s) = owTakenOf a b s := by
  simp only [owCollapse]
  rw [foldl_keep (owTakenOf a b) _ _ _ fun t w => owTakenOf_owConfirm r p ps d t w a b]
  simp only [owTakenOf_modNode, implies_true]
  exact foldl_keep (owTakenOf a b) _ _ _ fun t w => owTakenOf_emitIf ..

theorem owTakenOf_owPass (r p : Nat) (s : State) (a b : Nat) : owTakenOf a b (owPass r p s) = owTakenOf a b s := by
  simp only [owPass, owTakenOf_modNode, implies_true]
  split
  · exact foldl_keep (owTakenOf a b) _ _ _ fun t w => owTakenOf_emit ..
  · rfl

theorem owTakenOf_owClean (r p : Nat) (t : TopoNode) (d : Int) (s : State) (a b : Nat) :
    owTakenOf a b (owClean r p t d s) = owTakenOf a b s := by
  simp only [owClean]
  repeat' split
  all_goals simp [owTakenOf_owPass]

/-- The test of a node has been read (R152): it is counted and over, and its wires' values are taken. -/
def owRead (r p : Nat) (ps : List Nat) (s : State) : State :=
  modNode { s with acq.tests := (s.acq.tests + 1) % 65536 } r p fun n =>
    { n with ow.testSeq := none, ow.lastAt := if n.ow.periodic then s.time.tns else n.ow.lastAt, ow.p := ps }

theorem owTakenOf_owRead (r p : Nat) (ps : List Nat) (s : State) : owTakenOf r p (owRead r p ps s) = (none, ps) := by
  simp [owTakenOf, Node.owTaken, owRead]

theorem owRead_tests (r p : Nat) (ps : List Nat) (s : State) :
    (owRead r p ps s).acq.tests = (s.acq.tests + 1) % 65536 := by
  simp [owRead, id @modNode_keep]

/-- The wires of a node that the test shows collapsed (R154). -/
def owCollapsed (d : TopoNode) (ps : List Nat) : List Nat :=
  ((List.range 17).filter fun w => (innerPair (inputs d.mask) w).isSome || (endInput (inputs d.mask) w).isSome).filter
    fun w => decide (ps.getD w 0 > 200)

/-- The sum of a node's cells less its stack, 100 uV (R154). -/
def owDeviation (d : TopoNode) (stack : Word) (s : State) : Int :=
  Int.ofNat (((nodeCells d).map fun ck => (cellAcq s ck.1).vMeas).foldl (· + ·) 0) - Int.ofNat (bits stack 23 0)

section
variable {r p q : Nat} {stack : Word} {ps : List Nat} {d : TopoNode} {s : State}
  (hseq : (nodeOf s r p).ow.testSeq = some q) (htopo : topoNode s r p = some d)
include hseq htopo

/-- A read of this frame's test is judged by the collapsed wires (R154). -/
theorem exec_owTestRead (hfrm : s.time.frm.toNat % 256 = q) (hstack : bits stack 31 24 = q) :
    exec (.owTestRead r p stack ps) s = .next (settle (
      if (owCollapsed d ps).isEmpty then owClean r p d (owDeviation d stack s) (owRead r p ps s)
      else owCollapse r p ps (owCollapsed d ps) (owDeviation d stack s) (owRead r p ps s))) := by
  simp only [exec, execOwTestRead, hseq, htopo]
  rw [if_neg (by simp [hfrm, hstack])]
  rfl

theorem owTestRead_takes (hfrm : s.time.frm.toNat % 256 = q) (hstack : bits stack 31 24 = q) :
    completes (.owTestRead r p stack ps) s fun t =>
      (nodeOf t r p).ow.testSeq = none ∧ (nodeOf t r p).ow.p = ps ∧ t.acq.tests = (s.acq.tests + 1) % 65536 := by
  have hend (u : State) (hu : owTakenOf r p u = owTakenOf r p (owRead r p ps s))
      (hacq : u.acq = (owRead r p ps s).acq) :
      (nodeOf (settle u) r p).ow.testSeq = none ∧ (nodeOf (settle u) r p).ow.p = ps ∧
        (settle u).acq.tests = (s.acq.tests + 1) % 65536 := by
    obtain ⟨hnone, hps⟩ := Prod.mk.inj (hu.trans (owTakenOf_owRead r p ps s))
    simp [id @settle_nodeOf, id @settle_keep, hnone, hps, hacq, owRead_tests]
  refine ⟨_, exec_owTestRead hseq htopo hfrm hstack, ?_⟩
  dsimp only
  split
  · exact hend _ (owTakenOf_owClean ..) (by simp [id @owClean_keep])
  · exact hend _ (owTakenOf_owCollapse ..) (by simp [id @owCollapse_keep])

theorem owTestRead_asks_again (hother : s.time.frm.toNat % 256 ≠ q ∨ bits stack 31 24 ≠ q) :
    exec (.owTestRead r p stack ps) s =
      .next (modNode s r p fun n => { n with ow.testSeq := none, ow.want := true }) := by
  simp only [exec, execOwTestRead, hseq, htopo, if_pos hother]

end

/-- Settles O21: each event is taken under its conditions, and what it writes to the cells or to its node stands when
the rest of the event and the settling have passed. -/
theorem acquisitionTests : Obligations.AcquisitionTests :=
  ⟨fun _ => balanceDecision_selects, fun _ _ _ => balNodeFault_faults, fun _ _ _ => dieTempTimeout_stale,
    fun _ _ ow _ => cmdEntry_bal_zero ow, fun _ _ _ _ => coupIdStart_starts, fun _ _ _ => coupIdComplete_completes,
    fun _ _ _ => coupIdGiveUp_gives_up, fun _ _ _ _ _ _ _ => owTestRead_takes,
    fun _ _ _ _ _ _ _ => owTestRead_asks_again⟩

end Sys2Proof.Machine
end

section
/-! PROOFS. SLEEP (R158, R159, R551 to R557): the steps of its entry, the steps of a wake, what a patrol decides, and
the statement of all of them. -/

namespace Sys2Proof.Machine

/-! ## Entry -/

theorem autoSleep_starts {x : Nat} {s : State} (hidle : s.pwr.idleAt = some x) (hon : s.pwr.autoSleep ≠ 0)
    (hdue : s.time.tns ≥ max x s.host.reqAt + s.pwr.autoSleep * 60000000000) (hok : sleepOk s = true)
    (hbist : bistBusy s = false) :
    completes .autoSleep s fun t => t.pwr.state = .sleepEntry ∧ t.pwr.step = 1 := by
  have hns : s.pwr.autoSleep * 60 * nsPerSec = s.pwr.autoSleep * 60000000000 := by simp [nsPerSec, Nat.mul_assoc]
  refine ⟨settle (sleepStart s), ?_, ?_⟩
  · simp only [exec, execAutoSleep, hidle, hns, hok, hbist]
    simp [hon, hdue]
  · simp [id @settle_pwr, sleepStart]

/-- With no wake noted the next step of the entry begins (R551). -/
theorem sleepStep_of_none {s : State} (h : s.pwr.wakeLate = none) (k : Nat) (next : State → State) :
    sleepStep k next s = { next s with pwr.step := k + 1 } := by
  simp [sleepStep, h]

/-- A wake noted during entry turns it back (R556). -/
theorem sleepStep_of_some {c : Nat} {s : State} (h : s.pwr.wakeLate = some c) (k : Nat) (next : State → State) :
    sleepStep k next s =
      wakeStart c (emit 0x0085 (le 1 c ++ le 1 k ++ le 2 0) { s with pwr.sleepAt := s.time.tns }) := by
  simp [sleepStep, h]

/-- What a wake starts with (R554, R565). -/
theorem wakeStart_pwr (c : Nat) (s : State) :
    (wakeStart c s).pwr.state = .waking ∧ (wakeStart c s).pwr.step = 1 ∧ (wakeStart c s).pwr.cause = c ∧
    (wakeStart c s).pwr.vcore = 2 ∧ (wakeStart c s).pwr.count = sat 16 (s.pwr.count + 1) :=
  ⟨rfl, rfl, rfl, rfl, rfl⟩

theorem stopAcq_run (s : State) : (stopAcq s).sys.run.acq = false ∧ (stopAcq s).sys.run.kernel = false := by
  simp [stopAcq, framesStop, id @dbgEnd_keep]

theorem sleepStopAcquisition_stops {s : State} (hentry : s.pwr.state = .sleepEntry) (h1 : s.pwr.step = 1)
    (hat : atBoundary s = true ∨ s.sys.run.acq = false) (hlate : s.pwr.wakeLate = none) :
    completes .sleepStopAcquisition s fun t =>
      t.pwr.step = 2 ∧ t.sys.run.acq = false ∧ t.sys.run.kernel = false := by
  have hstop : (stopAcq s).pwr.wakeLate = none := by simp [id @stopAcq_keep, hlate]
  refine ⟨_, rfl, ?_⟩
  rw [if_pos (by simpa [hentry, h1] using hat), sleepStep_of_none hstop]
  simp [id @settle_pwr, id @settle_sys, id @sleepSave_keep, stopAcq_run]

theorem sleepSaveDone_flushes {s : State} (hentry : s.pwr.state = .sleepEntry) (h2 : s.pwr.step = 2)
    (hidle : nvIdle s = true) (hlate : s.pwr.wakeLate = none) :
    completes .sleepSaveDone s fun t => t.pwr.step = 3 ∧ t.pwr.state = .sleepEntry := by
  refine ⟨_, rfl, ?_⟩
  rw [if_pos (by simp [hentry, h2, hidle]), sleepStep_of_none hlate]
  simp [id @settle_pwr, id @recFlush_keep, id @emit_keep, hentry]

/-- What sleep leaves of the rails, of the blocks that run and of the recorder's ring (R547, R551). -/
theorem asleep_rests (s : State) :
    (asleep s).pwr.state = .sleep ∧ (asleep s).pwr.vcore = 0 ∧ (asleep s).pwr.pg = 7 ∧ (asleep s).pwr.wakeOut = false ∧
    (asleep s).sys.run.steward = false ∧ (asleep s).sys.run.husk = s.sys.run.husk ∧ (asleep s).recd.ring = [] :=
  ⟨rfl, rfl, rfl, rfl, rfl, rfl, rfl⟩

section
variable {s : State} (hentry : s.pwr.state = .sleepEntry) (h3 : s.pwr.step = 3) (hidle : recIdle s = true)
include hentry h3 hidle

theorem exec_sleepFlushDone : exec .sleepFlushDone s = .next (settle (sleepStep 3 asleep s)) := by
  simp [exec, execSleepFlushDone, hentry, h3, hidle]

theorem sleepFlushDone_sleeps (hlate : s.pwr.wakeLate = none) :
    completes .sleepFlushDone s fun t => t.pwr.state = .sleep ∧ t.pwr.vcore = 0 ∧ t.pwr.pg = 7 ∧ t.pwr.wakeOut = false ∧
      t.sys.run.steward = false ∧ t.sys.run.husk = s.sys.run.husk ∧ t.recd.ring = [] := by
  refine ⟨_, exec_sleepFlushDone hentry h3 hidle, ?_⟩
  rw [sleepStep_of_none hlate]
  simpa only [id @settle_pwr, id @settle_sys, id @settle_recd] using asleep_rests s

theorem sleepFlushDone_turns_back {c : Nat} (hlate : s.pwr.wakeLate = some c) :
    completes .sleepFlushDone s fun t => t.pwr.state = .waking ∧ t.pwr.step = 1 ∧ t.pwr.cause = c := by
  refine ⟨_, exec_sleepFlushDone hentry h3 hidle, ?_⟩
  rw [sleepStep_of_some hlate]
  simp [id @settle_pwr, id @wakeStart_pwr]

end

/-! ## The wake -/

section
variable {c : Nat} {s : State} (hsrc : wakeSrc c s = true)
include hsrc

theorem sleepWake_wakes (hsleep : s.pwr.state = .sleep) :
    completes (.sleepWake c) s fun t => t.pwr.state = .waking ∧ t.pwr.step = 1 ∧ t.pwr.cause = c ∧ t.pwr.vcore = 2 ∧
      t.pwr.count = sat 16 (s.pwr.count + 1) := by
  refine ⟨settle (wakeStart c s), ?_, ?_⟩
  · simp [exec, execSleepWake, hsrc, hsleep]
  · simp [id @settle_pwr, id @wakeStart_pwr]

theorem sleepWake_notes (hentry : s.pwr.state = .sleepEntry) (hlate : s.pwr.wakeLate = none) :
    exec (.sleepWake c) s = .next { s with pwr.wakeLate := some c } := by
  simp [exec, execSleepWake, hsrc, hentry, hlate]

end

theorem wakeRailsReady_resumes {s : State} (hwake : s.pwr.state = .waking) (h1 : s.pwr.step = 1) :
    completes .wakeRailsReady s fun t => t.pwr.step = 2 ∧ t.pwr.pg = 31 ∧ t.sys.run.steward = true ∧
      t.sys.run.recorder = true ∧ t.sys.run.acq = s.sys.run.acq := by
  refine ⟨_, rfl, ?_⟩
  rw [if_pos (by simp [hwake, h1])]
  simp [id @settle_pwr, id @settle_sys, id @ringsWake_keep, id @emit_keep]

theorem wakeRingsReady_acquires (ua ub : List (BitVec 64)) (aa ab : List AuthResp) {s : State}
    (hwake : s.pwr.state = .waking ∨ s.pwr.state = .leaving) (h2 : s.pwr.step = 2) :
    completes (.wakeRingsReady ua ub aa ab) s fun t =>
      t.sys.run.acq = s.sys.run.timebase ∧ t.pwr.step = 4 ∧ t.acq.decAt = s.time.tns := by
  refine ⟨_, rfl, ?_⟩
  rw [if_pos (by simpa [h2] using hwake)]
  simp [id @settle_sys, id @settle_pwr, id @settle_keep, id @curStart_keep]

theorem wakeModelsLoaded_loads (ts : List (Nat × Nat × Nat × Nat)) {s : State}
    (hwake : s.pwr.state = .waking ∨ s.pwr.state = .leaving) (h4 : s.pwr.step = 4) (hdone : s.pwr.wakeDone = 3) :
    completes (.wakeModelsLoaded ts) s fun t => t.pwr.step = 5 ∧ t.pwr.state = s.pwr.state := by
  refine ⟨_, rfl, ?_⟩
  rw [if_pos (by simpa [h4, hdone] using hwake)]
  simp [id @settle_pwr, id @modelsLoad_keep, id @bootTest_keep]

theorem wakeFullService_runs {s : State} (hwake : s.pwr.state = .waking ∨ s.pwr.state = .leaving)
    (h5 : s.pwr.step = 5) :
    completes .wakeFullService s fun t => t.pwr.state = .run ∧ t.pwr.step = 0 ∧ t.sys.run.nv = true ∧
      t.sys.run.ledger = s.sys.run.timebase ∧ t.sys.run.winnow = (!s.sys.winBad && s.sys.run.timebase) := by
  refine ⟨_, rfl, ?_⟩
  rw [if_pos (by simpa [h5] using hwake)]
  simp [id @settle_pwr, id @settle_sys, id @nvStart_keep]

theorem wakeOutTimeout_releases {x : Nat} {s : State} (hend : s.pwr.wakeOutEnd = some x) (hdue : s.time.tns ≥ x) :
    exec .wakeOutTimeout s = .next { s with pwr.wakeOut := false, pwr.wakeOutEnd := none } := by
  simp [exec, execWakeOutTimeout, hend, hdue]

/-! ## What a patrol decides -/

/-- When no slot meets a condition and no node is missing again, rings that failed alone wake the device (R158). -/
theorem patrolCauses_of_calm {s : State} {xs : List SumSlot} (h : ∀ x ∈ xs, patrolBits s x = 0) (fails : List Nat) :
    (patrolCauses s fails [] xs).1 = flag 6 (!fails.isEmpty) := by
  have hcond : xs.foldl (fun b y => b ||| patrolBits s y) 0 = 0 :=
    List.foldlRecOn (motive := fun b : Nat => b = 0) xs _ rfl fun b hb x hx => by simp [hb, h x hx]
  simp [patrolCauses, hcond, flag]

/-- Whether or not the time block is written (R386), the acquisition and the power state stand. -/
theorem ite_tbWrite_keep (c : Prop) [Decidable c] (s : State) :
    (if c then tbWrite s else s).acq = s.acq ∧ (if c then tbWrite s else s).pwr = s.pwr := by
  split <;> simp [id @tbWrite_keep]

/-- A patrol that finds nothing is counted, and asks for a recheck when nodes were missing (R158, R159). -/
theorem patrolDecide_of_calm {missing : List (Nat × Nat)} {xs : List SumSlot} {s : State}
    (hgone : s.acq.recheck = false ∨ missing = []) (h : ∀ x ∈ xs, patrolBits s x = 0) :
    (patrolDecide [] missing xs s).acq = { s.acq with
      recheck := !missing.isEmpty, recheckAt := s.time.tns, patrolCnt := sat 16 (s.acq.patrolCnt + 1) } ∧
    (patrolDecide [] missing xs s).pwr = s.pwr := by
  have hnone : (missing.filter fun rp => s.acq.recheck && (ringOf s rp.1).patrolMiss.contains rp.2) = [] := by
    rcases hgone with h | h <;> simp [h]
  have hcalm : ¬ (patrolCauses s [] [] xs).1 ≠ 0 := by simp [patrolCauses_of_calm h, flag]
  simp only [patrolDecide, hnone, if_neg hcalm]
  simp [id @modRing_keep, id @ite_tbWrite_keep]

theorem patrolDecide_counts {missing : List (Nat × Nat)} {xs : List SumSlot} {s : State}
    (hfirst : s.acq.recheck = false) (h : ∀ x ∈ xs, patrolBits s x = 0) :
    (patrolDecide [] missing xs s).acq.patrolCnt = sat 16 (s.acq.patrolCnt + 1) ∧
    (patrolDecide [] missing xs s).pwr.state = s.pwr.state ∧
    (patrolDecide [] missing xs s).acq.recheck = !missing.isEmpty := by
  obtain ⟨hacq, hpwr⟩ := patrolDecide_of_calm (missing := missing) (.inl hfirst) h
  simp [hacq, hpwr]

/-- A ring that does not wake, with nothing else found, wakes the device with cause bit 6 (R158, R162). -/
theorem patrolDecide_of_fails {fails : List Nat} {missing : List (Nat × Nat)} {s : State}
    (hsleep : s.pwr.state = .sleep) (hfirst : s.acq.recheck = false) (hfails : fails ≠ []) :
    (patrolDecide fails missing [] s).pwr.state = .waking ∧ (patrolDecide fails missing [] s).acq.patrolCause = 64 := by
  have hnone : (missing.filter fun rp => s.acq.recheck && (ringOf s rp.1).patrolMiss.contains rp.2) = [] := by
    simp [hfirst]
  have hcause : (patrolCauses s fails [] []).1 = 64 := by
    rw [patrolCauses_of_calm (by simp)]
    simp [flag, hfails]
  simp only [patrolDecide, hnone, hcause]
  rw [if_pos (by decide)]
  simp [patrolWake, id @emit_keep, id @ite_tbWrite_keep, hsleep, id @wakeStart_pwr, id @wakeStart_keep]

/-! ## Patrols -/

/-- No node is missing when no ring was patrolled. -/
theorem patrolMissing_nil (s : State) (xs : List SumSlot) : patrolMissing s [] xs = [] := by
  simp only [patrolMissing, List.contains_nil, Bool.false_and, List.map_eq_nil_iff, List.filter_eq_nil_iff,
    Bool.false_eq_true, not_false_eq_true, implies_true]

/-- Without a ring to patrol there is nothing to be found. -/
theorem patrolRun_nil (rx : List SumRx) (fails : List Nat) (s : State) :
    patrolRun rx [] fails s = patrolDecide [] [] [] s := by
  simp only [patrolRun, List.filter_nil, List.foldl_nil, patrolMissing_nil]

/-- Rings patrolled without a slot arriving leave the acquisition and the power state, and bring no slot. -/
theorem foldl_patrolRing_silent (rs : List Nat) (a : State × List SumSlot) :
    (rs.foldl (patrolRing []) a).1.acq = a.1.acq ∧ (rs.foldl (patrolRing []) a).1.pwr = a.1.pwr ∧
    (rs.foldl (patrolRing []) a).2 = a.2 := by
  refine ⟨foldl_fst (·.acq) _ _ _ fun b r => patrolRing_acq [] b r,
    foldl_fst (·.pwr) _ _ _ fun b r => patrolRing_pwr [] b r, ?_⟩
  exact List.foldlRecOn (motive := fun b : State × List SumSlot => b.2 = a.2) rs _ rfl fun b hb r _ => hb

theorem patrolRun_of_fail {r : Nat} {rs : List Nat} {s : State} (hr : r ∈ rs) (hsleep : s.pwr.state = .sleep)
    (hfirst : s.acq.recheck = false) :
    (patrolRun [] rs [r] s).pwr.state = .waking ∧ (patrolRun [] rs [r] s).acq.patrolCause = 64 := by
  obtain ⟨hacq, hpwr, hslots⟩ := foldl_patrolRing_silent (rs.filter fun q => !([r].contains q)) (s, [])
  have hfails : rs.filter ([r].contains ·) ≠ [] := List.ne_nil_of_mem (a := r) (by simp [hr])
  simp only [patrolRun, hslots]
  exact patrolDecide_of_fails (by rw [hpwr, hsleep]) (by rw [hacq, hfirst]) hfails

section
variable {s : State} (hmay : patrolMay s = true)
include hmay

theorem sleepPatrol_runs (hdue : s.time.tns ≥ s.acq.patrolAt + s.cfg.acq.patrol * 1000000000) (rx : List SumRx)
    (fails : List Nat) :
    settlesTo (.sleepPatrol rx fails) s
      (patrolRun rx (patrolRings s) fails { s with acq.patrolAt := s.time.tns, acq.recheck := false }) := by
  simp [settlesTo, exec, execSleepPatrol, hmay, nsPerSec, hdue]

theorem patrolRecheck_runs (hre : s.acq.recheck = true) (hdue : s.time.tns ≥ s.acq.recheckAt + 1000000000)
    (rx : List SumRx) (fails : List Nat) :
    settlesTo (.patrolRecheck rx fails) s
      (patrolRun rx ((patrolRings s).filter fun r => !(ringOf s r).patrolMiss.isEmpty) fails s) := by
  simp [settlesTo, exec, execPatrolRecheck, hmay, hre, nsPerSec, hdue]

theorem sleepPatrol_finds_nothing (hsleep : s.pwr.state = .sleep)
    (hdue : s.time.tns ≥ s.acq.patrolAt + s.cfg.acq.patrol * 1000000000) (hrings : patrolRings s = []) :
    completes (.sleepPatrol [] []) s fun t => t.acq.patrolCnt = sat 16 (s.acq.patrolCnt + 1) ∧
      t.acq.patrolAt = s.time.tns ∧ t.pwr.state = .sleep := by
  refine ⟨_, sleepPatrol_runs hmay hdue [] [], ?_⟩
  rw [hrings, patrolRun_nil]
  obtain ⟨hacq, hpwr⟩ := patrolDecide_of_calm (missing := []) (xs := [])
    (s := { s with acq.patrolAt := s.time.tns, acq.recheck := false }) (.inr rfl) (by simp)
  simp [id @settle_keep, id @settle_pwr, hacq, hpwr, hsleep]

theorem sleepPatrol_wakes {r : Nat} (hdue : s.time.tns ≥ s.acq.patrolAt + s.cfg.acq.patrol * 1000000000)
    (hr : r ∈ patrolRings s) (hsleep : s.pwr.state = .sleep) :
    completes (.sleepPatrol [] [r]) s fun t => t.pwr.state = .waking ∧ t.acq.patrolCause = 64 := by
  refine ⟨_, sleepPatrol_runs hmay hdue [] [r], ?_⟩
  simpa [id @settle_keep, id @settle_pwr] using
    patrolRun_of_fail (s := { s with acq.patrolAt := s.time.tns, acq.recheck := false }) hr hsleep rfl

theorem patrolRecheck_finds_nothing (hre : s.acq.recheck = true)
    (hdue : s.time.tns ≥ s.acq.recheckAt + 1000000000) (hrings : patrolRings s = []) :
    completes (.patrolRecheck [] []) s fun t => t.acq.patrolCnt = sat 16 (s.acq.patrolCnt + 1) ∧
      t.acq.recheck = false ∧ t.acq.patrolAt = s.acq.patrolAt := by
  refine ⟨_, patrolRecheck_runs hmay hre hdue [] [], ?_⟩
  rw [hrings, List.filter_nil, patrolRun_nil]
  obtain ⟨hacq, -⟩ := patrolDecide_of_calm (missing := []) (xs := []) (s := s) (.inr rfl) (by simp)
  simp [id @settle_keep, hacq]

end

/-- Settles O49: the entry and the wake take their steps in turn, and a patrol decides by what it finds. -/
theorem sleepPasses : Obligations.SleepPasses :=
  ⟨fun _ _ => autoSleep_starts, fun _ => sleepStopAcquisition_stops, fun _ => sleepSaveDone_flushes,
    fun _ => sleepFlushDone_sleeps, fun _ _ hentry h3 hidle => sleepFlushDone_turns_back hentry h3 hidle,
    fun _ _ => sleepWake_wakes, fun _ _ => sleepWake_notes, fun _ => wakeRailsReady_resumes,
    fun ua ub aa ab _ => wakeRingsReady_acquires ua ub aa ab,
    fun ts _ => wakeModelsLoaded_loads ts, fun _ => wakeFullService_runs, fun _ _ => wakeOutTimeout_releases,
    fun rx fails _ hmay hdue => sleepPatrol_runs hmay hdue rx fails,
    fun rx fails _ hmay hre hdue => patrolRecheck_runs hmay hre hdue rx fails,
    fun _ _ _ => patrolDecide_counts,
    fun _ => sleepPatrol_finds_nothing, fun _ _ hmay => sleepPatrol_wakes hmay, fun _ => patrolRecheck_finds_nothing⟩

end Sys2Proof.Machine
end

section
/-! PROOFS. The current channels (R170, R171, R174, R175, R177, R178, R181, R182): what a sample, each step of a
calibration, a stop and a comparator's check make of a channel, and the statements of them. -/

namespace Sys2Proof.Machine

/-! ## Channels and their strings -/

@[simp] theorem curCh_modCurStr (s : State) (i n : Nat) (f : CurStr → CurStr) :
    curCh (modCurStr s i f) n = curCh s n := rfl

@[simp] theorem curStr_modCh (s : State) (n i : Nat) (f : CurCh → CurCh) :
    curStr (modCh s n f) i = curStr s i := rfl

@[simp] theorem curCh_ledgSample (i : Nat) (ma : Int) (ns : Nat) (old : Bool) (s : State) (n : Nat) :
    curCh (ledgSample i ma ns old s) n = curCh s n := by
  simp [curCh, id @ledgSample_keep]

/-- A channel's string changes its selection and the channels keep their values (R176). -/
@[simp] theorem curCh_selectAway (i : Nat) (s : State) (n : Nat) : curCh (selectAway i s) n = curCh s n := by
  unfold selectAway
  split
  · rfl
  · simp [id @emit_entries]

@[simp] theorem configured_modCh (s : State) (n : Nat) (f : CurCh → CurCh) (i : Nat) :
    configured (modCh s n f) i = configured s i := rfl

@[simp] theorem vanaOk_modCh (s : State) (n : Nat) (f : CurCh → CurCh) : vanaOk (modCh s n f) = vanaOk s := rfl

theorem calOn_eq_false {c : CurCh} (hsw : c.cal ≠ .switched) (hse : c.cal ≠ .settling) : calOn c = false := by
  simp [calOn, hsw, hse]

/-! ## Samples -/

theorem clampI_of_mem {lo hi x : Int} (hlo : lo ≤ x) (hhi : x ≤ hi) : clampI lo hi x = x := by
  simp only [clampI]
  split
  · omega
  · split <;> omega

/-- A sample of an armed channel on its input enters the channel, whichever channel is selected (R170). -/
theorem currentSample_enters {n : Nat} {x : Int} {s : State} (atS old : Bool) (ns : Nat) (hn : n < 8)
    (harm : armed s n = true) (hacq : s.sys.run.acq = true) (hsw : (curCh s n).cal ≠ .switched)
    (hse : (curCh s n).cal ≠ .settling) (hlo : -8388608 ≤ x) (hhi : x ≤ 8388607) :
    completes (.currentSample n x atS old ns) s fun t =>
      curCh t n = chSample (acqMode s) x ns atS (curCh s n) := by
  refine ⟨_, rfl, ?_⟩
  simp only [clampI_of_mem hlo hhi]
  rw [if_neg (by simp [hn, harm, hacq, hsw, hse])]
  split <;> simp

/-- At S the current of a running channel comes from the code of S (R170). -/
theorem chSample_at_instant {mode : Nat} {c : CurCh} (x : Int) (ns : Nat) (hrun : c.run = true) (hmode : mode ≠ 2) :
    (chSample mode x ns true c).iS = some (codeToMa c x 1) ∧ (chSample mode x ns true c).raw = x ∧
    (chSample mode x ns true c).win = ((x, ns) :: c.win).take 32 ∧
    (chSample mode x ns true c).sat = (c.sat || codeSat x) := by
  simp [chSample, hrun, hmode]

/-- The frame of Precise mode is the 16 newest samples (R171). -/
theorem frameCodes_precise {w : List (Int × Nat)} (x : Int) (ns : Nat) :
    frameCodes 2 (((x, ns) :: w).take 32) = x :: (w.take 15).map (·.1) := by
  simp [frameCodes, List.take_take]

/-- In Precise mode the current comes from the 16 codes of the window, rounded once (R171; assumption 86). -/
theorem chSample_precise {c : CurCh} (x : Int) (ns : Nat) (hrun : c.run = true) (hwin : c.win.length ≥ 15) :
    (chSample 2 x ns true c).iS = some (codeToMa c (x + sumI ((c.win.take 15).map (·.1))) 16) ∧
    (chSample 2 x ns true c).iMean = (chSample 2 x ns true c).iS := by
  have hlen : min 15 c.win.length = 15 := by omega
  simp only [chSample, frameCodes_precise, hrun]
  simp [sumI, hlen]

theorem currentSample_at_instant {n : Nat} {x : Int} {s : State} (old : Bool) (ns : Nat) (hn : n < 8)
    (harm : armed s n = true) (hacq : s.sys.run.acq = true) (hrun : (curCh s n).run = true)
    (hsw : (curCh s n).cal ≠ .switched) (hse : (curCh s n).cal ≠ .settling) (hmode : acqMode s ≠ 2)
    (hlo : -8388608 ≤ x) (hhi : x ≤ 8388607) :
    completes (.currentSample n x true old ns) s fun t =>
      (curCh t n).iS = some (codeToMa (curCh s n) x 1) ∧ (curCh t n).raw = x ∧
      (curCh t n).win = ((x, ns) :: (curCh s n).win).take 32 ∧ (curCh t n).sat = ((curCh s n).sat || codeSat x) := by
  obtain ⟨t, ht, hch⟩ := currentSample_enters true old ns hn harm hacq hsw hse hlo hhi
  exact ⟨t, ht, by simpa only [hch] using chSample_at_instant x ns hrun hmode⟩

theorem currentSample_precise {n : Nat} {x : Int} {s : State} (old : Bool) (ns : Nat) (hn : n < 8)
    (harm : armed s n = true) (hacq : s.sys.run.acq = true) (hrun : (curCh s n).run = true)
    (hsw : (curCh s n).cal ≠ .switched) (hse : (curCh s n).cal ≠ .settling) (hmode : acqMode s = 2)
    (hlo : -8388608 ≤ x) (hhi : x ≤ 8388607) (hwin : (curCh s n).win.length ≥ 15) :
    completes (.currentSample n x true old ns) s fun t =>
      (curCh t n).iS = some (codeToMa (curCh s n) (x + sumI (((curCh s n).win.take 15).map (·.1))) 16) ∧
      (curCh t n).iMean = (curCh t n).iS := by
  obtain ⟨t, ht, hch⟩ := currentSample_enters true old ns hn harm hacq hsw hse hlo hhi
  rw [hmode] at hch
  exact ⟨t, ht, by simpa only [hch] using chSample_precise x ns hrun hwin⟩

theorem currentSample_discarded {n : Nat} {s : State} (x : Int) (b old : Bool) (ns : Nat)
    (hcal : (curCh s n).cal = .switched ∨ (curCh s n).cal = .settling) :
    exec (.currentSample n x b old ns) s = .next s := by
  simp only [exec, execCurrentSample]
  rw [if_pos (by rcases hcal with h | h <;> simp [h])]

/-! ## Calibration -/

theorem calTrigger_waits {n : Nat} {s : State} (hn : n < 8) (hconf : configured s (chString n) = true)
    (hcal : (curCh s n).cal = .none)
    (hdue : s.time.tns ≥ (curCh s n).calAt + 600000000000 ∨ n ∈ s.cur.calQueue) :
    exec (.calTrigger n) s = .next (modCh s n fun c => { c with cal := .waiting }) := by
  simp only [exec, execCalTrigger]
  rw [if_pos (by simpa [hn, hconf, hcal, nsPerSec] using hdue)]

/-- The primary channel switched away leaves its string to the redundant one (R174 step 2, R176). -/
theorem selected_selectAway {i : Nat} {s : State} (hconf : configured s i = true)
    (hcal : (curCh s (2 * i)).cal = .switched) : selected (selectAway i s) i = 2 * i + 1 := by
  have hup : primaryUp s i = false := by simp [primaryUp, hcal]
  cases hred : (curStr s i).red <;> simp [selected, selectAway, hup, hred, hconf, id @emit_entries]

theorem calFree_of_waiting {n : Nat} {s : State} (hcal : (curCh s n).cal = .waiting)
    (hsw : (curCh s (otherCh n)).cal ≠ .switched) (hse : (curCh s (otherCh n)).cal ≠ .settling)
    (hfree : ((curCh s (otherCh n)).run = true ∧ (curStr s (chString n)).disagree = false) ∨
      standsOpen s (chString n) = true) : calFree s n = true := by
  rcases hfree with ⟨hrun, hdis⟩ | hopen
  · simp [calFree, hcal, calOn_eq_false hsw hse, hrun, hdis]
  · simp [calFree, hcal, calOn_eq_false hsw hse, hopen]

theorem calSwitch_switches {n : Nat} {s : State} (hn : n < 8) (hb : atBoundary s = true)
    (hcal : (curCh s n).cal = .waiting) (hturn : calTurn s n = true)
    (hsw : (curCh s (otherCh n)).cal ≠ .switched) (hse : (curCh s (otherCh n)).cal ≠ .settling)
    (hfree : ((curCh s (otherCh n)).run = true ∧ (curStr s (chString n)).disagree = false) ∨
      standsOpen s (chString n) = true) :
    completes (.calSwitch n) s fun t => (curCh t n).cal = .switched ∧ (curCh t n).win = [] ∧
      (n % 2 = 0 → configured s (chString n) = true → selected t (chString n) = otherCh n) := by
  refine ⟨_, rfl, ?_⟩
  rw [if_pos (by simp [hn, hb, calFree_of_waiting hcal hsw hse hfree, hturn])]
  refine ⟨by simp, by simp, fun heven hconf => ?_⟩
  have hpri : 2 * chString n = n := by
    unfold chString
    omega
  rw [selected_selectAway (by simpa using hconf) (by simp [hpri]), hpri]
  simp [otherCh, heven]

theorem calApply_settles {n : Nat} {s : State} (hcal : (curCh s n).cal = .switched) :
    exec (.calApply n) s =
      .next (modCh s n fun c => { c with cal := .settling, calAt := s.time.tns, calOver := false }) := by
  simp [exec, execCalApply, hcal]

theorem calReturn_ends {n : Nat} {s : State} (hcal : (curCh s n).cal = .settling) :
    completes (.calReturn n) s fun t => (curCh t n).cal = .none ∧ n ∉ t.cur.calQueue := by
  refine ⟨_, rfl, ?_⟩
  have hqueue (u : State) (l : List Nat) : curCh { u with cur.calQueue := l } n = curCh u n := rfl
  simp [hcal, hqueue]

theorem curCalOverdue_notes {n : Nat} {s : State} (hn : n < 8) (harm : armed s n = true)
    (hover : (curCh s n).calOver = false) (hdue : s.time.tns ≥ (curCh s n).calAt + 3600000000000) :
    completes (.curCalOverdue n) s fun t => (curCh t n).calOver = true := by
  refine ⟨_, rfl, ?_⟩
  simp [hn, harm, hover, nsPerSec, hdue, id @emit_entries]

/-- Settles O8: a sample enters its channel and is read from the window, and each step of a calibration is taken under
its conditions. -/
theorem currentCalibrates : Obligations.CurrentCalibrates :=
  ⟨fun _ _ old ns _ => currentSample_at_instant old ns, fun _ _ old ns _ => currentSample_precise old ns,
    fun _ x b old ns _ => currentSample_discarded x b old ns, fun _ _ => calTrigger_waits,
    fun _ _ => calSwitch_switches, fun _ _ => calApply_settles, fun _ _ => calReturn_ends,
    fun _ _ => curCalOverdue_notes⟩

/-! ## Stops -/

/-- A channel that stops for `f` measures nothing, and a comparator's failure is no fault of its own (R175, R176). -/
theorem curCh_chStop (n : Nat) (f : CurFault) (s : State) :
    curCh (chStop n f s) n = { curCh s n with
      fault := if f = .cmp then (curCh s n).fault else f
      cmpOk := (curCh s n).cmpOk && f != .cmp
      run := false, iS := none, iMean := none, win := [], beyondHi := 0, beyondLo := 0 } := by
  simp [chStop]

theorem channelStop_input {n : Nat} {mv : Int} {s : State} (sub : Nat) (hn : n < 8) (harm : armed s n = true)
    (hfault : (curCh s n).fault = .none) (hmv : mv < -100 ∨ mv > 5100) :
    completes (.channelStop n .input sub mv) s fun t =>
      (curCh t n).fault = .input ∧ (curCh t n).run = false ∧ (curCh t n).iS = none ∧ (curCh t n).iMean = none := by
  refine ⟨_, rfl, ?_⟩
  rw [if_neg (by simp [hn, harm, hfault])]
  simp [show mv < -100 ∨ 5100 < mv from hmv, id @settle_entries, id @emit_entries, curCh_chStop]

theorem channelStop_conv {n : Nat} {s : State} (sub : Nat) (mv : Int) (hn : n < 8) (harm : armed s n = true)
    (hfault : (curCh s n).fault = .none) :
    completes (.channelStop n .conv sub mv) s fun t =>
      (curCh t n).fault = .conv ∧ (curCh t n).run = false ∧ (curCh t n).iS = none ∧ (curCh t n).iMean = none := by
  refine ⟨_, rfl, ?_⟩
  rw [if_neg (by simp [hn, harm, hfault])]
  simp [id @settle_entries, id @emit_entries, curCh_chStop]

theorem channelStop_cmp {n sub : Nat} {s : State} (mv : Int) (hn : n < 8) (harm : armed s n = true)
    (hbeyond : (if sub = 0 then (curCh s n).beyondHi else (curCh s n).beyondLo) ≥ 3) :
    completes (.channelStop n .cmp sub mv) s fun t =>
      (curCh t n).cmpOk = false ∧ (curCh t n).run = false ∧ (curCh t n).fault = (curCh s n).fault := by
  refine ⟨_, rfl, ?_⟩
  rw [if_neg (by simp [hn, harm])]
  simp [if_pos hbeyond, id @settle_entries, id @emit_entries, curCh_chStop]

/-! ## Running again -/

/-- A channel without a fault fits while it is armed, its comparators passed and VANA is there (R175). -/
theorem chFit_of_no_fault {s : State} {n : Nat} (hfault : (curCh s n).fault = .none) :
    chFit s n = (armed s n && (curCh s n).cmpOk && vanaOk s) := by
  simp [chFit, armed, hfault]

theorem channelRunning_runs {n : Nat} {s : State} (hn : n < 8) (hfault : (curCh s n).fault ≠ .none)
    (hvana : vanaOk s = true) :
    completes (.channelRunning n) s fun t =>
      (curCh t n).fault = .none ∧ (curCh t n).run = (s.sys.run.acq && armed s n && (curCh s n).cmpOk) := by
  refine ⟨_, rfl, ?_⟩
  rw [if_pos (by simp [hn, hfault, hvana])]
  simp [id @settle_entries, chRefit, chFit_of_no_fault, armed, chVals, id @modCh_keep, hvana,
    Bool.and_assoc]

/-! ## The cross-check of a string -/

theorem curDisagreeSet_sets {i : Nat} {s : State} (hi : i < 4) (hcnt : (curStr s i).disCnt ≥ 100)
    (hclear : (curStr s i).disagree = false) :
    completes (.curDisagreeSet i) s fun t => curStr t i = { curStr s i with disagree := true } := by
  refine ⟨_, rfl, ?_⟩
  rw [if_pos (by simp [hi, hcnt, hclear])]
  simp [id @emit_entries]

theorem curDisagreeClear_clears {i : Nat} {s : State} (hi : i < 4) (hcnt : (curStr s i).agrCnt ≥ 100)
    (hset : (curStr s i).disagree = true) :
    exec (.curDisagreeClear i) s = .next (modCurStr s i fun x => { x with disagree := false }) := by
  simp [exec, execCurDisagreeClear, hi, hcnt, hset]

/-! ## Comparators -/

theorem comparatorCrossing_crosses {n : Nat} {s : State} (lo up : Bool) (hn : n < 8) :
    completes (.comparatorCrossing n lo up) s fun t => curCh t n =
      if lo then { curCh s n with
        rawLo := up, latLo := (curCh s n).latLo || (up && armed s n && !(curCh s n).test) }
      else { curCh s n with
        rawHi := up, latHi := (curCh s n).latHi || (up && armed s n && !(curCh s n).test) } := by
  refine ⟨_, rfl, ?_⟩
  rw [if_neg (show ¬ n ≥ 8 by omega)]
  simp [id @settle_entries]

/-- A check restores the channel's comparators, and one that is active then latches (R181, R182). -/
theorem curCh_cmpRestore (n : Nat) (s : State) :
    curCh (cmpRestore n s) n = { curCh s n with
      test := false
      latHi := (curCh s n).latHi || ((curCh s n).rawHi && armed s n)
      latLo := (curCh s n).latLo || ((curCh s n).rawLo && armed s n) } := by
  simp [cmpRestore]

theorem cmpCheckDone_passes {n : Nat} {s : State} (hn : n < 8) (htest : (curCh s n).test = true) :
    completes (.cmpCheckDone n true true) s fun t =>
      (curCh t n).test = false ∧ (curCh t n).cmpOk = true ∧ (curCh t n).fault = (curCh s n).fault := by
  refine ⟨_, rfl, ?_⟩
  rw [if_neg (by simp [hn, htest])]
  cases hok : (curCh s n).cmpOk <;> simp [id @settle_entries, chRefit, curCh_cmpRestore, hok]

theorem cmpCheckDone_fails {n : Nat} {hiOk loOk : Bool} {s : State} (hn : n < 8) (htest : (curCh s n).test = true)
    (hbad : (hiOk && loOk) = false) :
    completes (.cmpCheckDone n hiOk loOk) s fun t =>
      (curCh t n).test = false ∧ (curCh t n).cmpOk = false ∧ (curCh t n).run = false := by
  refine ⟨_, rfl, ?_⟩
  rw [if_neg (by simp [hn, htest])]
  simp [hbad, id @settle_entries, id @emitIf_entries, curCh_chStop, curCh_cmpRestore]

/-- Settles O9: each fault stops its channel and what ends it finds anew whether the channel runs, and a comparator's
crossing and check end in its latch or in its standing. -/
theorem currentFaults : Obligations.CurrentFaults :=
  ⟨fun _ sub _ _ => channelStop_input sub, fun _ sub mv _ => channelStop_conv sub mv,
    fun _ _ mv _ => channelStop_cmp mv, fun _ _ => channelRunning_runs, fun _ _ => curDisagreeSet_sets,
    fun _ _ => curDisagreeClear_clears, fun _ up _ => comparatorCrossing_crosses false up,
    fun _ up _ => comparatorCrossing_crosses true up, fun _ _ => cmpCheckDone_passes,
    fun _ _ _ _ => cmpCheckDone_fails⟩

end Sys2Proof.Machine
end

section
/-! PROOFS. Writes of the current channels' registers (R169, R174, R182, R186, R187): what each write makes of the
channels, and the statement of them. -/

namespace Sys2Proof.Machine

/-! ## The CUR window -/

theorem reaches_cur {a : Nat} (hw : a / 4096 = 9) (p : Port) (v : Word) (s : State) :
    reaches p a v s = reachCur (a % 4096) v s := by
  simp [reaches, hw]

theorem chkWord_cur {a : Nat} (hw : a / 4096 = 9) (q : Req) (n : Nat) (v : Word) (s : State) :
    chkWord q n a v s = chkCur (a % 4096) v s := by
  simp [chkWord, hw]

theorem putReg_cur {a : Nat} (hw : a / 4096 = 9) (q : Req) (v : Word) (s : State) :
    putReg q a v s = putCur (a % 4096) v s := by
  simp [putReg, hw]

/-- Whether a write reaches a channel's configuration is the channels' alone. -/
theorem reachCur_congr {s t : State} (e : t.cur = s.cur) (off : Nat) (v : Word) :
    reachCur off v t = reachCur off v s := by
  simp [reachCur, readCur, readCh, curStatus, auxWord, curCh, curStr, e]

/-- A request that begins changes neither the channels nor what their strings stand in. -/
@[simp] theorem reachCur_reqStart (op : Nat) (h : ReqHdr) (off : Nat) (v : Word) (s : State) :
    reachCur off v (reqStart op h s) = reachCur off v s :=
  reachCur_congr (by simp [id @reqStart_keep]) off v

@[simp] theorem curCh_reqStart (op : Nat) (h : ReqHdr) (s : State) (n : Nat) :
    curCh (reqStart op h s) n = curCh s n := by
  simp [curCh, id @reqStart_keep]

@[simp] theorem configured_reqStart (op : Nat) (h : ReqHdr) (s : State) (i : Nat) :
    configured (reqStart op h s) i = configured s i := by
  simp [configured, topoStr, id @reqStart_keep]

@[simp] theorem standsOpen_reqStart (op : Nat) (h : ReqHdr) (s : State) (i : Nat) :
    standsOpen (reqStart op h s) i = standsOpen s i :=
  standsOpen_congr (by simp [id @reqStart_keep]) i

/-- A write of one word of the CUR window with presence, or to no RWP field, completes with what every answered effect
of the word has. -/
theorem completes_cur {c : Instr} {h : ReqHdr} {p : Bool} {a off : Nat} {v : Word} {s : State} {P : State → Prop}
    (hx : exec c s = .next (regReq p h noMeas a (fun _ => v) s)) (hf : freshWr h p s) (ha : a = 0x9000 + off)
    (hoff : off < 4096 ∧ off % 4 = 0) (hr : p = false → reachCur off v s = false)
    (hc : chkCur off v (reqStart (wrOp p) h s) = 0)
    (hP : ∀ r, P (settle (answer (wrOp p) h.port h.tag r (putCur off v (reqStart (wrOp p) h s))))) :
    completes c s P := by
  have hw : a / 4096 = 9 := by omega
  have ho : a % 4096 = off := by omega
  refine completes_write noMeas a (fun _ => v) hx hf (by omega) (by omega) (fun hp => ?_) ?_ fun r => ?_
  · rw [reaches_cur hw, ho]
    exact (reachCur_reqStart _ h off v s).trans (hr hp)
  · rw [chkWord_cur hw, ho]
    exact hc
  · rw [putReg_cur hw, ho]
    exact hP r

/-! ## Channel configurations -/

/-- What a write of word `k` of a channel's configuration stores: CFG, FS or OFS (R187). -/
def chPut (k : Nat) (v : Word) (c : CurCh) : CurCh :=
  if k = 0 then { c with inv := v.getLsbD 1, en := v.getLsbD 0 }
  else if k = 4 then { c with fs := v.toNat }
  else { c with ofs := toSigned 16 (bits v 15 0) }

/-- A configuration is stored, and the channel uses the values it had until the next boundary (R169). -/
theorem curCh_chWrite (n : Nat) (f : CurCh → CurCh) (s : State) :
    curCh (chWrite n f s) n = { f (curCh s n) with use := some (chVals (curCh s n)) } := by
  have e (u : State) : curCh (nvQueue 4 u) n = curCh u n := by simp [curCh, id @nvQueue_keep]
  simp [chWrite, e]

section
variable {n k off : Nat} {v : Word} {s : State} (hoff : off = 0x040 + k + 16 * n) (hk : k < 16)
include hoff hk

theorem putCur_of_reached (hreach : reachCur off v s = true) : putCur off v s = chWrite n (chPut k v) s := by
  have hn : (off - 0x040) / 16 = n := by omega
  have hword : off % 16 = k := by omega
  simp only [putCur, if_pos hreach, hn, hword]
  unfold chPut
  repeat' split
  all_goals rfl

/-- A channel whose string stands open takes a configuration whose full scale is in range (R169, R187). -/
theorem chkCur_of_open (hopen : standsOpen s (chString n) = true)
    (hfs : k = 4 → 10000 ≤ v.toNat ∧ v.toNat ≤ 5000000) : chkCur off v s = 0 := by
  have hn : (off - 0x040) / 16 = n := by omega
  have hword : off % 16 = k := by omega
  simp only [chkCur, hn, hword]
  split
  · rfl
  · rw [if_neg fun h => h.2 (hfs h.1)]
    simp [chWriteChk, hopen]

end

/-- A write with presence that changes word `k` of the configuration of a channel whose string stands open stores it,
and the channel uses the values it had (R169; assumption 40). -/
theorem completes_chWrite {c : Instr} {h : ReqHdr} {n : Fin 8} {k a off : Nat} {v : Word} {s : State}
    (hx : exec c s = .next (regReq true h noMeas a (fun _ => v) s)) (hf : freshWr h true s)
    (hopen : standsOpen s (chString n.val) = true) (hreach : reachCur off v s = true)
    (ha : a = 0x9000 + off) (hoff : off = 0x040 + k + 16 * n.val) (hk : k < 16 ∧ k % 4 = 0)
    (hfs : k = 4 → 10000 ≤ v.toNat ∧ v.toNat ≤ 5000000) :
    completes c s fun t =>
      curCh t n.val = { chPut k v (curCh s n.val) with use := some (chVals (curCh s n.val)) } := by
  obtain ⟨hk16, hk4⟩ := hk
  refine completes_cur hx hf ha (by omega) (by simp) (chkCur_of_open hoff hk16 (by simpa using hopen) hfs) fun r => ?_
  rw [putCur_of_reached hoff hk16 (by simpa using hreach)]
  simp [id @settle_entries, id @answer_entries, curCh_chWrite]

section
variable {h : ReqHdr} {n : Fin 8} {v : Word} {s : State} (hf : freshWr h true s)
include hf

theorem curChCfgWrite_stores (hopen : standsOpen s (chString n.val) = true)
    (hreach : reachCur (0x040 + 16 * n.val) v s = true) :
    completes (.curChCfgWrite h true n v) s fun t =>
      (curCh t n.val).inv = v.getLsbD 1 ∧ (curCh t n.val).en = v.getLsbD 0 ∧
      (curCh t n.val).use = some (chVals (curCh s n.val)) ∧ (curCh t n.val).fs = (curCh s n.val).fs := by
  obtain ⟨t, ht, hch⟩ := completes_chWrite (c := .curChCfgWrite h true n v) (k := 0) rfl hf hopen hreach (by omega)
    (by omega) (by decide) nofun
  exact ⟨t, ht, by simp [hch, chPut]⟩

theorem curChFsWrite_stores (hopen : standsOpen s (chString n.val) = true)
    (hreach : reachCur (0x044 + 16 * n.val) v s = true) (hlo : 10000 ≤ v.toNat) (hhi : v.toNat ≤ 5000000) :
    completes (.curChFsWrite h true n v) s fun t =>
      (curCh t n.val).fs = v.toNat ∧ (curCh t n.val).use = some (chVals (curCh s n.val)) ∧
      (curCh t n.val).ofs = (curCh s n.val).ofs := by
  obtain ⟨t, ht, hch⟩ := completes_chWrite (c := .curChFsWrite h true n v) (k := 4) rfl hf hopen hreach (by omega)
    (by omega) (by decide) fun _ => ⟨hlo, hhi⟩
  exact ⟨t, ht, by simp [hch, chPut]⟩

theorem curChOfsWrite_stores (hopen : standsOpen s (chString n.val) = true)
    (hreach : reachCur (0x048 + 16 * n.val) v s = true) :
    completes (.curChOfsWrite h true n v) s fun t =>
      (curCh t n.val).ofs = toSigned 16 (bits v 15 0) ∧ (curCh t n.val).use = some (chVals (curCh s n.val)) ∧
      (curCh t n.val).fs = (curCh s n.val).fs := by
  obtain ⟨t, ht, hch⟩ := completes_chWrite (c := .curChOfsWrite h true n v) (k := 8) rfl hf hopen hreach (by omega)
    (by omega) (by decide) nofun
  exact ⟨t, ht, by simp [hch, chPut]⟩

/-- A write that changes nothing is none (R169; assumption 40): it is taken, whether the string stands open or not. -/
theorem curChFsWrite_unchanged (hreach : reachCur (0x044 + 16 * n.val) v s = false) :
    completes (.curChFsWrite h true n v) s fun t => t.cur = s.cur := by
  have hn := n.isLt
  have hctrl : 0x044 + 16 * n.val ≠ 0x008 := by omega
  have haux : 0x044 + 16 * n.val ≠ 0x138 := by omega
  refine completes_cur (off := 0x044 + 16 * n.val) rfl hf (by omega) (by omega) (by simp) (by simp [chkCur, hreach])
    fun r => ?_
  simp [putCur, hreach, hctrl, haux, id @settle_keep, id @answer_keep, id @reqStart_keep]

end

/-! ## CUR_CTRL -/

/-- CUR_CTRL holds no RWP field (R186). -/
theorem reachCur_ctrl (v : Word) (s : State) : reachCur 0x008 v s = false := by
  simp [reachCur, curRwp]

/-- A write of CUR_CTRL completes with what every answered effect of the word has. -/
theorem completes_curCtrl {c : Instr} {h : ReqHdr} {p : Bool} {v : Word} {s : State} {P : State → Prop}
    (hx : exec c s = .next (regReq p h noMeas 0x9008 (fun _ => v) s)) (hf : freshWr h p s)
    (hP : ∀ r, P (settle (answer (wrOp p) h.port h.tag r (putCur 0x008 v (reqStart (wrOp p) h s))))) :
    completes c s P :=
  completes_cur hx hf rfl (by decide) (fun _ => reachCur_ctrl v s) (by simp [chkCur, reachCur_ctrl]) hP

theorem putCur_ctrl_calNow {s : State} (hrun : s.sys.run.acq = true) : putCur 0x008 1 s = calNow s := by
  simp [putCur, reachCur_ctrl, hrun]

theorem putCur_ctrl_cmpTest {s : State} (hrun : s.sys.run.acq = true) : putCur 0x008 2 s = cmpTest s := by
  simp [putCur, reachCur_ctrl, hrun]

theorem mem_calQueue_calNow (s : State) (n : Nat) :
    n ∈ (calNow s).cur.calQueue ↔ n ∈ s.cur.calQueue ∨ (n < 8 ∧ configured s (chString n) = true) := by
  by_cases hq : n ∈ s.cur.calQueue <;> simp [calNow, calAll, hq]

/-- A fold that changes each channel of the list once where `q` allows it, by a change that does not bear on `q`,
changes those channels and no other. -/
theorem curCh_foldl {q : State → Nat → Bool} {f : CurCh → CurCh} (hq : ∀ s m, q (modCh s m f) = q s) {l : List Nat}
    (hl : l.Nodup) (s : State) (n : Nat) :
    curCh (l.foldl (fun s m => if q s m then modCh s m f else s) s) n =
      if n ∈ l ∧ q s n = true then f (curCh s n) else curCh s n := by
  induction l generalizing s with
  | nil => simp
  | cons m l ih =>
    obtain ⟨hm, hl⟩ := List.nodup_cons.mp hl
    rw [List.foldl_cons, ih hl]
    have hmay : q (if q s m then modCh s m f else s) = q s := by
      split
      · exact hq s m
      · rfl
    rw [hmay]
    by_cases h : n = m
    · subst h
      by_cases hn : q s n = true <;> simp [hm, hn]
    · by_cases hm' : q s m = true <;> simp [h, hm']

theorem curCh_cmpTest {n : Nat} (hn : n < 8) (s : State) :
    curCh (cmpTest s) n = { curCh s n with test := (curCh s n).test || mayTest s n } := by
  rw [cmpTest, curCh_foldl (q := mayTest) (fun _ _ => rfl) List.nodup_range]
  by_cases hmay : mayTest s n = true <;> simp [hn, hmay]

theorem curCalNow_queues {h : ReqHdr} {p : Bool} {s : State} (hf : freshWr h p s) (hrun : s.sys.run.acq = true) :
    completes (.curCalNow h p) s fun t => ∀ n, n ∈ t.cur.calQueue ↔
      n ∈ s.cur.calQueue ∨ (n < 8 ∧ configured s (chString n) = true) := by
  refine completes_curCtrl rfl hf fun r n => ?_
  rw [putCur_ctrl_calNow (by simpa [id @reqStart_keep] using hrun)]
  simp [id @settle_keep, id @answer_keep, mem_calQueue_calNow, id @reqStart_keep]

theorem cmpTest_tests {h : ReqHdr} {p : Bool} {n : Nat} {s : State} (hf : freshWr h p s) (hrun : s.sys.run.acq = true)
    (hn : n < 8) :
    completes (.cmpTest h p) s fun t => curCh t n = { curCh s n with
      test := (curCh s n).test || !configured s (chString n) || standsOpen s (chString n) } := by
  refine completes_curCtrl rfl hf fun r => ?_
  rw [putCur_ctrl_cmpTest (by simpa [id @reqStart_keep] using hrun)]
  simp [id @settle_entries, id @answer_entries, curCh_cmpTest hn, mayTest, Bool.or_assoc]

/-- Settles O28: a write that reaches a channel's configuration stores its word, one that does not changes nothing, and
CUR_CTRL's pulses act on every channel that they are for. -/
theorem writesCurrent : Obligations.WritesCurrent :=
  ⟨fun _ _ _ _ => curChCfgWrite_stores, fun _ _ _ _ => curChFsWrite_stores, fun _ _ _ _ => curChOfsWrite_stores,
    fun _ _ _ _ => curChFsWrite_unchanged, fun _ _ _ => curCalNow_queues, fun _ _ _ _ => cmpTest_tests⟩

end Sys2Proof.Machine
end

section
/-! PROOFS. The copies of Husk (R180, R207 to R209, R215): what a difference, its record, a CRC check and a netlist load
make of the fabric, and the statement of them. -/

namespace Sys2Proof.Machine

/-! ## Divergence -/

theorem huskDivergence_counts {k : Nat} {s : State} (hdiff : differs s k = true) (hnew : diverges s k = false) :
    exec (.huskDivergence k) s = .next { s with
      husk.divs := s.husk.divs ++ [{ out := k, since := s.time.tns - 2000, till := none, said := false }]
      husk.divCnt := sat 16 (s.husk.divCnt + 1) } := by
  simp [exec, execHuskDivergence, hdiff, hnew]

/-- A divergence that is recorded now is not recorded again (R207). -/
def divNoted (s : State) (d : Div) : Div := { d with said := d.said || divDue s d }

/-- The due divergences are recorded, and of the divergences those that are over are dropped (R207). -/
def divsRecorded (s : State) : State :=
  let u := (s.husk.divs.filter (divDue s)).foldl divRecord s
  { u with husk.divs := (u.husk.divs.map (divNoted s)).filter (·.till.isNone) }

theorem exec_huskDivergeRecord (intact : Bool) (s : State) :
    exec (.huskDivergeRecord intact) s = .next (settle (
      match (s.husk.divs.filter (divDue s)).find? (·.till.isNone) with
      | none => divsRecorded s
      | some d => copyFault 3 (divOutput s.husk.shadow d.out) s.husk.net.crc intact (divsRecorded s))) := rfl

/-- The records change neither the clock nor Husk. -/
theorem foldl_divRecord_keep (l : List Div) (s : State) :
    (l.foldl divRecord s).time = s.time ∧ (l.foldl divRecord s).husk = s.husk :=
  ⟨foldl_keep (·.time) divRecord l s fun t d => by simp [id @divRecord_keep],
    foldl_keep (·.husk) divRecord l s fun t d => by simp [id @divRecord_keep]⟩

theorem divsRecorded_keep (s : State) :
    (divsRecorded s).time = s.time ∧
    (divsRecorded s).husk = { s.husk with divs := (s.husk.divs.map (divNoted s)).filter (·.till.isNone) } := by
  obtain ⟨htime, hhusk⟩ := foldl_divRecord_keep (s.husk.divs.filter (divDue s)) s
  exact ⟨htime, by simp only [divsRecorded, hhusk]⟩

/-- A difference that stands and is not yet 1 s old is not due (R207). -/
theorem divDue_of_young {s : State} {d : Div} (hopen : d.till = none) (hyoung : s.time.tns < d.since + 1000000000) :
    divDue s d = false := by
  have hlt : ¬ s.time.tns ≥ d.since + nsPerSec := by
    simp only [nsPerSec]
    omega
  simp [divDue, hopen, hlt]

theorem divsRecorded_divs {s : State} (hyoung : ∀ d ∈ s.husk.divs, d.till = none → s.time.tns < d.since + 1000000000) :
    (divsRecorded s).husk.divs = s.husk.divs.filter (·.till.isNone) := by
  obtain ⟨-, hhusk⟩ := divsRecorded_keep s
  rw [hhusk, List.filter_map]
  refine (List.map_congr_left fun d hd => ?_).trans (List.map_id _)
  obtain ⟨hmem, hopen⟩ := List.mem_filter.mp hd
  have hopen' : d.till = none := by simpa [divNoted] using hopen
  simp [divNoted, divDue_of_young hopen' (hyoung d hmem hopen')]

theorem huskDivergeRecord_drops {s : State} (intact : Bool)
    (hyoung : ∀ d ∈ s.husk.divs, d.till = none → s.time.tns < d.since + 1000000000) :
    makes (.huskDivergeRecord intact) s fun u =>
      u.husk.divs = s.husk.divs.filter (·.till.isNone) ∧ u.husk.copyFault = s.husk.copyFault := by
  have hnone : (s.husk.divs.filter (divDue s)).find? (·.till.isNone) = none := by
    refine List.find?_eq_none.mpr fun d hd hopen => ?_
    obtain ⟨hmem, hdue⟩ := List.mem_filter.mp hd
    have hopen' : d.till = none := by simpa using hopen
    simp [divDue_of_young hopen' (hyoung d hmem hopen')] at hdue
  refine ⟨divsRecorded s, ?_, divsRecorded_divs hyoung, ?_⟩
  · rw [settlesTo, exec_huskDivergeRecord, hnone]
  · rw [(divsRecorded_keep s).2]

/-! ## Copy faults -/

/-- A load of a netlist leaves a copy fault as it stands. -/
theorem loadNet_fault (n : Netlist) (src : NlSrc) (s : State) :
    (loadNet n src s).husk.copyFault = s.husk.copyFault ∧ (loadNet n src s).husk.faultAt = s.husk.faultAt := ⟨rfl, rfl⟩

theorem copyFault_faults (cause : Nat) (shadow : Bool) (crc : Word) (intact : Bool) (s : State) :
    (copyFault cause shadow crc intact s).husk.copyFault = true ∧
    (copyFault cause shadow crc intact s).husk.faultAt = some s.time.tns := by
  unfold copyFault
  extract_lets again s1 s2 s2' husk s3
  have hfault : s3.husk.copyFault = true ∧ s3.husk.faultAt = some s.time.tns := ⟨rfl, rfl⟩
  split <;> exact hfault

/-- A copy fault that a command ends in stands when all has settled, with its time. -/
theorem completes_copyFault {c : Instr} {s u : State} {cause : Nat} {shadow : Bool} {crc : Word} {intact : Bool}
    (hx : settlesTo c s (copyFault cause shadow crc intact u)) (ht : u.time.tns = s.time.tns) :
    completes c s fun t => t.husk.copyFault = true ∧ t.husk.faultAt = some s.time.tns := by
  obtain ⟨hfault, hat⟩ := copyFault_faults cause shadow crc intact u
  exact ⟨_, hx, by simp [id @settle_husk, hfault, hat, ht]⟩

theorem huskDivergeRecord_faults {d : Div} {s : State} (intact : Bool) (hmem : d ∈ s.husk.divs) (hopen : d.till = none)
    (hsaid : d.said = false) (hold : s.time.tns ≥ d.since + 1000000000) :
    completes (.huskDivergeRecord intact) s fun t =>
      t.husk.copyFault = true ∧ t.husk.faultAt = some s.time.tns := by
  have hdue : d ∈ s.husk.divs.filter (divDue s) :=
    List.mem_filter.mpr ⟨hmem, by simp [divDue, hopen, hsaid, nsPerSec, hold]⟩
  obtain ⟨e, he⟩ : ∃ e, (s.husk.divs.filter (divDue s)).find? (·.till.isNone) = some e :=
    Option.isSome_iff_exists.mp (List.find?_isSome.mpr ⟨d, hdue, by simp [hopen]⟩)
  refine completes_copyFault (u := divsRecorded s) (by rw [settlesTo, exec_huskDivergeRecord, he]) ?_
  rw [(divsRecorded_keep s).1]

/-! ## The CRC of the configurations -/

theorem huskCrcCheck_passes {crc : Word} {s : State} (corr : Nat) (intact : Bool) (hnl : s.husk.nlSrc ≠ .none)
    (hcrc : s.husk.net.crc = crc) (hmain : s.husk.mainOk = true) (hshadow : s.husk.shadowOk = true) :
    settlesTo (.huskCrcCheck crc crc corr false false intact) s { s with
      husk.eccCnt := sat 16 (s.husk.eccCnt + corr), husk.copyFault := s.husk.romHeld } := by
  subst hcrc
  simp [settlesTo, exec, execHuskCrcCheck, hnl, hmain, hshadow]

theorem huskCrcCheck_faults {crcM crcS : Word} {uncM uncS : Bool} {s : State} (corr : Nat) (intact : Bool)
    (hnl : s.husk.nlSrc ≠ .none)
    (hbad : uncM = true ∨ uncS = true ∨ crcM ≠ s.husk.net.crc ∨ crcS ≠ s.husk.net.crc) :
    completes (.huskCrcCheck crcM crcS corr uncM uncS intact) s fun t =>
      t.husk.copyFault = true ∧ t.husk.faultAt = some s.time.tns := by
  have hfault : ∃ cause shadow crc, settlesTo (.huskCrcCheck crcM crcS corr uncM uncS intact) s
      (copyFault cause shadow crc intact { s with husk.eccCnt := sat 16 (s.husk.eccCnt + corr) }) := by
    simp only [settlesTo, exec, execHuskCrcCheck]
    rw [if_neg (by simpa using hnl)]
    by_cases hum : uncM = true
    · exact ⟨1, false, crcM, by rw [if_pos hum]⟩
    by_cases hus : uncS = true
    · exact ⟨1, true, crcS, by rw [if_neg hum, if_pos hus]⟩
    by_cases hm : crcM ≠ s.husk.net.crc
    · exact ⟨2, false, crcM, by rw [if_neg hum, if_neg hus, if_pos hm]⟩
    have hs : crcS ≠ s.husk.net.crc := by simpa [hum, hus, hm] using hbad
    exact ⟨2, true, crcS, by rw [if_neg hum, if_neg hus, if_neg hm, if_pos hs]⟩
  obtain ⟨_, _, _, hx⟩ := hfault
  exact completes_copyFault hx rfl

/-! ## Netlist loads -/

theorem netlistLoad_loads {s : State} (hload : s.husk.loading = true) :
    settlesTo .netlistLoad s
      { threshWrite (allThresholds (loadNet s.husk.net s.husk.nlSrc s)) with husk.loading := false } := by
  simp [settlesTo, exec, execNetlistLoad, hload]

/-- The trip latches of a copy (R206). -/
def HuskCopy.latches (h : HuskCopy) : BitVec 4 × BitVec 4 × BitVec 4 := (h.t0, h.t1, h.t2)

theorem latchOf_of_latches {a b : HuskCopy} (e : a.latches = b.latches) (cat i : Nat) :
    latchOf a cat i = latchOf b cat i := by
  obtain ⟨h0, h1, h2⟩ : a.t0 = b.t0 ∧ a.t1 = b.t1 ∧ a.t2 = b.t2 := by simpa [HuskCopy.latches] using e
  simp [latchOf, h0, h1, h2]

/-- What each step of a fold over a copy leaves of its latches, the fold leaves. -/
theorem foldl_latches {α : Type} (f : HuskCopy → α → HuskCopy) (hf : ∀ h x, (f h x).latches = h.latches) (l : List α)
    (h : HuskCopy) : (l.foldl f h).latches = h.latches :=
  List.foldlRecOn (motive := fun k : HuskCopy => k.latches = h.latches) l f rfl fun k hk x _ => (hf k x).trans hk

theorem cellsPass_latches (s : State) (h : HuskCopy) : (cellsPass s h).latches = h.latches := by
  unfold cellsPass
  refine foldl_latches _ (fun _ _ => ?_) _ _
  rfl

theorem timersPass_latches (s : State) (h : HuskCopy) : (timersPass s h).latches = h.latches := by
  unfold timersPass
  refine foldl_latches _ (fun _ _ => ?_) _ _
  rfl

theorem netPasses_latches (s : State) (n : Nat) (h : HuskCopy) : (netPasses s n h).latches = h.latches := by
  induction n generalizing h with
  | zero => rfl
  | succ n ih => rw [netPasses, ih, timersPass_latches, cellsPass_latches]

theorem restless_latches (s : State) (a b : HuskCopy) : (restless s a b).latches = b.latches := by
  refine foldl_latches _ (fun h x => ?_) _ _
  split <;> rfl

/-- Settling moves cells, timers and bindings, and no trip latch (R195). -/
theorem settleCopy_latches (s : State) (h : HuskCopy) : (settleCopy s h).latches = h.latches := by
  change (netRest s h).latches = h.latches
  simp only [netRest, restless_latches, cellsPass_latches, netPasses_latches]

theorem copyOf_loadNet_latches (n : Netlist) (src : NlSrc) (s : State) (c : Bool) :
    (copyOf (loadNet n src s) c).latches = (copyOf s c).latches := by
  cases c <;> exact settleCopy_latches _ _

theorem loadNet_keeps_latches (n : Netlist) (src : NlSrc) (s : State) (c : Bool) (cat i : Nat) :
    latchOf (copyOf (loadNet n src s) c) cat i = latchOf (copyOf s c) cat i :=
  latchOf_of_latches (copyOf_loadNet_latches n src s c) cat i

theorem loadNet_records (n : Netlist) (src : NlSrc) (s : State) :
    (loadNet n src s).husk.cause = s.husk.cause ∧ (loadNet n src s).cur = s.cur ∧
    (loadNet n src s).husk.mainOk = !s.husk.copyFault ∧ (loadNet n src s).husk.nlSrc = src := ⟨rfl, rfl, rfl, rfl⟩

/-- The comparator takes the code of R180 for the current after INV. -/
theorem setThr_code (n : Nat) (lo : Bool) (req : Int) (s : State) :
    (if lo then (curCh (setThr n lo req s) n).thrLo else (curCh (setThr n lo req s) n).thrHi) =
      thrCode (thrRaw (if (curCh s n).inv then -req else req) (curCh s n).ofs (curCh s n).fs) := by
  cases lo <;> simp [setThr, id @emitIf_entries]

/-- Settles O14: a difference is held, recorded and judged by its age, a failing copy ends in the copy fault, and a load
keeps what the fabric latched. -/
theorem huskCopies : Obligations.HuskCopies :=
  ⟨fun _ _ => huskDivergence_counts, fun intact _ => huskDivergeRecord_drops intact,
    fun intact _ _ => huskDivergeRecord_faults intact, fun _ corr intact _ => huskCrcCheck_passes corr intact,
    fun _ _ corr _ _ intact _ => huskCrcCheck_faults corr intact, fun _ => netlistLoad_loads, loadNet_keeps_latches,
    loadNet_records, fun n lo req s _ => setThr_code n lo req s⟩

end Sys2Proof.Machine
end

section
/-! PROOFS. The driver inputs (R225, R227, R240, R241): economy and the coil faults of a pre-driver channel, and what the
samples of the HVIL loops and of KEY make of them. -/

namespace Sys2Proof.Machine

/-! ## A pre-driver channel as the state settles -/

theorem orderlyOpen_ch (m : List Bool) (i : Nat) (s : State) : (orderlyOpen m i s).drv.ch = s.drv.ch := by
  have hstart (u : State) : (noteOpen i u).drv.ch = u.drv.ch := by unfold noteOpen; split <;> rfl
  have hend (u : State) : (noteOpenEnd i u).drv.ch = u.drv.ch := by unfold noteOpenEnd; split <;> rfl
  simp [orderlyOpen, hstart, hend, id @abortStanding_keep, id @setCopy_keep]

theorem settleOverflow_ch (s : State) : (settleOverflow s).drv.ch = s.drv.ch := by
  unfold settleOverflow
  split
  · exact foldl_keep (·.drv.ch) _ _ s fun t i => orderlyOpen_ch _ i t
  · rfl

/-- Of all that settles, the drivers alone move a pre-driver channel. -/
theorem drvCh_settle (s : State) (n : Nat) :
    drvCh (settle s) n =
      drvCh (settleDrv (settleNet (settleOverflow (settleLevel (settleAuth (settleHostOpen s)))))) n := by
  simp [drvCh, settle, id @settlePins_keep, id @settleChar_keep]

theorem drvCh_before_drivers (s : State) (n : Nat) :
    drvCh (settleNet (settleOverflow (settleLevel (settleAuth (settleHostOpen s))))) n = drvCh s n := by
  simp [drvCh, settleOverflow_ch, id @settleNet_keep, id @settleLevel_keep, id @settleAuth_keep, id @settleHostOpen_keep]

theorem drvCh_settleDrvCh (s : State) (m n : Nat) :
    drvCh (settleDrvCh s m) n =
      if n = m then drvFollow s m (chOn s (m / 3) (m % 3) && chDriven s m) (drvCh s m) else drvCh s n := by
  simp only [settleDrvCh]
  split
  · next hsame =>
    split
    · next hn => rw [hsame, hn]
    · rfl
  · simp

/-- A DRIVE fault stands with its coil current, whatever the channel is commanded, and holds both gates off (R227). -/
theorem drvFollow_of_drive {d : DrvCh} (s : State) (n : Nat) (on : Bool) (hd : d.drive = true) :
    (drvFollow s n on d).drive = true ∧ (drvFollow s n on d).coil = d.coil ∧ (drvFollow s n on d).hg = 0 ∧
    (drvFollow s n on d).lg = false := by
  simp [drvFollow, hd]

theorem foldl_settleDrvCh_of_drive {n : Nat} (l : List Nat) (s : State) (hd : (drvCh s n).drive = true)
    (hoff : n ∈ l ∨ (drvCh s n).hg = 0 ∧ (drvCh s n).lg = false) :
    (drvCh (l.foldl settleDrvCh s) n).drive = true ∧ (drvCh (l.foldl settleDrvCh s) n).coil = (drvCh s n).coil ∧
    (drvCh (l.foldl settleDrvCh s) n).hg = 0 ∧ (drvCh (l.foldl settleDrvCh s) n).lg = false := by
  induction l generalizing s with
  | nil => simpa [hd] using hoff
  | cons m l ih =>
    have hstep := drvCh_settleDrvCh s m n
    by_cases hn : n = m
    · subst hn
      rw [if_pos rfl] at hstep
      obtain ⟨hdrive, hcoil, hgates⟩ := drvFollow_of_drive s n (chOn s (n / 3) (n % 3) && chDriven s n) hd
      rw [← hstep] at hdrive hcoil hgates
      exact hcoil ▸ ih (settleDrvCh s n) hdrive (.inr hgates)
    · rw [if_neg hn] at hstep
      exact hstep ▸ ih (settleDrvCh s m) (by rwa [hstep]) (by simpa [hstep, hn] using hoff)

/-- Once all has settled, a channel with a DRIVE fault has both its gates off (R227). -/
theorem settle_of_drive {s : State} {n : Nat} (hn : n < 12) (hd : (drvCh s n).drive = true) :
    (drvCh (settle s) n).drive = true ∧ (drvCh (settle s) n).coil = (drvCh s n).coil ∧
    (drvCh (settle s) n).hg = 0 ∧ (drvCh (settle s) n).lg = false := by
  have h := foldl_settleDrvCh_of_drive (n := n) (List.range 12)
    (settleNet (settleOverflow (settleLevel (settleAuth (settleHostOpen s)))))
    (by rwa [drvCh_before_drivers]) (.inl (List.mem_range.mpr hn))
  rw [drvCh_before_drivers] at h
  rwa [drvCh_settle]

/-! ## Economy and coil faults -/

theorem economyEntry_enters {n t : Nat} {s : State} (hn : n < 12) (hon : (drvCh s n).onAt = some t)
    (hdrive : (drvCh s n).drive = false) (ht : s.time.tns ≥ t + (drvOf s (n / 3)).pullIn * 1000000) :
    settlesTo (.economyEntry n) s (modDrvCh s n fun d => { d with econ := true }) := by
  simp [settlesTo, exec, execEconomyEntry, hon, hn, hdrive, ht]

theorem driveFault_latches {n coil : Nat} {gate : Bool} {s : State} (hn : n < 12) (hdriven : chDriven s n = true)
    (hbad : gate = true ∨ coil ≥ 4000) (hdrive : (drvCh s n).drive = false) :
    completes (.driveFault n gate coil) s fun t =>
      (drvCh t n).drive = true ∧ (drvCh t n).coil = sat 16 coil ∧ (drvCh t n).hg = 0 ∧ (drvCh t n).lg = false := by
  have hbad' : (gate || decide (coil ≥ 4000)) = true := by simpa using hbad
  obtain ⟨u, hx, hu⟩ : makes (.driveFault n gate coil) s fun u =>
      drvCh u n = { drvCh s n with coil := sat 16 coil, drive := true } := by
    refine ⟨_, rfl, ?_⟩
    simp [hn, hdriven, hdrive, hbad', id @emit_entries]
  have hheld := settle_of_drive (s := u) hn (by rw [hu])
  rw [hu] at hheld
  exact ⟨settle u, hx, hheld⟩

theorem openCoilFault_latches {n c0 c1 c2 t : Nat} {s : State} (hn : n < 12) (hdriven : chDriven s n = true)
    (hon : (drvCh s n).onAt = some t) (ht : s.time.tns ≥ t + 10000000) (h0 : c0 < 40) (h1 : c1 < 40) (h2 : c2 < 40)
    (hopen : (drvCh s n).openF = false) :
    makes (.openCoilFault n c0 c1 c2) s fun u =>
      drvCh u n = { drvCh s n with coil := sat 16 c2, openF := true } := by
  refine ⟨_, rfl, ?_⟩
  simp [hn, hdriven, hon, ht, h0, h1, h2, hopen, id @emit_entries]

/-! ## HVIL loops -/

/-- A loop after a list of samples, oldest first. -/
abbrev hvilRun (l : List Nat) (x : Hvil) : Hvil := l.foldl (fun x v => hvilNext v x) x

theorem hvilOf_hvilSample (n v : Nat) (s : State) : hvilOf (hvilSample n s v) n = hvilNext v (hvilOf s n) := by
  simp [hvilSample, id @emitIf_entries]

theorem hvilOf_foldl_hvilSample (n : Nat) (l : List Nat) (s : State) :
    hvilOf (l.foldl (hvilSample n) s) n = hvilRun l (hvilOf s n) := by
  induction l generalizing s with
  | nil => rfl
  | cons v l ih =>
    rw [List.foldl_cons, ih, hvilOf_hvilSample]
    rfl

/-- What the samples make of the loop stands when all has settled. -/
theorem hvilOf_settle_samples (n : Nat) (l : List Nat) (s : State) :
    hvilOf (settle (l.foldl (hvilSample n) s)) n = hvilRun l (hvilOf s n) := by
  rw [← hvilOf_foldl_hvilSample]
  simp [hvilOf, id @settle_drv]

theorem hvilFault_assesses {n : Nat} (l : List Nat) {s : State} (hn : n < 2) :
    completes (.hvilFault n l) s fun t => hvilOf t n = hvilRun l (hvilOf s n) :=
  ⟨settle (l.foldl (hvilSample n) s), by simp [exec, execHvilFault, hn], hvilOf_settle_samples n l s⟩

theorem hvilFaultClear_assesses {n : Nat} (l : List Nat) {s : State} (hn : n < 2) :
    completes (.hvilFaultClear n l) s fun t => hvilOf t n = hvilRun l (hvilOf s n) :=
  ⟨settle (l.foldl (hvilSample n) s), by simp [exec, execHvilFaultClear, hn], hvilOf_settle_samples n l s⟩

/-- A sample decides the fault by the runs that it leaves (R240). -/
theorem hvilNext_fault (v : Nat) (x : Hvil) :
    (hvilNext v x).fault =
      ((x.fault || decide ((hvilNext v x).openRun ≥ 11)) && decide ((hvilNext v x).goodRun < 100)) := rfl

theorem hvilNext_bad {v : Nat} (x : Hvil) (hv : v < 700 ∨ v > 1300) :
    (hvilNext v x).openRun = x.openRun + 1 ∧ (hvilNext v x).goodRun = 0 := by
  have hbad : decide (700 ≤ v ∧ v ≤ 1300) = false := decide_eq_false (by omega)
  simp [hvilNext, hbad]

theorem hvilRun_bad (l : List Nat) (x : Hvil) (hl : ∀ v ∈ l, v < 700 ∨ v > 1300) :
    (hvilRun l x).openRun = x.openRun + l.length := by
  induction l generalizing x with
  | nil => rfl
  | cons v l ih =>
    obtain ⟨hv, hl⟩ := List.forall_mem_cons.mp hl
    rw [hvilRun, List.foldl_cons, ih _ hl, (hvilNext_bad x hv).1, List.length_cons]
    omega

/-- Of a run of samples the last acts on what those before it made of the loop. -/
theorem exists_last_hvilNext {l : List Nat} {k : Nat} (x : Hvil) (hk : l.length = k + 1) :
    ∃ m v, l = m ++ [v] ∧ m.length = k ∧ hvilRun l x = hvilNext v (hvilRun m x) := by
  have hne : l ≠ [] := List.ne_nil_of_length_eq_add_one hk
  have hsplit : l.dropLast ++ [l.getLast hne] = l := List.dropLast_concat_getLast hne
  refine ⟨l.dropLast, l.getLast hne, hsplit.symm, by rw [List.length_dropLast, hk, Nat.add_sub_cancel], ?_⟩
  calc hvilRun l x = hvilRun (l.dropLast ++ [l.getLast hne]) x := by rw [hsplit]
    _ = hvilNext (l.getLast hne) (hvilRun l.dropLast x) := by
      rw [hvilRun, List.foldl_append, List.foldl_cons, List.foldl_nil]

theorem hvilRun_faults {l : List Nat} (x : Hvil) (hlen : l.length = 11) (hl : ∀ v ∈ l, v < 700 ∨ v > 1300) :
    (hvilRun l x).fault = true := by
  obtain ⟨m, v, rfl, hm, hrun⟩ := exists_last_hvilNext x hlen
  obtain ⟨hopen, hgood⟩ := hvilNext_bad (hvilRun m x) (hl v (by simp))
  rw [hrun, hvilNext_fault, hopen, hgood, hvilRun_bad m x fun w hw => hl w (by simp [hw]), hm]
  simp

theorem hvilNext_good_win {v : Nat} (x : Hvil) (hv : 700 ≤ v ∧ v ≤ 1300) :
    (hvilNext v x).win = (true :: x.win).take 20 := by
  simp [hvilNext, hv]

/-- Good samples push what the window held before them out of it. -/
theorem hvilRun_good_win (l : List Nat) (x : Hvil) (hl : ∀ v ∈ l, 700 ≤ v ∧ v ≤ 1300) :
    (hvilRun l x).win.take 20 = (List.replicate l.length true ++ x.win).take 20 := by
  induction l generalizing x with
  | nil => rfl
  | cons v l ih =>
    obtain ⟨hv, hl⟩ := List.forall_mem_cons.mp hl
    rw [hvilRun, List.foldl_cons, ih _ hl, hvilNext_good_win x hv, List.length_cons, List.replicate_succ',
      List.append_assoc, List.singleton_append]
    rw [List.take_append, List.take_append, List.take_take, Nat.min_eq_left (Nat.sub_le ..)]

/-- The last 20 samples of a loop were good: the next good one ends a good run of one more (R240). -/
def Hvil.steady (x : Hvil) : Prop := x.win.take 20 = List.replicate 20 true

theorem hvilRun_steady {l : List Nat} (x : Hvil) (hlen : l.length = 20) (hl : ∀ v ∈ l, 700 ≤ v ∧ v ≤ 1300) :
    (hvilRun l x).steady := by
  rw [Hvil.steady, hvilRun_good_win l x hl, hlen, List.take_left' List.length_replicate]

theorem hvilNext_of_steady {v : Nat} {x : Hvil} (hx : x.steady) (hv : 700 ≤ v ∧ v ≤ 1300) :
    (hvilNext v x).steady ∧ (hvilNext v x).goodRun = x.goodRun + 1 := by
  have hwin : (true :: x.win).take 20 = List.replicate 20 true := by
    have hless : x.win.take 19 = List.replicate 19 true := by simpa [List.take_take] using congrArg (List.take 19) hx
    rw [List.take_succ_cons, hless, ← List.replicate_succ]
  have hcalm : changes (List.replicate 20 true) = 0 := by decide
  refine ⟨?_, ?_⟩
  · rw [Hvil.steady, hvilNext_good_win x hv, hwin, List.take_replicate]
    rfl
  · simp only [hvilNext, hv, and_self, decide_true, hwin, hcalm]
    rfl

theorem hvilRun_of_steady (l : List Nat) {x : Hvil} (hx : x.steady) (hl : ∀ v ∈ l, 700 ≤ v ∧ v ≤ 1300) :
    (hvilRun l x).goodRun = x.goodRun + l.length := by
  induction l generalizing x with
  | nil => rfl
  | cons v l ih =>
    obtain ⟨hv, hl⟩ := List.forall_mem_cons.mp hl
    obtain ⟨hsteady, hgood⟩ := hvilNext_of_steady hx hv
    rw [hvilRun, List.foldl_cons, ih hsteady hl, hgood, List.length_cons]
    omega

/-- 20 good samples fill the window, and 100 more are a good run of 100 (R240). -/
theorem hvilRun_clears {l : List Nat} (x : Hvil) (hlen : l.length = 120) (hl : ∀ v ∈ l, 700 ≤ v ∧ v ≤ 1300) :
    (hvilRun l x).fault = false := by
  have hsteady : (hvilRun (l.take 20) x).steady :=
    hvilRun_steady x (by simp [hlen]) fun v hv => hl v (List.mem_of_mem_take hv)
  have hgood : (hvilRun l x).goodRun ≥ 100 := by
    rw [← List.take_append_drop 20 l, hvilRun, List.foldl_append,
      hvilRun_of_steady _ hsteady fun v hv => hl v (List.mem_of_mem_drop hv), List.length_drop, hlen]
    omega
  obtain ⟨m, v, -, -, hrun⟩ := exists_last_hvilNext x hlen
  rw [hrun] at hgood ⊢
  rw [hvilNext_fault, decide_eq_false (Nat.not_lt.mpr hgood), Bool.and_false]

/-! ## KEY -/

theorem keyTake_drv (v : Bool) (t : Nat) (s : State) :
    (keyTake v t s).drv.key = v ∧ (keyTake v t s).drv.keyWin = s.drv.keyWin ∧
    (keyTake v t s).drv.chatter = s.drv.chatter ∧ (keyTake v t s).drv.chatTime = s.drv.chatTime := by
  cases v <;> simp [keyTake, id @reserveRestore_keep]

/-- A sample leaves KEY's window and chatter as noted, and its level as qualified (R241). -/
theorem keySample_drv (v : Bool) (t : Nat) (s : State) :
    (keySample v t s).drv.keyWin = (v :: s.drv.keyWin).take 20 ∧
    (keySample v t s).drv.chatter = decide (changes ((v :: s.drv.keyWin).take 20) > 2) ∧
    (keySample v t s).drv.chatTime =
      (if changes ((v :: s.drv.keyWin).take 20) > 2 then s.drv.chatTime + 1 else 0) ∧
    (keySample v t s).drv.key = if keyQualifies v (keyNote v s) then v else s.drv.key := by
  have hnote : (keyNote v s).drv.key = s.drv.key ∧ (keyNote v s).drv.keyWin = (v :: s.drv.keyWin).take 20 ∧
      (keyNote v s).drv.chatter = decide (changes ((v :: s.drv.keyWin).take 20) > 2) ∧
      (keyNote v s).drv.chatTime = if changes ((v :: s.drv.keyWin).take 20) > 2 then s.drv.chatTime + 1 else 0 := by
    simp [keyNote]
  by_cases hq : keyQualifies v (keyNote v s) = true
  · cases v <;> simp [keySample, hq, hnote, id @keyTake_drv, id @leaveStandby_keep, id @emitIf_keep]
  · simp [keySample, hq, hnote, id @emitIf_keep]

/-- The third sample in a row of a level that does not chatter leaves KEY at that level (R241). -/
theorem keySample_key {v : Bool} {s : State} {w : List Bool} (t : Nat)
    (hwin : (v :: s.drv.keyWin).take 20 = v :: v :: v :: w) (hcalm : changes (v :: v :: v :: w) ≤ 2) :
    (keySample v t s).drv.key = v := by
  rw [(keySample_drv v t s).2.2.2]
  by_cases hsame : v = s.drv.key
  · rw [← hsame, ite_self]
  · have hq : keyQualifies v (keyNote v s) = true := by
      simp [keyQualifies, keyNote, hwin, Nat.not_lt.mpr hcalm, hsame]
    rw [if_pos hq]

theorem keyQualify_qualifies {v : Bool} {s : State} (hrun : s.sys.run.buck = true)
    (hcalm : changes ((v :: v :: v :: s.drv.keyWin).take 20) ≤ 2) :
    completes (.keyQualify [v, v, v]) s fun t => t.drv.key = v ∧ t.drv.chatter = false := by
  obtain ⟨a, b, c, hthree⟩ :
      ∃ a b c, keySamples [v, v, v] s = keySample v c (keySample v b (keySample v a s)) := by
    simp only [keySamples]
    exact ⟨_, _, _, rfl⟩
  have hwin : (v :: (keySample v b (keySample v a s)).drv.keyWin).take 20 = v :: v :: v :: s.drv.keyWin.take 17 := by
    simp [id @keySample_drv, List.take_take]
  have hcalm' : changes (v :: v :: v :: s.drv.keyWin.take 17) ≤ 2 := by simpa using hcalm
  refine ⟨settle (keySamples [v, v, v] s), by simp [exec, execKeyQualify, hrun], ?_⟩
  simp only [id @settle_drv, hthree]
  refine ⟨keySample_key c hwin hcalm', ?_⟩
  rw [(keySample_drv ..).2.1, hwin, decide_eq_false (Nat.not_lt.mpr hcalm')]

theorem inputChatter_notes {v : Bool} {s : State} (hrun : s.sys.run.buck = true) :
    completes (.inputChatter [v]) s fun t =>
      t.drv.keyWin = (v :: s.drv.keyWin).take 20 ∧ t.drv.chatter = decide (changes t.drv.keyWin > 2) ∧
      t.drv.chatTime = if changes t.drv.keyWin > 2 then s.drv.chatTime + 1 else 0 := by
  refine ⟨settle (keySamples [v] s), by simp [exec, execInputChatter, hrun], ?_⟩
  obtain ⟨hwin, hchatter, htime, -⟩ := keySample_drv v (s.time.tns - 0 * 1000000) s
  simp only [id @settle_drv, keySamples, List.length_nil, hwin, hchatter, htime, and_self]

/-- KEY_QUALIFY and INPUT_CHATTER assess their samples alike (R241). -/
theorem exec_inputChatter (l : List Bool) (s : State) : exec (.inputChatter l) s = exec (.keyQualify l) s := rfl

/-- Settles O15: a channel's faults stand with its gates off when all has settled, and each sample of a loop and of KEY is
assessed in the window and the runs that those before it left. -/
theorem driverInputs : Obligations.DriverInputs :=
  ⟨fun _ _ _ => economyEntry_enters, fun _ _ _ _ => driveFault_latches, fun _ _ _ _ _ _ => openCoilFault_latches,
    fun _ l _ => hvilFault_assesses l, fun _ l _ => hvilFaultClear_assesses l, fun _ x => hvilRun_faults x,
    fun _ x => hvilRun_clears x, fun _ _ => keyQualify_qualifies, fun _ _ => inputChatter_notes, exec_inputChatter⟩

end Sys2Proof.Machine
end

section
/-! PROOFS. The words of the lanes' instructions (R257, R258): what each field of a word reads, and the statement that a
word spells its instruction. -/

namespace Sys2Proof.Machine

/-! ## The fields of a word -/

section
variable {op d a b c e : Nat} (hop : op < 64) (hd : d < 32) (ha : a < 32)

section
variable (hlow : b * 2048 + c * 64 + e < 65536)
include hop hd ha hlow

/-- Fields that keep to their bits do not overlap. -/
theorem encWord_toNat :
    (encWord op d a b c e).toNat = op * 67108864 + d * 2097152 + a * 65536 + (b * 2048 + c * 64 + e) := by
  simp only [encWord, at', BitVec.toNat_ofNat]
  omega

@[simp] theorem bits_encWord_op : bits (encWord op d a b c e) 31 26 = op := by
  simp only [bits, encWord_toNat hop hd ha hlow]
  omega

@[simp] theorem bits_encWord_d : bits (encWord op d a b c e) 25 21 = d := by
  simp only [bits, encWord_toNat hop hd ha hlow]
  omega

@[simp] theorem bits_encWord_pd : bits (encWord op d a b c e) 23 21 = d % 8 := by
  simp only [bits, encWord_toNat hop hd ha hlow]
  omega

/-- The bit of ALWAYS in SKIP. -/
theorem getLsbD_encWord_25 : (encWord op d a b c e).getLsbD 25 = decide (d / 16 = 1) := by
  rw [BitVec.getLsbD, Nat.testBit_eq_decide_div_mod_eq, encWord_toNat hop hd ha hlow]
  exact decide_eq_decide.mpr (by omega)

/-- The bit of SENSE in SKIP. -/
theorem getLsbD_encWord_24 : (encWord op d a b c e).getLsbD 24 = decide (d / 8 % 2 = 1) := by
  rw [BitVec.getLsbD, Nat.testBit_eq_decide_div_mod_eq, encWord_toNat hop hd ha hlow]
  exact decide_eq_decide.mpr (by omega)

@[simp] theorem bits_encWord_a : bits (encWord op d a b c e) 20 16 = a := by
  simp only [bits, encWord_toNat hop hd ha hlow]
  omega

@[simp] theorem bits_encWord_kind : bits (encWord op d a b c e) 17 16 = a % 4 := by
  simp only [bits, encWord_toNat hop hd ha hlow]
  omega

end

section
variable (hb : b < 32) (hc : c < 32)
include hop hd ha hb hc

@[simp] theorem bits_encWord_b : bits (encWord op d a b c 0) 15 11 = b := by
  simp only [bits, encWord_toNat hop hd ha (show b * 2048 + c * 64 + 0 < 65536 by omega)]
  omega

@[simp] theorem bits_encWord_c : bits (encWord op d a b c 0) 10 6 = c := by
  simp only [bits, encWord_toNat hop hd ha (show b * 2048 + c * 64 + 0 < 65536 by omega)]
  omega

/-- The condition of CMP and the mode of CVT. -/
@[simp] theorem bits_encWord_cond : bits (encWord op d a b c 0) 10 8 = c / 4 := by
  simp only [bits, encWord_toNat hop hd ha (show b * 2048 + c * 64 + 0 < 65536 by omega)]
  omega

/-- The predicate of SEL. -/
@[simp] theorem bits_encWord_pn : bits (encWord op d a b c 0) 8 6 = c % 8 := by
  simp only [bits, encWord_toNat hop hd ha (show b * 2048 + c * 64 + 0 < 65536 by omega)]
  omega

/-- The table of TBL2. -/
@[simp] theorem bits_encWord_table : bits (encWord op d a b c 0) 9 6 = c % 16 := by
  simp only [bits, encWord_toNat hop hd ha (show b * 2048 + c * 64 + 0 < 65536 by omega)]
  omega

end

include hop hd ha in
/-- The immediate and the parts of it that hold an index or a count. -/
@[simp] theorem bits_encWord_e (he : e < 65536) {hi : Nat} (h : hi ≤ 15) :
    bits (encWord op d a 0 0 e) hi 0 = e % 2 ^ (hi + 1) := by
  have hmod : (encWord op d a 0 0 e).toNat % 2 ^ 16 = e := by
    rw [encWord_toNat hop hd ha (show 0 * 2048 + 0 * 64 + e < 65536 by omega)]
    omega
  have hdvd : 2 ^ (hi + 1) ∣ 2 ^ 16 := Nat.pow_dvd_pow 2 (by omega)
  rw [bits, Nat.pow_zero, Nat.div_one, Nat.sub_zero, ← Nat.mod_mod_of_dvd _ hdvd, hmod]

end

/-! ## What each word spells -/

/-- The first field of SKIP holds ALWAYS, SENSE and the predicate. -/
theorem skip_fields {al se : Bool} {pn : BitVec 3} {x : Nat} (hx : x = at' 4 (b2n al) + at' 3 (b2n se) + pn.toNat) :
    x < 32 ∧ decide (x / 16 = 1) = al ∧ decide (x / 8 % 2 = 1) = se ∧ x % 8 = pn.toNat := by
  cases al <;> cases se <;> simp [at', b2n] at hx ⊢ <;> omega

theorem runWord_skip (l : Nat) (al se : Bool) (pn : BitVec 3) (n : BitVec 10) (s : State) :
    runWord l (encWord 21 (at' 4 (b2n al) + at' 3 (b2n se) + pn.toNat) 0 0 0 n.toNat) s =
      exec (.skip l al se pn n) s := by
  generalize hx : at' 4 (b2n al) + at' 3 (b2n se) + pn.toNat = x
  obtain ⟨hx32, hal, hse, hpn⟩ := skip_fields hx.symm
  have hlow : 0 * 2048 + 0 * 64 + n.toNat < 65536 := by omega
  rw [runWord, getLsbD_encWord_25 (by omega) hx32 (by omega) hlow, hal,
    getLsbD_encWord_24 (by omega) hx32 (by omega) hlow, hse]
  simp (disch := omega) [exec, hpn, Nat.mod_eq_of_lt]

/-- Settles O25: each operand is what the bits of its field read. -/
theorem laneEncoding : Obligations.LaneEncoding := by
  refine fun l s => ⟨?_, ?_, ?_, ?_, ?_, ?_, ?_, ?_, ?_, ?_, ?_, ?_, ?_, ?_, ?_, ?_, ?_, ?_, ?_, ?_,
    fun al se pn n => runWord_skip l al se pn n s⟩
  -- the operands of every other word are whole fields, or the parts of one that its format names
  all_goals
    intros
    simp (disch := omega) [runWord, encR3, exec, at', Nat.mod_eq_of_lt]

end Sys2Proof.Machine
end

section
/-! PROOFS. The lanes' instructions (R247, R259 to R261, R350): an instruction that a lane runs next, what its registers
and predicates hold, its committed writes, and the statements of them. -/

namespace Sys2Proof.Machine

/-! ## An instruction that runs -/

theorem dbgFollow_of_not_halted {s : State} (h : s.pairs.dbg.state ≠ .halted) : dbgFollow s = s := by
  simp [dbgFollow, h]

/-- Lane `l` past its instruction. -/
def lanePast (s : State) (l : Nat) : Lane := { laneOf s l with pc := (laneOf s l).pc + 1 }

@[simp] theorem lanePast_writes (s : State) (l : Nat) : (lanePast s l).writes = (laneOf s l).writes := rfl

@[simp] theorem lanePast_pc (s : State) (l : Nat) : (lanePast s l).pc = (laneOf s l).pc + 1 := rfl

@[simp] theorem freg_lanePast (s : State) (l : Nat) (i : BitVec 5) : freg (lanePast s l) i = freg (laneOf s l) i := rfl

section
variable {l c : Nat} {w : Word} {s : State}

/-- Without a replay entry before it, an instruction acts in the state as it is, or is skipped. -/
theorem withInstr_of_cell {f : Nat → Lane → State → State} (hc : laneCell s l w = some c)
    (hreplay : l % 2 = 1 → shadowPair s (l / 2) = false) :
    withInstr l w f s = dbgFollow (
      if (laneOf s l).skip > 0 then setLane l { lanePast s l with skip := (laneOf s l).skip - 1 } s
      else f c (lanePast s l) s) := by
  have hs : ¬ (l % 2 = 1 && shadowPair s (l / 2) && (laneOf s l).cell.isSome) = true := by
    by_cases h : l % 2 = 1 <;> simp [h, hreplay]
  simp only [withInstr, if_neg hs, hc, lanePast]

/-- While a count of skipped instructions is left, an instruction takes one from it alone (R259). -/
theorem laneInstr_skips (f : Lane → Lane) (hc : laneCell s l w = some c) (hskip : (laneOf s l).skip > 0)
    (hreplay : l % 2 = 1 → shadowPair s (l / 2) = false) (hdbg : s.pairs.dbg.state ≠ .halted) :
    laneInstr l w f s = .next (laneTakes s l fun x => { x with skip := x.skip - 1 }) := by
  simp only [laneInstr, withInstr_of_cell hc hreplay, if_pos hskip]
  exact congrArg _ (dbgFollow_of_not_halted hdbg)

/-- An instruction that leaves the debugger alone does what it says. -/
theorem withInstr_of_runs {f : Nat → Lane → State → State} (h : laneRuns s l w) (hc : laneCell s l w = some c)
    (hf : (f c (lanePast s l) s).pairs.dbg = s.pairs.dbg) : withInstr l w f s = f c (lanePast s l) s := by
  obtain ⟨-, hskip, hreplay, hdbg⟩ := h
  rw [withInstr_of_cell hc hreplay, if_neg (by simp [hskip]), dbgFollow_of_not_halted (hf ▸ hdbg)]

theorem withInstr_setLane (f : Nat → Lane → State → Lane) (h : laneRuns s l w) (hc : laneCell s l w = some c) :
    withInstr l w (fun c x s => setLane l (f c x s) s) s = laneTakes s l fun x => f c x s :=
  withInstr_of_runs h hc rfl

theorem laneInstr_runs (f : Lane → Lane) (h : laneRuns s l w) : laneInstr l w f s = .next (laneTakes s l f) := by
  obtain ⟨c, hc⟩ := Option.isSome_iff_exists.mp h.1
  rw [laneInstr, withInstr_setLane (fun _ x _ => f x) h hc]

end

/-- Settles O22: each writes its result to the lane that runs it, and that lane alone. -/
theorem laneArithmetic : Obligations.LaneArithmetic :=
  ⟨fun _ _ _ _ _ => laneInstr_runs _, fun _ _ _ _ _ => laneInstr_runs _, fun _ _ _ _ _ => laneInstr_runs _,
    fun _ _ _ _ _ _ => laneInstr_runs _, fun _ _ _ _ _ => laneInstr_runs _, fun _ _ _ _ => laneInstr_runs _,
    fun _ _ _ _ => laneInstr_runs _, fun _ _ _ _ _ => laneInstr_runs _, fun _ _ _ _ _ => laneInstr_runs _,
    fun _ _ _ _ => laneInstr_runs _, fun _ _ _ _ _ _ => laneInstr_runs _⟩

/-! ## Registers and predicates -/

@[simp] theorem freg_setFreg_zero (x : Lane) (i : BitVec 5) (v : Word) : freg (setFreg 0 v x) i = freg x i := rfl

@[simp] theorem freg_zero (x : Lane) : freg x 0 = 0 := rfl

theorem freg_setFreg {i : BitVec 5} (hi : i ≠ 0) (x : Lane) (j : BitVec 5) (v : Word) :
    freg (setFreg i v x) j = if j = i then v else freg x j := by
  simp only [setFreg, freg, if_neg hi, Tab.get_set, BitVec.toNat_inj]
  by_cases hj : j = i
  · rw [if_pos hj, if_pos hj, if_neg (hj ▸ hi)]
  · rw [if_neg hj, if_neg hj]

theorem pred_setPred (x : Lane) (i j : BitVec 3) (v : Bool) :
    pred (setPred i v x) j = if j = i then v else pred x j := by
  have hj : j.toNat < 8 := j.isLt
  have hbit : (BitVec.ofNat 8 (2 ^ i.toNat)).getLsbD j.toNat = decide (j = i) := by
    simp only [BitVec.getLsbD_ofNat, Nat.testBit_two_pow, hj, decide_true, Bool.true_and, BitVec.toNat_inj, eq_comm]
  cases v with
  | false =>
    simp only [setPred, pred, Bool.false_eq_true, if_false, BitVec.getLsbD_and, BitVec.getLsbD_not, hbit, hj]
    by_cases hji : j = i <;> simp [hji]
  | true =>
    simp only [setPred, pred, if_true, BitVec.getLsbD_or, hbit]
    by_cases hji : j = i <;> simp [hji]

/-! ## The immediate -/

theorem moviVal_one (imm : BitVec 16) (old : Word) : moviVal 1 imm.toNat old = imm ++ (0 : BitVec 16) := by
  have hlt : imm.toNat * 65536 < 4294967296 := by omega
  apply BitVec.eq_of_toNat_eq
  rw [BitVec.toNat_append, Nat.shiftLeft_eq]
  simp [moviVal, at', Nat.mod_eq_of_lt hlt]

theorem moviVal_two (imm : BitVec 16) (old : Word) :
    moviVal 2 imm.toNat old = old.extractLsb 31 16 ++ imm := by
  have himm : imm.toNat < 2 ^ 16 := imm.isLt
  apply BitVec.eq_of_toNat_eq
  rw [BitVec.toNat_append, BitVec.extractLsb_toNat, Nat.shiftLeft_eq, Nat.shiftRight_eq_div_pow, Nat.mul_comm,
    ← Nat.two_pow_add_eq_or_of_lt himm]
  simp [moviVal, at', bits]
  omega

theorem exec_movi_of_runs {l : Nat} {d : BitVec 5} {kind : BitVec 2} {imm : BitVec 16} {s : State} {f : Word → Word}
    (hf : ∀ old, moviVal kind.toNat imm.toNat old = f old)
    (h : laneRuns s l (encWord 14 d.toNat kind.toNat 0 0 imm.toNat)) :
    exec (.movi l d kind imm) s = .next (laneTakes s l fun x => setFreg d (f (freg x d)) x) := by
  simp only [← hf]
  exact laneInstr_runs _ h

/-- Settles O23: each writes its result to the lane that runs it, and that lane alone; a register and a predicate read
what they last were made to hold. -/
theorem lanePredicates : Obligations.LanePredicates :=
  ⟨fun _ _ _ _ _ _ => laneInstr_runs _, fun _ _ _ _ _ _ => laneInstr_runs _, fun _ _ _ _ => laneInstr_runs _,
    fun _ _ imm _ => exec_movi_of_runs (kind := 1) (moviVal_one imm),
    fun _ _ imm _ => exec_movi_of_runs (kind := 2) (moviVal_two imm),
    fun _ _ _ _ _ => laneInstr_runs _,
    fun _ d ix _ _ h hc => congrArg _ (withInstr_setLane (fun c x s => setFreg d (frameInput s c ix.toNat) x) h hc),
    fun _ _ _ => ⟨freg_setFreg_zero .., freg_zero _⟩, fun x _ j v hi => freg_setFreg hi x j v, pred_setPred⟩

end Sys2Proof.Machine
end

section
/-! PROOFS. State words, committed writes, tables, END and SKIP (R259 to R261, R350): what each instruction leaves when a
lane runs it next, and the statement of them. -/

namespace Sys2Proof.Machine

/-! ## Lanes and pairs of other parts' operations -/

@[simp] theorem laneOf_modPair (q : Nat) (f : PairSt → PairSt) (s : State) (l : Nat) :
    laneOf (modPair q f s) l = laneOf s l := rfl

@[simp] theorem pairOf_setLane (l : Nat) (x : Lane) (s : State) (q : Nat) : pairOf (setLane l x s) q = pairOf s q := rfl

@[simp] theorem laneOf_settleLevel (s : State) (l : Nat) : laneOf (settleLevel s) l = laneOf s l := by
  simp [laneOf, id @settleLevel_keep]

@[simp] theorem pairOf_settleLevel (s : State) (q : Nat) : pairOf (settleLevel s) q = pairOf s q := by
  simp [pairOf, id @settleLevel_keep]

/-! ## The words of the state block -/

/-- Without a write of the word in this step, a lane reads the committed value. -/
theorem stateWord_committed {l : Nat} (c : Nat) {w : Nat} {x : Lane} {s : State} (hq : shadowPair s (l / 2) = false)
    (hw : ∀ k ∈ x.writes, k.out = true ∨ k.idx ≠ w) : stateWord s l c w x = Tab.get 0 (kCell s c).w w := by
  have hnone : x.writes.filter (fun k => !k.out && k.idx == w) = [] := by
    refine List.filter_eq_nil_iff.mpr fun k hk => ?_
    obtain hout | hidx := hw k hk
    · simp only [hout, Bool.not_true, Bool.false_and, Bool.false_eq_true, not_false_eq_true]
    · simp only [beq_eq_false_iff_ne.mpr hidx, Bool.and_false, Bool.false_eq_true, not_false_eq_true]
  simp [stateWord, hnone, hq]

/-- A lane reads its own last write of the word. -/
theorem stateWord_written (l c : Nat) {w : Nat} {k : KWrite} {ws : List KWrite} {x : Lane} (s : State)
    (hws : x.writes = ws ++ [k]) (hout : k.out = false) (hw : k.idx = w) : stateWord s l c w x = k.val := by
  simp [stateWord, hws, hout, hw]

theorem lds_runs {l c : Nat} {d : BitVec 5} {w : BitVec 6} {s : State}
    (h : laneRuns s l (encWord 17 d.toNat 0 0 0 w.toNat)) (hc : laneCell s l (encWord 17 d.toNat 0 0 0 w.toNat) = some c) :
    settlesTo (.lds l d w false) s (laneTakes s l fun x => setFreg d (stateWord s l c w.toNat x) x) :=
  congrArg (fun u => Host.Outcome.next (settle u))
    (withInstr_setLane (fun c x s => setFreg d (stateWord s l c w.toNat x) x) h hc)

/-! ## Tables -/

theorem tbl2_interpolates {l c : Nat} {d a b : BitVec 5} {k : BitVec 4} {tb : KTable} {s : State}
    (h : laneRuns s l (encWord 19 d.toNat a.toNat b.toNat k.toNat 0))
    (hc : laneCell s l (encWord 19 d.toNat a.toNat b.toNat k.toNat 0) = some c) (htb : localTable s c k.toNat = some tb) :
    completes (.tbl2 l d a b k false) s fun t =>
      laneOf t l = setFreg d (interp tb (freg (laneOf s l) a) (freg (laneOf s l) b)) (lanePast s l) := by
  refine ⟨_, rfl, ?_⟩
  rw [withInstr_of_runs h hc rfl]
  simp [id @settle_entries, htb]

/-! ## Committed writes -/

/-- A main lane queues its committed write with the step that it runs (R350). -/
theorem commitWrite_main {l : Nat} {st : PStep} {s : State} (w : KWrite) (cmp : Cmp) (c : Nat) (x : Lane)
    (heven : l % 2 = 0) (hsplit : (pairOf s (l / 2)).split = false)
    (hst : (pairOf s (l / 2)).steps.getLast? = some st) :
    commitWrite l w cmp c x s = modPair (l / 2) (fun p => { p with queue := p.queue ++ [{ step := st.ord, w := w }] })
      (setLane l { x with writes := x.writes ++ [w], done := x.done + 1 } s) := by
  simp [commitWrite, hsplit, heven, hst]

/-- STS and OUT of a main lane put their write in the lane's set and in the queue of its pair. -/
theorem commit_queues {l : Nat} {word : Word} {st : PStep} {s : State} (out : Bool) (idx : Nat) (a : BitVec 5) (cmp : Cmp)
    (h : laneRuns s l word) (heven : l % 2 = 0) (hsplit : (pairOf s (l / 2)).split = false)
    (hst : (pairOf s (l / 2)).steps.getLast? = some st) :
    let w : KWrite := { out := out, idx := idx, val := freg (laneOf s l) a }
    let t := settle (settleLevel (withInstr l word (fun c x s =>
      commitWrite l { out := out, idx := idx, val := freg x a } cmp c x s) s))
    (laneOf t l).writes = (laneOf s l).writes ++ [w] ∧ (laneOf t l).pc = (laneOf s l).pc + 1 ∧
      (pairOf t (l / 2)).queue = (pairOf s (l / 2)).queue ++ [{ step := st.ord, w := w }] := by
  obtain ⟨c, hc⟩ := Option.isSome_iff_exists.mp h.1
  have hw := commitWrite_main { out := out, idx := idx, val := freg (laneOf s l) a } cmp c (lanePast s l) heven hsplit hst
  have hrun := withInstr_of_runs (f := fun c x s => commitWrite l { out := out, idx := idx, val := freg x a } cmp c x s)
    h hc (congrArg (·.pairs.dbg) hw)
  simp [hrun, hw, id @settle_entries]

/-! ## The end of a step -/

theorem endMain_ends (q : Nat) (x : Lane) (s : State) :
    laneOf (endMain q x s) (2 * q) = { x with cell := none, rejected := setBad x.writes } ∧
      (endMain q x s).pairs.dbg = s.pairs.dbg := by
  unfold endMain
  dsimp only
  split <;> exact ⟨by simp, rfl⟩

theorem endStep_ends {l : Nat} {s : State} (ns : Nat) (cmp : Cmp) (h : laneRuns s l 0) (heven : l % 2 = 0)
    (hsplit : (pairOf s (l / 2)).split = false) :
    completes (.endStep l ns cmp) s fun t =>
      (laneOf t l).cell = none ∧ (laneOf t l).rejected = setBad (laneOf s l).writes := by
  obtain ⟨c, hc⟩ := Option.isSome_iff_exists.mp h.1
  obtain ⟨hlane, hdbg⟩ := endMain_ends (l / 2) (lanePast s l) (stepTime l ns s)
  rw [show 2 * (l / 2) = l by omega] at hlane
  refine ⟨_, rfl, ?_⟩
  rw [withInstr_of_runs h hc (by simp [hsplit, heven, hdbg, id @stepTime_keep])]
  simp [id @settle_entries, hsplit, heven, hlane]

/-! ## SKIP -/

theorem skip_runs {l : Nat} {al sense : Bool} {pn : BitVec 3} {n : BitVec 10} {s : State} {f : Lane → Lane}
    (hf : ∀ x, (if al || pred x pn == sense then { x with skip := n.toNat } else x) = f x)
    (h : laneRuns s l (encWord 21 (at' 4 (b2n al) + at' 3 (b2n sense) + pn.toNat) 0 0 0 n.toNat)) :
    exec (.skip l al sense pn n) s = .next (laneTakes s l f) := by
  rw [← funext hf]
  exact laneInstr_runs _ h

/-- Settles O24: each acts on its lane past the instruction, a main lane's writes reach the queue of its pair, and what
settles after it leaves the lanes and the pairs. -/
theorem laneState : Obligations.LaneState := by
  refine ⟨fun _ _ _ _ _ => lds_runs, fun _ c _ _ _ => stateWord_committed c,
    fun l c _ _ _ _ s => stateWord_written l c s,
    fun _ a w cmp _ _ h he hs hst => ⟨_, rfl, commit_queues false w.toNat a cmp h he hs hst⟩,
    fun _ a j cmp _ _ h he hs hst => ⟨_, rfl, commit_queues true j.toNat a cmp h he hs hst⟩,
    fun _ _ _ _ _ _ _ _ => tbl2_interpolates, fun _ ns cmp _ => endStep_ends ns cmp,
    fun _ _ _ _ _ => skip_runs (al := true) fun _ => by simp, ?_, fun _ _ _ _ _ _ => laneInstr_skips _⟩
  · exact fun _ _ _ _ _ h => skip_runs (al := false) (fun _ => by simp) (by simpa [at', b2n] using h)

end Sys2Proof.Machine
end

section
/-! PROOFS. The pairs (R252, R253, R362, R366): the start of a main lane's step, a hand-over, a release, and the statement
of them. -/

namespace Sys2Proof.Machine

/-! ## The start of a step -/

@[simp] theorem laneOf_modKCell (c : Nat) (f : KCell → KCell) (s : State) (l : Nat) :
    laneOf (modKCell s c f) l = laneOf s l := rfl

@[simp] theorem pairOf_modKCell (c : Nat) (f : KCell → KCell) (s : State) (q : Nat) :
    pairOf (modKCell s c f) q = pairOf s q := rfl

@[simp] theorem pairOf_modLane (l : Nat) (f : Lane → Lane) (s : State) (q : Nat) :
    pairOf (modLane l f s) q = pairOf s q := rfl

@[simp] theorem kCell_settleLevel (s : State) (c : Nat) : kCell (settleLevel s) c = kCell s c := by
  simp [kCell, id @settleLevel_keep]

theorem startMain_starts {q : Nat} (c : Nat) {s : State} (hq : shadowPair s q = false) :
    (laneOf (startMain q c s) (2 * q)).cell = some c ∧ (laneOf (startMain q c s) (2 * q)).pc = 0 ∧
      (laneOf (startMain q c s) (2 * q)).skip = 0 ∧ (laneOf (startMain q c s) (2 * q)).writes = [] ∧
      (kCell (startMain q c s) c).started = true ∧
      (pairOf (startMain q c s) q).steps.length = (pairOf s q).steps.length + 1 := by
  simp [startMain, hq, beginStep]

section
variable {l c : Nat} {s : State} (hl : l < 32) (heven : l % 2 = 0) (hidle : (laneOf s l).cell = none)
  (hrun : (laneOf s l).halted = false) (hquar : (pairOf s (l / 2)).quar = false)
  (hsplit : (pairOf s (l / 2)).split = false) (hshadow : shadowPair s (l / 2) = false) (hopen : stepsOpen s = true)
  (hlen : (pairOf s (l / 2)).steps.length < 3) (hnext : nextCell s l = some c)
include hl heven hidle hrun hquar hsplit hshadow hopen hlen hnext

theorem exec_kernelStepStart_main :
    exec (.kernelStepStart l false) s = .next (settle (settleLevel (startMain (l / 2) c s))) := by
  simp [exec, execKernelStepStart, Nat.not_le.mpr hl, heven, hidle, hrun, hquar, hsplit, hshadow, hopen, hlen, hnext]

theorem kernelStepStart_starts :
    completes (.kernelStepStart l false) s fun t =>
      (laneOf t l).cell = some c ∧ (laneOf t l).pc = 0 ∧ (laneOf t l).skip = 0 ∧ (laneOf t l).writes = [] ∧
      (kCell t c).started = true ∧ (pairOf t (l / 2)).steps.length = (pairOf s (l / 2)).steps.length + 1 := by
  refine ⟨_, exec_kernelStepStart_main hl heven hidle hrun hquar hsplit hshadow hopen hlen hnext, ?_⟩
  have h := startMain_starts c hshadow
  rw [show 2 * (l / 2) = l by omega] at h
  simpa only [id @settle_entries, laneOf_settleLevel, pairOf_settleLevel, kCell_settleLevel] using h

end

/-! ## Hand-overs -/

theorem evenRule_hand (mode : Nat) (s : State) :
    (evenRule mode s).pairs.handDone = s.pairs.handDone ∧ (evenRule mode s).pairs.handAt = s.pairs.handAt := by
  unfold evenRule noSpare
  dsimp only
  split
  · exact ⟨rfl, rfl⟩
  · simp [id @emit_keep]

theorem handOver_done (retest : BitVec 16) {b : Word} {s : State} (hb : handBoundary s = some b)
    (hrun : s.sys.run.kernel = true) :
    completes (.handOver retest) s fun t => t.pairs.handDone = some b ∧ ∀ a ∈ t.pairs.handAt, frmLe a b = false := by
  refine ⟨_, rfl, ?_⟩
  simp only [execHandOver.settle', hb, hrun, Bool.not_true, Bool.false_eq_true, if_false, id @settle_keep,
    id @settleLevel_keep]
  split
  · simp [id @evenRule_hand, id @splitShown_keep]
  · simp [id @evenRule_hand]

/-! ## Releases -/

/-- Pair `q` is released two frames later. -/
def releaseIn2 (s : State) (q : Nat) : State := modPair q (fun p => { p with release := some (s.time.frm + 2) }) s

theorem foldl_releaseIn2 (qs : List Nat) (s : State) (q : Nat) :
    (qs.foldl releaseIn2 s).time = s.time ∧
      (pairOf (qs.foldl releaseIn2 s) q).release =
        if q ∈ qs then some (s.time.frm + 2) else (pairOf s q).release := by
  induction qs generalizing s with
  | nil => simp
  | cons r qs ih =>
    obtain ⟨htime, hrel⟩ := ih (releaseIn2 s r)
    have hkeep : (releaseIn2 s r).time = s.time := by simp [releaseIn2, id @modPair_keep]
    refine ⟨htime.trans hkeep, ?_⟩
    rw [List.foldl_cons, hrel, hkeep]
    by_cases hmem : q ∈ qs <;> by_cases hq : q = r <;> simp [releaseIn2, hmem, hq]

theorem mem_handAt_handIn2 {s t : State} (h : t.time = s.time) : s.time.frm + 2 ∈ (handIn2 t).pairs.handAt := by
  simp [handIn2, h]

theorem pairRelease_schedules {m : BitVec 16} {q : Nat} {s : State} (hq : q < 16) (hm : m.getLsbD q = true)
    (hout : (pairOf s q).quar = true ∨ (pairOf s q).unver = true) :
    (pairOf (pairRelease m s) q).release = some (s.time.frm + 2) ∧ s.time.frm + 2 ∈ (pairRelease m s).pairs.handAt := by
  have hmem : q ∈ (List.range 16).filter fun q => m.getLsbD q && ((pairOf s q).quar || (pairOf s q).unver) := by
    simp only [List.mem_filter, List.mem_range, hm, Bool.true_and, Bool.or_eq_true]
    exact ⟨hq, hout⟩
  obtain ⟨htime, hrel⟩ := foldl_releaseIn2 _ s q
  rw [if_pos hmem] at hrel
  rw [pairRelease, if_neg fun h => List.ne_nil_of_mem hmem (List.isEmpty_iff.mp h)]
  exact ⟨hrel, mem_handAt_handIn2 htime⟩

theorem putReg_pairCtrl (q : Req) (m : BitVec 16) {s : State} (hrun : s.sys.run.kernel = true) :
    putReg q 0xD008 (m.setWidth 32) s = pairRelease m s := by
  simp [putReg, putPair, hrun, bits, Nat.mod_eq_of_lt (show m.toNat < 65536 from m.isLt)]

theorem pairRelease_releases {h : ReqHdr} {p : Bool} {m : BitVec 16} {q : Nat} {s : State} (hf : freshWr h p s)
    (hrun : s.sys.run.kernel = true) (hq : q < 16) (hm : m.getLsbD q = true)
    (hout : (pairOf s q).quar = true ∨ (pairOf s q).unver = true) :
    completes (.pairRelease h p m) s fun t =>
      (pairOf t q).release = some (s.time.frm + 2) ∧ s.time.frm + 2 ∈ t.pairs.handAt := by
  refine completes_write noMeas 0xD008 (fun _ => m.setWidth 32) rfl hf (by decide) rfl (fun _ => rfl) rfl fun r => ?_
  have e := pairRelease_schedules (s := reqStart (wrOp p) h s) hq hm (by simpa [pairOf, id @reqStart_keep] using hout)
  rw [wrWord, putReg_pairCtrl _ m (by simpa [id @reqStart_keep] using hrun)]
  simpa [id @settle_entries, id @answer_entries, id @settle_keep, id @answer_keep, id @reqStart_keep] using e

/-- Settles O26: a step starts with what its lane begins it with, a hand-over leaves only those that are due after its
boundary, and a release reaches every pair it names. -/
theorem pairsStep : Obligations.PairsStep :=
  ⟨fun _ _ _ => kernelStepStart_starts, fun retest _ _ => handOver_done retest,
    fun _ _ _ _ _ => pairRelease_releases⟩

end Sys2Proof.Machine
end

section
/-! PROOFS. A characterisation run (R308, R309, R310): what settling leaves of it, what each step starts, how a run
ends, and the statement of its steps. -/

namespace Sys2Proof.Machine

/-! ## Settling -/

/-- Settling only ends a run: where none is in progress, what the last one left stands (R310). -/
theorem settle_chr_of_idle {s : State} (h : s.est.chr.step = 15) : (settle s).est.chr = s.est.chr := by
  have e : (settleDrv (settleNet (settleOverflow (settleLevel (settleAuth (settleHostOpen s)))))).est = s.est := by
    simp [id @settleDrv_keep, id @settleNet_keep, id @settleOverflow_keep, id @settleLevel_keep, id @settleAuth_keep,
      id @settleHostOpen_keep]
  simp only [settle, id @settlePins_keep, settleChar, e, h, ne_eq, not_true_eq_false, decide_false, Bool.false_and,
    Bool.false_eq_true, if_false]

/-! ## A step that is done -/

/-- Clearing the strings' charge counts leaves the run, the reserve and the time as they were. -/
theorem foldl_modEStr_rest (f : EStr → EStr) (l : List Nat) (s : State) :
    (l.foldl (fun s i => modEStr s i f) s).est.chr = s.est.chr ∧
    (l.foldl (fun s i => modEStr s i f) s).est.released = s.est.released ∧
    (l.foldl (fun s i => modEStr s i f) s).est.status = s.est.status ∧
    (l.foldl (fun s i => modEStr s i f) s).est.mark = s.est.mark ∧
    (l.foldl (fun s i => modEStr s i f) s).time = s.time :=
  ⟨foldl_keep (·.est.chr) _ l s fun _ _ => rfl, foldl_keep (·.est.released) _ l s fun _ _ => rfl,
    foldl_keep (·.est.status) _ l s fun _ _ => rfl, foldl_keep (·.est.mark) _ l s fun _ _ => rfl,
    foldl_keep (·.time) _ l s fun _ _ => rfl⟩

/-- Each of the steps 1 to 6 that is done enters the next one, with the current request of that step (R308). -/
theorem charStepDone_enters {k : Nat} {s : State} (hdone : charDone s = true) (hk : s.est.chr.step = k) (h1 : 1 ≤ k)
    (h6 : k ≤ 6) :
    makes .charStepDone s fun u => u.est.chr.step = k + 1 ∧ u.est.chr.at0 = s.time.tns ∧
      u.est.chr.req = (if k ≤ 2 then -(halfCp s) else if k = 4 then halfCp s else 0) := by
  refine ⟨_, rfl, ?_⟩
  obtain rfl | rfl | rfl | rfl | rfl | rfl : k = 1 ∨ k = 2 ∨ k = 3 ∨ k = 4 ∨ k = 5 ∨ k = 6 := by omega
  all_goals simp [hdone, hk, charEnter, id @foldl_modEStr_rest]

/-! ## The commit of a run -/

theorem jumpMarks_chr (v : Nat) (s : State) : (jumpMarks v s).est.chr = s.est.chr :=
  foldl_keep (·.est.chr) _ _ s fun _ _ => rfl

theorem eraAdvance_era (s : State) : (eraAdvance s).ledg.live.era = 2 := by
  unfold eraAdvance
  split
  · assumption
  · simp [podAsk, checkpoint, id @nvQueue_keep]

/-- A run that commits ends with RESULT 1 and era 2 (R309). -/
theorem charCommit_ends (s : State) :
    (charCommit s).est.chr.step = 15 ∧ (charCommit s).est.chr.result = 1 ∧ (charCommit s).est.chr.req = 0 ∧
    (charCommit s).ledg.live.era = 2 := by
  simp [charCommit, jumpMarks_chr, id @jumpMarks_keep, id @phaseEnd_keep, id @emit_keep, eraAdvance_era]

theorem charStepDone_commits {s : State} (h7 : s.est.chr.step = 7) :
    completes .charStepDone s fun t =>
      t.est.chr.step = 15 ∧ t.est.chr.result = 1 ∧ t.est.chr.req = 0 ∧ t.ledg.live.era = 2 := by
  obtain ⟨hstep, hresult, hreq, hera⟩ := charCommit_ends s
  refine ⟨settle (charCommit s), ?_, ?_⟩
  · simp [exec, execCharStepDone, charDone, h7]
  · simp [settle_chr_of_idle hstep, hstep, hresult, hreq, id @settle_keep, hera]

/-! ## A run that is aborted -/

/-- A run in progress that is aborted ends with the result given, and asks for no current (R310). -/
theorem charStop_chr {s : State} (h : s.est.chr.step ≠ 15) (result : Nat) :
    (charStop result s).est.chr = { s.est.chr with step := 15, result := result, req := 0, outAt := none } := by
  simp [charStop, h, id @phaseEnd_keep, id @emit_keep]

/-- An aborted run stays ended when all has settled. -/
theorem settle_charStop_chr {s : State} (h : s.est.chr.step ≠ 15) (result : Nat) :
    (settle (charStop result s)).est.chr =
      { s.est.chr with step := 15, result := result, req := 0, outAt := none } := by
  rw [settle_chr_of_idle (by rw [charStop_chr h]), charStop_chr h]

theorem charStepTimeout_ends {s : State} (h : s.est.chr.step ≠ 15)
    (hover : s.time.tns > s.est.chr.at0 + charBound s.est.chr.step * 1000000000) :
    completes .charStepTimeout s fun t => t.est.chr.step = 15 ∧ t.est.chr.result = 4 ∧ t.est.chr.req = 0 := by
  refine ⟨_, rfl, ?_⟩
  rw [if_pos ⟨h, hover⟩]
  simp [settle_charStop_chr h]

theorem charCurrentTimeout_ends {x : Nat} {s : State} (h : s.est.chr.step ≠ 15) (hout : s.est.chr.outAt = some x)
    (hover : s.time.tns ≥ x + 30000000000) :
    completes .charCurrentTimeout s fun t =>
      t.est.chr.step = 15 ∧ t.est.chr.result = 4 ∧ t.est.chr.outAt = none := by
  refine ⟨settle (charStop 4 s), ?_, ?_⟩
  · simp only [exec, execCharCurrentTimeout, hout]
    rw [if_pos ⟨h, hover⟩]
  · simp [settle_charStop_chr h]

/-- Settles O37: a step that is done enters the next or commits, and each timeout aborts the run. -/
theorem characterises : Obligations.Characterises :=
  ⟨fun _ _ => charStepDone_enters, fun _ => charStepDone_commits, fun _ => charStepTimeout_ends,
    fun _ _ => charCurrentTimeout_ends⟩

end Sys2Proof.Machine
end

section
/-! PROOFS. Writes of EST_CTRL, EST_CHAR and WIN_CTRL (R303, R304, R308, R310, R312, R336, R344): what each write makes
of the reserve, the references, the run and Winnow, and the statement of them. -/

namespace Sys2Proof.Machine

/-! ## The EST and WIN windows -/

theorem putReg_estCtrl (q : Req) (v : Word) (s : State) : putReg q 0xE004 v s = putEstCtrl v s := by
  simp [putReg, putEst, regIx]

theorem putReg_estChar (q : Req) (v : Word) (s : State) :
    putReg q 0xE008 v s =
      let u := if v.getLsbD 1 then charAbort s else s
      if v.getLsbD 0 then charStart u else u := by
  simp [putReg, putEst, regIx]

theorem putReg_winCtrl (q : Req) (v : Word) (s : State) :
    putReg q 0xF004 v s =
      let u := { s with win.freeze := v.getLsbD 0 }
      if v.getLsbD 1 && s.sys.run.winnow then winClear (portOf s q.port).sel.win u else u := by
  simp [putReg, putWin]

/-- WIN_CTRL reads FREEZE at bit 0. -/
theorem readWord_winCtrl (p : Port) (s : State) : readWord p 0xF004 s = w32 (b2n s.win.freeze) := rfl

/-! ## What a request that begins leaves -/

/-- A request that begins changes the host link alone. -/
theorem reqStart_eq (op : Nat) (h : ReqHdr) (s : State) :
    reqStart op h s = { s with host := (reqStart op h s).host } := by
  have e := reqStart_keep op h s
  generalize reqStart op h s = u at e
  cases u
  simpa only [State.mk.injEq, true_and, and_true] using e

@[simp] theorem cellConf_reqStart (op : Nat) (h : ReqHdr) (s : State) (c : Nat) :
    cellConf (reqStart op h s) c = cellConf s c := by
  rw [reqStart_eq]
  rfl

@[simp] theorem cells_reqStart (op : Nat) (h : ReqHdr) (s : State) : cells (reqStart op h s) = cells s := by
  rw [reqStart_eq]
  rfl

@[simp] theorem charOk_reqStart (op : Nat) (h : ReqHdr) (s : State) : charOk (reqStart op h s) = charOk s := by
  rw [reqStart_eq]
  rfl

/-- The selectors of a port stand when a request begins (R630). -/
@[simp] theorem portOf_reqStart_sel (op : Nat) (h : ReqHdr) (s : State) (p : Port) :
    (portOf (reqStart op h s) p).sel = (portOf s p).sel := by
  have hask (u : State) : (portOf (noteAsk op h u) p).sel = (portOf u p).sel := by
    unfold noteAsk
    split
    · by_cases hp : p = .t1s <;> simp [hp]
    · rfl
  have hpart (u : State) : (portOf (dropPart op h u) p).sel = (portOf u p).sel := by
    by_cases hp : p = h.port <;> simp [dropPart, hp]
  exact (hask _).trans (hpart _)

/-! ## Writes of EST_CTRL and EST_CHAR -/

/-- A write of EST_CTRL completes with what every answered effect of the word has. -/
theorem completes_estCtrl {c : Instr} {h : ReqHdr} {p : Bool} {v : Word} {s : State} {P : State → Prop}
    (hx : exec c s = .next (regReq p h noMeas 0xE004 (fun _ => v) s)) (hf : freshWr h p s)
    (hP : ∀ r, P (settle (answer (wrOp p) h.port h.tag r (putEstCtrl v (reqStart (wrOp p) h s))))) :
    completes c s P := by
  refine completes_write noMeas 0xE004 (fun _ => v) hx hf (by decide) (by decide) (fun _ => by simp [reaches])
    (by simp [chkWord]) fun r => ?_
  rw [putReg_estCtrl]
  exact hP r

/-- A write of EST_CHAR, whose START alone is an RWP field (R313), is answered from what the word makes. -/
theorem writes_estChar {c : Instr} {h : ReqHdr} {p : Bool} {v : Word} {s : State}
    (hx : exec c s = .next (regReq p h noMeas 0xE008 (fun _ => v) s)) (hf : freshWr h p s)
    (hv : p = false → v.getLsbD 0 = false) :
    writes h p c s (putReg (wrReq h p noMeas) 0xE008 v (reqStart (wrOp p) h s)) :=
  writes_intro noMeas 0xE008 (fun _ => v) hx hf (by decide) (by decide)
    (fun hp => by simpa [reaches, wrWord] using hv hp) (by simp [chkWord]) rfl

/-- A run that the word leaves ended stays as it left it when all has settled. -/
theorem writes.completes_idle {c : Instr} {h : ReqHdr} {p : Bool} {s u : State} (hw : writes h p c s u)
    (hidle : u.est.chr.step = 15) : completes c s fun t => t.est.chr = u.est.chr := by
  obtain ⟨r, hr⟩ := hw
  have hanswer : (answer (wrOp p) h.port h.tag r u).est = u.est := by simp [id @answer_keep]
  exact ⟨_, hr, (settle_chr_of_idle (by rw [hanswer, hidle])).trans (by rw [hanswer])⟩

/-! ## The reserve -/

@[simp] theorem get_mark_jumpMark (i v : Nat) (s : State) (k : Nat) :
    Tab.get 0 (jumpMark i v s).est.mark k = if k = i then v else Tab.get 0 s.est.mark k := by
  simp [jumpMark]

theorem get_mark_foldl (v : Nat) (l : List Nat) (s : State) (k : Nat) :
    Tab.get 0 (l.foldl (fun s i => jumpMark i v s) s).est.mark k = if k ∈ l then v else Tab.get 0 s.est.mark k := by
  induction l generalizing s with
  | nil => simp
  | cons i l ih =>
    rw [List.foldl_cons, ih]
    by_cases hi : k = i <;> simp [hi]

theorem jumpMarks_reserve (v : Nat) (s : State) :
    (jumpMarks v s).est.released = s.est.released ∧ (jumpMarks v s).est.status = s.est.status :=
  ⟨foldl_keep (·.est.released) _ _ s fun _ _ => rfl, foldl_keep (·.est.status) _ _ s fun _ _ => rfl⟩

/-- The reserve's flag in the state and in EST_STATUS follow at once, and the next jump of every string has cause 4
(R303, R304, R311). -/
theorem reserveSet_est (v : Bool) (s : State) :
    (reserveSet v s).est.released = v ∧ (reserveSet v s).est.status.getLsbD 11 = v ∧
    ∀ i < 4, Tab.get 0 (reserveSet v s).est.mark i = 4 := by
  refine ⟨?_, ?_, fun i hi => ?_⟩
  · simp [reserveSet, id @jumpMarks_reserve]
  · cases v <;> simp [reserveSet, id @jumpMarks_reserve]
  · rw [reserveSet, jumpMarks, get_mark_foldl, if_pos (List.mem_range.mpr hi)]

theorem eStr_foldl {f : EStr → EStr} (hf : ∀ e, f (f e) = f e) (l : List Nat) (s : State) (i : Nat) :
    eStr (l.foldl (fun s i => modEStr s i f) s) i = if i ∈ l then f (eStr s i) else eStr s i := by
  induction l generalizing s with
  | nil => simp
  | cons j l ih =>
    rw [List.foldl_cons, ih]
    by_cases hj : i = j <;> simp [hj, hf]

theorem reserveRelease_est {s : State} (hheld : s.est.released = false) :
    (reserveRelease s).est.released = true ∧ (reserveRelease s).est.status.getLsbD 11 = true ∧
    ∀ i < 4, (eStr (reserveRelease s) i).qRel = 0 ∧ Tab.get 0 (reserveRelease s).est.mark i = 4 := by
  obtain ⟨hrel, hopen, hmark⟩ := reserveSet_est true s
  simp only [reserveRelease, hheld, Bool.false_eq_true, if_false, id @emit_keep, id @emit_entries,
    id @foldl_modEStr_rest]
  refine ⟨hrel, hopen, fun i hi => ⟨?_, hmark i hi⟩⟩
  rw [eStr_foldl (f := fun x => { x with qRel := 0 }) fun _ => rfl, if_pos (List.mem_range.mpr hi)]

theorem reserveHold_est {s : State} (hrel : s.est.released = true) :
    (reserveHold s).est.released = false ∧ (reserveHold s).est.status.getLsbD 11 = false ∧
    ∀ i < 4, Tab.get 0 (reserveHold s).est.mark i = 4 := by
  simpa only [reserveHold, reserveRestore, hrel, if_true, id @emit_keep] using reserveSet_est false s

theorem reserveRelease_releases {h : ReqHdr} {p : Bool} {s : State} (hf : freshWr h p s)
    (hheld : s.est.released = false) :
    completes (.reserveRelease h p) s fun t =>
      t.est.released = true ∧ t.est.status.getLsbD 11 = true ∧
      ∀ i < 4, (eStr t i).qRel = 0 ∧ Tab.get 0 t.est.mark i = 4 := by
  refine completes_estCtrl (v := 1) rfl hf fun r => ?_
  have e := reserveRelease_est (s := reqStart (wrOp p) h s) (by simpa [id @reqStart_keep] using hheld)
  simpa [putEstCtrl, id @settle_est, id @settle_entries, id @answer_keep, id @answer_entries] using e

theorem reserveHold_holds {h : ReqHdr} {p : Bool} {s : State} (hf : freshWr h p s) (hrel : s.est.released = true) :
    completes (.reserveHold h p) s fun t => t.est.released = false ∧ t.est.status.getLsbD 11 = false ∧
      ∀ i < 4, Tab.get 0 t.est.mark i = 4 := by
  refine completes_estCtrl (v := 2) rfl hf fun r => ?_
  have e := reserveHold_est (s := reqStart (wrOp p) h s) (by simpa [id @reqStart_keep] using hrel)
  simpa [putEstCtrl, id @settle_est, id @answer_keep] using e

/-! ## References -/

/-- Reseeding changes neither what the kernel holds of a cell nor whether the cell was seen, so that each cell of the
list takes its own SOC (R290, R312). -/
theorem eCell_foldl_reseed (l : List Nat) (s : State) (c : Nat) :
    eCell (l.foldl (fun s c =>
      if (eCell s c).seen then modECell s c fun e => { e with zc := slotVal s c 0 } else s) s) c =
      if c ∈ l ∧ (eCell s c).seen = true then { eCell s c with zc := slotVal s c 0 } else eCell s c := by
  induction l generalizing s with
  | nil => simp
  | cons d l ih =>
    have hslot (f : ECell → ECell) : slotVal (modECell s d f) c 0 = slotVal s c 0 := rfl
    rw [List.foldl_cons, ih]
    by_cases hd : c = d
    · subst hd
      by_cases hseen : (eCell s c).seen = true <;> simp [hseen, hslot]
    · by_cases hseen : (eCell s d).seen = true <;> simp [hseen, hd, hslot]

theorem ccReseed_reseeds {h : ReqHdr} {p : Bool} {c : Nat} {s : State} (hf : freshWr h p s) (hc : c ∈ cells s)
    (hseen : (eCell s c).seen = true) :
    completes (.ccReseed h p) s fun t => (eCell t c).zc = slotVal s c 0 := by
  refine completes_estCtrl (v := 4) rfl hf fun r => ?_
  have hcell : eCell (reqStart (wrOp p) h s) c = eCell s c := by simp [eCell, id @reqStart_keep]
  have hslot : slotVal (reqStart (wrOp p) h s) c 0 = slotVal s c 0 := by simp [slotVal, kCell, id @reqStart_keep]
  simp [putEstCtrl, id @settle_entries, id @answer_entries, ccReseed, eCell_foldl_reseed, hcell, hc, hseen, hslot]

/-! ## The characterisation run -/

theorem charStart_starts {s : State} (hidle : s.est.chr.step = 15) (hok : charOk s = true) :
    (charStart s).est.chr = { step := 1, result := s.est.chr.result, at0 := s.time.tns } := by
  simp [charStart, hidle, hok, id @phaseStart_keep]

theorem charStart_refuses {s : State} (hidle : s.est.chr.step = 15) (hok : charOk s = false) :
    (charStart s).est.chr = { s.est.chr with result := 5 } := by
  simp [charStart, hidle, hok]

theorem estCharStart_starts {h : ReqHdr} {s : State} (hf : freshWr h true s) (hidle : s.est.chr.step = 15)
    (hok : charOk s = true) :
    writesTo h true (.estCharStart h true) s fun u =>
      u.est.chr.step = 1 ∧ u.est.chr.at0 = s.time.tns ∧ u.est.chr.req = 0 := by
  refine ⟨_, writes_estChar (v := 1) rfl hf (by simp), ?_⟩
  have e := charStart_starts (s := reqStart (wrOp true) h s) (by simpa [id @reqStart_keep] using hidle)
    (by simpa using hok)
  simp [putReg_estChar, e, id @reqStart_keep]

theorem estCharStart_refuses {h : ReqHdr} {s : State} (hf : freshWr h true s) (hidle : s.est.chr.step = 15)
    (hok : charOk s = false) :
    completes (.estCharStart h true) s fun t => t.est.chr.step = 15 ∧ t.est.chr.result = 5 := by
  have hidle' : (reqStart (wrOp true) h s).est.chr.step = 15 := by simpa [id @reqStart_keep] using hidle
  have e := charStart_refuses hidle' (by simpa using hok)
  have hw := writes_estChar (c := .estCharStart h true) (v := 1) rfl hf (by simp)
  obtain ⟨t, ht, hchr⟩ := hw.completes_idle (by simp [putReg_estChar, e, hidle'])
  exact ⟨t, ht, by simp [hchr, putReg_estChar, e, hidle']⟩

theorem estCharAbort_aborts {h : ReqHdr} {p : Bool} {s : State} (hf : freshWr h p s) (hrun : s.est.chr.step ≠ 15) :
    completes (.estCharAbort h p) s fun t =>
      t.est.chr.step = 15 ∧ t.est.chr.result = 2 ∧ t.est.chr.req = 0 := by
  have e := charStop_chr (s := reqStart (wrOp p) h s) (by simpa [id @reqStart_keep] using hrun) 2
  have hw := writes_estChar (c := .estCharAbort h p) (v := 2) rfl hf (by simp)
  obtain ⟨t, ht, hchr⟩ := hw.completes_idle (by simp [putReg_estChar, charAbort, e])
  exact ⟨t, ht, by simp [hchr, putReg_estChar, charAbort, e]⟩

/-! ## WIN_CTRL -/

/-- A write of WIN_CTRL completes with what every answered effect of the word has. -/
theorem completes_winCtrl {c : Instr} {h : ReqHdr} {p : Bool} (f : Word → Word) {s : State} {P : State → Prop}
    (hx : exec c s = .next (regReq p h noMeas 0xF004 f s)) (hf : freshWr h p s)
    (hP : ∀ r, P (settle (answer (wrOp p) h.port h.tag r
      (putReg (wrReq h p noMeas) 0xF004 (f (w32 (b2n s.win.freeze))) (reqStart (wrOp p) h s))))) :
    completes c s P := by
  refine completes_write noMeas 0xF004 f hx hf (by decide) (by decide) (fun _ => by simp [reaches])
    (by simp [chkWord]) fun r => ?_
  simpa only [wrWord, readWord_winCtrl, id @reqStart_keep] using hP r

/-- CLR_CELL written 1 beside what WIN_CTRL reads leaves FREEZE as it was. -/
theorem winCtrl_clr_bits (on : Bool) :
    (w32 (b2n on) ||| 2).getLsbD 0 = on ∧ (w32 (b2n on) ||| 2).getLsbD 1 = true := by
  cases on <;> decide

/-- CLR_CELL of a configured cell waits for the next commit point with those asked for before (R336). -/
theorem putReg_winCtrl_clr {q : Req} {v : Word} {s : State} (hv : v.getLsbD 1 = true) (hrun : s.sys.run.winnow = true)
    (hc : cellConf s (portOf s q.port).sel.win = true) :
    (putReg q 0xF004 v s).win =
      { s.win with freeze := v.getLsbD 0, clr := s.win.clr ++ [(portOf s q.port).sel.win] } := by
  have hconf (on : Bool) (c : Nat) : cellConf { s with win.freeze := on } c = cellConf s c := rfl
  simp [putReg_winCtrl, hv, hrun, winClear, hconf, hc, id @emit_keep]

theorem winClrCell_asks {h : ReqHdr} {p : Bool} {s : State} (hf : freshWr h p s) (hrun : s.sys.run.winnow = true)
    (hc : cellConf s (portOf s h.port).sel.win = true) :
    completes (.winClrCell h p) s fun t =>
      t.win.clr = s.win.clr ++ [(portOf s h.port).sel.win] ∧ t.win.freeze = s.win.freeze := by
  refine completes_winCtrl (fun w => w ||| 2) rfl hf fun r => ?_
  obtain ⟨hfreeze, hclr⟩ := winCtrl_clr_bits s.win.freeze
  have e := putReg_winCtrl_clr (q := wrReq h p noMeas) (s := reqStart (wrOp p) h s) hclr
    (by simpa [id @reqStart_keep] using hrun) (by simpa [wrReq] using hc)
  simp only [id @settle_keep, id @answer_keep, e, hfreeze]
  simp [wrReq, id @reqStart_keep]

theorem winFreeze_stores {h : ReqHdr} {p : Bool} (on : Bool) {s : State} (hf : freshWr h p s) :
    completes (.winFreeze h p on) s fun t => t.win = { s.win with freeze := on } := by
  refine completes_winCtrl (fun _ => if on then 1 else 0) rfl hf fun r => ?_
  cases on <;> simp [putReg_winCtrl, id @settle_keep, id @answer_keep, id @reqStart_keep]

/-- Settles O29: each request is taken, and what its word makes of the reserve, the references, the run or Winnow
survives the answer and the settling. -/
theorem writesEstimator : Obligations.WritesEstimator :=
  ⟨fun _ _ _ => reserveRelease_releases, fun _ _ _ => reserveHold_holds, fun _ _ _ _ => ccReseed_reseeds,
    fun _ _ => estCharStart_starts, fun _ _ => estCharStart_refuses, fun _ _ _ => estCharAbort_aborts,
    fun _ _ _ => winClrCell_asks, fun _ _ on _ => winFreeze_stores on⟩

end Sys2Proof.Machine
end

section
/-! PROOFS. What Winnow identifies (R329, R331, R332, R338): the offers of a step event, of a window and of a tail, and the
statement of them. -/

namespace Sys2Proof.Machine

/-! ## Offers and a cell's part -/

/-- Results that are offered while Winnow is not frozen join those that wait (R333, R336). -/
theorem offer_eq {s : State} (hfr : s.win.freeze = false) (zs : List ZOffer) :
    offer zs s = { s with win.offers := s.win.offers ++ zs } := by
  simp [offer, hfr]

@[simp] theorem wCell_offer (zs : List ZOffer) (s : State) (c : Nat) : wCell (offer zs s) c = wCell s c := by
  unfold offer
  split <;> rfl

@[simp] theorem offers_modWCell (s : State) (c : Nat) (f : WCell → WCell) :
    (modWCell s c f).win.offers = s.win.offers := rfl

@[simp] theorem freeze_modWCell (s : State) (c : Nat) (f : WCell → WCell) :
    (modWCell s c f).win.freeze = s.win.freeze := rfl

/-! ## Step events -/

/-- A step event of a string offers the estimate of each of its cells that has one, and is the last event (R328, R329). -/
theorem winStepEvent_offers {i n : Nat} {s : State} (hon : winOn s = true) (hev : stepEvent s i = some n)
    (hfr : s.win.freeze = false) :
    completes (.winStepEvent i) s fun t =>
      t.win.offers = s.win.offers ++ (stringCells s i).filterMap (stepOffer s i n) ∧
      (Tab.get {} t.win.str i).evAt = some s.time.tns := by
  refine ⟨_, rfl, ?_⟩
  simp only [hon, hev]
  simp [offer_eq, hfr]

/-! ## Windows -/

/-- Cell `c` without its window: what comes next begins a new block (R331). -/
def windowShut (c : Nat) (s : State) : State :=
  modWCell s c fun w => { blockBreak w with win := none, winEnd := false }

@[simp] theorem windowShut_offers (c : Nat) (s : State) : (windowShut c s).win.offers = s.win.offers := rfl

@[simp] theorem windowShut_freeze (c : Nat) (s : State) : (windowShut c s).win.freeze = s.win.freeze := rfl

@[simp] theorem windowShut_win (c : Nat) (s : State) : (wCell (windowShut c s) c).win = none := by
  simp [windowShut]

@[simp] theorem windowShut_winEnd (c : Nat) (s : State) : (wCell (windowShut c s) c).winEnd = false := by
  simp [windowShut]

section
variable {c : Nat} {z : ZWin} {s : State}

/-- A window that closes with a result, Winnow not frozen, offers it. -/
theorem completes_windowOffer {r : Option ZOffer}
    (hx : exec (.winWindowClose c) s = .next (offer r.toList (windowShut c s))) (hfr : s.win.freeze = false) :
    completes (.winWindowClose c) s fun t =>
      t.win.offers = s.win.offers ++ r.toList ∧ (wCell t c).win = none :=
  ⟨_, hx, by simp [offer_eq, hfr], by simp⟩

variable (hwin : (wCell s c).win = some z)
include hwin

/-- Outside characterisation step 2, a window that its test finds rich offers its result (R331). -/
theorem winWindowClose_rich {i : Nat} (hstr : cellString s c = some i) (hpulse : z.pulse = false)
    (hchar : winChar s = false) (htest : richTest s z = true) (hend : (wCell s c).winEnd = false)
    (hrich : rich s i z = true) :
    exec (.winWindowClose c) s = .next (offer (winResult s c z).toList (windowShut c s)) := by
  simp [exec, execWinWindowClose, windowShut, hwin, hstr, hpulse, hchar, htest, hend, hrich]

/-- The window of a characterisation's pulse offers its last 12 s without the test (R338). -/
theorem winWindowClose_pulse (hpulse : z.pulse = true) :
    exec (.winWindowClose c) s = .next (offer (winResult s c (pulseBlocks z)).toList (windowShut c s)) := by
  simp [exec, execWinWindowClose, windowShut, hwin, hpulse]

/-- A window that must end closes, in characterisation step 2 as outside it (R331, R338). -/
theorem winWindowClose_ended (hpulse : z.pulse = false) (hend : (wCell s c).winEnd = true) :
    exec (.winWindowClose c) s = .next (windowShut c s) := by
  cases hchar : winChar s <;> simp [exec, execWinWindowClose, windowShut, hwin, hpulse, hchar, hend]

end

/-! ## Tails -/

/-- A tail that has ended offers its fit and is gone (R332). -/
theorem winTailEnd_offers {c : Nat} {x : ZTail} {s : State} (htail : (wCell s c).tail = some x) (hend : x.ended = true)
    (hfr : s.win.freeze = false) :
    completes (.winTailEnd c) s fun t =>
      t.win.offers = s.win.offers ++ (tailResult s c x).toList ∧ (wCell t c).tail = none := by
  refine ⟨offer (tailResult s c x).toList (modWCell s c fun w => { w with tail := none }), ?_, ?_, ?_⟩
  · simp [exec, execWinTailEnd, htail, hend]
  · simp [offer_eq, hfr]
  · simp

/-- Settles O36: a step event, a rich window, a pulse and a tail each offer their result, and a window that must end
offers none. -/
theorem winnowOffers : Obligations.WinnowOffers :=
  ⟨fun _ _ _ => winStepEvent_offers,
    fun _ _ _ _ hwin hstr hpulse hchar htest hend hrich =>
      completes_windowOffer (winWindowClose_rich hwin hstr hpulse hchar htest hend hrich),
    fun _ _ _ hwin hpulse => completes_windowOffer (winWindowClose_pulse hwin hpulse),
    fun _ _ _ hwin hpulse hend => ⟨_, winWindowClose_ended hwin hpulse hend, by simp, by simp, by simp⟩,
    fun _ _ _ => winTailEnd_offers⟩

end Sys2Proof.Machine
end

section
/-! PROOFS. A step (R385, R547): the command in front, or a nanosecond of TNS. -/

namespace Sys2Proof.Machine

/-- TNS moved on to `t` reads `t` (R384). -/
theorem tnsTo_tns (t : Nat) (s : State) : (tnsTo t s).time.tns = t := by
  simp [tnsTo, id @ledgGap_keep]

/-- A nanosecond of a device with a clock adds one to TNS (R385). -/
theorem tick_tns {s : State} (h : noClock s = false) : (tick s).time.tns = s.time.tns + 1 := by
  simp [tick, h, id @portSend_keep, id @vsupTick_keep, tnsTo_tns]

/-- Settles O1: the queue decides which of the two a step is, and a tick brings no command. -/
theorem stepRunsFront : Obligations.StepRunsFront := by
  refine ⟨fun c rest s hq => ?_, fun c s => rfl, fun s hq hc => ?_, fun s hq hc => ⟨tick s, ?_, tick_tns hc, ?_⟩⟩
  · rw [step, hq]
  · rw [step, hq, tick, if_pos hc]
  · rw [step, hq]
  · simp [id @tick_keep, hq]

end Sys2Proof.Machine
end

section
/-! PROOFS. The NV store (R386, R421, R422, R426, R431, R432): which objects the write queue holds, what a completed write
makes of its banks, what the hardware writes to the time block, and the statement of them. -/

namespace Sys2Proof.Machine

/-! ## The write queue -/

/-- What capturing an object does beside the copy leaves the write queue and the banks alone. -/
theorem nvTaken_store (oid : Nat) (s : State) :
    (nvTaken oid s).nv.queue = s.nv.queue ∧ (nvTaken oid s).nv.objs = s.nv.objs := by
  unfold nvTaken
  repeat' split
  all_goals exact ⟨rfl, rfl⟩

/-- A write that starts is still in the queue (R422). -/
theorem nvStart_oids (s : State) : (nvStart s).nv.queue.map (·.oid) = s.nv.queue.map (·.oid) := by
  unfold nvStart
  split
  · rfl
  next j rest hq =>
    split
    · rfl
    · simp [nvTaken_store, hq]

/-- No write starts while none waits, or while one is in progress (R422). -/
theorem nvStart_of_empty {s : State} (h : s.nv.queue = []) : nvStart s = s := by simp [nvStart, h]

theorem nvStart_of_busy {j : NvJob} {rest : List NvJob} {s : State} (h : s.nv.queue = j :: rest) (hj : j.body ≠ none) :
    nvStart s = s := by
  have hbody : j.body.isSome = true := Option.isSome_iff_ne_none.mpr hj
  simp [nvStart, h, hbody]

theorem nvInsert_oid (j : NvJob) (l : List NvJob) : j.oid ∈ (nvInsert j l).map (·.oid) := by
  induction l with
  | nil => simp [nvInsert]
  | cons k ks ih =>
    rw [nvInsert]
    split
    · simp
    · simpa using .inr (by simpa using ih)

/-- An object that is queued is in the queue, whatever was there before (R423). -/
theorem nvQueue_queues (oid : Nat) (s : State) : (nvQueue oid s).nv.queue.any (·.oid == oid) = true := by
  have hmem (l : List NvJob) : oid ∈ l.map (·.oid) → l.any (·.oid == oid) = true := by simp
  simp only [nvQueue]
  split
  next hin =>
    obtain ⟨k, hk, he⟩ := List.any_eq_true.mp hin
    refine hmem _ (List.mem_map.mpr ⟨_, List.mem_map_of_mem hk, ?_⟩)
    split <;> simpa using he
  next =>
    refine hmem _ ?_
    rw [nvStart_oids]
    have hj := nvInsert_oid { oid := oid }
    dsimp only
    split
    · split
      · simpa using .inr (by simpa using hj _)
      · exact hj _
    · simp

/-! ## Bursts and completed writes -/

theorem nvBurstDone_counts {corr : Nat} {j : NvJob} {rest : List NvJob} {s : State} (hq : s.nv.queue = j :: rest)
    (hbody : j.body ≠ none) (hleft : j.bursts > 1) (hprio : ∀ k ∈ rest.head?, nvPrio j.oid ≤ nvPrio k.oid) :
    completes (.nvBurstDone corr) s fun t =>
      t.nv.queue = { j with bursts := j.bursts - 1 } :: rest ∧ t.nv.corr = sat 16 (s.nv.corr + corr) := by
  have hgo : (j.body.isSome && decide (j.bursts > 0)) = true := by
    simpa [Option.isSome_iff_ne_none, hbody] using by omega
  have hyield (u : State) (hu : u.nv.queue = { j with bursts := j.bursts - 1 } :: rest) : nvYield u = u := by
    cases rest with
    | nil => simp [nvYield, hu]
    | cons k ks =>
      have hk : ¬ nvPrio k.oid < nvPrio j.oid := Nat.not_lt.mpr (hprio k (by simp))
      simp [nvYield, hu, hk]
  refine ⟨_, rfl, ?_⟩
  simp only [hq, hgo, if_true, id @settle_keep]
  rw [hyield _ rfl, nvStart_of_busy (j := { j with bursts := j.bursts - 1 }) rfl hbody]
  exact ⟨rfl, rfl⟩

/-- The bank that a write completes is the newest of its object (R421, R422). -/
theorem nvBank_written {o : NvObj} (x : NvBody) (ha : o.a.seq < 4294967296) (hb : o.b.seq < 4294967296) :
    let bank : NvBank := { seq := nvNextSeq o, body := some x }
    nvBank (if nvTarget o then { o with b := bank } else { o with a := bank }) = some bank := by
  have hnew (n : Nat) (hn : n < 4294967296) : serNewer 32 ((n + 1) % 4294967296) n = true := by
    simp [serNewer]; omega
  have hold (n : Nat) (hn : n < 4294967296) : serNewer 32 n ((n + 1) % 4294967296) = false := by
    simp [serNewer]; omega
  cases hA : o.a.body <;> cases hB : o.b.body <;> cases hN : serNewer 32 o.b.seq o.a.seq <;>
    simp [nvTarget, nvPick, nvBank, nvNextSeq, hA, hB, hN, hnew, hold, ha, hb]

theorem nvWritten_keeps_nv (oid seq : Nat) (body : Option NvBody) (s : State) : (nvWritten oid seq body s).nv = s.nv := by
  simp [id @nvWritten_keep]

theorem nvWriteDone_newest {j : NvJob} {s : State} (hq : s.nv.queue = [j]) (hbody : j.body ≠ none)
    (hdone : j.bursts = 0) (hagain : j.again = false) (ha : (nvObj s j.oid).a.seq < 4294967296)
    (hb : (nvObj s j.oid).b.seq < 4294967296) :
    completes .nvWriteDone s fun t => t.nv.queue = [] ∧ nvBank (nvObj t j.oid) =
      some { seq := nvNextSeq (nvObj s j.oid), body := j.body } := by
  obtain ⟨x, hx⟩ := Option.ne_none_iff_exists'.mp hbody
  refine ⟨_, rfl, ?_⟩
  have hgo : (j.body.isSome && j.bursts == 0) = true := by simp [hx, hdone]
  simp only [hq, hgo, hagain, if_true, Bool.false_eq_true, if_false, id @settle_keep, id @settle_entries]
  rw [nvStart_of_empty (by simp [id @nvWritten_keep, setNvObj])]
  refine ⟨by simp [id @nvWritten_keep, setNvObj], ?_⟩
  rw [nvObj, nvWritten_keeps_nv, ← nvObj, nvObj_setNvObj, if_pos rfl, hx]
  exact nvBank_written x ha hb

/-! ## Objects queued on their occasions -/

/-- A command that queues an object leaves it in the queue. -/
theorem completes_nvQueue {c : Instr} {oid : Nat} {s : State} (hx : exec c s = .next (settle (nvQueue oid s))) :
    completes c s fun t => t.nv.queue.any (·.oid == oid) = true :=
  ⟨_, hx, by simpa only [id @settle_keep] using nvQueue_queues oid s⟩

/-! ## The time block and the last-gasp ring -/

/-- The time block written has TNS and the next SEQ, and stands in one of its two copies (R386, R424). -/
theorem tbWrite_tb (s : State) :
    (tbWrite s).nv.tb.tnsSave = s.time.tns ∧ (tbWrite s).nv.tb.seq = (s.nv.tb.seq + 1) % 4294967296 ∧
    ((tbWrite s).nv.tbA = some (tbWrite s).nv.tb ∨ (tbWrite s).nv.tbB = some (tbWrite s).nv.tb) := by
  simp only [tbWrite]
  repeat' split
  all_goals simp

/-- Of the NV store a write of the time block changes that block and its copies alone. -/
theorem tbWrite_lg (s : State) : (tbWrite s).nv.lgWait = s.nv.lgWait ∧ (tbWrite s).nv.lg = s.nv.lg := by
  simp only [tbWrite]
  repeat' split
  all_goals exact ⟨rfl, rfl⟩

theorem lastGaspDone_writes {x : LgSlot} {rest : List LgSlot} {s : State} (h : s.nv.lgWait = x :: rest) :
    completes .lastGaspDone s fun t => t.nv.lgWait = rest ∧
      Tab.get none t.nv.lg (lgNext s).1 = some { x with seq := (lgNext s).2 } ∧ t.nv.tb.tnsSave = s.time.tns := by
  refine ⟨_, rfl, ?_⟩
  simp only [lgWrite, h, id @tbWrite_lg, id @tbWrite_tb, Tab.get_set, if_true, and_self]

/-- Settles O34: a burst is counted, a completed write is the newest bank, an object is queued on its occasion, and the
hardware writes the last-gasp slot and the time block. -/
theorem storeWrites : Obligations.StoreWrites := by
  refine ⟨fun _ _ _ _ => nvBurstDone_counts, fun _ _ => nvWriteDone_newest, fun s hnv => ?_, fun c s hnv hc hd => ?_,
    fun s hnv ht => ?_, fun s ht hr => ⟨tbWrite s, ?_, tbWrite_tb s⟩, fun _ _ _ => lastGaspDone_writes⟩
  · exact completes_nvQueue (by simp [exec, execCellRecWrite, hnv])
  · exact completes_nvQueue (by simp [exec, execZtabWrite, hnv, hc, Option.isSome_iff_ne_none, hd])
  · exact completes_nvQueue (by simp [exec, execTallyWrite, hnv, ht])
  · simp [exec, execTnsSaveWrite, ht, hr]

end Sys2Proof.Machine
end

section
/-! PROOFS. The crystal, TREF and the SYNC servo (R383, R385, R389, R391, R485): what a run of comparisons comes to, what a
SYNC sets, and the statement of them. -/

namespace Sys2Proof.Machine

/-! ## The crystal -/

theorem xtalStep_state (s : State) (d : Int) : (xtalStep s d).pwr.state = s.pwr.state := by
  simp only [xtalStep]
  repeat' split
  all_goals simp [id @emit_keep]

/-- The crystal was locked once: it is locked, or lost. -/
def xtalKnown (s : State) : Prop := s.time.xtalLock = true ∨ s.time.xtalLost = true

/-- What a comparison beyond 500 ppm makes of a crystal once locked, out of SLEEP (R383). -/
theorem xtalStep_far {d : Int} {s : State} (hs : s.pwr.state ≠ .sleep) (hd : absI d > 500) (hk : xtalKnown s) :
    if s.time.xtalLock = true ∧ s.time.xtalRun < 2 then
      (xtalStep s d).time = { s.time with xtalRun := s.time.xtalRun + 1 }
    else (xtalStep s d).time.xtalLock = false ∧ (xtalStep s d).time.xtalLost = true := by
  cases hl : s.time.xtalLock with
  | true =>
    by_cases hr : s.time.xtalRun < 2
    · simp [xtalStep, hs, hd, hl, devRun, hr, show ¬ 3 ≤ s.time.xtalRun + 1 by omega]
    · simp [xtalStep, hs, hd, hl, devRun, hr, show 3 ≤ s.time.xtalRun + 1 by omega, id @emit_keep]
  | false =>
    have hlost : s.time.xtalLost = true := by simpa [xtalKnown, hl] using hk
    cases hx : s.time.xtal <;> simp [xtalStep, hs, hd, hl, devRun, hlost, hx]

theorem xtalStep_known {s : State} (d : Int) (hk : xtalKnown s) : xtalKnown (xtalStep s d) := by
  unfold xtalKnown at hk ⊢
  simp only [xtalStep]
  repeat' split
  all_goals simp_all [id @emit_keep]

theorem foldl_xtalStep_known (l : List Int) {s : State} (hs : s.pwr.state ≠ .sleep) (hk : xtalKnown s) :
    (l.foldl xtalStep s).pwr.state ≠ .sleep ∧ xtalKnown (l.foldl xtalStep s) := by
  induction l generalizing s with
  | nil => exact ⟨hs, hk⟩
  | cons d l ih => exact ih (by rwa [xtalStep_state]) (xtalStep_known d hk)

/-- Three comparisons in a row beyond 500 ppm lose the crystal, whatever the run before them. -/
theorem foldl_xtalStep_far {a b c : Int} {s : State} (hs : s.pwr.state ≠ .sleep) (hk : xtalKnown s) (ha : absI a > 500)
    (hb : absI b > 500) (hc : absI c > 500) :
    ([a, b, c].foldl xtalStep s).time.xtalLock = false ∧ ([a, b, c].foldl xtalStep s).time.xtalLost = true := by
  have hs1 : (xtalStep s a).pwr.state ≠ .sleep := by rwa [xtalStep_state]
  have hs2 : (xtalStep (xtalStep s a) b).pwr.state ≠ .sleep := by rwa [xtalStep_state]
  have h1 := xtalStep_far hs ha hk
  have h2 := xtalStep_far hs1 hb (xtalStep_known a hk)
  have h3 := xtalStep_far hs2 hc (xtalStep_known b (xtalStep_known a hk))
  grind

theorem xtalLost_loses {a b c : Int} (l : List Int) {s : State} (hs : s.pwr.state ≠ .sleep)
    (hl : s.time.xtalLock = true) (ha : absI a > 500) (hb : absI b > 500) (hc : absI c > 500) :
    completes (.xtalLost (l ++ [a, b, c])) s fun t => t.time.xtalLock = false ∧ t.time.xtalLost = true := by
  obtain ⟨hs', hk⟩ := foldl_xtalStep_known l hs (.inl hl)
  refine ⟨_, rfl, ?_⟩
  rw [List.foldl_append]
  simpa only [id @settle_keep] using foldl_xtalStep_far hs' hk ha hb hc

theorem xtalLost_one {d : Int} {s : State} (hs : s.pwr.state ≠ .sleep) (hl : s.time.xtalLock = true) :
    completes (.xtalLost [d]) s fun t =>
      t.time.xtalLock = !(decide (absI d > 500) && decide (s.time.xtalRun ≥ 2)) := by
  refine ⟨_, rfl, ?_⟩
  simp only [List.foldl_cons, List.foldl_nil, id @settle_keep]
  by_cases hd : absI d > 500
  · have h := xtalStep_far hs hd (.inl hl)
    by_cases hr : s.time.xtalRun < 2
    · rw [if_pos ⟨hl, hr⟩] at h
      simp [h, hl, hr]
    · rw [if_neg fun e => hr e.2] at h
      simpa [h, hd] using by omega
  · simp [xtalStep, hs, hl, hd, devRun]

/-- Comparisons within 500 ppm keep a locked crystal locked. -/
theorem foldl_xtalStep_locked {l : List Int} {s : State} (hs : s.pwr.state ≠ .sleep)
    (hl : s.time.xtalLock = true ∧ s.time.xtalLost = false) (hd : ∀ d ∈ l, absI d ≤ 500) :
    (l.foldl xtalStep s).time.xtalLock = true ∧ (l.foldl xtalStep s).time.xtalLost = false := by
  induction l generalizing s with
  | nil => exact hl
  | cons d l ih =>
    have hnear : ¬ absI d > 500 := Nat.not_lt.mpr (hd d (by simp))
    refine ih (by rwa [xtalStep_state]) ?_ fun e he => hd e (by simp [he])
    simp [xtalStep, hs, hl, hnear, devRun]

/-- A run of comparisons within 500 ppm that comes to a hundred locks to the crystal again (R383). -/
theorem foldl_xtalStep_relocks {l : List Int} {s : State} (hs : s.pwr.state ≠ .sleep) (hx : s.time.xtal = true)
    (hl : s.time.xtalLock = false ∧ s.time.xtalLost = true) (hd : ∀ d ∈ l, absI d ≤ 500) (hne : l ≠ [])
    (hlen : 100 ≤ s.time.xtalRun + l.length) :
    (l.foldl xtalStep s).time.xtalLock = true ∧ (l.foldl xtalStep s).time.xtalLost = false := by
  induction l generalizing s with
  | nil => exact absurd rfl hne
  | cons d l ih =>
    have hnear : ¬ absI d > 500 := Nat.not_lt.mpr (hd d (by simp))
    have hd' : ∀ e ∈ l, absI e ≤ 500 := fun e he => hd e (by simp [he])
    have hs' : (xtalStep s d).pwr.state ≠ .sleep := by rwa [xtalStep_state]
    rw [List.foldl_cons]
    by_cases hr : 100 ≤ s.time.xtalRun + 1
    · exact foldl_xtalStep_locked hs' (by simp [xtalStep, hs, hl, hx, hnear, devRun, hr]) hd'
    · have e : (xtalStep s d).time = { s.time with xtalRun := s.time.xtalRun + 1 } := by
        simp [xtalStep, hs, hl, hx, hnear, devRun, hr]
      rw [List.length_cons] at hlen
      refine ih hs' (by rw [e]; exact hx) (by rw [e]; exact hl) hd' ?_ (by rw [e]; dsimp only; omega)
      rintro rfl
      simp at hlen
      omega

theorem xtalRelock_relocks {l : List Int} {s : State} (hs : s.pwr.state ≠ .sleep) (hx : s.time.xtal = true)
    (hl : s.time.xtalLock = false) (hlost : s.time.xtalLost = true) (hlen : l.length = 100) (hd : ∀ d ∈ l, absI d ≤ 500) :
    completes (.xtalRelock l) s fun t => t.time.xtalLock = true ∧ t.time.xtalLost = false := by
  refine ⟨_, rfl, ?_⟩
  simpa only [id @settle_keep] using
    foldl_xtalStep_relocks hs hx ⟨hl, hlost⟩ hd (by rintro rfl; simp at hlen) (by omega)

/-! ## TREF without a crystal -/

theorem timebaseStops_timebase (s : State) : (timebaseStops s).sys.run.timebase = false := by
  simp [timebaseStops, id @curStop_keep, id @winDiscard_keep]

/-- What the comparisons of TREF depend on stands: no crystal, and out of SLEEP. -/
def trefWatched (s : State) : Prop := s.time.xtal = false ∧ s.pwr.state ≠ .sleep

theorem trefStep_watched {s : State} (d : Int) (hw : trefWatched s) : trefWatched (trefStep s d) := by
  unfold trefWatched at hw ⊢
  simp only [trefStep]
  repeat' split
  all_goals simpa [id @emit_keep, timebaseStops, id @curStop_keep, id @winDiscard_keep] using hw

/-- What a comparison beyond 5 % makes of the timebase (R383). -/
theorem trefStep_far {d : Int} {s : State} (hw : trefWatched s) (hd : absI d > 50000) :
    (trefStep s d).sys.run.timebase = false ∨ (trefStep s d).time.trefRun = s.time.trefRun + 1 ∧ s.time.trefRun < 2 := by
  obtain ⟨hx, hs⟩ := hw
  cases hrun : s.sys.run.timebase with
  | false => simp [trefStep, hrun]
  | true =>
    by_cases hr : s.time.trefRun < 2
    · simp [trefStep, hx, hs, hrun, hd, devRun, hr, show ¬ 3 ≤ s.time.trefRun + 1 by omega]
    · simp [trefStep, hx, hs, hrun, hd, devRun, show 3 ≤ s.time.trefRun + 1 by omega, id @emit_keep,
        timebaseStops_timebase]

/-- A timebase that stopped stays so. -/
theorem trefStep_stopped {s : State} (d : Int) (h : s.sys.run.timebase = false) :
    (trefStep s d).sys.run.timebase = false := by
  simp [trefStep, h]

theorem trefFault_stops {a b c : Int} (l : List Int) {s : State} (hs : s.pwr.state ≠ .sleep) (hx : s.time.xtal = false)
    (ha : absI a > 50000) (hb : absI b > 50000) (hc : absI c > 50000) :
    completes (.trefFault (l ++ [a, b, c])) s fun t => t.sys.run.timebase = false := by
  have hw : trefWatched (l.foldl trefStep s) := by
    have h0 : trefWatched s := ⟨hx, hs⟩
    clear hs hx
    induction l generalizing s with
    | nil => exact h0
    | cons d l ih => exact ih (trefStep_watched d h0)
  refine ⟨_, rfl, ?_⟩
  rw [List.foldl_append]
  simp only [id @settle_sys, List.foldl_cons, List.foldl_nil]
  generalize l.foldl trefStep s = u at hw ⊢
  have h1 := trefStep_far hw ha
  have h2 := trefStep_far (trefStep_watched a hw) hb
  have h3 := trefStep_far (trefStep_watched b (trefStep_watched a hw)) hc
  have k2 := @trefStep_stopped (trefStep u a) b
  have k3 := @trefStep_stopped (trefStep (trefStep u a) b) c
  grind

/-! ## SYNC -/

theorem syncHeard_keeps (l : LinkAddr) (s : State) :
    (syncHeard l s).time = s.time ∧ (syncHeard l s).sys = s.sys ∧ (syncHeard l s).host.syncDly = s.host.syncDly := by
  cases l <;> simp only [syncHeard] <;> repeat' split
  all_goals simp [takeFree, modPort]

theorem sync_sets {l : LinkAddr} {sseq : BitVec 16} {h : BitVec 64} {s : State} (hrun : portRuns s l.port = true)
    (hlink : linkTakes 0 l s = true) (hport : servoPort s = some l.port) (hen : s.time.syncEn = true)
    (hfirst : s.time.segOfs = none) :
    completes (.sync l sseq false h) s fun t =>
      t.time.segOfs = some (segOfsFor h.toNat ((s.time.tns - s.host.syncDly : Nat) : Int) s.sys.t0) ∧
      t.time.servo = .acquire ∧ t.time.syncSeen = some s.time.tns := by
  refine ⟨_, rfl, ?_⟩
  simp [hrun, hlink, hport, hen, syncPair, servoTake, id @syncHeard_keeps, hfirst, setSegOfs, id @settle_keep]

theorem linkNote_time (l : LinkAddr) (s : State) : (linkNote l s).time = s.time := by
  unfold linkNote
  repeat' split
  all_goals rfl

theorem sync_undelivered {l : LinkAddr} {sseq : BitVec 16} {two : Bool} {h : BitVec 64} {s : State}
    (hno : portRuns s l.port = false ∨ linkTakes 0 l s = false) :
    completes (.sync l sseq two h) s fun t => t.time = s.time := by
  refine ⟨settle (linkNote l s), ?_, by simpa only [id @settle_keep] using linkNote_time l s⟩
  rcases hno with hno | hno <;> simp [exec, execSync, hno]

theorem syncHoldover_holds {x : Nat} {s : State} (hseen : s.time.syncSeen = some x)
    (hservo : s.time.servo = .acquire ∨ s.time.servo = .locked) (hlong : s.time.tns - x ≥ 5000000000) :
    exec .syncHoldover s = .next { s with
      time.servo := .holdover, time.rate := s.time.freq, time.lockCnt := 0, time.loseCnt := 0 } := by
  have hgo : ((s.time.servo == .acquire || s.time.servo == .locked) && decide (since s x ≥ 5 * nsPerSec)) = true := by
    simpa [since, hservo, nsPerSec] using hlong
  simp only [exec, execSyncHoldover, hseen, hgo, if_true]

/-- Settles O38: a run of comparisons is followed to its end, a SYNC sets SEG_OFS where its link delivers it, and 5 s
without one hold the frequency. -/
theorem timeKeeping : Obligations.TimeKeeping :=
  ⟨fun _ _ _ l _ => xtalLost_loses l, fun _ _ => xtalLost_one, fun _ _ => xtalRelock_relocks,
    fun _ _ _ l _ hs hx _ => trefFault_stops l hs hx, fun _ _ _ _ => sync_sets, fun _ _ _ _ _ => sync_undelivered,
    fun _ _ => syncHoldover_holds⟩

end Sys2Proof.Machine
end

section
/-! PROOFS. The thermal guard (R406, R409, R411, R413, R414): what a measurement in which every sensor reads the same comes to,
what begins and ends a shutdown, and the statement of the levels. -/

namespace Sys2Proof.Machine

/-! ## A measurement in which every sensor reads the same -/

theorem insertI_replicate (v : Int) (n : Nat) : insertI v (List.replicate n v) = List.replicate (n + 1) v := by
  cases n <;> simp [insertI, List.replicate_succ]

theorem sort_replicate (v : Int) (n : Nat) : (List.replicate n v).foldr insertI [] = List.replicate n v := by
  induction n with
  | zero => rfl
  | succ n ih => rw [List.replicate_succ, List.foldr_cons, ih, insertI_replicate, List.replicate_succ]

/-- The median of equal values is their value (R407). -/
theorem median2_replicate (v : Int) {n : Nat} (hn : 0 < n) : median2 (List.replicate n v) = 2 * v := by
  simp only [median2, sort_replicate, List.length_replicate]
  split
  · simp [List.getD_eq_getElem?_getD, show n / 2 < n by omega]
  · simp [List.getD_eq_getElem?_getD, show n / 2 < n by omega, show n / 2 - 1 < n by omega]
    omega

/-- The measurement in which every sensor reads `v` within its band. -/
def evenRead (v : Int) : List (Nat × Int × Bool) := (List.range 20).map fun i => (i, v, true)

/-- A sensor that reads what its neighbours read does not fail (R407). -/
theorem sensFail_evenRead (s : State) (v : Int) (i : Nat) : sensFail s (evenRead v) i v true = 0 := by
  have hnb (p : Nat × Int × Bool → Bool) :
      ((evenRead v).filter p).map (·.2.1) = List.replicate (((evenRead v).filter p).map (·.2.1)).length v := by
    refine List.eq_replicate_of_mem fun x hx => ?_
    obtain ⟨e, he, rfl⟩ := List.mem_map.mp hx
    obtain ⟨i, -, rfl⟩ := List.mem_map.mp (List.mem_filter.mp he).1
    rfl
  simp only [sensFail, Bool.not_true, Bool.false_eq_true, if_false]
  split
  · rfl
  split
  · rfl
  next hlen =>
    rw [hnb, median2_replicate v (by omega)]
    simp [absI]

/-- The reading of a sensor is stored. -/
def takeRead (v : Int) (s : State) (i : Nat) : State :=
  modSensor i (fun y => { y with temp := satI 16 v, raw := v, subst := y.failed }) s

theorem sensor_takeRead (v : Int) (s : State) (i j : Nat) :
    (sensor (takeRead v s i) j).temp = if j = i then satI 16 v else (sensor s j).temp := by
  simp only [takeRead, modSensor, sensor, Tab.get_set]
  split <;> rfl

theorem foldl_takeRead (v : Int) (l : List Nat) (s : State) :
    (∃ tab, l.foldl (takeRead v) s = { s with therm.sens := tab }) ∧
    ∀ i ∈ l, (sensor (l.foldl (takeRead v) s) i).temp = satI 16 v := by
  induction l using List.reverseRecOn with
  | nil => exact ⟨⟨s.therm.sens, rfl⟩, by simp⟩
  | append_singleton l j ih =>
    obtain ⟨⟨tab, htab⟩, ih⟩ := ih
    simp only [List.foldl_append, List.foldl_cons, List.foldl_nil]
    refine ⟨⟨_, by rw [htab]; rfl⟩, fun i hi => ?_⟩
    rw [sensor_takeRead]
    split
    · rfl
    next hne => exact ih i (by simpa [hne] using hi)

/-- Where all sensors report the same, the first of them is the highest. -/
theorem hiReported_even {v : Int} {i : Nat} {is : List Nat} {s : State} (h : ∀ j ∈ i :: is, (sensor s j).temp = v) :
    hiReported s (i :: is) = some (v, i) := by
  induction is using List.reverseRecOn with
  | nil => simp [hiReported, h]
  | append_singleton l j ih =>
    have hl : hiReported s (i :: l) = some (v, i) := ih fun k hk => h k (by simp at hk ⊢; tauto)
    rw [hiReported] at hl ⊢
    rw [← List.cons_append, List.foldl_append, hl]
    simp [h j (by simp)]

theorem thermalMeasurement_even {v : Int} {s : State} (hp : s.sys.run.thermP = true) (hc : s.sys.run.core = true)
    (hl : s.sys.run.thermL = true) (hsens : s.therm.sens = []) (hlo : -32768 ≤ v) (hhi : v ≤ 32767) :
    completes (.thermalMeasurement (List.replicate 16 (v, true)) (List.replicate 4 (v, true))) s fun t =>
      t.therm.measured = true ∧ t.therm.hi = some (v, 0) ∧ t.therm.shutHit = decide (v ≥ s.therm.shut) ∧
      t.therm.warnIn = countUp (decide (v ≥ s.therm.warn)) s.therm.warnIn 2 := by
  have hm : ((List.range 16).zip (List.replicate 16 (v, true)) ++ (rangeFrom 16 4).zip (List.replicate 4 (v, true))).map
      (fun e => (e.1, e.2.1, e.2.2)) = evenRead v := rfl
  have hfail : (evenRead v).foldl (fun x e => failSensor x (e.1, e.2.1, sensFail s (evenRead v) e.1 e.2.1 e.2.2)) s = s := by
    rw [evenRead, List.foldl_map, ← evenRead]
    exact List.foldl_fixed' (fun i => by simp [sensFail_evenRead, failSensor]) _
  have hrep : (evenRead v).map (fun e => (e.1, reported s (evenRead v) e.1 e.2.1, e.2.1)) =
      (List.range 20).map fun i => (i, v, v) := by
    have hok (i : Nat) : (sensor s i).failed = false := by simp [sensor, hsens, Tab.get]
    rw [evenRead, List.map_map]
    exact List.map_congr_left fun i _ => by simp [reported, hok]
  have htake : ((List.range 20).map fun i => (i, v, v)).foldl (fun x e => modSensor e.1 (fun y =>
      { y with temp := satI 16 e.2.1, raw := e.2.2, subst := y.failed }) x) s = (List.range 20).foldl (takeRead v) s := by
    rw [List.foldl_map]
    rfl
  have hfirst : ((List.range 20).map fun i => (i, v, v)).map (·.1) = List.range 20 := rfl
  obtain ⟨⟨tab, htab⟩, htemp⟩ := foldl_takeRead v (List.range 20) s
  have hsat : satI 16 v = v := by simp [satI]; omega
  have hhigh : hiReported ((List.range 20).foldl (takeRead v) s) (List.range 20) = some (v, 0) :=
    hiReported_even fun j hj => (htemp j hj).trans hsat
  refine ⟨_, rfl, ?_⟩
  simp only [hp, hc, hl, Bool.not_true, Bool.false_eq_true, if_false, Bool.and_self, if_true, hm, hfail, hrep, htake,
    hfirst, hhigh, id @settle_keep, countLevels, id @takeBands_keep]
  simp [htab]

/-! ## The levels -/

theorem thermalWarning_enters {s : State} (hoff : s.therm.warnOn = false) (hin : s.therm.warnIn ≥ 2) :
    completes .thermalWarning s fun t => t.therm.warnOn = true ∧ t.therm.warnOut = 0 :=
  ⟨_, rfl, by simp [hoff, hin, id @settle_keep, id @emit_keep]⟩

theorem thermalThrottle_enters {s : State} (hoff : s.therm.throtOn = false) (hin : s.therm.throtIn ≥ 2) :
    completes .thermalThrottle s fun t =>
      t.therm.throtOn = true ∧ t.therm.throtOut = 0 ∧ t.therm.throtAt = s.time.tns :=
  ⟨_, rfl, by simp [hoff, hin, throttleEnter, id @settle_keep, id @emit_keep]⟩

theorem thermalThrottleEnd_leaves {s : State} (hon : s.therm.throtOn = true) (hout : s.therm.throtOut ≥ 10)
    (hhold : s.therm.failHold = none) (hblind : s.therm.lBlind = false) :
    completes .thermalThrottleEnd s fun t => t.therm.throtOn = false ∧ t.therm.throtIn = 0 :=
  ⟨_, rfl, by simp [hon, hout, hhold, hblind, id @settle_keep, id @emit_keep]⟩

/-! ## The shutdown and the restart -/

theorem thermalShutdown_begins {s : State} (hhit : s.therm.shutHit = true) (hcore : s.sys.run.core = true)
    (hmay : shutMay s = true) :
    completes .thermalShutdown s fun t => t.therm.shutStep = 1 ∧ t.nv.refuse = true ∧ t.recd.gran.refuse = true ∧
      t.therm.lastSensor = (s.therm.hi.getD (0, 0)).2 ∧ t.pwr.pfVsup = none := by
  refine ⟨_, rfl, ?_⟩
  simp only [hhit, hcore, hmay, Bool.and_self, if_true, id @settle_keep, id @settle_recd, id @settle_pwr]
  simp [shutBegin]

/-- What the last step of a thermal shutdown switches off (R413 step 6, R414). -/
theorem shutEnd_thermal {s : State} (h : s.pwr.pfVsup = none) :
    (shutEnd s).pwr.state = .thermOff ∧ (shutEnd s).sys.run.core = false := by
  simp only [shutEnd, h, Option.isSome_none, Bool.false_eq_true, if_false]
  split
  · simp [id @emit_keep, coreOff]
  · simp [coreOff]

theorem shutdownRecordWritten_ends {main pin : Bool} {s : State} (hstep : s.therm.shutStep = 4)
    (hpf : s.pwr.pfVsup = none) :
    completes (.shutdownRecordWritten main pin) s fun t => t.pwr.state = .thermOff ∧ t.sys.run.core = false := by
  refine ⟨_, rfl, ?_⟩
  simp only [hstep, ne_eq, not_true, if_false, id @settle_pwr, id @settle_sys]
  exact shutEnd_thermal (by simpa only [id @cutProgram_keep] using hpf)

theorem thermalRestart_starts {s : State} (hstate : s.pwr.state = .thermOff) (hhold : s.pwr.pfHold = false)
    (hcool : s.therm.restartCnt ≥ 10) (hmay : s.therm.noRestart = false) :
    completes .thermalRestart s fun t => t.pwr.state = .run ∧ t.sys.cause = 1 ∧ t.sys.step = 2 ∧
      t.sys.bootStart = s.time.tns :=
  ⟨_, rfl, by simp [hstate, hhold, hcool, hmay, id @settle_pwr, id @settle_sys, id @emit_keep, bootBegin]⟩

/-- Settles O39: equal readings fail no sensor and the first is the highest of them; the levels follow their counts, and the
shutdown goes from its first step to the restart. -/
theorem thermalLevels : Obligations.ThermalLevels :=
  ⟨fun _ _ => thermalMeasurement_even, fun _ => thermalWarning_enters,
    fun s hon hout => by simp [exec, execThermalWarningEnd, hon, hout], fun _ => thermalThrottle_enters,
    fun _ => thermalThrottleEnd_leaves, fun x s hx ht => by simp [exec, execFailHoldExpiry, hx, ht],
    fun _ => thermalShutdown_begins, fun s h => ⟨_, rfl, by simp [h]⟩, fun _ _ _ => shutdownRecordWritten_ends,
    fun _ => thermalRestart_starts⟩

end Sys2Proof.Machine
end

section
/-! PROOFS. Writes of the ledger, NV and recorder controls (R442, R443, R446, R472, R475, R481): what each control word does,
that every changed object is queued by a flush, and the statement of them. -/

namespace Sys2Proof.Machine

/-! ## The words -/

theorem putReg_ledgCtrl (q : Req) (v : Word) (s : State) : putReg q 0x11004 v s = putLedg 0x1004 v s := by
  simp [putReg, putNvLedg]

theorem putReg_ledgNonce (q : Req) (hi : Bool) (v : Word) (s : State) :
    putReg q (if hi then 0x1100C else 0x11008) v s =
      nonceWritten (if hi then { s with ledg.nonceHi := v } else { s with ledg.nonceLo := v }) := by
  cases hi <;> simp [putReg, putNvLedg, putLedg]

theorem putReg_nvCtrl (q : Req) (v : Word) (s : State) :
    putReg q 0x10004 v s = if v.getLsbD 0 && s.sys.run.nv then nvFlush s else s := by
  simp [putReg, putNvLedg, putNv]

theorem putReg_recCtrl (q : Req) (v : Word) (s : State) : putReg q 0x12004 v s = putRecCtrl v s := by
  simp [putReg, putRecW, regIx]

theorem putReg_pinAck (q : Req) (v : Word) (s : State) : putReg q 0x12034 v s = pinAck v s := by
  simp [putReg, putRecW, regIx]

/-! ## The ledger -/

/-- A checkpoint holds the live counters and queues the ledger's object (R437). -/
theorem checkpoint_ledg (s : State) : (checkpoint s).ledg = { s.ledg with capture := some s.ledg.live } := by
  simp [checkpoint, id @nvQueue_keep]

theorem ledgStmt_starts {h : ReqHdr} {p : Bool} {s : State} (hf : freshWr h p s) (hrun : s.sys.run.ledger = true)
    (hkey : s.nv.keys.ledger.val ≠ []) (hnone : s.ledg.stmt = none) (hlong : ∀ x ∈ s.ledg.stmtAt, x + 100000000 ≤ s.time.tns) :
    completes (.ledgStmt h p) s fun t =>
      t.ledg.live.stmtSeq = (s.ledg.live.stmtSeq + 1) % 4294967296 ∧ t.ledg.stmtAt = some s.time.tns ∧
      t.ledg.ready = false ∧ t.ledg.gapStmt = s.ledg.live.gapNs ∧ t.ledg.stmt ≠ none := by
  have hchk : stmtChk (reqStart (wrOp p) h s) = 0 := by
    cases hat : s.ledg.stmtAt with
    | none => simp [stmtChk, id @reqStart_keep, hkey, hnone, hat]
    | some x =>
      have := hlong x (by simp [hat])
      simp [stmtChk, id @reqStart_keep, hkey, hnone, hat]
      omega
  refine completes_write noMeas 0x11004 (fun _ => 1) rfl hf (by decide) (by decide) (fun _ => by simp [reaches, wrWord])
    (by simp [chkWord, chkLedg, hchk]) fun r => ?_
  simp [wrWord, putReg_ledgCtrl, putLedg, id @reqStart_keep, hrun, stmtStart, checkpoint_ledg, id @settle_keep,
    id @answer_keep]

theorem ledgNonceWrite_writes {h : ReqHdr} {p hi : Bool} {v : Word} {s : State} (hf : freshWr h p s) :
    completes (.ledgNonceWrite h p hi v) s fun t =>
      t.ledg = if hi then { s.ledg with nonceHi := v, ready := false } else { s.ledg with nonceLo := v, ready := false } := by
  refine completes_write noMeas (if hi then 0x1100C else 0x11008) (fun _ => v) rfl hf (by cases hi <;> decide)
    (by cases hi <;> decide) (fun _ => by cases hi <;> simp [reaches]) (by cases hi <;> simp [chkWord, chkLedg])
    fun r => ?_
  rw [putReg_ledgNonce]
  cases hi <;> simp [wrWord, nonceWritten, id @reqStart_keep, id @settle_keep, id @answer_keep]

/-- Era 2 begins with a copy of the total (R442). -/
theorem eraForce_ledg {s : State} (h : s.ledg.live.era ≠ 2) :
    (eraForce s).ledg.live.era = 2 ∧ (eraForce s).ledg.live.era2Valid = true ∧
    (eraForce s).ledg.live.era2 = ctrOf s.ledg.live 4 := by
  simp [eraForce, eraAdvance, h, podAsk, checkpoint_ledg, id @emit_keep]

theorem ledgEraAdv_advances {h : ReqHdr} {s : State} (hf : freshWr h true s) (hrun : s.sys.run.ledger = true)
    (hera : s.ledg.live.era ≠ 2) :
    completes (.ledgEraAdv h true) s fun t => t.ledg.live.era = 2 ∧ t.ledg.live.era2Valid = true ∧
      t.ledg.live.era2 = ctrOf s.ledg.live 4 := by
  refine completes_write noMeas 0x11004 (fun _ => 2) rfl hf (by decide) (by decide) nofun
    (by simp [chkWord, chkLedg, wrWord]) fun r => ?_
  have e := eraForce_ledg (s := reqStart (wrOp true) h s) (by simpa only [id @reqStart_keep] using hera)
  simpa [wrWord, putReg_ledgCtrl, putLedg, hrun, id @settle_keep, id @answer_keep, id @reqStart_keep] using e

/-! ## Flushing the NV store -/

theorem mem_nvInsert {oid : Nat} {j : NvJob} {l : List NvJob} (h : oid ∈ l.map (·.oid)) :
    oid ∈ (nvInsert j l).map (·.oid) := by
  induction l with
  | nil => simp at h
  | cons k ks ih =>
    rw [nvInsert]
    split
    · exact List.mem_cons_of_mem _ h
    · rcases List.mem_cons.mp h with h | h
      · exact List.mem_cons.mpr (.inl h)
      · exact List.mem_cons_of_mem _ (ih h)

/-- A write that is queued stays queued when another joins it (R423). -/
theorem mem_nvQueue {oid : Nat} (o : Nat) {s : State} (h : oid ∈ s.nv.queue.map (·.oid)) :
    oid ∈ (nvQueue o s).nv.queue.map (·.oid) := by
  simp only [nvQueue]
  split
  · rw [List.map_map]
    refine (List.map_congr_left fun k _ => ?_) ▸ h
    simp only [Function.comp_apply]
    split <;> rfl
  · rw [nvStart_oids]
    change oid ∈ (match s.nv.queue with
      | k :: ks => if k.body.isSome then k :: nvInsert { oid := o } ks else nvInsert { oid := o } (k :: ks)
      | [] => [{ oid := o }]).map NvJob.oid
    split
    next k ks hq =>
      rw [hq] at h
      split
      · rcases List.mem_cons.mp h with h | h
        · exact List.mem_cons.mpr (.inl h)
        · exact List.mem_cons_of_mem _ (mem_nvInsert h)
      · exact mem_nvInsert h
    next hq => simp [hq] at h

/-- Every object of a list is queued once the list is. -/
theorem mem_foldl_nvQueue {oid : Nat} {l : List Nat} {s : State} (h : oid ∈ l ∨ oid ∈ s.nv.queue.map (·.oid)) :
    oid ∈ (l.foldl (fun s o => nvQueue o s) s).nv.queue.map (·.oid) := by
  induction l generalizing s with
  | nil => simpa using h
  | cons o l ih =>
    refine ih ?_
    rcases h with h | h
    · rcases List.mem_cons.mp h with rfl | h
      · exact .inr (by simpa using nvQueue_queues oid s)
      · exact .inl h
    · exact .inr (mem_nvQueue o h)

theorem mem_of_tabGet {α : Type} {d x : α} {t : Tab α} {i : Nat} (h : Tab.get d t i = x) (hx : x ≠ d) : (i, x) ∈ t := by
  induction t with
  | nil => exact absurd h.symm hx
  | cons e t ih =>
    obtain ⟨k, w⟩ := e
    rw [Tab.get] at h
    split at h
    next hk => simp [hk, h]
    · exact List.mem_cons_of_mem _ (ih h)

/-- A flush queues every changed object (R446). -/
theorem nvFlush_queues {oid : Nat} {s : State} (h : nvChanged s oid = true) :
    oid ∈ (nvFlush s).nv.queue.map (·.oid) := by
  refine mem_foldl_nvQueue (.inl ?_)
  by_cases h2 : oid = 2
  · simp [← h2, h]
  by_cases h6 : oid = 6
  · cases nvChanged s 2 <;> simp [h6]
  have hdirty : (nvObj s oid).dirty = true := by simpa [nvChanged, h2, h6] using h
  have hmem := mem_of_tabGet (d := {}) (x := nvObj s oid) rfl fun e => by simp [e] at hdirty
  refine List.mem_append_right _ (List.mem_filter.mpr ⟨List.mem_map.mpr ⟨_, List.mem_filter.mpr ⟨hmem, hdirty⟩, rfl⟩, ?_⟩)
  simp [h2, h6]

theorem nvFlush_flushes {h : ReqHdr} {p : Bool} {oid : Nat} {s : State} (hf : freshWr h p s)
    (hrun : s.sys.run.nv = true) (hch : nvChanged s oid = true) :
    completes (.nvFlush h p) s fun t => t.nv.queue.any (·.oid == oid) = true := by
  refine completes_write noMeas 0x10004 (fun _ => 1) rfl hf (by decide) (by decide) (fun _ => by simp [reaches])
    (by simp [chkWord]) fun r => ?_
  have hch' : nvChanged (reqStart (wrOp p) h s) oid = true := by rw [reqStart_eq]; exact hch
  simpa [wrWord, putReg_nvCtrl, id @reqStart_keep, hrun, id @settle_keep, id @answer_keep] using nvFlush_queues hch'

/-! ## The recorder -/

/-- A write of REC_CTRL, whose FORMAT alone is an RWP field (R481), completes with what its word does. -/
theorem completes_recCtrl {c : Instr} {h : ReqHdr} {p : Bool} {v : Word} {s : State} {P : State → Prop}
    (hx : exec c s = .next (regReq p h noMeas 0x12004 (fun _ => v) s)) (hf : freshWr h p s)
    (hv : p = false → v.getLsbD 2 = false)
    (hP : ∀ r, P (settle (answer (wrOp p) h.port h.tag r (putRecCtrl v (reqStart (wrOp p) h s))))) : completes c s P := by
  refine completes_write noMeas 0x12004 (fun _ => v) hx hf (by decide) (by decide)
    (fun hp => by simpa [reaches, reachRec, wrWord] using hv hp) (by simp [chkWord, chkRec]) fun r => ?_
  rw [putReg_recCtrl]
  exact hP r

theorem curOverrun_gran (s : State) : (curOverrun s).recd.gran = s.recd.gran :=
  foldl_keep (·.recd.gran) _ _ s fun t k => by dsimp only; split <;> rfl

theorem formatOverrun_gran (s : State) : (formatOverrun s).recd.gran = s.recd.gran :=
  foldl_keep (·.recd.gran) _ _ s fun t k => by dsimp only; split <;> rfl

/-- A formatted Granary starts with both its regions empty (R475). -/
theorem granFormat_gran (pin : Nat) (s : State) :
    (granFormat pin s).recd.gran.pinMib = pin ∧ (granFormat pin s).recd.gran.progSeq = s.recd.pub ∧
    (granFormat pin s).recd.gran.pinSeq = s.recd.pub ∧
    (granFormat pin s).recd.gran.pin = { n := blocksIn pin s.recd.gran.unit } := by
  simp [granFormat, id @emit_recd, formatOverrun_gran, granFresh, curOverrun_gran]

theorem recFormat_formats {h : ReqHdr} {s : State} (hf : freshWr h true s) (hrun : s.sys.run.recorder = true)
    (hgran : granRuns s = true) :
    completes (.recFormat h true) s fun t =>
      t.recd.gran.pinMib = s.recd.pinCfg ∧ t.recd.gran.progSeq = s.recd.pub ∧ t.recd.gran.pinSeq = s.recd.pub ∧
      t.recd.gran.pin = { n := blocksIn s.recd.pinCfg s.recd.gran.unit } := by
  refine completes_recCtrl (v := 4) rfl hf nofun fun r => ?_
  have hgran' : granRuns (reqStart (wrOp true) h s) = true := by rw [reqStart_eq]; exact hgran
  simpa [putRecCtrl, recFormat, hgran', hrun, id @settle_recd, id @answer_keep, id @reqStart_keep] using
    granFormat_gran s.recd.pinCfg (reqStart (wrOp true) h s)

theorem recPinAck_acks {h : ReqHdr} {p : Bool} {hi : Word} {s : State} (hf : freshWr h p s) :
    completes (.recPinAck h p hi) s fun t =>
      t.recd.ack = max s.recd.ack (hi.toNat % 65536 * 4294967296 + s.recd.ackLo.toNat) := by
  refine completes_write noMeas 0x12034 (fun _ => hi) rfl hf (by decide) (by decide)
    (fun _ => by simp [reaches, reachRec]) (by simp [chkWord, chkRec]) fun r => ?_
  simp only [wrWord, putReg_pinAck, pinAck, id @settle_recd, id @answer_keep, id @reqStart_keep]
  split
  · simpa using by omega
  · simpa [id @reqStart_keep] using by omega

/-- Settles O30: each control word does what its field says, and a flush queues every changed object. -/
theorem writesStores : Obligations.WritesStores := by
  refine ⟨fun _ _ _ => ledgStmt_starts, fun h p v s hf => by simpa using ledgNonceWrite_writes (hi := false) hf,
    fun h p v s hf => by simpa using ledgNonceWrite_writes (hi := true) hf, fun _ _ => ledgEraAdv_advances,
    fun _ _ _ _ => nvFlush_flushes, fun h p s hf hrun => ?_, fun h p s hf hrun => ?_, fun _ _ => recFormat_formats,
    fun _ _ _ _ => recPinAck_acks⟩
  · refine completes_recCtrl (v := 1) rfl hf (fun _ => by decide) fun r => ?_
    simp [putRecCtrl, chaffClear, hrun, id @settle_recd, id @answer_keep, id @reqStart_keep]
  · refine completes_recCtrl (v := 2) rfl hf (fun _ => by decide) fun r => ?_
    have hidle : granIdle (reqStart (wrOp p) h s) = granIdle s := by rw [reqStart_eq]; rfl
    simp [putRecCtrl, recFlush, hrun, hidle, id @settle_recd, id @answer_keep, id @reqStart_keep]

end Sys2Proof.Machine
end

section
/-! PROOFS. The ledger's and the pods' checkpoints, statements and tallies (R432, R437, R439, R443): what a flush makes of the
bins of every cell, what a pod's confirmation stores, and the statement of them. -/

namespace Sys2Proof.Machine

/-! ## One bit of a mask of strings -/

theorem getLsbD_setBit4 {i : Nat} (hi : i < 4) (w : BitVec 4) (v : Bool) (j : Nat) :
    (setBit4 w i v).getLsbD j = if j = i then v else w.getLsbD j := by
  have hone : (BitVec.ofNat 4 (2 ^ i)).getLsbD j = decide (i = j) := by
    rw [BitVec.getLsbD_ofNat, Nat.testBit_two_pow]
    by_cases h : i = j <;> simp [h]
    omega
  have hnot (h4 : ¬ j < 4) : w.getLsbD j = false := BitVec.getLsbD_of_ge w j (by omega)
  cases v with
  | false =>
    rw [setBit4, if_neg Bool.false_ne_true, BitVec.getLsbD_and, BitVec.getLsbD_not, hone]
    grind
  | true =>
    rw [setBit4, if_pos rfl, BitVec.getLsbD_or, hone]
    grind

/-! ## Ledger and pod checkpoints -/

theorem ledgerCheckpoint_captures {s : State} (hrun : s.sys.run.ledger = true) :
    completes .ledgerCheckpoint s fun t => t.ledg.capture = some s.ledg.live ∧ t.nv.queue.any (·.oid == 2) = true := by
  refine ⟨_, rfl, ?_⟩
  simp only [hrun, if_true, id @settle_keep, checkpoint_ledg, true_and]
  exact nvQueue_queues ..

theorem podCheckpoint_forms {i : Nat} {s : State} (hi : i < 4) (hconf : configured s i = true)
    (hown : s.ledg.podForeign.getLsbD i = false) (hrun : s.sys.run.ledger = true)
    (hwant : s.ledg.podWant.getLsbD i = true) (hfree : checkpointBusy s = false) :
    completes (.podCheckpoint i) s fun t =>
      t.ledg.podWant.getLsbD i = false ∧ Tab.get [] t.ledg.podRun i = podBlock s i := by
  have hfold (b : List Byte) (u : State) : ((stringNodes s i).foldl (fun s rp => pairWrite i b rp s) u).ledg = u.ledg :=
    foldl_keep (·.ledg) _ _ u fun t rp => by simp [id @pairWrite_keep]
  refine ⟨_, rfl, ?_⟩
  simp [hconf, hown, hrun, hwant, hfree, id @settle_keep, hfold, getLsbD_setBit4 hi]

theorem podCheckpoint_asks {i : Nat} {s : State} (hi : i < 4) (hconf : configured s i = true)
    (hown : s.ledg.podForeign.getLsbD i = false) (hrun : s.sys.run.ledger = true)
    (hwant : s.ledg.podWant.getLsbD i = false) (hdue : (podOf s.ledg.live i).thru ≥ 1000000) :
    completes (.podCheckpoint i) s fun t => t.ledg.podWant.getLsbD i = true := by
  refine ⟨_, rfl, ?_⟩
  simp [hconf, hown, hrun, hwant, hdue, id @settle_keep, podAsk, checkpoint_ledg, getLsbD_setBit4 hi]

/-- Of the ledger the end of an adoption changes POD_FOREIGN alone. -/
theorem adoptDone_ledg (i : Nat) (s : State) :
    (adoptDone i s).ledg.podRun = s.ledg.podRun ∧ (adoptDone i s).ledg.live = s.ledg.live := by
  unfold adoptDone
  split
  · exact ⟨rfl, rfl⟩
  · simp [id @emit_keep]

theorem podCheckpointConfirmed_stores {i : Nat} {s : State} (hblock : Tab.get [] s.ledg.podRun i ≠ [])
    (hok : ∀ rp ∈ stringNodes s i, (nodeOf s rp.1 rp.2).podOk = true) :
    completes (.podCheckpointConfirmed i) s fun t =>
      Tab.get [] t.ledg.podRun i = [] ∧ (podOf t.ledg.live i).thru = 0 ∧
      (podOf t.ledg.live i).cur = Tab.get [] s.ledg.podRun i := by
  have hall : ((stringNodes s i).all fun rp => (nodeOf s rp.1 rp.2).podOk) = true := List.all_eq_true.mpr hok
  refine ⟨_, rfl, ?_⟩
  simp [hall, List.isEmpty_iff, hblock, id @settle_keep, adoptDone_ledg, modPod, podOf]

/-! ## Statements -/

theorem length_le_bytes (n v : Nat) : (le n v).length = n := by
  induction n generalizing v with
  | zero => rfl
  | succ n ih => simp [le, ih]

/-- The number of the checkpoint, put into bytes 12 to 15 of a statement, leaves those from 16 on where they are (R444). -/
theorem drop_withSeq (b : List Byte) (n : Nat) : (b.take 12 ++ le 4 n ++ b.drop 16).drop 24 = b.drop 24 := by
  by_cases h : 12 ≤ b.length
  · have hlen : (b.take 12 ++ le 4 n).length = 16 := by simp [length_le_bytes]; omega
    rw [show 24 = 16 + 8 from rfl, ← List.drop_drop, List.drop_left' hlen, List.drop_drop]
  · rw [List.drop_of_length_le (by simp [length_le_bytes]; omega), List.drop_of_length_le (by omega)]

theorem statementReady_hands {b : List Byte} {s : State} (hstmt : s.ledg.stmt = some b) (hfree : checkpointBusy s = false)
    (hckpt : s.ledg.ckpt.stmtSeq = fld b 8 4) :
    exec .statementReady s = .next { s with
      ledg.stmt := none
      ledg.out := b.take 12 ++ le 4 s.ledg.ckptSeq ++ b.drop 16 ++
        hmac s.nv.keys.ledger.val (b.take 12 ++ le 4 s.ledg.ckptSeq ++ b.drop 16)
      ledg.ready := ((b.take 12 ++ le 4 s.ledg.ckptSeq ++ b.drop 16).drop 24).take 8 == nonceBytes s } := by
  rw [drop_withSeq]
  simp only [exec, execStatementReady, hstmt, hfree, hckpt, Bool.not_false, beq_self_eq_true, Bool.and_self, if_true]

/-! ## Flushing the bins -/

/-- The flush of one bin. -/
def flushBin (t : TCell) (b : Nat) : TCell :=
  { t with life := Tab.set 0 t.life b (sat 32 (Tab.get 0 t.life b + Tab.get 0 t.bins b))
           bins := Tab.set 0 t.bins b 0, binsPub := Tab.set 0 t.binsPub b 0 }

theorem flushBins_eq (lo n : Nat) (t : TCell) : flushBins lo n t = (rangeFrom lo n).foldl flushBin t := rfl

/-- Each bin of a list without repetitions is flushed once (R432). -/
theorem foldl_flushBin {l : List Nat} (hl : l.Nodup) (t : TCell) (b : Nat) :
    Tab.get 0 (l.foldl flushBin t).life b =
      (if b ∈ l then sat 32 (Tab.get 0 t.life b + Tab.get 0 t.bins b) else Tab.get 0 t.life b) ∧
    Tab.get 0 (l.foldl flushBin t).bins b = if b ∈ l then 0 else Tab.get 0 t.bins b := by
  induction l generalizing t with
  | nil => simp
  | cons a l ih =>
    obtain ⟨ha, hl⟩ := List.nodup_cons.mp hl
    obtain ⟨h1, h2⟩ := ih hl (flushBin t a)
    rw [List.foldl_cons, h1, h2]
    by_cases hb : b = a
    · subst hb
      simp [ha, flushBin]
    · simp [hb, flushBin]

theorem mem_rangeFrom {a n b : Nat} : b ∈ rangeFrom a n ↔ a ≤ b ∧ b < a + n := by
  simp only [rangeFrom, List.mem_map, List.mem_range]
  exact ⟨by rintro ⟨k, hk, rfl⟩; omega, fun h => ⟨b - a, by omega, by omega⟩⟩

theorem nodup_rangeFrom (a n : Nat) : (rangeFrom a n).Nodup :=
  List.nodup_range.map fun _ _ => Nat.add_right_cancel

theorem get_life_flushBins (lo n b : Nat) (t : TCell) :
    Tab.get 0 (flushBins lo n t).life b =
      if lo ≤ b ∧ b < lo + n then sat 32 (Tab.get 0 t.life b + Tab.get 0 t.bins b) else Tab.get 0 t.life b := by
  simp only [flushBins_eq, foldl_flushBin (nodup_rangeFrom lo n), mem_rangeFrom]

theorem get_bins_flushBins (lo n b : Nat) (t : TCell) :
    Tab.get 0 (flushBins lo n t).bins b = if lo ≤ b ∧ b < lo + n then 0 else Tab.get 0 t.bins b := by
  simp only [flushBins_eq, foldl_flushBin (nodup_rangeFrom lo n), mem_rangeFrom]

/-- A change made to every cell of a list without repetitions is made to each once. -/
theorem tCell_foldl_modTCell (g : Word → TCell → TCell) {l : List Nat} (hl : l.Nodup) (s : State) (c : Nat) :
    tCell (l.foldl (fun s c => modTCell s c (g s.time.frm)) s) c =
      if c ∈ l then g s.time.frm (tCell s c) else tCell s c := by
  induction l generalizing s with
  | nil => simp
  | cons a l ih =>
    obtain ⟨ha, hl⟩ := List.nodup_cons.mp hl
    rw [List.foldl_cons, ih hl]
    by_cases hc : c = a
    · subst hc
      simp [ha]
    · simp [hc, id @modTCell_keep]

theorem nodup_cells (s : State) : (cells s).Nodup := List.nodup_range.filter _

/-- What a flush of the bins of every cell leaves of a cell and of the histogram's object. -/
theorem flush_cells (g : Word → TCell → TCell) {s : State} {c : Nat} (hc : c ∈ cells s) :
    let t := nvDirty 7 true ((cells s).foldl (fun s c => modTCell s c (g s.time.frm)) { s with tally.pub := true })
    tCell t c = g s.time.frm (tCell s c) ∧ (nvObj t 7).dirty = true := by
  refine ⟨?_, by simp [nvDirty]⟩
  have e := tCell_foldl_modTCell g (nodup_cells s) { s with tally.pub := true } c
  rw [if_pos hc] at e
  exact e

/-- Settles O35: checkpoints capture the live ledger, confirmed pod blocks are stored, a statement carries its checkpoint, and
each bin is flushed once. -/
theorem ledgerCheckpoints : Obligations.LedgerCheckpoints := by
  refine ⟨fun _ => ledgerCheckpoint_captures, fun _ _ => podCheckpoint_forms, fun _ _ => podCheckpoint_asks,
    fun _ _ => podCheckpointConfirmed_stores, fun _ _ => statementReady_hands, fun c s hrun hc => ?_,
    fun c s hrun hc => ?_, fun b t hb => by simp [get_life_flushBins, hb],
    fun b t hlo hhi => by simp [get_life_flushBins, hlo, hhi], fun b t hlo => by simp [get_bins_flushBins, hlo]⟩
  · obtain ⟨hcell, hdirty⟩ := flush_cells (fun frm t => { flushBins 0 24 t with rfFrm := frm }) hc
    refine ⟨_, by simp [exec, execRainflowFlush, hrun], by rw [hcell], hdirty, fun b hb => ?_⟩
    rw [hcell]
    simp [get_bins_flushBins, hb]
  · obtain ⟨hcell, hdirty⟩ := flush_cells (fun frm t => { flushBins 24 16 t with dwFrm := frm }) hc
    refine ⟨_, by simp [exec, execDwellFlush, hrun], by rw [hcell], hdirty, fun b hb => ?_⟩
    rw [hcell]
    simp [get_bins_flushBins, Nat.not_le.mpr hb]

end Sys2Proof.Machine
end

section
/-! PROOFS. Admission, Chaff and publication (R455, R456, R457, R460, R461): what the rate limit takes, what leaves a staging
buffer, and the statement of them. -/

namespace Sys2Proof.Machine

/-! ## Admission -/

/-- The rate limit takes tokens and changes nothing else (R455). -/
theorem rateLimit_some {w : Wait} {s u : State} (h : rateLimit w s = some u) :
    ∃ tok n t, u = { s with recd.tok := tok, recd.aggTok := n, recd.aggAt := t } := by
  simp only [rateLimit, takeAgg, setAgg, setTok] at h
  split at h
  · exact ⟨_, _, _, (Option.some.inj h).symm⟩
  split at h
  · cases h
  split at h
  · exact ⟨_, _, _, (Option.some.inj h).symm⟩
  split at h
  · cases h
  · exact ⟨_, _, _, (Option.some.inj h).symm⟩

theorem seqResTo_recd (res : Nat) (s : State) :
    (seqResTo res s).recd.staging = s.recd.staging ∧ (seqResTo res s).recd.next = s.recd.next := by
  simp only [seqResTo, id @nvQueue_keep]
  split <;> simp [id @tbWrite_keep]

theorem keepRes_recd (s : State) : (keepRes s).recd.staging = s.recd.staging ∧ (keepRes s).recd.next = s.recd.next := by
  unfold keepRes
  split
  · exact seqResTo_recd ..
  · exact ⟨rfl, rfl⟩

/-- An admitted event stands in the last staging buffer with its SEQ (R456). -/
theorem takeIn_recd (w : Wait) (s : State) :
    (takeIn w s).recd.next = s.recd.next + 1 ∧ (takeIn w s).recd.staging = s.recd.staging ++ [recOf w s] := by
  simp [takeIn, keepRes_recd]

/-- The front event that is no DIGEST and joins none is taken as it stands. -/
theorem exec_eventAdmit {w : Wait} {rest : List Wait} {s : State} (hrun : s.sys.run.recorder = true)
    (hq : s.recd.produced = w :: rest) (hcode : w.ev.code ≠ 0x0980) (hdig : w.dig = false) :
    exec .eventAdmit s = .next (settle (takeFront w rest s)) := by
  simp [exec, execEventAdmit, hrun, hq, hcode, hdig]

theorem eventAdmit_admits {w : Wait} {rest : List Wait} {s u : State} (hrun : s.sys.run.recorder = true)
    (hq : s.recd.produced = w :: rest) (hcode : w.ev.code ≠ 0x0980) (hdig : w.dig = false) (hnew : w.since = none)
    (hlimit : rateLimit w s = some u) (hroom : roomFor u = true) :
    completes .eventAdmit s fun t => t.recd.next = s.recd.next + 1 ∧
      t.recd.staging = s.recd.staging ++ [recOf w s] := by
  refine ⟨_, exec_eventAdmit hrun hq hcode hdig, ?_⟩
  simp only [id @settle_recd, takeFront, hnew, Option.isSome_none, Bool.false_eq_true, if_false, hlimit, hroom, if_true,
    takeIn_recd]
  obtain ⟨tok, n, t, rfl⟩ := rateLimit_some hlimit
  exact ⟨rfl, rfl⟩

theorem eventAdmit_drops {w : Wait} {rest : List Wait} {s : State} (hrun : s.sys.run.recorder = true)
    (hq : s.recd.produced = w :: rest) (hcode : w.ev.code ≠ 0x0980) (hdig : w.dig = false) (hnew : w.since = none)
    (hlimit : rateLimit w s = none) :
    completes .eventAdmit s fun t => t.recd.next = s.recd.next ∧ t.recd.staging = s.recd.staging ∧
      Tab.get 0 t.recd.chaff w.ev.code = sat 32 (Tab.get 0 s.recd.chaff w.ev.code + 1) ∧
      t.recd.drop = sat 32 (s.recd.drop + 1) :=
  ⟨_, exec_eventAdmit hrun hq hcode hdig, by simp [id @settle_recd, takeFront, hnew, hlimit, toChaff]⟩

theorem admissionTimeout_drops {w : Wait} {rest : List Wait} {x : Nat} {s : State} (hq : s.recd.produced = w :: rest)
    (hwait : w.since = some x) (hsev : waitSev s w < 2) (hex : exempt w = false) (hlong : s.time.tns - x ≥ 100000) :
    completes .admissionTimeout s fun t => t.recd.produced = rest ∧
      Tab.get 0 t.recd.delta w.ev.code = sat 32 (Tab.get 0 s.recd.delta w.ev.code + 1) :=
  ⟨_, rfl, by simp [hq, hwait, hsev, hex, since, hlong, toChaff, setAgg, setTok]⟩

/-! ## Publication -/

/-- A record that is published is the newest, and leaves the staging buffers alone (R456). -/
theorem publish_recd (r : Rec) (s : State) :
    (publish r s).recd.pub = r.seq ∧ (publish r s).recd.staging = s.recd.staging := by
  have hover (u : State) : (curOverrun u).recd.pub = u.recd.pub ∧ (curOverrun u).recd.staging = u.recd.staging :=
    ⟨foldl_keep (·.recd.pub) _ _ u fun t k => by dsimp only; split <;> rfl,
      foldl_keep (·.recd.staging) _ _ u fun t k => by dsimp only; split <;> rfl⟩
  have hlag (lost : List Rec) (u : State) :
      (lagEvent lost u).recd.pub = u.recd.pub ∧ (lagEvent lost u).recd.staging = u.recd.staging := by
    unfold lagEvent
    split <;> simp [id @emit_recd]
  simp only [publish, id @eventFrames_keep]
  repeat' split
  all_goals simp [hover, hlag]

/-- The publish pointer stands before a record that is not complete. -/
theorem advance_of_waiting {s : State} (n : Nat) (h : ∀ r ∈ s.recd.staging.head?, r.done = false) : advance n s = s := by
  cases n with
  | zero => rfl
  | succ n => cases hs : s.recd.staging with
    | nil => simp [advance, hs]
    | cons r rest => simp [advance, hs, h r (by simp [hs])]

theorem recordComplete_publishes {q : BitVec 48} {r : Rec} {rest : List Rec} {s : State}
    (hst : s.recd.staging = r :: rest) (hseq : r.seq = q.toNat) (hother : ∀ x ∈ rest, x.seq ≠ q.toNat)
    (hwait : ∀ x ∈ rest, x.done = false) :
    completes (.recordComplete q) s fun t => t.recd.pub = r.seq ∧ t.recd.staging = rest := by
  have hmap : s.recd.staging.map (fun r => if r.seq = q.toNat then { r with done := true } else r) =
      { r with done := true } :: rest := by
    rw [hst, List.map_cons, if_pos hseq, List.map_congr_left fun x hx => if_neg (hother x hx), List.map_id']
  have hstop (n : Nat) (u : State) (hu : u.recd.staging = rest) : advance n u = u :=
    advance_of_waiting n fun x hx => hwait x (List.mem_of_mem_head? (hu ▸ hx))
  refine ⟨_, rfl, ?_⟩
  simp only [hmap, List.length_cons, advance, if_true, id @settle_recd]
  rw [hstop _ _ (by simp [publish_recd])]
  simp [publish_recd]

theorem recordComplete_waits {q : BitVec 48} {s : State}
    (h : ∀ r ∈ s.recd.staging.head?, r.seq ≠ q.toNat ∧ r.done = false) :
    completes (.recordComplete q) s fun t => t.recd.pub = s.recd.pub := by
  refine ⟨_, rfl, ?_⟩
  simp only [id @settle_recd]
  rw [advance_of_waiting]
  cases hst : s.recd.staging with
  | nil => simp
  | cons r rest => simp [h r (by simp [hst])]

/-! ## Chaff summary -/

theorem chaffSummary_clears {s : State} (hrun : s.sys.run.recorder = true)
    (hdue : s.time.tns / 10000000000 > s.recd.chaffAt / 10000000000) :
    completes .chaffSummary s fun t => t.recd.chaffAt = s.time.tns ∧ ∀ c, Tab.get 0 t.recd.delta c = 0 ∨
      (s.recd.delta.any fun e => e.2 != 0) = false := by
  have hfold (l : List (List Byte)) (u : State) :
      (l.foldl (fun s p => emit 0x0981 p s) u).recd.delta = u.recd.delta ∧
      (l.foldl (fun s p => emit 0x0981 p s) u).recd.chaffAt = u.recd.chaffAt :=
    ⟨foldl_keep (·.recd.delta) _ _ u fun t p => by simp [id @emit_recd],
      foldl_keep (·.recd.chaffAt) _ _ u fun t p => by simp [id @emit_recd]⟩
  refine ⟨_, rfl, ?_⟩
  cases hany : s.recd.delta.any fun e => e.2 != 0 <;>
    simp [hrun, hdue, nsPerSec, id @settle_recd, hfold, Tab.get]

/-- Settles O40: the rate limit takes nothing but tokens, a record leaves its buffer in order of SEQ, and a summary clears the
deltas that it publishes. -/
theorem recorderAdmits : Obligations.RecorderAdmits :=
  ⟨fun _ _ _ _ => eventAdmit_admits, fun _ _ _ => eventAdmit_drops, fun _ _ _ _ => admissionTimeout_drops,
    fun _ _ _ _ => recordComplete_publishes, fun _ _ => recordComplete_waits, fun _ => chaffSummary_clears⟩

end Sys2Proof.Machine
end

section
/-! PROOFS. The Granary (R471, R474): what a program, an erase and a failed operation make of their region, when it is
restarted, and the statement of them. -/

namespace Sys2Proof.Machine

/-! ## Regions and blocks -/

@[simp] theorem regionOf_setRegion (pin : Bool) (g : GRegion) (s : State) : regionOf (setRegion pin g s) pin = g := by
  cases pin <;> rfl

@[simp] theorem setRegion_retired (pin : Bool) (g : GRegion) (s : State) :
    (setRegion pin g s).recd.gran.retired = s.recd.gran.retired := by
  cases pin <;> rfl

@[simp] theorem blockOf_modBlock (b : Nat) (f : GBlock → GBlock) (g : GRegion) :
    blockOf (modBlock b f g) b = f (blockOf g b) := by
  simp [blockOf, modBlock]

theorem regionOf_congr {s t : State} (h : t.recd.gran = s.recd.gran) (pin : Bool) : regionOf t pin = regionOf s pin := by
  simp [regionOf, h]

theorem putRec_pos (s : State) (b : Nat) (enter : Bool) (r : Rec) (g : GRegion) : (putRec s b enter r g).pos = some b := rfl

/-! ## Programs -/

theorem granaryProgramDone_main {cs addr b : Nat} {r : Rec} {enter : Bool} {s : State} (htakes : granTakes s = true)
    (hnext : nextProg s false = some r) (hblock : progBlock s (regionOf s false) r = some (b, enter)) :
    completes (.granaryProgramDone false false cs addr) s fun t =>
      t.recd.gran.progSeq = r.seq ∧ t.recd.gran.main.pos = some b ∧ t.recd.gran.retired = s.recd.gran.retired :=
  ⟨_, rfl, by simp [htakes, hnext, hblock, id @settle_recd, markProg, setRegion, putRec_pos]⟩

theorem granaryProgramDone_pin {cs addr b : Nat} {r : Rec} {enter : Bool} {s : State} (htakes : granTakes s = true)
    (hnext : nextProg s true = some r) (hblock : progBlock s (regionOf s true) r = some (b, enter)) :
    completes (.granaryProgramDone true false cs addr) s fun t =>
      t.recd.gran.pinSeq = r.seq ∧ t.recd.gran.pin.pos = some b ∧ t.recd.gran.progSeq = s.recd.gran.progSeq :=
  ⟨_, rfl, by simp [htakes, hnext, hblock, id @settle_recd, markProg, setRegion, putRec_pos]⟩

theorem granaryProgramDone_fails {p enter : Bool} {cs addr b : Nat} {r : Rec} {s : State} (htakes : granTakes s = true)
    (hnext : nextProg s p = some r) (hblock : progBlock s (regionOf s p) r = some (b, enter)) :
    settlesTo (.granaryProgramDone p true cs addr) s (granFail p b 2 cs addr s) := by
  simp [settlesTo, exec, execGranaryProgramDone, htakes, hnext, hblock]

/-! ## Erases -/

theorem pinOverrun_gran (b : GBlock) (s : State) : (pinOverrun b s).recd.gran = s.recd.gran :=
  foldl_keep (·.recd.gran) _ _ s fun t k => by dsimp only; split <;> rfl

/-- An erased block holds no record (R471). -/
theorem eraseBlock_block (p : Bool) (b : Nat) (s : State) :
    blockOf (regionOf (eraseBlock p b s) p) b = { erased := true } := by
  cases p with
  | false =>
    simp only [eraseBlock, Bool.false_eq_true, if_false]
    rw [regionOf_congr (curOverrun_gran _), regionOf_setRegion, blockOf_modBlock]
  | true =>
    simp only [eraseBlock, if_true]
    rw [regionOf_congr (pinOverrun_gran _ _), regionOf_setRegion, blockOf_modBlock]

theorem granaryEraseDone_erases {p : Bool} {cs addr b : Nat} {s : State} (hon : granOn s = true)
    (hahead : (aheadTwo (regionOf s p)).find? (fun b => !(blockOf (regionOf s p) b).erased) = some b) :
    completes (.granaryEraseDone p false cs addr) s fun t => (blockOf (regionOf t p) b).erased = true ∧
      (blockOf (regionOf t p) b).recs = [] := by
  refine ⟨settle (eraseBlock p b s), by simp [exec, execGranaryEraseDone, hon, hahead], ?_⟩
  have hgran : (settle (eraseBlock p b s)).recd.gran = (eraseBlock p b s).recd.gran := by simp only [id @settle_recd]
  simp only [regionOf_congr hgran, eraseBlock_block, and_self]

/-! ## Failures and restarts -/

/-- A failed operation retires its block and counts it (R474). -/
theorem granFail_retires (p : Bool) (b op cs addr : Nat) (s : State) :
    (blockOf (regionOf (granFail p b op cs addr s) p) b).retired = true ∧
    (granFail p b op cs addr s).recd.gran.retired = sat 16 (s.recd.gran.retired + 1) := by
  have hlost (u : State) : regionOf (granLost u) p = regionOf u p ∧ (granLost u).recd.gran.retired = u.recd.gran.retired := by
    cases p <;> exact ⟨rfl, rfl⟩
  have hretired (g : GRegion) (n : Nat) (pay : List Byte) :
      regionOf (emit 0x0983 pay { setRegion p g s with recd.gran.retired := n }) p = g := by
    have hemit (u : State) : (emit 0x0983 pay u).recd.gran = u.recd.gran := by simp only [id @emit_recd]
    rw [regionOf_congr (hemit _)]
    cases p <;> rfl
  simp only [granFail]
  split <;> simp [hlost, hretired, id @emit_recd]

theorem granaryTimeout_fails {p : Bool} {cs addr b : Nat} {s : State} (hon : granOn s = true)
    (hahead : (aheadTwo (regionOf s p)).find? (fun b => !(blockOf (regionOf s p) b).erased) = some b) :
    settlesTo (.granaryTimeout p cs addr) s (granFail p b 4 cs addr s) := by
  simp [settlesTo, exec, execGranaryTimeout, hon, hahead]

theorem granaryRestart_retries {x : Nat} {s : State} (hat : s.recd.gran.retryAt = some x)
    (hrun : s.sys.run.granary = true) (hstate : s.recd.gran.state = .notResp) (hdue : s.time.tns ≥ x) :
    completes (.granaryRestart false) s fun t => t.recd.gran.state = .notResp ∧
      t.recd.gran.retryAt = some (x + 10000000000) :=
  ⟨_, rfl, by simp [hat, hrun, hstate, hdue, id @settle_recd, nsPerSec]⟩

theorem granaryRestart_runs {x : Nat} {s : State} (hat : s.recd.gran.retryAt = some x)
    (hrun : s.sys.run.granary = true) (hstate : s.recd.gran.state = .notResp) (hdue : s.time.tns ≥ x)
    (hvfl : vflOk s = true) :
    completes (.granaryRestart true) s fun t => t.recd.gran.state = .running ∧ t.recd.gran.retryAt = none := by
  refine ⟨_, rfl, ?_⟩
  simp only [hat, hrun, hstate, hdue, hvfl, beq_self_eq_true, decide_true, Bool.and_self, if_true, id @settle_recd]
  split
  · split <;> simp [id @emit_recd]
  · simp [id @emit_recd]

/-- Settles O41: programs, erases and failures change the block that they are of, and a Granary that does not respond is
tried again. -/
theorem granaryWorks : Obligations.GranaryWorks :=
  ⟨fun _ _ _ _ _ _ => granaryProgramDone_main, fun _ _ _ _ _ _ => granaryProgramDone_pin,
    fun _ _ _ _ _ _ _ => granaryProgramDone_fails, fun _ _ _ _ _ => granaryEraseDone_erases,
    fun _ _ _ _ _ => granaryTimeout_fails, granFail_retires, fun _ _ => granaryRestart_retries,
    fun _ _ => granaryRestart_runs⟩

end Sys2Proof.Machine
end

section
/-! PROOFS. The presence windows and the seal loop (R520, R522, R523, R524): what a release of the button opens, what closes a
window, and the statement of them. -/

namespace Sys2Proof.Machine

/-! ## The button -/

theorem presBtnPress_times {s : State} (hup : s.pins.btn = false) (hrun : s.sys.run.trust = true)
    (hheed : s.sec.ignore = false) :
    exec (.presBtnPress true true true) s = .next { s with
      pins.btn := true, sec.relAt := none, sec.pressAt := some s.time.tns } := by
  simp [exec, execPresBtnPress, hup, hrun, hheed]

theorem settlePins_btn (s : State) : (settlePins s).pins.btn = s.pins.btn := by
  have e : (settlePins s).pins.held = s.pins.held := by simp [id @settlePins_keep]
  exact (Pins.of_held e).2

/-- A release after 0.5 to 5 s opens the button window, another none (R520). -/
theorem presRelease_sec (d : Nat) (s : State) :
    (presRelease d s).pins.btn = s.pins.btn ∧ (presRelease d s).sec.pressAt = s.sec.pressAt ∧
    (presRelease d s).sec.strap = s.sec.strap ∧
    (presRelease d s).sec.btn =
      if 500000000 ≤ d ∧ d ≤ 5000000000 then some (s.time.tns + 120000000000) else s.sec.btn := by
  simp only [presRelease, nsPerSec]
  split <;> simp_all [presStart, id @emit_keep, nsPerSec]

theorem presBtnRelease_takes {x : Nat} {s : State} (hdown : s.pins.btn = true) (hrun : s.sys.run.trust = true)
    (hpress : s.sec.pressAt = some x) :
    completes (.presBtnRelease false false false) s fun t => t.pins.btn = false ∧ t.sec.pressAt = none ∧
      t.sec.strap = s.sec.strap ∧
      t.sec.btn = if 500000000 ≤ s.time.tns - x ∧ s.time.tns - x ≤ 5000000000 then some (s.time.tns + 120000000000)
        else s.sec.btn :=
  ⟨_, rfl, by simp [hdown, hrun, hpress, settlePins_btn, id @settlePins_keep, presRelease_sec]⟩

theorem presStuck_ignores {x : Nat} {s : State} (hpress : s.sec.pressAt = some x) (hrun : s.sys.run.trust = true)
    (hlong : s.time.tns > x + 10000000000) :
    completes .presStuck s fun t => t.sec.stuck = true ∧ t.sec.ignore = true ∧ t.sec.pressAt = none :=
  ⟨_, rfl, by simp [hpress, hrun, hlong, nsPerSec, id @settle_keep, id @emit_keep]⟩

theorem presStuckClear_heeds {x : Nat} {s : State} (hrel : s.sec.relAt = some x) (hrun : s.sys.run.trust = true)
    (hign : s.sec.ignore = true) (hup : s.pins.btn = false) (hlong : s.time.tns ≥ x + 1000000000) :
    exec .presStuckClear s = .next { s with sec.ignore := false, sec.stuck := false, sec.relAt := none } := by
  simp [exec, execPresStuckClear, hrel, hrun, hign, hup, nsPerSec, hlong]

/-! ## Windows that run out -/

theorem presenceExpiry_btn {e : Nat} {s : State} (hrun : s.sys.run.trust = true) (hbtn : s.sec.btn = some e)
    (hout : e ≤ s.time.tns) :
    completes (.presenceExpiry false) s fun t => t.sec.btn = none ∧ t.sec.strap = s.sec.strap := by
  refine ⟨_, rfl, ?_⟩
  simp [hrun, hbtn, ranOut, hout, id @settle_keep, id @emitIf_keep]

theorem presenceExpiry_strap {e : Nat} {s : State} (hrun : s.sys.run.trust = true) (hstrap : s.sec.strap = some e)
    (hout : e ≤ s.time.tns) :
    completes (.presenceExpiry true) s fun t => t.sec.strap = none ∧ t.sec.btn = s.sec.btn := by
  refine ⟨_, rfl, ?_⟩
  simp [hrun, hstrap, ranOut, hout, id @settle_keep, id @emitIf_keep]

/-! ## The seal loop -/

theorem sealBreak_counts {s : State} (hrun : s.sys.run.trust = true) (hclosed : s.sec.sealOpen = false) :
    completes (.sealBreak false false false) s fun t => t.sec.sealOpen = true ∧ t.nv.keys.sealOpen = true ∧
      t.nv.keys.tamper = sat 32 (s.nv.keys.tamper + 1) :=
  ⟨_, rfl, by simp [hrun, hclosed, sealBreak, id @settle_keep, id @emit_keep]⟩

theorem sealRestored_closes {s : State} (hrun : s.sys.run.trust = true) (hopen : s.sec.sealOpen = true) :
    completes (.sealRestored true true true) s fun t => t.sec.sealOpen = false ∧ t.nv.keys.sealOpen = false ∧
      t.nv.keys.tamper = s.nv.keys.tamper :=
  ⟨_, rfl, by simp [hrun, hopen, sealClose, id @settle_keep, id @emit_keep]⟩

/-- Settles O42: the length of a press decides what its release opens, a window closes when it has run out, and the seal loop's
state is stored with the count of its breaks. -/
theorem presenceAndSeal : Obligations.PresenceAndSeal := by
  refine ⟨fun _ => presBtnPress_times, fun x s hdown hrun hpress hlo hhi => ?_, fun x s hdown hrun hpress hother => ?_,
    fun _ _ => presStuck_ignores, fun _ _ => presStuckClear_heeds, fun _ _ => presenceExpiry_btn,
    fun _ _ => presenceExpiry_strap, fun _ => sealBreak_counts, fun _ => sealRestored_closes⟩
  · obtain ⟨t, ht, hup, hat, hstrap, hbtn⟩ := presBtnRelease_takes hdown hrun hpress
    exact ⟨t, ht, hup, hat, by rw [hbtn, if_pos ⟨hlo, hhi⟩], hstrap⟩
  · obtain ⟨t, ht, hup, hat, -, hbtn⟩ := presBtnRelease_takes hdown hrun hpress
    exact ⟨t, ht, hup, hat, by rw [hbtn, if_neg (by omega)]⟩

end Sys2Proof.Machine
end

section
/-! PROOFS. Writes of the host, trust, event and power registers (R514, R522, R533, R542, R563, R564, R588, R589, R590): what a
request and its answer leave of the host link, how a bit of PWR_CTRL is obeyed, and the statement of the words. -/

namespace Sys2Proof.Machine

/-! ## What requests and answers leave of the host link -/

theorem countReply_host (r : Reply) (s : State) :
    (countReply r s).host.budT1s = s.host.budT1s ∧ (countReply r s).host.budCan = s.host.budCan ∧
    (countReply r s).host.str = s.host.str ∧ (countReply r s).host.ports = s.host.ports := by
  unfold countReply
  split <;> exact ⟨rfl, rfl, rfl, rfl⟩

/-- An answer leaves the budgets and the streams as they are. -/
theorem answer_host (op : Nat) (p : Port) (tag : BitVec 16) (r : Reply) (s : State) :
    (answer op p tag r s).host.budT1s = s.host.budT1s ∧ (answer op p tag r s).host.budCan = s.host.budCan ∧
    (answer op p tag r s).host.str = s.host.str := by
  unfold answer
  split
  · exact ⟨rfl, rfl, rfl⟩
  · simp [id @settlePins_keep, txPush, modPort, id @countReply_host]

@[simp] theorem portLoad_reqStart (op : Nat) (h : ReqHdr) (s : State) (p : Port) :
    portLoad (reqStart op h s) p = portLoad s p := by
  have hstr : (reqStart op h s).host.str = s.host.str := by simp only [id @reqStart_host]
  rw [reqStart_eq]
  simp only [portLoad, portStreams, hstr]
  rfl

@[simp] theorem allOpen_reqStart (op : Nat) (h : ReqHdr) (s : State) : allOpen (reqStart op h s) = allOpen s := by
  rw [reqStart_eq]
  rfl

/-- A write that is answered completes with what every answered effect has. -/
theorem writes.completes {h : ReqHdr} {p : Bool} {c : Instr} {s u : State} {P : State → Prop} (hw : writes h p c s u)
    (hP : ∀ r, P (settle (answer (wrOp p) h.port h.tag r u))) : completes c s P := by
  obtain ⟨r, hr⟩ := hw
  exact ⟨_, hr, hP r⟩

/-! ## HOST_BUDGET -/

theorem bits_append_hi (a b : BitVec 16) : bits (a ++ b) 31 16 = a.toNat := by
  have := a.isLt
  have := b.isLt
  simp only [bits, BitVec.toNat_append, Nat.shiftLeft_eq]
  rw [Nat.mul_comm, ← Nat.two_pow_add_eq_or_of_lt b.isLt]
  omega

theorem bits_append_lo (a b : BitVec 16) : bits (a ++ b) 15 0 = b.toNat := by
  have := b.isLt
  simp only [bits, BitVec.toNat_append, Nat.shiftLeft_eq]
  rw [Nat.mul_comm, ← Nat.two_pow_add_eq_or_of_lt b.isLt]
  omega

theorem hostBudgetWrite_takes {h : ReqHdr} {p : Bool} {t1s can : BitVec 16} {s : State} (hf : freshWr h p s)
    (ht0 : 1 ≤ t1s.toNat) (ht1 : t1s.toNat ≤ 8000) (hc0 : 1 ≤ can.toNat) (hc1 : can.toNat ≤ 2000)
    (htl : portLoad s .t1s ≤ (t1s.toNat : Rat)) (hcl : portLoad s .can ≤ (can.toNat : Rat)) :
    completes (.hostBudgetWrite h p t1s can) s fun t => t.host.budT1s = t1s.toNat ∧ t.host.budCan = can.toNat := by
  refine completes_write noMeas 0x13008 (fun _ => t1s ++ can) rfl hf (by decide) (by decide) (fun _ => by simp [reaches])
    ?_ fun r => ?_
  · have hin : ¬ (t1s.toNat = 0 ∨ t1s.toNat > 8000 ∨ can.toNat = 0 ∨ can.toNat > 2000) := by omega
    have hload : ¬ ((t1s.toNat : Rat) < portLoad s .t1s ∨ (can.toNat : Rat) < portLoad s .can) :=
      not_or.mpr ⟨not_lt.mpr htl, not_lt.mpr hcl⟩
    simp only [chkWord, wrWord, chkHost, bits_append_hi, bits_append_lo, portLoad_reqStart, if_neg hin, if_neg hload]
    rfl
  · simp [putReg, putHost, wrWord, bits_append_hi, bits_append_lo, id @settle_keep, id @answer_host]

/-! ## Trust -/

theorem presClose_closes {h : ReqHdr} {p : Bool} {s : State} (hf : freshWr h p s) (hrun : s.sys.run.trust = true) :
    completes (.presClose h p) s fun t => t.sec.btn = none ∧ t.sec.strap = none := by
  have hclose (u : State) : (presClose u).sec.btn = none ∧ (presClose u).sec.strap = none := by
    unfold presClose
    split
    next hnone => simpa [presNone] using hnone
    · simp [id @emit_keep]
  refine completes_write noMeas 0x14004 (fun _ => 1) rfl hf (by decide) (by decide) (fun _ => by simp [reaches])
    (by simp [chkWord]) fun r => ?_
  simp [putReg, putSec, wrWord, id @reqStart_keep, hrun, hclose, id @settle_keep, id @answer_keep]

/-- The strings whose bits are set in the mask of SEC_ADOPT (R536). -/
theorem testBit_adoptMask (m : BitVec 4) (i : Nat) : (bits (m.setWidth 32) 3 0).testBit i = m.getLsbD i := by
  have hm := m.isLt
  have hbits : bits (m.setWidth 32) 3 0 = m.toNat := by
    simp only [bits, BitVec.toNat_setWidth]
    omega
  rw [hbits, BitVec.getLsbD]

theorem secAdopt_asks {h : ReqHdr} {m : BitVec 4} {s : State} (hf : freshWr h true s) (hrun : s.sys.run.trust = true) :
    writes h true (.secAdopt h true m) s
      (((List.range 4).filter fun i => m.getLsbD i).foldl (fun s i => adoptOne i s) (wrStart h true s)) := by
  refine writes_intro noMeas 0x14008 (fun _ => m.setWidth 32) rfl hf (by decide) (by decide) nofun (by simp [chkWord]) ?_
  have hmask : (List.range 4).filter (bits (m.setWidth 32) 3 0).testBit = (List.range 4).filter fun i => m.getLsbD i :=
    List.filter_congr fun i _ => testBit_adoptMask m i
  simp [putReg, putSec, wrWord, wrOp, id @reqStart_keep, hrun, secAdopt, hmask, wrStart]

theorem adoptOne_adopts {i : Nat} {s : State} (h : adoptChk s i = 0) :
    (adoptOne i s).ledg.live.adoptCount = (s.ledg.live.adoptCount + 1) % 4294967296 ∧
    (adoptOne i s).ledg.podWant.getLsbD i = (decide (i < 4) || s.ledg.podWant.getLsbD i) := by
  simp only [adoptOne, h, bne_self_eq_false, Bool.false_eq_true, if_false, podAsk, checkpoint_ledg, true_and,
    BitVec.getLsbD_or]
  by_cases hi : i < 4
  · simp [getLsbD_setBit4 hi, hi]
  · simp [hi, BitVec.getLsbD_of_ge (setBit4 0#4 i true) i (by omega)]

theorem adoptOne_refuses {i : Nat} {s : State} (h : adoptChk s i ≠ 0) :
    adoptOne i s = { s with sec.adResult := adoptChk s i, sec.adString := i } := by
  simp [adoptOne, h]

/-! ## Events -/

theorem regIx_word {base n : Nat} (i : Fin n) : regIx base 4 n (base + 4 * i.val) = some i.val := by
  have := i.isLt
  have hin : base + 4 * i.val ≥ base ∧ base + 4 * i.val < base + 4 * n ∧ (base + 4 * i.val - base) % 4 = 0 := by omega
  rw [regIx, if_pos hin]
  exact congrArg some (by omega)

theorem regIx_below {base step n off : Nat} (h : off < base) : regIx base step n off = none :=
  if_neg fun hin => by omega

theorem regIx_above {base step n off : Nat} (h : base + step * n ≤ off) : regIx base step n off = none :=
  if_neg fun hin => by omega

theorem evtPendClear_clears {h : ReqHdr} {p : Bool} {i : Fin 4} {v : Word} {s : State} (hf : freshWr h p s) :
    writes h p (.evtPendClear h p i v) s { wrStart h p s with
      evt.pend := s.evt.pend &&& ~~~(v.setWidth 128 <<< (32 * i.val)) } := by
  have hi := i.isLt
  have hoff : (0x1000 + 4 * i.val) % 4096 = 0 + 4 * i.val := by omega
  have hwin : (0x1000 + 4 * i.val) / 4096 = 1 := by omega
  refine writes_intro noMeas (0x1000 + 4 * i.val) (fun _ => v) rfl hf (by omega) (by omega)
    (fun _ => by simp only [reaches, hwin]) ?_ ?_
  · simp only [chkWord, hwin, hoff, chkEvt, regIx_below (base := 0x020) (off := 0 + 4 * i.val) (by omega)]
  · simp only [putReg, hwin, hoff, putEvt, regIx_word, wrWord, id @reqStart_keep, wrStart]
    rfl

/-- A bit of a wide register after one of its words is put. -/
theorem getLsbD_putWord {i : Nat} (hi : i < 8) (v : Word) (w : BitVec 256) (b : Nat) :
    (putWord i v w).getLsbD b = if b / 32 = i then v.getLsbD (b % 32) else w.getLsbD b := by
  have hones : (0xFFFFFFFF : BitVec 32) = BitVec.allOnes 32 := rfl
  simp only [putWord, hones, BitVec.getLsbD_or, BitVec.getLsbD_and, BitVec.getLsbD_not, BitVec.getLsbD_shiftLeft,
    BitVec.getLsbD_setWidth, BitVec.getLsbD_allOnes]
  by_cases h : b / 32 = i
  · have hlo : 32 * i ≤ b := by omega
    have hmod : b - 32 * i = b % 32 := by omega
    simp [h, hmod, show b < 256 by omega, show b % 32 < 256 by omega, Nat.mod_lt, Nat.not_lt.mpr hlo]
  · have hout : b < 32 * i ∨ 32 ≤ b - 32 * i := by omega
    by_cases hb : b < 256
    · rcases hout with hout | hout
      · simp [h, hb, hout]
      · simp [h, hb, Nat.not_lt.mpr hout, BitVec.getLsbD_of_ge v _ hout]
    · simp [h, hb, BitVec.getLsbD_of_ge w b (by omega)]

theorem evtIrqmapWrite_stores {h : ReqHdr} {p : Bool} {i : Fin 8} {v : Word} {s : State} (hf : freshWr h p s)
    (hv : ∀ k < 16, bits v (2 * k + 1) (2 * k) ≠ 3) :
    completes (.evtIrqmapWrite h p i v) s fun t =>
      ∀ b, t.evt.irqmap.getLsbD b = if b / 32 = i.val then v.getLsbD (b % 32) else s.evt.irqmap.getLsbD b := by
  have hi := i.isLt
  have hoff : (0x1020 + 4 * i.val) % 4096 = 0x020 + 4 * i.val := by omega
  have hwin : (0x1020 + 4 * i.val) / 4096 = 1 := by omega
  refine completes_write noMeas (0x1020 + 4 * i.val) (fun _ => v) rfl hf (by omega) (by omega)
    (fun _ => by simp only [reaches, hwin]) ?_ fun r b => ?_
  · simp only [chkWord, hwin, hoff, chkEvt, regIx_word, wrWord]
    refine if_neg fun hany => ?_
    obtain ⟨k, hk, hbad⟩ := List.any_eq_true.mp hany
    exact hv k (List.mem_range.mp hk) (of_decide_eq_true hbad)
  · have hpend : regIx 0x000 4 4 (0x020 + 4 * i.val) = none := regIx_above (by omega)
    simp only [putReg, hwin, hoff, putEvt, hpend, regIx_word, wrWord, id @settle_evt, id @answer_keep, id @reqStart_keep]
    simpa using getLsbD_putWord hi v s.evt.irqmap b

theorem evtS3Ack_ends {h : ReqHdr} {p : Bool} {s : State} (hf : freshWr h p s) :
    completes (.evtS3Ack h p) s fun t => t.evt.s3Ledg = false ∧ t.evt.s3Brk = s.evt.s3Brk := by
  refine completes_write noMeas 0x1064 (fun _ => 1) rfl hf (by decide) (by decide) (fun _ => by simp [reaches])
    (by simp [chkWord, chkEvt, regIx]) fun r => ?_
  simp [putReg, putEvt, regIx, wrWord, id @settle_evt, id @answer_keep, id @reqStart_keep]

/-! ## Power -/

/-- Capturing an object leaves the key material alone. -/
theorem nvQueue_keys (oid : Nat) (s : State) : (nvQueue oid s).nv.keys = s.nv.keys := by
  have htaken (u : State) (o : Nat) : (nvTaken o u).nv.keys = u.nv.keys := by
    unfold nvTaken
    repeat' split
    all_goals rfl
  have hstart (u : State) : (nvStart u).nv.keys = u.nv.keys := by
    unfold nvStart
    repeat' split
    all_goals simp [htaken, setNvObj]
  simp only [nvQueue]
  split
  · rfl
  · exact hstart _

theorem pwrCfgPut_stores (sleep level : Nat) (s : State) :
    (pwrCfgPut sleep level s).pwr.autoSleep = sleep ∧ (pwrCfgPut sleep level s).nv.keys.pfwLevel = level ∧
    if level = s.nv.keys.pfwLevel then (pwrCfgPut sleep level s).pwr.armed = s.pwr.armed
    else (pwrCfgPut sleep level s).pwr.pfw = 0 ∧ (pwrCfgPut sleep level s).pwr.armed = decide (level = 0) := by
  have hzero : (level == 0) = decide (level = 0) := rfl
  by_cases hs : sleep = s.pwr.autoSleep <;> by_cases hl : level = s.nv.keys.pfwLevel <;>
    simp [pwrCfgPut, hs, hl, nvQueue_keys, id @nvQueue_keep, hzero]

theorem completes_pwrCfgWrite {h : ReqHdr} {p : Bool} {v : Word} {s : State} {P : State → Prop} (hf : freshWr h p s)
    (hopen : allOpen s = true)
    (hP : ∀ r, P (settle (answer (wrOp p) h.port h.tag r (pwrCfgPut (bits v 15 8) (bits v 1 0) (reqStart (wrOp p) h s))))) :
    completes (.pwrCfgWrite h p v) s P := by
  refine completes_write noMeas 0x2008 (fun _ => v) rfl hf (by decide) (by decide) (fun _ => by simp [reaches])
    (by simp [chkWord, chkPwr, hopen]) fun r => ?_
  simpa [putReg, putPwr, wrWord] using hP r

@[simp] theorem pwrChk_reqStart (b op : Nat) (h : ReqHdr) (s : State) : pwrChk b (reqStart op h s) = pwrChk b s := by
  rw [reqStart_eq]
  rfl

@[simp] theorem bistBusy_reqStart (op : Nat) (h : ReqHdr) (s : State) : bistBusy (reqStart op h s) = bistBusy s := by
  rw [reqStart_eq]
  rfl

/-- A request bit of PWR_CTRL that its check does not refuse is answered and obeyed, unless a self-test must be restored
first (R563, R573). -/
theorem writes_pwrCtrl {c : Instr} {h : ReqHdr} {p : Bool} {v : Word} {b : Nat} {s : State}
    (hx : exec c s = .next (regReq p h noMeas 0x2004 (fun _ => v) s))
    (hv : (List.range 6).filter ((v &&& 0x3F).getLsbD ·) = [b]) (hf : freshWr h p s) (hchk : pwrChk b s = 0) :
    writes h p c s
      (if bistBusy s && (b = 2 || b = 3 || b = 4) then
        { bistAbort 3 (wrStart h p s) with pwr.waitReq := s.pwr.waitReq ++ [(wrOp p, h.port, h.tag, b)] }
      else pwrDo b (wrStart h p s)) := by
  refine writes_intro noMeas 0x2004 (fun _ => v) hx hf (by decide) (by decide) (fun _ => by simp [reaches]) ?_ ?_
  · change pwrCtrlChk (v &&& 0x3F) (reqStart (wrOp p) h s) = 0
    simp only [pwrCtrlChk, hv, pwrChk_reqStart, hchk]
  · change pwrCtrlPut (wrOp p) h.port h.tag (v &&& 0x3F) (reqStart (wrOp p) h s) = _
    simp only [pwrCtrlPut, hv, bistBusy_reqStart, id @reqStart_keep, wrStart]

theorem pwrWakeOutClr_releases {h : ReqHdr} {p : Bool} {s : State} (hf : freshWr h p s) :
    completes (.pwrWakeOutClr h p) s fun t => t.pwr.wakeOut = false ∧ t.pwr.wakeOutEnd = none := by
  refine (writes_pwrCtrl (v := 32) (b := 5) rfl rfl hf (by simp [pwrChk])).completes fun r => ?_
  simp [pwrDo, id @settle_pwr, id @answer_pwr]

/-- Settles O31: each word is taken as its field says, and what the host link holds beside its answers stands. -/
theorem writesHost : Obligations.WritesHost := by
  refine ⟨fun _ _ _ _ _ => hostBudgetWrite_takes, fun _ _ _ => presClose_closes, fun _ _ _ hf hrun _ => secAdopt_asks hf hrun,
    fun _ _ => adoptOne_adopts, fun _ _ => adoptOne_refuses, fun _ _ _ _ _ => evtPendClear_clears,
    fun _ _ _ _ _ => evtIrqmapWrite_stores, fun _ _ _ => evtS3Ack_ends, fun h p v s hf hopen hnew => ?_,
    fun h p v s hf hopen hsame => ?_, fun _ _ _ => pwrWakeOutClr_releases⟩
  · refine completes_pwrCfgWrite hf hopen fun r => ?_
    have e := pwrCfgPut_stores (bits v 15 8) (bits v 1 0) (reqStart (wrOp p) h s)
    rw [if_neg (by simpa only [id @reqStart_keep] using hnew)] at e
    simpa [id @settle_pwr, id @settle_keep, id @answer_pwr, id @answer_keep] using e
  · refine completes_pwrCfgWrite hf hopen fun r => ?_
    have e := pwrCfgPut_stores (bits v 15 8) (bits v 1 0) (reqStart (wrOp p) h s)
    rw [if_pos (by simpa only [id @reqStart_keep] using hsame)] at e
    obtain ⟨hsleep, -, harmed⟩ := e
    simpa [id @settle_pwr, id @answer_pwr, hsleep, id @reqStart_keep] using harmed

end Sys2Proof.Machine
end

section
/-! PROOFS. Writes of PWR_CTRL (R549 to R551, R558, R561, R563, R573): what each accepted request makes of the power state, and
the statement of them. -/

namespace Sys2Proof.Machine

/-- A PWR_CTRL request that no self-test holds up has its own effect. -/
theorem writes_pwrDo {c : Instr} {h : ReqHdr} {p : Bool} {v : Word} {b : Nat} {s : State}
    (hx : exec c s = .next (regReq p h noMeas 0x2004 (fun _ => v) s))
    (hv : (List.range 6).filter ((v &&& 0x3F).getLsbD ·) = [b]) (hf : freshWr h p s) (hchk : pwrChk b s = 0)
    (hfree : bistBusy s = false ∨ b < 2) : writes h p c s (pwrDo b (wrStart h p s)) := by
  have hgo : (bistBusy s && (b = 2 || b = 3 || b = 4)) = false := by
    rcases hfree with hfree | hb
    · simp [hfree]
    · simpa using fun _ => by omega
  simpa [hgo] using writes_pwrCtrl hx hv hf hchk

theorem leaveStandby_leaves {cause : Nat} {s : State} (h : s.pwr.state = .standby) :
    (leaveStandby cause s).pwr.state = .leaving := by
  simp [leaveStandby, h, id @ringsWake_keep, pwrExit]

theorem pwrRun_leaves {h : ReqHdr} {p : Bool} {s : State} (hf : freshWr h p s) (hs : s.pwr.state = .standby) :
    completes (.pwrRun h p) s fun t => t.pwr.state = .leaving := by
  refine (writes_pwrDo (v := 1) (b := 0) rfl rfl hf (by simp [pwrChk]) (.inr (by decide))).completes fun r => ?_
  have e := leaveStandby_leaves (cause := 1) (s := wrStart h p s) (by simpa only [wrStart, id @reqStart_keep] using hs)
  simpa [pwrDo, id @settle_pwr, id @answer_pwr] using e

theorem standbyStart_enters (s : State) :
    (standbyStart s).pwr.state = .standby ∧ (standbyStart s).pwr.sleepAt = s.time.tns := by
  simp only [standbyStart]
  split <;> simp [id @stopAcq_keep]

theorem pwrStandby_enters {h : ReqHdr} {p : Bool} {s : State} (hf : freshWr h p s) (hs : s.pwr.state = .run)
    (hopen : allOpen s = true) (hkey : s.drv.key = false) :
    completes (.pwrStandby h p) s fun t => t.pwr.state = .standby ∧ t.pwr.sleepAt = s.time.tns := by
  refine (writes_pwrDo (v := 2) (b := 1) rfl rfl hf (by simp [pwrChk, hs, hopen, hkey]) (.inr (by decide))).completes
    fun r => ?_
  have e := standbyStart_enters (wrStart h p s)
  have ht : (wrStart h p s).time = s.time := by simp only [wrStart, id @reqStart_keep]
  simpa [pwrDo, id @settle_pwr, id @answer_pwr, ht] using e

theorem pwrSleep_enters {h : ReqHdr} {p : Bool} {s : State} (hf : freshWr h p s) (hok : sleepOk s = true)
    (hfree : bistBusy s = false) :
    completes (.pwrSleep h p) s fun t => t.pwr.state = .sleepEntry ∧ t.pwr.step = 1 := by
  refine (writes_pwrDo (v := 4) (b := 2) rfl rfl hf (by simp [pwrChk, hok]) (.inl hfree)).completes fun r => ?_
  simp [pwrDo, sleepStart, id @settle_pwr, id @answer_pwr]

theorem pwrSleep_waits {h : ReqHdr} {p : Bool} {s : State} (hf : freshWr h p s) (hok : sleepOk s = true)
    (hrun : s.bist.state = .running) :
    completes (.pwrSleep h p) s fun t => t.bist.state = .aborting ∧ t.bist.abort = 3 ∧ t.pwr.state = s.pwr.state ∧
      t.pwr.waitReq = s.pwr.waitReq ++ [(wrOp p, h.port, h.tag, 2)] := by
  refine (writes_pwrCtrl (v := 4) (b := 2) rfl rfl hf (by simp [pwrChk, hok])).completes fun r => ?_
  simp [bistBusy, hrun, bistAbort, wrStart, id @reqStart_keep, id @settle_keep, id @answer_keep, id @settle_pwr,
    id @answer_pwr]

theorem shipStart_enters (s : State) :
    (shipStart s).pwr.state = .shipEntry ∧ (shipStart s).pwr.step = 1 ∧ (shipStart s).husk.closeReq = 0 := by
  have hpwr (l : List Nat) (u : State) : (l.foldl (fun s i => orderlyOpen [false, true] i s) u).pwr = u.pwr :=
    foldl_keep (·.pwr) _ l u fun t i => by simp [id @orderlyOpen_keep]
  have hhusk (l : List Nat) (u : State) :
      (l.foldl (fun s i => orderlyOpen [false, true] i s) u).husk.held = u.husk.held :=
    foldl_keep (·.husk.held) _ l u fun t i => by simp [id @orderlyOpen_keep]
  refine ⟨by simp [shipStart, hpwr, id @charStop_keep], by simp [shipStart, hpwr, id @charStop_keep], ?_⟩
  simp only [shipStart, id Husk.of_held (hhusk _ _), id @charStop_keep]

theorem pwrShip_enters {h : ReqHdr} {p : Bool} {s : State} (hf : freshWr h p s)
    (hs : s.pwr.state = .run ∨ s.pwr.state = .standby) (hfree : bistBusy s = false) :
    completes (.pwrShip h p) s fun t => t.pwr.state = .shipEntry ∧ t.pwr.step = 1 ∧ t.husk.closeReq = 0 := by
  refine (writes_pwrDo (v := 8) (b := 3) rfl rfl hf (by simp [pwrChk, hs]) (.inl hfree)).completes fun r => ?_
  simpa [pwrDo, id @settle_pwr, id @answer_pwr, id @settle_husk, id @answer_keep] using shipStart_enters (wrStart h p s)

/-- Settles O32: each request bit has the effect of its command, and SLEEP waits for a self-test that runs. -/
theorem writesPower : Obligations.WritesPower :=
  ⟨fun _ _ _ => pwrRun_leaves, fun _ _ _ => pwrStandby_enters, fun _ _ _ => pwrSleep_enters,
    fun _ _ _ => pwrSleep_waits, fun _ _ _ => pwrShip_enters,
    fun _ _ _ hf hopen hfree => writes_pwrDo (v := 16) (b := 4) rfl rfl hf (by simp [pwrChk, hopen]) (.inl hfree),
    fun _ => ⟨rfl, rfl, rfl⟩⟩

end Sys2Proof.Machine
end

section
/-! PROOFS. SHIP entry and exit (R558, R559): the steps of the entry, what the wake controller arms, and the statement of
them. -/

namespace Sys2Proof.Machine

/-! ## Entry -/

theorem shipStringsOpen_saves {s : State} (hentry : s.pwr.state = .shipEntry) (h1 : s.pwr.step = 1)
    (hopen : allOpen s = true) (hfree : commitBusy s = false) :
    completes .shipStringsOpen s fun t =>
      t.pwr.step = 2 ∧ t.pwr.state = .shipEntry ∧ t.pwr.sleepAt = s.time.tns := by
  refine ⟨_, rfl, ?_⟩
  simp only [hentry, h1, hopen, hfree, beq_self_eq_true, Bool.not_false, Bool.and_self, if_true, id @settle_pwr, true_and,
    and_true]
  repeat' split
  all_goals simp [id @nvFlush_keep, id @nvQueue_keep, id @podAsk_keep, id @checkpoint_keep, hentry]

theorem framesStop_acq (s : State) : (framesStop s).sys.run.acq = false := by
  simp [framesStop, id @dbgEnd_keep]

theorem shipSaved_sends {s : State} (hentry : s.pwr.state = .shipEntry) (h2 : s.pwr.step = 2)
    (hsaved : shipSaved s = true) :
    completes .shipSaved s fun t => t.pwr.step = 3 ∧ t.sys.run.acq = false := by
  refine ⟨_, rfl, ?_⟩
  simp only [hentry, h2, hsaved, beq_self_eq_true, Bool.and_self, if_true, id @settle_pwr, id @settle_sys,
    id @recFlush_keep, id @emit_keep, true_and]
  split
  · exact framesStop_acq _
  next hacq => simpa using hacq

theorem shipPowerDown_ships {s : State} (hentry : s.pwr.state = .shipEntry) (h3 : s.pwr.step = 3)
    (hidle : recIdle s = true) :
    completes .shipPowerDown s fun t => t.pwr.state = .ship ∧ t.sys.run = {} ∧ t.pwr.armBtn = false ∧
      t.pwr.armChg = false :=
  ⟨_, rfl, by simp [hentry, h3, hidle, id @settle_pwr, id @settle_sys, deviceOff]⟩

/-! ## The wake controller -/

/-- Start-up begins at its first step, in RUN, and the button stands as it did. -/
theorem startBegin_starts (cause : Nat) (s : State) :
    (startBegin cause s).pwr.state = .run ∧ (startBegin cause s).sys.cause = cause ∧ (startBegin cause s).sys.step = 1 ∧
    (startBegin cause s).pins.btn = s.pins.btn := by
  simp [startBegin, bootBegin, lDieReset]

theorem shipWake_btn {ns : Nat} {s : State} (hship : s.pwr.state = .ship) (harm : s.pwr.armBtn = true)
    (hlong : ns ≥ 10000000000) :
    completes (.shipWake true ns) s fun t =>
      t.pwr.state = .run ∧ t.sys.cause = 5 ∧ t.sys.step = 1 ∧ t.pins.btn = true :=
  ⟨_, rfl, by simp [hship, harm, hlong, nsPerSec, id @settle_pwr, id @settle_sys, id @settle_pins, startBegin_starts]⟩

theorem shipWake_chg {ns : Nat} {s : State} (hship : s.pwr.state = .ship) (harm : s.pwr.armChg = true)
    (hlong : ns ≥ 50000000) :
    completes (.shipWake false ns) s fun t =>
      t.pwr.state = .run ∧ t.sys.cause = 5 ∧ t.sys.step = 1 ∧ t.pwr.chg = true :=
  ⟨_, rfl, by simp [hship, harm, hlong, id @settle_pwr, id @settle_sys, startBegin_starts]⟩

/-- Settles O50: each step of the entry goes on when its condition stands, and an armed input starts the device up. -/
theorem shipEntryExit : Obligations.ShipEntryExit := by
  refine ⟨fun _ => shipStringsOpen_saves, fun _ => shipSaved_sends, fun _ => shipPowerDown_ships,
    fun ns s hship hlong => ?_, fun ns s hship hlong => ?_, fun _ _ => shipWake_btn, fun _ _ => shipWake_chg⟩
  · simp [exec, execWakeControllerArm, hship, hlong, nsPerSec]
  · simp [exec, execWakeControllerArm, hship, hlong]

end Sys2Proof.Machine
end

section
/-! PROOFS. The supply, the rails and the inputs of the P die (R541, R542, R544, R545, R548, R553, R604): what a warning begins,
what the loss and the recovery of a rail leave, and the statement of them. -/

namespace Sys2Proof.Machine

/-! ## Inputs -/

theorem leaveStandby_chg (cause : Nat) (s : State) : (leaveStandby cause s).pwr.chg = s.pwr.chg := by
  simp only [leaveStandby]
  repeat' split
  all_goals simp [id @ringsWake_keep, pwrExit, id @stopAcq_keep]

theorem chgDetQualify_takes {a : Bool} {ns : Nat} {s : State} (hrun : s.sys.run.wake = true) (hnew : a ≠ s.pwr.chg)
    (hlong : ns ≥ 50000000) : completes (.chgDetQualify a ns) s fun t => t.pwr.chg = a := by
  have hdue : ¬ ns < (if a then 50000000 else 2000000) := by
    split <;> omega
  refine ⟨_, rfl, ?_⟩
  simp only [hrun, beq_eq_false_iff_ne.mpr hnew, hdue, Bool.not_true, decide_false, Bool.or_self, Bool.false_eq_true,
    if_false, id @settle_pwr]
  split <;> simp [leaveStandby_chg]

theorem testEnChange_takes (high : Bool) (s : State) :
    completes (.testEnChange high) s fun t => t.pins.testEn = high ∧ t.pwr.state = s.pwr.state :=
  ⟨_, rfl, by simp [id @settle_pins, id @settle_pwr]⟩

/-! ## VSUP -/

theorem brownOut_off {v : Nat} {s : State} (hv : v < 5000) (hon : s.pwr.state ≠ .off) :
    completes (.brownOut v) s fun t =>
      t.pwr.state = .off ∧ t.sys.run = {} ∧ t.sys.step = 0 ∧ t.sec.mid = s.sec.mid := by
  refine ⟨_, rfl, ?_⟩
  simp [hv, hon, id @settle_pwr, id @settle_sys, id @settle_keep, deviceOff, lDieReset]

theorem shipAbandon_counts (s : State) :
    (shipAbandon s).pwr.pfwCnt = s.pwr.pfwCnt ∧ (shipAbandon s).pwr.railCnt = s.pwr.railCnt ∧
    (shipAbandon s).pwr.pg = s.pwr.pg := by
  unfold shipAbandon
  split <;> exact ⟨rfl, rfl, rfl⟩

/-- A warning while the core has power begins the shutdown (R545). -/
theorem powerFail_begins {v : Int} {s : State} (hmay : shutMay s = true) (hcore : s.sys.run.core = true) :
    (powerFail v s).therm.shutStep = 1 ∧ (powerFail v s).pwr.pfVsup = some v ∧
    (powerFail v s).pwr.pfwCnt = sat 16 (s.pwr.pfwCnt + 1) ∧ (powerFail v s).nv.refuse = true := by
  simp [powerFail, hmay, hcore, shutBegin, id @tripAll_keep, shipAbandon_counts]

theorem powerFailWarning_begins {v : Nat} {fell : Bool} {s : State} (hlow : v < pfwMv s.pwr.pfw)
    (hfell : fell = true ∨ s.pwr.pfw ≠ 0) (hmay : shutMay s = true) (hcore : s.sys.run.core = true) :
    completes (.powerFailWarning v fell) s fun t => t.therm.shutStep = 1 ∧ t.pwr.pfVsup = some (v : Int) ∧
      t.pwr.pfwCnt = sat 16 (s.pwr.pfwCnt + 1) ∧ t.nv.refuse = true := by
  have hgo : (decide (v < pfwMv s.pwr.pfw) && (fell || s.pwr.pfw != 0)) = true := by simpa [hlow] using hfell
  refine ⟨_, rfl, ?_⟩
  simpa only [hgo, if_true, id @settle_keep, id @settle_pwr] using powerFail_begins hmay hcore

theorem overvoltage_begins {v : Nat} {s : State} (hhigh : v > 61000) (hmay : shutMay s = true)
    (hcore : s.sys.run.core = true) :
    completes (.overvoltage v) s fun t =>
      t.therm.shutStep = 1 ∧ t.pwr.pfVsup = some (v : Int) ∧ t.nv.refuse = true := by
  obtain ⟨hstep, hvsup, -, hrefuse⟩ := powerFail_begins (v := v) hmay hcore
  refine ⟨_, rfl, ?_⟩
  simp only [hhigh, if_true, id @settle_keep, id @settle_pwr]
  exact ⟨hstep, hvsup, hrefuse⟩

/-! ## Rails -/

/-- A rail is in regulation by its power-good bit alone. -/
theorem railOn_congr {s t : State} (h : t.pwr.pg = s.pwr.pg) (r : Nat) : railOn t r = railOn s r := by
  simp [railOn, h]

theorem railOn_setRail {r : Nat} (hr : r < 5) (v : Bool) (s : State) : railOn (setRail r v s) r = v := by
  have hbit : (BitVec.ofNat 5 (2 ^ railBit r)).getLsbD (railBit r) = true := by interval_cases r <;> decide
  have hlt : railBit r < 5 := by interval_cases r <;> decide
  cases v <;> simp only [railOn, setRail, hr, decide_true, Bool.true_and, Bool.false_eq_true, if_false, if_true,
    BitVec.getLsbD_and, BitVec.getLsbD_or, BitVec.getLsbD_not, hbit, hlt, Bool.not_true, Bool.and_false, Bool.or_true]

theorem exec_railFault {r mv : Nat} {s : State} (hon : railOn s r = true) (hout : railOut s r mv = true)
    (hmay : shutMay s = true) : exec (.railFault r mv) s = .next (settle (railLost r mv s)) := by
  simp [exec, execRailFault, hon, hout, hmay]

theorem railFault_vio {mv : Nat} {s : State} (hon : railOn s 0 = true) (hout : railOut s 0 mv = true)
    (hmay : shutMay s = true) :
    completes (.railFault 0 mv) s fun t => t.sys.run.core = false ∧ t.sys.run.drivers = false ∧ t.sys.run.husk = false ∧
      t.pwr.brown = true ∧ t.pwr.railCnt = sat 16 (s.pwr.railCnt + 1) := by
  refine ⟨_, exec_railFault hon hout hmay, ?_⟩
  simp [id @settle_sys, id @settle_pwr, railLost, id @emit_keep, setRail, coreOff, lDieReset, pwrKeep, shipAbandon_counts]

theorem railFault_vcore {mv : Nat} {s : State} (hon : railOn s 1 = true) (hout : railOut s 1 mv = true)
    (hmay : shutMay s = true) :
    completes (.railFault 1 mv) s fun t => t.sys.run.core = false ∧ t.pwr.coreAt = some s.time.tns ∧
      t.sys.run.husk = s.sys.run.husk ∧ t.pwr.railCnt = sat 16 (s.pwr.railCnt + 1) := by
  refine ⟨_, exec_railFault hon hout hmay, ?_⟩
  simp [id @settle_sys, id @settle_pwr, railLost, id @emit_keep, setRail, coreOff, lDieReset, pwrKeep, runKeep,
    shipAbandon_counts, id @shipAbandon_keep]

theorem vanaLost_part (s : State) : (vanaLost s).sys = s.sys ∧ (vanaLost s).pwr = s.pwr := by
  simp [id @vanaLost_keep]

/-- The loss of a rail that is not the core's takes nothing of the running parts with it (R544). -/
theorem railLost_side {r mv : Nat} (hr : r = 3 ∨ r = 4) (s : State) :
    (railLost r mv s).sys = s.sys ∧
    (railLost r mv s).pwr = (setRail r false (shipAbandon { s with pwr.railCnt := sat 16 (s.pwr.railCnt + 1) })).pwr := by
  have hset (u : State) : (setRail r false u).sys = u.sys := rfl
  have hlost (u : State) : (granLost u).sys = u.sys ∧ (granLost u).pwr = u.pwr := ⟨rfl, rfl⟩
  rcases hr with rfl | rfl
  · simp [railLost, vanaLost_part, id @emit_keep, hset, id @shipAbandon_keep]
  · have hother : ¬ (4 = 0 ∨ 4 = 2) ∧ ¬ 4 = 1 ∧ ¬ 4 = 3 := by decide
    simp only [railLost, hother, if_false]
    split <;> simp [id @emit_keep, hlost, hset, id @shipAbandon_keep]

theorem railOn_settle (s : State) (r : Nat) : railOn (settle s) r = railOn s r :=
  railOn_congr (by simp only [id @settle_pwr]) r

theorem railFault_side {r mv : Nat} {s : State} (hr : r = 3 ∨ r = 4) (hon : railOn s r = true)
    (hout : railOut s r mv = true) (hmay : shutMay s = true) :
    completes (.railFault r mv) s fun t => t.sys.run.core = s.sys.run.core ∧ railOn t r = false ∧
      t.pwr.railCnt = sat 16 (s.pwr.railCnt + 1) := by
  obtain ⟨hsys, hpwr⟩ := railLost_side (mv := mv) hr s
  have hrail : railOn (railLost r mv s) r = false :=
    (railOn_congr (congrArg Pwr.pg hpwr) r).trans (railOn_setRail (by omega) false _)
  refine ⟨_, exec_railFault hon hout hmay, ?_⟩
  simp only [id @settle_sys, id @settle_pwr, railOn_settle, hsys, hrail, hpwr, true_and]
  exact (shipAbandon_counts _).2.1

theorem railRecovery_restarts {r mv : Nat} {s : State} (hr : r = 0 ∨ r = 2) (hoff : railOn s r = false)
    (hin : railOut s r mv = false) (hmay : shutMay s = true) (hbuck : s.sys.run.buck = true) :
    completes (.railRecovery r mv) s fun t =>
      t.sys.step = 2 ∧ t.sys.cause = 2 ∧ t.sys.run.drivers = true ∧ railOn t r = true := by
  refine ⟨_, rfl, ?_⟩
  simp only [hoff, hin, hmay, hbuck, Bool.not_true, Bool.or_self, Bool.false_eq_true, if_false, if_pos hr,
    id @settle_sys, railOn_settle, railOn_setRail (show r < 5 by omega), and_true]
  exact ⟨rfl, rfl, rfl⟩

theorem railRecovery_side {r mv : Nat} {s : State} (hr : r = 3 ∨ r = 4) (hoff : railOn s r = false)
    (hin : railOut s r mv = false) (hmay : shutMay s = true) (hbuck : s.sys.run.buck = true) :
    completes (.railRecovery r mv) s fun t => railOn t r = true ∧ t.sys.step = s.sys.step := by
  refine ⟨_, rfl, ?_⟩
  have hno : ¬ (r = 0 ∨ r = 2) := by omega
  simp only [hoff, hin, hmay, hbuck, Bool.not_true, Bool.or_self, Bool.false_eq_true, if_false, if_neg hno, if_pos hr,
    id @settle_sys, railOn_settle, railOn_setRail (show r < 5 by omega), true_and]
  rfl

/-- Settles O48: the inputs are taken, a supply that fails begins the shutdown, and each rail has its effect. -/
theorem powerFails : Obligations.PowerFails :=
  ⟨fun _ _ _ => chgDetQualify_takes, testEnChange_takes, fun _ _ => brownOut_off,
    fun v s hcore harmed hv => by simp [exec, execPfwArm, hcore, harmed, hv], fun _ _ _ => powerFailWarning_begins,
    fun v s h => by simp [exec, execPowerFailWarning, h], fun _ _ => overvoltage_begins, fun _ _ => railFault_vio,
    fun _ _ => railFault_vcore, fun _ _ _ => railFault_side, fun _ _ _ => railRecovery_restarts,
    fun _ _ _ => railRecovery_side, fun x s hat hdue => by simp [exec, execVcoreRetry, hat, hdue, bootBegin],
    fun s hv hl hforce => by simp [exec, execVcoreReturn, hv, hl, hforce]⟩

end Sys2Proof.Machine
end

section
/-! PROOFS. Writes of BIST_CTRL and BIST_REPAIR (R567, R568, R573, R578), and the refusals of a START: what a refused word
leaves, what a run starts with, and the two statements. -/

namespace Sys2Proof.Machine

/-! ## A register write that is refused -/

theorem writeWords_one_refused {q : Req} {a : Nat} {v : Word} {s : State} (ha : a < 0x17000) (h4 : a % 4 = 0)
    (h3 : ¬ (q.op = 3 ∧ presOpen s = false)) (h2 : q.op = 2 → reaches q.port a v s = false)
    (hc : chkWord q 0 a v s ≠ 0) :
    writeWords q a 1 [v] s = (noteRefusal q a v s, .nak (chkWord q 0 a v s) 0) := by
  have hw : windowOf a = some (.ctl (a / 4096)) := by simp [windowOf, ha]
  have hrange : rangeOk a 1 = true := by
    have : a + 4 * 1 - 4 = a := by omega
    simp [rangeOk, h4, hw, this]
  have hmax : ¬ (1 > maxWords q.port) := by cases q.port <;> simp [maxWords]
  have h2' : ¬ (q.op = 2 ∧ ([(0, a, v)].any fun e => reaches q.port e.2.1 e.2.2 s) = true) := by
    rintro ⟨e, h⟩
    simp [h2 e] at h
  have hws : addrWords a [v] = [(0, a, v)] := by simp [addrWords]
  have hfirst : firstRefusal q [(0, a, v)] s = some (chkWord q 0 a v s, a, v) := by simp [firstRefusal, hc]
  simp only [writeWords, hrange, hmax, List.length_singleton, Nat.one_ne_zero, ne_eq, not_true, or_self, if_false,
    Bool.true_eq_false, writeAll, hw, hws, Option.any_some, Bool.false_eq_true, h3, h2', hfirst, refuse]

/-- A register write taken as new whose word is refused is answered with the refusal, and writes nothing (R495). -/
theorem answers_refused {c : Instr} {h : ReqHdr} {p : Bool} {m : WrMeas} {a : Nat} {v : Word} {s : State}
    (hx : exec c s = .next (regReq p h m a (fun _ => v) s)) (hf : freshWr h p s) (ha : a < 0x17000) (h4 : a % 4 = 0)
    (hr : p = false → reaches h.port a v (wrStart h p s) = false)
    (hc : chkWord (wrReq h p m) 0 a v (wrStart h p s) ≠ 0) :
    answers (wrOp p) h c s (.nak (chkWord (wrReq h p m) 0 a v (wrStart h p s)) 0)
      (noteRefusal (wrReq h p m) a v (wrStart h p s)) := by
  obtain ⟨hq, hp⟩ := hf
  refine answers_fresh (f := fun s => writeWords (wrReq h p m) a 1 [v] s) ?_ hq (writeWords_one_refused ha h4 ?_ ?_ hc)
  · rw [hx]
    unfold regReq wrReq wrOp
    rfl
  · cases p with
    | false => simp [wrReq, wrOp]
    | true => simp [hp rfl]
  · cases p with
    | false => exact fun _ => hr rfl
    | true => simp [wrReq, wrOp]

/-! ## BIST_CTRL -/

/-- The word of BIST_CTRL that starts a run of target `tg`. -/
def startWord (tg : BitVec 3) : Word := 1 ||| tg.setWidth 32 <<< 16

theorem startWord_bits (tg : BitVec 3) :
    bits (startWord tg) 18 16 = tg.toNat ∧ (startWord tg).getLsbD 0 = true ∧ (startWord tg).getLsbD 1 = false := by
  decide +revert

@[simp] theorem bistChk_reqStart (t mv : Nat) (ppm : Int) (op : Nat) (h : ReqHdr) (s : State) :
    bistChk t mv ppm (reqStart op h s) = bistChk t mv ppm s := by
  rw [reqStart_eq]
  rfl

theorem startAsked_startWord {tg : BitVec 3} {s : State} (hrun : s.sys.run.bist = true) :
    startAsked 0x004 (startWord tg) s = true := by
  simp [startAsked, startWord_bits, hrun]

/-- The check of a START (R568, R592). -/
theorem chkWord_start {q : Req} {n : Nat} {tg : BitVec 3} {s : State} :
    chkWord q n 0x15004 (startWord tg) s = if 6 ≤ tg.toNat then 2
      else if s.sys.run.bist = true then (bistChk tg.toNat q.m.mv q.m.ppm s).1 else 0 := by
  simp [chkWord, chkBist, startAsked, startWord_bits, reachBist]

theorem bistCopy_part (ecc : List BistEcc) (s : State) : (bistCopy ecc s).bist = s.bist ∧ (bistCopy ecc s).pwr = s.pwr := by
  simp [id @bistCopy_keep]

/-- A run starts over its range (R569, R571, R575). -/
theorem bistRun_starts (t first n : Nat) (bg : Bool) (ecc : List BistEcc) (s : State) :
    let u := bistRun t first n bg ecc s
    u.bist.state = .running ∧ u.bist.last = t ∧ u.bist.target = s.bist.target ∧ u.bist.region = first ∧
    u.bist.done = 0 ∧ u.bist.fail = false ∧ u.pwr.force = 1 ∧ u.bist.total = n * bistSteps t ∧ u.bist.bg = bg ∧
    u.bist.bgNext = s.bist.bgNext ∧ u.bist.bgAt = s.bist.bgAt := by
  simp [bistRun, bistCopy_part, id @phaseStart_keep]

/-- The word of a START stores its target and asks for the run. -/
theorem putBistCtrl_startWord {q : Req} {tg : BitVec 3} {s : State} (hrun : s.sys.run.bist = true) :
    putBistCtrl q (startWord tg) s =
      (bistStart tg.toNat q.m.mv q.m.ppm q.m.ecc { s with bist.target := tg.toNat }).1 := by
  obtain ⟨htarget, -, habort⟩ := startWord_bits tg
  simp only [putBistCtrl, htarget, habort, Bool.false_and, Bool.false_eq_true, if_false]
  exact if_pos (startAsked_startWord hrun)

theorem bistChk_target (t mv n : Nat) (ppm : Int) (s : State) :
    bistChk t mv ppm { s with bist.target := n } = bistChk t mv ppm s := rfl

theorem bistStart_of_ok {t mv : Nat} {ppm : Int} {ecc : List BistEcc} {s : State} (h : (bistChk t mv ppm s).1 = 0) :
    (bistStart t mv ppm ecc { s with bist.target := t }).1 =
      bistRun t s.bist.first (bistCount s) false ecc { s with bist.target := t } := by
  simp only [bistStart, bistChk_target, h, ne_eq, not_true, if_false]
  rfl

theorem bistStart_runs {h : ReqHdr} {p : Bool} {tg : BitVec 3} {m : WrMeas} {s : State} (hf : freshWr h p s)
    (hrun : s.sys.run.bist = true) (htg : tg.toNat < 6) (hchk : (bistChk tg.toNat m.mv m.ppm s).1 = 0) :
    completes (.bistStart h p tg m) s fun t => t.bist.state = .running ∧ t.bist.last = tg.toNat ∧
      t.bist.target = tg.toNat ∧ t.bist.region = s.bist.first ∧ t.bist.done = 0 ∧ t.bist.fail = false ∧
      t.pwr.force = 1 := by
  refine completes_write m 0x15004 (fun _ => startWord tg) rfl hf (by decide) (by decide)
    (fun _ => by simp [reaches, reachBist]) ?_ fun r => ?_
  · simp [wrWord, chkWord_start, Nat.not_le.mpr htg, wrReq, hchk]
  · have hput : putReg (wrReq h p m) 0x15004 (startWord tg) (reqStart (wrOp p) h s) =
        putBistCtrl (wrReq h p m) (startWord tg) (reqStart (wrOp p) h s) := by simp [putReg, putBist]
    have hbist : (reqStart (wrOp p) h s).bist = s.bist := by simp only [id @reqStart_keep]
    rw [wrWord, hput, putBistCtrl_startWord (by simpa only [id @reqStart_keep] using hrun),
      bistStart_of_ok (by simpa only [wrReq, bistChk_reqStart] using hchk)]
    obtain ⟨hstate, hlast, htarget, hregion, hdone, hfail, hforce, -⟩ := bistRun_starts tg.toNat
      (reqStart (wrOp p) h s).bist.first (bistCount (reqStart (wrOp p) h s)) false m.ecc
      { reqStart (wrOp p) h s with bist.target := tg.toNat }
    simp only [id @settle_keep, id @answer_keep, id @settle_pwr, id @answer_pwr]
    exact ⟨hstate, hlast, htarget, hregion.trans (congrArg Bist.first hbist), hdone, hfail, hforce⟩

/-- A START that is refused leaves its reason in REFUSE, unless its target is none (R568). -/
theorem answers_startRefused {h : ReqHdr} {p : Bool} {tg : BitVec 3} {m : WrMeas} {s : State} (hf : freshWr h p s)
    (hrun : s.sys.run.bist = true) (htg : tg.toNat < 6) {st why : Nat} (hchk : bistChk tg.toNat m.mv m.ppm s = (st, why))
    (hst : st ≠ 0) :
    answers (wrOp p) h (.bistStart h p tg m) s (.nak st 0) { wrStart h p s with bist.refuse := why } := by
  have hword : chkWord (wrReq h p m) 0 0x15004 (startWord tg) (wrStart h p s) = st := by
    simp [chkWord_start, Nat.not_le.mpr htg, wrReq, wrStart, id @reqStart_keep, hrun, hchk]
  have hnote : noteRefusal (wrReq h p m) 0x15004 (startWord tg) (wrStart h p s) =
      { wrStart h p s with bist.refuse := why } := by
    have hask : startAsked 0x004 (startWord tg) (reqStart (wrOp p) h s) = true :=
      startAsked_startWord (by simpa only [id @reqStart_keep] using hrun)
    simp [noteRefusal, refusedBist, hask, startWord_bits, htg, wrReq, wrStart, hchk]
  have e := answers_refused (c := .bistStart h p tg m) (m := m) (a := 0x15004) (v := startWord tg) rfl hf (by decide)
    (by decide) (fun _ => by simp [reaches, reachBist]) (by rw [hword]; exact hst)
  rwa [hword, hnote] at e

theorem bistStart_refuses {h : ReqHdr} {p : Bool} {tg : BitVec 3} {m : WrMeas} {s : State} (hf : freshWr h p s)
    (hrun : s.sys.run.bist = true) (htg : tg.toNat < 6) (hchk : (bistChk tg.toNat m.mv m.ppm s).1 ≠ 0) :
    completes (.bistStart h p tg m) s fun t => t.bist.state = s.bist.state ∧
      t.bist.refuse = (bistChk tg.toNat m.mv m.ppm s).2 := by
  have e := answers_startRefused (st := (bistChk tg.toNat m.mv m.ppm s).1) (why := (bistChk tg.toNat m.mv m.ppm s).2)
    hf hrun htg rfl hchk
  refine ⟨_, e, ?_⟩
  simp [id @settle_keep, id @answer_keep, wrStart, id @reqStart_keep]

/-- The word that aborts a run keeps the target (R573). -/
theorem abortWord_bits {t : Nat} (ht : t < 6) :
    let v : Word := 2 ||| (w32 (at' 16 t) &&& 0x70000)
    bits v 18 16 = t ∧ v.getLsbD 0 = false ∧ v.getLsbD 1 = true := by
  interval_cases t <;> decide

theorem bistAbort_waits {h : ReqHdr} {p : Bool} {s : State} (hf : freshWr h p s) (htg : s.bist.target < 6)
    (hstate : s.bist.state = .running) :
    completes (.bistAbort h p) s fun t => t.bist.state = .aborting ∧ t.bist.abort = 1 ∧
      t.bist.waitAbort = s.bist.waitAbort ++ [(wrOp p, h.port, h.tag)] := by
  obtain ⟨htarget, hstart, habort⟩ := abortWord_bits htg
  have hword : wrWord h p 0x15004 (fun w => 2 ||| (w &&& 0x70000)) s = 2 ||| (w32 (at' 16 s.bist.target) &&& 0x70000) := by
    have : readWord h.port 0x15004 (reqStart (wrOp p) h s) = w32 (at' 16 (reqStart (wrOp p) h s).bist.target) := rfl
    simp only [wrWord, this, id @reqStart_keep]
  refine completes_write noMeas 0x15004 _ rfl hf (by decide) (by decide) (fun _ => by simp [reaches, reachBist]) ?_
    fun r => ?_
  · rw [hword]
    simp only [chkWord, chkBist, startAsked, htarget, hstart]
    simp [reachBist, htg]
  · rw [hword]
    simp only [putReg, putBist, putBistCtrl, startAsked, htarget, hstart, habort]
    simp [bistBusy, bistAbort, id @reqStart_keep, hstate, id @settle_keep, id @answer_keep, wrReq]

theorem bistAbort_target (cause : Nat) (s : State) : (bistAbort cause s).bist.target = s.bist.target := by
  unfold bistAbort
  split <;> rfl

theorem bistStart_target {t mv : Nat} {ppm : Int} {ecc : List BistEcc} {s : State} (ht : s.bist.target = t) :
    (bistStart t mv ppm ecc s).1.bist.target = t := by
  unfold bistStart
  dsimp only
  split
  · exact ht
  · exact (bistRun_starts t _ _ false ecc _).2.2.1

/-- A BIST_CTRL write leaves the target that it names. -/
theorem putBistCtrl_target (q : Req) (v : Word) (s : State) : (putBistCtrl q v s).bist.target = bits v 18 16 := by
  unfold putBistCtrl
  extract_lets _ s1 _ _ s2
  have hs2 : s2.bist.target = bits v 18 16 := by
    simp only [s2]
    split
    · exact bistAbort_target 1 s1
    · rfl
  split
  · exact bistStart_target hs2
  · exact hs2

/-- A BIST word that no check refuses leaves one of the six targets (R592). -/
theorem putBist_target {q : Req} {off : Nat} {v : Word} {s : State} (ht : s.bist.target < 6)
    (hchk : chkBist q off v s = 0) : (putBist q off v s).bist.target < 6 := by
  unfold putBist
  split
  next hoff =>
    rw [putBistCtrl_target]
    by_contra hge
    simp [chkBist, hoff, Nat.le_of_not_lt hge] at hchk
  split
  · exact ht
  split
  · exact ht
  split
  · exact ht
  split
  · simpa [repairPut, id @emit_keep] using ht
  · exact ht

/-! ## BIST_REPAIR -/

/-- A write of BIST_REPAIR stores its entry and no other (R578). -/
theorem repairEnt_repairPut (e : Nat) (v : Word) (s : State) (i : Nat) :
    repairEnt (repairPut e v s) i = if i = e then repairOf v else repairEnt s i := by
  simp only [repairPut]
  split <;> simp [repairEnt, id @emit_keep]

theorem bistRepairWrite_stores {h : ReqHdr} {v : Word} {s : State} (hf : freshWr h true s)
    (hchk : repairChk (portOf s h.port).sel.repair v s = 0) :
    completes (.bistRepairWrite h true v) s fun t =>
      repairEnt t (portOf s h.port).sel.repair = repairOf v ∧
      ∀ e, e ≠ (portOf s h.port).sel.repair → repairEnt t e = repairEnt s e := by
  have hchk' : repairChk (portOf s h.port).sel.repair v (reqStart (wrOp true) h s) = 0 := by
    rw [reqStart_eq]
    exact hchk
  have hent (t u : State) (i : Nat) (hb : t.bist = u.bist) : repairEnt t i = repairEnt u i := by simp [repairEnt, hb]
  refine completes_write noMeas 0x15044 (fun _ => v) rfl hf (by decide) (by decide) nofun ?_ fun r => ?_
  · simp [chkWord, chkBist, startAsked, wrReq, wrWord, hchk']
  · have hput : putReg (wrReq h true noMeas) 0x15044 v (reqStart (wrOp true) h s) =
        repairPut (portOf s h.port).sel.repair v (reqStart (wrOp true) h s) := by
      simp [putReg, putBist, wrReq]
    have hstart (i : Nat) : repairEnt (reqStart (wrOp true) h s) i = repairEnt s i :=
      hent _ _ i (by simp only [id @reqStart_keep])
    have hall (i : Nat) : repairEnt (settle (answer (wrOp true) h.port h.tag r
        (putReg (wrReq h true noMeas) 0x15044 v (reqStart (wrOp true) h s)))) i =
        if i = (portOf s h.port).sel.repair then repairOf v else repairEnt s i := by
      rw [hent _ (putReg (wrReq h true noMeas) 0x15044 v (reqStart (wrOp true) h s)) i
        (by simp only [id @settle_keep, id @answer_keep]), hput, repairEnt_repairPut, hstart]
    exact ⟨by simpa [wrWord] using hall (portOf s h.port).sel.repair, fun e he => by simpa [wrWord, he] using hall e⟩

/-- Settles O33: a START runs or names what is against it, an ABORT is answered later, and one repair entry is stored. -/
theorem writesBist : Obligations.WritesBist :=
  ⟨fun _ _ _ _ _ => bistStart_runs, fun _ _ _ _ _ => bistStart_refuses, fun _ _ _ => bistAbort_waits,
    fun _ _ _ _ => putBist_target, fun _ _ _ => bistRepairWrite_stores⟩

/-! ## The refusals of a START -/

theorem bistChk_range {t mv : Nat} {ppm : Int} {s : State} (h : s.bist.first + bistCount s > bistRegions t) :
    bistChk t mv ppm s = (2, 4) := by
  simp [bistChk, h]

theorem bistChk_busy {t mv : Nat} {ppm : Int} {s : State} (h : s.bist.first + bistCount s ≤ bistRegions t)
    (hbusy : bistBusy s = true) : bistChk t mv ppm s = (1, 2) := by
  simp [bistChk, Nat.not_lt.mpr h, hbusy]

theorem bistChk_pair {mv q : Nat} {ppm : Int} {s : State} (h : s.bist.first + bistCount s ≤ 16) (hfree : bistBusy s = false)
    (hq : q ∈ rangeFrom s.bist.first (bistCount s)) (hquar : (pairOf s q).quar = false) :
    bistChk 3 mv ppm s = (9, 3) := by
  have hin : ¬ s.bist.first + bistCount s > bistRegions 3 := Nat.not_lt.mpr h
  have hall : ((rangeFrom s.bist.first (bistCount s)).all fun q => (Tab.get {} s.pairs.q q).quar) = false := by
    refine List.all_eq_false.mpr ⟨q, hq, ?_⟩
    simpa [pairOf] using hquar
  simp [bistChk, hin, hfree, hall]

/-- Settles O60: each refusal of a START with its status and its REFUSE. -/
theorem selfTestRefused : Obligations.SelfTestRefused := by
  refine ⟨fun h p m q s hf hrun hfree hrange hq hquar => ?_, fun h p tg m s hf hrun htg hrange => ?_,
    fun h p tg m s hf hrun htg hrange hbusy => ?_, fun h p tg m s hf htg => ?_⟩
  · exact answers_startRefused (tg := 3) hf hrun (by decide) (bistChk_pair hrange hfree hq hquar) (by decide)
  · exact answers_startRefused hf hrun htg (bistChk_range hrange) (by decide)
  · exact answers_startRefused hf hrun htg (bistChk_busy hrange hbusy) (by decide)
  · have hword : chkWord (wrReq h p m) 0 0x15004 (startWord tg) (wrStart h p s) = 2 := by simp [chkWord_start, htg]
    have hnote : noteRefusal (wrReq h p m) 0x15004 (startWord tg) (wrStart h p s) = wrStart h p s := by
      simp [noteRefusal, refusedBist, startWord_bits, Nat.not_lt.mpr htg]
    have e := answers_refused (c := .bistStart h p tg m) (m := m) (a := 0x15004) (v := startWord tg) rfl hf (by decide)
      (by decide) (fun _ => by simp [reaches, reachBist]) (by rw [hword]; decide)
    rwa [hword, hnote] at e

end Sys2Proof.Machine
end

section
/-! PROOFS. Self-test runs (R567, R569, R571, R573, R577) and the steward's error queue and resets (R583, R585): how a region
ends, what ends a run, which entry is taken, and the two statements. -/

namespace Sys2Proof.Machine

/-! ## The end of a run -/

theorem bistRecord_part (s : State) : (bistRecord s).bist = s.bist ∧ (bistRecord s).pwr = s.pwr := by
  simp [id @bistRecord_keep]

/-- A run that ends holds its result (R571). -/
theorem bistEnd_bist (s : State) :
    (bistEnd s).bist = { s.bist with
      state := .idle
      result := if s.bist.done ≠ s.bist.total then 3 else if s.bist.fail then 2 else 1
      bg := false } := by
  simp [bistEnd, id @phaseEnd_keep, bistRecord_part]

/-- Where nothing of targets 3 and 4 is compared by signature, the region's compares alone count (R572). -/
theorem exec_bistRegionDone {fails : List (Nat × Nat)} {sig : Word} {ecc : List BistEcc} {s : State}
    (hrun : s.bist.state = .running) (h3 : s.bist.last ≠ 3) (h4 : s.bist.last ≠ 4) :
    ∃ u : State, u.bist = { (bistFails fails s).bist with
        done := (bistFails fails s).bist.done + bistSteps (bistFails fails s).bist.last
        region := (bistFails fails s).bist.region + 1
        bgNext := if (bistFails fails s).bist.bg then ((bistFails fails s).bist.region + 1) % 256
          else (bistFails fails s).bist.bgNext } ∧
      completes (.bistRegionDone fails sig ecc) s fun t =>
        t.bist = if u.bist.done ≥ u.bist.total then (bistEnd u).bist else u.bist := by
  have hfails : (bistFails fails s).bist.last = s.bist.last := by
    unfold bistFails
    split <;> rfl
  have hsign : bistSign sig (bistFails fails s) = bistFails fails s := by simp [bistSign, hfails, h3, h4]
  refine ⟨{ bistFails fails s with
    bist.done := (bistFails fails s).bist.done + bistSteps (bistFails fails s).bist.last
    bist.region := (bistFails fails s).bist.region + 1
    bist.bgNext := if (bistFails fails s).bist.bg then ((bistFails fails s).bist.region + 1) % 256
      else (bistFails fails s).bist.bgNext }, rfl, _, rfl, ?_⟩
  simp only [hrun, bne_self_eq_false, Bool.false_eq_true, if_false, h3, h4, or_self, hsign, id @settle_keep,
    id @settleLevel_keep]
  split
  · rfl
  · exact (bistCopy_part _ _).1

theorem bistRegionDone_goes_on {sig : Word} {ecc : List BistEcc} {s : State} (hrun : s.bist.state = .running)
    (h3 : s.bist.last ≠ 3) (h4 : s.bist.last ≠ 4) (hleft : s.bist.done + bistSteps s.bist.last < s.bist.total) :
    completes (.bistRegionDone [] sig ecc) s fun t => t.bist.state = .running ∧ t.bist.region = s.bist.region + 1 ∧
      t.bist.done = s.bist.done + bistSteps s.bist.last ∧ t.bist.fail = s.bist.fail := by
  obtain ⟨u, hu, t, ht, hbist⟩ := exec_bistRegionDone (fails := []) (sig := sig) (ecc := ecc) hrun h3 h4
  refine ⟨t, ht, ?_⟩
  rw [if_neg (by rw [hu]; simpa [bistFails] using hleft)] at hbist
  simp [hbist, hu, bistFails, hrun]

theorem bistRegionDone_ends {fails : List (Nat × Nat)} {sig : Word} {ecc : List BistEcc} {s : State}
    (hrun : s.bist.state = .running) (h3 : s.bist.last ≠ 3) (h4 : s.bist.last ≠ 4)
    (hlast : s.bist.done + bistSteps s.bist.last = s.bist.total) (hok : s.bist.fail = false) :
    completes (.bistRegionDone fails sig ecc) s fun t => t.bist.state = .idle ∧
      t.bist.result = (if fails = [] then 1 else 2) ∧ t.bist.failAddr = (bistFails fails s).bist.failAddr ∧
      t.bist.failBit = (bistFails fails s).bist.failBit ∧ t.bist.failCnt = (bistFails fails s).bist.failCnt := by
  obtain ⟨u, hu, t, ht, hbist⟩ := exec_bistRegionDone (fails := fails) (sig := sig) (ecc := ecc) hrun h3 h4
  have hdone : u.bist.done = u.bist.total := by
    rw [hu]
    cases fails <;> simpa [bistFails] using hlast
  have hfail : u.bist.fail = decide (fails ≠ []) := by
    rw [hu]
    cases fails <;> simp [bistFails, hok]
  refine ⟨t, ht, ?_⟩
  rw [if_pos hdone.ge, bistEnd_bist, if_neg (not_not.mpr hdone), hfail] at hbist
  rw [hbist, hu]
  cases fails <;> simp

/-! ## Aborts and restores -/

theorem bistConditionLost_aborts {mv : Nat} {ppm : Int} {s : State} (hlost : bistCond mv ppm s = false)
    (hrun : s.bist.state = .running) :
    exec (.bistConditionLost mv ppm) s = .next { s with bist.state := .aborting, bist.abort := 2 } := by
  simp [exec, execBistConditionLost, hlost, bistAbort, hrun]

theorem bistRestored_ends {n : Nat} {fs : List (Nat × Nat)} {s : State} (habort : s.bist.state = .aborting)
    (htotal : s.bist.total > 0) (hwait : s.pwr.waitReq = []) :
    completes (.bistRestored n fs) s fun t => t.bist.state = .idle ∧ t.bist.result = 3 ∧ t.bist.waitAbort = [] := by
  have hfails (u : State) : (bistFails fs u).bist.done = u.bist.done ∧ (bistFails fs u).bist.total = u.bist.total ∧
      (bistFails fs u).pwr = u.pwr := by
    unfold bistFails
    split <;> exact ⟨rfl, rfl, rfl⟩
  have hreq (u : State) : (bistEnd u).pwr.waitReq = u.pwr.waitReq := by simp [bistEnd, id @phaseEnd_keep, bistRecord_part]
  have hanswers (l : List (Nat × Port × BitVec 16)) (u : State) :
      (l.foldl (fun s q => answer q.1 q.2.1 q.2.2 (.ack 0 0 []) s) u).bist = u.bist :=
    foldl_keep (·.bist) _ l u fun t q => by simp [id @answer_keep]
  have hless : min (s.bist.done + n % bistSteps s.bist.last) (s.bist.total - 1) ≠ s.bist.total := by omega
  refine ⟨_, rfl, ?_⟩
  simp only [habort, bne_self_eq_false, Bool.false_eq_true, if_false, id @settle_keep, waitDone, hreq, hfails, hwait,
    List.foldl_nil, hanswers, bistEnd_bist, ne_eq, hless, not_false_eq_true, if_true, and_self]

/-! ## Background runs -/

theorem bistBackground_runs {mv : Nat} {ppm : Int} {ecc : List BistEcc} {s : State} (hrun : s.sys.run.bist = true)
    (hperiod : s.bist.period ≠ 0) (hfree : bistBusy s = false)
    (hdue : s.time.tns - s.bist.bgAt ≥ s.bist.period * 1000000000) (hcond : bistCond mv ppm s = true) :
    completes (.bistBackground mv ppm ecc) s fun t => t.bist.state = .running ∧ t.bist.bg = true ∧ t.bist.last = 0 ∧
      t.bist.region = s.bist.bgNext ∧ t.bist.total = 10 := by
  have hwait : ¬ since s s.bist.bgAt < s.bist.period * nsPerSec := Nat.not_lt.mpr hdue
  obtain ⟨hstate, hlast, -, hregion, -, -, -, htotal, hbg, -⟩ :=
    bistRun_starts 0 s.bist.bgNext 1 true ecc { s with bist.bgAt := s.time.tns }
  refine ⟨_, rfl, ?_⟩
  simp only [hrun, hperiod, hfree, hwait, hcond, Bool.not_true, decide_false, Bool.or_self, Bool.false_eq_true, if_false,
    if_true, id @settle_keep]
  exact ⟨hstate, hbg, hlast, hregion, htotal⟩

theorem bistBackground_skips {mv : Nat} {ppm : Int} {ecc : List BistEcc} {s : State} (hrun : s.sys.run.bist = true)
    (hperiod : s.bist.period ≠ 0) (hfree : bistBusy s = false)
    (hdue : s.time.tns - s.bist.bgAt ≥ s.bist.period * 1000000000) (hcond : bistCond mv ppm s = false) :
    exec (.bistBackground mv ppm ecc) s = .next { s with
      bist.bgAt := s.time.tns, bist.skips := sat 16 (s.bist.skips + 1) } := by
  have hwait : ¬ since s s.bist.bgAt < s.bist.period * nsPerSec := Nat.not_lt.mpr hdue
  simp [exec, execBistBackground, hrun, hperiod, hfree, hwait, hcond]

/-- Settles O43: a region's compares are counted, the last region ends the run with its result, and what stops a run leaves it
INCOMPLETE. -/
theorem selfTests : Obligations.SelfTests := by
  refine ⟨fun _ _ _ => bistRegionDone_goes_on, fun sig ecc s hrun h3 h4 hlast hok => ?_,
    fun a b fs sig ecc s hrun h3 h4 hok hlast => ?_, fun _ _ _ => bistConditionLost_aborts, fun _ _ _ => bistRestored_ends,
    fun _ _ _ _ => bistBackground_runs, fun _ _ _ _ => bistBackground_skips⟩
  · obtain ⟨t, ht, hstate, hresult, -⟩ := bistRegionDone_ends (fails := []) (sig := sig) (ecc := ecc) hrun h3 h4 hlast hok
    exact ⟨t, ht, hstate, hresult⟩
  · obtain ⟨t, ht, hstate, hresult, haddr, hbit, hcnt⟩ :=
      bistRegionDone_ends (fails := (a, b) :: fs) (sig := sig) (ecc := ecc) hrun h3 h4 hlast hok
    exact ⟨t, ht, hstate, hresult, by simp [haddr, bistFails, hok], by simp [hbit, bistFails, hok], by simp [hcnt, bistFails]⟩

/-! ## The error queue -/

/-- The entry taken next is in the queue, and none is more severe (R583). -/
theorem bestEnt_best {l : List ErrEnt} {e : ErrEnt} (h : bestEnt l = some e) : e ∈ l ∧ ∀ x ∈ l, x.sev ≤ e.sev := by
  induction l generalizing e with
  | nil => simp [bestEnt] at h
  | cons a l ih =>
    cases hl : bestEnt l with
    | none =>
      have hnil : l = [] := by
        cases l with
        | nil => rfl
        | cons b l =>
          rw [bestEnt] at hl
          split at hl
          · split at hl <;> cases hl
          · cases hl
      simp only [bestEnt, hl, Option.some.injEq] at h
      simp [h, hnil]
    | some f =>
      obtain ⟨hf, hbest⟩ := ih hl
      simp only [bestEnt, hl] at h
      split at h <;> obtain rfl := Option.some.inj h
      next hmore =>
        refine ⟨by simp [hf], fun x hx => ?_⟩
        rcases List.mem_cons.mp hx with rfl | hx
        · omega
        · exact hbest x hx
      next hless =>
        refine ⟨by simp, fun x hx => ?_⟩
        rcases List.mem_cons.mp hx with rfl | hx
        · exact le_rfl
        · exact (hbest x hx).trans (Nat.not_lt.mp hless)

theorem errqHandle_takes {e : ErrEnt} {s : State} (hrun : s.sys.run.steward = true)
    (hfree : s.evt.handling.length ≤ 1) (hbest : bestEnt s.evt.queue = some e) (hsev : e.sev > 0) :
    makes .errqHandle s fun u => u.evt.handling = [e] ∧ u.evt.queue = dropCode e.code s.evt.queue := by
  have hdone : s.evt.handling.drop 1 = [] := List.drop_of_length_le hfree
  refine ⟨takeEnt (overflowEnd { s with evt.handling := s.evt.handling.drop 1 }), ?_, ?_⟩
  · simp only [settlesTo, exec, execErrqHandle, hrun, Bool.not_true, Bool.false_eq_true, if_false]
  · simp only [takeEnt, overflowEnd, hdone, hbest, if_pos hsev, and_self]

theorem errqPreempt_suspends {e h : ErrEnt} {rest : List ErrEnt} {s : State} (hrun : s.sys.run.steward = true)
    (hhand : s.evt.handling = h :: rest) (hbest : bestEnt s.evt.queue = some e) (hsev : e.sev > h.sev) :
    exec .errqPreempt s = .next { s with
      evt.queue := dropCode e.code s.evt.queue, evt.handling := e :: h :: rest } := by
  simp [exec, execErrqPreempt, hrun, hhand, takeEnt, hbest, hsev]

theorem errqPreempt_waits {e h : ErrEnt} {rest : List ErrEnt} {s : State} (hhand : s.evt.handling = h :: rest)
    (hbest : bestEnt s.evt.queue = some e) (hsev : e.sev ≤ h.sev) : exec .errqPreempt s = .next s := by
  simp [exec, execErrqPreempt, hhand, takeEnt, hbest, Nat.not_lt.mpr hsev]

/-! ## A reset of the steward -/

theorem stewardReset_stops (b : Bool) {s : State} (hrun : s.sys.run.steward = true) :
    completes (.stewardReset b) s fun t => t.sys.step = 5 ∧ t.sys.cause = 4 ∧ t.sys.run.steward = false ∧
      t.sys.run.kernel = false ∧ t.sys.run.husk = s.sys.run.husk ∧ t.sys.run.acq = s.sys.run.acq := by
  refine ⟨_, rfl, ?_⟩
  simp [hrun, id @settle_sys, id @emit_keep, id @phaseStart_keep, id @imgAbandon_keep, id @nvAbandon_keep,
    id @winDiscard_keep, bootBegin, stewardStops]

/-- Settles O44: the most severe entry is taken and suspends a lesser one, and a reset stops what the steward runs. -/
theorem stewardHandles : Obligations.StewardHandles :=
  ⟨fun _ _ => errqHandle_takes, fun _ _ _ _ => errqPreempt_suspends, fun _ _ _ _ _ => errqPreempt_waits,
    fun _ _ => bestEnt_best, fun b _ => stewardReset_stops b⟩

end Sys2Proof.Machine
end

section
/-! PROOFS. The host link's requests and ports (R486, R489, R491, R492, R493, R495, R503, R515): a whole request at the port, the
form of a write, the events of the ports, and the statements of READ, WRITE, repeats and ports. -/

namespace Sys2Proof.Machine

/-! ## Whole requests (R493) -/

/-- A whole request that addresses the device is looked at with its frame noted. -/
theorem hostRequest_whole {op : Nat} {h : ReqHdr} (f : State → State × Reply) {s : State} (haddr : addressed h s = true)
    (hseg : h.seg = 0) (hmore : h.more = false) : hostRequest op h f s = hostExec op h f (reqSeen op h s) := by
  simp [hostRequest, haddr, hostFrame, segOk, hseg, hmore, reqSeen]

theorem hostExec_executing {op : Nat} {h : ReqHdr} (f : State → State × Reply) {s : State}
    (hex : executing op h.port h.tag s = true) : hostExec op h f s = s := by
  simp [hostExec, hex]

theorem hostExec_kept {op : Nat} {h : ReqHdr} (f : State → State × Reply) {m : Msg} {s : State}
    (hex : executing op h.port h.tag s = false) (hkept : keptAnswer op h.port h.tag s = some m) :
    hostExec op h f s = settlePins (txPush h.port m s) := by
  simp [hostExec, hex, hkept]

/-- Holding the sender's address answers no request. -/
theorem unanswered_noteAsk (op : Nat) (h : ReqHdr) (p : Port) (s : State) :
    unanswered p (noteAsk op h s) = unanswered p s := by
  simp [unanswered, id @noteAsk_keep]

theorem hostExec_full {op : Nat} {h : ReqHdr} (f : State → State × Reply) {s : State}
    (hex : executing op h.port h.tag s = false) (hkept : keptAnswer op h.port h.tag s = none)
    (hfull : unanswered h.port s ≥ 16) :
    hostExec op h f s = settle (answer op h.port h.tag (.nak 1 0) (noteAsk op h s)) := by
  have hfull' : unanswered h.port (noteAsk op h s) ≥ 16 := by rwa [unanswered_noteAsk]
  simp [hostExec, hex, hkept, hfull']

theorem segmentTimeout_discards (s : State) :
    completes .segmentTimeout s fun t => ∀ x ∈ (portOf t .can).part, s.time.tns - x.at0 < 50000000 :=
  ⟨_, rfl, fun x hx => by
    simp only [portOf_modPort, if_true, List.mem_filter] at hx
    exact of_decide_eq_true hx.2⟩

/-- Settles O53: a whole request is dropped, answered again, refused as one too many, or new. -/
theorem requestRepeats : Obligations.RequestRepeats :=
  ⟨fun op h f s haddr hseg hmore hex => (hostRequest_whole f haddr hseg hmore).trans (hostExec_executing f hex),
    fun op h f m s haddr hseg hmore hex hkept =>
      (hostRequest_whole f haddr hseg hmore).trans (hostExec_kept f hex hkept),
    fun op h f s haddr hseg hmore hex hkept hfull =>
      (hostRequest_whole f haddr hseg hmore).trans (hostExec_full f hex hkept hfull),
    fun op h f s hno => by simp [hostRequest, hno], segmentTimeout_discards⟩

/-! ## READ (R495) -/

/-- A COUNT that is not zero and within the port's most is well formed. -/
theorem count_ok {n : BitVec 16} {p : Port} (hn : n ≠ 0) (hmax : n.toNat ≤ maxWords p) :
    ¬ (n.toNat = 0 ∨ n.toNat > maxWords p) := by
  have : n.toNat ≠ 0 := fun h => hn (BitVec.eq_of_toNat_eq h)
  omega

theorem readReq_ok {p : Port} {a n : Nat} (s : State) (hn : ¬ (n = 0 ∨ n > maxWords p)) (hrange : rangeOk a n = true) :
    readReq p a n s = ((readWords p n a s).2, .ack 0 n (readWords p n a s).1) := by
  simp only [readReq, hn, hrange, if_false, Bool.true_eq_false]

/-- What a word latches is of the port alone. -/
theorem latchWord_host (p : Port) (a : Nat) (s : State) : ∃ ps, latchWord p a s = { s with host.ports := ps } := by
  simp only [latchWord]
  repeat' split
  all_goals exact ⟨_, rfl⟩

theorem readWords_length (p : Port) (n a : Nat) (s : State) : (readWords p n a s).1.length = n := by
  induction n generalizing a s with
  | zero => rfl
  | succ n ih => simp [readWords, ih]

/-- A READ changes nothing but what its port has latched. -/
theorem readWords_host (p : Port) (n a : Nat) (s : State) :
    (readWords p n a s).2 = { s with host.ports := (readWords p n a s).2.host.ports } := by
  induction n generalizing a s with
  | zero => rfl
  | succ n ih =>
    obtain ⟨ps, hps⟩ := latchWord_host p a s
    have e := ih (a + 4) (latchWord p a s)
    rw [hps] at e
    rw [readWords]
    dsimp only
    rw [hps, e]

/-- A read of one word of a control window is answered with what it reads once it has latched. -/
theorem answers_latch {c : Instr} {h : ReqHdr} {a : Nat} {s : State} (hx : exec c s = .next (latchReq h a s))
    (ha : a < 0x17000) (h4 : a % 4 = 0) (hf : freshReq 1 h s = true) :
    answers 1 h c s (.ack 0 1 [readWord h.port a (latchWord h.port a (reqStart 1 h s))])
      (latchWord h.port a (reqStart 1 h s)) := by
  have hw : windowOf a = some (.ctl (a / 4096)) := by simp [windowOf, ha]
  have hrange : rangeOk a 1 = true := by
    have : a + 4 * 1 - 4 = a := by omega
    simp [rangeOk, h4, hw, this]
  have hmax : ¬ (1 = 0 ∨ 1 > maxWords h.port) := by cases h.port <;> simp [maxWords]
  refine answers_fresh (f := readReq h.port a 1) hx hf ?_
  rw [readReq_ok _ hmax hrange]
  rfl

theorem oldestSeq_reqStart (op : Nat) (h : ReqHdr) (s : State) : oldestSeq (reqStart op h s) = oldestSeq s := by
  rw [reqStart_eq]
  rfl

theorem mod_two_pow_32 (n : Nat) : BitVec.ofNat 32 (n % 4294967296) = BitVec.ofNat 32 n := by
  apply BitVec.eq_of_toNat_eq
  simp

/-- Settles O51: a READ is answered with its words in turn, refused by its form, or latches first. -/
theorem hostReads : Obligations.HostReads := by
  refine ⟨fun h a n s hf hn hmax hrange => answers_fresh rfl hf (readReq_ok _ (count_ok hn hmax) hrange),
    fun h a s hf => answers_fresh rfl hf (by simp [readReq, refuse]), fun h a n s hf hn hmax hrange =>
      answers_fresh rfl hf (by simp [readReq, refuse, count_ok hn hmax, hrange]),
    fun p n a s => ⟨readWords_length p n a s, readWords_host p n a s⟩, fun h s hf => ?_, fun h b s hf => ?_,
    fun h s hf => ?_, fun h s hf => ?_⟩
  · have e := answers_latch (c := .timeTnsLatch h) (a := 0x3008) rfl (by decide) (by decide) hf
    have hread : readWord h.port 0x3008 (tnsLatch h.port (reqStart 1 h s)) = BitVec.ofNat 32 s.time.tns := by
      change w32 (tnsLatch h.port (reqStart 1 h s)).time.tns = _
      simp [tnsLatch, w32, id @modPort_keep, id @reqStart_keep]
    rw [show latchWord h.port 0x3008 (reqStart 1 h s) = tnsLatch h.port (reqStart 1 h s) from rfl, hread] at e
    exact e
  · have hb := b.isLt
    have e := answers_latch (c := .ledgBlockLatch h b) (a := 0x11100 + 64 * b.val) rfl (by omega) (by omega) hf
    have hlatch : latchWord h.port (0x11100 + 64 * b.val) (reqStart 1 h s) = blkLatch h.port b.val (reqStart 1 h s) := by
      have hix : regIx 0x11100 64 5 (0x11100 + 64 * b.val) = some b.val := by
        rw [regIx, if_pos (by omega)]
        exact congrArg some (by omega)
      simp only [latchWord, hix]
      rw [if_neg (by omega), if_neg (by omega), if_neg (by omega)]
    rwa [hlatch] at e
  · have e := answers_latch (c := .recSeqLatch h false) (a := 0x12008) rfl (by decide) (by decide) hf
    have hread : readWord h.port 0x12008 (seqLatch h.port (reqStart 1 h s)) = BitVec.ofNat 32 s.recd.pub := by
      change w32 (half 0 (seqLatch h.port (reqStart 1 h s)).recd.pub) = _
      simp [seqLatch, w32, half, id @modPort_keep, id @reqStart_keep, mod_two_pow_32]
    rw [show latchWord h.port 0x12008 (reqStart 1 h s) = seqLatch h.port (reqStart 1 h s) from rfl, hread] at e
    exact e
  · have e := answers_latch (c := .recSeqLatch h true) (a := 0x12010) rfl (by decide) (by decide) hf
    have hread : readWord h.port 0x12010 (oldLatch h.port (reqStart 1 h s)) = BitVec.ofNat 32 (oldestSeq s) := by
      have hold : oldestSeq (oldLatch h.port (reqStart 1 h s)) = oldestSeq s := oldestSeq_reqStart 1 h s
      change w32 (half 0 (oldestSeq (oldLatch h.port (reqStart 1 h s)))) = _
      rw [hold]
      simp [w32, half, mod_two_pow_32]
    rw [show latchWord h.port 0x12010 (reqStart 1 h s) = oldLatch h.port (reqStart 1 h s) from rfl, hread] at e
    exact e

end Sys2Proof.Machine
end

section
/-! PROOFS. WRITE and WRITE_P (R491, R494, R495, R630) and the events of the ports (R486, R489, R503): the checks of a write in
their order, what leaves an SPI port, and the two statements. -/

namespace Sys2Proof.Machine

/-! ## The checks of a write, in their order -/

section

variable {q : Req} {a : Nat} {ws : List Word} {s : State}

theorem writeWords_whole {n : Nat} (hn : ¬ (n = 0 ∨ n > maxWords q.port)) (hlen : ws.length = n)
    (hrange : rangeOk a n = true) : writeWords q a n ws s = writeAll q a ws s := by
  have hform : ¬ (n = 0 ∨ n > maxWords q.port ∨ ws.length ≠ n) := by
    rw [not_or] at hn ⊢
    exact ⟨hn.1, not_or.mpr ⟨hn.2, not_not.mpr hlen⟩⟩
  rw [writeWords, if_neg hform, if_neg (by simp [hrange])]

theorem writeAll_array (ha : 0x17000 ≤ a) (hsome : (windowOf a).isSome = true) :
    writeAll q a ws s = refuse 6 s := by
  have harr : ∃ k, windowOf a = some (.arr k) := by
    obtain ⟨w, hw⟩ := Option.isSome_iff_exists.mp hsome
    rw [hw]
    rw [windowOf, if_neg (by omega)] at hw
    repeat' split at hw
    exacts [⟨_, hw.symm⟩, ⟨_, hw.symm⟩, ⟨_, hw.symm⟩, ⟨_, hw.symm⟩, ⟨_, hw.symm⟩, nomatch hw]
  obtain ⟨k, hk⟩ := harr
  simp [writeAll, hk]

theorem writeAll_presence (ha : a < 0x17000) (hop : q.op = 3) (hclosed : presOpen s = false) :
    writeAll q a ws s = refuse 3 s := by
  simp [writeAll, windowOf, ha, hop, hclosed]

theorem writeAll_privilege (ha : a < 0x17000) (hop : q.op = 2)
    (hreach : (addrWords a ws).any (fun e => reaches q.port e.2.1 e.2.2 s) = true) :
    writeAll q a ws s = refuse 4 s := by
  simp only [writeAll, windowOf, ha, if_true, Option.any_some, Bool.false_eq_true, if_false, hop, hreach]
  rfl

/-- The write is allowed: presence for a WRITE_P, no RWP field for a WRITE (R495). -/
def writeMay (q : Req) (a : Nat) (ws : List Word) (s : State) : Prop :=
  (q.op = 3 → presOpen s = true) ∧
  (q.op = 2 → (addrWords a ws).any (fun e => reaches q.port e.2.1 e.2.2 s) = false)

theorem writeAll_refused (ha : a < 0x17000) (hmay : writeMay q a ws s) {st b : Nat} {v : Word}
    (hfirst : firstRefusal q (addrWords a ws) s = some (st, b, v)) :
    writeAll q a ws s = refuse st (noteRefusal q b v s) := by
  have h3 : ¬ (q.op = 3 ∧ presOpen s = false) := fun ⟨hop, hclosed⟩ => by simp [hmay.1 hop] at hclosed
  have h2 : ¬ (q.op = 2 ∧ (addrWords a ws).any (fun e => reaches q.port e.2.1 e.2.2 s) = true) :=
    fun ⟨hop, hreach⟩ => by rw [hmay.2 hop] at hreach; cases hreach
  simp only [writeAll, windowOf, ha, if_true, Option.any_some, Bool.false_eq_true, if_false, h3, h2, hfirst]

theorem writeAll_writes (ha : a < 0x17000) (hmay : writeMay q a ws s)
    (hfirst : firstRefusal q (addrWords a ws) s = none) :
    ∃ r, writeAll q a ws s = ((writeOrder (addrWords a ws)).foldl (fun s e => putReg q e.2.1 e.2.2 s) s, r) := by
  have h3 : ¬ (q.op = 3 ∧ presOpen s = false) := fun ⟨hop, hclosed⟩ => by simp [hmay.1 hop] at hclosed
  have h2 : ¬ (q.op = 2 ∧ (addrWords a ws).any (fun e => reaches q.port e.2.1 e.2.2 s) = true) :=
    fun ⟨hop, hreach⟩ => by rw [hmay.2 hop] at hreach; cases hreach
  simp only [writeAll, windowOf, ha, if_true, Option.any_some, Bool.false_eq_true, if_false, h3, h2, hfirst]
  split <;> exact ⟨_, rfl⟩

end

/-- Settles O52: a write is refused by the first of its checks that fails, and else all its words are written. -/
theorem hostWrites : Obligations.HostWrites := by
  refine ⟨fun h a n ws m s hf hn hmax hlen hrange ha hreach hfirst => ?_,
    fun h a n ws m s hf hpres hn hmax hlen hrange ha hfirst => ?_,
    fun h a n ws m s hf hclosed hn hmax hlen hrange ha => ?_,
    fun h a n ws m s hf hn hmax hlen hrange ha hreach => ?_,
    fun h a n ws m s st b v hf hn hmax hlen hrange ha hreach hfirst => ?_,
    fun h a n ws m s st b v hf hpres hn hmax hlen hrange ha hfirst => ?_,
    fun h a n ws m s hf hn hmax hlen hrange ha => ?_,
    fun h op s hf hop => answers_fresh (f := refuse 0x0C) (by simp [exec, execUnknownOp, hop]) hf rfl⟩
  · obtain ⟨r, hr⟩ := writeAll_writes (q := wrReq h false m) ha ⟨nofun, fun _ => hreach⟩ hfirst
    exact ⟨r, answers_fresh rfl hf ((writeWords_whole (count_ok hn hmax) hlen hrange).trans hr)⟩
  · obtain ⟨r, hr⟩ := writeAll_writes (q := wrReq h true m) (s := reqStart 3 h s) ha ⟨fun _ => by simpa using hpres, nofun⟩
      hfirst
    exact ⟨r, answers_fresh rfl hf ((writeWords_whole (count_ok hn hmax) hlen hrange).trans hr)⟩
  · exact answers_fresh rfl hf ((writeWords_whole (count_ok hn hmax) hlen hrange).trans
      (writeAll_presence ha rfl (by simpa using hclosed)))
  · exact answers_fresh rfl hf ((writeWords_whole (count_ok hn hmax) hlen hrange).trans
      (writeAll_privilege (q := wrReq h false m) ha rfl hreach))
  · exact answers_fresh rfl hf ((writeWords_whole (count_ok hn hmax) hlen hrange).trans
      (writeAll_refused (q := wrReq h false m) ha ⟨nofun, fun _ => hreach⟩ hfirst))
  · exact answers_fresh rfl hf ((writeWords_whole (count_ok hn hmax) hlen hrange).trans
      (writeAll_refused (q := wrReq h true m) ha ⟨fun _ => by simpa using hpres, nofun⟩ hfirst))
  · have hsome : (windowOf a.toNat).isSome = true := by
      simp only [rangeOk, Bool.and_eq_true] at hrange
      exact hrange.1.2
    exact answers_fresh rfl hf ((writeWords_whole (count_ok hn hmax) hlen hrange).trans (writeAll_array ha hsome))

/-! ## The events of the ports -/

theorem keepAlive_sends {s : State} (htalk : mayTalk s .t1s = true) (hempty : (portOf s .t1s).txq = []) :
    completes .keepAlive s fun t => t.host.keepalive = sat 16 (s.host.keepalive + 1) ∧
      ∃ m, (portOf t .t1s).txq = [m] ∧ m.op = 6 ∧ m.body = le 4 0 := by
  have hport (u : State) : portOf (settle u) .t1s = portOf u .t1s := by simp [portOf, id @settle_keep]
  have hsame (n : Nat) (x : Option Nat) : portOf { s with host.keepalive := n, host.plcaAt := x } .t1s = portOf s .t1s := rfl
  refine ⟨_, rfl, ?_⟩
  simp only [htalk, hempty, List.isEmpty_nil, Bool.and_self, if_true, hport, portOf_txPush, hsame, txInsert,
    id @settle_keep]
  exact ⟨rfl, _, rfl, rfl, rfl⟩

theorem spiTransaction_sends {f : Option Bool} {s : State} (hrun : portRuns s .spi = true) :
    completes (.spiTransaction f) s fun t => (portOf t .spi).txq = (portOf s .spi).txq.drop 1 ∧
      t.host.spiAt = some s.time.tns ∧
      t.host.errSpi = (if f = some false then sat 8 (s.host.errSpi + 1) else s.host.errSpi) ∧
      (portOf t .spi).wire = match (portOf s .spi).txq with
        | m :: _ => [{ bytes := spiFrame m s }]
        | [] => [{ bytes := List.replicate 8 0 }] := by
  have hport (u : State) (x : Option Nat) (n : Nat) :
      portOf (settle { u with host.spiAt := x, host.errSpi := n }) .spi = portOf u .spi := by
    simp [portOf, id @settle_keep]
  refine ⟨_, rfl, ?_⟩
  simp only [hrun, Bool.not_true, Bool.false_eq_true, if_false, hport, id @settle_keep, beq_iff_eq, true_and]
  cases hq : (portOf s .spi).txq <;> simp [txPop, hq, wireFrames]

theorem canBusOff_counts {n : Nat} {s : State} (hon : s.host.can ≠ .off) (hbus : s.host.can ≠ .busOff) :
    makes (.canBusOff .busOff n) s fun t => t.host.can = .busOff ∧ t.host.busOffs = sat 32 (s.host.busOffs + 1) ∧
      t.host.errCan = sat 8 (s.host.errCan + n) := by
  refine ⟨emit 0x0A03 (le 4 (sat 32 (s.host.busOffs + 1))) { s with
    host.errCan := sat 8 (s.host.errCan + n), host.can := .busOff, host.busOffs := sat 32 (s.host.busOffs + 1) }, ?_, ?_⟩
  · simp [settlesTo, exec, execCanBusOff, hon, hbus]
  · simp [id @emit_keep]

theorem canBusOff_recovers {n : Nat} {s : State} (hbus : s.host.can = .busOff) :
    makes (.canBusOff .recovered n) s fun t => t.host.can = .active :=
  ⟨{ s with host.errCan := sat 8 (s.host.errCan + n), host.can := .active },
    by simp [settlesTo, exec, execCanBusOff, hbus], rfl⟩

/-- Settles O57: the keep-alive, the frame of an SPI transaction, and the states of the CAN FD controller. -/
theorem portEvents : Obligations.PortEvents :=
  ⟨fun _ => keepAlive_sends, fun _ _ => spiTransaction_sends, fun s hrun => by simp [exec, execSpiEarlyEnd, hrun],
    fun _ _ => canBusOff_counts, fun _ _ => canBusOff_recovers, fun n s hact => by simp [exec, execCanBusOff, hact]⟩

end Sys2Proof.Machine
end

section
/-! PROOFS. Streams (R507, R509, R510): what a request begins with, which slot a stream takes, what a snapshot and a part leave,
and the statement of them. -/

namespace Sys2Proof.Machine

/-! ## What a request that begins leaves of the streams -/

@[simp] theorem str_reqStart (op : Nat) (h : ReqHdr) (s : State) : (reqStart op h s).host.str = s.host.str := by
  simp only [id @reqStart_host]

@[simp] theorem freeSlot_reqStart (op : Nat) (h : ReqHdr) (s : State) : freeSlot (reqStart op h s) = freeSlot s := by
  simp [freeSlot]

@[simp] theorem portStreams_reqStart (op : Nat) (h : ReqHdr) (s : State) (p : Port) :
    portStreams (reqStart op h s) p = portStreams s p := by
  simp [portStreams]

@[simp] theorem portLimit_reqStart (op : Nat) (h : ReqHdr) (s : State) (p : Port) :
    portLimit (reqStart op h s) p = portLimit s p := by
  cases p <;> simp [portLimit, id @reqStart_host]

@[simp] theorem streamLoad_reqStart (op : Nat) (h : ReqHdr) (s : State) (x : Stream) :
    streamLoad (reqStart op h s) x = streamLoad s x := by
  rw [reqStart_eq]
  rfl

/-! ## Opening and closing -/

/-- The stream that a STREAM_OPEN asks for, as its load is counted. -/
def askedStream (p : Port) (stype sid period : Nat) (ps : List Byte) : Stream :=
  { port := p, stype := stype, sid := sid, period := period, first := fld ps 0 2, count := fld ps 2 2 }

section

variable {p : Port} {stype sid period : Nat} {ps : List Byte} {s : State}

theorem streamOpen_full (hchk : streamChk p stype period ps s = 0) (hfree : freeSlot s = none) :
    streamOpen p stype sid period ps s = (s, .nak 0x0A 0) := by
  simp [streamOpen, hchk, hfree, refuse]

theorem streamOpen_overload {k : Nat} (hchk : streamChk p stype period ps s = 0) (hfree : freeSlot s = some k)
    (hload : portLimit s p < portLoad s p + streamLoad s (askedStream p stype sid period ps)) :
    streamOpen p stype sid period ps s = (s, .nak 0x0B 0) := by
  simp only [streamOpen, hchk, ne_eq, not_true, if_false, hfree]
  exact if_pos hload

/-- A stream whose load fits takes the first free slot, and its first period instant is now. -/
theorem streamOpen_takes {k : Nat} (hchk : streamChk p stype period ps s = 0) (hfree : freeSlot s = some k)
    (hload : portLoad s p + streamLoad s (askedStream p stype sid period ps) ≤ portLimit s p) :
    ∃ u y, streamOpen p stype sid period ps s = (u, .ack sid 0 []) ∧ Tab.get none u.host.str k = some y ∧ y.port = p ∧
      y.stype = stype ∧ y.sid = sid ∧ y.period = period ∧ y.nextAt = s.time.tns := by
  let x : Stream := { askedStream p stype sid period ps with cursor := freeCursor s, nextAt := s.time.tns }
  let y : Stream := if stype = 3 then { x with first := 0, count := 0 } else { x with cursor := 0 }
  let u := if stype = 3 then cursorOpen x.cursor p ps s else s
  refine ⟨{ u with host.str := Tab.set none u.host.str k (some y) }, y, ?_, by simp, ?_⟩
  · simp only [streamOpen, hchk, ne_eq, not_true, if_false, hfree]
    exact if_neg (not_lt.mpr hload)
  · simp only [y]
    split <;> exact ⟨rfl, rfl, rfl, rfl, rfl⟩

end

/-- A STREAM_OPEN of a type has the effect of an opening. -/
theorem exec_streamOpen {h : ReqHdr} {stype sid : Byte} {period : BitVec 16} {ps : List Byte} (s : State)
    (ht : stype ≠ 0) : exec (.streamOpen h stype sid period ps) s =
      .next (hostRequest 4 h (streamOpen h.port stype.toNat sid.toNat period.toNat ps) s) := by
  have hopen : (fun s => if stype = 0 then streamClose h.port sid.toNat s
      else streamOpen h.port stype.toNat sid.toNat period.toNat ps s) =
        streamOpen h.port stype.toNat sid.toNat period.toNat ps := funext fun _ => if_neg ht
  exact congrArg (fun f => Host.Outcome.next (hostRequest 4 h f s)) hopen

/-- A closing leaves the streams of other ports and other SIDs (R507). -/
theorem streamClose_closes {h : ReqHdr} {sid : Byte} {s : State} (hf : freshReq 4 h s = true) :
    ∃ u, answers 4 h (.streamClose h sid) s (.ack sid.toNat 0 []) u ∧
      (∀ x ∈ portStreams u h.port, x.sid ≠ sid.toNat) ∧
      (∀ p x, x ∈ portStreams s p → (p ≠ h.port ∨ x.sid ≠ sid.toNat) → x ∈ portStreams u p) := by
  have hport (p : Port) (x : Stream) (hx : x ∈ portStreams s p) : x.port = p := by
    simpa using (List.mem_filter.mp hx).2
  refine ⟨_, answers_fresh rfl hf rfl, fun x hx => ?_, fun p x hx hother => ?_⟩
  · rw [portStreams_closeStreams, portStreams_reqStart] at hx
    obtain ⟨hx, hkept⟩ := List.mem_filter.mp hx
    simpa [hport _ x hx] using hkept
  · rw [portStreams_closeStreams, portStreams_reqStart]
    refine List.mem_filter.mpr ⟨hx, ?_⟩
    rw [hport p x hx]
    rcases hother with hp | hs
    · simp [hp]
    · simp [hs]

/-! ## Snapshots -/

/-- The next period instant is the first after `t` (R509). -/
theorem nextInstant_bounds {x : Stream} {t : Nat} (hp : 0 < x.period) (ht : t ≥ x.nextAt) :
    t < nextInstant x t ∧ nextInstant x t ≤ t + x.period * 1000000 := by
  have hpos : 0 < x.period * 1000000 := by omega
  have hdiv := Nat.div_add_mod (t - x.nextAt) (x.period * 1000000)
  have hmod := Nat.mod_lt (t - x.nextAt) hpos
  have hmul : x.period * 1000000 * ((t - x.nextAt) / (x.period * 1000000) + 1) =
      x.period * 1000000 * ((t - x.nextAt) / (x.period * 1000000)) + x.period * 1000000 := Nat.mul_succ ..
  unfold nextInstant
  omega

theorem streamSnapshot_takes {k : Fin 8} {x : Stream} {t : Nat} {s : State}
    (hslot : Tab.get none s.host.str k.val = some x) (hat : s.sys.commitAt = some t) (htype : x.stype ≠ 3)
    (hdue : t ≥ x.nextAt) (hp : 0 < x.period) :
    makes (.streamSnapshot k) s fun u => ∃ y, Tab.get none u.host.str k.val = some y ∧ y.parts = snapBodies s x ∧
      t < y.nextAt ∧ y.nextAt ≤ t + x.period * 1000000 ∧
      (x.parts = [] → (∀ m ∈ (portOf s x.port).txq, m.slot ≠ some k.val) → y.drop = x.drop ∧ y.dropNext = x.dropNext) ∧
      (x.parts ≠ [] → y.drop = sat 16 (x.drop + 1) ∧ y.dropNext = true) ∧
      ∀ m ∈ (portOf u x.port).txq, m.slot ≠ some k.val := by
  obtain ⟨hlo, hhi⟩ := nextInstant_bounds hp hdue
  let drop := !x.parts.isEmpty || (portOf s x.port).txq.any fun m => m.slot == some k.val
  refine ⟨snapshot k.val x t s, by simp [settlesTo, exec, execStreamSnapshot, hslot, hat, htype, hdue],
    { x with parts := snapBodies s x, drop := if drop then sat 16 (x.drop + 1) else x.drop
             dropNext := drop || x.dropNext, nextAt := nextInstant x t },
    by simp [snapshot, modPort, drop], rfl, hlo, hhi, fun hparts hq => ?_, fun hparts => ?_, ?_⟩
  · have hno : drop = false := by simpa [drop, hparts] using hq
    simp [hno]
  · have hyes : drop = true := by simp [drop, hparts]
    simp [hyes]
  · simp [snapshot]

theorem streamPartSend_snap {k : Fin 8} {bad : List (BitVec 48)} {x : Stream} {b : List Byte} {rest : List (List Byte)}
    {s : State} (hslot : Tab.get none s.host.str k.val = some x) (htype : x.stype ≠ 3) (htalk : mayTalk s x.port = true)
    (hparts : x.parts = b :: rest) :
    makes (.streamPartSend k bad) s fun u =>
      Tab.get none u.host.str k.val = some { x with parts := rest, dropNext := false } ∧
      ∃ m ∈ (portOf u x.port).txq, m.op = 5 ∧ m.slot = some k.val ∧
        m.body = b.take 3 ++ le 1 (b2n x.dropNext) ++ b.drop 4 := by
  refine ⟨snapSend k.val x s, by simp [settlesTo, exec, execStreamPartSend, hslot, htype, htalk], ?_, ?_⟩
  · simp [snapSend, hparts, txPush, modPort]
  · simp only [snapSend, hparts, portOf_txPush]
    exact ⟨_, mem_txInsert _ _, rfl, rfl, rfl⟩

/-! ## Parts of records -/

theorem mem_insRec {r y : Rec} {l : List Rec} (h : y ∈ insRec r l) : y = r ∨ y ∈ l := by
  induction l with
  | nil => exact .inl (List.mem_singleton.mp h)
  | cons x xs ih =>
    rw [insRec] at h
    split at h
    · exact List.mem_cons.mp h
    split at h
    · exact .inr h
    · rcases List.mem_cons.mp h with rfl | h
      · exact .inr (by simp)
      · exact (ih h).imp_right (List.mem_cons_of_mem _)

theorem mem_foldl_insRec {l acc : List Rec} {y : Rec} (h : y ∈ l.foldl (fun l r => insRec r l) acc) :
    y ∈ l ∨ y ∈ acc := by
  induction l generalizing acc with
  | nil => exact .inr h
  | cons r l ih =>
    rcases ih h with h | h
    · exact .inl (List.mem_cons_of_mem _ h)
    · exact (mem_insRec h).imp (fun e => by simp [e]) id

/-- No record before a cursor's next is read again (R477). -/
theorem cursorRecs_seq {s : State} {c : Cursor} {r : Rec} (h : r ∈ cursorRecs s c) : c.next ≤ r.seq := by
  rcases mem_foldl_insRec h with h | h
  · have hok := (List.mem_filter.mp h).2
    simp only [decide_eq_true_eq] at hok
    exact hok.1
  · cases h

/-- What has been read lies behind the next SEQ. -/
theorem takeRecs_next {bad : List Nat} {lo : Nat} {l : List Rec} (hl : ∀ r ∈ l, lo ≤ r.seq) {room next : Nat}
    (hnext : lo ≤ next) : lo ≤ (takeRecs bad room next l).2.1 := by
  induction l generalizing room next with
  | nil => exact hnext
  | cons r l ih =>
    have hr : lo ≤ r.seq + 1 := (hl r (by simp)).trans (Nat.le_succ _)
    have hrest : ∀ x ∈ l, lo ≤ x.seq := fun x hx => hl x (by simp [hx])
    rw [takeRecs]
    split
    · exact ih hrest hr
    split
    · exact ih hrest hr
    · exact hnext

theorem streamPartSend_rec {k : Fin 8} {bad : List (BitVec 48)} {x : Stream} {s : State}
    (hslot : Tab.get none s.host.str k.val = some x) (htype : x.stype = 3) (htalk : mayTalk s x.port = true) :
    makes (.streamPartSend k bad) s fun u => u.host.str = s.host.str ∧
      (cursorOf u x.cursor).next ≥ (cursorOf s x.cursor).next := by
  have hnext : (cursorOf s x.cursor).next ≤ (takeRecs (bad.map (·.toNat)) (recRoom x.port) (cursorOf s x.cursor).next
      (cursorRecs s (cursorOf s x.cursor))).2.1 := takeRecs_next (fun r hr => cursorRecs_seq hr) le_rfl
  refine ⟨recPart k.val x (bad.map (·.toNat)) s, by simp [settlesTo, exec, execStreamPartSend, hslot, htype, htalk], ?_⟩
  simp only [recPart]
  split
  · exact ⟨rfl, by simpa [cursorOf] using hnext⟩
  · exact ⟨rfl, by simpa [cursorOf, txPush, modPort] using hnext⟩

/-- Settles O54: the first free slot is taken where the load fits, a closing leaves other streams, a snapshot drops what had
not left, and no part goes back. -/
theorem streamsRun : Obligations.StreamsRun := by
  refine ⟨fun h stype sid period ps s k hf ht hchk hfree hload => ?_,
    fun h stype sid period ps s hf ht hchk hfree => ?_,
    fun h stype sid period ps s k hf ht hchk hfree hload => ?_, fun _ _ _ => streamClose_closes,
    fun _ _ _ _ => streamSnapshot_takes, fun _ _ _ _ _ _ => streamPartSend_snap, fun _ _ _ _ => streamPartSend_rec⟩
  · obtain ⟨u, y, hu, hy⟩ := streamOpen_takes (s := reqStart 4 h s) (sid := sid.toNat) hchk (by simpa using hfree)
      (by simpa [askedStream] using hload)
    have ht0 : (reqStart 4 h s).time = s.time := by simp only [id @reqStart_keep]
    rw [ht0] at hy
    exact ⟨u, y, answers_fresh (exec_streamOpen s ht) hf hu, hy⟩
  · exact answers_fresh (exec_streamOpen s ht) hf (streamOpen_full hchk (by simpa using hfree))
  · exact answers_fresh (exec_streamOpen s ht) hf (streamOpen_overload hchk (by simpa using hfree)
      (by simpa [askedStream] using hload))

end Sys2Proof.Machine
end

section
/-! PROOFS. No key can be read (R525): what a register, a READ and a snapshot see of the key material, and the statement of it. -/

namespace Sys2Proof.Machine

variable {p : Port} {a : Nat} {s : State}

/-- What the registers show of the key material: the warning level, the tamper count, and of each key whether it is locked
and whether it is present. -/
def KeysShowSame (k l : KeyMat) : Prop :=
  k.pfwLevel = l.pfwLevel ∧ k.tamper = l.tamper ∧
    ∀ id, ((keyGet k id).getD {}).lock = ((keyGet l id).getD {}).lock ∧
      ((keyGet k id).getD {}).val.isEmpty = ((keyGet l id).getD {}).val.isEmpty

/-! ## A register and the key material -/

theorem secKeys_congr {k : KeyMat} (h : KeysShowSame k s.nv.keys) : secKeys { s with nv.keys := k } = secKeys s := by
  obtain ⟨-, -, hkeys⟩ := h
  have hlock (id : Nat) := (hkeys id).1
  have hempty (id : Nat) := (hkeys id).2
  simp only [secKeys, List.map_cons, List.map_nil, List.zipIdx_cons, List.zipIdx_nil, hlock, hempty]

theorem readPwr_congr {k : KeyMat} (h : KeysShowSame k s.nv.keys) : readPwr a { s with nv.keys := k } = readPwr a s := by
  obtain ⟨hlevel, -, -⟩ := h
  unfold readPwr
  split
  case h_2 => rw [hlevel]
  all_goals rfl

theorem readSecW_congr {k : KeyMat} (h : KeysShowSame k s.nv.keys) :
    readSecW a { s with nv.keys := k } = readSecW a s := by
  have hkeys := secKeys_congr h
  obtain ⟨-, htamper, -⟩ := h
  unfold readSecW
  split
  case h_5 => rw [htamper]
  case h_6 => rw [hkeys]
  all_goals rfl

theorem readNvLedg_withKeys (k : KeyMat) : readNvLedg p a { s with nv.keys := k } = readNvLedg p a s := rfl

theorem readNvLedg_withDevKey (d : List Byte) : readNvLedg p a { s with sec.devKey := d } = readNvLedg p a s := rfl

/-- A register reads the same with key material that shows the same; only PWR and SEC look at it at all. -/
theorem readWord_congr_keys {k : KeyMat} (h : KeysShowSame k s.nv.keys) :
    readWord p a { s with nv.keys := k } = readWord p a s := by
  unfold readWord
  split
  · rfl
  · split
    case h_3 => exact readPwr_congr h
    case h_18 => exact readNvLedg_withKeys k
    case h_21 => exact readSecW_congr h
    all_goals rfl
  · rfl

theorem readWord_devKey (d : List Byte) : readWord p a { s with sec.devKey := d } = readWord p a s := by
  unfold readWord
  split
  · rfl
  · split
    case h_18 => exact readNvLedg_withDevKey d
    all_goals rfl
  · rfl

/-! ## A READ -/

/-- What a READ latches does not depend on the key material, and leaves it. -/
theorem latchWord_withKeys (k : KeyMat) :
    latchWord p a { s with nv.keys := k } = { latchWord p a s with nv.keys := k } := by
  unfold latchWord
  split
  · rfl
  split
  · rfl
  split
  · rfl
  split <;> rfl

theorem readWords_congr_keys {k : KeyMat} {n : Nat} (h : KeysShowSame k s.nv.keys) :
    (readWords p n a { s with nv.keys := k }).1 = (readWords p n a s).1 := by
  induction n generalizing a s with
  | zero => rfl
  | succ n ih =>
    have hlatched : KeysShowSame k (latchWord p a s).nv.keys := by
      obtain ⟨ps, hps⟩ := latchWord_host p a s
      rwa [hps]
    simp only [readWords, latchWord_withKeys, readWord_congr_keys hlatched, ih hlatched]

/-! ## Another value of a present key -/

theorem keyGet_keyPut_same {m : KeyMat} {id : Nat} {k v : Key} (hk : keyGet m id = some k) :
    keyGet (keyPut m id v) id = some v := by
  unfold keyGet keyPut at *
  split_ifs at * <;> simp

/-- The slots of the pod keys are those of their KEY_IDs, each its own. -/
theorem keyGet_keyPut_other {m : KeyMat} {id j : Nat} {k v : Key} (hk : keyGet m id = some k) (hj : j ≠ id) :
    keyGet (keyPut m id v) j = keyGet m j := by
  unfold keyGet keyPut at *
  split_ifs at * <;> simp <;> omega

/-- Another value for a key that is present shows the same. -/
theorem keyPut_showsSame {m : KeyMat} {id : Nat} {k : Key} {v : List Byte} (hk : keyGet m id = some k)
    (hv : v = [] ↔ k.val = []) : KeysShowSame (keyPut m id { k with val := v }) m := by
  have hempty : v.isEmpty = k.val.isEmpty := by
    rw [Bool.eq_iff_iff, List.isEmpty_iff, List.isEmpty_iff, hv]
  refine ⟨by unfold keyPut; split_ifs <;> rfl, by unfold keyPut; split_ifs <;> rfl, fun j => ?_⟩
  by_cases hj : j = id
  · subst hj
    rw [keyGet_keyPut_same hk, hk]
    exact ⟨rfl, hempty⟩
  · rw [keyGet_keyPut_other hk hj]
    exact ⟨rfl, rfl⟩

/-- Settles O58: of the key material only its lengths, locks and counts are shown, and those another value leaves. -/
theorem keysUnread : Obligations.KeysUnread :=
  ⟨fun _ _ _ _ => readWord_devKey _, fun _ _ _ _ _ _ hk hv => readWord_congr_keys (keyPut_showsSame hk hv),
    fun _ _ _ _ _ _ _ hk hv => readWords_congr_keys (keyPut_showsSame hk hv), fun _ _ _ _ _ _ => rfl⟩

end Sys2Proof.Machine
end

section
/-! PROOFS. Reset values (R632): the table by window and offset, what each window reads at reset, and the statement of it. -/

namespace Sys2Proof.Machine

/-! ## The table by window and offset -/

/-- The table of R632 (`resetWord`) by the window of a register and its offset in the window. -/
def resetAt (n o : Nat) : Word :=
  match n with
  | 0x00 => if o = 0x000 then 0x00000600 else if o = 0x048 then 0x00100000 else 0
  | 0x02 => if o = 0x000 then 0x08000000 else 0
  | 0x03 => if o = 0x000 then 0x00000771 else if o = 0x004 then 0x00000002 else if o = 0x02C then 0x233C0020 else 0
  | 0x04 => if o = 0x00C then 0x32C82EE0 else if o = 0x010 then 0x2CEC38A4 else 0
  | 0x06 | 0x07 => if o = 0x000 then 0x00000008 else if 0x100 ≤ o ∧ o < 0x480 ∧ o % 16 = 8 then 0xFFFFFFFF
      else if 0x100 ≤ o ∧ o < 0x480 ∧ o % 16 = 12 then 0x0000000F else 0
  | 0x09 => if 0x040 ≤ o ∧ o < 0x0C0 ∧ o % 16 = 0 then 0x00000001
      else if 0x040 ≤ o ∧ o < 0x0C0 ∧ o % 16 = 4 then 0x0007A120
      else if 0x040 ≤ o ∧ o < 0x0C0 ∧ o % 16 = 12 then 0x03FF0000 else 0
  | 0x0B => if o = 0x000 then 0xFFFF0000 else 0
  | 0x0D => if o = 0x000 then 0xFFFFFFFF else 0
  | 0x0E => if o = 0x008 then 0x01F00000 else if 0x100 ≤ o ∧ o < 0x200 ∧ o % 64 = 0 then 0xC0000000 else 0
  | 0x10 => if o = 0x000 then 0x0000FFFF else if o = 0x008 then 0x00000001 else 0
  | 0x11 => if o = 0x000 then 0x00000100 else 0
  | 0x12 => if o = 0x000 then 0x44000000 else if o = 0x018 then 0x00000FA0 else if o = 0x024 then 0x00000040 else 0
  | 0x13 => if o = 0x004 then 0x0000003F else if o = 0x008 then 0x007B001E else 0
  | 0x15 => if o = 0x008 then 0x00010000 else 0
  | 0x16 => if o = 0x018 then 0x00010000 else 0
  | _ => 0

theorem eq_iff_window (a l : Nat) : a = l ↔ a / 4096 = l / 4096 ∧ a % 4096 = l % 4096 := by
  constructor
  · rintro rfl
    exact ⟨rfl, rfl⟩
  · rintro ⟨hq, hr⟩
    rw [← Nat.div_add_mod a 4096, hq, hr, Nat.div_add_mod]

theorem resetWord_eq (a : Nat) : resetWord a = resetAt (a / 4096) (a % 4096) := by
  have e := eq_iff_window a
  simp only [resetWord, e 0x00000, e 0x00048, e 0x02000, e 0x03000, e 0x03004, e 0x0302C, e 0x0400C, e 0x04010, e 0x06000,
    e 0x07000, e 0x0B000, e 0x0D000, e 0x0E008, e 0x10000, e 0x10008, e 0x11000, e 0x12000, e 0x12018, e 0x12024, e 0x13004,
    e 0x13008, e 0x15008, e 0x16018, Nat.reduceDiv, Nat.reduceMod]
  clear e
  generalize a / 4096 = n, a % 4096 = o
  fun_cases resetAt n o
  case case48 => simp_all
  all_goals simp [*]

/-! ## The windows whose offsets are single words -/

section

variable {p : Port} {o : Nat}

theorem portOf_reset (p : Port) : portOf State.reset p = {} := rfl

theorem readSys_reset (ho : o ≠ 4) : readSys o State.reset = resetAt 0x00 o := by
  unfold readSys
  split
  case h_2 => exact absurd rfl ho
  case h_12 => simp_all [resetAt]
  all_goals rfl

theorem readPwr_reset : readPwr o State.reset = resetAt 0x02 o := by
  unfold readPwr
  split
  case h_6 => simp_all [resetAt]
  all_goals rfl

theorem readTime_reset : readTime p o State.reset = resetAt 0x03 o := by
  unfold readTime
  simp only [portOf_reset]
  split
  case h_13 => simp_all [resetAt]
  all_goals decide +kernel

theorem readImg_reset : readImg o State.reset = resetAt 0x05 o := by
  have hsel : State.reset.img.selected = false := rfl
  have hlen : State.reset.img.stageLen = 0 := rfl
  simp only [readImg, hsel, hlen, Bool.not_false, if_true]
  exact ite_self _

theorem readSecW_reset (h0 : o ≠ 0x10) (h1 : o ≠ 0x14) (h2 : o ≠ 0x18) : readSecW o State.reset = resetAt 0x14 o := by
  unfold readSecW
  split
  case h_3 => exact absurd rfl h0
  case h_4 => exact absurd rfl h1
  case h_5 => exact absurd rfl h2
  all_goals rfl

theorem readBist_reset : readBist p o State.reset = resetAt 0x15 o := by
  unfold readBist
  simp only [portOf_reset]
  split
  case h_14 => simp_all [resetAt]
  all_goals rfl

/-! ## The windows with registers for a cell that a port selects -/

theorem readAcqW_reset : readAcqW p o State.reset = resetAt 0x08 o := by
  unfold readAcqW
  simp only [portOf_reset]
  split
  all_goals rfl

theorem readWinW_reset : readWinW p o State.reset = resetAt 0x0F o := by
  unfold readWinW
  simp only [portOf_reset]
  split
  all_goals rfl

theorem readEstStr_reset {i k : Nat} (hk : k < 16) : readEstStr i k State.reset = if k = 0 then 0xC0000000 else 0 := by
  interval_cases k <;> rfl

theorem readEstCell_reset (c : Nat) : readEstCell o c State.reset = 0 := rfl

theorem readEstW_reset (h4 : o % 4 = 0) : readEstW p o State.reset = resetAt 0x0E o := by
  unfold readEstW
  simp only [portOf_reset]
  split
  · next h =>
    have h0 : o % 64 / 4 = 0 ↔ o % 64 = 0 := by omega
    have h8 : o ≠ 8 := by omega
    simp only [readEstStr_reset (show o % 64 / 4 < 16 by omega), resetAt, h0, h8, h.1, h.2, if_false, true_and]
  · next h =>
    have hrange : ¬(0x100 ≤ o ∧ o < 0x200 ∧ o % 64 = 0) := fun hin => h ⟨hin.1, hin.2.1⟩
    split
    case h_6 => simp_all [resetAt, readEstCell_reset]
    all_goals rfl

/-! ## The windows with ranges of like registers -/

theorem regIx_bounds {base step n i : Nat} (h : regIx base step n o = some i) : base ≤ o ∧ o < base + step * n := by
  unfold regIx at h
  split at h
  · next hin => exact ⟨hin.1, hin.2.1⟩
  · contradiction

theorem readEvt_reset : readEvt o State.reset = resetAt 0x01 o := by
  have hzero (i : Nat) : ((0 : BitVec 128) >>> (32 * i)).setWidth 32 = (0 : Word) := by simp
  have hzero' (i : Nat) : ((0 : BitVec 256) >>> (32 * i)).setWidth 32 = (0 : Word) := by simp
  unfold readEvt
  split
  case h_1 => exact hzero _
  case h_2 => exact hzero' _
  case h_3 => exact hzero _
  case h_4 => split <;> rfl

theorem readTherm_reset : readTherm' o State.reset = resetAt 0x04 o := by
  unfold readTherm'
  split
  · next h =>
    have hin := regIx_bounds h
    have h0C : o ≠ 0x00C := by omega
    have h10 : o ≠ 0x010 := by omega
    have hs (i : Nat) : sensor State.reset i = {} := rfl
    simp only [resetAt, h0C, h10, if_false, hs]
    decide +kernel
  · split
    case h_6 => simp_all [resetAt]
    all_goals decide +kernel

theorem nodeOf_reset (r k : Nat) : nodeOf State.reset r k = {} := rfl

theorem ringOf_reset (r : Nat) : ringOf State.reset r = {} := rfl

theorem readRing_reset {r : Nat} (hr : r = 0 ∨ r = 1) (h4 : o % 4 = 0) : readRing r o State.reset = resetAt (6 + r) o := by
  have htable : resetAt (6 + r) o = resetAt 6 o := by rcases hr with rfl | rfl <;> rfl
  rw [htable]
  unfold readRing
  simp only [nodeOf_reset, ringOf_reset]
  split
  · next h =>
    have h0 : o ≠ 0 := by omega
    have hlo : 0x100 ≤ o := h.1
    have hhi : o < 0x480 := h.2
    have hreg : o % 16 = 0 ∨ o % 16 = 4 ∨ o % 16 = 8 ∨ o % 16 = 12 := by omega
    simp only [resetAt, h0, hlo, hhi, if_false, true_and]
    rcases hreg with h | h | h | h <;> rw [h] <;> rfl
  · next h =>
    have hout (k : Nat) : ¬(0x100 ≤ o ∧ o < 0x480 ∧ o % 16 = k) := fun hin => h ⟨hin.1, hin.2.1⟩
    split
    case h_8 =>
      have h0 : o ≠ 0 := ‹o = 0 → False›
      simp only [resetAt, h0, hout, if_false]
    all_goals rfl

theorem readCh_reset {n k : Nat} (hk : k = 0 ∨ k = 4 ∨ k = 8 ∨ k = 12) :
    w32 (readCh n k State.reset) = if k = 0 then 0x00000001 else if k = 4 then 0x0007A120 else
      if k = 12 then 0x03FF0000 else 0 := by
  have hch : curCh State.reset n = {} := rfl
  rcases hk with rfl | rfl | rfl | rfl <;> simp only [readCh, hch] <;> rfl

theorem readCur_reset (h4 : o % 4 = 0) : readCur o State.reset = resetAt 0x09 o := by
  unfold readCur
  split
  · next h =>
    have hlo : 0x040 ≤ o := h.1
    have hhi : o < 0x0C0 := h.2
    simp only [readCh_reset (show o % 16 = 0 ∨ o % 16 = 4 ∨ o % 16 = 8 ∨ o % 16 = 12 by omega), resetAt, hlo, hhi, true_and]
  · next h =>
    have hout (k : Nat) : ¬(0x040 ≤ o ∧ o < 0x0C0 ∧ o % 16 = k) := fun hin => h ⟨hin.1, hin.2.1⟩
    simp only [resetAt, hout, if_false]
    split
    case h_5 => split <;> rfl
    all_goals rfl

theorem slotOut_reset (i : Nat) : slotOut State.reset i = 0 := by
  have hslot (k : Nat) : Tab.get {} State.reset.husk.main.slots k = {} ∧ Tab.get {} State.reset.husk.shadow.slots k = {} :=
    ⟨rfl, rfl⟩
  simp [slotOut, hslot]

theorem readHuskW_reset : readHuskW o State.reset = resetAt 0x0A o := by
  have hcause : causeWord {} = 0 := by decide +kernel
  unfold readHuskW
  split
  case h_1 => exact hcause
  case h_2 => rw [slotOut_reset]; rfl
  case h_3 => split <;> rfl

theorem readDrvW_reset : readDrvW o State.reset = resetAt 0x0B o := by
  have hz (h : o ≠ 0) : resetAt 0x0B o = 0 := if_neg h
  have hhvil (n : Nat) : Tab.get {} State.reset.drv.hvil n = {} := rfl
  have hstr (i : Nat) : drvStr State.reset i = {} := rfl
  unfold readDrvW
  split
  case h_4 =>
    split
    case h_5 => simp_all [resetAt]
    all_goals rfl
  case h_1 hi =>
    have hin := regIx_bounds hi
    exact (hz (by omega)).symm
  case h_2 hi _ =>
    have hin := regIx_bounds hi
    rw [hz (by omega), hhvil]
    decide +kernel
  case h_3 hi _ _ =>
    have hin := regIx_bounds hi
    rw [hz (by omega), hstr]
    decide +kernel

theorem readKrn_reset : readKrn p o State.reset = resetAt 0x0C o := by
  unfold readKrn
  simp only [portOf_reset]
  split
  · rfl
  · split <;> rfl

theorem readPair_reset : readPair o State.reset = resetAt 0x0D o := by
  have hz (h : o ≠ 0) : resetAt 0x0D o = 0 := if_neg h
  have hpair (q : Nat) : pairOf State.reset q = {} := rfl
  have hcells (l : Nat) : assigned State.reset l = [] := rfl
  unfold readPair
  split
  case h_3 =>
    split
    case h_7 => simp_all [resetAt]
    all_goals rfl
  case h_1 hi =>
    have hin := regIx_bounds hi
    rw [hz (by omega)]
    simp only [pairCells, hcells]
    rfl
  case h_2 hi _ =>
    have hin := regIx_bounds hi
    rw [hz (by omega), hpair]
    decide +kernel

theorem readNv_reset : readNv p o State.reset = resetAt 0x10 o := by
  unfold readNv
  simp only [portOf_reset]
  split
  · next h =>
    have h0 : o ≠ 0 := by omega
    have h8 : o ≠ 8 := by omega
    simp only [resetAt, h0, h8, if_false]
    rfl
  · split
    case h_8 => simp_all [resetAt]
    all_goals rfl

theorem wordAt_nil (k : Nat) : wordAt [] k = 0 := by
  simp [wordAt, fld, ofLe, w32]

theorem readLedg_reset {off : Nat} (hlo : 4096 ≤ off) : readLedg p off State.reset = resetAt 0x11 (off - 4096) := by
  have hz (h : off ≠ 4096) : resetAt 0x11 (off - 4096) = 0 := by
    simp only [resetAt]
    exact if_neg (by omega)
  have hpod (i : Nat) : (podOf State.reset.ledg.live i).cur = [] := rfl
  have hera : State.reset.ledg.live.era2Valid = false := rfl
  have hout : State.reset.ledg.out = [] := rfl
  have hadopt (i : Nat) : State.reset.ledg.live.adopts.getD i [] = [] := rfl
  simp only [readLedg, portOf_reset]
  split
  · rw [hz (by omega)]
    exact ite_self 0
  split
  · rw [hz (by omega), hera]
    rfl
  split
  · rw [hz (by omega), hpod]
    exact wordAt_nil _
  split
  · rw [hz (by omega), hout]
    exact wordAt_nil _
  split
  · rw [hz (by omega), hadopt]
    exact wordAt_nil _
  split
  case h_8 => exact (hz ‹off = 0x1000 → False›).symm
  all_goals rfl

theorem readCursor_reset (k j : Nat) : readCursor k j State.reset = 0 := by
  have hcur : cursorOf State.reset k = {} := rfl
  unfold readCursor
  simp only [hcur]
  split <;> decide +kernel

theorem readRecW_reset : readRecW p o State.reset = resetAt 0x12 o := by
  unfold readRecW
  simp only [portOf_reset]
  split
  · next h =>
    have h0 : o ≠ 0 := by omega
    have h18 : o ≠ 0x018 := by omega
    have h24 : o ≠ 0x024 := by omega
    simp only [readCursor_reset, resetAt, h0, h18, h24, if_false]
    rfl
  · split
    case h_17 => simp_all [resetAt]
    all_goals rfl

theorem readStr_reset (k j : Nat) : readStr k j State.reset = 0 := rfl

theorem readHostW_reset : readHostW o State.reset = resetAt 0x13 o := by
  unfold readHostW
  split
  · next h =>
    have h04 : o ≠ 0x004 := by omega
    have h08 : o ≠ 0x008 := by omega
    simp only [readStr_reset, resetAt, h04, h08, if_false]
    rfl
  · split
    case h_9 => simp_all [resetAt]
    all_goals decide +kernel

theorem readDbg_reset : readDbg o State.reset = resetAt 0x16 o := by
  have hz (h : o ≠ 0x018) : resetAt 0x16 o = 0 := if_neg h
  unfold readDbg
  split
  · next h => exact (hz (by omega)).symm
  · split
    case h_3 =>
      split
      case h_7 => simp_all [resetAt]
      all_goals rfl
    case h_1 hi =>
      have hin := regIx_bounds hi
      exact (hz (by omega)).symm
    case h_2 hi _ =>
      have hin := regIx_bounds hi
      exact (hz (by omega)).symm

end

/-! ## Every window -/

theorem readWord_ctl {p : Port} {a : Nat} (ha : a < 0x17000) (h4 : a % 4 = 0) (hrev : a ≠ 0x0004) (hmid0 : a ≠ 0x14010)
    (hmid1 : a ≠ 0x14014) (htamper : a ≠ 0x14018) : readWord p a State.reset = resetAt (a / 4096) (a % 4096) := by
  have ho4 : a % 4096 % 4 = 0 := by omega
  have hwin : windowOf a = some (.ctl (a / 4096)) := if_pos ha
  have ho : a % 4096 < 4096 := Nat.mod_lt _ (by decide)
  have hsys (h : a / 4096 = 0) : a % 4096 ≠ 4 := by omega
  have hsec (h : a / 4096 = 0x14) : a % 4096 ≠ 0x10 ∧ a % 4096 ≠ 0x14 ∧ a % 4096 ≠ 0x18 := by omega
  simp only [readWord, hwin]
  generalize a / 4096 = n, a % 4096 = o at *
  split
  · exact readSys_reset (hsys rfl)
  · exact readEvt_reset
  · exact readPwr_reset
  · exact readTime_reset
  · exact readTherm_reset
  · exact readImg_reset
  · exact readRing_reset (.inl rfl) ho4
  · exact readRing_reset (.inr rfl) ho4
  · exact readAcqW_reset
  · exact readCur_reset ho4
  · exact readHuskW_reset
  · exact readDrvW_reset
  · exact readKrn_reset
  · exact readPair_reset
  · exact readEstW_reset ho4
  · exact readWinW_reset
  · rw [readNvLedg, if_pos ho]
    exact readNv_reset
  · rw [readNvLedg, if_neg (by omega), readLedg_reset (by omega), Nat.add_sub_cancel]
  · exact readRecW_reset
  · exact readHostW_reset
  · obtain ⟨h0, h1, h2⟩ := hsec rfl
    exact readSecW_reset h0 h1 h2
  · exact readBist_reset
  · exact readDbg_reset
  · simp_all [resetAt]

/-- Settles O2: window by window, what a register shows of the reset state is its row of R632's table. -/
theorem resetValues : Obligations.ResetValues := by
  refine ⟨fun p a ha h4 hrev hmid0 hmid1 htamper => ?_, fun p s => ⟨rfl, rfl, rfl, rfl⟩⟩
  rw [resetWord_eq, readWord_ctl ha h4 hrev hmid0 hmid1 htamper]

end Sys2Proof.Machine
end

section
/-! PROOFS. What every command leaves alone: the facts that the laws about commands state, how they answer for every part of the
state, and the statement of it. -/

namespace Sys2Proof.Machine

/-! ## The facts that a law about a command states -/

/-- A fact about the states before and after a command. -/
inductive KeptFact where
  | part (p : Part)
  | pending
  | mid
  | devKey

/-- The fact holds of the two states. -/
def KeptFact.holds (s t : State) : KeptFact → Prop
  | .part p => Part.same s t p
  | .pending => t.pending = s.pending
  | .mid => t.sec.mid = s.sec.mid
  | .devKey => t.sec.devKey = s.sec.devKey

/-- Facts as the conjunction that a law states. -/
def allHold (s t : State) : List KeptFact → Prop
  | [] => True
  | [f] => f.holds s t
  | f :: g :: fs => f.holds s t ∧ allHold s t (g :: fs)

theorem holds_of_mem {s t : State} {fs : List KeptFact} (h : allHold s t fs) {f : KeptFact} (hf : f ∈ fs) : f.holds s t := by
  induction fs with
  | nil => cases hf
  | cons g fs ih =>
    cases fs with
    | nil => rwa [List.mem_singleton.mp hf]
    | cons g' fs =>
      obtain ⟨hg, hrest⟩ := h
      rcases List.mem_cons.mp hf with rfl | hf
      · exact hg
      · exact ih hrest hf

/-- The parts that are whole fields of the state, in the order in which the laws state them. -/
def wholeParts : List Part :=
  [.sys, .img, .cfg, .ring, .acq, .cur, .husk, .drv, .krn, .est, .win, .pairs, .time, .therm, .nv, .ledg, .tally, .recd, .host,
    .sec, .pwr, .bist, .evt, .pins, .freeIx]

/-- The rests of fields, in the order in which the laws about commands state them. -/
def restParts : List Part := [.sysRest, .huskRest, .drvRest, .recdRest, .estRest, .pwrRest, .evtRest, .pinsRest]

/-- The rests of fields, in the order in which the laws about register writes state them. -/
def writeRestParts : List Part :=
  [.sysRest, .huskRest, .drvRest, .estRest, .recdRest, .pwrRest, .evtRest, .pinsRest, .ringRest]

/-- The field that a rest is of; another part is its own. -/
def Part.whole : Part → Part
  | .sysRest => .sys
  | .ringRest => .ring
  | .huskRest => .husk
  | .drvRest => .drv
  | .estRest => .est
  | .recdRest => .recd
  | .pwrRest => .pwr
  | .evtRest => .evt
  | .pinsRest => .pins
  | p => p

theorem same_of_whole {s t : State} {p : Part} (h : Part.same s t p.whole) : Part.same s t p := by
  cases p
  case sysRest => exact congrArg Sys.held h
  case ringRest => exact congrArg ringsRest h
  case huskRest => exact congrArg Husk.held h
  case drvRest => exact congrArg Drv.held h
  case estRest => exact congrArg Est.held h
  case recdRest => exact congrArg Recd.held h
  case pwrRest => exact congrArg Pwr.held h
  case evtRest => exact congrArg Evt.held h
  case pinsRest => exact congrArg Pins.held h
  all_goals exact h

/-- The part is one of `ps`. -/
def Part.among (ps : List Part) (p : Part) : Bool := ps.any fun q => Nat.beq q.ctorIdx p.ctorIdx

theorem among_iff {ps : List Part} {p : Part} : p.among ps = true ↔ p ∈ ps := by
  simp only [Part.among, List.any_eq_true]
  constructor
  · rintro ⟨q, hq, hix⟩
    rwa [← Part.ofNat_ctorIdx p, ← Nat.eq_of_beq_eq_true hix, Part.ofNat_ctorIdx]
  · exact fun hp => ⟨p, hp, Nat.beq_refl _⟩

theorem among_eq_false {ps : List Part} {p : Part} : p.among ps = false ↔ p ∉ ps := by
  rw [← among_iff, Bool.not_eq_true]

/-- What a law states of a command that may change the parts `ps`: the fields that it may not, the queue, `more`, and the rests
among `rests` that it may not, of the fields that it may. -/
def factsOf (rests : List Part) (more : List KeptFact) (ps : List Part) : List KeptFact :=
  (wholeParts.filter fun p => !p.among ps).map .part ++ .pending :: more ++
    (rests.filter fun p => !p.among ps && p.whole.among ps).map .part

/-- The facts of a law answer for every part that the command may not change. -/
theorem parts_of_facts {s t : State} {rests ps : List Part} {more : List KeptFact} (h : allHold s t (factsOf rests more ps))
    (hrests : ∀ p, p ∈ wholeParts ∨ p ∈ rests ∨ p = .ringRest)
    (hring : .ringRest ∈ rests ∨ .ringRest ∈ ps ∨ .ring ∉ ps ∨ Part.same s t .ringRest) :
    t.pending = s.pending ∧ ∀ p, p ∉ ps → Part.same s t p := by
  have hwhole {p : Part} (hp : p ∈ wholeParts) (hno : p ∉ ps) : Part.same s t p :=
    holds_of_mem h (f := .part p) (by simp [factsOf, hp, among_eq_false.mpr hno])
  have hrest {p : Part} (hp : p ∈ rests) (hno : p ∉ ps) (hmay : p.whole ∈ ps) : Part.same s t p :=
    holds_of_mem h (f := .part p) (by simp [factsOf, hp, among_eq_false.mpr hno, among_iff.mpr hmay])
  have hfield (p : Part) : p.whole ∈ wholeParts := by cases p <;> decide
  refine ⟨holds_of_mem h (f := .pending) (by simp [factsOf]), fun p hno => ?_⟩
  by_cases hmay : p.whole ∈ ps
  · rcases hrests p with hp | hp | rfl
    · exact hwhole hp hno
    · exact hrest hp hno hmay
    · rcases hring with hp | hp | hp | hsame
      · exact hrest hp hno hmay
      · exact absurd hp hno
      · exact absurd hmay hp
      · exact hsame
  · exact same_of_whole (hwhole (hfield p) hmay)

/-! ## What a law says of its command -/

/-- What is not among `ps`, and the queue, are the same in the two states. -/
def SameBut (ps : List Part) (s t : State) : Prop := t.pending = s.pending ∧ ∀ p, p ∉ ps → Part.same s t p

/-- What a law about a command other than a register write states; it states of the trust block, where the command may change
that, the MID and the device key. -/
def lawFacts (ps : List Part) : List KeptFact := factsOf restParts (bif Part.sec.among ps then [.mid, .devKey] else []) ps

section

variable {ps : List Part} {s t : State}

/-- The law of a command that may change the rings' rest, or no ring at all. -/
theorem sameBut_of_law (h : allHold s t (lawFacts ps)) (hring : (Part.ringRest.among ps || !Part.ring.among ps) = true) :
    SameBut ps s t := by
  refine parts_of_facts h (fun p => by cases p <;> decide) (.inr ?_)
  rcases Bool.or_eq_true_iff.mp hring with hrest | hno
  · exact .inl (among_iff.mp hrest)
  · exact .inr (.inl (among_eq_false.mp (by simpa using hno)))

/-- The law of a command that changes of the rings only what an opening string decides, with that about the rings. -/
theorem sameBut_of_ringLaw (h : allHold s t (lawFacts ps)) (hring : ringsRest t.ring = ringsRest s.ring) : SameBut ps s t :=
  parts_of_facts h (fun p => by cases p <;> decide) (.inr (.inr (.inr hring)))

/-- The law of a register write of its window. -/
theorem sameBut_of_write {u : State} (ht : (.next u : Host.Outcome State Fault Refusal) = .next t)
    (h : allHold s u (factsOf writeRestParts [] ps)) : SameBut ps s t := by
  obtain rfl := Host.Outcome.next.inj ht
  exact parts_of_facts h (fun p => by cases p <;> decide) (.inl (by decide))

end

/-! ## Every command -/

theorem exec_completes (c : Instr) (s : State) : ∃ t, exec c s = .next t := by
  cases c <;> exact ⟨_, rfl⟩

theorem dbgAddr_window (g : DbgReg) : dbgAddr g / 4096 = 0x16 := by
  cases g <;> simp only [dbgAddr] <;> omega

section

variable {c : Instr} {s t : State}

/-- Commands that may change the host link: requests and register writes among them. -/
theorem sameBut_of_host (h : exec c s = .next t) (hc : Part.host.among (touched c) = true) :
    SameBut (touched c) s t := by
  cases c
  all_goals dsimp only [touched] at hc ⊢
  case sysModeWrite => exact sameBut_of_write h (regReq_keepSys (by omega) _ _)
  case imgChunk => exact sameBut_of_ringLaw (execImgChunk_keep h) (execImgChunk_ringRest h)
  case imgCommit => exact sameBut_of_ringLaw (execImgCommit_keep h) (execImgCommit_ringRest h)
  case imgValidationDone => exact sameBut_of_ringLaw (execImgValidationDone_keep h) (execImgValidationDone_ringRest h)
  case imgSlotWriteDone => exact sameBut_of_ringLaw (execImgSlotWriteDone_keep h) (execImgSlotWriteDone_ringRest h)
  case imgAbortStage => exact sameBut_of_write h (regReq_keepImg (by omega) _ _)
  case imgCancel => exact sameBut_of_write h (regReq_keepImg (by omega) _ _)
  case hotActivation => exact sameBut_of_law (execHotActivation_keep h) rfl
  case coldActivationLoadModels => exact sameBut_of_law (execColdActivationLoadModels_keep h) rfl
  case vsupValid => exact sameBut_of_law (execVsupValid_keep h) rfl
  case startupCoreUp => exact sameBut_of_law (execStartupCoreUp_keep h) rfl
  case startupImageSelect => exact sameBut_of_ringLaw (execStartupImageSelect_keep h) (execStartupImageSelect_ringRest h)
  case startupSteward => exact sameBut_of_ringLaw (execStartupSteward_keep h) (execStartupSteward_ringRest h)
  case sproutStatusFrame => exact sameBut_of_law (execSproutStatusFrame_keep h) rfl
  case ringEnumRequest _ _ r =>
    fin_cases r
    · exact sameBut_of_write h (regReq_keepRingA rfl _ _)
    · exact sameBut_of_write h (regReq_keepRingB rfl _ _)
  case ringMeasRequest _ _ r =>
    fin_cases r
    · exact sameBut_of_write h (regReq_keepRingA rfl _ _)
    · exact sameBut_of_write h (regReq_keepRingB rfl _ _)
  case acqCoupId => exact sameBut_of_write h (regReq_keepAcq (by omega) _ _)
  case acqOwNow => exact sameBut_of_write h (regReq_keepAcq (by omega) _ _)
  case curChCfgWrite => exact sameBut_of_write h (regReq_keepCur (by omega) _ _)
  case curChFsWrite => exact sameBut_of_write h (regReq_keepCur (by omega) _ _)
  case curChOfsWrite => exact sameBut_of_write h (regReq_keepCur (by omega) _ _)
  case curCalNow => exact sameBut_of_write h (regReq_keepCur (by omega) _ _)
  case cmpTest => exact sameBut_of_write h (regReq_keepCur (by omega) _ _)
  case huskCloseReq => exact sameBut_of_write h (regReq_keepHusk (by omega) _ _)
  case huskOpen => exact sameBut_of_write h (regReq_keepHusk (by omega) _ _)
  case huskTripClr => exact sameBut_of_write h (regReq_keepHusk (by omega) _ _)
  case drvWeldCheck => exact sameBut_of_write h (regReq_keepDrv (by omega) _ _)
  case pairRelease => exact sameBut_of_write h (regReq_keepPair (by omega) _ _)
  case dbgSessionOpen => exact sameBut_of_write h (regReq_keepDbg (by omega) _ _)
  case dbgSessionClose => exact sameBut_of_write h (regReq_keepDbg (by omega) _ _)
  case dbgHalt => exact sameBut_of_write h (regReq_keepDbg (by omega) _ _)
  case dbgResume => exact sameBut_of_write h (regReq_keepDbg (by omega) _ _)
  case dbgStep => exact sameBut_of_write h (regReq_keepDbg (by omega) _ _)
  case dbgRegisterWrite => exact sameBut_of_write h (regReq_keepDbg (dbgAddr_window _) _ _)
  case sync => exact sameBut_of_ringLaw (execSync_keep h) (execSync_ringRest h)
  case timeResyncRequest => exact sameBut_of_write h (regReq_keepTime (by omega) _ _)
  case syncEnWrite => exact sameBut_of_write h (regReq_keepTime (by omega) _ _)
  case timeWallSet => exact sameBut_of_write h (regReq_keepTime (by omega) _ _)
  case timeTnsLatch => exact sameBut_of_ringLaw (execTimeTnsLatch_keep h) (execTimeTnsLatch_ringRest h)
  case shutdownRecordWritten => exact sameBut_of_law (execShutdownRecordWritten_keep h) rfl
  case thermHoldClr => exact sameBut_of_write h (regReq_keepTherm (by omega) _ _)
  case ledgStmt => exact sameBut_of_write h (regReq_keepLedg (by omega) _ _)
  case ledgNonceWrite _ _ hi _ => exact sameBut_of_write h (regReq_keepLedg (by cases hi <;> rfl) _ _)
  case ledgEraAdv => exact sameBut_of_write h (regReq_keepLedg (by omega) _ _)
  case ledgBlockLatch => exact sameBut_of_ringLaw (execLedgBlockLatch_keep h) (execLedgBlockLatch_ringRest h)
  case nvFlush => exact sameBut_of_write h (regReq_keepNv (by omega) _ _)
  case recordComplete => exact sameBut_of_ringLaw (execRecordComplete_keep h) (execRecordComplete_ringRest h)
  case recChaffClr => exact sameBut_of_write h (regReq_keepRec (by omega) _ _)
  case recFlush => exact sameBut_of_write h (regReq_keepRec (by omega) _ _)
  case recFormat => exact sameBut_of_write h (regReq_keepRec (by omega) _ _)
  case recPinAck => exact sameBut_of_write h (regReq_keepRec (by omega) _ _)
  case recSeqLatch => exact sameBut_of_ringLaw (execRecSeqLatch_keep h) (execRecSeqLatch_ringRest h)
  case read => exact sameBut_of_ringLaw (execRead_keep h) (execRead_ringRest h)
  case write => exact sameBut_of_law (execWrite_keep h) rfl
  case writeP => exact sameBut_of_law (execWriteP_keep h) rfl
  case unknownOp => exact sameBut_of_ringLaw (execUnknownOp_keep h) (execUnknownOp_ringRest h)
  case streamOpen => exact sameBut_of_ringLaw (execStreamOpen_keep h) (execStreamOpen_ringRest h)
  case streamClose => exact sameBut_of_ringLaw (execStreamClose_keep h) (execStreamClose_ringRest h)
  case streamSnapshot => exact sameBut_of_ringLaw (execStreamSnapshot_keep h) (execStreamSnapshot_ringRest h)
  case streamPartSend => exact sameBut_of_ringLaw (execStreamPartSend_keep h) (execStreamPartSend_ringRest h)
  case challengeAttest => exact sameBut_of_ringLaw (execChallengeAttest_keep h) (execChallengeAttest_ringRest h)
  case challengeKeyLoad => exact sameBut_of_ringLaw (execChallengeKeyLoad_keep h) (execChallengeKeyLoad_ringRest h)
  case join => exact sameBut_of_ringLaw (execJoin_keep h) (execJoin_ringRest h)
  case joinRetry => exact sameBut_of_law (execJoinRetry_keep h) rfl
  case assign => exact sameBut_of_ringLaw (execAssign_keep h) (execAssign_ringRest h)
  case keepAlive => exact sameBut_of_ringLaw (execKeepAlive_keep h) (execKeepAlive_ringRest h)
  case spiTransaction => exact sameBut_of_ringLaw (execSpiTransaction_keep h) (execSpiTransaction_ringRest h)
  case spiEarlyEnd => exact sameBut_of_law (execSpiEarlyEnd_keep h) rfl
  case segmentTimeout => exact sameBut_of_law (execSegmentTimeout_keep h) rfl
  case canBusOff => exact sameBut_of_ringLaw (execCanBusOff_keep h) (execCanBusOff_ringRest h)
  case hostBudgetWrite => exact sameBut_of_write h (regReq_keepHost (by omega) _ _)
  case presClose => exact sameBut_of_write h (regReq_keepSec (by omega) _ _)
  case secAdopt => exact sameBut_of_write h (regReq_keepSec (by omega) _ _)
  case brownOut => exact sameBut_of_law (execBrownOut_keep h) rfl
  case powerFailWarning => exact sameBut_of_law (execPowerFailWarning_keep h) rfl
  case overvoltage => exact sameBut_of_law (execOvervoltage_keep h) rfl
  case railFault => exact sameBut_of_law (execRailFault_keep h) rfl
  case pwrStandby => exact sameBut_of_law (execPwrStandby_keep h) rfl
  case pwrRun => exact sameBut_of_law (execPwrRun_keep h) rfl
  case pwrSleep => exact sameBut_of_law (execPwrSleep_keep h) rfl
  case sleepFlushDone => exact sameBut_of_ringLaw (execSleepFlushDone_keep h) (execSleepFlushDone_ringRest h)
  case pwrWakeOutClr => exact sameBut_of_law (execPwrWakeOutClr_keep h) rfl
  case pwrShip => exact sameBut_of_law (execPwrShip_keep h) rfl
  case shipPowerDown => exact sameBut_of_law (execShipPowerDown_keep h) rfl
  case shipWake => exact sameBut_of_law (execShipWake_keep h) rfl
  case pwrReset => exact sameBut_of_law (execPwrReset_keep h) rfl
  case pwrCfgWrite => exact sameBut_of_law (execPwrCfgWrite_keep h) rfl
  case bistStart => exact sameBut_of_write h (regReq_keepBist (by omega) _ _)
  case bistAbort => exact sameBut_of_write h (regReq_keepBist (by omega) _ _)
  case bistRestored => exact sameBut_of_law (execBistRestored_keep h) rfl
  case bistRepairWrite => exact sameBut_of_write h (regReq_keepBist (by omega) _ _)
  case evtPendClear => exact sameBut_of_write h (regReq_keepEvt (by omega) _ _)
  case evtIrqmapWrite => exact sameBut_of_write h (regReq_keepEvt (by omega) _ _)
  case evtS3Ack => exact sameBut_of_write h (regReq_keepEvt (by omega) _ _)
  case reserveRelease => exact sameBut_of_write h (regReq_keepEst (by omega) _ _)
  case reserveHold => exact sameBut_of_write h (regReq_keepEst (by omega) _ _)
  case ccReseed => exact sameBut_of_write h (regReq_keepEst (by omega) _ _)
  case estCharStart => exact sameBut_of_write h (regReq_keepEst (by omega) _ _)
  case estCharAbort => exact sameBut_of_write h (regReq_keepEst (by omega) _ _)
  case winClrCell => exact sameBut_of_write h (regReq_keepWin (by omega) _ _)
  case winFreeze => exact sameBut_of_write h (regReq_keepWin (by omega) _ _)
  all_goals cases hc

/-- Commands that change of the rings only what an opening string decides. -/
theorem sameBut_of_ring (h : exec c s = .next t)
    (hc : (!Part.host.among (touched c) && Part.ring.among (touched c) && !Part.ringRest.among (touched c)) = true) :
    SameBut (touched c) s t := by
  cases c
  all_goals dsimp only [touched] at hc ⊢
  case commitPoint => exact sameBut_of_ringLaw (execCommitPoint_keep h) (execCommitPoint_ringRest h)
  case summaryStage => exact sameBut_of_ringLaw (execSummaryStage_keep h) (execSummaryStage_ringRest h)
  case coldActivationHold => exact sameBut_of_ringLaw (execColdActivationHold_keep h) (execColdActivationHold_ringRest h)
  case coldActivationLoadProtection =>
    exact sameBut_of_ringLaw (execColdActivationLoadProtection_keep h) (execColdActivationLoadProtection_ringRest h)
  case coldActivationComplete =>
    exact sameBut_of_ringLaw (execColdActivationComplete_keep h) (execColdActivationComplete_ringRest h)
  case startupPDieUp => exact sameBut_of_ringLaw (execStartupPDieUp_keep h) (execStartupPDieUp_ringRest h)
  case strapLatch _ _ _ p0 p1 _ =>
    exact sameBut_of_ringLaw (execStrapLatch_keep (u3 := p0) (u4 := p1) h) (execStrapLatch_ringRest (u3 := p0) (u4 := p1) h)
  case startupRings => exact sameBut_of_ringLaw (execStartupRings_keep h) (execStartupRings_ringRest h)
  case startupEstimate => exact sameBut_of_ringLaw (execStartupEstimate_keep h) (execStartupEstimate_ringRest h)
  case startupFull => exact sameBut_of_ringLaw (execStartupFull_keep h) (execStartupFull_ringRest h)
  case startupLate => exact sameBut_of_ringLaw (execStartupLate_keep h) (execStartupLate_ringRest h)
  case channelStop => exact sameBut_of_ringLaw (execChannelStop_keep h) (execChannelStop_ringRest h)
  case comparatorCrossing => exact sameBut_of_ringLaw (execComparatorCrossing_keep h) (execComparatorCrossing_ringRest h)
  case cmpCheckDone => exact sameBut_of_ringLaw (execCmpCheckDone_keep h) (execCmpCheckDone_ringRest h)
  case tripLatchSet => exact sameBut_of_ringLaw (execTripLatchSet_keep h) (execTripLatchSet_ringRest h)
  case huskSlotAssert => exact sameBut_of_ringLaw (execHuskSlotAssert_keep h) (execHuskSlotAssert_ringRest h)
  case huskSlotClear => exact sameBut_of_ringLaw (execHuskSlotClear_keep h) (execHuskSlotClear_ringRest h)
  case huskTimerExpiry => exact sameBut_of_ringLaw (execHuskTimerExpiry_keep h) (execHuskTimerExpiry_ringRest h)
  case sequencerStart => exact sameBut_of_ringLaw (execSequencerStart_keep h) (execSequencerStart_ringRest h)
  case sequencerWaitMet => exact sameBut_of_ringLaw (execSequencerWaitMet_keep h) (execSequencerWaitMet_ringRest h)
  case sequencerTimeout => exact sameBut_of_ringLaw (execSequencerTimeout_keep h) (execSequencerTimeout_ringRest h)
  case sequencerAbort => exact sameBut_of_ringLaw (execSequencerAbort_keep h) (execSequencerAbort_ringRest h)
  case huskDivergeRecord => exact sameBut_of_ringLaw (execHuskDivergeRecord_keep h) (execHuskDivergeRecord_ringRest h)
  case huskCrcCheck => exact sameBut_of_ringLaw (execHuskCrcCheck_keep h) (execHuskCrcCheck_ringRest h)
  case graceExpiry => exact sameBut_of_ringLaw (execGraceExpiry_keep h) (execGraceExpiry_ringRest h)
  case keyRearm => exact sameBut_of_ringLaw (execKeyRearm_keep h) (execKeyRearm_ringRest h)
  case economyEntry => exact sameBut_of_ringLaw (execEconomyEntry_keep h) (execEconomyEntry_ringRest h)
  case driveFault => exact sameBut_of_ringLaw (execDriveFault_keep h) (execDriveFault_ringRest h)
  case openCoilFault => exact sameBut_of_ringLaw (execOpenCoilFault_keep h) (execOpenCoilFault_ringRest h)
  case fastOpenTimeout => exact sameBut_of_ringLaw (execFastOpenTimeout_keep h) (execFastOpenTimeout_ringRest h)
  case weldCheckStart => exact sameBut_of_ringLaw (execWeldCheckStart_keep h) (execWeldCheckStart_ringRest h)
  case weldCheckEvaluate => exact sameBut_of_ringLaw (execWeldCheckEvaluate_keep h) (execWeldCheckEvaluate_ringRest h)
  case hvilFault => exact sameBut_of_ringLaw (execHvilFault_keep h) (execHvilFault_ringRest h)
  case hvilFaultClear => exact sameBut_of_ringLaw (execHvilFaultClear_keep h) (execHvilFaultClear_ringRest h)
  case kernelStepStart => exact sameBut_of_ringLaw (execKernelStepStart_keep h) (execKernelStepStart_ringRest h)
  case endStep => exact sameBut_of_ringLaw (execEnd_keep h) (execEnd_ringRest h)
  case lds => exact sameBut_of_ringLaw (execLds_keep h) (execLds_ringRest h)
  case sts => exact sameBut_of_ringLaw (execSts_keep h) (execSts_ringRest h)
  case out => exact sameBut_of_ringLaw (execOut_keep h) (execOut_ringRest h)
  case tbl2 => exact sameBut_of_ringLaw (execTbl2_keep h) (execTbl2_ringRest h)
  case handOver => exact sameBut_of_ringLaw (execHandOver_keep h) (execHandOver_ringRest h)
  case xtalLost => exact sameBut_of_ringLaw (execXtalLost_keep h) (execXtalLost_ringRest h)
  case xtalRelock => exact sameBut_of_ringLaw (execXtalRelock_keep h) (execXtalRelock_ringRest h)
  case trefFault => exact sameBut_of_ringLaw (execTrefFault_keep h) (execTrefFault_ringRest h)
  case thermalMeasurement => exact sameBut_of_ringLaw (execThermalMeasurement_keep h) (execThermalMeasurement_ringRest h)
  case thermalWarning => exact sameBut_of_ringLaw (execThermalWarning_keep h) (execThermalWarning_ringRest h)
  case thermalThrottle => exact sameBut_of_ringLaw (execThermalThrottle_keep h) (execThermalThrottle_ringRest h)
  case thermalThrottleEnd => exact sameBut_of_ringLaw (execThermalThrottleEnd_keep h) (execThermalThrottleEnd_ringRest h)
  case thermalShutdown => exact sameBut_of_ringLaw (execThermalShutdown_keep h) (execThermalShutdown_ringRest h)
  case thermalRestart => exact sameBut_of_ringLaw (execThermalRestart_keep h) (execThermalRestart_ringRest h)
  case nvBurstDone => exact sameBut_of_ringLaw (execNvBurstDone_keep h) (execNvBurstDone_ringRest h)
  case nvWriteDone => exact sameBut_of_ringLaw (execNvWriteDone_keep h) (execNvWriteDone_ringRest h)
  case ledgerCheckpoint => exact sameBut_of_ringLaw (execLedgerCheckpoint_keep h) (execLedgerCheckpoint_ringRest h)
  case podCheckpointConfirmed =>
    exact sameBut_of_ringLaw (execPodCheckpointConfirmed_keep h) (execPodCheckpointConfirmed_ringRest h)
  case cellRecWrite => exact sameBut_of_ringLaw (execCellRecWrite_keep h) (execCellRecWrite_ringRest h)
  case ztabWrite => exact sameBut_of_ringLaw (execZtabWrite_keep h) (execZtabWrite_ringRest h)
  case tallyWrite => exact sameBut_of_ringLaw (execTallyWrite_keep h) (execTallyWrite_ringRest h)
  case eventAdmit => exact sameBut_of_ringLaw (execEventAdmit_keep h) (execEventAdmit_ringRest h)
  case chaffSummary => exact sameBut_of_ringLaw (execChaffSummary_keep h) (execChaffSummary_ringRest h)
  case granaryProgramDone => exact sameBut_of_ringLaw (execGranaryProgramDone_keep h) (execGranaryProgramDone_ringRest h)
  case granaryEraseDone => exact sameBut_of_ringLaw (execGranaryEraseDone_keep h) (execGranaryEraseDone_ringRest h)
  case granaryTimeout => exact sameBut_of_ringLaw (execGranaryTimeout_keep h) (execGranaryTimeout_ringRest h)
  case granaryRestart => exact sameBut_of_ringLaw (execGranaryRestart_keep h) (execGranaryRestart_ringRest h)
  case presStuck => exact sameBut_of_ringLaw (execPresStuck_keep h) (execPresStuck_ringRest h)
  case presenceExpiry => exact sameBut_of_ringLaw (execPresenceExpiry_keep h) (execPresenceExpiry_ringRest h)
  case sealBreak => exact sameBut_of_ringLaw (execSealBreak_keep h) (execSealBreak_ringRest h)
  case sealRestored => exact sameBut_of_ringLaw (execSealRestored_keep h) (execSealRestored_ringRest h)
  case railRecovery => exact sameBut_of_ringLaw (execRailRecovery_keep h) (execRailRecovery_ringRest h)
  case autoSleep => exact sameBut_of_ringLaw (execAutoSleep_keep h) (execAutoSleep_ringRest h)
  case sleepSaveDone => exact sameBut_of_ringLaw (execSleepSaveDone_keep h) (execSleepSaveDone_ringRest h)
  case sleepWake => exact sameBut_of_ringLaw (execSleepWake_keep h) (execSleepWake_ringRest h)
  case wakeModelsLoaded => exact sameBut_of_ringLaw (execWakeModelsLoaded_keep h) (execWakeModelsLoaded_ringRest h)
  case wakeFullService => exact sameBut_of_ringLaw (execWakeFullService_keep h) (execWakeFullService_ringRest h)
  case shipStringsOpen => exact sameBut_of_ringLaw (execShipStringsOpen_keep h) (execShipStringsOpen_ringRest h)
  case bistRegionDone => exact sameBut_of_ringLaw (execBistRegionDone_keep h) (execBistRegionDone_ringRest h)
  case bistBackground => exact sameBut_of_ringLaw (execBistBackground_keep h) (execBistBackground_ringRest h)
  case errqHandle => exact sameBut_of_ringLaw (execErrqHandle_keep h) (execErrqHandle_ringRest h)
  case stewardReset => exact sameBut_of_ringLaw (execStewardReset_keep h) (execStewardReset_ringRest h)
  case charStepDone => exact sameBut_of_ringLaw (execCharStepDone_keep h) (execCharStepDone_ringRest h)
  case charStepTimeout => exact sameBut_of_ringLaw (execCharStepTimeout_keep h) (execCharStepTimeout_ringRest h)
  case charCurrentTimeout => exact sameBut_of_ringLaw (execCharCurrentTimeout_keep h) (execCharCurrentTimeout_ringRest h)
  case channelRunning => exact sameBut_of_ringLaw (execChannelRunning_keep h) (execChannelRunning_ringRest h)
  case testEnChange => exact sameBut_of_ringLaw (execTestEnChange_keep h) (execTestEnChange_ringRest h)
  all_goals cases hc

/-- The other commands. -/
theorem sameBut_of_other (h : exec c s = .next t)
    (hc : (!Part.host.among (touched c) && (!Part.ring.among (touched c) || Part.ringRest.among (touched c))) = true) :
    SameBut (touched c) s t := by
  cases c
  all_goals dsimp only [touched] at hc ⊢
  case frameBoundary => exact sameBut_of_law (execFrameBoundary_keep h) rfl
  case acquisitionCutOff => exact sameBut_of_law (execAcquisitionCutOff_keep h) rfl
  case coldActivationEnumerate => exact sameBut_of_law (execColdActivationEnumerate_keep h) rfl
  case ringStart => exact sameBut_of_law (execRingStart_keep h) rfl
  case enumTokenA => exact sameBut_of_law (execEnumTokenA_keep h) rfl
  case enumTokenB => exact sameBut_of_law (execEnumTokenB_keep h) rfl
  case enumRead => exact sameBut_of_law (execEnumRead_keep h) rfl
  case enumMeasure => exact sameBut_of_law (execEnumMeasure_keep h) rfl
  case enumAuthenticate => exact sameBut_of_law (execEnumAuthenticate_keep h) rfl
  case enumFirstTrig => exact sameBut_of_law (execEnumFirstTrig_keep h) rfl
  case collectSend => exact sameBut_of_law (execCollectSend_keep h) rfl
  case collectSlotReceive => exact sameBut_of_law (execCollectSlotReceive_keep h) rfl
  case alarmReceive => exact sameBut_of_law (execAlarmReceive_keep h) rfl
  case mgmtExchange => exact sameBut_of_law (execMgmtExchange_keep h) rfl
  case delayMeasurement => exact sameBut_of_law (execDelayMeasurement_keep h) rfl
  case nodeLost => exact sameBut_of_law (execNodeLost_keep h) rfl
  case linkUp => exact sameBut_of_law (execLinkUp_keep h) rfl
  case liveInsertCount => exact sameBut_of_law (execLiveInsertCount_keep h) rfl
  case liveInsertConfigure => exact sameBut_of_law (execLiveInsertConfigure_keep h) rfl
  case liveInsertAuthenticate => exact sameBut_of_law (execLiveInsertAuthenticate_keep h) rfl
  case liveInsertUnwrap => exact sameBut_of_law (execLiveInsertUnwrap_keep h) rfl
  case nodeChallenge => exact sameBut_of_law (execNodeChallenge_keep h) rfl
  case nodeTagCheck => exact sameBut_of_law (execNodeTagCheck_keep h) rfl
  case balanceDecision => exact sameBut_of_law (execBalanceDecision_keep h) rfl
  case balNodeFault => exact sameBut_of_law (execBalNodeFault_keep h) rfl
  case dieTempTimeout => exact sameBut_of_law (execDieTempTimeout_keep h) rfl
  case coupIdStart => exact sameBut_of_law (execCoupIdStart_keep h) rfl
  case coupIdComplete => exact sameBut_of_law (execCoupIdComplete_keep h) rfl
  case coupIdGiveUp => exact sameBut_of_law (execCoupIdGiveUp_keep h) rfl
  case owTestRead => exact sameBut_of_law (execOwTestRead_keep h) rfl
  case sleepPatrol => exact sameBut_of_law (execSleepPatrol_keep h) rfl
  case patrolRecheck => exact sameBut_of_law (execPatrolRecheck_keep h) rfl
  case currentSample => exact sameBut_of_law (execCurrentSample_keep h) rfl
  case calTrigger => exact sameBut_of_law (execCalTrigger_keep h) rfl
  case calSwitch => exact sameBut_of_law (execCalSwitch_keep h) rfl
  case calApply => exact sameBut_of_law (execCalApply_keep h) rfl
  case calReturn => exact sameBut_of_law (execCalReturn_keep h) rfl
  case curCalOverdue => exact sameBut_of_law (execCurCalOverdue_keep h) rfl
  case curDisagreeSet => exact sameBut_of_law (execCurDisagreeSet_keep h) rfl
  case curDisagreeClear => exact sameBut_of_law (execCurDisagreeClear_keep h) rfl
  case huskDivergence => exact sameBut_of_law (execHuskDivergence_keep h) rfl
  case netlistLoad => exact sameBut_of_law (execNetlistLoad_keep h) rfl
  case keyQualify => exact sameBut_of_law (execKeyQualify_keep h) rfl
  case inputChatter => exact sameBut_of_law (execInputChatter_keep h) rfl
  case chgDetQualify => exact sameBut_of_law (execChgDetQualify_keep h) rfl
  case fadd => exact sameBut_of_law (execFadd_keep h) rfl
  case fsub => exact sameBut_of_law (execFsub_keep h) rfl
  case fmul => exact sameBut_of_law (execFmul_keep h) rfl
  case fma => exact sameBut_of_law (execFma_keep h) rfl
  case fdiv => exact sameBut_of_law (execFdiv_keep h) rfl
  case fsqrt => exact sameBut_of_law (execFsqrt_keep h) rfl
  case fexp => exact sameBut_of_law (execFexp_keep h) rfl
  case fmin => exact sameBut_of_law (execFmin_keep h) rfl
  case fmax => exact sameBut_of_law (execFmax_keep h) rfl
  case fabs => exact sameBut_of_law (execFabs_keep h) rfl
  case clamp => exact sameBut_of_law (execClamp_keep h) rfl
  case cmp => exact sameBut_of_law (execCmp_keep h) rfl
  case sel => exact sameBut_of_law (execSel_keep h) rfl
  case movi => exact sameBut_of_law (execMovi_keep h) rfl
  case cvt => exact sameBut_of_law (execCvt_keep h) rfl
  case ldi => exact sameBut_of_law (execLdi_keep h) rfl
  case skip => exact sameBut_of_law (execSkip_keep h) rfl
  case dbgSessionTimeout => exact sameBut_of_law (execDbgSessionTimeout_keep h) rfl
  case dbgBreakpoint => exact sameBut_of_law (execDbgBreakpoint_keep h) rfl
  case tnsSaveWrite => exact sameBut_of_law (execTnsSaveWrite_keep h) rfl
  case syncHoldover => exact sameBut_of_law (execSyncHoldover_keep h) rfl
  case thermalWarningEnd => exact sameBut_of_law (execThermalWarningEnd_keep h) rfl
  case failHoldExpiry => exact sameBut_of_law (execFailHoldExpiry_keep h) rfl
  case shutdownBurstDone => exact sameBut_of_law (execShutdownBurstDone_keep h) rfl
  case lastGaspDone => exact sameBut_of_law (execLastGaspDone_keep h) rfl
  case podCheckpoint => exact sameBut_of_law (execPodCheckpoint_keep h) rfl
  case statementReady => exact sameBut_of_law (execStatementReady_keep h) rfl
  case rainflowFlush => exact sameBut_of_law (execRainflowFlush_keep h) rfl
  case dwellFlush => exact sameBut_of_law (execDwellFlush_keep h) rfl
  case admissionTimeout => exact sameBut_of_law (execAdmissionTimeout_keep h) rfl
  case presBtnPress => exact sameBut_of_law (execPresBtnPress_keep h) rfl
  case presBtnRelease => exact sameBut_of_law (execPresBtnRelease_keep h) rfl
  case presStuckClear => exact sameBut_of_law (execPresStuckClear_keep h) rfl
  case pfwArm => exact sameBut_of_law (execPfwArm_keep h) rfl
  case vcoreRetry => exact sameBut_of_law (execVcoreRetry_keep h) rfl
  case vcoreReturn => exact sameBut_of_law (execVcoreReturn_keep h) rfl
  case sleepStopAcquisition => exact sameBut_of_law (execSleepStopAcquisition_keep h) rfl
  case wakeRailsReady => exact sameBut_of_law (execWakeRailsReady_keep h) rfl
  case wakeRingsReady => exact sameBut_of_law (execWakeRingsReady_keep h) rfl
  case wakeOutTimeout => exact sameBut_of_law (execWakeOutTimeout_keep h) rfl
  case shipSaved => exact sameBut_of_law (execShipSaved_keep h) rfl
  case bistConditionLost => exact sameBut_of_law (execBistConditionLost_keep h) rfl
  case errqPreempt => exact sameBut_of_law (execErrqPreempt_keep h) rfl
  case winStepEvent => exact sameBut_of_law (execWinStepEvent_keep h) rfl
  case winWindowClose => exact sameBut_of_law (execWinWindowClose_keep h) rfl
  case winTailEnd => exact sameBut_of_law (execWinTailEnd_keep h) rfl
  case wakeControllerArm => exact sameBut_of_law (execWakeControllerArm_keep h) rfl
  all_goals cases hc

end

/-- Settles O5: each command's law states the fields and rests that it keeps, and they answer for every part not listed. -/
theorem commandFrame : Obligations.CommandFrame := by
  intro c s
  obtain ⟨t, ht⟩ := exec_completes c s
  refine ⟨t, ht, ?_⟩
  cases hhost : Part.host.among (touched c)
  case true => exact sameBut_of_host ht hhost
  case false =>
    cases hring : Part.ring.among (touched c)
    case false => exact sameBut_of_other ht (by rw [hhost, hring]; rfl)
    case true =>
      cases hrest : Part.ringRest.among (touched c)
      case false => exact sameBut_of_ring ht (by rw [hhost, hring, hrest]; rfl)
      case true => exact sameBut_of_other ht (by rw [hhost, hring, hrest]; rfl)

end Sys2Proof.Machine
end

section
/-! PROOFS. The comparator slots and timers of Husk (R199, R200): what is done in each of the copies named, and the
statement of the slots and timers. -/

namespace Sys2Proof.Machine

/-! ## What is done in the copies named -/

/-- A copy named is left as what is done in it leaves it from a state with the property `R`, when what is done in the
other copy keeps both the copy and `R`. -/
theorem copyOf_foldl_copyList {f : State → Bool → State} {R : State → Prop} {m : Copies} {c : Bool} {s : State}
    (hc : c ∈ copyList m) (hother : ∀ u, copyOf (f u (!c)) c = copyOf u c) (hkeep : ∀ u, R u → R (f u (!c)))
    (hs : R s) : ∃ u, R u ∧ copyOf ((copyList m).foldl f s) c = copyOf (f u c) c := by
  cases m with
  | main =>
    obtain rfl : c = false := by simpa [copyList] using hc
    exact ⟨s, hs, rfl⟩
  | shadow =>
    obtain rfl : c = true := by simpa [copyList] using hc
    exact ⟨s, hs, rfl⟩
  | both =>
    cases c with
    | false => exact ⟨s, hs, hother (f s false)⟩
    | true => exact ⟨f s false, hkeep s hs, rfl⟩

/-- The same for what rests on the copy and the clock alone. -/
theorem copyOf_foldl_of_clock {f : State → Bool → State} {m : Copies} {c : Bool} (s : State) (hc : c ∈ copyList m)
    (hother : ∀ u, copyOf (f u (!c)) c = copyOf u c) (htime : ∀ u d, (f u d).time = u.time) :
    ∃ u, (copyOf u c = copyOf s c ∧ u.time = s.time) ∧
      copyOf ((copyList m).foldl f s) c = copyOf (f u c) c :=
  copyOf_foldl_copyList hc hother
    (fun u ⟨hcopy, hclock⟩ => ⟨(hother u).trans hcopy, (htime u _).trans hclock⟩) ⟨rfl, rfl⟩

/-! ## Slots -/

theorem slotAssertIn_other (k : Nat) (c : Bool) (s : State) : copyOf (slotAssertIn k s (!c)) c = copyOf s c := by
  simp only [slotAssertIn]
  repeat' split
  all_goals simp

theorem slotClearIn_other (k : Nat) (c : Bool) (s : State) : copyOf (slotClearIn k s (!c)) c = copyOf s c := by
  simp only [slotClearIn]
  repeat' split
  all_goals simp

section
variable {m : Copies} {k : Nat} {e : HSlot} {c : Bool} {s : State} (he : (copyOf s c).net.slots[k]? = some e)
  (hc : c ∈ copyList m)
include he hc

theorem huskSlotAssert_asserts (hout : (Tab.get {} (copyOf s c).slots k).out = false)
    (hcount : (Tab.get {} (copyOf s c).slots k).cout ≥ e.qual) :
    makes (.huskSlotAssert m k) s fun u =>
      Tab.get {} (copyOf u c).slots k = { Tab.get {} (copyOf s c).slots k with out := true, cin := 0 } := by
  obtain ⟨u, ⟨hcopy, -⟩, hfold⟩ := copyOf_foldl_of_clock s hc (slotAssertIn_other k c) fun u d => by
    simp [id @slotAssertIn_keep]
  exact ⟨_, rfl, by simp [hfold, slotAssertIn, hcopy, he, hout, hcount]⟩

theorem huskSlotClear_clears (hout : (Tab.get {} (copyOf s c).slots k).out = true)
    (hcount : (Tab.get {} (copyOf s c).slots k).cin ≥ e.qual) :
    makes (.huskSlotClear m k) s fun u =>
      Tab.get {} (copyOf u c).slots k = { Tab.get {} (copyOf s c).slots k with out := false, cout := 0 } := by
  obtain ⟨u, ⟨hcopy, -⟩, hfold⟩ := copyOf_foldl_of_clock s hc (slotClearIn_other k c) fun u d => by
    simp [id @slotClearIn_keep]
  exact ⟨_, rfl, by simp [hfold, slotClearIn, hcopy, he, hout, hcount]⟩

end

/-! ## Timers -/

theorem timerExpireIn_other (k : Nat) (c : Bool) (s : State) : copyOf (timerExpireIn k s (!c)) c = copyOf s c := by
  simp only [timerExpireIn]
  repeat' split
  all_goals simp

/-- The output of a timer that has run out is its input in modes 0 and 1, and 0 in mode 2 (R200). -/
theorem timerExpire_out (e : HTimer) (x : TimerSt) :
    timerExpire e x = { x with out := decide (e.mode ≤ 1) && x.inp, since := none } := by
  unfold timerExpire
  split
  · next h0 => simp [h0]
  · split
    · next h1 => simp [h1]
    · simp [show ¬ e.mode ≤ 1 by omega]

theorem huskTimerExpiry_expires {m : Copies} {k : Nat} {e : HTimer} {t : Nat} {c : Bool} {s : State}
    (he : (copyOf s c).net.timers[k]? = some e) (hc : c ∈ copyList m)
    (hsince : (Tab.get {} (copyOf s c).timers k).since = some t) (hdue : s.time.tns ≥ t + e.count * unitNs e.unit) :
    makes (.huskTimerExpiry m k) s fun u =>
      Tab.get {} (copyOf u c).timers k = { Tab.get {} (copyOf s c).timers k with
        out := decide (e.mode ≤ 1) && (Tab.get {} (copyOf s c).timers k).inp, since := none } := by
  obtain ⟨u, ⟨hcopy, hclock⟩, hfold⟩ := copyOf_foldl_of_clock s hc (timerExpireIn_other k c) fun u d => by
    simp [id @timerExpireIn_keep]
  exact ⟨_, rfl, by simp [hfold, timerExpireIn, timerDue, hcopy, hclock, he, hsince, hdue, timerExpire_out]⟩

/-- Settles O12: a slot and a timer act in each copy named by that copy's own count and duration. -/
theorem huskSlots : Obligations.HuskSlots :=
  ⟨fun _ _ _ _ _ => huskSlotAssert_asserts, fun _ _ _ _ _ => huskSlotClear_clears,
    fun _ _ _ _ _ _ => huskTimerExpiry_expires⟩

end Sys2Proof.Machine
end

section
/-! PROOFS. Writes of DRV_CTRL while the copies of Husk differ (R234, R245): a weld check that one copy runs keeps the
other from starting one, and the statement of the writes of HUSK_CTRL and DRV_CTRL is refuted by it. -/

namespace Sys2Proof.Machine

/-- A weld check that either copy runs leaves both copies as they are (R234). -/
theorem startWeld_of_busy {i : Nat} {s : State} (hbusy : seqBusy s (4 * i + 3) = true) : startWeld i s = s := by
  rw [startWeld, if_pos hbusy]

/-- Refutes O11: with the weld check of string 0 running in the main copy alone, its start is ignored in both copies, and
the shadow copy, whose sequencer is idle, does not begin the one that the last clause gives it. -/
theorem not_writesHusk : ¬ Obligations.WritesHusk := by
  rintro ⟨-, -, -, -, -, -, hstarts⟩
  let s : State := { State.reset with husk.main.seqs := [(3, { busy := true })] }
  have hidle : (seqOf (copyOf s true) 3).busy = false := by decide
  have hmain : seqBusy s 3 = true := by decide
  have hshadow := hstarts 0 true s hidle
  rw [startWeld_of_busy hmain] at hshadow
  exact absurd hshadow (by decide)

end Sys2Proof.Machine
end

section
/-! PROOFS. The sequencers of Husk (R201, R204, R231, R232): how a user sequencer, the close sequencer and the orderly open
go through their steps in each copy, and the statement of the sequencers. -/

namespace Sys2Proof.Machine

/-! ## The sequencers and channel commands of a copy -/

@[simp] theorem actOf_setSeq (h : HuskCopy) (q : Nat) (x : SeqSt) (i : Nat) : actOf (setSeq h q x) i = actOf h i := rfl

@[simp] theorem seqOf_setAct (h : HuskCopy) (i : Nat) (a : BitVec 3) (q : Nat) : seqOf (setAct h i a) q = seqOf h q := rfl

@[simp] theorem actOf_setAct (h : HuskCopy) (i : Nat) (a : BitVec 3) (j : Nat) :
    actOf (setAct h i a) j = if j = i then a else actOf h j := by
  simp [actOf, setAct]

@[simp] theorem actOf_goStep (now : Nat) (h : HuskCopy) (q k i : Nat) : actOf (goStep now h q k) i = actOf h i := rfl

@[simp] theorem seqOf_goStep (now : Nat) (h : HuskCopy) (q k r : Nat) :
    seqOf (goStep now h q k) r =
      if r = q then { seqOf h q with busy := true, step := k, since := now, cut := false } else seqOf h r := by
  simp [goStep]

@[simp] theorem actOf_endSeq (h : HuskCopy) (q : Nat) (fault : Bool) (i : Nat) : actOf (endSeq h q fault) i = actOf h i := rfl

@[simp] theorem seqOf_endSeq (h : HuskCopy) (q : Nat) (fault : Bool) (r : Nat) :
    seqOf (endSeq h q fault) r = if r = q then { seqOf h q with busy := false, fault := fault } else seqOf h r := by
  simp [endSeq]

@[simp] theorem seqOf_stepAct (h : HuskCopy) (i j : Nat) (f : BitVec 3 → BitVec 3) (q : Nat) :
    seqOf (stepAct h i j f) q = seqOf h q := by
  unfold stepAct
  split <;> rfl

theorem actOf_stepAct {h : HuskCopy} {i j : Nat} (hcmdr : cmdrOf h i = j) (f : BitVec 3 → BitVec 3) :
    actOf (stepAct h i j f) i = f (actOf h i) := by
  simp [stepAct, hcmdr]

@[simp] theorem copyOf_noteOpenEnd (i : Nat) (s : State) (c : Bool) : copyOf (noteOpenEnd i s) c = copyOf s c := by
  simp [copyOf, id @noteOpenEnd_keep]

/-! ## Aborts -/

/-- A copy put with the binding levels that it had leaves every abort binding as it stands (R204). -/
theorem abortBound_setCopy {s : State} {c : Bool} {h : HuskCopy} (houts : h.outs = (copyOf s c).outs) (q : Nat) :
    abortBound (setCopy s c h) q = abortBound s q := by
  cases c <;> simp_all [abortBound, setCopy, copyOf]

theorem abortSeq_other (q : Nat) (c : Bool) (s : State) : copyOf (abortSeq q (!c) s) c = copyOf s c := by
  simp only [abortSeq]
  split
  · rfl
  · simp

theorem abortSeq_stops {q : Nat} {c : Bool} {s : State} (hbusy : (seqOf (copyOf s c) q).busy = true) :
    (seqOf (copyOf (abortSeq q c s) c) q).busy = false ∧ (seqOf (copyOf (abortSeq q c s) c) q).act = 0 := by
  simp only [abortSeq, hbusy, Bool.not_true, Bool.false_eq_true, if_false, copyOf_setCopy, if_true]
  split <;> simp

theorem abortStanding_other (q : Nat) (c : Bool) (s : State) : copyOf (abortStanding [!c] q s) c = copyOf s c := by
  unfold abortStanding
  split
  · exact abortSeq_other q c s
  · rfl

theorem abortStanding_of_unbound {q : Nat} {s : State} (hfree : abortBound s q = false) (m : List Bool) :
    abortStanding m q s = s := by
  simp [abortStanding, hfree]

theorem sequencerAbort_stops {m : Copies} {q : Nat} {c : Bool} {s : State} (hbound : abortBound s q = true)
    (hc : c ∈ copyList m) (hbusy : (seqOf (copyOf s c) q).busy = true) :
    makes (.sequencerAbort m q) s fun u =>
      (seqOf (copyOf u c) q).busy = false ∧ (seqOf (copyOf u c) q).act = 0 := by
  obtain ⟨u, ⟨hcopy, -⟩, hfold⟩ := copyOf_foldl_of_clock (f := fun s c => abortSeq q c s) s hc (abortSeq_other q c)
    fun u d => by simp [id @abortSeq_keep]
  refine ⟨_, rfl, ?_⟩
  simp only [if_pos hbound, copyOf_noteOpenEnd, hfold]
  exact abortSeq_stops (hcopy ▸ hbusy)

/-! ## User sequencers -/

theorem enterUser_outs (now : Nat) (prog : List HStep) (h : HuskCopy) (q k : Nat) :
    (enterUser now prog h q k).outs = h.outs := by
  unfold enterUser
  repeat' split
  all_goals rfl

/-- A step that neither ends nor faults is gone to with its ACT bits (R201). -/
theorem seqOf_enterUser {prog : List HStep} {k : Nat} {e : HStep} (hk : prog[k]? = some e) (hflt : e.flt = false)
    (hfin : e.fin = false) (now : Nat) (h : HuskCopy) (q : Nat) :
    seqOf (enterUser now prog h q k) q =
      { busy := true, fault := false, step := k, since := now, act := e.act, cut := false } := by
  simp [enterUser, hk, hflt, hfin]

/-- A fault step ends the sequencer with every ACT bit 0 (R201). -/
theorem seqOf_enterUser_of_flt {prog : List HStep} {k : Nat} {e : HStep} (hk : prog[k]? = some e) (hflt : e.flt = true)
    (now : Nat) (h : HuskCopy) (q : Nat) :
    seqOf (enterUser now prog h q k) q = { seqOf h q with busy := false, fault := true, act := 0, step := k } := by
  simp [enterUser, hk, hflt]

/-- Copy `c` with the start edge of sequencer `q` taken. -/
def edgeTaken (q : Nat) (s : State) (c : Bool) : State := setCopy s c (dropReq q (copyOf s c))

theorem abortBound_edgeTaken (q : Nat) (s : State) (c : Bool) (r : Nat) :
    abortBound (edgeTaken q s c) r = abortBound s r := by
  refine abortBound_setCopy ?_ r
  rfl

theorem startIn_user {q : Nat} (hq : 16 ≤ q) (s : State) (c : Bool) :
    startIn q s c =
      if reqOf (copyOf s c) q then abortStanding [c] q (userStart q c (edgeTaken q s c)) else s := by
  simp [startIn, startSeq, hq, edgeTaken]

theorem userStart_other (q : Nat) (c : Bool) (s : State) : copyOf (userStart q (!c) s) c = copyOf s c := by
  simp only [userStart]
  split
  · rfl
  · simp

theorem abortBound_userStart (q : Nat) (c : Bool) (s : State) (r : Nat) :
    abortBound (userStart q c s) r = abortBound s r := by
  simp only [userStart]
  split
  · rfl
  · refine abortBound_setCopy ?_ r
    exact enterUser_outs ..

theorem startIn_other {q : Nat} (hq : 16 ≤ q) (c : Bool) (s : State) : copyOf (startIn q s (!c)) c = copyOf s c := by
  rw [startIn_user hq]
  split
  · rw [abortStanding_other, userStart_other]
    simp [edgeTaken]
  · rfl

/-- A user sequencer that no abort stops starts by its edge alone. -/
theorem startIn_of_unbound {q : Nat} {s : State} (hq : 16 ≤ q) (hfree : abortBound s q = false) (c : Bool) :
    startIn q s c = if reqOf (copyOf s c) q then userStart q c (edgeTaken q s c) else s := by
  have htaken : abortBound (userStart q c (edgeTaken q s c)) q = false := by
    rw [abortBound_userStart, abortBound_edgeTaken, hfree]
  rw [startIn_user hq, abortStanding_of_unbound htaken]

theorem abortBound_startIn {q : Nat} {s : State} (hq : 16 ≤ q) (hfree : abortBound s q = false) (c : Bool) :
    abortBound (startIn q s c) q = false := by
  rw [startIn_of_unbound hq hfree]
  split
  · rw [abortBound_userStart, abortBound_edgeTaken, hfree]
  · exact hfree

theorem sequencerStart_starts {m : Copies} {q : Nat} {c : Bool} {e : HStep} {s : State} (hq : 16 ≤ q) (hq' : q < 32)
    (hreq : reqOf (copyOf s c) q = true) (hc : c ∈ copyList m) (hfree : abortBound s q = false)
    (hidle : (seqOf (copyOf s c) q).busy = false) (he : (userProg (copyOf s c) q)[0]? = some e) (hflt : e.flt = false)
    (hfin : e.fin = false) :
    makes (.sequencerStart m q) s fun u => seqOf (copyOf u c) q =
      { busy := true, fault := false, step := 0, since := s.time.tns, act := e.act, cut := false } := by
  obtain ⟨u, ⟨hcopy, hclock, hfree⟩, hfold⟩ := copyOf_foldl_copyList (f := startIn q) (s := s)
    (R := fun u => copyOf u c = copyOf s c ∧ u.time = s.time ∧ abortBound u q = false) hc (startIn_other hq c)
    (fun u ⟨hcopy, hclock, hfree⟩ => ⟨(startIn_other hq c u).trans hcopy, by simpa [id @startIn_keep] using hclock,
      abortBound_startIn hq hfree _⟩) ⟨rfl, rfl, hfree⟩
  refine ⟨_, rfl, ?_⟩
  have hprog : (userProg (dropReq q (copyOf s c)) q)[0]? = some e := he
  have hidle' : (seqOf (dropReq q (copyOf s c)) q).busy = false := hidle
  have htime : (edgeTaken q u c).time = s.time := by simpa [edgeTaken, id @setCopy_keep] using hclock
  have hedge : copyOf (edgeTaken q u c) c = dropReq q (copyOf s c) := by simp [edgeTaken, hcopy]
  simp only [if_pos hq', hfold, startIn_of_unbound hq hfree, hcopy, if_pos hreq]
  simp [userStart, hedge, hidle', seqOf_enterUser hprog hflt hfin, htime]

theorem seqNext_user {q : Nat} {c : Bool} {s : State} (hq : 16 ≤ q) (hbusy : (seqOf (copyOf s c) q).busy = true)
    (timeout : Bool) : seqNext q timeout c s = userNext q timeout c s := by
  simp [seqNext, hq, hbusy]

section
variable {m : Copies} {q : Nat} {c : Bool} {e f : HStep} {s : State} (hm : copyList m = [c]) (hq : 16 ≤ q)
  (hbusy : (seqOf (copyOf s c) q).busy = true)
  (he : (userProg (copyOf s c) q)[(seqOf (copyOf s c) q).step]? = some e)
include hm hq hbusy he

theorem sequencerWaitMet_goes_on (hmet : srcVal s (copyOf s c) e.wait ≠ e.waitZero)
    (hf : (userProg (copyOf s c) q)[e.nextOk]? = some f) (hflt : f.flt = false) (hfin : f.fin = false) :
    makes (.sequencerWaitMet m q) s fun u => seqOf (copyOf u c) q =
      { busy := true, fault := false, step := e.nextOk, since := s.time.tns, act := f.act, cut := false } := by
  refine ⟨_, rfl, ?_⟩
  simp [hm, seqNext_user hq hbusy, userNext, he, hmet, seqOf_enterUser hf hflt hfin]

theorem sequencerTimeout_faults (hwait : srcVal s (copyOf s c) e.wait = e.waitZero)
    (hpast : s.time.tns ≥ (seqOf (copyOf s c) q).since + e.tmo * unitNs e.tunit)
    (hf : (userProg (copyOf s c) q)[e.nextTmo]? = some f) (hflt : f.flt = true) :
    makes (.sequencerTimeout m q) s fun u => seqOf (copyOf u c) q =
      { seqOf (copyOf s c) q with busy := false, fault := true, act := 0, step := e.nextTmo } := by
  refine ⟨_, rfl, ?_⟩
  simp [hm, seqNext_user hq hbusy, userNext, he, hwait, hpast, seqOf_enterUser_of_flt hf hflt]

end

/-! ## The close sequencer -/

theorem cellsPass_seqs (s : State) (h : HuskCopy) : (cellsPass s h).seqs = h.seqs :=
  List.foldlRecOn (motive := fun k : HuskCopy => k.seqs = h.seqs) _ _ rfl fun _ hk _ _ => hk

theorem timersPass_seqs (s : State) (h : HuskCopy) : (timersPass s h).seqs = h.seqs :=
  List.foldlRecOn (motive := fun k : HuskCopy => k.seqs = h.seqs) _ _ rfl fun _ hk _ _ => hk

theorem netPasses_seqs (s : State) (n : Nat) (h : HuskCopy) : (netPasses s n h).seqs = h.seqs := by
  induction n generalizing h with
  | zero => rfl
  | succ n ih => rw [netPasses, ih, timersPass_seqs, cellsPass_seqs]

theorem restless_seqs (s : State) (a b : HuskCopy) : (restless s a b).seqs = b.seqs := by
  refine List.foldlRecOn (motive := fun k : HuskCopy => k.seqs = b.seqs) _ _ rfl fun k hk x _ => ?_
  split
  · exact hk
  · exact hk

/-- Settling moves cells, timers and bindings, and no sequencer (R195). -/
theorem settleCopy_seqs (s : State) (h : HuskCopy) : (settleCopy s h).seqs = h.seqs := by
  change (netRest s h).seqs = h.seqs
  simp only [netRest, restless_seqs, cellsPass_seqs, netPasses_seqs]

theorem seqOf_settleNet (s : State) (c : Bool) (q : Nat) :
    seqOf (copyOf (settleNet s) c) q = seqOf (copyOf s c) q := by
  have hseqs : (copyOf (settleNet s) c).seqs = (copyOf s c).seqs := by
    cases c <;> simp [settleNet, copyOf, id @adviseEdges_keep, addReq, settleCopy_seqs]
  simp [seqOf, hseqs]

section
variable {i : Nat} {c : Bool} {s : State} (hallow : closeAllowed s i = true)
  (hidle : (seqOf (copyOf s c) (4 * i)).busy = false)
include hallow hidle

/-- A close that is allowed decides step 0 in the copy in which it starts, with FAULT clear (R231). -/
theorem closeStart_decides :
    ∃ h : HuskCopy, copyOf (closeStart i c s) c = closeStep0 s.time.tns i (drvStr s i).weld h ∧
      seqOf h (4 * i) = { seqOf (copyOf s c) (4 * i) with
        busy := true, fault := false, step := 0, since := s.time.tns, cut := false } := by
  refine ⟨copyOf (settleNet (setCopy s c (startClose s.time.tns i (copyOf s c)))) c, ?_, ?_⟩
  · simp [closeStart, hallow, hidle, drvStr, id @settleNet_keep, id @setCopy_keep]
  · simp [seqOf_settleNet, startClose]

theorem closeStart_starts (hweld : (drvStr s i).weld = false) :
    seqOf (copyOf (closeStart i c s) c) (4 * i) =
      { seqOf (copyOf s c) (4 * i) with busy := true, fault := false, step := 1, since := s.time.tns, cut := false } ∧
    actOf (copyOf (closeStart i c s) c) i = 2 := by
  obtain ⟨h, hcopy, hseq⟩ := closeStart_decides hallow hidle
  simp [hcopy, closeStep0, hweld, hseq]

theorem closeStart_faults (hweld : (drvStr s i).weld = true) :
    (seqOf (copyOf (closeStart i c s) c) (4 * i)).busy = false ∧
    (seqOf (copyOf (closeStart i c s) c) (4 * i)).fault = true ∧ actOf (copyOf (closeStart i c s) c) i = 0 := by
  obtain ⟨h, hcopy, -⟩ := closeStart_decides hallow hidle
  simp [hcopy, closeStep0, hweld]

end

theorem sequencerStart_in_copies (m : Copies) {q : Nat} (s : State) (hq : q < 32) :
    settlesTo (.sequencerStart m q) s ((copyList m).foldl (startIn q) s) := by
  rw [settlesTo, exec, execSequencerStart, if_pos hq]

/-! ## The orderly open -/

theorem orderlyNext_other (i : Nat) (timeout : Bool) (c : Bool) (s : State) :
    copyOf (orderlyNext i timeout (!c) s) c = copyOf s c := by
  simp only [orderlyNext]
  repeat' split
  all_goals simp

theorem seqNext_orderly {i : Nat} (hi : i < 4) (timeout c : Bool) (s : State) :
    seqNext (4 * i + 1) timeout c s =
      if (seqOf (copyOf s c) (4 * i + 1)).busy then orderlyNext i timeout c s else s := by
  have hlow : ¬ 4 * i + 1 ≥ 16 := by omega
  have hkind : (4 * i + 1) % 4 = 1 := by omega
  have hstring : (4 * i + 1) / 4 = i := by omega
  by_cases hbusy : (seqOf (copyOf s c) (4 * i + 1)).busy = true <;> simp [seqNext, hlow, hkind, hstring, hbusy]

theorem seqNext_orderly_other {i : Nat} (hi : i < 4) (timeout c : Bool) (s : State) :
    copyOf (seqNext (4 * i + 1) timeout (!c) s) c = copyOf s c := by
  rw [seqNext_orderly hi]
  split
  · exact orderlyNext_other i timeout c s
  · rfl

/-- An orderly open of copy `c` may open its next channel: its current has fallen, or it has waited 2 s (R232). -/
def orderlyDue (i : Nat) (timeout : Bool) (s : State) (c : Bool) : Prop :=
  if timeout then s.time.tns ≥ (seqOf (copyOf s c) (4 * i + 1)).since + 2000000000
  else (monOf (copyOf s c) i).iOrd = true

theorem orderlyNext_opens {i : Nat} {timeout c : Bool} {s : State}
    (hstep : (seqOf (copyOf s c) (4 * i + 1)).step = 0) (hcmdr : cmdrOf (copyOf s c) i = 1)
    (hdue : orderlyDue i timeout s c) :
    actOf (copyOf (orderlyNext i timeout c s) c) i = actOf (copyOf s c) i &&& 6 ∧
    (seqOf (copyOf (orderlyNext i timeout c s) c) (4 * i + 1)).step = 1 := by
  cases timeout with
  | false =>
    have hfall : (monOf (copyOf s c) i).iOrd = true := hdue
    simp [orderlyNext, hstep, hfall, actOf_stepAct hcmdr]
  | true =>
    have hpast : s.time.tns ≥ (seqOf (copyOf s c) (4 * i + 1)).since + 2000000000 := hdue
    simp [orderlyNext, hstep, hpast, actOf_stepAct hcmdr]

/-- An orderly open that is due in a copy named opens its next channel there, whatever the other copy does (R232). -/
theorem foldl_seqNext_opens {m : Copies} {i : Nat} {timeout c : Bool} {s : State} (hc : c ∈ copyList m) (hi : i < 4)
    (hbusy : (seqOf (copyOf s c) (4 * i + 1)).busy = true) (hstep : (seqOf (copyOf s c) (4 * i + 1)).step = 0)
    (hcmdr : cmdrOf (copyOf s c) i = 1) (hdue : orderlyDue i timeout s c) :
    actOf (copyOf ((copyList m).foldl (fun s c => seqNext (4 * i + 1) timeout c s) s) c) i =
      actOf (copyOf s c) i &&& 6 ∧
    (seqOf (copyOf ((copyList m).foldl (fun s c => seqNext (4 * i + 1) timeout c s) s) c) (4 * i + 1)).step = 1 := by
  obtain ⟨u, ⟨hcopy, hclock⟩, hfold⟩ := copyOf_foldl_of_clock (f := fun s c => seqNext (4 * i + 1) timeout c s) s hc
    (seqNext_orderly_other hi timeout c) fun u d => by simp [id @seqNext_keep]
  have hdue' : orderlyDue i timeout u c := by simpa only [orderlyDue, hcopy, hclock] using hdue
  rw [hfold, seqNext_orderly hi, hcopy, if_pos hbusy, ← hcopy]
  exact orderlyNext_opens (hcopy ▸ hstep) (hcopy ▸ hcmdr) hdue'

/-- Settles O13: each sequencer goes on in each copy named by that copy's own step, monitor and clock, and an abort binding
stops it in both. -/
theorem huskSequencers : Obligations.HuskSequencers :=
  ⟨fun _ _ _ _ _ => sequencerStart_starts, fun _ _ _ => closeStart_starts, fun _ _ _ => closeStart_faults,
    fun m _ s => sequencerStart_in_copies m s, fun _ _ _ => ⟨rfl, rfl⟩,
    fun _ _ _ _ _ _ => sequencerWaitMet_goes_on, fun _ _ _ _ _ _ => sequencerTimeout_faults,
    fun _ _ _ _ hc hi hbusy hstep hfall hcmdr => ⟨_, rfl, foldl_seqNext_opens hc hi hbusy hstep hcmdr hfall⟩,
    fun _ _ _ _ hc hi hbusy hstep hcmdr hpast => ⟨_, rfl, foldl_seqNext_opens hc hi hbusy hstep hcmdr hpast⟩,
    fun _ _ _ _ => sequencerAbort_stops⟩

end Sys2Proof.Machine
end

section
/-! PROOFS. The trip latches of Husk (R206, R210 to R214): what sets one, what a clear request leaves, and the statement
of the latches. -/

namespace Sys2Proof.Machine

/-! ## What leaves the latches of a copy -/

@[simp] theorem setSeq_latches (h : HuskCopy) (q : Nat) (x : SeqSt) : (setSeq h q x).latches = h.latches := rfl

@[simp] theorem setAct_latches (h : HuskCopy) (i : Nat) (a : BitVec 3) : (setAct h i a).latches = h.latches := rfl

@[simp] theorem goStep_latches (now : Nat) (h : HuskCopy) (q k : Nat) : (goStep now h q k).latches = h.latches := rfl

@[simp] theorem endSeq_latches (h : HuskCopy) (q : Nat) (fault : Bool) : (endSeq h q fault).latches = h.latches := rfl

@[simp] theorem stepAct_latches (h : HuskCopy) (i j : Nat) (f : BitVec 3 → BitVec 3) :
    (stepAct h i j f).latches = h.latches := by
  unfold stepAct
  split <;> rfl

/-- A copy in which another sequencer takes command of string `i` from the close keeps its latches. -/
theorem abortClose_latches (h : HuskCopy) (i : Nat) (cmdr : Tab Nat) :
    ({ abortClose h i with cmdr := cmdr } : HuskCopy).latches = h.latches := by
  unfold abortClose
  split <;> rfl

theorem startOrderly_latches (now i : Nat) (h : HuskCopy) : (startOrderly now i h).latches = h.latches := by
  simp only [startOrderly]
  repeat' split
  · rfl
  · rfl
  · simp [abortClose_latches]

theorem startFast_latches (now i : Nat) (h : HuskCopy) : (startFast now i h).latches = h.latches := by
  simp only [startFast]
  repeat' split
  · rfl
  · rfl
  · simp [abortClose_latches]
  · simp [abortClose_latches]

/-- A copy put with the latches that it had leaves the latches of both. -/
theorem setCopy_latches {s : State} {d : Bool} {h : HuskCopy} (hd : h.latches = (copyOf s d).latches) (c : Bool) :
    (copyOf (setCopy s d h) c).latches = (copyOf s c).latches := by
  rw [copyOf_setCopy]
  split
  · next hcd => rw [hcd, hd]
  · rfl

theorem abortSeq_latches (q : Nat) (d : Bool) (s : State) (c : Bool) :
    (copyOf (abortSeq q d s) c).latches = (copyOf s c).latches := by
  simp only [abortSeq]
  split
  · rfl
  · refine setCopy_latches ?_ c
    split <;> simp

theorem abortStanding_latches (m : List Bool) (q : Nat) (s : State) (c : Bool) :
    (copyOf (abortStanding m q s) c).latches = (copyOf s c).latches := by
  unfold abortStanding
  split
  · exact foldl_keep (fun u => (copyOf u c).latches) _ m s fun u d => abortSeq_latches q d u c
  · rfl

@[simp] theorem copyOf_noteOpen (i : Nat) (s : State) (c : Bool) : copyOf (noteOpen i s) c = copyOf s c := by
  simp [copyOf, id @noteOpen_keep]

theorem orderlyOpen_latches (m : List Bool) (i : Nat) (s : State) (c : Bool) :
    (copyOf (orderlyOpen m i s) c).latches = (copyOf s c).latches := by
  simp only [orderlyOpen, copyOf_noteOpenEnd, abortStanding_latches]
  rw [foldl_keep (fun u => (copyOf u c).latches) _ m _ fun u d => setCopy_latches (startOrderly_latches ..) c,
    copyOf_noteOpen]

theorem fastOpen_latches (m : List Bool) (i : Nat) (s : State) (c : Bool) :
    (copyOf (fastOpen m i s) c).latches = (copyOf s c).latches := by
  simp only [fastOpen, copyOf_noteOpenEnd, abortStanding_latches]
  rw [foldl_keep (fun u => (copyOf u c).latches) _ m _ fun u d => setCopy_latches (startFast_latches ..) c,
    copyOf_noteOpen]

/-- A copy that follows the other opens the string, which moves no latch (R21). -/
theorem tripFollow_latches (m : List Bool) (cat i : Nat) (s : State) (c : Bool) :
    (copyOf (tripFollow m cat i s) c).latches = (copyOf s c).latches := by
  unfold tripFollow
  repeat' split
  · exact fastOpen_latches m i s c
  · exact orderlyOpen_latches m i s c
  · rfl

/-- What a latch does opens the string or starts its grace, which moves no latch (R211). -/
theorem tripAction_latches (m : List Bool) (cat i : Nat) (s : State) (c : Bool) :
    (copyOf (tripAction m cat i s) c).latches = (copyOf s c).latches := by
  unfold tripAction
  repeat' split
  · exact fastOpen_latches m i _ c
  · rfl
  · exact orderlyOpen_latches m i s c
  · rfl

@[simp] theorem copyOf_countCause (i : Nat) (s : State) (c : Bool) : copyOf (countCause i s) c = copyOf s c := rfl

@[simp] theorem copyOf_emit (code : Nat) (payload : List Byte) (s : State) (ix : Nat) (c : Bool) :
    copyOf (emit code payload s ix) c = copyOf s c := by
  simp [copyOf, id @emit_keep]

@[simp] theorem copyOf_lgRequest (code : Nat) (payload : List Byte) (s : State) (c : Bool) :
    copyOf (lgRequest code payload s) c = copyOf s c := by
  simp [copyOf, id @lgRequest_keep]

/-! ## Setting a latch -/

/-- The latch of category `cat` of string `i` set in copy `c`. -/
def latchCopy (cat i : Nat) (s : State) (c : Bool) : State := setCopy s c (latchIn cat i (copyOf s c))

theorem latchOf_latchIn {i : Nat} (hi : i < 4) (cat : Nat) (h : HuskCopy) : latchOf (latchIn cat i h) cat i = true := by
  by_cases h0 : cat = 0
  · simp [latchOf, latchIn, h0, getLsbD_setBit4 hi]
  · by_cases h1 : cat = 1
    · simp [latchOf, latchIn, h1, getLsbD_setBit4 hi]
    · simp [latchOf, latchIn, h0, h1, getLsbD_setBit4 hi]

/-- A copy of the list has its latch set, and one whose latch is set keeps it (R206). -/
theorem latchOf_foldl_latchCopy {i : Nat} (hi : i < 4) (cat : Nat) {c : Bool} (l : List Bool) (s : State)
    (h : c ∈ l ∨ latchOf (copyOf s c) cat i = true) :
    latchOf (copyOf (l.foldl (latchCopy cat i) s) c) cat i = true := by
  induction l generalizing s with
  | nil => simpa using h
  | cons d l ih =>
    refine ih (latchCopy cat i s d) ?_
    by_cases hd : c = d
    · exact .inr (by simp [latchCopy, hd, latchOf_latchIn hi])
    · simpa [latchCopy, hd] using h

/-- A trip that nothing governs sets its latch in each copy that it reaches (R206, R211, R212). -/
theorem latchOf_tripSet {cat i : Nat} {m : List Bool} {c : Bool} {s : State} (hi : i < 4) (hc : c ∈ m)
    (hfree : latched s cat i = true ∨ tripGoverned s cat i = false) (src : Nat) :
    latchOf (copyOf (tripSet m cat i src s) c) cat i = true := by
  have hset (u : State) (hu : copyOf u c = copyOf s c) :
      latchOf (copyOf ((m.filter fun d => !latchOf (copyOf s d) cat i).foldl (latchCopy cat i) u) c) cat i = true := by
    refine latchOf_foldl_latchCopy hi cat _ u ?_
    by_cases hl : latchOf (copyOf s c) cat i = true
    · exact .inr (hu ▸ hl)
    · exact .inl (List.mem_filter.mpr ⟨hc, by simpa using hl⟩)
  unfold tripSet
  extract_lets fresh setAll first firstHard pay s1 husk s2 s3 s4
  by_cases hl : latched s cat i = true
  · rw [if_pos hl]
    split
    · next hnone =>
      have : fresh = [] := by simpa using hnone
      simpa [fresh, this] using hset s rfl
    · rw [latchOf_of_latches (tripFollow_latches ..)]
      refine hset _ ?_
      split <;> rfl
  · have hgov : tripGoverned s cat i = false := by simpa [hl] using hfree
    have hs2 : copyOf s2 c = copyOf (setAll s) c := by
      simp only [s2]
      split <;> rfl
    have hs4 : copyOf s4 c = copyOf (setAll s) c := by
      simp only [s4]
      split <;> simp [s3, hs2]
    rw [if_neg hl, if_neg (by simp [hgov]), latchOf_of_latches (tripAction_latches ..), hs4]
    exact hset s rfl

theorem tripLatchSet_sets {m : Copies} {cat i src : Nat} {c : Bool} {s : State} (hi : i < 4) (hcat : cat < 3)
    (hconf : configured s i = true) (hnl : s.husk.nlSrc ≠ .none) (hc : c ∈ tripCopies s (copyList m) cat i src)
    (hfree : latched s cat i = true ∨ tripGoverned s cat i = false) :
    makes (.tripLatchSet m cat i src) s fun u => latchOf (copyOf u c) cat i = true := by
  have hcopies : (tripCopies s (copyList m) cat i src).isEmpty = false := by
    simpa using List.ne_nil_of_mem hc
  refine ⟨tripSet (tripCopies s (copyList m) cat i src) cat i src s, ?_, latchOf_tripSet hi hc hfree src⟩
  simp [settlesTo, exec, execTripLatchSet, hconf, hcat, hnl, hcopies]

/-! ## Clear requests -/

/-- While a channel is on, a clear request is refused or finds nothing to clear (R214). -/
theorem clearRequest_of_on {i j : Nat} {s : State} (req : Nat) (hj : j < 3) (hon : chCmd s i j = true) :
    (clearRequest req i s).husk = s.husk ∧ (clearRequest req i s).cur = s.cur ∧ (clearRequest req i s).drv = s.drv := by
  have hany : (chCmd s i 0 || chCmd s i 1 || chCmd s i 2) = true := by
    obtain rfl | rfl | rfl : j = 0 ∨ j = 1 ∨ j = 2 := by omega
    all_goals simp [hon]
  simp only [clearRequest, hany, Bool.not_true, Bool.false_and, Bool.and_false, Bool.false_eq_true, if_false, if_true]
  repeat' split
  all_goals simp [id @clearRefuse_keep]

/-- A clear request that nothing stands against is granted (R214). -/
theorem clearRequest_of_clear {i : Nat} {s : State} (req : Nat) (hoff : ∀ j, j < 3 → chCmd s i j = false)
    (hraw : cmpRawActive s i = false) (hlatch : anyLatch s i = true ∨ cmpLatched s i = true)
    (hfree : tripBound (settleNet (clearDrv i s)) i = false) :
    clearRequest req i s =
      clearDone (causeWord (causeOf s i)) req i (clearLatches i (settleNet (clearDrv i s))) := by
  have hsome : (anyLatch s i || cmpLatched s i) = true := by simpa using hlatch
  simp [clearRequest, hoff, hraw, hsome, hfree]

theorem clearLatches_husk (i : Nat) (s : State) :
    (clearLatches i s).husk = { s.husk with
      main := unlatch i s.husk.main, shadow := unlatch i s.husk.shadow
      cause := Tab.set {} s.husk.cause i {}, grace := Tab.set none s.husk.grace i none } := by
  unfold clearLatches
  extract_lets s1 husk s2
  split <;> rfl

theorem cmpLatched_clearLatches (i : Nat) (s : State) : cmpLatched (clearLatches i s) i = false := by
  have hch : ∀ n ∈ [2 * i, 2 * i + 1],
      (curCh (clearLatches i s) n).latHi = false ∧ (curCh (clearLatches i s) n).latLo = false := by
    intro n hn
    unfold clearLatches
    extract_lets s1 husk s2
    have hs1 : (curCh s1 n).latHi = false ∧ (curCh s1 n).latLo = false := by
      obtain rfl | rfl : n = 2 * i ∨ n = 2 * i + 1 := by simpa using hn
      all_goals simp [s1]
    split <;> exact hs1
  simpa [cmpLatched] using hch

theorem latchOf_unlatch {i : Nat} (hi : i < 4) (cat : Nat) (h : HuskCopy) : latchOf (unlatch i h) cat i = false := by
  simp [latchOf, unlatch, getLsbD_setBit4 hi]

theorem anyLatch_of_unlatched {i : Nat} {s : State} (h : ∀ c cat, latchOf (copyOf s c) cat i = false) :
    anyLatch s i = false := by
  have hcat (cat : Nat) : latched s cat i = false := by simpa [latched] using ⟨h false cat, h true cat⟩
  simp [anyLatch, hcat]

theorem drvCh_clearDrv {i n : Nat} (hn : n ∈ [3 * i, 3 * i + 1, 3 * i + 2]) (s : State) :
    (drvCh (clearDrv i s) n).drive = false ∧ (drvCh (clearDrv i s) n).openF = false := by
  obtain rfl | rfl | rfl : n = 3 * i ∨ n = 3 * i + 1 ∨ n = 3 * i + 2 := by simpa using hn
  all_goals simp [clearDrv]

/-- With the drivers as they were cleared, no pre-driver fault of the string is latched. -/
theorem drvLatched_of_clearDrv {i : Nat} {s t : State} (hdrv : t.drv = (clearDrv i s).drv) : drvLatched t i = false := by
  have hch (n : Nat) : drvCh t n = drvCh (clearDrv i s) n := by simp [drvCh, hdrv]
  refine List.any_eq_false.mpr fun n hn => ?_
  obtain ⟨hdrive, hopen⟩ := drvCh_clearDrv hn s
  simp [chFault, hch, hdrive, hopen]

theorem clearRequest_clears {i : Nat} {s : State} (req : Nat) (hi : i < 4) (hoff : ∀ j, j < 3 → chCmd s i j = false)
    (hraw : cmpRawActive s i = false) (hlatch : anyLatch s i = true ∨ cmpLatched s i = true)
    (hfree : tripBound (settleNet (clearDrv i s)) i = false) :
    anyLatch (clearRequest req i s) i = false ∧ cmpLatched (clearRequest req i s) i = false ∧
    drvLatched (clearRequest req i s) i = false ∧ causeOf (clearRequest req i s) i = {} := by
  rw [clearRequest_of_clear req hoff hraw hlatch hfree]
  have hdone (was : Word) (u : State) : (clearDone was req i u).husk = u.husk ∧ (clearDone was req i u).cur = u.cur ∧
      (clearDone was req i u).drv = u.drv := by
    simp [id @clearDone_keep]
  refine ⟨anyLatch_of_unlatched fun c cat => ?_, ?_, drvLatched_of_clearDrv (s := s) ?_, ?_⟩
  · cases c <;> simp [copyOf, hdone, clearLatches_husk, latchOf_unlatch hi]
  · simpa [cmpLatched, curCh, hdone] using cmpLatched_clearLatches i (settleNet (clearDrv i s))
  · simp [hdone, id @clearLatches_keep, id @settleNet_keep]
  · simp [causeOf, hdone, clearLatches_husk]

/-! ## KEY and grace -/

theorem keyRearm_requests {t : Nat} {s : State} (hoff : s.drv.keyOffAt = some t) (hkey : s.drv.key = true)
    (hlong : s.time.tns ≥ t + 1000000000) :
    settlesTo .keyRearm s ((List.range 4).foldl (fun s i => clearRequest 2 i s)
      (lgRequest 0x0389 [] (emit 0x0389 [] { s with sys.keyRearm := false, drv.keyOffAt := none }))) := by
  simp [settlesTo, exec, execKeyRearm, hoff, hkey, nsPerSec, hlong]

theorem graceExpiry_opens {i t : Nat} {s : State} (hgrace : Tab.get none s.husk.grace i = some t)
    (hover : s.time.tns ≥ t) :
    settlesTo (.graceExpiry i) s (orderlyOpen [false, true] i (stopGrace i s)) := by
  simp [settlesTo, exec, execGraceExpiry, hgrace, hover]

/-- Settles O10: a trip sets its latch before it opens the string, which moves no latch, and a clear request that nothing
stands against clears every latch of its string. -/
theorem huskLatches : Obligations.HuskLatches :=
  ⟨fun _ _ _ _ _ _ => tripLatchSet_sets, fun req _ _ => clearRequest_clears req,
    fun req _ _ _ => clearRequest_of_on req, fun _ _ => keyRearm_requests, fun _ _ _ => graceExpiry_opens⟩

end Sys2Proof.Machine
end
